-- ==== Sys2Proof/Word.lean ====
section
/-!
DEFINITION. Word.lean: the plain words of the model: the two halves of the package, bytes, and the arithmetic that
every layer above uses.
-/

namespace Sys2Proof

/-- The two halves of the package (R12). -/
inductive Half where
  | h0 | h1
deriving DecidableEq, Repr

/-- The other half. -/
def Half.other : Half → Half
  | .h0 => .h1
  | .h1 => .h0

/-- The number of a half. -/
def Half.num : Half → Nat
  | .h0 => 0
  | .h1 => 1

/-- The half of a number: 0 is half 0, anything else half 1. -/
def Half.ofNum (n : Nat) : Half := if n = 0 then .h0 else .h1

abbrev Byte := BitVec 8

/-- A status code of 16 bits (R20). -/
abbrev Status := Nat

end Sys2Proof
end

