-- ==== Sys2Proof/Syntax.lean ====
section
/-!
DEFINITION. Syntax.lean: the commands of the block, one constructor for each row of the table of operations and events,
with the operands each carries, and the messages and packets those operands are made of.
-/

namespace Sys2Proof

/-- The aux output and input pins that carry a function (§2). -/
inductive AuxPin where
  | pwm0 | pwm1 | pwm2 | pwm3 | fb2b | smbAlert | pcycReq
deriving DecidableEq, Repr

/-- Messages between the two halves, over the Pass main lanes or the sideband. -/
inductive HalfMsg where
  /-- the set-up lock (R144) -/
  | setupLock
  /-- ROLE: whether the sender holds the roles (R528) -/
  | role (holds : Bool)
  /-- notice of a Lowland entry (R121) -/
  | lowland
  /-- a plateau notice with its switch time (R62) -/
  | plateau (target s : Nat)
  /-- an MC heartbeat: role, last committed generation, loop state (R536) -/
  | heartbeat (role gen loop : Nat)
  /-- a commit record of a generation (R539) -/
  | genCommit (rec_ : List Byte)
  /-- a hardware REVOKE (R537) -/
  | revoke
  /-- the acknowledgement that a role latch has cleared (R537) -/
  | latchCleared
  /-- REJOIN (R535) -/
  | rejoin
deriving DecidableEq, Repr

/-- The two shadow registers of a PWM channel (R78). -/
inductive PwmReg where
  | period | duty
deriving DecidableEq, Repr

/-- The codes of AUX_DIAG (Table 2.8). -/
inductive DiagCode where
  | shortLow | shortHigh | open
deriving DecidableEq, Repr

/-- The THERM registers whose writes are checked whole (Table 2.11 and the FBn registers, R96). -/
inductive ThermReg where
  | set0 | set1 | gain | split | rangeV | rangeP | timing | prime
  | fbMinInt (n : Fin 3)
  | fbZs (n : Fin 3)
  | fbWindow (n : Fin 3)
deriving DecidableEq, Repr

/-- What the FEC reports of a codeword (R359, R364). -/
inductive FecResult where
  | clean | corrected | uncorrectable
deriving DecidableEq, Repr

/-- How a flit arrives: the control field of its FEC codeword ([19:16] type, [15:0] count), the slot of the codeword it lies in, what
the FEC reports, and whether the slot of the receive buffer that takes it reads with an uncorrectable ECC error (R360, R364, R367, R383). -/
structure FlitArrival where
  control : Nat
  slot : Fin 2
  fec : FecResult
  eccBad : Bool
deriving DecidableEq, Repr

/-- The registers of a ring block that are written only while the ring is DISABLED (R147). -/
inductive RingReg where
  | base | cqBase | cfg | coal | start
deriving DecidableEq, Repr

/-- Who makes an HBM access of the controller (R32): the context in a slot of a core of the half, or an engine of the half that works
for a function, with the chain whose work it is, by its ring and SEQ. -/
inductive Requester where
  | context (core : Fin 256) (slot : Fin 2)
  | engine (fn : Nat) (chain : Option (Nat × Nat))
deriving DecidableEq, Repr

/-- What the HBM controller's ECC finds in an access (R32). -/
inductive EccErr where
  | none | corrected | uncorrectable
deriving DecidableEq, Repr

/-- The rails that the device monitors (Table 18.4): VARRn of compute die Tn, also DIE_PG[n] deasserted, and those of the package. -/
inductive Rail where
  | varr (die : Fin 8)
  | vhbmVpp | vhbmVdd | vhbmVddq | vser | vhub | vaon
deriving DecidableEq, Repr

/-- A work unit on borrowed granules (R52, Table 1.9), by what it works for: a unit that a class names itself, the receipt of a
unit of a collective (its chain's order of reading, and its segment, phase, step and number), or a page on its way to or from the Valley
tier. -/
inductive UnitTag where
  | named (n : Nat)
  | coll (chainNo seg phase step unit : Nat)
  | page (request layer head page : Nat)
deriving DecidableEq, Repr

/-- The point that issued a host access (R131): a chain, the read of a block of its entry list, a context, or a Valley prefetch of a page.
-/
inductive HostPoint where
  | chain (ring seq : Nat)
  | entries (ring seq entry : Nat)
  | context (core : Fin 256) (slot : Fin 2)
  | page (request layer head page : Nat)
deriving DecidableEq, Repr

/-- Whose access meets an ECC error of a core's scratchpad, or a line of its die's cache (§6.8): a context slot of the core, a context
of any core, or an engine working for a chain of a half. -/
inductive EccAt where
  | slot (k : Fin 2)
  | context (half : Half) (core : Fin 256) (slot : Fin 2)
  | engine (half : Half) (ring seq : Nat)
  | cacheLine (line : Nat)
deriving DecidableEq, Repr

/-- What a PTP message travelled on, and its domain (Table 14.4): the transport as PTP_CFG.TRANSPORT codes it, 0 UDP over IPv4, 1 UDP over
IPv6, 2 Ethernet. -/
structure PtpNet where
  transport : Fin 3
  number : Nat
deriving DecidableEq, Repr

/-- The BARs of a function (Table 4.3). -/
inductive Bar where
  | bar0 | bar2 | bar4
deriving DecidableEq, Repr

/-- A boot image or a module configuration record in module flash (R497, R498): the fields of its header (Table 15.5), whose PUBKEY, DIGEST,
rsvd and SIG are bytes, and its body: the MC firmware with the digests of the manifest for an image; for a configuration record the settling
parameters of Table 3.4, where it gives them, and CO_ROOT. -/
structure FlashImage where
  magic : Nat
  hdrVer : Nat
  keySlot : Nat
  svn : Nat
  version : Nat
  length : Nat
  pubkey : List Byte
  digest : List Byte
  rsvd : List Byte
  sig : List Byte
  firmware : List Byte
  /-- SHA-384 of the security block firmware, of the HBM training firmware and of the SerDes training firmware -/
  manifest : List (List Byte)
  /-- SETTLE_SLOPE, SETTLE_HOLD, SETTLE_TIMEOUT and SETTLE_FLOW_PERIOD, where the record gives them -/
  settle : List (Option Nat)
  coRoot : List Byte
  /-- the offset in module flash of the fine ledger's region, where the record names it (R552) -/
  ledgerAt : Option Nat
deriving DecidableEq, Repr

/-- How the conditional self-tests of a security block stand while a command draws its keys (Table 15.10): passed; a repetition-count or
adaptive-proportion test of the entropy source failed; the pairwise consistency test of the generated pair failed. -/
inductive Health where
  | good | entropy | pair
deriving DecidableEq, Repr

/-- A GO of a partition, with the continuous tests of the entropy source while it draws its keys (R486, R508). -/
structure GoCmd where
  part : Fin 64
  health : Health
deriving DecidableEq, Repr

/-- A KIMP_CTL.START for a party, with the conditional tests of its key pair (R495, R508). -/
structure KimpOffer where
  party : Nat
  health : Health
deriving DecidableEq, Repr

/-- What an IDE_KM request does with a key set of a stream (R504): programs its key, makes it the set in use, stops it. -/
inductive IdeOp where
  | prog (set : Fin 2)
  | go (set : Fin 2)
  | stop (set : Fin 2)
deriving DecidableEq, Repr

/-- The commands of the block (spec/opcode_table.json), in the table's order. -/
inductive Instr where
  /-- PASS_FLIT_RECEIVE (R35): A flit arrives on the Pass main lanes; an accepted flit resets the run of replay-limit exhaustions. -/
  | passFlitReceive (h : Half) (replays : Fin 5)
  /-- PASS_REPLAY_EXHAUST (R35): One flit reaches its fourth replay without acceptance, so the replay limit is exhausted and the lanes
start to realign. -/
  | passReplayExhaust (h : Half)
  /-- PASS_REALIGN_DONE (R35): Lane realignment after an exhaustion ends and transmission resumes. -/
  | passRealignDone (h : Half)
  /-- PASS_LOCK_LOST (R35): The forwarded clock leaves lock, or deskew is lost on a Pass lane. -/
  | passLockLost (h : Half)
  /-- PASS_SIDEBAND_LOST (R38): The sideband loses its character timing; SB_LOST is set and SB_ALIVE clears. -/
  | passSidebandLost (h : Half)
  /-- HBM_READ (R32): An HBM read access completes, with correction and write-back, or with ST_ECC_UNCORR. -/
  | hbmRead (h : Half) (who : Requester) (a len : Nat) (err : EccErr) (chan : Fin 32)
  /-- HBM_WRITE (R32): An HBM write completes; a partial write is a read-modify-write that writes nothing on an uncorrectable read. -/
  | hbmWrite (h : Half) (who : Requester) (a : Nat) (data : List Byte) (err : EccErr) (chan : Fin 32)
  /-- HOST_ACCESS_FAIL (R131): A non-posted host request fails by UR, CA, poison or completion timeout, giving ST_HOST_ACCESS. -/
  | hostAccessFail (h : Half) (point : HostPoint)
  /-- POOL_COMMIT (R47): POOL_CTL.COMMIT checks the staged pool configuration and applies it or records the refusal. -/
  | poolCommit (h : Half)
  /-- POOL_QUIESCE_SET (R48): POOL_CTL.QUIESCE is written, so that the half admits no new request or admits again. -/
  | poolQuiesceSet (h : Half) (on : Bool)
  /-- POOL_GRANULE_REQUEST (R49): A consumer class requests a granule from the floor, unreserved or lendable granules. -/
  | poolGranuleRequest (h : Half) (cls : Fin 7) (n : Nat) (unit : Option UnitTag)
  /-- POOL_GRANULE_RELEASE (R49): A granule is released and credited to a reclaim, to a lending class or to the unreserved granules. -/
  | poolGranuleRelease (h : Half) (cls : Fin 7)
  /-- POOL_UNIT_COMPLETE (R51): A borrower's work unit in flight completes and its borrowed granules return to the reclaim. -/
  | poolUnitComplete (h : Half) (cls : Fin 7) (tag : UnitTag)
  /-- POOL_FORCE_RELEASE (R52): A borrower's unit is still in flight 6.5 µs after the reclaim request, so it is cancelled, forced and
reissued. -/
  | poolForceRelease (h : Half) (cls : Fin 7) (tag : UnitTag)
  /-- PKG_SERVICE_UPDATE (R56): PKG_SERVICE is updated after a change in usable units or role grant, and Lowland NO_COMPUTE may follow. -/
  | pkgServiceUpdate
  /-- PLAT_REQUEST (R62): The operator writes PLAT_CTL.REQ; the request is accepted, with S and notices, or refused per Table 2.4. -/
  | platRequest (h : Half) (noticeMs target : Nat)
  /-- PLAT_CANCEL (R65): PLAT_CTL.CANCEL withdraws a pending operator change before S, or is refused. -/
  | platCancel (h : Half)
  /-- PLAT_PLL_LOCKED (R62): The second ARR PLL of a die locks at the target frequency. -/
  | platPllLocked (die : Fin 8)
  /-- PLAT_PLL_TIMEOUT (R65): A second PLL has not locked 200 µs after acceptance, so the change is withdrawn with ST_PLL_LOCK. -/
  | platPllTimeout
  /-- PLAT_SWITCH_TIME (R62): Monotonic time reaches S and every hub scheduler stops dispatching new tile passes. -/
  | platSwitchTime
  /-- PLAT_DRAIN_DONE (R62): The last tile pass reaches its boundary, the multiplexer switches, dispatch resumes and PLAT_DONE is set. -/
  | platDrainDone
  /-- THERM_START (R68): THERM_CTL.START moves the loop from OFF to PRIME, or records ST_THERM_CONFIG. -/
  | thermStart (h : Half)
  /-- THERM_MODE_SET (R74): THERM_CTL.MODE is written to enter MANUAL, which may be refused, or to return to AUTO. -/
  | thermModeSet (h : Half) (manual : Bool)
  /-- THERM_LOOP_PERIOD (R69): The 1 ms loop period reads the sensors, computes the demand and arms new PWM duties. -/
  | thermLoopPeriod (tIn tOut : Option Nat) (tj : Nat)
  /-- THERM_FAIL_HOLD_EXPIRE (R72): CT_OUT has stayed at or above T_OUT_FAIL at full demand for FAIL_HOLD_MS. -/
  | thermFailHoldExpire
  /-- THERM_SENS_LOSS_EXPIRE (R72): CT_OUT has been unreadable for SENS_LOSS consecutive periods. -/
  | thermSensLossExpire
  /-- THERM_AUTO_DOWN_EXPIRE (R73): The demand has been forced by TJ_WARN for AUTO_DOWN_MS. -/
  | thermAutoDownExpire
  /-- THERM_CONFIG_WRITE (R96): A write to a THERM coefficient or range field is accepted or refused whole. -/
  | thermConfigWrite (h : Half) (reg : ThermReg) (v : Nat)
  /-- PWM_RELOAD (R78): The PWM counter wraps, and an armed transfer moves both shadows to the active registers. -/
  | pwmReload (h : Half) (n : Fin 4)
  /-- PWM_UPDATE (R78): PWMn_CTL.UPDATE arms a shadow transfer, or is refused with ST_PWM_RANGE. -/
  | pwmUpdate (h : Half) (n : Fin 4)
  /-- PWM_SHADOW_WRITE (R79): A write to a PWM PERIOD or DUTY shadow stores the value, and disarms a pending transfer. -/
  | pwmShadowWrite (h : Half) (n : Fin 4) (reg : PwmReg) (v : Nat)
  /-- PWM_ENABLE (R80): PWMn_CTL.EN goes from 0 to 1; the channel claims its pin and starts from its shadows. -/
  | pwmEnable (h : Half) (n : Fin 4)
  /-- PWM_DISABLE (R80): PWMn_CTL.EN is cleared; the output goes inactive, the armed transfer is discarded and the pin is released. -/
  | pwmDisable (h : Half) (n : Fin 4)
  /-- TRIG_CONFIG_WRITE (R81): TRIG_CFGk is written, enabling or disabling a trigger that claims its pin and a comparator. -/
  | trigConfigWrite (h : Half) (k : Fin 2) (en timed : Bool) (ch : Fin 4) (width at_ : Nat)
  /-- TRIG_SYNC_PULSE (R81): The PWM counter reaches AT, and a PWM-synchronous trigger starts its pulse. -/
  | trigSyncPulse (h : Half) (k : Fin 2)
  /-- PIN_PULSE_END (R81): The pulse width of a trigger or PPS output runs out and the pin returns low. -/
  | pinPulseEnd (h : Half) (pin : AuxPin)
  /-- FB_EDGE (R83): A rising edge on a feedback input is counted, updating POSITION and PERIOD, or is rejected as a glitch. -/
  | fbEdge (h : Half) (n : Fin 3) (onB levelB : Bool)
  /-- FB_POSITION_WRITE (R84): Software writes POSITION. -/
  | fbPositionWrite (h : Half) (n : Fin 3) (v : Nat)
  /-- FB_ZS_TIMEOUT (R85): No edge has counted for ZS_TIMEOUT, so STOPPED is set and PERIOD reads 0xFF_FFFF. -/
  | fbZsTimeout (h : Half) (n : Fin 3)
  /-- FB_WINDOW_END (R85): A counting window ends and COUNT_WIN is updated. -/
  | fbWindowEnd (h : Half) (n : Fin 3)
  /-- FB_MODE_SET (R88): FBn MODE is written, which may claim FB2B; PERIOD and the window are cleared. -/
  | fbModeSet (h : Half) (n : Fin 3) (mode : Fin 4)
  /-- FB_CLR_GLITCH (R83): FBn_CTL.CLR_GLITCH clears the GLITCH count. -/
  | fbClrGlitch (h : Half) (n : Fin 3)
  /-- AUX_KEY_CHANGE (R92): The cable key pattern changes; AUX_KEY is updated and THERM_EVENT.CABLE is set. -/
  | auxKeyChange (pattern : Fin 4)
  /-- AUX_FAULT_DETECT (R93): A short or open is diagnosed on an aux output and latched in AUX_DIAG. -/
  | auxFaultDetect (pin : AuxPin) (code : DiagCode)
  /-- AUX_SHORT_RETRY (R93): Every 10 ms a shorted aux driver retries. -/
  | auxShortRetry (pin : AuxPin) (persists : Bool)
  /-- AUX_DIAG_CLR (R93): AUX_DIAG_CLR clears the latched code of the named outputs. -/
  | auxDiagClr (h : Half) (mask : Nat)
  /-- AUX_OUTPUT_DRIVE (R90): The incoming hub drives the aux outputs from mirrored shadows, 1 µs to 20 µs after the release. -/
  | auxOutputDrive (h : Half)
  /-- POWER_GOOD_RISE (R117): PWR_GOOD rises and a power-on start-up begins. -/
  | powerGoodRise
  /-- POWER_GOOD_FALL (R102): PWR_GOOD is deasserted and the device resets completely. -/
  | powerGoodFall (tearing : Bool)
  /-- STRAP_SAMPLE (R97): Each hub samples its straps at the first MC edge at least 1 µs after PWR_GOOD. -/
  | strapSample (h : Half) (bootSel platInit : Fin 4) (smbAddr : Fin 8) (media fips : Bool)
  /-- STRAP_COMPARE (R99): Once both hubs have booted, the role holder compares the straps, and both use its values on a mismatch. -/
  | strapCompare
  /-- ROM_BOOT (R103): The ROM reads the fuses, verifies the boot images and starts the first that passes. -/
  | romBoot (h : Half) (okA okB : Bool)
  /-- SELFTEST_PREOP (R105): The started firmware runs the pre-operational self-tests; a failure enters Lowland SECURITY. -/
  | selftestPreop (h : Half) (ok : Bool)
  /-- ROLE_SETTLE (R106): The chip-wide roles are settled once both self-tests pass, or the other hub is known to be in recovery. -/
  | roleSettle
  /-- SETTLE_SAMPLE (R108): Every 100 ms in PRIME, CT_OUT is sampled and judged good or not. -/
  | settleSample (tOut : Option Nat) (tj : Nat)
  /-- SETTLE_TIMEOUT (R109): SETTLE_TIMEOUT passes in PRIME, so the loop enters FAIL with ST_SETTLE_TIMEOUT. -/
  | settleTimeout
  /-- STARTUP_DIE_TRAIN (R111): Step E1 powers the usable dies, locks their ARR PLLs at P2 and trains their die links. -/
  | startupDieTrain (failed : Nat)
  /-- STARTUP_HBM_TRAIN (R111): Step E2 trains both HBM stacks and marks a failing stack unusable. -/
  | startupHbmTrain (failed : Fin 4)
  /-- STARTUP_PASS_TRAIN (R111): Step E3 trains the Pass main lanes with spare repair, or declares the Pass down. -/
  | startupPassTrain (ok : Bool) (spares0 spares1 : Nat)
  /-- STARTUP_PCIE_READY (R113): Step E4 ends RRS, sends Device Readiness Status, and reaches management-ready. -/
  | startupPcieReady
  /-- STARTUP_CORE_TEST (R114): Stage F tests the cores, zeroes scratchpads and HBM, and invalidates the die caches. -/
  | startupCoreTest (failing : List Nat)
  /-- STARTUP_PLATEAU_ENABLE (R115): Stage G locks the second PLLs at the PLAT_INIT level and switches to them. -/
  | startupPlateauEnable
  /-- PLATEAU_ENABLE_PLL_TIMEOUT (R115): A second PLL has not locked 200 µs into stage G, so every die stays at P2. -/
  | plateauEnablePllTimeout
  /-- COMPUTE_READY (R117): Step 13 sets PKG_SERVICE, records BOOT_TIME_COMP and raises BOOT_DONE. -/
  | computeReady
  /-- STAGE_BOUND_EXCEEDED (R117): A start-up stage exceeds its bound, so its unfinished units fail and the next stage starts. -/
  | stageBoundExceeded
  /-- PERST_DEASSERT (R113): The host deasserts PERST#, and PCIe link training starts on that hub. -/
  | perstDeassert (h : Half)
  /-- LOWLAND_ENTER (R121): A Lowland cause arises; the chip stops dispatch, parks the clock, closes requests and idles the ports. -/
  | lowlandEnter
  /-- LOWLAND_EXIT (R125): LOWLAND_CTL.EXIT is written; the THERM cause is cleared, with resettling, or the write is refused. -/
  | lowlandExit (h : Half)
  /-- REG_WRITE (R24): A write to a register field with no behaviour of its own acts by its access type. -/
  | regWrite (h : Half) (fn off : Nat) (wide : Bool) (v : Nat)
  /-- NARROW_ACCESS (R135): A narrow BAR0 piece is read from its 4-byte values, or discarded as a write with BAD_WIDTH counted. The operand
  is the memory request of a function that the pieces are cut from, or a request to BAR2 or BAR4: a read of `len` bytes, or a write. -/
  | narrowAccess (h : Half) (fn : Nat) (bar : Bar) (off len : Nat) (data : Option (List Byte))
  /-- UNMAPPED_ACCESS (R134): An access to a reserved or unmapped offset reads zero or is discarded, with UNMAPPED counted. -/
  | unmappedAccess (h : Half) (fn off : Nat) (write : Bool)
  /-- RS_READ_LOW (R138): A 4-byte read of an RS low word latches the high word into the function's shadow. -/
  | rsReadLow (h : Half) (fn off : Nat)
  /-- RS_READ_HIGH (R138): A 4-byte read of an RS high word returns the shadow on a tag match, or the live value with SHADOW_MISS. -/
  | rsReadHigh (h : Half) (fn off : Nat)
  /-- REG64_WRITE_LOW (R140): A 4-byte low-word write of a 64-bit register is staged in the function's write shadow. -/
  | reg64WriteLow (h : Half) (fn off v : Nat)
  /-- REG64_WRITE_HIGH (R140): A 4-byte high-word write updates the whole 64-bit register, with the staged low word or the current one. -/
  | reg64WriteHigh (h : Half) (fn off v : Nat)
  /-- COUNTER_SNAP (R141): A group's SNAP copies its counters at one HUB cycle and increments SNAP_SEQ. -/
  | counterSnap (h : Half) (fn g : Nat)
  /-- SETUP_LOCK_SET (R143): SETUP_LOCK.LOCK is written to 1, and every RWL field of the half becomes read-only. -/
  | setupLockSet (h : Half)
  /-- RING_CONFIG_WRITE (R147): A ring base, size, coalescing or start field is written, or refused with ST_RING_BUSY. -/
  | ringConfigWrite (h : Half) (ring : Nat) (reg : RingReg) (v : Nat)
  /-- RING_ENABLE (R148): RING_CTL.EN = 1 checks state and configuration, and makes the ring ACTIVE. -/
  | ringEnable (h : Half) (ring : Nat)
  /-- RING_DISABLE (R155): RING_CTL.EN = 0 moves the ring to STOPPING, and its unadmitted chains complete with ST_CANCELLED. -/
  | ringDisable (h : Half) (ring : Nat)
  /-- RING_FSTOP (R155): The operator writes RING_CTL.FSTOP to stop a tenant ring. -/
  | ringFstop (h : Half) (ring : Nat)
  /-- RING_STOP_DRAINED (R155): A STOPPING ring has written every record it owes and enters DISABLED. -/
  | ringStopDrained (h : Half) (ring : Nat)
  /-- DOORBELL_WRITE (R150): A submission doorbell carries a new PI, which is accepted or sets DB_RANGE or DB_DISABLED. -/
  | doorbellWrite (h : Half) (ring pi : Nat)
  /-- DESC_FETCH (R153): Once credit is free, the scheduler issues a read of up to 8 descriptors of a ring. -/
  | descFetch (h : Half) (ring : Nat)
  /-- DESC_FETCH_COMPLETE (R154): A descriptor read returns, and the device runs the content it read. -/
  | descFetchComplete (h : Half) (ring : Nat) (data : List Byte)
  /-- DESC_FETCH_FAIL (R156): A descriptor fetch fails, so the ring enters ERROR with FETCH set. -/
  | descFetchFail (h : Half) (ring : Nat)
  /-- PIN_ALLOC_WRITE (R157): The operator writes PIN_ALLOC; slots are given and zeroed, or the write is refused. -/
  | pinAllocWrite (h : Half) (ring count : Nat)
  /-- PINNED_SLOT_WRITE (R159): A BAR4 write lands in a pinned slot, or is discarded as crossing, beyond range, busy or badly sized. -/
  | pinnedSlotWrite (h : Half) (ring off : Nat) (data : List Byte)
  /-- PINNED_READ (R160): The scheduler reads the next pinned chain from its slots. -/
  | pinnedRead (h : Half) (ring : Nat)
  /-- CQ_DOORBELL_WRITE (R164): A completion doorbell returns records with a new CQ_CI, or sets CQ_DB_RANGE. -/
  | cqDoorbellWrite (h : Half) (ring ci : Nat)
  /-- EVT_RING_WRITE (R165): FUNC EVT_RING is written to name the event ring, or refused with ST_RING_BUSY. -/
  | evtRingWrite (h : Half) (fn : Nat) (en : Bool) (ring : Fin 8)
  /-- COAL_TIME_EXPIRE (R167): COAL_TIME has passed since the first unsignalled record, so the vector's message is sent. -/
  | coalTimeExpire (h : Half) (ring : Nat)
  /-- MSIX_UNMASK (R168): Unmasking a vector with its PBA bit set sends one message. -/
  | msixUnmask (h : Half) (fn vec : Nat)
  /-- PERST_ASSERT (R169): PERST# stops and disables every ring of the half and closes its requests with ST_HOST_LINK_DOWN. -/
  | perstAssert (h : Half)
  /-- HOT_RESET (R169): A Hot Reset on the half's link acts as PERST#. -/
  | hotReset (h : Half)
  /-- DL_DOWN (R169): The data link goes down, stopping the rings and closing the requests of the half. -/
  | dlDown (h : Half)
  /-- FLR_PF (R169): An FLR of the PF resets every ring of the half and closes requests with ST_FLR. -/
  | flrPf (h : Half)
  /-- FLR_VF (R169): An FLR of a VF resets its window and rings and closes its partition's requests with ST_FLR. -/
  | flrVf (h : Half) (vf : Nat)
  /-- BME_CLEAR (R169): Bus Master Enable is cleared, stopping the function's rings and closing its requests. -/
  | bmeClear (h : Half) (fn : Nat)
  /-- D3HOT_ENTER (R169): The function enters D3hot, with the effect of a cleared Bus Master Enable. -/
  | d3hotEnter (h : Half) (fn : Nat)
  /-- CHAIN_READ (R181): The scheduler reads a whole chain and makes the checks of Table 5.5a in order. -/
  | chainRead (h : Half) (ring : Nat)
  /-- CHAIN_COMPLETE (R196): A chain finishes; its counter is signalled and its final record is written. -/
  | chainComplete (h : Half) (ring seq : Nat)
  /-- EVC_VAL_WRITE (R197): A write to EVC_VAL sets an event counter. -/
  | evcValWrite (h : Half) (fn j v : Nat)
  /-- EVC_ADD_WRITE (R197): A write to EVC_ADD adds to an event counter. -/
  | evcAddWrite (h : Half) (fn j v : Nat)
  /-- EVC_ALLOC_WRITE (R205): The operator allots a partition's counter range, or the write is refused. -/
  | evcAllocWrite (h : Half) (p base count : Nat)
  /-- REQ_ALLOC_WRITE (R205): The operator allots a partition's range of request numbers, or the write is refused. -/
  | reqAllocWrite (h : Half) (p base count : Nat)
  /-- MARKER (R188): A MARKER chain writes WR_VAL if one is named, then its record. -/
  | marker (h : Half) (ring seq : Nat)
  /-- FENCE (R188): A FENCE chain completes once every covered chain has written its final record. -/
  | fence (h : Half) (ring seq : Nat)
  /-- BARRIER (R188): A BARRIER chain snapshots the PIs of the named rings and completes when the chains below them finish. -/
  | barrier (h : Half) (ring seq : Nat)
  /-- TIME_WAIT (R478): A TIME_WAIT chain completes at its release time with ST_OK or ST_LATE. -/
  | timeWait (h : Half) (ring seq : Nat)
  /-- EVENT_OP (R188): An EVENT_OP chain adds to or sets an event counter at admission. -/
  | eventOp (h : Half) (ring seq : Nat)
  /-- CANCEL (R350): A CANCEL chain cancels the named request or every open request of the party. -/
  | cancel (h : Half) (ring seq : Nat)
  /-- REQ_OPEN (R202): REQ_OPEN makes a FREE request OPEN, checks its page map and reserves its close record. -/
  | reqOpen (h : Half) (ring seq : Nat)
  /-- REQ_CLOSE (R202): REQ_CLOSE makes an OPEN request CLOSING and queues END on its streams. -/
  | reqClose (h : Half) (ring seq : Nat)
  /-- REQUEST_FREE (R203): A CLOSING request's chains and streams have ended; the close record is written and its pages released. -/
  | requestFree (h : Half) (num : Nat)
  /-- MATMUL (R214): A MATMUL chain computes C from A and B under its loop-nest table. -/
  | matmul (h : Half) (ring seq : Nat)
  /-- FUSED (R250): A FUSED chain computes a product, a row function and a second product. -/
  | fused (h : Half) (ring seq : Nat)
  /-- ATTN (R274): An ATTN chain cuts its attention into units and ranges and runs them on its contexts. -/
  | attn (h : Half) (ring seq : Nat)
  /-- ATTN_RING (R278): An ATTN_RING chain folds KV blocks passed around the members of a ring. -/
  | attnRing (h : Half) (ring seq : Nat)
  /-- VERIFY (R283): A VERIFY chain scores a draft tree against the accepted prefix. -/
  | verify (h : Half) (ring seq : Nat)
  /-- GEN_STEP (R347): A GEN_STEP chain stays admitted and runs STEPS output-head steps. -/
  | genStep (h : Half) (ring seq : Nat)
  /-- COLL (R394): A COLL chain runs a collective operation of a group. -/
  | coll (h : Half) (ring seq : Nat)
  /-- KV_ALLOC (R298): KV_PAGE ALLOC allocates pages and optionally appends positions from staging rows. -/
  | kvAlloc (h : Half) (ring seq : Nat)
  /-- KV_FREE (R300): KV_PAGE FREE frees the covered whole pages. -/
  | kvFree (h : Half) (ring seq : Nat)
  /-- KV_PIN (R300): KV_PAGE PIN sets PIN on the covered pages and prefetches those in VALLEY. -/
  | kvPin (h : Half) (ring seq : Nat)
  /-- KV_UNPIN (R300): KV_PAGE UNPIN clears PIN on the covered pages. -/
  | kvUnpin (h : Half) (ring seq : Nat)
  /-- KV_SPILL (R310): KV_PAGE SPILL starts Valley spills of the covered eligible pages. -/
  | kvSpill (h : Half) (ring seq : Nat)
  /-- KV_PREFETCH (R310): KV_PAGE PREFETCH brings the covered VALLEY pages back to HBM. -/
  | kvPrefetch (h : Half) (ring seq : Nat)
  /-- KV_ROLLBACK (R326): KV_PAGE ROLLBACK moves the length pointer, moving kept rows if a list is given. -/
  | kvRollback (h : Half) (ring seq : Nat)
  /-- KV_PAUSE (R322): KV_PAGE PAUSE writes a pause record of the retained pages and frees the request's slots. -/
  | kvPause (h : Half) (ring seq : Nat)
  /-- KV_RESUME (R325): KV_PAGE RESUME checks a pause record and restores its pages, making the request OPEN. -/
  | kvResume (h : Half) (ring seq : Nat)
  /-- KV_PREFIX_LOOKUP (R318): PREFIX_LOOKUP maps matching shared chunks and copies a matching partial leaf. -/
  | kvPrefixLookup (h : Half) (ring seq : Nat)
  /-- KV_PREFIX_INSERT (R320): PREFIX_INSERT turns the request's chunks into shared directory nodes and a partial leaf. -/
  | kvPrefixInsert (h : Half) (ring seq : Nat)
  /-- SHIP (R429): A SHIP chain queues and holds its pages on a stream, opening the stream if needed. -/
  | ship (h : Half) (ring seq : Nat)
  /-- COPY (R187): A COPY chain copies or zero-fills LEN bytes. -/
  | copy (h : Half) (ring seq : Nat)
  /-- ADAPTER_LOAD (R343): ADAPTER_LOAD copies an adapter region, checks its header and makes the slot READY. -/
  | adapterLoad (h : Half) (ring seq : Nat)
  /-- TILE_PASS (R208): A tile pass enters the array and streams its operands. -/
  | tilePass (h : Half) (core : Nat) (slot : Fin 2)
  /-- TILE_BOUNDARY (R209): A tile pass fully drains, so the context reaches a boundary. -/
  | tileBoundary (h : Half) (core : Nat) (slot : Fin 2)
  /-- VECTOR_STEP (R210): A vector step of at most 512 cycles runs on the vector unit. -/
  | vectorStep (h : Half) (core : Nat) (slot : Fin 2)
  /-- SLOT_SWITCH (R226): A switch command reaches a core, and the array moves to the other slot after the drain. -/
  | slotSwitch (h : Half) (core : Nat) (slot : Fin 2)
  /-- SP_ECC_ERROR (R222): A scratchpad ECC error is corrected and written back, or fails the access and faults the context. -/
  | spEccError (h : Half) (core : Nat) (site : EccAt) (off syndrome : Nat) (uncorr rmw : Bool)
  /-- CORE_CFG_WRITE (R231): CORE_CFG.BANK_SPLIT is written only while both slots are EMPTY. -/
  | coreCfgWrite (h : Half) (core split : Nat)
  /-- CORE_CNT_CLR (R230): CORE_CNT_CLR clears the selected core counters. -/
  | coreCntClr (h : Half) (core mask : Nat)
  /-- DIE_CACHE_INVALIDATE (R228): DC_CTL.INV invalidates a whole die cache. -/
  | dieCacheInvalidate (h : Half) (die : Fin 4)
  /-- CONTEXT_DISPATCH (R237): A context is dispatched to a slot and reads its loop-nest table. -/
  | contextDispatch (h : Half) (core : Nat) (slot : Fin 2)
  /-- WORK_FETCH (R243): A context that begins an item fetches the next index from the home work counter. -/
  | workFetch (h : Half) (core : Nat) (slot : Fin 2)
  /-- WORK_INDEX_RETURN (R243): The work counter returns an index to the fetching context. -/
  | workIndexReturn (h : Half) (core : Nat) (slot : Fin 2)
  /-- ITEM_START (R236): A context starts running an item through its nested levels. -/
  | itemStart (h : Half) (core : Nat) (slot : Fin 2)
  /-- BUFFER_LOAD (R236): A context issues the load of an A or B buffer. -/
  | bufferLoad (h : Half) (core : Nat) (slot : Fin 2) (isB : Bool)
  /-- BUFFER_LOAD_LANDED (R236): A buffer load lands, and the passes waiting on it may run. -/
  | bufferLoadLanded (h : Half) (core : Nat) (slot : Fin 2) (isB : Bool)
  /-- SPLITK_COMBINE (R247): The context whose partial completes the count combines the ranges in ascending order. -/
  | splitkCombine (h : Half) (core : Nat) (slot : Fin 2)
  /-- HALO_RECEIVE (R249): A context receives its halo from the next group's window once that load has landed. -/
  | haloReceive (h : Half) (core : Nat) (slot : Fin 2)
  /-- FUSED_PHASE2_START (R252): After phase 1 of an item ends, the context runs NEST2. -/
  | fusedPhase2Start (h : Half) (core : Nat) (slot : Fin 2)
  /-- ATTN_FOLD (R262): One key block is folded into a unit's running statistics and accumulator. -/
  | attnFold (h : Half) (core : Nat) (slot : Fin 2)
  /-- ATTN_COMPOSED_UNIT (R263): A composed unit forms every score, takes the exact max, and accumulates P·V. -/
  | attnComposedUnit (h : Half) (core : Nat) (slot : Fin 2)
  /-- ATTN_RANGE_COMBINE (R275): The context of range 0 calls for the other ranges' state and combines them. -/
  | attnRangeCombine (h : Half) (core : Nat) (slot : Fin 2)
  /-- ATTN_DEMAND_PREFETCH (R271): A visible key on a non-resident page issues a demand prefetch and suspends the context. -/
  | attnDemandPrefetch (h : Half) (core : Nat) (slot : Fin 2)
  /-- ATTN_RING_STEP (R278): A member forwards its held block, folds it, and receives the next block. -/
  | attnRingStep (h : Half) (ring seq : Nat)
  /-- ATTN_RING_BLOCK_LANDED (R408): The engine tells the tile dispatcher that a key block, or the whole block, has landed. -/
  | attnRingBlockLanded (h : Half) (ring seq : Nat) (keyBlock : Option Nat)
  /-- ATTN_RULE_WRITE (R284): ATTN_RULE is written, or refused for SPLIT_MIN = 0. -/
  | attnRuleWrite (h : Half) (splitMin composedMax : Nat)
  /-- EVICT_SLOT_HANDOVER (R315): The victim's slot passes to the allocator once every fold reading it has ended. -/
  | evictSlotHandover (h : Half) (num : Nat)
  /-- VALLEY_SPILL_START (R307): Held slots exceed HIGH, or a slot is needed, so the device spills candidates. -/
  | valleySpillStart (h : Half) (p : Nat)
  /-- VALLEY_SPILL_ISSUED (R308): A spill's writes are issued; the entry becomes VALLEY and the slot is freed. -/
  | valleySpillIssued (h : Half) (num layer head page : Nat)
  /-- LOOKAHEAD_PREFETCH (R309): A layer's first append or fold prefetches the VALLEY pages of the next layers. -/
  | lookaheadPrefetch (h : Half) (num layer : Nat)
  /-- VALLEY_PREFETCH_LAND (R311): A prefetched page arrives and its tag is checked; the entry becomes HBM or BAD. -/
  | valleyPrefetchLand (h : Half) (num layer head page : Nat)
  /-- PFX_FLUSH (R321): PFX_CTL.FLUSH reclaims every reclaimable node of the half. -/
  | pfxFlush (h : Half)
  /-- KV_QUOTA_WRITE (R289): Slot space, quota or group fields are applied, or refused with ST_KV_CONFIG. -/
  | kvQuotaWrite (h : Half) (reg : Fin 5) (idx v : Nat)
  /-- VALLEY_CONFIG_WRITE (R328): A partition's Valley registers are written, or refused with ST_KV_CONFIG. -/
  | valleyConfigWrite (h : Half) (p : Fin 64) (reg : Fin 3) (v : Nat)
  /-- BUDGET_REFILL (R339): At each 1 ms window, every balance is raised by BUDGET up to BURST. -/
  | budgetRefill (h : Half)
  /-- SCHED_SELECT (R336): The scheduler selects a head by class and weight and queues it for admission. -/
  | schedSelect (h : Half)
  /-- SLOT_GRANT (R338): An EMPTY ordinary slot goes to the queued chain that needs it, which is admitted once complete. -/
  | slotGrant (h : Half) (core : Nat) (slot : Fin 2)
  /-- URGENT_STANDING_DISPATCH (R335): A standing context is dispatched into slot 1 of URG_CORE once the slot is EMPTY. -/
  | urgentStandingDispatch (h : Half) (ring : Nat)
  /-- RING_SCHED_WRITE (R334): RING_SCHED is written to set class, target-set and URGENT binding, or is refused. -/
  | ringSchedWrite (h : Half) (ring v : Nat)
  /-- BUDGET_CFG_WRITE (R340): BUDGET and BURST are written for the next window, or refused. -/
  | budgetCfgWrite (h : Half) (p : Fin 65) (v : Nat)
  /-- PARTY_CFG_WRITE (R336): A party's WEIGHT is written, or refused for 0. -/
  | partyCfgWrite (h : Half) (q : Fin 65) (v : Nat)
  /-- ADP_ALLOC_WRITE (R342): The operator allots a partition's adapter slots, or the write is refused. -/
  | adpAllocWrite (h : Half) (p : Fin 65) (base count : Nat)
  /-- GEN_STEP_START (R347): A step starts once the counter reaches WAIT_VAL + k and the budget gate is open. -/
  | genStepStart (h : Half) (ring seq : Nat)
  /-- PORT_TRAIN (R361): PORT_CTL.TRAIN starts training of a fabric port, or is refused. -/
  | portTrain (h : Half) (port : Fin 6)
  /-- PORT_ADMIN_DOWN (R382): PORT_CTL.ADMIN_DOWN sends DOWN_NOTICE and takes the port DOWN. -/
  | portAdminDown (h : Half) (port : Fin 6)
  /-- PORT_PARTNER_DETECT (R361): Partner signal is detected on every lane of a training port. -/
  | portPartnerDetect (h : Half) (port : Fin 6)
  /-- PORT_TRAIN_TIMEOUT (R361): TRAIN_TMO passes without a partner, so the port ends DOWN with NO_PARTNER. -/
  | portTrainTimeout (h : Half) (port : Fin 6)
  /-- PORT_PMD_TRAIN_DONE (R361): PMD link training ends on the lanes, with two lanes or with failure. -/
  | portPmdTrainDone (h : Half) (port : Fin 6) (lanes : Nat)
  /-- PORT_FEC_LOCK (R361): FEC codeword lock and lane deskew are reached. -/
  | portFecLock (h : Half) (port : Fin 6) (lanes : Nat)
  /-- INIT_FLIT_RECEIVE (R362): The partner's INIT flit is checked, and the port becomes UP or MISWIRED. -/
  | initFlitReceive (h : Half) (port : Fin 6) (version node dir : Nat) (sizes : List Nat)
  /-- FLIT_RECEIVE (R365): A fabric flit is checked and accepted, or discarded with a NAK. -/
  | flitReceive (h : Half) (port : Fin 6) (bytes : List Byte) (how : FlitArrival)
  /-- FLIT_SEND_SLOT (R369): Each output flit slot is filled by priority: replay, control, VC2, VC3, VC0/VC1, idle. -/
  | flitSendSlot (h : Half) (port : Fin 6)
  /-- FABRIC_REPLAY_TIMEOUT (R365): The oldest unacknowledged flit has waited REPLAY_TMO, so the sender resends from ACK + 1. -/
  | fabricReplayTimeout (h : Half) (port : Fin 6)
  /-- FABRIC_REPLAY_EXHAUST (R366): A flit reaches 8 resends, so the FEC is relocked; a third run takes the port DOWN. -/
  | fabricReplayExhaust (h : Half) (port : Fin 6)
  /-- FABRIC_RELOCK_DONE (R366): Codeword relock ends and the sender resumes. -/
  | fabricRelockDone (h : Half) (port : Fin 6)
  /-- LANE_FAIL (R381): A receive lane loses lock or exceeds its error limit; the direction degrades or the port goes DOWN. -/
  | laneFail (h : Half) (port : Fin 6) (lanes : Nat) (both : Bool) (errors : Option Nat)
  /-- DEGRADE_FLIT_RECEIVE (R381): A DEGRADE flit makes the partner transmit on the named lane pair. -/
  | degradeFlitReceive (h : Half) (port : Fin 6) (pair : Nat)
  /-- LANE_DEGRADE_DONE (R381): A direction completes its move to two lanes, and the port is DEGRADED. -/
  | laneDegradeDone (h : Half) (port : Fin 6)
  /-- DOWN_NOTICE_RECEIVE (R382): The partner's DOWN_NOTICE takes the port DOWN. -/
  | downNoticeReceive (h : Half) (port : Fin 6)
  /-- PACKET_ROUTE (R373): A received packet is routed by dimension order, delivered locally, or dropped. -/
  | packetRoute (h : Half)
  /-- PACKET_INJECT (R376): An engine injects a packet, which is checked and sent or failed with a status. -/
  | packetInject (h : Half) (dst ptype : Nat) (transport payload : List Byte)
  /-- MGMT_READ (R378): A remote MGMT_READ is performed and answered, or refused with ST_FAB_REMOTE. -/
  | mgmtRead (h : Half)
  /-- MGMT_WRITE (R378): A remote MGMT_WRITE to a route table, RT_SEL or PORT_CTL is performed and answered. -/
  | mgmtWrite (h : Half)
  /-- PORT_EVENT_RECEIVE (R377): A PORT_EVENT packet arriving at the fabric manager's half posts an event record. -/
  | portEventReceive (h : Half)
  /-- FAB_TOPOLOGY_WRITE (R372): FAB_NODE, FAB_SIZE or FAB_PORT_DIR is written while every port is OFF or DOWN. -/
  | fabTopologyWrite (h : Half) (reg : Fin 3) (v : Nat)
  /-- FAB_BUF_WRITE (R367): The division of a port's receive buffer among credit classes is written or refused. -/
  | fabBufWrite (h : Half) (k : Fin 4) (lo hi : Nat)
  /-- RT_SEL_WRITE (R375): RT_SEL switches the route-table bank for every later decision. -/
  | rtSelWrite (h : Half) (bank : Nat)
  /-- ROUTE_TABLE_WRITE (R375): A route table of the bank not in use is written. -/
  | routeTableWrite (h : Half) (bank : Fin 2) (d : Fin 3) (v : Nat)
  /-- AUTO_RT (R375): FAB_CTL.AUTO_RT writes shortest-path tables into the bank not in use. -/
  | autoRt (h : Half)
  /-- GRP_CFG_WRITE (R387): A group table entry is made valid, with checks, or cleared. -/
  | grpCfgWrite (h : Half) (g : Fin 256) (reg : Fin 3) (v : Nat)
  /-- COLL_RUN (R391): The reduction engine takes a chain, checks group and epoch, and runs or refuses it. -/
  | collRun (h : Half) (ring seq : Nat)
  /-- COLL_CTS_SEND (R404): A member sends CTS upstream once a unit's granules are allocated. -/
  | collCtsSend (h : Half) (ring seq seg : Nat)
  /-- CTS_RECEIVE (R404): A CTS is received; its digest is checked and the unit's data is sent. -/
  | ctsReceive (h : Half)
  /-- COLL_DATA_RECEIVE (R404): A collective DATA packet is received, reduced or stored, and forwarded. -/
  | collDataReceive (h : Half) (page head fill : Nat)
  /-- DONE_RECEIVE (R404): A DONE releases the sender's copy of a unit. -/
  | doneReceive (h : Half)
  /-- COUNTS_RECEIVE (R395): COUNTS packets deliver the counts of a variable-size operation. -/
  | countsReceive (h : Half)
  /-- NOTCH_VALUE_RECEIVE (R411): A Notch VALUE is received, forwarded along the line and reduced when the line is complete. -/
  | notchValueReceive (h : Half)
  /-- NOTCH_BCAST_RECEIVE (R412): A Notch BCAST is received and forwarded along the axes. -/
  | notchBcastReceive (h : Half)
  /-- NOTCH_ABORT_RECEIVE (R417): A Notch ABORT stops the operation with ST_COLL_TIMEOUT and is flooded onward once. -/
  | notchAbortReceive (h : Half)
  /-- COLL_TIMER_EXPIRE (R415): A collective's timer expires without progress. -/
  | collTimerExpire (h : Half) (ring seq : Nat)
  /-- COLL_CFG_WRITE (R415): COLL_CFG.TMO_DEF is written or refused. -/
  | collCfgWrite (h : Half) (tmo : Nat)
  /-- EGR_ENABLE (R423): EGR_CTL.EN = 1 enables the egress port, or is refused. -/
  | egrEnable (h : Half)
  /-- EGR_DISABLE (R423): EGR_CTL.EN = 0 fails every open stream with ST_EGR_DOWN. -/
  | egrDisable (h : Half)
  /-- EGR_CONFIG_WRITE (R423): EGR_MAC, IP or port configuration is written while EN is 0, or refused. -/
  | egrConfigWrite (h : Half) (reg : Fin 7) (v : Nat)
  /-- SHIP_PLAN_WRITE (R425): A ship plan is made valid, with checks, or cleared. -/
  | shipPlanWrite (h : Half) (k : Fin 256) (word : Fin 32) (v : Nat)
  /-- EGR_LINK_CHANGE (R423): The egress link goes up or down, setting EGR_EVT bits. -/
  | egrLinkChange (h : Half) (up : Bool)
  /-- EGR_FRAME_RECEIVE (R424): A received frame is filtered and handed to the egress engine or dropped. -/
  | egrFrameReceive (h : Half) (frame : List Byte)
  /-- ACK_RECEIVE (R440): An accepted ACK marks SEQs acknowledged, releases pages and updates the window, RTT and rate. -/
  | ackReceive (h : Half)
  /-- RESET_RECEIVE (R445): An accepted RESET ends the stream as Refused with ST_SHIP_REFUSED. -/
  | resetReceive (h : Half)
  /-- DATAGRAM_SEND (R444): The engine sends a datagram of the chosen stream once bucket, limit and staging allow. -/
  | datagramSend (h : Half)
  /-- RETX_TIMER_EXPIRE (R441): The stream's retransmission timer expires; the oldest SEQ is resent, RTO doubles and the rate halves. -/
  | retxTimerExpire (h : Half) (ctx : Fin 1024)
  /-- RATE_INCREASE (R443): After INC_PERIOD without a decrease, the stream rate rises by INC_STEP. -/
  | rateIncrease (h : Half) (ctx : Fin 1024)
  /-- TIME_SNAP (R455): TIME_SNAP copies MT, FT and the fraction at one TU cycle. -/
  | timeSnap (h : Half)
  /-- FT_WRITE (R455): A write to FT with SEL = 0 is applied as an offset measurement, or refused. -/
  | ftWrite (h : Half) (v : Nat)
  /-- TIME_CTL_WRITE (R463): TIME_CTL is written; a change of SEL or SRC_PORT enters HOLDOVER or FREE. -/
  | timeCtlWrite (h : Half) (v : Nat)
  /-- BEACON_SEND (R459): Every BCN_INT a half sends TIME_BEACON on its BCN_TX ports. -/
  | beaconSend (h : Half)
  /-- BEACON_RECEIVE (R458): A TIME_BEACON on SRC_PORT is accepted and gives an offset measurement. -/
  | beaconReceive (h : Half)
  /-- DELAY_REQ_SEND (R458): Every DREQ_INT a half sends TIME_DELAY_REQ on each UP port. -/
  | delayReqSend (h : Half)
  /-- DELAY_REQ_RECEIVE (R458): A TIME_DELAY_REQ is answered at once with TIME_DELAY_RESP. -/
  | delayReqReceive (h : Half)
  /-- DELAY_RESP_RECEIVE (R458): A TIME_DELAY_RESP gives a link-delay sample for the port. -/
  | delayRespReceive (h : Half)
  /-- PTP_ANNOUNCE_RECEIVE (R460): A PTP Announce enters the best timeTransmitter selection. -/
  | ptpAnnounceReceive (h : Half) (domain : PtpNet) (src : Nat) (dataset : List Nat) (logInt : Int)
  /-- PTP_SYNC_RECEIVE (R460): A PTP Sync is timestamped and gives a measurement. -/
  | ptpSyncReceive (h : Half) (domain : PtpNet) (src seq : Nat) (twoStep : Bool) (origin corr : Int)
  /-- PTP_FOLLOW_UP_RECEIVE (R460): A PTP Follow_Up supplies the two-step origin timestamp. -/
  | ptpFollowUpReceive (h : Half) (domain : PtpNet) (src seq : Nat) (origin corr : Int)
  /-- PTP_DELAY_REQ_SEND (R460): A PTP Delay_Req is sent every 2^−LOG_DREQ s. -/
  | ptpDelayReqSend (h : Half)
  /-- PTP_DELAY_RESP_RECEIVE (R460): A PTP Delay_Resp completes the path-delay measurement. -/
  | ptpDelayRespReceive (h : Half) (domain : PtpNet) (src seq : Nat) (mine : Bool) (received corr : Int)
  /-- PPS_IN_EDGE (R461): A rising edge of AUX_PPS_IN is latched and may give a measurement, or is ignored. -/
  | ppsInEdge
  /-- PASS_TIME_TRANSFER (R462): Every 100 µs the other half's FT arrives over the Pass as a measurement. -/
  | passTimeTransfer (h : Half)
  /-- FT_SOURCE_TIMEOUT (R463): No measurement has been accepted for SRC_TMO, so FT enters HOLDOVER. -/
  | ftSourceTimeout (h : Half)
  /-- MT_RATE_ADJUST (R453): Once per second the role holder moves MT_RATE toward the servo's integral, with the peer's acknowledgement. -/
  | mtRateAdjust (h : Half)
  /-- COMPARATOR_FIRE (R469): A comparator's clock reaches TARGET; it fires, and a periodic target advances. -/
  | comparatorFire (h : Half) (c : Fin 16)
  /-- CMP_ENABLE (R480): CMPc_CTL.EN claims the comparator and accepts a scheduled action, judging a passed target at once. -/
  | cmpEnable (h : Half) (c : Fin 16) (v : Nat)
  /-- PPS_OUT_ENABLE (R471): PPS_OUT_CFG.EN claims AUX_PWM3 and a comparator, or fails. -/
  | ppsOutEnable (h : Half) (v : Nat)
  /-- TIME_REL_CTL_WRITE (R471): TIME_REL_CTL enables or disables a release list and its comparator claim. -/
  | timeRelCtlWrite (h : Half) (v : Nat)
  /-- PART_GO (R486): PART_CTL.GO checks a partition, generates and mirrors its keys, and makes it LIVE. -/
  | partGo (h : Half) (p : GoCmd)
  /-- PART_RELEASE (R487): PART_CTL.RELEASE stops the partition's rings and cancels its requests. -/
  | partRelease (h : Half) (p : Fin 64)
  /-- RELEASE_DRAINED (R487): A releasing partition's work has ended; its keys are zeroized and its memory scrubbed. -/
  | releaseDrained (h : Half) (p : Fin 64)
  /-- RELEASE_SCRUB_DONE (R487): The release scrub ends and the partition becomes OFF. -/
  | releaseScrubDone (h : Half) (p : Fin 64)
  /-- PART_CONFIG_WRITE (R485): A partition's ranges, core set or shared mask is written while it is OFF. -/
  | partConfigWrite (h : Half) (p : Fin 64) (reg : Fin 4) (w : Fin 8) (v : Nat)
  /-- SHR_WRITE (R491): A shared read range is made valid or refused. -/
  | shrWrite (h : Half) (k : Fin 8) (v : Nat)
  /-- KIMP_START (R495): KIMP START generates an ephemeral key pair and publishes its signed public key. -/
  | kimpStart (h : Half) (party : KimpOffer)
  /-- KIMP_COMMIT (R496): KIMP COMMIT unwraps and installs the egress key, or refuses it. -/
  | kimpCommit (h : Half)
  /-- KIMP_ABORT (R495): KIMP ABORT ends the import and zeroizes the ephemeral key. -/
  | kimpAbort (h : Half)
  /-- KIMP_PLAIN (R506): KIMP PLAIN installs an unwrapped key in the non-approved mode, or is refused. -/
  | kimpPlain (h : Half) (party : Nat)
  /-- KIMP_EXPIRE (R495): The ephemeral key expires 10 s after START. -/
  | kimpExpire (h : Half)
  /-- MIRROR_RECORD_RECEIVE (R493): The peer stores a mirror record as pending and acknowledges it. -/
  | mirrorRecordReceive (h : Half)
  /-- MIRROR_ACK_RECEIVE (R493): The originator installs the record, sends a commit and completes. -/
  | mirrorAckReceive (h : Half)
  /-- MIRROR_COMMIT_RECEIVE (R493): The peer installs a pending record on its commit. -/
  | mirrorCommitReceive (h : Half)
  /-- MIRROR_ACK_TIMEOUT (R493): No acknowledgement arrives within 1 ms; the operation is refused or completes SOLO. -/
  | mirrorAckTimeout (h : Half)
  /-- MIRROR_PENDING_TIMEOUT (R493): A pending record with no commit for 2 ms is zeroized. -/
  | mirrorPendingTimeout (h : Half)
  /-- KEY_RECONCILE (R494): When the peer becomes reachable, the halves exchange their home partitions' entries and keys. -/
  | keyReconcile
  /-- ARB_FUSE_BLOW (R499): Anti-rollback fuse bits are blown up to the running SVN. -/
  | arbFuseBlow
  /-- FW_REMEASURE (R500): Every 10 s the firmware is re-hashed; a mismatch zeroizes and enters Lowland SECURITY. -/
  | fwRemeasure (h : Half) (ok : Bool)
  /-- SPDM_GET_VERSION (R501): The responder answers GET_VERSION. -/
  | spdmGetVersion (h : Half) (mctp : Bool)
  /-- SPDM_GET_CAPABILITIES (R501): The responder answers GET_CAPABILITIES. -/
  | spdmGetCapabilities (h : Half) (mctp : Bool)
  /-- SPDM_NEGOTIATE_ALGORITHMS (R501): The responder answers NEGOTIATE_ALGORITHMS. -/
  | spdmNegotiateAlgorithms (h : Half) (mctp : Bool)
  /-- SPDM_GET_DIGESTS (R501): The responder returns its certificate chain digests. -/
  | spdmGetDigests (h : Half) (mctp : Bool)
  /-- SPDM_GET_CERTIFICATE (R501): The responder returns its slot 0 certificate chain. -/
  | spdmGetCertificate (h : Half) (mctp : Bool) (slot : Fin 8)
  /-- SPDM_CHALLENGE (R501): The responder signs a CHALLENGE with the FAK. -/
  | spdmChallenge (h : Half) (mctp : Bool)
  /-- SPDM_GET_MEASUREMENTS (R502): The responder returns the measurement blocks. -/
  | spdmGetMeasurements (h : Half) (mctp : Bool) (index : Nat)
  /-- SPDM_KEY_EXCHANGE (R501): The responder sets up a session key exchange, with optional mutual authentication. -/
  | spdmKeyExchange (h : Half) (mctp auth : Bool)
  /-- SPDM_FINISH (R507): FINISH completes a session; a mutually authenticated operator session sets CO_AUTH. -/
  | spdmFinish (h : Half) (mctp : Bool) (id : Fin 4) (ok : Bool) (root : List Byte)
  /-- SPDM_HEARTBEAT (R501): The responder answers a session HEARTBEAT. -/
  | spdmHeartbeat (h : Half) (mctp : Bool) (id : Fin 4)
  /-- SPDM_KEY_UPDATE (R501): The session keys are updated. -/
  | spdmKeyUpdate (h : Half) (mctp : Bool) (id : Fin 4)
  /-- SPDM_END_SESSION (R507): END_SESSION ends the session and clears CO_AUTH if it held it. -/
  | spdmEndSession (h : Half) (mctp : Bool) (id : Fin 4)
  /-- IDE_KM (R504): A vendor-defined IDE_KM request programs PCIe IDE keys. -/
  | ideKm (h : Half) (id : Fin 4) (stream : Fin 5) (op : IdeOp) (key : Nat)
  /-- IDE_SECURE_LOST (R504): An IDE stream leaves the Secure state, and the half acts as for DL_Down. -/
  | ideSecureLost (h : Half) (stream : Fin 5)
  /-- TAMPER_DETECT (R509): A tamper sensor trips; CANCELs are sent, keys are zeroized, and the chip enters Lowland SECURITY. -/
  | tamperDetect (h : Half)
  /-- SEC_ZEROIZE_ALL (R510): SEC_CTL.ZEROIZE_ALL zeroizes every partition key and releases every LIVE partition. -/
  | secZeroizeAll (h : Half)
  /-- SEC_SELFTEST (R508): SEC_CTL.SELFTEST runs every pre-operational test on demand. -/
  | secSelftest (h : Half) (ok : Bool)
  /-- PASS_WATCHDOG_EXPIRE (R512): A tile pass or vector step has not reached its boundary within PASS_MULT × 512 cycles. -/
  | passWatchdogExpire (h : Half) (core : Fin 256) (slot : Fin 2)
  /-- CTX_WATCHDOG_EXPIRE (R512): A context has run CTX_WDT without reaching a boundary. -/
  | ctxWatchdogExpire (h : Half) (core : Fin 256) (slot : Fin 2)
  /-- ENGINE_WATCHDOG_EXPIRE (R512): An engine has made no internal progress for ENG_WDT. -/
  | engineWatchdogExpire (h : Half) (code : Nat)
  /-- RING_WATCHDOG_EXPIRE (R513): A ring's head has waited RING_WDT; an event is posted and the ring may be stopped. -/
  | ringWatchdogExpire (h : Half) (ring : Nat)
  /-- MC_WATCHDOG_EXPIRE (R542): The MC firmware has not kicked for 10 ms, so the hub restarts its MC. -/
  | mcWatchdogExpire (h : Half)
  /-- STEP_BOUND_EXCEEDED (R523): A step misses its bound, escalating to a chip step or leaving the unit lost. -/
  | stepBoundExceeded (h : Half) (step : Fin 3) (unit : Nat)
  /-- FLT_CTX_RESET (R522): FLT_CTL CMD CTX_RESET starts a context step on the named context. -/
  | fltCtxReset (h : Half) (arg : Nat)
  /-- FLT_ENG_RESET (R519): FLT_CTL CMD ENG_RESET starts an engine step. -/
  | fltEngReset (h : Half) (arg : Nat)
  /-- FLT_PART_RESET (R520): FLT_CTL CMD PART_RESET starts a partition step. -/
  | fltPartReset (h : Half) (arg : Nat)
  /-- FLT_CHIP_RESET (R522): FLT_CTL CMD CHIP_RESET starts a chip step from the role holder's PF, or is refused. -/
  | fltChipReset (h : Half)
  /-- FLT_TRAY_CYCLE (R522): FLT_CTL CMD TRAY_CYCLE starts a tray step. -/
  | fltTrayCycle (h : Half)
  /-- FLT_LOG_CI_WRITE (R516): FLT_LOG_CI returns fault-log records to the device. -/
  | fltLogCiWrite (h : Half) (fn v : Nat)
  /-- ROLE_MESSAGE_RECEIVE (R528): A ROLE message over the sideband settles who holds the roles. -/
  | roleMessageReceive (h : Half)
  /-- ROLE_GRANT_RECEIVE (R529): A valid ROLE_GRANT clears the other latch and sets the named half's latch 20 µs later. -/
  | roleGrantReceive (half : Fin 256) (pec single : Bool)
  /-- ROLE_SILENCE_TIMEOUT (R528): No ROLE_GRANT arrives within 50 ms, so the former holder keeps the roles. -/
  | roleSilenceTimeout (h : Half)
  /-- STARTUP_ROLE_ARBITRATE (R531): At MT 235 ms without a passed half 0, half 1 sends ROLE_QUERY to the tray. -/
  | startupRoleArbitrate
  /-- PASS_RETRAIN_ATTEMPT (R534): At every whole second, both hubs try to retrain the main lanes. -/
  | passRetrainAttempt
  /-- PASS_RETRAIN_END (R534): A retrain attempt ends in RETRAINED, or in a counted failure. -/
  | passRetrainEnd (ok : Bool) (spares0 spares1 : Nat)
  /-- PASS_REJOIN (R535): MC_PASS_CTL.REJOIN settles roles, keys, lock, ledger and generation, and brings the Pass UP. -/
  | passRejoin (h : Half)
  /-- MC_HEARTBEAT_SEND (R536): Every 100 µs each MC sends a heartbeat on the live paths. -/
  | mcHeartbeatSend (h : Half)
  /-- MC_HEARTBEAT_RECEIVE (R536): A peer heartbeat is received with role, generation and loop state. -/
  | mcHeartbeatReceive (h : Half)
  /-- PEER_FAIL_TIMEOUT (R536): No heartbeat has arrived for 250 µs on a live path, so the peer is declared FAILED. -/
  | peerFailTimeout (h : Half)
  /-- REVOKE_RECEIVE (R537): A hardware REVOKE clears the latch if the local heartbeat generator has stalled 200 µs. -/
  | revokeReceive (h : Half)
  /-- GEN_SNAPSHOT (R539): Every 5 ms the active MC snapshots a generation and copies it to the standby. -/
  | genSnapshot
  /-- GEN_COMMIT_RECEIVE (R539): The standby commits a generation whose CRCs match. -/
  | genCommitReceive (h : Half) (rec_ : List Byte)
  /-- MC_RESTART_DONE (R542): A restarted MC returns as STANDBY, reconciles and receives a full generation. -/
  | mcRestartDone (h : Half)
  /-- MC_RESTART_TIMEOUT (R542): An MC not STANDBY within 1 s, or restarting a third time, becomes FAILED. -/
  | mcRestartTimeout (h : Half)
  /-- BOTH_MC_FAIL_FORCE (R542): 10 ms after the last loop period with both MCs down, the duties are forced to 100 % and dispatch stops. -/
  | bothMcFailForce
  /-- TEL_SNAP_WRITE (R547): TEL_SNAP snaps the named counter groups in one HUB cycle. -/
  | telSnapWrite (h : Half) (mask : Nat)
  /-- HIST_CFG_WRITE (R551): HIST_CFG configures a histogram, and enabling it clears the bins. -/
  | histCfgWrite (h : Half) (k : Fin 16) (v : Nat)
  /-- LEDGER_PROGRAM (R554): An accepted record is programmed into module flash within 1 s. -/
  | ledgerProgram
  /-- LEDGER_SCAN (R556): At start-up each MC scans the ledger region and resumes, or finds it FOREIGN. -/
  | ledgerScan (h : Half)
  /-- LEDGER_ERASE (R557): When fewer than two erased units remain, the oldest unit is erased. -/
  | ledgerErase
  /-- LEDGER_READ (R558): A write of LDG_RD_SEQ returns the record, a pending record, or zeros. -/
  | ledgerRead (h : Half) (seq : Nat)
  /-- LEDGER_ADOPT (R556): LDG_CTL.ADOPT erases a FOREIGN region and starts it anew. -/
  | ledgerAdopt (h : Half)
  /-- SUMMARY_HOUR (R553): At each whole hour of LIFE_S a SUMMARY record is written. -/
  | summaryHour
  /-- FUSE_BLOW (R560): A coarse-count fuse bit is blown, verified and followed by a FUSE record. -/
  | fuseBlow (k : Fin 8) (first second : Bool)
  /-- SMBUS_STUCK (R562): SCL or SDA is held low for 35 ms; the hub releases, flags and records it. -/
  | smbusStuck (h : Half) (clk dat : Bool)
  /-- SMBUS_STUCK_RETRY (R562): Every 10 ms a hub retries the stuck bus. -/
  | smbusStuckRetry (h : Half) (clk dat : Bool)
  /-- MCTP_SET_ENDPOINT_ID (R563): MCTP Set Endpoint ID assigns the device's endpoint ID. -/
  | mctpSetEndpointId (op : Fin 4) (eid : Fin 256)
  /-- MCTP_GET_ENDPOINT_ID (R563): MCTP Get Endpoint ID returns the endpoint ID. -/
  | mctpGetEndpointId
  /-- MCTP_GET_ENDPOINT_UUID (R563): MCTP Get Endpoint UUID returns the UUID. -/
  | mctpGetEndpointUuid
  /-- MCTP_GET_VERSION_SUPPORT (R563): MCTP Get Version Support returns the supported versions. -/
  | mctpGetVersionSupport (type : Fin 256)
  /-- MCTP_GET_MSG_TYPE_SUPPORT (R563): MCTP Get Message Type Support returns the supported types. -/
  | mctpGetMsgTypeSupport
  /-- PLDM_BASE (R563): A PLDM Type 0 base request is answered. -/
  | pldmBase (cmd arg : Fin 256)
  /-- PLDM_GET_PDR (R564): PLDM GetPDR returns sensor descriptions. -/
  | pldmGetPdr (handle : Nat)
  /-- PLDM_GET_SENSOR_READING (R564): PLDM GetSensorReading returns a numeric sensor. -/
  | pldmGetSensorReading (id tj : Nat)
  /-- PLDM_GET_STATE_SENSORS (R564): PLDM GetStateSensorReadings returns state sensors. -/
  | pldmGetStateSensors (id : Nat)
  /-- SMB_ALERT_TIMEOUT (R564): An event unacknowledged for 100 ms asserts SMB_ALERT#. -/
  | smbAlertTimeout
  /-- PLDM_FW_UPDATE (R563): A PLDM firmware update stores a verified image for the next start-up. -/
  | pldmFwUpdate (addr : Fin 128) (config : Bool) (image : FlashImage)
  /-- READINESS_QUERY (R565): The tray's READINESS query returns the boot step and expected readiness. -/
  | readinessQuery
  /-- MCTP_CHIP_RESET (R565): The tray's CHIP_RESET message starts a chip step as R522 states. -/
  | mctpChipReset
  /-- MCTP_TRAY_CYCLE (R565): The tray's TRAY_CYCLE message starts a tray step. -/
  | mctpTrayCycle
  /-- LEDGER_READ_MSG (R565): The tray's LEDGER_READ returns a status and a record. -/
  | ledgerReadMsg (seq : Nat)
  /-- HISTORY_READ (R565): The tray's HISTORY_READ returns up to 32 recent records. -/
  | historyRead
  /-- RAIL_EXCURSION (R571): A rail stays outside ±5 % for over 1 µs, losing a die, stepping the chip or tampering. -/
  | railExcursion (rail : Rail) (beyond10 : Bool)
  /-- DIE_PG_TIMEOUT (R570): DIE_PG has not asserted 2 ms after DIE_PWR_EN, so the die fails E1. -/
  | diePgTimeout (die : Fin 8)
  /-- INPUT_POWER_OVER (R573): The 1 s input power average exceeds the level's figure, setting INPUT_OVER. -/
  | inputPowerOver
  /-- PWR_INPUT_READ (R584): Reading PWR_INPUT returns the average and clears PEAK for the reader. -/
  | pwrInputRead (h : Half) (avg high : Nat)
  /-- IRQ_ROUTE_WRITE (R588): IRQ_ROUTE is written; enabling it over a set cause sends one message. -/
  | irqRouteWrite (h : Half) (k : Fin 15) (en : Bool) (vec : Fin 64) (mask : Nat)
  /-- PASS_SIDEBAND_REGAINED (R494): The sideband regains character timing and SB_ALIVE is set, so the peer is reachable again and
reconciliation runs. -/
  | passSidebandRegained (h : Half)
  /-- AUX_SUPPLY_CHANGE (R54): 3V3_AUX enters or leaves regulation, changing PWR_STATUS.RAILS bit 1 and the management service of R54. -/
  | auxSupplyChange (good : Bool)
  /-- PCIE_LINK_UP (R169): The PCIe data link of a half comes up, setting LINK_STATUS.LINK_UP with its width and rate. -/
  | pcieLinkUp (h : Half) (width rate : Nat) (flit : Bool)
  /-- VF_ENABLE_CHANGE (R488): VF Enable is cleared or NumVFs is reduced, so VFs cease to exist and their partitions' rings are left
DISABLED. -/
  | vfEnableChange (h : Half) (enable : Bool) (numVfs : Nat)
  /-- ENGINE_STATE_ERROR (R519): An engine detects a state parity, buffer ECC or protocol state error and starts its engine step. -/
  | engineStateError (h : Half) (code : Nat) (kind : Fin 3)
  /-- HUB_UNIT_FAULT (R523): A fault in the hub scheduler, the hub buffer pool, the time unit or the Pass interface starts a chip step when
AUTO_CHIP is 1. -/
  | hubUnitFault (h : Half)
  /-- DIE_LINK_FAIL (R526): A die link fails its retraining in operation, so the compute die is lost. -/
  | dieLinkFail (die : Fin 8)
  /-- HBM_CHANNEL_FAIL (R526): A pseudo-channel of an HBM stack fails or its PHY loses training in operation, so the stack is lost. -/
  | hbmChannelFail (k : Half) (phy : Bool) (channel : Fin 32)
  /-- NONHOLDER_TJ_CRIT (R532): During a split, a junction sensor of the half without the roles reaches TJ_CRIT, so that half withdraws
compute service at once. -/
  | nonholderTjCrit (h : Half)
  /-- PLDM_EVENT_ACK (R564): The tray controller acknowledges a PlatformEventMessage, and SMB_ALERT# is released. -/
  | pldmEventAck
  /-- SETUP_LOCK_ACK (R144): The other half's acknowledgement of the set-up lock arrives, and PEER_PENDING clears. -/
  | setupLockAck (h : Half)
  /-- REVOKE_RETRY (R542): Every 10 µs a standby whose REVOKE was not honoured sends it again, until the peer's generator has stalled for
200 µs. -/
  | revokeRetry (h : Half)
deriving DecidableEq, Repr

end Sys2Proof
end

