-- ==== Sys2Proof/Config.lean ====
section
/-!
DEFINITION. Config.lean: what an implementation fixes and the spec leaves open: free values, as constants without a body.
-/

namespace Sys2Proof

/-- Number `n` of the free values: a value the spec does not fix, of any size the place it is put into takes
(log entry 5). -/
opaque Config.freeValue : Nat → Nat

/-- The u32 that stands for the root of a prefix directory where a check covers the parent's node index (R317 states
none). -/
opaque Config.pfxRoot : Nat

/-- The bytes in which additional data of several fields is given to AES-GCM (R306 and R323 name the fields and state no
layout). -/
opaque Config.adBytes : List Nat → List Nat

/-- The bytes in which a scratchpad sample gives a slot's loop positions, item and buffer copies (Table 16.6 names them and
states no layout). -/
opaque Config.slotBytes : List Nat → List Nat

/-- The choice that the vector unit makes among the results that R219 permits for exp of an FP32 pattern. -/
opaque Config.expChoice : Nat → Nat

/-- The same for the reciprocal. -/
opaque Config.recipChoice : Nat → Nat

/-- The same for the reciprocal square root. -/
opaque Config.rsqrtChoice : Nat → Nat

/-- The same for erf (R221). -/
opaque Config.erfChoice : Nat → Nat

/-- The choice that the device makes among the cosines that R260 permits, by rotary base, position, pair and head dimension. -/
opaque Config.cosChoice : Nat → Nat

/-- The same for the sine. -/
opaque Config.sinChoice : Nat → Nat

/-- The choice among the results within 2 ulp for the natural logarithm of a log-sum-exp (R347 states no precision for it). -/
opaque Config.lnChoice : Nat → Nat

/-- The payload bytes of a CONTROL flit: its kind (0 INIT, 1 DEGRADE, 2 DOWN_NOTICE) and its values; Table 11.3 gives link control a place
and no layout (log entry 73). -/
opaque Config.controlPayload : Nat → List Nat → List Nat

/-- The hardware unique secret, 256 bits of the package's fuses (Table 15.1), which nothing returns. -/
opaque Config.hus : List Nat

/-- The private number of the key pair that the FAK's derived bytes are turned into (R498 says "deterministically" and no more). -/
opaque Config.fakKey : List Nat → Nat

/-- The certificate chain of slot 0 for the FAK's derived bytes (Table 15.6). -/
opaque Config.certChain : List Nat → List Nat

/-- SHA-384 of the ROM (measurement block 1, Table 15.7). -/
opaque Config.romDigest : List Nat

/-- The public key of the device identity key, x ‖ y, whose hash is the ledger's IDENT (R552, Table 15.1): fixed for the package. -/
opaque Config.dikPublic : List Nat

/-- The PCIe routing ID that the platform has given the PF of each half (R13): the first half for `false`. -/
opaque Config.pfRoutingId : Bool → BitVec 16

/-- Dvorien's PCI Vendor ID (Table 4.2, Table 17.9), of which the spec gives no number. -/
opaque Config.vendorId : Nat

/-- The endpoint UUID, of which the spec gives no value (R563). -/
opaque Config.endpointUuid : Nat

/-- The version entry that Get MCTP Version Support gives for a message type (R563 names none). -/
opaque Config.mctpVersion : Nat → Nat

/-- The version of a PLDM type, and the command bits that GetPLDMCommands gives for it (Table 17.9 names commands, and no encoding). -/
opaque Config.pldmVersion : Nat → Nat
opaque Config.pldmCommands : Nat → Nat

/-- The description of a sensor in the PDR repository (R564 states no layout). -/
opaque Config.sensorPdr : Nat → List Nat

/-- Pump revolutions per minute for a PERIOD of FB0: the tachometer's pulses per revolution are the module's (Table 17.10). -/
opaque Config.pumpRpm : Nat → Nat

end Sys2Proof
end

