-- ==== Sys2Proof/Machine/Bits.lean ====
section
/-!
DEFINITION. Machine/Bits.lean: bit fields of numbers, two's complement, little-endian bytes, saturating counts, and
CRC-32C: the helpers that every register, record and packet layout of the spec is read and written with.
-/

namespace Sys2Proof.Machine

/-- Bits `lo` to `lo + w - 1` of a number. -/
def bitsAt (x lo w : Nat) : Nat := x / 2 ^ lo % 2 ^ w

/-- A number with the bits of `m` set. -/
def setBits (x m : Nat) : Nat := x ||| m

/-- A number with the bits of `m` cleared. -/
def clearBits (x m : Nat) : Nat := x ^^^ (x &&& m)

/-- The bits of `m` that are 0 in `x`: those that rise when `m` is set. -/
def risingBits (x m : Nat) : Nat := clearBits m x

/-- `true` as 1, `false` as 0. -/
def bit (b : Bool) : Nat := if b then 1 else 0

/-- A count of `w` bits that saturates at its largest value. -/
def satAdd (w x n : Nat) : Nat := min (x + n) (2 ^ w - 1)

/-- The signed value of a `w`-bit two's-complement number. -/
def signedOf (w x : Nat) : Int := if x % 2 ^ w < 2 ^ (w - 1) then (x % 2 ^ w : Nat) else ((x % 2 ^ w : Nat) : Int) - (2 ^ w : Nat)

/-- The `w`-bit two's-complement number of a signed value, wrapped. -/
def unsignedOf (w : Nat) (x : Int) : Nat := (x % ((2 ^ w : Nat) : Int)).toNat

/-- A signed value limited to `lo … hi`. -/
def clampInt (lo hi x : Int) : Int := if x < lo then lo else if hi < x then hi else x

/-- `n` little-endian bytes of a number. -/
def leBytes : Nat → Nat → List Byte
  | 0, _ => []
  | n + 1, x => BitVec.ofNat 8 x :: leBytes n (x / 256)

/-- The number that little-endian bytes spell. -/
def leNat : List Byte → Nat
  | [] => 0
  | b :: r => b.toNat + 256 * leNat r

/-- `n` bytes of a list from offset `off`, missing bytes reading 0, as a little-endian number. -/
def fieldAt (bs : List Byte) (off n : Nat) : Nat := leNat ((bs.drop off).take n)

/-- A list of `n` zero bytes. -/
def zeros (n : Nat) : List Byte := List.replicate n 0

/-- Number of set bits among the lowest `w`. -/
def popCount (w x : Nat) : Nat := ((List.range w).filter fun i => x.testBit i).length

/-- One step of the reflected CRC-32C shift register. -/
def crc32cStep (c : Nat) : Nat := if c % 2 = 1 then (c / 2) ^^^ 0x82F63B78 else c / 2

/-- The shift register after one byte. -/
def crc32cByte (c : Nat) (b : Byte) : Nat :=
  crc32cStep (crc32cStep (crc32cStep (crc32cStep (crc32cStep (crc32cStep (crc32cStep (crc32cStep (c ^^^ b.toNat))))))))

/-- CRC-32C of a list of bytes (R515, R539, R552). -/
def crc32c (bs : List Byte) : Nat := bs.foldl crc32cByte 0xFFFFFFFF ^^^ 0xFFFFFFFF

/-- A number rounded up to a multiple of `k`. -/
def roundUp (x k : Nat) : Nat := (x + k - 1) / k * k

/-- The quotient rounded up. -/
def ceilDiv (x k : Nat) : Nat := (x + k - 1) / k

end Sys2Proof.Machine
end

