-- ==== Sys2Proof/Machine/Numerics.lean ====
section
/-!
DEFINITION. Machine/Numerics.lean: the number formats (R186, R211, R212), exact products and sums, rounding to nearest with ties
to even (R214 to R217), and the operations of the vector unit (R219 to R221).
-/

namespace Sys2Proof.Machine

/-- A value: NaN, an infinity, or (−1)^neg × m × 2^e. -/
inductive FVal where
  | nan
  | inf (neg : Bool)
  | fin (neg : Bool) (m : Nat) (e : Int)
deriving DecidableEq, Repr

/-- A binary format: exponent bits, mantissa bits. -/
structure FFmt where
  eb : Nat
  mb : Nat
deriving DecidableEq, Repr

def FFmt.bias (f : FFmt) : Nat := 2 ^ (f.eb - 1) - 1
def fE4M3 : FFmt := ⟨4, 3⟩
def fE5M2 : FFmt := ⟨5, 2⟩
def fBF16 : FFmt := ⟨8, 7⟩
def fFP16 : FFmt := ⟨5, 10⟩
def fFP32 : FFmt := ⟨8, 23⟩

/-- The value of an encoding of an IEEE-like format: subnormals kept, exponent all ones an infinity or NaN. -/
def FFmt.decode (f : FFmt) (x : Nat) : FVal :=
  let neg := x.testBit (f.eb + f.mb)
  let ex := bitsAt x f.mb f.eb
  let m := x % 2 ^ f.mb
  if ex = 2 ^ f.eb - 1 then (if m = 0 then .inf neg else .nan)
  else if ex = 0 then .fin neg m (1 - (f.bias : Int) - f.mb)
  else .fin neg (2 ^ f.mb + m) ((ex : Int) - f.bias - f.mb)

/-- The value of an E4M3 encoding: no infinities, S.1111.111 NaN (Table 6.3). -/
def decodeE4M3 (x : Nat) : FVal :=
  let neg := x.testBit 7
  let ex := bitsAt x 3 4
  let m := x % 8
  if ex = 15 ∧ m = 7 then .nan
  else if ex = 0 then .fin neg m (-9)
  else .fin neg (8 + m) ((ex : Int) - 10)

/-- The value of an E2M1 code (Table 6.3), in units of one half. -/
def decodeE2M1 (x : Nat) : FVal :=
  let mag := [0, 1, 2, 3, 4, 6, 8, 12]
  .fin (x.testBit 3) (mag.getD (x % 8) 0) (-1)

/-- A value of an INT8. -/
def decodeInt8 (x : Nat) : FVal := if x % 256 < 128 then .fin false (x % 256) 0 else .fin true (256 - x % 256) 0

/-- The value of an element in a format of Table 5.6, its scale apart. -/
def decodeElem (fmt x : Nat) : FVal :=
  match fmt with
  | 0 => decodeE2M1 x
  | 1 => decodeE4M3 x
  | 2 => fE5M2.decode x
  | 3 => decodeInt8 x
  | 4 => fBF16.decode x
  | 5 => fFP16.decode x
  | _ => fFP32.decode x

/-- Bits of an element of a format. -/
def elemBits (fmt : Nat) : Nat :=
  match fmt with
  | 0 => 4
  | 1 => 8
  | 2 => 8
  | 3 => 8
  | 4 => 16
  | 5 => 16
  | _ => 32

/-- Bytes of an element of a format other than FP4. -/
def elemSize (fmt : Nat) : Nat := elemBits fmt / 8

/-! ### Rounding -/

/-- A non-negative fraction rounded to the nearest integer, ties to even. -/
def roundEven (n d : Nat) : Nat :=
  let q := n / d
  let r := n % d
  if 2 * r < d then q else if d < 2 * r then q + 1 else if q % 2 = 0 then q else q + 1

/-- The exponent E with 2^E ≤ n/d < 2^(E+1), for a positive fraction. -/
def expOf (n d : Nat) : Int :=
  let a := Nat.log2 n
  let b := Nat.log2 d
  let e : Int := (a : Int) - b
  let ok := if b ≤ a then decide (d * 2 ^ (a - b) ≤ n) else decide (d ≤ n * 2 ^ (b - a))
  if ok then e else e - 1

/-- n/d divided by 2^q, as a fraction. -/
def scaleFrac (n d : Nat) (q : Int) : Nat × Nat := if 0 ≤ q then (n, d * 2 ^ q.toNat) else (n * 2 ^ (-q).toNat, d)

/-- The exponent of the last place of a format at a positive fraction. -/
def FFmt.lastPlace (f : FFmt) (n d : Nat) : Int := max (expOf n d) (1 - (f.bias : Int)) - f.mb

/-- The magnitude bits of a positive fraction rounded to a format; values beyond the largest exceed its encodings. -/
def FFmt.roundMag (f : FFmt) (n d : Nat) : Nat :=
  if n = 0 then 0
  else
    let q := f.lastPlace n d
    let p := scaleFrac n d q
    ((q + f.mb + f.bias - 1).toNat) * 2 ^ f.mb + roundEven p.1 p.2

/-- m × 2^e as a fraction. -/
def dyadic (m : Nat) (e : Int) : Nat × Nat := if 0 ≤ e then (m * 2 ^ e.toNat, 1) else (m, 2 ^ (-e).toNat)

/-- The sign bit of a format of `w` bits. -/
def signBit (w : Nat) (neg : Bool) : Nat := if neg then 2 ^ (w - 1) else 0

/-- The magnitude of infinity in a format. -/
def FFmt.infMag (f : FFmt) : Nat := (2 ^ f.eb - 1) * 2 ^ f.mb

/-- The canonical NaN of a format (Table 6.3): BF16, FP16 and FP32. -/
def FFmt.nanBits (f : FFmt) : Nat := f.infMag + 2 ^ (f.mb - 1)

/-- A value rounded to an IEEE format, overflow giving infinity. -/
def FFmt.encode (f : FFmt) (v : FVal) : Nat :=
  match v with
  | .nan => f.nanBits
  | .inf neg => signBit (f.eb + f.mb + 1) neg + f.infMag
  | .fin neg m e =>
    let p := dyadic m e
    signBit (f.eb + f.mb + 1) neg + min f.infMag (f.roundMag p.1 p.2)

/-- A value rounded to FP32. -/
def toF32 (v : FVal) : Nat := fFP32.encode v

/-- The value of an FP32 pattern. -/
def ofF32 (x : Nat) : FVal := fFP32.decode x

def f32NaN : Nat := 0x7FC00000

/-! ### Products and sums -/

/-- The exact product. -/
def FVal.mul : FVal → FVal → FVal
  | .nan, _ => .nan
  | _, .nan => .nan
  | .inf a, .inf b => .inf (a != b)
  | .inf a, .fin b m _ => if m = 0 then .nan else .inf (a != b)
  | .fin a m _, .inf b => if m = 0 then .nan else .inf (a != b)
  | .fin a m e, .fin b n f => .fin (a != b) (m * n) (e + f)

/-- A value times 2^k. -/
def FVal.scale (v : FVal) (k : Int) : FVal :=
  match v with
  | .fin a m e => .fin a m (e + k)
  | x => x

/-- A finite value as an integer count of 2^q. -/
def countOf (q : Int) (neg : Bool) (m : Nat) (e : Int) : Int :=
  let x : Int := (m * 2 ^ (e - q).toNat : Nat)
  if neg then -x else x

/-- The exact sum of two values; a zero sum is +0 unless both are −0. -/
def FVal.add : FVal → FVal → FVal
  | .nan, _ => .nan
  | _, .nan => .nan
  | .inf a, .inf b => if a = b then .inf a else .nan
  | .inf a, .fin _ _ _ => .inf a
  | .fin _ _ _, .inf b => .inf b
  | .fin a m e, .fin b n f =>
    let q := min e f
    let x := countOf q a m e + countOf q b n f
    if x = 0 then .fin (a && b && m == 0 && n == 0) 0 0 else .fin (decide (x < 0)) x.natAbs q

/-- The exact sum of a list: a sum of zeros is +0, unless every term is −0 (§6.5 "At the edges"). -/
def exactSum : List FVal → FVal
  | [] => .fin false 0 0
  | [v] => v
  | v :: r => v.add (exactSum r)

/-- FP32 addition and multiplication, rounded once. -/
def f32Add (a b : Nat) : Nat := toF32 ((ofF32 a).add (ofF32 b))
def f32Mul (a b : Nat) : Nat := toF32 ((ofF32 a).mul (ofF32 b))

/-- Negation and subtraction. -/
def f32Neg (a : Nat) : Nat := if a.testBit 31 then a - 2 ^ 31 else a + 2 ^ 31
def f32Sub (a b : Nat) : Nat := f32Add a (f32Neg b)

/-- Fused multiply-add: a × b + c rounded once; and the absolute value (Table 6.5). -/
def f32Fma (a b c : Nat) : Nat := toF32 (((ofF32 a).mul (ofF32 b)).add (ofF32 c))
def f32Abs (a : Nat) : Nat := a % 2 ^ 31

/-- An FP32 pattern is a NaN. -/
def f32IsNaN (a : Nat) : Bool := ofF32 a == .nan

/-- The order of FP32 values that are not NaN, with −0 below +0: a key that rises with the value. -/
def f32Key (a : Nat) : Int := if a.testBit 31 then -((a - 2 ^ 31 : Nat) : Int) - 1 else (a : Int)

/-- Compare and select (Table 6.5): a comparison with a NaN does not hold, and −0 equals +0. -/
def f32Less (a b : Nat) : Bool :=
  !(f32IsNaN a) && !(f32IsNaN b) && !(f32Abs a == 0 && f32Abs b == 0) && decide (f32Key a < f32Key b)
def f32Select (c : Bool) (a b : Nat) : Nat := if c then a else b

/-- IEEE 754 maximum and minimum (Table 6.5). -/
def f32Max (a b : Nat) : Nat := if f32IsNaN a || f32IsNaN b then f32NaN else if f32Key a < f32Key b then b else a
def f32Min (a b : Nat) : Nat := if f32IsNaN a || f32IsNaN b then f32NaN else if f32Key b < f32Key a then b else a

/-- Group `g` of R214: the exact sum of its products rounded to FP32, then scaled. -/
def groupResult (prods : List FVal) (scaleA scaleB : Nat) : Nat :=
  if scaleA = 255 ∨ scaleB = 255 then f32NaN
  else
    let p := ofF32 (toF32 (exactSum prods))
    toF32 (p.scale ((scaleA : Int) - 127 + ((scaleB : Int) - 127)))

/-! ### Conversion from FP32 (R216, R217) -/

/-- A converted element with its counts: saturations and NaN events. -/
structure Conv where
  bits : Nat
  sat : Nat
  nan : Nat
deriving DecidableEq, Repr

/-- Conversion to an 8-bit float with a largest finite magnitude; `infTo` is what an infinity becomes. -/
def convF8 (mag nan top infMag infSat : Nat) (v : FVal) : Conv :=
  match v with
  | .nan => ⟨nan, 0, 1⟩
  | .inf neg => ⟨signBit 8 neg + infMag, infSat, 0⟩
  | .fin neg _ _ => if top < mag then ⟨signBit 8 neg + top, 1, 0⟩ else ⟨signBit 8 neg + mag, 0, 0⟩

/-- The magnitude bits of a value in a format. -/
def magOf (f : FFmt) (v : FVal) : Nat :=
  match v with
  | .fin _ m e => f.roundMag (dyadic m e).1 (dyadic m e).2
  | _ => 0

/-- Conversion to INT8. -/
def convInt8 (v : FVal) : Conv :=
  match v with
  | .nan => ⟨0, 0, 1⟩
  | .inf neg => ⟨if neg then 0x80 else 0x7F, 1, 0⟩
  | .fin neg m e =>
    let k := roundEven (dyadic m e).1 (dyadic m e).2
    if neg then (if 128 < k then ⟨0x80, 1, 0⟩ else ⟨(256 - k) % 256, 0, 0⟩)
    else if 127 < k then ⟨0x7F, 1, 0⟩ else ⟨k, 0, 0⟩

/-- Conversion of one FP32 value to a format other than FP4 (Table 6.4). -/
def convElem (fmt x : Nat) : Conv :=
  let v := ofF32 x
  match fmt with
  | 1 => convF8 (magOf fE4M3 v) 0x7F 0x7E 0x7E 1 v
  | 2 => convF8 (magOf fE5M2 v) 0x7E 0x7B 0x7C 0 v
  | 3 => convInt8 v
  | 4 => ⟨fBF16.encode v, 0, bit (v == .nan)⟩
  | 5 => ⟨fFP16.encode v, 0, bit (v == .nan)⟩
  | _ => ⟨if v == .nan then f32NaN else x, 0, bit (v == .nan)⟩

/-- An E2M1 magnitude code: nearest of the eight, ties to even, magnitudes above 6 clamped, of a value m × 2^e. -/
def e2m1Mag (m : Nat) (e : Int) : Nat := min 7 (FFmt.roundMag ⟨2, 1⟩ (dyadic m e).1 (dyadic m e).2)

/-- The largest exponent among finite magnitudes, none when all are zero. -/
def blockExp (vs : List FVal) : Option Int :=
  vs.foldl (fun o v => match v with
    | .fin _ m e =>
      if m = 0 then o
      else
        let k := e + Nat.log2 m
        match o with
        | none => some k
        | some j => some (max j k)
    | _ => o) none

/-- The encoding of an FP4 block: its scale and codes, with the count of NaN events (R217). -/
def convBlock (xs : List Nat) : Nat × List Nat × Nat :=
  let vs := xs.map ofF32
  if vs.any fun v => match v with
    | .fin _ _ _ => false
    | _ => true
  then (0xFF, vs.map fun _ => 0, 1)
  else match blockExp vs with
    | none => (0x7F, xs.map fun x => if x.testBit 31 then 8 else 0, 0)
    | some k =>
      let e := max (k - 2) (-127)
      ((e + 127).toNat, vs.map fun v => match v with
        | .fin neg m x => (if neg then 8 else 0) + e2m1Mag m (x - e)
        | _ => 0, 0)

/-! ### The vector unit (R219, R221) -/

/-- A result permitted within `u` units in the last place of a positive fraction: the nearest FP32 pattern moved by the
choice, where the bound allows it. -/
def nearBits (u n d choice : Nat) : Nat :=
  let r := fFP32.roundMag n d
  let c := r + choice % (2 * u + 1) - u
  let q := fFP32.lastPlace n d
  let p := scaleFrac n d q
  match ofF32 c with
  | .fin _ m e =>
    let t := scaleFrac (dyadic m e).1 (dyadic m e).2 q
    let diff := ((t.1 * p.2 : Nat) : Int) - ((p.1 * t.2 : Nat) : Int)
    if diff.natAbs ≤ u * p.2 * t.2 then c else min fFP32.infMag r
  | _ => min fFP32.infMag r

/-- The same for a value below 1 by less than can be told: units in its last place are 2⁻²⁴. -/
def belowOne (u choice : Nat) : Nat := nearBits u (2 ^ 120 - 1) (2 ^ 120) choice

/-- ln 2 × 2¹²⁰. -/
def ln2Fix : Nat := 921350637599661305226344307672478454

/-- The terms of the exponential series of r / 2¹²⁰. -/
def expTerms : Nat → Nat → Nat → Nat → Nat
  | 0, _, t, acc => acc + t
  | n + 1, r, t, acc => expTerms n r (t * r / 2 ^ 120 / (41 - n)) (acc + t)

/-- A finite value in units of 2⁻¹²⁰, rounded down. -/
def toFix (neg : Bool) (m : Nat) (e : Int) : Int :=
  let x := if 0 ≤ e + 120 then m * 2 ^ (e + 120).toNat else m / 2 ^ (-(e + 120)).toNat
  if neg then -(x : Int) else (x : Int)

/-- exp: within 2 ulp; exact 0 below −103.97 and +infinity above 88.72 (Table 6.5). -/
def f32Exp (x : Nat) : Nat :=
  match ofF32 x with
  | .nan => f32NaN
  | .inf neg => if neg then 0 else fFP32.infMag
  | .fin neg m e =>
    let f := toFix neg m e
    if f * 100 < -10397 * (2 ^ 120 : Nat) then 0
    else if 8872 * ((2 ^ 120 : Nat) : Int) < f * 100 then fFP32.infMag
    else if m = 0 then 0x3F800000
    else if neg = true ∧ f = 0 then belowOne 2 (Config.expChoice x)
    else
      let k := f / (ln2Fix : Int)
      let r := (f - k * ln2Fix).toNat
      let v := expTerms 40 r (2 ^ 120) 0
      let p := dyadic v (k - 120)
      nearBits 2 p.1 p.2 (Config.expChoice x)

/-- Reciprocal: within 1 ulp; ±0 gives ±infinity (Table 6.5). -/
def f32Recip (x : Nat) : Nat :=
  match ofF32 x with
  | .nan => f32NaN
  | .inf neg => signBit 32 neg
  | .fin neg m e =>
    if m = 0 then signBit 32 neg + fFP32.infMag
    else
      let p := dyadic m e
      signBit 32 neg + nearBits 1 p.2 p.1 (Config.recipChoice x)

/-- Reciprocal square root: within 1 ulp; +0 gives +infinity, −0 −infinity, a negative input NaN (Table 6.5). -/
def f32Rsqrt (x : Nat) : Nat :=
  match ofF32 x with
  | .nan => f32NaN
  | .inf neg => if neg then f32NaN else 0
  | .fin neg m e =>
    if m = 0 then signBit 32 neg + fFP32.infMag
    else if neg then f32NaN
    else
      let p := dyadic m e
      nearBits 1 (Nat.sqrt (p.2 * 2 ^ 400 / p.1)) (2 ^ 200) (Config.rsqrtChoice x)

/-- 2 / √π × 2¹²⁰. -/
def erfFix : Nat := 1499873178763820871004525654118497670

/-- The series of erf: terms (−1)ⁿ x^(2n+1) / (n! (2n+1)) of x / 2¹²⁰, from term `n` on with power `t` = x^(2n+1) / n!. -/
def erfTerms : Nat → Nat → Nat → Nat → Int → Int
  | 0, _, _, _, acc => acc
  | k + 1, n, x2, t, acc =>
    let a : Int := (t / (2 * n + 1) : Nat)
    erfTerms k (n + 1) x2 (t * x2 / 2 ^ 120 / (n + 1)) (if n % 2 = 0 then acc + a else acc - a)

/-- erf: within 2 ulp (Table 6.6). Below 2⁻²⁰ two terms of its series, 2/√π (x − x³/3), give it within 2⁻⁸⁰. -/
def f32Erf (x : Nat) : Nat :=
  match ofF32 x with
  | .nan => f32NaN
  | .inf neg => signBit 32 neg + 0x3F800000
  | .fin neg m e =>
    if m = 0 then x
    else
      let f := (toFix false m e).toNat
      if f < 2 ^ 100 then
        let k := 2 ^ (-2 * e).toNat
        let p := dyadic (m * erfFix * (3 * k - m * m)) (3 * e - 120)
        signBit 32 neg + nearBits 2 p.1 (3 * p.2) (Config.erfChoice x)
      else if 4 * 2 ^ 120 < f then signBit 32 neg + belowOne 2 (Config.erfChoice x)
      else
        let v := (erfTerms 90 0 (f * f / 2 ^ 120) f 0).toNat * erfFix / 2 ^ 120
        signBit 32 neg + nearBits 2 v (2 ^ 120) (Config.erfChoice x)

/-- The series of artanh: odd powers of y / 2¹²⁰ over their exponents, from term `n` on with power `t`. -/
def artanhTerms : Nat → Nat → Nat → Nat → Nat → Nat
  | 0, _, _, _, acc => acc
  | k + 1, n, y2, t, acc => artanhTerms k (n + 1) y2 (t * y2 / 2 ^ 120) (acc + t / (2 * n + 1))

/-- ln of a finite value of at least 1, a result within 2 ulp as of the other functions: R347 states no bound (DESIGN CHOICE, log entry
72). -/
def f32Ln (x : Nat) : Nat :=
  match ofF32 x with
  | .nan => f32NaN
  | .inf _ => x
  | .fin _ m e =>
    let k := Nat.log2 m
    let y := (m - 2 ^ k) * 2 ^ 120 / (m + 2 ^ k)
    let f := (e + k).toNat * ln2Fix + 2 * artanhTerms 40 0 (y * y / 2 ^ 120) y 0
    if f = 0 then 0 else nearBits 2 f (2 ^ 120) (Config.lnChoice x)

def f32One : Nat := 0x3F800000
def f32Half : Nat := 0x3F000000

/-- FP32 nearest to 0.70710678. -/
def f32Rsqrt2 : Nat := fFP32.roundMag 70710678 100000000

/-- silu and gelu (Table 6.6). -/
def f32Silu (x : Nat) : Nat := f32Mul x (f32Recip (f32Add f32One (f32Exp (f32Neg x))))
def f32Gelu (x : Nat) : Nat := f32Mul (f32Mul x f32Half) (f32Add f32One (f32Erf (f32Mul x f32Rsqrt2)))

/-- Neighbouring lanes combined. -/
def pairUp (f : Nat → Nat → Nat) : List Nat → List Nat
  | a :: b :: r => f a b :: pairUp f r
  | l => l

/-- A balanced tree over lane index, `n` levels (R220). -/
def treeUp (f : Nat → Nat → Nat) : Nat → List Nat → List Nat
  | 0, l => l
  | n + 1, l => treeUp f n (pairUp f l)

/-- A row reduction: chunks of 256 by the tree, then in ascending chunk order (R220). -/
def rowReduce (f : Nat → Nat → Nat) (z : Nat) (l : List Nat) : Nat :=
  let part (i : Nat) : Nat := (treeUp f 8 ((l.drop (256 * i)).take 256)).headD z
  (List.range (ceilDiv l.length 256 - 1)).foldl (fun acc i => f acc (part (i + 1))) (part 0)

/-- The row sum and row max of a row. -/
def rowSum (l : List Nat) : Nat := rowReduce f32Add 0 l
def rowMax (l : List Nat) : Nat := rowReduce f32Max 0xFF800000 l

/-- SOFTMAX of a row: a fully masked row gives zeros (R221, §6.6 "At the edges"). -/
def softmaxRow (l : List Nat) : List Nat :=
  let m := rowMax l
  if m = 0xFF800000 then l.map fun _ => 0
  else if f32IsNaN m then l.map fun _ => f32NaN
  else
    let es := l.map fun x => f32Exp (f32Sub x m)
    let r := f32Recip (rowSum es)
    es.map fun e => f32Mul e r

/-- The log-sum-exp of a row: m + ln Σ exp(x − m), m being the row max (R347; log entry 80). -/
def logSumExp (l : List Nat) : Nat :=
  let m := rowMax l
  match ofF32 m with
  | .fin _ _ _ => f32Add m (f32Ln (rowSum (l.map fun x => f32Exp (f32Sub x m))))
  | _ => m

/-- A row function of Table 6.6 on a row of FP32 values. -/
def rowFunction (fn param : Nat) (l : List Nat) : List Nat :=
  let half := l.length / 2
  match fn with
  | 1 => List.zipWith (fun g u => f32Mul (f32Silu g) u) (l.take half) (l.drop half)
  | 2 => List.zipWith (fun g u => f32Mul (f32Gelu g) u) (l.take half) (l.drop half)
  | 3 => l.map f32Gelu
  | 4 => l.map f32Silu
  | 5 => softmaxRow l
  | _ =>
    let w := fFP32.roundMag 1 l.length
    let r := f32Rsqrt (f32Add (f32Mul (rowSum (l.map fun x => f32Mul x x)) w) param)
    l.map fun x => f32Mul x r

end Sys2Proof.Machine
end

