-- ==== Sys2Proof/Machine/Trig.lean ====
section
/-!
DEFINITION. Machine/Trig.lean: the rotation of R260: cosines and sines within their error bound, and the rotation of a row.
-/

namespace Sys2Proof.Machine

/-- One in units of 2⁻¹²⁰, and π / 2. -/
def fixOne : Nat := 2 ^ 120
def halfPiFix : Nat := 2087946453251888179413438228831778873

/-- Terms of the series of atanh: y^(2k+1) / (2k+1). -/
def atanhTerms : Nat → Nat → Nat → Nat → Nat → Nat
  | 0, _, _, _, acc => acc
  | n + 1, k, y2, t, acc => atanhTerms n (k + 1) y2 (t * y2 / fixOne) (acc + t / (2 * k + 1))

/-- ln of a positive fraction in units of 2⁻¹²⁰: the exponent's part plus 2 atanh((m − 1) / (m + 1)). -/
def lnFix (n d : Nat) : Int :=
  let e := expOf n d
  let p := scaleFrac n d e
  let y := (p.1 - p.2) * fixOne / (p.1 + p.2)
  e * (ln2Fix : Int) + ((2 * atanhTerms 45 0 (y * y / fixOne) y 0 : Nat) : Int)

/-- exp of a value in units of 2⁻¹²⁰ that is at most 0. -/
def expNegFix (f : Int) : Nat :=
  let k := f / (ln2Fix : Int)
  let r := (f - k * ln2Fix).toNat
  expTerms 40 r fixOne 0 / 2 ^ (-k).toNat

/-- The angle p × ROPE_BASE^(−2j/D) in units of 2⁻¹²⁰. -/
def ropeAngle (base p j d : Nat) : Nat :=
  match ofF32 base with
  | .fin _ m e =>
    let q := dyadic m e
    p * expNegFix (-(lnFix q.1 q.2 * (2 * j : Nat)) / (d : Int))
  | _ => 0

/-- Terms of the series of sine and cosine of r / 2¹²⁰, alternating in sign: t × r² / ((k + 1)(k + 2)) follows t. -/
def altTerms : Nat → Nat → Nat → Nat → Int → Int
  | 0, _, _, _, acc => acc
  | n + 1, k, r2, t, acc =>
    altTerms n (k + 2) r2 (t * r2 / fixOne / ((k + 1) * (k + 2))) (if k / 2 % 2 = 0 then acc + t else acc - t)

def cosSmall (r : Nat) : Int := altTerms 30 0 (r * r / fixOne) fixOne 0
def sinSmall (r : Nat) : Int := altTerms 30 1 (r * r / fixOne) r 0

/-- Cosine and sine of an angle in units of 2⁻¹²⁰. -/
def cosSin (a : Nat) : Int × Int :=
  let q := a / halfPiFix
  let r := a % halfPiFix
  match q % 4 with
  | 0 => (cosSmall r, sinSmall r)
  | 1 => (-(sinSmall r), cosSmall r)
  | 2 => (-(cosSmall r), -(sinSmall r))
  | _ => (sinSmall r, -(cosSmall r))

/-- A value in units of 2⁻¹²⁰ as FP32, moved by a choice of at most 990 × 2⁻³⁰: with the rounding within 2⁻²⁰ (R260). -/
def trigF32 (v : Int) (choice : Nat) : Nat :=
  let x := v + ((choice % 1981 : Nat) : Int) * 2 ^ 90 - 990 * 2 ^ 90
  toF32 (.fin (decide (x < 0)) x.natAbs (-120))

/-- Key of the choice for a rotation. -/
def trigKey (base p j d : Nat) : Nat := ((base * 2 ^ 24 + p) * 2 ^ 8 + j) * 2 ^ 9 + d

/-- A row of FP32 elements rotated by its position: element j is paired with element j + D/2 (R260). -/
def rotateRow (base p : Nat) (row : List Nat) : List Nat :=
  let d := row.length
  let h := d / 2
  let cs := (List.range h).map fun j =>
    let v := cosSin (ropeAngle base p j d)
    (trigF32 v.1 (Config.cosChoice (trigKey base p j d)), trigF32 v.2 (Config.sinChoice (trigKey base p j d)))
  let lo := (List.range h).map fun j =>
    let x := row.getD j 0
    let y := row.getD (j + h) 0
    let c := cs.getD j (0, 0)
    f32Sub (f32Mul x c.1) (f32Mul y c.2)
  let hi := (List.range h).map fun j =>
    let x := row.getD j 0
    let y := row.getD (j + h) 0
    let c := cs.getD j (0, 0)
    f32Add (f32Mul x c.2) (f32Mul y c.1)
  lo ++ hi

end Sys2Proof.Machine
end

