-- ==== Sys2Proof/Machine/Regs.lean ====
section
/-!
DEFINITION. Machine/Regs.lean: every register field of the spec's register tables, one constructor each, named
REGISTER_FIELD as the tables name them, with its width and its reset value, and the internal cells (counters,
latches, committed values) that the spec's rules name without giving them an address. The state holds one value for
each `Key`: a field, a half, and the instance of the field where a half has several (a ring, a core, a channel).
A register that reports the whole package is held once, under half h0.
-/

namespace Sys2Proof.Machine

/-- Default floors of Table 1.7 (R46), by consumer class. -/
def poolFloorDefault (i : Nat) : Nat :=
  match i with
  | 0 => 128 | 1 => 256 | 2 => 192 | 3 => 64 | 4 => 16 | 5 => 64 | 6 => 32 | _ => 0

/-- Default caps of Table 1.7 (R46), by consumer class. -/
def poolCapDefault (i : Nat) : Nat :=
  match i with
  | 0 => 256 | 1 => 640 | 2 => 512 | 3 => 256 | 4 => 16 | 5 => 128 | 6 => 64 | _ => 0

/-- Default slots of class 2k + 1, sub-channel 1 of virtual channel k (Table 11.4). -/
def fabBufHi (k : Nat) : Nat := if k = 0 then 320 else if k = 1 then 128 else 32

/-- Default slots of class 2k, sub-channel 0 of virtual channel k (Table 11.4). -/
def fabBufLo (k : Nat) : Nat := if k = 0 then 640 else if k = 1 then 256 else 64

/-- Holder of a comparator after reset (R472, Table 14.5): the FT list holds comparator 0, the MT list comparator 1. -/
def cmpHolderReset (c : Nat) : Nat := if c = 0 then 1 else if c = 1 then 2 else 0

/-- Register fields of 01_package_and_halves.md (R58). -/
inductive PkgF where
  | PKG_MAP_M1_OK | PKG_MAP_M0_OK | PKG_MAP_HUB1_OK | PKG_MAP_HUB0_OK | PKG_MAP_TDIE_OK
  | PKG_SERVICE_LOWLAND | PKG_SERVICE_ROLES_H1 | PKG_SERVICE_COMP_H1 | PKG_SERVICE_COMP_H0 | PKG_SERVICE_MGMT_H1 | PKG_SERVICE_MGMT_H0
  | CORE_OK
  | PASS_STATUS_SPARE_TX | PASS_STATUS_SPARE_RX | PASS_STATUS_SB_ALIVE | PASS_STATUS_LOCK | PASS_STATUS_EXH_RUN | PASS_STATUS_STATE
  | PASS_ERR
  | PASS_REPLAY_CNT_EXH | PASS_REPLAY_CNT_REPLAYS
  | PASS_DOWN_TIME
  | POOL_CLASS_CFG_CAP | POOL_CLASS_CFG_FLOOR
  | POOL_CLASS_USE_LENT | POOL_CLASS_USE_IN_USE
  | POOL_CTL_QUIESCE | POOL_CTL_COMMIT
  | POOL_STATUS_LAST_STATUS | POOL_STATUS_QUIESCED | POOL_STATUS_FREE
  | POOL_RECLAIM_CNT
  | POOL_FORCED_CNT
  | POOL_RECLAIM_MAX
  /-- committed floor of class i (R47). -/
  | POOL_FLOOR
  /-- committed cap of class i (R47). -/
  | POOL_CAP
  /-- lane realignment after an exhaustion in progress (R35). -/
  | PASS_REALIGNING
  /-- a retrain attempt of the main lanes in progress (R534); held under h0. -/
  | PASS_TRYING
deriving DecidableEq, Repr

/-- Width in bits of a field of 01_package_and_halves.md. -/
def PkgF.width : PkgF → Nat
  | .PKG_MAP_M1_OK | .PKG_MAP_M0_OK | .PKG_MAP_HUB1_OK | .PKG_MAP_HUB0_OK | .PKG_SERVICE_LOWLAND | .PKG_SERVICE_ROLES_H1
  | .PKG_SERVICE_COMP_H1 | .PKG_SERVICE_COMP_H0 | .PKG_SERVICE_MGMT_H1 | .PKG_SERVICE_MGMT_H0 | .PASS_STATUS_SB_ALIVE | .PASS_STATUS_LOCK
  | .POOL_CTL_QUIESCE | .POOL_CTL_COMMIT | .POOL_STATUS_QUIESCED | .PASS_REALIGNING | .PASS_TRYING => 1
  | .PASS_STATUS_EXH_RUN => 2
  | .PASS_STATUS_STATE => 3
  | .PASS_STATUS_SPARE_TX | .PASS_STATUS_SPARE_RX | .PASS_ERR => 4
  | .PKG_MAP_TDIE_OK => 8
  | .POOL_CLASS_CFG_CAP | .POOL_CLASS_CFG_FLOOR | .POOL_CLASS_USE_LENT | .POOL_CLASS_USE_IN_USE | .POOL_STATUS_FREE | .POOL_FLOOR
  | .POOL_CAP => 11
  | .POOL_STATUS_LAST_STATUS | .POOL_RECLAIM_MAX => 16
  | .PASS_REPLAY_CNT_EXH | .PASS_REPLAY_CNT_REPLAYS | .POOL_RECLAIM_CNT | .POOL_FORCED_CNT => 32
  | .CORE_OK | .PASS_DOWN_TIME => 64

/-- Reset value of a field of 01_package_and_halves.md: the table's Reset column; a field not named here resets to 0. -/
def PkgF.reset (_h : Half) (i : Nat) : PkgF → Nat
  | .PKG_MAP_M1_OK => 1
  | .PKG_MAP_M0_OK => 1
  | .PKG_MAP_HUB1_OK => 1
  | .PKG_MAP_HUB0_OK => 1
  | .PKG_MAP_TDIE_OK => 255
  | .CORE_OK => 0xFFFFFFFFFFFFFFFF
  | .POOL_CLASS_CFG_CAP => poolCapDefault i
  | .POOL_CLASS_CFG_FLOOR => poolFloorDefault i
  | .POOL_STATUS_FREE => 1024
  | .POOL_FLOOR => poolFloorDefault i
  | .POOL_CAP => poolCapDefault i
  | _ => 0

/-- Register fields of 04_host_rings_and_registers.md (R173). -/
inductive HostF where
  | GLB_ID_PART | GLB_ID_STEPPING | GLB_ID_HALF
  | SETUP_LOCK_PEER_PENDING | SETUP_LOCK_LOCK
  | LINK_STATUS_RATE | LINK_STATUS_WIDTH | LINK_STATUS_FLIT | LINK_STATUS_IDE | LINK_STATUS_RRS | LINK_STATUS_LINK_UP
  | LINK_EVT
  | FUNC_ID_PF | FUNC_ID_HALF | FUNC_ID_PARTITION
  | FUNC_STATUS_DRAINING
  | FUNC_IRQ
  | FUNC_IRQ_EN
  | FUNC_IRQ_VEC
  | EVT_RING_EN | EVT_RING_RING
  | ACC_CNT_UNMAPPED | ACC_CNT_BAD_WIDTH
  | SHD_CNT_SHADOW_MISS | SHD_CNT_STAGE_DROP
  | EVT_LOST_CNT
  | RING_BASE
  | CQ_BASE
  | RING_CFG_CQ_VEC | RING_CFG_CQ_IRQ_EN | RING_CFG_CQ_LOG2 | RING_CFG_SIZE_LOG2 | RING_CFG_PINNED
  | RING_COAL_COAL_CNT | RING_COAL_COAL_TIME
  | RING_START
  | RING_CTL_FSTOP | RING_CTL_EN
  | RING_STATUS_CQ_CI | RING_STATUS_CQ_PI | RING_STATUS_CI | RING_STATUS_PI
  | RING_STATE_LAST_STATUS | RING_STATE_FETCHED | RING_STATE_CQ_STALL | RING_STATE_STATE
  | RING_ERR
  | PIN_COUNT
  | PIN_ALLOC
  | PIN_POOL_LAST_STATUS | PIN_POOL_FREE
  /-- RING_BASE of ring i has been written since its block was last reset (R26, R148). -/
  | RING_BASE_WRITTEN
  /-- entries of the chain whose head was looked at and found not yet covered, 0 = none (R180). -/
  | RING_LOOK
  /-- 1 = Bus Master Enable was cleared, or D3hot entered, while the ring ran: it fetches nothing meanwhile (Table 4.7). -/
  | RING_QUIET
  /-- CQ_BASE of ring i has been written since its block was last reset (R26, R148). -/
  | CQ_BASE_WRITTEN
  /-- completion records of ring i reserved and not yet written (R163). -/
  | CQ_RESERVED
  /-- records written on ring i since its last message (R167). -/
  | COAL_SEEN
  /-- time of the first record written on ring i after its last message (R167). -/
  | COAL_T0
  /-- read shadow of function i: 1 + register address, 0 = no tag (R138). -/
  | SHADOW_TAG
  /-- read shadow of function i: the high word latched (R138). -/
  | SHADOW_HIGH
  /-- write shadow of function i: 1 + register address, 0 = none staged (R140). -/
  | STAGE_TAG
  /-- write shadow of function i: the staged low word (R140). -/
  | STAGE_LOW
  /-- PERST# of the half deasserted (R113). -/
  | PERST_N
  /-- Bus Master Enable of function i (R170). -/
  | BME
  /-- function i is in D3hot (R169). -/
  | D3HOT
  /-- VF i exists: VF Enable set and i below NumVFs (R129, R488). -/
  | VF_EXISTS
  /-- NumVFs of the half's PF (R129). -/
  | NUM_VFS
  /-- MSI-X table, address of entry i mod 64 of function i / 64 (R168). -/
  | MSIX_ADDR
  /-- MSI-X table, data of entry i mod 64 of function i / 64 (R168). -/
  | MSIX_DATA
  /-- MSI-X table, mask bit of entry i mod 64 of function i / 64 (R168). -/
  | MSIX_MASK
  /-- MSI-X pending bit of entry i mod 64 of function i / 64 (R168). -/
  | MSIX_PBA
deriving DecidableEq, Repr

/-- Width in bits of a field of 04_host_rings_and_registers.md. -/
def HostF.width : HostF → Nat
  | .GLB_ID_HALF | .SETUP_LOCK_PEER_PENDING | .SETUP_LOCK_LOCK | .LINK_STATUS_FLIT | .LINK_STATUS_IDE | .LINK_STATUS_RRS
  | .LINK_STATUS_LINK_UP | .FUNC_ID_PF | .FUNC_ID_HALF | .FUNC_STATUS_DRAINING | .EVT_RING_EN | .RING_CFG_CQ_IRQ_EN
  | .RING_CFG_PINNED | .RING_CTL_FSTOP | .RING_CTL_EN | .RING_STATE_CQ_STALL | .RING_BASE_WRITTEN | .RING_QUIET | .CQ_BASE_WRITTEN
  | .PERST_N | .BME | .D3HOT | .VF_EXISTS | .MSIX_MASK | .MSIX_PBA => 1
  | .RING_STATE_STATE => 2
  | .LINK_STATUS_WIDTH | .LINK_EVT | .EVT_RING_RING => 3
  | .LINK_STATUS_RATE | .RING_CFG_CQ_LOG2 | .RING_CFG_SIZE_LOG2 => 4
  | .FUNC_IRQ | .FUNC_IRQ_EN => 5
  | .FUNC_IRQ_VEC | .RING_CFG_CQ_VEC | .RING_ERR => 6
  | .FUNC_ID_PARTITION | .PIN_COUNT | .PIN_ALLOC | .NUM_VFS => 7
  | .GLB_ID_STEPPING | .RING_COAL_COAL_CNT | .RING_STATE_FETCHED => 8
  | .PIN_POOL_FREE => 13
  | .GLB_ID_PART | .ACC_CNT_UNMAPPED | .ACC_CNT_BAD_WIDTH | .SHD_CNT_SHADOW_MISS | .SHD_CNT_STAGE_DROP | .RING_COAL_COAL_TIME
  | .RING_START | .RING_STATUS_CQ_CI | .RING_STATUS_CQ_PI | .RING_STATUS_CI | .RING_STATUS_PI | .RING_STATE_LAST_STATUS
  | .PIN_POOL_LAST_STATUS | .CQ_RESERVED | .COAL_SEEN | .RING_LOOK => 16
  | .EVT_LOST_CNT | .SHADOW_TAG | .SHADOW_HIGH | .STAGE_TAG | .STAGE_LOW | .MSIX_DATA => 32
  | .RING_BASE | .CQ_BASE | .COAL_T0 | .MSIX_ADDR => 64

/-- Reset value of a field of 04_host_rings_and_registers.md: the table's Reset column; a field not named here resets to 0. -/
def HostF.reset (h : Half) (i : Nat) : HostF → Nat
  | .GLB_ID_PART => 0x4812
  | .GLB_ID_STEPPING => 0xA1
  | .GLB_ID_HALF => h.num
  | .LINK_STATUS_RRS => 1
  | .FUNC_ID_PF => (if i = 64 then 1 else 0)
  | .FUNC_ID_HALF => h.num
  | .FUNC_ID_PARTITION => (if i = 64 then 0 else 64 * h.num + i)
  | .RING_CFG_CQ_LOG2 => 4
  | .RING_CFG_SIZE_LOG2 => 4
  | .PIN_POOL_FREE => 4096
  | .MSIX_MASK => 1
  | _ => 0

/-- Register fields of 05_work_descriptors.md (R205). -/
inductive DescF where
  | EVC_VAL
  | EVC_ADD
  | EVC_ALLOC_BASE | EVC_ALLOC_COUNT
  | REQ_ALLOC_BASE | REQ_ALLOC_COUNT
  | ALLOC_STATUS_LAST_STATUS
  | REQ_OPEN_CNT
  | EVC_INFO
  | REQ_INFO
deriving DecidableEq, Repr

/-- Width in bits of a field of 05_work_descriptors.md. -/
def DescF.width : DescF → Nat
  | .EVC_ALLOC_COUNT => 7
  | .EVC_ALLOC_BASE | .REQ_ALLOC_BASE => 12
  | .REQ_ALLOC_COUNT | .REQ_OPEN_CNT => 13
  | .ALLOC_STATUS_LAST_STATUS => 16
  | .EVC_VAL | .EVC_ADD | .EVC_INFO | .REQ_INFO => 32

/-- Reset value of a field of 05_work_descriptors.md: the table's Reset column; a field not named here resets to 0. -/
def DescF.reset (_h : Half) (_i : Nat) : DescF → Nat
  | _ => 0

/-- Register fields of 18_electrical_and_limits.md (R584). -/
inductive PwrF where
  | PWR_STATUS_ARR_PG | PWR_STATUS_RAILS | PWR_STATUS_PWR_GOOD
  | PWR_EVT
  | PWR_INPUT_PEAK | PWR_INPUT_AVG
  /-- highest 100 ms average since the PF of half i last read PWR_INPUT (R584); held under h0. -/
  | PWR_PEAK_FN
deriving DecidableEq, Repr

/-- Width in bits of a field of 18_electrical_and_limits.md. -/
def PwrF.width : PwrF → Nat
  | .PWR_STATUS_PWR_GOOD => 1
  | .PWR_EVT => 3
  | .PWR_STATUS_RAILS => 7
  | .PWR_STATUS_ARR_PG => 8
  | .PWR_INPUT_PEAK | .PWR_INPUT_AVG | .PWR_PEAK_FN => 16

/-- Reset value of a field of 18_electrical_and_limits.md: the table's Reset column; a field not named here resets to 0. -/
def PwrF.reset (_h : Half) (_i : Nat) : PwrF → Nat
  | .PWR_STATUS_RAILS => 127
  | .PWR_STATUS_PWR_GOOD => 1
  | _ => 0

/-- Register fields of 19_status_catalogue.md (R591). -/
inductive IrqF where
  | GLB_EVT
  | IRQ_ROUTE_EN | IRQ_ROUTE_VEC | IRQ_ROUTE_MASK
deriving DecidableEq, Repr

/-- Width in bits of a field of 19_status_catalogue.md. -/
def IrqF.width : IrqF → Nat
  | .IRQ_ROUTE_EN => 1
  | .GLB_EVT => 2
  | .IRQ_ROUTE_VEC => 6
  | .IRQ_ROUTE_MASK => 16

/-- Reset value of a field of 19_status_catalogue.md: the table's Reset column; a field not named here resets to 0. -/
def IrqF.reset (_h : Half) (_i : Nat) : IrqF → Nat
  | _ => 0

/-- Register fields of 03_startup_and_lowland.md (R128). -/
inductive BootF where
  | STRAP_STATUS_MISMATCH | STRAP_STATUS_BAD | STRAP_STATUS_BOOT_SEL | STRAP_STATUS_PLAT_INIT | STRAP_STATUS_SMB_ADDR | STRAP_STATUS_FAB_MEDIA | STRAP_STATUS_FIPS_MODE
  | BOOT_STATUS_STEP | BOOT_STATUS_IMAGE | BOOT_STATUS_HBM_FAIL | BOOT_STATUS_PASS_FAIL | BOOT_STATUS_STATUS
  | BOOT_FAIL_DIE
  | BOOT_TIME_MGMT
  | BOOT_TIME_COMP
  | CORE_TEST
  | LOWLAND_STATUS_LAST_STATUS | LOWLAND_STATUS_CAUSE | LOWLAND_STATUS_PARK | LOWLAND_STATUS_FUSE_ONLY | LOWLAND_STATUS_START_FAIL_RUN
  | LOWLAND_CTL_EXIT
  | LOWLAND_ENTRY_TIME
  | THERM_SETTLE0_TIMEOUT | THERM_SETTLE0_HOLD
  | THERM_SETTLE1_SLOPE
  | THERM_SETTLE2_FLOW_PERIOD
  /-- Lowland causes that have arisen and have not been entered: bit 3 SECURITY, 2 RESET, 1 NO_COMPUTE, 0 THERM (R120); held under h0. -/
  | LOW_PEND
  /-- level of PWR_GOOD (R102); held under h0. -/
  | PWR_GOOD_PIN
  /-- DIE_PWR_EN[i] of compute die i (R101); held under h0. -/
  | DIE_PWR_EN
  /-- the straps of this start-up have been sampled (R97). -/
  | STRAP_DONE
  /-- BOOT_SEL as this hub sampled it (R97, R99). -/
  | STRAP_OWN_BOOT_SEL
  /-- PLAT_INIT as this hub sampled it (R97, R99). -/
  | STRAP_OWN_PLAT_INIT
  /-- SMB_ADDR as this hub sampled it (R97, R99). -/
  | STRAP_OWN_SMB_ADDR
  /-- FAB_MEDIA as this hub sampled it (R97, R99). -/
  | STRAP_OWN_FAB_MEDIA
  /-- FIPS_MODE as this hub sampled it (R97, R99). -/
  | STRAP_OWN_FIPS_MODE
  /-- the hub's MC runs started firmware (R103). -/
  | FW_RUNNING
  /-- the pre-operational self-tests of the hub passed (R105). -/
  | SELFTEST_OK
  /-- the chip-wide roles are settled in this start-up (R106); held under h0. -/
  | ROLES_SETTLED
  /-- the last step of Table 3.6 that has ended for the chip (R117); held under h0. -/
  | BOOT_STAGE_MAX
  /-- consecutive good samples of the settling test (R108); held under h0. -/
  | SETTLE_RUN
  /-- reference sample of the settling slope (R108); held under h0. -/
  | SETTLE_REF
  /-- a reference sample has been read (R108); held under h0. -/
  | SETTLE_REF_V
  /-- last step of Table 3.8 done, 0 outside Lowland mode (R121); held under h0. -/
  | LOWLAND_ENTERED
  /-- stage of a Lowland exit in progress: 0 none, 1 settling, 2 E1 comes next, 3 stage F comes next (R125, R126); held under h0. -/
  | EXIT_RUNNING
  /-- causes left since the last LOWLAND_OUT record (R553); held under h0. -/
  | LOW_LEFT
  /-- status of the cause that last arose, for the LOWLAND_IN record (R553); held under h0. -/
  | LOW_STATUS
  /-- step E4 has been reached on the half (R113). -/
  | MGMT_READY
  /-- step 13 of Table 3.6 has been reached in this start-up; held under h0. -/
  | COMPUTE_READY_DONE
  /-- the half acts in Lowland mode (R121). -/
  | LOWLAND_IN
  /-- the pre-operational self-tests of the hub have ended (R105). -/
  | SELFTEST_DONE
  /-- kind of the running start-up: 0 power-on, 1 chip step, 2 after a tray step (R553); held under h0. -/
  | START_KIND
  /-- the half's HBM stack is trained and not lost (R111, R526). -/
  | HBM_OK
deriving DecidableEq, Repr

/-- Width in bits of a field of 03_startup_and_lowland.md. -/
def BootF.width : BootF → Nat
  | .STRAP_STATUS_MISMATCH | .STRAP_STATUS_BAD | .STRAP_STATUS_FAB_MEDIA | .STRAP_STATUS_FIPS_MODE | .BOOT_STATUS_HBM_FAIL | .BOOT_STATUS_PASS_FAIL
  | .LOWLAND_STATUS_FUSE_ONLY | .LOWLAND_CTL_EXIT | .PWR_GOOD_PIN | .DIE_PWR_EN | .STRAP_DONE | .STRAP_OWN_FAB_MEDIA
  | .STRAP_OWN_FIPS_MODE | .FW_RUNNING | .SELFTEST_OK | .ROLES_SETTLED | .SETTLE_REF_V | .MGMT_READY
  | .COMPUTE_READY_DONE | .LOWLAND_IN | .SELFTEST_DONE | .HBM_OK => 1
  | .STRAP_STATUS_BOOT_SEL | .STRAP_STATUS_PLAT_INIT | .BOOT_STATUS_IMAGE | .LOWLAND_STATUS_PARK | .LOWLAND_STATUS_START_FAIL_RUN | .STRAP_OWN_BOOT_SEL
  | .STRAP_OWN_PLAT_INIT | .EXIT_RUNNING | .START_KIND => 2
  | .STRAP_STATUS_SMB_ADDR | .STRAP_OWN_SMB_ADDR => 3
  | .BOOT_STATUS_STEP | .LOWLAND_STATUS_CAUSE | .LOW_PEND | .BOOT_STAGE_MAX | .LOWLAND_ENTERED | .LOW_LEFT => 4
  | .BOOT_FAIL_DIE | .THERM_SETTLE0_HOLD | .SETTLE_RUN => 8
  | .BOOT_STATUS_STATUS | .LOWLAND_STATUS_LAST_STATUS | .THERM_SETTLE0_TIMEOUT | .THERM_SETTLE1_SLOPE | .SETTLE_REF | .LOW_STATUS => 16
  | .THERM_SETTLE2_FLOW_PERIOD => 24
  | .BOOT_TIME_MGMT | .BOOT_TIME_COMP => 32
  | .CORE_TEST | .LOWLAND_ENTRY_TIME => 64

/-- Reset value of a field of 03_startup_and_lowland.md: the table's Reset column; a field not named here resets to 0. -/
def BootF.reset (_h : Half) (_i : Nat) : BootF → Nat
  | .BOOT_STATUS_STEP => 1
  | .THERM_SETTLE0_TIMEOUT => 1500
  | .THERM_SETTLE0_HOLD => 5
  | .THERM_SETTLE1_SLOPE => 0x0040
  | .THERM_SETTLE2_FLOW_PERIOD => 2500000
  | .PWR_GOOD_PIN => 1
  | .BOOT_STAGE_MAX => 1
  | _ => 0

/-- Register fields of 16_faults_and_recovery.md (R544). -/
inductive FltF where
  | FLT_CFG_HBM_UE_LIMIT | FLT_CFG_PART_LIMIT | FLT_CFG_AUTO_TRAY | FLT_CFG_AUTO_CHIP
  | FLT_WDT0_CTX_WDT | FLT_WDT0_PASS_MULT
  | FLT_WDT1_ENG_WDT
  | FLT_CTL_ARG | FLT_CTL_CMD
  | FLT_STATUS_LAST_STATUS | FLT_STATUS_STEP
  | FLT_EVT
  | FLT_LOST_STACK | FLT_LOST_DIE
  | FLT_CNT_ENG | FLT_CNT_CTX
  | FLT_REC_HEAD_NEWEST
  | FLT_LOG_BASE
  | FLT_SMP_BASE
  | FLT_LOG_CFG_EN | FLT_LOG_CFG_SMP_LOG2 | FLT_LOG_CFG_LOG2
  | FLT_LOG_PI
  | FLT_LOG_CI
  | FLT_LOG_LOST
  | RING_WDT_ACT | RING_WDT_MS
  | MC_STATUS_LAST_STATUS | MC_STATUS_PEER | MC_STATUS_SELF | MC_STATUS_LATCH
  | MC_EVT
  | MC_GEN
  | MC_TAKEOVER_TIME
  | ROLE_ARB_PATH | ROLE_ARB_HALF
  | MC_PASS_CTL_RETRAIN_EN | MC_PASS_CTL_REJOIN
  | PASS_RETRAIN_CNT
  /-- fault records of the half since reset (R516). -/
  | FLT_REC_COUNT
  /-- context steps of partition i in the current 1 s window (R523). -/
  | FLT_PART_COUNT
  /-- start of the 1 s window of partition i (R523). -/
  | FLT_PART_T0
  /-- 1 + MT of the last PASS_WDT step of core i of the half, 0 = none (R526). -/
  | FLT_CORE_WDT_T
  /-- 1 + MT of the last context step bound missed on die i, 0 = none (R523); held under h0. -/
  | FLT_DIE_MISS_T
  /-- AUX_PCYC_REQ# asserted (R524); held under h0. -/
  | TRAY_REQ
  /-- role arbitration waits for a ROLE_GRANT (R528). -/
  | ARB_PENDING
  /-- MT of the ROLE_QUERY of the running arbitration (R528). -/
  | ARB_MT
  /-- the half held the roles at the start of the arbitration (R528). -/
  | ARB_HELD
  /-- MT of the declaration that began the split (R535). -/
  | PASS_DOWN_MT
  /-- restarts of the MC within 60 s (R542). -/
  | MC_RESTART_COUNT
  /-- MT of the restart before the last one (R542). -/
  | MC_RESTART_T0
  /-- MT at which the last restart began (R542). -/
  | MC_RESTART_AT
  /-- MT at which the last heartbeat of the peer arrived (R536). -/
  | MC_HB_LAST
  /-- MT at which this MC's heartbeat generator last advanced (R537). -/
  | MC_HB_GEN_MT
  /-- role the peer's last heartbeat reported: 1 active, 2 standby (R536). -/
  | MC_PEER_ROLE
  /-- loop state the peer's last heartbeat reported (R532). -/
  | MC_PEER_LOOP
  /-- generation the peer's last heartbeat reported (R536). -/
  | MC_PEER_GEN
  /-- a generation copy has not been committed (R539). -/
  | GEN_COPYING
  /-- number of the generation being copied (R539). -/
  | GEN_COPY_NO
  /-- the standby sends REVOKE until it is honoured (R542). -/
  | REVOKE_SENT
  /-- a takeover waits for the latch acknowledgement (R540). -/
  | MC_TAKING_OVER
  /-- the peer has acknowledged that its latch has cleared, and this hub has not set its own since (R537). -/
  | LATCH_ACKED
  /-- the half without the roles has withdrawn compute service after a TJ_CRIT of its own (R532). -/
  | COMP_WITHDRAWN
  /-- dispatch stopped by the role holder's hub with both MCs down (R542). -/
  | DISPATCH_STOPPED
  /-- a partition step of partition p has not reached its step 6 (R520, Table 16.8). -/
  | FLT_PART_STEP
  /-- MT at which a path to the peer last became alive, no other being so (R536). -/
  | MC_PATH_MT
deriving DecidableEq, Repr

/-- Width in bits of a field of 16_faults_and_recovery.md. -/
def FltF.width : FltF → Nat
  | .FLT_CFG_AUTO_TRAY | .FLT_CFG_AUTO_CHIP | .FLT_LOG_CFG_EN | .RING_WDT_ACT | .MC_STATUS_LATCH | .ROLE_ARB_HALF
  | .MC_PASS_CTL_RETRAIN_EN | .MC_PASS_CTL_REJOIN | .TRAY_REQ | .ARB_PENDING | .ARB_HELD | .GEN_COPYING
  | .REVOKE_SENT | .MC_TAKING_OVER | .LATCH_ACKED | .COMP_WITHDRAWN | .DISPATCH_STOPPED | .FLT_PART_STEP => 1
  | .FLT_LOST_STACK | .ROLE_ARB_PATH | .MC_PEER_ROLE => 2
  | .FLT_STATUS_STEP | .FLT_LOG_CFG_SMP_LOG2 | .MC_STATUS_PEER | .MC_STATUS_SELF | .MC_PEER_LOOP => 3
  | .FLT_WDT0_PASS_MULT | .FLT_CTL_CMD | .FLT_REC_HEAD_NEWEST | .FLT_LOG_CFG_LOG2 | .MC_RESTART_COUNT => 4
  | .MC_EVT => 6
  | .FLT_CFG_PART_LIMIT | .FLT_EVT | .FLT_LOST_DIE | .FLT_PART_COUNT => 8
  | .FLT_CFG_HBM_UE_LIMIT | .FLT_CTL_ARG | .FLT_STATUS_LAST_STATUS | .RING_WDT_MS | .MC_STATUS_LAST_STATUS => 16
  | .FLT_WDT0_CTX_WDT | .FLT_WDT1_ENG_WDT => 20
  | .FLT_CNT_ENG | .FLT_CNT_CTX | .FLT_LOG_PI | .FLT_LOG_CI | .FLT_LOG_LOST | .MC_GEN
  | .PASS_RETRAIN_CNT | .FLT_REC_COUNT | .MC_PEER_GEN | .GEN_COPY_NO => 32
  | .FLT_LOG_BASE | .FLT_SMP_BASE | .MC_TAKEOVER_TIME | .FLT_PART_T0 | .FLT_CORE_WDT_T | .FLT_DIE_MISS_T
  | .PASS_DOWN_MT | .MC_RESTART_T0 | .MC_RESTART_AT | .MC_HB_LAST | .MC_HB_GEN_MT | .ARB_MT | .MC_PATH_MT => 64

/-- Reset value of a field of 16_faults_and_recovery.md: the table's Reset column; a field not named here resets to 0. -/
def FltF.reset (_h : Half) (_i : Nat) : FltF → Nat
  | .FLT_CFG_HBM_UE_LIMIT => 16
  | .FLT_CFG_PART_LIMIT => 64
  | .FLT_CFG_AUTO_CHIP => 1
  | .FLT_WDT0_CTX_WDT => 2000
  | .FLT_WDT0_PASS_MULT => 8
  | .FLT_WDT1_ENG_WDT => 1000
  | .FLT_LOG_CFG_LOG2 => 4
  | .MC_STATUS_SELF => 2
  | .MC_PASS_CTL_RETRAIN_EN => 1
  | _ => 0

/-- Register fields of 17_telemetry_and_ledger.md (R566). -/
inductive TelF where
  | TEL_SNAP_LO_SNAP
  | TEL_STATUS_LAST_STATUS
  | LDG_STATUS_DROPPED | LDG_STATUS_FUSE_ERR | LDG_STATUS_FOREIGN | LDG_STATUS_WRITER
  | LDG_CTL_ADOPT
  | LDG_RD_STATUS
  | LDG_RD_SEQ
  | LDG_NEXT
  | LDG_OLDEST
  | FUSE_CNT
  | TEL_SMB_STUCK_DAT | TEL_SMB_STUCK_CLK
  | SNAP
  | SNAP_SEQ
  | SNAP_MT
  | HIST_CFG_EN | HIST_CFG_MODE | HIST_CFG_SUM_SAT | HIST_CFG_U | HIST_CFG_SRC | HIST_CFG_PV | HIST_CFG_PART
  | HIST_LO
  /-- live slot i mod 32 of counter group i / 32 (R545). -/
  | LIVE_SLOT
  /-- snapshot slot i mod 32 of counter group i / 32 (R141, R547). -/
  | SNAP_SLOT
  /-- live bin i mod 32 of histogram i / 32 (R550). -/
  | HIST_BIN
  /-- live COUNT of histogram i (R550). -/
  | HIST_COUNT
  /-- live SUM of histogram i, two's complement (R550). -/
  | HIST_SUM
  /-- live MAX of histogram i, two's complement (R550). -/
  | HIST_MAX
  /-- snapshot bin i mod 32 of histogram i / 32 (R547). -/
  | HIST_SNAP_BIN
  /-- snapshot COUNT of histogram i (R547). -/
  | HIST_SNAP_COUNT
  /-- snapshot SUM of histogram i (R547). -/
  | HIST_SNAP_SUM
  /-- snapshot MAX of histogram i (R547). -/
  | HIST_SNAP_MAX
  /-- start-up number of the ledger (R556); held under h0. -/
  | LDG_BOOT
  /-- powered seconds since first power-on (R552); held under h0. -/
  | LDG_LIFE_S
  /-- PAGE_SEQ of the page being written (R552); held under h0. -/
  | LDG_PAGE_SEQ
  /-- events counted toward fuse count i (R559); held under h0. -/
  | LDG_TOTAL
  /-- 1 + MT of the first record dropped since the last GAP, 0 = none (R555). -/
  | LDG_DROP_FROM
  /-- MT of the last record dropped since the last GAP (R555). -/
  | LDG_DROP_TO
  /-- the half without the roles held deltas when a split ended by a chip step or power loss (R555); held under h0. -/
  | LDG_DELTA_LOST
  /-- increments of fuse count i accepted and not yet blown (R560); held under h0. -/
  | FUSE_BLOW_PENDING
  /-- SMB_ALERT# asserted (R564); held under h0. -/
  | SMB_ALERT
  /-- endpoint ID assigned by Set Endpoint ID (R563); held under h0. -/
  | MCTP_EID
  /-- terminus ID assigned by SetTID (R563); held under h0. -/
  | PLDM_TID
  /-- whole hours of LIFE_S that have had their SUMMARY, or had passed at the start-up (R553); held under h0. -/
  | SUMMARY_HOURS
  /-- time at level i, in ns, when the last SUMMARY was written (R553); held under h0. -/
  | SUMMARY_NS
  /-- module input energy when the last SUMMARY was written (R553); held under h0. -/
  | SUMMARY_UJ
  /-- context steps of both halves when the last SUMMARY was written (R553); held under h0. -/
  | SUMMARY_CTX
  /-- HBM corrected errors of both halves when the last SUMMARY was written (R553); held under h0. -/
  | SUMMARY_COR
  /-- the half's MC has scanned the ledger in this start-up (R556). -/
  | LDG_SCANNED
  /-- bits of fuse count i that failed verification twice (R560); held under h0. -/
  | FUSE_SKIP
  /-- nanoseconds of the running second of LIFE_S (R552); held under h0. -/
  | LIFE_NS
  /-- remainder of the input energy, in nJ below 1 uJ (R545); held under h0. -/
  | ENERGY_REM
  /-- largest TJ since the last SUMMARY, Q8.8 (R553); held under h0. -/
  | SUMMARY_MAX_TJ
  /-- largest CT_OUT since the last SUMMARY, Q8.8 (R553); held under h0. -/
  | SUMMARY_MAX_OUT
  /-- loop FAILs of fuse count i, 5 or 6, whose LOWLAND_IN record is not accepted yet (R560); held under h0. -/
  | FUSE_HELD
deriving DecidableEq, Repr

/-- Width in bits of a field of 17_telemetry_and_ledger.md. -/
def TelF.width : TelF → Nat
  | .LDG_STATUS_FUSE_ERR | .LDG_STATUS_FOREIGN | .LDG_STATUS_WRITER | .LDG_CTL_ADOPT | .TEL_SMB_STUCK_DAT | .TEL_SMB_STUCK_CLK
  | .SNAP | .HIST_CFG_EN | .HIST_CFG_MODE | .HIST_CFG_SUM_SAT | .HIST_CFG_PV | .LDG_DELTA_LOST
  | .SMB_ALERT | .LDG_SCANNED => 1
  | .HIST_CFG_SRC => 4
  | .HIST_CFG_U => 5
  | .FUSE_SKIP => 6
  | .FUSE_CNT | .HIST_CFG_PART => 7
  | .FUSE_BLOW_PENDING | .FUSE_HELD | .MCTP_EID | .PLDM_TID => 8
  | .ENERGY_REM => 10
  | .TEL_STATUS_LAST_STATUS | .LDG_STATUS_DROPPED | .LDG_RD_STATUS | .SUMMARY_MAX_TJ | .SUMMARY_MAX_OUT => 16
  | .LIFE_NS => 30
  | .TEL_SNAP_LO_SNAP | .LDG_RD_SEQ | .LDG_NEXT | .LDG_OLDEST | .SNAP_SEQ | .HIST_LO
  | .HIST_BIN | .HIST_SNAP_BIN | .LDG_BOOT | .LDG_LIFE_S | .LDG_PAGE_SEQ | .LDG_TOTAL | .SUMMARY_HOURS => 32
  | .SNAP_MT | .LIVE_SLOT | .SNAP_SLOT | .HIST_COUNT | .HIST_SUM | .HIST_MAX
  | .HIST_SNAP_COUNT | .HIST_SNAP_SUM | .HIST_SNAP_MAX | .LDG_DROP_FROM | .LDG_DROP_TO | .SUMMARY_NS
  | .SUMMARY_UJ | .SUMMARY_CTX | .SUMMARY_COR => 64

/-- Reset value of a field of 17_telemetry_and_ledger.md: the table's Reset column; a field not named here resets to 0. -/
def TelF.reset (_h : Half) (_i : Nat) : TelF → Nat
  | _ => 0

/-- Register fields of 02_plateau_clock_and_coolant.md (R96). -/
inductive ThmF where
  | THERM_STATUS_LAST_STATUS | THERM_STATUS_OWNER | THERM_STATUS_FORCED | THERM_STATUS_STATE
  | THERM_CTL_START | THERM_CTL_AUTO_DOWN | THERM_CTL_MODE
  | THERM_EVENT
  | PLAT_STATUS_LAST_STATUS | PLAT_STATUS_SOURCE | PLAT_STATUS_PENDING | PLAT_STATUS_TARGET | PLAT_STATUS_CUR
  | PLAT_CTL_NOTICE_MS | PLAT_CTL_CANCEL | PLAT_CTL_REQ | PLAT_CTL_TARGET
  | PLAT_SWITCH_TIME
  | THERM_SET0_T_OUT_SET | THERM_SET0_T_OUT_FAIL
  | THERM_SET1_TJ_CRIT | THERM_SET1_TJ_WARN
  | THERM_GAIN_KI | THERM_GAIN_KP
  | THERM_SPLIT_SPLIT | THERM_SPLIT_SLEW
  | THERM_RANGE_V_VMAX | THERM_RANGE_V_VMIN
  | THERM_RANGE_P_PMAX | THERM_RANGE_P_PMIN
  | THERM_TIMING_SENS_LOSS | THERM_TIMING_AUTO_DOWN_MS | THERM_TIMING_FAIL_HOLD_MS
  | THERM_PRIME_VALVE | THERM_PRIME_PUMP
  | THERM_MEAS0_T_OUT | THERM_MEAS0_T_IN
  | THERM_MEAS1_DEMAND | THERM_MEAS1_TJ_MAX
  | PWM_CTL_UPDATE | PWM_CTL_POL | PWM_CTL_EN
  | PWM_PERIOD
  | PWM_DUTY
  | PWM_ACT_PERIOD
  | PWM_ACT_DUTY
  | PWM_STATUS_LAST_STATUS | PWM_STATUS_DISARMED | PWM_STATUS_UPD_PEND
  | TRIG_CFG_EN | TRIG_CFG_MODE | TRIG_CFG_CH | TRIG_CFG_WIDTH | TRIG_CFG_AT
  | FB_CTL_CLR_GLITCH | FB_CTL_MODE
  | FB_MIN_INT
  | FB_POSITION
  | FB_PERIOD_DIR | FB_PERIOD_PERIOD
  | FB_ZS_TIMEOUT
  | FB_WINDOW
  | FB_COUNT_WIN
  | FB_STATUS_GLITCH | FB_STATUS_WRAPPED | FB_STATUS_STOPPED
  | AUX_OWNER_FB2B | AUX_OWNER_PWM3 | AUX_OWNER_PWM2
  | AUX_CLAIM_STATUS_LAST_STATUS | AUX_CLAIM_STATUS_PIN | AUX_CLAIM_STATUS_HOLDER | AUX_CLAIM_STATUS_REQUESTER
  | AUX_DIAG
  | AUX_DIAG_CLR
  | AUX_KEY_CABLE_OK | AUX_KEY_PATTERN
  /-- integrator of the thermal loop, Q8.8 % (R69). -/
  | INTEG
  /-- valve duty of the previous loop period, Q8.8 % (R69). -/
  | VALVE_PREV
  /-- pump duty of the previous loop period, Q8.8 % (R69). -/
  | PUMP_PREV
  /-- fb_stopped of the previous loop period (R71). -/
  | FB_STOP
  /-- TJ_MAX was at or above TJ_WARN in the previous period (R73). -/
  | TJ_OVER
  /-- the last read of CT_OUT succeeded (R72, R125). -/
  | CT_OUT_OK
  /-- consecutive loop periods in which CT_OUT was unreadable (R72). -/
  | SENS_RUN
  /-- consecutive loop periods with CT_OUT at or above T_OUT_FAIL at full demand (R72). -/
  | HOT_RUN
  /-- consecutive loop periods in which TJ_WARN forced the demand (R73). -/
  | TJ_RUN
  /-- a loop step-down waits for a pending change (Table 2.4). -/
  | DOWN_WAIT
  /-- bit d = 1: the second ARR PLL of die d, one of the half's, has locked at the target of its copy (R62). -/
  | PLAT_PLL
  /-- the half's own copy of the notice of a pending change: 1 + the target, 0 = none (R65). -/
  | PLAT_NOTE
  /-- the switch time S in that copy (R62, R65). -/
  | PLAT_NOTE_S
  /-- MT at which dispatch stopped for a plateau change (R513). -/
  | STOP_MT
  /-- the half's hub scheduler dispatches no new tile pass (R62, R121). -/
  | DISPATCH_STOP
  /-- plateau level of the half's dies, Table 2.2 code (R60). -/
  | ARR_LEVEL
  /-- MT at which the change in the half's copy was accepted (R65). -/
  | PLAT_ACC
  /-- channel i: UPDATE was registered in the reload cycle, so that cycle's reload transfers nothing (R78). -/
  | PWM_SKIP
  /-- MT at which the counter of channel i was last 0: its start, or its last reload (R76). -/
  | PWM_T0
  /-- level driven on aux output i: 0 high impedance, 1 low, 2 high, 3 a PWM channel's waveform (R90). -/
  | AUX_LEVEL
  /-- the half's hub drives its aux outputs (R90). -/
  | AUX_DRIVING
  /-- driver i is shorted, with its AUX_DIAG code, and retries every 10 ms; 0 = not shorted (R93). -/
  | AUX_SHORTED
  /-- 1 + MT of the last counted edge of channel i, 0 = none since reset or stop (R85). -/
  | FB_CH_T
  /-- 1 + MT of the last counted edge of a channel, whatever its mode was (R85). -/
  | FB_LAST
  /-- 1 + MT of the last counted edge on input A (2i) or B (2i + 1) of channel i, 0 = none (R83). -/
  | FB_IN_T
  /-- 1 + MT of the last edge, counted or not, on input A (2i) or B (2i + 1) of channel i, 0 = none (R83). -/
  | FB_SEEN
  /-- net count of channel i in the running window, two's complement (R85). -/
  | FB_WIN
deriving DecidableEq, Repr

/-- Width in bits of a field of 02_plateau_clock_and_coolant.md. -/
def ThmF.width : ThmF → Nat
  | .THERM_STATUS_OWNER | .THERM_STATUS_FORCED | .THERM_CTL_START | .THERM_CTL_AUTO_DOWN | .THERM_CTL_MODE | .PLAT_STATUS_SOURCE
  | .PLAT_STATUS_PENDING | .PLAT_CTL_CANCEL | .PLAT_CTL_REQ | .PWM_CTL_UPDATE | .PWM_CTL_POL | .PWM_CTL_EN
  | .PWM_STATUS_DISARMED | .PWM_STATUS_UPD_PEND | .TRIG_CFG_EN | .TRIG_CFG_MODE | .FB_CTL_CLR_GLITCH | .FB_PERIOD_DIR
  | .FB_STATUS_WRAPPED | .FB_STATUS_STOPPED | .AUX_KEY_CABLE_OK | .FB_STOP | .TJ_OVER | .CT_OUT_OK
  | .DOWN_WAIT | .DISPATCH_STOP | .PWM_SKIP | .AUX_DRIVING => 1
  | .PLAT_STATUS_TARGET | .PLAT_STATUS_CUR | .PLAT_CTL_TARGET | .TRIG_CFG_CH | .FB_CTL_MODE | .AUX_KEY_PATTERN
  | .ARR_LEVEL | .AUX_LEVEL | .AUX_SHORTED => 2
  | .THERM_STATUS_STATE | .PLAT_NOTE => 3
  | .AUX_OWNER_FB2B | .AUX_OWNER_PWM3 | .AUX_OWNER_PWM2 | .AUX_CLAIM_STATUS_PIN | .AUX_CLAIM_STATUS_HOLDER | .AUX_CLAIM_STATUS_REQUESTER => 4
  | .AUX_DIAG_CLR => 7
  | .PLAT_CTL_NOTICE_MS | .THERM_TIMING_SENS_LOSS | .THERM_TIMING_AUTO_DOWN_MS | .PLAT_PLL => 8
  | .THERM_EVENT | .TRIG_CFG_WIDTH => 10
  | .AUX_DIAG => 14
  | .THERM_STATUS_LAST_STATUS | .PLAT_STATUS_LAST_STATUS | .THERM_SET0_T_OUT_SET | .THERM_SET0_T_OUT_FAIL | .THERM_SET1_TJ_CRIT | .THERM_SET1_TJ_WARN
  | .THERM_GAIN_KI | .THERM_GAIN_KP | .THERM_SPLIT_SPLIT | .THERM_SPLIT_SLEW | .THERM_RANGE_V_VMAX | .THERM_RANGE_V_VMIN
  | .THERM_RANGE_P_PMAX | .THERM_RANGE_P_PMIN | .THERM_TIMING_FAIL_HOLD_MS | .THERM_PRIME_VALVE | .THERM_PRIME_PUMP | .THERM_MEAS0_T_OUT
  | .THERM_MEAS0_T_IN | .THERM_MEAS1_DEMAND | .THERM_MEAS1_TJ_MAX | .PWM_STATUS_LAST_STATUS | .FB_MIN_INT | .FB_WINDOW
  | .FB_STATUS_GLITCH | .AUX_CLAIM_STATUS_LAST_STATUS | .INTEG | .VALVE_PREV | .PUMP_PREV | .SENS_RUN => 16
  | .PWM_PERIOD | .PWM_DUTY | .PWM_ACT_PERIOD | .PWM_ACT_DUTY | .TRIG_CFG_AT => 18
  | .FB_PERIOD_PERIOD | .FB_ZS_TIMEOUT => 24
  | .FB_POSITION | .FB_COUNT_WIN | .HOT_RUN | .TJ_RUN | .FB_WIN => 32
  | .PLAT_SWITCH_TIME | .FB_CH_T | .FB_LAST | .FB_IN_T | .FB_SEEN | .PWM_T0 | .PLAT_ACC | .PLAT_NOTE_S | .STOP_MT => 64

/-- Reset value of a field of 02_plateau_clock_and_coolant.md: the table's Reset column; a field not named here resets to 0. -/
def ThmF.reset (_h : Half) (_i : Nat) : ThmF → Nat
  | .THERM_CTL_AUTO_DOWN => 1
  | .PLAT_STATUS_TARGET => 2
  | .PLAT_STATUS_CUR => 2
  | .PLAT_CTL_NOTICE_MS => 2
  | .PLAT_CTL_TARGET => 2
  | .THERM_SET0_T_OUT_SET => 0x2D00
  | .THERM_SET0_T_OUT_FAIL => 0x3C00
  | .THERM_SET1_TJ_CRIT => 0x6900
  | .THERM_SET1_TJ_WARN => 0x5F00
  | .THERM_GAIN_KI => 0x0200
  | .THERM_GAIN_KP => 0x0800
  | .THERM_SPLIT_SPLIT => 0x3200
  | .THERM_SPLIT_SLEW => 0x0200
  | .THERM_RANGE_V_VMAX => 0x6400
  | .THERM_RANGE_V_VMIN => 0x1400
  | .THERM_RANGE_P_PMAX => 0x6400
  | .THERM_RANGE_P_PMIN => 0x1E00
  | .THERM_TIMING_SENS_LOSS => 10
  | .THERM_TIMING_AUTO_DOWN_MS => 200
  | .THERM_TIMING_FAIL_HOLD_MS => 100
  | .THERM_PRIME_VALVE => 0x3C00
  | .THERM_PRIME_PUMP => 0x6400
  | .PWM_PERIOD => 10000
  | .TRIG_CFG_WIDTH => 1
  | .FB_MIN_INT => 250
  | .FB_PERIOD_PERIOD => 0xFFFFFF
  | .FB_ZS_TIMEOUT => 12500000
  | .FB_WINDOW => 1000
  | .FB_STATUS_STOPPED => 1
  | .ARR_LEVEL => 2
  | _ => 0

/-- Register fields of 06_cores_formats_scratchpads.md (R229). -/
inductive CoreF where
  | CORE_STATUS_LAST_STATUS | CORE_STATUS_USABLE | CORE_STATUS_ACTIVE | CORE_STATUS_SLOT1 | CORE_STATUS_SLOT0
  | CORE_CFG_BANK_SPLIT
  | SLOT0_CTX_V | SLOT0_CTX_PARTITION | SLOT0_CTX_OPR | SLOT0_CTX_REQUEST
  | SLOT1_CTX_V | SLOT1_CTX_PARTITION | SLOT1_CTX_OPR | SLOT1_CTX_REQUEST
  | NUM_SAT
  | NUM_NAN
  | SP_ECC_UNCORR | SP_ECC_CORR
  | CORE_CNT_CLR
  | PASS_CNT
  | SWITCH_CNT
  | DC_CTL_INV
  | DC_ECC_UNCORR | DC_ECC_CORR
  | DC_HIT
  | DC_MISS
deriving DecidableEq, Repr

/-- Width in bits of a field of 06_cores_formats_scratchpads.md. -/
def CoreF.width : CoreF → Nat
  | .CORE_STATUS_USABLE | .CORE_STATUS_ACTIVE | .SLOT0_CTX_V | .SLOT0_CTX_OPR | .SLOT1_CTX_V | .SLOT1_CTX_OPR
  | .DC_CTL_INV => 1
  | .CORE_CFG_BANK_SPLIT => 2
  | .CORE_CNT_CLR => 3
  | .CORE_STATUS_SLOT1 | .CORE_STATUS_SLOT0 => 4
  | .SLOT0_CTX_PARTITION | .SLOT1_CTX_PARTITION => 7
  | .SLOT0_CTX_REQUEST | .SLOT1_CTX_REQUEST => 13
  | .CORE_STATUS_LAST_STATUS | .SP_ECC_UNCORR | .SP_ECC_CORR | .DC_ECC_UNCORR | .DC_ECC_CORR => 16
  | .NUM_SAT | .NUM_NAN | .SWITCH_CNT => 32
  | .PASS_CNT | .DC_HIT | .DC_MISS => 64

/-- Reset value of a field of 06_cores_formats_scratchpads.md: the table's Reset column; a field not named here resets to 0. -/
def CoreF.reset (_h : Half) (_i : Nat) : CoreF → Nat
  | _ => 0

/-- Register fields of 07_tiling_and_loop_nests.md (R257). -/
inductive TileF where
  | TD_ITEMS
  | TD_REMOTE
  | TD_COMBINE
  | TD_HALO_MEM
  | TD_NEST_ERR_STATUS | TD_NEST_ERR_ENTRY | TD_NEST_ERR_TABLE | TD_NEST_ERR_OFFSET
  | SP_TAG
  | FENCE_INFO_STATUS | FENCE_INFO_WRITE | FENCE_INFO_SRC | FENCE_INFO_CONTEXT
  | FENCE_ADDR
  | FENCE_CNT
  /-- scrub-pending bits and owners of the banks of core i, laid out as SP_TAG (R487). -/
  | SP_SCRUB
deriving DecidableEq, Repr

/-- Width in bits of a field of 07_tiling_and_loop_nests.md. -/
def TileF.width : TileF → Nat
  | .TD_NEST_ERR_TABLE | .FENCE_INFO_WRITE | .FENCE_INFO_SRC => 1
  | .TD_NEST_ERR_ENTRY => 4
  | .TD_NEST_ERR_OFFSET => 7
  | .FENCE_INFO_CONTEXT => 10
  | .TD_NEST_ERR_STATUS | .FENCE_INFO_STATUS => 16
  | .TD_REMOTE | .TD_COMBINE | .TD_HALO_MEM | .FENCE_CNT => 32
  | .SP_TAG | .SP_SCRUB => 60
  | .TD_ITEMS | .FENCE_ADDR => 64

/-- Reset value of a field of 07_tiling_and_loop_nests.md: the table's Reset column; a field not named here resets to 0. -/
def TileF.reset (_h : Half) (_i : Nat) : TileF → Nat
  | _ => 0

/-- Register fields of 08_attention.md (R284). -/
inductive AttnF where
  | ATTN_RULE_SPLIT_MIN | ATTN_RULE_COMPOSED_MAX
  | ATTN_BLOCKS
  | ATTN_SKIPPED
  | ATTN_UNITS_COMPOSED | ATTN_UNITS_STREAMED
  | ATTN_DEMAND
  | ATTN_SPLIT
  | ATTN_ERR_STATUS | ATTN_ERR_CONTEXT
  | RING_STEPS
deriving DecidableEq, Repr

/-- Width in bits of a field of 08_attention.md. -/
def AttnF.width : AttnF → Nat
  | .ATTN_ERR_CONTEXT => 10
  | .ATTN_RULE_SPLIT_MIN | .ATTN_RULE_COMPOSED_MAX | .ATTN_ERR_STATUS => 16
  | .ATTN_UNITS_COMPOSED | .ATTN_UNITS_STREAMED | .ATTN_DEMAND | .ATTN_SPLIT => 32
  | .ATTN_BLOCKS | .ATTN_SKIPPED | .RING_STEPS => 64

/-- Reset value of a field of 08_attention.md: the table's Reset column; a field not named here resets to 0. -/
def AttnF.reset (_h : Half) (_i : Nat) : AttnF → Nat
  | .ATTN_RULE_SPLIT_MIN => 64
  | .ATTN_RULE_COMPOSED_MAX => 8
  | _ => 0

/-- Register fields of 09_kv_cache.md (R327). -/
inductive KvF where
  | KV_SLOT_BASE
  /-- 1 = KV_SLOT_BASE has been written since reset (R26). -/
  | KV_SLOT_BASE_WRITTEN
  | KV_SLOT_CFG_COUNT
  | KV_SLOT_FREE
  | KV_LAST_STATUS
  | KV_QUOTA_LOW | KV_QUOTA_HIGH | KV_QUOTA_QUOTA
  | KV_PSTAT_VALLEY_HELD | KV_PSTAT_HELD
  | KV_PGRP_SG_EN | KV_PGRP_SGRP
  | VALLEY_BASE
  | VALLEY_TAG
  | VALLEY_CFG_EN | VALLEY_CFG_UNITS
  | VALLEY_GEN
  | KV_GRP_QUOTA
  | KV_GRP_HELD
  | PFX_CTL_FLUSH
  | PFX_STATUS_USED
  | KV_SPILLS
  | KV_FETCHES
  | KV_EVICTS
  | KV_PFX_HIT
  | KV_PFX_MISS
  | KV_PFX_COLLIDE
  | KV_PFX_DUP
  | KV_AUTH_FAIL
  | KV_NOSLOT_CNT
deriving DecidableEq, Repr

/-- Width in bits of a field of 09_kv_cache.md. -/
def KvF.width : KvF → Nat
  | .KV_PGRP_SG_EN | .VALLEY_CFG_EN | .PFX_CTL_FLUSH | .KV_SLOT_BASE_WRITTEN => 1
  | .KV_PGRP_SGRP => 4
  | .KV_LAST_STATUS | .PFX_STATUS_USED => 16
  | .KV_SLOT_CFG_COUNT | .KV_SLOT_FREE | .KV_QUOTA_LOW | .KV_QUOTA_HIGH | .KV_QUOTA_QUOTA | .KV_PSTAT_VALLEY_HELD
  | .KV_PSTAT_HELD | .KV_GRP_QUOTA | .KV_GRP_HELD => 21
  | .VALLEY_CFG_UNITS => 24
  | .KV_PFX_COLLIDE | .KV_PFX_DUP | .KV_AUTH_FAIL | .KV_NOSLOT_CNT => 32
  | .KV_SLOT_BASE | .VALLEY_BASE | .VALLEY_TAG | .VALLEY_GEN | .KV_SPILLS | .KV_FETCHES
  | .KV_EVICTS | .KV_PFX_HIT | .KV_PFX_MISS => 64

/-- Reset value of a field of 09_kv_cache.md: the table's Reset column; a field not named here resets to 0. -/
def KvF.reset (_h : Half) (_i : Nat) : KvF → Nat
  | _ => 0

/-- Register fields of 10_serving.md (R358). -/
inductive SchedF where
  | BUDGET_CFG_BURST | BUDGET_CFG_BUDGET
  | BALANCE
  | PARTY_CFG_WEIGHT
  | CHARGED
  | ADP_ALLOC_BASE | ADP_ALLOC_COUNT
  | BUDGET_WAITS
  | RING_SCHED_URG_READY | RING_SCHED_URG_EN | RING_SCHED_URG_CORE | RING_SCHED_CTX_MAX | RING_SCHED_CLASS_MASK
  | ADP_SLOT_STATE | ADP_SLOT_FMT | ADP_SLOT_RANK | ADP_SLOT_DST
  | SCHED_STATUS_LAST_STATUS
  | URG_LAT_MAX
  | PREEMPT_CNT
  /-- cur[c][q] of R336, two's complement, at index 65 c + q. -/
  | CUR
  /-- 1 + number of the ring last chosen for party q, 0 = none (R336). -/
  | LAST_RING
  /-- BUDGET in force in the running window of party p (R340). -/
  | BUDGET_EFF
  /-- BURST in force in the running window of party p (R340). -/
  | BURST_EFF
  /-- ring i has been enabled with URG_EN, and its standing context has not been dispatched since (R335). -/
  | URG_WANT
  /-- 1 + number of the window of 1 ms that has begun last, 0 = none yet (R339). -/
  | BUDGET_WIN
deriving DecidableEq, Repr

/-- Width in bits of a field of 10_serving.md. -/
def SchedF.width : SchedF → Nat
  | .RING_SCHED_URG_READY | .RING_SCHED_URG_EN | .URG_WANT => 1
  | .ADP_SLOT_STATE => 2
  | .ADP_SLOT_FMT | .LAST_RING => 4
  | .RING_SCHED_CLASS_MASK => 5
  | .PARTY_CFG_WEIGHT => 8
  | .RING_SCHED_URG_CORE | .RING_SCHED_CTX_MAX | .ADP_SLOT_RANK => 9
  | .ADP_ALLOC_BASE | .ADP_ALLOC_COUNT => 11
  | .SCHED_STATUS_LAST_STATUS => 16
  | .BUDGET_CFG_BUDGET | .BUDGET_EFF => 24
  | .BUDGET_CFG_BURST | .BURST_EFF => 26
  | .BALANCE | .BUDGET_WAITS | .URG_LAT_MAX | .CUR => 32
  | .ADP_SLOT_DST => 49
  | .CHARGED | .PREEMPT_CNT | .BUDGET_WIN => 64

/-- Reset value of a field of 10_serving.md: the table's Reset column; a field not named here resets to 0. -/
def SchedF.reset (_h : Half) (_i : Nat) : SchedF → Nat
  | .PARTY_CFG_WEIGHT => 16
  | .RING_SCHED_CLASS_MASK => 0x1E
  | _ => 0

/-- Register fields of 11_fabric_links.md (R386). -/
inductive FabF where
  | FAB_NODE_PLANE | FAB_NODE_X | FAB_NODE_Y | FAB_NODE_Z
  | FAB_SIZE_SX | FAB_SIZE_SY | FAB_SIZE_SZ
  | FAB_PORT_DIR
  | FAB_CTL_AUTO_RT
  | FAB_STATUS_LAST_STATUS | FAB_STATUS_CFG_OK
  | FAB_LINK_CFG_LANE_SER_LIMIT | FAB_LINK_CFG_REPLAY_TMO | FAB_LINK_CFG_TRAIN_TMO
  | FAB_VC_CFG_VC3_BURST | FAB_VC_CFG_VC3_RATE | FAB_VC_CFG_W1 | FAB_VC_CFG_W0
  | FAB_MGMT_REMOTE_EN | FAB_MGMT_FM_V | FAB_MGMT_FM_NODE
  | FAB_BUF_HI | FAB_BUF_LO
  | RT_SEL_BANK
  | RT
  | FAB_DROP
  | PORT_CTL_ADMIN_DOWN | PORT_CTL_TRAIN
  | PORT_STATUS_LAST_STATUS | PORT_STATUS_CAUSE | PORT_STATUS_TX_PAIR | PORT_STATUS_RX_PAIR | PORT_STATUS_STATE
  | PORT_ERR
  | PORT_CNT0_REPLAYS | PORT_CNT0_CRC_ERR
  | PORT_CNT1_FEC_UNCORR | PORT_CNT1_FEC_CORR
  | PORT_DOWN_TIME
  | PORT_NBR_V | PORT_NBR_DIR | PORT_NBR_NODE
deriving DecidableEq, Repr

/-- Width in bits of a field of 11_fabric_links.md. -/
def FabF.width : FabF → Nat
  | .FAB_NODE_PLANE | .FAB_CTL_AUTO_RT | .FAB_STATUS_CFG_OK | .FAB_MGMT_REMOTE_EN | .FAB_MGMT_FM_V | .RT_SEL_BANK
  | .PORT_CTL_ADMIN_DOWN | .PORT_CTL_TRAIN | .PORT_NBR_V => 1
  | .PORT_STATUS_TX_PAIR | .PORT_STATUS_RX_PAIR => 2
  | .FAB_NODE_Z | .PORT_STATUS_STATE | .PORT_NBR_DIR => 3
  | .FAB_NODE_X | .FAB_NODE_Y | .FAB_SIZE_SZ | .PORT_STATUS_CAUSE => 4
  | .FAB_SIZE_SX | .FAB_SIZE_SY => 5
  | .PORT_ERR => 6
  | .FAB_LINK_CFG_REPLAY_TMO | .FAB_LINK_CFG_TRAIN_TMO | .FAB_VC_CFG_VC3_BURST | .FAB_VC_CFG_VC3_RATE | .FAB_VC_CFG_W1 | .FAB_VC_CFG_W0 => 8
  | .FAB_BUF_HI | .FAB_BUF_LO => 11
  | .FAB_MGMT_FM_NODE | .PORT_NBR_NODE => 12
  | .FAB_STATUS_LAST_STATUS | .FAB_LINK_CFG_LANE_SER_LIMIT | .PORT_STATUS_LAST_STATUS => 16
  | .FAB_PORT_DIR => 18
  | .RT | .FAB_DROP | .PORT_CNT0_REPLAYS | .PORT_CNT0_CRC_ERR | .PORT_CNT1_FEC_UNCORR | .PORT_CNT1_FEC_CORR => 32
  | .PORT_DOWN_TIME => 64

/-- Reset value of a field of 11_fabric_links.md: the table's Reset column; a field not named here resets to 0. -/
def FabF.reset (h : Half) (i : Nat) : FabF → Nat
  | .FAB_NODE_PLANE => h.num
  | .FAB_LINK_CFG_LANE_SER_LIMIT => 1024
  | .FAB_LINK_CFG_REPLAY_TMO => 20
  | .FAB_LINK_CFG_TRAIN_TMO => 20
  | .FAB_VC_CFG_VC3_BURST => 16
  | .FAB_VC_CFG_VC3_RATE => 8
  | .FAB_VC_CFG_W1 => 1
  | .FAB_VC_CFG_W0 => 4
  | .FAB_BUF_HI => fabBufHi i
  | .FAB_BUF_LO => fabBufLo i
  | _ => 0

/-- Register fields of 12_collectives_and_notch.md (R421). -/
inductive CollF where
  | COLL_CFG_TMO_DEF
  | COLL_STATUS_LAST_STATUS | COLL_STATUS_NOTCH_ACTIVE | COLL_STATUS_BULK_ACTIVE
  | COLL_LAST_ABORT_GROUP_ID | COLL_LAST_ABORT_EPOCH
  | COLL_ABORT_INFO_CAUSE | COLL_ABORT_INFO_ORIGIN | COLL_ABORT_INFO_LOCAL_STATUS
  | COLL_OPS
  | COLL_BYTES
  | NOTCH_OPS
  | COLL_ABORTS
  | CTL_DROP
  | NOTCH_LAT_MAX
  | RED_NUM_SAT
  | RED_NUM_NAN
  | GRP_ID
  | GRP_CFG_V | GRP_CFG_OPR | GRP_CFG_PARTITION | GRP_CFG_AXES
  | GRP_BOX_OX | GRP_BOX_OY | GRP_BOX_OZ | GRP_BOX_EX | GRP_BOX_EY | GRP_BOX_EZ
  | GRP_EPOCH_NEXT
  | GRP_ABORT_V | GRP_ABORT_CAUSE | GRP_ABORT_ORIGIN | GRP_ABORT_EPOCH
deriving DecidableEq, Repr

/-- Width in bits of a field of 12_collectives_and_notch.md. -/
def CollF.width : CollF → Nat
  | .GRP_CFG_V | .GRP_CFG_OPR | .GRP_ABORT_V => 1
  | .GRP_CFG_AXES | .GRP_BOX_OZ => 3
  | .COLL_STATUS_BULK_ACTIVE | .COLL_ABORT_INFO_CAUSE | .GRP_BOX_OX | .GRP_BOX_OY | .GRP_BOX_EZ | .GRP_ABORT_CAUSE => 4
  | .GRP_BOX_EX | .GRP_BOX_EY => 5
  | .GRP_CFG_PARTITION => 6
  | .COLL_STATUS_NOTCH_ACTIVE => 9
  | .COLL_ABORT_INFO_ORIGIN | .GRP_ABORT_ORIGIN => 12
  | .COLL_STATUS_LAST_STATUS | .COLL_ABORT_INFO_LOCAL_STATUS => 16
  | .COLL_CFG_TMO_DEF => 20
  | .COLL_LAST_ABORT_GROUP_ID | .COLL_LAST_ABORT_EPOCH | .COLL_ABORTS | .CTL_DROP | .NOTCH_LAT_MAX | .RED_NUM_SAT
  | .RED_NUM_NAN | .GRP_ID | .GRP_EPOCH_NEXT | .GRP_ABORT_EPOCH => 32
  | .COLL_OPS | .COLL_BYTES | .NOTCH_OPS => 64

/-- Reset value of a field of 12_collectives_and_notch.md: the table's Reset column; a field not named here resets to 0. -/
def CollF.reset (_h : Half) (_i : Nat) : CollF → Nat
  | .COLL_CFG_TMO_DEF => 4000
  | _ => 0

/-- Register fields of 13_kv_egress.md (R450). -/
inductive EgrF where
  | EGR_CTL_EN
  | EGR_STATUS_LAST_STATUS | EGR_STATUS_LINK_UP | EGR_STATUS_ENABLED
  | EGR_EVT
  | EGR_MAC
  | EGR_IP4
  | EGR_IP6_LO
  | EGR_IP6_HI
  | EGR_PORT_CFG_RX_UDP | EGR_PORT_CFG_MTU
  | EGR_CC_INC_PERIOD | EGR_CC_INC_STEP | EGR_CC_CE_CUT
  | EGR_CC2_ECN_HOLD
  | EGR_TX_DGRAMS
  | EGR_TX_BYTES
  | EGR_RETX
  | EGR_RX_ACKS
  | EGR_RX_BAD
  | EGR_RX_DROP
  | EGR_CANCEL_NOACK
  | EGR_STREAM_FAIL
  | EGR_PSTAT_STREAM_NEXT | EGR_PSTAT_OPEN
  | STREAM_ST0_ID | STREAM_ST0_V | STREAM_ST0_STATE | STREAM_ST0_CLASS | STREAM_ST0_PLAN | STREAM_ST0_REQUEST
  | STREAM_ST1_NEXT_SEQ | STREAM_ST1_ACKED
  | STREAM_ST2_STATUS | STREAM_ST2_RATE | STREAM_ST2_SRTT
  /-- party p has opened stream 0xFFFF_FFFF under its present egress key (R427). -/
  | STREAM_DONE
  /-- 1 + stream context last served, 0 = none (R444). -/
  | EGR_LAST
deriving DecidableEq, Repr

/-- Width in bits of a field of 13_kv_egress.md. -/
def EgrF.width : EgrF → Nat
  | .EGR_CTL_EN | .EGR_STATUS_LINK_UP | .EGR_STATUS_ENABLED | .STREAM_ST0_V | .STREAM_DONE => 1
  | .EGR_EVT | .STREAM_ST0_STATE | .STREAM_ST0_CLASS => 3
  | .EGR_CC_CE_CUT => 4
  | .EGR_CC_INC_STEP | .STREAM_ST0_PLAN => 8
  | .EGR_PSTAT_OPEN | .EGR_LAST => 11
  | .STREAM_ST0_REQUEST => 13
  | .EGR_PORT_CFG_MTU => 14
  | .EGR_STATUS_LAST_STATUS | .EGR_PORT_CFG_RX_UDP | .EGR_CC_INC_PERIOD | .EGR_CC2_ECN_HOLD | .STREAM_ST2_STATUS | .STREAM_ST2_RATE => 16
  | .EGR_IP4 | .EGR_RX_BAD | .EGR_RX_DROP | .EGR_CANCEL_NOACK | .EGR_STREAM_FAIL | .EGR_PSTAT_STREAM_NEXT
  | .STREAM_ST0_ID | .STREAM_ST1_NEXT_SEQ | .STREAM_ST1_ACKED | .STREAM_ST2_SRTT => 32
  | .EGR_MAC => 48
  | .EGR_IP6_LO | .EGR_IP6_HI | .EGR_TX_DGRAMS | .EGR_TX_BYTES | .EGR_RETX | .EGR_RX_ACKS => 64

/-- Reset value of a field of 13_kv_egress.md: the table's Reset column; a field not named here resets to 0. -/
def EgrF.reset (_h : Half) (_i : Nat) : EgrF → Nat
  | .EGR_PORT_CFG_RX_UDP => 0x4812
  | .EGR_PORT_CFG_MTU => 9000
  | .EGR_CC_INC_PERIOD => 20
  | .EGR_CC_INC_STEP => 10
  | .EGR_CC_CE_CUT => 2
  | .EGR_CC2_ECN_HOLD => 20
  | _ => 0

/-- Register fields of 14_time_and_schedules.md (R483). -/
inductive TimF where
  | TIME_CTL_DREQ_EN | TIME_CTL_SRC_PORT | TIME_CTL_SEL | TIME_CTL_BCN_TX | TIME_CTL_STEP_EN | TIME_CTL_MT_DISC
  | TIME_STATUS_LAST_STATUS | TIME_STATUS_FT_UNSYNC | TIME_STATUS_STATE
  | TIME_EVT
  | TIME_INT_SRC_TMO | TIME_INT_DREQ_INT | TIME_INT_BCN_INT
  | TIME_THR_STEP_THR | TIME_THR_LOCK_THR
  | TIME_SERVO_KP | TIME_SERVO_KI
  | TIME_SNAP
  | MT
  | FT
  | SNAP_MT_T
  | SNAP_FT
  | SNAP_FRAC
  | FT_OFFSET
  | FT_RATE
  | MT_RATE
  | STEP_CNT
  | PPS_IGN
  | LINK_DELAY
  | PPS_IN_MT
  | PPS_IN_FT
  | PPS_IN_COMP
  | PPS_OUT_CFG_EN | PPS_OUT_CFG_CLOCK | PPS_OUT_CFG_CMP | PPS_OUT_CFG_WIDTH
  | PPS_OUT_OFF
  | CMP_CTL_EN | CMP_CTL_CLOCK | CMP_CTL_DROP_IF_LATE | CMP_CTL_ACT | CMP_CTL_COUNTER
  | CMP_VALUE
  | CMP_TARGET
  | CMP_PERIOD
  | CMP_LATE_TOL
  | CMP_STATUS_LAST | CMP_STATUS_HOLDER | CMP_STATUS_ARMED | CMP_STATUS_SKIPPED
  | CMP_CLAIM_STATUS_LAST_STATUS | CMP_CLAIM_STATUS_INDEX | CMP_CLAIM_STATUS_HOLDER | CMP_CLAIM_STATUS_REQUESTER
  | TIME_REL_CTL_CMP_MT | TIME_REL_CTL_EN_MT | TIME_REL_CTL_CMP_FT | TIME_REL_CTL_EN_FT
  | TIME_TRIG_CMP_TRIG1 | TIME_TRIG_CMP_TRIG0
  | REL_COUNT_MT_N | REL_COUNT_FT_N
  | LATE_CNT
  | DROP_CNT
  | TRIG_TARGET
  | TRIG_PERIOD
  | TRIG_CLOCK
  | PTP_CFG_EN | PTP_CFG_TRANSPORT | PTP_CFG_DOMAIN | PTP_CFG_LOG_DREQ
  | PTP_STATUS_PORT_STATE
  | PTP_GM_ID
  /-- sub-nanosecond fraction of FT (R454). -/
  | FT_FRAC
  /-- part of FT below its fraction, in 10^-9 of 2^-16 ns (log entry 34). -/
  | FT_REM
  /-- sub-nanosecond part of MT, in 10^-9 ns (R452, log entry 34). -/
  | MT_REM
  /-- integral term of the servo in ppb, two's complement (R464). -/
  | FT_INTEG
  /-- consecutive measurements with |e| < LOCK_THR, at most 8 (R464). -/
  | LOCK_RUN
  /-- 1 + MT of the last accepted measurement, 0 = none (R455, R464). -/
  | LAST_MEAS
  /-- SEQ of the next beacon of port i (Table 14.3). -/
  | BCN_SEQ
  /-- SEQ of the next delay request of port i (Table 14.3). -/
  | DREQ_SEQ
  /-- 1 + MT at which the last delay request left port i, 0 = none or answered (R458). -/
  | DREQ_T1
  /-- sample i mod 8 of the link delay of port i / 8, Q16.16 ns (R458). -/
  | DELAY_SMP
  /-- samples taken of the link delay of port i (R458). -/
  | DELAY_CNT
  /-- GM of the last accepted beacon (R459). -/
  | BCN_GM
  /-- HOPS of the last accepted beacon (R459). -/
  | BCN_HOPS
  /-- 1 + MT of the last counted edge of AUX_PPS_IN, 0 = none (R461). -/
  | PPS_LAST
  /-- port identity of the chosen timeTransmitter (R460). -/
  | PTP_PARENT
  /-- receipt of the last Sync minus its origin, 2^-16 ns, two's complement (R460). -/
  | PTP_MS
  /-- mean path delay, 2^-16 ns, two's complement (R460). -/
  | PTP_PD
  /-- a path delay has been measured to the chosen timeTransmitter (R460). -/
  | PTP_PD_V
  /-- a two-step Sync waits for its Follow_Up (R460). -/
  | PTP_SYNC_V
  /-- its sequence number. -/
  | PTP_SYNC_SEQ
  /-- FT at its receipt, 2^-16 ns. -/
  | PTP_SYNC_T2
  /-- its correction, 2^-16 ns, two's complement. -/
  | PTP_SYNC_CORR
  /-- sequence number of the last Delay_Req. -/
  | PTP_DREQ_SEQ
  /-- it has not been answered. -/
  | PTP_DREQ_V
  /-- FT at its transmission, 2^-16 ns. -/
  | PTP_DREQ_T3
deriving DecidableEq, Repr

/-- Width in bits of a field of 14_time_and_schedules.md. -/
def TimF.width : TimF → Nat
  | .TIME_CTL_DREQ_EN | .TIME_CTL_STEP_EN | .TIME_CTL_MT_DISC | .TIME_STATUS_FT_UNSYNC | .TIME_SNAP | .PPS_OUT_CFG_EN
  | .PPS_OUT_CFG_CLOCK | .CMP_CTL_EN | .CMP_CTL_CLOCK | .CMP_CTL_DROP_IF_LATE | .CMP_CTL_ACT | .CMP_STATUS_ARMED
  | .TIME_REL_CTL_EN_MT | .TIME_REL_CTL_EN_FT | .TRIG_CLOCK | .PTP_CFG_EN | .PTP_PD_V | .PTP_SYNC_V
  | .PTP_DREQ_V => 1
  | .PTP_CFG_TRANSPORT => 2
  | .TIME_CTL_SEL | .TIME_STATUS_STATE | .PTP_CFG_LOG_DREQ | .PTP_STATUS_PORT_STATE => 3
  | .TIME_CTL_SRC_PORT | .PPS_OUT_CFG_CMP | .CMP_STATUS_HOLDER | .CMP_CLAIM_STATUS_INDEX | .CMP_CLAIM_STATUS_HOLDER | .CMP_CLAIM_STATUS_REQUESTER
  | .TIME_REL_CTL_CMP_MT | .TIME_REL_CTL_CMP_FT | .TIME_TRIG_CMP_TRIG1 | .TIME_TRIG_CMP_TRIG0 | .LOCK_RUN => 4
  | .TIME_CTL_BCN_TX => 6
  | .PTP_CFG_DOMAIN => 7
  | .TIME_EVT | .BCN_HOPS => 8
  | .TIME_INT_DREQ_INT | .TIME_INT_BCN_INT => 10
  | .CMP_STATUS_SKIPPED => 11
  | .TIME_INT_SRC_TMO | .CMP_CTL_COUNTER | .BCN_GM => 12
  | .REL_COUNT_MT_N | .REL_COUNT_FT_N => 14
  | .TIME_STATUS_LAST_STATUS | .TIME_THR_STEP_THR | .TIME_THR_LOCK_THR | .TIME_SERVO_KP | .TIME_SERVO_KI | .SNAP_FRAC
  | .CMP_STATUS_LAST | .CMP_CLAIM_STATUS_LAST_STATUS | .FT_FRAC | .BCN_SEQ | .DREQ_SEQ | .PTP_SYNC_SEQ
  | .PTP_DREQ_SEQ => 16
  | .PPS_OUT_CFG_WIDTH => 20
  | .FT_REM | .MT_REM => 30
  | .FT_RATE | .MT_RATE | .STEP_CNT | .PPS_IGN | .LINK_DELAY | .PPS_IN_COMP
  | .PPS_OUT_OFF | .CMP_VALUE | .CMP_PERIOD | .CMP_LATE_TOL | .LATE_CNT | .DROP_CNT
  | .TRIG_PERIOD | .FT_INTEG | .DELAY_SMP | .DELAY_CNT => 32
  | .MT | .FT | .SNAP_MT_T | .SNAP_FT | .FT_OFFSET | .PPS_IN_MT
  | .PPS_IN_FT | .CMP_TARGET | .TRIG_TARGET | .PTP_GM_ID | .LAST_MEAS | .DREQ_T1
  | .PPS_LAST | .PTP_SYNC_CORR => 64
  | .PTP_PARENT => 80
  | .PTP_MS | .PTP_PD | .PTP_SYNC_T2 | .PTP_DREQ_T3 => 96

/-- Reset value of a field of 14_time_and_schedules.md: the table's Reset column; a field not named here resets to 0. -/
def TimF.reset (_h : Half) (i : Nat) : TimF → Nat
  | .TIME_CTL_DREQ_EN => 1
  | .TIME_CTL_STEP_EN => 1
  | .TIME_INT_SRC_TMO => 10
  | .TIME_INT_DREQ_INT => 10
  | .TIME_INT_BCN_INT => 250
  | .TIME_THR_STEP_THR => 100
  | .TIME_THR_LOCK_THR => 1000
  | .TIME_SERVO_KP => 0xB333
  | .TIME_SERVO_KI => 0x4CCD
  | .PPS_OUT_CFG_WIDTH => 1000
  | .CMP_STATUS_HOLDER => cmpHolderReset i
  | .TIME_REL_CTL_CMP_MT => 1
  | .TIME_REL_CTL_EN_MT => 1
  | .TIME_REL_CTL_EN_FT => 1
  | _ => 0

/-- Register fields of 15_partitions_and_security.md (R511). -/
inductive SecF where
  | SEC_STATUS_LAST_CAUSE | SEC_STATUS_SOLO | SEC_STATUS_CO_AUTH | SEC_STATUS_APPROVED
  | SEC_CTL
  | SEC_EVT
  | SEC_CFG_IDE_REQ | SEC_CFG_ARB_AUTO
  | FW_VERSION
  | ARB_STATUS_SVN | ARB_STATUS_ARB
  | PART_CTL_LAST_STATUS | PART_CTL_STATE | PART_CTL_RELEASE | PART_CTL_GO
  | PART_KEYS_EGR_GEN | PART_KEYS_PRESENT
  | PART_SHR_MASK
  | PART_HBM0_BASE | PART_HBM0_SIZE
  | PART_HBM1_BASE | PART_HBM1_SIZE
  | PART_CORES
  | SHR_V | SHR_BASE | SHR_SIZE
  | KIMP_CTL_LAST_STATUS | KIMP_CTL_PARTY | KIMP_CTL_CMD
  | KIMP_SEQ
  | KIMP_PUB
  | KIMP_SIG
  | KIMP_PEER
  | KIMP_WRAP
  | SEC_FENCE_INFO_STATUS | SEC_FENCE_INFO_WRITE | SEC_FENCE_INFO_SRC | SEC_FENCE_INFO_PARTITION
  | SEC_FENCE_ADDR
  | SEC_FENCE_CNT
  /-- an ephemeral key exists (R495). -/
  | KIMP_LIVE
  /-- its private number (R495). -/
  | KIMP_PRIV
  /-- party for which it was made (R495). -/
  | KIMP_FOR
  /-- MT of its START (R495). -/
  | KIMP_MT
  /-- GO of partition p waits for its mirror record (R486). -/
  | GO_BUSY
  /-- partition p has drained and is being scrubbed (Table 15.4). -/
  | REL_SCRUB
  /-- the half's security block holds the secrets derived at start-up (Table 15.1). -/
  | SECRETS
  /-- revoke bits of the fused key slots (R497); held under h0. -/
  | KEY_REVOKED
  /-- IDE stream i is in the Secure state: 0 Link, 1 to 4 Selective (R504). -/
  | IDE_ON
  /-- key programmed for key set k of IDE stream i, at 2 × i + k (R504). -/
  | IDE_KEY
  /-- key set k of IDE stream i has a programmed key, at 2 × i + k (R504). -/
  | IDE_KEY_V
  /-- key set in use of IDE stream i (R504, the key-set toggle). -/
  | IDE_SET
  /-- outcome of the last write of a shared range, which no register of Table 15.13 shows (R491). -/
  | SHR_LAST_STATUS
  /-- connection on transport i (0 DOE, 1 MCTP): 1 version, 2 capabilities, 3 algorithms agreed (R501). -/
  | SPDM_STAGE
deriving DecidableEq, Repr

/-- Width in bits of a field of 15_partitions_and_security.md. -/
def SecF.width : SecF → Nat
  | .SEC_STATUS_SOLO | .SEC_STATUS_CO_AUTH | .SEC_STATUS_APPROVED | .SEC_CFG_IDE_REQ | .SEC_CFG_ARB_AUTO | .PART_CTL_RELEASE
  | .PART_CTL_GO | .SHR_V | .SEC_FENCE_INFO_WRITE | .SEC_FENCE_INFO_SRC | .KIMP_LIVE | .GO_BUSY
  | .REL_SCRUB | .SECRETS | .IDE_ON | .IDE_KEY_V | .IDE_SET => 1
  | .PART_CTL_STATE | .SPDM_STAGE => 2
  | .SEC_CTL | .PART_KEYS_PRESENT => 3
  | .SEC_EVT | .KIMP_CTL_CMD | .KEY_REVOKED => 4
  | .ARB_STATUS_SVN | .ARB_STATUS_ARB | .KIMP_CTL_PARTY | .SEC_FENCE_INFO_PARTITION | .KIMP_FOR => 7
  | .PART_SHR_MASK => 8
  | .PART_HBM0_SIZE | .PART_HBM1_SIZE | .SHR_SIZE => 14
  | .PART_HBM0_BASE | .PART_HBM1_BASE | .SHR_BASE => 15
  | .SEC_STATUS_LAST_CAUSE | .PART_CTL_LAST_STATUS | .PART_KEYS_EGR_GEN | .KIMP_CTL_LAST_STATUS | .SEC_FENCE_INFO_STATUS |
    .SHR_LAST_STATUS => 16
  | .FW_VERSION | .KIMP_SEQ | .KIMP_PUB | .KIMP_SIG | .KIMP_PEER | .KIMP_WRAP
  | .SEC_FENCE_CNT => 32
  | .PART_CORES | .SEC_FENCE_ADDR | .KIMP_MT => 64
  | .IDE_KEY => 256
  | .KIMP_PRIV => 384

/-- Reset value of a field of 15_partitions_and_security.md: the table's Reset column; a field not named here resets to 0. -/
def SecF.reset (_h : Half) (_i : Nat) : SecF → Nat
  | .SEC_CFG_ARB_AUTO => 1
  | .SECRETS => 1
  | _ => 0

/-- A register field or internal cell of the machine, by the chapter that names it. -/
inductive Fld where
  | pkg (f : PkgF)
  | host (f : HostF)
  | desc (f : DescF)
  | pwr (f : PwrF)
  | irq (f : IrqF)
  | boot (f : BootF)
  | flt (f : FltF)
  | tel (f : TelF)
  | thm (f : ThmF)
  | core (f : CoreF)
  | tile (f : TileF)
  | attn (f : AttnF)
  | kv (f : KvF)
  | sched (f : SchedF)
  | fab (f : FabF)
  | coll (f : CollF)
  | egr (f : EgrF)
  | tim (f : TimF)
  | sec (f : SecF)
deriving DecidableEq, Repr

/-- Width in bits of a field. -/
def Fld.width : Fld → Nat
  | .pkg f => f.width
  | .host f => f.width
  | .desc f => f.width
  | .pwr f => f.width
  | .irq f => f.width
  | .boot f => f.width
  | .flt f => f.width
  | .tel f => f.width
  | .thm f => f.width
  | .core f => f.width
  | .tile f => f.width
  | .attn f => f.width
  | .kv f => f.width
  | .sched f => f.width
  | .fab f => f.width
  | .coll f => f.width
  | .egr f => f.width
  | .tim f => f.width
  | .sec f => f.width

/-- Reset value of instance `i` of a field on half `h` (R26). -/
def Fld.reset (h : Half) (i : Nat) : Fld → Nat
  | .pkg f => f.reset h i
  | .host f => f.reset h i
  | .desc f => f.reset h i
  | .pwr f => f.reset h i
  | .irq f => f.reset h i
  | .boot f => f.reset h i
  | .flt f => f.reset h i
  | .tel f => f.reset h i
  | .thm f => f.reset h i
  | .core f => f.reset h i
  | .tile f => f.reset h i
  | .attn f => f.reset h i
  | .kv f => f.reset h i
  | .sched f => f.reset h i
  | .fab f => f.reset h i
  | .coll f => f.reset h i
  | .egr f => f.reset h i
  | .tim f => f.reset h i
  | .sec f => f.reset h i

/-- The number of a field, used only to order the cells of the register store. -/
def Fld.code : Fld → Nat
  | .pkg f => 0 * 256 + f.ctorIdx
  | .host f => 1 * 256 + f.ctorIdx
  | .desc f => 2 * 256 + f.ctorIdx
  | .pwr f => 3 * 256 + f.ctorIdx
  | .irq f => 4 * 256 + f.ctorIdx
  | .boot f => 5 * 256 + f.ctorIdx
  | .flt f => 6 * 256 + f.ctorIdx
  | .tel f => 7 * 256 + f.ctorIdx
  | .thm f => 8 * 256 + f.ctorIdx
  | .core f => 9 * 256 + f.ctorIdx
  | .tile f => 10 * 256 + f.ctorIdx
  | .attn f => 11 * 256 + f.ctorIdx
  | .kv f => 12 * 256 + f.ctorIdx
  | .sched f => 13 * 256 + f.ctorIdx
  | .fab f => 14 * 256 + f.ctorIdx
  | .coll f => 15 * 256 + f.ctorIdx
  | .egr f => 16 * 256 + f.ctorIdx
  | .tim f => 17 * 256 + f.ctorIdx
  | .sec f => 18 * 256 + f.ctorIdx

/-- One cell of the register store: a field, the half it belongs to, and its instance in that half. -/
structure Key where
  fld : Fld
  half : Half
  idx : Nat
deriving DecidableEq, Repr

/-- The order of the cells in the register store. -/
def Key.code (k : Key) : Nat := k.idx * 16384 + k.half.num * 8192 + k.fld.code

/-- Width in bits of a cell. -/
def Key.width (k : Key) : Nat := k.fld.width

/-- Reset value of a cell (R26). -/
def Key.reset (k : Key) : Nat := k.fld.reset k.half k.idx % 2 ^ k.width

end Sys2Proof.Machine
end

