-- ==== Sys2Proof/Machine/RegMap.lean ====
section
/-!
DEFINITION. Machine/RegMap.lean: the address map of the PF's BAR0 (Table 4.4 and the register-offset tables of each
chapter) and of the VF window (Table 4.5), as rows of data, and the decoding of an offset to a register (R28, R133,
R134).
-/

namespace Sys2Proof.Machine

/-- Access types of Table 0.10 (R24). -/
inductive Acc where
  | rw | ro | wo | w1c | w1s | rs | rwl
deriving DecidableEq, Repr

/-- A field of a register: its lowest bit, its access type, and whether a write of it is a step of its own (another
command of the table), so that a plain register write leaves it alone. -/
structure FieldRow where
  fld : Fld
  lo : Nat
  acc : Acc
  own : Bool
deriving DecidableEq, Repr

/-- A register, or an array of registers: `count` of them, `stride` bytes apart, each of `bytes` bytes; register
number n of the array is instance `idx0 + n` of its fields. `wide` marks a register that reports the whole package. -/
structure RegRow where
  name : String
  base : Nat
  stride : Nat
  count : Nat
  bytes : Nat
  idx0 : Nat
  wide : Bool
  fields : List FieldRow
deriving DecidableEq, Repr

/-- BAR0 registers of 01_package_and_halves.md. -/
def pkgMap : List RegRow :=
  [⟨"PKG_MAP", 0x1000, 0x0, 1, 4, 0, true,
    [⟨.pkg .PKG_MAP_M1_OK, 19, .ro, false⟩,
    ⟨.pkg .PKG_MAP_M0_OK, 18, .ro, false⟩,
    ⟨.pkg .PKG_MAP_HUB1_OK, 17, .ro, false⟩,
    ⟨.pkg .PKG_MAP_HUB0_OK, 16, .ro, false⟩,
    ⟨.pkg .PKG_MAP_TDIE_OK, 0, .ro, false⟩]⟩,
  ⟨"PKG_SERVICE", 0x1008, 0x0, 1, 4, 0, true,
    [⟨.pkg .PKG_SERVICE_LOWLAND, 5, .ro, false⟩,
    ⟨.pkg .PKG_SERVICE_ROLES_H1, 4, .ro, false⟩,
    ⟨.pkg .PKG_SERVICE_COMP_H1, 3, .ro, false⟩,
    ⟨.pkg .PKG_SERVICE_COMP_H0, 2, .ro, false⟩,
    ⟨.pkg .PKG_SERVICE_MGMT_H1, 1, .ro, false⟩,
    ⟨.pkg .PKG_SERVICE_MGMT_H0, 0, .ro, false⟩]⟩,
  ⟨"CORE_OK", 0x1040, 0x8, 8, 8, 0, true,
    [⟨.pkg .CORE_OK, 0, .ro, false⟩]⟩,
  ⟨"PASS_STATUS", 0x1100, 0x0, 1, 4, 0, false,
    [⟨.pkg .PASS_STATUS_SPARE_TX, 12, .ro, false⟩,
    ⟨.pkg .PASS_STATUS_SPARE_RX, 8, .ro, false⟩,
    ⟨.pkg .PASS_STATUS_SB_ALIVE, 6, .ro, false⟩,
    ⟨.pkg .PASS_STATUS_LOCK, 5, .ro, false⟩,
    ⟨.pkg .PASS_STATUS_EXH_RUN, 3, .ro, false⟩,
    ⟨.pkg .PASS_STATUS_STATE, 0, .ro, false⟩]⟩,
  ⟨"PASS_ERR", 0x1104, 0x0, 1, 4, 0, false,
    [⟨.pkg .PASS_ERR, 0, .w1c, false⟩]⟩,
  ⟨"PASS_REPLAY_CNT", 0x1110, 0x0, 1, 8, 0, false,
    [⟨.pkg .PASS_REPLAY_CNT_EXH, 32, .rs, false⟩,
    ⟨.pkg .PASS_REPLAY_CNT_REPLAYS, 0, .rs, false⟩]⟩,
  ⟨"PASS_DOWN_TIME", 0x1118, 0x0, 1, 8, 0, false,
    [⟨.pkg .PASS_DOWN_TIME, 0, .rs, false⟩]⟩,
  ⟨"POOL_CLASS_CFG", 0x1200, 0x8, 7, 4, 0, false,
    [⟨.pkg .POOL_CLASS_CFG_CAP, 16, .rwl, false⟩,
    ⟨.pkg .POOL_CLASS_CFG_FLOOR, 0, .rwl, false⟩]⟩,
  ⟨"POOL_CLASS_USE", 0x1240, 0x8, 7, 4, 0, false,
    [⟨.pkg .POOL_CLASS_USE_LENT, 11, .ro, false⟩,
    ⟨.pkg .POOL_CLASS_USE_IN_USE, 0, .ro, false⟩]⟩,
  ⟨"POOL_CTL", 0x1280, 0x0, 1, 4, 0, false,
    [⟨.pkg .POOL_CTL_QUIESCE, 1, .rw, true⟩,
    ⟨.pkg .POOL_CTL_COMMIT, 0, .wo, true⟩]⟩,
  ⟨"POOL_STATUS", 0x1284, 0x0, 1, 4, 0, false,
    [⟨.pkg .POOL_STATUS_LAST_STATUS, 16, .ro, false⟩,
    ⟨.pkg .POOL_STATUS_QUIESCED, 11, .ro, false⟩,
    ⟨.pkg .POOL_STATUS_FREE, 0, .ro, false⟩]⟩,
  ⟨"POOL_RECLAIM_CNT", 0x1288, 0x0, 1, 4, 0, false,
    [⟨.pkg .POOL_RECLAIM_CNT, 0, .ro, false⟩]⟩,
  ⟨"POOL_FORCED_CNT", 0x128C, 0x0, 1, 4, 0, false,
    [⟨.pkg .POOL_FORCED_CNT, 0, .ro, false⟩]⟩,
  ⟨"POOL_RECLAIM_MAX", 0x1290, 0x0, 1, 4, 0, false,
    [⟨.pkg .POOL_RECLAIM_MAX, 0, .ro, false⟩]⟩]

/-- BAR0 registers of 04_host_rings_and_registers.md. -/
def hostMap : List RegRow :=
  [⟨"GLB_ID", 0x0, 0x0, 1, 4, 0, false,
    [⟨.host .GLB_ID_PART, 16, .ro, false⟩,
    ⟨.host .GLB_ID_STEPPING, 8, .ro, false⟩,
    ⟨.host .GLB_ID_HALF, 0, .ro, false⟩]⟩,
  ⟨"SETUP_LOCK", 0x8, 0x0, 1, 4, 0, false,
    [⟨.host .SETUP_LOCK_PEER_PENDING, 1, .ro, false⟩,
    ⟨.host .SETUP_LOCK_LOCK, 0, .w1s, true⟩]⟩,
  ⟨"LINK_STATUS", 0x10, 0x0, 1, 4, 0, false,
    [⟨.host .LINK_STATUS_RATE, 8, .ro, false⟩,
    ⟨.host .LINK_STATUS_WIDTH, 5, .ro, false⟩,
    ⟨.host .LINK_STATUS_FLIT, 4, .ro, false⟩,
    ⟨.host .LINK_STATUS_IDE, 3, .ro, false⟩,
    ⟨.host .LINK_STATUS_RRS, 2, .ro, false⟩,
    ⟨.host .LINK_STATUS_LINK_UP, 1, .ro, false⟩]⟩,
  ⟨"LINK_EVT", 0x14, 0x0, 1, 4, 0, false,
    [⟨.host .LINK_EVT, 0, .w1c, false⟩]⟩,
  ⟨"FUNC_ID", 0x100, 0x0, 1, 4, 64, false,
    [⟨.host .FUNC_ID_PF, 8, .ro, false⟩,
    ⟨.host .FUNC_ID_HALF, 7, .ro, false⟩,
    ⟨.host .FUNC_ID_PARTITION, 0, .ro, false⟩]⟩,
  ⟨"FUNC_STATUS", 0x104, 0x0, 1, 4, 64, false,
    [⟨.host .FUNC_STATUS_DRAINING, 0, .ro, false⟩]⟩,
  ⟨"FUNC_IRQ", 0x108, 0x0, 1, 4, 64, false,
    [⟨.host .FUNC_IRQ, 0, .w1c, false⟩]⟩,
  ⟨"FUNC_IRQ_EN", 0x10C, 0x0, 1, 4, 64, false,
    [⟨.host .FUNC_IRQ_EN, 0, .rw, false⟩]⟩,
  ⟨"FUNC_IRQ_VEC", 0x110, 0x0, 1, 4, 64, false,
    [⟨.host .FUNC_IRQ_VEC, 0, .rw, false⟩]⟩,
  ⟨"EVT_RING", 0x114, 0x0, 1, 4, 64, false,
    [⟨.host .EVT_RING_EN, 3, .rw, true⟩,
    ⟨.host .EVT_RING_RING, 0, .rw, true⟩]⟩,
  ⟨"ACC_CNT", 0x118, 0x0, 1, 4, 64, false,
    [⟨.host .ACC_CNT_UNMAPPED, 16, .ro, false⟩,
    ⟨.host .ACC_CNT_BAD_WIDTH, 0, .ro, false⟩]⟩,
  ⟨"SHD_CNT", 0x11C, 0x0, 1, 4, 64, false,
    [⟨.host .SHD_CNT_SHADOW_MISS, 16, .ro, false⟩,
    ⟨.host .SHD_CNT_STAGE_DROP, 0, .ro, false⟩]⟩,
  ⟨"EVT_LOST_CNT", 0x120, 0x0, 1, 4, 64, false,
    [⟨.host .EVT_LOST_CNT, 0, .ro, false⟩]⟩,
  ⟨"RING_BASE", 0x200000, 0x40, 520, 8, 0, false,
    [⟨.host .RING_BASE, 0, .rw, true⟩]⟩,
  ⟨"CQ_BASE", 0x200008, 0x40, 520, 8, 0, false,
    [⟨.host .CQ_BASE, 0, .rw, true⟩]⟩,
  ⟨"RING_CFG", 0x200010, 0x40, 520, 4, 0, false,
    [⟨.host .RING_CFG_CQ_VEC, 24, .rw, true⟩,
    ⟨.host .RING_CFG_CQ_IRQ_EN, 20, .rw, true⟩,
    ⟨.host .RING_CFG_CQ_LOG2, 16, .rw, true⟩,
    ⟨.host .RING_CFG_SIZE_LOG2, 12, .rw, true⟩,
    ⟨.host .RING_CFG_PINNED, 8, .rw, true⟩]⟩,
  ⟨"RING_COAL", 0x200014, 0x40, 520, 4, 0, false,
    [⟨.host .RING_COAL_COAL_CNT, 16, .rw, true⟩,
    ⟨.host .RING_COAL_COAL_TIME, 0, .rw, true⟩]⟩,
  ⟨"RING_START", 0x200018, 0x40, 520, 4, 0, false,
    [⟨.host .RING_START, 0, .rw, true⟩]⟩,
  ⟨"RING_CTL", 0x20001C, 0x40, 520, 4, 0, false,
    [⟨.host .RING_CTL_FSTOP, 1, .wo, true⟩,
    ⟨.host .RING_CTL_EN, 0, .rw, true⟩]⟩,
  ⟨"RING_STATUS", 0x200020, 0x40, 520, 8, 0, false,
    [⟨.host .RING_STATUS_CQ_CI, 48, .rs, false⟩,
    ⟨.host .RING_STATUS_CQ_PI, 32, .rs, false⟩,
    ⟨.host .RING_STATUS_CI, 16, .rs, false⟩,
    ⟨.host .RING_STATUS_PI, 0, .rs, false⟩]⟩,
  ⟨"RING_STATE", 0x200028, 0x40, 520, 4, 0, false,
    [⟨.host .RING_STATE_LAST_STATUS, 16, .ro, false⟩,
    ⟨.host .RING_STATE_FETCHED, 8, .ro, false⟩,
    ⟨.host .RING_STATE_CQ_STALL, 7, .ro, false⟩,
    ⟨.host .RING_STATE_STATE, 0, .ro, false⟩]⟩,
  ⟨"RING_ERR", 0x20002C, 0x40, 520, 4, 0, false,
    [⟨.host .RING_ERR, 0, .w1c, false⟩]⟩,
  ⟨"PIN_COUNT", 0x200030, 0x40, 520, 4, 0, false,
    [⟨.host .PIN_COUNT, 0, .ro, false⟩]⟩,
  ⟨"PIN_ALLOC", 0x210000, 0x4, 520, 4, 0, false,
    [⟨.host .PIN_ALLOC, 0, .rw, true⟩]⟩,
  ⟨"PIN_POOL", 0x211000, 0x0, 1, 4, 0, false,
    [⟨.host .PIN_POOL_LAST_STATUS, 16, .ro, false⟩,
    ⟨.host .PIN_POOL_FREE, 0, .ro, false⟩]⟩]

/-- VF window registers of 04_host_rings_and_registers.md: `idx0` here is the number of instances one partition owns. -/
def hostVfMap : List RegRow :=
  [⟨"FUNC_ID", 0x0, 0x0, 1, 4, 1, false,
    [⟨.host .FUNC_ID_PF, 8, .ro, false⟩,
    ⟨.host .FUNC_ID_HALF, 7, .ro, false⟩,
    ⟨.host .FUNC_ID_PARTITION, 0, .ro, false⟩]⟩,
  ⟨"FUNC_STATUS", 0x4, 0x0, 1, 4, 1, false,
    [⟨.host .FUNC_STATUS_DRAINING, 0, .ro, false⟩]⟩,
  ⟨"FUNC_IRQ", 0x8, 0x0, 1, 4, 1, false,
    [⟨.host .FUNC_IRQ, 0, .w1c, false⟩]⟩,
  ⟨"FUNC_IRQ_EN", 0xC, 0x0, 1, 4, 1, false,
    [⟨.host .FUNC_IRQ_EN, 0, .rw, false⟩]⟩,
  ⟨"FUNC_IRQ_VEC", 0x10, 0x0, 1, 4, 1, false,
    [⟨.host .FUNC_IRQ_VEC, 0, .rw, false⟩]⟩,
  ⟨"EVT_RING", 0x14, 0x0, 1, 4, 1, false,
    [⟨.host .EVT_RING_EN, 3, .rw, true⟩,
    ⟨.host .EVT_RING_RING, 0, .rw, true⟩]⟩,
  ⟨"ACC_CNT", 0x18, 0x0, 1, 4, 1, false,
    [⟨.host .ACC_CNT_UNMAPPED, 16, .ro, false⟩,
    ⟨.host .ACC_CNT_BAD_WIDTH, 0, .ro, false⟩]⟩,
  ⟨"SHD_CNT", 0x1C, 0x0, 1, 4, 1, false,
    [⟨.host .SHD_CNT_SHADOW_MISS, 16, .ro, false⟩,
    ⟨.host .SHD_CNT_STAGE_DROP, 0, .ro, false⟩]⟩,
  ⟨"EVT_LOST_CNT", 0x20, 0x0, 1, 4, 1, false,
    [⟨.host .EVT_LOST_CNT, 0, .ro, false⟩]⟩,
  ⟨"RING_BASE", 0x100, 0x40, 8, 8, 8, false,
    [⟨.host .RING_BASE, 0, .rw, true⟩]⟩,
  ⟨"CQ_BASE", 0x108, 0x40, 8, 8, 8, false,
    [⟨.host .CQ_BASE, 0, .rw, true⟩]⟩,
  ⟨"RING_CFG", 0x110, 0x40, 8, 4, 8, false,
    [⟨.host .RING_CFG_CQ_VEC, 24, .rw, true⟩,
    ⟨.host .RING_CFG_CQ_IRQ_EN, 20, .rw, true⟩,
    ⟨.host .RING_CFG_CQ_LOG2, 16, .rw, true⟩,
    ⟨.host .RING_CFG_SIZE_LOG2, 12, .rw, true⟩,
    ⟨.host .RING_CFG_PINNED, 8, .rw, true⟩]⟩,
  ⟨"RING_COAL", 0x114, 0x40, 8, 4, 8, false,
    [⟨.host .RING_COAL_COAL_CNT, 16, .rw, true⟩,
    ⟨.host .RING_COAL_COAL_TIME, 0, .rw, true⟩]⟩,
  ⟨"RING_START", 0x118, 0x40, 8, 4, 8, false,
    [⟨.host .RING_START, 0, .rw, true⟩]⟩,
  ⟨"RING_CTL", 0x11C, 0x40, 8, 4, 8, false,
    [⟨.host .RING_CTL_FSTOP, 1, .wo, true⟩,
    ⟨.host .RING_CTL_EN, 0, .rw, true⟩]⟩,
  ⟨"RING_STATUS", 0x120, 0x40, 8, 8, 8, false,
    [⟨.host .RING_STATUS_CQ_CI, 48, .rs, false⟩,
    ⟨.host .RING_STATUS_CQ_PI, 32, .rs, false⟩,
    ⟨.host .RING_STATUS_CI, 16, .rs, false⟩,
    ⟨.host .RING_STATUS_PI, 0, .rs, false⟩]⟩,
  ⟨"RING_STATE", 0x128, 0x40, 8, 4, 8, false,
    [⟨.host .RING_STATE_LAST_STATUS, 16, .ro, false⟩,
    ⟨.host .RING_STATE_FETCHED, 8, .ro, false⟩,
    ⟨.host .RING_STATE_CQ_STALL, 7, .ro, false⟩,
    ⟨.host .RING_STATE_STATE, 0, .ro, false⟩]⟩,
  ⟨"RING_ERR", 0x12C, 0x40, 8, 4, 8, false,
    [⟨.host .RING_ERR, 0, .w1c, false⟩]⟩,
  ⟨"PIN_COUNT", 0x130, 0x40, 8, 4, 8, false,
    [⟨.host .PIN_COUNT, 0, .ro, false⟩]⟩]

/-- BAR0 registers of 05_work_descriptors.md. -/
def descMap : List RegRow :=
  [⟨"EVC_VAL", 0x410000, 0x4, 4096, 4, 0, false,
    [⟨.desc .EVC_VAL, 0, .rw, true⟩]⟩,
  ⟨"EVC_ADD", 0x414000, 0x4, 4096, 4, 0, false,
    [⟨.desc .EVC_ADD, 0, .wo, true⟩]⟩,
  ⟨"EVC_ALLOC", 0x418000, 0x4, 64, 4, 0, false,
    [⟨.desc .EVC_ALLOC_BASE, 16, .rwl, true⟩,
    ⟨.desc .EVC_ALLOC_COUNT, 0, .rwl, true⟩]⟩,
  ⟨"REQ_ALLOC", 0x418100, 0x4, 64, 4, 0, false,
    [⟨.desc .REQ_ALLOC_BASE, 16, .rwl, true⟩,
    ⟨.desc .REQ_ALLOC_COUNT, 0, .rwl, true⟩]⟩,
  ⟨"ALLOC_STATUS", 0x418200, 0x0, 1, 4, 0, false,
    [⟨.desc .ALLOC_STATUS_LAST_STATUS, 16, .ro, false⟩]⟩,
  ⟨"REQ_OPEN_CNT", 0x418204, 0x0, 1, 4, 0, false,
    [⟨.desc .REQ_OPEN_CNT, 0, .ro, false⟩]⟩,
  ⟨"EVC_INFO", 0x124, 0x0, 1, 4, 64, false,
    [⟨.desc .EVC_INFO, 0, .ro, false⟩]⟩,
  ⟨"REQ_INFO", 0x128, 0x0, 1, 4, 64, false,
    [⟨.desc .REQ_INFO, 0, .ro, false⟩]⟩]

/-- VF window registers of 05_work_descriptors.md: `idx0` here is the number of instances one partition owns. -/
def descVfMap : List RegRow :=
  [⟨"EVC_INFO", 0x24, 0x0, 1, 4, 1, false,
    [⟨.desc .EVC_INFO, 0, .ro, false⟩]⟩,
  ⟨"REQ_INFO", 0x28, 0x0, 1, 4, 1, false,
    [⟨.desc .REQ_INFO, 0, .ro, false⟩]⟩]

/-- BAR0 registers of 18_electrical_and_limits.md. -/
def pwrMap : List RegRow :=
  [⟨"PWR_STATUS", 0x1400, 0x0, 1, 4, 0, true,
    [⟨.pwr .PWR_STATUS_ARR_PG, 8, .ro, false⟩,
    ⟨.pwr .PWR_STATUS_RAILS, 1, .ro, false⟩,
    ⟨.pwr .PWR_STATUS_PWR_GOOD, 0, .ro, false⟩]⟩,
  ⟨"PWR_EVT", 0x1404, 0x0, 1, 4, 0, true,
    [⟨.pwr .PWR_EVT, 0, .w1c, false⟩]⟩,
  ⟨"PWR_INPUT", 0x1408, 0x0, 1, 4, 0, true,
    [⟨.pwr .PWR_INPUT_PEAK, 16, .ro, false⟩,
    ⟨.pwr .PWR_INPUT_AVG, 0, .ro, false⟩]⟩]

/-- BAR0 registers of 19_status_catalogue.md. -/
def irqMap : List RegRow :=
  [⟨"GLB_EVT", 0x1500, 0x0, 1, 4, 0, false,
    [⟨.irq .GLB_EVT, 0, .w1c, false⟩]⟩,
  ⟨"IRQ_ROUTE", 0x1600, 0x4, 15, 4, 0, false,
    [⟨.irq .IRQ_ROUTE_EN, 31, .rw, true⟩,
    ⟨.irq .IRQ_ROUTE_VEC, 24, .rw, true⟩,
    ⟨.irq .IRQ_ROUTE_MASK, 0, .rw, true⟩]⟩]

/-- BAR0 registers of 03_startup_and_lowland.md. -/
def bootMap : List RegRow :=
  [⟨"STRAP_STATUS", 0x1300, 0x0, 1, 4, 0, false,
    [⟨.boot .STRAP_STATUS_MISMATCH, 15, .ro, false⟩,
    ⟨.boot .STRAP_STATUS_BAD, 14, .ro, false⟩,
    ⟨.boot .STRAP_STATUS_BOOT_SEL, 7, .ro, false⟩,
    ⟨.boot .STRAP_STATUS_PLAT_INIT, 5, .ro, false⟩,
    ⟨.boot .STRAP_STATUS_SMB_ADDR, 2, .ro, false⟩,
    ⟨.boot .STRAP_STATUS_FAB_MEDIA, 1, .ro, false⟩,
    ⟨.boot .STRAP_STATUS_FIPS_MODE, 0, .ro, false⟩]⟩,
  ⟨"BOOT_STATUS", 0x1304, 0x0, 1, 4, 0, false,
    [⟨.boot .BOOT_STATUS_STEP, 20, .ro, false⟩,
    ⟨.boot .BOOT_STATUS_IMAGE, 18, .ro, false⟩,
    ⟨.boot .BOOT_STATUS_HBM_FAIL, 17, .ro, false⟩,
    ⟨.boot .BOOT_STATUS_PASS_FAIL, 16, .ro, false⟩,
    ⟨.boot .BOOT_STATUS_STATUS, 0, .ro, false⟩]⟩,
  ⟨"BOOT_FAIL", 0x1308, 0x0, 1, 4, 0, true,
    [⟨.boot .BOOT_FAIL_DIE, 0, .ro, false⟩]⟩,
  ⟨"BOOT_TIME_MGMT", 0x1310, 0x0, 1, 4, 0, true,
    [⟨.boot .BOOT_TIME_MGMT, 0, .ro, false⟩]⟩,
  ⟨"BOOT_TIME_COMP", 0x1314, 0x0, 1, 4, 0, true,
    [⟨.boot .BOOT_TIME_COMP, 0, .ro, false⟩]⟩,
  ⟨"CORE_TEST", 0x1340, 0x8, 8, 8, 0, true,
    [⟨.boot .CORE_TEST, 0, .ro, false⟩]⟩,
  ⟨"LOWLAND_STATUS", 0x1380, 0x0, 1, 4, 0, true,
    [⟨.boot .LOWLAND_STATUS_LAST_STATUS, 16, .ro, false⟩,
    ⟨.boot .LOWLAND_STATUS_CAUSE, 12, .ro, false⟩,
    ⟨.boot .LOWLAND_STATUS_PARK, 10, .ro, false⟩,
    ⟨.boot .LOWLAND_STATUS_FUSE_ONLY, 9, .ro, false⟩,
    ⟨.boot .LOWLAND_STATUS_START_FAIL_RUN, 0, .ro, false⟩]⟩,
  ⟨"LOWLAND_CTL", 0x1384, 0x0, 1, 4, 0, false,
    [⟨.boot .LOWLAND_CTL_EXIT, 0, .wo, true⟩]⟩,
  ⟨"LOWLAND_ENTRY_TIME", 0x1388, 0x0, 1, 8, 0, true,
    [⟨.boot .LOWLAND_ENTRY_TIME, 0, .rs, false⟩]⟩,
  ⟨"THERM_SETTLE0", 0xE00050, 0x0, 1, 4, 0, false,
    [⟨.boot .THERM_SETTLE0_TIMEOUT, 16, .ro, false⟩,
    ⟨.boot .THERM_SETTLE0_HOLD, 8, .ro, false⟩]⟩,
  ⟨"THERM_SETTLE1", 0xE00054, 0x0, 1, 4, 0, false,
    [⟨.boot .THERM_SETTLE1_SLOPE, 16, .ro, false⟩]⟩,
  ⟨"THERM_SETTLE2", 0xE00058, 0x0, 1, 4, 0, false,
    [⟨.boot .THERM_SETTLE2_FLOW_PERIOD, 0, .ro, false⟩]⟩]

/-- BAR0 registers of 16_faults_and_recovery.md. -/
def fltMap : List RegRow :=
  [⟨"FLT_CFG", 0x1000000, 0x0, 1, 4, 0, false,
    [⟨.flt .FLT_CFG_HBM_UE_LIMIT, 16, .rwl, true⟩,
    ⟨.flt .FLT_CFG_PART_LIMIT, 8, .rwl, true⟩,
    ⟨.flt .FLT_CFG_AUTO_TRAY, 1, .rwl, true⟩,
    ⟨.flt .FLT_CFG_AUTO_CHIP, 0, .rwl, true⟩]⟩,
  ⟨"FLT_WDT0", 0x1000004, 0x0, 1, 4, 0, false,
    [⟨.flt .FLT_WDT0_CTX_WDT, 12, .rwl, true⟩,
    ⟨.flt .FLT_WDT0_PASS_MULT, 0, .rwl, true⟩]⟩,
  ⟨"FLT_WDT1", 0x1000008, 0x0, 1, 4, 0, false,
    [⟨.flt .FLT_WDT1_ENG_WDT, 0, .rwl, true⟩]⟩,
  ⟨"FLT_CTL", 0x100000C, 0x0, 1, 4, 0, false,
    [⟨.flt .FLT_CTL_ARG, 16, .wo, true⟩,
    ⟨.flt .FLT_CTL_CMD, 0, .wo, true⟩]⟩,
  ⟨"FLT_STATUS", 0x1000010, 0x0, 1, 4, 0, false,
    [⟨.flt .FLT_STATUS_LAST_STATUS, 16, .ro, false⟩,
    ⟨.flt .FLT_STATUS_STEP, 0, .ro, false⟩]⟩,
  ⟨"FLT_EVT", 0x1000014, 0x0, 1, 4, 0, false,
    [⟨.flt .FLT_EVT, 0, .w1c, false⟩]⟩,
  ⟨"FLT_LOST", 0x1000018, 0x0, 1, 4, 0, true,
    [⟨.flt .FLT_LOST_STACK, 8, .ro, false⟩,
    ⟨.flt .FLT_LOST_DIE, 0, .ro, false⟩]⟩,
  ⟨"FLT_CNT", 0x1000020, 0x0, 1, 8, 0, false,
    [⟨.flt .FLT_CNT_ENG, 32, .rs, false⟩,
    ⟨.flt .FLT_CNT_CTX, 0, .rs, false⟩]⟩,
  ⟨"FLT_REC_HEAD", 0x1000500, 0x0, 1, 4, 0, false,
    [⟨.flt .FLT_REC_HEAD_NEWEST, 0, .ro, false⟩]⟩,
  ⟨"FLT_LOG_BASE", 0x1001000, 0x0, 1, 8, 64, false,
    [⟨.flt .FLT_LOG_BASE, 0, .rw, true⟩]⟩,
  ⟨"FLT_SMP_BASE", 0x1001008, 0x0, 1, 8, 64, false,
    [⟨.flt .FLT_SMP_BASE, 0, .rw, true⟩]⟩,
  ⟨"FLT_LOG_CFG", 0x1001010, 0x0, 1, 4, 64, false,
    [⟨.flt .FLT_LOG_CFG_EN, 31, .rw, true⟩,
    ⟨.flt .FLT_LOG_CFG_SMP_LOG2, 16, .rw, true⟩,
    ⟨.flt .FLT_LOG_CFG_LOG2, 0, .rw, true⟩]⟩,
  ⟨"FLT_LOG_PI", 0x1001014, 0x0, 1, 4, 64, false,
    [⟨.flt .FLT_LOG_PI, 0, .ro, false⟩]⟩,
  ⟨"FLT_LOG_CI", 0x1001018, 0x0, 1, 4, 64, false,
    [⟨.flt .FLT_LOG_CI, 0, .rw, true⟩]⟩,
  ⟨"FLT_LOG_LOST", 0x100101C, 0x0, 1, 4, 64, false,
    [⟨.flt .FLT_LOG_LOST, 0, .ro, false⟩]⟩,
  ⟨"RING_WDT", 0x1001020, 0x4, 8, 4, 512, false,
    [⟨.flt .RING_WDT_ACT, 31, .rw, true⟩,
    ⟨.flt .RING_WDT_MS, 0, .rw, true⟩]⟩,
  ⟨"MC_STATUS", 0x100000, 0x0, 1, 4, 0, false,
    [⟨.flt .MC_STATUS_LAST_STATUS, 16, .ro, false⟩,
    ⟨.flt .MC_STATUS_PEER, 8, .ro, false⟩,
    ⟨.flt .MC_STATUS_SELF, 4, .ro, false⟩,
    ⟨.flt .MC_STATUS_LATCH, 0, .ro, false⟩]⟩,
  ⟨"MC_EVT", 0x100004, 0x0, 1, 4, 0, false,
    [⟨.flt .MC_EVT, 0, .w1c, false⟩]⟩,
  ⟨"MC_GEN", 0x100008, 0x0, 1, 4, 0, false,
    [⟨.flt .MC_GEN, 0, .ro, false⟩]⟩,
  ⟨"MC_TAKEOVER_TIME", 0x100010, 0x0, 1, 8, 0, false,
    [⟨.flt .MC_TAKEOVER_TIME, 0, .rs, false⟩]⟩,
  ⟨"ROLE_ARB", 0x100018, 0x0, 1, 4, 0, false,
    [⟨.flt .ROLE_ARB_PATH, 8, .ro, false⟩,
    ⟨.flt .ROLE_ARB_HALF, 4, .ro, false⟩]⟩,
  ⟨"MC_PASS_CTL", 0x10001C, 0x0, 1, 4, 0, false,
    [⟨.flt .MC_PASS_CTL_RETRAIN_EN, 1, .rw, false⟩,
    ⟨.flt .MC_PASS_CTL_REJOIN, 0, .wo, true⟩]⟩,
  ⟨"PASS_RETRAIN_CNT", 0x100020, 0x0, 1, 4, 0, false,
    [⟨.flt .PASS_RETRAIN_CNT, 0, .ro, false⟩]⟩]

/-- VF window registers of 16_faults_and_recovery.md: `idx0` here is the number of instances one partition owns. -/
def fltVfMap : List RegRow :=
  [⟨"FLT_LOG_BASE", 0x2000, 0x0, 1, 8, 1, false,
    [⟨.flt .FLT_LOG_BASE, 0, .rw, true⟩]⟩,
  ⟨"FLT_SMP_BASE", 0x2008, 0x0, 1, 8, 1, false,
    [⟨.flt .FLT_SMP_BASE, 0, .rw, true⟩]⟩,
  ⟨"FLT_LOG_CFG", 0x2010, 0x0, 1, 4, 1, false,
    [⟨.flt .FLT_LOG_CFG_EN, 31, .rw, true⟩,
    ⟨.flt .FLT_LOG_CFG_SMP_LOG2, 16, .rw, true⟩,
    ⟨.flt .FLT_LOG_CFG_LOG2, 0, .rw, true⟩]⟩,
  ⟨"FLT_LOG_PI", 0x2014, 0x0, 1, 4, 1, false,
    [⟨.flt .FLT_LOG_PI, 0, .ro, false⟩]⟩,
  ⟨"FLT_LOG_CI", 0x2018, 0x0, 1, 4, 1, false,
    [⟨.flt .FLT_LOG_CI, 0, .rw, true⟩]⟩,
  ⟨"FLT_LOG_LOST", 0x201C, 0x0, 1, 4, 1, false,
    [⟨.flt .FLT_LOG_LOST, 0, .ro, false⟩]⟩,
  ⟨"RING_WDT", 0x2020, 0x4, 8, 4, 8, false,
    [⟨.flt .RING_WDT_ACT, 31, .rw, true⟩,
    ⟨.flt .RING_WDT_MS, 0, .rw, true⟩]⟩]

/-- BAR0 registers of 17_telemetry_and_ledger.md. -/
def telMap : List RegRow :=
  [⟨"TEL_SNAP_LO", 0x1100000, 0x0, 1, 4, 0, false,
    [⟨.tel .TEL_SNAP_LO_SNAP, 0, .wo, true⟩]⟩,
  ⟨"TEL_STATUS", 0x1100004, 0x0, 1, 4, 0, false,
    [⟨.tel .TEL_STATUS_LAST_STATUS, 16, .ro, false⟩]⟩,
  ⟨"LDG_STATUS", 0x1100010, 0x0, 1, 4, 0, false,
    [⟨.tel .LDG_STATUS_DROPPED, 16, .ro, false⟩,
    ⟨.tel .LDG_STATUS_FUSE_ERR, 2, .ro, false⟩,
    ⟨.tel .LDG_STATUS_FOREIGN, 1, .ro, false⟩,
    ⟨.tel .LDG_STATUS_WRITER, 0, .ro, false⟩]⟩,
  ⟨"LDG_CTL", 0x1100014, 0x0, 1, 4, 0, false,
    [⟨.tel .LDG_CTL_ADOPT, 0, .wo, true⟩]⟩,
  ⟨"LDG_RD_STATUS", 0x1100018, 0x0, 1, 4, 0, false,
    [⟨.tel .LDG_RD_STATUS, 0, .ro, false⟩]⟩,
  ⟨"LDG_RD_SEQ", 0x1100020, 0x0, 1, 4, 0, false,
    [⟨.tel .LDG_RD_SEQ, 0, .rw, true⟩]⟩,
  ⟨"LDG_NEXT", 0x1100024, 0x0, 1, 4, 0, true,
    [⟨.tel .LDG_NEXT, 0, .ro, false⟩]⟩,
  ⟨"LDG_OLDEST", 0x1100028, 0x0, 1, 4, 0, true,
    [⟨.tel .LDG_OLDEST, 0, .ro, false⟩]⟩,
  ⟨"FUSE_CNT", 0x1100080, 0x4, 8, 4, 0, true,
    [⟨.tel .FUSE_CNT, 0, .ro, false⟩]⟩,
  ⟨"TEL_SMB", 0x1100100, 0x0, 1, 4, 0, false,
    [⟨.tel .TEL_SMB_STUCK_DAT, 1, .ro, false⟩,
    ⟨.tel .TEL_SMB_STUCK_CLK, 0, .ro, false⟩]⟩,
  ⟨"SNAP", 0x1110000, 0x200, 97, 4, 0, false,
    [⟨.tel .SNAP, 0, .wo, true⟩]⟩,
  ⟨"SNAP_SEQ", 0x1110004, 0x200, 97, 4, 0, false,
    [⟨.tel .SNAP_SEQ, 0, .ro, false⟩]⟩,
  ⟨"SNAP_MT", 0x1110008, 0x200, 97, 8, 0, false,
    [⟨.tel .SNAP_MT, 0, .rs, false⟩]⟩,
  ⟨"HIST_CFG", 0x1112010, 0x200, 16, 4, 0, false,
    [⟨.tel .HIST_CFG_EN, 31, .rw, true⟩,
    ⟨.tel .HIST_CFG_MODE, 30, .rw, true⟩,
    ⟨.tel .HIST_CFG_SUM_SAT, 29, .ro, false⟩,
    ⟨.tel .HIST_CFG_U, 24, .rw, true⟩,
    ⟨.tel .HIST_CFG_SRC, 20, .rw, true⟩,
    ⟨.tel .HIST_CFG_PV, 19, .rw, true⟩,
    ⟨.tel .HIST_CFG_PART, 12, .rw, true⟩]⟩,
  ⟨"HIST_LO", 0x1112018, 0x200, 16, 4, 0, false,
    [⟨.tel .HIST_LO, 0, .rw, false⟩]⟩]

/-- BAR0 registers of 02_plateau_clock_and_coolant.md. -/
def thmMap : List RegRow :=
  [⟨"THERM_STATUS", 0xE00000, 0x0, 1, 4, 0, false,
    [⟨.thm .THERM_STATUS_LAST_STATUS, 16, .ro, false⟩,
    ⟨.thm .THERM_STATUS_OWNER, 15, .ro, false⟩,
    ⟨.thm .THERM_STATUS_FORCED, 3, .ro, false⟩,
    ⟨.thm .THERM_STATUS_STATE, 0, .ro, false⟩]⟩,
  ⟨"THERM_CTL", 0xE00004, 0x0, 1, 4, 0, false,
    [⟨.thm .THERM_CTL_START, 2, .wo, true⟩,
    ⟨.thm .THERM_CTL_AUTO_DOWN, 1, .rwl, false⟩,
    ⟨.thm .THERM_CTL_MODE, 0, .rw, true⟩]⟩,
  ⟨"THERM_EVENT", 0xE00008, 0x0, 1, 4, 0, false,
    [⟨.thm .THERM_EVENT, 0, .w1c, false⟩]⟩,
  ⟨"PLAT_STATUS", 0xE00010, 0x0, 1, 4, 0, false,
    [⟨.thm .PLAT_STATUS_LAST_STATUS, 16, .ro, false⟩,
    ⟨.thm .PLAT_STATUS_SOURCE, 6, .ro, false⟩,
    ⟨.thm .PLAT_STATUS_PENDING, 5, .ro, false⟩,
    ⟨.thm .PLAT_STATUS_TARGET, 2, .ro, false⟩,
    ⟨.thm .PLAT_STATUS_CUR, 0, .ro, false⟩]⟩,
  ⟨"PLAT_CTL", 0xE00014, 0x0, 1, 4, 0, false,
    [⟨.thm .PLAT_CTL_NOTICE_MS, 8, .rw, true⟩,
    ⟨.thm .PLAT_CTL_CANCEL, 3, .wo, true⟩,
    ⟨.thm .PLAT_CTL_REQ, 2, .wo, true⟩,
    ⟨.thm .PLAT_CTL_TARGET, 0, .rw, true⟩]⟩,
  ⟨"PLAT_SWITCH_TIME", 0xE00018, 0x0, 1, 8, 0, false,
    [⟨.thm .PLAT_SWITCH_TIME, 0, .rs, false⟩]⟩,
  ⟨"THERM_SET0", 0xE00020, 0x0, 1, 4, 0, false,
    [⟨.thm .THERM_SET0_T_OUT_SET, 16, .rw, true⟩,
    ⟨.thm .THERM_SET0_T_OUT_FAIL, 0, .rwl, true⟩]⟩,
  ⟨"THERM_SET1", 0xE00024, 0x0, 1, 4, 0, false,
    [⟨.thm .THERM_SET1_TJ_CRIT, 16, .rwl, true⟩,
    ⟨.thm .THERM_SET1_TJ_WARN, 0, .rwl, true⟩]⟩,
  ⟨"THERM_GAIN", 0xE00028, 0x0, 1, 4, 0, false,
    [⟨.thm .THERM_GAIN_KI, 16, .rw, true⟩,
    ⟨.thm .THERM_GAIN_KP, 0, .rw, true⟩]⟩,
  ⟨"THERM_SPLIT", 0xE0002C, 0x0, 1, 4, 0, false,
    [⟨.thm .THERM_SPLIT_SPLIT, 16, .rw, true⟩,
    ⟨.thm .THERM_SPLIT_SLEW, 0, .rw, true⟩]⟩,
  ⟨"THERM_RANGE_V", 0xE00030, 0x0, 1, 4, 0, false,
    [⟨.thm .THERM_RANGE_V_VMAX, 16, .rw, true⟩,
    ⟨.thm .THERM_RANGE_V_VMIN, 0, .rw, true⟩]⟩,
  ⟨"THERM_RANGE_P", 0xE00034, 0x0, 1, 4, 0, false,
    [⟨.thm .THERM_RANGE_P_PMAX, 16, .rw, true⟩,
    ⟨.thm .THERM_RANGE_P_PMIN, 0, .rw, true⟩]⟩,
  ⟨"THERM_TIMING", 0xE00038, 0x0, 1, 4, 0, false,
    [⟨.thm .THERM_TIMING_SENS_LOSS, 24, .rwl, true⟩,
    ⟨.thm .THERM_TIMING_AUTO_DOWN_MS, 16, .rw, true⟩,
    ⟨.thm .THERM_TIMING_FAIL_HOLD_MS, 0, .rwl, true⟩]⟩,
  ⟨"THERM_PRIME", 0xE0003C, 0x0, 1, 4, 0, false,
    [⟨.thm .THERM_PRIME_VALVE, 16, .rw, true⟩,
    ⟨.thm .THERM_PRIME_PUMP, 0, .rw, true⟩]⟩,
  ⟨"THERM_MEAS0", 0xE00040, 0x0, 1, 4, 0, false,
    [⟨.thm .THERM_MEAS0_T_OUT, 16, .ro, false⟩,
    ⟨.thm .THERM_MEAS0_T_IN, 0, .ro, false⟩]⟩,
  ⟨"THERM_MEAS1", 0xE00044, 0x0, 1, 4, 0, false,
    [⟨.thm .THERM_MEAS1_DEMAND, 16, .ro, false⟩,
    ⟨.thm .THERM_MEAS1_TJ_MAX, 0, .ro, false⟩]⟩,
  ⟨"PWM_CTL", 0xE00100, 0x20, 4, 4, 0, false,
    [⟨.thm .PWM_CTL_UPDATE, 2, .wo, true⟩,
    ⟨.thm .PWM_CTL_POL, 1, .rw, false⟩,
    ⟨.thm .PWM_CTL_EN, 0, .rw, true⟩]⟩,
  ⟨"PWM_PERIOD", 0xE00104, 0x20, 4, 4, 0, false,
    [⟨.thm .PWM_PERIOD, 0, .rw, true⟩]⟩,
  ⟨"PWM_DUTY", 0xE00108, 0x20, 4, 4, 0, false,
    [⟨.thm .PWM_DUTY, 0, .rw, true⟩]⟩,
  ⟨"PWM_ACT_PERIOD", 0xE0010C, 0x20, 4, 4, 0, false,
    [⟨.thm .PWM_ACT_PERIOD, 0, .ro, false⟩]⟩,
  ⟨"PWM_ACT_DUTY", 0xE00110, 0x20, 4, 4, 0, false,
    [⟨.thm .PWM_ACT_DUTY, 0, .ro, false⟩]⟩,
  ⟨"PWM_STATUS", 0xE00114, 0x20, 4, 4, 0, false,
    [⟨.thm .PWM_STATUS_LAST_STATUS, 16, .ro, false⟩,
    ⟨.thm .PWM_STATUS_DISARMED, 1, .w1c, false⟩,
    ⟨.thm .PWM_STATUS_UPD_PEND, 0, .ro, false⟩]⟩,
  ⟨"TRIG_CFG", 0xE00180, 0x8, 2, 4, 0, false,
    [⟨.thm .TRIG_CFG_EN, 31, .rw, true⟩,
    ⟨.thm .TRIG_CFG_MODE, 30, .rw, true⟩,
    ⟨.thm .TRIG_CFG_CH, 28, .rw, true⟩,
    ⟨.thm .TRIG_CFG_WIDTH, 18, .rw, true⟩,
    ⟨.thm .TRIG_CFG_AT, 0, .rw, true⟩]⟩,
  ⟨"FB_CTL", 0xE00200, 0x40, 3, 4, 0, false,
    [⟨.thm .FB_CTL_CLR_GLITCH, 2, .wo, true⟩,
    ⟨.thm .FB_CTL_MODE, 0, .rw, true⟩]⟩,
  ⟨"FB_MIN_INT", 0xE00204, 0x40, 3, 4, 0, false,
    [⟨.thm .FB_MIN_INT, 0, .rw, false⟩]⟩,
  ⟨"FB_POSITION", 0xE00208, 0x40, 3, 4, 0, false,
    [⟨.thm .FB_POSITION, 0, .rw, true⟩]⟩,
  ⟨"FB_PERIOD", 0xE0020C, 0x40, 3, 4, 0, false,
    [⟨.thm .FB_PERIOD_DIR, 24, .ro, false⟩,
    ⟨.thm .FB_PERIOD_PERIOD, 0, .ro, false⟩]⟩,
  ⟨"FB_ZS_TIMEOUT", 0xE00210, 0x40, 3, 4, 0, false,
    [⟨.thm .FB_ZS_TIMEOUT, 0, .rw, false⟩]⟩,
  ⟨"FB_WINDOW", 0xE00214, 0x40, 3, 4, 0, false,
    [⟨.thm .FB_WINDOW, 0, .rw, true⟩]⟩,
  ⟨"FB_COUNT_WIN", 0xE00218, 0x40, 3, 4, 0, false,
    [⟨.thm .FB_COUNT_WIN, 0, .ro, false⟩]⟩,
  ⟨"FB_STATUS", 0xE0021C, 0x40, 3, 4, 0, false,
    [⟨.thm .FB_STATUS_GLITCH, 16, .ro, false⟩,
    ⟨.thm .FB_STATUS_WRAPPED, 1, .w1c, false⟩,
    ⟨.thm .FB_STATUS_STOPPED, 0, .ro, false⟩]⟩,
  ⟨"AUX_OWNER", 0xE00300, 0x0, 1, 4, 0, false,
    [⟨.thm .AUX_OWNER_FB2B, 8, .ro, false⟩,
    ⟨.thm .AUX_OWNER_PWM3, 4, .ro, false⟩,
    ⟨.thm .AUX_OWNER_PWM2, 0, .ro, false⟩]⟩,
  ⟨"AUX_CLAIM_STATUS", 0xE00304, 0x0, 1, 4, 0, false,
    [⟨.thm .AUX_CLAIM_STATUS_LAST_STATUS, 16, .ro, false⟩,
    ⟨.thm .AUX_CLAIM_STATUS_PIN, 12, .ro, false⟩,
    ⟨.thm .AUX_CLAIM_STATUS_HOLDER, 8, .ro, false⟩,
    ⟨.thm .AUX_CLAIM_STATUS_REQUESTER, 4, .ro, false⟩]⟩,
  ⟨"AUX_DIAG", 0xE00308, 0x0, 1, 4, 0, false,
    [⟨.thm .AUX_DIAG, 0, .ro, false⟩]⟩,
  ⟨"AUX_DIAG_CLR", 0xE0030C, 0x0, 1, 4, 0, false,
    [⟨.thm .AUX_DIAG_CLR, 0, .wo, true⟩]⟩,
  ⟨"AUX_KEY", 0xE00310, 0x0, 1, 4, 0, false,
    [⟨.thm .AUX_KEY_CABLE_OK, 2, .ro, false⟩,
    ⟨.thm .AUX_KEY_PATTERN, 0, .ro, false⟩]⟩]

/-- BAR0 registers of 06_cores_formats_scratchpads.md. -/
def coreMap : List RegRow :=
  [⟨"CORE_STATUS", 0x700000, 0x100, 256, 4, 0, false,
    [⟨.core .CORE_STATUS_LAST_STATUS, 16, .ro, false⟩,
    ⟨.core .CORE_STATUS_USABLE, 9, .ro, false⟩,
    ⟨.core .CORE_STATUS_ACTIVE, 8, .ro, false⟩,
    ⟨.core .CORE_STATUS_SLOT1, 4, .ro, false⟩,
    ⟨.core .CORE_STATUS_SLOT0, 0, .ro, false⟩]⟩,
  ⟨"CORE_CFG", 0x700004, 0x100, 256, 4, 0, false,
    [⟨.core .CORE_CFG_BANK_SPLIT, 0, .rw, true⟩]⟩,
  ⟨"SLOT0_CTX", 0x700008, 0x100, 256, 4, 0, false,
    [⟨.core .SLOT0_CTX_V, 31, .ro, false⟩,
    ⟨.core .SLOT0_CTX_PARTITION, 24, .ro, false⟩,
    ⟨.core .SLOT0_CTX_OPR, 23, .ro, false⟩,
    ⟨.core .SLOT0_CTX_REQUEST, 0, .ro, false⟩]⟩,
  ⟨"SLOT1_CTX", 0x70000C, 0x100, 256, 4, 0, false,
    [⟨.core .SLOT1_CTX_V, 31, .ro, false⟩,
    ⟨.core .SLOT1_CTX_PARTITION, 24, .ro, false⟩,
    ⟨.core .SLOT1_CTX_OPR, 23, .ro, false⟩,
    ⟨.core .SLOT1_CTX_REQUEST, 0, .ro, false⟩]⟩,
  ⟨"NUM_SAT", 0x700010, 0x100, 256, 4, 0, false,
    [⟨.core .NUM_SAT, 0, .ro, false⟩]⟩,
  ⟨"NUM_NAN", 0x700014, 0x100, 256, 4, 0, false,
    [⟨.core .NUM_NAN, 0, .ro, false⟩]⟩,
  ⟨"SP_ECC", 0x700018, 0x100, 256, 4, 0, false,
    [⟨.core .SP_ECC_UNCORR, 16, .ro, false⟩,
    ⟨.core .SP_ECC_CORR, 0, .ro, false⟩]⟩,
  ⟨"CORE_CNT_CLR", 0x70001C, 0x100, 256, 4, 0, false,
    [⟨.core .CORE_CNT_CLR, 0, .wo, true⟩]⟩,
  ⟨"PASS_CNT", 0x700020, 0x100, 256, 8, 0, false,
    [⟨.core .PASS_CNT, 0, .rs, false⟩]⟩,
  ⟨"SWITCH_CNT", 0x700028, 0x100, 256, 4, 0, false,
    [⟨.core .SWITCH_CNT, 0, .ro, false⟩]⟩,
  ⟨"DC_CTL", 0x780000, 0x40, 4, 4, 0, false,
    [⟨.core .DC_CTL_INV, 0, .wo, true⟩]⟩,
  ⟨"DC_ECC", 0x780004, 0x40, 4, 4, 0, false,
    [⟨.core .DC_ECC_UNCORR, 16, .ro, false⟩,
    ⟨.core .DC_ECC_CORR, 0, .ro, false⟩]⟩,
  ⟨"DC_HIT", 0x780008, 0x40, 4, 8, 0, false,
    [⟨.core .DC_HIT, 0, .rs, false⟩]⟩,
  ⟨"DC_MISS", 0x780010, 0x40, 4, 8, 0, false,
    [⟨.core .DC_MISS, 0, .rs, false⟩]⟩]

/-- BAR0 registers of 07_tiling_and_loop_nests.md. -/
def tileMap : List RegRow :=
  [⟨"TD_ITEMS", 0x600000, 0x40, 4, 8, 0, false,
    [⟨.tile .TD_ITEMS, 0, .rs, false⟩]⟩,
  ⟨"TD_REMOTE", 0x600008, 0x40, 4, 4, 0, false,
    [⟨.tile .TD_REMOTE, 0, .ro, false⟩]⟩,
  ⟨"TD_COMBINE", 0x60000C, 0x40, 4, 4, 0, false,
    [⟨.tile .TD_COMBINE, 0, .ro, false⟩]⟩,
  ⟨"TD_HALO_MEM", 0x600010, 0x40, 4, 4, 0, false,
    [⟨.tile .TD_HALO_MEM, 0, .ro, false⟩]⟩,
  ⟨"TD_NEST_ERR", 0x600014, 0x40, 4, 4, 0, false,
    [⟨.tile .TD_NEST_ERR_STATUS, 16, .ro, false⟩,
    ⟨.tile .TD_NEST_ERR_ENTRY, 8, .ro, false⟩,
    ⟨.tile .TD_NEST_ERR_TABLE, 7, .ro, false⟩,
    ⟨.tile .TD_NEST_ERR_OFFSET, 0, .ro, false⟩]⟩,
  ⟨"SP_TAG", 0x6C0000, 0x8, 256, 8, 0, false,
    [⟨.tile .SP_TAG, 0, .ro, false⟩]⟩,
  ⟨"FENCE_INFO", 0x6E0000, 0x0, 1, 4, 0, false,
    [⟨.tile .FENCE_INFO_STATUS, 16, .ro, false⟩,
    ⟨.tile .FENCE_INFO_WRITE, 15, .ro, false⟩,
    ⟨.tile .FENCE_INFO_SRC, 14, .ro, false⟩,
    ⟨.tile .FENCE_INFO_CONTEXT, 0, .ro, false⟩]⟩,
  ⟨"FENCE_ADDR", 0x6E0008, 0x0, 1, 8, 0, false,
    [⟨.tile .FENCE_ADDR, 0, .rs, false⟩]⟩,
  ⟨"FENCE_CNT", 0x6E0010, 0x0, 1, 4, 0, false,
    [⟨.tile .FENCE_CNT, 0, .ro, false⟩]⟩]

/-- BAR0 registers of 08_attention.md. -/
def attnMap : List RegRow :=
  [⟨"ATTN_RULE", 0x7C0000, 0x0, 1, 4, 0, false,
    [⟨.attn .ATTN_RULE_SPLIT_MIN, 16, .rwl, true⟩,
    ⟨.attn .ATTN_RULE_COMPOSED_MAX, 0, .rwl, true⟩]⟩,
  ⟨"ATTN_BLOCKS", 0x7C0008, 0x0, 1, 8, 0, false,
    [⟨.attn .ATTN_BLOCKS, 0, .rs, false⟩]⟩,
  ⟨"ATTN_SKIPPED", 0x7C0010, 0x0, 1, 8, 0, false,
    [⟨.attn .ATTN_SKIPPED, 0, .rs, false⟩]⟩,
  ⟨"ATTN_UNITS", 0x7C0018, 0x0, 1, 8, 0, false,
    [⟨.attn .ATTN_UNITS_COMPOSED, 32, .rs, false⟩,
    ⟨.attn .ATTN_UNITS_STREAMED, 0, .rs, false⟩]⟩,
  ⟨"ATTN_DEMAND", 0x7C0020, 0x0, 1, 4, 0, false,
    [⟨.attn .ATTN_DEMAND, 0, .ro, false⟩]⟩,
  ⟨"ATTN_SPLIT", 0x7C0024, 0x0, 1, 4, 0, false,
    [⟨.attn .ATTN_SPLIT, 0, .ro, false⟩]⟩,
  ⟨"ATTN_ERR", 0x7C0028, 0x0, 1, 4, 0, false,
    [⟨.attn .ATTN_ERR_STATUS, 16, .ro, false⟩,
    ⟨.attn .ATTN_ERR_CONTEXT, 0, .ro, false⟩]⟩,
  ⟨"RING_STEPS", 0x7C0030, 0x0, 1, 8, 0, false,
    [⟨.attn .RING_STEPS, 0, .rs, false⟩]⟩]

/-- BAR0 registers of 09_kv_cache.md. -/
def kvMap : List RegRow :=
  [⟨"KV_SLOT_BASE", 0x800000, 0x0, 1, 8, 0, false,
    [⟨.kv .KV_SLOT_BASE, 0, .rwl, true⟩]⟩,
  ⟨"KV_SLOT_CFG", 0x800008, 0x0, 1, 4, 0, false,
    [⟨.kv .KV_SLOT_CFG_COUNT, 0, .rwl, true⟩]⟩,
  ⟨"KV_SLOT_FREE", 0x80000C, 0x0, 1, 4, 0, false,
    [⟨.kv .KV_SLOT_FREE, 0, .ro, false⟩]⟩,
  ⟨"KV_LAST", 0x800010, 0x0, 1, 4, 0, false,
    [⟨.kv .KV_LAST_STATUS, 16, .ro, false⟩]⟩,
  ⟨"KV_QUOTA", 0x800100, 0x20, 64, 8, 0, false,
    [⟨.kv .KV_QUOTA_LOW, 42, .rwl, true⟩,
    ⟨.kv .KV_QUOTA_HIGH, 21, .rwl, true⟩,
    ⟨.kv .KV_QUOTA_QUOTA, 0, .rwl, true⟩]⟩,
  ⟨"KV_PSTAT", 0x800108, 0x20, 64, 8, 0, false,
    [⟨.kv .KV_PSTAT_VALLEY_HELD, 21, .rs, false⟩,
    ⟨.kv .KV_PSTAT_HELD, 0, .rs, false⟩]⟩,
  ⟨"KV_PGRP", 0x800110, 0x20, 64, 4, 0, false,
    [⟨.kv .KV_PGRP_SG_EN, 4, .rwl, true⟩,
    ⟨.kv .KV_PGRP_SGRP, 0, .rwl, true⟩]⟩,
  ⟨"VALLEY_BASE", 0x801000, 0x20, 64, 8, 0, false,
    [⟨.kv .VALLEY_BASE, 0, .rwl, true⟩]⟩,
  ⟨"VALLEY_TAG", 0x801008, 0x20, 64, 8, 0, false,
    [⟨.kv .VALLEY_TAG, 0, .rwl, true⟩]⟩,
  ⟨"VALLEY_CFG", 0x801010, 0x20, 64, 4, 0, false,
    [⟨.kv .VALLEY_CFG_EN, 31, .rwl, true⟩,
    ⟨.kv .VALLEY_CFG_UNITS, 0, .rwl, true⟩]⟩,
  ⟨"VALLEY_GEN", 0x801018, 0x20, 64, 8, 0, false,
    [⟨.kv .VALLEY_GEN, 0, .rs, false⟩]⟩,
  ⟨"KV_GRP_QUOTA", 0x802000, 0x8, 16, 4, 0, false,
    [⟨.kv .KV_GRP_QUOTA, 0, .rwl, true⟩]⟩,
  ⟨"KV_GRP_HELD", 0x802004, 0x8, 16, 4, 0, false,
    [⟨.kv .KV_GRP_HELD, 0, .ro, false⟩]⟩,
  ⟨"PFX_CTL", 0x802100, 0x0, 1, 4, 0, false,
    [⟨.kv .PFX_CTL_FLUSH, 0, .wo, true⟩]⟩,
  ⟨"PFX_STATUS", 0x802104, 0x0, 1, 4, 0, false,
    [⟨.kv .PFX_STATUS_USED, 0, .ro, false⟩]⟩,
  ⟨"KV_SPILLS", 0x802200, 0x0, 1, 8, 0, false,
    [⟨.kv .KV_SPILLS, 0, .rs, false⟩]⟩,
  ⟨"KV_FETCHES", 0x802208, 0x0, 1, 8, 0, false,
    [⟨.kv .KV_FETCHES, 0, .rs, false⟩]⟩,
  ⟨"KV_EVICTS", 0x802210, 0x0, 1, 8, 0, false,
    [⟨.kv .KV_EVICTS, 0, .rs, false⟩]⟩,
  ⟨"KV_PFX_HIT", 0x802218, 0x0, 1, 8, 0, false,
    [⟨.kv .KV_PFX_HIT, 0, .rs, false⟩]⟩,
  ⟨"KV_PFX_MISS", 0x802220, 0x0, 1, 8, 0, false,
    [⟨.kv .KV_PFX_MISS, 0, .rs, false⟩]⟩,
  ⟨"KV_PFX_COLLIDE", 0x802228, 0x0, 1, 4, 0, false,
    [⟨.kv .KV_PFX_COLLIDE, 0, .ro, false⟩]⟩,
  ⟨"KV_PFX_DUP", 0x80222C, 0x0, 1, 4, 0, false,
    [⟨.kv .KV_PFX_DUP, 0, .ro, false⟩]⟩,
  ⟨"KV_AUTH_FAIL", 0x802230, 0x0, 1, 4, 0, false,
    [⟨.kv .KV_AUTH_FAIL, 0, .ro, false⟩]⟩,
  ⟨"KV_NOSLOT_CNT", 0x802234, 0x0, 1, 4, 0, false,
    [⟨.kv .KV_NOSLOT_CNT, 0, .ro, false⟩]⟩]

/-- BAR0 registers of 10_serving.md. -/
def schedMap : List RegRow :=
  [⟨"BUDGET_CFG", 0x400000, 0x20, 65, 8, 0, false,
    [⟨.sched .BUDGET_CFG_BURST, 32, .rw, true⟩,
    ⟨.sched .BUDGET_CFG_BUDGET, 0, .rw, true⟩]⟩,
  ⟨"BALANCE", 0x400008, 0x20, 65, 4, 0, false,
    [⟨.sched .BALANCE, 0, .ro, false⟩]⟩,
  ⟨"PARTY_CFG", 0x40000C, 0x20, 65, 4, 0, false,
    [⟨.sched .PARTY_CFG_WEIGHT, 0, .rw, true⟩]⟩,
  ⟨"CHARGED", 0x400010, 0x20, 65, 8, 0, false,
    [⟨.sched .CHARGED, 0, .rs, false⟩]⟩,
  ⟨"ADP_ALLOC", 0x400018, 0x20, 65, 4, 0, false,
    [⟨.sched .ADP_ALLOC_BASE, 16, .rwl, true⟩,
    ⟨.sched .ADP_ALLOC_COUNT, 0, .rwl, true⟩]⟩,
  ⟨"BUDGET_WAITS", 0x40001C, 0x20, 65, 4, 0, false,
    [⟨.sched .BUDGET_WAITS, 0, .ro, false⟩]⟩,
  ⟨"RING_SCHED", 0x404000, 0x8, 520, 8, 0, false,
    [⟨.sched .RING_SCHED_URG_READY, 41, .ro, false⟩,
    ⟨.sched .RING_SCHED_URG_EN, 40, .rw, true⟩,
    ⟨.sched .RING_SCHED_URG_CORE, 24, .rw, true⟩,
    ⟨.sched .RING_SCHED_CTX_MAX, 8, .rw, true⟩,
    ⟨.sched .RING_SCHED_CLASS_MASK, 0, .rw, true⟩]⟩,
  ⟨"ADP_SLOT", 0x406000, 0x8, 1024, 8, 0, false,
    [⟨.sched .ADP_SLOT_STATE, 62, .ro, false⟩,
    ⟨.sched .ADP_SLOT_FMT, 58, .ro, false⟩,
    ⟨.sched .ADP_SLOT_RANK, 49, .ro, false⟩,
    ⟨.sched .ADP_SLOT_DST, 0, .ro, false⟩]⟩,
  ⟨"SCHED_STATUS", 0x40F000, 0x0, 1, 4, 0, false,
    [⟨.sched .SCHED_STATUS_LAST_STATUS, 16, .ro, false⟩]⟩,
  ⟨"URG_LAT_MAX", 0x40F008, 0x0, 1, 4, 0, false,
    [⟨.sched .URG_LAT_MAX, 0, .ro, false⟩]⟩,
  ⟨"PREEMPT_CNT", 0x40F010, 0x0, 1, 8, 0, false,
    [⟨.sched .PREEMPT_CNT, 0, .rs, false⟩]⟩]

/-- BAR0 registers of 11_fabric_links.md. -/
def fabMap : List RegRow :=
  [⟨"FAB_NODE", 0xA00000, 0x0, 1, 4, 0, false,
    [⟨.fab .FAB_NODE_PLANE, 11, .ro, false⟩,
    ⟨.fab .FAB_NODE_X, 7, .rw, true⟩,
    ⟨.fab .FAB_NODE_Y, 3, .rw, true⟩,
    ⟨.fab .FAB_NODE_Z, 0, .rw, true⟩]⟩,
  ⟨"FAB_SIZE", 0xA00004, 0x0, 1, 4, 0, false,
    [⟨.fab .FAB_SIZE_SX, 10, .rw, true⟩,
    ⟨.fab .FAB_SIZE_SY, 5, .rw, true⟩,
    ⟨.fab .FAB_SIZE_SZ, 0, .rw, true⟩]⟩,
  ⟨"FAB_PORT_DIR", 0xA00008, 0x0, 1, 4, 0, false,
    [⟨.fab .FAB_PORT_DIR, 0, .rw, true⟩]⟩,
  ⟨"FAB_CTL", 0xA0000C, 0x0, 1, 4, 0, false,
    [⟨.fab .FAB_CTL_AUTO_RT, 0, .wo, true⟩]⟩,
  ⟨"FAB_STATUS", 0xA00010, 0x0, 1, 4, 0, false,
    [⟨.fab .FAB_STATUS_LAST_STATUS, 16, .ro, false⟩,
    ⟨.fab .FAB_STATUS_CFG_OK, 0, .ro, false⟩]⟩,
  ⟨"FAB_LINK_CFG", 0xA00014, 0x0, 1, 4, 0, false,
    [⟨.fab .FAB_LINK_CFG_LANE_SER_LIMIT, 16, .rwl, false⟩,
    ⟨.fab .FAB_LINK_CFG_REPLAY_TMO, 8, .rwl, false⟩,
    ⟨.fab .FAB_LINK_CFG_TRAIN_TMO, 0, .rwl, false⟩]⟩,
  ⟨"FAB_VC_CFG", 0xA00018, 0x0, 1, 4, 0, false,
    [⟨.fab .FAB_VC_CFG_VC3_BURST, 24, .rwl, false⟩,
    ⟨.fab .FAB_VC_CFG_VC3_RATE, 16, .rwl, false⟩,
    ⟨.fab .FAB_VC_CFG_W1, 8, .rwl, false⟩,
    ⟨.fab .FAB_VC_CFG_W0, 0, .rwl, false⟩]⟩,
  ⟨"FAB_MGMT", 0xA0001C, 0x0, 1, 4, 0, false,
    [⟨.fab .FAB_MGMT_REMOTE_EN, 13, .rwl, false⟩,
    ⟨.fab .FAB_MGMT_FM_V, 12, .rw, false⟩,
    ⟨.fab .FAB_MGMT_FM_NODE, 0, .rw, false⟩]⟩,
  ⟨"FAB_BUF", 0xA00020, 0x4, 4, 4, 0, false,
    [⟨.fab .FAB_BUF_HI, 16, .rwl, true⟩,
    ⟨.fab .FAB_BUF_LO, 0, .rwl, true⟩]⟩,
  ⟨"RT_SEL", 0xA00040, 0x0, 1, 4, 0, false,
    [⟨.fab .RT_SEL_BANK, 0, .rw, true⟩]⟩,
  ⟨"RT", 0xA00044, 0x4, 6, 4, 0, false,
    [⟨.fab .RT, 0, .rw, true⟩]⟩,
  ⟨"FAB_DROP", 0xA00080, 0x4, 8, 4, 0, false,
    [⟨.fab .FAB_DROP, 0, .ro, false⟩]⟩,
  ⟨"PORT_CTL", 0xA01000, 0x100, 6, 4, 0, false,
    [⟨.fab .PORT_CTL_ADMIN_DOWN, 1, .wo, true⟩,
    ⟨.fab .PORT_CTL_TRAIN, 0, .wo, true⟩]⟩,
  ⟨"PORT_STATUS", 0xA01004, 0x100, 6, 4, 0, false,
    [⟨.fab .PORT_STATUS_LAST_STATUS, 16, .ro, false⟩,
    ⟨.fab .PORT_STATUS_CAUSE, 12, .ro, false⟩,
    ⟨.fab .PORT_STATUS_TX_PAIR, 10, .ro, false⟩,
    ⟨.fab .PORT_STATUS_RX_PAIR, 8, .ro, false⟩,
    ⟨.fab .PORT_STATUS_STATE, 0, .ro, false⟩]⟩,
  ⟨"PORT_ERR", 0xA01008, 0x100, 6, 4, 0, false,
    [⟨.fab .PORT_ERR, 0, .w1c, false⟩]⟩,
  ⟨"PORT_CNT0", 0xA01010, 0x100, 6, 8, 0, false,
    [⟨.fab .PORT_CNT0_REPLAYS, 32, .rs, false⟩,
    ⟨.fab .PORT_CNT0_CRC_ERR, 0, .rs, false⟩]⟩,
  ⟨"PORT_CNT1", 0xA01018, 0x100, 6, 8, 0, false,
    [⟨.fab .PORT_CNT1_FEC_UNCORR, 32, .rs, false⟩,
    ⟨.fab .PORT_CNT1_FEC_CORR, 0, .rs, false⟩]⟩,
  ⟨"PORT_DOWN_TIME", 0xA01020, 0x100, 6, 8, 0, false,
    [⟨.fab .PORT_DOWN_TIME, 0, .rs, false⟩]⟩,
  ⟨"PORT_NBR", 0xA01028, 0x100, 6, 4, 0, false,
    [⟨.fab .PORT_NBR_V, 15, .ro, false⟩,
    ⟨.fab .PORT_NBR_DIR, 12, .ro, false⟩,
    ⟨.fab .PORT_NBR_NODE, 0, .ro, false⟩]⟩]

/-- BAR0 registers of 12_collectives_and_notch.md. -/
def collMap : List RegRow :=
  [⟨"COLL_CFG", 0xA04000, 0x0, 1, 4, 0, false,
    [⟨.coll .COLL_CFG_TMO_DEF, 0, .rw, true⟩]⟩,
  ⟨"COLL_STATUS", 0xA04004, 0x0, 1, 4, 0, false,
    [⟨.coll .COLL_STATUS_LAST_STATUS, 16, .ro, false⟩,
    ⟨.coll .COLL_STATUS_NOTCH_ACTIVE, 4, .ro, false⟩,
    ⟨.coll .COLL_STATUS_BULK_ACTIVE, 0, .ro, false⟩]⟩,
  ⟨"COLL_LAST_ABORT", 0xA04008, 0x0, 1, 8, 0, false,
    [⟨.coll .COLL_LAST_ABORT_GROUP_ID, 32, .rs, false⟩,
    ⟨.coll .COLL_LAST_ABORT_EPOCH, 0, .rs, false⟩]⟩,
  ⟨"COLL_ABORT_INFO", 0xA04010, 0x0, 1, 4, 0, false,
    [⟨.coll .COLL_ABORT_INFO_CAUSE, 28, .ro, false⟩,
    ⟨.coll .COLL_ABORT_INFO_ORIGIN, 16, .ro, false⟩,
    ⟨.coll .COLL_ABORT_INFO_LOCAL_STATUS, 0, .ro, false⟩]⟩,
  ⟨"COLL_OPS", 0xA04018, 0x0, 1, 8, 0, false,
    [⟨.coll .COLL_OPS, 0, .rs, false⟩]⟩,
  ⟨"COLL_BYTES", 0xA04020, 0x0, 1, 8, 0, false,
    [⟨.coll .COLL_BYTES, 0, .rs, false⟩]⟩,
  ⟨"NOTCH_OPS", 0xA04028, 0x0, 1, 8, 0, false,
    [⟨.coll .NOTCH_OPS, 0, .rs, false⟩]⟩,
  ⟨"COLL_ABORTS", 0xA04030, 0x0, 1, 4, 0, false,
    [⟨.coll .COLL_ABORTS, 0, .ro, false⟩]⟩,
  ⟨"CTL_DROP", 0xA04034, 0x0, 1, 4, 0, false,
    [⟨.coll .CTL_DROP, 0, .ro, false⟩]⟩,
  ⟨"NOTCH_LAT_MAX", 0xA04038, 0x0, 1, 4, 0, false,
    [⟨.coll .NOTCH_LAT_MAX, 0, .ro, false⟩]⟩,
  ⟨"RED_NUM_SAT", 0xA0403C, 0x0, 1, 4, 0, false,
    [⟨.coll .RED_NUM_SAT, 0, .ro, false⟩]⟩,
  ⟨"RED_NUM_NAN", 0xA04040, 0x0, 1, 4, 0, false,
    [⟨.coll .RED_NUM_NAN, 0, .ro, false⟩]⟩,
  ⟨"GRP_ID", 0xA08000, 0x20, 256, 4, 0, false,
    [⟨.coll .GRP_ID, 0, .rw, true⟩]⟩,
  ⟨"GRP_CFG", 0xA08004, 0x20, 256, 4, 0, false,
    [⟨.coll .GRP_CFG_V, 31, .rw, true⟩,
    ⟨.coll .GRP_CFG_OPR, 30, .rw, true⟩,
    ⟨.coll .GRP_CFG_PARTITION, 16, .rw, true⟩,
    ⟨.coll .GRP_CFG_AXES, 8, .rw, true⟩]⟩,
  ⟨"GRP_BOX", 0xA08008, 0x20, 256, 4, 0, false,
    [⟨.coll .GRP_BOX_OX, 28, .rw, true⟩,
    ⟨.coll .GRP_BOX_OY, 24, .rw, true⟩,
    ⟨.coll .GRP_BOX_OZ, 21, .rw, true⟩,
    ⟨.coll .GRP_BOX_EX, 16, .rw, true⟩,
    ⟨.coll .GRP_BOX_EY, 11, .rw, true⟩,
    ⟨.coll .GRP_BOX_EZ, 7, .rw, true⟩]⟩,
  ⟨"GRP_EPOCH", 0xA0800C, 0x20, 256, 4, 0, false,
    [⟨.coll .GRP_EPOCH_NEXT, 0, .ro, false⟩]⟩,
  ⟨"GRP_ABORT", 0xA08010, 0x20, 256, 8, 0, false,
    [⟨.coll .GRP_ABORT_V, 63, .rs, false⟩,
    ⟨.coll .GRP_ABORT_CAUSE, 56, .rs, false⟩,
    ⟨.coll .GRP_ABORT_ORIGIN, 44, .rs, false⟩,
    ⟨.coll .GRP_ABORT_EPOCH, 0, .rs, false⟩]⟩]

/-- BAR0 registers of 13_kv_egress.md. -/
def egrMap : List RegRow :=
  [⟨"EGR_CTL", 0xC00000, 0x0, 1, 4, 0, false,
    [⟨.egr .EGR_CTL_EN, 0, .rw, true⟩]⟩,
  ⟨"EGR_STATUS", 0xC00004, 0x0, 1, 4, 0, false,
    [⟨.egr .EGR_STATUS_LAST_STATUS, 16, .ro, false⟩,
    ⟨.egr .EGR_STATUS_LINK_UP, 1, .ro, false⟩,
    ⟨.egr .EGR_STATUS_ENABLED, 0, .ro, false⟩]⟩,
  ⟨"EGR_EVT", 0xC00008, 0x0, 1, 4, 0, false,
    [⟨.egr .EGR_EVT, 0, .w1c, false⟩]⟩,
  ⟨"EGR_MAC", 0xC00010, 0x0, 1, 8, 0, false,
    [⟨.egr .EGR_MAC, 0, .rw, true⟩]⟩,
  ⟨"EGR_IP4", 0xC00018, 0x0, 1, 4, 0, false,
    [⟨.egr .EGR_IP4, 0, .rw, true⟩]⟩,
  ⟨"EGR_IP6_LO", 0xC00020, 0x0, 1, 8, 0, false,
    [⟨.egr .EGR_IP6_LO, 0, .rw, true⟩]⟩,
  ⟨"EGR_IP6_HI", 0xC00028, 0x0, 1, 8, 0, false,
    [⟨.egr .EGR_IP6_HI, 0, .rw, true⟩]⟩,
  ⟨"EGR_PORT_CFG", 0xC00030, 0x0, 1, 4, 0, false,
    [⟨.egr .EGR_PORT_CFG_RX_UDP, 16, .rw, true⟩,
    ⟨.egr .EGR_PORT_CFG_MTU, 0, .rw, true⟩]⟩,
  ⟨"EGR_CC", 0xC00034, 0x0, 1, 4, 0, false,
    [⟨.egr .EGR_CC_INC_PERIOD, 16, .rw, true⟩,
    ⟨.egr .EGR_CC_INC_STEP, 8, .rw, true⟩,
    ⟨.egr .EGR_CC_CE_CUT, 4, .rw, true⟩]⟩,
  ⟨"EGR_CC2", 0xC00038, 0x0, 1, 4, 0, false,
    [⟨.egr .EGR_CC2_ECN_HOLD, 0, .rw, true⟩]⟩,
  ⟨"EGR_TX_DGRAMS", 0xC00040, 0x0, 1, 8, 0, false,
    [⟨.egr .EGR_TX_DGRAMS, 0, .rs, false⟩]⟩,
  ⟨"EGR_TX_BYTES", 0xC00048, 0x0, 1, 8, 0, false,
    [⟨.egr .EGR_TX_BYTES, 0, .rs, false⟩]⟩,
  ⟨"EGR_RETX", 0xC00050, 0x0, 1, 8, 0, false,
    [⟨.egr .EGR_RETX, 0, .rs, false⟩]⟩,
  ⟨"EGR_RX_ACKS", 0xC00058, 0x0, 1, 8, 0, false,
    [⟨.egr .EGR_RX_ACKS, 0, .rs, false⟩]⟩,
  ⟨"EGR_RX_BAD", 0xC00060, 0x0, 1, 4, 0, false,
    [⟨.egr .EGR_RX_BAD, 0, .ro, false⟩]⟩,
  ⟨"EGR_RX_DROP", 0xC00064, 0x0, 1, 4, 0, false,
    [⟨.egr .EGR_RX_DROP, 0, .ro, false⟩]⟩,
  ⟨"EGR_CANCEL_NOACK", 0xC00068, 0x0, 1, 4, 0, false,
    [⟨.egr .EGR_CANCEL_NOACK, 0, .ro, false⟩]⟩,
  ⟨"EGR_STREAM_FAIL", 0xC0006C, 0x0, 1, 4, 0, false,
    [⟨.egr .EGR_STREAM_FAIL, 0, .ro, false⟩]⟩,
  ⟨"EGR_PSTAT", 0xC00100, 0x8, 65, 8, 0, false,
    [⟨.egr .EGR_PSTAT_STREAM_NEXT, 32, .ro, false⟩,
    ⟨.egr .EGR_PSTAT_OPEN, 0, .ro, false⟩]⟩,
  ⟨"STREAM_ST0", 0xC20000, 0x20, 1024, 8, 0, false,
    [⟨.egr .STREAM_ST0_ID, 32, .ro, false⟩,
    ⟨.egr .STREAM_ST0_V, 31, .ro, false⟩,
    ⟨.egr .STREAM_ST0_STATE, 28, .ro, false⟩,
    ⟨.egr .STREAM_ST0_CLASS, 25, .ro, false⟩,
    ⟨.egr .STREAM_ST0_PLAN, 13, .ro, false⟩,
    ⟨.egr .STREAM_ST0_REQUEST, 0, .ro, false⟩]⟩,
  ⟨"STREAM_ST1", 0xC20008, 0x20, 1024, 8, 0, false,
    [⟨.egr .STREAM_ST1_NEXT_SEQ, 32, .rs, false⟩,
    ⟨.egr .STREAM_ST1_ACKED, 0, .rs, false⟩]⟩,
  ⟨"STREAM_ST2", 0xC20010, 0x20, 1024, 8, 0, false,
    [⟨.egr .STREAM_ST2_STATUS, 48, .rs, false⟩,
    ⟨.egr .STREAM_ST2_RATE, 32, .rs, false⟩,
    ⟨.egr .STREAM_ST2_SRTT, 0, .rs, false⟩]⟩]

/-- BAR0 registers of 14_time_and_schedules.md. -/
def timMap : List RegRow :=
  [⟨"TIME_CTL", 0xD00000, 0x0, 1, 4, 0, false,
    [⟨.tim .TIME_CTL_DREQ_EN, 16, .rw, true⟩,
    ⟨.tim .TIME_CTL_SRC_PORT, 12, .rw, true⟩,
    ⟨.tim .TIME_CTL_SEL, 8, .rw, true⟩,
    ⟨.tim .TIME_CTL_BCN_TX, 2, .rw, true⟩,
    ⟨.tim .TIME_CTL_STEP_EN, 1, .rw, true⟩,
    ⟨.tim .TIME_CTL_MT_DISC, 0, .rw, true⟩]⟩,
  ⟨"TIME_STATUS", 0xD00004, 0x0, 1, 4, 0, false,
    [⟨.tim .TIME_STATUS_LAST_STATUS, 16, .ro, false⟩,
    ⟨.tim .TIME_STATUS_FT_UNSYNC, 3, .ro, false⟩,
    ⟨.tim .TIME_STATUS_STATE, 0, .ro, false⟩]⟩,
  ⟨"TIME_EVT", 0xD00008, 0x0, 1, 4, 0, false,
    [⟨.tim .TIME_EVT, 0, .w1c, false⟩]⟩,
  ⟨"TIME_INT", 0xD0000C, 0x0, 1, 4, 0, false,
    [⟨.tim .TIME_INT_SRC_TMO, 20, .rw, false⟩,
    ⟨.tim .TIME_INT_DREQ_INT, 10, .rw, false⟩,
    ⟨.tim .TIME_INT_BCN_INT, 0, .rw, false⟩]⟩,
  ⟨"TIME_THR", 0xD00010, 0x0, 1, 4, 0, false,
    [⟨.tim .TIME_THR_STEP_THR, 16, .rw, false⟩,
    ⟨.tim .TIME_THR_LOCK_THR, 0, .rw, false⟩]⟩,
  ⟨"TIME_SERVO", 0xD00014, 0x0, 1, 4, 0, false,
    [⟨.tim .TIME_SERVO_KP, 16, .rw, false⟩,
    ⟨.tim .TIME_SERVO_KI, 0, .rw, false⟩]⟩,
  ⟨"TIME_SNAP", 0xD00018, 0x0, 1, 4, 0, false,
    [⟨.tim .TIME_SNAP, 0, .wo, true⟩]⟩,
  ⟨"MT", 0xD00020, 0x0, 1, 8, 0, false,
    [⟨.tim .MT, 0, .rs, false⟩]⟩,
  ⟨"FT", 0xD00028, 0x0, 1, 8, 0, false,
    [⟨.tim .FT, 0, .rs, true⟩]⟩,
  ⟨"SNAP_MT_T", 0xD00030, 0x0, 1, 8, 0, false,
    [⟨.tim .SNAP_MT_T, 0, .rs, false⟩]⟩,
  ⟨"SNAP_FT", 0xD00038, 0x0, 1, 8, 0, false,
    [⟨.tim .SNAP_FT, 0, .rs, false⟩]⟩,
  ⟨"SNAP_FRAC", 0xD00040, 0x0, 1, 4, 0, false,
    [⟨.tim .SNAP_FRAC, 0, .ro, false⟩]⟩,
  ⟨"FT_OFFSET", 0xD00048, 0x0, 1, 8, 0, false,
    [⟨.tim .FT_OFFSET, 0, .rs, false⟩]⟩,
  ⟨"FT_RATE", 0xD00050, 0x0, 1, 4, 0, false,
    [⟨.tim .FT_RATE, 0, .ro, false⟩]⟩,
  ⟨"MT_RATE", 0xD00054, 0x0, 1, 4, 0, false,
    [⟨.tim .MT_RATE, 0, .ro, false⟩]⟩,
  ⟨"STEP_CNT", 0xD00058, 0x0, 1, 4, 0, false,
    [⟨.tim .STEP_CNT, 0, .ro, false⟩]⟩,
  ⟨"PPS_IGN", 0xD0005C, 0x0, 1, 4, 0, false,
    [⟨.tim .PPS_IGN, 0, .ro, false⟩]⟩,
  ⟨"LINK_DELAY", 0xD00080, 0x4, 6, 4, 0, false,
    [⟨.tim .LINK_DELAY, 0, .ro, false⟩]⟩,
  ⟨"PPS_IN_MT", 0xD000C0, 0x0, 1, 8, 0, false,
    [⟨.tim .PPS_IN_MT, 0, .rs, false⟩]⟩,
  ⟨"PPS_IN_FT", 0xD000C8, 0x0, 1, 8, 0, false,
    [⟨.tim .PPS_IN_FT, 0, .rs, false⟩]⟩,
  ⟨"PPS_IN_COMP", 0xD000D0, 0x0, 1, 4, 0, false,
    [⟨.tim .PPS_IN_COMP, 0, .rw, false⟩]⟩,
  ⟨"PPS_OUT_CFG", 0xD000D4, 0x0, 1, 4, 0, false,
    [⟨.tim .PPS_OUT_CFG_EN, 31, .rw, true⟩,
    ⟨.tim .PPS_OUT_CFG_CLOCK, 30, .rw, true⟩,
    ⟨.tim .PPS_OUT_CFG_CMP, 20, .rw, true⟩,
    ⟨.tim .PPS_OUT_CFG_WIDTH, 0, .rw, true⟩]⟩,
  ⟨"PPS_OUT_OFF", 0xD000D8, 0x0, 1, 4, 0, false,
    [⟨.tim .PPS_OUT_OFF, 0, .rw, false⟩]⟩,
  ⟨"CMP_CTL", 0xD00100, 0x20, 16, 4, 0, false,
    [⟨.tim .CMP_CTL_EN, 31, .rw, true⟩,
    ⟨.tim .CMP_CTL_CLOCK, 30, .rw, true⟩,
    ⟨.tim .CMP_CTL_DROP_IF_LATE, 29, .rw, true⟩,
    ⟨.tim .CMP_CTL_ACT, 28, .rw, true⟩,
    ⟨.tim .CMP_CTL_COUNTER, 0, .rw, true⟩]⟩,
  ⟨"CMP_VALUE", 0xD00104, 0x20, 16, 4, 0, false,
    [⟨.tim .CMP_VALUE, 0, .rw, true⟩]⟩,
  ⟨"CMP_TARGET", 0xD00108, 0x20, 16, 8, 0, false,
    [⟨.tim .CMP_TARGET, 0, .rw, true⟩]⟩,
  ⟨"CMP_PERIOD", 0xD00110, 0x20, 16, 4, 0, false,
    [⟨.tim .CMP_PERIOD, 0, .rw, true⟩]⟩,
  ⟨"CMP_LATE_TOL", 0xD00114, 0x20, 16, 4, 0, false,
    [⟨.tim .CMP_LATE_TOL, 0, .rw, true⟩]⟩,
  ⟨"CMP_STATUS", 0xD00118, 0x20, 16, 4, 0, false,
    [⟨.tim .CMP_STATUS_LAST, 16, .ro, false⟩,
    ⟨.tim .CMP_STATUS_HOLDER, 12, .ro, false⟩,
    ⟨.tim .CMP_STATUS_ARMED, 11, .ro, false⟩,
    ⟨.tim .CMP_STATUS_SKIPPED, 0, .ro, false⟩]⟩,
  ⟨"CMP_CLAIM_STATUS", 0xD00300, 0x0, 1, 4, 0, false,
    [⟨.tim .CMP_CLAIM_STATUS_LAST_STATUS, 16, .ro, false⟩,
    ⟨.tim .CMP_CLAIM_STATUS_INDEX, 8, .ro, false⟩,
    ⟨.tim .CMP_CLAIM_STATUS_HOLDER, 4, .ro, false⟩,
    ⟨.tim .CMP_CLAIM_STATUS_REQUESTER, 0, .ro, false⟩]⟩,
  ⟨"TIME_REL_CTL", 0xD00304, 0x0, 1, 4, 0, false,
    [⟨.tim .TIME_REL_CTL_CMP_MT, 12, .rw, true⟩,
    ⟨.tim .TIME_REL_CTL_EN_MT, 8, .rw, true⟩,
    ⟨.tim .TIME_REL_CTL_CMP_FT, 4, .rw, true⟩,
    ⟨.tim .TIME_REL_CTL_EN_FT, 0, .rw, true⟩]⟩,
  ⟨"TIME_TRIG_CMP", 0xD00308, 0x0, 1, 4, 0, false,
    [⟨.tim .TIME_TRIG_CMP_TRIG1, 4, .rw, false⟩,
    ⟨.tim .TIME_TRIG_CMP_TRIG0, 0, .rw, false⟩]⟩,
  ⟨"REL_COUNT", 0xD0030C, 0x0, 1, 4, 0, false,
    [⟨.tim .REL_COUNT_MT_N, 16, .ro, false⟩,
    ⟨.tim .REL_COUNT_FT_N, 0, .ro, false⟩]⟩,
  ⟨"LATE_CNT", 0xD00310, 0x0, 1, 4, 0, false,
    [⟨.tim .LATE_CNT, 0, .ro, false⟩]⟩,
  ⟨"DROP_CNT", 0xD00314, 0x0, 1, 4, 0, false,
    [⟨.tim .DROP_CNT, 0, .ro, false⟩]⟩,
  ⟨"TRIG_TARGET", 0xD00320, 0x10, 2, 8, 0, false,
    [⟨.tim .TRIG_TARGET, 0, .rw, false⟩]⟩,
  ⟨"TRIG_PERIOD", 0xD00328, 0x10, 2, 4, 0, false,
    [⟨.tim .TRIG_PERIOD, 0, .rw, false⟩]⟩,
  ⟨"TRIG_CLOCK", 0xD0032C, 0x10, 2, 4, 0, false,
    [⟨.tim .TRIG_CLOCK, 0, .rw, false⟩]⟩,
  ⟨"PTP_CFG", 0xD00400, 0x0, 1, 4, 0, false,
    [⟨.tim .PTP_CFG_EN, 31, .rw, true⟩,
    ⟨.tim .PTP_CFG_TRANSPORT, 29, .rw, true⟩,
    ⟨.tim .PTP_CFG_DOMAIN, 16, .rw, true⟩,
    ⟨.tim .PTP_CFG_LOG_DREQ, 0, .rw, true⟩]⟩,
  ⟨"PTP_STATUS", 0xD00404, 0x0, 1, 4, 0, false,
    [⟨.tim .PTP_STATUS_PORT_STATE, 0, .ro, false⟩]⟩,
  ⟨"PTP_GM_ID", 0xD00408, 0x0, 1, 8, 0, false,
    [⟨.tim .PTP_GM_ID, 0, .rs, false⟩]⟩]

/-- BAR0 registers of 15_partitions_and_security.md. -/
def secMap : List RegRow :=
  [⟨"SEC_STATUS", 0xF00000, 0x0, 1, 4, 0, false,
    [⟨.sec .SEC_STATUS_LAST_CAUSE, 16, .ro, false⟩,
    ⟨.sec .SEC_STATUS_SOLO, 2, .ro, false⟩,
    ⟨.sec .SEC_STATUS_CO_AUTH, 1, .ro, false⟩,
    ⟨.sec .SEC_STATUS_APPROVED, 0, .ro, false⟩]⟩,
  ⟨"SEC_CTL", 0xF00004, 0x0, 1, 4, 0, false,
    [⟨.sec .SEC_CTL, 0, .wo, true⟩]⟩,
  ⟨"SEC_EVT", 0xF00008, 0x0, 1, 4, 0, false,
    [⟨.sec .SEC_EVT, 0, .w1c, false⟩]⟩,
  ⟨"SEC_CFG", 0xF0000C, 0x0, 1, 4, 0, false,
    [⟨.sec .SEC_CFG_IDE_REQ, 1, .rwl, false⟩,
    ⟨.sec .SEC_CFG_ARB_AUTO, 0, .rwl, false⟩]⟩,
  ⟨"FW_VERSION", 0xF00010, 0x0, 1, 4, 0, false,
    [⟨.sec .FW_VERSION, 0, .ro, false⟩]⟩,
  ⟨"ARB_STATUS", 0xF00014, 0x0, 1, 4, 0, false,
    [⟨.sec .ARB_STATUS_SVN, 8, .ro, false⟩,
    ⟨.sec .ARB_STATUS_ARB, 0, .ro, false⟩]⟩,
  ⟨"PART_CTL", 0xF00100, 0x20, 64, 4, 0, false,
    [⟨.sec .PART_CTL_LAST_STATUS, 16, .ro, false⟩,
    ⟨.sec .PART_CTL_STATE, 4, .ro, false⟩,
    ⟨.sec .PART_CTL_RELEASE, 1, .wo, true⟩,
    ⟨.sec .PART_CTL_GO, 0, .wo, true⟩]⟩,
  ⟨"PART_KEYS", 0xF00108, 0x20, 64, 4, 0, false,
    [⟨.sec .PART_KEYS_EGR_GEN, 16, .ro, false⟩,
    ⟨.sec .PART_KEYS_PRESENT, 0, .ro, false⟩]⟩,
  ⟨"PART_SHR", 0xF0010C, 0x20, 64, 4, 0, false,
    [⟨.sec .PART_SHR_MASK, 0, .rw, true⟩]⟩,
  ⟨"PART_HBM0", 0xF00110, 0x20, 64, 8, 0, false,
    [⟨.sec .PART_HBM0_BASE, 32, .rw, true⟩,
    ⟨.sec .PART_HBM0_SIZE, 0, .rw, true⟩]⟩,
  ⟨"PART_HBM1", 0xF00118, 0x20, 64, 8, 0, false,
    [⟨.sec .PART_HBM1_BASE, 32, .rw, true⟩,
    ⟨.sec .PART_HBM1_SIZE, 0, .rw, true⟩]⟩,
  ⟨"PART_CORES", 0xF01000, 0x8, 512, 8, 0, false,
    [⟨.sec .PART_CORES, 0, .rw, true⟩]⟩,
  ⟨"SHR", 0xF02000, 0x8, 8, 8, 0, false,
    [⟨.sec .SHR_V, 63, .rw, true⟩,
    ⟨.sec .SHR_BASE, 32, .rw, true⟩,
    ⟨.sec .SHR_SIZE, 0, .rw, true⟩]⟩,
  ⟨"KIMP_CTL", 0xF03000, 0x0, 1, 4, 0, false,
    [⟨.sec .KIMP_CTL_LAST_STATUS, 16, .ro, false⟩,
    ⟨.sec .KIMP_CTL_PARTY, 8, .rw, true⟩,
    ⟨.sec .KIMP_CTL_CMD, 0, .wo, true⟩]⟩,
  ⟨"KIMP_SEQ", 0xF03004, 0x0, 1, 4, 0, false,
    [⟨.sec .KIMP_SEQ, 0, .ro, false⟩]⟩,
  ⟨"KIMP_PUB", 0xF03040, 0x4, 24, 4, 0, false,
    [⟨.sec .KIMP_PUB, 0, .ro, false⟩]⟩,
  ⟨"KIMP_SIG", 0xF030A0, 0x4, 24, 4, 0, false,
    [⟨.sec .KIMP_SIG, 0, .ro, false⟩]⟩,
  ⟨"KIMP_PEER", 0xF03100, 0x4, 24, 4, 0, false,
    [⟨.sec .KIMP_PEER, 0, .rw, false⟩]⟩,
  ⟨"KIMP_WRAP", 0xF03160, 0x4, 10, 4, 0, false,
    [⟨.sec .KIMP_WRAP, 0, .wo, false⟩]⟩,
  ⟨"SEC_FENCE_INFO", 0xF03400, 0x0, 1, 4, 0, false,
    [⟨.sec .SEC_FENCE_INFO_STATUS, 16, .ro, false⟩,
    ⟨.sec .SEC_FENCE_INFO_WRITE, 15, .ro, false⟩,
    ⟨.sec .SEC_FENCE_INFO_SRC, 14, .ro, false⟩,
    ⟨.sec .SEC_FENCE_INFO_PARTITION, 7, .ro, false⟩]⟩,
  ⟨"SEC_FENCE_ADDR", 0xF03408, 0x0, 1, 8, 0, false,
    [⟨.sec .SEC_FENCE_ADDR, 0, .rs, false⟩]⟩,
  ⟨"SEC_FENCE_CNT", 0xF03410, 0x0, 1, 4, 0, false,
    [⟨.sec .SEC_FENCE_CNT, 0, .ro, false⟩]⟩]

/-- Every register of the PF's BAR0 (Table 4.4). -/
def pfMap : List RegRow :=
  pkgMap ++ hostMap ++ descMap ++ pwrMap ++ irqMap ++ bootMap ++ fltMap ++ telMap ++ thmMap ++ coreMap ++ tileMap ++ attnMap ++ kvMap ++ schedMap ++ fabMap ++ collMap ++ egrMap ++ timMap ++ secMap

/-- Every register of a VF's window (Table 4.5) that is held in the register store. -/
def vfMap : List RegRow :=
  hostVfMap ++ descVfMap ++ fltVfMap

/-- The instance of a row that a byte offset names, with the offset inside the register. -/
def RegRow.at? (r : RegRow) (off : Nat) : Option (Nat × Nat) :=
  if off < r.base then none
  else
    let d := off - r.base
    let n := if r.stride = 0 then 0 else d / r.stride
    let o := if r.stride = 0 then d else d % r.stride
    if n < r.count ∧ o < r.bytes then some (n, o) else none

/-- The first row of a map that holds a byte offset, with the instance and the offset inside the register. -/
def lookupReg (m : List RegRow) (off : Nat) : Option (RegRow × Nat × Nat) :=
  m.findSome? fun r => (r.at? off).map fun p => (r, p.1, p.2)

end Sys2Proof.Machine
end

