-- ==== Sys2Proof/Machine/Mem.lean ====
section
/-!
DEFINITION. Machine/Mem.lean: byte memory as a list of (address, byte) pairs in one canonical form, and the decoding of
a device address to its target (R42, Table 1.6).
-/

namespace Sys2Proof.Machine

/-- Memory: the bytes that are not zero, in rising order of their addresses. -/
abbrev Memory := List Host.Cell

/-- What an address that nothing has written reads as: zero (log entry 1). -/
def Memory.unlisted : Byte := 0

/-- One byte of memory. -/
def Memory.read (m : Memory) (a : Nat) : Byte :=
  match m.find? (fun c => decide (c.1 = a)) with
  | some c => c.2
  | none => Memory.unlisted

/-- A cell put at its place in the order. -/
def Memory.ins : Memory → Host.Cell → Memory
  | [], c => [c]
  | d :: r, c => if c.1 < d.1 then c :: d :: r else d :: Memory.ins r c

/-- Memory with one byte written. -/
def Memory.write (m : Memory) (a : Nat) (b : Byte) : Memory :=
  let m' := m.filter fun c => decide (c.1 ≠ a)
  if b = Memory.unlisted then m' else Memory.ins m' (a, b)

/-- The canonical form: addresses strictly rising, and no byte equal to what an unlisted address reads as. -/
def Memory.wf (m : Memory) : Bool :=
  m.all (fun c => decide (c.2 ≠ Memory.unlisted)) && decide (m.Pairwise fun a b => a.1 < b.1)

/-- `n` bytes from an address, lowest address first. -/
def Memory.readN (m : Memory) (a : Nat) : Nat → List Byte
  | 0 => []
  | n + 1 => m.read a :: Memory.readN m (a + 1) n

/-- Bytes written from an address upward, lowest address first. -/
def Memory.writeN (m : Memory) (a : Nat) : List Byte → Memory
  | [] => m
  | b :: r => Memory.writeN (m.write a b) (a + 1) r

/-- A little-endian number of `n` bytes at an address. -/
def Memory.readLE (m : Memory) (a n : Nat) : Nat := leNat (m.readN a n)

/-- Memory with every byte of the range `[lo, lo + len)` cleared. -/
def Memory.clearRange (m : Memory) (lo len : Nat) : Memory :=
  m.filter fun c => decide (c.1 < lo ∨ lo + len ≤ c.1)

/-- Memory with the bytes of a range replaced by the bytes that a function gives. -/
def Memory.fill (m : Memory) (lo len : Nat) (f : Nat → Nat) : Memory :=
  (m.filter fun c => decide (c.1 < lo)) ++
    ((List.range len).filterMap fun i =>
      let b : Byte := BitVec.ofNat 8 (f i)
      if b = Memory.unlisted then none else some (lo + i, b)) ++
    m.filter fun c => decide (lo + len ≤ c.1)

/-- Bit 63 of a device address: host memory (Table 1.6). -/
def hostBit : Nat := 2 ^ 63

/-- The targets of Table 1.6. -/
inductive Target where
  | hbm (stack : Half)
  | scratch (core : Nat) (off : Nat)
  | host
  | hole
deriving DecidableEq, Repr

/-- The target of a device address (R42). The scratchpad window's offsets 0x18_0000 to 0x1F_FFFF are a hole. -/
def targetOf (a : Nat) : Target :=
  if a < 0x600000000 then .hbm .h0
  else if a < 0x800000000 then .hole
  else if a < 0xE00000000 then .hbm .h1
  else if a < 0x1000000000 then .hole
  else if a < 0x1040000000 then
    let d := a - 0x1000000000
    if d % 0x200000 < 0x180000 then .scratch (d / 0x200000) (d % 0x200000) else .hole
  else if a < hostBit then .hole
  else if a < 2 ^ 64 then .host
  else .hole

/-- The first address of a core's scratchpad window (R42). -/
def scratchBase (core : Nat) : Nat := 0x1000000000 + core * 0x200000

/-- The first address of an HBM stack. -/
def hbmBase : Half → Nat
  | .h0 => 0
  | .h1 => 0x800000000

/-- The size of an HBM stack in bytes: 24 GB. -/
def hbmSize : Nat := 0x600000000

end Sys2Proof.Machine
end

