-- ==== Sys2Proof/Machine/Status.lean ====
section
/-!
DEFINITION. Machine/Status.lean: the status codes of Table 19.3 (R585), under the names the spec gives them, and the
classes of R20 and R21 that decide what a status means.
-/

namespace Sys2Proof.Machine

/-- ST_OK (Table 19.3); effect R. -/
abbrev ST_OK : Nat := 0x0000
/-- ST_LATE (Table 19.3); effect R. -/
abbrev ST_LATE : Nat := 0x1001
/-- ST_LATE_DROPPED (Table 19.3); effect N. -/
abbrev ST_LATE_DROPPED : Nat := 0x1002
/-- ST_TIME_NO_CMP (Table 19.3); effect N. -/
abbrev ST_TIME_NO_CMP : Nat := 0x1005
/-- ST_TIME_STEP (Table 19.3); effect E. -/
abbrev ST_TIME_STEP : Nat := 0x1010
/-- ST_CANCELLED (Table 19.3); effect N if not admitted; P if admitted; E for a withdrawn plateau change. -/
abbrev ST_CANCELLED : Nat := 0x2001
/-- ST_FENCED (Table 19.3); effect N for chains read after the fence; P for requests closed by a release. -/
abbrev ST_FENCED : Nat := 0x3001
/-- ST_UNIT_LOST (Table 19.3); effect P. -/
abbrev ST_UNIT_LOST : Nat := 0x3002
/-- ST_PASS_DOWN (Table 19.3); effect P. -/
abbrev ST_PASS_DOWN : Nat := 0x3004
/-- ST_PASS_TRAIN (Table 19.3); effect E. -/
abbrev ST_PASS_TRAIN : Nat := 0x3005
/-- ST_PASS_STATE (Table 19.3); effect C. -/
abbrev ST_PASS_STATE : Nat := 0x3007
/-- ST_PASS_UP (Table 19.3); effect E. -/
abbrev ST_PASS_UP : Nat := 0x3008
/-- ST_AUX_NO_ROLE (Table 19.3); effect C. -/
abbrev ST_AUX_NO_ROLE : Nat := 0x3010
/-- ST_FAB_RANGE (Table 19.3); effect P. -/
abbrev ST_FAB_RANGE : Nat := 0x3020
/-- ST_PORT_DOWN (Table 19.3); effect P. -/
abbrev ST_PORT_DOWN : Nat := 0x3021
/-- ST_FAB_UNREACH (Table 19.3); effect P. -/
abbrev ST_FAB_UNREACH : Nat := 0x3022
/-- ST_PORT_STATE (Table 19.3); effect E. -/
abbrev ST_PORT_STATE : Nat := 0x3023
/-- ST_ID_RANGE (Table 19.3); effect C. -/
abbrev ST_ID_RANGE : Nat := 0x4002
/-- ST_CONFLICT (Table 19.3); effect C. -/
abbrev ST_CONFLICT : Nat := 0x4010
/-- ST_POOL_CONFIG (Table 19.3); effect C. -/
abbrev ST_POOL_CONFIG : Nat := 0x4020
/-- ST_POOL_BUSY (Table 19.3); effect C. -/
abbrev ST_POOL_BUSY : Nat := 0x4021
/-- ST_PWM_RANGE (Table 19.3); effect C. -/
abbrev ST_PWM_RANGE : Nat := 0x4030
/-- ST_PWM_OWNED (Table 19.3); effect C. -/
abbrev ST_PWM_OWNED : Nat := 0x4031
/-- ST_THERM_CONFIG (Table 19.3); effect C. -/
abbrev ST_THERM_CONFIG : Nat := 0x4032
/-- ST_RING_BUSY (Table 19.3); effect C. -/
abbrev ST_RING_BUSY : Nat := 0x4040
/-- ST_RING_CONFIG (Table 19.3); effect C. -/
abbrev ST_RING_CONFIG : Nat := 0x4041
/-- ST_PIN_EXHAUSTED (Table 19.3); effect C. -/
abbrev ST_PIN_EXHAUSTED : Nat := 0x4042
/-- ST_DESC_OPCODE (Table 19.3); effect N. -/
abbrev ST_DESC_OPCODE : Nat := 0x4050
/-- ST_DESC_FIELD (Table 19.3); effect N. -/
abbrev ST_DESC_FIELD : Nat := 0x4051
/-- ST_DESC_EXT (Table 19.3); effect N. -/
abbrev ST_DESC_EXT : Nat := 0x4052
/-- ST_DESC_CLASS (Table 19.3); effect N. -/
abbrev ST_DESC_CLASS : Nat := 0x4053
/-- ST_DESC_REQUEST (Table 19.3); effect N. -/
abbrev ST_DESC_REQUEST : Nat := 0x4054
/-- ST_DESC_EVENT (Table 19.3); effect N. -/
abbrev ST_DESC_EVENT : Nat := 0x4055
/-- ST_DESC_ALIGN (Table 19.3); effect N. -/
abbrev ST_DESC_ALIGN : Nat := 0x4056
/-- ST_DESC_PRIV (Table 19.3); effect N. -/
abbrev ST_DESC_PRIV : Nat := 0x4057
/-- ST_REQ_CLOSED (Table 19.3); effect N. -/
abbrev ST_REQ_CLOSED : Nat := 0x4058
/-- ST_DESC_RECORDS (Table 19.3); effect N. -/
abbrev ST_DESC_RECORDS : Nat := 0x4059
/-- ST_GROUP_ENTRY (Table 19.3); effect N for the entry. -/
abbrev ST_GROUP_ENTRY : Nat := 0x405A
/-- ST_ALLOC_CONFIG (Table 19.3); effect C. -/
abbrev ST_ALLOC_CONFIG : Nat := 0x4060
/-- ST_CORE_BUSY (Table 19.3); effect C. -/
abbrev ST_CORE_BUSY : Nat := 0x4070
/-- ST_CORE_CONFIG (Table 19.3); effect C. -/
abbrev ST_CORE_CONFIG : Nat := 0x4071
/-- ST_NEST_FORMAT (Table 19.3); effect N. -/
abbrev ST_NEST_FORMAT : Nat := 0x4080
/-- ST_ATTN_FIT (Table 19.3); effect N at dispatch; C for ATTN_RULE. -/
abbrev ST_ATTN_FIT : Nat := 0x4090
/-- ST_ATTN_TREE (Table 19.3); effect N. -/
abbrev ST_ATTN_TREE : Nat := 0x4091
/-- ST_ATTN_MASK (Table 19.3); effect P. -/
abbrev ST_ATTN_MASK : Nat := 0x4092
/-- ST_ATTN_POS (Table 19.3); effect N. -/
abbrev ST_ATTN_POS : Nat := 0x4093
/-- ST_KV_MAP (Table 19.3); effect N. -/
abbrev ST_KV_MAP : Nat := 0x40A0
/-- ST_KV_STATE (Table 19.3); effect N; P for an ATTN_RING guest page. -/
abbrev ST_KV_STATE : Nat := 0x40A1
/-- ST_KV_PAUSED (Table 19.3); effect P. -/
abbrev ST_KV_PAUSED : Nat := 0x40A2
/-- ST_KV_CONFIG (Table 19.3); effect C. -/
abbrev ST_KV_CONFIG : Nat := 0x40A3
/-- ST_ADAPTER_SLOT (Table 19.3); effect N. -/
abbrev ST_ADAPTER_SLOT : Nat := 0x40B0
/-- ST_ADAPTER_EMPTY (Table 19.3); effect N. -/
abbrev ST_ADAPTER_EMPTY : Nat := 0x40B1
/-- ST_ADAPTER_FIT (Table 19.3); effect N. -/
abbrev ST_ADAPTER_FIT : Nat := 0x40B2
/-- ST_GEN_TOKEN (Table 19.3); effect N for the sequence. -/
abbrev ST_GEN_TOKEN : Nat := 0x40B8
/-- ST_GEN_HEAD (Table 19.3); effect N. -/
abbrev ST_GEN_HEAD : Nat := 0x40B9
/-- ST_SCHED_CONFIG (Table 19.3); effect C; N at admission. -/
abbrev ST_SCHED_CONFIG : Nat := 0x40C0
/-- ST_FAB_CONFIG (Table 19.3); effect C. -/
abbrev ST_FAB_CONFIG : Nat := 0x40D0
/-- ST_FAB_BUSY (Table 19.3); effect C. -/
abbrev ST_FAB_BUSY : Nat := 0x40D1
/-- ST_COLL_CONFIG (Table 19.3); effect C. -/
abbrev ST_COLL_CONFIG : Nat := 0x40E0
/-- ST_EGR_CONFIG (Table 19.3); effect C. -/
abbrev ST_EGR_CONFIG : Nat := 0x40F0
/-- ST_EGR_BUSY (Table 19.3); effect C. -/
abbrev ST_EGR_BUSY : Nat := 0x40F1
/-- ST_SHIP_PLAN (Table 19.3); effect N. -/
abbrev ST_SHIP_PLAN : Nat := 0x40F2
/-- ST_STREAM_STATE (Table 19.3); effect N. -/
abbrev ST_STREAM_STATE : Nat := 0x40F3
/-- ST_STREAM_FULL (Table 19.3); effect N. -/
abbrev ST_STREAM_FULL : Nat := 0x40F4
/-- ST_TIME_CONFIG (Table 19.3); effect C. -/
abbrev ST_TIME_CONFIG : Nat := 0x4100
/-- ST_PART_STATE (Table 19.3); effect C. -/
abbrev ST_PART_STATE : Nat := 0x4110
/-- ST_PART_CONFIG (Table 19.3); effect C. -/
abbrev ST_PART_CONFIG : Nat := 0x4111
/-- ST_FLT_CONFIG (Table 19.3); effect C. -/
abbrev ST_FLT_CONFIG : Nat := 0x4120
/-- ST_FLT_BUSY (Table 19.3); effect C. -/
abbrev ST_FLT_BUSY : Nat := 0x4121
/-- ST_TEL_CONFIG (Table 19.3); effect C. -/
abbrev ST_TEL_CONFIG : Nat := 0x4130
/-- ST_LDG_NOREC (Table 19.3); effect N; zeros returned. -/
abbrev ST_LDG_NOREC : Nat := 0x4131
/-- ST_LDG_PENDING (Table 19.3); effect R. -/
abbrev ST_LDG_PENDING : Nat := 0x4133
/-- ST_ADDR_INVALID (Table 19.3); effect P. -/
abbrev ST_ADDR_INVALID : Nat := 0x5001
/-- ST_SCRATCH_FENCE (Table 19.3); effect P. -/
abbrev ST_SCRATCH_FENCE : Nat := 0x5003
/-- ST_HBM_FENCE (Table 19.3); effect P. -/
abbrev ST_HBM_FENCE : Nat := 0x5004
/-- ST_KV_ABSENT (Table 19.3); effect P. -/
abbrev ST_KV_ABSENT : Nat := 0x5010
/-- ST_KV_NOSLOT (Table 19.3); effect P; N for REQ_OPEN. -/
abbrev ST_KV_NOSLOT : Nat := 0x5011
/-- ST_VALLEY_FULL (Table 19.3); effect N. -/
abbrev ST_VALLEY_FULL : Nat := 0x5012
/-- ST_KV_GUEST (Table 19.3); effect P. -/
abbrev ST_KV_GUEST : Nat := 0x5013
/-- ST_PFX_FULL (Table 19.3); effect P; nodes inserted so far stand. -/
abbrev ST_PFX_FULL : Nat := 0x5015
/-- ST_PAUSE_SPACE (Table 19.3); effect N. -/
abbrev ST_PAUSE_SPACE : Nat := 0x5016
/-- ST_COLL_TIMEOUT (Table 19.3); effect P; DST undefined. -/
abbrev ST_COLL_TIMEOUT : Nat := 0x6001
/-- ST_COLL_EPOCH (Table 19.3); effect N. -/
abbrev ST_COLL_EPOCH : Nat := 0x6003
/-- ST_COLL_GROUP (Table 19.3); effect N. -/
abbrev ST_COLL_GROUP : Nat := 0x6004
/-- ST_ECC_UNCORR (Table 19.3); effect P. -/
abbrev ST_ECC_UNCORR : Nat := 0x7002
/-- ST_HBM_TRAIN (Table 19.3); effect E. -/
abbrev ST_HBM_TRAIN : Nat := 0x7010
/-- ST_DIE_LINK (Table 19.3); effect E. -/
abbrev ST_DIE_LINK : Nat := 0x7011
/-- ST_HOST_LINK_DOWN (Table 19.3); effect P. -/
abbrev ST_HOST_LINK_DOWN : Nat := 0x7020
/-- ST_HOST_ACCESS (Table 19.3); effect P. -/
abbrev ST_HOST_ACCESS : Nat := 0x7021
/-- ST_EGR_DOWN (Table 19.3); effect P. -/
abbrev ST_EGR_DOWN : Nat := 0x7030
/-- ST_SHIP_NOACK (Table 19.3); effect P. -/
abbrev ST_SHIP_NOACK : Nat := 0x7031
/-- ST_SHIP_REFUSED (Table 19.3); effect P. -/
abbrev ST_SHIP_REFUSED : Nat := 0x7032
/-- ST_SMB_STUCK (Table 19.3); effect E. -/
abbrev ST_SMB_STUCK : Nat := 0x7040
/-- ST_KEY_MISSING (Table 19.3); effect N. -/
abbrev ST_KEY_MISSING : Nat := 0x8003
/-- ST_KEY_MIRROR (Table 19.3); effect C. -/
abbrev ST_KEY_MIRROR : Nat := 0x8004
/-- ST_KEY_IMPORT (Table 19.3); effect C. -/
abbrev ST_KEY_IMPORT : Nat := 0x8005
/-- ST_BOOT_AUTH (Table 19.3); effect E. -/
abbrev ST_BOOT_AUTH : Nat := 0x8010
/-- ST_SELFTEST_FAIL (Table 19.3); effect E. -/
abbrev ST_SELFTEST_FAIL : Nat := 0x8011
/-- ST_TAMPER (Table 19.3); effect E. -/
abbrev ST_TAMPER : Nat := 0x8012
/-- ST_FW_MEASURE (Table 19.3); effect E. -/
abbrev ST_FW_MEASURE : Nat := 0x8013
/-- ST_VALLEY_AUTH (Table 19.3); effect P. -/
abbrev ST_VALLEY_AUTH : Nat := 0x8020
/-- ST_FAB_REMOTE (Table 19.3); effect C. -/
abbrev ST_FAB_REMOTE : Nat := 0x8030
/-- ST_NOT_APPROVED (Table 19.3); effect C. -/
abbrev ST_NOT_APPROVED : Nat := 0x8040
/-- ST_CO_AUTH (Table 19.3); effect C. -/
abbrev ST_CO_AUTH : Nat := 0x8041
/-- ST_IDE_REQUIRED (Table 19.3); effect C. -/
abbrev ST_IDE_REQUIRED : Nat := 0x8042
/-- ST_BUDGET_WAIT (Table 19.3); effect R. -/
abbrev ST_BUDGET_WAIT : Nat := 0x9001
/-- ST_BUDGET_DEBT (Table 19.3); effect R. -/
abbrev ST_BUDGET_DEBT : Nat := 0x9002
/-- ST_PLATEAU_CHANGE (Table 19.3); effect E. -/
abbrev ST_PLATEAU_CHANGE : Nat := 0xA001
/-- ST_PLATEAU_BUSY (Table 19.3); effect C. -/
abbrev ST_PLATEAU_BUSY : Nat := 0xA002
/-- ST_THERM_NOT_RUN (Table 19.3); effect C. -/
abbrev ST_THERM_NOT_RUN : Nat := 0xA003
/-- ST_THERM_MANUAL (Table 19.3); effect C. -/
abbrev ST_THERM_MANUAL : Nat := 0xA004
/-- ST_PLATEAU_RANGE (Table 19.3); effect C. -/
abbrev ST_PLATEAU_RANGE : Nat := 0xA005
/-- ST_SETTLE_TIMEOUT (Table 19.3); effect E. -/
abbrev ST_SETTLE_TIMEOUT : Nat := 0xA006
/-- ST_PLL_LOCK (Table 19.3); effect E: a plateau change withdrawn, or a start-up held at P2. -/
abbrev ST_PLL_LOCK : Nat := 0xA007
/-- ST_CTX_RESET (Table 19.3); effect P. -/
abbrev ST_CTX_RESET : Nat := 0xB001
/-- ST_ENGINE_RESET (Table 19.3); effect P. -/
abbrev ST_ENGINE_RESET : Nat := 0xB002
/-- ST_PART_RESET (Table 19.3); effect P. -/
abbrev ST_PART_RESET : Nat := 0xB003
/-- ST_CHIP_RESET (Table 19.3); effect P. -/
abbrev ST_CHIP_RESET : Nat := 0xB004
/-- ST_RING_WDT (Table 19.3); effect E. -/
abbrev ST_RING_WDT : Nat := 0xB005
/-- ST_LOWLAND (Table 19.3); effect N if not admitted; P if admitted. -/
abbrev ST_LOWLAND : Nat := 0xB010
/-- ST_LOWLAND_HOLD (Table 19.3); effect C. -/
abbrev ST_LOWLAND_HOLD : Nat := 0xB011
/-- ST_LOWLAND_LOCKED (Table 19.3); effect C. -/
abbrev ST_LOWLAND_LOCKED : Nat := 0xB012
/-- ST_FLR (Table 19.3); effect P. -/
abbrev ST_FLR : Nat := 0xB020
/-- ST_MC_TAKEOVER (Table 19.3); effect E. -/
abbrev ST_MC_TAKEOVER : Nat := 0xB030
/-- ST_MC_RESTART (Table 19.3); effect E. -/
abbrev ST_MC_RESTART : Nat := 0xB031
/-- ST_TRAY_CYCLE (Table 19.3); effect E. -/
abbrev ST_TRAY_CYCLE : Nat := 0xB040

/-- The class of a status (R20). -/
def statusClass (st : Nat) : Nat := st / 4096

/-- A status after which a chain signals its counter without SIG_ON_ERR: ST_OK, ST_LATE or class 0x9 (R196). -/
def statusGood (st : Nat) : Bool := st == ST_OK || st == ST_LATE || statusClass st == 9

/-- Every code the device issues (Table 19.3). -/
def statusCodes : List Nat :=
  [ST_OK, ST_LATE, ST_LATE_DROPPED, ST_TIME_NO_CMP, ST_TIME_STEP,
   ST_CANCELLED, ST_FENCED, ST_UNIT_LOST, ST_PASS_DOWN, ST_PASS_TRAIN,
   ST_PASS_STATE, ST_PASS_UP, ST_AUX_NO_ROLE, ST_FAB_RANGE, ST_PORT_DOWN,
   ST_FAB_UNREACH, ST_PORT_STATE, ST_ID_RANGE, ST_CONFLICT, ST_POOL_CONFIG,
   ST_POOL_BUSY, ST_PWM_RANGE, ST_PWM_OWNED, ST_THERM_CONFIG, ST_RING_BUSY,
   ST_RING_CONFIG, ST_PIN_EXHAUSTED, ST_DESC_OPCODE, ST_DESC_FIELD, ST_DESC_EXT,
   ST_DESC_CLASS, ST_DESC_REQUEST, ST_DESC_EVENT, ST_DESC_ALIGN, ST_DESC_PRIV,
   ST_REQ_CLOSED, ST_DESC_RECORDS, ST_GROUP_ENTRY, ST_ALLOC_CONFIG, ST_CORE_BUSY,
   ST_CORE_CONFIG, ST_NEST_FORMAT, ST_ATTN_FIT, ST_ATTN_TREE, ST_ATTN_MASK,
   ST_ATTN_POS, ST_KV_MAP, ST_KV_STATE, ST_KV_PAUSED, ST_KV_CONFIG,
   ST_ADAPTER_SLOT, ST_ADAPTER_EMPTY, ST_ADAPTER_FIT, ST_GEN_TOKEN, ST_GEN_HEAD,
   ST_SCHED_CONFIG, ST_FAB_CONFIG, ST_FAB_BUSY, ST_COLL_CONFIG, ST_EGR_CONFIG,
   ST_EGR_BUSY, ST_SHIP_PLAN, ST_STREAM_STATE, ST_STREAM_FULL, ST_TIME_CONFIG,
   ST_PART_STATE, ST_PART_CONFIG, ST_FLT_CONFIG, ST_FLT_BUSY, ST_TEL_CONFIG,
   ST_LDG_NOREC, ST_LDG_PENDING, ST_ADDR_INVALID, ST_SCRATCH_FENCE, ST_HBM_FENCE,
   ST_KV_ABSENT, ST_KV_NOSLOT, ST_VALLEY_FULL, ST_KV_GUEST, ST_PFX_FULL,
   ST_PAUSE_SPACE, ST_COLL_TIMEOUT, ST_COLL_EPOCH, ST_COLL_GROUP, ST_ECC_UNCORR,
   ST_HBM_TRAIN, ST_DIE_LINK, ST_HOST_LINK_DOWN, ST_HOST_ACCESS, ST_EGR_DOWN,
   ST_SHIP_NOACK, ST_SHIP_REFUSED, ST_SMB_STUCK, ST_KEY_MISSING, ST_KEY_MIRROR,
   ST_KEY_IMPORT, ST_BOOT_AUTH, ST_SELFTEST_FAIL, ST_TAMPER, ST_FW_MEASURE,
   ST_VALLEY_AUTH, ST_FAB_REMOTE, ST_NOT_APPROVED, ST_CO_AUTH, ST_IDE_REQUIRED,
   ST_BUDGET_WAIT, ST_BUDGET_DEBT, ST_PLATEAU_CHANGE, ST_PLATEAU_BUSY, ST_THERM_NOT_RUN,
   ST_THERM_MANUAL, ST_PLATEAU_RANGE, ST_SETTLE_TIMEOUT, ST_PLL_LOCK, ST_CTX_RESET,
   ST_ENGINE_RESET, ST_PART_RESET, ST_CHIP_RESET, ST_RING_WDT, ST_LOWLAND,
   ST_LOWLAND_HOLD, ST_LOWLAND_LOCKED, ST_FLR, ST_MC_TAKEOVER, ST_MC_RESTART,
   ST_TRAY_CYCLE]

end Sys2Proof.Machine
end

