-- ==== Sys2Proof/Machine/Store.lean ====
section
/-!
DEFINITION. Machine/Store.lean: the register store. It holds one value for every `Key`, kept as a list of the cells that
differ from their reset values, in rising order of the cells' numbers, so that equal register files are equal data.
-/

namespace Sys2Proof.Machine

/-- A cell of the register store with its value. -/
structure RegCell where
  key : Key
  val : Nat
deriving DecidableEq, Repr

/-- The register store: the cells that do not hold their reset value. -/
abbrev RegFile := List RegCell

/-- The value of a cell: the listed value, else the reset value. -/
def RegFile.get (r : RegFile) (k : Key) : Nat :=
  match r.find? (fun c => decide (c.key = k)) with
  | some c => c.val
  | none => k.reset

/-- A cell put at its place in the order. -/
def RegFile.ins : RegFile → RegCell → RegFile
  | [], c => [c]
  | d :: r, c => if c.key.code < d.key.code then c :: d :: r else d :: RegFile.ins r c

/-- The store with a cell given a value, cut to the cell's width; a cell given its reset value is no longer listed. -/
def RegFile.put (r : RegFile) (k : Key) (v : Nat) : RegFile :=
  let r' := r.filter fun c => decide (c.key ≠ k)
  if v % 2 ^ k.width = k.reset then r' else RegFile.ins r' ⟨k, v % 2 ^ k.width⟩

/-- The canonical form of the store: cells in strictly rising order, each within its width and away from its reset
value. -/
def RegFile.wf (r : RegFile) : Bool :=
  r.all (fun c => decide (c.val < 2 ^ c.key.width) && decide (c.val ≠ c.key.reset)) &&
    decide (r.Pairwise fun a b => a.key.code < b.key.code)

end Sys2Proof.Machine
end

