-- ==== Sys2Proof/Machine/State.lean ====
section
/-!
DEFINITION. Machine/State.lean: everything the spec gives the machine, as plain data: the register store, memory, the
queues of the engines, the records in flight, what has left on the ports, and the queue of waiting commands.
-/

namespace Sys2Proof.Machine

/-- Reasons for which the machine would stop with a fault. -/
inductive Fault
deriving DecidableEq, Repr

/-- Reasons for which the model refuses a command. -/
inductive Refusal where
  /-- Raised by Machine/Dispatch.lean alone, for a command that has no meaning yet. Safe. -/
  | notModelled (mnemonic : String)
deriving DecidableEq, Repr

/-- A descriptor read in progress, or read and not yet taken by the scheduler (R153, R154, R160): `count` entries from
index `first` of a ring, with their bytes once the read has returned. -/
structure Fetch where
  half : Half
  ring : Nat
  first : Nat
  count : Nat
  data : Option (List Byte)
  /-- completion records reserved for it before its chain is taken up (R163) -/
  reserved : Nat
  /-- MT at which the read was issued (R549) -/
  mt : Nat
deriving DecidableEq, Repr

/-- Where a chain stands between its reading and its final record (Table 5.1). -/
inductive Stage where
  /-- waits for its event counter (R195) -/
  | waiting
  /-- holds an entry of a release list (R475) -/
  | timed
  /-- eligible: its wait and its release are over -/
  | eligible
  /-- selected and queued for admission (R336) -/
  | queued
  /-- admitted (R338) -/
  | admitted
deriving DecidableEq, Repr

/-- What a range has come to: the unit, the range, each row's max and sum, and the accumulator. A ring's ranges are kept so from step to
step (R278); a range of the last step stays in its context until the combining context calls for it (R275). -/
structure Kept where
  unit : Nat
  range : Nat
  /-- the ring steps folded so far (R278) -/
  step : Nat
  stats : List (Nat × Nat)
  acc : List Nat
deriving DecidableEq, Repr

/-- A piece of an attention chain's work (R273, R274): a range of a unit, the number of the unit's ranges, and its mode. -/
structure AttnItem where
  unit : Nat
  range : Nat
  ranges : Nat
  composed : Bool
deriving DecidableEq, Repr

/-- A foreign page of an ATTN_RING chain (R305, R407): the step during which it arrives, its index in the block, its place in the
page map, its fill, the bytes received so far, and whether it has been placed in its guest slot. -/
structure RingPage where
  step : Nat
  seg : Nat
  page : Nat
  head : Nat
  fill : Nat
  got : List (Nat × List Byte)
  placed : Bool
deriving DecidableEq, Repr

/-- A step of a GEN_STEP in progress (R347 to R349): the status of its budget gate, the sequences that produce output, the number
that stopped at it, and the sequences that failed in it with their status. -/
structure GenStep where
  status : Nat
  seqs : List Nat
  stops : Nat
  fails : List (Nat × Nat)
deriving DecidableEq, Repr

/-- A chain that has been read and has not written its final record (§5.2). -/
structure Chain where
  half : Half
  ring : Nat
  seq : Nat
  /-- order of reading on the half (R202, R203) -/
  readNo : Nat
  head : List Byte
  exts : List (List Byte)
  stage : Stage
  /-- records reserved on the completion ring and not yet written (R163) -/
  reserved : Nat
  /-- status the chain carries so far -/
  status : Nat
  /-- DETAIL of its kind 0 record so far (R189) -/
  detail : Nat
  /-- context that a status names -/
  ctx : Option Nat
  /-- marked by a cancellation: its output is dropped (R351, R352) -/
  cancelled : Bool
  /-- its work has ended: the final record may be written -/
  done : Bool
  /-- judged late (R477) -/
  late : Bool
  /-- work done so far: entries, steps or items -/
  progress : Nat
  /-- BARRIER: ring and PI of each ring in the mask (R188) -/
  snap : List (Nat × Nat)
  readMt : Nat
  admitMt : Nat
  /-- the ring watchdog has fired for this head (R513) -/
  wdtFired : Bool
  /-- entries of a problem group or steps that failed, with their index and status (R192) -/
  fails : List (Nat × Nat)
  /-- its records leave the device no more (R169) -/
  silent : Bool
  /-- it found its budget gate closed (R341) -/
  gateWait : Bool
  /-- order of entry into the admission queue (R336) -/
  queueNo : Nat
  /-- cores of the half on which it holds an ordinary slot (R338) -/
  cores : List Nat
  /-- its signal may be given: it was not refused, or its counter passed check 7 (R183) -/
  sigOk : Bool
  /-- it is a chain of the request it names: it passed the checks (R183, R204) -/
  ofReq : Bool
  /-- the read of the entry list fails at the block of this entry (§5.7 "At the edges") -/
  listFail : Option Nat
  /-- addresses of the page map entries that received a delivery of mass during the chain (R313) -/
  delivered : List Nat
  /-- problem entries as read (R191) -/
  entries : List (List Byte)
  /-- indices of the entries that are run, in order (R191, R192) -/
  run : List Nat
  /-- next index of its work counter, and whether the counter has stopped (R243, R244) -/
  work : Nat
  stop : Bool
  /-- its loop-nest table has been checked, or its attention work cut (R235, R274) -/
  checked : Bool
  /-- C blocks with the partials written so far (R247) -/
  blocks : List (Nat × Nat)
  /-- finished ranges waiting for their combine (R275) -/
  kept : List Kept
  /-- VERIFY: each draft row's parent (R282); VERIFY and ATTN_RING: each row's position (R277, R283) -/
  tree : List Nat
  rowPos : List Nat
  /-- attention: its items in order (R274) -/
  items : List AttnItem
  /-- ATTN_RING: foreign pages, the steps whose next block has landed whole, and the key blocks announced (R278, R408) -/
  ringPages : List RingPage
  ringWhole : List Nat
  ringKb : List (Nat × Nat)
  /-- ATTN_RING: the running step; units of it acknowledged downstream; units of the next block asked for; pages placed whose
  DONE has been sent -/
  ringStep : Nat
  ringTx : Nat
  ringRx : Nat
  ringAck : Nat
  /-- slots reserved before admission: core of the half and slot (R338) -/
  held : List (Nat × Nat)
  /-- MT of the doorbell that covered it; its first pass has entered the array (R357) -/
  dbMt : Nat
  urgSeen : Bool
  /-- GEN_STEP: its output head table as read at admission, and the step in progress (R346, R347) -/
  table : List Byte
  /-- GEN_STEP: the counter has reached WAIT_VAL + k since the step before k ended (R195, R347) -/
  stepMet : Nat
  gen : Option GenStep
deriving DecidableEq, Repr

/-- A request that is not FREE (R202). `num` is the request number with bit 12 its half. -/
structure Request where
  half : Half
  num : Nat
  closing : Bool
  /-- ring and SEQ of the REQ_OPEN, and its TAG -/
  ring : Nat
  seq : Nat
  tag : Nat
  /-- the REQ_OPEN has been admitted (R330) -/
  admitted : Bool
  pageMap : Nat
  tokens : Nat
  plan : Nat
  adapter : Nat
  maxNew : Nat
  /-- reading order of the REQ_CLOSE or of the device's close (R203) -/
  closeNo : Nat
  /-- status given by the device when it closed the request itself (R204) -/
  devStatus : Option Nat
  /-- first status of a chain that is not ST_OK, ST_LATE or of class 0x9 (R204) -/
  firstBad : Option Nat
  /-- no host write is issued on the request's behalf any more (R169) -/
  silent : Bool
  /-- tokens charged to the party's budget for it -/
  charged : Nat
  openMt : Nat
  /-- the request's pages are paused (R322) -/
  paused : Bool
  /-- the request has been cancelled, or closed as a cancelled one (R351) -/
  cancelled : Bool
  /-- outputs its GEN_STEP chains have produced, and whether it has stopped (R348) -/
  outputs : Nat
  stopped : Bool
  /-- the 128 bytes of the page map's header, kept in the hub (R295) -/
  header : List Byte
  /-- guest slots of its reservation not in use (R294, R305) -/
  guestFree : Nat
  /-- numbers of the directory nodes it references (R318, R321) -/
  nodes : List Nat
  /-- layers whose first append or fold has been issued, and, 4,096 higher, those whose look-ahead has been made (R309) -/
  touched : List Nat
  /-- while the request is paused: its owned pages, by layer, head and page, and whether they are pinned (R325) -/
  pausedPages : List (Nat × Nat × Nat × Bool)
deriving DecidableEq, Repr

/-- A context in a slot of a core (R225): what runs in it and how far it has come. Its slot state is CORE_STATUS.SLOTs. -/
structure Context where
  half : Half
  /-- core of the half, 0 to 255 -/
  core : Nat
  slot : Nat
  ring : Nat
  /-- order of reading of its chain; none for a standing context that waits (R335) -/
  chainNo : Option Nat
  standing : Bool
  /-- rank among the contexts of its chain (R242) -/
  rank : Nat
  /-- the loop-nest table as read at its dispatch (R237) -/
  nest : List Byte
  /-- item it runs, and the item it holds in reserve (R243) -/
  item : Option Nat
  next : Option Nat
  /-- the second table of a FUSED chain (R250) -/
  nest2 : List Byte
  /-- it has been dispatched: its table has been read (R237) -/
  read : Bool
  /-- tile passes of the item's phase that have entered the array, or key blocks of the range that have been looked at -/
  pass : Nat
  /-- tile passes and vector steps in the array that have not drained (R209) -/
  inArray : Nat
  /-- buffer loads in flight and landed: 2 × the running iteration of the level that loads, plus 0 for A and 1 for B -/
  loads : List Nat
  landed : List Nat
  /-- phase 2 of a FUSED item (R252) -/
  phase2 : Bool
  /-- its half of the accumulator store: FP32 values in use (R239) -/
  acc : List Nat
  /-- a C block, a row function or a combine waits for the vector unit, and the rows of it done -/
  vec : Bool
  vrow : Nat
  /-- attention: the converted query rows, row by row (R259) -/
  qv : List Nat
  /-- attention: running max and sum of each row (R262) -/
  stats : List (Nat × Nat)
  /-- it runs no item: it has not begun one, or its last one is done and it waits for its successor's index -/
  idle : Bool
  /-- its fetch of an index is under way (R243) -/
  fetching : Bool
  /-- the problem-group entry of its item (R192) -/
  entry : Option Nat
  /-- its write has completed a block's count, and it combines the block (R247) -/
  comb : Bool
  /-- offset in its core of its last scratchpad access (R517) -/
  lastOff : Nat
  /-- it waits for data: a demand prefetch, a ring block or a halo (R271, R279, R249) -/
  waiting : Bool
  startMt : Nat
  /-- MT of its last boundary, or of its taking the array since (R512) -/
  boundaryMt : Nat
deriving DecidableEq, Repr

/-- A line that a die's cache holds: the die of its half, and the line's address over 128 (R227). -/
structure DieLine where
  half : Half
  die : Nat
  line : Nat
deriving DecidableEq, Repr

/-- A node of the prefix directory (R316, R319): a full node, or a partial leaf of its parent. -/
structure PfxNode where
  half : Half
  idx : Nat
  /-- owner tag of the namespace: 0x80 + partition or 0xC0 + group (R288, R316) -/
  ns : Nat
  hash : Nat
  check : Nat
  parent : Option Nat
  leaf : Bool
  tokens : List Nat
  /-- slot of each page, layer by layer and head by head, and the slots a page takes, as a power of two -/
  slots : List Nat
  slotLog2 : Nat
  /-- slot of the page list of a full node (R320) -/
  listSlot : Option Nat
  refs : Nat
  useMt : Nat
deriving DecidableEq, Repr

/-- A work unit in flight on borrowed granules of the pool (R51, R52): its class, what it works for, the borrowed granules it holds,
how many of them a reclaim takes when it completes, and the MT of that reclaim's request. -/
structure PoolUnit where
  half : Half
  cls : Nat
  tag : UnitTag
  size : Nat
  marked : Nat
  since : Nat
deriving DecidableEq, Repr

/-- A request for granules that is not met yet (R49, R51): the granules still lacking, the unit they are for, whether a reclaim serves
it, and its MT. -/
structure PoolReq where
  half : Half
  cls : Nat
  left : Nat
  unit : Option UnitTag
  reclaim : Bool
  t0 : Nat
deriving DecidableEq, Repr

/-- A spill or a prefetch of a page in progress (R308, R309). -/
structure Transfer where
  half : Half
  spill : Bool
  request : Nat
  /-- the function of the request, and its pages' slots as a power of two: the transfer may outlive the request (R296) -/
  fn : Nat
  log2 : Nat
  layer : Nat
  head : Nat
  page : Nat
  slot : Nat
  vidx : Nat
  /-- 0 demand, 1 explicit or pin, 2 look-ahead (R309) -/
  prio : Nat
  /-- generation of the Valley copy that is read (R311) -/
  gen : Nat
  /-- chains that wait on it, by their order of reading -/
  waiters : List Nat
  /-- the page has been freed meanwhile (§9.8 "At the edges") -/
  discard : Bool
  /-- granules of its class of the hub buffer pool that it holds (R308, R309) -/
  granules : Nat
  startMt : Nat
deriving DecidableEq, Repr

/-- A page of a partition's Valley region in use: its first unit and its units, as a power of two (R306). -/
structure ValleyPage where
  half : Half
  part : Nat
  vidx : Nat
  log2 : Nat
deriving DecidableEq, Repr

/-- An accepted doorbell of a ring whose entries have not all been read: its PI and its MT (R150, R357). -/
structure Doorbell where
  half : Half
  ring : Nat
  pi : Nat
  mt : Nat
deriving DecidableEq, Repr

/-- A slot whose owner has freed it while egress holds it (R430). -/
structure Orphan where
  half : Half
  slot : Nat
  slotLog2 : Nat
deriving DecidableEq, Repr

/-- A slot of an eviction victim that passes to a request once the folds reading it have ended (R315). -/
structure Handover where
  half : Half
  request : Nat
  slot : Nat
  granted : Bool
deriving DecidableEq, Repr

/-- The kinds of keys of a party (Table 15.6). -/
inductive KeyKind where
  | valley | egress | pfx
deriving DecidableEq, Repr

/-- A key installed in both security blocks: its home half, its party (or the namespace's owner tag for `pfx`), and its
value, which no port returns (R492). -/
structure SecKey where
  half : Half
  party : Nat
  kind : KeyKind
  value : Nat
deriving DecidableEq, Repr

/-- The entry of a partition of a half (R493, Table 15.7): STATE, ranges, PART_SHR, core set and key generations; none for the operator. -/
structure PartEntry where
  half : Half
  party : Nat
  fields : List Nat
deriving DecidableEq, Repr

/-- An operation that is mirrored between the security blocks (R493), by its originating half: 0 a GO, 1 an egress key, 2 a
zeroization or the end of a release, with its keys. `acked`: the peer's acknowledgement is on its way. `origin`: 0 waits for it,
1 has installed and committed, 2 has given up. `peer`: 0 has not received the record, 1 holds it as pending, 2 holds it no more. `mt` is MT
when the record was sent, and when the peer stored it from then on `peerMt`. -/
structure Mirror where
  half : Half
  kind : Nat
  party : Nat
  entry : PartEntry
  keys : List SecKey
  acked : Bool
  origin : Nat
  peer : Nat
  mt : Nat
  peerMt : Nat
deriving DecidableEq, Repr

/-- An SPDM session (R501, R507) of a half's DOE mailbox or of the MCTP endpoint: set up with mutual authentication (`auth`), with a
certificate that chains to CO_ROOT, open once FINISH has completed, and its key generation. -/
structure SpdmSession where
  half : Half
  mctp : Bool
  id : Nat
  auth : Bool
  root : Bool
  open_ : Bool
  keyGen : Nat
deriving DecidableEq, Repr

/-- The answers of the SPDM responder (R501 to R503). -/
inductive SpdmRsp where
  /-- SPDM 1.3 -/
  | version
  /-- the requests and the 4,096-byte limit of Table 15.6 -/
  | capabilities
  /-- ECDSA P-384, SHA-384, ECDHE secp384r1, AES-256-GCM, HKDF-SHA-384 -/
  | algorithms
  /-- SHA-384 of the chain of slot 0 -/
  | digests (d : List Nat)
  | certificate (chain : List Nat)
  /-- signed with the FAK -/
  | challengeAuth (digest signature : List Nat)
  /-- blocks of Table 15.7 by index, signed with the FAK -/
  | measurements (blocks : List (Nat × List Nat)) (signature : List Nat)
  | keyExchange (session : Nat) (signature : List Nat)
  | finish (session : Nat)
  | heartbeat (session : Nat)
  | keyUpdate (session : Nat)
  | endSession (session : Nat)
  | ideKm (session : Nat)
  /-- ERROR: 0 Unspecified, 1 a request the responder cannot take now, 2 no such session, 3 no session left, 4 not verified -/
  | error (reason : Nat)
deriving DecidableEq, Repr

/-- A page queued on an egress stream and held by it (R429, R430). -/
structure ShipPage where
  /-- order of queueing in its stream -/
  no : Nat
  layer : Nat
  head : Nat
  page : Nat
  slot : Option Nat
  slotLog2 : Nat
  fill : Nat
  evicted : Bool
  /-- it waits for a spill or a prefetch to end before it can be sent (Table 13.2) -/
  waiting : Bool
  /-- datagrams of the page, those sent at least once, and those acknowledged -/
  chunks : Nat
  sent : Nat
  acked : Nat
  /-- order of reading of its SHIP, and MT of that chain's admission (Table 17.3) -/
  ship : Nat
  shipMt : Nat
deriving DecidableEq, Repr

/-- A datagram that has been sent and not acknowledged (R439 to R442). -/
structure Dgram where
  seq : Nat
  /-- 0 DATA, 1 END, 2 CANCEL -/
  type : Nat
  /-- its page's order in the stream, and the chunk -/
  page : Nat
  chunk : Nat
  tries : Nat
  sentMt : Nat
  /-- it is due to be sent again (R441) -/
  resend : Bool
  /-- a cell of the Egress class keeps its copy (R448, R449) -/
  staged : Bool
deriving DecidableEq, Repr

/-- An egress stream (R427) that has not ended, in its stream context. -/
structure Stream where
  half : Half
  ctx : Nat
  /-- party: partition, or 64 for the operator -/
  party : Nat
  id : Nat
  request : Nat
  plan : Nat
  cls : Nat
  /-- 0 OPEN, 1 ENDING, 2 CANCELLING -/
  state : Nat
  /-- status with which it is cancelled -/
  status : Nat
  pages : List ShipPage
  nextPage : Nat
  dgrams : List Dgram
  nextSeq : Nat
  /-- END is queued behind the pages; END or CANCEL has been sent -/
  endQueued : Bool
  endSent : Bool
  /-- N of the last ACK, highest ACK_NO accepted, last CE_COUNT, and the send limit -/
  una : Nat
  ackNo : Nat
  ceSeen : Nat
  limit : Nat
  /-- round-trip estimates in ns, and whether a sample has been taken -/
  srtt : Nat
  rttvar : Nat
  rto : Nat
  rttV : Bool
  rate : Nat
  /-- one more than the MT of the last decrease, 0 for none; MT of the last decrease or increase (R443) -/
  decMt : Nat
  incMt : Nat
  /-- token bucket in tenths of a bit, and the time of its last gain -/
  bucket : Nat
  bucketMt : Nat
deriving DecidableEq, Repr

/-- A fabric packet (Table 11.5): its header fields, its 24 transport bytes and its payload. -/
structure Packet where
  dst : Nat
  src : Nat
  ptype : Nat
  /-- 0 x, 1 y, 2 z, 3 none yet -/
  dim : Nat
  dir : Nat
  dlx : Nat
  transport : List Byte
  payload : List Byte
  /-- where and when it came in (R379): the port (6 for none), MT, and FT in 2⁻¹⁶ ns; not part of the packet's bytes -/
  port : Nat
  stampMt : Nat
  stampFt : Nat
deriving DecidableEq, Repr

/-- A packet queued on an output port: its credit class and the bytes of it not yet sent; `first` until its SOP flit has left. While its
later flits still arrive (`whole` false), and after that, `src` is the port and the class they come in by (R370); `aborted` where it is to end with ABORT
(R383). `held` counts the receive slots of that port and class that its flits still hold (R370). -/
structure OutPkt where
  cls : Nat
  bytes : List Byte
  first : Bool
  whole : Bool
  aborted : Bool
  src : Option (Nat × Nat)
  held : Nat
deriving DecidableEq, Repr

/-- Where the router has sent a packet whose flits still arrive: to the half's engines, to an output port, or into the sink of R376. -/
inductive RxOut where
  | here
  | port (n : Nat)
  | sink
deriving DecidableEq, Repr

/-- A packet in the receive buffer of a port (R367, R370): the class it came in, its bytes that are here and the slots they hold, whether
its EOP flit has come, what the router decided, and the stamps of its SOP flit's codeword (R379). -/
structure RxPkt where
  half : Half
  port : Nat
  cls : Nat
  bytes : List Byte
  flits : Nat
  whole : Bool
  out : Option RxOut
  stampMt : Nat
  stampFt : Nat
deriving DecidableEq, Repr

/-- What a link-control flit carries: INIT with the version, the sender's node, its port's direction and its buffer sizes; DEGRADE with the
surviving pair; DOWN_NOTICE (R362, R381, R382). -/
inductive LinkControl where
  | init (version node dir : Nat) (sizes : List Nat)
  | degrade (pair : Nat)
  | downNotice
deriving DecidableEq, Repr

/-- A DATA flit kept for replay (R365): its SEQ, flags, payload, times resent, and when it was last sent. -/
structure SentFlit where
  seq : Nat
  flags : Nat
  payload : List Byte
  resends : Nat
  sentMt : Nat
deriving DecidableEq, Repr

/-- The link layer of a fabric port (§11.4, §11.5). -/
structure Link where
  half : Half
  port : Nat
  /-- next SEQ to send, and the flits sent and not acknowledged, oldest first -/
  txSeq : Nat
  replay : List SentFlit
  /-- flits of `replay` that are still to be resent, from the oldest on: the index of the next, if a replay runs -/
  resendAt : Option Nat
  /-- last SEQ accepted in order; NAK is due; flits are discarded until the expected one arrives -/
  rxAck : Nat
  nak : Bool
  /-- per class: flits sent, the partner's buffer size, its latest CR_COUNT, slots freed here -/
  sent : List Nat
  size : List Nat
  credit : List Nat
  freed : List Nat
  /-- class whose CR_COUNT the next flit carries -/
  rot : Nat
  outq : List OutPkt
  /-- the codeword in transmission: its count, whether its first slot is filled, and the stamps of its first bit (R360, R379) -/
  cw : Nat
  cwHalf : Bool
  cwMt : Nat
  cwFt : Nat
  /-- the stamps of the first bit of the codeword in reception -/
  rxMt : Nat
  rxFt : Nat
  /-- the link control that is repeated every 1 µs, and one more than the MT of its last sending, 0 for none (R362, R381) -/
  ctl : Option LinkControl
  ctlMt : Nat
  /-- weighted round robin: flits left of VC0 and VC1 in the round, and the sub-channel that went last in each -/
  left0 : Nat
  left1 : Nat
  sub0 : Nat
  sub1 : Nat
  /-- VC3 tokens and the time of the last gain -/
  tokens : Nat
  tokenMt : Nat
  /-- run of exhaustions, whether a flit has been acknowledged since the last one, codeword relock in progress -/
  exhRun : Nat
  progress : Bool
  relock : Bool
  /-- a receive direction is moving to a pair; DATA flits are not accepted -/
  degrading : Bool
  /-- the transmit direction is moving to the pair that the partner named -/
  txMoved : Bool
  /-- training: steps of Table 11.2 done, and the lanes that trained -/
  trainStep : Nat
  trainMt : Nat
deriving DecidableEq, Repr

/-- A foreign PTP timeTransmitter (R460): its port identity, its dataset (priority 1, clock class, accuracy, variance, priority 2,
grandmaster identity, steps removed), its Announce interval as a power of two of a second, and the MT of its last two Announce
messages. -/
structure PtpMaster where
  half : Half
  src : Nat
  dataset : List Nat
  logInt : Int
  lastMt : Nat
  prevMt : Option Nat
deriving DecidableEq, Repr

/-- A CTS that has been received and not yet answered: segment, phase, step and unit, and the node that sent it (R404). -/
structure CtsHeld where
  seg : Nat
  phase : Nat
  step : Nat
  unit : Nat
  node : Nat
deriving DecidableEq, Repr

/-- A unit that has been sent and is kept until its DONE (R399). -/
structure SentUnit where
  seg : Nat
  phase : Nat
  step : Nat
  unit : Nat
  node : Nat
  bytes : List Byte
deriving DecidableEq, Repr

/-- A segment of a bulk operation in progress (R396): where its receiving and its sending stand (phase, ring step, unit),
whether the CTS of the unit expected has been sent, the data of that unit so far, and the values of the segment. -/
structure CollSeg where
  k : Nat
  rxP : Nat
  rxT : Nat
  rxU : Nat
  txP : Nat
  txT : Nat
  txU : Nat
  cts : Bool
  got : List (Nat × List Byte)
  vals : List Nat
  /-- broadcast: units received, with the axis position and direction each travelled -/
  came : List (Nat × Nat × Nat)
deriving DecidableEq, Repr

/-- A collective operation that runs on a half (R397, R410): a bulk operation of a COLL, an ATTN_RING's transport (`ring`),
or a Notch operation. -/
structure Coll where
  half : Half
  chainNo : Nat
  g : Nat
  gid : Nat
  epoch : Nat
  notch : Bool
  ring : Bool
  /-- MT of its last progress, and of its start (R415) -/
  progMt : Nat
  startMt : Nat
  granules : Nat
  /-- VAR: the counts by rank, and the axes whose COUNTS have been begun (R395) -/
  counts : List (Option Nat)
  cntAxes : Nat
  cntDone : Bool
  segs : List CollSeg
  nextSeg : Nat
  cts : List CtsHeld
  sent : List SentUnit
  /-- Notch: values by axis position and index along the axis, and the axes finished (R411) -/
  nvals : List (Nat × Nat × List Nat)
  naxis : Nat
  /-- units received and written, whose DONE waits until they have been forwarded (R404): the member they came from in `node` -/
  owed : List CtsHeld
deriving DecidableEq, Repr

/-- A fault record (Table 16.4), its INDEX, SAMPLE and CRC apart. -/
structure FaultRec where
  mt : Nat
  tag : Nat
  status : Nat
  type : Nat
  step : Nat
  seq : Nat
  ring : Nat
  request : Nat
  context : Nat
  partition : Nat
  unit : Nat
  addr : Nat
  detail : Nat
deriving DecidableEq, Repr

/-- A ledger record (Table 17.6), its CRC apart. -/
structure LdgRec where
  type : Nat
  src : Nat
  seq : Nat
  boot : Nat
  lifeS : Nat
  mt : Nat
  data : List Byte
  /-- accepted by the writer, with its SEQ (R554) -/
  taken : Bool
deriving DecidableEq, Repr

/-- A slot of the fine ledger in module flash: the SEQ it was programmed for, its 64 bytes, and whether the slot is torn
(programmed with a bad CRC, R555). -/
structure LdgSlot where
  page : Nat
  seq : Nat
  bytes : List Byte
  torn : Bool
deriving DecidableEq, Repr

/-- A page of the fine ledger in module flash, by its PAGE_SEQ: FIRST_SEQ, and its 64-byte header (Table 17.5). -/
structure LdgPage where
  page : Nat
  first : Nat
  header : List Byte
deriving DecidableEq, Repr

/-- A scheduling event of the history that a sample carries (Table 16.6, offset 0x6400). -/
structure SchedEvt where
  half : Half
  party : Nat
  mt : Nat
  seq : Nat
  ring : Nat
  event : Nat
  cls : Nat
  status : Nat
  context : Nat
deriving DecidableEq, Repr

/-- A generation (R538, R539): its number, the mirrored registers of the role holder's half, the ledger records that
went with it, and the event history tail. -/
structure Generation where
  num : Nat
  snapMt : Nat
  cells : RegFile
  ldgNext : Nat
  history : List LdgRec
deriving DecidableEq, Repr

/-- What the package has sent out of one of its ports, in the order of sending. -/
inductive Output where
  /-- an MSI-X message of a function, with its requester ID (R13, R166 to R168, R588) -/
  | msix (half : Half) (requester fn vec addr data : Nat)
  /-- data returned to a function's register read -/
  | readData (half : Half) (fn : Nat) (data : Nat)
  /-- a message from one half's MC or hub to the other's, over the Pass main lanes or the sideband -/
  | interHalf (src : Half) (msg : HalfMsg)
  /-- an MCTP message on the aux SMBus (§17.7) -/
  | mctp (half : Half) (bytes : List Byte)
  /-- a level driven on an aux output; `none` is high impedance (R90) -/
  | pin (pin : AuxPin) (level : Option Bool)
  /-- a flit sent on a fabric port (Table 11.3), with the control field of its codeword and its slot (R360) -/
  | flit (half : Half) (port control : Nat) (slot : Bool) (bytes : List Byte)
  /-- a marker codeword sent on a fabric port, with its control field (R360) -/
  | marker (half : Half) (port control : Nat)
  /-- a frame sent on an egress port, its FCS apart (R422) -/
  | egress (half : Half) (bytes : List Byte)
  /-- what the link-control flit just sent on a port carries (R362, R381, R382) -/
  | linkControl (half : Half) (port : Nat) (c : LinkControl)
  /-- DIE_PWR_EN of a compute die (R101) -/
  | diePower (die : Nat) (on : Bool)
  /-- an answer of the SPDM responder, on DOE or over MCTP -/
  | spdm (half : Half) (mctp : Bool) (rsp : SpdmRsp)
  /-- a PTP Delay_Req with its sequence number, on the transport and in the domain of PTP_CFG, to the address of a group, with its UDP port
  or its Ethertype (R460) -/
  | ptpDelayReq (half : Half) (seq : Nat) (net : PtpNet) (group : List Nat) (port : Nat)
  /-- a Device Readiness Status message (R113) -/
  | readiness (half : Half)
deriving DecidableEq, Repr

/-- The state of the machine. -/
structure State where
  /-- every register field and internal cell that is not at its reset value -/
  regs : RegFile
  /-- HBM, scratchpads and host memory, by device address (Table 1.6) -/
  mem : Memory
  /-- pinned descriptor slots: byte `off` of slot `n` of ring `r` of a half at ((half × 520 + r) × 64 + n) × 64 + off -/
  slots : Memory
  /-- ship plans: byte `off` of plan `k` of a half at (half × 256 + k) × 128 + off (Table 13.7) -/
  plans : Memory
  /-- ACK and RESET datagrams received and not yet taken: source address and UDP payload (R424) -/
  egrRx : List (Half × List Byte × List Byte)
  /-- foreign PTP timeTransmitters, at most 8 on a half (R460) -/
  ptp : List PtpMaster
  /-- descriptor reads in progress or not yet taken -/
  fetches : List Fetch
  /-- chains read and not finished, in order of reading -/
  chains : List Chain
  /-- order number of the next chain to be read, per machine -/
  readNo : Nat
  /-- requests that are not FREE -/
  requests : List Request
  /-- contexts in the slots of the cores -/
  contexts : List Context
  /-- lines held by the die caches, the last used last (R227) -/
  dieLines : List DieLine
  /-- egress streams that have not ended -/
  streams : List Stream
  /-- nodes of the prefix directories (R316) -/
  nodes : List PfxNode
  /-- spills and prefetches in progress (R308, R309) -/
  transfers : List Transfer
  /-- accepted doorbells, oldest first (R357) -/
  doorbells : List Doorbell
  /-- work units in flight on borrowed granules of the pools, oldest first (R51, R52) -/
  poolUnits : List PoolUnit
  /-- requests of the pools' classes that wait, oldest first (R49, R51) -/
  poolReqs : List PoolReq
  /-- pages of the Valley regions in use (R306) -/
  valley : List ValleyPage
  /-- requests that wait for a slot, in order (R301) -/
  slotWait : List (Half × Nat)
  /-- slots freed while egress holds them (R430) -/
  orphans : List Orphan
  /-- victims' slots on their way to a request (R315) -/
  handovers : List Handover
  /-- link layers of the fabric ports (§11.4) -/
  links : List Link
  /-- packets in the receive buffers of the fabric ports, by the arrival of their SOP flits -/
  arrived : List RxPkt
  /-- packets delivered to the half's engines and not yet taken -/
  localPkts : List (Half × Packet)
  /-- collective operations that run (R397, R410) -/
  colls : List Coll
  /-- control packets held for operations that do not run yet: the pending table and the Notch class (R406, R413) -/
  collPend : List (Half × Packet)
  /-- aborts that a half has sent on or originated: half, group and epoch (R416) -/
  aborted : List (Half × Nat × Nat)
  /-- keys in the security blocks (R492) -/
  keys : List SecKey
  /-- the copies of a half's keys in the other half's security block (R493) -/
  peerKeys : List SecKey
  /-- the copies of a half's partition entries that the other half's MC holds (R493) -/
  peerParts : List PartEntry
  /-- mirrored operations in progress (R493) -/
  mirrors : List Mirror
  /-- SPDM sessions (R501) -/
  spdm : List SpdmSession
  /-- the last fault records of half 0 and half 1, newest last: at most 16 each (FLT_REC_j) -/
  faultRecs : List (Half × FaultRec × Nat)
  /-- MT of the uncorrectable errors of each half's stack in the last 1 s (R526) -/
  ueTimes : List (Half × Nat)
  /-- records held by an MC and not yet programmed or delivered (R554) -/
  ldgBuf : List (Half × LdgRec)
  /-- module flash, fine ledger region (R552) -/
  ldgFlash : List LdgSlot
  /-- its page headers (Table 17.5) -/
  ldgPages : List LdgPage
  /-- image slots A and B of module flash, and the module configuration record: none where a slot is empty (R103) -/
  imageA : Option FlashImage
  imageB : Option FlashImage
  config : Option FlashImage
  /-- the subordinate images in module flash: security block firmware, HBM and SerDes training firmware (R498) -/
  subImages : List (List Byte)
  /-- the four key slots in the package fuses: SHA-384 of a code-signing public key (R497) -/
  keySlots : List (List Byte)
  /-- the module configuration record that each hub has verified and loaded (R103, R498) -/
  records : List (Half × FlashImage)
  /-- LDG_RD_DATA of each half (R558) -/
  ldgRdData : List (Half × List Byte)
  /-- the ledger region in module flash carries another device's identity (R556) -/
  ldgForeign : Bool
  /-- event history of the role holder, newest last, at most 32 (Table 16.11) -/
  history : List LdgRec
  /-- platform events sent and not acknowledged (R564) -/
  pldmUnacked : List LdgRec
  /-- scheduling events, newest last (Table 16.6) -/
  schedLog : List SchedEvt
  /-- the generation that each half holds committed as standby (R539) -/
  gens : List (Half × Generation)
  /-- the generation being copied to a half and not yet committed (R539) -/
  genCopy : List (Half × Generation)
  /-- free values drawn so far: the model's own counter (log entry 5) -/
  freeCount : Nat
  /-- what has left the package's ports -/
  out : List Output
  /-- commands waiting, first in, first out -/
  pending : List Instr
deriving DecidableEq, Repr

/-- The bytes of a number, the most significant first. -/
def bigBytes (n x : Nat) : List Byte := (List.range n).map fun i => BitVec.ofNat 8 (x / 256 ^ (n - 1 - i))

/-- SHA-384 of no bytes, and the digest that the first fused key slot holds at reset. -/
def FlashImage.emptyDigest : List Byte :=
  bigBytes 48 0x38b060a751ac96384cd9327eb1b1e36a21fdb71114be07434c0cc7bf63f6e1da274edebfe76f65fbd51ad2f14898b95b

def FlashImage.shippedKey : List Byte :=
  bigBytes 48 0xa19d4db171b582eb8052b0cfe555e17894aa22d1c8a9770950697dd8f796d2fa4bf0a56ad80006b7ea08e1191f814b65

/-- The image that module flash holds at reset, in both slots: the spec gives its contents no value (DESIGN CHOICE, log entry 7). It has no
firmware bytes, is signed with the code-signing key whose private number is 1, and its manifest holds the digests of subordinate images
without bytes. -/
def FlashImage.shipped : FlashImage :=
  { magic := 0x56454F45, hdrVer := 1, keySlot := 0, svn := 0, version := 0, length := 144
    pubkey := bigBytes 96 0xaa87ca22be8b05378eb1c71ef320ad746e1d3b628ba79b9859f741e082542a385502f25dbf55296c3a545e3872760ab73617de4a96262c6f5d9e98bf9292dc29f8f41dbd289a147ce9da3113b5f0b8c00a60b1ce1d7e819d7a431d7c90ea0e5f
    digest := bigBytes 48 0xc2f17855b1ec3a9c0e90b4f4d75de40ddc0c7bdddb11e4cb6afb1bf9b752533545e2d5d1ece52a21f62004dacf204fb7
    rsvd := List.replicate 96 0
    sig := bigBytes 96 0xaa87ca22be8b05378eb1c71ef320ad746e1d3b628ba79b9859f741e082542a385502f25dbf55296c3a545e3872760ab718cb669a20addfc43a3c3d82cc0724800a0267da7a3a1e11c7833be2b8daf6e6e7d0fc27391d65bfdff2fb901d8d843a
    firmware := [], manifest := [emptyDigest, emptyDigest, emptyDigest], settle := [], coRoot := [], ledgerAt := none }

/-- The machine right after power-on: every register at the value of its table, memory empty, no command waiting. -/
def State.reset : State where
  regs := []
  mem := []
  slots := []
  plans := []
  egrRx := []
  ptp := []
  fetches := []
  chains := []
  readNo := 0
  requests := []
  contexts := []
  dieLines := []
  streams := []
  nodes := []
  transfers := []
  poolUnits := []
  poolReqs := []
  valley := []
  slotWait := []
  orphans := []
  doorbells := []
  handovers := []
  links := []
  arrived := []
  localPkts := []
  colls := []
  collPend := []
  aborted := []
  keys := []
  peerKeys := []
  peerParts := []
  mirrors := []
  spdm := []
  faultRecs := []
  ueTimes := []
  ldgBuf := []
  ldgFlash := []
  ldgPages := []
  imageA := some FlashImage.shipped
  imageB := some FlashImage.shipped
  config := none
  subImages := [[], [], []]
  keySlots := [FlashImage.shippedKey, List.replicate 48 0, List.replicate 48 0, List.replicate 48 0]
  records := []
  ldgRdData := []
  ldgForeign := false
  history := []
  pldmUnacked := []
  schedLog := []
  gens := []
  genCopy := []
  freeCount := 0
  out := []
  pending := []

/-- The outcome of a command. -/
abbrev Res := Host.Outcome State Fault Refusal

end Sys2Proof.Machine
end

