-- ==== Sys2Proof/Machine/Ops.lean ====
section
/-!
DEFINITION. Machine/Ops.lean: the named operations every command is written with: reading and writing a register cell,
host access of a function, MSI-X messages and interrupt causes (R166 to R168, R588), completion and event records
(R162 to R167), fault records (R515, R516), and acceptance of ledger records (R554).
-/

namespace Sys2Proof.Machine

/-! ### Register cells -/

/-- The value of a register cell. -/
def State.rd (s : State) (f : Fld) (h : Half) (i : Nat := 0) : Nat := s.regs.get ⟨f, h, i⟩

/-- A register cell set to a value, cut to its width. -/
def State.wr (s : State) (f : Fld) (h : Half) (v : Nat) (i : Nat := 0) : State :=
  { s with regs := s.regs.put ⟨f, h, i⟩ v }

/-- A register cell raised by `n`, saturating at its width. -/
def State.inc (s : State) (f : Fld) (h : Half) (n : Nat) (i : Nat := 0) : State :=
  s.wr f h (satAdd f.width (s.rd f h i) n) i

/-- Something sent out of a port. -/
def State.emit (s : State) (o : Output) : State := { s with out := s.out ++ [o] }

/-- Monotonic time of a half (R451). -/
def State.mt (s : State) (h : Half) : Nat := s.rd (.tim .MT) h

/-- Fabric time of a half with its fraction, in 2⁻¹⁶ ns (R454). -/
def ftFine (s : State) (h : Half) : Nat := s.rd (.tim .FT) h * 65536 + s.rd (.tim .FT_FRAC) h

/-- A live counter of Table 17.2 raised by `n` (R545). -/
def bump (s : State) (h : Half) (group slot n : Nat) : State := s.inc (.tel .LIVE_SLOT) h n (group * 32 + slot)

/-- The next free value: an unconstrained number, and the state that has drawn it (log entry 5). -/
def drawFree (s : State) : State := { s with freeCount := s.freeCount + 1 }

/-! ### Writes to memory -/

/-- A die cache keeps a line while bytes `a` to `a + n - 1` are written: the line lies outside them, or the die is the writer's own,
whose copy is updated (R227, R228). -/
def DieLine.stays (l : DieLine) (a n : Nat) (die : Option (Half × Nat)) : Bool :=
  decide (128 * l.line + 128 ≤ a ∨ a + n ≤ 128 * l.line ∨ n = 0) || die == some (l.half, l.die)

/-- Bytes written to memory; the other die caches lose the lines they lie in (R228). -/
def State.store (s : State) (a : Nat) (b : List Byte) (die : Option (Half × Nat) := none) : State :=
  { s with mem := s.mem.writeN a b, dieLines := s.dieLines.filter fun l => l.stays a b.length die }

/-- A range of memory written to zero; the die caches lose its lines (R228). -/
def State.wipe (s : State) (lo len : Nat) : State :=
  { s with mem := s.mem.clearRange lo len, dieLines := s.dieLines.filter fun l => l.stays lo len none }

/-! ### Functions, rings and roles -/

/-- The number of the PF among a half's functions: VFs are 0 to 63 (R13). -/
def pf : Nat := 64

/-- The function that owns a ring of the half: ring 8p + k is ring k of VF p, ring 512 + k operator ring k (R146). -/
def ringFn (ring : Nat) : Nat := if 512 ≤ ring then pf else ring / 8

/-- The number of a ring among its function's eight. -/
def ringNo (ring : Nat) : Nat := if 512 ≤ ring then ring - 512 else ring % 8

/-- Ring `k` of a function. -/
def fnRing (fn k : Nat) : Nat := if fn = pf then 512 + k else 8 * fn + k

/-- The rings of a function. -/
def ringsOf (fn : Nat) : List Nat := (List.range 8).map (fnRing fn)

/-- RING of Table 4.6 for a ring of a half. -/
def ringField (h : Half) (ring : Nat) : Nat :=
  if 512 ≤ ring then 0x8000 + h.num * 512 + (ring - 512) else h.num * 512 + ring

/-- PARTITION of Table 4.6 for a function of a half. -/
def partField (h : Half) (fn : Nat) : Nat := if fn = pf then 0 else 0x80 + 64 * h.num + fn

/-- The half whose role latch is set (R537). -/
def State.holder (s : State) : Option Half :=
  if s.rd (.flt .MC_STATUS_LATCH) .h0 = 1 then some .h0
  else if s.rd (.flt .MC_STATUS_LATCH) .h1 = 1 then some .h1
  else none

/-- The half holds the chip-wide roles. -/
def State.holds (s : State) (h : Half) : Bool := s.holder == some h

/-- The half acts in Lowland mode: it has detected the entry, or received the notice of it (R120, R121). -/
def State.lowland (s : State) (h : Half) : Bool := s.rd (.boot .LOWLAND_IN) h == 1

/-- Dispatch is stopped on the half: for a plateau change, in Lowland mode, or with both MCs down (R62, R121, R542). -/
def State.dispatchOff (s : State) (h : Half) : Bool :=
  s.rd (.thm .DISPATCH_STOP) h == 1 || s.rd (.flt .DISPATCH_STOPPED) h == 1

/-- The Pass main lanes carry traffic of the half: STATE is UP (R38). -/
def State.passUp (s : State) (h : Half) : Bool := s.rd (.pkg .PASS_STATUS_STATE) h == 2

/-- The main lanes carry traffic between the halves: neither hub has declared them down. After one hub's declaration the other's
transmissions go unacknowledged (R38, §1.4 "At the edges"; log entry 54). -/
def State.lanesUp (s : State) : Bool := s.passUp .h0 && s.passUp .h1

/-- Some path reaches the other half: the main lanes or the sideband (R494, R522). -/
def State.peerReachable (s : State) (h : Half) : Bool :=
  s.lanesUp || s.rd (.pkg .PASS_STATUS_SB_ALIVE) h == 1

/-- The aux SMBus is stuck, as the half sees it (R562). -/
def busStuck (s : State) (h : Half) : Bool :=
  s.rd (.tel .TEL_SMB_STUCK_CLK) h == 1 || s.rd (.tel .TEL_SMB_STUCK_DAT) h == 1

/-- A host access can leave the device on behalf of a function: its half's link is up, its Bus Master Enable is set, and
it is not in D3hot (R170). -/
def State.hostOk (s : State) (h : Half) (fn : Nat) : Bool :=
  s.rd (.host .LINK_STATUS_LINK_UP) h == 1 && s.rd (.host .BME) h fn == 1 && s.rd (.host .D3HOT) h fn == 0

/-- What Table 4.2 gives a function: its Device ID, its class code and its MSI-X vectors. -/
structure PcieFunction where
  deviceId : Nat
  classCode : Nat
  vectors : Nat
deriving DecidableEq, Repr

/-- The PF and the VFs (Table 4.2). -/
def pcieFunction (fn : Nat) : PcieFunction := if fn = pf then ⟨0x4812, 0x120000, 64⟩ else ⟨0x4813, 0x120000, 16⟩

/-- The function has MSI-X vectors 0 to `vecCount fn - 1` (Table 4.2). -/
def vecCount (fn : Nat) : Nat := (pcieFunction fn).vectors

/-- The routing ID of a function: the PF's, and for VF i the PF's plus First VF Offset plus i times VF Stride, both 1 (R13, Table 4.2). -/
def routingId (h : Half) (fn : Nat) : Nat :=
  let base := (Config.pfRoutingId (h == .h0)).toNat
  if fn = pf then base else (base + 1 + fn) % 2 ^ 16

/-! ### Messages and interrupt causes -/

/-- One message of a vector: sent, or held in its PBA bit while the vector is masked (R168). -/
def sendMsix (s : State) (h : Half) (fn vec : Nat) : State :=
  let i := fn * 64 + vec
  if s.rd (.host .MSIX_MASK) h i = 1 then s.wr (.host .MSIX_PBA) h 1 i
  else if s.hostOk h fn then
    (bump s h 3 4 1).emit (.msix h (routingId h fn) fn vec (s.rd (.host .MSIX_ADDR) h i) (s.rd (.host .MSIX_DATA) h i))
  else s

/-- The cause register of route k (Table 19.6): its field and its instance. -/
def causeReg (k : Nat) : Fld × Nat :=
  match k with
  | 0 => (.irq .GLB_EVT, 0)
  | 1 => (.pkg .PASS_ERR, 0)
  | 2 => (.thm .THERM_EVENT, 0)
  | 3 => (.fab .PORT_ERR, 0)
  | 4 => (.fab .PORT_ERR, 1)
  | 5 => (.fab .PORT_ERR, 2)
  | 6 => (.fab .PORT_ERR, 3)
  | 7 => (.fab .PORT_ERR, 4)
  | 8 => (.fab .PORT_ERR, 5)
  | 9 => (.egr .EGR_EVT, 0)
  | 10 => (.tim .TIME_EVT, 0)
  | 11 => (.sec .SEC_EVT, 0)
  | 12 => (.flt .FLT_EVT, 0)
  | 13 => (.flt .MC_EVT, 0)
  | _ => (.pwr .PWR_EVT, 0)

/-- The message of route k when the bits `rising` of its cause register go from 0 to 1 (R588). -/
def routeMessage (s : State) (h : Half) (k rising : Nat) : State :=
  if s.rd (.irq .IRQ_ROUTE_EN) h k = 1 ∧ rising &&& s.rd (.irq .IRQ_ROUTE_MASK) h k ≠ 0 then
    sendMsix s h pf (s.rd (.irq .IRQ_ROUTE_VEC) h k)
  else s

/-- Bits of cause register k of a half set, with the message of their rise (R588). -/
def raiseCause (s : State) (k : Nat) (h : Half) (bits : Nat) : State :=
  let f := causeReg k
  let old := s.rd f.1 h f.2
  routeMessage (s.wr f.1 h (setBits old bits) f.2) h k (risingBits old bits)

/-- Bits of PWR_EVT set: one register of the package, each half sending its own message (R589, "At the edges"). -/
def raisePwr (s : State) (bits : Nat) : State :=
  let old := s.rd (.pwr .PWR_EVT) .h0
  let s1 := s.wr (.pwr .PWR_EVT) .h0 (setBits old bits)
  routeMessage (routeMessage s1 .h0 14 (risingBits old bits)) .h1 14 (risingBits old bits)

/-- Bits of THERM_EVENT set; the register reads zero on the half without the roles (R66). -/
def raiseTherm (s : State) (bits : Nat) : State :=
  match s.holder with
  | some h => raiseCause s 2 h bits
  | none => s

/-- Bits of FUNC_IRQ of a function set; a rising enabled cause sends its message (R166). -/
def raiseFunc (s : State) (h : Half) (fn bits : Nat) : State :=
  let old := s.rd (.host .FUNC_IRQ) h fn
  let s1 := s.wr (.host .FUNC_IRQ) h (setBits old bits) fn
  if risingBits old bits &&& s.rd (.host .FUNC_IRQ_EN) h fn ≠ 0 then
    sendMsix s1 h fn (s.rd (.host .FUNC_IRQ_VEC) h fn)
  else s1

/-- A bit of RING_ERR set, which sets FUNC_IRQ.RING_ERR of the ring's function (Table 4.10). -/
def ringErr (s : State) (h : Half) (ring bits : Nat) : State :=
  raiseFunc (s.wr (.host .RING_ERR) h (setBits (s.rd (.host .RING_ERR) h ring) bits) ring) h (ringFn ring) 1

/-- An access counted in ACC_CNT.UNMAPPED (R134), which sets BAD_ACCESS. -/
def countUnmapped (s : State) (h : Half) (fn : Nat) : State :=
  raiseFunc (s.inc (.host .ACC_CNT_UNMAPPED) h 1 fn) h fn 0x10

/-- A write counted in ACC_CNT.BAD_WIDTH (R135, R159), which sets BAD_ACCESS. -/
def countBadWidth (s : State) (h : Half) (fn : Nat) : State :=
  raiseFunc (s.inc (.host .ACC_CNT_BAD_WIDTH) h 1 fn) h fn 0x10

/-! ### Completion and event records -/

/-- A completion record (Table 4.6) without its PHASE and PARTITION, which follow from the ring. -/
structure CqRec where
  tag : Nat
  mt : Nat
  status : Nat
  seq : Nat
  request : Nat
  context : Nat
  kind : Nat
  detail : Nat
deriving DecidableEq, Repr

/-- Records of a completion ring. -/
def cqSize (s : State) (h : Half) (ring : Nat) : Nat := 2 ^ s.rd (.host .RING_CFG_CQ_LOG2) h ring

/-- Entries of a submission ring: its PIN_COUNT when it is pinned (R158). -/
def sqSize (s : State) (h : Half) (ring : Nat) : Nat :=
  if s.rd (.host .RING_CFG_PINNED) h ring = 1 then s.rd (.host .PIN_COUNT) h ring
  else 2 ^ s.rd (.host .RING_CFG_SIZE_LOG2) h ring

/-- Records written to a completion ring and not returned (R163). -/
def cqUsed (s : State) (h : Half) (ring : Nat) : Nat :=
  (s.rd (.host .RING_STATUS_CQ_PI) h ring + 65536 - s.rd (.host .RING_STATUS_CQ_CI) h ring) % 65536

/-- The 32 bytes of record number `m` of a ring (Table 4.6, R164). -/
def recBytes (s : State) (h : Half) (ring m : Nat) (r : CqRec) : List Byte :=
  leBytes 8 r.tag ++ leBytes 8 r.mt ++ leBytes 2 r.status ++ leBytes 2 r.seq ++ leBytes 2 (ringField h ring) ++
    leBytes 2 r.request ++ leBytes 2 r.context ++ leBytes 1 (partField h (ringFn ring)) ++
    leBytes 1 (r.kind + (if m / cqSize s h ring % 2 = 0 then 0x80 else 0)) ++ leBytes 4 r.detail

/-- The vector's message of a completion ring, sent and its count reset (R166, R167). -/
def signalRing (s : State) (h : Half) (ring : Nat) : State :=
  let s1 := s.wr (.host .COAL_SEEN) h 0 ring
  if s.rd (.host .RING_CFG_CQ_IRQ_EN) h ring = 1 then
    sendMsix s1 h (ringFn ring) (s.rd (.host .RING_CFG_CQ_VEC) h ring)
  else s1

/-- The moderation of a record just written: message now, on the count, with both rules off, or later (R167). -/
def moderate (s : State) (h : Half) (ring : Nat) (now : Bool) : State :=
  let seen := s.rd (.host .COAL_SEEN) h ring + 1
  let cnt := s.rd (.host .RING_COAL_COAL_CNT) h ring
  let tmr := s.rd (.host .RING_COAL_COAL_TIME) h ring
  if now ∨ (cnt ≠ 0 ∧ cnt ≤ seen) ∨ (cnt = 0 ∧ tmr = 0) then signalRing s h ring
  else if seen = 1 then (s.wr (.host .COAL_SEEN) h 1 ring).wr (.host .COAL_T0) h (s.mt h) ring
  else s.wr (.host .COAL_SEEN) h seen ring

/-- A record put into a ring's next slot in host memory, and CQ_PI advanced (R162). A record that cannot leave the
device takes no slot (log entry 20). -/
def writeRecord (s : State) (h : Half) (ring : Nat) (r : CqRec) (now : Bool) : State :=
  if s.hostOk h (ringFn ring) then
    let m := s.rd (.host .RING_STATUS_CQ_PI) h ring
    let a := hostBit + s.rd (.host .CQ_BASE) h ring + m % cqSize s h ring * 32
    let s1 := { s with mem := s.mem.writeN a (recBytes s h ring m r) }
    let s2 := s1.wr (.host .RING_STATUS_CQ_PI) h (m + 1) ring
    moderate (bump (bump s2 h 3 3 1) h 3 1 32) h ring now
  else s

/-- The event ring of a function, when it has one (R165). -/
def eventRing (s : State) (h : Half) (fn : Nat) : Option Nat :=
  if s.rd (.host .EVT_RING_EN) h fn = 1 then some (fnRing fn (s.rd (.host .EVT_RING_RING) h fn)) else none

/-- An event lost (R165). -/
def loseEvent (s : State) (h : Half) (fn : Nat) : State :=
  raiseFunc (s.inc (.host .EVT_LOST_CNT) h 1 fn) h fn 2

/-- An event record can be delivered to a ring: it is neither DISABLED nor STOPPING, its completion ring has a free record, of the reserve
or not (DESIGN CHOICE, log entry 61), and a host write can be issued (R165). -/
def eventRoom (s : State) (h : Half) (fn ring : Nat) : Bool :=
  let st := s.rd (.host .RING_STATE_STATE) h ring
  (st == 1 || st == 3) && s.hostOk h fn &&
    decide (cqUsed s h ring + s.rd (.host .CQ_RESERVED) h ring < cqSize s h ring)

/-- An event record to a function's event ring, or its loss (R165). -/
def postEvent (s : State) (h : Half) (fn status mt detail : Nat) : State :=
  match eventRing s h fn with
  | none => loseEvent s h fn
  | some ring =>
    if eventRoom s h fn ring then writeRecord s h ring ⟨0, mt, status, 0, 0, 0, 1, detail⟩ true
    else loseEvent s h fn

/-- Does a partition of the half (a VF) or the PF have an open request (R62, R527)? -/
def State.partyOpen (s : State) (h : Half) (fn : Nat) : Bool :=
  s.requests.any fun r => r.half == h && ringFn r.ring == fn && !r.closing

/-- The functions of a half that get chip-wide notices: the operator and every partition with an open request. -/
def noticeFns (s : State) (h : Half) : List Nat :=
  (List.range 64).filter (fun p => s.partyOpen h p) ++ [pf]

/-- An event record to every partition of a half with an open request and to its operator. -/
def postNotice (s : State) (h : Half) (status mt detail : Nat) : State :=
  (noticeFns s h).foldl (fun t fn => postEvent t h fn status mt detail) s

/-! ### The ledger -/

/-- The MTs of the first and the last record that an MC's full buffer dropped (R555). -/
def ldgDrop (s : State) (h : Half) (mt : Nat) : State :=
  let s1 := s.inc (.tel .LDG_STATUS_DROPPED) h 1
  let s2 := if s.rd (.tel .LDG_DROP_FROM) h = 0 then s1.wr (.tel .LDG_DROP_FROM) h (mt + 1) else s1
  s2.wr (.tel .LDG_DROP_TO) h mt

/-- Records an MC holds (R554). -/
def State.ldgHeld (s : State) (h : Half) : Nat := (s.ldgBuf.filter fun p => p.1 == h).length

/-- A FAULT record that is sent as a platform event: STEP CHIP or TRAY, a split, a rejoin or a takeover (Table 17.10). -/
def pldmFault (r : LdgRec) : Bool :=
  let ty := fieldAt r.data 2 1
  let step := fieldAt r.data 3 1 % 8
  r.type == 5 && (step == 4 || step == 5 || ty == 0x40 || ty == 0x41 || ty == 0x50)

/-- The 64 bytes of a ledger record (Table 17.6). -/
def LdgRec.bytes (r : LdgRec) : List Byte :=
  let b := leBytes 1 r.type ++ leBytes 1 r.src ++ leBytes 2 0 ++ leBytes 4 r.seq ++ leBytes 4 r.boot ++
    leBytes 4 r.lifeS ++ leBytes 8 r.mt ++ (r.data ++ zeros 36).take 36
  b ++ leBytes 4 (crc32c b)

/-! ### Fuse counts -/

/-- Width and scale of a fuse count (Table 17.8). -/
def fuseRow (k : Nat) : Nat × Nat :=
  match k with
  | 0 => (64, 1024)
  | 1 => (64, 1024)
  | 2 => (32, 16)
  | 3 => (32, 1)
  | 4 => (16, 1)
  | 7 => (32, 64)
  | _ => (32, 1)

/-- An event counted toward fuse count `k`; a bit falls due when the total crosses a multiple of the scale (R559). -/
def fuseEvent (s : State) (k : Nat) : State :=
  let n := s.rd (.tel .LDG_TOTAL) .h0 k + 1
  let s1 := s.wr (.tel .LDG_TOTAL) .h0 n k
  let due := s.rd (.tel .FUSE_BLOW_PENDING) .h0 k
  if n % (fuseRow k).2 = 0 ∧ s.rd (.tel .FUSE_CNT) .h0 k + due < (fuseRow k).1 then
    s1.wr (.tel .FUSE_BLOW_PENDING) .h0 (due + 1) k
  else s1

/-- The fuse count that an accepted record counts toward (Table 17.8): a start-up, a powered hour, a chip step, a tamper detection, a
self-test failure or re-measurement mismatch, a GAP. -/
def fuseRecordCount (r : LdgRec) : Option Nat :=
  let status := fieldAt r.data 0 2
  if r.type = 1 then some 0
  else if r.type = 6 then some 1
  else if r.type = 5 ∧ fieldAt r.data 3 1 % 8 = 4 then some 2
  else if r.type = 8 ∧ status = ST_TAMPER then some 3
  else if r.type = 8 ∧ (status = ST_SELFTEST_FAIL ∨ status = ST_FW_MEASURE) then some 4
  else if r.type = 0xB then some 7
  else none

/-- The loop FAILs that waited for the LOWLAND_IN record with cause THERM. -/
def fuseHeld (s : State) : State :=
  let one (t : State) (k : Nat) : State :=
    (List.range (t.rd (.tel .FUSE_HELD) .h0 k)).foldl (fun u _ => fuseEvent u k) (t.wr (.tel .FUSE_HELD) .h0 0 k)
  one (one s 5) 6

/-- What an accepted record counts toward the fuses (R560): a count rises only once the record that causes it is accepted. -/
def fuseRecord (s : State) (r : LdgRec) : State :=
  let s1 := match fuseRecordCount r with
    | some k => fuseEvent s k
    | none => s
  if r.type = 3 ∧ fieldAt r.data 0 1 % 2 = 1 then fuseHeld s1 else s1

/-! ### Messages and records of the writer -/

/-- A message cut into the 64-byte baseline transmission units of MCTP (R563). -/
def mctpUnits (b : List Byte) : List (List Byte) :=
  (List.range ((b.length + 63) / 64)).map fun i => (b.drop (64 * i)).take 64

/-- An MCTP message sent, its type in the first byte, unit by unit (R563). -/
def mctpOut (s : State) (h : Half) (b : List Byte) : State := { s with out := s.out ++ (mctpUnits b).map (Output.mctp h) }

/-- A PlatformEventMessage (PLDM type 2, command 0x0A) carrying a record: it awaits acknowledgement, and the role holder sends it unless the
bus is stuck (R562 to R564). -/
def pldmEvent (s : State) (w : Half) (r : LdgRec) : State :=
  if r.type = 3 ∨ r.type = 8 ∨ pldmFault r then
    let s1 := { s with pldmUnacked := s.pldmUnacked ++ [r] }
    if busStuck s w then s1 else mctpOut s1 w (leBytes 1 1 ++ leBytes 1 2 ++ leBytes 1 0x0A ++ r.bytes)
  else s

/-- A record accepted by the writer: it takes the next SEQ, joins the writer's buffer and the event history, and counts toward the fuses
(R554, R560). -/
def ldgTake (s : State) (w : Half) (r : LdgRec) : State :=
  let n := s.rd (.tel .LDG_NEXT) .h0
  let r' := { r with seq := n, taken := true }
  let s1 := { s with ldgBuf := s.ldgBuf ++ [(w, r')], history := (s.history ++ [r']).drop (s.history.length - 31) }
  pldmEvent (fuseRecord (s1.wr (.tel .LDG_NEXT) .h0 (n + 1)) r') w r'

/-- A record produced on a half: accepted when the half's MC writes the ledger, else held there as a delta; dropped when
the MC's buffer of 64 is full (R554, R555). -/
def ledger (s : State) (h : Half) (type : Nat) (data : List Byte) : State :=
  let r : LdgRec := ⟨type, h.num, 0, s.rd (.tel .LDG_BOOT) .h0, s.rd (.tel .LDG_LIFE_S) .h0, s.mt h, data, false⟩
  if 64 ≤ s.ldgHeld h then ldgDrop s h (s.mt h)
  else if s.holds h then ldgTake s h r
  else { s with ldgBuf := s.ldgBuf ++ [(h, r)] }

/-! ### Records of the chip -/

/-- The half whose MC produces a record of the chip: the role holder, else half 0. -/
def State.chipHalf (s : State) : Half := s.holder.getD .h0

/-! ### Fault records -/

/-- The 64 bytes of a fault record with its INDEX and SAMPLE (Table 16.4). -/
def FaultRec.bytes (r : FaultRec) (index sample : Nat) : List Byte :=
  let b := leBytes 8 r.mt ++ leBytes 8 r.tag ++ leBytes 2 r.status ++ leBytes 1 r.type ++ leBytes 1 r.step ++
    leBytes 2 r.seq ++ leBytes 2 r.ring ++ leBytes 2 r.request ++ leBytes 2 r.context ++ leBytes 1 r.partition ++
    leBytes 1 r.unit ++ leBytes 2 0 ++ leBytes 8 r.addr ++ leBytes 4 index ++ leBytes 4 sample ++
    leBytes 8 r.detail ++ leBytes 4 0
  b ++ leBytes 4 (crc32c b)

/-- The FAULT record of the ledger for a fault record: bytes 0x10 to 0x1D and 0x20 to 0x27 (Table 17.7). -/
def FaultRec.ledgerData (r : FaultRec) : List Byte :=
  let b := r.bytes 0 0
  (b.drop 0x10).take 14 ++ (b.drop 0x20).take 8

/-- The copy of a record, with its INDEX and SAMPLE (INDEX + 2³² × SAMPLE), in FLT_REC_0 to FLT_REC_15 of the half, overwriting
the oldest (R516). -/
def keepFaultRec (s : State) (h : Half) (r : FaultRec) (index : Nat) : State :=
  let n := s.rd (.flt .FLT_REC_COUNT) h
  let mine := s.faultRecs.filter fun p => p.1 == h
  let old := if 16 ≤ mine.length then mine.drop (mine.length - 15) else mine
  let others := s.faultRecs.filter fun p => p.1 != h
  let s1 := { s with faultRecs := others ++ old ++ [(h, r, index)] }
  (s1.wr (.flt .FLT_REC_COUNT) h (n + 1)).wr (.flt .FLT_REC_HEAD_NEWEST) h (n % 16)

/-- Records of a function's fault log that are not returned. -/
def logUsed (s : State) (h : Half) (fn : Nat) : Nat :=
  (s.rd (.flt .FLT_LOG_PI) h fn + 2 ^ 32 - s.rd (.flt .FLT_LOG_CI) h fn) % 2 ^ 32

/-- A function's fault log takes another record: it is enabled, not full, and the host write can be issued (R516). -/
def logRoom (s : State) (h : Half) (fn : Nat) : Bool :=
  s.rd (.flt .FLT_LOG_CFG_EN) h fn == 1 && s.hostOk h fn &&
    decide (logUsed s h fn < 2 ^ s.rd (.flt .FLT_LOG_CFG_LOG2) h fn)

/-- A sample slot is free for record number `n` (R516). -/
def sampleRoom (s : State) (h : Half) (fn : Nat) : Bool :=
  decide (logUsed s h fn < 2 ^ s.rd (.flt .FLT_LOG_CFG_SMP_LOG2) h fn)

/-- The SAMPLE field of a function's next record: V and the slot when a sample is given and is written (R516). -/
def sampleField (s : State) (h : Half) (fn : Nat) (given : Bool) : Nat :=
  if given && logRoom s h fn && sampleRoom s h fn then
    0x80000000 + s.rd (.flt .FLT_LOG_PI) h fn % 2 ^ s.rd (.flt .FLT_LOG_CFG_SMP_LOG2) h fn
  else 0

/-- The sample, then the record, written to a function's log, or the record dropped and counted (R516). `sample` gives
the 32 KB of a context step from the record's own bytes. -/
def logFault (s : State) (h : Half) (fn : Nat) (r : FaultRec) (sample : Option (List Byte → List Byte)) : State :=
  let n := s.rd (.flt .FLT_LOG_PI) h fn
  if logRoom s h fn then
    let slot := n % 2 ^ s.rd (.flt .FLT_LOG_CFG_SMP_LOG2) h fn
    let v := sample.isSome && sampleRoom s h fn
    let b := r.bytes n (if v then 0x80000000 + slot else 0)
    let smpAddr := hostBit + s.rd (.flt .FLT_SMP_BASE) h fn + slot * 0x8000
    let mem1 := match sample with
      | some g => if v then s.mem.writeN smpAddr (g b) else s.mem
      | none => s.mem
    let a := hostBit + s.rd (.flt .FLT_LOG_BASE) h fn + n % 2 ^ s.rd (.flt .FLT_LOG_CFG_LOG2) h fn * 64
    { s with mem := mem1.writeN a b }.wr (.flt .FLT_LOG_PI) h (n + 1) fn
  else raiseCause (s.inc (.flt .FLT_LOG_LOST) h 1 fn) 12 h 2

/-- A fault record on a half: its copy, the log of its function, the event record, and FLT_EVT.RECORD (R515, R516). -/
def faultLog (s : State) (h : Half) (fn : Nat) (r : FaultRec) (sample : Option (List Byte → List Byte)) : State :=
  let n := s.rd (.flt .FLT_LOG_PI) h fn
  let copy := keepFaultRec s h r (n + 2 ^ 32 * sampleField s h fn sample.isSome)
  raiseCause (postEvent (logFault copy h fn r sample) h fn r.status r.mt n) 12 h 1

/-- A fault record, and the ledger's FAULT record where R553 asks for one. -/
def faultRecord (s : State) (h : Half) (fn : Nat) (r : FaultRec) (sample : Option (List Byte → List Byte)) : State :=
  if 0x10 ≤ r.type then ledger (faultLog s h fn r sample) h 5 r.ledgerData else faultLog s h fn r sample

/-- A fault record with no guilty chain or context (Table 16.4). -/
def plainFault (mt status type step unit detail : Nat) : FaultRec :=
  ⟨mt, 0, status, type, step, 0, 0, 0, 0, 0, unit, 0, detail⟩

/-! ### Histograms (R549, R550) -/

/-- A bin of a histogram for a sample (Table 17.4). -/
def histBin (mode u : Nat) (lo v : Int) : Nat :=
  if mode = 0 then
    if v < ((2 ^ u : Nat) : Int) then 0 else min 31 (Nat.log2 (v.toNat / 2 ^ u) + 1)
  else if v < lo then 0 else min 31 (((v - lo).toNat) / 2 ^ u + 1)

/-- A sample added to a histogram (R550). -/
def histAdd (s : State) (h : Half) (k : Nat) (v : Int) : State :=
  let b := histBin (s.rd (.tel .HIST_CFG_MODE) h k) (s.rd (.tel .HIST_CFG_U) h k) (signedOf 32 (s.rd (.tel .HIST_LO) h k)) v
  let s1 := (s.inc (.tel .HIST_BIN) h 1 (k * 32 + b)).inc (.tel .HIST_COUNT) h 1 k
  let sum := signedOf 64 (s.rd (.tel .HIST_SUM) h k) + v
  let cut := clampInt (-(2 ^ 63 : Nat)) ((2 ^ 63 : Nat) - 1) sum
  let s2 := s1.wr (.tel .HIST_SUM) h (unsignedOf 64 cut) k
  let s3 := if cut = sum then s2 else s2.wr (.tel .HIST_CFG_SUM_SAT) h 1 k
  if signedOf 64 (s.rd (.tel .HIST_MAX) h k) < v then
    s3.wr (.tel .HIST_MAX) h (unsignedOf 64 v) k
  else s3

/-- A sample of a source given to every enabled histogram of the half that takes it (R550, R551). -/
def histSample (s : State) (h : Half) (src party : Nat) (v : Int) : State :=
  (List.range 16).foldl (fun t k =>
    if t.rd (.tel .HIST_CFG_EN) h k = 1 ∧ t.rd (.tel .HIST_CFG_SRC) h k = src ∧
        (t.rd (.tel .HIST_CFG_PV) h k = 0 ∨ (src ≤ 11 ∧ t.rd (.tel .HIST_CFG_PART) h k = party)) then histAdd t h k v
    else t) s

end Sys2Proof.Machine
end

