-- ==== Sys2Proof/Machine/Desc.lean ====
section
/-!
DEFINITION. Machine/Desc.lean: the layouts of descriptor heads, extension blocks and operands (R174, R178, R179, R187), the
opcode catalogue (R185), and the checks made on a chain as it is read (R177, R181, Table 5.5a).
-/

namespace Sys2Proof.Machine

/-! ### Heads and blocks -/

/-- Fields of a head (Table 5.2). -/
def hdTag (b : List Byte) : Nat := fieldAt b 0x00 8
def hdOpcode (b : List Byte) : Nat := fieldAt b 0x08 1
def hdClass (b : List Byte) : Nat := fieldAt b 0x09 1 / 32
def hdOrder (b : List Byte) : Bool := (fieldAt b 0x09 1).testBit 3
def hdIrqNow (b : List Byte) : Bool := (fieldAt b 0x09 1).testBit 2
def hdSigOnErr (b : List Byte) : Bool := (fieldAt b 0x09 1).testBit 1
def hdReqV (b : List Byte) : Bool := (fieldAt b 0x0A 2).testBit 15
def hdRequest (b : List Byte) : Nat := fieldAt b 0x0A 2 % 8192
def hdWaitEn (b : List Byte) : Bool := (fieldAt b 0x0C 2).testBit 15
def hdWaitEv (b : List Byte) : Nat := fieldAt b 0x0C 2 % 4096
def hdSigEn (b : List Byte) : Bool := (fieldAt b 0x0E 2).testBit 15
def hdSigEv (b : List Byte) : Nat := fieldAt b 0x0E 2 % 4096
def hdWaitVal (b : List Byte) : Nat := fieldAt b 0x10 4
def hdSigInc (b : List Byte) : Nat := fieldAt b 0x14 2
def hdExtN (b : List Byte) : Nat := fieldAt b 0x16 2 % 8

/-- KIND of an extension block (Table 5.3). -/
def extKind (b : List Byte) : Nat := fieldAt b 0 1

/-- The extension block of a kind in a chain. -/
def extOf (c : Chain) (kind : Nat) : Option (List Byte) := c.exts.find? fun b => extKind b == kind

def kTIME : Nat := 1
def kGROUP : Nat := 2
def kFUSE : Nat := 3
def kMASK : Nat := 4
def kPOS : Nat := 5
def kRING : Nat := 6

def opMARKER : Nat := 0x01
def opFENCE : Nat := 0x02
def opBARRIER : Nat := 0x03
def opTIME_WAIT : Nat := 0x04
def opEVENT_OP : Nat := 0x05
def opCANCEL : Nat := 0x06
def opREQ_OPEN : Nat := 0x08
def opREQ_CLOSE : Nat := 0x09
def opMATMUL : Nat := 0x10
def opFUSED : Nat := 0x12
def opATTN : Nat := 0x18
def opATTN_RING : Nat := 0x19
def opVERIFY : Nat := 0x1A
def opGEN_STEP : Nat := 0x1B
def opCOLL : Nat := 0x20
def opKV_PAGE : Nat := 0x28
def opSHIP : Nat := 0x30
def opCOPY : Nat := 0x38
def opADAPTER_LOAD : Nat := 0x39

/-- A row of Table 5.5: the code, whether REQ_V must be 1 (2), may be (1) or must not be (0), the kinds accepted, and the
kinds required. -/
structure OpRow where
  code : Nat
  req : Nat
  kinds : List Nat
  required : List Nat
deriving DecidableEq, Repr

/-- Table 5.5. -/
def opTable : List OpRow :=
  [⟨opMARKER, 1, [kTIME], []⟩, ⟨opFENCE, 1, [kTIME], []⟩, ⟨opBARRIER, 1, [kTIME], []⟩, ⟨opTIME_WAIT, 1, [], []⟩,
    ⟨opEVENT_OP, 1, [kTIME], []⟩, ⟨opCANCEL, 0, [kTIME], []⟩, ⟨opREQ_OPEN, 2, [kTIME], []⟩, ⟨opREQ_CLOSE, 2, [kTIME], []⟩,
    ⟨opMATMUL, 1, [kTIME, kGROUP], []⟩, ⟨opFUSED, 1, [kTIME, kGROUP, kFUSE], [kFUSE]⟩,
    ⟨opATTN, 2, [kTIME, kGROUP, kMASK, kPOS], []⟩, ⟨opATTN_RING, 2, [kTIME, kMASK, kPOS, kRING], [kRING]⟩,
    ⟨opVERIFY, 2, [kTIME, kPOS], []⟩, ⟨opGEN_STEP, 2, [kTIME, kGROUP], []⟩] ++
  [⟨opCOLL, 1, [kTIME], []⟩, ⟨opKV_PAGE, 2, [kTIME], []⟩, ⟨opSHIP, 2, [kTIME], []⟩, ⟨opCOPY, 1, [kTIME, kGROUP], []⟩,
    ⟨opADAPTER_LOAD, 0, [kTIME], []⟩]

/-- The row of an opcode. -/
def opRow (code : Nat) : Option OpRow := opTable.find? fun r => r.code == code

/-- Records a chain of this head produces (Table 5.5). -/
def recordsOf (b : List Byte) : Nat :=
  if hdOpcode b = opREQ_OPEN then 2 else if hdOpcode b = opGEN_STEP then fieldAt b 0x3B 1 + 1 else 1

/-- The opcode occupies contexts of cores (R337). -/
def isCompute (b : List Byte) : Bool :=
  let o := hdOpcode b
  o == opMATMUL || o == opFUSED || o == opATTN || o == opATTN_RING || o == opVERIFY || o == opGEN_STEP ||
    (o == opKV_PAGE && fieldAt b 0x18 1 == 0 && fieldAt b 0x28 8 != 0)

/-! ### Reserved bits (R177) -/

/-- A named field of an entry: its offset, its size in bytes, and the mask of its bits that are not rsvd. -/
abbrev Named := Nat × Nat × Nat

/-- The named fields of a head before its operands (Table 5.2). -/
def headNamed : List Named :=
  [(0x00, 8, 2 ^ 64 - 1), (0x08, 1, 0xFF), (0x09, 1, 0xEE), (0x0A, 2, 0x9FFF), (0x0C, 2, 0x8FFF), (0x0E, 2, 0x8FFF),
    (0x10, 4, 2 ^ 32 - 1), (0x14, 2, 0xFFFF), (0x16, 2, 7)]

/-- Named fields of whole bytes. -/
def whole (l : List (Nat × Nat)) : List Named := l.map fun p => (p.1, p.2, 256 ^ p.2 - 1)

/-- The operand fields of ATTN, ATTN_RING and VERIFY from 0x38 on (Table 5.7). -/
def attnTail : List Named := whole [(0x38, 2), (0x3B, 1), (0x3C, 2), (0x3E, 2)] ++ [(0x3A, 1, 0xF0)]

/-- The operand fields of an opcode (Table 5.7). -/
def operandNamed (op : Nat) : List Named :=
  if op = opMARKER then whole [(0x18, 4), (0x20, 8), (0x28, 8)]
  else if op = opFENCE then whole [(0x18, 1)]
  else if op = opBARRIER then whole [(0x18, 1)]
  else if op = opTIME_WAIT then whole [(0x18, 8), (0x20, 4)] ++ [(0x24, 1, 0xC0)]
  else if op = opEVENT_OP then [(0x18, 2, 0x0FFF)] ++ whole [(0x1A, 1), (0x1C, 4)]
  else if op = opCANCEL then [(0x18, 2, 0x1FFF)] ++ whole [(0x1A, 1), (0x1B, 1)]
  else if op = opREQ_OPEN then whole [(0x18, 8), (0x20, 4), (0x24, 2), (0x28, 4)] ++ [(0x26, 2, 0x83FF)]
  else if op = opMATMUL ∨ op = opFUSED then
    whole [(0x18, 8), (0x20, 8), (0x28, 8), (0x30, 8), (0x38, 1), (0x3C, 4)] ++ [(0x39, 1, 0xFC), (0x3A, 2, 0x83FF)]
  else if op = opATTN ∨ op = opATTN_RING ∨ op = opVERIFY then
    whole [(0x18, 8), (0x20, 8), (0x28, 8), (0x30, 4), (0x34, 4)] ++ attnTail
  else if op = opGEN_STEP then whole [(0x18, 8), (0x20, 8), (0x28, 8), (0x30, 8), (0x38, 2), (0x3A, 1), (0x3B, 1)]
  else if op = opCOLL then
    whole [(0x18, 8), (0x20, 8), (0x28, 8), (0x30, 4), (0x34, 4), (0x38, 1), (0x39, 1), (0x3C, 4)] ++ [(0x3A, 1, 3)]
  else if op = opKV_PAGE then whole [(0x18, 1), (0x1A, 2), (0x1C, 2), (0x20, 4), (0x24, 4), (0x28, 8), (0x30, 8)]
  else if op = opSHIP then whole [(0x18, 2), (0x1A, 2), (0x1C, 2), (0x20, 4), (0x24, 4), (0x28, 4)] ++ [(0x2C, 1, 1)]
  else if op = opCOPY then whole [(0x18, 8), (0x20, 8), (0x28, 8)] ++ [(0x30, 1, 1)]
  else if op = opADAPTER_LOAD then whole [(0x18, 8), (0x20, 8), (0x28, 4), (0x2C, 2), (0x2E, 2), (0x30, 1)]
  else []

/-- The fields of an extension block: KIND, the rsvd field of 7 bytes behind it (Table 5.3), and its payload (Table 5.4). -/
def extNamed (kind : Nat) : List Named :=
  [(0, 1, 0xFF), (1, 7, 0)] ++
  (if kind = kTIME then whole [(0x08, 8), (0x10, 4)] ++ [(0x14, 1, 0xC0)]
  else if kind = kGROUP then whole [(0x08, 8), (0x10, 4)] ++ [(0x14, 1, 1)]
  else if kind = kFUSE then whole [(0x08, 8), (0x10, 8), (0x18, 1), (0x19, 1), (0x1C, 4)]
  else if kind = kMASK then whole [(0x08, 8), (0x10, 8), (0x18, 4), (0x1C, 4)]
  else if kind = kPOS then whole [(0x08, 4), (0x0C, 4), (0x10, 4)] ++ [(0x14, 1, 3)]
  else whole [(0x08, 1), (0x09, 1), (0x0A, 2), (0x0C, 4), (0x10, 4), (0x14, 4), (0x18, 1)])

/-- The lowest offset of an entry at which a rsvd bit is 1: a named field's own offset, or that of a byte that no table names. -/
def rsvdAt (named : List Named) (b : List Byte) : Option Nat :=
  (List.range 64).findSome? fun i =>
    match named.find? fun f => decide (f.1 ≤ i ∧ i < f.1 + f.2.1) with
    | some f => if f.1 = i ∧ clearBits (fieldAt b f.1 f.2.1) f.2.2 ≠ 0 then some i else none
    | none => if fieldAt b i 1 ≠ 0 then some i else none

/-! ### Ownership -/

/-- The party of a function: partition p, or 64 for the operator. -/
def partyOf (ring : Nat) : Nat := ringFn ring

/-- A number lies in the range `[base, base + count)`. -/
def inRange (n base count : Nat) : Bool := decide (base ≤ n ∧ n < base + count)

/-- An event counter belongs to a ring's function (R194). -/
def ownsCounter (s : State) (h : Half) (fn c : Nat) : Bool :=
  fn == pf || inRange c (s.rd (.desc .EVC_ALLOC_BASE) h fn) (s.rd (.desc .EVC_ALLOC_COUNT) h fn)

/-- A request number of the half, by its low 12 bits, lies in a partition's range (R201). -/
def inReqRange (s : State) (h : Half) (p num : Nat) : Bool :=
  inRange (num % 4096) (s.rd (.desc .REQ_ALLOC_BASE) h p) (s.rd (.desc .REQ_ALLOC_COUNT) h p)

/-- A request number may be a function's: bit 12 is the half, and it lies in the partition's range, or for the operator
in nobody's (R201). -/
def ownsRequest (s : State) (h : Half) (fn num : Nat) : Bool :=
  num / 4096 == h.num &&
    (if fn = pf then (List.range 64).all fun p => !inReqRange s h p num else inReqRange s h fn num)

/-- The request of a number, if it is not FREE. -/
def State.request (s : State) (num : Nat) : Option Request := s.requests.find? fun r => r.num == num

/-! ### The checks (Table 5.5a) -/

/-- A refusal: status, block and offset (R182). -/
abbrev Refused := Nat × Nat × Nat

/-- The first failure of a list of checks. -/
def firstRefused (l : List (Option Refused)) : Option Refused := l.findSome? id

/-- A refusal with a status at an offset of the head, when a condition holds. -/
def when (b : Bool) (status block off : Nat) : Option Refused := if b then some (status, block, off) else none

/-- Blocks with their numbers, from 1. -/
def numbered (exts : List (List Byte)) : List (Nat × List Byte) := (List.range exts.length).map (· + 1) |>.zip exts

/-- Check 2: kinds valid, unique and accepted; required kinds present; the chain not longer than its ring. Of a head read alone, with
EXT_N of 5 to 7, only its length is looked at (R180). -/
def check2 (row : OpRow) (size : Nat) (b : List Byte) (exts : List (List Byte)) : Option Refused :=
  let bad := (numbered exts).findSome? fun p =>
    let k := extKind p.2
    let dup := (exts.take (p.1 - 1)).any fun q => extKind q == k
    when (!(row.kinds.contains k) || dup) ST_DESC_EXT p.1 0
  let missing := decide (hdExtN b ≤ 4) && row.required.any fun k => !(exts.any fun q => extKind q == k)
  firstRefused [when (decide (size < 1 + hdExtN b) || missing) ST_DESC_EXT 0 0x16, bad]

/-- Check 3: rsvd fields zero, EXT_N at most 4. A head read alone for its EXT_N of 5 to 7 is refused at OFFSET 0x16, whatever else it breaks
(R180; log entry 61). -/
def check3 (b : List Byte) (exts : List (List Byte)) : Option Refused :=
  let head := if 4 < hdExtN b then some (ST_DESC_FIELD, 0, 0x16)
    else (rsvdAt (headNamed ++ operandNamed (hdOpcode b)) b).map fun o => (ST_DESC_FIELD, 0, o)
  firstRefused (head :: (numbered exts).map fun p => (rsvdAt (extNamed (extKind p.2)) p.2).map fun o => (ST_DESC_FIELD, p.1, o))

/-- The classes an opcode may carry (Table 10.3). -/
def opClassOk (op cls : Nat) : Bool :=
  if op = opREQ_OPEN then decide (1 ≤ cls ∧ cls ≤ 4) else if op = opGEN_STEP then cls == 3 || cls == 4 else decide (cls ≤ 4)

/-- Check 4: CLASS in range, in the ring's mask and allowed to the opcode (R333, R334). -/
def check4 (s : State) (h : Half) (ring : Nat) (b : List Byte) : Option Refused :=
  let c := hdClass b
  let ok := decide (c ≤ 4) && (s.rd (.sched .RING_SCHED_CLASS_MASK) h ring).testBit c && opClassOk (hdOpcode b) c &&
    (c != 0 || s.rd (.sched .RING_SCHED_URG_EN) h ring == 1)
  when (!ok) ST_DESC_CLASS 0 0x09

/-- Check 5: opcode and target permitted to the function (R350, R342, Table 5.7). -/
def check5 (s : State) (h : Half) (fn : Nat) (b : List Byte) : Option Refused :=
  if hdOpcode b = opCANCEL then
    let part := fieldAt b 0x1A 1
    firstRefused
      [when (fn != pf && fieldAt b 0x1B 1 == 0 && !(ownsRequest s h fn (fieldAt b 0x18 2))) ST_DESC_PRIV 0 0x18,
        when (fn != pf && part.testBit 7) ST_DESC_PRIV 0 0x1A]
  else if hdOpcode b = opADAPTER_LOAD then
    when (fn != pf && !(inRange (fieldAt b 0x2C 2) (s.rd (.sched .ADP_ALLOC_BASE) h fn) (s.rd (.sched .ADP_ALLOC_COUNT) h fn)))
      ST_DESC_PRIV 0 0x2C
  else none

/-- Check 6: REQ_V and the request (R201, R202). -/
def check6 (s : State) (h : Half) (fn : Nat) (row : OpRow) (b : List Byte) : Option Refused :=
  let v := hdReqV b
  let needs := row.req == 2 || (row.code == opFENCE && fieldAt b 0x18 1 == 1)
  if (needs ∧ v = false) ∨ (row.req = 0 ∧ v = true) then some (ST_DESC_REQUEST, 0, 0x0A)
  else if v = false then none
  else if ownsRequest s h fn (hdRequest b) = false then some (ST_DESC_REQUEST, 0, 0x0A)
  else match s.request (hdRequest b) with
    | none => when (row.code != opREQ_OPEN) ST_DESC_REQUEST 0 0x0A
    | some r =>
      if row.code = opREQ_OPEN then some (ST_DESC_REQUEST, 0, 0x0A)
      else when r.closing ST_REQ_CLOSED 0 0x0A

/-- SIG_EV passes check 7 (R183). -/
def sigEvOk (s : State) (h : Half) (fn : Nat) (b : List Byte) : Bool := ownsCounter s h fn (hdSigEv b)

/-- Check 7: enabled counters belong to the function; SIG_INC as R174 requires. -/
def check7 (s : State) (h : Half) (fn : Nat) (b : List Byte) : Option Refused :=
  firstRefused
    [when (hdWaitEn b && !(ownsCounter s h fn (hdWaitEv b))) ST_DESC_EVENT 0 0x0C,
      when (hdSigEn b && !(sigEvOk s h fn b)) ST_DESC_EVENT 0 0x0E,
      when (hdSigEn b != (hdSigInc b != 0)) ST_DESC_EVENT 0 0x14,
      when (hdOpcode b == opEVENT_OP && !(ownsCounter s h fn (fieldAt b 0x18 2 % 4096))) ST_DESC_EVENT 0 0x18]

/-- The reserve that a function's event ring keeps (R163). -/
def evtReserve (s : State) (h : Half) (ring : Nat) : Nat := if eventRing s h (ringFn ring) = some ring then 16 else 0

/-- Check 8: the records fit the completion ring. -/
def check8 (s : State) (h : Half) (ring : Nat) (b : List Byte) : Option Refused :=
  when (decide (cqSize s h ring < recordsOf b + evtReserve s h ring)) ST_DESC_RECORDS 0
    (if hdOpcode b = opGEN_STEP then 0x3B else 0x08)

/-- The alignment an opcode asks of its address fields: (offset, alignment). -/
def alignRules (op : Nat) : List (Nat × Nat) :=
  if op = opMARKER then [(0x20, 8)]
  else if op = opREQ_OPEN then [(0x18, 64)]
  else if op = opMATMUL ∨ op = opFUSED then [(0x18, 256), (0x20, 256), (0x28, 256), (0x30, 128)]
  else if op = opATTN ∨ op = opATTN_RING then [(0x18, 256), (0x20, 256), (0x28, 8)]
  else if op = opVERIFY then [(0x18, 256), (0x20, 256), (0x28, 4)]
  else if op = opGEN_STEP then [(0x18, 256), (0x20, 256), (0x28, 4), (0x30, 8)]
  else if op = opCOLL then [(0x18, 4), (0x20, 4)]
  else if op = opADAPTER_LOAD then [(0x18, 4), (0x20, 256)]
  else []

/-- The alignment of KV_PAGE's ADDR and AUX by SUBOP (R318, R322). -/
def kvAlign (b : List Byte) : List (Nat × Nat) :=
  let sub := fieldAt b 0x18 1
  if sub = 7 ∨ sub = 8 then [(0x28, 256)] else if sub = 9 then [(0x28, 4), (0x30, 8)] else [(0x28, 4)]

/-- The alignment of a block's address fields. -/
def extAlign (kind : Nat) : List (Nat × Nat) :=
  if kind = kGROUP then [(0x08, 16)] else if kind = kFUSE then [(0x08, 256), (0x10, 128)]
  else if kind = kMASK then [(0x08, 4), (0x10, 4)] else []

/-- The first misaligned address of an entry. -/
def misaligned (rules : List (Nat × Nat)) (blk : Nat) (b : List Byte) : Option Refused :=
  rules.findSome? fun r => when (fieldAt b r.1 8 % r.2 != 0) ST_DESC_ALIGN blk r.1

/-- Check 9: alignment of every address field (R187). -/
def check9 (b : List Byte) (exts : List (List Byte)) : Option Refused :=
  let rules := if hdOpcode b = opKV_PAGE then kvAlign b else alignRules (hdOpcode b)
  firstRefused (misaligned rules 0 b :: (numbered exts).map fun p => misaligned (extAlign (extKind p.2)) p.1 p.2)

/-- A FP32 bit pattern that is not finite. -/
def notFinite (x : Nat) : Bool := bitsAt x 23 8 == 255

/-- A FP32 bit pattern that is at most 1. -/
def atMostOne (x : Nat) : Bool := x.testBit 31 || decide (x ≤ 0x3F800000)

/-- An operand range: head offset and the condition that breaks it. -/
abbrev Broken := Nat × Bool

/-- A format code of Table 5.6. -/
def fmtOk (f : Nat) : Bool := decide (f ≤ 6)

/-- An address names host memory. -/
def isHost (a : Nat) : Bool := decide (hostBit ≤ a)

/-- An address that a table places in HBM, but that names host memory or scratchpad; a hole is found at the access (R184). -/
def notHbm (a : Nat) : Bool :=
  match targetOf a with
  | .hbm _ | .hole => false
  | .scratch _ _ | .host => true

/-- An address that names scratchpad. -/
def isScratch (a : Nat) : Bool :=
  match targetOf a with
  | .scratch _ _ => true
  | _ => false

/-- Broken ranges of a matrix operation (R187, R207, R251). -/
def matBroken (op : Nat) (b : List Byte) : List Broken :=
  let fa := fieldAt b 0x38 1 / 16
  let fb := fieldAt b 0x38 1 % 16
  let fc := fieldAt b 0x39 1 / 16
  let acc := fieldAt b 0x39 1 / 4 % 4
  [(0x18, isHost (fieldAt b 0x18 8)), (0x20, isHost (fieldAt b 0x20 8)), (0x28, isHost (fieldAt b 0x28 8)),
    (0x30, isHost (fieldAt b 0x30 8)),
    (0x38, !(fmtOk fa) || !(fmtOk fb) || fa == 6 || fb == 6 || ((fa == 3) != (fb == 3))),
    (0x39, !(fmtOk fc) || decide (2 ≤ acc) || (acc == 1 && (fc == 0 || fc == 3)) || (op == opFUSED && acc == 1))]

/-- Broken ranges of an attention opcode (R187, R258 to R261). -/
def attnBroken (op : Nat) (b : List Byte) : List Broken :=
  let fl := fieldAt b 0x3A 1
  let len := fieldAt b 0x34 4
  [(0x18, isHost (fieldAt b 0x18 8)), (0x20, isHost (fieldAt b 0x20 8)),
    (0x30, op != opVERIFY && decide (2 ^ 24 < fieldAt b 0x30 4 + len)),
    (0x34, if op = opVERIFY then decide (len = 0 ∨ 1024 < len) else decide (len = 0 ∨ 2 ^ 20 < len)),
    (0x3A, decide (fl / 64 = 3) || (op == opATTN_RING && fl / 64 != 1) || (op == opVERIFY && fl / 16 % 4 != 0)),
    (0x3B, decide (fieldAt b 0x3B 1 = 0 ∨ 16 < fieldAt b 0x3B 1)), (0x3E, fieldAt b 0x3E 2 == 0)]

/-- Broken ranges of COLL (R400, R410, R415). -/
def collBroken (b : List Byte) : List Broken :=
  let op := fieldAt b 0x38 1
  let fmt := fieldAt b 0x39 1 / 16
  let red := fieldAt b 0x39 1 % 16
  let notch := (fieldAt b 0x3A 1).testBit 0
  let var_ := (fieldAt b 0x3A 1).testBit 1
  let tmo := fieldAt b 0x3C 4
  [(0x28, fieldAt b 0x28 8 == 0 || (notch && decide (16 < fieldAt b 0x28 8))),
    (0x38, decide (3 < op) || (notch && (op == 1 || op == 2))),
    (0x39, decide (fmt = 0 ∨ 6 < fmt ∨ 2 < red) || (decide (2 ≤ op) && red != 0)),
    (0x3A, var_ && (notch || op == 0 || op == 3)), (0x3C, tmo != 0 && decide (tmo < 50 ∨ 1000000 < tmo))]

/-- Broken ranges of KV_PAGE that its head alone decides (R297, R300, R310, R318, R320, R326). -/
def kvBroken (b : List Byte) : List Broken :=
  let sub := fieldAt b 0x18 1
  let kvh := fieldAt b 0x1C 2
  let aux := fieldAt b 0x30 8
  [(0x18, decide (10 < sub)),
    (0x1A, (sub == 9 || sub == 10) && fieldAt b 0x1A 2 != 0xFFFF),
    (0x1C, (sub == 9 || sub == 10 || sub == 6) && kvh != 0xFFFF),
    (0x20, (sub == 10 && fieldAt b 0x20 4 != 0) || (sub == 1 && fieldAt b 0x20 4 % 64 != 0)),
    (0x24, ((sub == 0 || sub == 4 || sub == 5) && fieldAt b 0x24 4 == 0) || (sub == 1 && fieldAt b 0x24 4 % 64 != 0)),
    (0x28, (sub == 4 || sub == 5) && fieldAt b 0x28 8 != 0),
    (0x30, (sub != 9 && sub != 10 && kvh == 0xFFFF && bitsAt aux 40 8 != 0) ||
      ((sub == 4 || sub == 5) && clearBits aux (0xFF * 2 ^ 40) != 0) || (sub == 10 && aux != 0))]

/-- A ship plan's index names none of the 256 plans, and is not 0xFFFF for none (R15, R425, Table 19.5). -/
def planBad (v : Nat) : Bool := decide (256 ≤ v) && v != 0xFFFF

/-- Broken ranges of an opcode's operands. -/
def operandBroken (h : Half) (op : Nat) (b : List Byte) : List Broken :=
  if op = opFENCE then [(0x18, decide (1 < fieldAt b 0x18 1))]
  else if op = opEVENT_OP then [(0x1A, decide (1 < fieldAt b 0x1A 1))]
  else if op = opCANCEL then
    [(0x18, fieldAt b 0x1B 1 == 0 && fieldAt b 0x18 2 / 4096 != h.num),
      (0x1B, decide (1 < fieldAt b 0x1B 1))]
  else if op = opREQ_OPEN then
    [(0x18, notHbm (fieldAt b 0x18 8)), (0x20, decide (fieldAt b 0x20 4 = 0 ∨ 2 ^ 24 < fieldAt b 0x20 4)), (0x24,
      planBad (fieldAt b 0x24 2))]
  else if op = opMATMUL ∨ op = opFUSED then matBroken op b
  else if op = opATTN ∨ op = opATTN_RING ∨ op = opVERIFY then attnBroken op b
  else if op = opGEN_STEP then
    [(0x18, isHost (fieldAt b 0x18 8)), (0x20, isHost (fieldAt b 0x20 8)), (0x38, decide (256 < fieldAt b 0x38 2)),
      (0x3A, decide (fieldAt b 0x3A 1 < 4 ∨ 6 < fieldAt b 0x3A 1)), (0x3B, fieldAt b 0x3B 1 == 0),
      (0x0C, decide (1 < fieldAt b 0x3B 1) && !(hdWaitEn b))]
  else if op = opCOLL then collBroken b
  else if op = opKV_PAGE then kvBroken b
  else if op = opSHIP then [(0x18, planBad (fieldAt b 0x18 2)), (0x1C, fieldAt b 0x1C 2 == 0), (0x28, fieldAt b 0x28 4 == 0)]
  else if op = opCOPY then
    [(0x18, (fieldAt b 0x30 1).testBit 0 && fieldAt b 0x18 8 != 0),
      (0x28, decide (fieldAt b 0x28 8 = 0 ∨ 2 ^ 32 < fieldAt b 0x28 8))]
  else if op = opADAPTER_LOAD then
    [(0x20, notHbm (fieldAt b 0x20 8)), (0x28, fieldAt b 0x28 4 % 256 != 0), (0x2C, decide (1023 < fieldAt b 0x2C 2)),
      (0x2E, decide (fieldAt b 0x2E 2 = 0 ∨ 256 < fieldAt b 0x2E 2)), (0x30, !(fmtOk (fieldAt b 0x30 1)))]
  else []

/-- Broken ranges of an extension block (Table 5.4, §8.3 "At the edges", R268). -/
def extBroken (b x : List Byte) : List Broken :=
  let k := extKind x
  if k = kGROUP then
    [(0x08, isScratch (fieldAt x 0x08 8)), (0x10, decide (fieldAt x 0x10 4 = 0 ∨ 16384 < fieldAt x 0x10 4))]
  else if k = kFUSE then
    [(0x08, isHost (fieldAt x 0x08 8)), (0x10, isHost (fieldAt x 0x10 8)),
      (0x18, decide (fieldAt x 0x18 1 = 0 ∨ 6 < fieldAt x 0x18 1)),
      (0x19, !(fmtOk (fieldAt x 0x19 1 / 16)) || decide (5 < fieldAt x 0x19 1 % 16) || fieldAt x 0x19 1 / 16 == 6 ||
        ((fieldAt x 0x19 1 / 16 == 3) != (fieldAt x 0x19 1 % 16 == 3))),
      (0x1C, fieldAt x 0x18 1 != 6 && fieldAt x 0x1C 4 != 0)]
  else if k = kMASK then
    let bitmap := (fieldAt b 0x3A 1).testBit 5
    [(0x08, bitmap && fieldAt x 0x08 8 == 0), (0x10, fieldAt x 0x10 8 == 0 && fieldAt x 0x08 8 != 0)]
  else if k = kPOS then
    let rope := (fieldAt x 0x14 1).testBit 0
    [(0x08, notFinite (fieldAt x 0x08 4) || (rope && atMostOne (fieldAt x 0x08 4))), (0x0C, notFinite (fieldAt x 0x0C 4)),
      (0x10, notFinite (fieldAt x 0x10 4))]
  else if k = kRING then
    [(0x08, decide (2 < fieldAt x 0x08 1)), (0x09, decide (1 < fieldAt x 0x09 1)), (0x18, decide (1 < fieldAt x 0x18 1)),
      (0x14, fieldAt x 0x14 4 != 0 && decide (fieldAt x 0x14 4 < 50 ∨ 1000000 < fieldAt x 0x14 4))]
  else []

/-- The lowest broken offset of a list. -/
def lowestBroken (l : List Broken) : Option Nat :=
  (l.filter (·.2)).foldl (fun m p => match m with
    | none => some p.1
    | some o => some (min o p.1)) none

/-- Check 10: every other field in its stated range; a bitmap asked for needs a MASK block. `more` holds the ranges of the head that the
page map of its request bounds. -/
def check10 (h : Half) (b : List Byte) (exts : List (List Byte)) (more : List Broken) : Option Refused :=
  let op := hdOpcode b
  let noMask := (op == opATTN || op == opATTN_RING) && (fieldAt b 0x3A 1).testBit 5 &&
    !(exts.any fun x => extKind x == kMASK)
  let grpStats := op == opATTN && fieldAt b 0x28 8 != 0 && exts.any fun x => extKind x == kGROUP
  let hd := lowestBroken (operandBroken h op b ++ [(0x3A, noMask), (0x28, grpStats)] ++ more)
  firstRefused (hd.map (fun o => (ST_DESC_FIELD, 0, o)) ::
    (numbered exts).map fun p => (lowestBroken (extBroken b p.2)).map fun o => (ST_DESC_FIELD, p.1, o))

/-- DETAIL of a chain's kind 0 record before any of its work (Table 5.8): MARKER's VALUE, an EPOCH, and for a group no failing entry. -/
def startDetail (b : List Byte) (exts : List (List Byte)) : Nat :=
  let ext (k : Nat) : Option (List Byte) := exts.find? fun x => extKind x == k
  if hdOpcode b = opMARKER then fieldAt b 0x18 4
  else if hdOpcode b = opCOLL then fieldAt b 0x34 4
  else if hdOpcode b = opATTN_RING then ((ext kRING).map fun x => fieldAt x 0x10 4).getD 0
  else if (ext kGROUP).isSome ∧ hdOpcode b ≠ opGEN_STEP then 0xFFFF
  else 0

/-- All the checks of Table 5.5a, in order, on a chain read from a ring. -/
def chainChecks (s : State) (h : Half) (ring : Nat) (b : List Byte) (exts : List (List Byte)) (more : List Broken) :
    Option Refused :=
  match opRow (hdOpcode b) with
  | none => some (ST_DESC_OPCODE, 0, 0x08)
  | some row =>
    let fn := ringFn ring
    firstRefused
      [check2 row (sqSize s h ring) b exts, check3 b exts, check4 s h ring b, check5 s h fn b, check6 s h fn row b,
        check7 s h fn b, check8 s h ring b, check9 b exts, check10 h b exts more]

end Sys2Proof.Machine
end

