-- ==== Sys2Proof/Machine/Contexts.lean ====
section
/-!
DEFINITION. Machine/Contexts.lean: context slots and the contexts in them (R225): their states, entering and leaving a slot,
and the choice of the context that runs (R226, R332).
-/

namespace Sys2Proof.Machine

/-- The half that holds a core of the package. -/
def coreHalf (core : Nat) : Half := if core < 256 then .h0 else .h1

/-- The tag of an owner: [9] V, [8] OPR, [6:0] partition (Table 7.10). -/
def ownerTag (h : Half) (fn : Nat) : Nat := if fn = pf then 0x300 else 0x200 + 64 * h.num + fn

/-- The tag of a bank of a core. -/
def bankTag (s : State) (core bank : Nat) : Nat :=
  bitsAt (s.rd (.tile .SP_TAG) (coreHalf core) (core % 256)) (10 * bank) 10

/-- Banks of slot 0 under BANK_SPLIT (R223). -/
def bankCut (split : Nat) : Nat := if split = 1 then 4 else if split = 2 then 2 else 3

/-- Banks of a slot of a core of a half (R223). -/
def slotBanks (s : State) (h : Half) (core slot : Nat) : List Nat :=
  let n := bankCut (s.rd (.core .CORE_CFG_BANK_SPLIT) h core)
  (List.range 6).filter fun b => if slot = 0 then decide (b < n) else decide (n ≤ b)

/-- The ten bits of a bank in SP_TAG or SP_SCRUB set. -/
def setBank (s : State) (f : Fld) (h : Half) (core bank v : Nat) : State :=
  let x := s.rd f h core
  s.wr f h (x - bitsAt x (10 * bank) 10 * 2 ^ (10 * bank) + v * 2 ^ (10 * bank)) core

/-- A bank takes a tag: zeroed first when its scrub-pending bit names another owner (R254, R487). -/
def tagBank (h : Half) (core tag : Nat) (s : State) (bank : Nat) : State :=
  let pend := bitsAt (s.rd (.tile .SP_SCRUB) h core) (10 * bank) 10
  let base := scratchBase (256 * h.num + core) + bank * 0x40000
  let s1 : State := if pend ≠ 0 ∧ pend ≠ tag then { s with mem := s.mem.clearRange base 0x40000 } else s
  setBank (setBank s1 (.tile .SP_SCRUB) h core bank tag) (.tile .SP_TAG) h core bank tag

/-- The banks of a slot take the tag of the context dispatched to it (R254). -/
def tagSlot (s : State) (h : Half) (core slot fn : Nat) : State :=
  (slotBanks s h core slot).foldl (tagBank h core (ownerTag h fn)) s

/-- The banks of a slot that becomes EMPTY lose their tags; their scrub-pending bits stand (R254, R487). -/
def untagSlot (s : State) (h : Half) (core slot : Nat) : State :=
  (slotBanks s h core slot).foldl (fun t b => setBank t (.tile .SP_TAG) h core b 0) s

/-- The state field of a slot (Table 6.7). -/
def slotFld (slot : Nat) : Fld := if slot = 0 then .core .CORE_STATUS_SLOT0 else .core .CORE_STATUS_SLOT1

/-- The state of a slot: 0 EMPTY, 1 LOADED, 2 RUNNING, 3 SUSPENDED, 4 FAULTED. -/
def slotState (s : State) (h : Half) (core slot : Nat) : Nat := s.rd (slotFld slot) h core

/-- A slot's state set; ACTIVE follows the slot that runs. -/
def setSlot (s : State) (h : Half) (core slot code : Nat) : State :=
  let s1 := s.wr (slotFld slot) h code core
  if code = 2 then s1.wr (.core .CORE_STATUS_ACTIVE) h slot core else s1

/-- SLOTs_CTX of a slot. -/
def setSlotCtx (s : State) (h : Half) (core slot v part opr req : Nat) : State :=
  if slot = 0 then
    (((s.wr (.core .SLOT0_CTX_V) h v core).wr (.core .SLOT0_CTX_PARTITION) h part core).wr
      (.core .SLOT0_CTX_OPR) h opr core).wr (.core .SLOT0_CTX_REQUEST) h req core
  else
    (((s.wr (.core .SLOT1_CTX_V) h v core).wr (.core .SLOT1_CTX_PARTITION) h part core).wr
      (.core .SLOT1_CTX_OPR) h opr core).wr (.core .SLOT1_CTX_REQUEST) h req core

/-- The identifier of a context: bit 9 the half, [9:1] the core, [0] the slot (Table 0.4). -/
def Context.id (c : Context) : Nat := c.half.num * 512 + c.core * 2 + c.slot

/-- The context in a slot. -/
def ctxAt (s : State) (h : Half) (core slot : Nat) : Option Context :=
  s.contexts.find? fun c => c.half == h && c.core == core && c.slot == slot

/-- One context changed. -/
def setCtx (s : State) (h : Half) (core slot : Nat) (f : Context → Context) : State :=
  { s with contexts := s.contexts.map fun c => if c.half = h ∧ c.core = core ∧ c.slot = slot then f c else c }

/-- SLOTs_CTX of a function's context: PARTITION, OPR and REQUEST. -/
def setSlotOwner (s : State) (h : Half) (core slot fn req : Nat) : State :=
  setSlotCtx s h core slot 1 (if fn = pf then 0 else 64 * h.num + fn) (bit (fn == pf)) req

/-- A context put into a slot, LOADED, and its banks tagged (R225, R254). -/
def loadCtx (s : State) (c : Context) (req : Nat) : State :=
  let fn := ringFn c.ring
  let s1 := tagSlot { s with contexts := s.contexts ++ [c] } c.half c.core c.slot fn
  setSlotOwner (setSlot s1 c.half c.core c.slot 1) c.half c.core c.slot fn req

/-- Class code of a context: its chain's; 5, below every class, for a context without a chain (R331). -/
def ctxClass (s : State) (x : Context) : Nat :=
  match s.chains.find? fun c => x.chainNo == some c.readNo with
  | some c => hdClass c.head
  | none => 5

/-- A context that has read its nest and works for a chain. -/
def atWork (x : Context) : Bool := x.read && x.chainNo.isSome

/-- A context that a core may run: dispatched, with work, and not waiting for data (R332). -/
def runnable (s : State) (x : Context) : Bool :=
  let k := slotState s x.half x.core x.slot
  atWork x && !x.waiting && (k == 1 || k == 2 || k == 3)

/-- The array moves to a slot: the running context is SUSPENDED, the slot's is RUNNING (R226), and its time begins anew (R512). -/
def toArray (s : State) (h : Half) (core slot : Nat) : State :=
  let s1 := if slotState s h core (1 - slot) = 2 then setSlot s h core (1 - slot) 3 else s
  let s2 := setCtx (setSlot s1 h core slot 2) h core slot fun c => { c with boundaryMt := s.mt h }
  bump (s2.inc (.core .SWITCH_CNT) h 1 core) h 0 5 1

/-- A preemption counted (Tables 10.10 and 17.2). -/
def countPreempt (s : State) (h : Half) : State := bump (s.inc (.sched .PREEMPT_CNT) h 1) h 0 4 1

/-- The choice of R332 at a boundary: the runnable slot of the lower class code; on equal codes the running context stays. A running
context with passes in the array is at no boundary, and keeps it (R209). -/
def resched (s : State) (h : Half) (core : Nat) : State :=
  let held := [0, 1].filterMap fun k => ctxAt s h core k
  let cand := held.filter (runnable s)
  match held.find? fun x => slotState s h core x.slot == 2 with
  | some x =>
    if 0 < x.inArray then s
    else match cand.find? fun y => y.slot != x.slot with
      | none => s
      | some y =>
        if runnable s x = false then toArray s h core y.slot
        else if ctxClass s y < ctxClass s x then countPreempt (toArray s h core y.slot) h
        else s
  | none =>
    match cand with
    | [] => s
    | [y] => toArray s h core y.slot
    | y :: z :: _ =>
      let last := s.rd (.core .CORE_STATUS_ACTIVE) h core
      if ctxClass s z < ctxClass s y ∨ (ctxClass s z = ctxClass s y ∧ last = z.slot) then toArray s h core z.slot
      else toArray s h core y.slot

/-- The choice of R332, where a context is at a boundary. -/
def reschedIf (b : Bool) (s : State) (x : Context) : State := if b then resched s x.half x.core else s

/-- A core on whose array no context stands runs one, if it can; a running context is left alone: R332 names no other point at which
it is displaced (log entry 64). -/
def startIdle (s : State) (h : Half) (core : Nat) : State :=
  if slotState s h core 0 = 2 ∨ slotState s h core 1 = 2 then s else resched s h core

/-- Passes drained: counted, and MT of the boundary noted (R209, R512). -/
def drain (s : State) (x : Context) : State :=
  let s1 := bump (s.inc (.core .PASS_CNT) x.half x.inArray x.core) x.half 0 0 x.inArray
  setCtx s1 x.half x.core x.slot fun d => { d with inArray := 0, boundaryMt := s.mt x.half }

/-- A context begins to wait for data: its passes have drained, it is SUSPENDED, and its core runs the other slot if it can (R332). -/
def ctxWait (s : State) (x : Context) : State :=
  let s1 := setCtx (if 0 < x.inArray then drain s x else s) x.half x.core x.slot fun c => { c with waiting := true }
  if slotState s x.half x.core x.slot = 2 then startIdle (setSlot s1 x.half x.core x.slot 3) x.half x.core else s1

/-- A context that waits for data goes on; its core runs it if it is idle (R332). -/
def ctxWake (s : State) (x : Context) : State :=
  startIdle (setCtx s x.half x.core x.slot fun d => { d with waiting := false }) x.half x.core

/-- Contexts that wait for data go on; those that hold a range for its combine wait for that. -/
def wakeCtxs (s : State) (p : Context → Bool) : State := (s.contexts.filter fun x => x.waiting && !x.comb && p x).foldl ctxWake s

/-- The first pass of an URGENT chain enters the array: the interval since its own doorbell, of which URG_LAT_MAX keeps the longest
(R355, R357). -/
def urgentPass (s : State) (x : Context) : State :=
  match s.chains.find? fun c => x.standing && x.chainNo == some c.readNo && !c.urgSeen with
  | none => s
  | some c =>
    let s0 := { s with chains := s.chains.map fun d => if d.readNo = c.readNo then { d with urgSeen := true } else d }
    let s1 := histSample s0 x.half 0 (ringFn x.ring) ((s.mt x.half - c.dbMt : Nat) : Int)
    s1.wr (.sched .URG_LAT_MAX) x.half (max (s.rd (.sched .URG_LAT_MAX) x.half) (min (s.mt x.half - c.dbMt) (2 ^ 32 - 1)))

/-- The passes of a context in a slot drained, where some are in the array: a pass is never interrupted (§6.2). -/
def drainAt (s : State) (h : Half) (core slot : Nat) : State :=
  match ctxAt s h core slot with
  | some x => if 0 < x.inArray then drain s x else s
  | none => s

/-- A context leaves its slot, which becomes EMPTY; a slot that was on the array leaves it to the other (R332). -/
def dropCtx (s : State) (h : Half) (core slot : Nat) : State :=
  let s0 := drainAt s h core slot
  let s1 := { s0 with contexts := s0.contexts.filter fun c => !(c.half == h && c.core == core && c.slot == slot) }
  let s2 := setSlotCtx (untagSlot (setSlot s1 h core slot 0) h core slot) h core slot 0 0 0 0
  startIdle s2 h core

/-- A context as it enters a slot. -/
def newContext (h : Half) (core slot ring : Nat) (chainNo : Option Nat) (standing : Bool) (rank mt : Nat) : Context :=
  { half := h, core := core, slot := slot, ring := ring, chainNo := chainNo, standing := standing, rank := rank, nest := [],
    item := none, next := none, nest2 := [], read := false, pass := 0, inArray := 0, loads := [], landed := [],
    phase2 := false, acc := [], vec := false, vrow := 0, qv := [], stats := [], idle := true, fetching := false,
    entry := none, comb := false, lastOff := 0, waiting := false,
    startMt := mt, boundaryMt := mt }

/-- A standing context whose chain is over waits in its slot again, LOADED, its window and tags as they are (R335). -/
def standAgain (s : State) (x : Context) : State :=
  let s1 := setCtx (drainAt s x.half x.core x.slot) x.half x.core x.slot fun c =>
    { newContext x.half x.core x.slot x.ring none true 0 (s.mt x.half) with startMt := c.startMt }
  startIdle (setSlot s1 x.half x.core x.slot 1) x.half x.core

/-- The contexts of a chain. -/
def ctxsOf (s : State) (readNo : Nat) : List Context := s.contexts.filter fun c => c.chainNo == some readNo

/-- Every context that meets a condition leaves its slot. -/
def dropCtxs (s : State) (p : Context → Bool) : State :=
  (s.contexts.filter p).foldl (fun t c => dropCtx t c.half c.core c.slot) s

end Sys2Proof.Machine
end

