-- ==== Sys2Proof/Machine/Access.lean ====
section
/-!
DEFINITION. Machine/Access.lean: accesses by device address: holes and unusable units (R43, R45), the partition fence for HBM
(R489, R490), the Pass (R38), the scratchpad fence (R254, R255), and host accesses (R44, R170).
-/

namespace Sys2Proof.Machine

/-- Who makes an access: the half of the issuing engine, the function that owns the work, and the context, if one does. -/
structure Who where
  half : Half
  fn : Nat
  ctx : Option (Nat × Nat)
deriving DecidableEq, Repr

/-- An engine of a half working for a function. -/
def engine (h : Half) (fn : Nat) : Who := ⟨h, fn, none⟩

/-- A core of the package is usable: its bits are set, and its die is not lost (R33, R114, R526). -/
def coreUsable (s : State) (core : Nat) : Bool :=
  s.rd (.core .CORE_STATUS_USABLE) (coreHalf core) (core % 256) == 1 && !((s.rd (.flt .FLT_LOST_DIE) .h0).testBit (core / 64))

/-- A core can be clocked: it is usable, and its die is powered (R101). -/
def coreRuns (s : State) (core : Nat) : Bool := coreUsable s core && s.rd (.boot .DIE_PWR_EN) .h0 (core / 64) == 1

/-- A half's HBM stack is usable. -/
def stackOk (s : State) (k : Half) : Bool := s.rd (.boot .HBM_OK) k == 1

/-- `[a, a + len)` lies inside a range of `size` 2 MB units from unit `base`. -/
def inUnits (a len base size : Nat) : Bool :=
  decide (size ≠ 0 ∧ base * 2 ^ 21 ≤ a ∧ a + len ≤ (base + size) * 2 ^ 21)

/-- The HBM range of partition `p` of a half on a stack. -/
def partRange (s : State) (h : Half) (p : Nat) (stack : Half) : Nat × Nat :=
  match stack with
  | .h0 => (s.rd (.sec .PART_HBM0_BASE) h p, s.rd (.sec .PART_HBM0_SIZE) h p)
  | .h1 => (s.rd (.sec .PART_HBM1_BASE) h p, s.rd (.sec .PART_HBM1_SIZE) h p)

/-- A shared range named by a partition and valid (R489). -/
def sharedOk (s : State) (h : Half) (p k : Nat) : Bool :=
  (s.rd (.sec .PART_SHR_MASK) h p).testBit k && s.rd (.sec .SHR_V) h k == 1

/-- The fence of R489 for an HBM access that does not go through a page map. -/
def fenceOk (s : State) (w : Who) (write : Bool) (stack : Half) (a len : Nat) : Bool :=
  w.fn == pf ||
    (let r := partRange s w.half w.fn stack
     inUnits a len r.1 r.2) ||
    (!write && (List.range 8).any fun k =>
      sharedOk s w.half w.fn k && inUnits a len (s.rd (.sec .SHR_BASE) w.half k) (s.rd (.sec .SHR_SIZE) w.half k))

/-- A bank may be reached (R255). -/
def bankOk (s : State) (w : Who) (core bank : Nat) : Bool :=
  (match w.ctx with
   | some (c, slot) => w.half == coreHalf core && c == core % 256 && (slotBanks s w.half c slot).contains bank
   | none => false) ||
    bankTag s core bank == ownerTag w.half w.fn

/-- The banks that offsets `[off, off + len)` of a core touch. -/
def banksOf (off len : Nat) : List Nat := (List.range 6).filter fun b => decide (b * 0x40000 < off + len ∧ off < (b + 1) * 0x40000)

/-- The status of an access (R490, R255): ST_OK when it is performed. -/
def accessStatus (s : State) (w : Who) (write : Bool) (a len : Nat) : Nat :=
  if len = 0 then ST_OK
  else match targetOf a with
    | .hole => ST_ADDR_INVALID
    | .hbm k =>
      if hbmBase k + hbmSize < a + len ∨ stackOk s k = false then ST_ADDR_INVALID
      else if fenceOk s w write k a len = false then ST_HBM_FENCE
      else if k ≠ w.half ∧ s.lanesUp = false then ST_PASS_DOWN
      else ST_OK
    | .scratch core off =>
      if 0x180000 < off + len ∨ coreRuns s core = false then ST_ADDR_INVALID
      else if coreHalf core ≠ w.half ∧ s.lanesUp = false then ST_PASS_DOWN
      else if (banksOf off len).all fun b => bankOk s w core b then ST_OK
      else ST_SCRATCH_FENCE
    | .host => if 2 ^ 64 < a + len then ST_ADDR_INVALID else if s.hostOk w.half w.fn then ST_OK else ST_HOST_LINK_DOWN

/-- The first address of an access to scratchpad that is refused, at its 256 B. -/
def refusedAt (s : State) (w : Who) (core off len : Nat) : Nat :=
  if coreRuns s core = false then scratchBase core + off / 256 * 256
  else match (banksOf off len).find? fun b => !(bankOk s w core b) with
  | some b => scratchBase core + max off (b * 0x40000) / 256 * 256
  | none => scratchBase core + max off 0x180000 / 256 * 256

/-- The identifier of the accessing context, 0 for an engine. -/
def Who.ctxId (w : Who) : Nat :=
  match w.ctx with
  | some (c, slot) => w.half.num * 512 + c * 2 + slot
  | none => 0

/-- The core of the scratchpad window that an address lies in, whether or not it names a bank (R42, R222). -/
def windowCore (a : Nat) : Option Nat :=
  if 0x1000000000 ≤ a ∧ a < 0x1040000000 then some ((a - 0x1000000000) / 0x200000) else none

/-- The accessor is no context of the core reached: an engine, or another core (Table 7.10). -/
def Who.foreign (w : Who) (core : Nat) : Bool :=
  match w.ctx with
  | some (c, _) => !(w.half == coreHalf core && c == core % 256)
  | none => true

/-- A fence's refusal recorded (R489, R255). -/
def recordRefusal (s : State) (w : Who) (write : Bool) (a len status : Nat) : State :=
  if status = ST_HBM_FENCE then
    let s1 := (s.wr (.sec .SEC_FENCE_INFO_STATUS) w.half status).wr (.sec .SEC_FENCE_INFO_WRITE) w.half (bit write)
    let s2 := (s1.wr (.sec .SEC_FENCE_INFO_SRC) w.half (bit w.ctx.isNone)).wr (.sec .SEC_FENCE_INFO_PARTITION) w.half
      (64 * w.half.num + w.fn)
    raiseCause ((s2.wr (.sec .SEC_FENCE_ADDR) w.half a).inc (.sec .SEC_FENCE_CNT) w.half 1) 11 w.half 8
  else match windowCore a with
    | some core =>
      if status = ST_SCRATCH_FENCE ∨ status = ST_ADDR_INVALID then
        let k := coreHalf core
        let s1 := (s.wr (.tile .FENCE_INFO_STATUS) k status).wr (.tile .FENCE_INFO_WRITE) k (bit write)
        let s2 := (s1.wr (.tile .FENCE_INFO_SRC) k (bit (w.foreign core))).wr (.tile .FENCE_INFO_CONTEXT) k
          (if w.foreign core then 0 else w.ctxId)
        (s2.wr (.tile .FENCE_ADDR) k (refusedAt s w core (a - scratchBase core) len)).inc (.tile .FENCE_CNT) k 1
      else s
    | none => s

/-- Bytes moved by an access, counted (Table 17.2). -/
def countBytes (s : State) (w : Who) (write : Bool) (a len : Nat) : State :=
  match targetOf a with
  | .hbm k =>
    let s1 := bump s k 1 (bit write) len
    if k = w.half then s1
    else bump (bump s1 (if write then w.half else k) 3 9 len) (if write then k else w.half) 3 10 len
  | .host => bump s w.half 3 (bit write) len
  | _ => s

/-- The sample of source 13 for a completed host read, whose latency the spec does not state: a free value (R549; DESIGN CHOICE, log entry
75). -/
def hostLatency (s : State) (h : Half) (a : Nat) : State :=
  if targetOf a = .host then drawFree (histSample s h 13 pf (Config.freeValue s.freeCount : Int)) else s

/-- A read whose latency, where it is a host read, is `ns`. -/
def readTimed (s : State) (w : Who) (a len ns : Nat) : Nat × State × List Byte :=
  let st := accessStatus s w false a len
  if st = ST_OK then
    let s1 := countBytes s w false a len
    (ST_OK, if targetOf a = .host then histSample s1 w.half 13 pf (ns : Int) else s1, s.mem.readN a len)
  else (st, recordRefusal s w false a len st, [])

/-- A read: its status, the state after it, and the bytes, or none of them when it is refused. -/
def readAt (s : State) (w : Who) (a len : Nat) : Nat × State × List Byte :=
  let st := accessStatus s w false a len
  if st = ST_OK then (ST_OK, hostLatency (countBytes s w false a len) w.half a, s.mem.readN a len)
  else (st, recordRefusal s w false a len st, [])

/-- A write: its status and the state after it. -/
def writeAt (s : State) (w : Who) (a : Nat) (data : List Byte) : Nat × State :=
  let st := accessStatus s w true a data.length
  if st = ST_OK then (ST_OK, (countBytes s w true a data.length).store a data (w.ctx.map fun c => (w.half, c.1 / 64)))
  else (st, recordRefusal s w true a data.length st)

/-- One of several equally permitted numbers: which one is a free value (log entry 5). -/
def pickFree (s : State) (l : List Nat) : Option Nat := l[Config.freeValue s.freeCount % l.length]?

end Sys2Proof.Machine
end

