-- ==== Sys2Proof/Machine/Crypto.lean ====
section
/-!
DEFINITION. Machine/Crypto.lean: AES-256-GCM with a 96-bit nonce (R306, R433) and SipHash-2-4 (R316), which the spec names by
their standards.
-/

namespace Sys2Proof.Machine

/-- Multiplication by x in the field of AES. -/
def aesXtime (a : Nat) : Nat := if a < 128 then 2 * a else (2 * a) ^^^ 0x11B

/-- Product in the field of AES, over the lowest `n` bits of `b`. -/
def aesMul : Nat → Nat → Nat → Nat
  | 0, _, _ => 0
  | n + 1, a, b => (if b % 2 = 1 then a else 0) ^^^ aesMul n (aesXtime a) (b / 2)

/-- The square in the field of AES. -/
def aesSq (a : Nat) : Nat := aesMul 8 a a

/-- The inverse in the field of AES: the 254th power. -/
def aesInv (a : Nat) : Nat :=
  let a2 := aesSq a
  let a3 := aesMul 8 a2 a
  let a12 := aesSq (aesSq a3)
  let a15 := aesMul 8 a12 a3
  let a240 := aesSq (aesSq (aesSq (aesSq a15)))
  aesMul 8 (aesMul 8 a240 a12) a2

/-- A byte rotated left by `k`. -/
def rotl8 (a k : Nat) : Nat := (a * 2 ^ k) % 256 + a / 2 ^ (8 - k)

/-- The S-box of AES. -/
def aesSbox (a : Nat) : Nat :=
  let b := aesInv a
  b ^^^ rotl8 b 1 ^^^ rotl8 b 2 ^^^ rotl8 b 3 ^^^ rotl8 b 4 ^^^ 0x63

/-- Bytes combined by exclusive or. -/
def xorBytes (a b : List Nat) : List Nat := List.zipWith (· ^^^ ·) a b

/-- The next word of the key schedule of AES-256: word number `i` after the words `ws`, newest first. -/
def aesNextWord (i : Nat) (ws : List (List Nat)) (rcon : Nat) : List Nat :=
  let prev := ws.headD []
  let t := if i % 8 = 0 then
      (match (prev.drop 1 ++ prev.take 1).map aesSbox with
       | a :: r => (a ^^^ rcon) :: r
       | [] => [])
    else if i % 8 = 4 then prev.map aesSbox else prev
  xorBytes (ws.getD 7 []) t

/-- The key schedule of AES-256, words `i` to 59, newest first. -/
def aesSchedule : Nat → Nat → List (List Nat) → Nat → List (List Nat)
  | 0, _, ws, _ => ws
  | n + 1, i, ws, rcon =>
    aesSchedule n (i + 1) (aesNextWord i ws rcon :: ws) (if i % 8 = 0 then aesXtime rcon else rcon)

/-- Sixteen bytes at a time. -/
def chunks (k : Nat) : Nat → List Nat → List (List Nat)
  | 0, _ => []
  | n + 1, l => if l.isEmpty then [] else l.take k :: chunks k n (l.drop k)

/-- The 15 round keys of a 32-byte key. -/
def aesRoundKeys (key : List Nat) : List (List Nat) :=
  let first := (chunks 4 8 key).reverse
  chunks 16 15 ((aesSchedule 52 8 first 1).reverse.flatten)

/-- SubBytes and ShiftRows. -/
def aesSubShift (s : List Nat) : List Nat :=
  (List.range 16).map fun i => aesSbox (s.getD ((i + 4 * (i % 4)) % 16) 0)

/-- MixColumns. -/
def aesMix (s : List Nat) : List Nat :=
  (List.range 16).map fun i =>
    let c := i / 4 * 4
    let at_ (k : Nat) : Nat := s.getD (c + (i + k) % 4) 0
    aesXtime (at_ 0) ^^^ (aesXtime (at_ 1) ^^^ at_ 1) ^^^ at_ 2 ^^^ at_ 3

/-- The rounds of AES after the first key, the last without MixColumns. -/
def aesRounds : List (List Nat) → List Nat → List Nat
  | [], s => s
  | [k], s => xorBytes (aesSubShift s) k
  | k :: ks, s => aesRounds ks (xorBytes (aesMix (aesSubShift s)) k)

/-- One block encrypted under round keys. -/
def aesBlock (rk : List (List Nat)) (b : List Nat) : List Nat := aesRounds rk.tail (xorBytes b (rk.headD []))

/-- A big-endian number of bytes. -/
def beNat (l : List Nat) : Nat := l.foldl (fun n b => n * 256 + b) 0

/-- `n` big-endian bytes of a number. -/
def beBytes (n x : Nat) : List Nat := (List.range n).map fun i => x / 256 ^ (n - 1 - i) % 256

/-- The product of GHASH, over the highest `n` bits left of `x`. -/
def ghashMul : Nat → Nat → Nat → Nat → Nat
  | 0, _, _, z => z
  | n + 1, x, v, z =>
    ghashMul n x (if v % 2 = 1 then (v / 2) ^^^ (0xE1 * 2 ^ 120) else v / 2) (if x.testBit n then z ^^^ v else z)

/-- Bytes padded with zeros to whole blocks. -/
def padBlock (l : List Nat) : List Nat := l ++ List.replicate (roundUp l.length 16 - l.length) 0

/-- GHASH of additional data and ciphertext. -/
def ghash (h : Nat) (ad ct : List Nat) : Nat :=
  let data := padBlock ad ++ padBlock ct ++ beBytes 8 (8 * ad.length) ++ beBytes 8 (8 * ct.length)
  (chunks 16 data.length data).foldl (fun y b => ghashMul 128 (y ^^^ beNat b) h 0) 0

/-- The keystream of GCM: `n` blocks from counter `c`. -/
def gcmStream (rk : List (List Nat)) (nonce : List Nat) (n c : Nat) : List Nat :=
  ((List.range n).map fun i => aesBlock rk (nonce ++ beBytes 4 (c + i))).flatten

/-- AES-256-GCM: ciphertext and 16-byte tag. -/
def gcmSeal (key nonce ad pt : List Nat) : List Nat × List Nat :=
  let rk := aesRoundKeys key
  let ct := xorBytes pt (gcmStream rk nonce (ceilDiv pt.length 16) 2)
  let h := beNat (aesBlock rk (List.replicate 16 0))
  (ct, xorBytes (beBytes 16 (ghash h ad ct)) (aesBlock rk (nonce ++ beBytes 4 1)))

/-- AES-256-GCM: the plaintext when the tag verifies. -/
def gcmOpen (key nonce ad ct tag : List Nat) : Option (List Nat) :=
  let rk := aesRoundKeys key
  let h := beNat (aesBlock rk (List.replicate 16 0))
  let t := xorBytes (beBytes 16 (ghash h ad ct)) (aesBlock rk (nonce ++ beBytes 4 1))
  if t = tag then some (xorBytes ct (gcmStream rk nonce (ceilDiv ct.length 16) 2)) else none

/-- A 64-bit number rotated left. -/
def rotl64 (a k : Nat) : Nat := (a * 2 ^ k) % 2 ^ 64 + a % 2 ^ 64 / 2 ^ (64 - k)

/-- The four words of SipHash. -/
structure SipState where
  a : Nat
  b : Nat
  c : Nat
  d : Nat
deriving DecidableEq, Repr

/-- One round of SipHash. -/
def sipRound (v : SipState) : SipState :=
  let a1 := (v.a + v.b) % 2 ^ 64
  let b1 := rotl64 v.b 13 ^^^ a1
  let c1 := (v.c + v.d) % 2 ^ 64
  let d1 := rotl64 v.d 16 ^^^ c1
  let a2 := rotl64 a1 32
  let a3 := (a2 + d1) % 2 ^ 64
  let d2 := rotl64 d1 21 ^^^ a3
  let c2 := (c1 + b1) % 2 ^ 64
  let b2 := rotl64 b1 17 ^^^ c2
  ⟨a3, b2, rotl64 c2 32, d2⟩

/-- One 64-bit word taken in by two rounds. -/
def sipWord (v : SipState) (m : Nat) : SipState :=
  let w := sipRound (sipRound { v with d := v.d ^^^ m })
  { w with a := w.a ^^^ m }

/-- The little-endian words of a message, the last with the length in its top byte. -/
def sipWords : Nat → List Byte → Nat → List Nat
  | 0, _, _ => []
  | n + 1, l, len =>
    if l.length < 8 then [leNat l + len % 256 * 2 ^ 56] else leNat (l.take 8) :: sipWords n (l.drop 8) len

/-- SipHash-2-4 of a message under a 128-bit key. -/
def sipHash (key : Nat) (m : List Byte) : Nat :=
  let k0 := key % 2 ^ 64
  let k1 := key / 2 ^ 64 % 2 ^ 64
  let v0 : SipState :=
    ⟨k0 ^^^ 0x736F6D6570736575, k1 ^^^ 0x646F72616E646F6D, k0 ^^^ 0x6C7967656E657261, k1 ^^^ 0x7465646279746573⟩
  let v1 := (sipWords (m.length / 8 + 1) m m.length).foldl sipWord v0
  let v2 := sipRound (sipRound (sipRound (sipRound { v1 with c := v1.c ^^^ 0xFF })))
  v2.a ^^^ v2.b ^^^ v2.c ^^^ v2.d

end Sys2Proof.Machine
end

