-- ==== Sys2Proof/Machine/PageMap.lean ====
section
/-!
DEFINITION. Machine/PageMap.lean: page maps, their headers, layer records and entries (R285, R290 to R293), the slot space and
its owner tags (R287, R288), and the Valley regions (R306).
-/

namespace Sys2Proof.Machine

/-! ### The header (Table 9.3) -/

def mapFmt (m : List Byte) : Nat := fieldAt m 0x01 1
def mapDim (m : List Byte) : Nat := 64 * 2 ^ fieldAt m 0x02 1
def mapLog2 (m : List Byte) : Nat := fieldAt m 0x03 1
def mapNL (m : List Byte) : Nat := fieldAt m 0x04 2
def mapNKV (m : List Byte) : Nat := fieldAt m 0x06 1
def mapScoreEn (m : List Byte) : Bool := (fieldAt m 0x07 1).testBit 0
def mapSpillEn (m : List Byte) : Bool := (fieldAt m 0x07 1).testBit 1
def mapEvictEn (m : List Byte) : Bool := (fieldAt m 0x07 1).testBit 2
def mapPfxEn (m : List Byte) : Bool := (fieldAt m 0x07 1).testBit 3
def mapNP (m : List Byte) : Nat := fieldAt m 0x08 4
def mapRopeBase (m : List Byte) : Nat := fieldAt m 0x0C 4
def mapDecay (m : List Byte) : Nat := fieldAt m 0x10 2
def mapSink (m : List Byte) : Nat := fieldAt m 0x12 1
def mapRecent (m : List Byte) : Nat := fieldAt m 0x13 1
def mapMinAge (m : List Byte) : Nat := fieldAt m 0x14 1
def mapLookahead (m : List Byte) : Nat := fieldAt m 0x15 1
def mapPfxHead0 (m : List Byte) : Nat := fieldAt m 0x16 1
def mapPfxHeadN (m : List Byte) : Nat := fieldAt m 0x17 1
def mapGuest (m : List Byte) : Nat := fieldAt m 0x18 4
def mapPfxNs (m : List Byte) : Nat := fieldAt m 0x20 8

/-- Bytes of an element of a cache format (R285). -/
def kvElem (fmt : Nat) : Nat := if fmt = 4 ∨ fmt = 5 then 2 else 1

/-- B: bytes of a page (R285). -/
def pageBytes (m : List Byte) : Nat := 2 * 64 * mapDim m * kvElem (mapFmt m)

/-- The smallest SLOT_LOG2 of a geometry (Table 9.2). -/
def minLog2 (m : List Byte) : Nat := if pageBytes m ≤ 0x4000 then 0 else if pageBytes m ≤ 0x8000 then 1 else 2

/-- E0: offset of the entries (R291). -/
def mapE0 (m : List Byte) : Nat := roundUp (0x80 + 8 * mapNL m) 64

/-- Bytes of a page map (R291). -/
def mapSize (m : List Byte) : Nat := mapE0 m + mapNL m * mapNKV m * mapNP m * 16

/-- The header meets Table 9.3 and R285 (R294). -/
def headerOk (m : List Byte) : Bool :=
  let f := mapFmt m
  fieldAt m 0 1 == 1 && (f == 1 || f == 2 || f == 4 || f == 5) && decide (fieldAt m 2 1 ≤ 2) &&
    decide (minLog2 m ≤ mapLog2 m ∧ mapLog2 m ≤ 3) && decide (1 ≤ mapNL m ∧ mapNL m ≤ 4095) && decide (1 ≤ mapNKV m) &&
    decide (1 ≤ mapNP m ∧ mapNP m ≤ 262144) && decide (mapLookahead m ≤ 15) &&
    (if mapPfxEn m then decide (mapNL m * mapNKV m ≤ 4096) && decide (mapPfxHead0 m + mapPfxHeadN m ≤ mapNKV m)
     else mapPfxHeadN m == 0)

/-! ### Layer records and entries -/

/-- LEN of a layer. -/
def layerLen (s : State) (r : Request) (l : Nat) : Nat := s.mem.readLE (r.pageMap + 0x80 + 8 * l) 4

/-- LEN of a layer set. -/
def setLen (s : State) (r : Request) (l v : Nat) : State :=
  s.store (r.pageMap + 0x80 + 8 * l) (leBytes 4 v)

/-- USE of a layer. -/
def layerUse (s : State) (r : Request) (l : Nat) : Nat := s.mem.readLE (r.pageMap + 0x84 + 8 * l) 4

/-- USE of a layer set to the time, in units of 1,024 ns (R291). -/
def touchLayer (s : State) (r : Request) (l : Nat) : State :=
  s.store (r.pageMap + 0x84 + 8 * l) (leBytes 4 (s.mt r.half / 1024))

/-- A page map entry (Table 9.4). -/
structure Entry where
  slot : Nat
  vidx : Nat
  score : Nat
  state : Nat
  flags : Nat
  pend : Nat
  fill : Nat
  age : Nat
deriving DecidableEq, Repr

def enABSENT : Nat := 0
def enHBM : Nat := 1
def enVALLEY : Nat := 2
def enSPILLING : Nat := 3
def enFETCHING : Nat := 4
def enEVICTED : Nat := 5
def enGUEST : Nat := 6
def enBAD : Nat := 7

def Entry.own (e : Entry) : Bool := e.flags.testBit 0
def Entry.pin (e : Entry) : Bool := e.flags.testBit 1
def Entry.shared (e : Entry) : Bool := e.flags.testBit 2

/-- An entry in no state. -/
def Entry.absent : Entry := ⟨0, 0, 0, 0, 0, 0, 0, 0⟩

/-- Address of the entry of a layer, head and page (R291). -/
def entryAddr (r : Request) (l g j : Nat) : Nat :=
  r.pageMap + mapE0 r.header + ((l * mapNKV r.header + g) * mapNP r.header + j) * 16

/-- The entry at an address. -/
def entryAt (s : State) (a : Nat) : Entry :=
  let b := s.mem.readN a 16
  ⟨fieldAt b 0 4, fieldAt b 4 4, fieldAt b 8 2, fieldAt b 10 1 % 16, fieldAt b 11 1, fieldAt b 12 2, fieldAt b 14 1,
    fieldAt b 15 1⟩

/-- The entry of a page. -/
def entryOf (s : State) (r : Request) (l g j : Nat) : Entry := entryAt s (entryAddr r l g j)

/-- An entry's 16 bytes. -/
def Entry.bytes (e : Entry) : List Byte :=
  leBytes 4 e.slot ++ leBytes 4 e.vidx ++ leBytes 2 e.score ++ leBytes 1 e.state ++ leBytes 1 e.flags ++
    leBytes 2 e.pend ++ leBytes 1 e.fill ++ leBytes 1 e.age

/-- An entry written at an address. -/
def setEntryAt (s : State) (a : Nat) (e : Entry) : State := s.store a e.bytes

/-- The entry of a page written. -/
def setEntry (s : State) (r : Request) (l g j : Nat) (e : Entry) : State := setEntryAt s (entryAddr r l g j) e

/-- Every (layer, head, page) of some layers and heads, in ascending order, over pages `j0` to `j1 - 1`. -/
def pagesOf (layers heads : List Nat) (j0 j1 : Nat) : List (Nat × Nat × Nat) :=
  layers.flatMap fun l => heads.flatMap fun g => (List.range (j1 - j0)).map fun k => (l, g, j0 + k)

/-- Every page of a map. -/
def allPages (m : List Byte) : List (Nat × Nat × Nat) :=
  pagesOf (List.range (mapNL m)) (List.range (mapNKV m)) 0 (mapNP m)

/-! ### The slot space (R287, R288) -/

/-- Reserved slots, which hold the owner tags. -/
def reservedSlots (count : Nat) : Nat := ceilDiv count 16384

/-- The device address of a slot. -/
def slotAddr (s : State) (h : Half) (i : Nat) : Nat := s.rd (.kv .KV_SLOT_BASE) h + i * 0x4000

/-- The owner tag of a slot. -/
def slotTag (s : State) (h : Half) (i : Nat) : Nat := (s.mem.read (s.rd (.kv .KV_SLOT_BASE) h + i)).toNat

/-- The tag that names a partition, and a sharing group. -/
def partTag (p : Nat) : Nat := 0x80 + p
def groupTag (g : Nat) : Nat := 0xC0 + g

/-- The namespace of a partition: its sharing group, or the partition alone (R316). -/
def namespaceOf (s : State) (h : Half) (p : Nat) : Nat :=
  if s.rd (.kv .KV_PGRP_SG_EN) h p = 1 then groupTag (s.rd (.kv .KV_PGRP_SGRP) h p) else partTag p

/-- A slot may be reached through a page map of a function (R288). -/
def slotReach (s : State) (h : Half) (fn i : Nat) : Bool :=
  let t := slotTag s h i
  decide (i < s.rd (.kv .KV_SLOT_CFG_COUNT) h) &&
    (t == partTag fn || (s.rd (.kv .KV_PGRP_SG_EN) h fn == 1 && t == groupTag (s.rd (.kv .KV_PGRP_SGRP) h fn)))

/-- The held count of a tag moved by an amount. -/
def addHeld (s : State) (h : Half) (tag : Nat) (up : Bool) (n : Nat) : State :=
  let f : Fld := if 0xC0 ≤ tag then .kv .KV_GRP_HELD else .kv .KV_PSTAT_HELD
  let i := tag % 64
  s.wr f h (if up then s.rd f h i + n else s.rd f h i - n) i

/-- A run of slots given a tag; the free count follows. -/
def tagSlots (s : State) (h : Half) (i n tag : Nat) : State :=
  s.store (s.rd (.kv .KV_SLOT_BASE) h + i) (List.replicate n (BitVec.ofNat 8 tag))

/-- Runs of free slots for a page of `2 ^ k` slots. -/
def freeRuns (s : State) (h : Half) (k : Nat) : List Nat :=
  let count := s.rd (.kv .KV_SLOT_CFG_COUNT) h
  ((List.range (count / 2 ^ k)).map fun i => i * 2 ^ k).filter fun i =>
    decide (reservedSlots count ≤ i) && (List.range (2 ^ k)).all fun d => slotTag s h (i + d) == 0

/-- A run of slots taken by an owner. -/
def takeSlots (s : State) (h : Half) (i n tag : Nat) : State :=
  let s1 := addHeld (tagSlots s h i n tag) h tag true n
  s1.wr (.kv .KV_SLOT_FREE) h (s.rd (.kv .KV_SLOT_FREE) h - n)

/-- A slot made free: its owner's count and the free count follow. -/
def clearSlot (s : State) (h : Half) (i : Nat) : State :=
  let tag := slotTag s h i
  if tag < 0x80 then s
  else (addHeld (tagSlots s h i 1 0) h tag false 1).inc (.kv .KV_SLOT_FREE) h 1

/-- A run of slots made free. -/
def clearSlots (s : State) (h : Half) (i n : Nat) : State := (List.range n).foldl (fun t d => clearSlot t h (i + d)) s

/-- Egress holds a slot of the half (R430). -/
def slotHeld (s : State) (h : Half) (i : Nat) : Bool :=
  s.streams.any fun x => x.half == h && x.pages.any fun p => p.slot == some i

/-- Egress holds a page of a request (R430). -/
def pageHeld (s : State) (r : Request) (l g j : Nat) : Bool :=
  s.streams.any fun x => x.half == r.half && x.request == r.num &&
    x.pages.any fun p => p.layer == l && p.head == g && p.page == j

/-- A page's slots freed, or left allocated until egress releases them (R430). -/
def freeSlot (s : State) (h : Half) (i k : Nat) : State :=
  if slotHeld s h i then { s with orphans := s.orphans ++ [⟨h, i, k⟩] } else clearSlots s h i (2 ^ k)

/-- Slots freed while egress held them are made free once it holds them no more (R430). -/
def freeOrphans (s : State) (h : Half) : State :=
  let gone := s.orphans.filter fun o => o.half == h && !(slotHeld s h o.slot)
  gone.foldl (fun t o => clearSlots t h o.slot (2 ^ o.slotLog2))
    { s with orphans := s.orphans.filter fun o => !(o.half == h) || slotHeld s h o.slot }

/-- The page bytes of a request's slot. -/
def readPage (s : State) (r : Request) (slot : Nat) : List Byte := s.mem.readN (slotAddr s r.half slot) (pageBytes r.header)

/-- Page bytes put into a slot. -/
def writePage (s : State) (h : Half) (slot : Nat) (data : List Byte) : State :=
  s.store (slotAddr s h slot) data

/-! ### The Valley region (R306) -/

/-- The free Valley pages of a partition for `2 ^ k` units. -/
def freeValley (s : State) (h : Half) (p k : Nat) : List Nat :=
  ((List.range (s.rd (.kv .VALLEY_CFG_UNITS) h p / 2 ^ k)).map fun i => i * 2 ^ k).filter fun v =>
    !(s.valley.any fun y => y.half == h && y.part == p && decide (v < y.vidx + 2 ^ y.log2 ∧ y.vidx < v + 2 ^ k))

/-- VALLEY_HELD brought up to date. -/
def refreshValley (s : State) (h : Half) (p : Nat) : State :=
  s.wr (.kv .KV_PSTAT_VALLEY_HELD) h
    ((s.valley.filter fun y => y.half == h && y.part == p).foldl (fun n y => n + 2 ^ y.log2) 0) p

/-- A Valley page taken. -/
def takeValley (s : State) (h : Half) (p v k : Nat) : State :=
  refreshValley { s with valley := s.valley ++ [⟨h, p, v, k⟩] } h p

/-- A Valley page freed. -/
def freeValleyPage (s : State) (h : Half) (p v : Nat) : State :=
  refreshValley { s with valley := s.valley.filter fun y => !(y.half == h && y.part == p && y.vidx == v) } h p

/-- The key of a party, if it is installed. -/
def keyOf (s : State) (h : Half) (party : Nat) (k : KeyKind) : Option Nat :=
  (s.keys.find? fun x => x.half == h && x.party == party && x.kind == k).map (·.value)

/-- The 32 bytes of a key. -/
def keyBytes (v : Nat) : List Nat := (List.range 32).map fun i => v / 256 ^ i % 256

/-- Bytes as numbers, and back. -/
def toNats (l : List Byte) : List Nat := l.map (·.toNat)
def toBytes (l : List Nat) : List Byte := l.map (BitVec.ofNat 8)

/-- The nonce of an encryption (R306, R323): partition, kind, two zeros, generation. -/
def valleyNonce (h : Half) (p kind gen : Nat) : List Nat := [64 * h.num + p, kind, 0, 0] ++ toNats (leBytes 8 gen)

end Sys2Proof.Machine
end

