-- ==== Sys2Proof/Machine/Pool.lean ====
section
/-!
DEFINITION. Machine/Pool.lean: the hub buffer pool of each half: its configuration, the allocation and lending of
granules, and the reclaim (R46 to R53).
-/

namespace Sys2Proof.Machine

/-- The consumer classes of Table 1.7. -/
def poolClasses : List Nat := List.range 7

/-- The class that never lends and never borrows (R49). -/
def notchClass : Nat := 4

def poolFloor (s : State) (h : Half) (c : Nat) : Nat := s.rd (.pkg .POOL_FLOOR) h c
def poolCap (s : State) (h : Half) (c : Nat) : Nat := s.rd (.pkg .POOL_CAP) h c
def poolInUse (s : State) (h : Half) (c : Nat) : Nat := s.rd (.pkg .POOL_CLASS_USE_IN_USE) h c
def poolLent (s : State) (h : Half) (c : Nat) : Nat := s.rd (.pkg .POOL_CLASS_USE_LENT) h c

/-- Granules a class holds beyond its floor. -/
def poolBorrowed (s : State) (h : Half) (c : Nat) : Nat := poolInUse s h c - poolFloor s h c

/-- Idle granules of a class's own floor that it has not lent. -/
def poolIdle (s : State) (h : Half) (c : Nat) : Nat := poolFloor s h c - poolInUse s h c - poolLent s h c

/-- A quantity summed over the classes. -/
def poolSum (f : Nat → Nat) : Nat := (poolClasses.map f).sum

/-- Free granules that no floor reserves. -/
def poolUnreserved (s : State) (h : Half) : Nat :=
  1024 - poolSum (poolFloor s h) + poolSum (poolLent s h) - poolSum (poolBorrowed s h)

/-- FREE and QUIESCED brought up to date (R48). -/
def poolRefresh (s : State) (h : Half) : State :=
  let used := poolSum (poolInUse s h)
  (s.wr (.pkg .POOL_STATUS_FREE) h (1024 - used)).wr (.pkg .POOL_STATUS_QUIESCED) h
    (bit (s.rd (.pkg .POOL_CTL_QUIESCE) h == 1 && used == 0))

/-- A class's count of held granules changed. -/
def poolHold (s : State) (h : Half) (c n : Nat) : State := s.wr (.pkg .POOL_CLASS_USE_IN_USE) h n c

/-- A class's count of lent granules changed. -/
def poolSetLent (s : State) (h : Half) (c n : Nat) : State := s.wr (.pkg .POOL_CLASS_USE_LENT) h n c

/-- The lending class of lowest index with an idle floor granule (R49). -/
def poolLender (s : State) (h : Half) : Option Nat :=
  poolClasses.find? fun c => c != notchClass && decide (0 < poolIdle s h c)

/-- Granules of the largest unit that a class may have on borrowed granules (Table 1.9). -/
def poolUnitMax (c : Nat) : Nat := if c = 1 ∨ c = 5 then 4 else 2

/-- The units in flight of a class that hold borrowed granules. -/
def poolUnitsOf (s : State) (h : Half) (c : Nat) : List PoolUnit := s.poolUnits.filter fun u => u.half == h && u.cls == c

/-- Borrowed granules of a class that are part of a unit in flight, and those of them that a reclaim takes (R51). -/
def poolFlight (s : State) (h : Half) (c : Nat) : Nat := ((poolUnitsOf s h c).map (·.size)).sum
def poolMarked (s : State) (h : Half) (c : Nat) : Nat := ((poolUnitsOf s h c).map (·.marked)).sum

/-- Granules that a class waits for under a reclaim, and the granules that it waits to borrow (R49, R51). -/
def poolNeed (s : State) (h : Half) (c : Nat) : Nat :=
  ((s.poolReqs.filter fun r => r.half == h && r.cls == c && r.reclaim).map (·.left)).sum
def poolWaits (s : State) (h : Half) (c : Nat) : Nat :=
  ((s.poolReqs.filter fun r => r.half == h && r.cls == c && !r.reclaim).map (·.left)).sum

/-- A granule granted to a class without a reclaim (R49): from its own floor, from the unreserved granules, or borrowed
from an idle floor; none when nothing is free, the cap is reached, or a reclaim is taking the class's granules. -/
def poolGrant (s : State) (h : Half) (c : Nat) : Option State :=
  let n := poolInUse s h c
  if n < poolFloor s h c then
    if 0 < poolIdle s h c then some (poolHold s h c (n + 1))
    else if 0 < poolUnreserved s h then some (poolSetLent (poolHold s h c (n + 1)) h c (poolLent s h c - 1))
    else none
  else if c = notchClass ∨ poolCap s h c ≤ n ∨ poolMarked s h c ≠ 0 then none
  else if 0 < poolUnreserved s h then some (poolHold s h c (n + 1))
  else match poolLender s h with
    | some l => some (poolSetLent (poolHold s h c (n + 1)) h l (poolLent s h l + 1))
    | none => none

/-- A borrowed granule joins a unit in flight of its class, whose size stays within Table 1.9 (R52). -/
def joinUnit (s : State) (h : Half) (c : Nat) (tag : UnitTag) : Option State :=
  match (poolUnitsOf s h c).find? fun u => u.tag == tag with
  | none => some { s with poolUnits := s.poolUnits ++ [⟨h, c, tag, 1, 0, 0⟩] }
  | some u =>
    if u.size < poolUnitMax c then
      some { s with poolUnits := s.poolUnits.map fun v => if v = u then { u with size := u.size + 1 } else v }
    else none

/-- A granule granted for a unit, if one is named: a granule beyond the floor is borrowed and joins the unit in flight. -/
def grantFor (s : State) (h : Half) (c : Nat) (unit : Option UnitTag) : Option State :=
  match unit with
  | none => poolGrant s h c
  | some tag =>
    (poolGrant s h c).bind fun t => if poolInUse s h c < poolFloor s h c then some t else joinUnit t h c tag

/-- As many of `n` granules as can be granted, and how many are still lacking. -/
def poolServe : Nat → State → Half → Nat → Option UnitTag → State × Nat
  | 0, s, _, _, _ => (s, 0)
  | n + 1, s, h, c, unit =>
    match grantFor s h c unit with
    | some t => poolServe n t h c unit
    | none => (s, n + 1)

/-- The last granule of a reclaim is recorded: the reclaim is counted and its length kept (R51, Table 1.10). -/
def reclaimDone (s : State) (h : Half) (t0 : Nat) : State :=
  let cycles := (s.mt h - t0) * 5 / 4
  let s1 := bump (s.inc (.pkg .POOL_RECLAIM_CNT) h 1) h 1 11 1
  s1.wr (.pkg .POOL_RECLAIM_MAX) h (max (s.rd (.pkg .POOL_RECLAIM_MAX) h) (min cycles 0xFFFF))

/-- The reclaim that is served first: that of the lowest class index, and of one class the oldest (R49). -/
def reclaimFirst (s : State) (h : Half) : Option PoolReq :=
  (poolClasses.flatMap fun c => s.poolReqs.filter fun r => r.half == h && r.cls == c && r.reclaim && decide (0 < r.left)).head?

/-- The first of a list's entries equal to one replaced, or taken out. -/
def editFirst [DecidableEq α] (x : α) (y : Option α) : List α → List α
  | [] => []
  | a :: l => if a = x then (match y with | some b => b :: l | none => l) else a :: editFirst x y l

/-- A reclaimed granule given to the class that needs it: its own floor's again (R51). -/
def reclaimCredit (s : State) (h : Half) (r : PoolReq) : State :=
  let s1 := poolSetLent (poolHold s h r.cls (poolInUse s h r.cls + 1)) h r.cls (poolLent s h r.cls - 1)
  if r.left ≤ 1 then reclaimDone { s1 with poolReqs := editFirst r none s.poolReqs } h r.t0
  else { s1 with poolReqs := editFirst r (some { r with left := r.left - 1 }) s.poolReqs }

/-- Where a released borrowed granule goes: a reclaim, the class of lowest index that has lent, or the unreserved
granules (R49). -/
def creditBorrowed (s : State) (h : Half) : State :=
  match reclaimFirst s h with
  | some r => reclaimCredit s h r
  | none =>
    match poolClasses.find? fun c => decide (0 < poolLent s h c) with
    | some c => poolSetLent s h c (poolLent s h c - 1)
    | none => s

/-- One granule released by a class (R49). -/
def poolRelease (s : State) (h : Half) (c : Nat) : State :=
  let n := poolInUse s h c
  if n = 0 then s
  else if poolFloor s h c < n then creditBorrowed (poolHold s h c (n - 1)) h
  else poolHold s h c (n - 1)

/-- `n` granules released by a class. -/
def poolReleaseN (s : State) (h : Half) (c n : Nat) : State := (List.range n).foldl (fun t _ => poolRelease t h c) s

/-- The borrower a reclaim takes from: the one with the most borrowed granules, ties to the higher index (R51). -/
def poolVictim (s : State) (h : Half) : Option Nat :=
  let free (c : Nat) : Nat := poolBorrowed s h c - poolMarked s h c
  poolClasses.foldl (fun best c =>
    if free c = 0 then best
    else match best with
      | none => some c
      | some b => if poolBorrowed s h b ≤ poolBorrowed s h c then some c else best) none

/-- `n` granules of a class's units in flight marked for a reclaim requested at `t0`, the oldest unit first (R51). -/
def markUnits (h : Half) (c t0 : Nat) : Nat → List PoolUnit → List PoolUnit
  | _, [] => []
  | n, u :: l =>
    if u.half = h ∧ u.cls = c then
      let k := min n (u.size - u.marked)
      { u with marked := u.marked + k, since := if u.marked = 0 then t0 else u.since } :: markUnits h c t0 (n - k) l
    else u :: markUnits h c t0 n l

/-- Cells of the Egress class that keep a copy of a datagram (R448). -/
def egressCells (s : State) (h : Half) : Nat :=
  ((s.streams.filter fun x => x.half == h).map fun x => (x.dgrams.filter (·.staged)).length).sum

/-- The first `n` staged copies of a list discarded, and how many are left to discard. -/
def unstage : Nat → List Dgram → Nat × List Dgram
  | n, [] => (n, [])
  | 0, l => (0, l)
  | n + 1, d :: l =>
    let q := unstage (if d.staged then n else n + 1) l
    (q.1, { d with staged := false } :: q.2)

/-- Copies of the first streams of a half discarded, `n` in all. -/
def unstageStreams (h : Half) : Nat → List Stream → List Stream
  | _, [] => []
  | n, x :: l =>
    if x.half = h then let q := unstage n x.dgrams; { x with dgrams := q.2 } :: unstageStreams h q.1 l
    else x :: unstageStreams h n l

/-- The copies that a reclaim has taken with their granules are discarded (R449): those staged first, which the spec does not order (log
entry 74). -/
def egressSettle (s : State) (h : Half) : State :=
  { s with streams := unstageStreams h (egressCells s h - 7 * poolInUse s h 1) s.streams }

/-- What a reclaim takes from one borrower: as many granules as it still needs, those that are not part of a unit in flight first, at
once, and then those of units in flight as they complete (R51). The count is what is still needed after it. -/
def reclaimFrom (s : State) (h : Half) (b n : Nat) : State × Nat :=
  let k := min n (poolBorrowed s h b - poolMarked s h b)
  let idle := min k (poolBorrowed s h b - poolFlight s h b)
  let s1 := { s with poolUnits := markUnits h b (s.mt h) (k - idle) s.poolUnits }
  (egressSettle (poolReleaseN s1 h b idle) h, n - k)

/-- The borrowers taken one after another, each for as many granules as remain needed. -/
def reclaimWalk : Nat → State → Half → Nat → State
  | 0, s, _, _ => s
  | fuel + 1, s, h, n =>
    if n = 0 then s
    else match poolVictim s h with
      | none => s
      | some b => let p := reclaimFrom s h b n; reclaimWalk fuel p.1 h p.2

/-- A reclaim of `n` lent granules for a class below its floor (R51). -/
def reclaimStart (s : State) (h : Half) (c n : Nat) : State :=
  reclaimWalk poolClasses.length { s with poolReqs := s.poolReqs ++ [⟨h, c, n, none, true, s.mt h⟩] } h n

/-- A waiting request given what has become free; of the rest, what its class lacks to its floor is reclaimed (R49, R53). -/
def serveReq (s : State) (r : PoolReq) : State :=
  let p := poolServe r.left s r.half r.cls r.unit
  let k := min p.2 (poolFloor p.1 r.half r.cls - poolInUse p.1 r.half r.cls - poolNeed p.1 r.half r.cls)
  let s1 := { p.1 with poolReqs := editFirst r (if p.2 - k = 0 then none else some { r with left := p.2 - k }) p.1.poolReqs }
  if k = 0 then s1 else reclaimStart s1 r.half r.cls k

/-- Waiting classes granted what has become free: those below their floor first, lowest index first, and of one class the oldest request
first (R49, R53; the order among classes at or above their floor is the model's, log entry 17). -/
def poolWaiters (s : State) (h : Half) : State :=
  let mine (c : Nat) : List PoolReq := s.poolReqs.filter fun r => r.half == h && r.cls == c && !r.reclaim
  let below := poolClasses.partition fun c => decide (poolInUse s h c < poolFloor s h c)
  ((below.1 ++ below.2).flatMap mine).foldl serveReq s

/-- A request of a class for `n` granules: granted as far as that can be; of the rest, what lacks to the class's floor is reclaimed, and
what is beyond it waits (R49, R51). -/
def poolAsk (s : State) (h : Half) (c n : Nat) (unit : Option UnitTag) : State :=
  let p := poolServe n s h c unit
  let k := min p.2 (poolFloor p.1 h c - poolInUse p.1 h c - poolNeed p.1 h c)
  let s1 := if k = 0 then p.1 else reclaimStart p.1 h c k
  let w := p.2 - k
  poolRefresh (if w = 0 then s1 else { s1 with poolReqs := s1.poolReqs ++ [⟨h, c, w, unit, false, s.mt h⟩] }) h

/-- Values of Notch operations that a half holds before their operation runs (R413). -/
def notchKept (s : State) (h : Half) : Nat := (s.collPend.filter fun q => q.1 == h && q.2.ptype == 3).length

/-- Granules of a class that its engine's operations hold by name: those of collectives, of staged datagrams (seven cells to a granule,
R448),
of pages on their way from and to the Valley tier, and of held Notch values (16 to a granule: DESIGN CHOICE, log entry 82). -/
def poolHeld (s : State) (h : Half) (c : Nat) : Nat :=
  if c = 0 then ((s.colls.filter fun x => x.half == h).map (·.granules)).sum
  else if c = 1 then ceilDiv (egressCells s h) 7
  else if c = 2 then ((s.transfers.filter fun x => x.half == h && !x.spill).map (·.granules)).sum
  else if c = 3 then ((s.transfers.filter fun x => x.half == h && x.spill).map (·.granules)).sum
  else if c = notchClass then ceilDiv (notchKept s h) 16
  else 0

/-- `n` granules for an operation of a class: those that the class holds and no operation has yet, and the others by grant; none where
a grant would wait (R49). -/
def takeGranules (s : State) (h : Half) (c n : Nat) (unit : Option UnitTag) : Option State :=
  let p := poolServe (n - (poolInUse s h c - poolHeld s h c)) s h c unit
  if p.2 = 0 then some (poolRefresh p.1 h) else none

/-- An operation's wait for granules: what its class lacks is asked for, less what it waits for already (R49, R51). -/
def waitGranules (s : State) (h : Half) (c n : Nat) (unit : Option UnitTag) : State :=
  poolAsk s h c (n - (poolInUse s h c - poolHeld s h c) - poolNeed s h c - poolWaits s h c) unit

/-- An operation's granules released, and those that wait served (R49). -/
def giveGranules (s : State) (h : Half) (c n : Nat) : State := poolRefresh (poolWaiters (poolReleaseN s h c n) h) h

/-- Work that holds one granule of a class while its command runs; where none can be had it waits (R46, R49). -/
def withGranule (s : State) (h : Half) (c : Nat) (f : State → State) : State :=
  match takeGranules s h c 1 none with
  | some t => giveGranules (f t) h c 1
  | none => waitGranules s h c 1 none

/-- POOL_GRANULE_REQUEST (R49, R51): `n` granules granted, reclaimed for, or waited for; borrowed ones join the unit named. -/
def execPoolGranuleRequest (h : Half) (cls : Fin 7) (n : Nat) (unit : Option UnitTag) (s : State) : Res :=
  .next (poolAsk s h cls.val n unit)

/-- POOL_GRANULE_RELEASE (R48, R49). -/
def execPoolGranuleRelease (h : Half) (cls : Fin 7) (s : State) : Res :=
  .next (poolRefresh (poolWaiters (poolRelease s h cls.val) h) h)

/-- A unit in flight of a class, by its tag. -/
def poolUnit (s : State) (h : Half) (c : Nat) (tag : UnitTag) : Option PoolUnit := (poolUnitsOf s h c).find? fun u => u.tag == tag

/-- A unit is in flight no more, and `n` of its granules are released. -/
def unitEnd (s : State) (u : PoolUnit) (n : Nat) : State :=
  let s1 := poolReleaseN { s with poolUnits := editFirst u none s.poolUnits } u.half u.cls n
  poolRefresh (poolWaiters (egressSettle s1 u.half) u.half) u.half

/-- A unit belongs to a collective. -/
def ofColl (chainNo : Nat) (t : UnitTag) : Bool :=
  match t with
  | .coll n .. => n == chainNo
  | _ => false

/-- The unit that a segment of a collective awaits is lost where it has the tag: its CTS must be sent again. -/
def Coll.dropUnit (x : Coll) (tag : UnitTag) : Coll :=
  let lost (g : CollSeg) : Bool := tag == .coll x.chainNo g.k g.rxP g.rxT (g.rxU + g.came.length)
  { x with segs := x.segs.map fun g => if lost g then { g with cts := false, got := [] } else g }

/-- What a cancelled unit held is lost (R52): a page's transfer goes on when it is given granules again, and the units of a collective are
asked for by a new CTS (R399), unless they have been written already. -/
def dropUnit (s : State) (h : Half) (tag : UnitTag) : State :=
  { s with
    transfers := s.transfers.map fun x =>
      if x.half = h ∧ UnitTag.page x.request x.layer x.head x.page = tag then { x with granules := 0 } else x
    colls := s.colls.map fun x => if x.half = h then x.dropUnit tag else x }

/-- POOL_UNIT_COMPLETE (R51): a borrower's unit completes; the granules that a reclaim has marked are released, the others stay held. -/
def execPoolUnitComplete (h : Half) (cls : Fin 7) (tag : UnitTag) (s : State) : Res :=
  match poolUnit s h cls.val tag with
  | some u => .next (unitEnd s u u.marked)
  | none => .next s

/-- POOL_FORCE_RELEASE (R52): a unit that a reclaim waits for and that has not completed 6.5 µs after the reclaim's request is cancelled,
all its granules are taken back, and it is reissued on granules the class will be given. -/
def execPoolForceRelease (h : Half) (cls : Fin 7) (tag : UnitTag) (s : State) : Res :=
  match poolUnit s h cls.val tag with
  | none => .next s
  | some u =>
    if u.marked = 0 ∨ s.mt h < u.since + 6500 then .next s
    else
      let s1 := bump ((unitEnd (dropUnit s h tag) u u.size).inc (.pkg .POOL_FORCED_CNT) h 1) h 1 12 1
      .next (poolAsk s1 h cls.val u.size (some tag))

/-- POOL_QUIESCE_SET (R48). -/
def execPoolQuiesceSet (h : Half) (on : Bool) (s : State) : Res :=
  .next (poolRefresh (s.wr (.pkg .POOL_CTL_QUIESCE) h (bit on)) h)

/-- The conditions of Table 1.8 on a configuration, the quiesced pool apart. -/
def poolConfigOk (floor cap : Nat → Nat) : Bool :=
  decide (poolSum floor ≤ 1024) && poolClasses.all (fun c => decide (floor c ≤ cap c ∧ cap c ≤ 1024)) &&
    decide (128 ≤ floor 0) && decide (floor notchClass = cap notchClass ∧ 16 ≤ floor notchClass)

/-- The configuration that a COMMIT checks and applies: the staged one, or after the set-up lock the committed one
("At the edges" of §1.7). -/
def poolStaged (s : State) (h : Half) : (Nat → Nat) × (Nat → Nat) :=
  if s.rd (.host .SETUP_LOCK_LOCK) h = 1 then (poolFloor s h, poolCap s h)
  else (fun c => s.rd (.pkg .POOL_CLASS_CFG_FLOOR) h c, fun c => s.rd (.pkg .POOL_CLASS_CFG_CAP) h c)

/-- POOL_COMMIT (R47): checked in the order of Table 1.8; classes that wait are served under the new configuration. -/
def execPoolCommit (h : Half) (s : State) : Res :=
  let cfg := poolStaged s h
  if poolConfigOk cfg.1 cfg.2 = false then .next (s.wr (.pkg .POOL_STATUS_LAST_STATUS) h ST_POOL_CONFIG)
  else if s.rd (.pkg .POOL_STATUS_QUIESCED) h = 0 then .next (s.wr (.pkg .POOL_STATUS_LAST_STATUS) h ST_POOL_BUSY)
  else
    let s1 := poolClasses.foldl (fun t c =>
      (t.wr (.pkg .POOL_FLOOR) h (cfg.1 c) c).wr (.pkg .POOL_CAP) h (cfg.2 c) c) s
    .next (poolRefresh (poolWaiters (s1.wr (.pkg .POOL_STATUS_LAST_STATUS) h ST_OK) h) h)

end Sys2Proof.Machine
end

