-- ==== Sys2Proof/Machine/Requests.lean ====
section
/-!
DEFINITION. Machine/Requests.lean: the queue of chains and the requests: finding and changing a chain, ending a chain,
closing requests as a cancelled request is closed (R198, R351, R352, R169, R122), and the signals on event counters (R195 to
R197).
-/

namespace Sys2Proof.Machine

/-! ### Chains -/

/-- A chain is the one of a ring and SEQ. -/
def Chain.is (c : Chain) (h : Half) (ring seq : Nat) : Bool := c.half == h && c.ring == ring && c.seq == seq

/-- The chain of a ring and SEQ, the oldest if the count has wrapped. -/
def State.chain (s : State) (h : Half) (ring seq : Nat) : Option Chain := s.chains.find? fun c => c.is h ring seq

/-- Chains changed one by one. -/
def mapChains (s : State) (f : Chain → Chain) : State := { s with chains := s.chains.map f }

/-- One chain, named by its order of reading, changed. -/
def setChain (s : State) (c : Chain) (f : Chain → Chain) : State :=
  mapChains s fun d => if d.readNo = c.readNo then f d else d

/-- The chain has been admitted and has not ended (R338). -/
def Chain.running (c : Chain) : Bool := c.stage == .admitted && !c.done

/-- The chain waits, is timed, eligible or queued: read and not admitted (R153). -/
def Chain.unadmitted (c : Chain) : Bool := c.stage != .admitted && !c.done

/-- A status stands when another cause follows: it is neither ST_OK nor of class 0x9 (R21, R525). -/
def statusStands (status : Nat) : Bool := status != ST_OK && status / 4096 != 9

/-- A chain ended: its work is over, with a status, unless it has ended already; the first cause's status stands, and ST_OK takes no status
of class 0x9 away (R525). Its final record is written by CHAIN_COMPLETE. -/
def Chain.finish (c : Chain) (status : Nat) : Chain :=
  if c.done then c
  else { c with done := true, status := if statusStands c.status = true ∨ (c.status ≠ ST_OK ∧ status = ST_OK) then c.status else status }

/-- A status added to a chain for which none stands yet. -/
def Chain.fail (c : Chain) (status : Nat) : Chain := if statusStands c.status then c else { c with status := status }

/-- The status of a chain with ST_LATE taken in (R478): a failure stands, and ST_LATE precedes class 0x9. -/
def Chain.finalStatus (c : Chain) : Nat :=
  if c.cancelled then (if c.status = ST_OK ∨ c.status / 4096 = 9 then ST_CANCELLED else c.status)
  else if c.late ∧ (c.status = ST_OK ∨ c.status / 4096 = 9) then ST_LATE else c.status

/-- The chain names a request. -/
def Chain.requestNum (c : Chain) : Option Nat := if hdReqV c.head then some (hdRequest c.head) else none

/-- The chain is one of a request's: a refused chain touches none (R183). -/
def Chain.ofRequest (c : Chain) (num : Nat) : Bool := c.ofReq && c.requestNum == some num

/-! ### Requests -/

/-- One request changed. -/
def setRequest (s : State) (num : Nat) (f : Request → Request) : State :=
  { s with requests := s.requests.map fun r => if r.num = num then f r else r }

/-- Number of requests of the half that are not FREE, in REQ_OPEN_CNT. -/
def refreshReqCount (s : State) (h : Half) : State :=
  s.wr (.desc .REQ_OPEN_CNT) h (s.requests.filter fun r => r.half == h).length

/-- A chain of a closed request: completed unrun with the status when it was not admitted, else marked so that its
output is dropped and its record carries the status, unless a failure stands (R351, R352, R525). -/
def Chain.cancel (c : Chain) (status : Nat) (silent : Bool) : Chain :=
  if c.done then { c with silent := c.silent || silent }
  else if c.stage = .admitted then
    { c with cancelled := true, status := (if statusStands c.status then c.status else status), silent := c.silent || silent }
  else { c with done := true, cancelled := true, status := status, silent := c.silent || silent }

/-- The chains that closing a request completes without running. -/
def unrunOf (s : State) (num : Nat) : List Chain :=
  s.chains.filter fun c => c.ofRequest num && c.unadmitted

/-! ### Streams of the egress port -/

/-- One stream changed. -/
def setStream (s : State) (h : Half) (ctx : Nat) (f : Stream → Stream) : State :=
  { s with streams := s.streams.map fun x => if x.half = h ∧ x.ctx = ctx then f x else x }

/-- The stream of a context. -/
def streamAt (s : State) (h : Half) (ctx : Nat) : Option Stream := s.streams.find? fun x => x.half == h && x.ctx == ctx

/-- The registers of a stream (Table 13.8). -/
def showStream (s : State) (x : Stream) : State :=
  let s1 := ((s.wr (.egr .STREAM_ST0_ID) x.half x.id x.ctx).wr (.egr .STREAM_ST0_V) x.half 1 x.ctx).wr (.egr .STREAM_ST0_STATE) x.half
    x.state x.ctx
  let s2 := ((s1.wr (.egr .STREAM_ST0_CLASS) x.half x.cls x.ctx).wr (.egr .STREAM_ST0_PLAN) x.half x.plan x.ctx).wr
    (.egr .STREAM_ST0_REQUEST) x.half x.request x.ctx
  let s3 := (s2.wr (.egr .STREAM_ST1_NEXT_SEQ) x.half x.nextSeq x.ctx).wr (.egr .STREAM_ST1_ACKED) x.half x.una x.ctx
  ((s3.wr (.egr .STREAM_ST2_STATUS) x.half 0 x.ctx).wr (.egr .STREAM_ST2_RATE) x.half x.rate x.ctx).wr (.egr .STREAM_ST2_SRTT) x.half
    x.srtt x.ctx

/-- Every stream's registers brought up to date. -/
def showStreams (s : State) : State := s.streams.foldl showStream s

/-- The pages of a SHIP from one on taken out of its stream's queue, and how many they were (Table 13.2). -/
def cutPages (s : State) (c : Chain) (x : Stream) (no : Nat) : State × Nat :=
  let late (p : ShipPage) : Bool := p.ship == c.readNo && decide (no ≤ p.no)
  (setStream s x.half x.ctx fun y => { y with pages := y.pages.filter fun p => !(late p) }, (x.pages.filter late).length)

/-- A stream made CANCELLING with a status: every page whose datagrams have not all been sent is released (R445, R446). -/
def Stream.cancel (x : Stream) (status : Nat) : Stream :=
  if x.state = 2 then x
  else { x with state := 2, status := status, endSent := false, pages := x.pages.filter fun p => decide (p.chunks ≤ p.sent) }

/-- The streams of a request made CANCELLING (R352, R446). -/
def cancelStreams (s : State) (h : Half) (num status : Nat) : State :=
  showStreams { s with streams := s.streams.map fun x => if x.half = h ∧ x.request = num then x.cancel status else x }

/-- FUNC_STATUS.DRAINING: closed requests or chains of the function on whose behalf no host write is issued still run to their end
(R171). -/
def refreshDraining (s : State) (h : Half) (fn : Nat) : State :=
  s.wr (.host .FUNC_STATUS_DRAINING) h
    (bit ((s.chains.any fun c => c.half == h && ringFn c.ring == fn && c.silent) ||
      s.requests.any fun r => r.half == h && ringFn r.ring == fn && r.silent)) fn

/-! ### Event counters -/

/-- The waited condition of R195: (s32)(value − WAIT_VAL) ≥ 0. -/
def waitMet (value waitVal : Nat) : Bool := decide (0 ≤ signedOf 32 (value + 2 ^ 32 - waitVal % 2 ^ 32))

/-- Waiting chains of the half whose condition holds become ready for release (R195). Their lateness is judged where they
are taken up (R200). -/
def waitersOf (s : State) (h : Half) : List Chain :=
  s.chains.filter fun c => c.half == h && c.stage == .waiting && !c.done &&
    waitMet (s.rd (.desc .EVC_VAL) h (hdWaitEv c.head)) (hdWaitVal c.head)

end Sys2Proof.Machine
end

