-- ==== Sys2Proof/Machine/Slots.lean ====
section
/-!
DEFINITION. Machine/Slots.lean: the allocation of slots (R301), spills and prefetches (R307 to R311), eviction (R314, R315),
reclaim of directory nodes (R321), and the freeing of pages (R296, R300).
-/

namespace Sys2Proof.Machine

/-- The function of a request. -/
def Request.fn (r : Request) : Nat := ringFn r.ring

/-! ### The fence of the slot space (R288) -/

/-- A function reaches every slot of a page of `2 ^ k` slots (R288). -/
def runReach (s : State) (h : Half) (fn k slot : Nat) : Bool := (List.range (2 ^ k)).all fun d => slotReach s h fn (slot + d)

/-- The request reaches every slot of a page (R288). -/
def pageReach (s : State) (r : Request) (slot : Nat) : Bool := runReach s r.half r.fn (mapLog2 r.header) slot

/-- A refused access to a page's slots recorded (R288, R489). -/
def refusePage (s : State) (r : Request) (write : Bool) (slot : Nat) : State :=
  recordRefusal s (engine r.half r.fn) write (slotAddr s r.half slot) (pageBytes r.header) ST_HBM_FENCE

/-- The first of some pages that is resident in slots that the request does not reach: the slot its entry names. -/
def outOfReach (s : State) (r : Request) (l : List (Nat × Nat × Nat)) : Option Nat :=
  l.findSome? fun q =>
    let e := entryOf s r q.1 q.2.1 q.2.2
    if (e.state == enHBM || e.state == enSPILLING) && !(pageReach s r e.slot) then some e.slot else none

/-! ### Directory nodes (R321) -/

/-- A node has children. -/
def hasChild (s : State) (n : PfxNode) : Bool := s.nodes.any fun c => c.half == n.half && c.parent == some n.idx

/-- A node is reclaimable: a full node with no reference and no children, or a partial leaf. -/
def reclaimable (s : State) (n : PfxNode) : Bool := n.refs == 0 && (n.leaf || !(hasChild s n))

/-- References to a node raised, or lowered. -/
def refNode (s : State) (h : Half) (idx : Nat) (up : Bool) : State :=
  { s with nodes := s.nodes.map fun n =>
      if n.half = h ∧ n.idx = idx then { n with refs := if up then n.refs + 1 else n.refs - 1 } else n }

/-- PFX_STATUS.USED of a half. -/
def refreshNodes (s : State) (h : Half) : State :=
  s.wr (.kv .PFX_STATUS_USED) h (s.nodes.filter fun n => n.half == h).length

/-- A node reclaimed: its page slots and its page-list slot are freed. -/
def dropNode (s : State) (n : PfxNode) : State :=
  let s1 := n.slots.foldl (fun t i => freeSlot t n.half i n.slotLog2) s
  let s2 := match n.listSlot with
    | some i => freeSlot s1 n.half i 0
    | none => s1
  refreshNodes { s2 with nodes := s2.nodes.filter fun c => !(c.half == n.half && c.idx == n.idx) } n.half

/-- The least recently used of some nodes, ties to the lower index. -/
def lruNode (l : List PfxNode) : Option PfxNode :=
  l.foldl (fun m n => match m with
    | none => some n
    | some b => if n.useMt < b.useMt ∨ (n.useMt = b.useMt ∧ n.idx < b.idx) then some n else some b) none

/-- The reclaimable nodes of a namespace of a half. -/
def reclaimableOf (s : State) (h : Half) (ns : Nat) : List PfxNode :=
  s.nodes.filter fun n => n.half == h && n.ns == ns && reclaimable s n

/-! ### Spills (R307, R308) -/

/-- A page may be spilled by an explicit SPILL: HBM, OWN, full, not PIN, not SHARED, not held by egress (R310). -/
def spillable (s : State) (r : Request) (l g j : Nat) : Bool :=
  let e := entryOf s r l g j
  e.state == enHBM && e.own && e.fill == 64 && !e.pin && !e.shared && !(pageHeld s r l g j)

/-- The open requests of a partition. -/
def openOf (s : State) (h : Half) (p : Nat) : List Request :=
  s.requests.filter fun r => r.half == h && r.fn == p && !r.closing && !r.paused

/-- A spill candidate: its request and its place. -/
abbrev Cand := Request × Nat × Nat × Nat

/-- The candidates of a partition for an automatic spill (R307), those apart whose slots the partition does not reach (R288; log entry
67). -/
def spillCands (s : State) (h : Half) (p : Nat) : List Cand :=
  ((openOf s h p).filter fun r => mapSpillEn r.header).flatMap fun r =>
    ((allPages r.header).filter fun q => spillable s r q.1 q.2.1 q.2.2 && pageReach s r (entryOf s r q.1 q.2.1 q.2.2).slot).map fun q => (r, q.1, q.2.1, q.2.2)

/-- Age of a layer's USE: how long ago it lies, modulo 2³². -/
def useAge (s : State) (r : Request) (l : Nat) : Nat := (s.mt r.half / 1024 + 2 ^ 32 - layerUse s r l) % 2 ^ 32

/-- Lexicographic order of two lists of numbers. -/
def lexLt : List Nat → List Nat → Bool
  | [], _ => false
  | _ :: _, [] => false
  | a :: x, b :: y => decide (a < b) || (a == b && lexLt x y)

/-- The first of some items by a key. -/
def firstBy {α : Type} (key : α → List Nat) (l : List α) : Option α :=
  l.foldl (fun m x => match m with
    | none => some x
    | some b => if lexLt (key x) (key b) then some x else some b) none

/-- The order of spill candidates (R307). -/
def candKey (s : State) (c : Cand) : List Nat := [2 ^ 32 - useAge s c.1 c.2.1, c.1.num, c.2.2.1, c.2.2.2]

/-- A spill of a partition may start: the tier is enabled, its key is installed, and a host write can leave (R306, R308, R312
"At the edges"). -/
def spillReady (s : State) (h : Half) (p : Nat) : Bool :=
  s.rd (.kv .VALLEY_CFG_EN) h p == 1 && s.hostOk h p && (keyOf s h p .valley).isSome

/-- The class of the pool that a transfer uses (R308, R309), and the name of its unit. A page takes one granule: it is at most 64 KB
(R285; log entry 68). -/
def xferClass (spill : Bool) : Nat := if spill then 3 else 2
def Transfer.tag (t : Transfer) : UnitTag := .page t.request t.layer t.head t.page

/-- A transfer of the same kind that does not come after a new one waits for its granule (R309). -/
def waitsAhead (s : State) (t : Transfer) : Bool :=
  s.transfers.any fun u => u.half == t.half && u.spill == t.spill && u.granules == 0 && decide (u.prio ≤ t.prio)

/-- A transfer begins: with a granule of its class, or waiting for one, behind those that come before it (R49, R308, R309). -/
def addTransfer (s : State) (t : Transfer) : State :=
  match (if waitsAhead s t then none else takeGranules s t.half (xferClass t.spill) 1 (some t.tag)) with
  | some u => { u with transfers := u.transfers ++ [{ t with granules := 1 }] }
  | none =>
    let u := waitGranules s t.half (xferClass t.spill) 1 (some t.tag)
    { u with transfers := u.transfers ++ [t] }

/-- A transfer is over: what it waits for and what it holds of the pool is given up (R49). -/
def dropTransfer (s : State) (t : Transfer) : State :=
  let s1 : State := { s with transfers := s.transfers.filter fun u => !(u == t)
                             poolReqs := s.poolReqs.filter fun q => !(q.half == t.half && q.unit == some t.tag)
                             poolUnits := s.poolUnits.filter fun u => !(u.half == t.half && u.tag == t.tag) }
  let c := xferClass t.spill
  giveGranules s1 t.half c (min t.granules (poolInUse s1 t.half c - poolHeld s1 t.half c))

/-- A transfer that waits for its granule before another one of its class: a demand prefetch before an explicit one or a pin, that before
a look-ahead one, and of one kind the earlier (R309). -/
def waitsBefore (s : State) (t : Transfer) : Bool :=
  s.transfers.any (fun u => u.half == t.half && u.spill == t.spill && u.granules == 0 && decide (u.prio < t.prio)) ||
    (s.transfers.takeWhile fun u => !(u == t)).any fun u =>
      u.half == t.half && u.spill == t.spill && u.granules == 0 && u.prio == t.prio

/-- A transfer goes on with its granule, or none: it waits for it (R49, R308, R309). -/
def goTransfer (s : State) (t : Transfer) (f : State → Transfer → State) : State :=
  let held (u : State) : State :=
    { u with transfers := u.transfers.map fun x => if x = t then { x with granules := 1 } else x }
  if t.granules ≠ 0 then f s t
  else if waitsBefore s t then s
  else match takeGranules s t.half (xferClass t.spill) 1 (some t.tag) with
    | some u => f (held u) { t with granules := 1 }
    | none => waitGranules s t.half (xferClass t.spill) 1 (some t.tag)

/-- A spill of a page started, if its Valley region has a free page: the entry becomes SPILLING (R308). -/
def startSpill (s : State) (r : Request) (l g j : Nat) (waiters : List Nat) : Option State :=
  let k := mapLog2 r.header
  match pickFree s (freeValley s r.half r.fn k) with
  | none => none
  | some v =>
    let e := entryOf s r l g j
    let s1 := setEntry (takeValley (drawFree s) r.half r.fn v k) r l g j { e with state := enSPILLING, vidx := v }
    some (addTransfer s1 ⟨r.half, true, r.num, r.fn, k, l, g, j, e.slot, v, 1, 0, waiters, false, 0, s.mt r.half⟩)

/-- The next automatic spill of a partition started. -/
def autoSpill (s : State) (h : Half) (p : Nat) : Option State :=
  if spillReady s h p then
    match firstBy (candKey s) (spillCands s h p) with
    | some c => startSpill s c.1 c.2.1 c.2.2.1 c.2.2.2 []
    | none => none
  else none

/-- A spill of the partition is in progress. -/
def spilling (s : State) (h : Half) (p : Nat) : Bool :=
  s.transfers.any fun x => x.half == h && x.spill && x.fn == p

/-! ### Eviction (R314, R315) -/

/-- A page is an eviction candidate of its request (R314), unless its slots are out of the request's reach: they cannot pass to it (R288;
log entry 67). -/
def evictable (s : State) (r : Request) (l g j : Nat) : Bool :=
  let e := entryOf s r l g j
  mapEvictEn r.header && e.state == enHBM && e.own && e.fill == 64 && !e.pin && !e.shared &&
    decide (mapSink r.header ≤ j ∧ j + mapRecent r.header < layerLen s r l / 64) &&
    decide (mapMinAge r.header ≤ e.age) && !(pageHeld s r l g j) && pageReach s r e.slot

/-- The victim of a request: lowest SCORE, then layer, head and page (R314). -/
def victimOf (s : State) (r : Request) : Option (Nat × Nat × Nat) :=
  firstBy (fun q => [(entryOf s r q.1 q.2.1 q.2.2).score, q.1, q.2.1, q.2.2])
    ((allPages r.header).filter fun q => evictable s r q.1 q.2.1 q.2.2)

/-- A context is folding keys of a request's map. -/
def folding (s : State) (r : Request) : Bool :=
  s.contexts.any fun c => c.half == r.half && decide (0 < c.inArray) && s.chains.any fun d =>
    c.chainNo == some d.readNo && d.requestNum == some r.num

/-! ### Allocation (R301) -/

/-- What an allocation answers: a slot, a wait for a slot that is being freed, or none. -/
inductive SlotRes where
  | got (slot : Nat) (s : State)
  | wait (s : State)
  | none (s : State)
deriving DecidableEq, Repr

/-- Another request of the partition waits for a slot before this one. -/
def behind (s : State) (r : Request) : Bool :=
  (s.slotWait.takeWhile fun p => !(p.1 == r.half && p.2 == r.num)).any fun p =>
    p.1 == r.half && (match s.request p.2 with
      | some q => q.fn == r.fn
      | none => false)

/-- The request waits for a slot. -/
def enqueueWait (s : State) (r : Request) : State :=
  if s.slotWait.contains (r.half, r.num) then s else { s with slotWait := s.slotWait ++ [(r.half, r.num)] }

/-- The request waits no more. -/
def dequeueWait (s : State) (r : Request) : State :=
  { s with slotWait := s.slotWait.filter fun p => !(p.1 == r.half && p.2 == r.num) }

/-- Step 1 of R301: a free slot, while the partition holds fewer than QUOTA. -/
def takeFree (s : State) (r : Request) : Option (Nat × State) :=
  let k := mapLog2 r.header
  if r.fn ≠ pf ∧ s.rd (.kv .KV_PSTAT_HELD) r.half r.fn + 2 ^ k ≤ s.rd (.kv .KV_QUOTA_QUOTA) r.half r.fn ∧
      2 ^ k ≤ s.rd (.kv .KV_SLOT_FREE) r.half then
    (pickFree s (freeRuns s r.half k)).map fun i => (i, takeSlots (drawFree s) r.half i (2 ^ k) (partTag r.fn))
  else none

/-- Step 2 of R301: nodes of the partition's own namespace reclaimed, least recently used first, until a slot is free. -/
def takeReclaimed : Nat → State → Request → Option (Nat × State)
  | 0, _, _ => none
  | n + 1, s, r =>
    if s.rd (.kv .KV_PGRP_SG_EN) r.half r.fn = 1 then none
    else match lruNode (reclaimableOf s r.half (partTag r.fn)) with
      | none => none
      | some d =>
        let s1 := dropNode s d
        match takeFree s1 r with
        | some p => some p
        | none => takeReclaimed n s1 r

/-- Step 4 of R301: the request's own victim is evicted; its slot passes at once unless a fold reads it (R315). -/
def takeVictim (s : State) (r : Request) : SlotRes :=
  match victimOf s r with
  | some q =>
    let e := entryOf s r q.1 q.2.1 q.2.2
    let s1 := (setEntry s r q.1 q.2.1 q.2.2 { e with state := enEVICTED }).inc (.kv .KV_EVICTS) r.half 1
    let s2 := bump s1 r.half 1 8 1
    if folding s r then .wait (enqueueWait { s2 with handovers := s2.handovers ++ [⟨r.half, r.num, e.slot, false⟩] } r)
    else .got e.slot (dequeueWait s2 r)
  | none => .none ((dequeueWait s r).inc (.kv .KV_NOSLOT_CNT) r.half 1)

/-- The allocation of a page's slots for a request (R301). -/
def allocSlot (s : State) (r : Request) : SlotRes :=
  match s.handovers.find? fun x => x.half == r.half && x.request == r.num with
  | some x =>
    if x.granted then
      .got x.slot (dequeueWait { s with handovers := s.handovers.filter fun y => !(y == x) } r)
    else .wait s
  | none =>
    match (if behind s r then none else takeFree s r) with
    | some p => .got p.1 (dequeueWait p.2 r)
    | none =>
      match (if behind s r then none else takeReclaimed s.nodes.length s r) with
      | some p => .got p.1 (dequeueWait p.2 r)
      | none =>
        if spilling s r.half r.fn then .wait (enqueueWait s r)
        else match autoSpill s r.half r.fn with
          | some t => .wait (enqueueWait t r)
          | none => takeVictim s r

/-! ### Prefetches (R309, R311) -/

/-- A prefetch of a VALLEY page started in a slot: the entry becomes FETCHING (R309). -/
def startFetch (s : State) (r : Request) (l g j slot prio : Nat) (waiters : List Nat) : State :=
  let e := entryOf s r l g j
  let s1 := setEntry s r l g j { e with state := enFETCHING, slot := slot }
  addTransfer s1 ⟨r.half, false, r.num, r.fn, mapLog2 r.header, l, g, j, slot, e.vidx, prio, e.slot, waiters, false, 0, s.mt r.half⟩

/-- A chain added to the waiters of a transfer of a page. -/
def joinTransfer (s : State) (r : Request) (l g j : Nat) (readNo : Nat) : State :=
  { s with transfers := s.transfers.map fun x =>
      if x.request = r.num ∧ x.layer = l ∧ x.head = g ∧ x.page = j ∧ x.discard = false then
        { x with waiters := readNo :: x.waiters.filter (· ≠ readNo) }
      else x }

/-- A page is in transfer. -/
def inTransfer (s : State) (r : Request) (l g j : Nat) : Bool :=
  s.transfers.any fun x => x.request == r.num && x.layer == l && x.head == g && x.page == j && !x.discard

/-! ### Freeing (R296, R300) -/

/-- A transfer of a page that is freed meanwhile: its slot and Valley page are freed when it ends. -/
def discardTransfer (s : State) (r : Request) (l g j : Nat) : State :=
  { s with transfers := s.transfers.map fun x =>
      if x.request = r.num ∧ x.layer = l ∧ x.head = g ∧ x.page = j then { x with discard := true, waiters := [] } else x }

/-- A discarded transfer ends: its slots, where its function reaches them (R288), and its Valley page are freed (R296). -/
def endDiscarded (s : State) (t : Transfer) : State :=
  let s1 := if runReach s t.half t.fn t.log2 t.slot then freeSlot s t.half t.slot t.log2 else s
  dropTransfer (freeValleyPage s1 t.half t.fn t.vidx) t

/-- What a page holds is freed, its entry left alone: the slots of an owned page that is not SHARED, where the request reaches them (R288),
and its Valley page. -/
def freeHeldBy (s : State) (r : Request) (l g j : Nat) : State :=
  let e := entryOf s r l g j
  if e.own && !e.shared then
    if e.state = enHBM then (if pageReach s r e.slot then freeSlot s r.half e.slot (mapLog2 r.header) else s)
    else if e.state = enVALLEY ∨ e.state = enBAD then freeValleyPage s r.half r.fn e.vidx
    else if e.state = enSPILLING ∨ e.state = enFETCHING then discardTransfer s r l g j
    else s
  else s

/-- A page freed: its entry becomes ABSENT (R300). -/
def freePage (s : State) (r : Request) (l g j : Nat) : State := setEntry (freeHeldBy s r l g j) r l g j Entry.absent

/-- The references of a request to directory nodes dropped (R296, R321). -/
def dropRefs (s : State) (r : Request) : State :=
  { s with nodes := s.nodes.map fun n =>
      if n.half = r.half ∧ r.nodes.contains n.idx = true then { n with refs := n.refs - 1 } else n }

/-- The guest slots of a request's reservation that are not in use returned (R294, R296). -/
def returnGuests (s : State) (r : Request) : State :=
  if r.guestFree = 0 then s
  else (addHeld s r.half (partTag r.fn) false r.guestFree).wr (.kv .KV_SLOT_FREE) r.half
    (s.rd (.kv .KV_SLOT_FREE) r.half + r.guestFree)

/-- GUEST_SLOTS reserved from the partition's quota, if they fit (R294). -/
def reserveGuests (s : State) (h : Half) (fn n : Nat) : Option State :=
  if n = 0 then some s
  else if fn ≠ pf ∧ s.rd (.kv .KV_PSTAT_HELD) h fn + n ≤ s.rd (.kv .KV_QUOTA_QUOTA) h fn ∧
      n ≤ s.rd (.kv .KV_SLOT_FREE) h then
    some ((addHeld s h (partTag fn) true n).wr (.kv .KV_SLOT_FREE) h (s.rd (.kv .KV_SLOT_FREE) h - n))
  else none

/-- The pages of a request that becomes FREE are released; the map is not rewritten (R296). -/
def releasePages (s : State) (r : Request) : State :=
  let s1 := (allPages r.header).foldl (fun t q =>
    let e := entryOf t r q.1 q.2.1 q.2.2
    if e.state = enGUEST then (if pageReach t r e.slot then freeSlot t r.half e.slot (mapLog2 r.header) else t)
    else freeHeldBy t r q.1 q.2.1 q.2.2) s
  let mine (x : Handover) : Bool := x.half == r.half && x.request == r.num
  let s2 := (s1.handovers.filter mine).foldl (fun t x => freeSlot t r.half x.slot (mapLog2 r.header)) s1
  let s3 := returnGuests (dropRefs s2 r) r
  { dequeueWait s3 r with handovers := s3.handovers.filter fun x => !(mine x) }

/-! ### Guest slots (R279, R305) -/

/-- A guest slot of a request's reservation taken for a foreign page: its tag names the request's owner (R305). -/
def takeGuest (s : State) (r : Request) : Option (Nat × State) :=
  let k := mapLog2 r.header
  if r.guestFree < 2 ^ k then none
  else (pickFree s (freeRuns s r.half k)).map fun i =>
    (i, setRequest (tagSlots (drawFree s) r.half i (2 ^ k) (partTag r.fn)) r.num fun q => { q with guestFree := q.guestFree - 2 ^ k })

/-- Guest pages of a layer released: their entries are ABSENT again and their slots, where the request reaches them (R288), are back in the
reservation (R305). -/
def dropGuests (s : State) (h : Half) (num layer : Nat) (pages : List RingPage) : State :=
  pages.foldl (fun t p =>
    match t.request num with
    | none => t
    | some r =>
      let e := entryOf t r layer p.head p.page
      let k := mapLog2 r.header
      if p.placed = true ∧ e.state = enGUEST then
        let t1 := setEntry t r layer p.head p.page Entry.absent
        if pageReach t r e.slot then
          setRequest (tagSlots t1 h e.slot (2 ^ k) 0) r.num fun q => { q with guestFree := q.guestFree + 2 ^ k }
        else t1
      else t) s

end Sys2Proof.Machine
end

