-- ==== Sys2Proof/Machine/AllocEnd.lean ====
section
/-!
DEFINITION. Machine/AllocEnd.lean: what a KV_PAGE names (R297), and how an ALLOC leaves its layers whatever ends it (R298, R303).
-/

namespace Sys2Proof.Machine

/-! ### What a KV_PAGE names (R297) -/

def kpLayer (b : List Byte) : Nat := fieldAt b 0x1A 2
def kpHead (b : List Byte) : Nat := fieldAt b 0x1C 2
def kpPos0 (b : List Byte) : Nat := fieldAt b 0x20 4
def kpCount (b : List Byte) : Nat := fieldAt b 0x24 4
def kpAddr (b : List Byte) : Nat := fieldAt b 0x28 8
def kpAux (b : List Byte) : Nat := fieldAt b 0x30 8

/-- Named layers and heads. -/
def kpLayers (m b : List Byte) : List Nat := if kpLayer b = 0xFFFF then List.range (mapNL m) else [kpLayer b]
def kpHeads (m b : List Byte) : List Nat :=
  if kpHead b = 0xFFFF then List.range (mapNKV m)
  else (List.range (max 1 (bitsAt (kpAux b) 40 8))).map (kpHead b + ·)

/-- The pages that hold a position of the range: the first, and the one after the last. -/
def kpPages (b : List Byte) : Nat × Nat :=
  (kpPos0 b / 64, if kpCount b = 0 then kpPos0 b / 64 else ceilDiv (kpPos0 b + kpCount b) 64)

/-- Covered pages in ascending layer, head and page. -/
def kpCover (m b : List Byte) : List (Nat × Nat × Nat) := pagesOf (kpLayers m b) (kpHeads m b) (kpPages b).1 (kpPages b).2

/-! ### The end of an ALLOC -/

/-- The order in which ALLOC takes its pages: layer, page, head (log entry 33). -/
def allocCover (m b : List Byte) : List (Nat × Nat × Nat) :=
  (kpLayers m b).flatMap fun l =>
    (List.range ((kpPages b).2 - (kpPages b).1)).flatMap fun j => (kpHeads m b).map fun g => (l, g, (kpPages b).1 + j)

/-- The positions that an ALLOC puts into a page. -/
def pagePositions (b : List Byte) (j : Nat) : List Nat :=
  let lo := max (kpPos0 b) (64 * j)
  (List.range (min (kpPos0 b + kpCount b) (64 * j + 64) - lo)).map (lo + ·)

/-- Positions from POS0 on that are written for every named head of a layer (R303). -/
def allocWritten (m b : List Byte) (done part l : Nat) : Nat :=
  let cover := allocCover m b
  let idx := (List.range cover.length).zip cover
  ((kpHeads m b).map fun g =>
    let mine := idx.filter fun q => q.2.1 == l && q.2.2.1 == g
    let full := mine.filter fun q => decide (q.1 < done)
    let n := ((full.map fun q => (pagePositions b q.2.2.2).length)).sum
    n + (if mine.any fun q => q.1 == done then part else 0)).foldl min (kpCount b)

/-- An ALLOC over: LEN of each layer, the FILL of the pages it keeps, the others freed; and the pages kept. With ST_OK a page takes the
positions covered (R298), with any other status those below the new LEN (R303). -/
def allocClose (s : State) (r : Request) (b : List Byte) (ok : Bool) (done part : Nat) (pages : List Nat) : State × Nat :=
  let m := r.header
  let cover := allocCover m b
  let idx := (List.range cover.length).zip cover
  (kpLayers m b).foldl (fun a l =>
    let len := max (layerLen a.1 r l) (kpPos0 b + allocWritten m b done part l)
    let top := if ok then kpPos0 b + kpCount b else len
    let s1 := setLen a.1 r l len
    idx.foldl (fun t q =>
      let made := pages.contains q.1
      if q.2.1 ≠ l ∨ (decide (q.1 < done) || made || (q.1 == done && part != 0)) = false then t
      else if 64 * q.2.2.2 < len then
        let e := entryOf t.1 r q.2.1 q.2.2.1 q.2.2.2
        (setEntry t.1 r q.2.1 q.2.2.1 q.2.2.2 { e with fill := min 64 (top - 64 * q.2.2.2) }, t.2 + 1)
      else if made then (freePage t.1 r q.2.1 q.2.2.1 q.2.2.2, t.2)
      else t) (s1, a.2)) (s, 0)

/-- A KV_PAGE that something else has ended while it waited for a slot: an ALLOC leaves its layers as R303 says, and DETAIL counts the
pages it keeps; a RESUME gives back the slots it had (R325), a PREFIX_LOOKUP the leaf that it copied (R321). -/
def closeAlloc (s : State) (c : Chain) : State × Chain :=
  if hdOpcode c.head = opKV_PAGE ∧ fieldAt c.head 0x18 1 = 0 ∧ c.checked = true then
    match c.requestNum.bind s.request with
    | some r =>
      let p := allocClose s r c.head false c.work 0 c.run
      (p.1, { c with detail := p.2 })
    | none => (s, c)
  else if hdOpcode c.head = opKV_PAGE ∧ fieldAt c.head 0x18 1 = 8 then
    match c.requestNum.bind s.request with
    | some r => (c.run.foldl (fun t i => freeSlot t r.half i (mapLog2 r.header)) s, c)
    | none => (s, c)
  else if hdOpcode c.head = opKV_PAGE ∧ fieldAt c.head 0x18 1 = 9 then
    (match c.run with
     | [_, leaf] => refNode s c.half leaf false
     | _ => s, c)
  else (s, c)

end Sys2Proof.Machine
end

