-- ==== Sys2Proof/Machine/Claims.lean ====
section
/-!
DEFINITION. Machine/Claims.lean: claims on aux pins (R88 to R90) and on event comparators (R470, R471), and the arming of
the comparators that features hold.
-/

namespace Sys2Proof.Machine

/-! ### Aux pins -/

/-- The number of an aux output in AUX_DIAG and AUX_DIAG_CLR (Table 2.13). -/
def pinNo : AuxPin → Nat
  | .pwm0 => 0 | .pwm1 => 1 | .pwm2 => 2 | .pwm3 => 3 | .fb2b => 4 | .smbAlert => 5 | .pcycReq => 6

/-- The AUX_OWNER field of a claimable pin: 0 AUX_PWM2, 1 AUX_PWM3, 2 AUX_FB2B. -/
def pinOwner (pin : Nat) : Fld :=
  if pin = 0 then .thm .AUX_OWNER_PWM2 else if pin = 1 then .thm .AUX_OWNER_PWM3 else .thm .AUX_OWNER_FB2B

/-- A claimable pin as an aux output. -/
def pinOut (pin : Nat) : AuxPin := if pin = 0 then .pwm2 else if pin = 1 then .pwm3 else .fb2b

/-- AUX_CLAIM_STATUS set to the outcome of a claim. -/
def pinOutcome (s : State) (h : Half) (status pin holder requester : Nat) : State :=
  (((s.wr (.thm .AUX_CLAIM_STATUS_LAST_STATUS) h status).wr (.thm .AUX_CLAIM_STATUS_PIN) h pin).wr
    (.thm .AUX_CLAIM_STATUS_HOLDER) h holder).wr (.thm .AUX_CLAIM_STATUS_REQUESTER) h requester

/-- A claim of a pin through the half without the roles (R89), recorded with its pin and its requester; the holder reads none there, as
AUX_OWNER does (DESIGN CHOICE, log entry 59). -/
def pinNoRole (s : State) (h : Half) (pin requester : Nat) : State := pinOutcome s h ST_AUX_NO_ROLE pin 0 requester

/-- A claim of a pin by a function (R88): the status of the claim. -/
def pinClaimStatus (s : State) (h : Half) (pin : Nat) : Nat :=
  if s.rd (pinOwner pin) h = 0 then ST_OK else ST_CONFLICT

/-- A claim of a pin by a function (R88): the pin taken, or the conflict recorded. -/
def claimPin (s : State) (h : Half) (pin requester : Nat) : State :=
  let holder := s.rd (pinOwner pin) h
  if holder = 0 then pinOutcome (s.wr (pinOwner pin) h requester) h ST_OK pin 0 0
  else pinOutcome s h ST_CONFLICT pin holder requester

/-- A level put on an aux output by the hub that drives it: 0 high impedance, 1 low, 2 high, 3 a PWM waveform. An output
is driven only with the correct cable (R92) and while the hub drives its outputs (R90). -/
def drivePin (s : State) (h : Half) (pin : AuxPin) (level : Nat) : State :=
  let l := if s.rd (.thm .AUX_DRIVING) h = 1 ∧ s.rd (.thm .AUX_KEY_CABLE_OK) h = 1 then level else 0
  let s1 := s.wr (.thm .AUX_LEVEL) h l (pinNo pin)
  if l = 3 ∨ l = s.rd (.thm .AUX_LEVEL) h (pinNo pin) then s1
  else s1.emit (.pin pin (if l = 0 then none else some (l == 2)))

/-- A pin given up by its holder: high impedance (R90). -/
def releasePin (s : State) (h : Half) (pin : Nat) : State := drivePin (s.wr (pinOwner pin) h 0) h (pinOut pin) 0

/-! ### Comparators -/

/-- The clock of a half: FT, or MT. -/
def clockOf (s : State) (h : Half) (mt : Bool) : Nat := if mt then s.mt h else s.rd (.tim .FT) h

/-- CMP_CLAIM_STATUS set to the outcome of a claim. -/
def cmpOutcome (s : State) (h : Half) (status index holder requester : Nat) : State :=
  (((s.wr (.tim .CMP_CLAIM_STATUS_LAST_STATUS) h status).wr (.tim .CMP_CLAIM_STATUS_INDEX) h index).wr
    (.tim .CMP_CLAIM_STATUS_HOLDER) h holder).wr (.tim .CMP_CLAIM_STATUS_REQUESTER) h requester

/-- The status of a claim on a comparator (R471). -/
def cmpClaimStatus (s : State) (h : Half) (c : Nat) : Nat :=
  if s.rd (.tim .CMP_STATUS_HOLDER) h c = 0 then ST_OK else ST_CONFLICT

/-- A claim on a comparator (R471): held by the requester, or the conflict recorded. -/
def claimCmp (s : State) (h : Half) (c requester : Nat) : State :=
  let holder := s.rd (.tim .CMP_STATUS_HOLDER) h c
  if holder = 0 then cmpOutcome (s.wr (.tim .CMP_STATUS_HOLDER) h requester c) h ST_OK c 0 0
  else cmpOutcome s h ST_CONFLICT c holder requester

/-- A comparator released and unarmed. -/
def releaseCmp (s : State) (h : Half) (c : Nat) : State :=
  (s.wr (.tim .CMP_STATUS_HOLDER) h 0 c).wr (.tim .CMP_STATUS_ARMED) h 0 c

/-- A comparator armed with a target. -/
def armCmp (s : State) (h : Half) (c target : Nat) : State :=
  (s.wr (.tim .CMP_TARGET) h target c).wr (.tim .CMP_STATUS_ARMED) h 1 c

/-- Occurrences of a comparator skipped or dropped: counted, with TIME_EVT.CMP_DROP (R467, R480, R481). -/
def skipCmp (s : State) (h : Half) (c n : Nat) : State :=
  if n = 0 then s else raiseCause (s.inc (.tim .CMP_STATUS_SKIPPED) h n c) 10 h (2 ^ 5)

/-- A pin feature's comparator armed with its first occurrence at or after the clock; those already past are dropped
(R481). -/
def armPinCmp (s : State) (h : Half) (c target period clock : Nat) : State :=
  if clock ≤ target then armCmp s h c target
  else
    let s1 := s.wr (.tim .CMP_STATUS_LAST) h ST_LATE_DROPPED c
    if period = 0 then skipCmp (s1.wr (.tim .CMP_STATUS_ARMED) h 0 c) h c 1
    else
      let k := ceilDiv (clock - target) period
      skipCmp (armCmp s1 h c (target + k * period)) h c k

/-- The comparator index that trigger k names in TIME_TRIG_CMP. -/
def trigCmp (s : State) (h : Half) (k : Nat) : Nat :=
  s.rd (if k = 0 then .tim .TIME_TRIG_CMP_TRIG0 else .tim .TIME_TRIG_CMP_TRIG1) h

/-- A trigger's comparator armed from TRIG_TIMEk in timed mode, and unarmed in PWM-synchronous mode (R470, R481). -/
def armTrig (s : State) (h : Half) (k : Nat) (timed : Bool) : State :=
  let c := trigCmp s h k
  if timed then
    armPinCmp s h c (s.rd (.tim .TRIG_TARGET) h k) (s.rd (.tim .TRIG_PERIOD) h k)
      (clockOf s h (s.rd (.tim .TRIG_CLOCK) h k == 1))
  else s.wr (.tim .CMP_STATUS_ARMED) h 0 c

/-- The first instant at or after `clock` at which PPS_OUT pulses: (t − PPS_OUT_OFF) mod 10⁹ = 0 (R481). -/
def ppsNext (s : State) (h : Half) (clock : Nat) : Nat :=
  let off := signedOf 32 (s.rd (.tim .PPS_OUT_OFF) h)
  let phase := ((clock : Int) - off) % 1000000000
  if phase = 0 then clock else clock + (1000000000 - phase.toNat)

end Sys2Proof.Machine
end

