-- ==== Sys2Proof/Machine/Release.lean ====
section
/-!
DEFINITION. Machine/Release.lean: acceptance of a chain (R195, R200), the release lists and lateness (R475 to R479), and the
changes of event counters that satisfy waits (R197).
-/

namespace Sys2Proof.Machine

/-! ### Heads, and cur (§10.5) -/

/-- A function's balance, signed. -/
def balanceOf (s : State) (h : Half) (fn : Nat) : Int := signedOf 32 (s.rd (.sched .BALANCE) h fn)

/-- The budget gate of a function is open: the operator's always, a partition's with BUDGET = 0 or a positive balance. -/
def gateOpen (s : State) (h : Half) (fn : Nat) : Bool :=
  fn == pf || s.rd (.sched .BUDGET_EFF) h fn == 0 || decide (0 < balanceOf s h fn)

/-- The chain's request has been admitted, or the chain is its REQ_OPEN (R330). -/
def requestAdmitted (s : State) (c : Chain) : Bool :=
  match c.requestNum with
  | none => true
  | some num => hdOpcode c.head == opREQ_OPEN || (match s.request num with
      | some r => r.admitted
      | none => true)

/-- A chain is charged: REQ_OPEN, and each step of GEN_STEP (R339). -/
def isCharged (c : Chain) : Bool := hdOpcode c.head == opREQ_OPEN || hdOpcode c.head == opGEN_STEP

/-- The head of a ring: its oldest chain that has not been admitted; a CANCEL whose wait is over is held by nothing and holds
nothing (R350). -/
def headOf (s : State) (h : Half) (ring : Nat) : Option Chain :=
  s.chains.find? fun c => c.half == h && c.ring == ring && c.unadmitted &&
    !(hdOpcode c.head == opCANCEL && c.stage == .eligible)

/-- A head is eligible by the conditions of §10.5: read with its checks passed, its wait and release satisfied, not held by R330, and for
a charged chain with its budget gate open. -/
def eligible (s : State) (c : Chain) : Bool :=
  c.stage == .eligible && !c.done && hdOpcode c.head != opCANCEL && requestAdmitted s c && (!(isCharged c) || gateOpen s c.half (ringFn c.ring))

/-- A party has an eligible head of a class. -/
def showsHead (s : State) (h : Half) (cls q : Nat) : Bool :=
  (ringsOf q).any fun r => (headOf s h r).any fun c => hdClass c.head == cls && eligible s c

/-- cur of a party and class, signed. -/
def curOf (s : State) (h : Half) (cls q : Nat) : Int := signedOf 32 (s.rd (.sched .CUR) h (65 * cls + q))

/-- Every cur whose party has no eligible head of its class is 0 (R336). It is brought to 0 at the latest where a head may become eligible
again. -/
def clearCur (s : State) (h : Half) : State :=
  (List.range 5).foldl (fun t cls => (List.range 65).foldl (fun u q =>
    if s.rd (.sched .CUR) h (65 * cls + q) = 0 ∨ showsHead s h cls q = true then u else u.wr (.sched .CUR) h 0 (65 * cls + q)) t) s

/-! ### Release -/

/-- A chain's release: on MT or FT, the time, the tolerance and DROP_IF_LATE (R199, Table 5.4, Table 5.7). -/
structure ReleaseOf where
  onMt : Bool
  at_ : Nat
  tol : Nat
  drop : Bool
deriving DecidableEq, Repr

/-- The release time of a chain, from its TIME block or of a TIME_WAIT. -/
def Chain.release (c : Chain) : Option ReleaseOf :=
  if hdOpcode c.head = opTIME_WAIT then
    some ⟨(fieldAt c.head 0x24 1).testBit 6, fieldAt c.head 0x18 8, fieldAt c.head 0x20 4, (fieldAt c.head 0x24 1).testBit 7⟩
  else (extOf c kTIME).map fun b =>
    ⟨(fieldAt b 0x14 1).testBit 6, fieldAt b 0x08 8, fieldAt b 0x10 4, (fieldAt b 0x14 1).testBit 7⟩

/-- The list of a clock is enabled (R476). -/
def listEnabled (s : State) (h : Half) (mt : Bool) : Bool :=
  s.rd (if mt then .tim .TIME_REL_CTL_EN_MT else .tim .TIME_REL_CTL_EN_FT) h == 1

/-- The comparator a list names. -/
def listCmp (s : State) (h : Half) (mt : Bool) : Nat :=
  s.rd (if mt then .tim .TIME_REL_CTL_CMP_MT else .tim .TIME_REL_CTL_CMP_FT) h

/-- The entries of a list: the timed chains of its clock (R475). -/
def listEntries (s : State) (h : Half) (mt : Bool) : List Chain :=
  s.chains.filter fun c => c.half == h && c.stage == .timed && !c.done && (c.release.map (·.onMt) == some mt)

/-- The release time of a timed chain. -/
def Chain.releaseAt (c : Chain) : Nat := (c.release.map (·.at_)).getD 0

/-- The first release time of a list. -/
def listFirst (l : List Chain) : Option Nat :=
  l.foldl (fun m c => match m with
    | none => some c.releaseAt
    | some t => some (min t c.releaseAt)) none

/-- A list's comparator armed with its first entry, and its count (R475). -/
def rearmList (s : State) (h : Half) (mt : Bool) : State :=
  let l := listEntries s h mt
  let s1 := s.wr (if mt then .tim .REL_COUNT_MT_N else .tim .REL_COUNT_FT_N) h l.length
  if listEnabled s h mt then
    match listFirst l with
    | some t => armCmp s1 h (listCmp s h mt) t
    | none => s1.wr (.tim .CMP_STATUS_ARMED) h 0 (listCmp s h mt)
  else s1

/-- A chain released late: counted, with TIME_EVT.CMP_LATE (R477). -/
def countLate (s : State) (h : Half) : State := raiseCause (s.inc (.tim .LATE_CNT) h 1) 10 h (2 ^ 4)

/-- A chain dropped as late: counted, with TIME_EVT.CMP_DROP (R477). -/
def countDrop (s : State) (h : Half) : State := raiseCause (s.inc (.tim .DROP_CNT) h 1) 10 h (2 ^ 5)

/-- Table 7 for a chain whose release time is not in the future: released late, or dropped (Table 14.7). -/
def judgeLate (s : State) (c : Chain) (r : ReleaseOf) (late : Nat) : State :=
  if r.drop ∧ r.tol < late then countDrop (setChain s c fun d => d.finish ST_LATE_DROPPED) c.half
  else countLate (setChain s c fun d => { d with stage := .eligible, late := true }) c.half

/-- Acceptance of a chain: eligible, into its release list, late, dropped, or refused for a disabled list (R475 to
R477). -/
def accept (s0 : State) (c : Chain) : State :=
  let s := clearCur s0 c.half
  match c.release with
  | none => setChain s c fun d => { d with stage := .eligible }
  | some r =>
    let clock := clockOf s c.half r.onMt
    if listEnabled s c.half r.onMt = false then setChain s c fun d => d.finish ST_TIME_NO_CMP
    else if clock < r.at_ then rearmList (setChain s c fun d => { d with stage := .timed }) c.half r.onMt
    else judgeLate s c r (clock - r.at_)

/-- Waiting chains whose condition holds are accepted, in order of reading (R195, R200). -/
def wake (s : State) (h : Half) : State := (waitersOf s h).foldl (fun t c => accept t c) s

/-- The steps of a GEN_STEP whose wait its counter satisfies now: step k waits for WAIT_VAL + k (R195, R347). -/
def Chain.stepsDue (s : State) (c : Chain) : Nat :=
  let d := signedOf 32 (s.rd (.desc .EVC_VAL) c.half (hdWaitEv c.head) + 2 ^ 32 - hdWaitVal c.head % 2 ^ 32)
  if hdWaitEn c.head = false then 256 else if 0 ≤ d then d.toNat + 1 else 0

/-- GEN_STEPs of a half note the steps whose wait is satisfied: it stays so (R195). -/
def noteSteps (s : State) (h : Half) : State :=
  mapChains s fun c => if c.half = h ∧ hdOpcode c.head = opGEN_STEP then { c with stepMet := max c.stepMet (c.stepsDue s) } else c

/-- An event counter set (R197). -/
def evcSet (s : State) (h : Half) (c v : Nat) : State := wake (noteSteps (s.wr (.desc .EVC_VAL) h v c) h) h

/-- An amount added to an event counter, modulo 2³² (R197). -/
def evcAdd (s : State) (h : Half) (c v : Nat) : State := evcSet s h c (s.rd (.desc .EVC_VAL) h c + v)

/-- Entries of a list released by a firing at `t`: every entry with that release time, in order (R475). -/
def fireList (s : State) (h : Half) (mt : Bool) (t : Nat) : State :=
  rearmList (mapChains (clearCur s h) fun c =>
    if c.half = h ∧ c.stage = .timed ∧ c.done = false ∧ c.release.map (·.onMt) = some mt ∧ c.releaseAt = t then
      { c with stage := .eligible }
    else c) h mt

/-- Entries of a list that a forward step or a re-enabled list has passed: each judged with its own lateness (R467). -/
def judgeList (s0 : State) (h : Half) (mt : Bool) : State :=
  let s := clearCur s0 h
  let clock := clockOf s h mt
  let passed := (listEntries s h mt).filter fun c => decide (c.releaseAt ≤ clock)
  rearmList (passed.foldl (fun t c => match c.release with
    | some r =>
      if clock = r.at_ then setChain t c fun d => { d with stage := .eligible }
      else judgeLate t c r (clock - r.at_)
    | none => t) s) h mt

/-! ### Requests closed -/

/-- Both lists of a half brought up to date. -/
def relist (s : State) (h : Half) : State := rearmList (rearmList s h true) h false

/-- A request closed as a cancelled one, with a status (R351, R352): CLOSING, its chains completed or marked, its streams
given cancel markers, and the release lists without the chains completed. -/
def closeRequest (s : State) (num status : Nat) (silent : Bool) : State :=
  match s.request num with
  | none => s
  | some r =>
    let s1 := setRequest s num fun r =>
      { r with closing := true, cancelled := true, closeNo := (if r.closing then r.closeNo else s.readNo),
               devStatus := (if r.cancelled then r.devStatus else some status), silent := r.silent || silent }
    let s2 := mapChains s1 fun c => if c.ofRequest num then c.cancel status silent else c
    let s3 := relist (freeOrphans (cancelStreams s2 r.half num status) r.half) r.half
    if silent then refreshDraining s3 r.half (ringFn r.ring) else s3

/-- Every request that meets a condition closed. -/
def closeRequests (s : State) (p : Request → Bool) (status : Nat) (silent : Bool) : State :=
  ((s.requests.filter p).map (·.num)).foldl (fun t n => closeRequest t n status silent) s

end Sys2Proof.Machine
end

