-- ==== Sys2Proof/Machine/Rings.lean ====
section
/-!
DEFINITION. Machine/Rings.lean: rings and doorbells, descriptor fetch, pinned slots, completion rings, event rings and MSI-X
(R143 to R168), and the resets and losses of the host link (R169 to R172).
-/

namespace Sys2Proof.Machine

/-! ### Ring states and small operations -/

/-- RING_STATE.STATE: 0 DISABLED, 1 ACTIVE, 2 STOPPING, 3 ERROR. -/
def ringSt (s : State) (h : Half) (ring : Nat) : Nat := s.rd (.host .RING_STATE_STATE) h ring

/-- RING_STATE.LAST_STATUS set. -/
def ringStatus (s : State) (h : Half) (ring status : Nat) : State := s.wr (.host .RING_STATE_LAST_STATUS) h status ring

/-- A ring's function exists: the PF, or a VF below NumVFs (R129). -/
def fnExists (s : State) (h : Half) (fn : Nat) : Bool := fn == pf || s.rd (.host .VF_EXISTS) h fn == 1

/-- Rings of a half. -/
def ringCount : Nat := 520

/-- The functions of a half answer configuration requests: LINK_STATUS.RRS is 0 (R104, R113). -/
def configOpen (s : State) (h : Half) : Bool := s.rd (.host .LINK_STATUS_RRS) h == 0

/-- A function's BARs can be reached: it exists, and its half has reached step E4 (R113, R116, §4.4 "At the edges"). -/
def barReach (s : State) (h : Half) (fn : Nat) : Bool :=
  decide (fn ≤ pf) && fnExists s h fn && s.rd (.boot .MGMT_READY) h == 1

/-- A ring's registers, doorbells and slots can be reached by its function. -/
def ringReach (s : State) (h : Half) (ring : Nat) : Bool := decide (ring < ringCount) && barReach s h (ringFn ring)

/-- A staged low word discarded and counted (R140). -/
def dropStaged (s : State) (h : Half) (fn : Nat) : State :=
  if s.rd (.host .STAGE_TAG) h fn = 0 then s
  else raiseFunc ((s.wr (.host .STAGE_TAG) h 0 fn).inc (.host .SHD_CNT_STAGE_DROP) h 1 fn) h fn 8

/-- The byte address of a pinned slot in the slots' memory. -/
def slotByte (h : Half) (ring n off : Nat) : Nat := ((h.num * ringCount + ring) * 64 + n) * 64 + off

/-- The 64 bytes of entry `n` of a pinned ring (R158). -/
def slotEntry (s : State) (h : Half) (ring n : Nat) : List Byte :=
  s.slots.readN (slotByte h ring (n % s.rd (.host .PIN_COUNT) h ring) 0) 64

/-- Entries of the chain whose head is given: 1 when no PI can cover it whole (R180). -/
def chainLen (head : List Byte) (size : Nat) : Nat :=
  if 4 < hdExtN head ∨ size < 1 + hdExtN head then 1 else 1 + hdExtN head

/-- The fetches of a ring whose bytes have landed, from the front on. -/
def landedOf (s : State) (h : Half) (ring : Nat) : List Fetch :=
  (s.fetches.filter fun f => f.half == h && f.ring == ring).takeWhile fun f => f.data.isSome

/-- The bytes that have landed of a ring and have not been read. -/
def landedBytes (s : State) (h : Half) (ring : Nat) : List Byte :=
  ((landedOf s h ring).map fun f => f.data.getD []).flatten

/-- The chains that begin in landed bytes of at most `fuel` entries, and the entries that the last of them still lacks. -/
def chainsIn (size : Nat) : Nat → List Byte → Nat × Nat
  | 0, _ => (0, 0)
  | fuel + 1, data =>
    if data.length < 64 then (0, 0)
    else
      let n := chainLen (data.take 64) size
      if data.length < 64 * n then (1, n - data.length / 64)
      else
        let r := chainsIn size fuel (data.drop (64 * n))
        (1 + r.1, r.2)

/-- The landed entries of chains that `avail` entries of the ring cover whole, and the length of the chain after them of which only the
head is covered, 0 = none (R180). -/
def coveredIn (size : Nat) : Nat → Nat → List Byte → Nat × Nat
  | 0, _, _ => (0, 0)
  | fuel + 1, avail, data =>
    if data.length < 64 then (0, 0)
    else
      let n := chainLen (data.take 64) size
      if avail < n then (0, n)
      else if data.length < 64 * n then (data.length / 64, 0)
      else
        let r := coveredIn size fuel (avail - n) (data.drop (64 * n))
        (n + r.1, r.2)

/-- Entries of a ring in the device and not taken. -/
def inFlight (s : State) (h : Half) (ring : Nat) : Nat :=
  (s.fetches.filter fun f => f.half == h && f.ring == ring).foldl (fun n f => n + f.count) 0

/-- A ring's descriptors fetched or read and not admitted (R153): a chain counts once (§5.4 "At the edges"), and an entry whose read
has not returned, of which nothing shows to which chain it belongs, counts as one. -/
def fetchedOf (s : State) (h : Half) (ring : Nat) : Nat :=
  let data := landedBytes s h ring
  let k := chainsIn (sqSize s h ring) (data.length / 64) data
  (s.chains.filter fun c => c.half == h && c.ring == ring && c.unadmitted).length + k.1 +
    (inFlight s h ring - data.length / 64 - k.2)

/-- RING_STATE.FETCHED brought up to date. -/
def refreshFetched (s : State) (h : Half) (ring : Nat) : State :=
  s.wr (.host .RING_STATE_FETCHED) h (min 16 (fetchedOf s h ring)) ring

/-- Credit for `n` more records on a ring's completion ring (R163). -/
def creditFor (s : State) (h : Half) (ring n : Nat) : Bool :=
  decide (cqUsed s h ring + s.rd (.host .CQ_RESERVED) h ring + n + evtReserve s h ring ≤ cqSize s h ring)

/-- Records a chain reserves: those of its opcode, or one where the opcode is unknown or check 8 fails (R163). -/
def reserveOf (s : State) (h : Half) (ring : Nat) (head : List Byte) : Nat :=
  if (opRow (hdOpcode head)).isNone ∨ (check8 s h ring head).isSome then 1 else recordsOf head

/-- Records reserved for the first `n` entries of a list of fetches (R163). -/
def heldIn : Nat → List Fetch → Nat
  | _, [] => 0
  | n, f :: r => if f.count ≤ n then f.reserved + heldIn (n - f.count) r else min n f.reserved

/-- Records reserved for the next chain of a ring, as far as its entries are in the device. -/
def heldFor (s : State) (h : Half) (ring : Nat) : Nat :=
  heldIn (chainLen ((landedBytes s h ring).take 64) (sqSize s h ring)) (s.fetches.filter fun f => f.half == h && f.ring == ring)

/-- The records that the next descriptor of a ring needs beyond those reserved for it (R163): those of a head in the device or in its slot,
one while no head is there. -/
def nextNeed (s : State) (h : Half) (ring : Nat) : Nat :=
  let data := landedBytes s h ring
  if 64 ≤ data.length then reserveOf s h ring (data.take 64) - heldFor s h ring
  else if s.rd (.host .RING_CFG_PINNED) h ring = 1 then reserveOf s h ring (slotEntry s h ring (s.rd (.host .RING_STATUS_CI) h ring))
  else 1

/-- Free records of a ring's completion ring, the event reserve kept (R163). -/
def cqFree (s : State) (h : Half) (ring : Nat) : Nat :=
  cqSize s h ring - (cqUsed s h ring + s.rd (.host .CQ_RESERVED) h ring + evtReserve s h ring)

/-- CQ_STALL set to whether credit was missing. -/
def stallBit (s : State) (h : Half) (ring : Nat) (b : Bool) : State := s.wr (.host .RING_STATE_CQ_STALL) h (bit b) ring

/-- CQ_STALL after credit has come back: it stays set while the condition of R163 still fails. -/
def unstall (s : State) (h : Half) (ring : Nat) : State :=
  if creditFor s h ring (nextNeed s h ring) then stallBit s h ring false else s

/-! ### The set-up lock -/

/-- SETUP_LOCK_SET (R143, R144): the half locked; PEER_PENDING stands until the other half's acknowledgement. The other half is locked
where a path reaches it. -/
def execSetupLockSet (h : Half) (s : State) : Res :=
  if s.rd (.host .SETUP_LOCK_LOCK) h = 1 then .next s
  else
    let s1 := (s.wr (.host .SETUP_LOCK_LOCK) h 1).wr (.host .SETUP_LOCK_PEER_PENDING) h 1
    if s.peerReachable h then .next ((s1.wr (.host .SETUP_LOCK_LOCK) h.other 1).emit (.interHalf h .setupLock)) else .next s1

/-- SETUP_LOCK_ACK (R144): the other half, which the lock has reached, has acknowledged it over the main lanes or the sideband. -/
def execSetupLockAck (h : Half) (s : State) : Res :=
  if s.rd (.host .SETUP_LOCK_PEER_PENDING) h = 1 ∧ s.rd (.host .SETUP_LOCK_LOCK) h.other = 1 ∧ s.peerReachable h = true then
    .next (s.wr (.host .SETUP_LOCK_PEER_PENDING) h 0)
  else .next s

/-! ### Configuration -/

/-- The field values of a ring block register written with a word (Table 4.11). Bit 63 of RING_BASE and CQ_BASE, which the table marks
rsvd and R148 looks at, is stored and reads back as it was written (DESIGN CHOICE, log entry 61). -/
def ringStore (s : State) (h : Half) (ring : Nat) (reg : RingReg) (v : Nat) : State :=
  match reg with
  | .base => (s.wr (.host .RING_BASE) h (v / 4096 * 4096) ring).wr (.host .RING_BASE_WRITTEN) h 1 ring
  | .cqBase => (s.wr (.host .CQ_BASE) h (v / 4096 * 4096) ring).wr (.host .CQ_BASE_WRITTEN) h 1 ring
  | .cfg => ((((s.wr (.host .RING_CFG_CQ_VEC) h (bitsAt v 24 6) ring).wr (.host .RING_CFG_CQ_IRQ_EN) h (bitsAt v 20 1) ring).wr
      (.host .RING_CFG_CQ_LOG2) h (bitsAt v 16 4) ring).wr (.host .RING_CFG_SIZE_LOG2) h (bitsAt v 12 4) ring).wr
      (.host .RING_CFG_PINNED) h (bitsAt v 8 1) ring
  | .coal => (s.wr (.host .RING_COAL_COAL_CNT) h (bitsAt v 16 8) ring).wr (.host .RING_COAL_COAL_TIME) h (bitsAt v 0 16) ring
  | .start => s.wr (.host .RING_START) h (bitsAt v 0 16) ring

/-- RING_CONFIG_WRITE (R147): stored while the ring is DISABLED, else ST_RING_BUSY; LAST_STATUS keeps the last refusal or error (Table 4.11;
DESIGN CHOICE, log entry 61). -/
def execRingConfigWrite (h : Half) (ring : Nat) (reg : RingReg) (v : Nat) (s : State) : Res :=
  if ringReach s h ring = true then
    if ringSt s h ring = 0 then .next (ringStore s h ring reg v) else .next (ringStatus s h ring ST_RING_BUSY)
  else .next s

/-- Host address ranges `[a, a + n)` and `[b, b + m)` overlap. -/
def overlaps (a n b m : Nat) : Bool := decide (a < b + m ∧ b < a + n)

/-- The host ranges a ring uses: its completion ring, and its submission ring when it is not pinned (R148). -/
def ringRanges (s : State) (h : Half) (ring : Nat) : List (Nat × Nat) :=
  (s.rd (.host .CQ_BASE) h ring, 32 * cqSize s h ring) ::
    (if s.rd (.host .RING_CFG_PINNED) h ring = 1 then []
     else [(s.rd (.host .RING_BASE) h ring, 64 * sqSize s h ring)])

/-- A base that a ring uses is good: written since reset, with bit 63 clear, and 4 KB aligned. -/
def baseOk (written base : Nat) : Bool := written == 1 && decide (base < hostBit) && base % 4096 == 0

/-- The configuration check of R148. -/
def ringConfigOk (s : State) (h : Half) (ring : Nat) : Bool :=
  let fn := ringFn ring
  let pinned := s.rd (.host .RING_CFG_PINNED) h ring == 1
  let cq := s.rd (.host .RING_CFG_CQ_LOG2) h ring
  let sq := s.rd (.host .RING_CFG_SIZE_LOG2) h ring
  baseOk (s.rd (.host .CQ_BASE_WRITTEN) h ring) (s.rd (.host .CQ_BASE) h ring) && decide (4 ≤ cq) &&
    (pinned || (baseOk (s.rd (.host .RING_BASE_WRITTEN) h ring) (s.rd (.host .RING_BASE) h ring) && decide (4 ≤ sq))) &&
    decide (s.rd (.host .RING_CFG_CQ_VEC) h ring < vecCount fn) &&
    (eventRing s h fn != some ring || decide (6 ≤ cq)) &&
    (!pinned || s.rd (.host .PIN_COUNT) h ring != 0) &&
    (ringsOf fn).all fun r => r == ring || s.rd (.host .RING_CTL_EN) h r == 0 ||
      (ringRanges s h ring).all fun a => (ringRanges s h r).all fun b => !(overlaps a.1 a.2 b.1 b.2)

/-- The refusal of an enable before the configuration check (R148, R171, R485, R505). -/
def enableRefusal (s : State) (h : Half) (ring : Nat) : Option Nat :=
  let fn := ringFn ring
  if ringSt s h ring = 2 ∨ s.rd (.host .FUNC_STATUS_DRAINING) h fn = 1 then some ST_RING_BUSY
  else if fn ≠ pf ∧ s.rd (.sec .PART_CTL_STATE) h fn ≠ 1 then some ST_PART_STATE
  else if s.rd (.sec .SEC_CFG_IDE_REQ) h = 1 ∧ s.rd (.host .LINK_STATUS_IDE) h = 0 then some ST_IDE_REQUIRED
  else if ringConfigOk s h ring = false then some ST_RING_CONFIG
  else none

/-- The doorbells of a ring forgotten. -/
def dropDoorbells (s : State) (h : Half) (ring : Nat) : State :=
  { s with doorbells := s.doorbells.filter fun d => !(d.half == h && d.ring == ring) }

/-- A ring made ACTIVE with its indices at START (R148). -/
def ringActivate (s0 : State) (h : Half) (ring : Nat) : State :=
  let s := dropDoorbells s0 h ring
  let st := s.rd (.host .RING_START) h ring
  let s1 := (s.wr (.host .RING_STATUS_PI) h st ring).wr (.host .RING_STATUS_CI) h st ring
  let s2 := (s1.wr (.host .RING_STATUS_CQ_PI) h 0 ring).wr (.host .RING_STATUS_CQ_CI) h 0 ring
  let s3 := (s2.wr (.host .RING_CTL_EN) h 1 ring).wr (.host .RING_STATE_STATE) h 1 ring
  let s4 := (((s3.wr (.host .COAL_SEEN) h 0 ring).wr (.host .CQ_RESERVED) h 0 ring).wr (.host .RING_LOOK) h 0 ring).wr
    (.host .RING_QUIET) h 0 ring
  let s5 := s4.wr (.sched .URG_WANT) h (s.rd (.sched .RING_SCHED_URG_EN) h ring) ring
  stallBit s5 h ring false

/-- RING_ENABLE (R148): nothing on an ACTIVE or ERROR ring; else refused, or ACTIVE with LAST_STATUS ST_OK (DESIGN CHOICE, log entry 61). -/
def execRingEnable (h : Half) (ring : Nat) (s : State) : Res :=
  if ringReach s h ring = true then
    if ringSt s h ring = 1 ∨ ringSt s h ring = 3 then .next s
    else match enableRefusal s h ring with
      | some status => .next (ringStatus s h ring status)
      | none => .next (ringStatus (ringActivate s h ring) h ring ST_OK)
  else .next s

/-- Chains of a ring not admitted completed without running, with a status (R155, R198). -/
def cancelUnadmitted (s : State) (h : Half) (ring status : Nat) (silent : Bool) : State :=
  let s1 := mapChains s fun c => if c.half = h ∧ c.ring = ring ∧ c.unadmitted then c.cancel status silent else c
  refreshFetched (relist s1 h) h ring

/-- A ring put into STOPPING: its unadmitted chains complete with ST_CANCELLED (R155). -/
def ringStop (s : State) (h : Half) (ring : Nat) : State :=
  if ringSt s h ring = 1 ∨ ringSt s h ring = 3 then
    cancelUnadmitted ((s.wr (.host .RING_CTL_EN) h 0 ring).wr (.host .RING_STATE_STATE) h 2 ring) h ring ST_CANCELLED false
  else s

/-- RING_DISABLE (R155). -/
def execRingDisable (h : Half) (ring : Nat) (s : State) : Res :=
  if ring < ringCount then .next (ringStop s h ring) else .next s

/-- RING_FSTOP (R155): the operator stops a tenant ring. -/
def execRingFstop (h : Half) (ring : Nat) (s : State) : Res :=
  if ring < 512 then .next (ringStop s h ring) else .next s

/-- A partition step of a ring's function has not reached its end (R520). -/
def partStepping (s : State) (h : Half) (ring : Nat) : Bool := s.rd (.flt .FLT_PART_STEP) h (ringFn ring) == 1

/-- A request waits for its streams alone; its end is outside a partition step (R520). -/
def waitsStreams (s : State) (r : Request) : Bool := r.closing && s.streams.any fun x => x.half == r.half && x.request == r.num

/-- A ring owes a record, or has entries fetched and not read (R155). -/
def ringOwes (s : State) (h : Half) (ring : Nat) : Bool :=
  (s.chains.any fun c => c.half == h && c.ring == ring) || (s.fetches.any fun f => f.half == h && f.ring == ring) ||
    (s.requests.any fun r => r.half == h && r.ring == ring && !r.silent && !(partStepping s h ring && waitsStreams s r))

/-- The standing context of a ring leaves its slot (R335). -/
def standingLeave (s : State) (h : Half) (ring : Nat) : State :=
  dropCtxs ((s.wr (.sched .RING_SCHED_URG_READY) h 0 ring).wr (.sched .URG_WANT) h 0 ring) fun c => c.half == h && c.ring == ring && c.standing

/-- A ring that enters DISABLED has no chain left that a BARRIER covers; what it runs after its next enable is covered by none (R188). -/
def forgetRing (s : State) (h : Half) (ring : Nat) : State :=
  mapChains s fun c => if c.half = h ∧ hdOpcode c.head = opBARRIER then { c with snap := c.snap.filter fun p => p.1 != ring } else c

/-- A partition step ends once every ring of the partition is DISABLED: FLT_EVT.PART_STEP (Table 16.8, step 6). -/
def endPartStep (s : State) (h : Half) (fn : Nat) : State :=
  if s.rd (.flt .FLT_PART_STEP) h fn = 1 ∧ ((ringsOf fn).all fun r => ringSt s h r == 0) = true then
    let s1 := s.wr (.flt .FLT_PART_STEP) h 0 fn
    let last := !((List.range 64).any fun p => s1.rd (.flt .FLT_PART_STEP) h p == 1)
    let s2 := if last && s1.rd (.flt .FLT_STATUS_STEP) h == 3 then s1.wr (.flt .FLT_STATUS_STEP) h 0 else s1
    raiseCause s2 12 h (2 ^ 4)
  else s

/-- A ring enters DISABLED, signalling records not yet signalled (§4.10 "At the edges"). -/
def ringDisabled (s : State) (h : Half) (ring : Nat) : State :=
  let s1 := forgetRing (s.wr (.host .RING_STATE_STATE) h 0 ring) h ring
  endPartStep (standingLeave (if s.rd (.host .COAL_SEEN) h ring = 0 then s1 else signalRing s1 h ring) h ring) h (ringFn ring)

/-- RING_STOP_DRAINED (R155, R335). -/
def execRingStopDrained (h : Half) (ring : Nat) (s : State) : Res :=
  if ringSt s h ring = 2 ∧ ringOwes s h ring = false then .next (ringDisabled s h ring) else .next s

/-! ### Doorbells -/

/-- An accepted doorbell kept with its MT (R357). -/
def noteDoorbell (s : State) (h : Half) (ring pi : Nat) : State :=
  { s with doorbells := s.doorbells ++ [⟨h, ring, pi % 65536, s.mt h⟩] }

/-- DOORBELL_WRITE (R150): a new PI accepted, or DB_RANGE, or DB_DISABLED on a ring that is DISABLED or STOPPING. -/
def execDoorbellWrite (h : Half) (ring pi : Nat) (s : State) : Res :=
  if ringReach s h ring = true then
    let s := dropStaged s h (ringFn ring)
    if ringSt s h ring = 0 ∨ ringSt s h ring = 2 then .next (ringErr s h ring 2)
    else
      let ci := s.rd (.host .RING_STATUS_CI) h ring
      let a := (pi + 65536 - ci) % 65536
      let b := (s.rd (.host .RING_STATUS_PI) h ring + 65536 - ci) % 65536
      if a = b ∧ a ≤ sqSize s h ring then .next s
      else if b ≤ a ∧ a ≤ sqSize s h ring then
        .next (noteDoorbell (s.wr (.host .RING_STATUS_PI) h pi ring) h ring pi)
      else .next (ringErr s h ring 1)
  else .next s

/-- CQ_DOORBELL_WRITE (R163, R164). -/
def execCqDoorbellWrite (h : Half) (ring ci : Nat) (s : State) : Res :=
  if ringReach s h ring = true then
    let s := dropStaged s h (ringFn ring)
    let old := s.rd (.host .RING_STATUS_CQ_CI) h ring
    let c := (ci + 65536 - old) % 65536
    if c ≤ cqUsed s h ring then .next (unstall (s.wr (.host .RING_STATUS_CQ_CI) h ci ring) h ring) else .next (ringErr s h ring 16)
  else .next s

/-! ### Fetch -/

/-- Entries that the next fetch of a ring reads: up to 8, none across the ring's end, within the PI and the 16 that may be
held (R153); none of a chain that the PI does not cover yet (R180). -/
def fetchCount (s : State) (h : Half) (ring : Nat) : Nat :=
  let size := sqSize s h ring
  let fl := inFlight s h ring
  let first := (s.rd (.host .RING_STATUS_CI) h ring + fl) % 65536
  let avail := (s.rd (.host .RING_STATUS_PI) h ring + 65536 - s.rd (.host .RING_STATUS_CI) h ring) % 65536 - fl
  if avail < s.rd (.host .RING_LOOK) h ring then 0
  else min (min 8 avail) (min (16 - fetchedOf s h ring) (size - first % size))

/-- Entries that completion credits let the next fetch read: one record is reserved for each, after what the chain at the front of the ring
lacks (R153, R163; log entry 61). -/
def fetchCredit (s : State) (h : Half) (ring : Nat) : Nat :=
  cqFree s h ring - (if 64 ≤ (landedBytes s h ring).length then nextNeed s h ring else 0)

/-- A ring in ERROR after a failed fetch (R156, R170): FETCH is set, and LAST_STATUS takes the status. A ring that is STOPPING stays so,
with both set (DESIGN CHOICE, log entry 61). -/
def fetchFailed (s : State) (h : Half) (ring status : Nat) : State :=
  let s1 := if ringSt s h ring = 1 then s.wr (.host .RING_STATE_STATE) h 3 ring else s
  refreshFetched (ringErr (ringStatus s1 h ring status) h ring 32) h ring

/-- DESC_FETCH (R153, R163, R170): a read of the next entries of an ACTIVE ring, each with a free completion credit, which it reserves; what
the chain needs beyond that is reserved from its head as read (DEDUCED, log entry 61). A ring that Table 4.7 has made stop fetching reads
nothing while no access can leave the device; any other read that cannot fails at once. -/
def execDescFetch (h : Half) (ring : Nat) (s : State) : Res :=
  let n := min (fetchCount s h ring) (fetchCredit s h ring)
  if ringSt s h ring = 1 ∧ s.rd (.host .RING_CFG_PINNED) h ring = 0 ∧ fetchCount s h ring ≠ 0 then
    if s.hostOk h (ringFn ring) = false then
      if s.rd (.host .RING_QUIET) h ring = 1 then .next s else .next (fetchFailed s h ring ST_HOST_LINK_DOWN)
    else if n = 0 then .next (stallBit s h ring true)
    else
      let first := (s.rd (.host .RING_STATUS_CI) h ring + inFlight s h ring) % 65536
      let s0 : State := { s with fetches := s.fetches ++ [⟨h, ring, first, n, none, n, s.mt h⟩] }
      let s1 := s0.wr (.host .CQ_RESERVED) h (s.rd (.host .CQ_RESERVED) h ring + n) ring
      .next (refreshFetched (stallBit (s1.wr (.host .RING_LOOK) h 0 ring) h ring false) h ring)
  else .next s

/-- The first fetch of a ring that has not returned. -/
def Fetch.open_ (f : Fetch) (h : Half) (ring : Nat) : Bool := f.half == h && f.ring == ring && f.data == none

/-- The first fetch that is open replaced by another, or removed. -/
def updateFetch (l : List Fetch) (h : Half) (ring : Nat) (g : Fetch → Option Fetch) : List Fetch :=
  match l with
  | [] => []
  | f :: r => if f.open_ h ring then (match g f with
      | some f' => f' :: r
      | none => r) else f :: updateFetch r h ring g

/-- The bytes of entries of a submission ring in host memory (R149). -/
def ringBytes (s : State) (h : Half) (ring first n : Nat) : List Byte :=
  s.mem.readN (hostBit + s.rd (.host .RING_BASE) h ring + first % sqSize s h ring * 64) (64 * n)

/-- The host's own stores into a ring's entries, laid over host memory before the read of them returns (log entry 9). -/
def hostStores (s : State) (h : Half) (ring first n : Nat) (data : List Byte) : State :=
  { s with mem := s.mem.writeN (hostBit + s.rd (.host .RING_BASE) h ring + first % sqSize s h ring * 64) (data.take (64 * n)) }

/-- The samples of a descriptor read that has returned: one for each entry, and the host read's own (Table 17.3, sources 6 and 13). -/
def fetchSamples (s : State) (f : Fetch) : State :=
  let v : Int := ((s.mt f.half - f.mt : Nat) : Int)
  histSample ((List.range f.count).foldl (fun t _ => histSample t f.half 6 (ringFn f.ring) v) s) f.half 13 pf v

/-- Fetches of a ring replaced by others of it, with what was reserved for the entries that are gone released. -/
def setFetches (s : State) (h : Half) (ring : Nat) (l : List Fetch) : State :=
  let held (l : List Fetch) : Nat := ((l.filter fun f => f.half == h && f.ring == ring).map fun f => f.reserved).sum
  { s with fetches := l }.wr (.host .CQ_RESERVED) h (s.rd (.host .CQ_RESERVED) h ring - (held s.fetches - held l)) ring

/-- The first `n` entries of a ring's fetches; its other entries are given up. -/
def keepEntries (h : Half) (ring : Nat) : Nat → List Fetch → List Fetch
  | _, [] => []
  | n, f :: r =>
    if f.half = h ∧ f.ring = ring then
      if n = 0 then keepEntries h ring 0 r
      else if f.count ≤ n then f :: keepEntries h ring (n - f.count) r
      else { f with count := n, reserved := min n f.reserved, data := f.data.map (·.take (64 * n)) } :: keepEntries h ring 0 r
    else f :: keepEntries h ring n r

/-- What the device sees of the landed entries of a ring: those of chains that the PI covers, and the length of the first chain that it does
not (R180). -/
def lookAt (s : State) (h : Half) (ring : Nat) : Nat × Nat :=
  let data := landedBytes s h ring
  coveredIn (sqSize s h ring) (data.length / 64)
    ((s.rd (.host .RING_STATUS_PI) h ring + 65536 - s.rd (.host .RING_STATUS_CI) h ring) % 65536) data

/-- Nothing is kept of a chain that the PI does not cover but its length: it is read whole once a doorbell covers it (R180). -/
def dropUncovered (s : State) (h : Half) (ring : Nat) : State :=
  let k := lookAt s h ring
  if k.2 = 0 then s
  else refreshFetched ((setFetches s h ring (keepEntries h ring k.1 s.fetches)).wr (.host .RING_LOOK) h k.2 ring) h ring

/-- The read of a fetch has returned: the bytes that host memory holds, with those that the host has stored over the entries since. -/
def landRead (s : State) (h : Half) (ring : Nat) (f : Fetch) (data : List Byte) : State :=
  let s1 := hostStores s h ring f.first f.count data
  let land (g : Fetch) : Option Fetch := some { g with data := some (ringBytes s1 h ring g.first g.count) }
  bump { s1 with fetches := updateFetch s1.fetches h ring land } h 3 0 (64 * f.count)

/-- DESC_FETCH_COMPLETE (R154, R180): the read returns, and the device runs the bytes it returned: what host memory holds, with the bytes
`data` that the host has stored over the entries since. -/
def execDescFetchComplete (h : Half) (ring : Nat) (data : List Byte) (s : State) : Res :=
  match s.fetches.find? fun f => f.open_ h ring with
  | none => .next s
  | some f => .next (dropUncovered (fetchSamples (landRead s h ring f data) f) h ring)

/-- DESC_FETCH_FAIL (R156): the ring enters ERROR; entries already fetched continue. -/
def execDescFetchFail (h : Half) (ring : Nat) (s : State) : Res :=
  if s.fetches.any (fun f => f.open_ h ring) then
    .next (fetchFailed (setFetches s h ring (s.fetches.filter fun f => !(f.open_ h ring))) h ring ST_HOST_ACCESS)
  else .next s

/-! ### Pinned slots -/

/-- Pinned slots of a ring filled with zeros (R157). -/
def zeroSlots (s : State) (h : Half) (ring : Nat) : State :=
  { s with slots := s.slots.clearRange (slotByte h ring 0 0) 4096 }

/-- PIN_ALLOC_WRITE (R157). -/
def execPinAllocWrite (h : Half) (ring count : Nat) (s : State) : Res :=
  let old := s.rd (.host .PIN_COUNT) h ring
  let free := s.rd (.host .PIN_POOL_FREE) h + old
  let refuse (status : Nat) : Res := .next (s.wr (.host .PIN_POOL_LAST_STATUS) h status)
  if ring < ringCount then
    if [0, 1, 2, 4, 8, 16, 32, 64].contains count = false then refuse ST_RING_CONFIG
    else if ringSt s h ring ≠ 0 then refuse ST_RING_BUSY
    else if free < count then refuse ST_PIN_EXHAUSTED
    else
      let s1 := (s.wr (.host .PIN_ALLOC) h count ring).wr (.host .PIN_COUNT) h count ring
      let s2 := (s1.wr (.host .PIN_POOL_FREE) h (free - count)).wr (.host .PIN_POOL_LAST_STATUS) h ST_OK
      .next (zeroSlots s2 h ring)
  else .next s

/-- A slot of a pinned ring holds a descriptor that the device owns and has not read (R159). -/
def slotBusy (s : State) (h : Half) (ring slot : Nat) : Bool :=
  let ci := s.rd (.host .RING_STATUS_CI) h ring
  let posted := (s.rd (.host .RING_STATUS_PI) h ring + 65536 - ci) % 65536
  (List.range posted).any fun k => (ci + k) % 65536 % sqSize s h ring == slot

/-- PINNED_SLOT_WRITE (R159). -/
def execPinnedSlotWrite (h : Half) (ring off : Nat) (data : List Byte) (s : State) : Res :=
  let n := data.length
  if ringReach s h ring = true then
    let s := dropStaged s h (ringFn ring)
    if n < 4 ∨ 64 < n ∨ n % 4 ≠ 0 ∨ off % 4 ≠ 0 then .next (countBadWidth s h (ringFn ring))
    else if s.rd (.host .RING_CFG_PINNED) h ring = 0 ∨ s.rd (.host .PIN_COUNT) h ring ≤ off / 64 then .next (ringErr s h ring 8)
    else if 64 < off % 64 + n then .next s
    else if slotBusy s h ring (off / 64) then .next (ringErr s h ring 4)
    else .next { s with slots := s.slots.writeN (slotByte h ring (off / 64) (off % 64)) data }
  else .next s

/-- PINNED_READ (R160, R163): the next chain of a pinned ring is read from its slots, once every earlier chain of the ring
has been admitted or completed, and its records can be reserved. -/
def execPinnedRead (h : Half) (ring : Nat) (s : State) : Res :=
  let ci := s.rd (.host .RING_STATUS_CI) h ring
  let posted := (s.rd (.host .RING_STATUS_PI) h ring + 65536 - ci) % 65536
  let head := slotEntry s h ring ci
  let len := chainLen head (sqSize s h ring)
  let need := reserveOf s h ring head
  if ringSt s h ring = 1 ∧ s.rd (.host .RING_CFG_PINNED) h ring = 1 ∧ fetchedOf s h ring = 0 ∧ posted ≠ 0 ∧ len ≤ posted then
    if creditFor s h ring need then
      let data := (List.range len).foldl (fun l k => l ++ slotEntry s h ring (ci + k)) []
      let s1 : State := { s with fetches := s.fetches ++ [⟨h, ring, ci, len, some data, need, s.mt h⟩] }
      let s2 := s1.wr (.host .CQ_RESERVED) h (s.rd (.host .CQ_RESERVED) h ring + need) ring
      .next (refreshFetched (stallBit (s2.wr (.host .RING_STATUS_CI) h (ci + len) ring) h ring false) h ring)
    else .next (stallBit s h ring true)
  else .next s

/-! ### Event rings and messages -/

/-- EVT_RING_WRITE (R165): applied while every ring that is the event ring before or after is DISABLED. -/
def execEvtRingWrite (h : Half) (fn : Nat) (en : Bool) (ring : Fin 8) (s : State) : Res :=
  if fn ≤ pf ∧ fnExists s h fn = true then
    let before := (eventRing s h fn).all fun r => ringSt s h r == 0
    let after := !en || ringSt s h (fnRing fn ring.val) == 0
    if before ∧ after then
      .next ((s.wr (.host .EVT_RING_EN) h (bit en) fn).wr (.host .EVT_RING_RING) h ring.val fn)
    else .next (ringStatus s h (fnRing fn ring.val) ST_RING_BUSY)
  else .next s

/-- COAL_TIME_EXPIRE (R167): COAL_TIME × 100 ns have passed since the first unsignalled record. -/
def execCoalTimeExpire (h : Half) (ring : Nat) (s : State) : Res :=
  let time := s.rd (.host .RING_COAL_COAL_TIME) h ring
  if s.rd (.host .COAL_SEEN) h ring ≠ 0 ∧ time ≠ 0 ∧ s.rd (.host .COAL_T0) h ring + time * 100 ≤ s.mt h then .next (signalRing s h ring)
  else .next s

/-- MSIX_UNMASK (R168): the mask bit cleared; a pending message is sent. -/
def execMsixUnmask (h : Half) (fn vec : Nat) (s : State) : Res :=
  if fn ≤ pf ∧ vec < vecCount fn then
    let i := fn * 64 + vec
    let s1 := s.wr (.host .MSIX_MASK) h 0 i
    if s.rd (.host .MSIX_PBA) h i = 1 then .next (sendMsix (s1.wr (.host .MSIX_PBA) h 0 i) h fn vec) else .next s1
  else .next s

/-! ### Host-link resets (R169 to R172) -/

/-- Fields of a ring block, which a reset of the host link returns to their reset values. -/
def ringBlock : List HostF :=
  [.RING_BASE, .CQ_BASE, .RING_CFG_CQ_VEC, .RING_CFG_CQ_IRQ_EN, .RING_CFG_CQ_LOG2, .RING_CFG_SIZE_LOG2, .RING_CFG_PINNED,
    .RING_COAL_COAL_CNT, .RING_COAL_COAL_TIME, .RING_START, .RING_CTL_EN, .RING_STATUS_CQ_CI, .RING_STATUS_CQ_PI,
    .RING_STATUS_CI, .RING_STATUS_PI, .RING_STATE_LAST_STATUS, .RING_STATE_CQ_STALL] ++
  [.RING_ERR, .RING_LOOK, .RING_QUIET, .RING_BASE_WRITTEN, .CQ_BASE_WRITTEN, .COAL_SEEN, .COAL_T0, .CQ_RESERVED]

/-- Fields of a FUNC block and the function's shadows. -/
def funcBlock : List HostF :=
  [.FUNC_IRQ, .FUNC_IRQ_EN, .FUNC_IRQ_VEC, .EVT_RING_EN, .EVT_RING_RING, .ACC_CNT_UNMAPPED, .ACC_CNT_BAD_WIDTH,
    .SHD_CNT_SHADOW_MISS, .SHD_CNT_STAGE_DROP, .EVT_LOST_CNT, .SHADOW_TAG, .SHADOW_HIGH, .STAGE_TAG, .STAGE_LOW]

/-- Host fields of an instance put back to their reset values. -/
def resetHost (s : State) (h : Half) (l : List HostF) (i : Nat) : State :=
  l.foldl (fun t f => t.wr (.host f) h ((Fld.host f).reset h i) i) s

/-- The MSI-X table and PBA of a function reset. -/
def resetMsix (s : State) (h : Half) (fn : Nat) : State :=
  (List.range (vecCount fn)).foldl (fun t v =>
    resetHost t h [.MSIX_ADDR, .MSIX_DATA, .MSIX_MASK, .MSIX_PBA] (fn * 64 + v)) s

/-- The entries of a ring that are fetched and not read are dropped, with what was reserved for them. -/
def dropFetches (s : State) (h : Half) (ring : Nat) : State := setFetches s h ring (s.fetches.filter fun f => !(f.half == h && f.ring == ring))

/-- A ring that stops at once: no further fetch, its unadmitted chains completed with the status, its other chains
marked, no host write of its chains any more (R169). -/
def ringHalt (s : State) (h : Half) (ring status : Nat) : State :=
  let s1 := dropFetches s h ring
  let s2 := if ringSt s h ring = 0 then s1
    else (s1.wr (.host .RING_CTL_EN) h 0 ring).wr (.host .RING_STATE_STATE) h 2 ring
  let s3 := mapChains s2 fun c => if c.half = h ∧ c.ring = ring then c.cancel status true else c
  refreshFetched s3 h ring

/-- The rings of a function halted and its requests closed with a status, with no host write on their behalf (R169). -/
def haltFunction (s : State) (h : Half) (fn status : Nat) : State :=
  let s1 := (ringsOf fn).foldl (fun t r => ringHalt t h r status) s
  let s2 := closeRequests s1 (fun r => r.half == h && ringFn r.ring == fn) status true
  relist s2 h

/-- Rings of a function that owe nothing enter DISABLED at once (R169). -/
def settleRings (s : State) (h : Half) (fn : Nat) : State :=
  (ringsOf fn).foldl (fun t r => if ringSt t h r = 2 ∧ ringOwes t h r = false then ringDisabled t h r else t) s

/-- The rings of a function stop fetching, which is all that Table 4.7 has happen to them, and its requests close (R169, R171, R172). -/
def stopFunction (s : State) (h : Half) (fn status : Nat) : State :=
  let s1 := (ringsOf fn).foldl (fun t r => t.wr (.host .RING_QUIET) h 1 r) s
  let s2 := closeRequests s1 (fun r => r.half == h && ringFn r.ring == fn) status true
  refreshDraining (relist s2 h) h fn

/-- The registers that an event of Table 4.7 resets in a function: ring blocks, FUNC block, MSI-X table; pinned slots
zeroed. The state of a ring that still runs closed work is kept until it drains. -/
def resetFunction (s : State) (h : Half) (fn : Nat) : State :=
  let s1 := (ringsOf fn).foldl (fun t r => zeroSlots (resetHost t h ringBlock r) h r) s
  resetMsix (resetHost s1 h funcBlock fn) h fn

/-- A function halted and reset (Table 4.7). -/
def killFunction (s : State) (h : Half) (fn status : Nat) : State :=
  refreshDraining (resetFunction (settleRings (haltFunction s h fn status) h fn) h fn) h fn

/-- Every function of a half halted and reset. -/
def killHalf (s : State) (h : Half) (status : Nat) : State :=
  (List.range 65).foldl (fun t fn => killFunction t h fn status) s

/-- The VFs of a half cease to exist from number `n` on. -/
def limitVfs (s : State) (h : Half) (n : Nat) : State :=
  (List.range 64).foldl (fun t p => t.wr (.host .VF_EXISTS) h (bit (decide (p < n))) p) s

/-- The PCIe functions of a half after a conventional reset: no VF, no bus mastering, no power state but D0. -/
def resetPcie (s : State) (h : Half) : State :=
  let s1 := limitVfs (s.wr (.host .NUM_VFS) h 0) h 0
  (List.range 65).foldl (fun t fn => (t.wr (.host .BME) h 0 fn).wr (.host .D3HOT) h 0 fn) s1

/-- An IDE stream stopped and its key zeroized (Table 15.1). -/
def ideStop (s : State) (h : Half) (i : Nat) : State :=
  let clear (t : State) (k : Nat) : State := (t.wr (.sec .IDE_KEY) h 0 k).wr (.sec .IDE_KEY_V) h 0 k
  clear (clear ((s.wr (.sec .IDE_ON) h 0 i).wr (.sec .IDE_SET) h 0 i) (2 * i)) (2 * i + 1)

/-- The link of a half is down; its IDE streams and their keys are gone. -/
def linkDown (s : State) (h : Half) : State :=
  (List.range 5).foldl (fun t i => ideStop t h i) ((s.wr (.host .LINK_STATUS_LINK_UP) h 0).wr (.host .LINK_STATUS_IDE) h 0)

/-- LINK_EVT bits set. -/
def linkEvent (s : State) (h : Half) (bits : Nat) : State :=
  s.wr (.host .LINK_EVT) h (setBits (s.rd (.host .LINK_EVT) h) bits)

/-- A conventional reset of the half's host side, after or before step E4 (R169, R113): nothing leaves the device any more, so the rings
settle without a message. -/
def hostReset (s : State) (h : Half) : State :=
  let s1 := killHalf (resetPcie (linkDown s h) h) h ST_HOST_LINK_DOWN
  if s.rd (.boot .MGMT_READY) h = 1 then linkEvent s1 h 2 else s1

/-- PERST_ASSERT (R169): PERST# resets the half's PCIe controller. Before step E4 it acts as R113 states. -/
def execPerstAssert (h : Half) (s : State) : Res := .next ((hostReset s h).wr (.host .PERST_N) h 0)

/-- PERST_DEASSERT (R113): link training starts on the hub. -/
def execPerstDeassert (h : Half) (s : State) : Res := .next (s.wr (.host .PERST_N) h 1)

/-- HOT_RESET (R169): acts as PERST#. -/
def execHotReset (h : Half) (s : State) : Res := .next (hostReset s h)

/-- What DL_Down does (R169): the rings stop and the requests close; LINK_DOWN is latched. -/
def dlDown (s : State) (h : Half) : State := linkEvent (killHalf (linkDown s h) h ST_HOST_LINK_DOWN) h 1

/-- DL_DOWN (R169). -/
def execDlDown (h : Half) (s : State) : Res := .next (dlDown s h)

/-- FLR_PF (R169): VF Enable is cleared, and every ring of the half is reset with ST_FLR. -/
def execFlrPf (h : Half) (s : State) : Res :=
  if configOpen s h then .next (linkEvent (killHalf (resetPcie s h) h ST_FLR) h 4) else .next s

/-- The registers of a VF's window besides its FUNC block, rings and MSI-X table: the FAULT view (R134, Table 4.7). -/
def resetFaultView (s : State) (h : Half) (vf : Nat) : State :=
  let put (t : State) (f : FltF) (i : Nat) : State := t.wr (.flt f) h ((Fld.flt f).reset h i) i
  let s1 := [FltF.FLT_LOG_BASE, .FLT_SMP_BASE, .FLT_LOG_CFG_EN, .FLT_LOG_CFG_SMP_LOG2, .FLT_LOG_CFG_LOG2, .FLT_LOG_PI, .FLT_LOG_CI,
    .FLT_LOG_LOST].foldl (fun t f => put t f vf) s
  (ringsOf vf).foldl (fun t r => put (put t .RING_WDT_ACT r) .RING_WDT_MS r) s1

/-- FLR_VF (R169): the window and rings of a VF are reset and its partition's requests closed with ST_FLR; the event counters, which
EVC_VAL only shows, keep their values (DESIGN CHOICE, log entry 61). -/
def execFlrVf (h : Half) (vf : Nat) (s : State) : Res :=
  if vf < 64 ∧ s.rd (.host .VF_EXISTS) h vf = 1 ∧ configOpen s h = true then
    .next (resetFaultView (killFunction ((s.wr (.host .BME) h 0 vf).wr (.host .D3HOT) h 0 vf) h vf ST_FLR) h vf)
  else .next s

/-- BME_CLEAR (R169): the function's rings stop fetching and its requests close; no register is reset. -/
def execBmeClear (h : Half) (fn : Nat) (s : State) : Res :=
  if fn ≤ pf ∧ configOpen s h = true then .next (stopFunction (s.wr (.host .BME) h 0 fn) h fn ST_HOST_LINK_DOWN) else .next s

/-- D3HOT_ENTER (R169): as a cleared Bus Master Enable. -/
def execD3hotEnter (h : Half) (fn : Nat) (s : State) : Res :=
  if fn ≤ pf ∧ configOpen s h = true then .next (stopFunction (s.wr (.host .D3HOT) h 1 fn) h fn ST_HOST_LINK_DOWN) else .next s

/-- A function as the host's enumeration leaves it: in D0, its Bus Master Enable set. No row of the table is a configuration write
(log entry 8). -/
def enumerated (s : State) (h : Half) (fn : Nat) : State := (s.wr (.host .BME) h 1 fn).wr (.host .D3HOT) h 0 fn

/-- A width (as log2 of lanes), a rate and a mode that the endpoint trains to (Table 4.2): x4 to x16, 2.5 to 64 GT/s, and 64 GT/s in Flit
mode only. -/
def linkOptionOk (width rate : Nat) (flit : Bool) : Bool :=
  decide (2 ≤ width ∧ width ≤ 4 ∧ 1 ≤ rate ∧ rate ≤ 6) && (rate != 6 || flit)

/-- PCIE_LINK_UP (R129, R169, R113): the data link comes up, unless PERST# is asserted, and the host enumerates the functions that exist
(log entry 8). -/
def execPcieLinkUp (h : Half) (width rate : Nat) (flit : Bool) (s : State) : Res :=
  if s.rd (.host .PERST_N) h = 1 ∧ linkOptionOk width rate flit = true then
    let s0 := ((List.range 65).filter fun fn => fnExists s h fn).foldl (fun t fn => enumerated t h fn) s
    let s1 := (s0.wr (.host .LINK_STATUS_LINK_UP) h 1).wr (.host .LINK_STATUS_WIDTH) h width
    .next ((s1.wr (.host .LINK_STATUS_RATE) h rate).wr (.host .LINK_STATUS_FLIT) h (bit flit))
  else .next s

/-- VF_ENABLE_CHANGE (R129, R488): VFs at or above NumVFs cease to exist, with their partitions' rings left DISABLED; the host
enumerates those that come to exist (log entry 8). -/
def execVfEnableChange (h : Half) (enable : Bool) (numVfs : Nat) (s : State) : Res :=
  if configOpen s h then
    let n := if enable then min numVfs 64 else 0
    let gone := (List.range 64).filter fun p => decide (n ≤ p) && s.rd (.host .VF_EXISTS) h p == 1
    let s1 := gone.foldl (fun t p => killFunction (t.wr (.host .BME) h 0 p) h p ST_HOST_LINK_DOWN) s
    let fresh := (List.range n).filter fun p => s.rd (.host .VF_EXISTS) h p == 0
    let s2 := fresh.foldl (fun t p => enumerated t h p) s1
    .next (limitVfs (s2.wr (.host .NUM_VFS) h n) h n)
  else .next s

end Sys2Proof.Machine
end

