-- ==== Sys2Proof/Machine/Chains.lean ====
section
/-!
DEFINITION. Machine/Chains.lean: reading and completing chains (R180 to R184, R195, R196, R313), the event counters' and
requests' registers (R197, R205), the synchronization opcodes (R188), cancellation (R350 to R353), and requests (R202 to R204,
R294, R296).
-/

namespace Sys2Proof.Machine

/-! ### Scheduling events (Table 16.6) -/

/-- A scheduling event of a ring's party kept, the oldest of that party dropped beyond 448. -/
def logSched (s : State) (h : Half) (ring seq event cls status ctx : Nat) : State :=
  let fn := ringFn ring
  let mine := s.schedLog.filter fun e => e.half == h && e.party == fn
  let rest := s.schedLog.filter fun e => !(e.half == h && e.party == fn)
  { s with schedLog := rest ++ mine.drop (mine.length - 447) ++ [⟨h, fn, s.mt h, seq, ring, event, cls, status, ctx⟩] }

/-- A counter of a party's group raised (Table 17.2). -/
def bumpPart (s : State) (h : Half) (fn slot n : Nat) : State := bump s h (32 + fn) slot n

/-! ### Reading (R180, R181) -/

/-- `n` entries taken from the front of a ring's fetches. -/
def takeEntries : Nat → List Fetch → Half → Nat → List Fetch
  | _, [], _, _ => []
  | n, f :: r, h, ring =>
    if f.half = h ∧ f.ring = ring then
      if n = 0 then f :: takeEntries 0 r h ring
      else if f.count ≤ n then takeEntries (n - f.count) r h ring
      else { f with first := (f.first + n) % 65536, count := f.count - n, reserved := f.reserved - n,
                    data := f.data.map (·.drop (64 * n)) } ::
        takeEntries 0 r h ring
    else f :: takeEntries n r h ring

/-- Entries read from a ring: they leave its fetches, and CI passes them unless PINNED_READ has moved it already (R180). -/
def consume (s : State) (h : Half) (ring n : Nat) : State :=
  let s1 : State := { s with fetches := takeEntries n s.fetches h ring }
  if s.rd (.host .RING_CFG_PINNED) h ring = 1 then s1
  else s1.wr (.host .RING_STATUS_CI) h (s.rd (.host .RING_STATUS_CI) h ring + n) ring

/-- Index `a` lies before index `b` of a ring. -/
def before16 (a b : Nat) : Bool :=
  let d := (b + 65536 - a) % 65536
  decide (d ≠ 0 ∧ d ≤ 32768)

/-- MT of the doorbell that covered the `n` entries of a ring from `seq` on: the first accepted one with a PI above them (R357). -/
def doorbellOf (s : State) (h : Half) (ring seq n : Nat) : Nat :=
  ((s.doorbells.find? fun d => d.half == h && d.ring == ring && before16 ((seq + n - 1) % 65536) d.pi).map (·.mt)).getD (s.mt h)

/-- Doorbells whose entries have all been read are forgotten. -/
def readDoorbells (s : State) (h : Half) (ring seq n : Nat) : State :=
  { s with doorbells := s.doorbells.filter fun d => !(d.half == h && d.ring == ring) || before16 ((seq + n) % 65536) d.pi }

/-- A new chain as read. -/
def newChain (s : State) (h : Half) (ring seq : Nat) (head : List Byte) (exts : List (List Byte)) (reserved : Nat) : Chain :=
  { half := h, ring := ring, seq := seq, readNo := s.readNo, head := head, exts := exts, stage := .waiting,
    reserved := reserved, status := ST_OK, detail := startDetail head exts, ctx := none, cancelled := false, done := false, late := false,
    progress := 0, snap := [], readMt := s.mt h, admitMt := 0, wdtFired := false, fails := [], silent := false,
    gateWait := false, queueNo := 0, cores := [], sigOk := true, ofReq := true, listFail := none, delivered := [],
    entries := [], run := [], work := 0, stop := false, checked := false, blocks := [], kept := [], tree := [], rowPos := [],
    items := [], ringPages := [], ringWhole := [], ringKb := [], ringStep := 0, ringTx := 0, ringRx := 0, ringAck := 0, held := [],
    dbMt := doorbellOf s h ring seq (1 + exts.length), urgSeen := false, table := [], stepMet := 0, gen := none }

/-- A chain joins the half's chains, with its records reserved (R163); the waits of a GEN_STEP's steps are evaluated (R195). -/
def addChain (s : State) (c : Chain) : State :=
  let s1 : State := { readDoorbells s c.half c.ring c.seq (1 + c.exts.length) with chains := s.chains ++ [{ c with stepMet := c.stepsDue s }], readNo := s.readNo + 1 }
  let s2 := s1.wr (.host .CQ_RESERVED) c.half (s.rd (.host .CQ_RESERVED) c.half c.ring + c.reserved) c.ring
  logSched (bumpPart (bump s2 c.half 3 2 1) c.half (ringFn c.ring) 1 1) c.half c.ring c.seq 0 (hdClass c.head) 0 0

/-- A chain refused: it completes at once, with DETAIL naming the block and offset (R181, R182). -/
def addRefused (s : State) (c : Chain) (r : Refused) (reached : Bool) : State :=
  let c1 := { c with reserved := 1, done := true, status := r.1, detail := r.2.1 * 256 + r.2.2 }
  let s1 := addChain s { c1 with sigOk := reached, ofReq := false }
  logSched (bumpPart s1 c.half (ringFn c.ring) 4 1) c.half c.ring c.seq 1 (hdClass c.head) r.1 0

/-- A refused chain's counter has passed check 7: the failing check is 7 or later and SIG_EV is owned (R183). -/
def sigPassed (s : State) (h : Half) (ring : Nat) (head : List Byte) (exts : List (List Byte)) : Bool :=
  match opRow (hdOpcode head) with
  | none => false
  | some row =>
    let fn := ringFn ring
    (firstRefused [check2 row (sqSize s h ring) head exts, check3 head exts, check4 s h ring head, check5 s h fn head,
      check6 s h fn row head]).isNone && sigEvOk s h fn head

/-- AUX of an ALLOC breaks Table 9.6, or asks for a rotation that the header's ROPE_BASE does not allow (Table 9.3). -/
def allocAuxBad (m head : List Byte) : Bool :=
  let aux := fieldAt head 0x30 8
  let pitch := bitsAt aux 0 32
  let fmt := bitsAt aux 32 4
  let n := if fieldAt head 0x1C 2 = 0xFFFF then mapNKV m else max 1 (bitsAt aux 40 8)
  let row := 16 * bitsAt aux 38 1 + 2 * n * mapDim m * kvElem fmt
  bitsAt aux 48 16 != 0 || aux.testBit 39 || aux.testBit 37 ||
    (if fieldAt head 0x28 8 = 0 then pitch != 0
    else (fmt != 4 && fmt != mapFmt m) || pitch % 16 != 0 || decide (pitch < row) ||
      (aux.testBit 36 && (notFinite (mapRopeBase m) || atMostOne (mapRopeBase m))))

/-- Check 10's ranges of a chain that the page map's header bounds (R15, R297, R426, Table 19.5). The first head of a group's problems is
its entry's (Table 5.10). -/
def mapBroken (s : State) (head : List Byte) (exts : List (List Byte)) : List Broken :=
  match s.request (hdRequest head) with
  | none => []
  | some r =>
    let m := r.header
    let op := hdOpcode head
    if hdReqV head = false then []
    else if op = opKV_PAGE then
      let sub := fieldAt head 0x18 1
      let l := fieldAt head 0x1A 2
      let g := fieldAt head 0x1C 2
      let n := max 1 (bitsAt (fieldAt head 0x30 8) 40 8)
      [(0x1A, l != 0xFFFF && decide (mapNL m ≤ l)), (0x1C, g != 0xFFFF && decide (mapNKV m < g + n)),
        (0x20, sub != 7 && sub != 8 && decide (mapNP m * 64 < fieldAt head 0x20 4 + fieldAt head 0x24 4)),
        (0x30, sub == 0 && allocAuxBad m head)]
    else if op = opSHIP then
      [(0x1A, decide (mapNL m < fieldAt head 0x1A 2 + fieldAt head 0x1C 2)),
        (0x24, decide (mapNP m * 64 < fieldAt head 0x24 4 + fieldAt head 0x28 4))]
    else if op = opATTN ∨ op = opATTN_RING ∨ op = opVERIFY then
      let g := if exts.any fun x => extKind x == kGROUP then 0 else fieldAt head 0x3C 2
      [(0x38, decide (mapNL m ≤ fieldAt head 0x38 2)), (0x3C, decide (mapNKV m ≤ g)), (0x3E, decide (mapNKV m < g + fieldAt head 0x3E 2))]
    else []

/-- The page map of a REQ_OPEN checked: its place, the fence, the header, and GUEST_SLOTS reserved (R294, R489). The map must lie in the
partition's own range, where it may be written: a shared range is no place for it (§15.4 "At the edges"). -/
def openMap (s : State) (c : Chain) : Nat × State × List Byte :=
  let map := fieldAt c.head 0x18 8
  let fn := ringFn c.ring
  let w := engine c.half fn
  let inStack (len : Nat) : Bool :=
    decide (hbmBase c.half ≤ map ∧ map + len ≤ hbmBase c.half + hbmSize) && stackOk s c.half
  let outside (len : Nat) : Bool :=
    !(overlaps map len (s.rd (.kv .KV_SLOT_BASE) c.half) (s.rd (.kv .KV_SLOT_CFG_COUNT) c.half * 0x4000))
  if inStack 128 = false ∨ outside 128 = false then (ST_KV_MAP, s, [])
  else if accessStatus s w true map 128 ≠ ST_OK then
    let st := accessStatus s w true map 128
    (st, recordRefusal s w false map 128 st, [])
  else
    let r := readAt s w map 128
    if r.1 ≠ ST_OK then (r.1, r.2.1, [])
    else
      let m := r.2.2
      if headerOk m = false ∨ inStack (mapSize m) = false ∨ outside (mapSize m) = false then (ST_KV_MAP, r.2.1, [])
      else
        let st := accessStatus s w true map (mapSize m)
        if st ≠ ST_OK then (st, recordRefusal r.2.1 w false map (mapSize m) st, [])
        else match reserveGuests r.2.1 c.half fn (mapGuest m) with
          | some t => (ST_OK, t, m)
          | none => (ST_KV_NOSLOT, r.2.1.inc (.kv .KV_NOSLOT_CNT) c.half 1, [])

/-- A request made OPEN and opening by its REQ_OPEN (R202, R329). -/
def newRequest (s : State) (c : Chain) (m : List Byte) : Request :=
  { half := c.half, num := hdRequest c.head, closing := false, ring := c.ring, seq := c.seq, tag := hdTag c.head,
    admitted := false, pageMap := fieldAt c.head 0x18 8, tokens := fieldAt c.head 0x20 4, plan := fieldAt c.head 0x24 2,
    adapter := fieldAt c.head 0x26 2, maxNew := fieldAt c.head 0x28 4, closeNo := 0, devStatus := none, firstBad := none,
    silent := false, charged := 0, openMt := s.mt c.half, paused := false, cancelled := false, outputs := 0,
    stopped := false, header := m, guestFree := mapGuest m, nodes := [], touched := [], pausedPages := [] }

/-- REQ_OPEN as it is read: the number becomes OPEN, or the chain is refused and the number stays FREE (R202, R294). -/
def openRequest (s : State) (c : Chain) : State :=
  let r := openMap s c
  if r.1 ≠ ST_OK then addRefused r.2.1 c (r.1, 0, 0x18) true
  else
    let s1 := addChain r.2.1 c
    refreshReqCount { s1 with requests := s1.requests ++ [newRequest s c r.2.2] } c.half

/-- A SHIP of a request, read before its close, is still to queue its pages. -/
def shipsDue (s : State) (r : Request) : Bool :=
  s.chains.any fun c => c.requestNum == some r.num && hdOpcode c.head == opSHIP && !c.checked && !c.done && decide (c.readNo < r.closeNo)

/-- END queued on every OPEN stream of a request, behind the pages of every SHIP read before the close (R445). -/
def endStreams (s : State) (h : Half) (num : Nat) : State :=
  if (s.request num).any (shipsDue s) then s
  else showStreams { s with streams := s.streams.map fun x =>
    if x.half = h ∧ x.request = num ∧ x.state = 0 then { x with state := 1, endQueued := true } else x }

/-- A SHIP has queued its pages, or will not: the END that waited for it is queued on the streams of a closing request. -/
def endsNow (s : State) (c : Chain) : State :=
  if hdOpcode c.head = opSHIP ∧ (s.request (hdRequest c.head)).any (·.closing) = true then endStreams s c.half (hdRequest c.head) else s

/-- REQ_CLOSE as it is read: the number becomes CLOSING and END is queued on its streams (R202, R445). -/
def closeAtRead (s : State) (c : Chain) : State :=
  endStreams (setRequest (addChain s c) (hdRequest c.head) fun r => { r with closing := true, closeNo := c.readNo }) c.half
    (hdRequest c.head)

/-- The snapshot of a BARRIER: each ring of its mask with its accepted PI; its own ring with its own index; a
DISABLED ring has nothing that it covers (R188). -/
def barrierSnap (s : State) (c : Chain) : List (Nat × Nat) :=
  let rings := ((List.range 8).filter fun k => (fieldAt c.head 0x18 1).testBit k).map (fnRing (ringFn c.ring))
  (rings.filter fun r => r == c.ring || ringSt s c.half r != 0).map fun r =>
    (r, if r = c.ring then c.seq else s.rd (.host .RING_STATUS_PI) c.half r)

/-- A chain that has passed its checks begins its wait, or is accepted (R195, R200). -/
def beginWait (s : State) (readNo : Nat) : State :=
  match s.chains.find? fun c => c.readNo == readNo with
  | none => s
  | some c =>
    if hdWaitEn c.head ∧ waitMet (s.rd (.desc .EVC_VAL) c.half (hdWaitEv c.head)) (hdWaitVal c.head) = false then s
    else accept s c

/-- A chain read from a ring: checked, refused, or taken in (R181). -/
def readChain (s : State) (c : Chain) : State :=
  match chainChecks s c.half c.ring c.head c.exts (mapBroken s c.head c.exts) with
  | some r => addRefused s c r (sigPassed s c.half c.ring c.head c.exts)
  | none =>
    let s1 := if hdOpcode c.head = opREQ_OPEN then openRequest s c
      else if hdOpcode c.head = opREQ_CLOSE then closeAtRead s c
      else addChain s { c with snap := barrierSnap s c }
    let done := s1.chains.any fun d => d.readNo == c.readNo && d.done
    if done then s1 else beginWait s1 c.readNo

/-- The status of a chain read from a ring that is stopped, or in Lowland mode (R155, R123, R487); ST_FENCED in a partition step (R514). -/
def unrunStatus (s : State) (h : Half) (ring : Nat) : Option Nat :=
  if ringSt s h ring = 2 then
    some (if ringFn ring ≠ pf ∧ (s.rd (.sec .PART_CTL_STATE) h (ringFn ring) = 2 ∨ partStepping s h ring = true) then ST_FENCED
      else ST_CANCELLED)
  else if s.lowland h then some ST_LOWLAND else none

/-- A chain that is not run and not checked: the ring's function must own its counter for its signal (R194), and its request takes its
status only where check 6 would have passed; an unrun REQ_OPEN opens none (R204). -/
def unrunChain (s : State) (c : Chain) (status : Nat) : Chain :=
  let fn := ringFn c.ring
  let ok := match opRow (hdOpcode c.head) with
    | some row => (check6 s c.half fn row c.head).isNone && row.code != opREQ_OPEN
    | none => false
  { c with reserved := 1, done := true, status := status, sigOk := sigEvOk s c.half fn c.head, ofReq := ok }

/-- CHAIN_READ (R180, R181, R163): the scheduler reads the next whole chain that has landed of a ring. On a ring that is STOPPING, a
chain of which only some entries have landed is dropped without a record: it was not fetched whole (DESIGN CHOICE, log entry 61). -/
def execChainRead (h : Half) (ring : Nat) (s : State) : Res :=
  let data := landedBytes s h ring
  let head := data.take 64
  let n := chainLen head (sqSize s h ring)
  let seq := match landedOf s h ring with
    | f :: _ => f.first
    | [] => 0
  if data.length < 64 then .next s
  else if data.length < 64 * n then
    if ringSt s h ring = 2 then .next (refreshFetched (dropFetches s h ring) h ring) else .next s
  else
    let held := heldFor s h ring
    let need := if (unrunStatus s h ring).isSome then 1 else reserveOf s h ring head
    if held < need ∧ creditFor s h ring (need - held) = false then .next (stallBit s h ring true)
    else
      let exts := (List.range (n - 1)).map fun i => (data.drop (64 * (i + 1))).take 64
      let s1 := stallBit (consume (s.wr (.host .CQ_RESERVED) h (s.rd (.host .CQ_RESERVED) h ring - held) ring) h ring n) h ring false
      let c := newChain s h ring seq head exts need
      match unrunStatus s h ring with
      | some st => .next (refreshFetched (addChain s1 (unrunChain s c st)) h ring)
      | none => .next (refreshFetched (readChain s1 c) h ring)

/-! ### Completion (R196, R313) -/

/-- The scores of the entries that received mass during a chain updated (R313). -/
def updateScores (s : State) (c : Chain) : State :=
  match c.requestNum with
  | none => s
  | some num =>
    match s.request num with
    | none => s
    | some r =>
      c.delivered.foldl (fun t a =>
        let e := entryAt t a
        if e.own ∧ ¬ e.shared ∧ (e.state = enHBM ∨ e.state = enSPILLING) then
          setEntryAt t a { e with score := min 0xFFFF (e.score * mapDecay r.header / 65536 + e.pend), pend := 0,
                                  age := min 255 (e.age + 1) }
        else t) s

/-- A finished chain signals (R183, R196). -/
def signals (c : Chain) (status : Nat) : Bool :=
  hdSigEn c.head && c.sigOk && (status == ST_OK || status == ST_LATE || status / 4096 == 9 || hdSigOnErr c.head)

/-- The kind 0 record of a chain (Table 4.6). -/
def chainRecord (s : State) (c : Chain) (status : Nat) : CqRec :=
  { tag := hdTag c.head, mt := s.mt c.half, status := status, seq := c.seq,
    request := if hdReqV c.head then 0x8000 + hdRequest c.head else 0,
    context := match c.ctx with
      | some x => 0x8000 + x
      | none => 0,
    kind := 0, detail := c.detail }

/-- The counts of a party's completed chain (Table 17.2). -/
def countDone (s : State) (c : Chain) (status : Nat) : State :=
  let fn := ringFn c.ring
  let s1 := if status = ST_OK ∨ status = ST_LATE then bumpPart s c.half fn 3 1 else s
  let s2 := if status = ST_CANCELLED ∨ status = ST_LATE_DROPPED then bumpPart s1 c.half fn 5 1 else s1
  if status = ST_LATE then bumpPart s2 c.half fn 6 1 else s2

/-- The first status of a request's chains that R204 counts, in order of writing. -/
def noteBad (s : State) (c : Chain) (status : Nat) : State :=
  match (if c.ofReq then c.requestNum else none) with
  | some num =>
    if status = ST_OK ∨ status = ST_LATE ∨ status / 4096 = 9 then s
    else setRequest s num fun r => if r.firstBad.isNone then { r with firstBad := some status } else r
  | none => s

/-! ### The final record -/

/-- An adapter load that something else has ended leaves its slot EMPTY (R343). -/
def emptyLoad (s : State) (c : Chain) : State :=
  let i := fieldAt c.head 0x2C 2
  if hdOpcode c.head = opADAPTER_LOAD ∧ c.stage = .admitted ∧ s.rd (.sched .ADP_SLOT_STATE) c.half i = 1 then
    s.wr (.sched .ADP_SLOT_STATE) c.half 0 i
  else s

/-- A chain leaves: its contexts leave their slots, its cores are free, and the guest pages of a ring are released. -/
def removeChain (s : State) (c : Chain) : State :=
  let s0 := dropCtxs s fun x => x.chainNo == some c.readNo && !x.standing
  let s1 := dropGuests ((ctxsOf s0 c.readNo).foldl standAgain s0) c.half (hdRequest c.head) (fieldAt c.head 0x38 2) c.ringPages
  emptyLoad { s1 with chains := s1.chains.filter fun d => d.readNo ≠ c.readNo } c

/-- A record of kind 3 (R349), written unless no host write may be issued for the chain; its reserve is used. -/
def genRecord (s : State) (c : Chain) (status detail : Nat) : State :=
  let s1 := (setChain s c fun d => { d with reserved := d.reserved - 1 }).wr (.host .CQ_RESERVED) c.half
    (s.rd (.host .CQ_RESERVED) c.half c.ring - 1) c.ring
  if c.silent then s1
  else writeRecord s1 c.half c.ring ⟨hdTag c.head, s.mt c.half, status, c.seq, 0x8000 + hdRequest c.head, 0, 3, detail⟩ false

/-- The record of a step that something else has ended, without outputs, before the chain's own (R349). -/
def closeStep (s : State) (c : Chain) : State × Chain :=
  match c.gen with
  | some g => (genRecord s c c.finalStatus (c.progress * 2 ^ 24 + min 4095 g.stops), { c with reserved := c.reserved - 1, gen := none })
  | none => (s, c)

/-- A SHIP that something else has ended queues no page from its first waiting one on; the pages queued are its DETAIL, and are counted
(R429, Table 17.2). -/
def closeShip (s : State) (c : Chain) : State × Chain :=
  if hdOpcode c.head ≠ opSHIP ∨ c.checked = false then (s, c)
  else
    let q := match streamAt s c.half c.work with
      | some x =>
        (match x.pages.find? fun (p : ShipPage) => p.ship == c.readNo && p.waiting with
        | some p => cutPages s c x p.no
        | none => (s, 0))
      | none => (s, 0)
    let n := c.progress - q.2
    (bumpPart q.1 c.half (ringFn c.ring) 9 n, { c with progress := n, detail := n })

/-- The final record written in the ring's reserve, unless no host write may be issued for the chain (R162, R169). -/
def finalRecord (s : State) (c : Chain) (status : Nat) : State :=
  let keep := if hdOpcode c.head = opREQ_OPEN ∧ c.reserved = 2 then 1 else c.reserved
  let s1 := s.wr (.host .CQ_RESERVED) c.half (s.rd (.host .CQ_RESERVED) c.half c.ring - keep) c.ring
  if c.silent then s1 else writeRecord s1 c.half c.ring (chainRecord s c status) (hdIrqNow c.head)

/-- The request of a chain that has received ST_HOST_LINK_DOWN closed, with no host write on its behalf any more (R170). -/
def closeLinkLost (s : State) (c : Chain) : State :=
  if c.finalStatus = ST_HOST_LINK_DOWN ∨ c.fails.any (fun f => f.2 == ST_HOST_LINK_DOWN) = true then
    match (if c.ofReq then c.requestNum else none) with
    | some num => closeRequest s num ST_HOST_LINK_DOWN true
    | none => s
  else s

/-- A chain completed: an ALLOC cut short is closed (R303), a generation step (R349) and a SHIP (R429), then scores, signal, record,
counts, and its request's status (R196, R204,
R313). -/
def finishChain (s0 : State) (c0 : Chain) : State :=
  let a := closeAlloc s0 c0
  let b := closeStep a.1 a.2
  let q := closeShip b.1 b.2
  let c := q.2
  let status := c.finalStatus
  let s1 := updateScores q.1 c
  let s2 := if signals c status then evcAdd s1 c.half (hdSigEv c.head) (hdSigInc c.head) else s1
  let s3 := noteBad (finalRecord s2 c status) c status
  let s4 := countDone s3 c status
  let ctx := c.ctx.getD 0
  let s5 := logSched s4 c.half c.ring c.seq 4 (hdClass c.head) status ctx
  let s6 := endsNow (relist (removeChain s5 c) c.half) c
  unstall (refreshDraining (refreshFetched s6 c.half c.ring) c.half (ringFn c.ring)) c.half c.ring

/-- A chain completed, after its request has been closed where it lost its link (R170). -/
def completeChain (s : State) (c : Chain) : State :=
  let s1 := closeLinkLost s c
  finishChain s1 ((s1.chains.find? fun d => d.readNo == c.readNo).getD c)

/-- CHAIN_COMPLETE (R196): a chain whose work has ended signals its counter and writes its final record. -/
def execChainComplete (h : Half) (ring seq : Nat) (s : State) : Res :=
  match s.chain h ring seq with
  | some c => if c.done then .next (completeChain s c) else .next s
  | none => .next s

/-! ### Event counters and allotments (R197, R205) -/

/-- The counter that a function's EVC_VAL or EVC_ADD offset names (Table 5.12): the PF names every counter of the half, a
VF those of its range. -/
def counterOf (s : State) (h : Half) (fn j : Nat) : Option Nat :=
  if fn = pf then (if j < 4096 then some j else none)
  else if j < s.rd (.desc .EVC_ALLOC_COUNT) h fn ∧ j < 64 then some (s.rd (.desc .EVC_ALLOC_BASE) h fn + j)
  else none

/-- EVC_VAL_WRITE (R197). -/
def execEvcValWrite (h : Half) (fn j v : Nat) (s : State) : Res :=
  match counterOf s h fn j with
  | some c => .next (evcSet s h c v)
  | none => .next s

/-- EVC_ADD_WRITE (R197). -/
def execEvcAddWrite (h : Half) (fn j v : Nat) (s : State) : Res :=
  match counterOf s h fn j with
  | some c => .next (evcAdd s h c v)
  | none => .next s

/-- The half's RWL fields are locked (R143). -/
def locked (s : State) (h : Half) : Bool := s.rd (.host .SETUP_LOCK_LOCK) h == 1

/-- Every ring of a function is DISABLED. -/
def ringsOff (s : State) (h : Half) (fn : Nat) : Bool := (ringsOf fn).all fun r => ringSt s h r == 0

/-- Two ranges share a number. -/
def rangesMeet (a n b m : Nat) : Bool := decide (n ≠ 0 ∧ m ≠ 0) && overlaps a n b m

/-- An allotment's outcome (R205, R342): refused with a status, or applied. -/
def allotStatus (s : State) (h : Half) (p base count total cap : Nat) (bf cf : Fld) : Nat :=
  if ringsOff s h p = false then ST_RING_BUSY
  else if total < base + count ∨ cap < count ∨
      ((List.range 64).any fun q => q != p && rangesMeet base count (s.rd bf h q) (s.rd cf h q)) = true then ST_ALLOC_CONFIG
  else ST_OK

/-- EVC_ALLOC_WRITE (R205). -/
def execEvcAllocWrite (h : Half) (p base count : Nat) (s : State) : Res :=
  if 64 ≤ p ∨ locked s h = true then .next s
  else
    let st := allotStatus s h p base count 4096 64 (.desc .EVC_ALLOC_BASE) (.desc .EVC_ALLOC_COUNT)
    let s1 := s.wr (.desc .ALLOC_STATUS_LAST_STATUS) h st
    if st = ST_OK then .next ((s1.wr (.desc .EVC_ALLOC_BASE) h base p).wr (.desc .EVC_ALLOC_COUNT) h count p) else .next s1

/-- REQ_ALLOC_WRITE (R205). -/
def execReqAllocWrite (h : Half) (p base count : Nat) (s : State) : Res :=
  if 64 ≤ p ∨ locked s h = true then .next s
  else
    let st := allotStatus s h p base count 4096 4096 (.desc .REQ_ALLOC_BASE) (.desc .REQ_ALLOC_COUNT)
    let s1 := s.wr (.desc .ALLOC_STATUS_LAST_STATUS) h st
    if st = ST_OK then .next ((s1.wr (.desc .REQ_ALLOC_BASE) h base p).wr (.desc .REQ_ALLOC_COUNT) h count p) else .next s1

/-! ### Synchronization opcodes (R188) -/

/-- The effect of a chain's opcode, where the chain of a ring and SEQ is admitted, runs, and carries that opcode. -/
def runChain (s : State) (h : Half) (ring seq op : Nat) (f : Chain → State) : Res :=
  match s.chain h ring seq with
  | some c => if c.running ∧ hdOpcode c.head = op then .next (f c) else .next s
  | none => .next s

/-- The hub engine that serves a chain by R338: 1 copies, 2 egress, 3 Valley traffic; 0 for any other chain. Collectives order
themselves (R397). -/
def hubEngine (b : List Byte) : Nat :=
  if hdOpcode b = opCOPY ∨ hdOpcode b = opADAPTER_LOAD then 1
  else if hdOpcode b = opSHIP then 2
  else if hdOpcode b = opKV_PAGE ∧ (fieldAt b 0x18 1 = 4 ∨ fieldAt b 0x18 1 = 5) then 3
  else 0

/-- No other chain comes before a chain at its hub engine: one that has not begun goes by class, then by admission (R338). -/
def servedNext (s : State) (c : Chain) : Bool :=
  c.checked || !(s.chains.any fun d => d.half == c.half && d.running && !d.checked && hubEngine d.head == hubEngine c.head &&
    lexLt [hdClass d.head, d.queueNo, d.readNo] [hdClass c.head, c.queueNo, c.readNo])

/-- The effect of a hub engine's opcode, where the chain is the one that its engine serves next or has begun (R338). -/
def runHub (s : State) (h : Half) (ring seq op : Nat) (f : Chain → State) : Res :=
  runChain s h ring seq op fun c => if servedNext s c then f c else s

/-- A chain ended with a status. -/
def endChain (s : State) (c : Chain) (status : Nat) : State := setChain s c fun d => d.finish status

/-- A chain ended with a status and a DETAIL. -/
def endDetail (s : State) (c : Chain) (status detail : Nat) : State :=
  setChain s c fun d => { d.finish status with detail := detail }

/-- MARKER (R188, R189): WR_VAL is written, if WR_ADDR is not 0; VALUE goes to DETAIL. A cancelled chain's host write is
not issued (R352). -/
def execMarker (h : Half) (ring seq : Nat) (s : State) : Res :=
  runChain s h ring seq opMARKER fun c =>
    let a := fieldAt c.head 0x20 8
    let v := fieldAt c.head 0x18 4
    if a = 0 ∨ (c.cancelled ∧ isHost a = true) then endDetail s c ST_OK v
    else
      let r := writeAt s (engine h (ringFn ring)) a (leBytes 8 (fieldAt c.head 0x28 8))
      endDetail r.2 c r.1 v

/-- The chains that a FENCE covers and that have not written their final record (R188). -/
def fenceOpen (s : State) (c : Chain) : Bool :=
  s.chains.any fun d => d.half == c.half && decide (d.readNo < c.readNo) &&
    (if fieldAt c.head 0x18 1 = 0 then d.ring == c.ring
     else ringFn d.ring == ringFn c.ring && d.requestNum == c.requestNum)

/-- FENCE (R188). -/
def execFence (h : Half) (ring seq : Nat) (s : State) : Res :=
  runChain s h ring seq opFENCE fun c => if fenceOpen s c then s else endChain s c ST_OK

/-- A BARRIER's ring still owes a chain below its snapshot (R188): one unread on an ACTIVE ring, one fetched and not taken up, or one
without its final record. -/
def barrierOpen (s : State) (c : Chain) (p : Nat × Nat) : Bool :=
  let unread := before16 (s.rd (.host .RING_STATUS_CI) c.half p.1) p.2
  (p.1 != c.ring && (ringSt s c.half p.1 == 1) && unread) ||
    (s.fetches.any fun f => f.half == c.half && f.ring == p.1 && before16 f.first p.2) ||
    s.chains.any fun d => d.half == c.half && d.ring == p.1 && d.readNo != c.readNo && before16 d.seq p.2

/-- BARRIER (R188). -/
def execBarrier (h : Half) (ring seq : Nat) (s : State) : Res :=
  runChain s h ring seq opBARRIER fun c => if c.snap.any (barrierOpen s c) then s else endChain s c ST_OK

/-- TIME_WAIT (R478): it completes once released, with ST_OK, or with ST_LATE when it was judged late. -/
def execTimeWait (h : Half) (ring seq : Nat) (s : State) : Res :=
  runChain s h ring seq opTIME_WAIT fun c => endChain s c ST_OK

/-- EVENT_OP (R188, R197): its counter is added to or set. -/
def execEventOp (h : Half) (ring seq : Nat) (s : State) : Res :=
  runChain s h ring seq opEVENT_OP fun c =>
    let k := fieldAt c.head 0x18 2 % 4096
    let v := fieldAt c.head 0x1C 4
    endChain (if fieldAt c.head 0x1A 1 = 1 then evcSet s h k v else evcAdd s h k v) c ST_OK

/-! ### Cancellation (R350 to R353) -/

/-- The party a CANCEL acts for: the ring's own, or from an operator ring partition PART of the package, which is none of this half's
when bit 6 names the other one (R350; log entry 61). -/
def cancelParty (c : Chain) : Option Nat :=
  let part := fieldAt c.head 0x1A 1
  if ringFn c.ring = pf ∧ part.testBit 7 = true then
    if part % 128 / 64 = c.half.num then some (part % 64) else none
  else some (ringFn c.ring)

/-- The requests a CANCEL names that are not FREE and not yet cancelled (R350). -/
def cancelTargets (s : State) (c : Chain) : List Request :=
  s.requests.filter fun r => r.half == c.half && !r.cancelled &&
    (if fieldAt c.head 0x1B 1 = 0 then r.num == fieldAt c.head 0x18 2 % 8192 else cancelParty c == some r.fn)

/-- A CANCEL begun: its requests cancelled, with the chains that it completes noted (R351, R353). -/
def startCancel (s : State) (c : Chain) : State :=
  let targets := cancelTargets s c
  let unrun := (targets.map fun r => unrunOf s r.num).flatten
  let s1 := targets.foldl (fun t r => closeRequest t r.num ST_CANCELLED false) s
  setChain s1 c fun d => { d with progress := 1, snap := unrun.map fun x => (x.readNo, 0),
                                  detail := min 0xFFFF unrun.length * 65536 + min 0xFFFF targets.length }

/-- A CANCEL that has begun is over once every chain it completed has its record (R353). -/
def endCancel (s : State) (c : Chain) : State :=
  if s.chains.any fun d => c.snap.contains (d.readNo, 0) then s else endChain s c ST_OK

/-- CANCEL (R350 to R353): it takes effect once read with its wait and release over, whatever stands before it in its
ring; its record waits for those of the chains it completed. -/
def execCancel (h : Half) (ring seq : Nat) (s : State) : Res :=
  match s.chain h ring seq with
  | none => .next s
  | some c =>
    if hdOpcode c.head ≠ opCANCEL ∨ c.done = true ∨ c.stage = .waiting ∨ c.stage = .timed then .next s
    else if c.progress = 0 then
      let s1 := startCancel s c
      match s1.chain h ring seq with
      | some d => .next (endCancel s1 d)
      | none => .next s1
    else .next (endCancel s c)

/-! ### Requests (R202 to R204, R329) -/

/-- REQ_OPEN (R202, R341): the number is OPEN since the chain was read, with its page map checked and its close record
reserved (`openRequest`), and charged since its admission; the chain ends with the status of its budget gate. -/
def execReqOpen (h : Half) (ring seq : Nat) (s : State) : Res :=
  runChain s h ring seq opREQ_OPEN fun c =>
    endChain (setRequest s (hdRequest c.head) fun r => { r with admitted := true }) c c.status

/-- REQ_CLOSE (R202): the number, CLOSING since the chain was read, has END queued on its streams; ST_OK. -/
def execReqClose (h : Half) (ring seq : Nat) (s : State) : Res :=
  runChain s h ring seq opREQ_CLOSE fun c => endChain (endStreams s h (hdRequest c.head)) c ST_OK

/-- A CLOSING request is over: every chain read before its close has its record, and its streams have ended (R203). -/
def requestOver (s : State) (r : Request) : Bool :=
  r.closing && !(s.chains.any fun c => c.requestNum == some r.num && decide (c.readNo < r.closeNo)) &&
    !(s.streams.any fun x => x.half == r.half && x.request == r.num)

/-- The close record of a request (Table 5.11). -/
def closeRecord (s : State) (r : Request) : CqRec :=
  { tag := r.tag, mt := s.mt r.half,
    status := match r.devStatus with
      | some x => x
      | none => r.firstBad.getD ST_OK,
    seq := r.seq, request := 0x8000 + r.num, context := 0, kind := 2, detail := r.charged }

/-- A request becomes FREE: its close record is written and its pages are released (R203, R204, R296). -/
def freeRequest (s : State) (r : Request) : State :=
  let h := r.half
  let s1 := s.wr (.host .CQ_RESERVED) h (s.rd (.host .CQ_RESERVED) h r.ring - 1) r.ring
  let s2 := if r.silent then s1 else writeRecord s1 h r.ring (closeRecord s r) false
  let s3 := if r.admitted then histSample s2 h 8 r.fn ((s.mt h - r.openMt : Nat) : Int) else s2
  let s4 := releasePages s3 r
  refreshDraining (refreshReqCount { s4 with requests := s4.requests.filter fun q => q.num ≠ r.num } h) h r.fn

/-- REQUEST_FREE (R203). -/
def execRequestFree (h : Half) (num : Nat) (s : State) : Res :=
  match s.request num with
  | none => .next s
  | some r => if r.half = h ∧ requestOver s r = true then .next (freeRequest s r) else .next s

end Sys2Proof.Machine
end

