-- ==== Sys2Proof/Machine/Fabric.lean ====
section
/-!
DEFINITION. Machine/Fabric.lean: fabric links, packets and routing (§11): training and port states (R361, R362, R381 to R383),
flits, replay and credits (R363 to R369), routing and drops (R371 to R376), management packets (R377, R378), and the
registers of the chapter (R367, R372, R375).
-/

namespace Sys2Proof.Machine

/-! ### Links -/

/-- The link layer of a port that has not been set up. -/
def Link.fresh (h : Half) (n : Nat) : Link :=
  { half := h, port := n, txSeq := 0, replay := [], resendAt := none, rxAck := 4095, nak := false,
    sent := List.replicate 8 0, size := List.replicate 8 0, credit := List.replicate 8 0, freed := List.replicate 8 0,
    rot := 0, outq := [], cw := 0, cwHalf := false, cwMt := 0, cwFt := 0, rxMt := 0, rxFt := 0, ctl := none, ctlMt := 0, left0 := 0,
      left1 := 0, sub0 := 1, sub1 := 1, tokens := 0, tokenMt := 0, exhRun := 0,
    progress := true, relock := false, degrading := false, txMoved := false,
    trainStep := 0, trainMt := 0 }

/-- The link layer of a port. -/
def linkOf (s : State) (h : Half) (n : Nat) : Link :=
  (s.links.find? fun l => l.half == h && l.port == n).getD (Link.fresh h n)

/-- The link layer of a port replaced. -/
def putLink (s : State) (l : Link) : State :=
  { s with links := (s.links.filter fun k => !(k.half == l.half && k.port == l.port)) ++ [l] }

/-- PORT_STATUS.STATE: 0 OFF, 1 TRAINING, 2 UP, 3 DEGRADED, 4 MISWIRED, 5 DOWN. -/
def portSt (s : State) (h : Half) (n : Nat) : Nat := s.rd (.fab .PORT_STATUS_STATE) h n

/-- The port carries packets. -/
def portOpen (s : State) (h : Half) (n : Nat) : Bool := portSt s h n == 2 || portSt s h n == 3

/-- Every port of the half is OFF or DOWN. -/
def portsQuiet (s : State) (h : Half) : Bool := (List.range 6).all fun n => portSt s h n == 0 || portSt s h n == 5

/-! ### Coordinates and routing (R371 to R375) -/

/-- Coordinate `d` of a node identifier: x in [10:7], y in [6:3], z in [2:0]. -/
def coord (node d : Nat) : Nat := if d = 0 then bitsAt node 7 4 else if d = 1 then bitsAt node 3 4 else bitsAt node 0 3

/-- The size of a dimension. -/
def torusSize (s : State) (h : Half) (d : Nat) : Nat :=
  if d = 0 then s.rd (.fab .FAB_SIZE_SX) h else if d = 1 then s.rd (.fab .FAB_SIZE_SY) h else s.rd (.fab .FAB_SIZE_SZ) h

/-- The node identifier of a half. -/
def myNode (s : State) (h : Half) : Nat :=
  h.num * 2048 + s.rd (.fab .FAB_NODE_X) h * 128 + s.rd (.fab .FAB_NODE_Y) h * 8 + s.rd (.fab .FAB_NODE_Z) h

/-- The direction code of port `n`: 0 unused, 1 X+, 2 X−, 3 Y+, 4 Y−, 5 Z+, 6 Z−. -/
def portDir (s : State) (h : Half) (n : Nat) : Nat := bitsAt (s.rd (.fab .FAB_PORT_DIR) h) (3 * n) 3

/-- The port of a dimension and direction. -/
def portOf (s : State) (h : Half) (d dir : Nat) : Option Nat := (List.range 6).find? fun n => portDir s h n == 2 * d + dir + 1

/-- The route-table entry for a coordinate of a dimension in the bank in use. -/
def routeCode (s : State) (h : Half) (d c : Nat) : Nat :=
  bitsAt (s.rd (.fab .RT) h (s.rd (.fab .RT_SEL_BANK) h * 3 + d)) (2 * c) 2

/-- What routing a packet gives (R373). -/
inductive Route where
  | here
  | port (n : Nat) (p : Packet)
  /-- dropped, with the index of its FAB_DROP count -/
  | drop (k : Nat)
deriving DecidableEq, Repr

/-- The routing step in dimension `d`, once the packet's coordinate differs there. -/
def routeIn (s : State) (h : Half) (d : Nat) (p : Packet) : Route :=
  let code := routeCode s h d (coord p.dst d)
  if d ≠ p.dim ∧ (code = 0 ∨ code = 3) then .drop 3
  else
    let q : Packet := if d ≠ p.dim then { p with dim := d, dir := (if code = 2 then 1 else 0), dlx := 0 } else p
    match portOf s h d q.dir with
    | none => .drop 4
    | some n =>
      if portOpen s h n = false then .drop 2
      else
        let me := coord (myNode s h) d
        let wrap := if q.dir = 0 then decide (me + 1 = torusSize s h d) else decide (me = 0)
        .port n (if wrap then { q with dlx := 1 } else q)

/-- The router's decision (R373). -/
def routePacket (s : State) (h : Half) (p : Packet) : Route :=
  let me := myNode s h
  let from_ := if p.dim = 3 then 0 else p.dim
  match ((List.range 3).filter fun d => decide (from_ ≤ d)).find? fun d => coord p.dst d != coord me d with
  | some d => routeIn s h d p
  | none => .here

/-- A coordinate of a node lies at or above the configured size (R376). -/
def outOfRange (s : State) (h : Half) (node : Nat) : Bool :=
  (List.range 3).any fun d => decide (torusSize s h d ≤ coord node d)

/-- The virtual channel of a packet type (R368, R378). -/
def vcOf (ptype : Nat) : Option Nat :=
  if ptype = 1 then some 0 else if ptype = 2 then some 1 else if ptype = 3 then some 2
  else if (0x10 ≤ ptype ∧ ptype ≤ 0x13) ∨ (0x20 ≤ ptype ∧ ptype ≤ 0x22) then some 3 else none

/-- RINFO of a packet (Table 11.5). -/
def Packet.rinfo (p : Packet) : Nat := p.dim * 32 + p.dir * 16 + p.dlx * 8

/-- The bytes of a packet: its 32-byte header and its payload (Table 11.5). -/
def Packet.bytes (p : Packet) : List Byte :=
  leBytes 2 p.dst ++ leBytes 2 p.src ++ leBytes 1 p.ptype ++ leBytes 1 p.rinfo ++
    leBytes 2 p.payload.length ++ (p.transport ++ zeros 24).take 24 ++ p.payload

/-- The packet that bytes spell. -/
def parsePacket (b : List Byte) : Packet :=
  let r := fieldAt b 5 1
  { dst := fieldAt b 0 2 % 4096, src := fieldAt b 2 2 % 4096, ptype := fieldAt b 4 1, dim := bitsAt r 5 2, dir := bitsAt r 4 1,
    dlx := bitsAt r 3 1, transport := (b.drop 8).take 24, payload := (b.drop 32).take (fieldAt b 6 2),
    port := 6, stampMt := 0, stampFt := 0 }

/-- A drop counted (R376). -/
def countDropped (s : State) (h : Half) (k : Nat) : State := s.inc (.fab .FAB_DROP) h 1 k

/-- A packet put into an output port's queue, on the sub-channel of R374. -/
def queuePacket (s : State) (h : Half) (n vc : Nat) (p : Packet) : State :=
  let l := linkOf s h n
  putLink s { l with outq := l.outq ++ [⟨2 * vc + p.dlx, p.bytes, true, true, false, none, 0⟩] }

/-- A packet delivered to the half's engines. -/
def deliver (s : State) (h : Half) (p : Packet) : State := { s with localPkts := s.localPkts ++ [(h, p)] }

/-- A new packet of a half, not yet in a dimension (R371). -/
def newPacket (s : State) (h : Half) (dst ptype : Nat) (transport payload : List Byte) : Packet :=
  { dst := dst, src := myNode s h, ptype := ptype, dim := 3, dir := 0, dlx := 0, transport := transport, payload := payload,
    port := 6, stampMt := 0, stampFt := 0 }

/-- A packet injected by an engine: its status, and the state after it (R376). -/
def injectPacket (s : State) (h : Half) (p : Packet) : Nat × State :=
  if outOfRange s h p.dst ∨ outOfRange s h p.src then (ST_FAB_RANGE, countDropped s h 0)
  else if p.dst / 2048 ≠ h.num then (ST_FAB_RANGE, countDropped s h 1)
  else match routePacket s h p with
    | .here => (ST_OK, deliver s h p)
    | .port n q => (ST_OK, queuePacket s h n ((vcOf p.ptype).getD 3) q)
    | .drop k => (if k = 2 then ST_PORT_DOWN else ST_FAB_UNREACH, countDropped s h k)

/-- PACKET_INJECT (R376): an engine injects a packet; a failed check counts and nothing is sent. -/
def execPacketInject (h : Half) (dst ptype : Nat) (transport payload : List Byte) (s : State) : Res :=
  if payload.length ≤ 4096 ∧ (vcOf ptype).isSome then
    .next (injectPacket s h (newPacket s h (dst % 4096) ptype transport payload)).2
  else .next s

/-- Slots of a received packet freed in its class (R363). -/
def freeCredits (s : State) (h : Half) (n cls flits : Nat) : State :=
  let l := linkOf s h n
  putLink s { l with freed := l.freed.set cls ((l.freed.getD cls 0 + flits) % 65536) }

/-! ### Packets in the receive buffers (R370, R376, R383) -/

/-- The header of a received packet, with its port and its stamps (R379). -/
def RxPkt.packet (e : RxPkt) : Packet := { parsePacket e.bytes with port := e.port, stampMt := e.stampMt, stampFt := e.stampFt }

/-- What becomes of a received packet: the checks of R376 and R368, then the route. -/
def rxRoute (s : State) (h : Half) (cls : Nat) (p : Packet) : Route :=
  if outOfRange s h p.dst ∨ outOfRange s h p.src then .drop 0
  else if p.dst / 2048 ≠ h.num then .drop 1
  else if vcOf p.ptype ≠ some (cls / 2) then .drop 6
  else routePacket s h p

/-- The bytes of a packet as they leave: RINFO as the router maintains it (R371). -/
def forwardBytes (q : Packet) (bytes : List Byte) : List Byte := bytes.set 5 (BitVec.ofNat 8 q.rinfo)

/-- The first occurrence of an entry replaced, or taken out. -/
def replaceRx : List RxPkt → RxPkt → Option RxPkt → List RxPkt
  | [], _, _ => []
  | x :: r, e, f => if x = e then f.toList ++ r else x :: replaceRx r e f

/-- The packet's entry in the receive buffers replaced, or taken out. -/
def putRx (s : State) (e : RxPkt) (f : Option RxPkt) : State := { s with arrived := replaceRx s.arrived e f }

/-- The packet that still arrives in a class of a port. -/
def openRx (s : State) (h : Half) (n cls : Nat) : Option RxPkt :=
  s.arrived.find? fun e => e.half == h && e.port == n && e.cls == cls && !e.whole

/-- The packet of an output queue that still arrives by a port and class, changed. -/
def mapOut (l : Link) (src : Nat × Nat) (f : OutPkt → OutPkt) : Link :=
  { l with outq := l.outq.map fun o => if o.src = some src ∧ o.whole = false then f o else o }

/-- A flit's payload passed on to the output port its packet was given (R370): it keeps its receive slot until it has left. -/
def passOn (s : State) (e : RxPkt) (m : Nat) (payload : List Byte) (eop : Bool) : State :=
  putLink s (mapOut (linkOf s e.half m) (e.port, e.cls) fun o => { o with bytes := o.bytes ++ payload, whole := eop, held := o.held + 1 })

/-- A packet in reception is ended (R383): what has been passed on ends with an ABORT flit, of one byte with a free value where every byte
has left (log entry 84); what has not is discarded and counted. -/
def endRx (s : State) (e : RxPkt) (count : Option Nat) : State :=
  match e.out with
  | some (.port m) => putLink (drawFree s) (mapOut (linkOf s e.half m) (e.port, e.cls) fun o =>
      let bytes := if o.bytes.isEmpty then [BitVec.ofNat 8 (Config.freeValue s.freeCount)] else o.bytes
      { o with bytes := bytes, whole := true, aborted := true })
  | some .sink => s
  | _ => match count with
    | some k => countDropped s e.half k
    | none => s

/-- A whole packet's bytes delivered to the half's engines. -/
def deliverRx (s : State) (e : RxPkt) : State := deliver s e.half e.packet

/-- PACKET_ROUTE (R370, R373, R376): the oldest packet of a half whose SOP flit has come is routed, whether or not its later flits are
here; those follow it. A packet sent on keeps its receive slots until its flits have left (R370). -/
def execPacketRoute (h : Half) (s : State) : Res :=
  match s.arrived.find? fun e => e.half == h && e.out == none with
  | none => .next s
  | some e =>
    let s1 := freeCredits s h e.port e.cls e.flits
    let rest (o : RxOut) : Option RxPkt := if e.whole then none else some { e with out := some o, flits := 0 }
    match rxRoute s h e.cls e.packet with
    | .here => .next (putRx (if e.whole then deliverRx s1 e else s1) e (rest .here))
    | .port n q =>
      let l := linkOf s h n
      let o : OutPkt := ⟨e.cls / 2 * 2 + q.dlx, forwardBytes q e.bytes, true, e.whole, false, some (e.port, e.cls), e.flits⟩
      .next (putRx (putLink s { l with outq := l.outq ++ [o] }) e (rest (.port n)))
    | .drop k => .next (putRx (countDropped s1 h k) e (rest .sink))

/-- A later flit of a packet in reception (R370): kept until the packet is routed, then passed on, delivered or drained. -/
def flowRx (s : State) (e : RxPkt) (payload : List Byte) (eop : Bool) : State :=
  let s1 := freeCredits s e.half e.port e.cls 1
  let grown : RxPkt := { e with bytes := e.bytes ++ payload }
  let rest (f : RxPkt) : Option RxPkt := if eop then none else some f
  match e.out with
  | none => putRx s e (some { grown with flits := e.flits + 1, whole := eop })
  | some .here => putRx (if eop then deliverRx s1 grown else s1) e (rest grown)
  | some (.port m) => putRx (passOn s e m payload eop) e (rest e)
  | some .sink => putRx s1 e (rest e)

/-- A packet in reception ends early, by an ABORT flit or by an ECC error of the receive buffer; its later flits go into the sink. -/
def abortRx (s : State) (e : RxPkt) (count : Option Nat) (eop : Bool) : State :=
  let s1 := freeCredits (endRx s e count) e.half e.port e.cls (e.flits + 1)
  putRx s1 e (if eop then none else some { e with out := some .sink, bytes := [], flits := 0 })

/-! ### Flits and codewords sent (R360, R363, R364) -/

/-- One bit of the CRC-64 register, kept least significant bit first: the polynomial's coefficients are mirrored with it (R364: only so does
the checksum, stored little-endian, detect every error within 64 consecutive bits; DEDUCED, log entry 85). -/
def crc64Bit (c b : Nat) : Nat := c / 2 ^^^ (if (c + b) % 2 = 1 then 0xC96C5795D7870F42 else 0)

/-- CRC-64 of bytes, each taken least significant bit first, complemented (R364). -/
def crc64 (bs : List Byte) : Nat :=
  bs.foldl (fun c b => (List.range 8).foldl (fun c i => crc64Bit c (bit (b.toNat.testBit i))) c) (2 ^ 64 - 1) ^^^ (2 ^ 64 - 1)

/-- The next SEQ. -/
def seqNext (n : Nat) : Nat := (n + 1) % 4096

/-- The header of any flit a port sends: acknowledgement and one class's credit (R363). -/
def flitBytes (l : Link) (ftype flags seq : Nat) (payload : List Byte) : List Byte :=
  let b := leBytes 1 ftype ++ leBytes 1 flags ++ leBytes 2 seq ++ leBytes 2 (l.rxAck + (if l.nak then 0x8000 else 0)) ++
    leBytes 1 l.rot ++ leBytes 1 0 ++ leBytes 2 (l.freed.getD l.rot 0) ++ leBytes 2 payload.length ++ leBytes 4 0 ++
    payload ++ zeros (296 - payload.length)
  b ++ leBytes 8 (crc64 b)

/-- One codeword in 16,384 is a marker: the last of each run by the codeword count, which the spec does not place (R360, log entry 73). -/
def markerDue (l : Link) : Bool := l.cw % 16384 == 16383

/-- The control field of a codeword: its type, 0 data or 1 marker, and its count (R360). -/
def cwControl (type count : Nat) : Nat := type * 65536 + count % 65536

/-- The next flit slot of a port opened: at a codeword's first slot a marker that is due goes first, and the stamps of the codeword's first
bit are taken (R360, R379). -/
def openSlot (s : State) (l : Link) : State × Link :=
  if l.cwHalf then (s, l)
  else
    let m : Link := { l with cwMt := s.mt l.half, cwFt := ftFine s l.half }
    if markerDue l then (s.emit (.marker l.half l.port (cwControl 1 l.cw)), { m with cw := (l.cw + 1) % 65536 }) else (s, m)

/-- A flit sent in the open slot, and the credit class rotated. -/
def sendFlit (s : State) (l : Link) (ftype flags seq : Nat) (payload : List Byte) : State :=
  let next := if l.cwHalf then (l.cw + 1) % 65536 else l.cw
  (putLink s { l with rot := (l.rot + 1) % 8, cw := next, cwHalf := !l.cwHalf }).emit
    (.flit l.half l.port (cwControl 0 l.cw) l.cwHalf (flitBytes l ftype flags seq payload))

/-- The kind and the values of link control. -/
def LinkControl.values : LinkControl → Nat × List Nat
  | .init v node dir sizes => (0, [v, node, dir] ++ sizes)
  | .degrade pair => (1, [pair])
  | .downNotice => (2, [])

/-- A CONTROL flit sent in the open slot (R362, R381, R382). -/
def sendControl (s : State) (l : Link) (c : LinkControl) : State :=
  let v := c.values
  let body : List Byte := ((Config.controlPayload v.1 v.2).map (BitVec.ofNat 8)).take 296
  (sendFlit s { l with ctlMt := s.mt l.half + 1 } 2 0 0 body).emit (.linkControl l.half l.port c)

/-- Link control that is due: repeated every 1 µs (R362, R381). -/
def controlDue (s : State) (l : Link) : Option LinkControl :=
  if l.ctlMt = 0 ∨ l.ctlMt + 999 ≤ s.mt l.half then l.ctl else none

/-! ### Port states (R377, R382, R383) -/

/-- The event of a port's new state: a record on the operator's ring, and a PORT_EVENT to the fabric manager (R377). -/
def portEvent (s : State) (h : Half) (n : Nat) : State :=
  let st := portSt s h n
  let cause := s.rd (.fab .PORT_STATUS_CAUSE) h n
  let s1 := postEvent s h pf ST_PORT_STATE (s.mt h) (myNode s h * 65536 + n * 4096 + st * 256 + cause * 16)
  if s.rd (.fab .FAB_MGMT_FM_V) h = 1 then
    (injectPacket s1 h (newPacket s h (s.rd (.fab .FAB_MGMT_FM_NODE) h) 0x13
      (leBytes 1 n ++ leBytes 1 st ++ leBytes 1 cause ++ zeros 5 ++ leBytes 8 (s.mt h)) [])).2
  else s1

/-- A port's state and cause set, with its event when it becomes UP, DEGRADED, MISWIRED or DOWN. -/
def setPort (s : State) (h : Half) (n st cause : Nat) : State :=
  let old := portSt s h n
  let s1 := (s.wr (.fab .PORT_STATUS_STATE) h st n).wr (.fab .PORT_STATUS_CAUSE) h cause n
  if st ≠ old ∧ 2 ≤ st then portEvent s1 h n else s1

/-- PORT_ERR bits of a port set: interrupt causes (Table 11.11). -/
def portErr (s : State) (h : Half) (n bits : Nat) : State := raiseCause s (3 + n) h bits

/-- Receive slots of a packet's flits that have left freed (R363, R370). -/
def freeSlots (s : State) (h : Half) (o : OutPkt) (n : Nat) : State :=
  match o.src with
  | some p => if n = 0 then s else freeCredits s h p.1 p.2 n
  | none => s

/-- The packets that came by a port hold no slots of it any more. -/
def forgetSlots (s : State) (h : Half) (n : Nat) : State :=
  { s with links := s.links.map fun l =>
      if l.half = h then
        { l with outq := l.outq.map fun o => if o.src.map (·.1) = some n then { o with held := 0 } else o }
      else l }

/-- What a port that leaves service does to packets (Table 11.2 step 1, R383): those in reception are ended at every later node, those
queued on it are dropped, and those being sent on it go into the sink; the slots that they hold are free. -/
def clearPort (s : State) (h : Half) (n : Nat) : State :=
  let partly (e : RxPkt) : Bool := e.half == h && e.port == n && !e.whole
  let outq := (linkOf s h n).outq
  let whole := (outq.filter fun o => o.first).length
  let s0 := outq.foldl (fun t o => freeSlots t h o o.held) s
  let s1 := forgetSlots ((s0.arrived.filter partly).foldl (fun t e => endRx t e (some 5)) s0) h n
  let s2 : State := { s1 with arrived := (s1.arrived.filter fun e => !partly e).map fun e =>
    if e.half = h ∧ e.out = some (.port n) then { e with out := some .sink } else e }
  putLink (s2.inc (.fab .FAB_DROP) h whole 2) (Link.fresh h n)

/-- A port goes DOWN with a cause: its buffers are discarded, partial packets end, packets queued on it are dropped
(R382, R383). -/
def portDown (s : State) (h : Half) (n cause : Nat) : State :=
  let s2 := clearPort s h n
  let s3 := (s2.wr (.fab .PORT_DOWN_TIME) h (s.mt h) n).wr (.fab .PORT_STATUS_TX_PAIR) h 0 n
  portErr (setPort (s3.wr (.fab .PORT_STATUS_RX_PAIR) h 0 n) h n 5 cause) h n 8

/-- The outcome of a PORT_CTL write: PORT_STATUS.LAST_STATUS, and FAB_STATUS.LAST_STATUS for the chapter's last write (Table 11.11). -/
def portStatus (s : State) (h : Half) (n st : Nat) : State :=
  (s.wr (.fab .PORT_STATUS_LAST_STATUS) h st n).wr (.fab .FAB_STATUS_LAST_STATUS) h st

/-- PORT_TRAIN (R361): training starts, or is refused. -/
def trainPort (s : State) (h : Half) (n : Nat) : State :=
  let st := portSt s h n
  if s.rd (.boot .MGMT_READY) h = 0 then s
  else if s.lowland h then portStatus s h n ST_LOWLAND
  else if s.rd (.fab .FAB_STATUS_CFG_OK) h = 0 then portStatus s h n ST_FAB_CONFIG
  else if st = 1 ∨ st = 2 then portStatus s h n ST_FAB_BUSY
  else
    let s1 := putLink (clearPort s h n) { Link.fresh h n with trainStep := 1, trainMt := s.mt h }
    let s2 := (s1.wr (.fab .PORT_STATUS_TX_PAIR) h 0 n).wr (.fab .PORT_STATUS_RX_PAIR) h 0 n
    portStatus (setPort (s2.wr (.fab .PORT_NBR_V) h 0 n) h n 1 0) h n ST_OK

def execPortTrain (h : Half) (port : Fin 6) (s : State) : Res := .next (trainPort s h port.val)

/-- PORT_ADMIN_DOWN (R382): DOWN_NOTICE, then DOWN. A port that is OFF sends nothing, and a DOWN port stays as it is. -/
def adminDown (s : State) (h : Half) (n : Nat) : State :=
  if s.lowland h then portStatus s h n ST_LOWLAND
  else if portSt s h n = 5 then portStatus s h n ST_OK
  else
    let r := openSlot s (linkOf s h n)
    let s1 := if portSt s h n = 0 then s else sendControl r.1 r.2 .downNotice
    portStatus (portDown s1 h n 5) h n ST_OK

def execPortAdminDown (h : Half) (port : Fin 6) (s : State) : Res := .next (adminDown s h port.val)

/-- Training of a port moves to a step, from the one before it. -/
def trainTo (s : State) (h : Half) (n step : Nat) (f : State → State) : State :=
  let l := linkOf s h n
  if portSt s h n = 1 ∧ l.trainStep + 1 = step then f (putLink s { l with trainStep := step }) else s

/-- PORT_PARTNER_DETECT (Table 11.2, step 2). -/
def execPortPartnerDetect (h : Half) (port : Fin 6) (s : State) : Res := .next (trainTo s h port.val 2 id)

/-- PORT_TRAIN_TIMEOUT (Table 11.2, step 2): no partner within TRAIN_TMO of the command. -/
def execPortTrainTimeout (h : Half) (port : Fin 6) (s : State) : Res :=
  let l := linkOf s h port.val
  if portSt s h port.val = 1 ∧ l.trainStep = 1 ∧ l.trainMt + s.rd (.fab .FAB_LINK_CFG_TRAIN_TMO) h * 100000000 ≤ s.mt h then
    .next (portDown s h port.val 1)
  else .next s

/-- The lanes of a mask that count: those of the pair that an earlier step left (§11.3 "At the edges"). -/
def goodLanes (s : State) (h : Half) (n mask : Nat) : Nat :=
  let pair := s.rd (.fab .PORT_STATUS_RX_PAIR) h n
  bitsAt mask 0 4 &&& (if pair = 1 then 3 else if pair = 2 then 12 else 15)

/-- The outcome of PMD training or of codeword lock on the lanes of a mask: all lanes, one pair, or failure (§11.3 "At the
edges"). The pair is kept in RX_PAIR and TX_PAIR. -/
def trainLanes (s : State) (h : Half) (n step mask : Nat) : State :=
  let good := goodLanes s h n mask
  let pair := if good = 15 then 0 else if good % 4 = 3 then 1 else if good / 4 = 3 then 2 else 3
  if portSt s h n = 1 ∧ (linkOf s h n).trainStep + 1 = step ∧ pair = 3 then portDown s h n 2
  else trainTo s h n step fun t =>
    if pair = 0 then t else (t.wr (.fab .PORT_STATUS_RX_PAIR) h pair n).wr (.fab .PORT_STATUS_TX_PAIR) h pair n

/-- PORT_PMD_TRAIN_DONE (Table 11.2, step 3): `lanes` is the mask of the lanes that trained. -/
def execPortPmdTrainDone (h : Half) (port : Fin 6) (lanes : Nat) (s : State) : Res :=
  .next (trainLanes s h port.val 3 lanes)

/-- What a port's INIT says: version 0x01, this node, the port's direction, and the receive buffer's classes (R362). -/
def initControl (s : State) (h : Half) (n : Nat) : LinkControl :=
  .init 1 (myNode s h) (portDir s h n)
    ((List.range 8).map fun c => s.rd (.fab (if c % 2 = 0 then .FAB_BUF_LO else .FAB_BUF_HI)) h (c / 2))

/-- PORT_FEC_LOCK (Table 11.2, step 4): `lanes` is the mask of the lanes that lock and deskew. INIT flits are sent every 1 µs from then
on, until the partner's is received (R362). -/
def execPortFecLock (h : Half) (port : Fin 6) (lanes : Nat) (s : State) : Res :=
  let s1 := trainLanes s h port.val 4 lanes
  let l := linkOf s1 h port.val
  if portSt s h port.val = 1 ∧ (linkOf s h port.val).trainStep = 3 ∧ portSt s1 h port.val = 1 then
    .next (putLink s1 { l with ctl := some (initControl s h port.val), ctlMt := 0 })
  else .next s1

/-- The node that port `n` must face (R362). -/
def neighbour (s : State) (h : Half) (n : Nat) : Nat :=
  let me := myNode s h
  let code := portDir s h n
  let d := (code - 1) / 2
  let size := torusSize s h d
  let c := if code % 2 = 1 then (coord me d + 1) % size else (coord me d + size - 1) % size
  h.num * 2048 + (if d = 0 then c else coord me 0) * 128 + (if d = 1 then c else coord me 1) * 8 +
    (if d = 2 then c else coord me 2)

/-- The opposite direction code. -/
def oppositeDir (code : Nat) : Nat := if code % 2 = 1 then code + 1 else code - 1

/-- INIT_FLIT_RECEIVE (R362): the partner's version, node, port direction and buffer sizes are checked; the port becomes UP
(or DEGRADED on two lanes) or MISWIRED. -/
def execInitFlitReceive (h : Half) (port : Fin 6) (version node dir : Nat) (sizes : List Nat) (s : State) : Res :=
  let n := port.val
  let l := linkOf s h n
  if portSt s h n = 1 ∧ l.trainStep = 4 then
    let s1 := putLink s { l with trainStep := 5, ctl := none, size := (sizes ++ List.replicate 8 0).take 8,
                                 tokens := s.rd (.fab .FAB_VC_CFG_VC3_BURST) h, tokenMt := s.mt h }
    let s2 := ((s1.wr (.fab .PORT_NBR_V) h 1 n).wr (.fab .PORT_NBR_DIR) h dir n).wr (.fab .PORT_NBR_NODE) h node n
    let ok := version == 1 && decide (node / 2048 = h.num) && portDir s h n != 0 && node == neighbour s h n &&
      dir == oppositeDir (portDir s h n)
    if ok then .next (setPort s2 h n (if s.rd (.fab .PORT_STATUS_RX_PAIR) h n = 0 then 2 else 3) 0)
    else .next (portErr (setPort s2 h n 4 7) h n 32)
  else .next s

/-- The port exchanges flits with its partner over trained lanes: it carries packets, or is MISWIRED (R362). -/
def portLive (s : State) (h : Half) (n : Nat) : Bool := portOpen s h n || portSt s h n == 4

/-- The pair that holds no failed lane, if one is left. -/
def survivor (now failed : Nat) : Option Nat :=
  let lo := failed % 4 != 0 || now == 2
  let hi := bitsAt failed 2 2 != 0 || now == 1
  if lo && hi then none else if lo then some 2 else some 1

/-- LANE_FAIL (R381, R382): receive lanes of a mask fail, by loss of lock or, with `errors`, by more FEC symbol errors within 10 µs than
LANE_SER_LIMIT; with `both`, the transmit direction loses lanes at once. -/
def execLaneFail (h : Half) (port : Fin 6) (lanes : Nat) (both : Bool) (errors : Option Nat) (s : State) : Res :=
  let n := port.val
  let failed := bitsAt lanes 0 4
  let counts := match errors with
    | some e => decide (s.rd (.fab .FAB_LINK_CFG_LANE_SER_LIMIT) h < e)
    | none => true
  if portLive s h n = false ∨ failed = 0 ∨ counts = false then .next s
  else
    let s1 := portErr s h n 2
    match (if both then none else survivor (s.rd (.fab .PORT_STATUS_RX_PAIR) h n) failed) with
    | none => .next (portDown s1 h n 3)
    | some pair =>
      if s.rd (.fab .PORT_STATUS_RX_PAIR) h n = pair then .next s1
      else
        let l := linkOf s1 h n
        let s2 := putLink s1 { l with degrading := true, exhRun := 0, ctl := some (.degrade pair), ctlMt := 0 }
        .next (s2.wr (.fab .PORT_STATUS_RX_PAIR) h pair n)

/-- DEGRADE_FLIT_RECEIVE (R381): this side transmits on the named pair. A side that cannot receive is a both-directions loss,
which LANE_FAIL states. -/
def execDegradeFlitReceive (h : Half) (port : Fin 6) (pair : Nat) (s : State) : Res :=
  let n := port.val
  if portLive s h n ∧ (pair = 1 ∨ pair = 2) then
    let l := linkOf s h n
    let moves := decide (s.rd (.fab .PORT_STATUS_TX_PAIR) h n ≠ pair)
    .next ((putLink s { l with exhRun := 0, txMoved := l.txMoved || moves }).wr (.fab .PORT_STATUS_TX_PAIR) h pair n)
  else .next s

/-- LANE_DEGRADE_DONE (R381): a direction has moved to two lanes; the port is DEGRADED, unless it is MISWIRED. The side whose transmit
direction moved replays
from ACK + 1; the receiver's DEGRADE flits end. -/
def execLaneDegradeDone (h : Half) (port : Fin 6) (s : State) : Res :=
  let n := port.val
  let l := linkOf s h n
  if portLive s h n ∧ (l.degrading ∨ l.txMoved) then
    let s1 := putLink s { l with degrading := false, txMoved := false, ctl := none,
                                 resendAt := if l.txMoved ∧ l.replay ≠ [] then some 0 else l.resendAt }
    .next (portErr (setPort s1 h n (if portSt s h n = 4 then 4 else 3) (s.rd (.fab .PORT_STATUS_CAUSE) h n)) h n 16)
  else .next s

/-- DOWN_NOTICE_RECEIVE (R382). -/
def execDownNoticeReceive (h : Half) (port : Fin 6) (s : State) : Res :=
  if portSt s h port.val = 0 ∨ portSt s h port.val = 5 then .next s else .next (portDown s h port.val 6)

/-! ### The link layer (R365 to R369) -/

/-- A class may send: the partner has a free slot (R367). -/
def hasCredit (l : Link) (cls : Nat) : Bool :=
  let d := (l.size.getD cls 0 + l.credit.getD cls 0 + 65536 - l.sent.getD cls 0) % 65536
  decide (d ≠ 0 ∧ d < 32768)

/-- A packet has a flit ready: 296 bytes of it are here, or its end is (R370, R371). -/
def OutPkt.ready (o : OutPkt) : Bool := o.whole || decide (296 ≤ o.bytes.length)

/-- A packet's next flit is its EOP flit. -/
def OutPkt.last (o : OutPkt) : Bool := o.whole && decide (o.bytes.length ≤ 296)

/-- A class has a flit ready: of the packet that holds the class (R370). -/
def classReady (l : Link) (cls : Nat) : Bool :=
  hasCredit l cls && ((l.outq.find? fun o => o.cls == cls).any OutPkt.ready)

/-- The sub-channel of a virtual channel that goes next, alternating while both are ready (R369). -/
def pickSub (l : Link) (vc last : Nat) : Option Nat :=
  let other := 2 * vc + (1 - last)
  let same := 2 * vc + last
  if classReady l other then some other else if classReady l same then some same else none

/-- The tokens of the VC3 bucket at a time (R369). -/
def refillTokens (s : State) (l : Link) : Link :=
  let us := (s.mt l.half - l.tokenMt) / 1000
  { l with tokens := min (s.rd (.fab .FAB_VC_CFG_VC3_BURST) l.half) (l.tokens + us * s.rd (.fab .FAB_VC_CFG_VC3_RATE) l.half),
           tokenMt := l.tokenMt + us * 1000 }

/-- The choice between VC0 and VC1 by weighted round robin, with the round's remaining flits (R369). -/
def pickBulk (s : State) (l : Link) : Option (Nat × Link) :=
  let w0 := s.rd (.fab .FAB_VC_CFG_W0) l.half
  let w1 := s.rd (.fab .FAB_VC_CFG_W1) l.half
  let m : Link := if l.left0 = 0 ∧ l.left1 = 0 then { l with left0 := w0, left1 := w1 } else l
  match pickSub m 0 m.sub0, pickSub m 1 m.sub1 with
  | some a, none => some (a, { m with sub0 := a % 2 })
  | none, some b => some (b, { m with sub1 := b % 2 })
  | some a, some b =>
    if m.left0 ≠ 0 then some (a, { m with sub0 := a % 2, left0 := m.left0 - 1 })
    else some (b, { m with sub1 := b % 2, left1 := m.left1 - 1 })
  | none, none => none

/-- The class of the next DATA flit: VC2, then VC3 with a token, then VC0 or VC1 (R369). -/
def pickClass (s : State) (l : Link) : Option (Nat × Link) :=
  match pickSub l 2 1 with
  | some c => some (c, l)
  | none =>
    match (if l.tokens = 0 then none else pickSub l 3 1) with
    | some c => some (c, { l with tokens := l.tokens - 1 })
    | none => pickBulk s l

/-- The first packet of a class in a queue, with the queue after one of its flits has left. -/
def takeFlit (q : List OutPkt) (cls : Nat) : Option (OutPkt × List OutPkt) :=
  match q with
  | [] => none
  | o :: r =>
    if o.cls = cls then
      some (o, if o.last then r else { o with bytes := o.bytes.drop 296, first := false, held := o.held - 1 } :: r)
    else (takeFlit r cls).map fun p => (p.1, o :: p.2)

/-- The transmit stamps of a time packet written into its SOP flit: FRAC and ORIGIN_FT of a beacon, T3 of a delay response
(R457, R379). -/
def stampOut (l : Link) (first : Bool) (body : List Byte) : List Byte :=
  if first = false then body
  else if fieldAt body 4 1 = 0x20 then
    body.take 14 ++ leBytes 2 (l.cwFt % 65536) ++ leBytes 8 (l.cwFt / 65536) ++ body.drop 24
  else if fieldAt body 4 1 = 0x22 then body.take 24 ++ leBytes 8 l.cwMt ++ body.drop 32
  else body

/-- The MT at which a delay request of this half leaves a port (R458). -/
def noteRequest (s : State) (l : Link) (first : Bool) (body : List Byte) : State :=
  if first ∧ fieldAt body 4 1 = 0x21 ∧ fieldAt body 2 2 = myNode s l.half then s.wr (.tim .DREQ_T1) l.half (l.cwMt + 1) l.port
  else s

/-- FFLAGS of a DATA flit. -/
def dataFlags (o : OutPkt) : Nat :=
  o.cls / 2 * 64 + o.cls % 2 * 32 + (if o.first then 16 else 0) + (if o.last then 8 else 0) + (if o.last ∧ o.aborted then 4 else 0)

/-- A new DATA flit sent, kept for replay (R365, R369); the receive slot that it came in is free (R370). -/
def sendData (s : State) (l : Link) : Option State :=
  if 512 ≤ l.replay.length then none
  else match pickClass s l with
    | none => none
    | some (cls, m) =>
      match takeFlit m.outq cls with
      | none => none
      | some (o, q) =>
        let body := stampOut m o.first (o.bytes.take 296)
        let f : SentFlit := ⟨m.txSeq, dataFlags o, body, 0, s.mt m.half⟩
        let s1 := noteRequest s m o.first body
        let s2 := bump s1 m.half 2 m.port 1
        let n := { m with outq := q, replay := m.replay ++ [f], txSeq := seqNext m.txSeq,
                          sent := m.sent.set cls ((m.sent.getD cls 0 + 1) % 65536) }
        some (freeSlots (sendFlit s2 n 1 f.flags f.seq body) m.half o (if o.last then o.held else min 1 o.held))

/-- A replayed flit sent (R365). -/
def sendReplay (s : State) (l : Link) (i : Nat) : State :=
  match l.replay[i]? with
  | none => putLink s { l with resendAt := none }
  | some f =>
    let f' := { f with resends := f.resends + 1, sentMt := s.mt l.half }
    let next := if i + 1 < l.replay.length then some (i + 1) else none
    let s1 := bump (s.inc (.fab .PORT_CNT0_REPLAYS) l.half 1 l.port) l.half 2 (6 + l.port) 1
    sendFlit s1 { l with replay := l.replay.set i f', resendAt := next } 1 f.flags f.seq f.payload

/-- FLIT_SEND_SLOT (R360, R369): the next flit slot of a port is filled: replay, CONTROL, DATA by priority, or IDLE. A port that relocks
sends none; one that exchanges INIT flits (Table 11.2, step 5) or is MISWIRED sends CONTROL and IDLE flits. -/
def execFlitSendSlot (h : Half) (port : Fin 6) (s : State) : Res :=
  let st := portSt s h port.val
  let l0 := refillTokens s (linkOf s h port.val)
  let r := openSlot s l0
  let idle := match controlDue s l0 with
    | some c => sendControl r.1 r.2 c
    | none => sendFlit r.1 r.2 0 0 0 []
  if portOpen s h port.val ∧ l0.relock = false then
    match l0.resendAt with
    | some i => .next (sendReplay r.1 r.2 i)
    | none =>
      if (controlDue s l0).isSome then .next idle
      else match sendData r.1 r.2 with
        | some t => .next t
        | none => .next idle
  else if st = 4 ∨ (st = 1 ∧ l0.trainStep = 4) then .next idle
  else .next s

/-- The acknowledgement and credit of a good flit's header taken in (R363, R365). -/
def takeHeader (s : State) (l : Link) (ack : Nat) (nak : Bool) (cls count : Nat) : State :=
  let m : Link := { l with credit := l.credit.set cls count }
  let acked := (l.replay.takeWhile fun f => f.seq != ack).length + 1
  if l.replay.any fun f => f.seq == ack then
    let rest := l.replay.drop acked
    putLink s { m with replay := rest, progress := true,
                       resendAt := if nak ∧ rest ≠ [] then some 0 else match l.resendAt with
                         | some i => if acked ≤ i then some (i - acked) else if rest = [] then none else some 0
                         | none => none }
  else if ack = (l.txSeq + 4096 - l.replay.length - 1) % 4096 then
    putLink s (if nak ∧ l.replay ≠ [] then { m with resendAt := some 0 } else m)
  else putLink (s.inc (.fab .PORT_CNT0_CRC_ERR) l.half 1 l.port) m

/-- A DATA flit accepted in order (R365): a SOP flit begins a packet in its class, which waits for the router; a later flit follows its
packet; an ABORT or an ECC error of the receive buffer ends the packet early (R370, R383). -/
def acceptData (s : State) (l : Link) (seq flags : Nat) (payload : List Byte) (eccBad : Bool) : State :=
  let cls := flags / 32
  let eop := flags.testBit 3
  let s1 := putLink s { l with rxAck := seq, nak := false }
  let s2 := if eccBad then countDropped s1 l.half 7 else s1
  let cut (t : State) (e : RxPkt) : State := abortRx t e (if eccBad then none else some 5) eop
  let dropped := eccBad || flags.testBit 2
  if flags.testBit 4 then
    let s3 := match openRx s2 l.half l.port cls with
      | some e => putRx (freeCredits (endRx s2 e (some 5)) l.half l.port cls e.flits) e none
      | none => s2
    let e : RxPkt := ⟨l.half, l.port, cls, payload, 1, eop, none, l.rxMt, l.rxFt⟩
    let s4 : State := { s3 with arrived := s3.arrived ++ [e] }
    if dropped then cut { s3 with arrived := s3.arrived ++ [{ e with flits := 0 }] } { e with flits := 0 } else s4
  else match openRx s2 l.half l.port cls with
    | some e => if dropped then cut s2 e else flowRx s2 e payload eop
    | none => freeCredits s2 l.half l.port cls 1

/-- The codeword that a flit came in, taken note of: at its first slot its stamps, and what the FEC reports, counted once (R360, R379,
Table 11.11). -/
def noteCodeword (s : State) (l : Link) (how : FlitArrival) : State :=
  if how.slot.val = 1 then s
  else
    let s1 := putLink s { l with rxMt := s.mt l.half, rxFt := ftFine s l.half }
    match how.fec with
    | .clean => s1
    | .corrected => s1.inc (.fab .PORT_CNT1_FEC_CORR) l.half 1 l.port
    | .uncorrectable => s1.inc (.fab .PORT_CNT1_FEC_UNCORR) l.half 1 l.port

/-- A flit is good: of a codeword that the FEC corrected, whole, of a known type, with its checksum (Table 11.3, R364). -/
def flitGood (bytes : List Byte) (how : FlitArrival) : Bool :=
  how.fec != .uncorrectable && bytes.length == 320 && decide (fieldAt bytes 0 1 ≤ 2) &&
    fieldAt bytes 0x138 8 == crc64 (bytes.take 0x138)

/-- FLIT_RECEIVE (R360, R363 to R365): 320 bytes arrive in a flit slot of a codeword. A codeword that is no data codeword carries no
flit; a port that exchanges INIT flits or is MISWIRED counts what is bad, and takes no packet (R362). -/
def execFlitReceive (h : Half) (port : Fin 6) (bytes : List Byte) (how : FlitArrival) (s : State) : Res :=
  let n := port.val
  if (portLive s h n = false ∧ ¬ (portSt s h n = 1 ∧ (linkOf s h n).trainStep = 4)) ∨ (linkOf s h n).relock = true then .next s
  else
    let s0 := noteCodeword s (linkOf s h n) how
    let l := linkOf s0 h n
    if how.fec ≠ .uncorrectable ∧ how.control / 65536 ≠ 0 then .next s0
    else if flitGood bytes how = false then
      .next (portErr (putLink (s0.inc (.fab .PORT_CNT0_CRC_ERR) h 1 n) { l with nak := portOpen s h n }) h n 1)
    else if portOpen s h n = false then .next s0
    else
      let ack := fieldAt bytes 4 2
      let s1 := takeHeader s0 l (ack % 4096) (ack.testBit 15) (fieldAt bytes 6 1 % 8) (fieldAt bytes 8 2)
      let m := linkOf s1 h n
      if fieldAt bytes 0 1 = 1 then
        if m.degrading then .next s1
        else if fieldAt bytes 2 2 % 4096 = seqNext m.rxAck then
          .next (acceptData s1 m (seqNext m.rxAck) (fieldAt bytes 1 1) ((bytes.drop 16).take (min 296 (fieldAt bytes 0xA 2)))
            how.eccBad)
        else .next (putLink s1 { m with nak := true })
      else .next s1

/-- FABRIC_REPLAY_TIMEOUT (R365): the oldest unacknowledged flit has waited REPLAY_TMO; the sender resends from ACK + 1. -/
def execFabricReplayTimeout (h : Half) (port : Fin 6) (s : State) : Res :=
  let l := linkOf s h port.val
  let due := match l.replay with
    | f :: _ => decide (f.sentMt + s.rd (.fab .FAB_LINK_CFG_REPLAY_TMO) h * 100 ≤ s.mt h)
    | [] => false
  if portOpen s h port.val ∧ due = true ∧ l.relock = false then .next (putLink s { l with resendAt := some 0 }) else .next s

/-- FABRIC_REPLAY_EXHAUST (R366, R382): a flit has been resent 8 times without acknowledgement; the codewords are relocked, and a third
run in a row takes the port DOWN. -/
def execFabricReplayExhaust (h : Half) (port : Fin 6) (s : State) : Res :=
  let n := port.val
  let l := linkOf s h n
  if portOpen s h n ∧ (l.replay.any fun f => decide (8 ≤ f.resends)) = true ∧ l.relock = false then
    let run := if l.progress then 1 else l.exhRun + 1
    let s1 := portErr s h n 4
    if 3 ≤ run then .next (portDown s1 h n 4)
    else .next (putLink s1 { linkOf s1 h n with exhRun := run, progress := false, relock := true, resendAt := none })
  else .next s

/-- FABRIC_RELOCK_DONE (R366): the sender resumes from ACK + 1. -/
def execFabricRelockDone (h : Half) (port : Fin 6) (s : State) : Res :=
  let l := linkOf s h port.val
  if l.relock then
    .next (putLink s { l with relock := false, resendAt := if l.replay.isEmpty then none else some 0,
                              replay := l.replay.map fun f => { f with resends := 0 } })
  else .next s

/-! ### Registers (R367, R372, R375) -/

/-- FAB_STATUS.LAST_STATUS set. -/
def fabStatus (s : State) (h : Half) (st : Nat) : State := s.wr (.fab .FAB_STATUS_LAST_STATUS) h st

/-- CFG_OK (R372): coordinates below the size, sizes in range, no direction given to two ports. -/
def cfgOk (s : State) (h : Half) : Bool :=
  let sx := torusSize s h 0
  let sy := torusSize s h 1
  let sz := torusSize s h 2
  decide (2 ≤ sx ∧ sx ≤ 16 ∧ 2 ≤ sy ∧ sy ≤ 16 ∧ 2 ≤ sz ∧ sz ≤ 8) &&
    (List.range 3).all (fun d => decide (coord (myNode s h) d < torusSize s h d)) &&
    (List.range 6).all fun n => portDir s h n == 0 || (List.range 6).all fun m => m == n || portDir s h m != portDir s h n

/-- FAB_TOPOLOGY_WRITE (R372): FAB_NODE (0), FAB_SIZE (1) or FAB_PORT_DIR (2) written while every port is OFF or DOWN. -/
def execFabTopologyWrite (h : Half) (reg : Fin 3) (v : Nat) (s : State) : Res :=
  if portsQuiet s h = false then .next (fabStatus s h ST_FAB_BUSY)
  else if reg.val = 2 ∧ ((List.range 6).any fun n => bitsAt v (3 * n) 3 == 7) = true then .next (fabStatus s h ST_FAB_CONFIG)
  else
    let s1 := match reg.val with
      | 0 => ((s.wr (.fab .FAB_NODE_X) h (bitsAt v 7 4)).wr (.fab .FAB_NODE_Y) h (bitsAt v 3 4)).wr (.fab .FAB_NODE_Z) h (bitsAt v 0 3)
      | 1 => ((s.wr (.fab .FAB_SIZE_SX) h (bitsAt v 10 5)).wr (.fab .FAB_SIZE_SY) h (bitsAt v 5 5)).wr (.fab .FAB_SIZE_SZ) h
          (bitsAt v 0 4)
      | _ => s.wr (.fab .FAB_PORT_DIR) h (bitsAt v 0 18)
    .next (fabStatus (s1.wr (.fab .FAB_STATUS_CFG_OK) h (bit (cfgOk s1 h))) h ST_OK)

/-- FAB_BUF_WRITE (R367): the slots of classes 2k and 2k + 1. -/
def execFabBufWrite (h : Half) (k : Fin 4) (lo hi : Nat) (s : State) : Res :=
  if locked s h then .next s
  else
    let least := if 2 ≤ k.val then 16 else 4
    let others := ((List.range 4).filter fun j => j ≠ k.val).foldl (fun n j =>
      n + s.rd (.fab .FAB_BUF_LO) h j + s.rd (.fab .FAB_BUF_HI) h j) 0
    if portsQuiet s h ∧ least ≤ lo ∧ least ≤ hi ∧ others + lo + hi ≤ 1536 then
      .next (fabStatus ((s.wr (.fab .FAB_BUF_LO) h lo k.val).wr (.fab .FAB_BUF_HI) h hi k.val) h ST_OK)
    else .next (fabStatus s h ST_FAB_CONFIG)

/-- RT_SEL_WRITE (R375). -/
def selectBank (s : State) (h : Half) (v : Nat) : State := fabStatus (s.wr (.fab .RT_SEL_BANK) h (v % 2)) h ST_OK

def execRtSelWrite (h : Half) (bank : Nat) (s : State) : Res := .next (selectBank s h bank)

/-- A route table written: refused in the bank in use, and for a code 3 (R375, Table 11.11). -/
def writeTable (s : State) (h : Half) (bank d v : Nat) : State :=
  if s.rd (.fab .RT_SEL_BANK) h = bank then fabStatus s h ST_FAB_BUSY
  else if (List.range (if d = 2 then 8 else 16)).any fun c => bitsAt v (2 * c) 2 == 3 then fabStatus s h ST_FAB_CONFIG
  else fabStatus (s.wr (.fab .RT) h (if d = 2 then v % 65536 else v) (bank * 3 + d)) h ST_OK

/-- ROUTE_TABLE_WRITE (R375). -/
def execRouteTableWrite (h : Half) (bank : Fin 2) (d : Fin 3) (v : Nat) (s : State) : Res :=
  .next (writeTable s h bank.val d.val v)

/-- The shortest-path table of a dimension from a coordinate: ties go + (R375). -/
def shortestTable (own size : Nat) : Nat :=
  (List.range size).foldl (fun t c =>
    if c = own then t
    else t + (if (c + size - own) % size ≤ (own + size - c) % size then 1 else 2) * 4 ^ c) 0

/-- AUTO_RT (R375): the tables of shortest paths written into the bank not in use. -/
def execAutoRt (h : Half) (s : State) : Res :=
  let bank := 1 - s.rd (.fab .RT_SEL_BANK) h
  .next (fabStatus ((List.range 3).foldl (fun t d =>
    t.wr (.fab .RT) h (shortestTable (coord (myNode s h) d) (torusSize s h d)) (bank * 3 + d)) s) h ST_OK)

end Sys2Proof.Machine
end

