-- ==== Sys2Proof/Machine/Colls.lean ====
section
/-!
DEFINITION. Machine/Colls.lean: the collective engines of a half: groups and ranks (R387 to R391), the layout of a bulk
operation's segments and steps (R392 to R396), units, CTS and DONE (R399, R403 to R406), the arithmetic (R400 to R402), Notch
operations (R410 to R413), and the common abort (R415 to R418).
-/

namespace Sys2Proof.Machine

/-! ### Groups (R387, R389) -/

/-- Origin of a group's box in a dimension. -/
def boxOrigin (s : State) (h : Half) (g d : Nat) : Nat :=
  if d = 0 then s.rd (.coll .GRP_BOX_OX) h g else if d = 1 then s.rd (.coll .GRP_BOX_OY) h g
  else s.rd (.coll .GRP_BOX_OZ) h g

/-- Extent of a group's box in a dimension. -/
def boxExtent (s : State) (h : Half) (g d : Nat) : Nat :=
  if d = 0 then s.rd (.coll .GRP_BOX_EX) h g else if d = 1 then s.rd (.coll .GRP_BOX_EY) h g
  else s.rd (.coll .GRP_BOX_EZ) h g

/-- The orders of the axes (Table 12.9). -/
def axisOrder (k : Nat) : List Nat :=
  match k with
  | 0 => [0, 1, 2]
  | 1 => [0, 2, 1]
  | 2 => [1, 0, 2]
  | 3 => [1, 2, 0]
  | 4 => [2, 0, 1]
  | _ => [2, 1, 0]

/-- A group as its member sees it: its axes in order, those of extent 1 left out, their extents, and the member's index
along each. -/
structure Grp where
  g : Nat
  axes : List Nat
  ext : List Nat
  me : List Nat
deriving DecidableEq, Repr

/-- The group of an entry. -/
def grpOf (s : State) (h : Half) (g : Nat) : Grp :=
  let axes := (axisOrder (s.rd (.coll .GRP_CFG_AXES) h g)).filter fun d => decide (1 < boxExtent s h g d)
  { g := g, axes := axes, ext := axes.map (boxExtent s h g),
    me := axes.map fun d => coord (myNode s h) d - boxOrigin s h g d }

/-- G: the members of a group. -/
def Grp.size (x : Grp) : Nat := x.ext.foldl (· * ·) 1

/-- The rank of a member from its indices, the first axis most significant (R389). -/
def rankOf : List Nat → List Nat → Nat → Nat
  | e :: es, i :: is, acc => rankOf es is (acc * e + i)
  | _, _, acc => acc

/-- The member's rank. -/
def Grp.rank (x : Grp) : Nat := rankOf x.ext x.me 0

/-- Extent of the axis at a position, and the member's index there. -/
def Grp.e (x : Grp) (a : Nat) : Nat := x.ext.getD a 1
def Grp.i (x : Grp) (a : Nat) : Nat := x.me.getD a 0

/-- A node identifier with one coordinate replaced. -/
def withCoord (node d v : Nat) : Nat :=
  let x := if d = 0 then v else coord node 0
  let y := if d = 1 then v else coord node 1
  let z := if d = 2 then v else coord node 2
  node / 2048 * 2048 + x * 128 + y * 8 + z

/-- The node of the member with index `i` along the axis at a position, on this member's line. -/
def lineNode (s : State) (h : Half) (x : Grp) (a i : Nat) : Nat :=
  let d := x.axes.getD a 0
  withCoord (myNode s h) d (boxOrigin s h x.g d + i)

/-- The neighbours on a line inside the sub-block: direction (0 toward the higher index) and node. -/
def lineNbrs (s : State) (h : Half) (x : Grp) (a : Nat) : List (Nat × Nat) :=
  (if x.i a + 1 < x.e a then [(0, lineNode s h x a (x.i a + 1))] else []) ++
    (if 0 < x.i a then [(1, lineNode s h x a (x.i a - 1))] else [])

/-- The valid entry of a group identifier. -/
def groupEntry (s : State) (h : Half) (gid : Nat) : Option Nat :=
  (List.range 256).find? fun g => s.rd (.coll .GRP_CFG_V) h g == 1 && s.rd (.coll .GRP_ID) h g == gid

/-- A function may name a group (R388). -/
def groupOwned (s : State) (h : Half) (fn g : Nat) : Bool :=
  if fn = pf then s.rd (.coll .GRP_CFG_OPR) h g == 1
  else s.rd (.coll .GRP_CFG_OPR) h g == 0 && s.rd (.coll .GRP_CFG_PARTITION) h g == fn

/-! ### Operands -/

/-- GROUP_ID, EPOCH, OP, format, reduction, flags, COUNT and addresses of a COLL (Table 5.7). -/
def clGid (b : List Byte) : Nat := fieldAt b 0x30 4
def clEpoch (b : List Byte) : Nat := fieldAt b 0x34 4
def clOp (b : List Byte) : Nat := fieldAt b 0x38 1
def clFmt (b : List Byte) : Nat := fieldAt b 0x39 1 / 16
def clRed (b : List Byte) : Nat := fieldAt b 0x39 1 % 16
def clNotch (b : List Byte) : Bool := (fieldAt b 0x3A 1).testBit 0
def clVar (b : List Byte) : Bool := (fieldAt b 0x3A 1).testBit 1
def clTmo (b : List Byte) : Nat := fieldAt b 0x3C 4
def clCount (b : List Byte) : Nat := fieldAt b 0x28 8
def clSrc (b : List Byte) : Nat := fieldAt b 0x18 8
def clDst (b : List Byte) : Nat := fieldAt b 0x20 8

/-- The RING block of an ATTN_RING (Table 5.4), its AXIS, DIR, STEPS, GROUP_ID, EPOCH, TMO_US and OVERLAP. -/
def ringExt (c : Chain) : List Byte := (extOf c kRING).getD []
def rgAxis (b : List Byte) : Nat := fieldAt b 0x08 1
def rgDir (b : List Byte) : Nat := fieldAt b 0x09 1
def rgSteps (b : List Byte) : Nat := fieldAt b 0x0A 2
def rgGid (b : List Byte) : Nat := fieldAt b 0x0C 4
def rgEpoch (b : List Byte) : Nat := fieldAt b 0x10 4
def rgTmo (b : List Byte) : Nat := fieldAt b 0x14 4
def rgOverlap (b : List Byte) : Bool := fieldAt b 0x18 1 == 1

/-! ### Running operations -/

/-- The operation of a chain. -/
def collOf (s : State) (readNo : Nat) : Option Coll := s.colls.find? fun c => c.chainNo == readNo

/-- The chain of an operation. -/
def Coll.chain (s : State) (c : Coll) : Option Chain := s.chains.find? fun d => d.readNo == c.chainNo

/-- An operation replaced. -/
def putColl (s : State) (c : Coll) : State :=
  { s with colls := s.colls.map fun d => if d.chainNo = c.chainNo then c else d }

/-- BULK_ACTIVE and NOTCH_ACTIVE brought up to date. -/
def refreshColls (s : State) (h : Half) : State :=
  (s.wr (.coll .COLL_STATUS_BULK_ACTIVE) h (s.colls.filter fun c => c.half == h && !c.notch).length).wr
    (.coll .COLL_STATUS_NOTCH_ACTIVE) h (s.colls.filter fun c => c.half == h && c.notch).length

/-- The Reduction class of the pool. -/
def reductionClass : Nat := 0

/-- Sixteen granules for a segment (R397). -/
def takeSegment (s : State) (h : Half) : Option State := takeGranules s h reductionClass 16 none

/-- An operation leaves: its units in flight end, and the granules that it still holds are released. -/
def endColl (s : State) (c : Coll) : State :=
  let s1 := { s with colls := s.colls.filter fun d => d.chainNo ≠ c.chainNo,
                     poolUnits := s.poolUnits.filter fun u => !(u.half == c.half && u.cls == reductionClass && ofColl c.chainNo u.tag) }
  let loose := poolInUse s1 c.half reductionClass - poolHeld s1 c.half reductionClass
  refreshColls (giveGranules s1 c.half reductionClass (min c.granules loose)) c.half

/-- A collective completed: its counter, its group's count and the sample of its latency (R545, R550). -/
def countColl (s : State) (c : Coll) : State :=
  let h := c.half
  let fn := ((c.chain s).map fun d => ringFn d.ring).getD pf
  let s1 := histSample s h (if c.notch then 12 else 11) fn ((s.mt h - c.startMt : Nat) : Int)
  if c.notch then bump (s1.inc (.coll .NOTCH_OPS) h 1) h 2 14 1 else bump (s1.inc (.coll .COLL_OPS) h 1) h 2 12 1

/-- Payload bytes of collectives sent (R545). -/
def countSent (s : State) (h : Half) (n : Nat) : State := bump (s.inc (.coll .COLL_BYTES) h n) h 2 13 n

/-! ### The common abort (R416, R417) -/

/-- A Notch packet's transport fields (Table 12.5). -/
def notchFields (gid epoch kind axis dir sidx count cause origin digest : Nat) : List Byte :=
  leBytes 4 gid ++ leBytes 4 epoch ++ leBytes 1 kind ++ leBytes 1 (axis * 64 + dir * 32) ++ leBytes 1 sidx ++
    leBytes 1 count ++ leBytes 1 cause ++ leBytes 1 0 ++ leBytes 2 origin ++ leBytes 4 digest ++ leBytes 4 0

/-- A Notch packet to the neighbour on a line inside the sub-block: it takes that link, whatever the route tables hold (R411, R416). -/
def linePacket (s : State) (h : Half) (x : Grp) (a : Nat) (nb : Nat × Nat) (tr payload : List Byte) : Packet :=
  { newPacket s h nb.2 3 tr payload with dim := x.axes.getD a 0, dir := nb.1 }

/-- ABORT sent to the neighbours that a list names by axis position and direction. -/
def sendAborts (s : State) (h : Half) (x : Grp) (gid epoch cause origin : Nat) (dests : List (Nat × Nat)) : State :=
  dests.foldl (fun t ad =>
    match (lineNbrs t h x ad.1).find? fun p => p.1 == ad.2 with
    | some p => (injectPacket t h (linePacket t h x ad.1 p (notchFields gid epoch 2 ad.1 ad.2 (x.i ad.1) 0 cause origin 0) [])).2
    | none => t) s

/-- Both directions of every axis of a group but those of one axis. -/
def axisDirs (x : Grp) (but : Option Nat) : List (Nat × Nat) :=
  ((List.range x.axes.length).filter fun a => some a != but).flatMap fun a => [(a, 0), (a, 1)]

/-- The records of an abort: the group's, the half's, and the counts (Table 12.9). -/
def recordAbort (s : State) (h : Half) (g gid epoch cause origin localSt : Nat) : State :=
  let s1 := (s.wr (.coll .GRP_ABORT_V) h 1 g).wr (.coll .GRP_ABORT_CAUSE) h cause g
  let s2 := (s1.wr (.coll .GRP_ABORT_ORIGIN) h (origin % 4096) g).wr (.coll .GRP_ABORT_EPOCH) h epoch g
  let s3 := (s2.wr (.coll .COLL_LAST_ABORT_GROUP_ID) h gid).wr (.coll .COLL_LAST_ABORT_EPOCH) h epoch
  let s4 := (s3.wr (.coll .COLL_ABORT_INFO_CAUSE) h cause).wr (.coll .COLL_ABORT_INFO_ORIGIN) h (origin % 4096)
  bump ((s4.wr (.coll .COLL_ABORT_INFO_LOCAL_STATUS) h localSt).inc (.coll .COLL_ABORTS) h 1) h 2 15 1

/-- The held packets that a test keeps; the Notch granules of the others are released (R49, R413). -/
def keepPending (s : State) (h : Half) (keep : Half × Packet → Bool) : State :=
  let s1 := { s with collPend := s.collPend.filter keep }
  let k := poolHeld s h notchClass - poolHeld s1 h notchClass
  if k = 0 then s1 else giveGranules s1 h notchClass k

/-- Control packets held for an epoch of a group dropped with it. -/
def dropPending (s : State) (h : Half) (gid epoch : Nat) : State :=
  keepPending s h fun p => !(p.1 == h && fieldAt p.2.transport 0 4 == gid && fieldAt p.2.transport 4 4 == epoch)

/-- A running operation stopped by an abort: the chain ends with ST_COLL_TIMEOUT and DETAIL = EPOCH (R417). -/
def stopColl (s : State) (c : Coll) : State :=
  let s1 := endColl s c
  mapChains (dropPending s1 c.half c.gid c.epoch) fun d =>
    if d.readNo = c.chainNo then
      (if d.done then d else { d.finish ST_COLL_TIMEOUT with detail := c.epoch })
    else d

/-- An abort originated for a running operation (R416): recorded, flooded unless this member has sent one for the epoch already, and the
operation stopped. -/
def originateAbort (s : State) (c : Coll) (cause localSt : Nat) : State :=
  let me := myNode s c.half
  let s1 := recordAbort s c.half c.g c.gid c.epoch cause me localSt
  if s.aborted.contains (c.half, c.gid, c.epoch) then stopColl s1 c
  else
    let x := grpOf s c.half c.g
    stopColl (sendAborts { s1 with aborted := s.aborted ++ [(c.half, c.gid, c.epoch)] } c.half x c.gid c.epoch cause me
      (axisDirs x none)) c

/-- An access of the engine that works for a chain has failed: a collective operation aborts with cause FAULT (R416), another chain that
runs ends with the status. -/
def failEngine (s : State) (d : Chain) (status : Nat) : State :=
  match collOf s d.readNo with
  | some k => originateAbort s k 3 status
  | none => if d.running then setChain s d fun d => d.finish status else s

/-- An epoch has not run yet on a member: it is not older than NEXT_EPOCH (R391). -/
def epochAhead (next e : Nat) : Bool := decide (0 ≤ signedOf 32 (e + 2 ^ 32 - next % 2 ^ 32))

/-- An ABORT received (R416, R417): dropped where its epoch is older than the one before NEXT_EPOCH (R406); else forwarded once; a running
operation stops, and an epoch not yet run is recorded. -/
def receiveAbort (s : State) (h : Half) (p : Packet) : State :=
  let t := p.transport
  let gid := fieldAt t 0 4
  let epoch := fieldAt t 4 4
  let flags := fieldAt t 9 1
  let cause := fieldAt t 12 1
  let origin := fieldAt t 14 2 % 4096
  match groupEntry s h gid with
  | none => s.inc (.coll .CTL_DROP) h 1
  | some g =>
    if epochAhead ((s.rd (.coll .GRP_EPOCH_NEXT) h g + 2 ^ 32 - 1) % 2 ^ 32) epoch = false then s.inc (.coll .CTL_DROP) h 1
    else if s.aborted.contains (h, gid, epoch) then s
    else
      let x := grpOf s h g
      let a := flags / 64
      let s1 : State := { s with aborted := s.aborted ++ [(h, gid, epoch)] }
      let s2 := sendAborts s1 h x gid epoch cause origin ((a, flags / 32 % 2) :: axisDirs x (some a))
      match s2.colls.find? fun c => c.half == h && c.gid == gid && c.epoch == epoch with
      | some c => stopColl (recordAbort s2 h g gid epoch cause origin 0) c
      | none =>
        if epochAhead (s2.rd (.coll .GRP_EPOCH_NEXT) h g) epoch then
          dropPending (recordAbort s2 h g gid epoch cause origin 0) h gid epoch
        else s2

/-! ### The digest (R405) -/

/-- GRP_BOX and AXES of an entry as their registers read. -/
def boxWord (s : State) (h : Half) (g : Nat) : Nat :=
  boxOrigin s h g 0 * 2 ^ 28 + boxOrigin s h g 1 * 2 ^ 24 + boxOrigin s h g 2 * 2 ^ 21 + boxExtent s h g 0 * 2 ^ 16 +
    boxExtent s h g 1 * 2 ^ 11 + boxExtent s h g 2 * 2 ^ 7

/-- Bytes 12 to 24 of the digest block. -/
def digestGroup (s : State) (h : Half) (g gid epoch : Nat) : List Byte :=
  leBytes 4 gid ++ leBytes 4 epoch ++ leBytes 4 (boxWord s h g) ++ leBytes 1 (s.rd (.coll .GRP_CFG_AXES) h g)

/-- The digest of a COLL (Table 12.4). -/
def collDigest (s : State) (h : Half) (g : Nat) (b : List Byte) : Nat :=
  crc32c (leBytes 1 0x20 ++ leBytes 1 (clOp b) ++ leBytes 1 (fieldAt b 0x39 1) ++ leBytes 1 (fieldAt b 0x3A 1) ++
    leBytes 8 (if clVar b then 0 else clCount b) ++ digestGroup s h g (clGid b) (clEpoch b) ++ zeros 7)

/-- The digest of an ATTN_RING (Table 12.4). -/
def ringDigest (s : State) (h : Half) (g : Nat) (c : Chain) : Nat :=
  let b := c.head
  let r := ringExt c
  let mask := (extOf c kMASK).getD []
  crc32c (leBytes 1 0x19 ++ leBytes 1 (rgAxis r) ++ leBytes 1 (rgDir r) ++ (b.drop 0x3B).take 1 ++ leBytes 2 (rgSteps r) ++
    (b.drop 0x38).take 2 ++ (b.drop 0x3C).take 4 ++ digestGroup s h g (rgGid r) (rgEpoch r) ++
    leBytes 1 (16 * bitsAt (fieldAt b 0x3A 1) 4 2) ++ (if mask.isEmpty then zeros 4 else (mask.drop 0x1C).take 4) ++ zeros 2)

end Sys2Proof.Machine
end

