-- ==== Sys2Proof/Machine/CollData.lean ====
section
/-!
DEFINITION. Machine/CollData.lean: the data movement of a COLL: segments, ring steps and units (R392 to R396, R399, R404), the
count exchange (R395), and Notch operations (R410 to R413).
-/

namespace Sys2Proof.Machine

/-- A COLL at work: the state, the operation, its chain's head, its group, and the abort that has become due: cause and
local status. -/
structure CollW where
  s : State
  c : Coll
  b : List Byte
  fn : Nat
  x : Grp
  err : Option (Nat × Nat)
deriving DecidableEq, Repr

/-- The next part of the work, unless an abort is due. -/
def CollW.bind (w : CollW) (f : CollW → CollW) : CollW := if w.err.isSome then w else f w

/-- An abort due (Table 12.7). -/
def CollW.abort (w : CollW) (cause localSt : Nat) : CollW := if w.err.isSome then w else { w with err := some (cause, localSt) }

/-- Progress: the timer restarts (R415). -/
def CollW.tick (w : CollW) : CollW := { w with c := { w.c with progMt := w.s.mt w.c.half } }

/-- A segment of the operation changed. -/
def CollW.setSeg (w : CollW) (g : CollSeg) : CollW :=
  { w with c := { w.c with segs := w.c.segs.map fun d => if d.k = g.k then g else d } }

/-- The operation's chain is cancelled: it issues no host write (R352). -/
def CollW.muted (w : CollW) : Bool := w.s.chains.any fun d => d.readNo == w.c.chainNo && d.cancelled

/-- Bytes written to DST by the operation (cause FAULT where the access fails). -/
def CollW.store (w : CollW) (a : Nat) (data : List Byte) : CollW :=
  if data.isEmpty = true ∨ (isHost a = true ∧ w.muted = true) then w
  else
    let r := writeAt w.s (engine w.c.half w.fn) a data
    if r.1 = ST_OK then { w with s := r.2 } else { w with s := r.2 }.abort 3 r.1

/-! ### Layout (R392 to R396) -/

/-- Elements of a segment: 1 MB of FP32. -/
def segElems : Nat := 262144

/-- Chunk `j` of `n` elements divided into `e`: its offset and length (R393). -/
def chunkOf (n e j : Nat) : Nat × Nat := (j * (n / e) + min j (n % e), n / e + bit (decide (j < n % e)))

/-- Count of a rank: COUNT, or the exchanged count of a VAR operation. -/
def CollW.count (w : CollW) (r : Nat) : Nat :=
  if clVar w.b then ((w.c.counts.getD r none).getD 0) else clCount w.b

/-- The operation divides its vector into slices by rank: reduce-scatter and all-gather. -/
def CollW.sliced (w : CollW) : Bool := clOp w.b == 1 || clOp w.b == 2

/-- S of R396. -/
def CollW.sliceStep (w : CollW) : Nat := max 1 (segElems / w.x.size)

/-- Length of a rank's slice within segment `k`. -/
def CollW.sliceLen (w : CollW) (k r : Nat) : Nat := min (w.sliceStep) (w.count r - k * w.sliceStep)

/-- Elements before a rank's slice in segment `k`, and in the whole vector. -/
def CollW.slicePos (w : CollW) (k r : Nat) : Nat := ((List.range r).map (w.sliceLen k)).sum
def CollW.sliceOff (w : CollW) (r : Nat) : Nat := ((List.range r).map w.count).sum

/-- Elements of segment `k`. -/
def CollW.segLen (w : CollW) (k : Nat) : Nat :=
  if w.sliced then w.slicePos k w.x.size else min segElems (clCount w.b - k * segElems)

/-- Number of segments. -/
def CollW.segs (w : CollW) : Nat :=
  if w.sliced then max 1 (ceilDiv (((List.range w.x.size).map w.count).foldl max 0) w.sliceStep)
  else ceilDiv (clCount w.b) segElems

/-- Ranks below a path of indices along the first axes. -/
def rankRange : List Nat → List Nat → Nat × Nat
  | es, [] => (0, es.foldl (· * ·) 1)
  | [], _ => (0, 1)
  | _ :: es, i :: is =>
    let n := es.foldl (· * ·) 1
    let r := rankRange es is
    (i * n + r.1, r.2)

/-- The span of a vector of `n` elements at a path, by repeated division (R393). -/
def splitSpan : List Nat → List Nat → Nat → Nat → Nat × Nat
  | e :: es, i :: is, off, n => let c := chunkOf n e i; splitSpan es is (off + c.1) c.2
  | _, _, off, n => (off, n)

/-- The span of segment `k` that belongs to a path of indices along the first axes: offset and length. -/
def CollW.span (w : CollW) (k : Nat) (path : List Nat) : Nat × Nat :=
  if w.sliced then
    let r := rankRange w.x.ext path
    (w.slicePos k r.1, ((List.range r.2).map fun d => w.sliceLen k (r.1 + d)).sum)
  else splitSpan w.x.ext path 0 (w.segLen k)

/-- The phases of the operation: gather or not, and the axis position (R394). -/
def CollW.phases (w : CollW) : List (Bool × Nat) :=
  let n := w.x.axes.length
  let red := (List.range n).map fun a => (false, a)
  let gat := (List.range n).reverse.map fun a => (true, a)
  if clOp w.b = 0 then red ++ gat else if clOp w.b = 1 then red else if clOp w.b = 2 then gat else []

/-- Reduce phases of the operation. -/
def CollW.redPhases (w : CollW) : Nat := if clOp w.b ≤ 1 then w.x.axes.length else 0

def CollW.phase (w : CollW) (p : Nat) : Bool × Nat := w.phases.getD p (true, 0)

/-- Chunk index sent at step `t` of a phase, and received (R393). -/
def CollW.sendChunk (w : CollW) (p t : Nat) : Nat :=
  let q := w.phase p
  let e := w.x.e q.2
  if q.1 then (w.x.i q.2 + e - t % e) % e else (w.x.i q.2 + 2 * e - t % e - 1) % e

def CollW.recvChunk (w : CollW) (p t : Nat) : Nat :=
  let e := w.x.e (w.phase p).2
  (w.sendChunk p t + e - 1) % e

/-- The span of a chunk of a phase in segment `k`. -/
def CollW.chunkSpan (w : CollW) (k p c : Nat) : Nat × Nat := w.span k (w.x.me.take (w.phase p).2 ++ [c])

/-- Bytes of an element on the wire in a phase: FP32 while reducing (R400). -/
def CollW.wire (w : CollW) (p : Nat) : Nat := if (w.phase p).1 then elemSize (clFmt w.b) else 4

/-- Elements of a unit, and units of `n` elements (R399). -/
def unitElems (size : Nat) : Nat := 131072 / size
def unitsOf (size n : Nat) : Nat := max 1 (ceilDiv n (unitElems size))

/-- The span of unit `u` of a chunk. -/
def unitSpan (size u : Nat) (sp : Nat × Nat) : Nat × Nat :=
  (sp.1 + u * unitElems size, min (unitElems size) (sp.2 - u * unitElems size))

/-- The member a phase sends to, and the one it receives from (R389). -/
def CollW.down (w : CollW) (p : Nat) : Nat :=
  let a := (w.phase p).2
  lineNode w.s w.c.half w.x a ((w.x.i a + 1) % w.x.e a)

def CollW.up (w : CollW) (p : Nat) : Nat :=
  let a := (w.phase p).2
  lineNode w.s w.c.half w.x a ((w.x.i a + w.x.e a - 1) % w.x.e a)

/-- Bytes of values on the wire. -/
def valBytes (size : Nat) (l : List Nat) : List Byte := l.flatMap (leBytes size)

/-- Values of bytes. -/
def bytesVals (size : Nat) : Nat → List Byte → List Nat
  | 0, _ => []
  | n + 1, b => leNat (b.take size) :: bytesVals size n (b.drop size)

/-- A list with a run of values replaced. -/
def spliceVals (l : List Nat) (off : Nat) (v : List Nat) : List Nat := l.take off ++ v ++ l.drop (off + v.length)

/-- The reduction of two values, the second the member's own (R400, R401). -/
def redOp (k a b : Nat) : Nat := if k = 0 then f32Add a b else if k = 1 then f32Max a b else f32Min a b

/-- Bytes that precede the data in DST: the counts of a VAR operation (R395). -/
def CollW.dstHead (w : CollW) : Nat := if clVar w.b then roundUp (4 * w.x.size) 256 else 0

/-- The address in DST of element `pos` of segment `k`: all-reduce and broadcast by position, all-gather by rank. -/
def CollW.dstOf (w : CollW) (k r pos : Nat) : Nat :=
  let z := elemSize (clFmt w.b)
  let e := if w.sliced then w.sliceOff r + k * w.sliceStep + (pos - w.slicePos k r) else k * segElems + pos
  clDst w.b + w.dstHead + e * z

/-- Values of a span of segment `k` written to DST: slice by slice where the operation is sliced. -/
def CollW.storeSpan (w : CollW) (k off : Nat) (vals : List Nat) : CollW :=
  let z := elemSize (clFmt w.b)
  if w.sliced then
    (List.range w.x.size).foldl (fun w r =>
      let a := w.slicePos k r
      let lo := max a off
      let hi := min (a + w.sliceLen k r) (off + vals.length)
      w.bind fun w => w.store (w.dstOf k r lo) (valBytes z ((vals.drop (lo - off)).take (hi - lo)))) w
  else w.store (w.dstOf k 0 off) (valBytes z vals)

/-- The values of a segment as it starts: this member's contribution widened to FP32, or its own elements at their place
(R392, R400). -/
def CollW.load (w : CollW) (k : Nat) : CollW × List Nat :=
  let z := elemSize (clFmt w.b)
  let eng := engine w.c.half w.fn
  let get (w : CollW) (off n : Nat) : CollW × List Nat :=
    if n = 0 ∨ w.err.isSome then (w, List.replicate n 0)
    else
      let r := readAt w.s eng (clSrc w.b + off * z) (n * z)
      if r.1 = ST_OK then ({ w with s := r.2.1 }, bytesVals z n r.2.2)
      else ({ w with s := r.2.1 }.abort 3 r.1, List.replicate n 0)
  let wide (l : List Nat) : List Nat := l.map fun v => toF32 (decodeElem (clFmt w.b) v)
  if clOp w.b = 0 then let r := get w (k * segElems) (w.segLen k); (r.1, wide r.2)
  else if clOp w.b = 1 then
    (List.range w.x.size).foldl (fun q i =>
      let r := get q.1 (q.1.sliceOff i + k * q.1.sliceStep) (q.1.sliceLen k i)
      (r.1, q.2 ++ wide r.2)) (w, [])
  else if clOp w.b = 2 then
    let me := w.x.rank
    let r := get w (k * w.sliceStep) (w.sliceLen k me)
    (r.1, List.replicate (w.slicePos k me) 0 ++ r.2 ++
      List.replicate (w.segLen k - w.slicePos k me - w.sliceLen k me) 0)
  else if clSrc w.b ≠ 0 then get w (k * segElems) (w.segLen k)
  else (w, List.replicate (w.segLen k) 0)

/-- FP32 results converted to the element format, with their saturations and NaNs counted (R400). -/
def CollW.convert (w : CollW) (vals : List Nat) : CollW × List Nat :=
  let r := vals.map (convElem (clFmt w.b))
  let s1 := w.s.inc (.coll .RED_NUM_SAT) w.c.half (r.map fun v => v.sat).sum
  ({ w with s := s1.inc (.coll .RED_NUM_NAN) w.c.half (r.map fun v => v.nan).sum }, r.map (·.bits))

/-- The receiving side reaches the phase after the last reduce phase: the member's own part is converted once and written;
an all-gather writes its own slice, a reduce-scatter its result (R394, R400). -/
def CollW.ownPart (w : CollW) (g : CollSeg) : CollW :=
  if g.rxP ≠ w.redPhases then w
  else if clOp w.b = 3 then
    (if clSrc w.b ≠ 0 then w.storeSpan g.k 0 g.vals else w)
  else
    let sp := w.span g.k w.x.me
    let mine := (g.vals.drop sp.1).take sp.2
    let q := if clOp w.b ≤ 1 then w.convert mine else (w, mine)
    let w1 := q.1.setSeg { g with vals := spliceVals g.vals sp.1 q.2 }
    if clOp w.b = 1 then
      w1.store (clDst w.b + w.dstHead + g.k * w.sliceStep * elemSize (clFmt w.b)) (valBytes (elemSize (clFmt w.b)) q.2)
    else w1.storeSpan g.k sp.1 q.2

/-- The next segment starts, if there is one, fewer than two run, and its granules can be had (R396, R397). -/
def CollW.startSeg (w : CollW) : CollW :=
  if w.segs ≤ w.c.nextSeg ∨ 2 ≤ w.c.segs.length then w
  else
    let need := decide (w.c.granules < 16 * (w.c.segs.length + 1))
    let got : Option (State × Nat) :=
      if need then (takeSegment w.s w.c.half).map fun t => (t, w.c.granules + 16) else some (w.s, w.c.granules)
    match got with
    | none => w
    | some p =>
      let k := w.c.nextSeg
      let q := { w with s := putColl p.1 { w.c with granules := p.2 }, c := { w.c with granules := p.2 } }.load k
      let g : CollSeg := ⟨k, 0, 0, 0, 0, 0, 0, false, [], q.2, []⟩
      ({ q.1 with c := { q.1.c with segs := q.1.c.segs ++ [g], nextSeg := k + 1 } }).bind fun w => w.ownPart g

/-! ### Units on borrowed granules (R52, R397, R399) -/

/-- A segment is not the operation's first in flight: its granules may be borrowed ones. -/
def CollW.second (w : CollW) (k : Nat) : Bool := w.c.segs.head?.map (·.k) != some k

/-- Granules that the class's operations lack since a reclaim has taken them. -/
def CollW.lacks (w : CollW) : Nat := poolHeld w.s w.c.half reductionClass - poolInUse w.s w.c.half reductionClass

/-- The pool's name of a unit on its way in: of a broadcast, its number in its segment (R399). -/
def CollW.unitTag (w : CollW) (t : CtsHeld) : UnitTag :=
  if clOp w.b = 3 then .coll w.c.chainNo t.seg 0 0 t.unit else .coll w.c.chainNo t.seg t.phase t.step t.unit

/-- A unit asked for is in flight on borrowed granules, at most those of Table 1.9, as far as the class has such granules. -/
def CollW.fly (w : CollW) (u : CtsHeld) : CollW :=
  let h := w.c.half
  let loose := poolBorrowed w.s h reductionClass - poolFlight w.s h reductionClass
  let join (t : State) (_ : Nat) : State := (joinUnit t h reductionClass (w.unitTag u)).getD t
  if w.second u.seg then { w with s := (List.range (min (poolUnitMax reductionClass) loose)).foldl join w.s } else w

/-- A unit has completed: granules that a reclaim has marked are released (R51). -/
def CollW.landed (w : CollW) (t : CtsHeld) : CollW :=
  match poolUnit w.s w.c.half reductionClass (w.unitTag t) with
  | some u => { w with s := unitEnd w.s u u.marked }
  | none => w

/-! ### Packets (R403) -/

/-- The transport fields of a DATA packet (Table 12.3). -/
def dataFields (c : Coll) (seg axis : Nat) (gather : Bool) (step fmt unit off : Nat) : List Byte :=
  leBytes 4 c.gid ++ leBytes 4 c.epoch ++ leBytes 4 seg ++ leBytes 1 (axis * 64 + bit gather * 32) ++ leBytes 1 step ++
    leBytes 1 fmt ++ leBytes 1 (unit % 256) ++ leBytes 4 off ++ leBytes 2 (unit / 256) ++ zeros 2

/-- The transport fields of a CTL packet (Table 12.3). -/
def ctlFields (c : Coll) (kind axis : Nat) (gather : Bool) (step unit digest seg : Nat) : List Byte :=
  leBytes 4 c.gid ++ leBytes 4 c.epoch ++ leBytes 1 kind ++ leBytes 1 (axis * 64 + bit gather * 32) ++ leBytes 1 step ++
    leBytes 1 (unit % 256) ++ leBytes 4 digest ++ leBytes 4 seg ++ leBytes 2 (unit / 256) ++ zeros 2

/-- A packet injected for the operation; a failed check is an abort with cause PATH (R405, "At the edges"). -/
def CollW.injectPkt (w : CollW) (p : Packet) : CollW :=
  w.bind fun w =>
    let r := injectPacket w.s w.c.half p
    if r.1 = ST_OK then { w with s := r.2 }.tick else { w with s := r.2 }.abort 2 r.1

/-- A packet to a node injected for the operation. -/
def CollW.inject (w : CollW) (dst ptype : Nat) (tr payload : List Byte) : CollW :=
  w.injectPkt (newPacket w.s w.c.half dst ptype tr payload)

/-- The payloads of a unit: at most 4,096 bytes each; one empty payload for an empty unit. -/
def payloads (size : Nat) (b : List Byte) : List (Nat × List Byte) :=
  let n := 4096 / size * size
  (List.range (max 1 (ceilDiv b.length n))).map fun i => (i * n / size, (b.drop (i * n)).take n)

/-- A DATA packet injected for the operation, and its payload counted (R421). -/
def CollW.injectData (w : CollW) (dst : Nat) (tr payload : List Byte) : CollW :=
  (w.inject dst 1 tr payload).bind fun w => { w with s := countSent w.s w.c.half payload.length }

/-- DONE sent for a unit that has been consumed, to the member it came from (R404). -/
def CollW.sendDone (w : CollW) (t : CtsHeld) : CollW :=
  let q := if clOp w.b = 3 then (true, t.phase) else w.phase t.phase
  (w.inject t.node 2 (ctlFields w.c 1 q.2 q.1 t.step t.unit 0 t.seg) []).landed t

/-- DONE sent for the written units that a test says have been forwarded as well (R404). -/
def CollW.forwarded (w : CollW) (f : CtsHeld → Bool) : CollW :=
  (w.c.owed.filter f).foldl CollW.sendDone { w with c := { w.c with owed := w.c.owed.filter fun t => !(f t) } }

/-- A unit's DATA packets sent to a node. -/
def CollW.sendUnit (w : CollW) (node seg axis : Nat) (gather : Bool) (step unit size fmt : Nat) (b : List Byte) : CollW :=
  (payloads size b).foldl (fun w p => w.injectData node (dataFields w.c seg axis gather step fmt unit p.1) p.2) w

/-- Pointers (phase, step, unit) in order. -/
def ptrLt (a b : Nat × Nat × Nat) : Bool := lexLt [a.1, a.2.1, a.2.2] [b.1, b.2.1, b.2.2]

/-- The units of a step's chunk in a phase. -/
def CollW.stepUnits (w : CollW) (k p c : Nat) : Nat := unitsOf (w.wire p) (w.chunkSpan k p c).2

/-- The pointer after a unit: the next unit, step or phase. -/
def CollW.next (w : CollW) (k : Nat) (recv : Bool) (q : Nat × Nat × Nat) : Nat × Nat × Nat :=
  let c := if recv then w.recvChunk q.1 q.2.1 else w.sendChunk q.1 q.2.1
  if q.2.2 + 1 < w.stepUnits k q.1 c then (q.1, q.2.1, q.2.2 + 1)
  else if q.2.1 + 2 < w.x.e (w.phase q.1).2 then (q.1, q.2.1 + 1, 0)
  else (q.1 + 1, 0, 0)

/-- The unit at the sending pointer may be sent: its data is here (R393). -/
def CollW.txReady (w : CollW) (g : CollSeg) : Bool :=
  decide (g.txP < w.phases.length) &&
    (if g.txT = 0 then decide (g.txP ≤ g.rxP) else ptrLt (g.txP, g.txT - 1, g.txU) (g.rxP, g.rxT, g.rxU))

/-- A CTS is for a unit. -/
def CtsHeld.isFor (t : CtsHeld) (k p st u : Nat) : Bool := t.seg == k && t.phase == p && t.step == st && t.unit == u

/-- Units of a segment sent while their CTS is held and their data is here; what was received for them is consumed then (R404). -/
def CollW.pumpTx : Nat → CollW → Nat → CollW
  | 0, w, _ => w
  | n + 1, w, k =>
    match w.c.segs.find? fun g => g.k == k with
    | none => w
    | some g =>
      match w.c.cts.find? fun t => t.isFor k g.txP g.txT g.txU with
      | none => w
      | some t =>
        if w.err.isSome ∨ w.txReady g = false then w
        else
          let q := w.phase g.txP
          let z := w.wire g.txP
          let sp := unitSpan z g.txU (w.chunkSpan k g.txP (w.sendChunk g.txP g.txT))
          let data := valBytes z ((g.vals.drop sp.1).take sp.2)
          let fmt := if q.1 then clFmt w.b else 6
          let w1 := w.sendUnit (w.down g.txP) k q.2 q.1 g.txT g.txU z fmt data
          let nx := w.next k false (g.txP, g.txT, g.txU)
          let w2 := w1.setSeg { g with txP := nx.1, txT := nx.2.1, txU := nx.2.2 }
          let c2 := { w2.c with cts := w2.c.cts.filter fun d => !(d == t),
                                sent := w2.c.sent ++ [⟨k, g.txP, g.txT, g.txU, w.down g.txP, data⟩] }
          let w3 := { w2 with c := c2 }.forwarded fun d => 0 < g.txT && d.isFor k g.txP (g.txT - 1) g.txU
          CollW.pumpTx n w3 k

/-- A broadcast's unit may travel to a neighbour: along the axis it came by, onward in its direction, or along a later axis;
from the root along every axis (R394). -/
def bcastMay (came : Option (Nat × Nat)) (a dir : Nat) : Bool :=
  match came with
  | none => true
  | some p => decide (p.1 < a) || (p.1 == a && p.2 == dir)

/-- Neighbours that unit `u` of a broadcast must still reach. -/
def CollW.unitOwed (w : CollW) (g : CollSeg) (u : Nat) : Bool :=
  let came := (g.came.find? fun m => m.1 == u).map (·.2)
  (List.range w.x.axes.length).any fun a => (lineNbrs w.s w.c.half w.x a).any fun p =>
    bcastMay came a p.1 && !(w.c.sent.any fun t => t.seg == g.k && t.phase == a && t.step == p.1 && t.unit == u)

/-- A unit of the segment of a broadcast must still reach a neighbour. -/
def CollW.bcastOwed (w : CollW) (g : CollSeg) : Bool :=
  (List.range (unitsOf (elemSize (clFmt w.b)) g.vals.length)).any (w.unitOwed g)

/-- Units of a broadcast sent to the neighbours that have asked for them; those that have reached every neighbour are consumed. -/
def CollW.pumpBcast (w : CollW) (g : CollSeg) : CollW :=
  let z := elemSize (clFmt w.b)
  let w1 := w.c.cts.foldl (fun w t =>
    let have_ := clSrc w.b != 0 || g.came.any fun m => m.1 == t.unit
    let came := (g.came.find? fun m => m.1 == t.unit).map (·.2)
    match (lineNbrs w.s w.c.half w.x t.phase).find? fun p => p.2 == t.node with
    | none => w
    | some p =>
      if t.seg = g.k ∧ have_ = true ∧ bcastMay came t.phase p.1 = true ∧ w.err = none then
        let sp := unitSpan z t.unit (0, g.vals.length)
        let data := valBytes z ((g.vals.drop sp.1).take sp.2)
        let w1 := w.sendUnit t.node g.k t.phase true p.1 t.unit z (clFmt w.b) data
        { w1 with c := { w1.c with cts := w1.c.cts.filter fun d => !(d == t),
                                   sent := w1.c.sent ++ [⟨g.k, t.phase, p.1, t.unit, t.node, data⟩] } }
      else w) w
  w1.forwarded fun t => t.seg == g.k && !(w1.unitOwed g t.unit)

/-- Every unit of a segment that was sent has been acknowledged: none is kept any more (R399, R404). -/
def CollW.acked (w : CollW) (k : Nat) : Bool := w.c.sent.all fun t => t.seg != k || (clOp w.b == 3 && t.bytes.isEmpty)

/-- A segment is finished: everything received, sent and acknowledged. -/
def CollW.segDone (w : CollW) (g : CollSeg) : Bool :=
  w.acked g.k && if clOp w.b = 3 then
    (clSrc w.b != 0 || decide (g.came.length = unitsOf (elemSize (clFmt w.b)) g.vals.length)) && !(w.bcastOwed g)
  else decide (w.phases.length ≤ g.rxP ∧ w.phases.length ≤ g.txP)

/-- The counts of a VAR operation are all here, or are not needed. -/
def CollW.counted (w : CollW) : Bool := !(clVar w.b) || w.c.counts.all fun v => v.isSome

/-- The counts written at the front of DST, once (R395). -/
def CollW.putCounts (w : CollW) : CollW :=
  if clVar w.b = false ∨ w.c.cntDone = true ∨ w.counted = false then w
  else
    let l := w.c.counts.map fun v => v.getD 0
    let w1 : CollW := { w with c := { w.c with cntDone := true } }
    if 2 ^ 32 ≤ l.sum then w1.abort 5 0
    else w1.store (clDst w.b) (valBytes 4 l ++ zeros (w.dstHead - 4 * w.x.size))

/-- COUNTS of a chunk of ranks sent downstream along an axis (R395). -/
def CollW.sendCounts (w : CollW) (a step chunk : Nat) : CollW :=
  let r := rankRange w.x.ext (w.x.me.take a ++ [chunk])
  let l := (List.range r.2).map fun d => (w.c.counts.getD (r.1 + d) none).getD 0
  let node := lineNode w.s w.c.half w.x a ((w.x.i a + 1) % w.x.e a)
  w.inject node 2 (ctlFields w.c 2 a true step 0 0 r.1) (valBytes 4 l)

/-- The exchange of an axis begun once the axes gathered before it are complete, the last axis first (R395). -/
def CollW.pumpCounts : Nat → CollW → CollW
  | 0, w => w
  | n + 1, w =>
    if clVar w.b = false ∨ w.x.axes.length ≤ w.c.cntAxes then w
    else
      let a := w.x.axes.length - 1 - w.c.cntAxes
      let r := rankRange w.x.ext (w.x.me.take (a + 1))
      if (List.range r.2).all fun d => (w.c.counts.getD (r.1 + d) none).isSome then
        CollW.pumpCounts n ({ w with c := { w.c with cntAxes := w.c.cntAxes + 1 } }.sendCounts a 0 (w.x.i a))
      else w

/-- Everything that can go on goes on: counts, new segments, units to send, and the segments that end (R394 to R397). -/
def CollW.pump : Nat → CollW → CollW
  | 0, w => w
  | n + 1, w =>
    let w1 := (w.pumpCounts 3).bind CollW.putCounts
    if w1.counted = false ∨ w1.err.isSome then w1
    else
      let w2 := w1.startSeg.startSeg
      let w3 := w2.c.segs.foldl (fun w g => if clOp w.b = 3 then w.pumpBcast g else CollW.pumpTx 2048 w g.k) w2
      let doneSegs := w3.c.segs.filter fun g => w3.segDone g
      if doneSegs.isEmpty then w3
      else
        CollW.pump n { w3 with c := { w3.c with segs := w3.c.segs.filter fun g => !(w3.segDone g),
                                                sent := w3.c.sent.filter fun t => !(doneSegs.any fun g => g.k == t.seg) } }

/-- The work put back: the abort it owes, or the end of the operation, or the operation as it stands (R394, R417). -/
def CollW.close (w : CollW) : State :=
  match w.err with
  | some e => originateAbort (putColl w.s w.c) w.c e.1 e.2
  | none =>
    let s1 := putColl w.s w.c
    if w.c.notch = false ∧ w.counted = true ∧ w.c.segs.isEmpty = true ∧ w.segs ≤ w.c.nextSeg then
      let s2 := endColl (countColl s1 w.c) w.c
      mapChains s2 fun d => if d.readNo = w.c.chainNo then d.finish ST_OK else d
    else s1

/-- The work of a running COLL. -/
def collWork (s : State) (c : Coll) (d : Chain) : CollW := ⟨s, c, d.head, ringFn d.ring, grpOf s c.half c.g, none⟩

/-- A running bulk COLL goes on. -/
def collGoOn (s : State) (c : Coll) (d : Chain) : State := (CollW.pump (1 + c.segs.length + (collWork s c d).segs) (collWork s c d)).close

/-! ### Units received -/

/-- Data gathered for a unit, in order of offset; whole when it has its length. -/
def gatherUnit (got : List (Nat × List Byte)) (size n : Nat) : Option (List Byte) :=
  let b := (List.range (max 1 (ceilDiv (n * size) (4096 / size * size)))).map fun i =>
    (got.find? fun p => p.1 == i * (4096 / size)).map (·.2)
  if b.all fun x => x.isSome then
    let l := (b.map fun x => x.getD []).flatten
    if l.length = n * size then some l else none
  else none

/-- A unit received whole: added to the partial and so consumed, or written, and consumed once it is forwarded, where a further step of
the phase sends it on (R393, R401, R404). -/
def CollW.consume (w : CollW) (g : CollSeg) (sp : Nat × Nat) (data : List Byte) (src : Nat) : CollW :=
  let q := w.phase g.rxP
  let z := w.wire g.rxP
  let v := bytesVals z sp.2 data
  let own := (g.vals.drop sp.1).take sp.2
  let nv := if q.1 then v else List.zipWith (redOp (clRed w.b)) v own
  let nx := w.next g.k true (g.rxP, g.rxT, g.rxU)
  let g1 := { g with vals := spliceVals g.vals sp.1 nv, rxP := nx.1, rxT := nx.2.1, rxU := nx.2.2, cts := false, got := [] }
  let w1 := w.setSeg g1
  let w2 := if q.1 then w1.storeSpan g.k sp.1 nv else w1
  let w3 := if g1.rxP ≠ g.rxP then w2.bind fun w => w.ownPart g1 else w2
  let t : CtsHeld := ⟨g.k, g.rxP, g.rxT, g.rxU, src⟩
  if q.1 = true ∧ g.rxT + 2 < w.x.e q.2 then { w3 with c := { w3.c with owed := w3.c.owed ++ [t] } } else w3.sendDone t

/-- A DATA packet of a ring step (R404). -/
def CollW.ringData (w : CollW) (g : CollSeg) (p : Packet) : CollW :=
  let t := p.transport
  let q := w.phase g.rxP
  let z := w.wire g.rxP
  if g.cts = false ∨ w.phases.length ≤ g.rxP ∨ fieldAt t 12 1 / 64 ≠ q.2 ∨ (fieldAt t 12 1).testBit 5 ≠ q.1 ∨
      fieldAt t 13 1 ≠ g.rxT ∨ fieldAt t 15 1 + 256 * fieldAt t 20 2 ≠ g.rxU then w
  else
    let sp := unitSpan z g.rxU (w.chunkSpan g.k g.rxP (w.recvChunk g.rxP g.rxT))
    let off := fieldAt t 16 4
    let got := (off, p.payload) :: g.got.filter fun d => d.1 != off
    match gatherUnit got z sp.2 with
    | none => w.setSeg { g with got := got }
    | some b => w.consume g sp b p.src

/-- A DATA packet of a broadcast: a root that receives one aborts with ROOTS (R394). -/
def CollW.bcastData (w : CollW) (g : CollSeg) (p : Packet) : CollW :=
  let t := p.transport
  let z := elemSize (clFmt w.b)
  let u := fieldAt t 15 1 + 256 * fieldAt t 20 2
  let a := fieldAt t 12 1 / 64
  if clSrc w.b ≠ 0 then w.abort 4 0
  else if g.came.any fun m => m.1 == u then w
  else
    let sp := unitSpan z u (0, g.vals.length)
    let off := fieldAt t 16 4
    let got := (u * 131072 + off, p.payload) :: g.got.filter fun d => d.1 != u * 131072 + off
    let mine := (got.filter fun d => d.1 / 131072 == u).map fun d => (d.1 % 131072, d.2)
    match gatherUnit mine z sp.2 with
    | none => w.setSeg { g with got := got }
    | some b =>
      let v := bytesVals z sp.2 b
      let dir := fieldAt t 13 1
      let g1 := { g with vals := spliceVals g.vals sp.1 v, came := g.came ++ [(u, a, dir)], cts := false,
                         got := got.filter fun d => d.1 / 131072 != u }
      let w1 := (w.setSeg g1).storeSpan g.k sp.1 v
      { w1 with c := { w1.c with owed := w1.c.owed ++ [⟨g.k, a, dir, u, p.src⟩] } }

/-- A DATA packet given to a running COLL. -/
def collData (s : State) (c : Coll) (d : Chain) (p : Packet) : State :=
  let w := collWork s c d
  match c.segs.find? fun g => g.k == fieldAt p.transport 8 4 with
  | none => putColl s c
  | some g =>
    let w1 := if clOp w.b = 3 then w.bcastData g p else w.ringData g p
    (w1.bind (CollW.pump (2 + c.segs.length + w.segs))).close

/-! ### CTS, DONE and COUNTS -/

/-- The next CTS of a segment, its granules allocated: to the upstream member, or for a broadcast to every neighbour on a line, for the
member does not know on which side the root lies (log entry 31). A CTS sent again asks for its unit again (R399). -/
def CollW.askUnit (w : CollW) (g : CollSeg) : CollW :=
  let dg := collDigest w.s w.c.half w.c.g w.b
  if clOp w.b = 3 then
    let u := g.came.length
    if unitsOf (elemSize (clFmt w.b)) g.vals.length ≤ u then w
    else
      let nbrs := (List.range w.x.axes.length).flatMap fun a => (lineNbrs w.s w.c.half w.x a).map fun p => (a, p.2)
      ((nbrs.foldl (fun w p => w.inject p.2 2 (ctlFields w.c 0 p.1 true 0 u dg g.k) []) w).bind fun w =>
        w.setSeg { g with cts := true }).fly ⟨g.k, 0, 0, u, 0⟩
  else if w.phases.length ≤ g.rxP then w
  else
    let q := w.phase g.rxP
    ((w.inject (w.up g.rxP) 2 (ctlFields w.c 0 q.2 q.1 g.rxT g.rxU dg g.k) []).bind fun w =>
      w.setSeg { g with cts := true, got := [] }).fly ⟨g.k, g.rxP, g.rxT, g.rxU, w.up g.rxP⟩

/-- The CTS of a segment's next unit, sent when the unit's granules are allocated (R404): a segment whose granules a reclaim has taken
waits for others. -/
def CollW.sendCts (w : CollW) (g : CollSeg) : CollW :=
  if w.second g.k = true ∧ 0 < w.lacks then { w with s := waitGranules w.s w.c.half reductionClass w.lacks none }
  else w.askUnit g

/-- A CTS received by a running COLL: a digest that differs aborts; the unit is sent once its data is here, or again from
the copy kept (R399, R404, R405). -/
def CollW.takeCts (w : CollW) (p : Packet) : CollW :=
  let t := p.transport
  let a := fieldAt t 9 1 / 64
  let gather := (fieldAt t 9 1).testBit 5
  let u := fieldAt t 11 1 + 256 * fieldAt t 20 2
  let k := fieldAt t 16 4
  let step := fieldAt t 10 1
  if fieldAt t 12 4 ≠ collDigest w.s w.c.half w.c.g w.b then w.abort 1 0
  else
    let ph := if clOp w.b = 3 then a else (w.phases.findIdx? fun q => q == (gather, a)).getD w.phases.length
    let z := if clOp w.b = 3 then elemSize (clFmt w.b) else w.wire ph
    match w.c.sent.find? fun x => x.seg == k && x.phase == ph && x.unit == u && x.node == p.src &&
        (if clOp w.b = 3 then !x.bytes.isEmpty else x.step == step) with
    | some x => (w.sendUnit p.src k a gather x.step u z (if gather then clFmt w.b else 6) x.bytes)
    | none => { w with c := { w.c with cts := w.c.cts ++ [⟨k, ph, step, u, p.src⟩] } }

/-- A DONE received: the copy of the unit is released (R404). -/
def CollW.takeDone (w : CollW) (p : Packet) : CollW :=
  let t := p.transport
  let a := fieldAt t 9 1 / 64
  let ph := if clOp w.b = 3 then a
    else (w.phases.findIdx? fun q => q == ((fieldAt t 9 1).testBit 5, a)).getD w.phases.length
  let u := fieldAt t 11 1 + 256 * fieldAt t 20 2
  let keep (x : SentUnit) : Bool := !(x.seg == fieldAt t 16 4 && x.phase == ph && x.step == fieldAt t 10 1 && x.unit == u &&
    x.node == p.src)
  if clOp w.b = 3 then { w with c := { w.c with sent := w.c.sent.map fun x => if keep x then x else { x with bytes := [] } } }
  else { w with c := { w.c with sent := w.c.sent.filter keep } }

/-- COUNTS received: the counts of its ranks are taken and sent on along the axis (R395). -/
def CollW.takeCounts (w : CollW) (p : Packet) : CollW :=
  let t := p.transport
  let a := fieldAt t 9 1 / 64
  let step := fieldAt t 10 1
  let r0 := fieldAt t 16 4
  let vals := bytesVals 4 (p.payload.length / 4) p.payload
  let counts := (List.range w.c.counts.length).map fun r =>
    if r0 ≤ r ∧ r < r0 + vals.length then some (vals.getD (r - r0) 0) else w.c.counts.getD r none
  let w1 := { w with c := { w.c with counts := counts } }
  let e := w.x.e a
  if step + 2 < e then w1.sendCounts a (step + 1) ((w.x.i a + 2 * e - step - 1) % e) else w1

/-! ### Notch operations (R410 to R413) -/

/-- VALUE or BCAST sent to the neighbour of a direction on a line, by the link between them (R411). -/
def CollW.sendNotch (w : CollW) (kind a dir sidx origin : Nat) (vals : List Nat) : CollW :=
  match (lineNbrs w.s w.c.half w.x a).find? fun p => p.1 == dir with
  | none => w
  | some p => w.injectPkt (linePacket w.s w.c.half w.x a p (notchFields w.c.gid w.c.epoch kind a dir sidx vals.length 0 origin
      (collDigest w.s w.c.half w.c.g w.b)) (valBytes 4 vals))

/-- The result of a Notch operation written, and the operation ended, with its latency kept (R411, R414). -/
def CollW.notchEnd (w : CollW) (vals : List Nat) : CollW :=
  let q := w.convert vals
  let w1 := q.1.store (clDst w.b) (valBytes (elemSize (clFmt w.b)) q.2)
  w1.bind fun w =>
    let h := w.c.half
    let lat := w.s.mt h - w.c.startMt
    let s1 := w.s.wr (.coll .NOTCH_LAT_MAX) h (max (w.s.rd (.coll .NOTCH_LAT_MAX) h) (min lat 0xFFFFFFFF))
    let s2 := endColl (countColl s1 w.c) w.c
    { w with s := mapChains s2 fun d => if d.readNo = w.c.chainNo then d.finish ST_OK else d }

/-- The values of an axis position are all here. -/
def CollW.lineVals (w : CollW) (a : Nat) : Option (List (List Nat)) :=
  let l := (List.range (w.x.e a)).map fun i => (w.c.nvals.find? fun v => v.1 == a && v.2.1 == i).map (·.2.2)
  if l.all fun v => v.isSome then some (l.map fun v => v.getD []) else none

/-- The reduction of a line in ascending index order (R411). -/
def reduceLine (k : Nat) : List (List Nat) → List Nat
  | [] => []
  | v :: r => r.foldl (fun acc y => List.zipWith (redOp k) acc y) v

/-- This member's value of an axis position placed and sent to both neighbours. -/
def CollW.notchBegin (w : CollW) (vals : List Nat) : CollW :=
  let a := w.c.naxis
  if w.x.axes.length ≤ a then w
  else
    let w1 : CollW := { w with c := { w.c with nvals := w.c.nvals ++ [(a, w.x.i a, vals)] } }
    (w1.sendNotch 0 a 0 (w.x.i a) (myNode w.s w.c.half) vals).sendNotch 0 a 1 (w.x.i a) (myNode w.s w.c.half) vals

/-- Lines reduced while they are complete; after the last axis the result is written (R411). -/
def CollW.notchGo : Nat → CollW → List Nat → CollW
  | 0, w, _ => w
  | n + 1, w, vals =>
    if w.x.axes.length ≤ w.c.naxis then w.notchEnd vals
    else match w.lineVals w.c.naxis with
      | none => w
      | some l =>
        let v := reduceLine (clRed w.b) l
        let w1 : CollW := { w with c := { w.c with naxis := w.c.naxis + 1 } }
        (w1.notchBegin v).bind fun w => CollW.notchGo n w v

/-- BCAST sent on by the rule of R394, with the originator's index along each axis (Table 12.5). -/
def CollW.notchSpread (w : CollW) (came : Option (Nat × Nat)) (origin : Nat) (vals : List Nat) : CollW :=
  ((List.range w.x.axes.length).flatMap fun a => [(a, 0), (a, 1)]).foldl (fun w p =>
    let d := w.x.axes.getD p.1 0
    let sidx := coord origin d - boxOrigin w.s w.c.half w.x.g d
    if bcastMay came p.1 p.2 then w.sendNotch 1 p.1 p.2 sidx origin vals else w) w

/-- A Notch operation begins: the operand is read, and injected (R411, R412). The root of a broadcast keeps its value. -/
def CollW.notchStart (w : CollW) : CollW :=
  let n := clCount w.b
  let z := elemSize (clFmt w.b)
  if clOp w.b = 3 ∧ clSrc w.b = 0 then w
  else
    let r := readAt w.s (engine w.c.half w.fn) (clSrc w.b) (n * z)
    if r.1 ≠ ST_OK then { w with s := r.2.1 }.abort 3 r.1
    else
      let v := (bytesVals z n r.2.2).map fun v => toF32 (decodeElem (clFmt w.b) v)
      let w1 : CollW := { w with s := r.2.1 }
      if clOp w.b = 3 then { w1 with c := { w1.c with nvals := [(0, 0, v)] } }.notchSpread none (myNode w.s w.c.half) v
      else (w1.notchBegin v).bind fun w => CollW.notchGo 4 w v

/-- The root of a Notch broadcast ends, unless a value that had been held for it has met it with a second root (R412). -/
def CollW.rootEnd (w : CollW) : CollW :=
  match w.c.nvals.head? with
  | some v => if clOp w.b = 3 then w.notchEnd v.2.2 else w
  | none => w

/-- A VALUE received: forwarded along its line, and kept; a digest that differs aborts (R411, R413). -/
def CollW.takeValue (w : CollW) (p : Packet) : CollW :=
  let t := p.transport
  let a := fieldAt t 9 1 / 64
  let dir := fieldAt t 9 1 / 32 % 2
  let sidx := fieldAt t 10 1
  let vals := bytesVals 4 (p.payload.length / 4) p.payload
  if fieldAt t 16 4 ≠ collDigest w.s w.c.half w.c.g w.b then w.abort 1 0
  else if clOp w.b = 3 ∨ (w.c.nvals.any fun v => v.1 == a && v.2.1 == sidx) = true then w
  else
    let w1 := { w with c := { w.c with nvals := w.c.nvals ++ [(a, sidx, vals)] } }
    (w1.sendNotch 0 a dir sidx (fieldAt t 14 2 % 4096) vals).bind fun w => CollW.notchGo 4 w []

/-- A BCAST received: a root aborts; else the value is sent on and written (R412). -/
def CollW.takeBcast (w : CollW) (p : Packet) : CollW :=
  let t := p.transport
  let a := fieldAt t 9 1 / 64
  let dir := fieldAt t 9 1 / 32 % 2
  let vals := bytesVals 4 (p.payload.length / 4) p.payload
  if clSrc w.b ≠ 0 then w.abort 4 0
  else (w.notchSpread (some (a, dir)) (fieldAt t 14 2 % 4096) vals).bind fun w => w.notchEnd vals

/-- A Notch operation's work put back. -/
def CollW.closeNotch (w : CollW) : State :=
  match w.err with
  | some e => originateAbort (putColl w.s w.c) w.c e.1 e.2
  | none => putColl w.s w.c

end Sys2Proof.Machine
end

