-- ==== Sys2Proof/Machine/RegRead.lean ====
section
/-!
DEFINITION. Machine/RegRead.lean: the value of a register of Table 4.4 from its fields, and the bytes of a run of registers.
-/

namespace Sys2Proof.Machine

/-- A field as its register shows it: CORE_OK_Tn is all zero while TDIE_OK bit n is 0 (Table 1.17), and EVC_INFO and REQ_INFO copy the
allotment of the function's partition, 0 for the PF (Table 5.13). -/
def shown (s : State) (f : Fld) (k : Half) (i : Nat) : Nat :=
  match f with
  | .pkg .CORE_OK => if (s.rd (.pkg .PKG_MAP_TDIE_OK) .h0).testBit i then s.rd f k i else 0
  | .desc .EVC_INFO => if i < pf then s.rd (.desc .EVC_ALLOC_BASE) k i * 65536 + s.rd (.desc .EVC_ALLOC_COUNT) k i else 0
  | .desc .REQ_INFO => if i < pf then s.rd (.desc .REQ_ALLOC_BASE) k i * 65536 + s.rd (.desc .REQ_ALLOC_COUNT) k i else 0
  | _ => s.rd f k i

/-- The value that a register reads as, by the instance of its fields: its fields at their places, write-only fields and unnamed
bits reading zero (R24); a package-wide register is held once. -/
def regValue (s : State) (r : RegRow) (i : Nat) (h : Half) : Nat :=
  let k := if r.wide then Half.h0 else h
  r.fields.foldl (fun a f => if f.acc = .wo then a else a + shown s f.fld k i * 2 ^ f.lo) 0

/-- The value of register number `n` of a row. -/
def rowValue (s : State) (r : RegRow) (n : Nat) (h : Half) : Nat := regValue s r (r.idx0 + n) h

/-- The bytes of the registers at an offset of the PF's BAR0. -/
def regBytes (s : State) (h : Half) (off : Nat) : Nat → List Byte
  | 0 => []
  | n + 1 =>
    (match lookupReg pfMap off with
     | some p => BitVec.ofNat 8 (rowValue s p.1 p.2.1 h / 256 ^ p.2.2)
     | none => 0) :: regBytes s h (off + 1) n

end Sys2Proof.Machine
end

