-- ==== Sys2Proof/Machine/Coolant.lean ====
section
/-!
DEFINITION. Machine/Coolant.lean: plateau changes (R60 to R65) and the thermal loop (R66 to R75, R96, R581).
-/

namespace Sys2Proof.Machine

/-! ### PWM shadows and transfers, which the loop uses (R76 to R80) -/

/-- A PERIOD that a channel may run with (R77). -/
def pwmPeriodOk (p : Nat) : Bool := decide (2500 ≤ p ∧ p ≤ 250000)

/-- A shadow written; a pending transfer is disarmed by it (R79). -/
def pwmShadow (s : State) (h : Half) (n : Nat) (r : PwmReg) (v : Nat) : State :=
  let s1 := match r with
    | .period => s.wr (.thm .PWM_PERIOD) h v n
    | .duty => s.wr (.thm .PWM_DUTY) h v n
  if s.rd (.thm .PWM_STATUS_UPD_PEND) h n = 1 then
    raiseCause (((s1.wr (.thm .PWM_STATUS_UPD_PEND) h 0 n).wr (.thm .PWM_SKIP) h 0 n).wr (.thm .PWM_STATUS_DISARMED) h 1 n)
      2 h (2 ^ 9)
  else s1

/-- The count of a running channel's counter: one count is 4 ns, and the counter was 0 at PWM_T0 (R76; log entry 15). -/
def pwmCount (s : State) (h : Half) (n : Nat) : Nat := (s.mt h - s.rd (.thm .PWM_T0) h n) / 4

/-- The running counter has reached its reload cycle, in which the count equals the active PERIOD − 1 (R78). -/
def pwmAtReload (s : State) (h : Half) (n : Nat) : Bool :=
  s.rd (.thm .PWM_CTL_EN) h n == 1 && decide (s.rd (.thm .PWM_ACT_PERIOD) h n ≤ pwmCount s h n + 1)

/-- UPDATE: nothing when it is armed already (R79); else the transfer armed, for the reload after next where it is registered in the
reload cycle itself, or refused for its PERIOD (R78, R80). -/
def pwmArm (s : State) (h : Half) (n : Nat) : State :=
  if s.rd (.thm .PWM_STATUS_UPD_PEND) h n = 1 then s
  else if pwmPeriodOk (s.rd (.thm .PWM_PERIOD) h n) then
    let s1 := s.wr (.thm .PWM_STATUS_LAST_STATUS) h ST_OK n
    (s1.wr (.thm .PWM_STATUS_UPD_PEND) h 1 n).wr (.thm .PWM_SKIP) h (bit (pwmAtReload s h n)) n
  else s.wr (.thm .PWM_STATUS_LAST_STATUS) h ST_PWM_RANGE n

/-- Both shadows moved to the active registers together (R78). -/
def pwmTransfer (s : State) (h : Half) (n : Nat) : State :=
  (((s.wr (.thm .PWM_ACT_PERIOD) h (s.rd (.thm .PWM_PERIOD) h n) n).wr
    (.thm .PWM_ACT_DUTY) h (s.rd (.thm .PWM_DUTY) h n) n).wr (.thm .PWM_STATUS_UPD_PEND) h 0 n).wr (.thm .PWM_SKIP) h 0 n

/-- EN going from 0 to 1: the shadows move at once and the counter starts at 0, or EN stays 0 with ST_PWM_RANGE (R80). -/
def pwmStart (s : State) (h : Half) (n : Nat) : State :=
  if pwmPeriodOk (s.rd (.thm .PWM_PERIOD) h n) then
    (((pwmTransfer s h n).wr (.thm .PWM_T0) h (s.mt h) n).wr (.thm .PWM_CTL_EN) h 1 n).wr (.thm .PWM_STATUS_LAST_STATUS) h ST_OK n
  else s.wr (.thm .PWM_STATUS_LAST_STATUS) h ST_PWM_RANGE n

/-- The aux output of a channel. -/
def pwmPin (n : Nat) : AuxPin := if n = 0 then .pwm0 else if n = 1 then .pwm1 else if n = 2 then .pwm2 else .pwm3

/-- The electrical level of a channel's active and inactive output: 2 high, 1 low (R76). -/
def pwmActiveLevel (s : State) (h : Half) (n : Nat) : Nat := if s.rd (.thm .PWM_CTL_POL) h n = 0 then 2 else 1
def pwmIdleLevel (s : State) (h : Half) (n : Nat) : Nat := if s.rd (.thm .PWM_CTL_POL) h n = 0 then 1 else 2

/-- What a channel puts on its pin: the inactive level with EN = 0 or DUTY = 0, the active level with DUTY at or above PERIOD, and else
its waveform (R76, R77, R80). -/
def pwmLevel (s : State) (h : Half) (n : Nat) : Nat :=
  let duty := s.rd (.thm .PWM_ACT_DUTY) h n
  if s.rd (.thm .PWM_CTL_EN) h n = 0 ∨ duty = 0 then pwmIdleLevel s h n
  else if s.rd (.thm .PWM_ACT_PERIOD) h n ≤ duty then pwmActiveLevel s h n
  else 3

/-- The level of a running channel's output at this moment: active while the count is below DUTY (R76). -/
def pwmOutput (s : State) (h : Half) (n : Nat) : Nat :=
  if pwmLevel s h n ≠ 3 then pwmLevel s h n
  else if pwmCount s h n % s.rd (.thm .PWM_ACT_PERIOD) h n < s.rd (.thm .PWM_ACT_DUTY) h n then pwmActiveLevel s h n
  else pwmIdleLevel s h n

/-- A channel holds its pin: PWM0 and PWM1 always, PWM2 and PWM3 as AUX_OWNER says (R88, R90). -/
def pwmHoldsPin (s : State) (h : Half) (n : Nat) : Bool := n < 2 || s.rd (pinOwner (n - 2)) h == 1

/-- A channel's output put on its pin, if it holds it (R90). -/
def pwmDrive (s : State) (h : Half) (n : Nat) : State :=
  if pwmHoldsPin s h n then drivePin s h (pwmPin n) (pwmLevel s h n) else s

/-- The loop's duty for a channel: the shadow written and UPDATE armed (R69). -/
def loopDuty (s : State) (h : Half) (n pct : Nat) : State :=
  pwmArm (pwmShadow s h n .duty (s.rd (.thm .PWM_PERIOD) h n * pct / 25600)) h n

/-- The loop's duties: pump on PWM0, valve on PWM1. -/
def loopDuties (s : State) (h : Half) (pump valve : Nat) : State :=
  ((loopDuty (loopDuty s h 0 pump) h 1 valve).wr (.thm .PUMP_PREV) h pump).wr (.thm .VALVE_PREV) h valve

/-- The active duty of a channel as a Q8.8 percentage. -/
def activePct (s : State) (h : Half) (n : Nat) : Nat :=
  let p := s.rd (.thm .PWM_ACT_PERIOD) h n
  if p = 0 then 0 else min (s.rd (.thm .PWM_ACT_DUTY) h n) p * 25600 / p

/-! ### Plateau changes -/

/-- PLAT_STATUS.LAST_STATUS set. -/
def platStatus (s : State) (h : Half) (status : Nat) : State := s.wr (.thm .PLAT_STATUS_LAST_STATUS) h status

/-- An event record of the plateau to every partition of both halves with an open request (R62, R165). -/
def platEvents (s : State) (h : Half) (status mt : Nat) : State :=
  let d := s.rd (.thm .PLAT_STATUS_TARGET) h * 4 + s.rd (.thm .PLAT_STATUS_CUR) h
  let send (t : State) (x : Half) : State :=
    ((List.range 64).filter fun p => t.partyOpen x p).foldl (fun u fn => postEvent u x fn status mt d) t
  send (send s .h0) .h1

/-- Dispatch stops on a half at S: no new tile pass (R62, R64). -/
def dispatchStop (s : State) (h : Half) : State := (s.wr (.thm .DISPATCH_STOP) h 1).wr (.thm .STOP_MT) h (s.mt h)

/-- Dispatch resumes on a half; the time it was stopped is not counted by the watchdog of its contexts (R513). -/
def dispatchResume (s : State) (h : Half) : State :=
  if s.rd (.thm .DISPATCH_STOP) h = 1 then
    let t0 := s.rd (.thm .STOP_MT) h
    let shift (x : Context) : Context := if x.half = h then { x with boundaryMt := x.boundaryMt + (s.mt h - max t0 x.boundaryMt) } else x
    { s with contexts := s.contexts.map shift }.wr (.thm .DISPATCH_STOP) h 0
  else s

/-- A half has a copy of the notice of a pending change (R65). -/
def platNoted (s : State) (h : Half) : Bool := s.rd (.thm .PLAT_NOTE) h != 0

/-- The notice of a change reaches a half: its own copy of the target and of S (R65). -/
def platNotice (s : State) (h : Half) (target at_ acc : Nat) : State :=
  (((s.wr (.thm .PLAT_NOTE) h (target + 1)).wr (.thm .PLAT_NOTE_S) h at_).wr (.thm .PLAT_PLL) h 0).wr (.thm .PLAT_ACC) h acc

/-- A half's copy of the notice dropped: dispatch goes on, but in Lowland mode. -/
def platForget (s : State) (h : Half) : State :=
  let s1 := (s.wr (.thm .PLAT_NOTE) h 0).wr (.thm .PLAT_PLL) h 0
  if platNoted s h ∧ s.lowland h = false then dispatchResume s1 h else s1

/-- A change accepted: S recorded, the notice posted, and the other half told while the Pass carries it (R62, R65). -/
def platAccept (s : State) (h : Half) (target noticeNs : Nat) (byLoop : Bool) : State :=
  let at_ := s.mt h + noticeNs
  let s1 := (((s.wr (.thm .PLAT_SWITCH_TIME) h at_).wr (.thm .PLAT_STATUS_TARGET) h target).wr
    (.thm .PLAT_STATUS_PENDING) h 1).wr (.thm .PLAT_STATUS_SOURCE) h (bit byLoop)
  let s2 := platNotice s1 h target at_ (s.mt h)
  let s3 := if s.lanesUp then (platNotice s2 h.other target at_ (s.mt h)).emit (.interHalf h (.plateau target at_)) else s2
  platEvents (raiseCause (platStatus s3 h ST_PLATEAU_CHANGE) 2 h 1) h ST_PLATEAU_CHANGE at_

/-- A pending change withdrawn: PLAT_CANCEL set and ST_CANCELLED sent; a half cut off keeps its copy (R65). TARGET then reads the level in
force (DESIGN CHOICE, log entry 58: Table 2.10 states no value). -/
def platWithdraw (s : State) (h : Half) : State :=
  if s.rd (.thm .PLAT_STATUS_PENDING) h = 1 then
    let s1 := platEvents (raiseCause s 2 h 4) h ST_CANCELLED (s.mt h)
    let s2 := ((s1.wr (.thm .PLAT_STATUS_PENDING) h 0).wr (.thm .PLAT_STATUS_TARGET) h (s.rd (.thm .PLAT_STATUS_CUR) h)).wr
      (.thm .PLAT_STATUS_SOURCE) h 0
    let s3 := platForget s2 h
    if s.lanesUp then platForget s3 h.other else s3
  else s

/-- The refusal of an operator's request, if Table 2.4, R96 or R123 refuses it; ST_OK when the level is already the
target. Until step 13 of start-up no level but P2 is used (R112, R115), and a change is refused as R5 asks (log entry 60). -/
def platRefusal (s : State) (h : Half) (noticeMs target : Nat) : Option Nat :=
  if noticeMs < 2 ∨ 100 < noticeMs then some ST_PLATEAU_RANGE
  else if s.lowland h then some ST_LOWLAND
  else if target = 3 then some ST_PLATEAU_RANGE
  else if s.rd (.thm .PLAT_STATUS_PENDING) h = 1 then some ST_PLATEAU_BUSY
  else if target = s.rd (.thm .PLAT_STATUS_CUR) h then some ST_OK
  else if target < 2 ∧ s.rd (.thm .THERM_STATUS_STATE) h ≠ 2 then some ST_THERM_NOT_RUN
  else if s.rd (.boot .COMPUTE_READY_DONE) .h0 = 0 then some ST_ID_RANGE
  else none

/-- PLAT_REQUEST (R61, R62, R65): the operator's request, accepted or refused. A half without the roles discards it
(R66). -/
def execPlatRequest (h : Half) (noticeMs target : Nat) (s : State) : Res :=
  if s.holds h then
    let s1 := if noticeMs < 2 ∨ 100 < noticeMs then s
      else (s.wr (.thm .PLAT_CTL_NOTICE_MS) h noticeMs).wr (.thm .PLAT_CTL_TARGET) h target
    match platRefusal s h noticeMs (target % 4) with
    | some status => .next (platStatus s1 h status)
    | none => .next (platAccept s1 h (target % 4) (noticeMs * 1000000) false)
  else .next s

/-- PLAT_CANCEL (R65): an operator's change withdrawn before S, else ST_PLATEAU_BUSY. -/
def execPlatCancel (h : Half) (s : State) : Res :=
  if s.holds h then
    if s.rd (.thm .PLAT_STATUS_PENDING) h = 1 ∧ s.rd (.thm .PLAT_STATUS_SOURCE) h = 0 ∧
        s.mt h < s.rd (.thm .PLAT_SWITCH_TIME) h ∧ s.rd (.thm .DISPATCH_STOP) h = 0 then
      .next (platStatus (platWithdraw s h) h ST_OK)
    else .next (platStatus s h ST_PLATEAU_BUSY)
  else .next s

/-- PLAT_PLL_LOCKED (R62): the second PLL of a die has locked at the target of its half's copy. -/
def execPlatPllLocked (die : Fin 8) (s : State) : Res :=
  let h := Half.ofNum (die.val / 4)
  if platNoted s h then .next (s.wr (.thm .PLAT_PLL) h (setBits (s.rd (.thm .PLAT_PLL) h) (2 ^ die.val))) else .next s

/-- Every powered die of a half has its second PLL locked. -/
def platPllsLocked (s : State) (h : Half) : Bool :=
  (List.range 8).all fun d => Half.ofNum (d / 4) != h || s.rd (.boot .DIE_PWR_EN) .h0 d == 0 || (s.rd (.thm .PLAT_PLL) h).testBit d

/-- A powered die's second PLL has not locked 200 µs after acceptance. -/
def platLate (s : State) (h : Half) : Bool :=
  platNoted s h && !(platPllsLocked s h) && decide (s.rd (.thm .PLAT_ACC) h + 200000 ≤ s.mt h)

/-- PLAT_PLL_TIMEOUT (R65): the change is withdrawn on every die that the holder reaches; a half cut off drops its own copy. -/
def execPlatPllTimeout (s : State) : Res :=
  let h := s.chipHalf
  let s1 := if s.rd (.thm .PLAT_STATUS_PENDING) h = 1 ∧ (platLate s h = true ∨ (s.lanesUp = true ∧ platLate s h.other = true)) then
    platStatus (platWithdraw s h) h ST_PLL_LOCK else s
  .next (if platLate s1 h.other then platForget s1 h.other else s1)

/-- PLAT_SWITCH_TIME (R62, R65): each half that has reached S of its own copy stops dispatching new tile passes. -/
def execPlatSwitchTime (s : State) : Res :=
  let one (t : State) (x : Half) : State :=
    if platNoted s x ∧ s.rd (.thm .PLAT_NOTE_S) x ≤ s.mt x ∧ s.rd (.thm .DISPATCH_STOP) x = 0 then dispatchStop t x else t
  .next (one (one s .h0) .h1)

/-- No core of a half is inside a tile pass (R62, step 5). -/
def platDrained (s : State) (h : Half) : Bool := s.contexts.all fun x => x.half != h || x.inArray == 0

/-- A half may switch: stopped at S, drained, its second PLLs locked (R62). -/
def platDue (s : State) (h : Half) : Bool :=
  platNoted s h && s.rd (.thm .DISPATCH_STOP) h == 1 && platDrained s h && platPllsLocked s h

/-- The arrays of a half run at the target of its copy and dispatch resumes; the half with the roles records the change (R62, R65). -/
def platSwitch (s : State) (h : Half) : State :=
  let t := s.rd (.thm .PLAT_NOTE) h - 1
  let s1 := dispatchResume ((s.wr (.thm .ARR_LEVEL) h t).wr (.thm .PLAT_NOTE) h 0) h
  if s.holds h then
    let src := s.rd (.thm .PLAT_STATUS_SOURCE) h
    let levels := t * 4 + s.rd (.thm .PLAT_STATUS_CUR) h
    let s2 := ((s1.wr (.thm .PLAT_STATUS_CUR) h t).wr (.thm .PLAT_STATUS_TARGET) h t).wr (.thm .PLAT_STATUS_PENDING) h 0
    let s3 := bump (ledger s2 h 7 (leBytes 1 levels ++ leBytes 1 src)) h 4 7 1
    raiseCause (s3.wr (.thm .PLAT_STATUS_SOURCE) h 0) 2 h 2
  else s1

/-- PLAT_DRAIN_DONE (R62, R65): the chip is drained and the second PLLs are locked; the multiplexers switch, dispatch resumes and PLAT_DONE
is set. While the Pass is down each half goes by itself. -/
def execPlatDrainDone (s : State) : Res :=
  let go (h : Half) : Bool := platDue s h && (!(s.lanesUp) || !(platNoted s h.other) || platDue s h.other)
  let s1 := if go .h0 then platSwitch s .h0 else s
  .next (if go .h1 then platSwitch s1 .h1 else s1)

/-- The loop's step-down accepted: it waits no more, and the AUTO_DOWN_MS run starts anew (DESIGN CHOICE, log entry 58: the spec does not
say when a second step-down is due while the demand stays forced). -/
def platStepDown (s : State) (h : Half) : State :=
  ((platAccept s h (s.rd (.thm .PLAT_STATUS_CUR) h + 1) 2000000 true).wr (.thm .DOWN_WAIT) h 0).wr (.thm .TJ_RUN) h 0

/-- The loop's request for the next lower level (R73, Table 2.4): below P2 there is none; an operator's step-up that is pending is
withdrawn, and any other pending change is waited for. -/
def platLoopRequest (s : State) (h : Half) : State :=
  let cur := s.rd (.thm .PLAT_STATUS_CUR) h
  if 2 ≤ cur then s
  else if s.rd (.thm .PLAT_STATUS_PENDING) h = 1 then
    if s.rd (.thm .PLAT_STATUS_SOURCE) h = 0 ∧ s.rd (.thm .PLAT_STATUS_TARGET) h < cur then platStepDown (platWithdraw s h) h
    else s.wr (.thm .DOWN_WAIT) h 1
  else platStepDown s h

/-! ### The thermal loop -/

/-- THERM_STATUS.LAST_STATUS set (R96). -/
def thermStatus (s : State) (h : Half) (status : Nat) : State := s.wr (.thm .THERM_STATUS_LAST_STATUS) h status

/-- A Lowland cause that has arisen (R120): bit 3 SECURITY, 2 RESET, 1 NO_COMPUTE, 0 THERM. -/
def lowlandCause (s : State) (bits : Nat) : State :=
  (s.wr (.boot .LOW_PEND) .h0 (setBits (s.rd (.boot .LOW_PEND) .h0) bits)).wr (.boot .LOW_STATUS) .h0 0

/-- The loop enters FAIL: THERM_FAIL set, both duties forced to 100 %, a pending change withdrawn, and the Lowland cause
THERM raised (R72, R65, R120); counted by its condition, `crit` for TJ_CRIT (Table 17.8), once its LOWLAND_IN record is accepted (R560), or
at once where THERM is latched already and no record follows. THERM_STATUS.FORCED and THERM_CTL.MODE stay as they were (DESIGN CHOICE, log
entry 58). -/
def thermFail (s : State) (h : Half) (crit : Bool) : State :=
  let s1 := loopDuties (s.wr (.thm .THERM_STATUS_STATE) h 4) h 25600 25600
  let k := if crit then 5 else 6
  let s2 := platWithdraw (raiseCause s1 2 h (2 ^ 5)) h
  lowlandCause (if (s.rd (.boot .LOWLAND_STATUS_CAUSE) .h0).testBit 0 then fuseEvent s2 k else s2.inc (.tel .FUSE_HELD) .h0 1 k) 1

/-- The flow meter's channel in mode 2, where nothing has set it (R82; log entry 10). -/
def flowMeterOn (s : State) (h : Half) : State :=
  if s.rd (.thm .FB_CTL_MODE) h 2 = 0 then s.wr (.thm .FB_CTL_MODE) h 2 2 else s

/-- The loop enters PRIME with its fixed duties and its outputs enabled, and its flow meter counting (Table 2.5, R82, R107). -/
def thermPrime (s : State) (h : Half) : State :=
  let s1 := loopDuties (s.wr (.thm .THERM_STATUS_STATE) h 1) h (s.rd (.thm .THERM_PRIME_PUMP) h) (s.rd (.thm .THERM_PRIME_VALVE) h)
  let s2 := if s.rd (.thm .PWM_CTL_EN) h 0 = 1 then s1 else pwmStart s1 h 0
  let s3 := if s.rd (.thm .PWM_CTL_EN) h 1 = 1 then s2 else pwmStart s2 h 1
  let s4 := pwmDrive (pwmDrive s3 h 0) h 1
  let s5 := (s4.wr (.thm .TJ_OVER) h 0).wr (.thm .SENS_RUN) h 0
  let s6 := (s5.wr (.thm .HOT_RUN) h 0).wr (.thm .TJ_RUN) h 0
  flowMeterOn ((s6.wr (.boot .SETTLE_RUN) .h0 0).wr (.boot .SETTLE_REF_V) .h0 0) h

/-- d_now: the demand that reproduces the present active duties (R70). -/
def demandNow (s : State) (h : Half) : Nat :=
  let p := activePct s h 0
  let v := activePct s h 1
  let split := s.rd (.thm .THERM_SPLIT_SPLIT) h
  let pmin := s.rd (.thm .THERM_RANGE_P_PMIN) h
  let pmax := s.rd (.thm .THERM_RANGE_P_PMAX) h
  let vmin := s.rd (.thm .THERM_RANGE_V_VMIN) h
  let vmax := s.rd (.thm .THERM_RANGE_V_VMAX) h
  if pmin < p then
    if pmax = pmin then 25600 else min 25600 (split + (p - pmin) * (25600 - split) / (pmax - pmin))
  else if vmax = vmin then 0 else min split ((v - vmin) * split / (vmax - vmin))

/-- kp · e / 256, with e in 1/256 °C (R69). -/
def proportional (s : State) (h : Half) (e : Int) : Int := ((s.rd (.thm .THERM_GAIN_KP) h : Int) * e).tdiv 256

/-- The control error e = t_out − t_out_set. -/
def loopError (s : State) (h : Half) : Int :=
  signedOf 16 (s.rd (.thm .THERM_MEAS0_T_OUT) h) - signedOf 16 (s.rd (.thm .THERM_SET0_T_OUT_SET) h)

/-- The bumpless transfer on entry to RUN and on a takeover (R70). -/
def bumpless (s : State) (h : Half) : State :=
  let integ := clampInt 0 25600 ((demandNow s h : Int) - proportional s h (loopError s h))
  ((s.wr (.thm .INTEG) h integ.toNat).wr (.thm .PUMP_PREV) h (activePct s h 0)).wr (.thm .VALVE_PREV) h (activePct s h 1)

/-- The loop enters RUN (R70, R74, R108). -/
def thermRun (s : State) (h : Half) : State :=
  let s1 := bumpless s h
  ((((s1.wr (.thm .THERM_STATUS_STATE) h 2).wr (.thm .TJ_OVER) h 0).wr (.thm .FB_STOP) h 0).wr
    (.thm .TJ_RUN) h 0).wr (.thm .THERM_STATUS_FORCED) h 0

/-- THERM_START (R68): OFF to PRIME, else ST_THERM_CONFIG. -/
def execThermStart (h : Half) (s : State) : Res :=
  if s.holds h then
    if s.rd (.thm .THERM_STATUS_STATE) h = 0 then .next (thermStatus (thermPrime s h) h ST_OK)
    else .next (thermStatus s h ST_THERM_CONFIG)
  else .next s

/-- The sensor readings of a period recorded: an unreadable CT_OUT repeats the previous value and counts toward
SENS_LOSS; either failure sets THERM_EVENT.SENS_LOSS (R69, R72 and "At the edges"). -/
def loopSense (s : State) (h : Half) (tIn tOut : Option Nat) (tj : Nat) : State :=
  let s1 := match tIn with
    | some t => s.wr (.thm .THERM_MEAS0_T_IN) h t
    | none => s
  let s2 := match tOut with
    | some t => ((s1.wr (.thm .THERM_MEAS0_T_OUT) h t).wr (.thm .SENS_RUN) h 0).wr (.thm .CT_OUT_OK) h 1
    | none => (s1.inc (.thm .SENS_RUN) h 1).wr (.thm .CT_OUT_OK) h 0
  let s3 := s2.wr (.thm .THERM_MEAS1_TJ_MAX) h tj
  if tIn = none ∨ tOut = none then raiseCause s3 2 h (2 ^ 8) else s3

/-- TJ_MAX is at or above a limit. -/
def tjAtLeast (s : State) (h : Half) (limit : Nat) : Bool :=
  decide (signedOf 16 limit ≤ signedOf 16 (s.rd (.thm .THERM_MEAS1_TJ_MAX) h))

/-- THERM_EVENT.TJ_WARN on the first period at or above TJ_WARN (R73). -/
def loopTjWarn (s : State) (h : Half) : State :=
  let hot := tjAtLeast s h (s.rd (.thm .THERM_SET1_TJ_WARN) h)
  let s1 := s.wr (.thm .TJ_OVER) h (bit hot)
  if hot ∧ s.rd (.thm .TJ_OVER) h = 0 then raiseCause s1 2 h (2 ^ 3) else s1

/-- fb_stopped of this period (R71). -/
def fbStopped (s : State) (h : Half) : Bool :=
  s.rd (.thm .FB_CTL_MODE) h 0 != 0 && s.rd (.thm .FB_STATUS_STOPPED) h 0 == 1 &&
    (decide (s.rd (.thm .PWM_ACT_DUTY) h 0 < s.rd (.thm .PWM_ACT_PERIOD) h 0) || s.rd (.thm .FB_STOP) h == 1)

/-- fb_stopped updated, with THERM_EVENT.FB_STOPPED when it becomes true (R71). -/
def loopFb (s : State) (h : Half) : State :=
  let b := fbStopped s h
  let s1 := s.wr (.thm .FB_STOP) h (bit b)
  if b ∧ s.rd (.thm .FB_STOP) h = 0 then raiseCause s1 2 h (2 ^ 4) else s1

/-- The integrator after this period (R69): frozen while the demand was forced in the previous period. -/
def integNext (s : State) (h : Half) : Nat :=
  let i := s.rd (.thm .INTEG) h
  if s.rd (.thm .THERM_STATUS_FORCED) h = 1 then i
  else (clampInt 0 25600 ((i : Int) + ((s.rd (.thm .THERM_GAIN_KI) h : Int) * loopError s h * 1000).tdiv 256000000)).toNat

/-- Valve and pump percentages of a demand: the valve opens first (R69). -/
def splitDemand (s : State) (h : Half) (d : Nat) : Nat × Nat :=
  let split := s.rd (.thm .THERM_SPLIT_SPLIT) h
  let pmin := s.rd (.thm .THERM_RANGE_P_PMIN) h
  let pmax := s.rd (.thm .THERM_RANGE_P_PMAX) h
  let vmin := s.rd (.thm .THERM_RANGE_V_VMIN) h
  let vmax := s.rd (.thm .THERM_RANGE_V_VMAX) h
  if d ≤ split then (vmin + (vmax - vmin) * d / split, pmin)
  else (vmax, pmin + (pmax - pmin) * (d - split) / (25600 - split))

/-- A duty moved toward its target by at most `slew` (R69). -/
def stepToward (prev target slew : Nat) : Nat :=
  if prev < target then min target (prev + slew) else max target (prev - slew)

/-- The control law of one period in RUN (R69). -/
def controlLaw (s : State) (h : Half) : State :=
  let integ := integNext s h
  let forced := s.rd (.thm .TJ_OVER) h = 1 ∨ s.rd (.thm .FB_STOP) h = 1
  let d := if forced then 25600 else (clampInt 0 25600 (proportional s h (loopError s h) + (integ : Int))).toNat
  let vp := splitDemand s h d
  let slew := s.rd (.thm .THERM_SPLIT_SLEW) h
  let valve := if forced then vp.1 else stepToward (s.rd (.thm .VALVE_PREV) h) vp.1 slew
  let pump := if forced then vp.2 else stepToward (s.rd (.thm .PUMP_PREV) h) vp.2 slew
  let s1 := ((s.wr (.thm .INTEG) h integ).wr (.thm .THERM_STATUS_FORCED) h (if forced then 1 else 0)).wr
    (.thm .THERM_MEAS1_DEMAND) h d
  loopDuties (if forced then bump s1 h 4 5 1 else s1) h pump valve

/-- The runs of periods that R72 and R73 time: hot at full demand, and forced by TJ_WARN. -/
def loopRuns (s : State) (h : Half) (d : Nat) : State :=
  let hot := decide (signedOf 16 (s.rd (.thm .THERM_SET0_T_OUT_FAIL) h) ≤ signedOf 16 (s.rd (.thm .THERM_MEAS0_T_OUT) h)) &&
    d == 25600
  let s1 := if hot then s.inc (.thm .HOT_RUN) h 1 else s.wr (.thm .HOT_RUN) h 0
  if s.rd (.thm .TJ_OVER) h = 1 then s1.inc (.thm .TJ_RUN) h 1 else s1.wr (.thm .TJ_RUN) h 0

/-- The condition of R73: AUTO_DOWN, and the demand forced by TJ_WARN for AUTO_DOWN_MS without a break. -/
def downDue (s : State) (h : Half) : Bool :=
  s.rd (.thm .THERM_STATUS_STATE) h == 2 && s.rd (.thm .THERM_CTL_AUTO_DOWN) h == 1 &&
    decide (s.rd (.thm .THERM_TIMING_AUTO_DOWN_MS) h < s.rd (.thm .TJ_RUN) h)

/-- A step-down that waited for a pending change: its condition is evaluated again once the change is over (Table 2.4). -/
def loopRetry (s : State) (h : Half) : State :=
  if s.rd (.thm .DOWN_WAIT) h = 1 ∧ s.rd (.thm .PLAT_STATUS_PENDING) h = 0 then
    if downDue s h then platLoopRequest s h else s.wr (.thm .DOWN_WAIT) h 0
  else s

/-- One period in a state other than OFF and FAIL. -/
def loopActive (s : State) (h : Half) : State :=
  let run := s.rd (.thm .THERM_STATUS_STATE) h = 2
  let s1 := loopTjWarn s h
  let s2 := if run then controlLaw (loopFb s1 h) h else s1.wr (.thm .THERM_MEAS1_DEMAND) h (demandNow s1 h)
  let s3 := loopRuns s2 h (s2.rd (.thm .THERM_MEAS1_DEMAND) h)
  let s4 := if run then loopRetry s3 h else s3
  if tjAtLeast s4 h (s4.rd (.thm .THERM_SET1_TJ_CRIT) h) then thermFail s4 h true
  else if s4.rd (.thm .AUX_KEY_CABLE_OK) h = 0 then thermFail s4 h false else s4

/-- What telemetry takes from a loop period: the samples of sources 14 and 15, and the extremes of the next SUMMARY (R549, R553). -/
def loopNotes (s : State) (h : Half) : State :=
  let out := s.rd (.thm .THERM_MEAS0_T_OUT) h
  let tj := s.rd (.thm .THERM_MEAS1_TJ_MAX) h
  let top (a b : Nat) : Nat := if signedOf 16 a < signedOf 16 b then b else a
  let s1 := histSample (histSample s h 14 64 (signedOf 16 out)) h 15 64 (signedOf 16 tj)
  (s1.wr (.tel .SUMMARY_MAX_TJ) .h0 (top (s1.rd (.tel .SUMMARY_MAX_TJ) .h0) tj)).wr (.tel .SUMMARY_MAX_OUT) .h0
    (top (s1.rd (.tel .SUMMARY_MAX_OUT) .h0) out)

/-- THERM_LOOP_PERIOD (R69 to R73): one 1 ms period of the role holder's loop. -/
def execThermLoopPeriod (tIn tOut : Option Nat) (tj : Nat) (s : State) : Res :=
  match s.holder with
  | some h =>
    let st := s.rd (.thm .THERM_STATUS_STATE) h
    if st = 0 then .next s
    else if st = 4 then .next (loopTjWarn (loopNotes (loopSense s h tIn tOut tj) h) h)
    else .next (loopActive (loopNotes (loopSense s h tIn tOut tj) h) h)
  | none => .next s

/-- The loop is in a state that the conditions of R72 can fail. -/
def loopLive (s : State) (h : Half) : Bool :=
  let st := s.rd (.thm .THERM_STATUS_STATE) h
  st == 1 || st == 2 || st == 3

/-- THERM_FAIL_HOLD_EXPIRE (R72, condition 2). -/
def execThermFailHoldExpire (s : State) : Res :=
  let h := s.chipHalf
  if loopLive s h ∧ s.rd (.thm .THERM_TIMING_FAIL_HOLD_MS) h < s.rd (.thm .HOT_RUN) h then .next (thermFail s h false) else .next s

/-- THERM_SENS_LOSS_EXPIRE (R72, condition 1). -/
def execThermSensLossExpire (s : State) : Res :=
  let h := s.chipHalf
  if loopLive s h ∧ s.rd (.thm .THERM_TIMING_SENS_LOSS) h ≤ s.rd (.thm .SENS_RUN) h then .next (thermFail s h false) else .next s

/-- THERM_AUTO_DOWN_EXPIRE (R73): the loop requests the next lower level. -/
def execThermAutoDownExpire (s : State) : Res :=
  let h := s.chipHalf
  if downDue s h then .next (platLoopRequest s h) else .next s

/-! ### Coefficients -/

/-- The two or three fields of a THERM register, with the lowest bit of each in the written word. -/
def thermFields : ThermReg → List (Fld × Nat × Nat)
  | .set0 => [(.thm .THERM_SET0_T_OUT_SET, 16, 0), (.thm .THERM_SET0_T_OUT_FAIL, 0, 0)]
  | .set1 => [(.thm .THERM_SET1_TJ_CRIT, 16, 0), (.thm .THERM_SET1_TJ_WARN, 0, 0)]
  | .gain => [(.thm .THERM_GAIN_KI, 16, 0), (.thm .THERM_GAIN_KP, 0, 0)]
  | .split => [(.thm .THERM_SPLIT_SPLIT, 16, 0), (.thm .THERM_SPLIT_SLEW, 0, 0)]
  | .rangeV => [(.thm .THERM_RANGE_V_VMAX, 16, 0), (.thm .THERM_RANGE_V_VMIN, 0, 0)]
  | .rangeP => [(.thm .THERM_RANGE_P_PMAX, 16, 0), (.thm .THERM_RANGE_P_PMIN, 0, 0)]
  | .timing => [(.thm .THERM_TIMING_SENS_LOSS, 24, 0), (.thm .THERM_TIMING_AUTO_DOWN_MS, 16, 0),
      (.thm .THERM_TIMING_FAIL_HOLD_MS, 0, 0)]
  | .prime => [(.thm .THERM_PRIME_VALVE, 16, 0), (.thm .THERM_PRIME_PUMP, 0, 0)]
  | .fbMinInt n => [(.thm .FB_MIN_INT, 0, n.val)]
  | .fbZs n => [(.thm .FB_ZS_TIMEOUT, 0, n.val)]
  | .fbWindow n => [(.thm .FB_WINDOW, 0, n.val)]

/-- A THERM field that SETUP_LOCK makes read-only (RWL, R143). -/
def thermLocked : Fld → Bool
  | .thm .THERM_SET0_T_OUT_FAIL | .thm .THERM_SET1_TJ_CRIT | .thm .THERM_SET1_TJ_WARN
  | .thm .THERM_TIMING_SENS_LOSS | .thm .THERM_TIMING_FAIL_HOLD_MS => true
  | _ => false

/-- The fields of a THERM register after a write of its word; locked fields keep their value. -/
def thermStore (s : State) (h : Half) (reg : ThermReg) (v : Nat) : State :=
  (thermFields reg).foldl (fun t f =>
    if thermLocked f.1 ∧ s.rd (.host .SETUP_LOCK_LOCK) h = 1 then t
    else t.wr f.1 h (v / 2 ^ f.2.1) f.2.2) s

/-- The ranges that a THERM register must hold after a write (R96, R581). -/
def thermRangesOk (s : State) (h : Half) (reg : ThermReg) : Bool :=
  let r (f : ThmF) : Nat := s.rd (.thm f) h
  match reg with
  | .set0 => decide (signedOf 16 (r .THERM_SET0_T_OUT_FAIL) ≤ 65 * 256) &&
      decide (signedOf 16 (r .THERM_SET0_T_OUT_SET) < signedOf 16 (r .THERM_SET0_T_OUT_FAIL))
  | .set1 => decide (signedOf 16 (r .THERM_SET1_TJ_CRIT) ≤ 105 * 256) &&
      decide (signedOf 16 (r .THERM_SET1_TJ_WARN) < signedOf 16 (r .THERM_SET1_TJ_CRIT))
  | .gain => true
  | .split => decide (256 ≤ r .THERM_SPLIT_SPLIT ∧ r .THERM_SPLIT_SPLIT ≤ 99 * 256 ∧ r .THERM_SPLIT_SLEW ≤ 25600)
  | .rangeV => decide (r .THERM_RANGE_V_VMIN ≤ r .THERM_RANGE_V_VMAX ∧ r .THERM_RANGE_V_VMAX ≤ 25600)
  | .rangeP => decide (5 * 256 ≤ r .THERM_RANGE_P_PMIN ∧ r .THERM_RANGE_P_PMIN ≤ r .THERM_RANGE_P_PMAX ∧
      r .THERM_RANGE_P_PMAX ≤ 25600)
  | .timing => decide (1 ≤ r .THERM_TIMING_SENS_LOSS ∧ 1 ≤ r .THERM_TIMING_AUTO_DOWN_MS)
  | .prime => decide (r .THERM_PRIME_VALVE ≤ 25600 ∧ r .THERM_PRIME_PUMP ≤ 25600)
  | .fbMinInt _ => true
  | .fbZs _ => true
  | .fbWindow n => decide (1 ≤ s.rd (.thm .FB_WINDOW) h n.val)

/-- THERM_CONFIG_WRITE (R96, R581): a THERM register written whole, or refused whole. -/
def execThermConfigWrite (h : Half) (reg : ThermReg) (v : Nat) (s : State) : Res :=
  if s.holds h then
    let t := thermStore s h reg v
    if thermRangesOk t h reg then .next (thermStatus t h ST_OK) else .next (thermStatus s h ST_THERM_CONFIG)
  else .next s

end Sys2Proof.Machine
end

