-- ==== Sys2Proof/Machine/Service.lean ====
section
/-!
DEFINITION. Machine/Service.lean: the service each half gives, and its report in PKG_SERVICE (R54 to R56).
-/

namespace Sys2Proof.Machine

/-- The half has a usable hub, with its MC running and its step E4 reached, and the aux connector path and the half's power are good: in
regulation are 3V3_AUX and the rails that the hub, its PCIe port and its MC run on, VAON, VHUB and VSER (R54; log entry 55). -/
def mgmtPath (s : State) (h : Half) : Bool :=
  s.rd (match h with
    | .h0 => .pkg .PKG_MAP_HUB0_OK
    | .h1 => .pkg .PKG_MAP_HUB1_OK) .h0 == 1 &&
    s.rd (.boot .FW_RUNNING) h == 1 && s.rd (.boot .MGMT_READY) h == 1 &&
    [0, 1, 5, 6].all (s.rd (.pwr .PWR_STATUS_RAILS) .h0).testBit

/-- The half gives management service (R54): its security block has passed its tests besides. -/
def mgmtOf (s : State) (h : Half) : Bool := mgmtPath s h && s.rd (.boot .SELFTEST_OK) h == 1

/-- The thermal loop runs, as the half knows it: the role holder's loop is in RUN, for in MANUAL it is not running (R74); a half cut off
from it goes by the holder's last heartbeat (R54, R532). -/
def loopRunning (s : State) (h : Half) : Bool :=
  match s.holder with
  | none => false
  | some k =>
    if k = h ∨ s.lanesUp = true then s.rd (.thm .THERM_STATUS_STATE) k == 2
    else s.rd (.flt .MC_PEER_LOOP) h == 2

/-- What compute service of a half needs besides its management service and the loop (R55). -/
def compUnits (s : State) (h : Half) : Bool :=
  s.rd (.boot .COMPUTE_READY_DONE) .h0 == 1 && stackOk s h && s.rd (.flt .COMP_WITHDRAWN) h == 0 &&
    ((List.range 256).any fun i => coreUsable s (256 * h.num + i))

/-- The half gives compute service (R55), once step 13 of start-up has been reached (R56). -/
def compOf (s : State) (h : Half) : Bool := compUnits s h && mgmtOf s h && loopRunning s h

/-- A cause that has arisen explains that the half gives no compute service: THERM the loop that does not run, SECURITY the failed
self-test. Such a half gives no reason for NO_COMPUTE (Table 3.7). -/
def explained (s : State) (h : Half) : Bool :=
  let c := setBits (s.rd (.boot .LOWLAND_STATUS_CAUSE) .h0) (s.rd (.boot .LOW_PEND) .h0)
  compUnits s h && (c.testBit 0 || c.testBit 3) && (c.testBit 0 || loopRunning s h) && mgmtPath s h &&
    (c.testBit 3 || s.rd (.boot .SELFTEST_OK) h == 1)

/-- PKG_SERVICE brought up to date; no compute service at or after step 13, for a reason that no cause explains, is the Lowland cause
NO_COMPUTE (R56, R120). -/
def serviceUpdate (s : State) : State :=
  let c0 := compOf s .h0
  let c1 := compOf s .h1
  let s1 := (s.wr (.pkg .PKG_SERVICE_MGMT_H0) .h0 (bit (mgmtOf s .h0))).wr (.pkg .PKG_SERVICE_MGMT_H1) .h0 (bit (mgmtOf s .h1))
  let s2 := (s1.wr (.pkg .PKG_SERVICE_COMP_H0) .h0 (bit (c0 && !s.lowland .h0))).wr (.pkg .PKG_SERVICE_COMP_H1) .h0
    (bit (c1 && !s.lowland .h1))
  let s3 := s2.wr (.pkg .PKG_SERVICE_ROLES_H1) .h0 (bit (s.holds .h1))
  if s.rd (.boot .COMPUTE_READY_DONE) .h0 = 1 ∧ (s.lowland .h0 = false ∨ s.lowland .h1 = false) ∧
      (c0 = false ∨ s.lowland .h0 = true) ∧ (c1 = false ∨ s.lowland .h1 = true) ∧ explained s .h0 = false ∧ explained s .h1 = false then
    lowlandCause s3 2
  else s3

end Sys2Proof.Machine
end

