-- ==== Sys2Proof/Machine/Ladder.lean ====
section
/-!
DEFINITION. Machine/Ladder.lean: the lower steps of the escalation ladder: the context step (R514 to R518, R523, R525), the
engine step (R519), the partition step (R520), and lost units (R526).
-/

namespace Sys2Proof.Machine

/-! ### The end of a chain's work (R244) -/

/-- A chain ends when none of its contexts has work left and no collective operation runs for it; an operation of a chain
that has failed is aborted with cause FAULT (R416); a group's outcome is that of its lowest failing entry (R192). -/
def settleChain (s : State) (readNo : Nat) : State :=
  if s.contexts.any fun x => x.chainNo == some readNo then s
  else match collOf s readNo with
    | some c =>
      let st := ((c.chain s).map (·.status)).getD ST_OK
      if st = ST_OK then s else originateAbort s c 3 st
    | none => mapChains s fun d =>
      if d.readNo = readNo ∧ d.done = false then
        match firstBy (fun p : Nat × Nat => [p.1]) d.fails with
        | some p => { d.finish (if d.status = ST_OK then p.2 else d.status) with
                        detail := if hdOpcode d.head = opGEN_STEP then d.progress else min 0xFFFF d.fails.length * 65536 + p.1 }
        | none => d.finish d.status
      else d

/-- A context's work for its chain is over: it leaves its slot, and a standing context waits in it again (R243, R335). -/
def endContext (s : State) (x : Context) : State :=
  match x.chainNo with
  | none => s
  | some n =>
    if x.standing then settleChain (standAgain s x) n
    else settleChain (dropCtx s x.half x.core x.slot) n

/-! ### Records and samples (R515 to R517) -/

/-- The record of a context step (Table 16.4). -/
def ctxFaultRec (s : State) (x : Context) (status type addr detail : Nat) : FaultRec :=
  let c := s.chains.find? fun d => x.chainNo == some d.readNo
  { mt := s.mt x.half, tag := (c.map fun d => hdTag d.head).getD 0, status := status, type := type, step := 1,
    seq := (c.map (·.seq)).getD 0, ring := ringField x.half x.ring,
    request := ((c.bind Chain.requestNum).map (0x8000 + ·)).getD 0, context := 0x8000 + x.id,
    partition := partField x.half (ringFn x.ring), unit := 0xFF, addr := addr, detail := detail }

/-- Bytes padded or cut to a length. -/
def padTo (n : Nat) (b : List Byte) : List Byte := (b ++ zeros n).take n

/-- Bank `b` at offset `S` when it carries the owner's tag, else zeros (R517). -/
def sampleBank (s : State) (x : Context) (off b : Nat) : List Byte :=
  let core := 256 * x.half.num + x.core
  if bankTag s core b = ownerTag x.half (ringFn x.ring) then s.mem.readN (scratchBase core + b * 0x40000 + off) 4096
  else zeros 4096

/-- The events of a party in a sample (Table 16.6). -/
def schedBytes (e : SchedEvt) : List Byte :=
  leBytes 4 e.mt ++ leBytes 2 e.seq ++ leBytes 2 (ringField e.half e.ring) ++ leBytes 1 e.event ++ leBytes 1 e.cls ++
    leBytes 2 e.status ++ leBytes 2 e.context ++ zeros 2

/-- The 32 KB of a scratchpad sample (Table 16.6). -/
def sampleBytes (s : State) (x : Context) (rec : List Byte) : List Byte :=
  let core := 256 * x.half.num + x.core
  let off := x.lastOff % 0x40000 / 4096 * 4096
  let mask := ((List.range 6).map fun b => if bankTag s core b = ownerTag x.half (ringFn x.ring) then 2 ^ b else 0).sum
  let c := s.chains.find? fun d => x.chainNo == some d.readNo
  let entries := (c.map fun d => (d.head :: d.exts).flatten).getD []
  let mine := s.schedLog.filter fun e => e.half == x.half && e.party == ringFn x.ring
  ((List.range 6).flatMap (sampleBank s x off)) ++ padTo 64 rec ++
    (regBytes s x.half (0x200000 + 0x40 * x.ring) 56 ++ regBytes s x.half (0x404000 + 8 * x.ring) 8) ++
    leBytes 8 (2 ^ 8 * off + mask) ++ zeros 120 ++ padTo 320 entries ++ padTo 128 x.nest ++ padTo 128 x.nest2 ++
    padTo 192 (toBytes (Config.slotBytes [x.pass, x.item.getD 0, x.next.getD 0, x.vrow])) ++
    padTo 7168 (mine.flatMap schedBytes)

/-- The two stages of a refused scratchpad or HBM access as DETAIL gives them (Table 19.7). -/
def accessDetail (s : State) (w : Who) (write : Bool) (status a len : Nat) : Nat :=
  let src := bit w.ctx.isNone
  match targetOf a with
  | .scratch core _ =>
    if status = ST_SCRATCH_FENCE then
      let bank := (a - scratchBase core) / 0x40000 % 8
      let t := bankTag s core bank
      bit write + 2 * bank + 16 * (if t = 0 then 0 else if t.testBit 8 then 2 else 1)
    else bit write + 2 * src
  | .hbm k =>
    if status = ST_HBM_FENCE then
      let shared := (List.range 8).any fun j =>
        sharedOk s w.half w.fn j && inUnits a len (s.rd (.sec .SHR_BASE) w.half j) (s.rd (.sec .SHR_SIZE) w.half j)
      bit write + 2 * src + 4 * k.num + 8 * bit (write && shared)
    else bit write + 2 * src
  | _ => bit write + 2 * src

/-! ### The partition step (R520) -/

/-- Transfers of a half that meet a condition dropped: SPILLING entries are HBM again and their Valley page is freed; FETCHING
entries are VALLEY again and their slot is freed (Table 16.5). -/
def dropTransfers (s : State) (h : Half) (p : Transfer → Bool) : State :=
  (s.transfers.filter fun x => x.half == h && p x).foldl (fun t x =>
    match (if x.discard then none else t.request x.request) with
    | none => endDiscarded t x
    | some r =>
      let e := entryOf t r x.layer x.head x.page
      let u := if x.spill then freeValleyPage (setEntry t r x.layer x.head x.page { e with state := enHBM, vidx := 0 }) h x.fn x.vidx
        else freeSlot (setEntry t r x.layer x.head x.page { e with state := enVALLEY, slot := x.gen }) h x.slot x.log2
      dropTransfer u x) s

/-- Every context of a party reset. -/
def dropPartyContexts (s : State) (h : Half) (fn : Nat) : State :=
  let s1 := (ringsOf fn).foldl (fun t r => t.wr (.sched .RING_SCHED_URG_READY) h 0 r) s
  dropCtxs s1 fun x => x.half == h && ringFn x.ring == fn

/-- Every operation of a party in the collective engines aborted with cause FAULT. -/
def abortParty (s : State) (h : Half) (fn localSt : Nat) : State :=
  let mine := s.colls.filter fun c => c.half == h && (match c.chain s with
    | some d => ringFn d.ring == fn
    | none => false)
  mine.foldl (fun t c => originateAbort t c 3 localSt) s

/-- A partition step (R520): the rings stop, every chain ends with ST_PART_RESET, every context is reset, every engine
operation is dropped and every request closes; keys, allotments and memory stay. It is over, with FLT_EVT.PART_STEP, once the rings are
DISABLED (Table 16.8). -/
def partitionStep (s : State) (h : Half) (p type detail : Nat) (esc : Bool) : State :=
  let s0 := (s.wr (.flt .FLT_PART_STEP) h 1 p).wr (.flt .FLT_STATUS_STEP) h (max 3 (s.rd (.flt .FLT_STATUS_STEP) h))
  let s1 := (ringsOf p).foldl (fun t r => cancelUnadmitted t h r ST_PART_RESET false) s0
  let s2 := (ringsOf p).foldl (fun t r => if ringSt t h r = 1 ∨ ringSt t h r = 3 then ringStop t h r else t) s1
  let s3 := mapChains s2 fun c => if c.half = h ∧ ringFn c.ring = p then c.finish ST_PART_RESET else c
  let s4 := dropTransfers (abortParty (dropPartyContexts s3 h p) h p ST_PART_RESET) h fun x => x.fn == p
  let s5 := closeRequests s4 (fun r => r.half == h && r.fn == p) ST_PART_RESET false
  let rec_ := plainFault (s.mt h) ST_PART_RESET type (3 + 128 * bit esc) 0xFF detail
  endPartStep (faultRecord s5 h pf { rec_ with partition := partField h p } none) h p

/-! ### The context step (R518, R523) -/

/-- The 1 s window of MT that a half is in (R523, R526). -/
def secondOf (s : State) (h : Half) : Nat := s.mt h / 1000000000 * 1000000000

/-- A context step of a partition counted; PART_LIMIT of them in a window give a partition step (R523). -/
def countStorm (s : State) (h : Half) (p : Nat) : State :=
  let w := secondOf s h
  let n := if s.rd (.flt .FLT_PART_T0) h p = w then s.rd (.flt .FLT_PART_COUNT) h p + 1 else 1
  let s1 := (s.wr (.flt .FLT_PART_T0) h w p).wr (.flt .FLT_PART_COUNT) h (min n 255) p
  let lim := s.rd (.flt .FLT_CFG_PART_LIMIT) h
  if lim ≠ 0 ∧ lim ≤ n ∧ s.rd (.sec .PART_CTL_STATE) h p = 1 then
    partitionStep (s1.wr (.flt .FLT_PART_COUNT) h 0 p) h p 0x20 (min n 255 + 256 * lim) true
  else s1

/-- The chain of a faulted context is told: its counter stops, and its status is the first fault's (R244, R525). -/
def tellChain (s : State) (x : Context) (status : Nat) : State :=
  match x.chainNo with
  | none => s
  | some n => mapChains s fun d =>
    if d.readNo = n then
      { d.fail status with
          stop := true
          ctx := some (d.ctx.getD x.id)
          fails := match x.entry with
            | some i => if d.fails.any fun q => q.1 == i then d.fails else d.fails ++ [(i, status)]
            | none => d.fails }
    else d

/-- A context step (R518): the slot is FAULTED, its record and sample are written, its chain is told, and the slot becomes
EMPTY. -/
def contextStep (s : State) (x : Context) (status type addr detail : Nat) : State :=
  let h := x.half
  let fn := ringFn x.ring
  let rec_ := ctxFaultRec s x status type addr detail
  let s1 := faultRecord (setSlot s h x.core x.slot 4) h fn rec_ (some (sampleBytes s x))
  let s2 := raiseCause (s1.inc (.flt .FLT_CNT_CTX) h 1) 12 h (2 ^ 2)
  let s3 := if x.standing then s2.wr (.sched .RING_SCHED_URG_READY) h 0 x.ring else s2
  let s4 := dropCtx (tellChain s3 x status) h x.core x.slot
  let s5 := match x.chainNo with
    | some n => settleChain s4 n
    | none => s4
  if fn = pf then s5 else countStorm (bump s5 h (32 + fn) 7 1) h fn

/-- A chain ends at a cross-half access while the Pass is down: its contexts are reset, without a sample (R527). -/
def passDownChain (s : State) (readNo : Nat) : State :=
  let s1 := mapChains s fun d => if d.readNo = readNo then { d.finish ST_PASS_DOWN with stop := true } else d
  let standing := s1.contexts.filter fun x => x.chainNo == some readNo && x.standing
  standing.foldl endContext (dropCtxs s1 fun x => x.chainNo == some readNo && !x.standing)

/-- TYPE of a context step for the status of an access (Table 16.9). -/
def faultType (status : Nat) : Nat :=
  if status = ST_SCRATCH_FENCE then 1 else if status = ST_HBM_FENCE then 2 else if status = ST_ADDR_INVALID then 3 else 5

/-- ATTN_ERR (Table 8.6). -/
def attnErr (s : State) (x : Context) (status : Nat) : State :=
  (s.wr (.attn .ATTN_ERR_STATUS) x.half status).wr (.attn .ATTN_ERR_CONTEXT) x.half x.id

/-- ATTN_ERR of a fold or a row load that an access fails; nothing for a context of another opcode. -/
def noteAttn (s : State) (x : Context) (status : Nat) : State :=
  match s.chains.find? fun c => x.chainNo == some c.readNo with
  | some c => if [opATTN, opATTN_RING, opVERIFY].contains (hdOpcode c.head) then attnErr s x status else s
  | none => s

/-- An access of a context has failed with a status (R255, R489, R525). -/
def ctxAccessFail (s0 : State) (x : Context) (write : Bool) (status a len : Nat) : State :=
  let s := noteAttn s0 x status
  if status = ST_PASS_DOWN then
    match x.chainNo with
    | some n => passDownChain s n
    | none => s
  else
    let w : Who := ⟨x.half, ringFn x.ring, some (x.core, x.slot)⟩
    let at_ := match targetOf a with
      | .scratch core off => refusedAt s w core off len
      | _ => a
    contextStep s x status (faultType status) at_ (accessDetail s w write status at_ len)

/-! ### The engine step (R519) -/

/-- Cores of a die of its half: die n of the package is die n mod 4 of half n / 4. -/
def dieHalf (die : Nat) : Half := Half.ofNum (die / 4)
def onDie (die : Nat) (x : Context) : Bool := x.half == dieHalf die && x.core / 64 == die % 4

/-- The contexts that meet a condition reset, their chains failed with a status: each chain's counter stops, and it ends with its last
context (R244). Standing contexts are dispatched again where `again` says so. -/
def resetContexts (s : State) (status : Nat) (again : Bool) (p : Context → Bool) : State :=
  let mine := s.contexts.filter p
  let nos := (mine.filterMap (·.chainNo)).eraseDups
  let s1 := mapChains s fun d => if nos.contains d.readNo ∧ d.done = false then { d.fail status with stop := true } else d
  let s2 := dropCtxs s1 fun x => p x && !(again && x.standing)
  let s3 := (mine.filter fun x => x.standing && !again).foldl (fun t x => t.wr (.sched .RING_SCHED_URG_READY) x.half 0 x.ring) s2
  nos.foldl settleChain ((mine.filter fun x => x.standing && again).foldl endContext s3)

/-- The staged copies of a half's datagrams discarded, with the granules that held them; the held pages stay (Table 16.5, R430). -/
def dropCopies (s : State) (h : Half) : State :=
  let k := min (ceilDiv (egressCells s h) 7) (poolInUse s h 1)
  let s1 : State := { s with streams := s.streams.map fun x =>
    if x.half = h then { x with dgrams := x.dgrams.map fun d => { d with staged := false } } else x }
  if k = 0 then s1 else giveGranules s1 h 1 k

/-- Admitted chains of a half that meet a condition ended with ST_ENGINE_RESET. -/
def endChains (s : State) (h : Half) (p : Chain → Bool) : State :=
  mapChains s fun d => if d.half = h ∧ d.running = true ∧ p d = true then d.finish ST_ENGINE_RESET else d

/-- SUBOP of a KV_PAGE. -/
def kvSub (b : List Byte) : Nat := fieldAt b 0x18 1

/-- Chains ended with ST_ENGINE_RESET, with the contexts that work for them (R519). -/
def resetChains (s : State) (nos : List Nat) : State :=
  let s1 := mapChains s fun d => if nos.contains d.readNo ∧ d.done = false then { d.fail ST_ENGINE_RESET with stop := true } else d
  let mine := s1.contexts.filter fun x => x.chainNo.any fun n => nos.contains n
  nos.foldl settleChain (mine.foldl endContext s1)

/-- A KV_PAGE of the prefix directory (0x13), or one of the page engine (0x14). -/
def kvOf (code : Nat) (d : Chain) : Bool := hdOpcode d.head == opKV_PAGE && (decide (9 ≤ kvSub d.head) == (code == 0x13))

/-- The KV_PAGE chain that an engine works on, the one first read of those that run, ended with ST_ENGINE_RESET (Table 16.5). -/
def endInFlight (s : State) (h : Half) (code : Nat) : State :=
  match s.chains.find? fun d => d.half == h && d.running && kvOf code d with
  | some c => endChains s h fun d => d.readNo == c.readNo
  | none => s

/-- What an engine's step does to its operations (Table 16.5). -/
def engineReset (s : State) (h : Half) (code : Nat) : State :=
  if code < 8 then resetContexts s ST_ENGINE_RESET true (onDie code)
  else if code = 0x10 then
    (s.colls.filter fun c => c.half == h).foldl (fun t c => originateAbort t c 3 ST_ENGINE_RESET) s
  else if code = 0x11 then dropCopies s h
  else if code = 0x12 then
    let waiters := (s.transfers.filter fun x => x.half == h).flatMap (·.waiters)
    let ownEnd (d : Chain) : Bool := [opKV_PAGE, opSHIP].contains (hdOpcode d.head)
    let s1 := endChains s h fun d => hdOpcode d.head == opCOPY || hdOpcode d.head == opADAPTER_LOAD ||
      (ownEnd d && waiters.contains d.readNo)
    let others := (s1.chains.filter fun d => d.half == h && d.running && !(ownEnd d) && waiters.contains d.readNo).map (·.readNo)
    let s2 := resetChains (dropTransfers s1 h fun _ => true) others
    (List.range 1024).foldl (fun t i => if t.rd (.sched .ADP_SLOT_STATE) h i = 1 then t.wr (.sched .ADP_SLOT_STATE) h 0 i else t) s2
  else if code = 0x13 ∨ code = 0x14 then endInFlight s h code
  else s

/-- The codes of Table 16.5. -/
def engineCodes : List Nat := [0, 1, 2, 3, 4, 5, 6, 7, 0x10, 0x11, 0x12, 0x13, 0x14]

/-- The half of an engine named on a half: a tile dispatcher belongs to its die's. -/
def engineHalf (h : Half) (code : Nat) : Half := if code < 8 then dieHalf code else h

/-- Operations outstanding in an engine (Table 19.7). -/
def engineOps (s : State) (h : Half) (code : Nat) : Nat :=
  if code < 8 then (s.contexts.filter (onDie code)).length
  else if code = 0x10 then (s.colls.filter fun c => c.half == h).length
  else if code = 0x11 then (s.streams.filter fun x => x.half == h).length
  else if code = 0x12 then (s.transfers.filter fun x => x.half == h).length +
    (s.chains.filter fun d => d.half == h && d.running && (hdOpcode d.head == opCOPY || hdOpcode d.head == opADAPTER_LOAD)).length
  else (s.chains.filter fun d => d.half == h && d.running && kvOf code d).length

/-- An engine step (R519): the engine is reset, with its record and its counts. -/
def engineStep (s : State) (h : Half) (code type detail : Nat) (esc : Bool) : State :=
  let k := engineHalf h code
  let s1 := engineReset s k code
  let s2 := faultRecord s1 k pf (plainFault (s.mt k) ST_ENGINE_RESET type (2 + 128 * bit esc) code detail) none
  raiseCause (s2.inc (.flt .FLT_CNT_ENG) k 1) 12 k (2 ^ 3)

/-! ### Lost units (R526) -/

/-- The record and the report of a lost unit. -/
def reportLost (s : State) (h : Half) (type detail : Nat) : State :=
  serviceUpdate (raiseCause (faultRecord s h pf (plainFault (s.mt h) ST_UNIT_LOST type 0 0xFF detail) none) 12 h (2 ^ 5))

/-- A core is lost. -/
def loseCore (s : State) (h : Half) (core : Nat) : State :=
  let s1 := resetContexts s ST_UNIT_LOST false fun x => x.half == h && x.core == core
  reportLost (s1.wr (.core .CORE_STATUS_USABLE) h 0 core) h 0x30 (256 * h.num + core)

/-- DIE_PWR_EN of a die driven low (R101): what its cache held is lost. -/
def dieOff (s : State) (die : Nat) : State :=
  if s.rd (.boot .DIE_PWR_EN) .h0 die = 1 then
    let s0 : State := { s with dieLines := s.dieLines.filter fun l => !(l.half == dieHalf die && l.die == die % 4) }
    let s1 := (s0.wr (.boot .DIE_PWR_EN) .h0 0 die).emit (.diePower die false)
    s1.wr (.pwr .PWR_STATUS_ARR_PG) .h0 (clearBits (s.rd (.pwr .PWR_STATUS_ARR_PG) .h0) (2 ^ die))
  else s

/-- Every die of a half switched off. -/
def diesOff (s : State) (h : Half) : State := (List.range 4).foldl (fun t i => dieOff t (4 * h.num + i)) s

/-- A compute die is lost, with a cause of Table 19.7, and is switched off (R101). -/
def loseDie (s : State) (die cause : Nat) : State :=
  let s1 := resetContexts s ST_UNIT_LOST false (onDie die)
  let s2 := s1.wr (.flt .FLT_LOST_DIE) .h0 (setBits (s1.rd (.flt .FLT_LOST_DIE) .h0) (2 ^ die))
  reportLost (dieOff s2 die) (dieHalf die) 0x31 (die + 16 * cause)

/-- An HBM stack is lost: every context of its half is reset, the half's requests close with ST_UNIT_LOST, and its dies are switched
off (R101, R526). -/
def loseStack (s : State) (k : Half) (cause channel : Nat) : State :=
  let s1 := resetContexts s ST_UNIT_LOST false fun x => x.half == k
  let s2 := s1.wr (.flt .FLT_LOST_STACK) .h0 (setBits (s1.rd (.flt .FLT_LOST_STACK) .h0) (2 ^ k.num))
  let s3 := closeRequests (s2.wr (.boot .HBM_OK) k 0) (fun r => r.half == k) ST_UNIT_LOST false
  reportLost (diesOff s3 k) k 0x32 (k.num + 16 * cause + 256 * channel)

end Sys2Proof.Machine
end

