-- ==== Sys2Proof/Machine/Nest.lean ====
section
/-!
DEFINITION. Machine/Nest.lean: loop-nest tables: their fields (R232, R233), extents and buffers (R234), the structural checks
(R235, R248 to R250), tile shapes (R238), and items with their visiting order (R240, R241, R245, R248).
-/

namespace Sys2Proof.Machine

/-! ### Fields -/

/-- A level of a table (Table 7.3). -/
structure Level where
  dim : Nat
  flags : Nat
  count : Nat
  step : Nat
  aBuf : Nat
  bBuf : Nat
  cBuf : Nat
deriving DecidableEq, Repr

def Level.spread (l : Level) : Bool := l.flags.testBit 0
def Level.loadA (l : Level) : Bool := l.flags.testBit 1
def Level.loadB (l : Level) : Bool := l.flags.testBit 2
def Level.storeC (l : Level) : Bool := l.flags.testBit 3
def Level.dbl (l : Level) : Bool := l.flags.testBit 4

/-- A loop-nest table: the header's fields and the levels in use (Table 7.2). -/
structure Nest where
  shape : Nat
  hilbert : Bool
  m : Nat
  n : Nat
  k : Nat
  lda : Nat
  ldb : Nat
  ldc : Nat
  splitK : Nat
  mode : Nat
  part : Nat
  levels : List Level
deriving DecidableEq, Repr

def Nest.resA (t : Nest) : Bool := t.mode.testBit 0
def Nest.resB (t : Nest) : Bool := t.mode.testBit 1
def Nest.dyn (t : Nest) : Bool := t.mode.testBit 2
def Nest.halo (t : Nest) : Bool := t.mode.testBit 3

/-- Level `j` of a table's bytes. -/
def levelOf (b : List Byte) (j : Nat) : Level :=
  let e := (b.drop (0x20 + 0x10 * j)).take 16
  { dim := fieldAt e 0 1 % 4, flags := fieldAt e 1 1, count := fieldAt e 2 2, step := fieldAt e 4 4, aBuf := fieldAt e 8 2,
    bBuf := fieldAt e 0xA 2, cBuf := fieldAt e 0xC 2 }

/-- The table that 128 bytes spell. -/
def parseNest (b : List Byte) : Nest :=
  { shape := fieldAt b 2 1 % 8, hilbert := (fieldAt b 3 1).testBit 0, m := fieldAt b 4 4, n := fieldAt b 8 4,
    k := fieldAt b 0xC 4, lda := fieldAt b 0x10 4, ldb := fieldAt b 0x14 4, ldc := fieldAt b 0x18 4,
    splitK := fieldAt b 0x1C 1, mode := fieldAt b 0x1D 1, part := fieldAt b 0x1E 2,
    levels := (List.range (min 6 (fieldAt b 1 1))).map (levelOf b) }

/-- The tile M×N×K of a shape (Table 7.6). -/
def tileOf (shape : Nat) : Nat × Nat × Nat :=
  match shape with
  | 0 => (128, 128, 128)
  | 1 => (256, 128, 64)
  | 2 => (128, 256, 64)
  | 3 => (64, 64, 512)
  | 4 => (256, 256, 32)
  | _ => (32, 512, 128)

/-- The tile's size in a dimension, and the operand's. -/
def Nest.tile (t : Nest) (d : Nat) : Nat := let x := tileOf t.shape; if d = 0 then x.1 else if d = 1 then x.2.1 else x.2.2
def Nest.len (t : Nest) (d : Nat) : Nat := if d = 0 then t.m else if d = 1 then t.n else t.k

/-- Length of one K range: ⌈Kt/s⌉ tiles (R245). -/
def Nest.rangeLen (t : Nest) : Nat := ceilDiv (ceilDiv t.k (t.tile 2)) t.splitK * t.tile 2

/-- L_D of check 4. -/
def Nest.cover (t : Nest) (d : Nat) : Nat := if d = 2 ∧ 1 < t.splitK then t.rangeLen else t.len d

/-! ### Extents and buffers (R234) -/

/-- The extent of a dimension at level `j`. -/
def Nest.extent (t : Nest) (j d : Nat) : Nat :=
  match t.levels[j]? with
  | some l =>
    if l.dim = d then l.step
    else match (t.levels.drop (j + 1)).find? fun x => x.dim == d with
      | some x => x.count * x.step
      | none => min (t.tile d) (t.len d)
  | none => min (t.tile d) (t.len d)

/-- Levels with a flag. -/
def Nest.levelWith (t : Nest) (p : Level → Bool) : Option Nat := t.levels.findIdx? p

/-- Bytes of `r` rows of `l` elements of a format as a buffer or an operand holds them. -/
def bufBytes (fmt r l : Nat) : Nat :=
  if fmt = 0 then roundUp (r * l / 2) 256 + r * l / 32 else r * l * elemSize fmt

/-- Rows × row length of the C block, in the extents of the STORE_C level, or the whole of C (Table 7.4, check 7). -/
def Nest.block (t : Nest) : Nat × Nat :=
  match t.levelWith Level.storeC with
  | some j => (t.extent j 0, t.extent j 1)
  | none => (t.m, t.n)

/-! ### Checks (R235) -/

/-- A failing field: its entry (0 the header, 1 + j level j) and its byte offset. -/
abbrev NestFail := Nat × Nat

/-- The first of some conditions that is broken. -/
def firstBroken (l : List (Bool × NestFail)) : Option NestFail := (l.find? fun p => p.1).map (·.2)

/-- Check 1. -/
def nestCheck1 (b : List Byte) : Option NestFail :=
  let nlev := fieldAt b 1 1
  let e (j : Nat) : List Byte := (b.drop (0x20 + 0x10 * j)).take 16
  let used (j : Nat) : List (Bool × NestFail) :=
    let f := fieldAt (e j) 1 1
    [(fieldAt (e j) 0 1 / 4 != 0, (1 + j, 0)), (f / 32 != 0, (1 + j, 1)),
      (!f.testBit 1 && fieldAt (e j) 8 2 != 0, (1 + j, 8)), (!f.testBit 2 && fieldAt (e j) 0xA 2 != 0, (1 + j, 0xA)),
      (!f.testBit 3 && fieldAt (e j) 0xC 2 != 0, (1 + j, 0xC)), (fieldAt (e j) 0xE 2 != 0, (1 + j, 0xE))]
  let unused (j : Nat) : List (Bool × NestFail) :=
    [(0, 1), (1, 1), (2, 2), (4, 4), (8, 2), (0xA, 2), (0xC, 2), (0xE, 2)].map fun p =>
      (fieldAt (e j) p.1 p.2 != 0, (1 + j, p.1))
  firstBroken ([(fieldAt b 0 1 != 1, (0, 0)), (nlev == 0 || decide (6 < nlev), (0, 1)), (decide (5 < fieldAt b 2 1), (0, 2)),
    (decide (1 < fieldAt b 3 1), (0, 3)), (decide (15 < fieldAt b 0x1D 1), (0, 0x1D))] ++
    (List.range 6).flatMap fun j => if j < nlev then used j else unused j)

/-- Check 2. -/
def nestCheck2 (t : Nest) : Option NestFail :=
  let bad (x : Nat) : Bool := x == 0 || decide (2 ^ 24 < x)
  firstBroken ([(bad t.m, (0, 4)), (bad t.n, (0, 8)), (bad t.k, (0, 0xC))] ++
    (List.range t.levels.length).flatMap fun j =>
      let l := t.levels.getD j ⟨0, 0, 0, 0, 0, 0, 0⟩
      [(l.dim == 3, (1 + j, 0)), (l.count == 0, (1 + j, 2))])

/-- Check 3: the steps of each dimension. -/
def nestCheck3 (t : Nest) : Option NestFail :=
  firstBroken ((List.range t.levels.length).map fun j =>
    let l := t.levels.getD j ⟨0, 0, 0, 0, 0, 0, 0⟩
    let want := match (t.levels.drop (j + 1)).find? fun x => x.dim == l.dim with
      | some x => x.count * x.step
      | none => t.tile l.dim
    (l.step != want, (1 + j, 4)))

/-- Check 4: the outermost level of each dimension covers it. -/
def nestCheck4 (t : Nest) : Option NestFail :=
  firstBroken ((List.range 3).map fun d =>
    match t.levels.findIdx? fun x => x.dim == d with
    | some j =>
      let l := t.levels.getD j ⟨0, 0, 0, 0, 0, 0, 0⟩
      (!decide ((l.count - 1) * l.step < t.cover d ∧ t.cover d ≤ l.count * l.step), (1 + j, 2))
    | none => (decide (t.tile d < t.cover d), (0, 4 + 4 * d)))

/-- The SPREAD levels, which form a prefix. -/
def Nest.spreads (t : Nest) : List Level := t.levels.takeWhile Level.spread

/-- Check 5. -/
def nestCheck5 (t : Nest) : Option NestFail :=
  let n := t.spreads.length
  firstBroken ((List.range t.levels.length).map fun j =>
    let l := t.levels.getD j ⟨0, 0, 0, 0, 0, 0, 0⟩
    (l.spread && (decide (n ≤ j) || decide (2 ≤ j) || l.dim == 2 ||
      (j == 1 && (t.levels.headD l).dim == l.dim)), (1 + j, 1)))

/-- Check 6. -/
def nestCheck6 (t : Nest) : Option NestFail := firstBroken [(t.hilbert && t.spreads.length != 2, (0, 3))]

/-- Check 7: the STORE_C level. -/
def nestCheck7 (t : Nest) : Option NestFail :=
  let js := (List.range t.levels.length).filter fun j => (t.levels.getD j ⟨0, 0, 0, 0, 0, 0, 0⟩).storeC
  if t.levels.any fun l => l.dim != 2 then
    match js with
    | [] => some (1, 1)
    | [j] =>
      let l := t.levels.getD j ⟨0, 0, 0, 0, 0, 0, 0⟩
      let kOut := (t.levels.take j).any fun x => x.dim == 2
      if l.dim = 2 ∨ j + 1 < t.spreads.length ∨ kOut then some (1 + j, 1) else none
    | _ :: j :: _ => some (1 + j, 1)
  else js.head?.map fun j => (1 + j, 1)

/-- Check 8: the loads. -/
def nestCheck8 (t : Nest) : Option NestFail :=
  let at_ (p : Level → Bool) : List Nat := (List.range t.levels.length).filter fun j => (t.levels[j]?.map p).getD false
  let one (p : Level → Bool) : Option NestFail :=
    match at_ p with
    | [_] => none
    | [] => some (1, 1)
    | _ :: j :: _ => some (1 + j, 1)
  match one Level.loadA with
  | some f => some f
  | none =>
    match one Level.loadB with
    | some f => some f
    | none => (at_ fun l => l.dbl && !l.loadA && !l.loadB).head?.map fun j => (1 + j, 1)

/-- A pitch breaks check 9. -/
def pitchBad (fmt len pitch : Nat) : Bool := if fmt = 0 then pitch != len / 2 || len % 2 == 1 else pitch % elemSize fmt != 0

/-- LDC ≥ N × the size of FMT_C. -/
def ldcShort (fmt n ldc : Nat) : Bool := decide (ldc < if fmt = 0 then n / 2 else n * elemSize fmt)

/-- Check 9. `a` and `c` say whether A and C lie in memory. -/
def nestCheck9 (t : Nest) (fa fb fc : Nat) (a : Bool) : Option NestFail :=
  firstBroken [(a && pitchBad fa t.k t.lda, (0, 0x10)), (pitchBad fb t.k t.ldb, (0, 0x14)),
    (pitchBad fc t.n t.ldc || ldcShort fc t.n t.ldc, (0, 0x18))]

/-- Check 10. -/
def nestCheck10 (t : Nest) (group fused : Bool) : Option NestFail :=
  let kt := ceilDiv t.k (t.tile 2)
  firstBroken [(t.splitK == 0 || decide (16 < t.splitK ∨ kt < t.splitK) ||
      (decide (1 < t.splitK) && (group || fused || decide (t.k ≤ (t.splitK - 1) * t.rangeLen))), (0, 0x1C)),
    (decide (1 < t.splitK) && t.part == 0, (0, 0x1E))]

/-- The SPREAD level on a dimension carries a load (R248). -/
def Nest.spreadLoads (t : Nest) (d : Nat) (p : Level → Bool) : Bool := t.spreads.any fun l => l.dim == d && p l

/-- RES_A, RES_B and HALO under check 11 (R248, R249): the overlap may exceed no group's own span, and the last group's may be the
shortest. -/
def nestCheck11 (t : Nest) (fa : Nat) (group fused : Bool) : Option NestFail :=
  let res := t.resA || t.resB
  let rowLen := t.k * elemSize fa
  let span := match t.spreads.find? fun l => l.dim == 0 with
    | some l => min l.step (t.m - (l.count - 1) * l.step) * t.lda
    | none => 0
  firstBroken [((t.resA && t.resB) || (res && (t.dyn || group || fused)) ||
      (t.resA && !t.spreadLoads 0 Level.loadA) || (t.resB && !t.spreadLoads 1 Level.loadB) ||
      (t.halo && (!t.resA || fa == 0 || decide (rowLen ≤ t.lda) || decide (span < rowLen - t.lda))), (0, 0x1D))]

/-- FN of a FUSED chain halves the width: SWIGLU and GEGLU. -/
def fnHalves (fn : Nat) : Bool := fn == 1 || fn == 2

/-- The M extent of one item. -/
def Nest.itemM (t : Nest) : Nat :=
  match t.spreads.find? fun l => l.dim == 0 with
  | some l => l.step
  | none => t.m

/-- Width of the intermediate (R250). -/
def interWidth (fn n1 : Nat) : Nat := if fnHalves fn then n1 / 2 else n1

/-- The conditions of R250 on NEST. -/
def fusedCheck1 (t : Nest) (fn : Nat) : Option NestFail :=
  let b := t.block
  let c := (t.levelWith Level.storeC).getD 0
  firstBroken ((List.range t.spreads.length).map (fun j =>
      ((t.levels.getD j ⟨0, 0, 0, 0, 0, 0, 0⟩).dim != 0, (1 + j, 0))) ++
    [(decide (65536 < b.1 * b.2), (1 + c, 1)), ((fn == 5 || fn == 6) && decide (b.2 < t.n), (1 + c, 1))])

/-- The conditions of R250 on NEST2. -/
def fusedCheck2 (t t2 : Nest) (fn : Nat) : Option NestFail :=
  firstBroken ((List.range t2.levels.length).map (fun j =>
      ((t2.levels.getD j ⟨0, 0, 0, 0, 0, 0, 0⟩).spread, (1 + j, 1))) ++
    [(t2.resA || t2.resB || t2.halo, (0, 0x1D)), (decide (1 < t2.splitK), (0, 0x1C)), (t2.m != t.itemM, (0, 4)),
      (t2.k != interWidth fn t.n, (0, 0xC))])

/-- A table's outcome: refused with a status at a field, or good. -/
abbrev NestOutcome := Option (Nat × NestFail)

/-- The first failing check of a list, as ST_NEST_FORMAT. -/
def nestFormat (l : List (Option NestFail)) : NestOutcome := (l.findSome? id).map fun f => (ST_NEST_FORMAT, f)

/-- A row length that FP4 does not permit (R213). -/
def fp4Bad (fmt len : Nat) : Bool := fmt == 0 && len % 32 != 0

/-- The checks of a MATMUL's table, then R213 and R344's refusals. -/
def matmulCheck (b : List Byte) (fa fb fc : Nat) (group adapted : Bool) : NestOutcome :=
  let t := parseNest b
  match nestFormat [nestCheck1 b, nestCheck2 t, nestCheck3 t, nestCheck4 t, nestCheck5 t, nestCheck6 t, nestCheck7 t,
      nestCheck8 t, nestCheck9 t fa fb fc true, nestCheck10 t group false, nestCheck11 t fa group false] with
  | some r => some r
  | none =>
    if fp4Bad fa t.k ∨ fp4Bad fb t.k then some (ST_DESC_FIELD, (0, 0xC))
    else if fp4Bad fc t.n then some (ST_DESC_FIELD, (0, 8))
    else if adapted ∧ 1 < t.splitK then some (ST_DESC_FIELD, (0, 0x1C))
    else none

/-- Widths of the C blocks of NEST: the full one and the last one (R251). -/
def blockWidths (t : Nest) : List Nat :=
  let w := t.block.2
  if w = 0 then [] else if t.n ≤ w then [t.n] else [w, t.n - (t.n - 1) / w * w]

/-- The checks of a FUSED chain's NEST, with the intermediate format in the place of FMT_C. -/
def fusedNestCheck (b : List Byte) (fa fb fi fn : Nat) (group : Bool) : NestOutcome :=
  let t := parseNest b
  match nestFormat [nestCheck1 b, nestCheck2 t, nestCheck3 t, nestCheck4 t, nestCheck5 t, nestCheck6 t, nestCheck7 t,
      nestCheck8 t, nestCheck9 t fa fb fi true, nestCheck10 t group true, nestCheck11 t fa group true, fusedCheck1 t fn] with
  | some r => some r
  | none =>
    if fp4Bad fa t.k ∨ fp4Bad fb t.k then some (ST_DESC_FIELD, (0, 0xC))
    else if fnHalves fn ∧ (blockWidths t).any (fun w => w % 2 == 1) = true then some (ST_DESC_FIELD, (0, 8))
    else if (blockWidths t).any (fun w => fp4Bad fi (interWidth fn w)) = true then some (ST_DESC_FIELD, (0, 8))
    else none

/-- The checks of a FUSED chain's NEST2. -/
def fusedNest2Check (b1 b2 : List Byte) (fi fb2 fc fn : Nat) (group : Bool) : NestOutcome :=
  let t := parseNest b1
  let t2 := parseNest b2
  match nestFormat [nestCheck1 b2, nestCheck2 t2, nestCheck3 t2, nestCheck4 t2, nestCheck5 t2, nestCheck6 t2, nestCheck7 t2,
      nestCheck8 t2, nestCheck9 t2 fi fb2 fc false, nestCheck10 t2 group true, nestCheck11 t2 fi group true,
      fusedCheck2 t t2 fn] with
  | some r => some r
  | none =>
    if fp4Bad fb2 t2.k then some (ST_DESC_FIELD, (0, 0xC))
    else if fp4Bad fc t2.n then some (ST_DESC_FIELD, (0, 8))
    else none

/-! ### Items and order (R240, R241) -/

/-- A grid cell, and the sketch's vectors. -/
abbrev Cell := Int × Int

/-- floor(v / 2), as the sketch's `half`. -/
def halfOf (v : Int) : Int := v.fdiv 2

/-- A straight run of `n` cells. -/
def runCells : Nat → Cell → Cell → List Cell
  | 0, _, _ => []
  | n + 1, p, d => p :: runCells n (p.1 + d.1, p.2 + d.2) d

/-- The sketch's `gil` (R241). -/
def gil : Nat → Cell → Cell → Cell → List Cell
  | 0, _, _, _ => []
  | fuel + 1, p, a, b =>
    let w := (a.1 + a.2).natAbs
    let h := (b.1 + b.2).natAbs
    let da : Cell := (a.1.sign, a.2.sign)
    let db : Cell := (b.1.sign, b.2.sign)
    if h = 1 then runCells w p da
    else if w = 1 then runCells h p db
    else
      let a2 : Cell := (halfOf a.1, halfOf a.2)
      let b2 : Cell := (halfOf b.1, halfOf b.2)
      let w2 := (a2.1 + a2.2).natAbs
      let h2 := (b2.1 + b2.2).natAbs
      if 3 * h < 2 * w then
        let a2 : Cell := if w2 % 2 = 1 ∧ 2 < w then (a2.1 + da.1, a2.2 + da.2) else a2
        gil fuel p a2 b ++ gil fuel (p.1 + a2.1, p.2 + a2.2) (a.1 - a2.1, a.2 - a2.2) b
      else
        let b2 : Cell := if h2 % 2 = 1 ∧ 2 < h then (b2.1 + db.1, b2.2 + db.2) else b2
        gil fuel p b2 a2 ++ gil fuel (p.1 + b2.1, p.2 + b2.2) a (b.1 - b2.1, b.2 - b2.2) ++
          gil fuel (p.1 + (a.1 - da.1) + (b2.1 - db.1), p.2 + (a.2 - da.2) + (b2.2 - db.2)) (-b2.1, -b2.2)
            (-(a.1 - a2.1), -(a.2 - a2.2))

/-- The sequence of cells of a gx × gy grid (R241). -/
def hilbertOrder (gx gy : Nat) : List (Nat × Nat) :=
  let l := if gy ≤ gx then gil 64 (0, 0) ((gx : Int), 0) (0, (gy : Int)) else gil 64 (0, 0) (0, (gy : Int)) ((gx : Int), 0)
  l.map fun c => (c.1.toNat, c.2.toNat)

/-- Cells of the SPREAD levels in visiting order, as one iteration per SPREAD level (R241). -/
def Nest.cells (t : Nest) : List (List Nat) :=
  match t.spreads with
  | [] => [[]]
  | [a] => (List.range a.count).map fun x => [x]
  | a :: b :: _ =>
    if t.hilbert then (hilbertOrder a.count b.count).map fun c => [c.1, c.2]
    else (List.range a.count).flatMap fun x => (List.range b.count).map fun y => [x, y]

/-- Number of items (R240). -/
def Nest.items (t : Nest) : Nat := (t.spreads.foldl (fun n l => n * l.count) 1) * t.splitK

/-- The cell and the K range of item `i`. -/
def Nest.itemAt (t : Nest) (i : Nat) : List Nat × Nat := (t.cells.getD (i / t.splitK) [], i % t.splitK)

/-- A table with M replaced, the outermost M level covering it (§7.3 "At the edges", R190). -/
def Nest.withM (t : Nest) (m : Nat) : Nest :=
  match t.levels.findIdx? fun l => l.dim == 0 with
  | some j => { t with m := m, levels := t.levels.modify j fun l => { l with count := ceilDiv m l.step } }
  | none => { t with m := m }

/-- The items of the groups of RES_A or RES_B: one group per iteration of the SPREAD level on M, or N (R248). -/
def Nest.resGroup (t : Nest) (i : Nat) : Nat :=
  let d := if t.resB then 1 else 0
  let cell := (t.itemAt i).1
  ((List.range t.spreads.length).find? fun j => (t.levels.getD j ⟨0, 0, 0, 0, 0, 0, 0⟩).dim == d).map (cell.getD · 0) |>.getD 0

/-- The items that the context of a rank runs under static assignment, in order (R242, R248). -/
def Nest.staticItems (t : Nest) (total rank n : Nat) : List Nat :=
  if t.resA || t.resB then
    let groups := ((List.range total).map t.resGroup).foldl max 0 + 1
    ((List.range groups).filter fun g => g % n == rank).flatMap fun g => (List.range total).filter fun i => t.resGroup i == g
  else (List.range total).filter fun i => i % n == rank

/-! ### Passes -/

/-- Iterations of the levels that are not SPREAD, from level `j` on. -/
def Nest.inner (t : Nest) (j : Nat) : Nat :=
  (t.levels.drop (max j t.spreads.length)).foldl (fun n l => n * l.count) 1

/-- Passes of one item. -/
def Nest.passes (t : Nest) : Nat := t.inner 0

/-- The iteration of each level at pass `p` of an item: the cell for SPREAD levels, then nested loops (R236). -/
def Nest.iters (t : Nest) (cell : List Nat) (p : Nat) : List Nat :=
  (List.range t.levels.length).map fun j =>
    if j < t.spreads.length then cell.getD j 0
    else p / t.inner (j + 1) % (t.levels.getD j ⟨0, 0, 1, 0, 0, 0, 0⟩).count

/-- Position in a dimension at which levels 0 to `j - 1` stand. -/
def Nest.origin (t : Nest) (its : List Nat) (range j d : Nat) : Nat :=
  (if d = 2 then range * t.rangeLen * bit (decide (1 < t.splitK)) else 0) +
    ((List.range (min j t.levels.length)).map fun i =>
      let l := t.levels.getD i ⟨0, 0, 0, 0, 0, 0, 0⟩
      if l.dim = d then its.getD i 0 * l.step else 0).sum

/-- End of the K range of an item. -/
def Nest.kEnd (t : Nest) (range : Nat) : Nat := if 1 < t.splitK then min t.k ((range + 1) * t.rangeLen) else t.k

end Sys2Proof.Machine
end

