-- ==== Sys2Proof/Machine/Window.lean ====
section
/-!
DEFINITION. Machine/Window.lean: accesses of a context to memory and to its window (R253 to R255), operands as rows of values
(R211 to R213), conversion on the way out (R216, R217), and the sums of R214.
-/

namespace Sys2Proof.Machine

/-- A context's access that has failed: its direction, status, address and length. -/
structure Failed where
  write : Bool
  status : Nat
  addr : Nat
  len : Nat
deriving DecidableEq, Repr

/-- The state as a context's accesses have left it, and the first access that failed: nothing is done after it. -/
structure Run where
  s : State
  fail : Option Failed
deriving DecidableEq, Repr

/-- The accessor that a context is. -/
def Context.who (x : Context) : Who := ⟨x.half, ringFn x.ring, some (x.core, x.slot)⟩

/-- The core's number in the package. -/
def Context.coreNo (x : Context) : Nat := 256 * x.half.num + x.core

/-- Sets of a die cache: 32 MB in 16 ways of 128 B lines (R227). A line's set is its number modulo the sets (log entry 63). -/
def dieSets : Nat := 16384

/-- One line read through a die's cache (R227): a line held is a hit; another is read from the stack and allocated, in the place of
one of the 16 of a full set. Pseudo-LRU spares the last used; which of the others goes is a free value (log entries 5 and 63). -/
def lineRead (h : Half) (d : Nat) (s : State) (line : Nat) : State :=
  let l : DieLine := ⟨h, d, line⟩
  if s.dieLines.contains l then
    bump ({ s with dieLines := s.dieLines.filter (fun k => k != l) ++ [l] }.inc (.core .DC_HIT) h 1 d) h 1 4 1
  else
    let s1 := bump (bump (s.inc (.core .DC_MISS) h 1 d) h 1 5 1) h 1 0 128
    let set := s.dieLines.filter fun k => k.half == h && k.die == d && k.line % dieSets == line % dieSets
    if set.length < 16 then { s1 with dieLines := s.dieLines ++ [l] }
    else
      let gone := set[Config.freeValue s.freeCount % 15]?
      { drawFree s1 with dieLines := s.dieLines.filter (fun k => some k != gone) ++ [l] }

/-- The lines that an access of at least one byte covers. -/
def lineSpan (a len : Nat) : List Nat := (List.range ((a + len - 1) / 128 - a / 128 + 1)).map (a / 128 + ·)

/-- A read of the context's own half's HBM through its die cache (R227). -/
def cacheRead (s : State) (x : Context) (a len : Nat) : State := (lineSpan a len).foldl (lineRead x.half (x.core / 64)) s

/-- A read by device address. -/
def Run.read (r : Run) (x : Context) (a len : Nat) : Run × List Byte :=
  if r.fail.isSome ∨ len = 0 then (r, [])
  else if targetOf a = .hbm x.half ∧ accessStatus r.s x.who false a len = ST_OK then
    ({ r with s := cacheRead r.s x a len }, r.s.mem.readN a len)
  else
    let q := readAt r.s x.who a len
    if q.1 = ST_OK then ({ r with s := q.2.1 }, q.2.2) else (⟨q.2.1, some ⟨false, q.1, a, len⟩⟩, [])

/-- A write by device address. -/
def Run.write (r : Run) (x : Context) (a : Nat) (b : List Byte) : Run :=
  if r.fail.isSome ∨ b = [] then r
  else
    let q := writeAt r.s x.who a b
    if q.1 = ST_OK then { r with s := q.2 } else ⟨q.2, some ⟨true, q.1, a, b.length⟩⟩

/-- The offset in its core that a buffer offset names: the slot's first bank plus the offset, modulo 2 MB (R253). -/
def winOff (s : State) (x : Context) (o : Nat) : Nat :=
  let first := if x.slot = 0 then 0 else bankCut (s.rd (.core .CORE_CFG_BANK_SPLIT) x.half x.core) * 0x40000
  (first + o) % 0x200000

/-- The pieces of at most 256 B that a window access is made of: offset in the core, offset in the access, length. -/
def winPieces (s : State) (x : Context) : Nat → Nat → Nat → Nat → List (Nat × Nat × Nat)
  | 0, _, _, _ => []
  | n + 1, o, at_, len =>
    if len = 0 then []
    else
      let w := winOff s x o
      let k := min len (256 - w % 256)
      (w, at_, k) :: winPieces s x n (o + k) (at_ + k) (len - k)

/-- The pieces of an access. -/
def winAll (s : State) (x : Context) (o len : Nat) : List (Nat × Nat × Nat) := winPieces s x (len / 256 + 2) o 0 len

/-- The offset of a context's last scratchpad access noted (R517). -/
def noteOff (s : State) (x : Context) (w : Nat) : State := setCtx s x.half x.core x.slot fun c => { c with lastOff := w }

/-- A read from the window: it stops at the first refused 256 B. -/
def Run.winRead (r : Run) (x : Context) (o len : Nat) : Run × List Byte :=
  (winAll r.s x o len).foldl (fun q p =>
    let u : Run := if q.1.fail.isSome then q.1 else { q.1 with s := noteOff q.1.s x p.1 }
    let g := u.read x (scratchBase x.coreNo + p.1) p.2.2
    (g.1, q.2 ++ g.2)) (r, [])

/-- A write into the window: it stops at the first refused 256 B, and the bytes before are written (R255). -/
def Run.winWrite (r : Run) (x : Context) (o : Nat) (b : List Byte) : Run :=
  (winAll r.s x o b.length).foldl (fun q p =>
    let u : Run := if q.fail.isSome then q else { q with s := noteOff q.s x p.1 }
    u.write x (scratchBase x.coreNo + p.1) ((b.drop p.2.1).take p.2.2)) r

/-- What a context's accesses have come to: the state, or the fault of the first that failed. -/
def Run.done (r : Run) (x : Context) : State :=
  match r.fail with
  | none => r.s
  | some f => ctxAccessFail r.s ((ctxAt r.s x.half x.core x.slot).getD x) f.write f.status f.addr f.len

/-- A change of the state when no access has failed. -/
def Run.map (r : Run) (f : State → State) : Run := if r.fail.isSome then r else { r with s := f r.s }

/-- A change of the context when no access has failed. -/
def Run.ctx (r : Run) (x : Context) (f : Context → Context) : Run := r.map fun s => setCtx s x.half x.core x.slot f

/-! ### Operands (R211 to R213) -/

/-- Where an operand lies: by device address or in the window. -/
inductive Place where
  | memory | window
deriving DecidableEq, Repr

/-- An operand or a buffer: its format, place, first byte, rows, row length in elements and pitch in bytes. -/
structure Mat where
  fmt : Nat
  place : Place
  base : Nat
  rows : Nat
  len : Nat
  pitch : Nat
deriving DecidableEq, Repr

/-- The byte of element `c` of row `r`. -/
def Mat.at_ (m : Mat) (r c : Nat) : Nat :=
  if m.fmt = 0 then m.base + (r * m.len + c) / 2 else m.base + r * m.pitch + c * elemSize m.fmt

/-- The byte of the scale of element `c` of row `r` of an FP4 operand. -/
def Mat.scaleAt (m : Mat) (r c : Nat) : Nat := m.base + roundUp (m.rows * m.len / 2) 256 + (r * m.len + c) / 32

/-- Bytes of `n` elements. -/
def rowSize (fmt n : Nat) : Nat := if fmt = 0 then (n + 1) / 2 else n * elemSize fmt

/-- Bytes from where an operand lies. -/
def Run.get (r : Run) (x : Context) (p : Place) (a len : Nat) : Run × List Byte :=
  match p with
  | .memory => r.read x a len
  | .window => r.winRead x a len

/-- Bytes put where an operand lies. -/
def Run.put (r : Run) (x : Context) (p : Place) (a : Nat) (b : List Byte) : Run :=
  match p with
  | .memory => r.write x a b
  | .window => r.winWrite x a b

/-- Codes of `n` elements of a format from their bytes. -/
def codesOf (fmt n : Nat) (b : List Byte) : List Nat :=
  (List.range n).map fun i =>
    if fmt = 0 then bitsAt (fieldAt b (i / 2) 1) (4 * (i % 2)) 4 else fieldAt b (i * elemSize fmt) (elemSize fmt)

/-- Groups of up to 32 elements with their scale byte. -/
abbrev Groups := List (List FVal × Nat)

/-- `n` elements of a row from element `c` on, as groups. -/
def Run.row (r : Run) (x : Context) (m : Mat) (i c n : Nat) : Run × Groups :=
  let d := r.get x m.place (m.at_ i c) (rowSize m.fmt n)
  let q := if m.fmt = 0 then d.1.get x m.place (m.scaleAt i c) (ceilDiv n 32) else (d.1, [])
  let vs := (codesOf m.fmt n d.2).map (decodeElem m.fmt)
  (q.1, (List.range (ceilDiv n 32)).map fun g =>
    ((vs.drop (32 * g)).take 32, if m.fmt = 0 then fieldAt q.2 g 1 else 127))

/-- `n` elements of a row of a format other than FP4 as FP32 patterns, widened exactly (R215). -/
def Run.rowF32 (r : Run) (x : Context) (m : Mat) (i c n : Nat) : Run × List Nat :=
  let d := r.get x m.place (m.at_ i c) (rowSize m.fmt n)
  (d.1, (codesOf m.fmt n d.2).map fun v => if m.fmt = 6 then v else toF32 (decodeElem m.fmt v))

/-- Codes packed two to a byte, the even one low (R213). -/
def packNibbles : List Nat → List Nat
  | a :: b :: r => (a + 16 * b) :: packNibbles r
  | [a] => [a]
  | [] => []

/-- A row converted: its bytes, its scale bytes, and the counts of saturations and NaN events (R216, R217). -/
structure Converted where
  data : List Byte
  scales : List Byte
  sat : Nat
  nan : Nat
deriving DecidableEq, Repr

/-- FP32 values converted to a format. -/
def convRow (fmt : Nat) (xs : List Nat) : Converted :=
  if fmt = 0 then
    let bs := (List.range (ceilDiv xs.length 32)).map fun g => convBlock ((xs.drop (32 * g)).take 32)
    ⟨toBytes (packNibbles (bs.flatMap fun b => b.2.1)), toBytes (bs.map fun b => b.1), 0, (bs.map fun b => b.2.2).sum⟩
  else
    let cs := xs.map (convElem fmt)
    ⟨cs.flatMap fun c => leBytes (elemSize fmt) c.bits, [], (cs.map (·.sat)).sum, (cs.map (·.nan)).sum⟩

/-- Counts of conversions added to the core's and the half's counters (R216, R545). -/
def countNum (s : State) (x : Context) (sat nan : Nat) : State :=
  let s1 := bump (s.inc (.core .NUM_SAT) x.half sat x.core) x.half 0 8 sat
  bump (s1.inc (.core .NUM_NAN) x.half nan x.core) x.half 0 9 nan

/-- FP32 results as the vector unit writes them: a NaN is canonical, and counted (R216). -/
def f32Result (l : List Nat) : Converted := convRow 6 l

/-- Converted elements written at element `c` of row `i`. -/
def Run.putRow (r : Run) (x : Context) (m : Mat) (i c : Nat) (v : Converted) : Run :=
  let q := r.put x m.place (m.at_ i c) v.data
  if m.fmt = 0 then q.put x m.place (m.scaleAt i c) v.scales else q

/-! ### The sums of R214 -/

/-- The groups of one output element added to its accumulator, in ascending order. -/
def accGroups (acc : Nat) (a b : Groups) : Nat :=
  (a.zip b).foldl (fun t p => f32Add t (groupResult (List.zipWith FVal.mul p.1.1 p.2.1) p.1.2 p.2.2)) acc

/-- Rows `i, i + 1, …` of an operand, `n` of them, elements `c … c + k - 1`. -/
def Run.rows (r : Run) (x : Context) (m : Mat) (i c k : Nat) : Nat → Run × List Groups
  | 0 => (r, [])
  | n + 1 =>
    let d := r.row x m i c k
    let q := Run.rows d.1 x m (i + 1) c k n
    (q.1, d.2 :: q.2)

/-- FP32 patterns as bytes, and back. -/
def f32Bytes (l : List Nat) : List Byte := l.flatMap fun v => leBytes 4 v
def f32Of (n : Nat) (b : List Byte) : List Nat := codesOf 6 n b

end Sys2Proof.Machine
end

