-- ==== Sys2Proof/Machine/AttnUnits.lean ====
section
/-!
DEFINITION. Machine/AttnUnits.lean: attention chains cut into units and ranges: operands (R258, R268), visible key counts
(R273), window layouts and modes (R265, R266), and the order of the items (R274).
-/

namespace Sys2Proof.Machine

/-! ### Operands -/

def atQ (b : List Byte) : Nat := fieldAt b 0x18 8
def atO (b : List Byte) : Nat := fieldAt b 0x20 8
def atStats (b : List Byte) : Nat := if hdOpcode b = opVERIFY then 0 else fieldAt b 0x28 8
def atTree (b : List Byte) : Nat := fieldAt b 0x28 8
def atPos0 (b : List Byte) : Nat := fieldAt b 0x30 4
def atLen (b : List Byte) : Nat := fieldAt b 0x34 4
def atLayer (b : List Byte) : Nat := fieldAt b 0x38 2
def atMode (b : List Byte) : Nat := fieldAt b 0x3A 1 / 64
def atCausal (b : List Byte) : Bool := (fieldAt b 0x3A 1).testBit 4
def atBitmap (b : List Byte) : Bool := (fieldAt b 0x3A 1).testBit 5
def atQh (b : List Byte) : Nat := fieldAt b 0x3B 1
def atKvh0 (b : List Byte) : Nat := fieldAt b 0x3C 2
def atKvhN (b : List Byte) : Nat := fieldAt b 0x3E 2

/-- Query heads of the chain. -/
def atHeads (b : List Byte) : Nat := atKvhN b * atQh b

/-- The opcodes of attention. -/
def isAttn (c : Chain) : Bool := hdOpcode c.head == opATTN || hdOpcode c.head == opATTN_RING || hdOpcode c.head == opVERIFY
def isRing (c : Chain) : Bool := hdOpcode c.head == opATTN_RING
def isVerify (c : Chain) : Bool := hdOpcode c.head == opVERIFY

def maskOf (c : Chain) : List Byte := (extOf c kMASK).getD []
def posOf (c : Chain) : List Byte := (extOf c kPOS).getD []
def chunkOff (c : Chain) : Int := signedOf 32 (fieldAt (maskOf c) 0x1C 4)
def ropeEn (c : Chain) : Bool := (fieldAt (posOf c) 0x14 1).testBit 0
def biasEn (c : Chain) : Bool := (fieldAt (posOf c) 0x14 1).testBit 1

/-- Steps of the ring; 1 without a ring. -/
def ringSteps (c : Chain) : Nat := if isRing c then rgSteps (ringExt c) else 1

/-! ### Problems and units (R273) -/

/-- A problem of an attention chain: its entry, operand addresses, first position, rows and first head. -/
structure AProb where
  entry : Option Nat
  q : Nat
  o : Nat
  pos0 : Nat
  len : Nat
  kvh0 : Nat
deriving DecidableEq, Repr

/-- The problems of a chain (Table 5.10). -/
def attnProbs (c : Chain) : List AProb :=
  let b := c.head
  if (extOf c kGROUP).isSome then
    c.run.map fun i =>
      let e := c.entries.getD i []
      ⟨some i, atQ b + fieldAt e 0 4 * 64, atO b + fieldAt e 4 4 * 64, fieldAt e 8 4, fieldAt e 0xC 2, fieldAt e 0xE 2 % 4096⟩
  else [⟨none, atQ b, atO b, atPos0 b, atLen b, atKvh0 b⟩]

/-- A unit: its problem, its KV head, relative to KVH0, and its query block. -/
structure AUnit where
  p : AProb
  g : Nat
  qb : Nat
deriving DecidableEq, Repr

/-- P: query rows of a block. -/
def blockRows (b : List Byte) : Nat := 128 / max 1 (atQh b)

/-- The units of a chain, in entry, head and query block order. -/
def attnUnits (c : Chain) : List AUnit :=
  (attnProbs c).flatMap fun p =>
    (List.range (atKvhN c.head)).flatMap fun g => (List.range (ceilDiv p.len (blockRows c.head))).map fun qb => ⟨p, g, qb⟩

/-- The query rows of a unit. -/
def AUnit.rows (u : AUnit) (c : Chain) : List Nat :=
  (List.range (blockRows c.head)).filterMap fun i =>
    let r := u.qb * blockRows c.head + i
    if r < u.p.len then some r else none

/-- The position of a query row (R259, R277, R283). -/
def rowPosition (c : Chain) (p : AProb) (i : Nat) : Nat := if isRing c || isVerify c then c.rowPos.getD i 0 else p.pos0 + i

/-- KV_LEN of a problem (R268, §8.8). -/
def kvLen (c : Chain) (p : AProb) : Nat :=
  let m := fieldAt (maskOf c) 0x18 4
  if m ≠ 0 then m else p.pos0 + p.len

/-- The largest q* of a unit's rows. -/
def AUnit.qMax (u : AUnit) (c : Chain) : Int :=
  ((u.rows c).map fun i => (rowPosition c u.p i : Int) + chunkOff c).foldl max (-(2 ^ 33 : Nat))

/-- L: the visible key count of a unit. -/
def AUnit.visible (u : AUnit) (c : Chain) : Nat :=
  if atCausal c.head then (min (kvLen c u.p : Int) (u.qMax c + 1)).toNat else kvLen c u.p

/-! ### Layouts and modes (R265, R266) -/

/-- Bytes of the ancestor bits of a VERIFY. -/
def ancestorBytes (c : Chain) : Nat := if isVerify c then roundUp (ceilDiv (atLen c.head * atLen c.head) 8) 256 else 0

/-- Bytes of the streamed layout, and of the composed one at a padded key count (Table 8.2). -/
def streamedBytes (c : Chain) (d e : Nat) : Nat := 5 * 128 * d * e + 128 * 128 * 4 + 128 * 128 * e + 4096 + ancestorBytes c
def composedBytes (c : Chain) (d e lpad : Nat) : Nat := 5 * 128 * d * e + 128 * lpad * 4 + 128 * 128 * e + 4096 + ancestorBytes c

/-- Bytes of the combine receive area. -/
def combineBytes (d : Nat) : Nat := 128 * d * 4 + 1024

/-- The window of a context, in bytes. -/
def windowBytes (s : State) (x : Context) : Nat := (slotBanks s x.half x.core x.slot).length * 0x40000

/-- Key count padded to blocks. -/
def padded (l : Nat) : Nat := roundUp l 128

/-- A unit runs composed (R266). -/
def composedUnit (s : State) (c : Chain) (d e l : Nat) : Bool :=
  match atMode c.head with
  | 1 => false
  | 2 => true
  | _ =>
    let most := s.rd (.attn .ATTN_RULE_COMPOSED_MAX) c.half
    decide (most ≠ 0 ∧ l ≤ most * 128 ∧ composedBytes c d e (padded l) ≤ 0x80000)

/-! ### Items (R274) -/

/-- An item put in its place by a key. -/
def insertBy {α : Type} (key : α → List Nat) (x : α) : List α → List α
  | [] => [x]
  | y :: r => if lexLt (key x) (key y) then x :: y :: r else y :: insertBy key x r

/-- A list sorted by a key, equal keys in their order. -/
def sortBy {α : Type} (key : α → List Nat) (l : List α) : List α := l.foldl (fun acc x => insertBy key x acc) []

/-- Element size and head dimension of a request's cache. -/
def mapE (m : List Byte) : Nat := kvElem (mapFmt m)

/-- The contexts' windows of a chain hold the streamed layout with the combine receive area (R265). -/
def splitFits (s : State) (c : Chain) (m : List Byte) : Bool :=
  (ctxsOf s c.readNo).all fun x => decide (streamedBytes c (mapDim m) (mapE m) + combineBytes (mapDim m) ≤ windowBytes s x)

/-- The largest padded key count of a chain's units. -/
def maxPadded (c : Chain) : Nat := ((attnUnits c).map fun u => padded (u.visible c)).foldl max 0

/-- A context may take units of the chain: under MODE 2, its window holds the composed layout (R266). -/
def modeFits (s : State) (c : Chain) (m : List Byte) (x : Context) : Bool :=
  atMode c.head != 2 || decide (composedBytes c (mapDim m) (mapE m) (maxPadded c) ≤ windowBytes s x)

/-- Ranges of a unit (R274): `n` contexts, `u` units. -/
def rangesOf (s : State) (c : Chain) (fits composed : Bool) (n u l : Nat) : Nat :=
  if u < n ∧ fits = true ∧ composed = false then
    max 1 (min 16 (min (n / u) (l / (128 * s.rd (.attn .ATTN_RULE_SPLIT_MIN) c.half))))
  else 1

/-- Contexts of a chain's grant. -/
def Chain.width (c : Chain) : Nat := max 1 c.cores.length

/-- The items of a chain in the order of R274. -/
def attnItems (s : State) (c : Chain) (m : List Byte) : List AttnItem :=
  let us := attnUnits c
  let fits := splitFits s c m
  let all := (List.range us.length).flatMap fun i =>
    let u := us.getD i ⟨⟨none, 0, 0, 0, 0, 0⟩, 0, 0⟩
    let l := u.visible c
    let comp := composedUnit s c (mapDim m) (mapE m) l
    let n := rangesOf s c fits comp c.width us.length l
    (List.range n).map fun r => (⟨i, r, n, comp⟩ : AttnItem)
  sortBy (fun it =>
    let u := us.getD it.unit ⟨⟨none, 0, 0, 0, 0, 0⟩, 0, 0⟩
    [2 ^ 40 - u.visible c, u.p.kvh0 + u.g, u.qb, it.range]) all

/-- Items of a chain: those of R274, once per ring step. -/
def attnTotal (c : Chain) : Nat := ringSteps c * c.items.length

end Sys2Proof.Machine
end

