-- ==== Sys2Proof/Machine/Tiles.lean ====
section
/-!
DEFINITION. Machine/Tiles.lean: the work of MATMUL and FUSED contexts: problems and items (R190, R240 to R248), adapters (R344,
R345), buffer loads and halos (R236, R249), tile passes (R214, R239), and finished C blocks (R215, R246, R247, R251).
-/

namespace Sys2Proof.Machine

/-! ### Problems -/

/-- A problem of a chain: its group entry, the operands' addresses, its tables and its adapter slot. -/
structure Prob where
  entry : Option Nat
  a : Nat
  b : Nat
  c : Nat
  t : Nest
  t2 : Nest
  adapter : Option Nat
deriving DecidableEq, Repr

/-- A chain has a GROUP block. -/
def Chain.grouped (c : Chain) : Bool := (extOf c kGROUP).isSome

/-- The fields of a problem-group entry (Table 5.9). -/
def geOff0 (e : List Byte) : Nat := fieldAt e 0 4 * 64
def geOff1 (e : List Byte) : Nat := fieldAt e 4 4 * 64
def geOff2 (e : List Byte) : Nat := fieldAt e 8 4 * 64
def geDim (e : List Byte) : Nat := fieldAt e 0xC 2
def geSel (e : List Byte) : Nat := fieldAt e 0xE 2 % 32768
def geSkip (e : List Byte) : Bool := (fieldAt e 0xE 2).testBit 15 || geDim e == 0

/-- The adapter that a problem names: with AD_EN, the named value, moved by its request's slot when its REQ_OPEN set AD_EN
(R344). -/
def adapterSlot (s : State) (c : Chain) (en : Bool) (v : Nat) : Option Nat :=
  if en = false then none
  else match c.requestNum.bind s.request with
    | some r => some (if r.adapter.testBit 15 then r.adapter % 1024 + v else v)
    | none => some v

/-- The adapter of a chain's head, and of an entry. -/
def headAdapter (s : State) (c : Chain) : Option Nat :=
  adapterSlot s c ((fieldAt c.head 0x3A 2).testBit 15) (fieldAt c.head 0x3A 2 % 1024)
def entryAdapter (s : State) (c : Chain) (e : List Byte) : Option Nat := adapterSlot s c ((geSel e).testBit 14) (geSel e % 1024)

/-- The problems that a chain runs, with the tables that a context has read (R190, R237). -/
def problems (s : State) (c : Chain) (x : Context) : List Prob :=
  let t := parseNest x.nest
  let t2 := parseNest x.nest2
  let a := fieldAt c.head 0x18 8
  let b := fieldAt c.head 0x20 8
  let o := fieldAt c.head 0x28 8
  if c.grouped then
    c.run.map fun i =>
      let e := c.entries.getD i []
      ⟨some i, a + geOff0 e, b + geOff1 e, o + geOff2 e, t.withM (geDim e), t2, entryAdapter s c e⟩
  else [⟨none, a, b, o, t, t2, headAdapter s c⟩]

/-- The items of the problems, concatenated (R240). -/
def itemCount (ps : List Prob) : Nat := (ps.map fun p => p.t.items).sum

/-- The problem of an item, and its index in it. -/
def locate : List Prob → Nat → Option (Prob × Nat)
  | [], _ => none
  | p :: r, i => if i < p.t.items then some (p, i) else locate r (i - p.t.items)

/-! ### What a context works on -/

/-- The item that a context runs, in its phase: the table, the cell and K range, the formats, the operands, the first row of C
that row 0 of the table stands for, and the rows it has. -/
structure Job where
  c : Chain
  x : Context
  p : Prob
  t : Nest
  cell : List Nat
  range : Nat
  fa : Nat
  fb : Nat
  b : Nat
  m0 : Nat
  rows : Nat
  phase2 : Bool
deriving DecidableEq, Repr

/-- The chain of a context. -/
def chainOf (s : State) (x : Context) : Option Chain := s.chains.find? fun c => x.chainNo == some c.readNo

/-- Formats of a head and of a FUSE block. -/
def fmtA (c : Chain) : Nat := fieldAt c.head 0x38 1 / 16
def fmtB (c : Chain) : Nat := fieldAt c.head 0x38 1 % 16
def fmtC (c : Chain) : Nat := fieldAt c.head 0x39 1 / 16
def accOf (c : Chain) : Bool := fieldAt c.head 0x39 1 / 4 % 4 == 1
def alphaOf (c : Chain) : Nat := fieldAt c.head 0x3C 4
def fuseOf (c : Chain) : List Byte := (extOf c kFUSE).getD []
def fuseFn (c : Chain) : Nat := fieldAt (fuseOf c) 0x18 1
def fmtB2 (c : Chain) : Nat := fieldAt (fuseOf c) 0x19 1 / 16
def fmtI (c : Chain) : Nat := fieldAt (fuseOf c) 0x19 1 % 16
def isFused (c : Chain) : Bool := hdOpcode c.head == opFUSED

/-- A chain whose contexts run tables. -/
def isNest (c : Chain) : Bool := hdOpcode c.head == opMATMUL || isFused c

/-- The item of a context. -/
def jobOf (s : State) (x : Context) : Option Job :=
  match chainOf s x, x.item, x.idle with
  | some c, some i, false =>
    (locate (problems s c x) i).map fun q =>
      let v := q.1.t.itemAt q.2
      let m0 := q.1.t.origin v.1 v.2 q.1.t.spreads.length 0
      if x.phase2 then
        { c := c, x := x, p := q.1, t := q.1.t2, cell := [], range := 0, fa := fmtI c, fb := fmtB2 c,
          b := fieldAt (fuseOf c) 8 8, m0 := m0, rows := min q.1.t2.m (q.1.t.m - m0), phase2 := true }
      else
        { c := c, x := x, p := q.1, t := q.1.t, cell := v.1, range := v.2, fa := fmtA c, fb := fmtB c, b := q.1.b, m0 := 0,
          rows := q.1.t.m, phase2 := false }
  | _, _, _ => none

/-- The levels that load A and B and that store C. -/
def Job.jA (j : Job) : Nat := (j.t.levelWith Level.loadA).getD 0
def Job.jB (j : Job) : Nat := (j.t.levelWith Level.loadB).getD 0

/-- Level `k` of a job's table. -/
def Job.level (j : Job) (k : Nat) : Level := j.t.levels.getD k ⟨0, 0, 1, 0, 0, 0, 0⟩

/-- The number of the running iteration of a level in the item: the passes before it over those of one iteration. -/
def Job.iter (j : Job) (level : Nat) : Nat := j.x.pass / j.t.inner (level + 1)

/-- Iterations of a level in the item. -/
def Job.iterCount (j : Job) (level : Nat) : Nat := j.t.passes / j.t.inner (level + 1)

/-- Where the iteration numbered `n` of a level begins in a dimension. -/
def Job.originOf (j : Job) (level n d : Nat) : Nat :=
  j.t.origin (j.t.iters j.cell (n * j.t.inner (level + 1))) j.range (level + 1) d

/-- An operand is resident in an item whose K is split: its buffer holds the full K extent, which serves every range (R248). -/
def Job.wholeK (j : Job) (isB : Bool) : Bool := decide (1 < j.t.splitK) && (if isB then j.t.resB else j.t.resA)

/-- The first K element that the buffer of an operand at level `k` holds in iteration `n`. -/
def Job.firstK (j : Job) (isB : Bool) (k n : Nat) : Nat := if j.wholeK isB then 0 else j.originOf k n 2

/-- The buffer of an operand at its level, for iteration `n` (R234): `isB` B, else A. -/
def Job.buffer (j : Job) (isB : Bool) (n : Nat) : Mat :=
  let k := if isB then j.jB else j.jA
  let l := j.level k
  let fmt := if isB then j.fb else j.fa
  let rows := j.t.extent k (if isB then 1 else 0)
  let len := if j.wholeK isB then j.t.k else j.t.extent k 2
  let copy := if l.dbl then n % 2 else 0
  { fmt := fmt, place := .window,
    base := (if isB then l.bBuf else l.aBuf) * 256 + copy * roundUp (bufBytes fmt rows len) 256, rows := rows, len := len,
    pitch := if j.t.halo ∧ isB = false then j.t.lda else len * elemSize fmt }

/-- The operand in memory. -/
def Job.source (j : Job) (isB : Bool) : Mat :=
  if isB then ⟨j.fb, .memory, j.b, j.t.n, j.t.k, j.t.ldb⟩ else ⟨j.fa, .memory, j.p.a, j.t.m, j.t.k, j.t.lda⟩

/-- C in memory. -/
def Job.result (j : Job) : Mat := ⟨fmtC j.c, .memory, j.p.c, j.p.t.m, j.t.n, j.t.ldc⟩

/-- The intermediate buffer (R251, R252): rows of an item by the intermediate's width, at NEST2's A buffer. -/
def Job.inter (j : Job) : Mat :=
  let t2 := j.p.t2
  let l := (t2.levels.getD ((t2.levelWith Level.loadA).getD 0) ⟨0, 0, 1, 0, 0, 0, 0⟩)
  ⟨fmtI j.c, .window, l.aBuf * 256, t2.m, t2.k, t2.k * elemSize (fmtI j.c)⟩

/-! ### Loads (R236, R249) -/

/-- The code of a load in `loads` and `landed`. -/
def loadCode (isB : Bool) (n : Nat) : Nat := 2 * n + bit isB

/-- The code of a landed halo. -/
def haloCode : Nat := 2 ^ 80

/-- Phase 2 reads its A from the intermediate buffer and loads none. -/
def Job.loads (j : Job) (isB : Bool) : Bool := isB || !j.phase2

/-- The next load of an operand that may be issued: the running iteration's, or with DBL the one after it. -/
def Job.nextLoad (j : Job) (isB : Bool) : Option Nat :=
  let k := if isB then j.jB else j.jA
  let i := j.iter k
  let known (n : Nat) : Bool := j.x.loads.contains (loadCode isB n) || j.x.landed.contains (loadCode isB n)
  if j.loads isB = false ∨ j.iterCount k ≤ i then none
  else if known i = false then some i
  else if (j.level k).dbl ∧ i + 1 < j.iterCount k ∧ known (i + 1) = false ∧ j.x.landed.contains (loadCode isB i) then some (i + 1)
  else none

/-- The data of one row of a load: it stops at the operand's edge. -/
def loadRow (x : Context) (src dst : Mat) (m c k row : Nat) (r : Run) : Run :=
  let d := r.get x src.place (src.at_ (m + row) c) (rowSize src.fmt k)
  d.1.winWrite x (dst.at_ row 0) d.2

/-- The scales of one row of a load, which lie beyond the data of all rows (R248). -/
def loadScales (x : Context) (src dst : Mat) (m c k row : Nat) (r : Run) : Run :=
  let e := r.get x src.place (src.scaleAt (m + row) c) (ceilDiv k 32)
  e.1.winWrite x (dst.scaleAt row 0) e.2

/-- A span of A under HALO: the group's own rows, contiguous (R249). -/
def loadSpan (j : Job) (n : Nat) (r : Run) : Run :=
  let m := j.originOf j.jA n 0
  let rows := min (j.t.extent j.jA 0) (j.t.m - m)
  let d := r.read j.x (j.p.a + m * j.t.lda) (rows * j.t.lda)
  d.1.winWrite j.x (j.buffer false n).base d.2

/-- A load performed: the operand's rows of iteration `n` moved into the buffer, in the order of their bytes there (R255). -/
def Job.load (j : Job) (isB : Bool) (n : Nat) (r : Run) : Run :=
  if j.t.halo ∧ isB = false then loadSpan j n r
  else
    let k := if isB then j.jB else j.jA
    let d := if isB then 1 else 0
    let dst := j.buffer isB n
    let m := j.originOf k n d
    let c := j.firstK isB k n
    let rows := min dst.rows (j.t.len d - m)
    let len := min dst.len (j.t.k - c)
    let src := j.source isB
    let d := (List.range rows).foldl (fun q row => loadRow j.x src dst m c len row q) r
    if src.fmt = 0 then (List.range rows).foldl (fun q row => loadScales j.x src dst m c len row q) d else d

/-- Bytes of a halo, and where they lie: the operand's bytes after the group's span (R249). -/
def Job.haloBytes (j : Job) : Nat := j.t.k * elemSize j.fa - j.t.lda
def Job.haloAt (j : Job) : Nat × Nat :=
  let m := j.originOf j.jA 0 0
  let rows := min (j.t.extent j.jA 0) (j.t.m - m)
  (j.p.a + (m + rows) * j.t.lda, (j.buffer false 0).base + rows * j.t.lda)

/-! ### Tile passes (R214, R239) -/

/-- The level that stores C, none when the whole of C is the block. -/
def Job.jC (j : Job) : Option Nat := j.t.levelWith Level.storeC

/-- Passes of a C block. -/
def Job.blockPasses (j : Job) : Nat :=
  match j.jC with
  | some k => j.t.inner (k + 1)
  | none => j.t.passes

/-- A C block: its number in the item, its first row and column, and its rows and columns inside the matrix. -/
structure Blk where
  no : Nat
  m : Nat
  n : Nat
  rows : Nat
  cols : Nat
deriving DecidableEq, Repr

/-- The block to which pass `p` belongs. -/
def Job.blockAt (j : Job) (p : Nat) : Blk :=
  let no := p / j.blockPasses
  match j.jC with
  | some k =>
    let m := j.originOf k no 0
    let n := j.originOf k no 1
    ⟨no, m, n, min (j.t.extent k 0) (j.rows - m), min (j.t.extent k 1) (j.t.n - n)⟩
  | none => ⟨no, 0, 0, j.rows, j.t.n⟩

/-- The block stays in the accumulator store: it has at most 65,536 elements (R239). -/
def Job.inStore (j : Job) : Bool := decide (j.t.block.1 * j.t.block.2 ≤ 65536)

/-- The C buffer, holding FP32 partials or finished elements (R234). -/
def Job.cBuffer (j : Job) (fmt : Nat) : Mat :=
  let b := j.t.block
  let l := j.level (j.jC.getD 0)
  ⟨fmt, .window, (if j.jC.isSome then l.cBuf else 0) * 256, b.1, b.2, b.2 * elemSize fmt⟩

/-- A tile: first row, column and K element, with the rows, columns and elements inside the operands. -/
structure TileAt where
  m : Nat
  n : Nat
  k : Nat
  rows : Nat
  cols : Nat
  depth : Nat
deriving DecidableEq, Repr

/-- The tile of pass `p`. -/
def Job.tileAt (j : Job) (p : Nat) : TileAt :=
  let its := j.t.iters j.cell p
  let o := j.t.origin its j.range j.t.levels.length
  ⟨o 0, o 1, o 2, min (j.t.tile 0) (j.rows - o 0), min (j.t.tile 1) (j.t.n - o 1),
    min (j.t.tile 2) (j.t.kEnd j.range - o 2)⟩

/-- First K element of the item's range. -/
def Job.kStart (j : Job) : Nat := if 1 < j.t.splitK then j.range * j.t.rangeLen else 0

/-- A tile's rows of an operand, from its buffer or, for A in phase 2, from the intermediate. -/
def Job.tileRows (j : Job) (isB : Bool) (q : TileAt) (r : Run) : Run × List Groups :=
  if j.phase2 ∧ isB = false then r.rows j.x j.inter q.m q.k q.depth q.rows
  else
    let k := if isB then j.jB else j.jA
    let n := j.iter k
    let d := if isB then 1 else 0
    r.rows j.x (j.buffer isB n) ((if isB then q.n else q.m) - j.originOf k n d) (q.k - j.firstK isB k n) q.depth
      (if isB then q.cols else q.rows)

/-- The sums of a tile over a row of accumulators: column `i` of the row. -/
def tileRow (a : Groups) (bs : List Groups) (old : List Nat) : List Nat := List.zipWith (fun o b => accGroups o a b) old bs

/-- A list with the part from `i` on replaced by another list. -/
def putAt (l : List Nat) (i : Nat) (v : List Nat) : List Nat := l.take i ++ v ++ l.drop (i + v.length)

/-- A pass into the slot's half of the accumulator store. -/
def passStore (j : Job) (q : TileAt) (b : Blk) (as bs : List Groups) (acc : List Nat) : List Nat :=
  let acc0 := if acc.length = b.rows * b.cols then acc else List.replicate (b.rows * b.cols) 0
  (List.range as.length).foldl (fun t i =>
    let at_ := (q.m - b.m + i) * b.cols + (q.n - b.n)
    let old := if q.k = j.kStart then List.replicate q.cols 0 else (t.drop at_).take q.cols
    putAt t at_ (tileRow (as.getD i []) bs old)) acc0

/-- A pass through the C buffer in the window (R215, R239). -/
def passWindow (j : Job) (q : TileAt) (b : Blk) (as bs : List Groups) (r : Run) : Run :=
  let m := j.cBuffer 6
  (List.range as.length).foldl (fun t i =>
    let row := q.m - b.m + i
    let col := q.n - b.n
    let d := if q.k = j.kStart then (t, List.replicate q.cols 0) else
      (let g := t.winRead j.x (m.at_ row col) (4 * q.cols)
       (g.1, f32Of q.cols g.2))
    d.1.winWrite j.x (m.at_ row col) (f32Bytes (tileRow (as.getD i []) bs d.2))) r

/-- A tile pass enters the array and its sums are formed; the last pass of a C block leaves the block to be finished. -/
def Job.pass (j : Job) (r : Run) : Run :=
  let q := j.tileAt j.x.pass
  let b := j.blockAt j.x.pass
  let ra := j.tileRows false q r
  let rb := j.tileRows true q ra.1
  let u := if j.inStore then rb.1.ctx j.x fun c => { c with acc := passStore j q b ra.2 rb.2 c.acc }
    else passWindow j q b ra.2 rb.2 rb.1
  u.ctx j.x fun c => { c with pass := c.pass + 1, inArray := c.inArray + 1, vec := (c.pass + 1) % j.blockPasses == 0, vrow := 0 }

/-- The operands of the next pass are in the window. -/
def Job.ready (j : Job) : Bool :=
  (j.phase2 || (j.x.landed.contains (loadCode false (j.iter j.jA)) && (!j.t.halo || j.x.landed.contains haloCode))) &&
    j.x.landed.contains (loadCode true (j.iter j.jB))

/-! ### Adapters (R343 to R345) -/

/-- The region of a READY slot, its rank and its format. -/
def adpBase (s : State) (h : Half) (i : Nat) : Nat := s.rd (.sched .ADP_SLOT_DST) h i * 256
def adpRank (s : State) (h : Half) (i : Nat) : Nat := s.rd (.sched .ADP_SLOT_RANK) h i
def adpFmt (s : State) (h : Half) (i : Nat) : Nat := s.rd (.sched .ADP_SLOT_FMT) h i

/-- The status of a problem's adapter slot; its K and N are compared with the header's (R344). -/
def adapterStatus (s : State) (h : Half) (fn i k n : Nat) : Nat :=
  let inside := if fn = pf then decide (i < 1024)
    else inRange i (s.rd (.sched .ADP_ALLOC_BASE) h fn) (s.rd (.sched .ADP_ALLOC_COUNT) h fn)
  if inside = false then ST_ADAPTER_SLOT
  else if s.rd (.sched .ADP_SLOT_STATE) h i ≠ 2 then ST_ADAPTER_EMPTY
  else if s.mem.readLE (adpBase s h i + 4) 4 ≠ k ∨ s.mem.readLE (adpBase s h i + 8) 4 ≠ n then ST_ADAPTER_FIT
  else ST_OK

/-- One row of T = A × Dᵀ, multiplied by SCALE and converted to BF16 or E4M3, as groups with the conversion's counts. -/
def adapterT (fmt scale : Nat) (a : Groups) (ds : List Groups) : Groups × Converted :=
  let out := if fmt = 4 ∨ fmt = 5 then 4 else 1
  let v := convRow out (ds.map fun d => f32Mul (accGroups 0 a d) scale)
  let vs := (codesOf out ds.length v.data).map (decodeElem out)
  ((List.range (ceilDiv ds.length 32)).map fun g => ((vs.drop (32 * g)).take 32, 127), v)

/-- The adapter's correction of one row of a block. -/
def adapterRow (j : Job) (fmt scale : Nat) (ds us : List Groups) (m : Nat) (r : Run) (old : List Nat) : Run × List Nat :=
  let a := r.row j.x (j.source false) m 0 j.t.k
  let t := adapterT fmt scale a.2 ds
  (a.1.map fun s => countNum s j.x t.2.sat t.2.nan, tileRow t.1 us old)

/-- The accumulators of a block's rows with the adapter's groups added (R345): `rows` are those of block rows 0, 1, …. -/
def adapterBlock (j : Job) (b : Blk) (rows : List (List Nat)) (r : Run) : Run × List (List Nat) :=
  match j.p.adapter with
  | none => (r, rows)
  | some i =>
    if j.phase2 then (r, rows)
    else
      let h := j.c.half
      let base := adpBase r.s h i
      let fmt := adpFmt r.s h i
      let rank := adpRank r.s h i
      let hd := r.read j.x base 0x1C
      let md : Mat := ⟨fmt, .memory, base + fieldAt hd.2 0x14 4, rank, j.t.k, j.t.k * elemSize fmt⟩
      let mu : Mat := ⟨fmt, .memory, base + fieldAt hd.2 0x18 4, j.t.n, rank, rank * elemSize fmt⟩
      let ds := hd.1.rows j.x md 0 0 j.t.k rank
      let us := ds.1.rows j.x mu b.n 0 rank b.cols
      (List.range rows.length).foldl (fun q i =>
        let o := adapterRow j fmt (fieldAt hd.2 0x10 4) ds.2 us.2 (b.m + i) q.1 (rows.getD i [])
        (o.1, q.2 ++ [o.2])) (us.1, [])

/-! ### Finished blocks (R215, R246, R247, R251) -/

/-- The FP32 sums of a block's rows. -/
def Job.sums (j : Job) (b : Blk) (r : Run) : Run × List (List Nat) :=
  if j.inStore then
    (r, (List.range b.rows).map fun i => ((((ctxAt r.s j.x.half j.x.core j.x.slot).getD j.x).acc).drop (i * b.cols)).take b.cols)
  else
    (List.range b.rows).foldl (fun q i =>
      let d := q.1.winRead j.x ((j.cBuffer 6).at_ i 0) (4 * b.cols)
      (d.1, q.2 ++ [f32Of b.cols d.2])) (r, [])

/-- R215 on one row: times ALPHA, plus the old C, converted, staged in the C buffer and written to C. -/
def finishRow (j : Job) (b : Blk) (alpha i : Nat) (sums : List Nat) (r : Run) : Run :=
  let c := j.result
  let v1 := sums.map (f32Mul alpha)
  let old := if accOf j.c then r.rowF32 j.x c (j.m0 + b.m + i) b.n b.cols else (r, [])
  let v2 := if accOf j.c then List.zipWith f32Add v1 old.2 else v1
  let v := convRow (fmtC j.c) v2
  let q1 := old.1.map fun s => countNum s j.x v.sat v.nan
  let q2 := if j.jC.isSome then q1.putRow j.x (j.cBuffer (fmtC j.c)) i 0 v else q1
  q2.putRow j.x c (j.m0 + b.m + i) b.n v

/-- The factor of R215 step 1: 1 in phase 2 (R252). -/
def Job.alpha (j : Job) : Nat := if j.phase2 then f32One else alphaOf j.c

/-- A block finished and written. -/
def finishBlock (j : Job) (b : Blk) (r : Run) : Run :=
  let v := j.sums b r
  let w := adapterBlock j b v.2 v.1
  (List.range w.2.length).foldl (fun q i => finishRow j b j.alpha i (w.2.getD i []) q) w.1

/-- The partial area (R246), as an operand of FP32. -/
def Job.partials (j : Job) (range : Nat) : Mat :=
  ⟨6, .memory, j.p.c + j.t.part * 2 ^ 20 + range * j.t.m * j.t.n * 4, j.t.m, j.t.n, j.t.n * 4⟩

/-- A row of partials moved: outside HBM it fails as R43 states. -/
def Run.putPart (r : Run) (x : Context) (a : Nat) (b : List Byte) : Run :=
  if r.fail.isSome then r
  else match targetOf a with
    | .hbm _ => r.write x a b
    | _ => { r with fail := some ⟨true, ST_ADDR_INVALID, a, b.length⟩ }

/-- The name of a C block among those of its chain: its visiting position and its number in the item. -/
def Job.blockKey (j : Job) (b : Blk) : Nat := (j.x.item.getD 0) / j.t.splitK * 2 ^ 64 + b.no

/-- Ranges of a block that have written their partial. -/
def rangesDone (c : Chain) (key : Nat) : Nat := ((c.blocks.find? fun q => q.1 == key).map (·.2)).getD 0

/-- A range's partial written and counted; the write that completes the count leaves the block to be combined (R247). -/
def storePartial (j : Job) (b : Blk) (r : Run) : Run :=
  let v := j.sums b r
  let q := (List.range v.2.length).foldl (fun t i =>
    t.putPart j.x ((j.partials j.range).at_ (b.m + i) b.n) (f32Bytes (v.2.getD i []))) v.1
  let key := j.blockKey b
  let q2 := q.map fun s => mapChains s fun d =>
    if d.readNo = j.c.readNo then
      { d with blocks := (d.blocks.filter fun p => p.1 != key) ++ [(key, rangesDone d key + 1)] } else d
  q2.map fun s =>
    let full := (s.chains.find? fun d => d.readNo == j.c.readNo).map fun d => decide (j.t.splitK ≤ rangesDone d key)
    setCtx s j.x.half j.x.core j.x.slot fun c => { c with comb := full.getD false }

/-- The sum of a row's partials in ascending range (R247). -/
def combineRow (j : Job) (b : Blk) (i : Nat) : Nat → Run → Run × List Nat
  | 0, r => r.rowF32 j.x (j.partials 0) (b.m + i) b.n b.cols
  | n + 1, r =>
    let lo := combineRow j b i n r
    let d := lo.1.rowF32 j.x (j.partials (n + 1)) (b.m + i) b.n b.cols
    (d.1, List.zipWith f32Add lo.2 d.2)

/-- A block combined, finished and written (R247). -/
def combineBlock (j : Job) (b : Blk) (r : Run) : Run :=
  let q := (List.range b.rows).foldl (fun t i =>
    let v := combineRow j b i (j.t.splitK - 1) t
    finishRow j b (alphaOf j.c) i v.2 v.1) r
  q.map fun s => s.inc (.tile .TD_COMBINE) j.x.half 1 (j.x.core / 64)

/-- One row of phase 1: times ALPHA, the row function, converted, into the intermediate buffer (R251). -/
def interRow (j : Job) (b : Blk) (i : Nat) (sums : List Nat) (r : Run) : Run :=
  let fn := fuseFn j.c
  let out := rowFunction fn (fieldAt (fuseOf j.c) 0x1C 4) (sums.map (f32Mul (alphaOf j.c)))
  let v := convRow (fmtI j.c) out
  let m0 := j.p.t.origin j.cell 0 j.p.t.spreads.length 0
  (r.map fun s => countNum s j.x v.sat v.nan).putRow j.x j.inter (b.m + i - m0) (interWidth fn b.n) v

end Sys2Proof.Machine
end

