-- ==== Sys2Proof/Machine/Cores.lean ====
section
/-!
DEFINITION. Machine/Cores.lean: the commands of the cores for MATMUL and FUSED (§6, §7): tables and groups at dispatch (R191,
R192, R235, R237), items and the work counter (R242 to R244), loads, passes, boundaries, vector steps, combines, halos and slot
switches (R208 to R210, R226, R236, R247, R249, R252), the cores' registers (R230, R231), and the two opcodes as a whole.
-/

namespace Sys2Proof.Machine

/-! ### Tables and groups -/

/-- TD_NEST_ERR of the die of a context (R235). -/
def nestError (s : State) (x : Context) (table : Nat) (o : Nat × NestFail) : State :=
  let d := x.core / 64
  (((s.wr (.tile .TD_NEST_ERR_STATUS) x.half o.1 d).wr (.tile .TD_NEST_ERR_ENTRY) x.half o.2.1 d).wr
    (.tile .TD_NEST_ERR_TABLE) x.half table d).wr (.tile .TD_NEST_ERR_OFFSET) x.half o.2.2 d

/-- Entries of a chain's GROUP block. -/
def groupCount (c : Chain) : Nat := fieldAt ((extOf c kGROUP).getD []) 0x10 4

/-- A chain fails before any of its work: every entry takes the status, and its contexts end. -/
def failChain (s : State) (c : Chain) (status : Nat) : State :=
  let s1 := mapChains s fun d =>
    if d.readNo = c.readNo then
      { d.fail status with stop := true, fails := if c.grouped then (List.range (groupCount c)).map fun i => (i, status) else [] }
    else d
  settleChain ((ctxsOf s1 c.readNo).foldl endContext s1) c.readNo

/-- The entries of a group read in blocks of up to 256: the state, the entries, and the status of the read that failed
(R191). -/
def readEntries (w : Who) (a : Nat) : Nat → Nat → State → State × List (List Byte) × Nat
  | 0, _, s => (s, [], ST_OK)
  | fuel + 1, n, s =>
    if n = 0 then (s, [], ST_OK)
    else
      let k := min n 256
      let q := readAt s w a (16 * k)
      if q.1 ≠ ST_OK then (q.2.1, [], q.1)
      else
        let es := (List.range k).map fun i => (q.2.2.drop (16 * i)).take 16
        let r := readEntries w (a + 16 * k) fuel (n - k) q.2.1
        (r.1, es ++ r.2.1, r.2.2)

/-- The fails and the entries run of a group, from each entry's status, in entry order; with STOP_ON_ERR nothing after the
first failure is run (R191, R192). -/
def groupPlan (stop : Bool) (skip : List Byte → Bool) (st : List Byte → Nat) :
    Nat → List (List Byte) → List (Nat × Nat) × List Nat
  | _, [] => ([], [])
  | i, e :: r =>
    if skip e then groupPlan stop skip st (i + 1) r
    else if st e ≠ ST_OK then
      if stop then ([(i, st e)], [])
      else
        let q := groupPlan stop skip st (i + 1) r
        ((i, st e) :: q.1, q.2)
    else
      let q := groupPlan stop skip st (i + 1) r
      (q.1, i :: q.2)

/-- A chain's group read and planned; entries that could not be read fail with the status of the read. -/
def beginGroup (s : State) (c : Chain) (skip : List Byte → Bool) (st : State → List Byte → Nat) : State :=
  let g := (extOf c kGROUP).getD []
  let n := fieldAt g 0x10 4
  let stop := (fieldAt g 0x14 1).testBit 0
  let upTo := match c.listFail with
    | some i => min n (i / 256 * 256)
    | none => n
  let q := readEntries (engine c.half (ringFn c.ring)) (fieldAt g 8 8) 64 upTo s
  let readSt := if q.2.2 = ST_OK ∧ upTo < n then ST_HOST_ACCESS else q.2.2
  let plan := groupPlan stop skip (st q.1) 0 q.2.1
  let cut := stop && !plan.1.isEmpty
  let unread := if readSt = ST_OK ∨ cut = true then []
    else (List.range (n - q.2.1.length)).map fun i => (q.2.1.length + i, readSt)
  mapChains q.1 fun d =>
    if d.readNo = c.readNo then
      { d with entries := q.2.1, fails := plan.1 ++ unread, run := plan.2, detail := 0xFFFF, checked := true }
    else d

/-- The status of a MATMUL or FUSED entry before it is run: its fields, then its adapter (Table 5.10, R344). -/
def nestEntryStatus (c : Chain) (t : Nest) (s : State) (e : List Byte) : Nat :=
  if t.m < geDim e ∨ bitsAt (geSel e) 10 4 ≠ 0 then ST_GROUP_ENTRY
  else match entryAdapter s c e with
    | some i => adapterStatus s c.half (ringFn c.ring) i t.k t.n
    | none => ST_OK

/-- The outcome of a chain's tables, with the table's number. -/
def tablesCheck (s : State) (c : Chain) (x : Context) : Option (Nat × Nat × NestFail) :=
  if isFused c then
    match fusedNestCheck x.nest (fmtA c) (fmtB c) (fmtI c) (fuseFn c) c.grouped with
    | some o => some (0, o)
    | none => (fusedNest2Check x.nest x.nest2 (fmtI c) (fmtB2 c) (fmtC c) (fuseFn c) c.grouped).map fun o => (1, o)
  else (matmulCheck x.nest (fmtA c) (fmtB c) (fmtC c) c.grouped (headAdapter s c).isSome).map fun o => (0, o)

/-- A chain's first dispatch: its tables are checked, and its group read and planned (R235, R191). -/
def beginNest (s : State) (c : Chain) (x : Context) : State :=
  match tablesCheck s c x with
  | some o => failChain (nestError s x o.1 o.2) c o.2.1
  | none =>
    let t := parseNest x.nest
    if c.grouped then beginGroup s c geSkip (nestEntryStatus c t)
    else
      let s1 := mapChains s fun d => if d.readNo = c.readNo then { d with checked := true } else d
      match headAdapter s c with
      | some i =>
        let st := adapterStatus s c.half (ringFn c.ring) i t.k t.n
        if st = ST_OK then s1 else failChain s1 c st
      | none => s1

/-- A context reads its tables (R237); the chain's first one has them checked. -/
def dispatchNest (s : State) (c : Chain) (x : Context) : State :=
  let r1 := (⟨s, none⟩ : Run).read x (fieldAt c.head 0x30 8) 128
  let r2 := if isFused c then r1.1.read x (fieldAt (fuseOf c) 0x10 8) 128 else (r1.1, [])
  let r3 := r2.1.ctx x fun d => { d with nest := r1.2, nest2 := r2.2, read := true }
  match r3.fail, c.checked with
  | none, false => beginNest r3.s c { x with nest := r1.2, nest2 := r2.2, read := true }
  | _, _ => r3.done x

/-! ### Items (R240 to R244) -/

/-- A context may begin items and issue loads: its slot is LOADED or RUNNING. -/
def ctxLive (s : State) (x : Context) : Bool :=
  let k := slotState s x.half x.core x.slot
  x.read && !x.waiting && (k == 1 || k == 2)

/-- The items of a context under static assignment (R242, R248). -/
def staticList (c : Chain) (x : Context) (ps : List Prob) : List Nat :=
  match ps with
  | [p] => p.t.staticItems p.t.items x.rank c.width
  | _ => (List.range (itemCount ps)).filter fun i => i % c.width == x.rank

/-- The chain hands out items by its work counter: DYN, and always for attention (R243, R274). -/
def dynamic (c : Chain) (x : Context) : Bool := isAttn c || (parseNest x.nest).dyn

/-- Items of a context's chain. -/
def totalItems (s : State) (c : Chain) (x : Context) : Nat := if isAttn c then attnTotal c else itemCount (problems s c x)

/-- The next item of a context: none while it is not known, `some none` when there is none. -/
def nextItem (s : State) (c : Chain) (x : Context) : Option (Option Nat) :=
  if dynamic c x then x.next.map fun i => if i < totalItems s c x then some i else none
  else if c.stop then some none
  else
    let l := staticList c x (problems s c x)
    match x.item with
    | none => some l.head?
    | some i => some ((l.dropWhile fun k => k != i).tail.head?)

/-- WORK_FETCH (R243): a context that begins an item, or starts, fetches the next index. -/
def workFetch (s : State) (c : Chain) (x : Context) : State :=
  if ctxLive s x = true ∧ dynamic c x = true ∧ x.next = none ∧ x.fetching = false then
    setCtx s x.half x.core x.slot fun d => { d with fetching := true }
  else s

/-- A context whose last item is known to be done ends. -/
def endIfDone (s : State) (c : Chain) (x : Context) : State :=
  match ctxAt s x.half x.core x.slot with
  | some y => if y.idle = true ∧ nextItem s ((chainOf s y).getD c) y = some none then endContext s y else s
  | none => s

/-- WORK_INDEX_RETURN (R243, R244): the home counter answers, or the Pass that the answer needs is down. -/
def workReturn (s : State) (c : Chain) (x : Context) : State :=
  if x.fetching = false then s
  else if x.half ≠ c.half ∧ s.lanesUp = false then passDownChain s c.readNo
  else
    let i := if c.stop then totalItems s c x else c.work
    let s1 := mapChains s fun d => if d.readNo = c.readNo ∧ d.stop = false then { d with work := d.work + 1 } else d
    let s2 := setCtx s1 x.half x.core x.slot fun d => { d with fetching := false, next := some i }
    let remote := x.half != c.half || x.core / 64 != c.cores.headD x.core / 64
    endIfDone (if remote then s2.inc (.tile .TD_REMOTE) x.half 1 (x.core / 64) else s2) c x

/-- Two items share their resident operand (R248). -/
def sameGroup (t : Nest) (o : Option Nat) (i : Nat) : Bool :=
  match o with
  | some k => (t.resA || t.resB) && t.resGroup k == t.resGroup i
  | none => false

/-- An item begun (R236, R240). -/
def beginItem (s : State) (c : Chain) (x : Context) (i : Nat) : State :=
  let q := locate (problems s c x) i
  let t := parseNest x.nest
  let kept (k : Nat) : Bool := sameGroup t x.item i && (k == haloCode || (t.resA && k == loadCode false 0) || (t.resB && k == loadCode true 0))
  let s1 := setCtx s x.half x.core x.slot fun d =>
    { d with item := some i, next := none, idle := false, pass := 0, phase2 := false, acc := [], vec := false, vrow := 0,
             comb := false, loads := d.loads.filter kept, landed := d.landed.filter kept,
             entry := q.bind fun p => p.1.entry }
  bump (s1.inc (.tile .TD_ITEMS) x.half 1 (x.core / 64)) x.half 0 1 1

/-- ITEM_START for a context that runs tables. -/
def itemStart (s : State) (c : Chain) (x : Context) : State :=
  if ctxLive s x = true ∧ x.idle = true then
    match nextItem s c x with
    | some (some i) => beginItem s c x i
    | some none => endContext s x
    | none => s
  else s

/-- An item is done. -/
def afterItem (s : State) (c : Chain) (x : Context) : State :=
  endIfDone (setCtx s x.half x.core x.slot fun d => { d with idle := true, entry := none }) c x

/-! ### Loads (R236) -/

/-- A load issued. -/
def loadIssue (s : State) (x : Context) (isB : Bool) : State :=
  match jobOf s x with
  | some j =>
    match j.nextLoad isB with
    | some n =>
      if ctxLive s x then setCtx s x.half x.core x.slot fun d => { d with loads := d.loads ++ [loadCode isB n] } else s
    | none => s
  | none => s

/-- A load lands: its bytes are in the window. A load issued before a switch lands too (§7.3). -/
def loadLand (s : State) (x : Context) (isB : Bool) : State :=
  match jobOf s x, x.loads.find? fun k => k % 2 == bit isB with
  | some j, some k =>
    let r := (j.load isB (k / 2) ⟨s, none⟩).ctx x fun d =>
      { d with loads := d.loads.filter fun q => q != k,
               landed := (d.landed.filter fun q => q == haloCode || q % 2 != bit isB || k ≤ q + 2) ++ [k] }
    r.done x
  | _, _ => s

/-! ### Halos (R249) -/

/-- The context that holds the group after an item's, on the same die. -/
def haloHolder (s : State) (j : Job) (g : Nat) : Option Context :=
  s.contexts.find? fun y => y.chainNo == some j.c.readNo && y.rank == (g + 1) % j.c.width && y.half == j.x.half &&
    y.core / 64 == j.x.core / 64 && y.rank != j.x.rank && y.read

/-- Where the halo comes from: another context's window once its load has landed, memory, or none yet. -/
def haloSource (s : State) (j : Job) : Option (Option Context) :=
  let g := j.t.resGroup (j.x.item.getD 0)
  let groups := ((List.range j.t.items).map j.t.resGroup).foldl max 0 + 1
  if groups ≤ g + 1 then some none
  else match haloHolder s j g with
    | none => some none
    | some y =>
      match y.item with
      | none => none
      | some i =>
        let k := j.t.resGroup i
        if k < g + 1 then none
        else if k = g + 1 then (if y.landed.contains (loadCode false 0) then some (some y) else none)
        else some none

/-- The halo of a context's group is still to come from another window: there is nothing that its next pass can read yet. -/
def haloStalled (s : State) (x : Context) : Bool :=
  match jobOf s x with
  | some j => j.t.halo && !j.phase2 && !(x.landed.contains haloCode) && (haloSource s j).isNone
  | none => false

/-- A halo received; a context SUSPENDED by its wait goes on (R332). -/
def haloTake (s : State) (x : Context) : Option State :=
  match jobOf s x with
  | none => none
  | some j =>
    if j.t.halo = false ∨ j.phase2 = true ∨ x.landed.contains haloCode = true ∨ (ctxLive s x || x.waiting) = false then none
    else match haloSource s j with
      | none => none
      | some src =>
        let n := j.haloBytes
        let a := j.haloAt
        let g : Run × List Byte := match src with
          | some y => (winAll s y (j.buffer false 0).base n).foldl (fun q p =>
              let d := q.1.read x (scratchBase y.coreNo + p.1) p.2.2
              (d.1, q.2 ++ d.2)) ((⟨s, none⟩ : Run), [])
          | none =>
            let d := (⟨s, none⟩ : Run).read x a.1 n
            (d.1.map fun t => t.inc (.tile .TD_HALO_MEM) x.half 1 (x.core / 64), d.2)
        let w := (g.1.winWrite x a.2 g.2).ctx x fun d => { d with landed := d.landed ++ [haloCode] }
        some (if x.waiting ∧ w.fail = none then ctxWake w.s x else w.done x)

/-! ### Passes, boundaries and vector steps -/

/-- A context is on the array. -/
def onArray (s : State) (x : Context) : Bool := slotState s x.half x.core x.slot == 2

/-- TILE_PASS for a context that runs tables; one that stands before a halo still to come waits for it (R249, R332). -/
def tilePass (s : State) (x : Context) : State :=
  match jobOf s x with
  | some j =>
    if onArray s x = true ∧ x.vec = false ∧ x.comb = false ∧ x.pass < j.t.passes then
      if j.ready then (j.pass ⟨urgentPass s x, none⟩).done x else if haloStalled s x then ctxWait s x else s
    else s
  | none => s

/-- A phase of an item is over: the item, unless FUSED's phase 2 is to come. -/
def phaseEnd (s : State) (j : Job) : State :=
  match ctxAt s j.x.half j.x.core j.x.slot with
  | some y =>
    if y.vec = false ∧ y.comb = false ∧ j.t.passes ≤ y.pass ∧ y.idle = false ∧ (isFused j.c = false ∨ j.phase2 = true) then
      afterItem s j.c y
    else s
  | none => s

/-- The block of the last pass at a boundary: finished, its partial written, or, in phase 1, its adapter applied and its rows
left to the vector unit (R215, R246, R251). -/
def blockAtBoundary (j : Job) (r : Run) : Run :=
  let b := j.blockAt (j.x.pass - 1)
  if isFused j.c ∧ j.phase2 = false then
    let v := j.sums b r
    let w := adapterBlock j b v.2 v.1
    w.1.ctx j.x fun d => { d with acc := w.2.flatten }
  else if 1 < j.t.splitK then (storePartial j b r).ctx j.x fun d => { d with vec := false }
  else (finishBlock j b r).ctx j.x fun d => { d with vec := false }

/-- A boundary of a context that runs tables, without the choice of R332. -/
def nestBoundary (s : State) (x : Context) : State :=
  let s1 := drain s x
  match jobOf s1 { x with inArray := 0 } with
  | some j =>
    if x.vec then
      let r := blockAtBoundary j ⟨s1, none⟩
      match r.fail with
      | none => phaseEnd r.s j
      | some _ => r.done x
    else phaseEnd s1 j
  | none => s1

/-- VECTOR_STEP for a context that runs tables: one row of a phase 1 block (R210, R251). -/
def nestVector (s : State) (x : Context) : State :=
  match jobOf s x with
  | some j =>
    if onArray s x = true ∧ x.vec = true ∧ x.inArray = 0 ∧ isFused j.c = true ∧ j.phase2 = false then
      let b := j.blockAt (x.pass - 1)
      let row := ((x.acc).drop (x.vrow * b.cols)).take b.cols
      let r := (if x.vrow < b.rows then interRow j b x.vrow row ⟨s, none⟩ else ⟨s, none⟩).ctx x fun d =>
        { d with vrow := d.vrow + 1, vec := decide (d.vrow + 1 < b.rows), boundaryMt := s.mt x.half }
      r.done x
    else s
  | none => s

/-- SPLITK_COMBINE of a context. -/
def combineStep (s : State) (x : Context) : State :=
  match jobOf s x with
  | some j =>
    if x.comb = true ∧ onArray s x = true then
      let r := (combineBlock j (j.blockAt (x.pass - 1)) ⟨s, none⟩).ctx x fun d => { d with comb := false, boundaryMt := s.mt x.half }
      match r.fail with
      | none => phaseEnd r.s j
      | some _ => r.done x
    else s
  | none => s

/-- FUSED_PHASE2_START of a context (R252). -/
def phase2Start (s : State) (x : Context) : State :=
  match jobOf s x with
  | some j =>
    if isFused j.c = true ∧ j.phase2 = false ∧ j.t.passes ≤ x.pass ∧ x.vec = false ∧ x.inArray = 0 then
      setCtx s x.half x.core x.slot fun d => { d with phase2 := true, pass := 0, loads := [], landed := [], acc := [] }
    else s
  | none => s

/-- The other slot of a context's core at a boundary: its last pass drained and its last vector step ended (R209, R210). -/
def otherDrained (s : State) (x : Context) : State :=
  match ctxAt s x.half x.core (1 - x.slot) with
  | some y =>
    if onArray s y = true ∧ 0 < y.inArray then
      (match chainOf s y with
       | some c => if isNest c then nestBoundary s y else drain s y
       | none => drain s y)
    else s
  | none => s

/-- A switch to a slot (R226), after the running context's passes have drained (R209): none when the choice of R332 does not put the
slot's context on the array. -/
def switchTo (s : State) (x : Context) : Option State :=
  let t := resched (otherDrained s x) x.half x.core
  if slotState t x.half x.core x.slot = 2 then some t else none

/-! ### A chain of tables as a whole -/

/-- The next step of a context of a chain, if it can make one, with the choice of R332 at every boundary: none while its half dispatches no
pass (R64), and none for a context that a lower class code has displaced. -/
def advance (s : State) (c : Chain) (x : Context) : Option State :=
  if s.dispatchOff x.half then none
  else if x.read = false then some (startIdle (dispatchNest s c x) x.half x.core)
  else if x.waiting then haloTake s x
  else if x.idle ∧ ctxLive s x = true then
    if dynamic c x = true ∧ x.next = none then some (if x.fetching then workReturn s c x else workFetch s c x)
    else some (itemStart s c x)
  else if onArray s x = false then switchTo s x
  else match jobOf s x with
    | none => none
    | some j =>
      if 0 < x.inArray then some (resched (nestBoundary s x) x.half x.core)
      else if x.comb then some (resched (combineStep s x) x.half x.core)
      else if x.vec then some (resched (nestVector s x) x.half x.core)
      else if j.t.passes ≤ x.pass then some (phase2Start s x)
      else if (j.nextLoad false).isSome then some (loadLand (loadIssue s x false) (((ctxAt (loadIssue s x false) x.half x.core x.slot).getD x)) false)
      else if (j.nextLoad true).isSome then some (loadLand (loadIssue s x true) (((ctxAt (loadIssue s x true) x.half x.core x.slot).getD x)) true)
      else if x.loads.any fun k => k % 2 == 0 then some (loadLand s x false)
      else if x.loads ≠ [] then some (loadLand s x true)
      else if j.ready ∨ haloStalled s x = true then some (tilePass s x)
      else haloTake s x

/-- A chain run to its end, one step of one of its contexts at a time. -/
def driveNest : Nat → Nat → State → State
  | 0, _, s => s
  | n + 1, readNo, s =>
    match s.chains.find? fun d => d.readNo == readNo with
    | none => s
    | some c =>
      match (ctxsOf s readNo).findSome? (advance s c) with
      | some t => driveNest n readNo t
      | none => s

/-- More steps than any chain of 2²⁴ × 2²⁴ × 2²⁴ elements and 16,384 entries takes. -/
def driveFuel : Nat := 2 ^ 100

/-! ### Commands -/

/-- A context's command: what it does with the context of a slot and its chain. -/
def onContext (s : State) (h : Half) (core slot : Nat) (f : Chain → Context → State) : Res :=
  match ctxAt s h core slot with
  | some x =>
    match chainOf s x with
    | some c => if c.done then .next s else .next (f c x)
    | none => .next s
  | none => .next s

/-- WORK_FETCH (R243). -/
def execWorkFetch (h : Half) (core : Nat) (slot : Fin 2) (s : State) : Res :=
  onContext s h core slot fun c x => workFetch s c x

/-- WORK_INDEX_RETURN (R243, R244). -/
def execWorkIndexReturn (h : Half) (core : Nat) (slot : Fin 2) (s : State) : Res :=
  onContext s h core slot fun c x => workReturn s c x

/-- BUFFER_LOAD (R236): the load of A or B for the running iteration, or for the next one under DBL, is issued. -/
def execBufferLoad (h : Half) (core : Nat) (slot : Fin 2) (isB : Bool) (s : State) : Res :=
  onContext s h core slot fun c x => if isNest c then loadIssue s x isB else s

/-- BUFFER_LOAD_LANDED (R236, R255). -/
def execBufferLoadLanded (h : Half) (core : Nat) (slot : Fin 2) (isB : Bool) (s : State) : Res :=
  onContext s h core slot fun c x => if isNest c then loadLand s x isB else s

/-- TILE_PASS (R208, R214): the next pass of a RUNNING context, once its operands have landed. -/
def execTilePass (h : Half) (core : Nat) (slot : Fin 2) (s : State) : Res :=
  onContext s h core slot fun c x => if isNest c && !s.dispatchOff h then tilePass s x else s

/-- SPLITK_COMBINE (R247). -/
def execSplitkCombine (h : Half) (core : Nat) (slot : Fin 2) (s : State) : Res :=
  onContext s h core slot fun c x => if isNest c then reschedIf (x.comb && onArray s x) (combineStep s x) x else s

/-- HALO_RECEIVE (R249). -/
def execHaloReceive (h : Half) (core : Nat) (slot : Fin 2) (s : State) : Res :=
  onContext s h core slot fun c x => if isNest c then (haloTake s x).getD s else s

/-- FUSED_PHASE2_START (R252). -/
def execFusedPhase2Start (h : Half) (core : Nat) (slot : Fin 2) (s : State) : Res :=
  onContext s h core slot fun c x => if isNest c then phase2Start s x else s

/-- SLOT_SWITCH (R226): the slot's context, LOADED or SUSPENDED, goes on the array once the other has drained, where the preemption
order of R332 gives it the array. -/
def execSlotSwitch (h : Half) (core : Nat) (slot : Fin 2) (s : State) : Res :=
  onContext s h core slot fun _ x => if s.dispatchOff h then s else (switchTo s x).getD s

/-- An ECC error of a line of a die's cache (§6.8 "At the edges"): corrected, or the line dropped and refetched from HBM; counted. -/
def lineEcc (s : State) (h : Half) (die line : Nat) (uncorr : Bool) : State :=
  if s.dieLines.contains ⟨h, die, line⟩ = false then s
  else if uncorr then bump (s.inc (.core .DC_ECC_UNCORR) h 1 die) h 1 0 128
  else s.inc (.core .DC_ECC_CORR) h 1 die

/-- A context that reads the scratchpad at a double-bit error takes its context step (R222, R518). -/
def spEccFault (s : State) (h : Half) (core off syndrome : Nat) (rmw : Bool) (x : Context) : State :=
  if atWork x = false then s
  else
    contextStep (noteAttn s x ST_ECC_UNCORR) { x with lastOff := off } ST_ECC_UNCORR 4 (scratchBase (256 * h.num + core) + off / 8 * 8)
      (off / 0x40000 % 8 + 256 * (syndrome % 256) + 2 ^ 16 * bit rmw)

/-- SP_ECC_ERROR (R222, §6.8): a single-bit error is corrected and counted; a double-bit error is counted and fails the access: the
context that made it faults, of this core or of another that reads its bank, and an engine's chain ends with ST_ECC_UNCORR, a collective
operation by its abort of cause FAULT (R416). `off` is the
failing word's offset in the core, `rmw` whether a read-modify-write met it. The die caches' errors come by the same row (log entry 63). -/
def execSpEccError (h : Half) (core : Nat) (site : EccAt) (off syndrome : Nat) (uncorr rmw : Bool) (s : State) : Res :=
  let counted := if uncorr then s.inc (.core .SP_ECC_UNCORR) h 1 core else s.inc (.core .SP_ECC_CORR) h 1 core
  let met (k : Half) (c n : Nat) : State :=
    match ctxAt counted k c n with
    | some x => if uncorr then spEccFault counted h core off syndrome rmw x else counted
    | none => counted
  if 256 ≤ core then .next s
  else match site with
    | .cacheLine line => .next (lineEcc s h (core / 64) line uncorr)
    | .slot n => .next (met h core n.val)
    | .context k c n => .next (met k c.val n.val)
    | .engine k ring seq =>
      match counted.chain k ring seq with
      | some c => .next (if uncorr && c.running then failEngine counted c ST_ECC_UNCORR else counted)
      | none => .next counted

/-- CORE_CFG_WRITE (R231): the bank split changes while both slots are EMPTY. -/
def execCoreCfgWrite (h : Half) (core split : Nat) (s : State) : Res :=
  if 256 ≤ core then .next s
  else
    let st := if slotState s h core 0 ≠ 0 ∨ slotState s h core 1 ≠ 0 then ST_CORE_BUSY
      else if split % 4 = 3 then ST_CORE_CONFIG else ST_OK
    let s1 := s.wr (.core .CORE_STATUS_LAST_STATUS) h st core
    .next (if st = ST_OK then s1.wr (.core .CORE_CFG_BANK_SPLIT) h (split % 4) core else s1)

/-- CORE_CNT_CLR (R230): [2] SP_ECC, [1] NUM_NAN, [0] NUM_SAT. -/
def execCoreCntClr (h : Half) (core mask : Nat) (s : State) : Res :=
  if 256 ≤ core then .next s
  else
    let s1 := if mask.testBit 0 then s.wr (.core .NUM_SAT) h 0 core else s
    let s2 := if mask.testBit 1 then s1.wr (.core .NUM_NAN) h 0 core else s1
    .next (if mask.testBit 2 then (s2.wr (.core .SP_ECC_CORR) h 0 core).wr (.core .SP_ECC_UNCORR) h 0 core else s2)

/-- DIE_CACHE_INVALIDATE (§6.8): the die's cache holds no line any more. -/
def execDieCacheInvalidate (h : Half) (die : Fin 4) (s : State) : Res :=
  .next { s with dieLines := s.dieLines.filter fun l => !(l.half == h && l.die == die.val) }

/-- MATMUL (R214 to R249): the admitted chain's contexts run its items to the end. -/
def execMatmul (h : Half) (ring seq : Nat) (s : State) : Res :=
  runChain s h ring seq opMATMUL fun c => driveNest driveFuel c.readNo s

/-- FUSED (R250 to R252). -/
def execFused (h : Half) (ring seq : Nat) (s : State) : Res :=
  runChain s h ring seq opFUSED fun c => driveNest driveFuel c.readNo s

end Sys2Proof.Machine
end

