-- ==== Sys2Proof/Machine/AttnFold.lean ====
section
/-!
DEFINITION. Machine/AttnFold.lean: the arithmetic of attention: query rows (R258 to R260), visibility (R268 to R271, R283), the
fold and the composed unit (R262, R263), page masses (R272), outputs and statistics (R262, R264), and combines (R275).
-/

namespace Sys2Proof.Machine

/-! ### Work of a context -/

/-- What a context of an attention chain works on: its chain, its request, its item, the unit and the ring step. -/
structure AJob where
  c : Chain
  x : Context
  r : Request
  it : AttnItem
  u : AUnit
  step : Nat
deriving DecidableEq, Repr

/-- A unit of nothing. -/
def noUnit : AUnit := ⟨⟨none, 0, 0, 0, 0, 0⟩, 0, 0⟩

/-- The work that an item index stands for. -/
def ajobAt (s : State) (c : Chain) (x : Context) (i : Nat) : Option AJob :=
  match c.requestNum.bind s.request with
  | some r =>
    let n := c.items.length
    (c.items[i % n]?).map fun it => ⟨c, x, r, it, (attnUnits c).getD it.unit noUnit, i / n⟩
  | none => none

/-- The work of a context that runs an item. -/
def ajobOf (s : State) (x : Context) : Option AJob :=
  match chainOf s x, x.item, x.idle with
  | some c, some i, false => if isAttn c then ajobAt s c x i else none
  | _, _, _ => none

def AJob.head (j : AJob) : List Byte := j.c.head
def AJob.map (j : AJob) : List Byte := j.r.header
def AJob.d (j : AJob) : Nat := mapDim j.r.header
def AJob.fmt (j : AJob) : Nat := mapFmt j.r.header
def AJob.e (j : AJob) : Nat := mapE j.r.header
def AJob.layer (j : AJob) : Nat := atLayer j.c.head

/-- The KV head of the unit in the page map. -/
def AJob.kvHead (j : AJob) : Nat := j.u.p.kvh0 + j.u.g

/-- The query rows of the unit, and its score rows: row and query head. -/
def AJob.rows (j : AJob) : List Nat := j.u.rows j.c
def AJob.scoreRows (j : AJob) : List (Nat × Nat) := j.rows.flatMap fun i => (List.range (atQh j.c.head)).map fun q => (i, q)

/-- Key blocks of the range: the first, and the one after the last (R274). -/
def AJob.blocks (j : AJob) : Nat × Nat :=
  let b := ceilDiv (j.u.visible j.c) 128
  let per := ceilDiv b j.it.ranges
  (min b (j.it.range * per), min b ((j.it.range + 1) * per))

/-- The last step of the chain. -/
def AJob.last (j : AJob) : Bool := decide (ringSteps j.c ≤ j.step + 1)

/-! ### Query rows (R258 to R260) -/

/-- SCALE, or 1 / √D when it is 0 (R259). -/
def AJob.scale (j : AJob) : Nat :=
  let v := fieldAt (posOf j.c) 0x10 4
  if v % 2 ^ 31 = 0 then fFP32.roundMag (Nat.sqrt (2 ^ 200 / j.d)) (2 ^ 100) else v

/-- The place of query or output row `i` of the unit's query head `q`. -/
def AJob.rowAt (j : AJob) (base i q : Nat) : Nat := base + (i * atHeads j.c.head + (j.u.g * atQh j.c.head + q)) * j.d * 2

/-- One query row loaded, rotated, scaled and converted to F. -/
def AJob.loadRow (j : AJob) (r : Run) (i q : Nat) : Run × List Nat :=
  let d := r.read j.x (j.rowAt j.u.p.q i q) (2 * j.d)
  let v := (codesOf 4 j.d d.2).map fun b => b * 65536
  let w := if ropeEn j.c then rotateRow (fieldAt (posOf j.c) 8 4) (rowPosition j.c j.u.p i) v else v
  let o := convRow j.fmt (w.map (f32Mul j.scale))
  (d.1.map fun s => countNum s j.x o.sat o.nan, codesOf j.fmt j.d o.data)

/-- Every query row of the unit, one after another. -/
def AJob.loadRows (j : AJob) (r : Run) : Run × List Nat :=
  j.scoreRows.foldl (fun q p =>
    let o := j.loadRow q.1 p.1 p.2
    (o.1, q.2 ++ o.2)) (r, [])

/-! ### Visibility (R268 to R271, R283) -/

/-- The page map entry of a key of the unit's head; absent outside the map. -/
def AJob.entry (j : AJob) (s : State) (page : Nat) : Entry :=
  if j.layer < mapNL j.map ∧ j.kvHead < mapNKV j.map ∧ page < mapNP j.map then entryOf s j.r j.layer j.kvHead page
  else Entry.absent

/-- The page belongs to the block of the running ring step; always, without a ring (R276, R278). -/
def AJob.inBlock (j : AJob) (s : State) (page : Nat) : Bool :=
  if isRing j.c = false then true
  else if j.step = 0 then (j.entry s page).own
  else j.c.ringPages.any fun p => p.step + 1 == j.step && p.page == page && p.head == j.kvHead && p.placed

/-- Draft row `a` is `i` or one of its ancestors (R283). -/
def ancestor : Nat → List Nat → Nat → Nat → Bool
  | 0, _, _, _ => false
  | n + 1, tree, i, a =>
    if i = a then true
    else
      let p := tree.getD i 0xFFFF
      if p = 0xFFFF then false else ancestor n tree p a

/-- A key is visible to a row as far as lengths, causality and the draft tree decide. -/
def AJob.sees (j : AJob) (i k : Nat) : Bool :=
  decide (k < kvLen j.c j.u.p) &&
    (!(atCausal j.c.head) || decide ((k : Int) ≤ (rowPosition j.c j.u.p i : Int) + chunkOff j.c)) &&
    (!(isVerify j.c) || decide (k < j.u.p.pos0) || ancestor (i + 1) j.c.tree i (k - j.u.p.pos0))

/-- Address of the L1 entry of row `i` and block `kb` (R269). -/
def AJob.l1At (j : AJob) (i kb : Nat) : Nat :=
  fieldAt (maskOf j.c) 8 8 + (i / 128 * ceilDiv (kvLen j.c j.u.p) 128 + kb) * 4

/-- The bitmap of a row over a block: the entry's code, and the bits. -/
def AJob.bitmapRow (j : AJob) (r : Run) (i kb : Nat) : Run × Nat × List Bool :=
  let d := r.read j.x (j.l1At i kb) 4
  let v := fieldAt d.2 0 4
  match v / 2 ^ 30 with
  | 0 => (d.1, 0, List.replicate 128 false)
  | 1 => (d.1, 1, List.replicate 128 true)
  | 2 =>
    let q := d.1.read j.x (fieldAt (maskOf j.c) 0x10 8 + v % 2 ^ 30 * 2048 + i % 128 * 16) 16
    (q.1, 2, (List.range 128).map fun k => (fieldAt q.2 (k / 8) 1).testBit (k % 8))
  | _ => (d.1, 3, List.replicate 128 false)

/-- The bitmaps of the unit's rows over a block; every key visible when no bitmap is used. -/
def AJob.bitmaps (j : AJob) (r : Run) (kb : Nat) : Run × List (Nat × List Bool) :=
  if atBitmap j.c.head then
    j.rows.foldl (fun q i =>
      let d := j.bitmapRow q.1 i kb
      (d.1, q.2 ++ [(d.2.1, d.2.2)])) (r, [])
  else (r, j.rows.map fun _ => (1, List.replicate 128 true))

/-- Which keys of a block each row sees, row by row. -/
def AJob.maskOf (j : AJob) (s : State) (kb : Nat) (maps : List (Nat × List Bool)) : List (List Bool) :=
  let pages := [2 * kb, 2 * kb + 1].map fun p => j.inBlock s p && (j.entry s p).state != enEVICTED
  (List.zip j.rows maps).map fun q =>
    (List.range 128).map fun k =>
      pages.getD (k / 64) false && q.2.2.getD k false && j.sees q.1 (128 * kb + k)

/-- A key's standing (R302): 0 held and resident, 1 held and not resident, else the status with which the chain fails. -/
def AJob.keyState (j : AJob) (s : State) (k : Nat) : Nat :=
  let e := j.entry s (k / 64)
  let held := decide (k < layerLen s j.r j.layer) && decide (k % 64 < e.fill)
  if e.state = enBAD then ST_VALLEY_AUTH
  else if held = false then ST_KV_ABSENT
  else if e.state = enHBM ∨ e.state = enSPILLING ∨ e.state = enGUEST then 0
  else if e.state = enVALLEY ∨ e.state = enFETCHING then 1
  else ST_KV_ABSENT

/-- A ring's key block has landed, as far as the arriving block holds it: the whole block has, or, as key blocks are sent in ascending
key index, this one or a later one (R280, R408). -/
def AJob.landed (j : AJob) (kb : Nat) : Bool :=
  !(isRing j.c) || j.step == 0 || j.c.ringWhole.contains (j.step - 1) ||
    j.c.ringKb.any fun p => p.1 == j.step - 1 && decide (kb ≤ p.2)

/-- What a look at a key block has found. -/
inductive Look where
  /-- it is still to land (R280) -/
  | arriving
  /-- it is skipped, and counted or not (R270) -/
  | skip (counted : Bool)
  /-- the chain fails with a status -/
  | fail (status : Nat)
  /-- pages must be prefetched first -/
  | demand (pages : List Nat)
  /-- it can be folded, with what each row sees -/
  | fold (mask : List (List Bool))
deriving DecidableEq, Repr

/-- A key block of the unit looked at (R268 to R271). -/
def AJob.look (j : AJob) (r : Run) (kb : Nat) : Run × Look :=
  let first := 128 * kb
  if j.landed kb = false then (r, .arriving)
  else if (j.inBlock r.s (2 * kb) || j.inBlock r.s (2 * kb + 1)) = false then (r, .skip false)
  else if kvLen j.c j.u.p ≤ first ∨ (atCausal j.c.head = true ∧ j.u.qMax j.c < first) ∨
      ([2 * kb, 2 * kb + 1].all fun p => (j.entry r.s p).state == enEVICTED) = true then (r, .skip true)
  else
    let m := j.bitmaps r kb
    if m.2.any fun q => q.1 == 3 then (m.1, .fail ST_ATTN_MASK)
    else if m.2.all fun q => q.1 == 0 then (m.1, .skip true)
    else
      let mask := j.maskOf m.1.s kb m.2
      let seen := (List.range 128).filter fun k => mask.any fun row => row.getD k false
      let st := seen.map fun k => j.keyState m.1.s (first + k)
      match st.find? fun v => v != 0 && v != 1 with
      | some v => (m.1, .fail v)
      | none =>
        let pages := ([2 * kb, 2 * kb + 1].filter fun p =>
          (seen.zip st).any fun q => q.2 == 1 && (first + q.1) / 64 == p)
        (m.1, if pages.isEmpty then .fold mask else .demand pages)

/-! ### Keys and values (R286, R288) -/

/-- The bytes of a page read through the page map, when its tag lets the request reach it. -/
def AJob.pageRead (j : AJob) (r : Run) (page : Nat) : Run × List Byte :=
  let e := j.entry r.s page
  let a := slotAddr r.s j.r.half e.slot
  let n := pageBytes j.map
  if r.fail.isSome then (r, [])
  else if pageReach r.s j.r e.slot then ({ r with s := cacheRead r.s j.x a n }, r.s.mem.readN a n)
  else (⟨recordRefusal r.s j.x.who false a n ST_HBM_FENCE, some ⟨false, ST_HBM_FENCE, a, n⟩⟩, [])

/-- The page holds a key of a block that some row sees. -/
def pageSeen (mask : List (List Bool)) (p : Nat) : Bool :=
  mask.any fun row => ((row.drop (64 * p)).take 64).any id

/-- A block's two pages; a page that no row sees is not read, and its elements reach the array as zero. -/
def AJob.pages (j : AJob) (r : Run) (kb : Nat) (mask : List (List Bool)) : Run × List (List Byte) :=
  let a := if pageSeen mask 0 then j.pageRead r (2 * kb) else (r, [])
  let b := if pageSeen mask 1 then j.pageRead a.1 (2 * kb + 1) else (a.1, [])
  (b.1, [a.2, b.2])

/-- Elements as groups of 32 with no scale. -/
def plainGroups (fmt : Nat) (codes : List Nat) : Groups :=
  let vs := codes.map (decodeElem fmt)
  (List.range (ceilDiv vs.length 32)).map fun g => ((vs.drop (32 * g)).take 32, 127)

/-- Codes of `n` elements at an offset of a page, those of keys at or above its fill reading zero. -/
def pageCodes (e off n : Nat) (b : List Byte) : List Nat := (List.range n).map fun i => fieldAt b (off + i * e) e

/-- The keys of a block as rows of D elements. -/
def AJob.keys (j : AJob) (pages : List (List Byte)) : List Groups :=
  (List.range 128).map fun k => plainGroups j.fmt (pageCodes j.e (k % 64 * j.d * j.e) j.d (pages.getD (k / 64) []))

/-- The values of a block as D rows of 128 elements; keys that are not held contribute zero. -/
def AJob.values (j : AJob) (s : State) (kb : Nat) (pages : List (List Byte)) : List Groups :=
  (List.range j.d).map fun d =>
    plainGroups j.fmt ([0, 1].flatMap fun p =>
      let fill := (j.entry s (2 * kb + p)).fill
      let v := pageCodes j.e (64 * j.d * j.e + d * 64 * j.e) 64 (pages.getD p [])
      (List.range 64).map fun i => if i < fill then v.getD i 0 else 0)

/-! ### Folds (R262, R263) -/

def f32NegInf : Nat := 0xFF800000

/-- IEEE equality and zero. -/
def f32IsZero (a : Nat) : Bool := a % 2 ^ 31 == 0
def f32Eq (a b : Nat) : Bool := !(f32IsNaN a) && !(f32IsNaN b) && (a == b || (f32IsZero a && f32IsZero b))

/-- An integer as FP32. -/
def f32OfInt (v : Int) : Nat := toF32 (.fin (decide (v < 0)) v.natAbs 0)

/-- pos(k) − p for a key and a row (R259, R283). -/
def AJob.distance (j : AJob) (i k : Nat) : Int :=
  let pk := if isVerify j.c ∧ j.u.p.pos0 ≤ k then j.c.rowPos.getD (k - j.u.p.pos0) 0 else k
  (pk : Int) - (rowPosition j.c j.u.p i : Int)

/-- The query row of a score row, as groups. -/
def AJob.queryRow (j : AJob) (n : Nat) : Groups := plainGroups j.fmt ((j.x.qv.drop (n * j.d)).take j.d)

/-- The scores of a row against a block: products, bias, and −infinity for masked keys. -/
def AJob.scores (j : AJob) (n i kb : Nat) (keys : List Groups) (mask : List Bool) : List Nat :=
  let q := j.queryRow n
  (List.range 128).map fun k =>
    if mask.getD k false = false then f32NegInf
    else
      let v := accGroups 0 q (keys.getD k [])
      if biasEn j.c then f32Add v (f32Mul (fieldAt (posOf j.c) 0x0C 4) (f32OfInt (j.distance i (128 * kb + k)))) else v

/-- Probabilities converted to F, with the conversion's counts. -/
def probGroups (fmt : Nat) (p : List Nat) : Groups × Converted :=
  let o := convRow fmt p
  (plainGroups fmt (codesOf fmt p.length o.data), o)

/-- A row after a fold: its max, sum and accumulator, its probabilities, and the counts of the conversion. -/
structure FoldOut where
  m : Nat
  l : Nat
  acc : List Nat
  p : List Nat
  sat : Nat
  nan : Nat
deriving DecidableEq, Repr

/-- One row folded (R262). -/
def foldRow (fmt m l : Nat) (acc scores : List Nat) (values : List Groups) : FoldOut :=
  let mn := f32Max m (rowMax scores)
  let c := if f32Eq m mn then f32One else f32Exp (f32Sub m mn)
  let p := scores.map fun v => if v = f32NegInf then 0 else f32Exp (f32Sub v mn)
  let g := probGroups fmt p
  ⟨mn, f32Add (f32Mul l c) (rowSum p), List.zipWith (fun a v => accGroups (f32Mul a c) g.1 v) acc values, p, g.2.sat, g.2.nan⟩

/-- A fold over every score row of the unit. -/
def AJob.foldBlock (j : AJob) (kb : Nat) (keys values : List Groups) (mask : List (List Bool)) : List FoldOut :=
  let qh := atQh j.c.head
  (List.range j.scoreRows.length).map fun n =>
    let i := (j.scoreRows.getD n (0, 0)).1
    let st := j.x.stats.getD n (f32NegInf, 0)
    foldRow j.fmt st.1 st.2 ((j.x.acc.drop (n * j.d)).take j.d) (j.scores n i kb keys (mask.getD (n / qh) [])) values

/-- Array passes of one fold: QKᵀ and P·V, two each at D = 256 (R261). -/
def AJob.foldPasses (j : AJob) : Nat := if j.d = 256 then 4 else 2

/-! ### Page masses (R272, R313) -/

/-- A non-negative finite FP32 value in units of 2⁻¹⁴⁹. -/
def f32Units (x : Nat) : Option Nat :=
  match ofF32 x with
  | .fin false m e => some (m * 2 ^ (e + 149).toNat)
  | _ => none

/-- The sum of fractions. -/
def fracSum (l : List (Nat × Nat)) : Nat × Nat := l.foldl (fun a b => (a.1 * b.2 + b.1 * a.2, a.2 * b.2)) (0, 1)

/-- The mass of a page of a block in units of 2⁻¹², rounded once: each row's share of its sum, over the rows; none when a row
holds a value for which no share is stated. -/
def massOf (rows : List (List Nat × Nat)) : Option Nat :=
  let shares := rows.map fun q =>
    match f32Units q.2, (q.1.map f32Units).foldr (fun a t => match a, t with
      | some x, some y => some (x + y)
      | _, _ => none) (some 0) with
    | some 0, some _ => some (0, 1)
    | some l, some p => some (p, l)
    | _, _ => none
  if shares.all (·.isSome) then
    let f := fracSum (shares.filterMap id)
    some (roundEven (f.1 * 4096) (f.2 * max 1 rows.length))
  else none

/-- A page's mass added to its PEND, and the delivery noted on the chain. -/
def deliverMass (s : State) (j : AJob) (page w : Nat) : State :=
  let e := j.entry s page
  if e.own = true ∧ e.shared = false then
    let a := entryAddr j.r j.layer j.kvHead page
    let s1 := setEntryAt s a { e with pend := min 0xFFFF (e.pend + w) }
    mapChains s1 fun d =>
      if d.readNo = j.c.readNo ∧ d.delivered.contains a = false then { d with delivered := d.delivered ++ [a] } else d
  else s

/-- The masses of a fold delivered (R272): `ps` and `ls` are each row's probabilities over the block and its sum. -/
def AJob.masses (j : AJob) (s : State) (kb : Nat) (ps : List (List Nat)) (ls : List Nat) (mask : List (List Bool)) : State :=
  if mapScoreEn j.map = false ∨ isVerify j.c = true then s
  else
    [0, 1].foldl (fun t p =>
      if pageSeen mask p then
        let rows := List.zipWith (fun q l => ((q.drop (64 * p)).take 64, l)) ps ls
        match massOf rows with
        | some w => deliverMass t j (2 * kb + p) w
        | none => drawFree (deliverMass t j (2 * kb + p) (Config.freeValue t.freeCount % 65536))
      else t) s

/-! ### Outputs (R262, R264) -/

/-- One output row, normalized and converted to BF16, and its statistics; those of a cancelled chain in host memory are not issued (R352).
-/
def AJob.writeRow (j : AJob) (r : Run) (i q m l : Nat) (acc : List Nat) : Run :=
  let k := f32Recip l
  let o := convRow 4 (acc.map fun a => if f32IsZero l then 0 else f32Mul a k)
  let w := (r.map fun s => countNum s j.x o.sat o.nan).write j.x (j.rowAt j.u.p.o i q) o.data
  if atStats j.c.head = 0 ∨ (j.c.cancelled = true ∧ isHost (atStats j.c.head) = true) then w
  else
    let v := f32Result [m, l]
    (w.map fun s => countNum s j.x v.sat v.nan).write j.x
      (atStats j.c.head + (i * atHeads j.c.head + (j.u.g * atQh j.c.head + q)) * 8) v.data

/-- Every output row of the unit. -/
def AJob.writeRows (j : AJob) (r : Run) (stats : List (Nat × Nat)) (acc : List Nat) : Run :=
  (List.range j.scoreRows.length).foldl (fun t n =>
    let p := j.scoreRows.getD n (0, 0)
    let v := stats.getD n (f32NegInf, 0)
    j.writeRow t p.1 p.2 v.1 v.2 ((acc.drop (n * j.d)).take j.d)) r

/-! ### Combines (R275) -/

/-- One row of a unit combined from its ranges, in ascending range: max, sum, accumulator. -/
def combineRanges (parts : List (Nat × Nat × List Nat)) (d : Nat) : Nat × Nat × List Nat :=
  let m := (parts.map fun p => p.1).foldl f32Max f32NegInf
  parts.foldl (fun t p =>
    let x := if p.1 = f32NegInf then 0 else f32Exp (f32Sub p.1 m)
    (m, f32Add t.2.1 (f32Mul p.2.1 x), List.zipWith (fun a b => f32Add a (f32Mul b x)) t.2.2 p.2.2))
    (m, 0, List.replicate d 0)

/-- What a unit's ranges hold of score row `n`. -/
def rangePart (d n : Nat) (stats : List (Nat × Nat)) (acc : List Nat) : Nat × Nat × List Nat :=
  let v := stats.getD n (f32NegInf, 0)
  (v.1, v.2, (acc.drop (n * d)).take d)

/-- The unit combined by the context of range 0, and written. -/
def AJob.combine (j : AJob) (r : Run) (kept : List Kept) : Run :=
  let rows := (List.range j.scoreRows.length).map fun n =>
    combineRanges (rangePart j.d n j.x.stats j.x.acc :: kept.map fun k => rangePart j.d n k.stats k.acc) j.d
  j.writeRows r (rows.map fun q => (q.1, q.2.1)) (rows.flatMap fun q => q.2.2)

/-- A context that holds a finished range of a unit until it is called for (R275). -/
def AJob.holder (j : AJob) (s : State) (range : Nat) : Option Context :=
  (ctxsOf s j.c.readNo).find? fun y => y.comb &&
    match ajobOf s y with
    | some k => k.it.unit == j.it.unit && k.it.range == range && k.step == j.step
    | none => false

/-- The ranges 1 and up of a unit as their contexts hold them, in order; none while one is missing. -/
def AJob.ranges (j : AJob) (s : State) : Option (List Kept) :=
  let l := (List.range (j.it.ranges - 1)).map fun i =>
    (j.holder s (i + 1)).map fun y => (⟨j.it.unit, i + 1, j.step + 1, y.stats, y.acc⟩ : Kept)
  if l.all (·.isSome) then some (l.filterMap id) else none

/-! ### The composed unit (R263) -/

/-- One row composed from its scores over every block: max, sum and accumulator, the probabilities, and the counts. -/
def composeRow (fmt d : Nat) (scores : List Nat) (values : List (List Groups)) : FoldOut :=
  let m := rowMax scores
  let p := scores.map fun v => if v = f32NegInf then 0 else f32Exp (f32Sub v m)
  let blocks := (List.range values.length).map fun b => probGroups fmt ((p.drop (128 * b)).take 128)
  let acc := (List.range d).map fun i =>
    (List.zip blocks values).foldl (fun a q => accGroups a q.1.1 (q.2.getD i [])) 0
  ⟨m, rowSum p, acc, p, (blocks.map fun b => b.2.sat).sum, (blocks.map fun b => b.2.nan).sum⟩

/-- A page read for a composed unit: the block's look, keys and values. -/
structure Block where
  kb : Nat
  mask : List (List Bool)
  keys : List Groups
  values : List Groups
deriving DecidableEq, Repr

/-- Rows composed: for every score row, its blocks' scores in order; blocks that were skipped hold no visible key. -/
def AJob.composeRows (j : AJob) (bs : List (Option Block)) : List FoldOut :=
  let qh := atQh j.c.head
  (List.range j.scoreRows.length).map fun n =>
    let i := (j.scoreRows.getD n (0, 0)).1
    let scores := bs.flatMap fun b => match b with
      | some b => j.scores n i b.kb b.keys (b.mask.getD (n / qh) [])
      | none => List.replicate 128 f32NegInf
    composeRow j.fmt j.d scores (bs.map fun b => match b with
      | some b => b.values
      | none => List.replicate j.d (plainGroups j.fmt (List.replicate 128 0)))

end Sys2Proof.Machine
end

