-- ==== Sys2Proof/Machine/Attention.lean ====
section
/-!
DEFINITION. Machine/Attention.lean: the commands of attention: dispatch (R273, R274, R277, R282), items, folds (R262, R270),
composed units (R263), combines (R275), demand prefetches (R271), boundaries and vector steps (R209, R210, R332), the rule
register (R284), and the opcodes as a whole.
-/

namespace Sys2Proof.Machine

/-! ### Failures -/

/-- A fold has failed: the entry of a group takes the status; any other chain takes it, hands out no more items, and the
context ends (R192, R244, R269, R302). -/
def attnFail (s : State) (x : Context) (status : Nat) : State :=
  let s1 := attnErr s x status
  match chainOf s1 x, x.entry with
  | some c, some i =>
    let stop := (fieldAt ((extOf c kGROUP).getD []) 0x14 1).testBit 0
    let s2 := mapChains s1 fun d =>
      if d.readNo = c.readNo then
        { d with stop := d.stop || stop, fails := if d.fails.any fun p => p.1 == i then d.fails else d.fails ++ [(i, status)] }
      else d
    afterItem s2 c x
  | some c, none =>
    endContext (mapChains s1 fun d => if d.readNo = c.readNo then { d.fail status with stop := true } else d) x
  | none, _ => s1

/-! ### Dispatch -/

/-- The status of an attention entry before it is run (Tables 5.9, 5.10 and 19.5). -/
def attnEntryStatus (c : Chain) (s : State) (e : List Byte) : Nat :=
  let heads := ((c.requestNum.bind s.request).map fun r => mapNKV r.header).getD 0
  if bitsAt (fieldAt e 0xE 2) 12 3 ≠ 0 ∨ 2 ^ 24 < fieldAt e 8 4 + fieldAt e 0xC 2 ∨
      heads < bitsAt (fieldAt e 0xE 2) 0 12 + atKvhN c.head then ST_GROUP_ENTRY
  else ST_OK

/-- The owned positions of a head of a layer, in ascending order (R277). -/
def ownedKeys (s : State) (r : Request) (l g : Nat) : List Nat :=
  (List.range (mapNP r.header)).flatMap fun j =>
    let e := entryOf s r l g j
    if e.own then ((List.range e.fill).map fun i => 64 * j + i).filter fun k => decide (k < layerLen s r l) else []

/-- The depth of a draft row (R282). -/
def draftDepth : Nat → List Nat → Nat → Nat
  | 0, _, _ => 0
  | n + 1, tree, i =>
    let p := tree.getD i 0xFFFF
    if p = 0xFFFF then 0 else draftDepth n tree p + 1

/-- What a chain's first dispatch finds of its rows: a status, the state, the tree and the positions (R277, R282). -/
def attnRows (s : State) (c : Chain) (r : Request) : Nat × State × List Nat × List Nat :=
  let b := c.head
  if isRing c then
    let ks := if atLayer b < mapNL r.header ∧ atKvh0 b < mapNKV r.header then ownedKeys s r (atLayer b) (atKvh0 b) else []
    if ks.head? = some (atPos0 b) ∧ ks.length = atLen b then (ST_OK, s, [], ks) else (ST_ATTN_POS, s, [], [])
  else if isVerify c then
    let q := readAt s (engine c.half (ringFn c.ring)) (atTree b) (2 * atLen b)
    let t := (List.range (atLen b)).map fun i => fieldAt q.2.2 (2 * i) 2
    if q.1 ≠ ST_OK then (q.1, q.2.1, [], [])
    else if (List.range (atLen b)).any fun i => t.getD i 0 != 0xFFFF && decide (i ≤ t.getD i 0) then (ST_ATTN_TREE, q.2.1, [], [])
    else (ST_OK, q.2.1, t, (List.range (atLen b)).map fun i => atPos0 b + draftDepth (i + 1) t i)
  else (ST_OK, s, [], [])

/-- The items of a chain cut (R273, R274), or ST_ATTN_FIT when no context fits MODE 2 (R266). -/
def attnCut (s : State) (c : Chain) (x : Context) (r : Request) : State :=
  let fits := (ctxsOf s c.readNo).any (modeFits s c r.header)
  if fits = false then failChain (attnErr s x ST_ATTN_FIT) c ST_ATTN_FIT
  else
    let items := attnItems s c r.header
    let s1 := mapChains s fun d => if d.readNo = c.readNo then { d with items := items, checked := true } else d
    s1.inc (.attn .ATTN_SPLIT) c.half (items.filter fun i => i.range == 0 && decide (1 < i.ranges)).length

/-- A chain's first dispatch: its group is read and planned, its rows' positions are found, its work is cut. -/
def attnBegin (s : State) (c : Chain) (x : Context) (r : Request) : State :=
  if r.paused then failChain (attnErr s x ST_KV_PAUSED) c ST_KV_PAUSED
  else
    let s1 := if c.grouped then beginGroup s c geSkip (attnEntryStatus c) else s
    let c1 := (chainOf s1 x).getD c
    let q := attnRows s1 c1 r
    if q.1 ≠ ST_OK then failChain (attnErr q.2.1 x q.1) c1 q.1
    else
      let s2 := mapChains q.2.1 fun d => if d.readNo = c.readNo then { d with tree := q.2.2.1, rowPos := q.2.2.2 } else d
      attnCut s2 ((chainOf s2 x).getD c1) x r

/-- CONTEXT_DISPATCH of an attention chain: contexts that cannot take its units under MODE 2 end (R266). -/
def dispatchAttn (s : State) (c : Chain) (x : Context) : State :=
  match c.requestNum.bind s.request with
  | none => s
  | some r =>
    let s1 := setCtx s x.half x.core x.slot fun d => { d with read := true }
    let s2 := if c.checked then s1 else attnBegin s1 c x r
    match ctxAt s2 x.half x.core x.slot, chainOf s2 x with
    | some y, some d => if y.chainNo = x.chainNo ∧ modeFits s2 d r.header x = false then endContext s2 y else s2
    | _, _ => s2

/-! ### Items -/

/-- The window of a context holds what attention has laid out in it, which the spec does not fix byte by byte (R265). -/
def scramble (s : State) (x : Context) : State :=
  let v := Config.freeValue s.freeCount
  (slotBanks s x.half x.core x.slot).foldl (fun t b =>
    { t with mem := t.mem.fill (scratchBase x.coreNo + b * 0x40000) 0x40000 fun i => v / 256 ^ (b * 0x40000 + i) % 256 })
    (drawFree s)

/-- The contexts of a request's chains. -/
def ofRequestCtx (s : State) (num : Nat) (x : Context) : Bool :=
  match chainOf s x with
  | some c => c.requestNum == some num
  | none => false

/-- The state in which an item begins: that of R262, or, for a later ring step, what the step before has left (R278). -/
def AJob.initial (j : AJob) : Option (List (Nat × Nat) × List Nat) :=
  if j.step = 0 then some (j.scoreRows.map fun _ => (f32NegInf, 0), List.replicate (j.scoreRows.length * j.d) 0)
  else (j.c.kept.find? fun k => k.unit == j.it.unit && k.range == j.it.range && k.step == j.step).map fun k => (k.stats, k.acc)

/-- The block of an item's ring step is here, or is folded as it lands (R280). -/
def AJob.blockReady (j : AJob) : Bool :=
  !(isRing j.c) || j.step == 0 || rgOverlap (ringExt j.c) || j.c.ringWhole.contains (j.step - 1)

/-- An item of an attention chain begun: its query rows are loaded (R259). A ring item whose block or whose earlier step is not
ready makes its context wait. -/
def beginAttnItem (s : State) (c : Chain) (x : Context) (i : Nat) : State :=
  match ajobAt s c x i with
  | none => s
  | some j =>
    match j.initial, j.blockReady, !(isRing c) || (collOf s c.readNo).isSome with
    | some q, true, true =>
      let s1 := setCtx s x.half x.core x.slot fun d =>
        { d with item := some i, next := none, idle := false, pass := 0, phase2 := false, acc := q.2, stats := q.1, qv := [],
                 vec := false, vrow := 0, comb := false, loads := [], landed := [], entry := j.u.p.entry }
      let s2 := scramble (bump (s1.inc (.tile .TD_ITEMS) x.half 1 (x.core / 64)) x.half 0 1 1) x
      let r := j.loadRows ⟨s2, none⟩
      (r.1.ctx x fun d => { d with qv := r.2 }).done x
    | _, _, _ => ctxWait s x

/-- ITEM_START for a context of an attention chain. -/
def attnStart (s : State) (c : Chain) (x : Context) : State :=
  if ctxLive s x = true ∧ x.idle = true then
    match nextItem s c x with
    | some (some i) => beginAttnItem s c x i
    | some none => endContext s x
    | none => s
  else s

/-- The state of a range kept for the next ring step (R278). -/
def keepRange (s : State) (j : AJob) (stats : List (Nat × Nat)) (acc : List Nat) : State :=
  wakeCtxs (mapChains s fun d =>
    if d.readNo = j.c.readNo then
      { d with kept := (d.kept.filter fun k => !(k.unit == j.it.unit && k.range == j.it.range)) ++
          [⟨j.it.unit, j.it.range, j.step + 1, stats, acc⟩] }
    else d) fun y => y.chainNo == some j.c.readNo && y.idle

/-- Units run counted in ATTN_UNITS. -/
def countUnit (s : State) (j : AJob) : State :=
  s.inc (if j.it.composed then .attn .ATTN_UNITS_COMPOSED else .attn .ATTN_UNITS_STREAMED) j.c.half 1

/-- The contexts that have run range 0 of a unit whose other ranges are all held: their combine may begin. -/
def combineReady (s : State) (j : AJob) (y : Context) : Bool :=
  y.chainNo == some j.c.readNo && y.comb &&
    match ajobOf s y with
    | some k => k.it.unit == j.it.unit && k.it.range == 0 && (k.ranges s).isSome
    | none => false

/-- A range of a split unit has folded its last block: its context keeps the state, SUSPENDED, until the combining context calls for
it; range 0's waits for the others (R275). -/
def holdRange (s : State) (j : AJob) (x : Context) : State :=
  let s1 := setCtx s x.half x.core x.slot fun d => { d with comb := true }
  let s2 := if j.it.range = 0 ∧ (j.ranges s1).isSome = true then s1
    else ctxWait s1 ((ctxAt s1 x.half x.core x.slot).getD x)
  (s2.contexts.filter fun y => y.waiting && combineReady s2 j y).foldl ctxWake s2

/-- A range has folded its last block. -/
def rangeEnd (s : State) (j : AJob) : State :=
  let x := (ctxAt s j.x.half j.x.core j.x.slot).getD j.x
  let c := (chainOf s x).getD j.c
  if j.last = false then afterItem (keepRange s j x.stats x.acc) c x
  else if 1 < j.it.ranges then holdRange s j x
  else
    let r := ({ j with x := x }).writeRows ⟨s, none⟩ x.stats x.acc
    match r.fail with
    | none => afterItem (countUnit r.s j) c x
    | some _ => r.done x

/-! ### Folds -/

/-- Blocks skipped from block `kb` on until one is not (R270). -/
def AJob.seek (j : AJob) : Nat → Run → Nat → Run × Nat × Option Look
  | 0, r, kb => (r, kb, none)
  | n + 1, r, kb =>
    if j.blocks.2 ≤ kb then (r, kb, none)
    else
      let q := j.look r kb
      match q.2 with
      | .skip counted =>
        AJob.seek j n (q.1.map fun s => if counted then bump (s.inc (.attn .ATTN_SKIPPED) j.c.half 1) j.c.half 0 3 1 else s) (kb + 1)
      | o => (q.1, kb, some o)

/-- Folds issued by a context: the layer is used and touched (R291, R309), and passes enter the array (R261). -/
def noteFolds (s : State) (j : AJob) (n : Nat) : State :=
  let s1 := touchLayer (bump (s.inc (.attn .ATTN_BLOCKS) j.c.half n) j.c.half 0 2 n) j.r j.layer
  let s2 := { s1 with requests := s1.requests.map fun q =>
    if q.half = j.r.half ∧ q.num = j.r.num ∧ q.touched.contains j.layer = false then { q with touched := q.touched ++ [j.layer] }
    else q }
  setCtx (urgentPass s2 j.x) j.x.half j.x.core j.x.slot fun d => { d with inArray := d.inArray + n * j.foldPasses }

/-- A key block folded into every row of the unit (R262, R272). -/
def foldOne (j : AJob) (r : Run) (kb : Nat) (mask : List (List Bool)) : Run :=
  let p := j.pages r kb mask
  let out := j.foldBlock kb (j.keys p.2) (j.values p.1.s kb p.2) mask
  p.1.map fun s =>
    let s1 := countNum (noteFolds (scramble s j.x) j 1) j.x (out.map (·.sat)).sum (out.map (·.nan)).sum
    let s2 := j.masses s1 kb (out.map (·.p)) (out.map (·.l)) ((List.range out.length).map fun n => mask.getD (n / atQh j.head) [])
    setCtx s2 j.x.half j.x.core j.x.slot fun d =>
      { d with stats := out.map fun o => (o.m, o.l), acc := out.flatMap (·.acc), pass := kb + 1 - j.blocks.1 }

/-- ATTN_FOLD of a context: invisible blocks are skipped, the next visible one is folded, and after the last the range ends. -/
def foldStep (s : State) (x : Context) : State :=
  match ajobOf s x with
  | none => s
  | some j =>
    if onArray s x = false ∨ x.comb = true ∨ j.it.composed = true then s
    else if j.r.paused then attnFail s x ST_KV_PAUSED
    else
      let q := j.seek (j.blocks.2 + 1) ⟨s, none⟩ (j.blocks.1 + x.pass)
      let r := q.1.ctx x fun d => { d with pass := q.2.1 - j.blocks.1 }
      if r.fail.isSome then r.done x
      else match q.2.2 with
        | some (.fail st) => attnFail r.s x st
        | some .arriving => ctxWait r.s ((ctxAt r.s x.half x.core x.slot).getD x)
        | some (.fold mask) =>
          let f := foldOne j r q.2.1 mask
          if f.fail.isSome then f.done x
          else if j.blocks.2 ≤ q.2.1 + 1 then rangeEnd f.s j else f.s
        | some _ => r.s
        | none => rangeEnd r.s j

/-! ### Composed units -/

/-- Every block of a composed unit looked at: its blocks, or the first look that stops it. -/
def AJob.lookAll (j : AJob) : List Nat → Run → Run × List (Option Block) × Option Look
  | [], r => (r, [], none)
  | kb :: rest, r =>
    let q := j.look r kb
    match q.2 with
    | .skip _ =>
      let t := AJob.lookAll j rest q.1
      (t.1, none :: t.2.1, t.2.2)
    | .fold mask =>
      let p := j.pages q.1 kb mask
      let b : Block := ⟨kb, mask, j.keys p.2, j.values p.1.s kb p.2⟩
      let t := AJob.lookAll j rest p.1
      (t.1, some b :: t.2.1, t.2.2)
    | o => (q.1, [], some o)

/-- The masses of a composed unit's blocks, from the final sums (R272). -/
def composedMasses (j : AJob) (out : List FoldOut) (bs : List (Option Block)) (s : State) : State :=
  ((List.range bs.length).zip bs).foldl (fun t p => match p.2 with
    | none => t
    | some b => j.masses t b.kb (out.map fun o => (o.p.drop (128 * p.1)).take 128) (out.map (·.l))
        ((List.range out.length).map fun n => b.mask.getD (n / atQh j.head) [])) s

/-- ATTN_COMPOSED_UNIT of a context (R263). -/
def composedStep (s : State) (x : Context) : State :=
  match ajobOf s x with
  | none => s
  | some j =>
    if onArray s x = false ∨ j.it.composed = false then s
    else if j.r.paused then attnFail s x ST_KV_PAUSED
    else
      let kbs := (List.range (j.blocks.2 - j.blocks.1)).map (j.blocks.1 + ·)
      let q := j.lookAll kbs ⟨s, none⟩
      if q.1.fail.isSome then q.1.done x
      else match q.2.2 with
        | some (.fail st) => attnFail q.1.s x st
        | some _ => s
        | none =>
          let out := j.composeRows q.2.1
          let n := (q.2.1.filter (·.isSome)).length
          let k := q.2.1.length - n
          let s1 := bump ((noteFolds (scramble q.1.s x) j n).inc (.attn .ATTN_SKIPPED) j.c.half k) j.c.half 0 3 k
          let s2 := countNum s1 x (out.map (·.sat)).sum (out.map (·.nan)).sum
          let r := j.writeRows ⟨composedMasses j out q.2.1 s2, none⟩ (out.map fun o => (o.m, o.l)) (out.flatMap (·.acc))
          if r.fail.isSome then r.done x else afterItem (countUnit r.s j) j.c x

/-! ### Combines and demands -/

/-- Some other context still runs a range of the unit. -/
def unitBusy (s : State) (j : AJob) : Bool :=
  (ctxsOf s j.c.readNo).any fun y =>
    !(y.core == j.x.core && y.slot == j.x.slot) && !y.idle && !y.comb &&
      match ajobOf s y with
      | some k => k.it.unit == j.it.unit
      | none => false

/-- The ranges of a unit will not all come: its chain hands out no more, none of its ranges still runs, and one is not held. -/
def combineDead (s : State) (j : AJob) : Bool :=
  j.c.stop && !(unitBusy s j) && !((List.range j.it.ranges).all fun i => (j.holder s i).isSome)

/-- A context that kept a range goes on to its next item, once its range has been taken. -/
def releaseRange (s : State) (c : Chain) (y : Context) : State :=
  let s1 := setCtx s y.half y.core y.slot fun d => { d with comb := false }
  afterItem (ctxWake s1 y) c y

/-- ATTN_RANGE_COMBINE of a context (R275): the ranges are called for and combined by the context of range 0; a unit whose ranges will
not all come is not written. -/
def attnCombine (s : State) (x : Context) : State :=
  match ajobOf s x with
  | none => s
  | some j =>
    if x.comb = false then s
    else if combineDead s j then endContext s x
    else if onArray s x = false ∨ j.it.range ≠ 0 then s
    else match j.ranges s with
      | some l =>
        let r := j.combine ⟨scramble s x, none⟩ l
        if r.fail.isSome then r.done x
        else
          let held := (List.range (j.it.ranges - 1)).filterMap fun i => j.holder s (i + 1)
          let s1 := setCtx (countUnit r.s j) x.half x.core x.slot fun d => { d with comb := false, boundaryMt := s.mt x.half }
          afterItem (held.foldl (fun t y => releaseRange t j.c y) s1) j.c { x with comb := false }
      | none => s

/-- The pages for which a context must issue demand prefetches at its next block. -/
def demandPages (s : State) (j : AJob) : List Nat :=
  let kbs := if j.it.composed then (List.range (j.blocks.2 - j.blocks.1)).map (j.blocks.1 + ·)
    else [j.blocks.1 + j.x.pass].filter fun kb => decide (kb < j.blocks.2)
  kbs.flatMap fun kb => match (j.look ⟨s, none⟩ kb).2 with
    | .demand ps => ps
    | _ => []

/-- One page demanded: its prefetch is started or joined, or the status with which that fails (R271, R309, R312). -/
def demandPage (j : AJob) (a : State × Option Nat) (page : Nat) : State × Option Nat :=
  match a.2 with
  | some _ => a
  | none =>
    let s := a.1
    let count (t : State) : State := t.inc (.attn .ATTN_DEMAND) j.c.half 1
    if (j.entry s page).state = enFETCHING then
      let known := s.transfers.any fun t => t.request == j.r.num && t.layer == j.layer && t.head == j.kvHead && t.page == page &&
        t.waiters.contains j.c.readNo
      ((if known then s else count (joinTransfer s j.r j.layer j.kvHead page j.c.readNo)), none)
    else if s.hostOk j.r.half j.r.fn = false then (count s, some ST_HOST_LINK_DOWN)
    else match allocSlot s j.r with
      | .got slot t => (count (startFetch t j.r j.layer j.kvHead page slot 0 [j.c.readNo]), none)
      | .wait t => (t, none)
      | .none t => (count t, some ST_KV_NOSLOT)

/-- ATTN_DEMAND_PREFETCH of a context (R271): the prefetches are issued and the context waits. -/
def demandStep (s : State) (x : Context) : State :=
  match ajobOf s x with
  | none => s
  | some j =>
    let ps := demandPages s j
    if ps = [] ∨ onArray s x = false then s
    else
      let q := ps.foldl (demandPage j) (s, none)
      match q.2 with
      | some st => attnFail q.1 x st
      | none => ctxWait q.1 ((ctxAt q.1 x.half x.core x.slot).getD x)

/-! ### A chain of attention as a whole -/

/-- The next step of a context of an attention chain, if it can make one, with the choice of R332 at every boundary: none while its half
dispatches no pass (R64), and none for a context that a lower class code has displaced. -/
def attnAdvance (s : State) (c : Chain) (x : Context) : Option State :=
  if s.dispatchOff x.half then none
  else if x.comb then
    (match ajobOf s x with
     | some j =>
       if combineDead s j then some (endContext s x)
       else if j.it.range ≠ 0 ∨ x.waiting = true ∨ (j.ranges s).isNone then none
       else if onArray s x = false then switchTo s x
       else some (resched (attnCombine s x) x.half x.core)
     | none => none)
  else if x.waiting then none
  else if x.read = false then some (startIdle (dispatchAttn s c x) x.half x.core)
  else if x.idle ∧ ctxLive s x = true then
    if x.next = none then some (if x.fetching then workReturn s c x else workFetch s c x)
    else some (attnStart s c x)
  else if onArray s x = false then switchTo s x
  else if 0 < x.inArray then some (resched (drain s x) x.half x.core)
  else match ajobOf s x with
    | none => none
    | some j =>
      if demandPages s j ≠ [] then some (demandStep s x)
      else if j.it.composed then some (composedStep s x)
      else some (foldStep s x)

/-- A chain run on, one step of one of its contexts at a time, until it ends or all of them wait. -/
def driveAttn : Nat → Nat → State → State
  | 0, _, s => s
  | n + 1, readNo, s =>
    match s.chains.find? fun d => d.readNo == readNo with
    | none => s
    | some c =>
      if c.done then s
      else match (ctxsOf s readNo).findSome? (attnAdvance s c) with
        | some t => driveAttn n readNo t
        | none => s

/-! ### Commands -/

/-- CONTEXT_DISPATCH (R225, R235, R237): a LOADED context reads its tables; a chain's first one has its work checked and cut. -/
def execContextDispatch (h : Half) (core : Nat) (slot : Fin 2) (s : State) : Res :=
  onContext s h core slot fun c x =>
    if x.read || s.dispatchOff h then s
    else
      let s1 := if isNest c then dispatchNest s c x else if isAttn c then dispatchAttn s c x
        else setCtx s h core slot fun d => { d with read := true }
      startIdle (logSched s1 h c.ring c.seq 3 (hdClass c.head) 0 (0x8000 + x.id)) h core

/-- ITEM_START (R236, R240, R259). -/
def execItemStart (h : Half) (core : Nat) (slot : Fin 2) (s : State) : Res :=
  onContext s h core slot fun c x => if isNest c then itemStart s c x else if isAttn c then attnStart s c x else s

/-- TILE_BOUNDARY (R209, R332): the passes in the array have drained, and the core chooses again. -/
def execTileBoundary (h : Half) (core : Nat) (slot : Fin 2) (s : State) : Res :=
  onContext s h core slot fun c x =>
    if onArray s x = false then s
    else resched (if isNest c then nestBoundary s x else drain s x) h core

/-- VECTOR_STEP (R210, R332). The vector work of attention is part of its folds. -/
def execVectorStep (h : Half) (core : Nat) (slot : Fin 2) (s : State) : Res :=
  onContext s h core slot fun c x => 
    if isNest c && !s.dispatchOff h then reschedIf (x.vec && onArray s x) (nestVector s x) x else s

/-- ATTN_FOLD (R262, R268 to R272). -/
def execAttnFold (h : Half) (core : Nat) (slot : Fin 2) (s : State) : Res :=
  onContext s h core slot fun c x => if isAttn c && !s.dispatchOff h then foldStep s x else s

/-- ATTN_COMPOSED_UNIT (R263). -/
def execAttnComposedUnit (h : Half) (core : Nat) (slot : Fin 2) (s : State) : Res :=
  onContext s h core slot fun c x => if isAttn c && !s.dispatchOff h then composedStep s x else s

/-- ATTN_RANGE_COMBINE (R275). -/
def execAttnRangeCombine (h : Half) (core : Nat) (slot : Fin 2) (s : State) : Res :=
  onContext s h core slot fun c x => if isAttn c then reschedIf (x.comb && onArray s x) (attnCombine s x) x else s

/-- ATTN_DEMAND_PREFETCH (R271, R312). -/
def execAttnDemandPrefetch (h : Half) (core : Nat) (slot : Fin 2) (s : State) : Res :=
  onContext s h core slot fun c x => if isAttn c then demandStep s x else s

/-- ATTN_RULE_WRITE (R284): refused for SPLIT_MIN = 0; discarded while the setup is locked (R143). -/
def execAttnRuleWrite (h : Half) (splitMin composedMax : Nat) (s : State) : Res :=
  if locked s h then .next s
  else if splitMin % 65536 = 0 then .next (s.wr (.attn .ATTN_ERR_STATUS) h ST_ATTN_FIT)
  else .next ((s.wr (.attn .ATTN_RULE_SPLIT_MIN) h splitMin).wr (.attn .ATTN_RULE_COMPOSED_MAX) h composedMax)

/-- ATTN (R258 to R275): the admitted chain's contexts run until it ends or all of them wait for pages. -/
def execAttn (h : Half) (ring seq : Nat) (s : State) : Res :=
  runChain s h ring seq opATTN fun c => driveAttn driveFuel c.readNo s

/-- ATTN_RING (R276 to R281): as far as the blocks that have landed allow. -/
def execAttnRing (h : Half) (ring seq : Nat) (s : State) : Res :=
  runChain s h ring seq opATTN_RING fun c => driveAttn driveFuel c.readNo s

/-- VERIFY (R282, R283). -/
def execVerify (h : Half) (ring seq : Nat) (s : State) : Res :=
  runChain s h ring seq opVERIFY fun c => driveAttn driveFuel c.readNo s

end Sys2Proof.Machine
end

