-- ==== Sys2Proof/Machine/AttnRing.lean ====
section
/-!
DEFINITION. Machine/AttnRing.lean: the transport of an ATTN_RING (R276 to R281, R305, R407, R408): the held block sent in units
under CTS and DONE, foreign pages placed in guest slots, and the steps.
-/

namespace Sys2Proof.Machine

/-- The request of a chain. -/
def Chain.request (c : Chain) (s : State) : Option Request := c.requestNum.bind s.request

/-- The chain of a piece of work as it stands, and its request. -/
def CollW.chain (w : CollW) : Option Chain := w.s.chains.find? fun d => d.readNo == w.c.chainNo
def CollW.request (w : CollW) : Option Request := w.chain.bind fun d => d.request w.s

/-- The chain of a piece of work changed. -/
def CollW.setChain (w : CollW) (f : Chain → Chain) : CollW :=
  { w with s := mapChains w.s fun d => if d.readNo = w.c.chainNo then f d else d }

/-- The work of a running ATTN_RING. -/
def ringWork (s : State) (c : Coll) (d : Chain) : CollW := ⟨s, c, d.head, ringFn d.ring, grpOf s c.half c.g, none⟩

/-- The chain fails at this member: its status stands, and the abort follows with cause FAULT (R305, R416). -/
def CollW.failRing (w : CollW) (status : Nat) : CollW := (w.setChain fun d => d.fail status).abort 3 status

/-- Position of the ring's axis in the group's order, extent along it, and the member's index. -/
def CollW.ringAxis (w : CollW) (d : Chain) : Nat := (w.x.axes.findIdx? fun a => a == rgAxis (ringExt d)).getD 0

/-- The downstream and the upstream neighbour (R278). -/
def CollW.ringNode (w : CollW) (d : Chain) (down : Bool) : Nat :=
  let a := w.ringAxis d
  let e := w.x.e a
  let up := (rgDir (ringExt d) == 1) == down
  lineNode w.s w.c.half w.x a ((w.x.i a + (if up then e - 1 else 1)) % e)

/-- Pages of a unit of at most 128 KB (R407). -/
def unitPages (m : List Byte) : Nat := max 1 (131072 / pageBytes m)

/-- A page travels: it is owned, and it is held in HBM or in the Valley tier. -/
def ownPage (e : Entry) : Bool :=
  e.own && (e.state == enHBM || e.state == enSPILLING || e.state == enVALLEY || e.state == enFETCHING)

/-- The pages of the block held during the running step, in order: page and head (R276, R278). -/
def heldPages (s : State) (c : Chain) (r : Request) : List (Nat × Nat) :=
  if c.ringStep = 0 then
    (List.range (mapNP r.header)).flatMap fun j =>
      ((List.range (atKvhN c.head)).map (atKvh0 c.head + ·)).filterMap fun g =>
        if ownPage (entryOf s r (atLayer c.head) g j) then some (j, g) else none
  else (sortBy (fun p : RingPage => [p.seg]) (c.ringPages.filter fun p => p.step + 1 == c.ringStep && p.placed)).map
    fun p => (p.page, p.head)

/-- Units of the held block that this member sends downstream; none in the last step (R278). -/
def heldUnits (s : State) (c : Chain) (r : Request) : Nat :=
  if ringSteps c ≤ c.ringStep + 1 then 0 else ceilDiv (heldPages s c r).length (unitPages r.header)

/-! ### Sending -/

/-- One page of the held block sent as a group of DATA packets (R407). -/
def CollW.sendPage (w : CollW) (d : Chain) (r : Request) (unit seg : Nat) (q : Nat × Nat) : CollW :=
  let e := entryOf w.s r (atLayer d.head) q.2 q.1
  if pageReach w.s r e.slot = false then { w with s := refusePage w.s r false e.slot }.failRing ST_HBM_FENCE
  else (payloads 1 (readPage w.s r e.slot)).foldl (fun w p =>
    w.injectData (w.ringNode d true) (dataFields w.c seg (w.ringAxis d) false d.ringStep (mapFmt r.header) unit p.1) p.2) w

/-- Owned pages of a unit that are in the Valley tier are prefetched before they are sent (§8.7, R271). -/
def CollW.prefetchUnit (w : CollW) (d : Chain) (r : Request) (ps : List (Nat × Nat)) : CollW :=
  ps.foldl (fun w q => w.bind fun w =>
    let l := atLayer d.head
    let e := entryOf w.s r l q.2 q.1
    if e.state = enFETCHING then { w with s := joinTransfer w.s r l q.2 q.1 d.readNo }
    else if e.state ≠ enVALLEY then w
    else if w.s.hostOk r.half r.fn = false then w.failRing ST_HOST_LINK_DOWN
    else match allocSlot w.s r with
      | .got slot t => { w with s := (startFetch t r l q.2 q.1 slot 0 [d.readNo]).inc (.attn .ATTN_DEMAND) w.c.half 1 }
      | .wait t => { w with s := t }
      | .none t => { w with s := t }.failRing ST_KV_NOSLOT) w

/-- A unit asked for by a CTS of the running step sent, once its pages are in HBM (R404, R407); a paused request's map is not read (R324).
-/
def CollW.serveCts (w : CollW) (t : CtsHeld) : CollW :=
  match w.chain, w.request with
  | some d, some r =>
    let n := unitPages r.header
    if r.paused then w.failRing ST_KV_PAUSED
    else if t.step ≠ d.ringStep ∨ heldUnits w.s d r ≤ t.unit then w
    else
      let ps := ((heldPages w.s d r).drop (t.unit * n)).take n
      let away := ps.filter fun q =>
        let e := entryOf w.s r (atLayer d.head) q.2 q.1
        e.state == enVALLEY || e.state == enFETCHING
      if away.isEmpty then
        let w1 := ((List.range ps.length).zip ps).foldl (fun w p => w.sendPage d r t.unit (t.unit * n + p.1) p.2) w
        { w1 with c := { w1.c with cts := w1.c.cts.filter fun u => !(u == t) } }
      else w.prefetchUnit d r away
  | _, _ => w

/-- Every CTS that can be served is. -/
def CollW.serveAll (w : CollW) : CollW := w.c.cts.foldl (fun w t => w.bind fun w => w.serveCts t) w

/-- A ring goes on with what it owes downstream. -/
def ringGoOn (s : State) (c : Coll) : State :=
  match c.chain s with
  | some d => ((ringWork s c d).serveAll).closeNotch
  | none => s

/-- The rings of a half go on: a page that one of them waited for has landed. -/
def ringsGoOn (s : State) (h : Half) : State :=
  (s.colls.filter fun c => c.half == h && c.ring).foldl (fun t c =>
    match collOf t c.chainNo with
    | some d => ringGoOn t d
    | none => t) s

/-- A CTS received by a ring: a digest that differs aborts (R405). -/
def CollW.ringCts (w : CollW) (d : Chain) (p : Packet) : CollW :=
  let t := p.transport
  let k : CtsHeld := ⟨fieldAt t 16 4, 0, fieldAt t 10 1, fieldAt t 11 1 + 256 * fieldAt t 20 2, p.src⟩
  if fieldAt t 12 4 ≠ ringDigest w.s w.c.half w.c.g d then w.abort 1 0
  else
    ({ w with c := { w.c with cts := w.c.cts.filter (fun u => !(u == k)) ++ [k] } }).serveAll

/-- A DONE received by a ring: the unit has arrived downstream. -/
def CollW.ringDone (w : CollW) (d : Chain) (p : Packet) : CollW :=
  let t := p.transport
  if fieldAt t 10 1 = d.ringStep ∧ fieldAt t 11 1 + 256 * fieldAt t 20 2 = d.ringTx then
    w.setChain fun d => { d with ringTx := d.ringTx + 1 }
  else w

/-! ### Receiving -/

/-- The bytes of a page from its packets, once they are all here. -/
def pageWhole (size : Nat) (got : List (Nat × List Byte)) : Option (List Byte) :=
  let b := ((sortBy (fun p : Nat × List Byte => [p.1]) got).map (·.2)).flatten
  if b.length = size then some b else none

/-- A free guest slot must be waited for: none is left, and pages of another block hold some (R279, R305). -/
def guestsWait (d : Chain) (r : Request) : Bool :=
  let n := 2 ^ mapLog2 r.header
  let mine := (d.ringPages.filter fun p => p.step == d.ringStep && p.placed).length
  decide (r.guestFree < n ∧ r.guestFree + mine * n < mapGuest r.header)

/-- CTS for the unit that arrives next sent upstream, unless a guest slot or a page's placing must be waited for (R279, R404). -/
def CollW.ringAsk (w : CollW) : CollW :=
  match w.chain, w.request with
  | some d, some r =>
    let n := unitPages r.header
    let u := d.ringAck / n
    if ringSteps d ≤ d.ringStep + 1 ∨ d.ringWhole.contains d.ringStep = true ∨ guestsWait d r = true ∨
        (d.ringPages.any fun p => p.step == d.ringStep && !p.placed && (pageWhole (pageBytes r.header) p.got).isSome) = true then w
    else (w.inject (w.ringNode d false) 2
      (ctlFields w.c 0 (w.ringAxis d) false d.ringStep u (ringDigest w.s w.c.half w.c.g d) (u * n)) []).setChain
        fun d => { d with ringRx := u + 1 }
  | _, _ => w

/-- A foreign page that has arrived whole put into a guest slot (R305): its entry must be ABSENT; a block larger than the
reservation fails the chain, and so does a paused request (R324); a page that finds no free guest slot waits. -/
def CollW.placePage (w : CollW) (p : RingPage) (data : List Byte) : CollW :=
  match w.chain, w.request with
  | some d, some r =>
    let l := atLayer d.head
    let mine := d.ringPages.filter fun q => q.step == p.step
    if r.paused then w.failRing ST_KV_PAUSED
    else if mapGuest r.header < mine.length * 2 ^ mapLog2 r.header then w.failRing ST_KV_GUEST
    else if mapNP r.header ≤ p.page ∨ mapNKV r.header ≤ p.head ∨ mapNL r.header ≤ l ∨
        (entryOf w.s r l p.head p.page).state ≠ enABSENT then w.failRing ST_KV_STATE
    else match takeGuest w.s r with
      | none => w
      | some t =>
        let e : Entry := { Entry.absent with slot := t.1, state := enGUEST, fill := min 64 p.fill }
        let w1 : CollW := { w with s := setEntry (writePage t.2 r.half t.1 data) r l p.head p.page e }
        w1.setChain fun d => { d with ringPages := d.ringPages.map fun (q : RingPage) => if q.step = p.step ∧
          q.seg = p.seg then { p with got := [], placed := true } else q }
  | _, _ => w

/-- DONE for the running unit sent upstream once its pages have been placed; `short` where the block ends within it. -/
def CollW.ringAck (w : CollW) (short : Bool) : CollW :=
  match w.chain, w.request with
  | some d, some r =>
    let n := unitPages r.header
    let u := d.ringAck / n
    let mine := d.ringPages.filter fun q => q.step == d.ringStep && q.seg / n == u
    if (mine.all fun q => q.placed) = true ∧ (mine.length = n ∨ (short = true ∧ mine ≠ [])) ∧ d.ringRx = u + 1 then
      (w.inject (w.ringNode d false) 2 (ctlFields w.c 1 (w.ringAxis d) false d.ringStep u 0 (u * n)) []).setChain
        fun d => { d with ringAck := (u + 1) * n }
    else w
  | _, _ => w

/-- Pages that have arrived whole and wait for a guest slot are placed. -/
def CollW.placeAll (w : CollW) : CollW :=
  match w.chain, w.request with
  | some d, some r =>
    (d.ringPages.foldl (fun w p => w.bind fun w =>
      if p.placed then w else match pageWhole (pageBytes r.header) p.got with
        | some b => w.placePage p b
        | none => w) w).bind fun w => w.ringAck false
  | _, _ => w

/-- A DATA packet received by a ring: part of page `page` of head `head`, of which `fill` positions are held. -/
def CollW.ringPacket (w : CollW) (d : Chain) (r : Request) (p : Packet) (page head fill : Nat) : CollW :=
  let t := p.transport
  let n := unitPages r.header
  let seg := fieldAt t 8 4
  let unit := fieldAt t 15 1 + 256 * fieldAt t 20 2
  let known := d.ringPages.find? fun q => q.step == d.ringStep && q.seg == seg
  if fieldAt t 13 1 ≠ d.ringStep ∨ ringSteps d ≤ d.ringStep + 1 ∨ unit ≠ d.ringAck / n ∨ d.ringRx ≠ unit + 1 ∨ seg / n ≠ unit ∨
      (known.any fun q => q.placed) = true then w
  else
    let off := fieldAt t 16 4
    let q : RingPage := known.getD ⟨d.ringStep, seg, page, head, fill, [], false⟩
    let q1 := { q with got := q.got.filter (fun g => g.1 != off) ++ [(off, p.payload)] }
    (w.setChain fun d =>
      { d with ringPages := (d.ringPages.filter fun g => !(g.step == d.ringStep && g.seg == seg)) ++ [q1] }).placeAll

/-! ### Steps -/

/-- The running step's items have all been folded. -/
def stepFolded (s : State) (c : Chain) : Bool :=
  let n := (c.ringStep + 1) * c.items.length
  c.checked && decide (n ≤ c.work) && (ctxsOf s c.readNo).all fun x =>
    (x.idle || decide (n ≤ x.item.getD n)) && decide (n ≤ x.next.getD n)

/-- ATTN_RING_STEP: once the held block has been folded and forwarded it is released; once the next has landed, or after the
last step, the step is over (R278, R279). -/
def ringStep (s : State) (c : Coll) (d : Chain) (r : Request) : State :=
  let last := decide (ringSteps d ≤ d.ringStep + 1)
  if stepFolded s d = false ∨ d.ringTx < heldUnits s d r then s
  else
    let s1 := dropGuests s d.half r.num (atLayer d.head) (d.ringPages.filter fun p => p.step + 1 == d.ringStep)
    let s2 := mapChains s1 fun q =>
      if q.readNo = d.readNo then { q with ringPages := q.ringPages.filter fun p => p.step + 1 != d.ringStep } else q
    if last then
      let s3 := endColl (countColl s2 c) c
      settleChain (s3.inc (.attn .RING_STEPS) d.half 1) d.readNo
    else if d.ringWhole.contains d.ringStep then
      let s3 := mapChains (s2.inc (.attn .RING_STEPS) d.half 1) fun q =>
        if q.readNo = d.readNo then { q with ringStep := q.ringStep + 1, ringTx := 0, ringRx := 0, ringAck := 0 } else q
      wakeCtxs (ringGoOn s3 c) fun x => x.chainNo == some d.readNo
    else ((ringWork s2 c { d with ringPages := [] }).placeAll).closeNotch

/-- A running ring with its chain and request. -/
def ringOf (s : State) (h : Half) (ring seq : Nat) : Option (Coll × Chain × Request) :=
  match s.chains.find? fun c => c.half == h && c.ring == ring && c.seq == seq && isRing c && !c.done with
  | none => none
  | some d => match collOf s d.readNo, d.request s with
    | some c, some r => some (c, d, r)
    | _, _ => none

/-- ATTN_RING_STEP (R278, R279). -/
def execAttnRingStep (h : Half) (ring seq : Nat) (s : State) : Res :=
  match ringOf s h ring seq with
  | some q => .next (ringStep s q.1 q.2.1 q.2.2)
  | none => .next s

/-- What a notice tells is so: every page of the block received so far is in its guest slot; of a key block, with OVERLAP = 1 only, pages
of every head of the chain are (R408). -/
def landedNow (d : Chain) (keyBlock : Option Nat) : Bool :=
  let mine := d.ringPages.filter fun p => p.step == d.ringStep
  match keyBlock with
  | none => mine.all fun p => p.placed
  | some kb =>
    let here := mine.filter fun p => p.page / 2 == kb
    rgOverlap (ringExt d) && here.all (fun p => p.placed) &&
      (List.range (atKvhN d.head)).all fun k => here.any fun p => p.head == atKvh0 d.head + k

/-- ATTN_RING_BLOCK_LANDED (R280, R408): the engine has the whole arriving block, or the two pages of a key block for every
head, in guest slots, and tells the tile dispatcher; which pages a block has only the engine knows. -/
def execAttnRingBlockLanded (h : Half) (ring seq : Nat) (keyBlock : Option Nat) (s : State) : Res :=
  match ringOf s h ring seq with
  | none => .next s
  | some q =>
    let d := q.2.1
    if landedNow d keyBlock = false ∨ ringSteps d ≤ d.ringStep + 1 then .next s
    else
      let s1 := mapChains s fun c => if c.readNo = d.readNo then (match keyBlock with
        | none => { c with ringWhole := c.ringWhole.filter (· ≠ d.ringStep) ++ [d.ringStep] }
        | some kb => { c with ringKb := c.ringKb ++ [(d.ringStep, kb)] }) else c
      let s2 := if keyBlock = none then ((ringWork s1 q.1 d).ringAck true).closeNotch else s1
      .next (wakeCtxs s2 fun x => x.chainNo == some d.readNo)

end Sys2Proof.Machine
end

