-- ==== Sys2Proof/Machine/AuxPins.lean ====
section
/-!
DEFINITION. Machine/AuxPins.lean: PWM channels (R76 to R80), trigger outputs (R81), pulse-feedback inputs (R82 to R86), and the
aux pins with their diagnosis (R87 to R94).
-/

namespace Sys2Proof.Machine

/-! ### PWM channels -/

/-- The loop owns a channel's shadows and controls: PWM0 and PWM1 in PRIME, RUN and FAIL (R75). -/
def pwmOwned (s : State) (h : Half) (n : Nat) : Bool :=
  let st := s.rd (.thm .THERM_STATUS_STATE) h
  decide (n < 2) && (st == 1 || st == 2 || st == 4)

/-- An operator's write to a channel, after the discards of R66 and R75. -/
def pwmWrite (s : State) (h : Half) (n : Nat) (t : State) : Res :=
  if s.holds h then
    if pwmOwned s h n then .next (s.wr (.thm .PWM_STATUS_LAST_STATUS) h ST_PWM_OWNED n) else .next t
  else .next s

/-- PWM_RELOAD (R76, R78): the counter of a running channel has run through its PERIOD and wraps to 0; an armed transfer moves both
shadows, unless UPDATE was registered in this very cycle. -/
def execPwmReload (h : Half) (n : Fin 4) (s : State) : Res :=
  let p := s.rd (.thm .PWM_ACT_PERIOD) h n.val
  if s.rd (.thm .PWM_CTL_EN) h n.val = 1 ∧ p ≤ pwmCount s h n.val then
    let s1 := s.wr (.thm .PWM_T0) h (s.rd (.thm .PWM_T0) h n.val + 4 * p) n.val
    if s.rd (.thm .PWM_SKIP) h n.val = 1 then .next (s1.wr (.thm .PWM_SKIP) h 0 n.val)
    else if s.rd (.thm .PWM_STATUS_UPD_PEND) h n.val = 1 then .next (pwmDrive (pwmTransfer s1 h n.val) h n.val)
    else .next s1
  else .next s

/-- PWM_UPDATE (R78 to R80). -/
def execPwmUpdate (h : Half) (n : Fin 4) (s : State) : Res := pwmWrite s h n.val (pwmArm s h n.val)

/-- PWM_SHADOW_WRITE (R78, R79). -/
def execPwmShadowWrite (h : Half) (n : Fin 4) (reg : PwmReg) (v : Nat) (s : State) : Res :=
  pwmWrite s h n.val (pwmShadow s h n.val reg v)

/-- EN going to 1 on a channel with a claimable pin: the pin claimed, then the channel started (R80, R88). Where the start is refused for
its PERIOD the pin is released again, and AUX_CLAIM_STATUS keeps the claim's ST_OK (DESIGN CHOICE, log entry 59). -/
def pwmEnableClaim (s : State) (h : Half) (n : Nat) : State :=
  let pin := n - 2
  let s1 := claimPin s h pin 1
  if pinClaimStatus s h pin = ST_OK then
    let s2 := pwmStart s1 h n
    if s2.rd (.thm .PWM_CTL_EN) h n = 1 then pwmDrive s2 h n else releasePin s2 h pin
  else s1.wr (.thm .PWM_STATUS_LAST_STATUS) h ST_CONFLICT n

/-- PWM_ENABLE (R80, R88, R89). -/
def execPwmEnable (h : Half) (n : Fin 4) (s : State) : Res :=
  if s.holds h then
    if s.rd (.thm .PWM_CTL_EN) h n.val = 1 then pwmWrite s h n.val s
    else if n.val < 2 then pwmWrite s h n.val (pwmDrive (pwmStart s h n.val) h n.val)
    else .next (pwmEnableClaim s h n.val)
  else if n.val < 2 then .next s
  else .next (pinNoRole s h (n.val - 2) 1)

/-- A channel stopped: the armed transfer discarded, and the pin released or driven inactive (R80, R88). -/
def pwmStop (s : State) (h : Half) (n : Nat) : State :=
  let s1 := ((s.wr (.thm .PWM_CTL_EN) h 0 n).wr (.thm .PWM_STATUS_UPD_PEND) h 0 n).wr (.thm .PWM_SKIP) h 0 n
  let s2 := s1.wr (.thm .PWM_STATUS_LAST_STATUS) h ST_OK n
  if n < 2 then pwmDrive s2 h n else releasePin s2 h (n - 2)

/-- PWM_DISABLE (R80, R88). -/
def execPwmDisable (h : Half) (n : Fin 4) (s : State) : Res :=
  pwmWrite s h n.val (if s.rd (.thm .PWM_CTL_EN) h n.val = 1 then pwmStop s h n.val else s)

/-! ### Triggers -/

/-- The claimable pin of a trigger: AUX_PWM2 for TRIG_OUT0, AUX_FB2B for TRIG_OUT1 (Table 2.7). -/
def trigPin (k : Nat) : Nat := if k = 0 then 0 else 2

/-- The fields of TRIG_CFGk but EN. -/
def trigFields (s : State) (h : Half) (k : Nat) (timed : Bool) (ch width at_ : Nat) : State :=
  (((s.wr (.thm .TRIG_CFG_MODE) h (bit timed) k).wr (.thm .TRIG_CFG_CH) h ch k).wr (.thm .TRIG_CFG_WIDTH) h width k).wr
    (.thm .TRIG_CFG_AT) h at_ k

/-- A trigger enabled: its pin, then its comparator, claimed; the pin given back when the comparator is held (R88,
R471). -/
def trigEnable (s : State) (h : Half) (k : Nat) (timed : Bool) : State :=
  let pin := trigPin k
  let c := trigCmp s h k
  let s1 := claimPin s h pin 3
  if pinClaimStatus s h pin = ST_OK then
    let s2 := claimCmp s1 h c (3 + k)
    if cmpClaimStatus s1 h c = ST_OK then
      thermStatus (drivePin (armTrig (s2.wr (.thm .TRIG_CFG_EN) h 1 k) h k timed) h (pinOut pin) 1) h ST_OK
    else thermStatus (releasePin s2 h pin) h ST_CONFLICT
  else thermStatus s1 h ST_CONFLICT

/-- A trigger disabled: its comparator and pin released. -/
def trigDisable (s : State) (h : Half) (k : Nat) : State :=
  thermStatus (releasePin (releaseCmp (s.wr (.thm .TRIG_CFG_EN) h 0 k) h (trigCmp s h k)) h (trigPin k)) h ST_OK

/-- TRIG_CFGk written on the half with the roles (R81, R96, R470). -/
def trigWrite (s : State) (h : Half) (k : Nat) (en timed : Bool) (ch width at_ : Nat) : State :=
  let s1 := trigFields s h k timed ch width at_
  if s.rd (.thm .TRIG_CFG_EN) h k = 1 then
    if en then thermStatus (if s.rd (.thm .TRIG_CFG_MODE) h k = bit timed then s1 else armTrig s1 h k timed) h ST_OK
    else trigDisable s1 h k
  else if en then trigEnable s1 h k timed
  else thermStatus s1 h ST_OK

/-- TRIG_CONFIG_WRITE (R81, R88, R89, R96). -/
def execTrigConfigWrite (h : Half) (k : Fin 2) (en timed : Bool) (ch : Fin 4) (width at_ : Nat) (s : State) : Res :=
  if s.holds h then
    if width % 1024 = 0 then .next (thermStatus s h ST_PWM_RANGE)
    else .next (trigWrite s h k.val en timed ch.val width at_)
  else if en then .next (pinNoRole s h (trigPin k.val) 3)
  else .next s

/-- TRIG_SYNC_PULSE (R81): a PWM-synchronous trigger starts its pulse at count AT of its channel, unless AT is at or above PERIOD. -/
def execTrigSyncPulse (h : Half) (k : Fin 2) (s : State) : Res :=
  let ch := s.rd (.thm .TRIG_CFG_CH) h k.val
  if s.rd (.thm .TRIG_CFG_EN) h k.val = 1 ∧ s.rd (.thm .TRIG_CFG_MODE) h k.val = 0 ∧ s.rd (.thm .PWM_CTL_EN) h ch = 1 ∧
      s.rd (.thm .TRIG_CFG_AT) h k.val < s.rd (.thm .PWM_ACT_PERIOD) h ch ∧ pwmCount s h ch = s.rd (.thm .TRIG_CFG_AT) h k.val then
    .next (drivePin s h (pinOut (trigPin k.val)) 2)
  else .next s

/-- The pin carries a trigger or PPS output. -/
def pulsePin (s : State) (h : Half) : AuxPin → Bool
  | .pwm2 => s.rd (.thm .AUX_OWNER_PWM2) h == 3
  | .pwm3 => s.rd (.thm .AUX_OWNER_PWM3) h == 4
  | .fb2b => s.rd (.thm .AUX_OWNER_FB2B) h == 3
  | _ => false

/-- PIN_PULSE_END (R81, R481): the pin of a trigger or PPS output returns low. -/
def execPinPulseEnd (h : Half) (pin : AuxPin) (s : State) : Res :=
  if pulsePin s h pin then .next (drivePin s h pin 1) else .next s

/-! ### Feedback inputs -/

/-- The direction of an edge on an input of a channel in its mode (Table 2.6): up, down, or not counted. -/
def fbDirection (mode : Nat) (onB levelB : Bool) : Option Bool :=
  if mode = 1 then (if onB then none else some levelB)
  else if mode = 2 then (if onB then none else some true)
  else if mode = 3 then some (!onB)
  else none

/-- A counted edge: POSITION, the window, PERIOD and DIR move, and STOPPED clears (R84, R85). -/
def fbCount (s : State) (h : Half) (n : Nat) (onB up : Bool) : State :=
  let pos := s.rd (.thm .FB_POSITION) h n
  let delta := if up then 1 else 0xFFFFFFFF
  let last := s.rd (.thm .FB_CH_T) h n
  let now := s.mt h + 1
  let s1 := s.wr (.thm .FB_POSITION) h (pos + delta) n
  let s2 := if (up ∧ pos = 0x7FFFFFFF) ∨ (up = false ∧ pos = 0x80000000) then s1.wr (.thm .FB_STATUS_WRAPPED) h 1 n else s1
  let s3 := (s2.wr (.thm .FB_WIN) h (s.rd (.thm .FB_WIN) h n + delta) n).wr (.thm .FB_STATUS_STOPPED) h 0 n
  let s4 := if last = 0 then s3
    else s3.wr (.thm .FB_PERIOD_PERIOD) h (min 0xFFFFFE ((now - last) / 4)) n
  (((s4.wr (.thm .FB_PERIOD_DIR) h (bit (!up)) n).wr (.thm .FB_CH_T) h now n).wr (.thm .FB_LAST) h now n).wr (.thm .FB_IN_T) h now
    (2 * n + (if onB then 1 else 0))

/-- FB_EDGE (R82 to R85): an edge counted, rejected as a glitch, or taken for the same edge of one 4 ns sample. -/
def execFbEdge (h : Half) (n : Fin 3) (onB levelB : Bool) (s0 : State) : Res :=
  let i := 2 * n.val + (if onB then 1 else 0)
  let last := s0.rd (.thm .FB_IN_T) h i
  let seen := s0.rd (.thm .FB_SEEN) h i
  let s := s0.wr (.thm .FB_SEEN) h (s0.mt h + 1) i
  match fbDirection (s.rd (.thm .FB_CTL_MODE) h n.val) onB levelB with
  | none => .next s0
  | some up =>
    if seen ≠ 0 ∧ (seen - 1) / 4 = s.mt h / 4 then .next s0
    else if last ≠ 0 ∧ s.mt h + 1 < last + s.rd (.thm .FB_MIN_INT) h n.val * 4 then
      .next (s.inc (.thm .FB_STATUS_GLITCH) h 1 n.val |> fun t => if s.holds h then bump t h 4 6 1 else t)
    else .next (fbCount s h n.val onB up)

/-- FB_POSITION_WRITE (R84). -/
def execFbPositionWrite (h : Half) (n : Fin 3) (v : Nat) (s : State) : Res :=
  if s.holds h then .next (thermStatus (s.wr (.thm .FB_POSITION) h v n.val) h ST_OK) else .next s

/-- FB_ZS_TIMEOUT (R85): no edge has counted for ZS_TIMEOUT counts of 4 ns, so the channel is stopped. -/
def execFbZsTimeout (h : Half) (n : Fin 3) (s : State) : Res :=
  if s.rd (.thm .FB_LAST) h n.val + 4 * s.rd (.thm .FB_ZS_TIMEOUT) h n.val ≤ s.mt h + 1 then
    .next ((((s.wr (.thm .FB_PERIOD_PERIOD) h 0xFFFFFF n.val).wr (.thm .FB_STATUS_STOPPED) h 1 n.val).wr
      (.thm .FB_CH_T) h 0 n.val).wr (.thm .FB_WIN) h 0 n.val)
  else .next s

/-- FB_WINDOW_END (R85). -/
def execFbWindowEnd (h : Half) (n : Fin 3) (s : State) : Res :=
  .next ((s.wr (.thm .FB_COUNT_WIN) h (s.rd (.thm .FB_WIN) h n.val) n.val).wr (.thm .FB_WIN) h 0 n.val)

/-- A mode that holds FB2B: FB2 in mode 1 or 3 (R88). -/
def fbHoldsB (n mode : Nat) : Bool := n == 2 && (mode == 1 || mode == 3)

/-- MODE changed: PERIOD cleared and the window restarted; POSITION and GLITCH stay. -/
def fbSetMode (s : State) (h : Half) (n mode : Nat) : State :=
  (((s.wr (.thm .FB_CTL_MODE) h mode n).wr (.thm .FB_PERIOD_PERIOD) h 0xFFFFFF n).wr (.thm .FB_WIN) h 0 n).wr
    (.thm .FB_CH_T) h 0 n

/-- MODE written on the half with the roles, with the claim or release of FB2B (R88). -/
def fbModeWrite (s : State) (h : Half) (n mode : Nat) : State :=
  let old := s.rd (.thm .FB_CTL_MODE) h n
  if mode = old then thermStatus s h ST_OK
  else if fbHoldsB n mode ∧ fbHoldsB n old = false then
    let s1 := claimPin s h 2 2
    if pinClaimStatus s h 2 = ST_OK then thermStatus (fbSetMode s1 h n mode) h ST_OK else thermStatus s1 h ST_CONFLICT
  else if fbHoldsB n old ∧ fbHoldsB n mode = false then
    thermStatus (fbSetMode (s.wr (.thm .AUX_OWNER_FB2B) h 0) h n mode) h ST_OK
  else thermStatus (fbSetMode s h n mode) h ST_OK

/-- FB_MODE_SET (R82, R88, R89). -/
def execFbModeSet (h : Half) (n : Fin 3) (mode : Fin 4) (s : State) : Res :=
  if s.holds h then .next (fbModeWrite s h n.val mode.val)
  else if fbHoldsB n.val mode.val then .next (pinNoRole s h 2 2)
  else .next s

/-- FB_CLR_GLITCH (R83). -/
def execFbClrGlitch (h : Half) (n : Fin 3) (s : State) : Res :=
  if s.holds h then .next (thermStatus (s.wr (.thm .FB_STATUS_GLITCH) h 0 n.val) h ST_OK) else .next s

/-! ### Pins, cable and diagnosis -/

/-- Every aux output of a hub released to high impedance. -/
def auxRelease (s : State) (h : Half) : State :=
  [AuxPin.pwm0, .pwm1, .pwm2, .pwm3, .fb2b, .smbAlert, .pcycReq].foldl (fun t p => drivePin t h p 0) s

/-- The aux outputs of the half that drives, from what each pin's holder gives it (R90). -/
def auxDriveAll (s : State) (h : Half) : State :=
  let s1 := pwmDrive (pwmDrive s h 0) h 1
  let s2 := if s.rd (.thm .AUX_OWNER_PWM2) h = 1 then pwmDrive s1 h 2
    else drivePin s1 h .pwm2 (if s.rd (.thm .AUX_OWNER_PWM2) h = 0 then 0 else 1)
  let s3 := if s.rd (.thm .AUX_OWNER_PWM3) h = 1 then pwmDrive s2 h 3
    else drivePin s2 h .pwm3 (if s.rd (.thm .AUX_OWNER_PWM3) h = 0 then 0 else 1)
  drivePin s3 h .fb2b (if s.rd (.thm .AUX_OWNER_FB2B) h = 3 then 1 else 0)

/-- The key pattern as each hub reads it (R92). -/
def keyStore (s : State) (pattern : Nat) : State :=
  let put (t : State) (h : Half) : State :=
    (t.wr (.thm .AUX_KEY_PATTERN) h pattern).wr (.thm .AUX_KEY_CABLE_OK) h (bit (pattern == 1))
  put (put s .h0) .h1

/-- AUX_KEY_CHANGE (R92, R72): the pattern recorded, CABLE set, outputs released or driven again, and the loop failed
when the cable is no longer right. -/
def execAuxKeyChange (pattern : Fin 4) (s : State) : Res :=
  let h := s.chipHalf
  if pattern.val = s.rd (.thm .AUX_KEY_PATTERN) h then .next s
  else
    let s1 := raiseTherm (keyStore s pattern.val) (2 ^ 7)
    if pattern.val = 1 then .next (auxDriveAll s1 h)
    else if loopLive s h then .next (thermFail (auxRelease s1 h) h false)
    else .next (auxRelease s1 h)

/-- The code of AUX_DIAG for a diagnosis (Table 2.13). -/
def diagCode : DiagCode → Nat
  | .shortLow => 1 | .shortHigh => 2 | .open => 3

/-- The pulse of a trigger's pin lasts 1 µs or more; that of PPS_OUT is a whole number of microseconds (R81, R93, R481). -/
def pulseLong (s : State) (h : Half) : AuxPin → Bool
  | .pwm2 => decide (250 ≤ s.rd (.thm .TRIG_CFG_WIDTH) h 0)
  | .fb2b => decide (250 ≤ s.rd (.thm .TRIG_CFG_WIDTH) h 1)
  | _ => true

/-- A push-pull output spends at least 1 µs driven high: a static level, a pulse, or a waveform whose high part lasts that long (R93). -/
def highLong (s : State) (h : Half) (pin : AuxPin) : Bool :=
  let n := pinNo pin
  let level := s.rd (.thm .AUX_LEVEL) h n
  let duty := s.rd (.thm .PWM_ACT_DUTY) h n
  (level == 2 && (!pulsePin s h pin || pulseLong s h pin)) ||
    (level == 3 && decide (250 ≤ if s.rd (.thm .PWM_CTL_POL) h n = 0 then duty else s.rd (.thm .PWM_ACT_PERIOD) h n - duty))

/-- An output can show a diagnosis (Table 2.8, R93): a short while the output is driven at the other level, or an open-drain output pulls
low or is released; OPEN only of a push-pull output that is driven high. An output at high impedance and an input show nothing. -/
def canShow (s : State) (h : Half) (pin : AuxPin) (code : DiagCode) : Bool :=
  let level := s.rd (.thm .AUX_LEVEL) h (pinNo pin)
  let live := s.rd (.thm .AUX_DRIVING) h == 1 && s.rd (.thm .AUX_KEY_CABLE_OK) h == 1
  live && match pin, code with
    | .smbAlert, .shortLow | .pcycReq, .shortLow => level == 0
    | .smbAlert, .shortHigh | .pcycReq, .shortHigh => level == 1
    | .smbAlert, .open | .pcycReq, .open => false
    | _, .shortLow => level == 2 || level == 3
    | _, .shortHigh => level == 1 || level == 3
    | p, .open => highLong s h p

/-- AUX_DIAG with the code of one output replaced. -/
def diagPut (s : State) (h : Half) (pin code : Nat) : State :=
  let d := s.rd (.thm .AUX_DIAG) h
  s.wr (.thm .AUX_DIAG) h (clearBits d (3 * 4 ^ pin) + code * 4 ^ pin)

/-- AUX_FAULT_DETECT (R91, R93): a short or open latched. -/
def execAuxFaultDetect (pin : AuxPin) (code : DiagCode) (s : State) : Res :=
  match s.holder with
  | some h =>
    if canShow s h pin code then
      .next (raiseCause ((diagPut s h (pinNo pin) (diagCode code)).wr (.thm .AUX_SHORTED) h (diagCode code % 3) (pinNo pin))
        2 h (2 ^ 6))
    else .next s
  | none => .next s

/-- AUX_SHORT_RETRY (R93): a shorted driver tries again; a fault that persists latches its code again. -/
def execAuxShortRetry (pin : AuxPin) (persists : Bool) (s : State) : Res :=
  match s.holder with
  | some h =>
    let code := s.rd (.thm .AUX_SHORTED) h (pinNo pin)
    if code = 0 then .next s
    else if persists then .next (raiseCause (diagPut s h (pinNo pin) code) 2 h (2 ^ 6))
    else .next (s.wr (.thm .AUX_SHORTED) h 0 (pinNo pin))
  | none => .next s

/-- AUX_DIAG_CLR (R93): bit i clears output i's code. -/
def execAuxDiagClr (h : Half) (mask : Nat) (s : State) : Res :=
  if s.holds h then
    .next ((List.range 7).foldl (fun t i => if mask.testBit i then diagPut t h i 0 else t) s)
  else .next s

/-- A channel restarted by the incoming hub from its mirrored shadows, with the counter at 0 (R90). -/
def pwmRestart (s : State) (h : Half) (n : Nat) : State :=
  if s.rd (.thm .PWM_CTL_EN) h n = 1 ∧
    pwmPeriodOk (s.rd (.thm .PWM_PERIOD) h n) then (pwmTransfer s h n).wr (.thm .PWM_T0) h (s.mt h) n else s

/-- AUX_OUTPUT_DRIVE (R90): the incoming hub drives its aux outputs, once the other hub has released them. -/
def execAuxOutputDrive (h : Half) (s : State) : Res :=
  if s.holds h ∧ s.rd (.thm .AUX_DRIVING) h.other = 0 then
    let s1 := (List.range 4).foldl (fun t n => pwmRestart t h n) (s.wr (.thm .AUX_DRIVING) h 1)
    .next (auxDriveAll s1 h)
  else .next s

end Sys2Proof.Machine
end

