-- ==== Sys2Proof/Machine/CollRows.lean ====
section
/-!
DEFINITION. Machine/CollRows.lean: the commands of the collectives: the group table (R387), running an operation (R388, R391,
R397, R410), the packets received (R404 to R406, R411 to R413, R416), timers (R415), and COLL as a whole.
-/

namespace Sys2Proof.Machine

/-! ### Registers -/

/-- COLL_STATUS.LAST_STATUS set. -/
def collStatus (s : State) (h : Half) (st : Nat) : State := s.wr (.coll .COLL_STATUS_LAST_STATUS) h st

/-- An entry of the group table as a write leaves it: GRP_ID (0), GRP_CFG (1) or GRP_BOX (2). -/
def groupStore (s : State) (h : Half) (g reg v : Nat) : State :=
  if reg = 0 then s.wr (.coll .GRP_ID) h v g
  else if reg = 1 then
    (((s.wr (.coll .GRP_CFG_V) h (bitsAt v 31 1) g).wr (.coll .GRP_CFG_OPR) h (bitsAt v 30 1) g).wr
      (.coll .GRP_CFG_PARTITION) h (bitsAt v 16 6) g).wr (.coll .GRP_CFG_AXES) h (bitsAt v 8 3) g
  else
    (((((s.wr (.coll .GRP_BOX_OX) h (bitsAt v 28 4) g).wr (.coll .GRP_BOX_OY) h (bitsAt v 24 4) g).wr
      (.coll .GRP_BOX_OZ) h (bitsAt v 21 3) g).wr (.coll .GRP_BOX_EX) h (bitsAt v 16 5) g).wr
      (.coll .GRP_BOX_EY) h (bitsAt v 11 5) g).wr (.coll .GRP_BOX_EZ) h (bitsAt v 7 4) g

/-- The conditions under which an entry may be valid (R387). -/
def groupOk (s : State) (h : Half) (g : Nat) : Bool :=
  let e := boxExtent s h g
  let o := boxOrigin s h g
  cfgOk s h &&
    ([0, 1, 2].all fun d => decide (1 ≤ e d ∧ o d + e d ≤ torusSize s h d) &&
      decide (o d ≤ coord (myNode s h) d ∧ coord (myNode s h) d < o d + e d)) &&
    decide (e 0 * e 1 * e 2 ≤ 2048) &&
    (List.range 256).all fun k => k == g || s.rd (.coll .GRP_CFG_V) h k == 0 || s.rd (.coll .GRP_ID) h k != s.rd (.coll .GRP_ID) h g

/-- The status of a write of the group table. -/
def groupStatus (s : State) (h : Half) (g reg v : Nat) : Nat :=
  let clears := reg = 1 ∧ v.testBit 31 = false
  if s.rd (.coll .GRP_CFG_V) h g = 1 ∧ ¬ clears then ST_FAB_BUSY
  else if s.rd (.coll .GRP_CFG_V) h g = 1 ∧ (s.colls.any fun c => c.half == h && c.g == g) = true then ST_FAB_BUSY
  else if reg = 1 ∧ 6 ≤ bitsAt v 8 3 then ST_COLL_CONFIG
  else if reg = 1 ∧ v.testBit 31 = true ∧ groupOk (groupStore s h g reg v) h g = false then ST_COLL_CONFIG
  else ST_OK

/-- A group made valid starts at epoch 0 with no abort recorded (R387). -/
def groupFresh (s : State) (h : Half) (g : Nat) : State :=
  let gid := s.rd (.coll .GRP_ID) h g
  let s1 := ((((s.wr (.coll .GRP_EPOCH_NEXT) h 0 g).wr (.coll .GRP_ABORT_V) h 0 g).wr (.coll .GRP_ABORT_CAUSE) h 0 g).wr
    (.coll .GRP_ABORT_ORIGIN) h 0 g).wr (.coll .GRP_ABORT_EPOCH) h 0 g
  { s1 with aborted := s1.aborted.filter fun a => !(a.1 == h && a.2.1 == gid) }

/-- GRP_CFG_WRITE (R387): GRP_ID (0), GRP_CFG (1) or GRP_BOX (2) of an entry written, or refused. -/
def execGrpCfgWrite (h : Half) (g : Fin 256) (reg : Fin 3) (v : Nat) (s : State) : Res :=
  let st := groupStatus s h g.val reg.val v
  let s1 := collStatus s h st
  if st ≠ ST_OK then .next s1
  else
    let s2 := groupStore s1 h g.val reg.val v
    .next (if s2.rd (.coll .GRP_CFG_V) h g.val = 1 then groupFresh s2 h g.val else s2)

/-- COLL_CFG_WRITE (R415). -/
def execCollCfgWrite (h : Half) (tmo : Nat) (s : State) : Res :=
  let v := tmo % 2 ^ 20
  if v < 50 ∨ 1000000 < v then .next (collStatus s h ST_COLL_CONFIG)
  else .next (collStatus (s.wr (.coll .COLL_CFG_TMO_DEF) h v) h ST_OK)

/-! ### Packets (R406) -/

/-- The operation that a packet is for. -/
def collFor (s : State) (h : Half) (gid epoch : Nat) : Option Coll :=
  s.colls.find? fun c => c.half == h && c.gid == gid && c.epoch == epoch

/-- The kind of a control or Notch packet. -/
def ctlKind (p : Packet) : Nat := fieldAt p.transport 8 1

/-- What a packet without a running operation comes to: dropped and counted, held, or discarded (R406, R413). -/
def unclaimed (s : State) (h : Half) (p : Packet) : State :=
  let gid := fieldAt p.transport 0 4
  let e := fieldAt p.transport 4 4
  match groupEntry s h gid with
  | none => s.inc (.coll .CTL_DROP) h 1
  | some g =>
    let next := s.rd (.coll .GRP_EPOCH_NEXT) h g
    let holds := (p.ptype == 2 && ctlKind p != 1) || p.ptype == 3
    if epochAhead ((next + 2 ^ 32 - 1) % 2 ^ 32) e = false then s.inc (.coll .CTL_DROP) h 1
    else if epochAhead next e = false ∨ holds = false ∨ s.aborted.contains (h, gid, e) = true then s
    else if 256 ≤ (s.collPend.filter fun q => q.1 == h && q.2.ptype == p.ptype).length then s.inc (.coll .CTL_DROP) h 1
    else if p.ptype = 3 ∧ notchKept s h % 16 = 0 then
      match takeGranules s h notchClass 1 none with
      | some t => { t with collPend := t.collPend ++ [(h, p)] }
      | none => s.inc (.coll .CTL_DROP) h 1
    else { s with collPend := s.collPend ++ [(h, p)] }

/-- A control or Notch packet given to its running operation. -/
def collPacket (s : State) (c : Coll) (d : Chain) (p : Packet) : State :=
  if c.ring then
    (if p.ptype ≠ 2 then s
    else if ctlKind p = 0 then ((ringWork s c d).ringCts d p).closeNotch
    else if ctlKind p = 1 then ((ringWork s c d).ringDone d p).closeNotch
    else s)
  else if p.ptype = 3 then
    (if c.notch = false then s
    else if ctlKind p = 0 then ((collWork s c d).takeValue p).closeNotch
    else ((collWork s c d).takeBcast p).closeNotch)
  else if c.notch then s
  else
    let w := collWork s c d
    let w1 := if ctlKind p = 0 then w.takeCts p else if ctlKind p = 1 then w.takeDone p else w.takeCounts p
    (w1.bind (CollW.pump (2 + c.segs.length + w.segs))).close

/-- A packet received for a running operation restarts its timer (R415). -/
def Coll.heard (s : State) (c : Coll) : Coll := { c with progMt := s.mt c.half }

/-- A packet received for a collective. -/
def collReceive (s : State) (h : Half) (p : Packet) : State :=
  match collFor s h (fieldAt p.transport 0 4) (fieldAt p.transport 4 4) with
  | some c => match c.chain s with
    | some d => collPacket (putColl s (c.heard s)) (c.heard s) d p
    | none => s
  | none => unclaimed s h p

/-- A packet of a type and kind that is no kind of Tables 12.3 and 12.5: dropped, and a Notch packet counted (R413, Table 12.9). -/
def unknownKind (p : Packet) : Bool := (p.ptype == 2 || p.ptype == 3) && decide (2 < ctlKind p)

/-- The first packet delivered to a half that meets a condition, and the state without it. -/
def takeLocal (s : State) (h : Half) (f : Packet → Bool) : Option (Packet × State) :=
  let odd := (s.localPkts.filter fun q => q.1 == h && unknownKind q.2 && q.2.ptype == 3).length
  let s0 : State := { s with localPkts := s.localPkts.filter fun q => !(q.1 == h && unknownKind q.2) }
  let s1 := if odd = 0 then s0 else s0.inc (.coll .CTL_DROP) h odd
  (s1.localPkts.find? fun q => q.1 == h && f q.2).map fun q =>
    (q.2, { s1 with localPkts := s1.localPkts.eraseP fun q => q.1 == h && f q.2 })

/-- A command that receives a packet: nothing when none is there. -/
def onPacket (s : State) (h : Half) (f : Packet → Bool) (g : State → Packet → State) : Res :=
  match takeLocal s h f with
  | some q => .next (g q.2 q.1)
  | none => .next s

/-- CTS_RECEIVE (R404, R405). -/
def execCtsReceive (h : Half) (s : State) : Res :=
  onPacket s h (fun p => p.ptype == 2 && ctlKind p == 0) fun t p => collReceive t h p

/-- DONE_RECEIVE (R404). -/
def execDoneReceive (h : Half) (s : State) : Res :=
  onPacket s h (fun p => p.ptype == 2 && ctlKind p == 1) fun t p => collReceive t h p

/-- COUNTS_RECEIVE (R395). -/
def execCountsReceive (h : Half) (s : State) : Res :=
  onPacket s h (fun p => p.ptype == 2 && ctlKind p == 2) fun t p => collReceive t h p

/-- NOTCH_VALUE_RECEIVE (R411). -/
def execNotchValueReceive (h : Half) (s : State) : Res :=
  onPacket s h (fun p => p.ptype == 3 && ctlKind p == 0) fun t p => collReceive t h p

/-- NOTCH_BCAST_RECEIVE (R412). -/
def execNotchBcastReceive (h : Half) (s : State) : Res :=
  onPacket s h (fun p => p.ptype == 3 && ctlKind p == 1) fun t p => collReceive t h p

/-- NOTCH_ABORT_RECEIVE (R416, R417). -/
def execNotchAbortReceive (h : Half) (s : State) : Res :=
  onPacket s h (fun p => p.ptype == 3 && ctlKind p == 2) fun t p => receiveAbort t h p

/-- COLL_DATA_RECEIVE (R404, R305): a DATA packet. Of an ATTN_RING it carries a piece of page `page` of head `head`, of which
`fill` positions are held: R276 has each page carry its key indices, and Table 12.3 has no field for them (log entry 32). -/
def execCollDataReceive (h : Half) (page head fill : Nat) (s : State) : Res :=
  onPacket s h (fun p => p.ptype == 1) fun t p =>
    match collFor t h (fieldAt p.transport 0 4) (fieldAt p.transport 4 4) with
    | none => unclaimed t h p
    | some c0 =>
      let c := c0.heard t
      match c.chain t with
      | none => t
      | some d =>
        if c.ring then (match d.request t with
          | some r => ((ringWork t c d).ringPacket d r p page head fill).closeNotch
          | none => t)
        else if c.notch then putColl t c else collData t c d p

/-! ### Running an operation (R388, R391, R397, R410) -/

/-- GROUP_ID and EPOCH of a collective chain. -/
def collGid (c : Chain) : Nat := if isRing c then rgGid (ringExt c) else clGid c.head
def collEpoch (c : Chain) : Nat := if isRing c then rgEpoch (ringExt c) else clEpoch c.head

/-- A chain of a collective that the engine has not taken. -/
def collWaits (s : State) (c : Chain) : Bool :=
  (isRing c || hdOpcode c.head == opCOLL) && c.stage == .admitted && !c.done && (collOf s c.readNo).isNone

/-- The chain uses the Notch path. -/
def collNotch (c : Chain) : Bool := !(isRing c) && clNotch c.head

/-- The order in which chains are taken (R397, R410). -/
def collKey (c : Chain) : List Nat := if collNotch c then [c.queueNo] else [hdClass c.head, c.queueNo]

/-- A chain stands before another of its kind: both wait, and no operation of its group keeps it waiting. -/
def collBefore (s : State) (c : Chain) : Bool :=
  s.chains.any fun d => d.half == c.half && d.readNo != c.readNo && collWaits s d && collNotch d == collNotch c &&
    lexLt (collKey d) (collKey c) && !(s.colls.any fun k => k.half == d.half && k.gid == collGid d)

/-- Operations of the chain's kind that run on its half, and the most that may. -/
def collFull (s : State) (c : Chain) : Bool :=
  let n := (s.colls.filter fun k => k.half == c.half && k.notch == collNotch c).length
  if collNotch c then decide (256 ≤ n) else decide (8 ≤ n)

/-- A chain that the engine refuses: it sends nothing and does not run; DETAIL = EPOCH. -/
def refuseColl (s : State) (c : Chain) (status : Nat) : State :=
  let s1 := if isRing c then failChain s c status else mapChains s fun d => if d.readNo = c.readNo then d.finish status else d
  mapChains s1 fun d => if d.readNo = c.readNo then { d with detail := collEpoch c } else d

/-- The operation of a chain as it starts. -/
def newColl (s : State) (c : Chain) (g : Nat) (granules : Nat) : Coll :=
  let x := grpOf s c.half g
  let var := !(isRing c) && clVar c.head
  { half := c.half, chainNo := c.readNo, g := g, gid := collGid c, epoch := collEpoch c, notch := collNotch c, ring := isRing c,
    progMt := s.mt c.half, startMt := s.mt c.half, granules := granules,
    counts := if var then (List.replicate x.size none).set x.rank (some (clCount c.head)) else [],
    cntAxes := 0, cntDone := false, segs := [], nextSeg := 0, cts := [], sent := [], nvals := [], naxis := 0, owed := [] }

/-- Packets that were held for an operation are delivered (R406). -/
def deliverHeld (s : State) (h : Half) (gid epoch : Nat) : State :=
  let mine (q : Half × Packet) : Bool := q.1 == h && fieldAt q.2.transport 0 4 == gid && fieldAt q.2.transport 4 4 == epoch
  (s.collPend.filter mine).foldl (fun t q => collReceive t h q.2) (keepPending s h fun q => !(mine q))

/-- A chain taken: it runs. The root of a Notch broadcast has done its part with that. -/
def startColl (s : State) (c : Chain) (g granules : Nat) : State :=
  let k := newColl s c g granules
  let s1 := (refreshColls { s with colls := s.colls ++ [k] } c.half).wr (.coll .GRP_EPOCH_NEXT) c.half (k.epoch + 1) g
  let s2 := mapChains s1 fun d => if d.readNo = c.readNo then { d with detail := k.epoch } else d
  let s3 := if k.ring then wakeCtxs s2 fun x => x.chainNo == some c.readNo
    else if k.notch then (collWork s2 k c).notchStart.closeNotch
    else collGoOn s2 k c
  let s4 := deliverHeld s3 c.half k.gid k.epoch
  match collOf s4 c.readNo with
  | some o => if o.notch then (collWork s4 o c).rootEnd.closeNotch else s4
  | none => s4

/-- The engine takes a chain, if it may: checked, refused, or run (R388, R391, R397, R410, R417). -/
def takeColl (s : State) (c : Chain) : State :=
  match groupEntry s c.half (collGid c) with
  | none => refuseColl s c ST_COLL_GROUP
  | some g =>
    let e := collEpoch c
    if groupOwned s c.half (ringFn c.ring) g = false ∨
        (isRing c = true ∧ rgSteps (ringExt c) ≠ boxExtent s c.half g (rgAxis (ringExt c))) then refuseColl s c ST_COLL_GROUP
    else if (s.colls.any fun k => k.half == c.half && k.gid == collGid c) = true then s
    else if epochAhead (s.rd (.coll .GRP_EPOCH_NEXT) c.half g) e = false then refuseColl s c ST_COLL_EPOCH
    else if s.rd (.coll .GRP_ABORT_V) c.half g = 1 ∧ s.rd (.coll .GRP_ABORT_EPOCH) c.half g = e then
      refuseColl (s.wr (.coll .GRP_EPOCH_NEXT) c.half (e + 1) g) c ST_COLL_TIMEOUT
    else if collFull s c = true ∨ collBefore s c = true then s
    else if collNotch c then startColl s c g 0
    else match takeSegment s c.half with
      | some t => startColl t c g 16
      | none => waitGranules s c.half reductionClass 16 none

/-- The chain of a ring and SEQ that waits for the engine. -/
def waitingColl (s : State) (h : Half) (ring seq : Nat) : Option Chain :=
  s.chains.find? fun c => c.half == h && c.ring == ring && c.seq == seq && collWaits s c

/-- COLL_RUN (R391, R397). -/
def execCollRun (h : Half) (ring seq : Nat) (s : State) : Res :=
  match waitingColl s h ring seq with
  | some c => .next (takeColl s c)
  | none => .next s

/-- The operation of the chain of a ring and SEQ. -/
def runningColl (s : State) (h : Half) (ring seq : Nat) : Option (Coll × Chain) :=
  (s.chains.find? fun c => c.half == h && c.ring == ring && c.seq == seq).bind fun d => (collOf s d.readNo).map fun c => (c, d)

/-- COLL_CTS_SEND (R404, R399): CTS of the next unit of a segment sent upstream, or sent again for a unit that was lost. -/
def execCollCtsSend (h : Half) (ring seq seg : Nat) (s : State) : Res :=
  match runningColl s h ring seq with
  | none => .next s
  | some q =>
    if q.1.ring then .next (ringWork s q.1 q.2).ringAsk.closeNotch
    else match q.1.segs.find? fun g => g.k == seg with
      | some g => .next ((collWork s q.1 q.2).sendCts g).close
      | none => .next s

/-- The timeout of an operation in µs: TMO_US, or COLL_CFG.TMO_DEF where it is 0 (R415). -/
def collTmo (s : State) (c : Coll) (d : Chain) : Nat :=
  let t := if c.ring then rgTmo (ringExt d) else clTmo d.head
  if t = 0 then s.rd (.coll .COLL_CFG_TMO_DEF) c.half else t

/-- COLL_TIMER_EXPIRE (R415, R416): an abort with cause TIMEOUT once the timeout has passed since the last progress. -/
def execCollTimerExpire (h : Half) (ring seq : Nat) (s : State) : Res :=
  match runningColl s h ring seq with
  | some q =>
    if q.1.progMt + collTmo s q.1 q.2 * 1000 ≤ s.mt h then .next (originateAbort s q.1 0 ST_COLL_TIMEOUT) else .next s
  | none => .next s

/-- COLL (R392 to R418): the engine takes the admitted chain, or a running one goes on as far as what it has received
allows. -/
def execColl (h : Half) (ring seq : Nat) (s : State) : Res :=
  runChain s h ring seq opCOLL fun c => match collOf s c.readNo with
    | none => takeColl s c
    | some k => if k.notch then s else collGoOn s k c

end Sys2Proof.Machine
end

