-- ==== Sys2Proof/Machine/Kv.lean ====
section
/-!
DEFINITION. Machine/Kv.lean: KV_PAGE's page subops (R297 to R303, R310), Valley spills and prefetches (R306 to R312), eviction's
hand-over (R315), and the registers of the slot space and the Valley tier (R287, R289, R328).
-/

namespace Sys2Proof.Machine

/-- A KV_PAGE of a subop, admitted and running, with its request; a paused request ends it with ST_KV_PAUSED (R324). -/
def kvRun (s : State) (h : Half) (ring seq sub : Nat) (f : Chain → Request → State) : Res :=
  runChain s h ring seq opKV_PAGE fun c =>
    if kvSub c.head ≠ sub then s
    else match c.requestNum.bind s.request with
      | none => s
      | some r => if r.paused = true ∧ sub ≠ 8 then endChain s c ST_KV_PAUSED else f c r

/-- A chain of the machine changed. -/
def onChain (s : State) (c : Chain) (f : Chain → Chain) : State :=
  mapChains s fun d => if d.readNo = c.readNo then f d else d

/-- Contexts of requests that wait for a slot of the half may look again. -/
def wakeSlots (s : State) (h : Half) : State :=
  wakeCtxs s fun x => s.slotWait.any fun p => p.1 == h && ofRequestCtx s p.2 x

/-! ### ALLOC (R298, R299, R303) -/

/-- A page that an ALLOC may use: the page of POS0 continues or is ABSENT, every other page is ABSENT (R298). -/
def allocPageOk (s : State) (r : Request) (b : List Byte) (q : Nat × Nat × Nat) : Bool :=
  let e := entryOf s r q.1 q.2.1 q.2.2
  (e.state == enABSENT && (q.2.2 != kpPos0 b / 64 || kpPos0 b % 64 == 0)) ||
    (q.2.2 == kpPos0 b / 64 && e.state != enABSENT && e.own && !e.shared && e.fill == kpPos0 b % 64)

/-- Elements of a staging row: codes of SRC_FMT as FP32. -/
def stagingF32 (fmt n : Nat) (b : List Byte) : List Nat := (codesOf fmt n b).map fun v => toF32 (decodeElem fmt v)

/-- One position of a head written from its staging row (R299): key at its row, value at its column. -/
def allocRow (x : Context) (r : Request) (b : List Byte) (slot g p : Nat) (u : Run) : Run :=
  let m := r.header
  let d := mapDim m
  let e := kvElem (mapFmt m)
  let aux := kpAux b
  let fmt := bitsAt aux 32 4
  let z := kvElem fmt
  let heads := kpHeads m b
  let row := kpAddr b + (p - kpPos0 b) * bitsAt aux 0 32
  let pre := 16 * bitsAt aux 38 1
  let k := g - heads.headD 0
  let rk := u.read x (row + pre + k * d * z) (d * z)
  let rv := rk.1.read x (row + pre + (heads.length + k) * d * z) (d * z)
  let rp := if aux.testBit 38 then rv.1.read x row 4 else (rv.1, leBytes 4 p)
  let key := stagingF32 fmt d rk.2
  let key1 := if aux.testBit 36 then rotateRow (mapRopeBase m) (fieldAt rp.2 0 4) key else key
  let ck := convRow (mapFmt m) key1
  let cv := convRow (mapFmt m) (stagingF32 fmt d rv.2)
  rp.1.map fun s =>
    let a := slotAddr s r.half slot
    let die := some (x.half, x.core / 64)
    let s1 := (List.range d).foldl (fun t i =>
      t.store (a + 64 * d * e + i * 64 * e + p % 64 * e) ((cv.data.drop (i * e)).take e) die) (s.store (a + p % 64 * d * e) ck.data die)
    countNum s1 x (ck.sat + cv.sat) (ck.nan + cv.nan)

/-- The slot that an append may write: its tags let the request reach it (R288). -/
def appendReach (r : Request) (slot : Nat) (u : Run) : Run :=
  if u.fail.isSome = true ∨ pageReach u.s r slot = true then u
  else ⟨refusePage u.s r true slot, some ⟨true, ST_HBM_FENCE, slotAddr u.s r.half slot, pageBytes r.header⟩⟩

/-- Positions of a page written one after another: how many were, and the run. -/
def allocRows (x : Context) (r : Request) (b : List Byte) (slot g : Nat) : List Nat → Run → Nat × Run
  | [], u => (0, u)
  | p :: rest, u =>
    let v := if u.fail.isSome then u else allocRow x r b slot g p u
    if v.fail.isSome then (0, v)
    else
      let w := allocRows x r b slot g rest v
      (w.1 + 1, w.2)

/-- How an ALLOC has come out so far. -/
structure AllocOut where
  s : State
  /-- pages done, from the front of its cover, and the positions written into the next one -/
  done : Nat
  part : Nat
  /-- indices of pages that it has allocated -/
  made : List Nat
  /-- it waits for a slot -/
  waits : Bool
  status : Nat
  fail : Option Failed
deriving DecidableEq, Repr

/-- A page that egress holds copied into a new slot before it is written; its entry names the new slot (R430). -/
def copyHeld (s : State) (r : Request) (q : Nat × Nat × Nat) (slot : Nat) : State :=
  let e := entryOf s r q.1 q.2.1 q.2.2
  let s1 := writePage s r.half slot (readPage s r e.slot)
  freeSlot (setEntry s1 r q.1 q.2.1 q.2.2 { e with slot := slot }) r.half e.slot (mapLog2 r.header)

/-- The slot of a page: the one it has, if it is resident, or one allocated for it (R298), or for its copy where egress holds it (R430);
none where the ALLOC cannot go on. -/
def allocSlotFor (o : AllocOut) (r : Request) (b : List Byte) (n : Nat) (q : Nat × Nat × Nat) : AllocOut × Option (Option Nat) :=
  let e := entryOf o.s r q.1 q.2.1 q.2.2
  if e.state = enABSENT then
    match allocSlot o.s r with
    | .got slot t =>
      let fill := min 64 (kpPos0 b + kpCount b - 64 * q.2.2)
      let e1 : Entry := { Entry.absent with slot := slot, state := enHBM, flags := 1, fill := fill }
      ({ o with s := setEntry t r q.1 q.2.1 q.2.2 e1, made := o.made ++ [n] }, some (some slot))
    | .wait t => ({ o with s := t, waits := true }, none)
    | .none t => ({ o with s := t, status := ST_KV_NOSLOT }, none)
  else if (e.state = enHBM ∨ e.state = enSPILLING) ∧ slotHeld o.s r.half e.slot = true then
    match allocSlot o.s r with
    | .got slot t => ({ o with s := copyHeld t r q slot }, some (some slot))
    | .wait t => ({ o with s := t, waits := true }, none)
    | .none t => ({ o with s := t, status := ST_KV_NOSLOT }, none)
  else (o, some (if e.state = enHBM ∨ e.state = enSPILLING then some e.slot else none))

/-- The pages of an ALLOC from index `n` on. -/
def allocPages (x : Option Context) (r : Request) (b : List Byte) : Nat → List (Nat × Nat × Nat) → AllocOut → AllocOut
  | _, [], o => o
  | n, q :: rest, o =>
    let t := allocSlotFor o r b n q
    match t.2 with
    | none => t.1
    | some slot =>
      let o1 := t.1
      let u : Nat × Run := match x, slot with
        | some y, some i => allocRows y r b i q.2.1 (pagePositions b q.2.2) (appendReach r i ⟨touchLayer o1.s r q.1, none⟩)
        | _, _ => (0, ⟨touchLayer o1.s r q.1, none⟩)
      let s1 := setRequest u.2.s r.num fun d =>
        { d with touched := if d.touched.contains q.1 then d.touched else d.touched ++ [q.1] }
      match u.2.fail with
      | some f => { o1 with s := s1, part := u.1, status := f.status, fail := some f }
      | none =>
        let e := entryOf s1 r q.1 q.2.1 q.2.2
        let fill := min 64 (kpPos0 b + kpCount b - 64 * q.2.2)
        allocPages x r b (n + 1) rest
          { o1 with s := setEntry s1 r q.1 q.2.1 q.2.2 { e with fill := fill }, done := n + 1, part := 0 }

/-- A chain with contexts ends its work: they leave, and the chain with the last of them. -/
def endContexts (s : State) (c : Chain) : State := settleChain ((ctxsOf s c.readNo).foldl endContext s) c.readNo

/-- ALLOC goes on from the page it has reached. -/
def allocGo (s : State) (c : Chain) (r : Request) (x : Option Context) : State :=
  let cover := allocCover r.header c.head
  let o := allocPages x r c.head c.work (cover.drop c.work) ⟨s, c.work, 0, c.run, false, ST_OK, none⟩
  if o.waits then onChain o.s c fun d => { d with work := o.done, run := o.made, checked := true }
  else
    let q := allocClose o.s r c.head (o.status == ST_OK) (if o.status = ST_OK then cover.length else o.done) o.part o.made
    let s1 := onChain q.1 c fun d => { d with detail := q.2, checked := false, run := [] }
    match o.fail, x with
    | some f, some y => ctxAccessFail s1 ((ctxAt s1 y.half y.core y.slot).getD y) f.write f.status f.addr f.len
    | _, some _ => endContexts (onChain s1 c fun d => d.fail o.status) c
    | _, none => onChain s1 c fun d => d.finish o.status

/-- KV_ALLOC (R298, R299, R303): pages are allocated in order, and with ADDR ≠ 0 the positions are written by the chain's
first context that has been dispatched; an allocation that waits leaves the chain where it is. -/
def execKvAlloc (h : Half) (ring seq : Nat) (s : State) : Res :=
  kvRun s h ring seq 0 fun c r =>
    if c.checked = false ∧ ((allocCover r.header c.head).all fun q => allocPageOk s r c.head q) = false then
      endContexts (onChain s c fun d => d.fail ST_KV_STATE) c
    else if kpAddr c.head = 0 then allocGo s c r none
    else match (ctxsOf s c.readNo).find? fun x => x.read with
      | some x => allocGo s c r (some x)
      | none => s

/-! ### FREE, PIN and UNPIN (R300) -/

/-- KV_FREE (R300): each covered owned page is freed; a SHARED entry becomes ABSENT. -/
def execKvFree (h : Half) (ring seq : Nat) (s : State) : Res :=
  kvRun s h ring seq 1 fun c r =>
    let own := (kpCover r.header c.head).filter fun q => (entryOf s r q.1 q.2.1 q.2.2).own
    endDetail (wakeSlots (own.foldl (fun t q => freePage t r q.1 q.2.1 q.2.2) s) h) c ST_OK own.length

/-- PIN set or cleared on the covered owned pages: the state, and the entries changed. -/
def setPins (s : State) (r : Request) (b : List Byte) (pin : Bool) : State × Nat :=
  (kpCover r.header b).foldl (fun a q =>
    let e := entryOf a.1 r q.1 q.2.1 q.2.2
    if e.own = true ∧ e.pin ≠ pin then
      (setEntry a.1 r q.1 q.2.1 q.2.2 { e with flags := e.flags ^^^ 2 }, a.2 + 1)
    else a) (s, 0)

/-- Prefetches started for the covered VALLEY pages from index `n` on, until a slot must be waited for: the state, the index
reached, and the failures. `wait` adds the chain to the waiters. -/
def startFetches (c : Chain) (r : Request) (wait : Bool) : Nat → List (Nat × Nat × Nat) → State × List (Nat × Nat) →
    State × Nat × Bool × List (Nat × Nat)
  | n, [], a => (a.1, n, false, a.2)
  | n, q :: rest, a =>
    let s := a.1
    let e := entryOf s r q.1 q.2.1 q.2.2
    let ws := if wait then [c.readNo] else []
    if e.state = enFETCHING ∧ wait = true then
      startFetches c r wait (n + 1) rest (joinTransfer s r q.1 q.2.1 q.2.2 c.readNo, a.2)
    else if e.state ≠ enVALLEY then startFetches c r wait (n + 1) rest a
    else if s.hostOk r.half r.fn = false then startFetches c r wait (n + 1) rest (s, a.2 ++ [(n, ST_HOST_LINK_DOWN)])
    else if (keyOf s r.half r.fn .valley).isNone then startFetches c r wait (n + 1) rest (s, a.2 ++ [(n, ST_KEY_MISSING)])
    else match allocSlot s r with
      | .got slot t => startFetches c r wait (n + 1) rest (startFetch t r q.1 q.2.1 q.2.2 slot 1 ws, a.2)
      | .wait t => (t, n, true, a.2)
      | .none t => startFetches c r wait (n + 1) rest (t, a.2 ++ [(n, ST_KV_NOSLOT)])

/-- The status of the lowest failure. -/
def lowestFail (l : List (Nat × Nat)) : Nat := ((firstBy (fun p : Nat × Nat => [p.1]) l).map (·.2)).getD ST_OK

/-- KV_PIN (R300): PIN is set on the covered owned pages and those in VALLEY are prefetched; the chain ends once its prefetches
have been started (log entry 33). -/
def execKvPin (h : Half) (ring seq : Nat) (s : State) : Res :=
  kvRun s h ring seq 2 fun c r =>
    let p := if c.checked then (s, c.progress) else setPins s r c.head true
    let own := (kpCover r.header c.head).map fun q => q
    let q := startFetches c r false c.work (own.drop c.work) (p.1, c.fails)
    let s1 := onChain q.1 c fun d => { d with checked := true, progress := p.2, work := q.2.1, fails := q.2.2.2 }
    if q.2.2.1 then s1 else onChain s1 c fun d => { d.finish (lowestFail q.2.2.2) with detail := p.2 }

/-- KV_UNPIN (R300). -/
def execKvUnpin (h : Half) (ring seq : Nat) (s : State) : Res :=
  kvRun s h ring seq 3 fun c r =>
    let p := setPins s r c.head false
    endDetail p.1 c ST_OK p.2

/-! ### SPILL and PREFETCH (R310) -/

/-- A transfer waits on behalf of a chain. -/
def chainWaits (s : State) (c : Chain) : Bool := s.transfers.any fun t => t.waiters.contains c.readNo

/-- Spills started for the covered eligible pages: the state, how many, and the status that stops them; a page in slots that the request
does not reach is refused by the fence (R288). -/
def startSpills (c : Chain) (r : Request) : List (Nat × Nat × Nat) → State × Nat → State × Nat × Nat
  | [], a => (a.1, a.2, ST_OK)
  | q :: rest, a =>
    if spillable a.1 r q.1 q.2.1 q.2.2 = false then startSpills c r rest a
    else if a.1.rd (.kv .VALLEY_CFG_EN) r.half r.fn = 0 then (a.1, a.2, ST_VALLEY_FULL)
    else if a.1.hostOk r.half r.fn = false then (a.1, a.2, ST_HOST_LINK_DOWN)
    else if (keyOf a.1 r.half r.fn .valley).isNone then (a.1, a.2, ST_KEY_MISSING)
    else if pageReach a.1 r (entryOf a.1 r q.1 q.2.1 q.2.2).slot = false then
      (refusePage a.1 r false (entryOf a.1 r q.1 q.2.1 q.2.2).slot, a.2, ST_HBM_FENCE)
    else match startSpill a.1 r q.1 q.2.1 q.2.2 [c.readNo] with
      | some t => startSpills c r rest (t, a.2 + 1)
      | none => (a.1, a.2, ST_VALLEY_FULL)

/-- KV_SPILL (R310): the spills are started once; the chain ends when their writes have been issued. A cancelled chain starts none (R352).
-/
def execKvSpill (h : Half) (ring seq : Nat) (s : State) : Res :=
  kvRun s h ring seq 4 fun c r =>
    if servedNext s c = false then s else
    let s1 := if c.checked = true ∨ c.cancelled = true then s
      else
        let q := startSpills c r (kpCover r.header c.head) (s, 0)
        onChain q.1 c fun d => { d.fail q.2.2 with checked := true, detail := q.2.1 }
    if chainWaits s1 c then s1 else onChain s1 c fun d => d.finish d.status

/-- KV_PREFETCH (R310): the prefetches are started; the chain ends when each has reached HBM or failed. -/
def execKvPrefetch (h : Half) (ring seq : Nat) (s : State) : Res :=
  kvRun s h ring seq 5 fun c r =>
    if servedNext s c = false then s else
    let q := startFetches c r true c.work ((kpCover r.header c.head).drop c.work) (s, c.fails)
    let s1 := onChain q.1 c fun d => { d with checked := true, work := q.2.1, fails := q.2.2.2 }
    if q.2.2.1 = true ∨ chainWaits s1 c = true then s1
    else onChain s1 c fun d => { d.finish (lowestFail d.fails) with detail := d.progress }

/-! ### Transfers (R306 to R309, R311, R315) -/

/-- Additional data of a Valley page: request, layer, head, page, FILL and VIDX (R306). -/
def valleyAd (r : Request) (l g j fill vidx : Nat) : List Nat := Config.adBytes [r.num, l, g, j, fill, vidx]

/-- Address of a Valley page, and of its tag. -/
def valleyAt (s : State) (h : Half) (p v : Nat) : Nat := hostBit + s.rd (.kv .VALLEY_BASE) h p + v * 0x4000
def valleyTagAt (s : State) (h : Half) (p v : Nat) : Nat := hostBit + s.rd (.kv .VALLEY_TAG) h p + v * 32

/-- The transfer of a page. -/
def transferOf (s : State) (h : Half) (num l g j : Nat) (spill : Bool) : Option Transfer :=
  s.transfers.find? fun t => t.half == h && t.request == num && t.layer == l && t.head == g && t.page == j && t.spill == spill

/-- VALLEY_GEN taken and raised (R306). -/
def takeGen (s : State) (h : Half) (p : Nat) : Nat × State :=
  let g := s.rd (.kv .VALLEY_GEN) h p
  (g, s.wr (.kv .VALLEY_GEN) h (g + 1) p)

/-- A spill whose writes cannot be made: the page is resident again. -/
def undoSpill (s : State) (r : Request) (t : Transfer) (status : Nat) : State :=
  let e := entryOf s r t.layer t.head t.page
  let s1 := freeValleyPage (setEntry s r t.layer t.head t.page { e with state := enHBM, vidx := 0 }) r.half r.fn t.vidx
  mapChains (dropTransfer s1 t) fun d => if t.waiters.contains d.readNo = true ∧ d.cancelled = false then d.fail status else d

/-- A spill's writes are not issued: those of a chain that is cancelled, and of a request on whose behalf the host is written no more (R171,
R352). -/
def spillMuted (s : State) (r : Request) (t : Transfer) : Bool :=
  r.silent || s.chains.any fun d => t.waiters.contains d.readNo && d.cancelled

/-- A spill's page and tag written to the Valley region; the entry becomes VALLEY and its slot is freed (R306, R308). A page in slots that
the request does not reach is not read (R288). -/
def issueSpill (s : State) (r : Request) (t : Transfer) : State :=
  let e := entryOf s r t.layer t.head t.page
  if spillMuted s r t then wakeSlots (undoSpill s r t ST_CANCELLED) r.half
  else match keyOf s r.half r.fn .valley with
  | none => undoSpill s r t ST_KEY_MISSING
  | some key =>
    if pageReach s r t.slot = false then undoSpill (refusePage s r false t.slot) r t ST_HBM_FENCE
    else
    let g := takeGen s r.half r.fn
    let c := gcmSeal (keyBytes key) (valleyNonce r.half r.fn 1 g.1) (valleyAd r t.layer t.head t.page e.fill t.vidx)
      (toNats (readPage s r t.slot))
    let w := engine r.half r.fn
    let a := writeAt g.2 w (valleyAt s r.half r.fn t.vidx) (toBytes c.1)
    let b := if a.1 = ST_OK then writeAt a.2 w (valleyTagAt s r.half r.fn t.vidx) (toBytes c.2 ++ leBytes 8 g.1) else a
    if b.1 ≠ ST_OK then undoSpill b.2 r t b.1
    else
      let s1 := setEntry b.2 r t.layer t.head t.page { e with state := enVALLEY, slot := g.1 % 2 ^ 32 }
      let s2 := bump ((freeSlot s1 r.half t.slot (mapLog2 r.header)).inc (.kv .KV_SPILLS) r.half 1) r.half 1 6 1
      wakeSlots (dropTransfer s2 t) r.half

/-- VALLEY_SPILL_START (R307): the partition holds more than HIGH, so candidates are spilled until it will hold at most LOW. -/
def spillDown (h : Half) (p low : Nat) : Nat → State → State
  | 0, s => s
  | n + 1, s =>
    let going := ((s.transfers.filter fun t => t.half == h && t.spill && t.fn == p).map fun t => 2 ^ t.log2).sum
    if s.rd (.kv .KV_PSTAT_HELD) h p - going ≤ low then s
    else match autoSpill s h p with
      | some t => spillDown h p low n t
      | none => s

def execValleySpillStart (h : Half) (p : Nat) (s : State) : Res :=
  if 64 ≤ p ∨ s.rd (.kv .KV_PSTAT_HELD) h p ≤ s.rd (.kv .KV_QUOTA_HIGH) h p then .next s
  else .next (spillDown h p (s.rd (.kv .KV_QUOTA_LOW) h p) (2 ^ 21) s)

/-- VALLEY_SPILL_ISSUED (R308): the writes of a page's spill are issued, once it has its granule; with the host link down they cannot be,
and the page is resident again (R170). -/
def execValleySpillIssued (h : Half) (num layer head page : Nat) (s : State) : Res :=
  match transferOf s h num layer head page true with
  | none => .next s
  | some t =>
    if t.discard then .next (wakeSlots (endDiscarded s t) h)
    else match s.request num with
      | none => .next s
      | some r =>
        if s.hostOk h r.fn = false then .next (undoSpill s r t ST_HOST_LINK_DOWN)
        else .next (goTransfer s t fun u x => issueSpill u r x)

/-- A page that a SHIP waits for cannot be had: no page from it on is queued, and the SHIP ends with the status once the pages before it are
(R429). -/
def shipFail (s : State) (c : Chain) (t : Transfer) (status : Nat) : State :=
  let page := (streamAt s c.half c.work).bind fun x =>
    (x.pages.find? fun p => p.ship == c.readNo && p.waiting && (p.layer, p.head, p.page) == (t.layer, t.head, t.page)).map fun p => (x, p)
  match page with
  | none => s
  | some (x, p) =>
    let q := cutPages s c x p.no
    let more := x.pages.any fun y => y.ship == c.readNo && y.waiting && decide (y.no < p.no)
    setChain q.1 c fun d =>
      let e := { d.fail status with progress := d.progress - q.2 }
      if more then e else e.finish e.status

/-- The chains that wait on a page fail: a KV_PAGE prefetch notes it, a SHIP ends at the page, any other chain takes the status and its
contexts end, those of attention
with ATTN_ERR (R284, R310, R311). -/
def failWaiters (s : State) (t : Transfer) (status : Nat) : State :=
  t.waiters.foldl (fun u n =>
    match u.chains.find? fun d => d.readNo == n with
    | none => u
    | some c =>
      if hdOpcode c.head = opKV_PAGE then
        let cover := match c.requestNum.bind u.request with
          | some r => kpCover r.header c.head
          | none => []
        let i := (cover.findIdx? fun q => q == (t.layer, t.head, t.page)).getD 0
        onChain u c fun d => if kvSub d.head = 5 then { d with fails := d.fails ++ [(i, status)] } else d.finish status
      else if hdOpcode c.head = opSHIP then shipFail u c t status
      else
        let u1 := ((ctxsOf u n).filter (·.waiting)).foldl (fun v x => noteAttn v x status) u
        endContexts (onChain u1 c fun d => { d.fail status with stop := true }) c) s

/-- A prefetch that fails: the page stays in the Valley tier, or is BAD, and its slot is freed (R311). -/
def failFetch (s : State) (r : Request) (t : Transfer) (status st slot : Nat) : State :=
  let e := entryOf s r t.layer t.head t.page
  let s1 := setEntry s r t.layer t.head t.page { e with state := st, slot := slot }
  wakeSlots (failWaiters (dropTransfer (freeSlot s1 r.half t.slot (mapLog2 r.header)) t) t status) r.half

/-- A prefetch passes its check: the page is in its slot, the Valley page is free, and what waited goes on (R309, R312). -/
def landFetch (s : State) (r : Request) (t : Transfer) (data : List Byte) : State :=
  let e := entryOf s r t.layer t.head t.page
  let s1 := setEntry (writePage s r.half t.slot data) r t.layer t.head t.page
    { e with state := enHBM, slot := t.slot, vidx := 0 }
  let s2 := freeValleyPage (bump (s1.inc (.kv .KV_FETCHES) r.half 1) r.half 1 7 1) r.half r.fn t.vidx
  let s3 := if t.prio = 0 then histSample s2 r.half 7 r.fn ((s.mt r.half - t.startMt : Nat) : Int) else s2
  let s4 := mapChains (dropTransfer s3 t) fun d => if t.waiters.contains d.readNo then { d with progress := d.progress + 1 } else d
  ringsGoOn (wakeCtxs s4 fun x => x.chainNo.any fun n => t.waiters.contains n) r.half

/-- The bytes of a prefetched page arrive and its tag is checked (R311). -/
def checkFetch (s : State) (r : Request) (t : Transfer) : State :=
  let h := r.half
  let w := engine h r.fn
  let ns := s.mt h - t.startMt
  let a := readTimed s w (valleyAt s h r.fn t.vidx) (pageBytes r.header) ns
  let b := readTimed a.2.1 w (valleyTagAt s h r.fn t.vidx) 32 ns
  if a.1 ≠ ST_OK ∨ b.1 ≠ ST_OK then failFetch b.2.1 r t (if a.1 ≠ ST_OK then a.1 else b.1) enVALLEY t.gen
  else
    let e := entryOf s r t.layer t.head t.page
    let gen := fieldAt b.2.2 16 8
    match keyOf s h r.fn .valley with
    | none => failFetch b.2.1 r t ST_KEY_MISSING enVALLEY t.gen
    | some key =>
      let m := if gen % 2 ^ 32 = t.gen then
          gcmOpen (keyBytes key) (valleyNonce h r.fn 1 gen) (valleyAd r t.layer t.head t.page e.fill t.vidx) (toNats a.2.2)
            (toNats (b.2.2.take 16))
        else none
      match m with
      | some data => landFetch b.2.1 r t (toBytes data)
      | none => (failFetch b.2.1 r t ST_VALLEY_AUTH enBAD t.gen).inc (.kv .KV_AUTH_FAIL) h 1

/-- VALLEY_PREFETCH_LAND (R309, R311): a prefetch ends, once it has its granule; one whose page was freed meanwhile is discarded. -/
def execValleyPrefetchLand (h : Half) (num layer head page : Nat) (s : State) : Res :=
  match transferOf s h num layer head page false with
  | none => .next s
  | some t =>
    if t.discard then .next (wakeSlots (endDiscarded s t) h)
    else match s.request num with
      | none => .next s
      | some r => .next (goTransfer s t fun u x => checkFetch u r x)

/-- The look-ahead prefetches of a list of pages, while the partition's slots stay at or below HIGH; and whether they are over: one that
finds its slot being freed waits for it (R301 step 3). -/
def lookAhead (r : Request) : List (Nat × Nat × Nat) → State → State × Bool
  | [], s => (s, true)
  | q :: rest, s =>
    let e := entryOf s r q.1 q.2.1 q.2.2
    if e.state ≠ enVALLEY ∨ e.own = false then lookAhead r rest s
    else if s.rd (.kv .KV_QUOTA_HIGH) r.half r.fn < s.rd (.kv .KV_PSTAT_HELD) r.half r.fn + 2 ^ mapLog2 r.header then (s, true)
    else match allocSlot s r with
      | .got slot t => lookAhead r rest (startFetch t r q.1 q.2.1 q.2.2 slot 2 [])
      | .wait t => (t, false)
      | .none t => (t, true)

/-- LOOKAHEAD_PREFETCH (R309): once for each layer whose first append or fold has been issued; one that waits for a slot goes on with the
command's next occurrence. -/
def execLookaheadPrefetch (h : Half) (num layer : Nat) (s : State) : Res :=
  match s.request num with
  | none => .next s
  | some r =>
    if r.half ≠ h ∨ r.paused = true ∨ r.touched.contains layer = false ∨ r.touched.contains (layer + 4096) = true ∨ 4096 ≤ layer ∨
        s.hostOk h r.fn = false ∨ (keyOf s h r.fn .valley).isNone = true then .next s
    else
      let m := r.header
      let ls := ((List.range (mapLookahead m)).map (layer + 1 + ·)).filter fun l => decide (l < mapNL m)
      let q := lookAhead r (pagesOf ls (List.range (mapNKV m)) 0 (mapNP m)) s
      .next (if q.2 then setRequest q.1 r.num fun q => { q with touched := q.touched ++ [layer + 4096] } else q.1)

/-- EVICT_SLOT_HANDOVER (R315): no fold reads the victim any more, and its slot passes to the allocating request. -/
def execEvictSlotHandover (h : Half) (num : Nat) (s : State) : Res :=
  match s.request num with
  | none => .next s
  | some r =>
    if folding s r = true ∨ (s.handovers.any fun x => x.half == h && x.request == num && !x.granted) = false then .next s
    else
      let s1 : State := { s with handovers := s.handovers.map fun x =>
        if x.half = h ∧ x.request = num then { x with granted := true } else x }
      .next (wakeCtxs s1 (ofRequestCtx s1 num))

/-! ### Host accesses that fail (R131) -/

/-- A Valley prefetch whose read of host memory fails. -/
def hostPage (s : State) (h : Half) (num layer head page : Nat) : State :=
  match transferOf s h num layer head page false, s.request num with
  | some t, some r => if t.discard then s else failFetch s r t ST_HOST_ACCESS enVALLEY t.gen
  | _, _ => s

/-- HOST_ACCESS_FAIL (R131): a host access, other than a descriptor fetch, fails with ST_HOST_ACCESS at the point that issued it: an
admitted chain of a hub engine ends; the entries of a group from the block that could not be read on fail; a context's work fails as at
any failed access; a Valley prefetch leaves its page in the Valley tier. -/
def execHostAccessFail (h : Half) (point : HostPoint) (s : State) : Res :=
  match point with
  | .chain ring seq =>
    match s.chain h ring seq with
    | some c => .next (failEngine s c ST_HOST_ACCESS)
    | none => .next s
  | .entries ring seq entry =>
    match s.chain h ring seq with
    | some c =>
      if c.running = true ∧ c.checked = false ∧ ((extOf c kGROUP).any fun g => isHost (fieldAt g 8 8)) = true then
        .next (setChain s c fun d => { d with listFail := some entry })
      else .next s
    | none => .next s
  | .context core slot =>
    match ctxAt s h core slot with
    | some x => if runnable s x then .next (ctxAccessFail s x false ST_HOST_ACCESS hostBit 0) else .next s
    | none => .next s
  | .page num layer head page => .next (hostPage s h num layer head page)

/-! ### Registers (R287, R289, R328) -/

/-- KV_LAST set. -/
def kvLast (s : State) (h : Half) (st : Nat) : State := s.wr (.kv .KV_LAST_STATUS) h st

/-- A request of the half is OPEN. -/
def anyOpen (s : State) (h : Half) : Bool := s.requests.any fun r => r.half == h

/-- The slot space, the quotas and the groups as a write would leave them (R287, R289); a slot space needs a base that software has
written (R26). -/
def kvConfigOk (s : State) (h : Half) : Bool :=
  let count := s.rd (.kv .KV_SLOT_CFG_COUNT) h
  let base := s.rd (.kv .KV_SLOT_BASE) h
  let sum := ((List.range 64).map fun p => s.rd (.kv .KV_QUOTA_QUOTA) h p).sum + ((List.range 16).map fun g => s.rd (.kv .KV_GRP_QUOTA) h g).sum
  (List.range 64).all (fun p => decide (s.rd (.kv .KV_QUOTA_LOW) h p ≤ s.rd (.kv .KV_QUOTA_HIGH) h p ∧
    s.rd (.kv .KV_QUOTA_HIGH) h p ≤ s.rd (.kv .KV_QUOTA_QUOTA) h p)) &&
    decide (sum ≤ count - reservedSlots count) &&
    (count == 0 || s.rd (.kv .KV_SLOT_BASE_WRITTEN) h == 1 && decide (base % 0x20000 = 0 ∧ hbmBase h ≤ base ∧
      base + count * 0x4000 ≤ hbmBase h + hbmSize))

/-- A slot space laid out anew: every tag is free, and the directory of the half is empty. -/
def freshSlots (s : State) (h : Half) : State :=
  let count := s.rd (.kv .KV_SLOT_CFG_COUNT) h
  let s1 : State := { s.wipe (s.rd (.kv .KV_SLOT_BASE) h) count with nodes := s.nodes.filter fun n => n.half != h }
  let s2 := (List.range 64).foldl (fun t p => t.wr (.kv .KV_PSTAT_HELD) h 0 p) s1
  let s3 := (List.range 16).foldl (fun t g => t.wr (.kv .KV_GRP_HELD) h 0 g) s2
  refreshNodes (s3.wr (.kv .KV_SLOT_FREE) h (count - reservedSlots count)) h

/-- A register of the slot space written: KV_SLOT_BASE (0), KV_SLOT_CFG (1), KV_QUOTA (2) and KV_PGRP (3) of a partition, and
KV_GRP_QUOTA (4) of a group. -/
def kvStore (s : State) (h : Half) (reg i v : Nat) : State :=
  match reg with
  | 0 => (s.wr (.kv .KV_SLOT_BASE) h v).wr (.kv .KV_SLOT_BASE_WRITTEN) h 1
  | 1 => s.wr (.kv .KV_SLOT_CFG_COUNT) h (bitsAt v 0 21)
  | 2 => ((s.wr (.kv .KV_QUOTA_QUOTA) h (bitsAt v 0 21) i).wr (.kv .KV_QUOTA_HIGH) h (bitsAt v 21 21) i).wr
      (.kv .KV_QUOTA_LOW) h (bitsAt v 42 21) i
  | 3 => (s.wr (.kv .KV_PGRP_SG_EN) h (bitsAt v 4 1) i).wr (.kv .KV_PGRP_SGRP) h (bitsAt v 0 4) i
  | _ => s.wr (.kv .KV_GRP_QUOTA) h (bitsAt v 0 21) i

/-- KV_QUOTA_WRITE (R289): applied, or refused with ST_KV_CONFIG; discarded while the setup is locked (R143). -/
def execKvQuotaWrite (h : Half) (reg : Fin 5) (i v : Nat) (s : State) : Res :=
  if locked s h = true ∨ (if reg.val = 4 then 16 ≤ i else 64 ≤ i) then .next s
  else
    let s1 := kvStore s h reg.val i v
    let shape := reg.val = 0 ∨ reg.val = 1
    if (kvConfigOk s1 h = false) ∨ ((shape ∨ reg.val = 3) ∧ anyOpen s h = true) then .next (kvLast s h ST_KV_CONFIG)
    else .next (kvLast (if shape then freshSlots s1 h else s1) h ST_OK)

/-- VALLEY_CONFIG_WRITE (R328): VALLEY_BASE (0), VALLEY_TAG (1) or VALLEY_CFG (2) of a partition. -/
def execValleyConfigWrite (h : Half) (p : Fin 64) (reg : Fin 3) (v : Nat) (s : State) : Res :=
  if locked s h then .next s
  else if (s.requests.any fun r => r.half == h && r.fn == p.val) = true ∨ (reg.val < 2 ∧ (v % 4096 ≠ 0 ∨ 2 ^ 63 ≤ v % 2 ^ 64)) then
    .next (kvLast s h ST_KV_CONFIG)
  else
    let s1 := match reg.val with
      | 0 => s.wr (.kv .VALLEY_BASE) h v p.val
      | 1 => s.wr (.kv .VALLEY_TAG) h v p.val
      | _ => (s.wr (.kv .VALLEY_CFG_EN) h (bitsAt v 31 1) p.val).wr (.kv .VALLEY_CFG_UNITS) h (bitsAt v 0 24) p.val
    .next (kvLast s1 h ST_OK)

end Sys2Proof.Machine
end

