-- ==== Sys2Proof/Machine/KvRecord.lean ====
section
/-!
DEFINITION. Machine/KvRecord.lean: ROLLBACK (R326), PAUSE (R322, R323) and RESUME (R325).
-/

namespace Sys2Proof.Machine

/-! ### Pages brought together -/

/-- What must come before a change of pages: nothing, a wait, or a status with which the chain fails. -/
inductive Need where
  | ready
  | wait
  | fail (status : Nat)
deriving DecidableEq, Repr

/-- Pages of the Valley tier that must be in HBM: prefetches are started and joined. -/
def needPages (c : Chain) (r : Request) (l : List (Nat × Nat × Nat)) (s : State) : State × Need :=
  let away := l.filter fun q =>
    let e := entryOf s r q.1 q.2.1 q.2.2
    e.state == enVALLEY || e.state == enFETCHING
  if away.isEmpty then (s, .ready)
  else
    let q := startFetches c r true 0 away (s, [])
    if q.2.2.2.isEmpty then (q.1, .wait) else (q.1, .fail (lowestFail q.2.2.2))

/-- SHARED pages copied into private slots (R326), and pages that are rewritten while egress holds them into new ones (R430). -/
def ownCopies (r : Request) (rewritten : Nat → Bool) : List (Nat × Nat × Nat) → State → State × Need
  | [], s => (s, .ready)
  | q :: rest, s =>
    let e := entryOf s r q.1 q.2.1 q.2.2
    let held := rewritten q.2.2 && slotHeld s r.half e.slot
    if e.shared = false ∧ held = false then ownCopies r rewritten rest s
    else match allocSlot s r with
      | .got slot t =>
        if e.shared then
          let t1 := writePage t r.half slot (readPage t r e.slot)
          ownCopies r rewritten rest (setEntry t1 r q.1 q.2.1 q.2.2 { e with slot := slot, flags := clearBits e.flags 4, pend := 0 })
        else ownCopies r rewritten rest (copyHeld t r q slot)
      | .wait t => (t, .wait)
      | .none t => (t, .fail ST_KV_NOSLOT)

/-! ### ROLLBACK (R326) -/

/-- The kept offsets of a ROLLBACK, or the status of the read that failed. -/
def rollbackList (s : State) (c : Chain) : Nat × State × List Nat :=
  if kpAddr c.head = 0 then (ST_OK, s, [])
  else
    let q := readAt s (engine c.half (ringFn c.ring)) (kpAddr c.head) (2 * kpCount c.head)
    (q.1, q.2.1, (List.range (kpCount c.head)).map fun i => fieldAt q.2.2 (2 * i) 2)

/-- A strictly ascending list below a bound. -/
def ascending (bound : Nat) : List Nat → Bool
  | [] => true
  | [a] => decide (a < bound)
  | a :: b :: r => decide (a < b) && ascending bound (b :: r)

/-- Rows that move: from and to. -/
def rowMoves (pos0 : Nat) (offs : List Nat) : List (Nat × Nat) :=
  ((List.range offs.length).zip offs).filterMap fun q => if q.1 = q.2 then none else some (pos0 + q.2, pos0 + q.1)

/-- One row of a head moved, keys and values, where both of its pages are held in HBM. -/
def moveRow (r : Request) (l g : Nat) (s : State) (q : Nat × Nat) : State :=
  let m := r.header
  let d := mapDim m
  let e := kvElem (mapFmt m)
  let a := entryOf s r l g (q.1 / 64)
  let b := entryOf s r l g (q.2 / 64)
  let res (x : Entry) : Bool := x.own && (x.state == enHBM || x.state == enSPILLING)
  if res a && res b then
    let fa := slotAddr s r.half a.slot
    let fb := slotAddr s r.half b.slot
    let key := s.mem.readN (fa + q.1 % 64 * d * e) (d * e)
    let col := (List.range d).map fun i => s.mem.readN (fa + 64 * d * e + i * 64 * e + q.1 % 64 * e) e
    ((List.range d).zip col).foldl (fun t p => t.store (fb + 64 * d * e + p.1 * 64 * e + q.2 % 64 * e) p.2)
      (s.store (fb + q.2 % 64 * d * e) key)
  else s

/-- The pages of a layer that a ROLLBACK rewrites or shortens, with those it reads. -/
def rollbackPages (s : State) (r : Request) (l n : Nat) (moves : List (Nat × Nat)) : List (Nat × Nat × Nat) × List (Nat × Nat × Nat) :=
  let own := (pagesOf [l] (List.range (mapNKV r.header)) 0 (mapNP r.header)).filter fun q => (entryOf s r q.1 q.2.1 q.2.2).own
  let cut (q : Nat × Nat × Nat) : Bool := q.2.2 == n / 64 && n % 64 != 0 && (entryOf s r q.1 q.2.1 q.2.2).fill != n % 64
  (own.filter fun q => cut q || moves.any fun p => p.2 / 64 == q.2.2,
    own.filter fun q => cut q || moves.any fun p => p.2 / 64 == q.2.2 || p.1 / 64 == q.2.2)

/-- One layer rolled back: rows moved, pages above the new LEN freed, the last page shortened; and the pages changed. -/
def rollbackLayer (r : Request) (pos0 : Nat) (offs : List Nat) (a : State × Nat) (l : Nat) : State × Nat :=
  let n := pos0 + offs.length
  let moves := rowMoves pos0 offs
  let m := r.header
  let own := (pagesOf [l] (List.range (mapNKV m)) 0 (mapNP m)).filter fun q => (entryOf a.1 r q.1 q.2.1 q.2.2).own
  let gone := own.filter fun q => decide (n ≤ 64 * q.2.2)
  let kept := ((rollbackPages a.1 r l n moves).1).filter fun q => decide (64 * q.2.2 < n)
  let s1 := (List.range (mapNKV m)).foldl (fun t g => moves.foldl (moveRow r l g) t) a.1
  let s2 := gone.foldl (fun t q => freePage t r q.1 q.2.1 q.2.2) s1
  let s3 := kept.foldl (fun t q =>
    if q.2.2 = n / 64 then
      let e := entryOf t r q.1 q.2.1 q.2.2
      setEntry t r q.1 q.2.1 q.2.2 { e with fill := n % 64 }
    else t) s2
  (setLen s3 r l n, a.2 + gone.length + kept.length)

/-- KV_ROLLBACK (R326): nothing is changed where a page that it reads or writes lies out of the request's reach (R288). -/
def execKvRollback (h : Half) (ring seq : Nat) (s : State) : Res :=
  kvRun s h ring seq 6 fun c r =>
    let b := c.head
    let ls := kpLayers r.header b
    let q := rollbackList s c
    let offs := q.2.2
    if (ls.any fun l => decide (layerLen s r l < kpPos0 b)) = true then endDetail s c ST_KV_STATE 0
    else if q.1 ≠ ST_OK then endDetail q.2.1 c q.1 0
    else if (ls.all fun l => ascending (layerLen s r l - kpPos0 b) offs) = false then endDetail q.2.1 c ST_KV_STATE 0
    else
      let pages := ls.map fun l => rollbackPages q.2.1 r l (kpPos0 b + offs.length) (rowMoves (kpPos0 b) offs)
      let n1 := needPages c r (pages.flatMap (·.2)) q.2.1
      match n1.2 with
      | .wait => n1.1
      | .fail st => endDetail n1.1 c st 0
      | .ready =>
        match outOfReach n1.1 r (pages.flatMap (·.2)) with
        | some i => endDetail (refusePage n1.1 r false i) c ST_HBM_FENCE 0
        | none =>
        let moved := rowMoves (kpPos0 b) offs
        let n2 := ownCopies r (fun j => moved.any fun p => p.2 / 64 == j) (pages.flatMap (·.1)) n1.1
        match n2.2 with
        | .wait => n2.1
        | .fail st => endDetail n2.1 c st 0
        | .ready =>
          let o := ls.foldl (rollbackLayer r (kpPos0 b) offs) (n2.1, 0)
          endDetail (wakeSlots o.1 h) c ST_OK o.2

/-! ### PAUSE (R322, R323) -/

/-- A page that a pause may retain: owned, and its data held. -/
def pausable (e : Entry) : Bool := e.own && (e.state == enHBM || e.state == enSPILLING || e.state == enVALLEY || e.state == enFETCHING)

/-- The pages of a layer and head that a pause retains (R322). -/
def retained (s : State) (r : Request) (keep l g : Nat) : List (Nat × Nat × Nat) :=
  let m := r.header
  let top := ceilDiv (layerLen s r l) 64
  let own := (pagesOf [l] [g] 0 (mapNP m)).filter fun q => pausable (entryOf s r q.1 q.2.1 q.2.2)
  let base (q : Nat × Nat × Nat) : Bool :=
    let e := entryOf s r q.1 q.2.1 q.2.2
    decide (q.2.2 < mapSink m) || (decide (q.2.2 < top) && decide (top ≤ q.2.2 + mapRecent m)) || e.pin || e.shared
  let rest := own.filter fun q => !(base q)
  let best := (sortBy (fun q : Nat × Nat × Nat => [65535 - (entryOf s r q.1 q.2.1 q.2.2).score, q.2.2]) rest).take
    (if mapScoreEn m then keep else 0)
  own.filter fun q => base q || best.contains q

/-- Every page that a pause retains, in ascending layer, head and page. -/
def retainedAll (s : State) (r : Request) (keep : Nat) : List (Nat × Nat × Nat) :=
  (List.range (mapNL r.header)).flatMap fun l => (List.range (mapNKV r.header)).flatMap fun g => retained s r keep l g

/-- Pages are stored in FP8: COMPRESS, and a 16-bit format. -/
def packs (m : List Byte) (compress : Bool) : Bool := compress && kvElem (mapFmt m) == 2

/-- Bytes of a stored page, and padded to 256 (R323). -/
def storedBytes (m : List Byte) (pack : Bool) : Nat := if pack then pageBytes m / 2 else pageBytes m
def storedPad (m : List Byte) (pack : Bool) : Nat := roundUp (storedBytes m pack) 256

/-- Offset of the descriptors, of the page data, and the record's size for `n` pages (R323). -/
def recDesc (m : List Byte) : Nat := 0xC0 + ceilDiv (8 * mapNL m) 64 * 64
def recData (m : List Byte) (n : Nat) : Nat := roundUp (recDesc m + 48 * n) 256
def recSize (m : List Byte) (pack : Bool) (n : Nat) : Nat := recData m n + n * storedPad m pack

/-- The node whose page a SHARED entry names. -/
def nodeOf (s : State) (r : Request) (slot : Nat) : Option PfxNode :=
  s.nodes.find? fun n => n.half == r.half && !n.leaf && n.slots.contains slot

/-- A page's stored bytes: as they are, or converted to FP8 E4M3, with the conversion's counts (R216, R322). -/
def storePage (m : List Byte) (pack : Bool) (page : List Byte) : List Byte × Nat × Nat :=
  if pack then
    let o := convRow 1 ((codesOf (mapFmt m) (pageBytes m / 2) page).map fun v => toF32 (decodeElem (mapFmt m) v))
    (o.data, o.sat, o.nan)
  else (page, 0, 0)

/-- The pages of a record as they are made: descriptors, data, the state with its generations, the saturations and the NaNs. -/
structure RecOut where
  s : State
  desc : List Byte
  data : List Byte
  sat : Nat
  nan : Nat
deriving DecidableEq, Repr

/-- The first 32 bytes of a page's descriptor (Table 9.8). -/
def descHead (q : Nat × Nat × Nat) (e : Entry) (form node gen : Nat) : List Byte :=
  leBytes 2 q.1 ++ leBytes 1 q.2.1 ++ leBytes 1 e.fill ++ leBytes 4 q.2.2 ++ leBytes 2 e.score ++ leBytes 1 form ++ leBytes 1 0 ++
    leBytes 4 node ++ leBytes 8 gen ++ zeros 8

/-- One page added to a record; `key` when the record is encrypted. -/
def recordPage (r : Request) (pack : Bool) (key : Option Nat) (o : RecOut) (q : Nat × Nat × Nat) : RecOut :=
  let m := r.header
  let e := entryOf o.s r q.1 q.2.1 q.2.2
  if e.shared then
    let node := ((nodeOf o.s r e.slot).map (·.idx)).getD 0
    { o with desc := o.desc ++ descHead q e 2 node 0 ++ zeros 16 }
  else
    let p := storePage m pack (readPage o.s r e.slot)
    match key with
    | none => { o with desc := o.desc ++ descHead q e (bit pack) 0 0 ++ zeros 16,
                       data := o.data ++ padTo (storedPad m pack) p.1,
                       sat := o.sat + p.2.1, nan := o.nan + p.2.2 }
    | some k =>
      let g := takeGen o.s r.half r.fn
      let hd := descHead q e (bit pack) 0 g.1
      let c := gcmSeal (keyBytes k) (valleyNonce r.half r.fn 2 g.1) (toNats hd) (toNats p.1)
      { s := g.2, desc := o.desc ++ hd ++ toBytes c.2, data := o.data ++ padTo (storedPad m pack) (toBytes c.1), sat := o.sat + p.2.1,
        nan := o.nan + p.2.2 }

/-- The record's bytes from 0x00 to 0x1F. -/
def recHead (s : State) (r : Request) (pack host : Bool) (n : Nat) : List Byte :=
  let m := r.header
  leBytes 4 1 ++ leBytes 4 n ++ leBytes 8 (recSize m pack n) ++ leBytes 1 (64 * r.half.num + r.fn) ++
    leBytes 1 (bit host + 2 * bit pack) ++ leBytes 2 0 ++ leBytes 4 (recData m n) ++ leBytes 8 (s.mt r.half)

/-- The record's bytes from 0x40 to its descriptors: the map header and the layer records. -/
def recLayers (s : State) (r : Request) : List Byte :=
  let m := r.header
  m.take 128 ++ padTo (recDesc m - 0xC0) (s.mem.readN (r.pageMap + 0x80) (8 * mapNL m))

/-- The whole record, and the state with the generations it took (R323). -/
def pauseRecord (s : State) (r : Request) (pack : Bool) (key : Option Nat) (l : List (Nat × Nat × Nat)) : RecOut × List Byte :=
  let m := r.header
  let o := l.foldl (recordPage r pack key) ⟨s, [], [], 0, 0⟩
  let hd := recHead s r pack key.isSome l.length
  let body := recLayers s r
  let tag : State × List Byte × List Byte := match key with
    | none => (o.s, zeros 16, zeros 16)
    | some k =>
      let g := takeGen o.s r.half r.fn
      let c := gcmSeal (keyBytes k) (valleyNonce r.half r.fn 3 g.1) (toNats (hd ++ body)) []
      (g.2, toBytes c.2, leBytes 8 g.1 ++ zeros 8)
  ({ o with s := tag.1 }, padTo (recData m l.length) (hd ++ tag.2.1 ++ tag.2.2 ++ body ++ o.desc) ++ o.data)

/-- The owned pages of a request, with their pins. -/
def ownedPages (s : State) (r : Request) : List (Nat × Nat × Nat × Bool) :=
  (allPages r.header).filterMap fun q =>
    let e := entryOf s r q.1 q.2.1 q.2.2
    if e.own then some (q.1, q.2.1, q.2.2, e.pin) else none

/-- KV_PAUSE (R322, R323). A cancelled chain's host write is not issued (R352). -/
def execKvPause (h : Half) (ring seq : Nat) (s : State) : Res :=
  kvRun s h ring seq 7 fun c r =>
    let m := r.header
    let aux := kpAux c.head
    let l := retainedAll s r (bitsAt aux 48 8)
    let pack := packs m (aux.testBit 32)
    let host := isHost (kpAddr c.head)
    let size := recSize m pack l.length
    let key := keyOf s h r.fn .valley
    if bitsAt aux 0 32 < size then endDetail s c ST_PAUSE_SPACE size
    else if host = true ∧ key = none then endDetail s c ST_KEY_MISSING 0
    else
      let n := needPages c r (l.filter fun q => !(entryOf s r q.1 q.2.1 q.2.2).shared) s
      match n.2 with
      | .wait => n.1
      | .fail st => endDetail n.1 c st 0
      | .ready =>
        match outOfReach n.1 r l with
        | some i => endDetail (refusePage n.1 r false i) c ST_HBM_FENCE 0
        | none =>
        let o := pauseRecord n.1 r pack (if host then key else none) l
        let w := if c.cancelled ∧ host = true then (ST_OK, o.1.s) else writeAt o.1.s (engine h (ringFn c.ring)) (kpAddr c.head) o.2
        if w.1 ≠ ST_OK then endDetail w.2 c w.1 0
        else
          let own := ownedPages w.2 r
          let s1 := own.foldl (fun t q => freePage t r q.1 q.2.1 q.2.2.1) w.2
          let s2 := setRequest ((s1.inc (.core .NUM_SAT) h o.1.sat 0).inc (.core .NUM_NAN) h o.1.nan 0) r.num fun q => { q with paused := true, pausedPages := own }
          endDetail (wakeSlots s2 h) c ST_OK l.length

/-! ### RESUME (R325) -/

/-- A descriptor of a pause record. -/
structure RecDesc where
  q : Nat × Nat × Nat
  fill : Nat
  score : Nat
  form : Nat
  node : Nat
  gen : Nat
  head : List Byte
  tag : List Byte
deriving DecidableEq, Repr

/-- The descriptors of a record. -/
def parseDescs (n : Nat) (b : List Byte) : List RecDesc :=
  (List.range n).map fun i =>
    let d := (b.drop (48 * i)).take 48
    { q := (fieldAt d 0 2, fieldAt d 2 1, fieldAt d 4 4), fill := fieldAt d 3 1, score := fieldAt d 8 2, form := fieldAt d 10 1,
      node := fieldAt d 12 4, gen := fieldAt d 16 8, head := d.take 32, tag := (d.drop 32).take 16 }

/-- A record as read: its status, the state, its bytes before the data, its descriptors, and whether it is encrypted. -/
structure RecIn where
  status : Nat
  s : State
  front : List Byte
  descs : List RecDesc
  sealed : Bool
deriving DecidableEq, Repr

/-- HTAG of an encrypted record's front verifies under a key (R323, R325). -/
def headTagOk (r : Request) (k : Nat) (front : List Byte) : Bool :=
  (gcmOpen (keyBytes k) (valleyNonce r.half r.fn 3 (fieldAt front 0x30 8)) (toNats (front.take 0x20 ++ front.drop 0x40)) []
    (toNats ((front.drop 0x20).take 16))).isSome

/-- What a record's front shows, in the order of R325: its map header and its owner, its seal, and then its form. -/
def frontStatus (s : State) (r : Request) (enc : Bool) (front : List Byte) : Nat :=
  let m := r.header
  if ((front.drop 0x40).take 128 == m.take 128 && fieldAt front 0x10 1 == 64 * r.half.num + r.fn) = false then ST_KV_STATE
  else
    let tags := if enc then (match keyOf s r.half r.fn .valley with
        | none => ST_KEY_MISSING
        | some k => if headTagOk r k front then ST_OK else ST_VALLEY_AUTH)
      else ST_OK
    if tags ≠ ST_OK then tags
    else if fieldAt front 0 4 = 1 ∧ fieldAt front 4 4 ≤ mapNL m * mapNKV m * mapNP m then ST_OK
    else ST_KV_STATE

/-- The front of a record read and held against the request (R325): it is encrypted when it lies in host memory, or when it says so. -/
def readRecord (s : State) (c : Chain) (r : Request) : RecIn :=
  let m := r.header
  let w := engine c.half (ringFn c.ring)
  let a := readAt s w (kpAddr c.head) (recDesc m)
  let enc := isHost (kpAddr c.head) || (fieldAt a.2.2 0x11 1).testBit 0
  let n := fieldAt a.2.2 4 4
  let st := if a.1 ≠ ST_OK then a.1 else frontStatus a.2.1 r enc a.2.2
  if st ≠ ST_OK then ⟨st, a.2.1, [], [], enc⟩
  else
    let d := readAt a.2.1 w (kpAddr c.head + recDesc m) (48 * n)
    ⟨if n = 0 then ST_OK else d.1, if n = 0 then a.2.1 else d.2.1, a.2.2, parseDescs n d.2.2, enc⟩

/-- The stored data of each page in order: its bytes, or none for a shared reference. -/
def recordData (c : Chain) (r : Request) (pack : Bool) : Nat → List RecDesc → State × Nat × List (Option (List Byte)) →
    State × Nat × List (Option (List Byte))
  | _, [], a => a
  | k, d :: rest, a =>
    if d.form = 2 then recordData c r pack k rest (a.1, a.2.1, a.2.2 ++ [none])
    else
      let z := storedPad r.header pack
      let q := readAt a.1 (engine c.half (ringFn c.ring)) k z
      recordData c r pack (k + z) rest (q.2.1, if a.2.1 = ST_OK then q.1 else a.2.1,
        a.2.2 ++ [some (q.2.2.take (storedBytes r.header pack))])

/-- The page tags of an encrypted record checked and its pages opened; none where a tag fails (R325 step 1). -/
def openRecord (s : State) (r : Request) (i : RecIn) (data : List (Option (List Byte))) : Option (List (Option (List Byte))) :=
  match keyOf s r.half r.fn .valley with
  | none => none
  | some k =>
    let l := (i.descs.zip data).map fun p => match p.2 with
      | none => some none
      | some b => (gcmOpen (keyBytes k) (valleyNonce r.half r.fn 2 p.1.gen) (toNats p.1.head) (toNats b) (toNats p.1.tag)).map
          fun v => some (toBytes v)
    if l.all (·.isSome) then some (l.map fun v => v.getD none) else none

/-- Slots for the pages of a record, those it has already kept (R325 step 2). -/
def resumeSlots (r : Request) : Nat → State × List Nat → State × List Nat × Need
  | 0, a => (a.1, a.2, .ready)
  | n + 1, a => match allocSlot a.1 r with
    | .got slot t => resumeSlots r n (t, a.2 ++ [slot])
    | .wait t => (t, a.2, .wait)
    | .none t => (t, a.2, .fail ST_KV_NOSLOT)

/-- A stored page as its slot holds it: FP8 widened to F, with the conversion's counts (R216, R325 step 3). -/
def unpackPage (m : List Byte) (form : Nat) (b : List Byte) : List Byte × Nat × Nat :=
  if form = 1 then
    let o := convRow (mapFmt m) ((codesOf 1 (pageBytes m / 2) b).map fun v => toF32 (decodeElem 1 v))
    (o.data, o.sat, o.nan)
  else (b, 0, 0)

/-- A shared reference of a record: the node is one of the request's, and the page lies in its heads. -/
def sharedRef (s : State) (r : Request) (d : RecDesc) : Option Nat :=
  match s.nodes.find? fun n => n.half == r.half && n.idx == d.node && !n.leaf && r.nodes.contains n.idx with
  | none => none
  | some n =>
    let m := r.header
    if mapPfxHead0 m ≤ d.q.2.1 ∧ d.q.2.1 < mapPfxHead0 m + mapPfxHeadN m then
      n.slots[d.q.1 * mapPfxHeadN m + (d.q.2.1 - mapPfxHead0 m)]?
    else none

/-- Descriptors that a record of this request can hold. -/
def descOk (s : State) (r : Request) (pack : Bool) (d : RecDesc) : Bool :=
  let m := r.header
  decide (d.q.1 < mapNL m ∧ d.q.2.1 < mapNKV m ∧ d.q.2.2 < mapNP m ∧ d.fill ≤ 64) &&
    (if d.form = 2 then (sharedRef s r d).isSome else d.form == bit pack)

/-- One page restored: the state, and the slots not yet used (R325 steps 3 and 4). -/
def restorePage (r : Request) (a : State × List Nat) (p : RecDesc × Option (List Byte)) : State × List Nat :=
  let d := p.1
  let pin := r.pausedPages.any fun q => q.1 == d.q.1 && q.2.1 == d.q.2.1 && q.2.2.1 == d.q.2.2 && q.2.2.2
  match p.2, sharedRef a.1 r d with
  | none, some slot =>
    let ns := namespaceOf a.1 r.half r.fn
    let e : Entry := { Entry.absent with slot := slot, score := d.score, state := enHBM, flags := 5 + 2 * bit pin,
                                         pend := if 0xC0 ≤ ns then ns % 16 else 0, fill := 64 }
    (setEntry a.1 r d.q.1 d.q.2.1 d.q.2.2 e, a.2)
  | some b, _ =>
    let slot := a.2.headD 0
    let e : Entry := { Entry.absent with slot := slot, score := d.score, state := enHBM, flags := 1 + 2 * bit pin, fill := d.fill }
    let v := unpackPage r.header d.form b
    let s1 := (a.1.inc (.core .NUM_SAT) r.half v.2.1 0).inc (.core .NUM_NAN) r.half v.2.2 0
    (setEntry (writePage s1 r.half slot v.1) r d.q.1 d.q.2.1 d.q.2.2 e, a.2.tail)
  | none, none => a

/-- Owned pages below LEN that the record does not hold become EVICTED (R325 step 5). -/
def evictLost (s : State) (r : Request) (kept : List (Nat × Nat × Nat)) : State :=
  r.pausedPages.foldl (fun t q =>
    let k := (q.1, q.2.1, q.2.2.1)
    if kept.contains k = false ∧ 64 * q.2.2.1 < layerLen t r q.1 then
      setEntry t r q.1 q.2.1 q.2.2.1 { Entry.absent with state := enEVICTED, flags := 1, fill := min 64 (layerLen t r q.1 - 64 * q.2.2.1) }
    else t) s

/-- The pages, lengths and scores of a record restored; the request is OPEN (R325). -/
def restoreRecord (s : State) (r : Request) (i : RecIn) (data : List (Option (List Byte))) (slots : List Nat) : State :=
  let m := r.header
  let s1 := s.store (r.pageMap + 0x80) ((i.front.drop 0xC0).take (8 * mapNL m))
  let s2 := ((i.descs.zip data).foldl (restorePage r) (s1, slots)).1
  setRequest (evictLost s2 r (i.descs.map (·.q))) r.num fun q => { q with paused := false, pausedPages := [] }

/-- A RESUME that fails: the slots it had are free again, and the request stays PAUSED. -/
def failResume (s : State) (c : Chain) (r : Request) (slots : List Nat) (status : Nat) : State :=
  onChain (wakeSlots (slots.foldl (fun t i => freeSlot t r.half i (mapLog2 r.header)) s) r.half) c fun d =>
    { d.finish status with run := [], detail := 0 }

/-- KV_RESUME (R325). -/
def execKvResume (h : Half) (ring seq : Nat) (s : State) : Res :=
  kvRun s h ring seq 8 fun c r =>
    if r.paused = false then endDetail s c ST_KV_STATE 0
    else
      let i := readRecord s c r
      let pack := (fieldAt i.front 0x11 1).testBit 1
      if i.status ≠ ST_OK then failResume i.s c r c.run i.status
      else
        let d := recordData c r pack (kpAddr c.head + recData r.header i.descs.length) i.descs (i.s, ST_OK, [])
        let o := if i.sealed then openRecord d.1 r i d.2.2 else some d.2.2
        match o with
        | none => failResume d.1 c r c.run (if d.2.1 = ST_OK then ST_VALLEY_AUTH else d.2.1)
        | some data =>
          if d.2.1 ≠ ST_OK then failResume d.1 c r c.run d.2.1
          else if (i.descs.all (descOk d.1 r pack)) = false then failResume d.1 c r c.run ST_KV_STATE
          else
            let n := (i.descs.filter fun x => x.form != 2).length
            let q := resumeSlots r (n - c.run.length) (d.1, c.run)
            match q.2.2 with
            | .wait => onChain q.1 c fun x => { x with run := q.2.1 }
            | .fail st => failResume q.1 c r q.2.1 st
            | .ready => onChain (restoreRecord q.1 r i data q.2.1) c fun x =>
                { x.finish ST_OK with run := [], detail := i.descs.length }

end Sys2Proof.Machine
end

