-- ==== Sys2Proof/Machine/Pfx.lean ====
section
/-!
DEFINITION. Machine/Pfx.lean: the prefix directory (R316 to R321): PREFIX_LOOKUP, PREFIX_INSERT and FLUSH.
-/

namespace Sys2Proof.Machine

/-! ### Hashes and checks (R316, R317) -/

/-- The token list of a chain. -/
def pfxTokens (s : State) (c : Chain) : Nat × State × List Nat :=
  let n := kpCount c.head
  if n = 0 then (ST_OK, s, [])
  else
    let q := readAt s (engine c.half (ringFn c.ring)) (kpAddr c.head) (4 * n)
    (q.1, q.2.1, (List.range n).map fun i => fieldAt q.2.2 (4 * i) 4)

/-- The bytes of tokens. -/
def tokenBytes (l : List Nat) : List Byte := l.flatMap (leBytes 4)

/-- The chunk hash (R316). -/
def chunkHash (key prev : Nat) (t : List Nat) : Nat := sipHash key (leBytes 8 prev ++ tokenBytes t)

/-- The geometry block (R317). -/
def geometry (m : List Byte) : List Byte :=
  (m.drop 1).take 3 ++ (m.drop 4).take 3 ++ (m.drop 0x16).take 2 ++ (m.drop 0x0C).take 4 ++ zeros 4

/-- The secondary check of a node (R317). -/
def nodeCheck (m : List Byte) (parent : Option Nat) (t : List Nat) : Nat :=
  crc32c (geometry m ++ leBytes 4 (parent.getD Config.pfxRoot) ++ tokenBytes t)

/-- What the directory answers for a chunk: its node, and whether another node has the same hash and fails a comparison (R317). -/
def findChunk (s : State) (h : Half) (ns hash : Nat) (parent : Option Nat) (check : Nat) : Option PfxNode × Bool :=
  let same := s.nodes.filter fun n => n.half == h && !n.leaf && n.hash == hash
  let hit := same.find? fun n => n.ns == ns && n.parent == parent && n.check == check
  (hit, hit.isNone && !same.isEmpty)

/-- A node used now (R321). -/
def useNode (s : State) (h : Half) (idx : Nat) : State :=
  { s with nodes := s.nodes.map fun n => if n.half = h ∧ n.idx = idx then { n with useMt := s.mt h } else n }

/-- A request takes a reference (R318, R320). -/
def takeRef (s : State) (r : Request) (idx : Nat) : State :=
  setRequest (refNode (useNode s r.half idx) r.half idx true) r.num fun q => { q with nodes := q.nodes ++ [idx] }

/-- Covered layers and heads of prefix operations, in the order of a node's slots. -/
def pfxPairs (m : List Byte) : List (Nat × Nat) :=
  (List.range (mapNL m)).flatMap fun l => (List.range (mapPfxHeadN m)).map fun g => (l, mapPfxHead0 m + g)

/-- The group that a SHARED entry names. -/
def nsGroup (ns : Nat) : Nat := if 0xC0 ≤ ns then ns % 16 else 0

/-- The entries of a chunk mapped to a node (R318). -/
def mapNode (s : State) (r : Request) (n : PfxNode) (chunk : Nat) : State :=
  ((pfxPairs r.header).zip n.slots).foldl (fun t p =>
    setEntry t r p.1.1 p.1.2 chunk { Entry.absent with slot := p.2, state := enHBM, flags := 5, pend := nsGroup n.ns, fill := 64 }) s

/-- A chunk compared with the directory counted: a hit, or a miss and perhaps a collision. -/
def countChunk (s : State) (h : Half) (hit collide : Bool) : State :=
  if hit then bump (s.inc (.kv .KV_PFX_HIT) h 1) h 1 9 1
  else
    let s1 := bump (s.inc (.kv .KV_PFX_MISS) h 1) h 1 10 1
    if collide then s1.inc (.kv .KV_PFX_COLLIDE) h 1 else s1

/-! ### PREFIX_LOOKUP (R318, R319) -/

/-- The walk of full chunks: the state, the chunks matched, and the last node. -/
def pfxWalk (r : Request) (ns key : Nat) : Nat → Nat → Nat → Option Nat → List Nat → State → State × Nat × Option Nat
  | 0, c, _, parent, _, s => (s, c, parent)
  | fuel + 1, c, prev, parent, t, s =>
    if t.length < 64 ∨ mapNP r.header ≤ c then (s, c, parent)
    else
      let hash := chunkHash key prev (t.take 64)
      let q := findChunk s r.half ns hash parent (nodeCheck r.header parent (t.take 64))
      let s1 := countChunk s r.half q.1.isSome q.2
      match q.1 with
      | none => (s1, c, parent)
      | some n => pfxWalk r ns key fuel (c + 1) hash (some n.idx) (t.drop 64) (takeRef (mapNode s1 r n c) r n.idx)

/-- The longest partial leaf of a node that matches the tokens left (R319). -/
def findLeaf (s : State) (r : Request) (ns : Nat) (parent : Option Nat) (t : List Nat) : Option PfxNode :=
  let l := s.nodes.filter fun n => n.half == r.half && n.leaf && n.ns == ns && n.parent == parent &&
    decide (n.tokens.length ≤ t.length) && t.take n.tokens.length == n.tokens && n.check == nodeCheck r.header parent n.tokens
  firstBy (fun n => [64 - n.tokens.length, n.idx]) l

/-- A leaf's pages copied from index `i` on into slots of the request; the index reached, and what stopped it. -/
def copyLeaf (r : Request) (leaf : PfxNode) (chunk : Nat) : Nat → List (Nat × Nat) → State → State × Nat × Need
  | i, [], s => (s, i, .ready)
  | i, p :: rest, s => match allocSlot s r with
    | .got slot t =>
      let t1 := writePage t r.half slot (readPage t r (leaf.slots.getD i 0))
      let e : Entry := { Entry.absent with slot := slot, state := enHBM, flags := 1, fill := leaf.tokens.length }
      copyLeaf r leaf chunk (i + 1) rest (setEntry t1 r p.1 p.2 chunk e)
    | .wait t => (t, i, .wait)
    | .none t => (t, i, .fail ST_KV_NOSLOT)

/-- The end of a lookup: LEN of every layer, the result word, DETAIL (R318). -/
def endLookup (s : State) (c : Chain) (r : Request) (full part pages status : Nat) : State :=
  let s1 := (List.range (mapNL r.header)).foldl (fun t l => setLen t r l (64 * full + part)) s
  let word := leBytes 4 (64 * full + part) ++ leBytes 2 full ++ leBytes 1 part ++ leBytes 1 0
  let w := if kpAux c.head = 0 ∨ (c.cancelled ∧
    isHost (kpAux c.head) = true) then (ST_OK, s1) else writeAt s1 (engine c.half (ringFn c.ring)) (kpAux c.head) word
  onChain w.2 c fun d => { d.finish (if status = ST_OK then w.1 else status) with detail := pages, run := [] }

/-- The copies of a lookup's partial leaf go on; `c.run` holds the chunks matched and the leaf. -/
def lookupLeaf (s : State) (c : Chain) (r : Request) (full leaf : Nat) : State :=
  let pairs := pfxPairs r.header
  match s.nodes.find? fun n => n.half == r.half && n.idx == leaf with
  | none => endLookup s c r full 0 (full * pairs.length) ST_OK
  | some n =>
    let q := copyLeaf r n full c.work (pairs.drop c.work) s
    match q.2.2 with
    | .wait => onChain q.1 c fun d => { d with work := q.2.1 }
    | .fail st => endLookup (refNode q.1 r.half leaf false) c r full 0 (full * pairs.length + q.2.1) st
    | .ready => endLookup (refNode (useNode q.1 r.half leaf) r.half leaf false) c r full n.tokens.length ((full + 1) * pairs.length) ST_OK

/-- KV_PREFIX_LOOKUP (R318, R319). -/
def execKvPrefixLookup (h : Half) (ring seq : Nat) (s : State) : Res :=
  kvRun s h ring seq 9 fun c r =>
    let m := r.header
    if c.checked then lookupLeaf s c r (c.run.getD 0 0) (c.run.getD 1 0)
    else if mapPfxEn m = false ∨ ((List.range (mapNL m)).any fun l => layerLen s r l != 0) = true then endDetail s c ST_KV_STATE 0
    else
      let ns := namespaceOf s h r.fn
      match keyOf s h ns .pfx with
      | none => endDetail s c ST_KEY_MISSING 0
      | some key =>
        let t := pfxTokens s c
        if t.1 ≠ ST_OK then endDetail t.2.1 c t.1 0
        else
          let w := pfxWalk r ns key (t.2.2.length / 64 + 1) 0 (mapPfxNs m) none t.2.2 t.2.1
          match (if w.2.1 < mapNP m then findLeaf w.1 r ns w.2.2 (t.2.2.drop (64 * w.2.1)) else none) with
          | none => endLookup w.1 c r w.2.1 0 (w.2.1 * (pfxPairs m).length) ST_OK
          | some n =>
            let s1 := onChain (refNode w.1 h n.idx true) c fun d => { d with checked := true, run := [w.2.1, n.idx], work := 0 }
            lookupLeaf s1 { c with checked := true, run := [w.2.1, n.idx], work := 0 } r w.2.1 n.idx

/-! ### PREFIX_INSERT (R320) -/

/-- Room of a namespace for some slots: its quota, and free slots of the half. -/
def nsRoom (s : State) (h : Half) (ns n : Nat) : Bool :=
  let i := ns % 64
  if 0xC0 ≤ ns then decide (s.rd (.kv .KV_GRP_HELD) h i + n ≤ s.rd (.kv .KV_GRP_QUOTA) h i)
  else decide (s.rd (.kv .KV_PSTAT_HELD) h i + n ≤ s.rd (.kv .KV_QUOTA_QUOTA) h i)

/-- Runs of `2 ^ k` slots taken for a namespace, `n` of them; none where its quota or the half has no room. -/
def takeNs (h : Half) (ns k : Nat) : Nat → State × List Nat → Option (State × List Nat)
  | 0, a => some a
  | n + 1, a =>
    if nsRoom a.1 h ns (2 ^ k) = false then none
    else match pickFree a.1 (freeRuns a.1 h k) with
      | none => none
      | some i => takeNs h ns k n (takeSlots (drawFree a.1) h i (2 ^ k) ns, a.2 ++ [i])

/-- The reclaimable node that goes first for an insert, but for a node that must stay: of the half where the directory has no free node, of
the namespace where that lacks slots (R321; log entry 70). -/
def reclaimNext (s : State) (h : Half) (ns : Nat) (stay : Option Nat) : Option PfxNode :=
  let full := decide (32768 ≤ (s.nodes.filter fun n => n.half == h).length)
  lruNode (s.nodes.filter fun n => n.half == h && (full || n.ns == ns) && reclaimable s n && stay != some n.idx)

/-- An attempt repeated, with a node reclaimed before each further try (R321): the state, and whether an attempt succeeded. Nodes that
were reclaimed for an attempt that still fails stay reclaimed. -/
def withReclaim (h : Half) (ns : Nat) (stay : Option Nat) (f : State → Option State) : Nat → State → State × Bool
  | 0, s => match f s with
    | some t => (t, true)
    | none => (s, false)
  | n + 1, s => match f s with
    | some t => (t, true)
    | none => match reclaimNext s h ns stay with
      | some d => withReclaim h ns stay f n (dropNode s d)
      | none => (s, false)

/-- The lowest node index of a half not in use. -/
def freeNode (s : State) (h : Half) : Option Nat :=
  let used := (s.nodes.filter fun n => n.half == h).map (·.idx)
  (List.range (used.length + 1)).find? fun i => decide (i < 32768) && !(used.contains i)

/-- The page list of a node written into its slot: a slot index of 32 bits for each page (R320). -/
def writeList (s : State) (h : Half) (slot : Nat) (l : List Nat) : State :=
  s.store (slotAddr s h slot) (l.flatMap (leBytes 4))

/-- The slots of a request's pages of a chunk retagged to a namespace (R320). -/
def retag (s : State) (h : Half) (ns p k : Nat) (l : List Nat) : State :=
  if ns = partTag p then s
  else l.foldl (fun t i =>
    addHeld (addHeld (tagSlots t h i (2 ^ k) ns) h (partTag p) false (2 ^ k)) h ns true (2 ^ k)) s

/-- The request's own entries of a chunk set SHARED, with the node's group (R320). -/
def shareChunk (s : State) (r : Request) (ns chunk : Nat) : State :=
  (pfxPairs r.header).foldl (fun t p =>
    let e := entryOf t r p.1 p.2 chunk
    setEntry t r p.1 p.2 chunk { e with flags := e.flags ||| 4, pend := nsGroup ns }) s

/-- A full node made of a request's chunk, if there is room (R320). -/
def insertNode (r : Request) (ns hash check chunk : Nat) (parent : Option Nat) (t : List Nat) (s : State) : Option State :=
  let h := r.half
  let k := mapLog2 r.header
  let slots := (pfxPairs r.header).map fun p => (entryOf s r p.1 p.2 chunk).slot
  let moved := if ns = partTag r.fn then 0 else slots.length * 2 ^ k
  match freeNode s h with
  | none => none
  | some idx =>
    if nsRoom s h ns (moved + 1) = false then none
    else (takeNs h ns 0 1 (s, [])).map fun q =>
      let list := q.2.headD 0
      let n : PfxNode := { half := h, idx := idx, ns := ns, hash := hash, check := check, parent := parent, leaf := false, tokens := t,
                           slots := slots, slotLog2 := k, listSlot := some list, refs := 0, useMt := s.mt h }
      let s1 := writeList (retag q.1 h ns r.fn k slots) h list slots
      let s2 := refreshNodes { s1 with nodes := s1.nodes ++ [n] } h
      takeRef (shareChunk s2 r ns chunk) r idx

/-- A partial leaf made of the last positions, if there is room: its pages are copied (R319, R320). -/
def insertLeaf (r : Request) (ns check chunk : Nat) (parent : Option Nat) (t : List Nat) (s : State) : Option State :=
  let h := r.half
  let k := mapLog2 r.header
  let src := (pfxPairs r.header).map fun p => (entryOf s r p.1 p.2 chunk).slot
  if 4 ≤ (s.nodes.filter fun n => n.half == h && n.leaf && n.ns == ns && n.parent == parent).length then none
  else match freeNode s h with
    | none => none
    | some idx =>
      (takeNs h ns k src.length (s, [])).bind fun q => (takeNs h ns 0 1 (q.1, [])).map fun l =>
        let list := l.2.headD 0
        let s1 := (src.zip q.2).foldl (fun u p => writePage u h p.2 (readPage u r p.1)) l.1
        let n : PfxNode := { half := h, idx := idx, ns := ns, hash := 0, check := check, parent := parent, leaf := true, tokens := t,
                             slots := q.2, slotLog2 := k, listSlot := some list, refs := 0, useMt := s.mt h }
        let s2 := writeList s1 h list q.2
        refreshNodes { s2 with nodes := s2.nodes ++ [n] } h

/-- A leaf position freed under a node that has four: its least recently used leaf is reclaimed (R319, R321). -/
def leafRoom (s : State) (h : Half) (ns : Nat) (parent : Option Nat) : State :=
  let l := s.nodes.filter fun n => n.half == h && n.leaf && n.ns == ns && n.parent == parent
  if l.length < 4 then s
  else match lruNode (l.filter fun n => reclaimable s n) with
    | some d => dropNode s d
    | none => s

/-- The walk of an insert: the state, the pages inserted, the status, and the last node. -/
def insertWalk (r : Request) (ns key : Nat) : Nat → Nat → Nat → Option Nat → List Nat → State × Nat → State × Nat × Nat
  | 0, _, _, _, _, a => (a.1, a.2, ST_OK)
  | fuel + 1, c, prev, parent, t, a =>
    let m := r.header
    let s := a.1
    let pages := (pfxPairs m).length
    if t = [] then (s, a.2, ST_OK)
    else if t.length < 64 then
      let check := nodeCheck m parent t
      match withReclaim r.half ns parent (insertLeaf r ns check c parent t) s.nodes.length (leafRoom s r.half ns parent) with
        | (u, true) => (u, a.2 + pages, ST_OK)
        | (u, false) => (u, a.2, ST_PFX_FULL)
    else
      let e := entryOf s r 0 (mapPfxHead0 m) c
      let hash := chunkHash key prev (t.take 64)
      let check := nodeCheck m parent (t.take 64)
      let q := findChunk s r.half ns hash parent check
      match (if e.shared then nodeOf s r e.slot else none), q.1 with
      | some n, _ => insertWalk r ns key fuel (c + 1) hash (some n.idx) (t.drop 64) (useNode s r.half n.idx, a.2)
      | none, some n =>
        insertWalk r ns key fuel (c + 1) hash (some n.idx) (t.drop 64) ((useNode s r.half n.idx).inc (.kv .KV_PFX_DUP) r.half 1, a.2)
      | none, none =>
        let s0 := if q.2 then s.inc (.kv .KV_PFX_COLLIDE) r.half 1 else s
        match withReclaim r.half ns parent (insertNode r ns hash check c parent (t.take 64)) s0.nodes.length s0 with
        | (u, false) => (u, a.2, ST_PFX_FULL)
        | (u, true) =>
          let idx := (u.nodes.find? fun n => n.half == r.half && !n.leaf && n.ns == ns && n.hash == hash && n.parent == parent &&
            n.check == check).map (·.idx)
          insertWalk r ns key fuel (c + 1) hash idx (t.drop 64) (u, a.2 + pages)

/-- What PREFIX_INSERT requires of the request's pages (R320). -/
def insertOk (s : State) (c : Chain) (r : Request) : Bool :=
  let m := r.header
  let n := kpCount c.head
  mapPfxEn m && (List.range (mapNL m)).all (fun l => decide (n ≤ layerLen s r l)) &&
    (pfxPairs m).all fun p => (List.range (ceilDiv n 64)).all fun j =>
      let e := entryOf s r p.1 p.2 j
      e.own && (e.state == enHBM || e.shared)

/-- The pages that an insert retags or copies. -/
def insertPages (c : Chain) (r : Request) : List (Nat × Nat × Nat) :=
  (pfxPairs r.header).flatMap fun p => (List.range (ceilDiv (kpCount c.head) 64)).map fun j => (p.1, p.2, j)

/-- KV_PREFIX_INSERT (R320): nothing is inserted where a page lies out of the request's reach (R288). -/
def execKvPrefixInsert (h : Half) (ring seq : Nat) (s : State) : Res :=
  kvRun s h ring seq 10 fun c r =>
    if insertOk s c r = false then endDetail s c ST_KV_STATE 0
    else match outOfReach s r (insertPages c r) with
    | some i => endDetail (refusePage s r true i) c ST_HBM_FENCE 0
    | none =>
      let ns := namespaceOf s h r.fn
      match keyOf s h ns .pfx with
      | none => endDetail s c ST_KEY_MISSING 0
      | some key =>
        let t := pfxTokens s c
        if t.1 ≠ ST_OK then endDetail t.2.1 c t.1 0
        else
          let q := insertWalk r ns key (t.2.2.length / 64 + 2) 0 (mapPfxNs r.header) none t.2.2 (t.2.1, 0)
          endDetail q.1 c q.2.2 q.2.1

/-! ### FLUSH (R321) -/

/-- Reclaimable nodes of a half dropped until none is left. -/
def flushNodes (h : Half) : Nat → State → State
  | 0, s => s
  | n + 1, s => match lruNode (s.nodes.filter fun d => d.half == h && reclaimable s d) with
    | some d => flushNodes h n (dropNode s d)
    | none => s

/-- PFX_FLUSH (R321). -/
def execPfxFlush (h : Half) (s : State) : Res := .next (flushNodes h s.nodes.length s)

end Sys2Proof.Machine
end

