-- ==== Sys2Proof/Machine/Sched.lean ====
section
/-!
DEFINITION. Machine/Sched.lean: the hub scheduler: selection (R330, R336), targets and grants of context slots (R337, R338), the
standing contexts of URGENT rings (R334, R335), token budgets (R339 to R341), and the registers of §10.11.
-/

namespace Sys2Proof.Machine

/-! ### Budgets (R339 to R341) -/

/-- A partition charged: its balance falls unless BUDGET = 0, and the charge is counted; the operator is charged nothing. -/
def charge (s : State) (h : Half) (fn n : Nat) : State :=
  if fn = pf then s
  else
    let s1 := bumpPart (s.wr (.sched .CHARGED) h (s.rd (.sched .CHARGED) h fn + n) fn) h fn 0 n
    if s.rd (.sched .BUDGET_EFF) h fn = 0 then s1
    else s1.wr (.sched .BALANCE) h (unsignedOf 32 (balanceOf s h fn - n)) fn

/-- A charge added to a request's total. -/
def chargeRequest (s : State) (num n : Nat) : State :=
  match s.request num with
  | some r => if r.fn = pf then s else setRequest s num fun r => { r with charged := r.charged + n }
  | none => s

/-- The status a charged chain or step carries (R341). -/
def budgetStatus (s : State) (h : Half) (fn : Nat) (waited : Bool) : Nat :=
  if waited then ST_BUDGET_WAIT else if fn ≠ pf ∧ balanceOf s h fn < 0 then ST_BUDGET_DEBT else ST_OK

/-- A chain or step that was otherwise eligible found its gate closed. -/
def noteGate (s : State) (c : Chain) : State :=
  if c.gateWait then s
  else setChain (s.inc (.sched .BUDGET_WAITS) c.half 1 (ringFn c.ring)) c fun d => { d with gateWait := true }

/-- The number of the running window of 1 ms, from 1 on (R339). -/
def budgetWindow (s : State) (h : Half) : Nat := s.mt h / 1000000 + 1

/-- The balances at a window's start (R339, R340). -/
def refillAll (s : State) (h : Half) : State :=
  (List.range 65).foldl (fun t p =>
    let b := t.rd (.sched .BUDGET_CFG_BUDGET) h p
    let burst := t.rd (.sched .BUDGET_CFG_BURST) h p
    let t1 := (t.wr (.sched .BUDGET_EFF) h b p).wr (.sched .BURST_EFF) h burst p
    t1.wr (.sched .BALANCE) h (if b = 0 ∨ p = pf then 0 else unsignedOf 32 (min (balanceOf t h p + b) burst)) p) (clearCur s h)

/-- BUDGET_REFILL (R339, R340): the first HUB cycle of a window of 1 ms, which begins once. -/
def execBudgetRefill (h : Half) (s : State) : Res :=
  if s.rd (.sched .BUDGET_WIN) h = budgetWindow s h then .next s
  else .next (refillAll (s.wr (.sched .BUDGET_WIN) h (budgetWindow s h)) h)

/-! ### Heads and eligibility (§10.5) -/

/-- A KV_PAGE subop that is exclusive in its request (R297). -/
def exclusiveKv (b : List Byte) : Bool := hdOpcode b == opKV_PAGE && [1, 6, 7, 8, 9, 10].contains (fieldAt b 0x18 1)

/-- Another chain of the request read before a chain stands, where the chain or that one is exclusive (R297). -/
def kvHeld (s : State) (c : Chain) : Bool :=
  match c.requestNum with
  | none => false
  | some num => s.chains.any fun d => d.half == c.half && d.requestNum == some num && decide (d.readNo < c.readNo) &&
      (exclusiveKv c.head || exclusiveKv d.head)

/-- The entries of a chain's group: those read, or those that its entry list holds now. -/
def groupList (s : State) (c : Chain) : List (List Byte) :=
  if c.checked then c.run.map fun i => c.entries.getD i []
  else match extOf c kGROUP with
    | none => []
    | some g =>
      let n := fieldAt g 0x10 4
      let a := fieldAt g 8 8
      if accessStatus s (engine c.half (ringFn c.ring)) false a (16 * n) = ST_OK then
        ((List.range n).map fun i => s.mem.readN (a + 16 * i) 16).filter fun e => !(geSkip e)
      else []

/-- The adapter slots that a MATMUL or FUSED chain names, in its head or its entries (R344). Before its entries have been read they are
those of the list as it stands (DEDUCED, log entry 71). -/
def namedAdapters (s : State) (c : Chain) : List Nat :=
  if isNest c then (headAdapter s c).toList ++ (groupList s c).filterMap (entryAdapter s c) else []

/-- A running chain references an adapter slot. -/
def refsAdapter (s : State) (i : Nat) (d : Chain) : Bool := d.running && (namedAdapters s d).contains i

/-- The chain's adapter slots allow its admission (R343, R344). -/
def adapterFree (s : State) (c : Chain) : Bool :=
  if hdOpcode c.head = opADAPTER_LOAD then
    let i := fieldAt c.head 0x2C 2
    s.rd (.sched .ADP_SLOT_STATE) c.half i != 1 && !(s.chains.any fun d => d.half == c.half && refsAdapter s i d)
  else (namedAdapters s c).all fun i => s.rd (.sched .ADP_SLOT_STATE) c.half i != 1

/-- ORDER of a chain: every earlier chain of its ring has written its final record (R176). -/
def orderOk (s : State) (c : Chain) : Bool :=
  !(hdOrder c.head) || !(s.chains.any fun d => d.half == c.half && d.ring == c.ring && decide (d.readNo < c.readNo))

/-- A quiesced pool holds back new requests of its half (R48). -/
def quiesceHolds (s : State) (c : Chain) : Bool :=
  s.rd (.pkg .POOL_CTL_QUIESCE) c.half == 1 && hdOpcode c.head == opREQ_OPEN

/-- Nothing but R330 and a budget gate keeps a chain back: no quiesced pool, no ORDER, no exclusive KV_PAGE, no adapter load (R48, R176,
R297, R343, R344). -/
def unheld (s : State) (c : Chain) : Bool := !(quiesceHolds s c) && orderOk s c && !(kvHeld s c) && adapterFree s c

/-- A chain may be admitted but for its budget gate. -/
def otherwiseEligible (s : State) (c : Chain) : Bool :=
  c.stage == .eligible && !c.done && hdOpcode c.head != opCANCEL && requestAdmitted s c && unheld s c

/-- The head of a ring, if it is eligible, not kept back, and of a class. -/
def eligibleHead (s : State) (h : Half) (cls ring : Nat) : Option Chain :=
  (headOf s h ring).filter fun c => hdClass c.head == cls && eligible s c && unheld s c

/-- A party has an eligible head of a class. -/
def takesPart (s : State) (h : Half) (cls q : Nat) : Bool := (ringsOf q).any fun r => (eligibleHead s h cls r).isSome

/-- Chains of a half in the admission queue (R336). -/
def queueOf (s : State) (h : Half) : List Chain := s.chains.filter fun c => c.half == h && c.stage == .queued && !c.done

/-- The next number of the admission queue. -/
def nextQueueNo (s : State) : Nat := (s.chains.foldl (fun n c => max n c.queueNo) 0) + 1

/-! ### Targets (R337) -/

/-- A core of the package is in the core set of a function: the operator's holds every core. -/
def inCoreSet (s : State) (h : Half) (fn core : Nat) : Bool :=
  fn == pf || (s.rd (.sec .PART_CORES) h (8 * fn + core / 64)).testBit (core % 64)

/-- The target set of a ring: cores of the half that run, in ascending order (R101, R337). -/
def targetSet (s : State) (h : Half) (ring : Nat) : List Nat :=
  let l := (List.range 256).filter fun i => coreRuns s (256 * h.num + i) && inCoreSet s h (ringFn ring) (256 * h.num + i)
  let m := s.rd (.sched .RING_SCHED_CTX_MAX) h ring
  if m = 0 then l else l.take m

/-- Slot 1 of a core is bound to an URGENT ring (R334). -/
def boundCore (s : State) (h : Half) (core : Nat) : Bool :=
  (List.range ringCount).any fun r => s.rd (.sched .RING_SCHED_URG_EN) h r == 1 &&
    s.rd (.sched .RING_SCHED_URG_CORE) h r == 256 * h.num + core

/-- An ordinary slot that nobody holds: EMPTY, not reserved, not bound. -/
def freeOrdinary (s : State) (h : Half) (core slot : Nat) : Bool :=
  slotState s h core slot == 0 && !(slot == 1 && boundCore s h core) &&
    !(s.chains.any fun c => c.half == h && !c.done && c.held.contains (core, slot))

/-! ### Admission -/

/-- The output head table of a GEN_STEP breaks Table 10.5 (R346). -/
def genTableBad (b head : List Byte) : Bool :=
  let wf := fieldAt b 1 1
  let hf := fieldAt b 2 1
  let hid := fieldAt b 4 4
  let voc := fieldAt b 8 4
  let out := if fieldAt head 0x38 2 = 0 then voc * elemSize (fieldAt head 0x3A 1) else 16 + 8 * fieldAt head 0x38 2
  let wdata := fieldAt b 0x18 8
  fieldAt b 0 1 != 1 || decide (5 < wf ∨ wf = 3) || (hf != 4 && hf != 5) || fieldAt b 3 1 != 0 || hid % 32 != 0 ||
    decide (hid < 32 ∨ 65536 < hid ∨ voc < 1 ∨ 2 ^ 20 < voc) ||
    fieldAt b 0xC 4 % 64 != 0 || decide (fieldAt b 0xC 4 < hid * elemSize hf) ||
    fieldAt b 0x10 4 % 64 != 0 || decide (fieldAt b 0x10 4 < out) ||
    wdata % 256 != 0 || (match targetOf wdata with
      | .hbm _ => false
      | _ => true) || leNat (b.drop 0x20) != 0

/-- A chain admitted: its stage, the counts and samples of its admission, and what its opcode takes at admission (R338, R339,
R343). -/
def admitChain (s : State) (c : Chain) (cores : List Nat) : State :=
  let h := c.half
  let fn := ringFn c.ring
  let s1 := setChain s c fun d => { d with stage := .admitted, admitMt := s.mt h, held := [], cores := cores }
  let s2 := histSample (bumpPart s1 h fn 2 1) h (1 + hdClass c.head) fn ((s.mt h - c.readMt : Nat) : Int)
  let s3 := refreshFetched (logSched s2 h c.ring c.seq 2 (hdClass c.head) 0 0) h c.ring
  if hdOpcode c.head = opREQ_OPEN then
    let num := hdRequest c.head
    let s4 := setRequest s3 num fun r => { r with admitted := true, openMt := s.mt h }
    let n := fieldAt c.head 0x20 4
    let s5 := chargeRequest (charge s4 h fn n) num n
    let st := budgetStatus s5 h fn c.gateWait
    setChain s5 c fun d => { d with status := st }
  else if hdOpcode c.head = opADAPTER_LOAD then s3.wr (.sched .ADP_SLOT_STATE) h 1 (fieldAt c.head 0x2C 2)
  else s3

/-- A GEN_STEP's output head table read and checked at admission (R346): the chain fails, or keeps it. -/
def admitGen (s : State) (c : Chain) : Nat × State :=
  let q := readAt s (engine c.half (ringFn c.ring)) (fieldAt c.head 0x20 8) 64
  let st := if q.1 ≠ ST_OK then q.1 else if genTableBad q.2.2 c.head then ST_GEN_HEAD else ST_OK
  (st, setChain q.2.1 c fun d => { d with table := q.2.2 })

/-- The contexts of a chain loaded into the slots it holds, ranked by core (R242, R338). -/
def loadContexts (s : State) (c : Chain) (slots : List (Nat × Nat)) : State :=
  (slots.zip (List.range slots.length)).foldl (fun t p =>
    loadCtx t (newContext c.half p.1.1 p.1.2 c.ring (some c.readNo) false p.2 (s.mt c.half)) (hdRequest c.head)) s

/-- A compute chain admitted with a slot on every core of its target set; a step of GEN_STEP dispatched anew (R337, R338). -/
def admitCompute (s : State) (c : Chain) (slots : List (Nat × Nat)) : State :=
  let cores := slots.map (·.1)
  if c.stage = .admitted then
    loadContexts (setChain s c fun d => { d with held := [], cores := cores }) c slots
  else
    let s1 := admitChain s c cores
    if hdOpcode c.head = opGEN_STEP then
      let g := admitGen s1 c
      if g.1 ≠ ST_OK then setChain g.2 c fun d => d.finish g.1 else loadContexts g.2 c slots
    else loadContexts s1 c slots

/-- The standing context of a ring, if it is in place and runs no chain (R335). -/
def standingFree (s : State) (h : Half) (ring : Nat) : Option Context :=
  if s.rd (.sched .RING_SCHED_URG_READY) h ring = 1 then
    s.contexts.find? fun x => x.half == h && x.ring == ring && x.standing && x.chainNo.isNone
  else none

/-- An URGENT compute chain admitted into its ring's standing context (R335, R337). -/
def admitUrgent (s : State) (c : Chain) (x : Context) : State :=
  let s1 := admitChain s c [x.core]
  let s2 := setCtx s1 x.half x.core x.slot fun _ =>
    { newContext x.half x.core x.slot x.ring (some c.readNo) true 0 (s.mt c.half) with startMt := s.mt c.half }
  setSlotOwner s2 x.half x.core x.slot (ringFn c.ring) (hdRequest c.head)

/-- A queued chain that needs no more is admitted: one without contexts, one whose target set is empty, one with its slots
complete, an URGENT one whose standing context is free. A compute chain whose adapter is LOADING is not yet admitted, and keeps its slots
(R338, R344). -/
def tryAdmit (s : State) (c : Chain) : State :=
  if isCompute c.head = false then admitChain s c []
  else if adapterFree s c = false then s
  else if hdClass c.head = 0 then
    match standingFree s c.half c.ring with
    | some x => admitUrgent s c x
    | none => s
  else
    let t := targetSet s c.half c.ring
    let slots := t.filterMap fun k => c.held.find? fun p => p.1 == k
    if t = [] then setChain s c fun d => d.finish ST_SCHED_CONFIG
    else if slots.length = t.length then admitCompute s c slots
    else s

/-! ### Selection (R336) -/

/-- The party with the largest cur, ties to the lower index. -/
def bestParty (cur : Nat → Int) (l : List Nat) : Option Nat :=
  l.foldl (fun m q => match m with
    | none => some q
    | some b => if cur b < cur q then some q else some b) none

/-- The first ring of a party after its last chosen one, cyclically, whose head is eligible and of the class. -/
def nextRing (s : State) (h : Half) (cls q : Nat) : Option Chain :=
  (List.range 8).findSome? fun i => eligibleHead s h cls (fnRing q ((s.rd (.sched .LAST_RING) h q + i) % 8))

/-- One selection among the eligible heads of a class (R336): the sketch. -/
def selectIn (s : State) (h : Half) (cls : Nat) : State :=
  let qs := (List.range 65).filter fun q => takesPart s h cls q
  let weight (q : Nat) : Nat := s.rd (.sched .PARTY_CFG_WEIGHT) h q
  let cur (q : Nat) : Int := curOf s h cls q + weight q
  match bestParty cur qs with
  | none => s
  | some q =>
    let total : Nat := (qs.map weight).sum
    let s1 := qs.foldl (fun t p =>
      t.wr (.sched .CUR) h (unsignedOf 32 (if p = q then cur p - total else cur p)) (65 * cls + p)) s
    match nextRing s h cls q with
    | none => s1
    | some c =>
      let s2 := setChain (s1.wr (.sched .LAST_RING) h (ringNo c.ring + 1) q) c fun d =>
        { d with stage := .queued, queueNo := nextQueueNo s }
      match s2.chains.find? fun d => d.readNo == c.readNo with
      | some d => tryAdmit s2 d
      | none => s2

/-- Charged heads that found their gate closed are noted (R341). -/
def noteGates (s : State) (h : Half) : State :=
  (List.range ringCount).foldl (fun t r =>
    match headOf t h r with
    | some c => if isCharged c = true ∧ otherwiseEligible t c = true ∧ gateOpen t h (ringFn r) = false then noteGate t c else t
    | none => t) s

/-- The hub scheduler admits work: compute-ready has been reached, and the half is not in Lowland mode (R116, R121). -/
def admits (s : State) (h : Half) : Bool := s.rd (.boot .COMPUTE_READY_DONE) .h0 == 1 && !s.lowland h

/-- SCHED_SELECT (R330, R336, R337, R339, R341): one selection on a half. -/
def execSchedSelect (h : Half) (s : State) : Res :=
  if admits s h = false then .next s
  else
    let s1 := clearCur (noteGates s h) h
    if 256 ≤ (queueOf s h).length then .next s1
    else match (List.range 5).find? fun cls => (List.range 65).any fun q => takesPart s1 h cls q with
      | some cls => .next (clearCur (selectIn s1 h cls) h)
      | none => .next s1

/-! ### Grants (R338) -/

/-- The counter of step k of a GEN_STEP has reached WAIT_VAL + k, now or before; step 0's wait was satisfied before its admission
(R195, R347). -/
def stepReady (s : State) (c : Chain) : Bool := c.progress == 0 || decide (c.progress < max c.stepMet (c.stepsDue s))

/-- A GEN_STEP between two steps, whose next step may start (R347). -/
def betweenSteps (s : State) (c : Chain) : Bool :=
  c.running && hdOpcode c.head == opGEN_STEP && c.gen.isNone && !c.cancelled && decide (0 < c.progress) &&
    (ctxsOf s c.readNo).isEmpty && (!c.held.isEmpty || (stepReady s c && gateOpen s c.half (ringFn c.ring)))

/-- A chain that needs an ordinary slot of a core. -/
def needsCore (s : State) (core : Nat) (c : Chain) : Bool :=
  isCompute c.head && hdClass c.head != 0 && ((c.stage == .queued && !c.done) || betweenSteps s c) &&
    (targetSet s c.half c.ring).contains core && !(c.held.any fun p => p.1 == core)

/-- The chain that a slot of a core goes to: lowest class code, then the earliest queued. -/
def grantTo (s : State) (h : Half) (core : Nat) : Option Chain :=
  firstBy (fun c => [hdClass c.head, c.queueNo]) (s.chains.filter fun c => c.half == h && needsCore s core c)

/-- SLOT_GRANT (R335, R337, R338): an EMPTY ordinary slot goes to the queued chain that comes first, which is admitted once it
holds a slot on every core of its target set, and for the slot of a chain that holds it already the chain is admitted if nothing keeps it
back any more; a standing context that waits takes its ring's next URGENT chain. -/
def execSlotGrant (h : Half) (core : Nat) (slot : Fin 2) (s : State) : Res :=
  if admits s h = false then .next s
  else if freeOrdinary s h core slot then
    match grantTo s h core with
    | none => .next s
    | some c =>
      let s1 := setChain s c fun d => { d with held := d.held ++ [(core, slot.val)] }
      match s1.chains.find? fun d => d.readNo == c.readNo with
      | some d => .next (clearCur (tryAdmit s1 d) h)
      | none => .next s1
  else
    match ctxAt s h core slot with
    | some x =>
      if x.standing then
        match firstBy (fun c => [c.queueNo]) ((queueOf s h).filter fun c =>
            c.ring == x.ring && hdClass c.head == 0 && isCompute c.head) with
        | some c => .next (clearCur (tryAdmit s c) h)
        | none => .next s
      else .next s
    | none => match s.chains.find? fun c => c.half == h && !c.done && c.held.contains (core, slot.val) with
      | some c => .next (clearCur (tryAdmit s c) h)
      | none => .next s

/-- URGENT_STANDING_DISPATCH (R335): the standing context of an enabled ring enters slot 1 of URG_CORE once it is EMPTY. -/
def execUrgentStandingDispatch (h : Half) (ring : Nat) (s : State) : Res :=
  let core := s.rd (.sched .RING_SCHED_URG_CORE) h ring % 256
  if admits s h = true ∧ ring < ringCount ∧ s.rd (.sched .URG_WANT) h ring = 1 ∧ ringSt s h ring ≠ 0 ∧
      coreRuns s (256 * h.num + core) = true ∧ slotState s h core 1 = 0 ∧
      (s.chains.any fun c => c.half == h && !c.done && c.held.contains (core, 1)) = false then
    let s1 := loadCtx s (newContext h core 1 ring none true 0 (s.mt h)) 0
    .next ((s1.wr (.sched .RING_SCHED_URG_READY) h 1 ring).wr (.sched .URG_WANT) h 0 ring)
  else .next s

/-! ### Registers (R334, R340, R342, R357, R358) -/

/-- The outcome of a write of §10 noted. -/
def schedStatus (s : State) (h : Half) (st : Nat) : State := s.wr (.sched .SCHED_STATUS_LAST_STATUS) h st

/-- The binding of a RING_SCHED value is accepted (R334). -/
def bindingOk (s : State) (h : Half) (ring v : Nat) : Bool :=
  let core := bitsAt v 24 9
  if v.testBit 40 then
    decide (core / 256 = h.num) && coreUsable s core && inCoreSet s h (ringFn ring) core &&
      (List.range ringCount).all fun r => r == ring ||
        !(s.rd (.sched .RING_SCHED_URG_EN) h r == 1 && s.rd (.sched .RING_SCHED_URG_CORE) h r == core)
  else !(v.testBit 0)

/-- RING_SCHED_WRITE (R334, R358). -/
def execRingSchedWrite (h : Half) (ring v : Nat) (s : State) : Res :=
  if ringCount ≤ ring then .next s
  else
    let st := if ringSt s h ring ≠ 0 then ST_RING_BUSY
      else if 256 < bitsAt v 8 9 ∨ bindingOk s h ring v = false then ST_SCHED_CONFIG else ST_OK
    let s1 := schedStatus s h st
    if st = ST_OK then
      let s2 := (s1.wr (.sched .RING_SCHED_URG_EN) h (bitsAt v 40 1) ring).wr (.sched .RING_SCHED_URG_CORE) h (bitsAt v 24 9) ring
      .next ((s2.wr (.sched .RING_SCHED_CTX_MAX) h (bitsAt v 8 9) ring).wr (.sched .RING_SCHED_CLASS_MASK) h (bitsAt v 0 5) ring)
    else .next s1

/-- BUDGET_CFG_WRITE (R340). -/
def execBudgetCfgWrite (h : Half) (p : Fin 65) (v : Nat) (s : State) : Res :=
  if bitsAt v 32 26 < bitsAt v 0 24 then .next (schedStatus s h ST_SCHED_CONFIG)
  else .next (((schedStatus s h ST_OK).wr (.sched .BUDGET_CFG_BURST) h (bitsAt v 32 26) p).wr (.sched .BUDGET_CFG_BUDGET) h
    (bitsAt v 0 24) p)

/-- PARTY_CFG_WRITE (Table 10.10). -/
def execPartyCfgWrite (h : Half) (q : Fin 65) (v : Nat) (s : State) : Res :=
  if bitsAt v 0 8 = 0 then .next (schedStatus s h ST_SCHED_CONFIG)
  else .next ((schedStatus s h ST_OK).wr (.sched .PARTY_CFG_WEIGHT) h (bitsAt v 0 8) q)

/-- ADP_ALLOC_WRITE (R342). -/
def execAdpAllocWrite (h : Half) (p : Fin 65) (base count : Nat) (s : State) : Res :=
  if locked s h then .next s
  else
    let st := allotStatus s h p base count 1024 1024 (.sched .ADP_ALLOC_BASE) (.sched .ADP_ALLOC_COUNT)
    let s1 := schedStatus s h st
    if st = ST_OK then .next ((s1.wr (.sched .ADP_ALLOC_BASE) h base p).wr (.sched .ADP_ALLOC_COUNT) h count p) else .next s1

end Sys2Proof.Machine
end

