-- ==== Sys2Proof/Machine/Gen.lean ====
section
/-!
DEFINITION. Machine/Gen.lean: local generation (R346 to R349, R352), copies (R187, R190 to R192), and adapters (R343).
-/

namespace Sys2Proof.Machine

/-! ### The steps of GEN_STEP (R347 to R349) -/

/-- The sequences of a GEN_STEP: its entries that are run, or its head's request alone, with the request's number and the
offsets of the sequence's hidden row and output (R347). -/
def genSeqs (c : Chain) : List (Nat × Nat × Nat × Nat) :=
  if c.grouped then c.run.map fun i =>
    let e := c.entries.getD i []
    (i, geSel e % 8192, geOff0 e, geOff2 e)
  else [(0, hdRequest c.head, 0, 0)]

/-- The status of a GEN_STEP entry (Table 5.10). -/
def genEntryStatus (c : Chain) (s : State) (e : List Byte) : Nat :=
  match s.request (geSel e % 8192) with
  | none => ST_GROUP_ENTRY
  | some r =>
    if geOff1 e ≠ 0 ∨ geDim e ≠ 1 ∨ bitsAt (geSel e) 13 2 ≠ 0 ∨ r.half ≠ c.half ∨ r.fn ≠ ringFn c.ring ∨ r.closing = true then
      ST_GROUP_ENTRY
    else ST_OK

/-- The first LEN tokens of a stop sequence, oldest first. -/
def stopTokens (b : List Byte) (i : Nat) : List Nat :=
  let len := fieldAt b (0x20 + 20 * i) 1
  if 1 ≤ len ∧ len ≤ 4 then (List.range len).map fun k => fieldAt b (0x24 + 20 * i + 4 * k) 4 else []

/-- The lowest stop sequence that the last tokens appended match, `n` of them having been appended (R348). -/
def stopMatch (b : List Byte) (last : List Nat) (n : Nat) : Option Nat :=
  (List.range (min 8 (fieldAt b 8 1))).find? fun i =>
    let t := stopTokens b i
    t != [] && decide (t.length ≤ n) && last.drop (last.length - t.length) == t

/-- What a stop entry becomes at the start of a step: STATE, MATCH, HSEQ and HIST (R348). -/
structure StopOut where
  state : Nat
  matched : Nat
  hseq : Nat
  hist : List Nat
  missing : Bool
deriving DecidableEq, Repr

/-- The stop entry of a sequence whose request has produced `g` outputs and may produce `maxNew` (R348): its token is appended, or missing,
whatever STATE it has. -/
def stopStep (b : List Byte) (g maxNew : Nat) : StopOut :=
  let tseq := fieldAt b 4 4
  let hseq := fieldAt b 0xC 4
  let hist := [fieldAt b 0x10 4, fieldAt b 0x14 4, fieldAt b 0x18 4]
  let o : StopOut := ⟨fieldAt b 9 1, fieldAt b 0xA 1, hseq, hist, false⟩
  let o1 :=
    if tseq = g ∧ hseq < g then
      let last := hist ++ [fieldAt b 0 4]
      match stopMatch b last g with
      | some i => ⟨1, i, g, last.drop 1, false⟩
      | none => { o with hseq := g, hist := last.drop 1 }
    else if hseq < g ∧ tseq ≠ g then { o with state := 3, missing := true }
    else o
  if o1.state = 0 ∧ maxNew ≤ g then { o1 with state := 2 } else o1

/-- The device's fields of a stop entry written. -/
def writeStop (s : State) (w : Who) (a : Nat) (o : StopOut) : Nat × State :=
  let q := writeAt s w (a + 9) (leBytes 1 o.state ++ leBytes 1 o.matched)
  if q.1 ≠ ST_OK then q else writeAt q.2 w (a + 0xC) (leBytes 4 o.hseq ++ o.hist.flatMap (leBytes 4))

/-- STOP_ON_ERR of a chain's group (R192). -/
def stopsOnErr (c : Chain) : Bool := (fieldAt ((extOf c kGROUP).getD []) 0x14 1).testBit 0

/-- One sequence at the start of a step: it runs, it stops, or it fails (R348); with STOP_ON_ERR none starts after a failure (R192). -/
def startSeq (c : Chain) (p : State × GenStep) (q : Nat × Nat × Nat × Nat) : State × GenStep :=
  let stopAt := fieldAt c.head 0x30 8
  let w := engine c.half (ringFn c.ring)
  let s := p.1
  let g := p.2
  if stopsOnErr c = true ∧ g.fails ≠ [] then (s, g)
  else if stopAt = 0 then (s, { g with seqs := g.seqs ++ [q.1] })
  else
    let a := stopAt + (if c.grouped then q.1 else 0) * 256
    let d := readAt s w a 256
    if d.1 ≠ ST_OK then (d.2.1, { g with fails := g.fails ++ [(q.1, d.1)] })
    else
      let r := d.2.1.request q.2.1
      let o := stopStep d.2.2 ((r.map (·.outputs)).getD 0) ((r.map (·.maxNew)).getD 0)
      let v := writeStop d.2.1 w a o
      let t := if o.state = 0 then v.2 else setRequest v.2 q.2.1 fun r => { r with stopped := true }
      if v.1 ≠ ST_OK then (t, { g with fails := g.fails ++ [(q.1, v.1)] })
      else if o.state = 0 then (t, { g with seqs := g.seqs ++ [q.1] })
      else (t, { g with stops := g.stops + bit (fieldAt d.2.2 9 1 == 0),
                        fails := if o.missing then g.fails ++ [(q.1, ST_GEN_TOKEN)] else g.fails })

/-- The entries of a group that later steps run: with STOP_ON_ERR those not started after a failure never start (R192). -/
def cutRun (c : Chain) (fails : List (Nat × Nat)) : List Nat :=
  match fails with
  | f :: _ => if stopsOnErr c then c.run.takeWhile (· ≠ f.1) else c.run
  | [] => c.run

/-- A step started: stop entries, then the charge of one token per sequence that runs (R339, R347, R348). -/
def startGen (s : State) (c : Chain) : State :=
  let fn := ringFn c.ring
  let q := (genSeqs c).foldl (startSeq c) (s, ⟨ST_OK, [], 0, []⟩)
  let s1 := charge q.1 c.half fn q.2.seqs.length
  let s2 := ((genSeqs c).filter fun x => q.2.seqs.contains x.1).foldl (fun t x => chargeRequest t x.2.1 1) s1
  let st := if c.gateWait then ST_BUDGET_WAIT else if q.2.seqs = [] then ST_OK else budgetStatus s2 c.half fn false
  setChain s2 c fun d =>
    { d with gen := some { q.2 with status := st }, gateWait := false, run := if c.grouped then cutRun c q.2.fails else d.run }

/-- STEPS of a GEN_STEP. -/
def genSteps (c : Chain) : Nat := fieldAt c.head 0x3B 1

/-- A GEN_STEP ended: the status of its lowest failing sequence, and the steps it has completed (R189, R349). -/
def endGen (s : State) (c : Chain) (steps : Nat) : State :=
  let s1 := dropCtxs s fun x => x.chainNo == some c.readNo
  setChain s1 c fun d =>
    let st := (firstBy (fun p : Nat × Nat => [p.1]) d.fails).map (·.2)
    { d.finish (if d.status = ST_OK then st.getD ST_OK else d.status) with detail := steps, gen := none }

/-- The remaining records of a cancelled GEN_STEP written with ST_CANCELLED and zero outputs, and the chain ended (R352). -/
def cancelGen (s : State) (c : Chain) : State :=
  let ks := (List.range (genSteps c)).drop c.progress
  endGen (ks.foldl (fun t k => genRecord t c ST_CANCELLED (k * 2 ^ 24)) s) c c.progress

/-- GEN_STEP_START (R339, R341, R347, R348): the next step of an admitted GEN_STEP starts, when its counter has reached
WAIT_VAL + k, its gate is open and its contexts are in place; the entries of its group are read at the first. None starts while dispatch
is stopped (R62, R64). -/
def execGenStepStart (h : Half) (ring seq : Nat) (s : State) : Res :=
  runChain s h ring seq opGEN_STEP fun c =>
    if c.gen.isSome then s
    else if c.cancelled then cancelGen s c
    else if stepReady s c = false ∨ s.dispatchOff h = true then s
    else if gateOpen s h (ringFn ring) = false then noteGate s c
    else if (ctxsOf s c.readNo).isEmpty then s
    else if c.grouped ∧ c.checked = false then
      let s1 := beginGroup s c geSkip (genEntryStatus c)
      match s1.chain h ring seq with
      | some d => clearCur (startGen s1 d) h
      | none => s1
    else clearCur (startGen s c) h

/-! ### Outputs (R347) -/

/-- The head table of a GEN_STEP (Table 10.5). -/
def genHid (c : Chain) : Nat := fieldAt c.table 4 4
def genVocab (c : Chain) : Nat := fieldAt c.table 8 4

/-- The logits of a hidden row: SCALE × (h × Wᵀ) in FP32, token by token. -/
def genLogits (x : Context) (c : Chain) (row : Groups) (r : Run) : Run × List Nat :=
  let wf := fieldAt c.table 1 1
  let mw : Mat := ⟨wf, .memory, fieldAt c.table 0x18 8, genVocab c, genHid c, genHid c * elemSize wf⟩
  let scale := if fieldAt c.table 0x14 4 = 0 then f32One else fieldAt c.table 0x14 4
  (List.range (genVocab c)).foldl (fun q v =>
    let d := q.1.row x mw v 0 (genHid c)
    (d.1, q.2 ++ [f32Mul scale (accGroups 0 row d.2)])) (r, [])

/-- A candidate put at its place among the best, in descending logit and ascending token order (R347). -/
def putCand (b : Nat × Nat) : List (Nat × Nat) → List (Nat × Nat)
  | [] => [b]
  | d :: r => if f32Key d.2 < f32Key b.2 then b :: d :: r else d :: putCand b r

/-- The `t` largest logits with their tokens. -/
def topK (t : Nat) (l : List Nat) : List (Nat × Nat) :=
  ((List.range l.length).zip l).foldl (fun m b => (putCand b m).take t) []

/-- The bytes of an output, and the conversions' counts. Bytes 12 to 15 of a candidate header are not stated: a free value. -/
def genOutput (s : State) (c : Chain) (l : List Nat) : Converted :=
  let t := fieldAt c.head 0x38 2
  if t = 0 then convRow (fieldAt c.head 0x3A 1) l
  else
    let best := topK t l
    let v := f32Result (logSumExp l :: rowMax l :: best.map (·.2))
    ⟨v.data.take 8 ++ leBytes 4 t ++ leBytes 4 (Config.freeValue s.freeCount) ++
      ((List.range best.length).flatMap fun i => leBytes 4 ((best.getD i (0, 0)).1) ++ (v.data.drop (8 + 4 * i)).take 4), [], v.sat, v.nan⟩

/-- One sequence of a step computed and written by a context (R347); a cancelled chain's host output is not issued (R352). -/
def genSeq (x : Context) (c : Chain) (r : Run) (q : Nat × Nat × Nat × Nat) : Run :=
  let k := c.progress
  let hf := fieldAt c.table 2 1
  let mh : Mat := ⟨hf, .memory, fieldAt c.head 0x18 8 + q.2.2.1 + k * fieldAt c.table 0xC 4, 1, genHid c, genHid c * elemSize hf⟩
  let o := fieldAt c.head 0x28 8 + q.2.2.2 + k * fieldAt c.table 0x10 4
  let r0 := r.ctx x fun d => { d with entry := some q.1 }
  let row := r0.row x mh 0 0 (genHid c)
  let l := genLogits x c row.2 row.1
  let v := genOutput l.1.s c l.2
  let r1 := l.1.map fun s => countNum (drawFree s) x v.sat v.nan
  let r2 := if c.cancelled ∧ isHost o = true then r1 else r1.write x o v.data
  r2.map fun s => setRequest s q.2.1 fun r => { r with outputs := r.outputs + 1 }

/-- What the sequences of a step have come to: the state, how many have produced output, and the failures, with the first failed access. -/
structure GenOut where
  s : State
  made : Nat
  fails : List (Nat × Nat)
  first : Option Failed
deriving DecidableEq, Repr

/-- The sequences of a step one after another: one whose access fails takes the status and the others run, unless STOP_ON_ERR is 1
(R192, R347). -/
def genAll (x : Context) (c : Chain) : List (Nat × Nat × Nat × Nat) → GenOut → GenOut
  | [], o => o
  | q :: rest, o =>
    if stopsOnErr c = true ∧ o.fails ≠ [] then o
    else
      let r := genSeq x c ⟨o.s, none⟩ q
      match r.fail with
      | none => genAll x c rest { o with s := r.s, made := o.made + 1 }
      | some f => genAll x c rest { o with s := r.s, fails := o.fails ++ [(q.1, f.status)], first := some (o.first.getD f) }

/-- The end of a step: its record, then its contexts leave their slots; after the last step the chain ends (R349). A failed access has
faulted the context (R489, R514), which ends the chain after the step's record. -/
def endGenStep (s : State) (c : Chain) (x : Context) (g : GenStep) (o : GenOut) : State :=
  let now := g.fails ++ o.fails
  let fails := (if c.progress = 0 then c.fails else []) ++ now
  let st := ((firstBy (fun p : Nat × Nat => [p.1]) fails).map (·.2)).getD g.status
  let detail := c.progress * 2 ^ 24 + min 4095 o.made * 2 ^ 12 + min 4095 g.stops
  let s1 := setChain (genRecord s c st detail) c fun d =>
    { d with gen := none, progress := c.progress + 1, detail := c.progress + 1, queueNo := nextQueueNo s,
             fails := d.fails ++ now.filter fun p => !(d.fails.any fun q => q.1 == p.1) }
  let s2 := match o.first with
    | some f => ctxAccessFail s1 ((ctxAt s1 x.half x.core x.slot).getD x) f.write f.status f.addr f.len
    | none => s1
  let s3 := dropCtxs s2 fun x => x.chainNo == some c.readNo
  match s3.chains.find? fun d => d.readNo == c.readNo with
  | none => s3
  | some d =>
    if genSteps c ≤ d.progress ∨ o.first.isSome = true then endGen s3 d d.progress
    else if d.cancelled then cancelGen s3 d
    else s3

/-- GEN_STEP (R347 to R349, R352): the step in progress is computed, its outputs are written, and its record follows them. It is compute
work, which waits while dispatch is stopped (R62, R64). -/
def execGenStep (h : Half) (ring seq : Nat) (s : State) : Res :=
  runChain s h ring seq opGEN_STEP fun c =>
    if s.dispatchOff h then s
    else match c.gen, (ctxsOf s c.readNo).head? with
    | some g, some x =>
      let o := genAll x c ((genSeqs c).filter fun q => g.seqs.contains q.1) ⟨s, 0, [], none⟩
      match o.s.chain h ring seq with
      | some d => endGenStep o.s d x g o
      | none => o.s
    | _, _ => s

/-! ### COPY -/

/-- One copy, or one fill with zeros: its status and the state after it. -/
def copyOnce (c : Chain) (src dst len : Nat) (s : State) : Nat × State :=
  let w := engine c.half (ringFn c.ring)
  let q := if (fieldAt c.head 0x30 1).testBit 0 then (ST_OK, s, zeros len) else readAt s w src len
  if q.1 ≠ ST_OK then (q.1, q.2.1)
  else if c.cancelled ∧ isHost dst = true then (ST_OK, q.2.1)
  else writeAt q.2.1 w dst q.2.2

/-- The status of a COPY entry (Table 5.10). -/
def copyEntryStatus (_s : State) (e : List Byte) : Nat := if geOff1 e ≠ 0 ∨ geSel e ≠ 0 then ST_GROUP_ENTRY else ST_OK

/-- The entries of a COPY's group copied in order; with STOP_ON_ERR nothing after the first failure is (R191, R192). -/
def copyEntries (c : Chain) (stop : Bool) : List Nat → State → State
  | [], s => s
  | i :: r, s =>
    let e := c.entries.getD i []
    let q := copyOnce c (fieldAt c.head 0x18 8 + geOff0 e) (fieldAt c.head 0x20 8 + geOff2 e) (64 * geDim e) s
    if q.1 = ST_OK then copyEntries c stop r q.2
    else
      let t := setChain q.2 c fun d => { d with fails := d.fails ++ [(i, q.1)] }
      if stop then t else copyEntries c stop r t

/-- The pool class of a copy: Pass staging where its source lies in one half's HBM and its destination in the other's, and miscellaneous
DMA otherwise (Table 1.7). -/
def copyClass (c : Chain) : Nat :=
  match targetOf (fieldAt c.head 0x18 8), targetOf (fieldAt c.head 0x20 8) with
  | .hbm j, .hbm k => if j ≠ k ∧ (fieldAt c.head 0x30 1).testBit 0 = false then 5 else 6
  | _, _ => 6

/-- COPY (R187, R190 to R192), with a granule of its class (R46). -/
def execCopy (h : Half) (ring seq : Nat) (s : State) : Res :=
  runHub s h ring seq opCOPY fun c => withGranule s h (copyClass c) fun s =>
    if c.grouped then
      let s1 := beginGroup s c geSkip copyEntryStatus
      match s1.chain h ring seq with
      | some d => settleChain (copyEntries d (stopsOnErr c) d.run s1) c.readNo
      | none => s1
    else
      let q := copyOnce c (fieldAt c.head 0x18 8) (fieldAt c.head 0x20 8) (fieldAt c.head 0x28 8) s
      endChain q.2 c q.1

/-! ### ADAPTER_LOAD (R343) -/

/-- Bytes of an adapter matrix of `r` rows of `l` elements (R213). -/
def adapterBytes (fmt r l : Nat) : Nat :=
  if fmt = 0 then roundUp (r * l / 2) 256 + ceilDiv (r * l) 32 else r * l * elemSize fmt

/-- A region header does not agree with its descriptor, or its matrices do not fit in LEN (R343, Table 10.4). -/
def adapterBad (b head : List Byte) : Bool :=
  let len := fieldAt head 0x28 4
  let rank := fieldAt head 0x2E 2
  let fmt := fieldAt head 0x30 1
  let k := fieldAt b 4 4
  let n := fieldAt b 8 4
  let d := fieldAt b 0x14 4
  let u := fieldAt b 0x18 4
  fieldAt b 0 4 != 1 || fieldAt b 0xC 2 != rank || fieldAt b 0xE 1 != fmt || fmt == 3 || fmt == 6 ||
    d % 256 != 0 || u % 256 != 0 || decide (len < d + adapterBytes fmt rank k) || decide (len < u + adapterBytes fmt n rank) ||
    (fmt == 0 && (k % 32 != 0 || rank % 32 != 0))

/-- ADAPTER_LOAD (R343): with a granule of the miscellaneous DMA class the region is copied and its header checked; the slot becomes READY,
or EMPTY. -/
def execAdapterLoad (h : Half) (ring seq : Nat) (s : State) : Res :=
  runHub s h ring seq opADAPTER_LOAD fun c => withGranule s h 6 fun s =>
    let i := fieldAt c.head 0x2C 2
    let w := engine h (ringFn ring)
    let dst := fieldAt c.head 0x20 8
    let q := readAt s w (fieldAt c.head 0x18 8) (fieldAt c.head 0x28 4)
    let v := if q.1 ≠ ST_OK then (q.1, q.2.1) else writeAt q.2.1 w dst q.2.2
    let st := if v.1 ≠ ST_OK then v.1 else if adapterBad (q.2.2.take 256) c.head then ST_ADAPTER_FIT else ST_OK
    if st = ST_OK then
      let s1 := (v.2.wr (.sched .ADP_SLOT_STATE) h 2 i).wr (.sched .ADP_SLOT_FMT) h (fieldAt c.head 0x30 1) i
      endChain ((s1.wr (.sched .ADP_SLOT_RANK) h (fieldAt c.head 0x2E 2) i).wr (.sched .ADP_SLOT_DST) h (dst / 256) i) c ST_OK
    else endChain (v.2.wr (.sched .ADP_SLOT_STATE) h 0 i) c st

end Sys2Proof.Machine
end

