-- ==== Sys2Proof/Machine/Egress.lean ====
section
/-!
DEFINITION. Machine/Egress.lean: the egress port (R422 to R424), ship plans (R425, R434), streams and their held pages (R426,
R427, R429, R430), datagrams and their protection (R431 to R437), acknowledgement, retransmission and rates (R440 to R444), and
the ends of a stream (R445 to R447).
-/

namespace Sys2Proof.Machine

/-! ### Ship plans (Table 13.7) -/

/-- A field of a plan. -/
def planAt (s : State) (h : Half) (k off n : Nat) : Nat := s.plans.readLE ((h.num * 256 + k) * 128 + off) n
def planBit (s : State) (h : Half) (k b : Nat) : Bool := (planAt s h k 0 4).testBit b
def planValid (s : State) (h : Half) (k : Nat) : Bool := planBit s h k 31
def planV6 (s : State) (h : Half) (k : Nat) : Bool := planBit s h k 29
def planMaxRate (s : State) (h : Half) (k : Nat) : Nat := planAt s h k 0x28 2
def planMinRate (s : State) (h : Half) (k : Nat) : Nat := planAt s h k 0x2A 2
def planRtoMax (s : State) (h : Half) (k : Nat) : Nat := planAt s h k 0x36 2 * 1000
def planRtoMin (s : State) (h : Half) (k : Nat) : Nat := planAt s h k 0x34 2 * 1000
def planRetxMax (s : State) (h : Half) (k : Nat) : Nat := planAt s h k 0xB 1

/-- C: bytes of a chunk (R432). -/
def planChunk (s : State) (h : Half) (k : Nat) : Nat := if planBit s h k 26 then 8192 else 4096

/-- A plan's largest IP packet (R434). -/
def planPacket (s : State) (h : Half) (k : Nat) : Nat := (if planV6 s h k then 40 else 20) + 8 + 32 + planChunk s h k + 16

/-- Every valid plan's largest packet fits an MTU. -/
def plansFit (s : State) (h : Half) (mtu : Nat) : Bool :=
  (List.range 256).all fun k => !(planValid s h k) || decide (planPacket s h k ≤ mtu)

/-- A value lies in a range. -/
def within (lo x hi : Nat) : Bool := decide (lo ≤ x ∧ x ≤ hi)

/-- The conditions for V = 1 (R425). -/
def planOk (s : State) (h : Half) (k : Nat) : Bool :=
  let f := planAt s h k
  within 1 (f 6 2) 65535 && within 1 (f 8 2) 65280 && within 1 (f 0xA 1) 255 && within 1 (f 0xB 1) 15 &&
    within 1 (f 0x28 2) 8000 && within 1 (f 0x2A 2) 8000 && within 1 (f 0x2C 2) 8000 &&
    within 1 (f 0x2E 2) 4096 && within 1 (f 0x30 2) 4096 &&
    within 10 (f 0x32 2) 65535 && within 10 (f 0x34 2) 65535 && within 10 (f 0x36 2) 65535 &&
    decide (f 0x2A 2 ≤ f 0x2C 2 ∧ f 0x2C 2 ≤ f 0x28 2) && decide (f 0x34 2 ≤ f 0x32 2 ∧ f 0x32 2 ≤ f 0x36 2) &&
    (planV6 s h k || f 0x1C 8 == 0 && f 0x24 4 == 0) && decide (planPacket s h k ≤ s.rd (.egr .EGR_PORT_CFG_MTU) h)

/-- The bits of a 4-byte word of a plan that are not rsvd. -/
def planMask (off : Nat) : Nat :=
  if off = 0 then 0xFC3FFC00 else if off = 4 then 0xFFFFEFFF else if off = 0xC ∨ off = 0x38 ∨ off = 0x3C ∨ 0x60 ≤ off then 0
  else if off = 0x14 then 0xFFFF else 0xFFFFFFFF

/-- The outcome of a write of §13 noted. -/
def egrStatus (s : State) (h : Half) (st : Nat) : State := s.wr (.egr .EGR_STATUS_LAST_STATUS) h st

/-- SHIP_PLAN_WRITE (R425): one 4-byte word of a plan. -/
def execShipPlanWrite (h : Half) (k : Fin 256) (word : Fin 32) (v : Nat) (s : State) : Res :=
  let off := 4 * word.val
  let a := (h.num * 256 + k.val) * 128 + off
  let x := v &&& planMask off
  let s1 := { s with plans := s.plans.writeN a (leBytes 4 x) }
  let clears := off == 0 && !(x.testBit 31)
  let used := s.streams.any fun y => y.half == h && y.plan == k.val
  if planValid s h k then
    if clears = false ∨ used = true then .next (egrStatus s h ST_EGR_BUSY) else .next (egrStatus s1 h ST_OK)
  else if off = 0 ∧ x.testBit 31 = true ∧ planOk s1 h k = false then .next (egrStatus s h ST_EGR_CONFIG)
  else .next (egrStatus s1 h ST_OK)

/-! ### Streams -/

/-- Streams of a party that have not ended, in EGR_PSTAT. -/
def refreshOpen (s : State) (h : Half) (party : Nat) : State :=
  s.wr (.egr .EGR_PSTAT_OPEN) h (s.streams.filter fun x => x.half == h && x.party == party).length party

/-- Granules of the Egress class that the cells do not need any more, of `before` cells, released (R440, R445, R448). -/
def egressGive (s : State) (h : Half) (before : Nat) : State :=
  let now := ceilDiv (egressCells s h) 7
  let k := min (ceilDiv before 7 - now) (poolInUse s h 1 - now)
  if k = 0 then s else giveGranules s h 1 k

/-- A stream ENDED with a final status (R445): its pages and its staging are released and its context is free. -/
def endStream (s : State) (x : Stream) (status : Nat) : State :=
  let s1 := { s with streams := s.streams.filter fun y => !(y.half == x.half && y.ctx == x.ctx) }
  let s2 := ((s1.wr (.egr .STREAM_ST0_V) x.half 0 x.ctx).wr (.egr .STREAM_ST0_STATE) x.half 3 x.ctx).wr (.egr .STREAM_ST2_STATUS)
    x.half status x.ctx
  freeOrphans (egressGive (refreshOpen s2 x.half x.party) x.half (egressCells s x.half)) x.half

/-- A stream refused or failed (R447): its event, its counts, and its status for the request's close record (R204). -/
def failStream (s : State) (x : Stream) (status : Nat) : State :=
  let s1 := postEvent (endStream s x status) x.half x.party status (s.mt x.half) x.id
  let s2 := raiseCause (s1.inc (.egr .EGR_STREAM_FAIL) x.half 1) 9 x.half 4
  setRequest s2 x.request fun r => if r.firstBad.isNone then { r with firstBad := some status } else r

/-- The key and the IV base of a stream (R435). -/
def streamKey (s : State) (x : Stream) : Option (List Nat × List Nat) :=
  (keyOf s x.half x.party .egress).map fun k =>
    let salt := toNats (s.plans.readN ((x.half.num * 256 + x.plan) * 128 + 0x40) 32)
    let okm := hkdf384 (keyBytes k) salt (asciiBytes "zenuxus ship v1" ++ toNats (leBytes 4 x.id)) 44
    (okm.take 32, okm.drop 32)

/-- The nonce of a datagram: the IV base with bytes 4 to 11 XORed with a number (R436). -/
def dgramNonce (iv : List Nat) (v : Nat) : List Nat := iv.take 4 ++ xorBytes (iv.drop 4) (toNats (leBytes 8 v))

/-! ### SHIP (R426, R427, R429) -/

/-- The effective plan of a SHIP, if it may use it (R426). -/
def shipPlan (s : State) (c : Chain) (r : Request) : Option Nat :=
  let p := fieldAt c.head 0x18 2
  let k := if p = 0xFFFF then r.plan else p
  let fn := ringFn c.ring
  if 256 ≤ k ∨ planValid s c.half k = false then none
  else if (if fn = pf then planBit s c.half k 30 else !(planBit s c.half k 30) && bitsAt (planAt s c.half k 0 4) 16 6 == fn) then some k
  else none

/-- A new stream of a SHIP (R427, R441, R443). -/
def newStream (s : State) (c : Chain) (ctx k : Nat) : Stream :=
  { half := c.half, ctx := ctx, party := ringFn c.ring, id := fieldAt c.head 0x20 4, request := hdRequest c.head, plan := k,
    cls := hdClass c.head, state := 0, status := ST_OK, pages := [], nextPage := 0, dgrams := [], nextSeq := 0, endQueued := false,
    endSent := false, una := 0, ackNo := 0, ceSeen := 0, limit := planAt s c.half k 0x2E 2, srtt := 0, rttvar := 0,
    rto := planAt s c.half k 0x32 2 * 1000, rttV := false, rate := planAt s c.half k 0x2C 2, decMt := 0,
    incMt := s.mt c.half, bucket := 65536 * 80, bucketMt := s.mt c.half }

/-- The stream a SHIP joins or opens: its status, the state, and the stream's context (R427). -/
def shipStream (s : State) (c : Chain) (k : Nat) : Nat × State × Nat :=
  let h := c.half
  let p := ringFn c.ring
  let id := fieldAt c.head 0x20 4
  match s.streams.find? fun x => x.half == h && x.party == p && x.id == id with
  | some x =>
    if x.state = 0 ∧ x.request = hdRequest c.head ∧ x.plan = k then (ST_OK, s, x.ctx) else (ST_STREAM_STATE, s, 0)
  | none =>
    if id < s.rd (.egr .EGR_PSTAT_STREAM_NEXT) h p ∨ s.rd (.egr .STREAM_DONE) h p = 1 then (ST_STREAM_STATE, s, 0)
    else match pickFree s ((List.range 1024).filter fun i => (streamAt s h i).isNone) with
      | none => (ST_STREAM_FULL, s, 0)
      | some ctx =>
        if (keyOf s h p .egress).isNone then (ST_KEY_MISSING, s, 0)
        else
          let s1 := (drawFree s).wr (.egr .EGR_PSTAT_STREAM_NEXT) h ((id + 1) % 2 ^ 32) p
          let s2 := if id = 2 ^ 32 - 1 then s1.wr (.egr .STREAM_DONE) h 1 p else s1
          (ST_OK, refreshOpen { s2 with streams := s2.streams ++ [newStream s c ctx k] } h p, ctx)

/-- A page put at the end of a stream's queue. -/
def pushPage (s : State) (h : Half) (ctx : Nat) (p : ShipPage) : State :=
  setStream s h ctx fun x => { x with pages := x.pages ++ [{ p with no := x.nextPage }], nextPage := x.nextPage + 1 }

/-- How many chunks a page of a request takes on a plan (R432). -/
def pageChunks (s : State) (r : Request) (k : Nat) (evicted : Bool) : Nat :=
  if evicted then 1 else max 1 (ceilDiv (pageBytes r.header) (planChunk s r.half k))

/-- A page of a SHIP by its entry's state, or none when it is skipped (Table 13.2). -/
def shipPage (s : State) (c : Chain) (r : Request) (k l g j : Nat) : Option ShipPage :=
  let e := entryOf s r l g j
  let ev := e.state == enEVICTED
  let mk (slot : Option Nat) (wait : Bool) : ShipPage :=
    { no := 0, layer := l, head := g, page := j, slot := slot, slotLog2 := mapLog2 r.header, fill := e.fill, evicted := ev,
      waiting := wait, chunks := pageChunks s r k ev, sent := 0, acked := 0, ship := c.readNo, shipMt := c.admitMt }
  if e.state = enHBM then some (mk (some e.slot) false)
  else if ev then some (mk none false)
  else if e.state = enSPILLING ∨ e.state = enVALLEY ∨ e.state = enFETCHING then some (mk none true)
  else none

/-- The pages of a SHIP queued in order, up to a BAD one or one out of the request's reach (R288): the state, how many, and the status. -/
def shipPages (c : Chain) (r : Request) (k ctx : Nat) : List (Nat × Nat × Nat) → State × Nat → State × Nat × Nat
  | [], a => (a.1, a.2, ST_OK)
  | q :: rest, a =>
    if (entryOf a.1 r q.1 q.2.1 q.2.2).state = enBAD then (a.1, a.2, ST_VALLEY_AUTH)
    else match outOfReach a.1 r [q] with
    | some i => (refusePage a.1 r false i, a.2, ST_HBM_FENCE)
    | none => match shipPage a.1 c r k q.1 q.2.1 q.2.2 with
      | some p => shipPages c r k ctx rest (pushPage a.1 r.half ctx p, a.2 + 1)
      | none => shipPages c r k ctx rest a

/-- The pages that a SHIP covers (R429). -/
def shipCover (m b : List Byte) : List (Nat × Nat × Nat) :=
  let l0 := fieldAt b 0x1A 2
  let p0 := fieldAt b 0x24 4
  pagesOf ((List.range (fieldAt b 0x1C 2)).map (l0 + ·)) (List.range (mapNKV m)) (p0 / 64) (ceilDiv (p0 + fieldAt b 0x28 4) 64)

/-- One queued page of a stream changed, or taken out. -/
def editPage (s : State) (h : Half) (ctx no : Nat) (f : ShipPage → Option ShipPage) : State :=
  setStream s h ctx fun x => { x with pages := x.pages.filterMap fun p => if p.no = no then f p else some p }

/-- What a chain has made of its waiting pages: still waiting, or over with a status. -/
structure ShipWait where
  s : State
  waits : Bool
  gone : Nat
  status : Nat
  /-- the page whose failure ended the SHIP: no later page of it is queued -/
  cut : Option Nat
deriving DecidableEq, Repr

/-- A waiting page fails: the SHIP ends with a status at it. -/
def ShipWait.failAt (a : ShipWait) (s : State) (no status : Nat) : ShipWait := { a with s := s, status := status, cut := some no }

/-- A waiting page looked at again: it is queued once it is in HBM, prefetched from VALLEY, and dropped when it is gone; a BAD
page ends the SHIP (Table 13.2). -/
def shipResolve (c : Chain) (r : Request) (ctx : Nat) (a : ShipWait) (p : ShipPage) : ShipWait :=
  let s := a.s
  let h := r.half
  let e := entryOf s r p.layer p.head p.page
  let join := joinTransfer s r p.layer p.head p.page c.readNo
  if a.status ≠ ST_OK then a
  else if e.state = enHBM ∧ pageReach s r e.slot = false then a.failAt (refusePage s r false e.slot) p.no ST_HBM_FENCE
  else if e.state = enHBM then
    { a with s := editPage s h ctx p.no fun q => some { q with slot := some e.slot, fill := e.fill, waiting := false } }
  else if e.state = enFETCHING ∨ e.state = enSPILLING then { a with s := join, waits := true }
  else if e.state = enVALLEY then
    if s.hostOk h r.fn = false then a.failAt s p.no ST_HOST_LINK_DOWN
    else if (keyOf s h r.fn .valley).isNone then a.failAt s p.no ST_KEY_MISSING
    else match allocSlot s r with
      | .got slot t => { a with s := startFetch t r p.layer p.head p.page slot 1 [c.readNo], waits := true }
      | .wait t => { a with s := t, waits := true }
      | .none t => a.failAt t p.no ST_KV_NOSLOT
  else if e.state = enEVICTED then
    { a with s := editPage s h ctx p.no fun q => some { q with evicted := true, chunks := 1, fill := e.fill, waiting := false } }
  else if e.state = enBAD then a.failAt s p.no ST_VALLEY_AUTH
  else { a with s := editPage s h ctx p.no fun _ => none, gone := a.gone + 1 }

/-- A SHIP taken: its pages are queued on its stream, which FINAL ends (R426, R427, R429). -/
def shipTake (s : State) (c : Chain) (r : Request) : State :=
  if r.paused then endDetail s c ST_KV_PAUSED 0 else
  match shipPlan s c r with
  | none => endDetail s c ST_SHIP_PLAN 0
  | some k =>
    let o := shipStream s c k
    if o.1 ≠ ST_OK then endDetail o.2.1 c o.1 0
    else
      let q := shipPages c r k o.2.2 (shipCover r.header c.head) (o.2.1, 0)
      let s1 := if (fieldAt c.head 0x2C 1).testBit 0 then
          setStream q.1 c.half o.2.2 fun x => { x with state := 1, endQueued := true }
        else q.1
      showStreams (setChain s1 c fun d => { d.fail q.2.2 with checked := true, progress := q.2.1, work := o.2.2 })

/-- A taken SHIP goes on: its record is written once its pages are queued and held (R429). -/
def shipGo (s : State) (c : Chain) (r : Request) : State :=
  match streamAt s c.half c.work with
  | none => endDetail s c c.status c.progress
  | some x =>
    let mine := x.pages.filter fun p => p.ship == c.readNo && p.waiting
    let a := mine.foldl (shipResolve c r c.work) ⟨s, false, 0, ST_OK, none⟩
    let o : ShipWait := match a.cut, streamAt a.s c.half c.work with
      | some no, some y => let q := cutPages a.s c y no; { a with s := q.1, gone := a.gone + q.2 }
      | _, _ => a
    let s1 := setChain o.s c fun d => { d.fail o.status with progress := c.progress - o.gone }
    if o.waits then s1 else showStreams (setChain s1 c fun d => { d.finish d.status with detail := c.progress - o.gone })

/-- SHIP (R426, R427, R429). -/
def execShip (h : Half) (ring seq : Nat) (s : State) : Res :=
  runHub s h ring seq opSHIP fun c =>
    match s.request (hdRequest c.head) with
    | none => endChain s c ST_OK
    | some r =>
      if c.cancelled then endDetail s c ST_OK c.progress
      else if c.checked then shipGo s c r
      else
        let s1 := shipTake s c r
        match s1.chain h ring seq with
        | some d => endsNow (if d.done then s1 else shipGo s1 d r) d
        | none => s1

/-! ### Frames (R422, R431, R432) -/

/-- The ones' complement sum of 16-bit big-endian words. -/
def onesSum : List Nat → Nat
  | a :: b :: r => let x := a * 256 + b + onesSum r; x % 65536 + x / 65536
  | [a] => a * 256
  | [] => 0

/-- The Internet checksum of bytes. -/
def inetSum (l : List Nat) : Nat := 65535 - onesSum l

/-- The bytes of a register, lowest first: EGR_MAC, EGR_IP4 and EGR_IP6 in the order they stand on the wire. -/
def wireMac (s : State) (h : Half) : List Nat := toNats (leBytes 6 (s.rd (.egr .EGR_MAC) h))
def wireIp4 (s : State) (h : Half) : List Nat := toNats (leBytes 4 (s.rd (.egr .EGR_IP4) h))
def wireIp6 (s : State) (h : Half) : List Nat :=
  toNats (leBytes 8 (s.rd (.egr .EGR_IP6_LO) h) ++ leBytes 8 (s.rd (.egr .EGR_IP6_HI) h))

/-- Bytes of a plan on the wire. -/
def planBytes (s : State) (h : Half) (k off n : Nat) : List Nat := toNats (s.plans.readN ((h.num * 256 + k) * 128 + off) n)

/-- The UDP datagram of a payload, with its checksum over the pseudo-header (R422). -/
def udpBytes (src dst : List Nat) (sport dport : Nat) (pay : List Nat) : List Nat :=
  let n := 8 + pay.length
  let ports := beBytes 2 sport ++ beBytes 2 dport ++ beBytes 2 n
  let pseudo := src ++ dst ++ (if src.length = 4 then [0, 17] ++ beBytes 2 n else beBytes 4 n ++ [0, 0, 0, 17])
  let c := inetSum (pseudo ++ ports ++ [0, 0] ++ pay)
  ports ++ beBytes 2 (if c = 0 then 65535 else c) ++ pay

/-- The frame that carries a payload of a stream; `ect` marks it ECT(0). The IPv4 identification and the IPv6 flow label are not
stated: a free value. -/
def frameOf (s : State) (x : Stream) (pay : List Nat) (ect : Bool) : List Byte :=
  let h := x.half
  let k := x.plan
  let v6 := planV6 s h k
  let src := if v6 then wireIp6 s h else wireIp4 s h
  let dst := planBytes s h k 0x18 (if v6 then 16 else 4)
  let udp := udpBytes src dst (planAt s h k 8 2 + x.id % 256) (planAt s h k 6 2) pay
  let tos := bitsAt (planAt s h k 0 4) 10 6 * 4 + (if ect then 2 else 0)
  let free := Config.freeValue s.freeCount
  let ip4 (sum : Nat) : List Nat :=
    [0x45, tos] ++ beBytes 2 (20 + udp.length) ++ beBytes 2 free ++ [0x40, 0, planAt s h k 0xA 1, 17] ++ beBytes 2 sum ++ src ++ dst
  let ip6 := beBytes 4 (6 * 2 ^ 28 + tos * 2 ^ 20 + free % 2 ^ 20) ++ beBytes 2 udp.length ++ [17, planAt s h k 0xA 1] ++ src ++ dst
  let ip := if v6 then ip6 else ip4 (inetSum (ip4 0))
  let vlan := if planBit s h k 28 then [0x81, 0] ++ beBytes 2 (planAt s h k 4 2) else []
  toBytes (planBytes s h k 0x10 6 ++ wireMac s h ++ vlan ++ (if v6 then [0x86, 0xDD] else [8, 0]) ++ ip ++ udp)

/-- PARTITION of a datagram. -/
def dgramParty (x : Stream) : Nat := if x.party = pf then 0x80 else 64 * x.half.num + x.party

/-- The header of a datagram (Tables 13.3, 13.4). -/
def dgramHeader (s : State) (x : Stream) (d : Dgram) (p : Option ShipPage) (m : List Byte) (len : Nat) : List Nat :=
  let flags := match p with
    | some q => if q.evicted then 2 else 0
    | none => 0
  let fields := match p with
    | some q => leBytes 2 q.layer ++ leBytes 1 q.head ++ leBytes 1 q.fill ++ leBytes 4 q.page ++ leBytes 1 d.chunk ++
        leBytes 1 q.chunks ++ leBytes 2 len ++ leBytes 1 (mapFmt m * 16 + fieldAt m 2 1 % 16) ++ leBytes 1 (dgramParty x) ++ zeros 2
    | none => zeros 16
  [1, d.type, flags, d.tries] ++ toNats (leBytes 4 x.id ++ leBytes 4 d.seq ++ leBytes 4 (s.mt x.half) ++ fields)

/-- The body of a DATA datagram: its chunk of the held page (R432). -/
def dgramBody (s : State) (x : Stream) (p : ShipPage) (chunk b : Nat) : List Byte :=
  match p.slot with
  | some i =>
    let c := planChunk s x.half x.plan
    s.mem.readN (slotAddr s x.half i + chunk * c) (min c (b - chunk * c))
  | none => []

/-- The UDP payload of a datagram: header, ciphertext, tag (R431, R436). -/
def dgramPayload (s : State) (x : Stream) (d : Dgram) : List Nat :=
  let m := ((s.request x.request).map (·.header)).getD []
  let p := if d.type = 0 then x.pages.find? fun q => q.no == d.page else none
  let body := match p with
    | some q => dgramBody s x q d.chunk (pageBytes m)
    | none => []
  let hd := dgramHeader s x d p m body.length
  match streamKey s x with
  | some k =>
    let e := gcmSeal k.1 (dgramNonce k.2 (d.type * 2 ^ 56 + d.seq * 2 ^ 8 + d.tries)) hd (toNats body)
    hd ++ e.1 ++ e.2
  | none => hd

/-! ### Sending (R433, R441, R443, R444) -/

/-- The bits, in tenths, that a frame takes from the bucket: FCS, preamble and inter-frame gap counted. -/
def frameCost (frame : List Byte) : Nat := (frame.length + 24) * 80

/-- The bucket at a time (R443). -/
def fillBucket (s : State) (x : Stream) : Stream :=
  { x with bucket := min (65536 * 80) (x.bucket + x.rate * (s.mt x.half - x.bucketMt)), bucketMt := s.mt x.half }

/-- The datagram a stream would send next: a retransmission, the next chunk, END or CANCEL; whether it is a new SEQ. -/
def nextDgram (s : State) (x : Stream) : Option (Dgram × Bool) :=
  let now := s.mt x.half
  let new (type page chunk : Nat) : Option (Dgram × Bool) :=
    if x.nextSeq < x.limit then some (⟨x.nextSeq, type, page, chunk, 0, now, false, false⟩, true) else none
  let again := firstBy (fun d : Dgram => [d.seq]) (x.dgrams.filter fun d => d.resend && (x.state != 2 || d.type == 2))
  match again with
  | some d => some ({ d with tries := d.tries + 1, sentMt := now, resend := false }, false)
  | none =>
    if x.state = 2 then (if x.endSent then none else new 2 0 0)
    else match x.pages.find? fun p => decide (p.sent < p.chunks) with
      | some p => if p.waiting then none else new 0 p.no p.sent
      | none => if x.endQueued ∧ x.endSent = false then new 1 0 0 else none

/-- The frame of a stream's next datagram, when its bucket holds it (R443). -/
def readyFrame (s : State) (x : Stream) : Option (Dgram × Bool × List Byte) :=
  match nextDgram s x with
  | none => none
  | some d =>
    let f := frameOf s x (dgramPayload s x d.1) (planBit s x.half x.plan 27 && d.1.type == 0)
    if frameCost f ≤ (fillBucket s x).bucket then some (d.1, d.2, f) else none

/-- A free cell of the Egress class, with a further granule where the cells are full and one can be had (R448). -/
def egressCell (s : State) (h : Half) : Option State :=
  if egressCells s h < 7 * poolInUse s h 1 then some s else takeGranules s h 1 1 none

/-- A datagram's frame sent and counted (Tables 13.8 and 17.2). -/
def emitFrame (s : State) (h : Half) (frame : List Byte) : State :=
  let s1 := (drawFree s).emit (.egress h frame)
  let s2 := (s1.inc (.egr .EGR_TX_DGRAMS) h 1).inc (.egr .EGR_TX_BYTES) h frame.length
  bump (bump s2 h 3 5 1) h 3 6 frame.length

/-- A frame sent for a stream (R433); its cell keeps the copy until it is acknowledged (R448). -/
def sendFrame (s : State) (x : Stream) (d : Dgram) (new : Bool) (frame : List Byte) : State :=
  let y := fillBucket s x
  let s3 := emitFrame s x.half frame
  let s4 := if new then s3 else bump (s3.inc (.egr .EGR_RETX) x.half 1) x.half 3 7 1
  let s5 := setStream s4 x.half x.ctx fun _ =>
    { y with
      bucket := y.bucket - frameCost frame
      dgrams := if new then y.dgrams ++ [{ d with staged := true }]
        else y.dgrams.map fun e => if e.seq = d.seq then { d with staged := true } else e
      nextSeq := if new then y.nextSeq + 1 else y.nextSeq
      endSent := y.endSent || d.type != 0
      pages := if new ∧ d.type = 0 then y.pages.map fun p => if p.no = d.page then { p with sent := p.sent + 1 } else p else y.pages }
  showStreams (s5.wr (.egr .EGR_LAST) x.half (x.ctx + 1))

/-- Place of a stream context in the turn after the one last served (R444). -/
def turnOf (s : State) (x : Stream) : Nat := (x.ctx + 1024 - s.rd (.egr .EGR_LAST) x.half) % 1024

/-- DATAGRAM_SEND (R433, R443, R444, R448): the engine sends one datagram of the stream that comes first. A datagram without a cell needs
one; a stream that finds none waits for a granule. -/
def execDatagramSend (h : Half) (s : State) : Res :=
  if s.rd (.egr .EGR_CTL_EN) h = 0 ∨ s.rd (.egr .EGR_STATUS_LINK_UP) h = 0 then .next s
  else
    let s0 := egressSettle s h
    let cell := egressCell s0 h
    let due := s0.streams.filter fun x => x.half == h && (readyFrame s0 x).isSome
    let ready := due.filter fun x => cell.isSome || (match readyFrame s0 x with
      | some q => q.1.staged
      | none => false)
    match firstBy (fun x => [x.cls, turnOf s0 x]) ready with
    | none => .next (if due.isEmpty then s0 else waitGranules s0 h 1 1 none)
    | some x =>
      match readyFrame s0 x with
      | some q => .next (sendFrame (if q.1.staged then s0 else cell.getD s0) x q.1 q.2.1 q.2.2)
      | none => .next s0

/-! ### The port (R423, R424) -/

/-- PTP runs on a half (R460): SEL = PTP, PTP_CFG.EN = 1 and EGR_CTL.EN = 1. -/
def ptpOn (s : State) (h : Half) : Bool :=
  s.rd (.tim .TIME_CTL_SEL) h == 1 && s.rd (.tim .PTP_CFG_EN) h == 1 && s.rd (.egr .EGR_CTL_EN) h == 1

/-- The PTP port after a change of what it needs: LISTENING when it starts to run, DISABLED and without foreign
timeTransmitters when it does not (R460, Table 14.9). -/
def ptpRefresh (s : State) (h : Half) : State :=
  if ptpOn s h then
    if s.rd (.tim .PTP_STATUS_PORT_STATE) h = 0 then s.wr (.tim .PTP_STATUS_PORT_STATE) h 1 else s
  else { s.wr (.tim .PTP_STATUS_PORT_STATE) h 0 with ptp := s.ptp.filter fun m => m.half != h }

/-- EGR_ENABLE (R423). -/
def execEgrEnable (h : Half) (s : State) : Res :=
  if s.rd (.boot .MGMT_READY) h = 0 then .next s
  else if s.lowland h then .next (egrStatus s h ST_LOWLAND)
  else if s.rd (.egr .EGR_CTL_EN) h = 1 then .next (egrStatus s h ST_OK)
  else
    let noIp := s.rd (.egr .EGR_IP4) h = 0 ∧ s.rd (.egr .EGR_IP6_LO) h = 0 ∧ s.rd (.egr .EGR_IP6_HI) h = 0
    if s.rd (.egr .EGR_MAC) h = 0 ∨ noIp ∨ plansFit s h (s.rd (.egr .EGR_PORT_CFG_MTU) h) = false then
      .next (egrStatus s h ST_EGR_CONFIG)
    else .next (ptpRefresh (((egrStatus s h ST_OK).wr (.egr .EGR_CTL_EN) h 1).wr (.egr .EGR_STATUS_ENABLED) h 1) h)

/-- The port's link goes down: the event, if it was up. -/
def egrLinkDown (s : State) (h : Half) : State :=
  if s.rd (.egr .EGR_STATUS_LINK_UP) h = 1 then raiseCause (s.wr (.egr .EGR_STATUS_LINK_UP) h 0) 9 h 2 else s

/-- The port closed, its link down. -/
def egrClose (s : State) (h : Half) : State :=
  egrLinkDown (ptpRefresh ((s.wr (.egr .EGR_CTL_EN) h 0).wr (.egr .EGR_STATUS_ENABLED) h 0) h) h

/-- EGR_DISABLE (R423 "At the edges"): every open stream of the half fails with ST_EGR_DOWN; refused in Lowland mode (R123). -/
def execEgrDisable (h : Half) (s : State) : Res :=
  if s.lowland h then .next (egrStatus s h ST_LOWLAND)
  else if s.rd (.egr .EGR_CTL_EN) h = 0 then .next (egrStatus s h ST_OK)
  else
    let s1 := (s.streams.filter fun x => x.half == h).foldl (fun t x => failStream t x ST_EGR_DOWN) s
    .next (egrClose (egrStatus s1 h ST_OK) h)

/-- EGR_CONFIG_WRITE (R423, Table 13.8; refused in Lowland mode: DESIGN CHOICE, log entry 92): 0 EGR_MAC, 1 EGR_IP4, 2 EGR_IP6_LO, 3
EGR_IP6_HI, 4 EGR_PORT_CFG, 5 EGR_CC, 6 EGR_CC2. -/
def execEgrConfigWrite (h : Half) (reg : Fin 7) (v : Nat) (s : State) : Res :=
  let busy := decide (reg.val ≤ 4) && s.rd (.egr .EGR_CTL_EN) h == 1
  let bad := (reg.val == 4 && !(within 1280 (bitsAt v 0 14) 9000)) ||
    (reg.val == 5 && (bitsAt v 16 16 == 0 || bitsAt v 8 8 == 0 || !(within 1 (bitsAt v 4 4) 8)))
  if s.lowland h then .next (egrStatus s h ST_LOWLAND)
  else if busy then .next (egrStatus s h ST_EGR_BUSY)
  else if bad then .next (egrStatus s h ST_EGR_CONFIG)
  else
    let s1 := egrStatus s h ST_OK
    .next (match reg.val with
      | 0 => s1.wr (.egr .EGR_MAC) h v
      | 1 => s1.wr (.egr .EGR_IP4) h v
      | 2 => s1.wr (.egr .EGR_IP6_LO) h v
      | 3 => s1.wr (.egr .EGR_IP6_HI) h v
      | 4 => (s1.wr (.egr .EGR_PORT_CFG_RX_UDP) h (bitsAt v 16 16)).wr (.egr .EGR_PORT_CFG_MTU) h (bitsAt v 0 14)
      | 5 => ((s1.wr (.egr .EGR_CC_INC_PERIOD) h (bitsAt v 16 16)).wr (.egr .EGR_CC_INC_STEP) h (bitsAt v 8 8)).wr
          (.egr .EGR_CC_CE_CUT) h (bitsAt v 4 4)
      | _ => s1.wr (.egr .EGR_CC2_ECN_HOLD) h (bitsAt v 0 16))

/-- EGR_LINK_CHANGE (R423): the PHY's link comes up on an enabled port, or goes down. -/
def execEgrLinkChange (h : Half) (up : Bool) (s : State) : Res :=
  if up then
    if s.rd (.egr .EGR_CTL_EN) h = 1 ∧ s.rd (.egr .EGR_STATUS_LINK_UP) h = 0 then
      .next (raiseCause (s.wr (.egr .EGR_STATUS_LINK_UP) h 1) 9 h 1)
    else .next s
  else .next (egrLinkDown s h)

/-- The source address and the UDP payload of a received frame that R424 hands to the engine. -/
def acceptFrame (s : State) (h : Half) (frame : List Nat) : Option (List Nat × List Nat) :=
  let f := if (frame.drop 12).take 2 = [0x81, 0] then frame.take 12 ++ frame.drop 16 else frame
  let ty := (f.drop 12).take 2
  let ip := f.drop 14
  let udpOf (src dst rest : List Nat) (n : Nat) : Option (List Nat × List Nat) :=
    let u := rest.take n
    let len := beNat ((u.drop 4).take 2)
    let pseudo := src ++ dst ++ (if src.length = 4 then [0, 17] ++ beBytes 2 len else beBytes 4 len ++ [0, 0, 0, 17])
    if 8 ≤ len ∧ len ≤ u.length ∧ beNat ((u.drop 2).take 2) = s.rd (.egr .EGR_PORT_CFG_RX_UDP) h ∧ beNat ((u.drop 6).take 2) ≠ 0 ∧
        onesSum (pseudo ++ u.take len) = 65535 then some (src, (u.take len).drop 8)
    else none
  if f.take 6 ≠ wireMac s h then none
  else if ty = [8, 0] then
    let dst := (ip.drop 16).take 4
    if ip.headD 0 = 0x45 ∧ beNat ((ip.drop 6).take 2) % 2 ^ 14 = 0 ∧ ip.getD 9 0 = 17 ∧ dst = wireIp4 s h ∧ beNat dst ≠ 0 then
      udpOf ((ip.drop 12).take 4) dst (ip.drop 20) (beNat ((ip.drop 2).take 2) - 20)
    else none
  else if ty = [0x86, 0xDD] then
    let dst := (ip.drop 24).take 16
    if ip.headD 0 / 16 = 6 ∧ ip.getD 6 0 = 17 ∧ dst = wireIp6 s h ∧ beNat dst ≠ 0 then
      udpOf ((ip.drop 8).take 16) dst (ip.drop 40) (beNat ((ip.drop 4).take 2))
    else none
  else none

/-- Bytes of the longest frame, without its FCS (R422). -/
def frameMax : Nat := 9022

/-- EGR_FRAME_RECEIVE (R424): a frame received on the egress port, PTP frames apart: an ACK or RESET is handed to the engine,
every other frame is dropped and counted. -/
def execEgrFrameReceive (h : Half) (frame : List Byte) (s : State) : Res :=
  if s.rd (.egr .EGR_CTL_EN) h = 0 ∨ s.rd (.egr .EGR_STATUS_LINK_UP) h = 0 then .next s
  else match (if frame.length ≤ frameMax then acceptFrame s h (toNats frame) else none) with
    | some q =>
      if q.2.headD 0 = 1 ∧ ((q.2.getD 1 0 = 8 ∧ q.2.length = 80) ∨ (q.2.getD 1 0 = 9 ∧ q.2.length = 48)) then
        .next { s with egrRx := s.egrRx ++ [(h, toBytes q.1, toBytes q.2)] }
      else .next (s.inc (.egr .EGR_RX_DROP) h 1)
    | none => .next (s.inc (.egr .EGR_RX_DROP) h 1)

/-! ### Acknowledgement (R437, R440 to R442) -/

/-- The first received datagram of a type, and the state without it. -/
def takeRx (s : State) (h : Half) (type : Nat) : Option ((List Byte × List Byte) × State) :=
  match s.egrRx.find? fun q => q.1 == h && fieldAt q.2.2 1 1 == type with
  | some q => some (q.2, { s with egrRx := s.egrRx.erase q })
  | none => none

/-- An ACK or RESET verified for a stream (R436, R437): its plaintext. -/
def openDgram (s : State) (x : Stream) (p : List Byte) : Option (List Nat) :=
  match streamKey s x with
  | none => none
  | some k =>
    let n := p.length - 48
    let v := (0x80 + fieldAt p 1 1) * 2 ^ 56 + fieldAt p 0x10 4
    gcmOpen k.1 (dgramNonce k.2 v) (toNats (p.take 32)) (toNats ((p.drop 32).take n)) (toNats (p.drop (32 + n)))

/-- The stream that a received ACK or RESET is accepted for, with its plaintext; else the state with the drop counted (R437). -/
def acceptRx (s : State) (h : Half) (type : Nat) : Except State (State × Stream × List Byte × List Nat) :=
  match takeRx s h type with
  | none => .error s
  | some ((src, p), t) =>
    let named := t.streams.filter fun x => x.half == h && x.id == fieldAt p 4 4 &&
      toBytes (planBytes t h x.plan 0x18 (if planV6 t h x.plan then 16 else 4)) == src
    match named.findSome? fun x => (openDgram t x p).map fun b => (x, b) with
    | some (x, b) =>
      if x.ackNo < fieldAt p 0x10 4 then .ok (t, x, p, b) else .error (t.inc (.egr .EGR_RX_DROP) h 1)
    | none => .error (t.inc (if named.isEmpty then .egr .EGR_RX_DROP else .egr .EGR_RX_BAD) h 1)

/-- Bit `i` of an ACK's bitmap: SEQ N + 1 + i has been received. -/
def ackBit (b : List Nat) (i : Nat) : Bool := decide (i < 256) && (b.getD (i / 8) 0).testBit (i % 8)

/-- An ACK marks a SEQ. -/
def ackMarks (n : Nat) (b : List Nat) (seq : Nat) : Bool := decide (seq < n) || (decide (n < seq) && ackBit b (seq - n - 1))

/-- The round-trip estimates after a sample (RFC 6298, R440). -/
def rttUpdate (s : State) (x : Stream) (r : Nat) : Stream :=
  let v := if x.rttV then (3 * x.rttvar + (if r < x.srtt then x.srtt - r else r - x.srtt)) / 4 else r / 2
  let m := if x.rttV then (7 * x.srtt + r) / 8 else r
  { x with srtt := m, rttvar := v, rttV := true,
           rto := max (planRtoMin s x.half x.plan) (min (planRtoMax s x.half x.plan) (m + 4 * v)) }

/-- The CE response (R443). -/
def ceResponse (s : State) (x : Stream) (ce : Nat) : Stream :=
  let y := { x with ceSeen := max x.ceSeen ce }
  if planBit s x.half x.plan 27 = true ∧ x.ceSeen < ce ∧
      (x.decMt = 0 ∨ x.decMt - 1 + s.rd (.egr .EGR_CC2_ECN_HOLD) x.half * 1000 ≤ s.mt x.half) then
    { fillBucket s y with rate := max (planMinRate s x.half x.plan) (x.rate * (16 - s.rd (.egr .EGR_CC_CE_CUT) x.half) / 16),
                          decMt := s.mt x.half + 1, incMt := s.mt x.half }
  else y

/-- Acknowledged datagrams counted on their pages; pages whose datagrams are all acknowledged are released (R430, R440). -/
def ackPages (x : Stream) (gone : List Dgram) : List ShipPage :=
  (x.pages.map fun p => { p with acked := p.acked + (gone.filter fun d => d.type == 0 && d.page == p.no).length }).filter
    fun p => decide (p.acked < p.chunks)

/-- A SEQ reported missing is to be sent again (R441): at least three above it are received, and it has not been sent within
SRTT. -/
def fastAgain (s : State) (x : Stream) (n : Nat) (b : List Nat) (d : Dgram) : Bool :=
  let missing := d.seq == n || (decide (n < d.seq) && (List.range 256).any fun i => decide (d.seq < n + 1 + i) && ackBit b i)
  let above := x.nextSeq - d.seq - 1 - (x.dgrams.filter fun e => decide (d.seq < e.seq)).length
  missing && decide (3 ≤ above) && decide (x.srtt ≤ s.mt x.half - d.sentMt) && (x.state != 2 || d.type == 2)

/-- SHIPs whose pages have all been released by acknowledgement, sampled (Table 17.3). -/
def shipSamples (s : State) (x y : Stream) : State :=
  let before := (x.pages.map fun p => (p.ship, p.shipMt)).eraseDups
  before.foldl (fun t q =>
    if y.pages.any fun p => p.ship == q.1 then t else histSample t x.half 9 x.party ((t.mt x.half - q.2 : Nat) : Int)) s

/-- An accepted ACK on its stream (R440, R441, R443, R445). -/
def ackStream (s : State) (x : Stream) (p : List Byte) (b : List Nat) : State :=
  let n := fieldAt p 8 4
  let h := x.half
  let rtt := (s.mt h + 2 ^ 32 - fieldAt p 0xC 4 % 2 ^ 32) % 2 ^ 32
  let gone := x.dgrams.filter fun d => ackMarks n b d.seq
  let y1 : Stream := { x with dgrams := x.dgrams.filter fun d => !(ackMarks n b d.seq), pages := ackPages x gone, una := max x.una n,
                              ackNo := fieldAt p 0x10 4,
                              limit := min (fieldAt p 0x18 4) (n + planAt s h x.plan 0x30 2) }
  let y2 := ceResponse s (rttUpdate s y1 rtt) (fieldAt p 0x14 4)
  let late := y2.dgrams.filter (fastAgain s y2 n b)
  let y3 := { y2 with dgrams := y2.dgrams.map fun d => if late.any fun e => e.seq == d.seq then { d with resend := true } else d }
  let s1 := bump ((s.inc (.egr .EGR_RX_ACKS) h 1)) h 3 8 1
  let s2 := histSample s1 h 10 x.party (rtt : Int)
  let s3 := egressGive (setStream (if x.state = 2 then s2 else shipSamples s2 x y3) h x.ctx fun _ => y3) h (egressCells s h)
  let endSeq := (x.dgrams.find? fun d => d.type == 1).map (·.seq)
  let closed := (fieldAt p 2 1).testBit 0
  let isOver := closed && (x.state == 2 || (x.state == 1 && x.endSent && (match endSeq with
    | some e => decide (e < n)
    | none => decide (x.nextSeq ≤ n))))
  if isOver then endStream s3 y3 (if x.state = 2 then x.status else ST_OK)
  else if late.any fun d => decide (planRetxMax s h x.plan ≤ d.tries) then
    if x.state = 2 then endStream (s3.inc (.egr .EGR_CANCEL_NOACK) h 1) y3 x.status else failStream s3 y3 ST_SHIP_NOACK
  else showStreams (freeOrphans s3 h)

/-- ACK_RECEIVE (R437, R440, R441, R443, R445). -/
def execAckReceive (h : Half) (s : State) : Res :=
  match acceptRx s h 8 with
  | .error t => .next t
  | .ok (t, x, p, b) => .next (ackStream t x p b)

/-- RESET_RECEIVE (R437, R445): the stream is refused. -/
def execResetReceive (h : Half) (s : State) : Res :=
  match acceptRx s h 9 with
  | .error t => .next t
  | .ok (t, x, _, _) => .next (failStream t x ST_SHIP_REFUSED)

/-- The retransmission timer of a datagram has run out (R441): RTO after its last transmission, or after the expiry before it while the link
is down, where the timers keep running (§13.3 "At the edges"). -/
def retxDue (s : State) (x : Stream) (d : Dgram) : Bool :=
  decide (d.sentMt + x.rto ≤ s.mt x.half) && (!d.resend || s.rd (.egr .EGR_STATUS_LINK_UP) x.half == 0)

/-- A datagram whose timer has run out: it is to be sent again; while the link is down the transmission counts as made,
and past RETX_MAX none follows (R442). -/
def retxMark (s : State) (x : Stream) (d : Dgram) : Dgram :=
  if s.rd (.egr .EGR_STATUS_LINK_UP) x.half = 1 then { d with resend := true }
  else { d with resend := decide (d.tries + 1 < planRetxMax s x.half x.plan), tries := d.tries + 1, sentMt := s.mt x.half }

/-- RETX_TIMER_EXPIRE (R441, R442, R443): the oldest unacknowledged SEQ of a stream is sent again, its RTO doubles and its rate is
halved; past RETX_MAX the stream fails, or a CANCEL is given up. -/
def execRetxTimerExpire (h : Half) (ctx : Fin 1024) (s : State) : Res :=
  match streamAt s h ctx with
  | none => .next s
  | some x =>
    match firstBy (fun d : Dgram => [d.seq]) (x.dgrams.filter fun d => x.state != 2 || d.type == 2) with
    | none => .next s
    | some d =>
      if retxDue s x d = false then .next s
      else if planRetxMax s h x.plan ≤ d.tries then
        if x.state = 2 then .next (endStream (s.inc (.egr .EGR_CANCEL_NOACK) h 1) x x.status)
        else .next (failStream s x ST_SHIP_NOACK)
      else
        let y := fillBucket s x
        .next (showStreams (setStream s h ctx fun _ =>
          { y with dgrams := y.dgrams.map (fun e => if e.seq = d.seq then retxMark s x e else e),
                   rto := min (planRtoMax s h x.plan) (2 * x.rto), rate := max (planMinRate s h x.plan) (x.rate / 2),
                   decMt := s.mt h + 1, incMt := s.mt h }))

/-- RATE_INCREASE (R443): INC_PERIOD has passed since the last change of the rate. -/
def execRateIncrease (h : Half) (ctx : Fin 1024) (s : State) : Res :=
  match streamAt s h ctx with
  | none => .next s
  | some x =>
    if s.mt h < x.incMt + s.rd (.egr .EGR_CC_INC_PERIOD) h * 1000 then .next s
    else
      let y := fillBucket s x
      .next (showStreams (setStream s h ctx fun _ =>
        { y with rate := min (planMaxRate s h x.plan) (x.rate + s.rd (.egr .EGR_CC_INC_STEP) h), incMt := s.mt h }))

/-- The streams of a half at a Lowland entry, a chip step or a tamper (R122, R509, R521, Table 13.5): each sends one CANCEL that is
not retransmitted, and ends with a status. -/
def lowlandStreams (s : State) (h : Half) (status : Nat) : State :=
  (s.streams.filter fun x => x.half == h).foldl (fun t x =>
    let f := frameOf t x (dgramPayload t x ⟨x.nextSeq, 2, 0, 0, 0, t.mt h, false, false⟩) false
    endStream (if t.rd (.egr .EGR_STATUS_LINK_UP) h = 1 then emitFrame t h f else t) x status) s

end Sys2Proof.Machine
end

