-- ==== Sys2Proof/Machine/Secure.lean ====
section
/-!
DEFINITION. Machine/Secure.lean: keys and their mirroring (R492 to R494), zeroization and its causes (R500, R508 to R510), and releases
of partitions (R487).
-/

namespace Sys2Proof.Machine

/-! ### Keys -/

/-- A fresh number below `2 ^ w` from the DRBG (R492). -/
def drawKey (s : State) (w : Nat) : Nat × State := (Config.freeValue s.freeCount % 2 ^ w, drawFree s)

/-- PART_KEYS.PRESENT of the partitions of a half, from the keys held. -/
def showKeys (s : State) (h : Half) : State :=
  (List.range 64).foldl (fun t p =>
    t.wr (.sec .PART_KEYS_PRESENT) h (bit (keyOf t h p .valley).isSome + 2 * bit (keyOf t h p .egress).isSome +
      4 * bit (keyOf t h (namespaceOf t h p) .pfx).isSome) p) s

/-- The keys that meet a condition zeroized in the home half's block, and the streams that then lack theirs ended (R510). -/
def zeroKeys (s : State) (h : Half) (p : SecKey → Bool) : State :=
  let s1 := showKeys { s with keys := s.keys.filter fun k => !(k.half == h && p k) } h
  (s1.streams.filter fun x => x.half == h && (keyOf s1 h x.party .egress).isNone).foldl (fun t x => endStream t x ST_KEY_MISSING) s1

/-- The key entries put in, each in place of one for the same party and kind. -/
def putKeys (l new : List SecKey) : List SecKey :=
  (l.filter fun k => !(new.any fun n => n.half == k.half && n.party == k.party && n.kind == k.kind)) ++ new

/-- PART_CTL.LAST_STATUS set. -/
def partStatus (s : State) (h : Half) (p st : Nat) : State := s.wr (.sec .PART_CTL_LAST_STATUS) h st p

/-- KIMP_CTL.LAST_STATUS set. -/
def kimpStatus (s : State) (h : Half) (st : Nat) : State := s.wr (.sec .KIMP_CTL_LAST_STATUS) h st

/-! ### Mirroring (R493) -/

/-- What a partition's entry holds: STATE, ranges, PART_SHR, core set, key generations (R493, Table 15.7). -/
def partEntry (s : State) (h : Half) (p : Nat) : List Nat :=
  [s.rd (.sec .PART_CTL_STATE) h p, s.rd (.sec .PART_HBM0_BASE) h p, s.rd (.sec .PART_HBM0_SIZE) h p,
    s.rd (.sec .PART_HBM1_BASE) h p, s.rd (.sec .PART_HBM1_SIZE) h p, s.rd (.sec .PART_SHR_MASK) h p] ++
    ((List.range 8).map fun w => s.rd (.sec .PART_CORES) h (8 * p + w)) ++ [s.rd (.sec .PART_KEYS_EGR_GEN) h p]

/-- The registers of a party's entry as an operation of a kind leaves them: LIVE by a GO, one generation more by an egress key, OFF at the
end of a release. -/
def opRegs (s : State) (h : Half) (kind p : Nat) : State :=
  if kind = 0 then s.wr (.sec .PART_CTL_STATE) h 1 p
  else if kind = 1 ∧ p < 64 then s.wr (.sec .PART_KEYS_EGR_GEN) h (s.rd (.sec .PART_KEYS_EGR_GEN) h p + 1) p
  else if kind = 3 then s.wr (.sec .PART_CTL_STATE) h 0 p
  else s

/-- The entry that the record of an operation carries (R493). -/
def opEntry (s : State) (h : Half) (kind p : Nat) : PartEntry := ⟨h, p, if p < 64 then partEntry (opRegs s h kind p) h p else []⟩

/-- The entry of a partition put into a list, in place of the one for the same partition. -/
def putPart (l : List PartEntry) (e : PartEntry) : List PartEntry :=
  if e.party < 64 then (l.filter fun x => !(x.half == e.half && x.party == e.party)) ++ [e] else l

/-- The record of an operation installed on its own half, and the operation completed (R486, R487, R493, R496). -/
def installMirror (s : State) (m : Mirror) : State :=
  let h := m.half
  let s1 := opRegs (showKeys { s with keys := putKeys s.keys m.keys } h) h m.kind m.party
  if m.kind = 0 then
    raiseCause (partStatus ((s1.wr (.sec .GO_BUSY) h 0 m.party).wr (.kv .VALLEY_GEN) h 0 m.party) h m.party ST_OK) 11 h 1
  else if m.kind = 1 then
    kimpStatus ((s1.wr (.egr .EGR_PSTAT_STREAM_NEXT) h 0 m.party).wr (.egr .STREAM_DONE) h 0 m.party) h ST_OK
  else if m.kind = 3 then raiseCause (s1.wr (.sec .REL_SCRUB) h 0 m.party) 11 h 2
  else s1

/-- An operation refused; its new keys are discarded. A release whose end is refused stays RELEASING, and its end may be tried again. -/
def refuseMirror (s : State) (m : Mirror) (st : Nat) : State :=
  if m.kind = 0 then partStatus (s.wr (.sec .GO_BUSY) m.half 0 m.party) m.half m.party st
  else if m.kind = 1 then kimpStatus s m.half st
  else if m.kind = 3 then partStatus s m.half m.party st
  else s

/-- The operation may complete alone (R493): the peer's hub is unusable, or its MC is declared failed. -/
def aloneOk (s : State) (h : Half) : Bool :=
  s.rd (match h with
    | .h0 => .pkg .PKG_MAP_HUB1_OK
    | .h1 => .pkg .PKG_MAP_HUB0_OK) .h0 == 0 || s.rd (.flt .MC_STATUS_PEER) h == 4

/-- An operation of a half begun, of a kind, for a party and with its new keys: its record is sent to the peer, or it completes alone
(R493). -/
def startMirror (s : State) (h : Half) (kind party : Nat) (keys : List SecKey) : State :=
  let m : Mirror := ⟨h, kind, party, opEntry s h kind party, keys, false, 0, 0, s.mt h, 0⟩
  if aloneOk s h then (installMirror s m).wr (.sec .SEC_STATUS_SOLO) h 1 else { s with mirrors := s.mirrors ++ [m] }

/-- A zeroization that a half has completed, sent to the peer where the peer can answer (R493). -/
def tellMirror (s : State) (h : Half) (party : Nat) (keys : List SecKey) : State :=
  if aloneOk s h then s
  else { s with mirrors := s.mirrors ++ [⟨h, 2, party, opEntry s h 2 party, keys, false, 1, 0, s.mt h, 0⟩] }

/-- The first mirrored operation that meets a condition replaced, or removed. -/
def editMirror (s : State) (p : Mirror → Bool) (f : Mirror → Option Mirror) : State :=
  { s with mirrors := match s.mirrors.find? p with
      | none => s.mirrors
      | some m =>
        let i := s.mirrors.findIdx p
        match f m with
        | some n => s.mirrors.set i n
        | none => s.mirrors.eraseIdx i }

/-- The peer has a record and can still lose it, or the originator still acts on it. -/
def Mirror.live (m : Mirror) : Option Mirror := if m.origin = 2 ∧ m.peer ≠ 1 then none else some m

/-- The peer's copies that a mirrored zeroization removes. -/
def peerZero (s : State) (m : Mirror) : State :=
  { s with peerKeys := s.peerKeys.filter fun k => !(m.keys.any fun n => n.half == k.half && n.party == k.party && n.kind == k.kind) }

/-- MIRROR_RECORD_RECEIVE (R493): the peer stores the record as pending and acknowledges it; a zeroization is done at once. -/
def execMirrorRecordReceive (h : Half) (s : State) : Res :=
  let p : Mirror → Bool := fun m => m.half == h.other && m.peer == 0
  match s.mirrors.find? p with
  | none => .next s
  | some m =>
    if s.peerReachable h = false ∨ s.rd (.sec .SECRETS) h = 0 then .next s
    else if m.kind = 2 then .next (peerZero (editMirror s p fun _ => none) m)
    else .next (editMirror s p fun m => some { m with acked := true, peer := 1, peerMt := s.mt h })

/-- MIRROR_ACK_RECEIVE (R493): the originator installs the record, sends the commit and reports completion. -/
def execMirrorAckReceive (h : Half) (s : State) : Res :=
  let p : Mirror → Bool := fun m => m.half == h && m.acked && m.origin == 0
  match s.mirrors.find? p with
  | none => .next s
  | some m => if s.peerReachable h then .next (installMirror (editMirror s p fun m => some { m with origin := 1 }) m) else .next s

/-- MIRROR_COMMIT_RECEIVE (R493): the peer installs its pending record. -/
def execMirrorCommitReceive (h : Half) (s : State) : Res :=
  let p : Mirror → Bool := fun m => m.half == h.other && m.origin == 1 && m.kind != 2
  match s.mirrors.find? p with
  | none => .next s
  | some m =>
    if s.peerReachable h = false then .next s
    else
      let s1 := editMirror s p fun _ => none
      .next (if m.peer = 1 then { s1 with peerKeys := putKeys s1.peerKeys m.keys, peerParts := putPart s1.peerParts m.entry } else s1)

/-- MIRROR_ACK_TIMEOUT (R493): no acknowledgement within 1 ms: refused with ST_KEY_MIRROR, or completed alone. -/
def execMirrorAckTimeout (h : Half) (s : State) : Res :=
  let p : Mirror → Bool := fun m => m.half == h && m.origin == 0 && decide (m.mt + 1000000 ≤ s.mt h)
  match s.mirrors.find? p with
  | none => .next s
  | some m =>
    let s1 := editMirror s p fun m => ({ m with origin := 2 } : Mirror).live
    if aloneOk s h then .next ((installMirror s1 m).wr (.sec .SEC_STATUS_SOLO) h 1) else .next (refuseMirror s1 m ST_KEY_MIRROR)

/-- MIRROR_PENDING_TIMEOUT (R493): a pending record with no commit within 2 ms is zeroized. -/
def execMirrorPendingTimeout (h : Half) (s : State) : Res :=
  let late (m : Mirror) : Bool := m.half == h.other && m.peer == 1 && decide (m.peerMt + 2000000 ≤ s.mt h)
  .next (editMirror s late fun m => ({ m with peer := 2, acked := false } : Mirror).live)

/-- The entries of a half's partitions that a write or an operation has changed from what they are after reset. -/
def homeEntries (s : State) (h : Half) : List PartEntry :=
  ((List.range 64).map fun p => ⟨h, p, partEntry s h p⟩).filter fun e => e.fields != partEntry State.reset h e.party

/-- Reconciliation (R494): each half's home copies of entries and keys replace the other's; keys of partitions that are not LIVE go; SOLO
clears. A block whose secrets are zeroized takes no key. -/
def reconcile (s : State) : State :=
  let live (k : SecKey) : Bool := k.kind == .pfx || k.party == 64 || s.rd (.sec .PART_CTL_STATE) k.half k.party == 1
  let kept (k : SecKey) : Bool := live k && s.rd (.sec .SECRETS) k.half.other != 0
  let s1 := { s with peerKeys := s.keys.filter kept, peerParts := homeEntries s .h0 ++ homeEntries s .h1
                     mirrors := s.mirrors.filter fun m => m.kind != 2 }
  (s1.wr (.sec .SEC_STATUS_SOLO) .h0 0).wr (.sec .SEC_STATUS_SOLO) .h1 0

/-- KEY_RECONCILE (R494): the peer has become reachable again. -/
def execKeyReconcile (s : State) : Res :=
  if s.peerReachable .h0 ∧ s.peerReachable .h1 then .next (reconcile s) else .next s

/-! ### Releases (R487) -/

/-- RELEASE of a LIVE partition begun (Table 15.4, steps 1 and 2): RELEASING, its rings stopped, then its requests cancelled with
ST_FENCED. -/
def beginRelease (s : State) (h : Half) (p : Nat) : State :=
  let s1 := (s.wr (.sec .PART_CTL_STATE) h 2 p).wr (.sec .REL_SCRUB) h 0 p
  closeRequests ((ringsOf p).foldl (fun t r => ringStop t h r) s1) (fun r => r.half == h && r.fn == p) ST_FENCED false

/-- Every LIVE partition of a half RELEASING. -/
def releaseAll (s : State) (h : Half) : State :=
  (List.range 64).foldl (fun t p => if t.rd (.sec .PART_CTL_STATE) h p = 1 then beginRelease t h p else t) s

/-- The GO and import operations in progress on a half fail with ST_KEY_MISSING when a zeroization begins (§15.5 "At the edges"). -/
def failMirrors (s : State) (h : Half) : State :=
  let fails (m : Mirror) : Bool := m.half == h && m.origin == 0 && decide (m.kind < 2)
  (s.mirrors.filter fails).foldl (fun t m => refuseMirror t m ST_KEY_MISSING)
    { s with mirrors := (s.mirrors.map fun m => if fails m then { m with origin := 2 } else m).filter fun m => m.live.isSome }

/-- The ephemeral key and the key-encryption key of an import zeroized (R495, R496). -/
def dropEphemeral (s : State) (h : Half) : State :=
  ((s.wr (.sec .KIMP_LIVE) h 0).wr (.sec .KIMP_PRIV) h 0).wr (.sec .KIMP_FOR) h 0

/-- An import that waits for its COMMIT fails at a zeroization (§15.5 "At the edges"). -/
def failImport (s : State) (h : Half) : State :=
  if s.rd (.sec .KIMP_LIVE) h = 1 then kimpStatus (dropEphemeral s h) h ST_KEY_MISSING else s

/-! ### Zeroization (R509, R510) -/

/-- The SPDM sessions of a half ended, with CO_AUTH (R507). -/
def dropSessions (s : State) (h : Half) : State :=
  { s.wr (.sec .SEC_STATUS_CO_AUTH) h 0 with spdm := s.spdm.filter fun x => x.half != h }

/-- Every volatile key and secret of a half's security block zeroized: its home keys, the copies of the other half's, the derived
secrets, and the session and IDE keys. -/
def zeroBlock (s : State) (h : Half) : State :=
  let s1 := failImport (failMirrors s h) h
  let s2 := { s1 with peerKeys := s1.peerKeys.filter fun k => k.half == h
                      mirrors := s1.mirrors.map fun m => if m.half = h.other ∧ m.peer = 1 then { m with peer := 2, acked := false } else m }
  let s3 := dropSessions (zeroKeys s2 h fun _ => true) h
  (List.range 5).foldl (fun t i => ideStop t h i) ((s3.wr (.sec .SECRETS) h 0).wr (.host .LINK_STATUS_IDE) h 0)

/-- What follows a zeroization for a cause, on the half that found it: every partition RELEASING, Lowland mode with cause SECURITY, its
ledger record and fuse count (Table 15.11). -/
def securityEnd (s : State) (h : Half) (status : Nat) : State :=
  let s1 := releaseAll (releaseAll s .h0) .h1
  (lowlandCause (ledger s1 h 8 (leBytes 2 status)) 8).wr (.boot .LOW_STATUS) .h0 status

/-- A half's block zeroized for a cause. -/
def zeroFor (s : State) (h : Half) (status : Nat) : State := (zeroBlock s h).wr (.sec .SEC_STATUS_LAST_CAUSE) h status

/-- A self-test that fails or a measurement that differs on a half (R500, R508): every volatile key and secret of both security blocks
zeroized (Table 15.11). -/
def securityEvent (s : State) (h : Half) (status : Nat) : State :=
  securityEnd (zeroFor (zeroFor s h status) h.other status) h status

/-- A zeroization of keys of a half, whose locations are then read back: one that is not zero is a failed self-test (R510). -/
def zeroizeKeys (s : State) (h : Half) (p : SecKey → Bool) : State :=
  let t := zeroKeys s h p
  if t.keys.any fun k => k.half == h && p k then securityEvent t h ST_SELFTEST_FAIL else t

/-- FW_REMEASURE (R500): the periodic hash of a security block; `ok` when it matches the manifest. -/
def execFwRemeasure (h : Half) (ok : Bool) (s : State) : Res :=
  if ok then .next s else .next (securityEvent s h ST_FW_MEASURE)

/-- SEC_SELFTEST (R508): every pre-operational test on demand; `ok` when all pass. -/
def execSecSelftest (h : Half) (ok : Bool) (s : State) : Res :=
  let s1 := raiseCause s 11 h 4
  if ok then .next s1 else .next (securityEvent s1 h ST_SELFTEST_FAIL)

/-- A tamper detected by a half's security block (R509): one CANCEL on every open stream of the half, then its zeroization; each block acts
on its own detection (DEDUCED, log entry 38). -/
def tamper (s : State) (h : Half) : State := securityEnd (zeroFor (lowlandStreams s h ST_TAMPER) h ST_TAMPER) h ST_TAMPER

/-- TAMPER_DETECT (R509). -/
def execTamperDetect (h : Half) (s : State) : Res := .next (tamper s h)

/-- SEC_ZEROIZE_ALL (R510, Table 15.9): every partition key and the operator's egress key of the half; LIVE partitions RELEASING. -/
def execSecZeroizeAll (h : Half) (s : State) : Res :=
  if s.rd (.sec .SEC_STATUS_APPROVED) h = 1 ∧ s.rd (.sec .SEC_STATUS_CO_AUTH) h = 0 then .next s
  else
    let gone := s.keys.filter fun k => k.half == h
    let s1 := releaseAll (zeroizeKeys (failImport (failMirrors s h) h) h fun _ => true) h
    .next (ledger (tellMirror s1 h 64 gone) h 8 (leBytes 2 ST_OK))

end Sys2Proof.Machine
end

