-- ==== Sys2Proof/Machine/Ledger.lean ====
section
/-!
DEFINITION. Machine/Ledger.lean: the fine ledger in module flash (R552 to R558), its GAP and SUMMARY records, and the coarse counts in
package fuses (R559, R560).
-/

namespace Sys2Proof.Machine

/-! ### Pages and slots of module flash (R552, R557) -/

/-- IDENT: the first 44 bytes of SHA-384 of the DIK public key. -/
def ledgerIdent : List Byte := (toBytes (sha384 Config.dikPublic)).take 44

/-- The 64-byte header of a page (Table 17.5). -/
def pageHeader (page first : Nat) : List Byte :=
  let b := leBytes 4 0x52444C45 ++ leBytes 1 1 ++ leBytes 1 0 ++ leBytes 2 0 ++ leBytes 4 page ++ leBytes 4 first ++ ledgerIdent
  b ++ leBytes 4 (crc32c b)

/-- The page of the ring, one of 4,096, that a PAGE_SEQ takes. -/
def ringPage (page : Nat) : Nat := page % 4096

/-- The page being written. -/
def State.ledgerPage (s : State) : Option LdgPage := s.ldgPages.getLast?

/-- The page after the newest one. -/
def nextPage (s : State) : Nat := match s.ledgerPage with
  | some p => p.page + 1
  | none => 0

/-- The page that would be opened next is erased. -/
def pageFree (s : State) : Bool := !(s.ldgPages.any fun p => ringPage p.page == ringPage (nextPage s))

/-- A record of SEQ `n` fits the page being written, which has 63 slots. -/
def fitsPage (s : State) (n : Nat) : Bool := match s.ledgerPage with
  | some p => decide (p.first ≤ n ∧ n < p.first + 63)
  | none => false

/-- A page opened, its first slot for SEQ `n`. -/
def openPage (s : State) (n : Nat) : State :=
  let p := nextPage s
  let s1 := { s with ldgPages := s.ldgPages ++ [LdgPage.mk p n (pageHeader p n)] }
  let s2 := if s.ldgPages = [] then s1.wr (.tel .LDG_OLDEST) .h0 n else s1
  s2.wr (.tel .LDG_PAGE_SEQ) .h0 p

/-- A slot programmed with a record, in the page being written or a new one; `torn` when power is lost meanwhile. -/
def programSlot (s : State) (r : LdgRec) (torn : Bool) : State :=
  let s1 := if fitsPage s r.seq then s else openPage s r.seq
  { s1 with ldgFlash := s1.ldgFlash ++ [LdgSlot.mk (s1.rd (.tel .LDG_PAGE_SEQ) .h0) r.seq r.bytes torn] }

/-- The next accepted record of a half's MC that is not programmed yet. -/
def nextTaken (s : State) (w : Half) : Option LdgRec := (s.ldgBuf.find? fun p => p.1 == w && p.2.taken).map (·.2)

/-- A record leaves an MC's buffer. -/
def dropHeld (s : State) (w : Half) (r : LdgRec) : State := { s with ldgBuf := s.ldgBuf.erase (w, r) }

/-- A GAP record (R555). -/
def ldgGap (s : State) (h : Half) (fromMt toMt reason : Nat) : State :=
  ledger s h 0xB (leBytes 8 fromMt ++ leBytes 8 toMt ++ leBytes 1 reason)

/-- The GAP for the records that a full buffer dropped, once the buffer has room again (R555, REASON 2). -/
def gapDropped (s : State) (h : Half) : State :=
  let t := s.rd (.tel .LDG_DROP_FROM) h
  if t ≠ 0 ∧ s.ldgHeld h < 64 then
    ldgGap ((s.wr (.tel .LDG_DROP_FROM) h 0).wr (.tel .LDG_DROP_TO) h 0) h (t - 1) (s.rd (.tel .LDG_DROP_TO) h) 2
  else s

/-- The writer programs its next record, when the region is its own and a page is free (R554, R556). -/
def programNext (s : State) (w : Half) : State :=
  if s.rd (.tel .LDG_STATUS_FOREIGN) w = 1 then s
  else match nextTaken s w with
    | some r =>
      if fitsPage s r.seq || pageFree s then gapDropped (dropHeld (programSlot s r false) w r) w else s
    | none => s

/-- LEDGER_PROGRAM (R554). -/
def execLedgerProgram (s : State) : Res :=
  match s.holder with
  | some w => .next (programNext s w)
  | none => .next s

/-- Erase units of 16 pages that hold no page. -/
def erasedUnits (s : State) : Nat :=
  ((List.range 256).filter fun u => !(s.ldgPages.any fun p => ringPage p.page / 16 == u)).length

/-- LEDGER_ERASE (R557): with fewer than two erased units, the oldest unit is erased, and OLDEST moves to the next page. -/
def execLedgerErase (s : State) : Res :=
  match s.ldgPages with
  | [] => .next s
  | p :: _ =>
    if 2 ≤ erasedUnits s ∨ (s.holder.any fun w => s.rd (.tel .LDG_STATUS_FOREIGN) w == 1) then .next s
    else
      let keep (n : Nat) : Bool := ringPage n / 16 != ringPage p.page / 16
      let pages := s.ldgPages.filter fun q => keep q.page
      let s1 := { s with ldgPages := pages, ldgFlash := s.ldgFlash.filter fun x => keep x.page }
      .next (match pages with
        | q :: _ => s1.wr (.tel .LDG_OLDEST) .h0 q.first
        | [] => s1.wr (.tel .LDG_OLDEST) .h0 (s.rd (.tel .LDG_NEXT) .h0))

/-! ### Delivery (R554) -/

/-- Records that a half produced and that no writer has accepted. -/
def untaken (s : State) (h : Half) : List LdgRec := (s.ldgBuf.filter fun p => p.1 == h && !p.2.taken).map (·.2)

/-- The writer accepts the records that its own MC held (R554). -/
def takeOwn (s : State) (w : Half) : State := (untaken s w).foldl (fun t r => ldgTake (dropHeld t w r) w r) s

/-- The other half's records accepted as deltas by the writer, while its buffer has room (R554, Table 17.6). -/
def takeDeltas (s : State) (w : Half) : State :=
  gapDropped ((untaken s w.other).foldl (fun t r =>
    if 64 ≤ t.ldgHeld w then t else ldgTake (dropHeld t w.other r) w { r with src := r.src + 2 }) s) w.other

/-! ### The scan at start-up and ADOPT (R556) -/

/-- The header of a page is valid: MAGIC, VERSION and CRC (Table 17.5). -/
def pageHeaderOk (p : LdgPage) : Bool :=
  fieldAt p.header 0 4 == 0x52444C45 && fieldAt p.header 4 1 == 1 && fieldAt p.header 0x3C 4 == crc32c (p.header.take 0x3C)

/-- The page carries this device's IDENT (R552). -/
def identOk (p : LdgPage) : Bool := (p.header.drop 0x10).take 44 == ledgerIdent

/-- Of two pages, the one with the higher PAGE_SEQ. -/
def newerPage (a : Option LdgPage) (p : LdgPage) : Option LdgPage :=
  match a with
  | some q => if fieldAt q.header 8 4 ≤ fieldAt p.header 8 4 then some p else a
  | none => some p

/-- The region is FOREIGN (R556): it is another device's whose pages are not held here, or its newest page with a valid header carries
another IDENT. -/
def foreignRegion (s : State) : Bool :=
  s.ldgForeign || (((s.ldgPages.filter pageHeaderOk).foldl newerPage none).any fun p => !(identOk p))

/-- The newest valid page of this device (R556). -/
def newestOwn (s : State) : Option LdgPage := (s.ldgPages.filter fun p => pageHeaderOk p && identOk p).foldl newerPage none

/-- The last programmed slot. -/
def lastSlot (s : State) : Option LdgSlot := s.ldgFlash.getLast?

/-- Start-up number: one more than the last BOOT record, and never less than the STARTS count × 1,024. -/
def bootNumber (s : State) : Nat :=
  let last := (s.ldgFlash.filter fun x => !x.torn && fieldAt x.bytes 0 1 == 1).getLast?
  max ((last.map fun x => fieldAt x.bytes 8 4).getD 0 + 1) (s.rd (.tel .FUSE_CNT) .h0 0 * 1024)

/-- Powered seconds: from the last record, and never less than the HOURS count × 1,024 × 3,600. -/
def lifeSeconds (s : State) : Nat :=
  let last := (s.ldgFlash.filter fun x => !x.torn).getLast?
  max ((last.map fun x => fieldAt x.bytes 0xC 4).getD 0) (s.rd (.tel .FUSE_CNT) .h0 1 * 1024 * 3600)

/-- LIFE_S at a start-up; its whole hours have had their SUMMARY. -/
def startLife (s : State) (sec : Nat) : State := (s.wr (.tel .LDG_LIFE_S) .h0 sec).wr (.tel .SUMMARY_HOURS) .h0 (sec / 3600)

/-- What the first scan of a start-up finds in a region of this device. -/
def resumeLedger (s : State) (h : Half) : State :=
  let s1 := startLife (s.wr (.tel .LDG_BOOT) .h0 (bootNumber s)) (lifeSeconds s)
  let next := (lastSlot s).map fun x => x.seq + 1
  let s2 := s1.wr (.tel .LDG_NEXT) .h0 (max (s1.rd (.tel .LDG_NEXT) .h0) (next.getD 0))
  let s3 := (s2.wr (.tel .LDG_OLDEST) .h0 ((s.ldgPages.head?.map (·.first)).getD 0)).wr (.tel .LDG_PAGE_SEQ) .h0
    ((newestOwn s).elim 0 fun p => fieldAt p.header 8 4)
  if (lastSlot s).any (·.torn) then ldgGap s3 h 0 0 1 else s3

/-- LEDGER_SCAN (R556): once in a start-up, each MC that runs firmware finds the region its own or FOREIGN. -/
def execLedgerScan (h : Half) (s : State) : Res :=
  if s.rd (.boot .FW_RUNNING) h = 0 ∨ s.rd (.tel .LDG_SCANNED) h = 1 then .next s
  else
    let foreign := foreignRegion s
    let s1 := (s.wr (.tel .LDG_SCANNED) h 1).wr (.tel .LDG_STATUS_FOREIGN) h (bit foreign)
    if foreign then
      .next (startLife (s1.wr (.tel .LDG_BOOT) .h0 (s.rd (.tel .FUSE_CNT) .h0 0 * 1024)) (s.rd (.tel .FUSE_CNT) .h0 1 * 1024 * 3600))
    else if s.rd (.tel .LDG_SCANNED) h.other = 1 then .next s1
    else .next (resumeLedger s1 h)

/-- DATA of a BOOT record (Table 17.7). -/
def bootData (s : State) (h : Half) : List Byte :=
  leBytes 1 (s.rd (.boot .START_KIND) .h0) ++ (regBytes s h 0x1300 4).take 2 ++ leBytes 4 (s.rd (.sec .FW_VERSION) h) ++
    leBytes 1 (s.rd (.sec .ARB_STATUS_SVN) h) ++ leBytes 1 (s.rd (.sec .ARB_STATUS_ARB) h) ++ leBytes 4 (s.rd (.boot .BOOT_TIME_MGMT) .h0)

/-- The BOOT record of a start-up. -/
def bootRecord (s : State) (h : Half) : State := ledger s h 1 (bootData s h)

/-- The BOOT record that starts an adopted region (R556): the first slot of page 0. Its SEQ is the lowest that is not programmed, and the
accepted records that wait in the writer's buffer follow it, each one higher (DESIGN CHOICE, log entry 89). -/
def adoptBoot (s : State) (h : Half) : State :=
  let next := s.rd (.tel .LDG_NEXT) .h0
  let first := (nextTaken s h).elim next (·.seq)
  let up (r : LdgRec) : LdgRec := if r.taken && decide (first ≤ r.seq) then { r with seq := r.seq + 1 } else r
  let r : LdgRec := ⟨1, h.num, first, s.rd (.tel .LDG_BOOT) .h0, s.rd (.tel .LDG_LIFE_S) .h0, s.mt h, bootData s h, true⟩
  let buf := s.ldgBuf.map fun p : Half × LdgRec => (p.1, up p.2)
  let s1 := { s with ldgBuf := buf, history := ((s.history.map up) ++ [r]).drop (s.history.length - 31) }
  programSlot (s1.wr (.tel .LDG_NEXT) .h0 (next + 1)) r false

/-- TEL_STATUS.LAST_STATUS set. -/
def telStatus (s : State) (h : Half) (st : Nat) : State := s.wr (.tel .TEL_STATUS_LAST_STATUS) h st

/-- LEDGER_ADOPT (R556, §17.5 "At the edges"). -/
def execLedgerAdopt (h : Half) (s : State) : Res :=
  if s.holds h = false then .next (telStatus s h ST_AUX_NO_ROLE)
  else if s.rd (.sec .SEC_STATUS_APPROVED) h = 1 ∧ s.rd (.sec .SEC_STATUS_CO_AUTH) h = 0 then .next (telStatus s h ST_CO_AUTH)
  else if s.rd (.tel .LDG_STATUS_FOREIGN) h = 0 then .next (telStatus s h ST_LDG_NOREC)
  else
    let s1 := { s with ldgFlash := [], ldgPages := [], ldgForeign := false }
    let s2 := ((s1.wr (.tel .LDG_STATUS_FOREIGN) .h0 0).wr (.tel .LDG_STATUS_FOREIGN) .h1 0).wr (.tel .LDG_PAGE_SEQ) .h0 0
    .next (telStatus (adoptBoot s2 h) h ST_OK)

/-! ### Reading (R558) -/

/-- The status and the 64 bytes that a half's read of a SEQ gives. -/
def ledgerRead (s : State) (h : Half) (seq : Nat) : Nat × List Byte :=
  let next := s.rd (.tel .LDG_NEXT) .h0
  let none_ := (ST_LDG_NOREC, zeros 64)
  if s.rd (.tel .LDG_OLDEST) .h0 ≤ seq ∧ seq < next then
    match s.ldgFlash.find? fun x => x.seq == seq with
    | some x => if x.torn then none_ else (ST_OK, x.bytes)
    | none => match s.ldgBuf.find? fun p => p.2.taken && p.2.seq == seq with
      | some p => (ST_LDG_PENDING, p.2.bytes)
      | none => none_
  else if next ≤ seq ∧ s.holds h = false ∧ s.lanesUp = false then
    match (untaken s h)[seq - next]? with
    | some r => (ST_LDG_PENDING, r.bytes)
    | none => none_
  else none_

/-- LEDGER_READ (R558): LDG_RD_SEQ written. -/
def execLedgerRead (h : Half) (seq : Nat) (s : State) : Res :=
  let r := ledgerRead s h seq
  let s1 := { s with ldgRdData := (h, r.2) :: s.ldgRdData.filter (fun p => p.1 != h) }
  .next ((s1.wr (.tel .LDG_RD_SEQ) h seq).wr (.tel .LDG_RD_STATUS) h r.1)

/-! ### SUMMARY records and fuse counts (R553, R559, R560) -/

/-- Live slot of group 4 of the half whose MC writes. -/
def thermalSlot (s : State) (h : Half) (k : Nat) : Nat := s.rd (.tel .LIVE_SLOT) h (4 * 32 + k)

/-- HBM corrected errors of both halves. -/
def hbmCorrected (s : State) : Nat := s.rd (.tel .LIVE_SLOT) .h0 (32 + 2) + s.rd (.tel .LIVE_SLOT) .h1 (32 + 2)

/-- Context steps of both halves. -/
def ctxSteps (s : State) : Nat := s.rd (.flt .FLT_CNT_CTX) .h0 + s.rd (.flt .FLT_CNT_CTX) .h1

/-- DATA of a SUMMARY record: what has passed since the last one (Table 17.7). -/
def summaryData (s : State) (h : Half) : List Byte :=
  ((List.range 4).flatMap fun i => leBytes 2 ((thermalSlot s h (1 + i) - s.rd (.tel .SUMMARY_NS) .h0 i) / 1000000000)) ++
    leBytes 4 ((thermalSlot s h 0 - s.rd (.tel .SUMMARY_UJ) .h0) / 1000000000) ++
    leBytes 2 (s.rd (.tel .SUMMARY_MAX_TJ) .h0) ++ leBytes 2 (s.rd (.tel .SUMMARY_MAX_OUT) .h0) ++
    leBytes 4 (ctxSteps s - s.rd (.tel .SUMMARY_CTX) .h0) ++ leBytes 4 (hbmCorrected s - s.rd (.tel .SUMMARY_COR) .h0)

/-- SUMMARY_HOUR (R553, R559): LIFE_S has reached another whole hour. -/
def execSummaryHour (s : State) : Res :=
  let hours := s.rd (.tel .LDG_LIFE_S) .h0 / 3600
  match s.holder with
  | none => .next s
  | some h =>
    if hours ≤ s.rd (.tel .SUMMARY_HOURS) .h0 then .next s
    else
      let s0 := s.wr (.tel .SUMMARY_HOURS) .h0 hours
      let s1 := ledger s0 h 6 (summaryData s h)
      let s2 := (List.range 4).foldl (fun t i => t.wr (.tel .SUMMARY_NS) .h0 (thermalSlot s h (1 + i)) i) s1
      let s3 := (s2.wr (.tel .SUMMARY_UJ) .h0 (thermalSlot s h 0)).wr (.tel .SUMMARY_CTX) .h0 (ctxSteps s)
      .next (((s3.wr (.tel .SUMMARY_COR) .h0 (hbmCorrected s)).wr (.tel .SUMMARY_MAX_TJ) .h0 0).wr (.tel .SUMMARY_MAX_OUT) .h0 0)

/-- FUSE_BLOW (R560): the next bit of count `k` blown and verified, `first` and `second` telling whether each of its blows verifies;
a bit that fails twice is passed over. -/
def execFuseBlow (k : Fin 8) (first second : Bool) (s : State) : Res :=
  let due := s.rd (.tel .FUSE_BLOW_PENDING) .h0 k
  let n := s.rd (.tel .FUSE_CNT) .h0 k
  match s.holder with
  | none => .next s
  | some h =>
    if due = 0 ∨ (fuseRow k).1 ≤ n + s.rd (.tel .FUSE_SKIP) .h0 k then .next s
    else if first || second then
      let s1 := (s.wr (.tel .FUSE_BLOW_PENDING) .h0 (due - 1) k).wr (.tel .FUSE_CNT) .h0 (n + 1) k
      .next (ledger s1 h 0xA (leBytes 1 k ++ leBytes 1 (n + 1)))
    else .next ((s.inc (.tel .FUSE_SKIP) .h0 1 k).wr (.tel .LDG_STATUS_FUSE_ERR) h 1)

end Sys2Proof.Machine
end

