-- ==== Sys2Proof/Machine/Time.lean ====
section
/-!
DEFINITION. Machine/Time.lean: the time base (§14): the servo with its steps (R464 to R468), the sources of fabric time (R455 to
R463), the rate of monotonic time (R452, R453), and the event comparators with their holders (R469 to R481).
-/

namespace Sys2Proof.Machine

/-! ### Values -/

/-- A quotient rounded to a whole number either way, the choice being free: the spec states no rounding (log entry 34). -/
def roundEither (s : State) (num : Int) (den : Nat) : Int × State :=
  if num % (den : Int) = 0 then (num / (den : Int), s)
  else (num / (den : Int) + ((Config.freeValue s.freeCount % 2 : Nat) : Int), drawFree s)

/-- TIME_STATUS.LAST_STATUS set. -/
def timeStatus (s : State) (h : Half) (st : Nat) : State := s.wr (.tim .TIME_STATUS_LAST_STATUS) h st

/-- TIME_STATUS.STATE: 0 FREE, 1 LOCKING, 2 LOCKED, 3 HOLDOVER; a change to LOCKED or HOLDOVER sets its cause (R463, R464). -/
def timeState (s : State) (h : Half) (st : Nat) : State :=
  if s.rd (.tim .TIME_STATUS_STATE) h = st then s
  else
    let s1 := s.wr (.tim .TIME_STATUS_STATE) h st
    if st = 2 then raiseCause s1 10 h 8 else if st = 3 then raiseCause s1 10 h 4 else s1

/-- HOLDOVER (R463): FT_RATE holds the integral term. -/
def enterHold (s : State) (h : Half) : State :=
  ((timeState s h 3).wr (.tim .LOCK_RUN) h 0).wr (.tim .FT_RATE) h (s.rd (.tim .FT_INTEG) h)

/-! ### What a comparator's holder does (R470, R475, R480, R481) -/

/-- The comparator compares MT, by its holder's CLOCK. -/
def cmpOnMt (s : State) (h : Half) (c : Nat) : Bool :=
  match s.rd (.tim .CMP_STATUS_HOLDER) h c with
  | 1 => false
  | 2 => true
  | 3 => s.rd (.tim .TRIG_CLOCK) h 0 == 1
  | 4 => s.rd (.tim .TRIG_CLOCK) h 1 == 1
  | 5 => s.rd (.tim .PPS_OUT_CFG_CLOCK) h == 1
  | _ => s.rd (.tim .CMP_CTL_CLOCK) h c == 1

/-- The comparator's period, by its holder; 0 fires once. -/
def cmpPeriod (s : State) (h : Half) (c : Nat) : Nat :=
  match s.rd (.tim .CMP_STATUS_HOLDER) h c with
  | 1 => 0
  | 2 => 0
  | 3 => s.rd (.tim .TRIG_PERIOD) h 0
  | 4 => s.rd (.tim .TRIG_PERIOD) h 1
  | 5 => 1000000000
  | _ => s.rd (.tim .CMP_PERIOD) h c

/-- The status that Table 14.7 gives an occurrence that is `late` ns late, 0 included. -/
def lateStatus (drop : Bool) (tol late : Nat) : Nat := if drop ∧ tol < late then ST_LATE_DROPPED else ST_LATE

/-- An occurrence of a scheduled action with its status (R480). -/
def scheduledAct (s : State) (h : Half) (c st : Nat) : State :=
  let s1 := s.wr (.tim .CMP_STATUS_LAST) h st c
  let s2 := if st = ST_LATE_DROPPED then countDrop (skipCmp s1 h c 1) h else if st = ST_LATE then countLate s1 h else s1
  if s.rd (.tim .CMP_CTL_ACT) h c = 0 then postEvent s2 h pf st (s.mt h) c
  else if st = ST_LATE_DROPPED then s2
  else evcAdd s2 h (s.rd (.tim .CMP_CTL_COUNTER) h c) (s.rd (.tim .CMP_VALUE) h c)

/-- The pin of a trigger (holder 3 or 4) or of PPS_OUT. -/
def cmpPin (holder : Nat) : AuxPin := if holder = 3 then pinOut (trigPin 0) else if holder = 4 then pinOut (trigPin 1) else .pwm3

/-- An occurrence of a pin feature: the pulse begins, or the late occurrence is dropped (R481). -/
def pinAct (s : State) (h : Half) (c st : Nat) : State :=
  let s1 := s.wr (.tim .CMP_STATUS_LAST) h st c
  if st = ST_LATE_DROPPED then skipCmp s1 h c 1
  else
    let s2 := if st = ST_LATE then raiseCause s1 10 h (2 ^ 4) else s1
    drivePin s2 h (cmpPin (s.rd (.tim .CMP_STATUS_HOLDER) h c)) 2

/-- The next target of a comparator after the occurrence at `t`: t + PERIOD, or unarmed (R469). -/
def advanceCmp (s : State) (h : Half) (c t : Nat) : State :=
  let p := cmpPeriod s h c
  if p = 0 then s.wr (.tim .CMP_STATUS_ARMED) h 0 c else s.wr (.tim .CMP_TARGET) h (t + p) c

/-- A natural firing at the target, with lateness 0 (R468, R469). -/
def fireCmp (s : State) (h : Half) (c : Nat) : State :=
  let t := s.rd (.tim .CMP_TARGET) h c
  let holder := s.rd (.tim .CMP_STATUS_HOLDER) h c
  let s1 := advanceCmp s h c t
  if holder = 1 then fireList s1 h false t
  else if holder = 2 then fireList s1 h true t
  else if holder = 6 then scheduledAct s1 h c ST_OK
  else pinAct s1 h c ST_OK

/-- A firing of a target that the clock has passed (R467, R480): once, for the latest passed occurrence, with its own lateness; the
earlier ones are skipped. -/
def catchCmp (s : State) (h : Half) (c : Nat) : State :=
  let t := s.rd (.tim .CMP_TARGET) h c
  let p := cmpPeriod s h c
  let holder := s.rd (.tim .CMP_STATUS_HOLDER) h c
  let clock := clockOf s h (cmpOnMt s h c)
  let n := if p = 0 then 0 else (clock - t) / p
  let occ := t + n * p
  let s1 := skipCmp (advanceCmp s h c occ) h c n
  if holder = 1 then judgeList s1 h false
  else if holder = 2 then judgeList s1 h true
  else if holder = 6 then
    scheduledAct s1 h c (lateStatus (s.rd (.tim .CMP_CTL_DROP_IF_LATE) h c == 1) (s.rd (.tim .CMP_LATE_TOL) h c) (clock - occ))
  else pinAct s1 h c (lateStatus true 0 (clock - occ))

/-- COMPARATOR_FIRE (R469): the clock of an armed comparator is at or above its target. -/
def execComparatorFire (h : Half) (c : Fin 16) (s : State) : Res :=
  if s.rd (.tim .CMP_STATUS_ARMED) h c.val = 1 ∧
      s.rd (.tim .CMP_TARGET) h c.val ≤ clockOf s h (cmpOnMt s h c.val) then
    .next (fireCmp s h c.val)
  else .next s

/-! ### The servo (R464 to R467) -/

/-- Armed FT comparators whose target a forward step has passed fire (R467). -/
def catchPassed (s : State) (h : Half) : State :=
  (List.range 16).foldl (fun t c =>
    if t.rd (.tim .CMP_STATUS_ARMED) h c = 1 ∧ cmpOnMt t h c = false ∧ t.rd (.tim .CMP_TARGET) h c ≤ t.rd (.tim .FT) h then
      catchCmp t h c
    else t) s

/-- FT_STEP (R465): FT moves by `e` (in 2⁻¹⁶ ns), whole ns and fraction together. -/
def stepFt (s : State) (h : Half) (e : Int) : State :=
  let t := ((ftFine s h : Int) + e).toNat
  let s1 := (s.wr (.tim .FT) h (t / 65536)).wr (.tim .FT_FRAC) h (t % 65536)
  let s2 := raiseCause (s1.inc (.tim .STEP_CNT) h 1) 10 h 1
  let us := min (2 ^ 31 - 1) (ceilDiv e.natAbs 65536000)
  let s3 := postNotice s2 h ST_TIME_STEP (s.mt h) ((if e < 0 then 2 ^ 31 else 0) + us)
  if 0 < e then catchPassed s3 h else s3

/-- A step by `e` keeps FT in 0 to 2⁶⁴ − 1 (§14.3 "At the edges"). -/
def stepFits (s : State) (h : Half) (e : Int) : Bool :=
  let t := (ftFine s h : Int) + e
  decide (0 ≤ t ∧ t < ((2 ^ 80 : Nat) : Int))

/-- An error at or above STEP_THR that is not stepped: FT_UNSYNC, and slew at the limit (R464). -/
def limitSlew (s : State) (h : Half) (e : Int) : State :=
  (raiseCause (s.wr (.tim .TIME_STATUS_FT_UNSYNC) h 1) 10 h 2).wr (.tim .FT_RATE) h
    (unsignedOf 32 (if e < 0 then -500000 else 500000))

/-- A rate in ppb: `base` plus `gain` (UQ0.16) × e / T, within ±500 ppm; `e` is in 2⁻¹⁶ ns (R464), and the quotient is truncated toward zero
(§0.4). -/
def servoRate (base : Int) (gain : Nat) (e : Int) (T : Nat) : Int :=
  clampInt (-500000) 500000 (base + ((gain : Int) * e * 1000000000).tdiv (65536 * 65536 * T))

/-- An error below STEP_THR slewed (R464): the integral term, then the rate. -/
def slew (s : State) (h : Half) (e : Int) (T : Nat) : State :=
  let i := servoRate (signedOf 32 (s.rd (.tim .FT_INTEG) h)) (s.rd (.tim .TIME_SERVO_KI) h) e T
  let r := servoRate i (s.rd (.tim .TIME_SERVO_KP) h) e T
  (s.wr (.tim .FT_INTEG) h (unsignedOf 32 i)).wr (.tim .FT_RATE) h (unsignedOf 32 r)

/-- The interval of a measurement in ns: since the last accepted one, or 1 s (R455, R464). -/
def measureInterval (s : State) (h : Half) : Nat :=
  let last := s.rd (.tim .LAST_MEAS) h
  if last = 0 then 1000000000 else max 1 (s.mt h + 1 - last)

/-- The lock state after a measurement (R464). -/
def judgeLock (s : State) (h : Half) (e : Int) : State :=
  if e.natAbs < s.rd (.tim .TIME_THR_LOCK_THR) h * 65536 then
    let run := min 8 (s.rd (.tim .LOCK_RUN) h + 1)
    timeState ((s.wr (.tim .LOCK_RUN) h run).wr (.tim .TIME_STATUS_FT_UNSYNC) h 0) h (if run = 8 then 2 else 1)
  else timeState (s.wr (.tim .LOCK_RUN) h 0) h 1

/-- SERVO_MEASURE (R464): an accepted measurement `e`, in 2⁻¹⁶ ns; none is taken in Lowland mode (R463). -/
def measure (s : State) (h : Half) (e : Int) : State :=
  if s.lowland h then s
  else
    let T := measureInterval s h
    let s1 :=
      if s.rd (.tim .TIME_THR_STEP_THR) h * 65536000 ≤ e.natAbs then
        if s.rd (.tim .TIME_CTL_STEP_EN) h = 1 ∧ stepFits s h e then stepFt s h e else limitSlew s h e
      else slew s h e T
    let r := roundEither s1 e 65536
    judgeLock ((r.2.wr (.tim .FT_OFFSET) h (unsignedOf 64 r.1)).wr (.tim .LAST_MEAS) h (s.mt h + 1)) h e

/-! ### Clocks (R452, R453, R455, R463) -/

/-- TIME_SNAP (R455). -/
def execTimeSnap (h : Half) (s : State) : Res :=
  .next (timeStatus (((s.wr (.tim .SNAP_MT_T) h (s.mt h)).wr (.tim .SNAP_FT) h (s.rd (.tim .FT) h)).wr (.tim .SNAP_FRAC) h
    (s.rd (.tim .FT_FRAC) h)) h ST_OK)

/-- FT_WRITE (R455): with SEL = 0 an offset measurement, else refused. -/
def execFtWrite (h : Half) (v : Nat) (s : State) : Res :=
  if s.rd (.tim .TIME_CTL_SEL) h = 0 then
    .next (timeStatus (measure s h (((v % 2 ^ 64 * 65536 : Nat) : Int) - (ftFine s h : Int))) h ST_OK)
  else .next (timeStatus s h ST_TIME_CONFIG)

/-- MT_RATE of both halves set, on the acknowledgement of the other half (R452); it is frozen from a down declaration to the rejoin (R532,
R535). -/
def setMtRate (s : State) (h : Half) (rate : Int) : State :=
  let split := 3 ≤ s.rd (.pkg .PASS_STATUS_STATE) .h0 ∨ 3 ≤ s.rd (.pkg .PASS_STATUS_STATE) .h1
  if s.holds h ∧ s.peerReachable h ∧ ¬split then
    (s.wr (.tim .MT_RATE) .h0 (unsignedOf 32 rate)).wr (.tim .MT_RATE) .h1 (unsignedOf 32 rate)
  else s

/-- The fields of TIME_CTL. -/
def timeCtlFields (s : State) (h : Half) (v : Nat) : State :=
  (((((s.wr (.tim .TIME_CTL_DREQ_EN) h (bitsAt v 16 1)).wr (.tim .TIME_CTL_SRC_PORT) h (bitsAt v 12 4)).wr
    (.tim .TIME_CTL_SEL) h (bitsAt v 8 3)).wr (.tim .TIME_CTL_BCN_TX) h (bitsAt v 2 6)).wr
    (.tim .TIME_CTL_STEP_EN) h (bitsAt v 1 1)).wr (.tim .TIME_CTL_MT_DISC) h (bitsAt v 0 1)

/-- TIME_CTL_WRITE (R453, R456, R463): a change of SEL or SRC_PORT enters HOLDOVER, or FREE with SEL = 0. -/
def execTimeCtlWrite (h : Half) (v : Nat) (s : State) : Res :=
  if 4 < bitsAt v 8 3 ∨ 5 < bitsAt v 12 4 then .next (timeStatus s h ST_TIME_CONFIG)
  else
    let same := bitsAt v 8 3 = s.rd (.tim .TIME_CTL_SEL) h ∧ bitsAt v 12 4 = s.rd (.tim .TIME_CTL_SRC_PORT) h
    let s1 := timeCtlFields s h v
    let s2 := if same then s1
      else if bitsAt v 8 3 = 0 ∧ s.lowland h = false then (timeState s1 h 0).wr (.tim .LOCK_RUN) h 0
      else enterHold s1 h
    let s3 := if bitsAt v 0 1 = 0 then setMtRate s2 h 0 else s2
    .next (timeStatus (ptpRefresh s3 h) h ST_OK)

/-- MT_RATE_ADJUST (R452, R453): once per second, on the role holder with a peer that acknowledges. -/
def execMtRateAdjust (h : Half) (s : State) : Res :=
  if s.rd (.tim .TIME_CTL_MT_DISC) h = 0 then .next (setMtRate s h 0)
  else if s.rd (.tim .TIME_STATUS_STATE) h = 2 then
    let now := signedOf 32 (s.rd (.tim .MT_RATE) h)
    let goal := clampInt (-100000) 100000 (signedOf 32 (s.rd (.tim .FT_INTEG) h))
    .next (setMtRate s h (now + clampInt (-1000) 1000 (goal - now)))
  else .next s

/-- FT_SOURCE_TIMEOUT (R463): no measurement has been accepted for SRC_TMO; before the first one of a source the time counts from the start
of MT. A half that is FREE waits for none; with SEL = 0 a write of FT is a measurement like another (R455). -/
def execFtSourceTimeout (h : Half) (s : State) : Res :=
  if (s.rd (.tim .TIME_CTL_SEL) h ≠ 0 ∨ s.rd (.tim .TIME_STATUS_STATE) h ≠ 0) ∧
      s.rd (.tim .LAST_MEAS) h + s.rd (.tim .TIME_INT_SRC_TMO) h * 1000000 ≤ s.mt h + 1 then
    .next (enterHold s h)
  else .next s

/-! ### Beacons and link delay (R457 to R459) -/

/-- A time packet to the neighbour across a port, put on that port's VC3 (R457). -/
def timePacket (s : State) (h : Half) (n ptype : Nat) (transport : List Byte) : State :=
  let code := portDir s h n
  if portOpen s h n = false ∨ code = 0 then s
  else
    let d := (code - 1) / 2
    let dir := (code - 1) % 2
    let me := coord (myNode s h) d
    let wrap := if dir = 0 then decide (me + 1 = torusSize s h d) else decide (me = 0)
    let p := newPacket s h (neighbour s h n) ptype transport []
    queuePacket s h n 3 { p with dim := d, dir := dir, dlx := bit wrap }

/-- The beacon of a half on one port; FRAC and ORIGIN_FT are written at the transmit stamp (R459). -/
def sendBeacon (s : State) (h : Half) (n : Nat) : State :=
  let st := s.rd (.tim .TIME_STATUS_STATE) h
  let relay := s.rd (.tim .TIME_CTL_SEL) h = 2
  let valid := s.rd (.tim .TIME_CTL_SEL) h = 0 ∨ st = 2 ∨ st = 3
  let seq := s.rd (.tim .BCN_SEQ) h n
  timePacket (s.wr (.tim .BCN_SEQ) h (seq + 1) n) h n 0x20
    (leBytes 2 seq ++ leBytes 1 (if relay then s.rd (.tim .BCN_HOPS) h + 1 else 0) ++
      leBytes 1 (bit (decide valid) + bit (st == 3) * 2) ++
      leBytes 2 (if relay then s.rd (.tim .BCN_GM) h else myNode s h) ++ zeros 18)

/-- BEACON_SEND (R459): a beacon on every port of BCN_TX that carries packets. -/
def execBeaconSend (h : Half) (s : State) : Res :=
  .next ((List.range 6).foldl (fun t n =>
    if (t.rd (.tim .TIME_CTL_BCN_TX) h).testBit n ∧ portOpen t h n then sendBeacon t h n else t) s)

/-- The first packet of a type delivered to a half, taken. -/
def takeTime (s : State) (h : Half) (ptype : Nat) : Option (Packet × State) :=
  (s.localPkts.find? fun a => a.1 == h && a.2.ptype == ptype).map fun a =>
    (a.2, { s with localPkts := s.localPkts.eraseP fun b => b.1 == h && b.2.ptype == ptype })

/-- An accepted beacon (R458, R459): its GM and HOPS are kept, and it gives e = ORIGIN_FT + FRAC + LINK_DELAY − FT. -/
def acceptBeacon (s : State) (h : Half) (p : Packet) : State :=
  let origin := fieldAt p.transport 8 8 * 65536 + fieldAt p.transport 6 2 + s.rd (.tim .LINK_DELAY) h p.port
  let s1 := (s.wr (.tim .BCN_GM) h (fieldAt p.transport 4 2)).wr (.tim .BCN_HOPS) h (fieldAt p.transport 2 1)
  measure s1 h ((origin : Int) - (p.stampFt : Int))

/-- BEACON_RECEIVE (R458). -/
def execBeaconReceive (h : Half) (s : State) : Res :=
  match takeTime s h 0x20 with
  | none => .next s
  | some (p, s1) =>
    if s.rd (.tim .TIME_CTL_SEL) h = 2 ∧ p.port = s.rd (.tim .TIME_CTL_SRC_PORT) h ∧ (fieldAt p.transport 3 1).testBit 0 = true ∧
        s.rd (.tim .DELAY_CNT) h p.port ≠ 0 ∧ s.lowland h = false then
      .next (acceptBeacon s1 h p)
    else .next s1

/-- A delay request on one port. -/
def sendDelayReq (s : State) (h : Half) (n : Nat) : State :=
  let seq := s.rd (.tim .DREQ_SEQ) h n
  timePacket ((s.wr (.tim .DREQ_SEQ) h (seq + 1) n).wr (.tim .DREQ_T1) h 0 n) h n 0x21 (leBytes 2 seq ++ zeros 22)

/-- DELAY_REQ_SEND (R458): a request on every port that is UP or DEGRADED. -/
def execDelayReqSend (h : Half) (s : State) : Res :=
  if s.rd (.tim .TIME_CTL_DREQ_EN) h = 1 then
    .next ((List.range 6).foldl (fun t n => if portOpen t h n then sendDelayReq t h n else t) s)
  else .next s

/-- DELAY_REQ_RECEIVE (R458): answered at once, T3 being written at the transmit stamp. -/
def execDelayReqReceive (h : Half) (s : State) : Res :=
  match takeTime s h 0x21 with
  | none => .next s
  | some (p, s1) =>
    .next (timePacket s1 h p.port 0x22 (leBytes 2 (fieldAt p.transport 0 2) ++ zeros 6 ++ leBytes 8 p.stampMt ++ zeros 8))

/-- A link-delay sample of a port, Q16.16 ns, from twice its value in ns; a delay that the format does not hold is a free value. -/
def delaySample (s : State) (twice : Int) : Nat × State :=
  let q := twice * 32768
  if 0 ≤ q ∧ q < ((2 ^ 32 : Nat) : Int) then (q.toNat, s) else (Config.freeValue s.freeCount % 2 ^ 32, drawFree s)

/-- A sample added in the place of the oldest of 8, and LINK_DELAY the mean of the last 8 (R458). The count of samples names the place, and
goes round from 8 to 15. -/
def addDelay (s : State) (h : Half) (n q : Nat) : State :=
  let k := s.rd (.tim .DELAY_CNT) h n
  let s1 := (s.wr (.tim .DELAY_SMP) h q (8 * n + k % 8)).wr (.tim .DELAY_CNT) h (if 15 ≤ k then 8 else k + 1) n
  let cnt := min 8 (k + 1)
  let sum := (List.range cnt).foldl (fun a i => a + s1.rd (.tim .DELAY_SMP) h (8 * n + i)) 0
  let r := roundEither s1 sum cnt
  r.2.wr (.tim .LINK_DELAY) h r.1.toNat n

/-- DELAY_RESP_RECEIVE (R458): d = ((t4 − t1) − (T3 − T2)) / 2. -/
def execDelayRespReceive (h : Half) (s : State) : Res :=
  match takeTime s h 0x22 with
  | none => .next s
  | some (p, s1) =>
    let n := p.port
    let t1 := s.rd (.tim .DREQ_T1) h n
    if t1 ≠ 0 ∧ fieldAt p.transport 0 2 = (s.rd (.tim .DREQ_SEQ) h n + 65535) % 65536 then
      let twice : Int := ((p.stampMt : Int) - ((t1 : Int) - 1)) - ((fieldAt p.transport 16 8 : Int) - (fieldAt p.transport 8 8 : Int))
      let q := delaySample (s1.wr (.tim .DREQ_T1) h 0 n) twice
      .next (addDelay q.2 h n q.1)
    else .next s1

/-! ### PTP (R460) -/

/-- A foreign timeTransmitter is qualified: two Announce messages within four Announce intervals (log entry 35). -/
def PtpMaster.qualified (s : State) (m : PtpMaster) : Bool :=
  match m.prevMt with
  | none => false
  | some t =>
    let span : Nat := if 0 ≤ m.logInt then 4000000000 * 2 ^ m.logInt.toNat else 4000000000 / 2 ^ (-m.logInt).toNat
    decide (s.mt m.half ≤ t + span)

/-- Order of lists of numbers of one length. -/
def lexBefore : List Nat → List Nat → Bool
  | a :: x, b :: y => decide (a < b) || (decide (a = b) && lexBefore x y)
  | _, _ => false

/-- The dataset comparison of the default BMCA (log entry 35). -/
def PtpMaster.better (a b : PtpMaster) : Bool :=
  if a.dataset.getD 5 0 = b.dataset.getD 5 0 then lexBefore [a.dataset.getD 6 0, a.src] [b.dataset.getD 6 0, b.src]
  else lexBefore (a.dataset.take 6) (b.dataset.take 6)

/-- The best qualified timeTransmitter of a half. -/
def bestMaster (s : State) (h : Half) : Option PtpMaster :=
  (s.ptp.filter fun m => m.half == h && m.qualified s).foldl (fun b m =>
    match b with
    | none => some m
    | some x => if m.better x then some m else some x) none

/-- The state of the PTP port after a selection: a new choice starts UNCALIBRATED, none is LISTENING. -/
def ptpSelect (s : State) (h : Half) : State :=
  match bestMaster s h with
  | none => s.wr (.tim .PTP_STATUS_PORT_STATE) h 1
  | some m =>
    let s1 := s.wr (.tim .PTP_GM_ID) h (m.src / 65536)
    if 2 ≤ s.rd (.tim .PTP_STATUS_PORT_STATE) h ∧ s.rd (.tim .PTP_PARENT) h = m.src then s1
    else
      let s2 := ((s1.wr (.tim .PTP_PARENT) h m.src).wr (.tim .PTP_STATUS_PORT_STATE) h 2).wr (.tim .PTP_PD) h 0
      ((s2.wr (.tim .PTP_PD_V) h 0).wr (.tim .PTP_SYNC_V) h 0).wr (.tim .PTP_DREQ_V) h 0

/-- A PTP message is for the half's clock: PTP runs, and the transport and the domain are those of PTP_CFG. -/
def ptpTakes (s : State) (h : Half) (domain : PtpNet) : Bool :=
  ptpOn s h && s.rd (.tim .PTP_CFG_DOMAIN) h == domain.number && s.rd (.tim .PTP_CFG_TRANSPORT) h == domain.transport.val

/-- PTP_ANNOUNCE_RECEIVE (R460): the sender joins the foreign timeTransmitters, at most 8, and one is selected. -/
def execPtpAnnounceReceive (h : Half) (domain : PtpNet) (src : Nat) (dataset : List Nat) (logInt : Int) (s : State) : Res :=
  if ptpTakes s h domain then
    let known := s.ptp.find? fun m => m.half == h && m.src == src
    let others := s.ptp.filter fun m => !(m.half == h && m.src == src)
    let m : PtpMaster := ⟨h, src, dataset, logInt, s.mt h, known.map (·.lastMt)⟩
    let full := known.isNone && decide (8 ≤ (s.ptp.filter fun m => m.half == h).length)
    .next (ptpSelect (if full then s else { s with ptp := others ++ [m] }) h)
  else .next s

/-- A Sync's origin and receipt are known: the measurement it gives, and TIME_RECEIVER once the path delay is known too. -/
def ptpMeasure (s : State) (h : Half) (origin t2 : Int) : State :=
  let pd := signedOf 96 (s.rd (.tim .PTP_PD) h)
  let s1 := s.wr (.tim .PTP_MS) h (unsignedOf 96 (t2 - origin))
  let s2 := if s.rd (.tim .PTP_PD_V) h = 1 then s1.wr (.tim .PTP_STATUS_PORT_STATE) h 3 else s1
  measure s2 h (origin + pd - t2)

/-- A message comes from the chosen timeTransmitter. -/
def fromParent (s : State) (h : Half) (domain : PtpNet) (src : Nat) : Bool :=
  ptpTakes s h domain && decide (2 ≤ s.rd (.tim .PTP_STATUS_PORT_STATE) h) && s.rd (.tim .PTP_PARENT) h == src

/-- PTP_SYNC_RECEIVE (R460): stamped; a one-step Sync gives its measurement, a two-step one waits for its Follow_Up. `origin` is in
ns and `corr` in 2⁻¹⁶ ns. -/
def execPtpSyncReceive (h : Half) (domain : PtpNet) (src seq : Nat) (twoStep : Bool) (origin corr : Int) (s : State) : Res :=
  let s0 := if ptpTakes s h domain then ptpSelect s h else s
  if fromParent s0 h domain src then
    if twoStep then
      let s1 := (s0.wr (.tim .PTP_SYNC_V) h 1).wr (.tim .PTP_SYNC_SEQ) h seq
      .next ((s1.wr (.tim .PTP_SYNC_T2) h (ftFine s h)).wr (.tim .PTP_SYNC_CORR) h (unsignedOf 64 corr))
    else .next (ptpMeasure (s0.wr (.tim .PTP_SYNC_V) h 0) h (origin * 65536 + corr) (ftFine s h))
  else .next s0

/-- PTP_FOLLOW_UP_RECEIVE (R460). -/
def execPtpFollowUpReceive (h : Half) (domain : PtpNet) (src seq : Nat) (origin corr : Int) (s : State) : Res :=
  if fromParent s h domain src ∧ s.rd (.tim .PTP_SYNC_V) h = 1 ∧ s.rd (.tim .PTP_SYNC_SEQ) h = seq % 65536 then
    .next (ptpMeasure (s.wr (.tim .PTP_SYNC_V) h 0) h
      (origin * 65536 + corr + signedOf 64 (s.rd (.tim .PTP_SYNC_CORR) h)) (s.rd (.tim .PTP_SYNC_T2) h))
  else .next s

/-- PTP_CFG.TRANSPORT and DOMAIN. -/
def ptpNet (s : State) (h : Half) : PtpNet := ⟨Fin.ofNat 3 (s.rd (.tim .PTP_CFG_TRANSPORT) h), s.rd (.tim .PTP_CFG_DOMAIN) h⟩

/-- The group that a transport addresses, and the UDP port or the Ethertype of a Delay_Req (Table 14.4; that it goes to port 319 of the two
is PRESUMED, log entry 35). -/
def ptpGroup (transport : Fin 3) : List Nat × Nat :=
  match transport with
  | 0 => ([224, 0, 1, 129], 319)
  | 1 => ([0xFF, 0x0E] ++ List.replicate 12 0 ++ [0x01, 0x81], 319)
  | _ => ([0x01, 0x1B, 0x19, 0, 0, 0], 0x88F7)

/-- PTP_DELAY_REQ_SEND (R460). -/
def execPtpDelayReqSend (h : Half) (s : State) : Res :=
  if ptpOn s h ∧ 2 ≤ s.rd (.tim .PTP_STATUS_PORT_STATE) h ∧ s.rd (.egr .EGR_STATUS_LINK_UP) h = 1 then
    let seq := (s.rd (.tim .PTP_DREQ_SEQ) h + 1) % 65536
    let s1 := (s.wr (.tim .PTP_DREQ_SEQ) h seq).wr (.tim .PTP_DREQ_V) h 1
    .next ((s1.wr (.tim .PTP_DREQ_T3) h (ftFine s h)).emit
      (.ptpDelayReq h seq (ptpNet s h) (ptpGroup (ptpNet s h).transport).1 (ptpGroup (ptpNet s h).transport).2))
  else .next s

/-- PTP_DELAY_RESP_RECEIVE (R460): the mean path delay, ((t2 − t1) + (t4 − t3)) / 2; `received` is t4 in ns. -/
def execPtpDelayRespReceive (h : Half) (domain : PtpNet) (src seq : Nat) (mine : Bool) (received corr : Int) (s : State) : Res :=
  if fromParent s h domain src ∧ mine = true ∧ s.rd (.tim .PTP_DREQ_V) h = 1 ∧ s.rd (.tim .PTP_DREQ_SEQ) h = seq % 65536 then
    let sum := signedOf 96 (s.rd (.tim .PTP_MS) h) + (received * 65536 - corr - (s.rd (.tim .PTP_DREQ_T3) h : Int))
    let r := roundEither (s.wr (.tim .PTP_DREQ_V) h 0) sum 2
    .next ((r.2.wr (.tim .PTP_PD) h (unsignedOf 96 r.1)).wr (.tim .PTP_PD_V) h 1)
  else .next s

/-! ### PPS and the Pass (R461, R462) -/

/-- The whole second nearest to `x` ns, in ns; of two that are equally near, either. -/
def nearestSecond (s : State) (x : Int) : Int × State :=
  let r := x % 1000000000
  let lo := x - r
  if r = 500000000 then (lo + 1000000000 * ((Config.freeValue s.freeCount % 2 : Nat) : Int), drawFree s)
  else (if r < 500000000 then lo else lo + 1000000000, s)

/-- A rising edge of AUX_PPS_IN on one half (R461). -/
def ppsEdge (s : State) (h : Half) : State :=
  let last := s.rd (.tim .PPS_LAST) h
  if last ≠ 0 ∧ s.mt h + 1 < last + 500000000 then s.inc (.tim .PPS_IGN) h 1
  else
    let ft := s.rd (.tim .FT) h
    let s1 := ((s.wr (.tim .PPS_LAST) h (s.mt h + 1)).wr (.tim .PPS_IN_MT) h (s.mt h)).wr (.tim .PPS_IN_FT) h ft
    let s2 := raiseCause s1 10 h (2 ^ 7)
    if s.rd (.tim .TIME_CTL_SEL) h = 4 then
      let comp := signedOf 32 (s.rd (.tim .PPS_IN_COMP) h)
      let n := nearestSecond s2 ((ft : Int) - comp)
      measure n.2 h ((n.1 + comp - (ft : Int)) * 65536)
    else s2

/-- PPS_IN_EDGE (R461): the input reaches the time units of both halves. -/
def execPpsInEdge (s : State) : Res := .next (ppsEdge (ppsEdge s .h0) .h1)

/-- PASS_TIME_TRANSFER (R462): the other half's FT over the Pass main lanes, its delay subtracted. -/
def execPassTimeTransfer (h : Half) (s : State) : Res :=
  if s.rd (.tim .TIME_CTL_SEL) h = 3 ∧ s.lanesUp then
    .next (measure s h ((ftFine s h.other : Int) - (ftFine s h : Int)))
  else .next s

/-! ### Enabling the holders of comparators (R471, R480, R481) -/

/-- A scheduled action accepted: it waits for its target, or acts on the one it has passed (R480). -/
def acceptAction (s : State) (h : Half) (c : Nat) : State :=
  let s1 := s.wr (.tim .CMP_STATUS_ARMED) h 1 c
  if s.rd (.tim .CMP_TARGET) h c ≤ clockOf s h (cmpOnMt s h c) then catchCmp s1 h c else s1

/-- The fields of CMPc_CTL but EN. -/
def cmpCtlFields (s : State) (h : Half) (c v : Nat) : State :=
  (((s.wr (.tim .CMP_CTL_CLOCK) h (bitsAt v 30 1) c).wr (.tim .CMP_CTL_DROP_IF_LATE) h (bitsAt v 29 1) c).wr
    (.tim .CMP_CTL_ACT) h (bitsAt v 28 1) c).wr (.tim .CMP_CTL_COUNTER) h (bitsAt v 0 12) c

/-- A write changes a field of CMPc_CTL other than EN. -/
def cmpCtlDiffers (s : State) (h : Half) (c v : Nat) : Bool :=
  s.rd (.tim .CMP_CTL_CLOCK) h c != bitsAt v 30 1 || s.rd (.tim .CMP_CTL_DROP_IF_LATE) h c != bitsAt v 29 1 ||
    s.rd (.tim .CMP_CTL_ACT) h c != bitsAt v 28 1 || s.rd (.tim .CMP_CTL_COUNTER) h c != bitsAt v 0 12

/-- CMPc_CTL written (R471, R480, Table 14.9). -/
def cmpCtlWrite (s : State) (h : Half) (c v : Nat) : State :=
  let was := s.rd (.tim .CMP_CTL_EN) h c
  if was = 1 ∧ cmpCtlDiffers s h c v = true then timeStatus s h ST_TIME_CONFIG
  else
    let s1 := cmpCtlFields s h c v
    if bitsAt v 31 1 = was then timeStatus s1 h ST_OK
    else if was = 1 then timeStatus (releaseCmp (s1.wr (.tim .CMP_CTL_EN) h 0 c) h c) h ST_OK
    else if cmpClaimStatus s h c = ST_OK then
      timeStatus (acceptAction ((claimCmp s1 h c 6).wr (.tim .CMP_CTL_EN) h 1 c) h c) h ST_OK
    else timeStatus (claimCmp s1 h c 6) h ST_CONFLICT

/-- CMP_ENABLE (R480): CMPc_CTL written with EN = 1. -/
def execCmpEnable (h : Half) (c : Fin 16) (v : Nat) (s : State) : Res :=
  .next (cmpCtlWrite s h c.val (2 ^ 31 + v % 2 ^ 31))

/-- The fields of PPS_OUT_CFG but EN. -/
def ppsFields (s : State) (h : Half) (v : Nat) : State :=
  ((s.wr (.tim .PPS_OUT_CFG_CLOCK) h (bitsAt v 30 1)).wr (.tim .PPS_OUT_CFG_CMP) h (bitsAt v 20 4)).wr (.tim .PPS_OUT_CFG_WIDTH) h
    (bitsAt v 0 20)

/-- A write changes a field of PPS_OUT_CFG other than EN. -/
def ppsDiffers (s : State) (h : Half) (v : Nat) : Bool :=
  s.rd (.tim .PPS_OUT_CFG_CLOCK) h != bitsAt v 30 1 || s.rd (.tim .PPS_OUT_CFG_CMP) h != bitsAt v 20 4 ||
    s.rd (.tim .PPS_OUT_CFG_WIDTH) h != bitsAt v 0 20

/-- PPS_OUT's comparator armed with its next instant (R481). -/
def armPps (s : State) (h : Half) : State :=
  armCmp s h (s.rd (.tim .PPS_OUT_CFG_CMP) h) (ppsNext s h (clockOf s h (s.rd (.tim .PPS_OUT_CFG_CLOCK) h == 1)))

/-- PPS_OUT enabled: its pin, then its comparator, claimed (R88, R89, R471). -/
def ppsEnable (s : State) (h : Half) : State :=
  let c := s.rd (.tim .PPS_OUT_CFG_CMP) h
  if s.holds h = false then
    timeStatus (cmpOutcome s h ST_AUX_NO_ROLE c (s.rd (.tim .CMP_STATUS_HOLDER) h c) 5) h ST_AUX_NO_ROLE
  else
    let s1 := claimPin s h 1 4
    if pinClaimStatus s h 1 = ST_OK then
      let s2 := claimCmp s1 h c 5
      if cmpClaimStatus s1 h c = ST_OK then
        timeStatus (drivePin (armPps (s2.wr (.tim .PPS_OUT_CFG_EN) h 1) h) h .pwm3 1) h ST_OK
      else timeStatus (releasePin s2 h 1) h ST_CONFLICT
    else timeStatus s1 h ST_CONFLICT

/-- PPS_OUT disabled: its comparator and pin released. -/
def ppsDisable (s : State) (h : Half) : State :=
  timeStatus (releasePin (releaseCmp (s.wr (.tim .PPS_OUT_CFG_EN) h 0) h (s.rd (.tim .PPS_OUT_CFG_CMP) h)) h 1) h ST_OK

/-- PPS_OUT_CFG written (R471, R481, Table 14.9). -/
def ppsOutWrite (s : State) (h : Half) (v : Nat) : State :=
  let was := s.rd (.tim .PPS_OUT_CFG_EN) h
  if bitsAt v 0 20 = 0 ∨ 500000 < bitsAt v 0 20 ∨ (was = 1 ∧ ppsDiffers s h v = true) then timeStatus s h ST_TIME_CONFIG
  else
    let s1 := ppsFields s h v
    if bitsAt v 31 1 = was then timeStatus s1 h ST_OK
    else if was = 1 then ppsDisable s1 h
    else ppsEnable s1 h

/-- PPS_OUT_ENABLE (R471): PPS_OUT_CFG written with EN = 1. -/
def execPpsOutEnable (h : Half) (v : Nat) (s : State) : Res := .next (ppsOutWrite s h (2 ^ 31 + v % 2 ^ 31))

/-- A release list's enable bit. -/
def listEn (mt : Bool) : Fld := if mt then .tim .TIME_REL_CTL_EN_MT else .tim .TIME_REL_CTL_EN_FT

/-- A release list switched: enabling claims its comparator and judges the entries already passed; disabling releases it and
leaves the entries in place (R471, §14.7 "At the edges"). -/
def switchList (s : State) (h : Half) (mt on : Bool) : State :=
  let c := listCmp s h mt
  if on = (s.rd (listEn mt) h == 1) then s
  else if on then
    if cmpClaimStatus s h c = ST_OK then
      judgeList ((claimCmp s h c (1 + bit mt)).wr (listEn mt) h 1) h mt
    else timeStatus (claimCmp s h c (1 + bit mt)) h ST_CONFLICT
  else releaseCmp (s.wr (listEn mt) h 0) h c

/-- TIME_REL_CTL_WRITE (R471): an index changes only while its list is disabled. -/
def execTimeRelCtlWrite (h : Half) (v : Nat) (s : State) : Res :=
  let busyFt := s.rd (.tim .TIME_REL_CTL_EN_FT) h = 1 ∧ bitsAt v 4 4 ≠ s.rd (.tim .TIME_REL_CTL_CMP_FT) h
  let busyMt := s.rd (.tim .TIME_REL_CTL_EN_MT) h = 1 ∧ bitsAt v 12 4 ≠ s.rd (.tim .TIME_REL_CTL_CMP_MT) h
  if busyFt ∨ busyMt then .next (timeStatus s h ST_TIME_CONFIG)
  else
    let s1 := (s.wr (.tim .TIME_REL_CTL_CMP_FT) h (bitsAt v 4 4)).wr (.tim .TIME_REL_CTL_CMP_MT) h (bitsAt v 12 4)
    .next (switchList (switchList (timeStatus s1 h ST_OK) h false (v.testBit 0)) h true (v.testBit 8))

/-! ### The move of the roles (R473) -/

/-- A trigger that stays enabled claims its comparator on the incoming half, or stays disabled with RECLAIM_FAIL (R473). -/
def reclaimTrig (s : State) (h : Half) (k : Nat) : State :=
  let c := trigCmp s h k
  if s.rd (.thm .TRIG_CFG_EN) h k = 0 then s
  else if cmpClaimStatus s h c = ST_OK then
    armTrig (claimCmp s h c (3 + k)) h k (s.rd (.thm .TRIG_CFG_MODE) h k == 1)
  else
    let s1 := (claimCmp s h c (3 + k)).wr (.thm .TRIG_CFG_EN) h 0 k
    raiseCause (s1.wr (pinOwner (trigPin k)) h 0) 10 h (2 ^ 6)

/-- The same for PPS_OUT. -/
def reclaimPps (s : State) (h : Half) : State :=
  let c := s.rd (.tim .PPS_OUT_CFG_CMP) h
  if s.rd (.tim .PPS_OUT_CFG_EN) h = 0 then s
  else if cmpClaimStatus s h c = ST_OK then armPps (claimCmp s h c 5) h
  else
    let s1 := (claimCmp s h c 5).wr (.tim .PPS_OUT_CFG_EN) h 0
    raiseCause (s1.wr (pinOwner 1) h 0) 10 h (2 ^ 6)

/-- The comparators of TRIG_OUT and PPS_OUT claimed on the half that takes the roles (R473). -/
def reclaimCmps (s : State) (h : Half) : State := reclaimPps (reclaimTrig (reclaimTrig s h 0) h 1) h

end Sys2Proof.Machine
end

