-- ==== Sys2Proof/Machine/Roles.lean ====
section
/-!
DEFINITION. Machine/Roles.lean: the move of the chip-wide roles between the halves (R66, R90, R473, R537), and what a generation
carries (R538, R541).
-/

namespace Sys2Proof.Machine

/-! ### Generations (R538, Table 16.11) -/

/-- THERM fields that stay with their half: what its own hardware measures and drives, and the two registers that the half without
the roles keeps (R66). -/
def ownTherm : List ThmF :=
  [.THERM_STATUS_LAST_STATUS, .THERM_STATUS_OWNER, .THERM_EVENT, .AUX_CLAIM_STATUS_LAST_STATUS, .AUX_CLAIM_STATUS_PIN,
    .AUX_CLAIM_STATUS_HOLDER, .AUX_CLAIM_STATUS_REQUESTER, .AUX_KEY_PATTERN, .AUX_KEY_CABLE_OK, .AUX_DIAG, .ARR_LEVEL] ++
  [.PLAT_NOTE, .PLAT_NOTE_S, .PLAT_PLL, .PLAT_ACC, .STOP_MT, .DISPATCH_STOP, .AUX_LEVEL, .AUX_DRIVING, .AUX_SHORTED, .FB_CH_T, .FB_LAST,
    .FB_IN_T, .FB_WIN, .FB_POSITION, .FB_PERIOD_DIR] ++
  [.FB_PERIOD_PERIOD, .FB_COUNT_WIN, .FB_STATUS_GLITCH, .FB_STATUS_WRAPPED, .FB_STATUS_STOPPED, .PWM_ACT_PERIOD, .PWM_ACT_DUTY] ++
  [.PWM_STATUS_LAST_STATUS, .PWM_STATUS_DISARMED, .PWM_STATUS_UPD_PEND, .PWM_SKIP, .PWM_T0, .FB_SEEN]

/-- TIME fields of the pin features: PPS_OUT, and the comparator indices and times of the triggers. -/
def pinTimes : List TimF :=
  [.PPS_OUT_CFG_EN, .PPS_OUT_CFG_CMP, .PPS_OUT_CFG_CLOCK, .PPS_OUT_CFG_WIDTH, .PPS_OUT_OFF, .TIME_TRIG_CMP_TRIG1, .TIME_TRIG_CMP_TRIG0,
    .TRIG_TARGET, .TRIG_PERIOD, .TRIG_CLOCK]

/-- Cells that a generation mirrors: THERM configuration, loop state and duties, claims, shadows, triggers and plateau, PPS_OUT, and the
counters of group 4 (R546). MT_RATE is the same on both halves already (R452). -/
def mirroredKey (h : Half) (k : Key) : Bool :=
  k.half == h && match k.fld with
    | .thm f => !(ownTherm.contains f)
    | .tim f => pinTimes.contains f
    | .tel .LIVE_SLOT => decide (128 ≤ k.idx ∧ k.idx < 160)
    | _ => false

/-- The snapshot of a half that holds the roles, as generation `g`. -/
def snapGeneration (s : State) (h : Half) (g : Nat) : Generation :=
  { num := g, snapMt := s.mt h, cells := s.regs.filter fun c => mirroredKey h c.key, ldgNext := s.rd (.tel .LDG_NEXT) .h0,
    history := s.history }

/-- The bytes of a generation in the standby's buffer (R538), whose layout the spec does not state (DESIGN CHOICE, log entry 87): MT of the
snapshot, the ledger's next SEQ, each mirrored cell with its number, and the event history. -/
def Generation.bytes (g : Generation) : List Byte :=
  leBytes 8 g.snapMt ++ leBytes 4 g.ldgNext ++ (g.cells.flatMap fun c => leBytes 8 c.key.code ++ leBytes 8 c.val) ++
    g.history.flatMap (·.bytes)

/-- The 16-byte commit record of a generation (R539). -/
def Generation.record (g : Generation) : List Byte :=
  let head := leBytes 4 g.num ++ leBytes 4 g.bytes.length ++ leBytes 4 (crc32c g.bytes)
  head ++ leBytes 4 (crc32c head)

/-- The mirrored cells of a half put back to their reset values. -/
def dropMirrored (s : State) (h : Half) : State := { s with regs := s.regs.filter fun c => !(mirroredKey h c.key) }

/-- A generation's cells loaded into a half. -/
def loadCells (s : State) (h : Half) (g : Generation) : State :=
  g.cells.foldl (fun t c => if mirroredKey c.key.half c.key then t.wr c.key.fld h c.val c.key.idx else t) (dropMirrored s h)

/-- The generation that a half holds committed as standby. -/
def State.gen (s : State) (h : Half) : Option Generation := (s.gens.find? fun p => p.1 == h).map (·.2)

/-- SEQ after the last programmed record. -/
def flashNext (s : State) : Nat := ((lastSlot s).map fun x => x.seq + 1).getD 0

/-- The ledger passes to a half (R540, R541): the records of the generation come with it; a record accepted after the snapshot stays
with the other MC as a delta, or is lost with it. -/
def passLedger (s : State) (h : Half) (g : Option Generation) (keep : Bool) : State :=
  let next := (g.map Generation.ldgNext).getD 0
  let buf := s.ldgBuf.filterMap fun p =>
    if p.1 = h ∨ p.2.taken = false then some p
    else if p.2.seq < next then some (h, p.2)
    else if keep then some (p.1, { p.2 with taken := false, seq := 0 })
    else none
  let s1 := { s with ldgBuf := buf, history := (g.map Generation.history).getD s.history }
  s1.wr (.tel .LDG_NEXT) .h0 (max next (flashNext s))

/-! ### The role latch (R537) -/

/-- The role latch of a half is set: it owns the THERM region, writes the ledger and is ACTIVE (R537, R554). -/
def setLatch (s : State) (h : Half) : State :=
  let s1 := ((s.wr (.flt .MC_STATUS_LATCH) h 1).wr (.flt .MC_STATUS_SELF) h 1).wr (.flt .LATCH_ACKED) h 0
  raiseCause ((s1.wr (.thm .THERM_STATUS_OWNER) h 1).wr (.tel .LDG_STATUS_WRITER) h 1) 13 h (2 ^ 4)

/-- A half takes the roles; the records that its own MC held are accepted (R554). -/
def gainRoles (s : State) (h : Half) : State := serviceUpdate (takeOwn (setLatch s h) h)

/-- The comparators that TRIG_OUT and PPS_OUT hold on a half released (R473). -/
def dropPinCmps (s : State) (h : Half) : State :=
  (List.range 16).foldl (fun t c => if 3 ≤ t.rd (.tim .CMP_STATUS_HOLDER) h c ∧ t.rd (.tim .CMP_STATUS_HOLDER) h c ≤ 5 then
    releaseCmp t h c else t) s

/-- A half loses the roles: its latch is cleared, which the peer learns, its aux outputs are released and its THERM region reads as that of
a half without the roles (R66, R90, R537). -/
def loseRoles (s : State) (h : Half) : State :=
  let s1 := (s.wr (.flt .MC_STATUS_LATCH) h 0).wr (.flt .MC_STATUS_SELF) h (if s.rd (.flt .MC_STATUS_SELF) h = 1 then 2 else s.rd (.flt .MC_STATUS_SELF) h)
  let s2 := ((s1.wr (.thm .THERM_STATUS_OWNER) h 0).wr (.tel .LDG_STATUS_WRITER) h 0).wr (.thm .THERM_EVENT) h 0
  let s3 := ((auxRelease s2 h).wr (.thm .AUX_DRIVING) h 0).wr (.flt .LATCH_ACKED) h.other (bit (s.peerReachable h))
  raiseCause (dropMirrored (dropPinCmps s3 h) h) 13 h (2 ^ 5)

/-- What the incoming half takes over from its last committed generation (R540): the loop with the transfer of R70, the channels from
their shadows, and the comparators (R473). -/
def resumeFrom (s : State) (h : Half) (g : Option Generation) : State :=
  match g with
  | none => s
  | some g =>
    let s1 := (List.range 4).foldl (fun t n => pwmRestart t h n) (loadCells s h g)
    reclaimCmps (if s1.rd (.thm .THERM_STATUS_STATE) h = 2 then bumpless s1 h else s1) h

end Sys2Proof.Machine
end

