-- ==== Sys2Proof/Machine/Lowland.lean ====
section
/-!
DEFINITION. Machine/Lowland.lean: entry into Lowland mode and its exits (R120 to R127), the tray step (R524), and the two training stages
that an exit repeats (R111, R114).
-/

namespace Sys2Proof.Machine

/-! ### Units (R33) -/

/-- A hub die is usable. -/
def hubOk (s : State) (h : Half) : Bool :=
  s.rd (match h with
    | .h0 => .pkg .PKG_MAP_HUB0_OK
    | .h1 => .pkg .PKG_MAP_HUB1_OK) .h0 == 1

/-- A stack and its hub are usable by the fuses. -/
def stackFuse (s : State) (k : Half) : Bool :=
  hubOk s k && s.rd (match k with
    | .h0 => .pkg .PKG_MAP_M0_OK
    | .h1 => .pkg .PKG_MAP_M1_OK) .h0 == 1

/-- A stack that is usable by the fuses, has not failed E2 and is not lost. -/
def stackGood (s : State) (k : Half) : Bool :=
  stackFuse s k && s.rd (.boot .BOOT_STATUS_HBM_FAIL) k == 0 && !((s.rd (.flt .FLT_LOST_STACK) .h0).testBit k.num)

/-- A die is usable by the fuses, with its hub. -/
def dieFuse (s : State) (die : Nat) : Bool := (s.rd (.pkg .PKG_MAP_TDIE_OK) .h0).testBit die && hubOk s (dieHalf die)

/-- A die is powered. -/
def powered (s : State) (die : Nat) : Bool := s.rd (.boot .DIE_PWR_EN) .h0 die == 1

/-- The fuses alone leave a half without compute service (R33, R55). -/
def fuseBars (s : State) (h : Half) : Bool :=
  !(stackFuse s h && (List.range 4).any fun i => dieFuse s (4 * h.num + i) && s.rd (.pkg .CORE_OK) .h0 (4 * h.num + i) != 0)

/-- BOOT_STATUS.STATUS of a half: the first failure of the start-up. -/
def bootFail (s : State) (h : Half) (st : Nat) : State :=
  if s.rd (.boot .BOOT_STATUS_STATUS) h = 0 then s.wr (.boot .BOOT_STATUS_STATUS) h st else s

/-! ### E1 and stage F (R111, R112, R114) -/

/-- E1 of one die: powered, or failed and unusable for this start-up (R101, Table 3.5). -/
def trainDie (s : State) (failed die : Nat) : State :=
  if powered s die || !dieFuse s die || !stackGood s (dieHalf die) || (s.rd (.flt .FLT_LOST_DIE) .h0).testBit die ||
      (s.rd (.boot .BOOT_FAIL_DIE) .h0).testBit die then s
  else
    let s1 := (s.wr (.boot .DIE_PWR_EN) .h0 1 die).emit (.diePower die true)
    if failed.testBit die then
      bootFail ((dieOff s1 die).wr (.boot .BOOT_FAIL_DIE) .h0 (setBits (s.rd (.boot .BOOT_FAIL_DIE) .h0) (2 ^ die))) (dieHalf die)
        ST_DIE_LINK
    else s1.wr (.pwr .PWR_STATUS_ARR_PG) .h0 (setBits (s1.rd (.pwr .PWR_STATUS_ARR_PG) .h0) (2 ^ die))

/-- E1: the usable dies powered at P2, `failed` the ones whose PLL, supply or link fails. -/
def trainDies (s : State) (failed : Nat) : State :=
  (List.range 8).foldl (fun t n => trainDie t failed n) ((s.wr (.thm .ARR_LEVEL) .h0 2).wr (.thm .ARR_LEVEL) .h1 2)

/-- CORE_TEST of a die: its bits where the die is powered and the core is not among those that fail. -/
def testBits (s : State) (failing : List Nat) (die : Nat) : Nat :=
  if powered s die then ((List.range 64).map fun i => if failing.contains (64 * die + i) then 0 else 2 ^ i).sum else 0

/-- The outcome of a core's test, and its scratchpad written to zero. -/
def testCore (s : State) (core : Nat) : State :=
  let ok := (s.rd (.pkg .CORE_OK) .h0 (core / 64)).testBit (core % 64) && (s.rd (.boot .CORE_TEST) .h0 (core / 64)).testBit (core % 64)
  let s1 := s.wr (.core .CORE_STATUS_USABLE) (coreHalf core) (bit ok) (core % 256)
  if powered s (core / 64) then
    { s1.wr (.tile .SP_SCRUB) (coreHalf core) 0 (core % 256) with mem := s1.mem.clearRange (scratchBase core) 0x180000 }
  else s1

/-- Every byte of a usable stack written to zero. -/
def zeroStack (s : State) (k : Half) : State :=
  if stackGood s k then s.wipe (hbmBase k) 0x600000000 else s

/-- Stage F (R114), `failing` the cores whose test fails, every die cache invalidated; an exit from Lowland mode zeroes no HBM (R125). -/
def stageF (s : State) (failing : List Nat) (zeroHbm : Bool) : State :=
  let s1 := (List.range 8).foldl (fun t n => t.wr (.boot .CORE_TEST) .h0 (testBits t failing n) n) s
  let s2 : State := { (List.range 512).foldl testCore s1 with dieLines := [] }
  if zeroHbm then zeroStack (zeroStack s2 .h0) .h1 else s2

/-! ### The tray step (R524) -/

/-- AUX_PCYC_REQ# asserted until power is removed, with its record (R515, R524). -/
def trayStep (s : State) (trigger : Nat) : State :=
  let h := s.chipHalf
  let s1 := if s.holds h then drivePin s h .pcycReq 1 else s
  let s2 := (s1.wr (.flt .TRAY_REQ) .h0 1).wr (.flt .FLT_STATUS_STEP) h 5
  raiseCause (faultRecord s2 h pf (plainFault (s.mt h) ST_TRAY_CYCLE 0x61 5 0xFF trigger) none) 12 h (2 ^ 7)

/-! ### The steps of an entry (Table 3.8), which the chip step shares (R521) -/

/-- Step 2 and 3 on a half: dispatch stopped, contexts reset, chains ended with a status; standing contexts leave. -/
def stopWork (s : State) (h : Half) (status : Nat) : State :=
  let mine := s.contexts.filter fun x => x.half == h
  let s1 := mapChains ((s.wr (.thm .DISPATCH_STOP) h 1).wr (.thm .PLAT_NOTE) h 0) fun d =>
    if mine.any fun x => x.chainNo == some d.readNo then
      (if d.done then d else { d.fail status with stop := true, done := true })
    else if d.half = h then d.cancel status false
    else d
  let s2 := (mine.filter (·.standing)).foldl (fun t x => t.wr (.sched .RING_SCHED_URG_READY) h 0 x.ring) s1
  dropCtxs s2 fun x => x.half == h

/-- Step 5 on a half: every open request closed, a CANCEL on every open stream (R122). -/
def closeWork (s : State) (h : Half) (status : Nat) : State :=
  let s1 := lowlandStreams (closeRequests s (fun r => r.half == h) status false) h status
  relist s1 h

/-- Step 6 on a half: fabric ports in electrical idle, the egress port down. A port that is OFF is in electrical idle already; with `off`
it is declared DOWN as the others are. -/
def idlePorts (s : State) (h : Half) (off : Bool) : State :=
  egrClose ((List.range 6).foldl (fun t n =>
    if (portSt t h n = 0 ∧ off = false) ∨ portSt t h n = 5 then t else portDown t h n 8) s) h

/-- A half in Lowland mode (R121 to R123): every port is DOWN with cause LOWLAND (R382). -/
def lowlandHalf (s : State) (h : Half) (status : Nat) : State :=
  let s1 := s.wr (.boot .LOWLAND_IN) h 1
  enterHold (idlePorts (closeWork (stopWork s1 h status) h status) h true) h

/-- The halves that an entry reaches: the one that detects it, and the other unless it runs and no path reaches it (R121). -/
def lowlandHalves (s : State) : List Half :=
  let w := s.chipHalf
  if s.peerReachable w || !hubOk s w.other then [w, w.other] else [w]

/-- The park level of the latched causes: 2 for P2, 3 for OFF (R120, Table 3.7). -/
def parkLevel (s : State) : Nat :=
  let st := s.rd (.thm .THERM_STATUS_STATE) s.chipHalf
  if s.rd (.boot .LOWLAND_STATUS_CAUSE) .h0 = 2 ∧ (st = 2 ∨ st = 3) ∧ (List.range 8).any (powered s) = true then 2 else 3

/-- The arrays parked; at OFF every die is switched off (R101, R120, R122). -/
def park (s : State) : State :=
  let p := parkLevel s
  let h := s.chipHalf
  let s1 := ((s.wr (.boot .LOWLAND_STATUS_PARK) .h0 p).wr (.thm .PLAT_STATUS_CUR) h p).wr (.thm .PLAT_STATUS_TARGET) h p
  let s2 := (s1.wr (.thm .ARR_LEVEL) .h0 p).wr (.thm .ARR_LEVEL) .h1 p
  if p = 3 then diesOff (diesOff s2 .h0) .h1 else s2

/-- The causes that have arisen latched, and FUSE_ONLY judged (R120, Table 3.12). -/
def latchCauses (s : State) : State :=
  let c := setBits (s.rd (.boot .LOWLAND_STATUS_CAUSE) .h0) (s.rd (.boot .LOW_PEND) .h0)
  let s1 := (s.wr (.boot .LOWLAND_STATUS_CAUSE) .h0 c).wr (.boot .LOW_PEND) .h0 0
  s1.wr (.boot .LOWLAND_STATUS_FUSE_ONLY) .h0 (bit (c.testBit 1 && fuseBars s .h0 && fuseBars s .h1))

/-- The record of an entry or of a further cause, and the tray step that a newly latched RESET brings (R123, R524, R553). -/
def lowlandRecord (s : State) (reset : Bool) : State :=
  let h := s.chipHalf
  let s1 := ledger s h 3 (leBytes 1 (s.rd (.boot .LOWLAND_STATUS_CAUSE) .h0) ++ leBytes 1 (s.rd (.boot .LOWLAND_STATUS_PARK) .h0) ++
    leBytes 2 (s.rd (.boot .LOW_STATUS) .h0))
  if reset && s1.rd (.flt .FLT_CFG_AUTO_TRAY) h == 1 then trayStep s1 2 else s1

/-- The chip enters Lowland mode. -/
def enterLowland (s : State) : State :=
  let w := s.chipHalf
  let hs := lowlandHalves s
  let told := if s.peerReachable w then s.emit (.interHalf w .lowland) else s
  let s1 := hs.foldl (fun t h => lowlandHalf t h ST_LOWLAND) (told.wr (.boot .LOWLAND_ENTRY_TIME) .h0 (s.mt w))
  let s2 := park (platWithdraw s1 w)
  let s3 := serviceUpdate ((s2.wr (.pkg .PKG_SERVICE_LOWLAND) .h0 1).wr (.boot .LOWLAND_ENTERED) .h0 6)
  hs.foldl (fun t h => raiseCause t 0 h 2) s3

/-- LOWLAND_ENTER (R120 to R122): the causes that have arisen are latched; the chip enters Lowland mode, or, in it already, parks as all
its causes ask, and an exit in progress stops. -/
def execLowlandEnter (s : State) : Res :=
  if s.rd (.boot .LOW_PEND) .h0 = 0 then .next s
  else
    let new := clearBits (s.rd (.boot .LOW_PEND) .h0) (s.rd (.boot .LOWLAND_STATUS_CAUSE) .h0)
    let s1 := (latchCauses s).wr (.boot .EXIT_RUNNING) .h0 0
    if s.lowland s.chipHalf then .next (if new = 0 then s1 else lowlandRecord (park s1) (new.testBit 2))
    else .next (lowlandRecord (enterLowland s1) (new.testBit 2))

/-! ### Leaving (R124 to R126) -/

/-- Latched causes that have been left. -/
def leaveCauses (s : State) (bits : Nat) : State :=
  let c := s.rd (.boot .LOWLAND_STATUS_CAUSE) .h0
  (s.wr (.boot .LOWLAND_STATUS_CAUSE) .h0 (clearBits c bits)).wr (.boot .LOW_LEFT) .h0 (setBits (s.rd (.boot .LOW_LEFT) .h0) (c &&& bits))

/-- The LOWLAND_OUT record (R553). -/
def lowlandOut (s : State) : State :=
  (ledger s s.chipHalf 4 (leBytes 1 (s.rd (.boot .LOW_LEFT) .h0))).wr (.boot .LOW_LEFT) .h0 0

/-- Lowland mode left with every cause: compute service resumes at P2 (R126). -/
def leaveLowland (s : State) : State :=
  let h := s.chipHalf
  let clear (t : State) (x : Half) : State :=
    ((t.wr (.boot .LOWLAND_IN) x 0).wr (.thm .DISPATCH_STOP) x 0).wr (.thm .ARR_LEVEL) x 2
  let s1 := clear (clear (s.wr (.boot .LOWLAND_ENTERED) .h0 0) .h0) .h1
  let s2 := ((s1.wr (.boot .LOWLAND_STATUS_PARK) .h0 0).wr (.boot .LOWLAND_STATUS_FUSE_ONLY) .h0 0).wr (.boot .EXIT_RUNNING) .h0 0
  let s3 := ((s2.wr (.thm .PLAT_STATUS_CUR) h 2).wr (.thm .PLAT_STATUS_TARGET) h 2).wr (.pkg .PKG_SERVICE_LOWLAND) .h0 0
  serviceUpdate (lowlandOut s3)

/-- The chip is in Lowland mode with NO_COMPUTE alone, which the fuses do not explain, and a half meets R55 again. -/
def autoExitDue (s : State) : Bool :=
  s.lowland s.chipHalf && s.rd (.boot .LOWLAND_STATUS_CAUSE) .h0 == 2 && s.rd (.boot .LOW_PEND) .h0 == 0 &&
    s.rd (.boot .EXIT_RUNNING) .h0 == 0 && s.rd (.boot .LOWLAND_STATUS_FUSE_ONLY) .h0 == 0 && (compOf s .h0 || compOf s .h1)

/-- LOWLAND_AUTO_EXIT (R126): at once from park P2; from park OFF after E1 and stage F. -/
def autoExit (s : State) : State :=
  if autoExitDue s then
    if s.rd (.boot .LOWLAND_STATUS_PARK) .h0 = 2 then leaveLowland (leaveCauses s 2) else s.wr (.boot .EXIT_RUNNING) .h0 2
  else s

/-- The end of an exit that ran E1 and stage F. -/
def finishExit (s : State) : State :=
  let c := s.rd (.boot .LOWLAND_STATUS_CAUSE) .h0
  if c = 0 ∨ (c = 2 ∧ (compOf s .h0 = true ∨ compOf s .h1 = true)) then leaveLowland (leaveCauses s 2)
  else s.wr (.boot .EXIT_RUNNING) .h0 0

/-- PKG_SERVICE_UPDATE (R56, R126). -/
def execPkgServiceUpdate (s : State) : Res := .next (autoExit (serviceUpdate s))

/-! ### Manual mode of the thermal loop (R74) -/

/-- MANUAL may be entered: level P2, no request open on either half, loop in RUN (R74). -/
def manualOk (s : State) (h : Half) : Bool :=
  s.rd (.thm .PLAT_STATUS_CUR) h == 2 && s.requests.all (fun r => r.closing) &&
    s.rd (.thm .THERM_STATUS_STATE) h == 2

/-- THERM_MODE_SET (R74, Table 2.5): to MANUAL, which may be refused and withdraws compute service, or back to RUN, with which a Lowland
mode that it
caused is left (§3.9 "At the edges"). -/
def execThermModeSet (h : Half) (manual : Bool) (s : State) : Res :=
  if s.holds h then
    let st := s.rd (.thm .THERM_STATUS_STATE) h
    if manual then
      if st = 3 then .next (thermStatus s h ST_OK)
      else if manualOk s h then
        .next (serviceUpdate (thermStatus ((s.wr (.thm .THERM_STATUS_STATE) h 3).wr (.thm .THERM_CTL_MODE) h 1) h ST_OK))
      else .next (thermStatus s h ST_THERM_MANUAL)
    else if st = 3 then .next (autoExit (serviceUpdate (thermStatus ((thermRun s h).wr (.thm .THERM_CTL_MODE) h 0) h ST_OK)))
    else .next (thermStatus (s.wr (.thm .THERM_CTL_MODE) h 0) h ST_OK)
  else .next s

end Sys2Proof.Machine
end

