-- ==== Sys2Proof/Machine/Restart.lean ====
section
/-!
DEFINITION. Machine/Restart.lean: the chip step (R521 to R523), PWR_GOOD (R102), and the exits of Lowland mode that are commanded (R124 to
R127).
-/

namespace Sys2Proof.Machine

/-! ### What a reset keeps (R26, R128, R521) -/

/-- Package fuses and the levels of input pins, which no reset changes; counts of the ledger's fuses and the tray request. -/
def fuseCell : Fld → Bool
  | .pkg f => [PkgF.PKG_MAP_M1_OK, .PKG_MAP_M0_OK, .PKG_MAP_HUB1_OK, .PKG_MAP_HUB0_OK, .PKG_MAP_TDIE_OK, .CORE_OK].contains f
  | .sec f => [SecF.ARB_STATUS_ARB, .KEY_REVOKED].contains f
  | .tel f => [TelF.FUSE_CNT, .FUSE_SKIP, .LDG_TOTAL, .LDG_DELTA_LOST].contains f
  | .thm f => [ThmF.AUX_KEY_PATTERN, .AUX_KEY_CABLE_OK].contains f
  | .pwr f => [PwrF.PWR_STATUS_RAILS].contains f
  | .host f => [HostF.PERST_N].contains f
  | .flt f => [FltF.TRAY_REQ].contains f
  | _ => false

/-- What also survives the chip step: the sticky fields, PWR_GOOD, and increments of fuse counts that are accepted. -/
def stickyCell : Fld → Bool
  | .boot f => [BootF.LOWLAND_STATUS_CAUSE, .LOWLAND_STATUS_START_FAIL_RUN, .PWR_GOOD_PIN].contains f
  | .sec f => [SecF.SEC_STATUS_LAST_CAUSE].contains f
  | .pwr f => [PwrF.PWR_STATUS_PWR_GOOD].contains f
  | .tel f => [TelF.FUSE_BLOW_PENDING].contains f
  | _ => false

/-- The device at the beginning of a start-up: every register but those kept at its reset value, module flash as it is. -/
def resetKeeping (s : State) (keep : Fld → Bool) (mem : Memory) : State :=
  { State.reset with
    regs := s.regs.filter fun c => keep c.key.fld
    mem := mem
    ldgFlash := s.ldgFlash
    ldgPages := s.ldgPages
    ldgForeign := s.ldgForeign
    imageA := s.imageA
    imageB := s.imageB
    config := s.config
    subImages := s.subImages
    keySlots := s.keySlots
    freeCount := s.freeCount
    out := s.out
    pending := s.pending }

/-- The monitored rails are in regulation when a start-up begins; 3V3_AUX is as it was (Table 3.3). -/
def railsBack (s : State) : State := s.wr (.pwr .PWR_STATUS_RAILS) .h0 (setBits (s.rd (.pwr .PWR_STATUS_RAILS) .h0) 0x7E)

/-! ### The end of the work (R521, step 1) -/

/-- Every chain of a half ended with a status, and its final record written (R521). -/
def endWork (s : State) (h : Half) (status : Nat) : State :=
  let s1 := closeWork (stopWork s h status) h status
  let s2 := idlePorts (mapChains s1 fun d => if d.half = h then d.finish status else d) h false
  (s2.chains.filter fun d => d.half == h).foldl completeChain s2

/-- The close records of a half's requests. -/
def freeAll (s : State) (h : Half) : State := (s.requests.filter fun r => r.half == h).foldl freeRequest s

/-- Accepted records programmed while the writer can. -/
def flushLedger (w : Half) : Nat → State → State
  | 0, s => s
  | n + 1, s => flushLedger w n (programNext s w)

/-- The ledger before a reset: the other half's deltas are accepted where a path reaches it, and what is accepted is programmed; deltas
left behind are noted for the GAP of the next BOOT (R555). -/
def settleLedger (s : State) : State :=
  match s.holder with
  | none => s
  | some w =>
    let s1 := if s.peerReachable w then takeDeltas s w else s
    let s2 := if untaken s1 w.other = [] then s1 else s1.wr (.tel .LDG_DELTA_LOST) .h0 1
    flushLedger w s2.ldgBuf.length s2

/-- Every output of the package high-impedance or low (R90, R101, R102). -/
def releaseOutputs (s : State) : State := auxRelease (auxRelease (diesOff (diesOff s .h0) .h1) .h0) .h1

/-! ### The chip step -/

/-- A latched cause that only a tray power cycle leaves blocks the chip step (R124). -/
def chipBlocked (s : State) : Bool := decide (4 ≤ s.rd (.boot .LOWLAND_STATUS_CAUSE) .h0)

/-- A chip that starts over with THERM latched stays in Lowland mode: only EXIT under R125 leaves that cause (R124, Table 3.7, Table
3.12). -/
def keepLowland (s : State) : State :=
  if (s.rd (.boot .LOWLAND_STATUS_CAUSE) .h0).testBit 0 then
    let one (t : State) (h : Half) : State :=
      ((t.wr (.boot .LOWLAND_IN) h 1).wr (.thm .DISPATCH_STOP) h 1).wr (.thm .ARR_LEVEL) h 3
    let s1 := ((one (one s .h0) .h1).wr (.boot .LOWLAND_STATUS_PARK) .h0 3).wr (.boot .LOWLAND_ENTERED) .h0 6
    let cur (t : State) (h : Half) : State := (t.wr (.thm .PLAT_STATUS_CUR) h 3).wr (.thm .PLAT_STATUS_TARGET) h 3
    (cur (cur s1 .h0) .h1).wr (.pkg .PKG_SERVICE_LOWLAND) .h0 1
  else s

/-- A chip start-up: the work of both halves ended, then the reset of both hubs, every die and both MCs (R521). -/
def startOver (s : State) : State :=
  let s1 := endWork (endWork s .h0 ST_CHIP_RESET) .h1 ST_CHIP_RESET
  let s2 := releaseOutputs (settleLedger (freeAll (freeAll s1 .h0) .h1))
  keepLowland ((railsBack (resetKeeping s2 (fun f => fuseCell f || stickyCell f) s2.mem)).wr (.boot .START_KIND) .h0 1)

/-- The chip step of a half's trigger (Table 19.7), with the trigger's status; without a path to the other hub it becomes a tray step
(R522, R523). -/
def chipStep (s : State) (h : Half) (trigger status : Nat) : State :=
  if chipBlocked s then s
  else if s.peerReachable h = false ∧ hubOk s h.other = true then trayStep s 3
  else
    let esc := bit (decide (2 ≤ trigger ∧ trigger ≤ 4))
    let rec_ := plainFault (s.mt h) ST_CHIP_RESET 0x60 (4 + 128 * esc) 0xFF (trigger + 65536 * status)
    startOver (raiseCause (faultRecord s h pf rec_ none) 12 h (2 ^ 6))

/-! ### PWR_GOOD (R102) -/

/-- A record that is being programmed when power fails leaves a torn slot (R555). -/
def tearSlot (s : State) : State :=
  match s.holder with
  | some w => match nextTaken s w with
    | some r => if s.rd (.tel .LDG_STATUS_FOREIGN) w = 0 ∧ (fitsPage s r.seq || pageFree s) = true then programSlot s r true else s
    | none => s
  | none => s

/-- The half without the roles holds deltas of a split that a loss of power ends (R555). -/
def splitDeltas (s : State) : Bool :=
  match s.holder with
  | some w => s.passUp w == false && untaken s w.other != []
  | none => false

/-- POWER_GOOD_FALL (R102): the device resets completely; `tearing` when a ledger slot was being programmed. Device memory and what the
MCs held are lost. -/
def execPowerGoodFall (tearing : Bool) (s : State) : Res :=
  if s.rd (.boot .PWR_GOOD_PIN) .h0 = 0 then .next s
  else
    let s1 := if splitDeltas s then s.wr (.tel .LDG_DELTA_LOST) .h0 1 else s
    let s2 := releaseOutputs (if tearing then tearSlot s1 else s1)
    let s3 := resetKeeping s2 fuseCell (s2.mem.clearRange 0 hostBit)
    .next (((s3.wr (.boot .PWR_GOOD_PIN) .h0 0).wr (.pwr .PWR_STATUS_PWR_GOOD) .h0 0).wr (.boot .BOOT_STAGE_MAX) .h0 0)

/-- POWER_GOOD_RISE (R102, R117): a power-on start-up begins, after a tray step if one was asked for. -/
def execPowerGoodRise (s : State) : Res :=
  if s.rd (.boot .PWR_GOOD_PIN) .h0 = 1 then .next s
  else
    let s1 := railsBack (resetKeeping s fuseCell s.mem)
    .next ((s1.wr (.boot .START_KIND) .h0 (2 * s.rd (.flt .TRAY_REQ) .h0)).wr (.flt .TRAY_REQ) .h0 0)

/-! ### LOWLAND_CTL.EXIT (R124 to R127) -/

/-- LOWLAND_STATUS.LAST_STATUS set. -/
def exitStatus (s : State) (st : Nat) : State := s.wr (.boot .LOWLAND_STATUS_LAST_STATUS) .h0 st

/-- The conditions of R125 for leaving the THERM cause. -/
def thermMayLeave (s : State) (h : Half) : Bool :=
  s.rd (.thm .AUX_KEY_CABLE_OK) h == 1 && s.rd (.thm .CT_OUT_OK) h == 1 && decide (loopError s h < 0) &&
    !(tjAtLeast s h (s.rd (.thm .THERM_SET1_TJ_WARN) h))

/-- LOWLAND_EXIT: THERM is left after resettling; NO_COMPUTE by a chip start-up, unless the fuses alone explain it. -/
def execLowlandExit (h : Half) (s : State) : Res :=
  let c := s.rd (.boot .LOWLAND_STATUS_CAUSE) .h0
  if s.holds h = false then .next (exitStatus s ST_AUX_NO_ROLE)
  else if s.rd (.boot .LOW_PEND) .h0 ≠ 0 then .next (exitStatus s ST_LOWLAND_HOLD)
  else if s.lowland h = false then .next (exitStatus s ST_ID_RANGE)
  else if s.rd (.boot .EXIT_RUNNING) .h0 ≠ 0 then .next (exitStatus s ST_LOWLAND_HOLD)
  else if chipBlocked s then .next (exitStatus s ST_LOWLAND_LOCKED)
  else if c.testBit 0 then
    if thermMayLeave s h then .next (thermPrime ((exitStatus s ST_OK).wr (.boot .EXIT_RUNNING) .h0 1) h)
    else .next (exitStatus s ST_LOWLAND_HOLD)
  else if s.rd (.boot .LOWLAND_STATUS_FUSE_ONLY) .h0 = 1 then .next (exitStatus s ST_LOWLAND_LOCKED)
  else if s.peerReachable h = false ∧ hubOk s h.other = true then .next (trayStep (exitStatus s ST_OK) 3)
  else .next (exitStatus (startOver (lowlandOut (leaveCauses s 2))) ST_OK)

end Sys2Proof.Machine
end

