-- ==== Sys2Proof/Machine/Faults.lean ====
section
/-!
DEFINITION. Machine/Faults.lean: accesses of the HBM controller (R32), the watchdogs (R512, R513), missed bounds (R523), the commands of
FLT_CTL (R519 to R524), the fault log's consumer index (R516), and faults of units (R519, R523, R526).
-/

namespace Sys2Proof.Machine

/-! ### HBM accesses (R32) -/

/-- The accessor of an HBM access: none for a slot that holds no context. -/
def whoOf (r : Requester) (s : State) (h : Half) : Option Who :=
  match r with
  | .context core slot => (ctxAt s h core.val slot.val).map fun x => ⟨h, ringFn x.ring, some (core.val, slot.val)⟩
  | .engine fn _ => some (engine h fn)

/-- An access has failed: its context takes its step, its engine's chain ends with the status. -/
def failAccess (s : State) (h : Half) (r : Requester) (write : Bool) (status a len : Nat) : State :=
  match r with
  | .context core slot =>
    match ctxAt s h core.val slot.val with
    | some x => ctxAccessFail s x write status a len
    | none => s
  | .engine _ (some c) => (match s.chain h c.1 c.2 with
    | some d => failEngine s d status
    | none => s)
  | .engine _ none => s

/-- The uncorrectable errors of a stack in the last 1 s, with one at this moment (R526). -/
def ueRecent (s : State) (k : Half) : List (Half × Nat) :=
  s.ueTimes.filter (fun p => p.1 != k || decide (s.mt k < p.2 + 1000000000)) ++ [(k, s.mt k)]

/-- An error of a stack that its controller cannot correct: counted, and completed with ST_ECC_UNCORR; HBM_UE_LIMIT of them within 1 s
lose the stack (R32, R526). -/
def uncorrectable (s : State) (k h : Half) (r : Requester) (a chan : Nat) : State :=
  let s1 : State := { bump s k 1 3 1 with ueTimes := ueRecent s k }
  let n := (s1.ueTimes.filter fun p => p.1 == k).length
  let detail := k.num + 2 * chan + 2 ^ 16 * min n 0xFFFF
  let s2 := match r with
    | .context core slot =>
      match ctxAt s1 h core.val slot.val with
      | some x => contextStep s1 x ST_ECC_UNCORR 5 a detail
      | none => s1
    | .engine _ _ => failAccess s1 h r false ST_ECC_UNCORR a 32
  if s.rd (.flt .FLT_CFG_HBM_UE_LIMIT) k ≤ n then loseStack s2 k 2 0 else s2

/-- An HBM access that R42, R43, R45 and R489 let through, or refuse. -/
def hbmAccess (s : State) (h : Half) (r : Requester) (write : Bool) (a len : Nat) (f : Who → Half → State) : Res :=
  match whoOf r s h with
  | none => .next s
  | some w =>
    let st := accessStatus s w write a len
    match targetOf a with
    | .hbm k => if st = ST_OK then .next (f w k) else .next (failAccess (recordRefusal s w write a len st) h r write st a len)
    | .hole => .next (failAccess (recordRefusal s w write a len st) h r write st a len)
    | _ => .next s

/-- A read of HBM, and whether the stack is read: a context's reads of its own half's stack go through its die's cache (R227). -/
def hbmRead (s : State) (h : Half) (w : Who) (a len : Nat) : State × Bool :=
  match w.ctx.bind fun c => ctxAt s h c.1 c.2 with
  | some x =>
    if targetOf a ≠ .hbm h ∨ len = 0 then (countBytes s w false a len, true)
    else (cacheRead s x a len, !((lineSpan a len).all fun line => s.dieLines.contains ⟨h, x.core / 64, line⟩))
  | none => (countBytes s w false a len, true)

/-- HBM_READ: a corrected error is written back and counted; an uncorrectable one completes with ST_ECC_UNCORR. A read that the die's
cache answers whole meets no error of the stack. -/
def execHbmRead (h : Half) (who : Requester) (a len : Nat) (err : EccErr) (chan : Fin 32) (s : State) : Res :=
  hbmAccess s h who false a len fun w k =>
    let q := hbmRead s h w a len
    match if q.2 then err else .none with
    | .none => q.1
    | .corrected => bump q.1 k 1 2 1
    | .uncorrectable => uncorrectable q.1 k h who a chan.val

/-- The access covers less than whole 32-byte accesses, so it reads before it writes. -/
def partialWrite (a len : Nat) : Bool := a % 32 != 0 || (a + len) % 32 != 0

/-- HBM_WRITE: a partial write whose read finds an uncorrectable error writes nothing. -/
def execHbmWrite (h : Half) (who : Requester) (a : Nat) (data : List Byte) (err : EccErr) (chan : Fin 32) (s : State) : Res :=
  hbmAccess s h who true a data.length fun w k =>
    if err = .uncorrectable ∧ partialWrite a data.length = true then uncorrectable s k h who a chan.val
    else
      let s1 := (countBytes s w true a data.length).store a data (w.ctx.map fun c => (w.half, c.1 / 64))
      if err = .corrected ∧ partialWrite a data.length = true then bump s1 k 1 2 1 else s1

/-! ### Watchdogs -/

/-- SHAPE of the pass in the array, or 7 for a vector step; an attention pass has no SHAPE, and its value is free (R590). -/
def passShape (s : State) (x : Context) : Nat :=
  if x.inArray = 0 then 7
  else if x.nest = [] then Config.freeValue s.freeCount % 8
  else (parseNest (if x.phase2 then x.nest2 else x.nest)).shape

/-- A core has taken a context step of type PASS_WDT; a second one within 1 s loses it (R526). -/
def notePassWdt (s : State) (h : Half) (core : Nat) : State :=
  let last := s.rd (.flt .FLT_CORE_WDT_T) h core
  let s1 := s.wr (.flt .FLT_CORE_WDT_T) h (s.mt h + 1) core
  if last ≠ 0 ∧ s.mt h + 1 < last + 1000000000 ∧ s.rd (.core .CORE_STATUS_USABLE) h core = 1 then loseCore s1 h core else s1

/-- PASS_WATCHDOG_EXPIRE (R512): the context step of the pass that has not reached its boundary; the array is reset, and its passes do not
complete (R518). -/
def execPassWatchdogExpire (h : Half) (core : Fin 256) (slot : Fin 2) (s : State) : Res :=
  match ctxAt s h core.val slot.val with
  | some x =>
    if (x.inArray = 0 ∧ x.vec = false) ∨ s.rd (.thm .DISPATCH_STOP) h = 1 then .next s
    else
      let mult := s.rd (.flt .FLT_WDT0_PASS_MULT) h
      let detail := passShape s x + 2 ^ 16 * (512 * mult) + 2 ^ 32 * mult
      let s1 := setCtx (drawFree s) h core.val slot.val fun d => { d with inArray := 0 }
      .next (notePassWdt (contextStep s1 x ST_CTX_RESET 6 0 detail) h core.val)
  | none => .next s

/-- CTX_WATCHDOG_EXPIRE (R512): a context has run CTX_WDT µs without a boundary, since its last one or since it took the array. -/
def execCtxWatchdogExpire (h : Half) (core : Fin 256) (slot : Fin 2) (s : State) : Res :=
  match ctxAt s h core.val slot.val with
  | some x =>
    if slotState s h core.val slot.val ≠ 2 ∨ s.rd (.thm .DISPATCH_STOP) h = 1 ∨
        s.mt h < x.boundaryMt + s.rd (.flt .FLT_WDT0_CTX_WDT) h * 1000 then .next s
    else .next (contextStep s x ST_CTX_RESET 7 0 (s.rd (.flt .FLT_WDT0_CTX_WDT) h))
  | none => .next s

/-- An engine's operations outstanding, as its record gives them: the field has eight bits (Table 19.7). -/
def opsField (s : State) (h : Half) (code : Nat) : Nat := 2 ^ 32 * min 255 (engineOps s (engineHalf h code) code)

/-- ENGINE_WATCHDOG_EXPIRE (R512): an engine with an operation outstanding has made no progress for ENG_WDT µs. -/
def execEngineWatchdogExpire (h : Half) (code : Nat) (s : State) : Res :=
  if engineCodes.contains code = false ∨ engineOps s (engineHalf h code) code = 0 then .next s
  else .next (engineStep s h code 0x10 (s.rd (.flt .FLT_WDT1_ENG_WDT) (engineHalf h code) + opsField s h code) false)

/-- What a ring's head waits for (R513). -/
def headWait (s : State) (c : Chain) : Nat :=
  match c.stage with
  | .waiting => 0
  | .timed => 1
  | _ => if requestAdmitted s c = false then 4
    else if isCharged c = true ∧ gateOpen s c.half (ringFn c.ring) = false then 2 else 3

/-- RING_WATCHDOG_EXPIRE (R512, R513): the head of a ring has been read and not admitted for RING_WDT ms. -/
def execRingWatchdogExpire (h : Half) (ring : Nat) (s : State) : Res :=
  match s.chains.find? fun c => c.half == h && c.ring == ring && c.unadmitted with
  | some c =>
    let ms := s.rd (.flt .RING_WDT_MS) h ring
    if c.wdtFired = true ∨ ms = 0 ∨ ringCount ≤ ring ∨ s.mt h < c.readMt + ms * 1000000 then .next s
    else
      let s1 := setChain s c fun d => { d with wdtFired := true }
      let s2 := postEvent s1 h (ringFn ring) ST_RING_WDT (s.mt h) (c.seq + 2 ^ 16 * headWait s c)
      .next (if s.rd (.flt .RING_WDT_ACT) h ring = 1 then ringStop s2 h ring else s2)
  | none => .next s

/-! ### Missed bounds (R523) -/

/-- FLT_EVT.UNIT_LOST for a step that has failed its bound with AUTO_CHIP = 0; a tile dispatcher's failed step loses its die (R523, R526).
-/
def boundLost (s : State) (h : Half) (die : Option Nat) : State :=
  match die with
  | some n => if (s.rd (.flt .FLT_LOST_DIE) .h0).testBit n then s else loseDie s n 2
  | none => raiseCause s 12 h (2 ^ 5)

/-- The newest fault record of a half that meets a condition, in FLT_REC. -/
def newestRec (s : State) (h : Half) (p : FaultRec → Bool) : Option FaultRec :=
  ((s.faultRecs.filter fun q => q.1 == h && p q.2.1).getLast?).map (·.2.1)

/-- An unfinished context step of a die: the first one within 1 s brings the engine step of the die's tile dispatcher, the second a chip
step when AUTO_CHIP is 1. -/
def ctxBoundMissed (s : State) (die status : Nat) : State :=
  let h := dieHalf die
  let last := s.rd (.flt .FLT_DIE_MISS_T) .h0 die
  let s1 := s.wr (.flt .FLT_DIE_MISS_T) .h0 (s.mt h + 1) die
  if last ≠ 0 ∧ s.mt h + 1 < last + 1000000000 ∧ s.rd (.flt .FLT_CFG_AUTO_CHIP) h = 1 then chipStep s1 h 4 status
  else engineStep s1 h die 0x11 (3 + opsField s h die) true

/-- STEP_BOUND_EXCEEDED (R523): the last context step of die `unit` (`step` 0), engine step of engine `unit` (1) or partition step of
partition `unit` of the half (2) has not completed within its bound. -/
def execStepBoundExceeded (h : Half) (step : Fin 3) (unit : Nat) (s : State) : Res :=
  if step.val = 0 then
    if 8 ≤ unit then .next s
    else match newestRec s (dieHalf unit) fun r => r.step % 8 == 1 && r.context % 0x8000 / 128 == unit with
      | some r => .next (ctxBoundMissed s unit r.status)
      | none => .next s
  else if step.val = 1 then
    let k := engineHalf h unit
    match newestRec s k fun r => r.step % 8 == 2 && r.unit == unit with
    | some r => .next (if s.rd (.flt .FLT_CFG_AUTO_CHIP) k = 1 then chipStep s k 2 r.status
        else boundLost s k (if unit < 8 then some unit else none))
    | none => .next s
  else
    match newestRec s h fun r => r.step % 8 == 3 && r.partition == partField h unit with
    | some r => .next (if s.rd (.flt .FLT_CFG_AUTO_CHIP) h = 1 then chipStep s h 3 r.status else boundLost s h none)
    | none => .next s

/-! ### FLT_CTL (R519 to R524) -/

/-- FLT_STATUS.LAST_STATUS set. -/
def fltLast (s : State) (h : Half) (st : Nat) : State := s.wr (.flt .FLT_STATUS_LAST_STATUS) h st

/-- A step of the same or a higher level is in progress on the half: steps end where they begin in this model, but the tray step. -/
def stepBusy (s : State) (h : Half) (level : Nat) : Bool := decide (level ≤ s.rd (.flt .FLT_STATUS_STEP) h)

/-- FLT_CTX_RESET: a context step of the named context of the package, in a slot that is neither EMPTY nor FAULTED. -/
def execFltCtxReset (h : Half) (arg : Nat) (s : State) : Res :=
  if stepBusy s h 1 then .next (fltLast s h ST_FLT_BUSY)
  else match s.contexts.find? fun x => x.id == arg with
    | some x => .next (contextStep (fltLast s h ST_OK) x ST_CTX_RESET 8 0 h.num)
    | none => .next (fltLast s h ST_FLT_CONFIG)

/-- FLT_ENG_RESET: an engine step. -/
def execFltEngReset (h : Half) (arg : Nat) (s : State) : Res :=
  if engineCodes.contains arg = false then .next (fltLast s h ST_FLT_CONFIG)
  else if stepBusy s h 2 then .next (fltLast s h ST_FLT_BUSY)
  else .next (engineStep (fltLast s h ST_OK) h arg 0x12 h.num false)

/-- FLT_PART_RESET: a partition step, by the package's number of the partition. -/
def execFltPartReset (h : Half) (arg : Nat) (s : State) : Res :=
  if 128 ≤ arg then .next (fltLast s h ST_FLT_CONFIG)
  else
    let k := Half.ofNum (arg / 64)
    let st := s.rd (.sec .PART_CTL_STATE) k (arg % 64)
    if st = 2 ∨ stepBusy s h 3 = true then .next (fltLast s h ST_FLT_BUSY)
    else if st ≠ 1 then .next (fltLast s h ST_PART_STATE)
    else .next (partitionStep (fltLast s h ST_OK) k (arg % 64) 0x21 h.num false)

/-- FLT_CHIP_RESET: a chip step, from the PF of the role holder's half. -/
def execFltChipReset (h : Half) (s : State) : Res :=
  if s.holds h = false then .next (fltLast s h ST_AUX_NO_ROLE)
  else if chipBlocked s then .next (fltLast s h ST_LOWLAND_LOCKED)
  else if stepBusy s h 4 then .next (fltLast s h ST_FLT_BUSY)
  else .next (chipStep (fltLast s h ST_OK) h 0 ST_OK)

/-- FLT_TRAY_CYCLE: a tray step, from the PF of the role holder's half. -/
def execFltTrayCycle (h : Half) (s : State) : Res :=
  if s.holds h = false then .next (fltLast s h ST_AUX_NO_ROLE)
  else if stepBusy s h 5 then .next (fltLast s h ST_FLT_BUSY)
  else .next (trayStep (fltLast s h ST_OK) 0)

/-- FLT_LOG_CI_WRITE (R516, R544): values above PI are discarded; PI is a 32-bit count that wraps, and the half of its values ahead of it is
above it (DEDUCED, log entry 88). -/
def execFltLogCiWrite (h : Half) (fn v : Nat) (s : State) : Res :=
  if fn ≤ pf ∧ (s.rd (.flt .FLT_LOG_PI) h fn + 2 ^ 32 - v % 2 ^ 32) % 2 ^ 32 < 2 ^ 31 then .next (s.wr (.flt .FLT_LOG_CI) h v fn)
  else .next s

/-! ### Faults of units -/

/-- ENGINE_STATE_ERROR (R519): 0 a state parity, 1 a buffer ECC, 2 a protocol state error. -/
def execEngineStateError (h : Half) (code : Nat) (kind : Fin 3) (s : State) : Res :=
  if engineCodes.contains code then .next (engineStep s h code 0x11 (kind.val + 1 + opsField s h code) false) else .next s

/-- HUB_UNIT_FAULT (R523): a unit with no engine step has failed. -/
def execHubUnitFault (h : Half) (s : State) : Res :=
  .next (if s.rd (.flt .FLT_CFG_AUTO_CHIP) h = 1 then chipStep s h 5 ST_OK else boundLost s h none)

/-- DIE_LINK_FAIL (R526): the link of a powered die has failed its retraining. -/
def execDieLinkFail (die : Fin 8) (s : State) : Res :=
  if powered s die.val = true ∧ (s.rd (.flt .FLT_LOST_DIE) .h0).testBit die.val = false then .next (loseDie s die.val 1) else .next s

/-- HBM_CHANNEL_FAIL (R526): a pseudo-channel has failed, or the PHY has lost training. -/
def execHbmChannelFail (k : Half) (phy : Bool) (channel : Fin 32) (s : State) : Res :=
  if stackOk s k then .next (loseStack s k (bit phy) (if phy then 0 else channel.val)) else .next s

end Sys2Proof.Machine
end

