-- ==== Sys2Proof/Machine/Ec.lean ====
section
/-!
DEFINITION. Machine/Ec.lean: the curve P-384, ECDH and ECDSA over it, and AES-256 key unwrap, which the spec names by their
standards (R495).
-/

namespace Sys2Proof.Machine

/-- The field prime, the order of the base point, and the coefficient b of P-384 (a is −3). -/
def ecP : Nat := 2 ^ 384 - 2 ^ 128 - 2 ^ 96 + 2 ^ 32 - 1
def ecN : Nat := 0xffffffffffffffffffffffffffffffffffffffffffffffffc7634d81f4372ddf581a0db248b0a77aecec196accc52973
def ecB : Nat := 0xb3312fa7e23ee7e4988e056be3f82d19181d9c6efe8141120314088f5013875ac656398d8a2ed19d2a85c8edd3ec2aef

/-- A point: none is the point at infinity. -/
abbrev Pt := Option (Nat × Nat)

/-- The base point of P-384. -/
def ecG : Pt :=
  some (0xaa87ca22be8b05378eb1c71ef320ad746e1d3b628ba79b9859f741e082542a385502f25dbf55296c3a545e3872760ab7,
    0x3617de4a96262c6f5d9e98bf9292dc29f8f41dbd289a147ce9da3113b5f0b8c00a60b1ce1d7e819d7a431d7c90ea0e5f)

/-- The power `x ^ e` modulo `m`, over the lowest `k` bits of `e`. -/
def powMod (m : Nat) : Nat → Nat → Nat → Nat
  | 0, _, _ => 1 % m
  | k + 1, x, e => (if e % 2 = 1 then x else 1) * powMod m k (x * x % m) (e / 2) % m

/-- The inverse modulo a prime of at most 384 bits. -/
def invMod (m x : Nat) : Nat := powMod m 384 (x % m) (m - 2)

/-- A point in Jacobian coordinates: (X, Y, Z) stands for (X / Z², Y / Z³), and Z = 0 for the point at infinity. -/
abbrev JPt := Nat × Nat × Nat

/-- The difference modulo the prime of two numbers below it. -/
def subP (x y : Nat) : Nat := (x + ecP - y) % ecP

/-- Twice a point. -/
def jDouble (q : JPt) : JPt :=
  let d := q.2.2 * q.2.2 % ecP
  let g := q.2.1 * q.2.1 % ecP
  let b := q.1 * g % ecP
  let a := 3 * (subP q.1 d * ((q.1 + d) % ecP)) % ecP
  let x := (a * a + 8 * (ecP - b)) % ecP
  (x, (a * subP (4 * b % ecP) x + 8 * (ecP - g * g % ecP)) % ecP, 2 * (q.2.1 * q.2.2) % ecP)

/-- The sum of two points. -/
def jAdd (p q : JPt) : JPt :=
  if p.2.2 = 0 then q
  else if q.2.2 = 0 then p
  else
    let z1 := p.2.2 * p.2.2 % ecP
    let z2 := q.2.2 * q.2.2 % ecP
    let u1 := p.1 * z2 % ecP
    let s1 := p.2.1 * (q.2.2 * z2 % ecP) % ecP
    let h := subP (q.1 * z1 % ecP) u1
    let r := subP (q.2.1 * (p.2.2 * z1 % ecP) % ecP) s1
    if h = 0 then (if r = 0 then jDouble p else (1, 1, 0))
    else
      let h2 := h * h % ecP
      let h3 := h * h2 % ecP
      let v := u1 * h2 % ecP
      let x := (r * r + (ecP - h3) + 2 * (ecP - v)) % ecP
      (x, (r * subP v x + (ecP - s1 * h3 % ecP)) % ecP, p.2.2 * q.2.2 % ecP * h % ecP)

/-- The multiple of a point by the lowest `k` bits of a number. -/
def jMul : Nat → Nat → JPt → JPt
  | 0, _, _ => (1, 1, 0)
  | k + 1, d, q => if d % 2 = 1 then jAdd q (jMul k (d / 2) (jDouble q)) else jMul k (d / 2) (jDouble q)

/-- A point put into Jacobian coordinates, and taken out of them. -/
def Pt.toJ (q : Pt) : JPt := match q with
  | some (x, y) => (x, y, 1)
  | none => (1, 1, 0)

def Pt.ofJ (q : JPt) : Pt :=
  if q.2.2 = 0 then none
  else
    let w := invMod ecP q.2.2
    let w2 := w * w % ecP
    some (q.1 * w2 % ecP, q.2.1 * (w * w2 % ecP) % ecP)

/-- The multiple of a point by a number below 2³⁸⁴. -/
def ecScale (d : Nat) (q : Pt) : Pt := Pt.ofJ (jMul 384 d (Pt.toJ q))

/-- A point lies on the curve, with coordinates below the prime. -/
def ecValid (x y : Nat) : Bool := decide (x < ecP ∧ y < ecP) && (y * y) % ecP == (x * x * x + 3 * (ecP - x) + ecB) % ecP

/-- x ‖ y of a point, 48 big-endian bytes each (R495). -/
def ecBytes (q : Pt) : List Nat :=
  match q with
  | some (x, y) => beBytes 48 x ++ beBytes 48 y
  | none => []

/-- An ECDSA signature r ‖ s over a SHA-384 digest, with private key `d` and per-message secret `k`. -/
def ecdsaSign (d k : Nat) (digest : List Nat) : List Nat :=
  let r := match ecScale k ecG with
    | some (x, _) => x % ecN
    | none => 0
  beBytes 48 r ++ beBytes 48 (invMod ecN k * (beNat digest + r * d) % ecN)

/-- An ECDSA signature r ‖ s over a SHA-384 digest verifies under a public key x ‖ y. -/
def ecdsaVerify (pub sig digest : List Nat) : Bool :=
  let x := beNat (pub.take 48)
  let y := beNat (pub.drop 48)
  let r := beNat (sig.take 48)
  let s := beNat (sig.drop 48)
  let w := invMod ecN s
  let q := Pt.ofJ (jAdd (jMul 384 (beNat digest * w % ecN) (Pt.toJ ecG)) (jMul 384 (r * w % ecN) (x, y, 1)))
  decide (pub.length = 96 ∧ sig.length = 96 ∧ 0 < r ∧ r < ecN ∧ 0 < s ∧ s < ecN) && ecValid x y && (match q with
    | some (a, _) => a % ecN == r
    | none => false)

/-- The inverse of SubBytes on a byte. -/
def aesInvSbox (a : Nat) : Nat := aesInv (rotl8 a 1 ^^^ rotl8 a 3 ^^^ rotl8 a 6 ^^^ 0x05)

/-- The inverses of ShiftRows and SubBytes. -/
def aesInvSubShift (s : List Nat) : List Nat :=
  (List.range 16).map fun i => aesInvSbox (s.getD ((i + 16 - 4 * (i % 4)) % 16) 0)

/-- The inverse of MixColumns. -/
def aesInvMix (s : List Nat) : List Nat :=
  (List.range 16).map fun i =>
    let c := i / 4 * 4
    let at_ (k : Nat) : Nat := s.getD (c + (i + k) % 4) 0
    aesMul 8 (at_ 0) 0x0E ^^^ aesMul 8 (at_ 1) 0x0B ^^^ aesMul 8 (at_ 2) 0x0D ^^^ aesMul 8 (at_ 3) 0x09

/-- The inverse rounds of AES, from the last round key back to the first. -/
def aesInvRounds : List (List Nat) → List Nat → List Nat
  | [], s => s
  | [k], s => xorBytes (aesInvSubShift s) k
  | k :: ks, s => aesInvRounds ks (aesInvMix (xorBytes (aesInvSubShift s) k))

/-- One block decrypted under round keys. -/
def aesOpenBlock (rk : List (List Nat)) (b : List Nat) : List Nat :=
  match rk.reverse with
  | k :: ks => aesInvRounds ks (xorBytes b k)
  | [] => b

/-- The steps of AES key unwrap, from step `t` down to 1, over the register A and the 8-byte blocks of the key. -/
def kwSteps (rk : List (List Nat)) : Nat → Nat → List (List Nat) → Nat × List (List Nat)
  | 0, a, r => (a, r)
  | t + 1, a, r =>
    let i := t % r.length
    let b := aesOpenBlock rk (beBytes 8 (a ^^^ (t + 1)) ++ r.getD i [])
    kwSteps rk t (beNat (b.take 8)) (r.set i (b.drop 8))

/-- AES-256 KW unwrap of a 32-byte key from 40 bytes; none when the integrity check fails. -/
def kwUnwrap (kek wrapped : List Nat) : Option (List Nat) :=
  let r := chunks 8 4 (wrapped.drop 8)
  let u := kwSteps (aesRoundKeys kek) 24 (beNat (wrapped.take 8)) r
  if u.1 = 0xA6A6A6A6A6A6A6A6 then some u.2.flatten else none

end Sys2Proof.Machine
end

