-- ==== Sys2Proof/Machine/Image.lean ====
section
/-!
DEFINITION. Machine/Image.lean: boot images and module configuration records (R497, R498): their bytes, the checks of the ROM, the manifest,
and the firmware alias key that follows from the header.
-/

namespace Sys2Proof.Machine

/-- Bytes 0x000 to 0x0FF of the header, which SIG covers (Table 15.5). -/
def imageSigned (i : FlashImage) : List Byte :=
  leBytes 4 i.magic ++ leBytes 2 i.hdrVer ++ leBytes 1 i.keySlot ++ leBytes 1 i.svn ++ leBytes 4 i.version ++ leBytes 4 i.length ++
    i.pubkey ++ i.digest ++ i.rsvd

/-- The header (Table 15.5). -/
def imageHeader (i : FlashImage) : List Byte := imageSigned i ++ i.sig

/-- The body (R498), whose layout the spec does not state (DESIGN CHOICE, log entry 86): the firmware, the manifest's digests, CO_ROOT, the
ledger region's offset where the record names it, 4 bytes, and for each settling parameter one byte, 1 where the record gives it, and its 4
bytes. -/
def imageBody (i : FlashImage) : List Byte :=
  i.firmware ++ i.manifest.flatten ++ i.coRoot ++ i.ledgerAt.elim [] (leBytes 4) ++ i.settle.flatMap fun v => leBytes 1 (bit v.isSome) ++ leBytes 4 (v.getD 0)

/-- SHA-384 of bytes. -/
def digestOf (b : List Byte) : List Byte := toBytes (sha384 (toNats b))

/-- The rsvd bytes of the header are zero (Table 15.5). -/
def rsvdZero (i : FlashImage) : Bool := i.rsvd.all (· == 0)

/-- KEY_SLOT names an unrevoked slot whose hash equals SHA-384(PUBKEY) (R497). -/
def slotMatches (s : State) (i : FlashImage) : Bool :=
  !((s.rd (.sec .KEY_REVOKED) .h0).testBit i.keySlot) && (s.keySlots[i.keySlot]? == some (digestOf i.pubkey))

/-- An image or a record passes the checks of R497. -/
def imageValid (s : State) (h : Half) (i : FlashImage) : Bool :=
  i.magic == 0x56454F45 && i.hdrVer == 1 && slotMatches s i && decide (s.rd (.sec .ARB_STATUS_ARB) h ≤ i.svn) &&
    (digestOf ((imageBody i).take i.length) == i.digest) && decide (i.length ≤ (imageBody i).length) &&
    ecdsaVerify (toNats i.pubkey) (toNats i.sig) (sha384 (toNats (imageSigned i)))

/-- The image that a hub's firmware runs from; a running image is never replaced (R499). -/
def runningImage (s : State) (h : Half) : Option FlashImage :=
  if s.rd (.boot .BOOT_STATUS_IMAGE) h = 1 then s.imageA
  else if s.rd (.boot .BOOT_STATUS_IMAGE) h = 2 then s.imageB
  else none

/-- Every subordinate image has the digest that the manifest of the running image gives it, and is loaded (R498). -/
def subsMatch (s : State) (h : Half) : Bool :=
  match runningImage s h with
  | some i => s.subImages.map digestOf == i.manifest
  | none => false

/-- The bytes that FAK is derived as (R498). -/
def fakBytes (s : State) (h : Half) : List Nat :=
  match runningImage s h with
  | some i => hkdf384 Config.hus (sha384 (toNats (imageHeader i))) (asciiBytes "zenuxus fak v1") 48
  | none => []

/-- The module configuration record that a hub has loaded, and its CO_ROOT (R498). -/
def recordOf (s : State) (h : Half) : Option FlashImage := (s.records.find? fun r => r.1 == h).map (·.2)

def coRoot (s : State) (h : Half) : Option (List Byte) := (recordOf s h).map (·.coRoot)

end Sys2Proof.Machine
end

