-- ==== Sys2Proof/Machine/Split.lean ====
section
/-!
DEFINITION. Machine/Split.lean: the Pass main lanes and the sideband (R35 to R38), the split (R527 to R533), role arbitration (R528 to
R531),
retraining and the rejoin (R534, R535).
-/

namespace Sys2Proof.Machine

/-! ### Role messages (R528, R529) -/

/-- A Dvorien message (Table 17.11): the MCTP type, the Vendor ID, and the message from its command byte on. -/
def vendorMsg (body : List Byte) : List Byte := leBytes 1 0x7E ++ leBytes 1 (Config.vendorId / 256) ++ leBytes 1 Config.vendorId ++ body

/-- ROLE_QUERY sent, unless the bus is stuck; the MC waits for a ROLE_GRANT (R528, R562). -/
def roleQuery (s : State) (h : Half) : State :=
  let held := bit (s.holds h)
  let s1 := ((s.wr (.flt .ARB_PENDING) h 1).wr (.flt .ARB_HELD) h held).wr (.flt .ARB_MT) h (s.mt h)
  if busStuck s h then s1 else mctpOut s1 h (vendorMsg (leBytes 1 1 ++ leBytes 1 h.num ++ leBytes 1 held))

/-- Arbitration begun by a half's MC: a ROLE message over a live sideband, else ROLE_QUERY to the tray controller (R528). -/
def arbitrate (s : State) (h : Half) : State :=
  if s.rd (.boot .FW_RUNNING) h = 0 then s
  else if s.rd (.pkg .PASS_STATUS_SB_ALIVE) h = 1 then s.emit (.interHalf h (.role (s.holds h)))
  else roleQuery s h

/-- ROLE_ARB of a half after an arbitration. -/
def arbDone (s : State) (h : Half) (path half : Nat) : State :=
  ((s.wr (.flt .ROLE_ARB_PATH) h path).wr (.flt .ROLE_ARB_HALF) h half).wr (.flt .ARB_PENDING) h 0

/-- MC_STATUS.PEER reads UNREACHABLE while no path is alive (R536). -/
def peerPaths (s : State) (h : Half) : State := if s.peerReachable h then s else s.wr (.flt .MC_STATUS_PEER) h 5

/-- A path to the peer has become alive on a half, where none was in `s` (R536). -/
def pathAlive (s t : State) (h : Half) : State :=
  if s.peerReachable h = false ∧ t.peerReachable h = true then t.wr (.flt .MC_PATH_MT) h (s.mt h) else t

/-! ### The down declaration (R36, R527) -/

/-- A context has a load in flight that needs the Pass: with the lanes down it cannot land. -/
def crossLoad (s : State) (x : Context) : Bool :=
  match jobOf s x with
  | some j => x.loads.any fun k => (j.load (k % 2 == 1) (k / 2) ⟨s, none⟩).fail.any fun f => f.status == ST_PASS_DOWN
  | none => false

/-- Chains of a half that have a context on the other half, or an access across the Pass in flight (R527); `s` has the Pass down. -/
def crossChains (s : State) (h : Half) : List Nat :=
  (s.chains.filter fun d => d.half == h && d.running && s.contexts.any fun x =>
    x.chainNo == some d.readNo && (x.half == h.other || crossLoad s x)).map (·.readNo)

/-- A hub declares the Pass down, with a cause of Table 19.7: its cross-half chains end, the notices are posted, and arbitration
starts. LOCK clears with every declaration, one by exhaustions included (DESIGN CHOICE, log entry 56). -/
def passDeclare (s : State) (h : Half) (cause : Nat) : State :=
  let mt := s.mt h
  let s1 := (((s.wr (.pkg .PASS_STATUS_STATE) h 3).wr (.pkg .PASS_STATUS_LOCK) h 0).wr (.pkg .PASS_DOWN_TIME) h mt).wr
    (.flt .PASS_DOWN_MT) h mt
  let s2 := raiseCause (s1.wr (.pkg .PASS_REALIGNING) h 0) 1 h 2
  let s3 := postNotice ((crossChains s2 h).foldl passDownChain s2) h ST_PASS_DOWN mt 0
  let detail := cause + 4 * s.rd (.pkg .PASS_STATUS_SB_ALIVE) h + 2 ^ 32 * s.rd (.pkg .PASS_REPLAY_CNT_EXH) h
  let s4 := faultRecord s3 h pf (plainFault mt ST_PASS_DOWN 0x40 0 0xFF detail) none
  arbitrate (serviceUpdate (peerPaths s4 h)) h

/-- PASS_FLIT_RECEIVE (R34, R35): a flit that a half accepts, after the replays it took; the sender's run of exhaustions ends. -/
def execPassFlitReceive (h : Half) (replays : Fin 5) (s : State) : Res :=
  if s.lanesUp then
    let k := h.other
    let s1 := (s.wr (.pkg .PASS_STATUS_EXH_RUN) k 0).inc (.pkg .PASS_REPLAY_CNT_REPLAYS) k replays.val
    .next (bump (bump (bump s1 h 3 10 256) k 3 9 256) k 3 11 replays.val)
  else .next s

/-- PASS_REPLAY_EXHAUST (R35, R36): a flit has reached its fourth replay; the third exhaustion in a row takes the Pass down, an earlier one
realigns the lanes. Each replay is counted as one flit resent (DESIGN CHOICE, log entry 81). -/
def execPassReplayExhaust (h : Half) (s : State) : Res :=
  if s.passUp h ∧ s.rd (.pkg .PASS_REALIGNING) h = 0 then
    let run := s.rd (.pkg .PASS_STATUS_EXH_RUN) h + 1
    let s1 := (s.inc (.pkg .PASS_REPLAY_CNT_EXH) h 1).inc (.pkg .PASS_REPLAY_CNT_REPLAYS) h 4
    let s2 := raiseCause (bump (s1.wr (.pkg .PASS_STATUS_EXH_RUN) h run) h 3 11 4) 1 h 1
    if 3 ≤ run then .next (passDeclare s2 h 0) else .next (s2.wr (.pkg .PASS_REALIGNING) h 1)
  else .next s

/-- PASS_REALIGN_DONE (R35). -/
def execPassRealignDone (h : Half) (s : State) : Res := .next (s.wr (.pkg .PASS_REALIGNING) h 0)

/-- PASS_LOCK_LOST (R35, R534): the receiver's lock is gone; a RETRAINED Pass returns to DOWN. -/
def execPassLockLost (h : Half) (s : State) : Res :=
  let st := s.rd (.pkg .PASS_STATUS_STATE) h
  if st = 2 then .next (passDeclare (raiseCause s 1 h 4) h 1)
  else if st = 4 then .next (raiseCause ((s.wr (.pkg .PASS_STATUS_STATE) h 3).wr (.pkg .PASS_STATUS_LOCK) h 0) 1 h 4)
  else .next s

/-- PASS_SIDEBAND_LOST (§1.4 "At the edges"). -/
def execPassSidebandLost (h : Half) (s : State) : Res :=
  if s.rd (.pkg .PASS_STATUS_SB_ALIVE) h = 1 then
    .next (peerPaths (raiseCause (s.wr (.pkg .PASS_STATUS_SB_ALIVE) h 0) 1 h 8) h)
  else .next s

/-- PASS_SIDEBAND_REGAINED (R494): once both halves reach each other again, the keys are reconciled. -/
def execPassSidebandRegained (h : Half) (s : State) : Res :=
  if s.rd (.pkg .PASS_STATUS_SB_ALIVE) h = 1 ∨ hubOk s h.other = false then .next s
  else
    let s1 := pathAlive s (s.wr (.pkg .PASS_STATUS_SB_ALIVE) h 1) h
    if s.lanesUp = false ∧ s1.peerReachable h.other = true then .next (reconcile s1) else .next s1

/-! ### Arbitration (R528 to R531) -/

/-- ROLE_MESSAGE_RECEIVE (R528): over the sideband, the half that holds the roles keeps them. -/
def execRoleMessageReceive (h : Half) (s : State) : Res :=
  if s.rd (.pkg .PASS_STATUS_SB_ALIVE) h = 1 ∧ s.passUp h = false ∧ s.rd (.boot .ROLES_SETTLED) .h0 = 1 then
    .next (arbDone s h 1 ((s.holder.map Half.num).getD (s.rd (.flt .ROLE_ARB_HALF) h)))
  else .next s

/-- The roles pass to a half that a grant names, with what its last committed generation holds. -/
def grantRoles (s : State) (h : Half) : State :=
  let old := s.holds h.other
  let s1 := if old then loseRoles s h.other else s
  let g := s1.gen h
  resumeFrom (gainRoles (if old then passLedger s1 h g true else s1) h) h g

/-- The hub can set its role latch: it is usable, and not in ROM recovery (R529, R561). -/
def mayHold (s : State) (h : Half) : Bool :=
  hubOk s h && (s.rd (.boot .BOOT_STATUS_IMAGE) h == 1 || s.rd (.boot .BOOT_STATUS_IMAGE) h == 2)

/-- A grant closes the arbitration of every MC that waits for it. -/
def closeArb (s : State) (half : Half) : State :=
  let one (t : State) (h : Half) : State := if t.rd (.flt .ARB_PENDING) h = 1 then arbDone t h 2 half.num else t
  one (one s .h0) .h1

/-- ROLE_GRANT_RECEIVE (R529, R565, R587): a grant in a single packet with a valid PEC and HALF of 0 or 1; the other half's latch clears,
the named half's is set. A stuck bus carries no grant (R562). -/
def execRoleGrantReceive (named : Fin 256) (pec single : Bool) (s : State) : Res :=
  if pec = false ∨ single = false ∨ 1 < named.val ∨ (busStuck s .h0 || busStuck s .h1) = true then .next s
  else
    let half := Half.ofNum named.val
    let s1 := closeArb s half
    if s.holds half then .next s1
    else if mayHold s half then .next (grantRoles s1 half)
    else if s.holds half.other then .next (serviceUpdate (loseRoles s1 half.other))
    else .next s1

/-- ROLE_SILENCE_TIMEOUT (R528): 50 ms without a grant; the half that held the roles at the declaration keeps them. -/
def execRoleSilenceTimeout (h : Half) (s : State) : Res :=
  if s.rd (.flt .ARB_PENDING) h = 1 ∧ s.rd (.flt .ARB_MT) h + 50000000 ≤ s.mt h then
    let holder := if s.rd (.flt .ARB_HELD) h = 1 then h.num else (s.holder.map Half.num).getD 0
    .next (arbDone s h 3 holder)
  else .next s

/-- A hub that has not ended its self-tests within the bound of stage B counts as failed for this start-up (R531, §3.8). -/
def failHub (s : State) (h : Half) : State :=
  if s.rd (.boot .SELFTEST_DONE) h = 0 then (s.wr (.boot .SELFTEST_DONE) h 1).wr (.boot .FW_RUNNING) h 0 else s

/-- STARTUP_ROLE_ARBITRATE (R531): half 1 asks the tray controller for the roles, half 0 not having passed its self-tests by MT = 235 ms. -/
def execStartupRoleArbitrate (s : State) : Res :=
  if 235000000 ≤ s.mt .h1 ∧ s.rd (.boot .SELFTEST_OK) .h1 = 1 ∧ s.rd (.boot .SELFTEST_OK) .h0 = 0 ∧ s.rd (.boot .ROLES_SETTLED) .h0 = 0 ∧
      s.rd (.flt .ARB_PENDING) .h1 = 0 ∧ s.rd (.flt .ROLE_ARB_PATH) .h1 = 0 then
    .next (roleQuery (failHub s .h0) .h1)
  else .next s

/-! ### During a split (R532, R534) -/

/-- NONHOLDER_TJ_CRIT (R532): the half without the roles withdraws compute service. -/
def execNonholderTjCrit (h : Half) (s : State) : Res :=
  if s.holds h = false ∧ 3 ≤ s.rd (.pkg .PASS_STATUS_STATE) h then .next (serviceUpdate (s.wr (.flt .COMP_WITHDRAWN) h 1))
  else .next s

/-- The main lanes are to be retrained (R534): both hubs may, and one at least is DOWN, the other DOWN or RETRAINED. -/
def retrainDue (s : State) : Bool :=
  ([Half.h0, .h1].all fun h => decide (3 ≤ s.rd (.pkg .PASS_STATUS_STATE) h) && s.rd (.flt .MC_PASS_CTL_RETRAIN_EN) h == 1 && hubOk s h) &&
    [Half.h0, .h1].any fun h => s.rd (.pkg .PASS_STATUS_STATE) h == 3

/-- PASS_RETRAIN_ATTEMPT (R534). -/
def execPassRetrainAttempt (s : State) : Res := .next (if retrainDue s then s.wr (.pkg .PASS_TRYING) .h0 1 else s)

/-- Lanes trained, with the spares in use in the direction from each half (R34). -/
def passTrained (s : State) (st spares0 spares1 : Nat) : State :=
  let one (t : State) (h : Half) (tx rx : Nat) : State :=
    ((((t.wr (.pkg .PASS_STATUS_STATE) h st).wr (.pkg .PASS_STATUS_LOCK) h 1).wr (.pkg .PASS_STATUS_SPARE_TX) h tx).wr
      (.pkg .PASS_STATUS_SPARE_RX) h rx).wr (.pkg .PASS_STATUS_EXH_RUN) h 0
  one (one s .h0 spares0 spares1) .h1 spares1 spares0

/-- PASS_RETRAIN_END (R534): `ok` when the lanes train, with at most 8 repaired in each direction. -/
def execPassRetrainEnd (ok : Bool) (spares0 spares1 : Nat) (s : State) : Res :=
  if s.rd (.pkg .PASS_TRYING) .h0 = 0 then .next s
  else
    let s1 := s.wr (.pkg .PASS_TRYING) .h0 0
    if ok = true ∧ spares0 ≤ 8 ∧ spares1 ≤ 8 then .next (raiseCause (raiseCause (passTrained s1 4 spares0 spares1) 13 .h0 2) 13 .h1 2)
    else .next ((s1.inc (.flt .PASS_RETRAIN_CNT) .h0 1).inc (.flt .PASS_RETRAIN_CNT) .h1 1)

/-! ### The rejoin (R535) -/

/-- A lock taken on one half locks the other (R144). -/
def lockExchange (s : State) : State :=
  if s.rd (.host .SETUP_LOCK_LOCK) .h0 = 1 ∨ s.rd (.host .SETUP_LOCK_LOCK) .h1 = 1 then
    (((s.wr (.host .SETUP_LOCK_LOCK) .h0 1).wr (.host .SETUP_LOCK_LOCK) .h1 1).wr (.host .SETUP_LOCK_PEER_PENDING) .h0 0).wr
      (.host .SETUP_LOCK_PEER_PENDING) .h1 0
  else s

/-- A generation committed on a half (R539). -/
def commitGen (s : State) (h : Half) (g : Generation) : State :=
  { s.wr (.flt .MC_GEN) h g.num with gens := s.gens.filter (fun p => p.1 != h) ++ [(h, g)], genCopy := s.genCopy.filter fun p => p.1 != h }

/-- A full generation copied from the half that holds the roles (R539). -/
def fullGeneration (s : State) : State :=
  match s.holder with
  | none => s
  | some w => commitGen s w.other (snapGeneration s w (max (s.rd (.flt .MC_GEN) w.other) (s.mt w / 5000000)))

/-- A half that a Lowland entry did not reach enters with the other (R121). -/
def joinLowland (s : State) : State :=
  if s.lowland .h0 = s.lowland .h1 then s
  else if s.lowland .h0 then raiseCause (lowlandHalf s .h1 ST_LOWLAND) 0 .h1 2
  else raiseCause (lowlandHalf s .h0 ST_LOWLAND) 0 .h0 2

/-- The event and the record of a half at the end of a rejoin. -/
def rejoinRecord (s : State) (h : Half) : State :=
  let ms := min (2 ^ 32 - 1) ((s.mt h - s.rd (.flt .PASS_DOWN_MT) h) / 1000000)
  let detail := (s.holder.map Half.num).getD 0 + 16 * s.rd (.pkg .PASS_STATUS_SPARE_TX) h +
    256 * s.rd (.pkg .PASS_STATUS_SPARE_RX) h + 2 ^ 32 * ms
  faultRecord (postNotice s h ST_PASS_UP (s.mt h) 0) h pf (plainFault (s.mt h) ST_PASS_UP 0x41 0 0xFF detail) none

/-- PASS_REJOIN (R535). -/
def execPassRejoin (h : Half) (s : State) : Res :=
  if s.rd (.pkg .PASS_STATUS_STATE) .h0 = 4 ∧ s.rd (.pkg .PASS_STATUS_STATE) .h1 = 4 then
    let s1 := (if s.holder = none then grantRoles s .h0 else s).emit (.interHalf h .rejoin)
    let w := s1.chipHalf
    let s2 := fullGeneration (takeDeltas (lockExchange (reconcile s1)) w)
    let s3 := s2.wr (.tim .MT_RATE) w.other (s2.rd (.tim .MT_RATE) w)
    let up := (s3.wr (.pkg .PASS_STATUS_STATE) .h0 2).wr (.pkg .PASS_STATUS_STATE) .h1 2
    let s4 := pathAlive s3 (pathAlive s3 up .h0) .h1
    let s5 := (s4.wr (.flt .COMP_WITHDRAWN) .h0 0).wr (.flt .COMP_WITHDRAWN) .h1 0
    let s6 := rejoinRecord (rejoinRecord (joinLowland s5) .h0) .h1
    .next (serviceUpdate (s6.wr (.flt .MC_STATUS_LAST_STATUS) h ST_OK))
  else .next (s.wr (.flt .MC_STATUS_LAST_STATUS) h ST_PASS_STATE)

end Sys2Proof.Machine
end

