-- ==== Sys2Proof/Machine/Startup.lean ====
section
/-!
DEFINITION. Machine/Startup.lean: the start-up chain (§3.3 to §3.8, Table 3.6): straps, signed boot, self-tests, roles and settling,
training, readiness, core tests, plateau enable, and the judgement at step 13.
-/

namespace Sys2Proof.Machine

/-! ### The chain (Table 3.6) -/

/-- The last step of Table 3.6 that has ended. -/
def stageMax (s : State) : Nat := s.rd (.boot .BOOT_STAGE_MAX) .h0

/-- A step of the chain is the one that runs. -/
def stageIs (s : State) (n : Nat) : Bool := stageMax s + 1 == n && s.rd (.boot .PWR_GOOD_PIN) .h0 == 1

/-- A step of the chain ends, whether it passed or failed. -/
def stageDone (s : State) (n : Nat) : State :=
  ((s.wr (.boot .BOOT_STAGE_MAX) .h0 n).wr (.boot .BOOT_STATUS_STEP) .h0 n).wr (.boot .BOOT_STATUS_STEP) .h1 n

/-- A hub has done its part of step 2, 3 or 4; a hub that is not usable, or whose firmware did not start, has none. -/
def hubPassed (s : State) (h : Half) (n : Nat) : Bool :=
  !hubOk s h ||
    (if n = 2 then s.rd (.boot .STRAP_DONE) h == 1
     else if n = 3 then s.rd (.boot .BOOT_STATUS_IMAGE) h != 0
     else s.rd (.boot .SELFTEST_DONE) h == 1 || s.rd (.boot .BOOT_STATUS_IMAGE) h == 3)

/-- Step 2, 3 or 4 ends once both hubs have done their part. -/
def hubStage (s : State) (n : Nat) : State :=
  if stageIs s n ∧ (hubPassed s .h0 n && hubPassed s .h1 n) then stageDone s n else s

/-- The steps of the hubs brought up to date. -/
def hubStages (s : State) : State := hubStage (hubStage (hubStage s 2) 3) 4

/-- Lowland mode, or a cause of it that has arisen. -/
def lowNow (s : State) : Bool := s.lowland s.chipHalf || s.rd (.boot .LOW_PEND) .h0 != 0

/-- The role holder's loop is in RUN. -/
def loopInRun (s : State) : Bool := match s.holder with
  | some h => s.rd (.thm .THERM_STATUS_STATE) h == 2
  | none => false

/-! ### Straps (R97 to R99) -/

/-- The strap values in force on a half, with the mode they fix (R97, R506). -/
def strapForce (s : State) (h : Half) (bootSel platInit smbAddr media fips : Nat) : State :=
  let s1 := ((s.wr (.boot .STRAP_STATUS_BOOT_SEL) h bootSel).wr (.boot .STRAP_STATUS_PLAT_INIT) h platInit).wr
    (.boot .STRAP_STATUS_SMB_ADDR) h smbAddr
  let s2 := (s1.wr (.boot .STRAP_STATUS_FAB_MEDIA) h media).wr (.boot .STRAP_STATUS_FIPS_MODE) h fips
  (s2.wr (.sec .SEC_STATUS_APPROVED) h fips).wr (.sec .SEC_CFG_IDE_REQ) h fips

/-- The strap values as a hub sampled them. -/
def strapOwn (s : State) (h : Half) : List Nat :=
  [s.rd (.boot .STRAP_OWN_BOOT_SEL) h, s.rd (.boot .STRAP_OWN_PLAT_INIT) h, s.rd (.boot .STRAP_OWN_SMB_ADDR) h,
    s.rd (.boot .STRAP_OWN_FAB_MEDIA) h, s.rd (.boot .STRAP_OWN_FIPS_MODE) h]

/-- The sidebands of two powered hubs exchange characters (R531). -/
def sidebandUp (s : State) : State :=
  if s.rd (.boot .STRAP_DONE) .h0 = 1 ∧ s.rd (.boot .STRAP_DONE) .h1 = 1 then
    (s.wr (.pkg .PASS_STATUS_SB_ALIVE) .h0 1).wr (.pkg .PASS_STATUS_SB_ALIVE) .h1 1
  else s

/-- STRAP_SAMPLE (R97, R98): a hub samples its straps, once in a start-up; an invalid value is replaced. -/
def execStrapSample (h : Half) (bootSel platInit : Fin 4) (smbAddr : Fin 8) (media fips : Bool) (s : State) : Res :=
  if stageIs s 2 ∧ hubOk s h = true ∧ s.rd (.boot .STRAP_DONE) h = 0 then
    let b := min bootSel.val 2
    let p := min platInit.val 2
    let s1 := strapForce (s.wr (.boot .STRAP_DONE) h 1) h b p smbAddr (bit media) (bit fips)
    let s2 := s1.wr (.boot .STRAP_STATUS_BAD) h (bit (bootSel.val == 3 || platInit.val == 3))
    let s3 := ((s2.wr (.boot .STRAP_OWN_BOOT_SEL) h b).wr (.boot .STRAP_OWN_PLAT_INIT) h p).wr (.boot .STRAP_OWN_SMB_ADDR) h smbAddr
    .next (hubStages (sidebandUp ((s3.wr (.boot .STRAP_OWN_FAB_MEDIA) h (bit media)).wr (.boot .STRAP_OWN_FIPS_MODE) h (bit fips))))
  else .next s

/-- STRAP_COMPARE (R99): with both hubs booted, both halves use the role holder's values where the two sets differ. -/
def execStrapCompare (s : State) : Res :=
  match s.holder with
  | none => .next s
  | some w =>
    if mayHold s w.other = false ∨ s.peerReachable w = false ∨ strapOwn s .h0 = strapOwn s .h1 then .next s
    else
      let v (i : Nat) := (strapOwn s w).getD i 0
      let one (t : State) (h : Half) : State :=
        (strapForce t h (v 0) (v 1) (v 2) (v 3) (v 4)).wr (.boot .STRAP_STATUS_MISMATCH) h 1
      .next (one (one s .h0) .h1)

/-! ### Signed boot (R103, R104, R110, R497) -/

/-- A parameter of the module configuration record, where the record gives one within its range (R110). -/
def settleParam (i : FlashImage) (k : Nat) (ok : Nat → Bool) (dflt : Nat) : Nat :=
  match (i.settle[k]?).join with
  | some v => if ok v then v else dflt
  | none => dflt

/-- The settling parameters in force (R110, Table 3.4): slope, hold, timeout and flow period. -/
def settleOf (i : FlashImage) : List Nat :=
  let hold := settleParam i 1 (fun v => decide (3 ≤ v ∧ v ≤ 10)) 5
  let tmo := settleParam i 2 (fun v => decide (500 ≤ v ∧ v ≤ 1500)) 1500
  let bad := decide (tmo < hold * 100)
  [settleParam i 0 (fun v => decide (16 ≤ v ∧ v ≤ 512)) 64, if bad then 5 else hold, if bad then 1500 else tmo,
    settleParam i 3 (fun v => decide (v = 0 ∨ (250 ≤ v ∧ v ≤ 16777214))) 2500000]

/-- The module configuration record verified and loaded with the image (R103). -/
def loadConfig (s : State) (h : Half) : State :=
  match s.config with
  | none => s
  | some i =>
    if imageValid s h i then
      let p := settleOf i
      let s1 := (((s.wr (.boot .THERM_SETTLE1_SLOPE) h (p.getD 0 0)).wr (.boot .THERM_SETTLE0_HOLD) h (p.getD 1 0)).wr
        (.boot .THERM_SETTLE0_TIMEOUT) h (p.getD 2 0)).wr (.boot .THERM_SETTLE2_FLOW_PERIOD) h (p.getD 3 0)
      { s1 with records := (s1.records.filter fun r => r.1 != h) ++ [(h, i)] }
    else s

/-- An image started on a hub, `n` 1 for slot A and 2 for slot B. -/
def startImage (s : State) (h : Half) (n : Nat) (i : FlashImage) : State :=
  let s1 := (s.wr (.boot .BOOT_STATUS_IMAGE) h n).wr (.boot .FW_RUNNING) h 1
  loadConfig ((s1.wr (.sec .FW_VERSION) h i.version).wr (.sec .ARB_STATUS_SVN) h i.svn) h

/-- The first image, in BOOT_SEL's order, that is read intact and passes. -/
def bootImage (s : State) (h : Half) (okA okB : Bool) : Option (Nat × FlashImage) :=
  let good (ok : Bool) (n : Nat) (i : Option FlashImage) : List (Nat × FlashImage) :=
    match i with
    | some x => if ok && imageValid s h x then [(n, x)] else []
    | none => []
  let a := good okA 1 s.imageA
  let b := good okB 2 s.imageB
  (if s.rd (.boot .STRAP_OWN_BOOT_SEL) h = 0 then a ++ b else b ++ a).head?

/-- ROM_BOOT (R103, R104): `okA` and `okB` tell whether each slot is read as it was stored. -/
def execRomBoot (h : Half) (okA okB : Bool) (s : State) : Res :=
  if stageIs s 3 ∧ hubOk s h = true ∧ s.rd (.boot .BOOT_STATUS_IMAGE) h = 0 then
    if s.rd (.boot .STRAP_OWN_BOOT_SEL) h = 2 then .next (hubStages (s.wr (.boot .BOOT_STATUS_IMAGE) h 3))
    else match bootImage s h okA okB with
      | some p => .next (hubStages (startImage s h p.1 p.2))
      | none => .next (hubStages (bootFail (s.wr (.boot .BOOT_STATUS_IMAGE) h 3) h ST_BOOT_AUTH))
  else .next s

/-- SELFTEST_PREOP (R105, R508): the self-tests of a hub's security block, of which the integrity of the subordinate images is one (Table
15.10, R498); a failure zeroizes and is the Lowland cause SECURITY. -/
def execSelftestPreop (h : Half) (ok : Bool) (s : State) : Res :=
  if stageIs s 4 ∧ s.rd (.boot .FW_RUNNING) h = 1 ∧ s.rd (.boot .SELFTEST_DONE) h = 0 then
    let s1 := s.wr (.boot .SELFTEST_DONE) h 1
    if ok && subsMatch s h then .next (hubStages (s1.wr (.boot .SELFTEST_OK) h 1))
    else .next (hubStages (securityEvent (bootFail s1 h ST_SELFTEST_FAIL) h ST_SELFTEST_FAIL))
  else .next s

/-! ### Roles and settling (R106 to R109) -/

/-- The roles settled on a half: its hub drives the aux outputs, and the loop enters PRIME (R106, R107, R144). -/
def settleOn (s : State) (h : Half) : State :=
  let s1 := if s.holds h then s else gainRoles s h
  let s2 := lockExchange ((s1.wr (.boot .ROLES_SETTLED) .h0 1).wr (.thm .AUX_DRIVING) h 1)
  let s3 := if s2.rd (.thm .AUX_KEY_CABLE_OK) h = 1 then auxDriveAll s2 h else s2
  stageDone (thermPrime s3 h) 5

/-- The roles settled with no holder: nobody runs the loop, so no settling test follows (§3.5 "At the edges"). -/
def settleNobody (s : State) : State := stageDone (s.wr (.boot .ROLES_SETTLED) .h0 1) 6

/-- Half 1 still asks the tray controller, or may yet ask it (R531). -/
def half1Asks (s : State) : Bool :=
  s.rd (.boot .SELFTEST_OK) .h1 == 1 &&
    (s.rd (.flt .ARB_PENDING) .h1 == 1 || s.rd (.flt .ROLE_ARB_PATH) .h1 == 0)

/-- ROLE_SETTLE (R106): half 0 by default; half 1 only with a grant. -/
def execRoleSettle (s : State) : Res :=
  if stageIs s 5 then
    if s.rd (.boot .SELFTEST_OK) .h0 = 1 then .next (settleOn s .h0)
    else if s.holds .h1 then .next (settleOn s .h1)
    else if half1Asks s then .next s
    else .next (settleNobody s)
  else .next s

/-- A sample of the settling test is good (R108). -/
def settleGood (s : State) (h : Half) (t tj : Nat) : Bool :=
  let d := signedOf 16 t - signedOf 16 (s.rd (.boot .SETTLE_REF) .h0)
  let flow := s.rd (.boot .THERM_SETTLE2_FLOW_PERIOD) h
  decide (d.natAbs ≤ s.rd (.boot .THERM_SETTLE1_SLOPE) h) &&
    decide (signedOf 16 t < signedOf 16 (s.rd (.thm .THERM_SET0_T_OUT_SET) h)) &&
    decide (signedOf 16 tj < signedOf 16 (s.rd (.thm .THERM_SET1_TJ_WARN) h)) &&
    (flow == 0 || (s.rd (.thm .FB_STATUS_STOPPED) h 2 == 0 && decide (s.rd (.thm .FB_PERIOD_PERIOD) h 2 ≤ flow)))

/-- The test passes: the loop enters RUN; in an exit from Lowland mode THERM is left and E1 follows (R108, R125). -/
def settlePass (s : State) (h : Half) : State :=
  let s1 := thermRun s h
  if s.rd (.boot .EXIT_RUNNING) .h0 = 1 then (leaveCauses s1 1).wr (.boot .EXIT_RUNNING) .h0 2
  else if stageIs s 6 then stageDone s1 6 else s1

/-- SETTLE_SAMPLE (R108): CT_OUT, where it can be read, and TJ_MAX, in Q8.8 °C. -/
def execSettleSample (tOut : Option Nat) (tj : Nat) (s : State) : Res :=
  match s.holder with
  | none => .next s
  | some h =>
    if s.rd (.thm .THERM_STATUS_STATE) h ≠ 1 then .next s
    else match tOut with
      | none => .next (s.wr (.boot .SETTLE_RUN) .h0 0)
      | some t =>
        let run := if s.rd (.boot .SETTLE_REF_V) .h0 = 1 ∧ settleGood s h t tj = true then s.rd (.boot .SETTLE_RUN) .h0 + 1 else 0
        let s1 := ((s.wr (.boot .SETTLE_RUN) .h0 run).wr (.boot .SETTLE_REF) .h0 t).wr (.boot .SETTLE_REF_V) .h0 1
        let s2 := ((s1.wr (.thm .THERM_MEAS0_T_OUT) h t).wr (.thm .THERM_MEAS1_TJ_MAX) h tj).wr (.thm .CT_OUT_OK) h 1
        .next (if s.rd (.boot .THERM_SETTLE0_HOLD) h ≤ run then settlePass s2 h else s2)

/-- SETTLE_TIMEOUT (R109): the loop enters FAIL with ST_SETTLE_TIMEOUT. -/
def settleTimeout (s : State) (h : Half) : State :=
  let s1 := (thermStatus (thermFail s h false) h ST_SETTLE_TIMEOUT).wr (.boot .LOW_STATUS) .h0 ST_SETTLE_TIMEOUT
  let s2 := s1.wr (.boot .EXIT_RUNNING) .h0 0
  if stageIs s 6 then stageDone (bootFail s2 h ST_SETTLE_TIMEOUT) 6 else s2

def execSettleTimeout (s : State) : Res :=
  match s.holder with
  | none => .next s
  | some h => if s.rd (.thm .THERM_STATUS_STATE) h = 1 then .next (settleTimeout s h) else .next s

/-- Step 6 has ended when the loop has left PRIME in another way. -/
def settleOver (s : State) : State :=
  match s.holder with
  | none => s
  | some h => if stageIs s 6 ∧ s.rd (.thm .THERM_STATUS_STATE) h ≠ 1 then stageDone s 6 else s

/-! ### Stage E (R111 to R113) -/

/-- STARTUP_DIE_TRAIN (E1): the usable dies powered, once the loop runs; `failed` the dies that fail. An exit from Lowland mode runs it
again (R125). -/
def execStartupDieTrain (failed : Nat) (s : State) : Res :=
  if s.rd (.boot .EXIT_RUNNING) .h0 = 2 then .next ((trainDies s failed).wr (.boot .EXIT_RUNNING) .h0 3)
  else
    let s1 := settleOver s
    if stageIs s1 7 then .next (stageDone (if loopInRun s1 && !lowNow s1 then trainDies s1 failed else s1) 7) else .next s

/-- E2 of a stack: trained, or unusable for this start-up with its half's dies switched off (Table 3.5). In Lowland mode E2 is skipped and
the stack stays as the fuses say. -/
def trainStack (s : State) (k : Half) (fails : Bool) : State :=
  if stackFuse s k = false then s
  else if fails && !lowNow s then
    diesOff (bootFail ((s.wr (.boot .BOOT_STATUS_HBM_FAIL) k 1).wr (.boot .HBM_OK) k 0) k ST_HBM_TRAIN) k
  else s.wr (.boot .HBM_OK) k 1

/-- STARTUP_HBM_TRAIN (E2): bit k of `failed` tells that stack k fails. -/
def execStartupHbmTrain (failed : Fin 4) (s : State) : Res :=
  if stageIs s 8 then .next (stageDone (trainStack (trainStack s .h0 (failed.val.testBit 0)) .h1 (failed.val.testBit 1)) 8)
  else .next s

/-- The Pass has failed E3 on a half: a down declaration (Table 3.5). -/
def passFailed (s : State) (h : Half) : State :=
  if hubOk s h then passDeclare (bootFail (s.wr (.boot .BOOT_STATUS_PASS_FAIL) h 1) h ST_PASS_TRAIN) h 1 else s

/-- STARTUP_PASS_TRAIN (E3): `ok` when the lanes train, with the spares used in the direction from each half, at most 8 (R34). -/
def execStartupPassTrain (ok : Bool) (spares0 spares1 : Nat) (s : State) : Res :=
  if stageIs s 9 then
    let good := ok && decide (spares0 ≤ 8 ∧ spares1 ≤ 8) && hubOk s .h0 && hubOk s .h1
    .next (stageDone (if good then passTrained s 2 spares0 spares1 else passFailed (passFailed s .h0) .h1) 9)
  else .next s

/-- E4 on a half whose hub runs firmware: configuration requests complete, and a Device Readiness Status message is sent on a link that is
up (R113). -/
def pcieReady (s : State) (h : Half) : State :=
  if hubOk s h && s.rd (.boot .FW_RUNNING) h == 1 then
    let s1 := (s.wr (.boot .MGMT_READY) h 1).wr (.host .LINK_STATUS_RRS) h 0
    if s.rd (.host .LINK_STATUS_LINK_UP) h = 1 then s1.emit (.readiness h) else s1
  else s

/-- ARB raised to the SVN that both hubs run (R499). -/
def raiseArb (s : State) : State :=
  let svn := s.rd (.sec .ARB_STATUS_SVN) .h0
  if s.rd (.sec .SEC_CFG_ARB_AUTO) s.chipHalf = 1 ∧ mayHold s .h0 = true ∧ mayHold s .h1 = true ∧
      svn = s.rd (.sec .ARB_STATUS_SVN) .h1 ∧ s.rd (.sec .ARB_STATUS_ARB) .h0 < svn then
    (s.wr (.sec .ARB_STATUS_ARB) .h0 (min svn 64)).wr (.sec .ARB_STATUS_ARB) .h1 (min svn 64)
  else s

/-- The GAP of deltas that a split left behind, written at the next BOOT (R555, REASON 3). -/
def lostDeltas (s : State) (h : Half) : State :=
  if s.rd (.tel .LDG_DELTA_LOST) .h0 = 1 then ldgGap (s.wr (.tel .LDG_DELTA_LOST) .h0 0) h 0 0 3 else s

/-- STARTUP_PCIE_READY (E4): management-ready, with its BOOT record (R113, R117, R553). -/
def execStartupPcieReady (s : State) : Res :=
  if stageIs s 10 then
    let s1 := pcieReady (pcieReady s .h0) .h1
    let w := s1.chipHalf
    let s2 := stageDone (s1.wr (.boot .BOOT_TIME_MGMT) .h0 (s1.mt w / 1000)) 10
    .next (lostDeltas (bootRecord (raiseArb (serviceUpdate s2)) w) w)
  else .next s

/-! ### Stages F and G, and step 13 (R114 to R118) -/

/-- STARTUP_CORE_TEST (R114): `failing` the cores whose test fails. An exit from Lowland mode runs it without zeroing HBM (R125), an
automatic one too (DESIGN CHOICE, log entry 93). -/
def execStartupCoreTest (failing : List Nat) (s : State) : Res :=
  if s.rd (.boot .EXIT_RUNNING) .h0 = 3 then .next (finishExit (stageF s failing false))
  else if stageIs s 11 then .next (stageDone (if lowNow s then s else stageF s failing true) 11)
  else .next s

/-- Every powered die at a plateau level. -/
def arrLevel (s : State) (lvl : Nat) : State :=
  let h := s.chipHalf
  (((s.wr (.thm .ARR_LEVEL) .h0 lvl).wr (.thm .ARR_LEVEL) .h1 lvl).wr (.thm .PLAT_STATUS_CUR) h lvl).wr (.thm .PLAT_STATUS_TARGET) h lvl

/-- STARTUP_PLATEAU_ENABLE (R115): the second PLLs have locked at the PLAT_INIT level. -/
def execStartupPlateauEnable (s : State) : Res :=
  if stageIs s 12 then
    let go := loopInRun s && !lowNow s && (List.range 8).any (powered s)
    .next (stageDone (if go then arrLevel s (s.rd (.boot .STRAP_STATUS_PLAT_INIT) s.chipHalf) else s) 12)
  else .next s

/-- A second PLL has not locked 200 µs after stage G began: no die switches. -/
def pllTimeout (s : State) : State :=
  stageDone (if loopInRun s && !lowNow s then platStatus s s.chipHalf ST_PLL_LOCK else s) 12

/-- PLATEAU_ENABLE_PLL_TIMEOUT (R115). -/
def execPlateauEnablePllTimeout (s : State) : Res := if stageIs s 12 then .next (pllTimeout s) else .next s

/-- A start-up without compute service is explained by a latched THERM or SECURITY cause, or by the fuses alone (R118). -/
def failExplained (s : State) : Bool :=
  let c := setBits (s.rd (.boot .LOWLAND_STATUS_CAUSE) .h0) (s.rd (.boot .LOW_PEND) .h0)
  c.testBit 0 || c.testBit 3 || (fuseBars s .h0 && fuseBars s .h1)

/-- The start-up judged (R118): compute service clears START_FAIL_RUN and leaves the cause NO_COMPUTE; a second failure in a row is the
cause RESET. -/
def judge (s : State) (comp : Bool) : State :=
  if comp then
    let s1 := leaveCauses (s.wr (.boot .LOWLAND_STATUS_START_FAIL_RUN) .h0 0) 2
    if s1.rd (.boot .LOW_LEFT) .h0 = 0 then s1 else lowlandOut s1
  else if failExplained s then s
  else
    let n := min 3 (s.rd (.boot .LOWLAND_STATUS_START_FAIL_RUN) .h0 + 1)
    let s1 := s.wr (.boot .LOWLAND_STATUS_START_FAIL_RUN) .h0 n
    if 2 ≤ n then lowlandCause s1 4 else s1

/-- Step 13: compute-ready, or the end of a start-up without it. -/
def computeReady (s : State) : State :=
  let s1 := serviceUpdate ((stageDone s 13).wr (.boot .COMPUTE_READY_DONE) .h0 1)
  let comp := s1.rd (.pkg .PKG_SERVICE_COMP_H0) .h0 == 1 || s1.rd (.pkg .PKG_SERVICE_COMP_H1) .h0 == 1
  let w := s1.chipHalf
  let s2 := if comp then s1.wr (.boot .BOOT_TIME_COMP) .h0 (s1.mt w / 1000) else s1
  let s3 := judge s2 comp
  let s4 := raiseCause (raiseCause s3 0 .h0 1) 0 .h1 1
  ledger s4 w 2 (regBytes s4 w 0x1008 4 ++ leBytes 4 (s4.rd (.boot .BOOT_TIME_COMP) .h0))

/-- COMPUTE_READY (R117, R118, R589). -/
def execComputeReady (s : State) : Res := if stageIs s 13 then .next (computeReady s) else .next s

/-! ### A stage beyond its bound (§3.8 "At the edges") -/

/-- The hubs that have not done their part of step 2, 3 or 4 fail for this start-up. -/
def failHubs (s : State) (n : Nat) : State :=
  let one (t : State) (h : Half) : State :=
    if hubPassed t h n then t
    else if n = 4 then failHub t h
    else (if n = 3 then bootFail t h ST_BOOT_AUTH else t).wr (.boot .BOOT_STATUS_IMAGE) h 3
  stageDone (one (one s .h0) .h1) n

/-- The stage that runs ends as failed for what it has not finished. -/
def endStage (s : State) : State :=
  match stageMax s + 1 with
  | 2 => failHubs s 2
  | 3 => failHubs s 3
  | 4 => failHubs s 4
  | 5 => settleNobody (s.wr (.flt .ARB_PENDING) .h1 0)
  | 6 => match s.holder with
    | some h => if s.rd (.thm .THERM_STATUS_STATE) h = 1 then settleTimeout s h else stageDone s 6
    | none => stageDone s 6
  | 7 => stageDone (if loopInRun s && !lowNow s then trainDies s 255 else s) 7
  | 8 => stageDone (trainStack (trainStack s .h0 true) .h1 true) 8
  | 9 => stageDone (passFailed (passFailed s .h0) .h1) 9
  | 10 => stageDone s 10
  | 11 => stageDone (if lowNow s then s else stageF s (List.range 512) true) 11
  | 12 => pllTimeout s
  | 13 => computeReady s
  | _ => s

/-- STAGE_BOUND_EXCEEDED (R117, §3.8). -/
def execStageBoundExceeded (s : State) : Res :=
  if s.rd (.boot .PWR_GOOD_PIN) .h0 = 1 then .next (endStage s) else .next s

end Sys2Proof.Machine
end

