-- ==== Sys2Proof/Machine/McPair.lean ====
section
/-!
DEFINITION. Machine/McPair.lean: the MC pair (R536 to R542): heartbeats, generations, takeover, and the restart of an MC.
-/

namespace Sys2Proof.Machine

/-- A half's MC runs: its hub is usable, its firmware runs, and it is not restarting. -/
def mcRuns (s : State) (h : Half) : Bool :=
  hubOk s h && s.rd (.boot .FW_RUNNING) h == 1 && s.rd (.flt .MC_STATUS_SELF) h != 3

/-! ### Heartbeats (R536) -/

/-- MC_HEARTBEAT_SEND (R536): the generator advances, and a heartbeat leaves on the live paths. -/
def execMcHeartbeatSend (h : Half) (s : State) : Res :=
  if mcRuns s h then
    let s1 := s.wr (.flt .MC_HB_GEN_MT) h (s.mt h)
    let msg := HalfMsg.heartbeat (s.rd (.flt .MC_STATUS_SELF) h) (s.rd (.flt .MC_GEN) h) (s.rd (.thm .THERM_STATUS_STATE) h)
    .next (if s.peerReachable h then s1.emit (.interHalf h msg) else s1)
  else .next s

/-- MC_HEARTBEAT_RECEIVE (R536, R542): the peer's role, generation and loop state; heartbeats that resume end a takeover that has not been
honoured. -/
def execMcHeartbeatReceive (h : Half) (s : State) : Res :=
  if mcRuns s h ∧ mcRuns s h.other ∧ s.peerReachable h then
    let role := s.rd (.flt .MC_STATUS_SELF) h.other
    let s1 := ((s.wr (.flt .MC_HB_LAST) h (s.mt h)).wr (.flt .MC_PEER_ROLE) h role).wr (.flt .MC_STATUS_PEER) h role
    let s2 := (s1.wr (.flt .MC_PEER_GEN) h (s.rd (.flt .MC_GEN) h.other)).wr (.flt .MC_PEER_LOOP) h
      (s.rd (.thm .THERM_STATUS_STATE) h.other)
    .next (serviceUpdate ((s2.wr (.flt .MC_TAKING_OVER) h 0).wr (.flt .REVOKE_SENT) h 0))
  else .next s

/-! ### Generations (R539) -/

/-- GEN_SNAPSHOT (R539): a copy not committed is abandoned; the next is copied to the standby, with the commit record, and the standby's
ledger deltas are accepted (R554). -/
def execGenSnapshot (s : State) : Res :=
  match s.holder with
  | none => .next s
  | some w =>
    if mcRuns s w = false then .next s
    else
      let s1 := if s.rd (.flt .GEN_COPYING) w = 1 then
          raiseCause ({ s with genCopy := s.genCopy.filter fun p => p.1 != w.other }.wr (.flt .GEN_COPYING) w 0) 13 w 1
        else s
      if s.peerReachable w ∧ mcRuns s w.other then
        let g := s.mt w / 5000000 % 2 ^ 32
        let s2 := takeDeltas s1 w
        let s3 : State := { s2 with genCopy := (w.other, snapGeneration s2 w g) :: s2.genCopy }
        .next (((s3.wr (.flt .GEN_COPYING) w 1).wr (.flt .GEN_COPY_NO) w g).emit (.interHalf w (.genCommit (snapGeneration s2 w g).record)))
      else .next s1

/-- Both CRCs of a commit record match: that of its first 12 bytes, and that of the buffer's bytes, of the length it gives (R539). -/
def recordMatches (b : List Byte) (g : Generation) : Bool :=
  fieldAt b 12 4 == crc32c (b.take 12) && fieldAt b 4 4 == g.bytes.length && fieldAt b 8 4 == crc32c g.bytes

/-- GEN_COMMIT_RECEIVE (R539): the commit record as it arrives; the copy is committed when both CRCs match and its number exceeds MC_GEN. -/
def execGenCommitReceive (h : Half) (rec_ : List Byte) (s : State) : Res :=
  match s.genCopy.find? fun p => p.1 == h with
  | none => .next s
  | some p =>
    if recordMatches rec_ p.2 = true ∧ s.rd (.flt .MC_GEN) h < fieldAt rec_ 0 4 ∧ mcRuns s h = true then
      .next ((commitGen s h { p.2 with num := fieldAt rec_ 0 4 }).wr (.flt .GEN_COPYING) h.other 0)
    else .next s

/-! ### The restart of an MC (R542) -/

/-- An MC that has FAILED: its half loses management service, and compute service with it. -/
def mcFailed (s : State) (h : Half) : State :=
  let s1 := s.wr (.boot .FW_RUNNING) h 0
  serviceUpdate (if s.peerReachable h then s1.wr (.flt .MC_STATUS_PEER) h.other 4 else s1)

/-- Restarts of a half's MC within the last 60 s, with this one: MC_RESTART_AT holds MT of the last, MC_RESTART_T0 of the one before it. -/
def restartsNow (s : State) (h : Half) : Nat :=
  let n := s.rd (.flt .MC_RESTART_COUNT) h
  if n = 0 ∨ s.rd (.flt .MC_RESTART_AT) h + 60000000000 ≤ s.mt h then 1
  else if n = 1 ∨ s.rd (.flt .MC_RESTART_T0) h + 60000000000 ≤ s.mt h then 2
  else 3

/-- A hub restarts its MC, with a reason of Table 19.7; the third restart within 60 s is its failure. -/
def mcRestart (s : State) (h : Half) (reason : Nat) : State :=
  let n := restartsNow s h
  let s1 := s.wr (.flt .MC_RESTART_T0) h (s.rd (.flt .MC_RESTART_AT) h)
  let s2 := ((s1.wr (.flt .MC_RESTART_COUNT) h n).wr (.flt .MC_RESTART_AT) h (s.mt h)).wr (.flt .MC_STATUS_SELF) h 3
  let s3 := if s.peerReachable h ∧ s.rd (.flt .MC_STATUS_PEER) h.other ≠ 4 then s2.wr (.flt .MC_STATUS_PEER) h.other 3 else s2
  let s4 := faultRecord s3 h pf (plainFault (s.mt h) ST_MC_RESTART 0x51 0 0xFF (reason + 16 * n)) none
  if 3 ≤ n then mcFailed s4 h else s4

/-- MC_WATCHDOG_EXPIRE (R512, R542). -/
def execMcWatchdogExpire (h : Half) (s : State) : Res :=
  if mcRuns s h then .next (mcRestart s h 0) else .next s

/-- The image that a hub selected at start-up still passes (R497, R542). -/
def selectedValid (s : State) (h : Half) : Bool :=
  let i := if s.rd (.boot .BOOT_STATUS_IMAGE) h = 1 then s.imageA else s.imageB
  match i with
  | some x => imageValid s h x
  | none => false

/-- The MC is back: ACTIVE where its hub has kept the role latch, else STANDBY; the keys are reconciled and a full generation is copied;
with both MCs down before, the chip has the Lowland cause NO_COMPUTE (R542). -/
def mcBack (s : State) (h : Half) : State :=
  let role := if s.holds h then 1 else 2
  let s1 := s.wr (.flt .MC_STATUS_SELF) h role
  let s2 := if s.holds h ∧ s.rd (.thm .THERM_STATUS_STATE) h = 2 then bumpless s1 h else s1
  let s3 := if s.peerReachable h ∧ mcRuns s h.other then fullGeneration (reconcile (s2.wr (.flt .MC_STATUS_PEER) h.other role)) else s2
  if s.rd (.flt .DISPATCH_STOPPED) .h0 = 1 ∨ s.rd (.flt .DISPATCH_STOPPED) .h1 = 1 then
    lowlandCause ((s3.wr (.flt .DISPATCH_STOPPED) .h0 0).wr (.flt .DISPATCH_STOPPED) .h1 0) 2
  else s3

/-- MC_RESTART_DONE (R542). -/
def execMcRestartDone (h : Half) (s : State) : Res :=
  if s.rd (.flt .MC_STATUS_SELF) h = 3 ∧ s.rd (.boot .FW_RUNNING) h = 1 ∧ selectedValid s h = true then .next (serviceUpdate (mcBack s h))
  else .next s

/-- MC_RESTART_TIMEOUT (R542): the MC is not STANDBY within 1 s. -/
def execMcRestartTimeout (h : Half) (s : State) : Res :=
  if s.rd (.flt .MC_STATUS_SELF) h = 3 ∧ s.rd (.boot .FW_RUNNING) h = 1 ∧ s.rd (.flt .MC_RESTART_AT) h + 1000000000 ≤ s.mt h then
    .next (mcFailed s h)
  else .next s

/-- BOTH_MC_FAIL_FORCE (§16.8 "At the edges"): 10 ms after the last loop period, the role holder's hub forces both duties to 100 % and
stops dispatch on both halves. -/
def execBothMcFailForce (s : State) : Res :=
  match s.holder with
  | none => .next s
  | some h =>
    if mcRuns s .h0 ∨ mcRuns s .h1 then .next s
    else .next (((loopDuties s h 25600 25600).wr (.flt .DISPATCH_STOPPED) .h0 1).wr (.flt .DISPATCH_STOPPED) .h1 1)

/-! ### The takeover (R536, R537, R540) -/

/-- PEER_FAIL_TIMEOUT (R536, R540): no heartbeat for 250 µs with a path alive all that time; a standby whose peer holds the roles begins
its takeover with a
REVOKE. -/
def execPeerFailTimeout (h : Half) (s : State) : Res :=
  if mcRuns s h ∧ s.peerReachable h ∧ s.rd (.flt .MC_STATUS_PEER) h ≠ 4 ∧
      max (s.rd (.flt .MC_HB_LAST) h) (s.rd (.flt .MC_PATH_MT) h) + 250000 ≤ s.mt h then
    let s1 := raiseCause (s.wr (.flt .MC_STATUS_PEER) h 4) 13 h 4
    if s.holds h.other then
      .next (((s1.wr (.flt .MC_TAKING_OVER) h 1).wr (.flt .REVOKE_SENT) h 1).emit (.interHalf h .revoke))
    else .next s1
  else .next s

/-- REVOKE_RETRY (R542): the REVOKE is sent again while it has not been honoured. -/
def execRevokeRetry (h : Half) (s : State) : Res :=
  if s.rd (.flt .MC_TAKING_OVER) h = 1 then .next (s.emit (.interHalf h .revoke)) else .next s

/-- The record and the event of a takeover on a half. -/
def takeoverRec (s : State) (h : Half) (gen gapUs : Nat) : FaultRec :=
  plainFault (s.mt h) ST_MC_TAKEOVER 0x50 0 0xFF (gen + 2 ^ 32 * min (2 ^ 32 - 1) gapUs)

/-- The standby takes over with its last committed generation (R540, R541): the GAP, then its records, the loop and the comparators. -/
def takeover (s : State) (h : Half) : State :=
  let g := s.gen h
  let from_ := (g.map Generation.snapMt).getD 0
  let num := (g.map Generation.num).getD 0
  let mt := s.mt h
  let s1 := ldgGap (setLatch (passLedger s h g false) h) h from_ mt 0
  let s2 := resumeFrom (takeOwn s1 h) h g
  let r := takeoverRec s h num ((mt - from_) / 1000)
  let s3 := faultLog (faultRecord s2 h pf r none) h.other pf r none
  let s4 := ((s3.wr (.flt .MC_TAKEOVER_TIME) h mt).wr (.flt .MC_TAKING_OVER) h 0).wr (.flt .REVOKE_SENT) h 0
  serviceUpdate (raiseCause (s4.wr (.sec .SEC_STATUS_SOLO) h 1) 13 h 8)

/-- REVOKE_RECEIVE (R537, R540, R542): a hub honours the peer's REVOKE when its own MC's heartbeat generator has not advanced for 200 µs:
its latch clears, its outputs are released, the clearing is acknowledged, its MC restarts, and the peer takes over. -/
def execRevokeReceive (h : Half) (s : State) : Res :=
  if s.rd (.flt .MC_TAKING_OVER) h.other = 1 ∧ s.holds h ∧ s.rd (.flt .MC_HB_GEN_MT) h + 200000 ≤ s.mt h then
    let s1 := (loseRoles s h).emit (.interHalf h .latchCleared)
    .next (takeover (mcRestart s1 h 1) h.other)
  else .next s

end Sys2Proof.Machine
end

