-- ==== Sys2Proof/Machine/Power.lean ====
section
/-!
DEFINITION. Machine/Power.lean: rails and module power (R54, R570 to R573, R584), interrupt routes (R588), and the fabric manager's port
events (R377).
-/

namespace Sys2Proof.Machine

/-- The bit of a rail in PWR_STATUS.RAILS (Table 18.14): [7] VSER is bit 6 of the field. -/
def railBit : Rail → Nat
  | .vaon => 1 | .vhbmVpp => 2 | .vhbmVdd => 3 | .vhbmVddq => 4 | .vhub => 5 | .vser => 6 | .varr _ => 7

/-- Both security blocks detect a supply outside its limits (R509). -/
def railTamper (s : State) : State := tamper (tamper s .h0) .h1

/-- RAIL_EXCURSION (R571, Table 18.5): a rail has stayed outside ±5 %, or `beyond10` outside ±10 %, for more than 1 µs. -/
def execRailExcursion (rail : Rail) (beyond10 : Bool) (s : State) : Res :=
  if s.rd (.boot .PWR_GOOD_PIN) .h0 = 0 then .next s
  else match rail with
    | .varr die =>
      if powered s die.val = false ∨ (s.rd (.flt .FLT_LOST_DIE) .h0).testBit die.val = true then .next s
      else .next (loseDie (raisePwr s 1) die.val 0)
    | r =>
      let s1 := s.wr (.pwr .PWR_STATUS_RAILS) .h0 (clearBits (s.rd (.pwr .PWR_STATUS_RAILS) .h0) (2 ^ railBit r))
      if beyond10 = true ∧ (r = .vhub ∨ r = .vaon) then .next (serviceUpdate (railTamper s1))
      else .next (serviceUpdate (chipStep (raisePwr s1 2) s.chipHalf 6 ST_OK))

/-- DIE_PG_TIMEOUT (R570): DIE_PG of a die has not asserted 2 ms after DIE_PWR_EN, so the die fails E1. -/
def execDiePgTimeout (die : Fin 8) (s : State) : Res :=
  if stageIs s 7 = true ∨ s.rd (.boot .EXIT_RUNNING) .h0 = 2 then .next (trainDie s (2 ^ die.val) die.val) else .next s

/-- INPUT_POWER_OVER (R573). -/
def execInputPowerOver (s : State) : Res := .next (raisePwr s 4)

/-- PWR_INPUT_READ (R573, R584): the input monitor's 100 ms average in W, and its highest since the last read by any function; PEAK
is cleared for the reading function only. -/
def execPwrInputRead (h : Half) (avg high : Nat) (s : State) : Res :=
  let peak (i : Nat) : Nat := max (s.rd (.pwr .PWR_PEAK_FN) .h0 i) (max (avg % 65536) (high % 65536))
  let s1 := (s.wr (.pwr .PWR_INPUT_AVG) .h0 avg).wr (.pwr .PWR_INPUT_PEAK) .h0 (peak h.num)
  let s2 := (s1.wr (.pwr .PWR_PEAK_FN) .h0 (peak h.other.num) h.other.num).wr (.pwr .PWR_PEAK_FN) .h0 0 h.num
  .next (s2.emit (.readData h pf (avg % 65536 + 65536 * peak h.num)))

/-- The causes of register k that a half shows: THERM_EVENT reads zero without the roles, PWR_EVT is the package's (R589). -/
def causesOf (s : State) (h : Half) (k : Nat) : Nat :=
  let f := causeReg k
  if k = 2 ∧ s.holds h = false then 0 else s.rd f.1 (if k = 14 then .h0 else h) f.2

/-- IRQ_ROUTE_WRITE (R588): a write that leaves EN = 1 over a set, enabled bit sends one message. -/
def execIrqRouteWrite (h : Half) (k : Fin 15) (en : Bool) (vec : Fin 64) (mask : Nat) (s : State) : Res :=
  let s1 := ((s.wr (.irq .IRQ_ROUTE_EN) h (bit en) k.val).wr (.irq .IRQ_ROUTE_VEC) h vec.val k.val).wr (.irq .IRQ_ROUTE_MASK) h mask k.val
  .next (routeMessage s1 h k.val (causesOf s1 h k.val))

/-- AUX_SUPPLY_CHANGE (R54): 3V3_AUX enters or leaves regulation. -/
def execAuxSupplyChange (good : Bool) (s : State) : Res :=
  let r := s.rd (.pwr .PWR_STATUS_RAILS) .h0
  .next (serviceUpdate (s.wr (.pwr .PWR_STATUS_RAILS) .h0 (if good then setBits r 1 else clearBits r 1)))

/-- PORT_EVENT_RECEIVE (R377): the sending node's event, posted on the operator's event ring. -/
def execPortEventReceive (h : Half) (s : State) : Res :=
  match s.localPkts.find? fun a => a.1 == h && a.2.ptype == 0x13 with
  | none => .next s
  | some a =>
    let p := a.2
    let s1 : State := { s with localPkts := s.localPkts.eraseP fun b => b.1 == h && b.2.ptype == 0x13 }
    let f (off : Nat) : Nat := fieldAt p.transport off 1 % 16
    .next (postEvent s1 h pf ST_PORT_STATE (fieldAt p.transport 8 8) (p.src * 65536 + f 0 * 4096 + f 1 * 256 + f 2 * 16))

end Sys2Proof.Machine
end

