-- ==== Sys2Proof/Machine/Mgmt.lean ====
section
/-!
DEFINITION. Machine/Mgmt.lean: snapshots of counter groups (R141, R545 to R548), the histograms' configuration (R551), and the management
bus: the stuck bus (R562), MCTP control and PLDM (R563, R564), the tray's vendor messages (R565), and firmware update (R499).
-/

namespace Sys2Proof.Machine

/-! ### Counter groups (R545 to R547) -/

/-- The counter groups of Table 17.2. -/
def isGroup (g : Nat) : Bool := decide (g < 5 ∨ (16 ≤ g ∧ g < 97))

/-- A live slot as it reads: group 4 counts only on the role holder's half (R546). -/
def liveSlot (s : State) (h : Half) (g slot : Nat) : Nat :=
  if g = 4 ∧ s.holds h = false then 0 else s.rd (.tel .LIVE_SLOT) h (g * 32 + slot)

/-- The group has been copied in this cycle: at this MT. -/
def snapped (s : State) (h : Half) (g : Nat) : Bool := s.rd (.tel .SNAP_SEQ) h g != 0 && s.rd (.tel .SNAP_MT) h g == s.mt h

/-- A SNAP of a group (R141, R547): every counter copied, SNAP_SEQ raised, SNAP_MT recorded; once in a cycle. -/
def snapGroup (s : State) (h : Half) (g : Nat) : State :=
  if isGroup g && !(snapped s h g) then
    let k := g - 16
    let s1 :=
      if 16 ≤ g ∧ g < 32 then
        let t := (List.range 32).foldl (fun t i =>
          t.wr (.tel .HIST_SNAP_BIN) h (s.rd (.tel .HIST_BIN) h (k * 32 + i)) (k * 32 + i)) s
        ((t.wr (.tel .HIST_SNAP_COUNT) h (s.rd (.tel .HIST_COUNT) h k) k).wr (.tel .HIST_SNAP_SUM) h (s.rd (.tel .HIST_SUM) h k) k).wr
          (.tel .HIST_SNAP_MAX) h (s.rd (.tel .HIST_MAX) h k) k
      else (List.range 16).foldl (fun t i => t.wr (.tel .SNAP_SLOT) h (liveSlot s h g i) (g * 32 + i)) s
    (s1.wr (.tel .SNAP_SEQ) h (s.rd (.tel .SNAP_SEQ) h g + 1) g).wr (.tel .SNAP_MT) h (s.mt h) g
  else s

/-- TEL_SNAP_WRITE (R547): the named groups among 0 to 31, copied in the same cycle. -/
def execTelSnapWrite (h : Half) (mask : Nat) (s : State) : Res :=
  .next ((List.range 32).foldl (fun t g => if mask.testBit g then snapGroup t h g else t) s)

/-! ### HIST_CFG (R551) -/

/-- The bins, COUNT, SUM, MAX and SUM_SAT of a histogram cleared. -/
def histClear (s : State) (h : Half) (k : Nat) : State :=
  let s1 := (List.range 32).foldl (fun t i => t.wr (.tel .HIST_BIN) h 0 (k * 32 + i)) s
  (((s1.wr (.tel .HIST_COUNT) h 0 k).wr (.tel .HIST_SUM) h 0 k).wr (.tel .HIST_MAX) h 0 k).wr (.tel .HIST_CFG_SUM_SAT) h 0 k

/-- HIST_CFG_WRITE (R551): only while EN is 0, but for a write that clears EN and changes nothing else (DEDUCED, log entry 45). -/
def execHistCfgWrite (h : Half) (k : Fin 16) (v : Nat) (s : State) : Res :=
  let rd (f : TelF) : Nat := s.rd (.tel f) h k.val
  let clears := v.testBit 31 = false ∧ rd .HIST_CFG_MODE = bitsAt v 30 1 ∧ rd .HIST_CFG_U = bitsAt v 24 5 ∧
    rd .HIST_CFG_SRC = bitsAt v 20 4 ∧ rd .HIST_CFG_PV = bitsAt v 19 1 ∧ rd .HIST_CFG_PART = bitsAt v 12 7
  if (rd .HIST_CFG_EN = 1 ∧ ¬clears) ∨ (bitsAt v 19 1 = 1 ∧ 64 < bitsAt v 12 7) then .next (telStatus s h ST_TEL_CONFIG)
  else
    let s1 := (s.wr (.tel .HIST_CFG_MODE) h (bitsAt v 30 1) k.val).wr (.tel .HIST_CFG_U) h (bitsAt v 24 5) k.val
    let s2 := ((s1.wr (.tel .HIST_CFG_SRC) h (bitsAt v 20 4) k.val).wr (.tel .HIST_CFG_PV) h (bitsAt v 19 1) k.val).wr
      (.tel .HIST_CFG_PART) h (bitsAt v 12 7) k.val
    let s3 := s2.wr (.tel .HIST_CFG_EN) h (bitsAt v 31 1) k.val
    .next (telStatus (if v.testBit 31 then histClear s3 h k.val else s3) h ST_OK)

/-! ### The stuck bus (R562) -/

/-- TEL_SMB of a half. -/
def smbBits (s : State) (h : Half) (clk dat : Bool) : State :=
  (s.wr (.tel .TEL_SMB_STUCK_CLK) h (bit clk)).wr (.tel .TEL_SMB_STUCK_DAT) h (bit dat)

/-- SMBUS_STUCK (R562): SCL (`clk`) or SDA (`dat`) has been held low for 35 ms. -/
def execSmbusStuck (h : Half) (clk dat : Bool) (s : State) : Res :=
  if (clk || dat) = false ∨ busStuck s h = true then .next s
  else .next (ledger (smbBits s h clk dat) h 5 (plainFault (s.mt h) ST_SMB_STUCK 0 0 0xFF 0).ledgerData)

/-- SMBUS_STUCK_RETRY (R562): the lines that are still held low 10 ms later. -/
def execSmbusStuckRetry (h : Half) (clk dat : Bool) (s : State) : Res :=
  .next (if busStuck s h then smbBits s h clk dat else s)

/-! ### MCTP control (R563) -/

/-- SMB_ADDR as the hub sampled it (R97). -/
def smbAddr (s : State) (h : Half) : Nat := s.rd (.boot .STRAP_STATUS_SMB_ADDR) h

/-- The half that answers at a 7-bit address of the aux SMBus (R561, R562): at 0x30 + SMB_ADDR the role holder, while its MC runs; at 0x40 +
SMB_ADDR hub 0 and at 0x48 + SMB_ADDR hub 1 in ROM recovery, for firmware updates. No hub answers while its bus is stuck. -/
def answersAt (s : State) (addr : Nat) : Option Half :=
  let recovers (h : Half) : Bool :=
    s.rd (.boot .BOOT_STATUS_IMAGE) h == 3 && hubOk s h && !busStuck s h && addr == 0x40 + 8 * h.num + smbAddr s h
  match s.holder.filter fun h => mcRuns s h && !busStuck s h && addr == 0x30 + smbAddr s h with
  | some h => some h
  | none => if recovers .h0 then some .h0 else if recovers .h1 then some .h1 else none

/-- The MCTP target: who answers at the chip's own address, 0x30 + SMB_ADDR of the role holder. Every command of the tray controller but the
firmware update stands for transactions to that address with the PEC right (log entry 91). -/
def mctpTarget (s : State) : Option Half := s.holder.bind fun h => answersAt s (0x30 + smbAddr s h)

/-- A request of the tray controller, answered by the MCTP target; with no target, no answer. -/
def mctpRun (s : State) (f : Half → State) : Res :=
  match mctpTarget s with
  | some h => .next (f h)
  | none => .next s

/-- An MCTP message sent: its type, and its bytes. -/
def mctpSend (s : State) (h : Half) (type : Nat) (b : List Byte) : State := mctpOut s h (leBytes 1 type ++ b)

/-- An MCTP control response: command and completion code, and its data. -/
def controlRsp (s : State) (h : Half) (cmd code : Nat) (b : List Byte) : State := mctpSend s h 0 (leBytes 1 cmd ++ leBytes 1 code ++ b)

/-- MCTP_SET_ENDPOINT_ID (R563): operations 0 and 1 assign an endpoint ID; 0 and 255 are none. -/
def execMctpSetEndpointId (op : Fin 4) (eid : Fin 256) (s : State) : Res :=
  mctpRun s fun h =>
    if op.val < 2 ∧ eid.val ≠ 0 ∧ eid.val ≠ 255 then
      controlRsp (s.wr (.tel .MCTP_EID) .h0 eid.val) h 1 0 (leBytes 1 0 ++ leBytes 1 eid.val ++ leBytes 1 0)
    else controlRsp s h 1 2 []

/-- MCTP_GET_ENDPOINT_ID (R563). -/
def execMctpGetEndpointId (s : State) : Res :=
  mctpRun s fun h => controlRsp s h 2 0 (leBytes 1 (s.rd (.tel .MCTP_EID) .h0) ++ zeros 2)

/-- MCTP_GET_ENDPOINT_UUID (R563). -/
def execMctpGetEndpointUuid (s : State) : Res := mctpRun s fun h => controlRsp s h 3 0 (leBytes 16 Config.endpointUuid)

/-- The message types of Table 17.9. -/
def mctpTypes : List Nat := [0x00, 0x01, 0x05, 0x7E]

/-- MCTP_GET_VERSION_SUPPORT (R563). -/
def execMctpGetVersionSupport (type : Fin 256) (s : State) : Res :=
  mctpRun s fun h =>
    if mctpTypes.contains type.val then controlRsp s h 4 0 (leBytes 1 1 ++ leBytes 4 (Config.mctpVersion type.val))
    else controlRsp s h 4 0x80 []

/-- MCTP_GET_MSG_TYPE_SUPPORT (R563): the types beside MCTP control. -/
def execMctpGetMsgTypeSupport (s : State) : Res := mctpRun s fun h => controlRsp s h 5 0 ([3, 0x01, 0x05, 0x7E] : List Byte)

/-! ### PLDM (R563, R564) -/

/-- A PLDM response: type, command and completion code, and its data. -/
def pldmRsp (s : State) (h : Half) (type cmd code : Nat) (b : List Byte) : State :=
  mctpSend s h 1 (leBytes 1 type ++ leBytes 1 cmd ++ leBytes 1 code ++ b)

/-- The PLDM types of Table 17.9: 0, 2 and 5. -/
def pldmType (t : Nat) : Bool := t == 0 || t == 2 || t == 5

/-- PLDM_BASE (R563): 1 SetTID, 2 GetTID, 3 GetPLDMVersion, 4 GetPLDMTypes, 5 GetPLDMCommands; `arg` is the TID or the PLDM type. -/
def execPldmBase (cmd arg : Fin 256) (s : State) : Res :=
  mctpRun s fun h =>
    if cmd.val = 1 then
      if arg.val = 0 ∨ arg.val = 255 then pldmRsp s h 0 1 2 [] else pldmRsp (s.wr (.tel .PLDM_TID) .h0 arg.val) h 0 1 0 []
    else if cmd.val = 2 then pldmRsp s h 0 2 0 (leBytes 1 (s.rd (.tel .PLDM_TID) .h0))
    else if cmd.val = 4 then pldmRsp s h 0 4 0 (leBytes 8 0x25)
    else if cmd.val = 3 ∨ cmd.val = 5 then
      if pldmType arg.val = false then pldmRsp s h 0 cmd.val 0x83 []
      else if cmd.val = 3 then pldmRsp s h 0 3 0 (leBytes 4 (Config.pldmVersion arg.val))
      else pldmRsp s h 0 5 0 (leBytes 32 (Config.pldmCommands arg.val))
    else pldmRsp s h 0 cmd.val 5 []

/-- PLDM_GET_PDR (R564): the description of a sensor; handle 0 asks for the first. -/
def execPldmGetPdr (handle : Nat) (s : State) : Res :=
  mctpRun s fun h =>
    let n := max 1 handle
    if 19 < n then pldmRsp s h 2 0x51 0x82 []
    else pldmRsp s h 2 0x51 0 (leBytes 4 (if n = 19 then 0 else n + 1) ++ toBytes (Config.sensorPdr n))

/-- Flow pulses per second from FB2: none while it is STOPPED, else from its PERIOD in 4 ns counts. -/
def flowRate (s : State) (h : Half) : Nat :=
  let period := s.rd (.thm .FB_PERIOD_PERIOD) h 2
  if s.rd (.thm .FB_STATUS_STOPPED) h 2 = 1 ∨ period = 0 then 0 else 250000000 / period

/-- The reading of a numeric sensor of Table 17.10: temperatures in Q8.8 °C; `tj` is what the sensors of the half give. -/
def sensorReading (s : State) (h : Half) (id tj : Nat) : Option Nat :=
  if id = 1 then some (s.rd (.thm .THERM_MEAS0_T_IN) h)
  else if id = 2 then some (s.rd (.thm .THERM_MEAS0_T_OUT) h)
  else if id = 3 ∨ id = 4 then some (tj % 65536)
  else if id = 5 then some (s.rd (.pwr .PWR_INPUT_AVG) .h0)
  else if id = 6 then some (Config.pumpRpm (s.rd (.thm .FB_PERIOD_PERIOD) h 0))
  else if id = 7 then some (flowRate s h)
  else if 12 ≤ id ∧ id ≤ 19 then some (s.rd (.tel .FUSE_CNT) .h0 (id - 12))
  else none

/-- A sensor belongs to the half without the roles, and no path reaches it. -/
def sensorAway (s : State) (h : Half) (id : Nat) : Bool :=
  (id == 3 && h == .h1 || id == 4 && h == .h0) && !(s.peerReachable h)

/-- PLDM_GET_SENSOR_READING (R564): operational state 0 enabled, 2 unavailable. -/
def execPldmGetSensorReading (id tj : Nat) (s : State) : Res :=
  mctpRun s fun h => match sensorReading s h id tj with
    | none => pldmRsp s h 2 0x11 0x80 []
    | some v => if sensorAway s h id then pldmRsp s h 2 0x11 0 (leBytes 1 2 ++ leBytes 4 0)
      else pldmRsp s h 2 0x11 0 (leBytes 1 0 ++ leBytes 4 v)

/-- The state of a state sensor of Table 17.10. -/
def stateReading (s : State) (h : Half) (id : Nat) : Option Nat :=
  if id = 8 then some (s.rd (.thm .PLAT_STATUS_CUR) h)
  else if id = 9 then some (leNat (regBytes s h 0x1008 4))
  else if id = 10 then some (s.rd (.boot .LOWLAND_STATUS_CAUSE) .h0)
  else if id = 11 then some (s.rd (.pkg .PASS_STATUS_STATE) h)
  else none

/-- PLDM_GET_STATE_SENSORS (R564). -/
def execPldmGetStateSensors (id : Nat) (s : State) : Res :=
  mctpRun s fun h => match stateReading s h id with
    | none => pldmRsp s h 2 0x21 0x80 []
    | some v => pldmRsp s h 2 0x21 0 (leBytes 1 0 ++ leBytes 4 v)

/-- An event has not been acknowledged for 100 ms since its record (R564). -/
def alertDue (s : State) (h : Half) : Bool := s.pldmUnacked.any fun r => decide (r.mt + 100000000 ≤ s.mt h)

/-- SMB_ALERT_TIMEOUT (R564): an event has not been acknowledged for 100 ms since its record. -/
def execSmbAlertTimeout (s : State) : Res :=
  match s.holder with
  | some h => .next (if alertDue s h then drivePin (s.wr (.tel .SMB_ALERT) .h0 1) h .smbAlert 1 else s)
  | none => .next s

/-- PLDM_EVENT_ACK (R564): the oldest event acknowledged, and SMB_ALERT# released unless another has waited for 100 ms. -/
def execPldmEventAck (s : State) : Res :=
  match s.pldmUnacked with
  | [] => .next s
  | _ :: rest =>
    let s1 : State := { s with pldmUnacked := rest }
    match s.holder with
    | some h => .next (if alertDue s1 h then s1 else drivePin (s1.wr (.tel .SMB_ALERT) .h0 0) h .smbAlert 0)
    | none => .next (s1.wr (.tel .SMB_ALERT) .h0 0)

/-! ### Firmware update (R499, R561, R563) -/

/-- An image slot that no hub runs: 1 for A, 2 for B; with neither running, either. -/
def inactiveSlot (s : State) : Option Nat :=
  let runs (n : Nat) : Bool := [Half.h0, Half.h1].any fun h => s.rd (.boot .FW_RUNNING) h == 1 && s.rd (.boot .BOOT_STATUS_IMAGE) h == n
  let free := [1, 2].filter fun n => !(runs n)
  free[Config.freeValue s.freeCount % free.length]?

/-- An image put into a slot, with its record where firmware runs. -/
def storeImage (s : State) (h : Half) (slot : Nat) (i : FlashImage) : State :=
  let s1 : State := if slot = 1 then { s with imageA := some i } else { s with imageB := some i }
  if s.rd (.boot .FW_RUNNING) h = 1 then ledger s1 h 9 (leBytes 1 slot ++ leBytes 4 i.version ++ leBytes 1 i.svn) else s1

/-- PLDM_FW_UPDATE (R499, R561, R563): component 0, the boot image, or 1, the module configuration record, sent to a 7-bit address, verified
under R497 and stored. -/
def execPldmFwUpdate (addr : Fin 128) (config : Bool) (image : FlashImage) (s : State) : Res :=
  match answersAt s addr.val with
  | none => .next s
  | some h =>
    if imageValid s h image = false then .next (pldmRsp s h 5 0 1 [])
    else if config then .next (pldmRsp { s with config := some image } h 5 0 0 [])
    else match inactiveSlot s with
      | some n => .next (pldmRsp (storeImage (drawFree s) h n image) h 5 0 0 [])
      | none => .next (pldmRsp s h 5 0 1 [])

/-! ### Vendor messages (R565) -/

/-- A Dvorien message sent. -/
def vendorSend (s : State) (h : Half) (b : List Byte) : State := mctpOut s h (vendorMsg b)

/-- READINESS_QUERY (R565): BOOT_STATUS.STEP, the ms expected to step E4, which are free until it is reached, and LINK_STATUS.RRS. -/
def execReadinessQuery (s : State) : Res :=
  mctpRun s fun h =>
    let ms := if s.rd (.boot .MGMT_READY) h = 1 then 0 else Config.freeValue s.freeCount
    vendorSend (drawFree s) h (leBytes 1 3 ++ leBytes 1 (s.rd (.boot .BOOT_STATUS_STEP) h) ++ leBytes 2 ms ++
      leBytes 1 (s.rd (.host .LINK_STATUS_RRS) h))

/-- MCTP_CHIP_RESET (R522, R565). -/
def execMctpChipReset (s : State) : Res := mctpRun s fun h => if stepBusy s h 4 then s else chipStep s h 1 ST_OK

/-- MCTP_TRAY_CYCLE (R522, R565). -/
def execMctpTrayCycle (s : State) : Res := mctpRun s fun h => if stepBusy s h 5 then s else trayStep s 1

/-- LEDGER_READ_MSG (R558, R565): the status, then the record; a SEQ outside [OLDEST, NEXT) is answered with ST_ID_RANGE in place of the
response fields (R587; DEDUCED against R558, log entry 75). -/
def execLedgerReadMsg (seq : Nat) (s : State) : Res :=
  mctpRun s fun h =>
    let r := ledgerRead s h seq
    if s.rd (.tel .LDG_OLDEST) .h0 ≤ seq ∧ seq < s.rd (.tel .LDG_NEXT) .h0 then vendorSend s h (leBytes 1 6 ++ leBytes 2 r.1 ++ r.2)
    else vendorSend s h (leBytes 1 6 ++ leBytes 2 ST_ID_RANGE)

/-- HISTORY_READ (R565): the holder's event history, newest first. -/
def execHistoryRead (s : State) : Res := mctpRun s fun h => vendorSend s h (leBytes 1 7 ++ s.history.reverse.flatMap (·.bytes))

end Sys2Proof.Machine
end

