-- ==== Sys2Proof/Machine/Parts.lean ====
section
/-!
DEFINITION. Machine/Parts.lean: partitions (R484 to R488), shared read ranges (R491), the import of egress keys (R495, R496), and the
anti-rollback fuses (R499).
-/

namespace Sys2Proof.Machine

/-! ### Ranges -/

/-- A range in 2 MB units lies in a stack that is usable (Table 15.3, R491). -/
def inUsableStack (s : State) (k : Half) (base size : Nat) : Bool :=
  stackOk s k && decide (hbmBase k ≤ base * 2 ^ 21 ∧ (base + size) * 2 ^ 21 ≤ hbmBase k + hbmSize)

/-- A range in bytes meets the slot space of a half. -/
def meetsSlots (s : State) (k : Half) (a n : Nat) : Bool :=
  rangesMeet a n (s.rd (.kv .KV_SLOT_BASE) k) (s.rd (.kv .KV_SLOT_CFG_COUNT) k * 0x4000)

/-- A range in 2 MB units meets a valid shared range, of either half. -/
def meetsShared (s : State) (base size : Nat) : Bool :=
  [Half.h0, Half.h1].any fun k => (List.range 8).any fun i =>
    s.rd (.sec .SHR_V) k i == 1 && rangesMeet base size (s.rd (.sec .SHR_BASE) k i) (s.rd (.sec .SHR_SIZE) k i)

/-- A range in 2 MB units meets a range of a partition that meets a condition. -/
def meetsParts (s : State) (which : Half → Nat → Bool) (base size : Nat) : Bool :=
  [Half.h0, Half.h1].any fun k => (List.range 64).any fun p =>
    which k p && [Half.h0, Half.h1].any fun st => rangesMeet base size (partRange s k p st).1 (partRange s k p st).2

/-- Check 4 of Table 15.3 on one range. -/
def rangeOk (s : State) (h : Half) (p : Nat) (st : Half) : Bool :=
  let r := partRange s h p st
  r.2 == 0 || (inUsableStack s st r.1 r.2 && !meetsSlots s st (r.1 * 2 ^ 21) (r.2 * 2 ^ 21) && !meetsShared s r.1 r.2 &&
    !meetsParts s (fun k q => (k, q) != (h, p) && s.rd (.sec .PART_CTL_STATE) k q != 0) r.1 r.2)

/-! ### GO (R486) -/

/-- Operator authentication that the approved mode asks for (Table 15.9). -/
def coOk (s : State) (h : Half) : Bool := s.rd (.sec .SEC_STATUS_APPROVED) h == 0 || s.rd (.sec .SEC_STATUS_CO_AUTH) h == 1

/-- The checks of Table 15.3 but the mirror, in order. -/
def goStatus (s : State) (h : Half) (p : Nat) : Nat :=
  if s.rd (.sec .PART_CTL_STATE) h p ≠ 0 ∨ s.rd (.sec .GO_BUSY) h p = 1 then ST_PART_STATE
  else if coOk s h = false then ST_CO_AUTH
  else if s.rd (.host .VF_EXISTS) h p = 0 then ST_PART_CONFIG
  else if rangeOk s h p .h0 = false ∨ rangeOk s h p .h1 = false then ST_PART_CONFIG
  else if ((List.range 8).any fun k => (s.rd (.sec .PART_SHR_MASK) h p).testBit k && s.rd (.sec .SHR_V) h k == 0) = true then
    ST_PART_CONFIG
  else if s.rd (.sec .SECRETS) h = 0 then ST_KEY_MISSING
  else ST_OK

/-- The keys that GO generates: K_valley, and K_pfx of the namespace when there is none (R486). -/
def goKeys (s : State) (h : Half) (p : Nat) : List SecKey × State :=
  let v := drawKey s 256
  let ns := namespaceOf s h p
  if (keyOf s h ns .pfx).isSome then ([⟨h, p, .valley, v.1⟩], v.2)
  else
    let k := drawKey v.2 128
    ([⟨h, p, .valley, v.1⟩, ⟨h, ns, .pfx, k.1⟩], k.2)

/-- PART_GO (R486); where a continuous test of the entropy source fails, that is a failed self-test (R508), and the GO in progress fails
with ST_KEY_MISSING. -/
def execPartGo (h : Half) (p : GoCmd) (s : State) : Res :=
  let st := goStatus s h p.part.val
  if st ≠ ST_OK then .next (partStatus s h p.part.val st)
  else if p.health ≠ .good then .next (securityEvent (partStatus s h p.part.val ST_KEY_MISSING) h ST_SELFTEST_FAIL)
  else
    let k := goKeys s h p.part.val
    .next (startMirror (k.2.wr (.sec .GO_BUSY) h 1 p.part.val) h 0 p.part.val k.1)

/-! ### RELEASE (R487) -/

/-- PART_RELEASE (R487): steps 1 and 2 of Table 15.4 on a LIVE partition; an OFF or RELEASING one is answered before CO_AUTH is asked for.
-/
def execPartRelease (h : Half) (p : Fin 64) (s : State) : Res :=
  let st := s.rd (.sec .PART_CTL_STATE) h p.val
  if st = 0 then .next (partStatus s h p.val ST_OK)
  else if st = 2 then .next (partStatus s h p.val ST_PART_STATE)
  else if coOk s h = false then .next (partStatus s h p.val ST_CO_AUTH)
  else .next (partStatus (beginRelease s h p.val) h p.val ST_OK)

/-- Step 3 of Table 15.4 is over: every chain and every stream of the partition has ended, and DRAINING is 0. -/
def releaseDrained (s : State) (h : Half) (p : Nat) : Bool :=
  !(s.chains.any fun c => c.half == h && ringFn c.ring == p) && !(s.streams.any fun x => x.half == h && x.party == p) &&
    s.rd (.host .FUNC_STATUS_DRAINING) h p == 0

/-- Another LIVE partition of the half shares the namespace. -/
def nsShared (s : State) (h : Half) (p : Nat) : Bool :=
  (List.range 64).any fun q => q != p && s.rd (.sec .PART_CTL_STATE) h q == 1 && namespaceOf s h q == namespaceOf s h p

/-- A partition's keys, as a released partition loses them (Table 15.4, step 4). -/
def partKey (s : State) (h : Half) (p : Nat) (k : SecKey) : Bool :=
  k.half == h && ((k.kind != .pfx && k.party == p) || (k.kind == .pfx && k.party == namespaceOf s h p && !nsShared s h p))

/-- The scratchpad banks whose scrub-pending bit names the partition written to zero (R487). -/
def scrubBanks (s : State) (h : Half) (p : Nat) : State :=
  (List.range 512).foldl (fun t core => (List.range 6).foldl (fun u b =>
    if bitsAt (u.rd (.tile .SP_SCRUB) (coreHalf core) (core % 256)) (10 * b) 10 = ownerTag h p then
      let z : State := { u with mem := u.mem.clearRange (scratchBase core + b * 0x40000) 0x40000 }
      setBank z (.tile .SP_SCRUB) (coreHalf core) (core % 256) b 0
    else u) t) s

/-- The slots that a partition holds written to zero and freed, with its own namespace's nodes and its Valley pages. -/
def scrubSlots (s : State) (h : Half) (p : Nat) : State :=
  let mine := (List.range (s.rd (.kv .KV_SLOT_CFG_COUNT) h)).filter fun i => slotTag s h i == partTag p
  let s1 := mine.foldl (fun t i =>
    clearSlots (t.wipe (slotAddr t h i) 0x4000) h i 1) s
  refreshNodes (refreshValley { s1 with nodes := s1.nodes.filter fun n => !(n.half == h && n.ns == partTag p)
                                        valley := s1.valley.filter fun y => !(y.half == h && y.part == p) } h p) h

/-- The HBM ranges of a partition written to zero. -/
def scrubRanges (s : State) (h : Half) (p : Nat) : State :=
  let r0 := partRange s h p .h0
  let r1 := partRange s h p .h1
  (s.wipe (r0.1 * 2 ^ 21) (r0.2 * 2 ^ 21)).wipe (r1.1 * 2 ^ 21) (r1.2 * 2 ^ 21)

/-- The partition's adapter slots set EMPTY. -/
def emptyAdapters (s : State) (h : Half) (p : Nat) : State :=
  (List.range (s.rd (.sched .ADP_ALLOC_COUNT) h p)).foldl (fun t i =>
    t.wr (.sched .ADP_SLOT_STATE) h 0 (s.rd (.sched .ADP_ALLOC_BASE) h p + i)) s

/-- RELEASE_DRAINED (R487): the keys zeroized in both security blocks, and the memory scrubbed (Table 15.4, steps 4 and 5). -/
def execReleaseDrained (h : Half) (p : Fin 64) (s : State) : Res :=
  if s.rd (.sec .PART_CTL_STATE) h p.val = 2 ∧ s.rd (.sec .REL_SCRUB) h p.val = 0 ∧ releaseDrained s h p.val = true then
    let gone := s.keys.filter (partKey s h p.val)
    let s2 := tellMirror (zeroizeKeys s h (partKey s h p.val)) h p.val gone
    let s3 := scrubBanks (scrubSlots (scrubRanges s2 h p.val) h p.val) h p.val
    .next ((emptyAdapters s3 h p.val).wr (.sec .REL_SCRUB) h 1 p.val)
  else .next s

/-- The end of a release of a partition waits for the peer's acknowledgement. -/
def releaseEnding (s : State) (h : Half) (p : Nat) : Bool :=
  s.mirrors.any fun m => m.half == h && m.kind == 3 && m.party == p && m.origin == 0

/-- RELEASE_SCRUB_DONE (R487): the entry change at the end of a release is mirrored, and with it the partition is OFF (R493). -/
def execReleaseScrubDone (h : Half) (p : Fin 64) (s : State) : Res :=
  if s.rd (.sec .PART_CTL_STATE) h p.val = 2 ∧ s.rd (.sec .REL_SCRUB) h p.val = 1 ∧ releaseEnding s h p.val = false then
    .next (startMirror s h 3 p.val [])
  else .next s

/-! ### Configuration (R485, R491) -/

/-- PART_CONFIG_WRITE (R485): 0 PART_HBM0, 1 PART_HBM1, 2 PART_SHR, 3 PART_CORES_w, while the partition is OFF. -/
def execPartConfigWrite (h : Half) (p : Fin 64) (reg : Fin 4) (w : Fin 8) (v : Nat) (s : State) : Res :=
  if s.rd (.sec .PART_CTL_STATE) h p.val ≠ 0 ∨ s.rd (.sec .GO_BUSY) h p.val = 1 then .next (partStatus s h p.val ST_PART_STATE)
  else
    let s1 := partStatus s h p.val ST_OK
    .next (match reg.val with
      | 0 => (s1.wr (.sec .PART_HBM0_BASE) h (bitsAt v 32 15) p.val).wr (.sec .PART_HBM0_SIZE) h (bitsAt v 0 14) p.val
      | 1 => (s1.wr (.sec .PART_HBM1_BASE) h (bitsAt v 32 15) p.val).wr (.sec .PART_HBM1_SIZE) h (bitsAt v 0 14) p.val
      | 2 => s1.wr (.sec .PART_SHR_MASK) h (bitsAt v 0 8) p.val
      | _ => s1.wr (.sec .PART_CORES) h v (8 * p.val + w.val))

/-- A shared range may be made valid (R491): it meets the range of no partition, LIVE or not. -/
def sharedRangeOk (s : State) (base size : Nat) : Bool :=
  (inUsableStack s .h0 base size || inUsableStack s .h1 base size) &&
    ([Half.h0, Half.h1].all fun k => !meetsSlots s k (base * 2 ^ 21) (size * 2 ^ 21)) && !meetsParts s (fun _ _ => true) base size

/-- SHR_WRITE (R491): refused while a partition that is not OFF names the range, and for a range that may not be shared. -/
def execShrWrite (h : Half) (k : Fin 8) (v : Nat) (s : State) : Res :=
  let used := (List.range 64).any fun p => s.rd (.sec .PART_CTL_STATE) h p != 0 && (s.rd (.sec .PART_SHR_MASK) h p).testBit k.val
  let base := bitsAt v 32 15
  let size := bitsAt v 0 14
  let st (n : Nat) : State := s.wr (.sec .SHR_LAST_STATUS) h n
  if used then .next (st ST_PART_STATE)
  else if bitsAt v 63 1 = 1 ∧ sharedRangeOk s base size = false then .next (st ST_PART_CONFIG)
  else .next ((((st ST_OK).wr (.sec .SHR_V) h (bitsAt v 63 1) k.val).wr (.sec .SHR_BASE) h base k.val).wr (.sec .SHR_SIZE) h size k.val)

/-! ### Import of egress keys (R495, R496) -/

/-- `n` words of a register array set from bytes. -/
def putWords (s : State) (f : Fld) (h : Half) (b : List Nat) : State :=
  (List.range (b.length / 4)).foldl (fun t i => t.wr f h (leNat (toBytes ((b.drop (4 * i)).take 4))) i) s

/-- The bytes of `n` words of a register array. -/
def wordBytes (s : State) (f : Fld) (h : Half) (n : Nat) : List Nat := (List.range n).flatMap fun i => toNats (leBytes 4 (s.rd f h i))

/-- KIMP_START (R495): a fresh key pair; its public key and the FAK's signature over public key, half, party and sequence. A PARTY above
64 is refused with ST_ID_RANGE (R587). A conditional test that fails is a failed self-test (R508), and the import fails with
ST_KEY_MISSING. -/
def execKimpStart (h : Half) (offer : KimpOffer) (s : State) : Res :=
  let party := offer.party
  if 64 < party then .next (kimpStatus s h ST_ID_RANGE)
  else if s.rd (.sec .SECRETS) h = 0 then .next (kimpStatus (s.wr (.sec .KIMP_CTL_PARTY) h party) h ST_KEY_MISSING)
  else if offer.health ≠ .good then
    .next (securityEvent (kimpStatus (s.wr (.sec .KIMP_CTL_PARTY) h party) h ST_KEY_MISSING) h ST_SELFTEST_FAIL)
  else
    let d := 1 + Config.freeValue s.freeCount % (ecN - 1)
    let k := 1 + Config.freeValue (s.freeCount + 1) % (ecN - 1)
    let s1 := drawFree (drawFree (s.wr (.sec .KIMP_CTL_PARTY) h party))
    let seq := (s.rd (.sec .KIMP_SEQ) h + 1) % 2 ^ 32
    let pub := ecBytes (ecScale d ecG)
    let sig := ecdsaSign (Config.fakKey (fakBytes s h)) k (sha384 (pub ++ [h.num, party] ++ toNats (leBytes 8 seq)))
    let s2 := putWords (putWords (s1.wr (.sec .KIMP_SEQ) h seq) (.sec .KIMP_PUB) h pub) (.sec .KIMP_SIG) h sig
    let s3 := ((s2.wr (.sec .KIMP_PRIV) h d).wr (.sec .KIMP_FOR) h party).wr (.sec .KIMP_MT) h (s.mt h)
    .next (kimpStatus (s3.wr (.sec .KIMP_LIVE) h 1) h ST_OK)

/-- The conditions of R496 on the party. -/
def importStatus (s : State) (h : Half) (party : Nat) : Nat :=
  if party < 64 ∧ s.rd (.sec .PART_CTL_STATE) h party ≠ 1 then ST_PART_STATE
  else if s.rd (.egr .EGR_PSTAT_OPEN) h party ≠ 0 then ST_EGR_BUSY
  else if coOk s h = false then ST_CO_AUTH
  else ST_OK

/-- The wrapped key of KIMP_WRAP, unwrapped under the key derived from KIMP_PEER (R495). -/
def importKey (s : State) (h : Half) (party : Nat) : Option (List Nat) :=
  let peer := wordBytes s (.sec .KIMP_PEER) h 24
  let x := beNat (peer.take 48)
  let y := beNat (peer.drop 48)
  if s.rd (.sec .KIMP_LIVE) h = 1 ∧ ecValid x y = true then
    match ecScale (s.rd (.sec .KIMP_PRIV) h) (some (x, y)) with
    | none => none
    | some (z, _) =>
      let kek := hkdf384 (beBytes 48 z) (toNats (leBytes 8 (s.rd (.sec .KIMP_SEQ) h))) (asciiBytes "zenuxus kimp v1" ++ [h.num, party]) 32
      kwUnwrap kek (wordBytes s (.sec .KIMP_WRAP) h 10)
  else none

/-- The mailbox's wrapped or plain key erased. -/
def wipeWrap (s : State) (h : Half) : State := putWords s (.sec .KIMP_WRAP) h (List.replicate 40 0)

/-- An egress key given to a party: mirrored, and installed on the acknowledgement (R493, R496). -/
def installEgress (s : State) (h : Half) (party : Nat) (key : List Nat) : State :=
  startMirror (wipeWrap s h) h 1 party [⟨h, party, .egress, leNat (toBytes key)⟩]

/-- KIMP_COMMIT (R496): whatever the outcome, the ephemeral key is zeroized. -/
def execKimpCommit (h : Half) (s : State) : Res :=
  let party := if s.rd (.sec .KIMP_LIVE) h = 1 then s.rd (.sec .KIMP_FOR) h else s.rd (.sec .KIMP_CTL_PARTY) h
  let st := importStatus s h party
  if st ≠ ST_OK then .next (kimpStatus (dropEphemeral s h) h st)
  else match importKey s h party with
    | none => .next (kimpStatus (dropEphemeral s h) h ST_KEY_IMPORT)
    | some key => .next (installEgress (dropEphemeral s h) h party key)

/-- KIMP_ABORT (R495). -/
def execKimpAbort (h : Half) (s : State) : Res := .next (kimpStatus (dropEphemeral s h) h ST_OK)

/-- KIMP_EXPIRE (R495): the ephemeral key ends 10 s after START. -/
def execKimpExpire (h : Half) (s : State) : Res :=
  if s.rd (.sec .KIMP_LIVE) h = 1 ∧ s.rd (.sec .KIMP_MT) h + 10000000000 ≤ s.mt h then .next (dropEphemeral s h) else .next s

/-- KIMP_PLAIN (R506, Table 15.9): an unwrapped key, in the non-approved mode only. -/
def execKimpPlain (h : Half) (party : Nat) (s : State) : Res :=
  let s1 := s.wr (.sec .KIMP_CTL_PARTY) h party
  if 64 < party then .next (kimpStatus s h ST_ID_RANGE)
  else if s.rd (.sec .SEC_STATUS_APPROVED) h = 1 then .next (kimpStatus s1 h ST_NOT_APPROVED)
  else
    let st := importStatus s h party
    if st ≠ ST_OK then .next (kimpStatus s1 h st)
    else .next (installEgress s1 h party ((wordBytes s (.sec .KIMP_WRAP) h 10).take 32))

/-! ### Anti-rollback (R499) -/

/-- ARB_FUSE_BLOW (R499): with ARB_AUTO set, both hubs running images of one SVN and management-ready reached, the role holder blows
fuse bits until ARB equals that SVN. -/
def execArbFuseBlow (s : State) : Res :=
  match s.holder with
  | none => .next s
  | some w =>
    let svn := s.rd (.sec .ARB_STATUS_SVN) w
    if s.rd (.sec .SEC_CFG_ARB_AUTO) w = 1 ∧ s.rd (.sec .ARB_STATUS_SVN) w.other = svn ∧ s.rd (.boot .FW_RUNNING) .h0 = 1 ∧
        s.rd (.boot .FW_RUNNING) .h1 = 1 ∧ s.rd (.boot .MGMT_READY) w = 1 ∧ s.rd (.sec .ARB_STATUS_ARB) w < svn then
      .next ((s.wr (.sec .ARB_STATUS_ARB) .h0 (min 64 svn)).wr (.sec .ARB_STATUS_ARB) .h1 (min 64 svn))
    else .next s

end Sys2Proof.Machine
end

