-- ==== Sys2Proof/Machine/RegBus.lean ====
section
/-!
DEFINITION. Machine/RegBus.lean: BAR0 as a function sees it (Tables 4.4 and 4.5): what an offset holds, reading it with the shadow
of R138, writing it by access type (R24) or by the register's own command, the staged low words of R140, snapshots (R141), and the
fabric manager's accesses (R378).
-/

namespace Sys2Proof.Machine

/-! ### What an offset holds -/

/-- What four aligned bytes of a function's BAR0 hold: bytes `o` to `o + 3` of a register (read-only in a view), read-only data, a word
of a ship plan, a word of the MSI-X table, or nothing. -/
inductive BarPlace where
  | reg (r : RegRow) (i o : Nat) (view : Bool)
  | data (v : Nat)
  | plan (k word : Nat)
  | msix (vec word : Nat)
  | unmapped
deriving DecidableEq, Repr

/-- A 4-byte word of bytes. -/
def wordOf (bs : List Byte) (off : Nat) : BarPlace := .data (fieldAt bs off 4)

/-- A word of a 64-bit value. -/
def halfWord (v o : Nat) : BarPlace := .data (v / 2 ^ (8 * (o / 4 * 4 % 8)) % 2 ^ 32)

/-- A word of a histogram's area: bins, COUNT, SUM and MAX (Table 17.12). -/
def histWord (s : State) (h : Half) (k : Nat) (f : TelF × TelF × TelF × TelF) (o : Nat) : BarPlace :=
  if o < 0x80 then .data (s.rd (.tel f.1) h (k * 32 + o / 4))
  else if o < 0x88 then halfWord (s.rd (.tel f.2.1) h k) o
  else if o < 0x90 then halfWord (s.rd (.tel f.2.2.1) h k) o
  else if o < 0x98 then halfWord (s.rd (.tel f.2.2.2) h k) o
  else .data 0

/-- A word of the snapshot area or the live area of a group (Table 17.12). -/
def areaWord (s : State) (h : Half) (g : Nat) (live : Bool) (o : Nat) : BarPlace :=
  if 16 ≤ g ∧ g < 32 then
    histWord s h (g - 16) (if live then (.HIST_BIN, .HIST_COUNT, .HIST_SUM, .HIST_MAX)
      else (.HIST_SNAP_BIN, .HIST_SNAP_COUNT, .HIST_SNAP_SUM, .HIST_SNAP_MAX)) o
  else if 16 ≤ o / 8 then .data 0
  else halfWord (if live then liveSlot s h g (o / 8) else s.rd (.tel .SNAP_SLOT) h (g * 32 + o / 8)) o

/-- A register of the PF's BAR0, by its offset; `view` makes it read-only. -/
def pfReg (off : Nat) (view : Bool) : BarPlace :=
  match lookupReg pfMap off with
  | some p => .reg p.1 (p.1.idx0 + p.2.1) p.2.2 view
  | none => .unmapped

/-- A word of a group's block in TEL: its registers, its areas, and reserved bytes, which read zero (R566) and are not counted as unmapped
(DESIGN CHOICE, log entry 94). -/
def groupWord (s : State) (h : Half) (g o : Nat) (view : Bool) : BarPlace :=
  if isGroup g = false then .unmapped
  else if 0x40 ≤ o ∧ o < 0x100 then areaWord s h g false (o - 0x40)
  else if 0x100 ≤ o ∧ o < 0x1C0 then areaWord s h g true (o - 0x100)
  else match pfReg (0x1110000 + 0x200 * g + o) (view && decide (o ≠ 0)) with
    | .unmapped => .data 0
    | p => p

/-- FLT_REC_j of a half: the copy of the newest record whose number is j modulo 16; nothing before one is kept (R516). -/
def fltRecBytes (s : State) (h : Half) (j : Nat) : List Byte :=
  let mine := s.faultRecs.filter fun p => p.1 == h
  let first := s.rd (.flt .FLT_REC_COUNT) h - mine.length
  match mine[(j + 16 - first % 16) % 16]? with
  | some p => p.2.1.bytes (p.2.2 % 2 ^ 32) (p.2.2 / 2 ^ 32)
  | none => []

/-- What an aligned offset of the PF's BAR0 holds (Table 4.4). -/
def pfPlace (s : State) (h : Half) (off : Nat) : BarPlace :=
  if 0x3F00000 ≤ off ∧ off < 0x3F00400 then .msix ((off - 0x3F00000) / 16) (off / 4 % 4)
  else if 0x3F80000 ≤ off ∧ off < 0x3F80008 then
    .data ((List.range 32).foldl (fun n i => n + s.rd (.host .MSIX_PBA) h (pf * 64 + (off - 0x3F80000) * 8 + i) * 2 ^ i) 0)
  else if 0xC10000 ≤ off ∧ off < 0xC18000 then .plan ((off - 0xC10000) / 128) (off / 4 % 32)
  else if 0x1000100 ≤ off ∧ off < 0x1000500 then wordOf (fltRecBytes s h ((off - 0x1000100) / 64)) (off % 64)
  else if 0x1100040 ≤ off ∧ off < 0x1100080 then
    wordOf (((s.ldgRdData.find? fun p => p.1 == h).map (·.2)).getD []) (off - 0x1100040)
  else if 0x1110000 ≤ off ∧ off < 0x1110000 + 97 * 0x200 then
    groupWord s h ((off - 0x1110000) / 0x200) ((off - 0x1110000) % 0x200) false
  else if 0x200000 ≤ off ∧ off < 0x208000 then
    pfReg off (decide (off % 0x40 ≠ 0x1C))
  else pfReg off false

/-- The lowest histogram of a half whose filter names a party (R548). -/
def vfHist (s : State) (h : Half) (p : Nat) : Option Nat :=
  (List.range 16).find? fun k => s.rd (.tel .HIST_CFG_PV) h k == 1 && s.rd (.tel .HIST_CFG_PART) h k == p

/-- The read-only views of a VF window that show a register of the PF's BAR0 (Tables 10.9, 9.10, 13.6, 14.8, 15.12). -/
def viewOf (p off : Nat) : Option Nat :=
  if 0x1000 ≤ off ∧ off < 0x101C then some (0x400000 + 0x20 * p + (off - 0x1000))
  else if 0x1040 ≤ off ∧ off < 0x1080 then some (0x404000 + 64 * p + (off - 0x1040))
  else if 0x1400 ≤ off ∧ off < 0x1414 then some (0x800100 + 0x20 * p + (off - 0x1400))
  else if 0x1420 ≤ off ∧ off < 0x1424 then some (0x801010 + 0x20 * p)
  else if 0x1428 ≤ off ∧ off < 0x1430 then some (0x801018 + 0x20 * p + (off - 0x1428))
  else if 0x1800 ≤ off ∧ off < 0x1808 then some (0xC00100 + 8 * p + (off - 0x1800))
  else if 0x1C00 ≤ off ∧ off < 0x1C10 then some (0xD00020 + (off - 0x1C00))
  else if 0x1C10 ≤ off ∧ off < 0x1C14 then some 0xD00004
  else if 0x2800 ≤ off ∧ off < 0x2804 then some (0xF00100 + 0x20 * p)
  else if 0x2808 ≤ off ∧ off < 0x280C then some (0xF00108 + 0x20 * p)
  else none

/-- An event counter in a VF's view: reads zero and discards writes at and above COUNT (Table 5.12). -/
def vfCounter (s : State) (h : Half) (p j base : Nat) : BarPlace :=
  if j < s.rd (.desc .EVC_ALLOC_COUNT) h p then pfReg (base + 4 * (s.rd (.desc .EVC_ALLOC_BASE) h p + j)) false else .data 0

/-- What an aligned offset of a VF's window holds (Table 4.5). -/
def vfPlace (s : State) (h : Half) (p off : Nat) : BarPlace :=
  if 0x3000 ≤ off ∧ off < 0x3100 then .msix ((off - 0x3000) / 16) (off / 4 % 4)
  else if 0x3800 ≤ off ∧ off < 0x3808 then
    .data (if off < 0x3804 then (List.range 16).foldl (fun n i => n + s.rd (.host .MSIX_PBA) h (p * 64 + i) * 2 ^ i) 0 else 0)
  else if 0x1200 ≤ off ∧ off < 0x1300 then vfCounter s h p ((off - 0x1200) / 4) 0x410000
  else if 0x1300 ≤ off ∧ off < 0x1400 then vfCounter s h p ((off - 0x1300) / 4) 0x414000
  else if 0x2400 ≤ off ∧ off < 0x2600 then groupWord s h (32 + p) (off - 0x2400) true
  else if 0x2600 ≤ off ∧ off < 0x2800 then
    match vfHist s h p with
    | some k => groupWord s h (16 + k) (off - 0x2600) true
    | none => .data 0
  else match viewOf p off with
    | some o => pfReg o true
    | none =>
      match lookupReg vfMap off with
      | some q => .reg q.1 (q.1.idx0 * p + q.2.1) q.2.2 false
      | none => .unmapped

/-- What an aligned offset of a function's BAR0 holds. -/
def placeOf (s : State) (h : Half) (fn off : Nat) : BarPlace :=
  if fn = pf then pfPlace s h off else vfPlace s h fn off

/-! ### Reading -/

/-- A register as it reads on a half: the THERM region of a half without the roles reads zero, but for THERM_STATUS.LAST_STATUS and
AUX_CLAIM_STATUS (R66); group 4's SNAP registers are the half's own. -/
def readReg (s : State) (h : Half) (r : RegRow) (i : Nat) : Nat :=
  if 0xE00000 ≤ r.base ∧ r.base < 0xF00000 ∧ s.holds h = false then
    if r.base = 0xE00000 then s.rd (.thm .THERM_STATUS_LAST_STATUS) h * 65536
    else if r.base = 0xE00304 then regValue s r i h
    else 0
  else regValue s r i h

/-- A word of an MSI-X table entry (R168). -/
def msixWord (s : State) (h : Half) (i word : Nat) : Nat :=
  match word with
  | 0 => s.rd (.host .MSIX_ADDR) h i % 2 ^ 32
  | 1 => s.rd (.host .MSIX_ADDR) h i / 2 ^ 32
  | 2 => s.rd (.host .MSIX_DATA) h i
  | _ => s.rd (.host .MSIX_MASK) h i

/-- The 4 bytes that a place reads as. -/
def readPlace (s : State) (h : Half) (fn : Nat) (p : BarPlace) : Nat :=
  match p with
  | .reg r i o _ => readReg s h r i / 2 ^ (8 * o) % 2 ^ 32
  | .data v => v % 2 ^ 32
  | .plan k w => s.plans.readLE ((h.num * 256 + k) * 128 + 4 * w) 4
  | .msix vec w => msixWord s h (fn * 64 + vec) w
  | .unmapped => 0

/-- The 4 bytes at an aligned offset. -/
def read4 (s : State) (h : Half) (fn off : Nat) : Nat := readPlace s h fn (placeOf s h fn off)

/-- The 8 bytes at an aligned offset: a 64-bit register at one instant, or two registers (R137). -/
def read8 (s : State) (h : Half) (fn off : Nat) : Nat := read4 s h fn off + 2 ^ 32 * read4 s h fn (off + 4)

/-- An access that touches words with nothing there is counted once, be it one word or both (R134 counts accesses; log entry 61). -/
def countHoles (s : State) (h : Half) (fn off words : Nat) : State :=
  if (List.range words).any fun k => placeOf s h fn (off + 4 * k) == .unmapped then countUnmapped s h fn else s

/-- A 64-bit RS register: the one whose word `o` starts at. -/
def isRs (p : BarPlace) (o : Nat) : Bool :=
  match p with
  | .reg r _ k _ => r.bytes == 8 && k == o && r.fields.any fun f => f.acc == .rs
  | _ => false

/-- A 4-byte read at an aligned offset, with the read shadow of R138: the low word of an RS register latches its high word, tagged with
the register's address; the high word comes from the shadow on a matching tag, which is cleared, and else is the live one, with
SHADOW_MISS. -/
def readWord (s : State) (h : Half) (fn off : Nat) : State × Nat :=
  let p := placeOf s h fn off
  let v := read4 s h fn off
  if isRs p 0 then ((s.wr (.host .SHADOW_TAG) h (off + 1) fn).wr (.host .SHADOW_HIGH) h (read4 s h fn (off + 4)) fn, v)
  else if isRs p 4 then
    if s.rd (.host .SHADOW_TAG) h fn = off - 4 + 1 then (s.wr (.host .SHADOW_TAG) h 0 fn, s.rd (.host .SHADOW_HIGH) h fn)
    else (raiseFunc (s.inc (.host .SHD_CNT_SHADOW_MISS) h 1 fn) h fn 4, v)
  else (countHoles s h fn off 1, v)

/-- The answer to a 4-byte read. -/
def answerWord (s : State) (h : Half) (fn off : Nat) : State :=
  let r := readWord s h fn off
  r.1.emit (.readData h fn r.2)

/-- RS_READ_LOW (R138): a 4-byte read; of an RS register's low word, its high word is latched. -/
def execRsReadLow (h : Half) (fn off : Nat) (s : State) : Res :=
  if barReach s h fn = true ∧ off % 4 = 0 then .next (answerWord s h fn off) else .next s

/-- RS_READ_HIGH (R138): a 4-byte read; of an RS register's high word, the shadow's or the live one. -/
def execRsReadHigh (h : Half) (fn off : Nat) (s : State) : Res :=
  if barReach s h fn = true ∧ off % 4 = 0 then .next (answerWord s h fn off) else .next s

/-- UNMAPPED_ACCESS (R134, R140): a read returns zero, a write is discarded, and ACC_CNT.UNMAPPED counts it; an offset that holds
something is no such access. -/
def execUnmappedAccess (h : Half) (fn off : Nat) (write : Bool) (s : State) : Res :=
  if barReach s h fn = true ∧ placeOf s h fn (off / 4 * 4) = .unmapped then
    .next (if write then countUnmapped (dropStaged s h fn) h fn else (countUnmapped s h fn).emit (.readData h fn 0))
  else .next s

/-! ### Registers written by their own commands -/

/-- A second effect on the state of the first's outcome. -/
def resThen (r : Res) (f : State → Res) : Res :=
  match r with
  | .next t => f t
  | .fault e => .fault e
  | .refused e => .refused e

/-- An effect that a bit of the value asks for. -/
def ifBit (v b : Nat) (f : State → Res) (s : State) : Res := if v.testBit b then f s else .next s

/-- POOL_CTL (Table 1.8). A write of both bits sets QUIESCE first, so its COMMIT is judged with the new QUIESCED (DESIGN CHOICE, log entry
56: the spec gives no order). -/
def poolCtl (h : Half) (v : Nat) (s : State) : Res :=
  resThen (execPoolQuiesceSet h (v.testBit 1) s) (ifBit v 0 (execPoolCommit h))

/-- RING_CTL: EN from the ring's own function, FSTOP from the PF only (R148, R155, R173); a PF write of both bits to a ring of its own is a
stop (DESIGN CHOICE, log entry 61). -/
def ringCtl (h : Half) (fn ring v : Nat) (s : State) : Res :=
  if ringFn ring ≠ fn then ifBit v 1 (execRingFstop h ring) s
  else if v.testBit 0 ∧ (fn ≠ pf ∨ v.testBit 1 = false) then execRingEnable h ring s
  else execRingDisable h ring s

/-- FLT_CTL: CMD 1 to 5 (R544). -/
def fltCtl (h : Half) (v : Nat) (s : State) : Res :=
  let arg := bitsAt v 16 16
  match bitsAt v 0 4 with
  | 1 => execFltCtxReset h arg s
  | 2 => execFltEngReset h arg s
  | 3 => execFltPartReset h arg s
  | 4 => execFltChipReset h s
  | 5 => execFltTrayCycle h s
  | _ => .next (fltLast s h ST_FLT_CONFIG)

/-- A store while a condition holds, with a chapter's status either way. -/
def guarded (ok : Bool) (status : State → Nat → State) (bad : Nat) (store : State → State) (s : State) : Res :=
  .next (if ok then status (store s) ST_OK else status s bad)

/-- A store while a condition holds; else ST_FLT_CONFIG (R544). -/
def fltStore (h : Half) (ok : Bool) (store : State → State) (s : State) : Res :=
  .next (if ok then store s else fltLast s h ST_FLT_CONFIG)

/-- The chip-wide fault registers, RWL (Table 16.16). -/
def fltConfig (h : Half) (f : FltF) (v : Nat) (s : State) : Res :=
  if locked s h then .next s
  else match f with
    | .FLT_CFG_HBM_UE_LIMIT => fltStore h (bitsAt v 16 16 != 0) (fun t =>
        (((t.wr (.flt .FLT_CFG_HBM_UE_LIMIT) h (bitsAt v 16 16)).wr (.flt .FLT_CFG_PART_LIMIT) h (bitsAt v 8 8)).wr
          (.flt .FLT_CFG_AUTO_TRAY) h (bitsAt v 1 1)).wr (.flt .FLT_CFG_AUTO_CHIP) h (bitsAt v 0 1)) s
    | .FLT_WDT0_CTX_WDT => fltStore h (within 10 (bitsAt v 12 20) 1000000 && within 2 (bitsAt v 0 4) 15) (fun t =>
        (t.wr (.flt .FLT_WDT0_CTX_WDT) h (bitsAt v 12 20)).wr (.flt .FLT_WDT0_PASS_MULT) h (bitsAt v 0 4)) s
    | _ => fltStore h (within 50 (bitsAt v 0 20) 1000000) (fun t => t.wr (.flt .FLT_WDT1_ENG_WDT) h (bitsAt v 0 20)) s

/-- FLT_LOG_CFG: EN at any time, the other fields while EN is 0 (R544). -/
def fltLogCfg (h : Half) (fn v : Nat) (s : State) : Res :=
  let same := bitsAt v 16 3 == s.rd (.flt .FLT_LOG_CFG_SMP_LOG2) h fn && bitsAt v 0 4 == s.rd (.flt .FLT_LOG_CFG_LOG2) h fn
  let open_ := s.rd (.flt .FLT_LOG_CFG_EN) h fn == 0 || same
  fltStore h (open_ && decide (bitsAt v 16 3 ≤ 6) && within 4 (bitsAt v 0 4) 12) (fun t =>
    ((t.wr (.flt .FLT_LOG_CFG_EN) h (bitsAt v 31 1) fn).wr (.flt .FLT_LOG_CFG_SMP_LOG2) h (bitsAt v 16 3) fn).wr
      (.flt .FLT_LOG_CFG_LOG2) h (bitsAt v 0 4) fn) s

/-- FLT_LOG_BASE and FLT_SMP_BASE (Table 16.16). -/
def fltBase (h : Half) (f : FltF) (fn v : Nat) (s : State) : Res :=
  fltStore h (s.rd (.flt .FLT_LOG_CFG_EN) h fn == 0 && v % 4096 == 0 && decide (v < 2 ^ 63)) (fun t => t.wr (.flt f) h v fn) s

/-- The fault registers (R544). -/
def fltOwn (h : Half) (f : FltF) (i v : Nat) (s : State) : Option Res :=
  match f with
  | .FLT_CFG_HBM_UE_LIMIT | .FLT_WDT0_CTX_WDT | .FLT_WDT1_ENG_WDT => some (fltConfig h f v s)
  | .FLT_CTL_ARG => some (fltCtl h v s)
  | .FLT_LOG_BASE | .FLT_SMP_BASE => some (fltBase h f i v s)
  | .FLT_LOG_CFG_EN => some (fltLogCfg h i v s)
  | .FLT_LOG_CI => some (execFltLogCiWrite h i v s)
  | .RING_WDT_ACT => some (fltStore h (decide (bitsAt v 0 16 ≤ 60000)) (fun t =>
      (t.wr (.flt .RING_WDT_ACT) h (bitsAt v 31 1) i).wr (.flt .RING_WDT_MS) h (bitsAt v 0 16) i) s)
  | .MC_PASS_CTL_RETRAIN_EN => some (ifBit v 0 (execPassRejoin h) (s.wr (.flt .MC_PASS_CTL_RETRAIN_EN) h (bitsAt v 1 1)))
  | _ => none

/-- FUNC_IRQ_EN written: a cause that is latched and becomes enabled sends its message (§4.10, "At the edges"). -/
def funcIrqEnWrite (s : State) (h : Half) (fn v : Nat) : State :=
  let s1 := s.wr (.host .FUNC_IRQ_EN) h v fn
  if risingBits (s.rd (.host .FUNC_IRQ_EN) h fn) (v % 32) &&& s.rd (.host .FUNC_IRQ) h fn ≠ 0 then
    sendMsix s1 h fn (s.rd (.host .FUNC_IRQ_VEC) h fn)
  else s1

/-- The host and event registers (R143, R147, R165, R173, R197, R205). -/
def hostOwn (h : Half) (fn : Nat) (f : HostF) (i v : Nat) (s : State) : Option Res :=
  match f with
  | .SETUP_LOCK_LOCK => some (ifBit v 0 (execSetupLockSet h) s)
  | .FUNC_IRQ_EN => some (.next (funcIrqEnWrite s h i v))
  | .FUNC_IRQ_VEC => some (.next (if v % 64 < vecCount fn then s.wr (.host .FUNC_IRQ_VEC) h v i else s))
  | .EVT_RING_EN => some (execEvtRingWrite h fn (v.testBit 3) (Fin.ofNat 8 v) s)
  | .RING_BASE => some (execRingConfigWrite h i .base v s)
  | .CQ_BASE => some (execRingConfigWrite h i .cqBase v s)
  | .RING_CFG_CQ_VEC => some (execRingConfigWrite h i .cfg v s)
  | .RING_COAL_COAL_CNT => some (execRingConfigWrite h i .coal v s)
  | .RING_START => some (execRingConfigWrite h i .start v s)
  | .RING_CTL_FSTOP => some (ringCtl h fn i v s)
  | .PIN_ALLOC => some (execPinAllocWrite h i (bitsAt v 0 7) s)
  | _ => none

/-- The allotments and event counters (R197, R205). -/
def descOwn (h : Half) (fn : Nat) (f : DescF) (i v : Nat) (s : State) : Option Res :=
  let j := if fn = pf then i else i - s.rd (.desc .EVC_ALLOC_BASE) h fn
  match f with
  | .EVC_VAL => some (execEvcValWrite h fn j v s)
  | .EVC_ADD => some (execEvcAddWrite h fn j v s)
  | .EVC_ALLOC_BASE => some (execEvcAllocWrite h i (bitsAt v 16 12) (bitsAt v 0 7) s)
  | .REQ_ALLOC_BASE => some (execReqAllocWrite h i (bitsAt v 16 12) (bitsAt v 0 13) s)
  | _ => none

/-- Counter groups and the ledger (R547, R551, R556, R558). -/
def telOwn (h : Half) (f : TelF) (i v : Nat) (s : State) : Option Res :=
  match f with
  | .TEL_SNAP_LO_SNAP => some (execTelSnapWrite h v s)
  | .LDG_CTL_ADOPT => some (ifBit v 0 (execLedgerAdopt h) s)
  | .LDG_RD_SEQ => some (execLedgerRead h v s)
  | .SNAP => some (ifBit v 0 (fun t => .next (snapGroup t h i)) s)
  | .HIST_CFG_EN => some (execHistCfgWrite h (Fin.ofNat 16 i) v s)
  | .HIST_LO => some (.next (telStatus (s.wr (.tel .HIST_LO) h v i) h ST_OK))
  | _ => none

/-- THERM_CTL: AUTO_DOWN, unless it is locked, then MODE when it changes, then START; a write that asks for nothing refused ends with ST_OK
(R68, R74, R96). -/
def thermCtl (h : Half) (v : Nat) (s : State) : Res :=
  let s0 := if s.holds h then thermStatus s h ST_OK else s
  let s1 := if s.holds h = true ∧ locked s h = false then s0.wr (.thm .THERM_CTL_AUTO_DOWN) h (bitsAt v 1 1) else s0
  let r := if bitsAt v 0 1 = s.rd (.thm .THERM_CTL_MODE) h then .next s1 else execThermModeSet h (v.testBit 0) s1
  resThen r (ifBit v 2 (execThermStart h))

/-- PLAT_CTL: refused whole for its NOTICE_MS; else NOTICE_MS and TARGET stored, a cancellation, then a request (R61, R65, R96). A write
that asks for neither ends with ST_OK (Table 2.10). -/
def platCtl (h : Half) (v : Nat) (s : State) : Res :=
  if s.holds h = false then .next s
  else if bitsAt v 8 8 < 2 ∨ 100 < bitsAt v 8 8 then .next (platStatus s h ST_PLATEAU_RANGE)
  else
    let s1 := (s.wr (.thm .PLAT_CTL_NOTICE_MS) h (bitsAt v 8 8)).wr (.thm .PLAT_CTL_TARGET) h (bitsAt v 0 2)
    let r := if v.testBit 3 then execPlatCancel h s1 else .next (platStatus s1 h ST_OK)
    resThen r (ifBit v 2 (execPlatRequest h (bitsAt v 8 8) (bitsAt v 0 2)))

/-- PWMn_CTL: POL, then EN, then UPDATE (R76 to R80). -/
def pwmCtl (h : Half) (n : Fin 4) (v : Nat) (s : State) : Res :=
  let r1 := pwmWrite s h n.val (if bitsAt v 1 1 = s.rd (.thm .PWM_CTL_POL) h n.val then s
    else pwmDrive (s.wr (.thm .PWM_CTL_POL) h (bitsAt v 1 1) n.val) h n.val)
  let r2 := if v.testBit 0 then resThen r1 (execPwmEnable h n) else resThen r1 (execPwmDisable h n)
  resThen r2 (ifBit v 2 (execPwmUpdate h n))

/-- FBn_CTL: CLR_GLITCH and MODE (R82, R83). -/
def fbCtl (h : Half) (n : Fin 3) (v : Nat) (s : State) : Res :=
  resThen (ifBit v 2 (execFbClrGlitch h n) s) (execFbModeSet h n (Fin.ofNat 4 v))

/-- The THERM registers (R66, R96). -/
def thmOwn (h : Half) (f : ThmF) (i v : Nat) (s : State) : Option Res :=
  match f with
  | .THERM_CTL_START => some (thermCtl h v s)
  | .PLAT_CTL_NOTICE_MS => some (platCtl h v s)
  | .THERM_SET0_T_OUT_SET => some (execThermConfigWrite h .set0 v s)
  | .THERM_SET1_TJ_CRIT => some (execThermConfigWrite h .set1 v s)
  | .THERM_GAIN_KI => some (execThermConfigWrite h .gain v s)
  | .THERM_SPLIT_SPLIT => some (execThermConfigWrite h .split v s)
  | .THERM_RANGE_V_VMAX => some (execThermConfigWrite h .rangeV v s)
  | .THERM_RANGE_P_PMAX => some (execThermConfigWrite h .rangeP v s)
  | .THERM_TIMING_SENS_LOSS => some (execThermConfigWrite h .timing v s)
  | .THERM_PRIME_VALVE => some (execThermConfigWrite h .prime v s)
  | .FB_MIN_INT => some (execThermConfigWrite h (.fbMinInt (Fin.ofNat 3 i)) v s)
  | .FB_ZS_TIMEOUT => some (execThermConfigWrite h (.fbZs (Fin.ofNat 3 i)) v s)
  | .FB_WINDOW => some (execThermConfigWrite h (.fbWindow (Fin.ofNat 3 i)) v s)
  | .PWM_CTL_UPDATE => some (pwmCtl h (Fin.ofNat 4 i) v s)
  | .PWM_PERIOD => some (execPwmShadowWrite h (Fin.ofNat 4 i) .period v s)
  | .PWM_DUTY => some (execPwmShadowWrite h (Fin.ofNat 4 i) .duty v s)
  | .TRIG_CFG_EN => some (execTrigConfigWrite h (Fin.ofNat 2 i) (v.testBit 31) (v.testBit 30) (Fin.ofNat 4 (bitsAt v 28 2)) (bitsAt v 18 10)
      (bitsAt v 0 18) s)
  | .FB_CTL_CLR_GLITCH => some (fbCtl h (Fin.ofNat 3 i) v s)
  | .FB_POSITION => some (execFbPositionWrite h (Fin.ofNat 3 i) v s)
  | .AUX_DIAG_CLR => some (execAuxDiagClr h v s)
  | .PWM_STATUS_DISARMED => some (pwmWrite s h i (s.wr (.thm .PWM_STATUS_DISARMED) h
      (clearBits (s.rd (.thm .PWM_STATUS_DISARMED) h i) (bitsAt v 1 1)) i))
  | .FB_STATUS_WRAPPED => some (.next (if s.holds h then thermStatus (s.wr (.thm .FB_STATUS_WRAPPED) h
      (clearBits (s.rd (.thm .FB_STATUS_WRAPPED) h i) (bitsAt v 1 1)) i) h ST_OK else s))
  | _ => if s.holds h then none else some (.next s)

/-- FAB_MGMT: REMOTE_EN is RWL and refused in the approved mode; FM_V and FM_NODE are RW (Tables 11.11 and 15.9). A valid FM_NODE outside
the sizes that are set, or of the other plane, is refused with ST_ID_RANGE (R15, R587). -/
def fabMgmt (h : Half) (v : Nat) (s : State) : Res :=
  let node := bitsAt v 0 12
  let strange := (List.range 3).any fun d => torusSize s h d != 0 && decide (torusSize s h d ≤ coord node d)
  if v.testBit 13 ∧ s.rd (.sec .SEC_STATUS_APPROVED) h = 1 ∧ locked s h = false then .next (fabStatus s h ST_NOT_APPROVED)
  else if v.testBit 12 ∧ (strange = true ∨ node / 2048 ≠ h.num) then .next (fabStatus s h ST_ID_RANGE)
  else
    let s1 := if locked s h then s else s.wr (.fab .FAB_MGMT_REMOTE_EN) h (bitsAt v 13 1)
    .next (fabStatus ((s1.wr (.fab .FAB_MGMT_FM_V) h (bitsAt v 12 1)).wr (.fab .FAB_MGMT_FM_NODE) h (bitsAt v 0 12)) h ST_OK)

/-- PORT_CTL: TRAIN, then ADMIN_DOWN (R361, R382; the order of the two is the model's, log entry 73); a write of neither ends well. -/
def portCtl (h : Half) (n : Fin 6) (v : Nat) (s : State) : Res :=
  resThen (ifBit v 0 (execPortTrain h n) (portStatus s h n.val ST_OK)) (ifBit v 1 (execPortAdminDown h n))

/-- The fabric registers (R386). -/
def fabOwn (h : Half) (f : FabF) (i v : Nat) (s : State) : Option Res :=
  match f with
  | .FAB_NODE_X => some (execFabTopologyWrite h 0 v s)
  | .FAB_SIZE_SX => some (execFabTopologyWrite h 1 v s)
  | .FAB_PORT_DIR => some (execFabTopologyWrite h 2 v s)
  | .FAB_CTL_AUTO_RT => some (ifBit v 0 (execAutoRt h) (fabStatus s h ST_OK))
  | .FAB_LINK_CFG_LANE_SER_LIMIT => some (if locked s h then .next s else
      guarded (bitsAt v 16 16 != 0 && within 5 (bitsAt v 8 8) 255 && within 1 (bitsAt v 0 8) 50) (fun t => fabStatus t h) ST_FAB_CONFIG
        (fun t => ((t.wr (.fab .FAB_LINK_CFG_LANE_SER_LIMIT) h (bitsAt v 16 16)).wr (.fab .FAB_LINK_CFG_REPLAY_TMO) h (bitsAt v 8 8)).wr
          (.fab .FAB_LINK_CFG_TRAIN_TMO) h (bitsAt v 0 8)) s)
  | .FAB_VC_CFG_VC3_BURST => some (if locked s h then .next s else
      guarded (within 1 (bitsAt v 24 8) 64 && within 1 (bitsAt v 16 8) 64 && bitsAt v 8 8 != 0 && bitsAt v 0 8 != 0) (fun t => fabStatus t h)
        ST_FAB_CONFIG (fun t => (((t.wr (.fab .FAB_VC_CFG_VC3_BURST) h (bitsAt v 24 8)).wr (.fab .FAB_VC_CFG_VC3_RATE) h (bitsAt v 16 8)).wr
          (.fab .FAB_VC_CFG_W1) h (bitsAt v 8 8)).wr (.fab .FAB_VC_CFG_W0) h (bitsAt v 0 8)) s)
  | .FAB_MGMT_REMOTE_EN => some (fabMgmt h v s)
  | .FAB_BUF_HI => some (execFabBufWrite h (Fin.ofNat 4 i) (bitsAt v 0 11) (bitsAt v 16 11) s)
  | .RT_SEL_BANK => some (execRtSelWrite h (bitsAt v 0 1) s)
  | .RT => some (execRouteTableWrite h (Fin.ofNat 2 (i / 3)) (Fin.ofNat 3 i) v s)
  | .PORT_CTL_ADMIN_DOWN => some (portCtl h (Fin.ofNat 6 i) v s)
  | _ => none

/-- A field of the TIME region that may change only while its feature is disabled (Table 14.9). -/
def timeStore (h : Half) (ok : Bool) (store : State → State) (s : State) : Res :=
  guarded ok (fun t => timeStatus t h) ST_TIME_CONFIG store s

/-- A PERIOD: 0, or at least 1,000 ns. -/
def periodOk (v : Nat) : Bool := v == 0 || decide (1000 ≤ v)

/-- Trigger k is disabled. -/
def trigOff (s : State) (k : Nat) : Bool := s.rd (.thm .TRIG_CFG_EN) s.chipHalf k == 0

/-- The TIME registers (R483). CMPc_TARGET is the target of whatever feature holds the comparator, so it is written only while none does
(R471; DEDUCED, log entry 36). -/
def timOwn (h : Half) (f : TimF) (i v : Nat) (s : State) : Option Res :=
  let off := s.rd (.tim .CMP_CTL_EN) h i == 0
  let free := s.rd (.tim .CMP_STATUS_HOLDER) h i == 0
  match f with
  | .TIME_CTL_DREQ_EN => some (execTimeCtlWrite h v s)
  | .TIME_INT_SRC_TMO => some (timeStore h (within 1 (bitsAt v 20 12) 1000 && within 1 (bitsAt v 10 10) 1000 && within 50 (bitsAt v 0 10) 1000)
      (fun t => ((t.wr (.tim .TIME_INT_SRC_TMO) h (bitsAt v 20 12)).wr (.tim .TIME_INT_DREQ_INT) h (bitsAt v 10 10)).wr
        (.tim .TIME_INT_BCN_INT) h (bitsAt v 0 10)) s)
  | .TIME_THR_STEP_THR => some (timeStore h (bitsAt v 16 16 != 0 && bitsAt v 0 16 != 0)
      (fun t => (t.wr (.tim .TIME_THR_STEP_THR) h (bitsAt v 16 16)).wr (.tim .TIME_THR_LOCK_THR) h (bitsAt v 0 16)) s)
  | .TIME_SERVO_KP => some (timeStore h true
      (fun t => (t.wr (.tim .TIME_SERVO_KP) h (bitsAt v 16 16)).wr (.tim .TIME_SERVO_KI) h (bitsAt v 0 16)) s)
  | .TIME_SNAP => some (if v.testBit 0 then execTimeSnap h s else .next (timeStatus s h ST_OK))
  | .TIME_EVT => some (timeStore h true (fun t => t.wr (.tim .TIME_EVT) h (clearBits (t.rd (.tim .TIME_EVT) h) (bitsAt v 0 8))) s)
  | .FT => some (execFtWrite h v s)
  | .PPS_IN_COMP => some (timeStore h true (fun t => t.wr (.tim .PPS_IN_COMP) h v) s)
  | .PPS_OUT_CFG_EN => some (.next (ppsOutWrite s h v))
  | .PPS_OUT_OFF => some (timeStore h (s.rd (.tim .PPS_OUT_CFG_EN) h == 0) (fun t => t.wr (.tim .PPS_OUT_OFF) h v) s)
  | .CMP_CTL_EN => some (.next (cmpCtlWrite s h i v))
  | .CMP_VALUE => some (timeStore h off (fun t => t.wr (.tim .CMP_VALUE) h v i) s)
  | .CMP_TARGET => some (timeStore h free (fun t => t.wr (.tim .CMP_TARGET) h v i) s)
  | .CMP_PERIOD => some (timeStore h (off && periodOk v) (fun t => t.wr (.tim .CMP_PERIOD) h v i) s)
  | .CMP_LATE_TOL => some (timeStore h off (fun t => t.wr (.tim .CMP_LATE_TOL) h v i) s)
  | .TIME_REL_CTL_CMP_MT => some (execTimeRelCtlWrite h v s)
  | .TIME_TRIG_CMP_TRIG1 => some (timeStore h ((trigOff s 1 || bitsAt v 4 4 == s.rd (.tim .TIME_TRIG_CMP_TRIG1) h) &&
        (trigOff s 0 || bitsAt v 0 4 == s.rd (.tim .TIME_TRIG_CMP_TRIG0) h))
      (fun t => (t.wr (.tim .TIME_TRIG_CMP_TRIG1) h (bitsAt v 4 4)).wr (.tim .TIME_TRIG_CMP_TRIG0) h (bitsAt v 0 4)) s)
  | .TRIG_TARGET => some (timeStore h (trigOff s i) (fun t => t.wr (.tim .TRIG_TARGET) h v i) s)
  | .TRIG_PERIOD => some (timeStore h (trigOff s i && periodOk v) (fun t => t.wr (.tim .TRIG_PERIOD) h v i) s)
  | .TRIG_CLOCK => some (timeStore h (trigOff s i) (fun t => t.wr (.tim .TRIG_CLOCK) h (bitsAt v 0 1) i) s)
  | .PTP_CFG_EN => some (timeStore h (bitsAt v 29 2 != 3) (fun t =>
      ptpRefresh ((((t.wr (.tim .PTP_CFG_EN) h (bitsAt v 31 1)).wr (.tim .PTP_CFG_TRANSPORT) h (bitsAt v 29 2)).wr
        (.tim .PTP_CFG_DOMAIN) h (bitsAt v 16 7)).wr (.tim .PTP_CFG_LOG_DREQ) h (bitsAt v 0 3)) h) s)
  | _ => none

/-- The KV registers (R289, R321, R328). -/
def kvOwn (h : Half) (f : KvF) (i v : Nat) (s : State) : Option Res :=
  match f with
  | .KV_SLOT_BASE => some (execKvQuotaWrite h 0 i v s)
  | .KV_SLOT_CFG_COUNT => some (execKvQuotaWrite h 1 i v s)
  | .KV_QUOTA_LOW => some (execKvQuotaWrite h 2 i v s)
  | .KV_PGRP_SG_EN => some (execKvQuotaWrite h 3 i v s)
  | .KV_GRP_QUOTA => some (execKvQuotaWrite h 4 i v s)
  | .VALLEY_BASE => some (execValleyConfigWrite h (Fin.ofNat 64 i) 0 v s)
  | .VALLEY_TAG => some (execValleyConfigWrite h (Fin.ofNat 64 i) 1 v s)
  | .VALLEY_CFG_EN => some (execValleyConfigWrite h (Fin.ofNat 64 i) 2 v s)
  | .PFX_CTL_FLUSH => some (ifBit v 0 (execPfxFlush h) s)
  | _ => none

/-- The scheduler's registers (R334, R340, R342). -/
def schedOwn (h : Half) (f : SchedF) (i v : Nat) (s : State) : Option Res :=
  match f with
  | .BUDGET_CFG_BURST => some (execBudgetCfgWrite h (Fin.ofNat 65 i) v s)
  | .PARTY_CFG_WEIGHT => some (execPartyCfgWrite h (Fin.ofNat 65 i) v s)
  | .ADP_ALLOC_BASE => some (execAdpAllocWrite h (Fin.ofNat 65 i) (bitsAt v 16 11) (bitsAt v 0 11) s)
  | .RING_SCHED_URG_EN => some (execRingSchedWrite h i v s)
  | _ => none

/-- EGR_CTL and the egress port's registers (R423). -/
def egrOwn (h : Half) (f : EgrF) (v : Nat) (s : State) : Option Res :=
  match f with
  | .EGR_CTL_EN => some (if v.testBit 0 then execEgrEnable h s else execEgrDisable h s)
  | .EGR_MAC => some (execEgrConfigWrite h 0 v s)
  | .EGR_IP4 => some (execEgrConfigWrite h 1 v s)
  | .EGR_IP6_LO => some (execEgrConfigWrite h 2 v s)
  | .EGR_IP6_HI => some (execEgrConfigWrite h 3 v s)
  | .EGR_PORT_CFG_RX_UDP => some (execEgrConfigWrite h 4 v s)
  | .EGR_CC_INC_PERIOD => some (execEgrConfigWrite h 5 v s)
  | .EGR_CC2_ECN_HOLD => some (execEgrConfigWrite h 6 v s)
  | _ => none

/-- SEC_CTL: ZEROIZE_ALL, and SELFTEST, whose outcome is a free value (R509, R510). -/
def secCtl (h : Half) (v : Nat) (s : State) : Res :=
  resThen (ifBit v 1 (fun t => execSecSelftest h (Config.freeValue t.freeCount % 2 == 1) (drawFree t)) s) (ifBit v 2 (execSecZeroizeAll h))

/-- How the conditional self-tests end while a register's command draws keys: a free value (R508, log entry 5). -/
def freeHealth (s : State) (pair : Bool) : Health :=
  match Config.freeValue s.freeCount % 3 with
  | 0 => .good
  | 1 => .entropy
  | _ => if pair then .pair else .good

/-- PART_CTL: GO and RELEASE (R486, R487). -/
def partCtl (h : Half) (p : Fin 64) (v : Nat) (s : State) : Res :=
  resThen (ifBit v 0 (fun t => execPartGo h ⟨p, freeHealth t false⟩ (drawFree t)) s) (ifBit v 1 (execPartRelease h p))

/-- KIMP_CTL: PARTY, refused above 64 with ST_ID_RANGE (R587), then the commands of R495 and R506 in the order of their bits (the order is
the model's, log entry 37). -/
def kimpCtl (h : Half) (v : Nat) (s : State) : Res :=
  let party := bitsAt v 8 7
  if 64 < party then .next (kimpStatus s h ST_ID_RANGE)
  else
    let r := resThen (ifBit v 0 (fun t => execKimpStart h ⟨party,
      freeHealth t true⟩ (drawFree t)) (s.wr (.sec .KIMP_CTL_PARTY) h party)) (ifBit v 1 (execKimpCommit h))
    resThen (resThen r (ifBit v 2 (execKimpAbort h))) (ifBit v 3 (execKimpPlain h party))

/-- The security registers (R511). -/
def secOwn (h : Half) (f : SecF) (i v : Nat) (s : State) : Option Res :=
  match f with
  | .SEC_CTL => some (secCtl h v s)
  | .PART_CTL_RELEASE => some (partCtl h (Fin.ofNat 64 i) v s)
  | .PART_SHR_MASK => some (execPartConfigWrite h (Fin.ofNat 64 i) 2 0 v s)
  | .PART_HBM0_BASE => some (execPartConfigWrite h (Fin.ofNat 64 i) 0 0 v s)
  | .PART_HBM1_BASE => some (execPartConfigWrite h (Fin.ofNat 64 i) 1 0 v s)
  | .PART_CORES => some (execPartConfigWrite h (Fin.ofNat 64 (i / 8)) 3 (Fin.ofNat 8 i) v s)
  | .SHR_V => some (execShrWrite h (Fin.ofNat 8 i) v s)
  | .KIMP_CTL_PARTY => some (kimpCtl h v s)
  | _ => none

/-- Cores, dies, attention rule and collectives (R231, R284, R387, R415). -/
def unitOwn (h : Half) (f : Fld) (i v : Nat) (s : State) : Option Res :=
  match f with
  | .core .CORE_CFG_BANK_SPLIT => some (execCoreCfgWrite h i (bitsAt v 0 2) s)
  | .core .CORE_CNT_CLR => some (execCoreCntClr h i (bitsAt v 0 3) s)
  | .core .DC_CTL_INV => some (ifBit v 0 (execDieCacheInvalidate h (Fin.ofNat 4 i)) s)
  | .attn .ATTN_RULE_SPLIT_MIN => some (execAttnRuleWrite h (bitsAt v 16 16) (bitsAt v 0 16) s)
  | .coll .COLL_CFG_TMO_DEF => some (execCollCfgWrite h (bitsAt v 0 20) s)
  | .coll .GRP_ID => some (execGrpCfgWrite h (Fin.ofNat 256 i) 0 v s)
  | .coll .GRP_CFG_V => some (execGrpCfgWrite h (Fin.ofNat 256 i) 1 v s)
  | .coll .GRP_BOX_OX => some (execGrpCfgWrite h (Fin.ofNat 256 i) 2 v s)
  | .irq .IRQ_ROUTE_EN => some (execIrqRouteWrite h (Fin.ofNat 15 i) (v.testBit 31) (Fin.ofNat 64 (bitsAt v 24 6)) (bitsAt v 0 16) s)
  | .pkg .POOL_CTL_QUIESCE => some (poolCtl h v s)
  | .boot .LOWLAND_CTL_EXIT => some (ifBit v 0 (execLowlandExit h) s)
  | _ => none

/-- The effect of writing a register that has one of its own, by its first writable field; `none` for a register without one. -/
def ownWrite (h : Half) (fn : Nat) (f : Fld) (i v : Nat) (s : State) : Option Res :=
  match f with
  | .host g => hostOwn h fn g i v s
  | .desc g => descOwn h fn g i v s
  | .flt g => fltOwn h g i v s
  | .tel g => telOwn h g i v s
  | .thm g => thmOwn h g i v s
  | .fab g => fabOwn h g i v s
  | .tim g => timOwn h g i v s
  | .kv g => kvOwn h g i v s
  | .sched g => schedOwn h g i v s
  | .egr g => egrOwn h g v s
  | .sec g => secOwn h g i v s
  | g => unitOwn h g i v s

/-! ### Writing (R24, R134, R140) -/

/-- One field written by its access type (Table 0.10). -/
def writeField (s : State) (h : Half) (f : FieldRow) (i v : Nat) : State :=
  let x := bitsAt v f.lo f.fld.width
  let old := s.rd f.fld h i
  match f.acc with
  | .rw => s.wr f.fld h x i
  | .rwl => if locked s h then s else s.wr f.fld h x i
  | .w1c => s.wr f.fld h (clearBits old x) i
  | .w1s => s.wr f.fld h (setBits old x) i
  | .wo => s.wr f.fld h x i
  | .ro | .rs => s

/-- A field that a write can change now: RO fields never, RWL fields until the lock (R24). -/
def writable (s : State) (h : Half) (f : FieldRow) : Bool :=
  match f.acc with
  | .ro | .rs => f.own
  | .rwl => !locked s h
  | _ => true

/-- A write to a register without a field that software writes: discarded; THERM_STATUS.LAST_STATUS records it where R96 names the
register. -/
def readOnlyWrite (s : State) (h : Half) (r : RegRow) : State :=
  if s.holds h = true ∧ r.fields.any (fun f => [Fld.thm .THERM_MEAS0_T_OUT, .thm .THERM_MEAS1_DEMAND, .thm .FB_PERIOD_PERIOD,
      .thm .FB_COUNT_WIN].contains f.fld) = true then thermStatus s h ST_OK
  else s

/-- A register written whole: by its own command where it has one, else field by field. -/
def writeReg (s : State) (h : Half) (fn : Nat) (r : RegRow) (i v : Nat) : Res :=
  let k := if r.wide then Half.h0 else h
  let plain : Res := .next (r.fields.foldl (fun t f => if f.own then t else writeField t k f i v) s)
  match r.fields.find? fun f => f.own || (f.acc != .ro && f.acc != .rs) with
  | some f => (ownWrite h fn f.fld i v s).getD plain
  | none => .next (readOnlyWrite s h r)

/-- A word of an MSI-X table entry written; unmasking sends a pending message (R168). -/
def writeMsix (s : State) (h : Half) (fn vec word v : Nat) : Res :=
  let i := fn * 64 + vec
  let a := s.rd (.host .MSIX_ADDR) h i
  match word with
  | 0 => .next (s.wr (.host .MSIX_ADDR) h (a / 2 ^ 32 * 2 ^ 32 + v % 2 ^ 32) i)
  | 1 => .next (s.wr (.host .MSIX_ADDR) h (a % 2 ^ 32 + v % 2 ^ 32 * 2 ^ 32) i)
  | 2 => .next (s.wr (.host .MSIX_DATA) h v i)
  | _ => if v.testBit 0 then .next (s.wr (.host .MSIX_MASK) h 1 i) else execMsixUnmask h fn vec s

/-- A write to this place disturbs a staged low word: not one to a register that no write changes now (§4.5, "At the edges"). -/
def disturbs (s : State) (h : Half) (p : BarPlace) : Bool :=
  match p with
  | .reg r _ _ view => !view && r.fields.any (writable s h)
  | .data _ => false
  | _ => true

/-- The 4 bytes of a place written, where they are a whole 32-bit register. -/
def writePlace (s : State) (h : Half) (fn : Nat) (p : BarPlace) (v : Nat) : Res :=
  match p with
  | .reg r i _ view => if view then .next s else writeReg s h fn r i v
  | .plan k w => execShipPlanWrite h (Fin.ofNat 256 k) (Fin.ofNat 32 w) v s
  | .msix vec w => writeMsix s h fn vec w v
  | .data _ => .next s
  | .unmapped => .next s

/-- The 64-bit register whose low word (`o` = 0) or high word (`o` = 4) lies at a place, when writes reach it. -/
def wideAt (p : BarPlace) (o : Nat) : Option (RegRow × Nat) :=
  match p with
  | .reg r i k view => if r.bytes = 8 ∧ k = o ∧ view = false then some (r, i) else none
  | _ => none

/-- A 4-byte write of the low word of a 64-bit register: held in the write shadow, an earlier word discarded (R140). -/
def stageLow (s : State) (h : Half) (fn off v : Nat) : State :=
  let s1 := dropStaged s h fn
  (s1.wr (.host .STAGE_TAG) h (off + 1) fn).wr (.host .STAGE_LOW) h v fn

/-- A 4-byte write of the high word: both words at one instant, with the staged low word or the current one (R140). -/
def writeHigh (s : State) (h : Half) (fn off v : Nat) (r : RegRow) (i : Nat) : Res :=
  if s.rd (.host .STAGE_TAG) h fn = off - 4 + 1 then
    writeReg (s.wr (.host .STAGE_TAG) h 0 fn) h fn r i (s.rd (.host .STAGE_LOW) h fn + v % 2 ^ 32 * 2 ^ 32)
  else writeReg (dropStaged s h fn) h fn r i (readReg s h r i % 2 ^ 32 + v % 2 ^ 32 * 2 ^ 32)

/-- A 4-byte access that writes. One that reaches no writable register leaves the staged word (R140), but a refusal is still recorded
(R96). -/
def write4 (s : State) (h : Half) (fn off v : Nat) : Res :=
  let p := placeOf s h fn off
  let s1 := countHoles s h fn off 1
  let d := disturbs s h p
  match wideAt p 0, wideAt p 4 with
  | some _, _ => .next (if d then stageLow s1 h fn off v else s1)
  | none, some q => if d then writeHigh s1 h fn off v q.1 q.2 else .next s1
  | none, none => writePlace (if d then dropStaged s1 h fn else s1) h fn p v

/-- The 8 bytes of an aligned offset written: a 64-bit register at one instant, or two registers (R137, R140). -/
def place8 (s : State) (h : Half) (fn off v : Nat) : Res :=
  let p := placeOf s h fn off
  match wideAt p 0 with
  | some r => writeReg s h fn r.1 r.2 (v % 2 ^ 64)
  | none => resThen (writePlace s h fn p (v % 2 ^ 32)) fun t => writePlace t h fn (placeOf s h fn (off + 4)) (v / 2 ^ 32 % 2 ^ 32)

/-- An 8-byte access that writes. -/
def write8 (s : State) (h : Half) (fn off v : Nat) : Res :=
  let s1 := countHoles s h fn off 2
  let staged := disturbs s h (placeOf s h fn off) || disturbs s h (placeOf s h fn (off + 4))
  place8 (if staged then dropStaged s1 h fn else s1) h fn off v

/-- REG_WRITE (R24, R25, R135, R140): a 4-byte or an 8-byte write of a function to its BAR0. -/
def execRegWrite (h : Half) (fn off : Nat) (wide : Bool) (v : Nat) (s : State) : Res :=
  if barReach s h fn = true ∧ off % (if wide then 8 else 4) = 0 then
    if wide then write8 s h fn off v else write4 s h fn off (v % 2 ^ 32)
  else .next s

/-- REG64_WRITE_LOW (R140): the low word of a 64-bit register that software writes, staged. -/
def execReg64WriteLow (h : Half) (fn off v : Nat) (s : State) : Res :=
  if barReach s h fn = true ∧ off % 8 = 0 then
    let p := placeOf s h fn off
    if (wideAt p 0).isSome ∧ disturbs s h p = true then .next (stageLow s h fn off v) else .next s
  else .next s

/-- REG64_WRITE_HIGH (R140): the register written whole, with the staged low word or the current one. -/
def execReg64WriteHigh (h : Half) (fn off v : Nat) (s : State) : Res :=
  if barReach s h fn = true ∧ off % 8 = 4 then
    let p := placeOf s h fn off
    match wideAt p 4 with
    | some q => if disturbs s h p then writeHigh s h fn off v q.1 q.2 else .next s
    | none => .next s
  else .next s

/-! ### Memory requests (R132, R135, R137) -/

/-- A request's pieces: cut at each 8-byte boundary, in ascending order. -/
def cutPieces : Nat → Nat → Nat → List (Nat × Nat)
  | 0, _, _ => []
  | fuel + 1, off, len =>
    if len = 0 then []
    else
      let k := min len (8 - off % 8)
      (off, k) :: cutPieces fuel (off + k) (len - k)

/-- A piece that reads: an 8-byte or a 4-byte access, or a narrow one, which gives the addressed bytes of the 4-byte values that hold
them and latches no shadow (R135, R137, R138). -/
def readPiece (s : State) (h : Half) (fn off len : Nat) : State × List Byte :=
  if len = 8 then (countHoles s h fn off 2, leBytes 8 (read8 s h fn off))
  else if len = 4 ∧ off % 4 = 0 then
    let r := readWord s h fn off
    (r.1, leBytes 4 r.2)
  else (countHoles s h fn (off / 4 * 4) ((off % 4 + len + 3) / 4), ((leBytes 8 (read8 s h fn (off / 8 * 8))).drop (off % 8)).take len)

/-- A piece that writes. A narrow one is discarded and counted in BAD_WIDTH, wherever it lies; ACC_CNT.UNMAPPED counts it not (DEDUCED,
log entry 61). -/
def writePiece (s : State) (h : Half) (fn off : Nat) (data : List Byte) : Res :=
  if data.length = 8 then write8 s h fn off (leNat data)
  else if data.length = 4 ∧ off % 4 = 0 then write4 s h fn off (leNat data)
  else .next (countBadWidth (dropStaged s h fn) h fn)

/-- Bytes of a function's BAR (Table 4.3). -/
def barSize (fn : Nat) (bar : Bar) : Nat :=
  match bar with
  | .bar0 => if fn = pf then 2 ^ 26 else 2 ^ 14
  | .bar2 | .bar4 => 2 ^ 15

/-- A write to a doorbell page: a naturally aligned one of 4 or 8 bytes at 0x000 rings the ring, and at 0x008 returns records; another one
that covers them is counted in BAD_WIDTH, and the rest of the page discards (R150, R164, §4.7 "At the edges"). -/
def doorbellPage (h : Half) (ring o : Nat) (data : List Byte) (s : State) : Res :=
  let n := data.length
  let covers (at_ : Nat) : Bool := decide (o < at_ + 4 ∧ at_ < o + n)
  if covers 0 = false ∧ covers 8 = false then .next (dropStaged s h (ringFn ring))
  else if (n ≠ 4 ∧ n ≠ 8) ∨ o % n ≠ 0 then .next (countBadWidth (dropStaged s h (ringFn ring)) h (ringFn ring))
  else if o = 0 then execDoorbellWrite h ring (leNat (data.take 2)) s
  else execCqDoorbellWrite h ring (leNat (data.take 2)) s

/-- NARROW_ACCESS (R132, R135, R137): a memory request of a function to one of its BARs. A request to BAR0 is handled piece by piece; ring
k has page k of BAR2 and of BAR4, of which doorbell pages read zero and slot pages read their slots (§4.8 "At the edges"). -/
def execNarrowAccess (h : Half) (fn : Nat) (bar : Bar) (off len : Nat) (data : Option (List Byte)) (s : State) : Res :=
  if barReach s h fn = true ∧ 1 ≤ len ∧ off + len ≤ barSize fn bar then
    let ring := fnRing fn (off / 0x1000)
    match bar, data with
    | .bar0, none =>
      let r := (cutPieces len off len).foldl (fun q p =>
        let d := readPiece q.1 h fn p.1 p.2
        (d.1, q.2 ++ d.2)) (s, ([] : List Byte))
      .next (r.1.emit (.readData h fn (leNat r.2)))
    | .bar0, some d =>
      (cutPieces len off len).foldl (fun q p => resThen q fun t => writePiece t h fn p.1 (((d ++ zeros len).drop (p.1 - off)).take p.2))
        (.next s)
    | .bar2, none => .next (s.emit (.readData h fn 0))
    | .bar2, some d => doorbellPage h ring (off % 0x1000) ((d ++ zeros len).take len) s
    | .bar4, none =>
      .next (s.emit (.readData h fn (leNat (s.slots.readN (slotByte h ring 0 (off % 0x1000)) len))))
    | .bar4, some d => execPinnedSlotWrite h ring (off % 0x1000) ((d ++ zeros len).take len) s
  else .next s

/-- COUNTER_SNAP (R141, R547, R548): the PF snaps any group of its half; a VF its own PART group, and the histogram it sees. -/
def execCounterSnap (h : Half) (fn g : Nat) (s : State) : Res :=
  if fn = pf ∨ (fnExists s h fn = true ∧ fn < pf ∧ (g = 32 + fn ∨ (vfHist s h fn).map (16 + ·) = some g)) then .next (snapGroup s h g)
  else .next s

/-! ### The fabric manager's accesses (R378) -/

/-- A management request is performed: REMOTE_EN, from FM_NODE, an 8-byte aligned offset of 0x0000 to 0x1FFF; a write only to RT_SEL, a
route table or a PORT_CTL. -/
def mgmtAllowed (s : State) (h : Half) (p : Packet) (write : Bool) : Bool :=
  let off := fieldAt p.transport 4 4
  s.rd (.fab .FAB_MGMT_REMOTE_EN) h == 1 && s.rd (.fab .FAB_MGMT_FM_V) h == 1 && p.src == s.rd (.fab .FAB_MGMT_FM_NODE) h &&
    off % 8 == 0 && decide (off < 0x2000) && p.payload == [] &&
    (!write || (decide (0x40 ≤ off) && decide (off < 0x60)) || (off % 0x100 == 0 && within 0x1000 off 0x1500))

/-- MGMT_RESP to the requester. -/
def mgmtAnswer (s : State) (h : Half) (p : Packet) (value status : Nat) : State :=
  (injectPacket s h (newPacket s h p.src 0x12
    ((p.transport ++ zeros 8).take 8 ++ leBytes 8 value ++ leBytes 2 status) [])).2

/-- MGMT_READ (R378). -/
def execMgmtRead (h : Half) (s : State) : Res :=
  match takeTime s h 0x10 with
  | none => .next s
  | some (p, s1) =>
    let off := 0xA00000 + fieldAt p.transport 4 4
    if mgmtAllowed s h p false then .next (mgmtAnswer (countHoles s1 h pf off 2) h p (read8 s1 h pf off) ST_OK)
    else .next (mgmtAnswer s1 h p 0 ST_FAB_REMOTE)

/-- The status that an accepted remote write is answered with: ST_OK, or the refusal of a register it writes (R376, R378). -/
def mgmtOutcome (s : State) (h : Half) (off v : Nat) : Nat :=
  let outcome (t : State) : Nat :=
    if 0x1000 ≤ off then t.rd (.fab .PORT_STATUS_LAST_STATUS) h ((off - 0x1000) / 0x100) else t.rd (.fab .FAB_STATUS_LAST_STATUS) h
  let after (t : State) (at_ w : Nat) : State :=
    match writePlace t h pf (placeOf s h pf (0xA00000 + at_)) w with
    | .next u => u
    | _ => t
  let one := after s off (v % 2 ^ 32)
  if outcome one ≠ ST_OK ∨ 0x1000 ≤ off then outcome one else outcome (after one (off + 4) (v / 2 ^ 32 % 2 ^ 32))

/-- MGMT_WRITE (R378). -/
def execMgmtWrite (h : Half) (s : State) : Res :=
  match takeTime s h 0x11 with
  | none => .next s
  | some (p, s1) =>
    if mgmtAllowed s h p true then
      let off := fieldAt p.transport 4 4
      let v := fieldAt p.transport 8 8
      resThen (write8 s1 h pf (0xA00000 + off) v) fun t => .next (mgmtAnswer t h p 0 (mgmtOutcome s1 h off v))
    else .next (mgmtAnswer s1 h p 0 ST_FAB_REMOTE)

end Sys2Proof.Machine
end

