-- ==== Sys2Proof/Machine/Spdm.lean ====
section
/-!
DEFINITION. Machine/Spdm.lean: the SPDM 1.3 responder (R501 to R503, R507) and PCIe IDE (R504).
-/

namespace Sys2Proof.Machine

/-- An answer sent on a transport. -/
def answer (s : State) (h : Half) (mctp : Bool) (r : SpdmRsp) : State := s.emit (.spdm h mctp r)

/-- The transport's responder is there: the half's DOE, or the MCTP endpoint, which answers for the chip while its bus is not stuck (R501,
R562). -/
def spdmHere (s : State) (h : Half) (mctp : Bool) : Bool :=
  s.rd (.boot .FW_RUNNING) h == 1 && (!mctp || (s.holds h && !busStuck s h))

/-- The chip is in Lowland mode with cause SECURITY: no key to sign with (R503). -/
def spdmMute (s : State) (h : Half) : Bool := s.lowland h && (s.rd (.boot .LOWLAND_STATUS_CAUSE) .h0).testBit 3

/-- A request answered by `f`, with the ERROR of R503 under cause SECURITY. -/
def spdmRun (h : Half) (mctp : Bool) (s : State) (f : State) : Res :=
  if spdmHere s h mctp = false then .next s
  else if spdmMute s h then .next (answer s h mctp (.error 0))
  else .next f

/-- The connection has agreed on its algorithms. -/
def negotiated (s : State) (h : Half) (mctp : Bool) : Bool := s.rd (.sec .SPDM_STAGE) h (bit mctp) == 3

/-- The FAK's signature over a transcript, whose bytes the SPDM standard lays out: 96 bytes (log entry 5). -/
def fakSignature (s : State) : List Nat := beBytes 96 (Config.freeValue s.freeCount)

/-- The chain of slot 0 and its digest. -/
def slotChain (s : State) (h : Half) : List Nat := Config.certChain (fakBytes s h)

/-- SPDM_GET_VERSION (R501, R503). -/
def execSpdmGetVersion (h : Half) (mctp : Bool) (s : State) : Res :=
  if spdmHere s h mctp then .next (answer (s.wr (.sec .SPDM_STAGE) h 1 (bit mctp)) h mctp .version) else .next s

/-- SPDM_GET_CAPABILITIES (R501, R503). -/
def execSpdmGetCapabilities (h : Half) (mctp : Bool) (s : State) : Res :=
  if spdmHere s h mctp = false then .next s
  else if s.rd (.sec .SPDM_STAGE) h (bit mctp) = 0 then .next (answer s h mctp (.error 1))
  else .next (answer (s.wr (.sec .SPDM_STAGE) h 2 (bit mctp)) h mctp .capabilities)

/-- SPDM_NEGOTIATE_ALGORITHMS (R501). -/
def execSpdmNegotiateAlgorithms (h : Half) (mctp : Bool) (s : State) : Res :=
  spdmRun h mctp s (if s.rd (.sec .SPDM_STAGE) h (bit mctp) < 2 then answer s h mctp (.error 1)
    else answer (s.wr (.sec .SPDM_STAGE) h 3 (bit mctp)) h mctp .algorithms)

/-- SPDM_GET_DIGESTS (R501). -/
def execSpdmGetDigests (h : Half) (mctp : Bool) (s : State) : Res :=
  spdmRun h mctp s (if negotiated s h mctp then answer s h mctp (.digests (sha384 (slotChain s h))) else answer s h mctp (.error 1))

/-- SPDM_GET_CERTIFICATE (R501): slot 0 alone. -/
def execSpdmGetCertificate (h : Half) (mctp : Bool) (slot : Fin 8) (s : State) : Res :=
  spdmRun h mctp s (if negotiated s h mctp ∧ slot.val = 0 then answer s h mctp (.certificate (slotChain s h))
    else answer s h mctp (.error 1))

/-- SPDM_CHALLENGE (R501). -/
def execSpdmChallenge (h : Half) (mctp : Bool) (s : State) : Res :=
  spdmRun h mctp s (if negotiated s h mctp then
      answer (drawFree s) h mctp (.challengeAuth (sha384 (slotChain s h)) (fakSignature s))
    else answer s h mctp (.error 1))

/-- PKG_MAP as a number (Table 1.9). -/
def pkgMapWord (s : State) : Nat :=
  s.rd (.pkg .PKG_MAP_TDIE_OK) .h0 + 2 ^ 16 * s.rd (.pkg .PKG_MAP_HUB0_OK) .h0 + 2 ^ 17 * s.rd (.pkg .PKG_MAP_HUB1_OK) .h0 +
    2 ^ 18 * s.rd (.pkg .PKG_MAP_M0_OK) .h0 + 2 ^ 19 * s.rd (.pkg .PKG_MAP_M1_OK) .h0

/-- SHA-384 of an image's bytes that `f` picks, of no bytes where there is no image. -/
def imageDigest (i : Option FlashImage) (f : FlashImage → List Byte) : List Nat := sha384 (toNats (i.elim [] f))

/-- A measurement block of Table 15.7. The raw block 5 is given as its values in the table's order; the layouts that the spec does
not state are Config.adBytes (log entry 5). -/
def measureBlock (s : State) (h : Half) (i : Nat) : List Nat :=
  if i = 1 then Config.romDigest
  else if i = 2 then imageDigest (runningImage s h) fun x => imageHeader x ++ imageBody x
  else if i = 3 then imageDigest (runningImage s h) fun x => x.manifest.flatten
  else if i = 4 then imageDigest (recordOf s h) fun x => imageHeader x ++ imageBody x
  else if i = 5 then
    [s.rd (.sec .SEC_STATUS_APPROVED) h, s.rd (.sec .ARB_STATUS_ARB) h, s.rd (.sec .KEY_REVOKED) .h0, pkgMapWord s,
      s.rd (.host .SETUP_LOCK_LOCK) h]
  else sha384 (Config.adBytes ((List.range 64).flatMap (partEntry s h)))

/-- SPDM_GET_MEASUREMENTS (R502): one block, or all of them for index 0xFF. -/
def execSpdmGetMeasurements (h : Half) (mctp : Bool) (index : Nat) (s : State) : Res :=
  let blocks := if index = 0xFF then [1, 2, 3, 4, 5, 6] else if 1 ≤ index ∧ index ≤ 6 then [index] else []
  spdmRun h mctp s (if negotiated s h mctp ∧ blocks ≠ [] then
      answer (drawFree s) h mctp (.measurements (blocks.map fun i => (i, measureBlock s h i)) (fakSignature s))
    else answer s h mctp (.error 1))

/-! ### Sessions -/

/-- A session by its transport and identifier. -/
def SpdmSession.is (x : SpdmSession) (h : Half) (mctp : Bool) (id : Nat) : Bool := x.half == h && x.mctp == mctp && x.id == id

/-- CO_AUTH of a half: a mutually authenticated session is open on its DOE, with a certificate that chains to CO_ROOT (R507). -/
def refreshAuth (s : State) (h : Half) : State :=
  s.wr (.sec .SEC_STATUS_CO_AUTH) h (bit (s.spdm.any fun x => x.half == h && !x.mctp && x.auth && x.root && x.open_))

/-- A session changed or ended. -/
def editSession (s : State) (h : Half) (mctp : Bool) (id : Nat) (f : SpdmSession → Option SpdmSession) : State :=
  refreshAuth { s with spdm := s.spdm.filterMap fun x => if x.is h mctp id then f x else some x } h

/-- An open session. -/
def openSession (s : State) (h : Half) (mctp : Bool) (id : Nat) : Bool := s.spdm.any fun x => x.is h mctp id && x.open_

/-- SPDM_KEY_EXCHANGE (R501): a session identifier is given, at most 4 per transport of a half. -/
def execSpdmKeyExchange (h : Half) (mctp auth : Bool) (s : State) : Res :=
  let used := s.spdm.filter fun x => x.half == h && x.mctp == mctp
  let free := (List.range 4).find? fun i => !(used.any fun x => x.id == i)
  spdmRun h mctp s (if negotiated s h mctp = false then answer s h mctp (.error 1)
    else match free with
      | none => answer s h mctp (.error 3)
      | some id => answer { drawFree s with spdm := s.spdm ++ [⟨h, mctp, id, auth, false, false, 0⟩] } h mctp
          (.keyExchange id (fakSignature s)))

/-- SPDM_FINISH (R507): `ok` when the requester's proof verifies; `root` is SHA-384 of the root that its certificate chains to, compared
with the CO_ROOT of the record that the half has loaded. -/
def execSpdmFinish (h : Half) (mctp : Bool) (id : Fin 4) (ok : Bool) (root : List Byte) (s : State) : Res :=
  spdmRun h mctp s (if s.spdm.any fun x => x.is h mctp id.val && !x.open_ then
      if ok then
        let opened (x : SpdmSession) : SpdmSession := { x with open_ := true, root := coRoot s h == some root }
        answer (editSession s h mctp id.val fun x => some (opened x)) h mctp (.finish id.val)
      else answer (editSession s h mctp id.val fun _ => none) h mctp (.error 4)
    else answer s h mctp (.error 2))

/-- SPDM_HEARTBEAT (R501). -/
def execSpdmHeartbeat (h : Half) (mctp : Bool) (id : Fin 4) (s : State) : Res :=
  spdmRun h mctp s (answer s h mctp (if openSession s h mctp id.val then .heartbeat id.val else .error 2))

/-- SPDM_KEY_UPDATE (R501): the session's keys are replaced. -/
def execSpdmKeyUpdate (h : Half) (mctp : Bool) (id : Fin 4) (s : State) : Res :=
  spdmRun h mctp s (if openSession s h mctp id.val then
      answer (editSession s h mctp id.val fun x => some { x with keyGen := x.keyGen + 1 }) h mctp (.keyUpdate id.val)
    else answer s h mctp (.error 2))

/-- SPDM_END_SESSION (R507). -/
def execSpdmEndSession (h : Half) (mctp : Bool) (id : Fin 4) (s : State) : Res :=
  spdmRun h mctp s (if openSession s h mctp id.val then
      answer (editSession s h mctp id.val fun _ => none) h mctp (.endSession id.val)
    else answer s h mctp (.error 2))

/-! ### IDE (R504) -/

/-- LINK_STATUS.IDE: an IDE stream is active. -/
def refreshIde (s : State) (h : Half) : State :=
  s.wr (.host .LINK_STATUS_IDE) h (bit ((List.range 5).any fun i => s.rd (.sec .IDE_ON) h i == 1))

/-- A key set of a stream stopped: its key is zeroized, and with the set in use the stream ends. -/
def stopKeySet (s : State) (h : Half) (i k : Nat) : State :=
  if s.rd (.sec .IDE_ON) h i = 1 ∧ s.rd (.sec .IDE_SET) h i = k then ideStop s h i
  else (s.wr (.sec .IDE_KEY) h 0 (2 * i + k)).wr (.sec .IDE_KEY_V) h 0 (2 * i + k)

/-- IDE_KM (R504): within a session with the PF, a key set of a stream is programmed; started, which toggles a running stream to it, the key
refresh of Table 15.8; or stopped. -/
def execIdeKm (h : Half) (id : Fin 4) (stream : Fin 5) (op : IdeOp) (key : Nat) (s : State) : Res :=
  let i := stream.val
  spdmRun h false s (if openSession s h false id.val = false then answer s h false (.error 2)
    else match op with
      | .prog k =>
        answer ((s.wr (.sec .IDE_KEY) h key (2 * i + k.val)).wr (.sec .IDE_KEY_V) h 1 (2 * i + k.val)) h false (.ideKm id.val)
      | .go k =>
        if s.rd (.sec .IDE_KEY_V) h (2 * i + k.val) = 1 then
          answer (refreshIde ((s.wr (.sec .IDE_ON) h 1 i).wr (.sec .IDE_SET) h k.val i) h) h false (.ideKm id.val)
        else answer s h false (.error 1)
      | .stop k => answer (refreshIde (stopKeySet s h i k.val) h) h false (.ideKm id.val))

/-- IDE_SECURE_LOST (R504): a stream leaves the Secure state; LINK_STATUS.IDE clears, and the half acts as for DL_Down. -/
def execIdeSecureLost (h : Half) (stream : Fin 5) (s : State) : Res :=
  if s.rd (.sec .IDE_ON) h stream.val = 1 then .next (dlDown (ideStop s h stream.val) h) else .next s

end Sys2Proof.Machine
end

