-- ==== Sys2Proof/Machine/Dispatch.lean ====
section
/-!
DEFINITION. Machine/Dispatch.lean: one arm for each command.
-/

namespace Sys2Proof.Machine

def exec (i : Instr) (s : State) : Host.Outcome State Fault Refusal :=
  match i with
  | .passFlitReceive h replays => Sys2Proof.Machine.execPassFlitReceive h replays s
  | .passReplayExhaust h => Sys2Proof.Machine.execPassReplayExhaust h s
  | .passRealignDone h => Sys2Proof.Machine.execPassRealignDone h s
  | .passLockLost h => Sys2Proof.Machine.execPassLockLost h s
  | .passSidebandLost h => Sys2Proof.Machine.execPassSidebandLost h s
  | .hbmRead h who a len err chan => Sys2Proof.Machine.execHbmRead h who a len err chan s
  | .hbmWrite h who a data err chan => Sys2Proof.Machine.execHbmWrite h who a data err chan s
  | .hostAccessFail h point => Sys2Proof.Machine.execHostAccessFail h point s
  | .poolCommit h => Sys2Proof.Machine.execPoolCommit h s
  | .poolQuiesceSet h on => Sys2Proof.Machine.execPoolQuiesceSet h on s
  | .poolGranuleRequest h cls n unit => Sys2Proof.Machine.execPoolGranuleRequest h cls n unit s
  | .poolGranuleRelease h cls => Sys2Proof.Machine.execPoolGranuleRelease h cls s
  | .poolUnitComplete h cls tag => Sys2Proof.Machine.execPoolUnitComplete h cls tag s
  | .poolForceRelease h cls tag => Sys2Proof.Machine.execPoolForceRelease h cls tag s
  | .pkgServiceUpdate => Sys2Proof.Machine.execPkgServiceUpdate s
  | .platRequest h noticeMs target => Sys2Proof.Machine.execPlatRequest h noticeMs target s
  | .platCancel h => Sys2Proof.Machine.execPlatCancel h s
  | .platPllLocked die => Sys2Proof.Machine.execPlatPllLocked die s
  | .platPllTimeout => Sys2Proof.Machine.execPlatPllTimeout s
  | .platSwitchTime => Sys2Proof.Machine.execPlatSwitchTime s
  | .platDrainDone => Sys2Proof.Machine.execPlatDrainDone s
  | .thermStart h => Sys2Proof.Machine.execThermStart h s
  | .thermModeSet h manual => Sys2Proof.Machine.execThermModeSet h manual s
  | .thermLoopPeriod tIn tOut tj => Sys2Proof.Machine.execThermLoopPeriod tIn tOut tj s
  | .thermFailHoldExpire => Sys2Proof.Machine.execThermFailHoldExpire s
  | .thermSensLossExpire => Sys2Proof.Machine.execThermSensLossExpire s
  | .thermAutoDownExpire => Sys2Proof.Machine.execThermAutoDownExpire s
  | .thermConfigWrite h reg v => Sys2Proof.Machine.execThermConfigWrite h reg v s
  | .pwmReload h n => Sys2Proof.Machine.execPwmReload h n s
  | .pwmUpdate h n => Sys2Proof.Machine.execPwmUpdate h n s
  | .pwmShadowWrite h n reg v => Sys2Proof.Machine.execPwmShadowWrite h n reg v s
  | .pwmEnable h n => Sys2Proof.Machine.execPwmEnable h n s
  | .pwmDisable h n => Sys2Proof.Machine.execPwmDisable h n s
  | .trigConfigWrite h k en timed ch width at_ => Sys2Proof.Machine.execTrigConfigWrite h k en timed ch width at_ s
  | .trigSyncPulse h k => Sys2Proof.Machine.execTrigSyncPulse h k s
  | .pinPulseEnd h pin => Sys2Proof.Machine.execPinPulseEnd h pin s
  | .fbEdge h n onB levelB => Sys2Proof.Machine.execFbEdge h n onB levelB s
  | .fbPositionWrite h n v => Sys2Proof.Machine.execFbPositionWrite h n v s
  | .fbZsTimeout h n => Sys2Proof.Machine.execFbZsTimeout h n s
  | .fbWindowEnd h n => Sys2Proof.Machine.execFbWindowEnd h n s
  | .fbModeSet h n mode => Sys2Proof.Machine.execFbModeSet h n mode s
  | .fbClrGlitch h n => Sys2Proof.Machine.execFbClrGlitch h n s
  | .auxKeyChange pattern => Sys2Proof.Machine.execAuxKeyChange pattern s
  | .auxFaultDetect pin code => Sys2Proof.Machine.execAuxFaultDetect pin code s
  | .auxShortRetry pin persists => Sys2Proof.Machine.execAuxShortRetry pin persists s
  | .auxDiagClr h mask => Sys2Proof.Machine.execAuxDiagClr h mask s
  | .auxOutputDrive h => Sys2Proof.Machine.execAuxOutputDrive h s
  | .powerGoodRise => Sys2Proof.Machine.execPowerGoodRise s
  | .powerGoodFall tearing => Sys2Proof.Machine.execPowerGoodFall tearing s
  | .strapSample h bootSel platInit smbAddr media fips => Sys2Proof.Machine.execStrapSample h bootSel platInit smbAddr media fips s
  | .strapCompare => Sys2Proof.Machine.execStrapCompare s
  | .romBoot h okA okB => Sys2Proof.Machine.execRomBoot h okA okB s
  | .selftestPreop h ok => Sys2Proof.Machine.execSelftestPreop h ok s
  | .roleSettle => Sys2Proof.Machine.execRoleSettle s
  | .settleSample tOut tj => Sys2Proof.Machine.execSettleSample tOut tj s
  | .settleTimeout => Sys2Proof.Machine.execSettleTimeout s
  | .startupDieTrain failed => Sys2Proof.Machine.execStartupDieTrain failed s
  | .startupHbmTrain failed => Sys2Proof.Machine.execStartupHbmTrain failed s
  | .startupPassTrain ok spares0 spares1 => Sys2Proof.Machine.execStartupPassTrain ok spares0 spares1 s
  | .startupPcieReady => Sys2Proof.Machine.execStartupPcieReady s
  | .startupCoreTest failing => Sys2Proof.Machine.execStartupCoreTest failing s
  | .startupPlateauEnable => Sys2Proof.Machine.execStartupPlateauEnable s
  | .plateauEnablePllTimeout => Sys2Proof.Machine.execPlateauEnablePllTimeout s
  | .computeReady => Sys2Proof.Machine.execComputeReady s
  | .stageBoundExceeded => Sys2Proof.Machine.execStageBoundExceeded s
  | .perstDeassert h => Sys2Proof.Machine.execPerstDeassert h s
  | .lowlandEnter => Sys2Proof.Machine.execLowlandEnter s
  | .lowlandExit h => Sys2Proof.Machine.execLowlandExit h s
  | .regWrite h fn off wide v => Sys2Proof.Machine.execRegWrite h fn off wide v s
  | .narrowAccess h fn bar off len data => Sys2Proof.Machine.execNarrowAccess h fn bar off len data s
  | .unmappedAccess h fn off write => Sys2Proof.Machine.execUnmappedAccess h fn off write s
  | .rsReadLow h fn off => Sys2Proof.Machine.execRsReadLow h fn off s
  | .rsReadHigh h fn off => Sys2Proof.Machine.execRsReadHigh h fn off s
  | .reg64WriteLow h fn off v => Sys2Proof.Machine.execReg64WriteLow h fn off v s
  | .reg64WriteHigh h fn off v => Sys2Proof.Machine.execReg64WriteHigh h fn off v s
  | .counterSnap h fn g => Sys2Proof.Machine.execCounterSnap h fn g s
  | .setupLockSet h => Sys2Proof.Machine.execSetupLockSet h s
  | .ringConfigWrite h ring reg v => Sys2Proof.Machine.execRingConfigWrite h ring reg v s
  | .ringEnable h ring => Sys2Proof.Machine.execRingEnable h ring s
  | .ringDisable h ring => Sys2Proof.Machine.execRingDisable h ring s
  | .ringFstop h ring => Sys2Proof.Machine.execRingFstop h ring s
  | .ringStopDrained h ring => Sys2Proof.Machine.execRingStopDrained h ring s
  | .doorbellWrite h ring pi => Sys2Proof.Machine.execDoorbellWrite h ring pi s
  | .descFetch h ring => Sys2Proof.Machine.execDescFetch h ring s
  | .descFetchComplete h ring data => Sys2Proof.Machine.execDescFetchComplete h ring data s
  | .descFetchFail h ring => Sys2Proof.Machine.execDescFetchFail h ring s
  | .pinAllocWrite h ring count => Sys2Proof.Machine.execPinAllocWrite h ring count s
  | .pinnedSlotWrite h ring off data => Sys2Proof.Machine.execPinnedSlotWrite h ring off data s
  | .pinnedRead h ring => Sys2Proof.Machine.execPinnedRead h ring s
  | .cqDoorbellWrite h ring ci => Sys2Proof.Machine.execCqDoorbellWrite h ring ci s
  | .evtRingWrite h fn en ring => Sys2Proof.Machine.execEvtRingWrite h fn en ring s
  | .coalTimeExpire h ring => Sys2Proof.Machine.execCoalTimeExpire h ring s
  | .msixUnmask h fn vec => Sys2Proof.Machine.execMsixUnmask h fn vec s
  | .perstAssert h => Sys2Proof.Machine.execPerstAssert h s
  | .hotReset h => Sys2Proof.Machine.execHotReset h s
  | .dlDown h => Sys2Proof.Machine.execDlDown h s
  | .flrPf h => Sys2Proof.Machine.execFlrPf h s
  | .flrVf h vf => Sys2Proof.Machine.execFlrVf h vf s
  | .bmeClear h fn => Sys2Proof.Machine.execBmeClear h fn s
  | .d3hotEnter h fn => Sys2Proof.Machine.execD3hotEnter h fn s
  | .chainRead h ring => Sys2Proof.Machine.execChainRead h ring s
  | .chainComplete h ring seq => Sys2Proof.Machine.execChainComplete h ring seq s
  | .evcValWrite h fn j v => Sys2Proof.Machine.execEvcValWrite h fn j v s
  | .evcAddWrite h fn j v => Sys2Proof.Machine.execEvcAddWrite h fn j v s
  | .evcAllocWrite h p base count => Sys2Proof.Machine.execEvcAllocWrite h p base count s
  | .reqAllocWrite h p base count => Sys2Proof.Machine.execReqAllocWrite h p base count s
  | .marker h ring seq => Sys2Proof.Machine.execMarker h ring seq s
  | .fence h ring seq => Sys2Proof.Machine.execFence h ring seq s
  | .barrier h ring seq => Sys2Proof.Machine.execBarrier h ring seq s
  | .timeWait h ring seq => Sys2Proof.Machine.execTimeWait h ring seq s
  | .eventOp h ring seq => Sys2Proof.Machine.execEventOp h ring seq s
  | .cancel h ring seq => Sys2Proof.Machine.execCancel h ring seq s
  | .reqOpen h ring seq => Sys2Proof.Machine.execReqOpen h ring seq s
  | .reqClose h ring seq => Sys2Proof.Machine.execReqClose h ring seq s
  | .requestFree h num => Sys2Proof.Machine.execRequestFree h num s
  | .matmul h ring seq => Sys2Proof.Machine.execMatmul h ring seq s
  | .fused h ring seq => Sys2Proof.Machine.execFused h ring seq s
  | .attn h ring seq => Sys2Proof.Machine.execAttn h ring seq s
  | .attnRing h ring seq => Sys2Proof.Machine.execAttnRing h ring seq s
  | .verify h ring seq => Sys2Proof.Machine.execVerify h ring seq s
  | .genStep h ring seq => Sys2Proof.Machine.execGenStep h ring seq s
  | .coll h ring seq => Sys2Proof.Machine.execColl h ring seq s
  | .kvAlloc h ring seq => Sys2Proof.Machine.execKvAlloc h ring seq s
  | .kvFree h ring seq => Sys2Proof.Machine.execKvFree h ring seq s
  | .kvPin h ring seq => Sys2Proof.Machine.execKvPin h ring seq s
  | .kvUnpin h ring seq => Sys2Proof.Machine.execKvUnpin h ring seq s
  | .kvSpill h ring seq => Sys2Proof.Machine.execKvSpill h ring seq s
  | .kvPrefetch h ring seq => Sys2Proof.Machine.execKvPrefetch h ring seq s
  | .kvRollback h ring seq => Sys2Proof.Machine.execKvRollback h ring seq s
  | .kvPause h ring seq => Sys2Proof.Machine.execKvPause h ring seq s
  | .kvResume h ring seq => Sys2Proof.Machine.execKvResume h ring seq s
  | .kvPrefixLookup h ring seq => Sys2Proof.Machine.execKvPrefixLookup h ring seq s
  | .kvPrefixInsert h ring seq => Sys2Proof.Machine.execKvPrefixInsert h ring seq s
  | .ship h ring seq => Sys2Proof.Machine.execShip h ring seq s
  | .copy h ring seq => Sys2Proof.Machine.execCopy h ring seq s
  | .adapterLoad h ring seq => Sys2Proof.Machine.execAdapterLoad h ring seq s
  | .tilePass h core slot => Sys2Proof.Machine.execTilePass h core slot s
  | .tileBoundary h core slot => Sys2Proof.Machine.execTileBoundary h core slot s
  | .vectorStep h core slot => Sys2Proof.Machine.execVectorStep h core slot s
  | .slotSwitch h core slot => Sys2Proof.Machine.execSlotSwitch h core slot s
  | .spEccError h core site off syndrome uncorr rmw => Sys2Proof.Machine.execSpEccError h core site off syndrome uncorr rmw s
  | .coreCfgWrite h core split => Sys2Proof.Machine.execCoreCfgWrite h core split s
  | .coreCntClr h core mask => Sys2Proof.Machine.execCoreCntClr h core mask s
  | .dieCacheInvalidate h die => Sys2Proof.Machine.execDieCacheInvalidate h die s
  | .contextDispatch h core slot => Sys2Proof.Machine.execContextDispatch h core slot s
  | .workFetch h core slot => Sys2Proof.Machine.execWorkFetch h core slot s
  | .workIndexReturn h core slot => Sys2Proof.Machine.execWorkIndexReturn h core slot s
  | .itemStart h core slot => Sys2Proof.Machine.execItemStart h core slot s
  | .bufferLoad h core slot isB => Sys2Proof.Machine.execBufferLoad h core slot isB s
  | .bufferLoadLanded h core slot isB => Sys2Proof.Machine.execBufferLoadLanded h core slot isB s
  | .splitkCombine h core slot => Sys2Proof.Machine.execSplitkCombine h core slot s
  | .haloReceive h core slot => Sys2Proof.Machine.execHaloReceive h core slot s
  | .fusedPhase2Start h core slot => Sys2Proof.Machine.execFusedPhase2Start h core slot s
  | .attnFold h core slot => Sys2Proof.Machine.execAttnFold h core slot s
  | .attnComposedUnit h core slot => Sys2Proof.Machine.execAttnComposedUnit h core slot s
  | .attnRangeCombine h core slot => Sys2Proof.Machine.execAttnRangeCombine h core slot s
  | .attnDemandPrefetch h core slot => Sys2Proof.Machine.execAttnDemandPrefetch h core slot s
  | .attnRingStep h ring seq => Sys2Proof.Machine.execAttnRingStep h ring seq s
  | .attnRingBlockLanded h ring seq keyBlock => Sys2Proof.Machine.execAttnRingBlockLanded h ring seq keyBlock s
  | .attnRuleWrite h splitMin composedMax => Sys2Proof.Machine.execAttnRuleWrite h splitMin composedMax s
  | .evictSlotHandover h num => Sys2Proof.Machine.execEvictSlotHandover h num s
  | .valleySpillStart h p => Sys2Proof.Machine.execValleySpillStart h p s
  | .valleySpillIssued h num layer head page => Sys2Proof.Machine.execValleySpillIssued h num layer head page s
  | .lookaheadPrefetch h num layer => Sys2Proof.Machine.execLookaheadPrefetch h num layer s
  | .valleyPrefetchLand h num layer head page => Sys2Proof.Machine.execValleyPrefetchLand h num layer head page s
  | .pfxFlush h => Sys2Proof.Machine.execPfxFlush h s
  | .kvQuotaWrite h reg idx v => Sys2Proof.Machine.execKvQuotaWrite h reg idx v s
  | .valleyConfigWrite h p reg v => Sys2Proof.Machine.execValleyConfigWrite h p reg v s
  | .budgetRefill h => Sys2Proof.Machine.execBudgetRefill h s
  | .schedSelect h => Sys2Proof.Machine.execSchedSelect h s
  | .slotGrant h core slot => Sys2Proof.Machine.execSlotGrant h core slot s
  | .urgentStandingDispatch h ring => Sys2Proof.Machine.execUrgentStandingDispatch h ring s
  | .ringSchedWrite h ring v => Sys2Proof.Machine.execRingSchedWrite h ring v s
  | .budgetCfgWrite h p v => Sys2Proof.Machine.execBudgetCfgWrite h p v s
  | .partyCfgWrite h q v => Sys2Proof.Machine.execPartyCfgWrite h q v s
  | .adpAllocWrite h p base count => Sys2Proof.Machine.execAdpAllocWrite h p base count s
  | .genStepStart h ring seq => Sys2Proof.Machine.execGenStepStart h ring seq s
  | .portTrain h port => Sys2Proof.Machine.execPortTrain h port s
  | .portAdminDown h port => Sys2Proof.Machine.execPortAdminDown h port s
  | .portPartnerDetect h port => Sys2Proof.Machine.execPortPartnerDetect h port s
  | .portTrainTimeout h port => Sys2Proof.Machine.execPortTrainTimeout h port s
  | .portPmdTrainDone h port lanes => Sys2Proof.Machine.execPortPmdTrainDone h port lanes s
  | .portFecLock h port lanes => Sys2Proof.Machine.execPortFecLock h port lanes s
  | .initFlitReceive h port version node dir sizes => Sys2Proof.Machine.execInitFlitReceive h port version node dir sizes s
  | .flitReceive h port bytes how => Sys2Proof.Machine.execFlitReceive h port bytes how s
  | .flitSendSlot h port => Sys2Proof.Machine.execFlitSendSlot h port s
  | .fabricReplayTimeout h port => Sys2Proof.Machine.execFabricReplayTimeout h port s
  | .fabricReplayExhaust h port => Sys2Proof.Machine.execFabricReplayExhaust h port s
  | .fabricRelockDone h port => Sys2Proof.Machine.execFabricRelockDone h port s
  | .laneFail h port lanes both errors => Sys2Proof.Machine.execLaneFail h port lanes both errors s
  | .degradeFlitReceive h port pair => Sys2Proof.Machine.execDegradeFlitReceive h port pair s
  | .laneDegradeDone h port => Sys2Proof.Machine.execLaneDegradeDone h port s
  | .downNoticeReceive h port => Sys2Proof.Machine.execDownNoticeReceive h port s
  | .packetRoute h => Sys2Proof.Machine.execPacketRoute h s
  | .packetInject h dst ptype transport payload => Sys2Proof.Machine.execPacketInject h dst ptype transport payload s
  | .mgmtRead h => Sys2Proof.Machine.execMgmtRead h s
  | .mgmtWrite h => Sys2Proof.Machine.execMgmtWrite h s
  | .portEventReceive h => Sys2Proof.Machine.execPortEventReceive h s
  | .fabTopologyWrite h reg v => Sys2Proof.Machine.execFabTopologyWrite h reg v s
  | .fabBufWrite h k lo hi => Sys2Proof.Machine.execFabBufWrite h k lo hi s
  | .rtSelWrite h bank => Sys2Proof.Machine.execRtSelWrite h bank s
  | .routeTableWrite h bank d v => Sys2Proof.Machine.execRouteTableWrite h bank d v s
  | .autoRt h => Sys2Proof.Machine.execAutoRt h s
  | .grpCfgWrite h g reg v => Sys2Proof.Machine.execGrpCfgWrite h g reg v s
  | .collRun h ring seq => Sys2Proof.Machine.execCollRun h ring seq s
  | .collCtsSend h ring seq seg => Sys2Proof.Machine.execCollCtsSend h ring seq seg s
  | .ctsReceive h => Sys2Proof.Machine.execCtsReceive h s
  | .collDataReceive h page head fill => Sys2Proof.Machine.execCollDataReceive h page head fill s
  | .doneReceive h => Sys2Proof.Machine.execDoneReceive h s
  | .countsReceive h => Sys2Proof.Machine.execCountsReceive h s
  | .notchValueReceive h => Sys2Proof.Machine.execNotchValueReceive h s
  | .notchBcastReceive h => Sys2Proof.Machine.execNotchBcastReceive h s
  | .notchAbortReceive h => Sys2Proof.Machine.execNotchAbortReceive h s
  | .collTimerExpire h ring seq => Sys2Proof.Machine.execCollTimerExpire h ring seq s
  | .collCfgWrite h tmo => Sys2Proof.Machine.execCollCfgWrite h tmo s
  | .egrEnable h => Sys2Proof.Machine.execEgrEnable h s
  | .egrDisable h => Sys2Proof.Machine.execEgrDisable h s
  | .egrConfigWrite h reg v => Sys2Proof.Machine.execEgrConfigWrite h reg v s
  | .shipPlanWrite h k word v => Sys2Proof.Machine.execShipPlanWrite h k word v s
  | .egrLinkChange h up => Sys2Proof.Machine.execEgrLinkChange h up s
  | .egrFrameReceive h frame => Sys2Proof.Machine.execEgrFrameReceive h frame s
  | .ackReceive h => Sys2Proof.Machine.execAckReceive h s
  | .resetReceive h => Sys2Proof.Machine.execResetReceive h s
  | .datagramSend h => Sys2Proof.Machine.execDatagramSend h s
  | .retxTimerExpire h ctx => Sys2Proof.Machine.execRetxTimerExpire h ctx s
  | .rateIncrease h ctx => Sys2Proof.Machine.execRateIncrease h ctx s
  | .timeSnap h => Sys2Proof.Machine.execTimeSnap h s
  | .ftWrite h v => Sys2Proof.Machine.execFtWrite h v s
  | .timeCtlWrite h v => Sys2Proof.Machine.execTimeCtlWrite h v s
  | .beaconSend h => Sys2Proof.Machine.execBeaconSend h s
  | .beaconReceive h => Sys2Proof.Machine.execBeaconReceive h s
  | .delayReqSend h => Sys2Proof.Machine.execDelayReqSend h s
  | .delayReqReceive h => Sys2Proof.Machine.execDelayReqReceive h s
  | .delayRespReceive h => Sys2Proof.Machine.execDelayRespReceive h s
  | .ptpAnnounceReceive h domain src dataset logInt => Sys2Proof.Machine.execPtpAnnounceReceive h domain src dataset logInt s
  | .ptpSyncReceive h domain src seq twoStep origin corr => Sys2Proof.Machine.execPtpSyncReceive h domain src seq twoStep origin corr s
  | .ptpFollowUpReceive h domain src seq origin corr => Sys2Proof.Machine.execPtpFollowUpReceive h domain src seq origin corr s
  | .ptpDelayReqSend h => Sys2Proof.Machine.execPtpDelayReqSend h s
  | .ptpDelayRespReceive h domain src seq mine received corr => Sys2Proof.Machine.execPtpDelayRespReceive h domain src seq mine received corr s
  | .ppsInEdge => Sys2Proof.Machine.execPpsInEdge s
  | .passTimeTransfer h => Sys2Proof.Machine.execPassTimeTransfer h s
  | .ftSourceTimeout h => Sys2Proof.Machine.execFtSourceTimeout h s
  | .mtRateAdjust h => Sys2Proof.Machine.execMtRateAdjust h s
  | .comparatorFire h c => Sys2Proof.Machine.execComparatorFire h c s
  | .cmpEnable h c v => Sys2Proof.Machine.execCmpEnable h c v s
  | .ppsOutEnable h v => Sys2Proof.Machine.execPpsOutEnable h v s
  | .timeRelCtlWrite h v => Sys2Proof.Machine.execTimeRelCtlWrite h v s
  | .partGo h p => Sys2Proof.Machine.execPartGo h p s
  | .partRelease h p => Sys2Proof.Machine.execPartRelease h p s
  | .releaseDrained h p => Sys2Proof.Machine.execReleaseDrained h p s
  | .releaseScrubDone h p => Sys2Proof.Machine.execReleaseScrubDone h p s
  | .partConfigWrite h p reg w v => Sys2Proof.Machine.execPartConfigWrite h p reg w v s
  | .shrWrite h k v => Sys2Proof.Machine.execShrWrite h k v s
  | .kimpStart h party => Sys2Proof.Machine.execKimpStart h party s
  | .kimpCommit h => Sys2Proof.Machine.execKimpCommit h s
  | .kimpAbort h => Sys2Proof.Machine.execKimpAbort h s
  | .kimpPlain h party => Sys2Proof.Machine.execKimpPlain h party s
  | .kimpExpire h => Sys2Proof.Machine.execKimpExpire h s
  | .mirrorRecordReceive h => Sys2Proof.Machine.execMirrorRecordReceive h s
  | .mirrorAckReceive h => Sys2Proof.Machine.execMirrorAckReceive h s
  | .mirrorCommitReceive h => Sys2Proof.Machine.execMirrorCommitReceive h s
  | .mirrorAckTimeout h => Sys2Proof.Machine.execMirrorAckTimeout h s
  | .mirrorPendingTimeout h => Sys2Proof.Machine.execMirrorPendingTimeout h s
  | .keyReconcile => Sys2Proof.Machine.execKeyReconcile s
  | .arbFuseBlow => Sys2Proof.Machine.execArbFuseBlow s
  | .fwRemeasure h ok => Sys2Proof.Machine.execFwRemeasure h ok s
  | .spdmGetVersion h mctp => Sys2Proof.Machine.execSpdmGetVersion h mctp s
  | .spdmGetCapabilities h mctp => Sys2Proof.Machine.execSpdmGetCapabilities h mctp s
  | .spdmNegotiateAlgorithms h mctp => Sys2Proof.Machine.execSpdmNegotiateAlgorithms h mctp s
  | .spdmGetDigests h mctp => Sys2Proof.Machine.execSpdmGetDigests h mctp s
  | .spdmGetCertificate h mctp slot => Sys2Proof.Machine.execSpdmGetCertificate h mctp slot s
  | .spdmChallenge h mctp => Sys2Proof.Machine.execSpdmChallenge h mctp s
  | .spdmGetMeasurements h mctp index => Sys2Proof.Machine.execSpdmGetMeasurements h mctp index s
  | .spdmKeyExchange h mctp auth => Sys2Proof.Machine.execSpdmKeyExchange h mctp auth s
  | .spdmFinish h mctp id ok root => Sys2Proof.Machine.execSpdmFinish h mctp id ok root s
  | .spdmHeartbeat h mctp id => Sys2Proof.Machine.execSpdmHeartbeat h mctp id s
  | .spdmKeyUpdate h mctp id => Sys2Proof.Machine.execSpdmKeyUpdate h mctp id s
  | .spdmEndSession h mctp id => Sys2Proof.Machine.execSpdmEndSession h mctp id s
  | .ideKm h id stream op key => Sys2Proof.Machine.execIdeKm h id stream op key s
  | .ideSecureLost h stream => Sys2Proof.Machine.execIdeSecureLost h stream s
  | .tamperDetect h => Sys2Proof.Machine.execTamperDetect h s
  | .secZeroizeAll h => Sys2Proof.Machine.execSecZeroizeAll h s
  | .secSelftest h ok => Sys2Proof.Machine.execSecSelftest h ok s
  | .passWatchdogExpire h core slot => Sys2Proof.Machine.execPassWatchdogExpire h core slot s
  | .ctxWatchdogExpire h core slot => Sys2Proof.Machine.execCtxWatchdogExpire h core slot s
  | .engineWatchdogExpire h code => Sys2Proof.Machine.execEngineWatchdogExpire h code s
  | .ringWatchdogExpire h ring => Sys2Proof.Machine.execRingWatchdogExpire h ring s
  | .mcWatchdogExpire h => Sys2Proof.Machine.execMcWatchdogExpire h s
  | .stepBoundExceeded h step unit => Sys2Proof.Machine.execStepBoundExceeded h step unit s
  | .fltCtxReset h arg => Sys2Proof.Machine.execFltCtxReset h arg s
  | .fltEngReset h arg => Sys2Proof.Machine.execFltEngReset h arg s
  | .fltPartReset h arg => Sys2Proof.Machine.execFltPartReset h arg s
  | .fltChipReset h => Sys2Proof.Machine.execFltChipReset h s
  | .fltTrayCycle h => Sys2Proof.Machine.execFltTrayCycle h s
  | .fltLogCiWrite h fn v => Sys2Proof.Machine.execFltLogCiWrite h fn v s
  | .roleMessageReceive h => Sys2Proof.Machine.execRoleMessageReceive h s
  | .roleGrantReceive half pec single => Sys2Proof.Machine.execRoleGrantReceive half pec single s
  | .roleSilenceTimeout h => Sys2Proof.Machine.execRoleSilenceTimeout h s
  | .startupRoleArbitrate => Sys2Proof.Machine.execStartupRoleArbitrate s
  | .passRetrainAttempt => Sys2Proof.Machine.execPassRetrainAttempt s
  | .passRetrainEnd ok spares0 spares1 => Sys2Proof.Machine.execPassRetrainEnd ok spares0 spares1 s
  | .passRejoin h => Sys2Proof.Machine.execPassRejoin h s
  | .mcHeartbeatSend h => Sys2Proof.Machine.execMcHeartbeatSend h s
  | .mcHeartbeatReceive h => Sys2Proof.Machine.execMcHeartbeatReceive h s
  | .peerFailTimeout h => Sys2Proof.Machine.execPeerFailTimeout h s
  | .revokeReceive h => Sys2Proof.Machine.execRevokeReceive h s
  | .genSnapshot => Sys2Proof.Machine.execGenSnapshot s
  | .genCommitReceive h crcs => Sys2Proof.Machine.execGenCommitReceive h crcs s
  | .mcRestartDone h => Sys2Proof.Machine.execMcRestartDone h s
  | .mcRestartTimeout h => Sys2Proof.Machine.execMcRestartTimeout h s
  | .bothMcFailForce => Sys2Proof.Machine.execBothMcFailForce s
  | .telSnapWrite h mask => Sys2Proof.Machine.execTelSnapWrite h mask s
  | .histCfgWrite h k v => Sys2Proof.Machine.execHistCfgWrite h k v s
  | .ledgerProgram => Sys2Proof.Machine.execLedgerProgram s
  | .ledgerScan h => Sys2Proof.Machine.execLedgerScan h s
  | .ledgerErase => Sys2Proof.Machine.execLedgerErase s
  | .ledgerRead h seq => Sys2Proof.Machine.execLedgerRead h seq s
  | .ledgerAdopt h => Sys2Proof.Machine.execLedgerAdopt h s
  | .summaryHour => Sys2Proof.Machine.execSummaryHour s
  | .fuseBlow k first second => Sys2Proof.Machine.execFuseBlow k first second s
  | .smbusStuck h clk dat => Sys2Proof.Machine.execSmbusStuck h clk dat s
  | .smbusStuckRetry h clk dat => Sys2Proof.Machine.execSmbusStuckRetry h clk dat s
  | .mctpSetEndpointId op eid => Sys2Proof.Machine.execMctpSetEndpointId op eid s
  | .mctpGetEndpointId => Sys2Proof.Machine.execMctpGetEndpointId s
  | .mctpGetEndpointUuid => Sys2Proof.Machine.execMctpGetEndpointUuid s
  | .mctpGetVersionSupport type => Sys2Proof.Machine.execMctpGetVersionSupport type s
  | .mctpGetMsgTypeSupport => Sys2Proof.Machine.execMctpGetMsgTypeSupport s
  | .pldmBase cmd arg => Sys2Proof.Machine.execPldmBase cmd arg s
  | .pldmGetPdr handle => Sys2Proof.Machine.execPldmGetPdr handle s
  | .pldmGetSensorReading id tj => Sys2Proof.Machine.execPldmGetSensorReading id tj s
  | .pldmGetStateSensors id => Sys2Proof.Machine.execPldmGetStateSensors id s
  | .smbAlertTimeout => Sys2Proof.Machine.execSmbAlertTimeout s
  | .pldmFwUpdate addr config image => Sys2Proof.Machine.execPldmFwUpdate addr config image s
  | .readinessQuery => Sys2Proof.Machine.execReadinessQuery s
  | .mctpChipReset => Sys2Proof.Machine.execMctpChipReset s
  | .mctpTrayCycle => Sys2Proof.Machine.execMctpTrayCycle s
  | .ledgerReadMsg seq => Sys2Proof.Machine.execLedgerReadMsg seq s
  | .historyRead => Sys2Proof.Machine.execHistoryRead s
  | .railExcursion rail beyond10 => Sys2Proof.Machine.execRailExcursion rail beyond10 s
  | .diePgTimeout die => Sys2Proof.Machine.execDiePgTimeout die s
  | .inputPowerOver => Sys2Proof.Machine.execInputPowerOver s
  | .pwrInputRead h avg high => Sys2Proof.Machine.execPwrInputRead h avg high s
  | .irqRouteWrite h k en vec mask => Sys2Proof.Machine.execIrqRouteWrite h k en vec mask s
  | .passSidebandRegained h => Sys2Proof.Machine.execPassSidebandRegained h s
  | .auxSupplyChange good => Sys2Proof.Machine.execAuxSupplyChange good s
  | .pcieLinkUp h width rate flit => Sys2Proof.Machine.execPcieLinkUp h width rate flit s
  | .vfEnableChange h enable numVfs => Sys2Proof.Machine.execVfEnableChange h enable numVfs s
  | .engineStateError h code kind => Sys2Proof.Machine.execEngineStateError h code kind s
  | .hubUnitFault h => Sys2Proof.Machine.execHubUnitFault h s
  | .dieLinkFail die => Sys2Proof.Machine.execDieLinkFail die s
  | .hbmChannelFail k phy channel => Sys2Proof.Machine.execHbmChannelFail k phy channel s
  | .nonholderTjCrit h => Sys2Proof.Machine.execNonholderTjCrit h s
  | .pldmEventAck => Sys2Proof.Machine.execPldmEventAck s
  | .setupLockAck h => Sys2Proof.Machine.execSetupLockAck h s
  | .revokeRetry h => Sys2Proof.Machine.execRevokeRetry h s

end Sys2Proof.Machine
end

