-- ==== Sys2Proof/Machine/Tick.lean ====
section
/-!
DEFINITION. Machine/Tick.lean: one tick of the time unit (one cycle of the TU clock, R39, R451, R454).
-/

namespace Sys2Proof.Machine

/-- Monotonic time of a half one TU cycle later: it advances at the rate 1 + MT_RATE, in 10⁻⁹ ns (R451, R452). -/
def tickMt (s : State) (h : Half) : State :=
  let x := s.rd (.tim .MT_REM) h + (1000000000 + signedOf 32 (s.rd (.tim .MT_RATE) h)).toNat
  (s.wr (.tim .MT) h (s.mt h + x / 1000000000)).wr (.tim .MT_REM) h (x % 1000000000)

/-- Fabric time of a half one TU cycle later: it advances at the rate 1 + FT_RATE, in 10⁻⁹ of 2⁻¹⁶ ns (R454). -/
def tickFt (s : State) (h : Half) : State :=
  let x := s.rd (.tim .FT_REM) h + 65536 * (1000000000 + signedOf 32 (s.rd (.tim .FT_RATE) h)).toNat
  let t := ftFine s h + x / 1000000000
  ((s.wr (.tim .FT) h (t / 65536)).wr (.tim .FT_FRAC) h (t % 65536)).wr (.tim .FT_REM) h (x % 1000000000)

/-- The nanoseconds of a tick counted in group 4 on the role holder's half, at the level in force (R545, R546), and the input energy: the
power in W times one ns, gathered to whole µJ. -/
def tickThermal (s : State) : State :=
  match s.holder with
  | none => s
  | some h =>
    let s1 := bump s h 4 (1 + s.rd (.thm .PLAT_STATUS_CUR) h) 1
    let nj := s1.rd (.tel .ENERGY_REM) .h0 + s1.rd (.pwr .PWR_INPUT_AVG) .h0
    let s2 := s1.wr (.tel .ENERGY_REM) .h0 (nj % 1000)
    if nj / 1000 = 0 then s2 else bump s2 h 4 0 (nj / 1000)

/-- The core-nanoseconds of a tick: cores of a half with a pass streaming, cores with a slot reserved and idle, and each partition's
contexts on the array (Table 17.2, R338). -/
def tickCores (s : State) (h : Half) : State :=
  let on := s.contexts.filter fun x => x.half == h && x.inArray != 0
  let kept := (s.chains.filter fun c => c.half == h).flatMap fun c => c.held
  let idle := (kept.filter fun k => !(on.any fun x => x.core == k.1)).length
  let s1 := if on.isEmpty then s else bump s h 0 6 on.length
  let s2 := if idle = 0 then s1 else bump s1 h 0 7 idle
  on.foldl (fun t x => bump t h (32 + ringFn x.ring) 8 1) s2

/-- The powered seconds since first power-on, while PWR_GOOD is high (R552). -/
def tickLife (s : State) : State :=
  if s.rd (.boot .PWR_GOOD_PIN) .h0 = 0 then s
  else
    let n := s.rd (.tel .LIFE_NS) .h0 + 1
    if n < 1000000000 then s.wr (.tel .LIFE_NS) .h0 n
    else (s.wr (.tel .LIFE_NS) .h0 0).wr (.tel .LDG_LIFE_S) .h0 (s.rd (.tel .LDG_LIFE_S) .h0 + 1)

/-- One tick: both clocks of both halves, and the counters of time. -/
def tick (s : State) : State :=
  tickLife (tickThermal (tickCores (tickCores (tickFt (tickFt (tickMt (tickMt s .h0) .h1) .h0) .h1) .h0) .h1))

end Sys2Proof.Machine
end

