-- ==== Sys2Proof/Safety.lean ====
section
/-!
DEFINITION. Safety.lean: what a claim about a run is stated with: a state that keeps the canonical forms, a command that completes
with an effect, and a state that differs from another in named register cells only.
-/

namespace Sys2Proof

open Machine

/-- The canonical forms that every step keeps: memory, the pinned slots, the ship plans and the register store. -/
def Inv (s : State) : Prop := s.mem.wf = true ∧ s.slots.wf = true ∧ s.plans.wf = true ∧ s.regs.wf = true

/-- A command completes on a state, with a next state of which `P` holds. -/
def Gives (c : Instr) (s : State) (P : State → Prop) : Prop := ∃ t, exec c s = .next t ∧ P t

/-- A register cell (field, half, instance) with the value it is to hold. -/
abbrev CellVal := (Fld × Half × Nat) × Nat

/-- The value that a list of cells gives a cell: that of the first entry for it. -/
def valueIn (l : List CellVal) (k : Fld × Half × Nat) : Option Nat := (l.find? fun c => decide (c.1 = k)).map (·.2)

/-- Every cell that the list names holds its value in `t`, and every other cell holds what it held in `s`. -/
def RegsOnly (s t : State) (l : List CellVal) : Prop := ∀ f h i, t.rd f h i = (valueIn l (f, h, i)).getD (s.rd f h i)

/-- `t` is `s` but for the listed register cells, which hold the listed values: no other register, no byte of memory and no other part
of the state differs. -/
def Only (s t : State) (l : List CellVal) : Prop := RegsOnly s t l ∧ { t with regs := s.regs } = s

/-- A command completes and changes the listed register cells only. -/
def Sets (c : Instr) (s : State) (l : List CellVal) : Prop := Gives c s fun t => Only s t l

/-- Only cells of the listed fields differ between two states, whatever their values; the rest of the state may differ. -/
def FieldsOnly (s t : State) (fs : List Fld) : Prop := ∀ f h i, f ∉ fs → t.rd f h i = s.rd f h i

/-- Only cells of the listed fields differ between two states, and what has left the ports: no byte of memory, no other register and no
other part of the state. -/
def Touches (s t : State) (fs : List Fld) : Prop := FieldsOnly s t fs ∧ { t with regs := s.regs, out := s.out } = s

/-- A register cell and its value. -/
def cell (f : Fld) (h : Half) (i v : Nat) : CellVal := ((f, h, i), v)

/-- No byte of HBM, of a scratchpad or of host memory differs, nor of the pinned slots or the ship plans. -/
def SameMem (s t : State) : Prop := t.mem = s.mem ∧ t.slots = s.slots ∧ t.plans = s.plans

/-- What raising a bit of FUNC_IRQ may change besides it: a message's mask is looked at, PBA holds it back, and a message is counted. -/
def irqFields : List Fld := [.host .FUNC_IRQ, .host .MSIX_PBA, .tel .LIVE_SLOT]

/-- What dropping a staged low word may change (R140). -/
def stageFields : List Fld := .host .STAGE_TAG :: .host .SHD_CNT_STAGE_DROP :: irqFields

/-- What a sample given to the histograms may change (R550). -/
def histFields : List Fld :=
  [.tel .HIST_BIN, .tel .HIST_COUNT, .tel .HIST_SUM, .tel .HIST_CFG_SUM_SAT, .tel .HIST_MAX]

end Sys2Proof
end

