-- ==== Sys2Proof/Certificates/Slice0/Obligations.lean ====
section
/-!
DEFINITION. Certificates/Slice0/Obligations.lean: the statements for the provers: what a step is, the invariant of the state, and, for each
family of commands, where its commands complete and with what effect.
-/

open Sys2Proof Sys2Proof.Machine

/-! ### The machine as a whole -/

/-- A step with commands waiting is the front command's effect on the state whose queue is the rest. -/
def Obligations.StepRunsFrontCommand : Prop :=
  ∀ (c : Instr) (rest : List Instr) (s : State), s.pending = c :: rest → step s = exec c { s with pending := rest }

/-- A step with no command waiting is one tick of the time unit (the model's choice, log entry 4): with the rate at 0 and no remainder,
monotonic time of a half advances by one nanosecond; the queue stays empty, and no byte of memory changes. -/
def Obligations.IdleStepIsTick : Prop :=
  ∀ s : State, s.pending = [] → ∃ t, step s = .next t ∧ t.pending = [] ∧ SameMem s t ∧
    ∀ h, s.rd (.tim .MT_RATE) h 0 = 0 → s.rd (.tim .MT_REM) h 0 = 0 → s.mt h + 1 < 2 ^ 64 → t.mt h = s.mt h + 1

/-- Every command completes on every state with a next state, and leaves the commands that wait behind it as they were. -/
def Obligations.EveryCommandCompletes : Prop :=
  ∀ (c : Instr) (s : State), Gives c s fun t => t.pending = s.pending

/-- Every step keeps the canonical forms of memory, of the pinned slots, of the ship plans and of the register store: from every state
that has them, whether or not a run reaches it. -/
def Obligations.StepKeepsCanonicalForms : Prop :=
  ∀ s t : State, Inv s → step s = .next t → Inv t

/-- The state after reset has the canonical forms. -/
def Obligations.ResetHasCanonicalForms : Prop := Inv State.reset

/-- In a state with the canonical forms every register cell reads within its field's width. -/
def Obligations.RegistersWithinWidth : Prop :=
  ∀ (s : State) (f : Fld) (h : Half) (i : Nat), Inv s → s.rd f h i < 2 ^ f.width

/-! ### Hub buffer pool (§1.7) -/

/-- POOL_COMMIT: applied when the pool is quiesced and every condition of Table 1.8 holds; else the status of the first condition that
fails, and nothing else changes. The configuration is the staged one, and after the set-up lock the committed one. Requests that wait are
served under the new one. -/
def Obligations.PoolCommitByTable18 : Prop :=
  ∀ (h : Half) (s : State),
    let locked : Prop := s.rd (.host .SETUP_LOCK_LOCK) h 0 = 1
    let floor (c : Nat) : Nat := if locked then s.rd (.pkg .POOL_FLOOR) h c else s.rd (.pkg .POOL_CLASS_CFG_FLOOR) h c
    let cap (c : Nat) : Nat := if locked then s.rd (.pkg .POOL_CAP) h c else s.rd (.pkg .POOL_CLASS_CFG_CAP) h c
    let ok : Prop := ((List.range 7).map floor).sum ≤ 1024 ∧ (∀ c < 7, floor c ≤ cap c ∧ cap c ≤ 1024) ∧ 128 ≤ floor 0 ∧
      floor 4 = cap 4 ∧ 16 ≤ floor 4
    (¬ ok → Sets (.poolCommit h) s [cell (.pkg .POOL_STATUS_LAST_STATUS) h 0 ST_POOL_CONFIG]) ∧
    (ok → s.rd (.pkg .POOL_STATUS_QUIESCED) h 0 = 0 →
      Sets (.poolCommit h) s [cell (.pkg .POOL_STATUS_LAST_STATUS) h 0 ST_POOL_BUSY]) ∧
    (ok → s.rd (.pkg .POOL_STATUS_QUIESCED) h 0 ≠ 0 → Gives (.poolCommit h) s fun t =>
      ((∀ r ∈ s.poolReqs, r.half = h → r.reclaim = true) → Touches s t [.pkg .POOL_FLOOR, .pkg .POOL_CAP, .pkg .POOL_STATUS_LAST_STATUS,
          .pkg .POOL_STATUS_FREE, .pkg .POOL_STATUS_QUIESCED]) ∧
        t.rd (.pkg .POOL_STATUS_LAST_STATUS) h 0 = ST_OK ∧
        ∀ c < 7, t.rd (.pkg .POOL_FLOOR) h c = floor c ∧ t.rd (.pkg .POOL_CAP) h c = cap c)

/-- The other pool commands. QUIESCE is stored, and QUIESCED is 1 exactly when it is set and no granule is in use. A request within the
idle granules of its class's floor is granted whole. A released granule of the floor is given back; one that was borrowed goes to the
reclaim that is served first. A unit that completes with no granule marked is over and gives none back. A unit that a reclaim waits for is
cancelled 6.5 µs after the reclaim's request, which is counted, and no sooner. -/
def Obligations.PoolGranules : Prop :=
  ∀ (h : Half) (c : Fin 7) (s : State),
    let nobodyWaits : Prop := ∀ r ∈ s.poolReqs, r.half = h → r.reclaim = true
    (∀ on : Bool, Sets (.poolQuiesceSet h on) s
      [cell (.pkg .POOL_CTL_QUIESCE) h 0 (bit on),
        cell (.pkg .POOL_STATUS_FREE) h 0 ((1024 - poolSum (poolInUse s h)) % 2 ^ 11),
        cell (.pkg .POOL_STATUS_QUIESCED) h 0 (bit (on && poolSum (poolInUse s h) == 0))]) ∧
    (∀ n unit, n ≤ poolIdle s h c.val → poolFloor s h c.val ≤ 1024 → Gives (.poolGranuleRequest h c n unit) s fun t =>
      poolInUse t h c.val = poolInUse s h c.val + n ∧
      Touches s t [.pkg .POOL_CLASS_USE_IN_USE, .pkg .POOL_STATUS_FREE, .pkg .POOL_STATUS_QUIESCED]) ∧
    (0 < poolInUse s h c.val → poolInUse s h c.val < 2048 → nobodyWaits →
      (poolInUse s h c.val ≤ poolFloor s h c.val → Gives (.poolGranuleRelease h c) s fun t =>
        poolInUse t h c.val = poolInUse s h c.val - 1 ∧
        Touches s t [.pkg .POOL_CLASS_USE_IN_USE, .pkg .POOL_STATUS_FREE, .pkg .POOL_STATUS_QUIESCED]) ∧
      (∀ r, poolFloor s h c.val < poolInUse s h c.val → reclaimFirst s h = some r → r.cls ≠ c.val → poolInUse s h r.cls < 1024 →
        Gives (.poolGranuleRelease h c) s fun t => poolInUse t h c.val = poolInUse s h c.val - 1 ∧
          poolInUse t h r.cls = poolInUse s h r.cls + 1)) ∧
    (∀ tag, (poolUnit s h c.val tag = none → Sets (.poolUnitComplete h c tag) s [] ∧ Sets (.poolForceRelease h c tag) s []) ∧
      ∀ u, poolUnit s h c.val tag = some u →
        (u.marked = 0 → nobodyWaits → Gives (.poolUnitComplete h c tag) s fun t => t.poolUnits.length + 1 = s.poolUnits.length ∧
          ∀ k, poolInUse t h k = poolInUse s h k) ∧
        (u.marked = 0 ∨ s.mt h < u.since + 6500 → Sets (.poolForceRelease h c tag) s []) ∧
        (u.marked ≠ 0 → u.since + 6500 ≤ s.mt h → Gives (.poolForceRelease h c tag) s fun t =>
          t.rd (.pkg .POOL_FORCED_CNT) h 0 = min (s.rd (.pkg .POOL_FORCED_CNT) h 0 + 1) (2 ^ 32 - 1)))

/-! ### Plateau changes and the thermal loop (§2.3, §2.4) -/

/-- PLAT_REQUEST on the half with the roles: a change to another level is accepted, recorded as pending for S = MT + NOTICE, with
ST_PLATEAU_CHANGE; a notice outside 2 to 100 ms, Lowland mode, level 3, a pending change, and a rise with the loop not in RUN are each
refused with their status; the level in force gives ST_OK. Before step 13 of start-up a request is refused with ST_ID_RANGE (the model's
choice, log entry 60). Without the roles nothing changes. The steps of a pending change of both halves. The second PLL of a die is
recorded. At S, and not before, dispatch stops. When the arrays have drained and the PLLs have locked they run at the target, dispatch
resumes, and nothing is pending. A PLL that has not locked in 200 µs, and an operator's cancellation before S, withdraw the change: the
target is the level in force again. -/
def Obligations.PlateauChanges : Prop :=
  (∀ (h : Half) (n target : Nat) (s : State),
     let fields := [cell (.thm .PLAT_CTL_NOTICE_MS) h 0 n, cell (.thm .PLAT_CTL_TARGET) h 0 target]
     let refused (status : Nat) : Prop :=
       Sets (.platRequest h n target) s (cell (.thm .PLAT_STATUS_LAST_STATUS) h 0 status :: fields)
     (s.holds h = false → Sets (.platRequest h n target) s []) ∧
     (s.holds h = true → target < 4 →
       (n < 2 ∨ 100 < n → Sets (.platRequest h n target) s [cell (.thm .PLAT_STATUS_LAST_STATUS) h 0 ST_PLATEAU_RANGE]) ∧
       (2 ≤ n → n ≤ 100 →
         (s.lowland h = true → refused ST_LOWLAND) ∧
         (s.lowland h = false →
           (target = 3 → refused ST_PLATEAU_RANGE) ∧
           (target ≠ 3 → s.rd (.thm .PLAT_STATUS_PENDING) h 0 = 1 → refused ST_PLATEAU_BUSY) ∧
           (target ≠ 3 → s.rd (.thm .PLAT_STATUS_PENDING) h 0 ≠ 1 →
             (target = s.rd (.thm .PLAT_STATUS_CUR) h 0 → refused ST_OK) ∧
             (target ≠ s.rd (.thm .PLAT_STATUS_CUR) h 0 → target < 2 → s.rd (.thm .THERM_STATUS_STATE) h 0 ≠ 2 →
               refused ST_THERM_NOT_RUN) ∧
             (target ≠ s.rd (.thm .PLAT_STATUS_CUR) h 0 → target = 2 ∨ s.rd (.thm .THERM_STATUS_STATE) h 0 = 2 →
               s.rd (.boot .COMPUTE_READY_DONE) .h0 0 = 0 → refused ST_ID_RANGE) ∧
             (target ≠ s.rd (.thm .PLAT_STATUS_CUR) h 0 → target = 2 ∨ s.rd (.thm .THERM_STATUS_STATE) h 0 = 2 →
               s.rd (.boot .COMPUTE_READY_DONE) .h0 0 ≠ 0 →
                 Gives (.platRequest h n target) s fun t => t.rd (.thm .PLAT_STATUS_PENDING) h 0 = 1 ∧
                 t.rd (.thm .PLAT_STATUS_TARGET) h 0 = target ∧ t.rd (.thm .PLAT_STATUS_SOURCE) h 0 = 0 ∧
                 t.rd (.thm .PLAT_SWITCH_TIME) h 0 = (s.mt h + n * 1000000) % 2 ^ 64 ∧
                 t.rd (.thm .PLAT_STATUS_LAST_STATUS) h 0 = ST_PLATEAU_CHANGE)))))) ∧
  (∀ (h : Half) (s : State), s.holder = some h → s.rd (.thm .PLAT_STATUS_PENDING) h 0 = 1 →
     (∀ k, s.rd (.thm .PLAT_NOTE) k 0 = s.rd (.thm .PLAT_STATUS_TARGET) h 0 + 1) →
     (∀ die : Fin 8, let k := Half.ofNum (die.val / 4)
       Sets (.platPllLocked die) s [cell (.thm .PLAT_PLL) k 0 (setBits (s.rd (.thm .PLAT_PLL) k 0) (2 ^ die.val) % 2 ^ 8)]) ∧
     ((∀ k, s.mt k < s.rd (.thm .PLAT_NOTE_S) k 0 ∨ s.rd (.thm .DISPATCH_STOP) k 0 ≠ 0) → Sets .platSwitchTime s []) ∧
     ((∀ k, s.rd (.thm .PLAT_NOTE_S) k 0 ≤ s.mt k ∧ s.rd (.thm .DISPATCH_STOP) k 0 = 0) → Inv s →
       Sets .platSwitchTime s [cell (.thm .DISPATCH_STOP) .h0 0 1, cell (.thm .STOP_MT) .h0 0 (s.mt .h0),
         cell (.thm .DISPATCH_STOP) .h1 0 1, cell (.thm .STOP_MT) .h1 0 (s.mt .h1)]) ∧
     ((∀ k, platDrained s k = false ∨ platPllsLocked s k = false) → Sets .platDrainDone s []) ∧
     ((∀ k, s.rd (.thm .DISPATCH_STOP) k 0 = 1 ∧ platDrained s k = true ∧ platPllsLocked s k = true) →
       s.rd (.thm .PLAT_STATUS_TARGET) h 0 < 4 → Gives .platDrainDone s fun t =>
       t.rd (.thm .PLAT_STATUS_PENDING) h 0 = 0 ∧ t.rd (.thm .PLAT_STATUS_CUR) h 0 = s.rd (.thm .PLAT_STATUS_TARGET) h 0 ∧
       ∀ k, t.rd (.thm .DISPATCH_STOP) k 0 = 0 ∧ t.rd (.thm .ARR_LEVEL) k 0 = s.rd (.thm .PLAT_STATUS_TARGET) h 0) ∧
     (platLate s h = true → s.rd (.thm .PLAT_STATUS_CUR) h 0 < 4 → Gives .platPllTimeout s fun t =>
       t.rd (.thm .PLAT_STATUS_PENDING) h 0 = 0 ∧ t.rd (.thm .PLAT_STATUS_TARGET) h 0 = s.rd (.thm .PLAT_STATUS_CUR) h 0 ∧
       t.rd (.thm .PLAT_STATUS_LAST_STATUS) h 0 = ST_PLL_LOCK ∧ t.rd (.thm .PLAT_NOTE) h 0 = 0) ∧
     (s.rd (.thm .PLAT_STATUS_SOURCE) h 0 = 0 → s.mt h < s.rd (.thm .PLAT_SWITCH_TIME) h 0 → s.rd (.thm .DISPATCH_STOP) h 0 = 0 →
       s.rd (.thm .PLAT_STATUS_CUR) h 0 < 4 → Gives (.platCancel h) s fun t =>
         t.rd (.thm .PLAT_STATUS_PENDING) h 0 = 0 ∧ t.rd (.thm .PLAT_STATUS_TARGET) h 0 = s.rd (.thm .PLAT_STATUS_CUR) h 0 ∧
         t.rd (.thm .PLAT_STATUS_LAST_STATUS) h 0 = ST_OK ∧ (s.lanesUp = true → ∀ k, t.rd (.thm .PLAT_NOTE) k 0 = 0)) ∧
     (s.rd (.thm .PLAT_STATUS_SOURCE) h 0 ≠ 0 → Sets (.platCancel h) s [cell (.thm .PLAT_STATUS_LAST_STATUS) h 0 ST_PLATEAU_BUSY]))

/-- The states of the loop, on the half with the roles; the other half changes nothing. START takes OFF to PRIME, and in any other state
changes nothing but the status. MANUAL is entered at P2 in RUN with no request open, and left again to RUN; refused otherwise. A condition
of R72 that has held long enough, or TJ_MAX at or above TJ_CRIT, takes the loop to FAIL, with both duties forced to 100 % and the Lowland
cause THERM. A demand forced by TJ_WARN for AUTO_DOWN_MS requests the next lower level. A period of the loop takes the readings, an
unreadable one being repeated; in OFF it does nothing. A THERM register is written whole, or refused whole where the ranges of R96 would
not hold. -/
def Obligations.ThermalLoop : Prop :=
  (∀ (h : Half) (s : State), s.holds h = false → ∀ (reg : ThermReg) (v : Nat) (manual : Bool),
     ∀ c ∈ [Instr.thermStart h, .thermModeSet h manual, .thermConfigWrite h reg v], Sets c s []) ∧
  (∀ (h : Half) (s : State), s.holder = some h → Inv s →
     let state := s.rd (.thm .THERM_STATUS_STATE) h 0
     let live : Prop := state = 1 ∨ state = 2 ∨ state = 3
     let failed (t : State) : Prop := t.rd (.thm .THERM_STATUS_STATE) h 0 = 4 ∧ (t.rd (.thm .THERM_EVENT) h 0).testBit 5 = true ∧
       (t.rd (.boot .LOW_PEND) .h0 0).testBit 0 = true ∧
       ∀ n < 2, t.rd (.thm .PWM_DUTY) h n = s.rd (.thm .PWM_PERIOD) h n
     let last (st : Nat) : CellVal := cell (.thm .THERM_STATUS_LAST_STATUS) h 0 st
     (state = 0 → Gives (.thermStart h) s fun t =>
       t.rd (.thm .THERM_STATUS_STATE) h 0 = 1 ∧ t.rd (.thm .THERM_STATUS_LAST_STATUS) h 0 = ST_OK) ∧
     (state ≠ 0 → Sets (.thermStart h) s [last ST_THERM_CONFIG]) ∧
     (state = 2 → s.rd (.thm .PLAT_STATUS_CUR) h 0 = 2 → (∀ r ∈ s.requests, r.closing = true) →
       Gives (.thermModeSet h true) s fun t => t.rd (.thm .THERM_STATUS_LAST_STATUS) h 0 = ST_OK ∧
         t.rd (.thm .THERM_STATUS_STATE) h 0 = 3 ∧ t.rd (.thm .THERM_CTL_MODE) h 0 = 1 ∧ SameMem s t) ∧
     (state ≠ 3 → state ≠ 2 ∨ s.rd (.thm .PLAT_STATUS_CUR) h 0 ≠ 2 ∨ (∃ r ∈ s.requests, r.closing = false) →
       Sets (.thermModeSet h true) s [last ST_THERM_MANUAL]) ∧
     (state = 3 → Gives (.thermModeSet h false) s fun t =>
       t.rd (.thm .THERM_STATUS_STATE) h 0 = 2 ∧ t.rd (.thm .THERM_CTL_MODE) h 0 = 0) ∧
     (live → s.rd (.thm .THERM_TIMING_FAIL_HOLD_MS) h 0 < s.rd (.thm .HOT_RUN) h 0 → Gives .thermFailHoldExpire s failed) ∧
     (¬ live ∨ s.rd (.thm .HOT_RUN) h 0 ≤ s.rd (.thm .THERM_TIMING_FAIL_HOLD_MS) h 0 → Sets .thermFailHoldExpire s []) ∧
     (live → s.rd (.thm .THERM_TIMING_SENS_LOSS) h 0 ≤ s.rd (.thm .SENS_RUN) h 0 → Gives .thermSensLossExpire s failed) ∧
     (¬ live ∨ s.rd (.thm .SENS_RUN) h 0 < s.rd (.thm .THERM_TIMING_SENS_LOSS) h 0 → Sets .thermSensLossExpire s []) ∧
     (let due : Prop := state = 2 ∧ s.rd (.thm .THERM_CTL_AUTO_DOWN) h 0 = 1 ∧
        s.rd (.thm .THERM_TIMING_AUTO_DOWN_MS) h 0 < s.rd (.thm .TJ_RUN) h 0;
      (¬ due ∨ 2 ≤ s.rd (.thm .PLAT_STATUS_CUR) h 0 → Sets .thermAutoDownExpire s []) ∧
      (due → s.rd (.thm .PLAT_STATUS_PENDING) h 0 ≠ 1 → s.rd (.thm .PLAT_STATUS_CUR) h 0 < 2 → Gives .thermAutoDownExpire s fun t =>
        t.rd (.thm .PLAT_STATUS_PENDING) h 0 = 1 ∧ t.rd (.thm .PLAT_STATUS_SOURCE) h 0 = 1 ∧
        t.rd (.thm .PLAT_STATUS_TARGET) h 0 = s.rd (.thm .PLAT_STATUS_CUR) h 0 + 1)) ∧
     (∀ tIn tOut tj, state = 0 → Sets (.thermLoopPeriod tIn tOut tj) s []) ∧
     (∀ (tIn tOut : Option Nat) (tj : Nat), state ≠ 0 → Gives (.thermLoopPeriod tIn tOut tj) s fun t =>
       t.rd (.thm .THERM_MEAS0_T_IN) h 0 = (tIn.map (· % 2 ^ 16)).getD (s.rd (.thm .THERM_MEAS0_T_IN) h 0) ∧
       t.rd (.thm .THERM_MEAS0_T_OUT) h 0 = (tOut.map (· % 2 ^ 16)).getD (s.rd (.thm .THERM_MEAS0_T_OUT) h 0) ∧
       t.rd (.thm .THERM_MEAS1_TJ_MAX) h 0 = tj % 2 ^ 16 ∧
       (live → signedOf 16 (s.rd (.thm .THERM_SET1_TJ_CRIT) h 0) ≤ signedOf 16 (tj % 2 ^ 16) → failed t)) ∧
     (∀ (reg : ThermReg) (v : Nat), s.rd (.host .SETUP_LOCK_LOCK) h 0 ≠ 1 →
       (thermRangesOk (thermStore s h reg v) h reg = true → Sets (.thermConfigWrite h reg v) s
         (last ST_OK :: (thermFields reg).map fun f => cell f.1 h f.2.2 (v / 2 ^ f.2.1 % 2 ^ f.1.width))) ∧
       (thermRangesOk (thermStore s h reg v) h reg = false → Sets (.thermConfigWrite h reg v) s [last ST_THERM_CONFIG])) ∧
     ∀ v, let vmax := v / 2 ^ 16 % 2 ^ 16
       let vmin := v % 2 ^ 16
       (vmin ≤ vmax → vmax ≤ 25600 → Sets (.thermConfigWrite h .rangeV v) s
         [last ST_OK, cell (.thm .THERM_RANGE_V_VMAX) h 0 vmax, cell (.thm .THERM_RANGE_V_VMIN) h 0 vmin]) ∧
       (vmax < vmin ∨ 25600 < vmax → Sets (.thermConfigWrite h .rangeV v) s [last ST_THERM_CONFIG]))

/-! ### PWM channels, triggers, feedback inputs and aux pins (§2.5 to §2.7) -/

/-- PWM channels that the operator may write. A shadow write with a transfer armed disarms it: UPD_PEND clears, and DISARMED and
THERM_EVENT.PWM_DISARM are set; UPDATE while UPD_PEND is 1 changes nothing (R79). -/
def Obligations.PwmShadowWriteDisarms : Prop :=
  ∀ (h : Half) (n : Fin 4) (s : State), s.holds h = true → pwmOwned s h n.val = false →
    s.rd (.thm .PWM_STATUS_UPD_PEND) h n.val = 1 →
    (∀ (r : PwmReg) (v : Nat), Gives (.pwmShadowWrite h n r v) s fun t =>
      t.rd (.thm .PWM_STATUS_UPD_PEND) h n.val = 0 ∧ t.rd (.thm .PWM_STATUS_DISARMED) h n.val = 1 ∧
      (t.rd (.thm .THERM_EVENT) h 0).testBit 9 = true ∧
      t.rd (match r with
        | .period => .thm .PWM_PERIOD
        | .duty => .thm .PWM_DUTY) h n.val = v % 2 ^ 18) ∧
    Sets (.pwmUpdate h n) s []

/-- UPDATE of a channel that the operator may write, with nothing armed: armed with a PERIOD of 2,500 to 250,000 counts, for the reload
after next where it comes in the reload cycle; else refused with ST_PWM_RANGE (R78, R80). Once the counter of a running channel has run
through its PERIOD it starts again at 0, and an armed transfer moves both shadows together. EN going to 1 on PWM0 and PWM1 moves them at
once, and stays 0 on a bad PERIOD; on PWM2 and PWM3 it claims the pin, and stays 0 where another function holds it; EN = 0 stops the
channel. In PRIME, RUN and FAIL a write to PWM0 or PWM1 is discarded with ST_PWM_OWNED (R75); a half without the roles discards it, and
records a claim of a pin (R89; that the holder then reads none is the model's choice, log entry 59). -/
def Obligations.PwmUpdateAndReload : Prop :=
  (∀ (h : Half) (n : Fin 4) (s : State), s.holds h = true → pwmOwned s h n.val = false → Inv s →
     let period := s.rd (.thm .PWM_PERIOD) h n.val
     let duty := s.rd (.thm .PWM_DUTY) h n.val
     let good : Prop := 2500 ≤ period ∧ period ≤ 250000
     let en := s.rd (.thm .PWM_CTL_EN) h n.val
     let pend := s.rd (.thm .PWM_STATUS_UPD_PEND) h n.val
     let act := s.rd (.thm .PWM_ACT_PERIOD) h n.val
     let count := (s.mt h - s.rd (.thm .PWM_T0) h n.val) / 4
     let again := cell (.thm .PWM_T0) h n.val ((s.rd (.thm .PWM_T0) h n.val + 4 * act) % 2 ^ 64)
     let owner := s.rd (pinOwner (n.val - 2)) h 0
     (pend ≠ 1 →
       (good → Sets (.pwmUpdate h n) s [cell (.thm .PWM_STATUS_UPD_PEND) h n.val 1, cell (.thm .PWM_STATUS_LAST_STATUS) h n.val ST_OK,
         cell (.thm .PWM_SKIP) h n.val (bit (en == 1 && decide (act ≤ count + 1)))]) ∧
       (¬ good → Sets (.pwmUpdate h n) s [cell (.thm .PWM_STATUS_LAST_STATUS) h n.val ST_PWM_RANGE])) ∧
     (en ≠ 1 ∨ count < act → Sets (.pwmReload h n) s []) ∧
     (en = 1 → act ≤ count →
       (s.rd (.thm .PWM_SKIP) h n.val = 1 → Sets (.pwmReload h n) s [again, cell (.thm .PWM_SKIP) h n.val 0]) ∧
       (s.rd (.thm .PWM_SKIP) h n.val ≠ 1 → pend ≠ 1 → Sets (.pwmReload h n) s [again]) ∧
       (s.rd (.thm .PWM_SKIP) h n.val ≠ 1 → pend = 1 → Gives (.pwmReload h n) s fun t =>
         t.rd (.thm .PWM_ACT_PERIOD) h n.val = period ∧ t.rd (.thm .PWM_ACT_DUTY) h n.val = duty ∧
         t.rd (.thm .PWM_STATUS_UPD_PEND) h n.val = 0 ∧ Touches s t [.thm .PWM_ACT_PERIOD, .thm .PWM_ACT_DUTY, .thm .PWM_STATUS_UPD_PEND,
           .thm .PWM_SKIP, .thm .PWM_T0, .thm .AUX_LEVEL])) ∧
     (n.val < 2 → en ≠ 1 →
       (good → Gives (.pwmEnable h n) s fun t => t.rd (.thm .PWM_CTL_EN) h n.val = 1 ∧ t.rd (.thm .PWM_T0) h n.val = s.mt h ∧
         t.rd (.thm .PWM_ACT_PERIOD) h n.val = period ∧ t.rd (.thm .PWM_ACT_DUTY) h n.val = duty) ∧
       (¬ good → Gives (.pwmEnable h n) s fun t => t.rd (.thm .PWM_CTL_EN) h n.val = en ∧
         t.rd (.thm .PWM_STATUS_LAST_STATUS) h n.val = ST_PWM_RANGE)) ∧
     (2 ≤ n.val → en ≠ 1 →
       (owner = 0 → good → Gives (.pwmEnable h n) s fun t => t.rd (.thm .PWM_CTL_EN) h n.val = 1 ∧
         t.rd (pinOwner (n.val - 2)) h 0 = 1 ∧ t.rd (.thm .PWM_ACT_PERIOD) h n.val = period) ∧
       (owner = 0 → ¬ good → Gives (.pwmEnable h n) s fun t => t.rd (.thm .PWM_CTL_EN) h n.val = en ∧
         t.rd (pinOwner (n.val - 2)) h 0 = 0 ∧ t.rd (.thm .PWM_STATUS_LAST_STATUS) h n.val = ST_PWM_RANGE) ∧
       (owner ≠ 0 → Sets (.pwmEnable h n) s [cell (.thm .PWM_STATUS_LAST_STATUS) h n.val ST_CONFLICT,
         cell (.thm .AUX_CLAIM_STATUS_LAST_STATUS) h 0 ST_CONFLICT, cell (.thm .AUX_CLAIM_STATUS_PIN) h 0 (n.val - 2),
         cell (.thm .AUX_CLAIM_STATUS_HOLDER) h 0 owner, cell (.thm .AUX_CLAIM_STATUS_REQUESTER) h 0 1])) ∧
     (en = 1 → Sets (.pwmEnable h n) s []) ∧ (en ≠ 1 → Sets (.pwmDisable h n) s []) ∧
     (en = 1 → Gives (.pwmDisable h n) s fun t => t.rd (.thm .PWM_CTL_EN) h n.val = 0 ∧
       t.rd (.thm .PWM_STATUS_UPD_PEND) h n.val = 0)) ∧
  (∀ (h : Half) (n : Fin 4) (s : State), s.holds h = true → n.val < 2 →
     s.rd (.thm .THERM_STATUS_STATE) h 0 = 1 ∨ s.rd (.thm .THERM_STATUS_STATE) h 0 = 2 ∨ s.rd (.thm .THERM_STATUS_STATE) h 0 = 4 →
     ∀ (v : Nat) (r : PwmReg), ∀ c ∈ [Instr.pwmUpdate h n, .pwmEnable h n, .pwmDisable h n, .pwmShadowWrite h n r v],
       Sets c s [cell (.thm .PWM_STATUS_LAST_STATUS) h n.val ST_PWM_OWNED]) ∧
  (∀ (h : Half) (n : Fin 4) (s : State), s.holds h = false → ∀ (v : Nat) (r : PwmReg),
     (∀ c ∈ [Instr.pwmUpdate h n, .pwmDisable h n, .pwmShadowWrite h n r v], Sets c s []) ∧
     (n.val < 2 → Sets (.pwmEnable h n) s []) ∧
     (2 ≤ n.val → Sets (.pwmEnable h n) s [cell (.thm .AUX_CLAIM_STATUS_LAST_STATUS) h 0 ST_AUX_NO_ROLE,
       cell (.thm .AUX_CLAIM_STATUS_PIN) h 0 (n.val - 2), cell (.thm .AUX_CLAIM_STATUS_HOLDER) h 0 0,
       cell (.thm .AUX_CLAIM_STATUS_REQUESTER) h 0 1]))

/-- Trigger outputs. A trigger that is off has its fields written; one with WIDTH 0 is refused with ST_PWM_RANGE; enabling one whose pin
and comparator are free claims both, and with the pin held is a conflict. A synchronous trigger drives its pin high, and the end of its
pulse drives it low. Feedback inputs. An edge counts in the direction of Table 2.6, with the wrap of the 32-bit count; one sooner than
MIN_INT is a glitch, counted and no more, and a second edge of one 4 ns sample is none. Writes of POSITION, MODE and CLR_GLITCH, the
zero-speed timeout and the end of a window have the effects of R82 to R85; FB2 in mode 1 or 3 holds FB2B. A half without the roles
discards these writes. -/
def Obligations.TriggersAndFeedback : Prop :=
  (∀ (h : Half) (k : Fin 2) (s : State),
     let claim (st holder : Nat) : List CellVal := [cell (.thm .AUX_CLAIM_STATUS_LAST_STATUS) h 0 st,
       cell (.thm .AUX_CLAIM_STATUS_PIN) h 0 (trigPin k.val), cell (.thm .AUX_CLAIM_STATUS_HOLDER) h 0 holder,
       cell (.thm .AUX_CLAIM_STATUS_REQUESTER) h 0 3]
     (s.holds h = false → ∀ (timed : Bool) (ch : Fin 4) (width at_ : Nat),
       Sets (.trigConfigWrite h k false timed ch width at_) s [] ∧
       Sets (.trigConfigWrite h k true timed ch width at_) s (claim ST_AUX_NO_ROLE 0)) ∧
     (s.holds h = true →
       (∀ (en timed : Bool) (ch : Fin 4) (at_ : Nat),
         Sets (.trigConfigWrite h k en timed ch 0 at_) s [cell (.thm .THERM_STATUS_LAST_STATUS) h 0 ST_PWM_RANGE]) ∧
       ∀ (timed : Bool) (ch : Fin 4) (width at_ : Nat), 0 < width → width < 1024 → s.rd (.thm .TRIG_CFG_EN) h k.val ≠ 1 →
         let fields := [cell (.thm .TRIG_CFG_MODE) h k.val (bit timed), cell (.thm .TRIG_CFG_CH) h k.val ch.val,
           cell (.thm .TRIG_CFG_WIDTH) h k.val width, cell (.thm .TRIG_CFG_AT) h k.val (at_ % 2 ^ 18)]
         Sets (.trigConfigWrite h k false timed ch width at_) s (cell (.thm .THERM_STATUS_LAST_STATUS) h 0 ST_OK :: fields) ∧
         (s.rd (pinOwner (trigPin k.val)) h 0 = 0 → s.rd (.tim .CMP_STATUS_HOLDER) h (trigCmp s h k.val) = 0 →
           Gives (.trigConfigWrite h k true timed ch width at_) s fun t => t.rd (.thm .TRIG_CFG_EN) h k.val = 1 ∧
             t.rd (pinOwner (trigPin k.val)) h 0 = 3 ∧ t.rd (.tim .CMP_STATUS_HOLDER) h (trigCmp s h k.val) = 3 + k.val ∧
             t.rd (.thm .THERM_STATUS_LAST_STATUS) h 0 = ST_OK ∧ t.rd (.thm .TRIG_CFG_WIDTH) h k.val = width) ∧
         (s.rd (pinOwner (trigPin k.val)) h 0 ≠ 0 → Inv s → Sets (.trigConfigWrite h k true timed ch width at_) s
           (cell (.thm .THERM_STATUS_LAST_STATUS) h 0 ST_CONFLICT :: claim ST_CONFLICT (s.rd (pinOwner (trigPin k.val)) h 0) ++ fields))) ∧
     (s.rd (.thm .AUX_DRIVING) h 0 = 1 → s.rd (.thm .AUX_KEY_CABLE_OK) h 0 = 1 →
       (s.rd (.thm .TRIG_CFG_EN) h k.val = 1 → s.rd (.thm .TRIG_CFG_MODE) h k.val = 0 →
         s.rd (.thm .PWM_CTL_EN) h (s.rd (.thm .TRIG_CFG_CH) h k.val) = 1 →
         s.rd (.thm .TRIG_CFG_AT) h k.val < s.rd (.thm .PWM_ACT_PERIOD) h (s.rd (.thm .TRIG_CFG_CH) h k.val) →
         pwmCount s h (s.rd (.thm .TRIG_CFG_CH) h k.val) = s.rd (.thm .TRIG_CFG_AT) h k.val →
         Gives (.trigSyncPulse h k) s fun t => t.rd (.thm .AUX_LEVEL) h (pinNo (pinOut (trigPin k.val))) = 2 ∧
           Touches s t [.thm .AUX_LEVEL]) ∧
       (∀ pin : AuxPin, pulsePin s h pin = true → Gives (.pinPulseEnd h pin) s fun t =>
         t.rd (.thm .AUX_LEVEL) h (pinNo pin) = 1 ∧ Touches s t [.thm .AUX_LEVEL]))) ∧
  (∀ (h : Half) (n : Fin 3) (s : State),
     let mode := s.rd (.thm .FB_CTL_MODE) h n.val
     let therm (st : Nat) : CellVal := cell (.thm .THERM_STATUS_LAST_STATUS) h 0 st
     (∀ onB levelB : Bool,
       let last := s.rd (.thm .FB_IN_T) h (2 * n.val + bit onB)
       let seen := s.rd (.thm .FB_SEEN) h (2 * n.val + bit onB)
       let early : Prop := last ≠ 0 ∧ s.mt h + 1 < last + s.rd (.thm .FB_MIN_INT) h n.val * 4
       let same : Prop := seen ≠ 0 ∧ (seen - 1) / 4 = s.mt h / 4
       (fbDirection mode onB levelB = none ∨ same → Sets (.fbEdge h n onB levelB) s []) ∧
       (∀ up : Bool, fbDirection mode onB levelB = some up → ¬ same →
         (¬ early → Gives (.fbEdge h n onB levelB) s fun t =>
           t.rd (.thm .FB_POSITION) h n.val = (s.rd (.thm .FB_POSITION) h n.val + (if up = true then 1 else 2 ^ 32 - 1)) % 2 ^ 32 ∧
           t.rd (.thm .FB_PERIOD_DIR) h n.val = bit (!up) ∧ t.rd (.thm .FB_STATUS_STOPPED) h n.val = 0) ∧
         (early → Gives (.fbEdge h n onB levelB) s fun t => Touches s t [.thm .FB_STATUS_GLITCH, .thm .FB_SEEN, .tel .LIVE_SLOT] ∧
           t.rd (.thm .FB_STATUS_GLITCH) h n.val = min (s.rd (.thm .FB_STATUS_GLITCH) h n.val + 1) (2 ^ 16 - 1)))) ∧
     (let due : Prop := s.rd (.thm .FB_LAST) h n.val + 4 * s.rd (.thm .FB_ZS_TIMEOUT) h n.val ≤ s.mt h + 1;
      (¬ due → Sets (.fbZsTimeout h n) s []) ∧
      (due → Sets (.fbZsTimeout h n) s [cell (.thm .FB_PERIOD_PERIOD) h n.val 0xFFFFFF, cell (.thm .FB_STATUS_STOPPED) h n.val 1,
        cell (.thm .FB_CH_T) h n.val 0, cell (.thm .FB_WIN) h n.val 0])) ∧
     (Inv s → Sets (.fbWindowEnd h n) s
       [cell (.thm .FB_COUNT_WIN) h n.val (s.rd (.thm .FB_WIN) h n.val), cell (.thm .FB_WIN) h n.val 0]) ∧
     (s.holds h = false → (∀ v, Sets (.fbPositionWrite h n v) s []) ∧ Sets (.fbClrGlitch h n) s [] ∧
       ∀ m : Fin 4, n.val ≠ 2 ∨ m.val % 2 = 0 → Sets (.fbModeSet h n m) s []) ∧
     (s.holds h = true →
       (∀ v, Sets (.fbPositionWrite h n v) s [therm ST_OK, cell (.thm .FB_POSITION) h n.val (v % 2 ^ 32)]) ∧
       Sets (.fbClrGlitch h n) s [therm ST_OK, cell (.thm .FB_STATUS_GLITCH) h n.val 0] ∧
       ∀ m : Fin 4,
         let set := [therm ST_OK, cell (.thm .FB_CTL_MODE) h n.val m.val, cell (.thm .FB_PERIOD_PERIOD) h n.val 0xFFFFFF,
           cell (.thm .FB_WIN) h n.val 0, cell (.thm .FB_CH_T) h n.val 0]
         let owner := s.rd (.thm .AUX_OWNER_FB2B) h 0
         (m.val = mode → Sets (.fbModeSet h n m) s [therm ST_OK]) ∧
         (m.val ≠ mode → n.val ≠ 2 ∨ (m.val % 2 = mode % 2 ∧ mode < 4) → Sets (.fbModeSet h n m) s set) ∧
         (n.val = 2 → m.val % 2 = 1 → mode % 2 = 0 → mode < 4 →
           (owner = 0 → Gives (.fbModeSet h n m) s fun t => t.rd (.thm .FB_CTL_MODE) h 2 = m.val ∧ t.rd (.thm .AUX_OWNER_FB2B) h 0 = 2) ∧
           (owner ≠ 0 → Gives (.fbModeSet h n m) s fun t => t.rd (.thm .FB_CTL_MODE) h 2 = mode ∧
             t.rd (.thm .THERM_STATUS_LAST_STATUS) h 0 = ST_CONFLICT ∧ t.rd (.thm .AUX_OWNER_FB2B) h 0 = owner)) ∧
         (n.val = 2 → m.val % 2 = 0 → mode % 2 = 1 → mode < 4 →
           Sets (.fbModeSet h n m) s (cell (.thm .AUX_OWNER_FB2B) h 0 0 :: set))))

/-- The aux connector. A new key pattern is recorded on both hubs, CABLE_OK exactly for pattern 1. A diagnosis that an output can show has
its code latched and sets THERM_EVENT.AUX_DIAG; a retry of a short that persists latches it again, and one that does not ends it;
AUX_DIAG_CLR clears the codes named. The incoming hub drives its outputs once the other has released them. -/
def Obligations.AuxPinsAndDiagnosis : Prop :=
  ∀ (h : Half) (s : State), s.holder = some h →
    (∀ p : Fin 4, p.val ≠ s.rd (.thm .AUX_KEY_PATTERN) h 0 → Gives (.auxKeyChange p) s fun t =>
      ∀ k, t.rd (.thm .AUX_KEY_PATTERN) k 0 = p.val ∧ t.rd (.thm .AUX_KEY_CABLE_OK) k 0 = bit (p.val == 1)) ∧
    (∀ (pin : AuxPin) (code : DiagCode), canShow s h pin code = true → Inv s → Gives (.auxFaultDetect pin code) s fun t =>
      bitsAt (t.rd (.thm .AUX_DIAG) h 0) (2 * pinNo pin) 2 = diagCode code ∧ (t.rd (.thm .THERM_EVENT) h 0).testBit 6 = true) ∧
    (∀ (pin : AuxPin) (code : DiagCode), canShow s h pin code = false → Sets (.auxFaultDetect pin code) s []) ∧
    (∀ pin : AuxPin, s.rd (.thm .AUX_SHORTED) h (pinNo pin) ≠ 0 → Inv s →
      (Gives (.auxShortRetry pin true) s fun t =>
        bitsAt (t.rd (.thm .AUX_DIAG) h 0) (2 * pinNo pin) 2 = s.rd (.thm .AUX_SHORTED) h (pinNo pin)) ∧
      Sets (.auxShortRetry pin false) s [cell (.thm .AUX_SHORTED) h (pinNo pin) 0]) ∧
    (∀ mask : Nat, Inv s → Gives (.auxDiagClr h mask) s fun t => Touches s t [.thm .AUX_DIAG] ∧
      ∀ i < 7, bitsAt (t.rd (.thm .AUX_DIAG) h 0) (2 * i) 2 =
        if mask.testBit i then 0 else bitsAt (s.rd (.thm .AUX_DIAG) h 0) (2 * i) 2) ∧
    (s.rd (.thm .AUX_DRIVING) h.other 0 = 0 → Gives (.auxOutputDrive h) s fun t => t.rd (.thm .AUX_DRIVING) h 0 = 1)

/-! ### Start-up (§3.3 to §3.8) -/

/-- Straps and signed boot, while their step of Table 3.6 runs. A hub samples its straps once, an invalid value replaced and BAD set;
where the two halves differ, both take the role holder's values and set MISMATCH. The ROM starts the image that BOOT_SEL prefers when it
passes, and stays in recovery when BOOT_SEL asks for it or no image passes. A self-test that passes is recorded; one that fails, or that
finds a subordinate image other than its digest, is the Lowland cause SECURITY. -/
def Obligations.StartupStrapsAndBoot : Prop :=
  ∀ (h : Half) (s : State), hubOk s h = true →
    (stageIs s 2 = true → s.rd (.boot .STRAP_DONE) h 0 = 0 → ∀ (b p : Fin 4) (a : Fin 8) (m f : Bool),
      Gives (.strapSample h b p a m f) s fun t => t.rd (.boot .STRAP_STATUS_BOOT_SEL) h 0 = min b.val 2 ∧
        t.rd (.boot .STRAP_STATUS_PLAT_INIT) h 0 = min p.val 2 ∧ t.rd (.boot .STRAP_STATUS_SMB_ADDR) h 0 = a.val ∧
        t.rd (.boot .STRAP_STATUS_FAB_MEDIA) h 0 = bit m ∧ t.rd (.boot .STRAP_STATUS_FIPS_MODE) h 0 = bit f ∧
          t.rd (.boot .STRAP_STATUS_BAD) h 0 = bit (b.val == 3 || p.val == 3) ∧
        t.rd (.sec .SEC_STATUS_APPROVED) h 0 = bit f ∧ t.rd (.boot .STRAP_DONE) h 0 = 1) ∧
    (∀ w, s.holder = some w → mayHold s w.other = true → s.peerReachable w = true → strapOwn s .h0 ≠ strapOwn s .h1 → Inv s →
      Gives .strapCompare s fun t => ∀ k, t.rd (.boot .STRAP_STATUS_BOOT_SEL) k 0 = s.rd (.boot .STRAP_OWN_BOOT_SEL) w 0 ∧
        t.rd (.boot .STRAP_STATUS_PLAT_INIT) k 0 = s.rd (.boot .STRAP_OWN_PLAT_INIT) w 0 ∧
        t.rd (.boot .STRAP_STATUS_SMB_ADDR) k 0 = s.rd (.boot .STRAP_OWN_SMB_ADDR) w 0 ∧
        t.rd (.boot .STRAP_STATUS_FIPS_MODE) k 0 = s.rd (.boot .STRAP_OWN_FIPS_MODE) w 0 ∧ t.rd (.boot .STRAP_STATUS_MISMATCH) k 0 = 1) ∧
    (stageIs s 3 = true → s.rd (.boot .BOOT_STATUS_IMAGE) h 0 = 0 →
      (s.rd (.boot .STRAP_OWN_BOOT_SEL) h 0 = 2 → ∀ a b : Bool, Gives (.romBoot h a b) s fun t =>
        t.rd (.boot .BOOT_STATUS_IMAGE) h 0 = 3 ∧ t.rd (.boot .FW_RUNNING) h 0 = s.rd (.boot .FW_RUNNING) h 0) ∧
      (∀ i, s.rd (.boot .STRAP_OWN_BOOT_SEL) h 0 = 0 → s.imageA = some i → imageValid s h i = true → ∀ b : Bool,
        Gives (.romBoot h true b) s fun t => t.rd (.boot .BOOT_STATUS_IMAGE) h 0 = 1 ∧ t.rd (.boot .FW_RUNNING) h 0 = 1) ∧
      (s.rd (.boot .STRAP_OWN_BOOT_SEL) h 0 ≠ 2 → s.rd (.boot .BOOT_STATUS_STATUS) h 0 = 0 → Gives (.romBoot h false false) s fun t =>
        t.rd (.boot .BOOT_STATUS_IMAGE) h 0 = 3 ∧ t.rd (.boot .BOOT_STATUS_STATUS) h 0 = ST_BOOT_AUTH)) ∧
    (stageIs s 4 = true → s.rd (.boot .FW_RUNNING) h 0 = 1 → s.rd (.boot .SELFTEST_DONE) h 0 = 0 →
      (subsMatch s h = true → Gives (.selftestPreop h true) s fun t => t.rd (.boot .SELFTEST_OK) h 0 = 1) ∧
      ∀ ok : Bool, (ok && subsMatch s h) = false → Gives (.selftestPreop h ok) s fun t => (t.rd (.boot .LOW_PEND) .h0 0).testBit 3 = true ∧
        t.rd (.boot .SELFTEST_DONE) h 0 = 1)

/-- Roles and settling. Half 0 with its self-tests passed takes the roles, and its loop enters PRIME. In PRIME an unreadable sample ends
the run; a good one that completes the run of SETTLE_HOLD takes the loop to RUN; a test that has not passed in time takes it to FAIL with
ST_SETTLE_TIMEOUT. Training, stage E, while each step runs. E1 powers every usable die that does not fail, with the arrays at P2. E2 makes
a stack usable that does not fail. E3 brings the Pass UP on both halves, or declares it down on both. E4 makes a half with running
firmware management-ready. -/
def Obligations.StartupRolesToTraining : Prop :=
  (∀ s : State,
     (stageIs s 5 = true → s.rd (.boot .SELFTEST_OK) .h0 0 = 1 → Gives .roleSettle s fun t =>
       t.rd (.flt .MC_STATUS_LATCH) .h0 0 = 1 ∧ t.rd (.thm .THERM_STATUS_STATE) .h0 0 = 1 ∧ t.rd (.boot .BOOT_STAGE_MAX) .h0 0 = 5) ∧
     (∀ h, s.holder = some h → s.rd (.thm .THERM_STATUS_STATE) h 0 = 1 →
       (∀ tj, Sets (.settleSample none tj) s [cell (.boot .SETTLE_RUN) .h0 0 0]) ∧
       (∀ t tj, s.rd (.boot .SETTLE_REF_V) .h0 0 = 1 → settleGood s h t tj = true →
         s.rd (.boot .THERM_SETTLE0_HOLD) h 0 ≤ s.rd (.boot .SETTLE_RUN) .h0 0 + 1 → Gives (.settleSample (some t) tj) s fun u =>
           u.rd (.thm .THERM_STATUS_STATE) h 0 = 2) ∧
       (∀ t tj, settleGood s h t tj = false → 0 < s.rd (.boot .THERM_SETTLE0_HOLD) h 0 → Gives (.settleSample (some t) tj) s fun u =>
         u.rd (.boot .SETTLE_RUN) .h0 0 = 0 ∧ u.rd (.boot .SETTLE_REF) .h0 0 = t % 2 ^ 16 ∧ u.rd (.thm .THERM_STATUS_STATE) h 0 = 1) ∧
       Gives .settleTimeout s fun t => t.rd (.thm .THERM_STATUS_STATE) h 0 = 4 ∧
         t.rd (.thm .THERM_STATUS_LAST_STATUS) h 0 = ST_SETTLE_TIMEOUT ∧ (t.rd (.boot .LOW_PEND) .h0 0).testBit 0 = true)) ∧
  (∀ s : State,
     (stageIs s 7 = true → s.rd (.boot .EXIT_RUNNING) .h0 0 ≠ 2 → loopInRun s = true → lowNow s = false → ∀ failed : Nat,
       Gives (.startupDieTrain failed) s fun t => t.rd (.boot .BOOT_STAGE_MAX) .h0 0 = 7 ∧
         (∀ k, t.rd (.thm .ARR_LEVEL) k 0 = 2) ∧
         ∀ die < 8, dieFuse s die = true → stackGood s (dieHalf die) = true → failed.testBit die = false →
           (s.rd (.flt .FLT_LOST_DIE) .h0 0).testBit die = false → (s.rd (.boot .BOOT_FAIL_DIE) .h0 0).testBit die = false →
           t.rd (.boot .DIE_PWR_EN) .h0 die = 1) ∧
     (stageIs s 8 = true → ∀ failed : Fin 4, Gives (.startupHbmTrain failed) s fun t => t.rd (.boot .BOOT_STAGE_MAX) .h0 0 = 8 ∧
       ∀ k, stackFuse s k = true → (failed.val.testBit k.num = false → t.rd (.boot .HBM_OK) k 0 = 1) ∧
         (failed.val.testBit k.num = true → lowNow s = false → t.rd (.boot .HBM_OK) k 0 = 0)) ∧
     (stageIs s 9 = true → hubOk s .h0 = true → hubOk s .h1 = true → ∀ a b : Nat,
       (a ≤ 8 → b ≤ 8 → Gives (.startupPassTrain true a b) s fun t => ∀ k, t.rd (.pkg .PASS_STATUS_STATE) k 0 = 2 ∧
         t.rd (.pkg .PASS_STATUS_LOCK) k 0 = 1) ∧
       Gives (.startupPassTrain false a b) s fun t => ∀ k, t.rd (.pkg .PASS_STATUS_STATE) k 0 = 3) ∧
     (stageIs s 10 = true → Gives .startupPcieReady s fun t => t.rd (.boot .BOOT_STAGE_MAX) .h0 0 = 10 ∧
       ∀ k, hubOk s k = true → s.rd (.boot .FW_RUNNING) k 0 = 1 → t.rd (.boot .MGMT_READY) k 0 = 1))

/-- Stages F and G and step 13. Stage F writes every byte of a usable stack to zero and leaves no line in a die cache. Plateau enable
takes every array to PLAT_INIT; a PLL that has not locked leaves the level and gives ST_PLL_LOCK. Step 13 ends the start-up and sets
GLB_EVT on both halves. A stage beyond its bound ends. -/
def Obligations.StartupToComputeReady : Prop :=
  ∀ s : State,
    (stageIs s 11 = true → s.rd (.boot .EXIT_RUNNING) .h0 0 ≠ 3 → lowNow s = false → ∀ failing : List Nat,
      Gives (.startupCoreTest failing) s fun t => t.rd (.boot .BOOT_STAGE_MAX) .h0 0 = 11 ∧ t.dieLines = [] ∧
        ∀ k, stackGood s k = true → ∀ a, hbmBase k ≤ a → a < hbmBase k + 0x600000000 → t.mem.read a = 0) ∧
    (stageIs s 12 = true →
      (loopInRun s = true → lowNow s = false → (List.range 8).any (powered s) = true → Inv s → Gives .startupPlateauEnable s fun t =>
        ∀ k, t.rd (.thm .ARR_LEVEL) k 0 = s.rd (.boot .STRAP_STATUS_PLAT_INIT) s.chipHalf 0) ∧
      (loopInRun s = true → lowNow s = false → Sets .plateauEnablePllTimeout s
        [cell (.thm .PLAT_STATUS_LAST_STATUS) s.chipHalf 0 ST_PLL_LOCK, cell (.boot .BOOT_STAGE_MAX) .h0 0 12,
          cell (.boot .BOOT_STATUS_STEP) .h0 0 12, cell (.boot .BOOT_STATUS_STEP) .h1 0 12])) ∧
    (stageIs s 13 = true → Gives .computeReady s fun t => t.rd (.boot .BOOT_STAGE_MAX) .h0 0 = 13 ∧
      t.rd (.boot .COMPUTE_READY_DONE) .h0 0 = 1 ∧ ∀ k, (t.rd (.irq .GLB_EVT) k 0).testBit 0 = true) ∧
    (s.rd (.boot .PWR_GOOD_PIN) .h0 0 = 1 → ∀ n, stageMax s + 1 = n → 2 ≤ n → n ≤ 13 → Gives .stageBoundExceeded s fun t =>
      t.rd (.boot .BOOT_STAGE_MAX) .h0 0 = if n = 5 then 6 else n)

/-! ### Power, Lowland mode and restarts (§3.9, §16) -/

/-- POWER_GOOD falling loses the work of the chip and every byte of device memory, and leaves host memory; POWER_GOOD rising begins a
start-up in which every register but fuses, pins and the kind of start is at its reset value. -/
def Obligations.PowerGoodResets : Prop :=
  ∀ s : State,
    (s.rd (.boot .PWR_GOOD_PIN) .h0 0 ≠ 0 → ∀ tearing : Bool, Gives (.powerGoodFall tearing) s fun t =>
      t.chains = [] ∧ t.contexts = [] ∧ t.requests = [] ∧ t.streams = [] ∧ t.keys = [] ∧ t.rd (.boot .PWR_GOOD_PIN) .h0 0 = 0 ∧
      (∀ a < hostBit, t.mem.read a = 0) ∧ ∀ a, hostBit ≤ a → t.mem.read a = s.mem.read a) ∧
    (s.rd (.boot .PWR_GOOD_PIN) .h0 0 ≠ 1 → Gives .powerGoodRise s fun t => t.rd (.boot .PWR_GOOD_PIN) .h0 0 = 1 ∧
      t.chains = [] ∧ t.mem = s.mem ∧ t.pending = s.pending ∧
      ∀ f h i, fuseCell f = false → f ≠ .boot .START_KIND → t.rd f h i = State.reset.rd f h i)

/-- Entry into Lowland mode latches the causes that have arisen and stops the half that holds the roles. EXIT from the half without the
roles, with a cause that only a power cycle leaves, and with the coolant loop not ready, is refused with its status; with only the cause
THERM and the loop ready, it is accepted and the loop enters PRIME. PKG_SERVICE reports each half's management service. -/
def Obligations.LowlandEntryAndExit : Prop :=
  ∀ (h : Half) (s : State),
    (s.rd (.boot .LOW_PEND) .h0 0 ≠ 0 → s.lowland s.chipHalf = false → Inv s → Gives .lowlandEnter s fun t =>
      t.rd (.boot .LOWLAND_IN) s.chipHalf 0 = 1 ∧ t.rd (.boot .LOWLAND_STATUS_CAUSE) .h0 0 =
        setBits (s.rd (.boot .LOWLAND_STATUS_CAUSE) .h0 0) (s.rd (.boot .LOW_PEND) .h0 0) ∧
      t.rd (.pkg .PKG_SERVICE_LOWLAND) .h0 0 = 1) ∧
    (s.holds h = false → Sets (.lowlandExit h) s [cell (.boot .LOWLAND_STATUS_LAST_STATUS) .h0 0 ST_AUX_NO_ROLE]) ∧
    (s.holds h = true → s.rd (.boot .LOW_PEND) .h0 0 = 0 → s.lowland h = true → s.rd (.boot .EXIT_RUNNING) .h0 0 = 0 →
      (4 ≤ s.rd (.boot .LOWLAND_STATUS_CAUSE) .h0 0 →
        Sets (.lowlandExit h) s [cell (.boot .LOWLAND_STATUS_LAST_STATUS) .h0 0 ST_LOWLAND_LOCKED]) ∧
      (s.rd (.boot .LOWLAND_STATUS_CAUSE) .h0 0 = 1 → thermMayLeave s h = false →
        Sets (.lowlandExit h) s [cell (.boot .LOWLAND_STATUS_LAST_STATUS) .h0 0 ST_LOWLAND_HOLD]) ∧
      (s.rd (.boot .LOWLAND_STATUS_CAUSE) .h0 0 = 1 → thermMayLeave s h = true → Gives (.lowlandExit h) s fun t =>
        t.rd (.boot .LOWLAND_STATUS_LAST_STATUS) .h0 0 = ST_OK ∧ t.rd (.boot .EXIT_RUNNING) .h0 0 = 1 ∧
        t.rd (.thm .THERM_STATUS_STATE) h 0 = 1)) ∧
    Gives .pkgServiceUpdate s fun t => t.rd (.pkg .PKG_SERVICE_MGMT_H0) .h0 0 = bit (mgmtOf s .h0) ∧
      t.rd (.pkg .PKG_SERVICE_MGMT_H1) .h0 0 = bit (mgmtOf s .h1)

/-- Rails, input power, interrupt routes and the fabric manager's port events. A VARR excursion loses the die and switches it off; an
excursion of VHUB beyond 10 % is the Lowland cause SECURITY; a die whose DIE_PG does not rise fails E1; a power reading keeps the highest
since the function's last read; a route is written whole; the bit of 3V3_AUX follows the supply. -/
def Obligations.PowerAndInterruptRoutes : Prop :=
  ∀ (h : Half) (s : State),
    (∀ die : Fin 8, ∀ b : Bool, s.rd (.boot .PWR_GOOD_PIN) .h0 0 ≠ 0 → powered s die.val = true →
      (s.rd (.flt .FLT_LOST_DIE) .h0 0).testBit die.val = false → Inv s → Gives (.railExcursion (.varr die) b) s fun t =>
        (t.rd (.flt .FLT_LOST_DIE) .h0 0).testBit die.val = true ∧ t.rd (.boot .DIE_PWR_EN) .h0 die.val = 0 ∧
        (t.rd (.pwr .PWR_EVT) .h0 0).testBit 0 = true) ∧
    (s.rd (.boot .PWR_GOOD_PIN) .h0 0 ≠ 0 → Gives (.railExcursion .vhub true) s fun t =>
      (t.rd (.boot .LOW_PEND) .h0 0).testBit 3 = true ∧ (t.rd (.pwr .PWR_STATUS_RAILS) .h0 0).testBit 5 = false) ∧
    (∀ die : Fin 8, stageIs s 7 = true → powered s die.val = false → dieFuse s die.val = true → stackGood s (dieHalf die.val) = true →
      (s.rd (.flt .FLT_LOST_DIE) .h0 0).testBit die.val = false → (s.rd (.boot .BOOT_FAIL_DIE) .h0 0).testBit die.val = false →
      Gives (.diePgTimeout die) s fun t => (t.rd (.boot .BOOT_FAIL_DIE) .h0 0).testBit die.val = true ∧
        t.rd (.boot .DIE_PWR_EN) .h0 die.val = 0) ∧
    (Gives .inputPowerOver s fun t => (t.rd (.pwr .PWR_EVT) .h0 0).testBit 2 = true ∧
      Touches s t [.pwr .PWR_EVT, .host .MSIX_PBA, .tel .LIVE_SLOT]) ∧
    (∀ avg high, Gives (.pwrInputRead h avg high) s fun t => t.rd (.pwr .PWR_INPUT_AVG) .h0 0 = avg % 2 ^ 16 ∧
      t.rd (.pwr .PWR_PEAK_FN) .h0 h.num = 0 ∧
      Touches s t [.pwr .PWR_INPUT_AVG, .pwr .PWR_INPUT_PEAK, .pwr .PWR_PEAK_FN]) ∧
    (∀ (k : Fin 15) (en : Bool) (vec : Fin 64) (mask : Nat), Gives (.irqRouteWrite h k en vec mask) s fun t =>
      t.rd (.irq .IRQ_ROUTE_EN) h k.val = bit en ∧ t.rd (.irq .IRQ_ROUTE_VEC) h k.val = vec.val ∧
      t.rd (.irq .IRQ_ROUTE_MASK) h k.val = mask % 2 ^ 16 ∧
      Touches s t [.irq .IRQ_ROUTE_EN, .irq .IRQ_ROUTE_VEC, .irq .IRQ_ROUTE_MASK, .host .MSIX_PBA, .tel .LIVE_SLOT]) ∧
    (∀ good : Bool, Gives (.auxSupplyChange good) s fun t => (t.rd (.pwr .PWR_STATUS_RAILS) .h0 0).testBit 0 = good) ∧
    ((s.localPkts.any fun a => a.1 == h && a.2.ptype == 0x13) = true → Gives (.portEventReceive h) s fun t =>
      t.localPkts.length + 1 = s.localPkts.length)

/-! ### The Pass, the split and the roles (§1.4, §16.6, §16.7) -/

/-- The Pass main lanes and the sideband. A flit that is accepted ends its sender's run of exhaustions and counts its replays, while
neither hub has declared the lanes down. An exhausted flit realigns the lanes, and the third in a row declares the Pass down, as the loss
of lock does. A sideband that is lost sets PASS_ERR. Retraining is tried while both hubs may retrain, one is DOWN and the other is DOWN or
RETRAINED; where the lanes train, both read RETRAINED, and a failure is counted. -/
def Obligations.PassLanes : Prop :=
  ∀ (h : Half) (s : State),
    (∀ r : Fin 5,
      (s.lanesUp = false → Sets (.passFlitReceive h r) s []) ∧
      (s.lanesUp = true → Gives (.passFlitReceive h r) s fun t => t.rd (.pkg .PASS_STATUS_EXH_RUN) h.other 0 = 0 ∧
        t.rd (.pkg .PASS_REPLAY_CNT_REPLAYS) h.other 0 = min (s.rd (.pkg .PASS_REPLAY_CNT_REPLAYS) h.other 0 + r.val) (2 ^ 32 - 1))) ∧
    (s.passUp h = false ∨ s.rd (.pkg .PASS_REALIGNING) h 0 ≠ 0 → Sets (.passReplayExhaust h) s []) ∧
    (s.passUp h = true → s.rd (.pkg .PASS_REALIGNING) h 0 = 0 →
      (s.rd (.pkg .PASS_STATUS_EXH_RUN) h 0 < 2 → Gives (.passReplayExhaust h) s fun t => t.rd (.pkg .PASS_REALIGNING) h 0 = 1 ∧
        t.rd (.pkg .PASS_STATUS_EXH_RUN) h 0 = s.rd (.pkg .PASS_STATUS_EXH_RUN) h 0 + 1 ∧ t.passUp h = true) ∧
      (2 ≤ s.rd (.pkg .PASS_STATUS_EXH_RUN) h 0 → Gives (.passReplayExhaust h) s fun t => t.rd (.pkg .PASS_STATUS_STATE) h 0 = 3)) ∧
    Sets (.passRealignDone h) s [cell (.pkg .PASS_REALIGNING) h 0 0] ∧
    (s.passUp h = true → Inv s → Gives (.passLockLost h) s fun t => t.rd (.pkg .PASS_STATUS_STATE) h 0 = 3 ∧
      t.rd (.pkg .PASS_STATUS_LOCK) h 0 = 0 ∧ t.rd (.pkg .PASS_DOWN_TIME) h 0 = s.mt h) ∧
    (s.rd (.pkg .PASS_STATUS_SB_ALIVE) h 0 = 1 → Gives (.passSidebandLost h) s fun t => t.rd (.pkg .PASS_STATUS_SB_ALIVE) h 0 = 0 ∧
      (t.rd (.pkg .PASS_ERR) h 0).testBit 3 = true) ∧
    (s.rd (.pkg .PASS_STATUS_SB_ALIVE) h 0 ≠ 1 → hubOk s h.other = true → Gives (.passSidebandRegained h) s fun t =>
      t.rd (.pkg .PASS_STATUS_SB_ALIVE) h 0 = 1) ∧
    (s.rd (.pkg .PASS_STATUS_STATE) h 0 = 3 → 3 ≤ s.rd (.pkg .PASS_STATUS_STATE) h.other 0 →
      (∀ k, s.rd (.flt .MC_PASS_CTL_RETRAIN_EN) k 0 = 1 ∧ hubOk s k = true) →
        Sets .passRetrainAttempt s [cell (.pkg .PASS_TRYING) .h0 0 1]) ∧
    (retrainDue s = false → Sets .passRetrainAttempt s []) ∧
    (retrainDue s = true → Sets .passRetrainAttempt s [cell (.pkg .PASS_TRYING) .h0 0 1]) ∧
    (s.rd (.pkg .PASS_TRYING) .h0 0 ≠ 0 → ∀ a b : Nat,
      (a ≤ 8 → b ≤ 8 → Gives (.passRetrainEnd true a b) s fun t => ∀ k, t.rd (.pkg .PASS_STATUS_STATE) k 0 = 4) ∧
      Gives (.passRetrainEnd false a b) s fun t => ∀ k, t.rd (.flt .PASS_RETRAIN_CNT) k 0 =
        min (s.rd (.flt .PASS_RETRAIN_CNT) k 0 + 1) (2 ^ 32 - 1))

/-- Arbitration and the rejoin. A ROLE message over a live sideband, and 50 ms of silence of the tray controller, end the arbitration for
the half that holds the roles. A grant in one packet with a valid PEC moves the roles to the half it names; any other, and one on a stuck
bus, changes nothing. At
MT = 235 ms half 1 asks for the roles where half 0 has not passed its self-tests. A half without the roles that reaches TJ_CRIT in a split
withdraws its compute service. REJOIN brings a retrained Pass UP on both halves, and is refused with ST_PASS_STATE otherwise. -/
def Obligations.RolesAndRejoin : Prop :=
  ∀ (h : Half) (s : State),
    (∀ w, s.holder = some w → s.rd (.pkg .PASS_STATUS_SB_ALIVE) h 0 = 1 → s.passUp h = false → s.rd (.boot .ROLES_SETTLED) .h0 0 = 1 →
      Sets (.roleMessageReceive h) s
        [cell (.flt .ROLE_ARB_PATH) h 0 1, cell (.flt .ROLE_ARB_HALF) h 0 w.num, cell (.flt .ARB_PENDING) h 0 0]) ∧
    (∀ (half : Fin 256) (pec single : Bool), (pec && single) = false ∨ 1 < half.val ∨ (∃ k, busStuck s k = true) →
      Sets (.roleGrantReceive half pec single) s []) ∧
    (∀ half : Fin 256, half.val = h.num → s.holds h = false → mayHold s h = true → (∀ k, busStuck s k = false) →
      Gives (.roleGrantReceive half true true) s fun t =>
      t.rd (.flt .MC_STATUS_LATCH) h 0 = 1 ∧ t.rd (.flt .MC_STATUS_LATCH) h.other 0 ≠ 1) ∧
    (s.rd (.flt .ARB_PENDING) h 0 ≠ 1 ∨ s.mt h < s.rd (.flt .ARB_MT) h 0 + 50000000 → Sets (.roleSilenceTimeout h) s []) ∧
    (s.rd (.flt .ARB_PENDING) h 0 = 1 → s.rd (.flt .ARB_MT) h 0 + 50000000 ≤ s.mt h → s.rd (.flt .ARB_HELD) h 0 = 1 →
      Sets (.roleSilenceTimeout h) s
      [cell (.flt .ROLE_ARB_PATH) h 0 3, cell (.flt .ROLE_ARB_HALF) h 0 h.num, cell (.flt .ARB_PENDING) h 0 0]) ∧
    (s.mt .h1 < 235000000 → Sets .startupRoleArbitrate s []) ∧
    (235000000 ≤ s.mt .h1 → s.rd (.boot .SELFTEST_OK) .h1 0 = 1 → s.rd (.boot .SELFTEST_OK) .h0 0 = 0 →
      s.rd (.boot .ROLES_SETTLED) .h0 0 = 0 →
      s.rd (.flt .ARB_PENDING) .h1 0 = 0 → s.rd (.flt .ROLE_ARB_PATH) .h1 0 = 0 → Gives .startupRoleArbitrate s fun t =>
        t.rd (.flt .ARB_PENDING) .h1 0 = 1 ∧ t.rd (.flt .ARB_HELD) .h1 0 = bit (s.holds .h1)) ∧
    (s.holds h = false → 3 ≤ s.rd (.pkg .PASS_STATUS_STATE) h 0 → Gives (.nonholderTjCrit h) s fun t =>
      t.rd (.flt .COMP_WITHDRAWN) h 0 = 1) ∧
    (s.rd (.pkg .PASS_STATUS_STATE) .h0 0 = 4 → s.rd (.pkg .PASS_STATUS_STATE) .h1 0 = 4 → Gives (.passRejoin h) s fun t =>
      (∀ k, t.rd (.pkg .PASS_STATUS_STATE) k 0 = 2 ∧ t.rd (.flt .COMP_WITHDRAWN) k 0 = 0) ∧
        t.rd (.flt .MC_STATUS_LAST_STATUS) h 0 = ST_OK) ∧
    ((∃ k, s.rd (.pkg .PASS_STATUS_STATE) k 0 ≠ 4) → Sets (.passRejoin h) s [cell (.flt .MC_STATUS_LAST_STATUS) h 0 ST_PASS_STATE])

/-- The MC pair. A heartbeat sent advances the generator; one received tells the peer's state and ends a takeover. The holder copies a
generation every 5 ms of MT, which the standby commits when the commit record's CRCs match and its number is newer. The watchdog restarts
an MC, which comes back ACTIVE or STANDBY,
or has failed after 1 s. With both MCs down the holder's hub forces both duties to 100 % and stops dispatch. The takeover: a peer without
heartbeats for 250 µs of a path that was alive has FAILED and is asked to give up the roles it holds; a REVOKE is sent again while it has
not been honoured; a hub
whose own MC is silent for 200 µs honours it, and the roles move to the other half. -/
def Obligations.McPairAndGenerations : Prop :=
  (∀ (h : Half) (s : State), Inv s →
     (mcRuns s h = true → Gives (.mcHeartbeatSend h) s fun t => t.rd (.flt .MC_HB_GEN_MT) h 0 = s.mt h ∧
       Touches s t [.flt .MC_HB_GEN_MT]) ∧
     (mcRuns s h = true → mcRuns s h.other = true → s.peerReachable h = true → Gives (.mcHeartbeatReceive h) s fun t =>
       t.rd (.flt .MC_HB_LAST) h 0 = s.mt h ∧ t.rd (.flt .MC_TAKING_OVER) h 0 = 0 ∧
       t.rd (.flt .MC_PEER_GEN) h 0 = s.rd (.flt .MC_GEN) h.other 0) ∧
     (s.holder = some h → mcRuns s h = true → mcRuns s h.other = true → s.peerReachable h = true → Gives .genSnapshot s fun t =>
       t.rd (.flt .GEN_COPYING) h 0 = 1 ∧ t.genCopy.head?.map (fun p => (p.1, p.2.num)) = some (h.other, s.mt h / 5000000 % 2 ^ 32)) ∧
     (∀ p rec_, s.genCopy.find? (fun q => q.1 == h) = some p → mcRuns s h = true →
       (p.2.bytes.length < 2 ^ 32 → recordMatches p.2.record p.2 = true ∧ fieldAt p.2.record 0 4 = p.2.num % 2 ^ 32) ∧
       (recordMatches rec_ p.2 = false ∨ fieldAt rec_ 0 4 ≤ s.rd (.flt .MC_GEN) h 0 → Sets (.genCommitReceive h rec_) s []) ∧
       (recordMatches rec_ p.2 = true → s.rd (.flt .MC_GEN) h 0 < fieldAt rec_ 0 4 → Gives (.genCommitReceive h rec_) s fun t =>
         t.rd (.flt .MC_GEN) h 0 = fieldAt rec_ 0 4 ∧ t.gen h = some { p.2 with num := fieldAt rec_ 0 4 } ∧
         t.rd (.flt .GEN_COPYING) h.other 0 = 0)) ∧
     (mcRuns s h = true → s.rd (.flt .MC_RESTART_COUNT) h 0 = 0 → Gives (.mcWatchdogExpire h) s fun t =>
       t.rd (.flt .MC_STATUS_SELF) h 0 = 3 ∧ t.rd (.flt .MC_RESTART_COUNT) h 0 = 1) ∧
     (s.rd (.flt .MC_STATUS_SELF) h 0 = 3 → s.rd (.boot .FW_RUNNING) h 0 = 1 →
       (selectedValid s h = true → Gives (.mcRestartDone h) s fun t =>
         t.rd (.flt .MC_STATUS_SELF) h 0 = if s.holds h then 1 else 2) ∧
       (s.mt h < s.rd (.flt .MC_RESTART_AT) h 0 + 1000000000 → Sets (.mcRestartTimeout h) s []) ∧
       (s.rd (.flt .MC_RESTART_AT) h 0 + 1000000000 ≤ s.mt h → Gives (.mcRestartTimeout h) s fun t =>
         t.rd (.boot .FW_RUNNING) h 0 = 0)) ∧
     (s.holder = some h → mcRuns s .h0 = false → mcRuns s .h1 = false → Gives .bothMcFailForce s fun t =>
       (∀ k, t.rd (.flt .DISPATCH_STOPPED) k 0 = 1) ∧ t.rd (.thm .PUMP_PREV) h 0 = 25600 ∧ t.rd (.thm .VALVE_PREV) h 0 = 25600)) ∧
  (∀ (h : Half) (s : State),
     (s.mt h < s.rd (.flt .MC_HB_LAST) h 0 + 250000 ∨ s.mt h < s.rd (.flt .MC_PATH_MT) h 0 + 250000 → Sets (.peerFailTimeout h) s []) ∧
     (mcRuns s h = true → s.peerReachable h = true → s.rd (.flt .MC_STATUS_PEER) h 0 ≠ 4 → s.holds h.other = true →
       s.rd (.flt .MC_HB_LAST) h 0 + 250000 ≤ s.mt h → s.rd (.flt .MC_PATH_MT) h 0 + 250000 ≤ s.mt h →
         Gives (.peerFailTimeout h) s fun t => t.rd (.flt .MC_STATUS_PEER) h 0 = 4 ∧
         t.rd (.flt .MC_TAKING_OVER) h 0 = 1 ∧
         (t.rd (.flt .MC_EVT) h 0).testBit 2 = true) ∧
     (s.rd (.flt .MC_TAKING_OVER) h 0 = 1 → Gives (.revokeRetry h) s fun t => t = s.emit (.interHalf h .revoke)) ∧
     (s.rd (.flt .MC_TAKING_OVER) h.other 0 = 1 → s.holds h = true → s.rd (.flt .MC_HB_GEN_MT) h 0 + 200000 ≤ s.mt h →
       Gives (.revokeReceive h) s fun t => t.rd (.flt .MC_STATUS_LATCH) h 0 = 0 ∧ t.rd (.flt .MC_STATUS_LATCH) h.other 0 = 1))

/-! ### HBM accesses and faults (§1.3, §16) -/

/-- Accesses of the HBM controller that the fence lets through. An engine's read changes nothing but the byte counts, and a corrected error
is counted; a context's read of its own half's stack goes through its die's cache, which holds the last line read after it and counts hits
and misses; a read of the other half's stack leaves the cache alone. A write stores its bytes from its address on, and no other byte of
memory changes. A partial write of an engine whose read finds an uncorrectable error, and a write that is refused, store nothing. -/
def Obligations.HbmAccesses : Prop :=
  ∀ (h k : Half) (r : Requester) (w : Who) (a : Nat) (chan : Fin 32) (s : State), whoOf r s h = some w → targetOf a = .hbm k →
    (∀ len, accessStatus s w false a len = ST_OK →
      (∀ fn c, r = .engine fn c →
        (Gives (.hbmRead h r a len .none chan) s fun t => Touches s t [.tel .LIVE_SLOT]) ∧
        Gives (.hbmRead h r a len .corrected chan) s fun t => Touches s t [.tel .LIVE_SLOT] ∧
          t.rd (.tel .LIVE_SLOT) k 34 = min (s.rd (.tel .LIVE_SLOT) k 34 + 1) (2 ^ 64 - 1)) ∧
      (∀ core slot, r = .context core slot → ∀ err, err = .none ∨ err = .corrected → Gives (.hbmRead h r a len err chan) s fun t =>
        Touches { s with dieLines := t.dieLines, freeCount := t.freeCount } t [.tel .LIVE_SLOT, .core .DC_HIT, .core .DC_MISS] ∧
        (k ≠ h → t.dieLines = s.dieLines) ∧
        (k = h → 0 < len → ⟨h, core.val / 64, (a + len - 1) / 128⟩ ∈ t.dieLines))) ∧
    (∀ data : List Byte,
      (accessStatus s w true a data.length = ST_OK → Gives (.hbmWrite h r a data .none chan) s fun t =>
        (∀ (i : Nat) (b : Byte), data[i]? = some b → t.mem.read (a + i) = b) ∧
        (∀ x, x < a ∨ a + data.length ≤ x → t.mem.read x = s.mem.read x) ∧ 
        Touches { s with mem := t.mem, dieLines := t.dieLines } t [.tel .LIVE_SLOT]) ∧
      (∀ fn c, r = .engine fn c →
        (accessStatus s w true a data.length = ST_OK → partialWrite a data.length = true →
          ((ueRecent s k).filter fun p => p.1 == k).length < s.rd (.flt .FLT_CFG_HBM_UE_LIMIT) k 0 →
          Gives (.hbmWrite h r a data .uncorrectable chan) s fun t => SameMem s t) ∧
        (accessStatus s w true a data.length ≠ ST_OK → Gives (.hbmWrite h r a data .none chan) s fun t => SameMem s t)))

/-- Watchdogs. A context whose pass has not reached its boundary, or that has run CTX_WDT µs without one, takes its context step: its slot
holds no context, and the step is counted. An engine with an operation outstanding takes its engine step. The ring watchdog fires once for
a head, RING_WDT_MS after it was read, and stops the ring where RING_WDT_ACT asks for it. A hub engine's step beyond its bound with
AUTO_CHIP = 0 is reported as UNIT_LOST. -/
def Obligations.Watchdogs : Prop :=
  ∀ (h : Half) (s : State),
    (∀ (core : Fin 256) (slot : Fin 2) (x : Context), ctxAt s h core.val slot.val = some x → s.rd (.thm .DISPATCH_STOP) h 0 ≠ 1 →
      (x.inArray ≠ 0 ∨ x.vec = true → Gives (.passWatchdogExpire h core slot) s fun t => ctxAt t h core.val slot.val = none ∧
        t.rd (.flt .FLT_CNT_CTX) h 0 = min (s.rd (.flt .FLT_CNT_CTX) h 0 + 1) (2 ^ 32 - 1)) ∧
      (s.mt h < x.boundaryMt + s.rd (.flt .FLT_WDT0_CTX_WDT) h 0 * 1000 → Sets (.ctxWatchdogExpire h core slot) s []) ∧
      (slotState s h core.val slot.val = 2 → x.boundaryMt + s.rd (.flt .FLT_WDT0_CTX_WDT) h 0 * 1000 ≤ s.mt h →
        Gives (.ctxWatchdogExpire h core slot) s fun t =>
        ctxAt t h core.val slot.val = none ∧
        t.rd (.flt .FLT_CNT_CTX) h 0 = min (s.rd (.flt .FLT_CNT_CTX) h 0 + 1) (2 ^ 32 - 1))) ∧
    (∀ code ∈ engineCodes, engineOps s (engineHalf h code) code ≠ 0 → Gives (.engineWatchdogExpire h code) s fun t =>
      t.rd (.flt .FLT_CNT_ENG) (engineHalf h code) 0 = min (s.rd (.flt .FLT_CNT_ENG) (engineHalf h code) 0 + 1) (2 ^ 32 - 1) ∧
      (t.rd (.flt .FLT_EVT) (engineHalf h code) 0).testBit 3 = true) ∧
    (∀ (ring : Nat) (c : Chain), ring < 520 → s.rd (.flt .RING_WDT_MS) h ring ≠ 0 →
      s.chains.find? (fun d => d.half == h && d.ring == ring && d.unadmitted) = some c →
      (c.wdtFired = true ∨ s.mt h < c.readMt + s.rd (.flt .RING_WDT_MS) h ring * 1000000 → Sets (.ringWatchdogExpire h ring) s []) ∧
      (c.wdtFired = false → c.readMt + s.rd (.flt .RING_WDT_MS) h ring * 1000000 ≤ s.mt h → Gives (.ringWatchdogExpire h ring) s fun t =>
        (∀ d ∈ t.chains, d.readNo = c.readNo → d.wdtFired = true) ∧
        (s.rd (.flt .RING_WDT_ACT) h ring = 1 → ringSt s h ring = 1 → ringSt t h ring = 2))) ∧
    (∀ unit r, 8 ≤ unit → newestRec s h (fun q => q.step % 8 == 2 && q.unit == unit) = some r →
      s.rd (.flt .FLT_CFG_AUTO_CHIP) h 0 ≠ 1 → Gives (.stepBoundExceeded h 1 unit) s fun t =>
        (t.rd (.flt .FLT_EVT) h 0).testBit 5 = true ∧ Touches s t [.flt .FLT_EVT, .host .MSIX_PBA, .tel .LIVE_SLOT])

/-- The commands of FLT_CTL, with no step of the same or a higher level in progress. The chip reset and the tray cycle come from the half
with the roles. A partition's step is over, with FLT_EVT.PART_STEP, once its rings are DISABLED, at once where they are. A fault log's
consumer index is written with a value that is not above the producer's, and with no other (that half of the 32-bit values are above it is
the model's choice, log entry 88). Faults of units. An engine that reports an error
takes its engine step. A unit with no engine step is reported as lost with AUTO_CHIP = 0. A die whose link fails is lost and switched off;
a stack whose channel fails is lost. -/
def Obligations.FaultCommands : Prop :=
  (∀ (h : Half) (s : State),
     (s.rd (.flt .FLT_STATUS_STEP) h 0 = 0 →
       (∀ x, s.contexts.find? (fun y => y.id == x.id) = some x → Gives (.fltCtxReset h x.id) s fun t =>
         ctxAt t x.half x.core x.slot = none ∧ t.rd (.flt .FLT_STATUS_LAST_STATUS) h 0 = ST_OK) ∧
       (∀ n, s.contexts.find? (fun y => y.id == n) = none →
         Sets (.fltCtxReset h n) s [cell (.flt .FLT_STATUS_LAST_STATUS) h 0 ST_FLT_CONFIG]) ∧
       (∀ code ∈ engineCodes, Gives (.fltEngReset h code) s fun t =>
         t.rd (.flt .FLT_STATUS_LAST_STATUS) h 0 = ST_OK ∧ (t.rd (.flt .FLT_EVT) (engineHalf h code) 0).testBit 3 = true) ∧
       (∀ (k : Half) (p : Nat), p < 64 → s.rd (.sec .PART_CTL_STATE) k p = 1 → Gives (.fltPartReset h (64 * k.num + p)) s fun t =>
         t.rd (.flt .FLT_STATUS_LAST_STATUS) h 0 = ST_OK ∧
         (∀ d ∈ t.chains, d.half = k → ringFn d.ring = p → d.done = true) ∧
         (∀ x ∈ t.contexts, x.half = k → ringFn x.ring ≠ p) ∧
         (∀ r ∈ t.requests, r.half = k → ringFn r.ring = p → r.closing = true) ∧
         ((∀ ring ∈ ringsOf p, ringSt s k ring = 0) → (t.rd (.flt .FLT_EVT) k 0).testBit 4 = true ∧ t.rd (.flt .FLT_PART_STEP) k p = 0) ∧
         ((∃ ring ∈ ringsOf p, ringSt t k ring ≠ 0) → t.rd (.flt .FLT_PART_STEP) k p = 1)) ∧
       (s.holds h = true → chipBlocked s = false → s.peerReachable h = true → Gives (.fltChipReset h) s fun t =>
         t.chains = [] ∧ t.contexts = [] ∧ t.requests = [] ∧ t.rd (.boot .START_KIND) .h0 0 = 1) ∧
       (s.holds h = true → Gives (.fltTrayCycle h) s fun t => t.rd (.flt .TRAY_REQ) .h0 0 = 1 ∧
         t.rd (.flt .FLT_STATUS_STEP) h 0 = 5)) ∧
     (s.holds h = false → ∀ c ∈ [Instr.fltChipReset h, .fltTrayCycle h],
       Sets c s [cell (.flt .FLT_STATUS_LAST_STATUS) h 0 ST_AUX_NO_ROLE]) ∧
     (∀ fn v, fn ≤ pf → v < 2 ^ 32 →
       let behind := (s.rd (.flt .FLT_LOG_PI) h fn + 2 ^ 32 - v) % 2 ^ 32
       (behind < 2 ^ 31 → Sets (.fltLogCiWrite h fn v) s [cell (.flt .FLT_LOG_CI) h fn v]) ∧
       (2 ^ 31 ≤ behind → Sets (.fltLogCiWrite h fn v) s []))) ∧
  (∀ (h : Half) (s : State),
     (∀ code ∈ engineCodes, ∀ kind : Fin 3, Gives (.engineStateError h code kind) s fun t =>
       t.rd (.flt .FLT_CNT_ENG) (engineHalf h code) 0 = min (s.rd (.flt .FLT_CNT_ENG) (engineHalf h code) 0 + 1) (2 ^ 32 - 1) ∧
       (t.rd (.flt .FLT_EVT) (engineHalf h code) 0).testBit 3 = true) ∧
     (s.rd (.flt .FLT_CFG_AUTO_CHIP) h 0 ≠ 1 → Gives (.hubUnitFault h) s fun t =>
       (t.rd (.flt .FLT_EVT) h 0).testBit 5 = true ∧ Touches s t [.flt .FLT_EVT, .host .MSIX_PBA, .tel .LIVE_SLOT]) ∧
     (∀ die : Fin 8, powered s die.val = true → (s.rd (.flt .FLT_LOST_DIE) .h0 0).testBit die.val = false →
       Gives (.dieLinkFail die) s fun t => (t.rd (.flt .FLT_LOST_DIE) .h0 0).testBit die.val = true ∧
         t.rd (.boot .DIE_PWR_EN) .h0 die.val = 0) ∧
     (stackOk s h = true → ∀ (phy : Bool) (chan : Fin 32), Gives (.hbmChannelFail h phy chan) s fun t =>
       stackOk t h = false ∧ (t.rd (.flt .FLT_LOST_STACK) .h0 0).testBit h.num = true ∧ ∀ x ∈ t.contexts, x.half ≠ h))

/-! ### Rings, doorbells and the host link (§4.3, §4.7 to §4.11) -/

/-- The set-up lock, and the states of a ring. The lock of a half is set with PEER_PENDING, and with it the lock of the other half where a
path reaches it; the acknowledgement clears PEER_PENDING. A ring's configuration is written by a function that can be reached while the
ring is DISABLED, and not otherwise. An enable of a DISABLED or STOPPING ring that is refused records its status; one that is not makes
the ring ACTIVE with its indices at START. EN = 0, and FSTOP on a tenant ring, enter STOPPING and end every chain that is not admitted; a
ring that owes nothing more enters DISABLED without its standing context. -/
def Obligations.RingStates : Prop :=
  ∀ (h : Half) (s : State),
    (s.rd (.host .SETUP_LOCK_LOCK) h 0 = 1 → Sets (.setupLockSet h) s []) ∧
    (s.rd (.host .SETUP_LOCK_LOCK) h 0 ≠ 1 →
      (s.peerReachable h = false → Sets (.setupLockSet h) s
        [cell (.host .SETUP_LOCK_LOCK) h 0 1, cell (.host .SETUP_LOCK_PEER_PENDING) h 0 1]) ∧
      (s.peerReachable h = true → Gives (.setupLockSet h) s fun t => t.out = s.out ++ [.interHalf h .setupLock] ∧
        Only { s with out := t.out } t [cell (.host .SETUP_LOCK_LOCK) h 0 1, cell (.host .SETUP_LOCK_PEER_PENDING) h 0 1,
          cell (.host .SETUP_LOCK_LOCK) h.other 0 1])) ∧
    (let acked : Prop := s.rd (.host .SETUP_LOCK_PEER_PENDING) h 0 = 1 ∧ s.rd (.host .SETUP_LOCK_LOCK) h.other 0 = 1 ∧
        s.peerReachable h = true
     (acked → Sets (.setupLockAck h) s [cell (.host .SETUP_LOCK_PEER_PENDING) h 0 0]) ∧
     (¬ acked → Sets (.setupLockAck h) s [])) ∧
    ∀ ring < 520,
      (ringReach s h ring = false → (∀ reg v, Sets (.ringConfigWrite h ring reg v) s []) ∧ Sets (.ringEnable h ring) s []) ∧
      (ringReach s h ring = true →
        (∀ v, ringSt s h ring = 0 →
          Sets (.ringConfigWrite h ring .start v) s [cell (.host .RING_START) h ring (v % 2 ^ 16)] ∧
          Sets (.ringConfigWrite h ring .base v) s [cell (.host .RING_BASE) h ring (v / 4096 * 4096 % 2 ^ 64),
            cell (.host .RING_BASE_WRITTEN) h ring 1] ∧
          Sets (.ringConfigWrite h ring .cqBase v) s [cell (.host .CQ_BASE) h ring (v / 4096 * 4096 % 2 ^ 64),
            cell (.host .CQ_BASE_WRITTEN) h ring 1] ∧
          Sets (.ringConfigWrite h ring .coal v) s [cell (.host .RING_COAL_COAL_CNT) h ring (v / 2 ^ 16 % 2 ^ 8),
            cell (.host .RING_COAL_COAL_TIME) h ring (v % 2 ^ 16)] ∧
          Sets (.ringConfigWrite h ring .cfg v) s [cell (.host .RING_CFG_CQ_VEC) h ring (v / 2 ^ 24 % 2 ^ 6),
            cell (.host .RING_CFG_CQ_IRQ_EN) h ring (v / 2 ^ 20 % 2), cell (.host .RING_CFG_CQ_LOG2) h ring (v / 2 ^ 16 % 2 ^ 4),
            cell (.host .RING_CFG_SIZE_LOG2) h ring (v / 2 ^ 12 % 2 ^ 4), cell (.host .RING_CFG_PINNED) h ring (v / 2 ^ 8 % 2)]) ∧
        (∀ reg v, ringSt s h ring ≠ 0 →
          Sets (.ringConfigWrite h ring reg v) s [cell (.host .RING_STATE_LAST_STATUS) h ring ST_RING_BUSY]) ∧
        (ringSt s h ring = 1 ∨ ringSt s h ring = 3 → Sets (.ringEnable h ring) s []) ∧
        (ringSt s h ring = 0 ∨ ringSt s h ring = 2 →
          (ringSt s h ring = 2 → enableRefusal s h ring = some ST_RING_BUSY) ∧
          (∀ status, enableRefusal s h ring = some status →
            Sets (.ringEnable h ring) s [cell (.host .RING_STATE_LAST_STATUS) h ring (status % 2 ^ 16)]) ∧
          (enableRefusal s h ring = none → Inv s → Gives (.ringEnable h ring) s fun t => ringSt t h ring = 1 ∧
            t.rd (.host .RING_CTL_EN) h ring = 1 ∧ t.rd (.host .RING_STATUS_PI) h ring = s.rd (.host .RING_START) h ring ∧
            t.rd (.host .RING_STATUS_CI) h ring = s.rd (.host .RING_START) h ring ∧ t.rd (.host .RING_STATUS_CQ_PI) h ring = 0 ∧
            t.rd (.host .RING_STATUS_CQ_CI) h ring = 0 ∧ t.rd (.host .RING_STATE_LAST_STATUS) h ring = ST_OK ∧
            Touches { s with doorbells := t.doorbells } t [.host .RING_STATUS_PI, .host .RING_STATUS_CI, .host .RING_STATUS_CQ_PI,
              .host .RING_STATUS_CQ_CI, .host .RING_CTL_EN, .host .RING_STATE_STATE, .host .COAL_SEEN, .host .CQ_RESERVED,
              .host .RING_LOOK, .host .RING_QUIET, .sched .URG_WANT, .host .RING_STATE_CQ_STALL, .host .RING_STATE_LAST_STATUS]))) ∧
      (∀ c ∈ [Instr.ringDisable h ring, .ringFstop h ring],
        ((c = .ringFstop h ring ∧ 512 ≤ ring) ∨ ringSt s h ring = 0 ∨ ringSt s h ring = 2 → Sets c s []) ∧
        ((c = .ringFstop h ring → ring < 512) → ringSt s h ring = 1 ∨ ringSt s h ring = 3 → Gives c s fun t => ringSt t h ring = 2 ∧
          t.rd (.host .RING_CTL_EN) h ring = 0 ∧ (∀ d ∈ t.chains, d.half = h → d.ring = ring → d.stage ≠ .admitted → d.done = true) ∧
          SameMem s t)) ∧
      (ringSt s h ring ≠ 2 ∨ ringOwes s h ring = true → Sets (.ringStopDrained h ring) s []) ∧
      (ringSt s h ring = 2 → ringOwes s h ring = false → Gives (.ringStopDrained h ring) s fun t => ringSt t h ring = 0 ∧
        (∀ x ∈ t.contexts, x.half = h → x.ring = ring → x.standing = false) ∧ SameMem s t)

/-- A doorbell of a ring that its function can reach (R150). On a ring that runs, a new PI that goes forward within the ring's size is
stored, with the time it came; the PI as it stands changes nothing; any other leaves PI and sets RING_ERR.DB_RANGE. On a DISABLED or
STOPPING ring it sets DB_DISABLED. As every write of the window it drops a low word that is staged (R140). -/
def Obligations.DoorbellRange : Prop :=
  ∀ (h : Half) (ring pi : Nat) (s : State), Inv s →
    (ringReach s h ring = false → Sets (.doorbellWrite h ring pi) s []) ∧
    (ringReach s h ring = true →
      let b := dropStaged s h (ringFn ring)
      let ci := s.rd (.host .RING_STATUS_CI) h ring
      let new := (pi % 65536 + 65536 - ci) % 65536
      let old := (s.rd (.host .RING_STATUS_PI) h ring + 65536 - ci) % 65536
      (s.rd (.host .STAGE_TAG) h (ringFn ring) = 0 → b = s) ∧
      (ringSt s h ring = 1 ∨ ringSt s h ring = 3 →
        (old ≤ new → new ≤ sqSize s h ring →
          (new ≠ old → Gives (.doorbellWrite h ring pi) s fun t =>
            t.doorbells = s.doorbells ++ [⟨h, ring, pi % 65536, s.mt h⟩] ∧
            Only { b with doorbells := t.doorbells } t [cell (.host .RING_STATUS_PI) h ring (pi % 65536)]) ∧
          (new = old → Gives (.doorbellWrite h ring pi) s fun t => t = b)) ∧
        (new < old ∨ sqSize s h ring < new → Gives (.doorbellWrite h ring pi) s fun t =>
          (t.rd (.host .RING_ERR) h ring).testBit 0 = true ∧ Touches b t (.host .RING_ERR :: irqFields))) ∧
      (ringSt s h ring = 0 ∨ ringSt s h ring = 2 → Gives (.doorbellWrite h ring pi) s fun t =>
        (t.rd (.host .RING_ERR) h ring).testBit 1 = true ∧ Touches b t (.host .RING_ERR :: irqFields)))

/-- Descriptor fetch. An ACTIVE ring in host memory begins a read of as many of its next entries as have a credit each, which they reserve,
and stalls without one; the read returns the bytes that host memory holds, and of a chain that the PI does not cover nothing is kept; a
read that fails, or that cannot leave the device, puts the ring in ERROR, unless Table 4.7 has stopped its fetches (a STOPPING ring stays
so: the model's choice, log entry 61). A pinned ring's next chain is read from its slots with its records reserved, and CI passes
it. A failed host access ends a running chain with ST_HOST_ACCESS, aborts its collective, fails a group's entries from the one not read,
ends the work of a context, and leaves a prefetched page in the Valley tier. -/
def Obligations.DescriptorFetch : Prop :=
  ∀ (h : Half) (ring : Nat) (s : State),
    let ci := s.rd (.host .RING_STATUS_CI) h ring
    let failed (t : State) (status : Nat) : Prop := ringSt t h ring = (if ringSt s h ring = 1 then 3 else ringSt s h ring) ∧
      t.rd (.host .RING_STATE_LAST_STATUS) h ring = status ∧ (t.rd (.host .RING_ERR) h ring).testBit 5 = true ∧
      Touches { s with fetches := t.fetches } t (.host .RING_STATE_STATE :: .host .RING_STATE_LAST_STATUS :: .host .RING_ERR ::
        .host .CQ_RESERVED :: .host .RING_STATE_FETCHED :: irqFields)
    (let due : Prop := ringSt s h ring = 1 ∧ s.rd (.host .RING_CFG_PINNED) h ring = 0 ∧ fetchCount s h ring ≠ 0
     (¬ due → Sets (.descFetch h ring) s []) ∧
     (due → s.hostOk h (ringFn ring) = false →
      (s.rd (.host .RING_QUIET) h ring = 1 → Sets (.descFetch h ring) s []) ∧
      (s.rd (.host .RING_QUIET) h ring ≠ 1 → Gives (.descFetch h ring) s fun t =>
        t.fetches = s.fetches ∧ failed t ST_HOST_LINK_DOWN)) ∧
     (due → s.hostOk h (ringFn ring) = true →
      let n := min (fetchCount s h ring) (fetchCredit s h ring)
      (n ≠ 0 → Gives (.descFetch h ring) s fun t =>
        t.fetches = s.fetches ++ [⟨h, ring, (ci + inFlight s h ring) % 65536, n, none, n, s.mt h⟩] ∧
        t.rd (.host .CQ_RESERVED) h ring = (s.rd (.host .CQ_RESERVED) h ring + n) % 65536 ∧
        Touches { s with fetches := t.fetches } t
          [.host .CQ_RESERVED, .host .RING_LOOK, .host .RING_STATE_CQ_STALL, .host .RING_STATE_FETCHED]) ∧
      (n = 0 → Sets (.descFetch h ring) s [cell (.host .RING_STATE_CQ_STALL) h ring 1]))) ∧
    (s.fetches.any (fun f => f.open_ h ring) = false → (∀ data, Sets (.descFetchComplete h ring data) s []) ∧
      Sets (.descFetchFail h ring) s []) ∧
    (∀ f, s.fetches.find? (fun g => g.open_ h ring) = some f →
      (∀ data, let u := landRead s h ring f data
        (u.fetches.length = s.fetches.length ∧ { f with data := some (ringBytes u h ring f.first f.count) } ∈ u.fetches ∧
          (data = [] → u.mem = s.mem)) ∧
        ((lookAt u h ring).2 = 0 → Gives (.descFetchComplete h ring data) s fun t => t.fetches = u.fetches ∧ t.mem = u.mem ∧
          Touches { s with fetches := t.fetches, mem := t.mem } t (.tel .LIVE_SLOT :: histFields)) ∧
        ((lookAt u h ring).2 ≠ 0 → Gives (.descFetchComplete h ring data) s fun t =>
          t.fetches = keepEntries h ring (lookAt u h ring).1 u.fetches ∧ t.mem = u.mem ∧
          t.rd (.host .RING_LOOK) h ring = (lookAt u h ring).2 % 65536)) ∧
      Gives (.descFetchFail h ring) s fun t => t.fetches = s.fetches.filter (fun g => !(g.open_ h ring)) ∧ failed t ST_HOST_ACCESS) ∧
    (let posted := (s.rd (.host .RING_STATUS_PI) h ring + 65536 - ci) % 65536
     let len := chainLen (slotEntry s h ring ci) (sqSize s h ring)
     let need := reserveOf s h ring (slotEntry s h ring ci)
     let due : Prop := ringSt s h ring = 1 ∧ s.rd (.host .RING_CFG_PINNED) h ring = 1 ∧ fetchedOf s h ring = 0 ∧ posted ≠ 0 ∧
       len ≤ posted
     (¬ due → Sets (.pinnedRead h ring) s []) ∧
     (due → creditFor s h ring need = false → Sets (.pinnedRead h ring) s [cell (.host .RING_STATE_CQ_STALL) h ring 1]) ∧
     (due → creditFor s h ring need = true → Gives (.pinnedRead h ring) s fun t =>
        t.rd (.host .RING_STATUS_CI) h ring = (ci + len) % 65536 ∧
        t.rd (.host .CQ_RESERVED) h ring = (s.rd (.host .CQ_RESERVED) h ring + need) % 65536 ∧
        t.fetches = s.fetches ++ [⟨h, ring, ci, len, some ((List.range len).map fun k => slotEntry s h ring (ci + k)).flatten, need,
          s.mt h⟩] ∧
        Touches { s with fetches := t.fetches } t
          [.host .RING_STATUS_CI, .host .CQ_RESERVED, .host .RING_STATE_CQ_STALL, .host .RING_STATE_FETCHED])) ∧
    (∀ (seq : Nat) (c : Chain), s.chain h ring seq = some c →
      (collOf s c.readNo = none → c.running = true → Gives (.hostAccessFail h (.chain ring seq)) s fun t =>
        c.finish ST_HOST_ACCESS ∈ t.chains ∧ { t with chains := s.chains } = s) ∧
      (∀ k, collOf s c.readNo = some k → Gives (.hostAccessFail h (.chain ring seq)) s fun t => t = originateAbort s k 3 ST_HOST_ACCESS) ∧
      (∀ entry, c.running = true → c.checked = false → (∃ g, extOf c kGROUP = some g ∧ isHost (fieldAt g 8 8) = true) →
        Gives (.hostAccessFail h (.entries ring seq entry)) s fun t =>
          { c with listFail := some entry } ∈ t.chains ∧ { t with chains := s.chains } = s)) ∧
    (∀ (core : Fin 256) (slot : Fin 2) (x : Context), ctxAt s h core slot = some x → runnable s x = true →
      Gives (.hostAccessFail h (.context core slot)) s fun t => t = ctxAccessFail s x false ST_HOST_ACCESS hostBit 0) ∧
    (∀ (num layer head page : Nat) (x : Transfer) (r : Request), transferOf s h num layer head page false = some x →
      s.request num = some r →
      x.discard = false →
        Gives (.hostAccessFail h (.page num layer head page)) s fun t => t = failFetch s r x ST_HOST_ACCESS enVALLEY x.gen)

/-- Pinned slots. PIN_ALLOC takes 0 or a power of two up to 64 on a DISABLED ring, within the hub's free slots, and fills the ring's slots
with zeros; any other is refused with its status. A slot write of whole words within a slot that is not busy stores its bytes and no
other; a busy slot sets RING_ERR.SLOT_BUSY and keeps its content, a place without a slot sets SLOT_RANGE, and a write that is no run of
whole words is counted. As every write of the window it drops a low word that is staged (R140). -/
def Obligations.PinnedSlots : Prop :=
  ∀ (h : Half) (ring : Nat) (s : State), ring < 520 →
    (∀ count, let free := s.rd (.host .PIN_POOL_FREE) h 0 + s.rd (.host .PIN_COUNT) h ring
      let refused (status : Nat) : Prop := Sets (.pinAllocWrite h ring count) s [cell (.host .PIN_POOL_LAST_STATUS) h 0 status]
      let good : Prop := count = 0 ∨ ∃ k < 7, count = 2 ^ k
      (¬ good → refused ST_RING_CONFIG) ∧ (good → ringSt s h ring ≠ 0 → refused ST_RING_BUSY) ∧
      (good → ringSt s h ring = 0 → free < count → refused ST_PIN_EXHAUSTED) ∧
      (good → ringSt s h ring = 0 → count ≤ free → Gives (.pinAllocWrite h ring count) s fun t =>
        RegsOnly s t [cell (.host .PIN_ALLOC) h ring count, cell (.host .PIN_COUNT) h ring count,
          cell (.host .PIN_POOL_FREE) h 0 ((free - count) % 2 ^ 13), cell (.host .PIN_POOL_LAST_STATUS) h 0 ST_OK] ∧
        { t with regs := s.regs, slots := s.slots } = s ∧
        ∀ x, t.slots.read x = if slotByte h ring 0 0 ≤ x ∧ x < slotByte h ring 0 0 + 4096 then 0 else s.slots.read x)) ∧
    (∀ (off : Nat) (data : List Byte), ringReach s h ring = false → Sets (.pinnedSlotWrite h ring off data) s []) ∧
    (∀ (off : Nat) (data : List Byte), ringReach s h ring = true →
      let b := dropStaged s h (ringFn ring)
      let whole : Prop := 4 ≤ data.length ∧ data.length ≤ 64 ∧ data.length % 4 = 0 ∧ off % 4 = 0
      let held : Prop := s.rd (.host .RING_CFG_PINNED) h ring ≠ 0 ∧ off / 64 < s.rd (.host .PIN_COUNT) h ring
      (¬ whole → Gives (.pinnedSlotWrite h ring off data) s fun t => (t.rd (.host .FUNC_IRQ) h (ringFn ring)).testBit 4 = true ∧
        Touches b t (.host .ACC_CNT_BAD_WIDTH :: irqFields)) ∧
      (whole → ¬ held → Gives (.pinnedSlotWrite h ring off data) s fun t => (t.rd (.host .RING_ERR) h ring).testBit 3 = true ∧
        Touches b t (.host .RING_ERR :: irqFields)) ∧
      (whole → held → 64 < off % 64 + data.length → Gives (.pinnedSlotWrite h ring off data) s fun t => t = b) ∧
      (whole → held → off % 64 + data.length ≤ 64 → slotBusy s h ring (off / 64) = false →
        Gives (.pinnedSlotWrite h ring off data) s fun t => { t with slots := b.slots } = b ∧
        (∀ (i : Nat) (b : Byte), data[i]? = some b → t.slots.read (slotByte h ring (off / 64) (off % 64) + i) = b) ∧
        ∀ x, (x < slotByte h ring (off / 64) (off % 64) ∨ slotByte h ring (off / 64) (off % 64) + data.length ≤ x) →
          t.slots.read x = s.slots.read x) ∧
      (whole → held → off % 64 + data.length ≤ 64 → slotBusy s h ring (off / 64) = true →
        Gives (.pinnedSlotWrite h ring off data) s fun t => (t.rd (.host .RING_ERR) h ring).testBit 2 = true ∧
          Touches b t (.host .RING_ERR :: irqFields)))

/-- Completion rings, event rings and messages. A new CQ_CI within what has been written is stored, and ends the ring's stall where the
credit that the ring waits for is back; any other sets RING_ERR.CQ_DB_RANGE. The event ring is named anew while the rings named are
DISABLED. The moderation time's end clears the count, with a message when it is enabled. Unmasking a vector with its PBA bit set sends one
message. -/
def Obligations.CompletionSignals : Prop :=
  ∀ (h : Half) (s : State),
    (∀ ring ci, ringReach s h ring = false → Sets (.cqDoorbellWrite h ring ci) s []) ∧
    (∀ ring ci, ringReach s h ring = true →
      let b := dropStaged s h (ringFn ring)
      let moved := (ci + 65536 - s.rd (.host .RING_STATUS_CQ_CI) h ring) % 65536
      (moved ≤ cqUsed s h ring → Gives (.cqDoorbellWrite h ring ci) s fun t =>
        t.rd (.host .RING_STATUS_CQ_CI) h ring = ci % 2 ^ 16 ∧
        (creditFor t h ring (nextNeed t h ring) = true → t.rd (.host .RING_STATE_CQ_STALL) h ring = 0) ∧
        (creditFor t h ring (nextNeed t h ring) = false →
          t.rd (.host .RING_STATE_CQ_STALL) h ring = s.rd (.host .RING_STATE_CQ_STALL) h ring) ∧
        Touches b t [.host .RING_STATUS_CQ_CI, .host .RING_STATE_CQ_STALL]) ∧
      (cqUsed s h ring < moved → Gives (.cqDoorbellWrite h ring ci) s fun t => (t.rd (.host .RING_ERR) h ring).testBit 4 = true ∧
        Touches b t (.host .RING_ERR :: irqFields))) ∧
    (∀ (fn : Nat) (en : Bool) (ring : Fin 8), fn ≤ pf → fnExists s h fn = true →
      let free : Prop := (∀ r, eventRing s h fn = some r → ringSt s h r = 0) ∧ (en = true → ringSt s h (fnRing fn ring.val) = 0)
      (free → Sets (.evtRingWrite h fn en ring) s
        [cell (.host .EVT_RING_EN) h fn (bit en), cell (.host .EVT_RING_RING) h fn ring.val]) ∧
      (¬ free → Sets (.evtRingWrite h fn en ring) s
        [cell (.host .RING_STATE_LAST_STATUS) h (fnRing fn ring.val) ST_RING_BUSY])) ∧
    (∀ ring,
      let due : Prop := s.rd (.host .COAL_SEEN) h ring ≠ 0 ∧ s.rd (.host .RING_COAL_COAL_TIME) h ring ≠ 0 ∧
        s.rd (.host .COAL_T0) h ring + s.rd (.host .RING_COAL_COAL_TIME) h ring * 100 ≤ s.mt h
      let fn := ringFn ring
      let vec := s.rd (.host .RING_CFG_CQ_VEC) h ring
      let i := fn * 64 + vec
      (¬ due → Sets (.coalTimeExpire h ring) s []) ∧
      (due → Gives (.coalTimeExpire h ring) s fun t => t.rd (.host .COAL_SEEN) h ring = 0 ∧
        (s.rd (.host .RING_CFG_CQ_IRQ_EN) h ring = 1 → s.rd (.host .MSIX_MASK) h i ≠ 1 → s.hostOk h fn = true → t.out = s.out ++
          [.msix h (routingId h fn) fn vec (s.rd (.host .MSIX_ADDR) h i) (s.rd (.host .MSIX_DATA) h i)]) ∧
        Touches s t [.host .COAL_SEEN, .host .MSIX_PBA, .tel .LIVE_SLOT])) ∧
    ∀ fn vec, fn ≤ pf → vec < vecCount fn →
      let i := fn * 64 + vec
      (s.rd (.host .MSIX_PBA) h i ≠ 1 → Sets (.msixUnmask h fn vec) s [cell (.host .MSIX_MASK) h i 0]) ∧
      (s.rd (.host .MSIX_PBA) h i = 1 → s.hostOk h fn = true → Gives (.msixUnmask h fn vec) s fun t =>
        t.out = s.out ++ [.msix h (routingId h fn) fn vec (s.rd (.host .MSIX_ADDR) h i) (s.rd (.host .MSIX_DATA) h i)] ∧
        t.rd (.host .MSIX_MASK) h i = 0 ∧ t.rd (.host .MSIX_PBA) h i = 0 ∧
        Touches s t [.host .MSIX_MASK, .host .MSIX_PBA, .tel .LIVE_SLOT])

/-- The events of the host link (Table 4.7). PERST#, Hot Reset, DL_Down and an FLR of the PF close every request of the half, leave no
ring ACTIVE, and keep PIN_ALLOC and the set-up lock; an FLR of a VF, a cleared Bus Master Enable and D3hot do so for their function. The
events that are configuration writes do nothing while the port answers them with RRS. The link comes up with one of its widths and rates
while PERST# is not asserted (that the host then enumerates the functions is the model's choice, log entry 8). -/
def Obligations.HostLinkResets : Prop :=
  ∀ (h : Half) (s : State),
    (∀ c ∈ [Instr.perstAssert h, .hotReset h, .dlDown h, .flrPf h], (c = .flrPf h → configOpen s h = true) → Gives c s fun t =>
      (∀ r ∈ t.requests, r.half = h → r.closing = true) ∧
      (∀ ring < 520, (ringSt t h ring = 0 ∨ ringSt t h ring = 2) ∧ t.rd (.host .RING_CTL_EN) h ring = 0 ∧
        t.rd (.host .PIN_ALLOC) h ring = s.rd (.host .PIN_ALLOC) h ring) ∧
      t.rd (.host .SETUP_LOCK_LOCK) h 0 = s.rd (.host .SETUP_LOCK_LOCK) h 0 ∧
      (∀ p < 64, t.rd (.host .VF_EXISTS) h p = 0 ∨ c = .dlDown h) ∧
      (c ≠ .flrPf h → t.rd (.host .LINK_STATUS_LINK_UP) h 0 = 0)) ∧
    (configOpen s h = false → ∀ (fn : Nat) (en : Bool), ∀ c ∈ [Instr.flrPf h, .flrVf h fn, .bmeClear h fn, .d3hotEnter h fn,
      .vfEnableChange h en fn], Sets c s []) ∧
    (configOpen s h = true →
      (∀ vf < 64, s.rd (.host .VF_EXISTS) h vf = 1 → Gives (.flrVf h vf) s fun t => t.rd (.host .BME) h vf = 0 ∧
        (∀ r ∈ t.requests, r.half = h → ringFn r.ring = vf → r.closing = true) ∧
        ∀ k < 8, ringSt t h (8 * vf + k) = 0 ∨ ringSt t h (8 * vf + k) = 2) ∧
      (∀ fn ≤ pf, ∀ c ∈ [Instr.bmeClear h fn, .d3hotEnter h fn], Gives c s fun t => t.hostOk h fn = false ∧
        (∀ r ∈ t.requests, r.half = h → ringFn r.ring = fn → r.closing = true) ∧
        ∀ k < 8, t.rd (.host .RING_QUIET) h (fnRing fn k) = 1 ∧ ∀ f ∈ [HostF.RING_STATE_STATE, .RING_CTL_EN, .RING_BASE, .RING_STATUS_PI],
          t.rd (.host f) h (fnRing fn k) = s.rd (.host f) h (fnRing fn k)) ∧
      ∀ (en : Bool) (n : Nat), Gives (.vfEnableChange h en n) s fun t =>
        let m := if en then min n 64 else 0
        t.rd (.host .NUM_VFS) h 0 = m ∧ ∀ p < 64, t.rd (.host .VF_EXISTS) h p = bit (decide (p < m))) ∧
    Sets (.perstDeassert h) s [cell (.host .PERST_N) h 0 1] ∧
    ∀ (width rate : Nat) (flit : Bool),
      let good : Prop := s.rd (.host .PERST_N) h 0 = 1 ∧ linkOptionOk width rate flit = true
      (¬ good → Sets (.pcieLinkUp h width rate flit) s []) ∧
      (good → Gives (.pcieLinkUp h width rate flit) s fun t =>
        t.rd (.host .LINK_STATUS_LINK_UP) h 0 = 1 ∧ t.rd (.host .LINK_STATUS_WIDTH) h 0 = width ∧
        t.rd (.host .LINK_STATUS_RATE) h 0 = rate ∧ Touches s t [.host .BME, .host .D3HOT, .host .LINK_STATUS_LINK_UP,
          .host .LINK_STATUS_WIDTH, .host .LINK_STATUS_RATE, .host .LINK_STATUS_FLIT])

/-! ### Register accesses (§4.5, §4.6) -/

/-- Reads, and accesses that are no register access. The low word of an RS register latches the high word, which the next read of the high
word returns; without a matching latch that read returns the live word and is counted; any other word is read as it stands. An access to
nothing reads zero, is counted in ACC_CNT.UNMAPPED and sets BAD_ACCESS; a narrow write is discarded and counted in BAD_WIDTH, a narrow
read latches nothing, an 8-byte read gives both words; the doorbell pages read zero. A SNAP copies the counters of a group, or the bins of
a histogram, and raises its sequence number, once in a cycle. -/
def Obligations.RegisterReads : Prop :=
  ∀ (h : Half) (fn off : Nat) (s : State),
    (barReach s h fn = false → ∀ (w : Bool) (bar : Bar) (len : Nat) (data : Option (List Byte)),
      ∀ c ∈ [Instr.rsReadLow h fn off, .rsReadHigh h fn off, .unmappedAccess h fn off w, .narrowAccess h fn bar off len data],
        Sets c s []) ∧
    (barReach s h fn = true →
      (off % 4 = 0 → ∀ c ∈ [Instr.rsReadLow h fn off, .rsReadHigh h fn off],
        (isRs (placeOf s h fn off) 0 = false → isRs (placeOf s h fn off) 4 = false → placeOf s h fn off ≠ .unmapped → Gives c s fun t =>
          t = s.emit (.readData h fn (read4 s h fn off))) ∧
        (isRs (placeOf s h fn off) 0 = true → off + 1 < 2 ^ 32 → Gives c s fun t =>
          t.out = s.out ++ [.readData h fn (read4 s h fn off)] ∧ t.rd (.host .SHADOW_TAG) h fn = off + 1 ∧
          t.rd (.host .SHADOW_HIGH) h fn = read4 s h fn (off + 4) % 2 ^ 32 ∧ Touches s t [.host .SHADOW_TAG, .host .SHADOW_HIGH]) ∧
        (isRs (placeOf s h fn off) 0 = false → isRs (placeOf s h fn off) 4 = true →
          (s.rd (.host .SHADOW_TAG) h fn = off - 4 + 1 → Gives c s fun t =>
            t.out = s.out ++ [.readData h fn (s.rd (.host .SHADOW_HIGH) h fn)] ∧ t.rd (.host .SHADOW_TAG) h fn = 0 ∧
            Touches s t [.host .SHADOW_TAG]) ∧
          (s.rd (.host .SHADOW_TAG) h fn ≠ off - 4 + 1 → Gives c s fun t =>
            t.out.getLast? = some (.readData h fn (read4 s h fn off)) ∧ (t.rd (.host .FUNC_IRQ) h fn).testBit 2 = true ∧
            Touches s t (.host .SHD_CNT_SHADOW_MISS :: irqFields)))) ∧
      (placeOf s h fn (off / 4 * 4) ≠ .unmapped → ∀ w : Bool, Sets (.unmappedAccess h fn off w) s []) ∧
      (placeOf s h fn (off / 4 * 4) = .unmapped → ∀ w : Bool, Gives (.unmappedAccess h fn off w) s fun t =>
        t.rd (.host .ACC_CNT_UNMAPPED) h fn = min (s.rd (.host .ACC_CNT_UNMAPPED) h fn + 1) (2 ^ 16 - 1) ∧
        (t.rd (.host .FUNC_IRQ) h fn).testBit 4 = true ∧ (w = false → t.out.getLast? = some (.readData h fn 0)) ∧
        Touches s t (.host .ACC_CNT_UNMAPPED :: if w then stageFields else irqFields)) ∧
      (∀ len, 1 ≤ len → len < 4 → off % 8 + len ≤ 8 → off + len ≤ barSize fn .bar0 →
        (∀ data : List Byte, data.length = len → Gives (.narrowAccess h fn .bar0 off len (some data)) s fun t =>
          t.rd (.host .ACC_CNT_BAD_WIDTH) h fn = min (s.rd (.host .ACC_CNT_BAD_WIDTH) h fn + 1) (2 ^ 16 - 1) ∧
          Touches s t (.host .ACC_CNT_BAD_WIDTH :: stageFields)) ∧
        (Gives (.narrowAccess h fn .bar0 off len none) s fun t =>
          t.out.getLast? = some (.readData h fn (read8 s h fn (off / 8 * 8) / 2 ^ (8 * (off % 8)) % 2 ^ (8 * len))) ∧
          Touches s t (.host .ACC_CNT_UNMAPPED :: irqFields))) ∧
      (off % 8 = 0 → off + 8 ≤ barSize fn .bar0 → placeOf s h fn off ≠ .unmapped → placeOf s h fn (off + 4) ≠ .unmapped →
        Gives (.narrowAccess h fn .bar0 off 8 none) s fun t => t = s.emit (.readData h fn (read8 s h fn off % 2 ^ 64))) ∧
      (∀ len, 1 ≤ len → off + len ≤ barSize fn .bar2 → Gives (.narrowAccess h fn .bar2 off len none) s fun t =>
        t = s.emit (.readData h fn 0)) ∧
      (∀ k < 8, ∀ data : List Byte, data.length = 4 →
        exec (.narrowAccess h fn .bar2 (0x1000 * k) 4 (some data)) s = exec (.doorbellWrite h (fnRing fn k) (leNat (data.take 2))) s) ∧
      (∀ g < 97, fn = pf ∨ g = 32 + fn → snapped s h g = true → Sets (.counterSnap h fn g) s []) ∧
      (∀ g < 97, fn = pf ∨ g = 32 + fn → isGroup g = true → snapped s h g = false → Inv s → Gives (.counterSnap h fn g) s fun t =>
        (g < 16 ∨ 32 ≤ g → ∀ i < 16, t.rd (.tel .SNAP_SLOT) h (g * 32 + i) = liveSlot s h g i) ∧
        (16 ≤ g → g < 32 → ∀ i < 32, t.rd (.tel .HIST_SNAP_BIN) h ((g - 16) * 32 + i) = s.rd (.tel .HIST_BIN) h ((g - 16) * 32 + i)) ∧
        t.rd (.tel .SNAP_MT) h g = s.mt h ∧ t.rd (.tel .SNAP_SEQ) h g = (s.rd (.tel .SNAP_SEQ) h g + 1) % 2 ^ 32 ∧
        Touches s t [.tel .SNAP_SLOT, .tel .HIST_SNAP_BIN, .tel .HIST_SNAP_COUNT, .tel .HIST_SNAP_SUM, .tel .HIST_SNAP_MAX,
          .tel .SNAP_SEQ, .tel .SNAP_MT]))

/-- Writes by access type and the staged low word, in the window of a VF with no low word staged. A register that no write changes now
discards the write, and so does a function whose window cannot be reached. FUNC_IRQ clears the bits written as ones, FUNC_IRQ_EN takes the
value. The low word of a 64-bit register is held; the write of the high word writes both at one instant. -/
def Obligations.RegisterWrites : Prop :=
  ∀ (h : Half) (p v : Nat) (s : State), p < 64 → v < 2 ^ 32 → Inv s →
    (barReach s h p = false → ∀ (off : Nat) (wide : Bool),
      ∀ c ∈ [Instr.regWrite h p off wide v, .reg64WriteLow h p off v, .reg64WriteHigh h p off v], Sets c s []) ∧
    (barReach s h p = true →
      (∀ off, off % 4 = 0 → placeOf s h p off ≠ .unmapped → disturbs s h (placeOf s h p off) = false →
        Sets (.regWrite h p off false v) s []) ∧
      (s.rd (.host .STAGE_TAG) h p = 0 →
        Sets (.regWrite h p 0x8 false v) s [cell (.host .FUNC_IRQ) h p (clearBits (s.rd (.host .FUNC_IRQ) h p) v)] ∧
        (Gives (.regWrite h p 0xC false v) s fun t => t.rd (.host .FUNC_IRQ_EN) h p = v % 2 ^ 5 ∧
          Touches s t [.host .FUNC_IRQ_EN, .host .MSIX_PBA, .tel .LIVE_SLOT]) ∧
        ∀ off, off % 8 = 0 → off + 1 < 2 ^ 32 → (wideAt (placeOf s h p off) 0).isSome = true →
          disturbs s h (placeOf s h p off) = true → Sets (.reg64WriteLow h p off v) s
            [cell (.host .STAGE_TAG) h p (off + 1), cell (.host .STAGE_LOW) h p v]) ∧
      (∀ k < 8, s.rd (.host .STAGE_TAG) h p = 0x100 + 0x40 * k + 1 → ringSt s h (8 * p + k) = 0 →
        Sets (.reg64WriteHigh h p (0x100 + 0x40 * k + 4) v) s [cell (.host .STAGE_TAG) h p 0,
          cell (.host .RING_BASE) h (8 * p + k) ((s.rd (.host .STAGE_LOW) h p + v * 2 ^ 32) / 4096 * 4096),
          cell (.host .RING_BASE_WRITTEN) h (8 * p + k) 1]))


/-! ### Chains (§5) -/

/-- A chain that has landed whole on a ring with credit for its records is read: one that fails a check of Table 5.5a completes at once
with the status of the first that fails, and DETAIL naming the block and the offset; one read from a ring that is stopped, or in Lowland
mode, completes unrun; any other joins the chains as it stands. Without credit the ring stalls; a chain that has not landed whole waits,
and is dropped on a stopped ring (the model's choice, log entry 61). A completed chain leaves, its signal is given where its host link
stands, and a record is written: the 32 bytes of Table 4.6 in the next slot of the completion ring, no other byte, and CQ_PI moved on; a
GEN_STEP that ends within a step writes that step's record before it. -/
def Obligations.ChainReadAndComplete : Prop :=
  ∀ (h : Half) (ring : Nat) (s : State),
    (let head := (landedBytes s h ring).take 64
     let n := chainLen head (sqSize s h ring)
     let exts := (List.range (n - 1)).map fun i => ((landedBytes s h ring).drop (64 * (i + 1))).take 64
     let isNew (c : Chain) : Prop := c.readNo = s.readNo ∧ c.half = h ∧ c.ring = ring ∧ c.head = head ∧ c.exts = exts
     let len := (landedBytes s h ring).length
     let b := stallBit (consume (s.wr (.host .CQ_RESERVED) h (s.rd (.host .CQ_RESERVED) h ring - heldFor s h ring) ring) h ring n)
       h ring false
     (len < 64 ∨ (len < 64 * n ∧ ringSt s h ring ≠ 2) → Sets (.chainRead h ring) s []) ∧
     (64 ≤ len → len < 64 * n → ringSt s h ring = 2 → Gives (.chainRead h ring) s fun t =>
        t.fetches = (s.fetches.filter fun f => !(f.half == h && f.ring == ring)) ∧
        Touches { s with fetches := t.fetches } t [.host .CQ_RESERVED, .host .RING_STATE_FETCHED]) ∧
     (64 ≤ len → 64 * n ≤ len →
      let need := if (unrunStatus s h ring).isSome then 1 else reserveOf s h ring head
      (heldFor s h ring < need → creditFor s h ring (need - heldFor s h ring) = false →
        Sets (.chainRead h ring) s [cell (.host .RING_STATE_CQ_STALL) h ring 1]) ∧
      (need ≤ heldFor s h ring ∨ creditFor s h ring (need - heldFor s h ring) = true →
        (∀ st, unrunStatus s h ring = some st → Gives (.chainRead h ring) s fun t =>
          (∃ c ∈ t.chains, isNew c ∧ c.done = true ∧ c.status = st) ∧ SameMem s t) ∧
        (unrunStatus s h ring = none →
          (∀ r, chainChecks b h ring head exts (mapBroken b head exts) = some r → Gives (.chainRead h ring) s fun t =>
            (∃ c ∈ t.chains, isNew c ∧ c.done = true ∧ c.status = r.1 ∧ c.detail = r.2.1 * 256 + r.2.2) ∧ SameMem s t) ∧
          (chainChecks b h ring head exts (mapBroken b head exts) = none →
            Gives (.chainRead h ring) s fun t => ∃ c ∈ t.chains, isNew c))))) ∧
    (∀ (seq : Nat) (c : Chain), s.chain h ring seq = some c →
      (c.done = false → Sets (.chainComplete h ring seq) s []) ∧
      (c.done = true → (∀ d ∈ s.chains, d.readNo = c.readNo → d = c) → Gives (.chainComplete h ring seq) s fun t =>
        (∀ d ∈ t.chains, d.readNo ≠ c.readNo) ∧
        (c.finalStatus ≠ ST_HOST_LINK_DOWN → (∀ f ∈ c.fails, f.2 ≠ ST_HOST_LINK_DOWN) →
          (signals c c.finalStatus = true → t.rd (.desc .EVC_VAL) h (hdSigEv c.head) =
            (s.rd (.desc .EVC_VAL) h (hdSigEv c.head) + hdSigInc c.head) % 2 ^ 32) ∧
          (c.silent = false → s.hostOk h (ringFn ring) = true → t.rd (.host .RING_STATUS_CQ_PI) h ring =
            (s.rd (.host .RING_STATUS_CQ_PI) h ring + (if c.gen.isSome then 2 else 1)) % 2 ^ 16)))) ∧
    (∀ (r : CqRec) (now : Bool), s.hostOk h (ringFn ring) = true →
      let m := s.rd (.host .RING_STATUS_CQ_PI) h ring
      let a := hostBit + s.rd (.host .CQ_BASE) h ring + m % cqSize s h ring * 32
      (writeRecord s h ring r now).mem.readN a 32 = recBytes s h ring m r ∧
        ∀ x, x < a ∨ a + 32 ≤ x → (writeRecord s h ring r now).mem.read x = s.mem.read x)

/-- The synchronization opcodes, on a chain that runs. MARKER stores WR_VAL where WR_ADDR is not 0 and no other byte, and ends with the
status of the store. FENCE and BARRIER end once nothing that they cover is open, TIME_WAIT once it runs. EVENT_OP adds to its counter or
sets it. Each does nothing for a chain that does not run or carries another opcode. -/
def Obligations.SyncOpcodes : Prop :=
  ∀ (h : Half) (ring seq : Nat) (c : Chain) (s : State), s.chain h ring seq = some c →
    let op := hdOpcode c.head
    let ends (t : State) (status : Nat) : Prop := c.finish status ∈ t.chains ∧ { t with chains := s.chains } = s
    (∀ p ∈ [(Instr.marker h ring seq, opMARKER), (.fence h ring seq, opFENCE), (.barrier h ring seq, opBARRIER),
      (.timeWait h ring seq, opTIME_WAIT), (.eventOp h ring seq, opEVENT_OP)], c.running = false ∨ op ≠ p.2 → Sets p.1 s []) ∧
    (c.running = true →
    (op = opMARKER →
      let a := fieldAt c.head 0x20 8
      let w := engine h (ringFn ring)
      let marked (t : State) (status : Nat) : Prop := { c.finish status with detail := fieldAt c.head 0x18 4 } ∈ t.chains
      (a = 0 → Gives (.marker h ring seq) s fun t => marked t ST_OK ∧ { t with chains := s.chains } = s) ∧
      (a ≠ 0 → c.cancelled = true → isHost a = true → Gives (.marker h ring seq) s fun t => marked t ST_OK ∧ SameMem s t) ∧
      (a ≠ 0 → c.cancelled = false ∨ isHost a = false →
        (accessStatus s w true a 8 = ST_OK → Gives (.marker h ring seq) s fun t => marked t ST_OK ∧
          t.mem.readN a 8 = leBytes 8 (fieldAt c.head 0x28 8) ∧ ∀ x, x < a ∨ a + 8 ≤ x → t.mem.read x = s.mem.read x) ∧
        (accessStatus s w true a 8 ≠ ST_OK → Gives (.marker h ring seq) s fun t =>
          marked t (accessStatus s w true a 8) ∧ SameMem s t))) ∧
    (op = opFENCE → (fenceOpen s c = true → Sets (.fence h ring seq) s []) ∧
      (fenceOpen s c = false → Gives (.fence h ring seq) s fun t => ends t ST_OK)) ∧
    (op = opBARRIER → (c.snap.any (barrierOpen s c) = true → Sets (.barrier h ring seq) s []) ∧
      (c.snap.any (barrierOpen s c) = false → Gives (.barrier h ring seq) s fun t => ends t ST_OK)) ∧
    (op = opTIME_WAIT → Gives (.timeWait h ring seq) s fun t => ends t ST_OK) ∧
    (op = opEVENT_OP →
      let k := fieldAt c.head 0x18 2 % 4096
      let v := fieldAt c.head 0x1C 4
      Gives (.eventOp h ring seq) s fun t => (∃ d ∈ t.chains, d.readNo = c.readNo ∧ d.done = true) ∧ SameMem s t ∧
        t.rd (.desc .EVC_VAL) h k = if fieldAt c.head 0x1A 1 = 1 then v else (s.rd (.desc .EVC_VAL) h k + v) % 2 ^ 32))

/-- Event counters, allotments and requests. A counter's write sets it or adds to it and leaves the other counters; an allotment is
applied, or refused with the status of R205, and written no more once the set-up lock is set. CANCEL closes every request that it names,
with every chain of theirs that is not admitted, and ends once those have their records. REQ_OPEN and REQ_CLOSE end their chains, and
REQ_CLOSE puts END on the OPEN streams of its request unless a SHIP read before it has pages to queue; a request that is over is FREE. -/
def Obligations.EventCountersAndRequests : Prop :=
  ∀ (h : Half) (s : State),
    (∀ fn j v, counterOf s h fn j = none → Sets (.evcValWrite h fn j v) s [] ∧ Sets (.evcAddWrite h fn j v) s []) ∧
    (∀ fn j v k, counterOf s h fn j = some k →
      (Gives (.evcValWrite h fn j v) s fun t => t.rd (.desc .EVC_VAL) h k = v % 2 ^ 32 ∧ SameMem s t ∧
        ∀ i, i ≠ k → t.rd (.desc .EVC_VAL) h i = s.rd (.desc .EVC_VAL) h i) ∧
      (Gives (.evcAddWrite h fn j v) s fun t => t.rd (.desc .EVC_VAL) h k = (s.rd (.desc .EVC_VAL) h k + v) % 2 ^ 32 ∧ SameMem s t ∧
        ∀ i, i ≠ k → t.rd (.desc .EVC_VAL) h i = s.rd (.desc .EVC_VAL) h i)) ∧
    (∀ p base count, 64 ≤ p → Sets (.evcAllocWrite h p base count) s [] ∧ Sets (.reqAllocWrite h p base count) s []) ∧
    (∀ p base count, p < 64 →
      let evc := allotStatus s h p base count 4096 64 (.desc .EVC_ALLOC_BASE) (.desc .EVC_ALLOC_COUNT)
      let req := allotStatus s h p base count 4096 4096 (.desc .REQ_ALLOC_BASE) (.desc .REQ_ALLOC_COUNT)
      (locked s h = true → ∀ c ∈ [Instr.evcAllocWrite h p base count, .reqAllocWrite h p base count], Sets c s []) ∧
      (locked s h = false →
        (evc = ST_OK → Sets (.evcAllocWrite h p base count) s [cell (.desc .ALLOC_STATUS_LAST_STATUS) h 0 ST_OK,
          cell (.desc .EVC_ALLOC_BASE) h p (base % 2 ^ 12), cell (.desc .EVC_ALLOC_COUNT) h p count]) ∧
        (evc ≠ ST_OK → Sets (.evcAllocWrite h p base count) s [cell (.desc .ALLOC_STATUS_LAST_STATUS) h 0 evc]) ∧
        (req = ST_OK → Sets (.reqAllocWrite h p base count) s [cell (.desc .ALLOC_STATUS_LAST_STATUS) h 0 ST_OK,
          cell (.desc .REQ_ALLOC_BASE) h p (base % 2 ^ 12), cell (.desc .REQ_ALLOC_COUNT) h p count]) ∧
        (req ≠ ST_OK → Sets (.reqAllocWrite h p base count) s [cell (.desc .ALLOC_STATUS_LAST_STATUS) h 0 req]))) ∧
    (∀ (ring seq : Nat) (c : Chain), s.chain h ring seq = some c →
      (let due : Prop := hdOpcode c.head = opCANCEL ∧ c.done = false ∧ c.stage ≠ .waiting ∧ c.stage ≠ .timed
       let owed := s.chains.any fun d => c.snap.contains (d.readNo, 0)
       (¬ due → Sets (.cancel h ring seq) s []) ∧
       (due → c.progress = 0 → Gives (.cancel h ring seq) s fun t => ∀ r ∈ cancelTargets s c,
          (∀ q ∈ t.requests, q.num = r.num → q.closing = true ∧ q.cancelled = true) ∧
          ∀ d ∈ t.chains, d.ofRequest r.num = true → d.stage = .admitted ∨ d.done = true) ∧
       (due → c.progress ≠ 0 → (owed = true → Sets (.cancel h ring seq) s []) ∧
         (owed = false → Gives (.cancel h ring seq) s fun t => c.finish ST_OK ∈ t.chains ∧ { t with chains := s.chains } = s))) ∧
      (c.running = true → hdOpcode c.head = opREQ_OPEN → Gives (.reqOpen h ring seq) s fun t => c.finish c.status ∈ t.chains ∧
        (∀ q ∈ t.requests, q.num = hdRequest c.head → q.admitted = true) ∧
        { t with chains := s.chains, requests := s.requests } = s) ∧
      (c.running = true → hdOpcode c.head = opREQ_CLOSE → Gives (.reqClose h ring seq) s fun t => c.finish ST_OK ∈ t.chains ∧
        ((s.request (hdRequest c.head)).any (shipsDue s) = true → { t with chains := s.chains } = s) ∧
        ((s.request (hdRequest c.head)).any (shipsDue s) = false →
          (∀ x ∈ t.streams, x.half = h → x.request = hdRequest c.head → x.state ≠ 0) ∧
          Touches { s with chains := t.chains, streams := t.streams } t
            ([EgrF.STREAM_ST0_ID, .STREAM_ST0_V, .STREAM_ST0_STATE, .STREAM_ST0_CLASS, .STREAM_ST0_PLAN, .STREAM_ST0_REQUEST,
              .STREAM_ST1_NEXT_SEQ, .STREAM_ST1_ACKED, .STREAM_ST2_STATUS, .STREAM_ST2_RATE, .STREAM_ST2_SRTT].map Fld.egr)))) ∧
    (∀ (num : Nat) (r : Request), s.request num = some r →
      (r.half ≠ h ∨ requestOver s r = false → Sets (.requestFree h num) s []) ∧
      (r.half = h → requestOver s r = true → Gives (.requestFree h num) s fun t => (∀ q ∈ t.requests, q.num ≠ num) ∧
        (r.silent = false → s.hostOk h (ringFn r.ring) = true → t.rd (.host .RING_STATUS_CQ_PI) h r.ring =
          (s.rd (.host .RING_STATUS_CQ_PI) h r.ring + 1) % 2 ^ 16)))

/-! ### Cores (§6, §7) -/

/-- A context at work: `x` holds the slot for the chain `c`, which runs. An index of the work counter is asked for, and taken from the
counter when it returns; the return over a Pass that is down ends the chain. A load is issued, and has landed when its bytes are in the
window with no access refused. A pass enters the array; a combine is counted; a halo lands; phase 2 begins. A switch gives a slot the
array where the other slot is empty, or at a boundary stands at a higher class code; a half that dispatches no pass does none of these. -/
def Obligations.ContextWork : Prop :=
  ∀ (h : Half) (core : Nat) (slot : Fin 2) (x : Context) (c : Chain) (s : State),
    ctxAt s h core slot.val = some x → chainOf s x = some c → c.done = false →
    let only (t : State) (y : Context) : Prop := ctxAt t h core slot.val = some y ∧ { t with contexts := s.contexts } = s
    (ctxLive s x = true → dynamic c x = true → x.next = none → x.fetching = false →
      Gives (.workFetch h core slot) s fun t => only t { x with fetching := true }) ∧
    (x.fetching = false → Sets (.workIndexReturn h core slot) s []) ∧
    (x.fetching = true → x.half = c.half ∨ s.lanesUp = true → c.stop = false → Gives (.workIndexReturn h core slot) s fun t =>
      (∃ d ∈ t.chains, d.readNo = c.readNo ∧ d.work = c.work + 1) ∧
      (x.idle = false → ctxAt t h core slot.val = some { x with fetching := false, next := some c.work })) ∧
    (x.fetching = true → x.half ≠ c.half → s.lanesUp = false → Gives (.workIndexReturn h core slot) s fun t =>
      ∃ d ∈ t.chains, d.readNo = c.readNo ∧ d.done = true) ∧
    (∀ isB j, isNest c = true → jobOf s x = some j →
      (∀ n, j.nextLoad isB = some n → ctxLive s x = true → Gives (.bufferLoad h core slot isB) s fun t =>
        only t { x with loads := x.loads ++ [loadCode isB n] }) ∧
      (∀ k, x.loads.find? (fun q => q % 2 == bit isB) = some k → (j.load isB (k / 2) ⟨s, none⟩).fail = none →
        Gives (.bufferLoadLanded h core slot isB) s fun t => ∃ y, ctxAt t h core slot.val = some y ∧ k ∈ y.landed ∧ k ∉ y.loads) ∧
      (onArray s x = true → x.vec = false → x.comb = false → x.pass < j.t.passes → j.ready = true → s.dispatchOff h = false →
        (j.pass ⟨urgentPass s x, none⟩).fail = none → Gives (.tilePass h core slot) s fun t =>
          ∃ y, ctxAt t h core slot.val = some y ∧ y.pass = x.pass + 1 ∧ y.inArray = x.inArray + 1) ∧
      (x.comb = true → onArray s x = true → (combineBlock j (j.blockAt (x.pass - 1)) ⟨s, none⟩).fail = none →
        Gives (.splitkCombine h core slot) s fun t => t.rd (.tile .TD_COMBINE) h (core / 64) =
          min (s.rd (.tile .TD_COMBINE) h (core / 64) + 1) (2 ^ 32 - 1)) ∧
      ((haloTake s x).isSome = true → Gives (.haloReceive h core slot) s fun t =>
        ∀ y, ctxAt t h core slot.val = some y → y.chainNo = x.chainNo → haloCode ∈ y.landed) ∧
      (isFused c = true → j.phase2 = false → j.t.passes ≤ x.pass → x.vec = false → x.inArray = 0 →
        Gives (.fusedPhase2Start h core slot) s fun t =>
          only t { x with phase2 := true, pass := 0, loads := [], landed := [], acc := [] })) ∧
    (s.dispatchOff h = true → Sets (.tilePass h core slot) s [] ∧ Sets (.slotSwitch h core slot) s []) ∧
    (s.dispatchOff h = false → slotState s h core slot.val = 1 ∨ slotState s h core slot.val = 3 → runnable s x = true →
      let moved (t : State) (fs : List Fld) : Prop := slotState t h core slot.val = 2 ∧
        Touches { s with contexts := t.contexts } t ([.core .CORE_STATUS_SLOT0, .core .CORE_STATUS_SLOT1, .core .CORE_STATUS_ACTIVE,
          .core .SWITCH_CNT, .tel .LIVE_SLOT] ++ fs)
      (ctxAt s h core (1 - slot.val) = none → Gives (.slotSwitch h core slot) s fun t => moved t []) ∧
      (∀ y, ctxAt s h core (1 - slot.val) = some y → onArray s y = true → y.inArray = 0 → runnable s y = true →
        (ctxClass s x < ctxClass s y → Gives (.slotSwitch h core slot) s fun t =>
          slotState t h core (1 - slot.val) = 3 ∧ moved t [.sched .PREEMPT_CNT]) ∧
        (ctxClass s y ≤ ctxClass s x → Sets (.slotSwitch h core slot) s [])))

/-- The cores' registers and the two opcodes of the cores. A corrected error of the scratchpad is counted; an uncorrectable one that a
context meets takes its context step, and one that an engine meets ends its chain; an error of a line that a die's cache holds is counted
there. The bank split changes while both slots are EMPTY; CORE_CNT_CLR clears the counters it names; an invalidation leaves a die's cache
without lines. MATMUL and FUSED run the steps of their contexts; a chain whose one context has no item left ends. -/
def Obligations.CoreRegistersAndMatrixChains : Prop :=
  ∀ (h : Half) (s : State),
    (∀ core, 256 ≤ core → ∀ (site : EccAt) (off synd split mask : Nat) (u rmw : Bool), ∀ c ∈ [Instr.spEccError h core site off synd u rmw,
      .coreCfgWrite h core split, .coreCntClr h core mask], Sets c s []) ∧
    (∀ core < 256,
      let die := core / 64
      let one := cell (.core .SP_ECC_UNCORR) h core (min (s.rd (.core .SP_ECC_UNCORR) h core + 1) (2 ^ 16 - 1))
      (∀ site off synd rmw, (∀ line, site ≠ .cacheLine line) → Sets (.spEccError h core site off synd false rmw) s
        [cell (.core .SP_ECC_CORR) h core (min (s.rd (.core .SP_ECC_CORR) h core + 1) (2 ^ 16 - 1))]) ∧
      (∀ (k : Half) (c : Fin 256) (slot : Fin 2) (site : EccAt) off synd rmw,
        (site = .context k c slot ∨ site = .slot slot ∧ k = h ∧ c.val = core) →
        ((∀ x, ctxAt s k c.val slot.val = some x → atWork x = false) → Sets (.spEccError h core site off synd true rmw) s [one]) ∧
        (∀ x, ctxAt s k c.val slot.val = some x → atWork x = true → Gives (.spEccError h core site off synd true rmw) s fun t =>
          ctxAt t k c.val slot.val = none ∧
          t.rd (.core .SP_ECC_UNCORR) h core = min (s.rd (.core .SP_ECC_UNCORR) h core + 1) (2 ^ 16 - 1))) ∧
      (∀ k ring seq off synd rmw,
        ((∀ c, s.chain k ring seq = some c → c.running = false) →
          Sets (.spEccError h core (.engine k ring seq) off synd true rmw) s [one]) ∧
        (∀ c, s.chain k ring seq = some c → c.running = true →
          (collOf s c.readNo = none → Gives (.spEccError h core (.engine k ring seq) off synd true rmw) s fun t =>
            c.finish ST_ECC_UNCORR ∈ t.chains ∧ Only { s with chains := t.chains } t [one]) ∧
          ((collOf s c.readNo).isSome = true → Gives (.spEccError h core (.engine k ring seq) off synd true rmw) s fun t =>
            ∃ d ∈ t.chains, d.readNo = c.readNo ∧ d.done = true))) ∧
      (∀ line off synd u rmw,
        (⟨h, die, line⟩ ∉ s.dieLines → Sets (.spEccError h core (.cacheLine line) off synd u rmw) s []) ∧
        (⟨h, die, line⟩ ∈ s.dieLines →
          (u = false → Sets (.spEccError h core (.cacheLine line) off synd u rmw) s
            [cell (.core .DC_ECC_CORR) h die (min (s.rd (.core .DC_ECC_CORR) h die + 1) (2 ^ 16 - 1))]) ∧
          (u = true → Gives (.spEccError h core (.cacheLine line) off synd u rmw) s fun t =>
            t.rd (.core .DC_ECC_UNCORR) h die = min (s.rd (.core .DC_ECC_UNCORR) h die + 1) (2 ^ 16 - 1) ∧
            Touches s t [.core .DC_ECC_UNCORR, .tel .LIVE_SLOT]))) ∧
      (∀ split,
        let busy : Prop := slotState s h core 0 ≠ 0 ∨ slotState s h core 1 ≠ 0
        (¬ busy → split % 4 ≠ 3 → Sets (.coreCfgWrite h core split) s
          [cell (.core .CORE_STATUS_LAST_STATUS) h core ST_OK, cell (.core .CORE_CFG_BANK_SPLIT) h core (split % 4)]) ∧
        (¬ busy → split % 4 = 3 → Sets (.coreCfgWrite h core split) s [cell (.core .CORE_STATUS_LAST_STATUS) h core ST_CORE_CONFIG]) ∧
        (busy → Sets (.coreCfgWrite h core split) s [cell (.core .CORE_STATUS_LAST_STATUS) h core ST_CORE_BUSY])) ∧
      (∀ mask, Gives (.coreCntClr h core mask) s fun t =>
        Touches s t [.core .NUM_SAT, .core .NUM_NAN, .core .SP_ECC_CORR, .core .SP_ECC_UNCORR] ∧
        t.rd (.core .NUM_SAT) h core = (if mask.testBit 0 then 0 else s.rd (.core .NUM_SAT) h core) ∧
        t.rd (.core .NUM_NAN) h core = (if mask.testBit 1 then 0 else s.rd (.core .NUM_NAN) h core) ∧
        t.rd (.core .SP_ECC_CORR) h core = (if mask.testBit 2 then 0 else s.rd (.core .SP_ECC_CORR) h core) ∧
        t.rd (.core .SP_ECC_UNCORR) h core = (if mask.testBit 2 then 0 else s.rd (.core .SP_ECC_UNCORR) h core))) ∧
    (∀ die : Fin 4, Gives (.dieCacheInvalidate h die) s fun t =>
      t.dieLines = s.dieLines.filter (fun l => !(l.half == h && l.die == die.val)) ∧ { t with dieLines := s.dieLines } = s) ∧
    ∀ (ring seq : Nat) (c : Chain), s.chain h ring seq = some c →
      ∀ p ∈ [(Instr.matmul h ring seq, opMATMUL), (.fused h ring seq, opFUSED)],
        (c.running = false ∨ hdOpcode c.head ≠ p.2 → Sets p.1 s []) ∧ (c.running = true → hdOpcode c.head = p.2 →
        (Gives p.1 s fun t => t = driveNest driveFuel c.readNo s) ∧
        (∀ x, ctxsOf s c.readNo = [x] → ctxAt s x.half x.core x.slot = some x → s.chains.find? (fun d => d.readNo == c.readNo) = some c →
          collOf s c.readNo = none → s.dispatchOff x.half = false → x.idle = true → ctxLive s x = true → nextItem s c x = some none →
            Gives p.1 s fun t =>
            (∃ d ∈ t.chains, d.readNo = c.readNo ∧ d.done = true) ∧ ctxsOf t c.readNo = []))

/-! ### Attention (§8), generation and copies (§5, §10.7) -/

/-- Contexts at their items: `x` holds the slot for the chain `c`, which runs. What holds of the context holds while it stays with its
chain: an access that is refused takes its context step instead. A dispatched context has read its tables; an item has begun, or its
context waits for its ring's block, or leaves when none is left; at a boundary the array is empty and its passes are counted; a vector
step does a row; a fold goes on past its key block, waits for one still to land, and ends its range after the last; a composed unit and a
combine end their item; a demand leaves the context waiting, or its item over. -/
def Obligations.ItemsAndFolds : Prop :=
  ∀ (h : Half) (core : Nat) (slot : Fin 2) (x : Context) (c : Chain) (s : State),
    ctxAt s h core slot.val = some x → chainOf s x = some c → c.done = false →
    let stays (t : State) (P : Context → Prop) : Prop := ∀ y, ctxAt t h core slot.val = some y → y.chainNo = x.chainNo → P y
    (x.read = true ∨ s.dispatchOff h = true → Sets (.contextDispatch h core slot) s []) ∧
    (x.read = false → s.dispatchOff h = false → (isAttn c = true → (c.requestNum.bind s.request).isSome = true) →
      Gives (.contextDispatch h core slot) s fun t => stays t fun y => y.read = true) ∧
    (ctxLive s x = true → x.idle = true → nextItem s c x = some none → isNest c = true ∨ isAttn c = true →
      Gives (.itemStart h core slot) s fun t => ∀ y, ctxAt t h core slot.val = some y → y.chainNo = none) ∧
    (∀ i, ctxLive s x = true → x.idle = true → nextItem s c x = some (some i) →
      (isNest c = true → Gives (.itemStart h core slot) s fun t =>
        ∃ y, ctxAt t h core slot.val = some y ∧ y.item = some i ∧ y.idle = false ∧ y.pass = 0) ∧
      (∀ j, isNest c = false → isAttn c = true → ajobAt s c x i = some j →
        let ready : Prop := j.initial.isSome = true ∧ j.blockReady = true ∧ (isRing c = true → (collOf s c.readNo).isSome = true)
        (ready → Gives (.itemStart h core slot) s fun t => stays t fun y => y.item = some i ∧ y.idle = false) ∧
        (¬ ready → Gives (.itemStart h core slot) s fun t => stays t fun y => y.waiting = true))) ∧
    (onArray s x = false → Sets (.tileBoundary h core slot) s []) ∧
    (onArray s x = true → Gives (.tileBoundary h core slot) s fun t => (stays t fun y => y.inArray = 0) ∧
      t.rd (.core .PASS_CNT) h core = min (s.rd (.core .PASS_CNT) h core + x.inArray) (2 ^ 64 - 1)) ∧
    (s.dispatchOff h = true → ∀ d ∈ [Instr.vectorStep h core slot, .attnFold h core slot, .attnComposedUnit h core slot], Sets d s []) ∧
    (∀ j, jobOf s x = some j → isNest c = true → isFused c = true → j.phase2 = false → onArray s x = true → x.vec = true →
      x.inArray = 0 → s.dispatchOff h = false → Gives (.vectorStep h core slot) s fun t => stays t fun y => y.vrow = x.vrow + 1) ∧
    (∀ j, ajobOf s x = some j → isAttn c = true → onArray s x = true →
      (s.dispatchOff h = false → j.r.paused = false → x.comb = false → j.it.composed = false →
        let q := j.seek (j.blocks.2 + 1) ⟨s, none⟩ (j.blocks.1 + x.pass)
        q.1.fail = none →
        (∀ mask, q.2.2 = some (.fold mask) → q.2.1 + 1 < j.blocks.2 →
          Gives (.attnFold h core slot) s fun t => stays t fun y => y.pass = q.2.1 + 1 - j.blocks.1) ∧
        (q.2.2 = some .arriving → Gives (.attnFold h core slot) s fun t => stays t fun y => y.waiting = true) ∧
        (q.2.2 = none ∨ (∃ mask, q.2.2 = some (.fold mask) ∧ j.blocks.2 ≤ q.2.1 + 1) →
          Gives (.attnFold h core slot) s fun t => stays t fun y => y.idle = true ∨ y.comb = true)) ∧
      (s.dispatchOff h = false → j.it.composed = true →
        (j.lookAll ((List.range (j.blocks.2 - j.blocks.1)).map (j.blocks.1 + ·)) ⟨s, none⟩).2.2 = none →
        Gives (.attnComposedUnit h core slot) s fun t => stays t fun y => y.idle = true) ∧
      (x.comb = false → Sets (.attnRangeCombine h core slot) s []) ∧
      (x.comb = true → combineDead s j = false → j.it.range = 0 → (j.ranges s).isSome = true →
        Gives (.attnRangeCombine h core slot) s fun t => stays t fun y => y.idle = true) ∧
      (demandPages s j = [] → Sets (.attnDemandPrefetch h core slot) s []) ∧
      (demandPages s j ≠ [] → Gives (.attnDemandPrefetch h core slot) s fun t =>
        stays t fun y => y.waiting = true ∨ y.idle = true))

/-- The attention opcodes, the steps of a ring and ATTN_RULE. ATTN, ATTN_RING and VERIFY run the steps of their contexts; a chain whose
one context has no item left ends. A ring's step that is folded, forwarded and followed is counted; a block that has landed is noted, and
with OVERLAP = 1 a key block of
it whose pages of every head have. -/
def Obligations.AttentionChains : Prop :=
  ∀ (h : Half) (s : State),
    (∀ (ring seq : Nat) (c : Chain), s.chain h ring seq = some c →
      ∀ p ∈ [(Instr.attn h ring seq, opATTN), (.attnRing h ring seq, opATTN_RING), (.verify h ring seq, opVERIFY)],
        (c.running = false ∨ hdOpcode c.head ≠ p.2 → Sets p.1 s []) ∧ (c.running = true → hdOpcode c.head = p.2 →
        (Gives p.1 s fun t => t = driveAttn driveFuel c.readNo s) ∧
        (∀ x, ctxsOf s c.readNo = [x] → ctxAt s x.half x.core x.slot = some x → s.chains.find? (fun d => d.readNo == c.readNo) = some c →
          collOf s c.readNo = none → s.dispatchOff x.half = false → x.comb = false → x.idle = true → ctxLive s x = true →
          nextItem s c x = some none → Gives p.1 s fun t =>
            (∃ d ∈ t.chains, d.readNo = c.readNo ∧ d.done = true) ∧ ctxsOf t c.readNo = []))) ∧
    (∀ ring seq, ringOf s h ring seq = none → Sets (.attnRingStep h ring seq) s [] ∧
      ∀ kb, Sets (.attnRingBlockLanded h ring seq kb) s []) ∧
    (∀ (ring seq : Nat) (c : Coll) (d : Chain) (r : Request), ringOf s h ring seq = some (c, d, r) →
      (stepFolded s d = false ∨ d.ringTx < heldUnits s d r → Sets (.attnRingStep h ring seq) s []) ∧
      (ringSteps d ≤ d.ringStep + 1 → ∀ kb, Sets (.attnRingBlockLanded h ring seq kb) s []) ∧
      (stepFolded s d = true → heldUnits s d r ≤ d.ringTx →
        ringSteps d ≤ d.ringStep + 1 ∨ d.ringWhole.contains d.ringStep = true → Gives (.attnRingStep h ring seq) s fun t =>
          t.rd (.attn .RING_STEPS) h 0 = min (s.rd (.attn .RING_STEPS) h 0 + 1) (2 ^ 64 - 1)) ∧
      (d.ringStep + 1 < ringSteps d →
        ((∀ p ∈ d.ringPages, p.step = d.ringStep → p.placed = true) → Gives (.attnRingBlockLanded h ring seq none) s fun t =>
          ∃ e ∈ t.chains, e.readNo = d.readNo ∧ d.ringStep ∈ e.ringWhole) ∧
        (∀ kb, landedNow d (some kb) = true → Gives (.attnRingBlockLanded h ring seq (some kb)) s fun t =>
          ∃ e ∈ t.chains, e.readNo = d.readNo ∧ (d.ringStep, kb) ∈ e.ringKb) ∧
        (∀ k, landedNow d k = false → Sets (.attnRingBlockLanded h ring seq k) s []))) ∧
    ∀ splitMin composedMax : Nat,
      (locked s h = true → Sets (.attnRuleWrite h splitMin composedMax) s []) ∧
      (locked s h = false → splitMin % 65536 = 0 →
        Sets (.attnRuleWrite h splitMin composedMax) s [cell (.attn .ATTN_ERR_STATUS) h 0 ST_ATTN_FIT]) ∧
      (locked s h = false → splitMin % 65536 ≠ 0 → Sets (.attnRuleWrite h splitMin composedMax) s
        [cell (.attn .ATTN_RULE_SPLIT_MIN) h 0 (splitMin % 2 ^ 16), cell (.attn .ATTN_RULE_COMPOSED_MAX) h 0 (composedMax % 2 ^ 16)])

/-- GEN_STEP, COPY and ADAPTER_LOAD, on a chain that runs. A step starts when its counter, its gate and its contexts are there, and waits
otherwise, and while dispatch is stopped; a step that has run is over, whether or not an access of one of its sequences failed; the
records of a cancelled chain's steps are written and it ends. A copy or an adapter's load for which its class has no granule waits. A copy
that its engine serves next moves its bytes, a fill writes zeros, and no other byte changes; one that is refused moves none. An adapter's
slot is READY once its region is copied and its header agrees, and EMPTY otherwise. -/
def Obligations.GenerationAndCopies : Prop :=
  ∀ (h : Half) (ring seq : Nat) (c : Chain) (s : State), s.chain h ring seq = some c →
    let op := hdOpcode c.head
    let w := engine h (ringFn ring)
    (∀ p ∈ [(Instr.genStepStart h ring seq, opGEN_STEP), (.genStep h ring seq, opGEN_STEP), (.copy h ring seq, opCOPY),
      (.adapterLoad h ring seq, opADAPTER_LOAD)], c.running = false ∨ op ≠ p.2 → Sets p.1 s []) ∧
    (servedNext s c = false → Sets (.copy h ring seq) s [] ∧ Sets (.adapterLoad h ring seq) s []) ∧
    (c.running = true →
    (op = opGEN_STEP → c.gen.isSome = true → Sets (.genStepStart h ring seq) s []) ∧
    (op = opGEN_STEP → c.gen = none → Sets (.genStep h ring seq) s [] ∧
      (c.cancelled = true → Gives (.genStepStart h ring seq) s fun t => ∃ d ∈ t.chains, d.readNo = c.readNo ∧ d.done = true) ∧
      (c.cancelled = false → stepReady s c = false ∨ s.dispatchOff h = true ∨
          (gateOpen s h (ringFn ring) = true ∧ ctxsOf s c.readNo = []) →
        Sets (.genStepStart h ring seq) s []) ∧
      (c.cancelled = false → stepReady s c = true → s.dispatchOff h = false → gateOpen s h (ringFn ring) = true → ctxsOf s c.readNo ≠ [] →
        Gives (.genStepStart h ring seq) s fun t => ∃ d ∈ t.chains, d.readNo = c.readNo ∧ d.gen.isSome = true)) ∧
    (op = opGEN_STEP → s.dispatchOff h = true → Sets (.genStep h ring seq) s []) ∧
    (∀ g x, op = opGEN_STEP → c.gen = some g → s.dispatchOff h = false → (ctxsOf s c.readNo).head? = some x →
      Gives (.genStep h ring seq) s fun t => ∃ d ∈ t.chains, d.readNo = c.readNo ∧ d.progress = c.progress + 1 ∧ d.gen = none) ∧
    (op = opCOPY → servedNext s c = true → takeGranules s h (copyClass c) 1 none = none →
      Gives (.copy h ring seq) s fun t => t.chains = s.chains ∧ SameMem s t) ∧
    (op = opADAPTER_LOAD → servedNext s c = true → takeGranules s h 6 1 none = none →
      Gives (.adapterLoad h ring seq) s fun t => t.chains = s.chains ∧ SameMem s t) ∧
    (op = opCOPY → servedNext s c = true → (takeGranules s h (copyClass c) 1 none).isSome = true → c.grouped = false →
      let src := fieldAt c.head 0x18 8
      let dst := fieldAt c.head 0x20 8
      let len := fieldAt c.head 0x28 8
      let fill := (fieldAt c.head 0x30 1).testBit 0
      let moved (t : State) (data : List Byte) : Prop := c.finish ST_OK ∈ t.chains ∧ t.mem.readN dst len = data ∧
        ∀ x, x < dst ∨ dst + len ≤ x → t.mem.read x = s.mem.read x
      (c.cancelled = false ∨ isHost dst = false → accessStatus s w true dst len = ST_OK →
        (fill = true → Gives (.copy h ring seq) s fun t => moved t (zeros len)) ∧
        (fill = false → accessStatus s w false src len = ST_OK → Gives (.copy h ring seq) s fun t => moved t (s.mem.readN src len))) ∧
      (fill = true ∨ accessStatus s w false src len = ST_OK →
        (c.cancelled = true → isHost dst = true → Gives (.copy h ring seq) s fun t => c.finish ST_OK ∈ t.chains ∧ SameMem s t) ∧
        (c.cancelled = false ∨ isHost dst = false → accessStatus s w true dst len ≠ ST_OK → Gives (.copy h ring seq) s fun t =>
          c.finish (accessStatus s w true dst len) ∈ t.chains ∧ SameMem s t)) ∧
      (fill = false → accessStatus s w false src len ≠ ST_OK → Gives (.copy h ring seq) s fun t =>
        c.finish (accessStatus s w false src len) ∈ t.chains ∧ SameMem s t)) ∧
    (op = opCOPY → servedNext s c = true → (takeGranules s h (copyClass c) 1 none).isSome = true → c.grouped = true →
      ctxsOf s c.readNo = [] → collOf s c.readNo = none →
      Gives (.copy h ring seq) s fun t => ∃ d ∈ t.chains, d.readNo = c.readNo ∧ d.done = true) ∧
    (op = opADAPTER_LOAD → servedNext s c = true → (takeGranules s h 6 1 none).isSome = true →
      let src := fieldAt c.head 0x18 8
      let dst := fieldAt c.head 0x20 8
      let len := fieldAt c.head 0x28 4
      let i := fieldAt c.head 0x2C 2
      let failed (st : Nat) : Prop := Gives (.adapterLoad h ring seq) s fun t =>
        t.rd (.sched .ADP_SLOT_STATE) h i = 0 ∧ c.finish st ∈ t.chains ∧ SameMem s t
      (accessStatus s w false src len ≠ ST_OK → failed (accessStatus s w false src len)) ∧
      (accessStatus s w false src len = ST_OK → accessStatus s w true dst len ≠ ST_OK → failed (accessStatus s w true dst len)) ∧
      (accessStatus s w false src len = ST_OK → accessStatus s w true dst len = ST_OK → Gives (.adapterLoad h ring seq) s fun t =>
        t.mem.readN dst len = s.mem.readN src len ∧ (∀ x, x < dst ∨ dst + len ≤ x → t.mem.read x = s.mem.read x) ∧
        if adapterBad ((s.mem.readN src len).take 256) c.head = true then
          t.rd (.sched .ADP_SLOT_STATE) h i = 0 ∧ c.finish ST_ADAPTER_FIT ∈ t.chains
        else t.rd (.sched .ADP_SLOT_STATE) h i = 2 ∧ t.rd (.sched .ADP_SLOT_RANK) h i = fieldAt c.head 0x2E 2 % 2 ^ 9 ∧
          t.rd (.sched .ADP_SLOT_DST) h i = dst / 256 % 2 ^ 49 ∧ c.finish ST_OK ∈ t.chains)))

/-! ### The hub scheduler (§10) -/

/-- The scheduler. SCHED_SELECT takes the one head that is eligible and not held back out of its ring. A free ordinary slot goes to the
chain that comes first; with none that needs it nothing changes; a chain that holds its slots already enters them once its adapters are
loaded; a standing
context takes its ring's next URGENT chain. The standing context of an URGENT ring enters slot 1 of its core. A refill (R339), once in a
window, adds the budget to each partition's balance, up to BURST, and applies the configuration. The writes of R334, R340 and R342 and of
Table 10.10 apply or are refused with their status. -/
def Obligations.SchedulerCommands : Prop :=
  ∀ (h : Half) (core ring v : Nat) (slot : Fin 2) (p : Fin 65) (s : State),
    let last (st : Nat) : CellVal := cell (.sched .SCHED_STATUS_LAST_STATUS) h 0 st
    (∀ c ∈ s.chains, admits s h = true → (queueOf s h).length < 256 → c.half = h → c.ring < ringCount → hdClass c.head < 5 →
      eligible s c = true → unheld s c = true → (∀ d ∈ s.chains, d.half = h → d.unadmitted = true → d = c) →
        Gives (.schedSelect h) s fun t =>
        ∃ d ∈ t.chains, d.readNo = c.readNo ∧ d.stage ≠ .eligible) ∧
    (admits s h = false → Sets (.schedSelect h) s [] ∧ Sets (.slotGrant h core slot) s []) ∧
    (admits s h = true → freeOrdinary s h core slot = true →
      (grantTo s h core = none → Sets (.slotGrant h core slot) s []) ∧
      (∀ c, grantTo s h core = some c → Gives (.slotGrant h core slot) s fun t =>
        ∃ d ∈ t.chains, d.readNo = c.readNo ∧ (d.stage = .admitted ∨ (core, slot.val) ∈ d.held))) ∧
    (admits s h = true → freeOrdinary s h core slot = false →
      (let holder := s.chains.find? fun c => c.half == h && !c.done && c.held.contains (core, slot.val);
        ((∀ x, ctxAt s h core slot.val = some x → x.standing = false) → (ctxAt s h core slot.val = none → holder = none) →
          Sets (.slotGrant h core slot) s []) ∧
        (∀ c, ctxAt s h core slot.val = none → holder = some c → isCompute c.head = true →
          (adapterFree s c = false → Gives (.slotGrant h core slot) s fun t => t.chains = s.chains) ∧
          (adapterFree s c = true → hdClass c.head ≠ 0 → targetSet s h c.ring ≠ [] →
            (∀ k ∈ targetSet s h c.ring, k ∈ c.held.map (·.1)) → Gives (.slotGrant h core slot) s fun t =>
              ∃ d ∈ t.chains, d.readNo = c.readNo ∧ d.stage = .admitted))) ∧
      (∀ x c, ctxAt s h core slot.val = some x → x.standing = true → firstBy (fun c : Chain => [c.queueNo]) ((queueOf s h).filter fun c =>
          c.ring == x.ring && hdClass c.head == 0 && isCompute c.head) = some c →
        (adapterFree s c = false → Gives (.slotGrant h core slot) s fun t => t.chains = s.chains) ∧
        (adapterFree s c = true → (standingFree s h x.ring).isSome = true → Gives (.slotGrant h core slot) s fun t =>
          ∃ d ∈ t.chains, d.readNo = c.readNo ∧ d.stage = .admitted))) ∧
    (ringCount ≤ ring → Sets (.urgentStandingDispatch h ring) s [] ∧ Sets (.ringSchedWrite h ring v) s []) ∧
    (ring < ringCount → let k := s.rd (.sched .RING_SCHED_URG_CORE) h ring % 256;
      admits s h = true → s.rd (.sched .URG_WANT) h ring = 1 → ringSt s h ring ≠ 0 →
      coreRuns s (256 * h.num + k) = true → slotState s h k 1 = 0 →
      (∀ d ∈ s.chains, d.half = h → d.done = true ∨ (k, 1) ∉ d.held) → Gives (.urgentStandingDispatch h ring) s fun t =>
        (∃ x ∈ t.contexts, x.half = h ∧ x.core = k ∧ x.slot = 1 ∧ x.ring = ring ∧ x.standing = true ∧ x.chainNo = none) ∧
        t.rd (.sched .RING_SCHED_URG_READY) h ring = 1 ∧ t.rd (.sched .URG_WANT) h ring = 0 ∧ slotState t h k 1 = 1) ∧
    (s.rd (.sched .BUDGET_WIN) h = budgetWindow s h → Sets (.budgetRefill h) s []) ∧
    (Inv s → s.rd (.sched .BUDGET_WIN) h ≠ budgetWindow s h → Gives (.budgetRefill h) s fun t =>
      Touches s t [.sched .BUDGET_EFF, .sched .BURST_EFF, .sched .BALANCE, .sched .CUR, .sched .BUDGET_WIN] ∧
        ∀ q < 65, let b := s.rd (.sched .BUDGET_CFG_BUDGET) h q
        let burst := s.rd (.sched .BUDGET_CFG_BURST) h q
        t.rd (.sched .BUDGET_EFF) h q = b ∧ t.rd (.sched .BURST_EFF) h q = burst ∧
        balanceOf t h q = if b = 0 ∨ q = pf then 0 else min (balanceOf s h q + b) burst) ∧
    (ring < ringCount →
      (ringSt s h ring ≠ 0 → Sets (.ringSchedWrite h ring v) s [last ST_RING_BUSY]) ∧
      (ringSt s h ring = 0 → 256 < bitsAt v 8 9 ∨ bindingOk s h ring v = false →
        Sets (.ringSchedWrite h ring v) s [last ST_SCHED_CONFIG]) ∧
      (ringSt s h ring = 0 → bitsAt v 8 9 ≤ 256 → bindingOk s h ring v = true → Sets (.ringSchedWrite h ring v) s
        [last ST_OK, cell (.sched .RING_SCHED_CLASS_MASK) h ring (bitsAt v 0 5), cell (.sched .RING_SCHED_CTX_MAX) h ring (bitsAt v 8 9),
          cell (.sched .RING_SCHED_URG_CORE) h ring (bitsAt v 24 9), cell (.sched .RING_SCHED_URG_EN) h ring (bitsAt v 40 1)])) ∧
    (bitsAt v 32 26 < bitsAt v 0 24 → Sets (.budgetCfgWrite h p v) s [last ST_SCHED_CONFIG]) ∧
    (bitsAt v 0 24 ≤ bitsAt v 32 26 → Sets (.budgetCfgWrite h p v) s [last ST_OK,
      cell (.sched .BUDGET_CFG_BUDGET) h p.val (bitsAt v 0 24), cell (.sched .BUDGET_CFG_BURST) h p.val (bitsAt v 32 26)]) ∧
    (bitsAt v 0 8 = 0 → Sets (.partyCfgWrite h p v) s [last ST_SCHED_CONFIG]) ∧
    (bitsAt v 0 8 ≠ 0 → Sets (.partyCfgWrite h p v) s [last ST_OK, cell (.sched .PARTY_CFG_WEIGHT) h p.val (bitsAt v 0 8)]) ∧
    (∀ base count : Nat, locked s h = true → Sets (.adpAllocWrite h p base count) s []) ∧
    (∀ base count : Nat, locked s h = false →
      let st := allotStatus s h p.val base count 1024 1024 (.sched .ADP_ALLOC_BASE) (.sched .ADP_ALLOC_COUNT)
      (st ≠ ST_OK → Sets (.adpAllocWrite h p base count) s [last st]) ∧
      (st = ST_OK → Sets (.adpAllocWrite h p base count) s
        [last ST_OK, cell (.sched .ADP_ALLOC_BASE) h p.val base, cell (.sched .ADP_ALLOC_COUNT) h p.val count]))

/-! ### Collectives (§12) -/

/-- The group table and the commands that run an operation. A write of the table applies, or is refused with the status of R387. A chain
that the engine takes makes NEXT_EPOCH its epoch plus one, and carries its epoch in DETAIL. The next CTS of a segment that lacks no
granule goes upstream. A timer that expires once the timeout has passed since the last progress aborts the operation, and its chain ends
with ST_COLL_TIMEOUT. -/
def Obligations.CollectiveOperations : Prop :=
  ∀ (h : Half) (ring seq v : Nat) (g : Fin 256) (s : State),
    let last (st : Nat) : CellVal := cell (.coll .COLL_STATUS_LAST_STATUS) h 0 st
    (∀ reg : Fin 3, groupStatus s h g.val reg.val v ≠ ST_OK →
      Sets (.grpCfgWrite h g reg v) s [last (groupStatus s h g.val reg.val v)]) ∧
    (groupStatus s h g.val 0 v = ST_OK → Gives (.grpCfgWrite h g 0 v) s fun t => t.rd (.coll .GRP_ID) h g.val = v % 2 ^ 32 ∧
      t.rd (.coll .COLL_STATUS_LAST_STATUS) h 0 = ST_OK ∧ SameMem s t) ∧
    (groupStatus s h g.val 1 v = ST_OK → Gives (.grpCfgWrite h g 1 v) s fun t =>
      t.rd (.coll .GRP_CFG_V) h g.val = bitsAt v 31 1 ∧ t.rd (.coll .GRP_CFG_OPR) h g.val = bitsAt v 30 1 ∧
      t.rd (.coll .GRP_CFG_PARTITION) h g.val = bitsAt v 16 6 ∧ t.rd (.coll .GRP_CFG_AXES) h g.val = bitsAt v 8 3 ∧
      t.rd (.coll .COLL_STATUS_LAST_STATUS) h 0 = ST_OK ∧
      (v.testBit 31 = true → t.rd (.coll .GRP_EPOCH_NEXT) h g.val = 0 ∧ t.rd (.coll .GRP_ABORT_V) h g.val = 0)) ∧
    (groupStatus s h g.val 2 v = ST_OK → Gives (.grpCfgWrite h g 2 v) s fun t =>
      boxOrigin t h g.val 0 = bitsAt v 28 4 ∧ boxOrigin t h g.val 1 = bitsAt v 24 4 ∧ boxOrigin t h g.val 2 = bitsAt v 21 3 ∧
      boxExtent t h g.val 0 = bitsAt v 16 5 ∧ boxExtent t h g.val 1 = bitsAt v 11 5 ∧ boxExtent t h g.val 2 = bitsAt v 7 4 ∧
      t.rd (.coll .COLL_STATUS_LAST_STATUS) h 0 = ST_OK) ∧
    (v % 2 ^ 20 < 50 ∨ 1000000 < v % 2 ^ 20 → Sets (.collCfgWrite h v) s [last ST_COLL_CONFIG]) ∧
    (50 ≤ v % 2 ^ 20 → v % 2 ^ 20 ≤ 1000000 →
      Sets (.collCfgWrite h v) s [last ST_OK, cell (.coll .COLL_CFG_TMO_DEF) h 0 (v % 2 ^ 20)]) ∧
    (∀ c k, s.chain h ring seq = some c → collWaits s c = true → groupEntry s h (collGid c) = some k →
      groupOwned s h (ringFn ring) k = true →
      (isRing c = true → rgSteps (ringExt c) = boxExtent s h k (rgAxis (ringExt c))) →
      (∀ o ∈ s.colls, o.half = h → o.gid ≠ collGid c) → epochAhead (s.rd (.coll .GRP_EPOCH_NEXT) h k) (collEpoch c) = true →
      s.rd (.coll .GRP_ABORT_V) h k = 0 → collFull s c = false → collBefore s c = false →
      (collNotch c = true ∨ (takeSegment s h).isSome = true) →
      let taken (t : State) : Prop := t.rd (.coll .GRP_EPOCH_NEXT) h k = (collEpoch c + 1) % 2 ^ 32 ∧
        ∃ d ∈ t.chains, d.readNo = c.readNo ∧ d.detail = collEpoch c
      Gives (.collRun h ring seq) s taken ∧ (isRing c = false → Gives (.coll h ring seq) s taken)) ∧
    (∀ o d u, runningColl s h ring seq = some (o, d) → o.ring = false → u ∈ o.segs → (∀ x ∈ o.segs, x.k = u.k → x = u) →
      let w := collWork s o d
      let q := w.phase u.rxP
      clOp d.head ≠ 3 → u.rxP < w.phases.length → w.second u.k = false ∨ w.lacks = 0 →
      (injectPacket s o.half (newPacket s o.half (w.up u.rxP) 2 (ctlFields o 0 q.2 q.1 u.rxT u.rxU
        (collDigest s o.half o.g d.head) u.k) [])).1 = ST_OK →
      Gives (.collCtsSend h ring seq u.k) s fun t => ∃ e ∈ t.colls, e.chainNo = o.chainNo ∧ ∃ x ∈ e.segs, x.k = u.k ∧ x.cts = true) ∧
    (waitingColl s h ring seq = none → Sets (.collRun h ring seq) s []) ∧
    (∀ seg, runningColl s h ring seq = none → Sets (.collCtsSend h ring seq seg) s [] ∧ Sets (.collTimerExpire h ring seq) s []) ∧
    (∀ o d, runningColl s h ring seq = some (o, d) → s.mt h < o.progMt + collTmo s o d * 1000 → Sets (.collTimerExpire h ring seq) s []) ∧
    (∀ o d, runningColl s h ring seq = some (o, d) → o.progMt + collTmo s o d * 1000 ≤ s.mt h →
      Gives (.collTimerExpire h ring seq) s fun t =>
      t.rd (.coll .GRP_ABORT_V) o.half o.g = 1 ∧ t.rd (.coll .GRP_ABORT_CAUSE) o.half o.g = 0 ∧
      t.rd (.coll .COLL_ABORT_INFO_LOCAL_STATUS) o.half 0 = ST_COLL_TIMEOUT ∧ (o.half, o.gid, o.epoch) ∈ t.aborted ∧
      (∃ e ∈ t.chains, e.readNo = o.chainNo ∧ e.done = true) ∧ ∀ e ∈ t.colls, e.chainNo ≠ o.chainNo)

/-- The packets of a collective, each the first of its kind that has been delivered; without one nothing changes. One of a group that is
not valid is dropped and counted; one of an epoch that a valid group has not reached is held, a Notch packet on a granule of its class
that it shares with fifteen others. To a running operation that has nothing else
to send, a CTS is kept until its data is here, and a DONE releases the copy of its unit; a piece of a unit is kept; COUNTS fill in the
counts of their ranks; a VALUE is kept with its position. A BCAST at a member that has nobody to send it on to is written to DST and ends
the operation. An ABORT is recorded and ends it with ST_COLL_TIMEOUT. -/
def Obligations.CollectivePackets : Prop :=
  ∀ (h : Half) (p : Packet) (s s1 : State),
    let tr := p.transport
    let gid := fieldAt tr 0 4
    let epoch := fieldAt tr 4 4
    let kind (ty k : Nat) : Prop := takeLocal s h (fun q => q.ptype == ty && ctlKind q == k) = some (p, s1)
    let here (o : Coll) (d : Chain) : Prop := collFor s1 h gid epoch = some o ∧ o.chain s1 = some d ∧ o.ring = false
    let quiet (o : Coll) (d : Chain) : Prop := here o d ∧ o.notch = false ∧ clVar d.head = false ∧ clOp d.head ≠ 3 ∧ o.cts = [] ∧
      o.segs.length = 2 ∧ ∀ u ∈ o.segs, (collWork s1 o d).segDone u = false
    (∀ k ∈ [(Instr.ctsReceive h, 2, 0), (.doneReceive h, 2, 1), (.countsReceive h, 2, 2), (.notchValueReceive h, 3, 0),
      (.notchBcastReceive h, 3, 1), (.notchAbortReceive h, 3, 2)],
      (takeLocal s h (fun q => q.ptype == k.2.1 && ctlKind q == k.2.2) = none → Sets k.1 s []) ∧
      (kind k.2.1 k.2.2 → collFor s1 h gid epoch = none → groupEntry s1 h gid = none → Gives k.1 s fun t =>
        Only s1 t [cell (.coll .CTL_DROP) h 0 (min (s1.rd (.coll .CTL_DROP) h 0 + 1) (2 ^ 32 - 1))])) ∧
    (∀ page head fill : Nat, takeLocal s h (fun q => q.ptype == 1) = none → Sets (.collDataReceive h page head fill) s []) ∧
    (∀ k ∈ [(Instr.ctsReceive h, 2, 0), (.countsReceive h, 2, 2), (.notchValueReceive h, 3, 0), (.notchBcastReceive h, 3, 1)],
      ∀ g, kind k.2.1 k.2.2 → collFor s1 h gid epoch = none → groupEntry s1 h gid = some g →
      let next := s1.rd (.coll .GRP_EPOCH_NEXT) h g
      epochAhead next epoch = true → epochAhead ((next + 2 ^ 32 - 1) % 2 ^ 32) epoch = true → (h, gid, epoch) ∉ s1.aborted →
      (s1.collPend.filter fun q => q.1 == h && q.2.ptype == p.ptype).length < 256 →
      (p.ptype ≠ 3 ∨ notchKept s1 h % 16 ≠ 0 → Gives k.1 s fun t => t = { s1 with collPend := s1.collPend ++ [(h, p)] }) ∧
      (p.ptype = 3 → notchKept s1 h % 16 = 0 →
        (∀ u, takeGranules s1 h notchClass 1 none = some u → Gives k.1 s fun t => t = { u with collPend := u.collPend ++ [(h, p)] }) ∧
        (takeGranules s1 h notchClass 1 none = none → Gives k.1 s fun t =>
          Only s1 t [cell (.coll .CTL_DROP) h 0 (min (s1.rd (.coll .CTL_DROP) h 0 + 1) (2 ^ 32 - 1))]))) ∧
    (∀ o d, kind 2 0 → quiet o d → o.sent = [] → (∀ u ∈ o.segs, (collWork s1 o d).txReady u = false) →
      fieldAt tr 12 4 = collDigest s1 h o.g d.head → Gives (.ctsReceive h) s fun t => ∃ e ∈ t.colls, e.chainNo = o.chainNo ∧
        ∃ x, e.cts = [x] ∧ x.seg = fieldAt tr 16 4 ∧ x.step = fieldAt tr 10 1 ∧
          x.unit = fieldAt tr 11 1 + 256 * fieldAt tr 20 2 ∧ x.node = p.src) ∧
    (∀ o d, kind 2 1 → quiet o d → (∀ u ∈ o.segs, ((collWork s1 o d).takeDone p).segDone u = false) →
      Gives (.doneReceive h) s fun t => ∃ e ∈ t.colls, e.chainNo = o.chainNo ∧
      ∀ x ∈ e.sent, x ∈ o.sent ∧ ¬(x.seg = fieldAt tr 16 4 ∧ x.step = fieldAt tr 10 1 ∧
        x.unit = fieldAt tr 11 1 + 256 * fieldAt tr 20 2 ∧ x.node = p.src ∧
        (collWork s1 o d).phases[x.phase]? = some ((fieldAt tr 9 1).testBit 5, fieldAt tr 9 1 / 64))) ∧
    (∀ o d u, ∀ page head fill : Nat, takeLocal s h (fun q => q.ptype == 1) = some (p, s1) → quiet o d →
      o.segs.find? (fun x => x.k == fieldAt tr 8 4) = some u →
      let w := collWork s1 o d
      let sp := unitSpan (w.wire u.rxP) u.rxU (w.chunkSpan u.k u.rxP (w.recvChunk u.rxP u.rxT))
      let got := (fieldAt tr 16 4, p.payload) :: u.got.filter fun x => x.1 != fieldAt tr 16 4
      u.cts = true → u.rxP < w.phases.length → fieldAt tr 12 1 / 64 = (w.phase u.rxP).2 →
      (fieldAt tr 12 1).testBit 5 = (w.phase u.rxP).1 → fieldAt tr 13 1 = u.rxT →
      fieldAt tr 15 1 + 256 * fieldAt tr 20 2 = u.rxU → gatherUnit got (w.wire u.rxP) sp.2 = none →
      Gives (.collDataReceive h page head fill) s fun t => ∃ e ∈ t.colls, e.chainNo = o.chainNo ∧ ∃ x ∈ e.segs, x.k = u.k ∧ x.got = got) ∧
    (∀ o d, kind 2 2 → here o d → o.notch = false → clVar d.head = true →
      let w := collWork s1 o d
      let n := p.payload.length / 4
      let r := fieldAt tr 16 4
      o.cntAxes = w.x.axes.length → w.x.e (fieldAt tr 9 1 / 64) ≤ fieldAt tr 10 1 + 2 →
      (∃ i < o.counts.length, o.counts[i]? = some none ∧ (i < r ∨ r + n ≤ i)) → Gives (.countsReceive h) s fun t =>
        ∃ e ∈ t.colls, e.chainNo = o.chainNo ∧ e.counts.length = o.counts.length ∧ ∀ i < o.counts.length,
          e.counts.getD i none = if r ≤ i ∧ i < r + n then some ((bytesVals 4 n p.payload).getD (i - r) 0) else o.counts.getD i none) ∧
    (∀ o d, kind 3 0 → here o d → o.notch = true → clOp d.head ≠ 3 →
      let w := collWork s1 o d
      let a := fieldAt tr 9 1 / 64
      let i := fieldAt tr 10 1
      fieldAt tr 16 4 = collDigest s1 h o.g d.head → (∀ x ∈ o.nvals, x.1 ≠ a ∨ x.2.1 ≠ i) →
      (∀ x ∈ lineNbrs s1 h w.x a, x.1 ≠ fieldAt tr 9 1 / 32 % 2) → o.naxis < w.x.axes.length →
      (∃ j < w.x.e o.naxis, (j ≠ i ∨ o.naxis ≠ a) ∧ ∀ x ∈ o.nvals, x.1 ≠ o.naxis ∨ x.2.1 ≠ j) →
      Gives (.notchValueReceive h) s fun t => ∃ e ∈ t.colls, e.chainNo = o.chainNo ∧
        e.nvals = o.nvals ++ [(a, i, bytesVals 4 (p.payload.length / 4) p.payload)]) ∧
    (∀ o d, kind 3 1 → here o d → o.notch = true → clSrc d.head = 0 →
      let w := collWork s1 o d
      let z := elemSize (clFmt d.head)
      let vals := (bytesVals 4 (p.payload.length / 4) p.payload).map fun x => (convElem (clFmt d.head) x).bits
      (∀ a dir, bcastMay (some (fieldAt tr 9 1 / 64, fieldAt tr 9 1 / 32 % 2)) a dir = true → ∀ x ∈ lineNbrs s1 h w.x a, x.1 ≠ dir) →
      vals ≠ [] → w.muted = false → accessStatus s1 (engine h (ringFn d.ring)) true (clDst d.head) (vals.length * z) = ST_OK →
      Gives (.notchBcastReceive h) s fun t => d.finish ST_OK ∈ t.chains ∧
        t.mem.readN (clDst d.head) (vals.length * z) = valBytes z vals ∧ ∀ e ∈ t.colls, e.chainNo ≠ o.chainNo) ∧
    (∀ g o d, kind 3 2 → groupEntry s1 h gid = some g → (h, gid, epoch) ∉ s1.aborted → here o d →
      epochAhead ((s1.rd (.coll .GRP_EPOCH_NEXT) h g + 2 ^ 32 - 1) % 2 ^ 32) epoch = true →
      Gives (.notchAbortReceive h) s fun t => t.rd (.coll .GRP_ABORT_V) h g = 1 ∧ t.rd (.coll .GRP_ABORT_EPOCH) h g = epoch ∧
        (h, gid, epoch) ∈ t.aborted ∧ ∃ e ∈ t.chains, e.readNo = o.chainNo ∧ e.done = true)

/-! ### KV pages and prefixes (§9) -/

/-- KV_PAGE's subops. A command of a subop does nothing unless an admitted, running KV_PAGE of that subop stands in the ring's place. A
paused request ends every subop but RESUME with ST_KV_PAUSED, and no byte of memory changes. ALLOC, FREE, PIN, UNPIN, SPILL, PREFETCH,
ROLLBACK, PAUSE, RESUME, PREFIX_LOOKUP and PREFIX_INSERT end with the pages they have changed in DETAIL, wait where they lack a slot or a
page, or fail with the status of the first condition of their rule that is not met; the status of an earlier failure stands. -/
def Obligations.KvPageSubops : Prop :=
  ∀ (h : Half) (ring seq : Nat) (s : State),
    let kinds := [(0, Instr.kvAlloc h ring seq), (1, .kvFree h ring seq), (2, .kvPin h ring seq), (3, .kvUnpin h ring seq),
      (4, .kvSpill h ring seq), (5, .kvPrefetch h ring seq), (6, .kvRollback h ring seq), (7, .kvPause h ring seq),
      (8, .kvResume h ring seq), (9, .kvPrefixLookup h ring seq), (10, .kvPrefixInsert h ring seq)]
    ((∀ c, s.chain h ring seq = some c → c.running = true → hdOpcode c.head ≠ opKV_PAGE) → ∀ k ∈ kinds, Sets k.2 s []) ∧
    ∀ (c : Chain) (r : Request), s.chain h ring seq = some c → c.running = true →
    hdOpcode c.head = opKV_PAGE → c.requestNum.bind s.request = some r →
    let sub := kvSub c.head
    let cover := kpCover r.header c.head
    let mine (k : Instr) (p : State → Chain → Prop) : Prop := Gives k s fun t => ∃ d ∈ t.chains, d.readNo = c.readNo ∧ p t d
    let ends (k : Instr) (detail : Nat) : Prop := mine k fun _ d => d.done = true ∧ d.detail = detail
    let endsAs (k : Instr) (st detail : Nat) : Prop := mine k fun _ d =>
      d.done = true ∧ d.status = (c.finish st).status ∧ d.detail = detail
    let ended (k : Instr) (st : Nat) : Prop := mine k fun t d => SameMem s t ∧ d.done = true ∧ d.status = (c.finish st).status
    (∀ k ∈ kinds, sub ≠ k.1 → Sets k.2 s []) ∧
    (r.paused = true → ∀ k ∈ kinds, k.1 ≠ 8 → sub = k.1 → ended k.2 ST_KV_PAUSED) ∧
    (r.paused = false →
      (sub = 0 → c.checked = false → (∃ q ∈ allocCover r.header c.head, allocPageOk s r c.head q = false) → c.status = ST_OK →
        (∀ x ∈ s.contexts, x.chainNo ≠ some c.readNo) → collOf s c.readNo = none → ended (.kvAlloc h ring seq) ST_KV_STATE) ∧
      (sub = 0 → (c.checked = true ∨ ∀ q ∈ allocCover r.header c.head, allocPageOk s r c.head q = true) →
        let x := if kpAddr c.head = 0 then none else (ctxsOf s c.readNo).find? fun y => y.read
        let o := allocPages x r c.head c.work ((allocCover r.header c.head).drop c.work) ⟨s, c.work, 0, c.run, false, ST_OK, none⟩
        (kpAddr c.head ≠ 0 → x = none → Sets (.kvAlloc h ring seq) s []) ∧
        (kpAddr c.head = 0 ∨ x ≠ none → o.waits = true → mine (.kvAlloc h ring seq) fun _ d =>
          d.checked = true ∧ d.work = o.done ∧ d.run = o.made) ∧
        (kpAddr c.head = 0 → o.waits = false → endsAs (.kvAlloc h ring seq) o.status (allocClose o.s r c.head (o.status == ST_OK)
          (if o.status = ST_OK then (allocCover r.header c.head).length else o.done) o.part o.made).2)) ∧
      (sub = 1 → endsAs (.kvFree h ring seq) ST_OK (cover.filter fun q => (entryOf s r q.1 q.2.1 q.2.2).own).length) ∧
      (sub = 2 →
        let p := if c.checked then (s, c.progress) else setPins s r c.head true
        let q := startFetches c r false c.work (cover.drop c.work) (p.1, c.fails)
        (q.2.2.1 = true → mine (.kvPin h ring seq) fun _ d => d.checked = true ∧ d.progress = p.2 ∧ d.work = q.2.1 ∧
          d.fails = q.2.2.2) ∧
        (q.2.2.1 = false → endsAs (.kvPin h ring seq) (lowestFail q.2.2.2) p.2)) ∧
      (sub = 3 → endsAs (.kvUnpin h ring seq) ST_OK (setPins s r c.head false).2) ∧
      (sub = 4 ∨ sub = 5 → servedNext s c = false → Sets (.kvSpill h ring seq) s [] ∧ Sets (.kvPrefetch h ring seq) s []) ∧
      (sub = 4 → servedNext s c = true →
        (c.checked = false → c.cancelled = true → chainWaits s c = false → ended (.kvSpill h ring seq) c.status) ∧
        (c.checked = false → c.cancelled = false → mine (.kvSpill h ring seq) fun t d =>
          d.checked = true ∧ d.detail = (startSpills c r cover (s, 0)).2.1 ∧ (d.done = false ↔ ∃ x ∈ t.transfers, c.readNo ∈ x.waiters)) ∧
        (c.checked = true → chainWaits s c = true → Sets (.kvSpill h ring seq) s []) ∧
        (c.checked = true → chainWaits s c = false → ended (.kvSpill h ring seq) c.status)) ∧
      (sub = 5 → servedNext s c = true →
        let q := startFetches c r true c.work (cover.drop c.work) (s, c.fails)
        mine (.kvPrefetch h ring seq) fun t d => d.checked = true ∧ d.work = q.2.1 ∧ d.fails = q.2.2.2 ∧
          (d.done = false ↔ q.2.2.1 = true ∨ ∃ x ∈ t.transfers, c.readNo ∈ x.waiters) ∧
          (d.done = true → d.status = (c.finish (lowestFail q.2.2.2)).status ∧ d.detail = c.progress)) ∧
      (sub = 6 → let ls := kpLayers r.header c.head
        let q := rollbackList s c
        ((∃ l ∈ ls, layerLen s r l < kpPos0 c.head) → ended (.kvRollback h ring seq) ST_KV_STATE) ∧
        ((∀ l ∈ ls, kpPos0 c.head ≤ layerLen s r l) → q.1 ≠ ST_OK → endsAs (.kvRollback h ring seq) q.1 0) ∧
        ((∀ l ∈ ls, kpPos0 c.head ≤ layerLen s r l) → q.1 = ST_OK →
          ((∃ l ∈ ls, ascending (layerLen s r l - kpPos0 c.head) q.2.2 = false) → endsAs (.kvRollback h ring seq) ST_KV_STATE 0) ∧
          ((∀ l ∈ ls, ascending (layerLen s r l - kpPos0 c.head) q.2.2 = true) →
            let pages := ls.map fun l =>
              rollbackPages q.2.1 r l (kpPos0 c.head + q.2.2.length) (rowMoves (kpPos0 c.head) q.2.2)
            let n1 := needPages c r (pages.flatMap (·.2)) q.2.1
            let n2 := ownCopies r (fun j => (rowMoves (kpPos0 c.head) q.2.2).any fun p => p.2 / 64 == j) (pages.flatMap (·.1)) n1.1
            (n1.2 = .wait → Gives (.kvRollback h ring seq) s fun t => t = n1.1) ∧
            (∀ st, n1.2 = .fail st → endsAs (.kvRollback h ring seq) st 0) ∧
            (∀ i, n1.2 = .ready → outOfReach n1.1 r (pages.flatMap (·.2)) = some i → endsAs (.kvRollback h ring seq) ST_HBM_FENCE 0) ∧
            (n1.2 = .ready → outOfReach n1.1 r (pages.flatMap (·.2)) = none → n2.2 = .ready → endsAs (.kvRollback h ring seq) ST_OK
              (ls.foldl (rollbackLayer r (kpPos0 c.head) q.2.2) (n2.1, 0)).2)))) ∧
      (sub = 7 → let l := retainedAll s r (bitsAt (kpAux c.head) 48 8)
        let pack := packs r.header ((kpAux c.head).testBit 32)
        let size := recSize r.header pack l.length
        let host := isHost (kpAddr c.head)
        let key := if host then keyOf s h r.fn .valley else none
        (bitsAt (kpAux c.head) 0 32 < size → ended (.kvPause h ring seq) ST_PAUSE_SPACE) ∧
        (size ≤ bitsAt (kpAux c.head) 0 32 → host = true → key = none → ended (.kvPause h ring seq) ST_KEY_MISSING) ∧
        (size ≤ bitsAt (kpAux c.head) 0 32 → (host = true → key.isSome = true) →
          (∀ q ∈ l, (entryOf s r q.1 q.2.1 q.2.2).shared = true ∨
            ((entryOf s r q.1 q.2.1 q.2.2).state ≠ enVALLEY ∧ (entryOf s r q.1 q.2.1 q.2.2).state ≠ enFETCHING)) →
          (∀ i, outOfReach s r l = some i → endsAs (.kvPause h ring seq) ST_HBM_FENCE 0) ∧
          let o := pauseRecord s r pack key l
          (outOfReach s r l = none → c.cancelled = false →
            accessStatus o.1.s (engine h (ringFn c.ring)) true (kpAddr c.head) o.2.length = ST_OK → Gives (.kvPause h ring seq) s fun t =>
            (∃ q ∈ t.requests, q.num = r.num ∧ q.paused = true) ∧
            ∃ d ∈ t.chains, d.readNo = c.readNo ∧ d.done = true ∧ d.status = (c.finish ST_OK).status ∧ d.detail = l.length))) ∧
      (sub = 8 → ended (.kvResume h ring seq) ST_KV_STATE)) ∧
    (r.paused = true → sub = 8 →
      let i := readRecord s c r
      let pack := (fieldAt i.front 0x11 1).testBit 1
      let d := recordData c r pack (kpAddr c.head + recData r.header i.descs.length) i.descs (i.s, ST_OK, [])
      let o := if i.sealed then openRecord d.1 r i d.2.2 else some d.2.2
      let q := resumeSlots r ((i.descs.filter fun x => x.form != 2).length - c.run.length) (d.1, c.run)
      (i.status ≠ ST_OK → endsAs (.kvResume h ring seq) i.status 0) ∧
      (i.status = ST_OK → d.2.1 ≠ ST_OK → endsAs (.kvResume h ring seq) d.2.1 0) ∧
      (i.status = ST_OK → d.2.1 = ST_OK → o = none → endsAs (.kvResume h ring seq) ST_VALLEY_AUTH 0) ∧
      (∀ data, i.status = ST_OK → d.2.1 = ST_OK → o = some data →
        ((∃ x ∈ i.descs, descOk d.1 r pack x = false) → endsAs (.kvResume h ring seq) ST_KV_STATE 0) ∧
        ((∀ x ∈ i.descs, descOk d.1 r pack x = true) →
          (q.2.2 = .wait → mine (.kvResume h ring seq) fun _ e => e.done = false ∧ e.run = q.2.1) ∧
          (∀ st, q.2.2 = .fail st → endsAs (.kvResume h ring seq) st 0) ∧
          (q.2.2 = .ready → Gives (.kvResume h ring seq) s fun t => (∃ x ∈ t.requests, x.num = r.num ∧ x.paused = false) ∧
            ∃ x ∈ t.chains, x.readNo = c.readNo ∧ x.done = true ∧ x.status = (c.finish ST_OK).status ∧ x.detail = i.descs.length)))) ∧
    (r.paused = false → sub = 9 →
      let pairs := (pfxPairs r.header).length
      let ns := namespaceOf s h r.fn
      (c.checked = false → (mapPfxEn r.header = false ∨ ∃ l < mapNL r.header, layerLen s r l ≠ 0) →
        ended (.kvPrefixLookup h ring seq) ST_KV_STATE) ∧
      (c.checked = false → mapPfxEn r.header = true → (∀ l < mapNL r.header, layerLen s r l = 0) →
        (keyOf s h ns .pfx = none → ended (.kvPrefixLookup h ring seq) ST_KEY_MISSING) ∧
        (∀ key, keyOf s h ns .pfx = some key → (pfxTokens s c).1 ≠ ST_OK → endsAs (.kvPrefixLookup h ring seq) (pfxTokens s c).1 0) ∧
        (∀ key, keyOf s h ns .pfx = some key → (pfxTokens s c).1 = ST_OK →
          let toks := (pfxTokens s c).2.2
          let w := pfxWalk r ns key (toks.length / 64 + 1) 0 (mapPfxNs r.header) none toks (pfxTokens s c).2.1
          (w.2.1 < mapNP r.header → findLeaf w.1 r ns w.2.2 (toks.drop (64 * w.2.1)) = none) →
          ends (.kvPrefixLookup h ring seq) (w.2.1 * pairs))) ∧
      (∀ n, c.checked = true → (s.nodes.find? fun x => x.half == r.half && x.idx == c.run.getD 1 0) = some n →
        let full := c.run.getD 0 0
        let q := copyLeaf r n full c.work ((pfxPairs r.header).drop c.work) s
        (q.2.2 = .wait → mine (.kvPrefixLookup h ring seq) fun _ d => d.done = false ∧ d.work = q.2.1) ∧
        (∀ st, q.2.2 = .fail st → ends (.kvPrefixLookup h ring seq) (full * pairs + q.2.1)) ∧
        (q.2.2 = .ready → ends (.kvPrefixLookup h ring seq) ((full + 1) * pairs)))) ∧
    (r.paused = false → sub = 10 →
      let ns := namespaceOf s h r.fn
      (insertOk s c r = false → ended (.kvPrefixInsert h ring seq) ST_KV_STATE) ∧
      (∀ i, insertOk s c r = true → outOfReach s r (insertPages c r) = some i → endsAs (.kvPrefixInsert h ring seq) ST_HBM_FENCE 0) ∧
      (insertOk s c r = true → outOfReach s r (insertPages c r) = none →
        (keyOf s h ns .pfx = none → ended (.kvPrefixInsert h ring seq) ST_KEY_MISSING) ∧
        (∀ key, keyOf s h ns .pfx = some key → (pfxTokens s c).1 ≠ ST_OK → endsAs (.kvPrefixInsert h ring seq) (pfxTokens s c).1 0) ∧
        (∀ key, keyOf s h ns .pfx = some key → (pfxTokens s c).1 = ST_OK →
          let q := insertWalk r ns key ((pfxTokens s c).2.2.length / 64 + 2) 0 (mapPfxNs r.header) none (pfxTokens s c).2.2 ((pfxTokens s c).2.1, 0)
          endsAs (.kvPrefixInsert h ring seq) q.2.2 q.2.1)))

/-- Transfers and the slot space. A partition above HIGH starts spills while it holds more than LOW without those in progress; otherwise
nothing changes. A spill that is issued and a prefetch that lands are over, whether discarded, failed or complete; one without its granule
waits for it, behind those that wait before it. A look-ahead is noted once for its layer, unless it waits for a slot; a hand-over is
granted once no fold reads its
page. A flush leaves no reclaimable node. The writes of R289 and R328 apply or are refused with ST_KV_CONFIG, and are discarded while the
setup is locked. -/
def Obligations.KvTransfersAndSlots : Prop :=
  ∀ (h : Half) (num layer head page i v : Nat) (p : Fin 64) (s : State),
    let last (st : Nat) : CellVal := cell (.kv .KV_LAST_STATUS) h 0 st
    let held := s.rd (.kv .KV_PSTAT_HELD) h p.val
    let low := s.rd (.kv .KV_QUOTA_LOW) h p.val
    (∀ q, 64 ≤ q → Sets (.valleySpillStart h q) s []) ∧
    (held ≤ s.rd (.kv .KV_QUOTA_HIGH) h p.val ∨ autoSpill s h p.val = none → Sets (.valleySpillStart h p.val) s []) ∧
    (s.rd (.kv .KV_QUOTA_HIGH) h p.val < held → low < held →
      (∀ x ∈ s.transfers, x.half = h → x.spill = false) → (autoSpill s h p.val).isSome = true →
      Gives (.valleySpillStart h p.val) s fun t => s.transfers.length < t.transfers.length) ∧
    (transferOf s h num layer head page true = none → Sets (.valleySpillIssued h num layer head page) s []) ∧
    (transferOf s h num layer head page false = none → Sets (.valleyPrefetchLand h num layer head page) s []) ∧
    (∀ x spill, transferOf s h num layer head page spill = some x →
      let k := if spill then Instr.valleySpillIssued h num layer head page else .valleyPrefetchLand h num layer head page
      let one := takeGranules s x.half (xferClass x.spill) 1 (some x.tag)
      (x.discard = true → Gives k s fun t => x ∉ t.transfers) ∧
      (x.discard = false → s.request num = none → Sets k s []) ∧
      (∀ r, x.discard = false → s.request num = some r →
        (spill = true → s.hostOk h r.fn = false → Gives k s fun t => x ∉ t.transfers) ∧
        (spill = true → s.hostOk h r.fn = true ∨ spill = false →
          (x.granules = 0 → waitsBefore s x = true → Sets k s []) ∧
          (x.granules = 0 → waitsBefore s x = false → one = none → Gives k s fun t =>
            t = waitGranules s x.half (xferClass x.spill) 1 (some x.tag)) ∧
          (x.granules ≠ 0 ∨ (waitsBefore s x = false ∧ one.isSome = true) → (spill = true ∨ ∀ o ∈ s.colls, o.ring = false) →
            Gives k s fun t => x ∉ t.transfers)))) ∧
    (s.request num = none → Sets (.lookaheadPrefetch h num layer) s [] ∧ Sets (.evictSlotHandover h num) s []) ∧
    (∀ r, s.request num = some r →
      let due : Prop := r.half = h ∧ r.paused = false ∧ layer ∈ r.touched ∧ layer + 4096 ∉ r.touched ∧ layer < 4096 ∧
        s.hostOk h r.fn = true ∧ (keyOf s h r.fn .valley).isSome = true
      (¬ due → Sets (.lookaheadPrefetch h num layer) s []) ∧
      let ls := ((List.range (mapLookahead r.header)).map (layer + 1 + ·)).filter fun l => decide (l < mapNL r.header)
      let q := lookAhead r (pagesOf ls (List.range (mapNKV r.header)) 0 (mapNP r.header)) s
      (due → q.2 = false → Gives (.lookaheadPrefetch h num layer) s fun t => t = q.1) ∧
      (due → q.2 = true → Gives (.lookaheadPrefetch h num layer) s fun t => ∃ y ∈ t.requests, y.num = num ∧ layer + 4096 ∈ y.touched)) ∧
    (∀ r, s.request num = some r →
      let asked : Prop := ∃ x ∈ s.handovers, x.half = h ∧ x.request = num ∧ x.granted = false
      (folding s r = true ∨ ¬ asked → Sets (.evictSlotHandover h num) s []) ∧
      (folding s r = false → asked → Gives (.evictSlotHandover h num) s fun t => SameMem s t ∧
        (∀ x ∈ s.handovers, x.half = h → x.request = num → { x with granted := true } ∈ t.handovers) ∧
        ∀ y ∈ t.handovers, y.half = h → y.request = num → y.granted = true)) ∧
    (Gives (.pfxFlush h) s fun t => ∀ n ∈ t.nodes, n.half = h → reclaimable t n = false) ∧
    (locked s h = true → (∀ reg, Sets (.kvQuotaWrite h reg i v) s []) ∧ ∀ reg, Sets (.valleyConfigWrite h p reg v) s []) ∧
    (locked s h = false →
      (∀ reg : Fin 5, let off : Prop := if reg.val = 4 then 16 ≤ i else 64 ≤ i
        (off → Sets (.kvQuotaWrite h reg i v) s []) ∧
        (¬ off → kvConfigOk (kvStore s h reg.val i v) h = false ∨ ((reg.val = 0 ∨ reg.val = 1 ∨ reg.val = 3) ∧ anyOpen s h = true) →
          Sets (.kvQuotaWrite h reg i v) s [last ST_KV_CONFIG])) ∧
      (kvConfigOk (kvStore s h 0 i v) h = true → anyOpen s h = false → i < 64 → Gives (.kvQuotaWrite h 0 i v) s fun t =>
        t.rd (.kv .KV_SLOT_BASE) h 0 = v % 2 ^ 64 ∧ t.rd (.kv .KV_LAST_STATUS) h 0 = ST_OK ∧
        (∀ k < 64, t.rd (.kv .KV_PSTAT_HELD) h k = 0) ∧ ∀ n ∈ t.nodes, n.half ≠ h) ∧
      (kvConfigOk (kvStore s h 1 i v) h = true → anyOpen s h = false → i < 64 → Gives (.kvQuotaWrite h 1 i v) s fun t =>
        let count := bitsAt v 0 21
        t.rd (.kv .KV_SLOT_CFG_COUNT) h 0 = count ∧ t.rd (.kv .KV_LAST_STATUS) h 0 = ST_OK ∧
        t.rd (.kv .KV_SLOT_FREE) h 0 = count - reservedSlots count ∧ ∀ n ∈ t.nodes, n.half ≠ h) ∧
      (kvConfigOk (kvStore s h 2 i v) h = true → i < 64 → Sets (.kvQuotaWrite h 2 i v) s [last ST_OK,
        cell (.kv .KV_QUOTA_QUOTA) h i (bitsAt v 0 21), cell (.kv .KV_QUOTA_HIGH) h i (bitsAt v 21 21),
        cell (.kv .KV_QUOTA_LOW) h i (bitsAt v 42 21)]) ∧
      (kvConfigOk (kvStore s h 3 i v) h = true → anyOpen s h = false → i < 64 → Sets (.kvQuotaWrite h 3 i v) s [last ST_OK,
        cell (.kv .KV_PGRP_SGRP) h i (bitsAt v 0 4), cell (.kv .KV_PGRP_SG_EN) h i (bitsAt v 4 1)]) ∧
      (kvConfigOk (kvStore s h 4 i v) h = true → i < 16 → Sets (.kvQuotaWrite h 4 i v) s [last ST_OK,
        cell (.kv .KV_GRP_QUOTA) h i (bitsAt v 0 21)]) ∧
      ((∃ r ∈ s.requests, r.half = h ∧ r.fn = p.val) → ∀ reg, Sets (.valleyConfigWrite h p reg v) s [last ST_KV_CONFIG]) ∧
      ((∀ r ∈ s.requests, r.half = h → r.fn ≠ p.val) →
        (v % 4096 ≠ 0 ∨ 2 ^ 63 ≤ v % 2 ^ 64 → Sets (.valleyConfigWrite h p 0 v) s [last ST_KV_CONFIG] ∧
          Sets (.valleyConfigWrite h p 1 v) s [last ST_KV_CONFIG]) ∧
        (v % 4096 = 0 → v % 2 ^ 64 < 2 ^ 63 →
          Sets (.valleyConfigWrite h p 0 v) s [last ST_OK, cell (.kv .VALLEY_BASE) h p.val (v % 2 ^ 64)] ∧
          Sets (.valleyConfigWrite h p 1 v) s [last ST_OK, cell (.kv .VALLEY_TAG) h p.val (v % 2 ^ 64)]) ∧
        Sets (.valleyConfigWrite h p 2 v) s [last ST_OK, cell (.kv .VALLEY_CFG_UNITS) h p.val (bitsAt v 0 24),
          cell (.kv .VALLEY_CFG_EN) h p.val (bitsAt v 31 1)]))

/-! ### Egress (§13) -/

/-- The egress port. A SHIP that comes first at its engine ends with ST_KV_PAUSED, ST_SHIP_PLAN or its stream's status where it may not
run; one whose pages are all in HBM queues them and ends. EN, the configuration, the plans and the link change by R423 and R425, with the
status of the first condition that fails. A frame that is no ACK or RESET for the port is dropped and counted. An accepted ACK frees what
it marks; an accepted RESET ends its stream with ST_SHIP_REFUSED. A datagram that is ready is sent once it has a cell. The timer, once
due, doubles RTO and halves the rate, and past RETX_MAX ends the stream; the rate rises once its period has passed. -/
def Obligations.EgressCommands : Prop :=
  ∀ (h : Half) (v : Nat) (s : State),
    let last (st : Nat) : CellVal := cell (.egr .EGR_STATUS_LAST_STATUS) h 0 st
    let en := s.rd (.egr .EGR_CTL_EN) h 0
    let up := s.rd (.egr .EGR_STATUS_LINK_UP) h 0
    (∀ ring seq, (∀ c, s.chain h ring seq = some c → c.running = true → hdOpcode c.head = opSHIP → servedNext s c = false) →
      Sets (.ship h ring seq) s []) ∧
    (∀ ring seq c, s.chain h ring seq = some c → c.running = true → hdOpcode c.head = opSHIP → servedNext s c = true →
      let endsAs (st detail : Nat) : Prop := Gives (.ship h ring seq) s fun t => SameMem s t ∧
        ∃ d ∈ t.chains, d.readNo = c.readNo ∧ d.done = true ∧ d.status = (c.finish st).status ∧ d.detail = detail
      (s.request (hdRequest c.head) = none → endsAs ST_OK c.detail) ∧
      (∀ r, s.request (hdRequest c.head) = some r →
        (c.cancelled = true → endsAs ST_OK c.progress) ∧
        (c.cancelled = false → c.checked = false →
          (r.paused = true → endsAs ST_KV_PAUSED 0) ∧
          (r.paused = false → shipPlan s c r = none → endsAs ST_SHIP_PLAN 0) ∧
          (∀ k, r.paused = false → shipPlan s c r = some k → (shipStream s c k).1 ≠ ST_OK → endsAs (shipStream s c k).1 0) ∧
          (∀ k, r.paused = false → shipPlan s c r = some k → (shipStream s c k).1 = ST_OK →
            (∀ x ∈ s.streams, ∀ p ∈ x.pages, p.ship ≠ c.readNo) → (∀ q ∈ shipCover r.header c.head,
              (entryOf s r q.1 q.2.1 q.2.2).state = enHBM ∧ pageReach s r (entryOf s r q.1 q.2.1 q.2.2).slot = true) →
            endsAs c.status (shipCover r.header c.head).length)))) ∧
    (s.rd (.boot .MGMT_READY) h = 0 → Sets (.egrEnable h) s []) ∧
    (s.rd (.boot .MGMT_READY) h ≠ 0 → s.lowland h = true → Sets (.egrEnable h) s [last ST_LOWLAND]) ∧
    (s.rd (.boot .MGMT_READY) h ≠ 0 → s.lowland h = false → en = 1 → Sets (.egrEnable h) s [last ST_OK]) ∧
    (s.rd (.boot .MGMT_READY) h ≠ 0 → s.lowland h = false → en ≠ 1 →
      let ok : Prop := s.rd (.egr .EGR_MAC) h 0 ≠ 0 ∧ (s.rd (.egr .EGR_IP4) h 0 ≠ 0 ∨ s.rd (.egr .EGR_IP6_LO) h 0 ≠ 0 ∨
        s.rd (.egr .EGR_IP6_HI) h 0 ≠ 0) ∧ plansFit s h (s.rd (.egr .EGR_PORT_CFG_MTU) h 0) = true
      (¬ ok → Sets (.egrEnable h) s [last ST_EGR_CONFIG]) ∧
      (ok → Gives (.egrEnable h) s fun t => t.rd (.egr .EGR_CTL_EN) h 0 = 1 ∧ t.rd (.egr .EGR_STATUS_ENABLED) h 0 = 1 ∧
        t.rd (.egr .EGR_STATUS_LAST_STATUS) h 0 = ST_OK ∧ SameMem s t)) ∧
    (s.lowland h = true → Sets (.egrDisable h) s [last ST_LOWLAND] ∧ ∀ reg, Sets (.egrConfigWrite h reg v) s [last ST_LOWLAND]) ∧
    (s.lowland h = false → en = 0 → Sets (.egrDisable h) s [last ST_OK]) ∧
    (s.lowland h = false → en ≠ 0 → Gives (.egrDisable h) s fun t => t.rd (.egr .EGR_CTL_EN) h 0 = 0 ∧
      t.rd (.egr .EGR_STATUS_ENABLED) h 0 = 0 ∧
      t.rd (.egr .EGR_STATUS_LINK_UP) h 0 ≠ 1 ∧ ∀ x ∈ t.streams, x.half ≠ h) ∧
    (s.lowland h = false → en = 1 → ∀ reg : Fin 7, reg.val ≤ 4 → Sets (.egrConfigWrite h reg v) s [last ST_EGR_BUSY]) ∧
    (s.lowland h = false → en ≠ 1 → Sets (.egrConfigWrite h 0 v) s [last ST_OK, cell (.egr .EGR_MAC) h 0 (v % 2 ^ 48)] ∧
      Sets (.egrConfigWrite h 1 v) s [last ST_OK, cell (.egr .EGR_IP4) h 0 (v % 2 ^ 32)] ∧
      Sets (.egrConfigWrite h 2 v) s [last ST_OK, cell (.egr .EGR_IP6_LO) h 0 (v % 2 ^ 64)] ∧
      Sets (.egrConfigWrite h 3 v) s [last ST_OK, cell (.egr .EGR_IP6_HI) h 0 (v % 2 ^ 64)] ∧
      (bitsAt v 0 14 < 1280 ∨ 9000 < bitsAt v 0 14 → Sets (.egrConfigWrite h 4 v) s [last ST_EGR_CONFIG]) ∧
      (1280 ≤ bitsAt v 0 14 → bitsAt v 0 14 ≤ 9000 → Sets (.egrConfigWrite h 4 v) s [last ST_OK,
        cell (.egr .EGR_PORT_CFG_MTU) h 0 (bitsAt v 0 14), cell (.egr .EGR_PORT_CFG_RX_UDP) h 0 (bitsAt v 16 16)])) ∧
    (s.lowland h = false → bitsAt v 16 16 = 0 ∨ bitsAt v 8 8 = 0 ∨ bitsAt v 4 4 = 0 ∨ 8 < bitsAt v 4 4 →
      Sets (.egrConfigWrite h 5 v) s [last ST_EGR_CONFIG]) ∧
    (s.lowland h = false → bitsAt v 16 16 ≠ 0 → bitsAt v 8 8 ≠ 0 → bitsAt v 4 4 ≠ 0 → bitsAt v 4 4 ≤ 8 →
      Sets (.egrConfigWrite h 5 v) s [last ST_OK,
      cell (.egr .EGR_CC_CE_CUT) h 0 (bitsAt v 4 4), cell (.egr .EGR_CC_INC_STEP) h 0 (bitsAt v 8 8),
      cell (.egr .EGR_CC_INC_PERIOD) h 0 (bitsAt v 16 16)]) ∧
    (s.lowland h = false → Sets (.egrConfigWrite h 6 v) s [last ST_OK, cell (.egr .EGR_CC2_ECN_HOLD) h 0 (bitsAt v 0 16)]) ∧
    (∀ (k : Fin 256) (word : Fin 32),
      let a := (h.num * 256 + k.val) * 128 + 4 * word.val
      let x := v &&& planMask (4 * word.val)
      let s1 : State := { s with plans := s.plans.writeN a (leBytes 4 x) }
      let stored : Prop := Gives (.shipPlanWrite h k word v) s fun t => t.plans.readN a 4 = leBytes 4 x ∧
        (∀ b, b < a ∨ a + 4 ≤ b → t.plans.read b = s.plans.read b) ∧ t.mem = s.mem ∧ t.rd (.egr .EGR_STATUS_LAST_STATUS) h 0 = ST_OK
      (planValid s h k.val = true → (word.val ≠ 0 ∨ x.testBit 31 = true ∨ ∃ y ∈ s.streams, y.half = h ∧ y.plan = k.val) →
        Sets (.shipPlanWrite h k word v) s [last ST_EGR_BUSY]) ∧
      (planValid s h k.val = true → word.val = 0 → x.testBit 31 = false → (∀ y ∈ s.streams, y.half = h → y.plan ≠ k.val) → stored) ∧
      (planValid s h k.val = false → word.val = 0 → x.testBit 31 = true → planOk s1 h k.val = false →
        Sets (.shipPlanWrite h k word v) s [last ST_EGR_CONFIG]) ∧
      (planValid s h k.val = false → (word.val ≠ 0 ∨ x.testBit 31 = false ∨ planOk s1 h k.val = true) → stored)) ∧
    (en = 1 → up = 0 → Gives (.egrLinkChange h true) s fun t => t.rd (.egr .EGR_STATUS_LINK_UP) h 0 = 1 ∧ SameMem s t) ∧
    (en ≠ 1 ∨ up ≠ 0 → Sets (.egrLinkChange h true) s []) ∧
    (up = 1 → Gives (.egrLinkChange h false) s fun t => t.rd (.egr .EGR_STATUS_LINK_UP) h 0 = 0 ∧ SameMem s t) ∧
    (up ≠ 1 → Sets (.egrLinkChange h false) s []) ∧
    (en = 0 ∨ up = 0 → Sets (.datagramSend h) s [] ∧ ∀ frame, Sets (.egrFrameReceive h frame) s []) ∧
    (∀ frame, en ≠ 0 → up ≠ 0 →
      let ours (u : List Nat) : Prop := u.headD 0 = 1 ∧ ((u.getD 1 0 = 8 ∧ u.length = 80) ∨ (u.getD 1 0 = 9 ∧ u.length = 48))
      (frameMax < frame.length ∨ (∀ q, acceptFrame s h (toNats frame) = some q → ¬ ours q.2) → Sets (.egrFrameReceive h frame) s
        [cell (.egr .EGR_RX_DROP) h 0 (min (s.rd (.egr .EGR_RX_DROP) h 0 + 1) (2 ^ 32 - 1))]) ∧
      (∀ src u, frame.length ≤ frameMax → acceptFrame s h (toNats frame) = some (src, u) → ours u →
        Gives (.egrFrameReceive h frame) s fun t =>
          t = { s with egrRx := s.egrRx ++ [(h, toBytes src, toBytes u)] })) ∧
    (∀ t, acceptRx s h 8 = .error t → Gives (.ackReceive h) s fun u => u = t) ∧
    (∀ t, acceptRx s h 9 = .error t → Gives (.resetReceive h) s fun u => u = t) ∧
    (∀ s1 x p b, acceptRx s h 8 = .ok (s1, x, p, b) → Gives (.ackReceive h) s fun t =>
      t.rd (.egr .EGR_RX_ACKS) h 0 = min (s.rd (.egr .EGR_RX_ACKS) h 0 + 1) (2 ^ 64 - 1) ∧
      ∀ y ∈ t.streams, y.half = h → y.ctx = x.ctx → y.ackNo = fieldAt p 0x10 4 ∧
        ∀ d ∈ y.dgrams, ackMarks (fieldAt p 8 4) b d.seq = false) ∧
    (∀ s1 x p b, acceptRx s h 9 = .ok (s1, x, p, b) → Gives (.resetReceive h) s fun t =>
      t.rd (.egr .STREAM_ST2_STATUS) h x.ctx = ST_SHIP_REFUSED ∧ ∀ y ∈ t.streams, y.half = h → y.ctx ≠ x.ctx) ∧
    (∀ x d new frame, en ≠ 0 → up ≠ 0 → x ∈ s.streams → x.half = h → (∀ y ∈ s.streams, y.half = h → y = x) →
      egressCells s h ≤ 7 * poolInUse s h 1 →
      (readyFrame s x = none → Sets (.datagramSend h) s []) ∧
      (readyFrame s x = some (d, new, frame) → d.staged = false → egressCell s h = none → Gives (.datagramSend h) s fun t =>
        t = waitGranules s h 1 1 none) ∧
      (readyFrame s x = some (d, new, frame) → d.staged = true ∨ (egressCell s h).isSome = true → Gives (.datagramSend h) s fun t =>
        t.out = s.out ++ [.egress h frame] ∧
        t.rd (.egr .EGR_TX_DGRAMS) h 0 = min (s.rd (.egr .EGR_TX_DGRAMS) h 0 + 1) (2 ^ 64 - 1))) ∧
    (∀ ctx : Fin 1024, streamAt s h ctx.val = none → Sets (.retxTimerExpire h ctx) s [] ∧ Sets (.rateIncrease h ctx) s []) ∧
    (∀ (ctx : Fin 1024) x, streamAt s h ctx.val = some x →
      let oldest := firstBy (fun d : Dgram => [d.seq]) (x.dgrams.filter fun d => x.state != 2 || d.type == 2)
      ((∀ d, oldest = some d → retxDue s x d = false) → Sets (.retxTimerExpire h ctx) s []) ∧
      (∀ d, oldest = some d → retxDue s x d = true →
        (planRetxMax s h x.plan ≤ d.tries → Gives (.retxTimerExpire h ctx) s fun t =>
          t.rd (.egr .STREAM_ST2_STATUS) h ctx.val = (if x.state = 2 then x.status else ST_SHIP_NOACK) % 2 ^ 16 ∧
          ∀ y ∈ t.streams, y.half = h → y.ctx ≠ ctx.val) ∧
        (d.tries < planRetxMax s h x.plan → Gives (.retxTimerExpire h ctx) s fun t => ∃ y ∈ t.streams, y.half = h ∧ y.ctx = ctx.val ∧
          y.rto = min (planRtoMax s h x.plan) (2 * x.rto) ∧ y.rate = max (planMinRate s h x.plan) (x.rate / 2) ∧
          ∀ e ∈ y.dgrams, e.seq = d.seq → e.resend = (up == 1 || decide (e.tries < planRetxMax s h x.plan)))) ∧
      let due := x.incMt + s.rd (.egr .EGR_CC_INC_PERIOD) h 0 * 1000
      (s.mt h < due → Sets (.rateIncrease h ctx) s []) ∧
      (due ≤ s.mt h → Gives (.rateIncrease h ctx) s fun t => ∃ y ∈ t.streams, y.half = h ∧ y.ctx = ctx.val ∧
        y.rate = min (planMaxRate s h x.plan) (x.rate + s.rd (.egr .EGR_CC_INC_STEP) h 0)))

/-! ### The fabric (§11) -/

/-- A port of the fabric, from OFF to UP and down again. Training starts where R361 allows it, and goes through the steps of Table 11.2 on
the lanes that every step has left; the partner's INIT makes the port UP, DEGRADED or MISWIRED. Lanes that fail move a direction to two
lanes, or take the port DOWN; a notice, a command of the operator, a timeout and a third replay run take it DOWN with their cause. What is
not due changes nothing. -/
def Obligations.FabricPorts : Prop :=
  ∀ (h : Half) (port : Fin 6) (lanes : Nat) (s : State),
    let n := port.val
    let l := linkOf s h n
    let st := portSt s h n
    let opened : Prop := portOpen s h n = true
    let live : Prop := portLive s h n = true
    let last (x : Nat) : List CellVal := [cell (.fab .PORT_STATUS_LAST_STATUS) h n x, cell (.fab .FAB_STATUS_LAST_STATUS) h 0 x]
    let down (k : Instr) (cause : Nat) : Prop := Gives k s fun t => portSt t h n = 5 ∧ t.rd (.fab .PORT_STATUS_CAUSE) h n = cause
    let pairs (k : Instr) (step rx : Nat) : Prop := Gives k s fun t => portSt t h n = 1 ∧ (linkOf t h n).trainStep = step ∧ SameMem s t ∧
      (rx ≠ 0 → t.rd (.fab .PORT_STATUS_RX_PAIR) h n = rx ∧ t.rd (.fab .PORT_STATUS_TX_PAIR) h n = rx)
    let good := goodLanes s h n lanes
    let trains (k : Instr) (step : Nat) : Prop := (¬(st = 1 ∧ l.trainStep + 1 = step) → Sets k s []) ∧ (st = 1 → l.trainStep + 1 = step →
      (good = 15 → pairs k step 0) ∧ (good % 4 = 3 → good ≠ 15 → pairs k step 1) ∧ (good % 4 ≠ 3 → good / 4 = 3 → pairs k step 2) ∧
      (good % 4 ≠ 3 → good / 4 ≠ 3 → down k 2))
    let ready := s.rd (.boot .MGMT_READY) h
    (ready = 0 → Sets (.portTrain h port) s []) ∧
    (s.lowland h = true → (ready ≠ 0 → Sets (.portTrain h port) s (last ST_LOWLAND)) ∧ Sets (.portAdminDown h port) s (last ST_LOWLAND)) ∧
    (s.lowland h = false →
      (ready ≠ 0 → s.rd (.fab .FAB_STATUS_CFG_OK) h 0 = 0 → Sets (.portTrain h port) s (last ST_FAB_CONFIG)) ∧
      (ready ≠ 0 → s.rd (.fab .FAB_STATUS_CFG_OK) h 0 ≠ 0 →
        (st = 1 ∨ st = 2 → Sets (.portTrain h port) s (last ST_FAB_BUSY)) ∧
        (st ≠ 1 → st ≠ 2 → Gives (.portTrain h port) s fun t => portSt t h n = 1 ∧ (linkOf t h n).trainStep = 1 ∧ SameMem s t ∧
          t.rd (.fab .PORT_NBR_V) h n = 0 ∧ t.rd (.fab .PORT_STATUS_LAST_STATUS) h n = ST_OK)) ∧
      (st = 5 → Sets (.portAdminDown h port) s (last ST_OK)) ∧
      (st ≠ 5 → down (.portAdminDown h port) 5 ∧ Gives (.portAdminDown h port) s fun t =>
        t.rd (.fab .PORT_STATUS_LAST_STATUS) h n = ST_OK ∧ (st ≠ 0 → .linkControl h n .downNotice ∈ t.out))) ∧
    (st = 1 → l.trainStep = 1 → pairs (.portPartnerDetect h port) 2 0) ∧
    (¬(st = 1 ∧ l.trainStep = 1) → Sets (.portPartnerDetect h port) s []) ∧
    (let due : Prop := st = 1 ∧ l.trainStep = 1 ∧ l.trainMt + s.rd (.fab .FAB_LINK_CFG_TRAIN_TMO) h 0 * 100000000 ≤ s.mt h
     (due → down (.portTrainTimeout h port) 1) ∧ (¬ due → Sets (.portTrainTimeout h port) s [])) ∧
    trains (.portPmdTrainDone h port lanes) 3 ∧ trains (.portFecLock h port lanes) 4 ∧
    (st = 1 → l.trainStep = 3 → good % 4 = 3 ∨ good / 4 = 3 → Gives (.portFecLock h port lanes) s fun t =>
      (linkOf t h n).ctl = some (initControl s h n) ∧ (linkOf t h n).ctlMt = 0) ∧
    (¬(st = 1 ∧ l.trainStep = 4) → ∀ version node dir sizes, Sets (.initFlitReceive h port version node dir sizes) s []) ∧
    (∀ version node dir sizes, st = 1 → l.trainStep = 4 →
      let ok : Prop := version = 1 ∧ node / 2048 = h.num ∧ portDir s h n ≠ 0 ∧ node = neighbour s h n ∧
        dir = oppositeDir (portDir s h n)
      let k : Instr := .initFlitReceive h port version node dir sizes
      (ok → Gives k s fun t => portSt t h n = (if s.rd (.fab .PORT_STATUS_RX_PAIR) h n = 0 then 2 else 3) ∧
        t.rd (.fab .PORT_NBR_V) h n = 1 ∧ t.rd (.fab .PORT_NBR_NODE) h n = node % 2 ^ 12) ∧
      (¬ ok → Gives k s fun t => portSt t h n = 4 ∧ t.rd (.fab .PORT_STATUS_CAUSE) h n = 7)) ∧
    (∀ both errors,
      let failed := bitsAt lanes 0 4
      let fails : Prop := live ∧ failed ≠ 0 ∧ ∀ e, errors = some e → s.rd (.fab .FAB_LINK_CFG_LANE_SER_LIMIT) h 0 < e
      let left := if both = true then none else survivor (s.rd (.fab .PORT_STATUS_RX_PAIR) h n) failed
      (¬ fails → Sets (.laneFail h port lanes both errors) s []) ∧
      (fails → left = none → down (.laneFail h port lanes both errors) 3) ∧
      (∀ pair, fails → left = some pair → s.rd (.fab .PORT_STATUS_RX_PAIR) h n = pair →
        Gives (.laneFail h port lanes both errors) s fun t => t = portErr s h n 2) ∧
      (∀ pair, fails → left = some pair → s.rd (.fab .PORT_STATUS_RX_PAIR) h n ≠ pair →
        Gives (.laneFail h port lanes both errors) s fun t => t.rd (.fab .PORT_STATUS_RX_PAIR) h n = pair ∧
          (linkOf t h n).degrading = true ∧ (linkOf t h n).ctl = some (.degrade pair) ∧ SameMem s t)) ∧
    (∀ pair, (live → pair = 1 ∨ pair = 2 → Gives (.degradeFlitReceive h port pair) s fun t =>
        t.rd (.fab .PORT_STATUS_TX_PAIR) h n = pair ∧ SameMem s t) ∧
      (¬(live ∧ (pair = 1 ∨ pair = 2)) → Sets (.degradeFlitReceive h port pair) s [])) ∧
    (live → l.degrading = true ∨ l.txMoved = true →
      Gives (.laneDegradeDone h port) s fun t => portSt t h n = if st = 4 then 4 else 3) ∧
    (¬(live ∧ (l.degrading = true ∨ l.txMoved = true)) → Sets (.laneDegradeDone h port) s []) ∧
    (st ≠ 0 → st ≠ 5 → down (.downNoticeReceive h port) 6) ∧ (st = 0 ∨ st = 5 → Sets (.downNoticeReceive h port) s []) ∧
    (let due : Prop := opened ∧ l.relock = false ∧
        ∃ f rest, l.replay = f :: rest ∧ f.sentMt + s.rd (.fab .FAB_LINK_CFG_REPLAY_TMO) h 0 * 100 ≤ s.mt h
     (due → Gives (.fabricReplayTimeout h port) s fun t => (linkOf t h n).resendAt = some 0 ∧ SameMem s t ∧ t.regs = s.regs) ∧
      (¬ due → Sets (.fabricReplayTimeout h port) s [])) ∧
    (let spent : Prop := opened ∧ l.relock = false ∧ ∃ f ∈ l.replay, 8 ≤ f.resends
     let run := if l.progress = true then 1 else l.exhRun + 1
     (¬ spent → Sets (.fabricReplayExhaust h port) s []) ∧ (spent → 3 ≤ run → down (.fabricReplayExhaust h port) 4) ∧
      (spent → run < 3 → Gives (.fabricReplayExhaust h port) s fun t =>
        (linkOf t h n).relock = true ∧ (linkOf t h n).exhRun = run ∧ SameMem s t)) ∧
    (l.relock = false → Sets (.fabricRelockDone h port) s []) ∧
    (l.relock = true → Gives (.fabricRelockDone h port) s fun t => (linkOf t h n).relock = false ∧ SameMem s t ∧ t.regs = s.regs ∧
      (linkOf t h n).resendAt = if l.replay = [] then none else some 0)

/-- Flits, packets and the registers of the fabric. A flit slot of an open port carries a flit due again, else link control that is due,
else DATA, else an idle flit. A bad flit is counted, and on an open port asked for again; one in order is acknowledged, and begins or
continues its packet.
A packet whose first flit has come, or that is injected, is delivered, queued on the port that R373 gives, or dropped and counted.
Management requests are answered, and only those of R378 performed. The configuration changes by R367, R372 and R375, or is refused with
their status. -/
def Obligations.FabricPackets : Prop :=
  ∀ (h : Half) (port : Fin 6) (s : State),
    let n := port.val
    let l := linkOf s h n
    let opened : Prop := portOpen s h n = true
    let last (x : Nat) : CellVal := cell (.fab .FAB_STATUS_LAST_STATUS) h 0 x
    let counts (f : Fld) (i : Nat) (t : State) : Prop := t.rd f h i = min (s.rd f h i + 1) (2 ^ 32 - 1)
    let bad (p : Packet) : Prop := outOfRange s h p.dst = true ∨ outOfRange s h p.src = true
    let queued (t : State) (k : Nat) (q : Packet) : Prop := ∃ o ∈ (linkOf t h k).outq, o.bytes = q.bytes
    let l0 := refillTokens s l
    let r := openSlot s l0
    let idles : Prop :=
      (∀ c, controlDue s l0 = some c → Gives (.flitSendSlot h port) s fun t => ∃ f, t.out = r.1.out ++ [f, .linkControl h n c]) ∧
      (controlDue s l0 = none → Gives (.flitSendSlot h port) s fun t => t.regs = s.regs ∧
        t.out = r.1.out ++ [.flit h n (cwControl 0 r.2.cw) r.2.cwHalf (flitBytes l 0 0 0 [])])
    (opened → l.relock = false →
      (∀ i f, l.resendAt = some i → l.replay[i]? = some f → Gives (.flitSendSlot h port) s fun t =>
        t.out = r.1.out ++ [.flit h n (cwControl 0 r.2.cw) r.2.cwHalf (flitBytes l 1 f.flags f.seq f.payload)] ∧
        counts (.fab .PORT_CNT0_REPLAYS) n t) ∧
      (l.resendAt = none → (controlDue s l0).isSome = true ∨ sendData r.1 r.2 = none → idles) ∧
      (∀ cls m o q, l.resendAt = none → controlDue s l0 = none → l.replay.length < 512 → pickClass r.1 r.2 = some (cls, m) →
        takeFlit m.outq cls = some (o, q) → Gives (.flitSendSlot h port) s fun t => (linkOf t h n).txSeq = seqNext l.txSeq ∧
          (linkOf t h n).outq = q ∧ ∃ f, (linkOf t h n).replay = l.replay ++ [f] ∧ f.seq = l.txSeq ∧ f.flags = dataFlags o)) ∧
    (let alone : Prop := portSt s h n = 4 ∨ (portSt s h n = 1 ∧ l.trainStep = 4)
     (alone → idles) ∧ (¬ alone → ¬(opened ∧ l.relock = false) → Sets (.flitSendSlot h port) s [])) ∧
    (∀ bytes how,
      let k : Instr := .flitReceive h port bytes how
      let s0 := noteCodeword s l how
      let other : Prop := how.fec ≠ .uncorrectable ∧ how.control / 65536 ≠ 0
      let flags := fieldAt bytes 1 1
      let cls := flags / 32
      let body := (bytes.drop 16).take (min 296 (fieldAt bytes 0xA 2))
      let good : Prop := opened ∧ l.relock = false ∧ ¬ other ∧ flitGood bytes how = true
      let next : Prop := good ∧ fieldAt bytes 0 1 = 1 ∧ l.degrading = false ∧ fieldAt bytes 2 2 % 4096 = seqNext l.rxAck
      let heard : Prop := (portLive s h n = true ∨ (portSt s h n = 1 ∧ l.trainStep = 4)) ∧ l.relock = false
      (¬ heard → Sets k s []) ∧
      (heard → other → Gives k s fun t => t = s0) ∧
      (heard → ¬ other → flitGood bytes how = false → Gives k s fun t => (linkOf t h n).nak = portOpen s h n ∧
        counts (.fab .PORT_CNT0_CRC_ERR) n t ∧ t.arrived = s.arrived) ∧
      (heard → ¬ opened → ¬ other → flitGood bytes how = true → Gives k s fun t => t = s0) ∧
      (good → fieldAt bytes 0 1 ≠ 1 ∨ l.degrading = true → Gives k s fun t =>
        t.arrived = s.arrived ∧ (linkOf t h n).rxAck = l.rxAck) ∧
      (good → fieldAt bytes 0 1 = 1 → l.degrading = false → fieldAt bytes 2 2 % 4096 ≠ seqNext l.rxAck → Gives k s fun t =>
        t.arrived = s.arrived ∧ (linkOf t h n).rxAck = l.rxAck ∧ (linkOf t h n).nak = true) ∧
      (next → Gives k s fun t => (linkOf t h n).rxAck = seqNext l.rxAck) ∧
      (next → how.eccBad = false → flags.testBit 2 = false → flags.testBit 4 = true → openRx s h n cls = none → Gives k s fun t =>
        ∃ e, t.arrived = s.arrived ++ [e] ∧ e.half = h ∧ e.port = n ∧ e.cls = cls ∧ e.bytes = body ∧ e.whole = flags.testBit 3 ∧
          e.out = none) ∧
      (∀ e, next → how.eccBad = false → flags.testBit 4 = false → openRx s h n cls = some e → e.out = none →
        (flags.testBit 2 = false → Gives k s fun t => t.arrived = replaceRx s.arrived e
          (some { e with bytes := e.bytes ++ body, flits := e.flits + 1, whole := flags.testBit 3 })) ∧
        (flags.testBit 2 = true → Gives k s fun t => counts (.fab .FAB_DROP) 5 t))) ∧
    (s.arrived.find? (fun e => e.half == h && e.out == none) = none → Sets (.packetRoute h) s []) ∧
    (∀ e, s.arrived.find? (fun e => e.half == h && e.out == none) = some e →
      let p := e.packet
      let ok : Prop := ¬ bad p ∧ p.dst / 2048 = h.num ∧ vcOf p.ptype = some (e.cls / 2)
      let left (o : RxOut) : List RxPkt :=
        replaceRx s.arrived e (if e.whole = true then none else some { e with out := some o, flits := 0 })
      let drops (k : Nat) : Prop := Gives (.packetRoute h) s fun t => counts (.fab .FAB_DROP) k t ∧ t.arrived = left .sink
      (bad p → drops 0) ∧ (¬ bad p → p.dst / 2048 ≠ h.num → drops 1) ∧
      (¬ bad p → p.dst / 2048 = h.num → vcOf p.ptype ≠ some (e.cls / 2) → drops 6) ∧
      (∀ k, ok → routePacket s h p = .drop k → drops k) ∧
      (ok → routePacket s h p = .here → Gives (.packetRoute h) s fun t => t.arrived = left .here ∧
        t.localPkts = if e.whole = true then s.localPkts ++ [(h, p)] else s.localPkts) ∧
      (∀ k q, ok → routePacket s h p = .port k q → Gives (.packetRoute h) s fun t => t.arrived = left (.port k) ∧
        ∃ o ∈ (linkOf t h k).outq, o.bytes = forwardBytes q e.bytes ∧ o.whole = e.whole)) ∧
    (∀ dst ty tr pay, 4096 < pay.length ∨ vcOf ty = none → Sets (.packetInject h dst ty tr pay) s []) ∧
    (∀ dst ty tr pay, pay.length ≤ 4096 → (vcOf ty).isSome = true →
      let p := newPacket s h (dst % 4096) ty tr pay
      (bad p → Sets (.packetInject h dst ty tr pay) s
        [cell (.fab .FAB_DROP) h 0 (min (s.rd (.fab .FAB_DROP) h 0 + 1) (2 ^ 32 - 1))]) ∧
      (¬ bad p → p.dst / 2048 ≠ h.num → Sets (.packetInject h dst ty tr pay) s
        [cell (.fab .FAB_DROP) h 1 (min (s.rd (.fab .FAB_DROP) h 1 + 1) (2 ^ 32 - 1))]) ∧
      (¬ bad p → p.dst / 2048 = h.num →
        (∀ k, routePacket s h p = .drop k → Sets (.packetInject h dst ty tr pay) s
          [cell (.fab .FAB_DROP) h k (min (s.rd (.fab .FAB_DROP) h k + 1) (2 ^ 32 - 1))]) ∧
        (routePacket s h p = .here → Gives (.packetInject h dst ty tr pay) s fun t => t = { s with localPkts := s.localPkts ++ [(h, p)] }) ∧
        (∀ k q, routePacket s h p = .port k q → Gives (.packetInject h dst ty tr pay) s fun t => queued t k q ∧ t.regs = s.regs))) ∧
    (∀ (write : Bool) p s1, takeTime s h (if write then 0x11 else 0x10) = some (p, s1) →
      let ans (value status : Nat) : Packet :=
        newPacket s h p.src 0x12 ((p.transport ++ zeros 8).take 8 ++ leBytes 8 value ++ leBytes 2 status) []
      let sends (value status : Nat) : Prop := ∀ k q, ¬ bad (ans value status) → p.src / 2048 = h.num →
        routePacket s h (ans value status) = .port k q → Gives (if write then .mgmtWrite h else .mgmtRead h) s fun t => queued t k q
      (mgmtAllowed s h p write = false → sends 0 ST_FAB_REMOTE) ∧
      (mgmtAllowed s h p write = true → write = false → sends (read8 s1 h pf (0xA00000 + fieldAt p.transport 4 4)) ST_OK) ∧
      (mgmtAllowed s h p write = true → write = true → fieldAt p.transport 4 4 = 0x40 → Gives (.mgmtWrite h) s fun t =>
        t.rd (.fab .RT_SEL_BANK) h 0 = fieldAt p.transport 8 8 % 2) ∧
      (∀ u, mgmtAllowed s h p write = true → write = true →
        write8 s1 h pf (0xA00000 + fieldAt p.transport 4 4) (fieldAt p.transport 8 8) = .next u → Gives (.mgmtWrite h) s fun t =>
          t = mgmtAnswer u h p 0 (mgmtOutcome s1 h (fieldAt p.transport 4 4) (fieldAt p.transport 8 8)))) ∧
    (takeTime s h 0x10 = none → Sets (.mgmtRead h) s []) ∧ (takeTime s h 0x11 = none → Sets (.mgmtWrite h) s []) ∧
    (s.localPkts.find? (fun a => a.1 == h && a.2.ptype == 0x13) = none → Sets (.portEventReceive h) s []) ∧
    (∀ (k : Fin 4) lo hi, locked s h = true → Sets (.fabBufWrite h k lo hi) s []) ∧
    (∀ a, s.localPkts.find? (fun a => a.1 == h && a.2.ptype == 0x13) = some a → Gives (.portEventReceive h) s fun t =>
      t.localPkts = s.localPkts.eraseP fun b => b.1 == h && b.2.ptype == 0x13) ∧
    (∀ v, (portsQuiet s h = false → ∀ reg, Sets (.fabTopologyWrite h reg v) s [last ST_FAB_BUSY]) ∧
      (portsQuiet s h = true → (∃ k < 6, bitsAt v (3 * k) 3 = 7) → Sets (.fabTopologyWrite h 2 v) s [last ST_FAB_CONFIG]) ∧
      (portsQuiet s h = true → ∀ reg : Fin 3, (∀ k < 6, bitsAt v (3 * k) 3 ≠ 7) ∨ reg.val ≠ 2 →
        Gives (.fabTopologyWrite h reg v) s fun t => t.rd (.fab .FAB_STATUS_CFG_OK) h 0 = bit (cfgOk t h) ∧
          t.rd (.fab .FAB_STATUS_LAST_STATUS) h 0 = ST_OK ∧ SameMem s t ∧
          (reg = 0 → myNode t h = h.num * 2048 + bitsAt v 0 11) ∧
          (reg = 1 → torusSize t h 0 = bitsAt v 10 5 ∧ torusSize t h 1 = bitsAt v 5 5 ∧ torusSize t h 2 = bitsAt v 0 4) ∧
          (reg = 2 → ∀ k < 6, portDir t h k = bitsAt v (3 * k) 3))) ∧
    (∀ (k : Fin 4) lo hi, locked s h = false →
      let least := if 2 ≤ k.val then 16 else 4
      let others := (((List.range 4).filter fun j => j ≠ k.val).map fun j => s.rd (.fab .FAB_BUF_LO) h j + s.rd (.fab .FAB_BUF_HI) h j).sum
      let ok : Prop := portsQuiet s h = true ∧ least ≤ lo ∧ least ≤ hi ∧ others + lo + hi ≤ 1536
      (¬ ok → Sets (.fabBufWrite h k lo hi) s [last ST_FAB_CONFIG]) ∧
      (ok → Sets (.fabBufWrite h k lo hi) s [last ST_OK, cell (.fab .FAB_BUF_LO) h k.val lo, cell (.fab .FAB_BUF_HI) h k.val hi])) ∧
    (∀ v, Sets (.rtSelWrite h v) s [last ST_OK, cell (.fab .RT_SEL_BANK) h 0 (v % 2)]) ∧
    (∀ (bank : Fin 2) (d : Fin 3) v,
      let threes : Prop := ∃ c < (if d.val = 2 then 8 else 16), bitsAt v (2 * c) 2 = 3
      (s.rd (.fab .RT_SEL_BANK) h 0 = bank.val → Sets (.routeTableWrite h bank d v) s [last ST_FAB_BUSY]) ∧
      (s.rd (.fab .RT_SEL_BANK) h 0 ≠ bank.val → threes → Sets (.routeTableWrite h bank d v) s [last ST_FAB_CONFIG]) ∧
      (s.rd (.fab .RT_SEL_BANK) h 0 ≠ bank.val → ¬ threes → Sets (.routeTableWrite h bank d v) s [last ST_OK,
        cell (.fab .RT) h (bank.val * 3 + d.val) (if d.val = 2 then v % 65536 else v % 2 ^ 32)])) ∧
    (Gives (.autoRt h) s fun t => Touches s t [.fab .RT, .fab .FAB_STATUS_LAST_STATUS] ∧ t.rd (.fab .FAB_STATUS_LAST_STATUS) h 0 = ST_OK ∧
      ∀ d < 3, t.rd (.fab .RT) h ((1 - s.rd (.fab .RT_SEL_BANK) h 0) * 3 + d) =
        shortestTable (coord (myNode s h) d) (torusSize s h d) % 2 ^ 32)

/-! ### Time (§14) -/

/-- The time base. An accepted measurement e leaves FT_OFFSET within 1 ns of e and the time of the measurement; FT_WRITE gives one, and
moves FT to the value at once where e reaches STEP_THR and STEP_EN is set. TIME_CTL is written whole, or refused; a change of the source
enters HOLDOVER, or FREE with SEL = 0. MT_RATE moves on both halves, by at most 1,000 ppb. Beacons, delay requests and their answers go to
the neighbour, and what they bring is kept. A PPS edge is captured on both halves, or ignored within 500 ms. PTP by R460 (its message
rules are the model's reading of IEEE 1588, log entry 35). What is not due, or has no message to take, changes nothing. -/
def Obligations.TimeBase : Prop :=
  ∀ (h : Half) (v : Nat) (s : State),
    let last (st : Nat) : CellVal := cell (.tim .TIME_STATUS_LAST_STATUS) h 0 st
    let sel := s.rd (.tim .TIME_CTL_SEL) h 0
    let awake : Prop := s.lowland h = false
    let near (e : Int) (x : Nat) : Prop := ∃ r : Int, (r * 65536 - e).natAbs < 65536 ∧ x = unsignedOf 64 r
    let measured (k : Half) (e : Int) (t : State) : Prop :=
      near e (t.rd (.tim .FT_OFFSET) k 0) ∧ t.rd (.tim .LAST_MEAS) k 0 = (s.mt k + 1) % 2 ^ 64
    let sent (n ptype : Nat) (t : State) : Prop := ∃ o ∈ (linkOf t h n).outq, fieldAt o.bytes 4 1 = ptype
    let toward (n : Nat) : Prop := portOpen s h n = true ∧ portDir s h n ≠ 0
    (Inv s → Sets (.timeSnap h) s [last ST_OK, cell (.tim .SNAP_MT_T) h 0 (s.mt h), cell (.tim .SNAP_FT) h 0 (s.rd (.tim .FT) h 0),
      cell (.tim .SNAP_FRAC) h 0 (s.rd (.tim .FT_FRAC) h 0)]) ∧
    (sel ≠ 0 → Sets (.ftWrite h v) s [last ST_TIME_CONFIG]) ∧
    (sel = 0 → awake →
      let e : Int := ((v % 2 ^ 64 * 65536 : Nat) : Int) - (ftFine s h : Int)
      let far : Prop := s.rd (.tim .TIME_THR_STEP_THR) h 0 * 65536000 ≤ e.natAbs
      Gives (.ftWrite h v) s fun t => measured h e t ∧ t.rd (.tim .TIME_STATUS_LAST_STATUS) h 0 = ST_OK ∧
        (far → s.rd (.tim .TIME_CTL_STEP_EN) h 0 = 1 → (∀ c, s.rd (.tim .CMP_STATUS_ARMED) h c = 0) →
          ftFine t h = v % 2 ^ 64 * 65536 ∧ t.rd (.tim .STEP_CNT) h 0 = min (s.rd (.tim .STEP_CNT) h 0 + 1) (2 ^ 32 - 1)) ∧
        (far → s.rd (.tim .TIME_CTL_STEP_EN) h 0 ≠ 1 →
          t.rd (.tim .FT_RATE) h 0 = unsignedOf 32 (if e < 0 then -500000 else 500000) ∧ ftFine t h = ftFine s h)) ∧
    (4 < bitsAt v 8 3 ∨ 5 < bitsAt v 12 4 → Sets (.timeCtlWrite h v) s [last ST_TIME_CONFIG]) ∧
    (bitsAt v 8 3 ≤ 4 → bitsAt v 12 4 ≤ 5 → Gives (.timeCtlWrite h v) s fun t => t.rd (.tim .TIME_CTL_SEL) h 0 = bitsAt v 8 3 ∧
      t.rd (.tim .TIME_CTL_SRC_PORT) h 0 = bitsAt v 12 4 ∧ t.rd (.tim .TIME_CTL_BCN_TX) h 0 = bitsAt v 2 6 ∧
      t.rd (.tim .TIME_CTL_DREQ_EN) h 0 = bitsAt v 16 1 ∧ t.rd (.tim .TIME_CTL_STEP_EN) h 0 = bitsAt v 1 1 ∧
      t.rd (.tim .TIME_CTL_MT_DISC) h 0 = bitsAt v 0 1 ∧ t.rd (.tim .TIME_STATUS_LAST_STATUS) h 0 = ST_OK ∧ SameMem s t ∧
      (bitsAt v 8 3 ≠ sel → awake → t.rd (.tim .TIME_STATUS_STATE) h 0 = if bitsAt v 8 3 = 0 then 0 else 3) ∧
      (bitsAt v 8 3 = sel → bitsAt v 12 4 = s.rd (.tim .TIME_CTL_SRC_PORT) h 0 →
        t.rd (.tim .TIME_STATUS_STATE) h 0 = s.rd (.tim .TIME_STATUS_STATE) h 0)) ∧
    (
      let both (rate : Int) : Prop := Sets (.mtRateAdjust h) s
        [cell (.tim .MT_RATE) .h0 0 (unsignedOf 32 rate), cell (.tim .MT_RATE) .h1 0 (unsignedOf 32 rate)]
      let now := signedOf 32 (s.rd (.tim .MT_RATE) h 0)
      let goal := clampInt (-100000) 100000 (signedOf 32 (s.rd (.tim .FT_INTEG) h 0))
      let moves : Prop := s.holds h = true ∧ s.peerReachable h = true ∧ ∀ k, s.rd (.pkg .PASS_STATUS_STATE) k 0 < 3
      let free : Prop := s.rd (.tim .TIME_CTL_MT_DISC) h 0 = 0
      (¬ moves ∨ (¬ free ∧ s.rd (.tim .TIME_STATUS_STATE) h 0 ≠ 2) → Sets (.mtRateAdjust h) s []) ∧
      (moves → free → both 0) ∧
      (moves → ¬ free → s.rd (.tim .TIME_STATUS_STATE) h 0 = 2 → both (now + clampInt (-1000) 1000 (goal - now)))) ∧
    (let due : Prop := (sel ≠ 0 ∨ s.rd (.tim .TIME_STATUS_STATE) h 0 ≠ 0) ∧
      s.rd (.tim .LAST_MEAS) h 0 + s.rd (.tim .TIME_INT_SRC_TMO) h 0 * 1000000 ≤ s.mt h + 1
     (¬ due → Sets (.ftSourceTimeout h) s []) ∧
      (due → Inv s → Gives (.ftSourceTimeout h) s fun t => t.rd (.tim .TIME_STATUS_STATE) h 0 = 3 ∧
        t.rd (.tim .FT_RATE) h 0 = s.rd (.tim .FT_INTEG) h 0 ∧ t.rd (.tim .LOCK_RUN) h 0 = 0 ∧ SameMem s t)) ∧
    (sel ≠ 3 ∨ s.lanesUp = false → Sets (.passTimeTransfer h) s []) ∧
    (sel = 3 → s.lanesUp = true → awake → Gives (.passTimeTransfer h) s fun t =>
      measured h ((ftFine s h.other : Int) - (ftFine s h : Int)) t) ∧
    (Inv s → Gives .ppsInEdge s fun t => ∀ k,
      let before := s.rd (.tim .PPS_LAST) k 0
      (before ≠ 0 → s.mt k + 1 < before + 500000000 →
        t.rd (.tim .PPS_IGN) k 0 = min (s.rd (.tim .PPS_IGN) k 0 + 1) (2 ^ 32 - 1) ∧
        t.rd (.tim .PPS_IN_MT) k 0 = s.rd (.tim .PPS_IN_MT) k 0) ∧
      (before = 0 ∨ before + 500000000 ≤ s.mt k + 1 →
        t.rd (.tim .PPS_IN_MT) k 0 = s.mt k ∧ t.rd (.tim .PPS_IN_FT) k 0 = s.rd (.tim .FT) k 0)) ∧
    ((∀ n < 6, (s.rd (.tim .TIME_CTL_BCN_TX) h 0).testBit n = false ∨ portOpen s h n = false) → Sets (.beaconSend h) s []) ∧
    (s.rd (.tim .TIME_CTL_DREQ_EN) h 0 ≠ 1 ∨ (∀ n < 6, portOpen s h n = false) → Sets (.delayReqSend h) s []) ∧
    (∀ k ∈ [(Instr.beaconReceive h, 0x20), (.delayReqReceive h, 0x21), (.delayRespReceive h, 0x22)],
      takeTime s h k.2 = none → Sets k.1 s []) ∧
    (∀ p s1, takeTime s h 0x21 = some (p, s1) → ¬ toward p.port → Gives (.delayReqReceive h) s fun t => t = s1) ∧
    (∀ n : Fin 6, (s.rd (.tim .TIME_CTL_BCN_TX) h 0).testBit n.val = true → toward n.val → Gives (.beaconSend h) s fun t =>
      t.rd (.tim .BCN_SEQ) h n.val = (s.rd (.tim .BCN_SEQ) h n.val + 1) % 2 ^ 16 ∧ sent n.val 0x20 t) ∧
    (∀ n : Fin 6, s.rd (.tim .TIME_CTL_DREQ_EN) h 0 = 1 → toward n.val → Gives (.delayReqSend h) s fun t =>
      t.rd (.tim .DREQ_SEQ) h n.val = (s.rd (.tim .DREQ_SEQ) h n.val + 1) % 2 ^ 16 ∧ t.rd (.tim .DREQ_T1) h n.val = 0 ∧ sent n.val 0x21 t) ∧
    (∀ p s1, takeTime s h 0x20 = some (p, s1) →
      let ok : Prop := sel = 2 ∧ p.port = s.rd (.tim .TIME_CTL_SRC_PORT) h 0 ∧ (fieldAt p.transport 3 1).testBit 0 = true ∧
        s.rd (.tim .DELAY_CNT) h p.port ≠ 0 ∧ awake
      (¬ ok → Gives (.beaconReceive h) s fun t => t = s1) ∧
      (ok → Gives (.beaconReceive h) s fun t => t.rd (.tim .BCN_GM) h 0 = fieldAt p.transport 4 2 % 2 ^ 12 ∧
        t.rd (.tim .BCN_HOPS) h 0 = fieldAt p.transport 2 1 ∧ measured h (((fieldAt p.transport 8 8 * 65536 + fieldAt p.transport 6 2 +
          s.rd (.tim .LINK_DELAY) h p.port : Nat) : Int) - (p.stampFt : Int)) t)) ∧
    (∀ p s1, takeTime s h 0x21 = some (p, s1) → toward p.port → Gives (.delayReqReceive h) s fun t => sent p.port 0x22 t ∧
      t.localPkts = s1.localPkts) ∧
    (∀ p s1, takeTime s h 0x22 = some (p, s1) →
      let n := p.port
      let t1 := s.rd (.tim .DREQ_T1) h n
      let mine : Prop := t1 ≠ 0 ∧ fieldAt p.transport 0 2 = (s.rd (.tim .DREQ_SEQ) h n + 65535) % 65536
      let twice : Int := ((p.stampMt : Int) - ((t1 : Int) - 1)) - ((fieldAt p.transport 16 8 : Int) - (fieldAt p.transport 8 8 : Int))
      (¬ mine → Gives (.delayRespReceive h) s fun t => t = s1) ∧
      (mine → Gives (.delayRespReceive h) s fun t => t.rd (.tim .DREQ_T1) h n = 0 ∧
        t.rd (.tim .DELAY_CNT) h n = (if 15 ≤ s.rd (.tim .DELAY_CNT) h n then 8 else s.rd (.tim .DELAY_CNT) h n + 1) ∧
        (0 ≤ twice → twice * 32768 < 2 ^ 32 →
          t.rd (.tim .DELAY_SMP) h (8 * n + s.rd (.tim .DELAY_CNT) h n % 8) = (twice * 32768).toNat ∧
          (s.rd (.tim .DELAY_CNT) h n = 0 → t.rd (.tim .LINK_DELAY) h n = (twice * 32768).toNat)))) ∧
    (∀ domain src dataset logInt, ptpTakes s h domain = false → Sets (.ptpAnnounceReceive h domain src dataset logInt) s []) ∧
    (∀ domain src dataset logInt, ptpTakes s h domain = true → (∀ m ∈ s.ptp, m.half = h → m.src ≠ src) →
      8 ≤ (s.ptp.filter fun m => m.half == h).length →
      Gives (.ptpAnnounceReceive h domain src dataset logInt) s fun t => t = ptpSelect s h) ∧
    (∀ domain src dataset logInt, ptpTakes s h domain = true →
      (∃ m ∈ s.ptp, m.half = h ∧ m.src = src) ∨ (s.ptp.filter fun m => m.half == h).length < 8 →
      Gives (.ptpAnnounceReceive h domain src dataset logInt) s fun t =>
        (∃ m ∈ t.ptp, m.half = h ∧ m.src = src ∧ m.dataset = dataset ∧ m.lastMt = s.mt h) ∧
        (bestMaster t h = none → t.rd (.tim .PTP_STATUS_PORT_STATE) h 0 = 1) ∧
        (bestMaster t h ≠ none → 2 ≤ t.rd (.tim .PTP_STATUS_PORT_STATE) h 0)) ∧
    (∀ domain src seq origin corr,
      let s0 := if ptpTakes s h domain then ptpSelect s h else s
      (fromParent s0 h domain src = false → ∀ two, Gives (.ptpSyncReceive h domain src seq two origin corr) s fun t => t = s0) ∧
      (fromParent s0 h domain src = true →
        (Gives (.ptpSyncReceive h domain src seq true origin corr) s fun t => t.rd (.tim .PTP_SYNC_V) h 0 = 1 ∧
          t.rd (.tim .PTP_SYNC_SEQ) h 0 = seq % 2 ^ 16 ∧ t.rd (.tim .PTP_SYNC_T2) h 0 = ftFine s h % 2 ^ 96) ∧
        (awake → Gives (.ptpSyncReceive h domain src seq false origin corr) s fun t =>
          measured h (origin * 65536 + corr + signedOf 96 (s0.rd (.tim .PTP_PD) h 0) - (ftFine s h : Int)) t))) ∧
    (∀ domain src seq origin corr,
      (fromParent s h domain src = false ∨ s.rd (.tim .PTP_SYNC_V) h 0 ≠ 1 ∨ s.rd (.tim .PTP_SYNC_SEQ) h 0 ≠ seq % 65536 →
        Sets (.ptpFollowUpReceive h domain src seq origin corr) s []) ∧
      (∀ mine, fromParent s h domain src = false ∨ mine = false ∨ s.rd (.tim .PTP_DREQ_V) h 0 ≠ 1 ∨
          s.rd (.tim .PTP_DREQ_SEQ) h 0 ≠ seq % 65536 → Sets (.ptpDelayRespReceive h domain src seq mine origin corr) s [])) ∧
    (∀ domain src seq origin corr, fromParent s h domain src = true →
      (s.rd (.tim .PTP_SYNC_V) h 0 = 1 → s.rd (.tim .PTP_SYNC_SEQ) h 0 = seq % 65536 → awake →
        Gives (.ptpFollowUpReceive h domain src seq origin corr) s fun t => t.rd (.tim .PTP_SYNC_V) h 0 = 0 ∧
          measured h (origin * 65536 + corr + signedOf 64 (s.rd (.tim .PTP_SYNC_CORR) h 0) + signedOf 96 (s.rd (.tim .PTP_PD) h 0) -
            (s.rd (.tim .PTP_SYNC_T2) h 0 : Int)) t) ∧
      (s.rd (.tim .PTP_DREQ_V) h 0 = 1 → s.rd (.tim .PTP_DREQ_SEQ) h 0 = seq % 65536 →
        let sum := signedOf 96 (s.rd (.tim .PTP_MS) h 0) + (origin * 65536 - corr - (s.rd (.tim .PTP_DREQ_T3) h 0 : Int))
        Gives (.ptpDelayRespReceive h domain src seq true origin corr) s fun t => t.rd (.tim .PTP_PD_V) h 0 = 1 ∧
          t.rd (.tim .PTP_DREQ_V) h 0 = 0 ∧ ∃ r : Int, (2 * r - sum).natAbs < 2 ∧ t.rd (.tim .PTP_PD) h 0 = unsignedOf 96 r)) ∧
    (ptpOn s h = false ∨ s.rd (.tim .PTP_STATUS_PORT_STATE) h 0 < 2 ∨ s.rd (.egr .EGR_STATUS_LINK_UP) h 0 ≠ 1 →
      Sets (.ptpDelayReqSend h) s []) ∧
    (ptpOn s h = true → 2 ≤ s.rd (.tim .PTP_STATUS_PORT_STATE) h 0 → s.rd (.egr .EGR_STATUS_LINK_UP) h 0 = 1 →
      let seq := (s.rd (.tim .PTP_DREQ_SEQ) h 0 + 1) % 65536
      let g := ptpGroup (ptpNet s h).transport
      Gives (.ptpDelayReqSend h) s fun t => t.out = s.out ++ [.ptpDelayReq h seq (ptpNet s h) g.1 g.2] ∧
        t.rd (.tim .PTP_DREQ_SEQ) h 0 = seq ∧
        Touches s t [.tim .PTP_DREQ_SEQ, .tim .PTP_DREQ_V, .tim .PTP_DREQ_T3])

/-- Event comparators. A comparator that fires moves on by its period, or is unarmed; its holder's action happens: a list's entries of
that release time become eligible, a scheduled action's counter moves. A claim on a comparator that another holds is a conflict.
CMP_ENABLE, PPS_OUT_ENABLE and TIME_REL_CTL change only what is disabled, and claim, arm or release the comparator. -/
def Obligations.TimeComparators : Prop :=
  ∀ (h : Half) (c : Fin 16) (v : Nat) (s : State),
    let last (st : Nat) : CellVal := cell (.tim .TIME_STATUS_LAST_STATUS) h 0 st
    let holder (k : Nat) := s.rd (.tim .CMP_STATUS_HOLDER) h k
    let target := s.rd (.tim .CMP_TARGET) h c.val
    let due : Prop := s.rd (.tim .CMP_STATUS_ARMED) h c.val = 1 ∧ target ≤ clockOf s h (cmpOnMt s h c.val)
    let waits (mt : Bool) (x : Chain) : Prop :=
      x.half = h ∧ x.stage = .timed ∧ x.done = false ∧ x.release.map (·.onMt) = some mt ∧ x.releaseAt = target
    (¬ due → Sets (.comparatorFire h c) s []) ∧
    (due →
      (holder c.val ≠ 1 → holder c.val ≠ 2 → holder c.val ≠ 6 ∨ s.rd (.tim .CMP_CTL_ACT) h c.val = 0 →
        Gives (.comparatorFire h c) s fun t => t.rd (.tim .CMP_STATUS_LAST) h c.val = ST_OK ∧ t.chains = s.chains ∧
          (cmpPeriod s h c.val = 0 → t.rd (.tim .CMP_STATUS_ARMED) h c.val = 0) ∧
          (cmpPeriod s h c.val ≠ 0 → t.rd (.tim .CMP_STATUS_ARMED) h c.val = 1 ∧
            t.rd (.tim .CMP_TARGET) h c.val = (target + cmpPeriod s h c.val) % 2 ^ 64)) ∧
      (holder c.val = 6 → s.rd (.tim .CMP_CTL_ACT) h c.val = 1 → Gives (.comparatorFire h c) s fun t =>
        let n := s.rd (.tim .CMP_CTL_COUNTER) h c.val
        t.rd (.desc .EVC_VAL) h n = (s.rd (.desc .EVC_VAL) h n + s.rd (.tim .CMP_VALUE) h c.val) % 2 ^ 32) ∧
      (∀ mt : Bool, holder c.val = 1 + bit mt → Gives (.comparatorFire h c) s fun t =>
        (∀ x ∈ t.chains, ¬ waits mt x) ∧ (∀ x ∈ s.chains, waits mt x → { x with stage := .eligible } ∈ t.chains) ∧ SameMem s t)) ∧
    (let w := 2 ^ 31 + v % 2 ^ 31;
      let fields := [cell (.tim .CMP_CTL_CLOCK) h c.val (bitsAt v 30 1), cell (.tim .CMP_CTL_DROP_IF_LATE) h c.val (bitsAt v 29 1),
        cell (.tim .CMP_CTL_ACT) h c.val (bitsAt v 28 1), cell (.tim .CMP_CTL_COUNTER) h c.val (bitsAt v 0 12)];
      let clock := clockOf s h (bitsAt v 30 1 == 1);
      (s.rd (.tim .CMP_CTL_EN) h c.val = 1 → Sets (.cmpEnable h c v) s
        [last (if cmpCtlDiffers s h c.val w = true then ST_TIME_CONFIG else ST_OK)]) ∧
      (s.rd (.tim .CMP_CTL_EN) h c.val = 0 → Inv s →
        (holder c.val ≠ 0 → Sets (.cmpEnable h c v) s ([last ST_CONFLICT, cell (.tim .CMP_CLAIM_STATUS_LAST_STATUS) h 0 ST_CONFLICT,
          cell (.tim .CMP_CLAIM_STATUS_INDEX) h 0 c.val, cell (.tim .CMP_CLAIM_STATUS_HOLDER) h 0 (holder c.val),
          cell (.tim .CMP_CLAIM_STATUS_REQUESTER) h 0 6] ++ fields)) ∧
        (holder c.val = 0 → clock < target → Sets (.cmpEnable h c v) s ([last ST_OK, cell (.tim .CMP_CTL_EN) h c.val 1,
          cell (.tim .CMP_STATUS_HOLDER) h c.val 6, cell (.tim .CMP_STATUS_ARMED) h c.val 1,
          cell (.tim .CMP_CLAIM_STATUS_LAST_STATUS) h 0 ST_OK, cell (.tim .CMP_CLAIM_STATUS_INDEX) h 0 c.val,
          cell (.tim .CMP_CLAIM_STATUS_HOLDER) h 0 0, cell (.tim .CMP_CLAIM_STATUS_REQUESTER) h 0 0] ++ fields)) ∧
        (holder c.val = 0 → target ≤ clock → bitsAt v 28 1 = 0 → s.rd (.tim .CMP_PERIOD) h c.val = 0 →
          Gives (.cmpEnable h c v) s fun t => t.rd (.tim .CMP_CTL_EN) h c.val = 1 ∧ t.rd (.tim .CMP_STATUS_HOLDER) h c.val = 6 ∧
            t.rd (.tim .CMP_STATUS_ARMED) h c.val = 0 ∧ t.rd (.tim .CMP_STATUS_LAST) h c.val =
              lateStatus (bitsAt v 29 1 == 1) (s.rd (.tim .CMP_LATE_TOL) h c.val) (clock - target)))) ∧
    (let k := bitsAt v 20 4;
      let good : Prop := bitsAt v 0 20 ≠ 0 ∧ bitsAt v 0 20 ≤ 500000;
      let differs := ppsDiffers s h (2 ^ 31 + v % 2 ^ 31);
      let stays (st : Nat) : Prop := Gives (.ppsOutEnable h v) s fun t => t.rd (.tim .PPS_OUT_CFG_EN) h 0 = 0 ∧
        t.rd (.tim .TIME_STATUS_LAST_STATUS) h 0 = st ∧ t.rd (.thm .AUX_OWNER_PWM3) h 0 = s.rd (.thm .AUX_OWNER_PWM3) h 0 ∧
        ∀ j, t.rd (.tim .CMP_STATUS_HOLDER) h j = holder j ∧ t.rd (.tim .CMP_STATUS_ARMED) h j = s.rd (.tim .CMP_STATUS_ARMED) h j;
      (¬ good → Sets (.ppsOutEnable h v) s [last ST_TIME_CONFIG]) ∧
      (good → s.rd (.tim .PPS_OUT_CFG_EN) h 0 = 1 →
        Sets (.ppsOutEnable h v) s [last (if differs = true then ST_TIME_CONFIG else ST_OK)]) ∧
      (good → s.rd (.tim .PPS_OUT_CFG_EN) h 0 = 0 →
        (s.holds h = false → stays ST_AUX_NO_ROLE) ∧
        (s.holds h = true → s.rd (.thm .AUX_OWNER_PWM3) h 0 ≠ 0 → stays ST_CONFLICT) ∧
        (s.holds h = true → s.rd (.thm .AUX_OWNER_PWM3) h 0 = 0 → holder k ≠ 0 → stays ST_CONFLICT) ∧
        (s.holds h = true → s.rd (.thm .AUX_OWNER_PWM3) h 0 = 0 → holder k = 0 → Gives (.ppsOutEnable h v) s fun t =>
          t.rd (.tim .PPS_OUT_CFG_EN) h 0 = 1 ∧ t.rd (.tim .TIME_STATUS_LAST_STATUS) h 0 = ST_OK ∧
          t.rd (.thm .AUX_OWNER_PWM3) h 0 = 4 ∧ t.rd (.tim .CMP_STATUS_HOLDER) h k = 5 ∧ t.rd (.tim .CMP_STATUS_ARMED) h k = 1 ∧
          t.rd (.tim .CMP_TARGET) h k = ppsNext s h (clockOf s h (bitsAt v 30 1 == 1)) % 2 ^ 64 ∧ SameMem s t ∧
          t.chains = s.chains))) ∧
    (let indexBusy (mt : Bool) : Prop := s.rd (listEn mt) h 0 = 1 ∧ bitsAt v (if mt then 12 else 4) 4 ≠ listCmp s h mt;
      (indexBusy false ∨ indexBusy true → Sets (.timeRelCtlWrite h v) s [last ST_TIME_CONFIG]) ∧
      (¬ indexBusy false → ¬ indexBusy true → ∀ mt : Bool,
        let k := bitsAt v (if mt then 12 else 4) 4
        let on := v.testBit (if mt then 8 else 0)
        v.testBit (if mt then 0 else 8) = (s.rd (listEn !mt) h 0 == 1) → Gives (.timeRelCtlWrite h v) s fun t =>
          listCmp t h mt = k ∧ SameMem s t ∧
          (on = true → s.rd (listEn mt) h 0 = 0 → holder k = 0 → t.rd (listEn mt) h 0 = 1 ∧
            t.rd (.tim .CMP_STATUS_HOLDER) h k = 1 + bit mt ∧
            t.rd (.tim .TIME_STATUS_LAST_STATUS) h 0 = ST_OK ∧ ∀ x ∈ listEntries t h mt, clockOf s h mt < x.releaseAt) ∧
          (on = true → s.rd (listEn mt) h 0 = 0 → holder k ≠ 0 → t.rd (listEn mt) h 0 = 0 ∧
            t.rd (.tim .TIME_STATUS_LAST_STATUS) h 0 = ST_CONFLICT ∧ t.chains = s.chains) ∧
          (on = false → s.rd (listEn mt) h 0 = 1 → t.rd (listEn mt) h 0 = 0 ∧ t.rd (.tim .CMP_STATUS_HOLDER) h k = 0 ∧
            t.rd (.tim .CMP_STATUS_ARMED) h k = 0 ∧ t.chains = s.chains)))

/-! ### Partitions and security (§15) -/

/-- Partitions and egress keys. GO refuses with the status of the first check of Table 15.3 that fails; else the keys are generated, and
the partition is LIVE at once when no peer can hold a copy; a conditional self-test that fails zeroizes both blocks. RELEASE goes through
RELEASING and the scrub to OFF, which the peer acknowledges where it can; its keys go, and its ranges read zero. The configuration changes
only while OFF, a shared range only while none uses it. An import ends with its status, and
its ephemeral key goes with it, as it does by ABORT and 10 s after START. The fuses of ARB rise to the SVN that both hubs run. -/
def Obligations.PartitionsAndImports : Prop :=
  ∀ (h : Half) (p : Fin 64) (v : Nat) (s : State),
    let last (st : Nat) : CellVal := cell (.sec .PART_CTL_LAST_STATUS) h p.val st
    let klast (st : Nat) : CellVal := cell (.sec .KIMP_CTL_LAST_STATUS) h 0 st
    let state := s.rd (.sec .PART_CTL_STATE) h p.val
    let busy := s.rd (.sec .GO_BUSY) h p.val
    let approved : Prop := s.rd (.sec .SEC_STATUS_APPROVED) h 0 ≠ 0
    let auth : Prop := s.rd (.sec .SEC_STATUS_CO_AUTH) h 0 = 1
    let installs (c : Instr) (party : Nat) (key : List Nat) : Prop :=
      (aloneOk s h = true → Gives c s fun t => keyOf t h party .egress = some (leNat (toBytes key)) ∧
        t.rd (.sec .KIMP_CTL_LAST_STATUS) h 0 = ST_OK ∧ t.rd (.sec .SEC_STATUS_SOLO) h 0 = 1) ∧
      (aloneOk s h = false → Gives c s fun t => t.keys = s.keys ∧
        t.mirrors = s.mirrors ++ [⟨h, 1, party, opEntry s h 1 party, [⟨h, party, .egress, leNat (toBytes key)⟩], false, 0, 0, s.mt h, 0⟩])
    let sick (c : Instr) : Prop := Gives c s fun t => t.keys = [] ∧ t.peerKeys = [] ∧
      ∀ k, t.rd (.sec .SECRETS) k 0 = 0 ∧ t.rd (.sec .SEC_STATUS_LAST_CAUSE) k 0 = ST_SELFTEST_FAIL
    (state ≠ 0 ∨ busy = 1 → ∀ x, Sets (.partGo h ⟨p, x⟩) s [last ST_PART_STATE]) ∧
    (state = 0 → busy ≠ 1 →
      (approved → ¬ auth → ∀ x, Sets (.partGo h ⟨p, x⟩) s [last ST_CO_AUTH]) ∧
      (¬ approved ∨ auth →
        let fits : Prop := rangeOk s h p.val .h0 = true ∧ rangeOk s h p.val .h1 = true ∧
          ∀ k < 8, (s.rd (.sec .PART_SHR_MASK) h p.val).testBit k = true → s.rd (.sec .SHR_V) h k ≠ 0
        (s.rd (.host .VF_EXISTS) h p.val = 0 ∨ ¬ fits → ∀ x, Sets (.partGo h ⟨p, x⟩) s [last ST_PART_CONFIG]) ∧
        (s.rd (.host .VF_EXISTS) h p.val ≠ 0 → fits →
          (s.rd (.sec .SECRETS) h 0 = 0 → ∀ x, Sets (.partGo h ⟨p, x⟩) s [last ST_KEY_MISSING]) ∧
          (s.rd (.sec .SECRETS) h 0 ≠ 0 → ∀ x, x ≠ .good → sick (.partGo h ⟨p, x⟩)) ∧
          (s.rd (.sec .SECRETS) h 0 ≠ 0 → aloneOk s h = true → Gives (.partGo h ⟨p, .good⟩) s fun t =>
            t.rd (.sec .PART_CTL_STATE) h p.val = 1 ∧ t.rd (.sec .PART_CTL_LAST_STATUS) h p.val = ST_OK ∧
            t.rd (.sec .SEC_STATUS_SOLO) h 0 = 1 ∧ (keyOf t h p.val .valley).isSome = true ∧
            (keyOf t h (namespaceOf s h p.val) .pfx).isSome = true ∧ SameMem s t) ∧
          (s.rd (.sec .SECRETS) h 0 ≠ 0 → aloneOk s h = false → Gives (.partGo h ⟨p, .good⟩) s fun t =>
            t.rd (.sec .GO_BUSY) h p.val = 1 ∧ t.rd (.sec .PART_CTL_STATE) h p.val = 0 ∧ t.keys = s.keys ∧
            ∃ m, t.mirrors = s.mirrors ++ [m] ∧ m.half = h ∧ m.kind = 0 ∧ m.party = p.val)))) ∧
    (state = 0 → Sets (.partRelease h p) s [last ST_OK]) ∧
    (state = 2 → Sets (.partRelease h p) s [last ST_PART_STATE]) ∧
    (state ≠ 0 → state ≠ 2 →
      (approved → ¬ auth → Sets (.partRelease h p) s [last ST_CO_AUTH]) ∧
      (¬ approved ∨ auth → Gives (.partRelease h p) s fun t => t.rd (.sec .PART_CTL_STATE) h p.val = 2 ∧
        t.rd (.sec .PART_CTL_LAST_STATUS) h p.val = ST_OK ∧
        (∀ r ∈ t.requests, r.half = h → r.fn = p.val → r.closing = true) ∧
        ∀ ring ∈ ringsOf p.val, ringSt t h ring ≠ 1 ∧ ringSt t h ring ≠ 3)) ∧
    (let ended : Prop := state = 2 ∧ s.rd (.sec .REL_SCRUB) h p.val = 0 ∧ releaseDrained s h p.val = true;
      (¬ ended → Sets (.releaseDrained h p) s []) ∧
      (ended → Gives (.releaseDrained h p) s fun t => t.rd (.sec .REL_SCRUB) h p.val = 1 ∧
        (∀ k ∈ t.keys, partKey s h p.val k = false) ∧
        ∀ st a, (partRange s h p.val st).1 * 2 ^ 21 ≤ a →
          a < ((partRange s h p.val st).1 + (partRange s h p.val st).2) * 2 ^ 21 → t.mem.read a = 0)) ∧
    (state = 2 → s.rd (.sec .REL_SCRUB) h p.val = 1 → releaseEnding s h p.val = false →
      (aloneOk s h = true → Gives (.releaseScrubDone h p) s fun t => t.rd (.sec .PART_CTL_STATE) h p.val = 0 ∧
        (t.rd (.sec .SEC_EVT) h 0).testBit 1 = true ∧ t.rd (.sec .SEC_STATUS_SOLO) h 0 = 1 ∧ SameMem s t) ∧
      (aloneOk s h = false → Gives (.releaseScrubDone h p) s fun t => t.regs = s.regs ∧
        ∃ m, t.mirrors = s.mirrors ++ [m] ∧ m.half = h ∧ m.kind = 3 ∧ m.party = p.val ∧ m.entry.fields.head? = some 0)) ∧
    (state ≠ 2 ∨ s.rd (.sec .REL_SCRUB) h p.val ≠ 1 ∨ releaseEnding s h p.val = true → Sets (.releaseScrubDone h p) s []) ∧
    (∀ w : Fin 8,
      (state ≠ 0 ∨ busy = 1 → ∀ reg, Sets (.partConfigWrite h p reg w v) s [last ST_PART_STATE]) ∧
      (state = 0 → busy ≠ 1 →
        Sets (.partConfigWrite h p 0 w v) s [last ST_OK, cell (.sec .PART_HBM0_BASE) h p.val (bitsAt v 32 15),
          cell (.sec .PART_HBM0_SIZE) h p.val (bitsAt v 0 14)] ∧
        Sets (.partConfigWrite h p 1 w v) s [last ST_OK, cell (.sec .PART_HBM1_BASE) h p.val (bitsAt v 32 15),
          cell (.sec .PART_HBM1_SIZE) h p.val (bitsAt v 0 14)] ∧
        Sets (.partConfigWrite h p 2 w v) s [last ST_OK, cell (.sec .PART_SHR_MASK) h p.val (bitsAt v 0 8)] ∧
        Sets (.partConfigWrite h p 3 w v) s [last ST_OK, cell (.sec .PART_CORES) h (8 * p.val + w.val) (v % 2 ^ 64)])) ∧
    (∀ k : Fin 8,
      let used : Prop := ∃ q < 64, s.rd (.sec .PART_CTL_STATE) h q ≠ 0 ∧ (s.rd (.sec .PART_SHR_MASK) h q).testBit k.val = true
      let bad : Prop := bitsAt v 63 1 = 1 ∧ sharedRangeOk s (bitsAt v 32 15) (bitsAt v 0 14) = false
      let shr (st : Nat) : CellVal := cell (.sec .SHR_LAST_STATUS) h 0 st
      (used → Sets (.shrWrite h k v) s [shr ST_PART_STATE]) ∧
      (¬ used → bad → Sets (.shrWrite h k v) s [shr ST_PART_CONFIG]) ∧
      (¬ used → ¬ bad → Sets (.shrWrite h k v) s [shr ST_OK, cell (.sec .SHR_V) h k.val (bitsAt v 63 1),
        cell (.sec .SHR_BASE) h k.val (bitsAt v 32 15), cell (.sec .SHR_SIZE) h k.val (bitsAt v 0 14)])) ∧
    (64 < v → (∀ x, Sets (.kimpStart h ⟨v, x⟩) s [klast ST_ID_RANGE]) ∧ Sets (.kimpPlain h v) s [klast ST_ID_RANGE]) ∧
    (v ≤ 64 → s.rd (.sec .SECRETS) h 0 = 0 → ∀ x, Sets (.kimpStart h ⟨v, x⟩) s
      [klast ST_KEY_MISSING, cell (.sec .KIMP_CTL_PARTY) h 0 v]) ∧
    (v ≤ 64 → s.rd (.sec .SECRETS) h 0 ≠ 0 → ∀ x, x ≠ .good → sick (.kimpStart h ⟨v, x⟩)) ∧
    (v ≤ 64 → s.rd (.sec .SECRETS) h 0 ≠ 0 → Gives (.kimpStart h ⟨v, .good⟩) s fun t => t.rd (.sec .KIMP_LIVE) h 0 = 1 ∧
      t.rd (.sec .KIMP_FOR) h 0 = v ∧ t.rd (.sec .KIMP_SEQ) h 0 = (s.rd (.sec .KIMP_SEQ) h 0 + 1) % 2 ^ 32 ∧
      t.rd (.sec .KIMP_CTL_LAST_STATUS) h 0 = ST_OK ∧ SameMem s t ∧ t.keys = s.keys) ∧
    (
      let party := if s.rd (.sec .KIMP_LIVE) h 0 = 1 then s.rd (.sec .KIMP_FOR) h 0 else s.rd (.sec .KIMP_CTL_PARTY) h 0
      let st := importStatus s h party
      let dropped := [cell (.sec .KIMP_LIVE) h 0 0, cell (.sec .KIMP_PRIV) h 0 0, cell (.sec .KIMP_FOR) h 0 0]
      let old : Prop := s.rd (.sec .KIMP_LIVE) h 0 = 1 ∧ s.rd (.sec .KIMP_MT) h 0 + 10000000000 ≤ s.mt h
      (st ≠ ST_OK → Sets (.kimpCommit h) s (klast st :: dropped)) ∧
      (st = ST_OK → importKey s h party = none → Sets (.kimpCommit h) s (klast ST_KEY_IMPORT :: dropped)) ∧
      (∀ key, st = ST_OK → importKey s h party = some key → installs (.kimpCommit h) party key) ∧
      Sets (.kimpAbort h) s (klast ST_OK :: dropped) ∧
      (old → Sets (.kimpExpire h) s dropped) ∧ (¬ old → Sets (.kimpExpire h) s [])) ∧
    (s.rd (.sec .SEC_STATUS_APPROVED) h 0 = 1 → v ≤ 64 →
      Sets (.kimpPlain h v) s [klast ST_NOT_APPROVED, cell (.sec .KIMP_CTL_PARTY) h 0 v]) ∧
    (s.rd (.sec .SEC_STATUS_APPROVED) h 0 ≠ 1 →
      (v ≤ 64 → importStatus s h v ≠ ST_OK →
        Sets (.kimpPlain h v) s [klast (importStatus s h v), cell (.sec .KIMP_CTL_PARTY) h 0 v]) ∧
      (v ≤ 64 → importStatus s h v = ST_OK → installs (.kimpPlain h v) v ((wordBytes s (.sec .KIMP_WRAP) h 10).take 32))) ∧
    (s.holder = none → Sets .arbFuseBlow s []) ∧
    (∀ w, s.holder = some w → s.rd (.sec .SEC_CFG_ARB_AUTO) w 0 ≠ 1 ∨ s.rd (.boot .FW_RUNNING) .h0 0 ≠ 1 ∨
      s.rd (.boot .FW_RUNNING) .h1 0 ≠ 1 ∨ s.rd (.boot .MGMT_READY) w 0 ≠ 1 → Sets .arbFuseBlow s []) ∧
    (∀ w, s.holder = some w → s.rd (.sec .SEC_CFG_ARB_AUTO) w 0 = 1 → s.rd (.boot .FW_RUNNING) .h0 0 = 1 →
      s.rd (.boot .FW_RUNNING) .h1 0 = 1 →
      s.rd (.boot .MGMT_READY) w 0 = 1 →
      let svn := s.rd (.sec .ARB_STATUS_SVN) w 0
      (s.rd (.sec .ARB_STATUS_SVN) w.other 0 ≠ svn ∨ svn ≤ s.rd (.sec .ARB_STATUS_ARB) w 0 → Sets .arbFuseBlow s []) ∧
      (s.rd (.sec .ARB_STATUS_SVN) w.other 0 = svn → s.rd (.sec .ARB_STATUS_ARB) w 0 < svn →
        Sets .arbFuseBlow s [cell (.sec .ARB_STATUS_ARB) .h0 0 (min 64 svn), cell (.sec .ARB_STATUS_ARB) .h1 0 (min 64 svn)]))

/-- Mirrored keys, and zeroization. A record that the peer can take is pending and acknowledged; the acknowledgement installs it on its
own half, and the commit on the peer; without an acknowledgement within 1 ms the operation is refused with ST_KEY_MIRROR, or completes
alone. A pending record without a commit within 2 ms goes. Reconciliation makes the peer's copies those of the home halves. A firmware
image that has changed and a self-test that fails zeroize both blocks, a tamper event the block that detects it (the model's reading, log
entry 38), and they are the Lowland cause SECURITY; ZEROIZE_ALL removes every partition key. -/
def Obligations.MirrorsAndZeroization : Prop :=
  ∀ (h : Half) (s : State),
    let reach : Prop := s.peerReachable h = true
    let sent (m : Mirror) : Bool := m.half == h.other && m.peer == 0
    let acked (m : Mirror) : Bool := m.half == h && m.acked && m.origin == 0
    let comes (m : Mirror) : Bool := m.half == h.other && m.origin == 1 && m.kind != 2
    let mine (m : Mirror) : Bool := m.half == h && m.origin == 0 && decide (m.mt + 1000000 ≤ s.mt h)
    let pends (m : Mirror) : Bool := m.half == h.other && m.peer == 1 && decide (m.peerMt + 2000000 ≤ s.mt h)
    let fewer (t : State) : Prop := t.mirrors.length + 1 = s.mirrors.length
    let noKey (t : State) : Prop := ∀ k ∈ t.keys, k.half ≠ h
    let noneLive (t : State) (k : Half) : Prop := ∀ p < 64, t.rd (.sec .PART_CTL_STATE) k p ≠ 1
    let zeroedAt (b : Half) (status : Nat) (t : State) : Prop := (∀ k ∈ t.keys, k.half ≠ b) ∧ (∀ k ∈ t.peerKeys, k.half = b) ∧
      t.rd (.sec .SECRETS) b 0 = 0 ∧ t.rd (.sec .SEC_STATUS_LAST_CAUSE) b 0 = status ∧ ∀ x ∈ t.spdm, x.half ≠ b
    let zeroed (status : Nat) (t : State) : Prop := zeroedAt h status t ∧ noneLive t .h0 ∧ noneLive t .h1 ∧
      (t.rd (.boot .LOW_PEND) .h0 0).testBit 3 = true
    (s.mirrors.find? sent = none ∨ ¬ reach ∨ s.rd (.sec .SECRETS) h 0 = 0 → Sets (.mirrorRecordReceive h) s []) ∧
    (∀ m, s.mirrors.find? sent = some m → reach → s.rd (.sec .SECRETS) h 0 ≠ 0 →
      (m.kind = 2 → Gives (.mirrorRecordReceive h) s fun t => fewer t ∧ t.regs = s.regs ∧
        ∀ k ∈ t.peerKeys, ∀ n ∈ m.keys, n.half = k.half → n.party = k.party → n.kind ≠ k.kind) ∧
      (m.kind ≠ 2 → Gives (.mirrorRecordReceive h) s fun t =>
        { m with acked := true, peer := 1, peerMt := s.mt h } ∈ t.mirrors ∧
        t.peerKeys = s.peerKeys ∧ t.regs = s.regs)) ∧
    (s.mirrors.find? acked = none ∨ ¬ reach → Sets (.mirrorAckReceive h) s []) ∧
    (∀ m, s.mirrors.find? acked = some m → reach → Gives (.mirrorAckReceive h) s fun t => { m with origin := 1 } ∈ t.mirrors ∧
      (∀ k ∈ m.keys, k ∈ t.keys) ∧ SameMem s t ∧
      (m.kind = 0 → t.rd (.sec .PART_CTL_STATE) h m.party = 1 ∧ t.rd (.sec .PART_CTL_LAST_STATUS) h m.party = ST_OK) ∧
      (m.kind = 1 → t.rd (.sec .KIMP_CTL_LAST_STATUS) h 0 = ST_OK) ∧
      (m.kind = 3 → t.rd (.sec .PART_CTL_STATE) h m.party = 0)) ∧
    (s.mirrors.find? comes = none ∨ ¬ reach → Sets (.mirrorCommitReceive h) s []) ∧
    (∀ m, s.mirrors.find? comes = some m → reach → Gives (.mirrorCommitReceive h) s fun t => fewer t ∧ t.regs = s.regs ∧
      (m.peer = 1 → (∀ k ∈ m.keys, k ∈ t.peerKeys) ∧ (m.entry.party < 64 → m.entry ∈ t.peerParts)) ∧ (m.peer ≠ 1 →
        t.peerKeys = s.peerKeys)) ∧
    (s.mirrors.find? mine = none → Sets (.mirrorAckTimeout h) s []) ∧
    (∀ m, s.mirrors.find? mine = some m →
      (aloneOk s h = true → Gives (.mirrorAckTimeout h) s fun t => (∀ k ∈ m.keys, k ∈ t.keys) ∧ t.rd (.sec .SEC_STATUS_SOLO) h 0 = 1) ∧
      (aloneOk s h = false → Gives (.mirrorAckTimeout h) s fun t => t.keys = s.keys ∧
        (m.kind = 0 → t.rd (.sec .PART_CTL_LAST_STATUS) h m.party = ST_KEY_MIRROR ∧ t.rd (.sec .GO_BUSY) h m.party = 0) ∧
        (m.kind = 1 → t.rd (.sec .KIMP_CTL_LAST_STATUS) h 0 = ST_KEY_MIRROR) ∧
        (m.kind = 3 → t.rd (.sec .PART_CTL_LAST_STATUS) h m.party = ST_KEY_MIRROR))) ∧
    (s.mirrors.find? pends = none → Sets (.mirrorPendingTimeout h) s []) ∧
    (∀ m, s.mirrors.find? pends = some m → Gives (.mirrorPendingTimeout h) s fun t => t.regs = s.regs ∧ t.peerKeys = s.peerKeys ∧
      (m.origin = 2 → fewer t) ∧ (m.origin ≠ 2 → { m with peer := 2, acked := false } ∈ t.mirrors)) ∧
    (s.peerReachable .h0 = false ∨ s.peerReachable .h1 = false → Sets .keyReconcile s []) ∧
    (s.peerReachable .h0 = true → s.peerReachable .h1 = true → Gives .keyReconcile s fun t =>
      (∀ k, t.rd (.sec .SEC_STATUS_SOLO) k 0 = 0) ∧ (∀ k ∈ t.peerKeys, k ∈ s.keys) ∧ (∀ m ∈ t.mirrors, m.kind ≠ 2) ∧ t.keys = s.keys ∧
      (∀ e ∈ t.peerParts, e.fields = partEntry s e.half e.party) ∧
      ∀ k ∈ s.keys, k.kind = .pfx ∨ k.party = 64 ∨ s.rd (.sec .PART_CTL_STATE) k.half k.party = 1 →
        s.rd (.sec .SECRETS) k.half.other 0 ≠ 0 → k ∈ t.peerKeys) ∧
    Sets (.fwRemeasure h true) s [] ∧
    (Gives (.fwRemeasure h false) s fun t => zeroed ST_FW_MEASURE t ∧ zeroedAt h.other ST_FW_MEASURE t) ∧
    (Gives (.secSelftest h true) s fun t => (t.rd (.sec .SEC_EVT) h 0).testBit 2 = true ∧ t.keys = s.keys ∧ SameMem s t) ∧
    (Gives (.secSelftest h false) s fun t => (t.rd (.sec .SEC_EVT) h 0).testBit 2 = true ∧ zeroed ST_SELFTEST_FAIL t ∧
      zeroedAt h.other ST_SELFTEST_FAIL t) ∧
    Gives (.tamperDetect h) s (zeroed ST_TAMPER) ∧
    (s.rd (.sec .SEC_STATUS_APPROVED) h 0 = 1 → s.rd (.sec .SEC_STATUS_CO_AUTH) h 0 = 0 → Sets (.secZeroizeAll h) s []) ∧
    (s.rd (.sec .SEC_STATUS_APPROVED) h 0 ≠ 1 ∨ s.rd (.sec .SEC_STATUS_CO_AUTH) h 0 ≠ 0 → Gives (.secZeroizeAll h) s fun t =>
      noKey t ∧ noneLive t h)

/-- SPDM and IDE. The responder answers while firmware runs; before each step of the connection, and under the Lowland cause SECURITY but
for the version and the capabilities, with an ERROR. A session begins with KEY_EXCHANGE, opens with FINISH, and ends; CO_AUTH follows the
mutually authenticated session that chains to CO_ROOT. The key sets of IDE streams are programmed, put in use and stopped within a session;
a stream that leaves Secure
acts as DL_Down. -/
def Obligations.SpdmAndIde : Prop :=
  ∀ (h : Half) (mctp : Bool) (id : Fin 4) (s : State),
    let stage := s.rd (.sec .SPDM_STAGE) h (bit mctp)
    let here : Prop := spdmHere s h mctp = true
    let speaks : Prop := here ∧ spdmMute s h = false
    let answers (c : Instr) (r : SpdmRsp) : Prop := Gives c s fun t => t.out = s.out ++ [.spdm h mctp r] ∧ t.regs = s.regs ∧ SameMem s t
    let moves (c : Instr) (r : SpdmRsp) (n : Nat) : Prop := Gives c s fun t => t.out = s.out ++ [.spdm h mctp r] ∧
      Touches s t [.sec .SPDM_STAGE] ∧ t.rd (.sec .SPDM_STAGE) h (bit mctp) = n
    let signed : List Instr := [.spdmNegotiateAlgorithms h mctp, .spdmGetDigests h mctp, .spdmGetCertificate h mctp 0,
      .spdmChallenge h mctp,
      .spdmGetMeasurements h mctp 0xFF, .spdmKeyExchange h mctp true, .spdmFinish h mctp id true [], .spdmHeartbeat h mctp id,
      .spdmKeyUpdate h mctp id, .spdmEndSession h mctp id]
    (¬ here → ∀ c ∈ .spdmGetVersion h mctp :: .spdmGetCapabilities h mctp :: signed, Sets c s []) ∧
    (here → spdmMute s h = true → ∀ c ∈ signed, answers c (.error 0)) ∧
    (here → moves (.spdmGetVersion h mctp) .version 1) ∧
    (here → stage = 0 → answers (.spdmGetCapabilities h mctp) (.error 1)) ∧
    (here → stage ≠ 0 → moves (.spdmGetCapabilities h mctp) .capabilities 2) ∧
    (speaks → stage < 2 → answers (.spdmNegotiateAlgorithms h mctp) (.error 1)) ∧
    (speaks → 2 ≤ stage → moves (.spdmNegotiateAlgorithms h mctp) .algorithms 3) ∧
    (speaks → stage ≠ 3 → ∀ (slot : Fin 8) (index : Nat) (auth : Bool), ∀ c ∈ [.spdmGetDigests h mctp, .spdmGetCertificate h mctp slot,
      .spdmChallenge h mctp, .spdmGetMeasurements h mctp index, .spdmKeyExchange h mctp auth], answers c (.error 1)) ∧
    (speaks → stage = 3 →
      let chain := Config.certChain (fakBytes s h)
      let answersSigned (c : Instr) (r : List Nat → SpdmRsp) : Prop :=
        Gives c s fun t => (∃ sig, t.out = s.out ++ [.spdm h mctp (r sig)]) ∧ t.regs = s.regs
      answers (.spdmGetDigests h mctp) (.digests (sha384 chain)) ∧ answers (.spdmGetCertificate h mctp 0) (.certificate chain) ∧
      (∀ slot : Fin 8, slot ≠ 0 → answers (.spdmGetCertificate h mctp slot) (.error 1)) ∧
      answersSigned (.spdmChallenge h mctp) (.challengeAuth (sha384 chain)) ∧
      (∀ i, 1 ≤ i → i ≤ 6 → answersSigned (.spdmGetMeasurements h mctp i) (.measurements [(i, measureBlock s h i)])) ∧
      (answersSigned (.spdmGetMeasurements h mctp 0xFF) (.measurements ([1, 2, 3, 4, 5, 6].map fun i => (i, measureBlock s h i)))) ∧
      (∀ i, i = 0 ∨ 6 < i → i ≠ 0xFF → answers (.spdmGetMeasurements h mctp i) (.error 1)) ∧
      (∀ auth : Bool, (∀ i < 4, ∃ x ∈ s.spdm, x.is h mctp i = true) → answers (.spdmKeyExchange h mctp auth) (.error 3)) ∧
      (∀ (auth : Bool) (i : Nat), i < 4 → (∀ x ∈ s.spdm, x.is h mctp i = false) → Gives (.spdmKeyExchange h mctp auth) s fun t =>
        ∃ n < 4, (∀ x ∈ s.spdm, x.is h mctp n = false) ∧ t.spdm = s.spdm ++ [⟨h, mctp, n, auth, false, false, 0⟩])) ∧
    (speaks → (∀ x ∈ s.spdm, x.is h mctp id.val = false) → ∀ (ok : Bool) (root : List Byte), ∀ c ∈ [.spdmFinish h mctp id ok root,
      .spdmHeartbeat h mctp id, .spdmKeyUpdate h mctp id, .spdmEndSession h mctp id], answers c (.error 2)) ∧
    (speaks → ∀ x ∈ s.spdm, x.is h mctp id.val = true → (∀ y ∈ s.spdm, y.is h mctp id.val = true → y = x) →
      (x.open_ = true → ∀ (ok : Bool) (root : List Byte), answers (.spdmFinish h mctp id ok root) (.error 2)) ∧
      (x.open_ = false → ∀ c ∈ [Instr.spdmHeartbeat h mctp id, .spdmKeyUpdate h mctp id, .spdmEndSession h mctp id], answers c (.error 2)) ∧
      (x.open_ = false →
        (∀ root : List Byte, Gives (.spdmFinish h mctp id true root) s fun t => t.out = s.out ++ [.spdm h mctp (.finish id.val)] ∧
          { x with open_ := true, root := coRoot s h == some root } ∈ t.spdm ∧
          (mctp = false → x.auth = true → coRoot s h = some root → t.rd (.sec .SEC_STATUS_CO_AUTH) h 0 = 1)) ∧
        (∀ root : List Byte, Gives (.spdmFinish h mctp id false root) s fun t => t.out = s.out ++ [.spdm h mctp (.error 4)] ∧
          ∀ y ∈ t.spdm, y.is h mctp id.val = false)) ∧
      (x.open_ = true → answers (.spdmHeartbeat h mctp id) (.heartbeat id.val) ∧
        (Gives (.spdmKeyUpdate h mctp id) s fun t => t.out = s.out ++ [.spdm h mctp (.keyUpdate id.val)] ∧
          { x with keyGen := x.keyGen + 1 } ∈ t.spdm) ∧
        Gives (.spdmEndSession h mctp id) s fun t => t.out = s.out ++ [.spdm h mctp (.endSession id.val)] ∧
          (∀ y ∈ t.spdm, y.is h mctp id.val = false) ∧
          ((∀ y ∈ t.spdm, y.half = h → y.mctp = false → y.root = false) → t.rd (.sec .SEC_STATUS_CO_AUTH) h 0 = 0))) ∧
    (∀ (stream : Fin 5) (key : Nat) (op : IdeOp), mctp = false →
      (¬ here → Sets (.ideKm h id stream op key) s []) ∧ (here → spdmMute s h = true → answers (.ideKm h id stream op key) (.error 0))) ∧
    (∀ (stream : Fin 5) (key : Nat) (k : Fin 2), mctp = false → speaks →
      let i := stream.val
      let j := 2 * i + k.val
      let running : Prop := s.rd (.sec .IDE_ON) h i = 1 ∧ s.rd (.sec .IDE_SET) h i = k.val
      (openSession s h false id.val = false → ∀ op, answers (.ideKm h id stream op key) (.error 2)) ∧
      (openSession s h false id.val = true →
        (Gives (.ideKm h id stream (.prog k) key) s fun t => Touches s t [.sec .IDE_KEY, .sec .IDE_KEY_V] ∧
          t.rd (.sec .IDE_KEY) h j = key % 2 ^ 256 ∧ t.rd (.sec .IDE_KEY_V) h j = 1) ∧
        (s.rd (.sec .IDE_KEY_V) h j ≠ 1 → answers (.ideKm h id stream (.go k) key) (.error 1)) ∧
        (s.rd (.sec .IDE_KEY_V) h j = 1 → Gives (.ideKm h id stream (.go k) key) s fun t =>
          Touches s t [.sec .IDE_ON, .sec .IDE_SET, .host .LINK_STATUS_IDE] ∧
          t.rd (.sec .IDE_ON) h i = 1 ∧ t.rd (.sec .IDE_SET) h i = k.val ∧ t.rd (.host .LINK_STATUS_IDE) h 0 = 1) ∧
        (Gives (.ideKm h id stream (.stop k) key) s fun t => t.rd (.sec .IDE_KEY_V) h j = 0 ∧ t.rd (.sec .IDE_KEY) h j = 0 ∧
          (running → t.rd (.sec .IDE_ON) h i = 0) ∧ (¬ running → t.rd (.sec .IDE_ON) h i = s.rd (.sec .IDE_ON) h i) ∧
          ((∀ m < 5, t.rd (.sec .IDE_ON) h m ≠ 1) → t.rd (.host .LINK_STATUS_IDE) h 0 = 0)))) ∧
    (∀ stream : Fin 5,
      (s.rd (.sec .IDE_ON) h stream.val ≠ 1 → Sets (.ideSecureLost h stream) s []) ∧
      (s.rd (.sec .IDE_ON) h stream.val = 1 → Gives (.ideSecureLost h stream) s fun t => t.rd (.sec .IDE_ON) h stream.val = 0 ∧
        t.rd (.host .LINK_STATUS_LINK_UP) h 0 = 0))

/-! ### Telemetry and management (§17) -/

/-- Telemetry and the management bus. A snapshot copies the named groups' counters, once in a cycle, and nothing of the others; HIST_CFG is
written whole or
refused, and enabling clears the histogram. A stuck bus is flagged, and ends the answers of its half. MCTP control and PLDM requests are
answered by the hub that holds the roles, with the codes and layouts that the model takes from the DMTF standards (PRESUMED, log entry
72); each answer leaves in units of 64 bytes; an update that verifies goes into the slot that no hub runs; a message reads the ledger, the
event history and the readiness, or
restarts the chip or the tray. An event that is 100 ms old raises SMB_ALERT#, and its acknowledgement releases it unless another is that
old. -/
def Obligations.TelemetryAndBus : Prop :=
  ∀ (h : Half) (v : Nat) (s : State),
    let tel (st : Nat) : CellVal := cell (.tel .TEL_STATUS_LAST_STATUS) h 0 st
    let msg (w : Half) (b : List Byte) : List Output := (mctpUnits b).map (Output.mctp w)
    (Inv s → Gives (.telSnapWrite h v) s fun t => SameMem s t ∧ ∀ g < 32, (isGroup g = true → v.testBit g = true → snapped s h g = false →
        t.rd (.tel .SNAP_SEQ) h g = (s.rd (.tel .SNAP_SEQ) h g + 1) % 2 ^ 32 ∧ t.rd (.tel .SNAP_MT) h g = s.mt h ∧
        (g < 5 → ∀ i < 16, t.rd (.tel .SNAP_SLOT) h (g * 32 + i) = liveSlot s h g i) ∧
        (16 ≤ g → t.rd (.tel .HIST_SNAP_COUNT) h (g - 16) = s.rd (.tel .HIST_COUNT) h (g - 16) ∧
          ∀ i < 32, t.rd (.tel .HIST_SNAP_BIN) h ((g - 16) * 32 + i) = s.rd (.tel .HIST_BIN) h ((g - 16) * 32 + i))) ∧
      (isGroup g = false ∨ v.testBit g = false ∨ snapped s h g = true → t.rd (.tel .SNAP_SEQ) h g = s.rd (.tel .SNAP_SEQ) h g ∧
        ∀ i < 16, t.rd (.tel .SNAP_SLOT) h (g * 32 + i) = s.rd (.tel .SNAP_SLOT) h (g * 32 + i))) ∧
    (∀ k : Fin 16,
      let was := s.rd (.tel .HIST_CFG_EN) h k.val
      let rd (f : TelF) : Nat := s.rd (.tel f) h k.val
      let clears : Prop := v.testBit 31 = false ∧ rd .HIST_CFG_MODE = bitsAt v 30 1 ∧ rd .HIST_CFG_U = bitsAt v 24 5 ∧
        rd .HIST_CFG_SRC = bitsAt v 20 4 ∧ rd .HIST_CFG_PV = bitsAt v 19 1 ∧ rd .HIST_CFG_PART = bitsAt v 12 7
      let bad : Prop := (was = 1 ∧ ¬ clears) ∨ (bitsAt v 19 1 = 1 ∧ 64 < bitsAt v 12 7)
      (bad → Sets (.histCfgWrite h k v) s [tel ST_TEL_CONFIG]) ∧
      (¬ bad → Gives (.histCfgWrite h k v) s fun t => t.rd (.tel .HIST_CFG_EN) h k.val = bitsAt v 31 1 ∧
        t.rd (.tel .HIST_CFG_MODE) h k.val = bitsAt v 30 1 ∧ t.rd (.tel .HIST_CFG_U) h k.val = bitsAt v 24 5 ∧
        t.rd (.tel .HIST_CFG_SRC) h k.val = bitsAt v 20 4 ∧ t.rd (.tel .HIST_CFG_PV) h k.val = bitsAt v 19 1 ∧
        t.rd (.tel .HIST_CFG_PART) h k.val = bitsAt v 12 7 ∧ t.rd (.tel .TEL_STATUS_LAST_STATUS) h 0 = ST_OK ∧ SameMem s t ∧
        (v.testBit 31 = true → t.rd (.tel .HIST_COUNT) h k.val = 0 ∧ t.rd (.tel .HIST_SUM) h k.val = 0 ∧
          t.rd (.tel .HIST_MAX) h k.val = 0 ∧ ∀ i < 32, t.rd (.tel .HIST_BIN) h (k.val * 32 + i) = 0) ∧
        (v.testBit 31 = false → t.rd (.tel .HIST_COUNT) h k.val = s.rd (.tel .HIST_COUNT) h k.val))) ∧
    (∀ clk dat : Bool,
      ((clk || dat) = false ∨ busStuck s h = true → Sets (.smbusStuck h clk dat) s []) ∧
      ((clk || dat) = true → busStuck s h = false → Gives (.smbusStuck h clk dat) s fun t => busStuck t h = true ∧
        t.rd (.tel .TEL_SMB_STUCK_CLK) h 0 = bit clk ∧ t.rd (.tel .TEL_SMB_STUCK_DAT) h 0 = bit dat ∧ SameMem s t) ∧
      (busStuck s h = true → Sets (.smbusStuckRetry h clk dat) s
        [cell (.tel .TEL_SMB_STUCK_CLK) h 0 (bit clk), cell (.tel .TEL_SMB_STUCK_DAT) h 0 (bit dat)]) ∧
      (busStuck s h = false → Sets (.smbusStuckRetry h clk dat) s [])) ∧
    (mctpTarget s = none → ∀ (op : Fin 4) (a b : Fin 256), ∀ c ∈ [Instr.mctpSetEndpointId op a, .mctpGetEndpointId, .mctpGetEndpointUuid,
      .mctpGetVersionSupport a, .mctpGetMsgTypeSupport, .pldmBase a b, .pldmGetPdr v, .pldmGetSensorReading v v, .pldmGetStateSensors v,
      .readinessQuery, .mctpChipReset, .mctpTrayCycle, .ledgerReadMsg v, .historyRead], Sets c s []) ∧
    (∀ w, mctpTarget s = some w →
      let answers (c : Instr) (b : List Byte) : Prop := Gives c s fun t => t.out = s.out ++ msg w b ∧ t.regs = s.regs ∧ SameMem s t
      let stores (c : Instr) (f : Fld) (x : Nat) (b : List Nat) : Prop := Gives c s fun t => t.out = s.out ++ msg w (toBytes b) ∧
        Touches s t [f] ∧ t.rd f .h0 0 = x
      (∀ (op : Fin 4) (eid : Fin 256),
        let ok : Prop := op.val < 2 ∧ eid.val ≠ 0 ∧ eid.val ≠ 255
        (ok → stores (.mctpSetEndpointId op eid) (.tel .MCTP_EID) eid.val [0, 1, 0, 0, eid.val, 0]) ∧
        (¬ ok → answers (.mctpSetEndpointId op eid) (toBytes [0, 1, 2]))) ∧
      answers .mctpGetEndpointId (toBytes [0, 2, 0, s.rd (.tel .MCTP_EID) .h0 0, 0, 0]) ∧
      answers .mctpGetEndpointUuid (toBytes [0, 3, 0] ++ leBytes 16 Config.endpointUuid) ∧
      answers .mctpGetMsgTypeSupport (toBytes [0, 5, 0, 3, 1, 5, 0x7E]) ∧
      (∀ a : Fin 256,
        (a.val ∈ [0, 1, 5, 0x7E] → answers (.mctpGetVersionSupport a) (toBytes [0, 4, 0, 1] ++ leBytes 4 (Config.mctpVersion a.val))) ∧
        (a.val ∉ [0, 1, 5, 0x7E] → answers (.mctpGetVersionSupport a) (toBytes [0, 4, 0x80])) ∧
        (a.val = 0 ∨ a.val = 255 → answers (.pldmBase 1 a) (toBytes [1, 0, 1, 2])) ∧
        (a.val ≠ 0 → a.val ≠ 255 → stores (.pldmBase 1 a) (.tel .PLDM_TID) a.val [1, 0, 1, 0]) ∧
        answers (.pldmBase 2 a) (toBytes [1, 0, 2, 0, s.rd (.tel .PLDM_TID) .h0 0]) ∧
        answers (.pldmBase 4 a) (toBytes [1, 0, 4, 0] ++ leBytes 8 0x25) ∧
        (∀ cmd : Fin 256, cmd.val = 0 ∨ 5 < cmd.val → answers (.pldmBase cmd a) (toBytes [1, 0, cmd.val, 5])) ∧
        (a.val ∉ [0, 2, 5] → answers (.pldmBase 3 a) (toBytes [1, 0, 3, 0x83]) ∧ answers (.pldmBase 5 a) (toBytes [1, 0, 5, 0x83])) ∧
        (a.val ∈ [0, 2, 5] → answers (.pldmBase 3 a) (toBytes [1, 0, 3, 0] ++ leBytes 4 (Config.pldmVersion a.val)) ∧
          answers (.pldmBase 5 a) (toBytes [1, 0, 5, 0] ++ leBytes 32 (Config.pldmCommands a.val)))) ∧
      (19 < max 1 v → answers (.pldmGetPdr v) (toBytes [1, 2, 0x51, 0x82])) ∧
      (max 1 v ≤ 19 → answers (.pldmGetPdr v) (toBytes [1, 2, 0x51, 0] ++ leBytes 4 (if max 1 v = 19 then 0 else max 1 v + 1) ++
        toBytes (Config.sensorPdr (max 1 v)))) ∧
      (∀ id,
        (sensorReading s w id v = none → answers (.pldmGetSensorReading id v) (toBytes [1, 2, 0x11, 0x80])) ∧
        (∀ x, sensorReading s w id v = some x → sensorAway s w id = true →
          answers (.pldmGetSensorReading id v) (toBytes [1, 2, 0x11, 0, 2, 0, 0, 0, 0])) ∧
        (∀ x, sensorReading s w id v = some x → sensorAway s w id = false →
          answers (.pldmGetSensorReading id v) (toBytes [1, 2, 0x11, 0, 0] ++ leBytes 4 x)) ∧
        (stateReading s w id = none → answers (.pldmGetStateSensors id) (toBytes [1, 2, 0x21, 0x80])) ∧
        (∀ x, stateReading s w id = some x → answers (.pldmGetStateSensors id) (toBytes [1, 2, 0x21, 0, 0] ++ leBytes 4 x))) ∧
      (let stored : Prop := s.rd (.tel .LDG_OLDEST) .h0 0 ≤ v ∧ v < s.rd (.tel .LDG_NEXT) .h0 0
       (stored → answers (.ledgerReadMsg v) (vendorMsg (toBytes [6] ++ leBytes 2 (ledgerRead s w v).1 ++ (ledgerRead s w v).2))) ∧
        (¬ stored → answers (.ledgerReadMsg v) (vendorMsg (toBytes [6] ++ leBytes 2 ST_ID_RANGE)))) ∧
      answers .historyRead (vendorMsg (toBytes [7] ++ s.history.reverse.flatMap (·.bytes))) ∧
      (Gives .readinessQuery s fun t => t.regs = s.regs ∧ ∃ ms, t.out = s.out ++ msg w (vendorMsg (toBytes [3,
        s.rd (.boot .BOOT_STATUS_STEP) w 0] ++ leBytes 2 ms ++ toBytes [s.rd (.host .LINK_STATUS_RRS) w 0])) ∧
        (s.rd (.boot .MGMT_READY) w 0 = 1 → ms = 0)) ∧
      (stepBusy s w 4 = false → chipBlocked s = false → s.peerReachable w = true → Gives .mctpChipReset s fun t =>
        t.chains = [] ∧ t.contexts = [] ∧ t.requests = [] ∧ t.rd (.boot .START_KIND) .h0 0 = 1) ∧
      (stepBusy s w 4 = true ∨ chipBlocked s = true → Sets .mctpChipReset s []) ∧
      (stepBusy s w 4 = false → chipBlocked s = false → s.peerReachable w = false → hubOk s w.other = true → Gives .mctpChipReset s fun t =>
        t.rd (.flt .TRAY_REQ) .h0 0 = 1 ∧ t.rd (.flt .FLT_STATUS_STEP) w 0 = 5) ∧
      (stepBusy s w 5 = true → Sets .mctpTrayCycle s []) ∧
      (stepBusy s w 5 = false → Gives .mctpTrayCycle s fun t => t.rd (.flt .TRAY_REQ) .h0 0 = 1 ∧ t.rd (.flt .FLT_STATUS_STEP) w 0 = 5)) ∧
    (∀ (addr : Fin 128) config image,
      (answersAt s addr.val = none → Sets (.pldmFwUpdate addr config image) s []) ∧
      (∀ w, answersAt s addr.val = some w →
        (imageValid s w image = false → Gives (.pldmFwUpdate addr config image) s fun t =>
          t = { s with out := s.out ++ msg w (toBytes [1, 5, 0, 1]) }) ∧
        (imageValid s w image = true → config = false → inactiveSlot s = none → Gives (.pldmFwUpdate addr config image) s fun t =>
          t = { s with out := s.out ++ msg w (toBytes [1, 5, 0, 1]) }) ∧
        (imageValid s w image = true → config = true → Gives (.pldmFwUpdate addr config image) s fun t =>
          t = { s with config := some image, out := s.out ++ msg w (toBytes [1, 5, 0, 0]) }) ∧
        (∀ n, imageValid s w image = true → config = false → inactiveSlot s = some n →
          Gives (.pldmFwUpdate addr config image) s fun t =>
          (n = 1 → t.imageA = some image ∧ t.imageB = s.imageB) ∧ (n ≠ 1 → t.imageB = some image ∧ t.imageA = s.imageA) ∧
          t.config = s.config ∧ .mctp w (toBytes [1, 5, 0, 0]) ∈ t.out))) ∧
    (let late (w : Half) : Prop := ∃ r ∈ s.pldmUnacked, r.mt + 100000000 ≤ s.mt w
     ((∀ w, s.holder = some w → ¬ late w) → Sets .smbAlertTimeout s []) ∧
      (∀ w, s.holder = some w → late w → Gives .smbAlertTimeout s fun t =>
        t.rd (.tel .SMB_ALERT) .h0 0 = 1 ∧ t.pldmUnacked = s.pldmUnacked)) ∧
    (s.pldmUnacked = [] → Sets .pldmEventAck s []) ∧
    (∀ r rest, s.pldmUnacked = r :: rest →
      let kept : Prop := ∃ w, s.holder = some w ∧ ∃ x ∈ rest, x.mt + 100000000 ≤ s.mt w
      Gives .pldmEventAck s fun t => t.pldmUnacked = rest ∧ SameMem s t ∧ (¬ kept → t.rd (.tel .SMB_ALERT) .h0 0 = 0) ∧
        (kept → t.regs = s.regs))

/-- The ledger and the fuse counts. The writer programs its next record into the page being written, or a new one; a scan resumes, or
finds the region FOREIGN; the oldest unit is erased while fewer than two are; a read gives the record, its status, or zeros, and in a
split the records that no writer has accepted; ADOPT starts a foreign region anew with a BOOT record, whose SEQ the model chooses (log
entry 89). Each whole hour leaves a SUMMARY; a fuse blows and is
counted, or is passed over after two failures. -/
def Obligations.LedgerAndFuses : Prop :=
  ∀ (h : Half) (v : Nat) (s : State),
    let tel (st : Nat) : CellVal := cell (.tel .TEL_STATUS_LAST_STATUS) h 0 st
    let scanned : List CellVal := [cell (.tel .LDG_SCANNED) h 0 1, cell (.tel .LDG_STATUS_FOREIGN) h 0 (bit (foreignRegion s))]
    (∀ w, s.holder = some w →
      (s.rd (.tel .LDG_STATUS_FOREIGN) w 0 = 1 → Sets .ledgerProgram s []) ∧
      (nextTaken s w = none → Sets .ledgerProgram s []) ∧
      (∀ r, nextTaken s w = some r → fitsPage s r.seq = false → pageFree s = false → Sets .ledgerProgram s []) ∧
      (∀ r, s.rd (.tel .LDG_STATUS_FOREIGN) w 0 ≠ 1 → nextTaken s w = some r → fitsPage s r.seq = true ∨ pageFree s = true →
        Gives .ledgerProgram s fun t => (∃ x ∈ t.ldgFlash, x.seq = r.seq ∧ x.bytes = r.bytes ∧ x.torn = false) ∧
          t.ldgFlash.length = s.ldgFlash.length + 1 ∧ SameMem s t)) ∧
    (s.rd (.boot .FW_RUNNING) h 0 = 0 ∨ s.rd (.tel .LDG_SCANNED) h 0 = 1 → Sets (.ledgerScan h) s []) ∧
    (s.rd (.boot .FW_RUNNING) h 0 ≠ 0 → s.rd (.tel .LDG_SCANNED) h 0 ≠ 1 → Inv s →
      (foreignRegion s = true → Sets (.ledgerScan h) s (scanned ++ [cell (.tel .LDG_BOOT) .h0 0 (s.rd (.tel .FUSE_CNT) .h0 0 * 1024),
        cell (.tel .LDG_LIFE_S) .h0 0 (s.rd (.tel .FUSE_CNT) .h0 1 * 1024 * 3600),
        cell (.tel .SUMMARY_HOURS) .h0 0 (s.rd (.tel .FUSE_CNT) .h0 1 * 1024)])) ∧
      (foreignRegion s = false → s.rd (.tel .LDG_SCANNED) h.other 0 = 1 → Sets (.ledgerScan h) s scanned) ∧
      (foreignRegion s = false → s.rd (.tel .LDG_SCANNED) h.other 0 ≠ 1 → Gives (.ledgerScan h) s fun t =>
        t.rd (.tel .LDG_SCANNED) h 0 = 1 ∧ t.rd (.tel .LDG_STATUS_FOREIGN) h 0 = 0 ∧
        t.rd (.tel .LDG_BOOT) .h0 0 = bootNumber s % 2 ^ 32 ∧ t.rd (.tel .LDG_LIFE_S) .h0 0 = lifeSeconds s % 2 ^ 32 ∧
        t.ldgFlash = s.ldgFlash)) ∧
    let strange : Prop := ∃ w, s.holder = some w ∧ s.rd (.tel .LDG_STATUS_FOREIGN) w 0 = 1
    (s.ldgPages = [] ∨ 2 ≤ erasedUnits s ∨ strange → Sets .ledgerErase s []) ∧
    (∀ p rest, s.ldgPages = p :: rest → erasedUnits s < 2 → ¬ strange → Gives .ledgerErase s fun t =>
      (∀ q ∈ t.ldgPages, ringPage q.page / 16 ≠ ringPage p.page / 16) ∧ (∀ x ∈ t.ldgFlash, ringPage x.page / 16 ≠ ringPage p.page / 16) ∧
      (∀ q ∈ s.ldgPages, ringPage q.page / 16 ≠ ringPage p.page / 16 → q ∈ t.ldgPages) ∧
      ∀ q more, t.ldgPages = q :: more → t.rd (.tel .LDG_OLDEST) .h0 0 = q.first % 2 ^ 32) ∧
    (
      let gives (st : Nat) (b : List Byte) : Prop := Gives (.ledgerRead h v) s fun t => t.rd (.tel .LDG_RD_SEQ) h 0 = v % 2 ^ 32 ∧
        t.rd (.tel .LDG_RD_STATUS) h 0 = st ∧ t.ldgRdData.head? = some (h, b) ∧ SameMem s t
      let oldest := s.rd (.tel .LDG_OLDEST) .h0 0
      let next := s.rd (.tel .LDG_NEXT) .h0 0
      (v < oldest → v < next → gives ST_LDG_NOREC (zeros 64)) ∧
      (next ≤ v → s.holds h = true ∨ s.lanesUp = true ∨ (untaken s h)[v - next]? = none → gives ST_LDG_NOREC (zeros 64)) ∧
      (∀ r, next ≤ v → s.holds h = false → s.lanesUp = false → (untaken s h)[v - next]? = some r → gives ST_LDG_PENDING r.bytes) ∧
      (∀ x, oldest ≤ v → v < next → s.ldgFlash.find? (fun x => x.seq == v) = some x → x.torn = true →
        gives ST_LDG_NOREC (zeros 64)) ∧
      (oldest ≤ v → v < next → (∀ x ∈ s.ldgFlash, x.seq ≠ v) → (∀ p ∈ s.ldgBuf, p.2.taken = true → p.2.seq ≠ v) →
        gives ST_LDG_NOREC (zeros 64)) ∧
      (∀ x, oldest ≤ v → v < next → s.ldgFlash.find? (fun x => x.seq == v) = some x → x.torn = false → gives ST_OK x.bytes) ∧
      (∀ p, oldest ≤ v → v < next → (∀ x ∈ s.ldgFlash, x.seq ≠ v) → s.ldgBuf.find? (fun p => p.2.taken && p.2.seq == v) = some p →
        gives ST_LDG_PENDING p.2.bytes)) ∧
    (s.holds h = false → Sets (.ledgerAdopt h) s [tel ST_AUX_NO_ROLE]) ∧
    (s.holds h = true →
      let unauth : Prop := s.rd (.sec .SEC_STATUS_APPROVED) h 0 = 1 ∧ s.rd (.sec .SEC_STATUS_CO_AUTH) h 0 = 0
      (unauth → Sets (.ledgerAdopt h) s [tel ST_CO_AUTH]) ∧
      (¬ unauth → s.rd (.tel .LDG_STATUS_FOREIGN) h 0 = 0 → Sets (.ledgerAdopt h) s [tel ST_LDG_NOREC]) ∧
      (¬ unauth → s.rd (.tel .LDG_STATUS_FOREIGN) h 0 ≠ 0 → Gives (.ledgerAdopt h) s fun t => t.ldgForeign = false ∧
        (∃ (x : LdgSlot) (r : LdgRec), t.ldgFlash = [x] ∧ x.page = 0 ∧ x.torn = false ∧ x.bytes = r.bytes ∧ r.type = 1 ∧
          r.data = bootData s h) ∧
        (∃ y, t.ldgPages = [y] ∧ y.page = 0) ∧ (∀ k, t.rd (.tel .LDG_STATUS_FOREIGN) k 0 = 0) ∧
          t.rd (.tel .TEL_STATUS_LAST_STATUS) h 0 = ST_OK)) ∧
    (s.holder = none → Sets .summaryHour s [] ∧ Sets .ledgerProgram s [] ∧ ∀ k a b, Sets (.fuseBlow k a b) s []) ∧
    (s.rd (.tel .LDG_LIFE_S) .h0 0 / 3600 ≤ s.rd (.tel .SUMMARY_HOURS) .h0 0 → Sets .summaryHour s []) ∧
    (∀ w, s.holder = some w → s.rd (.tel .SUMMARY_HOURS) .h0 0 < s.rd (.tel .LDG_LIFE_S) .h0 0 / 3600 →
      Gives .summaryHour s fun t => t.rd (.tel .SUMMARY_MAX_TJ) .h0 0 = 0 ∧ t.rd (.tel .SUMMARY_MAX_OUT) .h0 0 = 0 ∧
      SameMem s t ∧ (s.ldgHeld w < 64 → t.rd (.tel .LDG_TOTAL) .h0 1 = (s.rd (.tel .LDG_TOTAL) .h0 1 + 1) % 2 ^ 32 ∧
        ∃ r ∈ t.history, r.type = 6 ∧ r.data = summaryData s w)) ∧
    (∀ w, s.holder = some w → ∀ k : Fin 8, Inv s →
      let due := s.rd (.tel .FUSE_BLOW_PENDING) .h0 k.val
      let n := s.rd (.tel .FUSE_CNT) .h0 k.val
      let full : Prop := (fuseRow k.val).1 ≤ n + s.rd (.tel .FUSE_SKIP) .h0 k.val
      (∀ a b : Bool, due = 0 ∨ full → Sets (.fuseBlow k a b) s []) ∧
      (∀ a b : Bool, due ≠ 0 → ¬ full → (a || b) = true → Gives (.fuseBlow k a b) s fun t =>
        t.rd (.tel .FUSE_CNT) .h0 k.val = n + 1 ∧ t.rd (.tel .FUSE_BLOW_PENDING) .h0 k.val = due - 1 ∧ SameMem s t ∧
        (s.ldgHeld w < 64 → ∃ r ∈ t.history, r.type = 0xA ∧ r.data = toBytes [k.val, n + 1])) ∧
      (due ≠ 0 → ¬ full → Sets (.fuseBlow k false false) s
        [cell (.tel .FUSE_SKIP) .h0 k.val (min (s.rd (.tel .FUSE_SKIP) .h0 k.val + 1) (2 ^ 6 - 1)),
          cell (.tel .LDG_STATUS_FUSE_ERR) w 0 1]))

/-! ### Device addresses and reset (§1.6, the register tables) -/

/-- An access to a hole completes with ST_ADDR_INVALID (0x5001), and no byte of it is read or written; an access that starts in a target
and runs into a hole is refused as a whole (R43). The holes are those of Table 1.6, with the unpopulated part of each scratchpad window.
-/
def Obligations.AddressHoles : Prop :=
  ∀ (s : State) (w : Who) (a : Nat) (data : List Byte),
    let hole (x : Nat) : Prop := (0x600000000 ≤ x ∧ x < 0x800000000) ∨ (0xE00000000 ≤ x ∧ x < 0x1000000000) ∨
      (0x1000000000 ≤ x ∧ x < 0x1040000000 ∧ 0x180000 ≤ x % 0x200000) ∨ (0x1040000000 ≤ x ∧ x < 2 ^ 63)
    (∃ x, a ≤ x ∧ x < a + data.length ∧ hole x) →
      (readAt s w a data.length).1 = 0x5001 ∧ (readAt s w a data.length).2.2 = [] ∧ SameMem s (readAt s w a data.length).2.1 ∧
      (writeAt s w a data).1 = 0x5001 ∧ SameMem s (writeAt s w a data).2

/-- The machine after reset: nothing waits, no chain, context, request or stream is there, and the registers hold the reset values of the
spec's register tables (a selection from every chapter that gives values other than 0). -/
def Obligations.ResetValues : Prop :=
  let s := State.reset
  s.pending = [] ∧ s.chains = [] ∧ s.contexts = [] ∧ s.requests = [] ∧ s.streams = [] ∧ s.nodes = [] ∧ s.keys = [] ∧ s.holder = none ∧
    ∀ h : Half,
      s.rd (.host .GLB_ID_PART) h 0 = 0x4812 ∧ s.rd (.host .GLB_ID_STEPPING) h 0 = 0xA1 ∧ s.rd (.host .GLB_ID_HALF) h 0 = h.num ∧
      s.rd (.host .PIN_POOL_FREE) h 0 = 4096 ∧ (∀ r, s.rd (.host .RING_STATE_STATE) h r = 0 ∧ s.rd (.host .RING_CFG_SIZE_LOG2) h r = 4) ∧
      ((List.range 7).map fun c => s.rd (.pkg .POOL_CLASS_CFG_FLOOR) h c) = [128, 256, 192, 64, 16, 64, 32] ∧
      ((List.range 7).map fun c => s.rd (.pkg .POOL_CLASS_CFG_CAP) h c) = [256, 640, 512, 256, 16, 128, 64] ∧
      s.rd (.pkg .POOL_STATUS_FREE) h 0 = 1024 ∧ s.rd (.pkg .PASS_STATUS_STATE) h 0 = 0 ∧
      s.rd (.thm .THERM_STATUS_STATE) h 0 = 0 ∧ s.rd (.thm .PLAT_STATUS_CUR) h 0 = 2 ∧ s.rd (.thm .THERM_CTL_AUTO_DOWN) h 0 = 1 ∧
      s.rd (.thm .THERM_SET0_T_OUT_SET) h 0 = 0x2D00 ∧ s.rd (.thm .THERM_SET1_TJ_WARN) h 0 = 0x5F00 ∧
      (∀ n, s.rd (.thm .PWM_PERIOD) h n = 10000 ∧ s.rd (.thm .PWM_CTL_EN) h n = 0 ∧ s.rd (.thm .FB_PERIOD_PERIOD) h n = 0xFFFFFF) ∧
      s.rd (.flt .FLT_CFG_AUTO_CHIP) h 0 = 1 ∧ s.rd (.flt .FLT_WDT0_CTX_WDT) h 0 = 2000 ∧ s.rd (.flt .MC_STATUS_LATCH) h 0 = 0 ∧
      s.rd (.attn .ATTN_RULE_SPLIT_MIN) h 0 = 64 ∧ (∀ p, s.rd (.sched .PARTY_CFG_WEIGHT) h p = 16) ∧
      (∀ n, s.rd (.fab .PORT_STATUS_STATE) h n = 0) ∧ s.rd (.fab .FAB_LINK_CFG_REPLAY_TMO) h 0 = 20 ∧
      s.rd (.coll .COLL_CFG_TMO_DEF) h 0 = 4000 ∧ s.rd (.egr .EGR_PORT_CFG_MTU) h 0 = 9000 ∧ s.rd (.egr .EGR_CTL_EN) h 0 = 0 ∧
      s.rd (.tim .TIME_INT_SRC_TMO) h 0 = 10 ∧ s.rd (.tim .TIME_STATUS_STATE) h 0 = 0 ∧
      (∀ p, s.rd (.sec .PART_CTL_STATE) h p = 0) ∧ s.rd (.tel .MCTP_EID) h 0 = 0
end

