-- ==== Sys2Proof/Laws/Mem.lean ====
section
/-!
SUPPORT. Laws/Mem.lean: byte memory: a read after a write, and the canonical form kept by every update of it.
-/

namespace Sys2Proof.Machine

theorem Memory.find_ins_ne {c : Host.Cell} {a : Nat} (h : c.1 ≠ a) :
    ∀ m : Memory, (Memory.ins m c).find? (fun d => decide (d.1 = a)) = m.find? (fun d => decide (d.1 = a))
  | [] => by simp [Memory.ins, h]
  | d :: r => by
    unfold Memory.ins
    split
    · simp [h]
    · simp only [List.find?_cons]
      rw [Memory.find_ins_ne h r]

theorem Memory.find_ins_self {c : Host.Cell} :
    ∀ m : Memory, (∀ d ∈ m, d.1 ≠ c.1) → (Memory.ins m c).find? (fun d => decide (d.1 = c.1)) = some c
  | [], _ => by simp [Memory.ins]
  | d :: r, h => by
    unfold Memory.ins
    split
    · simp
    · have hd : d.1 ≠ c.1 := h d (by simp)
      simp only [List.find?_cons, hd, decide_false]
      exact Memory.find_ins_self r fun e he => h e (by simp [he])

theorem Memory.find_filter {m : Memory} {a : Nat} (p : Host.Cell → Bool) (h : ∀ c : Host.Cell, c.1 = a → p c = true) :
    (m.filter p).find? (fun d => decide (d.1 = a)) = m.find? (fun d => decide (d.1 = a)) := by
  rw [List.find?_filter]
  congr 1
  funext c
  by_cases hc : c.1 = a
  · simp [hc, h c hc]
  · simp [hc]

/-- A byte just written reads back. -/
theorem Memory.read_write_self (m : Memory) (a : Nat) (b : Byte) : (m.write a b).read a = b := by
  unfold Memory.write Memory.read
  by_cases hb : b = Memory.unlisted
  · have : (m.filter fun c => decide (c.1 ≠ a)).find? (fun d => decide (d.1 = a)) = none := by
      rw [List.find?_eq_none]; intro c hc; simpa using (List.mem_filter.mp hc).2
    simp only [hb, if_true, this]
  · have := Memory.find_ins_self (c := (a, b)) (m.filter fun c => decide (c.1 ≠ a))
      (fun d hd => by simpa using (List.mem_filter.mp hd).2)
    simp only at this
    simp only [hb, if_false, this]

/-- Every other byte keeps its value. -/
theorem Memory.read_write_ne (m : Memory) {a x : Nat} (h : x ≠ a) (b : Byte) : (m.write a b).read x = m.read x := by
  unfold Memory.write Memory.read
  have hf : (m.filter fun c => decide (c.1 ≠ a)).find? (fun d => decide (d.1 = x)) = m.find? (fun d => decide (d.1 = x)) :=
    Memory.find_filter _ fun c hc => by simpa using fun q => h (hc.symm.trans q)
  by_cases hb : b = Memory.unlisted
  · simp only [hb, if_true]; rw [hf]
  · simp only [hb, if_false]
    rw [Memory.find_ins_ne (c := (a, b)) (Ne.symm h), hf]

theorem Memory.read_write (m : Memory) (a x : Nat) (b : Byte) :
    (m.write a b).read x = if x = a then b else m.read x := by
  split
  · subst_vars; exact Memory.read_write_self m _ b
  · exact Memory.read_write_ne m ‹_› b

/-- A run of bytes written: inside the run the new bytes, outside it the old ones. -/
theorem Memory.read_writeN (bs : List Byte) : ∀ (m : Memory) (a x : Nat),
    (m.writeN a bs).read x = if h : a ≤ x ∧ x - a < bs.length then bs[x - a] else m.read x := by
  induction bs with
  | nil => intro m a x; simp [Memory.writeN]
  | cons b r ih =>
    intro m a x
    rw [Memory.writeN, ih]
    by_cases hx : x = a
    · subst hx; simp [Memory.read_write_self]
    · by_cases hlt : a + 1 ≤ x ∧ x - (a + 1) < r.length
      · have h2 : a ≤ x ∧ x - a < (b :: r).length := by simp; omega
        have h3 : x - a = (x - (a + 1)) + 1 := by omega
        simp only [hlt, h2, and_self, dif_pos]
        simp [h3]
      · have h2 : ¬ (a ≤ x ∧ x - a < (b :: r).length) := by simp; omega
        rw [dif_neg hlt, dif_neg h2, Memory.read_write_ne _ hx]

/-- Every byte outside a written run keeps its value. -/
theorem Memory.read_writeN_out {m : Memory} {a x : Nat} {bs : List Byte} (h : x < a ∨ a + bs.length ≤ x) :
    (m.writeN a bs).read x = m.read x := by
  rw [Memory.read_writeN, dif_neg (by omega)]

/-! ### The canonical form -/

theorem Memory.wf_iff (m : Memory) : m.wf = true ↔
    (∀ c ∈ m, c.2 ≠ Memory.unlisted) ∧ m.Pairwise fun a b => a.1 < b.1 := by
  simp [Memory.wf, List.all_eq_true]

theorem Memory.mem_ins {c d : Host.Cell} : ∀ {m : Memory}, d ∈ Memory.ins m c ↔ d = c ∨ d ∈ m
  | [] => by simp [Memory.ins]
  | e :: r => by
    unfold Memory.ins
    split
    · simp
    · simp only [List.mem_cons, Memory.mem_ins (m := r)]
      tauto

theorem Memory.pairwise_ins {c : Host.Cell} : ∀ {m : Memory}, (∀ d ∈ m, d.1 ≠ c.1) →
    (m.Pairwise fun a b => a.1 < b.1) → (Memory.ins m c).Pairwise fun a b => a.1 < b.1
  | [], _, _ => by simp [Memory.ins]
  | d :: r, h, hp => by
    unfold Memory.ins
    have hp' := List.pairwise_cons.mp hp
    split
    · rename_i hlt
      refine List.pairwise_cons.mpr ⟨fun e he => ?_, hp⟩
      rcases List.mem_cons.mp he with rfl | he
      · exact hlt
      · exact lt_trans hlt (hp'.1 e he)
    · rename_i hge
      have hne : d.1 ≠ c.1 := h d (by simp)
      refine List.pairwise_cons.mpr ⟨fun e he => ?_, Memory.pairwise_ins (fun e he => h e (by simp [he])) hp'.2⟩
      rcases Memory.mem_ins.mp he with rfl | he
      · omega
      · exact hp'.1 e he

theorem Memory.wf_filter {m : Memory} (p : Host.Cell → Bool) (h : m.wf = true) : Memory.wf (m.filter p) = true := by
  rw [Memory.wf_iff] at *
  exact ⟨fun c hc => h.1 c (List.mem_filter.mp hc).1, h.2.filter p⟩

/-- Writing a byte keeps the canonical form. -/
theorem Memory.wf_write {m : Memory} (a : Nat) (b : Byte) (h : m.wf = true) : (m.write a b).wf = true := by
  have hf := Memory.wf_filter (fun c => decide (c.1 ≠ a)) h
  unfold Memory.write
  by_cases hb : b = Memory.unlisted
  · simp only [hb, if_true]; exact hf
  · simp only [hb, if_false]
    rw [Memory.wf_iff] at *
    refine ⟨fun c hc => ?_, Memory.pairwise_ins (fun d hd => by simpa using (List.mem_filter.mp hd).2) hf.2⟩
    rcases Memory.mem_ins.mp hc with rfl | hc
    · exact hb
    · exact hf.1 c hc

/-- Writing a run of bytes keeps the canonical form. -/
theorem Memory.wf_writeN (bs : List Byte) : ∀ {m : Memory} (a : Nat), m.wf = true → (m.writeN a bs).wf = true := by
  induction bs with
  | nil => intro m a h; exact h
  | cons b r ih => intro m a h; exact ih (a + 1) (Memory.wf_write a b h)

/-- Clearing a range keeps the canonical form. -/
theorem Memory.wf_clearRange {m : Memory} (lo len : Nat) (h : m.wf = true) : (m.clearRange lo len).wf = true :=
  Memory.wf_filter _ h

/-- Filling a range keeps the canonical form. -/
theorem Memory.wf_fill {m : Memory} (lo len : Nat) (f : Nat → Nat) (h : m.wf = true) : (m.fill lo len f).wf = true := by
  rw [Memory.wf_iff] at *
  have key : ∀ c, c ∈ ((List.range len).filterMap fun i =>
      let b : Byte := BitVec.ofNat 8 (f i)
      if b = Memory.unlisted then none else some ((lo + i, b) : Host.Cell)) → c.2 ≠ Memory.unlisted ∧ lo ≤ c.1 ∧ c.1 < lo + len := by
    intro c hc
    obtain ⟨i, hi, hc⟩ := List.mem_filterMap.mp hc
    by_cases hb : BitVec.ofNat 8 (f i) = Memory.unlisted
    · simp [hb] at hc
    · simp only [hb, if_false, Option.some.injEq] at hc
      subst hc
      have := List.mem_range.mp hi
      exact ⟨hb, by simp, by simp; omega⟩
  unfold Memory.fill
  refine ⟨fun c hc => ?_, ?_⟩
  · simp only [List.mem_append] at hc
    rcases hc with (hc | hc) | hc
    · exact h.1 c (List.mem_filter.mp hc).1
    · exact (key c hc).1
    · exact h.1 c (List.mem_filter.mp hc).1
  · rw [List.pairwise_append, List.pairwise_append]
    refine ⟨⟨h.2.filter _, ?_, fun a ha b hb => ?_⟩, h.2.filter _, fun a ha b hb => ?_⟩
    · rw [List.pairwise_filterMap]
      refine List.pairwise_lt_range.imp ?_
      intro i j hij a ha b hb
      by_cases h1 : BitVec.ofNat 8 (f i) = Memory.unlisted
      · simp [h1] at ha
      · by_cases h2 : BitVec.ofNat 8 (f j) = Memory.unlisted
        · simp [h2] at hb
        · simp only [h1, h2, if_false, Option.some.injEq] at ha hb
          subst ha hb
          simpa using hij
    · have h1 : a.1 < lo := by simpa using (List.mem_filter.mp ha).2
      exact lt_of_lt_of_le h1 (key b hb).2.1
    · have h2 : lo + len ≤ b.1 := by simpa using (List.mem_filter.mp hb).2
      rcases List.mem_append.mp ha with ha | ha
      · have h1 : a.1 < lo := by simpa using (List.mem_filter.mp ha).2
        omega
      · have := (key a ha).2.2
        omega

end Sys2Proof.Machine
end

