-- ==== Sys2Proof/Laws/Store.lean ====
section
/-!
SUPPORT. Laws/Store.lean: the register store: a read after a write, and the canonical form kept by every update of it.
-/

namespace Sys2Proof.Machine

/-- Inserting a cell changes no other cell's value. -/
theorem RegFile.find_ins_ne {c : RegCell} {k : Key} (h : c.key ≠ k) :
    ∀ r : RegFile, (RegFile.ins r c).find? (fun d => decide (d.key = k)) = r.find? (fun d => decide (d.key = k))
  | [] => by simp [RegFile.ins, h]
  | d :: r => by
    unfold RegFile.ins
    split
    · simp [h]
    · simp only [List.find?_cons]
      rw [RegFile.find_ins_ne h r]

/-- An inserted cell is found when no other cell has its key. -/
theorem RegFile.find_ins_self {c : RegCell} :
    ∀ r : RegFile, (∀ d ∈ r, d.key ≠ c.key) → (RegFile.ins r c).find? (fun d => decide (d.key = c.key)) = some c
  | [], _ => by simp [RegFile.ins]
  | d :: r, h => by
    unfold RegFile.ins
    split
    · simp
    · have hd : d.key ≠ c.key := h d (by simp)
      simp only [List.find?_cons, hd, decide_false]
      exact RegFile.find_ins_self r fun e he => h e (by simp [he])

/-- Dropping the cells of a key changes no other cell's value. -/
theorem RegFile.find_filter_ne {k j : Key} (h : j ≠ k) (r : RegFile) :
    (r.filter fun c => decide (c.key ≠ k)).find? (fun d => decide (d.key = j)) = r.find? (fun d => decide (d.key = j)) := by
  rw [List.find?_filter]
  congr 1
  funext c
  by_cases hc : c.key = j
  · simp [hc, h]
  · simp [hc]

/-- A cell just written holds the value, cut to its width. -/
theorem RegFile.get_put_self (r : RegFile) (k : Key) (v : Nat) : (r.put k v).get k = v % 2 ^ k.width := by
  unfold RegFile.put RegFile.get
  by_cases hv : v % 2 ^ k.width = k.reset
  · have : (r.filter fun c => decide (c.key ≠ k)).find? (fun d => decide (d.key = k)) = none := by
      rw [List.find?_eq_none]; intro c hc; simpa using (List.mem_filter.mp hc).2
    simp only [hv, if_true, this]
  · have := RegFile.find_ins_self (c := ⟨k, v % 2 ^ k.width⟩) (r.filter fun c => decide (c.key ≠ k))
      (fun d hd => by simpa using (List.mem_filter.mp hd).2)
    simp only at this
    simp only [hv, if_false, this]

/-- Every other cell keeps its value. -/
theorem RegFile.get_put_ne (r : RegFile) {k j : Key} (h : j ≠ k) (v : Nat) : (r.put k v).get j = r.get j := by
  unfold RegFile.put RegFile.get
  by_cases hv : v % 2 ^ k.width = k.reset
  · simp only [hv, if_true]
    rw [RegFile.find_filter_ne h]
  · simp only [hv, if_false]
    rw [RegFile.find_ins_ne (c := ⟨k, v % 2 ^ k.width⟩) (Ne.symm h), RegFile.find_filter_ne h]

theorem RegFile.get_put (r : RegFile) (k j : Key) (v : Nat) :
    (r.put k v).get j = if j = k then v % 2 ^ k.width else r.get j := by
  split
  · subst_vars; exact RegFile.get_put_self r _ v
  · exact RegFile.get_put_ne r ‹_› v

/-! ### The order of the cells -/

theorem PkgF.ctorIdx_lt (f : PkgF) : f.ctorIdx < 256 := by cases f <;> decide

theorem PkgF.ctorIdx_inj {f g : PkgF} (h : f.ctorIdx = g.ctorIdx) : f = g := by
  rw [← PkgF.ofNat_ctorIdx f, ← PkgF.ofNat_ctorIdx g, h]

theorem HostF.ctorIdx_lt (f : HostF) : f.ctorIdx < 256 := by cases f <;> decide

theorem HostF.ctorIdx_inj {f g : HostF} (h : f.ctorIdx = g.ctorIdx) : f = g := by
  rw [← HostF.ofNat_ctorIdx f, ← HostF.ofNat_ctorIdx g, h]

theorem DescF.ctorIdx_lt (f : DescF) : f.ctorIdx < 256 := by cases f <;> decide

theorem DescF.ctorIdx_inj {f g : DescF} (h : f.ctorIdx = g.ctorIdx) : f = g := by
  rw [← DescF.ofNat_ctorIdx f, ← DescF.ofNat_ctorIdx g, h]

theorem PwrF.ctorIdx_lt (f : PwrF) : f.ctorIdx < 256 := by cases f <;> decide

theorem PwrF.ctorIdx_inj {f g : PwrF} (h : f.ctorIdx = g.ctorIdx) : f = g := by
  rw [← PwrF.ofNat_ctorIdx f, ← PwrF.ofNat_ctorIdx g, h]

theorem IrqF.ctorIdx_lt (f : IrqF) : f.ctorIdx < 256 := by cases f <;> decide

theorem IrqF.ctorIdx_inj {f g : IrqF} (h : f.ctorIdx = g.ctorIdx) : f = g := by
  rw [← IrqF.ofNat_ctorIdx f, ← IrqF.ofNat_ctorIdx g, h]

theorem BootF.ctorIdx_lt (f : BootF) : f.ctorIdx < 256 := by cases f <;> decide

theorem BootF.ctorIdx_inj {f g : BootF} (h : f.ctorIdx = g.ctorIdx) : f = g := by
  rw [← BootF.ofNat_ctorIdx f, ← BootF.ofNat_ctorIdx g, h]

theorem FltF.ctorIdx_lt (f : FltF) : f.ctorIdx < 256 := by cases f <;> decide

theorem FltF.ctorIdx_inj {f g : FltF} (h : f.ctorIdx = g.ctorIdx) : f = g := by
  rw [← FltF.ofNat_ctorIdx f, ← FltF.ofNat_ctorIdx g, h]

theorem TelF.ctorIdx_lt (f : TelF) : f.ctorIdx < 256 := by cases f <;> decide

theorem TelF.ctorIdx_inj {f g : TelF} (h : f.ctorIdx = g.ctorIdx) : f = g := by
  rw [← TelF.ofNat_ctorIdx f, ← TelF.ofNat_ctorIdx g, h]

theorem ThmF.ctorIdx_lt (f : ThmF) : f.ctorIdx < 256 := by cases f <;> decide

theorem ThmF.ctorIdx_inj {f g : ThmF} (h : f.ctorIdx = g.ctorIdx) : f = g := by
  rw [← ThmF.ofNat_ctorIdx f, ← ThmF.ofNat_ctorIdx g, h]

theorem CoreF.ctorIdx_lt (f : CoreF) : f.ctorIdx < 256 := by cases f <;> decide

theorem CoreF.ctorIdx_inj {f g : CoreF} (h : f.ctorIdx = g.ctorIdx) : f = g := by
  rw [← CoreF.ofNat_ctorIdx f, ← CoreF.ofNat_ctorIdx g, h]

theorem TileF.ctorIdx_lt (f : TileF) : f.ctorIdx < 256 := by cases f <;> decide

theorem TileF.ctorIdx_inj {f g : TileF} (h : f.ctorIdx = g.ctorIdx) : f = g := by
  rw [← TileF.ofNat_ctorIdx f, ← TileF.ofNat_ctorIdx g, h]

theorem AttnF.ctorIdx_lt (f : AttnF) : f.ctorIdx < 256 := by cases f <;> decide

theorem AttnF.ctorIdx_inj {f g : AttnF} (h : f.ctorIdx = g.ctorIdx) : f = g := by
  rw [← AttnF.ofNat_ctorIdx f, ← AttnF.ofNat_ctorIdx g, h]

theorem KvF.ctorIdx_lt (f : KvF) : f.ctorIdx < 256 := by cases f <;> decide

theorem KvF.ctorIdx_inj {f g : KvF} (h : f.ctorIdx = g.ctorIdx) : f = g := by
  rw [← KvF.ofNat_ctorIdx f, ← KvF.ofNat_ctorIdx g, h]

theorem SchedF.ctorIdx_lt (f : SchedF) : f.ctorIdx < 256 := by cases f <;> decide

theorem SchedF.ctorIdx_inj {f g : SchedF} (h : f.ctorIdx = g.ctorIdx) : f = g := by
  rw [← SchedF.ofNat_ctorIdx f, ← SchedF.ofNat_ctorIdx g, h]

theorem FabF.ctorIdx_lt (f : FabF) : f.ctorIdx < 256 := by cases f <;> decide

theorem FabF.ctorIdx_inj {f g : FabF} (h : f.ctorIdx = g.ctorIdx) : f = g := by
  rw [← FabF.ofNat_ctorIdx f, ← FabF.ofNat_ctorIdx g, h]

theorem CollF.ctorIdx_lt (f : CollF) : f.ctorIdx < 256 := by cases f <;> decide

theorem CollF.ctorIdx_inj {f g : CollF} (h : f.ctorIdx = g.ctorIdx) : f = g := by
  rw [← CollF.ofNat_ctorIdx f, ← CollF.ofNat_ctorIdx g, h]

theorem EgrF.ctorIdx_lt (f : EgrF) : f.ctorIdx < 256 := by cases f <;> decide

theorem EgrF.ctorIdx_inj {f g : EgrF} (h : f.ctorIdx = g.ctorIdx) : f = g := by
  rw [← EgrF.ofNat_ctorIdx f, ← EgrF.ofNat_ctorIdx g, h]

theorem TimF.ctorIdx_lt (f : TimF) : f.ctorIdx < 256 := by cases f <;> decide

theorem TimF.ctorIdx_inj {f g : TimF} (h : f.ctorIdx = g.ctorIdx) : f = g := by
  rw [← TimF.ofNat_ctorIdx f, ← TimF.ofNat_ctorIdx g, h]

theorem SecF.ctorIdx_lt (f : SecF) : f.ctorIdx < 256 := by cases f <;> decide

theorem SecF.ctorIdx_inj {f g : SecF} (h : f.ctorIdx = g.ctorIdx) : f = g := by
  rw [← SecF.ofNat_ctorIdx f, ← SecF.ofNat_ctorIdx g, h]

/-- The chapter of a field. -/
def Fld.block : Fld → Nat
  | .pkg _ => 0
  | .host _ => 1
  | .desc _ => 2
  | .pwr _ => 3
  | .irq _ => 4
  | .boot _ => 5
  | .flt _ => 6
  | .tel _ => 7
  | .thm _ => 8
  | .core _ => 9
  | .tile _ => 10
  | .attn _ => 11
  | .kv _ => 12
  | .sched _ => 13
  | .fab _ => 14
  | .coll _ => 15
  | .egr _ => 16
  | .tim _ => 17
  | .sec _ => 18

/-- The number of a field in its chapter. -/
def Fld.inBlock : Fld → Nat
  | .pkg f => f.ctorIdx
  | .host f => f.ctorIdx
  | .desc f => f.ctorIdx
  | .pwr f => f.ctorIdx
  | .irq f => f.ctorIdx
  | .boot f => f.ctorIdx
  | .flt f => f.ctorIdx
  | .tel f => f.ctorIdx
  | .thm f => f.ctorIdx
  | .core f => f.ctorIdx
  | .tile f => f.ctorIdx
  | .attn f => f.ctorIdx
  | .kv f => f.ctorIdx
  | .sched f => f.ctorIdx
  | .fab f => f.ctorIdx
  | .coll f => f.ctorIdx
  | .egr f => f.ctorIdx
  | .tim f => f.ctorIdx
  | .sec f => f.ctorIdx

theorem Fld.inBlock_lt (f : Fld) : f.inBlock < 256 := by
  cases f <;> simp only [Fld.inBlock]
  · exact PkgF.ctorIdx_lt _
  · exact HostF.ctorIdx_lt _
  · exact DescF.ctorIdx_lt _
  · exact PwrF.ctorIdx_lt _
  · exact IrqF.ctorIdx_lt _
  · exact BootF.ctorIdx_lt _
  · exact FltF.ctorIdx_lt _
  · exact TelF.ctorIdx_lt _
  · exact ThmF.ctorIdx_lt _
  · exact CoreF.ctorIdx_lt _
  · exact TileF.ctorIdx_lt _
  · exact AttnF.ctorIdx_lt _
  · exact KvF.ctorIdx_lt _
  · exact SchedF.ctorIdx_lt _
  · exact FabF.ctorIdx_lt _
  · exact CollF.ctorIdx_lt _
  · exact EgrF.ctorIdx_lt _
  · exact TimF.ctorIdx_lt _
  · exact SecF.ctorIdx_lt _

theorem Fld.block_lt (f : Fld) : f.block < 19 := by cases f <;> simp [Fld.block]

theorem Fld.code_eq (f : Fld) : f.code = f.block * 256 + f.inBlock := by
  cases f <;> rfl

theorem Fld.code_lt (f : Fld) : f.code < 8192 := by
  have := f.inBlock_lt
  have := f.block_lt
  rw [Fld.code_eq]; omega

/-- Different fields have different numbers. -/
theorem Fld.code_inj {f g : Fld} (h : f.code = g.code) : f = g := by
  have hf := f.inBlock_lt
  have hg := g.inBlock_lt
  rw [Fld.code_eq, Fld.code_eq] at h
  have hb : f.block = g.block := by omega
  have hi : f.inBlock = g.inBlock := by omega
  cases f <;> cases g <;> simp only [Fld.block, reduceCtorEq, Nat.reduceEqDiff] at hb <;> simp only [Fld.inBlock] at hi
  · rw [PkgF.ctorIdx_inj hi]
  · rw [HostF.ctorIdx_inj hi]
  · rw [DescF.ctorIdx_inj hi]
  · rw [PwrF.ctorIdx_inj hi]
  · rw [IrqF.ctorIdx_inj hi]
  · rw [BootF.ctorIdx_inj hi]
  · rw [FltF.ctorIdx_inj hi]
  · rw [TelF.ctorIdx_inj hi]
  · rw [ThmF.ctorIdx_inj hi]
  · rw [CoreF.ctorIdx_inj hi]
  · rw [TileF.ctorIdx_inj hi]
  · rw [AttnF.ctorIdx_inj hi]
  · rw [KvF.ctorIdx_inj hi]
  · rw [SchedF.ctorIdx_inj hi]
  · rw [FabF.ctorIdx_inj hi]
  · rw [CollF.ctorIdx_inj hi]
  · rw [EgrF.ctorIdx_inj hi]
  · rw [TimF.ctorIdx_inj hi]
  · rw [SecF.ctorIdx_inj hi]

/-- Different cells have different places in the order. -/
theorem Key.code_inj {k j : Key} (h : k.code = j.code) : k = j := by
  obtain ⟨f, a, i⟩ := k
  obtain ⟨g, b, n⟩ := j
  have hf := f.code_lt
  have hg := g.code_lt
  simp only [Key.code] at h
  have ha : a.num < 2 := by cases a <;> decide
  have hb : b.num < 2 := by cases b <;> decide
  have hfg : f = g := Fld.code_inj (by omega)
  have hin : i = n := by omega
  have hab : a.num = b.num := by omega
  have : a = b := by cases a <;> cases b <;> first | rfl | (exact absurd hab (by decide))
  subst hfg hin this
  rfl

/-! ### The canonical form -/

/-- The canonical form as a proposition. -/
theorem RegFile.wf_iff (r : RegFile) : r.wf = true ↔
    (∀ c ∈ r, c.val < 2 ^ c.key.width ∧ c.val ≠ c.key.reset) ∧ r.Pairwise fun a b => a.key.code < b.key.code := by
  simp [RegFile.wf, List.all_eq_true]

theorem RegFile.mem_ins {c d : RegCell} : ∀ {r : RegFile}, d ∈ RegFile.ins r c ↔ d = c ∨ d ∈ r
  | [] => by simp [RegFile.ins]
  | e :: r => by
    unfold RegFile.ins
    split
    · simp
    · simp only [List.mem_cons, RegFile.mem_ins (r := r)]
      tauto

theorem RegFile.pairwise_ins {c : RegCell} : ∀ {r : RegFile}, (∀ d ∈ r, d.key ≠ c.key) →
    (r.Pairwise fun a b => a.key.code < b.key.code) → (RegFile.ins r c).Pairwise fun a b => a.key.code < b.key.code
  | [], _, _ => by simp [RegFile.ins]
  | d :: r, h, hp => by
    unfold RegFile.ins
    have hp' := List.pairwise_cons.mp hp
    split
    · rename_i hlt
      refine List.pairwise_cons.mpr ⟨fun e he => ?_, hp⟩
      rcases List.mem_cons.mp he with rfl | he
      · exact hlt
      · exact lt_trans hlt (hp'.1 e he)
    · rename_i hge
      have hne : d.key.code ≠ c.key.code := fun q => h d (by simp) (Key.code_inj q)
      refine List.pairwise_cons.mpr ⟨fun e he => ?_, RegFile.pairwise_ins (fun e he => h e (by simp [he])) hp'.2⟩
      rcases RegFile.mem_ins.mp he with rfl | he
      · omega
      · exact hp'.1 e he

/-- Any selection of cells keeps the canonical form. -/
theorem RegFile.wf_filter {r : RegFile} (p : RegCell → Bool) (h : r.wf = true) : RegFile.wf (r.filter p) = true := by
  rw [RegFile.wf_iff] at *
  exact ⟨fun c hc => h.1 c (List.mem_filter.mp hc).1, h.2.filter p⟩

/-- A write keeps the canonical form. -/
theorem RegFile.wf_put {r : RegFile} (k : Key) (v : Nat) (h : r.wf = true) : (r.put k v).wf = true := by
  have hf := RegFile.wf_filter (fun c => decide (c.key ≠ k)) h
  unfold RegFile.put
  by_cases hv : v % 2 ^ k.width = k.reset
  · simp only [hv, if_true]; exact hf
  · simp only [hv, if_false]
    rw [RegFile.wf_iff] at *
    refine ⟨fun c hc => ?_, RegFile.pairwise_ins (fun d hd => by simpa using (List.mem_filter.mp hd).2) hf.2⟩
    rcases RegFile.mem_ins.mp hc with rfl | hc
    · exact ⟨Nat.mod_lt _ (by positivity), hv⟩
    · exact hf.1 c hc

/-- In the canonical form every cell reads within its width. -/
theorem RegFile.get_lt {r : RegFile} (h : r.wf = true) (k : Key) : r.get k < 2 ^ k.width := by
  unfold RegFile.get
  split
  · rename_i c hc
    have hk : c.key = k := by simpa using List.find?_some hc
    exact hk ▸ (((RegFile.wf_iff r).mp h).1 c (List.mem_of_find?_eq_some hc)).1
  · exact Nat.mod_lt _ (by positivity)

end Sys2Proof.Machine
end

