-- ==== Sys2Proof/Laws/State.lean ====
section
/-!
SUPPORT. Laws/State.lean: what a register read gives after each update of the state, and each field of the state after a register
write, an output and a drawn free value: one lemma per field per update.
-/

namespace Sys2Proof.Machine

/-! ### Register cells -/

/-- A register cell after a write: the value cut to the field's width in that cell, the old value in every other. -/
@[simp] theorem State.rd_wr (s : State) (f g : Fld) (h k : Half) (v i j : Nat) :
    (s.wr f h v i).rd g k j = if g = f ∧ k = h ∧ j = i then v % 2 ^ f.width else s.rd g k j := by
  unfold State.rd State.wr
  rw [RegFile.get_put]
  by_cases hc : g = f ∧ k = h ∧ j = i
  · obtain ⟨rfl, rfl, rfl⟩ := hc; simp [Key.width]
  · have : (⟨g, k, j⟩ : Key) ≠ ⟨f, h, i⟩ := by
      intro he; injection he with h1 h2 h3; exact hc ⟨h1, h2, h3⟩
    simp [hc, this]

theorem State.rd_wr_self (s : State) (f : Fld) (h : Half) (v i : Nat) : (s.wr f h v i).rd f h i = v % 2 ^ f.width := by simp

/-- A count after it is raised: it saturates at its width. -/
@[simp] theorem State.rd_inc (s : State) (f g : Fld) (h k : Half) (n i j : Nat) :
    (s.inc f h n i).rd g k j = if g = f ∧ k = h ∧ j = i then satAdd f.width (s.rd f h i) n % 2 ^ f.width else s.rd g k j := by
  simp [State.inc]

theorem satAdd_lt (w x n : Nat) : satAdd w x n < 2 ^ w := by
  have : 0 < 2 ^ w := by positivity
  unfold satAdd
  omega

theorem State.rd_inc_self (s : State) (f : Fld) (h : Half) (n i : Nat) :
    (s.inc f h n i).rd f h i = min (s.rd f h i + n) (2 ^ f.width - 1) := by
  rw [State.rd_inc, if_pos ⟨rfl, rfl, rfl⟩, Nat.mod_eq_of_lt (satAdd_lt _ _ _), satAdd]

@[simp] theorem State.rd_emit (s : State) (o : Output) (f : Fld) (h : Half) (i : Nat) : (s.emit o).rd f h i = s.rd f h i := rfl

@[simp] theorem State.rd_drawFree (s : State) (f : Fld) (h : Half) (i : Nat) : (drawFree s).rd f h i = s.rd f h i := rfl

/-! ### A register read looks at no other part of the state -/

@[simp] theorem State.rd_with_mem (s : State) (x : Memory) (f : Fld) (h : Half) (i : Nat) :
    State.rd { s with mem := x } f h i = s.rd f h i := rfl

@[simp] theorem State.rd_with_slots (s : State) (x : Memory) (f : Fld) (h : Half) (i : Nat) :
    State.rd { s with slots := x } f h i = s.rd f h i := rfl

@[simp] theorem State.rd_with_plans (s : State) (x : Memory) (f : Fld) (h : Half) (i : Nat) :
    State.rd { s with plans := x } f h i = s.rd f h i := rfl

@[simp] theorem State.rd_with_egrRx (s : State) (x : List (Half × List Byte × List Byte)) (f : Fld) (h : Half) (i : Nat) :
    State.rd { s with egrRx := x } f h i = s.rd f h i := rfl

@[simp] theorem State.rd_with_ptp (s : State) (x : List PtpMaster) (f : Fld) (h : Half) (i : Nat) :
    State.rd { s with ptp := x } f h i = s.rd f h i := rfl

@[simp] theorem State.rd_with_fetches (s : State) (x : List Fetch) (f : Fld) (h : Half) (i : Nat) :
    State.rd { s with fetches := x } f h i = s.rd f h i := rfl

@[simp] theorem State.rd_with_chains (s : State) (x : List Chain) (f : Fld) (h : Half) (i : Nat) :
    State.rd { s with chains := x } f h i = s.rd f h i := rfl

@[simp] theorem State.rd_with_readNo (s : State) (x : Nat) (f : Fld) (h : Half) (i : Nat) :
    State.rd { s with readNo := x } f h i = s.rd f h i := rfl

@[simp] theorem State.rd_with_requests (s : State) (x : List Request) (f : Fld) (h : Half) (i : Nat) :
    State.rd { s with requests := x } f h i = s.rd f h i := rfl

@[simp] theorem State.rd_with_contexts (s : State) (x : List Context) (f : Fld) (h : Half) (i : Nat) :
    State.rd { s with contexts := x } f h i = s.rd f h i := rfl

@[simp] theorem State.rd_with_streams (s : State) (x : List Stream) (f : Fld) (h : Half) (i : Nat) :
    State.rd { s with streams := x } f h i = s.rd f h i := rfl

@[simp] theorem State.rd_with_nodes (s : State) (x : List PfxNode) (f : Fld) (h : Half) (i : Nat) :
    State.rd { s with nodes := x } f h i = s.rd f h i := rfl

@[simp] theorem State.rd_with_transfers (s : State) (x : List Transfer) (f : Fld) (h : Half) (i : Nat) :
    State.rd { s with transfers := x } f h i = s.rd f h i := rfl

@[simp] theorem State.rd_with_valley (s : State) (x : List ValleyPage) (f : Fld) (h : Half) (i : Nat) :
    State.rd { s with valley := x } f h i = s.rd f h i := rfl

@[simp] theorem State.rd_with_slotWait (s : State) (x : List (Half × Nat)) (f : Fld) (h : Half) (i : Nat) :
    State.rd { s with slotWait := x } f h i = s.rd f h i := rfl

@[simp] theorem State.rd_with_orphans (s : State) (x : List Orphan) (f : Fld) (h : Half) (i : Nat) :
    State.rd { s with orphans := x } f h i = s.rd f h i := rfl

@[simp] theorem State.rd_with_dieLines (s : State) (x : List DieLine) (f : Fld) (h : Half) (i : Nat) :
    State.rd { s with dieLines := x } f h i = s.rd f h i := rfl

@[simp] theorem State.rd_with_doorbells (s : State) (x : List Doorbell) (f : Fld) (h : Half) (i : Nat) :
    State.rd { s with doorbells := x } f h i = s.rd f h i := rfl

@[simp] theorem State.rd_with_poolUnits (s : State) (x : List PoolUnit) (f : Fld) (h : Half) (i : Nat) :
    State.rd { s with poolUnits := x } f h i = s.rd f h i := rfl

@[simp] theorem State.rd_with_poolReqs (s : State) (x : List PoolReq) (f : Fld) (h : Half) (i : Nat) :
    State.rd { s with poolReqs := x } f h i = s.rd f h i := rfl

@[simp] theorem State.rd_with_handovers (s : State) (x : List Handover) (f : Fld) (h : Half) (i : Nat) :
    State.rd { s with handovers := x } f h i = s.rd f h i := rfl

@[simp] theorem State.rd_with_links (s : State) (x : List Link) (f : Fld) (h : Half) (i : Nat) :
    State.rd { s with links := x } f h i = s.rd f h i := rfl

@[simp] theorem State.rd_with_arrived (s : State) (x : List RxPkt) (f : Fld) (h : Half) (i : Nat) :
    State.rd { s with arrived := x } f h i = s.rd f h i := rfl

@[simp] theorem State.rd_with_localPkts (s : State) (x : List (Half × Packet)) (f : Fld) (h : Half) (i : Nat) :
    State.rd { s with localPkts := x } f h i = s.rd f h i := rfl

@[simp] theorem State.rd_with_colls (s : State) (x : List Coll) (f : Fld) (h : Half) (i : Nat) :
    State.rd { s with colls := x } f h i = s.rd f h i := rfl

@[simp] theorem State.rd_with_collPend (s : State) (x : List (Half × Packet)) (f : Fld) (h : Half) (i : Nat) :
    State.rd { s with collPend := x } f h i = s.rd f h i := rfl

@[simp] theorem State.rd_with_aborted (s : State) (x : List (Half × Nat × Nat)) (f : Fld) (h : Half) (i : Nat) :
    State.rd { s with aborted := x } f h i = s.rd f h i := rfl

@[simp] theorem State.rd_with_keys (s : State) (x : List SecKey) (f : Fld) (h : Half) (i : Nat) :
    State.rd { s with keys := x } f h i = s.rd f h i := rfl

@[simp] theorem State.rd_with_peerKeys (s : State) (x : List SecKey) (f : Fld) (h : Half) (i : Nat) :
    State.rd { s with peerKeys := x } f h i = s.rd f h i := rfl

@[simp] theorem State.rd_with_peerParts (s : State) (x : List PartEntry) (f : Fld) (h : Half) (i : Nat) :
    State.rd { s with peerParts := x } f h i = s.rd f h i := rfl

@[simp] theorem State.rd_with_mirrors (s : State) (x : List Mirror) (f : Fld) (h : Half) (i : Nat) :
    State.rd { s with mirrors := x } f h i = s.rd f h i := rfl

@[simp] theorem State.rd_with_spdm (s : State) (x : List SpdmSession) (f : Fld) (h : Half) (i : Nat) :
    State.rd { s with spdm := x } f h i = s.rd f h i := rfl

@[simp] theorem State.rd_with_faultRecs (s : State) (x : List (Half × FaultRec × Nat)) (f : Fld) (h : Half) (i : Nat) :
    State.rd { s with faultRecs := x } f h i = s.rd f h i := rfl

@[simp] theorem State.rd_with_ueTimes (s : State) (x : List (Half × Nat)) (f : Fld) (h : Half) (i : Nat) :
    State.rd { s with ueTimes := x } f h i = s.rd f h i := rfl

@[simp] theorem State.rd_with_ldgBuf (s : State) (x : List (Half × LdgRec)) (f : Fld) (h : Half) (i : Nat) :
    State.rd { s with ldgBuf := x } f h i = s.rd f h i := rfl

@[simp] theorem State.rd_with_ldgFlash (s : State) (x : List LdgSlot) (f : Fld) (h : Half) (i : Nat) :
    State.rd { s with ldgFlash := x } f h i = s.rd f h i := rfl

@[simp] theorem State.rd_with_ldgPages (s : State) (x : List LdgPage) (f : Fld) (h : Half) (i : Nat) :
    State.rd { s with ldgPages := x } f h i = s.rd f h i := rfl

@[simp] theorem State.rd_with_imageA (s : State) (x : Option FlashImage) (f : Fld) (h : Half) (i : Nat) :
    State.rd { s with imageA := x } f h i = s.rd f h i := rfl

@[simp] theorem State.rd_with_imageB (s : State) (x : Option FlashImage) (f : Fld) (h : Half) (i : Nat) :
    State.rd { s with imageB := x } f h i = s.rd f h i := rfl

@[simp] theorem State.rd_with_config (s : State) (x : Option FlashImage) (f : Fld) (h : Half) (i : Nat) :
    State.rd { s with config := x } f h i = s.rd f h i := rfl

@[simp] theorem State.rd_with_records (s : State) (x : List (Half × FlashImage)) (f : Fld) (h : Half) (i : Nat) :
    State.rd { s with records := x } f h i = s.rd f h i := rfl

@[simp] theorem State.rd_with_keySlots (s : State) (x : List (List Byte)) (f : Fld) (h : Half) (i : Nat) :
    State.rd { s with keySlots := x } f h i = s.rd f h i := rfl

@[simp] theorem State.rd_with_subImages (s : State) (x : List (List Byte)) (f : Fld) (h : Half) (i : Nat) :
    State.rd { s with subImages := x } f h i = s.rd f h i := rfl

@[simp] theorem State.rd_with_ldgRdData (s : State) (x : List (Half × List Byte)) (f : Fld) (h : Half) (i : Nat) :
    State.rd { s with ldgRdData := x } f h i = s.rd f h i := rfl

@[simp] theorem State.rd_with_ldgForeign (s : State) (x : Bool) (f : Fld) (h : Half) (i : Nat) :
    State.rd { s with ldgForeign := x } f h i = s.rd f h i := rfl

@[simp] theorem State.rd_with_history (s : State) (x : List LdgRec) (f : Fld) (h : Half) (i : Nat) :
    State.rd { s with history := x } f h i = s.rd f h i := rfl

@[simp] theorem State.rd_with_pldmUnacked (s : State) (x : List LdgRec) (f : Fld) (h : Half) (i : Nat) :
    State.rd { s with pldmUnacked := x } f h i = s.rd f h i := rfl

@[simp] theorem State.rd_with_schedLog (s : State) (x : List SchedEvt) (f : Fld) (h : Half) (i : Nat) :
    State.rd { s with schedLog := x } f h i = s.rd f h i := rfl

@[simp] theorem State.rd_with_gens (s : State) (x : List (Half × Generation)) (f : Fld) (h : Half) (i : Nat) :
    State.rd { s with gens := x } f h i = s.rd f h i := rfl

@[simp] theorem State.rd_with_genCopy (s : State) (x : List (Half × Generation)) (f : Fld) (h : Half) (i : Nat) :
    State.rd { s with genCopy := x } f h i = s.rd f h i := rfl

@[simp] theorem State.rd_with_freeCount (s : State) (x : Nat) (f : Fld) (h : Half) (i : Nat) :
    State.rd { s with freeCount := x } f h i = s.rd f h i := rfl

@[simp] theorem State.rd_with_out (s : State) (x : List Output) (f : Fld) (h : Half) (i : Nat) :
    State.rd { s with out := x } f h i = s.rd f h i := rfl

@[simp] theorem State.rd_with_pending (s : State) (x : List Instr) (f : Fld) (h : Half) (i : Nat) :
    State.rd { s with pending := x } f h i = s.rd f h i := rfl

/-! ### A register write changes no other part of the state -/

@[simp] theorem State.wr_mem (s : State) (f : Fld) (h : Half) (v i : Nat) : (s.wr f h v i).mem = s.mem := rfl

@[simp] theorem State.wr_slots (s : State) (f : Fld) (h : Half) (v i : Nat) : (s.wr f h v i).slots = s.slots := rfl

@[simp] theorem State.wr_plans (s : State) (f : Fld) (h : Half) (v i : Nat) : (s.wr f h v i).plans = s.plans := rfl

@[simp] theorem State.wr_egrRx (s : State) (f : Fld) (h : Half) (v i : Nat) : (s.wr f h v i).egrRx = s.egrRx := rfl

@[simp] theorem State.wr_ptp (s : State) (f : Fld) (h : Half) (v i : Nat) : (s.wr f h v i).ptp = s.ptp := rfl

@[simp] theorem State.wr_fetches (s : State) (f : Fld) (h : Half) (v i : Nat) : (s.wr f h v i).fetches = s.fetches := rfl

@[simp] theorem State.wr_chains (s : State) (f : Fld) (h : Half) (v i : Nat) : (s.wr f h v i).chains = s.chains := rfl

@[simp] theorem State.wr_readNo (s : State) (f : Fld) (h : Half) (v i : Nat) : (s.wr f h v i).readNo = s.readNo := rfl

@[simp] theorem State.wr_requests (s : State) (f : Fld) (h : Half) (v i : Nat) : (s.wr f h v i).requests = s.requests := rfl

@[simp] theorem State.wr_contexts (s : State) (f : Fld) (h : Half) (v i : Nat) : (s.wr f h v i).contexts = s.contexts := rfl

@[simp] theorem State.wr_streams (s : State) (f : Fld) (h : Half) (v i : Nat) : (s.wr f h v i).streams = s.streams := rfl

@[simp] theorem State.wr_nodes (s : State) (f : Fld) (h : Half) (v i : Nat) : (s.wr f h v i).nodes = s.nodes := rfl

@[simp] theorem State.wr_transfers (s : State) (f : Fld) (h : Half) (v i : Nat) : (s.wr f h v i).transfers = s.transfers := rfl

@[simp] theorem State.wr_valley (s : State) (f : Fld) (h : Half) (v i : Nat) : (s.wr f h v i).valley = s.valley := rfl

@[simp] theorem State.wr_slotWait (s : State) (f : Fld) (h : Half) (v i : Nat) : (s.wr f h v i).slotWait = s.slotWait := rfl

@[simp] theorem State.wr_orphans (s : State) (f : Fld) (h : Half) (v i : Nat) : (s.wr f h v i).orphans = s.orphans := rfl

@[simp] theorem State.wr_dieLines (s : State) (f : Fld) (h : Half) (v i : Nat) : (s.wr f h v i).dieLines = s.dieLines := rfl

@[simp] theorem State.wr_doorbells (s : State) (f : Fld) (h : Half) (v i : Nat) : (s.wr f h v i).doorbells = s.doorbells := rfl

@[simp] theorem State.wr_poolUnits (s : State) (f : Fld) (h : Half) (v i : Nat) : (s.wr f h v i).poolUnits = s.poolUnits := rfl

@[simp] theorem State.wr_poolReqs (s : State) (f : Fld) (h : Half) (v i : Nat) : (s.wr f h v i).poolReqs = s.poolReqs := rfl

@[simp] theorem State.wr_handovers (s : State) (f : Fld) (h : Half) (v i : Nat) : (s.wr f h v i).handovers = s.handovers := rfl

@[simp] theorem State.wr_links (s : State) (f : Fld) (h : Half) (v i : Nat) : (s.wr f h v i).links = s.links := rfl

@[simp] theorem State.wr_arrived (s : State) (f : Fld) (h : Half) (v i : Nat) : (s.wr f h v i).arrived = s.arrived := rfl

@[simp] theorem State.wr_localPkts (s : State) (f : Fld) (h : Half) (v i : Nat) : (s.wr f h v i).localPkts = s.localPkts := rfl

@[simp] theorem State.wr_colls (s : State) (f : Fld) (h : Half) (v i : Nat) : (s.wr f h v i).colls = s.colls := rfl

@[simp] theorem State.wr_collPend (s : State) (f : Fld) (h : Half) (v i : Nat) : (s.wr f h v i).collPend = s.collPend := rfl

@[simp] theorem State.wr_aborted (s : State) (f : Fld) (h : Half) (v i : Nat) : (s.wr f h v i).aborted = s.aborted := rfl

@[simp] theorem State.wr_keys (s : State) (f : Fld) (h : Half) (v i : Nat) : (s.wr f h v i).keys = s.keys := rfl

@[simp] theorem State.wr_peerKeys (s : State) (f : Fld) (h : Half) (v i : Nat) : (s.wr f h v i).peerKeys = s.peerKeys := rfl

@[simp] theorem State.wr_peerParts (s : State) (f : Fld) (h : Half) (v i : Nat) : (s.wr f h v i).peerParts = s.peerParts := rfl

@[simp] theorem State.wr_mirrors (s : State) (f : Fld) (h : Half) (v i : Nat) : (s.wr f h v i).mirrors = s.mirrors := rfl

@[simp] theorem State.wr_spdm (s : State) (f : Fld) (h : Half) (v i : Nat) : (s.wr f h v i).spdm = s.spdm := rfl

@[simp] theorem State.wr_faultRecs (s : State) (f : Fld) (h : Half) (v i : Nat) : (s.wr f h v i).faultRecs = s.faultRecs := rfl

@[simp] theorem State.wr_ueTimes (s : State) (f : Fld) (h : Half) (v i : Nat) : (s.wr f h v i).ueTimes = s.ueTimes := rfl

@[simp] theorem State.wr_ldgBuf (s : State) (f : Fld) (h : Half) (v i : Nat) : (s.wr f h v i).ldgBuf = s.ldgBuf := rfl

@[simp] theorem State.wr_ldgFlash (s : State) (f : Fld) (h : Half) (v i : Nat) : (s.wr f h v i).ldgFlash = s.ldgFlash := rfl

@[simp] theorem State.wr_ldgPages (s : State) (f : Fld) (h : Half) (v i : Nat) : (s.wr f h v i).ldgPages = s.ldgPages := rfl

@[simp] theorem State.wr_imageA (s : State) (f : Fld) (h : Half) (v i : Nat) : (s.wr f h v i).imageA = s.imageA := rfl

@[simp] theorem State.wr_imageB (s : State) (f : Fld) (h : Half) (v i : Nat) : (s.wr f h v i).imageB = s.imageB := rfl

@[simp] theorem State.wr_config (s : State) (f : Fld) (h : Half) (v i : Nat) : (s.wr f h v i).config = s.config := rfl

@[simp] theorem State.wr_records (s : State) (f : Fld) (h : Half) (v i : Nat) : (s.wr f h v i).records = s.records := rfl

@[simp] theorem State.wr_keySlots (s : State) (f : Fld) (h : Half) (v i : Nat) : (s.wr f h v i).keySlots = s.keySlots := rfl

@[simp] theorem State.wr_subImages (s : State) (f : Fld) (h : Half) (v i : Nat) : (s.wr f h v i).subImages = s.subImages := rfl

@[simp] theorem State.wr_ldgRdData (s : State) (f : Fld) (h : Half) (v i : Nat) : (s.wr f h v i).ldgRdData = s.ldgRdData := rfl

@[simp] theorem State.wr_ldgForeign (s : State) (f : Fld) (h : Half) (v i : Nat) : (s.wr f h v i).ldgForeign = s.ldgForeign := rfl

@[simp] theorem State.wr_history (s : State) (f : Fld) (h : Half) (v i : Nat) : (s.wr f h v i).history = s.history := rfl

@[simp] theorem State.wr_pldmUnacked (s : State) (f : Fld) (h : Half) (v i : Nat) : (s.wr f h v i).pldmUnacked = s.pldmUnacked := rfl

@[simp] theorem State.wr_schedLog (s : State) (f : Fld) (h : Half) (v i : Nat) : (s.wr f h v i).schedLog = s.schedLog := rfl

@[simp] theorem State.wr_gens (s : State) (f : Fld) (h : Half) (v i : Nat) : (s.wr f h v i).gens = s.gens := rfl

@[simp] theorem State.wr_genCopy (s : State) (f : Fld) (h : Half) (v i : Nat) : (s.wr f h v i).genCopy = s.genCopy := rfl

@[simp] theorem State.wr_freeCount (s : State) (f : Fld) (h : Half) (v i : Nat) : (s.wr f h v i).freeCount = s.freeCount := rfl

@[simp] theorem State.wr_out (s : State) (f : Fld) (h : Half) (v i : Nat) : (s.wr f h v i).out = s.out := rfl

@[simp] theorem State.wr_pending (s : State) (f : Fld) (h : Half) (v i : Nat) : (s.wr f h v i).pending = s.pending := rfl

@[simp] theorem State.inc_mem (s : State) (f : Fld) (h : Half) (n i : Nat) : (s.inc f h n i).mem = s.mem := rfl

@[simp] theorem State.inc_slots (s : State) (f : Fld) (h : Half) (n i : Nat) : (s.inc f h n i).slots = s.slots := rfl

@[simp] theorem State.inc_plans (s : State) (f : Fld) (h : Half) (n i : Nat) : (s.inc f h n i).plans = s.plans := rfl

@[simp] theorem State.inc_egrRx (s : State) (f : Fld) (h : Half) (n i : Nat) : (s.inc f h n i).egrRx = s.egrRx := rfl

@[simp] theorem State.inc_ptp (s : State) (f : Fld) (h : Half) (n i : Nat) : (s.inc f h n i).ptp = s.ptp := rfl

@[simp] theorem State.inc_fetches (s : State) (f : Fld) (h : Half) (n i : Nat) : (s.inc f h n i).fetches = s.fetches := rfl

@[simp] theorem State.inc_chains (s : State) (f : Fld) (h : Half) (n i : Nat) : (s.inc f h n i).chains = s.chains := rfl

@[simp] theorem State.inc_readNo (s : State) (f : Fld) (h : Half) (n i : Nat) : (s.inc f h n i).readNo = s.readNo := rfl

@[simp] theorem State.inc_requests (s : State) (f : Fld) (h : Half) (n i : Nat) : (s.inc f h n i).requests = s.requests := rfl

@[simp] theorem State.inc_contexts (s : State) (f : Fld) (h : Half) (n i : Nat) : (s.inc f h n i).contexts = s.contexts := rfl

@[simp] theorem State.inc_streams (s : State) (f : Fld) (h : Half) (n i : Nat) : (s.inc f h n i).streams = s.streams := rfl

@[simp] theorem State.inc_nodes (s : State) (f : Fld) (h : Half) (n i : Nat) : (s.inc f h n i).nodes = s.nodes := rfl

@[simp] theorem State.inc_transfers (s : State) (f : Fld) (h : Half) (n i : Nat) : (s.inc f h n i).transfers = s.transfers := rfl

@[simp] theorem State.inc_valley (s : State) (f : Fld) (h : Half) (n i : Nat) : (s.inc f h n i).valley = s.valley := rfl

@[simp] theorem State.inc_slotWait (s : State) (f : Fld) (h : Half) (n i : Nat) : (s.inc f h n i).slotWait = s.slotWait := rfl

@[simp] theorem State.inc_orphans (s : State) (f : Fld) (h : Half) (n i : Nat) : (s.inc f h n i).orphans = s.orphans := rfl

@[simp] theorem State.inc_dieLines (s : State) (f : Fld) (h : Half) (n i : Nat) : (s.inc f h n i).dieLines = s.dieLines := rfl

@[simp] theorem State.inc_doorbells (s : State) (f : Fld) (h : Half) (n i : Nat) : (s.inc f h n i).doorbells = s.doorbells := rfl

@[simp] theorem State.inc_poolUnits (s : State) (f : Fld) (h : Half) (n i : Nat) : (s.inc f h n i).poolUnits = s.poolUnits := rfl

@[simp] theorem State.inc_poolReqs (s : State) (f : Fld) (h : Half) (n i : Nat) : (s.inc f h n i).poolReqs = s.poolReqs := rfl

@[simp] theorem State.inc_handovers (s : State) (f : Fld) (h : Half) (n i : Nat) : (s.inc f h n i).handovers = s.handovers := rfl

@[simp] theorem State.inc_links (s : State) (f : Fld) (h : Half) (n i : Nat) : (s.inc f h n i).links = s.links := rfl

@[simp] theorem State.inc_arrived (s : State) (f : Fld) (h : Half) (n i : Nat) : (s.inc f h n i).arrived = s.arrived := rfl

@[simp] theorem State.inc_localPkts (s : State) (f : Fld) (h : Half) (n i : Nat) : (s.inc f h n i).localPkts = s.localPkts := rfl

@[simp] theorem State.inc_colls (s : State) (f : Fld) (h : Half) (n i : Nat) : (s.inc f h n i).colls = s.colls := rfl

@[simp] theorem State.inc_collPend (s : State) (f : Fld) (h : Half) (n i : Nat) : (s.inc f h n i).collPend = s.collPend := rfl

@[simp] theorem State.inc_aborted (s : State) (f : Fld) (h : Half) (n i : Nat) : (s.inc f h n i).aborted = s.aborted := rfl

@[simp] theorem State.inc_keys (s : State) (f : Fld) (h : Half) (n i : Nat) : (s.inc f h n i).keys = s.keys := rfl

@[simp] theorem State.inc_peerKeys (s : State) (f : Fld) (h : Half) (n i : Nat) : (s.inc f h n i).peerKeys = s.peerKeys := rfl

@[simp] theorem State.inc_peerParts (s : State) (f : Fld) (h : Half) (n i : Nat) : (s.inc f h n i).peerParts = s.peerParts := rfl

@[simp] theorem State.inc_mirrors (s : State) (f : Fld) (h : Half) (n i : Nat) : (s.inc f h n i).mirrors = s.mirrors := rfl

@[simp] theorem State.inc_spdm (s : State) (f : Fld) (h : Half) (n i : Nat) : (s.inc f h n i).spdm = s.spdm := rfl

@[simp] theorem State.inc_faultRecs (s : State) (f : Fld) (h : Half) (n i : Nat) : (s.inc f h n i).faultRecs = s.faultRecs := rfl

@[simp] theorem State.inc_ueTimes (s : State) (f : Fld) (h : Half) (n i : Nat) : (s.inc f h n i).ueTimes = s.ueTimes := rfl

@[simp] theorem State.inc_ldgBuf (s : State) (f : Fld) (h : Half) (n i : Nat) : (s.inc f h n i).ldgBuf = s.ldgBuf := rfl

@[simp] theorem State.inc_ldgFlash (s : State) (f : Fld) (h : Half) (n i : Nat) : (s.inc f h n i).ldgFlash = s.ldgFlash := rfl

@[simp] theorem State.inc_ldgPages (s : State) (f : Fld) (h : Half) (n i : Nat) : (s.inc f h n i).ldgPages = s.ldgPages := rfl

@[simp] theorem State.inc_imageA (s : State) (f : Fld) (h : Half) (n i : Nat) : (s.inc f h n i).imageA = s.imageA := rfl

@[simp] theorem State.inc_imageB (s : State) (f : Fld) (h : Half) (n i : Nat) : (s.inc f h n i).imageB = s.imageB := rfl

@[simp] theorem State.inc_config (s : State) (f : Fld) (h : Half) (n i : Nat) : (s.inc f h n i).config = s.config := rfl

@[simp] theorem State.inc_records (s : State) (f : Fld) (h : Half) (n i : Nat) : (s.inc f h n i).records = s.records := rfl

@[simp] theorem State.inc_keySlots (s : State) (f : Fld) (h : Half) (n i : Nat) : (s.inc f h n i).keySlots = s.keySlots := rfl

@[simp] theorem State.inc_subImages (s : State) (f : Fld) (h : Half) (n i : Nat) : (s.inc f h n i).subImages = s.subImages := rfl

@[simp] theorem State.inc_ldgRdData (s : State) (f : Fld) (h : Half) (n i : Nat) : (s.inc f h n i).ldgRdData = s.ldgRdData := rfl

@[simp] theorem State.inc_ldgForeign (s : State) (f : Fld) (h : Half) (n i : Nat) : (s.inc f h n i).ldgForeign = s.ldgForeign := rfl

@[simp] theorem State.inc_history (s : State) (f : Fld) (h : Half) (n i : Nat) : (s.inc f h n i).history = s.history := rfl

@[simp] theorem State.inc_pldmUnacked (s : State) (f : Fld) (h : Half) (n i : Nat) : (s.inc f h n i).pldmUnacked = s.pldmUnacked := rfl

@[simp] theorem State.inc_schedLog (s : State) (f : Fld) (h : Half) (n i : Nat) : (s.inc f h n i).schedLog = s.schedLog := rfl

@[simp] theorem State.inc_gens (s : State) (f : Fld) (h : Half) (n i : Nat) : (s.inc f h n i).gens = s.gens := rfl

@[simp] theorem State.inc_genCopy (s : State) (f : Fld) (h : Half) (n i : Nat) : (s.inc f h n i).genCopy = s.genCopy := rfl

@[simp] theorem State.inc_freeCount (s : State) (f : Fld) (h : Half) (n i : Nat) : (s.inc f h n i).freeCount = s.freeCount := rfl

@[simp] theorem State.inc_out (s : State) (f : Fld) (h : Half) (n i : Nat) : (s.inc f h n i).out = s.out := rfl

@[simp] theorem State.inc_pending (s : State) (f : Fld) (h : Half) (n i : Nat) : (s.inc f h n i).pending = s.pending := rfl

/-! ### An output, and a drawn free value -/

@[simp] theorem State.emit_regs (s : State) (o : Output) : (s.emit o).regs = s.regs := rfl

@[simp] theorem State.emit_mem (s : State) (o : Output) : (s.emit o).mem = s.mem := rfl

@[simp] theorem State.emit_slots (s : State) (o : Output) : (s.emit o).slots = s.slots := rfl

@[simp] theorem State.emit_plans (s : State) (o : Output) : (s.emit o).plans = s.plans := rfl

@[simp] theorem State.emit_egrRx (s : State) (o : Output) : (s.emit o).egrRx = s.egrRx := rfl

@[simp] theorem State.emit_ptp (s : State) (o : Output) : (s.emit o).ptp = s.ptp := rfl

@[simp] theorem State.emit_fetches (s : State) (o : Output) : (s.emit o).fetches = s.fetches := rfl

@[simp] theorem State.emit_chains (s : State) (o : Output) : (s.emit o).chains = s.chains := rfl

@[simp] theorem State.emit_readNo (s : State) (o : Output) : (s.emit o).readNo = s.readNo := rfl

@[simp] theorem State.emit_requests (s : State) (o : Output) : (s.emit o).requests = s.requests := rfl

@[simp] theorem State.emit_contexts (s : State) (o : Output) : (s.emit o).contexts = s.contexts := rfl

@[simp] theorem State.emit_streams (s : State) (o : Output) : (s.emit o).streams = s.streams := rfl

@[simp] theorem State.emit_nodes (s : State) (o : Output) : (s.emit o).nodes = s.nodes := rfl

@[simp] theorem State.emit_transfers (s : State) (o : Output) : (s.emit o).transfers = s.transfers := rfl

@[simp] theorem State.emit_valley (s : State) (o : Output) : (s.emit o).valley = s.valley := rfl

@[simp] theorem State.emit_slotWait (s : State) (o : Output) : (s.emit o).slotWait = s.slotWait := rfl

@[simp] theorem State.emit_orphans (s : State) (o : Output) : (s.emit o).orphans = s.orphans := rfl

@[simp] theorem State.emit_dieLines (s : State) (o : Output) : (s.emit o).dieLines = s.dieLines := rfl

@[simp] theorem State.emit_doorbells (s : State) (o : Output) : (s.emit o).doorbells = s.doorbells := rfl

@[simp] theorem State.emit_poolUnits (s : State) (o : Output) : (s.emit o).poolUnits = s.poolUnits := rfl

@[simp] theorem State.emit_poolReqs (s : State) (o : Output) : (s.emit o).poolReqs = s.poolReqs := rfl

@[simp] theorem State.emit_handovers (s : State) (o : Output) : (s.emit o).handovers = s.handovers := rfl

@[simp] theorem State.emit_links (s : State) (o : Output) : (s.emit o).links = s.links := rfl

@[simp] theorem State.emit_arrived (s : State) (o : Output) : (s.emit o).arrived = s.arrived := rfl

@[simp] theorem State.emit_localPkts (s : State) (o : Output) : (s.emit o).localPkts = s.localPkts := rfl

@[simp] theorem State.emit_colls (s : State) (o : Output) : (s.emit o).colls = s.colls := rfl

@[simp] theorem State.emit_collPend (s : State) (o : Output) : (s.emit o).collPend = s.collPend := rfl

@[simp] theorem State.emit_aborted (s : State) (o : Output) : (s.emit o).aborted = s.aborted := rfl

@[simp] theorem State.emit_keys (s : State) (o : Output) : (s.emit o).keys = s.keys := rfl

@[simp] theorem State.emit_peerKeys (s : State) (o : Output) : (s.emit o).peerKeys = s.peerKeys := rfl

@[simp] theorem State.emit_peerParts (s : State) (o : Output) : (s.emit o).peerParts = s.peerParts := rfl

@[simp] theorem State.emit_mirrors (s : State) (o : Output) : (s.emit o).mirrors = s.mirrors := rfl

@[simp] theorem State.emit_spdm (s : State) (o : Output) : (s.emit o).spdm = s.spdm := rfl

@[simp] theorem State.emit_faultRecs (s : State) (o : Output) : (s.emit o).faultRecs = s.faultRecs := rfl

@[simp] theorem State.emit_ueTimes (s : State) (o : Output) : (s.emit o).ueTimes = s.ueTimes := rfl

@[simp] theorem State.emit_ldgBuf (s : State) (o : Output) : (s.emit o).ldgBuf = s.ldgBuf := rfl

@[simp] theorem State.emit_ldgFlash (s : State) (o : Output) : (s.emit o).ldgFlash = s.ldgFlash := rfl

@[simp] theorem State.emit_ldgPages (s : State) (o : Output) : (s.emit o).ldgPages = s.ldgPages := rfl

@[simp] theorem State.emit_imageA (s : State) (o : Output) : (s.emit o).imageA = s.imageA := rfl

@[simp] theorem State.emit_imageB (s : State) (o : Output) : (s.emit o).imageB = s.imageB := rfl

@[simp] theorem State.emit_config (s : State) (o : Output) : (s.emit o).config = s.config := rfl

@[simp] theorem State.emit_records (s : State) (o : Output) : (s.emit o).records = s.records := rfl

@[simp] theorem State.emit_keySlots (s : State) (o : Output) : (s.emit o).keySlots = s.keySlots := rfl

@[simp] theorem State.emit_subImages (s : State) (o : Output) : (s.emit o).subImages = s.subImages := rfl

@[simp] theorem State.emit_ldgRdData (s : State) (o : Output) : (s.emit o).ldgRdData = s.ldgRdData := rfl

@[simp] theorem State.emit_ldgForeign (s : State) (o : Output) : (s.emit o).ldgForeign = s.ldgForeign := rfl

@[simp] theorem State.emit_history (s : State) (o : Output) : (s.emit o).history = s.history := rfl

@[simp] theorem State.emit_pldmUnacked (s : State) (o : Output) : (s.emit o).pldmUnacked = s.pldmUnacked := rfl

@[simp] theorem State.emit_schedLog (s : State) (o : Output) : (s.emit o).schedLog = s.schedLog := rfl

@[simp] theorem State.emit_gens (s : State) (o : Output) : (s.emit o).gens = s.gens := rfl

@[simp] theorem State.emit_genCopy (s : State) (o : Output) : (s.emit o).genCopy = s.genCopy := rfl

@[simp] theorem State.emit_freeCount (s : State) (o : Output) : (s.emit o).freeCount = s.freeCount := rfl

@[simp] theorem State.emit_out (s : State) (o : Output) : (s.emit o).out = s.out ++ [o] := rfl

@[simp] theorem State.emit_pending (s : State) (o : Output) : (s.emit o).pending = s.pending := rfl

@[simp] theorem drawFree_regs (s : State) : (drawFree s).regs = s.regs := rfl

@[simp] theorem drawFree_mem (s : State) : (drawFree s).mem = s.mem := rfl

@[simp] theorem drawFree_slots (s : State) : (drawFree s).slots = s.slots := rfl

@[simp] theorem drawFree_plans (s : State) : (drawFree s).plans = s.plans := rfl

@[simp] theorem drawFree_egrRx (s : State) : (drawFree s).egrRx = s.egrRx := rfl

@[simp] theorem drawFree_ptp (s : State) : (drawFree s).ptp = s.ptp := rfl

@[simp] theorem drawFree_fetches (s : State) : (drawFree s).fetches = s.fetches := rfl

@[simp] theorem drawFree_chains (s : State) : (drawFree s).chains = s.chains := rfl

@[simp] theorem drawFree_readNo (s : State) : (drawFree s).readNo = s.readNo := rfl

@[simp] theorem drawFree_requests (s : State) : (drawFree s).requests = s.requests := rfl

@[simp] theorem drawFree_contexts (s : State) : (drawFree s).contexts = s.contexts := rfl

@[simp] theorem drawFree_streams (s : State) : (drawFree s).streams = s.streams := rfl

@[simp] theorem drawFree_nodes (s : State) : (drawFree s).nodes = s.nodes := rfl

@[simp] theorem drawFree_transfers (s : State) : (drawFree s).transfers = s.transfers := rfl

@[simp] theorem drawFree_valley (s : State) : (drawFree s).valley = s.valley := rfl

@[simp] theorem drawFree_slotWait (s : State) : (drawFree s).slotWait = s.slotWait := rfl

@[simp] theorem drawFree_orphans (s : State) : (drawFree s).orphans = s.orphans := rfl

@[simp] theorem drawFree_dieLines (s : State) : (drawFree s).dieLines = s.dieLines := rfl

@[simp] theorem drawFree_doorbells (s : State) : (drawFree s).doorbells = s.doorbells := rfl

@[simp] theorem drawFree_poolUnits (s : State) : (drawFree s).poolUnits = s.poolUnits := rfl

@[simp] theorem drawFree_poolReqs (s : State) : (drawFree s).poolReqs = s.poolReqs := rfl

@[simp] theorem drawFree_handovers (s : State) : (drawFree s).handovers = s.handovers := rfl

@[simp] theorem drawFree_links (s : State) : (drawFree s).links = s.links := rfl

@[simp] theorem drawFree_arrived (s : State) : (drawFree s).arrived = s.arrived := rfl

@[simp] theorem drawFree_localPkts (s : State) : (drawFree s).localPkts = s.localPkts := rfl

@[simp] theorem drawFree_colls (s : State) : (drawFree s).colls = s.colls := rfl

@[simp] theorem drawFree_collPend (s : State) : (drawFree s).collPend = s.collPend := rfl

@[simp] theorem drawFree_aborted (s : State) : (drawFree s).aborted = s.aborted := rfl

@[simp] theorem drawFree_keys (s : State) : (drawFree s).keys = s.keys := rfl

@[simp] theorem drawFree_peerKeys (s : State) : (drawFree s).peerKeys = s.peerKeys := rfl

@[simp] theorem drawFree_peerParts (s : State) : (drawFree s).peerParts = s.peerParts := rfl

@[simp] theorem drawFree_mirrors (s : State) : (drawFree s).mirrors = s.mirrors := rfl

@[simp] theorem drawFree_spdm (s : State) : (drawFree s).spdm = s.spdm := rfl

@[simp] theorem drawFree_faultRecs (s : State) : (drawFree s).faultRecs = s.faultRecs := rfl

@[simp] theorem drawFree_ueTimes (s : State) : (drawFree s).ueTimes = s.ueTimes := rfl

@[simp] theorem drawFree_ldgBuf (s : State) : (drawFree s).ldgBuf = s.ldgBuf := rfl

@[simp] theorem drawFree_ldgFlash (s : State) : (drawFree s).ldgFlash = s.ldgFlash := rfl

@[simp] theorem drawFree_ldgPages (s : State) : (drawFree s).ldgPages = s.ldgPages := rfl

@[simp] theorem drawFree_imageA (s : State) : (drawFree s).imageA = s.imageA := rfl

@[simp] theorem drawFree_imageB (s : State) : (drawFree s).imageB = s.imageB := rfl

@[simp] theorem drawFree_config (s : State) : (drawFree s).config = s.config := rfl

@[simp] theorem drawFree_records (s : State) : (drawFree s).records = s.records := rfl

@[simp] theorem drawFree_keySlots (s : State) : (drawFree s).keySlots = s.keySlots := rfl

@[simp] theorem drawFree_subImages (s : State) : (drawFree s).subImages = s.subImages := rfl

@[simp] theorem drawFree_ldgRdData (s : State) : (drawFree s).ldgRdData = s.ldgRdData := rfl

@[simp] theorem drawFree_ldgForeign (s : State) : (drawFree s).ldgForeign = s.ldgForeign := rfl

@[simp] theorem drawFree_history (s : State) : (drawFree s).history = s.history := rfl

@[simp] theorem drawFree_pldmUnacked (s : State) : (drawFree s).pldmUnacked = s.pldmUnacked := rfl

@[simp] theorem drawFree_schedLog (s : State) : (drawFree s).schedLog = s.schedLog := rfl

@[simp] theorem drawFree_gens (s : State) : (drawFree s).gens = s.gens := rfl

@[simp] theorem drawFree_genCopy (s : State) : (drawFree s).genCopy = s.genCopy := rfl

@[simp] theorem drawFree_freeCount (s : State) : (drawFree s).freeCount = s.freeCount + 1 := rfl

@[simp] theorem drawFree_out (s : State) : (drawFree s).out = s.out := rfl

@[simp] theorem drawFree_pending (s : State) : (drawFree s).pending = s.pending := rfl

/-! ### Resets -/

@[simp] theorem State.rd_reset (f : Fld) (h : Half) (i : Nat) : State.reset.rd f h i = f.reset h i % 2 ^ f.width := rfl

end Sys2Proof.Machine
end

