-- ==== Sys2Proof/Laws/Only.lean ====
section
/-!
SUPPORT. Laws/Only.lean: how the list of changed register cells grows with each register write (`Only` of Safety.lean).
-/

namespace Sys2Proof

open Machine

theorem Only.refl (s : State) : Only s s [] := ⟨fun _ _ _ => rfl, rfl⟩

theorem valueIn_cons (l : List CellVal) (a k : Fld × Half × Nat) (v : Nat) :
    valueIn ((a, v) :: l) k = if a = k then some v else valueIn l k := by
  unfold valueIn
  rw [List.find?_cons]
  split <;> rename_i h
  · rw [if_pos (by simpa using h)]; rfl
  · rw [if_neg (by simpa using h)]

theorem RegsOnly.wr {s t : State} {l : List CellVal} (ho : RegsOnly s t l) (f : Fld) (h : Half) (v i : Nat) :
    RegsOnly s (t.wr f h v i) (((f, h, i), v % 2 ^ f.width) :: l) := by
  intro g k j
  rw [valueIn_cons, State.rd_wr]
  by_cases hc : g = f ∧ k = h ∧ j = i
  · obtain ⟨rfl, rfl, rfl⟩ := hc
    simp
  · rw [if_neg hc, if_neg (by rintro ⟨⟩; exact hc ⟨rfl, rfl, rfl⟩)]
    exact ho g k j

theorem Only.wr {s t : State} {l : List CellVal} (ho : Only s t l) (f : Fld) (h : Half) (v i : Nat) :
    Only s (t.wr f h v i) (((f, h, i), v % 2 ^ f.width) :: l) := ⟨ho.1.wr f h v i, ho.2⟩

theorem Only.wr_lt {s t : State} {l : List CellVal} (ho : Only s t l) {f : Fld} {h : Half} {v i : Nat} (hv : v < 2 ^ f.width) :
    Only s (t.wr f h v i) (((f, h, i), v) :: l) := by
  have := ho.wr f h v i
  rwa [Nat.mod_eq_of_lt hv] at this

end Sys2Proof
end

