-- ==== Sys2Proof/Laws/Touch.lean ====
section
/-!
SUPPORT. Laws/Touch.lean: what each shared operation that moves registers and outputs alone can change (`Touches` of Safety.lean):
messages, causes, counters, histograms, claims and pins.
-/

namespace Sys2Proof

open Machine

theorem Touches.refl (s : State) (fs : List Fld) : Touches s s fs := ⟨fun _ _ _ _ => rfl, rfl⟩

theorem Touches.trans {s t u : State} {fs : List Fld} (h1 : Touches s t fs) (h2 : Touches t u fs) : Touches s u fs := by
  refine ⟨fun f h i hf => (h2.1 f h i hf).trans (h1.1 f h i hf), ?_⟩
  have e : { u with regs := s.regs, out := s.out } = { t with regs := s.regs, out := s.out } := by
    have := congrArg (fun x : State => { x with regs := s.regs, out := s.out }) h2.2
    simpa using this
  exact e.trans h1.2

theorem Touches.mono {s t : State} {fs gs : List Fld} (h : Touches s t fs) (hs : ∀ f ∈ fs, f ∈ gs) : Touches s t gs :=
  ⟨fun f k i hf => h.1 f k i fun hm => hf (hs f hm), h.2⟩

theorem Touches.rd {s t : State} {fs : List Fld} (ht : Touches s t fs) {f : Fld} (hf : f ∉ fs) (h : Half) (i : Nat) :
    t.rd f h i = s.rd f h i := ht.1 f h i hf

theorem Touches.wr {s t : State} {fs : List Fld} (ht : Touches s t fs) {f : Fld} (hf : f ∈ fs) (h : Half) (v i : Nat) :
    Touches s (t.wr f h v i) fs := by
  refine ⟨fun g k j hg => ?_, ht.2⟩
  rw [State.rd_wr, if_neg (by rintro ⟨rfl, -, -⟩; exact hg hf)]
  exact ht.1 g k j hg

theorem Touches.inc {s t : State} {fs : List Fld} (ht : Touches s t fs) {f : Fld} (hf : f ∈ fs) (h : Half) (n i : Nat) :
    Touches s (t.inc f h n i) fs := ht.wr hf h _ i

theorem Touches.emit {s t : State} {fs : List Fld} (ht : Touches s t fs) (o : Output) : Touches s (t.emit o) fs :=
  ⟨ht.1, ht.2⟩

theorem Touches.ite {s a b : State} {fs : List Fld} {c : Prop} [Decidable c] (ha : Touches s a fs) (hb : Touches s b fs) :
    Touches s (if c then a else b) fs := by split <;> assumption

theorem Touches.foldl {α : Type} {s t : State} {fs : List Fld} {f : State → α → State} (ht : Touches s t fs)
    (hf : ∀ u x, Touches s u fs → Touches s (f u x) fs) (l : List α) : Touches s (l.foldl f t) fs := by
  induction l generalizing t with
  | nil => exact ht
  | cons x r ih => exact ih (hf t x ht)

/-- The fields that a message can change: the pending bit of its vector, and the counts of telemetry. -/
def msgFields : List Fld := [.host .MSIX_PBA, .tel .LIVE_SLOT]

theorem Touches.bump {s t : State} {fs : List Fld} (ht : Touches s t fs) (hf : Fld.tel .LIVE_SLOT ∈ fs) (h : Half) (g k n : Nat) :
    Touches s (bump t h g k n) fs := ht.inc hf h n _

theorem Touches.sendMsix {s t : State} {fs : List Fld} (ht : Touches s t fs) (hm : ∀ f ∈ msgFields, f ∈ fs) (h : Half) (fn vec : Nat) :
    Touches s (sendMsix t h fn vec) fs := by
  unfold Machine.sendMsix
  refine Touches.ite (ht.wr (hm _ (by simp [msgFields])) h 1 _) (Touches.ite ?_ ht)
  exact (ht.bump (hm _ (by simp [msgFields])) h _ _ _).emit _

theorem Touches.routeMessage {s t : State} {fs : List Fld} (ht : Touches s t fs) (hm : ∀ f ∈ msgFields, f ∈ fs) (h : Half) (k r : Nat) :
    Touches s (routeMessage t h k r) fs := by
  unfold Machine.routeMessage
  exact Touches.ite (ht.sendMsix hm h _ _) ht

theorem Touches.raiseCause {s t : State} {fs : List Fld} (ht : Touches s t fs) (hm : ∀ f ∈ msgFields, f ∈ fs) {k : Nat}
    (hk : (causeReg k).1 ∈ fs) (h : Half) (b : Nat) : Touches s (raiseCause t k h b) fs := by
  unfold Machine.raiseCause
  exact (ht.wr hk h _ _).routeMessage hm h k _

theorem Touches.raisePwr {s t : State} {fs : List Fld} (ht : Touches s t fs) (hm : ∀ f ∈ msgFields, f ∈ fs)
    (hk : Fld.pwr .PWR_EVT ∈ fs) (b : Nat) : Touches s (raisePwr t b) fs := by
  unfold Machine.raisePwr
  exact ((ht.wr hk .h0 _ _).routeMessage hm _ _ _).routeMessage hm _ _ _

theorem Touches.raiseTherm {s t : State} {fs : List Fld} (ht : Touches s t fs) (hm : ∀ f ∈ msgFields, f ∈ fs)
    (hk : Fld.thm .THERM_EVENT ∈ fs) (b : Nat) : Touches s (raiseTherm t b) fs := by
  unfold Machine.raiseTherm
  split
  · exact ht.raiseCause hm (k := 2) hk _ _
  · exact ht

theorem Touches.raiseFunc {s t : State} {fs : List Fld} (ht : Touches s t fs) (hm : ∀ f ∈ msgFields, f ∈ fs)
    (hk : Fld.host .FUNC_IRQ ∈ fs) (h : Half) (fn b : Nat) : Touches s (raiseFunc t h fn b) fs := by
  unfold Machine.raiseFunc
  exact Touches.ite ((ht.wr hk h _ _).sendMsix hm h _ _) (ht.wr hk h _ _)

theorem Touches.ringErr {s t : State} {fs : List Fld} (ht : Touches s t fs) (hm : ∀ f ∈ msgFields, f ∈ fs)
    (hk : Fld.host .FUNC_IRQ ∈ fs) (hr : Fld.host .RING_ERR ∈ fs) (h : Half) (ring b : Nat) : Touches s (ringErr t h ring b) fs :=
  (ht.wr hr h _ _).raiseFunc hm hk h _ _

/-- The cause register of a route after its bits are set: each bit that is set, and every bit that was (R588). -/
theorem rd_raiseCause_self (s : State) (k : Nat) (h : Half) (b : Nat) (hk : (causeReg k).1 ∉ msgFields) :
    (raiseCause s k h b).rd (causeReg k).1 h (causeReg k).2 =
      setBits (s.rd (causeReg k).1 h (causeReg k).2) b % 2 ^ (causeReg k).1.width := by
  unfold Machine.raiseCause
  rw [((Touches.refl _ msgFields).routeMessage (fun _ x => x) h k _).rd hk]
  simp

/-- Every register but the cause register, the pending bits and the counts keeps its value when a cause is raised. -/
theorem rd_raiseCause_ne (s : State) (k : Nat) (h : Half) (b : Nat) {f : Fld} (hk : f ≠ (causeReg k).1) (hm : f ∉ msgFields) (g : Half)
    (i : Nat) : (raiseCause s k h b).rd f g i = s.rd f g i :=
  ((Touches.refl s ((causeReg k).1 :: msgFields)).raiseCause (fun _ x => by simp [x]) (by simp) h b).rd (by simp [hk, hm]) g i

theorem Touches.drivePin {s t : State} {fs : List Fld} (ht : Touches s t fs) (hl : Fld.thm .AUX_LEVEL ∈ fs) (h : Half) (p : AuxPin)
    (l : Nat) : Touches s (drivePin t h p l) fs := by
  unfold Machine.drivePin
  exact Touches.ite (ht.wr hl h _ _) ((ht.wr hl h _ _).emit _)

theorem Touches.histAdd {s t : State} {fs : List Fld} (ht : Touches s t fs)
    (hf : ∀ f ∈ [Fld.tel .HIST_BIN, .tel .HIST_COUNT, .tel .HIST_SUM, .tel .HIST_CFG_SUM_SAT, .tel .HIST_MAX], f ∈ fs) (h : Half) (k : Nat)
    (v : Int) : Touches s (histAdd t h k v) fs := by
  simp only [List.mem_cons, List.not_mem_nil, or_false, forall_eq_or_imp, forall_eq] at hf
  obtain ⟨h1, h2, h3, h4, h5⟩ := hf
  have hs := ((ht.inc h1 h 1 (k * 32 + histBin (t.rd (.tel .HIST_CFG_MODE) h k) (t.rd (.tel .HIST_CFG_U) h k)
    (signedOf 32 (t.rd (.tel .HIST_LO) h k)) v)).inc h2 h 1 k).wr h3 h
  unfold Machine.histAdd
  exact Touches.ite ((Touches.ite (hs _ k) ((hs _ k).wr h4 h 1 k)).wr h5 h _ k) (Touches.ite (hs _ k) ((hs _ k).wr h4 h 1 k))

end Sys2Proof
end

