-- ==== Sys2Proof/WellFormed.lean ====
section
/-!
DEFINITION. WellFormed.lean: the commands a sender can express: every operand within the width or the range that the spec gives it
(520 rings of a half, R146; functions 0 to 63 and the PF, R13; 16-bit indices, R149; register words of 32 and 64 bits, R133; and the
widths of the fields that the operands fill). A meaning is given to every command, well formed or not.
-/

namespace Sys2Proof

/-- The header fields of an image or a record have the sizes of Table 15.5, and its digests 48 bytes. -/
def FlashImage.wf (i : FlashImage) : Bool :=
  decide (i.magic < 2 ^ 32 ∧ i.hdrVer < 2 ^ 16 ∧ i.keySlot < 256 ∧ i.svn < 256 ∧ i.version < 2 ^ 32 ∧ i.length < 2 ^ 32 ∧
    i.pubkey.length = 96 ∧ i.digest.length = 48 ∧ i.rsvd.length = 96 ∧ i.sig.length = 96 ∧ (∀ d ∈ i.manifest, d.length = 48) ∧
    (∀ v ∈ i.settle, ∀ x ∈ v, x < 2 ^ 32) ∧ i.settle.length ≤ 4 ∧ (i.coRoot.length = 0 ∨ i.coRoot.length = 48) ∧
    ∀ x ∈ i.ledgerAt, x < 2 ^ 32)

/-- A place of an ECC error is one of the device. -/
def EccAt.wf (e : EccAt) : Bool :=
  match e with
  | .slot _ | .context .. => true
  | .engine _ ring seq => decide (ring < 520 ∧ seq < 65536)
  | .cacheLine line => decide (line < 2 ^ 29)

/-- Every operand of a command lies within its range. -/
def Instr.wf (i : Instr) : Bool :=
  match i with
  | .platRequest _ noticeMs target => decide (noticeMs < 2 ^ 8 ∧ target < 2 ^ 2)
  | .platCancel .. | .platPllLocked .. | .thermStart .. | .thermModeSet .. | .pwmReload .. | .pwmUpdate .. | .pwmEnable .. |
    .pwmDisable .. | .trigSyncPulse .. | .pinPulseEnd .. | .fbEdge .. | .fbZsTimeout .. | .fbWindowEnd .. | .fbModeSet .. |
    .fbClrGlitch .. | .auxKeyChange .. | .auxFaultDetect .. | .auxShortRetry .. | .auxOutputDrive .. | .poolCommit .. |
    .poolQuiesceSet .. | .poolGranuleRelease .. | .poolUnitComplete .. | .poolForceRelease .. | .setupLockSet .. | .setupLockAck .. |
    .perstAssert .. | .perstDeassert .. | .hotReset .. | .dlDown .. | .flrPf .. | .packetRoute .. | .portTrain .. | .portAdminDown .. |
    .portPartnerDetect .. | .portTrainTimeout .. | .laneDegradeDone .. | .downNoticeReceive .. | .flitSendSlot .. |
    .fabricReplayTimeout .. | .fabricReplayExhaust .. | .fabricRelockDone .. | .autoRt .. | .dieCacheInvalidate .. | .ctsReceive .. |
    .doneReceive .. | .countsReceive .. | .notchValueReceive .. | .notchBcastReceive .. | .notchAbortReceive .. | .pfxFlush .. |
    .budgetRefill .. | .schedSelect .. | .datagramSend .. | .egrEnable .. | .egrDisable .. | .egrLinkChange .. | .ackReceive .. |
    .resetReceive .. | .retxTimerExpire .. | .rateIncrease .. | .timeSnap .. | .beaconSend .. | .beaconReceive .. | .delayReqSend .. |
    .delayReqReceive .. | .delayRespReceive .. | .ptpDelayReqSend .. | .ppsInEdge | .passTimeTransfer .. | .ftSourceTimeout .. |
    .mtRateAdjust .. | .comparatorFire .. | .mirrorRecordReceive .. | .mirrorAckReceive .. | .mirrorCommitReceive .. |
    .mirrorAckTimeout .. | .mirrorPendingTimeout .. | .fwRemeasure .. | .secSelftest .. | .tamperDetect .. | .secZeroizeAll .. |
    .partGo .. | .partRelease .. | .releaseDrained .. | .releaseScrubDone .. | .kimpCommit .. | .kimpAbort .. | .kimpExpire .. |
    .spdmGetVersion .. | .spdmGetCapabilities .. | .spdmNegotiateAlgorithms .. | .spdmGetDigests .. | .spdmGetCertificate .. |
    .spdmChallenge .. | .spdmKeyExchange .. | .spdmHeartbeat .. | .spdmKeyUpdate .. | .spdmEndSession .. |
    .ideSecureLost .. | .ledgerScan .. | .ledgerAdopt .. | .fuseBlow .. | .strapSample .. | .romBoot .. | .selftestPreop .. |
    .startupHbmTrain .. | .lowlandExit .. | .powerGoodFall .. | .passFlitReceive .. | .passReplayExhaust .. | .passRealignDone .. |
    .passLockLost .. | .passSidebandLost .. | .passSidebandRegained .. | .roleMessageReceive .. | .roleGrantReceive .. |
    .roleSilenceTimeout .. | .nonholderTjCrit .. | .passRejoin .. | .mcHeartbeatSend .. | .mcHeartbeatReceive .. |
    .mcWatchdogExpire .. | .mcRestartDone .. | .mcRestartTimeout .. | .peerFailTimeout .. | .revokeRetry .. | .revokeReceive .. |
    .passWatchdogExpire .. | .ctxWatchdogExpire .. | .fltChipReset .. | .fltTrayCycle .. | .hubUnitFault .. | .dieLinkFail .. |
    .hbmChannelFail .. | .railExcursion .. | .diePgTimeout .. | .auxSupplyChange .. | .portEventReceive .. | .smbusStuck .. |
    .smbusStuckRetry .. | .mctpSetEndpointId .. | .mctpGetVersionSupport .. | .pldmBase .. | .mgmtRead .. |
    .mgmtWrite .. | .pkgServiceUpdate | .platPllTimeout | .platSwitchTime | .platDrainDone | .thermFailHoldExpire | .thermSensLossExpire |
    .thermAutoDownExpire | .powerGoodRise | .strapCompare | .roleSettle | .settleTimeout | .startupPcieReady | .startupPlateauEnable |
    .plateauEnablePllTimeout | .computeReady | .stageBoundExceeded | .lowlandEnter | .keyReconcile | .arbFuseBlow |
    .startupRoleArbitrate | .passRetrainAttempt | .genSnapshot | .bothMcFailForce | .ledgerProgram | .ledgerErase | .summaryHour |
    .mctpGetEndpointId | .mctpGetEndpointUuid | .mctpGetMsgTypeSupport | .smbAlertTimeout | .readinessQuery | .mctpChipReset |
    .mctpTrayCycle | .historyRead | .inputPowerOver | .pldmEventAck => true
  | .thermLoopPeriod tIn tOut tj => decide ((∀ x ∈ tIn, x < 2 ^ 16) ∧ (∀ x ∈ tOut, x < 2 ^ 16) ∧ tj < 2 ^ 16)
  | .thermConfigWrite _ _ v | .pwmShadowWrite _ _ _ v | .fbPositionWrite _ _ v | .fabTopologyWrite _ _ v | .routeTableWrite _ _ _ v |
    .grpCfgWrite _ _ _ v | .valleyConfigWrite _ _ _ v | .budgetCfgWrite _ _ v | .partyCfgWrite _ _ v | .shipPlanWrite _ _ _ v |
    .egrConfigWrite _ _ v | .ftWrite _ v | .timeCtlWrite _ v | .cmpEnable _ _ v | .ppsOutEnable _ v | .timeRelCtlWrite _ v |
    .partConfigWrite _ _ _ _ v | .shrWrite _ _ v | .histCfgWrite _ _ v => decide (v < 2 ^ 64)
  | .trigConfigWrite _ _ _ _ _ width at_ => decide (width < 2 ^ 32 ∧ at_ < 2 ^ 64)
  | .auxDiagClr _ mask | .irqRouteWrite _ _ _ _ mask | .telSnapWrite _ mask => decide (mask < 2 ^ 32)
  | .poolGranuleRequest _ _ n _ => decide (n ≤ 1024)
  | .ringConfigWrite _ ring _ v | .ringSchedWrite _ ring v => decide (ring < 520 ∧ v < 2 ^ 64)
  | .ringEnable _ ring | .ringDisable _ ring | .ringFstop _ ring | .ringStopDrained _ ring | .descFetch _ ring | .descFetchFail _ ring |
    .pinnedRead _ ring | .coalTimeExpire _ ring | .chainRead _ ring | .urgentStandingDispatch _ ring | .ringWatchdogExpire _ ring =>
    decide (ring < 520)
  | .doorbellWrite _ ring pi => decide (ring < 520 ∧ pi < 65536)
  | .descFetchComplete _ ring data => decide (ring < 520 ∧ data.length ≤ 4096)
  | .pinAllocWrite _ ring count => decide (ring < 520 ∧ count < 2 ^ 16)
  | .pinnedSlotWrite _ ring off data => decide (ring < 520 ∧ off < 4096 ∧ data.length ≤ 4096)
  | .cqDoorbellWrite _ ring ci => decide (ring < 520 ∧ ci < 65536)
  | .evtRingWrite _ fn _ _ | .bmeClear _ fn | .d3hotEnter _ fn => decide (fn < 65)
  | .msixUnmask _ fn vec => decide (fn < 65 ∧ vec < 64)
  | .flrVf _ vf => decide (vf < 64)
  | .pcieLinkUp _ width rate _ => decide (width < 2 ^ 32 ∧ rate < 16)
  | .vfEnableChange _ _ numVfs => decide (numVfs < 65)
  | .hostAccessFail _ (.chain ring seq) => decide (ring < 520 ∧ seq < 65536)
  | .hostAccessFail _ (.entries ring seq entry) => decide (ring < 520 ∧ seq < 65536 ∧ entry < 16384)
  | .hostAccessFail _ (.context _ _) => true
  | .hostAccessFail _ (.page num layer head page) => decide (num < 8192 ∧ layer < 2 ^ 16 ∧ head < 2 ^ 16 ∧ page < 2 ^ 16)
  | .chainComplete _ ring seq | .marker _ ring seq | .fence _ ring seq | .barrier _ ring seq |
    .timeWait _ ring seq | .eventOp _ ring seq | .cancel _ ring seq | .reqOpen _ ring seq | .reqClose _ ring seq | .matmul _ ring seq |
    .fused _ ring seq | .attn _ ring seq | .attnRing _ ring seq | .verify _ ring seq | .attnRingStep _ ring seq | .collRun _ ring seq |
    .collTimerExpire _ ring seq | .coll _ ring seq | .kvAlloc _ ring seq | .kvFree _ ring seq | .kvPin _ ring seq | .kvUnpin _ ring seq |
    .kvSpill _ ring seq | .kvPrefetch _ ring seq | .kvRollback _ ring seq | .kvPause _ ring seq | .kvResume _ ring seq |
    .kvPrefixLookup _ ring seq | .kvPrefixInsert _ ring seq | .genStepStart _ ring seq | .genStep _ ring seq | .copy _ ring seq |
    .adapterLoad _ ring seq | .ship _ ring seq => decide (ring < 520 ∧ seq < 65536)
  | .evcValWrite _ fn j v | .evcAddWrite _ fn j v => decide (fn < 65 ∧ j < 4096 ∧ v < 2 ^ 64)
  | .evcAllocWrite _ p base count | .reqAllocWrite _ p base count => decide (p < 64 ∧ base < 2 ^ 16 ∧ count < 2 ^ 16)
  | .requestFree _ num | .evictSlotHandover _ num => decide (num < 8192)
  | .packetInject _ dst ptype transport payload => decide (dst < 4096 ∧ ptype < 256 ∧ transport.length ≤ 24 ∧ payload.length ≤ 4096)
  | .portPmdTrainDone _ _ lanes | .portFecLock _ _ lanes | .laneFail _ _ lanes _ _ => decide (lanes < 256)
  | .initFlitReceive _ _ version node dir sizes =>
    decide (version < 256 ∧ node < 4096 ∧ dir < 8 ∧ (∀ x ∈ sizes, x < 2 ^ 16) ∧ sizes.length ≤ 16)
  | .degradeFlitReceive _ _ pair => decide (pair < 8)
  | .flitReceive _ _ bytes how => decide (bytes.length ≤ 320) && decide (how.control < 2 ^ 20)
  | .fabBufWrite _ _ lo hi => decide (lo < 2 ^ 32 ∧ hi < 2 ^ 32)
  | .rtSelWrite _ bank => decide (bank < 2 ^ 32)
  | .workFetch _ core _ | .workIndexReturn _ core _ | .bufferLoad _ core _ _ | .bufferLoadLanded _ core _ _ | .tilePass _ core _ |
    .splitkCombine _ core _ | .haloReceive _ core _ | .fusedPhase2Start _ core _ | .slotSwitch _ core _ | .contextDispatch _ core _ |
    .itemStart _ core _ | .tileBoundary _ core _ | .vectorStep _ core _ | .attnFold _ core _ | .attnComposedUnit _ core _ |
    .attnRangeCombine _ core _ | .attnDemandPrefetch _ core _ | .slotGrant _ core _ => decide (core < 256)
  | .spEccError _ core site off syndrome _ _ => decide (core < 256 ∧ off < 2 ^ 21 ∧ syndrome < 2 ^ 16) && site.wf
  | .coreCfgWrite _ core split => decide (core < 256 ∧ split < 2 ^ 32)
  | .coreCntClr _ core mask => decide (core < 256 ∧ mask < 2 ^ 32)
  | .attnRuleWrite _ splitMin composedMax => decide (splitMin < 2 ^ 32 ∧ composedMax < 2 ^ 32)
  | .attnRingBlockLanded _ ring seq keyBlock => decide (ring < 520 ∧ seq < 65536 ∧ (∀ x ∈ keyBlock, x < 2 ^ 16))
  | .collCtsSend _ ring seq seg => decide (ring < 520 ∧ seq < 65536 ∧ seg < 2 ^ 16)
  | .collDataReceive _ page head fill => decide (page < 2 ^ 16 ∧ head < 2 ^ 16 ∧ fill < 2 ^ 16)
  | .collCfgWrite _ tmo => decide (tmo < 2 ^ 32)
  | .valleySpillStart _ p => decide (p < 64)
  | .valleySpillIssued _ num layer head page | .valleyPrefetchLand _ num layer head page =>
    decide (num < 8192 ∧ layer < 2 ^ 16 ∧ head < 2 ^ 16 ∧ page < 2 ^ 16)
  | .lookaheadPrefetch _ num layer => decide (num < 8192 ∧ layer < 2 ^ 16)
  | .kvQuotaWrite _ _ i v => decide (i < 2 ^ 16 ∧ v < 2 ^ 64)
  | .adpAllocWrite _ _ base count => decide (base < 2 ^ 16 ∧ count < 2 ^ 16)
  | .egrFrameReceive _ frame => decide (frame.length ≤ 16384)
  | .ptpAnnounceReceive _ domain src dataset logInt =>
    decide (domain.number < 256 ∧ src < 2 ^ 80 ∧ (∀ x ∈ dataset, x < 2 ^ 64) ∧ logInt.natAbs < 64)
  | .ptpSyncReceive _ domain src seq _ origin corr | .ptpFollowUpReceive _ domain src seq origin corr =>
    decide (domain.number < 256 ∧ src < 2 ^ 80 ∧ seq < 65536 ∧ origin.natAbs < 2 ^ 96 ∧ corr.natAbs < 2 ^ 96)
  | .ptpDelayRespReceive _ domain src seq _ received corr =>
    decide (domain.number < 256 ∧ src < 2 ^ 80 ∧ seq < 65536 ∧ received.natAbs < 2 ^ 96 ∧ corr.natAbs < 2 ^ 96)
  | .kimpStart _ offer => decide (offer.party < 128)
  | .kimpPlain _ party => decide (party < 128)
  | .genCommitReceive _ rec_ => decide (rec_.length = 16)
  | .spdmFinish _ _ _ _ root => decide (root.length = 48)
  | .pldmFwUpdate _ _ image => image.wf
  | .spdmGetMeasurements _ _ index => decide (index < 256)
  | .ideKm _ _ _ _ key => decide (key < 2 ^ 256)
  | .ledgerRead _ seq | .ledgerReadMsg seq => decide (seq < 2 ^ 32)
  | .settleSample tOut tj => decide ((∀ x ∈ tOut, x < 2 ^ 16) ∧ tj < 2 ^ 16)
  | .startupDieTrain failed => decide (failed < 256)
  | .startupPassTrain _ spares0 spares1 | .passRetrainEnd _ spares0 spares1 => decide (spares0 < 2 ^ 16 ∧ spares1 < 2 ^ 16)
  | .startupCoreTest failing => decide ((∀ x ∈ failing, x < 512))
  | .hbmRead _ _ a len _ _ => decide (a < 2 ^ 64 ∧ len < 2 ^ 16)
  | .hbmWrite _ _ a data _ _ => decide (a < 2 ^ 64 ∧ data.length ≤ 4096)
  | .engineWatchdogExpire _ code | .engineStateError _ code _ => decide (code < 2 ^ 16)
  | .stepBoundExceeded _ _ unit => decide (unit < 2 ^ 16)
  | .fltCtxReset _ arg | .fltEngReset _ arg | .fltPartReset _ arg => decide (arg < 2 ^ 24)
  | .fltLogCiWrite _ fn v => decide (fn < 65 ∧ v < 2 ^ 64)
  | .pwrInputRead _ avg high => decide (avg < 2 ^ 16 ∧ high < 2 ^ 16)
  | .pldmGetPdr handle => decide (handle < 2 ^ 32)
  | .pldmGetSensorReading id tj => decide (id < 2 ^ 16 ∧ tj < 2 ^ 16)
  | .pldmGetStateSensors id => decide (id < 2 ^ 16)
  | .regWrite _ fn off _ v | .reg64WriteLow _ fn off v | .reg64WriteHigh _ fn off v => decide (fn < 65 ∧ off < 2 ^ 26 ∧ v < 2 ^ 64)
  | .narrowAccess _ fn _ off len data => decide (fn < 65 ∧ off < 2 ^ 26 ∧ len < 2 ^ 16 ∧ (∀ d ∈ data, d.length = len))
  | .unmappedAccess _ fn off _ | .rsReadLow _ fn off | .rsReadHigh _ fn off => decide (fn < 65 ∧ off < 2 ^ 26)
  | .counterSnap _ fn g => decide (fn < 65 ∧ g < 97)

end Sys2Proof
end

