-- ==== Sys2Proof/Tests/Slice0.lean ====
section
/-!
SUPPORT. Tests/Slice0.lean: an ill-formed term for each well-formedness check; for each statement a state and operands that meet its
hypotheses; and single steps whose expected values are the spec's own (the section is named at each).
-/

namespace Sys2Proof.Tests

open Sys2Proof.Machine

/-! ### Helpers -/

/-- The state after reset with some register cells changed. -/
def stateOf (l : List CellVal) : State := l.foldl (fun s c => s.wr c.1.1 c.1.2.1 c.2 c.1.2.2) State.reset

/-- A 64-byte descriptor head or block: the bytes at the given offsets, and zeros elsewhere. -/
def bytesOf (n : Nat) (l : List (Nat × Nat)) : List Byte :=
  (List.range n).map fun i => BitVec.ofNat 8 (((l.find? fun p => p.1 == i).map (·.2)).getD 0)

/-- A chain of half 0 that runs on ring 0, its head holding an opcode and other bytes. -/
def chainWith (op : Nat) (l : List (Nat × Nat)) : Chain :=
  { newChain State.reset .h0 0 0 (bytesOf 64 ((8, op) :: l)) [] 1 with stage := .admitted }

/-- A state with one chain. -/
def withChain (s : State) (c : Chain) : State := { s with chains := [c], readNo := 1 }

/-- A context of half 0 on core 0, slot 0, for the chain with read number 0. -/
def context0 : Context := newContext .h0 0 0 0 (some 0) false 0 0

/-- A request of half 0 with number 3, opened from ring 0. -/
def request3 : Request :=
  { half := .h0, num := 3, closing := false, ring := 0, seq := 0, tag := 0, admitted := true, pageMap := 0, tokens := 0, plan := 0,
    adapter := 0, maxNew := 8, closeNo := 0, devStatus := none, firstBad := none, silent := false, charged := 0, openMt := 0,
    paused := false, cancelled := false, outputs := 0, stopped := false, header := [], guestFree := 0, nodes := [], touched := [],
    pausedPages := [] }

/-- The roles on half 0, the Pass UP and both hubs running image A. -/
def running : List CellVal :=
  [cell (.flt .MC_STATUS_LATCH) .h0 0 1, cell (.pkg .PASS_STATUS_STATE) .h0 0 2, cell (.pkg .PASS_STATUS_STATE) .h1 0 2,
    cell (.boot .FW_RUNNING) .h0 0 1, cell (.boot .FW_RUNNING) .h1 0 1, cell (.boot .BOOT_STATUS_IMAGE) .h0 0 1,
    cell (.boot .BOOT_STATUS_IMAGE) .h1 0 1, cell (.thm .AUX_KEY_CABLE_OK) .h0 0 1, cell (.thm .AUX_DRIVING) .h0 0 1]

/-- A running device with some more cells changed. -/
def runningWith (l : List CellVal) : State := stateOf (running ++ l)

/-! ### Well-formedness: an ill-formed term for each check, which the check refuses -/

theorem test_wf_refuses_platform : ([.platRequest .h0 256 0, .platRequest .h0 2 4, .thermLoopPeriod (some 65536) none 0,
    .thermLoopPeriod none (some 65536) 0, .thermLoopPeriod none none 65536, .thermConfigWrite .h0 .rangeV (2 ^ 64),
    .pwmShadowWrite .h0 0 .duty (2 ^ 64), .fbPositionWrite .h0 0 (2 ^ 64), .trigConfigWrite .h0 0 true true 0 (2 ^ 32) 0,
    .trigConfigWrite .h0 0 true true 0 1 (2 ^ 64), .auxDiagClr .h0 (2 ^ 32), .poolGranuleRequest .h0 0 1025 none,
    .settleSample (some 65536) 0, .settleSample none 65536, .startupDieTrain 256, .startupPassTrain true 65536 0,
    .passRetrainEnd true 0 65536, .startupCoreTest [512], .pwrInputRead .h0 65536 0, .irqRouteWrite .h0 0 true 0 (2 ^ 32),
    .telSnapWrite .h0 (2 ^ 32)] : List Instr).all (fun i => !i.wf) = true := by decide

set_option maxRecDepth 40000 in
theorem test_wf_refuses_host : ([.ringConfigWrite .h0 520 .start 0, .ringConfigWrite .h0 0 .start (2 ^ 64), .ringSchedWrite .h0 520 0,
    .ringEnable .h0 520, .ringDisable .h0 520, .ringFstop .h0 520, .ringStopDrained .h0 520, .descFetch .h0 520, .descFetchFail .h0 520,
    .pinnedRead .h0 520, .coalTimeExpire .h0 520, .chainRead .h0 520, .urgentStandingDispatch .h0 520, .ringWatchdogExpire .h0 520,
    .doorbellWrite .h0 520 0, .doorbellWrite .h0 0 65536, .descFetchComplete .h0 0 (List.replicate 4097 0), .pinAllocWrite .h0 0 65536,
    .pinnedSlotWrite .h0 0 4096 [], .cqDoorbellWrite .h0 0 65536, .evtRingWrite .h0 65 true 0, .bmeClear .h0 65, .d3hotEnter .h0 65,
    .msixUnmask .h0 0 64, .flrVf .h0 64, .pcieLinkUp .h0 0 16 true, .vfEnableChange .h0 true 65, .regWrite .h0 65 0 false 0,
    .regWrite .h0 0 (2 ^ 26) false 0, .reg64WriteLow .h0 0 0 (2 ^ 64), .narrowAccess .h0 0 .bar0 0 65536 none,
    .narrowAccess .h0 0 .bar2 0 2 (some [1]), .unmappedAccess .h0 65 0 true,
    .rsReadLow .h0 0 (2 ^ 26), .rsReadHigh .h0 65 0, .counterSnap .h0 0 97, .fltLogCiWrite .h0 65 0] : List Instr).all
      (fun i => !i.wf) = true := by decide

theorem test_wf_refuses_chains : ([.hostAccessFail .h0 (.chain 520 0), .hostAccessFail .h0 (.entries 0 0 16384),
  .hostAccessFail .h0 (.page 8192 0 0 0),
    .chainComplete .h0 0 65536, .marker .h0 520 0, .copy .h0 0 65536,
    .evcValWrite .h0 65 0 0, .evcValWrite .h0 0 4096 0, .evcAddWrite .h0 0 0 (2 ^ 64), .evcAllocWrite .h0 64 0 0,
    .reqAllocWrite .h0 0 65536 0, .requestFree .h0 8192, .evictSlotHandover .h0 8192, .workFetch .h0 256 0, .attnFold .h0 256 0,
    .spEccError .h0 256 (.slot 0) 0 0 false false,
    .spEccError .h0 0 (.slot 0) (2 ^ 21) 0 false false, .spEccError .h0 0 (.engine .h0 520 0) 0 0 false false,
    .spEccError .h0 0 (.cacheLine (2 ^ 29)) 0 0 false false, .coreCfgWrite .h0 256 0,
    .coreCntClr .h0 0 (2 ^ 32), .attnRuleWrite .h0 (2 ^ 32) 0, .attnRingBlockLanded .h0 0 0 (some 65536), .collCtsSend .h0 0 0 65536,
    .collDataReceive .h0 65536 0 0, .collCfgWrite .h0 (2 ^ 32), .valleySpillStart .h0 64, .valleySpillIssued .h0 8192 0 0 0,
    .valleyPrefetchLand .h0 0 0 0 65536, .lookaheadPrefetch .h0 0 65536, .kvQuotaWrite .h0 0 65536 0, .valleyConfigWrite .h0 0 0 (2 ^ 64),
    .adpAllocWrite .h0 0 65536 0, .budgetCfgWrite .h0 0 (2 ^ 64), .partyCfgWrite .h0 0 (2 ^ 64), .grpCfgWrite .h0 0 0 (2 ^ 64)] :
      List Instr).all (fun i => !i.wf) = true := by decide

set_option maxRecDepth 40000 in
theorem test_wf_refuses_links : ([.packetInject .h0 4096 0 [] [], .packetInject .h0 0 256 [] [],
  .packetInject .h0 0 0 (List.replicate 25 0) [],
    .portPmdTrainDone .h0 0 256, .portFecLock .h0 0 256, .laneFail .h0 0 256 false none, .initFlitReceive .h0 0 256 0 0 [],
    .initFlitReceive .h0 0 1 4096 0 [], .initFlitReceive .h0 0 1 0 8 [], .degradeFlitReceive .h0 0 8,
    .flitReceive .h0 0 (List.replicate 321 0) ⟨0, 0, .clean, false⟩, .flitReceive .h0 0 [] ⟨2 ^ 20, 0, .clean, false⟩,
      .fabBufWrite .h0 0 (2 ^ 32) 0, .rtSelWrite .h0 (2 ^ 32),
    .fabTopologyWrite .h0 0 (2 ^ 64), .routeTableWrite .h0 0 0 (2 ^ 64), .shipPlanWrite .h0 0 0 (2 ^ 64), .egrConfigWrite .h0 0 (2 ^ 64),
    .ptpAnnounceReceive .h0 ⟨0, 256⟩ 0 [] 0, .ptpSyncReceive .h0 ⟨0, 0⟩ (2 ^ 80) 0 true 0 0, .ptpFollowUpReceive .h0 ⟨0, 0⟩ 0 65536 0 0,
    .ptpDelayRespReceive .h0 ⟨0, 0⟩ 0 0 true (2 ^ 96) 0, .ftWrite .h0 (2 ^ 64), .timeCtlWrite .h0 (2 ^ 64), .cmpEnable .h0 0 (2 ^ 64),
    .ppsOutEnable .h0 (2 ^ 64), .timeRelCtlWrite .h0 (2 ^ 64)] : List Instr).all (fun i => !i.wf) = true := by decide

set_option maxRecDepth 40000 in
theorem test_wf_refuses_management : ([.partConfigWrite .h0 0 0 0 (2 ^ 64), .shrWrite .h0 0 (2 ^ 64), .kimpStart .h0 ⟨128, .good⟩,
  .kimpPlain .h0 128,
    .spdmGetMeasurements .h0 true 256, .ideKm .h0 0 0 (.prog 0) (2 ^ 256), .spdmFinish .h0 true 0 true [], .genCommitReceive .h0 [],
    .pldmFwUpdate 0x30 false { FlashImage.shipped with sig := [] }, .ledgerRead .h0 (2 ^ 32), .ledgerReadMsg (2 ^ 32),
    .hbmRead .h0 (.engine 0 none) (2 ^ 64) 0 .none 0, .hbmWrite .h0 (.engine 0 none) 0 (List.replicate 4097 0) .none 0,
      .engineWatchdogExpire .h0 65536,
    .engineStateError .h0 65536 0, .stepBoundExceeded .h0 0 65536, .fltCtxReset .h0 (2 ^ 24), .fltEngReset .h0 (2 ^ 24),
    .fltPartReset .h0 (2 ^ 24), .pldmGetPdr (2 ^ 32), .pldmGetSensorReading 65536 0, .pldmGetSensorReading 0 65536,
    .pldmGetStateSensors 65536, .histCfgWrite .h0 0 (2 ^ 64)] : List Instr).all (fun i => !i.wf) = true := by decide

/-- The smallest doorbell and the largest are well formed. -/
theorem test_wf_admits : ([.doorbellWrite .h0 0 0, .doorbellWrite .h1 519 65535, .computeReady, .platRequest .h0 2 2] : List Instr).all
    (fun i => i.wf) = true := by decide

/-- The table gives no row bits, so no word spells a command. -/
theorem test_decode_spells_nothing : decodeTableWord 0 0 = none ∧ decodeTableWord 64 0x4812 = none := by decide

/-! ### Witnesses: states and operands that meet the hypotheses of the statements -/

/-- StepRunsFrontCommand, IdleStepIsTick, StepKeepsCanonicalForms, RegistersWithinWidth. -/
theorem test_witness_machine : ({ State.reset with pending := [.timeSnap .h0, .dlDown .h1] }).pending = [.timeSnap .h0] ++ [.dlDown .h1] ∧
    State.reset.pending = [] ∧ State.reset.rd (.tim .MT_RATE) .h0 0 = 0 ∧ State.reset.rd (.tim .MT_REM) .h0 0 = 0 ∧
    State.reset.mt .h0 + 1 < 2 ^ 64 ∧ Sys2Proof.Inv State.reset ∧ (∃ t, step State.reset = .next t) := by
  refine ⟨by decide, by decide, by decide, by decide, by decide, ?_, ⟨_, rfl⟩⟩
  unfold Sys2Proof.Inv; decide

/-- PoolCommitByTable18: a configuration that fails, one that meets every condition on a busy pool, and one on a quiesced pool. -/
theorem test_witness_pool_commit :
    let bad := stateOf [cell (.pkg .POOL_CLASS_CFG_FLOOR) .h0 0 127]
    let quiet := stateOf [cell (.pkg .POOL_STATUS_QUIESCED) .h0 0 1]
    let locked := stateOf [cell (.pkg .POOL_STATUS_QUIESCED) .h0 0 1, cell (.host .SETUP_LOCK_LOCK) .h0 0 1]
    locked.rd (.host .SETUP_LOCK_LOCK) .h0 0 = 1 ∧ (∀ c < 7, locked.rd (.pkg .POOL_FLOOR) .h0 c ≤ locked.rd (.pkg .POOL_CAP) .h0 c ∧
      locked.rd (.pkg .POOL_CAP) .h0 c ≤ 1024) ∧ 128 ≤ locked.rd (.pkg .POOL_FLOOR) .h0 0 ∧
        State.reset.rd (.host .SETUP_LOCK_LOCK) .h0 0 = 0 ∧ bad.rd (.host .SETUP_LOCK_LOCK) .h0 0 = 0 ∧
      bad.rd (.pkg .POOL_CLASS_CFG_FLOOR) .h0 0 < 128 ∧ State.reset.rd (.pkg .POOL_STATUS_QUIESCED) .h0 0 = 0 ∧
      quiet.rd (.pkg .POOL_STATUS_QUIESCED) .h0 0 ≠ 0 ∧
      ((List.range 7).map fun c => quiet.rd (.pkg .POOL_CLASS_CFG_FLOOR) .h0 c).sum ≤ 1024 ∧
      (∀ c < 7, quiet.rd (.pkg .POOL_CLASS_CFG_FLOOR) .h0 c ≤ quiet.rd (.pkg .POOL_CLASS_CFG_CAP) .h0 c ∧
        quiet.rd (.pkg .POOL_CLASS_CFG_CAP) .h0 c ≤ 1024) := by decide

/-- PoolGranules: a request below the floor, a release of the floor and one that a reclaim takes, a unit with nothing marked, and a marked
unit before and at the 6.5 µs of its forced release. -/
theorem test_witness_pool_granules :
    let held := stateOf [cell (.pkg .POOL_CLASS_USE_IN_USE) .h0 1 1]
    let floor := poolFloor State.reset .h0 1
    let lent : State := { stateOf [cell (.pkg .POOL_CLASS_USE_IN_USE) .h0 1 (floor + 1)] with
      poolReqs := [⟨.h0, 2, 1, none, true, 0⟩] }
    let unit (marked : Nat) : PoolUnit := ⟨.h0, 1, .named 0, 1, marked, 0⟩
    let flying (marked mt : Nat) : State := { stateOf [cell (.tim .MT) .h0 0 mt] with poolUnits := [unit marked] }
    poolInUse State.reset .h0 1 < floor ∧ floor ≤ 1024 ∧ 0 < poolIdle State.reset .h0 1 ∧ 0 < poolInUse held .h0 1 ∧
      poolInUse held .h0 1 ≤ poolFloor held .h0 1 ∧ held.poolReqs = [] ∧ floor < poolInUse lent .h0 1 ∧
      reclaimFirst lent .h0 = some ⟨.h0, 2, 1, none, true, 0⟩ ∧ poolInUse lent .h0 2 < 1024 ∧ (∀ r ∈ lent.poolReqs, r.reclaim = true) ∧
      poolUnit held .h0 1 (.named 0) = none ∧ poolUnit (flying 0 0) .h0 1 (.named 0) = some (unit 0) ∧
      (flying 1 6499).mt .h0 < (unit 1).since + 6500 ∧ (unit 1).since + 6500 ≤ (flying 1 6500).mt .h0 := by decide

/-- PlateauChanges: an accepted request and each refusal; a change that is pending, stopped, and one to cancel. -/
theorem test_witness_plateau :
    let run := runningWith [cell (.thm .THERM_STATUS_STATE) .h0 0 2]
    let noted := [cell (.thm .PLAT_STATUS_PENDING) .h0 0 1, cell (.thm .PLAT_NOTE) .h0 0 3, cell (.thm .PLAT_NOTE) .h1 0 3]
    let pend := runningWith (noted ++ [cell (.thm .DISPATCH_STOP) .h0 0 1, cell (.thm .DISPATCH_STOP) .h1 0 1])
    let due := runningWith noted
    let wait := runningWith (noted ++ [cell (.thm .PLAT_SWITCH_TIME) .h0 0 2000000, cell (.thm .PLAT_NOTE_S) .h0 0 2000000,
      cell (.thm .PLAT_NOTE_S) .h1 0 2000000])
    let late := runningWith (noted ++ [cell (.boot .DIE_PWR_EN) .h0 0 1, cell (.boot .DIE_PWR_EN) .h0 4 1, cell (.tim .MT) .h0 0 200000])
    let ready := runningWith [cell (.boot .COMPUTE_READY_DONE) .h0 0 1]
    State.reset.holds .h0 = false ∧ run.holds .h0 = true ∧ run.lowland .h0 = false ∧ run.rd (.thm .PLAT_STATUS_PENDING) .h0 0 ≠ 1 ∧
      run.rd (.thm .PLAT_STATUS_CUR) .h0 0 = 2 ∧ run.rd (.thm .THERM_STATUS_STATE) .h0 0 = 2 ∧
      (runningWith [cell (.boot .LOWLAND_IN) .h0 0 1]).lowland .h0 = true ∧ (runningWith []).rd (.thm .THERM_STATUS_STATE) .h0 0 ≠ 2 ∧
      pend.holder = some .h0 ∧ (∀ k ∈ [Half.h0, .h1], pend.rd (.thm .DISPATCH_STOP) k 0 = 1) ∧
        pend.rd (.thm .PLAT_STATUS_TARGET) .h0 0 < 4 ∧
      (∀ k ∈ [Half.h0, .h1], pend.rd (.thm .PLAT_NOTE) k 0 = pend.rd (.thm .PLAT_STATUS_TARGET) .h0 0 + 1) ∧
      run.rd (.boot .COMPUTE_READY_DONE) .h0 0 = 0 ∧ ready.rd (.boot .COMPUTE_READY_DONE) .h0 0 ≠ 0 ∧
      (∀ k ∈ [Half.h0, .h1], platDrained pend k = true ∧ platPllsLocked pend k = true) ∧
      (∀ k ∈ [Half.h0, .h1], due.rd (.thm .PLAT_NOTE_S) k 0 ≤ due.mt k ∧ due.rd (.thm .DISPATCH_STOP) k 0 = 0) ∧
      (∀ k ∈ [Half.h0, .h1], wait.mt k < wait.rd (.thm .PLAT_NOTE_S) k 0) ∧ (∀ k ∈ [Half.h0, .h1], platPllsLocked late k = false) ∧
        platLate late .h0 = true ∧
      wait.rd (.thm .PLAT_STATUS_SOURCE) .h0 0 = 0 ∧ wait.mt .h0 < wait.rd (.thm .PLAT_SWITCH_TIME) .h0 0 ∧
      wait.rd (.thm .DISPATCH_STOP) .h0 0 = 0 := by decide

/-- ThermalLoop. -/
theorem test_witness_thermal :
    let run := runningWith [cell (.thm .THERM_STATUS_STATE) .h0 0 2, cell (.thm .HOT_RUN) .h0 0 101, cell (.thm .SENS_RUN) .h0 0 10,
      cell (.thm .TJ_RUN) .h0 0 201, cell (.thm .PLAT_STATUS_CUR) .h0 0 0]
    let crit := run.rd (.thm .THERM_SET1_TJ_CRIT) .h0 0
    let idle := runningWith [cell (.thm .THERM_STATUS_STATE) .h0 0 2]
    (runningWith []).holder = some .h0 ∧ (runningWith []).rd (.thm .THERM_STATUS_STATE) .h0 0 = 0 ∧
      run.rd (.thm .THERM_STATUS_STATE) .h0 0 = 2 ∧ run.rd (.thm .THERM_TIMING_FAIL_HOLD_MS) .h0 0 < run.rd (.thm .HOT_RUN) .h0 0 ∧
      run.rd (.thm .THERM_TIMING_SENS_LOSS) .h0 0 ≤ run.rd (.thm .SENS_RUN) .h0 0 ∧ run.rd (.thm .THERM_CTL_AUTO_DOWN) .h0 0 = 1 ∧
      run.rd (.thm .THERM_TIMING_AUTO_DOWN_MS) .h0 0 < run.rd (.thm .TJ_RUN) .h0 0 ∧ run.rd (.thm .PLAT_STATUS_PENDING) .h0 0 ≠ 1 ∧
      run.rd (.thm .PLAT_STATUS_CUR) .h0 0 < 2 ∧ idle.rd (.thm .PLAT_STATUS_CUR) .h0 0 = 2 ∧ idle.requests = [] ∧
      signedOf 16 crit ≤ signedOf 16 (crit % 2 ^ 16) ∧ thermRangesOk (thermStore idle .h0 .rangeV (25600 * 2 ^ 16)) .h0 .rangeV = true ∧
      thermRangesOk (thermStore idle .h0 .rangeV (25601 * 2 ^ 16)) .h0 .rangeV = false ∧ idle.rd (.host .SETUP_LOCK_LOCK) .h0 0 ≠ 1 := by
  decide

/-- PwmShadowWriteDisarms and PwmUpdateAndReload: an armed transfer, one to arm in the reload cycle and one before it, a reload that is due
and one that is not, EN to 1, and a channel of the loop. -/
theorem test_witness_pwm :
    let armed := runningWith [cell (.thm .PWM_STATUS_UPD_PEND) .h0 2 1, cell (.thm .PWM_CTL_EN) .h0 2 1]
    let counted (mt : Nat) : State := runningWith [cell (.thm .PWM_CTL_EN) .h0 2 1, cell (.thm .PWM_ACT_PERIOD) .h0 2 2500,
      cell (.tim .MT) .h0 0 mt]
    let count (s : State) : Nat := (s.mt .h0 - s.rd (.thm .PWM_T0) .h0 2) / 4
    let owned := runningWith [cell (.thm .THERM_STATUS_STATE) .h0 0 2]
    armed.holds .h0 = true ∧ pwmOwned armed .h0 2 = false ∧ armed.rd (.thm .PWM_STATUS_UPD_PEND) .h0 2 = 1 ∧
      count (counted 9992) + 1 < 2500 ∧ 2500 ≤ count (counted 9996) + 1 ∧ count (counted 9999) < 2500 ∧ 2500 ≤ count (counted 10000) ∧
      armed.rd (.thm .PWM_SKIP) .h0 2 ≠ 1 ∧ (runningWith []).rd (.thm .PWM_CTL_EN) .h0 0 ≠ 1 ∧
      (runningWith []).rd (.thm .PWM_PERIOD) .h0 0 = 10000 ∧ owned.rd (.thm .THERM_STATUS_STATE) .h0 0 = 2 ∧ pwmOwned owned .h0 0 = true ∧
      (runningWith []).rd (pinOwner 0) .h0 0 = 0 ∧ (runningWith [cell (pinOwner 0) .h0 0 3]).rd (pinOwner 0) .h0 0 ≠ 0 ∧
      (runningWith [cell (.thm .PWM_PERIOD) .h0 2 2499]).rd (.thm .PWM_PERIOD) .h0 2 < 2500 := by decide

/-- TriggersAndFeedback: pins and comparators free and held, an edge that counts, one too early, a second one of its sample, and the
zero-speed timeout before and at its time. -/
theorem test_witness_triggers :
    let s := runningWith [cell (.thm .TRIG_CFG_EN) .h0 0 1, cell (.thm .PWM_CTL_EN) .h0 0 1, cell (.thm .PWM_ACT_PERIOD) .h0 0 10000,
      cell (.thm .AUX_OWNER_PWM2) .h0 0 3]
    let free := runningWith [cell (.tim .TIME_TRIG_CMP_TRIG0) .h0 0 5]
    let fb := stateOf [cell (.thm .FB_CTL_MODE) .h0 0 3]
    let glitch := stateOf [cell (.thm .FB_CTL_MODE) .h0 0 3, cell (.thm .FB_IN_T) .h0 0 1, cell (.thm .FB_SEEN) .h0 0 1,
      cell (.tim .MT) .h0 0 999]
    let seen := stateOf [cell (.thm .FB_CTL_MODE) .h0 0 3, cell (.thm .FB_SEEN) .h0 0 997, cell (.tim .MT) .h0 0 999]
    let zs := 4 * State.reset.rd (.thm .FB_ZS_TIMEOUT) .h0 0
    (runningWith []).holds .h0 = true ∧ (runningWith []).rd (.thm .TRIG_CFG_EN) .h0 0 ≠ 1 ∧
      (runningWith []).rd (pinOwner (trigPin 0)) .h0 0 = 0 ∧
      free.rd (.tim .CMP_STATUS_HOLDER) .h0 (trigCmp free .h0 0) = 0 ∧ s.rd (pinOwner (trigPin 0)) .h0 0 ≠ 0 ∧
      s.rd (.thm .AUX_DRIVING) .h0 0 = 1 ∧ s.rd (.thm .AUX_KEY_CABLE_OK) .h0 0 = 1 ∧
      s.rd (.thm .TRIG_CFG_AT) .h0 0 < s.rd (.thm .PWM_ACT_PERIOD) .h0 0 ∧
      pulsePin s .h0 .pwm2 = true ∧ fb.rd (.thm .FB_IN_T) .h0 0 = 0 ∧ fb.rd (.thm .FB_SEEN) .h0 0 = 0 ∧
      fbDirection 3 false true ≠ none ∧ fbDirection 0 true true = none ∧
      (glitch.rd (.thm .FB_SEEN) .h0 0 - 1) / 4 ≠ glitch.mt .h0 / 4 ∧
      glitch.mt .h0 + 1 < glitch.rd (.thm .FB_IN_T) .h0 0 + glitch.rd (.thm .FB_MIN_INT) .h0 0 * 4 ∧
      (seen.rd (.thm .FB_SEEN) .h0 0 - 1) / 4 = seen.mt .h0 / 4 ∧ ¬(zs ≤ (stateOf [cell (.tim .MT) .h0 0 (zs - 2)]).mt .h0 + 1) ∧
      zs ≤ (stateOf [cell (.tim .MT) .h0 0 (zs - 1)]).mt .h0 + 1 := by decide

/-- AuxPinsAndDiagnosis. -/
theorem test_witness_aux :
    let s := runningWith [cell (.thm .AUX_SHORTED) .h0 0 1, cell (.thm .AUX_LEVEL) .h0 0 2]
    s.holder = some .h0 ∧ s.rd (.thm .AUX_KEY_PATTERN) .h0 0 = 0 ∧ canShow s .h0 .pwm0 .open = true ∧ canShow s .h0 .fb2b .open = false ∧
      s.rd (.thm .AUX_SHORTED) .h0 (pinNo .pwm0) ≠ 0 ∧
      (stateOf [cell (.thm .AUX_DRIVING) .h0 0 0]).rd (.thm .AUX_DRIVING) .h1 0 = 0 := by decide

/-- StartupStrapsAndBoot: the straps of step 2, boot in step 3 and the self-tests of step 4. -/
theorem test_witness_boot :
    let strap := stateOf [cell (.boot .BOOT_STAGE_MAX) .h0 0 1]
    let boot := stateOf [cell (.boot .BOOT_STAGE_MAX) .h0 0 2]
    let selftest := stateOf [cell (.boot .BOOT_STAGE_MAX) .h0 0 3, cell (.boot .FW_RUNNING) .h0 0 1]
    let differ := runningWith [cell (.boot .STRAP_OWN_SMB_ADDR) .h1 0 1]
    hubOk strap .h0 = true ∧ stageIs strap 2 = true ∧ strap.rd (.boot .STRAP_DONE) .h0 0 = 0 ∧ differ.holder = some .h0 ∧
      mayHold differ .h1 = true ∧ differ.peerReachable .h0 = true ∧ strapOwn differ .h0 ≠ strapOwn differ .h1 ∧ stageIs boot 3 = true ∧
      boot.rd (.boot .BOOT_STATUS_IMAGE) .h0 0 = 0 ∧ boot.rd (.boot .STRAP_OWN_BOOT_SEL) .h0 0 = 0 ∧
      boot.imageA = some FlashImage.shipped ∧ stageIs selftest 4 = true ∧
      selftest.rd (.boot .SELFTEST_DONE) .h0 0 = 0 := by decide

/-- StartupRolesToTraining and StartupToComputeReady: each stage while it runs. -/
theorem test_witness_training :
    let stage (n : Nat) : State := runningWith [cell (.boot .BOOT_STAGE_MAX) .h0 0 (n - 1), cell (.thm .THERM_STATUS_STATE) .h0 0 2,
      cell (.boot .DIE_PWR_EN) .h0 0 1]
    let prime := runningWith [cell (.thm .THERM_STATUS_STATE) .h0 0 1, cell (.boot .SETTLE_REF_V) .h0 0 1, cell (.boot .SETTLE_RUN) .h0 0 4,
      cell (.thm .FB_STATUS_STOPPED) .h0 2 0, cell (.thm .FB_PERIOD_PERIOD) .h0 2 2500000]
    stageIs (stage 5) 5 = true ∧ prime.holder = some .h0 ∧ settleGood prime .h0 0x40 0 = true ∧ settleGood prime .h0 0x41 0 = false ∧
      prime.rd (.boot .THERM_SETTLE0_HOLD) .h0 0 ≤ prime.rd (.boot .SETTLE_RUN) .h0 0 + 1 ∧ stageIs (stage 7) 7 = true ∧
      loopInRun (stage 7) = true ∧ lowNow (stage 7) = false ∧ (stage 7).rd (.boot .EXIT_RUNNING) .h0 0 ≠ 2 ∧ dieFuse (stage 7) 0 = true ∧
      stackGood (stage 7) .h0 = true ∧ stageIs (stage 8) 8 = true ∧ stackFuse (stage 8) .h0 = true ∧ stageIs (stage 9) 9 = true ∧
      hubOk (stage 9) .h1 = true ∧ stageIs (stage 10) 10 = true ∧ stageIs (stage 11) 11 = true ∧ stageIs (stage 12) 12 = true ∧
      (List.range 8).any (powered (stage 12)) = true ∧ stageIs (stage 13) 13 = true ∧ stageMax (stage 13) + 1 = 13 := by decide

/-- PowerGoodResets, LowlandEntryAndExit and PowerAndInterruptRoutes. -/
theorem test_witness_power :
    let low := runningWith [cell (.boot .LOW_PEND) .h0 0 1]
    let ready := runningWith [cell (.boot .LOWLAND_IN) .h0 0 1, cell (.boot .LOWLAND_STATUS_CAUSE) .h0 0 1, cell (.thm .CT_OUT_OK) .h0 0 1]
    let rail := stateOf [cell (.boot .DIE_PWR_EN) .h0 0 1]
    let e1 := stateOf [cell (.boot .BOOT_STAGE_MAX) .h0 0 6]
    State.reset.rd (.boot .PWR_GOOD_PIN) .h0 0 ≠ 0 ∧ (stateOf [cell (.boot .PWR_GOOD_PIN) .h0 0 0]).rd (.boot .PWR_GOOD_PIN) .h0 0 ≠ 1 ∧
      low.rd (.boot .LOW_PEND) .h0 0 ≠ 0 ∧ low.lowland low.chipHalf = false ∧ State.reset.holds .h0 = false ∧ ready.holds .h0 = true ∧
      ready.lowland .h0 = true ∧ ready.rd (.boot .LOW_PEND) .h0 0 = 0 ∧ thermMayLeave ready .h0 = true ∧
      thermMayLeave (runningWith [cell (.boot .LOWLAND_IN) .h0 0 1, cell (.boot .LOWLAND_STATUS_CAUSE) .h0 0 1]) .h0 = false ∧
      powered rail 0 = true ∧ (rail.rd (.flt .FLT_LOST_DIE) .h0 0).testBit 0 = false ∧ stageIs e1 7 = true ∧ powered e1 0 = false ∧
      dieFuse e1 0 = true ∧ stackGood e1 (dieHalf 0) = true := by decide

/-- PassLanes and RolesAndRejoin. -/
theorem test_witness_pass :
    let down := stateOf [cell (.pkg .PASS_STATUS_STATE) .h0 0 3, cell (.pkg .PASS_STATUS_STATE) .h1 0 3,
      cell (.pkg .PASS_STATUS_SB_ALIVE) .h0 0 1,
      cell (.flt .MC_STATUS_LATCH) .h0 0 1, cell (.boot .ROLES_SETTLED) .h0 0 1, cell (.pkg .PASS_TRYING) .h0 0 1]
    let exhausted := runningWith [cell (.pkg .PASS_STATUS_EXH_RUN) .h0 0 2]
    let arb := stateOf [cell (.flt .ARB_PENDING) .h0 0 1, cell (.flt .ARB_HELD) .h0 0 1, cell (.boot .SELFTEST_OK) .h1 0 1]
    let retrained := stateOf [cell (.pkg .PASS_STATUS_STATE) .h0 0 4, cell (.pkg .PASS_STATUS_STATE) .h1 0 4]
    (runningWith []).passUp .h0 = true ∧ (runningWith []).passUp .h1 = true ∧ (runningWith []).rd (.pkg .PASS_REALIGNING) .h0 0 = 0 ∧
      exhausted.rd (.pkg .PASS_STATUS_EXH_RUN) .h0 0 = 2 ∧ down.rd (.pkg .PASS_STATUS_SB_ALIVE) .h0 0 = 1 ∧
      State.reset.rd (.pkg .PASS_STATUS_SB_ALIVE) .h0 0 ≠ 1 ∧ hubOk State.reset .h1 = true ∧ retrainDue down = true ∧
      down.rd (.pkg .PASS_TRYING) .h0 0 ≠ 0 ∧ down.holder = some .h0 ∧ down.passUp .h0 = false ∧ (runningWith []).holds .h1 = false ∧
      mayHold (runningWith []) .h1 = true ∧ arb.rd (.flt .ARB_HELD) .h0 0 = 1 ∧ arb.rd (.boot .SELFTEST_OK) .h0 0 = 0 ∧
      arb.rd (.flt .ARB_PENDING) .h1 0 = 0 ∧ arb.mt .h1 < 235000000 ∧ 235000000 ≤ (stateOf [cell (.tim .MT) .h1 0 235000000]).mt .h1 ∧
      arb.mt .h0 < arb.rd (.flt .ARB_MT) .h0 0 + 50000000 ∧
        arb.rd (.flt .ARB_MT) .h0 0 + 50000000 ≤ (stateOf [cell (.tim .MT) .h0 0 50000000]).mt .h0 ∧
      (runningWith []).lanesUp = true ∧ down.lanesUp = false ∧ down.holds .h1 = false ∧ 3 ≤ down.rd (.pkg .PASS_STATUS_STATE) .h1 0 ∧
      retrained.rd (.pkg .PASS_STATUS_STATE) .h1 0 = 4 := by decide

/-- McPairAndGenerations. -/
theorem test_witness_mc :
    let g : Generation := ⟨5, 0, [], 0, []⟩
    let copied : State := { runningWith [] with genCopy := [(.h1, g)] }
    let restarting := runningWith [cell (.flt .MC_STATUS_SELF) .h0 0 3, cell (.flt .MC_STATUS_SELF) .h1 0 3]
    let takeover := runningWith [cell (.flt .MC_TAKING_OVER) .h1 0 1, cell (.tim .MT) .h0 0 200000]
    mcRuns (runningWith []) .h0 = true ∧ mcRuns (runningWith []) .h1 = true ∧ (runningWith []).peerReachable .h0 = true ∧
      copied.genCopy.find? (fun q => q.1 == .h1) = some (.h1, g) ∧ copied.rd (.flt .MC_GEN) .h1 0 < 5 ∧
      (runningWith []).rd (.flt .MC_RESTART_COUNT) .h0 0 = 0 ∧ restarting.rd (.flt .MC_STATUS_SELF) .h0 0 = 3 ∧
      mcRuns restarting .h0 = false ∧ mcRuns restarting .h1 = false ∧
      restarting.mt .h0 < restarting.rd (.flt .MC_RESTART_AT) .h0 0 + 1000000000 ∧
      restarting.rd (.flt .MC_RESTART_AT) .h0 0 + 1000000000 ≤ (stateOf [cell (.tim .MT) .h0 0 1000000000]).mt .h0 ∧
      (runningWith []).mt .h1 < (runningWith []).rd (.flt .MC_HB_LAST) .h1 0 + 250000 ∧ takeover.rd (.flt .MC_HB_LAST) .h1 0 + 250000 ≤
        (stateOf [cell (.tim .MT) .h1 0 250000]).mt .h1 ∧
      (runningWith []).rd (.flt .MC_STATUS_PEER) .h1 0 ≠ 4 ∧ (runningWith []).holds .h0 = true ∧
        takeover.rd (.flt .MC_TAKING_OVER) .h1 0 = 1 ∧
      takeover.rd (.flt .MC_HB_GEN_MT) .h0 0 + 200000 ≤ takeover.mt .h0 := by decide

/-- HbmAccesses and AddressHoles: an access that the fence lets through, one that it refuses, and one that runs into a hole. -/
theorem test_witness_access :
    let s := runningWith [cell (.boot .HBM_OK) .h0 0 1]
    let w := engine .h0 pf
    whoOf (.engine pf none) s .h0 = some w ∧ targetOf 0x5FFFFFFFF = .hbm .h0 ∧ accessStatus s w false 0x5FFFFFFFF 1 = ST_OK ∧
      accessStatus s w true 0 8 = ST_OK ∧ partialWrite 0 8 = true ∧
      ((ueRecent s .h0).filter fun p => p.1 == .h0).length < s.rd (.flt .FLT_CFG_HBM_UE_LIMIT) .h0 0 ∧
      accessStatus s (engine .h0 0) true 0 8 = ST_HBM_FENCE ∧ accessStatus s w false 0x5FFFFFFFF 2 = ST_ADDR_INVALID ∧
      targetOf 0x600000000 = .hole ∧ targetOf 0x1000180000 = .hole ∧ targetOf 0x100017FFFF = .scratch 0 0x17FFFF := by decide

/-- Watchdogs and FaultCommands. -/
theorem test_witness_faults :
    let ctx := { context0 with inArray := 1 }
    let wdt := State.reset.rd (.flt .FLT_WDT0_CTX_WDT) .h0 0 * 1000
    let rec_ : FaultRec := ⟨0, 0, 0, 0, 2, 0, 0, 0, 0, 0, 8, 0, 0⟩
    let late : State := { stateOf [cell (.tim .MT) .h0 0 wdt, cell (.core .CORE_STATUS_SLOT0) .h0 0 2] with
      contexts := [ctx], faultRecs := [(.h0, rec_, 0)] }
    let s : State := { runningWith [cell (.core .CORE_STATUS_SLOT0) .h0 0 2, cell (.sec .PART_CTL_STATE) .h0 0 1,
        cell (.flt .FLT_CFG_AUTO_CHIP) .h0 0 0, cell (.boot .DIE_PWR_EN) .h0 0 1, cell (.boot .HBM_OK) .h0 0 1] with contexts := [ctx] }
    let c := { newChain State.reset .h0 0 0 [] [] 1 with stage := .eligible }
    let waits : State := { stateOf [cell (.flt .RING_WDT_MS) .h0 0 1, cell (.flt .RING_WDT_ACT) .h0 0 1,
        cell (.host .RING_STATE_STATE) .h0 0 1, cell (.tim .MT) .h0 0 1000000] with chains := [c] }
    ctxAt s .h0 0 0 = some ctx ∧ s.rd (.thm .DISPATCH_STOP) .h0 0 ≠ 1 ∧ ctx.inArray ≠ 0 ∧ slotState s .h0 0 0 = 2 ∧
      s.mt .h0 < ctx.boundaryMt + wdt ∧ ctxAt late .h0 0 0 = some ctx ∧ slotState late .h0 0 0 = 2 ∧ ctx.boundaryMt + wdt ≤ late.mt .h0 ∧
      newestRec late .h0 (fun q => q.step % 8 == 2 && q.unit == 8) = some rec_ ∧ c.readMt + 1000000 ≤ waits.mt .h0 ∧
      0 ∈ engineCodes ∧ engineOps s (engineHalf .h0 0) 0 ≠ 0 ∧ waits.rd (.flt .RING_WDT_MS) .h0 0 ≠ 0 ∧
      waits.chains.find? (fun d => d.half == .h0 && d.ring == 0 && d.unadmitted) = some c ∧ c.wdtFired = false ∧ ringSt waits .h0 0 = 1 ∧
      s.rd (.flt .FLT_CFG_AUTO_CHIP) .h0 0 ≠ 1 ∧ s.rd (.flt .FLT_STATUS_STEP) .h0 0 = 0 ∧
        s.contexts.find? (fun y => y.id == ctx.id) = some ctx ∧
      s.rd (.sec .PART_CTL_STATE) .h0 0 = 1 ∧ s.holds .h0 = true ∧ chipBlocked s = false ∧ s.holds .h1 = false ∧ logUsed s .h0 0 = 0 ∧
      powered s 0 = true ∧ stackOk s .h0 = true := by decide

/-- RingStates, DoorbellRange and DescriptorFetch: a VF's ring in each state it needs. -/
theorem test_witness_rings :
    let base := [cell (.host .VF_EXISTS) .h0 0 1, cell (.boot .MGMT_READY) .h0 0 1, cell (.sec .PART_CTL_STATE) .h0 0 1,
      cell (.host .RING_BASE_WRITTEN) .h0 0 1,
      cell (.host .CQ_BASE_WRITTEN) .h0 0 1, cell (.host .CQ_BASE) .h0 0 0x10000, cell (.host .LINK_STATUS_LINK_UP) .h0 0 1,
      cell (.host .BME) .h0 0 1]
    let off := runningWith base
    let on := runningWith (base ++ [cell (.host .RING_STATE_STATE) .h0 0 1, cell (.host .RING_STATUS_PI) .h0 0 3])
    let stopping := runningWith (base ++ [cell (.host .RING_STATE_STATE) .h0 0 2])
    let full := runningWith (base ++ [cell (.host .RING_STATE_STATE) .h0 0 1, cell (.host .RING_STATUS_PI) .h0 0 3,
      cell (.host .RING_STATUS_CQ_PI) .h0 0 16])
    let down := runningWith [cell (.host .RING_STATE_STATE) .h0 0 1, cell (.host .RING_STATUS_PI) .h0 0 3]
    let acking := runningWith [cell (.host .SETUP_LOCK_PEER_PENDING) .h0 0 1, cell (.host .SETUP_LOCK_LOCK) .h1 0 1]
    let reading : State := { on with fetches := [⟨.h0, 0, 0, 3, none, 0, 0⟩] }
    let pinned := runningWith (base ++ [cell (.host .RING_STATE_STATE) .h0 0 1, cell (.host .RING_STATUS_PI) .h0 0 1,
      cell (.host .RING_CFG_PINNED) .h0 0 1])
    fnExists off .h0 (ringFn 0) = true ∧ off.rd (.host .SETUP_LOCK_LOCK) .h0 0 ≠ 1 ∧ off.peerReachable .h0 = true ∧
      acking.rd (.host .SETUP_LOCK_PEER_PENDING) .h0 0 = 1 ∧ acking.rd (.host .SETUP_LOCK_LOCK) .h1 0 = 1 ∧
      acking.peerReachable .h0 = true ∧ State.reset.peerReachable .h0 = false ∧ ringReach off .h0 0 = true ∧ ringReach down .h0 0 = false ∧
      down.hostOk .h0 0 = false ∧ fetchCount down .h0 0 ≠ 0 ∧ enableRefusal stopping .h0 0 = some ST_RING_BUSY ∧ ringSt off .h0 0 = 0 ∧
      enableRefusal off .h0 0 = none ∧ ringSt on .h0 0 = 1 ∧ ringSt stopping .h0 0 = 2 ∧ ringOwes stopping .h0 0 = false ∧
      (3 + 65536 - on.rd (.host .RING_STATUS_CI) .h0 0) % 65536 ≤ sqSize on .h0 0 ∧ sqSize on .h0 0 = 16 ∧ on.hostOk .h0 0 = true ∧
      fetchCount on .h0 0 ≠ 0 ∧ creditFor on .h0 0 (nextNeed on .h0 0) = true ∧ creditFor full .h0 0 (nextNeed full .h0 0) = false ∧
      reading.fetches.find? (fun g => g.open_ .h0 0) = some ⟨.h0, 0, 0, 3, none, 0, 0⟩ ∧ fetchedOf pinned .h0 0 = 0 ∧
      chainLen (slotEntry pinned .h0 0 0) (sqSize pinned .h0 0) = 1 ∧ creditFor pinned .h0 0 1 = true := by decide

/-- DescriptorFetch: each point at which a host access fails. -/
theorem test_witness_host_fail :
    let c := { chainWith opMATMUL [] with exts := [bytesOf 64 [(0, kGROUP), (15, 0x80)] ] }
    let x := { context0 with read := true }
    let s : State := { withChain (stateOf [cell (.core .CORE_STATUS_SLOT0) .h0 0 2]) c with contexts := [x] }
    let t : Transfer := ⟨.h0, false, 3, 0, 0, 0, 0, 0, 5, 0, 1, 0, [], false, 0, 0⟩
    let fetching : State := { State.reset with requests := [request3], transfers := [t] }
    s.chain .h0 0 0 = some c ∧ collOf s c.readNo = none ∧ c.running = true ∧ c.checked = false ∧
      (∃ g, extOf c kGROUP = some g ∧ isHost (fieldAt g 8 8) = true) ∧ ctxAt s .h0 0 0 = some x ∧ runnable s x = true ∧
      transferOf fetching .h0 3 0 0 0 false = some t ∧ fetching.request 3 = some request3 := by decide

/-- PinnedSlots and CompletionSignals. -/
theorem test_witness_slots :
    let s := stateOf [cell (.host .VF_EXISTS) .h0 0 1, cell (.boot .MGMT_READY) .h0 0 1, cell (.host .RING_CFG_PINNED) .h0 0 1,
      cell (.host .PIN_COUNT) .h0 0 2, cell (.tim .MT) .h0 0 100, cell (.host .COAL_SEEN) .h0 0 1,
        cell (.host .RING_COAL_COAL_TIME) .h0 0 1, cell (.host .MSIX_PBA) .h0 0 1,
      cell (.host .LINK_STATUS_LINK_UP) .h0 0 1, cell (.host .BME) .h0 0 1, cell (.host .RING_STATUS_CQ_PI) .h0 0 4]
    let busy := stateOf [cell (.host .VF_EXISTS) .h0 0 1, cell (.host .RING_CFG_PINNED) .h0 0 1, cell (.host .PIN_COUNT) .h0 0 2,
      cell (.host .RING_STATUS_PI) .h0 0 1]
    ringSt s .h0 0 = 0 ∧ s.rd (.host .PIN_POOL_FREE) .h0 0 + s.rd (.host .PIN_COUNT) .h0 0 = 4098 ∧ fnExists s .h0 (ringFn 0) = true ∧
      s.rd (.host .RING_CFG_PINNED) .h0 0 ≠ 0 ∧ 64 / 64 < s.rd (.host .PIN_COUNT) .h0 0 ∧ slotBusy s .h0 0 1 = false ∧
      slotBusy busy .h0 0 0 = true ∧ ringReach s .h0 0 = true ∧
      cqUsed s .h0 0 = 4 ∧ s.rd (.host .COAL_T0) .h0 0 + s.rd (.host .RING_COAL_COAL_TIME) .h0 0 * 100 ≤ s.mt .h0 ∧
        eventRing s .h0 0 = none ∧ s.rd (.host .COAL_SEEN) .h0 0 ≠ 0 ∧
      0 < vecCount 0 ∧ s.rd (.host .MSIX_PBA) .h0 0 = 1 ∧ s.hostOk .h0 0 = true ∧ s.rd (.host .MSIX_PBA) .h0 1 ≠ 1 := by decide

/-- HostLinkResets, RegisterReads and RegisterWrites. -/
theorem test_witness_registers :
    let vf := [cell (.host .VF_EXISTS) .h0 0 1, cell (.boot .MGMT_READY) .h0 0 1]
    let s := stateOf (vf ++ [cell (.host .PERST_N) .h0 0 1])
    let latched := stateOf (vf ++ [cell (.host .SHADOW_TAG) .h0 0 0x121])
    let staged := stateOf (vf ++ [cell (.host .STAGE_TAG) .h0 0 0x101])
    let rrs := stateOf [cell (.host .LINK_STATUS_RRS) .h0 0 1]
    barReach s .h0 0 = true ∧ barReach State.reset .h0 0 = false ∧ configOpen rrs .h0 = false ∧
      configOpen (stateOf [cell (.host .LINK_STATUS_RRS) .h0 0 0]) .h0 = true ∧ linkOptionOk 4 6 true = true ∧
        linkOptionOk 4 6 false = false ∧
      0x2C + 3 ≤ barSize 0 .bar0 ∧ 0x2C + 3 ≤ barSize 0 .bar2 ∧ placeOf s .h0 0 0x120 ≠ .unmapped ∧ placeOf s .h0 0 0x124 ≠ .unmapped ∧
          s.rd (.host .VF_EXISTS) .h0 0 = 1 ∧ s.rd (.host .PERST_N) .h0 0 = 1 ∧ fnExists s .h0 0 = true ∧
      isRs (placeOf s .h0 0 0x120) 0 = true ∧ isRs (placeOf s .h0 0 0x124) 4 = true ∧
      latched.rd (.host .SHADOW_TAG) .h0 0 = 0x124 - 4 + 1 ∧ s.rd (.host .SHADOW_TAG) .h0 0 ≠ 0x124 - 4 + 1 ∧
      placeOf s .h0 0 0x2C = .unmapped ∧ isGroup 4 = true ∧ placeOf s .h0 0 0 ≠ .unmapped ∧ disturbs s .h0 (placeOf s .h0 0 0) = false ∧
      s.rd (.host .STAGE_TAG) .h0 0 = 0 ∧ (wideAt (placeOf s .h0 0 0x100) 0).isSome = true ∧ disturbs s .h0 (placeOf s .h0 0 0x100) = true ∧
      staged.rd (.host .STAGE_TAG) .h0 0 = 0x100 + 0x40 * 0 + 1 ∧ ringSt staged .h0 (8 * 0 + 0) = 0 := by decide

/-- ChainReadAndComplete: a chain that a check refuses, one that is accepted, one from a stopped ring, and one without credit. -/
theorem test_witness_chain_read :
    let landed (head : List Byte) (l : List CellVal) : State := { stateOf ([cell (.host .VF_EXISTS) .h0 0 1,
      cell (.sec .PART_CTL_STATE) .h0 0 1,
      cell (.host .RING_STATE_STATE) .h0 0 1, cell (.host .RING_STATUS_PI) .h0 0 1, cell (.host .LINK_STATUS_LINK_UP) .h0 0 1,
      cell (.host .BME) .h0 0 1] ++ l) with fetches := [⟨.h0, 0, 0, 1, some head, 0, 0⟩] }
    let bad := bytesOf 64 []
    let good := bytesOf 64 [(8, opMARKER), (9, 0x20)]
    let s := landed good []
    let two := bytesOf 64 [(8, opMATMUL), (0x16, 1)]
    let after (t : State) : State := stallBit (consume (t.wr (.host .CQ_RESERVED) .h0
      (t.rd (.host .CQ_RESERVED) .h0 0 - heldFor t .h0 0) 0) .h0 0 1) .h0 0 false
    let done := withChain s { chainWith opMARKER [] with done := true }
    64 * chainLen ((landedBytes s .h0 0).take 64) (sqSize s .h0 0) ≤ (landedBytes s .h0 0).length ∧
      creditFor s .h0 0 (reserveOf s .h0 0 good) = true ∧ unrunStatus s .h0 0 = none ∧
      unrunStatus (landed good [cell (.host .RING_STATE_STATE) .h0 0 2]) .h0 0 = some ST_CANCELLED ∧
      creditFor (landed good [cell (.host .RING_STATUS_CQ_PI) .h0 0 16]) .h0 0 1 = false ∧
      heldFor s .h0 0 = 0 ∧ 64 < 64 * chainLen two (sqSize s .h0 0) ∧ (landedBytes (landed two []) .h0 0).length = 64 ∧
      chainChecks (after (landed bad [])) .h0 0 bad [] (mapBroken (after (landed bad [])) bad []) = some (ST_DESC_OPCODE, 0, 8) ∧
      chainChecks (after s) .h0 0 good [] (mapBroken (after s) good []) = none ∧ (done.chain .h0 0 0).isSome = true ∧
      done.hostOk .h0 (ringFn 0) = true := by decide

/-- SyncOpcodes and EventCountersAndRequests. -/
theorem test_witness_sync :
    let s := stateOf [cell (.boot .HBM_OK) .h0 0 1, cell (.desc .EVC_ALLOC_COUNT) .h0 0 1]
    let operator (op : Nat) (l : List (Nat × Nat)) : Chain := { chainWith op l with ring := 512 }
    let marker := operator opMARKER [(0x20, 8)]
    let cancel := { chainWith opCANCEL [(0x18, 3)] with stage := .eligible }
    let closing := { request3 with closing := true, closeNo := 1 }
    (withChain s marker).chain .h0 512 0 = some marker ∧ marker.running = true ∧ hdOpcode marker.head = opMARKER ∧
      fieldAt marker.head 0x20 8 ≠ 0 ∧ marker.cancelled = false ∧
      accessStatus (withChain s marker) (engine .h0 (ringFn 512)) true (fieldAt marker.head 0x20 8) 8 = ST_OK ∧
      accessStatus (withChain s (chainWith opMARKER [(0x20, 8)])) (engine .h0 0) true 8 8 ≠ ST_OK ∧
      fenceOpen (withChain s (chainWith opFENCE [])) (chainWith opFENCE []) = false ∧
      (chainWith opBARRIER []).snap.any (barrierOpen s (chainWith opBARRIER [])) = false ∧
        hdOpcode (chainWith opTIME_WAIT []).head = opTIME_WAIT ∧
      hdOpcode (chainWith opEVENT_OP []).head = opEVENT_OP ∧ counterOf s .h0 0 0 = some 0 ∧ locked s .h0 = false ∧
      allotStatus s .h0 0 0 64 4096 64 (.desc .EVC_ALLOC_BASE) (.desc .EVC_ALLOC_COUNT) = ST_OK ∧
      allotStatus s .h0 0 0 65 4096 64 (.desc .EVC_ALLOC_BASE) (.desc .EVC_ALLOC_COUNT) = ST_ALLOC_CONFIG ∧
      locked (stateOf [cell (.host .SETUP_LOCK_LOCK) .h0 0 1]) .h0 = true ∧ cancel.done = false ∧ cancel.progress = 0 ∧
      cancelTargets { withChain s cancel with requests := [request3] } cancel = [request3] ∧
      ({ s with requests := [closing] } : State).request 3 = some closing ∧
        requestOver { s with requests := [closing] } closing = true := by
  decide

/-- ContextWork, CoreRegistersAndMatrixChains and ItemsAndFolds: a MATMUL chain with one context. -/
theorem test_witness_contexts :
    let c := chainWith opMATMUL []
    let on (x : Context) (k : Nat) : State := { withChain (stateOf [cell (.core .CORE_STATUS_SLOT0) .h0 0 k]) c with contexts := [x] }
    let x := { context0 with read := true }
    let fetching := { context0 with fetching := true }
    let attn := chainWith opATTN []
    let attnOn : State := { withChain (stateOf [cell (.core .CORE_STATUS_SLOT0) .h0 0 2]) attn with contexts := [x] }
    ctxAt (on x 2) .h0 0 0 = some x ∧ chainOf (on x 2) x = some c ∧ c.done = false ∧ isNest c = true ∧ ctxLive (on x 2) x = true ∧
      onArray (on x 2) x = true ∧ ctxAt (on x 1) .h0 0 1 = none ∧ slotState (on x 1) .h0 0 0 = 1 ∧ runnable (on x 1) x = true ∧
      fetching.fetching = true ∧ fetching.half = c.half ∧ c.stop = false ∧ dynamic attn x = true ∧ x.next = none ∧ ctxLive attnOn x = true ∧
      slotState State.reset .h0 0 0 = 0 ∧ slotState State.reset .h0 0 1 = 0 ∧ context0.read = false ∧ (on x 1).dispatchOff .h0 = false ∧
      ctxsOf (on x 2) c.readNo = [x] ∧ collOf (on x 2) c.readNo = none ∧ x.idle = true ∧
      nextItem (on x 2) { c with stop := true } x = some none ∧ State.reset.lanesUp = false ∧ (runningWith []).lanesUp = true ∧
      { fetching with half := .h1 }.half ≠ c.half ∧ (stateOf [cell (.thm .DISPATCH_STOP) .h0 0 1]).dispatchOff .h0 = true := by decide

/-- ContextWork, CoreRegistersAndMatrixChains: a context that waits behind a lower and behind a higher class on its core; an engine and a
cache line that meet an error. -/
theorem test_witness_cores :
    let urgent := { chainWith opMATMUL [] with readNo := 1 }
    let prompt := { chainWith opMATMUL [(9, 0x80)] with readNo := 0 }
    let waits := { context0 with read := true, chainNo := some 1 }
    let runs := { newContext .h0 0 1 0 (some 0) false 0 0 with read := true }
    let pair (a b : Context) : State := { stateOf [cell (.core .CORE_STATUS_SLOT0) .h0 0 1, cell (.core .CORE_STATUS_SLOT1) .h0 0 2] with
      chains := [prompt, urgent], contexts := [a, b], readNo := 2 }
    let s := pair waits runs
    let r := pair { waits with chainNo := some 0 } { runs with chainNo := some 1 }
    let lined : State := { State.reset with dieLines := [⟨.h0, 0, 5⟩] }
    ctxAt s .h0 0 0 = some waits ∧ ctxAt s .h0 0 1 = some runs ∧ chainOf s waits = some urgent ∧ slotState s .h0 0 0 = 1 ∧
      runnable s waits = true ∧ onArray s runs = true ∧ runs.inArray = 0 ∧ runnable s runs = true ∧ s.dispatchOff .h0 = false ∧
      ctxClass s waits < ctxClass s runs ∧ ctxClass r { runs with chainNo := some 1 } ≤ ctxClass r { waits with chainNo := some 0 } ∧
      s.chain .h0 0 0 = some prompt ∧ prompt.running = true ∧ ⟨.h0, 0, 5⟩ ∈ lined.dieLines ∧ ⟨.h0, 0, 6⟩ ∉ lined.dieLines := by decide

/-- AttentionChains, GenerationAndCopies and SchedulerCommands. -/
theorem test_witness_serving :
    let s := stateOf [cell (.boot .HBM_OK) .h0 0 1, cell (.boot .COMPUTE_READY_DONE) .h0 0 1]
    let gen := chainWith opGEN_STEP []
    let fill := { chainWith opCOPY [(0x28, 64), (0x30, 1)] with ring := 512 }
    let grouped := { chainWith opCOPY [] with }
    let head := { chainWith opMARKER [] with stage := .eligible }
    let one := withChain s head
    hdOpcode (chainWith opATTN []).head = opATTN ∧ locked s .h0 = false ∧ gen.gen = none ∧ gen.cancelled = false ∧ stepReady s gen = true ∧
      gateOpen s .h0 (ringFn 0) = true ∧ ctxsOf { withChain s gen with contexts := [context0] } gen.readNo ≠ [] ∧
      ({ gen with cancelled := true } : Chain).cancelled = true ∧ fill.grouped = false ∧ (fieldAt fill.head 0x30 1).testBit 0 = true ∧
      accessStatus (withChain s fill) (engine .h0 (ringFn 512)) true 0 64 = ST_OK ∧
      servedNext (withChain s fill) fill = true ∧
      servedNext { s with chains := [{ fill with readNo := 1 }, fill] } { fill with readNo := 1 } = false ∧ grouped.running = true ∧
        admits one .h0 = true ∧
      (queueOf one .h0).length < 256 ∧ hdClass head.head < 5 ∧ eligible one head = true ∧ unheld one head = true ∧
      (∀ d ∈ one.chains, d.half = .h0 → d.unadmitted = true → d = head) ∧ admits State.reset .h0 = false ∧
      freeOrdinary one .h0 0 0 = true ∧ grantTo one .h0 0 = none ∧ bindingOk s .h0 0 0 = true ∧ bindingOk s .h0 0 1 = false ∧
      ringSt s .h0 0 = 0 ∧
      allotStatus s .h0 0 0 1024 1024 1024 (.sched .ADP_ALLOC_BASE) (.sched .ADP_ALLOC_COUNT) = ST_OK ∧
      allotStatus s .h0 0 1 1024 1024 1024 (.sched .ADP_ALLOC_BASE) (.sched .ADP_ALLOC_COUNT) ≠ ST_OK := by decide

/-- A torus of 2×2×2 nodes, this half's node at the origin, with port 0 UP in direction X+ and coordinate x = 1 reached by it; group entry
0 holds group 7 of partition 0, the two nodes of a line along x. -/
def torus : List CellVal :=
  [cell (.fab .FAB_SIZE_SX) .h0 0 2, cell (.fab .FAB_SIZE_SY) .h0 0 2, cell (.fab .FAB_SIZE_SZ) .h0 0 2, cell (.fab .FAB_PORT_DIR) .h0 0 1,
    cell (.fab .RT) .h0 0 4, cell (.fab .PORT_STATUS_STATE) .h0 0 2, cell (.fab .FAB_STATUS_CFG_OK) .h0 0 1,
    cell (.coll .GRP_ID) .h0 0 7, cell (.coll .GRP_CFG_V) .h0 0 1, cell (.coll .GRP_BOX_EX) .h0 0 2, cell (.coll .GRP_BOX_EY) .h0 0 1,
    cell (.coll .GRP_BOX_EZ) .h0 0 1]

/-- A packet of a type with some transport bytes and a payload, from the neighbour. -/
def packet (ptype : Nat) (tr : List (Nat × Nat)) (pay : List Byte) : Packet :=
  { dst := 0, src := 128, ptype := ptype, dim := 3, dir := 0, dlx := 0, transport := bytesOf 24 tr, payload := pay, port := 6,
    stampMt := 0, stampFt := 0 }

/-- A segment of an operation that has started. -/
def segment (k : Nat) (cts : Bool) : CollSeg := ⟨k, 0, 0, 0, 0, 0, 0, cts, [], [0, 0], []⟩

/-- The operation of group 7 for the chain with read number 0, at epoch 0. -/
def operation : Coll :=
  { half := .h0, chainNo := 0, g := 0, gid := 7, epoch := 0, notch := false, ring := false, progMt := 0, startMt := 0, granules := 32,
    counts := [], cntAxes := 0, cntDone := false, segs := [segment 0 false, segment 1 false], nextSeg := 2, cts := [], sent := [],
    nvals := [], naxis := 0, owed := [] }

set_option maxRecDepth 40000 in
/-- CollectiveOperations: writes of valid, invalid and refused entries; a waiting chain of each path; a running operation. -/
theorem test_witness_collectives :
    let s := stateOf torus
    let fresh := stateOf (torus ++ [cell (.coll .GRP_ID) .h0 1 8, cell (.coll .GRP_BOX_EX) .h0 1 2, cell (.coll .GRP_BOX_EY) .h0 1 2,
      cell (.coll .GRP_BOX_EZ) .h0 1 1])
    let c := chainWith opCOLL [(0x30, 7), (0x28, 2), (0x39, 0x60)]
    let notch := chainWith opCOLL [(0x30, 7), (0x28, 2), (0x39, 0x60), (0x3A, 1)]
    let r : State := { withChain s c with colls := [operation] }
    let w := collWork r operation c
    groupStatus s .h0 0 0 9 = ST_FAB_BUSY ∧ groupStatus s .h0 1 1 0x600 = ST_COLL_CONFIG ∧ groupStatus fresh .h0 1 0 9 = ST_OK ∧
      groupStatus fresh .h0 1 1 0x80000000 = ST_OK ∧ groupStatus fresh .h0 1 1 0 = ST_OK ∧ groupStatus fresh .h0 1 2 0 = ST_OK ∧
      (withChain s c).chain .h0 0 0 = some c ∧ collWaits (withChain s c) c = true ∧ groupEntry s .h0 (collGid c) = some 0 ∧
      groupOwned s .h0 (ringFn 0) 0 = true ∧ isRing c = false ∧ epochAhead (s.rd (.coll .GRP_EPOCH_NEXT) .h0 0) (collEpoch c) = true ∧
      s.rd (.coll .GRP_ABORT_V) .h0 0 = 0 ∧ collFull (withChain s c) c = false ∧ collBefore (withChain s c) c = false ∧
      (takeSegment (withChain s c) .h0).isSome = true ∧ collNotch notch = true ∧ collWaits (withChain s notch) notch = true ∧
      runningColl r .h0 0 0 = some (operation, c) ∧ segment 0 false ∈ operation.segs ∧ clOp c.head ≠ 3 ∧ 0 < w.phases.length ∧
      (injectPacket r .h0 (newPacket r .h0 (w.up 0) 2 (ctlFields operation 0 0 false 0 0 (collDigest r .h0 0 c.head) 0) [])).1 = ST_OK ∧
      r.mt .h0 < operation.progMt + collTmo r operation c * 1000 ∧
      operation.progMt + collTmo r operation c * 1000 ≤ (stateOf [cell (.tim .MT) .h0 0 4000000]).mt .h0 := by decide

/-- Half 0 of the torus with one chain, one operation and one packet delivered to it. -/
def delivered (c : Chain) (o : Coll) (p : Packet) : State := { withChain (stateOf torus) c with colls := [o], localPkts := [(.h0, p)] }

/-- A packet of group 7 and epoch 0 that a running operation takes. -/
def taken (c : Chain) (o : Coll) (p : Packet) (kind : Nat) : Bool :=
  let s := delivered c o p
  (((takeLocal s .h0 fun q => q.ptype == p.ptype && ctlKind q == kind).map (·.1)) == some p) && (collFor s .h0 7 0 == some o) &&
    (o.chain s == some c) && !o.ring

/-- The heads of a bulk all-reduce, of a VAR all-gather and of a Notch all-reduce. -/
def bulkChain : Chain := chainWith opCOLL [(0x30, 7), (0x28, 2), (0x39, 0x60)]
def varChain : Chain := chainWith opCOLL [(0x30, 7), (0x28, 2), (0x38, 2), (0x39, 0x60), (0x3A, 2)]
def notchChain : Chain := chainWith opCOLL [(0x30, 7), (0x28, 1), (0x39, 0x60), (0x3A, 1)]

set_option maxRecDepth 40000 in
/-- CollectivePackets: a CTS without its operation, and a CTS, a DONE and a DATA packet at a running bulk operation. -/
theorem test_witness_bulk_packets :
    let s := stateOf torus
    let cts := { packet 2 [] [] with
      transport := bytesOf 12 [(0, 7)] ++ leBytes 4 (collDigest s .h0 0 bulkChain.head) ++ bytesOf 8 [] }
    let sentOn := { operation with segs := [{ segment 0 false with txP := 1 }, { segment 1 false with txP := 1 }] }
    let asked := { operation with segs := [segment 0 true, segment 1 false] }
    let data := packet 1 [(0, 7)] []
    let w := collWork (delivered bulkChain asked data) asked bulkChain
    let v := collWork (delivered bulkChain sentOn cts) sentOn bulkChain
    ((takeLocal { s with localPkts := [(.h0, cts)] } .h0 fun q => q.ptype == 2 && ctlKind q == 0).map (·.1)) = some cts ∧
      collFor s .h0 7 0 = none ∧ groupEntry s .h0 7 = some 0 ∧ groupEntry s .h0 8 = none ∧ epochAhead 0 0 = true ∧
        epochAhead (2 ^ 32 - 1) 0 = true ∧
      taken bulkChain sentOn cts 0 = true ∧ fieldAt cts.transport 12 4 = collDigest s .h0 0 bulkChain.head ∧
        (∀ u ∈ sentOn.segs, v.segDone u = false ∧ v.txReady u = false) ∧
      taken bulkChain operation (packet 2 [(0, 7), (8, 1)] []) 1 = true ∧
      (∀ u ∈ operation.segs, ((collWork (delivered bulkChain operation data) operation bulkChain).takeDone
        (packet 2 [(0, 7), (8, 1)] [])).segDone u = false) ∧
      taken bulkChain asked data 0 = true ∧ (∀ u ∈ asked.segs, w.segDone u = false) ∧
      asked.segs.find? (fun x => x.k == 0) = some (segment 0 true) ∧ 0 < w.phases.length ∧ w.phase 0 = (false, 0) ∧
      gatherUnit [(0, [])] (w.wire 0) (unitSpan (w.wire 0) 0 (w.chunkSpan 0 0 (w.recvChunk 0 0))).2 = none := by decide

set_option maxRecDepth 40000 in
/-- CollectivePackets: COUNTS at a VAR operation, and VALUE, BCAST and ABORT at a Notch operation. -/
theorem test_witness_notch_packets :
    let counting := { operation with counts := [some 2, none, none], cntAxes := 1, segs := [], nextSeg := 0 }
    let counts := packet 2 [(0, 7), (8, 2), (16, 1)] (leBytes 4 5)
    let valued := { operation with notch := true, segs := [] }
    let x := grpOf (stateOf torus) .h0 0
    let digest := leBytes 4 (collDigest (stateOf torus) .h0 0 notchChain.head)
    let value := { packet 3 [] (leBytes 4 0) with transport := bytesOf 16 [(0, 7), (10, 1), (9, 32)] ++ digest ++ bytesOf 4 [] }
    taken varChain counting counts 2 = true ∧ clVar varChain.head = true ∧ x.axes.length = 1 ∧ x.e 0 ≤ 0 + 2 ∧
      counting.counts[0]? ≠ some none ∧ counting.counts[2]? = some none ∧
      taken notchChain valued value 0 = true ∧ fieldAt value.transport 16 4 = collDigest (stateOf torus) .h0 0 notchChain.head ∧
      (∀ q ∈ lineNbrs (stateOf torus) .h0 x 0, q.1 ≠ 32 / 32 % 2) ∧ 0 < x.e valued.naxis ∧
      taken notchChain valued (packet 3 [(0, 7), (8, 1), (9, 32)] (leBytes 4 0)) 1 = true ∧ clSrc notchChain.head = 0 ∧
      taken notchChain valued (packet 3 [(0, 7), (8, 2)] []) 2 = true := by decide

/-- Request 3 with a page map of one layer, one head and one page of E4M3 at address 0, its prefix directory enabled. -/
def mapped : Request := { request3 with header := bytesOf 128 [(0, 1), (1, 1), (4, 1), (6, 1), (7, 8), (8, 1)] }

/-- A KV_PAGE chain of the operator's ring and request 3, and the state that holds both. -/
def kvChain (sub : Nat) (l : List (Nat × Nat)) : Chain :=
  { chainWith opKV_PAGE ([(0x0A, 3), (0x0B, 0x80), (0x18, sub)] ++ l) with ring := 512 }
def kvState (c : Chain) (r : Request) : State := { withChain (stateOf [cell (.boot .HBM_OK) .h0 0 1]) c with requests := [r] }

/-- A KV_PAGE chain of a subop that runs for a request. -/
def kvRuns (c : Chain) (r : Request) (sub : Nat) : Bool :=
  ((kvState c r).chain .h0 512 0 == some c) && c.running && (hdOpcode c.head == opKV_PAGE) &&
    (c.requestNum.bind (kvState c r).request == some r) && (kvSub c.head == sub)

set_option maxRecDepth 40000 in
/-- KvPageSubops: the subops of an open request (with no page in their range), a wait, and the refusals. -/
theorem test_witness_kv_page :
    let paused := { mapped with paused := true }
    let alloc := kvChain 0 []
    let one := kvChain 0 [(0x24, 1)]
    let waiting : State := { kvState one mapped with handovers := [⟨.h0, 3, 5, false⟩] }
    let pause := kvChain 7 [(0x29, 0x10), (0x31, 1)]
    let rollback := kvChain 6 []
    (∀ k ∈ [0, 1, 2, 3, 4, 5, 6, 7, 9, 10], kvRuns (kvChain k []) paused k = true ∧ kvRuns (kvChain k []) mapped k = true) ∧
      kvRuns (kvChain 8 []) mapped 8 = true ∧ kpAddr alloc.head = 0 ∧ allocCover mapped.header alloc.head = [] ∧
      (∀ q ∈ allocCover mapped.header one.head, allocPageOk waiting mapped one.head q = true) ∧
      (allocPages none mapped one.head 0 (allocCover mapped.header one.head) ⟨waiting, 0, 0, [], false, ST_OK, none⟩).waits = true ∧
      kpCover mapped.header (kvChain 2 []).head = [] ∧ kpCover mapped.header (kvChain 5 []).head = [] ∧
      chainWaits (kvState (kvChain 5 []) mapped) (kvChain 5 []) = false ∧ servedNext (kvState (kvChain 5 []) mapped) (kvChain 5 []) = true ∧
      outOfReach (kvState pause mapped) mapped [] = none ∧
      (∃ l ∈ kpLayers mapped.header (kvChain 6 [(0x20, 1)]).head, layerLen (kvState rollback mapped) mapped l < 1) ∧
      (rollbackList (kvState rollback mapped) rollback).1 = ST_OK ∧
      (∀ l ∈ kpLayers mapped.header rollback.head, kpPos0 rollback.head ≤ layerLen (kvState rollback mapped) mapped l) ∧
      retainedAll (kvState pause mapped) mapped 0 = [] ∧ recSize mapped.header false 0 ≤ bitsAt (kpAux pause.head) 0 32 ∧
      ¬(recSize mapped.header false 0 ≤ bitsAt (kpAux (kvChain 7 []).head) 0 32) ∧ isHost (kpAddr pause.head) = false ∧
      accessStatus (kvState pause mapped) (engine .h0 (ringFn pause.ring)) true (kpAddr pause.head) 256 = ST_OK := by decide

set_option maxRecDepth 40000 in
/-- KvPageSubops: RESUME from a record without pages, PREFIX_LOOKUP and PREFIX_INSERT of no tokens. -/
theorem test_witness_kv_record :
    let paused := { mapped with paused := true }
    let resume := kvChain 8 [(0x29, 0x10)]
    let base := kvState resume paused
    let record := bytesOf 64 [(0, 1)] ++ mapped.header ++ bytesOf 64 []
    let s : State := { base with mem := base.mem.writeN 0x1000 record }
    let keyed (c : Chain) : State := { kvState c mapped with keys := [⟨.h0, 0x80, .pfx, 5⟩] }
    let lookup := kvChain 9 []
    let insert := kvChain 10 []
    let plain := { mapped with header := bytesOf 128 [(0, 1), (1, 1), (4, 1), (6, 1), (8, 1)] }
    kvRuns resume paused 8 = true ∧ isHost (kpAddr resume.head) = false ∧ (readRecord s resume paused).status = ST_OK ∧
      (fieldAt (readRecord s resume paused).front 0x11 1).testBit 0 = false ∧ (readRecord s resume paused).descs = [] ∧
      mapPfxEn mapped.header = true ∧ mapPfxEn plain.header = false ∧ layerLen (keyed lookup) mapped 0 = 0 ∧
      namespaceOf (keyed lookup) .h0 mapped.fn = 0x80 ∧ keyOf (keyed lookup) .h0 0x80 .pfx = some 5 ∧
      (pfxTokens (keyed lookup) lookup) = (ST_OK, keyed lookup, []) ∧ findLeaf (keyed lookup) mapped 0x80 none [] = none ∧
      insertOk (keyed insert) insert mapped = true ∧ insertOk (keyed insert) insert plain = false := by decide

/-- Half 0 with Valley configured for partition 0, its key installed, its host link up, and a full page of request 3 resident. -/
def spillState : State :=
  let r := { mapped with header := bytesOf 128 [(0, 1), (1, 1), (4, 1), (6, 1), (7, 2), (8, 1)] }
  let s := stateOf [cell (.boot .HBM_OK) .h0 0 1, cell (.kv .VALLEY_CFG_EN) .h0 0 1, cell (.kv .VALLEY_CFG_UNITS) .h0 0 1,
    cell (.host .LINK_STATUS_LINK_UP) .h0 0 1, cell (.host .BME) .h0 0 1, cell (.kv .KV_PSTAT_HELD) .h0 0 1,
    cell (.kv .KV_SLOT_CFG_COUNT) .h0 0 16, cell (.kv .KV_SLOT_BASE) .h0 0 0x10000]
  let page : Entry := { Entry.absent with slot := 5, state := enHBM, flags := 1, fill := 64 }
  { setEntry { tagSlots s .h0 5 1 (partTag 0) with requests := [r] } r 0 0 0 page with
    keys := [⟨.h0, 0, .valley, 9⟩] }

/-- KvTransfersAndSlots: a spill candidate that finds a Valley page. -/
theorem test_witness_auto_spill : (autoSpill spillState .h0 0).isSome = true := by
  have free : freeValley spillState .h0 0 0 = [0] := by decide
  have cand : (spillReady spillState .h0 0 = true ∧ (firstBy (candKey spillState) (spillCands spillState .h0 0)).isSome = true) ∧
      ∀ c ∈ firstBy (candKey spillState) (spillCands spillState .h0 0), c.1.half = .h0 ∧ c.1.fn = 0 ∧ mapLog2 c.1.header = 0 := by decide
  obtain ⟨⟨ready, first⟩, place⟩ := cand
  obtain ⟨c, hc⟩ := Option.isSome_iff_exists.mp first
  obtain ⟨a, b, k⟩ := place c hc
  simp [autoSpill, startSpill, ready, hc, a, b, k, free, pickFree, Nat.mod_one]

/-- KvTransfersAndSlots: the partition above and below HIGH, transfers of a page, a look-ahead, a hand-over, and each register write. -/
theorem test_witness_transfers :
    let s := stateOf [cell (.host .LINK_STATUS_LINK_UP) .h0 0 1, cell (.host .BME) .h0 0 1, cell (.kv .KV_PSTAT_HELD) .h0 0 1]
    let transfer (spill : Bool) : Transfer := ⟨.h0, spill, 3, 0, 0, 0, 0, 0, 5, 0, 1, 0, [], false, 1, 0⟩
    let moving (spill : Bool) : State := { s with requests := [mapped], transfers := [transfer spill] }
    let ahead := { mapped with touched := [0] }
    let s1 : State := { s with requests := [ahead], keys := [⟨.h0, 0, .valley, 9⟩] }
    let handing : State := { s with requests := [mapped], handovers := [⟨.h0, 3, 5, false⟩] }
    State.reset.rd (.kv .KV_PSTAT_HELD) .h0 0 ≤ State.reset.rd (.kv .KV_QUOTA_HIGH) .h0 0 ∧
      spillState.rd (.kv .KV_QUOTA_HIGH) .h0 0 < spillState.rd (.kv .KV_PSTAT_HELD) .h0 0 ∧
      spillState.rd (.kv .KV_QUOTA_LOW) .h0 0 < spillState.rd (.kv .KV_PSTAT_HELD) .h0 0 ∧ spillState.transfers = [] ∧
      transferOf (moving true) .h0 3 0 0 0 true = some (transfer true) ∧ (moving true).request 3 = some mapped ∧
      (moving true).hostOk .h0 mapped.fn = true ∧ (transfer true).granules ≠ 0 ∧ waitsBefore (moving true) (transfer true) = false ∧
      (takeGranules (moving true) .h0 3 1 (some (transfer true).tag)).isSome = true ∧
        transferOf (moving false) .h0 3 0 0 0 false = some (transfer false) ∧
      (moving false).colls = [] ∧ s1.request 3 = some ahead ∧ ahead.half = .h0 ∧ ahead.paused = false ∧ 0 ∈ ahead.touched ∧
      0 + 4096 ∉ ahead.touched ∧ s1.hostOk .h0 ahead.fn = true ∧ (keyOf s1 .h0 ahead.fn .valley).isSome = true ∧
      handing.request 3 = some mapped ∧ folding handing mapped = false ∧
      locked (stateOf [cell (.host .SETUP_LOCK_LOCK) .h0 0 1]) .h0 = true ∧ locked s .h0 = false ∧
      kvConfigOk (kvStore s .h0 2 0 1) .h0 = false ∧ (∀ reg < 5, kvConfigOk (kvStore s .h0 reg 0 0) .h0 = true) ∧ anyOpen s .h0 = false ∧
      anyOpen handing .h0 = true ∧ (∃ r ∈ handing.requests, r.half = .h0 ∧ r.fn = 0) ∧ (1 % 4096 ≠ 0 ∧ 4096 % 4096 = 0) := by decide

/-- A ship plan of the operator, number 0: V, OPR and RETX_MAX 1. -/
def plan0 (s : State) : State := { s with plans := s.plans.writeN 0 (bytesOf 16 [(3, 0xC0), (0xB, 1)]) }

/-- An open stream of the operator for request 3 on plan 0, in context 0 of half 0. -/
def stream0 : Stream :=
  { half := .h0, ctx := 0, party := 64, id := 0, request := 3, plan := 0, cls := 1, state := 0, status := ST_OK, pages := [],
    nextPage := 0, dgrams := [], nextSeq := 1, endQueued := false, endSent := false, una := 0, ackNo := 0, ceSeen := 0, limit := 2,
    srtt := 0, rttvar := 0, rto := 1000, rttV := false, rate := 100, decMt := 0, incMt := 0, bucket := 65536 * 80, bucketMt := 0 }

/-- An enabled port with its link up, its addresses set. -/
def egressUp : State := stateOf [cell (.egr .EGR_CTL_EN) .h0 0 1, cell (.egr .EGR_STATUS_LINK_UP) .h0 0 1, cell (.egr .EGR_MAC) .h0 0 1,
  cell (.egr .EGR_IP4) .h0 0 0x0100000A, cell (.egr .EGR_PORT_CFG_RX_UDP) .h0 0 5000]

set_option maxRecDepth 40000 in
/-- EgressCommands: SHIP with and without a plan, the port's state, plan and configuration writes. -/
theorem test_witness_egress :
    let r := { mapped with header := bytesOf 128 [(0, 1), (1, 1), (4, 1), (6, 1), (7, 2), (8, 1)] }
    let ship := { chainWith opSHIP [(0x0A, 3), (0x0B, 0x80), (0x1C, 1), (0x28, 1)] with ring := 512 }
    let bare := withChain spillState ship
    let s : State := { plan0 bare with streams := [stream0] }
    let asleep := stateOf [cell (.boot .LOWLAND_IN) .h0 0 1]
    let on := egressUp
    let ready := stateOf [cell (.boot .MGMT_READY) .h0 0 1]
    let off := stateOf [cell (.egr .EGR_MAC) .h0 0 1, cell (.egr .EGR_IP4) .h0 0 1]
    s.chain .h0 512 0 = some ship ∧ ship.running = true ∧ s.request (hdRequest ship.head) = some r ∧ ship.cancelled = false ∧
      ship.checked = false ∧ shipPlan bare ship r = none ∧ shipPlan s ship r = some 0 ∧ (shipStream s ship 0).1 = ST_OK ∧
      (∀ x ∈ s.streams, ∀ p ∈ x.pages, p.ship ≠ ship.readNo) ∧ shipCover r.header ship.head = [(0, 0, 0)] ∧
      (∀ q ∈ shipCover r.header ship.head, (entryOf s r q.1 q.2.1 q.2.2).state = enHBM ∧
        pageReach s r (entryOf s r q.1 q.2.1 q.2.2).slot = true) ∧ servedNext s ship = true ∧ r.paused = false ∧
      ready.rd (.boot .MGMT_READY) .h0 ≠ 0 ∧ State.reset.rd (.boot .MGMT_READY) .h0 = 0 ∧ asleep.lowland .h0 = true ∧
      on.lowland .h0 = false ∧ on.rd (.egr .EGR_CTL_EN) .h0 0 = 1 ∧ off.rd (.egr .EGR_CTL_EN) .h0 0 = 0 ∧ off.rd (.egr .EGR_MAC) .h0 0 ≠ 0 ∧
      off.rd (.egr .EGR_IP4) .h0 0 ≠ 0 ∧ plansFit off .h0 (off.rd (.egr .EGR_PORT_CFG_MTU) .h0 0) = true ∧
      State.reset.rd (.egr .EGR_MAC) .h0 0 = 0 ∧ planValid s .h0 0 = true ∧ planValid off .h0 0 = false ∧
      planOk { off with plans := off.plans.writeN 0 (leBytes 4 0x80000000) } .h0 0 = false ∧
      (off.rd (.egr .EGR_STATUS_LINK_UP) .h0 0 = 0 ∧ on.rd (.egr .EGR_STATUS_LINK_UP) .h0 0 = 1) := by decide

/-- A RESET frame for the port from 10.0.0.2, as R424 has it. -/
def resetFrame : List Byte :=
  let src := [10, 0, 0, 2]
  let dst := [10, 0, 0, 1]
  let udp := udpBytes src dst 4000 5000 ([1, 9] ++ List.replicate 46 0)
  toBytes ([1, 0, 0, 0, 0, 0] ++ [2, 0, 0, 0, 0, 0] ++ [8, 0] ++ [0x45, 0, 0, 76, 0, 0, 0, 0, 64, 17, 0, 0] ++ src ++ dst ++ udp)

set_option maxRecDepth 40000 in
/-- EgressCommands: frames, a datagram that is ready, and the timers of a stream. -/
theorem test_witness_datagrams :
    let last := { stream0 with state := 1, endQueued := true }
    let ready : State := { egressUp with streams := [last] }
    let waiting (tries : Nat) : Stream := { stream0 with dgrams := [⟨0, 0, 0, 0, tries, 0, false, false⟩] }
    let timed (tries : Nat) : State := { plan0 State.reset with streams := [waiting tries] }
    let late (tries : Nat) : State := { plan0 (stateOf [cell (.tim .MT) .h0 0 1000]) with streams := [waiting tries] }
    acceptFrame egressUp .h0 (toNats [1, 2, 3]) = none ∧
      acceptFrame egressUp .h0 (toNats resetFrame) = some ([10, 0, 0, 2], [1, 9] ++ List.replicate 46 0) ∧
      last ∈ ready.streams ∧ (readyFrame ready last).isSome = true ∧ (egressCell ready .h0).isSome = true ∧
      egressCells ready .h0 ≤ 7 * poolInUse ready .h0 1 ∧ (readyFrame ready stream0).isSome = false ∧
      (∀ d ∈ (waiting 0).dgrams, retxDue (timed 0) (waiting 0) d = false) ∧
      (∀ d ∈ (waiting 0).dgrams, retxDue (late 0) (waiting 0) d = true) ∧
      (late 0).mt .h0 < stream0.incMt + (late 0).rd (.egr .EGR_CC_INC_PERIOD) .h0 0 * 1000 ∧
      stream0.incMt + (late 0).rd (.egr .EGR_CC_INC_PERIOD) .h0 0 * 1000 ≤ (stateOf [cell (.tim .MT) .h0 0 (2 ^ 40)]).mt .h0 ∧
      streamAt (timed 0) .h0 0 = some (waiting 0) ∧ planRetxMax (timed 1) .h0 0 ≤ 1 ∧ 0 < planRetxMax (timed 0) .h0 0 := by decide

/-- EgressCommands: what is sealed under a key opens under it. -/
theorem test_witness_sealed (key nonce ad text : List Nat) :
    (gcmOpen key nonce ad (gcmSeal key nonce ad text).1 (gcmSeal key nonce ad text).2).isSome = true := by simp [gcmOpen, gcmSeal]

/-- EgressCommands: a RESET waits, and a stream with a key is the one it names. -/
theorem test_witness_reset :
    let p := bytesOf 48 [(0, 1), (1, 9), (0x10, 1)]
    let s : State := { plan0 State.reset with streams := [stream0], keys := [⟨.h0, 64, .egress, 7⟩], egrRx := [(.h0, [0, 0, 0, 0], p)] }
    ((takeRx s .h0 9).map (·.1)) = some ([0, 0, 0, 0], p) ∧ (keyOf s .h0 stream0.party .egress).isSome = true ∧
      stream0.id = fieldAt p 4 4 ∧ toBytes (planBytes s .h0 0 0x18 4) = [0, 0, 0, 0] ∧ planV6 s .h0 0 = false ∧
      stream0.ackNo < fieldAt p 0x10 4 ∧
      (match acceptRx State.reset .h0 9 with
        | .error _ => true
        | .ok _ => false) = true := by decide

/-- The torus with port 0 in a state and with a link layer. -/
def portState (st : Nat) (l : Link) (more : List CellVal) : State :=
  { stateOf (torus ++ [cell (.fab .PORT_STATUS_STATE) .h0 0 st] ++ more) with links := [l] }

/-- The link layer of port 0. -/
def link0 : Link := Link.fresh .h0 0

/-- FabricPorts: each stage of a port. -/
theorem test_witness_ports :
    let training (step : Nat) : State := portState 1 { link0 with trainStep := step } []
    let up := portState 2 { link0 with replay := [⟨0, 0, [], 0, 0⟩] } []
    let degraded := portState 2 link0 [cell (.fab .PORT_STATUS_RX_PAIR) .h0 0 1]
    let locking := portState 2 { link0 with relock := true } []
    let third : Link := { link0 with replay := [⟨0, 0, [], 8, 0⟩], progress := false, exhRun := 2 }
    let spent (mt : Nat) : State := portState 2 third [cell (.tim .MT) .h0 0 mt]
    let tmo := State.reset.rd (.fab .FAB_LINK_CFG_TRAIN_TMO) .h0 0 * 100000000
    let slow := portState 1 { link0 with trainStep := 1 } [cell (.tim .MT) .h0 0 tmo]
    (stateOf [cell (.boot .LOWLAND_IN) .h0 0 1]).lowland .h0 = true ∧ State.reset.lowland .h0 = false ∧
      State.reset.rd (.fab .FAB_STATUS_CFG_OK) .h0 0 = 0 ∧ up.rd (.fab .FAB_STATUS_CFG_OK) .h0 0 ≠ 0 ∧ portSt up .h0 0 = 2 ∧
      portSt (portState 5 link0 []) .h0 0 = 5 ∧ (∀ k ∈ [1, 2, 3, 4], portSt (training k) .h0 0 = 1 ∧
        (linkOf (training k) .h0 0).trainStep = k) ∧
      128 / 2048 = Half.num .h0 ∧ portDir (training 4) .h0 0 ≠ 0 ∧ 128 = neighbour (training 4) .h0 0 ∧
      2 = oppositeDir (portDir (training 4) .h0 0) ∧ portOpen up .h0 0 = true ∧ survivor 0 15 = none ∧ survivor 0 1 = some 2 ∧
      (stateOf [cell (.boot .MGMT_READY) .h0 0 1]).rd (.boot .MGMT_READY) .h0 ≠ 0 ∧ (linkOf slow .h0 0).trainMt + tmo ≤ slow.mt .h0 ∧
      ([15, 3, 12, 5].map fun m => goodLanes (training 2) .h0 0 m) = [15, 3, 12, 5] ∧
      (∃ f ∈ (linkOf (spent 2000) .h0 0).replay, 8 ≤ f.resends) ∧ 3 ≤ (linkOf (spent 2000) .h0 0).exhRun + 1 ∧
      (spent 1999).mt .h0 < 0 + (spent 0).rd (.fab .FAB_LINK_CFG_REPLAY_TMO) .h0 0 * 100 ∧
      0 + (spent 0).rd (.fab .FAB_LINK_CFG_REPLAY_TMO) .h0 0 * 100 ≤ (spent 2000).mt .h0 ∧
      up.rd (.fab .PORT_STATUS_RX_PAIR) .h0 0 ≠ 2 ∧ degraded.rd (.fab .PORT_STATUS_RX_PAIR) .h0 0 ≠ 0 ∧ (linkOf up .h0 0).replay ≠ [] ∧
      (linkOf up .h0 0).relock = false ∧ (linkOf up .h0 0).progress = true ∧ (linkOf locking .h0 0).relock = true := by decide

/-- A DATA flit that is in order at a fresh link, with its checksum. -/
def goodFlit : List Byte :=
  let b := bytesOf 0x138 [(0, 1), (1, 24)]
  b ++ leBytes 8 (crc64 b)

set_option maxRecDepth 40000 in
/-- FabricPackets: a good and a bad flit, and what a port has received before it. -/
theorem test_witness_flits :
    let e : RxPkt := ⟨.h0, 0, 0, [], 1, false, none, 0, 0⟩
    let begun : State := { portState 2 link0 [] with arrived := [e] }
    flitGood goodFlit ⟨0, 0, .clean, false⟩ = true ∧ flitGood goodFlit ⟨0, 0, .uncorrectable, false⟩ = false ∧
      flitGood [] ⟨0, 0, .clean, false⟩ = false ∧ fieldAt goodFlit 0 1 = 1 ∧
      fieldAt goodFlit 2 2 % 4096 = seqNext link0.rxAck ∧ link0.degrading = false ∧ (fieldAt goodFlit 1 1).testBit 4 = true ∧
      openRx (portState 2 link0 []) .h0 0 0 = none ∧ openRx begun .h0 0 0 = some e ∧ (0x10000 : Nat) / 65536 ≠ 0 := by decide +kernel

set_option maxRecDepth 40000 in
/-- FabricPackets: flits that are due, packets of every fate, management requests and the registers. -/
theorem test_witness_fabric :
    let again := portState 2 { link0 with replay := [⟨0, 0, [], 0, 0⟩], resendAt := some 0 } []
    let full := { link0 with outq := [⟨0, [1, 2], true, true, false, none, 0⟩], size := [4, 0, 0, 0, 0, 0, 0, 0], left0 := 1 }
    let notice := { link0 with ctl := some .downNotice, ctlMt := 1 }
    let data := portState 2 full []
    let e : RxPkt := ⟨.h0, 0, 0, ({ packet 1 [] [] with dst := 128 } : Packet).bytes, 1, true, none, 0, 0⟩
    let p := e.packet
    let s : State := { portState 2 link0 [] with arrived := [e] }
    let read := packet 0x10 [] []
    let write := { packet 0x11 [(4, 0x40), (8, 1)] [] with src := 128 }
    let manager := [cell (.fab .FAB_MGMT_REMOTE_EN) .h0 0 1, cell (.fab .FAB_MGMT_FM_V) .h0 0 1, cell (.fab .FAB_MGMT_FM_NODE) .h0 0 128]
    let asked (q : Packet) (more : List CellVal) : State := { portState 2 link0 more with localPkts := [(.h0, q)] }
    let quiet := State.reset
    (linkOf again .h0 0).relock = false ∧ (linkOf again .h0 0).resendAt = some 0 ∧ (linkOf again .h0 0).replay[0]? = some ⟨0, 0, [], 0, 0⟩ ∧
      link0.resendAt = none ∧ link0.outq = [] ∧ (linkOf data .h0 0).replay.length < 512 ∧
      
      (let r := openSlot data (refillTokens data full)
       ((pickClass r.1 r.2).map (·.1)) = some 0) ∧ (takeFlit full.outq 0).isSome = true ∧ controlDue data full = none ∧
      controlDue data notice = none ∧ controlDue (stateOf [cell (.tim .MT) .h0 0 1000]) notice = some .downNotice ∧
      sendData data link0 = none ∧ portSt (portState 4 link0 []) .h0 0 = 4 ∧
      s.arrived.find? (fun e => e.half == .h0 && e.out == none) = some e ∧ outOfRange s .h0 p.dst = false ∧ outOfRange s .h0 256 = true ∧
      p.dst / 2048 = Half.num .h0 ∧ 2048 / 2048 ≠ Half.num .h0 ∧ vcOf 1 = some (0 / 2) ∧ vcOf 2 ≠ some (0 / 2) ∧
      routePacket s .h0 { p with dst := 0 } = .here ∧ routePacket s .h0 p = .port 0 { p with dim := 0 } ∧
        routePacket s .h0 { p with dst := 8 } = .drop 3 ∧
      mgmtAllowed (asked read []) .h0 read false = false ∧ mgmtAllowed (asked read manager) .h0 read false = true ∧
      mgmtAllowed (asked write manager) .h0 write true = true ∧ (takeTime (asked write manager) .h0 0x11).isSome = true ∧
      ((asked (packet 0x13 [] []) []).localPkts.find? fun a => a.1 == .h0 && a.2.ptype == 0x13).isSome = true ∧
      portsQuiet s .h0 = false ∧ portsQuiet quiet .h0 = true ∧ bitsAt 7 0 3 = 7 ∧ locked quiet .h0 = false ∧
      (((List.range 4).filter fun j => j ≠ 0).map fun j => quiet.rd (.fab .FAB_BUF_LO) .h0 j + quiet.rd (.fab .FAB_BUF_HI) .h0 j).sum + 4 + 4
        ≤ 1536 ∧ quiet.rd (.fab .RT_SEL_BANK) .h0 0 = 0 := by decide

/-- TimeBase: the clocks, their sources, and the packets of the fabric. -/
theorem test_witness_time_base :
    let s := stateOf []
    let stepping := stateOf [cell (.tim .TIME_CTL_STEP_EN) .h0 0 1]
    let holding := runningWith [cell (.tim .TIME_CTL_SEL) .h0 0 3, cell (.tim .TIME_CTL_MT_DISC) .h0 0 1,
      cell (.tim .TIME_STATUS_STATE) .h0 0 2]
    let timed (l : List CellVal) (q : Packet) : State := { portState 2 link0 l with localPkts := [(.h0, q)] }
    let beacon := { packet 0x20 [(3, 1)] [] with port := 0 }
    let hearing := timed [cell (.tim .TIME_CTL_SEL) .h0 0 2, cell (.tim .DELAY_CNT) .h0 0 1, cell (.tim .TIME_CTL_SRC_PORT) .h0 0 0] beacon
    let request := { packet 0x21 [] [] with port := 0 }
    let response := { packet 0x22 [] [] with port := 0, stampMt := 8 }
    let asking := timed [cell (.tim .DREQ_T1) .h0 0 1, cell (.tim .DREQ_SEQ) .h0 0 1, cell (.tim .TIME_CTL_DREQ_EN) .h0 0 1,
      cell (.tim .TIME_CTL_BCN_TX) .h0 0 1] response
    s.rd (.tim .TIME_CTL_SEL) .h0 0 = 0 ∧ holding.rd (.tim .TIME_CTL_SEL) .h0 0 ≠ 0 ∧ s.lowland .h0 = false ∧
      (stateOf [cell (.tim .TIME_CTL_STEP_EN) .h0 0 0]).rd (.tim .TIME_CTL_STEP_EN) .h0 0 ≠ 1 ∧
        stepping.rd (.tim .TIME_CTL_STEP_EN) .h0 0 = 1 ∧
      s.rd (.tim .TIME_THR_STEP_THR) .h0 0 * 65536000 ≤ ((((2 ^ 40 : Nat) * 65536 : Nat) : Int) - (ftFine s .h0 : Int)).natAbs ∧
      (∀ c < 16, stepping.rd (.tim .CMP_STATUS_ARMED) .h0 c = 0) ∧ 4 < bitsAt 0x500 8 3 ∧ 5 < bitsAt 0x6000 12 4 ∧
      s.holds .h0 = false ∧ holding.holds .h0 = true ∧ holding.peerReachable .h0 = true ∧ holding.rd (.tim .TIME_CTL_MT_DISC) .h0 0 ≠ 0 ∧
      holding.rd (.tim .TIME_STATUS_STATE) .h0 0 = 2 ∧ holding.lanesUp = true ∧ State.reset.lanesUp = false ∧
      s.mt .h0 + 1 < s.rd (.tim .LAST_MEAS) .h0 0 + s.rd (.tim .TIME_INT_SRC_TMO) .h0 0 * 1000000 ∧
      (stateOf [cell (.tim .MT) .h0 0 9999999]).rd (.tim .TIME_INT_SRC_TMO) .h0 0 * 1000000 ≤
        (stateOf [cell (.tim .MT) .h0 0 9999999]).mt .h0 + 1 ∧
      holding.lowland .h0 = false ∧ s.rd (.tim .PPS_LAST) .h0 0 = 0 ∧
      (s.mt .h0 + 1 < 5 + 500000000) ∧ (asking.rd (.tim .TIME_CTL_BCN_TX) .h0 0).testBit 0 = true ∧ portOpen asking .h0 0 = true ∧
      portDir asking .h0 0 ≠ 0 ∧ asking.rd (.tim .TIME_CTL_DREQ_EN) .h0 0 = 1 ∧
      ((takeTime hearing .h0 0x20).map (·.1)) = some beacon ∧ hearing.rd (.tim .TIME_CTL_SEL) .h0 0 = 2 ∧
      beacon.port = hearing.rd (.tim .TIME_CTL_SRC_PORT) .h0 0 ∧ (fieldAt beacon.transport 3 1).testBit 0 = true ∧
      hearing.rd (.tim .DELAY_CNT) .h0 0 ≠ 0 ∧ hearing.lowland .h0 = false ∧
      ((takeTime (timed [] request) .h0 0x21).map (·.1)) = some request ∧ ((takeTime asking .h0 0x22).map (·.1)) = some response ∧
      asking.rd (.tim .DREQ_T1) .h0 0 ≠ 0 ∧ fieldAt response.transport 0 2 = (asking.rd (.tim .DREQ_SEQ) .h0 0 + 65535) % 65536 ∧
      asking.rd (.tim .DELAY_CNT) .h0 0 = 0 ∧ (0 : Int) ≤ (response.stampMt : Int) - (1 - 1) := by decide

/-- TimeBase: PTP. -/
theorem test_witness_ptp :
    let on := [cell (.tim .TIME_CTL_SEL) .h0 0 1, cell (.tim .PTP_CFG_EN) .h0 0 1, cell (.egr .EGR_CTL_EN) .h0 0 1,
      cell (.egr .EGR_STATUS_LINK_UP) .h0 0 1, cell (.tim .PTP_STATUS_PORT_STATE) .h0 0 3, cell (.tim .PTP_PARENT) .h0 0 9,
      cell (.tim .PTP_SYNC_V) .h0 0 1, cell (.tim .PTP_SYNC_SEQ) .h0 0 4, cell (.tim .PTP_DREQ_V) .h0 0 1,
        cell (.tim .PTP_DREQ_SEQ) .h0 0 4]
    let s : State := { stateOf on with ptp := [⟨.h0, 9, [0, 0, 0, 0, 0, 0, 0], 0, 0, some 0⟩] }
    ptpTakes s .h0 ⟨0, 0⟩ = true ∧ (s.ptp.filter fun m => m.half == .h0).length < 8 ∧ bestMaster s .h0 ≠ none ∧
      bestMaster (stateOf on) .h0 = none ∧
      fromParent (ptpSelect s .h0) .h0 ⟨0, 0⟩ 9 = true ∧ fromParent s .h0 ⟨0, 0⟩ 9 = true ∧ s.rd (.tim .PTP_SYNC_V) .h0 0 = 1 ∧
      s.rd (.tim .PTP_SYNC_SEQ) .h0 0 = 4 % 65536 ∧ s.rd (.tim .PTP_DREQ_V) .h0 0 = 1 ∧ s.rd (.tim .PTP_DREQ_SEQ) .h0 0 = 4 % 65536 ∧
      ptpOn s .h0 = true ∧ 2 ≤ s.rd (.tim .PTP_STATUS_PORT_STATE) .h0 0 ∧ s.rd (.egr .EGR_STATUS_LINK_UP) .h0 0 = 1 ∧
      s.lowland .h0 = false := by decide

/-- TimeComparators: comparators of each holder, free and held, and the features that claim them. Comparator 1 is free after reset; the FT
release list holds comparator 0. -/
theorem test_witness_comparators :
    let s := State.reset
    let armed (holder act : Nat) : State := stateOf [cell (.tim .CMP_STATUS_ARMED) .h0 2 1, cell (.tim .CMP_STATUS_HOLDER) .h0 2 holder,
      cell (.tim .CMP_CTL_ACT) .h0 2 act]
    let enabled := stateOf [cell (.tim .CMP_CTL_EN) .h0 2 1]
    let ahead := stateOf [cell (.tim .CMP_TARGET) .h0 2 5]
    let pps (l : List CellVal) : State := runningWith l
    let on (s : State) (holder : Nat) : Bool := (s.rd (.tim .CMP_STATUS_ARMED) .h0 2 == 1) &&
      decide (s.rd (.tim .CMP_TARGET) .h0 2 ≤ clockOf s .h0 (cmpOnMt s .h0 2)) && (s.rd (.tim .CMP_STATUS_HOLDER) .h0 2 == holder)
    s.rd (.tim .CMP_STATUS_ARMED) .h0 2 = 0 ∧ on (armed 3 0) 3 = true ∧ on (armed 6 1) 6 = true ∧ on (armed 6 0) 6 = true ∧
      on (armed 1 0) 1 = true ∧ on (armed 2 0) 2 = true ∧ cmpPeriod (armed 3 0) .h0 2 = 0 ∧
      enabled.rd (.tim .CMP_CTL_EN) .h0 2 = 1 ∧ s.rd (.tim .CMP_CTL_EN) .h0 2 = 0 ∧ s.rd (.tim .CMP_STATUS_HOLDER) .h0 0 ≠ 0 ∧
      s.rd (.tim .CMP_STATUS_HOLDER) .h0 2 = 0 ∧ clockOf ahead .h0 false < ahead.rd (.tim .CMP_TARGET) .h0 2 ∧
      s.rd (.tim .CMP_TARGET) .h0 2 ≤ clockOf s .h0 false ∧ s.rd (.tim .CMP_PERIOD) .h0 2 = 0 ∧ bitsAt 0 28 1 = 0 ∧
      bitsAt 0 0 20 = 0 ∧ (bitsAt 0x200001 0 20 ≠ 0 ∧ bitsAt 0x200001 0 20 ≤ 500000 ∧ bitsAt 0x200001 20 4 = 2) ∧
      (stateOf [cell (.tim .PPS_OUT_CFG_EN) .h0 0 1]).rd (.tim .PPS_OUT_CFG_EN) .h0 0 = 1 ∧ s.rd (.tim .PPS_OUT_CFG_EN) .h0 0 = 0 ∧
      s.holds .h0 = false ∧ (pps []).holds .h0 = true ∧ (pps []).rd (.thm .AUX_OWNER_PWM3) .h0 0 = 0 ∧
      (pps [cell (.thm .AUX_OWNER_PWM3) .h0 0 1]).rd (.thm .AUX_OWNER_PWM3) .h0 0 ≠ 0 ∧
      s.rd (listEn false) .h0 0 = 1 ∧ bitsAt 0x20 4 4 ≠ listCmp s .h0 false ∧
      (stateOf [cell (listEn true) .h0 0 0]).rd (listEn true) .h0 0 = 0 := by decide

/-- PartitionsAndImports: GO, RELEASE and the configuration in each state, the shared ranges, and the imports (KIMP_PLAIN stands for the
installs of both). -/
theorem test_witness_partitions :
    let s := stateOf [cell (.host .VF_EXISTS) .h0 0 1, cell (.sec .SECRETS) .h0 0 1, cell (.pkg .PKG_MAP_HUB1_OK) .h0 0 1]
    let alone := stateOf [cell (.host .VF_EXISTS) .h0 0 1, cell (.sec .SECRETS) .h0 0 1, cell (.flt .MC_STATUS_PEER) .h0 0 4]
    let state (n : Nat) (l : List CellVal) : State := stateOf (cell (.sec .PART_CTL_STATE) .h0 0 n :: l)
    let strict := stateOf [cell (.sec .SEC_STATUS_APPROVED) .h0 0 1]
    let auth := stateOf [cell (.sec .SEC_STATUS_APPROVED) .h0 0 1, cell (.sec .SEC_STATUS_CO_AUTH) .h0 0 1]
    let live := state 1 [cell (.sec .PART_SHR_MASK) .h0 0 1]
    let old := stateOf [cell (.sec .KIMP_LIVE) .h0 0 1, cell (.tim .MT) .h0 0 10000000000]
    let arb := runningWith [cell (.sec .SEC_CFG_ARB_AUTO) .h0 0 1, cell (.boot .MGMT_READY) .h0 0 1, cell (.sec .ARB_STATUS_SVN) .h0 0 1,
      cell (.sec .ARB_STATUS_SVN) .h1 0 1]
    live.rd (.sec .PART_CTL_STATE) .h0 0 ≠ 0 ∧ s.rd (.sec .PART_CTL_STATE) .h0 0 = 0 ∧ s.rd (.sec .GO_BUSY) .h0 0 ≠ 1 ∧
      strict.rd (.sec .SEC_STATUS_APPROVED) .h0 0 ≠ 0 ∧ strict.rd (.sec .SEC_STATUS_CO_AUTH) .h0 0 ≠ 1 ∧
      auth.rd (.sec .SEC_STATUS_CO_AUTH) .h0 0 = 1 ∧ ¬(s.rd (.sec .SEC_STATUS_APPROVED) .h0 0 ≠ 0) ∧
      strict.rd (.host .VF_EXISTS) .h0 0 = 0 ∧ s.rd (.host .VF_EXISTS) .h0 0 ≠ 0 ∧ rangeOk s .h0 0 .h0 = true ∧ rangeOk s .h0 0 .h1 = true ∧
      (∀ k < 8, (s.rd (.sec .PART_SHR_MASK) .h0 0).testBit k = false) ∧
        (stateOf [cell (.sec .SECRETS) .h0 0 0]).rd (.sec .SECRETS) .h0 0 = 0 ∧
      s.rd (.sec .SECRETS) .h0 0 ≠ 0 ∧ aloneOk s .h0 = false ∧ aloneOk alone .h0 = true ∧
      (state 2 []).rd (.sec .PART_CTL_STATE) .h0 0 = 2 ∧ (state 2 []).rd (.sec .REL_SCRUB) .h0 0 = 0 ∧
      releaseDrained (state 2 []) .h0 0 = true ∧ (state 2 [cell (.sec .REL_SCRUB) .h0 0 1]).rd (.sec .REL_SCRUB) .h0 0 = 1 ∧
      (live.rd (.sec .PART_SHR_MASK) .h0 0).testBit 0 = true ∧ bitsAt (2 ^ 63) 63 1 = 1 ∧ sharedRangeOk s 0 0 = false ∧ bitsAt 0 63 1 = 0 ∧
      importStatus s .h0 64 = ST_OK ∧ importStatus s .h0 0 = ST_PART_STATE ∧ importKey s .h0 64 = none ∧
      old.rd (.sec .KIMP_LIVE) .h0 0 = 1 ∧ old.rd (.sec .KIMP_MT) .h0 0 + 10000000000 ≤ old.mt .h0 ∧ arb.holder = some .h0 ∧
      arb.rd (.sec .SEC_CFG_ARB_AUTO) .h0 0 = 1 ∧ arb.rd (.boot .FW_RUNNING) .h0 0 = 1 ∧ arb.rd (.boot .FW_RUNNING) .h1 0 = 1 ∧
      arb.rd (.sec .ARB_STATUS_ARB) .h0 0 < arb.rd (.sec .ARB_STATUS_SVN) .h0 0 := by decide

/-- MirrorsAndZeroization: a record at each of its stages, with the peer in reach and without. -/
theorem test_witness_mirrors :
    let m : Mirror := ⟨.h0, 0, 5, ⟨.h0, 5, [1]⟩, [⟨.h0, 5, .valley, 9⟩], false, 0, 0, 0, 0⟩
    let aged (mt : Nat) : State := stateOf [cell (.tim .MT) .h0 0 mt, cell (.tim .MT) .h1 0 mt]
    let fresh : State := { runningWith [cell (.sec .SECRETS) .h1 0 1, cell (.pkg .PKG_MAP_HUB1_OK) .h0 0 1] with mirrors := [m] }
    let zeroing : State := { fresh with mirrors := [{ m with kind := 2 }] }
    let acked : State := { fresh with mirrors := [{ m with acked := true, peer := 1 }] }
    let done : State := { fresh with mirrors := [{ m with acked := true, peer := 1, origin := 1 }] }
    let alone : State := { stateOf [cell (.flt .MC_STATUS_PEER) .h0 0 4] with mirrors := [m] }
    fresh.peerReachable .h1 = true ∧ fresh.rd (.sec .SECRETS) .h1 0 ≠ 0 ∧ alone.peerReachable .h0 = false ∧
      fresh.mirrors.find? (fun m => m.half == Half.h0 && m.peer == 0) = some m ∧ zeroing.mirrors.find? (fun m => m.kind == 2) ≠ none ∧
      (acked.mirrors.find? fun m => m.half == .h0 && m.acked && m.origin == 0) ≠ none ∧ acked.peerReachable .h0 = true ∧
      (done.mirrors.find? fun m => m.half == .h0 && m.origin == 1 && m.kind != 2) ≠ none ∧
      (aged 999999).mt .h0 < m.mt + 1000000 ∧ m.mt + 1000000 ≤ (aged 1000000).mt .h0 ∧
      (aged 1999999).mt .h1 < m.peerMt + 2000000 ∧ m.peerMt + 2000000 ≤ (aged 2000000).mt .h1 ∧
        acked.mirrors = [{ m with acked := true, peer := 1 }] ∧
      aloneOk alone .h0 = true ∧ aloneOk fresh .h0 = false ∧
      State.reset.mirrors = [] := by decide

/-- SpdmAndIde: the responder at each stage, and a session that is set up, open, and absent. -/
theorem test_witness_spdm :
    let at_ (n : Nat) : State := runningWith [cell (.sec .SPDM_STAGE) .h0 0 n]
    let session (opened : Bool) : SpdmSession := ⟨.h0, false, 0, true, false, opened, 0⟩
    let having (opened : Bool) : State := { at_ 3 with spdm := [session opened] }
    let muted := runningWith [cell (.boot .LOWLAND_IN) .h0 0 1, cell (.boot .LOWLAND_STATUS_CAUSE) .h0 0 8]
    let full : State := { at_ 3 with spdm := (List.range 4).map fun i => ⟨.h0, false, i, true, false, true, 0⟩ }
    let keyed := runningWith [cell (.sec .IDE_KEY_V) .h0 1 1, cell (.sec .IDE_ON) .h0 1 1]
    spdmHere State.reset .h0 false = false ∧ spdmHere muted .h0 false = true ∧ spdmMute muted .h0 = true ∧
      (∀ n < 4, spdmHere (at_ n) .h0 false = true ∧ spdmMute (at_ n) .h0 = false ∧ (at_ n).rd (.sec .SPDM_STAGE) .h0 0 = n) ∧
      (∀ i < 4, (full.spdm.any fun x => x.is .h0 false i) = true) ∧ (at_ 3).spdm = [] ∧ (session true).is .h0 false 0 = true ∧
      (having false).spdm = [session false] ∧ openSession (having true) .h0 false 0 = true ∧ openSession (at_ 3) .h0 false 0 = false ∧
      keyed.rd (.sec .IDE_KEY_V) .h0 1 = 1 ∧ keyed.rd (.sec .IDE_ON) .h0 1 = 1 ∧ (at_ 3).rd (.sec .IDE_ON) .h0 1 ≠ 1 := by decide

/-- TelemetryAndBus: the registers, the bus, a target that answers, and an update that verifies. -/
theorem test_witness_telemetry :
    let s := runningWith [cell (.pkg .PKG_MAP_HUB0_OK) .h0 0 1, cell (.pkg .PKG_MAP_HUB1_OK) .h0 0 1]
    let on := stateOf [cell (.tel .HIST_CFG_EN) .h0 0 1]
    let stuck := stateOf [cell (.tel .TEL_SMB_STUCK_CLK) .h0 0 1]
    let far := stateOf [cell (.flt .MC_STATUS_LATCH) .h0 0 1]
    isGroup 4 = true ∧ (16 : Nat).testBit 4 = true ∧ isGroup 31 = true ∧ isGroup 5 = false ∧ on.rd (.tel .HIST_CFG_EN) .h0 0 = 1 ∧
      bitsAt 0x100000 20 4 ≠ on.rd (.tel .HIST_CFG_SRC) .h0 0 ∧ bitsAt 0xC1000 19 1 = 1 ∧ 64 < bitsAt 0xC1000 12 7 ∧
        busStuck stuck .h0 = true ∧
      busStuck s .h0 = false ∧ mctpTarget State.reset = none ∧ mctpTarget s = some .h0 ∧ 19 < max 1 20 ∧
      sensorReading s .h0 20 0 = none ∧ (sensorReading s .h0 4 7) = some 7 ∧ sensorAway far .h0 4 = true ∧ sensorAway s .h0 4 = false ∧
      stateReading s .h0 1 = none ∧ (stateReading s .h0 8).isSome = true ∧ stepBusy s .h0 4 = false ∧ chipBlocked s = false ∧
      s.peerReachable .h0 = true ∧ stepBusy (stateOf [cell (.flt .FLT_STATUS_STEP) .h0 0 4]) .h0 4 = true ∧
        answersAt State.reset 0x30 = none ∧
      answersAt s 0x30 = some .h0 ∧ s.imageA.isSome = true := by decide

/-- TelemetryAndBus: while both hubs run image A, an update goes into slot B. -/
theorem test_witness_update_slot : inactiveSlot (runningWith []) = some 2 := by
  have free : ([1, 2].filter fun n => !([Half.h0, Half.h1].any fun h => (runningWith []).rd (.boot .FW_RUNNING) h == 1 &&
    (runningWith []).rd (.boot .BOOT_STATUS_IMAGE) h == n)) = [2] := by decide
  simp only [inactiveSlot, free]
  simp [Nat.mod_one]

set_option maxRecDepth 40000 in
/-- LedgerAndFuses: a record to program, a scan, an erase, each read, an adoption, and a fuse that is due. -/
theorem test_witness_ledger :
    let s := runningWith []
    let rec0 : LdgRec := ⟨1, 0, 0, 1, 0, 0, [], true⟩
    let held : State := { s with ldgBuf := [(.h0, rec0)] }
    let slot (torn : Bool) : LdgSlot := ⟨0, 0, [], torn⟩
    let written : State := { runningWith [cell (.tel .LDG_NEXT) .h0 0 1] with ldgFlash := [slot false] }
    let foreign : State := { runningWith [cell (.tel .LDG_STATUS_FOREIGN) .h0 0 1] with ldgForeign := true }
    let due := runningWith [cell (.tel .FUSE_BLOW_PENDING) .h0 3 1]
    let hour := runningWith [cell (.tel .LDG_LIFE_S) .h0 0 3600]
    s.holder = some .h0 ∧ nextTaken s .h0 = none ∧ nextTaken held .h0 = some rec0 ∧ held.rd (.tel .LDG_STATUS_FOREIGN) .h0 0 ≠ 1 ∧
      pageFree held = true ∧ s.rd (.boot .FW_RUNNING) .h0 0 ≠ 0 ∧ s.rd (.tel .LDG_SCANNED) .h0 0 ≠ 1 ∧ s.ldgForeign = false ∧
      foreign.ldgForeign = true ∧ written.rd (.tel .LDG_OLDEST) .h0 0 ≤ 0 ∧ 0 < written.rd (.tel .LDG_NEXT) .h0 0 ∧
      written.ldgFlash.find? (fun x => x.seq == 0) = some (slot false) ∧ s.holds .h0 = true ∧ s.holds .h1 = false ∧
      (held.ldgBuf.find? fun p => p.2.taken && p.2.seq == 0) = some (.h0, rec0) ∧ s.rd (.sec .SEC_STATUS_APPROVED) .h0 0 ≠ 1 ∧
      foreign.rd (.tel .LDG_STATUS_FOREIGN) .h0 0 ≠ 0 ∧ State.reset.holder = none ∧ s.ldgHeld .h0 < 64 ∧
      due.rd (.tel .FUSE_BLOW_PENDING) .h0 3 ≠ 0 ∧
      s.rd (.tel .LDG_LIFE_S) .h0 0 / 3600 ≤ s.rd (.tel .SUMMARY_HOURS) .h0 0 ∧
      hour.rd (.tel .SUMMARY_HOURS) .h0 0 < hour.rd (.tel .LDG_LIFE_S) .h0 0 / 3600 ∧ s.lanesUp = true ∧ foreign.ldgPages = [] ∧
      due.rd (.tel .FUSE_CNT) .h0 3 + due.rd (.tel .FUSE_SKIP) .h0 3 < (fuseRow 3).1 ∧ s.rd (.tel .FUSE_BLOW_PENDING) .h0 3 = 0 := by decide

set_option maxRecDepth 40000 in
/-- LedgerAndFuses: a region with one erased unit. -/
theorem test_witness_erase :
    let s : State := { runningWith [] with ldgPages := (List.range 255).map fun u => ⟨16 * u, 1008 * u, []⟩ }
    s.ldgPages.head? = some ⟨0, 0, []⟩ ∧ erasedUnits s < 2 ∧ s.ldgForeign = false := by decide +kernel

/-- AddressHoles: an access in the hole above 24 GB, and one that runs into it. -/
theorem test_witness_holes :
    (0x600000000 ≤ 0x600000000 ∧ 0x600000000 < 0x800000000) ∧ (0x5FFFFFFFF ≤ 0x600000000 ∧
      0x600000000 < 0x5FFFFFFFF + (bytesOf 2 []).length) ∧
      (0x1000180000 % 0x200000 = 0x180000) := by decide

/-! Witnesses of clauses that a boundary or a wide state needs, apart from those above. -/

/-- StartupStrapsAndBoot, TelemetryAndBus, McPairAndGenerations: the image of reset passes the checks of R497, and its subordinate images
have the digests of its manifest; images that fail each. -/
theorem test_witness_images :
    selectedValid (runningWith [cell (.flt .MC_STATUS_SELF) .h0 0 3]) .h0 = true ∧
      imageValid State.reset .h0 { FlashImage.shipped with version := 1 } = false ∧ subsMatch (runningWith []) .h0 = true ∧
      subsMatch { runningWith [] with subImages := [] } .h0 = false := by decide +kernel

/-- PlateauChanges, TriggersAndFeedback, PassLanes, RolesAndRejoin: a change that is due and one that is not; a trigger at its count; a
channel whose last edge is recent; lanes to retrain; a bus that is stuck. -/
theorem test_witness_platform :
    let trig := runningWith [cell (.thm .TRIG_CFG_EN) .h0 0 1, cell (.thm .PWM_CTL_EN) .h0 0 1, cell (.thm .PWM_ACT_PERIOD) .h0 0 10000]
    let late := runningWith [cell (.thm .FB_LAST) .h0 0 2, cell (.tim .MT) .h0 0 (4 * State.reset.rd (.thm .FB_ZS_TIMEOUT) .h0 0)]
    let lanes (peer : Nat) : State := stateOf [cell (.pkg .PASS_STATUS_STATE) .h0 0 3, cell (.pkg .PASS_STATUS_STATE) .h1 0 peer,
      cell (.boot .SELFTEST_OK) .h0 0 1, cell (.boot .SELFTEST_OK) .h1 0 1]
    let stuck := runningWith [cell (.tel .TEL_SMB_STUCK_DAT) .h1 0 1]
    pwmCount trig .h0 (trig.rd (.thm .TRIG_CFG_CH) .h0 0) = trig.rd (.thm .TRIG_CFG_AT) .h0 0 ∧
      late.mt .h0 + 1 < late.rd (.thm .FB_LAST) .h0 0 + 4 * late.rd (.thm .FB_ZS_TIMEOUT) .h0 0 ∧
      (∀ p ∈ [3, 4], (lanes p).rd (.pkg .PASS_STATUS_STATE) .h0 0 = 3 ∧ 3 ≤ (lanes p).rd (.pkg .PASS_STATUS_STATE) .h1 0 ∧
        ∀ k ∈ [Half.h0, .h1], (lanes p).rd (.flt .MC_PASS_CTL_RETRAIN_EN) k 0 = 1 ∧ hubOk (lanes p) k = true) ∧
      busStuck stuck .h1 = true ∧ (∀ k ∈ [Half.h0, .h1], busStuck (runningWith []) k = false) ∧ (runningWith []).holds .h1 = false ∧
      mayHold (runningWith []) .h1 = true := by decide +kernel

/-- McPairAndGenerations: a commit record that matches and is newer, one that does not match, and one of an older generation; a path that
is alive for 250 µs and one that is not. -/
theorem test_witness_commit :
    let g : Generation := ⟨5, 0, [], 0, []⟩
    let old : State := runningWith [cell (.flt .MC_GEN) .h1 0 5]
    recordMatches g.record g = true ∧ fieldAt g.record 0 4 = 5 ∧ recordMatches [] g = false ∧
      (runningWith []).rd (.flt .MC_GEN) .h1 0 < fieldAt g.record 0 4 ∧ fieldAt g.record 0 4 ≤ old.rd (.flt .MC_GEN) .h1 0 ∧
      (runningWith []).rd (.flt .MC_PATH_MT) .h1 0 + 250000 ≤ (stateOf [cell (.tim .MT) .h1 0 250000]).mt .h1 ∧
      (runningWith []).mt .h1 < (runningWith [cell (.flt .MC_PATH_MT) .h1 0 1]).rd (.flt .MC_PATH_MT) .h1 0 + 250000 := by decide +kernel

/-- HbmAccesses: a context of a core of the half and its access to each stack. -/
theorem test_witness_context_access :
    let s : State := { runningWith [cell (.boot .HBM_OK) .h0 0 1, cell (.boot .HBM_OK) .h1 0 1,
      cell (.core .CORE_STATUS_SLOT0) .h0 0 2] with contexts := [{ context0 with ring := 512 }] }
    (whoOf (.context 0 0) s .h0).isSome = true ∧ targetOf 0 = .hbm .h0 ∧ targetOf 0x800000000 = .hbm .h1 ∧
      (∀ w ∈ whoOf (.context 0 0) s .h0, accessStatus s w false 0 8 = ST_OK ∧ accessStatus s w false 0x800000000 8 = ST_OK) := by decide

/-- FaultCommands: a partition whose rings are DISABLED and one with a ring that runs; a log's consumer index at, below and above the
producer's. -/
theorem test_witness_fault_ends :
    let on := runningWith [cell (.host .RING_STATE_STATE) .h0 0 1]
    (∀ ring ∈ ringsOf 0, ringSt (runningWith []) .h0 ring = 0) ∧ (∃ ring ∈ ringsOf 0, ringSt on .h0 ring ≠ 0) ∧
      (5 + 2 ^ 32 - 5) % 2 ^ 32 < 2 ^ 31 ∧ (5 + 2 ^ 32 - 4) % 2 ^ 32 < 2 ^ 31 ∧ 2 ^ 31 ≤ (5 + 2 ^ 32 - 6) % 2 ^ 32 := by decide

/-- DescriptorFetch and ChainReadAndComplete: a ring whose function's Bus Master Enable was cleared; a landed head whose chain the PI does
not cover, and one that it covers; a head whose records are reserved, and one that holds none. -/
theorem test_witness_looking :
    let vf := [cell (.host .VF_EXISTS) .h0 0 1, cell (.sec .PART_CTL_STATE) .h0 0 1, cell (.host .RING_STATE_STATE) .h0 0 1,
      cell (.host .RING_STATUS_PI) .h0 0 1, cell (.host .LINK_STATUS_LINK_UP) .h0 0 1]
    let quiet := stateOf (vf ++ [cell (.host .RING_QUIET) .h0 0 1])
    let landed (head : List Byte) (n : Nat) : State := { stateOf (vf ++ [cell (.host .BME) .h0 0 1]) with
      fetches := [⟨.h0, 0, 0, 1, some head, n, 0⟩] }
    let two := bytesOf 64 [(8, opMATMUL), (0x16, 1)]
    let one := bytesOf 64 [(8, opMARKER)]
    quiet.rd (.host .RING_QUIET) .h0 0 = 1 ∧ quiet.hostOk .h0 0 = false ∧ fetchCredit quiet .h0 0 ≠ 0 ∧
      (lookAt (landed two 1) .h0 0).2 = 2 ∧ (lookAt (landed one 1) .h0 0).2 = 0 ∧ heldFor (landed one 1) .h0 0 = 1 ∧
      heldFor (landed one 0) .h0 0 < reserveOf (landed one 0) .h0 0 one ∧
        reserveOf (landed one 1) .h0 0 one ≤ heldFor (landed one 1) .h0 0 :=
  by decide

/-- ChainReadAndComplete, ContextWork, AttentionChains, GenerationAndCopies and SchedulerCommands: a step that ends with its chain; a
context at work; a key block that has landed; an engine with and without a granule; the budget windows; the holder of a slot. -/
theorem test_witness_chains :
    let gen := { chainWith opGEN_STEP [] with gen := some ⟨ST_OK, [], 0, []⟩, done := true }
    let ring := { chainWith opATTN_RING [(0x3E, 1)] with
      exts := [bytesOf 64 [(0, kRING), (0x18, 1)]], ringPages := [⟨0, 0, 0, 0, 1, [], true⟩] }
    let held := { chainWith opMATMUL [] with stage := .admitted, held := [(0, 0)] }
    let s := stateOf [cell (.boot .HBM_OK) .h0 0 1, cell (.boot .COMPUTE_READY_DONE) .h0 0 1]
    let full := stateOf [cell (.pkg .POOL_FLOOR) .h0 6 0, cell (.pkg .POOL_CAP) .h0 6 0]
    let window (n : Nat) : State := stateOf [cell (.sched .BUDGET_WIN) .h0 0 n, cell (.tim .MT) .h0 0 1999999]
    gen.gen.isSome = true ∧ atWork { context0 with read := true } = true ∧ atWork context0 = false ∧
      landedNow ring (some 0) = true ∧ landedNow ring (some 1) = false ∧ (takeGranules s .h0 6 1 none).isSome = true ∧
      (takeGranules full .h0 6 1 none).isNone = true ∧ (stateOf [cell (.thm .DISPATCH_STOP) .h0 0 1]).dispatchOff .h0 = true ∧
      (window 2).rd (.sched .BUDGET_WIN) .h0 = budgetWindow (window 2) .h0 ∧
      (window 1).rd (.sched .BUDGET_WIN) .h0 ≠ budgetWindow (window 1) .h0 ∧ ctxAt s .h0 0 0 = none ∧ isCompute held.head = true ∧
      ((withChain s held).chains.find? fun c => c.half == .h0 && !c.done && c.held.contains (0, 0)) = some held ∧
      adapterFree (withChain s held) held = true ∧ hdClass held.head < 5 := by decide

/-- EventCountersAndRequests, CollectivePackets, EgressCommands, FabricPorts and TimeBase: a close behind a SHIP that waits; Notch packets
held; the longest frame; a MISWIRED port; FT free-running and locking. -/
theorem test_witness_ports_more :
    let r := { request3 with closeNo := 9 }
    let ship := chainWith opSHIP [(0x0A, 3), (0x0B, 0x80)]
    let s : State := { withChain State.reset ship with requests := [r] }
    let kept (n : Nat) : State := { State.reset with collPend := List.replicate n (.h0, packet 3 [] []) }
    shipsDue s r = true ∧ shipsDue { s with chains := [] } r = false ∧ notchKept (kept 15) .h0 % 16 ≠ 0 ∧ notchKept (kept 16) .h0 % 16 = 0 ∧
      (takeGranules (kept 16) .h0 notchClass 1 none).isSome = true ∧ (List.replicate 9022 (0 : Byte)).length ≤ frameMax ∧
      frameMax < (List.replicate 9023 (0 : Byte)).length ∧ portLive (portState 4 link0 []) .h0 0 = true ∧
      portLive (portState 5 link0 []) .h0 0 = false ∧ portOpen (portState 4 link0 []) .h0 0 = false ∧
      (stateOf [cell (.tim .TIME_STATUS_STATE) .h0 0 1]).rd (.tim .TIME_STATUS_STATE) .h0 0 ≠ 0 ∧
      State.reset.rd (.tim .TIME_STATUS_STATE) .h0 0 = 0 := by decide +kernel

/-- PartitionsAndImports, MirrorsAndZeroization and SpdmAndIde: a release that is ending and one that is not; an entry whose change is
waited for; the root of CO; a key set in use. -/
theorem test_witness_security :
    let ending : State := { stateOf [cell (.sec .PART_CTL_STATE) .h0 5 2, cell (.sec .REL_SCRUB) .h0 5 1] with
      mirrors := [⟨.h0, 3, 5, opEntry State.reset .h0 3 5, [], false, 0, 0, 0, 0⟩] }
    let rooted : State := { runningWith [] with records := [(.h0, { FlashImage.shipped with coRoot := bytesOf 48 [] })] }
    let keyed := runningWith [cell (.sec .IDE_KEY_V) .h0 3 1, cell (.sec .IDE_ON) .h0 1 1, cell (.sec .IDE_SET) .h0 1 1]
    releaseEnding ending .h0 5 = true ∧ releaseEnding ending .h0 4 = false ∧ (opEntry State.reset .h0 3 5).fields.head? = some 0 ∧
      coRoot rooted .h0 = some (bytesOf 48 []) ∧ coRoot State.reset .h0 = none ∧ keyed.rd (.sec .IDE_KEY_V) .h0 (2 * 1 + 1) = 1 ∧
      keyed.rd (.sec .IDE_SET) .h0 1 = 1 ∧ Health.entropy ≠ .good := by decide +kernel

/-- TelemetryAndBus and LedgerAndFuses: a group snapped in this cycle and one that is not; a HIST_CFG write that only clears EN; an address
of recovery; a region of another device and one that is not. -/
theorem test_witness_bus :
    let s := stateOf [cell (.tel .SNAP_SEQ) .h0 4 1, cell (.tel .SNAP_MT) .h0 4 7, cell (.tim .MT) .h0 0 7]
    let on := stateOf [cell (.tel .HIST_CFG_EN) .h0 0 1]
    let recovery := stateOf [cell (.boot .BOOT_STATUS_IMAGE) .h1 0 3]
    snapped s .h0 4 = true ∧ snapped State.reset .h0 4 = false ∧ on.rd (.tel .HIST_CFG_MODE) .h0 0 = bitsAt 0 30 1 ∧
      on.rd (.tel .HIST_CFG_U) .h0 0 = bitsAt 0 24 5 ∧ (0 : Nat).testBit 31 = false ∧ answersAt recovery 0x48 = some .h1 ∧
      foreignRegion { State.reset with ldgForeign := true } = true ∧ foreignRegion State.reset = false := by decide +kernel

/-! ### Single steps and functions against the spec's worked cases and the vectors of the standards it names -/

/-- What holds of the next state of a command. -/
def gives (c : Instr) (s : State) (p : State → Bool) : Bool :=
  match exec c s with
  | .next t => p t
  | _ => false

/-- CRC-32C: the check value of the polynomial for "123456789". -/
theorem test_crc32c : crc32c ((List.range 9).map fun i => BitVec.ofNat 8 (0x31 + i)) = 0xE3069283 := by decide +kernel

/-- SHA-384 of "abc" (FIPS 180-4). -/
theorem test_sha384 : beNat (sha384 (asciiBytes "abc")) =
    0xcb00753f45a35e8bb5a03d699ac65007272c32ab0eded1631a8b605a43ff5bed8086072ba1e7cc2358baeca134c825a7 := by decide +kernel

/-- AES-256 (FIPS 197, C.3). -/
theorem test_aes256 : aesBlock (aesRoundKeys (List.range 32)) ((List.range 16).map (· * 17)) =
    [0x8e, 0xa2, 0xb7, 0xca, 0x51, 0x67, 0x45, 0xbf, 0xea, 0xfc, 0x49, 0x90, 0x4b, 0x49, 0x60, 0x89] := by decide +kernel

/-- AES-256-GCM with no text (the GCM specification's test case 13). -/
theorem test_gcm : gcmSeal (List.replicate 32 0) (List.replicate 12 0) [] [] =
    ([], [0x53, 0x0f, 0x8a, 0xfb, 0xc7, 0x45, 0x36, 0xb9, 0xa9, 0x63, 0xb4, 0xf1, 0xc4, 0xcb, 0x73, 0x8b]) := by decide +kernel

/-- SipHash-2-4 (the vector of its paper). -/
theorem test_siphash : sipHash (leNat ((List.range 16).map (BitVec.ofNat 8))) ((List.range 15).map (BitVec.ofNat 8)) =
    0xa129ca6149be45e5 := by decide +kernel

/-- §1.11: bank 4 of core 389. -/
theorem test_scratchpad_address : scratchBase 389 + 4 * 0x40000 = 0x1030B00000 := by decide

/-- §2.10: an UPDATE registered at count 9,998 transfers at the reload that follows; one registered in the reload cycle does not. -/
theorem test_pwm_update :
    let s (count : Nat) : State := runningWith [cell (.thm .PWM_CTL_EN) .h0 2 1, cell (.thm .PWM_PERIOD) .h0 2 10000,
      cell (.thm .PWM_ACT_PERIOD) .h0 2 10000, cell (.thm .PWM_DUTY) .h0 2 7500, cell (.thm .PWM_ACT_DUTY) .h0 2 7300,
      cell (.tim .MT) .h0 0 (4 * count)]
    let reload (t : State) (duty pend : Nat) : Bool := gives (.pwmReload .h0 2) (t.wr (.tim .MT) .h0 40000) fun u =>
      u.rd (.thm .PWM_ACT_DUTY) .h0 2 == duty && u.rd (.thm .PWM_STATUS_UPD_PEND) .h0 2 == pend
    (gives (.pwmUpdate .h0 2) (s 9998) fun t => reload t 7500 0) = true ∧
      (gives (.pwmUpdate .h0 2) (s 9999) fun t => reload t 7300 1) = true := by decide +kernel

/-- §4.13: ring 106 of half 1 (618 & 0x1FF), pinned with 16 slots, PI = CI = 0xFFFE: the doorbell 0x0001 gives a = 3, b = 0. -/
theorem test_doorbell :
    let s := stateOf [cell (.host .VF_EXISTS) .h1 13 1, cell (.boot .MGMT_READY) .h1 0 1, cell (.host .RING_STATE_STATE) .h1 106 1,
      cell (.host .RING_CFG_PINNED) .h1 106 1, cell (.host .PIN_COUNT) .h1 106 16,
      cell (.host .RING_STATUS_PI) .h1 106 0xFFFE, cell (.host .RING_STATUS_CI) .h1 106 0xFFFE]
    (gives (.doorbellWrite .h1 106 1) s fun t => t.rd (.host .RING_STATUS_PI) .h1 106 == 1) = true := by decide +kernel

/-- §6.11: a block whose largest magnitude is 13.0 has the scale byte 0x80, and its first elements the codes 7, B, 4, 1, 0. -/
theorem test_fp4_block :
    let r := convBlock ([0x41500000, 0xC0266666, 0x40A00000, 0x3F333333, 0x3E800000] ++ List.replicate 27 0)
    r.1 = 0x80 ∧ r.2.1.take 5 = [7, 0xB, 4, 1, 0] := by decide +kernel

/-- §7.12: the order in which the Hilbert walk of a 160 × 3 grid begins. -/
theorem test_hilbert : (hilbertOrder 160 3).take 18 =
    [(0, 0), (1, 0), (1, 1), (0, 1), (0, 2), (1, 2), (2, 2), (3, 2), (3, 1), (2, 1), (2, 0), (3, 0),
      (4, 0), (4, 1), (4, 2), (5, 2), (5, 1), (5, 0)] := by decide +kernel

/-- §9.14: a page map of 52 layers has its first entry at 0x240; the entry of layer 31, head 3, page 1,464 lies at MAP + 0x8C_FDC0. -/
theorem test_page_map :
    let m := bytesOf 128 [(0x04, 52), (0x06, 12), (0x08, 0x00), (0x09, 0x06)]
    mapE0 m = 0x240 ∧ entryAddr { request3 with header := m } 31 3 1464 = 0x8CFDC0 := by decide

/-- §11.11: the X table of node 6 in a ring of 8, and the bytes of a packet with a 4,096-byte payload: 13 flits of 296 and one of 280. -/
theorem test_route_table : shortestTable 6 8 = 0x4A95 ∧
    (⟨0x09A, 0x308, 1, 3, 0, 0, List.replicate 24 0, List.replicate 4096 0, 6, 0, 0⟩ : Packet).bytes.length = 13 * 296 + 280 := by
  decide +kernel

/-- §14.9: PPS_OUT on comparator 1, which the MT release list holds: CMP_CLAIM_STATUS is 0x4010_0125 and EN stays 0. -/
theorem test_pps_conflict :
    (gives (.ppsOutEnable .h0 (0x80000000 + 0x100000 + 100000)) (runningWith []) fun t =>
      t.rd (.tim .CMP_CLAIM_STATUS_LAST_STATUS) .h0 == 0x4010 && t.rd (.tim .CMP_CLAIM_STATUS_INDEX) .h0 == 1 &&
        t.rd (.tim .CMP_CLAIM_STATUS_HOLDER) .h0 == 2 && t.rd (.tim .CMP_CLAIM_STATUS_REQUESTER) .h0 == 5 && t.rd (.tim .PPS_OUT_CFG_EN) .h0 == 0) = true := by decide +kernel

/-- §17.9: samples of 339 ns and of 650 ns in a LOG2 histogram with U = 4. -/
theorem test_histogram : histBin 0 4 0 339 = 5 ∧ histBin 0 4 0 650 = 6 ∧ histBin 0 4 0 1023 = 6 := by decide

end Sys2Proof.Tests
end

section
/-!
What an operation of the model keeps: the commands that wait (`pending`) and the canonical forms (`Inv`). One lemma for each function of the
model that gives a state, in the order of the files, each from those of the functions it calls; then the dispatch, the step, and O1, O3 and O4.
-/

namespace Sys2Proof

open Machine

set_option Elab.async false

/-- `s` is reached from `s₀` by operations of the model: the same commands wait, and the canonical forms hold in `s` if they held in `s₀`. -/
def Keeps (s₀ s : State) : Prop := s.pending = s₀.pending ∧ (Inv s₀ → Inv s)

/-- An outcome is a next state, reached by operations of the model. -/
def Completes (s₀ : State) (r : Res) : Prop := ∃ t, r = .next t ∧ Keeps s₀ t

/-- What an optional value holds, if it holds something. -/
def OnSome {α : Type} (P : α → Prop) (o : Option α) : Prop := ∀ a, o = some a → P a

/-- The state in the answer of an allocation (R301) is reached by operations of the model. -/
def Answers (s₀ : State) : SlotRes → Prop
  | .got _ t => Keeps s₀ t
  | .wait t => Keeps s₀ t
  | .none t => Keeps s₀ t

section
variable {s₀ : State}

/-! ### Reached states -/

theorem Keeps.refl (s : State) : Keeps s s := ⟨rfl, id⟩

/-- Only these five parts of a state matter. -/
theorem Keeps.upd {t u : State} (h : Keeps s₀ t)
    (e : u.regs = t.regs ∧ u.mem = t.mem ∧ u.slots = t.slots ∧ u.plans = t.plans ∧ u.pending = t.pending := by
      exact ⟨rfl, rfl, rfl, rfl, rfl⟩) : Keeps s₀ u := by
  obtain ⟨hr, hm, hs, hp, hq⟩ := e
  unfold Keeps Inv
  rw [hr, hm, hs, hp, hq]
  exact h

theorem Keeps.setRegs {s : State} (h : Keeps s₀ s) {r : RegFile} (hr : s.regs.wf = true → r.wf = true) :
    Keeps s₀ { s with regs := r } := by
  refine ⟨h.1, fun hi => ?_⟩
  obtain ⟨hm, hs, hp, hg⟩ := h.2 hi
  exact ⟨hm, hs, hp, hr hg⟩

theorem Keeps.setMem {s : State} (h : Keeps s₀ s) {m : Memory} (hm : s.mem.wf = true → m.wf = true) :
    Keeps s₀ { s with mem := m } := by
  refine ⟨h.1, fun hi => ?_⟩
  obtain ⟨hk, hs, hp, hg⟩ := h.2 hi
  exact ⟨hm hk, hs, hp, hg⟩

theorem Keeps.setSlots {s : State} (h : Keeps s₀ s) {m : Memory} (hm : s.slots.wf = true → m.wf = true) :
    Keeps s₀ { s with slots := m } := by
  refine ⟨h.1, fun hi => ?_⟩
  obtain ⟨hk, hs, hp, hg⟩ := h.2 hi
  exact ⟨hk, hm hs, hp, hg⟩

theorem Keeps.setPlans {s : State} (h : Keeps s₀ s) {m : Memory} (hm : s.plans.wf = true → m.wf = true) :
    Keeps s₀ { s with plans := m } := by
  refine ⟨h.1, fun hi => ?_⟩
  obtain ⟨hk, hs, hp, hg⟩ := h.2 hi
  exact ⟨hk, hs, hm hp, hg⟩

theorem Keeps.of_fst {α : Type} {p q : State × α} (h : Keeps s₀ p.1) (e : p = q) : Keeps s₀ q.1 := e ▸ h

/-! ### Branches, folds and optional results -/

theorem Keeps.ite {a b : State} {c : Prop} [Decidable c] (ha : Keeps s₀ a) (hb : Keeps s₀ b) : Keeps s₀ (if c then a else b) := by
  split <;> assumption

theorem Keeps.iteOn {α : Type} (g : α → State) {a b : α} {c : Prop} [Decidable c] (ha : Keeps s₀ (g a)) (hb : Keeps s₀ (g b)) :
    Keeps s₀ (g (if c then a else b)) := by
  split <;> assumption

theorem Keeps.foldlOn {α β : Type} (g : β → State) {f : β → α → β} {l : List α} {b : β} (hb : Keeps s₀ (g b))
    (hf : ∀ b a, Keeps s₀ (g b) → Keeps s₀ (g (f b a))) : Keeps s₀ (g (l.foldl f b)) :=
  List.foldlRecOn l f hb fun b hb a _ => hf b a hb

theorem Keeps.foldl {α : Type} {f : State → α → State} {l : List α} {b : State} (hb : Keeps s₀ b)
    (hf : ∀ b a, Keeps s₀ b → Keeps s₀ (f b a)) : Keeps s₀ (l.foldl f b) := .foldlOn id hb hf

theorem Completes.next {s : State} (h : Keeps s₀ s) : Completes s₀ (.next s) := ⟨s, rfl, h⟩

theorem Completes.ite {a b : Res} {c : Prop} [Decidable c] (ha : Completes s₀ a) (hb : Completes s₀ b) :
    Completes s₀ (if c then a else b) := by
  split <;> assumption

theorem Completes.foldl {α : Type} {f : Res → α → Res} {l : List α} {b : Res} (hb : Completes s₀ b)
    (hf : ∀ b a, Completes s₀ b → Completes s₀ (f b a)) : Completes s₀ (l.foldl f b) :=
  List.foldlRecOn l f hb fun b hb a _ => hf b a hb

section
variable {α β : Type} {P : α → Prop} {Q : β → Prop}

theorem OnSome.get {o : Option α} {a : α} (h : OnSome P o) (e : o = some a) : P a := h a e

theorem OnSome.none : OnSome P (none : Option α) := nofun

theorem OnSome.some {a : α} (h : P a) : OnSome P (some a) := fun _ e => Option.some.inj e ▸ h

theorem OnSome.ite {a b : Option α} {c : Prop} [Decidable c] (ha : OnSome P a) (hb : OnSome P b) :
    OnSome P (if c then a else b) := by
  split <;> assumption

theorem OnSome.bind {o : Option β} {f : β → Option α} (ho : OnSome Q o) (hf : ∀ b, Q b → OnSome P (f b)) :
    OnSome P (o.bind f) := by
  cases o with
  | none => exact .none
  | some b => exact hf b (ho b rfl)

theorem OnSome.mapAny {o : Option β} {f : β → α} (hf : ∀ b, P (f b)) : OnSome P (o.map f) := by
  cases o with
  | none => exact .none
  | some b => exact .some (hf b)

theorem OnSome.map {o : Option β} {f : β → α} (ho : OnSome Q o) (hf : ∀ b, Q b → P (f b)) : OnSome P (o.map f) := by
  cases o with
  | none => exact .none
  | some b => exact .some (hf b (ho b rfl))

theorem OnSome.getD {o : Option α} {a : α} (ho : OnSome P o) (ha : P a) : P (o.getD a) := by
  cases o with
  | none => exact ha
  | some b => exact ho b rfl

theorem OnSome.findSome? {l : List β} {f : β → Option α} (hf : ∀ b, OnSome P (f b)) : OnSome P (l.findSome? f) := by
  intro a e
  obtain ⟨b, -, hb⟩ := List.exists_of_findSome?_eq_some e
  exact hf b a hb

end

theorem OnSome.getFst {α : Type} {o : Option (State × α)} {a : State × α} (h : OnSome (fun q => Keeps s₀ q.1) o) (e : o = Option.some a) :
    Keeps s₀ a.1 := h a e

theorem OnSome.getSnd {α : Type} {o : Option (α × State)} {a : α × State} (h : OnSome (fun q => Keeps s₀ q.2) o) (e : o = Option.some a) :
    Keeps s₀ a.2 := h a e

theorem Answers.got {i : Nat} {s : State} (h : Keeps s₀ s) : Answers s₀ (.got i s) := h

theorem Answers.wait {s : State} (h : Keeps s₀ s) : Answers s₀ (.wait s) := h

theorem Answers.none {s : State} (h : Keeps s₀ s) : Answers s₀ (.none s) := h

theorem Answers.ite {a b : SlotRes} {c : Prop} [Decidable c] (ha : Answers s₀ a) (hb : Answers s₀ b) :
    Answers s₀ (if c then a else b) := by
  split <;> assumption

theorem Answers.of_got {r : SlotRes} {i : Nat} {s : State} (h : Answers s₀ r) (e : r = .got i s) : Keeps s₀ s := by
  subst e
  exact h

theorem Answers.of_wait {r : SlotRes} {s : State} (h : Answers s₀ r) (e : r = .wait s) : Keeps s₀ s := by
  subst e
  exact h

theorem Answers.of_none {r : SlotRes} {s : State} (h : Answers s₀ r) (e : r = .none s) : Keeps s₀ s := by
  subst e
  exact h

/-! ### Writes to registers, memory, pinned slots and ship plans -/


/-! ### Machine/Ops.lean -/

theorem Keeps.wr {s : State} {f : Fld} {h : Half} {v i : ℕ} (hs : Keeps s₀ s) : Keeps s₀ (s.wr f h v i) :=
  hs.setRegs (RegFile.wf_put _ v)

theorem Keeps.inc {s : State} {f : Fld} {h : Half} {n i : ℕ} (hs : Keeps s₀ s) :
    Keeps s₀ (State.inc s f h n i) := by
  unfold Machine.State.inc
  exact .wr hs

theorem Keeps.emit {s : State} {o : Output} (hs : Keeps s₀ s) :
    Keeps s₀ (State.emit s o) := by
  unfold Machine.State.emit
  exact .upd hs

theorem Keeps.bump {s : State} {h : Half} {group slot n : ℕ} (hs : Keeps s₀ s) :
    Keeps s₀ (bump s h group slot n) := by
  unfold Machine.bump
  exact .inc hs

theorem Keeps.drawFree {s : State} (hs : Keeps s₀ s) :
    Keeps s₀ (drawFree s) := by
  unfold Machine.drawFree
  exact .upd hs

theorem Keeps.store {s : State} {a : ℕ} {b : List Byte} {die : Option (Half × ℕ)} (hs : Keeps s₀ s) : Keeps s₀ (s.store a b die) :=
  .upd (hs.setMem (Memory.wf_writeN b a))

theorem Keeps.wipe {s : State} {lo len : ℕ} (hs : Keeps s₀ s) : Keeps s₀ (s.wipe lo len) :=
  .upd (hs.setMem (Memory.wf_clearRange lo len))

theorem Keeps.sendMsix {s : State} {h : Half} {fn vec : ℕ} (hs : Keeps s₀ s) :
    Keeps s₀ (sendMsix s h fn vec) := by
  unfold Machine.sendMsix
  exact .ite (.wr hs) (.ite (.emit (.bump hs)) hs)

theorem Keeps.routeMessage {s : State} {h : Half} {k rising : ℕ} (hs : Keeps s₀ s) :
    Keeps s₀ (routeMessage s h k rising) := by
  unfold Machine.routeMessage
  exact .ite (.sendMsix hs) hs

theorem Keeps.raiseCause {s : State} {k : ℕ} {h : Half} {bits : ℕ} (hs : Keeps s₀ s) :
    Keeps s₀ (raiseCause s k h bits) := by
  unfold Machine.raiseCause
  exact .routeMessage (.wr hs)

theorem Keeps.raisePwr {s : State} {bits : ℕ} (hs : Keeps s₀ s) :
    Keeps s₀ (raisePwr s bits) := by
  unfold Machine.raisePwr
  exact .routeMessage (.routeMessage (.wr hs))

theorem Keeps.raiseTherm {s : State} {bits : ℕ} (hs : Keeps s₀ s) :
    Keeps s₀ (raiseTherm s bits) := by
  unfold Machine.raiseTherm
  split
  · exact .raiseCause hs
  · exact hs

theorem Keeps.raiseFunc {s : State} {h : Half} {fn bits : ℕ} (hs : Keeps s₀ s) :
    Keeps s₀ (raiseFunc s h fn bits) := by
  unfold Machine.raiseFunc
  extract_lets +onlyGivenNames old s1
  have hs1 : Keeps s₀ s1 := .wr hs
  exact .ite (.sendMsix hs1) hs1

theorem Keeps.ringErr {s : State} {h : Half} {ring bits : ℕ} (hs : Keeps s₀ s) :
    Keeps s₀ (ringErr s h ring bits) := by
  unfold Machine.ringErr
  exact .raiseFunc (.wr hs)

theorem Keeps.countUnmapped {s : State} {h : Half} {fn : ℕ} (hs : Keeps s₀ s) :
    Keeps s₀ (countUnmapped s h fn) := by
  unfold Machine.countUnmapped
  exact .raiseFunc (.inc hs)

theorem Keeps.countBadWidth {s : State} {h : Half} {fn : ℕ} (hs : Keeps s₀ s) :
    Keeps s₀ (countBadWidth s h fn) := by
  unfold Machine.countBadWidth
  exact .raiseFunc (.inc hs)

theorem Keeps.signalRing {s : State} {h : Half} {ring : ℕ} (hs : Keeps s₀ s) :
    Keeps s₀ (signalRing s h ring) := by
  unfold Machine.signalRing
  extract_lets +onlyGivenNames s1
  have hs1 : Keeps s₀ s1 := .wr hs
  exact .ite (.sendMsix hs1) hs1

theorem Keeps.moderate {s : State} {h : Half} {ring : ℕ} {now : Bool} (hs : Keeps s₀ s) :
    Keeps s₀ (moderate s h ring now) := by
  unfold Machine.moderate
  exact .ite (.signalRing hs) (.ite (.wr (.wr hs)) (.wr hs))

theorem Keeps.writeRecord {s : State} {h : Half} {ring : ℕ} {r : CqRec} {now : Bool} (hs : Keeps s₀ s) :
    Keeps s₀ (writeRecord s h ring r now) := by
  unfold Machine.writeRecord
  exact .ite (.moderate (.bump (.bump (.wr (hs.setMem (Memory.wf_writeN _ _)))))) hs

theorem Keeps.loseEvent {s : State} {h : Half} {fn : ℕ} (hs : Keeps s₀ s) :
    Keeps s₀ (loseEvent s h fn) := by
  unfold Machine.loseEvent
  exact .raiseFunc (.inc hs)

theorem Keeps.postEvent {s : State} {h : Half} {fn status mt detail : ℕ} (hs : Keeps s₀ s) :
    Keeps s₀ (postEvent s h fn status mt detail) := by
  unfold Machine.postEvent
  split
  · exact .loseEvent hs
  · exact .ite (.writeRecord hs) (.loseEvent hs)

theorem Keeps.postNotice {s : State} {h : Half} {status mt detail : ℕ} (hs : Keeps s₀ s) :
    Keeps s₀ (postNotice s h status mt detail) := by
  unfold Machine.postNotice
  exact .foldl hs (fun _ _ ht => .postEvent ht)

theorem Keeps.ldgDrop {s : State} {h : Half} {mt : ℕ} (hs : Keeps s₀ s) :
    Keeps s₀ (ldgDrop s h mt) := by
  unfold Machine.ldgDrop
  extract_lets +onlyGivenNames s1
  have hs1 : Keeps s₀ s1 := .inc hs
  exact .wr (.ite (.wr hs1) hs1)

theorem Keeps.fuseEvent {s : State} {k : ℕ} (hs : Keeps s₀ s) :
    Keeps s₀ (fuseEvent s k) := by
  unfold Machine.fuseEvent
  extract_lets +onlyGivenNames n s1
  have hs1 : Keeps s₀ s1 := .wr hs
  exact .ite (.wr hs1) hs1

theorem Keeps.fuseHeld {s : State} (hs : Keeps s₀ s) :
    Keeps s₀ (fuseHeld s) := by
  unfold Machine.fuseHeld
  exact .foldl (.wr (.foldl (.wr hs) (fun _ _ hu => .fuseEvent hu))) (fun _ _ hu => .fuseEvent hu)

theorem Keeps.fuseRecord {s : State} {r : LdgRec} (hs : Keeps s₀ s) :
    Keeps s₀ (fuseRecord s r) := by
  unfold Machine.fuseRecord
  extract_lets +onlyGivenNames s1
  have hs1 : Keeps s₀ s1 := by
    unfold s1
    split
    · exact .fuseEvent hs
    · exact hs
  exact .ite (.fuseHeld hs1) hs1

theorem Keeps.mctpOut {s : State} {h : Half} {b : List Byte} (hs : Keeps s₀ s) :
    Keeps s₀ (mctpOut s h b) := by
  unfold Machine.mctpOut
  exact .upd hs

theorem Keeps.pldmEvent {s : State} {w : Half} {r : LdgRec} (hs : Keeps s₀ s) :
    Keeps s₀ (pldmEvent s w r) := by
  unfold Machine.pldmEvent
  refine .ite ?_ hs
  extract_lets +onlyGivenNames s1
  have hs1 : Keeps s₀ s1 := .upd hs
  exact .ite hs1 (.mctpOut hs1)

theorem Keeps.ldgTake {s : State} {w : Half} {r : LdgRec} (hs : Keeps s₀ s) :
    Keeps s₀ (ldgTake s w r) := by
  unfold Machine.ldgTake
  exact .pldmEvent (.fuseRecord (.wr (.upd hs)))

theorem Keeps.ledger {s : State} {h : Half} {type : ℕ} {data : List Byte} (hs : Keeps s₀ s) :
    Keeps s₀ (ledger s h type data) := by
  unfold Machine.ledger
  exact .ite (.ldgDrop hs) (.ite (.ldgTake hs) (.upd hs))

theorem Keeps.keepFaultRec {s : State} {h : Half} {r : FaultRec} {index : ℕ} (hs : Keeps s₀ s) :
    Keeps s₀ (keepFaultRec s h r index) := by
  unfold Machine.keepFaultRec
  exact .wr (.wr (.upd hs))

theorem Keeps.logFault {s : State} {h : Half} {fn : ℕ} {r : FaultRec} {sample : Option (List Byte → List Byte)} (hs : Keeps s₀ s) :
    Keeps s₀ (logFault s h fn r sample) := by
  unfold Machine.logFault
  refine .ite (.wr (hs.setMem fun hm => Memory.wf_writeN _ _ ?_)) (.raiseCause (.inc hs))
  split
  · split
    · exact Memory.wf_writeN _ _ hm
    · exact hm
  · exact hm

theorem Keeps.faultLog {s : State} {h : Half} {fn : ℕ} {r : FaultRec} {sample : Option (List Byte → List Byte)} (hs : Keeps s₀ s) :
    Keeps s₀ (faultLog s h fn r sample) := by
  unfold Machine.faultLog
  exact .raiseCause (.postEvent (.logFault (.keepFaultRec hs)))

theorem Keeps.faultRecord {s : State} {h : Half} {fn : ℕ} {r : FaultRec} {sample : Option (List Byte → List Byte)} (hs : Keeps s₀ s) :
    Keeps s₀ (faultRecord s h fn r sample) := by
  unfold Machine.faultRecord
  exact .ite (.ledger (.faultLog hs)) (.faultLog hs)

theorem Keeps.histAdd {s : State} {h : Half} {k : ℕ} {v : ℤ} (hs : Keeps s₀ s) :
    Keeps s₀ (histAdd s h k v) := by
  unfold Machine.histAdd
  extract_lets +onlyGivenNames b s1 sum cut s2 s3
  have hs2 : Keeps s₀ s2 := .wr (.inc (.inc hs))
  have hs3 : Keeps s₀ s3 := .ite hs2 (.wr hs2)
  exact .ite (.wr hs3) hs3

theorem Keeps.histSample {s : State} {h : Half} {src party : ℕ} {v : ℤ} (hs : Keeps s₀ s) :
    Keeps s₀ (histSample s h src party v) := by
  unfold Machine.histSample
  exact .foldl hs (fun _ _ ht => .ite (.histAdd ht) ht)

/-! ### Machine/Contexts.lean -/

theorem Keeps.setBank {s : State} {f : Fld} {h : Half} {core bank v : ℕ} (hs : Keeps s₀ s) :
    Keeps s₀ (setBank s f h core bank v) := by
  unfold Machine.setBank
  exact .wr hs

theorem Keeps.tagBank {h : Half} {core tag : ℕ} {s : State} {bank : ℕ} (hs : Keeps s₀ s) : Keeps s₀ (tagBank h core tag s bank) := by
  unfold Machine.tagBank
  exact .setBank (.setBank (.ite (hs.setMem (Memory.wf_clearRange _ _)) hs))

theorem Keeps.tagSlot {s : State} {h : Half} {core slot fn : ℕ} (hs : Keeps s₀ s) :
    Keeps s₀ (tagSlot s h core slot fn) := by
  unfold Machine.tagSlot
  exact .foldl hs (fun _ _ ha => .tagBank ha)

theorem Keeps.untagSlot {s : State} {h : Half} {core slot : ℕ} (hs : Keeps s₀ s) :
    Keeps s₀ (untagSlot s h core slot) := by
  unfold Machine.untagSlot
  exact .foldl hs (fun _ _ ht => .setBank ht)

theorem Keeps.setSlot {s : State} {h : Half} {core slot code : ℕ} (hs : Keeps s₀ s) :
    Keeps s₀ (setSlot s h core slot code) := by
  unfold Machine.setSlot
  extract_lets +onlyGivenNames s1
  have hs1 : Keeps s₀ s1 := .wr hs
  exact .ite (.wr hs1) hs1

theorem Keeps.setSlotCtx {s : State} {h : Half} {core slot v part opr req : ℕ} (hs : Keeps s₀ s) :
    Keeps s₀ (setSlotCtx s h core slot v part opr req) := by
  unfold Machine.setSlotCtx
  exact .ite (.wr (.wr (.wr (.wr hs)))) (.wr (.wr (.wr (.wr hs))))

theorem Keeps.setCtx {s : State} {h : Half} {core slot : ℕ} {f : Context → Context} (hs : Keeps s₀ s) :
    Keeps s₀ (setCtx s h core slot f) := by
  unfold Machine.setCtx
  exact .upd hs

theorem Keeps.setSlotOwner {s : State} {h : Half} {core slot fn req : ℕ} (hs : Keeps s₀ s) :
    Keeps s₀ (setSlotOwner s h core slot fn req) := by
  unfold Machine.setSlotOwner
  exact .setSlotCtx hs

theorem Keeps.loadCtx {s : State} {c : Context} {req : ℕ} (hs : Keeps s₀ s) :
    Keeps s₀ (loadCtx s c req) := by
  unfold Machine.loadCtx
  exact .setSlotOwner (.setSlot (.tagSlot (.upd hs)))

theorem Keeps.toArray {s : State} {h : Half} {core slot : ℕ} (hs : Keeps s₀ s) :
    Keeps s₀ (toArray s h core slot) := by
  unfold Machine.toArray
  exact .bump (.inc (.setCtx (.setSlot (.ite (.setSlot hs) hs))))

theorem Keeps.countPreempt {s : State} {h : Half} (hs : Keeps s₀ s) :
    Keeps s₀ (countPreempt s h) := by
  unfold Machine.countPreempt
  exact .bump (.inc hs)

theorem Keeps.resched {s : State} {h : Half} {core : ℕ} (hs : Keeps s₀ s) :
    Keeps s₀ (resched s h core) := by
  unfold Machine.resched
  extract_lets +onlyGivenNames held cand
  split
  · refine .ite hs ?_
    split
    · exact hs
    · exact .ite (.toArray hs) (.ite (.countPreempt (.toArray hs)) hs)
  · clear_value cand
    split
    · exact hs
    · exact .toArray hs
    · exact .ite (.toArray hs) (.toArray hs)

theorem Keeps.reschedIf {b : Bool} {s : State} {x : Context} (hs : Keeps s₀ s) :
    Keeps s₀ (reschedIf b s x) := by
  unfold Machine.reschedIf
  exact .ite (.resched hs) hs

theorem Keeps.startIdle {s : State} {h : Half} {core : ℕ} (hs : Keeps s₀ s) :
    Keeps s₀ (startIdle s h core) := by
  unfold Machine.startIdle
  exact .ite hs (.resched hs)

theorem Keeps.drain {s : State} {x : Context} (hs : Keeps s₀ s) :
    Keeps s₀ (drain s x) := by
  unfold Machine.drain
  exact .setCtx (.bump (.inc hs))

theorem Keeps.ctxWait {s : State} {x : Context} (hs : Keeps s₀ s) :
    Keeps s₀ (ctxWait s x) := by
  unfold Machine.ctxWait
  extract_lets +onlyGivenNames s1
  have hs1 : Keeps s₀ s1 := .setCtx (.ite (.drain hs) hs)
  exact .ite (.startIdle (.setSlot hs1)) hs1

theorem Keeps.ctxWake {s : State} {x : Context} (hs : Keeps s₀ s) :
    Keeps s₀ (ctxWake s x) := by
  unfold Machine.ctxWake
  exact .startIdle (.setCtx hs)

theorem Keeps.wakeCtxs {s : State} {p : Context → Bool} (hs : Keeps s₀ s) :
    Keeps s₀ (wakeCtxs s p) := by
  unfold Machine.wakeCtxs
  exact .foldl hs (fun _ _ ha => .ctxWake ha)

theorem Keeps.urgentPass {s : State} {x : Context} (hs : Keeps s₀ s) :
    Keeps s₀ (urgentPass s x) := by
  unfold Machine.urgentPass
  split
  · exact hs
  · exact .wr (.histSample (.upd hs))

theorem Keeps.drainAt {s : State} {h : Half} {core slot : ℕ} (hs : Keeps s₀ s) :
    Keeps s₀ (drainAt s h core slot) := by
  unfold Machine.drainAt
  split
  · exact .ite (.drain hs) hs
  · exact hs

theorem Keeps.dropCtx {s : State} {h : Half} {core slot : ℕ} (hs : Keeps s₀ s) :
    Keeps s₀ (dropCtx s h core slot) := by
  unfold Machine.dropCtx
  extract_lets +onlyGivenNames s0
  have hs0 : Keeps s₀ s0 := .drainAt hs
  exact .startIdle (.setSlotCtx (.untagSlot (.setSlot (.upd hs0))))

theorem Keeps.standAgain {s : State} {x : Context} (hs : Keeps s₀ s) :
    Keeps s₀ (standAgain s x) := by
  unfold Machine.standAgain
  exact .startIdle (.setSlot (.setCtx (.drainAt hs)))

theorem Keeps.dropCtxs {s : State} {p : Context → Bool} (hs : Keeps s₀ s) :
    Keeps s₀ (dropCtxs s p) := by
  unfold Machine.dropCtxs
  exact .foldl hs (fun _ _ ht => .dropCtx ht)

/-! ### Machine/Access.lean -/

theorem Keeps.recordRefusal {s : State} {w : Who} {write : Bool} {a len status : ℕ} (hs : Keeps s₀ s) :
    Keeps s₀ (recordRefusal s w write a len status) := by
  unfold Machine.recordRefusal
  refine .ite (.raiseCause (.inc (.wr (.wr (.wr (.wr (.wr hs))))))) ?_
  split
  · exact .ite (.inc (.wr (.wr (.wr (.wr (.wr hs)))))) hs
  · exact hs

theorem Keeps.countBytes {s : State} {w : Who} {write : Bool} {a len : ℕ} (hs : Keeps s₀ s) :
    Keeps s₀ (countBytes s w write a len) := by
  unfold Machine.countBytes
  split
  · extract_lets +onlyGivenNames s1
    have hs1 : Keeps s₀ s1 := .bump hs
    exact .ite hs1 (.bump (.bump hs1))
  · exact .bump hs
  · exact hs

theorem Keeps.hostLatency {s : State} {h : Half} {a : ℕ} (hs : Keeps s₀ s) :
    Keeps s₀ (hostLatency s h a) := by
  unfold Machine.hostLatency
  exact .ite (.drawFree (.histSample hs)) hs

theorem Keeps.readTimed {s : State} {w : Who} {a len ns : ℕ} (hs : Keeps s₀ s) :
    Keeps s₀ (readTimed s w a len ns).2.1 := by
  unfold Machine.readTimed
  extract_lets +onlyGivenNames st
  refine .iteOn (fun q : ℕ × State × List Byte => q.2.1) ?_ (.recordRefusal hs)
  extract_lets +onlyGivenNames s1
  have hs1 : Keeps s₀ s1 := .countBytes hs
  exact .ite (.histSample hs1) hs1

theorem Keeps.readAt {s : State} {w : Who} {a len : ℕ} (hs : Keeps s₀ s) :
    Keeps s₀ (readAt s w a len).2.1 := by
  unfold Machine.readAt
  exact .iteOn (fun q : ℕ × State × List Byte => q.2.1) (.hostLatency (.countBytes hs)) (.recordRefusal hs)

theorem Keeps.writeAt {s : State} {w : Who} {a : ℕ} {data : List Byte} (hs : Keeps s₀ s) :
    Keeps s₀ (writeAt s w a data).2 := by
  unfold Machine.writeAt
  exact .iteOn Prod.snd (.store (.countBytes hs)) (.recordRefusal hs)

/-! ### Machine/PageMap.lean -/

theorem Keeps.setLen {s : State} {r : Request} {l v : ℕ} (hs : Keeps s₀ s) :
    Keeps s₀ (setLen s r l v) := by
  unfold Machine.setLen
  exact .store hs

theorem Keeps.touchLayer {s : State} {r : Request} {l : ℕ} (hs : Keeps s₀ s) :
    Keeps s₀ (touchLayer s r l) := by
  unfold Machine.touchLayer
  exact .store hs

theorem Keeps.setEntryAt {s : State} {a : ℕ} {e : Entry} (hs : Keeps s₀ s) :
    Keeps s₀ (setEntryAt s a e) := by
  unfold Machine.setEntryAt
  exact .store hs

theorem Keeps.setEntry {s : State} {r : Request} {l g j : ℕ} {e : Entry} (hs : Keeps s₀ s) :
    Keeps s₀ (setEntry s r l g j e) := by
  unfold Machine.setEntry
  exact .setEntryAt hs

theorem Keeps.addHeld {s : State} {h : Half} {tag : ℕ} {up : Bool} {n : ℕ} (hs : Keeps s₀ s) :
    Keeps s₀ (addHeld s h tag up n) := by
  unfold Machine.addHeld
  exact .wr hs

theorem Keeps.tagSlots {s : State} {h : Half} {i n tag : ℕ} (hs : Keeps s₀ s) :
    Keeps s₀ (tagSlots s h i n tag) := by
  unfold Machine.tagSlots
  exact .store hs

theorem Keeps.takeSlots {s : State} {h : Half} {i n tag : ℕ} (hs : Keeps s₀ s) :
    Keeps s₀ (takeSlots s h i n tag) := by
  unfold Machine.takeSlots
  exact .wr (.addHeld (.tagSlots hs))

theorem Keeps.clearSlot {s : State} {h : Half} {i : ℕ} (hs : Keeps s₀ s) :
    Keeps s₀ (clearSlot s h i) := by
  unfold Machine.clearSlot
  exact .ite hs (.inc (.addHeld (.tagSlots hs)))

theorem Keeps.clearSlots {s : State} {h : Half} {i n : ℕ} (hs : Keeps s₀ s) :
    Keeps s₀ (clearSlots s h i n) := by
  unfold Machine.clearSlots
  exact .foldl hs (fun _ _ ht => .clearSlot ht)

theorem Keeps.freeSlot {s : State} {h : Half} {i k : ℕ} (hs : Keeps s₀ s) :
    Keeps s₀ (freeSlot s h i k) := by
  unfold Machine.freeSlot
  exact .ite (.upd hs) (.clearSlots hs)

theorem Keeps.freeOrphans {s : State} {h : Half} (hs : Keeps s₀ s) :
    Keeps s₀ (freeOrphans s h) := by
  unfold Machine.freeOrphans
  exact .foldl (.upd hs) (fun _ _ ht => .clearSlots ht)

theorem Keeps.writePage {s : State} {h : Half} {slot : ℕ} {data : List Byte} (hs : Keeps s₀ s) :
    Keeps s₀ (writePage s h slot data) := by
  unfold Machine.writePage
  exact .store hs

theorem Keeps.refreshValley {s : State} {h : Half} {p : ℕ} (hs : Keeps s₀ s) :
    Keeps s₀ (refreshValley s h p) := by
  unfold Machine.refreshValley
  exact .wr hs

theorem Keeps.takeValley {s : State} {h : Half} {p v k : ℕ} (hs : Keeps s₀ s) :
    Keeps s₀ (takeValley s h p v k) := by
  unfold Machine.takeValley
  exact .refreshValley (.upd hs)

theorem Keeps.freeValleyPage {s : State} {h : Half} {p v : ℕ} (hs : Keeps s₀ s) :
    Keeps s₀ (freeValleyPage s h p v) := by
  unfold Machine.freeValleyPage
  exact .refreshValley (.upd hs)

/-! ### Machine/Pool.lean -/

theorem Keeps.poolRefresh {s : State} {h : Half} (hs : Keeps s₀ s) :
    Keeps s₀ (poolRefresh s h) := by
  unfold Machine.poolRefresh
  exact .wr (.wr hs)

theorem Keeps.poolHold {s : State} {h : Half} {c n : ℕ} (hs : Keeps s₀ s) :
    Keeps s₀ (poolHold s h c n) := by
  unfold Machine.poolHold
  exact .wr hs

theorem Keeps.poolSetLent {s : State} {h : Half} {c n : ℕ} (hs : Keeps s₀ s) :
    Keeps s₀ (poolSetLent s h c n) := by
  unfold Machine.poolSetLent
  exact .wr hs

theorem OnSome.poolGrant {s : State} {h : Half} {c : ℕ} (hs : Keeps s₀ s) :
    OnSome (Keeps s₀) (poolGrant s h c) := by
  unfold Machine.poolGrant
  extract_lets +onlyGivenNames n
  refine .ite (.ite (.some (.poolHold hs)) (.ite (.some (.poolSetLent (.poolHold hs))) .none)) ?_
  refine .ite .none ?_
  refine .ite (.some (.poolHold hs)) ?_
  split
  · exact .some (.poolSetLent (.poolHold hs))
  · exact .none

theorem OnSome.joinUnit {s : State} {h : Half} {c : ℕ} {tag : UnitTag} (hs : Keeps s₀ s) :
    OnSome (Keeps s₀) (joinUnit s h c tag) := by
  unfold Machine.joinUnit
  split
  · exact .some (.upd hs)
  · exact .ite (.some (.upd hs)) .none

theorem OnSome.grantFor {s : State} {h : Half} {c : ℕ} {unit : Option UnitTag} (hs : Keeps s₀ s) :
    OnSome (Keeps s₀) (grantFor s h c unit) := by
  unfold Machine.grantFor
  split
  · exact .poolGrant hs
  · exact .bind (.poolGrant hs) (fun _ ht => .ite (.some ht) (.joinUnit ht))

theorem Keeps.poolServe {n : ℕ} {s : State} {h : Half} {c : ℕ} {unit : Option UnitTag} (hs : Keeps s₀ s) :
    Keeps s₀ (poolServe n s h c unit).1 := by
  induction n generalizing s h c unit with
  | zero =>
    rw [Machine.poolServe]
    exact hs
  | succ n ih =>
    rw [Machine.poolServe]
    split
    next t eht =>
      have ht : Keeps s₀ t := OnSome.get (.grantFor hs) eht
      exact ih ht
    · exact hs

theorem Keeps.reclaimDone {s : State} {h : Half} {t0 : ℕ} (hs : Keeps s₀ s) :
    Keeps s₀ (reclaimDone s h t0) := by
  unfold Machine.reclaimDone
  exact .wr (.bump (.inc hs))

theorem Keeps.reclaimCredit {s : State} {h : Half} {r : PoolReq} (hs : Keeps s₀ s) :
    Keeps s₀ (reclaimCredit s h r) := by
  unfold Machine.reclaimCredit
  extract_lets +onlyGivenNames s1
  have hs1 : Keeps s₀ s1 := .poolSetLent (.poolHold hs)
  exact .ite (.reclaimDone (.upd hs1)) (.upd hs1)

theorem Keeps.creditBorrowed {s : State} {h : Half} (hs : Keeps s₀ s) :
    Keeps s₀ (creditBorrowed s h) := by
  unfold Machine.creditBorrowed
  split
  · exact .reclaimCredit hs
  · split
    · exact .poolSetLent hs
    · exact hs

theorem Keeps.poolRelease {s : State} {h : Half} {c : ℕ} (hs : Keeps s₀ s) :
    Keeps s₀ (poolRelease s h c) := by
  unfold Machine.poolRelease
  exact .ite hs (.ite (.creditBorrowed (.poolHold hs)) (.poolHold hs))

theorem Keeps.poolReleaseN {s : State} {h : Half} {c n : ℕ} (hs : Keeps s₀ s) :
    Keeps s₀ (poolReleaseN s h c n) := by
  unfold Machine.poolReleaseN
  exact .foldl hs (fun _ _ ht => .poolRelease ht)

theorem Keeps.egressSettle {s : State} {h : Half} (hs : Keeps s₀ s) :
    Keeps s₀ (egressSettle s h) := by
  unfold Machine.egressSettle
  exact .upd hs

theorem Keeps.reclaimFrom {s : State} {h : Half} {b n : ℕ} (hs : Keeps s₀ s) :
    Keeps s₀ (reclaimFrom s h b n).1 := by
  unfold Machine.reclaimFrom
  exact .egressSettle (.poolReleaseN (.upd hs))

theorem Keeps.reclaimWalk {n : ℕ} {s : State} {h : Half} {n' : ℕ} (hs : Keeps s₀ s) :
    Keeps s₀ (reclaimWalk n s h n') := by
  induction n generalizing s h n' with
  | zero =>
    rw [Machine.reclaimWalk]
    exact hs
  | succ n ih =>
    rw [Machine.reclaimWalk]
    refine .ite hs ?_
    split
    · exact hs
    · exact ih (.reclaimFrom hs)

theorem Keeps.reclaimStart {s : State} {h : Half} {c n : ℕ} (hs : Keeps s₀ s) :
    Keeps s₀ (reclaimStart s h c n) := by
  unfold Machine.reclaimStart
  exact .reclaimWalk (.upd hs)

theorem Keeps.serveReq {s : State} {r : PoolReq} (hs : Keeps s₀ s) :
    Keeps s₀ (serveReq s r) := by
  unfold Machine.serveReq
  extract_lets +onlyGivenNames p k u s1
  have hp : Keeps s₀ p.1 := .poolServe hs
  have hs1 : Keeps s₀ s1 := .upd hp
  exact .ite hs1 (.reclaimStart hs1)

theorem Keeps.poolWaiters {s : State} {h : Half} (hs : Keeps s₀ s) :
    Keeps s₀ (poolWaiters s h) := by
  unfold Machine.poolWaiters
  exact .foldl hs (fun _ _ ha => .serveReq ha)

theorem Keeps.poolAsk {s : State} {h : Half} {c n : ℕ} {unit : Option UnitTag} (hs : Keeps s₀ s) :
    Keeps s₀ (poolAsk s h c n unit) := by
  unfold Machine.poolAsk
  extract_lets +onlyGivenNames p k s1
  have hp : Keeps s₀ p.1 := .poolServe hs
  have hs1 : Keeps s₀ s1 := .ite hp (.reclaimStart hp)
  exact .poolRefresh (.ite hs1 (.upd hs1))

theorem OnSome.takeGranules {s : State} {h : Half} {c n : ℕ} {unit : Option UnitTag} (hs : Keeps s₀ s) :
    OnSome (Keeps s₀) (takeGranules s h c n unit) := by
  unfold Machine.takeGranules
  exact .ite (.some (.poolRefresh (.poolServe hs))) .none

theorem Keeps.waitGranules {s : State} {h : Half} {c n : ℕ} {unit : Option UnitTag} (hs : Keeps s₀ s) :
    Keeps s₀ (waitGranules s h c n unit) := by
  unfold Machine.waitGranules
  exact .poolAsk hs

theorem Keeps.giveGranules {s : State} {h : Half} {c n : ℕ} (hs : Keeps s₀ s) :
    Keeps s₀ (giveGranules s h c n) := by
  unfold Machine.giveGranules
  exact .poolRefresh (.poolWaiters (.poolReleaseN hs))

theorem Keeps.withGranule {s : State} {h : Half} {c : ℕ} {f : State → State} (hs : Keeps s₀ s) (hf : ∀ u, Keeps s₀ u → Keeps s₀ (f u)) :
    Keeps s₀ (withGranule s h c f) := by
  unfold Machine.withGranule
  split
  next t eht =>
    have ht : Keeps s₀ t := OnSome.get (.takeGranules hs) eht
    exact .giveGranules (hf _ ht)
  · exact .waitGranules hs

theorem Completes.execPoolGranuleRequest {h : Half} {cls : Fin 7} {n : ℕ} {unit : Option UnitTag} {s : State} (hs : Keeps s₀ s) :
    Completes s₀ (execPoolGranuleRequest h cls n unit s) := by
  unfold Machine.execPoolGranuleRequest
  exact .next (.poolAsk hs)

theorem Completes.execPoolGranuleRelease {h : Half} {cls : Fin 7} {s : State} (hs : Keeps s₀ s) :
    Completes s₀ (execPoolGranuleRelease h cls s) := by
  unfold Machine.execPoolGranuleRelease
  exact .next (.poolRefresh (.poolWaiters (.poolRelease hs)))

theorem Keeps.unitEnd {s : State} {u : PoolUnit} {n : ℕ} (hs : Keeps s₀ s) :
    Keeps s₀ (unitEnd s u n) := by
  unfold Machine.unitEnd
  exact .poolRefresh (.poolWaiters (.egressSettle (.poolReleaseN (.upd hs))))

theorem Keeps.dropUnit {s : State} {h : Half} {tag : UnitTag} (hs : Keeps s₀ s) :
    Keeps s₀ (dropUnit s h tag) := by
  unfold Machine.dropUnit
  exact .upd hs

theorem Completes.execPoolUnitComplete {h : Half} {cls : Fin 7} {tag : UnitTag} {s : State} (hs : Keeps s₀ s) :
    Completes s₀ (execPoolUnitComplete h cls tag s) := by
  unfold Machine.execPoolUnitComplete
  split
  · exact .next (.unitEnd hs)
  · exact .next hs

theorem Completes.execPoolForceRelease {h : Half} {cls : Fin 7} {tag : UnitTag} {s : State} (hs : Keeps s₀ s) :
    Completes s₀ (execPoolForceRelease h cls tag s) := by
  unfold Machine.execPoolForceRelease
  split
  · exact .next hs
  · exact .ite (.next hs) (.next (.poolAsk (.bump (.inc (.unitEnd (.dropUnit hs))))))

theorem Completes.execPoolQuiesceSet {h : Half} {on : Bool} {s : State} (hs : Keeps s₀ s) :
    Completes s₀ (execPoolQuiesceSet h on s) := by
  unfold Machine.execPoolQuiesceSet
  exact .next (.poolRefresh (.wr hs))

theorem Completes.execPoolCommit {h : Half} {s : State} (hs : Keeps s₀ s) :
    Completes s₀ (execPoolCommit h s) := by
  unfold Machine.execPoolCommit
  exact .ite (.next (.wr hs)) (.ite (.next (.wr hs)) (.next (.poolRefresh (.poolWaiters (.wr (.foldl hs (fun _ _ ht => .wr (.wr ht))))))))

/-! ### Machine/Requests.lean -/

theorem Keeps.mapChains {s : State} {f : Chain → Chain} (hs : Keeps s₀ s) :
    Keeps s₀ (mapChains s f) := by
  unfold Machine.mapChains
  exact .upd hs

theorem Keeps.setChain {s : State} {c : Chain} {f : Chain → Chain} (hs : Keeps s₀ s) :
    Keeps s₀ (setChain s c f) := by
  unfold Machine.setChain
  exact .mapChains hs

theorem Keeps.setRequest {s : State} {num : ℕ} {f : Request → Request} (hs : Keeps s₀ s) :
    Keeps s₀ (setRequest s num f) := by
  unfold Machine.setRequest
  exact .upd hs

theorem Keeps.refreshReqCount {s : State} {h : Half} (hs : Keeps s₀ s) :
    Keeps s₀ (refreshReqCount s h) := by
  unfold Machine.refreshReqCount
  exact .wr hs

theorem Keeps.setStream {s : State} {h : Half} {ctx : ℕ} {f : Stream → Stream} (hs : Keeps s₀ s) :
    Keeps s₀ (setStream s h ctx f) := by
  unfold Machine.setStream
  exact .upd hs

theorem Keeps.showStream {s : State} {x : Stream} (hs : Keeps s₀ s) :
    Keeps s₀ (showStream s x) := by
  unfold Machine.showStream
  exact .wr (.wr (.wr (.wr (.wr (.wr (.wr (.wr (.wr (.wr (.wr hs))))))))))

theorem Keeps.showStreams {s : State} (hs : Keeps s₀ s) :
    Keeps s₀ (showStreams s) := by
  unfold Machine.showStreams
  exact .foldl hs (fun _ _ ha => .showStream ha)

theorem Keeps.cutPages {s : State} {c : Chain} {x : Stream} {no : ℕ} (hs : Keeps s₀ s) :
    Keeps s₀ (cutPages s c x no).1 := by
  unfold Machine.cutPages
  exact .setStream hs

theorem Keeps.cancelStreams {s : State} {h : Half} {num status : ℕ} (hs : Keeps s₀ s) :
    Keeps s₀ (cancelStreams s h num status) := by
  unfold Machine.cancelStreams
  exact .showStreams (.upd hs)

theorem Keeps.refreshDraining {s : State} {h : Half} {fn : ℕ} (hs : Keeps s₀ s) :
    Keeps s₀ (refreshDraining s h fn) := by
  unfold Machine.refreshDraining
  exact .wr hs

/-! ### Machine/Slots.lean -/

theorem Keeps.refusePage {s : State} {r : Request} {write : Bool} {slot : ℕ} (hs : Keeps s₀ s) :
    Keeps s₀ (refusePage s r write slot) := by
  unfold Machine.refusePage
  exact .recordRefusal hs

theorem Keeps.refNode {s : State} {h : Half} {idx : ℕ} {up : Bool} (hs : Keeps s₀ s) :
    Keeps s₀ (refNode s h idx up) := by
  unfold Machine.refNode
  exact .upd hs

theorem Keeps.refreshNodes {s : State} {h : Half} (hs : Keeps s₀ s) :
    Keeps s₀ (refreshNodes s h) := by
  unfold Machine.refreshNodes
  exact .wr hs

theorem Keeps.dropNode {s : State} {n : PfxNode} (hs : Keeps s₀ s) :
    Keeps s₀ (dropNode s n) := by
  unfold Machine.dropNode
  extract_lets +onlyGivenNames s1 s2
  have hs1 : Keeps s₀ s1 := .foldl hs (fun _ _ ht => .freeSlot ht)
  have hs2 : Keeps s₀ s2 := by
    unfold s2
    split
    · exact .freeSlot hs1
    · exact hs1
  exact .refreshNodes (.upd hs2)

theorem Keeps.addTransfer {s : State} {t : Transfer} (hs : Keeps s₀ s) :
    Keeps s₀ (addTransfer s t) := by
  unfold Machine.addTransfer
  split
  next u ehu =>
    have hu : Keeps s₀ u := OnSome.get (.ite .none (.takeGranules hs)) ehu
    exact .upd hu
  · extract_lets +onlyGivenNames u
    have hu : Keeps s₀ u := .waitGranules hs
    clear_value u
    exact .upd hu

theorem Keeps.dropTransfer {s : State} {t : Transfer} (hs : Keeps s₀ s) :
    Keeps s₀ (dropTransfer s t) := by
  unfold Machine.dropTransfer
  exact .giveGranules (.upd hs)

theorem Keeps.goTransfer {s : State} {t : Transfer} {f : State → Transfer → State} (hs : Keeps s₀ s)
    (hf : ∀ u v, Keeps s₀ u → Keeps s₀ (f u v)) :
    Keeps s₀ (goTransfer s t f) := by
  unfold Machine.goTransfer
  extract_lets +onlyGivenNames held
  refine .ite (hf _ _ hs) ?_
  refine .ite hs ?_
  split
  next u ehu =>
    have hu : Keeps s₀ u := OnSome.get (.takeGranules hs) ehu
    exact hf _ _ (.upd hu)
  · exact .waitGranules hs

theorem OnSome.startSpill {s : State} {r : Request} {l g j : ℕ} {waiters : List ℕ} (hs : Keeps s₀ s) :
    OnSome (Keeps s₀) (startSpill s r l g j waiters) := by
  unfold Machine.startSpill
  extract_lets +onlyGivenNames k
  split
  · exact .none
  · exact .some (.addTransfer (.setEntry (.takeValley (.drawFree hs))))

theorem OnSome.autoSpill {s : State} {h : Half} {p : ℕ} (hs : Keeps s₀ s) :
    OnSome (Keeps s₀) (autoSpill s h p) := by
  unfold Machine.autoSpill
  refine .ite ?_ .none
  split
  · exact .startSpill hs
  · exact .none

theorem Keeps.enqueueWait {s : State} {r : Request} (hs : Keeps s₀ s) :
    Keeps s₀ (enqueueWait s r) := by
  unfold Machine.enqueueWait
  exact .ite hs (.upd hs)

theorem Keeps.dequeueWait {s : State} {r : Request} (hs : Keeps s₀ s) :
    Keeps s₀ (dequeueWait s r) := by
  unfold Machine.dequeueWait
  exact .upd hs

theorem OnSome.takeFree {s : State} {r : Request} (hs : Keeps s₀ s) :
    OnSome (fun q => Keeps s₀ q.2) (takeFree s r) := by
  unfold Machine.takeFree
  exact .ite (.mapAny (fun _ => .takeSlots (.drawFree hs))) .none

theorem OnSome.takeReclaimed {n : ℕ} {s : State} {r : Request} (hs : Keeps s₀ s) :
    OnSome (fun q => Keeps s₀ q.2) (takeReclaimed n s r) := by
  induction n generalizing s r with
  | zero =>
    rw [Machine.takeReclaimed]
    exact .none
  | succ n ih =>
    rw [Machine.takeReclaimed]
    refine .ite .none ?_
    split
    · exact .none
    · extract_lets +onlyGivenNames s1
      have hs1 : Keeps s₀ s1 := .dropNode hs
      split
      next p ehp =>
        have hp : Keeps s₀ p.2 := OnSome.getSnd (.takeFree hs1) ehp
        exact .some hp
      · exact ih hs1

theorem Answers.takeVictim {s : State} {r : Request} (hs : Keeps s₀ s) :
    Answers s₀ (takeVictim s r) := by
  unfold Machine.takeVictim
  split
  · extract_lets +onlyGivenNames e s1 s2
    have hs2 : Keeps s₀ s2 := .bump (.inc (.setEntry hs))
    exact .ite (.wait (.enqueueWait (.upd hs2))) (.got (.dequeueWait hs2))
  · exact .none (.inc (.dequeueWait hs))

theorem Answers.allocSlot {s : State} {r : Request} (hs : Keeps s₀ s) :
    Answers s₀ (allocSlot s r) := by
  unfold Machine.allocSlot
  split
  · exact .ite (.got (.dequeueWait (.upd hs))) (.wait hs)
  · split
    next p ehp =>
      have hp : Keeps s₀ p.2 := OnSome.getSnd (.ite .none (.takeFree hs)) ehp
      exact .got (.dequeueWait hp)
    · split
      next p ehp =>
        have hp : Keeps s₀ p.2 := OnSome.getSnd (.ite .none (.takeReclaimed hs)) ehp
        exact .got (.dequeueWait hp)
      · refine .ite (.wait (.enqueueWait hs)) ?_
        split
        next t eht =>
          have ht : Keeps s₀ t := OnSome.get (.autoSpill hs) eht
          exact .wait (.enqueueWait ht)
        · exact .takeVictim hs

theorem Keeps.startFetch {s : State} {r : Request} {l g j slot prio : ℕ} {waiters : List ℕ} (hs : Keeps s₀ s) :
    Keeps s₀ (startFetch s r l g j slot prio waiters) := by
  unfold Machine.startFetch
  exact .addTransfer (.setEntry hs)

theorem Keeps.joinTransfer {s : State} {r : Request} {l g j readNo : ℕ} (hs : Keeps s₀ s) :
    Keeps s₀ (joinTransfer s r l g j readNo) := by
  unfold Machine.joinTransfer
  exact .upd hs

theorem Keeps.discardTransfer {s : State} {r : Request} {l g j : ℕ} (hs : Keeps s₀ s) :
    Keeps s₀ (discardTransfer s r l g j) := by
  unfold Machine.discardTransfer
  exact .upd hs

theorem Keeps.endDiscarded {s : State} {t : Transfer} (hs : Keeps s₀ s) :
    Keeps s₀ (endDiscarded s t) := by
  unfold Machine.endDiscarded
  exact .dropTransfer (.freeValleyPage (.ite (.freeSlot hs) hs))

theorem Keeps.freeHeldBy {s : State} {r : Request} {l g j : ℕ} (hs : Keeps s₀ s) :
    Keeps s₀ (freeHeldBy s r l g j) := by
  unfold Machine.freeHeldBy
  exact .ite (.ite (.ite (.freeSlot hs) hs) (.ite (.freeValleyPage hs) (.ite (.discardTransfer hs) hs))) hs

theorem Keeps.freePage {s : State} {r : Request} {l g j : ℕ} (hs : Keeps s₀ s) :
    Keeps s₀ (freePage s r l g j) := by
  unfold Machine.freePage
  exact .setEntry (.freeHeldBy hs)

theorem Keeps.dropRefs {s : State} {r : Request} (hs : Keeps s₀ s) :
    Keeps s₀ (dropRefs s r) := by
  unfold Machine.dropRefs
  exact .upd hs

theorem Keeps.returnGuests {s : State} {r : Request} (hs : Keeps s₀ s) :
    Keeps s₀ (returnGuests s r) := by
  unfold Machine.returnGuests
  exact .ite hs (.wr (.addHeld hs))

theorem OnSome.reserveGuests {s : State} {h : Half} {fn n : ℕ} (hs : Keeps s₀ s) :
    OnSome (Keeps s₀) (reserveGuests s h fn n) := by
  unfold Machine.reserveGuests
  exact .ite (.some hs) (.ite (.some (.wr (.addHeld hs))) .none)

theorem Keeps.releasePages {s : State} {r : Request} (hs : Keeps s₀ s) :
    Keeps s₀ (releasePages s r) := by
  unfold Machine.releasePages
  extract_lets +onlyGivenNames s1 mine s2 s3 u
  have hu : Keeps s₀ u := .dequeueWait (.returnGuests (.dropRefs (.foldl (.foldl hs (fun _ _ ht => .ite (.ite (.freeSlot ht) ht)
      (.freeHeldBy ht))) (fun _ _ ht => .freeSlot ht))))
  exact .upd hu

theorem OnSome.takeGuest {s : State} {r : Request} (hs : Keeps s₀ s) :
    OnSome (fun q => Keeps s₀ q.2) (takeGuest s r) := by
  unfold Machine.takeGuest
  exact .ite .none (.mapAny (fun _ => .setRequest (.tagSlots (.drawFree hs))))

theorem Keeps.dropGuests {s : State} {h : Half} {num layer : ℕ} {pages : List RingPage} (hs : Keeps s₀ s) :
    Keeps s₀ (dropGuests s h num layer pages) := by
  unfold Machine.dropGuests
  refine .foldl hs (fun _ _ ht => ?_)
  split
  · exact ht
  · extract_lets +onlyGivenNames e k
    refine .ite ?_ ht
    extract_lets +onlyGivenNames t1
    have ht1 : Keeps s₀ t1 := .setEntry ht
    exact .ite (.setRequest (.tagSlots ht1)) ht1

/-! ### Machine/AllocEnd.lean -/

theorem Keeps.allocClose {s : State} {r : Request} {b : List Byte} {ok : Bool} {done part : ℕ} {pages : List ℕ} (hs : Keeps s₀ s) :
    Keeps s₀ (allocClose s r b ok done part pages).1 := by
  unfold Machine.allocClose
  exact .foldlOn Prod.fst hs (fun _ _ ha => .foldlOn Prod.fst (.setLen ha) (fun _ _ ht => .iteOn Prod.fst ht (.iteOn Prod.fst (.setEntry ht)
      (.iteOn Prod.fst (.freePage ht) ht))))

theorem Keeps.closeAlloc {s : State} {c : Chain} (hs : Keeps s₀ s) :
    Keeps s₀ (closeAlloc s c).1 := by
  unfold Machine.closeAlloc
  refine .iteOn Prod.fst ?_ ?_
  · split
    · exact .allocClose hs
    · exact hs
  · refine .iteOn Prod.fst ?_ ?_
    · split
      · exact .foldl hs (fun _ _ ht => .freeSlot ht)
      · exact hs
    · refine .iteOn Prod.fst ?_ hs
      split
      · exact .refNode hs
      · exact hs

/-! ### Machine/Claims.lean -/

theorem Keeps.pinOutcome {s : State} {h : Half} {status pin holder requester : ℕ} (hs : Keeps s₀ s) :
    Keeps s₀ (pinOutcome s h status pin holder requester) := by
  unfold Machine.pinOutcome
  exact .wr (.wr (.wr (.wr hs)))

theorem Keeps.pinNoRole {s : State} {h : Half} {pin requester : ℕ} (hs : Keeps s₀ s) :
    Keeps s₀ (pinNoRole s h pin requester) := by
  unfold Machine.pinNoRole
  exact .pinOutcome hs

theorem Keeps.claimPin {s : State} {h : Half} {pin requester : ℕ} (hs : Keeps s₀ s) :
    Keeps s₀ (claimPin s h pin requester) := by
  unfold Machine.claimPin
  exact .ite (.pinOutcome (.wr hs)) (.pinOutcome hs)

theorem Keeps.drivePin {s : State} {h : Half} {pin : AuxPin} {level : ℕ} (hs : Keeps s₀ s) :
    Keeps s₀ (drivePin s h pin level) := by
  unfold Machine.drivePin
  extract_lets +onlyGivenNames l s1
  have hs1 : Keeps s₀ s1 := .wr hs
  exact .ite hs1 (.emit hs1)

theorem Keeps.releasePin {s : State} {h : Half} {pin : ℕ} (hs : Keeps s₀ s) :
    Keeps s₀ (releasePin s h pin) := by
  unfold Machine.releasePin
  exact .drivePin (.wr hs)

theorem Keeps.cmpOutcome {s : State} {h : Half} {status index holder requester : ℕ} (hs : Keeps s₀ s) :
    Keeps s₀ (cmpOutcome s h status index holder requester) := by
  unfold Machine.cmpOutcome
  exact .wr (.wr (.wr (.wr hs)))

theorem Keeps.claimCmp {s : State} {h : Half} {c requester : ℕ} (hs : Keeps s₀ s) :
    Keeps s₀ (claimCmp s h c requester) := by
  unfold Machine.claimCmp
  exact .ite (.cmpOutcome (.wr hs)) (.cmpOutcome hs)

theorem Keeps.releaseCmp {s : State} {h : Half} {c : ℕ} (hs : Keeps s₀ s) :
    Keeps s₀ (releaseCmp s h c) := by
  unfold Machine.releaseCmp
  exact .wr (.wr hs)

theorem Keeps.armCmp {s : State} {h : Half} {c target : ℕ} (hs : Keeps s₀ s) :
    Keeps s₀ (armCmp s h c target) := by
  unfold Machine.armCmp
  exact .wr (.wr hs)

theorem Keeps.skipCmp {s : State} {h : Half} {c n : ℕ} (hs : Keeps s₀ s) :
    Keeps s₀ (skipCmp s h c n) := by
  unfold Machine.skipCmp
  exact .ite hs (.raiseCause (.inc hs))

theorem Keeps.armPinCmp {s : State} {h : Half} {c target period clock : ℕ} (hs : Keeps s₀ s) :
    Keeps s₀ (armPinCmp s h c target period clock) := by
  unfold Machine.armPinCmp
  refine .ite (.armCmp hs) ?_
  extract_lets +onlyGivenNames s1
  have hs1 : Keeps s₀ s1 := .wr hs
  exact .ite (.skipCmp (.wr hs1)) (.skipCmp (.armCmp hs1))

theorem Keeps.armTrig {s : State} {h : Half} {k : ℕ} {timed : Bool} (hs : Keeps s₀ s) :
    Keeps s₀ (armTrig s h k timed) := by
  unfold Machine.armTrig
  exact .ite (.armPinCmp hs) (.wr hs)

/-! ### Machine/Release.lean -/

theorem Keeps.clearCur {s : State} {h : Half} (hs : Keeps s₀ s) :
    Keeps s₀ (clearCur s h) := by
  unfold Machine.clearCur
  exact .foldl hs (fun _ _ ht => .foldl ht (fun _ _ hu => .ite hu (.wr hu)))

theorem Keeps.rearmList {s : State} {h : Half} {mt : Bool} (hs : Keeps s₀ s) :
    Keeps s₀ (rearmList s h mt) := by
  unfold Machine.rearmList
  extract_lets +onlyGivenNames l s1
  have hs1 : Keeps s₀ s1 := .wr hs
  refine .ite ?_ hs1
  split
  · exact .armCmp hs1
  · exact .wr hs1

theorem Keeps.countLate {s : State} {h : Half} (hs : Keeps s₀ s) :
    Keeps s₀ (countLate s h) := by
  unfold Machine.countLate
  exact .raiseCause (.inc hs)

theorem Keeps.countDrop {s : State} {h : Half} (hs : Keeps s₀ s) :
    Keeps s₀ (countDrop s h) := by
  unfold Machine.countDrop
  exact .raiseCause (.inc hs)

theorem Keeps.judgeLate {s : State} {c : Chain} {r : ReleaseOf} {late : ℕ} (hs : Keeps s₀ s) :
    Keeps s₀ (judgeLate s c r late) := by
  unfold Machine.judgeLate
  exact .ite (.countDrop (.setChain hs)) (.countLate (.setChain hs))

theorem Keeps.accept {s0 : State} {c : Chain} (hs0 : Keeps s₀ s0) :
    Keeps s₀ (accept s0 c) := by
  unfold Machine.accept
  extract_lets +onlyGivenNames s
  have hs : Keeps s₀ s := .clearCur hs0
  split
  · exact .setChain hs
  · exact .ite (.setChain hs) (.ite (.rearmList (.setChain hs)) (.judgeLate hs))

theorem Keeps.wake {s : State} {h : Half} (hs : Keeps s₀ s) :
    Keeps s₀ (wake s h) := by
  unfold Machine.wake
  exact .foldl hs (fun _ _ ht => .accept ht)

theorem Keeps.noteSteps {s : State} {h : Half} (hs : Keeps s₀ s) :
    Keeps s₀ (noteSteps s h) := by
  unfold Machine.noteSteps
  exact .mapChains hs

theorem Keeps.evcSet {s : State} {h : Half} {c v : ℕ} (hs : Keeps s₀ s) :
    Keeps s₀ (evcSet s h c v) := by
  unfold Machine.evcSet
  exact .wake (.noteSteps (.wr hs))

theorem Keeps.evcAdd {s : State} {h : Half} {c v : ℕ} (hs : Keeps s₀ s) :
    Keeps s₀ (evcAdd s h c v) := by
  unfold Machine.evcAdd
  exact .evcSet hs

theorem Keeps.fireList {s : State} {h : Half} {mt : Bool} {t : ℕ} (hs : Keeps s₀ s) :
    Keeps s₀ (fireList s h mt t) := by
  unfold Machine.fireList
  exact .rearmList (.mapChains (.clearCur hs))

theorem Keeps.judgeList {s0 : State} {h : Half} {mt : Bool} (hs0 : Keeps s₀ s0) :
    Keeps s₀ (judgeList s0 h mt) := by
  unfold Machine.judgeList
  extract_lets +onlyGivenNames s clock passed
  refine .rearmList ?_
  refine .foldl (.clearCur hs0) (fun _ _ ht => ?_)
  split
  · exact .ite (.setChain ht) (.judgeLate ht)
  · exact ht

theorem Keeps.relist {s : State} {h : Half} (hs : Keeps s₀ s) :
    Keeps s₀ (relist s h) := by
  unfold Machine.relist
  exact .rearmList (.rearmList hs)

theorem Keeps.closeRequest {s : State} {num status : ℕ} {silent : Bool} (hs : Keeps s₀ s) :
    Keeps s₀ (closeRequest s num status silent) := by
  unfold Machine.closeRequest
  split
  · exact hs
  · extract_lets +onlyGivenNames s1 s2 s3
    have hs3 : Keeps s₀ s3 := .relist (.freeOrphans (.cancelStreams (.mapChains (.setRequest hs))))
    exact .ite (.refreshDraining hs3) hs3

theorem Keeps.closeRequests {s : State} {p : Request → Bool} {status : ℕ} {silent : Bool} (hs : Keeps s₀ s) :
    Keeps s₀ (closeRequests s p status silent) := by
  unfold Machine.closeRequests
  exact .foldl hs (fun _ _ ht => .closeRequest ht)

/-! ### Machine/Rings.lean -/

theorem Keeps.ringStatus {s : State} {h : Half} {ring status : ℕ} (hs : Keeps s₀ s) :
    Keeps s₀ (ringStatus s h ring status) := by
  unfold Machine.ringStatus
  exact .wr hs

theorem Keeps.dropStaged {s : State} {h : Half} {fn : ℕ} (hs : Keeps s₀ s) :
    Keeps s₀ (dropStaged s h fn) := by
  unfold Machine.dropStaged
  exact .ite hs (.raiseFunc (.inc (.wr hs)))

theorem Keeps.refreshFetched {s : State} {h : Half} {ring : ℕ} (hs : Keeps s₀ s) :
    Keeps s₀ (refreshFetched s h ring) := by
  unfold Machine.refreshFetched
  exact .wr hs

theorem Keeps.stallBit {s : State} {h : Half} {ring : ℕ} {b : Bool} (hs : Keeps s₀ s) :
    Keeps s₀ (stallBit s h ring b) := by
  unfold Machine.stallBit
  exact .wr hs

theorem Keeps.unstall {s : State} {h : Half} {ring : ℕ} (hs : Keeps s₀ s) :
    Keeps s₀ (unstall s h ring) := by
  unfold Machine.unstall
  exact .ite (.stallBit hs) hs

theorem Completes.execSetupLockSet {h : Half} {s : State} (hs : Keeps s₀ s) :
    Completes s₀ (execSetupLockSet h s) := by
  unfold Machine.execSetupLockSet
  refine .ite (.next hs) ?_
  extract_lets +onlyGivenNames s1
  have hs1 : Keeps s₀ s1 := .wr (.wr hs)
  exact .ite (.next (.emit (.wr hs1))) (.next hs1)

theorem Completes.execSetupLockAck {h : Half} {s : State} (hs : Keeps s₀ s) :
    Completes s₀ (execSetupLockAck h s) := by
  unfold Machine.execSetupLockAck
  exact .ite (.next (.wr hs)) (.next hs)

theorem Keeps.ringStore {s : State} {h : Half} {ring : ℕ} {reg : RingReg} {v : ℕ} (hs : Keeps s₀ s) :
    Keeps s₀ (ringStore s h ring reg v) := by
  unfold Machine.ringStore
  split
  · exact .wr (.wr hs)
  · exact .wr (.wr hs)
  · exact .wr (.wr (.wr (.wr (.wr hs))))
  · exact .wr (.wr hs)
  · exact .wr hs

theorem Completes.execRingConfigWrite {h : Half} {ring : ℕ} {reg : RingReg} {v : ℕ} {s : State} (hs : Keeps s₀ s) :
    Completes s₀ (execRingConfigWrite h ring reg v s) := by
  unfold Machine.execRingConfigWrite
  exact .ite (.ite (.next (.ringStore hs)) (.next (.ringStatus hs))) (.next hs)

theorem Keeps.dropDoorbells {s : State} {h : Half} {ring : ℕ} (hs : Keeps s₀ s) :
    Keeps s₀ (dropDoorbells s h ring) := by
  unfold Machine.dropDoorbells
  exact .upd hs

theorem Keeps.ringActivate {s0 : State} {h : Half} {ring : ℕ} (hs0 : Keeps s₀ s0) :
    Keeps s₀ (ringActivate s0 h ring) := by
  unfold Machine.ringActivate
  exact .stallBit (.wr (.wr (.wr (.wr (.wr (.wr (.wr (.wr (.wr (.wr (.wr (.dropDoorbells hs0))))))))))))

theorem Completes.execRingEnable {h : Half} {ring : ℕ} {s : State} (hs : Keeps s₀ s) :
    Completes s₀ (execRingEnable h ring s) := by
  unfold Machine.execRingEnable
  refine .ite ?_ (.next hs)
  refine .ite (.next hs) ?_
  split
  · exact .next (.ringStatus hs)
  · exact .next (.ringStatus (.ringActivate hs))

theorem Keeps.cancelUnadmitted {s : State} {h : Half} {ring status : ℕ} {silent : Bool} (hs : Keeps s₀ s) :
    Keeps s₀ (cancelUnadmitted s h ring status silent) := by
  unfold Machine.cancelUnadmitted
  exact .refreshFetched (.relist (.mapChains hs))

theorem Keeps.ringStop {s : State} {h : Half} {ring : ℕ} (hs : Keeps s₀ s) :
    Keeps s₀ (ringStop s h ring) := by
  unfold Machine.ringStop
  exact .ite (.cancelUnadmitted (.wr (.wr hs))) hs

theorem Completes.execRingDisable {h : Half} {ring : ℕ} {s : State} (hs : Keeps s₀ s) :
    Completes s₀ (execRingDisable h ring s) := by
  unfold Machine.execRingDisable
  exact .ite (.next (.ringStop hs)) (.next hs)

theorem Completes.execRingFstop {h : Half} {ring : ℕ} {s : State} (hs : Keeps s₀ s) :
    Completes s₀ (execRingFstop h ring s) := by
  unfold Machine.execRingFstop
  exact .ite (.next (.ringStop hs)) (.next hs)

theorem Keeps.standingLeave {s : State} {h : Half} {ring : ℕ} (hs : Keeps s₀ s) :
    Keeps s₀ (standingLeave s h ring) := by
  unfold Machine.standingLeave
  exact .dropCtxs (.wr (.wr hs))

theorem Keeps.forgetRing {s : State} {h : Half} {ring : ℕ} (hs : Keeps s₀ s) :
    Keeps s₀ (forgetRing s h ring) := by
  unfold Machine.forgetRing
  exact .mapChains hs

theorem Keeps.endPartStep {s : State} {h : Half} {fn : ℕ} (hs : Keeps s₀ s) :
    Keeps s₀ (endPartStep s h fn) := by
  unfold Machine.endPartStep
  refine .ite ?_ hs
  extract_lets +onlyGivenNames s1
  have hs1 : Keeps s₀ s1 := .wr hs
  exact .raiseCause (.ite (.wr hs1) hs1)

theorem Keeps.ringDisabled {s : State} {h : Half} {ring : ℕ} (hs : Keeps s₀ s) :
    Keeps s₀ (ringDisabled s h ring) := by
  unfold Machine.ringDisabled
  extract_lets +onlyGivenNames s1
  have hs1 : Keeps s₀ s1 := .forgetRing (.wr hs)
  exact .endPartStep (.standingLeave (.ite hs1 (.signalRing hs1)))

theorem Completes.execRingStopDrained {h : Half} {ring : ℕ} {s : State} (hs : Keeps s₀ s) :
    Completes s₀ (execRingStopDrained h ring s) := by
  unfold Machine.execRingStopDrained
  exact .ite (.next (.ringDisabled hs)) (.next hs)

theorem Keeps.noteDoorbell {s : State} {h : Half} {ring pi : ℕ} (hs : Keeps s₀ s) :
    Keeps s₀ (noteDoorbell s h ring pi) := by
  unfold Machine.noteDoorbell
  exact .upd hs

theorem Completes.execDoorbellWrite {h : Half} {ring pi : ℕ} {s : State} (hs : Keeps s₀ s) :
    Completes s₀ (execDoorbellWrite h ring pi s) := by
  unfold Machine.execDoorbellWrite
  refine .ite ?_ (.next hs)
  extract_lets +onlyGivenNames s'
  have hs' : Keeps s₀ s' := .dropStaged hs
  exact .ite (.next (.ringErr hs')) (.ite (.next hs') (.ite (.next (.noteDoorbell (.wr hs'))) (.next (.ringErr hs'))))

theorem Completes.execCqDoorbellWrite {h : Half} {ring ci : ℕ} {s : State} (hs : Keeps s₀ s) :
    Completes s₀ (execCqDoorbellWrite h ring ci s) := by
  unfold Machine.execCqDoorbellWrite
  refine .ite ?_ (.next hs)
  extract_lets +onlyGivenNames s'
  have hs' : Keeps s₀ s' := .dropStaged hs
  exact .ite (.next (.unstall (.wr hs'))) (.next (.ringErr hs'))

theorem Keeps.fetchFailed {s : State} {h : Half} {ring status : ℕ} (hs : Keeps s₀ s) :
    Keeps s₀ (fetchFailed s h ring status) := by
  unfold Machine.fetchFailed
  exact .refreshFetched (.ringErr (.ringStatus (.ite (.wr hs) hs)))

theorem Completes.execDescFetch {h : Half} {ring : ℕ} {s : State} (hs : Keeps s₀ s) :
    Completes s₀ (execDescFetch h ring s) := by
  unfold Machine.execDescFetch
  exact .ite (.ite (.ite (.next hs) (.next (.fetchFailed hs))) (.ite (.next (.stallBit hs)) (.next (.refreshFetched (.stallBit (.wr (.wr
      (.upd hs)))))))) (.next hs)

theorem Keeps.hostStores {s : State} {h : Half} {ring first n : ℕ} {data : List Byte} (hs : Keeps s₀ s) :
    Keeps s₀ (hostStores s h ring first n data) :=
  hs.setMem (Memory.wf_writeN _ _)

theorem Keeps.fetchSamples {s : State} {f : Fetch} (hs : Keeps s₀ s) :
    Keeps s₀ (fetchSamples s f) := by
  unfold Machine.fetchSamples
  exact .histSample (.foldl hs (fun _ _ ht => .histSample ht))

theorem Keeps.setFetches {s : State} {h : Half} {ring : ℕ} {l : List Fetch} (hs : Keeps s₀ s) :
    Keeps s₀ (setFetches s h ring l) := by
  unfold Machine.setFetches
  exact .wr (.upd hs)

theorem Keeps.dropUncovered {s : State} {h : Half} {ring : ℕ} (hs : Keeps s₀ s) :
    Keeps s₀ (dropUncovered s h ring) := by
  unfold Machine.dropUncovered
  exact .ite hs (.refreshFetched (.wr (.setFetches hs)))

theorem Keeps.landRead {s : State} {h : Half} {ring : ℕ} {f : Fetch} {data : List Byte} (hs : Keeps s₀ s) :
    Keeps s₀ (landRead s h ring f data) := by
  unfold Machine.landRead
  extract_lets +onlyGivenNames s1
  have hs1 : Keeps s₀ s1 := .hostStores hs
  exact .bump (.upd hs1)

theorem Completes.execDescFetchComplete {h : Half} {ring : ℕ} {data : List Byte} {s : State} (hs : Keeps s₀ s) :
    Completes s₀ (execDescFetchComplete h ring data s) := by
  unfold Machine.execDescFetchComplete
  split
  · exact .next hs
  · exact .next (.dropUncovered (.fetchSamples (.landRead hs)))

theorem Completes.execDescFetchFail {h : Half} {ring : ℕ} {s : State} (hs : Keeps s₀ s) :
    Completes s₀ (execDescFetchFail h ring s) := by
  unfold Machine.execDescFetchFail
  exact .ite (.next (.fetchFailed (.setFetches hs))) (.next hs)

theorem Keeps.zeroSlots {s : State} {h : Half} {ring : ℕ} (hs : Keeps s₀ s) : Keeps s₀ (zeroSlots s h ring) :=
  hs.setSlots (Memory.wf_clearRange _ _)

theorem Completes.execPinAllocWrite {h : Half} {ring count : ℕ} {s : State} (hs : Keeps s₀ s) :
    Completes s₀ (execPinAllocWrite h ring count s) := by
  unfold Machine.execPinAllocWrite
  exact .ite (.ite (.next (.wr hs)) (.ite (.next (.wr hs)) (.ite (.next (.wr hs)) (.next (.zeroSlots (.wr (.wr (.wr (.wr hs)))))))))
      (.next hs)

theorem Completes.execPinnedSlotWrite {h : Half} {ring off : ℕ} {data : List Byte} {s : State} (hs : Keeps s₀ s) :
    Completes s₀ (execPinnedSlotWrite h ring off data s) := by
  unfold Machine.execPinnedSlotWrite
  refine .ite ?_ (.next hs)
  have hd : Keeps s₀ (dropStaged s h (ringFn ring)) := .dropStaged hs
  exact .ite (.next (.countBadWidth hd)) (.ite (.next (.ringErr hd)) (.ite (.next hd) (.ite (.next (.ringErr hd))
    (.next (hd.setSlots (Memory.wf_writeN _ _))))))

theorem Completes.execPinnedRead {h : Half} {ring : ℕ} {s : State} (hs : Keeps s₀ s) :
    Completes s₀ (execPinnedRead h ring s) := by
  unfold Machine.execPinnedRead
  exact .ite (.ite (.next (.refreshFetched (.stallBit (.wr (.wr (.upd hs)))))) (.next (.stallBit hs))) (.next hs)

theorem Completes.execEvtRingWrite {h : Half} {fn : ℕ} {en : Bool} {ring : Fin 8} {s : State} (hs : Keeps s₀ s) :
    Completes s₀ (execEvtRingWrite h fn en ring s) := by
  unfold Machine.execEvtRingWrite
  exact .ite (.ite (.next (.wr (.wr hs))) (.next (.ringStatus hs))) (.next hs)

theorem Completes.execCoalTimeExpire {h : Half} {ring : ℕ} {s : State} (hs : Keeps s₀ s) :
    Completes s₀ (execCoalTimeExpire h ring s) := by
  unfold Machine.execCoalTimeExpire
  exact .ite (.next (.signalRing hs)) (.next hs)

theorem Completes.execMsixUnmask {h : Half} {fn vec : ℕ} {s : State} (hs : Keeps s₀ s) :
    Completes s₀ (execMsixUnmask h fn vec s) := by
  unfold Machine.execMsixUnmask
  refine .ite ?_ (.next hs)
  extract_lets +onlyGivenNames i s1
  have hs1 : Keeps s₀ s1 := .wr hs
  exact .ite (.next (.sendMsix (.wr hs1))) (.next hs1)

theorem Keeps.resetHost {s : State} {h : Half} {l : List HostF} {i : ℕ} (hs : Keeps s₀ s) :
    Keeps s₀ (resetHost s h l i) := by
  unfold Machine.resetHost
  exact .foldl hs (fun _ _ ht => .wr ht)

theorem Keeps.resetMsix {s : State} {h : Half} {fn : ℕ} (hs : Keeps s₀ s) :
    Keeps s₀ (resetMsix s h fn) := by
  unfold Machine.resetMsix
  exact .foldl hs (fun _ _ ht => .resetHost ht)

theorem Keeps.dropFetches {s : State} {h : Half} {ring : ℕ} (hs : Keeps s₀ s) :
    Keeps s₀ (dropFetches s h ring) := by
  unfold Machine.dropFetches
  exact .setFetches hs

theorem Keeps.ringHalt {s : State} {h : Half} {ring status : ℕ} (hs : Keeps s₀ s) :
    Keeps s₀ (ringHalt s h ring status) := by
  unfold Machine.ringHalt
  extract_lets +onlyGivenNames s1
  have hs1 : Keeps s₀ s1 := .dropFetches hs
  exact .refreshFetched (.mapChains (.ite hs1 (.wr (.wr hs1))))

theorem Keeps.haltFunction {s : State} {h : Half} {fn status : ℕ} (hs : Keeps s₀ s) :
    Keeps s₀ (haltFunction s h fn status) := by
  unfold Machine.haltFunction
  exact .relist (.closeRequests (.foldl hs (fun _ _ ht => .ringHalt ht)))

theorem Keeps.settleRings {s : State} {h : Half} {fn : ℕ} (hs : Keeps s₀ s) :
    Keeps s₀ (settleRings s h fn) := by
  unfold Machine.settleRings
  exact .foldl hs (fun _ _ ht => .ite (.ringDisabled ht) ht)

theorem Keeps.stopFunction {s : State} {h : Half} {fn status : ℕ} (hs : Keeps s₀ s) :
    Keeps s₀ (stopFunction s h fn status) := by
  unfold Machine.stopFunction
  exact .refreshDraining (.relist (.closeRequests (.foldl hs (fun _ _ ht => .wr ht))))

theorem Keeps.resetFunction {s : State} {h : Half} {fn : ℕ} (hs : Keeps s₀ s) :
    Keeps s₀ (resetFunction s h fn) := by
  unfold Machine.resetFunction
  exact .resetMsix (.resetHost (.foldl hs (fun _ _ ht => .zeroSlots (.resetHost ht))))

theorem Keeps.killFunction {s : State} {h : Half} {fn status : ℕ} (hs : Keeps s₀ s) :
    Keeps s₀ (killFunction s h fn status) := by
  unfold Machine.killFunction
  exact .refreshDraining (.resetFunction (.settleRings (.haltFunction hs)))

theorem Keeps.killHalf {s : State} {h : Half} {status : ℕ} (hs : Keeps s₀ s) :
    Keeps s₀ (killHalf s h status) := by
  unfold Machine.killHalf
  exact .foldl hs (fun _ _ ht => .killFunction ht)

theorem Keeps.limitVfs {s : State} {h : Half} {n : ℕ} (hs : Keeps s₀ s) :
    Keeps s₀ (limitVfs s h n) := by
  unfold Machine.limitVfs
  exact .foldl hs (fun _ _ ht => .wr ht)

theorem Keeps.resetPcie {s : State} {h : Half} (hs : Keeps s₀ s) :
    Keeps s₀ (resetPcie s h) := by
  unfold Machine.resetPcie
  exact .foldl (.limitVfs (.wr hs)) (fun _ _ ht => .wr (.wr ht))

theorem Keeps.ideStop {s : State} {h : Half} {i : ℕ} (hs : Keeps s₀ s) :
    Keeps s₀ (ideStop s h i) := by
  unfold Machine.ideStop
  exact .wr (.wr (.wr (.wr (.wr (.wr hs)))))

theorem Keeps.linkDown {s : State} {h : Half} (hs : Keeps s₀ s) :
    Keeps s₀ (linkDown s h) := by
  unfold Machine.linkDown
  exact .foldl (.wr (.wr hs)) (fun _ _ ht => .ideStop ht)

theorem Keeps.linkEvent {s : State} {h : Half} {bits : ℕ} (hs : Keeps s₀ s) :
    Keeps s₀ (linkEvent s h bits) := by
  unfold Machine.linkEvent
  exact .wr hs

theorem Keeps.hostReset {s : State} {h : Half} (hs : Keeps s₀ s) :
    Keeps s₀ (hostReset s h) := by
  unfold Machine.hostReset
  extract_lets +onlyGivenNames s1
  have hs1 : Keeps s₀ s1 := .killHalf (.resetPcie (.linkDown hs))
  exact .ite (.linkEvent hs1) hs1

theorem Completes.execPerstAssert {h : Half} {s : State} (hs : Keeps s₀ s) :
    Completes s₀ (execPerstAssert h s) := by
  unfold Machine.execPerstAssert
  exact .next (.wr (.hostReset hs))

theorem Completes.execPerstDeassert {h : Half} {s : State} (hs : Keeps s₀ s) :
    Completes s₀ (execPerstDeassert h s) := by
  unfold Machine.execPerstDeassert
  exact .next (.wr hs)

theorem Completes.execHotReset {h : Half} {s : State} (hs : Keeps s₀ s) :
    Completes s₀ (execHotReset h s) := by
  unfold Machine.execHotReset
  exact .next (.hostReset hs)

theorem Keeps.dlDown {s : State} {h : Half} (hs : Keeps s₀ s) :
    Keeps s₀ (dlDown s h) := by
  unfold Machine.dlDown
  exact .linkEvent (.killHalf (.linkDown hs))

theorem Completes.execDlDown {h : Half} {s : State} (hs : Keeps s₀ s) :
    Completes s₀ (execDlDown h s) := by
  unfold Machine.execDlDown
  exact .next (.dlDown hs)

theorem Completes.execFlrPf {h : Half} {s : State} (hs : Keeps s₀ s) :
    Completes s₀ (execFlrPf h s) := by
  unfold Machine.execFlrPf
  exact .ite (.next (.linkEvent (.killHalf (.resetPcie hs)))) (.next hs)

theorem Keeps.resetFaultView {s : State} {h : Half} {vf : ℕ} (hs : Keeps s₀ s) :
    Keeps s₀ (resetFaultView s h vf) := by
  unfold Machine.resetFaultView
  exact .foldl (.foldl hs (fun _ _ ht => .wr ht)) (fun _ _ ht => .wr (.wr ht))

theorem Completes.execFlrVf {h : Half} {vf : ℕ} {s : State} (hs : Keeps s₀ s) :
    Completes s₀ (execFlrVf h vf s) := by
  unfold Machine.execFlrVf
  exact .ite (.next (.resetFaultView (.killFunction (.wr (.wr hs))))) (.next hs)

theorem Completes.execBmeClear {h : Half} {fn : ℕ} {s : State} (hs : Keeps s₀ s) :
    Completes s₀ (execBmeClear h fn s) := by
  unfold Machine.execBmeClear
  exact .ite (.next (.stopFunction (.wr hs))) (.next hs)

theorem Completes.execD3hotEnter {h : Half} {fn : ℕ} {s : State} (hs : Keeps s₀ s) :
    Completes s₀ (execD3hotEnter h fn s) := by
  unfold Machine.execD3hotEnter
  exact .ite (.next (.stopFunction (.wr hs))) (.next hs)

theorem Keeps.enumerated {s : State} {h : Half} {fn : ℕ} (hs : Keeps s₀ s) :
    Keeps s₀ (enumerated s h fn) := by
  unfold Machine.enumerated
  exact .wr (.wr hs)

theorem Completes.execPcieLinkUp {h : Half} {width rate : ℕ} {flit : Bool} {s : State} (hs : Keeps s₀ s) :
    Completes s₀ (execPcieLinkUp h width rate flit s) := by
  unfold Machine.execPcieLinkUp
  exact .ite (.next (.wr (.wr (.wr (.wr (.foldl hs (fun _ _ ht => .enumerated ht))))))) (.next hs)

theorem Completes.execVfEnableChange {h : Half} {enable : Bool} {numVfs : ℕ} {s : State} (hs : Keeps s₀ s) :
    Completes s₀ (execVfEnableChange h enable numVfs s) := by
  unfold Machine.execVfEnableChange
  exact .ite (.next (.limitVfs (.wr (.foldl (.foldl hs (fun _ _ ht => .killFunction (.wr ht))) (fun _ _ ht => .enumerated ht))))) (.next hs)

/-! ### Machine/Chains.lean -/

theorem Keeps.logSched {s : State} {h : Half} {ring seq event cls status ctx : ℕ} (hs : Keeps s₀ s) :
    Keeps s₀ (logSched s h ring seq event cls status ctx) := by
  unfold Machine.logSched
  exact .upd hs

theorem Keeps.bumpPart {s : State} {h : Half} {fn slot n : ℕ} (hs : Keeps s₀ s) :
    Keeps s₀ (bumpPart s h fn slot n) := by
  unfold Machine.bumpPart
  exact .bump hs

theorem Keeps.consume {s : State} {h : Half} {ring n : ℕ} (hs : Keeps s₀ s) :
    Keeps s₀ (consume s h ring n) := by
  unfold Machine.consume
  extract_lets +onlyGivenNames s1
  have hs1 : Keeps s₀ s1 := .upd hs
  exact .ite hs1 (.wr hs1)

theorem Keeps.readDoorbells {s : State} {h : Half} {ring seq n : ℕ} (hs : Keeps s₀ s) :
    Keeps s₀ (readDoorbells s h ring seq n) := by
  unfold Machine.readDoorbells
  exact .upd hs

theorem Keeps.addChain {s : State} {c : Chain} (hs : Keeps s₀ s) :
    Keeps s₀ (addChain s c) := by
  unfold Machine.addChain
  extract_lets +onlyGivenNames u
  have hu : Keeps s₀ u := .readDoorbells hs
  exact .logSched (.bumpPart (.bump (.wr (.upd hu))))

theorem Keeps.addRefused {s : State} {c : Chain} {r : Refused} {reached : Bool} (hs : Keeps s₀ s) :
    Keeps s₀ (addRefused s c r reached) := by
  unfold Machine.addRefused
  exact .logSched (.bumpPart (.addChain hs))

theorem Keeps.openMap {s : State} {c : Chain} (hs : Keeps s₀ s) :
    Keeps s₀ (openMap s c).2.1 := by
  unfold Machine.openMap
  extract_lets +onlyGivenNames map fn w inStack outside
  refine .iteOn (fun q : ℕ × State × List Byte => q.2.1) hs ?_
  refine .iteOn (fun q : ℕ × State × List Byte => q.2.1) (.recordRefusal hs) ?_
  extract_lets +onlyGivenNames r
  have hr : Keeps s₀ r.2.1 := .readAt hs
  refine .iteOn (fun q : ℕ × State × List Byte => q.2.1) hr ?_
  extract_lets +onlyGivenNames m
  refine .iteOn (fun q : ℕ × State × List Byte => q.2.1) hr ?_
  extract_lets +onlyGivenNames st
  refine .iteOn (fun q : ℕ × State × List Byte => q.2.1) (.recordRefusal hr) ?_
  split
  next t eht =>
    have ht : Keeps s₀ t := OnSome.get (.reserveGuests hr) eht
    exact ht
  · exact .inc hr

theorem Keeps.openRequest {s : State} {c : Chain} (hs : Keeps s₀ s) :
    Keeps s₀ (openRequest s c) := by
  unfold Machine.openRequest
  extract_lets +onlyGivenNames r
  have hr : Keeps s₀ r.2.1 := .openMap hs
  refine .ite (.addRefused hr) ?_
  extract_lets +onlyGivenNames s1
  have hs1 : Keeps s₀ s1 := .addChain hr
  exact .refreshReqCount (.upd hs1)

theorem Keeps.endStreams {s : State} {h : Half} {num : ℕ} (hs : Keeps s₀ s) :
    Keeps s₀ (endStreams s h num) := by
  unfold Machine.endStreams
  exact .ite hs (.showStreams (.upd hs))

theorem Keeps.endsNow {s : State} {c : Chain} (hs : Keeps s₀ s) :
    Keeps s₀ (endsNow s c) := by
  unfold Machine.endsNow
  exact .ite (.endStreams hs) hs

theorem Keeps.closeAtRead {s : State} {c : Chain} (hs : Keeps s₀ s) :
    Keeps s₀ (closeAtRead s c) := by
  unfold Machine.closeAtRead
  exact .endStreams (.setRequest (.addChain hs))

theorem Keeps.beginWait {s : State} {readNo : ℕ} (hs : Keeps s₀ s) :
    Keeps s₀ (beginWait s readNo) := by
  unfold Machine.beginWait
  split
  · exact hs
  · exact .ite hs (.accept hs)

theorem Keeps.readChain {s : State} {c : Chain} (hs : Keeps s₀ s) :
    Keeps s₀ (readChain s c) := by
  unfold Machine.readChain
  split
  · exact .addRefused hs
  · extract_lets +onlyGivenNames s1
    have hs1 : Keeps s₀ s1 := .ite (.openRequest hs) (.ite (.closeAtRead hs) (.addChain hs))
    exact .ite hs1 (.beginWait hs1)

theorem Completes.execChainRead {h : Half} {ring : ℕ} {s : State} (hs : Keeps s₀ s) :
    Completes s₀ (execChainRead h ring s) := by
  unfold Machine.execChainRead
  extract_lets +onlyGivenNames data head n seq
  refine .ite (.next hs) ?_
  refine .ite (.ite (.next (.refreshFetched (.dropFetches hs))) (.next hs)) ?_
  extract_lets +onlyGivenNames held need
  refine .ite (.next (.stallBit hs)) ?_
  extract_lets +onlyGivenNames exts s1 c
  have hs1 : Keeps s₀ s1 := .stallBit (.consume (.wr hs))
  split
  · exact .next (.refreshFetched (.addChain hs1))
  · exact .next (.refreshFetched (.readChain hs1))

theorem Keeps.updateScores {s : State} {c : Chain} (hs : Keeps s₀ s) :
    Keeps s₀ (updateScores s c) := by
  unfold Machine.updateScores
  split
  · exact hs
  · split
    · exact hs
    · exact .foldl hs (fun _ _ ht => .ite (.setEntryAt ht) ht)

theorem Keeps.countDone {s : State} {c : Chain} {status : ℕ} (hs : Keeps s₀ s) :
    Keeps s₀ (countDone s c status) := by
  unfold Machine.countDone
  extract_lets +onlyGivenNames fn s1 s2
  have hs1 : Keeps s₀ s1 := .ite (.bumpPart hs) hs
  have hs2 : Keeps s₀ s2 := .ite (.bumpPart hs1) hs1
  exact .ite (.bumpPart hs2) hs2

theorem Keeps.noteBad {s : State} {c : Chain} {status : ℕ} (hs : Keeps s₀ s) :
    Keeps s₀ (noteBad s c status) := by
  unfold Machine.noteBad
  split
  · exact .ite hs (.setRequest hs)
  · exact hs

theorem Keeps.emptyLoad {s : State} {c : Chain} (hs : Keeps s₀ s) :
    Keeps s₀ (emptyLoad s c) := by
  unfold Machine.emptyLoad
  exact .ite (.wr hs) hs

theorem Keeps.removeChain {s : State} {c : Chain} (hs : Keeps s₀ s) :
    Keeps s₀ (removeChain s c) := by
  unfold Machine.removeChain
  extract_lets +onlyGivenNames s0 s1
  have hs1 : Keeps s₀ s1 := .dropGuests (.foldl (.dropCtxs hs) (fun _ _ ha => .standAgain ha))
  exact .emptyLoad (.upd hs1)

theorem Keeps.genRecord {s : State} {c : Chain} {status detail : ℕ} (hs : Keeps s₀ s) :
    Keeps s₀ (genRecord s c status detail) := by
  unfold Machine.genRecord
  extract_lets +onlyGivenNames s1
  have hs1 : Keeps s₀ s1 := .wr (.setChain hs)
  exact .ite hs1 (.writeRecord hs1)

theorem Keeps.closeStep {s : State} {c : Chain} (hs : Keeps s₀ s) :
    Keeps s₀ (closeStep s c).1 := by
  unfold Machine.closeStep
  split
  · exact .genRecord hs
  · exact hs

theorem Keeps.closeShip {s : State} {c : Chain} (hs : Keeps s₀ s) :
    Keeps s₀ (closeShip s c).1 := by
  unfold Machine.closeShip
  refine .iteOn Prod.fst hs ?_
  extract_lets +onlyGivenNames q
  have hq : Keeps s₀ q.1 := by
    unfold q
    split
    · split
      · exact .cutPages hs
      · exact hs
    · exact hs
  exact .bumpPart hq

theorem Keeps.finalRecord {s : State} {c : Chain} {status : ℕ} (hs : Keeps s₀ s) :
    Keeps s₀ (finalRecord s c status) := by
  unfold Machine.finalRecord
  extract_lets +onlyGivenNames keep s1
  have hs1 : Keeps s₀ s1 := .wr hs
  exact .ite hs1 (.writeRecord hs1)

theorem Keeps.closeLinkLost {s : State} {c : Chain} (hs : Keeps s₀ s) :
    Keeps s₀ (closeLinkLost s c) := by
  unfold Machine.closeLinkLost
  refine .ite ?_ hs
  split
  · exact .closeRequest hs
  · exact hs

theorem Keeps.finishChain {s0 : State} {c0 : Chain} (hs0 : Keeps s₀ s0) :
    Keeps s₀ (finishChain s0 c0) := by
  unfold Machine.finishChain
  extract_lets +onlyGivenNames a b q c status s1
  have hs1 : Keeps s₀ s1 := .updateScores (.closeShip (.closeStep (.closeAlloc hs0)))
  exact .unstall (.refreshDraining (.refreshFetched (.endsNow (.relist (.removeChain (.logSched (.countDone (.noteBad (.finalRecord (.ite
      (.evcAdd hs1) hs1))))))))))

theorem Keeps.completeChain {s : State} {c : Chain} (hs : Keeps s₀ s) :
    Keeps s₀ (completeChain s c) := by
  unfold Machine.completeChain
  exact .finishChain (.closeLinkLost hs)

theorem Completes.execChainComplete {h : Half} {ring seq : ℕ} {s : State} (hs : Keeps s₀ s) :
    Completes s₀ (execChainComplete h ring seq s) := by
  unfold Machine.execChainComplete
  split
  · exact .ite (.next (.completeChain hs)) (.next hs)
  · exact .next hs

theorem Completes.execEvcValWrite {h : Half} {fn j v : ℕ} {s : State} (hs : Keeps s₀ s) :
    Completes s₀ (execEvcValWrite h fn j v s) := by
  unfold Machine.execEvcValWrite
  split
  · exact .next (.evcSet hs)
  · exact .next hs

theorem Completes.execEvcAddWrite {h : Half} {fn j v : ℕ} {s : State} (hs : Keeps s₀ s) :
    Completes s₀ (execEvcAddWrite h fn j v s) := by
  unfold Machine.execEvcAddWrite
  split
  · exact .next (.evcAdd hs)
  · exact .next hs

theorem Completes.execEvcAllocWrite {h : Half} {p base count : ℕ} {s : State} (hs : Keeps s₀ s) :
    Completes s₀ (execEvcAllocWrite h p base count s) := by
  unfold Machine.execEvcAllocWrite
  refine .ite (.next hs) ?_
  extract_lets +onlyGivenNames st s1
  have hs1 : Keeps s₀ s1 := .wr hs
  exact .ite (.next (.wr (.wr hs1))) (.next hs1)

theorem Completes.execReqAllocWrite {h : Half} {p base count : ℕ} {s : State} (hs : Keeps s₀ s) :
    Completes s₀ (execReqAllocWrite h p base count s) := by
  unfold Machine.execReqAllocWrite
  refine .ite (.next hs) ?_
  extract_lets +onlyGivenNames st s1
  have hs1 : Keeps s₀ s1 := .wr hs
  exact .ite (.next (.wr (.wr hs1))) (.next hs1)

theorem Completes.runChain {s : State} {h : Half} {ring seq op : ℕ} {f : Chain → State} (hs : Keeps s₀ s) (hf : ∀ u, Keeps s₀ (f u)) :
    Completes s₀ (runChain s h ring seq op f) := by
  unfold Machine.runChain
  split
  · exact .ite (.next (hf _)) (.next hs)
  · exact .next hs

theorem Completes.runHub {s : State} {h : Half} {ring seq op : ℕ} {f : Chain → State} (hs : Keeps s₀ s) (hf : ∀ u, Keeps s₀ (f u)) :
    Completes s₀ (runHub s h ring seq op f) := by
  unfold Machine.runHub
  exact .runChain hs (fun _ => .ite (hf _) hs)

theorem Keeps.endChain {s : State} {c : Chain} {status : ℕ} (hs : Keeps s₀ s) :
    Keeps s₀ (endChain s c status) := by
  unfold Machine.endChain
  exact .setChain hs

theorem Keeps.endDetail {s : State} {c : Chain} {status detail : ℕ} (hs : Keeps s₀ s) :
    Keeps s₀ (endDetail s c status detail) := by
  unfold Machine.endDetail
  exact .setChain hs

theorem Completes.execMarker {h : Half} {ring seq : ℕ} {s : State} (hs : Keeps s₀ s) :
    Completes s₀ (execMarker h ring seq s) := by
  unfold Machine.execMarker
  exact .runChain hs (fun _ => .ite (.endDetail hs) (.endDetail (.writeAt hs)))

theorem Completes.execFence {h : Half} {ring seq : ℕ} {s : State} (hs : Keeps s₀ s) :
    Completes s₀ (execFence h ring seq s) := by
  unfold Machine.execFence
  exact .runChain hs (fun _ => .ite hs (.endChain hs))

theorem Completes.execBarrier {h : Half} {ring seq : ℕ} {s : State} (hs : Keeps s₀ s) :
    Completes s₀ (execBarrier h ring seq s) := by
  unfold Machine.execBarrier
  exact .runChain hs (fun _ => .ite hs (.endChain hs))

theorem Completes.execTimeWait {h : Half} {ring seq : ℕ} {s : State} (hs : Keeps s₀ s) :
    Completes s₀ (execTimeWait h ring seq s) := by
  unfold Machine.execTimeWait
  exact .runChain hs (fun _ => .endChain hs)

theorem Completes.execEventOp {h : Half} {ring seq : ℕ} {s : State} (hs : Keeps s₀ s) :
    Completes s₀ (execEventOp h ring seq s) := by
  unfold Machine.execEventOp
  exact .runChain hs (fun _ => .endChain (.ite (.evcSet hs) (.evcAdd hs)))

theorem Keeps.startCancel {s : State} {c : Chain} (hs : Keeps s₀ s) :
    Keeps s₀ (startCancel s c) := by
  unfold Machine.startCancel
  exact .setChain (.foldl hs (fun _ _ ht => .closeRequest ht))

theorem Keeps.endCancel {s : State} {c : Chain} (hs : Keeps s₀ s) :
    Keeps s₀ (endCancel s c) := by
  unfold Machine.endCancel
  exact .ite hs (.endChain hs)

theorem Completes.execCancel {h : Half} {ring seq : ℕ} {s : State} (hs : Keeps s₀ s) :
    Completes s₀ (execCancel h ring seq s) := by
  unfold Machine.execCancel
  split
  · exact .next hs
  · refine .ite (.next hs) ?_
    refine .ite ?_ (.next (.endCancel hs))
    extract_lets +onlyGivenNames s1
    have hs1 : Keeps s₀ s1 := .startCancel hs
    split
    · exact .next (.endCancel hs1)
    · exact .next hs1

theorem Completes.execReqOpen {h : Half} {ring seq : ℕ} {s : State} (hs : Keeps s₀ s) :
    Completes s₀ (execReqOpen h ring seq s) := by
  unfold Machine.execReqOpen
  exact .runChain hs (fun _ => .endChain (.setRequest hs))

theorem Completes.execReqClose {h : Half} {ring seq : ℕ} {s : State} (hs : Keeps s₀ s) :
    Completes s₀ (execReqClose h ring seq s) := by
  unfold Machine.execReqClose
  exact .runChain hs (fun _ => .endChain (.endStreams hs))

theorem Keeps.freeRequest {s : State} {r : Request} (hs : Keeps s₀ s) :
    Keeps s₀ (freeRequest s r) := by
  unfold Machine.freeRequest
  extract_lets +onlyGivenNames h s1 s2 s3 s4
  have hs1 : Keeps s₀ s1 := .wr hs
  have hs2 : Keeps s₀ s2 := .ite hs1 (.writeRecord hs1)
  have hs4 : Keeps s₀ s4 := .releasePages (.ite (.histSample hs2) hs2)
  exact .refreshDraining (.refreshReqCount (.upd hs4))

theorem Completes.execRequestFree {h : Half} {num : ℕ} {s : State} (hs : Keeps s₀ s) :
    Completes s₀ (execRequestFree h num s) := by
  unfold Machine.execRequestFree
  split
  · exact .next hs
  · exact .ite (.next (.freeRequest hs)) (.next hs)

/-! ### Machine/Fabric.lean -/

theorem Keeps.putLink {s : State} {l : Link} (hs : Keeps s₀ s) :
    Keeps s₀ (putLink s l) := by
  unfold Machine.putLink
  exact .upd hs

theorem Keeps.countDropped {s : State} {h : Half} {k : ℕ} (hs : Keeps s₀ s) :
    Keeps s₀ (countDropped s h k) := by
  unfold Machine.countDropped
  exact .inc hs

theorem Keeps.queuePacket {s : State} {h : Half} {n vc : ℕ} {p : Packet} (hs : Keeps s₀ s) :
    Keeps s₀ (queuePacket s h n vc p) := by
  unfold Machine.queuePacket
  exact .putLink hs

theorem Keeps.deliver {s : State} {h : Half} {p : Packet} (hs : Keeps s₀ s) :
    Keeps s₀ (deliver s h p) := by
  unfold Machine.deliver
  exact .upd hs

theorem Keeps.injectPacket {s : State} {h : Half} {p : Packet} (hs : Keeps s₀ s) :
    Keeps s₀ (injectPacket s h p).2 := by
  unfold Machine.injectPacket
  refine .iteOn Prod.snd (.countDropped hs) ?_
  refine .iteOn Prod.snd (.countDropped hs) ?_
  split
  · exact .deliver hs
  · exact .queuePacket hs
  · exact .countDropped hs

theorem Completes.execPacketInject {h : Half} {dst ptype : ℕ} {transport payload : List Byte} {s : State} (hs : Keeps s₀ s) :
    Completes s₀ (execPacketInject h dst ptype transport payload s) := by
  unfold Machine.execPacketInject
  exact .ite (.next (.injectPacket hs)) (.next hs)

theorem Keeps.freeCredits {s : State} {h : Half} {n cls flits : ℕ} (hs : Keeps s₀ s) :
    Keeps s₀ (freeCredits s h n cls flits) := by
  unfold Machine.freeCredits
  exact .putLink hs

theorem Keeps.putRx {s : State} {e : RxPkt} {f : Option RxPkt} (hs : Keeps s₀ s) :
    Keeps s₀ (putRx s e f) := by
  unfold Machine.putRx
  exact .upd hs

theorem Keeps.passOn {s : State} {e : RxPkt} {m : ℕ} {payload : List Byte} {eop : Bool} (hs : Keeps s₀ s) :
    Keeps s₀ (passOn s e m payload eop) := by
  unfold Machine.passOn
  exact .putLink hs

theorem Keeps.endRx {s : State} {e : RxPkt} {count : Option ℕ} (hs : Keeps s₀ s) :
    Keeps s₀ (endRx s e count) := by
  unfold Machine.endRx
  split
  · exact .putLink (.drawFree hs)
  · exact hs
  · split
    · exact .countDropped hs
    · exact hs

theorem Keeps.deliverRx {s : State} {e : RxPkt} (hs : Keeps s₀ s) :
    Keeps s₀ (deliverRx s e) := by
  unfold Machine.deliverRx
  exact .deliver hs

theorem Completes.execPacketRoute {h : Half} {s : State} (hs : Keeps s₀ s) :
    Completes s₀ (execPacketRoute h s) := by
  unfold Machine.execPacketRoute
  split
  · exact .next hs
  · extract_lets +onlyGivenNames s1 rest
    have hs1 : Keeps s₀ s1 := .freeCredits hs
    split
    · exact .next (.putRx (.ite (.deliverRx hs1) hs1))
    · exact .next (.putRx (.putLink hs))
    · exact .next (.putRx (.countDropped hs1))

theorem Keeps.flowRx {s : State} {e : RxPkt} {payload : List Byte} {eop : Bool} (hs : Keeps s₀ s) :
    Keeps s₀ (flowRx s e payload eop) := by
  unfold Machine.flowRx
  extract_lets +onlyGivenNames s1 grown rest
  have hs1 : Keeps s₀ s1 := .freeCredits hs
  split
  · exact .putRx hs
  · exact .putRx (.ite (.deliverRx hs1) hs1)
  · exact .putRx (.passOn hs)
  · exact .putRx hs1

theorem Keeps.abortRx {s : State} {e : RxPkt} {count : Option ℕ} {eop : Bool} (hs : Keeps s₀ s) :
    Keeps s₀ (abortRx s e count eop) := by
  unfold Machine.abortRx
  exact .putRx (.freeCredits (.endRx hs))

theorem Keeps.openSlot {s : State} {l : Link} (hs : Keeps s₀ s) :
    Keeps s₀ (openSlot s l).1 := by
  unfold Machine.openSlot
  exact .iteOn Prod.fst hs (.iteOn Prod.fst (.emit hs) hs)

theorem Keeps.sendFlit {s : State} {l : Link} {ftype flags seq : ℕ} {payload : List Byte} (hs : Keeps s₀ s) :
    Keeps s₀ (sendFlit s l ftype flags seq payload) := by
  unfold Machine.sendFlit
  exact .emit (.putLink hs)

theorem Keeps.sendControl {s : State} {l : Link} {c : LinkControl} (hs : Keeps s₀ s) :
    Keeps s₀ (sendControl s l c) := by
  unfold Machine.sendControl
  exact .emit (.sendFlit hs)

theorem Keeps.portEvent {s : State} {h : Half} {n : ℕ} (hs : Keeps s₀ s) :
    Keeps s₀ (portEvent s h n) := by
  unfold Machine.portEvent
  extract_lets +onlyGivenNames st cause s1
  have hs1 : Keeps s₀ s1 := .postEvent hs
  exact .ite (.injectPacket hs1) hs1

theorem Keeps.setPort {s : State} {h : Half} {n st cause : ℕ} (hs : Keeps s₀ s) :
    Keeps s₀ (setPort s h n st cause) := by
  unfold Machine.setPort
  extract_lets +onlyGivenNames old s1
  have hs1 : Keeps s₀ s1 := .wr (.wr hs)
  exact .ite (.portEvent hs1) hs1

theorem Keeps.portErr {s : State} {h : Half} {n bits : ℕ} (hs : Keeps s₀ s) :
    Keeps s₀ (portErr s h n bits) := by
  unfold Machine.portErr
  exact .raiseCause hs

theorem Keeps.freeSlots {s : State} {h : Half} {o : OutPkt} {n : ℕ} (hs : Keeps s₀ s) :
    Keeps s₀ (freeSlots s h o n) := by
  unfold Machine.freeSlots
  split
  · exact .ite hs (.freeCredits hs)
  · exact hs

theorem Keeps.forgetSlots {s : State} {h : Half} {n : ℕ} (hs : Keeps s₀ s) :
    Keeps s₀ (forgetSlots s h n) := by
  unfold Machine.forgetSlots
  exact .upd hs

theorem Keeps.clearPort {s : State} {h : Half} {n : ℕ} (hs : Keeps s₀ s) :
    Keeps s₀ (clearPort s h n) := by
  unfold Machine.clearPort
  extract_lets +onlyGivenNames partly outq whole s0 s1
  have hs1 : Keeps s₀ s1 := .forgetSlots (.foldl (.foldl hs (fun _ _ ht => .freeSlots ht)) (fun _ _ ht => .endRx ht))
  exact .putLink (.inc (.upd hs1))

theorem Keeps.portDown {s : State} {h : Half} {n cause : ℕ} (hs : Keeps s₀ s) :
    Keeps s₀ (portDown s h n cause) := by
  unfold Machine.portDown
  exact .portErr (.setPort (.wr (.wr (.wr (.clearPort hs)))))

theorem Keeps.portStatus {s : State} {h : Half} {n st : ℕ} (hs : Keeps s₀ s) :
    Keeps s₀ (portStatus s h n st) := by
  unfold Machine.portStatus
  exact .wr (.wr hs)

theorem Keeps.trainPort {s : State} {h : Half} {n : ℕ} (hs : Keeps s₀ s) :
    Keeps s₀ (trainPort s h n) := by
  unfold Machine.trainPort
  exact .ite hs (.ite (.portStatus hs) (.ite (.portStatus hs) (.ite (.portStatus hs) (.portStatus (.setPort (.wr (.wr (.wr (.putLink
      (.clearPort hs))))))))))

theorem Completes.execPortTrain {h : Half} {port : Fin 6} {s : State} (hs : Keeps s₀ s) :
    Completes s₀ (execPortTrain h port s) := by
  unfold Machine.execPortTrain
  exact .next (.trainPort hs)

theorem Keeps.adminDown {s : State} {h : Half} {n : ℕ} (hs : Keeps s₀ s) :
    Keeps s₀ (adminDown s h n) := by
  unfold Machine.adminDown
  exact .ite (.portStatus hs) (.ite (.portStatus hs) (.portStatus (.portDown (.ite hs (.sendControl (.openSlot hs))))))

theorem Completes.execPortAdminDown {h : Half} {port : Fin 6} {s : State} (hs : Keeps s₀ s) :
    Completes s₀ (execPortAdminDown h port s) := by
  unfold Machine.execPortAdminDown
  exact .next (.adminDown hs)

theorem Keeps.trainTo {s : State} {h : Half} {n step : ℕ} {f : State → State} (hs : Keeps s₀ s) (hf : ∀ u, Keeps s₀ u → Keeps s₀ (f u)) :
    Keeps s₀ (trainTo s h n step f) := by
  unfold Machine.trainTo
  exact .ite (hf _ (.putLink hs)) hs

theorem Completes.execPortPartnerDetect {h : Half} {port : Fin 6} {s : State} (hs : Keeps s₀ s) :
    Completes s₀ (execPortPartnerDetect h port s) := by
  unfold Machine.execPortPartnerDetect
  exact .next (.trainTo hs (fun _ ha => ha))

theorem Completes.execPortTrainTimeout {h : Half} {port : Fin 6} {s : State} (hs : Keeps s₀ s) :
    Completes s₀ (execPortTrainTimeout h port s) := by
  unfold Machine.execPortTrainTimeout
  exact .ite (.next (.portDown hs)) (.next hs)

theorem Keeps.trainLanes {s : State} {h : Half} {n step mask : ℕ} (hs : Keeps s₀ s) :
    Keeps s₀ (trainLanes s h n step mask) := by
  unfold Machine.trainLanes
  exact .ite (.portDown hs) (.trainTo hs (fun _ ht => .ite ht (.wr (.wr ht))))

theorem Completes.execPortPmdTrainDone {h : Half} {port : Fin 6} {lanes : ℕ} {s : State} (hs : Keeps s₀ s) :
    Completes s₀ (execPortPmdTrainDone h port lanes s) := by
  unfold Machine.execPortPmdTrainDone
  exact .next (.trainLanes hs)

theorem Completes.execPortFecLock {h : Half} {port : Fin 6} {lanes : ℕ} {s : State} (hs : Keeps s₀ s) :
    Completes s₀ (execPortFecLock h port lanes s) := by
  unfold Machine.execPortFecLock
  extract_lets +onlyGivenNames s1
  have hs1 : Keeps s₀ s1 := .trainLanes hs
  exact .ite (.next (.putLink hs1)) (.next hs1)

theorem Completes.execInitFlitReceive {h : Half} {port : Fin 6} {version node dir : ℕ} {sizes : List ℕ} {s : State} (hs : Keeps s₀ s) :
    Completes s₀ (execInitFlitReceive h port version node dir sizes s) := by
  unfold Machine.execInitFlitReceive
  extract_lets +onlyGivenNames n l
  refine .ite ?_ (.next hs)
  extract_lets +onlyGivenNames s1 s2
  have hs2 : Keeps s₀ s2 := .wr (.wr (.wr (.putLink hs)))
  exact .ite (.next (.setPort hs2)) (.next (.portErr (.setPort hs2)))

theorem Completes.execLaneFail {h : Half} {port : Fin 6} {lanes : ℕ} {both : Bool} {errors : Option ℕ} {s : State} (hs : Keeps s₀ s) :
    Completes s₀ (execLaneFail h port lanes both errors s) := by
  unfold Machine.execLaneFail
  extract_lets +onlyGivenNames n failed counts
  refine .ite (.next hs) ?_
  extract_lets +onlyGivenNames s1
  have hs1 : Keeps s₀ s1 := .portErr hs
  split
  · exact .next (.portDown hs1)
  · exact .ite (.next hs1) (.next (.wr (.putLink hs1)))

theorem Completes.execDegradeFlitReceive {h : Half} {port : Fin 6} {pair : ℕ} {s : State} (hs : Keeps s₀ s) :
    Completes s₀ (execDegradeFlitReceive h port pair s) := by
  unfold Machine.execDegradeFlitReceive
  exact .ite (.next (.wr (.putLink hs))) (.next hs)

theorem Completes.execLaneDegradeDone {h : Half} {port : Fin 6} {s : State} (hs : Keeps s₀ s) :
    Completes s₀ (execLaneDegradeDone h port s) := by
  unfold Machine.execLaneDegradeDone
  exact .ite (.next (.portErr (.setPort (.putLink hs)))) (.next hs)

theorem Completes.execDownNoticeReceive {h : Half} {port : Fin 6} {s : State} (hs : Keeps s₀ s) :
    Completes s₀ (execDownNoticeReceive h port s) := by
  unfold Machine.execDownNoticeReceive
  exact .ite (.next hs) (.next (.portDown hs))

theorem Keeps.noteRequest {s : State} {l : Link} {first : Bool} {body : List Byte} (hs : Keeps s₀ s) :
    Keeps s₀ (noteRequest s l first body) := by
  unfold Machine.noteRequest
  exact .ite (.wr hs) hs

theorem OnSome.sendData {s : State} {l : Link} (hs : Keeps s₀ s) :
    OnSome (Keeps s₀) (sendData s l) := by
  unfold Machine.sendData
  refine .ite .none ?_
  split
  · exact .none
  · split
    · exact .none
    · exact .some (.freeSlots (.sendFlit (.bump (.noteRequest hs))))

theorem Keeps.sendReplay {s : State} {l : Link} {i : ℕ} (hs : Keeps s₀ s) :
    Keeps s₀ (sendReplay s l i) := by
  unfold Machine.sendReplay
  split
  · exact .putLink hs
  · exact .sendFlit (.bump (.inc hs))

theorem Completes.execFlitSendSlot {h : Half} {port : Fin 6} {s : State} (hs : Keeps s₀ s) :
    Completes s₀ (execFlitSendSlot h port s) := by
  unfold Machine.execFlitSendSlot
  extract_lets +onlyGivenNames st l0 r idle
  have hr : Keeps s₀ r.1 := .openSlot hs
  have hidle : Keeps s₀ idle := by
    unfold idle
    split
    · exact .sendControl hr
    · exact .sendFlit hr
  refine .ite ?_ (.ite (.next hidle) (.next hs))
  split
  · exact .next (.sendReplay hr)
  · refine .ite (.next hidle) ?_
    split
    next t eht =>
      have ht : Keeps s₀ t := OnSome.get (.sendData hr) eht
      exact .next ht
    · exact .next hidle

theorem Keeps.takeHeader {s : State} {l : Link} {ack : ℕ} {nak : Bool} {cls count : ℕ} (hs : Keeps s₀ s) :
    Keeps s₀ (takeHeader s l ack nak cls count) := by
  unfold Machine.takeHeader
  exact .ite (.putLink hs) (.ite (.putLink hs) (.putLink (.inc hs)))

theorem Keeps.acceptData {s : State} {l : Link} {seq flags : ℕ} {payload : List Byte} {eccBad : Bool} (hs : Keeps s₀ s) :
    Keeps s₀ (acceptData s l seq flags payload eccBad) := by
  unfold Machine.acceptData
  extract_lets +onlyGivenNames cls eop s1 s2 cut dropped
  have hs1 : Keeps s₀ s1 := .putLink hs
  have hs2 : Keeps s₀ s2 := .ite (.countDropped hs1) hs1
  refine .ite ?_ ?_
  · extract_lets +onlyGivenNames s3
    have hs3 : Keeps s₀ s3 := by
      unfold s3
      split
      · exact .putRx (.freeCredits (.endRx hs2))
      · exact hs2
    exact .ite (.abortRx (.upd hs3)) (.upd hs3)
  · split
    · exact .ite (.abortRx hs2) (.flowRx hs2)
    · exact .freeCredits hs2

theorem Keeps.noteCodeword {s : State} {l : Link} {how : FlitArrival} (hs : Keeps s₀ s) :
    Keeps s₀ (noteCodeword s l how) := by
  unfold Machine.noteCodeword
  refine .ite hs ?_
  extract_lets +onlyGivenNames s1
  have hs1 : Keeps s₀ s1 := .putLink hs
  split
  · exact hs1
  · exact .inc hs1
  · exact .inc hs1

theorem Completes.execFlitReceive {h : Half} {port : Fin 6} {bytes : List Byte} {how : FlitArrival} {s : State} (hs : Keeps s₀ s) :
    Completes s₀ (execFlitReceive h port bytes how s) := by
  unfold Machine.execFlitReceive
  extract_lets +onlyGivenNames n
  refine .ite (.next hs) ?_
  extract_lets +onlyGivenNames s0 l
  have hs0 : Keeps s₀ s0 := .noteCodeword hs
  refine .ite (.next hs0) ?_
  refine .ite (.next (.portErr (.putLink (.inc hs0)))) ?_
  refine .ite (.next hs0) ?_
  extract_lets +onlyGivenNames ack s1
  have hs1 : Keeps s₀ s1 := .takeHeader hs0
  exact .ite (.ite (.next hs1) (.ite (.next (.acceptData hs1)) (.next (.putLink hs1)))) (.next hs1)

theorem Completes.execFabricReplayTimeout {h : Half} {port : Fin 6} {s : State} (hs : Keeps s₀ s) :
    Completes s₀ (execFabricReplayTimeout h port s) := by
  unfold Machine.execFabricReplayTimeout
  exact .ite (.next (.putLink hs)) (.next hs)

theorem Completes.execFabricReplayExhaust {h : Half} {port : Fin 6} {s : State} (hs : Keeps s₀ s) :
    Completes s₀ (execFabricReplayExhaust h port s) := by
  unfold Machine.execFabricReplayExhaust
  extract_lets +onlyGivenNames n l
  refine .ite ?_ (.next hs)
  extract_lets +onlyGivenNames run s1
  have hs1 : Keeps s₀ s1 := .portErr hs
  exact .ite (.next (.portDown hs1)) (.next (.putLink hs1))

theorem Completes.execFabricRelockDone {h : Half} {port : Fin 6} {s : State} (hs : Keeps s₀ s) :
    Completes s₀ (execFabricRelockDone h port s) := by
  unfold Machine.execFabricRelockDone
  exact .ite (.next (.putLink hs)) (.next hs)

theorem Keeps.fabStatus {s : State} {h : Half} {st : ℕ} (hs : Keeps s₀ s) :
    Keeps s₀ (fabStatus s h st) := by
  unfold Machine.fabStatus
  exact .wr hs

theorem Completes.execFabTopologyWrite {h : Half} {reg : Fin 3} {v : ℕ} {s : State} (hs : Keeps s₀ s) :
    Completes s₀ (execFabTopologyWrite h reg v s) := by
  unfold Machine.execFabTopologyWrite
  refine .ite (.next (.fabStatus hs)) ?_
  refine .ite (.next (.fabStatus hs)) ?_
  extract_lets +onlyGivenNames s1
  have hs1 : Keeps s₀ s1 := by
    unfold s1
    split
    · exact .wr (.wr (.wr hs))
    · exact .wr (.wr (.wr hs))
    · exact .wr hs
  exact .next (.fabStatus (.wr hs1))

theorem Completes.execFabBufWrite {h : Half} {k : Fin 4} {lo hi : ℕ} {s : State} (hs : Keeps s₀ s) :
    Completes s₀ (execFabBufWrite h k lo hi s) := by
  unfold Machine.execFabBufWrite
  exact .ite (.next hs) (.ite (.next (.fabStatus (.wr (.wr hs)))) (.next (.fabStatus hs)))

theorem Keeps.selectBank {s : State} {h : Half} {v : ℕ} (hs : Keeps s₀ s) :
    Keeps s₀ (selectBank s h v) := by
  unfold Machine.selectBank
  exact .fabStatus (.wr hs)

theorem Completes.execRtSelWrite {h : Half} {bank : ℕ} {s : State} (hs : Keeps s₀ s) :
    Completes s₀ (execRtSelWrite h bank s) := by
  unfold Machine.execRtSelWrite
  exact .next (.selectBank hs)

theorem Keeps.writeTable {s : State} {h : Half} {bank d v : ℕ} (hs : Keeps s₀ s) :
    Keeps s₀ (writeTable s h bank d v) := by
  unfold Machine.writeTable
  exact .ite (.fabStatus hs) (.ite (.fabStatus hs) (.fabStatus (.wr hs)))

theorem Completes.execRouteTableWrite {h : Half} {bank : Fin 2} {d : Fin 3} {v : ℕ} {s : State} (hs : Keeps s₀ s) :
    Completes s₀ (execRouteTableWrite h bank d v s) := by
  unfold Machine.execRouteTableWrite
  exact .next (.writeTable hs)

theorem Completes.execAutoRt {h : Half} {s : State} (hs : Keeps s₀ s) :
    Completes s₀ (execAutoRt h s) := by
  unfold Machine.execAutoRt
  exact .next (.fabStatus (.foldl hs (fun _ _ ht => .wr ht)))

/-! ### Machine/Colls.lean -/

theorem Keeps.putColl {s : State} {c : Coll} (hs : Keeps s₀ s) :
    Keeps s₀ (putColl s c) := by
  unfold Machine.putColl
  exact .upd hs

theorem Keeps.refreshColls {s : State} {h : Half} (hs : Keeps s₀ s) :
    Keeps s₀ (refreshColls s h) := by
  unfold Machine.refreshColls
  exact .wr (.wr hs)

theorem OnSome.takeSegment {s : State} {h : Half} (hs : Keeps s₀ s) :
    OnSome (Keeps s₀) (takeSegment s h) := by
  unfold Machine.takeSegment
  exact .takeGranules hs

theorem Keeps.endColl {s : State} {c : Coll} (hs : Keeps s₀ s) :
    Keeps s₀ (endColl s c) := by
  unfold Machine.endColl
  exact .refreshColls (.giveGranules (.upd hs))

theorem Keeps.countColl {s : State} {c : Coll} (hs : Keeps s₀ s) :
    Keeps s₀ (countColl s c) := by
  unfold Machine.countColl
  extract_lets +onlyGivenNames h fn s1
  have hs1 : Keeps s₀ s1 := .histSample hs
  exact .ite (.bump (.inc hs1)) (.bump (.inc hs1))

theorem Keeps.countSent {s : State} {h : Half} {n : ℕ} (hs : Keeps s₀ s) :
    Keeps s₀ (countSent s h n) := by
  unfold Machine.countSent
  exact .bump (.inc hs)

theorem Keeps.sendAborts {s : State} {h : Half} {x : Grp} {gid epoch cause origin : ℕ} {dests : List (ℕ × ℕ)} (hs : Keeps s₀ s) :
    Keeps s₀ (sendAborts s h x gid epoch cause origin dests) := by
  unfold Machine.sendAborts
  refine .foldl hs (fun _ _ ht => ?_)
  split
  · exact .injectPacket ht
  · exact ht

theorem Keeps.recordAbort {s : State} {h : Half} {g gid epoch cause origin localSt : ℕ} (hs : Keeps s₀ s) :
    Keeps s₀ (recordAbort s h g gid epoch cause origin localSt) := by
  unfold Machine.recordAbort
  exact .bump (.inc (.wr (.wr (.wr (.wr (.wr (.wr (.wr (.wr (.wr hs))))))))))

theorem Keeps.keepPending {s : State} {h : Half} {keep : Half × Packet → Bool} (hs : Keeps s₀ s) :
    Keeps s₀ (keepPending s h keep) := by
  unfold Machine.keepPending
  extract_lets +onlyGivenNames s1
  have hs1 : Keeps s₀ s1 := .upd hs
  exact .ite hs1 (.giveGranules hs1)

theorem Keeps.dropPending {s : State} {h : Half} {gid epoch : ℕ} (hs : Keeps s₀ s) :
    Keeps s₀ (dropPending s h gid epoch) := by
  unfold Machine.dropPending
  exact .keepPending hs

theorem Keeps.stopColl {s : State} {c : Coll} (hs : Keeps s₀ s) :
    Keeps s₀ (stopColl s c) := by
  unfold Machine.stopColl
  exact .mapChains (.dropPending (.endColl hs))

theorem Keeps.originateAbort {s : State} {c : Coll} {cause localSt : ℕ} (hs : Keeps s₀ s) :
    Keeps s₀ (originateAbort s c cause localSt) := by
  unfold Machine.originateAbort
  extract_lets +onlyGivenNames me s1
  have hs1 : Keeps s₀ s1 := .recordAbort hs
  exact .ite (.stopColl hs1) (.stopColl (.sendAborts (.upd hs1)))

theorem Keeps.failEngine {s : State} {d : Chain} {status : ℕ} (hs : Keeps s₀ s) :
    Keeps s₀ (failEngine s d status) := by
  unfold Machine.failEngine
  split
  · exact .originateAbort hs
  · exact .ite (.setChain hs) hs

theorem Keeps.receiveAbort {s : State} {h : Half} {p : Packet} (hs : Keeps s₀ s) :
    Keeps s₀ (receiveAbort s h p) := by
  unfold Machine.receiveAbort
  extract_lets +onlyGivenNames t gid epoch flags cause origin
  split
  · exact .inc hs
  · refine .ite (.inc hs) ?_
    refine .ite hs ?_
    extract_lets +onlyGivenNames x a s1 s2
    have hs2 : Keeps s₀ s2 := .sendAborts (.upd hs)
    split
    · exact .stopColl (.recordAbort hs2)
    · exact .ite (.dropPending (.recordAbort hs2)) hs2

/-! ### Machine/CollData.lean -/

theorem Keeps.collWBind {w : CollW} {f : CollW → CollW} (hw : Keeps s₀ w.s) (hf : ∀ u, Keeps s₀ u.s → Keeps s₀ (f u).s) :
    Keeps s₀ (CollW.bind w f).s := by
  unfold Machine.CollW.bind
  exact .iteOn CollW.s hw (hf _ hw)

theorem Keeps.collWAbort {w : CollW} {cause localSt : ℕ} (hw : Keeps s₀ w.s) :
    Keeps s₀ (CollW.abort w cause localSt).s := by
  unfold Machine.CollW.abort
  exact .iteOn CollW.s hw hw

theorem Keeps.collWTick {w : CollW} (hw : Keeps s₀ w.s) :
    Keeps s₀ (CollW.tick w).s := by
  unfold Machine.CollW.tick
  exact hw

theorem Keeps.collWSetSeg {w : CollW} {g : CollSeg} (hw : Keeps s₀ w.s) :
    Keeps s₀ (CollW.setSeg w g).s := by
  unfold Machine.CollW.setSeg
  exact hw

theorem Keeps.collWStore {w : CollW} {a : ℕ} {data : List Byte} (hw : Keeps s₀ w.s) :
    Keeps s₀ (CollW.store w a data).s := by
  unfold Machine.CollW.store
  refine .iteOn CollW.s hw ?_
  extract_lets +onlyGivenNames r
  have hr : Keeps s₀ r.2 := .writeAt hw
  exact .iteOn CollW.s hr (.collWAbort hr)

theorem Keeps.collWStoreSpan {w : CollW} {k off : ℕ} {vals : List ℕ} (hw : Keeps s₀ w.s) :
    Keeps s₀ (CollW.storeSpan w k off vals).s := by
  unfold Machine.CollW.storeSpan
  exact .iteOn CollW.s (.foldlOn CollW.s hw (fun _ _ hw' => .collWBind hw' (fun _ hw'' => .collWStore hw''))) (.collWStore hw)

theorem Keeps.collWLoad {w : CollW} {k : ℕ} (hw : Keeps s₀ w.s) :
    Keeps s₀ (CollW.load w k).1.s := by
  unfold Machine.CollW.load
  extract_lets +onlyGivenNames z eng get
  have hget : ∀ u v w, Keeps s₀ u.s → Keeps s₀ (get u v w).1.s := by
    intro _ _ _ hw'
    unfold get
    refine .iteOn (fun q : CollW × List ℕ => q.1.s) hw' ?_
    extract_lets +onlyGivenNames r
    have hr : Keeps s₀ r.2.1 := .readAt hw'
    exact .iteOn (fun q : CollW × List ℕ => q.1.s) hr (.collWAbort hr)
  exact .iteOn (fun q : CollW × List ℕ => q.1.s) (hget _ _ _ hw) (.iteOn (fun q : CollW × List ℕ => q.1.s) (.foldlOn
      (fun q : CollW × List ℕ => q.1.s) hw (fun _ _ hq => hget _ _ _ hq)) (.iteOn (fun q : CollW × List ℕ => q.1.s) (hget _ _ _ hw) (.iteOn
      (fun q : CollW × List ℕ => q.1.s) (hget _ _ _ hw) hw)))

theorem Keeps.collWConvert {w : CollW} {vals : List ℕ} (hw : Keeps s₀ w.s) :
    Keeps s₀ (CollW.convert w vals).1.s := by
  unfold Machine.CollW.convert
  exact .inc (.inc hw)

theorem Keeps.collWOwnPart {w : CollW} {g : CollSeg} (hw : Keeps s₀ w.s) :
    Keeps s₀ (CollW.ownPart w g).s := by
  unfold Machine.CollW.ownPart
  refine .iteOn CollW.s hw ?_
  refine .iteOn CollW.s (.iteOn CollW.s (.collWStoreSpan hw) hw) ?_
  extract_lets +onlyGivenNames sp mine q w1
  have hw1 : Keeps s₀ w1.s := .collWSetSeg (.iteOn (fun q : CollW × List ℕ => q.1.s) (.collWConvert hw) hw)
  exact .iteOn CollW.s (.collWStore hw1) (.collWStoreSpan hw1)

theorem Keeps.collWStartSeg {w : CollW} (hw : Keeps s₀ w.s) :
    Keeps s₀ (CollW.startSeg w).s := by
  unfold Machine.CollW.startSeg
  refine .iteOn CollW.s hw ?_
  extract_lets +onlyGivenNames need got
  have hgot : OnSome (fun q => Keeps s₀ q.1) got := .ite (.map (.takeSegment hw) (fun _ ht => ht)) (.some hw)
  clear_value got
  split
  · exact hw
  next p =>
    have hp : Keeps s₀ p.1 := OnSome.getFst hgot rfl
    exact .collWBind (.collWLoad (.putColl hp)) (fun _ hw' => .collWOwnPart hw')

theorem Keeps.collWFly {w : CollW} {u : CtsHeld} (hw : Keeps s₀ w.s) :
    Keeps s₀ (CollW.fly w u).s := by
  unfold Machine.CollW.fly
  exact .iteOn CollW.s (.foldl hw (fun _ _ ha => OnSome.getD (.joinUnit ha) ha)) hw

theorem Keeps.collWLanded {w : CollW} {t : CtsHeld} (hw : Keeps s₀ w.s) :
    Keeps s₀ (CollW.landed w t).s := by
  unfold Machine.CollW.landed
  split
  · exact .unitEnd hw
  · exact hw

theorem Keeps.collWInjectPkt {w : CollW} {p : Packet} (hw : Keeps s₀ w.s) :
    Keeps s₀ (CollW.injectPkt w p).s := by
  unfold Machine.CollW.injectPkt
  refine .collWBind hw (fun _ hw' => ?_)
  extract_lets +onlyGivenNames r
  have hr : Keeps s₀ r.2 := .injectPacket hw'
  exact .iteOn CollW.s (.collWTick hr) (.collWAbort hr)

theorem Keeps.collWInject {w : CollW} {dst ptype : ℕ} {tr payload : List Byte} (hw : Keeps s₀ w.s) :
    Keeps s₀ (CollW.inject w dst ptype tr payload).s := by
  unfold Machine.CollW.inject
  exact .collWInjectPkt hw

theorem Keeps.collWInjectData {w : CollW} {dst : ℕ} {tr payload : List Byte} (hw : Keeps s₀ w.s) :
    Keeps s₀ (CollW.injectData w dst tr payload).s := by
  unfold Machine.CollW.injectData
  exact .collWBind (.collWInject hw) (fun _ hw' => .countSent hw')

theorem Keeps.collWSendDone {w : CollW} {t : CtsHeld} (hw : Keeps s₀ w.s) :
    Keeps s₀ (CollW.sendDone w t).s := by
  unfold Machine.CollW.sendDone
  exact .collWLanded (.collWInject hw)

theorem Keeps.collWForwarded {w : CollW} {f : CtsHeld → Bool} (hw : Keeps s₀ w.s) :
    Keeps s₀ (CollW.forwarded w f).s := by
  unfold Machine.CollW.forwarded
  exact .foldlOn CollW.s hw (fun _ _ ha => .collWSendDone ha)

theorem Keeps.collWSendUnit {w : CollW} {node seg axis : ℕ} {gather : Bool} {step unit size fmt : ℕ} {b : List Byte} (hw : Keeps s₀ w.s) :
    Keeps s₀ (CollW.sendUnit w node seg axis gather step unit size fmt b).s := by
  unfold Machine.CollW.sendUnit
  exact .foldlOn CollW.s hw (fun _ _ hw' => .collWInjectData hw')

theorem Keeps.collWPumpTx {n : ℕ} {w : CollW} {k : ℕ} (hw : Keeps s₀ w.s) :
    Keeps s₀ (CollW.pumpTx n w k).s := by
  induction n generalizing w with
  | zero =>
    rw [Machine.CollW.pumpTx]
    exact hw
  | succ n ih =>
    rw [Machine.CollW.pumpTx]
    split
    · exact hw
    · split
      · exact hw
      · refine .iteOn CollW.s hw ?_
        extract_lets +onlyGivenNames q z sp data fmt w1 nx w2 u c2 w3
        have hw1 : Keeps s₀ w1.s := .collWSendUnit hw
        have hw2 : Keeps s₀ w2.s := .collWSetSeg hw1
        have hw3 : Keeps s₀ w3.s := .collWForwarded hw2
        exact ih hw3

theorem Keeps.collWPumpBcast {w : CollW} {g : CollSeg} (hw : Keeps s₀ w.s) :
    Keeps s₀ (CollW.pumpBcast w g).s := by
  unfold Machine.CollW.pumpBcast
  extract_lets +onlyGivenNames z w1
  have hw1 : Keeps s₀ w1.s := by
    unfold w1
    refine .foldlOn CollW.s hw (fun _ _ hw' => ?_)
    extract_lets +onlyGivenNames have_ came
    split
    · exact hw'
    · exact .iteOn CollW.s (.collWSendUnit hw') hw'
  exact .collWForwarded hw1

theorem Keeps.collWPutCounts {w : CollW} (hw : Keeps s₀ w.s) :
    Keeps s₀ (CollW.putCounts w).s := by
  unfold Machine.CollW.putCounts
  exact .iteOn CollW.s hw (.iteOn CollW.s (.collWAbort hw) (.collWStore hw))

theorem Keeps.collWSendCounts {w : CollW} {a step chunk : ℕ} (hw : Keeps s₀ w.s) :
    Keeps s₀ (CollW.sendCounts w a step chunk).s := by
  unfold Machine.CollW.sendCounts
  exact .collWInject hw

theorem Keeps.collWPumpCounts {n : ℕ} {w : CollW} (hw : Keeps s₀ w.s) :
    Keeps s₀ (CollW.pumpCounts n w).s := by
  induction n generalizing w with
  | zero =>
    rw [Machine.CollW.pumpCounts]
    exact hw
  | succ n ih =>
    rw [Machine.CollW.pumpCounts]
    exact .iteOn CollW.s hw (.iteOn CollW.s (ih (.collWSendCounts hw)) hw)

theorem Keeps.collWPump {n : ℕ} {w : CollW} (hw : Keeps s₀ w.s) :
    Keeps s₀ (CollW.pump n w).s := by
  induction n generalizing w with
  | zero =>
    rw [Machine.CollW.pump]
    exact hw
  | succ n ih =>
    rw [Machine.CollW.pump]
    have hc : Keeps s₀ (w.pumpCounts 3).s := .collWPumpCounts hw
    have hw1 : Keeps s₀ ((w.pumpCounts 3).bind CollW.putCounts).s := .collWBind hc fun _ ha => .collWPutCounts ha
    generalize (w.pumpCounts 3).bind CollW.putCounts = u at hw1 ⊢
    refine .iteOn CollW.s hw1 ?_
    extract_lets +onlyGivenNames w2 w3
    have hw3 : Keeps s₀ w3.s := .foldlOn CollW.s (.collWStartSeg (.collWStartSeg hw1))
      fun _ _ ha => .iteOn CollW.s (.collWPumpBcast ha) (.collWPumpTx ha)
    clear_value w3
    exact .iteOn CollW.s hw3 (ih hw3)

theorem Keeps.collWClose {w : CollW} (hw : Keeps s₀ w.s) :
    Keeps s₀ (CollW.close w) := by
  unfold Machine.CollW.close
  split
  · exact .originateAbort (.putColl hw)
  · extract_lets +onlyGivenNames s1
    have hs1 : Keeps s₀ s1 := .putColl hw
    exact .ite (.mapChains (.endColl (.countColl hs1))) hs1

theorem Keeps.collWork {s : State} {c : Coll} {d : Chain} (hs : Keeps s₀ s) :
    Keeps s₀ (collWork s c d).s := by
  unfold Machine.collWork
  exact hs

theorem Keeps.collGoOn {s : State} {c : Coll} {d : Chain} (hs : Keeps s₀ s) :
    Keeps s₀ (collGoOn s c d) := by
  unfold Machine.collGoOn
  exact .collWClose (.collWPump (.collWork hs))

theorem Keeps.collWConsume {w : CollW} {g : CollSeg} {sp : ℕ × ℕ} {data : List Byte} {src : ℕ} (hw : Keeps s₀ w.s) :
    Keeps s₀ (CollW.consume w g sp data src).s := by
  unfold Machine.CollW.consume
  extract_lets +onlyGivenNames q z v own nv nx g1 w1 w2 w3
  have hw1 : Keeps s₀ w1.s := .collWSetSeg hw
  have hw2 : Keeps s₀ w2.s := .iteOn CollW.s (.collWStoreSpan hw1) hw1
  have hw3 : Keeps s₀ w3.s := .iteOn CollW.s (.collWBind hw2 (fun _ hw' => .collWOwnPart hw')) hw2
  exact .iteOn CollW.s hw3 (.collWSendDone hw3)

theorem Keeps.collWRingData {w : CollW} {g : CollSeg} {p : Packet} (hw : Keeps s₀ w.s) :
    Keeps s₀ (CollW.ringData w g p).s := by
  unfold Machine.CollW.ringData
  extract_lets +onlyGivenNames t q z
  refine .iteOn CollW.s hw ?_
  extract_lets +onlyGivenNames sp off got
  split
  · exact .collWSetSeg hw
  · exact .collWConsume hw

theorem Keeps.collWBcastData {w : CollW} {g : CollSeg} {p : Packet} (hw : Keeps s₀ w.s) :
    Keeps s₀ (CollW.bcastData w g p).s := by
  unfold Machine.CollW.bcastData
  extract_lets +onlyGivenNames t z u a
  refine .iteOn CollW.s (.collWAbort hw) ?_
  refine .iteOn CollW.s hw ?_
  extract_lets +onlyGivenNames sp off got mine
  split
  · exact .collWSetSeg hw
  · exact .collWStoreSpan (.collWSetSeg hw)

theorem Keeps.collData {s : State} {c : Coll} {d : Chain} {p : Packet} (hs : Keeps s₀ s) :
    Keeps s₀ (collData s c d p) := by
  unfold Machine.collData
  extract_lets +onlyGivenNames w
  have hw : Keeps s₀ w.s := .collWork hs
  split
  · exact .putColl hs
  · exact .collWClose (.collWBind (.iteOn CollW.s (.collWBcastData hw) (.collWRingData hw)) (fun _ ha => .collWPump ha))

theorem Keeps.collWAskUnit {w : CollW} {g : CollSeg} (hw : Keeps s₀ w.s) :
    Keeps s₀ (CollW.askUnit w g).s := by
  unfold Machine.CollW.askUnit
  exact .iteOn CollW.s (.iteOn CollW.s hw (.collWFly (.collWBind (.foldlOn CollW.s hw (fun _ _ hw' => .collWInject hw'))
      (fun _ hw' => .collWSetSeg hw')))) (.iteOn CollW.s hw (.collWFly (.collWBind (.collWInject hw) (fun _ hw' => .collWSetSeg hw'))))

theorem Keeps.collWSendCts {w : CollW} {g : CollSeg} (hw : Keeps s₀ w.s) :
    Keeps s₀ (CollW.sendCts w g).s := by
  unfold Machine.CollW.sendCts
  exact .iteOn CollW.s (.waitGranules hw) (.collWAskUnit hw)

theorem Keeps.collWTakeCts {w : CollW} {p : Packet} (hw : Keeps s₀ w.s) :
    Keeps s₀ (CollW.takeCts w p).s := by
  unfold Machine.CollW.takeCts
  extract_lets +onlyGivenNames t a gather u k step
  refine .iteOn CollW.s (.collWAbort hw) ?_
  extract_lets +onlyGivenNames ph z
  split
  · exact .collWSendUnit hw
  · exact hw

theorem Keeps.collWTakeDone {w : CollW} {p : Packet} (hw : Keeps s₀ w.s) :
    Keeps s₀ (CollW.takeDone w p).s := by
  unfold Machine.CollW.takeDone
  exact .iteOn CollW.s hw hw

theorem Keeps.collWTakeCounts {w : CollW} {p : Packet} (hw : Keeps s₀ w.s) :
    Keeps s₀ (CollW.takeCounts w p).s := by
  unfold Machine.CollW.takeCounts
  exact .iteOn CollW.s (.collWSendCounts hw) hw

theorem Keeps.collWSendNotch {w : CollW} {kind a dir sidx origin : ℕ} {vals : List ℕ} (hw : Keeps s₀ w.s) :
    Keeps s₀ (CollW.sendNotch w kind a dir sidx origin vals).s := by
  unfold Machine.CollW.sendNotch
  split
  · exact hw
  · exact .collWInjectPkt hw

theorem Keeps.collWNotchEnd {w : CollW} {vals : List ℕ} (hw : Keeps s₀ w.s) :
    Keeps s₀ (CollW.notchEnd w vals).s := by
  unfold Machine.CollW.notchEnd
  exact .collWBind (.collWStore (.collWConvert hw)) (fun _ hw' => .mapChains (.endColl (.countColl (.wr hw'))))

theorem Keeps.collWNotchBegin {w : CollW} {vals : List ℕ} (hw : Keeps s₀ w.s) :
    Keeps s₀ (CollW.notchBegin w vals).s := by
  unfold Machine.CollW.notchBegin
  exact .iteOn CollW.s hw (.collWSendNotch (.collWSendNotch hw))

theorem Keeps.collWNotchGo {n : ℕ} {w : CollW} {vals : List ℕ} (hw : Keeps s₀ w.s) :
    Keeps s₀ (CollW.notchGo n w vals).s := by
  induction n generalizing w vals with
  | zero =>
    rw [Machine.CollW.notchGo]
    exact hw
  | succ n ih =>
    rw [Machine.CollW.notchGo]
    refine .iteOn CollW.s (.collWNotchEnd hw) ?_
    split
    · exact hw
    · exact .collWBind (.collWNotchBegin hw) (fun _ hw' => ih hw')

theorem Keeps.collWNotchSpread {w : CollW} {came : Option (ℕ × ℕ)} {origin : ℕ} {vals : List ℕ} (hw : Keeps s₀ w.s) :
    Keeps s₀ (CollW.notchSpread w came origin vals).s := by
  unfold Machine.CollW.notchSpread
  exact .foldlOn CollW.s hw (fun _ _ hw' => .iteOn CollW.s (.collWSendNotch hw') hw')

theorem Keeps.collWNotchStart {w : CollW} (hw : Keeps s₀ w.s) :
    Keeps s₀ (CollW.notchStart w).s := by
  unfold Machine.CollW.notchStart
  extract_lets +onlyGivenNames n z
  refine .iteOn CollW.s hw ?_
  extract_lets +onlyGivenNames r
  have hr : Keeps s₀ r.2.1 := .readAt hw
  exact .iteOn CollW.s (.collWAbort hr) (.iteOn CollW.s (.collWNotchSpread hr) (.collWBind (.collWNotchBegin hr)
      (fun _ hw' => .collWNotchGo hw')))

theorem Keeps.collWRootEnd {w : CollW} (hw : Keeps s₀ w.s) :
    Keeps s₀ (CollW.rootEnd w).s := by
  unfold Machine.CollW.rootEnd
  split
  · exact .iteOn CollW.s (.collWNotchEnd hw) hw
  · exact hw

theorem Keeps.collWTakeValue {w : CollW} {p : Packet} (hw : Keeps s₀ w.s) :
    Keeps s₀ (CollW.takeValue w p).s := by
  unfold Machine.CollW.takeValue
  exact .iteOn CollW.s (.collWAbort hw) (.iteOn CollW.s hw (.collWBind (.collWSendNotch hw) (fun _ hw' => .collWNotchGo hw')))

theorem Keeps.collWTakeBcast {w : CollW} {p : Packet} (hw : Keeps s₀ w.s) :
    Keeps s₀ (CollW.takeBcast w p).s := by
  unfold Machine.CollW.takeBcast
  exact .iteOn CollW.s (.collWAbort hw) (.collWBind (.collWNotchSpread hw) (fun _ hw' => .collWNotchEnd hw'))

theorem Keeps.collWCloseNotch {w : CollW} (hw : Keeps s₀ w.s) :
    Keeps s₀ (CollW.closeNotch w) := by
  unfold Machine.CollW.closeNotch
  split
  · exact .originateAbort (.putColl hw)
  · exact .putColl hw

/-! ### Machine/Coolant.lean -/

theorem Keeps.pwmShadow {s : State} {h : Half} {n : ℕ} {r : PwmReg} {v : ℕ} (hs : Keeps s₀ s) :
    Keeps s₀ (pwmShadow s h n r v) := by
  unfold Machine.pwmShadow
  extract_lets +onlyGivenNames s1
  have hs1 : Keeps s₀ s1 := by
    unfold s1
    split
    · exact .wr hs
    · exact .wr hs
  exact .ite (.raiseCause (.wr (.wr (.wr hs1)))) hs1

theorem Keeps.pwmArm {s : State} {h : Half} {n : ℕ} (hs : Keeps s₀ s) :
    Keeps s₀ (pwmArm s h n) := by
  unfold Machine.pwmArm
  exact .ite hs (.ite (.wr (.wr (.wr hs))) (.wr hs))

theorem Keeps.pwmTransfer {s : State} {h : Half} {n : ℕ} (hs : Keeps s₀ s) :
    Keeps s₀ (pwmTransfer s h n) := by
  unfold Machine.pwmTransfer
  exact .wr (.wr (.wr (.wr hs)))

theorem Keeps.pwmStart {s : State} {h : Half} {n : ℕ} (hs : Keeps s₀ s) :
    Keeps s₀ (pwmStart s h n) := by
  unfold Machine.pwmStart
  exact .ite (.wr (.wr (.wr (.pwmTransfer hs)))) (.wr hs)

theorem Keeps.pwmDrive {s : State} {h : Half} {n : ℕ} (hs : Keeps s₀ s) :
    Keeps s₀ (pwmDrive s h n) := by
  unfold Machine.pwmDrive
  exact .ite (.drivePin hs) hs

theorem Keeps.loopDuty {s : State} {h : Half} {n pct : ℕ} (hs : Keeps s₀ s) :
    Keeps s₀ (loopDuty s h n pct) := by
  unfold Machine.loopDuty
  exact .pwmArm (.pwmShadow hs)

theorem Keeps.loopDuties {s : State} {h : Half} {pump valve : ℕ} (hs : Keeps s₀ s) :
    Keeps s₀ (loopDuties s h pump valve) := by
  unfold Machine.loopDuties
  exact .wr (.wr (.loopDuty (.loopDuty hs)))

theorem Keeps.platStatus {s : State} {h : Half} {status : ℕ} (hs : Keeps s₀ s) :
    Keeps s₀ (platStatus s h status) := by
  unfold Machine.platStatus
  exact .wr hs

theorem Keeps.platEvents {s : State} {h : Half} {status mt : ℕ} (hs : Keeps s₀ s) :
    Keeps s₀ (platEvents s h status mt) := by
  unfold Machine.platEvents
  exact .foldl (.foldl hs (fun _ _ hu => .postEvent hu)) (fun _ _ hu => .postEvent hu)

theorem Keeps.dispatchStop {s : State} {h : Half} (hs : Keeps s₀ s) :
    Keeps s₀ (dispatchStop s h) := by
  unfold Machine.dispatchStop
  exact .wr (.wr hs)

theorem Keeps.dispatchResume {s : State} {h : Half} (hs : Keeps s₀ s) :
    Keeps s₀ (dispatchResume s h) := by
  unfold Machine.dispatchResume
  exact .ite (.wr (.upd hs)) hs

theorem Keeps.platNotice {s : State} {h : Half} {target at_ acc : ℕ} (hs : Keeps s₀ s) :
    Keeps s₀ (platNotice s h target at_ acc) := by
  unfold Machine.platNotice
  exact .wr (.wr (.wr (.wr hs)))

theorem Keeps.platForget {s : State} {h : Half} (hs : Keeps s₀ s) :
    Keeps s₀ (platForget s h) := by
  unfold Machine.platForget
  extract_lets +onlyGivenNames s1
  have hs1 : Keeps s₀ s1 := .wr (.wr hs)
  exact .ite (.dispatchResume hs1) hs1

theorem Keeps.platAccept {s : State} {h : Half} {target noticeNs : ℕ} {byLoop : Bool} (hs : Keeps s₀ s) :
    Keeps s₀ (platAccept s h target noticeNs byLoop) := by
  unfold Machine.platAccept
  extract_lets +onlyGivenNames at_ s1 s2
  have hs2 : Keeps s₀ s2 := .platNotice (.wr (.wr (.wr (.wr hs))))
  exact .platEvents (.raiseCause (.platStatus (.ite (.emit (.platNotice hs2)) hs2)))

theorem Keeps.platWithdraw {s : State} {h : Half} (hs : Keeps s₀ s) :
    Keeps s₀ (platWithdraw s h) := by
  unfold Machine.platWithdraw
  refine .ite ?_ hs
  extract_lets +onlyGivenNames s1 s2 s3
  have hs3 : Keeps s₀ s3 := .platForget (.wr (.wr (.wr (.platEvents (.raiseCause hs)))))
  exact .ite (.platForget hs3) hs3

theorem Completes.execPlatRequest {h : Half} {noticeMs target : ℕ} {s : State} (hs : Keeps s₀ s) :
    Completes s₀ (execPlatRequest h noticeMs target s) := by
  unfold Machine.execPlatRequest
  refine .ite ?_ (.next hs)
  extract_lets +onlyGivenNames s1
  have hs1 : Keeps s₀ s1 := .ite hs (.wr (.wr hs))
  split
  · exact .next (.platStatus hs1)
  · exact .next (.platAccept hs1)

theorem Completes.execPlatCancel {h : Half} {s : State} (hs : Keeps s₀ s) :
    Completes s₀ (execPlatCancel h s) := by
  unfold Machine.execPlatCancel
  exact .ite (.ite (.next (.platStatus (.platWithdraw hs))) (.next (.platStatus hs))) (.next hs)

theorem Completes.execPlatPllLocked {die : Fin 8} {s : State} (hs : Keeps s₀ s) :
    Completes s₀ (execPlatPllLocked die s) := by
  unfold Machine.execPlatPllLocked
  exact .ite (.next (.wr hs)) (.next hs)

theorem Completes.execPlatPllTimeout {s : State} (hs : Keeps s₀ s) :
    Completes s₀ (execPlatPllTimeout s) := by
  unfold Machine.execPlatPllTimeout
  extract_lets +onlyGivenNames h s1
  have hs1 : Keeps s₀ s1 := .ite (.platStatus (.platWithdraw hs)) hs
  exact .next (.ite (.platForget hs1) hs1)

theorem Completes.execPlatSwitchTime {s : State} (hs : Keeps s₀ s) :
    Completes s₀ (execPlatSwitchTime s) := by
  unfold Machine.execPlatSwitchTime
  exact .next (.ite (.dispatchStop (.ite (.dispatchStop hs) hs)) (.ite (.dispatchStop hs) hs))

theorem Keeps.platSwitch {s : State} {h : Half} (hs : Keeps s₀ s) :
    Keeps s₀ (platSwitch s h) := by
  unfold Machine.platSwitch
  extract_lets +onlyGivenNames t s1
  have hs1 : Keeps s₀ s1 := .dispatchResume (.wr (.wr hs))
  exact .ite (.raiseCause (.wr (.bump (.ledger (.wr (.wr (.wr hs1))))))) hs1

theorem Completes.execPlatDrainDone {s : State} (hs : Keeps s₀ s) :
    Completes s₀ (execPlatDrainDone s) := by
  unfold Machine.execPlatDrainDone
  extract_lets +onlyGivenNames go s1
  have hs1 : Keeps s₀ s1 := .ite (.platSwitch hs) hs
  exact .next (.ite (.platSwitch hs1) hs1)

theorem Keeps.platStepDown {s : State} {h : Half} (hs : Keeps s₀ s) :
    Keeps s₀ (platStepDown s h) := by
  unfold Machine.platStepDown
  exact .wr (.wr (.platAccept hs))

theorem Keeps.platLoopRequest {s : State} {h : Half} (hs : Keeps s₀ s) :
    Keeps s₀ (platLoopRequest s h) := by
  unfold Machine.platLoopRequest
  exact .ite hs (.ite (.ite (.platStepDown (.platWithdraw hs)) (.wr hs)) (.platStepDown hs))

theorem Keeps.thermStatus {s : State} {h : Half} {status : ℕ} (hs : Keeps s₀ s) :
    Keeps s₀ (thermStatus s h status) := by
  unfold Machine.thermStatus
  exact .wr hs

theorem Keeps.lowlandCause {s : State} {bits : ℕ} (hs : Keeps s₀ s) :
    Keeps s₀ (lowlandCause s bits) := by
  unfold Machine.lowlandCause
  exact .wr (.wr hs)

theorem Keeps.thermFail {s : State} {h : Half} {crit : Bool} (hs : Keeps s₀ s) :
    Keeps s₀ (thermFail s h crit) := by
  unfold Machine.thermFail
  extract_lets +onlyGivenNames s1 k s2
  have hs2 : Keeps s₀ s2 := .platWithdraw (.raiseCause (.loopDuties (.wr hs)))
  exact .lowlandCause (.ite (.fuseEvent hs2) (.inc hs2))

theorem Keeps.flowMeterOn {s : State} {h : Half} (hs : Keeps s₀ s) :
    Keeps s₀ (flowMeterOn s h) := by
  unfold Machine.flowMeterOn
  exact .ite (.wr hs) hs

theorem Keeps.thermPrime {s : State} {h : Half} (hs : Keeps s₀ s) :
    Keeps s₀ (thermPrime s h) := by
  unfold Machine.thermPrime
  extract_lets +onlyGivenNames s1 s2
  have hs1 : Keeps s₀ s1 := .loopDuties (.wr hs)
  have hs2 : Keeps s₀ s2 := .ite hs1 (.pwmStart hs1)
  exact .flowMeterOn (.wr (.wr (.wr (.wr (.wr (.wr (.pwmDrive (.pwmDrive (.ite hs2 (.pwmStart hs2))))))))))

theorem Keeps.bumpless {s : State} {h : Half} (hs : Keeps s₀ s) :
    Keeps s₀ (bumpless s h) := by
  unfold Machine.bumpless
  exact .wr (.wr (.wr hs))

theorem Keeps.thermRun {s : State} {h : Half} (hs : Keeps s₀ s) :
    Keeps s₀ (thermRun s h) := by
  unfold Machine.thermRun
  exact .wr (.wr (.wr (.wr (.wr (.bumpless hs)))))

theorem Completes.execThermStart {h : Half} {s : State} (hs : Keeps s₀ s) :
    Completes s₀ (execThermStart h s) := by
  unfold Machine.execThermStart
  exact .ite (.ite (.next (.thermStatus (.thermPrime hs))) (.next (.thermStatus hs))) (.next hs)

theorem Keeps.loopSense {s : State} {h : Half} {tIn tOut : Option ℕ} {tj : ℕ} (hs : Keeps s₀ s) :
    Keeps s₀ (loopSense s h tIn tOut tj) := by
  unfold Machine.loopSense
  extract_lets +onlyGivenNames s1 s2 s3
  have hs1 : Keeps s₀ s1 := by
    unfold s1
    split
    · exact .wr hs
    · exact hs
  have hs2 : Keeps s₀ s2 := by
    unfold s2
    split
    · exact .wr (.wr (.wr hs1))
    · exact .wr (.inc hs1)
  have hs3 : Keeps s₀ s3 := .wr hs2
  exact .ite (.raiseCause hs3) hs3

theorem Keeps.loopTjWarn {s : State} {h : Half} (hs : Keeps s₀ s) :
    Keeps s₀ (loopTjWarn s h) := by
  unfold Machine.loopTjWarn
  extract_lets +onlyGivenNames hot s1
  have hs1 : Keeps s₀ s1 := .wr hs
  exact .ite (.raiseCause hs1) hs1

theorem Keeps.loopFb {s : State} {h : Half} (hs : Keeps s₀ s) :
    Keeps s₀ (loopFb s h) := by
  unfold Machine.loopFb
  extract_lets +onlyGivenNames b s1
  have hs1 : Keeps s₀ s1 := .wr hs
  exact .ite (.raiseCause hs1) hs1

theorem Keeps.controlLaw {s : State} {h : Half} (hs : Keeps s₀ s) :
    Keeps s₀ (controlLaw s h) := by
  unfold Machine.controlLaw
  extract_lets +onlyGivenNames integ forced d vp slew valve pump s1
  have hs1 : Keeps s₀ s1 := .wr (.wr (.wr hs))
  exact .loopDuties (.ite (.bump hs1) hs1)

theorem Keeps.loopRuns {s : State} {h : Half} {d : ℕ} (hs : Keeps s₀ s) :
    Keeps s₀ (loopRuns s h d) := by
  unfold Machine.loopRuns
  extract_lets +onlyGivenNames hot s1
  have hs1 : Keeps s₀ s1 := .ite (.inc hs) (.wr hs)
  exact .ite (.inc hs1) (.wr hs1)

theorem Keeps.loopRetry {s : State} {h : Half} (hs : Keeps s₀ s) :
    Keeps s₀ (loopRetry s h) := by
  unfold Machine.loopRetry
  exact .ite (.ite (.platLoopRequest hs) (.wr hs)) hs

theorem Keeps.loopActive {s : State} {h : Half} (hs : Keeps s₀ s) :
    Keeps s₀ (loopActive s h) := by
  unfold Machine.loopActive
  extract_lets +onlyGivenNames run s1 s2 s3 s4
  have hs1 : Keeps s₀ s1 := .loopTjWarn hs
  have hs3 : Keeps s₀ s3 := .loopRuns (.ite (.controlLaw (.loopFb hs1)) (.wr hs1))
  have hs4 : Keeps s₀ s4 := .ite (.loopRetry hs3) hs3
  exact .ite (.thermFail hs4) (.ite (.thermFail hs4) hs4)

theorem Keeps.loopNotes {s : State} {h : Half} (hs : Keeps s₀ s) :
    Keeps s₀ (loopNotes s h) := by
  unfold Machine.loopNotes
  exact .wr (.wr (.histSample (.histSample hs)))

theorem Completes.execThermLoopPeriod {tIn tOut : Option ℕ} {tj : ℕ} {s : State} (hs : Keeps s₀ s) :
    Completes s₀ (execThermLoopPeriod tIn tOut tj s) := by
  unfold Machine.execThermLoopPeriod
  split
  · exact .ite (.next hs) (.ite (.next (.loopTjWarn (.loopNotes (.loopSense hs)))) (.next (.loopActive (.loopNotes (.loopSense hs)))))
  · exact .next hs

theorem Completes.execThermFailHoldExpire {s : State} (hs : Keeps s₀ s) :
    Completes s₀ (execThermFailHoldExpire s) := by
  unfold Machine.execThermFailHoldExpire
  exact .ite (.next (.thermFail hs)) (.next hs)

theorem Completes.execThermSensLossExpire {s : State} (hs : Keeps s₀ s) :
    Completes s₀ (execThermSensLossExpire s) := by
  unfold Machine.execThermSensLossExpire
  exact .ite (.next (.thermFail hs)) (.next hs)

theorem Completes.execThermAutoDownExpire {s : State} (hs : Keeps s₀ s) :
    Completes s₀ (execThermAutoDownExpire s) := by
  unfold Machine.execThermAutoDownExpire
  exact .ite (.next (.platLoopRequest hs)) (.next hs)

theorem Keeps.thermStore {s : State} {h : Half} {reg : ThermReg} {v : ℕ} (hs : Keeps s₀ s) :
    Keeps s₀ (thermStore s h reg v) := by
  unfold Machine.thermStore
  exact .foldl hs (fun _ _ ht => .ite ht (.wr ht))

theorem Completes.execThermConfigWrite {h : Half} {reg : ThermReg} {v : ℕ} {s : State} (hs : Keeps s₀ s) :
    Completes s₀ (execThermConfigWrite h reg v s) := by
  unfold Machine.execThermConfigWrite
  exact .ite (.ite (.next (.thermStatus (.thermStore hs))) (.next (.thermStatus hs))) (.next hs)

/-! ### Machine/Service.lean -/

theorem Keeps.serviceUpdate {s : State} (hs : Keeps s₀ s) :
    Keeps s₀ (serviceUpdate s) := by
  unfold Machine.serviceUpdate
  extract_lets +onlyGivenNames c0 c1 s1 s2 s3
  have hs3 : Keeps s₀ s3 := .wr (.wr (.wr (.wr (.wr hs))))
  exact .ite (.lowlandCause hs3) hs3

/-! ### Machine/Ladder.lean -/

theorem Keeps.settleChain {s : State} {readNo : ℕ} (hs : Keeps s₀ s) :
    Keeps s₀ (settleChain s readNo) := by
  unfold Machine.settleChain
  refine .ite hs ?_
  split
  · exact .ite hs (.originateAbort hs)
  · exact .mapChains hs

theorem Keeps.endContext {s : State} {x : Context} (hs : Keeps s₀ s) :
    Keeps s₀ (endContext s x) := by
  unfold Machine.endContext
  split
  · exact hs
  · exact .ite (.settleChain (.standAgain hs)) (.settleChain (.dropCtx hs))

theorem Keeps.dropTransfers {s : State} {h : Half} {p : Transfer → Bool} (hs : Keeps s₀ s) :
    Keeps s₀ (dropTransfers s h p) := by
  unfold Machine.dropTransfers
  refine .foldl hs (fun _ _ ht => ?_)
  split
  · exact .endDiscarded ht
  · exact .dropTransfer (.ite (.freeValleyPage (.setEntry ht)) (.freeSlot (.setEntry ht)))

theorem Keeps.dropPartyContexts {s : State} {h : Half} {fn : ℕ} (hs : Keeps s₀ s) :
    Keeps s₀ (dropPartyContexts s h fn) := by
  unfold Machine.dropPartyContexts
  exact .dropCtxs (.foldl hs (fun _ _ ht => .wr ht))

theorem Keeps.abortParty {s : State} {h : Half} {fn localSt : ℕ} (hs : Keeps s₀ s) :
    Keeps s₀ (abortParty s h fn localSt) := by
  unfold Machine.abortParty
  exact .foldl hs (fun _ _ ht => .originateAbort ht)

theorem Keeps.partitionStep {s : State} {h : Half} {p type detail : ℕ} {esc : Bool} (hs : Keeps s₀ s) :
    Keeps s₀ (partitionStep s h p type detail esc) := by
  unfold Machine.partitionStep
  exact .endPartStep (.faultRecord (.closeRequests (.dropTransfers (.abortParty (.dropPartyContexts (.mapChains (.foldl (.foldl (.wr
      (.wr hs)) (fun _ _ ht => .cancelUnadmitted ht)) (fun _ _ ht => .ite (.ringStop ht) ht))))))))

theorem Keeps.countStorm {s : State} {h : Half} {p : ℕ} (hs : Keeps s₀ s) :
    Keeps s₀ (countStorm s h p) := by
  unfold Machine.countStorm
  extract_lets +onlyGivenNames w n s1
  have hs1 : Keeps s₀ s1 := .wr (.wr hs)
  exact .ite (.partitionStep (.wr hs1)) hs1

theorem Keeps.tellChain {s : State} {x : Context} {status : ℕ} (hs : Keeps s₀ s) :
    Keeps s₀ (tellChain s x status) := by
  unfold Machine.tellChain
  split
  · exact hs
  · exact .mapChains hs

theorem Keeps.contextStep {s : State} {x : Context} {status type addr detail : ℕ} (hs : Keeps s₀ s) :
    Keeps s₀ (contextStep s x status type addr detail) := by
  unfold Machine.contextStep
  extract_lets +onlyGivenNames h fn rec_ s1 s2 s3 s4 s5
  have hs2 : Keeps s₀ s2 := .raiseCause (.inc (.faultRecord (.setSlot hs)))
  have hs4 : Keeps s₀ s4 := .dropCtx (.tellChain (.ite (.wr hs2) hs2))
  have hs5 : Keeps s₀ s5 := by
    unfold s5
    split
    · exact .settleChain hs4
    · exact hs4
  exact .ite hs5 (.countStorm (.bump hs5))

theorem Keeps.passDownChain {s : State} {readNo : ℕ} (hs : Keeps s₀ s) :
    Keeps s₀ (passDownChain s readNo) := by
  unfold Machine.passDownChain
  exact .foldl (.dropCtxs (.mapChains hs)) (fun _ _ ha => .endContext ha)

theorem Keeps.attnErr {s : State} {x : Context} {status : ℕ} (hs : Keeps s₀ s) :
    Keeps s₀ (attnErr s x status) := by
  unfold Machine.attnErr
  exact .wr (.wr hs)

theorem Keeps.noteAttn {s : State} {x : Context} {status : ℕ} (hs : Keeps s₀ s) :
    Keeps s₀ (noteAttn s x status) := by
  unfold Machine.noteAttn
  split
  · exact .ite (.attnErr hs) hs
  · exact hs

theorem Keeps.ctxAccessFail {s0 : State} {x : Context} {write : Bool} {status a len : ℕ} (hs0 : Keeps s₀ s0) :
    Keeps s₀ (ctxAccessFail s0 x write status a len) := by
  unfold Machine.ctxAccessFail
  extract_lets +onlyGivenNames s
  have hs : Keeps s₀ s := .noteAttn hs0
  refine .ite ?_ (.contextStep hs)
  split
  · exact .passDownChain hs
  · exact hs

theorem Keeps.resetContexts {s : State} {status : ℕ} {again : Bool} {p : Context → Bool} (hs : Keeps s₀ s) :
    Keeps s₀ (resetContexts s status again p) := by
  unfold Machine.resetContexts
  exact .foldl (.foldl (.foldl (.dropCtxs (.mapChains hs)) (fun _ _ ht => .wr ht)) (fun _ _ ha => .endContext ha)) (fun _ _
      ha => .settleChain ha)

theorem Keeps.dropCopies {s : State} {h : Half} (hs : Keeps s₀ s) :
    Keeps s₀ (dropCopies s h) := by
  unfold Machine.dropCopies
  extract_lets +onlyGivenNames k s1
  have hs1 : Keeps s₀ s1 := .upd hs
  exact .ite hs1 (.giveGranules hs1)

theorem Keeps.endChains {s : State} {h : Half} {p : Chain → Bool} (hs : Keeps s₀ s) :
    Keeps s₀ (endChains s h p) := by
  unfold Machine.endChains
  exact .mapChains hs

theorem Keeps.resetChains {s : State} {nos : List ℕ} (hs : Keeps s₀ s) :
    Keeps s₀ (resetChains s nos) := by
  unfold Machine.resetChains
  exact .foldl (.foldl (.mapChains hs) (fun _ _ ha => .endContext ha)) (fun _ _ ha => .settleChain ha)

theorem Keeps.endInFlight {s : State} {h : Half} {code : ℕ} (hs : Keeps s₀ s) :
    Keeps s₀ (endInFlight s h code) := by
  unfold Machine.endInFlight
  split
  · exact .endChains hs
  · exact hs

theorem Keeps.engineReset {s : State} {h : Half} {code : ℕ} (hs : Keeps s₀ s) :
    Keeps s₀ (engineReset s h code) := by
  unfold Machine.engineReset
  exact .ite (.resetContexts hs) (.ite (.foldl hs (fun _ _ ht => .originateAbort ht)) (.ite (.dropCopies hs) (.ite (.foldl (.resetChains
      (.dropTransfers (.endChains hs))) (fun _ _ ht => .ite (.wr ht) ht)) (.ite (.endInFlight hs) hs))))

theorem Keeps.engineStep {s : State} {h : Half} {code type detail : ℕ} {esc : Bool} (hs : Keeps s₀ s) :
    Keeps s₀ (engineStep s h code type detail esc) := by
  unfold Machine.engineStep
  exact .raiseCause (.inc (.faultRecord (.engineReset hs)))

theorem Keeps.reportLost {s : State} {h : Half} {type detail : ℕ} (hs : Keeps s₀ s) :
    Keeps s₀ (reportLost s h type detail) := by
  unfold Machine.reportLost
  exact .serviceUpdate (.raiseCause (.faultRecord hs))

theorem Keeps.loseCore {s : State} {h : Half} {core : ℕ} (hs : Keeps s₀ s) :
    Keeps s₀ (loseCore s h core) := by
  unfold Machine.loseCore
  exact .reportLost (.wr (.resetContexts hs))

theorem Keeps.dieOff {s : State} {die : ℕ} (hs : Keeps s₀ s) :
    Keeps s₀ (dieOff s die) := by
  unfold Machine.dieOff
  exact .ite (.wr (.emit (.wr (.upd hs)))) hs

theorem Keeps.diesOff {s : State} {h : Half} (hs : Keeps s₀ s) :
    Keeps s₀ (diesOff s h) := by
  unfold Machine.diesOff
  exact .foldl hs (fun _ _ ht => .dieOff ht)

theorem Keeps.loseDie {s : State} {die cause : ℕ} (hs : Keeps s₀ s) :
    Keeps s₀ (loseDie s die cause) := by
  unfold Machine.loseDie
  exact .reportLost (.dieOff (.wr (.resetContexts hs)))

theorem Keeps.loseStack {s : State} {k : Half} {cause channel : ℕ} (hs : Keeps s₀ s) :
    Keeps s₀ (loseStack s k cause channel) := by
  unfold Machine.loseStack
  exact .reportLost (.diesOff (.closeRequests (.wr (.wr (.resetContexts hs)))))

/-! ### Machine/Window.lean -/

theorem Keeps.lineRead {h : Half} {d : ℕ} {s : State} {line : ℕ} (hs : Keeps s₀ s) :
    Keeps s₀ (lineRead h d s line) := by
  unfold Machine.lineRead
  extract_lets +onlyGivenNames l
  refine .ite (.bump (.inc (.upd hs))) ?_
  extract_lets +onlyGivenNames s1 set
  have hs1 : Keeps s₀ s1 := .bump (.bump (.inc hs))
  refine .ite (.upd hs1) ?_
  extract_lets +onlyGivenNames gone u
  have hu : Keeps s₀ u := .drawFree hs1
  exact .upd hu

theorem Keeps.cacheRead {s : State} {x : Context} {a len : ℕ} (hs : Keeps s₀ s) :
    Keeps s₀ (cacheRead s x a len) := by
  unfold Machine.cacheRead
  exact .foldl hs (fun _ _ ha' => .lineRead ha')

theorem Keeps.runRead {r : Run} {x : Context} {a len : ℕ} (hr : Keeps s₀ r.s) :
    Keeps s₀ (Run.read r x a len).1.s := by
  unfold Machine.Run.read
  refine .iteOn (fun q : Run × List Byte => q.1.s) hr ?_
  refine .iteOn (fun q : Run × List Byte => q.1.s) (.cacheRead hr) ?_
  extract_lets +onlyGivenNames q
  have hq : Keeps s₀ q.2.1 := .readAt hr
  exact .iteOn (fun q : Run × List Byte => q.1.s) hq hq

theorem Keeps.runWrite {r : Run} {x : Context} {a : ℕ} {b : List Byte} (hr : Keeps s₀ r.s) :
    Keeps s₀ (Run.write r x a b).s := by
  unfold Machine.Run.write
  refine .iteOn Run.s hr ?_
  extract_lets +onlyGivenNames q
  have hq : Keeps s₀ q.2 := .writeAt hr
  exact .iteOn Run.s hq hq

theorem Keeps.noteOff {s : State} {x : Context} {w : ℕ} (hs : Keeps s₀ s) :
    Keeps s₀ (noteOff s x w) := by
  unfold Machine.noteOff
  exact .setCtx hs

theorem Keeps.runWinRead {r : Run} {x : Context} {o len : ℕ} (hr : Keeps s₀ r.s) :
    Keeps s₀ (Run.winRead r x o len).1.s := by
  unfold Machine.Run.winRead
  exact .foldlOn (fun q : Run × List Byte => q.1.s) hr (fun _ _ hq => .runRead (.iteOn Run.s hq (.noteOff hq)))

theorem Keeps.runWinWrite {r : Run} {x : Context} {o : ℕ} {b : List Byte} (hr : Keeps s₀ r.s) :
    Keeps s₀ (Run.winWrite r x o b).s := by
  unfold Machine.Run.winWrite
  exact .foldlOn Run.s hr (fun _ _ hq => .runWrite (.iteOn Run.s hq (.noteOff hq)))

theorem Keeps.runDone {r : Run} {x : Context} (hr : Keeps s₀ r.s) :
    Keeps s₀ (Run.done r x) := by
  unfold Machine.Run.done
  split
  · exact hr
  · exact .ctxAccessFail hr

theorem Keeps.runMap {r : Run} {f : State → State} (hr : Keeps s₀ r.s) (hf : ∀ u, Keeps s₀ u → Keeps s₀ (f u)) :
    Keeps s₀ (Run.map r f).s := by
  unfold Machine.Run.map
  exact .iteOn Run.s hr (hf _ hr)

theorem Keeps.runCtx {r : Run} {x : Context} {f : Context → Context} (hr : Keeps s₀ r.s) :
    Keeps s₀ (Run.ctx r x f).s := by
  unfold Machine.Run.ctx
  exact .runMap hr (fun _ hs => .setCtx hs)

theorem Keeps.runGet {r : Run} {x : Context} {p : Place} {a len : ℕ} (hr : Keeps s₀ r.s) :
    Keeps s₀ (Run.get r x p a len).1.s := by
  unfold Machine.Run.get
  split
  · exact .runRead hr
  · exact .runWinRead hr

theorem Keeps.runPut {r : Run} {x : Context} {p : Place} {a : ℕ} {b : List Byte} (hr : Keeps s₀ r.s) :
    Keeps s₀ (Run.put r x p a b).s := by
  unfold Machine.Run.put
  split
  · exact .runWrite hr
  · exact .runWinWrite hr

theorem Keeps.runRow {r : Run} {x : Context} {m : Mat} {i c n : ℕ} (hr : Keeps s₀ r.s) :
    Keeps s₀ (Run.row r x m i c n).1.s := by
  unfold Machine.Run.row
  extract_lets +onlyGivenNames d
  have hd : Keeps s₀ d.1.s := .runGet hr
  exact .iteOn (fun q : Run × List Byte => q.1.s) (.runGet hd) hd

theorem Keeps.runRowF32 {r : Run} {x : Context} {m : Mat} {i c n : ℕ} (hr : Keeps s₀ r.s) :
    Keeps s₀ (Run.rowF32 r x m i c n).1.s := by
  unfold Machine.Run.rowF32
  exact .runGet hr

theorem Keeps.countNum {s : State} {x : Context} {sat nan : ℕ} (hs : Keeps s₀ s) :
    Keeps s₀ (countNum s x sat nan) := by
  unfold Machine.countNum
  exact .bump (.inc (.bump (.inc hs)))

theorem Keeps.runPutRow {r : Run} {x : Context} {m : Mat} {i c : ℕ} {v : Converted} (hr : Keeps s₀ r.s) :
    Keeps s₀ (Run.putRow r x m i c v).s := by
  unfold Machine.Run.putRow
  extract_lets +onlyGivenNames q
  have hq : Keeps s₀ q.s := .runPut hr
  exact .iteOn Run.s (.runPut hq) hq

theorem Keeps.runRows {r : Run} {x : Context} {m : Mat} {i c k n : ℕ} (hr : Keeps s₀ r.s) :
    Keeps s₀ (Run.rows r x m i c k n).1.s := by
  induction n generalizing r x m i c k with
  | zero =>
    rw [Machine.Run.rows]
    exact hr
  | succ n ih =>
    rw [Machine.Run.rows]
    exact ih (.runRow hr)

/-! ### Machine/Tiles.lean -/

theorem Keeps.loadRow {x : Context} {src dst : Mat} {m c k row : ℕ} {r : Run} (hr : Keeps s₀ r.s) :
    Keeps s₀ (loadRow x src dst m c k row r).s := by
  unfold Machine.loadRow
  exact .runWinWrite (.runGet hr)

theorem Keeps.loadScales {x : Context} {src dst : Mat} {m c k row : ℕ} {r : Run} (hr : Keeps s₀ r.s) :
    Keeps s₀ (loadScales x src dst m c k row r).s := by
  unfold Machine.loadScales
  exact .runWinWrite (.runGet hr)

theorem Keeps.loadSpan {j : Job} {n : ℕ} {r : Run} (hr : Keeps s₀ r.s) :
    Keeps s₀ (loadSpan j n r).s := by
  unfold Machine.loadSpan
  exact .runWinWrite (.runRead hr)

theorem Keeps.jobLoad {j : Job} {isB : Bool} {n : ℕ} {r : Run} (hr : Keeps s₀ r.s) :
    Keeps s₀ (Job.load j isB n r).s := by
  unfold Machine.Job.load
  refine .iteOn Run.s (.loadSpan hr) ?_
  extract_lets +onlyGivenNames k d dst m c rows len src d'
  have hd' : Keeps s₀ d'.s := .foldlOn Run.s hr (fun _ _ hq => .loadRow hq)
  exact .iteOn Run.s (.foldlOn Run.s hd' (fun _ _ hq => .loadScales hq)) hd'

theorem Keeps.jobTileRows {j : Job} {isB : Bool} {q : TileAt} {r : Run} (hr : Keeps s₀ r.s) :
    Keeps s₀ (Job.tileRows j isB q r).1.s := by
  unfold Machine.Job.tileRows
  exact .iteOn (fun q : Run × List Groups => q.1.s) (.runRows hr) (.runRows hr)

theorem Keeps.passWindow {j : Job} {q : TileAt} {b : Blk} {as bs : List Groups} {r : Run} (hr : Keeps s₀ r.s) :
    Keeps s₀ (passWindow j q b as bs r).s := by
  unfold Machine.passWindow
  exact .foldlOn Run.s hr (fun _ _ ht => .runWinWrite (.iteOn (fun q : Run × List ℕ => q.1.s) ht (.runWinRead ht)))

theorem Keeps.jobPass {j : Job} {r : Run} (hr : Keeps s₀ r.s) :
    Keeps s₀ (Job.pass j r).s := by
  unfold Machine.Job.pass
  extract_lets +onlyGivenNames q b ra rb
  have hrb : Keeps s₀ rb.1.s := .jobTileRows (.jobTileRows hr)
  exact .runCtx (.iteOn Run.s (.runCtx hrb) (.passWindow hrb))

theorem Keeps.adapterRow {j : Job} {fmt scale : ℕ} {ds us : List Groups} {m : ℕ} {r : Run} {old : List ℕ} (hr : Keeps s₀ r.s) :
    Keeps s₀ (adapterRow j fmt scale ds us m r old).1.s := by
  unfold Machine.adapterRow
  exact .runMap (.runRow hr) (fun _ hs => .countNum hs)

theorem Keeps.adapterBlock {j : Job} {b : Blk} {rows : List (List ℕ)} {r : Run} (hr : Keeps s₀ r.s) :
    Keeps s₀ (adapterBlock j b rows r).1.s := by
  unfold Machine.adapterBlock
  split
  · exact hr
  · refine .iteOn (fun q : Run × List (List ℕ) => q.1.s) hr ?_
    extract_lets +onlyGivenNames h base fmt rank hd md mu ds us
    have hus : Keeps s₀ us.1.s := .runRows (.runRows (.runRead hr))
    refine .foldlOn (fun q : Run × List (List ℕ) => q.1.s) hus fun q i hq => ?_
    extract_lets o
    have ho : Keeps s₀ o.1.s := .adapterRow hq
    exact ho

theorem Keeps.jobSums {j : Job} {b : Blk} {r : Run} (hr : Keeps s₀ r.s) :
    Keeps s₀ (Job.sums j b r).1.s := by
  unfold Machine.Job.sums
  exact .iteOn (fun q : Run × List (List ℕ) => q.1.s) hr (.foldlOn (fun q : Run × List (List ℕ) => q.1.s) hr (fun _ _ hq => .runWinRead hq))

theorem Keeps.finishRow {j : Job} {b : Blk} {alpha i : ℕ} {sums : List ℕ} {r : Run} (hr : Keeps s₀ r.s) :
    Keeps s₀ (finishRow j b alpha i sums r).s := by
  unfold Machine.finishRow
  extract_lets +onlyGivenNames c v1 old v2 v q1
  have hq1 : Keeps s₀ q1.s := .runMap (.iteOn (fun q : Run × List ℕ => q.1.s) (.runRowF32 hr) hr) (fun _ hs => .countNum hs)
  exact .runPutRow (.iteOn Run.s (.runPutRow hq1) hq1)

theorem Keeps.finishBlock {j : Job} {b : Blk} {r : Run} (hr : Keeps s₀ r.s) :
    Keeps s₀ (finishBlock j b r).s := by
  unfold Machine.finishBlock
  exact .foldlOn Run.s (.adapterBlock (.jobSums hr)) (fun _ _ hq => .finishRow hq)

theorem Keeps.runPutPart {r : Run} {x : Context} {a : ℕ} {b : List Byte} (hr : Keeps s₀ r.s) :
    Keeps s₀ (Run.putPart r x a b).s := by
  unfold Machine.Run.putPart
  refine .iteOn Run.s hr ?_
  split
  · exact .runWrite hr
  · exact hr

theorem Keeps.storePartial {j : Job} {b : Blk} {r : Run} (hr : Keeps s₀ r.s) :
    Keeps s₀ (storePartial j b r).s := by
  unfold Machine.storePartial
  exact .runMap (.runMap (.foldlOn Run.s (.jobSums hr) (fun _ _ ht => .runPutPart ht)) (fun _ hs => .mapChains hs)) (fun _ hs => .setCtx hs)

theorem Keeps.combineRow {j : Job} {b : Blk} {i n : ℕ} {r : Run} (hr : Keeps s₀ r.s) :
    Keeps s₀ (combineRow j b i n r).1.s := by
  induction n generalizing j b i r with
  | zero =>
    rw [Machine.combineRow]
    exact .runRowF32 hr
  | succ n ih =>
    rw [Machine.combineRow]
    exact .runRowF32 (ih hr)

theorem Keeps.combineBlock {j : Job} {b : Blk} {r : Run} (hr : Keeps s₀ r.s) :
    Keeps s₀ (combineBlock j b r).s := by
  unfold Machine.combineBlock
  exact .runMap (.foldlOn Run.s hr (fun _ _ ht => .finishRow (.combineRow ht))) (fun _ hs => .inc hs)

theorem Keeps.interRow {j : Job} {b : Blk} {i : ℕ} {sums : List ℕ} {r : Run} (hr : Keeps s₀ r.s) :
    Keeps s₀ (interRow j b i sums r).s := by
  unfold Machine.interRow
  exact .runPutRow (.runMap hr (fun _ hs => .countNum hs))

/-! ### Machine/Cores.lean -/

theorem Keeps.nestError {s : State} {x : Context} {table : ℕ} {o : ℕ × NestFail} (hs : Keeps s₀ s) :
    Keeps s₀ (nestError s x table o) := by
  unfold Machine.nestError
  exact .wr (.wr (.wr (.wr hs)))

theorem Keeps.failChain {s : State} {c : Chain} {status : ℕ} (hs : Keeps s₀ s) :
    Keeps s₀ (failChain s c status) := by
  unfold Machine.failChain
  exact .settleChain (.foldl (.mapChains hs) (fun _ _ ha => .endContext ha))

theorem Keeps.readEntries {w : Who} {a n n' : ℕ} {s : State} (hs : Keeps s₀ s) :
    Keeps s₀ (readEntries w a n n' s).1 := by
  induction n generalizing w a n' s with
  | zero =>
    rw [Machine.readEntries]
    exact hs
  | succ n ih =>
    rw [Machine.readEntries]
    refine .iteOn Prod.fst hs ?_
    extract_lets +onlyGivenNames k q
    have hq : Keeps s₀ q.2.1 := .readAt hs
    exact .iteOn Prod.fst hq (ih hq)

theorem Keeps.beginGroup {s : State} {c : Chain} {skip : List Byte → Bool} {st : State → List Byte → ℕ} (hs : Keeps s₀ s) :
    Keeps s₀ (beginGroup s c skip st) := by
  unfold Machine.beginGroup
  exact .mapChains (.readEntries hs)

theorem Keeps.beginNest {s : State} {c : Chain} {x : Context} (hs : Keeps s₀ s) :
    Keeps s₀ (beginNest s c x) := by
  unfold Machine.beginNest
  split
  · exact .failChain (.nestError hs)
  · extract_lets +onlyGivenNames t
    refine .ite (.beginGroup hs) ?_
    extract_lets +onlyGivenNames s1
    have hs1 : Keeps s₀ s1 := .mapChains hs
    split
    · exact .ite hs1 (.failChain hs1)
    · exact hs1

theorem Keeps.dispatchNest {s : State} {c : Chain} {x : Context} (hs : Keeps s₀ s) :
    Keeps s₀ (dispatchNest s c x) := by
  unfold Machine.dispatchNest
  extract_lets +onlyGivenNames r1 r2 r3
  have hr1 : Keeps s₀ r1.1.s := .runRead hs
  have hr3 : Keeps s₀ r3.s := .runCtx (.iteOn (fun q : Run × List Byte => q.1.s) (.runRead hr1) hr1)
  split
  · exact .beginNest hr3
  · exact .runDone hr3

theorem Keeps.workFetch {s : State} {c : Chain} {x : Context} (hs : Keeps s₀ s) :
    Keeps s₀ (workFetch s c x) := by
  unfold Machine.workFetch
  exact .ite (.setCtx hs) hs

theorem Keeps.endIfDone {s : State} {c : Chain} {x : Context} (hs : Keeps s₀ s) :
    Keeps s₀ (endIfDone s c x) := by
  unfold Machine.endIfDone
  split
  · exact .ite (.endContext hs) hs
  · exact hs

theorem Keeps.workReturn {s : State} {c : Chain} {x : Context} (hs : Keeps s₀ s) :
    Keeps s₀ (workReturn s c x) := by
  unfold Machine.workReturn
  refine .ite hs ?_
  refine .ite (.passDownChain hs) ?_
  extract_lets +onlyGivenNames i s1 s2
  have hs2 : Keeps s₀ s2 := .setCtx (.mapChains hs)
  exact .endIfDone (.ite (.inc hs2) hs2)

theorem Keeps.beginItem {s : State} {c : Chain} {x : Context} {i : ℕ} (hs : Keeps s₀ s) :
    Keeps s₀ (beginItem s c x i) := by
  unfold Machine.beginItem
  exact .bump (.inc (.setCtx hs))

theorem Keeps.itemStart {s : State} {c : Chain} {x : Context} (hs : Keeps s₀ s) :
    Keeps s₀ (itemStart s c x) := by
  unfold Machine.itemStart
  refine .ite ?_ hs
  split
  · exact .beginItem hs
  · exact .endContext hs
  · exact hs

theorem Keeps.afterItem {s : State} {c : Chain} {x : Context} (hs : Keeps s₀ s) :
    Keeps s₀ (afterItem s c x) := by
  unfold Machine.afterItem
  exact .endIfDone (.setCtx hs)

theorem Keeps.loadIssue {s : State} {x : Context} {isB : Bool} (hs : Keeps s₀ s) :
    Keeps s₀ (loadIssue s x isB) := by
  unfold Machine.loadIssue
  split
  · split
    · exact .ite (.setCtx hs) hs
    · exact hs
  · exact hs

theorem Keeps.loadLand {s : State} {x : Context} {isB : Bool} (hs : Keeps s₀ s) :
    Keeps s₀ (loadLand s x isB) := by
  unfold Machine.loadLand
  split
  · exact .runDone (.runCtx (.jobLoad hs))
  · exact hs

theorem OnSome.haloTake {s : State} {x : Context} (hs : Keeps s₀ s) :
    OnSome (Keeps s₀) (haloTake s x) := by
  unfold Machine.haloTake
  split
  · exact .none
  · refine .ite .none ?_
    split
    · exact .none
    · extract_lets +onlyGivenNames n a d g w
      have hg : Keeps s₀ g.1.s := by
        unfold g
        split
        · exact .foldlOn (fun q : Run × List Byte => q.1.s) hs (fun _ _ hq => .runRead hq)
        · exact .runMap (.runRead hs) (fun _ ht => .inc ht)
      have hw : Keeps s₀ w.s := .runCtx (.runWinWrite hg)
      exact .some (.ite (.ctxWake hw) (.runDone hw))

theorem Keeps.tilePass {s : State} {x : Context} (hs : Keeps s₀ s) :
    Keeps s₀ (tilePass s x) := by
  unfold Machine.tilePass
  split
  · exact .ite (.ite (.runDone (.jobPass (.urgentPass hs))) (.ite (.ctxWait hs) hs)) hs
  · exact hs

theorem Keeps.phaseEnd {s : State} {j : Job} (hs : Keeps s₀ s) :
    Keeps s₀ (phaseEnd s j) := by
  unfold Machine.phaseEnd
  split
  · exact .ite (.afterItem hs) hs
  · exact hs

theorem Keeps.blockAtBoundary {j : Job} {r : Run} (hr : Keeps s₀ r.s) :
    Keeps s₀ (blockAtBoundary j r).s := by
  unfold Machine.blockAtBoundary
  exact .iteOn Run.s (.runCtx (.adapterBlock (.jobSums hr))) (.iteOn Run.s (.runCtx (.storePartial hr)) (.runCtx (.finishBlock hr)))

theorem Keeps.nestBoundary {s : State} {x : Context} (hs : Keeps s₀ s) :
    Keeps s₀ (nestBoundary s x) := by
  unfold Machine.nestBoundary
  extract_lets +onlyGivenNames s1
  have hs1 : Keeps s₀ s1 := .drain hs
  split
  · refine .ite ?_ (.phaseEnd hs1)
    extract_lets +onlyGivenNames r
    have hr : Keeps s₀ r.s := .blockAtBoundary hs1
    split
    · exact .phaseEnd hr
    · exact .runDone hr
  · exact hs1

theorem Keeps.nestVector {s : State} {x : Context} (hs : Keeps s₀ s) :
    Keeps s₀ (nestVector s x) := by
  unfold Machine.nestVector
  split
  · exact .ite (.runDone (.runCtx (.iteOn Run.s (.interRow hs) hs))) hs
  · exact hs

theorem Keeps.combineStep {s : State} {x : Context} (hs : Keeps s₀ s) :
    Keeps s₀ (combineStep s x) := by
  unfold Machine.combineStep
  split
  · refine .ite ?_ hs
    extract_lets +onlyGivenNames r
    have hr : Keeps s₀ r.s := .runCtx (.combineBlock hs)
    split
    · exact .phaseEnd hr
    · exact .runDone hr
  · exact hs

theorem Keeps.phase2Start {s : State} {x : Context} (hs : Keeps s₀ s) :
    Keeps s₀ (phase2Start s x) := by
  unfold Machine.phase2Start
  split
  · exact .ite (.setCtx hs) hs
  · exact hs

theorem Keeps.otherDrained {s : State} {x : Context} (hs : Keeps s₀ s) :
    Keeps s₀ (otherDrained s x) := by
  unfold Machine.otherDrained
  split
  · refine .ite ?_ hs
    split
    · exact .ite (.nestBoundary hs) (.drain hs)
    · exact .drain hs
  · exact hs

theorem OnSome.switchTo {s : State} {x : Context} (hs : Keeps s₀ s) :
    OnSome (Keeps s₀) (switchTo s x) := by
  unfold Machine.switchTo
  exact .ite (.some (.resched (.otherDrained hs))) .none

theorem OnSome.advance {s : State} {c : Chain} {x : Context} (hs : Keeps s₀ s) :
    OnSome (Keeps s₀) (advance s c x) := by
  unfold Machine.advance
  refine .ite .none ?_
  refine .ite (.some (.startIdle (.dispatchNest hs))) ?_
  refine .ite (.haloTake hs) ?_
  refine .ite (.ite (.some (.ite (.workReturn hs) (.workFetch hs))) (.some (.itemStart hs))) ?_
  refine .ite (.switchTo hs) ?_
  split
  · exact .none
  · exact .ite (.some (.resched (.nestBoundary hs))) (.ite (.some (.resched (.combineStep hs))) (.ite (.some (.resched (.nestVector hs)))
      (.ite (.some (.phase2Start hs)) (.ite (.some (.loadLand (.loadIssue hs))) (.ite (.some (.loadLand (.loadIssue hs))) (.ite (.some
      (.loadLand hs)) (.ite (.some (.loadLand hs)) (.ite (.some (.tilePass hs)) (.haloTake hs)))))))))

theorem Keeps.driveNest {n readNo : ℕ} {s : State} (hs : Keeps s₀ s) :
    Keeps s₀ (driveNest n readNo s) := by
  induction n generalizing readNo s with
  | zero =>
    rw [Machine.driveNest]
    exact hs
  | succ n ih =>
    rw [Machine.driveNest]
    split
    · exact hs
    · split
      next t eht =>
        have ht : Keeps s₀ t := OnSome.get (.findSome? (fun _ => .advance hs)) eht
        exact ih ht
      · exact hs

theorem Completes.onContext {s : State} {h : Half} {core slot : ℕ} {f : Chain → Context → State} (hs : Keeps s₀ s)
    (hf : ∀ u v, Keeps s₀ (f u v)) :
    Completes s₀ (onContext s h core slot f) := by
  unfold Machine.onContext
  split
  · split
    · exact .ite (.next hs) (.next (hf _ _))
    · exact .next hs
  · exact .next hs

theorem Completes.execWorkFetch {h : Half} {core : ℕ} {slot : Fin 2} {s : State} (hs : Keeps s₀ s) :
    Completes s₀ (execWorkFetch h core slot s) := by
  unfold Machine.execWorkFetch
  exact .onContext hs (fun _ _ => .workFetch hs)

theorem Completes.execWorkIndexReturn {h : Half} {core : ℕ} {slot : Fin 2} {s : State} (hs : Keeps s₀ s) :
    Completes s₀ (execWorkIndexReturn h core slot s) := by
  unfold Machine.execWorkIndexReturn
  exact .onContext hs (fun _ _ => .workReturn hs)

theorem Completes.execBufferLoad {h : Half} {core : ℕ} {slot : Fin 2} {isB : Bool} {s : State} (hs : Keeps s₀ s) :
    Completes s₀ (execBufferLoad h core slot isB s) := by
  unfold Machine.execBufferLoad
  exact .onContext hs (fun _ _ => .ite (.loadIssue hs) hs)

theorem Completes.execBufferLoadLanded {h : Half} {core : ℕ} {slot : Fin 2} {isB : Bool} {s : State} (hs : Keeps s₀ s) :
    Completes s₀ (execBufferLoadLanded h core slot isB s) := by
  unfold Machine.execBufferLoadLanded
  exact .onContext hs (fun _ _ => .ite (.loadLand hs) hs)

theorem Completes.execTilePass {h : Half} {core : ℕ} {slot : Fin 2} {s : State} (hs : Keeps s₀ s) :
    Completes s₀ (execTilePass h core slot s) := by
  unfold Machine.execTilePass
  exact .onContext hs (fun _ _ => .ite (.tilePass hs) hs)

theorem Completes.execSplitkCombine {h : Half} {core : ℕ} {slot : Fin 2} {s : State} (hs : Keeps s₀ s) :
    Completes s₀ (execSplitkCombine h core slot s) := by
  unfold Machine.execSplitkCombine
  exact .onContext hs (fun _ _ => .ite (.reschedIf (.combineStep hs)) hs)

theorem Completes.execHaloReceive {h : Half} {core : ℕ} {slot : Fin 2} {s : State} (hs : Keeps s₀ s) :
    Completes s₀ (execHaloReceive h core slot s) := by
  unfold Machine.execHaloReceive
  exact .onContext hs (fun _ _ => .ite (OnSome.getD (.haloTake hs) hs) hs)

theorem Completes.execFusedPhase2Start {h : Half} {core : ℕ} {slot : Fin 2} {s : State} (hs : Keeps s₀ s) :
    Completes s₀ (execFusedPhase2Start h core slot s) := by
  unfold Machine.execFusedPhase2Start
  exact .onContext hs (fun _ _ => .ite (.phase2Start hs) hs)

theorem Completes.execSlotSwitch {h : Half} {core : ℕ} {slot : Fin 2} {s : State} (hs : Keeps s₀ s) :
    Completes s₀ (execSlotSwitch h core slot s) := by
  unfold Machine.execSlotSwitch
  exact .onContext hs (fun _ _ => .ite hs (OnSome.getD (.switchTo hs) hs))

theorem Keeps.lineEcc {s : State} {h : Half} {die line : ℕ} {uncorr : Bool} (hs : Keeps s₀ s) :
    Keeps s₀ (lineEcc s h die line uncorr) := by
  unfold Machine.lineEcc
  exact .ite hs (.ite (.bump (.inc hs)) (.inc hs))

theorem Keeps.spEccFault {s : State} {h : Half} {core off syndrome : ℕ} {rmw : Bool} {x : Context} (hs : Keeps s₀ s) :
    Keeps s₀ (spEccFault s h core off syndrome rmw x) := by
  unfold Machine.spEccFault
  exact .ite hs (.contextStep (.noteAttn hs))

theorem Completes.execSpEccError {h : Half} {core : ℕ} {site : EccAt} {off syndrome : ℕ} {uncorr rmw : Bool} {s : State} (hs : Keeps s₀ s) :
    Completes s₀ (execSpEccError h core site off syndrome uncorr rmw s) := by
  unfold Machine.execSpEccError
  extract_lets +onlyGivenNames counted met
  have hcounted : Keeps s₀ counted := .ite (.inc hs) (.inc hs)
  have hmet : ∀ u v w, Keeps s₀ (met u v w) := by
    intro _ _ _
    unfold met
    split
    · exact .ite (.spEccFault hcounted) hcounted
    · exact hcounted
  refine .ite (.next hs) ?_
  split
  · exact .next (.lineEcc hs)
  · exact .next (hmet _ _ _)
  · exact .next (hmet _ _ _)
  · split
    · exact .next (.ite (.failEngine hcounted) hcounted)
    · exact .next hcounted

theorem Completes.execCoreCfgWrite {h : Half} {core split : ℕ} {s : State} (hs : Keeps s₀ s) :
    Completes s₀ (execCoreCfgWrite h core split s) := by
  unfold Machine.execCoreCfgWrite
  refine .ite (.next hs) ?_
  extract_lets +onlyGivenNames st s1
  have hs1 : Keeps s₀ s1 := .wr hs
  exact .next (.ite (.wr hs1) hs1)

theorem Completes.execCoreCntClr {h : Half} {core mask : ℕ} {s : State} (hs : Keeps s₀ s) :
    Completes s₀ (execCoreCntClr h core mask s) := by
  unfold Machine.execCoreCntClr
  refine .ite (.next hs) ?_
  extract_lets +onlyGivenNames s1 s2
  have hs1 : Keeps s₀ s1 := .ite (.wr hs) hs
  have hs2 : Keeps s₀ s2 := .ite (.wr hs1) hs1
  exact .next (.ite (.wr (.wr hs2)) hs2)

theorem Completes.execDieCacheInvalidate {h : Half} {die : Fin 4} {s : State} (hs : Keeps s₀ s) :
    Completes s₀ (execDieCacheInvalidate h die s) := by
  unfold Machine.execDieCacheInvalidate
  exact .next (.upd hs)

theorem Completes.execMatmul {h : Half} {ring seq : ℕ} {s : State} (hs : Keeps s₀ s) :
    Completes s₀ (execMatmul h ring seq s) := by
  unfold Machine.execMatmul
  exact .runChain hs (fun _ => .driveNest hs)

theorem Completes.execFused {h : Half} {ring seq : ℕ} {s : State} (hs : Keeps s₀ s) :
    Completes s₀ (execFused h ring seq s) := by
  unfold Machine.execFused
  exact .runChain hs (fun _ => .driveNest hs)

/-! ### Machine/AttnFold.lean -/

theorem Keeps.aJobLoadRow {j : AJob} {r : Run} {i q : ℕ} (hr : Keeps s₀ r.s) :
    Keeps s₀ (AJob.loadRow j r i q).1.s := by
  unfold Machine.AJob.loadRow
  exact .runMap (.runRead hr) (fun _ hs => .countNum hs)

theorem Keeps.aJobLoadRows {j : AJob} {r : Run} (hr : Keeps s₀ r.s) :
    Keeps s₀ (AJob.loadRows j r).1.s := by
  unfold Machine.AJob.loadRows
  exact .foldlOn (fun q : Run × List ℕ => q.1.s) hr (fun _ _ hq => .aJobLoadRow hq)

theorem Keeps.aJobBitmapRow {j : AJob} {r : Run} {i kb : ℕ} (hr : Keeps s₀ r.s) :
    Keeps s₀ (AJob.bitmapRow j r i kb).1.s := by
  unfold Machine.AJob.bitmapRow
  extract_lets +onlyGivenNames d v
  have hd : Keeps s₀ d.1.s := .runRead hr
  split
  · exact hd
  · exact hd
  · exact .runRead hd
  · exact hd

theorem Keeps.aJobBitmaps {j : AJob} {r : Run} {kb : ℕ} (hr : Keeps s₀ r.s) :
    Keeps s₀ (AJob.bitmaps j r kb).1.s := by
  unfold Machine.AJob.bitmaps
  exact .iteOn (fun q : Run × List (ℕ × List Bool) => q.1.s) (.foldlOn (fun q : Run × List (ℕ × List Bool) => q.1.s) hr (fun _ _
      hq => .aJobBitmapRow hq)) hr

theorem Keeps.aJobLook {j : AJob} {r : Run} {kb : ℕ} (hr : Keeps s₀ r.s) :
    Keeps s₀ (AJob.look j r kb).1.s := by
  unfold Machine.AJob.look
  extract_lets +onlyGivenNames first
  refine .iteOn (fun q : Run × Look => q.1.s) hr ?_
  refine .iteOn (fun q : Run × Look => q.1.s) hr ?_
  refine .iteOn (fun q : Run × Look => q.1.s) hr ?_
  extract_lets +onlyGivenNames m
  have hm : Keeps s₀ m.1.s := .aJobBitmaps hr
  refine .iteOn (fun q : Run × Look => q.1.s) hm ?_
  refine .iteOn (fun q : Run × Look => q.1.s) hm ?_
  extract_lets +onlyGivenNames mask seen st
  split
  · exact hm
  · exact hm

theorem Keeps.aJobPageRead {j : AJob} {r : Run} {page : ℕ} (hr : Keeps s₀ r.s) :
    Keeps s₀ (AJob.pageRead j r page).1.s := by
  unfold Machine.AJob.pageRead
  exact .iteOn (fun q : Run × List Byte => q.1.s) hr (.iteOn (fun q : Run × List Byte => q.1.s) (.cacheRead hr) (.recordRefusal hr))

theorem Keeps.aJobPages {j : AJob} {r : Run} {kb : ℕ} {mask : List (List Bool)} (hr : Keeps s₀ r.s) :
    Keeps s₀ (AJob.pages j r kb mask).1.s := by
  unfold Machine.AJob.pages
  extract_lets +onlyGivenNames a
  have ha : Keeps s₀ a.1.s := .iteOn (fun q : Run × List Byte => q.1.s) (.aJobPageRead hr) hr
  exact .iteOn (fun q : Run × List Byte => q.1.s) (.aJobPageRead ha) ha

theorem Keeps.deliverMass {s : State} {j : AJob} {page w : ℕ} (hs : Keeps s₀ s) :
    Keeps s₀ (deliverMass s j page w) := by
  unfold Machine.deliverMass
  exact .ite (.mapChains (.setEntryAt hs)) hs

theorem Keeps.aJobMasses {j : AJob} {s : State} {kb : ℕ} {ps : List (List ℕ)} {ls : List ℕ} {mask : List (List Bool)} (hs : Keeps s₀ s) :
    Keeps s₀ (AJob.masses j s kb ps ls mask) := by
  unfold Machine.AJob.masses
  refine .ite hs ?_
  refine .foldl hs (fun _ _ ht => ?_)
  refine .ite ?_ ht
  extract_lets +onlyGivenNames rows
  split
  · exact .deliverMass ht
  · exact .drawFree (.deliverMass ht)

theorem Keeps.aJobWriteRow {j : AJob} {r : Run} {i q m l : ℕ} {acc : List ℕ} (hr : Keeps s₀ r.s) :
    Keeps s₀ (AJob.writeRow j r i q m l acc).s := by
  unfold Machine.AJob.writeRow
  extract_lets +onlyGivenNames k o w
  have hw : Keeps s₀ w.s := .runWrite (.runMap hr (fun _ hs => .countNum hs))
  exact .iteOn Run.s hw (.runWrite (.runMap hw (fun _ hs => .countNum hs)))

theorem Keeps.aJobWriteRows {j : AJob} {r : Run} {stats : List (ℕ × ℕ)} {acc : List ℕ} (hr : Keeps s₀ r.s) :
    Keeps s₀ (AJob.writeRows j r stats acc).s := by
  unfold Machine.AJob.writeRows
  exact .foldlOn Run.s hr (fun _ _ ht => .aJobWriteRow ht)

theorem Keeps.aJobCombine {j : AJob} {r : Run} {kept : List Kept} (hr : Keeps s₀ r.s) :
    Keeps s₀ (AJob.combine j r kept).s := by
  unfold Machine.AJob.combine
  exact .aJobWriteRows hr

/-! ### Machine/Attention.lean -/

theorem Keeps.attnFail {s : State} {x : Context} {status : ℕ} (hs : Keeps s₀ s) :
    Keeps s₀ (attnFail s x status) := by
  unfold Machine.attnFail
  extract_lets +onlyGivenNames s1
  have hs1 : Keeps s₀ s1 := .attnErr hs
  split
  · exact .afterItem (.mapChains hs1)
  · exact .endContext (.mapChains hs1)
  · exact hs1

theorem Keeps.attnRows {s : State} {c : Chain} {r : Request} (hs : Keeps s₀ s) :
    Keeps s₀ (attnRows s c r).2.1 := by
  unfold Machine.attnRows
  extract_lets +onlyGivenNames b
  refine .iteOn (fun q : ℕ × State × List ℕ × List ℕ => q.2.1) (.iteOn (fun q : ℕ × State × List ℕ × List ℕ => q.2.1) hs hs) ?_
  refine .iteOn (fun q : ℕ × State × List ℕ × List ℕ => q.2.1) ?_ hs
  extract_lets +onlyGivenNames q
  have hq : Keeps s₀ q.2.1 := .readAt hs
  exact .iteOn (fun q : ℕ × State × List ℕ × List ℕ => q.2.1) hq (.iteOn (fun q : ℕ × State × List ℕ × List ℕ => q.2.1) hq hq)

theorem Keeps.attnCut {s : State} {c : Chain} {x : Context} {r : Request} (hs : Keeps s₀ s) :
    Keeps s₀ (attnCut s c x r) := by
  unfold Machine.attnCut
  exact .ite (.failChain (.attnErr hs)) (.inc (.mapChains hs))

theorem Keeps.attnBegin {s : State} {c : Chain} {x : Context} {r : Request} (hs : Keeps s₀ s) :
    Keeps s₀ (attnBegin s c x r) := by
  unfold Machine.attnBegin
  refine .ite (.failChain (.attnErr hs)) ?_
  extract_lets +onlyGivenNames s1 c1 q
  have hq : Keeps s₀ q.2.1 := .attnRows (.ite (.beginGroup hs) hs)
  exact .ite (.failChain (.attnErr hq)) (.attnCut (.mapChains hq))

theorem Keeps.dispatchAttn {s : State} {c : Chain} {x : Context} (hs : Keeps s₀ s) :
    Keeps s₀ (dispatchAttn s c x) := by
  unfold Machine.dispatchAttn
  split
  · exact hs
  · extract_lets +onlyGivenNames s1 s2
    have hs1 : Keeps s₀ s1 := .setCtx hs
    have hs2 : Keeps s₀ s2 := .ite hs1 (.attnBegin hs1)
    split
    · exact .ite (.endContext hs2) hs2
    · exact hs2

theorem Keeps.scramble {s : State} {x : Context} (hs : Keeps s₀ s) : Keeps s₀ (scramble s x) := by
  unfold Machine.scramble
  exact .foldl (.drawFree hs) fun _ _ ht => ht.setMem (Memory.wf_fill _ _ _)

theorem Keeps.beginAttnItem {s : State} {c : Chain} {x : Context} {i : ℕ} (hs : Keeps s₀ s) :
    Keeps s₀ (beginAttnItem s c x i) := by
  unfold Machine.beginAttnItem
  split
  · exact hs
  · split
    · exact .runDone (.runCtx (.aJobLoadRows (.scramble (.bump (.inc (.setCtx hs))))))
    · exact .ctxWait hs

theorem Keeps.attnStart {s : State} {c : Chain} {x : Context} (hs : Keeps s₀ s) :
    Keeps s₀ (attnStart s c x) := by
  unfold Machine.attnStart
  refine .ite ?_ hs
  split
  · exact .beginAttnItem hs
  · exact .endContext hs
  · exact hs

theorem Keeps.keepRange {s : State} {j : AJob} {stats : List (ℕ × ℕ)} {acc : List ℕ} (hs : Keeps s₀ s) :
    Keeps s₀ (keepRange s j stats acc) := by
  unfold Machine.keepRange
  exact .wakeCtxs (.mapChains hs)

theorem Keeps.countUnit {s : State} {j : AJob} (hs : Keeps s₀ s) :
    Keeps s₀ (countUnit s j) := by
  unfold Machine.countUnit
  exact .inc hs

theorem Keeps.holdRange {s : State} {j : AJob} {x : Context} (hs : Keeps s₀ s) :
    Keeps s₀ (holdRange s j x) := by
  unfold Machine.holdRange
  extract_lets +onlyGivenNames s1
  have hs1 : Keeps s₀ s1 := .setCtx hs
  exact .foldl (.ite hs1 (.ctxWait hs1)) (fun _ _ ha => .ctxWake ha)

theorem Keeps.rangeEnd {s : State} {j : AJob} (hs : Keeps s₀ s) :
    Keeps s₀ (rangeEnd s j) := by
  unfold Machine.rangeEnd
  extract_lets +onlyGivenNames x c
  refine .ite (.afterItem (.keepRange hs)) ?_
  refine .ite (.holdRange hs) ?_
  extract_lets +onlyGivenNames r
  have hr : Keeps s₀ r.s := .aJobWriteRows hs
  split
  · exact .afterItem (.countUnit hr)
  · exact .runDone hr

theorem Keeps.aJobSeek {j : AJob} {n : ℕ} {r : Run} {kb : ℕ} (hr : Keeps s₀ r.s) :
    Keeps s₀ (AJob.seek j n r kb).1.s := by
  induction n generalizing j r kb with
  | zero =>
    rw [Machine.AJob.seek]
    exact hr
  | succ n ih =>
    rw [Machine.AJob.seek]
    refine .iteOn (fun q : Run × ℕ × Option Look => q.1.s) hr ?_
    extract_lets +onlyGivenNames q
    have hq : Keeps s₀ q.1.s := .aJobLook hr
    split
    · exact ih (.runMap hq (fun _ hs => .ite (.bump (.inc hs)) hs))
    · exact hq

theorem Keeps.noteFolds {s : State} {j : AJob} {n : ℕ} (hs : Keeps s₀ s) :
    Keeps s₀ (noteFolds s j n) := by
  unfold Machine.noteFolds
  extract_lets +onlyGivenNames s1
  have hs1 : Keeps s₀ s1 := .touchLayer (.bump (.inc hs))
  exact .setCtx (.urgentPass (.upd hs1))

theorem Keeps.foldOne {j : AJob} {r : Run} {kb : ℕ} {mask : List (List Bool)} (hr : Keeps s₀ r.s) :
    Keeps s₀ (foldOne j r kb mask).s := by
  unfold Machine.foldOne
  exact .runMap (.aJobPages hr) (fun _ hs => .setCtx (.aJobMasses (.countNum (.noteFolds (.scramble hs)))))

theorem Keeps.foldStep {s : State} {x : Context} (hs : Keeps s₀ s) :
    Keeps s₀ (foldStep s x) := by
  unfold Machine.foldStep
  split
  · exact hs
  · refine .ite hs ?_
    refine .ite (.attnFail hs) ?_
    extract_lets +onlyGivenNames q r
    have hr : Keeps s₀ r.s := .runCtx (.aJobSeek hs)
    refine .ite (.runDone hr) ?_
    split
    · exact .attnFail hr
    · exact .ctxWait hr
    · extract_lets +onlyGivenNames f
      have hf : Keeps s₀ f.s := .foldOne hr
      exact .ite (.runDone hf) (.ite (.rangeEnd hf) hf)
    · exact hr
    · exact .rangeEnd hr

theorem Keeps.aJobLookAll {j : AJob} {n : List ℕ} {r : Run} (hr : Keeps s₀ r.s) :
    Keeps s₀ (AJob.lookAll j n r).1.s := by
  induction n generalizing j r with
  | nil =>
    rw [Machine.AJob.lookAll]
    exact hr
  | cons kb rest ih =>
    rw [Machine.AJob.lookAll]
    split
    · exact ih (.aJobLook hr)
    · exact ih (.aJobPages (.aJobLook hr))
    · exact .aJobLook hr

theorem Keeps.composedMasses {j : AJob} {out : List FoldOut} {bs : List (Option Block)} {s : State} (hs : Keeps s₀ s) :
    Keeps s₀ (composedMasses j out bs s) := by
  unfold Machine.composedMasses
  refine .foldl hs (fun _ _ ht => ?_)
  split
  · exact ht
  · exact .aJobMasses ht

theorem Keeps.composedStep {s : State} {x : Context} (hs : Keeps s₀ s) :
    Keeps s₀ (composedStep s x) := by
  unfold Machine.composedStep
  split
  · exact hs
  · refine .ite hs ?_
    refine .ite (.attnFail hs) ?_
    extract_lets +onlyGivenNames kbs q
    have hq : Keeps s₀ q.1.s := .aJobLookAll hs
    refine .ite (.runDone hq) ?_
    split
    · exact .attnFail hq
    · exact hs
    · extract_lets +onlyGivenNames out n k s1 s2 r
      have hr : Keeps s₀ r.s := .aJobWriteRows (.composedMasses (.countNum (.bump (.inc (.noteFolds (.scramble hq))))))
      exact .ite (.runDone hr) (.afterItem (.countUnit hr))

theorem Keeps.releaseRange {s : State} {c : Chain} {y : Context} (hs : Keeps s₀ s) :
    Keeps s₀ (releaseRange s c y) := by
  unfold Machine.releaseRange
  exact .afterItem (.ctxWake (.setCtx hs))

theorem Keeps.attnCombine {s : State} {x : Context} (hs : Keeps s₀ s) :
    Keeps s₀ (attnCombine s x) := by
  unfold Machine.attnCombine
  split
  · exact hs
  · refine .ite hs ?_
    refine .ite (.endContext hs) ?_
    refine .ite hs ?_
    split
    · extract_lets +onlyGivenNames r
      have hr : Keeps s₀ r.s := .aJobCombine (.scramble hs)
      exact .ite (.runDone hr) (.afterItem (.foldl (.setCtx (.countUnit hr)) (fun _ _ ht => .releaseRange ht)))
    · exact hs

theorem Keeps.demandPage {j : AJob} {a : State × Option ℕ} {page : ℕ} (ha : Keeps s₀ a.1) :
    Keeps s₀ (demandPage j a page).1 := by
  unfold Machine.demandPage
  split
  · exact ha
  · extract_lets +onlyGivenNames s count
    refine .iteOn Prod.fst (.ite ha (.inc (.joinTransfer ha))) ?_
    refine .iteOn Prod.fst (.inc ha) ?_
    split
    next slot t eht =>
      have ht : Keeps s₀ t := Answers.of_got (.allocSlot ha) eht
      exact .inc (.startFetch ht)
    next t eht =>
      have ht : Keeps s₀ t := Answers.of_wait (.allocSlot ha) eht
      exact ht
    next t eht =>
      have ht : Keeps s₀ t := Answers.of_none (.allocSlot ha) eht
      exact .inc ht

theorem Keeps.demandStep {s : State} {x : Context} (hs : Keeps s₀ s) :
    Keeps s₀ (demandStep s x) := by
  unfold Machine.demandStep
  split
  · exact hs
  · extract_lets +onlyGivenNames ps
    refine .ite hs ?_
    extract_lets +onlyGivenNames q
    have hq : Keeps s₀ q.1 := .foldlOn Prod.fst hs (fun _ _ ha => .demandPage ha)
    split
    · exact .attnFail hq
    · exact .ctxWait hq

theorem OnSome.attnAdvance {s : State} {c : Chain} {x : Context} (hs : Keeps s₀ s) :
    OnSome (Keeps s₀) (attnAdvance s c x) := by
  unfold Machine.attnAdvance
  refine .ite .none ?_
  refine .ite ?_ ?_
  · split
    · exact .ite (.some (.endContext hs)) (.ite .none (.ite (.switchTo hs) (.some (.resched (.attnCombine hs)))))
    · exact .none
  · refine .ite .none ?_
    refine .ite (.some (.startIdle (.dispatchAttn hs))) ?_
    refine .ite (.ite (.some (.ite (.workReturn hs) (.workFetch hs))) (.some (.attnStart hs))) ?_
    refine .ite (.switchTo hs) ?_
    refine .ite (.some (.resched (.drain hs))) ?_
    split
    · exact .none
    · exact .ite (.some (.demandStep hs)) (.ite (.some (.composedStep hs)) (.some (.foldStep hs)))

theorem Keeps.driveAttn {n readNo : ℕ} {s : State} (hs : Keeps s₀ s) :
    Keeps s₀ (driveAttn n readNo s) := by
  induction n generalizing readNo s with
  | zero =>
    rw [Machine.driveAttn]
    exact hs
  | succ n ih =>
    rw [Machine.driveAttn]
    split
    · exact hs
    · refine .ite hs ?_
      split
      next t eht =>
        have ht : Keeps s₀ t := OnSome.get (.findSome? (fun _ => .attnAdvance hs)) eht
        exact ih ht
      · exact hs

theorem Completes.execContextDispatch {h : Half} {core : ℕ} {slot : Fin 2} {s : State} (hs : Keeps s₀ s) :
    Completes s₀ (execContextDispatch h core slot s) := by
  unfold Machine.execContextDispatch
  exact .onContext hs (fun _ _ => .ite hs (.startIdle (.logSched (.ite (.dispatchNest hs) (.ite (.dispatchAttn hs) (.setCtx hs))))))

theorem Completes.execItemStart {h : Half} {core : ℕ} {slot : Fin 2} {s : State} (hs : Keeps s₀ s) :
    Completes s₀ (execItemStart h core slot s) := by
  unfold Machine.execItemStart
  exact .onContext hs (fun _ _ => .ite (.itemStart hs) (.ite (.attnStart hs) hs))

theorem Completes.execTileBoundary {h : Half} {core : ℕ} {slot : Fin 2} {s : State} (hs : Keeps s₀ s) :
    Completes s₀ (execTileBoundary h core slot s) := by
  unfold Machine.execTileBoundary
  exact .onContext hs (fun _ _ => .ite hs (.resched (.ite (.nestBoundary hs) (.drain hs))))

theorem Completes.execVectorStep {h : Half} {core : ℕ} {slot : Fin 2} {s : State} (hs : Keeps s₀ s) :
    Completes s₀ (execVectorStep h core slot s) := by
  unfold Machine.execVectorStep
  exact .onContext hs (fun _ _ => .ite (.reschedIf (.nestVector hs)) hs)

theorem Completes.execAttnFold {h : Half} {core : ℕ} {slot : Fin 2} {s : State} (hs : Keeps s₀ s) :
    Completes s₀ (execAttnFold h core slot s) := by
  unfold Machine.execAttnFold
  exact .onContext hs (fun _ _ => .ite (.foldStep hs) hs)

theorem Completes.execAttnComposedUnit {h : Half} {core : ℕ} {slot : Fin 2} {s : State} (hs : Keeps s₀ s) :
    Completes s₀ (execAttnComposedUnit h core slot s) := by
  unfold Machine.execAttnComposedUnit
  exact .onContext hs (fun _ _ => .ite (.composedStep hs) hs)

theorem Completes.execAttnRangeCombine {h : Half} {core : ℕ} {slot : Fin 2} {s : State} (hs : Keeps s₀ s) :
    Completes s₀ (execAttnRangeCombine h core slot s) := by
  unfold Machine.execAttnRangeCombine
  exact .onContext hs (fun _ _ => .ite (.reschedIf (.attnCombine hs)) hs)

theorem Completes.execAttnDemandPrefetch {h : Half} {core : ℕ} {slot : Fin 2} {s : State} (hs : Keeps s₀ s) :
    Completes s₀ (execAttnDemandPrefetch h core slot s) := by
  unfold Machine.execAttnDemandPrefetch
  exact .onContext hs (fun _ _ => .ite (.demandStep hs) hs)

theorem Completes.execAttnRuleWrite {h : Half} {splitMin composedMax : ℕ} {s : State} (hs : Keeps s₀ s) :
    Completes s₀ (execAttnRuleWrite h splitMin composedMax s) := by
  unfold Machine.execAttnRuleWrite
  exact .ite (.next hs) (.ite (.next (.wr hs)) (.next (.wr (.wr hs))))

theorem Completes.execAttn {h : Half} {ring seq : ℕ} {s : State} (hs : Keeps s₀ s) :
    Completes s₀ (execAttn h ring seq s) := by
  unfold Machine.execAttn
  exact .runChain hs (fun _ => .driveAttn hs)

theorem Completes.execAttnRing {h : Half} {ring seq : ℕ} {s : State} (hs : Keeps s₀ s) :
    Completes s₀ (execAttnRing h ring seq s) := by
  unfold Machine.execAttnRing
  exact .runChain hs (fun _ => .driveAttn hs)

theorem Completes.execVerify {h : Half} {ring seq : ℕ} {s : State} (hs : Keeps s₀ s) :
    Completes s₀ (execVerify h ring seq s) := by
  unfold Machine.execVerify
  exact .runChain hs (fun _ => .driveAttn hs)

/-! ### Machine/AttnRing.lean -/

theorem Keeps.collWSetChain {w : CollW} {f : Chain → Chain} (hw : Keeps s₀ w.s) :
    Keeps s₀ (CollW.setChain w f).s := by
  unfold Machine.CollW.setChain
  exact .mapChains hw

theorem Keeps.ringWork {s : State} {c : Coll} {d : Chain} (hs : Keeps s₀ s) :
    Keeps s₀ (ringWork s c d).s := by
  unfold Machine.ringWork
  exact hs

theorem Keeps.collWFailRing {w : CollW} {status : ℕ} (hw : Keeps s₀ w.s) :
    Keeps s₀ (CollW.failRing w status).s := by
  unfold Machine.CollW.failRing
  exact .collWAbort (.collWSetChain hw)

theorem Keeps.collWSendPage {w : CollW} {d : Chain} {r : Request} {unit seg : ℕ} {q : ℕ × ℕ} (hw : Keeps s₀ w.s) :
    Keeps s₀ (CollW.sendPage w d r unit seg q).s := by
  unfold Machine.CollW.sendPage
  exact .iteOn CollW.s (.collWFailRing (.refusePage hw)) (.foldlOn CollW.s hw (fun _ _ hw' => .collWInjectData hw'))

theorem Keeps.collWPrefetchUnit {w : CollW} {d : Chain} {r : Request} {ps : List (ℕ × ℕ)} (hw : Keeps s₀ w.s) :
    Keeps s₀ (CollW.prefetchUnit w d r ps).s := by
  unfold Machine.CollW.prefetchUnit
  refine .foldlOn CollW.s hw (fun _ _ hw' => ?_)
  refine .collWBind hw' (fun _ hw'' => ?_)
  extract_lets +onlyGivenNames l e
  refine .iteOn CollW.s (.joinTransfer hw'') ?_
  refine .iteOn CollW.s hw'' ?_
  refine .iteOn CollW.s (.collWFailRing hw'') ?_
  split
  next slot t eht =>
    have ht : Keeps s₀ t := Answers.of_got (.allocSlot hw'') eht
    exact .inc (.startFetch ht)
  next t eht =>
    have ht : Keeps s₀ t := Answers.of_wait (.allocSlot hw'') eht
    exact ht
  next t eht =>
    have ht : Keeps s₀ t := Answers.of_none (.allocSlot hw'') eht
    exact .collWFailRing ht

theorem Keeps.collWServeCts {w : CollW} {t : CtsHeld} (hw : Keeps s₀ w.s) :
    Keeps s₀ (CollW.serveCts w t).s := by
  unfold Machine.CollW.serveCts
  split
  · exact .iteOn CollW.s (.collWFailRing hw) (.iteOn CollW.s hw (.iteOn CollW.s (.foldlOn CollW.s hw (fun _ _ hw' => .collWSendPage hw'))
      (.collWPrefetchUnit hw)))
  · exact hw

theorem Keeps.collWServeAll {w : CollW} (hw : Keeps s₀ w.s) :
    Keeps s₀ (CollW.serveAll w).s := by
  unfold Machine.CollW.serveAll
  exact .foldlOn CollW.s hw (fun _ _ hw' => .collWBind hw' (fun _ hw'' => .collWServeCts hw''))

theorem Keeps.ringGoOn {s : State} {c : Coll} (hs : Keeps s₀ s) :
    Keeps s₀ (ringGoOn s c) := by
  unfold Machine.ringGoOn
  split
  · exact .collWCloseNotch (.collWServeAll (.ringWork hs))
  · exact hs

theorem Keeps.ringsGoOn {s : State} {h : Half} (hs : Keeps s₀ s) :
    Keeps s₀ (ringsGoOn s h) := by
  unfold Machine.ringsGoOn
  refine .foldl hs (fun _ _ ht => ?_)
  split
  · exact .ringGoOn ht
  · exact ht

theorem Keeps.collWRingCts {w : CollW} {d : Chain} {p : Packet} (hw : Keeps s₀ w.s) :
    Keeps s₀ (CollW.ringCts w d p).s := by
  unfold Machine.CollW.ringCts
  exact .iteOn CollW.s (.collWAbort hw) (.collWServeAll hw)

theorem Keeps.collWRingDone {w : CollW} {d : Chain} {p : Packet} (hw : Keeps s₀ w.s) :
    Keeps s₀ (CollW.ringDone w d p).s := by
  unfold Machine.CollW.ringDone
  exact .iteOn CollW.s (.collWSetChain hw) hw

theorem Keeps.collWRingAsk {w : CollW} (hw : Keeps s₀ w.s) :
    Keeps s₀ (CollW.ringAsk w).s := by
  unfold Machine.CollW.ringAsk
  split
  · exact .iteOn CollW.s hw (.collWSetChain (.collWInject hw))
  · exact hw

theorem Keeps.collWPlacePage {w : CollW} {p : RingPage} {data : List Byte} (hw : Keeps s₀ w.s) :
    Keeps s₀ (CollW.placePage w p data).s := by
  unfold Machine.CollW.placePage
  split
  · extract_lets +onlyGivenNames l mine
    refine .iteOn CollW.s (.collWFailRing hw) ?_
    refine .iteOn CollW.s (.collWFailRing hw) ?_
    refine .iteOn CollW.s (.collWFailRing hw) ?_
    split
    · exact hw
    next t eht =>
      have ht : Keeps s₀ t.2 := OnSome.getSnd (.takeGuest hw) eht
      exact .collWSetChain (.setEntry (.writePage ht))
  · exact hw

theorem Keeps.collWRingAck {w : CollW} {short : Bool} (hw : Keeps s₀ w.s) :
    Keeps s₀ (CollW.ringAck w short).s := by
  unfold Machine.CollW.ringAck
  split
  · exact .iteOn CollW.s (.collWSetChain (.collWInject hw)) hw
  · exact hw

theorem Keeps.collWPlaceAll {w : CollW} (hw : Keeps s₀ w.s) :
    Keeps s₀ (CollW.placeAll w).s := by
  unfold Machine.CollW.placeAll
  split
  · refine .collWBind ?_ (fun _ hw' => .collWRingAck hw')
    refine .foldlOn CollW.s hw (fun _ _ hw' => ?_)
    refine .collWBind hw' (fun _ hw'' => ?_)
    refine .iteOn CollW.s hw'' ?_
    split
    · exact .collWPlacePage hw''
    · exact hw''
  · exact hw

theorem Keeps.collWRingPacket {w : CollW} {d : Chain} {r : Request} {p : Packet} {page head fill : ℕ} (hw : Keeps s₀ w.s) :
    Keeps s₀ (CollW.ringPacket w d r p page head fill).s := by
  unfold Machine.CollW.ringPacket
  exact .iteOn CollW.s hw (.collWPlaceAll (.collWSetChain hw))

theorem Keeps.ringStep {s : State} {c : Coll} {d : Chain} {r : Request} (hs : Keeps s₀ s) :
    Keeps s₀ (ringStep s c d r) := by
  unfold Machine.ringStep
  extract_lets +onlyGivenNames last
  refine .ite hs ?_
  extract_lets +onlyGivenNames s1 s2
  have hs2 : Keeps s₀ s2 := .mapChains (.dropGuests hs)
  exact .ite (.settleChain (.inc (.endColl (.countColl hs2)))) (.ite (.wakeCtxs (.ringGoOn (.mapChains (.inc hs2)))) (.collWCloseNotch
      (.collWPlaceAll (.ringWork hs2))))

theorem Completes.execAttnRingStep {h : Half} {ring seq : ℕ} {s : State} (hs : Keeps s₀ s) :
    Completes s₀ (execAttnRingStep h ring seq s) := by
  unfold Machine.execAttnRingStep
  split
  · exact .next (.ringStep hs)
  · exact .next hs

theorem Completes.execAttnRingBlockLanded {h : Half} {ring seq : ℕ} {keyBlock : Option ℕ} {s : State} (hs : Keeps s₀ s) :
    Completes s₀ (execAttnRingBlockLanded h ring seq keyBlock s) := by
  unfold Machine.execAttnRingBlockLanded
  split
  · exact .next hs
  · extract_lets +onlyGivenNames d
    refine .ite (.next hs) ?_
    extract_lets +onlyGivenNames s1
    have hs1 : Keeps s₀ s1 := .mapChains hs
    exact .next (.wakeCtxs (.ite (.collWCloseNotch (.collWRingAck (.ringWork hs1))) hs1))

/-! ### Machine/AuxPins.lean -/

theorem Completes.pwmWrite {s : State} {h : Half} {n : ℕ} {t : State} (hs : Keeps s₀ s) (ht : Keeps s₀ t) :
    Completes s₀ (pwmWrite s h n t) := by
  unfold Machine.pwmWrite
  exact .ite (.ite (.next (.wr hs)) (.next ht)) (.next hs)

theorem Completes.execPwmReload {h : Half} {n : Fin 4} {s : State} (hs : Keeps s₀ s) :
    Completes s₀ (execPwmReload h n s) := by
  unfold Machine.execPwmReload
  extract_lets +onlyGivenNames p
  refine .ite ?_ (.next hs)
  extract_lets +onlyGivenNames s1
  have hs1 : Keeps s₀ s1 := .wr hs
  exact .ite (.next (.wr hs1)) (.ite (.next (.pwmDrive (.pwmTransfer hs1))) (.next hs1))

theorem Completes.execPwmUpdate {h : Half} {n : Fin 4} {s : State} (hs : Keeps s₀ s) :
    Completes s₀ (execPwmUpdate h n s) := by
  unfold Machine.execPwmUpdate
  exact .pwmWrite hs (.pwmArm hs)

theorem Completes.execPwmShadowWrite {h : Half} {n : Fin 4} {reg : PwmReg} {v : ℕ} {s : State} (hs : Keeps s₀ s) :
    Completes s₀ (execPwmShadowWrite h n reg v s) := by
  unfold Machine.execPwmShadowWrite
  exact .pwmWrite hs (.pwmShadow hs)

theorem Keeps.pwmEnableClaim {s : State} {h : Half} {n : ℕ} (hs : Keeps s₀ s) :
    Keeps s₀ (pwmEnableClaim s h n) := by
  unfold Machine.pwmEnableClaim
  extract_lets +onlyGivenNames pin s1
  have hs1 : Keeps s₀ s1 := .claimPin hs
  refine .ite ?_ (.wr hs1)
  extract_lets +onlyGivenNames s2
  have hs2 : Keeps s₀ s2 := .pwmStart hs1
  exact .ite (.pwmDrive hs2) (.releasePin hs2)

theorem Completes.execPwmEnable {h : Half} {n : Fin 4} {s : State} (hs : Keeps s₀ s) :
    Completes s₀ (execPwmEnable h n s) := by
  unfold Machine.execPwmEnable
  exact .ite (.ite (.pwmWrite hs hs) (.ite (.pwmWrite hs (.pwmDrive (.pwmStart hs))) (.next (.pwmEnableClaim hs)))) (.ite (.next hs) (.next
      (.pinNoRole hs)))

theorem Keeps.pwmStop {s : State} {h : Half} {n : ℕ} (hs : Keeps s₀ s) :
    Keeps s₀ (pwmStop s h n) := by
  unfold Machine.pwmStop
  extract_lets +onlyGivenNames s1 s2
  have hs2 : Keeps s₀ s2 := .wr (.wr (.wr (.wr hs)))
  exact .ite (.pwmDrive hs2) (.releasePin hs2)

theorem Completes.execPwmDisable {h : Half} {n : Fin 4} {s : State} (hs : Keeps s₀ s) :
    Completes s₀ (execPwmDisable h n s) := by
  unfold Machine.execPwmDisable
  exact .pwmWrite hs (.ite (.pwmStop hs) hs)

theorem Keeps.trigFields {s : State} {h : Half} {k : ℕ} {timed : Bool} {ch width at_ : ℕ} (hs : Keeps s₀ s) :
    Keeps s₀ (trigFields s h k timed ch width at_) := by
  unfold Machine.trigFields
  exact .wr (.wr (.wr (.wr hs)))

theorem Keeps.trigEnable {s : State} {h : Half} {k : ℕ} {timed : Bool} (hs : Keeps s₀ s) :
    Keeps s₀ (trigEnable s h k timed) := by
  unfold Machine.trigEnable
  extract_lets +onlyGivenNames pin c s1
  have hs1 : Keeps s₀ s1 := .claimPin hs
  refine .ite ?_ (.thermStatus hs1)
  extract_lets +onlyGivenNames s2
  have hs2 : Keeps s₀ s2 := .claimCmp hs1
  exact .ite (.thermStatus (.drivePin (.armTrig (.wr hs2)))) (.thermStatus (.releasePin hs2))

theorem Keeps.trigDisable {s : State} {h : Half} {k : ℕ} (hs : Keeps s₀ s) :
    Keeps s₀ (trigDisable s h k) := by
  unfold Machine.trigDisable
  exact .thermStatus (.releasePin (.releaseCmp (.wr hs)))

theorem Keeps.trigWrite {s : State} {h : Half} {k : ℕ} {en timed : Bool} {ch width at_ : ℕ} (hs : Keeps s₀ s) :
    Keeps s₀ (trigWrite s h k en timed ch width at_) := by
  unfold Machine.trigWrite
  extract_lets +onlyGivenNames s1
  have hs1 : Keeps s₀ s1 := .trigFields hs
  exact .ite (.ite (.thermStatus (.ite hs1 (.armTrig hs1))) (.trigDisable hs1)) (.ite (.trigEnable hs1) (.thermStatus hs1))

theorem Completes.execTrigConfigWrite {h : Half} {k : Fin 2} {en timed : Bool} {ch : Fin 4} {width at_ : ℕ} {s : State} (hs : Keeps s₀ s) :
    Completes s₀ (execTrigConfigWrite h k en timed ch width at_ s) := by
  unfold Machine.execTrigConfigWrite
  exact .ite (.ite (.next (.thermStatus hs)) (.next (.trigWrite hs))) (.ite (.next (.pinNoRole hs)) (.next hs))

theorem Completes.execTrigSyncPulse {h : Half} {k : Fin 2} {s : State} (hs : Keeps s₀ s) :
    Completes s₀ (execTrigSyncPulse h k s) := by
  unfold Machine.execTrigSyncPulse
  exact .ite (.next (.drivePin hs)) (.next hs)

theorem Completes.execPinPulseEnd {h : Half} {pin : AuxPin} {s : State} (hs : Keeps s₀ s) :
    Completes s₀ (execPinPulseEnd h pin s) := by
  unfold Machine.execPinPulseEnd
  exact .ite (.next (.drivePin hs)) (.next hs)

theorem Keeps.fbCount {s : State} {h : Half} {n : ℕ} {onB up : Bool} (hs : Keeps s₀ s) :
    Keeps s₀ (fbCount s h n onB up) := by
  unfold Machine.fbCount
  extract_lets +onlyGivenNames pos delta last now s1 s2 s3
  have hs1 : Keeps s₀ s1 := .wr hs
  have hs3 : Keeps s₀ s3 := .wr (.wr (.ite (.wr hs1) hs1))
  exact .wr (.wr (.wr (.wr (.ite hs3 (.wr hs3)))))

theorem Completes.execFbEdge {h : Half} {n : Fin 3} {onB levelB : Bool} {s0 : State} (hs0 : Keeps s₀ s0) :
    Completes s₀ (execFbEdge h n onB levelB s0) := by
  unfold Machine.execFbEdge
  extract_lets +onlyGivenNames i last seen s
  have hs : Keeps s₀ s := .wr hs0
  split
  · exact .next hs0
  · exact .ite (.next hs0) (.ite (.next (.ite (.bump (.inc hs)) (.inc hs))) (.next (.fbCount hs)))

theorem Completes.execFbPositionWrite {h : Half} {n : Fin 3} {v : ℕ} {s : State} (hs : Keeps s₀ s) :
    Completes s₀ (execFbPositionWrite h n v s) := by
  unfold Machine.execFbPositionWrite
  exact .ite (.next (.thermStatus (.wr hs))) (.next hs)

theorem Completes.execFbZsTimeout {h : Half} {n : Fin 3} {s : State} (hs : Keeps s₀ s) :
    Completes s₀ (execFbZsTimeout h n s) := by
  unfold Machine.execFbZsTimeout
  exact .ite (.next (.wr (.wr (.wr (.wr hs))))) (.next hs)

theorem Completes.execFbWindowEnd {h : Half} {n : Fin 3} {s : State} (hs : Keeps s₀ s) :
    Completes s₀ (execFbWindowEnd h n s) := by
  unfold Machine.execFbWindowEnd
  exact .next (.wr (.wr hs))

theorem Keeps.fbSetMode {s : State} {h : Half} {n mode : ℕ} (hs : Keeps s₀ s) :
    Keeps s₀ (fbSetMode s h n mode) := by
  unfold Machine.fbSetMode
  exact .wr (.wr (.wr (.wr hs)))

theorem Keeps.fbModeWrite {s : State} {h : Half} {n mode : ℕ} (hs : Keeps s₀ s) :
    Keeps s₀ (fbModeWrite s h n mode) := by
  unfold Machine.fbModeWrite
  extract_lets +onlyGivenNames old
  refine .ite (.thermStatus hs) ?_
  refine .ite ?_ (.ite (.thermStatus (.fbSetMode (.wr hs))) (.thermStatus (.fbSetMode hs)))
  extract_lets +onlyGivenNames s1
  have hs1 : Keeps s₀ s1 := .claimPin hs
  exact .ite (.thermStatus (.fbSetMode hs1)) (.thermStatus hs1)

theorem Completes.execFbModeSet {h : Half} {n : Fin 3} {mode : Fin 4} {s : State} (hs : Keeps s₀ s) :
    Completes s₀ (execFbModeSet h n mode s) := by
  unfold Machine.execFbModeSet
  exact .ite (.next (.fbModeWrite hs)) (.ite (.next (.pinNoRole hs)) (.next hs))

theorem Completes.execFbClrGlitch {h : Half} {n : Fin 3} {s : State} (hs : Keeps s₀ s) :
    Completes s₀ (execFbClrGlitch h n s) := by
  unfold Machine.execFbClrGlitch
  exact .ite (.next (.thermStatus (.wr hs))) (.next hs)

theorem Keeps.auxRelease {s : State} {h : Half} (hs : Keeps s₀ s) :
    Keeps s₀ (auxRelease s h) := by
  unfold Machine.auxRelease
  exact .foldl hs (fun _ _ ht => .drivePin ht)

theorem Keeps.auxDriveAll {s : State} {h : Half} (hs : Keeps s₀ s) :
    Keeps s₀ (auxDriveAll s h) := by
  unfold Machine.auxDriveAll
  extract_lets +onlyGivenNames s1 s2
  have hs1 : Keeps s₀ s1 := .pwmDrive (.pwmDrive hs)
  have hs2 : Keeps s₀ s2 := .ite (.pwmDrive hs1) (.drivePin hs1)
  exact .drivePin (.ite (.pwmDrive hs2) (.drivePin hs2))

theorem Keeps.keyStore {s : State} {pattern : ℕ} (hs : Keeps s₀ s) :
    Keeps s₀ (keyStore s pattern) := by
  unfold Machine.keyStore
  exact .wr (.wr (.wr (.wr hs)))

theorem Completes.execAuxKeyChange {pattern : Fin 4} {s : State} (hs : Keeps s₀ s) :
    Completes s₀ (execAuxKeyChange pattern s) := by
  unfold Machine.execAuxKeyChange
  extract_lets +onlyGivenNames h
  refine .ite (.next hs) ?_
  extract_lets +onlyGivenNames s1
  have hs1 : Keeps s₀ s1 := .raiseTherm (.keyStore hs)
  exact .ite (.next (.auxDriveAll hs1)) (.ite (.next (.thermFail (.auxRelease hs1))) (.next (.auxRelease hs1)))

theorem Keeps.diagPut {s : State} {h : Half} {pin code : ℕ} (hs : Keeps s₀ s) :
    Keeps s₀ (diagPut s h pin code) := by
  unfold Machine.diagPut
  exact .wr hs

theorem Completes.execAuxFaultDetect {pin : AuxPin} {code : DiagCode} {s : State} (hs : Keeps s₀ s) :
    Completes s₀ (execAuxFaultDetect pin code s) := by
  unfold Machine.execAuxFaultDetect
  split
  · exact .ite (.next (.raiseCause (.wr (.diagPut hs)))) (.next hs)
  · exact .next hs

theorem Completes.execAuxShortRetry {pin : AuxPin} {persists : Bool} {s : State} (hs : Keeps s₀ s) :
    Completes s₀ (execAuxShortRetry pin persists s) := by
  unfold Machine.execAuxShortRetry
  split
  · exact .ite (.next hs) (.ite (.next (.raiseCause (.diagPut hs))) (.next (.wr hs)))
  · exact .next hs

theorem Completes.execAuxDiagClr {h : Half} {mask : ℕ} {s : State} (hs : Keeps s₀ s) :
    Completes s₀ (execAuxDiagClr h mask s) := by
  unfold Machine.execAuxDiagClr
  exact .ite (.next (.foldl hs (fun _ _ ht => .ite (.diagPut ht) ht))) (.next hs)

theorem Keeps.pwmRestart {s : State} {h : Half} {n : ℕ} (hs : Keeps s₀ s) :
    Keeps s₀ (pwmRestart s h n) := by
  unfold Machine.pwmRestart
  exact .ite (.wr (.pwmTransfer hs)) hs

theorem Completes.execAuxOutputDrive {h : Half} {s : State} (hs : Keeps s₀ s) :
    Completes s₀ (execAuxOutputDrive h s) := by
  unfold Machine.execAuxOutputDrive
  exact .ite (.next (.auxDriveAll (.foldl (.wr hs) (fun _ _ ht => .pwmRestart ht)))) (.next hs)

/-! ### Machine/CollRows.lean -/

theorem Keeps.collStatus {s : State} {h : Half} {st : ℕ} (hs : Keeps s₀ s) :
    Keeps s₀ (collStatus s h st) := by
  unfold Machine.collStatus
  exact .wr hs

theorem Keeps.groupStore {s : State} {h : Half} {g reg v : ℕ} (hs : Keeps s₀ s) :
    Keeps s₀ (groupStore s h g reg v) := by
  unfold Machine.groupStore
  exact .ite (.wr hs) (.ite (.wr (.wr (.wr (.wr hs)))) (.wr (.wr (.wr (.wr (.wr (.wr hs)))))))

theorem Keeps.groupFresh {s : State} {h : Half} {g : ℕ} (hs : Keeps s₀ s) :
    Keeps s₀ (groupFresh s h g) := by
  unfold Machine.groupFresh
  extract_lets +onlyGivenNames gid s1
  have hs1 : Keeps s₀ s1 := .wr (.wr (.wr (.wr (.wr hs))))
  exact .upd hs1

theorem Completes.execGrpCfgWrite {h : Half} {g : Fin 256} {reg : Fin 3} {v : ℕ} {s : State} (hs : Keeps s₀ s) :
    Completes s₀ (execGrpCfgWrite h g reg v s) := by
  unfold Machine.execGrpCfgWrite
  extract_lets +onlyGivenNames st s1
  have hs1 : Keeps s₀ s1 := .collStatus hs
  refine .ite (.next hs1) ?_
  extract_lets +onlyGivenNames s2
  have hs2 : Keeps s₀ s2 := .groupStore hs1
  exact .next (.ite (.groupFresh hs2) hs2)

theorem Completes.execCollCfgWrite {h : Half} {tmo : ℕ} {s : State} (hs : Keeps s₀ s) :
    Completes s₀ (execCollCfgWrite h tmo s) := by
  unfold Machine.execCollCfgWrite
  exact .ite (.next (.collStatus hs)) (.next (.collStatus (.wr hs)))

theorem Keeps.unclaimed {s : State} {h : Half} {p : Packet} (hs : Keeps s₀ s) :
    Keeps s₀ (unclaimed s h p) := by
  unfold Machine.unclaimed
  extract_lets +onlyGivenNames gid e
  split
  · exact .inc hs
  · extract_lets +onlyGivenNames next holds
    refine .ite (.inc hs) ?_
    refine .ite hs ?_
    refine .ite (.inc hs) ?_
    refine .ite ?_ (.upd hs)
    split
    next t eht =>
      have ht : Keeps s₀ t := OnSome.get (.takeGranules hs) eht
      exact .upd ht
    · exact .inc hs

theorem Keeps.collPacket {s : State} {c : Coll} {d : Chain} {p : Packet} (hs : Keeps s₀ s) :
    Keeps s₀ (collPacket s c d p) := by
  unfold Machine.collPacket
  refine .ite (.ite hs (.ite (.collWCloseNotch (.collWRingCts (.ringWork hs))) (.ite (.collWCloseNotch (.collWRingDone
      (.ringWork hs))) hs))) ?_
  refine .ite (.ite hs (.ite (.collWCloseNotch (.collWTakeValue (.collWork hs))) (.collWCloseNotch (.collWTakeBcast (.collWork hs))))) ?_
  refine .ite hs ?_
  extract_lets +onlyGivenNames w
  have hw : Keeps s₀ w.s := .collWork hs
  exact .collWClose (.collWBind (.iteOn CollW.s (.collWTakeCts hw) (.iteOn CollW.s (.collWTakeDone hw) (.collWTakeCounts hw))) (fun _
      ha => .collWPump ha))

theorem Keeps.collReceive {s : State} {h : Half} {p : Packet} (hs : Keeps s₀ s) :
    Keeps s₀ (collReceive s h p) := by
  unfold Machine.collReceive
  split
  · split
    · exact .collPacket (.putColl hs)
    · exact hs
  · exact .unclaimed hs

theorem OnSome.takeLocal {s : State} {h : Half} {f : Packet → Bool} (hs : Keeps s₀ s) :
    OnSome (fun q => Keeps s₀ q.2) (takeLocal s h f) := by
  unfold Machine.takeLocal
  extract_lets +onlyGivenNames odd s0 s1
  have hs0 : Keeps s₀ s0 := .upd hs
  have hs1 : Keeps s₀ s1 := .ite hs0 (.inc hs0)
  exact .mapAny (fun _ => .upd hs1)

theorem Completes.onPacket {s : State} {h : Half} {f : Packet → Bool} {g : State → Packet → State} (hs : Keeps s₀ s)
    (hg : ∀ u v, Keeps s₀ u → Keeps s₀ (g u v)) :
    Completes s₀ (onPacket s h f g) := by
  unfold Machine.onPacket
  split
  next q ehq =>
    have hq : Keeps s₀ q.2 := OnSome.getSnd (.takeLocal hs) ehq
    exact .next (hg _ _ hq)
  · exact .next hs

theorem Completes.execCtsReceive {h : Half} {s : State} (hs : Keeps s₀ s) :
    Completes s₀ (execCtsReceive h s) := by
  unfold Machine.execCtsReceive
  exact .onPacket hs (fun _ _ ht => .collReceive ht)

theorem Completes.execDoneReceive {h : Half} {s : State} (hs : Keeps s₀ s) :
    Completes s₀ (execDoneReceive h s) := by
  unfold Machine.execDoneReceive
  exact .onPacket hs (fun _ _ ht => .collReceive ht)

theorem Completes.execCountsReceive {h : Half} {s : State} (hs : Keeps s₀ s) :
    Completes s₀ (execCountsReceive h s) := by
  unfold Machine.execCountsReceive
  exact .onPacket hs (fun _ _ ht => .collReceive ht)

theorem Completes.execNotchValueReceive {h : Half} {s : State} (hs : Keeps s₀ s) :
    Completes s₀ (execNotchValueReceive h s) := by
  unfold Machine.execNotchValueReceive
  exact .onPacket hs (fun _ _ ht => .collReceive ht)

theorem Completes.execNotchBcastReceive {h : Half} {s : State} (hs : Keeps s₀ s) :
    Completes s₀ (execNotchBcastReceive h s) := by
  unfold Machine.execNotchBcastReceive
  exact .onPacket hs (fun _ _ ht => .collReceive ht)

theorem Completes.execNotchAbortReceive {h : Half} {s : State} (hs : Keeps s₀ s) :
    Completes s₀ (execNotchAbortReceive h s) := by
  unfold Machine.execNotchAbortReceive
  exact .onPacket hs (fun _ _ ht => .receiveAbort ht)

theorem Completes.execCollDataReceive {h : Half} {page head fill : ℕ} {s : State} (hs : Keeps s₀ s) :
    Completes s₀ (execCollDataReceive h page head fill s) := by
  unfold Machine.execCollDataReceive
  refine .onPacket hs (fun _ _ ht => ?_)
  split
  · exact .unclaimed ht
  · extract_lets +onlyGivenNames c
    split
    · exact ht
    · refine .ite ?_ (.ite (.putColl ht) (.collData ht))
      split
      · exact .collWCloseNotch (.collWRingPacket (.ringWork ht))
      · exact ht

theorem Keeps.refuseColl {s : State} {c : Chain} {status : ℕ} (hs : Keeps s₀ s) :
    Keeps s₀ (refuseColl s c status) := by
  unfold Machine.refuseColl
  exact .mapChains (.ite (.failChain hs) (.mapChains hs))

theorem Keeps.deliverHeld {s : State} {h : Half} {gid epoch : ℕ} (hs : Keeps s₀ s) :
    Keeps s₀ (deliverHeld s h gid epoch) := by
  unfold Machine.deliverHeld
  exact .foldl (.keepPending hs) (fun _ _ ht => .collReceive ht)

theorem Keeps.startColl {s : State} {c : Chain} {g granules : ℕ} (hs : Keeps s₀ s) :
    Keeps s₀ (startColl s c g granules) := by
  unfold Machine.startColl
  extract_lets +onlyGivenNames k s1 s2 s3 s4
  have hs2 : Keeps s₀ s2 := .mapChains (.wr (.refreshColls (.upd hs)))
  have hs4 : Keeps s₀ s4 := .deliverHeld (.ite (.wakeCtxs hs2) (.ite (.collWCloseNotch (.collWNotchStart (.collWork hs2))) (.collGoOn hs2)))
  split
  · exact .ite (.collWCloseNotch (.collWRootEnd (.collWork hs4))) hs4
  · exact hs4

theorem Keeps.takeColl {s : State} {c : Chain} (hs : Keeps s₀ s) :
    Keeps s₀ (takeColl s c) := by
  unfold Machine.takeColl
  split
  · exact .refuseColl hs
  · extract_lets +onlyGivenNames e
    refine .ite (.refuseColl hs) ?_
    refine .ite hs ?_
    refine .ite (.refuseColl hs) ?_
    refine .ite (.refuseColl (.wr hs)) ?_
    refine .ite hs ?_
    refine .ite (.startColl hs) ?_
    split
    next t eht =>
      have ht : Keeps s₀ t := OnSome.get (.takeSegment hs) eht
      exact .startColl ht
    · exact .waitGranules hs

theorem Completes.execCollRun {h : Half} {ring seq : ℕ} {s : State} (hs : Keeps s₀ s) :
    Completes s₀ (execCollRun h ring seq s) := by
  unfold Machine.execCollRun
  split
  · exact .next (.takeColl hs)
  · exact .next hs

theorem Completes.execCollCtsSend {h : Half} {ring seq seg : ℕ} {s : State} (hs : Keeps s₀ s) :
    Completes s₀ (execCollCtsSend h ring seq seg s) := by
  unfold Machine.execCollCtsSend
  split
  · exact .next hs
  · refine .ite (.next (.collWCloseNotch (.collWRingAsk (.ringWork hs)))) ?_
    split
    · exact .next (.collWClose (.collWSendCts (.collWork hs)))
    · exact .next hs

theorem Completes.execCollTimerExpire {h : Half} {ring seq : ℕ} {s : State} (hs : Keeps s₀ s) :
    Completes s₀ (execCollTimerExpire h ring seq s) := by
  unfold Machine.execCollTimerExpire
  split
  · exact .ite (.next (.originateAbort hs)) (.next hs)
  · exact .next hs

theorem Completes.execColl {h : Half} {ring seq : ℕ} {s : State} (hs : Keeps s₀ s) :
    Completes s₀ (execColl h ring seq s) := by
  unfold Machine.execColl
  refine .runChain hs (fun _ => ?_)
  split
  · exact .takeColl hs
  · exact .ite hs (.collGoOn hs)

/-! ### Machine/Kv.lean -/

theorem Completes.kvRun {s : State} {h : Half} {ring seq sub : ℕ} {f : Chain → Request → State} (hs : Keeps s₀ s)
    (hf : ∀ u v, Keeps s₀ (f u v)) :
    Completes s₀ (kvRun s h ring seq sub f) := by
  unfold Machine.kvRun
  refine .runChain hs (fun _ => ?_)
  refine .ite hs ?_
  split
  · exact hs
  · exact .ite (.endChain hs) (hf _ _)

theorem Keeps.onChain {s : State} {c : Chain} {f : Chain → Chain} (hs : Keeps s₀ s) :
    Keeps s₀ (onChain s c f) := by
  unfold Machine.onChain
  exact .mapChains hs

theorem Keeps.wakeSlots {s : State} {h : Half} (hs : Keeps s₀ s) :
    Keeps s₀ (wakeSlots s h) := by
  unfold Machine.wakeSlots
  exact .wakeCtxs hs

theorem Keeps.allocRow {x : Context} {r : Request} {b : List Byte} {slot g p : ℕ} {u : Run} (hu : Keeps s₀ u.s) :
    Keeps s₀ (allocRow x r b slot g p u).s := by
  unfold Machine.allocRow
  extract_lets +onlyGivenNames m d e aux fmt z heads row pre k rk rv
  have hrv : Keeps s₀ rv.1.s := .runRead (.runRead hu)
  exact .runMap (.iteOn (fun q : Run × List Byte => q.1.s) (.runRead hrv) hrv) (fun _ hs => .countNum (.foldl (.store hs) (fun _ _
      ht => .store ht)))

theorem Keeps.appendReach {r : Request} {slot : ℕ} {u : Run} (hu : Keeps s₀ u.s) :
    Keeps s₀ (appendReach r slot u).s := by
  unfold Machine.appendReach
  exact .iteOn Run.s hu (.refusePage hu)

theorem Keeps.allocRows {x : Context} {r : Request} {b : List Byte} {slot g : ℕ} {n : List ℕ} {u : Run} (hu : Keeps s₀ u.s) :
    Keeps s₀ (allocRows x r b slot g n u).2.s := by
  induction n generalizing x r b slot g u with
  | nil =>
    rw [Machine.allocRows]
    exact hu
  | cons kb rest ih =>
    rw [Machine.allocRows]
    exact .iteOn (fun q : ℕ × Run => q.2.s) (.iteOn Run.s hu (.allocRow hu)) (ih (.iteOn Run.s hu (.allocRow hu)))

theorem Keeps.copyHeld {s : State} {r : Request} {q : ℕ × ℕ × ℕ} {slot : ℕ} (hs : Keeps s₀ s) :
    Keeps s₀ (copyHeld s r q slot) := by
  unfold Machine.copyHeld
  exact .freeSlot (.setEntry (.writePage hs))

theorem Keeps.allocSlotFor {o : AllocOut} {r : Request} {b : List Byte} {n : ℕ} {q : ℕ × ℕ × ℕ} (ho : Keeps s₀ o.s) :
    Keeps s₀ (allocSlotFor o r b n q).1.s := by
  unfold Machine.allocSlotFor
  extract_lets +onlyGivenNames e
  refine .iteOn (fun q : AllocOut × Option (Option ℕ) => q.1.s) ?_ ?_
  · split
    next slot t eht =>
      have ht : Keeps s₀ t := Answers.of_got (.allocSlot ho) eht
      exact .setEntry ht
    next t eht =>
      have ht : Keeps s₀ t := Answers.of_wait (.allocSlot ho) eht
      exact ht
    next t eht =>
      have ht : Keeps s₀ t := Answers.of_none (.allocSlot ho) eht
      exact ht
  · refine .iteOn (fun q : AllocOut × Option (Option ℕ) => q.1.s) ?_ ho
    split
    next slot t eht =>
      have ht : Keeps s₀ t := Answers.of_got (.allocSlot ho) eht
      exact .copyHeld ht
    next t eht =>
      have ht : Keeps s₀ t := Answers.of_wait (.allocSlot ho) eht
      exact ht
    next t eht =>
      have ht : Keeps s₀ t := Answers.of_none (.allocSlot ho) eht
      exact ht

theorem Keeps.allocPages {x : Option Context} {r : Request} {b : List Byte} {n : ℕ} {n' : List (ℕ × ℕ × ℕ)} {o : AllocOut}
    (ho : Keeps s₀ o.s) :
    Keeps s₀ (allocPages x r b n n' o).s := by
  induction n' generalizing x r b n o with
  | nil =>
    rw [Machine.allocPages]
    exact ho
  | cons q rest ih =>
    rw [Machine.allocPages]
    split
    · exact .allocSlotFor ho
    · extract_lets +onlyGivenNames o1 u s1
      have ho1 : Keeps s₀ o1.s := .allocSlotFor ho
      have hu : Keeps s₀ u.2.s := by
        unfold u
        split
        · exact .allocRows (.appendReach (.touchLayer ho1))
        · exact .touchLayer ho1
      have hs1 : Keeps s₀ s1 := .setRequest hu
      split
      · exact hs1
      · exact ih (.setEntry hs1)

theorem Keeps.endContexts {s : State} {c : Chain} (hs : Keeps s₀ s) :
    Keeps s₀ (endContexts s c) := by
  unfold Machine.endContexts
  exact .settleChain (.foldl hs (fun _ _ ha => .endContext ha))

theorem Keeps.allocGo {s : State} {c : Chain} {r : Request} {x : Option Context} (hs : Keeps s₀ s) :
    Keeps s₀ (allocGo s c r x) := by
  unfold Machine.allocGo
  extract_lets +onlyGivenNames cover o
  have ho : Keeps s₀ o.s := .allocPages hs
  refine .ite (.onChain ho) ?_
  extract_lets +onlyGivenNames q s1
  have hs1 : Keeps s₀ s1 := .onChain (.allocClose ho)
  split
  · exact .ctxAccessFail hs1
  · exact .endContexts (.onChain hs1)
  · exact .onChain hs1

theorem Completes.execKvAlloc {h : Half} {ring seq : ℕ} {s : State} (hs : Keeps s₀ s) :
    Completes s₀ (execKvAlloc h ring seq s) := by
  unfold Machine.execKvAlloc
  refine .kvRun hs (fun _ _ => ?_)
  refine .ite (.endContexts (.onChain hs)) ?_
  refine .ite (.allocGo hs) ?_
  split
  · exact .allocGo hs
  · exact hs

theorem Completes.execKvFree {h : Half} {ring seq : ℕ} {s : State} (hs : Keeps s₀ s) :
    Completes s₀ (execKvFree h ring seq s) := by
  unfold Machine.execKvFree
  exact .kvRun hs (fun _ _ => .endDetail (.wakeSlots (.foldl hs (fun _ _ ht => .freePage ht))))

theorem Keeps.setPins {s : State} {r : Request} {b : List Byte} {pin : Bool} (hs : Keeps s₀ s) :
    Keeps s₀ (setPins s r b pin).1 := by
  unfold Machine.setPins
  exact .foldlOn Prod.fst hs (fun _ _ ha => .iteOn Prod.fst (.setEntry ha) ha)

theorem Keeps.startFetches {c : Chain} {r : Request} {wait : Bool} {n : ℕ} {n' : List (ℕ × ℕ × ℕ)} {a : State × List (ℕ × ℕ)}
    (ha : Keeps s₀ a.1) :
    Keeps s₀ (startFetches c r wait n n' a).1 := by
  induction n' generalizing c r wait n a with
  | nil =>
    rw [Machine.startFetches]
    exact ha
  | cons q rest ih =>
    rw [Machine.startFetches]
    refine .iteOn Prod.fst (ih (.joinTransfer ha)) ?_
    refine .iteOn Prod.fst (ih ha) ?_
    refine .iteOn Prod.fst (ih ha) ?_
    refine .iteOn Prod.fst (ih ha) ?_
    split
    next slot t eht =>
      have ht : Keeps s₀ t := Answers.of_got (.allocSlot ha) eht
      exact ih (.startFetch ht)
    next t eht =>
      have ht : Keeps s₀ t := Answers.of_wait (.allocSlot ha) eht
      exact ht
    next t eht =>
      have ht : Keeps s₀ t := Answers.of_none (.allocSlot ha) eht
      exact ih ht

theorem Completes.execKvPin {h : Half} {ring seq : ℕ} {s : State} (hs : Keeps s₀ s) :
    Completes s₀ (execKvPin h ring seq s) := by
  unfold Machine.execKvPin
  refine .kvRun hs (fun _ _ => ?_)
  extract_lets +onlyGivenNames p own q s1
  have hs1 : Keeps s₀ s1 := .onChain (.startFetches (.iteOn Prod.fst hs (.setPins hs)))
  exact .ite hs1 (.onChain hs1)

theorem Completes.execKvUnpin {h : Half} {ring seq : ℕ} {s : State} (hs : Keeps s₀ s) :
    Completes s₀ (execKvUnpin h ring seq s) := by
  unfold Machine.execKvUnpin
  exact .kvRun hs (fun _ _ => .endDetail (.setPins hs))

theorem Keeps.startSpills {c : Chain} {r : Request} {n : List (ℕ × ℕ × ℕ)} {a : State × ℕ} (ha : Keeps s₀ a.1) :
    Keeps s₀ (startSpills c r n a).1 := by
  induction n generalizing c r a with
  | nil =>
    rw [Machine.startSpills]
    exact ha
  | cons q rest ih =>
    rw [Machine.startSpills]
    refine .iteOn Prod.fst (ih ha) ?_
    refine .iteOn Prod.fst ha ?_
    refine .iteOn Prod.fst ha ?_
    refine .iteOn Prod.fst ha ?_
    refine .iteOn Prod.fst (.refusePage ha) ?_
    split
    next t eht =>
      have ht : Keeps s₀ t := OnSome.get (.startSpill ha) eht
      exact ih ht
    · exact ha

theorem Completes.execKvSpill {h : Half} {ring seq : ℕ} {s : State} (hs : Keeps s₀ s) :
    Completes s₀ (execKvSpill h ring seq s) := by
  unfold Machine.execKvSpill
  refine .kvRun hs (fun _ _ => ?_)
  refine .ite hs ?_
  extract_lets +onlyGivenNames q s1
  have hs1 : Keeps s₀ s1 := .ite hs (.onChain (.startSpills hs))
  exact .ite hs1 (.onChain hs1)

theorem Completes.execKvPrefetch {h : Half} {ring seq : ℕ} {s : State} (hs : Keeps s₀ s) :
    Completes s₀ (execKvPrefetch h ring seq s) := by
  unfold Machine.execKvPrefetch
  refine .kvRun hs (fun _ _ => ?_)
  refine .ite hs ?_
  extract_lets +onlyGivenNames q s1
  have hs1 : Keeps s₀ s1 := .onChain (.startFetches hs)
  exact .ite hs1 (.onChain hs1)

theorem Keeps.takeGen {s : State} {h : Half} {p : ℕ} (hs : Keeps s₀ s) :
    Keeps s₀ (takeGen s h p).2 := by
  unfold Machine.takeGen
  exact .wr hs

theorem Keeps.undoSpill {s : State} {r : Request} {t : Transfer} {status : ℕ} (hs : Keeps s₀ s) :
    Keeps s₀ (undoSpill s r t status) := by
  unfold Machine.undoSpill
  exact .mapChains (.dropTransfer (.freeValleyPage (.setEntry hs)))

theorem Keeps.issueSpill {s : State} {r : Request} {t : Transfer} (hs : Keeps s₀ s) :
    Keeps s₀ (issueSpill s r t) := by
  unfold Machine.issueSpill
  extract_lets +onlyGivenNames e
  refine .ite (.wakeSlots (.undoSpill hs)) ?_
  split
  · exact .undoSpill hs
  · refine .ite (.undoSpill (.refusePage hs)) ?_
    extract_lets +onlyGivenNames g c w a b
    have ha : Keeps s₀ a.2 := .writeAt (.takeGen hs)
    have hb : Keeps s₀ b.2 := .iteOn Prod.snd (.writeAt ha) ha
    exact .ite (.undoSpill hb) (.wakeSlots (.dropTransfer (.bump (.inc (.freeSlot (.setEntry hb))))))

theorem Keeps.spillDown {h : Half} {p low n : ℕ} {s : State} (hs : Keeps s₀ s) :
    Keeps s₀ (spillDown h p low n s) := by
  induction n generalizing h p low s with
  | zero =>
    rw [Machine.spillDown]
    exact hs
  | succ n ih =>
    rw [Machine.spillDown]
    refine .ite hs ?_
    split
    next t eht =>
      have ht : Keeps s₀ t := OnSome.get (.autoSpill hs) eht
      exact ih ht
    · exact hs

theorem Completes.execValleySpillStart {h : Half} {p : ℕ} {s : State} (hs : Keeps s₀ s) :
    Completes s₀ (execValleySpillStart h p s) := by
  unfold Machine.execValleySpillStart
  exact .ite (.next hs) (.next (.spillDown hs))

theorem Completes.execValleySpillIssued {h : Half} {num layer head page : ℕ} {s : State} (hs : Keeps s₀ s) :
    Completes s₀ (execValleySpillIssued h num layer head page s) := by
  unfold Machine.execValleySpillIssued
  split
  · exact .next hs
  · refine .ite (.next (.wakeSlots (.endDiscarded hs))) ?_
    split
    · exact .next hs
    · exact .ite (.next (.undoSpill hs)) (.next (.goTransfer hs (fun _ _ hu => .issueSpill hu)))

theorem Keeps.shipFail {s : State} {c : Chain} {t : Transfer} {status : ℕ} (hs : Keeps s₀ s) :
    Keeps s₀ (shipFail s c t status) := by
  unfold Machine.shipFail
  extract_lets +onlyGivenNames page
  clear_value page
  split
  · exact hs
  · exact .setChain (.cutPages hs)

theorem Keeps.failWaiters {s : State} {t : Transfer} {status : ℕ} (hs : Keeps s₀ s) :
    Keeps s₀ (failWaiters s t status) := by
  unfold Machine.failWaiters
  refine .foldl hs (fun _ _ hu => ?_)
  split
  · exact hu
  · exact .ite (.onChain hu) (.ite (.shipFail hu) (.endContexts (.onChain (.foldl hu (fun _ _ hv => .noteAttn hv)))))

theorem Keeps.failFetch {s : State} {r : Request} {t : Transfer} {status st slot : ℕ} (hs : Keeps s₀ s) :
    Keeps s₀ (failFetch s r t status st slot) := by
  unfold Machine.failFetch
  exact .wakeSlots (.failWaiters (.dropTransfer (.freeSlot (.setEntry hs))))

theorem Keeps.landFetch {s : State} {r : Request} {t : Transfer} {data : List Byte} (hs : Keeps s₀ s) :
    Keeps s₀ (landFetch s r t data) := by
  unfold Machine.landFetch
  extract_lets +onlyGivenNames e s1 s2
  have hs2 : Keeps s₀ s2 := .freeValleyPage (.bump (.inc (.setEntry (.writePage hs))))
  exact .ringsGoOn (.wakeCtxs (.mapChains (.dropTransfer (.ite (.histSample hs2) hs2))))

theorem Keeps.checkFetch {s : State} {r : Request} {t : Transfer} (hs : Keeps s₀ s) :
    Keeps s₀ (checkFetch s r t) := by
  unfold Machine.checkFetch
  extract_lets +onlyGivenNames h w ns a b
  have hb : Keeps s₀ b.2.1 := .readTimed (.readTimed hs)
  refine .ite (.failFetch hb) ?_
  extract_lets +onlyGivenNames e gen
  split
  · exact .failFetch hb
  · extract_lets +onlyGivenNames m
    clear_value m
    split
    · exact .landFetch hb
    · exact .inc (.failFetch hb)

theorem Completes.execValleyPrefetchLand {h : Half} {num layer head page : ℕ} {s : State} (hs : Keeps s₀ s) :
    Completes s₀ (execValleyPrefetchLand h num layer head page s) := by
  unfold Machine.execValleyPrefetchLand
  split
  · exact .next hs
  · refine .ite (.next (.wakeSlots (.endDiscarded hs))) ?_
    split
    · exact .next hs
    · exact .next (.goTransfer hs (fun _ _ hu => .checkFetch hu))

theorem Keeps.lookAhead {r : Request} {n : List (ℕ × ℕ × ℕ)} {s : State} (hs : Keeps s₀ s) :
    Keeps s₀ (lookAhead r n s).1 := by
  induction n generalizing r s with
  | nil =>
    rw [Machine.lookAhead]
    exact hs
  | cons q rest ih =>
    rw [Machine.lookAhead]
    refine .iteOn Prod.fst (ih hs) ?_
    refine .iteOn Prod.fst hs ?_
    split
    next slot t eht =>
      have ht : Keeps s₀ t := Answers.of_got (.allocSlot hs) eht
      exact ih (.startFetch ht)
    next t eht =>
      have ht : Keeps s₀ t := Answers.of_wait (.allocSlot hs) eht
      exact ht
    next t eht =>
      have ht : Keeps s₀ t := Answers.of_none (.allocSlot hs) eht
      exact ht

theorem Completes.execLookaheadPrefetch {h : Half} {num layer : ℕ} {s : State} (hs : Keeps s₀ s) :
    Completes s₀ (execLookaheadPrefetch h num layer s) := by
  unfold Machine.execLookaheadPrefetch
  split
  · exact .next hs
  · refine .ite (.next hs) ?_
    extract_lets +onlyGivenNames m ls q
    have hq : Keeps s₀ q.1 := .lookAhead hs
    exact .next (.ite (.setRequest hq) hq)

theorem Completes.execEvictSlotHandover {h : Half} {num : ℕ} {s : State} (hs : Keeps s₀ s) :
    Completes s₀ (execEvictSlotHandover h num s) := by
  unfold Machine.execEvictSlotHandover
  split
  · exact .next hs
  · exact .ite (.next hs) (.next (.wakeCtxs (.upd hs)))

theorem Keeps.hostPage {s : State} {h : Half} {num layer head page : ℕ} (hs : Keeps s₀ s) :
    Keeps s₀ (hostPage s h num layer head page) := by
  unfold Machine.hostPage
  split
  · exact .ite hs (.failFetch hs)
  · exact hs

theorem Completes.execHostAccessFail {h : Half} {point : HostPoint} {s : State} (hs : Keeps s₀ s) :
    Completes s₀ (execHostAccessFail h point s) := by
  unfold Machine.execHostAccessFail
  split
  · split
    · exact .next (.failEngine hs)
    · exact .next hs
  · split
    · exact .ite (.next (.setChain hs)) (.next hs)
    · exact .next hs
  · split
    · exact .ite (.next (.ctxAccessFail hs)) (.next hs)
    · exact .next hs
  · exact .next (.hostPage hs)

theorem Keeps.kvLast {s : State} {h : Half} {st : ℕ} (hs : Keeps s₀ s) :
    Keeps s₀ (kvLast s h st) := by
  unfold Machine.kvLast
  exact .wr hs

theorem Keeps.freshSlots {s : State} {h : Half} (hs : Keeps s₀ s) :
    Keeps s₀ (freshSlots s h) := by
  unfold Machine.freshSlots
  extract_lets +onlyGivenNames count u
  have hu : Keeps s₀ u := .wipe hs
  exact .refreshNodes (.wr (.foldl (.foldl (.upd hu) (fun _ _ ht => .wr ht)) (fun _ _ ht => .wr ht)))

theorem Keeps.kvStore {s : State} {h : Half} {reg i v : ℕ} (hs : Keeps s₀ s) :
    Keeps s₀ (kvStore s h reg i v) := by
  unfold Machine.kvStore
  split
  · exact .wr (.wr hs)
  · exact .wr hs
  · exact .wr (.wr (.wr hs))
  · exact .wr (.wr hs)
  · exact .wr hs

theorem Completes.execKvQuotaWrite {h : Half} {reg : Fin 5} {i v : ℕ} {s : State} (hs : Keeps s₀ s) :
    Completes s₀ (execKvQuotaWrite h reg i v s) := by
  unfold Machine.execKvQuotaWrite
  refine .ite (.next hs) ?_
  extract_lets +onlyGivenNames s1
  have hs1 : Keeps s₀ s1 := .kvStore hs
  exact .ite (.next (.kvLast hs)) (.next (.kvLast (.ite (.freshSlots hs1) hs1)))

theorem Completes.execValleyConfigWrite {h : Half} {p : Fin 64} {reg : Fin 3} {v : ℕ} {s : State} (hs : Keeps s₀ s) :
    Completes s₀ (execValleyConfigWrite h p reg v s) := by
  unfold Machine.execValleyConfigWrite
  refine .ite (.next hs) ?_
  refine .ite (.next (.kvLast hs)) ?_
  extract_lets +onlyGivenNames s1
  have hs1 : Keeps s₀ s1 := by
    unfold s1
    split
    · exact .wr hs
    · exact .wr hs
    · exact .wr (.wr hs)
  exact .next (.kvLast hs1)

/-! ### Machine/KvRecord.lean -/

theorem Keeps.needPages {c : Chain} {r : Request} {l : List (ℕ × ℕ × ℕ)} {s : State} (hs : Keeps s₀ s) :
    Keeps s₀ (needPages c r l s).1 := by
  unfold Machine.needPages
  extract_lets +onlyGivenNames away
  refine .iteOn Prod.fst hs ?_
  extract_lets +onlyGivenNames q
  have hq : Keeps s₀ q.1 := .startFetches hs
  exact .iteOn Prod.fst hq hq

theorem Keeps.ownCopies {r : Request} {rewritten : ℕ → Bool} {n : List (ℕ × ℕ × ℕ)} {s : State} (hs : Keeps s₀ s) :
    Keeps s₀ (ownCopies r rewritten n s).1 := by
  induction n generalizing r rewritten s with
  | nil =>
    rw [Machine.ownCopies]
    exact hs
  | cons q rest ih =>
    rw [Machine.ownCopies]
    refine .iteOn Prod.fst (ih hs) ?_
    split
    next slot t eht =>
      have ht : Keeps s₀ t := Answers.of_got (.allocSlot hs) eht
      exact .iteOn Prod.fst (ih (.setEntry (.writePage ht))) (ih (.copyHeld ht))
    next t eht =>
      have ht : Keeps s₀ t := Answers.of_wait (.allocSlot hs) eht
      exact ht
    next t eht =>
      have ht : Keeps s₀ t := Answers.of_none (.allocSlot hs) eht
      exact ht

theorem Keeps.rollbackList {s : State} {c : Chain} (hs : Keeps s₀ s) :
    Keeps s₀ (rollbackList s c).2.1 := by
  unfold Machine.rollbackList
  exact .iteOn (fun q : ℕ × State × List ℕ => q.2.1) hs (.readAt hs)

theorem Keeps.moveRow {r : Request} {l g : ℕ} {s : State} {q : ℕ × ℕ} (hs : Keeps s₀ s) :
    Keeps s₀ (moveRow r l g s q) := by
  unfold Machine.moveRow
  exact .ite (.foldl (.store hs) (fun _ _ ht => .store ht)) hs

theorem Keeps.rollbackLayer {r : Request} {pos0 : ℕ} {offs : List ℕ} {a : State × ℕ} {l : ℕ} (ha : Keeps s₀ a.1) :
    Keeps s₀ (rollbackLayer r pos0 offs a l).1 := by
  unfold Machine.rollbackLayer
  exact .setLen (.foldl (.foldl (.foldl ha (fun _ _ ht => .foldl ht (fun _ _ ha' => .moveRow ha'))) (fun _ _ ht => .freePage ht)) (fun _ _
      ht => .ite (.setEntry ht) ht))

theorem Completes.execKvRollback {h : Half} {ring seq : ℕ} {s : State} (hs : Keeps s₀ s) :
    Completes s₀ (execKvRollback h ring seq s) := by
  unfold Machine.execKvRollback
  refine .kvRun hs (fun _ _ => ?_)
  extract_lets +onlyGivenNames b ls q offs
  have hq : Keeps s₀ q.2.1 := .rollbackList hs
  refine .ite (.endDetail hs) ?_
  refine .ite (.endDetail hq) ?_
  refine .ite (.endDetail hq) ?_
  extract_lets +onlyGivenNames pages n1
  have hn1 : Keeps s₀ n1.1 := .needPages hq
  split
  · exact hn1
  · exact .endDetail hn1
  · split
    · exact .endDetail (.refusePage hn1)
    · extract_lets +onlyGivenNames moved n2
      have hn2 : Keeps s₀ n2.1 := .ownCopies hn1
      split
      · exact hn2
      · exact .endDetail hn2
      · exact .endDetail (.wakeSlots (.foldlOn Prod.fst hn2 (fun _ _ ha => .rollbackLayer ha)))

theorem Keeps.recordPage {r : Request} {pack : Bool} {key : Option ℕ} {o : RecOut} {q : ℕ × ℕ × ℕ} (ho : Keeps s₀ o.s) :
    Keeps s₀ (recordPage r pack key o q).s := by
  unfold Machine.recordPage
  extract_lets +onlyGivenNames m e
  refine .iteOn RecOut.s ho ?_
  extract_lets +onlyGivenNames p
  split
  · exact ho
  · exact .takeGen ho

theorem Keeps.pauseRecord {s : State} {r : Request} {pack : Bool} {key : Option ℕ} {l : List (ℕ × ℕ × ℕ)} (hs : Keeps s₀ s) :
    Keeps s₀ (pauseRecord s r pack key l).1.s := by
  unfold Machine.pauseRecord
  extract_lets +onlyGivenNames m o hd body g tag
  have ho : Keeps s₀ o.s := .foldlOn RecOut.s hs (fun _ _ ha => .recordPage ha)
  have htag : Keeps s₀ tag.1 := by
    unfold tag
    split
    · exact ho
    · exact .takeGen ho
  exact htag

theorem Completes.execKvPause {h : Half} {ring seq : ℕ} {s : State} (hs : Keeps s₀ s) :
    Completes s₀ (execKvPause h ring seq s) := by
  unfold Machine.execKvPause
  refine .kvRun hs (fun _ _ => ?_)
  extract_lets +onlyGivenNames m aux l pack host size key
  refine .ite (.endDetail hs) ?_
  refine .ite (.endDetail hs) ?_
  extract_lets +onlyGivenNames n
  have hn : Keeps s₀ n.1 := .needPages hs
  split
  · exact hn
  · exact .endDetail hn
  · split
    · exact .endDetail (.refusePage hn)
    · extract_lets +onlyGivenNames o w
      have ho : Keeps s₀ o.1.s := .pauseRecord hn
      have hw : Keeps s₀ w.2 := .iteOn Prod.snd ho (.writeAt ho)
      exact .ite (.endDetail hw) (.endDetail (.wakeSlots (.setRequest (.inc (.inc (.foldl hw (fun _ _ ht => .freePage ht)))))))

theorem Keeps.readRecord {s : State} {c : Chain} {r : Request} (hs : Keeps s₀ s) :
    Keeps s₀ (readRecord s c r).s := by
  unfold Machine.readRecord
  extract_lets +onlyGivenNames m w a
  have ha : Keeps s₀ a.2.1 := .readAt hs
  exact .iteOn RecIn.s ha (.ite ha (.readAt ha))

theorem Keeps.recordData {c : Chain} {r : Request} {pack : Bool} {k : ℕ} {n : List RecDesc} {a : State × ℕ × List (Option (List Byte))}
    (ha : Keeps s₀ a.1) :
    Keeps s₀ (recordData c r pack k n a).1 := by
  induction n generalizing c r pack k a with
  | nil =>
    rw [Machine.recordData]
    exact ha
  | cons d rest ih =>
    rw [Machine.recordData]
    exact .iteOn Prod.fst (ih ha) (ih (.readAt ha))

theorem Keeps.resumeSlots {r : Request} {n : ℕ} {a : State × List ℕ} (ha : Keeps s₀ a.1) :
    Keeps s₀ (resumeSlots r n a).1 := by
  induction n generalizing r a with
  | zero =>
    rw [Machine.resumeSlots]
    exact ha
  | succ n ih =>
    rw [Machine.resumeSlots]
    split
    next slot t eht =>
      have ht : Keeps s₀ t := Answers.of_got (.allocSlot ha) eht
      exact ih ht
    next t eht =>
      have ht : Keeps s₀ t := Answers.of_wait (.allocSlot ha) eht
      exact ht
    next t eht =>
      have ht : Keeps s₀ t := Answers.of_none (.allocSlot ha) eht
      exact ht

theorem Keeps.restorePage {r : Request} {a : State × List ℕ} {p : RecDesc × Option (List Byte)} (ha : Keeps s₀ a.1) :
    Keeps s₀ (restorePage r a p).1 := by
  unfold Machine.restorePage
  extract_lets +onlyGivenNames d pin
  split
  · exact .setEntry ha
  · exact .setEntry (.writePage (.inc (.inc ha)))
  · exact ha

theorem Keeps.evictLost {s : State} {r : Request} {kept : List (ℕ × ℕ × ℕ)} (hs : Keeps s₀ s) :
    Keeps s₀ (evictLost s r kept) := by
  unfold Machine.evictLost
  exact .foldl hs (fun _ _ ht => .ite (.setEntry ht) ht)

theorem Keeps.restoreRecord {s : State} {r : Request} {i : RecIn} {data : List (Option (List Byte))} {slots : List ℕ} (hs : Keeps s₀ s) :
    Keeps s₀ (restoreRecord s r i data slots) := by
  unfold Machine.restoreRecord
  exact .setRequest (.evictLost (.foldlOn Prod.fst (.store hs) (fun _ _ ha => .restorePage ha)))

theorem Keeps.failResume {s : State} {c : Chain} {r : Request} {slots : List ℕ} {status : ℕ} (hs : Keeps s₀ s) :
    Keeps s₀ (failResume s c r slots status) := by
  unfold Machine.failResume
  exact .onChain (.wakeSlots (.foldl hs (fun _ _ ht => .freeSlot ht)))

theorem Completes.execKvResume {h : Half} {ring seq : ℕ} {s : State} (hs : Keeps s₀ s) :
    Completes s₀ (execKvResume h ring seq s) := by
  unfold Machine.execKvResume
  refine .kvRun hs (fun _ _ => ?_)
  refine .ite (.endDetail hs) ?_
  extract_lets +onlyGivenNames i pack
  have hi : Keeps s₀ i.s := .readRecord hs
  refine .ite (.failResume hi) ?_
  extract_lets +onlyGivenNames d o
  have hd : Keeps s₀ d.1 := .recordData hi
  clear_value o
  split
  · exact .failResume hd
  · refine .ite (.failResume hd) ?_
    refine .ite (.failResume hd) ?_
    extract_lets +onlyGivenNames n q
    have hq : Keeps s₀ q.1 := .resumeSlots hd
    split
    · exact .onChain hq
    · exact .failResume hq
    · exact .onChain (.restoreRecord hq)

/-! ### Machine/Pfx.lean -/

theorem Keeps.pfxTokens {s : State} {c : Chain} (hs : Keeps s₀ s) :
    Keeps s₀ (pfxTokens s c).2.1 := by
  unfold Machine.pfxTokens
  exact .iteOn (fun q : ℕ × State × List ℕ => q.2.1) hs (.readAt hs)

theorem Keeps.useNode {s : State} {h : Half} {idx : ℕ} (hs : Keeps s₀ s) :
    Keeps s₀ (useNode s h idx) := by
  unfold Machine.useNode
  exact .upd hs

theorem Keeps.takeRef {s : State} {r : Request} {idx : ℕ} (hs : Keeps s₀ s) :
    Keeps s₀ (takeRef s r idx) := by
  unfold Machine.takeRef
  exact .setRequest (.refNode (.useNode hs))

theorem Keeps.mapNode {s : State} {r : Request} {n : PfxNode} {chunk : ℕ} (hs : Keeps s₀ s) :
    Keeps s₀ (mapNode s r n chunk) := by
  unfold Machine.mapNode
  exact .foldl hs (fun _ _ ht => .setEntry ht)

theorem Keeps.countChunk {s : State} {h : Half} {hit collide : Bool} (hs : Keeps s₀ s) :
    Keeps s₀ (countChunk s h hit collide) := by
  unfold Machine.countChunk
  refine .ite (.bump (.inc hs)) ?_
  extract_lets +onlyGivenNames s1
  have hs1 : Keeps s₀ s1 := .bump (.inc hs)
  exact .ite (.inc hs1) hs1

theorem Keeps.pfxWalk {r : Request} {ns key n c prev : ℕ} {parent : Option ℕ} {t : List ℕ} {s : State} (hs : Keeps s₀ s) :
    Keeps s₀ (pfxWalk r ns key n c prev parent t s).1 := by
  induction n generalizing r ns key c prev parent t s with
  | zero =>
    rw [Machine.pfxWalk]
    exact hs
  | succ n ih =>
    rw [Machine.pfxWalk]
    refine .iteOn Prod.fst hs ?_
    extract_lets +onlyGivenNames hash q s1
    have hs1 : Keeps s₀ s1 := .countChunk hs
    split
    · exact hs1
    · exact ih (.takeRef (.mapNode hs1))

theorem Keeps.copyLeaf {r : Request} {leaf : PfxNode} {chunk i : ℕ} {n : List (ℕ × ℕ)} {s : State} (hs : Keeps s₀ s) :
    Keeps s₀ (copyLeaf r leaf chunk i n s).1 := by
  induction n generalizing r leaf chunk i s with
  | nil =>
    rw [Machine.copyLeaf]
    exact hs
  | cons p rest ih =>
    rw [Machine.copyLeaf]
    split
    next slot t eht =>
      have ht : Keeps s₀ t := Answers.of_got (.allocSlot hs) eht
      exact ih (.setEntry (.writePage ht))
    next t eht =>
      have ht : Keeps s₀ t := Answers.of_wait (.allocSlot hs) eht
      exact ht
    next t eht =>
      have ht : Keeps s₀ t := Answers.of_none (.allocSlot hs) eht
      exact ht

theorem Keeps.endLookup {s : State} {c : Chain} {r : Request} {full part pages status : ℕ} (hs : Keeps s₀ s) :
    Keeps s₀ (endLookup s c r full part pages status) := by
  unfold Machine.endLookup
  extract_lets +onlyGivenNames s1
  have hs1 : Keeps s₀ s1 := .foldl hs (fun _ _ ht => .setLen ht)
  exact .onChain (.iteOn Prod.snd hs1 (.writeAt hs1))

theorem Keeps.lookupLeaf {s : State} {c : Chain} {r : Request} {full leaf : ℕ} (hs : Keeps s₀ s) :
    Keeps s₀ (lookupLeaf s c r full leaf) := by
  unfold Machine.lookupLeaf
  extract_lets +onlyGivenNames pairs
  split
  · exact .endLookup hs
  · extract_lets +onlyGivenNames q
    have hq : Keeps s₀ q.1 := .copyLeaf hs
    split
    · exact .onChain hq
    · exact .endLookup (.refNode hq)
    · exact .endLookup (.refNode (.useNode hq))

theorem Completes.execKvPrefixLookup {h : Half} {ring seq : ℕ} {s : State} (hs : Keeps s₀ s) :
    Completes s₀ (execKvPrefixLookup h ring seq s) := by
  unfold Machine.execKvPrefixLookup
  refine .kvRun hs (fun _ _ => ?_)
  extract_lets +onlyGivenNames m
  refine .ite (.lookupLeaf hs) ?_
  refine .ite (.endDetail hs) ?_
  extract_lets +onlyGivenNames ns
  split
  · exact .endDetail hs
  · extract_lets +onlyGivenNames t
    have ht : Keeps s₀ t.2.1 := .pfxTokens hs
    refine .ite (.endDetail ht) ?_
    extract_lets +onlyGivenNames w
    have hw : Keeps s₀ w.1 := .pfxWalk ht
    split
    · exact .endLookup hw
    · exact .lookupLeaf (.onChain (.refNode hw))

theorem OnSome.takeNs {h : Half} {ns k n : ℕ} {a : State × List ℕ} (ha : Keeps s₀ a.1) :
    OnSome (fun q => Keeps s₀ q.1) (takeNs h ns k n a) := by
  induction n generalizing h ns k a with
  | zero =>
    rw [Machine.takeNs]
    exact .some ha
  | succ n ih =>
    rw [Machine.takeNs]
    refine .ite .none ?_
    split
    · exact .none
    · exact ih (.takeSlots (.drawFree ha))

theorem Keeps.withReclaim {h : Half} {ns : ℕ} {stay : Option ℕ} {f : State → Option State} {n : ℕ} {s : State}
    (hf : ∀ u, Keeps s₀ u → OnSome (Keeps s₀) (f u)) (hs : Keeps s₀ s) :
    Keeps s₀ (withReclaim h ns stay f n s).1 := by
  induction n generalizing h ns stay f s with
  | zero =>
    rw [Machine.withReclaim]
    split
    next t eht =>
      have ht : Keeps s₀ t := OnSome.get (hf _ hs) eht
      exact ht
    · exact hs
  | succ n ih =>
    rw [Machine.withReclaim]
    split
    next t eht =>
      have ht : Keeps s₀ t := OnSome.get (hf _ hs) eht
      exact ht
    · split
      · exact ih (fun _ ha => hf _ ha) (.dropNode hs)
      · exact hs

theorem Keeps.writeList {s : State} {h : Half} {slot : ℕ} {l : List ℕ} (hs : Keeps s₀ s) :
    Keeps s₀ (writeList s h slot l) := by
  unfold Machine.writeList
  exact .store hs

theorem Keeps.retag {s : State} {h : Half} {ns p k : ℕ} {l : List ℕ} (hs : Keeps s₀ s) :
    Keeps s₀ (retag s h ns p k l) := by
  unfold Machine.retag
  exact .ite hs (.foldl hs (fun _ _ ht => .addHeld (.addHeld (.tagSlots ht))))

theorem Keeps.shareChunk {s : State} {r : Request} {ns chunk : ℕ} (hs : Keeps s₀ s) :
    Keeps s₀ (shareChunk s r ns chunk) := by
  unfold Machine.shareChunk
  exact .foldl hs (fun _ _ ht => .setEntry ht)

theorem OnSome.insertNode {r : Request} {ns hash check chunk : ℕ} {parent : Option ℕ} {t : List ℕ} {s : State} (hs : Keeps s₀ s) :
    OnSome (Keeps s₀) (insertNode r ns hash check chunk parent t s) := by
  unfold Machine.insertNode
  extract_lets +onlyGivenNames h k slots moved
  split
  · exact .none
  · refine .ite .none ?_
    refine .map (.takeNs hs) (fun _ hq => ?_)
    extract_lets +onlyGivenNames list n s1
    have hs1 : Keeps s₀ s1 := .writeList (.retag hq)
    exact .takeRef (.shareChunk (.refreshNodes (.upd hs1)))

theorem OnSome.insertLeaf {r : Request} {ns check chunk : ℕ} {parent : Option ℕ} {t : List ℕ} {s : State} (hs : Keeps s₀ s) :
    OnSome (Keeps s₀) (insertLeaf r ns check chunk parent t s) := by
  unfold Machine.insertLeaf
  extract_lets +onlyGivenNames h k src
  refine .ite .none ?_
  split
  · exact .none
  · refine .bind (.takeNs hs) (fun _ hq => ?_)
    refine .map (.takeNs hq) (fun _ hl => ?_)
    extract_lets +onlyGivenNames list s1 n s2
    have hs2 : Keeps s₀ s2 := .writeList (.foldl hl (fun _ _ hu => .writePage hu))
    exact .refreshNodes (.upd hs2)

theorem Keeps.leafRoom {s : State} {h : Half} {ns : ℕ} {parent : Option ℕ} (hs : Keeps s₀ s) :
    Keeps s₀ (leafRoom s h ns parent) := by
  unfold Machine.leafRoom
  extract_lets +onlyGivenNames l
  refine .ite hs ?_
  split
  · exact .dropNode hs
  · exact hs

theorem Keeps.insertWalk {r : Request} {ns key n c prev : ℕ} {parent : Option ℕ} {t : List ℕ} {a : State × ℕ} (ha : Keeps s₀ a.1) :
    Keeps s₀ (insertWalk r ns key n c prev parent t a).1 := by
  induction n generalizing r ns key c prev parent t a with
  | zero =>
    rw [Machine.insertWalk]
    exact ha
  | succ n ih =>
    rw [Machine.insertWalk]
    refine .iteOn Prod.fst ha ?_
    refine .iteOn Prod.fst ?_ ?_
    · extract_lets +onlyGivenNames check
      split
      next u ehu =>
        have hu : Keeps s₀ u := Keeps.of_fst (.withReclaim (fun _ ha' => .insertLeaf ha') (.leafRoom ha)) ehu
        exact hu
      next u ehu =>
        have hu : Keeps s₀ u := Keeps.of_fst (.withReclaim (fun _ ha' => .insertLeaf ha') (.leafRoom ha)) ehu
        exact hu
    · extract_lets +onlyGivenNames e hash check q
      split
      · exact ih (.useNode ha)
      · exact ih (.inc (.useNode ha))
      · extract_lets +onlyGivenNames s0
        have hs0 : Keeps s₀ s0 := .ite (.inc ha) ha
        split
        next u ehu =>
          have hu : Keeps s₀ u := Keeps.of_fst (.withReclaim (fun _ ha' => .insertNode ha') hs0) ehu
          exact hu
        next u ehu =>
          have hu : Keeps s₀ u := Keeps.of_fst (.withReclaim (fun _ ha' => .insertNode ha') hs0) ehu
          exact ih hu

theorem Completes.execKvPrefixInsert {h : Half} {ring seq : ℕ} {s : State} (hs : Keeps s₀ s) :
    Completes s₀ (execKvPrefixInsert h ring seq s) := by
  unfold Machine.execKvPrefixInsert
  refine .kvRun hs (fun _ _ => ?_)
  refine .ite (.endDetail hs) ?_
  split
  · exact .endDetail (.refusePage hs)
  · extract_lets +onlyGivenNames ns
    split
    · exact .endDetail hs
    · extract_lets +onlyGivenNames t
      have ht : Keeps s₀ t.2.1 := .pfxTokens hs
      exact .ite (.endDetail ht) (.endDetail (.insertWalk ht))

theorem Keeps.flushNodes {h : Half} {n : ℕ} {s : State} (hs : Keeps s₀ s) :
    Keeps s₀ (flushNodes h n s) := by
  induction n generalizing h s with
  | zero =>
    rw [Machine.flushNodes]
    exact hs
  | succ n ih =>
    rw [Machine.flushNodes]
    split
    · exact ih (.dropNode hs)
    · exact hs

theorem Completes.execPfxFlush {h : Half} {s : State} (hs : Keeps s₀ s) :
    Completes s₀ (execPfxFlush h s) := by
  unfold Machine.execPfxFlush
  exact .next (.flushNodes hs)

/-! ### Machine/Sched.lean -/

theorem Keeps.charge {s : State} {h : Half} {fn n : ℕ} (hs : Keeps s₀ s) :
    Keeps s₀ (charge s h fn n) := by
  unfold Machine.charge
  refine .ite hs ?_
  extract_lets +onlyGivenNames s1
  have hs1 : Keeps s₀ s1 := .bumpPart (.wr hs)
  exact .ite hs1 (.wr hs1)

theorem Keeps.chargeRequest {s : State} {num n : ℕ} (hs : Keeps s₀ s) :
    Keeps s₀ (chargeRequest s num n) := by
  unfold Machine.chargeRequest
  split
  · exact .ite hs (.setRequest hs)
  · exact hs

theorem Keeps.noteGate {s : State} {c : Chain} (hs : Keeps s₀ s) :
    Keeps s₀ (noteGate s c) := by
  unfold Machine.noteGate
  exact .ite hs (.setChain (.inc hs))

theorem Keeps.refillAll {s : State} {h : Half} (hs : Keeps s₀ s) :
    Keeps s₀ (refillAll s h) := by
  unfold Machine.refillAll
  exact .foldl (.clearCur hs) (fun _ _ ht => .wr (.wr (.wr ht)))

theorem Completes.execBudgetRefill {h : Half} {s : State} (hs : Keeps s₀ s) :
    Completes s₀ (execBudgetRefill h s) := by
  unfold Machine.execBudgetRefill
  exact .ite (.next hs) (.next (.refillAll (.wr hs)))

theorem Keeps.admitChain {s : State} {c : Chain} {cores : List ℕ} (hs : Keeps s₀ s) :
    Keeps s₀ (admitChain s c cores) := by
  unfold Machine.admitChain
  extract_lets +onlyGivenNames h fn s1 s2 s3
  have hs3 : Keeps s₀ s3 := .refreshFetched (.logSched (.histSample (.bumpPart (.setChain hs))))
  exact .ite (.setChain (.chargeRequest (.charge (.setRequest hs3)))) (.ite (.wr hs3) hs3)

theorem Keeps.admitGen {s : State} {c : Chain} (hs : Keeps s₀ s) :
    Keeps s₀ (admitGen s c).2 := by
  unfold Machine.admitGen
  exact .setChain (.readAt hs)

theorem Keeps.loadContexts {s : State} {c : Chain} {slots : List (ℕ × ℕ)} (hs : Keeps s₀ s) :
    Keeps s₀ (loadContexts s c slots) := by
  unfold Machine.loadContexts
  exact .foldl hs (fun _ _ ht => .loadCtx ht)

theorem Keeps.admitCompute {s : State} {c : Chain} {slots : List (ℕ × ℕ)} (hs : Keeps s₀ s) :
    Keeps s₀ (admitCompute s c slots) := by
  unfold Machine.admitCompute
  extract_lets +onlyGivenNames cores
  refine .ite (.loadContexts (.setChain hs)) ?_
  extract_lets +onlyGivenNames s1
  have hs1 : Keeps s₀ s1 := .admitChain hs
  refine .ite ?_ (.loadContexts hs1)
  extract_lets +onlyGivenNames g
  have hg : Keeps s₀ g.2 := .admitGen hs1
  exact .ite (.setChain hg) (.loadContexts hg)

theorem Keeps.admitUrgent {s : State} {c : Chain} {x : Context} (hs : Keeps s₀ s) :
    Keeps s₀ (admitUrgent s c x) := by
  unfold Machine.admitUrgent
  exact .setSlotOwner (.setCtx (.admitChain hs))

theorem Keeps.tryAdmit {s : State} {c : Chain} (hs : Keeps s₀ s) :
    Keeps s₀ (tryAdmit s c) := by
  unfold Machine.tryAdmit
  refine .ite (.admitChain hs) ?_
  refine .ite hs ?_
  refine .ite ?_ (.ite (.setChain hs) (.ite (.admitCompute hs) hs))
  split
  · exact .admitUrgent hs
  · exact hs

theorem Keeps.selectIn {s : State} {h : Half} {cls : ℕ} (hs : Keeps s₀ s) :
    Keeps s₀ (selectIn s h cls) := by
  unfold Machine.selectIn
  extract_lets +onlyGivenNames qs weight cur
  split
  · exact hs
  · extract_lets +onlyGivenNames total s1
    have hs1 : Keeps s₀ s1 := .foldl hs (fun _ _ ht => .wr ht)
    split
    · exact hs1
    · extract_lets +onlyGivenNames s2
      have hs2 : Keeps s₀ s2 := .setChain (.wr hs1)
      split
      · exact .tryAdmit hs2
      · exact hs2

theorem Keeps.noteGates {s : State} {h : Half} (hs : Keeps s₀ s) :
    Keeps s₀ (noteGates s h) := by
  unfold Machine.noteGates
  refine .foldl hs (fun _ _ ht => ?_)
  split
  · exact .ite (.noteGate ht) ht
  · exact ht

theorem Completes.execSchedSelect {h : Half} {s : State} (hs : Keeps s₀ s) :
    Completes s₀ (execSchedSelect h s) := by
  unfold Machine.execSchedSelect
  refine .ite (.next hs) ?_
  extract_lets +onlyGivenNames s1
  have hs1 : Keeps s₀ s1 := .clearCur (.noteGates hs)
  refine .ite (.next hs1) ?_
  split
  · exact .next (.clearCur (.selectIn hs1))
  · exact .next hs1

theorem Completes.execSlotGrant {h : Half} {core : ℕ} {slot : Fin 2} {s : State} (hs : Keeps s₀ s) :
    Completes s₀ (execSlotGrant h core slot s) := by
  unfold Machine.execSlotGrant
  refine .ite (.next hs) ?_
  refine .ite ?_ ?_
  · split
    · exact .next hs
    · extract_lets +onlyGivenNames s1
      have hs1 : Keeps s₀ s1 := .setChain hs
      split
      · exact .next (.clearCur (.tryAdmit hs1))
      · exact .next hs1
  · split
    · refine .ite ?_ (.next hs)
      split
      · exact .next (.clearCur (.tryAdmit hs))
      · exact .next hs
    · split
      · exact .next (.clearCur (.tryAdmit hs))
      · exact .next hs

theorem Completes.execUrgentStandingDispatch {h : Half} {ring : ℕ} {s : State} (hs : Keeps s₀ s) :
    Completes s₀ (execUrgentStandingDispatch h ring s) := by
  unfold Machine.execUrgentStandingDispatch
  exact .ite (.next (.wr (.wr (.loadCtx hs)))) (.next hs)

theorem Keeps.schedStatus {s : State} {h : Half} {st : ℕ} (hs : Keeps s₀ s) :
    Keeps s₀ (schedStatus s h st) := by
  unfold Machine.schedStatus
  exact .wr hs

theorem Completes.execRingSchedWrite {h : Half} {ring v : ℕ} {s : State} (hs : Keeps s₀ s) :
    Completes s₀ (execRingSchedWrite h ring v s) := by
  unfold Machine.execRingSchedWrite
  refine .ite (.next hs) ?_
  extract_lets +onlyGivenNames st s1
  have hs1 : Keeps s₀ s1 := .schedStatus hs
  exact .ite (.next (.wr (.wr (.wr (.wr hs1))))) (.next hs1)

theorem Completes.execBudgetCfgWrite {h : Half} {p : Fin 65} {v : ℕ} {s : State} (hs : Keeps s₀ s) :
    Completes s₀ (execBudgetCfgWrite h p v s) := by
  unfold Machine.execBudgetCfgWrite
  exact .ite (.next (.schedStatus hs)) (.next (.wr (.wr (.schedStatus hs))))

theorem Completes.execPartyCfgWrite {h : Half} {q : Fin 65} {v : ℕ} {s : State} (hs : Keeps s₀ s) :
    Completes s₀ (execPartyCfgWrite h q v s) := by
  unfold Machine.execPartyCfgWrite
  exact .ite (.next (.schedStatus hs)) (.next (.wr (.schedStatus hs)))

theorem Completes.execAdpAllocWrite {h : Half} {p : Fin 65} {base count : ℕ} {s : State} (hs : Keeps s₀ s) :
    Completes s₀ (execAdpAllocWrite h p base count s) := by
  unfold Machine.execAdpAllocWrite
  refine .ite (.next hs) ?_
  extract_lets +onlyGivenNames st s1
  have hs1 : Keeps s₀ s1 := .schedStatus hs
  exact .ite (.next (.wr (.wr hs1))) (.next hs1)

/-! ### Machine/Gen.lean -/

theorem Keeps.writeStop {s : State} {w : Who} {a : ℕ} {o : StopOut} (hs : Keeps s₀ s) :
    Keeps s₀ (writeStop s w a o).2 := by
  unfold Machine.writeStop
  extract_lets +onlyGivenNames q
  have hq : Keeps s₀ q.2 := .writeAt hs
  exact .iteOn Prod.snd hq (.writeAt hq)

theorem Keeps.startSeq {c : Chain} {p : State × GenStep} {q : ℕ × ℕ × ℕ × ℕ} (hp : Keeps s₀ p.1) :
    Keeps s₀ (startSeq c p q).1 := by
  unfold Machine.startSeq
  extract_lets +onlyGivenNames stopAt w s g
  refine .iteOn Prod.fst hp ?_
  refine .iteOn Prod.fst hp ?_
  extract_lets +onlyGivenNames a d
  have hd : Keeps s₀ d.2.1 := .readAt hp
  clear_value d
  refine .iteOn Prod.fst hd ?_
  extract_lets +onlyGivenNames r o v t
  have hv : Keeps s₀ v.2 := .writeStop hd
  have ht : Keeps s₀ t := .ite hv (.setRequest hv)
  clear_value v t
  exact .iteOn Prod.fst ht (.iteOn Prod.fst ht ht)

theorem Keeps.startGen {s : State} {c : Chain} (hs : Keeps s₀ s) :
    Keeps s₀ (startGen s c) := by
  unfold Machine.startGen
  exact .setChain (.foldl (.charge (.foldlOn Prod.fst hs (fun _ _ ha => .startSeq ha))) (fun _ _ ht => .chargeRequest ht))

theorem Keeps.endGen {s : State} {c : Chain} {steps : ℕ} (hs : Keeps s₀ s) :
    Keeps s₀ (endGen s c steps) := by
  unfold Machine.endGen
  exact .setChain (.dropCtxs hs)

theorem Keeps.cancelGen {s : State} {c : Chain} (hs : Keeps s₀ s) :
    Keeps s₀ (cancelGen s c) := by
  unfold Machine.cancelGen
  exact .endGen (.foldl hs (fun _ _ ht => .genRecord ht))

theorem Completes.execGenStepStart {h : Half} {ring seq : ℕ} {s : State} (hs : Keeps s₀ s) :
    Completes s₀ (execGenStepStart h ring seq s) := by
  unfold Machine.execGenStepStart
  refine .runChain hs (fun _ => ?_)
  refine .ite hs ?_
  refine .ite (.cancelGen hs) ?_
  refine .ite hs ?_
  refine .ite (.noteGate hs) ?_
  refine .ite hs ?_
  refine .ite ?_ (.clearCur (.startGen hs))
  extract_lets +onlyGivenNames s1
  have hs1 : Keeps s₀ s1 := .beginGroup hs
  split
  · exact .clearCur (.startGen hs1)
  · exact hs1

theorem Keeps.genLogits {x : Context} {c : Chain} {row : Groups} {r : Run} (hr : Keeps s₀ r.s) :
    Keeps s₀ (genLogits x c row r).1.s := by
  unfold Machine.genLogits
  exact .foldlOn (fun q : Run × List ℕ => q.1.s) hr (fun _ _ hq => .runRow hq)

theorem Keeps.genSeq {x : Context} {c : Chain} {r : Run} {q : ℕ × ℕ × ℕ × ℕ} (hr : Keeps s₀ r.s) :
    Keeps s₀ (genSeq x c r q).s := by
  unfold Machine.genSeq
  extract_lets +onlyGivenNames k hf mh o r0 row l v r1
  have hr1 : Keeps s₀ r1.s := .runMap (.genLogits (.runRow (.runCtx hr))) (fun _ hs => .countNum (.drawFree hs))
  exact .runMap (.iteOn Run.s hr1 (.runWrite hr1)) (fun _ hs => .setRequest hs)

theorem Keeps.genAll {x : Context} {c : Chain} {n : List (ℕ × ℕ × ℕ × ℕ)} {o : GenOut} (ho : Keeps s₀ o.s) :
    Keeps s₀ (genAll x c n o).s := by
  induction n generalizing x c o with
  | nil =>
    rw [Machine.genAll]
    exact ho
  | cons q rest ih =>
    rw [Machine.genAll]
    refine .iteOn GenOut.s ho ?_
    extract_lets +onlyGivenNames r
    have hr : Keeps s₀ r.s := .genSeq ho
    split
    · exact ih hr
    · exact ih hr

theorem Keeps.endGenStep {s : State} {c : Chain} {x : Context} {g : GenStep} {o : GenOut} (hs : Keeps s₀ s) :
    Keeps s₀ (endGenStep s c x g o) := by
  unfold Machine.endGenStep
  extract_lets +onlyGivenNames now fails st detail s1 s2 s3
  have hs1 : Keeps s₀ s1 := .setChain (.genRecord hs)
  have hs2 : Keeps s₀ s2 := by
    unfold s2
    split
    · exact .ctxAccessFail hs1
    · exact hs1
  have hs3 : Keeps s₀ s3 := .dropCtxs hs2
  split
  · exact hs3
  · exact .ite (.endGen hs3) (.ite (.cancelGen hs3) hs3)

theorem Completes.execGenStep {h : Half} {ring seq : ℕ} {s : State} (hs : Keeps s₀ s) :
    Completes s₀ (execGenStep h ring seq s) := by
  unfold Machine.execGenStep
  refine .runChain hs (fun _ => ?_)
  refine .ite hs ?_
  split
  · extract_lets +onlyGivenNames o
    have ho : Keeps s₀ o.s := .genAll hs
    split
    · exact .endGenStep ho
    · exact ho
  · exact hs

theorem Keeps.copyOnce {c : Chain} {src dst len : ℕ} {s : State} (hs : Keeps s₀ s) :
    Keeps s₀ (copyOnce c src dst len s).2 := by
  unfold Machine.copyOnce
  extract_lets +onlyGivenNames w q
  have hq : Keeps s₀ q.2.1 := .iteOn (fun q : ℕ × State × List Byte => q.2.1) hs (.readAt hs)
  exact .iteOn Prod.snd hq (.iteOn Prod.snd hq (.writeAt hq))

theorem Keeps.copyEntries {c : Chain} {stop : Bool} {n : List ℕ} {s : State} (hs : Keeps s₀ s) :
    Keeps s₀ (copyEntries c stop n s) := by
  induction n generalizing c stop s with
  | nil =>
    rw [Machine.copyEntries]
    exact hs
  | cons i r ih =>
    rw [Machine.copyEntries]
    refine .ite (ih (.copyOnce hs)) ?_
    extract_lets +onlyGivenNames t
    have ht : Keeps s₀ t := .setChain (.copyOnce hs)
    exact .ite ht (ih ht)

theorem Completes.execCopy {h : Half} {ring seq : ℕ} {s : State} (hs : Keeps s₀ s) :
    Completes s₀ (execCopy h ring seq s) := by
  unfold Machine.execCopy
  refine .runHub hs (fun _ => ?_)
  refine .withGranule hs (fun _ hs' => ?_)
  refine .ite ?_ (.endChain (.copyOnce hs'))
  extract_lets +onlyGivenNames s1
  have hs1 : Keeps s₀ s1 := .beginGroup hs'
  split
  · exact .settleChain (.copyEntries hs1)
  · exact hs1

theorem Completes.execAdapterLoad {h : Half} {ring seq : ℕ} {s : State} (hs : Keeps s₀ s) :
    Completes s₀ (execAdapterLoad h ring seq s) := by
  unfold Machine.execAdapterLoad
  refine .runHub hs (fun _ => ?_)
  refine .withGranule hs (fun _ hs' => ?_)
  extract_lets +onlyGivenNames i w dst q v
  have hq : Keeps s₀ q.2.1 := .readAt hs'
  have hv : Keeps s₀ v.2 := .iteOn Prod.snd hq (.writeAt hq)
  exact .ite (.endChain (.wr (.wr (.wr (.wr hv))))) (.endChain (.wr hv))

/-! ### Machine/Egress.lean -/

theorem Keeps.egrStatus {s : State} {h : Half} {st : ℕ} (hs : Keeps s₀ s) :
    Keeps s₀ (egrStatus s h st) := by
  unfold Machine.egrStatus
  exact .wr hs

theorem Completes.execShipPlanWrite {h : Half} {k : Fin 256} {word : Fin 32} {v : ℕ} {s : State} (hs : Keeps s₀ s) :
    Completes s₀ (execShipPlanWrite h k word v s) := by
  unfold Machine.execShipPlanWrite
  extract_lets +onlyGivenNames off a x s1
  have hs1 : Keeps s₀ s1 := hs.setPlans (Memory.wf_writeN _ _)
  exact .ite (.ite (.next (.egrStatus hs)) (.next (.egrStatus hs1))) (.ite (.next (.egrStatus hs)) (.next (.egrStatus hs1)))

theorem Keeps.refreshOpen {s : State} {h : Half} {party : ℕ} (hs : Keeps s₀ s) :
    Keeps s₀ (refreshOpen s h party) := by
  unfold Machine.refreshOpen
  exact .wr hs

theorem Keeps.egressGive {s : State} {h : Half} {before : ℕ} (hs : Keeps s₀ s) :
    Keeps s₀ (egressGive s h before) := by
  unfold Machine.egressGive
  exact .ite hs (.giveGranules hs)

theorem Keeps.endStream {s : State} {x : Stream} {status : ℕ} (hs : Keeps s₀ s) :
    Keeps s₀ (endStream s x status) := by
  unfold Machine.endStream
  exact .freeOrphans (.egressGive (.refreshOpen (.wr (.wr (.wr (.upd hs))))))

theorem Keeps.failStream {s : State} {x : Stream} {status : ℕ} (hs : Keeps s₀ s) :
    Keeps s₀ (failStream s x status) := by
  unfold Machine.failStream
  exact .setRequest (.raiseCause (.inc (.postEvent (.endStream hs))))

theorem Keeps.shipStream {s : State} {c : Chain} {k : ℕ} (hs : Keeps s₀ s) :
    Keeps s₀ (shipStream s c k).2.1 := by
  unfold Machine.shipStream
  extract_lets +onlyGivenNames h p id
  split
  · exact .iteOn (fun q : ℕ × State × ℕ => q.2.1) hs hs
  · refine .iteOn (fun q : ℕ × State × ℕ => q.2.1) hs ?_
    split
    · exact hs
    · refine .iteOn (fun q : ℕ × State × ℕ => q.2.1) hs ?_
      extract_lets +onlyGivenNames s1 s2
      have hs1 : Keeps s₀ s1 := .wr (.drawFree hs)
      have hs2 : Keeps s₀ s2 := .ite (.wr hs1) hs1
      exact .refreshOpen (.upd hs2)

theorem Keeps.pushPage {s : State} {h : Half} {ctx : ℕ} {p : ShipPage} (hs : Keeps s₀ s) :
    Keeps s₀ (pushPage s h ctx p) := by
  unfold Machine.pushPage
  exact .setStream hs

theorem Keeps.shipPages {c : Chain} {r : Request} {k ctx : ℕ} {n : List (ℕ × ℕ × ℕ)} {a : State × ℕ} (ha : Keeps s₀ a.1) :
    Keeps s₀ (shipPages c r k ctx n a).1 := by
  induction n generalizing c r k ctx a with
  | nil =>
    rw [Machine.shipPages]
    exact ha
  | cons q rest ih =>
    rw [Machine.shipPages]
    refine .iteOn Prod.fst ha ?_
    split
    · exact .refusePage ha
    · split
      · exact ih (.pushPage ha)
      · exact ih ha

theorem Keeps.editPage {s : State} {h : Half} {ctx no : ℕ} {f : ShipPage → Option ShipPage} (hs : Keeps s₀ s) :
    Keeps s₀ (editPage s h ctx no f) := by
  unfold Machine.editPage
  exact .setStream hs

theorem Keeps.shipWaitFailAt {a : ShipWait} {s : State} {no status : ℕ} (hs : Keeps s₀ s) :
    Keeps s₀ (ShipWait.failAt a s no status).s := by
  unfold Machine.ShipWait.failAt
  exact hs

theorem Keeps.shipResolve {c : Chain} {r : Request} {ctx : ℕ} {a : ShipWait} {p : ShipPage} (ha : Keeps s₀ a.s) :
    Keeps s₀ (shipResolve c r ctx a p).s := by
  unfold Machine.shipResolve
  extract_lets +onlyGivenNames s h e join
  refine .iteOn ShipWait.s ha ?_
  refine .iteOn ShipWait.s (.shipWaitFailAt (.refusePage ha)) ?_
  refine .iteOn ShipWait.s (.editPage ha) ?_
  refine .iteOn ShipWait.s (.joinTransfer ha) ?_
  refine .iteOn ShipWait.s ?_ (.iteOn ShipWait.s (.editPage ha) (.iteOn ShipWait.s (.shipWaitFailAt ha) (.editPage ha)))
  refine .iteOn ShipWait.s (.shipWaitFailAt ha) ?_
  refine .iteOn ShipWait.s (.shipWaitFailAt ha) ?_
  split
  next slot t eht =>
    have ht : Keeps s₀ t := Answers.of_got (.allocSlot ha) eht
    exact .startFetch ht
  next t eht =>
    have ht : Keeps s₀ t := Answers.of_wait (.allocSlot ha) eht
    exact ht
  next t eht =>
    have ht : Keeps s₀ t := Answers.of_none (.allocSlot ha) eht
    exact .shipWaitFailAt ht

theorem Keeps.shipTake {s : State} {c : Chain} {r : Request} (hs : Keeps s₀ s) :
    Keeps s₀ (shipTake s c r) := by
  unfold Machine.shipTake
  refine .ite (.endDetail hs) ?_
  split
  · exact .endDetail hs
  · extract_lets +onlyGivenNames o
    have ho : Keeps s₀ o.2.1 := .shipStream hs
    refine .ite (.endDetail ho) ?_
    extract_lets +onlyGivenNames q
    have hq : Keeps s₀ q.1 := .shipPages ho
    exact .showStreams (.setChain (.ite (.setStream hq) hq))

theorem Keeps.shipGo {s : State} {c : Chain} {r : Request} (hs : Keeps s₀ s) :
    Keeps s₀ (shipGo s c r) := by
  unfold Machine.shipGo
  split
  · exact .endDetail hs
  · extract_lets +onlyGivenNames mine a o s1
    have ha : Keeps s₀ a.s := .foldlOn ShipWait.s hs (fun _ _ ha' => .shipResolve ha')
    have ho : Keeps s₀ o.s := by
      unfold o
      split
      · exact .cutPages ha
      · exact ha
    have hs1 : Keeps s₀ s1 := .setChain ho
    exact .ite hs1 (.showStreams (.setChain hs1))

theorem Completes.execShip {h : Half} {ring seq : ℕ} {s : State} (hs : Keeps s₀ s) :
    Completes s₀ (execShip h ring seq s) := by
  unfold Machine.execShip
  refine .runHub hs (fun _ => ?_)
  split
  · exact .endChain hs
  · refine .ite (.endDetail hs) ?_
    refine .ite (.shipGo hs) ?_
    extract_lets +onlyGivenNames s1
    have hs1 : Keeps s₀ s1 := .shipTake hs
    split
    · exact .endsNow (.ite hs1 (.shipGo hs1))
    · exact hs1

theorem OnSome.egressCell {s : State} {h : Half} (hs : Keeps s₀ s) :
    OnSome (Keeps s₀) (egressCell s h) := by
  unfold Machine.egressCell
  exact .ite (.some hs) (.takeGranules hs)

theorem Keeps.emitFrame {s : State} {h : Half} {frame : List Byte} (hs : Keeps s₀ s) :
    Keeps s₀ (emitFrame s h frame) := by
  unfold Machine.emitFrame
  exact .bump (.bump (.inc (.inc (.emit (.drawFree hs)))))

theorem Keeps.sendFrame {s : State} {x : Stream} {d : Dgram} {new : Bool} {frame : List Byte} (hs : Keeps s₀ s) :
    Keeps s₀ (sendFrame s x d new frame) := by
  unfold Machine.sendFrame
  extract_lets +onlyGivenNames y s3
  have hs3 : Keeps s₀ s3 := .emitFrame hs
  exact .showStreams (.wr (.setStream (.ite hs3 (.bump (.inc hs3)))))

theorem Completes.execDatagramSend {h : Half} {s : State} (hs : Keeps s₀ s) :
    Completes s₀ (execDatagramSend h s) := by
  unfold Machine.execDatagramSend
  refine .ite (.next hs) ?_
  extract_lets +onlyGivenNames s0 cell due ready
  have hs0 : Keeps s₀ s0 := .egressSettle hs
  split
  · exact .next (.ite hs0 (.waitGranules hs0))
  · split
    · exact .next (.sendFrame (.ite hs0 (OnSome.getD (.egressCell hs0) hs0)))
    · exact .next hs0

theorem Keeps.ptpRefresh {s : State} {h : Half} (hs : Keeps s₀ s) :
    Keeps s₀ (ptpRefresh s h) := by
  unfold Machine.ptpRefresh
  refine .ite (.ite (.wr hs) hs) ?_
  extract_lets +onlyGivenNames u
  have hu : Keeps s₀ u := .wr hs
  exact .upd hu

theorem Completes.execEgrEnable {h : Half} {s : State} (hs : Keeps s₀ s) :
    Completes s₀ (execEgrEnable h s) := by
  unfold Machine.execEgrEnable
  exact .ite (.next hs) (.ite (.next (.egrStatus hs)) (.ite (.next (.egrStatus hs)) (.ite (.next (.egrStatus hs)) (.next (.ptpRefresh (.wr
      (.wr (.egrStatus hs))))))))

theorem Keeps.egrLinkDown {s : State} {h : Half} (hs : Keeps s₀ s) :
    Keeps s₀ (egrLinkDown s h) := by
  unfold Machine.egrLinkDown
  exact .ite (.raiseCause (.wr hs)) hs

theorem Keeps.egrClose {s : State} {h : Half} (hs : Keeps s₀ s) :
    Keeps s₀ (egrClose s h) := by
  unfold Machine.egrClose
  exact .egrLinkDown (.ptpRefresh (.wr (.wr hs)))

theorem Completes.execEgrDisable {h : Half} {s : State} (hs : Keeps s₀ s) :
    Completes s₀ (execEgrDisable h s) := by
  unfold Machine.execEgrDisable
  exact .ite (.next (.egrStatus hs)) (.ite (.next (.egrStatus hs)) (.next (.egrClose (.egrStatus (.foldl hs (fun _ _
      ht => .failStream ht))))))

theorem Completes.execEgrConfigWrite {h : Half} {reg : Fin 7} {v : ℕ} {s : State} (hs : Keeps s₀ s) :
    Completes s₀ (execEgrConfigWrite h reg v s) := by
  unfold Machine.execEgrConfigWrite
  extract_lets +onlyGivenNames busy bad
  refine .ite (.next (.egrStatus hs)) ?_
  refine .ite (.next (.egrStatus hs)) ?_
  refine .ite (.next (.egrStatus hs)) ?_
  extract_lets +onlyGivenNames s1
  have hs1 : Keeps s₀ s1 := .egrStatus hs
  refine .next ?_
  split
  · exact .wr hs1
  · exact .wr hs1
  · exact .wr hs1
  · exact .wr hs1
  · exact .wr (.wr hs1)
  · exact .wr (.wr (.wr hs1))
  · exact .wr hs1

theorem Completes.execEgrLinkChange {h : Half} {up : Bool} {s : State} (hs : Keeps s₀ s) :
    Completes s₀ (execEgrLinkChange h up s) := by
  unfold Machine.execEgrLinkChange
  exact .ite (.ite (.next (.raiseCause (.wr hs))) (.next hs)) (.next (.egrLinkDown hs))

theorem Completes.execEgrFrameReceive {h : Half} {frame : List Byte} {s : State} (hs : Keeps s₀ s) :
    Completes s₀ (execEgrFrameReceive h frame s) := by
  unfold Machine.execEgrFrameReceive
  refine .ite (.next hs) ?_
  split
  · exact .ite (.next (.upd hs)) (.next (.inc hs))
  · exact .next (.inc hs)

theorem OnSome.takeRx {s : State} {h : Half} {type : ℕ} (hs : Keeps s₀ s) :
    OnSome (fun q => Keeps s₀ q.2) (takeRx s h type) := by
  unfold Machine.takeRx
  split
  · exact .some (.upd hs)
  · exact .none

/-- The state in the answer to a received datagram (R437) is reached by operations of the model. -/
def Received {α : Type} (s₀ : State) : Except State (State × α) → Prop
  | .error t => Keeps s₀ t
  | .ok q => Keeps s₀ q.1

theorem Received.acceptRx {s : State} {h : Half} {type : ℕ} (hs : Keeps s₀ s) : Received s₀ (acceptRx s h type) := by
  unfold Machine.acceptRx
  split
  · exact hs
  · next src p t e =>
    have ht : Keeps s₀ t := OnSome.getSnd (.takeRx hs) e
    dsimp only
    split
    · split
      · exact ht
      · exact Keeps.inc ht
    · exact Keeps.inc ht

theorem Keeps.shipSamples {s : State} {x y : Stream} (hs : Keeps s₀ s) :
    Keeps s₀ (shipSamples s x y) := by
  unfold Machine.shipSamples
  exact .foldl hs (fun _ _ ht => .ite ht (.histSample ht))

theorem Keeps.ackStream {s : State} {x : Stream} {p : List Byte} {b : List ℕ} (hs : Keeps s₀ s) :
    Keeps s₀ (ackStream s x p b) := by
  unfold Machine.ackStream
  extract_lets +onlyGivenNames n h rtt gone y1 y2 late y3 s1 s2 s3
  have hs2 : Keeps s₀ s2 := .histSample (.bump (.inc hs))
  have hs3 : Keeps s₀ s3 := .egressGive (.setStream (.ite hs2 (.shipSamples hs2)))
  exact .ite (.endStream hs3) (.ite (.ite (.endStream (.inc hs3)) (.failStream hs3)) (.showStreams (.freeOrphans hs3)))

theorem Completes.execAckReceive {h : Half} {s : State} (hs : Keeps s₀ s) : Completes s₀ (execAckReceive h s) := by
  unfold Machine.execAckReceive
  have ha : Received s₀ (acceptRx s h 8) := .acceptRx hs
  split
  · next t e => exact .next (show Received s₀ (.error t) from e ▸ ha)
  · next t x p b e => exact .next (.ackStream (show Received s₀ (.ok (t, x, p, b)) from e ▸ ha))

theorem Completes.execResetReceive {h : Half} {s : State} (hs : Keeps s₀ s) : Completes s₀ (execResetReceive h s) := by
  unfold Machine.execResetReceive
  have ha : Received s₀ (acceptRx s h 9) := .acceptRx hs
  split
  · next t e => exact .next (show Received s₀ (.error t) from e ▸ ha)
  · next t x p b e => exact .next (.failStream (show Received s₀ (.ok (t, x, p, b)) from e ▸ ha))

theorem Completes.execRetxTimerExpire {h : Half} {ctx : Fin 1024} {s : State} (hs : Keeps s₀ s) :
    Completes s₀ (execRetxTimerExpire h ctx s) := by
  unfold Machine.execRetxTimerExpire
  split
  · exact .next hs
  · split
    · exact .next hs
    · exact .ite (.next hs) (.ite (.ite (.next (.endStream (.inc hs))) (.next (.failStream hs))) (.next (.showStreams (.setStream hs))))

theorem Completes.execRateIncrease {h : Half} {ctx : Fin 1024} {s : State} (hs : Keeps s₀ s) :
    Completes s₀ (execRateIncrease h ctx s) := by
  unfold Machine.execRateIncrease
  split
  · exact .next hs
  · exact .ite (.next hs) (.next (.showStreams (.setStream hs)))

theorem Keeps.lowlandStreams {s : State} {h : Half} {status : ℕ} (hs : Keeps s₀ s) :
    Keeps s₀ (lowlandStreams s h status) := by
  unfold Machine.lowlandStreams
  exact .foldl hs (fun _ _ ht => .endStream (.ite (.emitFrame ht) ht))

/-! ### Machine/Secure.lean -/

theorem Keeps.drawKey {s : State} {w : ℕ} (hs : Keeps s₀ s) :
    Keeps s₀ (drawKey s w).2 := by
  unfold Machine.drawKey
  exact .drawFree hs

theorem Keeps.showKeys {s : State} {h : Half} (hs : Keeps s₀ s) :
    Keeps s₀ (showKeys s h) := by
  unfold Machine.showKeys
  exact .foldl hs (fun _ _ ht => .wr ht)

theorem Keeps.zeroKeys {s : State} {h : Half} {p : SecKey → Bool} (hs : Keeps s₀ s) :
    Keeps s₀ (zeroKeys s h p) := by
  unfold Machine.zeroKeys
  exact .foldl (.showKeys (.upd hs)) (fun _ _ ht => .endStream ht)

theorem Keeps.partStatus {s : State} {h : Half} {p st : ℕ} (hs : Keeps s₀ s) :
    Keeps s₀ (partStatus s h p st) := by
  unfold Machine.partStatus
  exact .wr hs

theorem Keeps.kimpStatus {s : State} {h : Half} {st : ℕ} (hs : Keeps s₀ s) :
    Keeps s₀ (kimpStatus s h st) := by
  unfold Machine.kimpStatus
  exact .wr hs

theorem Keeps.opRegs {s : State} {h : Half} {kind p : ℕ} (hs : Keeps s₀ s) :
    Keeps s₀ (opRegs s h kind p) := by
  unfold Machine.opRegs
  exact .ite (.wr hs) (.ite (.wr hs) (.ite (.wr hs) hs))

theorem Keeps.installMirror {s : State} {m : Mirror} (hs : Keeps s₀ s) :
    Keeps s₀ (installMirror s m) := by
  unfold Machine.installMirror
  extract_lets +onlyGivenNames h s1
  have hs1 : Keeps s₀ s1 := .opRegs (.showKeys (.upd hs))
  exact .ite (.raiseCause (.partStatus (.wr (.wr hs1)))) (.ite (.kimpStatus (.wr (.wr hs1))) (.ite (.raiseCause (.wr hs1)) hs1))

theorem Keeps.refuseMirror {s : State} {m : Mirror} {st : ℕ} (hs : Keeps s₀ s) :
    Keeps s₀ (refuseMirror s m st) := by
  unfold Machine.refuseMirror
  exact .ite (.partStatus (.wr hs)) (.ite (.kimpStatus hs) (.ite (.partStatus hs) hs))

theorem Keeps.startMirror {s : State} {h : Half} {kind party : ℕ} {keys : List SecKey} (hs : Keeps s₀ s) :
    Keeps s₀ (startMirror s h kind party keys) := by
  unfold Machine.startMirror
  exact .ite (.wr (.installMirror hs)) (.upd hs)

theorem Keeps.tellMirror {s : State} {h : Half} {party : ℕ} {keys : List SecKey} (hs : Keeps s₀ s) :
    Keeps s₀ (tellMirror s h party keys) := by
  unfold Machine.tellMirror
  exact .ite hs (.upd hs)

theorem Keeps.editMirror {s : State} {p : Mirror → Bool} {f : Mirror → Option Mirror} (hs : Keeps s₀ s) :
    Keeps s₀ (editMirror s p f) := by
  unfold Machine.editMirror
  exact .upd hs

theorem Keeps.peerZero {s : State} {m : Mirror} (hs : Keeps s₀ s) :
    Keeps s₀ (peerZero s m) := by
  unfold Machine.peerZero
  exact .upd hs

theorem Completes.execMirrorRecordReceive {h : Half} {s : State} (hs : Keeps s₀ s) :
    Completes s₀ (execMirrorRecordReceive h s) := by
  unfold Machine.execMirrorRecordReceive
  extract_lets +onlyGivenNames p
  split
  · exact .next hs
  · exact .ite (.next hs) (.ite (.next (.peerZero (.editMirror hs))) (.next (.editMirror hs)))

theorem Completes.execMirrorAckReceive {h : Half} {s : State} (hs : Keeps s₀ s) :
    Completes s₀ (execMirrorAckReceive h s) := by
  unfold Machine.execMirrorAckReceive
  extract_lets +onlyGivenNames p
  split
  · exact .next hs
  · exact .ite (.next (.installMirror (.editMirror hs))) (.next hs)

theorem Completes.execMirrorCommitReceive {h : Half} {s : State} (hs : Keeps s₀ s) :
    Completes s₀ (execMirrorCommitReceive h s) := by
  unfold Machine.execMirrorCommitReceive
  extract_lets +onlyGivenNames p
  split
  · exact .next hs
  · refine .ite (.next hs) ?_
    extract_lets +onlyGivenNames s1
    have hs1 : Keeps s₀ s1 := .editMirror hs
    exact .next (.ite (.upd hs1) hs1)

theorem Completes.execMirrorAckTimeout {h : Half} {s : State} (hs : Keeps s₀ s) :
    Completes s₀ (execMirrorAckTimeout h s) := by
  unfold Machine.execMirrorAckTimeout
  extract_lets +onlyGivenNames p
  split
  · exact .next hs
  · extract_lets +onlyGivenNames s1
    have hs1 : Keeps s₀ s1 := .editMirror hs
    exact .ite (.next (.wr (.installMirror hs1))) (.next (.refuseMirror hs1))

theorem Completes.execMirrorPendingTimeout {h : Half} {s : State} (hs : Keeps s₀ s) :
    Completes s₀ (execMirrorPendingTimeout h s) := by
  unfold Machine.execMirrorPendingTimeout
  exact .next (.editMirror hs)

theorem Keeps.reconcile {s : State} (hs : Keeps s₀ s) :
    Keeps s₀ (reconcile s) := by
  unfold Machine.reconcile
  exact .wr (.wr (.upd hs))

theorem Completes.execKeyReconcile {s : State} (hs : Keeps s₀ s) :
    Completes s₀ (execKeyReconcile s) := by
  unfold Machine.execKeyReconcile
  exact .ite (.next (.reconcile hs)) (.next hs)

theorem Keeps.beginRelease {s : State} {h : Half} {p : ℕ} (hs : Keeps s₀ s) :
    Keeps s₀ (beginRelease s h p) := by
  unfold Machine.beginRelease
  exact .closeRequests (.foldl (.wr (.wr hs)) (fun _ _ ht => .ringStop ht))

theorem Keeps.releaseAll {s : State} {h : Half} (hs : Keeps s₀ s) :
    Keeps s₀ (releaseAll s h) := by
  unfold Machine.releaseAll
  exact .foldl hs (fun _ _ ht => .ite (.beginRelease ht) ht)

theorem Keeps.failMirrors {s : State} {h : Half} (hs : Keeps s₀ s) :
    Keeps s₀ (failMirrors s h) := by
  unfold Machine.failMirrors
  exact .foldl (.upd hs) (fun _ _ ht => .refuseMirror ht)

theorem Keeps.dropEphemeral {s : State} {h : Half} (hs : Keeps s₀ s) :
    Keeps s₀ (dropEphemeral s h) := by
  unfold Machine.dropEphemeral
  exact .wr (.wr (.wr hs))

theorem Keeps.failImport {s : State} {h : Half} (hs : Keeps s₀ s) :
    Keeps s₀ (failImport s h) := by
  unfold Machine.failImport
  exact .ite (.kimpStatus (.dropEphemeral hs)) hs

theorem Keeps.dropSessions {s : State} {h : Half} (hs : Keeps s₀ s) :
    Keeps s₀ (dropSessions s h) := by
  unfold Machine.dropSessions
  extract_lets +onlyGivenNames u
  have hu : Keeps s₀ u := .wr hs
  exact .upd hu

theorem Keeps.zeroBlock {s : State} {h : Half} (hs : Keeps s₀ s) :
    Keeps s₀ (zeroBlock s h) := by
  unfold Machine.zeroBlock
  extract_lets +onlyGivenNames s1
  have hs1 : Keeps s₀ s1 := .failImport (.failMirrors hs)
  exact .foldl (.wr (.wr (.dropSessions (.zeroKeys (.upd hs1))))) (fun _ _ ht => .ideStop ht)

theorem Keeps.securityEnd {s : State} {h : Half} {status : ℕ} (hs : Keeps s₀ s) :
    Keeps s₀ (securityEnd s h status) := by
  unfold Machine.securityEnd
  exact .wr (.lowlandCause (.ledger (.releaseAll (.releaseAll hs))))

theorem Keeps.zeroFor {s : State} {h : Half} {status : ℕ} (hs : Keeps s₀ s) :
    Keeps s₀ (zeroFor s h status) := by
  unfold Machine.zeroFor
  exact .wr (.zeroBlock hs)

theorem Keeps.securityEvent {s : State} {h : Half} {status : ℕ} (hs : Keeps s₀ s) :
    Keeps s₀ (securityEvent s h status) := by
  unfold Machine.securityEvent
  exact .securityEnd (.zeroFor (.zeroFor hs))

theorem Keeps.zeroizeKeys {s : State} {h : Half} {p : SecKey → Bool} (hs : Keeps s₀ s) :
    Keeps s₀ (zeroizeKeys s h p) := by
  unfold Machine.zeroizeKeys
  extract_lets +onlyGivenNames t
  have ht : Keeps s₀ t := .zeroKeys hs
  exact .ite (.securityEvent ht) ht

theorem Completes.execFwRemeasure {h : Half} {ok : Bool} {s : State} (hs : Keeps s₀ s) :
    Completes s₀ (execFwRemeasure h ok s) := by
  unfold Machine.execFwRemeasure
  exact .ite (.next hs) (.next (.securityEvent hs))

theorem Completes.execSecSelftest {h : Half} {ok : Bool} {s : State} (hs : Keeps s₀ s) :
    Completes s₀ (execSecSelftest h ok s) := by
  unfold Machine.execSecSelftest
  extract_lets +onlyGivenNames s1
  have hs1 : Keeps s₀ s1 := .raiseCause hs
  exact .ite (.next hs1) (.next (.securityEvent hs1))

theorem Keeps.tamper {s : State} {h : Half} (hs : Keeps s₀ s) :
    Keeps s₀ (tamper s h) := by
  unfold Machine.tamper
  exact .securityEnd (.zeroFor (.lowlandStreams hs))

theorem Completes.execTamperDetect {h : Half} {s : State} (hs : Keeps s₀ s) :
    Completes s₀ (execTamperDetect h s) := by
  unfold Machine.execTamperDetect
  exact .next (.tamper hs)

theorem Completes.execSecZeroizeAll {h : Half} {s : State} (hs : Keeps s₀ s) :
    Completes s₀ (execSecZeroizeAll h s) := by
  unfold Machine.execSecZeroizeAll
  exact .ite (.next hs) (.next (.ledger (.tellMirror (.releaseAll (.zeroizeKeys (.failImport (.failMirrors hs)))))))

/-! ### Machine/Ledger.lean -/

theorem Keeps.openPage {s : State} {n : ℕ} (hs : Keeps s₀ s) :
    Keeps s₀ (openPage s n) := by
  unfold Machine.openPage
  extract_lets +onlyGivenNames p s1
  have hs1 : Keeps s₀ s1 := .upd hs
  exact .wr (.ite (.wr hs1) hs1)

theorem Keeps.programSlot {s : State} {r : LdgRec} {torn : Bool} (hs : Keeps s₀ s) :
    Keeps s₀ (programSlot s r torn) := by
  unfold Machine.programSlot
  extract_lets +onlyGivenNames s1
  have hs1 : Keeps s₀ s1 := .ite hs (.openPage hs)
  exact .upd hs1

theorem Keeps.dropHeld {s : State} {w : Half} {r : LdgRec} (hs : Keeps s₀ s) :
    Keeps s₀ (dropHeld s w r) := by
  unfold Machine.dropHeld
  exact .upd hs

theorem Keeps.ldgGap {s : State} {h : Half} {fromMt toMt reason : ℕ} (hs : Keeps s₀ s) :
    Keeps s₀ (ldgGap s h fromMt toMt reason) := by
  unfold Machine.ldgGap
  exact .ledger hs

theorem Keeps.gapDropped {s : State} {h : Half} (hs : Keeps s₀ s) :
    Keeps s₀ (gapDropped s h) := by
  unfold Machine.gapDropped
  exact .ite (.ldgGap (.wr (.wr hs))) hs

theorem Keeps.programNext {s : State} {w : Half} (hs : Keeps s₀ s) :
    Keeps s₀ (programNext s w) := by
  unfold Machine.programNext
  refine .ite hs ?_
  split
  · exact .ite (.gapDropped (.dropHeld (.programSlot hs))) hs
  · exact hs

theorem Completes.execLedgerProgram {s : State} (hs : Keeps s₀ s) :
    Completes s₀ (execLedgerProgram s) := by
  unfold Machine.execLedgerProgram
  split
  · exact .next (.programNext hs)
  · exact .next hs

theorem Completes.execLedgerErase {s : State} (hs : Keeps s₀ s) :
    Completes s₀ (execLedgerErase s) := by
  unfold Machine.execLedgerErase
  split
  · exact .next hs
  · refine .ite (.next hs) ?_
    extract_lets +onlyGivenNames keep pages s1
    have hs1 : Keeps s₀ s1 := .upd hs
    refine .next ?_
    clear_value pages
    split
    · exact .wr hs1
    · exact .wr hs1

theorem Keeps.takeOwn {s : State} {w : Half} (hs : Keeps s₀ s) :
    Keeps s₀ (takeOwn s w) := by
  unfold Machine.takeOwn
  exact .foldl hs (fun _ _ ht => .ldgTake (.dropHeld ht))

theorem Keeps.takeDeltas {s : State} {w : Half} (hs : Keeps s₀ s) :
    Keeps s₀ (takeDeltas s w) := by
  unfold Machine.takeDeltas
  exact .gapDropped (.foldl hs (fun _ _ ht => .ite ht (.ldgTake (.dropHeld ht))))

theorem Keeps.startLife {s : State} {sec : ℕ} (hs : Keeps s₀ s) :
    Keeps s₀ (startLife s sec) := by
  unfold Machine.startLife
  exact .wr (.wr hs)

theorem Keeps.resumeLedger {s : State} {h : Half} (hs : Keeps s₀ s) :
    Keeps s₀ (resumeLedger s h) := by
  unfold Machine.resumeLedger
  extract_lets +onlyGivenNames s1 next s2 s3
  have hs3 : Keeps s₀ s3 := .wr (.wr (.wr (.startLife (.wr hs))))
  exact .ite (.ldgGap hs3) hs3

theorem Completes.execLedgerScan {h : Half} {s : State} (hs : Keeps s₀ s) :
    Completes s₀ (execLedgerScan h s) := by
  unfold Machine.execLedgerScan
  refine .ite (.next hs) ?_
  extract_lets +onlyGivenNames foreign s1
  have hs1 : Keeps s₀ s1 := .wr (.wr hs)
  exact .ite (.next (.startLife (.wr hs1))) (.ite (.next hs1) (.next (.resumeLedger hs1)))

theorem Keeps.bootRecord {s : State} {h : Half} (hs : Keeps s₀ s) :
    Keeps s₀ (bootRecord s h) := by
  unfold Machine.bootRecord
  exact .ledger hs

theorem Keeps.adoptBoot {s : State} {h : Half} (hs : Keeps s₀ s) :
    Keeps s₀ (adoptBoot s h) := by
  unfold Machine.adoptBoot
  exact .programSlot (.wr (.upd hs))

theorem Keeps.telStatus {s : State} {h : Half} {st : ℕ} (hs : Keeps s₀ s) :
    Keeps s₀ (telStatus s h st) := by
  unfold Machine.telStatus
  exact .wr hs

theorem Completes.execLedgerAdopt {h : Half} {s : State} (hs : Keeps s₀ s) :
    Completes s₀ (execLedgerAdopt h s) := by
  unfold Machine.execLedgerAdopt
  exact .ite (.next (.telStatus hs)) (.ite (.next (.telStatus hs)) (.ite (.next (.telStatus hs)) (.next (.telStatus (.adoptBoot (.wr (.wr
      (.wr (.upd hs)))))))))

theorem Completes.execLedgerRead {h : Half} {seq : ℕ} {s : State} (hs : Keeps s₀ s) :
    Completes s₀ (execLedgerRead h seq s) := by
  unfold Machine.execLedgerRead
  exact .next (.wr (.wr (.upd hs)))

theorem Completes.execSummaryHour {s : State} (hs : Keeps s₀ s) :
    Completes s₀ (execSummaryHour s) := by
  unfold Machine.execSummaryHour
  extract_lets +onlyGivenNames hours
  split
  · exact .next hs
  · exact .ite (.next hs) (.next (.wr (.wr (.wr (.wr (.wr (.foldl (.ledger (.wr hs)) (fun _ _ ht => .wr ht))))))))

theorem Completes.execFuseBlow {k : Fin 8} {first second : Bool} {s : State} (hs : Keeps s₀ s) :
    Completes s₀ (execFuseBlow k first second s) := by
  unfold Machine.execFuseBlow
  extract_lets +onlyGivenNames due n
  split
  · exact .next hs
  · exact .ite (.next hs) (.ite (.next (.ledger (.wr (.wr hs)))) (.next (.wr (.inc hs))))

/-! ### Machine/Time.lean -/

theorem Keeps.roundEither {s : State} {num : ℤ} {den : ℕ} (hs : Keeps s₀ s) :
    Keeps s₀ (roundEither s num den).2 := by
  unfold Machine.roundEither
  exact .iteOn Prod.snd hs (.drawFree hs)

theorem Keeps.timeStatus {s : State} {h : Half} {st : ℕ} (hs : Keeps s₀ s) :
    Keeps s₀ (timeStatus s h st) := by
  unfold Machine.timeStatus
  exact .wr hs

theorem Keeps.timeState {s : State} {h : Half} {st : ℕ} (hs : Keeps s₀ s) :
    Keeps s₀ (timeState s h st) := by
  unfold Machine.timeState
  refine .ite hs ?_
  extract_lets +onlyGivenNames s1
  have hs1 : Keeps s₀ s1 := .wr hs
  exact .ite (.raiseCause hs1) (.ite (.raiseCause hs1) hs1)

theorem Keeps.enterHold {s : State} {h : Half} (hs : Keeps s₀ s) :
    Keeps s₀ (enterHold s h) := by
  unfold Machine.enterHold
  exact .wr (.wr (.timeState hs))

theorem Keeps.scheduledAct {s : State} {h : Half} {c st : ℕ} (hs : Keeps s₀ s) :
    Keeps s₀ (scheduledAct s h c st) := by
  unfold Machine.scheduledAct
  extract_lets +onlyGivenNames s1 s2
  have hs1 : Keeps s₀ s1 := .wr hs
  have hs2 : Keeps s₀ s2 := .ite (.countDrop (.skipCmp hs1)) (.ite (.countLate hs1) hs1)
  exact .ite (.postEvent hs2) (.ite hs2 (.evcAdd hs2))

theorem Keeps.pinAct {s : State} {h : Half} {c st : ℕ} (hs : Keeps s₀ s) :
    Keeps s₀ (pinAct s h c st) := by
  unfold Machine.pinAct
  extract_lets +onlyGivenNames s1
  have hs1 : Keeps s₀ s1 := .wr hs
  exact .ite (.skipCmp hs1) (.drivePin (.ite (.raiseCause hs1) hs1))

theorem Keeps.advanceCmp {s : State} {h : Half} {c t : ℕ} (hs : Keeps s₀ s) :
    Keeps s₀ (advanceCmp s h c t) := by
  unfold Machine.advanceCmp
  exact .ite (.wr hs) (.wr hs)

theorem Keeps.fireCmp {s : State} {h : Half} {c : ℕ} (hs : Keeps s₀ s) :
    Keeps s₀ (fireCmp s h c) := by
  unfold Machine.fireCmp
  extract_lets +onlyGivenNames t holder s1
  have hs1 : Keeps s₀ s1 := .advanceCmp hs
  exact .ite (.fireList hs1) (.ite (.fireList hs1) (.ite (.scheduledAct hs1) (.pinAct hs1)))

theorem Keeps.catchCmp {s : State} {h : Half} {c : ℕ} (hs : Keeps s₀ s) :
    Keeps s₀ (catchCmp s h c) := by
  unfold Machine.catchCmp
  extract_lets +onlyGivenNames t p holder clock n occ s1
  have hs1 : Keeps s₀ s1 := .skipCmp (.advanceCmp hs)
  exact .ite (.judgeList hs1) (.ite (.judgeList hs1) (.ite (.scheduledAct hs1) (.pinAct hs1)))

theorem Completes.execComparatorFire {h : Half} {c : Fin 16} {s : State} (hs : Keeps s₀ s) :
    Completes s₀ (execComparatorFire h c s) := by
  unfold Machine.execComparatorFire
  exact .ite (.next (.fireCmp hs)) (.next hs)

theorem Keeps.catchPassed {s : State} {h : Half} (hs : Keeps s₀ s) :
    Keeps s₀ (catchPassed s h) := by
  unfold Machine.catchPassed
  exact .foldl hs (fun _ _ ht => .ite (.catchCmp ht) ht)

theorem Keeps.stepFt {s : State} {h : Half} {e : ℤ} (hs : Keeps s₀ s) :
    Keeps s₀ (stepFt s h e) := by
  unfold Machine.stepFt
  extract_lets +onlyGivenNames t s1 s2 us s3
  have hs3 : Keeps s₀ s3 := .postNotice (.raiseCause (.inc (.wr (.wr hs))))
  exact .ite (.catchPassed hs3) hs3

theorem Keeps.limitSlew {s : State} {h : Half} {e : ℤ} (hs : Keeps s₀ s) :
    Keeps s₀ (limitSlew s h e) := by
  unfold Machine.limitSlew
  exact .wr (.raiseCause (.wr hs))

theorem Keeps.slew {s : State} {h : Half} {e : ℤ} {T : ℕ} (hs : Keeps s₀ s) :
    Keeps s₀ (slew s h e T) := by
  unfold Machine.slew
  exact .wr (.wr hs)

theorem Keeps.judgeLock {s : State} {h : Half} {e : ℤ} (hs : Keeps s₀ s) :
    Keeps s₀ (judgeLock s h e) := by
  unfold Machine.judgeLock
  exact .ite (.timeState (.wr (.wr hs))) (.timeState (.wr hs))

theorem Keeps.measure {s : State} {h : Half} {e : ℤ} (hs : Keeps s₀ s) :
    Keeps s₀ (measure s h e) := by
  unfold Machine.measure
  exact .ite hs (.judgeLock (.wr (.wr (.roundEither (.ite (.ite (.stepFt hs) (.limitSlew hs)) (.slew hs))))))

theorem Completes.execTimeSnap {h : Half} {s : State} (hs : Keeps s₀ s) :
    Completes s₀ (execTimeSnap h s) := by
  unfold Machine.execTimeSnap
  exact .next (.timeStatus (.wr (.wr (.wr hs))))

theorem Completes.execFtWrite {h : Half} {v : ℕ} {s : State} (hs : Keeps s₀ s) :
    Completes s₀ (execFtWrite h v s) := by
  unfold Machine.execFtWrite
  exact .ite (.next (.timeStatus (.measure hs))) (.next (.timeStatus hs))

theorem Keeps.setMtRate {s : State} {h : Half} {rate : ℤ} (hs : Keeps s₀ s) :
    Keeps s₀ (setMtRate s h rate) := by
  unfold Machine.setMtRate
  exact .ite (.wr (.wr hs)) hs

theorem Keeps.timeCtlFields {s : State} {h : Half} {v : ℕ} (hs : Keeps s₀ s) :
    Keeps s₀ (timeCtlFields s h v) := by
  unfold Machine.timeCtlFields
  exact .wr (.wr (.wr (.wr (.wr (.wr hs)))))

theorem Completes.execTimeCtlWrite {h : Half} {v : ℕ} {s : State} (hs : Keeps s₀ s) :
    Completes s₀ (execTimeCtlWrite h v s) := by
  unfold Machine.execTimeCtlWrite
  refine .ite (.next (.timeStatus hs)) ?_
  extract_lets +onlyGivenNames same s1 s2
  have hs1 : Keeps s₀ s1 := .timeCtlFields hs
  have hs2 : Keeps s₀ s2 := .ite hs1 (.ite (.wr (.timeState hs1)) (.enterHold hs1))
  exact .next (.timeStatus (.ptpRefresh (.ite (.setMtRate hs2) hs2)))

theorem Completes.execMtRateAdjust {h : Half} {s : State} (hs : Keeps s₀ s) :
    Completes s₀ (execMtRateAdjust h s) := by
  unfold Machine.execMtRateAdjust
  exact .ite (.next (.setMtRate hs)) (.ite (.next (.setMtRate hs)) (.next hs))

theorem Completes.execFtSourceTimeout {h : Half} {s : State} (hs : Keeps s₀ s) :
    Completes s₀ (execFtSourceTimeout h s) := by
  unfold Machine.execFtSourceTimeout
  exact .ite (.next (.enterHold hs)) (.next hs)

theorem Keeps.timePacket {s : State} {h : Half} {n ptype : ℕ} {transport : List Byte} (hs : Keeps s₀ s) :
    Keeps s₀ (timePacket s h n ptype transport) := by
  unfold Machine.timePacket
  exact .ite hs (.queuePacket hs)

theorem Keeps.sendBeacon {s : State} {h : Half} {n : ℕ} (hs : Keeps s₀ s) :
    Keeps s₀ (sendBeacon s h n) := by
  unfold Machine.sendBeacon
  exact .timePacket (.wr hs)

theorem Completes.execBeaconSend {h : Half} {s : State} (hs : Keeps s₀ s) :
    Completes s₀ (execBeaconSend h s) := by
  unfold Machine.execBeaconSend
  exact .next (.foldl hs (fun _ _ ht => .ite (.sendBeacon ht) ht))

theorem OnSome.takeTime {s : State} {h : Half} {ptype : ℕ} (hs : Keeps s₀ s) :
    OnSome (fun q => Keeps s₀ q.2) (takeTime s h ptype) := by
  unfold Machine.takeTime
  exact .mapAny (fun _ => .upd hs)

theorem Keeps.acceptBeacon {s : State} {h : Half} {p : Packet} (hs : Keeps s₀ s) :
    Keeps s₀ (acceptBeacon s h p) := by
  unfold Machine.acceptBeacon
  exact .measure (.wr (.wr hs))

theorem Completes.execBeaconReceive {h : Half} {s : State} (hs : Keeps s₀ s) :
    Completes s₀ (execBeaconReceive h s) := by
  unfold Machine.execBeaconReceive
  split
  · exact .next hs
  next p s1 ehs1 =>
    have hs1 : Keeps s₀ s1 := OnSome.getSnd (.takeTime hs) ehs1
    exact .ite (.next (.acceptBeacon hs1)) (.next hs1)

theorem Keeps.sendDelayReq {s : State} {h : Half} {n : ℕ} (hs : Keeps s₀ s) :
    Keeps s₀ (sendDelayReq s h n) := by
  unfold Machine.sendDelayReq
  exact .timePacket (.wr (.wr hs))

theorem Completes.execDelayReqSend {h : Half} {s : State} (hs : Keeps s₀ s) :
    Completes s₀ (execDelayReqSend h s) := by
  unfold Machine.execDelayReqSend
  exact .ite (.next (.foldl hs (fun _ _ ht => .ite (.sendDelayReq ht) ht))) (.next hs)

theorem Completes.execDelayReqReceive {h : Half} {s : State} (hs : Keeps s₀ s) :
    Completes s₀ (execDelayReqReceive h s) := by
  unfold Machine.execDelayReqReceive
  split
  · exact .next hs
  next p s1 ehs1 =>
    have hs1 : Keeps s₀ s1 := OnSome.getSnd (.takeTime hs) ehs1
    exact .next (.timePacket hs1)

theorem Keeps.delaySample {s : State} {twice : ℤ} (hs : Keeps s₀ s) :
    Keeps s₀ (delaySample s twice).2 := by
  unfold Machine.delaySample
  exact .iteOn Prod.snd hs (.drawFree hs)

theorem Keeps.addDelay {s : State} {h : Half} {n q : ℕ} (hs : Keeps s₀ s) :
    Keeps s₀ (addDelay s h n q) := by
  unfold Machine.addDelay
  exact .wr (.roundEither (.wr (.wr hs)))

theorem Completes.execDelayRespReceive {h : Half} {s : State} (hs : Keeps s₀ s) :
    Completes s₀ (execDelayRespReceive h s) := by
  unfold Machine.execDelayRespReceive
  split
  · exact .next hs
  next p s1 ehs1 =>
    have hs1 : Keeps s₀ s1 := OnSome.getSnd (.takeTime hs) ehs1
    exact .ite (.next (.addDelay (.delaySample (.wr hs1)))) (.next hs1)

theorem Keeps.ptpSelect {s : State} {h : Half} (hs : Keeps s₀ s) :
    Keeps s₀ (ptpSelect s h) := by
  unfold Machine.ptpSelect
  split
  · exact .wr hs
  · extract_lets +onlyGivenNames s1
    have hs1 : Keeps s₀ s1 := .wr hs
    exact .ite hs1 (.wr (.wr (.wr (.wr (.wr (.wr hs1))))))

theorem Completes.execPtpAnnounceReceive {h : Half} {domain : PtpNet} {src : ℕ} {dataset : List ℕ} {logInt : ℤ} {s : State}
    (hs : Keeps s₀ s) :
    Completes s₀ (execPtpAnnounceReceive h domain src dataset logInt s) := by
  unfold Machine.execPtpAnnounceReceive
  exact .ite (.next (.ptpSelect (.ite hs (.upd hs)))) (.next hs)

theorem Keeps.ptpMeasure {s : State} {h : Half} {origin t2 : ℤ} (hs : Keeps s₀ s) :
    Keeps s₀ (ptpMeasure s h origin t2) := by
  unfold Machine.ptpMeasure
  extract_lets +onlyGivenNames pd s1
  have hs1 : Keeps s₀ s1 := .wr hs
  exact .measure (.ite (.wr hs1) hs1)

theorem Completes.execPtpSyncReceive {h : Half} {domain : PtpNet} {src seq : ℕ} {twoStep : Bool} {origin corr : ℤ} {s : State}
    (hs : Keeps s₀ s) :
    Completes s₀ (execPtpSyncReceive h domain src seq twoStep origin corr s) := by
  unfold Machine.execPtpSyncReceive
  extract_lets +onlyGivenNames s0
  have hs0 : Keeps s₀ s0 := .ite (.ptpSelect hs) hs
  exact .ite (.ite (.next (.wr (.wr (.wr (.wr hs0))))) (.next (.ptpMeasure (.wr hs0)))) (.next hs0)

theorem Completes.execPtpFollowUpReceive {h : Half} {domain : PtpNet} {src seq : ℕ} {origin corr : ℤ} {s : State} (hs : Keeps s₀ s) :
    Completes s₀ (execPtpFollowUpReceive h domain src seq origin corr s) := by
  unfold Machine.execPtpFollowUpReceive
  exact .ite (.next (.ptpMeasure (.wr hs))) (.next hs)

theorem Completes.execPtpDelayReqSend {h : Half} {s : State} (hs : Keeps s₀ s) :
    Completes s₀ (execPtpDelayReqSend h s) := by
  unfold Machine.execPtpDelayReqSend
  exact .ite (.next (.emit (.wr (.wr (.wr hs))))) (.next hs)

theorem Completes.execPtpDelayRespReceive {h : Half} {domain : PtpNet} {src seq : ℕ} {mine : Bool} {received corr : ℤ} {s : State}
    (hs : Keeps s₀ s) :
    Completes s₀ (execPtpDelayRespReceive h domain src seq mine received corr s) := by
  unfold Machine.execPtpDelayRespReceive
  exact .ite (.next (.wr (.wr (.roundEither (.wr hs))))) (.next hs)

theorem Keeps.nearestSecond {s : State} {x : ℤ} (hs : Keeps s₀ s) :
    Keeps s₀ (nearestSecond s x).2 := by
  unfold Machine.nearestSecond
  exact .iteOn Prod.snd (.drawFree hs) hs

theorem Keeps.ppsEdge {s : State} {h : Half} (hs : Keeps s₀ s) :
    Keeps s₀ (ppsEdge s h) := by
  unfold Machine.ppsEdge
  extract_lets +onlyGivenNames last
  refine .ite (.inc hs) ?_
  extract_lets +onlyGivenNames ft s1 s2
  have hs2 : Keeps s₀ s2 := .raiseCause (.wr (.wr (.wr hs)))
  exact .ite (.measure (.nearestSecond hs2)) hs2

theorem Completes.execPpsInEdge {s : State} (hs : Keeps s₀ s) :
    Completes s₀ (execPpsInEdge s) := by
  unfold Machine.execPpsInEdge
  exact .next (.ppsEdge (.ppsEdge hs))

theorem Completes.execPassTimeTransfer {h : Half} {s : State} (hs : Keeps s₀ s) :
    Completes s₀ (execPassTimeTransfer h s) := by
  unfold Machine.execPassTimeTransfer
  exact .ite (.next (.measure hs)) (.next hs)

theorem Keeps.acceptAction {s : State} {h : Half} {c : ℕ} (hs : Keeps s₀ s) :
    Keeps s₀ (acceptAction s h c) := by
  unfold Machine.acceptAction
  extract_lets +onlyGivenNames s1
  have hs1 : Keeps s₀ s1 := .wr hs
  exact .ite (.catchCmp hs1) hs1

theorem Keeps.cmpCtlFields {s : State} {h : Half} {c v : ℕ} (hs : Keeps s₀ s) :
    Keeps s₀ (cmpCtlFields s h c v) := by
  unfold Machine.cmpCtlFields
  exact .wr (.wr (.wr (.wr hs)))

theorem Keeps.cmpCtlWrite {s : State} {h : Half} {c v : ℕ} (hs : Keeps s₀ s) :
    Keeps s₀ (cmpCtlWrite s h c v) := by
  unfold Machine.cmpCtlWrite
  extract_lets +onlyGivenNames was
  refine .ite (.timeStatus hs) ?_
  extract_lets +onlyGivenNames s1
  have hs1 : Keeps s₀ s1 := .cmpCtlFields hs
  exact .ite (.timeStatus hs1) (.ite (.timeStatus (.releaseCmp (.wr hs1))) (.ite (.timeStatus (.acceptAction (.wr (.claimCmp hs1))))
      (.timeStatus (.claimCmp hs1))))

theorem Completes.execCmpEnable {h : Half} {c : Fin 16} {v : ℕ} {s : State} (hs : Keeps s₀ s) :
    Completes s₀ (execCmpEnable h c v s) := by
  unfold Machine.execCmpEnable
  exact .next (.cmpCtlWrite hs)

theorem Keeps.ppsFields {s : State} {h : Half} {v : ℕ} (hs : Keeps s₀ s) :
    Keeps s₀ (ppsFields s h v) := by
  unfold Machine.ppsFields
  exact .wr (.wr (.wr hs))

theorem Keeps.armPps {s : State} {h : Half} (hs : Keeps s₀ s) :
    Keeps s₀ (armPps s h) := by
  unfold Machine.armPps
  exact .armCmp hs

theorem Keeps.ppsEnable {s : State} {h : Half} (hs : Keeps s₀ s) :
    Keeps s₀ (ppsEnable s h) := by
  unfold Machine.ppsEnable
  extract_lets +onlyGivenNames c
  refine .ite (.timeStatus (.cmpOutcome hs)) ?_
  extract_lets +onlyGivenNames s1
  have hs1 : Keeps s₀ s1 := .claimPin hs
  refine .ite ?_ (.timeStatus hs1)
  extract_lets +onlyGivenNames s2
  have hs2 : Keeps s₀ s2 := .claimCmp hs1
  exact .ite (.timeStatus (.drivePin (.armPps (.wr hs2)))) (.timeStatus (.releasePin hs2))

theorem Keeps.ppsDisable {s : State} {h : Half} (hs : Keeps s₀ s) :
    Keeps s₀ (ppsDisable s h) := by
  unfold Machine.ppsDisable
  exact .timeStatus (.releasePin (.releaseCmp (.wr hs)))

theorem Keeps.ppsOutWrite {s : State} {h : Half} {v : ℕ} (hs : Keeps s₀ s) :
    Keeps s₀ (ppsOutWrite s h v) := by
  unfold Machine.ppsOutWrite
  extract_lets +onlyGivenNames was
  refine .ite (.timeStatus hs) ?_
  extract_lets +onlyGivenNames s1
  have hs1 : Keeps s₀ s1 := .ppsFields hs
  exact .ite (.timeStatus hs1) (.ite (.ppsDisable hs1) (.ppsEnable hs1))

theorem Completes.execPpsOutEnable {h : Half} {v : ℕ} {s : State} (hs : Keeps s₀ s) :
    Completes s₀ (execPpsOutEnable h v s) := by
  unfold Machine.execPpsOutEnable
  exact .next (.ppsOutWrite hs)

theorem Keeps.switchList {s : State} {h : Half} {mt on : Bool} (hs : Keeps s₀ s) :
    Keeps s₀ (switchList s h mt on) := by
  unfold Machine.switchList
  exact .ite hs (.ite (.ite (.judgeList (.wr (.claimCmp hs))) (.timeStatus (.claimCmp hs))) (.releaseCmp (.wr hs)))

theorem Completes.execTimeRelCtlWrite {h : Half} {v : ℕ} {s : State} (hs : Keeps s₀ s) :
    Completes s₀ (execTimeRelCtlWrite h v s) := by
  unfold Machine.execTimeRelCtlWrite
  exact .ite (.next (.timeStatus hs)) (.next (.switchList (.switchList (.timeStatus (.wr (.wr hs))))))

theorem Keeps.reclaimTrig {s : State} {h : Half} {k : ℕ} (hs : Keeps s₀ s) :
    Keeps s₀ (reclaimTrig s h k) := by
  unfold Machine.reclaimTrig
  exact .ite hs (.ite (.armTrig (.claimCmp hs)) (.raiseCause (.wr (.wr (.claimCmp hs)))))

theorem Keeps.reclaimPps {s : State} {h : Half} (hs : Keeps s₀ s) :
    Keeps s₀ (reclaimPps s h) := by
  unfold Machine.reclaimPps
  exact .ite hs (.ite (.armPps (.claimCmp hs)) (.raiseCause (.wr (.wr (.claimCmp hs)))))

theorem Keeps.reclaimCmps {s : State} {h : Half} (hs : Keeps s₀ s) :
    Keeps s₀ (reclaimCmps s h) := by
  unfold Machine.reclaimCmps
  exact .reclaimPps (.reclaimTrig (.reclaimTrig hs))

/-! ### Machine/Roles.lean -/

theorem Keeps.dropMirrored {s : State} {h : Half} (hs : Keeps s₀ s) : Keeps s₀ (dropMirrored s h) :=
  hs.setRegs (RegFile.wf_filter _)

theorem Keeps.loadCells {s : State} {h : Half} {g : Generation} (hs : Keeps s₀ s) :
    Keeps s₀ (loadCells s h g) := by
  unfold Machine.loadCells
  exact .foldl (.dropMirrored hs) (fun _ _ ht => .ite (.wr ht) ht)

theorem Keeps.passLedger {s : State} {h : Half} {g : Option Generation} {keep : Bool} (hs : Keeps s₀ s) :
    Keeps s₀ (passLedger s h g keep) := by
  unfold Machine.passLedger
  exact .wr (.upd hs)

theorem Keeps.setLatch {s : State} {h : Half} (hs : Keeps s₀ s) :
    Keeps s₀ (setLatch s h) := by
  unfold Machine.setLatch
  exact .raiseCause (.wr (.wr (.wr (.wr (.wr hs)))))

theorem Keeps.gainRoles {s : State} {h : Half} (hs : Keeps s₀ s) :
    Keeps s₀ (gainRoles s h) := by
  unfold Machine.gainRoles
  exact .serviceUpdate (.takeOwn (.setLatch hs))

theorem Keeps.dropPinCmps {s : State} {h : Half} (hs : Keeps s₀ s) :
    Keeps s₀ (dropPinCmps s h) := by
  unfold Machine.dropPinCmps
  exact .foldl hs (fun _ _ ht => .ite (.releaseCmp ht) ht)

theorem Keeps.loseRoles {s : State} {h : Half} (hs : Keeps s₀ s) :
    Keeps s₀ (loseRoles s h) := by
  unfold Machine.loseRoles
  exact .raiseCause (.dropMirrored (.dropPinCmps (.wr (.wr (.auxRelease (.wr (.wr (.wr (.wr (.wr hs))))))))))

theorem Keeps.resumeFrom {s : State} {h : Half} {g : Option Generation} (hs : Keeps s₀ s) :
    Keeps s₀ (resumeFrom s h g) := by
  unfold Machine.resumeFrom
  split
  · exact hs
  · extract_lets +onlyGivenNames s1
    have hs1 : Keeps s₀ s1 := .foldl (.loadCells hs) (fun _ _ ht => .pwmRestart ht)
    exact .reclaimCmps (.ite (.bumpless hs1) hs1)

/-! ### Machine/Lowland.lean -/

theorem Keeps.bootFail {s : State} {h : Half} {st : ℕ} (hs : Keeps s₀ s) :
    Keeps s₀ (bootFail s h st) := by
  unfold Machine.bootFail
  exact .ite (.wr hs) hs

theorem Keeps.trainDie {s : State} {failed die : ℕ} (hs : Keeps s₀ s) :
    Keeps s₀ (trainDie s failed die) := by
  unfold Machine.trainDie
  refine .ite hs ?_
  extract_lets +onlyGivenNames s1
  have hs1 : Keeps s₀ s1 := .emit (.wr hs)
  exact .ite (.bootFail (.wr (.dieOff hs1))) (.wr hs1)

theorem Keeps.trainDies {s : State} {failed : ℕ} (hs : Keeps s₀ s) :
    Keeps s₀ (trainDies s failed) := by
  unfold Machine.trainDies
  exact .foldl (.wr (.wr hs)) (fun _ _ ht => .trainDie ht)

theorem Keeps.testCore {s : State} {core : ℕ} (hs : Keeps s₀ s) : Keeps s₀ (testCore s core) := by
  unfold Machine.testCore
  exact .ite ((Keeps.wr (.wr hs)).setMem (Memory.wf_clearRange _ _)) (.wr hs)

theorem Keeps.zeroStack {s : State} {k : Half} (hs : Keeps s₀ s) :
    Keeps s₀ (zeroStack s k) := by
  unfold Machine.zeroStack
  exact .ite (.wipe hs) hs

theorem Keeps.dropDieLines {t : State} (h : Keeps s₀ t) : Keeps s₀ { t with dieLines := [] } := .upd h

theorem Keeps.stageF {s : State} {failing : List ℕ} {zeroHbm : Bool} (hs : Keeps s₀ s) :
    Keeps s₀ (stageF s failing zeroHbm) := by
  unfold Machine.stageF
  extract_lets +onlyGivenNames s1 u s2
  have hu : Keeps s₀ u := .foldl (.foldl hs (fun _ _ ht => .wr ht)) (fun _ _ ha => .testCore ha)
  have hs2 : Keeps s₀ s2 := .dropDieLines hu
  exact .ite (.zeroStack (.zeroStack hs2)) hs2

theorem Keeps.trayStep {s : State} {trigger : ℕ} (hs : Keeps s₀ s) :
    Keeps s₀ (trayStep s trigger) := by
  unfold Machine.trayStep
  exact .raiseCause (.faultRecord (.wr (.wr (.ite (.drivePin hs) hs))))

theorem Keeps.stopWork {s : State} {h : Half} {status : ℕ} (hs : Keeps s₀ s) :
    Keeps s₀ (stopWork s h status) := by
  unfold Machine.stopWork
  exact .dropCtxs (.foldl (.mapChains (.wr (.wr hs))) (fun _ _ ht => .wr ht))

theorem Keeps.closeWork {s : State} {h : Half} {status : ℕ} (hs : Keeps s₀ s) :
    Keeps s₀ (closeWork s h status) := by
  unfold Machine.closeWork
  exact .relist (.lowlandStreams (.closeRequests hs))

theorem Keeps.idlePorts {s : State} {h : Half} {off : Bool} (hs : Keeps s₀ s) :
    Keeps s₀ (idlePorts s h off) := by
  unfold Machine.idlePorts
  exact .egrClose (.foldl hs (fun _ _ ht => .ite ht (.portDown ht)))

theorem Keeps.lowlandHalf {s : State} {h : Half} {status : ℕ} (hs : Keeps s₀ s) :
    Keeps s₀ (lowlandHalf s h status) := by
  unfold Machine.lowlandHalf
  exact .enterHold (.idlePorts (.closeWork (.stopWork (.wr hs))))

theorem Keeps.park {s : State} (hs : Keeps s₀ s) :
    Keeps s₀ (park s) := by
  unfold Machine.park
  extract_lets +onlyGivenNames p h s1 s2
  have hs2 : Keeps s₀ s2 := .wr (.wr (.wr (.wr (.wr hs))))
  exact .ite (.diesOff (.diesOff hs2)) hs2

theorem Keeps.latchCauses {s : State} (hs : Keeps s₀ s) :
    Keeps s₀ (latchCauses s) := by
  unfold Machine.latchCauses
  exact .wr (.wr (.wr hs))

theorem Keeps.lowlandRecord {s : State} {reset : Bool} (hs : Keeps s₀ s) :
    Keeps s₀ (lowlandRecord s reset) := by
  unfold Machine.lowlandRecord
  extract_lets +onlyGivenNames h s1
  have hs1 : Keeps s₀ s1 := .ledger hs
  exact .ite (.trayStep hs1) hs1

theorem Keeps.enterLowland {s : State} (hs : Keeps s₀ s) :
    Keeps s₀ (enterLowland s) := by
  unfold Machine.enterLowland
  exact .foldl (.serviceUpdate (.wr (.wr (.park (.platWithdraw (.foldl (.wr (.ite (.emit hs) hs)) (fun _ _ ht => .lowlandHalf ht)))))))
      (fun _ _ ht => .raiseCause ht)

theorem Completes.execLowlandEnter {s : State} (hs : Keeps s₀ s) :
    Completes s₀ (execLowlandEnter s) := by
  unfold Machine.execLowlandEnter
  refine .ite (.next hs) ?_
  extract_lets +onlyGivenNames new s1
  have hs1 : Keeps s₀ s1 := .wr (.latchCauses hs)
  exact .ite (.next (.ite hs1 (.lowlandRecord (.park hs1)))) (.next (.lowlandRecord (.enterLowland hs1)))

theorem Keeps.leaveCauses {s : State} {bits : ℕ} (hs : Keeps s₀ s) :
    Keeps s₀ (leaveCauses s bits) := by
  unfold Machine.leaveCauses
  exact .wr (.wr hs)

theorem Keeps.lowlandOut {s : State} (hs : Keeps s₀ s) :
    Keeps s₀ (lowlandOut s) := by
  unfold Machine.lowlandOut
  exact .wr (.ledger hs)

theorem Keeps.leaveLowland {s : State} (hs : Keeps s₀ s) :
    Keeps s₀ (leaveLowland s) := by
  unfold Machine.leaveLowland
  exact .serviceUpdate (.lowlandOut (.wr (.wr (.wr (.wr (.wr (.wr (.wr (.wr (.wr (.wr (.wr (.wr (.wr hs))))))))))))))

theorem Keeps.autoExit {s : State} (hs : Keeps s₀ s) :
    Keeps s₀ (autoExit s) := by
  unfold Machine.autoExit
  exact .ite (.ite (.leaveLowland (.leaveCauses hs)) (.wr hs)) hs

theorem Keeps.finishExit {s : State} (hs : Keeps s₀ s) :
    Keeps s₀ (finishExit s) := by
  unfold Machine.finishExit
  exact .ite (.leaveLowland (.leaveCauses hs)) (.wr hs)

theorem Completes.execPkgServiceUpdate {s : State} (hs : Keeps s₀ s) :
    Completes s₀ (execPkgServiceUpdate s) := by
  unfold Machine.execPkgServiceUpdate
  exact .next (.autoExit (.serviceUpdate hs))

theorem Completes.execThermModeSet {h : Half} {manual : Bool} {s : State} (hs : Keeps s₀ s) :
    Completes s₀ (execThermModeSet h manual s) := by
  unfold Machine.execThermModeSet
  exact .ite (.ite (.ite (.next (.thermStatus hs)) (.ite (.next (.serviceUpdate (.thermStatus (.wr (.wr hs))))) (.next (.thermStatus hs))))
      (.ite (.next (.autoExit (.serviceUpdate (.thermStatus (.wr (.thermRun hs)))))) (.next (.thermStatus (.wr hs))))) (.next hs)

/-! ### Machine/Restart.lean -/

/-- A reset leaves the queue, and its pinned slots and ship plans are empty. -/
theorem Keeps.resetKeeping {s : State} {keep : Fld → Bool} {mem : Memory} (hs : Keeps s₀ s) (hm : s.mem.wf = true → mem.wf = true) :
    Keeps s₀ (resetKeeping s keep mem) := by
  refine ⟨hs.1, fun hi => ?_⟩
  obtain ⟨hk, -, -, hg⟩ := hs.2 hi
  exact ⟨hm hk, rfl, rfl, RegFile.wf_filter _ hg⟩

theorem Keeps.railsBack {s : State} (hs : Keeps s₀ s) :
    Keeps s₀ (railsBack s) := by
  unfold Machine.railsBack
  exact .wr hs

theorem Keeps.endWork {s : State} {h : Half} {status : ℕ} (hs : Keeps s₀ s) :
    Keeps s₀ (endWork s h status) := by
  unfold Machine.endWork
  exact .foldl (.idlePorts (.mapChains (.closeWork (.stopWork hs)))) (fun _ _ ha => .completeChain ha)

theorem Keeps.freeAll {s : State} {h : Half} (hs : Keeps s₀ s) :
    Keeps s₀ (freeAll s h) := by
  unfold Machine.freeAll
  exact .foldl hs (fun _ _ ha => .freeRequest ha)

theorem Keeps.flushLedger {w : Half} {n : ℕ} {s : State} (hs : Keeps s₀ s) :
    Keeps s₀ (flushLedger w n s) := by
  induction n generalizing w s with
  | zero =>
    rw [Machine.flushLedger]
    exact hs
  | succ n ih =>
    rw [Machine.flushLedger]
    exact ih (.programNext hs)

theorem Keeps.settleLedger {s : State} (hs : Keeps s₀ s) :
    Keeps s₀ (settleLedger s) := by
  unfold Machine.settleLedger
  split
  · exact hs
  · extract_lets +onlyGivenNames s1
    have hs1 : Keeps s₀ s1 := .ite (.takeDeltas hs) hs
    exact .flushLedger (.ite hs1 (.wr hs1))

theorem Keeps.releaseOutputs {s : State} (hs : Keeps s₀ s) :
    Keeps s₀ (releaseOutputs s) := by
  unfold Machine.releaseOutputs
  exact .auxRelease (.auxRelease (.diesOff (.diesOff hs)))

theorem Keeps.keepLowland {s : State} (hs : Keeps s₀ s) :
    Keeps s₀ (keepLowland s) := by
  unfold Machine.keepLowland
  exact .ite (.wr (.wr (.wr (.wr (.wr (.wr (.wr (.wr (.wr (.wr (.wr (.wr (.wr hs))))))))))))) hs

theorem Keeps.startOver {s : State} (hs : Keeps s₀ s) : Keeps s₀ (startOver s) := by
  unfold Machine.startOver
  extract_lets +onlyGivenNames s1 s2
  have hs2 : Keeps s₀ s2 := .releaseOutputs (.settleLedger (.freeAll (.freeAll (.endWork (.endWork hs)))))
  exact .keepLowland (.wr (.railsBack (.resetKeeping hs2 id)))

theorem Keeps.chipStep {s : State} {h : Half} {trigger status : ℕ} (hs : Keeps s₀ s) :
    Keeps s₀ (chipStep s h trigger status) := by
  unfold Machine.chipStep
  exact .ite hs (.ite (.trayStep hs) (.startOver (.raiseCause (.faultRecord hs))))

theorem Keeps.tearSlot {s : State} (hs : Keeps s₀ s) :
    Keeps s₀ (tearSlot s) := by
  unfold Machine.tearSlot
  split
  · split
    · exact .ite (.programSlot hs) hs
    · exact hs
  · exact hs

theorem Completes.execPowerGoodFall {tearing : Bool} {s : State} (hs : Keeps s₀ s) :
    Completes s₀ (execPowerGoodFall tearing s) := by
  unfold Machine.execPowerGoodFall
  refine .ite (.next hs) ?_
  extract_lets +onlyGivenNames s1 s2 s3
  have hs1 : Keeps s₀ s1 := .ite (.wr hs) hs
  have hs2 : Keeps s₀ s2 := .releaseOutputs (.ite (.tearSlot hs1) hs1)
  have hs3 : Keeps s₀ s3 := .resetKeeping hs2 (Memory.wf_clearRange _ _)
  exact .next (.wr (.wr (.wr hs3)))

theorem Completes.execPowerGoodRise {s : State} (hs : Keeps s₀ s) : Completes s₀ (execPowerGoodRise s) := by
  unfold Machine.execPowerGoodRise
  exact .ite (.next hs) (.next (.wr (.wr (.railsBack (.resetKeeping hs id)))))

theorem Keeps.exitStatus {s : State} {st : ℕ} (hs : Keeps s₀ s) :
    Keeps s₀ (exitStatus s st) := by
  unfold Machine.exitStatus
  exact .wr hs

theorem Completes.execLowlandExit {h : Half} {s : State} (hs : Keeps s₀ s) :
    Completes s₀ (execLowlandExit h s) := by
  unfold Machine.execLowlandExit
  exact .ite (.next (.exitStatus hs)) (.ite (.next (.exitStatus hs)) (.ite (.next (.exitStatus hs)) (.ite (.next (.exitStatus hs)) (.ite
      (.next (.exitStatus hs)) (.ite (.ite (.next (.thermPrime (.wr (.exitStatus hs)))) (.next (.exitStatus hs))) (.ite (.next
      (.exitStatus hs)) (.ite (.next (.trayStep (.exitStatus hs))) (.next (.exitStatus (.startOver (.lowlandOut (.leaveCauses hs))))))))))))

/-! ### Machine/Faults.lean -/

theorem Keeps.failAccess {s : State} {h : Half} {r : Requester} {write : Bool} {status a len : ℕ} (hs : Keeps s₀ s) :
    Keeps s₀ (failAccess s h r write status a len) := by
  unfold Machine.failAccess
  split
  · split
    · exact .ctxAccessFail hs
    · exact hs
  · split
    · exact .failEngine hs
    · exact hs
  · exact hs

theorem Keeps.uncorrectable {s : State} {k h : Half} {r : Requester} {a chan : ℕ} (hs : Keeps s₀ s) :
    Keeps s₀ (uncorrectable s k h r a chan) := by
  unfold Machine.uncorrectable
  extract_lets +onlyGivenNames u s1 n detail s2
  have hu : Keeps s₀ u := .bump hs
  have hs1 : Keeps s₀ s1 := .upd hu
  have hs2 : Keeps s₀ s2 := by
    unfold s2
    split
    · split
      · exact .contextStep hs1
      · exact hs1
    · exact .failAccess hs1
  exact .ite (.loseStack hs2) hs2

theorem Completes.hbmAccess {s : State} {h : Half} {r : Requester} {write : Bool} {a len : ℕ} {f : Who → Half → State} (hs : Keeps s₀ s)
    (hf : ∀ u v, Keeps s₀ (f u v)) :
    Completes s₀ (hbmAccess s h r write a len f) := by
  unfold Machine.hbmAccess
  split
  · exact .next hs
  · extract_lets +onlyGivenNames st
    split
    · exact .ite (.next (hf _ _)) (.next (.failAccess (.recordRefusal hs)))
    · exact .next (.failAccess (.recordRefusal hs))
    · exact .next hs

theorem Keeps.hbmRead {s : State} {h : Half} {w : Who} {a len : ℕ} (hs : Keeps s₀ s) :
    Keeps s₀ (hbmRead s h w a len).1 := by
  unfold Machine.hbmRead
  split
  · exact .iteOn Prod.fst (.countBytes hs) (.cacheRead hs)
  · exact .countBytes hs

theorem Completes.execHbmRead {h : Half} {who : Requester} {a len : ℕ} {err : EccErr} {chan : Fin 32} {s : State} (hs : Keeps s₀ s) :
    Completes s₀ (execHbmRead h who a len err chan s) := by
  unfold Machine.execHbmRead
  refine .hbmAccess hs (fun _ _ => ?_)
  extract_lets +onlyGivenNames q
  have hq : Keeps s₀ q.1 := .hbmRead hs
  split
  · exact hq
  · exact .bump hq
  · exact .uncorrectable hq

theorem Completes.execHbmWrite {h : Half} {who : Requester} {a : ℕ} {data : List Byte} {err : EccErr} {chan : Fin 32} {s : State}
    (hs : Keeps s₀ s) :
    Completes s₀ (execHbmWrite h who a data err chan s) := by
  unfold Machine.execHbmWrite
  refine .hbmAccess hs (fun _ _ => ?_)
  refine .ite (.uncorrectable hs) ?_
  extract_lets +onlyGivenNames s1
  have hs1 : Keeps s₀ s1 := .store (.countBytes hs)
  exact .ite (.bump hs1) hs1

theorem Keeps.notePassWdt {s : State} {h : Half} {core : ℕ} (hs : Keeps s₀ s) :
    Keeps s₀ (notePassWdt s h core) := by
  unfold Machine.notePassWdt
  extract_lets +onlyGivenNames last s1
  have hs1 : Keeps s₀ s1 := .wr hs
  exact .ite (.loseCore hs1) hs1

theorem Completes.execPassWatchdogExpire {h : Half} {core : Fin 256} {slot : Fin 2} {s : State} (hs : Keeps s₀ s) :
    Completes s₀ (execPassWatchdogExpire h core slot s) := by
  unfold Machine.execPassWatchdogExpire
  split
  · exact .ite (.next hs) (.next (.notePassWdt (.contextStep (.setCtx (.drawFree hs)))))
  · exact .next hs

theorem Completes.execCtxWatchdogExpire {h : Half} {core : Fin 256} {slot : Fin 2} {s : State} (hs : Keeps s₀ s) :
    Completes s₀ (execCtxWatchdogExpire h core slot s) := by
  unfold Machine.execCtxWatchdogExpire
  split
  · exact .ite (.next hs) (.next (.contextStep hs))
  · exact .next hs

theorem Completes.execEngineWatchdogExpire {h : Half} {code : ℕ} {s : State} (hs : Keeps s₀ s) :
    Completes s₀ (execEngineWatchdogExpire h code s) := by
  unfold Machine.execEngineWatchdogExpire
  exact .ite (.next hs) (.next (.engineStep hs))

theorem Completes.execRingWatchdogExpire {h : Half} {ring : ℕ} {s : State} (hs : Keeps s₀ s) :
    Completes s₀ (execRingWatchdogExpire h ring s) := by
  unfold Machine.execRingWatchdogExpire
  split
  · extract_lets +onlyGivenNames ms
    refine .ite (.next hs) ?_
    extract_lets +onlyGivenNames s1 s2
    have hs2 : Keeps s₀ s2 := .postEvent (.setChain hs)
    exact .next (.ite (.ringStop hs2) hs2)
  · exact .next hs

theorem Keeps.boundLost {s : State} {h : Half} {die : Option ℕ} (hs : Keeps s₀ s) :
    Keeps s₀ (boundLost s h die) := by
  unfold Machine.boundLost
  split
  · exact .ite hs (.loseDie hs)
  · exact .raiseCause hs

theorem Keeps.ctxBoundMissed {s : State} {die status : ℕ} (hs : Keeps s₀ s) :
    Keeps s₀ (ctxBoundMissed s die status) := by
  unfold Machine.ctxBoundMissed
  extract_lets +onlyGivenNames h last s1
  have hs1 : Keeps s₀ s1 := .wr hs
  exact .ite (.chipStep hs1) (.engineStep hs1)

theorem Completes.execStepBoundExceeded {h : Half} {step : Fin 3} {unit : ℕ} {s : State} (hs : Keeps s₀ s) :
    Completes s₀ (execStepBoundExceeded h step unit s) := by
  unfold Machine.execStepBoundExceeded
  refine .ite ?_ ?_
  · refine .ite (.next hs) ?_
    split
    · exact .next (.ctxBoundMissed hs)
    · exact .next hs
  · refine .ite ?_ ?_
    · extract_lets +onlyGivenNames k
      split
      · exact .next (.ite (.chipStep hs) (.boundLost hs))
      · exact .next hs
    · split
      · exact .next (.ite (.chipStep hs) (.boundLost hs))
      · exact .next hs

theorem Keeps.fltLast {s : State} {h : Half} {st : ℕ} (hs : Keeps s₀ s) :
    Keeps s₀ (fltLast s h st) := by
  unfold Machine.fltLast
  exact .wr hs

theorem Completes.execFltCtxReset {h : Half} {arg : ℕ} {s : State} (hs : Keeps s₀ s) :
    Completes s₀ (execFltCtxReset h arg s) := by
  unfold Machine.execFltCtxReset
  refine .ite (.next (.fltLast hs)) ?_
  split
  · exact .next (.contextStep (.fltLast hs))
  · exact .next (.fltLast hs)

theorem Completes.execFltEngReset {h : Half} {arg : ℕ} {s : State} (hs : Keeps s₀ s) :
    Completes s₀ (execFltEngReset h arg s) := by
  unfold Machine.execFltEngReset
  exact .ite (.next (.fltLast hs)) (.ite (.next (.fltLast hs)) (.next (.engineStep (.fltLast hs))))

theorem Completes.execFltPartReset {h : Half} {arg : ℕ} {s : State} (hs : Keeps s₀ s) :
    Completes s₀ (execFltPartReset h arg s) := by
  unfold Machine.execFltPartReset
  exact .ite (.next (.fltLast hs)) (.ite (.next (.fltLast hs)) (.ite (.next (.fltLast hs)) (.next (.partitionStep (.fltLast hs)))))

theorem Completes.execFltChipReset {h : Half} {s : State} (hs : Keeps s₀ s) :
    Completes s₀ (execFltChipReset h s) := by
  unfold Machine.execFltChipReset
  exact .ite (.next (.fltLast hs)) (.ite (.next (.fltLast hs)) (.ite (.next (.fltLast hs)) (.next (.chipStep (.fltLast hs)))))

theorem Completes.execFltTrayCycle {h : Half} {s : State} (hs : Keeps s₀ s) :
    Completes s₀ (execFltTrayCycle h s) := by
  unfold Machine.execFltTrayCycle
  exact .ite (.next (.fltLast hs)) (.ite (.next (.fltLast hs)) (.next (.trayStep (.fltLast hs))))

theorem Completes.execFltLogCiWrite {h : Half} {fn v : ℕ} {s : State} (hs : Keeps s₀ s) :
    Completes s₀ (execFltLogCiWrite h fn v s) := by
  unfold Machine.execFltLogCiWrite
  exact .ite (.next (.wr hs)) (.next hs)

theorem Completes.execEngineStateError {h : Half} {code : ℕ} {kind : Fin 3} {s : State} (hs : Keeps s₀ s) :
    Completes s₀ (execEngineStateError h code kind s) := by
  unfold Machine.execEngineStateError
  exact .ite (.next (.engineStep hs)) (.next hs)

theorem Completes.execHubUnitFault {h : Half} {s : State} (hs : Keeps s₀ s) :
    Completes s₀ (execHubUnitFault h s) := by
  unfold Machine.execHubUnitFault
  exact .next (.ite (.chipStep hs) (.boundLost hs))

theorem Completes.execDieLinkFail {die : Fin 8} {s : State} (hs : Keeps s₀ s) :
    Completes s₀ (execDieLinkFail die s) := by
  unfold Machine.execDieLinkFail
  exact .ite (.next (.loseDie hs)) (.next hs)

theorem Completes.execHbmChannelFail {k : Half} {phy : Bool} {channel : Fin 32} {s : State} (hs : Keeps s₀ s) :
    Completes s₀ (execHbmChannelFail k phy channel s) := by
  unfold Machine.execHbmChannelFail
  exact .ite (.next (.loseStack hs)) (.next hs)

/-! ### Machine/Split.lean -/

theorem Keeps.roleQuery {s : State} {h : Half} (hs : Keeps s₀ s) :
    Keeps s₀ (roleQuery s h) := by
  unfold Machine.roleQuery
  extract_lets +onlyGivenNames held s1
  have hs1 : Keeps s₀ s1 := .wr (.wr (.wr hs))
  exact .ite hs1 (.mctpOut hs1)

theorem Keeps.arbitrate {s : State} {h : Half} (hs : Keeps s₀ s) :
    Keeps s₀ (arbitrate s h) := by
  unfold Machine.arbitrate
  exact .ite hs (.ite (.emit hs) (.roleQuery hs))

theorem Keeps.arbDone {s : State} {h : Half} {path half : ℕ} (hs : Keeps s₀ s) :
    Keeps s₀ (arbDone s h path half) := by
  unfold Machine.arbDone
  exact .wr (.wr (.wr hs))

theorem Keeps.peerPaths {s : State} {h : Half} (hs : Keeps s₀ s) :
    Keeps s₀ (peerPaths s h) := by
  unfold Machine.peerPaths
  exact .ite hs (.wr hs)

theorem Keeps.pathAlive {s t : State} {h : Half} (ht : Keeps s₀ t) :
    Keeps s₀ (pathAlive s t h) := by
  unfold Machine.pathAlive
  exact .ite (.wr ht) ht

theorem Keeps.passDeclare {s : State} {h : Half} {cause : ℕ} (hs : Keeps s₀ s) :
    Keeps s₀ (passDeclare s h cause) := by
  unfold Machine.passDeclare
  exact .arbitrate (.serviceUpdate (.peerPaths (.faultRecord (.postNotice (.foldl (.raiseCause (.wr (.wr (.wr (.wr (.wr hs)))))) (fun _ _
      ha => .passDownChain ha))))))

theorem Completes.execPassFlitReceive {h : Half} {replays : Fin 5} {s : State} (hs : Keeps s₀ s) :
    Completes s₀ (execPassFlitReceive h replays s) := by
  unfold Machine.execPassFlitReceive
  exact .ite (.next (.bump (.bump (.bump (.inc (.wr hs)))))) (.next hs)

theorem Completes.execPassReplayExhaust {h : Half} {s : State} (hs : Keeps s₀ s) :
    Completes s₀ (execPassReplayExhaust h s) := by
  unfold Machine.execPassReplayExhaust
  refine .ite ?_ (.next hs)
  extract_lets +onlyGivenNames run s1 s2
  have hs2 : Keeps s₀ s2 := .raiseCause (.bump (.wr (.inc (.inc hs))))
  exact .ite (.next (.passDeclare hs2)) (.next (.wr hs2))

theorem Completes.execPassRealignDone {h : Half} {s : State} (hs : Keeps s₀ s) :
    Completes s₀ (execPassRealignDone h s) := by
  unfold Machine.execPassRealignDone
  exact .next (.wr hs)

theorem Completes.execPassLockLost {h : Half} {s : State} (hs : Keeps s₀ s) :
    Completes s₀ (execPassLockLost h s) := by
  unfold Machine.execPassLockLost
  exact .ite (.next (.passDeclare (.raiseCause hs))) (.ite (.next (.raiseCause (.wr (.wr hs)))) (.next hs))

theorem Completes.execPassSidebandLost {h : Half} {s : State} (hs : Keeps s₀ s) :
    Completes s₀ (execPassSidebandLost h s) := by
  unfold Machine.execPassSidebandLost
  exact .ite (.next (.peerPaths (.raiseCause (.wr hs)))) (.next hs)

theorem Completes.execPassSidebandRegained {h : Half} {s : State} (hs : Keeps s₀ s) :
    Completes s₀ (execPassSidebandRegained h s) := by
  unfold Machine.execPassSidebandRegained
  refine .ite (.next hs) ?_
  extract_lets +onlyGivenNames s1
  have hs1 : Keeps s₀ s1 := .pathAlive (.wr hs)
  exact .ite (.next (.reconcile hs1)) (.next hs1)

theorem Completes.execRoleMessageReceive {h : Half} {s : State} (hs : Keeps s₀ s) :
    Completes s₀ (execRoleMessageReceive h s) := by
  unfold Machine.execRoleMessageReceive
  exact .ite (.next (.arbDone hs)) (.next hs)

theorem Keeps.grantRoles {s : State} {h : Half} (hs : Keeps s₀ s) :
    Keeps s₀ (grantRoles s h) := by
  unfold Machine.grantRoles
  extract_lets +onlyGivenNames old s1
  have hs1 : Keeps s₀ s1 := .ite (.loseRoles hs) hs
  exact .resumeFrom (.gainRoles (.ite (.passLedger hs1) hs1))

theorem Keeps.closeArb {s : State} {half : Half} (hs : Keeps s₀ s) :
    Keeps s₀ (closeArb s half) := by
  unfold Machine.closeArb
  exact .ite (.arbDone (.ite (.arbDone hs) hs)) (.ite (.arbDone hs) hs)

theorem Completes.execRoleGrantReceive {named : Fin 256} {pec single : Bool} {s : State} (hs : Keeps s₀ s) :
    Completes s₀ (execRoleGrantReceive named pec single s) := by
  unfold Machine.execRoleGrantReceive
  refine .ite (.next hs) ?_
  extract_lets +onlyGivenNames half s1
  have hs1 : Keeps s₀ s1 := .closeArb hs
  exact .ite (.next hs1) (.ite (.next (.grantRoles hs1)) (.ite (.next (.serviceUpdate (.loseRoles hs1))) (.next hs1)))

theorem Completes.execRoleSilenceTimeout {h : Half} {s : State} (hs : Keeps s₀ s) :
    Completes s₀ (execRoleSilenceTimeout h s) := by
  unfold Machine.execRoleSilenceTimeout
  exact .ite (.next (.arbDone hs)) (.next hs)

theorem Keeps.failHub {s : State} {h : Half} (hs : Keeps s₀ s) :
    Keeps s₀ (failHub s h) := by
  unfold Machine.failHub
  exact .ite (.wr (.wr hs)) hs

theorem Completes.execStartupRoleArbitrate {s : State} (hs : Keeps s₀ s) :
    Completes s₀ (execStartupRoleArbitrate s) := by
  unfold Machine.execStartupRoleArbitrate
  exact .ite (.next (.roleQuery (.failHub hs))) (.next hs)

theorem Completes.execNonholderTjCrit {h : Half} {s : State} (hs : Keeps s₀ s) :
    Completes s₀ (execNonholderTjCrit h s) := by
  unfold Machine.execNonholderTjCrit
  exact .ite (.next (.serviceUpdate (.wr hs))) (.next hs)

theorem Completes.execPassRetrainAttempt {s : State} (hs : Keeps s₀ s) :
    Completes s₀ (execPassRetrainAttempt s) := by
  unfold Machine.execPassRetrainAttempt
  exact .next (.ite (.wr hs) hs)

theorem Keeps.passTrained {s : State} {st spares0 spares1 : ℕ} (hs : Keeps s₀ s) :
    Keeps s₀ (passTrained s st spares0 spares1) := by
  unfold Machine.passTrained
  exact .wr (.wr (.wr (.wr (.wr (.wr (.wr (.wr (.wr (.wr hs)))))))))

theorem Completes.execPassRetrainEnd {ok : Bool} {spares0 spares1 : ℕ} {s : State} (hs : Keeps s₀ s) :
    Completes s₀ (execPassRetrainEnd ok spares0 spares1 s) := by
  unfold Machine.execPassRetrainEnd
  refine .ite (.next hs) ?_
  extract_lets +onlyGivenNames s1
  have hs1 : Keeps s₀ s1 := .wr hs
  exact .ite (.next (.raiseCause (.raiseCause (.passTrained hs1)))) (.next (.inc (.inc hs1)))

theorem Keeps.lockExchange {s : State} (hs : Keeps s₀ s) :
    Keeps s₀ (lockExchange s) := by
  unfold Machine.lockExchange
  exact .ite (.wr (.wr (.wr (.wr hs)))) hs

theorem Keeps.commitGen {s : State} {h : Half} {g : Generation} (hs : Keeps s₀ s) :
    Keeps s₀ (commitGen s h g) := by
  unfold Machine.commitGen
  extract_lets +onlyGivenNames u
  have hu : Keeps s₀ u := .wr hs
  exact .upd hu

theorem Keeps.fullGeneration {s : State} (hs : Keeps s₀ s) :
    Keeps s₀ (fullGeneration s) := by
  unfold Machine.fullGeneration
  split
  · exact hs
  · exact .commitGen hs

theorem Keeps.joinLowland {s : State} (hs : Keeps s₀ s) :
    Keeps s₀ (joinLowland s) := by
  unfold Machine.joinLowland
  exact .ite hs (.ite (.raiseCause (.lowlandHalf hs)) (.raiseCause (.lowlandHalf hs)))

theorem Keeps.rejoinRecord {s : State} {h : Half} (hs : Keeps s₀ s) :
    Keeps s₀ (rejoinRecord s h) := by
  unfold Machine.rejoinRecord
  exact .faultRecord (.postNotice hs)

theorem Completes.execPassRejoin {h : Half} {s : State} (hs : Keeps s₀ s) :
    Completes s₀ (execPassRejoin h s) := by
  unfold Machine.execPassRejoin
  exact .ite (.next (.serviceUpdate (.wr (.rejoinRecord (.rejoinRecord (.joinLowland (.wr (.wr (.pathAlive (.pathAlive (.wr (.wr (.wr
      (.fullGeneration (.takeDeltas (.lockExchange (.reconcile (.emit (.ite (.grantRoles hs) hs))))))))))))))))))) (.next (.wr hs))

/-! ### Machine/Startup.lean -/

theorem Keeps.stageDone {s : State} {n : ℕ} (hs : Keeps s₀ s) :
    Keeps s₀ (stageDone s n) := by
  unfold Machine.stageDone
  exact .wr (.wr (.wr hs))

theorem Keeps.hubStage {s : State} {n : ℕ} (hs : Keeps s₀ s) :
    Keeps s₀ (hubStage s n) := by
  unfold Machine.hubStage
  exact .ite (.stageDone hs) hs

theorem Keeps.hubStages {s : State} (hs : Keeps s₀ s) :
    Keeps s₀ (hubStages s) := by
  unfold Machine.hubStages
  exact .hubStage (.hubStage (.hubStage hs))

theorem Keeps.strapForce {s : State} {h : Half} {bootSel platInit smbAddr media fips : ℕ} (hs : Keeps s₀ s) :
    Keeps s₀ (strapForce s h bootSel platInit smbAddr media fips) := by
  unfold Machine.strapForce
  exact .wr (.wr (.wr (.wr (.wr (.wr (.wr hs))))))

theorem Keeps.sidebandUp {s : State} (hs : Keeps s₀ s) :
    Keeps s₀ (sidebandUp s) := by
  unfold Machine.sidebandUp
  exact .ite (.wr (.wr hs)) hs

theorem Completes.execStrapSample {h : Half} {bootSel platInit : Fin 4} {smbAddr : Fin 8} {media fips : Bool} {s : State}
    (hs : Keeps s₀ s) :
    Completes s₀ (execStrapSample h bootSel platInit smbAddr media fips s) := by
  unfold Machine.execStrapSample
  exact .ite (.next (.hubStages (.sidebandUp (.wr (.wr (.wr (.wr (.wr (.wr (.strapForce (.wr hs))))))))))) (.next hs)

theorem Completes.execStrapCompare {s : State} (hs : Keeps s₀ s) :
    Completes s₀ (execStrapCompare s) := by
  unfold Machine.execStrapCompare
  split
  · exact .next hs
  · exact .ite (.next hs) (.next (.wr (.strapForce (.wr (.strapForce hs)))))

theorem Keeps.loadConfig {s : State} {h : Half} (hs : Keeps s₀ s) :
    Keeps s₀ (loadConfig s h) := by
  unfold Machine.loadConfig
  split
  · exact hs
  · refine .ite ?_ hs
    extract_lets +onlyGivenNames p s1
    have hs1 : Keeps s₀ s1 := .wr (.wr (.wr (.wr hs)))
    exact .upd hs1

theorem Keeps.startImage {s : State} {h : Half} {n : ℕ} {i : FlashImage} (hs : Keeps s₀ s) :
    Keeps s₀ (startImage s h n i) := by
  unfold Machine.startImage
  exact .loadConfig (.wr (.wr (.wr (.wr hs))))

theorem Completes.execRomBoot {h : Half} {okA okB : Bool} {s : State} (hs : Keeps s₀ s) :
    Completes s₀ (execRomBoot h okA okB s) := by
  unfold Machine.execRomBoot
  refine .ite ?_ (.next hs)
  refine .ite (.next (.hubStages (.wr hs))) ?_
  split
  · exact .next (.hubStages (.startImage hs))
  · exact .next (.hubStages (.bootFail (.wr hs)))

theorem Completes.execSelftestPreop {h : Half} {ok : Bool} {s : State} (hs : Keeps s₀ s) :
    Completes s₀ (execSelftestPreop h ok s) := by
  unfold Machine.execSelftestPreop
  refine .ite ?_ (.next hs)
  extract_lets +onlyGivenNames s1
  have hs1 : Keeps s₀ s1 := .wr hs
  exact .ite (.next (.hubStages (.wr hs1))) (.next (.hubStages (.securityEvent (.bootFail hs1))))

theorem Keeps.settleOn {s : State} {h : Half} (hs : Keeps s₀ s) :
    Keeps s₀ (settleOn s h) := by
  unfold Machine.settleOn
  extract_lets +onlyGivenNames s1 s2
  have hs2 : Keeps s₀ s2 := .lockExchange (.wr (.wr (.ite hs (.gainRoles hs))))
  exact .stageDone (.thermPrime (.ite (.auxDriveAll hs2) hs2))

theorem Keeps.settleNobody {s : State} (hs : Keeps s₀ s) :
    Keeps s₀ (settleNobody s) := by
  unfold Machine.settleNobody
  exact .stageDone (.wr hs)

theorem Completes.execRoleSettle {s : State} (hs : Keeps s₀ s) :
    Completes s₀ (execRoleSettle s) := by
  unfold Machine.execRoleSettle
  exact .ite (.ite (.next (.settleOn hs)) (.ite (.next (.settleOn hs)) (.ite (.next hs) (.next (.settleNobody hs))))) (.next hs)

theorem Keeps.settlePass {s : State} {h : Half} (hs : Keeps s₀ s) :
    Keeps s₀ (settlePass s h) := by
  unfold Machine.settlePass
  extract_lets +onlyGivenNames s1
  have hs1 : Keeps s₀ s1 := .thermRun hs
  exact .ite (.wr (.leaveCauses hs1)) (.ite (.stageDone hs1) hs1)

theorem Completes.execSettleSample {tOut : Option ℕ} {tj : ℕ} {s : State} (hs : Keeps s₀ s) :
    Completes s₀ (execSettleSample tOut tj s) := by
  unfold Machine.execSettleSample
  split
  · exact .next hs
  · refine .ite (.next hs) ?_
    split
    · exact .next (.wr hs)
    · extract_lets +onlyGivenNames run s1 s2
      have hs2 : Keeps s₀ s2 := .wr (.wr (.wr (.wr (.wr (.wr hs)))))
      exact .next (.ite (.settlePass hs2) hs2)

theorem Keeps.settleTimeout {s : State} {h : Half} (hs : Keeps s₀ s) :
    Keeps s₀ (settleTimeout s h) := by
  unfold Machine.settleTimeout
  extract_lets +onlyGivenNames s1 s2
  have hs2 : Keeps s₀ s2 := .wr (.wr (.thermStatus (.thermFail hs)))
  exact .ite (.stageDone (.bootFail hs2)) hs2

theorem Completes.execSettleTimeout {s : State} (hs : Keeps s₀ s) :
    Completes s₀ (execSettleTimeout s) := by
  unfold Machine.execSettleTimeout
  split
  · exact .next hs
  · exact .ite (.next (.settleTimeout hs)) (.next hs)

theorem Keeps.settleOver {s : State} (hs : Keeps s₀ s) :
    Keeps s₀ (settleOver s) := by
  unfold Machine.settleOver
  split
  · exact hs
  · exact .ite (.stageDone hs) hs

theorem Completes.execStartupDieTrain {failed : ℕ} {s : State} (hs : Keeps s₀ s) :
    Completes s₀ (execStartupDieTrain failed s) := by
  unfold Machine.execStartupDieTrain
  refine .ite (.next (.wr (.trainDies hs))) ?_
  extract_lets +onlyGivenNames s1
  have hs1 : Keeps s₀ s1 := .settleOver hs
  exact .ite (.next (.stageDone (.ite (.trainDies hs1) hs1))) (.next hs)

theorem Keeps.trainStack {s : State} {k : Half} {fails : Bool} (hs : Keeps s₀ s) :
    Keeps s₀ (trainStack s k fails) := by
  unfold Machine.trainStack
  exact .ite hs (.ite (.diesOff (.bootFail (.wr (.wr hs)))) (.wr hs))

theorem Completes.execStartupHbmTrain {failed : Fin 4} {s : State} (hs : Keeps s₀ s) :
    Completes s₀ (execStartupHbmTrain failed s) := by
  unfold Machine.execStartupHbmTrain
  exact .ite (.next (.stageDone (.trainStack (.trainStack hs)))) (.next hs)

theorem Keeps.passFailed {s : State} {h : Half} (hs : Keeps s₀ s) :
    Keeps s₀ (passFailed s h) := by
  unfold Machine.passFailed
  exact .ite (.passDeclare (.bootFail (.wr hs))) hs

theorem Completes.execStartupPassTrain {ok : Bool} {spares0 spares1 : ℕ} {s : State} (hs : Keeps s₀ s) :
    Completes s₀ (execStartupPassTrain ok spares0 spares1 s) := by
  unfold Machine.execStartupPassTrain
  exact .ite (.next (.stageDone (.ite (.passTrained hs) (.passFailed (.passFailed hs))))) (.next hs)

theorem Keeps.pcieReady {s : State} {h : Half} (hs : Keeps s₀ s) :
    Keeps s₀ (pcieReady s h) := by
  unfold Machine.pcieReady
  refine .ite ?_ hs
  extract_lets +onlyGivenNames s1
  have hs1 : Keeps s₀ s1 := .wr (.wr hs)
  exact .ite (.emit hs1) hs1

theorem Keeps.raiseArb {s : State} (hs : Keeps s₀ s) :
    Keeps s₀ (raiseArb s) := by
  unfold Machine.raiseArb
  exact .ite (.wr (.wr hs)) hs

theorem Keeps.lostDeltas {s : State} {h : Half} (hs : Keeps s₀ s) :
    Keeps s₀ (lostDeltas s h) := by
  unfold Machine.lostDeltas
  exact .ite (.ldgGap (.wr hs)) hs

theorem Completes.execStartupPcieReady {s : State} (hs : Keeps s₀ s) :
    Completes s₀ (execStartupPcieReady s) := by
  unfold Machine.execStartupPcieReady
  exact .ite (.next (.lostDeltas (.bootRecord (.raiseArb (.serviceUpdate (.stageDone (.wr (.pcieReady (.pcieReady hs))))))))) (.next hs)

theorem Completes.execStartupCoreTest {failing : List ℕ} {s : State} (hs : Keeps s₀ s) :
    Completes s₀ (execStartupCoreTest failing s) := by
  unfold Machine.execStartupCoreTest
  exact .ite (.next (.finishExit (.stageF hs))) (.ite (.next (.stageDone (.ite hs (.stageF hs)))) (.next hs))

theorem Keeps.arrLevel {s : State} {lvl : ℕ} (hs : Keeps s₀ s) :
    Keeps s₀ (arrLevel s lvl) := by
  unfold Machine.arrLevel
  exact .wr (.wr (.wr (.wr hs)))

theorem Completes.execStartupPlateauEnable {s : State} (hs : Keeps s₀ s) :
    Completes s₀ (execStartupPlateauEnable s) := by
  unfold Machine.execStartupPlateauEnable
  exact .ite (.next (.stageDone (.ite (.arrLevel hs) hs))) (.next hs)

theorem Keeps.pllTimeout {s : State} (hs : Keeps s₀ s) :
    Keeps s₀ (pllTimeout s) := by
  unfold Machine.pllTimeout
  exact .stageDone (.ite (.platStatus hs) hs)

theorem Completes.execPlateauEnablePllTimeout {s : State} (hs : Keeps s₀ s) :
    Completes s₀ (execPlateauEnablePllTimeout s) := by
  unfold Machine.execPlateauEnablePllTimeout
  exact .ite (.next (.pllTimeout hs)) (.next hs)

theorem Keeps.judge {s : State} {comp : Bool} (hs : Keeps s₀ s) :
    Keeps s₀ (judge s comp) := by
  unfold Machine.judge
  refine .ite ?_ ?_
  · extract_lets +onlyGivenNames s1
    have hs1 : Keeps s₀ s1 := .leaveCauses (.wr hs)
    exact .ite hs1 (.lowlandOut hs1)
  · refine .ite hs ?_
    extract_lets +onlyGivenNames n s1
    have hs1 : Keeps s₀ s1 := .wr hs
    exact .ite (.lowlandCause hs1) hs1

theorem Keeps.computeReady {s : State} (hs : Keeps s₀ s) :
    Keeps s₀ (computeReady s) := by
  unfold Machine.computeReady
  extract_lets +onlyGivenNames s1
  have hs1 : Keeps s₀ s1 := .serviceUpdate (.wr (.stageDone hs))
  exact .ledger (.raiseCause (.raiseCause (.judge (.ite (.wr hs1) hs1))))

theorem Completes.execComputeReady {s : State} (hs : Keeps s₀ s) :
    Completes s₀ (execComputeReady s) := by
  unfold Machine.execComputeReady
  exact .ite (.next (.computeReady hs)) (.next hs)

theorem Keeps.failHubs {s : State} {n : ℕ} (hs : Keeps s₀ s) :
    Keeps s₀ (failHubs s n) := by
  unfold Machine.failHubs
  exact .stageDone (.ite (.ite hs (.ite (.failHub hs) (.wr (.ite (.bootFail hs) hs)))) (.ite (.failHub (.ite hs (.ite (.failHub hs) (.wr
      (.ite (.bootFail hs) hs))))) (.wr (.ite (.bootFail (.ite hs (.ite (.failHub hs) (.wr (.ite (.bootFail hs) hs))))) (.ite hs (.ite
      (.failHub hs) (.wr (.ite (.bootFail hs) hs))))))))

theorem Keeps.endStage {s : State} (hs : Keeps s₀ s) :
    Keeps s₀ (endStage s) := by
  unfold Machine.endStage
  split
  · exact .failHubs hs
  · exact .failHubs hs
  · exact .failHubs hs
  · exact .settleNobody (.wr hs)
  · split
    · exact .ite (.settleTimeout hs) (.stageDone hs)
    · exact .stageDone hs
  · exact .stageDone (.ite (.trainDies hs) hs)
  · exact .stageDone (.trainStack (.trainStack hs))
  · exact .stageDone (.passFailed (.passFailed hs))
  · exact .stageDone hs
  · exact .stageDone (.ite hs (.stageF hs))
  · exact .pllTimeout hs
  · exact .computeReady hs
  · exact hs

theorem Completes.execStageBoundExceeded {s : State} (hs : Keeps s₀ s) :
    Completes s₀ (execStageBoundExceeded s) := by
  unfold Machine.execStageBoundExceeded
  exact .ite (.next (.endStage hs)) (.next hs)

/-! ### Machine/McPair.lean -/

theorem Completes.execMcHeartbeatSend {h : Half} {s : State} (hs : Keeps s₀ s) :
    Completes s₀ (execMcHeartbeatSend h s) := by
  unfold Machine.execMcHeartbeatSend
  refine .ite ?_ (.next hs)
  extract_lets +onlyGivenNames s1
  have hs1 : Keeps s₀ s1 := .wr hs
  exact .next (.ite (.emit hs1) hs1)

theorem Completes.execMcHeartbeatReceive {h : Half} {s : State} (hs : Keeps s₀ s) :
    Completes s₀ (execMcHeartbeatReceive h s) := by
  unfold Machine.execMcHeartbeatReceive
  exact .ite (.next (.serviceUpdate (.wr (.wr (.wr (.wr (.wr (.wr (.wr hs))))))))) (.next hs)

theorem Completes.execGenSnapshot {s : State} (hs : Keeps s₀ s) :
    Completes s₀ (execGenSnapshot s) := by
  unfold Machine.execGenSnapshot
  split
  · exact .next hs
  · refine .ite (.next hs) ?_
    extract_lets +onlyGivenNames s1
    have hs1 : Keeps s₀ s1 := .ite (.raiseCause (.wr (.upd hs))) hs
    refine .ite ?_ (.next hs1)
    extract_lets +onlyGivenNames g s2
    have hs2 : Keeps s₀ s2 := .takeDeltas hs1
    exact .next (.emit (.wr (.wr (.upd hs2))))

theorem Completes.execGenCommitReceive {h : Half} {rec_ : List Byte} {s : State} (hs : Keeps s₀ s) :
    Completes s₀ (execGenCommitReceive h rec_ s) := by
  unfold Machine.execGenCommitReceive
  split
  · exact .next hs
  · exact .ite (.next (.wr (.commitGen hs))) (.next hs)

theorem Keeps.mcFailed {s : State} {h : Half} (hs : Keeps s₀ s) :
    Keeps s₀ (mcFailed s h) := by
  unfold Machine.mcFailed
  extract_lets +onlyGivenNames s1
  have hs1 : Keeps s₀ s1 := .wr hs
  exact .serviceUpdate (.ite (.wr hs1) hs1)

theorem Keeps.mcRestart {s : State} {h : Half} {reason : ℕ} (hs : Keeps s₀ s) :
    Keeps s₀ (mcRestart s h reason) := by
  unfold Machine.mcRestart
  extract_lets +onlyGivenNames n s1 s2 s3 s4
  have hs2 : Keeps s₀ s2 := .wr (.wr (.wr (.wr hs)))
  have hs4 : Keeps s₀ s4 := .faultRecord (.ite (.wr hs2) hs2)
  exact .ite (.mcFailed hs4) hs4

theorem Completes.execMcWatchdogExpire {h : Half} {s : State} (hs : Keeps s₀ s) :
    Completes s₀ (execMcWatchdogExpire h s) := by
  unfold Machine.execMcWatchdogExpire
  exact .ite (.next (.mcRestart hs)) (.next hs)

theorem Keeps.mcBack {s : State} {h : Half} (hs : Keeps s₀ s) :
    Keeps s₀ (mcBack s h) := by
  unfold Machine.mcBack
  extract_lets +onlyGivenNames role s1 s2 s3
  have hs1 : Keeps s₀ s1 := .wr hs
  have hs2 : Keeps s₀ s2 := .ite (.bumpless hs1) hs1
  have hs3 : Keeps s₀ s3 := .ite (.fullGeneration (.reconcile (.wr hs2))) hs2
  exact .ite (.lowlandCause (.wr (.wr hs3))) hs3

theorem Completes.execMcRestartDone {h : Half} {s : State} (hs : Keeps s₀ s) :
    Completes s₀ (execMcRestartDone h s) := by
  unfold Machine.execMcRestartDone
  exact .ite (.next (.serviceUpdate (.mcBack hs))) (.next hs)

theorem Completes.execMcRestartTimeout {h : Half} {s : State} (hs : Keeps s₀ s) :
    Completes s₀ (execMcRestartTimeout h s) := by
  unfold Machine.execMcRestartTimeout
  exact .ite (.next (.mcFailed hs)) (.next hs)

theorem Completes.execBothMcFailForce {s : State} (hs : Keeps s₀ s) :
    Completes s₀ (execBothMcFailForce s) := by
  unfold Machine.execBothMcFailForce
  split
  · exact .next hs
  · exact .ite (.next hs) (.next (.wr (.wr (.loopDuties hs))))

theorem Completes.execPeerFailTimeout {h : Half} {s : State} (hs : Keeps s₀ s) :
    Completes s₀ (execPeerFailTimeout h s) := by
  unfold Machine.execPeerFailTimeout
  refine .ite ?_ (.next hs)
  extract_lets +onlyGivenNames s1
  have hs1 : Keeps s₀ s1 := .raiseCause (.wr hs)
  exact .ite (.next (.emit (.wr (.wr hs1)))) (.next hs1)

theorem Completes.execRevokeRetry {h : Half} {s : State} (hs : Keeps s₀ s) :
    Completes s₀ (execRevokeRetry h s) := by
  unfold Machine.execRevokeRetry
  exact .ite (.next (.emit hs)) (.next hs)

theorem Keeps.takeover {s : State} {h : Half} (hs : Keeps s₀ s) :
    Keeps s₀ (takeover s h) := by
  unfold Machine.takeover
  exact .serviceUpdate (.raiseCause (.wr (.wr (.wr (.wr (.faultLog (.faultRecord (.resumeFrom (.takeOwn (.ldgGap (.setLatch
      (.passLedger hs))))))))))))

theorem Completes.execRevokeReceive {h : Half} {s : State} (hs : Keeps s₀ s) :
    Completes s₀ (execRevokeReceive h s) := by
  unfold Machine.execRevokeReceive
  exact .ite (.next (.takeover (.mcRestart (.emit (.loseRoles hs))))) (.next hs)

/-! ### Machine/Power.lean -/

theorem Keeps.railTamper {s : State} (hs : Keeps s₀ s) :
    Keeps s₀ (railTamper s) := by
  unfold Machine.railTamper
  exact .tamper (.tamper hs)

theorem Completes.execRailExcursion {rail : Rail} {beyond10 : Bool} {s : State} (hs : Keeps s₀ s) :
    Completes s₀ (execRailExcursion rail beyond10 s) := by
  unfold Machine.execRailExcursion
  refine .ite (.next hs) ?_
  split
  · exact .ite (.next hs) (.next (.loseDie (.raisePwr hs)))
  · extract_lets +onlyGivenNames s1
    have hs1 : Keeps s₀ s1 := .wr hs
    exact .ite (.next (.serviceUpdate (.railTamper hs1))) (.next (.serviceUpdate (.chipStep (.raisePwr hs1))))

theorem Completes.execDiePgTimeout {die : Fin 8} {s : State} (hs : Keeps s₀ s) :
    Completes s₀ (execDiePgTimeout die s) := by
  unfold Machine.execDiePgTimeout
  exact .ite (.next (.trainDie hs)) (.next hs)

theorem Completes.execInputPowerOver {s : State} (hs : Keeps s₀ s) :
    Completes s₀ (execInputPowerOver s) := by
  unfold Machine.execInputPowerOver
  exact .next (.raisePwr hs)

theorem Completes.execPwrInputRead {h : Half} {avg high : ℕ} {s : State} (hs : Keeps s₀ s) :
    Completes s₀ (execPwrInputRead h avg high s) := by
  unfold Machine.execPwrInputRead
  exact .next (.emit (.wr (.wr (.wr (.wr hs)))))

theorem Completes.execIrqRouteWrite {h : Half} {k : Fin 15} {en : Bool} {vec : Fin 64} {mask : ℕ} {s : State} (hs : Keeps s₀ s) :
    Completes s₀ (execIrqRouteWrite h k en vec mask s) := by
  unfold Machine.execIrqRouteWrite
  exact .next (.routeMessage (.wr (.wr (.wr hs))))

theorem Completes.execAuxSupplyChange {good : Bool} {s : State} (hs : Keeps s₀ s) :
    Completes s₀ (execAuxSupplyChange good s) := by
  unfold Machine.execAuxSupplyChange
  exact .next (.serviceUpdate (.wr hs))

theorem Completes.execPortEventReceive {h : Half} {s : State} (hs : Keeps s₀ s) :
    Completes s₀ (execPortEventReceive h s) := by
  unfold Machine.execPortEventReceive
  split
  · exact .next hs
  · exact .next (.postEvent (.upd hs))

/-! ### Machine/Mgmt.lean -/

theorem Keeps.snapGroup {s : State} {h : Half} {g : ℕ} (hs : Keeps s₀ s) :
    Keeps s₀ (snapGroup s h g) := by
  unfold Machine.snapGroup
  exact .ite (.wr (.wr (.ite (.wr (.wr (.wr (.foldl hs (fun _ _ ht' => .wr ht'))))) (.foldl hs (fun _ _ ht' => .wr ht'))))) hs

theorem Completes.execTelSnapWrite {h : Half} {mask : ℕ} {s : State} (hs : Keeps s₀ s) :
    Completes s₀ (execTelSnapWrite h mask s) := by
  unfold Machine.execTelSnapWrite
  exact .next (.foldl hs (fun _ _ ht => .ite (.snapGroup ht) ht))

theorem Keeps.histClear {s : State} {h : Half} {k : ℕ} (hs : Keeps s₀ s) :
    Keeps s₀ (histClear s h k) := by
  unfold Machine.histClear
  exact .wr (.wr (.wr (.wr (.foldl hs (fun _ _ ht => .wr ht)))))

theorem Completes.execHistCfgWrite {h : Half} {k : Fin 16} {v : ℕ} {s : State} (hs : Keeps s₀ s) :
    Completes s₀ (execHistCfgWrite h k v s) := by
  unfold Machine.execHistCfgWrite
  extract_lets +onlyGivenNames rd clears
  refine .ite (.next (.telStatus hs)) ?_
  extract_lets +onlyGivenNames s1 s2 s3
  have hs3 : Keeps s₀ s3 := .wr (.wr (.wr (.wr (.wr (.wr hs)))))
  exact .next (.telStatus (.ite (.histClear hs3) hs3))

theorem Keeps.smbBits {s : State} {h : Half} {clk dat : Bool} (hs : Keeps s₀ s) :
    Keeps s₀ (smbBits s h clk dat) := by
  unfold Machine.smbBits
  exact .wr (.wr hs)

theorem Completes.execSmbusStuck {h : Half} {clk dat : Bool} {s : State} (hs : Keeps s₀ s) :
    Completes s₀ (execSmbusStuck h clk dat s) := by
  unfold Machine.execSmbusStuck
  exact .ite (.next hs) (.next (.ledger (.smbBits hs)))

theorem Completes.execSmbusStuckRetry {h : Half} {clk dat : Bool} {s : State} (hs : Keeps s₀ s) :
    Completes s₀ (execSmbusStuckRetry h clk dat s) := by
  unfold Machine.execSmbusStuckRetry
  exact .next (.ite (.smbBits hs) hs)

theorem Completes.mctpRun {s : State} {f : Half → State} (hs : Keeps s₀ s) (hf : ∀ u, Keeps s₀ (f u)) :
    Completes s₀ (mctpRun s f) := by
  unfold Machine.mctpRun
  split
  · exact .next (hf _)
  · exact .next hs

theorem Keeps.mctpSend {s : State} {h : Half} {type : ℕ} {b : List Byte} (hs : Keeps s₀ s) :
    Keeps s₀ (mctpSend s h type b) := by
  unfold Machine.mctpSend
  exact .mctpOut hs

theorem Keeps.controlRsp {s : State} {h : Half} {cmd code : ℕ} {b : List Byte} (hs : Keeps s₀ s) :
    Keeps s₀ (controlRsp s h cmd code b) := by
  unfold Machine.controlRsp
  exact .mctpSend hs

theorem Completes.execMctpSetEndpointId {op : Fin 4} {eid : Fin 256} {s : State} (hs : Keeps s₀ s) :
    Completes s₀ (execMctpSetEndpointId op eid s) := by
  unfold Machine.execMctpSetEndpointId
  exact .mctpRun hs (fun _ => .ite (.controlRsp (.wr hs)) (.controlRsp hs))

theorem Completes.execMctpGetEndpointId {s : State} (hs : Keeps s₀ s) :
    Completes s₀ (execMctpGetEndpointId s) := by
  unfold Machine.execMctpGetEndpointId
  exact .mctpRun hs (fun _ => .controlRsp hs)

theorem Completes.execMctpGetEndpointUuid {s : State} (hs : Keeps s₀ s) :
    Completes s₀ (execMctpGetEndpointUuid s) := by
  unfold Machine.execMctpGetEndpointUuid
  exact .mctpRun hs (fun _ => .controlRsp hs)

theorem Completes.execMctpGetVersionSupport {type : Fin 256} {s : State} (hs : Keeps s₀ s) :
    Completes s₀ (execMctpGetVersionSupport type s) := by
  unfold Machine.execMctpGetVersionSupport
  exact .mctpRun hs (fun _ => .ite (.controlRsp hs) (.controlRsp hs))

theorem Completes.execMctpGetMsgTypeSupport {s : State} (hs : Keeps s₀ s) :
    Completes s₀ (execMctpGetMsgTypeSupport s) := by
  unfold Machine.execMctpGetMsgTypeSupport
  exact .mctpRun hs (fun _ => .controlRsp hs)

theorem Keeps.pldmRsp {s : State} {h : Half} {type cmd code : ℕ} {b : List Byte} (hs : Keeps s₀ s) :
    Keeps s₀ (pldmRsp s h type cmd code b) := by
  unfold Machine.pldmRsp
  exact .mctpSend hs

theorem Completes.execPldmBase {cmd arg : Fin 256} {s : State} (hs : Keeps s₀ s) :
    Completes s₀ (execPldmBase cmd arg s) := by
  unfold Machine.execPldmBase
  exact .mctpRun hs (fun _ => .ite (.ite (.pldmRsp hs) (.pldmRsp (.wr hs))) (.ite (.pldmRsp hs) (.ite (.pldmRsp hs) (.ite (.ite
      (.pldmRsp hs) (.ite (.pldmRsp hs) (.pldmRsp hs))) (.pldmRsp hs)))))

theorem Completes.execPldmGetPdr {handle : ℕ} {s : State} (hs : Keeps s₀ s) :
    Completes s₀ (execPldmGetPdr handle s) := by
  unfold Machine.execPldmGetPdr
  exact .mctpRun hs (fun _ => .ite (.pldmRsp hs) (.pldmRsp hs))

theorem Completes.execPldmGetSensorReading {id tj : ℕ} {s : State} (hs : Keeps s₀ s) :
    Completes s₀ (execPldmGetSensorReading id tj s) := by
  unfold Machine.execPldmGetSensorReading
  refine .mctpRun hs (fun _ => ?_)
  split
  · exact .pldmRsp hs
  · exact .ite (.pldmRsp hs) (.pldmRsp hs)

theorem Completes.execPldmGetStateSensors {id : ℕ} {s : State} (hs : Keeps s₀ s) :
    Completes s₀ (execPldmGetStateSensors id s) := by
  unfold Machine.execPldmGetStateSensors
  refine .mctpRun hs (fun _ => ?_)
  split
  · exact .pldmRsp hs
  · exact .pldmRsp hs

theorem Completes.execSmbAlertTimeout {s : State} (hs : Keeps s₀ s) :
    Completes s₀ (execSmbAlertTimeout s) := by
  unfold Machine.execSmbAlertTimeout
  split
  · exact .next (.ite (.drivePin (.wr hs)) hs)
  · exact .next hs

theorem Completes.execPldmEventAck {s : State} (hs : Keeps s₀ s) :
    Completes s₀ (execPldmEventAck s) := by
  unfold Machine.execPldmEventAck
  split
  · exact .next hs
  · extract_lets +onlyGivenNames s1
    have hs1 : Keeps s₀ s1 := .upd hs
    split
    · exact .next (.ite hs1 (.drivePin (.wr hs1)))
    · exact .next (.wr hs1)

theorem Keeps.storeImage {s : State} {h : Half} {slot : ℕ} {i : FlashImage} (hs : Keeps s₀ s) :
    Keeps s₀ (storeImage s h slot i) := by
  unfold Machine.storeImage
  extract_lets +onlyGivenNames s1
  have hs1 : Keeps s₀ s1 := .ite (.upd hs) (.upd hs)
  exact .ite (.ledger hs1) hs1

theorem Completes.execPldmFwUpdate {addr : Fin 128} {config : Bool} {image : FlashImage} {s : State} (hs : Keeps s₀ s) :
    Completes s₀ (execPldmFwUpdate addr config image s) := by
  unfold Machine.execPldmFwUpdate
  split
  · exact .next hs
  · refine .ite (.next (.pldmRsp hs)) ?_
    refine .ite (.next (.pldmRsp (.upd hs))) ?_
    split
    · exact .next (.pldmRsp (.storeImage (.drawFree hs)))
    · exact .next (.pldmRsp hs)

theorem Keeps.vendorSend {s : State} {h : Half} {b : List Byte} (hs : Keeps s₀ s) :
    Keeps s₀ (vendorSend s h b) := by
  unfold Machine.vendorSend
  exact .mctpOut hs

theorem Completes.execReadinessQuery {s : State} (hs : Keeps s₀ s) :
    Completes s₀ (execReadinessQuery s) := by
  unfold Machine.execReadinessQuery
  exact .mctpRun hs (fun _ => .vendorSend (.drawFree hs))

theorem Completes.execMctpChipReset {s : State} (hs : Keeps s₀ s) :
    Completes s₀ (execMctpChipReset s) := by
  unfold Machine.execMctpChipReset
  exact .mctpRun hs (fun _ => .ite hs (.chipStep hs))

theorem Completes.execMctpTrayCycle {s : State} (hs : Keeps s₀ s) :
    Completes s₀ (execMctpTrayCycle s) := by
  unfold Machine.execMctpTrayCycle
  exact .mctpRun hs (fun _ => .ite hs (.trayStep hs))

theorem Completes.execLedgerReadMsg {seq : ℕ} {s : State} (hs : Keeps s₀ s) :
    Completes s₀ (execLedgerReadMsg seq s) := by
  unfold Machine.execLedgerReadMsg
  exact .mctpRun hs (fun _ => .ite (.vendorSend hs) (.vendorSend hs))

theorem Completes.execHistoryRead {s : State} (hs : Keeps s₀ s) :
    Completes s₀ (execHistoryRead s) := by
  unfold Machine.execHistoryRead
  exact .mctpRun hs (fun _ => .vendorSend hs)

/-! ### Machine/Parts.lean -/

theorem Keeps.goKeys {s : State} {h : Half} {p : ℕ} (hs : Keeps s₀ s) : Keeps s₀ (goKeys s h p).2 := by
  unfold Machine.goKeys
  extract_lets v ns k
  have hv : Keeps s₀ v.2 := .drawKey hs
  have hk : Keeps s₀ k.2 := .drawKey hv
  exact .iteOn Prod.snd hv hk

theorem Completes.execPartGo {h : Half} {p : GoCmd} {s : State} (hs : Keeps s₀ s) :
    Completes s₀ (execPartGo h p s) := by
  unfold Machine.execPartGo
  exact .ite (.next (.partStatus hs)) (.ite (.next (.securityEvent (.partStatus hs))) (.next (.startMirror (.wr (.goKeys hs)))))

theorem Completes.execPartRelease {h : Half} {p : Fin 64} {s : State} (hs : Keeps s₀ s) :
    Completes s₀ (execPartRelease h p s) := by
  unfold Machine.execPartRelease
  exact .ite (.next (.partStatus hs)) (.ite (.next (.partStatus hs)) (.ite (.next (.partStatus hs)) (.next (.partStatus
      (.beginRelease hs)))))

theorem Keeps.scrubBanks {s : State} {h : Half} {p : ℕ} (hs : Keeps s₀ s) : Keeps s₀ (scrubBanks s h p) := by
  unfold Machine.scrubBanks
  exact .foldl hs fun _ _ ht => .foldl ht fun _ _ hu => .ite (.setBank (hu.setMem (Memory.wf_clearRange _ _))) hu

theorem Keeps.scrubSlots {s : State} {h : Half} {p : ℕ} (hs : Keeps s₀ s) :
    Keeps s₀ (scrubSlots s h p) := by
  unfold Machine.scrubSlots
  extract_lets +onlyGivenNames mine s1
  have hs1 : Keeps s₀ s1 := .foldl hs (fun _ _ ht => .clearSlots (.wipe ht))
  exact .refreshNodes (.refreshValley (.upd hs1))

theorem Keeps.scrubRanges {s : State} {h : Half} {p : ℕ} (hs : Keeps s₀ s) :
    Keeps s₀ (scrubRanges s h p) := by
  unfold Machine.scrubRanges
  exact .wipe (.wipe hs)

theorem Keeps.emptyAdapters {s : State} {h : Half} {p : ℕ} (hs : Keeps s₀ s) :
    Keeps s₀ (emptyAdapters s h p) := by
  unfold Machine.emptyAdapters
  exact .foldl hs (fun _ _ ht => .wr ht)

theorem Completes.execReleaseDrained {h : Half} {p : Fin 64} {s : State} (hs : Keeps s₀ s) :
    Completes s₀ (execReleaseDrained h p s) := by
  unfold Machine.execReleaseDrained
  exact .ite (.next (.wr (.emptyAdapters (.scrubBanks (.scrubSlots (.scrubRanges (.tellMirror (.zeroizeKeys hs)))))))) (.next hs)

theorem Completes.execReleaseScrubDone {h : Half} {p : Fin 64} {s : State} (hs : Keeps s₀ s) :
    Completes s₀ (execReleaseScrubDone h p s) := by
  unfold Machine.execReleaseScrubDone
  exact .ite (.next (.startMirror hs)) (.next hs)

theorem Completes.execPartConfigWrite {h : Half} {p : Fin 64} {reg : Fin 4} {w : Fin 8} {v : ℕ} {s : State} (hs : Keeps s₀ s) :
    Completes s₀ (execPartConfigWrite h p reg w v s) := by
  unfold Machine.execPartConfigWrite
  refine .ite (.next (.partStatus hs)) ?_
  extract_lets +onlyGivenNames s1
  have hs1 : Keeps s₀ s1 := .partStatus hs
  refine .next ?_
  split
  · exact .wr (.wr hs1)
  · exact .wr (.wr hs1)
  · exact .wr hs1
  · exact .wr hs1

theorem Completes.execShrWrite {h : Half} {k : Fin 8} {v : ℕ} {s : State} (hs : Keeps s₀ s) :
    Completes s₀ (execShrWrite h k v s) := by
  unfold Machine.execShrWrite
  exact .ite (.next (.wr hs)) (.ite (.next (.wr hs)) (.next (.wr (.wr (.wr (.wr hs))))))

theorem Keeps.putWords {s : State} {f : Fld} {h : Half} {b : List ℕ} (hs : Keeps s₀ s) :
    Keeps s₀ (putWords s f h b) := by
  unfold Machine.putWords
  exact .foldl hs (fun _ _ ht => .wr ht)

theorem Completes.execKimpStart {h : Half} {offer : KimpOffer} {s : State} (hs : Keeps s₀ s) :
    Completes s₀ (execKimpStart h offer s) := by
  unfold Machine.execKimpStart
  exact .ite (.next (.kimpStatus hs)) (.ite (.next (.kimpStatus (.wr hs))) (.ite (.next (.securityEvent (.kimpStatus (.wr hs)))) (.next
      (.kimpStatus (.wr (.wr (.wr (.wr (.putWords (.putWords (.wr (.drawFree (.drawFree (.wr hs))))))))))))))

theorem Keeps.wipeWrap {s : State} {h : Half} (hs : Keeps s₀ s) :
    Keeps s₀ (wipeWrap s h) := by
  unfold Machine.wipeWrap
  exact .putWords hs

theorem Keeps.installEgress {s : State} {h : Half} {party : ℕ} {key : List ℕ} (hs : Keeps s₀ s) :
    Keeps s₀ (installEgress s h party key) := by
  unfold Machine.installEgress
  exact .startMirror (.wipeWrap hs)

theorem Completes.execKimpCommit {h : Half} {s : State} (hs : Keeps s₀ s) :
    Completes s₀ (execKimpCommit h s) := by
  unfold Machine.execKimpCommit
  extract_lets +onlyGivenNames party st
  refine .ite (.next (.kimpStatus (.dropEphemeral hs))) ?_
  split
  · exact .next (.kimpStatus (.dropEphemeral hs))
  · exact .next (.installEgress (.dropEphemeral hs))

theorem Completes.execKimpAbort {h : Half} {s : State} (hs : Keeps s₀ s) :
    Completes s₀ (execKimpAbort h s) := by
  unfold Machine.execKimpAbort
  exact .next (.kimpStatus (.dropEphemeral hs))

theorem Completes.execKimpExpire {h : Half} {s : State} (hs : Keeps s₀ s) :
    Completes s₀ (execKimpExpire h s) := by
  unfold Machine.execKimpExpire
  exact .ite (.next (.dropEphemeral hs)) (.next hs)

theorem Completes.execKimpPlain {h : Half} {party : ℕ} {s : State} (hs : Keeps s₀ s) :
    Completes s₀ (execKimpPlain h party s) := by
  unfold Machine.execKimpPlain
  extract_lets +onlyGivenNames s1
  have hs1 : Keeps s₀ s1 := .wr hs
  exact .ite (.next (.kimpStatus hs)) (.ite (.next (.kimpStatus hs1)) (.ite (.next (.kimpStatus hs1)) (.next (.installEgress hs1))))

theorem Completes.execArbFuseBlow {s : State} (hs : Keeps s₀ s) :
    Completes s₀ (execArbFuseBlow s) := by
  unfold Machine.execArbFuseBlow
  split
  · exact .next hs
  · exact .ite (.next (.wr (.wr hs))) (.next hs)

/-! ### Machine/RegBus.lean -/

theorem Keeps.countHoles {s : State} {h : Half} {fn off words : ℕ} (hs : Keeps s₀ s) :
    Keeps s₀ (countHoles s h fn off words) := by
  unfold Machine.countHoles
  exact .ite (.countUnmapped hs) hs

theorem Keeps.readWord {s : State} {h : Half} {fn off : ℕ} (hs : Keeps s₀ s) :
    Keeps s₀ (readWord s h fn off).1 := by
  unfold Machine.readWord
  exact .iteOn Prod.fst (.wr (.wr hs)) (.iteOn Prod.fst (.iteOn Prod.fst (.wr hs) (.raiseFunc (.inc hs))) (.countHoles hs))

theorem Keeps.answerWord {s : State} {h : Half} {fn off : ℕ} (hs : Keeps s₀ s) :
    Keeps s₀ (answerWord s h fn off) := by
  unfold Machine.answerWord
  exact .emit (.readWord hs)

theorem Completes.execRsReadLow {h : Half} {fn off : ℕ} {s : State} (hs : Keeps s₀ s) :
    Completes s₀ (execRsReadLow h fn off s) := by
  unfold Machine.execRsReadLow
  exact .ite (.next (.answerWord hs)) (.next hs)

theorem Completes.execRsReadHigh {h : Half} {fn off : ℕ} {s : State} (hs : Keeps s₀ s) :
    Completes s₀ (execRsReadHigh h fn off s) := by
  unfold Machine.execRsReadHigh
  exact .ite (.next (.answerWord hs)) (.next hs)

theorem Completes.execUnmappedAccess {h : Half} {fn off : ℕ} {write : Bool} {s : State} (hs : Keeps s₀ s) :
    Completes s₀ (execUnmappedAccess h fn off write s) := by
  unfold Machine.execUnmappedAccess
  exact .ite (.next (.ite (.countUnmapped (.dropStaged hs)) (.emit (.countUnmapped hs)))) (.next hs)

theorem Completes.resThen {r : Res} {f : State → Res} (hr : Completes s₀ r) (hf : ∀ u, Keeps s₀ u → Completes s₀ (f u)) :
    Completes s₀ (resThen r f) := by
  obtain ⟨t, rfl, ht⟩ := hr
  exact hf t ht

theorem Completes.ifBit {v b : ℕ} {f : State → Res} {s : State} (hf : ∀ u, Keeps s₀ u → Completes s₀ (f u)) (hs : Keeps s₀ s) :
    Completes s₀ (ifBit v b f s) := by
  unfold Machine.ifBit
  exact .ite (hf _ hs) (.next hs)

theorem Completes.poolCtl {h : Half} {v : ℕ} {s : State} (hs : Keeps s₀ s) :
    Completes s₀ (poolCtl h v s) := by
  unfold Machine.poolCtl
  exact .resThen (.execPoolQuiesceSet hs) (fun _ ha => .ifBit (fun _ ha' => .execPoolCommit ha') ha)

theorem Completes.ringCtl {h : Half} {fn ring v : ℕ} {s : State} (hs : Keeps s₀ s) :
    Completes s₀ (ringCtl h fn ring v s) := by
  unfold Machine.ringCtl
  exact .ite (.ifBit (fun _ ha => .execRingFstop ha) hs) (.ite (.execRingEnable hs) (.execRingDisable hs))

theorem Completes.fltCtl {h : Half} {v : ℕ} {s : State} (hs : Keeps s₀ s) :
    Completes s₀ (fltCtl h v s) := by
  unfold Machine.fltCtl
  extract_lets +onlyGivenNames arg
  split
  · exact .execFltCtxReset hs
  · exact .execFltEngReset hs
  · exact .execFltPartReset hs
  · exact .execFltChipReset hs
  · exact .execFltTrayCycle hs
  · exact .next (.fltLast hs)

theorem Completes.guarded {ok : Bool} {status : State → ℕ → State} {bad : ℕ} {store : State → State} {s : State}
    (hstatus : ∀ u v, Keeps s₀ u → Keeps s₀ (status u v)) (hstore : ∀ u, Keeps s₀ u → Keeps s₀ (store u)) (hs : Keeps s₀ s) :
    Completes s₀ (guarded ok status bad store s) := by
  unfold Machine.guarded
  exact .next (.ite (hstatus _ _ (hstore _ hs)) (hstatus _ _ hs))

theorem Completes.fltStore {h : Half} {ok : Bool} {store : State → State} {s : State} (hstore : ∀ u, Keeps s₀ u → Keeps s₀ (store u))
    (hs : Keeps s₀ s) :
    Completes s₀ (fltStore h ok store s) := by
  unfold Machine.fltStore
  exact .next (.ite (hstore _ hs) (.fltLast hs))

theorem Completes.fltConfig {h : Half} {f : FltF} {v : ℕ} {s : State} (hs : Keeps s₀ s) :
    Completes s₀ (fltConfig h f v s) := by
  unfold Machine.fltConfig
  refine .ite (.next hs) ?_
  split
  · exact .fltStore (fun _ ht => .wr (.wr (.wr (.wr ht)))) hs
  · exact .fltStore (fun _ ht => .wr (.wr ht)) hs
  · exact .fltStore (fun _ ht => .wr ht) hs

theorem Completes.fltLogCfg {h : Half} {fn v : ℕ} {s : State} (hs : Keeps s₀ s) :
    Completes s₀ (fltLogCfg h fn v s) := by
  unfold Machine.fltLogCfg
  exact .fltStore (fun _ ht => .wr (.wr (.wr ht))) hs

theorem Completes.fltBase {h : Half} {f : FltF} {fn v : ℕ} {s : State} (hs : Keeps s₀ s) :
    Completes s₀ (fltBase h f fn v s) := by
  unfold Machine.fltBase
  exact .fltStore (fun _ ht => .wr ht) hs

theorem OnSome.fltOwn {h : Half} {f : FltF} {i v : ℕ} {s : State} (hs : Keeps s₀ s) :
    OnSome (Completes s₀) (fltOwn h f i v s) := by
  unfold Machine.fltOwn
  split
  · exact .some (.fltConfig hs)
  · exact .some (.fltConfig hs)
  · exact .some (.fltConfig hs)
  · exact .some (.fltCtl hs)
  · exact .some (.fltBase hs)
  · exact .some (.fltBase hs)
  · exact .some (.fltLogCfg hs)
  · exact .some (.execFltLogCiWrite hs)
  · exact .some (.fltStore (fun _ ht => .wr (.wr ht)) hs)
  · exact .some (.ifBit (fun _ ha => .execPassRejoin ha) (.wr hs))
  · exact .none

theorem Keeps.funcIrqEnWrite {s : State} {h : Half} {fn v : ℕ} (hs : Keeps s₀ s) :
    Keeps s₀ (funcIrqEnWrite s h fn v) := by
  unfold Machine.funcIrqEnWrite
  extract_lets +onlyGivenNames s1
  have hs1 : Keeps s₀ s1 := .wr hs
  exact .ite (.sendMsix hs1) hs1

theorem OnSome.hostOwn {h : Half} {fn : ℕ} {f : HostF} {i v : ℕ} {s : State} (hs : Keeps s₀ s) :
    OnSome (Completes s₀) (hostOwn h fn f i v s) := by
  unfold Machine.hostOwn
  split
  · exact .some (.ifBit (fun _ ha => .execSetupLockSet ha) hs)
  · exact .some (.next (.funcIrqEnWrite hs))
  · exact .some (.next (.ite (.wr hs) hs))
  · exact .some (.execEvtRingWrite hs)
  · exact .some (.execRingConfigWrite hs)
  · exact .some (.execRingConfigWrite hs)
  · exact .some (.execRingConfigWrite hs)
  · exact .some (.execRingConfigWrite hs)
  · exact .some (.execRingConfigWrite hs)
  · exact .some (.ringCtl hs)
  · exact .some (.execPinAllocWrite hs)
  · exact .none

theorem OnSome.descOwn {h : Half} {fn : ℕ} {f : DescF} {i v : ℕ} {s : State} (hs : Keeps s₀ s) :
    OnSome (Completes s₀) (descOwn h fn f i v s) := by
  unfold Machine.descOwn
  extract_lets +onlyGivenNames j
  split
  · exact .some (.execEvcValWrite hs)
  · exact .some (.execEvcAddWrite hs)
  · exact .some (.execEvcAllocWrite hs)
  · exact .some (.execReqAllocWrite hs)
  · exact .none

theorem OnSome.telOwn {h : Half} {f : TelF} {i v : ℕ} {s : State} (hs : Keeps s₀ s) :
    OnSome (Completes s₀) (telOwn h f i v s) := by
  unfold Machine.telOwn
  split
  · exact .some (.execTelSnapWrite hs)
  · exact .some (.ifBit (fun _ ha => .execLedgerAdopt ha) hs)
  · exact .some (.execLedgerRead hs)
  · exact .some (.ifBit (fun _ ht => .next (.snapGroup ht)) hs)
  · exact .some (.execHistCfgWrite hs)
  · exact .some (.next (.telStatus (.wr hs)))
  · exact .none

theorem Completes.thermCtl {h : Half} {v : ℕ} {s : State} (hs : Keeps s₀ s) :
    Completes s₀ (thermCtl h v s) := by
  unfold Machine.thermCtl
  extract_lets +onlyGivenNames s0 s1
  have hs0 : Keeps s₀ s0 := .ite (.thermStatus hs) hs
  have hs1 : Keeps s₀ s1 := .ite (.wr hs0) hs0
  exact .resThen (.ite (.next hs1) (.execThermModeSet hs1)) (fun _ ha => .ifBit (fun _ ha' => .execThermStart ha') ha)

theorem Completes.platCtl {h : Half} {v : ℕ} {s : State} (hs : Keeps s₀ s) :
    Completes s₀ (platCtl h v s) := by
  unfold Machine.platCtl
  refine .ite (.next hs) ?_
  refine .ite (.next (.platStatus hs)) ?_
  extract_lets +onlyGivenNames s1
  have hs1 : Keeps s₀ s1 := .wr (.wr hs)
  exact .resThen (.ite (.execPlatCancel hs1) (.next (.platStatus hs1))) (fun _ ha => .ifBit (fun _ ha' => .execPlatRequest ha') ha)

theorem Completes.pwmCtl {h : Half} {n : Fin 4} {v : ℕ} {s : State} (hs : Keeps s₀ s) :
    Completes s₀ (pwmCtl h n v s) := by
  unfold Machine.pwmCtl
  extract_lets +onlyGivenNames r1
  have hr1 : Completes s₀ r1 := .pwmWrite hs (.ite hs (.pwmDrive (.wr hs)))
  exact .resThen (.ite (.resThen hr1 (fun _ ha => .execPwmEnable ha)) (.resThen hr1 (fun _ ha => .execPwmDisable ha))) (fun _ ha => .ifBit
      (fun _ ha' => .execPwmUpdate ha') ha)

theorem Completes.fbCtl {h : Half} {n : Fin 3} {v : ℕ} {s : State} (hs : Keeps s₀ s) :
    Completes s₀ (fbCtl h n v s) := by
  unfold Machine.fbCtl
  exact .resThen (.ifBit (fun _ ha => .execFbClrGlitch ha) hs) (fun _ ha => .execFbModeSet ha)

theorem OnSome.thmOwn {h : Half} {f : ThmF} {i v : ℕ} {s : State} (hs : Keeps s₀ s) :
    OnSome (Completes s₀) (thmOwn h f i v s) := by
  unfold Machine.thmOwn
  split
  · exact .some (.thermCtl hs)
  · exact .some (.platCtl hs)
  · exact .some (.execThermConfigWrite hs)
  · exact .some (.execThermConfigWrite hs)
  · exact .some (.execThermConfigWrite hs)
  · exact .some (.execThermConfigWrite hs)
  · exact .some (.execThermConfigWrite hs)
  · exact .some (.execThermConfigWrite hs)
  · exact .some (.execThermConfigWrite hs)
  · exact .some (.execThermConfigWrite hs)
  · exact .some (.execThermConfigWrite hs)
  · exact .some (.execThermConfigWrite hs)
  · exact .some (.execThermConfigWrite hs)
  · exact .some (.pwmCtl hs)
  · exact .some (.execPwmShadowWrite hs)
  · exact .some (.execPwmShadowWrite hs)
  · exact .some (.execTrigConfigWrite hs)
  · exact .some (.fbCtl hs)
  · exact .some (.execFbPositionWrite hs)
  · exact .some (.execAuxDiagClr hs)
  · exact .some (.pwmWrite hs (.wr hs))
  · exact .some (.next (.ite (.thermStatus (.wr hs)) hs))
  · exact .ite .none (.some (.next hs))

theorem Completes.fabMgmt {h : Half} {v : ℕ} {s : State} (hs : Keeps s₀ s) :
    Completes s₀ (fabMgmt h v s) := by
  unfold Machine.fabMgmt
  exact .ite (.next (.fabStatus hs)) (.ite (.next (.fabStatus hs)) (.next (.fabStatus (.wr (.wr (.ite hs (.wr hs)))))))

theorem Completes.portCtl {h : Half} {n : Fin 6} {v : ℕ} {s : State} (hs : Keeps s₀ s) :
    Completes s₀ (portCtl h n v s) := by
  unfold Machine.portCtl
  exact .resThen (.ifBit (fun _ ha => .execPortTrain ha) (.portStatus hs)) (fun _ ha => .ifBit (fun _ ha' => .execPortAdminDown ha') ha)

theorem OnSome.fabOwn {h : Half} {f : FabF} {i v : ℕ} {s : State} (hs : Keeps s₀ s) :
    OnSome (Completes s₀) (fabOwn h f i v s) := by
  unfold Machine.fabOwn
  split
  · exact .some (.execFabTopologyWrite hs)
  · exact .some (.execFabTopologyWrite hs)
  · exact .some (.execFabTopologyWrite hs)
  · exact .some (.ifBit (fun _ ha => .execAutoRt ha) (.fabStatus hs))
  · exact .some (.ite (.next hs) (.guarded (fun _ _ ht => .fabStatus ht) (fun _ ht => .wr (.wr (.wr ht))) hs))
  · exact .some (.ite (.next hs) (.guarded (fun _ _ ht => .fabStatus ht) (fun _ ht => .wr (.wr (.wr (.wr ht)))) hs))
  · exact .some (.fabMgmt hs)
  · exact .some (.execFabBufWrite hs)
  · exact .some (.execRtSelWrite hs)
  · exact .some (.execRouteTableWrite hs)
  · exact .some (.portCtl hs)
  · exact .none

theorem Completes.timeStore {h : Half} {ok : Bool} {store : State → State} {s : State} (hstore : ∀ u, Keeps s₀ u → Keeps s₀ (store u))
    (hs : Keeps s₀ s) :
    Completes s₀ (timeStore h ok store s) := by
  unfold Machine.timeStore
  exact .guarded (fun _ _ ht => .timeStatus ht) (fun _ ha => hstore _ ha) hs

theorem OnSome.timOwn {h : Half} {f : TimF} {i v : ℕ} {s : State} (hs : Keeps s₀ s) :
    OnSome (Completes s₀) (timOwn h f i v s) := by
  unfold Machine.timOwn
  extract_lets +onlyGivenNames off free
  split
  · exact .some (.execTimeCtlWrite hs)
  · exact .some (.timeStore (fun _ ht => .wr (.wr (.wr ht))) hs)
  · exact .some (.timeStore (fun _ ht => .wr (.wr ht)) hs)
  · exact .some (.timeStore (fun _ ht => .wr (.wr ht)) hs)
  · exact .some (.ite (.execTimeSnap hs) (.next (.timeStatus hs)))
  · exact .some (.timeStore (fun _ ht => .wr ht) hs)
  · exact .some (.execFtWrite hs)
  · exact .some (.timeStore (fun _ ht => .wr ht) hs)
  · exact .some (.next (.ppsOutWrite hs))
  · exact .some (.timeStore (fun _ ht => .wr ht) hs)
  · exact .some (.next (.cmpCtlWrite hs))
  · exact .some (.timeStore (fun _ ht => .wr ht) hs)
  · exact .some (.timeStore (fun _ ht => .wr ht) hs)
  · exact .some (.timeStore (fun _ ht => .wr ht) hs)
  · exact .some (.timeStore (fun _ ht => .wr ht) hs)
  · exact .some (.execTimeRelCtlWrite hs)
  · exact .some (.timeStore (fun _ ht => .wr (.wr ht)) hs)
  · exact .some (.timeStore (fun _ ht => .wr ht) hs)
  · exact .some (.timeStore (fun _ ht => .wr ht) hs)
  · exact .some (.timeStore (fun _ ht => .wr ht) hs)
  · exact .some (.timeStore (fun _ ht => .ptpRefresh (.wr (.wr (.wr (.wr ht))))) hs)
  · exact .none

theorem OnSome.kvOwn {h : Half} {f : KvF} {i v : ℕ} {s : State} (hs : Keeps s₀ s) :
    OnSome (Completes s₀) (kvOwn h f i v s) := by
  unfold Machine.kvOwn
  split
  · exact .some (.execKvQuotaWrite hs)
  · exact .some (.execKvQuotaWrite hs)
  · exact .some (.execKvQuotaWrite hs)
  · exact .some (.execKvQuotaWrite hs)
  · exact .some (.execKvQuotaWrite hs)
  · exact .some (.execValleyConfigWrite hs)
  · exact .some (.execValleyConfigWrite hs)
  · exact .some (.execValleyConfigWrite hs)
  · exact .some (.ifBit (fun _ ha => .execPfxFlush ha) hs)
  · exact .none

theorem OnSome.schedOwn {h : Half} {f : SchedF} {i v : ℕ} {s : State} (hs : Keeps s₀ s) :
    OnSome (Completes s₀) (schedOwn h f i v s) := by
  unfold Machine.schedOwn
  split
  · exact .some (.execBudgetCfgWrite hs)
  · exact .some (.execPartyCfgWrite hs)
  · exact .some (.execAdpAllocWrite hs)
  · exact .some (.execRingSchedWrite hs)
  · exact .none

theorem OnSome.egrOwn {h : Half} {f : EgrF} {v : ℕ} {s : State} (hs : Keeps s₀ s) :
    OnSome (Completes s₀) (egrOwn h f v s) := by
  unfold Machine.egrOwn
  split
  · exact .some (.ite (.execEgrEnable hs) (.execEgrDisable hs))
  · exact .some (.execEgrConfigWrite hs)
  · exact .some (.execEgrConfigWrite hs)
  · exact .some (.execEgrConfigWrite hs)
  · exact .some (.execEgrConfigWrite hs)
  · exact .some (.execEgrConfigWrite hs)
  · exact .some (.execEgrConfigWrite hs)
  · exact .some (.execEgrConfigWrite hs)
  · exact .none

theorem Completes.secCtl {h : Half} {v : ℕ} {s : State} (hs : Keeps s₀ s) :
    Completes s₀ (secCtl h v s) := by
  unfold Machine.secCtl
  exact .resThen (.ifBit (fun _ ht => .execSecSelftest (.drawFree ht)) hs) (fun _ ha => .ifBit (fun _ ha' => .execSecZeroizeAll ha') ha)

theorem Completes.partCtl {h : Half} {p : Fin 64} {v : ℕ} {s : State} (hs : Keeps s₀ s) :
    Completes s₀ (partCtl h p v s) := by
  unfold Machine.partCtl
  exact .resThen (.ifBit (fun _ ht => .execPartGo (.drawFree ht)) hs) (fun _ ha => .ifBit (fun _ ha' => .execPartRelease ha') ha)

theorem Completes.kimpCtl {h : Half} {v : ℕ} {s : State} (hs : Keeps s₀ s) :
    Completes s₀ (kimpCtl h v s) := by
  unfold Machine.kimpCtl
  exact .ite (.next (.kimpStatus hs)) (.resThen (.resThen (.resThen (.ifBit (fun _ ht => .execKimpStart (.drawFree ht)) (.wr hs)) (fun _
      ha => .ifBit (fun _ ha' => .execKimpCommit ha') ha)) (fun _ ha => .ifBit (fun _ ha' => .execKimpAbort ha') ha)) (fun _ ha => .ifBit
      (fun _ ha' => .execKimpPlain ha') ha))

theorem OnSome.secOwn {h : Half} {f : SecF} {i v : ℕ} {s : State} (hs : Keeps s₀ s) :
    OnSome (Completes s₀) (secOwn h f i v s) := by
  unfold Machine.secOwn
  split
  · exact .some (.secCtl hs)
  · exact .some (.partCtl hs)
  · exact .some (.execPartConfigWrite hs)
  · exact .some (.execPartConfigWrite hs)
  · exact .some (.execPartConfigWrite hs)
  · exact .some (.execPartConfigWrite hs)
  · exact .some (.execShrWrite hs)
  · exact .some (.kimpCtl hs)
  · exact .none

theorem OnSome.unitOwn {h : Half} {f : Fld} {i v : ℕ} {s : State} (hs : Keeps s₀ s) :
    OnSome (Completes s₀) (unitOwn h f i v s) := by
  unfold Machine.unitOwn
  split
  · exact .some (.execCoreCfgWrite hs)
  · exact .some (.execCoreCntClr hs)
  · exact .some (.ifBit (fun _ ha => .execDieCacheInvalidate ha) hs)
  · exact .some (.execAttnRuleWrite hs)
  · exact .some (.execCollCfgWrite hs)
  · exact .some (.execGrpCfgWrite hs)
  · exact .some (.execGrpCfgWrite hs)
  · exact .some (.execGrpCfgWrite hs)
  · exact .some (.execIrqRouteWrite hs)
  · exact .some (.poolCtl hs)
  · exact .some (.ifBit (fun _ ha => .execLowlandExit ha) hs)
  · exact .none

theorem OnSome.ownWrite {h : Half} {fn : ℕ} {f : Fld} {i v : ℕ} {s : State} (hs : Keeps s₀ s) :
    OnSome (Completes s₀) (ownWrite h fn f i v s) := by
  unfold Machine.ownWrite
  split
  · exact .hostOwn hs
  · exact .descOwn hs
  · exact .fltOwn hs
  · exact .telOwn hs
  · exact .thmOwn hs
  · exact .fabOwn hs
  · exact .timOwn hs
  · exact .kvOwn hs
  · exact .schedOwn hs
  · exact .egrOwn hs
  · exact .secOwn hs
  · exact .unitOwn hs

theorem Keeps.writeField {s : State} {h : Half} {f : FieldRow} {i v : ℕ} (hs : Keeps s₀ s) :
    Keeps s₀ (writeField s h f i v) := by
  unfold Machine.writeField
  extract_lets +onlyGivenNames x old
  split
  · exact .wr hs
  · exact .ite hs (.wr hs)
  · exact .wr hs
  · exact .wr hs
  · exact .wr hs
  · exact hs
  · exact hs

theorem Keeps.readOnlyWrite {s : State} {h : Half} {r : RegRow} (hs : Keeps s₀ s) :
    Keeps s₀ (readOnlyWrite s h r) := by
  unfold Machine.readOnlyWrite
  exact .ite (.thermStatus hs) hs

theorem Completes.writeReg {s : State} {h : Half} {fn : ℕ} {r : RegRow} {i v : ℕ} (hs : Keeps s₀ s) :
    Completes s₀ (writeReg s h fn r i v) := by
  unfold Machine.writeReg
  extract_lets +onlyGivenNames k plain
  split
  · exact OnSome.getD (.ownWrite hs) (.next (.foldl hs (fun _ _ ht => .ite ht (.writeField ht))))
  · exact .next (.readOnlyWrite hs)

theorem Completes.writeMsix {s : State} {h : Half} {fn vec word v : ℕ} (hs : Keeps s₀ s) :
    Completes s₀ (writeMsix s h fn vec word v) := by
  unfold Machine.writeMsix
  extract_lets +onlyGivenNames i a
  split
  · exact .next (.wr hs)
  · exact .next (.wr hs)
  · exact .next (.wr hs)
  · exact .ite (.next (.wr hs)) (.execMsixUnmask hs)

theorem Completes.writePlace {s : State} {h : Half} {fn : ℕ} {p : BarPlace} {v : ℕ} (hs : Keeps s₀ s) :
    Completes s₀ (writePlace s h fn p v) := by
  unfold Machine.writePlace
  split
  · exact .ite (.next hs) (.writeReg hs)
  · exact .execShipPlanWrite hs
  · exact .writeMsix hs
  · exact .next hs
  · exact .next hs

theorem Keeps.stageLow {s : State} {h : Half} {fn off v : ℕ} (hs : Keeps s₀ s) :
    Keeps s₀ (stageLow s h fn off v) := by
  unfold Machine.stageLow
  exact .wr (.wr (.dropStaged hs))

theorem Completes.writeHigh {s : State} {h : Half} {fn off v : ℕ} {r : RegRow} {i : ℕ} (hs : Keeps s₀ s) :
    Completes s₀ (writeHigh s h fn off v r i) := by
  unfold Machine.writeHigh
  exact .ite (.writeReg (.wr hs)) (.writeReg (.dropStaged hs))

theorem Completes.write4 {s : State} {h : Half} {fn off v : ℕ} (hs : Keeps s₀ s) :
    Completes s₀ (write4 s h fn off v) := by
  unfold Machine.write4
  extract_lets +onlyGivenNames p s1 d
  have hs1 : Keeps s₀ s1 := .countHoles hs
  split
  · exact .next (.ite (.stageLow hs1) hs1)
  · exact .ite (.writeHigh hs1) (.next hs1)
  · exact .writePlace (.ite (.dropStaged hs1) hs1)

theorem Completes.place8 {s : State} {h : Half} {fn off v : ℕ} (hs : Keeps s₀ s) :
    Completes s₀ (place8 s h fn off v) := by
  unfold Machine.place8
  extract_lets +onlyGivenNames p
  split
  · exact .writeReg hs
  · exact .resThen (.writePlace hs) (fun _ ht => .writePlace ht)

theorem Completes.write8 {s : State} {h : Half} {fn off v : ℕ} (hs : Keeps s₀ s) :
    Completes s₀ (write8 s h fn off v) := by
  unfold Machine.write8
  extract_lets +onlyGivenNames s1
  have hs1 : Keeps s₀ s1 := .countHoles hs
  exact .place8 (.ite (.dropStaged hs1) hs1)

theorem Completes.execRegWrite {h : Half} {fn off : ℕ} {wide : Bool} {v : ℕ} {s : State} (hs : Keeps s₀ s) :
    Completes s₀ (execRegWrite h fn off wide v s) := by
  unfold Machine.execRegWrite
  exact .ite (.ite (.write8 hs) (.write4 hs)) (.next hs)

theorem Completes.execReg64WriteLow {h : Half} {fn off v : ℕ} {s : State} (hs : Keeps s₀ s) :
    Completes s₀ (execReg64WriteLow h fn off v s) := by
  unfold Machine.execReg64WriteLow
  exact .ite (.ite (.next (.stageLow hs)) (.next hs)) (.next hs)

theorem Completes.execReg64WriteHigh {h : Half} {fn off v : ℕ} {s : State} (hs : Keeps s₀ s) :
    Completes s₀ (execReg64WriteHigh h fn off v s) := by
  unfold Machine.execReg64WriteHigh
  refine .ite ?_ (.next hs)
  extract_lets +onlyGivenNames p
  split
  · exact .ite (.writeHigh hs) (.next hs)
  · exact .next hs

theorem Keeps.readPiece {s : State} {h : Half} {fn off len : ℕ} (hs : Keeps s₀ s) :
    Keeps s₀ (readPiece s h fn off len).1 := by
  unfold Machine.readPiece
  exact .iteOn Prod.fst (.countHoles hs) (.iteOn Prod.fst (.readWord hs) (.countHoles hs))

theorem Completes.writePiece {s : State} {h : Half} {fn off : ℕ} {data : List Byte} (hs : Keeps s₀ s) :
    Completes s₀ (writePiece s h fn off data) := by
  unfold Machine.writePiece
  exact .ite (.write8 hs) (.ite (.write4 hs) (.next (.countBadWidth (.dropStaged hs))))

theorem Completes.doorbellPage {h : Half} {ring o : ℕ} {data : List Byte} {s : State} (hs : Keeps s₀ s) :
    Completes s₀ (doorbellPage h ring o data s) := by
  unfold Machine.doorbellPage
  exact .ite (.next (.dropStaged hs)) (.ite (.next (.countBadWidth (.dropStaged hs))) (.ite (.execDoorbellWrite hs)
      (.execCqDoorbellWrite hs)))

theorem Completes.execNarrowAccess {h : Half} {fn : ℕ} {bar : Bar} {off len : ℕ} {data : Option (List Byte)} {s : State} (hs : Keeps s₀ s) :
    Completes s₀ (execNarrowAccess h fn bar off len data s) := by
  unfold Machine.execNarrowAccess
  refine .ite ?_ (.next hs)
  extract_lets +onlyGivenNames ring
  split
  · exact .next (.emit (.foldlOn Prod.fst hs (fun _ _ hq => .readPiece hq)))
  · exact .foldl (.next hs) (fun _ _ hq => .resThen hq (fun _ ht => .writePiece ht))
  · exact .next (.emit hs)
  · exact .doorbellPage hs
  · exact .next (.emit hs)
  · exact .execPinnedSlotWrite hs

theorem Completes.execCounterSnap {h : Half} {fn g : ℕ} {s : State} (hs : Keeps s₀ s) :
    Completes s₀ (execCounterSnap h fn g s) := by
  unfold Machine.execCounterSnap
  exact .ite (.next (.snapGroup hs)) (.next hs)

theorem Keeps.mgmtAnswer {s : State} {h : Half} {p : Packet} {value status : ℕ} (hs : Keeps s₀ s) :
    Keeps s₀ (mgmtAnswer s h p value status) := by
  unfold Machine.mgmtAnswer
  exact .injectPacket hs

theorem Completes.execMgmtRead {h : Half} {s : State} (hs : Keeps s₀ s) :
    Completes s₀ (execMgmtRead h s) := by
  unfold Machine.execMgmtRead
  split
  · exact .next hs
  next p s1 ehs1 =>
    have hs1 : Keeps s₀ s1 := OnSome.getSnd (.takeTime hs) ehs1
    exact .ite (.next (.mgmtAnswer (.countHoles hs1))) (.next (.mgmtAnswer hs1))

theorem Completes.execMgmtWrite {h : Half} {s : State} (hs : Keeps s₀ s) :
    Completes s₀ (execMgmtWrite h s) := by
  unfold Machine.execMgmtWrite
  split
  · exact .next hs
  next p s1 ehs1 =>
    have hs1 : Keeps s₀ s1 := OnSome.getSnd (.takeTime hs) ehs1
    exact .ite (.resThen (.write8 hs1) (fun _ ht => .next (.mgmtAnswer ht))) (.next (.mgmtAnswer hs1))

/-! ### Machine/Spdm.lean -/

theorem Keeps.answer {s : State} {h : Half} {mctp : Bool} {r : SpdmRsp} (hs : Keeps s₀ s) :
    Keeps s₀ (answer s h mctp r) := by
  unfold Machine.answer
  exact .emit hs

theorem Completes.spdmRun {h : Half} {mctp : Bool} {s f : State} (hs : Keeps s₀ s) (hf : Keeps s₀ f) :
    Completes s₀ (spdmRun h mctp s f) := by
  unfold Machine.spdmRun
  exact .ite (.next hs) (.ite (.next (.answer hs)) (.next hf))

theorem Completes.execSpdmGetVersion {h : Half} {mctp : Bool} {s : State} (hs : Keeps s₀ s) :
    Completes s₀ (execSpdmGetVersion h mctp s) := by
  unfold Machine.execSpdmGetVersion
  exact .ite (.next (.answer (.wr hs))) (.next hs)

theorem Completes.execSpdmGetCapabilities {h : Half} {mctp : Bool} {s : State} (hs : Keeps s₀ s) :
    Completes s₀ (execSpdmGetCapabilities h mctp s) := by
  unfold Machine.execSpdmGetCapabilities
  exact .ite (.next hs) (.ite (.next (.answer hs)) (.next (.answer (.wr hs))))

theorem Completes.execSpdmNegotiateAlgorithms {h : Half} {mctp : Bool} {s : State} (hs : Keeps s₀ s) :
    Completes s₀ (execSpdmNegotiateAlgorithms h mctp s) := by
  unfold Machine.execSpdmNegotiateAlgorithms
  exact .spdmRun hs (.ite (.answer hs) (.answer (.wr hs)))

theorem Completes.execSpdmGetDigests {h : Half} {mctp : Bool} {s : State} (hs : Keeps s₀ s) :
    Completes s₀ (execSpdmGetDigests h mctp s) := by
  unfold Machine.execSpdmGetDigests
  exact .spdmRun hs (.ite (.answer hs) (.answer hs))

theorem Completes.execSpdmGetCertificate {h : Half} {mctp : Bool} {slot : Fin 8} {s : State} (hs : Keeps s₀ s) :
    Completes s₀ (execSpdmGetCertificate h mctp slot s) := by
  unfold Machine.execSpdmGetCertificate
  exact .spdmRun hs (.ite (.answer hs) (.answer hs))

theorem Completes.execSpdmChallenge {h : Half} {mctp : Bool} {s : State} (hs : Keeps s₀ s) :
    Completes s₀ (execSpdmChallenge h mctp s) := by
  unfold Machine.execSpdmChallenge
  exact .spdmRun hs (.ite (.answer (.drawFree hs)) (.answer hs))

theorem Completes.execSpdmGetMeasurements {h : Half} {mctp : Bool} {index : ℕ} {s : State} (hs : Keeps s₀ s) :
    Completes s₀ (execSpdmGetMeasurements h mctp index s) := by
  unfold Machine.execSpdmGetMeasurements
  exact .spdmRun hs (.ite (.answer (.drawFree hs)) (.answer hs))

theorem Keeps.refreshAuth {s : State} {h : Half} (hs : Keeps s₀ s) :
    Keeps s₀ (refreshAuth s h) := by
  unfold Machine.refreshAuth
  exact .wr hs

theorem Keeps.editSession {s : State} {h : Half} {mctp : Bool} {id : ℕ} {f : SpdmSession → Option SpdmSession} (hs : Keeps s₀ s) :
    Keeps s₀ (editSession s h mctp id f) := by
  unfold Machine.editSession
  exact .refreshAuth (.upd hs)

theorem Completes.execSpdmKeyExchange {h : Half} {mctp auth : Bool} {s : State} (hs : Keeps s₀ s) :
    Completes s₀ (execSpdmKeyExchange h mctp auth s) := by
  unfold Machine.execSpdmKeyExchange
  extract_lets +onlyGivenNames used free
  refine .spdmRun hs ?_
  refine .ite (.answer hs) ?_
  clear_value free
  split
  · exact .answer hs
  · refine .answer ?_
    extract_lets +onlyGivenNames u
    have hu : Keeps s₀ u := .drawFree hs
    exact .upd hu

theorem Completes.execSpdmFinish {h : Half} {mctp : Bool} {id : Fin 4} {ok : Bool} {root : List Byte} {s : State} (hs : Keeps s₀ s) :
    Completes s₀ (execSpdmFinish h mctp id ok root s) := by
  unfold Machine.execSpdmFinish
  exact .spdmRun hs (.ite (.ite (.answer (.editSession hs)) (.answer (.editSession hs))) (.answer hs))

theorem Completes.execSpdmHeartbeat {h : Half} {mctp : Bool} {id : Fin 4} {s : State} (hs : Keeps s₀ s) :
    Completes s₀ (execSpdmHeartbeat h mctp id s) := by
  unfold Machine.execSpdmHeartbeat
  exact .spdmRun hs (.answer hs)

theorem Completes.execSpdmKeyUpdate {h : Half} {mctp : Bool} {id : Fin 4} {s : State} (hs : Keeps s₀ s) :
    Completes s₀ (execSpdmKeyUpdate h mctp id s) := by
  unfold Machine.execSpdmKeyUpdate
  exact .spdmRun hs (.ite (.answer (.editSession hs)) (.answer hs))

theorem Completes.execSpdmEndSession {h : Half} {mctp : Bool} {id : Fin 4} {s : State} (hs : Keeps s₀ s) :
    Completes s₀ (execSpdmEndSession h mctp id s) := by
  unfold Machine.execSpdmEndSession
  exact .spdmRun hs (.ite (.answer (.editSession hs)) (.answer hs))

theorem Keeps.refreshIde {s : State} {h : Half} (hs : Keeps s₀ s) :
    Keeps s₀ (refreshIde s h) := by
  unfold Machine.refreshIde
  exact .wr hs

theorem Keeps.stopKeySet {s : State} {h : Half} {i k : ℕ} (hs : Keeps s₀ s) :
    Keeps s₀ (stopKeySet s h i k) := by
  unfold Machine.stopKeySet
  exact .ite (.ideStop hs) (.wr (.wr hs))

theorem Completes.execIdeKm {h : Half} {id : Fin 4} {stream : Fin 5} {op : IdeOp} {key : ℕ} {s : State} (hs : Keeps s₀ s) :
    Completes s₀ (execIdeKm h id stream op key s) := by
  unfold Machine.execIdeKm
  extract_lets +onlyGivenNames i
  refine .spdmRun hs ?_
  refine .ite (.answer hs) ?_
  split
  · exact .answer (.wr (.wr hs))
  · exact .ite (.answer (.refreshIde (.wr (.wr hs)))) (.answer hs)
  · exact .answer (.refreshIde (.stopKeySet hs))

theorem Completes.execIdeSecureLost {h : Half} {stream : Fin 5} {s : State} (hs : Keeps s₀ s) :
    Completes s₀ (execIdeSecureLost h stream s) := by
  unfold Machine.execIdeSecureLost
  exact .ite (.next (.dlDown (.ideStop hs))) (.next hs)

/-! ### Machine/Dispatch.lean -/

/-- Every command completes: one lemma above for each arm of `exec`. -/
theorem Completes.exec {c : Instr} {s : State} (hs : Keeps s₀ s) : Completes s₀ (exec c s) := by
  cases c with
  | passFlitReceive => exact .execPassFlitReceive hs
  | passReplayExhaust => exact .execPassReplayExhaust hs
  | passRealignDone => exact .execPassRealignDone hs
  | passLockLost => exact .execPassLockLost hs
  | passSidebandLost => exact .execPassSidebandLost hs
  | hbmRead => exact .execHbmRead hs
  | hbmWrite => exact .execHbmWrite hs
  | hostAccessFail => exact .execHostAccessFail hs
  | poolCommit => exact .execPoolCommit hs
  | poolQuiesceSet => exact .execPoolQuiesceSet hs
  | poolGranuleRequest => exact .execPoolGranuleRequest hs
  | poolGranuleRelease => exact .execPoolGranuleRelease hs
  | poolUnitComplete => exact .execPoolUnitComplete hs
  | poolForceRelease => exact .execPoolForceRelease hs
  | pkgServiceUpdate => exact .execPkgServiceUpdate hs
  | platRequest => exact .execPlatRequest hs
  | platCancel => exact .execPlatCancel hs
  | platPllLocked => exact .execPlatPllLocked hs
  | platPllTimeout => exact .execPlatPllTimeout hs
  | platSwitchTime => exact .execPlatSwitchTime hs
  | platDrainDone => exact .execPlatDrainDone hs
  | thermStart => exact .execThermStart hs
  | thermModeSet => exact .execThermModeSet hs
  | thermLoopPeriod => exact .execThermLoopPeriod hs
  | thermFailHoldExpire => exact .execThermFailHoldExpire hs
  | thermSensLossExpire => exact .execThermSensLossExpire hs
  | thermAutoDownExpire => exact .execThermAutoDownExpire hs
  | thermConfigWrite => exact .execThermConfigWrite hs
  | pwmReload => exact .execPwmReload hs
  | pwmUpdate => exact .execPwmUpdate hs
  | pwmShadowWrite => exact .execPwmShadowWrite hs
  | pwmEnable => exact .execPwmEnable hs
  | pwmDisable => exact .execPwmDisable hs
  | trigConfigWrite => exact .execTrigConfigWrite hs
  | trigSyncPulse => exact .execTrigSyncPulse hs
  | pinPulseEnd => exact .execPinPulseEnd hs
  | fbEdge => exact .execFbEdge hs
  | fbPositionWrite => exact .execFbPositionWrite hs
  | fbZsTimeout => exact .execFbZsTimeout hs
  | fbWindowEnd => exact .execFbWindowEnd hs
  | fbModeSet => exact .execFbModeSet hs
  | fbClrGlitch => exact .execFbClrGlitch hs
  | auxKeyChange => exact .execAuxKeyChange hs
  | auxFaultDetect => exact .execAuxFaultDetect hs
  | auxShortRetry => exact .execAuxShortRetry hs
  | auxDiagClr => exact .execAuxDiagClr hs
  | auxOutputDrive => exact .execAuxOutputDrive hs
  | powerGoodRise => exact .execPowerGoodRise hs
  | powerGoodFall => exact .execPowerGoodFall hs
  | strapSample => exact .execStrapSample hs
  | strapCompare => exact .execStrapCompare hs
  | romBoot => exact .execRomBoot hs
  | selftestPreop => exact .execSelftestPreop hs
  | roleSettle => exact .execRoleSettle hs
  | settleSample => exact .execSettleSample hs
  | settleTimeout => exact .execSettleTimeout hs
  | startupDieTrain => exact .execStartupDieTrain hs
  | startupHbmTrain => exact .execStartupHbmTrain hs
  | startupPassTrain => exact .execStartupPassTrain hs
  | startupPcieReady => exact .execStartupPcieReady hs
  | startupCoreTest => exact .execStartupCoreTest hs
  | startupPlateauEnable => exact .execStartupPlateauEnable hs
  | plateauEnablePllTimeout => exact .execPlateauEnablePllTimeout hs
  | computeReady => exact .execComputeReady hs
  | stageBoundExceeded => exact .execStageBoundExceeded hs
  | perstDeassert => exact .execPerstDeassert hs
  | lowlandEnter => exact .execLowlandEnter hs
  | lowlandExit => exact .execLowlandExit hs
  | regWrite => exact .execRegWrite hs
  | narrowAccess => exact .execNarrowAccess hs
  | unmappedAccess => exact .execUnmappedAccess hs
  | rsReadLow => exact .execRsReadLow hs
  | rsReadHigh => exact .execRsReadHigh hs
  | reg64WriteLow => exact .execReg64WriteLow hs
  | reg64WriteHigh => exact .execReg64WriteHigh hs
  | counterSnap => exact .execCounterSnap hs
  | setupLockSet => exact .execSetupLockSet hs
  | ringConfigWrite => exact .execRingConfigWrite hs
  | ringEnable => exact .execRingEnable hs
  | ringDisable => exact .execRingDisable hs
  | ringFstop => exact .execRingFstop hs
  | ringStopDrained => exact .execRingStopDrained hs
  | doorbellWrite => exact .execDoorbellWrite hs
  | descFetch => exact .execDescFetch hs
  | descFetchComplete => exact .execDescFetchComplete hs
  | descFetchFail => exact .execDescFetchFail hs
  | pinAllocWrite => exact .execPinAllocWrite hs
  | pinnedSlotWrite => exact .execPinnedSlotWrite hs
  | pinnedRead => exact .execPinnedRead hs
  | cqDoorbellWrite => exact .execCqDoorbellWrite hs
  | evtRingWrite => exact .execEvtRingWrite hs
  | coalTimeExpire => exact .execCoalTimeExpire hs
  | msixUnmask => exact .execMsixUnmask hs
  | perstAssert => exact .execPerstAssert hs
  | hotReset => exact .execHotReset hs
  | dlDown => exact .execDlDown hs
  | flrPf => exact .execFlrPf hs
  | flrVf => exact .execFlrVf hs
  | bmeClear => exact .execBmeClear hs
  | d3hotEnter => exact .execD3hotEnter hs
  | chainRead => exact .execChainRead hs
  | chainComplete => exact .execChainComplete hs
  | evcValWrite => exact .execEvcValWrite hs
  | evcAddWrite => exact .execEvcAddWrite hs
  | evcAllocWrite => exact .execEvcAllocWrite hs
  | reqAllocWrite => exact .execReqAllocWrite hs
  | marker => exact .execMarker hs
  | fence => exact .execFence hs
  | barrier => exact .execBarrier hs
  | timeWait => exact .execTimeWait hs
  | eventOp => exact .execEventOp hs
  | cancel => exact .execCancel hs
  | reqOpen => exact .execReqOpen hs
  | reqClose => exact .execReqClose hs
  | requestFree => exact .execRequestFree hs
  | matmul => exact .execMatmul hs
  | fused => exact .execFused hs
  | attn => exact .execAttn hs
  | attnRing => exact .execAttnRing hs
  | verify => exact .execVerify hs
  | genStep => exact .execGenStep hs
  | coll => exact .execColl hs
  | kvAlloc => exact .execKvAlloc hs
  | kvFree => exact .execKvFree hs
  | kvPin => exact .execKvPin hs
  | kvUnpin => exact .execKvUnpin hs
  | kvSpill => exact .execKvSpill hs
  | kvPrefetch => exact .execKvPrefetch hs
  | kvRollback => exact .execKvRollback hs
  | kvPause => exact .execKvPause hs
  | kvResume => exact .execKvResume hs
  | kvPrefixLookup => exact .execKvPrefixLookup hs
  | kvPrefixInsert => exact .execKvPrefixInsert hs
  | ship => exact .execShip hs
  | copy => exact .execCopy hs
  | adapterLoad => exact .execAdapterLoad hs
  | tilePass => exact .execTilePass hs
  | tileBoundary => exact .execTileBoundary hs
  | vectorStep => exact .execVectorStep hs
  | slotSwitch => exact .execSlotSwitch hs
  | spEccError => exact .execSpEccError hs
  | coreCfgWrite => exact .execCoreCfgWrite hs
  | coreCntClr => exact .execCoreCntClr hs
  | dieCacheInvalidate => exact .execDieCacheInvalidate hs
  | contextDispatch => exact .execContextDispatch hs
  | workFetch => exact .execWorkFetch hs
  | workIndexReturn => exact .execWorkIndexReturn hs
  | itemStart => exact .execItemStart hs
  | bufferLoad => exact .execBufferLoad hs
  | bufferLoadLanded => exact .execBufferLoadLanded hs
  | splitkCombine => exact .execSplitkCombine hs
  | haloReceive => exact .execHaloReceive hs
  | fusedPhase2Start => exact .execFusedPhase2Start hs
  | attnFold => exact .execAttnFold hs
  | attnComposedUnit => exact .execAttnComposedUnit hs
  | attnRangeCombine => exact .execAttnRangeCombine hs
  | attnDemandPrefetch => exact .execAttnDemandPrefetch hs
  | attnRingStep => exact .execAttnRingStep hs
  | attnRingBlockLanded => exact .execAttnRingBlockLanded hs
  | attnRuleWrite => exact .execAttnRuleWrite hs
  | evictSlotHandover => exact .execEvictSlotHandover hs
  | valleySpillStart => exact .execValleySpillStart hs
  | valleySpillIssued => exact .execValleySpillIssued hs
  | lookaheadPrefetch => exact .execLookaheadPrefetch hs
  | valleyPrefetchLand => exact .execValleyPrefetchLand hs
  | pfxFlush => exact .execPfxFlush hs
  | kvQuotaWrite => exact .execKvQuotaWrite hs
  | valleyConfigWrite => exact .execValleyConfigWrite hs
  | budgetRefill => exact .execBudgetRefill hs
  | schedSelect => exact .execSchedSelect hs
  | slotGrant => exact .execSlotGrant hs
  | urgentStandingDispatch => exact .execUrgentStandingDispatch hs
  | ringSchedWrite => exact .execRingSchedWrite hs
  | budgetCfgWrite => exact .execBudgetCfgWrite hs
  | partyCfgWrite => exact .execPartyCfgWrite hs
  | adpAllocWrite => exact .execAdpAllocWrite hs
  | genStepStart => exact .execGenStepStart hs
  | portTrain => exact .execPortTrain hs
  | portAdminDown => exact .execPortAdminDown hs
  | portPartnerDetect => exact .execPortPartnerDetect hs
  | portTrainTimeout => exact .execPortTrainTimeout hs
  | portPmdTrainDone => exact .execPortPmdTrainDone hs
  | portFecLock => exact .execPortFecLock hs
  | initFlitReceive => exact .execInitFlitReceive hs
  | flitReceive => exact .execFlitReceive hs
  | flitSendSlot => exact .execFlitSendSlot hs
  | fabricReplayTimeout => exact .execFabricReplayTimeout hs
  | fabricReplayExhaust => exact .execFabricReplayExhaust hs
  | fabricRelockDone => exact .execFabricRelockDone hs
  | laneFail => exact .execLaneFail hs
  | degradeFlitReceive => exact .execDegradeFlitReceive hs
  | laneDegradeDone => exact .execLaneDegradeDone hs
  | downNoticeReceive => exact .execDownNoticeReceive hs
  | packetRoute => exact .execPacketRoute hs
  | packetInject => exact .execPacketInject hs
  | mgmtRead => exact .execMgmtRead hs
  | mgmtWrite => exact .execMgmtWrite hs
  | portEventReceive => exact .execPortEventReceive hs
  | fabTopologyWrite => exact .execFabTopologyWrite hs
  | fabBufWrite => exact .execFabBufWrite hs
  | rtSelWrite => exact .execRtSelWrite hs
  | routeTableWrite => exact .execRouteTableWrite hs
  | autoRt => exact .execAutoRt hs
  | grpCfgWrite => exact .execGrpCfgWrite hs
  | collRun => exact .execCollRun hs
  | collCtsSend => exact .execCollCtsSend hs
  | ctsReceive => exact .execCtsReceive hs
  | collDataReceive => exact .execCollDataReceive hs
  | doneReceive => exact .execDoneReceive hs
  | countsReceive => exact .execCountsReceive hs
  | notchValueReceive => exact .execNotchValueReceive hs
  | notchBcastReceive => exact .execNotchBcastReceive hs
  | notchAbortReceive => exact .execNotchAbortReceive hs
  | collTimerExpire => exact .execCollTimerExpire hs
  | collCfgWrite => exact .execCollCfgWrite hs
  | egrEnable => exact .execEgrEnable hs
  | egrDisable => exact .execEgrDisable hs
  | egrConfigWrite => exact .execEgrConfigWrite hs
  | shipPlanWrite => exact .execShipPlanWrite hs
  | egrLinkChange => exact .execEgrLinkChange hs
  | egrFrameReceive => exact .execEgrFrameReceive hs
  | ackReceive => exact .execAckReceive hs
  | resetReceive => exact .execResetReceive hs
  | datagramSend => exact .execDatagramSend hs
  | retxTimerExpire => exact .execRetxTimerExpire hs
  | rateIncrease => exact .execRateIncrease hs
  | timeSnap => exact .execTimeSnap hs
  | ftWrite => exact .execFtWrite hs
  | timeCtlWrite => exact .execTimeCtlWrite hs
  | beaconSend => exact .execBeaconSend hs
  | beaconReceive => exact .execBeaconReceive hs
  | delayReqSend => exact .execDelayReqSend hs
  | delayReqReceive => exact .execDelayReqReceive hs
  | delayRespReceive => exact .execDelayRespReceive hs
  | ptpAnnounceReceive => exact .execPtpAnnounceReceive hs
  | ptpSyncReceive => exact .execPtpSyncReceive hs
  | ptpFollowUpReceive => exact .execPtpFollowUpReceive hs
  | ptpDelayReqSend => exact .execPtpDelayReqSend hs
  | ptpDelayRespReceive => exact .execPtpDelayRespReceive hs
  | ppsInEdge => exact .execPpsInEdge hs
  | passTimeTransfer => exact .execPassTimeTransfer hs
  | ftSourceTimeout => exact .execFtSourceTimeout hs
  | mtRateAdjust => exact .execMtRateAdjust hs
  | comparatorFire => exact .execComparatorFire hs
  | cmpEnable => exact .execCmpEnable hs
  | ppsOutEnable => exact .execPpsOutEnable hs
  | timeRelCtlWrite => exact .execTimeRelCtlWrite hs
  | partGo => exact .execPartGo hs
  | partRelease => exact .execPartRelease hs
  | releaseDrained => exact .execReleaseDrained hs
  | releaseScrubDone => exact .execReleaseScrubDone hs
  | partConfigWrite => exact .execPartConfigWrite hs
  | shrWrite => exact .execShrWrite hs
  | kimpStart => exact .execKimpStart hs
  | kimpCommit => exact .execKimpCommit hs
  | kimpAbort => exact .execKimpAbort hs
  | kimpPlain => exact .execKimpPlain hs
  | kimpExpire => exact .execKimpExpire hs
  | mirrorRecordReceive => exact .execMirrorRecordReceive hs
  | mirrorAckReceive => exact .execMirrorAckReceive hs
  | mirrorCommitReceive => exact .execMirrorCommitReceive hs
  | mirrorAckTimeout => exact .execMirrorAckTimeout hs
  | mirrorPendingTimeout => exact .execMirrorPendingTimeout hs
  | keyReconcile => exact .execKeyReconcile hs
  | arbFuseBlow => exact .execArbFuseBlow hs
  | fwRemeasure => exact .execFwRemeasure hs
  | spdmGetVersion => exact .execSpdmGetVersion hs
  | spdmGetCapabilities => exact .execSpdmGetCapabilities hs
  | spdmNegotiateAlgorithms => exact .execSpdmNegotiateAlgorithms hs
  | spdmGetDigests => exact .execSpdmGetDigests hs
  | spdmGetCertificate => exact .execSpdmGetCertificate hs
  | spdmChallenge => exact .execSpdmChallenge hs
  | spdmGetMeasurements => exact .execSpdmGetMeasurements hs
  | spdmKeyExchange => exact .execSpdmKeyExchange hs
  | spdmFinish => exact .execSpdmFinish hs
  | spdmHeartbeat => exact .execSpdmHeartbeat hs
  | spdmKeyUpdate => exact .execSpdmKeyUpdate hs
  | spdmEndSession => exact .execSpdmEndSession hs
  | ideKm => exact .execIdeKm hs
  | ideSecureLost => exact .execIdeSecureLost hs
  | tamperDetect => exact .execTamperDetect hs
  | secZeroizeAll => exact .execSecZeroizeAll hs
  | secSelftest => exact .execSecSelftest hs
  | passWatchdogExpire => exact .execPassWatchdogExpire hs
  | ctxWatchdogExpire => exact .execCtxWatchdogExpire hs
  | engineWatchdogExpire => exact .execEngineWatchdogExpire hs
  | ringWatchdogExpire => exact .execRingWatchdogExpire hs
  | mcWatchdogExpire => exact .execMcWatchdogExpire hs
  | stepBoundExceeded => exact .execStepBoundExceeded hs
  | fltCtxReset => exact .execFltCtxReset hs
  | fltEngReset => exact .execFltEngReset hs
  | fltPartReset => exact .execFltPartReset hs
  | fltChipReset => exact .execFltChipReset hs
  | fltTrayCycle => exact .execFltTrayCycle hs
  | fltLogCiWrite => exact .execFltLogCiWrite hs
  | roleMessageReceive => exact .execRoleMessageReceive hs
  | roleGrantReceive => exact .execRoleGrantReceive hs
  | roleSilenceTimeout => exact .execRoleSilenceTimeout hs
  | startupRoleArbitrate => exact .execStartupRoleArbitrate hs
  | passRetrainAttempt => exact .execPassRetrainAttempt hs
  | passRetrainEnd => exact .execPassRetrainEnd hs
  | passRejoin => exact .execPassRejoin hs
  | mcHeartbeatSend => exact .execMcHeartbeatSend hs
  | mcHeartbeatReceive => exact .execMcHeartbeatReceive hs
  | peerFailTimeout => exact .execPeerFailTimeout hs
  | revokeReceive => exact .execRevokeReceive hs
  | genSnapshot => exact .execGenSnapshot hs
  | genCommitReceive => exact .execGenCommitReceive hs
  | mcRestartDone => exact .execMcRestartDone hs
  | mcRestartTimeout => exact .execMcRestartTimeout hs
  | bothMcFailForce => exact .execBothMcFailForce hs
  | telSnapWrite => exact .execTelSnapWrite hs
  | histCfgWrite => exact .execHistCfgWrite hs
  | ledgerProgram => exact .execLedgerProgram hs
  | ledgerScan => exact .execLedgerScan hs
  | ledgerErase => exact .execLedgerErase hs
  | ledgerRead => exact .execLedgerRead hs
  | ledgerAdopt => exact .execLedgerAdopt hs
  | summaryHour => exact .execSummaryHour hs
  | fuseBlow => exact .execFuseBlow hs
  | smbusStuck => exact .execSmbusStuck hs
  | smbusStuckRetry => exact .execSmbusStuckRetry hs
  | mctpSetEndpointId => exact .execMctpSetEndpointId hs
  | mctpGetEndpointId => exact .execMctpGetEndpointId hs
  | mctpGetEndpointUuid => exact .execMctpGetEndpointUuid hs
  | mctpGetVersionSupport => exact .execMctpGetVersionSupport hs
  | mctpGetMsgTypeSupport => exact .execMctpGetMsgTypeSupport hs
  | pldmBase => exact .execPldmBase hs
  | pldmGetPdr => exact .execPldmGetPdr hs
  | pldmGetSensorReading => exact .execPldmGetSensorReading hs
  | pldmGetStateSensors => exact .execPldmGetStateSensors hs
  | smbAlertTimeout => exact .execSmbAlertTimeout hs
  | pldmFwUpdate => exact .execPldmFwUpdate hs
  | readinessQuery => exact .execReadinessQuery hs
  | mctpChipReset => exact .execMctpChipReset hs
  | mctpTrayCycle => exact .execMctpTrayCycle hs
  | ledgerReadMsg => exact .execLedgerReadMsg hs
  | historyRead => exact .execHistoryRead hs
  | railExcursion => exact .execRailExcursion hs
  | diePgTimeout => exact .execDiePgTimeout hs
  | inputPowerOver => exact .execInputPowerOver hs
  | pwrInputRead => exact .execPwrInputRead hs
  | irqRouteWrite => exact .execIrqRouteWrite hs
  | passSidebandRegained => exact .execPassSidebandRegained hs
  | auxSupplyChange => exact .execAuxSupplyChange hs
  | pcieLinkUp => exact .execPcieLinkUp hs
  | vfEnableChange => exact .execVfEnableChange hs
  | engineStateError => exact .execEngineStateError hs
  | hubUnitFault => exact .execHubUnitFault hs
  | dieLinkFail => exact .execDieLinkFail hs
  | hbmChannelFail => exact .execHbmChannelFail hs
  | nonholderTjCrit => exact .execNonholderTjCrit hs
  | pldmEventAck => exact .execPldmEventAck hs
  | setupLockAck => exact .execSetupLockAck hs
  | revokeRetry => exact .execRevokeRetry hs

/-! ### Machine/Tick.lean -/

theorem Keeps.tickMt {s : State} {h : Half} (hs : Keeps s₀ s) :
    Keeps s₀ (tickMt s h) := by
  unfold Machine.tickMt
  exact .wr (.wr hs)

theorem Keeps.tickFt {s : State} {h : Half} (hs : Keeps s₀ s) :
    Keeps s₀ (tickFt s h) := by
  unfold Machine.tickFt
  exact .wr (.wr (.wr hs))

theorem Keeps.tickThermal {s : State} (hs : Keeps s₀ s) :
    Keeps s₀ (tickThermal s) := by
  unfold Machine.tickThermal
  split
  · exact hs
  · extract_lets +onlyGivenNames s1 nj s2
    have hs2 : Keeps s₀ s2 := .wr (.bump hs)
    exact .ite hs2 (.bump hs2)

theorem Keeps.tickCores {s : State} {h : Half} (hs : Keeps s₀ s) :
    Keeps s₀ (tickCores s h) := by
  unfold Machine.tickCores
  extract_lets +onlyGivenNames on kept idle s1
  have hs1 : Keeps s₀ s1 := .ite hs (.bump hs)
  exact .foldl (.ite hs1 (.bump hs1)) (fun _ _ ht => .bump ht)

theorem Keeps.tickLife {s : State} (hs : Keeps s₀ s) :
    Keeps s₀ (tickLife s) := by
  unfold Machine.tickLife
  exact .ite hs (.ite (.wr hs) (.wr (.wr hs)))

theorem Keeps.tick {s : State} (hs : Keeps s₀ s) :
    Keeps s₀ (tick s) := by
  unfold Machine.tick
  exact .tickLife (.tickThermal (.tickCores (.tickCores (.tickFt (.tickFt (.tickMt (.tickMt hs)))))))

/-! ### Machine/Step.lean -/

theorem step_of_pending_nil {s : State} (h : s.pending = []) : step s = .next (tick s) := by
  unfold step
  rw [h]

theorem step_of_pending_cons {c : Instr} {rest : List Instr} {s : State} (h : s.pending = c :: rest) :
    step s = exec c { s with pending := rest } := by
  unfold step
  rw [h]

end

/-- Settles O1: the second arm of `step`. -/
theorem stepRunsFrontCommand : Obligations.StepRunsFrontCommand := fun _ _ _ => step_of_pending_cons

/-- Settles O3: a command completes on the state itself, and every operation keeps the queue. -/
theorem everyCommandCompletes : Obligations.EveryCommandCompletes := by
  intro c s
  obtain ⟨t, ht, hq, -⟩ : Completes s (exec c s) := .exec (.refl s)
  exact ⟨t, ht, hq⟩

/-- Settles O4: a step is a tick or a command on the state with the shorter queue, of which the canonical forms say nothing. -/
theorem stepKeepsCanonicalForms : Obligations.StepKeepsCanonicalForms := by
  intro s t hs ht
  cases hq : s.pending with
  | nil =>
    rw [step_of_pending_nil hq] at ht
    obtain rfl := Host.Outcome.next.inj ht
    exact (Keeps.tick (.refl s)).2 hs
  | cons c rest =>
    rw [step_of_pending_cons hq] at ht
    obtain ⟨u, hu, -, hinv⟩ := Completes.exec (c := c) (.refl { s with pending := rest })
    obtain rfl := Host.Outcome.next.inj (ht.symm.trans hu)
    exact hinv hs

end Sys2Proof
end

section
/-!
The reset state: O5, O6 and O59.
-/

namespace Sys2Proof

open Machine

/-- Settles O5: each store is empty. -/
theorem resetHasCanonicalForms : Obligations.ResetHasCanonicalForms :=
  show _ ∧ _ ∧ _ ∧ _ from ⟨rfl, rfl, rfl, rfl⟩

/-- Settles O6: a cell reads its stored value, within the width by the canonical form, or its reset value cut to the width. -/
theorem registersWithinWidth : Obligations.RegistersWithinWidth := by
  intro s f h i hs
  obtain ⟨-, -, -, hr⟩ := hs
  exact RegFile.get_lt hr ⟨f, h, i⟩

/-- Settles O59: nothing is stored, so every cell reads its reset value (`State.rd_reset`). -/
theorem resetValues : Obligations.ResetValues := by
  refine ⟨rfl, rfl, rfl, rfl, rfl, rfl, rfl, rfl, fun h => ?_⟩
  simp only [State.rd_reset]
  have half : Fld.reset h 0 (.host .GLB_ID_HALF) % 2 ^ (Fld.host .GLB_ID_HALF).width = h.num := by cases h <;> rfl
  exact ⟨rfl, rfl, half, rfl, fun _ => ⟨rfl, rfl⟩, rfl, rfl, rfl, rfl, rfl, rfl, rfl, rfl, rfl, fun _ => ⟨rfl, rfl, rfl⟩, rfl, rfl, rfl, rfl,
    fun _ => rfl, fun _ => rfl, rfl, rfl, rfl, rfl, rfl, rfl, fun _ => rfl, rfl⟩

end Sys2Proof
end

section
/-!
POWER_GOOD falling and rising: O18.
-/

namespace Sys2Proof.Machine

/-! ### Stores cut to a part -/

theorem Memory.read_filter_keep {m : Memory} {p : Host.Cell → Bool} {a : Nat} (h : ∀ c : Host.Cell, c.1 = a → p c = true) :
    Memory.read (m.filter p) a = m.read a := by
  unfold Memory.read
  rw [Memory.find_filter p h]

theorem Memory.read_filter_drop {m : Memory} {p : Host.Cell → Bool} {a : Nat} (h : ∀ c : Host.Cell, c.1 = a → p c = false) :
    Memory.read (m.filter p) a = Memory.unlisted := by
  have hnone : (m.filter p).find? (fun c => decide (c.1 = a)) = none := by
    rw [List.find?_eq_none]
    intro c hc ha
    simp only [decide_eq_true_eq] at ha
    simp [h c ha] at hc
  unfold Memory.read
  rw [hnone]

theorem Memory.read_clearRange_in {m : Memory} {lo len a : Nat} (h : lo ≤ a ∧ a < lo + len) :
    (m.clearRange lo len).read a = Memory.unlisted :=
  Memory.read_filter_drop fun c hc => by simp only [decide_eq_false_iff_not]; omega

theorem Memory.read_clearRange_out {m : Memory} {lo len a : Nat} (h : a < lo ∨ lo + len ≤ a) :
    (m.clearRange lo len).read a = m.read a :=
  Memory.read_filter_keep fun c hc => by simp only [decide_eq_true_eq]; omega

theorem RegFile.get_filter_drop {r : RegFile} {keep : Fld → Bool} {k : Key} (h : keep k.fld = false) :
    RegFile.get (r.filter fun c => keep c.key.fld) k = k.reset := by
  have hnone : (r.filter fun c => keep c.key.fld).find? (fun c => decide (c.key = k)) = none := by
    rw [List.find?_eq_none]
    intro c hc hk
    simp only [decide_eq_true_eq] at hk
    simp [hk, h] at hc
  unfold RegFile.get
  rw [hnone]

/-! ### Operations that leave memory -/

theorem mem_foldl {α : Type} {f : State → α → State} (hf : ∀ t a, (f t a).mem = t.mem) (s : State) (l : List α) :
    (l.foldl f s).mem = s.mem :=
  List.foldlRecOn (motive := fun t => t.mem = s.mem) l f rfl fun t ht a _ => (hf t a).trans ht

@[simp] theorem drivePin_mem (s : State) (h : Half) (p : AuxPin) (l : Nat) : (drivePin s h p l).mem = s.mem := by
  simp [drivePin, apply_ite State.mem]

@[simp] theorem auxRelease_mem (s : State) (h : Half) : (auxRelease s h).mem = s.mem :=
  mem_foldl (fun t p => drivePin_mem t h p 0) s _

@[simp] theorem dieOff_mem (s : State) (die : Nat) : (dieOff s die).mem = s.mem := by
  simp [dieOff, apply_ite State.mem]

@[simp] theorem diesOff_mem (s : State) (h : Half) : (diesOff s h).mem = s.mem :=
  mem_foldl (fun t _ => dieOff_mem t _) s _

@[simp] theorem releaseOutputs_mem (s : State) : (releaseOutputs s).mem = s.mem := by
  simp [releaseOutputs]

@[simp] theorem openPage_mem (s : State) (n : Nat) : (openPage s n).mem = s.mem := by
  simp [openPage, apply_ite State.mem]

@[simp] theorem programSlot_mem (s : State) (r : LdgRec) (torn : Bool) : (programSlot s r torn).mem = s.mem := by
  simp [programSlot, apply_ite State.mem]

@[simp] theorem tearSlot_mem (s : State) : (tearSlot s).mem = s.mem := by
  unfold tearSlot
  split
  · split
    · split_ifs <;> simp
    · rfl
  · rfl

/-! ### The state at the beginning of a start-up -/

theorem rd_resetKeeping {s : State} {keep : Fld → Bool} {m : Memory} {f : Fld} (hf : keep f = false) (h : Half) (i : Nat) :
    (resetKeeping s keep m).rd f h i = State.reset.rd f h i :=
  RegFile.get_filter_drop (k := ⟨f, h, i⟩) hf

/-- What POWER_GOOD falling leaves, whether or not a slot is torn. -/
theorem execPowerGoodFall_of_good {s : State} (hs : s.rd (.boot .PWR_GOOD_PIN) .h0 0 ≠ 0) (tearing : Bool) :
    ∃ u : State, u.mem = s.mem ∧ exec (.powerGoodFall tearing) s =
      .next ((((resetKeeping u fuseCell (u.mem.clearRange 0 hostBit)).wr (.boot .PWR_GOOD_PIN) .h0 0).wr
        (.pwr .PWR_STATUS_PWR_GOOD) .h0 0).wr (.boot .BOOT_STAGE_MAX) .h0 0) := by
  refine ⟨releaseOutputs (if tearing then tearSlot (if splitDeltas s then s.wr (.tel .LDG_DELTA_LOST) .h0 1 else s)
    else if splitDeltas s then s.wr (.tel .LDG_DELTA_LOST) .h0 1 else s), ?_, ?_⟩
  · cases tearing <;> cases splitDeltas s <;> simp
  · exact if_neg hs

end Sys2Proof.Machine

namespace Sys2Proof

open Machine

/-- Settles O18: falling, device memory is the range that is cleared; rising, a cell that is neither kept nor written reads as after reset. -/
theorem powerGoodResets : Obligations.PowerGoodResets := by
  intro s
  refine ⟨fun hs tearing => ?_, fun hs => ?_⟩
  · obtain ⟨u, hu, he⟩ := execPowerGoodFall_of_good hs tearing
    refine ⟨_, he, rfl, rfl, rfl, rfl, rfl, by simp, fun a ha => ?_, fun a ha => ?_⟩
    · exact Memory.read_clearRange_in (by omega)
    · exact (Memory.read_clearRange_out (by omega)).trans (congrArg (Memory.read · a) hu)
  · refine ⟨_, if_neg hs, ?_, rfl, rfl, rfl, fun f h i hf hk => ?_⟩
    · have hp : (resetKeeping s fuseCell s.mem).rd (.boot .PWR_GOOD_PIN) .h0 0 = 1 := rd_resetKeeping rfl .h0 0
      simp [railsBack, hp]
    · have hr : f ≠ .pwr .PWR_STATUS_RAILS := by rintro rfl; cases hf
      have ht : f ≠ .flt .TRAY_REQ := by rintro rfl; cases hf
      simp [railsBack, rd_resetKeeping hf, hr, ht, hk]

end Sys2Proof
end

section
/-!
Register writes of a VF: O34.
-/

namespace Sys2Proof.Machine

/-! ### Bits -/

theorem bitsAt_zero (x w : Nat) : bitsAt x 0 w = x % 2 ^ w := by simp [bitsAt]

theorem clearBits_mod {x w : Nat} (hx : x < 2 ^ w) (m : Nat) : clearBits x (m % 2 ^ w) = clearBits x m := by
  have hand : x &&& m % 2 ^ w = x &&& m := by
    rw [← Nat.and_two_pow_sub_one_eq_mod, ← Nat.and_assoc, Nat.and_right_comm, Nat.and_two_pow_sub_one_of_lt_two_pow hx]
  unfold clearBits
  rw [hand]

theorem clearBits_lt {x w : Nat} (hx : x < 2 ^ w) (m : Nat) : clearBits x m < 2 ^ w :=
  Nat.xor_lt_two_pow hx (Nat.lt_of_le_of_lt Nat.and_le_left hx)

/-! ### Where a register lies -/

/-- Bytes from the first register of a row to the end of the last one's place. -/
def RegRow.extent (r : RegRow) : Nat := if r.stride = 0 then r.bytes else r.stride * r.count

theorem RegRow.at?_range {r : RegRow} {off : Nat} {q : Nat × Nat} (h : r.at? off = some q) :
    r.base ≤ off ∧ off < r.base + r.extent := by
  by_cases hz : r.stride = 0
  · simp only [RegRow.at?, RegRow.extent, hz, if_true] at h ⊢
    split_ifs at h
    omega
  · simp only [RegRow.at?, RegRow.extent, hz, if_false] at h ⊢
    split_ifs at h with hlo hc
    have hn := (Nat.div_lt_iff_lt_mul (Nat.pos_of_ne_zero hz)).mp hc.1
    rw [Nat.mul_comm] at hn
    omega

theorem lookupReg_mem {m : List RegRow} {off : Nat} {q : RegRow × Nat × Nat} (h : lookupReg m off = some q) :
    q.1 ∈ m ∧ q.1.base ≤ off ∧ off < q.1.base + q.1.extent := by
  obtain ⟨r, hr, he⟩ := List.exists_of_findSome?_eq_some h
  obtain ⟨p, hp, rfl⟩ := Option.map_eq_some_iff.mp he
  exact ⟨hr, RegRow.at?_range hp⟩

/-! ### A register that no write changes now -/

/-- The first field that a write can reach, if any. -/
def RegRow.firstWritten (r : RegRow) : Option FieldRow := r.fields.find? fun f => f.own || (f.acc != .ro && f.acc != .rs)

/-- The rows of which a write that changes no field is discarded without a status: none of their fields is a measurement of R96, and the
only lock-bound field that a write reaches first is an allotment's. -/
def RegRow.discards (r : RegRow) : Bool :=
  !(r.fields.any fun f => [Fld.thm .THERM_MEAS0_T_OUT, .thm .THERM_MEAS1_DEMAND, .thm .FB_PERIOD_PERIOD, .thm .FB_COUNT_WIN].contains f.fld) &&
    r.firstWritten.all fun f => f.acc != .rwl || f.fld == .desc .EVC_ALLOC_BASE

theorem vfMap_discards : ∀ r ∈ vfMap, r.discards = true := by decide

theorem counters_discard : ∀ r ∈ pfMap, r.base < 0x418100 → 0x410000 < r.base + r.extent → r.discards = true := by decide +kernel

theorem groups_discard : ∀ r ∈ pfMap, r.base < 0x1110000 + 0x200 * 97 → 0x1110000 < r.base + r.extent → r.discards = true := by decide +kernel

section
variable {s : State} {h : Half} {fn i v : Nat} {r : RegRow}

theorem writeReg_of_none (hf : r.firstWritten = none) : writeReg s h fn r i v = .next (readOnlyWrite s h r) := by
  unfold RegRow.firstWritten at hf
  unfold writeReg
  simp only [hf]

theorem writeReg_of_own {f : FieldRow} {o : Res} (hf : r.firstWritten = some f) (ho : ownWrite h fn f.fld i v s = some o) :
    writeReg s h fn r i v = o := by
  unfold RegRow.firstWritten at hf
  unfold writeReg
  simp only [hf, ho, Option.getD_some]

theorem writeReg_of_plain {f : FieldRow} (hf : r.firstWritten = some f) (ho : ownWrite h fn f.fld i v s = none) :
    writeReg s h fn r i v =
      .next (r.fields.foldl (fun t g => if g.own then t else writeField t (if r.wide then Half.h0 else h) g i v) s) := by
  unfold RegRow.firstWritten at hf
  unfold writeReg
  simp only [hf, ho, Option.getD_none]

theorem writeReg_of_not_writable (hd : r.discards = true) (hw : r.fields.any (writable s h) = false) :
    writeReg s h fn r i v = .next s := by
  obtain ⟨hmeas, hfirst⟩ := Bool.and_eq_true_iff.mp hd
  cases hf : r.firstWritten with
  | none =>
    rw [writeReg_of_none hf, readOnlyWrite, if_neg fun ⟨_, hc⟩ => by simp only [hc, Bool.not_true, Bool.false_eq_true] at hmeas]
  | some f =>
    rw [hf] at hfirst
    have hnot : writable s h f = false := by
      simpa using (List.any_eq_false.mp hw) f (List.mem_of_find?_eq_some hf)
    have hsel : (f.own || (f.acc != .ro && f.acc != .rs)) = true :=
      List.find?_some (p := fun f : FieldRow => f.own || (f.acc != .ro && f.acc != .rs)) hf
    cases ha : f.acc with
    | ro => simp_all [writable]
    | rs => simp_all [writable]
    | rwl =>
      have hl : locked s h = true := by simpa [writable, ha] using hnot
      have he : f.fld = .desc .EVC_ALLOC_BASE := by simpa [ha] using hfirst
      exact writeReg_of_own hf (by simp [he, ownWrite, descOwn, execEvcAllocWrite, hl])
    | rw => simp [writable, ha] at hnot
    | wo => simp [writable, ha] at hnot
    | w1c => simp [writable, ha] at hnot
    | w1s => simp [writable, ha] at hnot

end

/-! ### What a VF's window holds -/

theorem pfReg_discards {off : Nat} {view : Bool} {r : RegRow} {i o : Nat} {w : Bool} (hp : pfReg off view = .reg r i o w)
    (hin : (0x410000 ≤ off ∧ off < 0x418100) ∨ (0x1110000 ≤ off ∧ off < 0x1110000 + 0x200 * 97)) : r.discards = true := by
  unfold pfReg at hp
  split at hp
  · rename_i q hq
    obtain ⟨hm, hlo, hhi⟩ := lookupReg_mem hq
    injection hp with hr
    subst hr
    rcases hin with ⟨h1, h2⟩ | ⟨h1, h2⟩
    · exact counters_discard _ hm (by omega) (by omega)
    · exact groups_discard _ hm (by omega) (by omega)
  · cases hp

theorem pfReg_view {off : Nat} {view : Bool} {r : RegRow} {i o : Nat} {w : Bool} (hp : pfReg off view = .reg r i o w) : w = view := by
  unfold pfReg at hp
  split at hp
  · injection hp with _ _ _ hw
    exact hw.symm
  · cases hp

theorem isGroup_lt {g : Nat} (h : isGroup g = true) : g < 97 := by
  simp only [isGroup, decide_eq_true_eq] at h
  omega

theorem areaWord_ne_reg {s : State} {h : Half} {g : Nat} {live : Bool} {o : Nat} {r : RegRow} {i k : Nat} {w : Bool} :
    areaWord s h g live o ≠ .reg r i k w := by
  unfold areaWord histWord halfWord
  split_ifs <;> nofun

/-- Of a group's block, a view leaves only SNAP writable. -/
theorem groupWord_discards {s : State} {h : Half} {g o : Nat} {r : RegRow} {i k : Nat}
    (hp : groupWord s h g o true = .reg r i k false) : r.discards = true := by
  unfold groupWord at hp
  split_ifs at hp with hg h1 h2
  · exact absurd hp areaWord_ne_reg
  · exact absurd hp areaWord_ne_reg
  · split at hp
    · cases hp
    · have ho : o = 0 := by simpa using (pfReg_view hp).symm
      have hlt := isGroup_lt (by simpa using hg)
      exact pfReg_discards hp (.inr (by omega))

theorem vfCounter_discards {s : State} {h : Half} {p j base : Nat} {r : RegRow} {i k : Nat} (hs : s.regs.wf = true) (hj : j < 64)
    (hb : base = 0x410000 ∨ base = 0x414000) (hp : vfCounter s h p j base = .reg r i k false) : r.discards = true := by
  have hlt : s.rd (.desc .EVC_ALLOC_BASE) h p < 4096 := RegFile.get_lt hs ⟨.desc .EVC_ALLOC_BASE, h, p⟩
  unfold vfCounter at hp
  split at hp
  · exact pfReg_discards hp (.inl (by omega))
  · cases hp

theorem vfPlace_discards {s : State} {h : Half} {p off : Nat} {r : RegRow} {i k : Nat} (hs : s.regs.wf = true)
    (hp : vfPlace s h p off = .reg r i k false) : r.discards = true := by
  unfold vfPlace at hp
  split_ifs at hp
  · exact vfCounter_discards hs (by omega) (.inl rfl) hp
  · exact vfCounter_discards hs (by omega) (.inr rfl) hp
  · exact groupWord_discards hp
  · split at hp
    · exact groupWord_discards hp
    · cases hp
  · split at hp
    · cases pfReg_view hp
    · split at hp
      · rename_i q hq
        injection hp with hr
        exact hr ▸ vfMap_discards _ (lookupReg_mem hq).1
      · cases hp

/-! ### A write that reaches one place -/

section
variable {s : State} {h : Half} {fn off v : Nat}

theorem countHoles_of_mapped (hm : placeOf s h fn off ≠ .unmapped) : countHoles s h fn off 1 = s := by
  simp [countHoles, hm]

theorem dropStaged_of_none (ht : s.rd (.host .STAGE_TAG) h fn = 0) : dropStaged s h fn = s := if_pos ht

theorem wideAt_narrow {r : RegRow} {i k o : Nat} {view : Bool} (hr : r.bytes ≠ 8) : wideAt (.reg r i k view) o = none := by
  simp [wideAt, hr]

theorem execRegWrite_of_unreached (hb : barReach s h fn = false) (wide : Bool) : execRegWrite h fn off wide v s = .next s := by
  simp [execRegWrite, hb]

theorem execReg64WriteLow_of_unreached (hb : barReach s h fn = false) : execReg64WriteLow h fn off v s = .next s := by
  simp [execReg64WriteLow, hb]

theorem execReg64WriteHigh_of_unreached (hb : barReach s h fn = false) : execReg64WriteHigh h fn off v s = .next s := by
  simp [execReg64WriteHigh, hb]

theorem execRegWrite_word (hb : barReach s h fn = true) (ho : off % 4 = 0) :
    execRegWrite h fn off false v s = write4 s h fn off (v % 2 ^ 32) := by
  simp [execRegWrite, hb, ho]

/-- A 32-bit register that a write reaches, with no low word staged. -/
theorem write4_of_reg {r : RegRow} {i k : Nat} (hp : placeOf s h fn off = .reg r i k false) (hr : r.bytes ≠ 8)
    (ht : s.rd (.host .STAGE_TAG) h fn = 0) : write4 s h fn off v = writeReg s h fn r i v := by
  have hc : countHoles s h fn off 1 = s := countHoles_of_mapped (by simp [hp])
  simp [write4, hp, hc, wideAt_narrow hr, dropStaged_of_none ht, writePlace]

/-- A place that no write disturbs, in a window whose registers discard such a write. -/
theorem write4_of_undisturbed (hm : placeOf s h fn off ≠ .unmapped) (hd : disturbs s h (placeOf s h fn off) = false)
    (hq : ∀ r i k, placeOf s h fn off = .reg r i k false → r.discards = true) : write4 s h fn off v = .next s := by
  unfold write4
  rw [countHoles_of_mapped hm]
  simp only [hd, Bool.false_eq_true, if_false]
  split
  · rfl
  · rfl
  · cases hp : placeOf s h fn off with
    | reg r i k view =>
      cases view with
      | true => rfl
      | false =>
        rw [hp] at hd
        exact writeReg_of_not_writable (hq r i k hp) (by simpa [disturbs] using hd)
    | data w => rfl
    | plan k w => simp [hp, disturbs] at hd
    | msix vec w => simp [hp, disturbs] at hd
    | unmapped => exact absurd hp hm

end

/-! ### The registers of a VF's window that O34 names -/

/-- A VF's row of one field. -/
def vfRow (name : String) (base stride count bytes idx0 : Nat) (f : HostF) (acc : Acc) (own : Bool) : RegRow :=
  ⟨name, base, stride, count, bytes, idx0, false, [⟨.host f, 0, acc, own⟩]⟩

theorem placeOf_vf {p : Nat} (hp : p < 64) (s : State) (h : Half) (off : Nat) : placeOf s h p off = vfPlace s h p off :=
  if_neg (by unfold pf; omega)

theorem placeOf_funcIrq {p : Nat} (hp : p < 64) (s : State) (h : Half) :
    placeOf s h p 0x8 = .reg (vfRow "FUNC_IRQ" 0x8 0 1 4 1 .FUNC_IRQ .w1c false) (1 * p + 0) 0 false :=
  (placeOf_vf hp s h 0x8).trans rfl

theorem placeOf_funcIrqEn {p : Nat} (hp : p < 64) (s : State) (h : Half) :
    placeOf s h p 0xC = .reg (vfRow "FUNC_IRQ_EN" 0xC 0 1 4 1 .FUNC_IRQ_EN .rw false) (1 * p + 0) 0 false :=
  (placeOf_vf hp s h 0xC).trans rfl

theorem placeOf_ringBase {p k : Nat} (hp : p < 64) (hk : k < 8) (s : State) (h : Half) :
    placeOf s h p (0x100 + 0x40 * k + 4) = .reg (vfRow "RING_BASE" 0x100 0x40 8 8 8 .RING_BASE .rw true) (8 * p + k) 4 false := by
  rw [placeOf_vf hp]
  interval_cases k <;> rfl

section
variable {s : State} {h : Half} {p v : Nat}

theorem writeReg_funcIrq {name : String} {b st n y x i : Nat} :
    writeReg s h p (vfRow name b st n y x .FUNC_IRQ .w1c false) i v =
      .next (s.wr (.host .FUNC_IRQ) h (clearBits (s.rd (.host .FUNC_IRQ) h i) (v % 2 ^ 5)) i) :=
  (writeReg_of_plain (f := ⟨.host .FUNC_IRQ, 0, .w1c, false⟩) rfl rfl).trans (by simp [vfRow, writeField, bitsAt_zero]; rfl)

theorem writeReg_funcIrqEn {name : String} {b st n y x i : Nat} :
    writeReg s h p (vfRow name b st n y x .FUNC_IRQ_EN .rw false) i v = .next (funcIrqEnWrite s h i v) :=
  writeReg_of_own (f := ⟨.host .FUNC_IRQ_EN, 0, .rw, false⟩) rfl rfl

theorem writeReg_ringBase {name : String} {b st n y x i : Nat} :
    writeReg s h p (vfRow name b st n y x .RING_BASE .rw true) i v = execRingConfigWrite h i .base v s :=
  writeReg_of_own (f := ⟨.host .RING_BASE, 0, .rw, true⟩) rfl rfl

theorem ringReach_of_vf {k : Nat} (hp : p < 64) (hk : k < 8) (hb : barReach s h p = true) : ringReach s h (8 * p + k) = true := by
  have hf : ringFn (8 * p + k) = p := by
    unfold ringFn
    rw [if_neg (by omega)]
    omega
  have hc : 8 * p + k < ringCount := by
    unfold ringCount
    omega
  simp [ringReach, hf, hb, hc]

theorem execReg64WriteHigh_ringBase {k : Nat} (hp : p < 64) (hk : k < 8) (hb : barReach s h p = true) :
    execReg64WriteHigh h p (0x100 + 0x40 * k + 4) v s =
      writeHigh s h p (0x100 + 0x40 * k + 4) v (vfRow "RING_BASE" 0x100 0x40 8 8 8 .RING_BASE .rw true) (8 * p + k) := by
  refine (if_pos ⟨hb, by omega⟩).trans ?_
  rw [placeOf_ringBase hp hk]
  rfl

theorem writeHigh_of_staged {off i : Nat} {r : RegRow} (ht : s.rd (.host .STAGE_TAG) h p = off - 4 + 1) :
    writeHigh s h p off v r i =
      writeReg (s.wr (.host .STAGE_TAG) h 0 p) h p r i (s.rd (.host .STAGE_LOW) h p + v % 2 ^ 32 * 2 ^ 32) := if_pos ht

theorem execRingConfigWrite_base {ring : Nat} (hr : ringReach s h ring = true) (hd : ringSt s h ring = 0) :
    execRingConfigWrite h ring .base v s =
      .next ((s.wr (.host .RING_BASE) h (v / 4096 * 4096) ring).wr (.host .RING_BASE_WRITTEN) h 1 ring) :=
  (if_pos hr).trans (if_pos hd)

end

end Sys2Proof.Machine

namespace Sys2Proof

open Machine

/-! ### Register writes (R24, R140, R148) -/

/-- The order of cells that differ does not matter. -/
theorem valueIn_perm {l m : List CellVal} (hp : l.Perm m) (hn : (l.map Prod.fst).Nodup) (k : Fld × Half × Nat) :
    valueIn l k = valueIn m k := by
  induction hp with
  | nil => rfl
  | cons a _ ih =>
    rw [valueIn_cons, valueIn_cons, ih (List.nodup_cons.mp hn).2]
  | swap a b l =>
    obtain ⟨ka, va⟩ := a
    obtain ⟨kb, vb⟩ := b
    have hab : kb ≠ ka := fun e => (List.nodup_cons.mp hn).1 (by simp [e])
    simp only [valueIn_cons]
    by_cases hb : kb = k
    · rw [if_pos hb, if_neg fun ha => hab (hb.trans ha.symm), if_pos hb]
    · rw [if_neg hb, if_neg hb]
  | trans hlm _ ih₁ ih₂ => exact (ih₁ hn).trans (ih₂ ((hlm.map Prod.fst).nodup_iff.mp hn))

theorem Only.perm {s t : State} {l m : List CellVal} (ho : Only s t l) (hp : l.Perm m) (hn : (l.map Prod.fst).Nodup) : Only s t m :=
  ⟨fun f h i => (valueIn_perm hp hn (f, h, i)) ▸ ho.1 f h i, ho.2⟩

section
variable {s : State} {h : Half} {p v off : Nat}

theorem sets_of_next {c : Instr} (he : exec c s = .next s) : Sets c s [] := ⟨s, he, .refl s⟩

theorem sets_nothing_of_unreached (hb : barReach s h p = false) (wide : Bool) :
    ∀ c ∈ [Instr.regWrite h p off wide v, .reg64WriteLow h p off v, .reg64WriteHigh h p off v], Sets c s [] := by
  simp only [List.mem_cons, List.not_mem_nil, or_false, forall_eq_or_imp, forall_eq]
  exact ⟨sets_of_next (execRegWrite_of_unreached hb wide), sets_of_next (execReg64WriteLow_of_unreached hb),
    sets_of_next (execReg64WriteHigh_of_unreached hb)⟩

theorem regWrite_discards (hp : p < 64) (hs : s.regs.wf = true) (hb : barReach s h p = true) (ho : off % 4 = 0)
    (hm : placeOf s h p off ≠ .unmapped) (hd : disturbs s h (placeOf s h p off) = false) : Sets (.regWrite h p off false v) s [] :=
  sets_of_next <| (execRegWrite_word hb ho).trans <| write4_of_undisturbed hm hd fun _ _ _ hr =>
    vfPlace_discards hs ((placeOf_vf hp s h off).symm.trans hr)

theorem regWrite_funcIrq (hp : p < 64) (hv : v < 2 ^ 32) (hs : s.regs.wf = true) (hb : barReach s h p = true)
    (ht : s.rd (.host .STAGE_TAG) h p = 0) :
    Sets (.regWrite h p 0x8 false v) s [cell (.host .FUNC_IRQ) h p (clearBits (s.rd (.host .FUNC_IRQ) h p) v)] := by
  have hold : s.rd (.host .FUNC_IRQ) h p < 2 ^ 5 := RegFile.get_lt hs ⟨.host .FUNC_IRQ, h, p⟩
  have he : exec (.regWrite h p 0x8 false v) s =
      .next (s.wr (.host .FUNC_IRQ) h (clearBits (s.rd (.host .FUNC_IRQ) h p) v) p) := by
    refine (execRegWrite_word hb rfl).trans ?_
    rw [write4_of_reg (placeOf_funcIrq hp s h) (by decide) ht, writeReg_funcIrq, Nat.mod_eq_of_lt hv, one_mul, add_zero,
      clearBits_mod hold]
  exact ⟨_, he, (Only.refl s).wr_lt (clearBits_lt hold v)⟩

theorem touches_funcIrqEnWrite :
    (funcIrqEnWrite s h p v).rd (.host .FUNC_IRQ_EN) h p = v % 2 ^ 5 ∧
      Touches s (funcIrqEnWrite s h p v) [.host .FUNC_IRQ_EN, .host .MSIX_PBA, .tel .LIVE_SLOT] := by
  have hw : Touches s (s.wr (.host .FUNC_IRQ_EN) h v p) [.host .FUNC_IRQ_EN, .host .MSIX_PBA, .tel .LIVE_SLOT] :=
    (Touches.refl s _).wr (by simp) h v p
  unfold funcIrqEnWrite
  dsimp only
  split
  · refine ⟨?_, hw.sendMsix (by simp [msgFields]) h p _⟩
    have hm : Touches (s.wr (.host .FUNC_IRQ_EN) h v p) _ msgFields :=
      (Touches.refl _ _).sendMsix (fun _ hf => hf) h p (s.rd (.host .FUNC_IRQ_VEC) h p)
    exact (hm.rd (by simp [msgFields]) h p).trans (State.rd_wr_self s _ h v p)
  · exact ⟨State.rd_wr_self s _ h v p, hw⟩

theorem regWrite_funcIrqEn (hp : p < 64) (hv : v < 2 ^ 32) (hb : barReach s h p = true) (ht : s.rd (.host .STAGE_TAG) h p = 0) :
    Gives (.regWrite h p 0xC false v) s fun t => t.rd (.host .FUNC_IRQ_EN) h p = v % 2 ^ 5 ∧
      Touches s t [.host .FUNC_IRQ_EN, .host .MSIX_PBA, .tel .LIVE_SLOT] := by
  have he : exec (.regWrite h p 0xC false v) s = .next (funcIrqEnWrite s h p v) := by
    refine (execRegWrite_word hb rfl).trans ?_
    rw [write4_of_reg (placeOf_funcIrqEn hp s h) (by decide) ht, writeReg_funcIrqEn, Nat.mod_eq_of_lt hv, one_mul, add_zero]
  exact ⟨_, he, touches_funcIrqEnWrite⟩

theorem reg64WriteLow_stages (hv : v < 2 ^ 32) (hb : barReach s h p = true) (ht : s.rd (.host .STAGE_TAG) h p = 0) (ho : off % 8 = 0)
    (hlt : off + 1 < 2 ^ 32) (hw : (wideAt (placeOf s h p off) 0).isSome = true) (hd : disturbs s h (placeOf s h p off) = true) :
    Sets (.reg64WriteLow h p off v) s [cell (.host .STAGE_TAG) h p (off + 1), cell (.host .STAGE_LOW) h p v] := by
  have he : exec (.reg64WriteLow h p off v) s =
      .next ((s.wr (.host .STAGE_TAG) h (off + 1) p).wr (.host .STAGE_LOW) h v p) := by
    refine (if_pos ⟨hb, ho⟩).trans ((if_pos ⟨hw, hd⟩).trans ?_)
    rw [stageLow, dropStaged_of_none ht]
  exact ⟨_, he, (((Only.refl s).wr_lt hlt).wr_lt hv).perm (.swap ..) (by simp)⟩

theorem reg64WriteHigh_ringBase {k : Nat} (hp : p < 64) (hv : v < 2 ^ 32) (hs : s.regs.wf = true) (hb : barReach s h p = true)
    (hk : k < 8) (ht : s.rd (.host .STAGE_TAG) h p = 0x100 + 0x40 * k + 1) (hr : ringSt s h (8 * p + k) = 0) :
    Sets (.reg64WriteHigh h p (0x100 + 0x40 * k + 4) v) s [cell (.host .STAGE_TAG) h p 0,
      cell (.host .RING_BASE) h (8 * p + k) ((s.rd (.host .STAGE_LOW) h p + v * 2 ^ 32) / 4096 * 4096),
      cell (.host .RING_BASE_WRITTEN) h (8 * p + k) 1] := by
  have hlow : s.rd (.host .STAGE_LOW) h p < 2 ^ 32 := RegFile.get_lt hs ⟨.host .STAGE_LOW, h, p⟩
  have hbase : (s.rd (.host .STAGE_LOW) h p + v * 2 ^ 32) / 4096 * 4096 < 2 ^ (Fld.host .RING_BASE).width :=
    show _ < 2 ^ 64 by omega
  have he : exec (.reg64WriteHigh h p (0x100 + 0x40 * k + 4) v) s =
      .next (((s.wr (.host .STAGE_TAG) h 0 p).wr (.host .RING_BASE) h
        ((s.rd (.host .STAGE_LOW) h p + v * 2 ^ 32) / 4096 * 4096) (8 * p + k)).wr (.host .RING_BASE_WRITTEN) h 1 (8 * p + k)) := by
    refine (execReg64WriteHigh_ringBase hp hk hb).trans ?_
    rw [writeHigh_of_staged (by rw [ht]; omega), writeReg_ringBase, Nat.mod_eq_of_lt hv]
    exact execRingConfigWrite_base (ringReach_of_vf hp hk (by simpa [barReach, fnExists] using hb)) (by simpa [ringSt] using hr)
  refine ⟨_, he, ((((Only.refl s).wr_lt (by decide)).wr_lt hbase).wr_lt (by decide)).perm ?_ (by simp)⟩
  exact (List.reverse_perm _).symm

end

/-- Settles O34: one lemma above for each kind of write. -/
theorem registerWrites : Obligations.RegisterWrites := by
  intro h p v s hp hv ⟨_, _, _, hs⟩
  refine ⟨fun hb off wide => sets_nothing_of_unreached hb wide, fun hb => ⟨fun off ho hm hd => regWrite_discards hp hs hb ho hm hd,
    fun ht => ⟨regWrite_funcIrq hp hv hs hb ht, regWrite_funcIrqEn hp hv hb ht, fun off ho hlt hw hd =>
      reg64WriteLow_stages hv hb ht ho hlt hw hd⟩, fun k hk ht hr => reg64WriteHigh_ringBase hp hv hs hb hk ht hr⟩⟩

end Sys2Proof
end

section
/-!
What the work that many commands share leaves as it is: messages, records, granules, the end of contexts, chains, requests, streams and
ports, and the loop's outputs. They write the registers of `workField` only; and of memory, the pinned slots and the ship plans they write
nothing, but for records, fault logs and slot tags. (`Keeps` says that these operations keep the canonical forms; `Leaves` which values.)
-/

namespace Sys2Proof

open Machine

set_option Elab.async false

/-! ### Registers that shared work writes -/

/-- Registers of the hubs, the pool, the MCs and the rails that shared work writes. -/
def workOfPackage : Fld → Bool
  | .pkg f => [PkgF.PKG_SERVICE_COMP_H0, .PKG_SERVICE_COMP_H1, .PKG_SERVICE_MGMT_H0, .PKG_SERVICE_MGMT_H1, .PKG_SERVICE_ROLES_H1,
      .PASS_ERR, .POOL_CLASS_USE_IN_USE, .POOL_CLASS_USE_LENT, .POOL_RECLAIM_CNT, .POOL_RECLAIM_MAX, .POOL_STATUS_FREE,
      .POOL_STATUS_QUIESCED].contains f
  | .boot f => [BootF.DIE_PWR_EN, .LOWLAND_STATUS_PARK, .LOW_LEFT, .LOW_PEND, .LOW_STATUS].contains f
  | .flt f => [FltF.ARB_HELD, .ARB_MT, .ARB_PENDING, .FLT_EVT, .FLT_LOG_LOST, .FLT_LOG_PI, .FLT_REC_COUNT, .FLT_REC_HEAD_NEWEST,
      .FLT_STATUS_STEP, .MC_EVT, .MC_STATUS_PEER, .TRAY_REQ].contains f
  | .pwr f => [PwrF.PWR_EVT, .PWR_STATUS_ARR_PG].contains f
  | .thm f => [ThmF.ARR_LEVEL, .AUX_LEVEL, .DISPATCH_STOP, .FB_CTL_MODE, .PLAT_NOTE, .PLAT_PLL, .PLAT_STATUS_CUR, .PLAT_STATUS_PENDING,
      .PLAT_STATUS_SOURCE, .PLAT_STATUS_TARGET, .PUMP_PREV, .PWM_ACT_DUTY, .PWM_ACT_PERIOD, .PWM_CTL_EN, .PWM_DUTY, .PWM_PERIOD,
      .PWM_SKIP, .PWM_STATUS_DISARMED, .PWM_STATUS_LAST_STATUS, .PWM_STATUS_UPD_PEND, .PWM_T0, .THERM_EVENT, .VALVE_PREV].contains f
  | .irq f => f == .GLB_EVT
  | .sec f => [SecF.SEC_EVT, .SEC_FENCE_INFO_STATUS, .SEC_FENCE_INFO_WRITE, .SEC_FENCE_INFO_SRC, .SEC_FENCE_INFO_PARTITION,
      .SEC_FENCE_ADDR, .SEC_FENCE_CNT].contains f
  | _ => false

/-- Registers of the host side, the cores and the engines that shared work writes. -/
def workOfEngines : Fld → Bool
  | .host f => [HostF.COAL_SEEN, .COAL_T0, .EVT_LOST_CNT, .FUNC_IRQ, .FUNC_STATUS_DRAINING, .MSIX_PBA, .RING_STATUS_CQ_PI].contains f
  | .core f => [CoreF.CORE_STATUS_ACTIVE, .CORE_STATUS_SLOT0, .CORE_STATUS_SLOT1, .PASS_CNT, .SLOT0_CTX_OPR, .SLOT0_CTX_PARTITION,
      .SLOT0_CTX_REQUEST, .SLOT0_CTX_V, .SLOT1_CTX_OPR, .SLOT1_CTX_PARTITION, .SLOT1_CTX_REQUEST, .SLOT1_CTX_V, .SWITCH_CNT].contains f
  | .tile f => [TileF.SP_TAG, .FENCE_INFO_STATUS, .FENCE_INFO_WRITE, .FENCE_INFO_SRC, .FENCE_INFO_CONTEXT, .FENCE_ADDR,
      .FENCE_CNT].contains f
  | .kv f => [KvF.KV_SLOT_FREE, .KV_GRP_HELD, .KV_PSTAT_HELD].contains f
  | .sched f => [SchedF.PREEMPT_CNT, .RING_SCHED_URG_READY].contains f
  | .fab f => [FabF.FAB_DROP, .PORT_DOWN_TIME, .PORT_ERR, .PORT_STATUS_CAUSE, .PORT_STATUS_RX_PAIR, .PORT_STATUS_STATE,
      .PORT_STATUS_TX_PAIR].contains f
  | .coll f => [CollF.COLL_ABORTS, .COLL_ABORT_INFO_CAUSE, .COLL_ABORT_INFO_LOCAL_STATUS, .COLL_ABORT_INFO_ORIGIN, .COLL_LAST_ABORT_EPOCH,
      .COLL_LAST_ABORT_GROUP_ID, .COLL_STATUS_BULK_ACTIVE, .COLL_STATUS_NOTCH_ACTIVE, .GRP_ABORT_CAUSE, .GRP_ABORT_EPOCH,
      .GRP_ABORT_ORIGIN, .GRP_ABORT_V].contains f
  | .egr f => [EgrF.EGR_CTL_EN, .EGR_EVT, .EGR_PSTAT_OPEN, .EGR_STATUS_ENABLED, .EGR_STATUS_LINK_UP, .EGR_TX_BYTES, .EGR_TX_DGRAMS,
      .STREAM_ST0_CLASS, .STREAM_ST0_ID, .STREAM_ST0_PLAN, .STREAM_ST0_REQUEST, .STREAM_ST0_STATE, .STREAM_ST0_V, .STREAM_ST1_ACKED,
      .STREAM_ST1_NEXT_SEQ, .STREAM_ST2_RATE, .STREAM_ST2_SRTT, .STREAM_ST2_STATUS].contains f
  | .tel f => [TelF.FUSE_BLOW_PENDING, .FUSE_HELD, .LDG_DROP_FROM, .LDG_DROP_TO, .LDG_NEXT, .LDG_STATUS_DROPPED, .LDG_TOTAL,
      .LIVE_SLOT].contains f
  | .tim f => [TimF.CMP_STATUS_ARMED, .CMP_TARGET, .FT_RATE, .LOCK_RUN, .PTP_STATUS_PORT_STATE, .REL_COUNT_FT_N, .REL_COUNT_MT_N,
      .TIME_EVT, .TIME_STATUS_STATE].contains f
  | _ => false

/-- A register that shared work writes. -/
def workField (f : Fld) : Bool := workOfPackage f || workOfEngines f

/-- `t` is reached from `s` by shared work: every register but those of `workField` reads as it did; with `still`, so do memory, the
pinned slots and the ship plans. -/
def Leaves (still : Bool) (s t : State) : Prop :=
  (∀ f h i, workField f = false → t.rd f h i = s.rd f h i) ∧ (still = true → SameMem s t)

section
variable {still : Bool} {s₀ : State}

theorem Leaves.rd {s t : State} (hl : Leaves still s t) {f : Fld} (hf : workField f = false := by rfl) (h : Half) (i : Nat) :
    t.rd f h i = s.rd f h i := hl.1 f h i hf

theorem Leaves.sameMem {s t : State} (hl : Leaves true s t) : SameMem s t := hl.2 rfl

/-- Parts of the state that no register, memory, pinned slot or ship plan is in do not matter. -/
theorem Leaves.upd {t u : State} (hl : Leaves still s₀ t)
    (e : u.regs = t.regs ∧ u.mem = t.mem ∧ u.slots = t.slots ∧ u.plans = t.plans := by exact ⟨rfl, rfl, rfl, rfl⟩) :
    Leaves still s₀ u := by
  obtain ⟨hr, hm, hs, hp⟩ := e
  unfold Leaves SameMem State.rd
  rw [hr, hm, hs, hp]
  exact hl

theorem Leaves.setMem {t u : State} (hl : Leaves false s₀ t) (e : u.regs = t.regs := by rfl) : Leaves false s₀ u :=
  ⟨fun f h i hf => (congrArg (·.get ⟨f, h, i⟩) e).trans (hl.1 f h i hf), nofun⟩

theorem Leaves.refl (s : State) : Leaves still s s := ⟨fun _ _ _ _ => rfl, fun _ => ⟨rfl, rfl, rfl⟩⟩

theorem Leaves.wr {s : State} {f : Fld} {h : Half} {v i : Nat} (hs : Leaves still s₀ s) (hf : workField f = true := by rfl) :
    Leaves still s₀ (s.wr f h v i) := by
  refine ⟨fun g k j hg => ?_, hs.2⟩
  rw [State.rd_wr, if_neg (by rintro ⟨rfl, -⟩; simp [hf] at hg)]
  exact hs.1 g k j hg

theorem Leaves.ite {a b : State} {c : Prop} [Decidable c] (ha : Leaves still s₀ a) (hb : Leaves still s₀ b) :
    Leaves still s₀ (if c then a else b) := by
  split <;> assumption

theorem Leaves.foldl {α : Type} {f : State → α → State} {l : List α} {b : State} (hb : Leaves still s₀ b)
    (hf : ∀ b a, Leaves still s₀ b → Leaves still s₀ (f b a)) : Leaves still s₀ (l.foldl f b) :=
  List.foldlRecOn l f hb fun b hb a _ => hf b a hb

/-! ### Counts, messages and causes -/

theorem Leaves.inc {s : State} {f : Fld} {h : Half} {n i : Nat} (hs : Leaves still s₀ s) (hf : workField f = true := by rfl) :
    Leaves still s₀ (s.inc f h n i) := .wr hs hf

theorem Leaves.emit {s : State} {o : Output} (hs : Leaves still s₀ s) : Leaves still s₀ (s.emit o) := .upd hs

theorem Leaves.bump {s : State} {h : Half} {group slot n : Nat} (hs : Leaves still s₀ s) : Leaves still s₀ (bump s h group slot n) :=
  .inc hs

theorem Leaves.sendMsix {s : State} {h : Half} {fn vec : Nat} (hs : Leaves still s₀ s) : Leaves still s₀ (sendMsix s h fn vec) :=
  .ite (.wr hs) (.ite (.emit (.bump hs)) hs)

theorem Leaves.routeMessage {s : State} {h : Half} {k rising : Nat} (hs : Leaves still s₀ s) :
    Leaves still s₀ (routeMessage s h k rising) := .ite (.sendMsix hs) hs

theorem workField_causeReg (k : Nat) : workField (causeReg k).1 = true := by
  unfold causeReg
  split <;> rfl

theorem Leaves.raiseCause {s : State} {k : Nat} {h : Half} {bits : Nat} (hs : Leaves still s₀ s) :
    Leaves still s₀ (raiseCause s k h bits) := .routeMessage (.wr hs (workField_causeReg k))

theorem Leaves.raiseFunc {s : State} {h : Half} {fn bits : Nat} (hs : Leaves still s₀ s) : Leaves still s₀ (raiseFunc s h fn bits) :=
  .ite (.sendMsix (.wr hs)) (.wr hs)

/-! ### Accesses (R42 to R45) -/

theorem Leaves.recordRefusal {s : State} {w : Who} {write : Bool} {a len status : Nat} (hs : Leaves still s₀ s) :
    Leaves still s₀ (recordRefusal s w write a len status) := by
  unfold Machine.recordRefusal
  refine .ite (.raiseCause (.inc (.wr (.wr (.wr (.wr (.wr hs))))))) ?_
  split
  · exact .ite (.inc (.wr (.wr (.wr (.wr (.wr hs)))))) hs
  · exact hs

/-! ### Completion and event records -/

section
variable {s : State} {h : Half} (hs : Leaves false s₀ s)
include hs

theorem Leaves.signalRing {ring : Nat} : Leaves false s₀ (signalRing s h ring) := .ite (.sendMsix (.wr hs)) (.wr hs)

theorem Leaves.moderate {ring : Nat} {now : Bool} : Leaves false s₀ (moderate s h ring now) :=
  .ite (.signalRing hs) (.ite (.wr (.wr hs)) (.wr hs))

theorem Leaves.writeRecord {ring : Nat} {r : CqRec} {now : Bool} : Leaves false s₀ (writeRecord s h ring r now) :=
  .ite (.moderate (.bump (.bump (.wr (.setMem hs))))) hs

theorem Leaves.loseEvent {fn : Nat} : Leaves false s₀ (loseEvent s h fn) := .raiseFunc (.inc hs)

theorem Leaves.postEvent {fn status mt detail : Nat} : Leaves false s₀ (postEvent s h fn status mt detail) := by
  unfold Machine.postEvent
  split
  · exact .loseEvent hs
  · exact .ite (.writeRecord hs) (.loseEvent hs)

theorem Leaves.postNotice {status mt detail : Nat} : Leaves false s₀ (postNotice s h status mt detail) :=
  .foldl hs fun _ _ ht => .postEvent ht

end

/-! ### The ledger and fault records -/

theorem Leaves.ldgDrop {s : State} {h : Half} {mt : Nat} (hs : Leaves still s₀ s) : Leaves still s₀ (ldgDrop s h mt) :=
  .wr (.ite (.wr (.inc hs)) (.inc hs))

theorem Leaves.fuseEvent {s : State} {k : Nat} (hs : Leaves still s₀ s) : Leaves still s₀ (fuseEvent s k) :=
  .ite (.wr (.wr hs)) (.wr hs)

theorem Leaves.fuseHeld {s : State} (hs : Leaves still s₀ s) : Leaves still s₀ (fuseHeld s) :=
  .foldl (.wr (.foldl (.wr hs) fun _ _ hu => .fuseEvent hu)) fun _ _ hu => .fuseEvent hu

theorem Leaves.fuseRecord {s : State} {r : LdgRec} (hs : Leaves still s₀ s) : Leaves still s₀ (fuseRecord s r) := by
  unfold Machine.fuseRecord
  cases fuseRecordCount r with
  | none => exact .ite (.fuseHeld hs) hs
  | some k => exact .ite (.fuseHeld (.fuseEvent hs)) (.fuseEvent hs)

theorem Leaves.mctpOut {s : State} {h : Half} {b : List Byte} (hs : Leaves still s₀ s) : Leaves still s₀ (mctpOut s h b) := .upd hs

theorem Leaves.pldmEvent {s : State} {w : Half} {r : LdgRec} (hs : Leaves still s₀ s) : Leaves still s₀ (pldmEvent s w r) :=
  .ite (.ite (.upd hs) (.mctpOut (.upd hs))) hs

theorem Leaves.ldgTake {s : State} {w : Half} {r : LdgRec} (hs : Leaves still s₀ s) : Leaves still s₀ (ldgTake s w r) :=
  .pldmEvent (.fuseRecord (.wr (.upd hs)))

theorem Leaves.ledger {s : State} {h : Half} {type : Nat} {data : List Byte} (hs : Leaves still s₀ s) :
    Leaves still s₀ (ledger s h type data) := .ite (.ldgDrop hs) (.ite (.ldgTake hs) (.upd hs))

theorem Leaves.keepFaultRec {s : State} {h : Half} {r : FaultRec} {index : Nat} (hs : Leaves still s₀ s) :
    Leaves still s₀ (keepFaultRec s h r index) := .wr (.wr (.upd hs))

section
variable {s : State} {h : Half} {fn : Nat} {r : FaultRec} {sample : Option (List Byte → List Byte)} (hs : Leaves false s₀ s)
include hs

theorem Leaves.logFault : Leaves false s₀ (logFault s h fn r sample) := .ite (.wr (.setMem hs)) (.raiseCause (.inc hs))

theorem Leaves.faultLog : Leaves false s₀ (faultLog s h fn r sample) := .raiseCause (.postEvent (.logFault (.keepFaultRec hs)))

theorem Leaves.faultRecord : Leaves false s₀ (faultRecord s h fn r sample) := .ite (.ledger (.faultLog hs)) (.faultLog hs)

end

/-! ### Contexts and their slots -/

theorem workField_slotFld (slot : Nat) : workField (slotFld slot) = true := by
  unfold slotFld
  split <;> rfl

section
variable {s : State} {h : Half} {core slot : Nat} (hs : Leaves still s₀ s)
include hs

theorem Leaves.untagSlot : Leaves still s₀ (untagSlot s h core slot) := .foldl hs fun _ _ ht => .wr ht

theorem Leaves.setSlot {code : Nat} : Leaves still s₀ (setSlot s h core slot code) :=
  have hw := hs.wr (workField_slotFld slot)
  .ite (.wr hw) hw

theorem Leaves.setSlotCtx {v part opr req : Nat} : Leaves still s₀ (setSlotCtx s h core slot v part opr req) :=
  .ite (.wr (.wr (.wr (.wr hs)))) (.wr (.wr (.wr (.wr hs))))

theorem Leaves.setCtx {f : Context → Context} : Leaves still s₀ (setCtx s h core slot f) := .upd hs

theorem Leaves.toArray : Leaves still s₀ (toArray s h core slot) :=
  .bump (.inc (.setCtx (.setSlot (.ite (.setSlot hs) hs))))

theorem Leaves.countPreempt : Leaves still s₀ (countPreempt s h) := .bump (.inc hs)

theorem Leaves.resched : Leaves still s₀ (resched s h core) := by
  unfold Machine.resched
  extract_lets +onlyGivenNames held cand
  split
  · refine .ite hs ?_
    split
    · exact hs
    · exact .ite (.toArray hs) (.ite (.countPreempt (.toArray hs)) hs)
  · clear_value cand
    split
    · exact hs
    · exact .toArray hs
    · exact .ite (.toArray hs) (.toArray hs)

theorem Leaves.startIdle : Leaves still s₀ (startIdle s h core) := .ite hs (.resched hs)

theorem Leaves.drainAt : Leaves still s₀ (drainAt s h core slot) := by
  unfold Machine.drainAt
  split
  · exact .ite (.setCtx (.bump (.inc hs))) hs
  · exact hs

theorem Leaves.dropCtx : Leaves still s₀ (dropCtx s h core slot) :=
  .startIdle (.setSlotCtx (.untagSlot (.setSlot (.upd (.drainAt hs)))))

theorem Leaves.standAgain {x : Context} : Leaves still s₀ (standAgain s x) := .startIdle (.setSlot (.setCtx (.drainAt hs)))

theorem Leaves.dropCtxs {p : Context → Bool} : Leaves still s₀ (dropCtxs s p) := .foldl hs fun _ _ ht => .dropCtx ht

end

/-! ### KV slots that egress held -/

theorem Leaves.addHeld {s : State} {h : Half} {tag : Nat} {up : Bool} {n : Nat} (hs : Leaves still s₀ s) :
    Leaves still s₀ (addHeld s h tag up n) := .wr hs (by split <;> rfl)

theorem Leaves.clearSlot {s : State} {h : Half} {i : Nat} (hs : Leaves false s₀ s) : Leaves false s₀ (clearSlot s h i) :=
  .ite hs (.inc (.addHeld (.setMem hs)))

theorem Leaves.freeOrphans {s : State} {h : Half} (hs : Leaves false s₀ s) : Leaves false s₀ (freeOrphans s h) :=
  .foldl (.upd hs) fun _ _ ht => .foldl ht fun _ _ hu => .clearSlot hu

/-! ### The hub buffer pool -/

section
variable {s : State} {h : Half} (hs : Leaves still s₀ s)
include hs

theorem Leaves.poolRefresh : Leaves still s₀ (poolRefresh s h) := .wr (.wr hs)

theorem Leaves.poolHold {c n : Nat} : Leaves still s₀ (poolHold s h c n) := .wr hs

theorem Leaves.poolSetLent {c n : Nat} : Leaves still s₀ (poolSetLent s h c n) := .wr hs

theorem poolGrant_leaves {c : Nat} : OnSome (Leaves still s₀) (poolGrant s h c) := by
  unfold Machine.poolGrant
  refine .ite (.ite (.some (.poolHold hs)) (.ite (.some (.poolSetLent (.poolHold hs))) .none)) ?_
  refine .ite .none (.ite (.some (.poolHold hs)) ?_)
  split
  · exact .some (.poolSetLent (.poolHold hs))
  · exact .none

theorem joinUnit_leaves {c : Nat} {tag : UnitTag} : OnSome (Leaves still s₀) (joinUnit s h c tag) := by
  unfold Machine.joinUnit
  split
  · exact .some (.upd hs)
  · exact .ite (.some (.upd hs)) .none

theorem grantFor_leaves {c : Nat} {unit : Option UnitTag} : OnSome (Leaves still s₀) (grantFor s h c unit) := by
  cases unit with
  | none => exact poolGrant_leaves hs
  | some tag => exact .bind (poolGrant_leaves hs) fun _ ht => .ite (.some ht) (joinUnit_leaves ht)

theorem Leaves.poolServe {n c : Nat} {unit : Option UnitTag} : Leaves still s₀ (poolServe n s h c unit).1 := by
  induction n generalizing s with
  | zero => exact hs
  | succ n ih =>
    rw [Machine.poolServe]
    split
    next t ht => exact ih (grantFor_leaves hs t ht)
    · exact hs

theorem Leaves.reclaimDone {t0 : Nat} : Leaves still s₀ (reclaimDone s h t0) := .wr (.bump (.inc hs))

theorem Leaves.reclaimCredit {r : PoolReq} : Leaves still s₀ (reclaimCredit s h r) :=
  have hc := hs.poolHold.poolSetLent
  .ite (.reclaimDone (.upd hc)) (.upd hc)

theorem Leaves.creditBorrowed : Leaves still s₀ (creditBorrowed s h) := by
  unfold Machine.creditBorrowed
  split
  · exact .reclaimCredit hs
  · split
    · exact .poolSetLent hs
    · exact hs

theorem Leaves.poolRelease {c : Nat} : Leaves still s₀ (poolRelease s h c) :=
  .ite hs (.ite (.creditBorrowed (.poolHold hs)) (.poolHold hs))

theorem Leaves.poolReleaseN {c n : Nat} : Leaves still s₀ (poolReleaseN s h c n) := .foldl hs fun _ _ ht => .poolRelease ht

theorem Leaves.egressSettle : Leaves still s₀ (egressSettle s h) := .upd hs

theorem Leaves.reclaimFrom {b n : Nat} : Leaves still s₀ (reclaimFrom s h b n).1 := .egressSettle (.poolReleaseN (.upd hs))

theorem Leaves.reclaimWalk {fuel n : Nat} : Leaves still s₀ (reclaimWalk fuel s h n) := by
  induction fuel generalizing s n with
  | zero => exact hs
  | succ fuel ih =>
    rw [Machine.reclaimWalk]
    refine .ite hs ?_
    split
    · exact hs
    · exact ih (.reclaimFrom hs)

theorem Leaves.reclaimStart {c n : Nat} : Leaves still s₀ (reclaimStart s h c n) := .reclaimWalk (.upd hs)

theorem Leaves.serveReq {r : PoolReq} : Leaves still s₀ (serveReq s r) :=
  have hp := hs.poolServe.upd
  .ite hp (.reclaimStart hp)

theorem Leaves.poolWaiters : Leaves still s₀ (poolWaiters s h) := .foldl hs fun _ _ ht => .serveReq ht

theorem Leaves.poolAsk {c n : Nat} {unit : Option UnitTag} : Leaves still s₀ (poolAsk s h c n unit) :=
  have ha := Leaves.ite hs.poolServe (.reclaimStart hs.poolServe)
  .poolRefresh (.ite ha (.upd ha))

theorem Leaves.giveGranules {c n : Nat} : Leaves still s₀ (giveGranules s h c n) := .poolRefresh (.poolWaiters (.poolReleaseN hs))

theorem Leaves.unitEnd {u : PoolUnit} {n : Nat} : Leaves still s₀ (unitEnd s u n) :=
  .poolRefresh (.poolWaiters (.egressSettle (.poolReleaseN (.upd hs))))

end

/-! ### Chains, requests, streams and release lists -/

theorem Leaves.mapChains {s : State} {f : Chain → Chain} (hs : Leaves still s₀ s) : Leaves still s₀ (mapChains s f) := .upd hs

theorem Leaves.showStream {s : State} {x : Stream} (hs : Leaves still s₀ s) : Leaves still s₀ (showStream s x) :=
  .wr (.wr (.wr (.wr (.wr (.wr (.wr (.wr (.wr (.wr (.wr hs))))))))))

theorem Leaves.cancelStreams {s : State} {h : Half} {num status : Nat} (hs : Leaves still s₀ s) :
    Leaves still s₀ (cancelStreams s h num status) := .foldl (.upd hs) fun _ _ ht => .showStream ht

theorem Leaves.refreshDraining {s : State} {h : Half} {fn : Nat} (hs : Leaves still s₀ s) : Leaves still s₀ (refreshDraining s h fn) :=
  .wr hs

theorem Leaves.rearmList {s : State} {h : Half} {mt : Bool} (hs : Leaves still s₀ s) : Leaves still s₀ (rearmList s h mt) := by
  have hc {v : Nat} : Leaves still s₀ (s.wr (if mt then .tim .REL_COUNT_MT_N else .tim .REL_COUNT_FT_N) h v) :=
    hs.wr (by split <;> rfl)
  unfold Machine.rearmList
  refine .ite ?_ hc
  split
  · exact .wr (.wr hc)
  · exact .wr hc

theorem Leaves.relist {s : State} {h : Half} (hs : Leaves still s₀ s) : Leaves still s₀ (relist s h) := .rearmList (.rearmList hs)

theorem Leaves.closeRequest {s : State} {num status : Nat} {silent : Bool} (hs : Leaves false s₀ s) :
    Leaves false s₀ (closeRequest s num status silent) := by
  unfold Machine.closeRequest
  split
  · exact hs
  · extract_lets +onlyGivenNames s1 s2 s3
    have hs3 : Leaves false s₀ s3 := .relist (.freeOrphans (.cancelStreams (.mapChains (.upd hs))))
    exact .ite (.refreshDraining hs3) hs3

theorem Leaves.closeRequests {s : State} {p : Request → Bool} {status : Nat} {silent : Bool} (hs : Leaves false s₀ s) :
    Leaves false s₀ (closeRequests s p status silent) := .foldl hs fun _ _ ht => .closeRequest ht

theorem Leaves.egressGive {s : State} {h : Half} {before : Nat} (hs : Leaves still s₀ s) : Leaves still s₀ (egressGive s h before) :=
  .ite hs (.giveGranules hs)

theorem Leaves.endStream {s : State} {x : Stream} {status : Nat} (hs : Leaves false s₀ s) : Leaves false s₀ (endStream s x status) :=
  .freeOrphans (.egressGive (.wr (.wr (.wr (.wr (.upd hs))))))

theorem Leaves.emitFrame {s : State} {h : Half} {frame : List Byte} (hs : Leaves still s₀ s) : Leaves still s₀ (emitFrame s h frame) :=
  .bump (.bump (.inc (.inc (.upd hs))))

theorem Leaves.lowlandStreams {s : State} {h : Half} {status : Nat} (hs : Leaves false s₀ s) :
    Leaves false s₀ (lowlandStreams s h status) := .foldl hs fun _ _ ht => .endStream (.ite (.emitFrame ht) ht)

/-! ### Packets and ports of the fabric -/

section
variable {s : State} {h : Half} (hs : Leaves still s₀ s)
include hs

theorem Leaves.injectPacket {p : Packet} : Leaves still s₀ (injectPacket s h p).2 := by
  unfold Machine.injectPacket
  split
  · exact .inc hs
  · split
    · exact .inc hs
    · split
      · exact .upd hs
      · exact .upd hs
      · exact .inc hs

theorem Leaves.freeSlots {o : OutPkt} {n : Nat} : Leaves still s₀ (freeSlots s h o n) := by
  unfold Machine.freeSlots
  split
  · exact .ite hs (.upd hs)
  · exact hs

theorem Leaves.endRx {e : RxPkt} {count : Option Nat} : Leaves still s₀ (endRx s e count) := by
  unfold Machine.endRx
  split
  · exact .upd hs
  · exact hs
  · split
    · exact .inc hs
    · exact hs

theorem Leaves.clearPort {n : Nat} : Leaves still s₀ (clearPort s h n) := by
  unfold Machine.clearPort
  extract_lets partly outq whole s0 s1 s2
  have hs1 : Leaves still s₀ s1 := .upd (.foldl (.foldl hs fun _ _ ht => .freeSlots ht) fun _ _ ht => .endRx ht)
  have hs2 : Leaves still s₀ s2 := .upd hs1
  exact .upd (hs2.inc (f := .fab .FAB_DROP))

end

theorem Leaves.portEvent {s : State} {h : Half} {n : Nat} (hs : Leaves false s₀ s) : Leaves false s₀ (portEvent s h n) :=
  .ite (.injectPacket (.postEvent hs)) (.postEvent hs)

theorem Leaves.setPort {s : State} {h : Half} {n st cause : Nat} (hs : Leaves false s₀ s) : Leaves false s₀ (setPort s h n st cause) :=
  .ite (.portEvent (.wr (.wr hs))) (.wr (.wr hs))

theorem Leaves.portDown {s : State} {h : Half} {n cause : Nat} (hs : Leaves false s₀ s) : Leaves false s₀ (portDown s h n cause) :=
  .raiseCause (.setPort (.wr (.wr (.wr (.clearPort hs)))))

theorem Leaves.ptpRefresh {s : State} {h : Half} (hs : Leaves still s₀ s) : Leaves still s₀ (ptpRefresh s h) :=
  .ite (.ite (.wr hs) hs) (.upd (.wr hs (f := .tim .PTP_STATUS_PORT_STATE) (h := h) (v := 0) (i := 0)))

theorem Leaves.egrClose {s : State} {h : Half} (hs : Leaves still s₀ s) : Leaves still s₀ (egrClose s h) :=
  have hp := (hs.wr (f := .egr .EGR_CTL_EN) (h := h)).wr (f := .egr .EGR_STATUS_ENABLED) (h := h) |>.ptpRefresh (h := h)
  .ite (.raiseCause (.wr hp)) hp

/-! ### Collective operations -/

section
variable {s : State} {h : Half} (hs : Leaves still s₀ s)
include hs

theorem Leaves.endColl {c : Coll} : Leaves still s₀ (endColl s c) := .wr (.wr (.giveGranules (.upd hs)))

theorem Leaves.sendAborts {x : Grp} {gid epoch cause origin : Nat} {dests : List (Nat × Nat)} :
    Leaves still s₀ (sendAborts s h x gid epoch cause origin dests) := by
  refine .foldl hs fun _ _ ht => ?_
  split
  · exact .injectPacket ht
  · exact ht

theorem Leaves.recordAbort {g gid epoch cause origin localSt : Nat} :
    Leaves still s₀ (recordAbort s h g gid epoch cause origin localSt) :=
  .bump (.inc (.wr (.wr (.wr (.wr (.wr (.wr (.wr (.wr (.wr hs))))))))))

theorem Leaves.keepPending {keep : Half × Packet → Bool} : Leaves still s₀ (keepPending s h keep) :=
  .ite (.upd hs) (.giveGranules (.upd hs))

theorem Leaves.stopColl {c : Coll} : Leaves still s₀ (stopColl s c) := .mapChains (.keepPending (.endColl hs))

theorem Leaves.originateAbort {c : Coll} {cause localSt : Nat} : Leaves still s₀ (originateAbort s c cause localSt) :=
  .ite (.stopColl (.recordAbort hs)) (.stopColl (.sendAborts (.upd (.recordAbort hs))))

theorem Leaves.failEngine {d : Chain} {status : Nat} : Leaves still s₀ (failEngine s d status) := by
  unfold Machine.failEngine
  split
  · exact .originateAbort hs
  · exact .ite (.mapChains hs) hs

theorem Leaves.settleChain {readNo : Nat} : Leaves still s₀ (settleChain s readNo) := by
  unfold Machine.settleChain
  refine .ite hs ?_
  split
  · exact .ite hs (.originateAbort hs)
  · exact .mapChains hs

theorem Leaves.endContext {x : Context} : Leaves still s₀ (endContext s x) := by
  unfold Machine.endContext
  split
  · exact hs
  · exact .ite (.settleChain (.standAgain hs)) (.settleChain (.dropCtx hs))

theorem Leaves.passDownChain {readNo : Nat} : Leaves still s₀ (passDownChain s readNo) :=
  .foldl (.dropCtxs (.mapChains hs)) fun _ _ ht => .endContext ht

/-! ### Pins, the loop's duties and the dies -/

theorem Leaves.drivePin {pin : AuxPin} {level : Nat} : Leaves still s₀ (drivePin s h pin level) := .ite (.wr hs) (.emit (.wr hs))

theorem Leaves.pwmShadow {n : Nat} {r : PwmReg} {v : Nat} : Leaves still s₀ (pwmShadow s h n r v) := by
  cases r with
  | period => exact .ite (.raiseCause (.wr (.wr (.wr (.wr hs))))) (.wr hs)
  | duty => exact .ite (.raiseCause (.wr (.wr (.wr (.wr hs))))) (.wr hs)

theorem Leaves.pwmArm {n : Nat} : Leaves still s₀ (pwmArm s h n) := .ite hs (.ite (.wr (.wr (.wr hs))) (.wr hs))

theorem Leaves.pwmStart {n : Nat} : Leaves still s₀ (pwmStart s h n) :=
  .ite (.wr (.wr (.wr (.wr (.wr (.wr (.wr hs))))))) (.wr hs)

theorem Leaves.pwmDrive {n : Nat} : Leaves still s₀ (pwmDrive s h n) := .ite (.drivePin hs) hs

theorem Leaves.loopDuties {pump valve : Nat} : Leaves still s₀ (loopDuties s h pump valve) :=
  .wr (.wr (.pwmArm (.pwmShadow (.pwmArm (.pwmShadow hs)))))

theorem Leaves.flowMeterOn : Leaves still s₀ (flowMeterOn s h) := .ite (.wr hs) hs

theorem Leaves.dieOff {die : Nat} : Leaves still s₀ (dieOff s die) := .ite (.wr (.emit (.wr (.upd hs)))) hs

theorem Leaves.diesOff : Leaves still s₀ (diesOff s h) := .foldl hs fun _ _ ht => .dieOff ht

/-! ### Plateau changes, service and Lowland mode -/

theorem Leaves.dispatchResume : Leaves still s₀ (dispatchResume s h) := .ite (.wr (.upd hs)) hs

theorem Leaves.platForget : Leaves still s₀ (platForget s h) := .ite (.dispatchResume (.wr (.wr hs))) (.wr (.wr hs))

theorem Leaves.lowlandCause {bits : Nat} : Leaves still s₀ (lowlandCause s bits) := .wr (.wr hs)

theorem Leaves.serviceUpdate : Leaves still s₀ (serviceUpdate s) :=
  have hw {a b c d e : Nat} : Leaves still s₀ (((((s.wr (.pkg .PKG_SERVICE_MGMT_H0) .h0 a).wr (.pkg .PKG_SERVICE_MGMT_H1) .h0 b).wr
    (.pkg .PKG_SERVICE_COMP_H0) .h0 c).wr (.pkg .PKG_SERVICE_COMP_H1) .h0 d).wr (.pkg .PKG_SERVICE_ROLES_H1) .h0 e) :=
    .wr (.wr (.wr (.wr (.wr hs))))
  .ite (.lowlandCause hw) hw

theorem Leaves.lowlandOut : Leaves still s₀ (lowlandOut s) := .wr (.ledger hs)

theorem Leaves.timeState {st : Nat} : Leaves still s₀ (timeState s h st) :=
  .ite hs (.ite (.raiseCause (.wr hs)) (.ite (.raiseCause (.wr hs)) (.wr hs)))

theorem Leaves.enterHold : Leaves still s₀ (enterHold s h) := .wr (.wr (.timeState hs))

theorem Leaves.park : Leaves still s₀ (park s) :=
  .ite (.diesOff (.diesOff (.wr (.wr (.wr (.wr (.wr hs))))))) (.wr (.wr (.wr (.wr (.wr hs)))))

theorem Leaves.roleQuery : Leaves still s₀ (roleQuery s h) := .ite (.wr (.wr (.wr hs))) (.mctpOut (.wr (.wr (.wr hs))))

theorem Leaves.arbitrate : Leaves still s₀ (arbitrate s h) := .ite hs (.ite (.emit hs) (.roleQuery hs))

theorem Leaves.peerPaths : Leaves still s₀ (peerPaths s h) := .ite hs (.wr hs)

end

section
variable {s : State} {h : Half} (hs : Leaves false s₀ s)
include hs

theorem Leaves.platEvents {status mt : Nat} : Leaves false s₀ (platEvents s h status mt) :=
  .foldl (.foldl hs fun _ _ hu => .postEvent hu) fun _ _ hu => .postEvent hu

theorem Leaves.platWithdraw : Leaves false s₀ (platWithdraw s h) := by
  unfold Machine.platWithdraw
  refine .ite ?_ hs
  extract_lets +onlyGivenNames s1 s2 s3
  have hs3 : Leaves false s₀ s3 := .platForget (.wr (.wr (.wr (.platEvents (.raiseCause hs)))))
  exact .ite (.platForget hs3) hs3

theorem Leaves.trayStep {trigger : Nat} : Leaves false s₀ (trayStep s trigger) :=
  .raiseCause (.faultRecord (.wr (.wr (.ite (.drivePin hs) hs))))

theorem Leaves.lowlandRecord {reset : Bool} : Leaves false s₀ (lowlandRecord s reset) := .ite (.trayStep (.ledger hs)) (.ledger hs)

theorem Leaves.stopWork {status : Nat} : Leaves false s₀ (stopWork s h status) :=
  .dropCtxs (.foldl (.mapChains (.wr (.wr hs))) fun _ _ ht => .wr ht)

theorem Leaves.closeWork {status : Nat} : Leaves false s₀ (closeWork s h status) := .relist (.lowlandStreams (.closeRequests hs))

theorem Leaves.idlePorts {off : Bool} : Leaves false s₀ (idlePorts s h off) :=
  .egrClose (.foldl hs fun _ _ ht => .ite ht (.portDown ht))

end

end
end Sys2Proof
end

section
/-!
Accesses by device address and of the HBM controller: O58 and O24.
-/

namespace Sys2Proof

open Machine

/-! ### Holes (R43) -/

/-- An address that no target answers: the gaps of Table 1.6 and the unpopulated part of each scratchpad window. -/
def inHole (x : Nat) : Prop :=
  (0x600000000 ≤ x ∧ x < 0x800000000) ∨ (0xE00000000 ≤ x ∧ x < 0x1000000000) ∨
    (0x1000000000 ≤ x ∧ x < 0x1040000000 ∧ 0x180000 ≤ x % 0x200000) ∨ (0x1040000000 ≤ x ∧ x < 2 ^ 63)

/-! ### The ranges of the targets (Table 1.6) -/

theorem targetOf_hbm {a : Nat} {k : Half} (ht : targetOf a = .hbm k) : hbmBase k ≤ a ∧ a < hbmBase k + hbmSize := by
  unfold targetOf at ht
  dsimp only at ht
  split_ifs at ht
  all_goals
    obtain rfl := Target.hbm.inj ht
    simp only [hbmBase, hbmSize]
    omega

theorem targetOf_scratch {a core off : Nat} (ht : targetOf a = .scratch core off) :
    0x1000000000 ≤ a ∧ a < 0x1040000000 ∧ off = (a - 0x1000000000) % 0x200000 ∧ off < 0x180000 := by
  unfold targetOf at ht
  dsimp only at ht
  split_ifs at ht
  obtain ⟨-, hoff⟩ := Target.scratch.inj ht
  omega

theorem targetOf_host {a : Nat} (ht : targetOf a = .host) : 2 ^ 63 ≤ a := by
  unfold targetOf hostBit at ht
  dsimp only at ht
  split_ifs at ht
  omega

/-- An access that reaches a hole starts in it, or runs past the end of the target that it starts in. -/
theorem accessStatus_of_inHole {s : State} {w : Who} {write : Bool} {a len x : Nat} (ha : a ≤ x) (hx : x < a + len) (hh : inHole x) :
    accessStatus s w write a len = ST_ADDR_INVALID := by
  unfold inHole at hh
  unfold accessStatus
  rw [if_neg (by omega)]
  cases ht : targetOf a with
  | hole => rfl
  | hbm k =>
    have hend : hbmBase k + hbmSize < a + len := by
      have hb := targetOf_hbm ht
      cases k <;> simp only [hbmBase, hbmSize] at hb ⊢ <;> omega
    simp [hend]
  | scratch core off =>
    have hend : 0x180000 < off + len := by
      obtain ⟨hlo, hhi, hoff, hlt⟩ := targetOf_scratch ht
      omega
    simp [hend]
  | host =>
    have hlo := targetOf_host ht
    omega

theorem readAt_of_refused {s : State} {w : Who} {a len : Nat} (hr : accessStatus s w false a len ≠ ST_OK) :
    readAt s w a len = (accessStatus s w false a len, recordRefusal s w false a len (accessStatus s w false a len), []) := if_neg hr

theorem writeAt_of_refused {s : State} {w : Who} {a : Nat} {data : List Byte} (hr : accessStatus s w true a data.length ≠ ST_OK) :
    writeAt s w a data =
      (accessStatus s w true a data.length, recordRefusal s w true a data.length (accessStatus s w true a data.length)) := if_neg hr

/-- Settles O58: the access is refused with ST_ADDR_INVALID, and recording a refusal moves no byte. -/
theorem addressHoles : Obligations.AddressHoles := by
  intro s w a data
  rintro hole ⟨x, ha, hx, hh⟩
  have hst {write : Bool} : accessStatus s w write a data.length = ST_ADDR_INVALID := accessStatus_of_inHole ha hx hh
  have hr {write : Bool} : accessStatus s w write a data.length ≠ ST_OK := by rw [hst]; decide
  rw [readAt_of_refused hr, writeAt_of_refused hr, hst, hst]
  exact ⟨rfl, rfl, (Leaves.refl s).recordRefusal.sameMem, rfl, (Leaves.refl s).recordRefusal.sameMem⟩

/-! ### What a read of HBM touches (R32, R227) -/

section
variable {s : State} {h k : Half} {w : Who} {a len : Nat}

theorem Touches.countBytes {t : State} {fs : List Fld} (ht : Touches s t fs) (hf : Fld.tel .LIVE_SLOT ∈ fs) (write : Bool) :
    Touches s (countBytes t w write a len) fs := by
  unfold Machine.countBytes
  split
  · exact .ite (ht.bump hf _ _ _ _) (((ht.bump hf _ _ _ _).bump hf _ _ _ _).bump hf _ _ _ _)
  · exact ht.bump hf _ _ _ _
  · exact ht

theorem touches_countBytes (s : State) (w : Who) (write : Bool) (a len : Nat) :
    Touches s (countBytes s w write a len) [.tel .LIVE_SLOT] := (Touches.refl s _).countBytes (by simp) write

theorem Touches.mem_eq {t : State} {fs : List Fld} (ht : Touches s t fs) : t.mem = s.mem :=
  have hm := congrArg State.mem ht.2
  hm

theorem Touches.dieLines_eq {t : State} {fs : List Fld} (ht : Touches s t fs) : t.dieLines = s.dieLines :=
  have hd := congrArg State.dieLines ht.2
  hd

theorem rd_bump_self (s : State) (h : Half) (group slot n : Nat) :
    (bump s h group slot n).rd (.tel .LIVE_SLOT) h (group * 32 + slot) =
      min (s.rd (.tel .LIVE_SLOT) h (group * 32 + slot) + n) (2 ^ 64 - 1) := State.rd_inc_self s _ h n _

theorem rd_bump_ne {group slot n i : Nat} (hi : i ≠ group * 32 + slot) (f : Fld) (g : Half) :
    (bump s h group slot n).rd f g i = s.rd f g i := by
  unfold bump
  rw [State.rd_inc, if_neg (by rintro ⟨-, -, hj⟩; exact hi hj)]

/-- Slot 2 of the HBM controller's group counts corrected errors, which no count of bytes moves (Table 17.2). -/
theorem rd_countBytes_corrected (ht : targetOf a = .hbm k) (write : Bool) :
    (countBytes s w write a len).rd (.tel .LIVE_SLOT) k 34 = s.rd (.tel .LIVE_SLOT) k 34 := by
  have hb : (34 : Nat) ≠ 1 * 32 + bit write := by cases write <;> decide
  unfold countBytes
  rw [ht]
  dsimp only
  split
  · rw [rd_bump_ne hb]
  · rw [rd_bump_ne (by decide), rd_bump_ne (by decide), rd_bump_ne hb]

end

/-- `t` differs from `s` in the counts of a die's cache, in the lines held and in the free values drawn. -/
def CacheMoves (s t : State) : Prop :=
  FieldsOnly s t [.tel .LIVE_SLOT, .core .DC_HIT, .core .DC_MISS] ∧
    { t with regs := s.regs, out := s.out, dieLines := s.dieLines, freeCount := s.freeCount } = s

section
variable {s t : State}

theorem CacheMoves.inc (ht : CacheMoves s t) {f : Fld} (hf : f ∈ [Fld.tel .LIVE_SLOT, .core .DC_HIT, .core .DC_MISS]) (h : Half)
    (n i : Nat) : CacheMoves s (t.inc f h n i) := by
  refine ⟨fun g k j hg => ?_, ht.2⟩
  rw [State.rd_inc, if_neg (by rintro ⟨rfl, -⟩; exact hg hf)]
  exact ht.1 g k j hg

theorem CacheMoves.bump (ht : CacheMoves s t) (h : Half) (group slot n : Nat) : CacheMoves s (bump t h group slot n) :=
  ht.inc (by simp) h n _

theorem CacheMoves.lines (ht : CacheMoves s t) (l : List DieLine) : CacheMoves s { t with dieLines := l } := ⟨ht.1, ht.2⟩

theorem CacheMoves.drawFree (ht : CacheMoves s t) : CacheMoves s (drawFree t) := ⟨ht.1, ht.2⟩

theorem CacheMoves.lineRead (ht : CacheMoves s t) (h : Half) (d line : Nat) : CacheMoves s (lineRead h d t line) := by
  have hm := ((ht.inc (f := .core .DC_MISS) (by simp) h 1 d).bump h 1 5 1).bump h 1 0 128
  unfold Machine.lineRead
  dsimp only
  split_ifs
  · exact ((ht.lines _).inc (by simp) h 1 d).bump h 1 4 1
  · exact hm.lines _
  · exact hm.drawFree.lines _

theorem CacheMoves.cacheRead (s : State) (x : Context) (a len : Nat) : CacheMoves s (cacheRead s x a len) :=
  List.foldlRecOn (motive := CacheMoves s) (lineSpan a len) _ ⟨fun _ _ _ _ => rfl, rfl⟩ fun _ ht line _ =>
    ht.lineRead x.half (x.core / 64) line

theorem Touches.cacheMoves (ht : Touches s t [.tel .LIVE_SLOT]) : CacheMoves s t :=
  ⟨fun f h i hf => ht.1 f h i (by simp only [List.mem_cons, not_or] at hf ⊢; exact ⟨hf.1, List.not_mem_nil⟩),
    congrArg (fun u : State => { u with dieLines := s.dieLines, freeCount := s.freeCount }) ht.2⟩

theorem CacheMoves.touches (ht : CacheMoves s t) : Touches { s with dieLines := t.dieLines, freeCount := t.freeCount } t
    [.tel .LIVE_SLOT, .core .DC_HIT, .core .DC_MISS] :=
  ⟨ht.1, congrArg (fun u : State => { u with dieLines := t.dieLines, freeCount := t.freeCount }) ht.2⟩

/-- A line read through a die's cache is in it afterwards. -/
theorem mem_lineRead (s : State) (h : Half) (d line : Nat) : ⟨h, d, line⟩ ∈ (lineRead h d s line).dieLines := by
  unfold lineRead
  dsimp only
  split_ifs <;> simp [bump, State.inc, State.wr]

theorem mem_cacheRead_last (s : State) (x : Context) (a : Nat) {len : Nat} (hl : 0 < len) :
    ⟨x.half, x.core / 64, (a + len - 1) / 128⟩ ∈ (cacheRead s x a len).dieLines := by
  have hlast : a / 128 + ((a + len - 1) / 128 - a / 128) = (a + len - 1) / 128 := by omega
  unfold cacheRead lineSpan
  rw [List.range_succ, List.map_append, List.foldl_append, List.map_singleton, hlast]
  exact mem_lineRead _ x.half (x.core / 64) _

end

/-! ### The accesses of the HBM controller -/

section
variable {s : State} {h k : Half} {r : Requester} {w : Who} {a len : Nat} {write : Bool} {f : Who → Half → State}

theorem hbmAccess_of_ok (hw : whoOf r s h = some w) (ht : targetOf a = .hbm k) (ha : accessStatus s w write a len = ST_OK) :
    hbmAccess s h r write a len f = .next (f w k) := by
  simp [hbmAccess, hw, ht, ha]

theorem hbmAccess_of_refused (hw : whoOf r s h = some w) (ht : targetOf a = .hbm k) (ha : accessStatus s w write a len ≠ ST_OK) :
    hbmAccess s h r write a len f = .next (failAccess (recordRefusal s w write a len (accessStatus s w write a len)) h r write
      (accessStatus s w write a len) a len) := by
  simp [hbmAccess, hw, ht, ha]

theorem whoOf_engine {fn : Nat} {c : Option (Nat × Nat)} (hw : whoOf (.engine fn c) s h = some w) : w.ctx = none := by
  obtain rfl := Option.some.inj hw
  rfl

theorem whoOf_context {core : Fin 256} {slot : Fin 2} (hw : whoOf (.context core slot) s h = some w) :
    ∃ x, w.ctx.bind (fun c => ctxAt s h c.1 c.2) = some x ∧ x.half = h ∧ x.core = core.val := by
  obtain ⟨x, hx, rfl⟩ := Option.map_eq_some_iff.mp hw
  have hp := List.find?_some hx
  simp only [Bool.and_eq_true, beq_iff_eq] at hp
  exact ⟨x, hx, hp.1.1, hp.1.2⟩

/-- A read that meets no uncorrectable error: the read alone, and where an error is corrected its count. -/
theorem execHbmRead_of_ok {err : EccErr} (hw : whoOf r s h = some w) (ht : targetOf a = .hbm k)
    (ha : accessStatus s w false a len = ST_OK) (he : err = .none ∨ err = .corrected) (chan : Fin 32) :
    exec (.hbmRead h r a len err chan) s = .next (if err = .corrected ∧ (hbmRead s h w a len).2 = true then
      bump (hbmRead s h w a len).1 k 1 2 1 else (hbmRead s h w a len).1) := by
  refine (hbmAccess_of_ok hw ht ha).trans ?_
  rcases he with rfl | rfl
  · simp
  · cases hq : (hbmRead s h w a len).2 <;> simp [hq]

theorem hbmRead_engine (hc : w.ctx = none) : hbmRead s h w a len = (countBytes s w false a len, true) := by
  simp [hbmRead, hc]

theorem cacheMoves_hbmRead (s : State) (h : Half) (w : Who) (a len : Nat) : CacheMoves s (hbmRead s h w a len).1 := by
  have hb : CacheMoves s (countBytes s w false a len) := (touches_countBytes s w false a len).cacheMoves
  unfold hbmRead
  split
  · split_ifs
    · exact hb
    · exact .cacheRead s _ a len
  · exact hb

/-- A read of the other half's stack leaves the caches alone; after one of the own half's stack its last line is held. -/
theorem hbmRead_dieLines {x : Context} (hx : w.ctx.bind (fun c => ctxAt s h c.1 c.2) = some x) (hh : x.half = h) (ht : targetOf a = .hbm k) :
    (k ≠ h → (hbmRead s h w a len).1.dieLines = s.dieLines) ∧
      (k = h → 0 < len → ⟨h, x.core / 64, (a + len - 1) / 128⟩ ∈ (hbmRead s h w a len).1.dieLines) := by
  unfold hbmRead
  rw [hx]
  dsimp only
  refine ⟨fun hk => ?_, ?_⟩
  · rw [if_pos (.inl (by rw [ht]; simpa using hk))]
    exact (touches_countBytes s w false a len).dieLines_eq
  · rintro rfl hl
    rw [if_neg (by rw [ht]; simp; omega)]
    exact hh ▸ mem_cacheRead_last s x a hl

/-- A write that meets no error: counted, and stored. -/
theorem execHbmWrite_of_ok {data : List Byte} (hw : whoOf r s h = some w) (ht : targetOf a = .hbm k)
    (ha : accessStatus s w true a data.length = ST_OK) (chan : Fin 32) :
    exec (.hbmWrite h r a data .none chan) s =
      .next ((countBytes s w true a data.length).store a data (w.ctx.map fun c => (w.half, c.1 / 64))) :=
  (hbmAccess_of_ok hw ht ha).trans (by simp)

/-- A partial write whose read finds an uncorrectable error. -/
theorem execHbmWrite_of_uncorrectable {data : List Byte} (hw : whoOf r s h = some w) (ht : targetOf a = .hbm k)
    (ha : accessStatus s w true a data.length = ST_OK) (hp : partialWrite a data.length = true) (chan : Fin 32) :
    exec (.hbmWrite h r a data .uncorrectable chan) s = .next (uncorrectable s k h r a chan.val) :=
  (hbmAccess_of_ok hw ht ha).trans (by simp [hp])

theorem execHbmWrite_of_refused {data : List Byte} {err : EccErr} (hw : whoOf r s h = some w) (ht : targetOf a = .hbm k)
    (ha : accessStatus s w true a data.length ≠ ST_OK) (chan : Fin 32) :
    exec (.hbmWrite h r a data err chan) s = .next (failAccess (recordRefusal s w true a data.length
      (accessStatus s w true a data.length)) h r true (accessStatus s w true a data.length) a data.length) :=
  hbmAccess_of_refused hw ht ha

theorem touches_store {t : State} {fs : List Fld} (ht : Touches s t fs) (data : List Byte) (die : Option (Half × Nat)) :
    Touches { s with mem := (t.store a data die).mem, dieLines := (t.store a data die).dieLines } (t.store a data die) fs :=
  ⟨ht.1, congrArg (fun u : State => { u with mem := (t.store a data die).mem, dieLines := (t.store a data die).dieLines }) ht.2⟩

theorem Leaves.failAccess_engine {still : Bool} {s₀ : State} (hs : Leaves still s₀ s) {fn : Nat} {c : Option (Nat × Nat)} {status : Nat} :
    Leaves still s₀ (failAccess s h (.engine fn c) write status a len) := by
  unfold Machine.failAccess
  cases c with
  | none => exact hs
  | some c =>
    dsimp only
    split
    · exact .failEngine hs
    · exact hs

/-- An uncorrectable error below the limit, met by an engine, moves no byte: its chain ends, and the stack is kept. -/
theorem sameMem_uncorrectable {fn chan : Nat} {c : Option (Nat × Nat)}
    (hn : ((ueRecent s k).filter fun p => p.1 == k).length < s.rd (.flt .FLT_CFG_HBM_UE_LIMIT) k 0) :
    SameMem s (uncorrectable s k h (.engine fn c) a chan) := by
  unfold uncorrectable
  rw [if_neg (Nat.not_le.mpr hn)]
  exact (Leaves.failAccess_engine (.upd (Leaves.bump (.refl s)))).sameMem

end

section
variable {s : State} {h k : Half} {w : Who} {a : Nat} (chan : Fin 32) (ht : targetOf a = .hbm k)
include ht

theorem hbmRead_by_engine {fn len : Nat} {c : Option (Nat × Nat)} (hw : whoOf (.engine fn c) s h = some w)
    (ha : accessStatus s w false a len = ST_OK) :
    (Gives (.hbmRead h (.engine fn c) a len .none chan) s fun t => Touches s t [.tel .LIVE_SLOT]) ∧
      Gives (.hbmRead h (.engine fn c) a len .corrected chan) s fun t => Touches s t [.tel .LIVE_SLOT] ∧
        t.rd (.tel .LIVE_SLOT) k 34 = min (s.rd (.tel .LIVE_SLOT) k 34 + 1) (2 ^ 64 - 1) := by
  have hq : hbmRead s h w a len = (countBytes s w false a len, true) := hbmRead_engine (whoOf_engine hw)
  have hb := touches_countBytes s w false a len
  refine ⟨⟨_, execHbmRead_of_ok hw ht ha (.inl rfl) chan, ?_⟩, ⟨_, execHbmRead_of_ok hw ht ha (.inr rfl) chan, ?_⟩⟩
  · simpa [hq] using hb
  · rw [if_pos ⟨rfl, by rw [hq]⟩, hq]
    refine ⟨hb.bump (by simp) k 1 2 1, (rd_bump_self _ k 1 2 1).trans ?_⟩
    rw [rd_countBytes_corrected ht]

theorem hbmRead_by_context {len : Nat} {core : Fin 256} {slot : Fin 2} (hw : whoOf (.context core slot) s h = some w)
    (ha : accessStatus s w false a len = ST_OK) {err : EccErr} (he : err = .none ∨ err = .corrected) :
    Gives (.hbmRead h (.context core slot) a len err chan) s fun t =>
      Touches { s with dieLines := t.dieLines, freeCount := t.freeCount } t [.tel .LIVE_SLOT, .core .DC_HIT, .core .DC_MISS] ∧
        (k ≠ h → t.dieLines = s.dieLines) ∧ (k = h → 0 < len → ⟨h, core.val / 64, (a + len - 1) / 128⟩ ∈ t.dieLines) := by
  obtain ⟨x, hx, hh, hcore⟩ := whoOf_context hw
  have hm := cacheMoves_hbmRead s h w a len
  have hd := hbmRead_dieLines (len := len) hx hh ht
  rw [hcore] at hd
  refine ⟨_, execHbmRead_of_ok hw ht ha he chan, ?_⟩
  split
  · exact ⟨(hm.bump k 1 2 1).touches, hd⟩
  · exact ⟨hm.touches, hd⟩

theorem hbmWrite_stores {r : Requester} {data : List Byte} (hw : whoOf r s h = some w)
    (ha : accessStatus s w true a data.length = ST_OK) :
    Gives (.hbmWrite h r a data .none chan) s fun t =>
      (∀ (i : Nat) (b : Byte), data[i]? = some b → t.mem.read (a + i) = b) ∧
        (∀ x, x < a ∨ a + data.length ≤ x → t.mem.read x = s.mem.read x) ∧
        Touches { s with mem := t.mem, dieLines := t.dieLines } t [.tel .LIVE_SLOT] := by
  have hb := touches_countBytes s w true a data.length
  refine ⟨_, execHbmWrite_of_ok hw ht ha chan, fun i b hi => ?_, fun x hx => ?_, touches_store hb data _⟩
  · obtain ⟨hlt, hget⟩ := List.getElem?_eq_some_iff.mp hi
    refine (Memory.read_writeN data _ a (a + i)).trans ?_
    simp [hlt, hget]
  · exact (Memory.read_writeN_out hx).trans (congrArg (Memory.read · x) hb.mem_eq)

theorem hbmWrite_by_engine_keeps {fn : Nat} {c : Option (Nat × Nat)} {data : List Byte} (hw : whoOf (.engine fn c) s h = some w) :
    (accessStatus s w true a data.length = ST_OK → partialWrite a data.length = true →
      ((ueRecent s k).filter fun p => p.1 == k).length < s.rd (.flt .FLT_CFG_HBM_UE_LIMIT) k 0 →
      Gives (.hbmWrite h (.engine fn c) a data .uncorrectable chan) s fun t => SameMem s t) ∧
    (accessStatus s w true a data.length ≠ ST_OK → Gives (.hbmWrite h (.engine fn c) a data .none chan) s fun t => SameMem s t) := by
  refine ⟨fun ha hp hn => ⟨_, execHbmWrite_of_uncorrectable hw ht ha hp chan, sameMem_uncorrectable hn⟩, fun ha => ?_⟩
  exact ⟨_, execHbmWrite_of_refused hw ht ha chan, (Leaves.recordRefusal (.refl s)).failAccess_engine.sameMem⟩

end

/-- Settles O24: one lemma above for each kind of access. -/
theorem hbmAccesses : Obligations.HbmAccesses := by
  intro h k r w a chan s hw ht
  refine ⟨fun len ha => ⟨?_, ?_⟩, fun data => ⟨fun ha => hbmWrite_stores chan ht hw ha, ?_⟩⟩
  · rintro fn c rfl
    exact hbmRead_by_engine chan ht hw ha
  · rintro core slot rfl err he
    exact hbmRead_by_context chan ht hw ha he
  · rintro fn c rfl
    exact hbmWrite_by_engine_keeps chan ht hw

end Sys2Proof
end

section
/-!
The hub buffer pool: O7 and O8.
-/

namespace Sys2Proof

open Machine

/-! ### Waiting requests and the counts of the pool (R48, R49) -/

/-- No request of the half waits for granules: those listed are reclaims. -/
def NobodyWaits (s : State) (h : Half) : Prop := ∀ r ∈ s.poolReqs, r.half = h → r.reclaim = true

theorem poolWaiters_of_nobodyWaits {s : State} {h : Half} (hn : NobodyWaits s h) : poolWaiters s h = s := by
  have hmine (c : Nat) : s.poolReqs.filter (fun r => r.half == h && r.cls == c && !r.reclaim) = [] := by
    rw [List.filter_eq_nil_iff]
    intro r hr
    by_cases hh : r.half = h
    · simp [hn r hr hh]
    · simp [hh]
  exact congrArg (List.foldl serveReq s) (List.flatMap_eq_nil_iff.mpr fun c _ => hmine c)

theorem Touches.poolReqs_eq {s t : State} {fs : List Fld} (ht : Touches s t fs) : t.poolReqs = s.poolReqs :=
  have hr := congrArg State.poolReqs ht.2
  hr

theorem Touches.nobodyWaits {s t : State} {fs : List Fld} (ht : Touches s t fs) {h : Half} (hn : NobodyWaits s h) : NobodyWaits t h := by
  unfold NobodyWaits
  rw [ht.poolReqs_eq]
  exact hn

/-- The fields that bringing FREE and QUIESCED up to date writes. -/
theorem Touches.poolRefresh {s t : State} {fs : List Fld} (ht : Touches s t fs)
    (hf : ∀ f ∈ [Fld.pkg .POOL_STATUS_FREE, .pkg .POOL_STATUS_QUIESCED], f ∈ fs) (h : Half) : Touches s (poolRefresh t h) fs :=
  (ht.wr (hf _ (by simp)) h _ 0).wr (hf _ (by simp)) h _ 0

theorem rd_poolRefresh {s : State} {h : Half} {f : Fld} (hf : f ≠ .pkg .POOL_STATUS_FREE) (hq : f ≠ .pkg .POOL_STATUS_QUIESCED)
    (k : Half) (i : Nat) : (poolRefresh s h).rd f k i = s.rd f k i :=
  ((Touches.refl s _).poolRefresh (fun _ x => x) h).rd (by simp [hf, hq]) k i

@[simp] theorem poolInUse_poolRefresh (s : State) (h k : Half) (c : Nat) : poolInUse (poolRefresh s h) k c = poolInUse s k c :=
  rd_poolRefresh (by decide) (by decide) k c

/-! ### The configuration of a COMMIT (R47) -/

/-- The sum of the classes' floors, the bounds of each class, the floor of Reduction and the fixed share of Notch (Table 1.8). -/
theorem poolConfigOk_iff (floor cap : Nat → Nat) : poolConfigOk floor cap = true ↔
    ((List.range 7).map floor).sum ≤ 1024 ∧ (∀ c < 7, floor c ≤ cap c ∧ cap c ≤ 1024) ∧ 128 ≤ floor 0 ∧ floor 4 = cap 4 ∧ 16 ≤ floor 4 := by
  simp only [poolConfigOk, Bool.and_eq_true, decide_eq_true_eq, List.all_eq_true, and_assoc]
  simp [poolSum, poolClasses, notchClass]

/-- Every class's floor and cap committed. -/
def poolApply (s : State) (h : Half) (floor cap : Nat → Nat) : State :=
  poolClasses.foldl (fun t c => (t.wr (.pkg .POOL_FLOOR) h (floor c) c).wr (.pkg .POOL_CAP) h (cap c) c) s

theorem touches_poolApply (s : State) (h : Half) (floor cap : Nat → Nat) :
    Touches s (poolApply s h floor cap) [.pkg .POOL_FLOOR, .pkg .POOL_CAP] :=
  (Touches.refl s _).foldl (fun _ c hu => (hu.wr (by simp) h _ c).wr (by simp) h _ c) poolClasses

theorem rd_poolApply {s : State} {h : Half} {floor cap : Nat → Nat} {c : Nat} (hc : c < 7) :
    (poolApply s h floor cap).rd (.pkg .POOL_FLOOR) h c = floor c % 2 ^ 11 ∧
      (poolApply s h floor cap).rd (.pkg .POOL_CAP) h c = cap c % 2 ^ 11 := by
  unfold poolApply poolClasses
  interval_cases c <;> simp [List.range_succ, Fld.width, PkgF.width]

section
variable {s : State} {h : Half}

theorem execPoolCommit_of_config (hc : poolConfigOk (poolStaged s h).1 (poolStaged s h).2 = false) :
    exec (.poolCommit h) s = .next (s.wr (.pkg .POOL_STATUS_LAST_STATUS) h ST_POOL_CONFIG) := if_pos hc

theorem execPoolCommit_of_busy (hc : poolConfigOk (poolStaged s h).1 (poolStaged s h).2 = true)
    (hq : s.rd (.pkg .POOL_STATUS_QUIESCED) h 0 = 0) :
    exec (.poolCommit h) s = .next (s.wr (.pkg .POOL_STATUS_LAST_STATUS) h ST_POOL_BUSY) :=
  (if_neg (by simp [hc])).trans (if_pos hq)

theorem execPoolCommit_of_ok (hc : poolConfigOk (poolStaged s h).1 (poolStaged s h).2 = true)
    (hq : s.rd (.pkg .POOL_STATUS_QUIESCED) h 0 ≠ 0) :
    exec (.poolCommit h) s = .next (poolRefresh (poolWaiters
      ((poolApply s h (poolStaged s h).1 (poolStaged s h).2).wr (.pkg .POOL_STATUS_LAST_STATUS) h ST_OK) h) h) :=
  (if_neg (by simp [hc])).trans (if_neg hq)

/-- The committed state: the configuration and the status stand, whoever is served; with nobody waiting nothing else is written. -/
theorem poolCommit_applies (hc : poolConfigOk (poolStaged s h).1 (poolStaged s h).2 = true)
    (hq : s.rd (.pkg .POOL_STATUS_QUIESCED) h 0 ≠ 0) : Gives (.poolCommit h) s fun t =>
      (NobodyWaits s h → Touches s t [.pkg .POOL_FLOOR, .pkg .POOL_CAP, .pkg .POOL_STATUS_LAST_STATUS, .pkg .POOL_STATUS_FREE,
          .pkg .POOL_STATUS_QUIESCED]) ∧
        t.rd (.pkg .POOL_STATUS_LAST_STATUS) h 0 = ST_OK ∧
        ∀ c < 7, t.rd (.pkg .POOL_FLOOR) h c = (poolStaged s h).1 c ∧ t.rd (.pkg .POOL_CAP) h c = (poolStaged s h).2 c := by
  obtain ⟨-, hbound, -⟩ := (poolConfigOk_iff _ _).mp hc
  have ha := touches_poolApply s h (poolStaged s h).1 (poolStaged s h).2
  have hw := (ha.mono (gs := [.pkg .POOL_FLOOR, .pkg .POOL_CAP, .pkg .POOL_STATUS_LAST_STATUS, .pkg .POOL_STATUS_FREE,
    .pkg .POOL_STATUS_QUIESCED]) (by simp)).wr (f := .pkg .POOL_STATUS_LAST_STATUS) (by simp) h ST_OK 0
  have hl := (Leaves.refl (still := true) ((poolApply s h (poolStaged s h).1 (poolStaged s h).2).wr (.pkg .POOL_STATUS_LAST_STATUS) h
    ST_OK)).poolWaiters (h := h) |>.poolRefresh (h := h)
  refine ⟨_, execPoolCommit_of_ok hc hq, fun hn => ?_, ?_, fun c hlt => ?_⟩
  · rw [poolWaiters_of_nobodyWaits (hw.nobodyWaits hn)]
    exact hw.poolRefresh (by simp) h
  · rw [hl.rd rfl]
    simp [Fld.width, PkgF.width, ST_OK]
  · obtain ⟨hfloor, hcap⟩ := rd_poolApply (s := s) (h := h) (floor := (poolStaged s h).1) (cap := (poolStaged s h).2) hlt
    obtain ⟨hle, htop⟩ := hbound c hlt
    rw [hl.rd rfl, hl.rd rfl]
    simp only [State.rd_wr, reduceCtorEq, Fld.pkg.injEq, false_and, if_false, hfloor, hcap]
    omega

end

/-- Settles O7: the configuration that a COMMIT checks is the one that the statement names, before and after the set-up lock. -/
theorem poolCommitByTable18 : Obligations.PoolCommitByTable18 := by
  intro h s locked floor cap ok
  have hcfg : poolStaged s h = (floor, cap) := by
    unfold poolStaged
    by_cases hl : locked
    · exact (if_pos hl).trans (by simp only [floor, cap, if_pos hl]; rfl)
    · exact (if_neg hl).trans (by simp only [floor, cap, if_neg hl])
  have hok : poolConfigOk (poolStaged s h).1 (poolStaged s h).2 = true ↔ ok := by
    rw [hcfg]
    exact poolConfigOk_iff floor cap
  refine ⟨fun hn => ?_, fun hy hq => ?_, fun hy hq => ?_⟩
  · exact ⟨_, execPoolCommit_of_config (Bool.eq_false_iff.mpr (hok.not.mpr hn)), (Only.refl s).wr_lt (by decide)⟩
  · exact ⟨_, execPoolCommit_of_busy (hok.mpr hy) hq, (Only.refl s).wr_lt (by decide)⟩
  · have ht := poolCommit_applies (hok.mpr hy) hq
    rw [hcfg] at ht
    exact ht

/-! ### Quiescing, and requests within a class's floor (R48, R49) -/

section
variable {s t : State} {h : Half} {c : Nat}

@[simp] theorem poolInUse_poolHold (s : State) (h : Half) (c n k : Nat) :
    poolInUse (poolHold s h c n) h k = if k = c then n % 2 ^ 11 else poolInUse s h k := by
  simp [poolInUse, poolHold, Fld.width, PkgF.width]

@[simp] theorem poolInUse_poolSetLent (s : State) (h : Half) (c n k : Nat) : poolInUse (poolSetLent s h c n) h k = poolInUse s h k := by
  simp [poolInUse, poolSetLent]

theorem poolRefresh_quiesce (s : State) (h : Half) (on : Bool) :
    poolRefresh (s.wr (.pkg .POOL_CTL_QUIESCE) h (bit on)) h =
      ((s.wr (.pkg .POOL_CTL_QUIESCE) h (bit on)).wr (.pkg .POOL_STATUS_FREE) h (1024 - poolSum (poolInUse s h))).wr
        (.pkg .POOL_STATUS_QUIESCED) h (bit (on && poolSum (poolInUse s h) == 0)) := by
  have huse : poolInUse (s.wr (.pkg .POOL_CTL_QUIESCE) h (bit on)) h = poolInUse s h := by
    funext k
    simp [poolInUse]
  unfold poolRefresh
  rw [huse]
  cases on <;> simp [bit, Fld.width, PkgF.width]

theorem bit_lt (b : Bool) : bit b < 2 ^ 1 := by cases b <;> decide

theorem poolQuiesceSet_sets (s : State) (h : Half) (on : Bool) : Sets (.poolQuiesceSet h on) s
    [cell (.pkg .POOL_CTL_QUIESCE) h 0 (bit on), cell (.pkg .POOL_STATUS_FREE) h 0 ((1024 - poolSum (poolInUse s h)) % 2 ^ 11),
      cell (.pkg .POOL_STATUS_QUIESCED) h 0 (bit (on && poolSum (poolInUse s h) == 0))] := by
  refine ⟨_, congrArg Host.Outcome.next (poolRefresh_quiesce s h on), ?_⟩
  have ho := (((Only.refl s).wr_lt (f := .pkg .POOL_CTL_QUIESCE) (h := h) (i := 0) (bit_lt on)).wr (.pkg .POOL_STATUS_FREE) h
    (1024 - poolSum (poolInUse s h)) 0).wr_lt (f := .pkg .POOL_STATUS_QUIESCED) (h := h) (i := 0)
    (bit_lt (on && poolSum (poolInUse s h) == 0))
  exact ho.perm (List.reverse_perm _).symm (by simp)

/-- One granule of the class's own idle floor. -/
theorem grantFor_of_idle (unit : Option UnitTag) (hi : 0 < poolIdle s h c) :
    grantFor s h c unit = some (poolHold s h c (poolInUse s h c + 1)) := by
  have hlt : poolInUse s h c < poolFloor s h c := by
    unfold poolIdle at hi
    omega
  have hg : poolGrant s h c = some (poolHold s h c (poolInUse s h c + 1)) := (if_pos hlt).trans (if_pos hi)
  cases unit with
  | none => exact hg
  | some tag => simp [grantFor, hg, hlt]

theorem poolServe_of_idle (unit : Option UnitTag) {n : Nat} (hi : n ≤ poolIdle s h c) (hf : poolFloor s h c ≤ 1024) :
    ∃ t, poolServe n s h c unit = (t, 0) ∧ poolInUse t h c = poolInUse s h c + n ∧ Touches s t [.pkg .POOL_CLASS_USE_IN_USE] := by
  induction n generalizing s with
  | zero => exact ⟨s, rfl, rfl, .refl s _⟩
  | succ n ih =>
    have hroom : poolInUse s h c + poolLent s h c + n + 1 ≤ poolFloor s h c := by
      unfold poolIdle at hi
      omega
    have hh : Touches s (poolHold s h c (poolInUse s h c + 1)) [.pkg .POOL_CLASS_USE_IN_USE] := (Touches.refl s _).wr (by simp) h _ c
    have huse : poolInUse (poolHold s h c (poolInUse s h c + 1)) h c = poolInUse s h c + 1 := by
      rw [poolInUse_poolHold, if_pos rfl]
      omega
    have hfloor : poolFloor (poolHold s h c (poolInUse s h c + 1)) h c = poolFloor s h c := hh.rd (by decide) h c
    have hlent : poolLent (poolHold s h c (poolInUse s h c + 1)) h c = poolLent s h c := hh.rd (by decide) h c
    obtain ⟨t, ht, hu, htt⟩ := ih (s := poolHold s h c (poolInUse s h c + 1))
      (by unfold poolIdle; rw [hfloor, huse, hlent]; omega) (hfloor ▸ hf)
    refine ⟨t, ?_, by omega, hh.trans htt⟩
    rw [poolServe, grantFor_of_idle unit (by unfold poolIdle; omega)]
    exact ht

theorem poolAsk_of_served {n : Nat} {unit : Option UnitTag} (hp : poolServe n s h c unit = (t, 0)) :
    poolAsk s h c n unit = poolRefresh t h := by
  simp [poolAsk, hp]

theorem poolGranuleRequest_within_floor {c : Fin 7} {n : Nat} {unit : Option UnitTag} (hi : n ≤ poolIdle s h c.val)
    (hf : poolFloor s h c.val ≤ 1024) : Gives (.poolGranuleRequest h c n unit) s fun t =>
      poolInUse t h c.val = poolInUse s h c.val + n ∧
        Touches s t [.pkg .POOL_CLASS_USE_IN_USE, .pkg .POOL_STATUS_FREE, .pkg .POOL_STATUS_QUIESCED] := by
  obtain ⟨t, hp, hu, ht⟩ := poolServe_of_idle unit hi hf
  exact ⟨_, congrArg Host.Outcome.next (poolAsk_of_served hp), (poolInUse_poolRefresh t h h c.val).trans hu,
    (ht.mono (by simp)).poolRefresh (by simp) h⟩

/-! ### Releases (R49, R51) -/

theorem poolRelease_of_floor (h0 : 0 < poolInUse s h c) (hf : poolInUse s h c ≤ poolFloor s h c) :
    poolRelease s h c = poolHold s h c (poolInUse s h c - 1) := (if_neg (by omega)).trans (if_neg (by omega))

theorem poolRelease_of_borrowed {r : PoolReq} (hf : poolFloor s h c < poolInUse s h c) (hr : reclaimFirst s h = some r) :
    poolRelease s h c = reclaimCredit (poolHold s h c (poolInUse s h c - 1)) h r := by
  have hr' : reclaimFirst (poolHold s h c (poolInUse s h c - 1)) h = some r := hr
  refine (if_neg (by omega)).trans ((if_pos hf).trans ?_)
  unfold creditBorrowed
  rw [hr']

theorem reclaim_of_reclaimFirst {r : PoolReq} (hr : reclaimFirst s h = some r) : r.reclaim = true := by
  have hm := List.mem_of_mem_head? (Option.mem_def.mpr hr)
  obtain ⟨c, -, hm⟩ := List.mem_flatMap.mp hm
  have hp := (List.mem_filter.mp hm).2
  simp only [Bool.and_eq_true] at hp
  exact hp.1.2

theorem mem_editFirst {α : Type} [DecidableEq α] {x a : α} {y : Option α} {l : List α} (hm : a ∈ editFirst x y l) :
    a ∈ l ∨ y = some a := by
  induction l with
  | nil => exact absurd hm List.not_mem_nil
  | cons b l ih =>
    unfold editFirst at hm
    split at hm
    · cases y with
      | none => exact .inl (List.mem_cons_of_mem b hm)
      | some z =>
        rcases List.mem_cons.mp hm with rfl | hm
        · exact .inr rfl
        · exact .inl (List.mem_cons_of_mem b hm)
    · rcases List.mem_cons.mp hm with rfl | hm
      · exact .inl List.mem_cons_self
      · exact (ih hm).imp_left (List.mem_cons_of_mem b)

theorem length_editFirst_none {α : Type} [DecidableEq α] {x : α} {l : List α} (hx : x ∈ l) :
    (editFirst x none l).length + 1 = l.length := by
  induction l with
  | nil => exact absurd hx List.not_mem_nil
  | cons b l ih =>
    unfold editFirst
    split
    · rfl
    · next hb =>
      have hl := ih ((List.mem_cons.mp hx).resolve_left fun e => hb e.symm)
      simp only [List.length_cons]
      omega

/-- A reclaim that is given a granule stays a reclaim, or is over. -/
theorem NobodyWaits.reclaimCredit (hn : NobodyWaits s h) {r : PoolReq} (hr : r.reclaim = true) : NobodyWaits (reclaimCredit s h r) h := by
  unfold Machine.reclaimCredit
  dsimp only
  split
  · intro q hq
    rcases mem_editFirst (show q ∈ editFirst r none s.poolReqs from hq) with hq | hq
    · exact hn q hq
    · cases hq
  · intro q hq
    rcases mem_editFirst (show q ∈ editFirst r (some { r with left := r.left - 1 }) s.poolReqs from hq) with hq | hq
    · exact hn q hq
    · obtain rfl := Option.some.inj hq
      exact fun _ => hr

theorem poolInUse_reclaimDone (s : State) (h : Half) (t0 k : Nat) : poolInUse (reclaimDone s h t0) h k = poolInUse s h k := by
  simp [poolInUse, reclaimDone, bump]

theorem poolInUse_reclaimCredit (s : State) (h : Half) (r : PoolReq) (k : Nat) :
    poolInUse (reclaimCredit s h r) h k = if k = r.cls then (poolInUse s h k + 1) % 2 ^ 11 else poolInUse s h k := by
  have hs (q : List PoolReq) : poolInUse { poolSetLent (poolHold s h r.cls (poolInUse s h r.cls + 1)) h r.cls
      (poolLent s h r.cls - 1) with poolReqs := q } h k = if k = r.cls then (poolInUse s h k + 1) % 2 ^ 11 else poolInUse s h k := by
    refine (poolInUse_poolSetLent _ h _ _ k).trans ((poolInUse_poolHold s h _ _ k).trans ?_)
    split
    · subst k
      rfl
    · rfl
  unfold reclaimCredit
  dsimp only
  split
  · exact (poolInUse_reclaimDone _ h _ k).trans (hs _)
  · exact hs _

theorem execPoolGranuleRelease_of_nobodyWaits {c : Fin 7} (hn : NobodyWaits (poolRelease s h c.val) h) :
    exec (.poolGranuleRelease h c) s = .next (poolRefresh (poolRelease s h c.val) h) :=
  congrArg (fun t => Host.Outcome.next (poolRefresh t h)) (poolWaiters_of_nobodyWaits hn)

theorem poolGranuleRelease_of_floor {c : Fin 7} (h0 : 0 < poolInUse s h c.val) (hlt : poolInUse s h c.val < 2048) (hn : NobodyWaits s h)
    (hf : poolInUse s h c.val ≤ poolFloor s h c.val) : Gives (.poolGranuleRelease h c) s fun t =>
      poolInUse t h c.val = poolInUse s h c.val - 1 ∧
        Touches s t [.pkg .POOL_CLASS_USE_IN_USE, .pkg .POOL_STATUS_FREE, .pkg .POOL_STATUS_QUIESCED] := by
  have hr := poolRelease_of_floor h0 hf
  refine ⟨_, execPoolGranuleRelease_of_nobodyWaits (hr ▸ hn), ?_⟩
  rw [hr]
  refine ⟨?_, ((Touches.refl s _).wr (by simp) h _ _).poolRefresh (by simp) h⟩
  rw [poolInUse_poolRefresh, poolInUse_poolHold, if_pos rfl]
  omega

theorem poolGranuleRelease_of_borrowed {c : Fin 7} (hlt : poolInUse s h c.val < 2048) (hn : NobodyWaits s h) {r : PoolReq}
    (hf : poolFloor s h c.val < poolInUse s h c.val) (hr : reclaimFirst s h = some r) (hc : r.cls ≠ c.val)
    (hlim : poolInUse s h r.cls < 1024) : Gives (.poolGranuleRelease h c) s fun t =>
      poolInUse t h c.val = poolInUse s h c.val - 1 ∧ poolInUse t h r.cls = poolInUse s h r.cls + 1 := by
  have hrel := poolRelease_of_borrowed hf hr
  have hn' : NobodyWaits (poolHold s h c.val (poolInUse s h c.val - 1)) h := hn
  refine ⟨_, execPoolGranuleRelease_of_nobodyWaits (hrel ▸ hn'.reclaimCredit (reclaim_of_reclaimFirst hr)), ?_⟩
  rw [hrel]
  simp only [poolInUse_poolRefresh, poolInUse_reclaimCredit, poolInUse_poolHold, if_neg hc, if_neg (Ne.symm hc), if_true]
  omega

/-! ### Units in flight (R51, R52) -/

theorem poolUnit_some {tag : UnitTag} {u : PoolUnit} (hu : poolUnit s h c tag = some u) : u ∈ s.poolUnits ∧ u.half = h := by
  obtain ⟨hm, hp⟩ := List.mem_filter.mp (List.mem_of_find?_eq_some hu)
  simp only [Bool.and_eq_true, beq_iff_eq] at hp
  exact ⟨hm, hp.1⟩

theorem poolUnit_commands_of_none {c : Fin 7} {tag : UnitTag} (hu : poolUnit s h c.val tag = none) :
    Sets (.poolUnitComplete h c tag) s [] ∧ Sets (.poolForceRelease h c tag) s [] := by
  constructor
  · exact sets_of_next (show execPoolUnitComplete h c tag s = _ by unfold execPoolUnitComplete; rw [hu])
  · exact sets_of_next (show execPoolForceRelease h c tag s = _ by unfold execPoolForceRelease; rw [hu])

/-- A unit that no reclaim has marked ends, and gives no granule back. -/
theorem poolUnitComplete_of_unmarked {c : Fin 7} {tag : UnitTag} {u : PoolUnit} (hu : poolUnit s h c.val tag = some u)
    (hm : u.marked = 0) (hn : NobodyWaits s h) : Gives (.poolUnitComplete h c tag) s fun t =>
      t.poolUnits.length + 1 = s.poolUnits.length ∧ ∀ k, poolInUse t h k = poolInUse s h k := by
  obtain ⟨hmem, hh⟩ := poolUnit_some hu
  have hn' : NobodyWaits (egressSettle { s with poolUnits := editFirst u none s.poolUnits } h) h := hn
  have he : exec (.poolUnitComplete h c tag) s =
      .next (poolRefresh (egressSettle { s with poolUnits := editFirst u none s.poolUnits } h) h) := by
    show execPoolUnitComplete h c tag s = _
    unfold execPoolUnitComplete
    rw [hu]
    show Host.Outcome.next (unitEnd s u u.marked) = _
    rw [hm, unitEnd, hh]
    exact congrArg (fun t => Host.Outcome.next (poolRefresh t h)) (poolWaiters_of_nobodyWaits hn')
  exact ⟨_, he, length_editFirst_none hmem, fun k => poolInUse_poolRefresh _ h h k⟩

theorem poolForceRelease_of_early {c : Fin 7} {tag : UnitTag} {u : PoolUnit} (hu : poolUnit s h c.val tag = some u)
    (he : u.marked = 0 ∨ s.mt h < u.since + 6500) : Sets (.poolForceRelease h c tag) s [] :=
  sets_of_next (show execPoolForceRelease h c tag s = _ by
    unfold execPoolForceRelease
    rw [hu]
    exact if_pos he)

/-- A unit past its time is cancelled, and the cancellation counted: nothing that ends or asks for units writes the count. -/
theorem poolForceRelease_of_late {c : Fin 7} {tag : UnitTag} {u : PoolUnit} (hu : poolUnit s h c.val tag = some u) (hm : u.marked ≠ 0)
    (hl : u.since + 6500 ≤ s.mt h) : Gives (.poolForceRelease h c tag) s fun t =>
      t.rd (.pkg .POOL_FORCED_CNT) h 0 = min (s.rd (.pkg .POOL_FORCED_CNT) h 0 + 1) (2 ^ 32 - 1) := by
  have he : exec (.poolForceRelease h c tag) s = .next (poolAsk (bump ((unitEnd (dropUnit s h tag) u u.size).inc
      (.pkg .POOL_FORCED_CNT) h 1) h 1 12 1) h c.val u.size (some tag)) := by
    show execPoolForceRelease h c tag s = _
    unfold execPoolForceRelease
    rw [hu]
    exact if_neg (by omega)
  have hend : Leaves true s (unitEnd (dropUnit s h tag) u u.size) := .unitEnd (.upd (.refl s))
  have hask (t : State) : Leaves true t (poolAsk (bump t h 1 12 1) h c.val u.size (some tag)) := .poolAsk (.bump (.refl t))
  refine ⟨_, he, ((hask _).rd rfl h 0).trans ((State.rd_inc_self _ _ h 1 0).trans ?_)⟩
  rw [hend.rd rfl]
  rfl

end

/-- Settles O8: one lemma above for each command and case. -/
theorem poolGranules : Obligations.PoolGranules := by
  intro h c s nobodyWaits
  refine ⟨fun on => poolQuiesceSet_sets s h on, fun n unit hi hf => poolGranuleRequest_within_floor hi hf, fun h0 hlt hn => ⟨fun hf => ?_,
    fun r hf hr hc hlim => ?_⟩, fun tag => ⟨fun hu => poolUnit_commands_of_none hu, fun u hu => ⟨fun hm hn => ?_, fun he => ?_,
    fun hm hl => ?_⟩⟩⟩
  · exact poolGranuleRelease_of_floor h0 hlt hn hf
  · exact poolGranuleRelease_of_borrowed hlt hn hf hr hc hlim
  · exact poolUnitComplete_of_unmarked hu hm hn
  · exact poolForceRelease_of_early hu he
  · exact poolForceRelease_of_late hu hm hl

end Sys2Proof
end

section
/-!
The Pass main lanes, the sideband and retraining: O21.
-/

namespace Sys2Proof

open Machine

section
variable {s : State} {h : Half}

/-! ### The down declaration (R36, R527) -/

/-- The registers of a declaration, before its notices: what shared work leaves of them. -/
def passDeclared (s : State) (h : Half) : State :=
  ((((s.wr (.pkg .PASS_STATUS_STATE) h 3).wr (.pkg .PASS_STATUS_LOCK) h 0).wr (.pkg .PASS_DOWN_TIME) h (s.mt h)).wr (.flt .PASS_DOWN_MT) h
    (s.mt h)).wr (.pkg .PASS_REALIGNING) h 0

theorem leaves_passDeclare (s : State) (h : Half) (cause : Nat) : Leaves false (passDeclared s h) (passDeclare s h cause) :=
  .arbitrate (.serviceUpdate (.peerPaths (.faultRecord (.postNotice (.foldl (.raiseCause (.refl _)) fun _ _ ht => .passDownChain ht)))))

theorem rd_passDeclare (s : State) (h : Half) (cause : Nat) :
    (passDeclare s h cause).rd (.pkg .PASS_STATUS_STATE) h 0 = 3 ∧ (passDeclare s h cause).rd (.pkg .PASS_STATUS_LOCK) h 0 = 0 ∧
      (passDeclare s h cause).rd (.pkg .PASS_DOWN_TIME) h 0 = s.mt h % 2 ^ 64 := by
  have hl := leaves_passDeclare s h cause
  rw [hl.rd rfl, hl.rd rfl, hl.rd rfl]
  simp [passDeclared, Fld.width, PkgF.width]

/-! ### Flits and exhaustions (R34, R35) -/

theorem execPassFlitReceive_of_down {r : Fin 5} (hu : s.lanesUp = false) : exec (.passFlitReceive h r) s = .next s :=
  if_neg (by simp [hu])

theorem passFlitReceive_of_up {r : Fin 5} (hu : s.lanesUp = true) : Gives (.passFlitReceive h r) s fun t =>
    t.rd (.pkg .PASS_STATUS_EXH_RUN) h.other 0 = 0 ∧ t.rd (.pkg .PASS_REPLAY_CNT_REPLAYS) h.other 0 =
      min (s.rd (.pkg .PASS_REPLAY_CNT_REPLAYS) h.other 0 + r.val) (2 ^ 32 - 1) := by
  have hb (t : State) (k : Half) : Leaves true t (bump (bump (bump t h 3 10 256) k 3 9 256) k 3 11 r.val) :=
    .bump (.bump (.bump (.refl t)))
  refine ⟨_, if_pos hu, ?_, ?_⟩
  · rw [(hb _ h.other).rd rfl]
    simp
  · refine ((hb _ h.other).rd rfl _ 0).trans ((State.rd_inc_self _ _ h.other r.val 0).trans ?_)
    simp [Fld.width, PkgF.width]

theorem execPassReplayExhaust_of_not_up (hu : s.passUp h = false ∨ s.rd (.pkg .PASS_REALIGNING) h 0 ≠ 0) :
    exec (.passReplayExhaust h) s = .next s := by
  refine if_neg ?_
  rintro ⟨hup, hre⟩
  rcases hu with hu | hu
  · simp [hu] at hup
  · exact hu hre

/-- The state once an exhaustion is counted, before what follows from it. -/
def exhausted (s : State) (h : Half) : State :=
  raiseCause (bump ((((s.inc (.pkg .PASS_REPLAY_CNT_EXH) h 1).inc (.pkg .PASS_REPLAY_CNT_REPLAYS) h 4)).wr (.pkg .PASS_STATUS_EXH_RUN) h
    (s.rd (.pkg .PASS_STATUS_EXH_RUN) h + 1)) h 3 11 4) 1 h 1

theorem leaves_exhausted (s : State) (h : Half) : Leaves true
    (((s.inc (.pkg .PASS_REPLAY_CNT_EXH) h 1).inc (.pkg .PASS_REPLAY_CNT_REPLAYS) h 4).wr (.pkg .PASS_STATUS_EXH_RUN) h
      (s.rd (.pkg .PASS_STATUS_EXH_RUN) h + 1)) (exhausted s h) := .raiseCause (.bump (.refl _))

theorem execPassReplayExhaust_of_up (hu : s.passUp h = true) (hr : s.rd (.pkg .PASS_REALIGNING) h 0 = 0) :
    exec (.passReplayExhaust h) s = if 3 ≤ s.rd (.pkg .PASS_STATUS_EXH_RUN) h + 1 then .next (passDeclare (exhausted s h) h 0)
      else .next ((exhausted s h).wr (.pkg .PASS_REALIGNING) h 1) := if_pos ⟨hu, hr⟩

theorem passReplayExhaust_realigns (hu : s.passUp h = true) (hr : s.rd (.pkg .PASS_REALIGNING) h 0 = 0)
    (hn : s.rd (.pkg .PASS_STATUS_EXH_RUN) h 0 < 2) : Gives (.passReplayExhaust h) s fun t => t.rd (.pkg .PASS_REALIGNING) h 0 = 1 ∧
      t.rd (.pkg .PASS_STATUS_EXH_RUN) h 0 = s.rd (.pkg .PASS_STATUS_EXH_RUN) h 0 + 1 ∧ t.passUp h = true := by
  have hl := leaves_exhausted s h
  have hstate : (exhausted s h).rd (.pkg .PASS_STATUS_STATE) h 0 = s.rd (.pkg .PASS_STATUS_STATE) h 0 := by
    rw [hl.rd rfl]
    simp
  have hrun : (exhausted s h).rd (.pkg .PASS_STATUS_EXH_RUN) h 0 = s.rd (.pkg .PASS_STATUS_EXH_RUN) h 0 + 1 := by
    rw [hl.rd rfl, State.rd_wr_self]
    exact Nat.mod_eq_of_lt (show _ < 2 ^ 2 by omega)
  refine ⟨_, (execPassReplayExhaust_of_up hu hr).trans (if_neg (by omega)), by simp [Fld.width, PkgF.width], by simpa using hrun, ?_⟩
  simpa [State.passUp, hstate] using hu

theorem passReplayExhaust_declares (hu : s.passUp h = true) (hr : s.rd (.pkg .PASS_REALIGNING) h 0 = 0)
    (hn : 2 ≤ s.rd (.pkg .PASS_STATUS_EXH_RUN) h 0) :
    Gives (.passReplayExhaust h) s fun t => t.rd (.pkg .PASS_STATUS_STATE) h 0 = 3 :=
  ⟨_, (execPassReplayExhaust_of_up hu hr).trans (if_pos (by omega)), (rd_passDeclare _ h 0).1⟩

/-! ### Lock and sideband (R35, R38, R494) -/

theorem passLockLost_of_up (hu : s.passUp h = true) (hs : Inv s) : Gives (.passLockLost h) s fun t =>
    t.rd (.pkg .PASS_STATUS_STATE) h 0 = 3 ∧ t.rd (.pkg .PASS_STATUS_LOCK) h 0 = 0 ∧ t.rd (.pkg .PASS_DOWN_TIME) h 0 = s.mt h := by
  obtain ⟨-, -, -, hg⟩ := hs
  have hmt : s.mt h < 2 ^ 64 := RegFile.get_lt hg ⟨.tim .MT, h, 0⟩
  have hraise : (raiseCause s 1 h 4).mt h = s.mt h := rd_raiseCause_ne s 1 h 4 (by decide) (by decide) h 0
  obtain ⟨hstate, hlock, htime⟩ := rd_passDeclare (raiseCause s 1 h 4) h 1
  refine ⟨_, if_pos (by simpa [State.passUp] using hu), hstate, hlock, ?_⟩
  rw [htime, hraise, Nat.mod_eq_of_lt hmt]

/-- A bit that is set reads 1 within its register's width. -/
theorem testBit_setBits {x m n w : Nat} (hw : n < w) (hm : m.testBit n = true) : (setBits x m % 2 ^ w).testBit n = true := by
  simp [setBits, Nat.testBit_mod_two_pow, Nat.testBit_or, hw, hm]

theorem passSidebandLost_of_alive (ha : s.rd (.pkg .PASS_STATUS_SB_ALIVE) h 0 = 1) : Gives (.passSidebandLost h) s fun t =>
    t.rd (.pkg .PASS_STATUS_SB_ALIVE) h 0 = 0 ∧ (t.rd (.pkg .PASS_ERR) h 0).testBit 3 = true := by
  have hp (t : State) (f : Fld) (hf : f ≠ .flt .MC_STATUS_PEER) : (peerPaths t h).rd f h 0 = t.rd f h 0 := by
    unfold peerPaths
    split <;> simp [hf]
  refine ⟨_, if_pos ha, ?_, ?_⟩
  · rw [hp _ _ (by decide), rd_raiseCause_ne _ _ _ _ (by decide) (by decide)]
    simp
  · rw [hp _ _ (by decide)]
    refine (congrArg (Nat.testBit · 3) (rd_raiseCause_self _ 1 h 8 (by decide))).trans ?_
    exact testBit_setBits (w := 4) (by decide) (by decide)

theorem rd_pathAlive {t : State} {k : Half} {f : Fld} (hf : f ≠ .flt .MC_PATH_MT) (g : Half) (i : Nat) :
    (pathAlive s t k).rd f g i = t.rd f g i := by
  unfold pathAlive
  split <;> simp [hf]

theorem rd_reconcile {f : Fld} (hf : f ≠ .sec .SEC_STATUS_SOLO) (g : Half) (i : Nat) : (reconcile s).rd f g i = s.rd f g i := by
  unfold reconcile
  dsimp only
  rw [State.rd_wr, if_neg (fun e => hf e.1), State.rd_wr, if_neg (fun e => hf e.1)]
  rfl

theorem passSidebandRegained_of_lost (ha : s.rd (.pkg .PASS_STATUS_SB_ALIVE) h 0 ≠ 1) (hh : hubOk s h.other = true) :
    Gives (.passSidebandRegained h) s fun t => t.rd (.pkg .PASS_STATUS_SB_ALIVE) h 0 = 1 := by
  have halive : (pathAlive s (s.wr (.pkg .PASS_STATUS_SB_ALIVE) h 1) h).rd (.pkg .PASS_STATUS_SB_ALIVE) h 0 = 1 := by
    rw [rd_pathAlive (by decide)]
    simp [Fld.width, PkgF.width]
  have he : exec (.passSidebandRegained h) s = _ := if_neg (by simp [ha, hh])
  unfold Gives
  rw [he]
  dsimp only
  split
  · exact ⟨_, rfl, (rd_reconcile (by decide) h 0).trans halive⟩
  · exact ⟨_, rfl, halive⟩

/-! ### Retraining (R534) -/

theorem forall_half {p : Half → Prop} : (∀ k, p k) ↔ p .h0 ∧ p .h1 :=
  ⟨fun hp => ⟨hp _, hp _⟩, fun ⟨h0, h1⟩ k => by
    cases k
    · exact h0
    · exact h1⟩

theorem exists_half {p : Half → Prop} : (∃ k, p k) ↔ p .h0 ∨ p .h1 :=
  ⟨fun ⟨k, hk⟩ => by
    cases k
    · exact .inl hk
    · exact .inr hk, fun hp => hp.elim (⟨_, ·⟩) (⟨_, ·⟩)⟩

theorem eq_other_of_ne {k h : Half} (hk : k ≠ h) : k = h.other := by
  cases k <;> cases h <;> simp_all [Half.other]

theorem retrainDue_iff (s : State) : retrainDue s = true ↔
    (∀ k, 3 ≤ s.rd (.pkg .PASS_STATUS_STATE) k 0 ∧ s.rd (.flt .MC_PASS_CTL_RETRAIN_EN) k 0 = 1 ∧ hubOk s k = true) ∧
      ∃ k, s.rd (.pkg .PASS_STATUS_STATE) k 0 = 3 := by
  rw [forall_half, exists_half]
  simp [retrainDue, and_assoc]

theorem retrainDue_of_down (hd : s.rd (.pkg .PASS_STATUS_STATE) h 0 = 3) (ho : 3 ≤ s.rd (.pkg .PASS_STATUS_STATE) h.other 0)
    (hm : ∀ k, s.rd (.flt .MC_PASS_CTL_RETRAIN_EN) k 0 = 1 ∧ hubOk s k = true) : retrainDue s = true := by
  refine (retrainDue_iff s).mpr ⟨fun k => ⟨?_, hm k⟩, h, hd⟩
  by_cases hk : k = h
  · exact hk ▸ hd.ge
  · exact eq_other_of_ne hk ▸ ho

theorem passRetrainAttempt_of_due (hd : retrainDue s = true) :
    Sets .passRetrainAttempt s [cell (.pkg .PASS_TRYING) .h0 0 1] :=
  ⟨_, congrArg Host.Outcome.next (if_pos hd), (Only.refl s).wr_lt (by decide)⟩

theorem passRetrainAttempt_of_not_due (hd : retrainDue s = false) : Sets .passRetrainAttempt s [] :=
  sets_of_next (congrArg Host.Outcome.next (if_neg (by simp [hd])))

theorem rd_passTrained_state (s : State) {st : Nat} (hst : st < 8) (a b : Nat) (k : Half) :
    (passTrained s st a b).rd (.pkg .PASS_STATUS_STATE) k 0 = st := by
  cases k <;> simp [passTrained, Fld.width, PkgF.width, Nat.mod_eq_of_lt hst]

theorem passRetrainEnd_trained (ht : s.rd (.pkg .PASS_TRYING) .h0 0 ≠ 0) {a b : Nat} (ha : a ≤ 8) (hb : b ≤ 8) :
    Gives (.passRetrainEnd true a b) s fun t => ∀ k, t.rd (.pkg .PASS_STATUS_STATE) k 0 = 4 := by
  refine ⟨_, (if_neg ht).trans (if_pos ⟨rfl, ha, hb⟩), fun k => ?_⟩
  rw [rd_raiseCause_ne _ _ _ _ (by decide) (by decide), rd_raiseCause_ne _ _ _ _ (by decide) (by decide),
    rd_passTrained_state _ (by decide)]

theorem passRetrainEnd_failed (ht : s.rd (.pkg .PASS_TRYING) .h0 0 ≠ 0) (a b : Nat) :
    Gives (.passRetrainEnd false a b) s fun t => ∀ k, t.rd (.flt .PASS_RETRAIN_CNT) k 0 =
      min (s.rd (.flt .PASS_RETRAIN_CNT) k 0 + 1) (2 ^ 32 - 1) := by
  refine ⟨_, (if_neg ht).trans (if_neg (by simp)), fun k => ?_⟩
  cases k with
  | h0 =>
    rw [State.rd_inc, if_neg (by simp), State.rd_inc_self]
    simp [Fld.width, FltF.width]
  | h1 =>
    rw [State.rd_inc_self]
    simp [Fld.width, FltF.width]

end

/-- Settles O21: one lemma above for each command and case. -/
theorem passLanes : Obligations.PassLanes := by
  intro h s
  refine ⟨fun r => ⟨fun hu => sets_of_next (execPassFlitReceive_of_down hu), fun hu => passFlitReceive_of_up hu⟩,
    fun hu => sets_of_next (execPassReplayExhaust_of_not_up hu),
    fun hu hr => ⟨fun hn => passReplayExhaust_realigns hu hr hn, fun hn => passReplayExhaust_declares hu hr hn⟩,
    ⟨_, rfl, (Only.refl s).wr_lt (by decide)⟩, fun hu hs => passLockLost_of_up hu hs, fun ha => passSidebandLost_of_alive ha,
    fun ha hh => passSidebandRegained_of_lost ha hh, fun hd ho hm => passRetrainAttempt_of_due (retrainDue_of_down hd ho hm),
    fun hd => passRetrainAttempt_of_not_due hd, fun hd => passRetrainAttempt_of_due hd,
    fun ht a b => ⟨fun ha hb => passRetrainEnd_trained ht ha hb, passRetrainEnd_failed ht a b⟩⟩

end Sys2Proof
end

section
/-!
Entry into Lowland mode, its exit, and the report of service: O19.
-/

namespace Sys2Proof

open Machine

section
variable {s : State} {h k : Half}

/-! ### Entry (R120 to R122) -/

theorem leaves_lowlandHalf (s : State) (h : Half) (status : Nat) :
    Leaves false (s.wr (.boot .LOWLAND_IN) h 1) (lowlandHalf s h status) :=
  .enterHold (.idlePorts (.closeWork (.stopWork (.refl _))))

/-- The halves that enter are in Lowland mode; nothing else that shared work leaves is written. -/
theorem rd_lowlandHalves (hs : List Half) (s : State) (status : Nat) {f : Fld} (hf : workField f = false) (k : Half) (i : Nat) :
    (hs.foldl (fun t h => lowlandHalf t h status) s).rd f k i =
      if f = .boot .LOWLAND_IN ∧ k ∈ hs ∧ i = 0 then 1 else s.rd f k i := by
  induction hs generalizing s with
  | nil => simp
  | cons h hs ih =>
    rw [List.foldl_cons, ih, (leaves_lowlandHalf s h status).rd hf, State.rd_wr]
    by_cases hin : f = .boot .LOWLAND_IN ∧ i = 0
    · obtain ⟨rfl, rfl⟩ := hin
      by_cases hk : k = h <;> simp [hk, Fld.width, BootF.width]
    · rw [if_neg fun e => hin ⟨e.1, e.2.2⟩, if_neg fun e => hin ⟨e.1, e.2.2⟩, if_neg fun e => hin ⟨e.1, e.2.2⟩]

theorem chipHalf_mem_lowlandHalves (s : State) : s.chipHalf ∈ lowlandHalves s := by
  unfold lowlandHalves
  dsimp only
  split <;> simp

/-- The state that an entry leaves to the update of service and the notices. -/
def parked (s : State) : State :=
  park (platWithdraw ((lowlandHalves s).foldl (fun t h => lowlandHalf t h ST_LOWLAND)
    ((if s.peerReachable s.chipHalf then s.emit (.interHalf s.chipHalf .lowland) else s).wr (.boot .LOWLAND_ENTRY_TIME) .h0
      (s.mt s.chipHalf))) s.chipHalf)

theorem leaves_enterLowland (s : State) : Leaves false
    (((parked s).wr (.pkg .PKG_SERVICE_LOWLAND) .h0 1).wr (.boot .LOWLAND_ENTERED) .h0 6) (enterLowland s) :=
  .foldl (.serviceUpdate (.refl _)) fun _ _ ht => .raiseCause ht

theorem rd_parked (s : State) {f : Fld} (hf : workField f = false) (ht : f ≠ .boot .LOWLAND_ENTRY_TIME) (k : Half) (i : Nat) :
    (parked s).rd f k i = if f = .boot .LOWLAND_IN ∧ k ∈ lowlandHalves s ∧ i = 0 then 1 else s.rd f k i := by
  have hp (t : State) (h : Half) : Leaves false t (park (platWithdraw t h)) := .park (.platWithdraw (.refl t))
  have htold : (if s.peerReachable s.chipHalf then s.emit (.interHalf s.chipHalf .lowland) else s).rd f k i = s.rd f k i := by
    split <;> rfl
  unfold parked
  rw [(hp _ _).rd hf, rd_lowlandHalves _ _ _ hf]
  simp only [State.rd_wr, ht, false_and, if_false, htold]

theorem rd_enterLowland (s : State) : (enterLowland s).rd (.boot .LOWLAND_IN) s.chipHalf 0 = 1 ∧
    (enterLowland s).rd (.boot .LOWLAND_STATUS_CAUSE) .h0 0 = s.rd (.boot .LOWLAND_STATUS_CAUSE) .h0 0 ∧
    (enterLowland s).rd (.pkg .PKG_SERVICE_LOWLAND) .h0 0 = 1 := by
  have hl := leaves_enterLowland s
  refine ⟨?_, ?_, ?_⟩
  · rw [hl.rd rfl]
    simp [rd_parked s (f := .boot .LOWLAND_IN) rfl (by decide), chipHalf_mem_lowlandHalves]
  · rw [hl.rd rfl]
    simp [rd_parked s (f := .boot .LOWLAND_STATUS_CAUSE) rfl (by decide)]
  · rw [hl.rd rfl]
    simp [Fld.width, PkgF.width]

/-- The state of an entry with its causes latched, and an exit that runs stopped. -/
def latched (s : State) : State := (latchCauses s).wr (.boot .EXIT_RUNNING) .h0 0

theorem chipHalf_latched (s : State) : (latched s).chipHalf = s.chipHalf := by
  simp [latched, latchCauses, State.chipHalf, State.holder]

theorem rd_latched_cause (hs : Inv s) : (latched s).rd (.boot .LOWLAND_STATUS_CAUSE) .h0 0 =
    setBits (s.rd (.boot .LOWLAND_STATUS_CAUSE) .h0 0) (s.rd (.boot .LOW_PEND) .h0 0) := by
  obtain ⟨-, -, -, hg⟩ := hs
  have hc : s.rd (.boot .LOWLAND_STATUS_CAUSE) .h0 0 < 2 ^ 4 := RegFile.get_lt hg ⟨.boot .LOWLAND_STATUS_CAUSE, .h0, 0⟩
  have hp : s.rd (.boot .LOW_PEND) .h0 0 < 2 ^ 4 := RegFile.get_lt hg ⟨.boot .LOW_PEND, .h0, 0⟩
  have hw : setBits (s.rd (.boot .LOWLAND_STATUS_CAUSE) .h0 0) (s.rd (.boot .LOW_PEND) .h0 0) < 2 ^ 4 := Nat.or_lt_two_pow hc hp
  simpa [latched, latchCauses, Fld.width, BootF.width] using Nat.mod_eq_of_lt hw

theorem lowlandEnter_latches (hp : s.rd (.boot .LOW_PEND) .h0 0 ≠ 0) (hl : s.lowland s.chipHalf = false) (hs : Inv s) :
    Gives .lowlandEnter s fun t => t.rd (.boot .LOWLAND_IN) s.chipHalf 0 = 1 ∧
      t.rd (.boot .LOWLAND_STATUS_CAUSE) .h0 0 =
        setBits (s.rd (.boot .LOWLAND_STATUS_CAUSE) .h0 0) (s.rd (.boot .LOW_PEND) .h0 0) ∧
      t.rd (.pkg .PKG_SERVICE_LOWLAND) .h0 0 = 1 := by
  have hr (t : State) (reset : Bool) : Leaves false t (lowlandRecord t reset) := .lowlandRecord (.refl t)
  obtain ⟨hin, hcause, hservice⟩ := rd_enterLowland (latched s)
  rw [chipHalf_latched] at hin
  refine ⟨_, (if_neg hp).trans (if_neg (by simp [hl])), ((hr _ _).rd rfl _ 0).trans hin, ((hr _ _).rd rfl .h0 0).trans ?_,
    ((hr _ _).rd rfl .h0 0).trans hservice⟩
  exact hcause.trans (rd_latched_cause hs)

/-! ### LOWLAND_CTL.EXIT (R124, R125) -/

theorem exitStatus_only (s : State) {st : Nat} (hst : st < 2 ^ 16) :
    Only s (exitStatus s st) [cell (.boot .LOWLAND_STATUS_LAST_STATUS) .h0 0 st] := (Only.refl s).wr_lt hst

theorem lowlandExit_without_roles (hr : s.holds h = false) :
    Sets (.lowlandExit h) s [cell (.boot .LOWLAND_STATUS_LAST_STATUS) .h0 0 ST_AUX_NO_ROLE] :=
  ⟨_, if_pos hr, exitStatus_only s (by decide)⟩

/-- What a loop that enters PRIME leaves, but its state and the runs that start anew. -/
theorem rd_thermPrime {f : Fld} (hf : workField f = false)
    (hn : f ∉ [Fld.thm .TJ_OVER, .thm .SENS_RUN, .thm .HOT_RUN, .thm .TJ_RUN, .boot .SETTLE_RUN, .boot .SETTLE_REF_V]) (g : Half) (i : Nat) :
    (thermPrime s h).rd f g i = (s.wr (.thm .THERM_STATUS_STATE) h 1).rd f g i := by
  have hm (t : State) : Leaves true t (flowMeterOn t h) := .flowMeterOn (.refl t)
  have hd (pump valve : Nat) : Leaves true (s.wr (.thm .THERM_STATUS_STATE) h 1)
      (loopDuties (s.wr (.thm .THERM_STATUS_STATE) h 1) h pump valve) := .loopDuties (.refl _)
  simp only [List.mem_cons, List.not_mem_nil, or_false, not_or] at hn
  unfold thermPrime
  dsimp only
  rw [(hm _).rd hf]
  simp only [State.rd_wr _ (.thm .TJ_OVER), State.rd_wr _ (.thm .SENS_RUN), State.rd_wr _ (.thm .HOT_RUN), State.rd_wr _ (.thm .TJ_RUN),
    State.rd_wr _ (.boot .SETTLE_RUN), State.rd_wr _ (.boot .SETTLE_REF_V), hn, false_and, if_false]
  refine (Leaves.pwmDrive (still := true) (.pwmDrive ?_)).rd hf g i
  exact .ite (.ite (hd _ _) (.pwmStart (hd _ _))) (.pwmStart (.ite (hd _ _) (.pwmStart (hd _ _))))

section
variable (hr : s.holds h = true) (hp : s.rd (.boot .LOW_PEND) .h0 0 = 0) (hl : s.lowland h = true)
  (hx : s.rd (.boot .EXIT_RUNNING) .h0 0 = 0)
include hr hp hl hx

/-- An EXIT that no cause, no exit in progress and no missing role or mode refuses is judged by the latched causes. -/
theorem execLowlandExit_of_open (hc : s.rd (.boot .LOWLAND_STATUS_CAUSE) .h0 0 = 1) :
    exec (.lowlandExit h) s = if thermMayLeave s h then .next (thermPrime ((exitStatus s ST_OK).wr (.boot .EXIT_RUNNING) .h0 1) h)
      else .next (exitStatus s ST_LOWLAND_HOLD) := by
  show execLowlandExit h s = _
  simp [execLowlandExit, hr, hp, hl, hx, chipBlocked, hc]

theorem lowlandExit_of_locked (hc : 4 ≤ s.rd (.boot .LOWLAND_STATUS_CAUSE) .h0 0) :
    Sets (.lowlandExit h) s [cell (.boot .LOWLAND_STATUS_LAST_STATUS) .h0 0 ST_LOWLAND_LOCKED] := by
  have he : exec (.lowlandExit h) s = .next (exitStatus s ST_LOWLAND_LOCKED) := by
    show execLowlandExit h s = _
    simp [execLowlandExit, hr, hp, hl, hx, chipBlocked, hc]
  exact ⟨_, he, exitStatus_only s (by decide)⟩

theorem lowlandExit_of_hot (hc : s.rd (.boot .LOWLAND_STATUS_CAUSE) .h0 0 = 1) (hm : thermMayLeave s h = false) :
    Sets (.lowlandExit h) s [cell (.boot .LOWLAND_STATUS_LAST_STATUS) .h0 0 ST_LOWLAND_HOLD] :=
  ⟨_, (execLowlandExit_of_open hr hp hl hx hc).trans (if_neg (by simp [hm])), exitStatus_only s (by decide)⟩

theorem lowlandExit_of_ready (hc : s.rd (.boot .LOWLAND_STATUS_CAUSE) .h0 0 = 1) (hm : thermMayLeave s h = true) :
    Gives (.lowlandExit h) s fun t => t.rd (.boot .LOWLAND_STATUS_LAST_STATUS) .h0 0 = ST_OK ∧ t.rd (.boot .EXIT_RUNNING) .h0 0 = 1 ∧
      t.rd (.thm .THERM_STATUS_STATE) h 0 = 1 := by
  refine ⟨_, (execLowlandExit_of_open hr hp hl hx hc).trans (if_pos hm), (rd_thermPrime rfl (by decide) .h0 0).trans ?_,
    (rd_thermPrime rfl (by decide) .h0 0).trans ?_, (rd_thermPrime rfl (by decide) h 0).trans ?_⟩
  all_goals simp [exitStatus, ST_OK, Fld.width, BootF.width, ThmF.width]

end

/-! ### PKG_SERVICE (R54, R56, R126) -/

/-- The registers that a half's management service depends on. -/
def mgmtFields : List Fld :=
  [.pkg .PKG_MAP_HUB0_OK, .pkg .PKG_MAP_HUB1_OK, .boot .FW_RUNNING, .boot .MGMT_READY, .pwr .PWR_STATUS_RAILS, .boot .SELFTEST_OK]

theorem mgmtOf_congr {t : State} (hm : ∀ f ∈ mgmtFields, ∀ g i, t.rd f g i = s.rd f g i) (k : Half) : mgmtOf t k = mgmtOf s k := by
  simp only [mgmtFields, List.mem_cons, List.not_mem_nil, or_false, forall_eq_or_imp, forall_eq] at hm
  obtain ⟨hhub0, hhub1, hfw, hready, hrails, htest⟩ := hm
  cases k <;> simp only [mgmtOf, mgmtPath, hhub0, hhub1, hfw, hready, hrails, htest]

theorem Leaves.mgmtOf_eq {still : Bool} {t : State} (hl : Leaves still s t) (k : Half) : mgmtOf t k = mgmtOf s k :=
  mgmtOf_congr (fun f hf g i => hl.rd (by revert f; decide) g i) k

/-- PKG_SERVICE reports the management service of both halves as it stands in a state. -/
def Reports (s t : State) : Prop :=
  t.rd (.pkg .PKG_SERVICE_MGMT_H0) .h0 0 = bit (mgmtOf s .h0) ∧ t.rd (.pkg .PKG_SERVICE_MGMT_H1) .h0 0 = bit (mgmtOf s .h1)

theorem serviceUpdate_reports (s : State) : Reports s (serviceUpdate s) := by
  have hb (b : Bool) : bit b ≤ 1 := Nat.le_of_lt_succ (bit_lt b)
  unfold Reports serviceUpdate lowlandCause
  dsimp only
  split <;> simp [Fld.width, PkgF.width, hb]

/-- The fields that leaving Lowland mode writes before the record and the update of service. -/
def leaveFields : List Fld :=
  [.boot .LOWLAND_IN, .thm .DISPATCH_STOP, .thm .ARR_LEVEL, .boot .LOWLAND_ENTERED, .boot .LOWLAND_STATUS_PARK,
    .boot .LOWLAND_STATUS_FUSE_ONLY, .boot .EXIT_RUNNING, .thm .PLAT_STATUS_CUR, .thm .PLAT_STATUS_TARGET, .pkg .PKG_SERVICE_LOWLAND,
    .boot .LOWLAND_STATUS_CAUSE, .boot .LOW_LEFT]

theorem leaveLowland_reports {t : State} (ht : Touches s t leaveFields) : Reports s (leaveLowland t) := by
  unfold leaveLowland
  extract_lets w clear s1 s2 s3
  have h3 : Touches s s3 leaveFields := by
    unfold s3 s2 s1 clear
    iterate 13 refine Touches.wr ?_ (by decide) _ _ _
    exact ht
  have hm (k : Half) : mgmtOf (lowlandOut s3) k = mgmtOf s k := by
    rw [(Leaves.lowlandOut (still := true) (.refl s3)).mgmtOf_eq]
    exact mgmtOf_congr (fun f hf g i => h3.rd (by revert f; decide) g i) k
  have hr := serviceUpdate_reports (lowlandOut s3)
  unfold Reports at hr ⊢
  rwa [hm, hm] at hr

/-- With an exit of its own the chip reports service again, as it did before. -/
theorem pkgServiceUpdate_reports (s : State) : Gives .pkgServiceUpdate s (Reports s) := by
  refine ⟨_, rfl, ?_⟩
  have hu := serviceUpdate_reports s
  unfold autoExit
  split_ifs
  · have hm (k : Half) : mgmtOf (serviceUpdate s) k = mgmtOf s k := (Leaves.serviceUpdate (still := true) (.refl s)).mgmtOf_eq k
    have hc : Touches (serviceUpdate s) (leaveCauses (serviceUpdate s) 2) leaveFields :=
      ((Touches.refl _ _).wr (by decide) _ _ _).wr (by decide) _ _ _
    have hr := leaveLowland_reports hc
    unfold Reports at hr ⊢
    rwa [hm, hm] at hr
  · unfold Reports at hu ⊢
    simpa using hu
  · exact hu

end

/-- Settles O19: one lemma above for each command and case. -/
theorem lowlandEntryAndExit : Obligations.LowlandEntryAndExit := by
  intro h s
  refine ⟨fun hp hl hs => lowlandEnter_latches hp hl hs, fun hr => lowlandExit_without_roles hr, fun hr hp hl hx => ⟨fun hc => ?_,
    fun hc hm => ?_, fun hc hm => ?_⟩, pkgServiceUpdate_reports s⟩
  · exact lowlandExit_of_locked hr hp hl hx hc
  · exact lowlandExit_of_hot hr hp hl hx hc hm
  · exact lowlandExit_of_ready hr hp hl hx hc hm

end Sys2Proof
end

section
/-!
What the plateau, the loop, the pins and the records that they send can write: `Within fs s t` says that, of the registers outside the host
side and telemetry, `t` differs from `s` in those of the fields `fs` only. (`Leaves` allows the same registers to every shared operation;
here each operation has the few of its own, so that the others can be read through it.)
-/

namespace Sys2Proof

open Machine

set_option Elab.async false

/-- A register of the host side or of telemetry: messages, event records, ledger records and counts write no other. -/
def noteField : Fld → Bool
  | .host _ | .tel _ => true
  | _ => false

/-- Of the registers that are not of `noteField`, `t` differs from `s` in those of the listed fields only. -/
def Within (fs : List Fld) (s t : State) : Prop := ∀ f h i, noteField f = false → f ∉ fs → t.rd f h i = s.rd f h i

section
variable {fs gs : List Fld} {s₀ s t : State} {h : Half}

theorem Within.rd (hw : Within fs s t) {f : Fld} (hn : noteField f = false := by rfl) (hf : f ∉ fs := by decide) (h : Half) (i : Nat) :
    t.rd f h i = s.rd f h i := hw f h i hn hf

/-- `Within.rd` for `simp`, whose discharger finds the field outside the list. -/
theorem Within.eq (hw : Within fs s t) {f : Fld} (hn : noteField f = false) (hf : f ∉ fs) (h : Half) (i : Nat) :
    t.rd f h i = s.rd f h i := hw f h i hn hf

theorem Within.refl (s : State) : Within fs s s := fun _ _ _ _ _ => rfl

theorem Within.trans (hs : Within fs s₀ s) (ht : Within gs s t) (hsub : ∀ f ∈ gs, f ∈ fs := by decide) : Within fs s₀ t :=
  fun f h i hn hf => (ht f h i hn fun hm => hf (hsub f hm)).trans (hs f h i hn hf)

theorem Touches.within (ht : Touches s t gs) (hsub : ∀ f ∈ gs, noteField f = true ∨ f ∈ fs := by decide) : Within fs s t :=
  fun _ h i hn hf => ht.rd (fun hm => (hsub _ hm).elim (by simp [hn]) hf) h i

theorem Within.upd (hs : Within fs s₀ s) (e : t.regs = s.regs := by rfl) : Within fs s₀ t :=
  fun f h i hn hf => (congrArg (·.get ⟨f, h, i⟩) e).trans (hs f h i hn hf)

theorem Within.emit {o : Output} (hs : Within fs s₀ s) : Within fs s₀ (s.emit o) := hs

theorem Within.wr {f : Fld} {v i : Nat} (hs : Within fs s₀ s) (hf : noteField f = true ∨ f ∈ fs := by decide) :
    Within fs s₀ (s.wr f h v i) := by
  intro g k j hn hg
  have hne : ¬ (g = f ∧ k = h ∧ j = i) := by
    rintro ⟨rfl, -⟩
    exact hf.elim (by simp [hn]) hg
  rw [State.rd_wr, if_neg hne]
  exact hs g k j hn hg

theorem Within.inc {f : Fld} {n i : Nat} (hs : Within fs s₀ s) (hf : noteField f = true ∨ f ∈ fs := by decide) :
    Within fs s₀ (s.inc f h n i) := hs.wr hf

theorem Within.ite {a b : State} {c : Prop} [Decidable c] (ha : Within fs s₀ a) (hb : Within fs s₀ b) :
    Within fs s₀ (if c then a else b) := by
  split <;> assumption

theorem Within.foldl {α : Type} {f : State → α → State} {l : List α} (hs : Within fs s₀ s)
    (hf : ∀ b a, Within fs s₀ b → Within fs s₀ (f b a)) : Within fs s₀ (l.foldl f s) :=
  List.foldlRecOn l f hs fun b hb a _ => hf b a hb

/-! ### Messages and event records -/

section
variable (hs : Within fs s₀ s)
include hs

theorem Within.bump {g k n : Nat} : Within fs s₀ (bump s h g k n) := .inc hs (.inl rfl)

theorem Within.sendMsix {fn vec : Nat} : Within fs s₀ (sendMsix s h fn vec) :=
  hs.trans (((Touches.refl s msgFields).sendMsix (fun _ x => x) h fn vec).within (fs := [])) nofun

theorem Within.raiseFunc {fn b : Nat} : Within fs s₀ (raiseFunc s h fn b) :=
  hs.trans (((Touches.refl s irqFields).raiseFunc (by decide) (by decide) h fn b).within (fs := [])) nofun

theorem Within.raiseCause {k b : Nat} (hf : (causeReg k).1 ∈ fs := by decide) : Within fs s₀ (raiseCause s k h b) :=
  .ite (.sendMsix (.wr hs (.inr hf))) (.wr hs (.inr hf))

theorem Within.loseEvent {fn : Nat} : Within fs s₀ (loseEvent s h fn) := .raiseFunc (.inc hs (.inl rfl))

theorem Within.signalRing {ring : Nat} : Within fs s₀ (signalRing s h ring) := .ite (.sendMsix (.wr hs (.inl rfl))) (.wr hs (.inl rfl))

theorem Within.moderate {ring : Nat} {now : Bool} : Within fs s₀ (moderate s h ring now) :=
  .ite (.signalRing hs) (.ite (.wr (.wr hs (.inl rfl)) (.inl rfl)) (.wr hs (.inl rfl)))

theorem Within.writeRecord {ring : Nat} {r : CqRec} {now : Bool} : Within fs s₀ (writeRecord s h ring r now) :=
  .ite (.moderate (.bump (.bump (.wr (.upd hs) (.inl rfl))))) hs

theorem Within.postEvent {fn status mt d : Nat} : Within fs s₀ (postEvent s h fn status mt d) := by
  unfold Machine.postEvent
  split
  · exact .loseEvent hs
  · exact .ite (.writeRecord hs) (.loseEvent hs)

theorem Within.platEvents {status mt : Nat} : Within fs s₀ (platEvents s h status mt) :=
  .foldl (.foldl hs fun _ _ hu => .postEvent hu) fun _ _ hu => .postEvent hu

/-! ### The ledger and the histograms -/

theorem Within.fuseEvent {k : Nat} : Within fs s₀ (fuseEvent s k) := .ite (.wr (.wr hs (.inl rfl)) (.inl rfl)) (.wr hs (.inl rfl))

theorem Within.fuseHeld : Within fs s₀ (fuseHeld s) :=
  .foldl (.wr (.foldl (.wr hs (.inl rfl)) fun _ _ hu => .fuseEvent hu) (.inl rfl)) fun _ _ hu => .fuseEvent hu

theorem Within.fuseRecord {r : LdgRec} : Within fs s₀ (fuseRecord s r) := by
  unfold Machine.fuseRecord
  cases fuseRecordCount r with
  | none => exact .ite (.fuseHeld hs) hs
  | some k => exact .ite (.fuseHeld (.fuseEvent hs)) (.fuseEvent hs)

theorem Within.pldmEvent {r : LdgRec} : Within fs s₀ (pldmEvent s h r) := .ite (.ite (.upd hs) (.upd hs)) hs

theorem Within.ldgTake {r : LdgRec} : Within fs s₀ (ldgTake s h r) := .pldmEvent (.fuseRecord (.wr (.upd hs) (.inl rfl)))

theorem Within.ldgDrop {mt : Nat} : Within fs s₀ (ldgDrop s h mt) :=
  .wr (.ite (.wr (.inc hs (.inl rfl)) (.inl rfl)) (.inc hs (.inl rfl))) (.inl rfl)

theorem Within.ledger {type : Nat} {data : List Byte} : Within fs s₀ (ledger s h type data) :=
  .ite (.ldgDrop hs) (.ite (.ldgTake hs) (.upd hs))

theorem Within.histSample {src party : Nat} {v : Int} : Within fs s₀ (histSample s h src party v) :=
  .foldl hs fun b k hb => .ite (hb.trans (((Touches.refl b histFields).histAdd (fun _ x => x) h k v).within (fs := [])) nofun) hb

end

/-! ### The half with the roles (R537) -/

theorem Within.holder_eq (hw : Within fs s t) (hf : Fld.flt .MC_STATUS_LATCH ∉ fs := by decide) : t.holder = s.holder := by
  unfold State.holder
  rw [hw.rd rfl hf, hw.rd rfl hf]

theorem chipHalf_of_holder (hh : s.holder = some h) : s.chipHalf = h := by simp [State.chipHalf, hh]

theorem holds_of_holder (hh : s.holder = some h) : s.holds h = true := by simp [State.holds, hh]

/-! ### THERM_EVENT (R588) -/

/-- Raising causes of THERM_EVENT sets its bits, and writes no register outside the host side and telemetry besides. -/
theorem rd_raiseTherm (s : State) (h : Half) (b : Nat) {f : Fld} (hf : noteField f = false) (k : Half) (i : Nat) :
    (raiseCause s 2 h b).rd f k i =
      if f = .thm .THERM_EVENT ∧ k = h ∧ i = 0 then setBits (s.rd (.thm .THERM_EVENT) h 0) b % 2 ^ 10 else s.rd f k i := by
  have hr : Within [] (s.wr (.thm .THERM_EVENT) h (setBits (s.rd (.thm .THERM_EVENT) h 0) b)) (raiseCause s 2 h b) :=
    Within.ite (.sendMsix (.refl _)) (.refl _)
  rw [hr.rd hf (List.not_mem_nil), State.rd_wr]
  rfl

theorem testBit_setBits_mod {w b : Nat} (x : Nat) {m : Nat} (hb : b < w) (hm : m.testBit b = true) :
    (setBits x m % 2 ^ w).testBit b = true := by
  simp [setBits, Nat.testBit_mod_two_pow, hb, hm]

/-- A cause just raised is set. -/
theorem testBit_raiseTherm (s : State) (h : Half) {b m : Nat} (hb : b < 10) (hm : m.testBit b = true) :
    ((raiseCause s 2 h m).rd (.thm .THERM_EVENT) h 0).testBit b = true := by
  rw [rd_raiseTherm s h m rfl, if_pos ⟨rfl, rfl, rfl⟩]
  exact testBit_setBits_mod _ hb hm

end
end Sys2Proof
end

section
/-!
Plateau changes: O9.
-/

namespace Sys2Proof

open Machine

set_option Elab.async false

/-! ### What the steps of a change write (R62, R65) -/

section
variable {fs : List Fld} {s₀ s : State} {h : Half} (hs : Within fs s₀ s)
include hs

/-- The registers of a half's copy of the notice. -/
def copyFields : List Fld := [.thm .PLAT_NOTE, .thm .PLAT_NOTE_S, .thm .PLAT_PLL, .thm .PLAT_ACC]

/-- The registers that forgetting a copy of the notice writes. -/
def forgetFields : List Fld := [.thm .PLAT_NOTE, .thm .PLAT_PLL, .thm .DISPATCH_STOP]

/-- The registers of a change that the half with the roles records, and of its cause. -/
def changeFields : List Fld :=
  [.thm .PLAT_SWITCH_TIME, .thm .PLAT_STATUS_TARGET, .thm .PLAT_STATUS_PENDING, .thm .PLAT_STATUS_SOURCE, .thm .PLAT_STATUS_LAST_STATUS,
    .thm .THERM_EVENT]

theorem Within.dispatchResume (hf : Fld.thm .DISPATCH_STOP ∈ fs := by decide) : Within fs s₀ (dispatchResume s h) :=
  .ite (.wr (.upd hs) (.inr hf)) hs

theorem Within.platForget (hf : ∀ f ∈ forgetFields, f ∈ fs := by decide) : Within fs s₀ (platForget s h) := by
  have hc := (hs.wr (f := .thm .PLAT_NOTE) (h := h) (v := 0) (i := 0) (.inr (hf _ (by decide)))).wr (f := .thm .PLAT_PLL) (h := h) (v := 0)
    (i := 0) (.inr (hf _ (by decide)))
  exact .ite (.dispatchResume hc (hf _ (by decide))) hc

end

section
variable {s : State} {h g : Half} {n target : Nat}

theorem within_platNotice (s : State) (h : Half) (target at_ acc : Nat) : Within copyFields s (platNotice s h target at_ acc) :=
  .wr (.wr (.wr (.wr (.refl s))))

/-- The registers of a change just accepted, before its notices. -/
def accepted (s : State) (h : Half) (target noticeNs : Nat) (byLoop : Bool) : State :=
  (((s.wr (.thm .PLAT_SWITCH_TIME) h (s.mt h + noticeNs)).wr (.thm .PLAT_STATUS_TARGET) h target).wr (.thm .PLAT_STATUS_PENDING) h 1).wr
    (.thm .PLAT_STATUS_SOURCE) h (bit byLoop)

/-- The notices of a change write the copies, the status and the cause. -/
theorem within_platAccept_accepted (s : State) (h : Half) (target ns : Nat) (byLoop : Bool) :
    Within (.thm .PLAT_STATUS_LAST_STATUS :: .thm .THERM_EVENT :: copyFields) (accepted s h target ns byLoop)
      (platAccept s h target ns byLoop) := by
  have hn : Within (.thm .PLAT_STATUS_LAST_STATUS :: .thm .THERM_EVENT :: copyFields) (accepted s h target ns byLoop)
      (platNotice (accepted s h target ns byLoop) h target (s.mt h + ns) (s.mt h)) :=
    (Within.refl _).trans (within_platNotice _ _ _ _ _)
  exact .platEvents (.raiseCause (.wr (.ite (.emit (hn.trans (within_platNotice _ _ _ _ _))) hn)))

theorem within_platAccept (s : State) (h : Half) (target ns : Nat) (byLoop : Bool) :
    Within (changeFields ++ copyFields) s (platAccept s h target ns byLoop) :=
  Within.trans (.wr (.wr (.wr (.wr (.refl s))))) (within_platAccept_accepted s h target ns byLoop)

theorem rd_platAccept (s : State) (h : Half) (target ns : Nat) (byLoop : Bool) :
    (platAccept s h target ns byLoop).rd (.thm .PLAT_STATUS_PENDING) h 0 = 1 ∧
      (platAccept s h target ns byLoop).rd (.thm .PLAT_STATUS_TARGET) h 0 = target % 2 ^ 2 ∧
      (platAccept s h target ns byLoop).rd (.thm .PLAT_STATUS_SOURCE) h 0 = bit byLoop ∧
      (platAccept s h target ns byLoop).rd (.thm .PLAT_SWITCH_TIME) h 0 = (s.mt h + ns) % 2 ^ 64 := by
  have ha := within_platAccept_accepted s h target ns byLoop
  have hb : bit byLoop % 2 = bit byLoop := Nat.mod_eq_of_lt (bit_lt byLoop)
  simp (disch := decide) only [ha.eq]
  simp [accepted, Fld.width, ThmF.width, hb]

theorem rd_platAccept_status (s : State) (h : Half) (target ns : Nat) (byLoop : Bool) :
    (platAccept s h target ns byLoop).rd (.thm .PLAT_STATUS_LAST_STATUS) h 0 = ST_PLATEAU_CHANGE := by
  have hn (t : State) (k : Half) (st : Nat) (at_ : Nat) :
      Within [.thm .THERM_EVENT] (platStatus t k st) (platEvents (raiseCause (platStatus t k st) 2 k 1) k st at_) :=
    .platEvents (.raiseCause (.refl _))
  unfold platAccept
  dsimp only
  rw [(hn _ _ _ _).rd]
  simp [platStatus, Fld.width, ThmF.width, ST_PLATEAU_CHANGE]

/-! ### PLAT_REQUEST (Table 2.4) -/

theorem platRequest_without_roles (hr : s.holds h = false) : Sets (.platRequest h n target) s [] := sets_of_next (if_neg (by simp [hr]))

theorem platRequest_bad_notice (hr : s.holds h = true) (hn : n < 2 ∨ 100 < n) :
    Sets (.platRequest h n target) s [cell (.thm .PLAT_STATUS_LAST_STATUS) h 0 ST_PLATEAU_RANGE] := by
  have he : exec (.platRequest h n target) s = .next (platStatus s h ST_PLATEAU_RANGE) := by
    show execPlatRequest h n target s = _
    unfold execPlatRequest platRefusal
    rw [if_pos hr, if_pos hn, if_pos hn]
  exact ⟨_, he, (Only.refl s).wr_lt (by decide)⟩

section
variable (hlo : 2 ≤ n) (hhi : n ≤ 100)
include hlo hhi

theorem platRefusal_lowland (hl : s.lowland h = true) : platRefusal s h n target = some ST_LOWLAND :=
  (if_neg (by omega)).trans (if_pos hl)

/-- The refusals that are left to a request with a good notice outside Lowland mode. -/
theorem platRefusal_of_notice (hl : s.lowland h = false) : platRefusal s h n target =
    if target = 3 then some ST_PLATEAU_RANGE
    else if s.rd (.thm .PLAT_STATUS_PENDING) h 0 = 1 then some ST_PLATEAU_BUSY
    else if target = s.rd (.thm .PLAT_STATUS_CUR) h 0 then some ST_OK
    else if target < 2 ∧ s.rd (.thm .THERM_STATUS_STATE) h 0 ≠ 2 then some ST_THERM_NOT_RUN
    else if s.rd (.boot .COMPUTE_READY_DONE) .h0 0 = 0 then some ST_ID_RANGE
    else none := (if_neg (by omega)).trans (if_neg (by simp [hl]))

end

section
variable (hr : s.holds h = true) (ht : target < 4) (hlo : 2 ≤ n) (hhi : n ≤ 100)
include hr ht hlo hhi

theorem execPlatRequest_of_some {status : Nat} (hp : platRefusal s h n target = some status) : exec (.platRequest h n target) s =
    .next (platStatus ((s.wr (.thm .PLAT_CTL_NOTICE_MS) h n).wr (.thm .PLAT_CTL_TARGET) h target) h status) := by
  show execPlatRequest h n target s = _
  unfold execPlatRequest
  rw [if_pos hr, Nat.mod_eq_of_lt ht, if_neg (by omega), hp]

theorem execPlatRequest_of_none (hp : platRefusal s h n target = none) : exec (.platRequest h n target) s =
    .next (platAccept ((s.wr (.thm .PLAT_CTL_NOTICE_MS) h n).wr (.thm .PLAT_CTL_TARGET) h target) h target (n * 1000000) false) := by
  show execPlatRequest h n target s = _
  unfold execPlatRequest
  rw [if_pos hr, Nat.mod_eq_of_lt ht, if_neg (by omega), hp]

theorem platRequest_refused {status : Nat} (hp : platRefusal s h n target = some status) (hst : status < 2 ^ 16) :
    Sets (.platRequest h n target) s [cell (.thm .PLAT_STATUS_LAST_STATUS) h 0 status, cell (.thm .PLAT_CTL_NOTICE_MS) h 0 n,
      cell (.thm .PLAT_CTL_TARGET) h 0 target] := by
  have hn : n < 2 ^ (Fld.thm .PLAT_CTL_NOTICE_MS).width := show n < 2 ^ 8 by omega
  have ho := (((Only.refl s).wr_lt (h := h) (i := 0) hn).wr_lt (f := .thm .PLAT_CTL_TARGET) (h := h) (i := 0) ht).wr_lt
    (f := .thm .PLAT_STATUS_LAST_STATUS) (h := h) (i := 0) hst
  exact ⟨_, execPlatRequest_of_some hr ht hlo hhi hp, ho.perm (.cons _ (.swap ..)) (by simp)⟩

theorem platRequest_accepted (hp : platRefusal s h n target = none) : Gives (.platRequest h n target) s fun t =>
    t.rd (.thm .PLAT_STATUS_PENDING) h 0 = 1 ∧ t.rd (.thm .PLAT_STATUS_TARGET) h 0 = target ∧
      t.rd (.thm .PLAT_STATUS_SOURCE) h 0 = 0 ∧ t.rd (.thm .PLAT_SWITCH_TIME) h 0 = (s.mt h + n * 1000000) % 2 ^ 64 ∧
      t.rd (.thm .PLAT_STATUS_LAST_STATUS) h 0 = ST_PLATEAU_CHANGE := by
  refine ⟨_, execPlatRequest_of_none hr ht hlo hhi hp, ?_⟩
  obtain ⟨hpend, htarget, hsource, htime⟩ := rd_platAccept ((s.wr (.thm .PLAT_CTL_NOTICE_MS) h n).wr (.thm .PLAT_CTL_TARGET) h target) h
    target (n * 1000000) false
  exact ⟨hpend, htarget.trans (Nat.mod_eq_of_lt ht), hsource, by simpa [State.mt] using htime, rd_platAccept_status _ _ _ _ _⟩

end

/-! ### PLL locks and the instant S (R62) -/

theorem platPllLocked_noted (die : Fin 8) (hn : platNoted s (Half.ofNum (die.val / 4)) = true) :
    Sets (.platPllLocked die) s [cell (.thm .PLAT_PLL) (Half.ofNum (die.val / 4)) 0
      (setBits (s.rd (.thm .PLAT_PLL) (Half.ofNum (die.val / 4)) 0) (2 ^ die.val) % 2 ^ 8)] :=
  ⟨_, if_pos hn, (Only.refl s).wr ..⟩

theorem platSwitchTime_early (hs : ∀ k, s.mt k < s.rd (.thm .PLAT_NOTE_S) k 0 ∨ s.rd (.thm .DISPATCH_STOP) k 0 ≠ 0) :
    Sets .platSwitchTime s [] := by
  have hno (k : Half) : ¬ (platNoted s k = true ∧ s.rd (.thm .PLAT_NOTE_S) k 0 ≤ s.mt k ∧ s.rd (.thm .DISPATCH_STOP) k 0 = 0) := by
    rintro ⟨-, hle, hstop⟩
    exact (hs k).elim (by omega) (· hstop)
  refine sets_of_next ?_
  show execPlatSwitchTime s = _
  unfold execPlatSwitchTime
  dsimp only
  rw [if_neg (hno .h0), if_neg (hno .h1)]

theorem platSwitchTime_due (hn : ∀ k, platNoted s k = true)
    (hs : ∀ k, s.rd (.thm .PLAT_NOTE_S) k 0 ≤ s.mt k ∧ s.rd (.thm .DISPATCH_STOP) k 0 = 0) (hi : Inv s) :
    Sets .platSwitchTime s [cell (.thm .DISPATCH_STOP) .h0 0 1, cell (.thm .STOP_MT) .h0 0 (s.mt .h0),
      cell (.thm .DISPATCH_STOP) .h1 0 1, cell (.thm .STOP_MT) .h1 0 (s.mt .h1)] := by
  have hmt (k : Half) : s.mt k < 2 ^ (Fld.thm .STOP_MT).width := registersWithinWidth s (.tim .MT) k 0 hi
  have he : exec .platSwitchTime s = .next (((((s.wr (.thm .DISPATCH_STOP) .h0 1).wr (.thm .STOP_MT) .h0 (s.mt .h0)).wr
      (.thm .DISPATCH_STOP) .h1 1)).wr (.thm .STOP_MT) .h1 (s.mt .h1)) := by
    show execPlatSwitchTime s = _
    unfold execPlatSwitchTime
    dsimp only
    rw [if_pos ⟨hn .h1, hs .h1⟩, if_pos ⟨hn .h0, hs .h0⟩]
    simp [dispatchStop, State.mt]
  have ho := ((((Only.refl s).wr_lt (f := .thm .DISPATCH_STOP) (h := .h0) (i := 0) (v := 1) (by decide)).wr_lt
    (h := .h0) (i := 0) (hmt .h0)).wr_lt (f := .thm .DISPATCH_STOP) (h := .h1) (i := 0) (v := 1) (by decide)).wr_lt (h := .h1) (i := 0) (hmt .h1)
  exact ⟨_, he, ho.perm (List.reverse_perm _).symm (by simp)⟩

/-! ### The arrays switch (R62) -/

/-- A half that was stopped dispatches again; its contexts' times are in no register. -/
theorem rd_dispatchResume (hd : s.rd (.thm .DISPATCH_STOP) g 0 = 1) (f : Fld) (k : Half) (i : Nat) :
    (dispatchResume s g).rd f k i = (s.wr (.thm .DISPATCH_STOP) g 0).rd f k i := by
  unfold dispatchResume
  rw [if_pos hd]
  rfl

/-- The half with the roles records the change once its arrays switch. -/
theorem within_platSwitch (s : State) (g : Half) :
    Within [.thm .PLAT_STATUS_CUR, .thm .PLAT_STATUS_TARGET, .thm .PLAT_STATUS_PENDING, .thm .PLAT_STATUS_SOURCE, .thm .THERM_EVENT]
      (dispatchResume ((s.wr (.thm .ARR_LEVEL) g (s.rd (.thm .PLAT_NOTE) g 0 - 1)).wr (.thm .PLAT_NOTE) g 0) g) (platSwitch s g) :=
  .ite (.raiseCause (.wr (.bump (.ledger (.wr (.wr (.wr (.refl _)))))))) (.refl _)

/-- The registers of the arrays after the switch of a half that was stopped. -/
theorem rd_platSwitch_arrays (hd : s.rd (.thm .DISPATCH_STOP) g 0 = 1) (k : Half) :
    (platSwitch s g).rd (.thm .DISPATCH_STOP) k 0 = (if k = g then 0 else s.rd (.thm .DISPATCH_STOP) k 0) ∧
      (platSwitch s g).rd (.thm .PLAT_NOTE) k 0 = (if k = g then 0 else s.rd (.thm .PLAT_NOTE) k 0) ∧
      (platSwitch s g).rd (.thm .ARR_LEVEL) k 0 =
        if k = g then (s.rd (.thm .PLAT_NOTE) g 0 - 1) % 2 ^ 2 else s.rd (.thm .ARR_LEVEL) k 0 := by
  simp (disch := decide) only [(within_platSwitch s g).eq]
  have hd' : ((s.wr (.thm .ARR_LEVEL) g (s.rd (.thm .PLAT_NOTE) g 0 - 1)).wr (.thm .PLAT_NOTE) g 0).rd (.thm .DISPATCH_STOP) g 0 = 1 := by
    simp [hd]
  simp only [rd_dispatchResume hd']
  simp [Fld.width, ThmF.width]

/-- The record of the change, after the switch of either half. -/
theorem rd_platSwitch_record (hh : s.holder = some h) :
    (platSwitch s g).rd (.thm .PLAT_STATUS_PENDING) h 0 = (if g = h then 0 else s.rd (.thm .PLAT_STATUS_PENDING) h 0) ∧
      (platSwitch s g).rd (.thm .PLAT_STATUS_CUR) h 0 =
        if g = h then (s.rd (.thm .PLAT_NOTE) h 0 - 1) % 2 ^ 2 else s.rd (.thm .PLAT_STATUS_CUR) h 0 := by
  have hd (t : State) : Within [.thm .DISPATCH_STOP] t (dispatchResume t g) := .dispatchResume (.refl t)
  by_cases hg : g = h
  · subst hg
    have hl (t : State) (d : List Byte) : Within [] t (bump (ledger t g 7 d) g 4 7 1) := .bump (.ledger (.refl t))
    simp (disch := decide) [platSwitch, State.holds, hh, rd_raiseTherm, (hl _ _).eq, Fld.width, ThmF.width]
  · have hno : s.holds g = false := by simp [State.holds, hh, Ne.symm hg]
    simp (disch := decide) [platSwitch, hno, hg, (hd _).eq]

theorem platDrainDone_not_due (hs : ∀ k, platDrained s k = false ∨ platPllsLocked s k = false) : Sets .platDrainDone s [] := by
  have hno (k : Half) : platDue s k = false := by
    rcases hs k with hd | hl
    · simp [platDue, hd]
    · simp [platDue, hl]
  refine sets_of_next ?_
  show execPlatDrainDone s = _
  simp [execPlatDrainDone, hno]

theorem platDrainDone_due {target : Nat} (hh : s.holder = some h) (hn : ∀ k, s.rd (.thm .PLAT_NOTE) k 0 = target + 1) (ht : target < 4)
    (hs : ∀ k, s.rd (.thm .DISPATCH_STOP) k 0 = 1 ∧ platDrained s k = true ∧ platPllsLocked s k = true) :
    Gives .platDrainDone s fun t => t.rd (.thm .PLAT_STATUS_PENDING) h 0 = 0 ∧ t.rd (.thm .PLAT_STATUS_CUR) h 0 = target ∧
      ∀ k, t.rd (.thm .DISPATCH_STOP) k 0 = 0 ∧ t.rd (.thm .ARR_LEVEL) k 0 = target := by
  have hdue (k : Half) : platDue s k = true := by
    obtain ⟨hstop, hdrain, hlock⟩ := hs k
    simp [platDue, platNoted, hn, hstop, hdrain, hlock]
  have he : exec .platDrainDone s = .next (platSwitch (platSwitch s .h0) .h1) := by
    show execPlatDrainDone s = _
    simp [execPlatDrainDone, hdue, Half.other]
  have h1 := rd_platSwitch_arrays (s := s) (g := .h0) (hs .h0).1
  have hd2 : (platSwitch s .h0).rd (.thm .DISPATCH_STOP) .h1 0 = 1 := by simp [(h1 .h1).1, (hs .h1).1]
  have h2 := rd_platSwitch_arrays hd2
  have hh1 : (platSwitch s .h0).holder = some h := by
    have hd : Within [.thm .DISPATCH_STOP, .thm .ARR_LEVEL, .thm .PLAT_NOTE] s (dispatchResume
        ((s.wr (.thm .ARR_LEVEL) .h0 (s.rd (.thm .PLAT_NOTE) .h0 0 - 1)).wr (.thm .PLAT_NOTE) .h0 0) .h0) :=
      .dispatchResume (.wr (.wr (.refl s)))
    rw [(within_platSwitch s .h0).holder_eq, hd.holder_eq, hh]
  obtain ⟨hp1, hc1⟩ := rd_platSwitch_record (g := .h0) hh
  obtain ⟨hp2, hc2⟩ := rd_platSwitch_record (g := .h1) hh1
  refine ⟨_, he, ?_, ?_, fun k => ?_⟩
  · cases h <;> simp [hp1, hp2]
  · cases h <;> simp [hc1, hc2, (h1 _).2.1, hn, ht]
  · cases k <;> simp [h1, h2, hn, ht]

/-! ### A change withdrawn (R65) -/

theorem rd_platForget_note (s : State) (g k : Half) :
    (platForget s g).rd (.thm .PLAT_NOTE) k 0 = if k = g then 0 else s.rd (.thm .PLAT_NOTE) k 0 := by
  have hw : Within [.thm .DISPATCH_STOP] ((s.wr (.thm .PLAT_NOTE) g 0).wr (.thm .PLAT_PLL) g 0) (platForget s g) :=
    .ite (.dispatchResume (.refl _)) (.refl _)
  rw [hw.rd]
  simp

/-- The registers that a withdrawal writes besides the cause that it raises. -/
def withdrawFields : List Fld :=
  [.thm .PLAT_STATUS_PENDING, .thm .PLAT_STATUS_TARGET, .thm .PLAT_STATUS_SOURCE] ++ forgetFields

theorem within_platWithdraw_raised (hp : s.rd (.thm .PLAT_STATUS_PENDING) h 0 = 1) :
    Within withdrawFields (raiseCause s 2 h 4) (platWithdraw s h) := by
  unfold platWithdraw
  rw [if_pos hp]
  extract_lets s1 s2 s3
  have hs3 : Within withdrawFields (raiseCause s 2 h 4) s3 := .platForget (.wr (.wr (.wr (.platEvents (.refl _)))))
  exact .ite (.platForget hs3) hs3

theorem within_platWithdraw (s : State) (h : Half) : Within (.thm .THERM_EVENT :: withdrawFields) s (platWithdraw s h) := by
  by_cases hp : s.rd (.thm .PLAT_STATUS_PENDING) h 0 = 1
  · exact .trans (.raiseCause (.refl s)) (within_platWithdraw_raised hp)
  · have he : platWithdraw s h = s := if_neg hp
    rw [he]
    exact .refl s

theorem rd_platWithdraw (hp : s.rd (.thm .PLAT_STATUS_PENDING) h 0 = 1) (hc : s.rd (.thm .PLAT_STATUS_CUR) h 0 < 4) :
    (platWithdraw s h).rd (.thm .PLAT_STATUS_PENDING) h 0 = 0 ∧
      (platWithdraw s h).rd (.thm .PLAT_STATUS_TARGET) h 0 = s.rd (.thm .PLAT_STATUS_CUR) h 0 ∧
      (platWithdraw s h).rd (.thm .PLAT_NOTE) h 0 = 0 ∧
      (s.lanesUp = true → (platWithdraw s h).rd (.thm .PLAT_NOTE) h.other 0 = 0) := by
  have hcur : s.rd (.thm .PLAT_STATUS_CUR) h 0 % 4 = s.rd (.thm .PLAT_STATUS_CUR) h 0 := Nat.mod_eq_of_lt hc
  unfold platWithdraw
  rw [if_pos hp]
  extract_lets +onlyGivenNames s1 s2 s3
  have hw : Within forgetFields s2 (if s.lanesUp then platForget s3 h.other else s3) :=
    .ite (.platForget (.platForget (.refl s2))) (.platForget (.refl s2))
  have hnote : s3.rd (.thm .PLAT_NOTE) h 0 = 0 := by simp [s3, rd_platForget_note]
  refine ⟨?_, ?_, ?_, fun hl => ?_⟩
  · rw [hw.rd]
    simp [s2]
  · rw [hw.rd]
    simp [s2, Fld.width, ThmF.width, hcur]
  · split
    · simp [rd_platForget_note, hnote]
    · exact hnote
  · rw [if_pos hl]
    simp [rd_platForget_note]

theorem platPllTimeout_late (hh : s.holder = some h) (hp : s.rd (.thm .PLAT_STATUS_PENDING) h 0 = 1) (hl : platLate s h = true)
    (hc : s.rd (.thm .PLAT_STATUS_CUR) h 0 < 4) : Gives .platPllTimeout s fun t => t.rd (.thm .PLAT_STATUS_PENDING) h 0 = 0 ∧
      t.rd (.thm .PLAT_STATUS_TARGET) h 0 = s.rd (.thm .PLAT_STATUS_CUR) h 0 ∧
      t.rd (.thm .PLAT_STATUS_LAST_STATUS) h 0 = ST_PLL_LOCK ∧ t.rd (.thm .PLAT_NOTE) h 0 = 0 := by
  let u := platStatus (platWithdraw s h) h ST_PLL_LOCK
  have he : exec .platPllTimeout s = .next (if platLate u h.other then platForget u h.other else u) := by
    show execPlatPllTimeout s = _
    simp [execPlatPllTimeout, chipHalf_of_holder hh, hp, hl, u]
  have hw : Within forgetFields u (if platLate u h.other then platForget u h.other else u) := .ite (.platForget (.refl u)) (.refl u)
  have hs : Within [.thm .PLAT_STATUS_LAST_STATUS] (platWithdraw s h) u := .wr (.refl _)
  obtain ⟨hpend, htarget, hnote, -⟩ := rd_platWithdraw hp hc
  refine ⟨_, he, ?_, ?_, ?_, ?_⟩
  · rw [hw.rd, hs.rd, hpend]
  · rw [hw.rd, hs.rd, htarget]
  · rw [hw.rd]
    simp [u, platStatus, Fld.width, ThmF.width, ST_PLL_LOCK]
  · have hu : u.rd (.thm .PLAT_NOTE) h 0 = 0 := by rw [hs.rd, hnote]
    split
    · simp [rd_platForget_note, hu]
    · exact hu

theorem platCancel_in_time (hh : s.holder = some h) (hp : s.rd (.thm .PLAT_STATUS_PENDING) h 0 = 1)
    (hsrc : s.rd (.thm .PLAT_STATUS_SOURCE) h 0 = 0) (ht : s.mt h < s.rd (.thm .PLAT_SWITCH_TIME) h 0)
    (hd : s.rd (.thm .DISPATCH_STOP) h 0 = 0) (hc : s.rd (.thm .PLAT_STATUS_CUR) h 0 < 4) :
    Gives (.platCancel h) s fun t => t.rd (.thm .PLAT_STATUS_PENDING) h 0 = 0 ∧
      t.rd (.thm .PLAT_STATUS_TARGET) h 0 = s.rd (.thm .PLAT_STATUS_CUR) h 0 ∧ t.rd (.thm .PLAT_STATUS_LAST_STATUS) h 0 = ST_OK ∧
      (s.lanesUp = true → ∀ k, t.rd (.thm .PLAT_NOTE) k 0 = 0) := by
  have he : exec (.platCancel h) s = .next (platStatus (platWithdraw s h) h ST_OK) := by
    show execPlatCancel h s = _
    simp [execPlatCancel, holds_of_holder hh, hp, hsrc, ht, hd]
  have hs : Within [.thm .PLAT_STATUS_LAST_STATUS] (platWithdraw s h) (platStatus (platWithdraw s h) h ST_OK) := .wr (.refl _)
  obtain ⟨hpend, htarget, hnote, hother⟩ := rd_platWithdraw hp hc
  refine ⟨_, he, by rw [hs.rd, hpend], by rw [hs.rd, htarget], by simp [platStatus, Fld.width, ThmF.width, ST_OK], fun hl k => ?_⟩
  rw [hs.rd]
  by_cases hk : k = h
  · rw [hk, hnote]
  · have hko : k = h.other := by cases k <;> cases h <;> simp_all [Half.other]
    rw [hko, hother hl]

theorem platCancel_of_loop (hh : s.holder = some h) (hsrc : s.rd (.thm .PLAT_STATUS_SOURCE) h 0 ≠ 0) :
    Sets (.platCancel h) s [cell (.thm .PLAT_STATUS_LAST_STATUS) h 0 ST_PLATEAU_BUSY] := by
  have he : exec (.platCancel h) s = .next (platStatus s h ST_PLATEAU_BUSY) := by
    show execPlatCancel h s = _
    simp [execPlatCancel, holds_of_holder hh, hsrc]
  exact ⟨_, he, (Only.refl s).wr_lt (by decide)⟩

end

/-- Settles O9: one lemma above for each command and case. -/
theorem plateauChanges : Obligations.PlateauChanges := by
  refine ⟨fun h n target s => ?_, fun h s hh hp hn => ?_⟩
  · refine ⟨platRequest_without_roles, fun hr ht => ⟨platRequest_bad_notice hr, fun hlo hhi => ⟨fun hl => ?_, fun hl => ⟨fun h3 => ?_,
      fun h3 hb => ?_, fun h3 hb => ⟨fun hc => ?_, fun hc h2 hs => ?_, fun hc hs h0 => ?_, fun hc hs h0 => ?_⟩⟩⟩⟩⟩
    · exact platRequest_refused hr ht hlo hhi (platRefusal_lowland hlo hhi hl) (by decide)
    all_goals have hp := platRefusal_of_notice (target := target) hlo hhi hl
    · exact platRequest_refused hr ht hlo hhi (hp.trans (if_pos h3)) (by decide)
    · exact platRequest_refused hr ht hlo hhi (hp.trans ((if_neg h3).trans (if_pos hb))) (by decide)
    all_goals replace hp := hp.trans ((if_neg h3).trans (if_neg hb))
    · exact platRequest_refused hr ht hlo hhi (hp.trans (if_pos hc)) (by decide)
    · exact platRequest_refused hr ht hlo hhi (hp.trans ((if_neg hc).trans (if_pos ⟨h2, hs⟩))) (by decide)
    all_goals replace hp := hp.trans ((if_neg hc).trans (if_neg (by omega)))
    · exact platRequest_refused hr ht hlo hhi (hp.trans (if_pos h0)) (by decide)
    · exact platRequest_accepted hr ht hlo hhi (hp.trans (if_neg h0))
  · have hnoted (k : Half) : platNoted s k = true := by simp [platNoted, hn k]
    exact ⟨fun die => platPllLocked_noted die (hnoted _), platSwitchTime_early, platSwitchTime_due hnoted, platDrainDone_not_due,
      fun hs ht => platDrainDone_due hh hn ht hs, platPllTimeout_late hh hp, platCancel_in_time hh hp, platCancel_of_loop hh⟩

end Sys2Proof
end

section
/-!
PWM channels: O11 and O12; and the claims of pins, which O13 uses too.
-/

namespace Sys2Proof

open Machine

set_option Elab.async false

section
variable {fs : List Fld} {l : List CellVal} {s₀ s t : State} {h : Half} {n p : Nat}

/-- Writes that follow a state with no write before them are listed last to first. -/
theorem reverse_append_nil_perm (l : List CellVal) : (l.reverse ++ []).Perm l := by
  rw [List.append_nil]
  exact List.reverse_perm l

/-! ### Pins and their claims (R88, R89) -/

/-- The owners of the claimable pins. -/
def ownerFields : List Fld := [.thm .AUX_OWNER_PWM2, .thm .AUX_OWNER_PWM3, .thm .AUX_OWNER_FB2B]

/-- The registers that record the outcome of a claim. -/
def outcomeFields : List Fld :=
  [.thm .AUX_CLAIM_STATUS_LAST_STATUS, .thm .AUX_CLAIM_STATUS_PIN, .thm .AUX_CLAIM_STATUS_HOLDER, .thm .AUX_CLAIM_STATUS_REQUESTER]

theorem pinOwner_mem (p : Nat) : pinOwner p ∈ ownerFields := by
  unfold pinOwner
  split_ifs <;> decide

theorem width_of_ownerFields : ∀ f ∈ ownerFields, f.width = 4 ∧ noteField f = false := by decide

theorem pinOwner_width (p : Nat) : (pinOwner p).width = 4 := (width_of_ownerFields _ (pinOwner_mem p)).1

theorem owner_lt (hi : Inv s) (p : Nat) (h : Half) : s.rd (pinOwner p) h 0 < 2 ^ 4 := by
  simpa [pinOwner_width] using registersWithinWidth s (pinOwner p) h 0 hi

theorem rd_wr_pinOwner_self (s : State) (h : Half) (p : Nat) {v : Nat} (hv : v < 2 ^ 4) :
    (s.wr (pinOwner p) h v 0).rd (pinOwner p) h 0 = v := by
  rw [State.rd_wr_self, pinOwner_width, Nat.mod_eq_of_lt hv]

theorem Within.rd_owner (hw : Within fs s t) (p : Nat) (h : Half) (hd : ∀ f ∈ ownerFields, f ∉ fs := by decide) :
    t.rd (pinOwner p) h 0 = s.rd (pinOwner p) h 0 :=
  hw.rd (width_of_ownerFields _ (pinOwner_mem p)).2 (hd _ (pinOwner_mem p)) h 0

theorem Within.wr_owner {v : Nat} (hs : Within fs s₀ s) (hd : ∀ f ∈ ownerFields, f ∈ fs := by decide) :
    Within fs s₀ (s.wr (pinOwner p) h v 0) := hs.wr (.inr (hd _ (pinOwner_mem p)))

theorem Within.drivePin {pin : AuxPin} {level : Nat} (hs : Within fs s₀ s) (hd : Fld.thm .AUX_LEVEL ∈ fs := by decide) :
    Within fs s₀ (drivePin s h pin level) := .ite (.wr hs (.inr hd)) (.emit (.wr hs (.inr hd)))

theorem Within.pwmDrive (hs : Within fs s₀ s) (hd : Fld.thm .AUX_LEVEL ∈ fs := by decide) : Within fs s₀ (pwmDrive s h n) :=
  .ite (.drivePin hs hd) hs

theorem within_pinOutcome (s : State) (h : Half) (status pin holder requester : Nat) :
    Within outcomeFields s (pinOutcome s h status pin holder requester) := .wr (.wr (.wr (.wr (.refl s))))

/-- The cells of AUX_CLAIM_STATUS. -/
def claimCells (h : Half) (status pin holder requester : Nat) : List CellVal :=
  [cell (.thm .AUX_CLAIM_STATUS_LAST_STATUS) h 0 status, cell (.thm .AUX_CLAIM_STATUS_PIN) h 0 pin,
    cell (.thm .AUX_CLAIM_STATUS_HOLDER) h 0 holder, cell (.thm .AUX_CLAIM_STATUS_REQUESTER) h 0 requester]

theorem Only.pinOutcome {status pin holder requester : Nat} (ho : Only s₀ s l) (hst : status < 2 ^ 16) (hp : pin < 2 ^ 4)
    (hh : holder < 2 ^ 4) (hr : requester < 2 ^ 4) :
    Only s₀ (pinOutcome s h status pin holder requester) ((claimCells h status pin holder requester).reverse ++ l) :=
  (((ho.wr_lt (f := .thm .AUX_CLAIM_STATUS_LAST_STATUS) hst).wr_lt (f := .thm .AUX_CLAIM_STATUS_PIN) hp).wr_lt
    (f := .thm .AUX_CLAIM_STATUS_HOLDER) hh).wr_lt (f := .thm .AUX_CLAIM_STATUS_REQUESTER) hr

/-- A claim refused for want of the roles is recorded. -/
theorem pinNoRole_only {pin requester : Nat} (hp : pin < 2 ^ 4) (hr : requester < 2 ^ 4) :
    Only s (pinNoRole s h pin requester) (claimCells h ST_AUX_NO_ROLE pin 0 requester) :=
  ((Only.refl s).pinOutcome (by decide) hp (by decide) hr).perm (reverse_append_nil_perm _) (by simp [claimCells, cell])

theorem pinClaimStatus_of_free (hf : s.rd (pinOwner p) h 0 = 0) : pinClaimStatus s h p = ST_OK := if_pos hf

theorem pinClaimStatus_of_held (hf : s.rd (pinOwner p) h 0 ≠ 0) : pinClaimStatus s h p ≠ ST_OK := by
  rw [pinClaimStatus, if_neg hf]
  decide

theorem claimPin_of_held {r : Nat} (hf : s.rd (pinOwner p) h 0 ≠ 0) :
    claimPin s h p r = pinOutcome s h ST_CONFLICT p (s.rd (pinOwner p) h 0) r := if_neg hf

theorem within_claimPin (s : State) (h : Half) (p r : Nat) : Within (ownerFields ++ outcomeFields) s (claimPin s h p r) :=
  .ite ((Within.wr_owner (.refl s)).trans (within_pinOutcome _ _ _ _ _ _)) ((Within.refl s).trans (within_pinOutcome _ _ _ _ _ _))

theorem rd_claimPin_owner {r : Nat} (hf : s.rd (pinOwner p) h 0 = 0) (hr : r < 2 ^ 4) :
    (claimPin s h p r).rd (pinOwner p) h 0 = r := by
  unfold claimPin
  rw [if_pos hf, (within_pinOutcome _ _ _ _ _ _).rd_owner]
  exact rd_wr_pinOwner_self s h p hr

theorem within_releasePin (s : State) (h : Half) (p : Nat) : Within [.thm .AUX_LEVEL] (s.wr (pinOwner p) h 0) (releasePin s h p) :=
  .drivePin (.refl _)

theorem rd_releasePin_owner (s : State) (h : Half) (p : Nat) : (releasePin s h p).rd (pinOwner p) h 0 = 0 := by
  rw [(within_releasePin s h p).rd_owner, rd_wr_pinOwner_self s h p (by decide)]

theorem Within.releasePin (hs : Within fs s₀ s) (hd : ∀ f ∈ Fld.thm .AUX_LEVEL :: ownerFields, f ∈ fs := by decide) :
    Within fs s₀ (releasePin s h p) :=
  hs.trans (Within.trans (Within.wr_owner (.refl s)) (within_releasePin s h p)) hd

/-! ### Writes of a channel by the operator (R66, R75) -/

section
variable {u : State}

theorem pwmWrite_of_open (hr : s.holds h = true) (ho : pwmOwned s h n = false) : pwmWrite s h n u = .next u :=
  (if_pos hr).trans (if_neg (by simp [ho]))

theorem pwmWrite_of_owned (hr : s.holds h = true) (ho : pwmOwned s h n = true) :
    pwmWrite s h n u = .next (s.wr (.thm .PWM_STATUS_LAST_STATUS) h ST_PWM_OWNED n) := (if_pos hr).trans (if_pos ho)

theorem pwmWrite_without_roles (hr : s.holds h = false) : pwmWrite s h n u = .next s := if_neg (by simp [hr])

end

/-! ### Shadows and UPDATE (R78 to R80) -/

/-- What a shadow write does to an armed transfer, and that it leaves the value written. -/
theorem rd_pwmShadow_armed (hp : s.rd (.thm .PWM_STATUS_UPD_PEND) h n = 1) (r : PwmReg) (v : Nat) :
    (pwmShadow s h n r v).rd (.thm .PWM_STATUS_UPD_PEND) h n = 0 ∧ (pwmShadow s h n r v).rd (.thm .PWM_STATUS_DISARMED) h n = 1 ∧
      ((pwmShadow s h n r v).rd (.thm .THERM_EVENT) h 0).testBit 9 = true ∧
      (pwmShadow s h n r v).rd (match r with
        | .period => .thm .PWM_PERIOD
        | .duty => .thm .PWM_DUTY) h n = v % 2 ^ 18 := by
  unfold pwmShadow
  dsimp only
  rw [if_pos hp]
  refine ⟨?_, ?_, testBit_raiseTherm _ h (by decide) (by decide), ?_⟩
  · simp (disch := decide) [rd_raiseTherm]
  · simp (disch := decide) [rd_raiseTherm, Fld.width, ThmF.width]
  · cases r
    · simp (disch := decide) [rd_raiseTherm, Fld.width, ThmF.width]
    · simp (disch := decide) [rd_raiseTherm, Fld.width, ThmF.width]

theorem pwmArm_of_armed (hp : s.rd (.thm .PWM_STATUS_UPD_PEND) h n = 1) : pwmArm s h n = s := if_pos hp

theorem pwmPeriodOk_iff (p : Nat) : pwmPeriodOk p = true ↔ 2500 ≤ p ∧ p ≤ 250000 := by simp [pwmPeriodOk]

section
variable (hp : s.rd (.thm .PWM_STATUS_UPD_PEND) h n ≠ 1)
include hp

theorem pwmArm_of_good (hg : pwmPeriodOk (s.rd (.thm .PWM_PERIOD) h n) = true) : Only s (pwmArm s h n)
    [cell (.thm .PWM_STATUS_UPD_PEND) h n 1, cell (.thm .PWM_STATUS_LAST_STATUS) h n ST_OK,
      cell (.thm .PWM_SKIP) h n (bit (pwmAtReload s h n))] := by
  have ho := (((Only.refl s).wr_lt (f := .thm .PWM_STATUS_LAST_STATUS) (h := h) (i := n) (v := ST_OK) (by decide)).wr_lt
    (f := .thm .PWM_STATUS_UPD_PEND) (h := h) (i := n) (v := 1) (by decide)).wr_lt (f := .thm .PWM_SKIP) (h := h) (i := n)
    (bit_lt (pwmAtReload s h n))
  unfold pwmArm
  rw [if_neg hp, if_pos hg]
  exact ho.perm ((List.perm_append_singleton _ [_, _]).symm) (by simp)

theorem pwmArm_of_bad (hg : ¬ pwmPeriodOk (s.rd (.thm .PWM_PERIOD) h n) = true) :
    Only s (pwmArm s h n) [cell (.thm .PWM_STATUS_LAST_STATUS) h n ST_PWM_RANGE] := by
  unfold pwmArm
  rw [if_neg hp, if_neg hg]
  exact (Only.refl s).wr_lt (by decide)

end

/-! ### Reload (R76, R78) -/

theorem pwmReload_running {n : Fin 4} (hen : s.rd (.thm .PWM_CTL_EN) h n.val = 1)
    (hc : s.rd (.thm .PWM_ACT_PERIOD) h n.val ≤ pwmCount s h n.val) : exec (.pwmReload h n) s =
      let s1 := s.wr (.thm .PWM_T0) h (s.rd (.thm .PWM_T0) h n.val + 4 * s.rd (.thm .PWM_ACT_PERIOD) h n.val) n.val
      if s.rd (.thm .PWM_SKIP) h n.val = 1 then .next (s1.wr (.thm .PWM_SKIP) h 0 n.val)
      else if s.rd (.thm .PWM_STATUS_UPD_PEND) h n.val = 1 then .next (pwmDrive (pwmTransfer s1 h n.val) h n.val)
      else .next s1 := if_pos ⟨hen, hc⟩

/-- The registers that moving the shadows writes. -/
def transferFields : List Fld := [.thm .PWM_ACT_PERIOD, .thm .PWM_ACT_DUTY, .thm .PWM_STATUS_UPD_PEND, .thm .PWM_SKIP]

theorem within_pwmTransfer (s : State) (h : Half) (n : Nat) : Within transferFields s (pwmTransfer s h n) :=
  .wr (.wr (.wr (.wr (.refl s))))

section
variable (hi : Inv s)
include hi

theorem shadow_lt (h : Half) (n : Nat) : s.rd (.thm .PWM_PERIOD) h n < 2 ^ 18 ∧ s.rd (.thm .PWM_DUTY) h n < 2 ^ 18 :=
  ⟨registersWithinWidth s (.thm .PWM_PERIOD) h n hi, registersWithinWidth s (.thm .PWM_DUTY) h n hi⟩

theorem mt_lt (h : Half) : s.mt h < 2 ^ 64 := registersWithinWidth s (.tim .MT) h 0 hi

end

theorem rd_pwmTransfer (hp : s.rd (.thm .PWM_PERIOD) h n < 2 ^ 18) (hd : s.rd (.thm .PWM_DUTY) h n < 2 ^ 18) :
    (pwmTransfer s h n).rd (.thm .PWM_ACT_PERIOD) h n = s.rd (.thm .PWM_PERIOD) h n ∧
      (pwmTransfer s h n).rd (.thm .PWM_ACT_DUTY) h n = s.rd (.thm .PWM_DUTY) h n ∧
      (pwmTransfer s h n).rd (.thm .PWM_STATUS_UPD_PEND) h n = 0 := by
  simp only [Nat.reducePow] at hp hd
  simp [pwmTransfer, Fld.width, ThmF.width, hp, hd]

theorem touches_pwmTransfer {fs : List Fld} (ht : Touches s₀ s fs) (hf : ∀ f ∈ transferFields, f ∈ fs) :
    Touches s₀ (pwmTransfer s h n) fs :=
  (((ht.wr (hf _ (by decide)) _ _ _).wr (hf _ (by decide)) _ _ _).wr (hf _ (by decide)) _ _ _).wr (hf _ (by decide)) _ _ _

theorem Touches.pwmDrive {fs : List Fld} (ht : Touches s₀ s fs) (hf : Fld.thm .AUX_LEVEL ∈ fs) : Touches s₀ (pwmDrive s h n) fs :=
  .ite (ht.drivePin hf _ _ _) ht

theorem pwmReload_transfers {n : Fin 4} (hen : s.rd (.thm .PWM_CTL_EN) h n.val = 1)
    (hc : s.rd (.thm .PWM_ACT_PERIOD) h n.val ≤ pwmCount s h n.val) (hk : s.rd (.thm .PWM_SKIP) h n.val ≠ 1)
    (hp : s.rd (.thm .PWM_STATUS_UPD_PEND) h n.val = 1) (hi : Inv s) : Gives (.pwmReload h n) s fun t =>
      t.rd (.thm .PWM_ACT_PERIOD) h n.val = s.rd (.thm .PWM_PERIOD) h n.val ∧
      t.rd (.thm .PWM_ACT_DUTY) h n.val = s.rd (.thm .PWM_DUTY) h n.val ∧ t.rd (.thm .PWM_STATUS_UPD_PEND) h n.val = 0 ∧
      Touches s t [.thm .PWM_ACT_PERIOD, .thm .PWM_ACT_DUTY, .thm .PWM_STATUS_UPD_PEND, .thm .PWM_SKIP, .thm .PWM_T0,
        .thm .AUX_LEVEL] := by
  obtain ⟨hperiod, hduty⟩ := shadow_lt hi h n.val
  let s1 := s.wr (.thm .PWM_T0) h (s.rd (.thm .PWM_T0) h n.val + 4 * s.rd (.thm .PWM_ACT_PERIOD) h n.val) n.val
  have hs1 : Within [.thm .PWM_T0] s s1 := .wr (.refl s)
  have hw : Within [.thm .AUX_LEVEL] (pwmTransfer s1 h n.val) (pwmDrive (pwmTransfer s1 h n.val) h n.val) := .pwmDrive (.refl _)
  obtain ⟨htp, htd, htu⟩ := rd_pwmTransfer (s := s1) (h := h) (n := n.val) (by rwa [hs1.rd]) (by rwa [hs1.rd])
  refine ⟨_, (pwmReload_running hen hc).trans ((if_neg hk).trans (if_pos hp)), ?_, ?_, ?_, ?_⟩
  · rw [hw.rd, htp, hs1.rd]
  · rw [hw.rd, htd, hs1.rd]
  · rw [hw.rd, htu]
  · exact (touches_pwmTransfer ((Touches.refl s _).wr (by decide) _ _ _) (by decide)).pwmDrive (by decide)

/-! ### EN (R80, R88) -/

theorem within_pwmStart (s : State) (h : Half) (n : Nat) :
    Within (.thm .PWM_T0 :: .thm .PWM_CTL_EN :: .thm .PWM_STATUS_LAST_STATUS :: transferFields) s (pwmStart s h n) :=
  .ite (.wr (.wr (.wr ((Within.refl s).trans (within_pwmTransfer s h n))))) (.wr (.refl s))

theorem rd_pwmStart_good (hg : pwmPeriodOk (s.rd (.thm .PWM_PERIOD) h n) = true) (hp : s.rd (.thm .PWM_PERIOD) h n < 2 ^ 18)
    (hd : s.rd (.thm .PWM_DUTY) h n < 2 ^ 18) (hm : s.mt h < 2 ^ 64) :
    (pwmStart s h n).rd (.thm .PWM_CTL_EN) h n = 1 ∧ (pwmStart s h n).rd (.thm .PWM_T0) h n = s.mt h ∧
      (pwmStart s h n).rd (.thm .PWM_ACT_PERIOD) h n = s.rd (.thm .PWM_PERIOD) h n ∧
      (pwmStart s h n).rd (.thm .PWM_ACT_DUTY) h n = s.rd (.thm .PWM_DUTY) h n := by
  obtain ⟨htp, htd, -⟩ := rd_pwmTransfer hp hd
  unfold pwmStart
  rw [if_pos hg]
  simp only [Nat.reducePow] at hm
  simp [Fld.width, ThmF.width, htp, htd, hm]

theorem pwmStart_bad (hg : ¬ pwmPeriodOk (s.rd (.thm .PWM_PERIOD) h n) = true) :
    pwmStart s h n = s.wr (.thm .PWM_STATUS_LAST_STATUS) h ST_PWM_RANGE n := if_neg hg

section
variable {n : Fin 4} (hr : s.holds h = true) (hen : s.rd (.thm .PWM_CTL_EN) h n.val ≠ 1)
include hr hen

theorem execPwmEnable_fixed (ho : pwmOwned s h n.val = false) (h2 : n.val < 2) :
    exec (.pwmEnable h n) s = .next (pwmDrive (pwmStart s h n.val) h n.val) :=
  (if_pos hr).trans <| (if_neg hen).trans <| (if_pos h2).trans (pwmWrite_of_open hr ho)

theorem execPwmEnable_claimed (h2 : 2 ≤ n.val) : exec (.pwmEnable h n) s = .next (pwmEnableClaim s h n.val) :=
  (if_pos hr).trans <| (if_neg hen).trans (if_neg (by omega))

theorem pwmEnable_fixed_good (ho : pwmOwned s h n.val = false) (h2 : n.val < 2) (hi : Inv s)
    (hg : pwmPeriodOk (s.rd (.thm .PWM_PERIOD) h n.val) = true) : Gives (.pwmEnable h n) s fun t =>
      t.rd (.thm .PWM_CTL_EN) h n.val = 1 ∧ t.rd (.thm .PWM_T0) h n.val = s.mt h ∧
      t.rd (.thm .PWM_ACT_PERIOD) h n.val = s.rd (.thm .PWM_PERIOD) h n.val ∧
      t.rd (.thm .PWM_ACT_DUTY) h n.val = s.rd (.thm .PWM_DUTY) h n.val := by
  obtain ⟨hperiod, hduty⟩ := shadow_lt hi h n.val
  have hw : Within [.thm .AUX_LEVEL] (pwmStart s h n.val) (pwmDrive (pwmStart s h n.val) h n.val) := .pwmDrive (.refl _)
  obtain ⟨hon, ht0, hap, had⟩ := rd_pwmStart_good hg hperiod hduty (mt_lt hi h)
  exact ⟨_, execPwmEnable_fixed hr hen ho h2, by rw [hw.rd, hon], by rw [hw.rd, ht0], by rw [hw.rd, hap], by rw [hw.rd, had]⟩

theorem pwmEnable_fixed_bad (ho : pwmOwned s h n.val = false) (h2 : n.val < 2)
    (hg : ¬ pwmPeriodOk (s.rd (.thm .PWM_PERIOD) h n.val) = true) : Gives (.pwmEnable h n) s fun t =>
      t.rd (.thm .PWM_CTL_EN) h n.val = s.rd (.thm .PWM_CTL_EN) h n.val ∧
      t.rd (.thm .PWM_STATUS_LAST_STATUS) h n.val = ST_PWM_RANGE := by
  have hw : Within [.thm .AUX_LEVEL] (pwmStart s h n.val) (pwmDrive (pwmStart s h n.val) h n.val) := .pwmDrive (.refl _)
  refine ⟨_, execPwmEnable_fixed hr hen ho h2, ?_, ?_⟩
  · rw [hw.rd, pwmStart_bad hg]
    simp
  · rw [hw.rd, pwmStart_bad hg]
    simp [Fld.width, ThmF.width, ST_PWM_RANGE]

theorem pwmEnable_claim_good (h2 : 2 ≤ n.val) (hi : Inv s) (hf : s.rd (pinOwner (n.val - 2)) h 0 = 0)
    (hg : pwmPeriodOk (s.rd (.thm .PWM_PERIOD) h n.val) = true) : Gives (.pwmEnable h n) s fun t =>
      t.rd (.thm .PWM_CTL_EN) h n.val = 1 ∧ t.rd (pinOwner (n.val - 2)) h 0 = 1 ∧
      t.rd (.thm .PWM_ACT_PERIOD) h n.val = s.rd (.thm .PWM_PERIOD) h n.val := by
  obtain ⟨hperiod, hduty⟩ := shadow_lt hi h n.val
  let s1 := claimPin s h (n.val - 2) 1
  have hs1 : Within (ownerFields ++ outcomeFields) s s1 := within_claimPin s h _ 1
  have hmt : s1.mt h = s.mt h := hs1.rd (f := .tim .MT) rfl (by decide) h 0
  obtain ⟨hon, -, hap, -⟩ := rd_pwmStart_good (s := s1) (h := h) (n := n.val) (by rwa [hs1.rd]) (by rwa [hs1.rd]) (by rwa [hs1.rd])
    (by rw [hmt]; exact mt_lt hi h)
  have he : pwmEnableClaim s h n.val = pwmDrive (pwmStart s1 h n.val) h n.val :=
    (if_pos (pinClaimStatus_of_free hf)).trans (if_pos hon)
  have hw : Within [.thm .AUX_LEVEL] (pwmStart s1 h n.val) (pwmDrive (pwmStart s1 h n.val) h n.val) := .pwmDrive (.refl _)
  refine ⟨_, (execPwmEnable_claimed hr hen h2).trans (congrArg _ he), ?_, ?_, ?_⟩
  · rw [hw.rd, hon]
  · rw [hw.rd_owner, (within_pwmStart _ _ _).rd_owner]
    exact rd_claimPin_owner hf (by decide)
  · rw [hw.rd, hap, hs1.rd]

theorem pwmEnable_claim_bad (h2 : 2 ≤ n.val) (hf : s.rd (pinOwner (n.val - 2)) h 0 = 0)
    (hg : ¬ pwmPeriodOk (s.rd (.thm .PWM_PERIOD) h n.val) = true) : Gives (.pwmEnable h n) s fun t =>
      t.rd (.thm .PWM_CTL_EN) h n.val = s.rd (.thm .PWM_CTL_EN) h n.val ∧ t.rd (pinOwner (n.val - 2)) h 0 = 0 ∧
      t.rd (.thm .PWM_STATUS_LAST_STATUS) h n.val = ST_PWM_RANGE := by
  let s1 := claimPin s h (n.val - 2) 1
  have hs1 : Within (ownerFields ++ outcomeFields) s s1 := within_claimPin s h _ 1
  have hbad : pwmStart s1 h n.val = s1.wr (.thm .PWM_STATUS_LAST_STATUS) h ST_PWM_RANGE n.val := pwmStart_bad (by rwa [hs1.rd])
  have hoff : (pwmStart s1 h n.val).rd (.thm .PWM_CTL_EN) h n.val = s.rd (.thm .PWM_CTL_EN) h n.val := by
    rw [hbad]
    simpa using hs1.rd (f := .thm .PWM_CTL_EN) rfl (by decide) h n.val
  have he : pwmEnableClaim s h n.val = releasePin (pwmStart s1 h n.val) h (n.val - 2) :=
    (if_pos (pinClaimStatus_of_free hf)).trans (if_neg (by rw [hoff]; exact hen))
  have hw : Within (.thm .AUX_LEVEL :: ownerFields) (pwmStart s1 h n.val) (releasePin (pwmStart s1 h n.val) h (n.val - 2)) :=
    .releasePin (.refl _)
  refine ⟨_, (execPwmEnable_claimed hr hen h2).trans (congrArg _ he), ?_, rd_releasePin_owner _ _ _, ?_⟩
  · rw [hw.rd, hoff]
  · rw [hw.rd, hbad]
    simp [Fld.width, ThmF.width, ST_PWM_RANGE]

theorem pwmEnable_conflict (h2 : 2 ≤ n.val) (hi : Inv s) (hf : s.rd (pinOwner (n.val - 2)) h 0 ≠ 0) :
    Sets (.pwmEnable h n) s (cell (.thm .PWM_STATUS_LAST_STATUS) h n.val ST_CONFLICT ::
      claimCells h ST_CONFLICT (n.val - 2) (s.rd (pinOwner (n.val - 2)) h 0) 1) := by
  have he : pwmEnableClaim s h n.val = (pinOutcome s h ST_CONFLICT (n.val - 2) (s.rd (pinOwner (n.val - 2)) h 0) 1).wr
      (.thm .PWM_STATUS_LAST_STATUS) h ST_CONFLICT n.val := by
    unfold pwmEnableClaim
    rw [if_neg (pinClaimStatus_of_held hf), claimPin_of_held hf]
  have ho := ((Only.refl s).pinOutcome (h := h) (status := ST_CONFLICT) (pin := n.val - 2) (requester := 1) (by decide) (by omega)
    (owner_lt hi (n.val - 2) h) (by decide)).wr_lt (f := .thm .PWM_STATUS_LAST_STATUS) (h := h) (i := n.val) (v := ST_CONFLICT)
    (by decide)
  exact ⟨_, (execPwmEnable_claimed hr hen h2).trans (congrArg _ he),
    ho.perm (.cons _ (reverse_append_nil_perm _)) (by simp [claimCells, cell])⟩

end

theorem pwmDisable_running {n : Fin 4} (hr : s.holds h = true) (ho : pwmOwned s h n.val = false)
    (hen : s.rd (.thm .PWM_CTL_EN) h n.val = 1) : Gives (.pwmDisable h n) s fun t =>
      t.rd (.thm .PWM_CTL_EN) h n.val = 0 ∧ t.rd (.thm .PWM_STATUS_UPD_PEND) h n.val = 0 := by
  have he : exec (.pwmDisable h n) s = .next (pwmStop s h n.val) :=
    (pwmWrite_of_open hr ho).trans (by rw [if_pos hen])
  let s1 := (((s.wr (.thm .PWM_CTL_EN) h 0 n.val).wr (.thm .PWM_STATUS_UPD_PEND) h 0 n.val).wr (.thm .PWM_SKIP) h 0 n.val).wr
    (.thm .PWM_STATUS_LAST_STATUS) h ST_OK n.val
  have hw : Within (.thm .AUX_LEVEL :: ownerFields) s1 (pwmStop s h n.val) := .ite (.pwmDrive (.refl s1)) (.releasePin (.refl s1))
  refine ⟨_, he, ?_, ?_⟩
  · rw [hw.rd]
    simp [s1]
  · rw [hw.rd]
    simp [s1]

end

/-- Settles O11: a shadow write meets the armed transfer, and UPDATE finds it armed. -/
theorem pwmShadowWriteDisarms : Obligations.PwmShadowWriteDisarms := by
  intro h n s hr ho hp
  refine ⟨fun r v => ⟨_, pwmWrite_of_open hr ho, rd_pwmShadow_armed hp r v⟩, sets_of_next ?_⟩
  exact (pwmWrite_of_open hr ho).trans (congrArg _ (pwmArm_of_armed hp))

/-- Settles O12: one lemma above for each command and case. -/
theorem pwmUpdateAndReload : Obligations.PwmUpdateAndReload := by
  refine ⟨fun h n s hr ho hi => ?_, fun h n s hr h2 hst v r => ?_, fun h n s hr v r => ⟨?_, fun h2 => ?_, fun h2 => ?_⟩⟩
  · refine ⟨fun hp => ⟨fun hg => ?_, fun hg => ?_⟩, fun hen => ?_, fun hen hc => ⟨fun hk => ?_, fun hk hp => ?_, fun hk hp => ?_⟩,
      fun h2 hen => ⟨fun hg => ?_, fun hg => ?_⟩, fun h2 hen => ⟨fun hf hg => ?_, fun hf hg => ?_, fun hf => ?_⟩, fun hen => ?_,
      fun hen => ?_, fun hen => ?_⟩
    · exact ⟨_, pwmWrite_of_open hr ho, pwmArm_of_good hp ((pwmPeriodOk_iff _).mpr hg)⟩
    · exact ⟨_, pwmWrite_of_open hr ho, pwmArm_of_bad hp ((pwmPeriodOk_iff _).not.mpr hg)⟩
    · refine sets_of_next (if_neg fun hrun => ?_)
      exact hen.elim (· hrun.1) fun hlt => Nat.not_le.mpr hlt hrun.2
    · exact ⟨_, (pwmReload_running hen hc).trans (if_pos hk), (((Only.refl s).wr _ _ _ _).wr_lt (by decide)).perm (.swap ..) (by simp)⟩
    · exact ⟨_, (pwmReload_running hen hc).trans ((if_neg hk).trans (if_neg hp)), (Only.refl s).wr _ _ _ _⟩
    · exact pwmReload_transfers hen hc hk hp hi
    · exact pwmEnable_fixed_good hr hen ho h2 hi ((pwmPeriodOk_iff _).mpr hg)
    · exact pwmEnable_fixed_bad hr hen ho h2 ((pwmPeriodOk_iff _).not.mpr hg)
    · exact pwmEnable_claim_good hr hen h2 hi hf ((pwmPeriodOk_iff _).mpr hg)
    · exact pwmEnable_claim_bad hr hen h2 hf ((pwmPeriodOk_iff _).not.mpr hg)
    · exact pwmEnable_conflict hr hen h2 hi hf
    · exact sets_of_next ((if_pos hr).trans ((if_pos hen).trans (pwmWrite_of_open hr ho)))
    · exact sets_of_next ((pwmWrite_of_open hr ho).trans (by rw [if_neg hen]))
    · exact pwmDisable_running hr ho hen
  · have howned : pwmOwned s h n.val = true := by simpa [pwmOwned, h2, or_assoc] using hst
    have hset (c : Instr) (u : State) (he : exec c s = pwmWrite s h n.val u) :
        Sets c s [cell (.thm .PWM_STATUS_LAST_STATUS) h n.val ST_PWM_OWNED] :=
      ⟨_, he.trans (pwmWrite_of_owned hr howned), (Only.refl s).wr_lt (by decide)⟩
    simp only [List.mem_cons, List.not_mem_nil, or_false, forall_eq_or_imp, forall_eq]
    refine ⟨hset _ _ rfl, ?_, hset _ _ rfl, hset _ _ rfl⟩
    by_cases hen : s.rd (.thm .PWM_CTL_EN) h n.val = 1
    · exact hset _ _ ((if_pos hr).trans (if_pos hen))
    · exact hset _ _ ((if_pos hr).trans ((if_neg hen).trans (if_pos h2)))
  · have hset (c : Instr) (u : State) (he : exec c s = pwmWrite s h n.val u) : Sets c s [] :=
      sets_of_next (he.trans (pwmWrite_without_roles hr))
    simp only [List.mem_cons, List.not_mem_nil, or_false, forall_eq_or_imp, forall_eq]
    exact ⟨hset _ _ rfl, hset _ _ rfl, hset _ _ rfl⟩
  · exact sets_of_next ((if_neg (by simp [hr])).trans (if_pos h2))
  · exact ⟨_, (if_neg (by simp [hr])).trans (if_neg (by omega)), pinNoRole_only (by omega) (by decide)⟩

end Sys2Proof
end

section
/-!
Trigger outputs and feedback inputs: O13.
-/

namespace Sys2Proof

open Machine

set_option Elab.async false

section
variable {s : State} {h : Half}

theorem thermStatus_only {st : Nat} (hst : st < 2 ^ 16) :
    Only s (thermStatus s h st) [cell (.thm .THERM_STATUS_LAST_STATUS) h 0 st] := (Only.refl s).wr_lt hst

/-! ### The comparators of the triggers (R470, R471) -/

/-- The registers that arming or disarming a comparator writes. -/
def armFields : List Fld :=
  [.tim .CMP_STATUS_ARMED, .tim .CMP_TARGET, .tim .CMP_STATUS_LAST, .tim .CMP_STATUS_SKIPPED, .tim .TIME_EVT]

theorem Within.skipCmp {fs : List Fld} {s₀ : State} {c n : Nat} (hs : Within fs s₀ s) (hf : ∀ f ∈ armFields, f ∈ fs := by decide) :
    Within fs s₀ (skipCmp s h c n) :=
  .ite hs (.raiseCause (.inc hs (.inr (hf _ (by decide)))) (hf _ (by decide)))

theorem within_armTrig (s : State) (h : Half) (k : Nat) (timed : Bool) : Within armFields s (armTrig s h k timed) :=
  .ite (.ite (.wr (.wr (.refl s))) (.ite (.skipCmp (.wr (.wr (.refl s)))) (.skipCmp (.wr (.wr (.wr (.refl s))))))) (.wr (.refl s))

theorem trigCmp_congr {fs : List Fld} {s₀ : State} (hs : Within fs s₀ s) (n : Nat)
    (hf : ∀ f ∈ [Fld.tim .TIME_TRIG_CMP_TRIG0, .tim .TIME_TRIG_CMP_TRIG1], f ∉ fs := by decide) : trigCmp s h n = trigCmp s₀ h n := by
  unfold trigCmp
  split
  · exact hs.rd rfl (hf _ (by decide)) h 0
  · exact hs.rd rfl (hf _ (by decide)) h 0

/-- The registers that record a claim of a comparator. -/
def cmpOutcomeFields : List Fld :=
  [.tim .CMP_CLAIM_STATUS_LAST_STATUS, .tim .CMP_CLAIM_STATUS_INDEX, .tim .CMP_CLAIM_STATUS_HOLDER, .tim .CMP_CLAIM_STATUS_REQUESTER]

theorem within_cmpOutcome (s : State) (h : Half) (status index holder requester : Nat) :
    Within cmpOutcomeFields s (cmpOutcome s h status index holder requester) := .wr (.wr (.wr (.wr (.refl s))))

theorem cmpClaimStatus_of_free {c : Nat} (hf : s.rd (.tim .CMP_STATUS_HOLDER) h c = 0) : cmpClaimStatus s h c = ST_OK := if_pos hf

theorem claimCmp_of_free {c r : Nat} (hf : s.rd (.tim .CMP_STATUS_HOLDER) h c = 0) :
    claimCmp s h c r = cmpOutcome (s.wr (.tim .CMP_STATUS_HOLDER) h r c) h ST_OK c 0 0 := if_pos hf

/-! ### Trigger outputs (R81, R88) -/

theorem trigPin_lt (k : Nat) : trigPin k < 2 ^ 4 := by
  unfold trigPin
  split <;> decide

section
variable {k : Fin 2}

/-- The cells of a trigger's fields. -/
def trigCells (h : Half) (k : Nat) (timed : Bool) (ch width at_ : Nat) : List CellVal :=
  [cell (.thm .TRIG_CFG_MODE) h k (bit timed), cell (.thm .TRIG_CFG_CH) h k ch, cell (.thm .TRIG_CFG_WIDTH) h k width,
    cell (.thm .TRIG_CFG_AT) h k (at_ % 2 ^ 18)]

theorem trigFields_only {n ch width : Nat} (s : State) (h : Half) (timed : Bool) (at_ : Nat) (hc : ch < 4) (hw : width < 1024) :
    Only s (trigFields s h n timed ch width at_) (trigCells h n timed ch width at_).reverse :=
  ((((Only.refl s).wr_lt (f := .thm .TRIG_CFG_MODE) (bit_lt timed)).wr_lt (f := .thm .TRIG_CFG_CH) hc).wr_lt
    (f := .thm .TRIG_CFG_WIDTH) hw).wr (.thm .TRIG_CFG_AT) h at_ n

theorem within_trigFields (s : State) (h : Half) (n : Nat) (timed : Bool) (ch width at_ : Nat) :
    Within [.thm .TRIG_CFG_MODE, .thm .TRIG_CFG_CH, .thm .TRIG_CFG_WIDTH, .thm .TRIG_CFG_AT] s (trigFields s h n timed ch width at_) :=
  .wr (.wr (.wr (.wr (.refl s))))

theorem trigConfigWrite_without_roles (hr : s.holds h = false) (timed : Bool) (ch : Fin 4) (width at_ : Nat) :
    Sets (.trigConfigWrite h k false timed ch width at_) s [] ∧
      Sets (.trigConfigWrite h k true timed ch width at_) s (claimCells h ST_AUX_NO_ROLE (trigPin k.val) 0 3) :=
  ⟨sets_of_next ((if_neg (by simp [hr])).trans (if_neg (by decide))),
    ⟨_, (if_neg (by simp [hr])).trans (if_pos rfl), pinNoRole_only (trigPin_lt k.val) (by decide)⟩⟩

theorem trigConfigWrite_no_width (hr : s.holds h = true) (en timed : Bool) (ch : Fin 4) (at_ : Nat) :
    Sets (.trigConfigWrite h k en timed ch 0 at_) s [cell (.thm .THERM_STATUS_LAST_STATUS) h 0 ST_PWM_RANGE] :=
  ⟨_, (if_pos hr).trans (if_pos rfl), thermStatus_only (by decide)⟩

section
variable {timed : Bool} {ch : Fin 4} {width at_ : Nat} (hr : s.holds h = true) (h0 : 0 < width) (hw : width < 1024)
  (hoff : s.rd (.thm .TRIG_CFG_EN) h k.val ≠ 1)
include hr h0 hw hoff

/-- A trigger that is off: its fields are written, and it is enabled where EN asks for it. -/
theorem execTrigConfigWrite_of_off (en : Bool) : exec (.trigConfigWrite h k en timed ch width at_) s =
    .next (if en then trigEnable (trigFields s h k.val timed ch.val width at_) h k.val timed
      else thermStatus (trigFields s h k.val timed ch.val width at_) h ST_OK) := by
  have hnz : ¬ width % 1024 = 0 := by omega
  exact (if_pos hr).trans ((if_neg hnz).trans (congrArg _ (if_neg hoff)))

theorem trigConfigWrite_fields : Sets (.trigConfigWrite h k false timed ch width at_) s
    (cell (.thm .THERM_STATUS_LAST_STATUS) h 0 ST_OK :: trigCells h k.val timed ch.val width at_) := by
  have ho := (trigFields_only (n := k.val) s h timed at_ ch.isLt hw).wr_lt (f := .thm .THERM_STATUS_LAST_STATUS) (h := h) (i := 0)
    (v := ST_OK) (by decide)
  exact ⟨_, execTrigConfigWrite_of_off hr h0 hw hoff false, ho.perm (.cons _ (List.reverse_perm _)) (by simp [trigCells, cell])⟩

theorem trigConfigWrite_conflict (hf : s.rd (pinOwner (trigPin k.val)) h 0 ≠ 0) (hi : Inv s) :
    Sets (.trigConfigWrite h k true timed ch width at_) s
      (cell (.thm .THERM_STATUS_LAST_STATUS) h 0 ST_CONFLICT ::
        claimCells h ST_CONFLICT (trigPin k.val) (s.rd (pinOwner (trigPin k.val)) h 0) 3 ++
        trigCells h k.val timed ch.val width at_) := by
  let s1 := trigFields s h k.val timed ch.val width at_
  have hs1 : Within _ s s1 := within_trigFields s h k.val timed ch.val width at_
  have hown : s1.rd (pinOwner (trigPin k.val)) h 0 = s.rd (pinOwner (trigPin k.val)) h 0 := hs1.rd_owner _ h
  have hf1 : s1.rd (pinOwner (trigPin k.val)) h 0 ≠ 0 := hown ▸ hf
  have he : trigEnable s1 h k.val timed =
      thermStatus (pinOutcome s1 h ST_CONFLICT (trigPin k.val) (s.rd (pinOwner (trigPin k.val)) h 0) 3) h ST_CONFLICT := by
    unfold trigEnable
    dsimp only
    rw [if_neg (pinClaimStatus_of_held hf1), claimPin_of_held hf1, hown]
  have ho := ((trigFields_only (n := k.val) s h timed at_ ch.isLt hw).pinOutcome (h := h) (status := ST_CONFLICT) (by decide)
    (trigPin_lt k.val) (owner_lt hi (trigPin k.val) h) (requester := 3) (by decide)).wr_lt (f := .thm .THERM_STATUS_LAST_STATUS)
    (h := h) (i := 0) (v := ST_CONFLICT) (by decide)
  refine ⟨_, (execTrigConfigWrite_of_off hr h0 hw hoff true).trans (congrArg _ ((if_pos rfl).trans he)), ho.perm (.cons _ ?_)
    (by simp [claimCells, trigCells, cell])⟩
  exact (List.reverse_perm _).append (List.reverse_perm _)

theorem trigConfigWrite_enables (hf : s.rd (pinOwner (trigPin k.val)) h 0 = 0)
    (hc : s.rd (.tim .CMP_STATUS_HOLDER) h (trigCmp s h k.val) = 0) : Gives (.trigConfigWrite h k true timed ch width at_) s fun t =>
      t.rd (.thm .TRIG_CFG_EN) h k.val = 1 ∧ t.rd (pinOwner (trigPin k.val)) h 0 = 3 ∧
      t.rd (.tim .CMP_STATUS_HOLDER) h (trigCmp s h k.val) = 3 + k.val ∧ t.rd (.thm .THERM_STATUS_LAST_STATUS) h 0 = ST_OK ∧
      t.rd (.thm .TRIG_CFG_WIDTH) h k.val = width := by
  let s1 := trigFields s h k.val timed ch.val width at_
  let s2 := claimPin s1 h (trigPin k.val) 3
  let s3 := cmpOutcome (s2.wr (.tim .CMP_STATUS_HOLDER) h (3 + k.val) (trigCmp s h k.val)) h ST_OK (trigCmp s h k.val) 0 0
  let s4 := drivePin (armTrig (s3.wr (.thm .TRIG_CFG_EN) h 1 k.val) h k.val timed) h (pinOut (trigPin k.val)) 1
  have hs1 := within_trigFields s h k.val timed ch.val width at_
  have hs2 : Within (ownerFields ++ outcomeFields) s1 s2 := within_claimPin s1 h (trigPin k.val) 3
  have hs3 : Within cmpOutcomeFields (s2.wr (.tim .CMP_STATUS_HOLDER) h (3 + k.val) (trigCmp s h k.val)) s3 :=
    within_cmpOutcome _ _ _ _ _ _
  have hs4 : Within (.thm .AUX_LEVEL :: armFields) (s3.wr (.thm .TRIG_CFG_EN) h 1 k.val) s4 :=
    .drivePin ((Within.refl _).trans (within_armTrig _ _ _ _))
  have hfree : s1.rd (pinOwner (trigPin k.val)) h 0 = 0 := (hs1.rd_owner _ h).trans hf
  have hcmp : trigCmp s1 h k.val = trigCmp s h k.val := trigCmp_congr hs1 k.val
  have hidle : s2.rd (.tim .CMP_STATUS_HOLDER) h (trigCmp s h k.val) = 0 := by rw [hs2.rd, hs1.rd, hc]
  have he : trigEnable s1 h k.val timed = thermStatus s4 h ST_OK := by
    unfold trigEnable
    dsimp only
    rw [if_pos (pinClaimStatus_of_free hfree), hcmp, if_pos (cmpClaimStatus_of_free hidle), claimCmp_of_free hidle]
  refine ⟨_, (execTrigConfigWrite_of_off hr h0 hw hoff true).trans (congrArg _ ((if_pos rfl).trans he)), ?_, ?_, ?_, ?_, ?_⟩
  · simp (disch := decide) [thermStatus, hs4.eq]
  · have hs3' : Within (.tim .CMP_STATUS_HOLDER :: cmpOutcomeFields) s2 s3 := .trans (.wr (.refl s2)) hs3
    have hs4' : Within (.thm .TRIG_CFG_EN :: .thm .AUX_LEVEL :: armFields) s3 s4 := .trans (.wr (.refl s3)) hs4
    have hs5 : Within [.thm .THERM_STATUS_LAST_STATUS] s4 (thermStatus s4 h ST_OK) := .wr (.refl s4)
    rw [hs5.rd_owner, hs4'.rd_owner, hs3'.rd_owner]
    exact rd_claimPin_owner hfree (by decide)
  · have hk : 3 + k.val < 16 := by omega
    simp (disch := decide) [thermStatus, hs4.eq, hs3.eq, Fld.width, TimF.width, hk]
  · simp [thermStatus, Fld.width, ThmF.width, ST_OK]
  · simp (disch := decide) [thermStatus, hs4.eq, hs3.eq, hs2.eq]
    simp [s1, trigFields, Fld.width, ThmF.width, hw]

end

section
variable (hd : s.rd (.thm .AUX_DRIVING) h 0 = 1) (hc : s.rd (.thm .AUX_KEY_CABLE_OK) h 0 = 1)
include hd hc

/-- An output that is driven, with the correct cable, takes the level given. -/
theorem drivePin_takes {pin : AuxPin} {level : Nat} (hl : level < 4) :
    (drivePin s h pin level).rd (.thm .AUX_LEVEL) h (pinNo pin) = level ∧
      Touches s (drivePin s h pin level) [.thm .AUX_LEVEL] := by
  refine ⟨?_, (Touches.refl s _).drivePin (by decide) h pin level⟩
  unfold drivePin
  simp only [hd, hc, and_self, if_true]
  split <;> simp [Fld.width, ThmF.width, hl]

theorem trigSyncPulse_starts (hen : s.rd (.thm .TRIG_CFG_EN) h k.val = 1) (hm : s.rd (.thm .TRIG_CFG_MODE) h k.val = 0)
    (hch : s.rd (.thm .PWM_CTL_EN) h (s.rd (.thm .TRIG_CFG_CH) h k.val) = 1)
    (hat : s.rd (.thm .TRIG_CFG_AT) h k.val < s.rd (.thm .PWM_ACT_PERIOD) h (s.rd (.thm .TRIG_CFG_CH) h k.val))
    (hcount : pwmCount s h (s.rd (.thm .TRIG_CFG_CH) h k.val) = s.rd (.thm .TRIG_CFG_AT) h k.val) :
    Gives (.trigSyncPulse h k) s fun t => t.rd (.thm .AUX_LEVEL) h (pinNo (pinOut (trigPin k.val))) = 2 ∧ Touches s t [.thm .AUX_LEVEL] :=
  ⟨_, if_pos ⟨hen, hm, hch, hat, hcount⟩, drivePin_takes hd hc (by decide)⟩

theorem pinPulseEnd_low {pin : AuxPin} (hp : pulsePin s h pin = true) :
    Gives (.pinPulseEnd h pin) s fun t => t.rd (.thm .AUX_LEVEL) h (pinNo pin) = 1 ∧ Touches s t [.thm .AUX_LEVEL] :=
  ⟨_, if_pos hp, drivePin_takes hd hc (by decide)⟩

end
end

/-! ### Edges of a feedback input (R82 to R85) -/

/-- The last edge of input `i` lies in the 4 ns sample of this one (R82). -/
def SameSample (s : State) (h : Half) (i : Nat) : Prop :=
  s.rd (.thm .FB_SEEN) h i ≠ 0 ∧ (s.rd (.thm .FB_SEEN) h i - 1) / 4 = s.mt h / 4

/-- This edge of input `i` comes sooner than the MIN_INT of its channel `n` after the last one that counted (R83). -/
def TooSoon (s : State) (h : Half) (n i : Nat) : Prop :=
  s.rd (.thm .FB_IN_T) h i ≠ 0 ∧ s.mt h + 1 < s.rd (.thm .FB_IN_T) h i + s.rd (.thm .FB_MIN_INT) h n * 4

section
variable {n : Fin 3} {onB levelB up : Bool}

theorem execFbEdge_none (hd : fbDirection (s.rd (.thm .FB_CTL_MODE) h n.val) onB levelB = none) :
    execFbEdge h n onB levelB s = .next s := by
  simp [execFbEdge, hd]

/-- An edge that counts in the channel's mode: the same edge again, one too early, or one more. -/
theorem execFbEdge_some (hd : fbDirection (s.rd (.thm .FB_CTL_MODE) h n.val) onB levelB = some up) :
    execFbEdge h n onB levelB s =
      let s1 := s.wr (.thm .FB_SEEN) h (s.mt h + 1) (2 * n.val + bit onB)
      if s.rd (.thm .FB_SEEN) h (2 * n.val + bit onB) ≠ 0 ∧ (s.rd (.thm .FB_SEEN) h (2 * n.val + bit onB) - 1) / 4 = s.mt h / 4 then
        .next s
      else if s.rd (.thm .FB_IN_T) h (2 * n.val + bit onB) ≠ 0 ∧
          s.mt h + 1 < s.rd (.thm .FB_IN_T) h (2 * n.val + bit onB) + s.rd (.thm .FB_MIN_INT) h n.val * 4 then
        .next (if s1.holds h then bump (s1.inc (.thm .FB_STATUS_GLITCH) h 1 n.val) h 4 6 1 else s1.inc (.thm .FB_STATUS_GLITCH) h 1 n.val)
      else .next (fbCount s1 h n.val onB up) := by
  simp [execFbEdge, hd, State.mt, bit]
  rfl

theorem rd_fbCount (s : State) (h : Half) (n : Nat) (onB up : Bool) :
    (fbCount s h n onB up).rd (.thm .FB_POSITION) h n =
        (s.rd (.thm .FB_POSITION) h n + (if up = true then 1 else 2 ^ 32 - 1)) % 2 ^ 32 ∧
      (fbCount s h n onB up).rd (.thm .FB_PERIOD_DIR) h n = bit (!up) ∧ (fbCount s h n onB up).rd (.thm .FB_STATUS_STOPPED) h n = 0 := by
  have hdir : bit (!up) % 2 = bit (!up) := Nat.mod_eq_of_lt (bit_lt _)
  unfold fbCount
  extract_lets pos delta last now s1 s2 s3 s4
  have h4 : Within [.thm .FB_PERIOD_PERIOD] s3 s4 := .ite (.refl s3) (.wr (.refl s3))
  have h2 : Within [.thm .FB_STATUS_WRAPPED] s1 s2 := .ite (.wr (.refl s1)) (.refl s1)
  refine ⟨?_, ?_, ?_⟩
  · simp (disch := decide) [h4.eq]
    simp (disch := decide) [s3, h2.eq]
    simp [s1, pos, delta, Fld.width, ThmF.width]
  · simp [Fld.width, ThmF.width, hdir]
  · simp (disch := decide) [h4.eq]
    simp [s3]

theorem fbEdge_counts (hd : fbDirection (s.rd (.thm .FB_CTL_MODE) h n.val) onB levelB = some up)
    (hs : ¬ SameSample s h (2 * n.val + bit onB)) (he : ¬ TooSoon s h n.val (2 * n.val + bit onB)) :
    Gives (.fbEdge h n onB levelB) s fun t =>
      t.rd (.thm .FB_POSITION) h n.val = (s.rd (.thm .FB_POSITION) h n.val + (if up = true then 1 else 2 ^ 32 - 1)) % 2 ^ 32 ∧
      t.rd (.thm .FB_PERIOD_DIR) h n.val = bit (!up) ∧ t.rd (.thm .FB_STATUS_STOPPED) h n.val = 0 := by
  let s1 := s.wr (.thm .FB_SEEN) h (s.mt h + 1) (2 * n.val + bit onB)
  have hs1 : Within [.thm .FB_SEEN] s s1 := .wr (.refl s)
  obtain ⟨hpos, hdir, hstop⟩ := rd_fbCount s1 h n.val onB up
  exact ⟨_, (execFbEdge_some hd).trans ((if_neg hs).trans (if_neg he)), by rw [hpos, hs1.rd], hdir, hstop⟩

theorem fbEdge_glitch (hd : fbDirection (s.rd (.thm .FB_CTL_MODE) h n.val) onB levelB = some up)
    (hs : ¬ SameSample s h (2 * n.val + bit onB)) (he : TooSoon s h n.val (2 * n.val + bit onB)) :
    Gives (.fbEdge h n onB levelB) s fun t => Touches s t [.thm .FB_STATUS_GLITCH, .thm .FB_SEEN, .tel .LIVE_SLOT] ∧
      t.rd (.thm .FB_STATUS_GLITCH) h n.val = min (s.rd (.thm .FB_STATUS_GLITCH) h n.val + 1) (2 ^ 16 - 1) := by
  let s1 := s.wr (.thm .FB_SEEN) h (s.mt h + 1) (2 * n.val + bit onB)
  let s2 := s1.inc (.thm .FB_STATUS_GLITCH) h 1 n.val
  have hs1 : Within [.thm .FB_SEEN] s s1 := .wr (.refl s)
  have ht : Touches s s2 [.thm .FB_STATUS_GLITCH, .thm .FB_SEEN, .tel .LIVE_SLOT] :=
    ((Touches.refl s _).wr (by decide) h _ _).inc (by decide) h 1 _
  have hw : Within [] s2 (if s1.holds h then bump s2 h 4 6 1 else s2) := .ite (.bump (.refl s2)) (.refl s2)
  refine ⟨_, (execFbEdge_some hd).trans ((if_neg hs).trans (if_pos he)), .ite (ht.bump (by decide) _ _ _ _) ht, ?_⟩
  rw [hw.rd]
  exact (State.rd_inc_self s1 _ h 1 n.val).trans (by rw [hs1.rd]; rfl)

/-! ### Timeouts and windows (R85) -/

theorem fbZsTimeout_due (hd : s.rd (.thm .FB_LAST) h n.val + 4 * s.rd (.thm .FB_ZS_TIMEOUT) h n.val ≤ s.mt h + 1) :
    Sets (.fbZsTimeout h n) s [cell (.thm .FB_PERIOD_PERIOD) h n.val 0xFFFFFF, cell (.thm .FB_STATUS_STOPPED) h n.val 1,
      cell (.thm .FB_CH_T) h n.val 0, cell (.thm .FB_WIN) h n.val 0] := by
  have ho := ((((Only.refl s).wr_lt (f := .thm .FB_PERIOD_PERIOD) (h := h) (i := n.val) (v := 0xFFFFFF) (by decide)).wr_lt
    (f := .thm .FB_STATUS_STOPPED) (h := h) (i := n.val) (v := 1) (by decide)).wr_lt
    (f := .thm .FB_CH_T) (h := h) (i := n.val) (v := 0) (by decide)).wr_lt (f := .thm .FB_WIN) (h := h) (i := n.val) (v := 0) (by decide)
  exact ⟨_, if_pos hd, ho.perm (List.reverse_perm _).symm (by simp)⟩

theorem fbWindowEnd_sets (hi : Inv s) : Sets (.fbWindowEnd h n) s
    [cell (.thm .FB_COUNT_WIN) h n.val (s.rd (.thm .FB_WIN) h n.val), cell (.thm .FB_WIN) h n.val 0] := by
  have hw : s.rd (.thm .FB_WIN) h n.val < 2 ^ (Fld.thm .FB_COUNT_WIN).width := registersWithinWidth s (.thm .FB_WIN) h n.val hi
  exact ⟨_, rfl, (((Only.refl s).wr_lt (h := h) (i := n.val) hw).wr_lt (by decide)).perm (.swap ..) (by simp)⟩

/-! ### Writes of a channel (R82 to R84, R88) -/

/-- The cells that a change of MODE writes. -/
def modeCells (h : Half) (n mode : Nat) : List CellVal :=
  [cell (.thm .FB_CTL_MODE) h n mode, cell (.thm .FB_PERIOD_PERIOD) h n 0xFFFFFF, cell (.thm .FB_WIN) h n 0, cell (.thm .FB_CH_T) h n 0]

theorem Only.fbSetMode {t : State} {l : List CellVal} {i mode : Nat} (ho : Only s t l) (hm : mode < 4) :
    Only s (fbSetMode t h i mode) ((modeCells h i mode).reverse ++ l) :=
  (((ho.wr_lt (f := .thm .FB_CTL_MODE) hm).wr_lt (f := .thm .FB_PERIOD_PERIOD) (v := 0xFFFFFF) (by decide)).wr_lt
    (f := .thm .FB_WIN) (v := 0) (by decide)).wr_lt (f := .thm .FB_CH_T) (v := 0) (by decide)

theorem fbHoldsB_iff (i mode : Nat) : fbHoldsB i mode = true ↔ i = 2 ∧ (mode = 1 ∨ mode = 3) := by simp [fbHoldsB]

theorem fbHoldsB_congr {i m mode : Nat} (hm : m < 4) (hp : i ≠ 2 ∨ (m % 2 = mode % 2 ∧ mode < 4)) : fbHoldsB i m = fbHoldsB i mode := by
  rw [Bool.eq_iff_iff, fbHoldsB_iff, fbHoldsB_iff]
  omega

section
variable (hr : s.holds h = true)
include hr

theorem fbPositionWrite_sets (v : Nat) : Sets (.fbPositionWrite h n v) s
    [cell (.thm .THERM_STATUS_LAST_STATUS) h 0 ST_OK, cell (.thm .FB_POSITION) h n.val (v % 2 ^ 32)] :=
  ⟨_, if_pos hr, ((Only.refl s).wr (.thm .FB_POSITION) h v n.val).wr_lt (by decide)⟩

theorem fbClrGlitch_sets : Sets (.fbClrGlitch h n) s
    [cell (.thm .THERM_STATUS_LAST_STATUS) h 0 ST_OK, cell (.thm .FB_STATUS_GLITCH) h n.val 0] :=
  ⟨_, if_pos hr, ((Only.refl s).wr_lt (f := .thm .FB_STATUS_GLITCH) (h := h) (i := n.val) (v := 0) (by decide)).wr_lt (by decide)⟩

section
variable {m : Fin 4}

theorem fbModeSet_same (hm : m.val = s.rd (.thm .FB_CTL_MODE) h n.val) :
    Sets (.fbModeSet h n m) s [cell (.thm .THERM_STATUS_LAST_STATUS) h 0 ST_OK] :=
  ⟨_, (if_pos hr).trans (congrArg _ (if_pos hm)), thermStatus_only (by decide)⟩

theorem fbModeSet_plain (hm : m.val ≠ s.rd (.thm .FB_CTL_MODE) h n.val)
    (hp : n.val ≠ 2 ∨ (m.val % 2 = s.rd (.thm .FB_CTL_MODE) h n.val % 2 ∧ s.rd (.thm .FB_CTL_MODE) h n.val < 4)) :
    Sets (.fbModeSet h n m) s (cell (.thm .THERM_STATUS_LAST_STATUS) h 0 ST_OK :: modeCells h n.val m.val) := by
  have hb := fbHoldsB_congr m.isLt hp
  have he : fbModeWrite s h n.val m.val = thermStatus (fbSetMode s h n.val m.val) h ST_OK := by
    unfold fbModeWrite
    dsimp only
    rw [if_neg hm, if_neg (by simp [hb]), if_neg (by simp [hb])]
  have ho := ((Only.refl s).fbSetMode (h := h) (i := n.val) m.isLt).wr_lt (f := .thm .THERM_STATUS_LAST_STATUS) (h := h) (i := 0)
    (v := ST_OK) (by decide)
  exact ⟨_, (if_pos hr).trans (congrArg _ he), ho.perm (.cons _ (reverse_append_nil_perm _)) (by simp [modeCells, cell])⟩

theorem fbModeSet_claims (hn : n.val = 2) (hm : m.val % 2 = 1) (ho : s.rd (.thm .FB_CTL_MODE) h n.val % 2 = 0)
    (hf : s.rd (.thm .AUX_OWNER_FB2B) h 0 = 0) : Gives (.fbModeSet h n m) s fun t =>
      t.rd (.thm .FB_CTL_MODE) h 2 = m.val ∧ t.rd (.thm .AUX_OWNER_FB2B) h 0 = 2 := by
  have hnew : fbHoldsB n.val m.val = true := by rw [fbHoldsB_iff]; omega
  have hold : fbHoldsB n.val (s.rd (.thm .FB_CTL_MODE) h n.val) = false := by
    rw [Bool.eq_false_iff, Ne, fbHoldsB_iff]
    omega
  have he : fbModeWrite s h n.val m.val = thermStatus (fbSetMode (claimPin s h 2 2) h n.val m.val) h ST_OK := by
    unfold fbModeWrite
    dsimp only
    rw [if_neg (by omega), if_pos ⟨hnew, hold⟩, if_pos (pinClaimStatus_of_free (p := 2) hf)]
  have hown : (claimPin s h 2 2).rd (.thm .AUX_OWNER_FB2B) h 0 = 2 := rd_claimPin_owner (p := 2) hf (by decide)
  refine ⟨_, (if_pos hr).trans (congrArg _ he), ?_, ?_⟩
  · simp [thermStatus, fbSetMode, hn, Fld.width, ThmF.width]
  · simp [thermStatus, fbSetMode, hown]

theorem fbModeSet_conflict (hn : n.val = 2) (hm : m.val % 2 = 1) (ho : s.rd (.thm .FB_CTL_MODE) h n.val % 2 = 0)
    (hf : s.rd (.thm .AUX_OWNER_FB2B) h 0 ≠ 0) : Gives (.fbModeSet h n m) s fun t =>
      t.rd (.thm .FB_CTL_MODE) h 2 = s.rd (.thm .FB_CTL_MODE) h n.val ∧ t.rd (.thm .THERM_STATUS_LAST_STATUS) h 0 = ST_CONFLICT ∧
      t.rd (.thm .AUX_OWNER_FB2B) h 0 = s.rd (.thm .AUX_OWNER_FB2B) h 0 := by
  have hnew : fbHoldsB n.val m.val = true := by rw [fbHoldsB_iff]; omega
  have hold : fbHoldsB n.val (s.rd (.thm .FB_CTL_MODE) h n.val) = false := by
    rw [Bool.eq_false_iff, Ne, fbHoldsB_iff]
    omega
  have he : fbModeWrite s h n.val m.val =
      thermStatus (pinOutcome s h ST_CONFLICT 2 (s.rd (.thm .AUX_OWNER_FB2B) h 0) 2) h ST_CONFLICT := by
    unfold fbModeWrite
    dsimp only
    rw [if_neg (by omega), if_pos ⟨hnew, hold⟩, if_neg (pinClaimStatus_of_held (p := 2) hf), claimPin_of_held (p := 2) hf]
    rfl
  have hw := within_pinOutcome s h ST_CONFLICT 2 (s.rd (.thm .AUX_OWNER_FB2B) h 0) 2
  refine ⟨_, (if_pos hr).trans (congrArg _ he), ?_, ?_, ?_⟩
  · simp (disch := decide) [thermStatus, hw.eq, hn]
  · simp [thermStatus, Fld.width, ThmF.width, ST_CONFLICT]
  · simp (disch := decide) [thermStatus, hw.eq]

theorem fbModeSet_releases (hn : n.val = 2) (hm : m.val % 2 = 0) (ho : s.rd (.thm .FB_CTL_MODE) h n.val % 2 = 1)
    (hlt : s.rd (.thm .FB_CTL_MODE) h n.val < 4) : Sets (.fbModeSet h n m) s
      (cell (.thm .AUX_OWNER_FB2B) h 0 0 :: cell (.thm .THERM_STATUS_LAST_STATUS) h 0 ST_OK :: modeCells h n.val m.val) := by
  have hnew : fbHoldsB n.val m.val = false := by
    rw [Bool.eq_false_iff, Ne, fbHoldsB_iff]
    omega
  have hold : fbHoldsB n.val (s.rd (.thm .FB_CTL_MODE) h n.val) = true := by rw [fbHoldsB_iff]; omega
  have he : fbModeWrite s h n.val m.val = thermStatus (fbSetMode (s.wr (.thm .AUX_OWNER_FB2B) h 0) h n.val m.val) h ST_OK := by
    unfold fbModeWrite
    dsimp only
    rw [if_neg (by omega), if_neg (by simp [hold]), if_pos ⟨hold, hnew⟩]
  have hset := (((Only.refl s).wr_lt (f := .thm .AUX_OWNER_FB2B) (h := h) (i := 0) (v := 0) (by decide)).fbSetMode (h := h) (i := n.val)
    m.isLt).wr_lt (f := .thm .THERM_STATUS_LAST_STATUS) (h := h) (i := 0) (v := ST_OK) (by decide)
  refine ⟨_, (if_pos hr).trans (congrArg _ he), hset.perm ?_ (by simp [modeCells, cell])⟩
  exact (List.Perm.cons _ ((List.perm_append_singleton _ _).trans (.cons _ (List.reverse_perm _)))).trans (.swap ..)

end
end

theorem fb_writes_without_roles (hr : s.holds h = false) : (∀ v, Sets (.fbPositionWrite h n v) s []) ∧ Sets (.fbClrGlitch h n) s [] ∧
    ∀ m : Fin 4, n.val ≠ 2 ∨ m.val % 2 = 0 → Sets (.fbModeSet h n m) s [] := by
  have hno : ¬ s.holds h = true := by simp [hr]
  refine ⟨fun v => sets_of_next (if_neg hno), sets_of_next (if_neg hno), fun m hm => sets_of_next ((if_neg hno).trans (if_neg ?_))⟩
  rw [fbHoldsB_iff]
  omega

end
end

/-- Settles O13: one lemma above for each command and case. -/
theorem triggersAndFeedback : Obligations.TriggersAndFeedback := by
  refine ⟨fun h k s => ⟨fun hr timed ch width at_ => trigConfigWrite_without_roles hr timed ch width at_, fun hr =>
    ⟨fun en timed ch at_ => trigConfigWrite_no_width hr en timed ch at_, fun timed ch width at_ h0 hw hoff =>
      ⟨trigConfigWrite_fields hr h0 hw hoff, trigConfigWrite_enables hr h0 hw hoff, trigConfigWrite_conflict hr h0 hw hoff⟩⟩,
    fun hd hc => ⟨trigSyncPulse_starts hd hc, fun pin hp => pinPulseEnd_low hd hc hp⟩⟩, fun h n s => ?_⟩
  refine ⟨fun onB levelB => ⟨fun hu => ?_, fun up hd hs => ⟨fbEdge_counts hd hs, fbEdge_glitch hd hs⟩⟩,
    ⟨fun hd => sets_of_next (if_neg hd), fbZsTimeout_due⟩, fbWindowEnd_sets, fb_writes_without_roles, fun hr =>
    ⟨fbPositionWrite_sets hr, fbClrGlitch_sets hr, fun m => ⟨fbModeSet_same hr, fbModeSet_plain hr, fun hn hm ho _ =>
      ⟨fbModeSet_claims hr hn hm ho, fbModeSet_conflict hr hn hm ho⟩, fbModeSet_releases hr⟩⟩⟩
  cases hd : fbDirection (s.rd (.thm .FB_CTL_MODE) h n.val) onB levelB with
  | none => exact sets_of_next (execFbEdge_none hd)
  | some up => exact sets_of_next ((execFbEdge_some hd).trans (if_pos (hu.resolve_left (by simp [hd]))))

end Sys2Proof
end

section
/-!
The thermal loop: O10.
-/

namespace Sys2Proof

open Machine

set_option Elab.async false

section
variable {fs : List Fld} {s₀ s t : State} {h : Half}

/-! ### The loop's duties (R69) -/

/-- The registers that a duty of the loop writes. -/
def dutyFields : List Fld :=
  [.thm .PWM_DUTY, .thm .PWM_STATUS_UPD_PEND, .thm .PWM_SKIP, .thm .PWM_STATUS_DISARMED, .thm .PWM_STATUS_LAST_STATUS, .thm .THERM_EVENT]

/-- A shadow duty is written, and what follows from a transfer that was armed is recorded. -/
theorem within_loopDuty_written (s : State) (h : Half) (n pct : Nat) :
    Within [.thm .PWM_STATUS_UPD_PEND, .thm .PWM_SKIP, .thm .PWM_STATUS_DISARMED, .thm .PWM_STATUS_LAST_STATUS, .thm .THERM_EVENT]
      (s.wr (.thm .PWM_DUTY) h (s.rd (.thm .PWM_PERIOD) h n * pct / 25600) n) (loopDuty s h n pct) := by
  have hshadow : Within [.thm .PWM_STATUS_UPD_PEND, .thm .PWM_SKIP, .thm .PWM_STATUS_DISARMED, .thm .PWM_STATUS_LAST_STATUS,
      .thm .THERM_EVENT] (s.wr (.thm .PWM_DUTY) h (s.rd (.thm .PWM_PERIOD) h n * pct / 25600) n)
      (pwmShadow s h n .duty (s.rd (.thm .PWM_PERIOD) h n * pct / 25600)) := .ite (.raiseCause (.wr (.wr (.wr (.refl _))))) (.refl _)
  exact .ite hshadow (.ite (.wr (.wr (.wr hshadow))) (.wr hshadow))

theorem within_loopDuty (s : State) (h : Half) (n pct : Nat) : Within dutyFields s (loopDuty s h n pct) :=
  .trans (.wr (.refl s)) (within_loopDuty_written s h n pct)

theorem rd_loopDuty (s : State) (h : Half) (n pct m : Nat) : (loopDuty s h n pct).rd (.thm .PWM_DUTY) h m =
    if m = n then s.rd (.thm .PWM_PERIOD) h n * pct / 25600 % 2 ^ 18 else s.rd (.thm .PWM_DUTY) h m := by
  rw [(within_loopDuty_written s h n pct).rd]
  simp [Fld.width, ThmF.width]

theorem within_loopDuties (s : State) (h : Half) (pump valve : Nat) :
    Within (.thm .PUMP_PREV :: .thm .VALVE_PREV :: dutyFields) s (loopDuties s h pump valve) :=
  .wr (.wr ((Within.trans (Within.refl s) (within_loopDuty _ _ _ _)).trans (within_loopDuty _ _ _ _)))

/-- Duties of 100 % are the PERIODs of the two channels (Table 2.5). -/
theorem rd_loopDuties_full (hp : ∀ n, s.rd (.thm .PWM_PERIOD) h n < 2 ^ 18) : ∀ n < 2,
    (loopDuties s h 25600 25600).rd (.thm .PWM_DUTY) h n = s.rd (.thm .PWM_PERIOD) h n := by
  have hperiod (n : Nat) : (loopDuty s h 0 25600).rd (.thm .PWM_PERIOD) h n = s.rd (.thm .PWM_PERIOD) h n :=
    (within_loopDuty s h 0 25600).rd rfl (by decide) h n
  have hfull (n : Nat) : s.rd (.thm .PWM_PERIOD) h n * 25600 / 25600 % 2 ^ 18 = s.rd (.thm .PWM_PERIOD) h n := by
    rw [Nat.mul_div_cancel _ (by decide), Nat.mod_eq_of_lt (hp n)]
  intro n hn
  have hw : Within [.thm .PUMP_PREV, .thm .VALVE_PREV] (loopDuty (loopDuty s h 0 25600) h 1 25600) (loopDuties s h 25600 25600) :=
    .wr (.wr (.refl _))
  rw [hw.rd, rd_loopDuty, rd_loopDuty, hperiod]
  interval_cases n
  · exact hfull 0
  · exact hfull 1

/-! ### FAIL (R72) -/

/-- The loop has failed, seen from the state `s` that it failed in: FAIL, its cause, both duties forced to 100 %, and the Lowland cause. -/
def LoopFailed (h : Half) (s t : State) : Prop :=
  t.rd (.thm .THERM_STATUS_STATE) h 0 = 4 ∧ (t.rd (.thm .THERM_EVENT) h 0).testBit 5 = true ∧
    (t.rd (.boot .LOW_PEND) .h0 0).testBit 0 = true ∧ ∀ n < 2, t.rd (.thm .PWM_DUTY) h n = s.rd (.thm .PWM_PERIOD) h n

/-- The registers that FAIL writes. -/
def failFields : List Fld :=
  [.thm .THERM_STATUS_STATE, .thm .PUMP_PREV, .thm .VALVE_PREV, .boot .LOW_PEND, .boot .LOW_STATUS] ++ dutyFields ++ withdrawFields

/-- A withdrawal sets a cause of THERM_EVENT more. -/
theorem testBit_platWithdraw {b : Nat} (hb : (s.rd (.thm .THERM_EVENT) h 0).testBit b = true) (hlt : b < 10) :
    ((platWithdraw s h).rd (.thm .THERM_EVENT) h 0).testBit b = true := by
  by_cases hp : s.rd (.thm .PLAT_STATUS_PENDING) h 0 = 1
  · rw [(within_platWithdraw_raised hp).rd, rd_raiseTherm s h 4 rfl, if_pos ⟨rfl, rfl, rfl⟩]
    rw [setBits, Nat.testBit_mod_two_pow, Nat.testBit_or, hb]
    simp [hlt]
  · have he : platWithdraw s h = s := if_neg hp
    rwa [he]

/-- What a loop that fails does after its duties, its causes and its count. -/
theorem within_thermFail_counted (s : State) (h : Half) (crit : Bool) :
    ∃ u, thermFail s h crit = lowlandCause u 1 ∧
      Within [] (platWithdraw (raiseCause (loopDuties (s.wr (.thm .THERM_STATUS_STATE) h 4) h 25600 25600) 2 h (2 ^ 5)) h) u :=
  ⟨_, rfl, .ite (.fuseEvent (.refl _)) (.inc (.refl _))⟩

theorem within_thermFail (s : State) (h : Half) (crit : Bool) : Within failFields s (thermFail s h crit) := by
  obtain ⟨u, he, hu⟩ := within_thermFail_counted s h crit
  have hd : Within failFields s (loopDuties (s.wr (.thm .THERM_STATUS_STATE) h 4) h 25600 25600) :=
    .trans (.wr (.refl s)) (within_loopDuties _ h 25600 25600)
  rw [he]
  exact .wr (.wr (.trans (.trans (.raiseCause hd) (within_platWithdraw _ h)) hu))

theorem thermFail_failed (hp : ∀ n, s.rd (.thm .PWM_PERIOD) h n < 2 ^ 18) (crit : Bool) : LoopFailed h s (thermFail s h crit) := by
  obtain ⟨u, he, hu⟩ := within_thermFail_counted s h crit
  let s1 := s.wr (.thm .THERM_STATUS_STATE) h 4
  let s2 := loopDuties s1 h 25600 25600
  have h1 : Within [.thm .THERM_STATUS_STATE] s s1 := .wr (.refl s)
  have h2 : Within (.thm .PUMP_PREV :: .thm .VALVE_PREV :: dutyFields) s1 s2 := within_loopDuties s1 h 25600 25600
  have h3 : Within (.thm .THERM_EVENT :: withdrawFields) s2 (platWithdraw (raiseCause s2 2 h (2 ^ 5)) h) :=
    .trans (.raiseCause (.refl s2)) (within_platWithdraw _ h)
  have hl : Within [.boot .LOW_PEND, .boot .LOW_STATUS] u (lowlandCause u 1) := .wr (.wr (.refl u))
  have hperiod (n : Nat) : s1.rd (.thm .PWM_PERIOD) h n = s.rd (.thm .PWM_PERIOD) h n := h1.rd rfl (by decide) h n
  rw [he]
  refine ⟨?_, ?_, ?_, fun n hn => ?_⟩
  · rw [hl.rd, hu.rd, h3.rd, h2.rd]
    simp [s1, Fld.width, ThmF.width]
  · rw [hl.rd, hu.rd]
    exact testBit_platWithdraw (testBit_raiseTherm _ h (by decide) (by decide)) (by decide)
  · have hpend : (lowlandCause u 1).rd (.boot .LOW_PEND) .h0 0 = setBits (u.rd (.boot .LOW_PEND) .h0 0) 1 % 2 ^ 4 := by
      simp [lowlandCause, Fld.width, BootF.width]
    rw [hpend]
    exact testBit_setBits_mod _ (by decide) rfl
  · rw [hl.rd, hu.rd, h3.rd, rd_loopDuties_full (fun n => by rw [hperiod]; exact hp n) n hn, hperiod]

/-! ### A period of the loop (R69 to R73) -/

/-- The registers that the loop's step-down writes. -/
def stepFields : List Fld :=
  [.thm .DOWN_WAIT, .thm .TJ_RUN, .thm .THERM_EVENT] ++ changeFields ++ copyFields ++ withdrawFields

theorem Within.platStepDown (hs : Within fs s₀ s) (hf : ∀ f ∈ stepFields, f ∈ fs := by decide) : Within fs s₀ (platStepDown s h) :=
  hs.trans (.wr (.wr (Within.trans (Within.refl s) (within_platAccept s h _ _ true)))) hf

theorem within_platLoopRequest (s : State) (h : Half) : Within stepFields s (platLoopRequest s h) :=
  .ite (.refl s) (.ite (.ite (.platStepDown ((Within.refl s).trans (within_platWithdraw s h))) (.wr (.refl s))) (.platStepDown (.refl s)))

/-- The registers of a period's control law, runs and step-down. -/
def workFields : List Fld :=
  [.thm .TJ_OVER, .thm .FB_STOP, .thm .INTEG, .thm .THERM_STATUS_FORCED, .thm .THERM_MEAS1_DEMAND, .thm .HOT_RUN, .thm .PUMP_PREV,
    .thm .VALVE_PREV] ++ dutyFields ++ stepFields

theorem Within.loopTjWarn (hs : Within fs s₀ s) (hf : ∀ f ∈ [Fld.thm .TJ_OVER, .thm .THERM_EVENT], f ∈ fs := by decide) :
    Within fs s₀ (loopTjWarn s h) :=
  .ite (.raiseCause (.wr hs (.inr (hf _ (by decide)))) (hf _ (by decide))) (.wr hs (.inr (hf _ (by decide))))

theorem within_loopFb (s : State) (h : Half) : Within workFields s (loopFb s h) := .ite (.raiseCause (.wr (.refl s))) (.wr (.refl s))

theorem within_controlLaw (s : State) (h : Half) : Within workFields s (controlLaw s h) :=
  .trans (.ite (.bump (.wr (.wr (.wr (.refl s))))) (.wr (.wr (.wr (.refl s))))) (within_loopDuties _ h _ _)

theorem within_loopRuns (s : State) (h : Half) (d : Nat) : Within workFields s (loopRuns s h d) :=
  have hs : Within workFields s (if _ then s.inc (.thm .HOT_RUN) h 1 else s.wr (.thm .HOT_RUN) h 0) := .ite (.inc (.refl s)) (.wr (.refl s))
  .ite (.inc hs) (.wr hs)

theorem within_loopRetry (s : State) (h : Half) : Within workFields s (loopRetry s h) :=
  .ite (.ite ((Within.refl s).trans (within_platLoopRequest s h)) (.wr (.refl s))) (.refl s)

/-- A period in a state other than OFF and FAIL, before the conditions that fail the loop at once. -/
def loopWorked (s : State) (h : Half) : State :=
  let run := s.rd (.thm .THERM_STATUS_STATE) h = 2
  let s1 := loopTjWarn s h
  let s2 := if run then controlLaw (loopFb s1 h) h else s1.wr (.thm .THERM_MEAS1_DEMAND) h (demandNow s1 h)
  let s3 := loopRuns s2 h (s2.rd (.thm .THERM_MEAS1_DEMAND) h)
  if run then loopRetry s3 h else s3

theorem within_loopWorked (s : State) (h : Half) : Within workFields s (loopWorked s h) := by
  unfold loopWorked
  extract_lets run s1 s2 s3
  have h1 : Within workFields s s1 := .loopTjWarn (.refl s)
  have h2 : Within workFields s s2 := .ite ((h1.trans (within_loopFb s1 h)).trans (within_controlLaw _ h)) (.wr h1)
  have h3 : Within workFields s s3 := h2.trans (within_loopRuns s2 h _)
  exact .ite (h3.trans (within_loopRetry s3 h)) h3

theorem loopActive_eq (s : State) (h : Half) : loopActive s h =
    if tjAtLeast (loopWorked s h) h ((loopWorked s h).rd (.thm .THERM_SET1_TJ_CRIT) h) then thermFail (loopWorked s h) h true
    else if (loopWorked s h).rd (.thm .AUX_KEY_CABLE_OK) h = 0 then thermFail (loopWorked s h) h false
    else loopWorked s h := rfl

theorem within_loopActive (s : State) (h : Half) : Within (failFields ++ workFields) s (loopActive s h) := by
  have hw : Within (failFields ++ workFields) s (loopWorked s h) := (Within.refl s).trans (within_loopWorked s h)
  rw [loopActive_eq]
  exact .ite (hw.trans (within_thermFail _ h true)) (.ite (hw.trans (within_thermFail _ h false)) hw)

/-- The readings of a period, each unreadable one repeated. -/
theorem rd_loopSense (s : State) (h : Half) (tIn tOut : Option Nat) (tj : Nat) :
    (loopSense s h tIn tOut tj).rd (.thm .THERM_MEAS0_T_IN) h 0 = (tIn.map (· % 2 ^ 16)).getD (s.rd (.thm .THERM_MEAS0_T_IN) h 0) ∧
      (loopSense s h tIn tOut tj).rd (.thm .THERM_MEAS0_T_OUT) h 0 =
        (tOut.map (· % 2 ^ 16)).getD (s.rd (.thm .THERM_MEAS0_T_OUT) h 0) ∧
      (loopSense s h tIn tOut tj).rd (.thm .THERM_MEAS1_TJ_MAX) h 0 = tj % 2 ^ 16 := by
  have hc (u : State) (c : Prop) [Decidable c] : Within [.thm .THERM_EVENT] u (if c then raiseCause u 2 h (2 ^ 8) else u) :=
    .ite (.raiseCause (.refl u)) (.refl u)
  unfold loopSense
  dsimp only
  rw [(hc _ _).rd, (hc _ _).rd, (hc _ _).rd]
  cases tIn with
  | none => cases tOut <;> simp [Fld.width, ThmF.width]
  | some _ => cases tOut <;> simp [Fld.width, ThmF.width]

/-- The registers of the readings. -/
def senseFields : List Fld :=
  [.thm .THERM_MEAS0_T_IN, .thm .THERM_MEAS0_T_OUT, .thm .THERM_MEAS1_TJ_MAX, .thm .SENS_RUN, .thm .CT_OUT_OK, .thm .THERM_EVENT]

theorem within_loopSense (s : State) (h : Half) (tIn tOut : Option Nat) (tj : Nat) : Within senseFields s (loopSense s h tIn tOut tj) := by
  unfold loopSense
  extract_lets s1 s2 s3
  have h1 : Within senseFields s s1 := by
    cases tIn with
    | none => exact .refl s
    | some _ => exact .wr (.refl s)
  have h2 : Within senseFields s s2 := by
    cases tOut with
    | none => exact .wr (.inc h1)
    | some _ => exact .wr (.wr (.wr h1))
  exact .ite (.raiseCause (.wr h2)) (.wr h2)

theorem within_loopNotes (s : State) (h : Half) : Within [] s (loopNotes s h) := .wr (.wr (.histSample (.histSample (.refl s))))

section
variable (hh : s.holder = some h)
include hh

theorem execThermLoopPeriod_eq (tIn tOut : Option Nat) (tj : Nat) : exec (.thermLoopPeriod tIn tOut tj) s =
    if s.rd (.thm .THERM_STATUS_STATE) h 0 = 0 then .next s
    else if s.rd (.thm .THERM_STATUS_STATE) h 0 = 4 then .next (loopTjWarn (loopNotes (loopSense s h tIn tOut tj) h) h)
    else .next (loopActive (loopNotes (loopSense s h tIn tOut tj) h) h) := by
  show execThermLoopPeriod tIn tOut tj s = _
  unfold execThermLoopPeriod
  rw [hh]

theorem thermLoopPeriod_takes (hi : Inv s) (tIn tOut : Option Nat) (tj : Nat) (h0 : s.rd (.thm .THERM_STATUS_STATE) h 0 ≠ 0) :
    Gives (.thermLoopPeriod tIn tOut tj) s fun t =>
      t.rd (.thm .THERM_MEAS0_T_IN) h 0 = (tIn.map (· % 2 ^ 16)).getD (s.rd (.thm .THERM_MEAS0_T_IN) h 0) ∧
      t.rd (.thm .THERM_MEAS0_T_OUT) h 0 = (tOut.map (· % 2 ^ 16)).getD (s.rd (.thm .THERM_MEAS0_T_OUT) h 0) ∧
      t.rd (.thm .THERM_MEAS1_TJ_MAX) h 0 = tj % 2 ^ 16 ∧
      (s.rd (.thm .THERM_STATUS_STATE) h 0 = 1 ∨ s.rd (.thm .THERM_STATUS_STATE) h 0 = 2 ∨ s.rd (.thm .THERM_STATUS_STATE) h 0 = 3 →
        signedOf 16 (s.rd (.thm .THERM_SET1_TJ_CRIT) h 0) ≤ signedOf 16 (tj % 2 ^ 16) → LoopFailed h s t) := by
  obtain ⟨hin, hout, htj⟩ := rd_loopSense s h tIn tOut tj
  let m := loopNotes (loopSense s h tIn tOut tj) h
  have hn : Within [] (loopSense s h tIn tOut tj) m := within_loopNotes _ h
  have hm : Within senseFields s m := (within_loopSense s h tIn tOut tj).trans hn
  by_cases h4 : s.rd (.thm .THERM_STATUS_STATE) h 0 = 4
  · have hw : Within [.thm .TJ_OVER, .thm .THERM_EVENT] m (loopTjWarn m h) := .loopTjWarn (.refl m)
    refine ⟨_, (execThermLoopPeriod_eq hh tIn tOut tj).trans ((if_neg h0).trans (if_pos h4)), ?_, ?_, ?_, fun hl => ?_⟩
    · rw [hw.rd, hn.rd, hin]
    · rw [hw.rd, hn.rd, hout]
    · rw [hw.rd, hn.rd, htj]
    · omega
  · have hw := within_loopActive m h
    have hd := within_loopWorked m h
    refine ⟨_, (execThermLoopPeriod_eq hh tIn tOut tj).trans ((if_neg h0).trans (if_neg h4)), ?_, ?_, ?_, fun _ hc => ?_⟩
    · rw [hw.rd, hn.rd, hin]
    · rw [hw.rd, hn.rd, hout]
    · rw [hw.rd, hn.rd, htj]
    · have hperiod (n : Nat) : (loopWorked m h).rd (.thm .PWM_PERIOD) h n = s.rd (.thm .PWM_PERIOD) h n := by rw [hd.rd, hm.rd]
      have hcrit : tjAtLeast (loopWorked m h) h ((loopWorked m h).rd (.thm .THERM_SET1_TJ_CRIT) h) = true := by
        rw [tjAtLeast, hd.rd, hd.rd, hm.rd, hn.rd, htj]
        exact decide_eq_true hc
      obtain ⟨hstate, hcause, hpend, hduty⟩ := thermFail_failed (s := loopWorked m h) (h := h)
        (fun n => by rw [hperiod]; exact (shadow_lt hi h n).1) true
      show LoopFailed h s (loopActive m h)
      rw [loopActive_eq, if_pos hcrit]
      exact ⟨hstate, hcause, hpend, fun n hlt => by rw [hduty n hlt, hperiod]⟩

end

/-! ### The timed conditions (R72, R73) -/

theorem loopLive_iff : loopLive s h = true ↔ s.rd (.thm .THERM_STATUS_STATE) h 0 = 1 ∨ s.rd (.thm .THERM_STATUS_STATE) h 0 = 2 ∨
    s.rd (.thm .THERM_STATUS_STATE) h 0 = 3 := by
  simp [loopLive, or_assoc]

theorem downDue_iff : downDue s h = true ↔ s.rd (.thm .THERM_STATUS_STATE) h 0 = 2 ∧ s.rd (.thm .THERM_CTL_AUTO_DOWN) h 0 = 1 ∧
    s.rd (.thm .THERM_TIMING_AUTO_DOWN_MS) h 0 < s.rd (.thm .TJ_RUN) h 0 := by
  simp [downDue, and_assoc]

theorem platLoopRequest_of_lowest (hc : 2 ≤ s.rd (.thm .PLAT_STATUS_CUR) h 0) : platLoopRequest s h = s := if_pos hc

theorem platLoopRequest_of_free (hc : s.rd (.thm .PLAT_STATUS_CUR) h 0 < 2) (hp : s.rd (.thm .PLAT_STATUS_PENDING) h 0 ≠ 1) :
    platLoopRequest s h = platStepDown s h := (if_neg (by omega)).trans (if_neg hp)

theorem rd_platStepDown (hc : s.rd (.thm .PLAT_STATUS_CUR) h 0 < 2) :
    (platStepDown s h).rd (.thm .PLAT_STATUS_PENDING) h 0 = 1 ∧ (platStepDown s h).rd (.thm .PLAT_STATUS_SOURCE) h 0 = 1 ∧
      (platStepDown s h).rd (.thm .PLAT_STATUS_TARGET) h 0 = s.rd (.thm .PLAT_STATUS_CUR) h 0 + 1 := by
  obtain ⟨hpend, htarget, hsource, -⟩ := rd_platAccept s h (s.rd (.thm .PLAT_STATUS_CUR) h 0 + 1) 2000000 true
  have hw : Within [.thm .DOWN_WAIT, .thm .TJ_RUN] (platAccept s h (s.rd (.thm .PLAT_STATUS_CUR) h 0 + 1) 2000000 true)
      (platStepDown s h) := .wr (.wr (.refl _))
  refine ⟨by rw [hw.rd, hpend], by rw [hw.rd, hsource]; rfl, ?_⟩
  rw [hw.rd, htarget, Nat.mod_eq_of_lt (by omega)]

section
variable (hh : s.holder = some h)
include hh

theorem execThermFailHoldExpire_eq : exec .thermFailHoldExpire s =
    if loopLive s h = true ∧ s.rd (.thm .THERM_TIMING_FAIL_HOLD_MS) h 0 < s.rd (.thm .HOT_RUN) h 0 then .next (thermFail s h false)
    else .next s := by
  show execThermFailHoldExpire s = _
  unfold execThermFailHoldExpire
  rw [chipHalf_of_holder hh]

theorem execThermSensLossExpire_eq : exec .thermSensLossExpire s =
    if loopLive s h = true ∧ s.rd (.thm .THERM_TIMING_SENS_LOSS) h 0 ≤ s.rd (.thm .SENS_RUN) h 0 then .next (thermFail s h false)
    else .next s := by
  show execThermSensLossExpire s = _
  unfold execThermSensLossExpire
  rw [chipHalf_of_holder hh]

theorem execThermAutoDownExpire_eq : exec .thermAutoDownExpire s =
    if downDue s h = true then .next (platLoopRequest s h) else .next s := by
  show execThermAutoDownExpire s = _
  unfold execThermAutoDownExpire
  rw [chipHalf_of_holder hh]

theorem thermAutoDownExpire_nothing (hn : ¬ downDue s h = true ∨ 2 ≤ s.rd (.thm .PLAT_STATUS_CUR) h 0) :
    Sets .thermAutoDownExpire s [] := by
  refine sets_of_next ((execThermAutoDownExpire_eq hh).trans ?_)
  by_cases hd : downDue s h = true
  · rw [if_pos hd, platLoopRequest_of_lowest (hn.resolve_left (not_not_intro hd))]
  · exact if_neg hd

theorem thermAutoDownExpire_requests (hd : downDue s h = true) (hp : s.rd (.thm .PLAT_STATUS_PENDING) h 0 ≠ 1)
    (hc : s.rd (.thm .PLAT_STATUS_CUR) h 0 < 2) : Gives .thermAutoDownExpire s fun t => t.rd (.thm .PLAT_STATUS_PENDING) h 0 = 1 ∧
      t.rd (.thm .PLAT_STATUS_SOURCE) h 0 = 1 ∧ t.rd (.thm .PLAT_STATUS_TARGET) h 0 = s.rd (.thm .PLAT_STATUS_CUR) h 0 + 1 :=
  ⟨_, (execThermAutoDownExpire_eq hh).trans ((if_pos hd).trans (congrArg _ (platLoopRequest_of_free hc hp))), rd_platStepDown hc⟩

end

/-! ### START and MANUAL (R68, R74) -/

theorem manualOk_iff : manualOk s h = true ↔ s.rd (.thm .PLAT_STATUS_CUR) h 0 = 2 ∧ (∀ r ∈ s.requests, r.closing = true) ∧
    s.rd (.thm .THERM_STATUS_STATE) h 0 = 2 := by
  simp [manualOk, and_assoc]

/-- What an exit of the chip's own leaves. -/
theorem rd_autoExit {f : Fld} (hf : workField f = false) (hl : f ∉ leaveFields) (g : Half) (i : Nat) :
    (autoExit s).rd f g i = s.rd f g i := by
  have hleave (u : State) (ht : Touches s u leaveFields) : (leaveLowland u).rd f g i = s.rd f g i := by
    unfold leaveLowland
    extract_lets w clear s1 s2 s3
    have h3 : Touches s s3 leaveFields := by
      unfold s3 s2 s1 clear
      iterate 13 refine Touches.wr ?_ (by decide) _ _ _
      exact ht
    have hs : Leaves true s3 (serviceUpdate (lowlandOut s3)) := .serviceUpdate (.lowlandOut (.refl s3))
    rw [hs.rd hf, h3.rd hl]
  unfold autoExit
  split_ifs
  · exact hleave _ (((Touches.refl s _).wr (by decide) _ _ _).wr (by decide) _ _ _)
  · exact ((Touches.refl s leaveFields).wr (by decide) _ _ _).rd hl g i
  · rfl

section
variable (hr : s.holds h = true)
include hr

theorem thermStart_primes (h0 : s.rd (.thm .THERM_STATUS_STATE) h 0 = 0) : Gives (.thermStart h) s fun t =>
    t.rd (.thm .THERM_STATUS_STATE) h 0 = 1 ∧ t.rd (.thm .THERM_STATUS_LAST_STATUS) h 0 = ST_OK := by
  have hprime : (thermPrime s h).rd (.thm .THERM_STATUS_STATE) h 0 = 1 := by
    rw [rd_thermPrime rfl (by decide)]
    simp [Fld.width, ThmF.width]
  exact ⟨_, (if_pos hr).trans (if_pos h0), by simpa [thermStatus] using hprime, by simp [thermStatus, Fld.width, ThmF.width, ST_OK]⟩

theorem thermStart_refused (h0 : s.rd (.thm .THERM_STATUS_STATE) h 0 ≠ 0) :
    Sets (.thermStart h) s [cell (.thm .THERM_STATUS_LAST_STATUS) h 0 ST_THERM_CONFIG] :=
  ⟨_, (if_pos hr).trans (if_neg h0), thermStatus_only (by decide)⟩

theorem thermModeSet_manual (h2 : s.rd (.thm .THERM_STATUS_STATE) h 0 = 2) (hc : s.rd (.thm .PLAT_STATUS_CUR) h 0 = 2)
    (hq : ∀ r ∈ s.requests, r.closing = true) : Gives (.thermModeSet h true) s fun t =>
      t.rd (.thm .THERM_STATUS_LAST_STATUS) h 0 = ST_OK ∧ t.rd (.thm .THERM_STATUS_STATE) h 0 = 3 ∧
      t.rd (.thm .THERM_CTL_MODE) h 0 = 1 ∧ SameMem s t := by
  let u := thermStatus ((s.wr (.thm .THERM_STATUS_STATE) h 3).wr (.thm .THERM_CTL_MODE) h 1) h ST_OK
  have hl : Leaves true u (serviceUpdate u) := .serviceUpdate (.refl u)
  have he : exec (.thermModeSet h true) s = .next (serviceUpdate u) :=
    (if_pos hr).trans <| (if_pos rfl).trans <| (if_neg (by omega)).trans (if_pos (manualOk_iff.mpr ⟨hc, hq, h2⟩))
  refine ⟨_, he, ?_, ?_, ?_, hl.sameMem⟩
  · rw [hl.rd]
    simp [u, thermStatus, Fld.width, ThmF.width, ST_OK]
  · rw [hl.rd]
    simp [u, thermStatus, Fld.width, ThmF.width]
  · rw [hl.rd]
    simp [u, thermStatus, Fld.width, ThmF.width]

theorem thermModeSet_refused (h3 : s.rd (.thm .THERM_STATUS_STATE) h 0 ≠ 3) (hn : s.rd (.thm .THERM_STATUS_STATE) h 0 ≠ 2 ∨
    s.rd (.thm .PLAT_STATUS_CUR) h 0 ≠ 2 ∨ ∃ r ∈ s.requests, r.closing = false) :
    Sets (.thermModeSet h true) s [cell (.thm .THERM_STATUS_LAST_STATUS) h 0 ST_THERM_MANUAL] := by
  have hm : ¬ manualOk s h = true := by
    rw [manualOk_iff]
    rintro ⟨hc, hq, h2⟩
    rcases hn with hn | hn | ⟨r, hmem, hopen⟩
    · exact hn h2
    · exact hn hc
    · simp [hq r hmem] at hopen
  exact ⟨_, (if_pos hr).trans ((if_pos rfl).trans ((if_neg h3).trans (if_neg hm))), thermStatus_only (by decide)⟩

theorem thermModeSet_run (h3 : s.rd (.thm .THERM_STATUS_STATE) h 0 = 3) : Gives (.thermModeSet h false) s fun t =>
    t.rd (.thm .THERM_STATUS_STATE) h 0 = 2 ∧ t.rd (.thm .THERM_CTL_MODE) h 0 = 0 := by
  let u := thermStatus ((thermRun s h).wr (.thm .THERM_CTL_MODE) h 0) h ST_OK
  have hl : Leaves true u (serviceUpdate u) := .serviceUpdate (.refl u)
  refine ⟨_, (if_pos hr).trans ((if_neg (by decide)).trans (if_pos h3)), ?_, ?_⟩
  · rw [rd_autoExit rfl (by decide), hl.rd]
    simp [u, thermStatus, thermRun, Fld.width, ThmF.width]
  · rw [rd_autoExit rfl (by decide), hl.rd]
    simp [u, thermStatus]

end

/-! ### Coefficients (R96) -/

/-- Fields written one after the other, from one word. -/
theorem Only.writeFields {l : List CellVal} (ho : Only s₀ s l) (h : Half) (v : Nat) (fields : List (Fld × Nat × Nat)) :
    Only s₀ (fields.foldl (fun t f => t.wr f.1 h (v / 2 ^ f.2.1) f.2.2) s)
      ((fields.map fun f => cell f.1 h f.2.2 (v / 2 ^ f.2.1 % 2 ^ f.1.width)).reverse ++ l) := by
  induction fields generalizing s l with
  | nil => exact ho
  | cons f rest ih =>
    rw [List.map_cons, List.reverse_cons, List.append_assoc]
    exact ih (ho.wr f.1 h (v / 2 ^ f.2.1) f.2.2)

/-- The set-up lock holds no field of a THERM register. -/
def Unlocked (s : State) (h : Half) (reg : ThermReg) : Prop :=
  ∀ f ∈ thermFields reg, ¬ (thermLocked f.1 = true ∧ s.rd (.host .SETUP_LOCK_LOCK) h 0 = 1)

theorem thermStore_of_unlocked {reg : ThermReg} (v : Nat)
    (hu : Unlocked s h reg) :
    thermStore s h reg v = (thermFields reg).foldl (fun t f => t.wr f.1 h (v / 2 ^ f.2.1) f.2.2) s :=
  List.foldl_ext _ _ _ fun _ f hf => if_neg (hu f hf)

theorem thermFields_nodup (reg : ThermReg) (v : Nat) : ((cell (.thm .THERM_STATUS_LAST_STATUS) h 0 ST_OK ::
    (thermFields reg).map fun f => cell f.1 h f.2.2 (v / 2 ^ f.2.1 % 2 ^ f.1.width)).map Prod.fst).Nodup := by
  cases reg <;> simp [thermFields, cell]

/-- The valve's range is no field of the set-up lock. -/
theorem rangeV_unlocked : Unlocked s h .rangeV := by simp [Unlocked, thermFields, thermLocked]

theorem thermRangesOk_rangeV (v : Nat) : thermRangesOk (thermStore s h .rangeV v) h .rangeV =
    decide (v % 2 ^ 16 ≤ v / 2 ^ 16 % 2 ^ 16 ∧ v / 2 ^ 16 % 2 ^ 16 ≤ 25600) := by
  rw [thermStore_of_unlocked v rangeV_unlocked]
  simp [thermRangesOk, thermFields, Fld.width, ThmF.width]

section
variable (hr : s.holds h = true)
include hr

theorem thermConfigWrite_accepted {reg : ThermReg} {v : Nat}
    (hu : Unlocked s h reg)
    (hok : thermRangesOk (thermStore s h reg v) h reg = true) : Sets (.thermConfigWrite h reg v) s
      (cell (.thm .THERM_STATUS_LAST_STATUS) h 0 ST_OK ::
        (thermFields reg).map fun f => cell f.1 h f.2.2 (v / 2 ^ f.2.1 % 2 ^ f.1.width)) := by
  have ho := ((Only.refl s).writeFields h v (thermFields reg)).wr_lt (f := .thm .THERM_STATUS_LAST_STATUS) (h := h) (i := 0) (v := ST_OK)
    (by decide)
  rw [List.append_nil, ← thermStore_of_unlocked v hu] at ho
  have hp := (List.reverse_perm ((thermFields reg).map fun f => cell f.1 h f.2.2 (v / 2 ^ f.2.1 % 2 ^ f.1.width))).cons
    (cell (.thm .THERM_STATUS_LAST_STATUS) h 0 ST_OK)
  exact ⟨_, (if_pos hr).trans (if_pos hok), ho.perm hp ((hp.map Prod.fst).nodup_iff.mpr (thermFields_nodup reg v))⟩

theorem thermConfigWrite_refused {reg : ThermReg} {v : Nat} (hbad : thermRangesOk (thermStore s h reg v) h reg = false) :
    Sets (.thermConfigWrite h reg v) s [cell (.thm .THERM_STATUS_LAST_STATUS) h 0 ST_THERM_CONFIG] :=
  ⟨_, (if_pos hr).trans (if_neg (by simp [hbad])), thermStatus_only (by decide)⟩

theorem thermConfigWrite_rangeV {v : Nat} (hlo : v % 2 ^ 16 ≤ v / 2 ^ 16 % 2 ^ 16) (hhi : v / 2 ^ 16 % 2 ^ 16 ≤ 25600) :
    Sets (.thermConfigWrite h .rangeV v) s [cell (.thm .THERM_STATUS_LAST_STATUS) h 0 ST_OK,
      cell (.thm .THERM_RANGE_V_VMAX) h 0 (v / 2 ^ 16 % 2 ^ 16), cell (.thm .THERM_RANGE_V_VMIN) h 0 (v % 2 ^ 16)] := by
  have ho := thermConfigWrite_accepted hr rangeV_unlocked ((thermRangesOk_rangeV v).trans (decide_eq_true ⟨hlo, hhi⟩))
  simpa [thermFields, Fld.width, ThmF.width] using ho

end
end

/-- Settles O10: one lemma above for each command and case. -/
theorem thermalLoop : Obligations.ThermalLoop := by
  refine ⟨fun h s hr reg v manual => ?_, fun h s hh hi => ?_⟩
  · have hno : ¬ s.holds h = true := by simp [hr]
    simp only [List.mem_cons, List.not_mem_nil, or_false, forall_eq_or_imp, forall_eq]
    exact ⟨sets_of_next (if_neg hno), sets_of_next (if_neg hno), sets_of_next (if_neg hno)⟩
  have hr : s.holds h = true := holds_of_holder hh
  have hperiod (n : Nat) : s.rd (.thm .PWM_PERIOD) h n < 2 ^ 18 := (shadow_lt hi h n).1
  intro state live failed last
  refine ⟨thermStart_primes hr, thermStart_refused hr, thermModeSet_manual hr, thermModeSet_refused hr, thermModeSet_run hr,
    fun hl hd => ?_, fun hn => ?_, fun hl hd => ?_, fun hn => ?_, ⟨fun hn => ?_, fun hd hp hc => ?_⟩, fun tIn tOut tj h0 => ?_,
    fun tIn tOut tj h0 => thermLoopPeriod_takes hh hi tIn tOut tj h0, fun reg v hlock => ⟨fun hok => ?_, thermConfigWrite_refused hr⟩,
    fun v => ⟨fun hlo hhi => ?_, fun hbad => ?_⟩⟩
  · exact ⟨_, (execThermFailHoldExpire_eq hh).trans (if_pos ⟨loopLive_iff.mpr hl, hd⟩), thermFail_failed hperiod false⟩
  · refine sets_of_next ((execThermFailHoldExpire_eq hh).trans (if_neg fun ⟨hl, hd⟩ => ?_))
    exact hn.elim (· (loopLive_iff.mp hl)) (Nat.not_le.mpr hd)
  · exact ⟨_, (execThermSensLossExpire_eq hh).trans (if_pos ⟨loopLive_iff.mpr hl, hd⟩), thermFail_failed hperiod false⟩
  · refine sets_of_next ((execThermSensLossExpire_eq hh).trans (if_neg fun ⟨hl, hd⟩ => ?_))
    exact hn.elim (· (loopLive_iff.mp hl)) fun hlt => Nat.not_le.mpr hlt hd
  · exact thermAutoDownExpire_nothing hh (hn.imp_left downDue_iff.not.mpr)
  · exact thermAutoDownExpire_requests hh (downDue_iff.mpr hd) hp hc
  · exact sets_of_next ((execThermLoopPeriod_eq hh tIn tOut tj).trans (if_pos h0))
  · exact thermConfigWrite_accepted hr (fun _ _ hl => hlock hl.2) hok
  · exact thermConfigWrite_rangeV hr hlo hhi
  · exact thermConfigWrite_refused hr ((thermRangesOk_rangeV v).trans (decide_eq_false (by omega)))

end Sys2Proof
end

section
/-!
The aux connector: O14.
-/

namespace Sys2Proof

open Machine

set_option Elab.async false

/-! ### The codes of AUX_DIAG (Table 2.13) -/

theorem testBit_clearBits (x m j : Nat) : (clearBits x m).testBit j = (x.testBit j && !m.testBit j) := by
  unfold clearBits
  rw [Nat.testBit_xor, Nat.testBit_and]
  cases x.testBit j <;> cases m.testBit j <;> rfl

theorem testBit_bitsAt (x lo w j : Nat) : (bitsAt x lo w).testBit j = (decide (j < w) && x.testBit (j + lo)) := by
  rw [bitsAt, Nat.testBit_mod_two_pow, Nat.testBit_div_two_pow]

/-- Clearing two bits leaves what lies above and below them. -/
theorem clearBits_pair (d a : Nat) : clearBits d (3 * 2 ^ a) = 2 ^ (a + 2) * (d / 2 ^ (a + 2)) + d % 2 ^ a := by
  have hlow : d % 2 ^ a < 2 ^ (a + 2) := (Nat.mod_lt _ (by positivity)).trans (Nat.pow_lt_pow_right (by decide) (by omega))
  have h3 (j : Nat) : (3 * 2 ^ a).testBit j = (decide (a ≤ j) && decide (j - a < 2)) := by
    rw [Nat.testBit_mul_two_pow]
    exact congrArg _ (Nat.testBit_two_pow_sub_one 2 (j - a))
  refine Nat.eq_of_testBit_eq fun j => ?_
  rw [testBit_clearBits, h3, Nat.testBit_two_pow_mul_add _ hlow, Nat.testBit_mod_two_pow, Nat.testBit_div_two_pow]
  split_ifs with hj
  · by_cases ha : j < a
    · simp [ha]
    · simp [ha, show a ≤ j by omega, show j - a < 2 by omega]
  · simp [show ¬ j - a < 2 by omega, show j - (a + 2) + (a + 2) = j by omega]

/-- Two bits replaced: those, and every other. -/
theorem testBit_replace {c : Nat} (hc : c < 4) (d a j : Nat) : (clearBits d (3 * 2 ^ a) + c * 2 ^ a).testBit j =
    if a ≤ j ∧ j < a + 2 then c.testBit (j - a) else d.testBit j := by
  have hmod : d % 2 ^ a < 2 ^ a := Nat.mod_lt _ (by positivity)
  have hpow : 2 ^ (a + 2) = 4 * 2 ^ a := by
    rw [pow_add, mul_comm]
    norm_num
  have hlow : 2 ^ a * c + d % 2 ^ a < 2 ^ (a + 2) := by
    have hle : 2 ^ a * c ≤ 2 ^ a * 3 := Nat.mul_le_mul_left _ (by omega)
    omega
  rw [clearBits_pair, add_assoc, add_comm (d % 2 ^ a), mul_comm c, Nat.testBit_two_pow_mul_add _ hlow, Nat.testBit_two_pow_mul_add _ hmod,
    Nat.testBit_mod_two_pow, Nat.testBit_div_two_pow]
  split_ifs with h1 h2 h3 h3 h3
  · omega
  · simp [h2]
  · rfl
  · omega
  · omega
  · rw [Nat.sub_add_cancel (by omega)]

/-- The code of each output after the code of one is replaced. -/
theorem bitsAt_replace {c p i : Nat} (hc : c < 4) (d : Nat) (hi : i < 7) :
    bitsAt ((clearBits d (3 * 4 ^ p) + c * 4 ^ p) % 2 ^ 14) (2 * i) 2 = if i = p then c else bitsAt d (2 * i) 2 := by
  have h4 : 4 ^ p = 2 ^ (2 * p) := by
    rw [pow_mul]
    norm_num
  refine Nat.eq_of_testBit_eq fun j => ?_
  rw [testBit_bitsAt, Nat.testBit_mod_two_pow, h4, testBit_replace hc]
  by_cases hj : j < 2
  · rw [decide_eq_true (show j + 2 * i < 14 by omega)]
    split_ifs with hin hp hp
    · simp [hj, show j + 2 * i - 2 * p = j by omega]
    · omega
    · omega
    · simp [testBit_bitsAt, hj]
  · have hcj : c.testBit j = false := Nat.testBit_lt_two_pow (hc.trans_le (Nat.pow_le_pow_right (n := 2) (by decide) (show 2 ≤ j by omega)))
    split_ifs <;> simp [testBit_bitsAt, hj, hcj]

section
variable {s : State} {h : Half}

theorem diagCode_lt (code : DiagCode) : diagCode code < 4 := by cases code <;> decide

theorem pinNo_lt (pin : AuxPin) : pinNo pin < 7 := by cases pin <;> decide

/-- The code of an output after a code is put. -/
theorem bitsAt_diagPut {p c i : Nat} (hc : c < 4) (hi : i < 7) : bitsAt ((diagPut s h p c).rd (.thm .AUX_DIAG) h 0) (2 * i) 2 =
    if i = p then c else bitsAt (s.rd (.thm .AUX_DIAG) h 0) (2 * i) 2 := by
  rw [diagPut, State.rd_wr_self]
  exact bitsAt_replace hc _ hi

/-! ### Diagnosis (R91, R93) -/

section
variable (hh : s.holder = some h)
include hh

theorem execAuxFaultDetect_eq (pin : AuxPin) (code : DiagCode) : exec (.auxFaultDetect pin code) s =
    if canShow s h pin code then .next (raiseCause ((diagPut s h (pinNo pin) (diagCode code)).wr (.thm .AUX_SHORTED) h (diagCode code % 3)
      (pinNo pin)) 2 h (2 ^ 6)) else .next s := by
  show execAuxFaultDetect pin code s = _
  unfold execAuxFaultDetect
  rw [hh]

theorem execAuxShortRetry_of_short {pin : AuxPin} (hs : s.rd (.thm .AUX_SHORTED) h (pinNo pin) ≠ 0) (persists : Bool) :
    exec (.auxShortRetry pin persists) s = if persists then
      .next (raiseCause (diagPut s h (pinNo pin) (s.rd (.thm .AUX_SHORTED) h (pinNo pin))) 2 h (2 ^ 6))
      else .next (s.wr (.thm .AUX_SHORTED) h 0 (pinNo pin)) := by
  show execAuxShortRetry pin persists s = _
  unfold execAuxShortRetry
  rw [hh]
  exact if_neg hs

theorem auxFaultDetect_latches {pin : AuxPin} {code : DiagCode} (hc : canShow s h pin code = true) :
    Gives (.auxFaultDetect pin code) s fun t =>
      bitsAt (t.rd (.thm .AUX_DIAG) h 0) (2 * pinNo pin) 2 = diagCode code ∧ (t.rd (.thm .THERM_EVENT) h 0).testBit 6 = true := by
  let u := (diagPut s h (pinNo pin) (diagCode code)).wr (.thm .AUX_SHORTED) h (diagCode code % 3) (pinNo pin)
  have hu : Within [.thm .AUX_SHORTED] (diagPut s h (pinNo pin) (diagCode code)) u := .wr (.refl _)
  have hw : Within [.thm .THERM_EVENT] u (raiseCause u 2 h (2 ^ 6)) := .raiseCause (.refl u)
  refine ⟨_, (execAuxFaultDetect_eq hh pin code).trans (if_pos hc), ?_, testBit_raiseTherm u h (by decide) (by decide)⟩
  rw [hw.rd, hu.rd, bitsAt_diagPut (diagCode_lt code) (pinNo_lt pin), if_pos rfl]

theorem auxFaultDetect_hidden {pin : AuxPin} {code : DiagCode} (hc : canShow s h pin code = false) :
    Sets (.auxFaultDetect pin code) s [] :=
  sets_of_next ((execAuxFaultDetect_eq hh pin code).trans (if_neg (by simp [hc])))

theorem auxShortRetry_again {pin : AuxPin} (hs : s.rd (.thm .AUX_SHORTED) h (pinNo pin) ≠ 0) (hi : Inv s) :
    Gives (.auxShortRetry pin true) s fun t =>
      bitsAt (t.rd (.thm .AUX_DIAG) h 0) (2 * pinNo pin) 2 = s.rd (.thm .AUX_SHORTED) h (pinNo pin) := by
  let u := diagPut s h (pinNo pin) (s.rd (.thm .AUX_SHORTED) h (pinNo pin))
  have hw : Within [.thm .THERM_EVENT] u (raiseCause u 2 h (2 ^ 6)) := .raiseCause (.refl u)
  have hlt : s.rd (.thm .AUX_SHORTED) h (pinNo pin) < 4 := registersWithinWidth s (.thm .AUX_SHORTED) h (pinNo pin) hi
  refine ⟨_, execAuxShortRetry_of_short hh hs true, ?_⟩
  show bitsAt ((raiseCause u 2 h (2 ^ 6)).rd (.thm .AUX_DIAG) h 0) (2 * pinNo pin) 2 = _
  rw [hw.rd, bitsAt_diagPut hlt (pinNo_lt pin), if_pos rfl]

theorem auxShortRetry_ends {pin : AuxPin} (hs : s.rd (.thm .AUX_SHORTED) h (pinNo pin) ≠ 0) :
    Sets (.auxShortRetry pin false) s [cell (.thm .AUX_SHORTED) h (pinNo pin) 0] :=
  ⟨_, execAuxShortRetry_of_short hh hs false, (Only.refl s).wr_lt (by decide)⟩

end

/-- The outputs below `n` that a mask names have their codes cleared. -/
def diagCleared (s : State) (h : Half) (mask n : Nat) : State :=
  (List.range n).foldl (fun t i => if mask.testBit i then diagPut t h i 0 else t) s

theorem diagCleared_succ (s : State) (h : Half) (mask n : Nat) : diagCleared s h mask (n + 1) =
    if mask.testBit n then diagPut (diagCleared s h mask n) h n 0 else diagCleared s h mask n := by
  simp [diagCleared, List.range_succ]

theorem touches_diagCleared (s : State) (h : Half) (mask n : Nat) : Touches s (diagCleared s h mask n) [.thm .AUX_DIAG] :=
  (Touches.refl s _).foldl (fun _ _ ht => .ite (ht.wr (by decide) _ _ _) ht) _

theorem bitsAt_diagCleared (s : State) (h : Half) (mask n : Nat) {i : Nat} (hi : i < 7) :
    bitsAt ((diagCleared s h mask n).rd (.thm .AUX_DIAG) h 0) (2 * i) 2 =
      if i < n ∧ mask.testBit i = true then 0 else bitsAt (s.rd (.thm .AUX_DIAG) h 0) (2 * i) 2 := by
  induction n with
  | zero => simp [diagCleared]
  | succ n ih =>
    rw [diagCleared_succ]
    by_cases hm : mask.testBit n = true
    · rw [if_pos hm, bitsAt_diagPut (by decide) hi, ih]
      by_cases hin : i = n
      · simp [hin, hm]
      · simp [hin, show i < n + 1 ↔ i < n by omega]
    · rw [if_neg hm, ih]
      by_cases hin : i = n
      · simp [hin, hm]
      · simp [show i < n + 1 ↔ i < n by omega]

theorem auxDiagClr_clears (hr : s.holds h = true) (mask : Nat) : Gives (.auxDiagClr h mask) s fun t => Touches s t [.thm .AUX_DIAG] ∧
    ∀ i < 7, bitsAt (t.rd (.thm .AUX_DIAG) h 0) (2 * i) 2 =
      if mask.testBit i then 0 else bitsAt (s.rd (.thm .AUX_DIAG) h 0) (2 * i) 2 := by
  refine ⟨diagCleared s h mask 7, if_pos hr, touches_diagCleared s h mask 7, fun i hi => ?_⟩
  rw [bitsAt_diagCleared s h mask 7 hi]
  simp [hi]

/-! ### The key and the hand-over of drivers (R90, R92) -/

theorem rd_keyStore (s : State) (pattern : Fin 4) (k : Half) : (keyStore s pattern.val).rd (.thm .AUX_KEY_PATTERN) k 0 = pattern.val ∧
    (keyStore s pattern.val).rd (.thm .AUX_KEY_CABLE_OK) k 0 = bit (pattern.val == 1) := by
  have hp : pattern.val < 4 := pattern.isLt
  have hb : bit (pattern.val == 1) < 2 := bit_lt _
  cases k <;> simp [keyStore, Fld.width, ThmF.width, hp, hb]

theorem leaves_auxRelease (s : State) (h : Half) : Leaves false s (auxRelease s h) := .foldl (.refl s) fun _ _ ht => .drivePin ht

theorem Leaves.auxDriveAll {t : State} (ht : Leaves false s t) : Leaves false s (auxDriveAll t h) :=
  have h1 : Leaves false s (Machine.pwmDrive (Machine.pwmDrive t h 0) h 1) := .pwmDrive (.pwmDrive ht)
  .drivePin (.ite (.pwmDrive (.ite (.pwmDrive h1) (.drivePin h1))) (.drivePin (.ite (.pwmDrive h1) (.drivePin h1))))

theorem Leaves.pwmRestart {t : State} {n : Nat} (ht : Leaves false s t) : Leaves false s (pwmRestart t h n) :=
  .ite (.wr (.wr (.wr (.wr (.wr ht))))) ht

/-- A loop that fails writes its state, and what shared work writes. -/
theorem leaves_thermFail (s : State) (h : Half) (crit : Bool) :
    Leaves false (s.wr (.thm .THERM_STATUS_STATE) h 4) (thermFail s h crit) := by
  have hw : Leaves false (s.wr (.thm .THERM_STATUS_STATE) h 4)
      (platWithdraw (raiseCause (loopDuties (s.wr (.thm .THERM_STATUS_STATE) h 4) h 25600 25600) 2 h (2 ^ 5)) h) :=
    .platWithdraw (.raiseCause (.loopDuties (.refl _)))
  exact .lowlandCause (.ite (.fuseEvent hw) (.inc hw))

theorem auxKeyChange_records (p : Fin 4) (hh : s.holder = some h) (hp : p.val ≠ s.rd (.thm .AUX_KEY_PATTERN) h 0) :
    Gives (.auxKeyChange p) s fun t => ∀ k, t.rd (.thm .AUX_KEY_PATTERN) k 0 = p.val ∧
      t.rd (.thm .AUX_KEY_CABLE_OK) k 0 = bit (p.val == 1) := by
  let u := raiseTherm (keyStore s p.val) (2 ^ 7)
  have hu : Leaves false (keyStore s p.val) u := by
    unfold u raiseTherm
    split
    · exact .raiseCause (.refl _)
    · exact .refl _
  have he : exec (.auxKeyChange p) s = .next (if p.val = 1 then auxDriveAll u h
      else if loopLive s h = true then thermFail (auxRelease u h) h false else auxRelease u h) := by
    show execAuxKeyChange p s = _
    unfold execAuxKeyChange
    dsimp only
    rw [chipHalf_of_holder hh, if_neg hp]
    split_ifs <;> rfl
  have hkeep {f : Fld} (hf : workField f = false) (hn : f ≠ .thm .THERM_STATUS_STATE) (k : Half) :
      (if p.val = 1 then auxDriveAll u h
        else if loopLive s h = true then thermFail (auxRelease u h) h false else auxRelease u h).rd f k 0 =
      (keyStore s p.val).rd f k 0 := by
    split_ifs
    · rw [(Leaves.auxDriveAll (.refl u)).rd hf, hu.rd hf]
    · rw [(leaves_thermFail _ h false).rd hf, State.rd_wr, if_neg fun e => hn e.1, (leaves_auxRelease u h).rd hf, hu.rd hf]
    · rw [(leaves_auxRelease u h).rd hf, hu.rd hf]
  refine ⟨_, he, fun k => ?_⟩
  rw [hkeep rfl (by decide), hkeep rfl (by decide)]
  exact rd_keyStore s p k

theorem auxOutputDrive_drives (hr : s.holds h = true) (ho : s.rd (.thm .AUX_DRIVING) h.other 0 = 0) :
    Gives (.auxOutputDrive h) s fun t => t.rd (.thm .AUX_DRIVING) h 0 = 1 := by
  let u := s.wr (.thm .AUX_DRIVING) h 1
  have hl : Leaves false u (auxDriveAll ((List.range 4).foldl (fun t n => pwmRestart t h n) u) h) :=
    .auxDriveAll (.foldl (.refl u) fun _ _ ht => .pwmRestart ht)
  refine ⟨_, if_pos ⟨hr, ho⟩, (hl.rd rfl h 0).trans ?_⟩
  simp [u, Fld.width, ThmF.width]

end

/-- Settles O14: one lemma above for each command and case. -/
theorem auxPinsAndDiagnosis : Obligations.AuxPinsAndDiagnosis := by
  intro h s hh
  have hr : s.holds h = true := holds_of_holder hh
  exact ⟨fun p hp => auxKeyChange_records p hh hp, fun _ _ hc _ => auxFaultDetect_latches hh hc, fun _ _ hc => auxFaultDetect_hidden hh hc,
    fun _ hs hi => ⟨auxShortRetry_again hh hs hi, auxShortRetry_ends hh hs⟩, fun mask _ => auxDiagClr_clears hr mask,
    auxOutputDrive_drives hr⟩

end Sys2Proof
end

section
/-!
Straps, signed boot and the self-tests of the hubs: O15.
-/

namespace Sys2Proof

open Machine

section
variable {s : State} {h : Half}

/-! ### The chain (Table 3.6) -/

/-- The registers that the end of a step writes. -/
def stepEndFields : List Fld := [.boot .BOOT_STAGE_MAX, .boot .BOOT_STATUS_STEP]

theorem within_stageDone (s : State) (n : Nat) : Within stepEndFields s (stageDone s n) := .wr (.wr (.wr (.refl s)))

theorem rd_stageDone (s : State) {n : Nat} (hn : n < 16) : (stageDone s n).rd (.boot .BOOT_STAGE_MAX) .h0 0 = n := by
  simpa [stageDone, Fld.width, BootF.width] using hn

theorem within_hubStages (s : State) : Within stepEndFields s (hubStages s) := by
  have hstage (t : State) (n : Nat) : Within stepEndFields t (hubStage t n) := .ite (within_stageDone t n) (.refl t)
  exact .trans (.trans (hstage s 2) (hstage _ 3)) (hstage _ 4)

/-! ### Straps (R97 to R99) -/

theorem strapSample_samples (hh : hubOk s h = true) (hst : stageIs s 2 = true) (hd : s.rd (.boot .STRAP_DONE) h 0 = 0) (b p : Fin 4)
    (a : Fin 8) (m f : Bool) : Gives (.strapSample h b p a m f) s fun t => t.rd (.boot .STRAP_STATUS_BOOT_SEL) h 0 = min b.val 2 ∧
      t.rd (.boot .STRAP_STATUS_PLAT_INIT) h 0 = min p.val 2 ∧ t.rd (.boot .STRAP_STATUS_SMB_ADDR) h 0 = a.val ∧
      t.rd (.boot .STRAP_STATUS_FAB_MEDIA) h 0 = bit m ∧ t.rd (.boot .STRAP_STATUS_FIPS_MODE) h 0 = bit f ∧
      t.rd (.boot .STRAP_STATUS_BAD) h 0 = bit (b.val == 3 || p.val == 3) ∧
      t.rd (.sec .SEC_STATUS_APPROVED) h 0 = bit f ∧ t.rd (.boot .STRAP_DONE) h 0 = 1 := by
  have hw (t : State) : Within (.pkg .PASS_STATUS_SB_ALIVE :: stepEndFields) t (hubStages (sidebandUp t)) :=
    .trans (.ite (.wr (.wr (.refl t))) (.refl t)) (within_hubStages _)
  have hmin (x : Fin 4) : min x.val 2 % 2 ^ 2 = min x.val 2 := Nat.mod_eq_of_lt (by omega)
  have hbit (x : Bool) : bit x % 2 ^ 1 = bit x := Nat.mod_eq_of_lt (bit_lt x)
  refine ⟨_, if_pos ⟨hst, hh, hd⟩, ?_⟩
  simp (disch := decide) only [(hw _).eq]
  simp only [strapForce, State.rd_wr, Fld.width, BootF.width, SecF.width, hmin, hbit]
  simp

/-- A half uses the straps of the half `w` that holds the roles, and records that the two sets differ (R99). -/
def strapTaken (s : State) (w h : Half) : State :=
  (strapForce s h (s.rd (.boot .STRAP_OWN_BOOT_SEL) w 0) (s.rd (.boot .STRAP_OWN_PLAT_INIT) w 0) (s.rd (.boot .STRAP_OWN_SMB_ADDR) w 0)
    (s.rd (.boot .STRAP_OWN_FAB_MEDIA) w 0) (s.rd (.boot .STRAP_OWN_FIPS_MODE) w 0)).wr (.boot .STRAP_STATUS_MISMATCH) h 1

theorem strapCompare_takes {w : Half} (hw : s.holder = some w) (hm : mayHold s w.other = true) (hr : s.peerReachable w = true)
    (hne : strapOwn s .h0 ≠ strapOwn s .h1) (hi : Inv s) :
    Gives .strapCompare s fun t => ∀ k, t.rd (.boot .STRAP_STATUS_BOOT_SEL) k 0 = s.rd (.boot .STRAP_OWN_BOOT_SEL) w 0 ∧
      t.rd (.boot .STRAP_STATUS_PLAT_INIT) k 0 = s.rd (.boot .STRAP_OWN_PLAT_INIT) w 0 ∧
      t.rd (.boot .STRAP_STATUS_SMB_ADDR) k 0 = s.rd (.boot .STRAP_OWN_SMB_ADDR) w 0 ∧
      t.rd (.boot .STRAP_STATUS_FIPS_MODE) k 0 = s.rd (.boot .STRAP_OWN_FIPS_MODE) w 0 ∧ t.rd (.boot .STRAP_STATUS_MISMATCH) k 0 = 1 := by
  have hlt : s.rd (.boot .STRAP_OWN_BOOT_SEL) w 0 < 4 ∧ s.rd (.boot .STRAP_OWN_PLAT_INIT) w 0 < 4 ∧
      s.rd (.boot .STRAP_OWN_SMB_ADDR) w 0 < 8 ∧ s.rd (.boot .STRAP_OWN_FIPS_MODE) w 0 ≤ 1 :=
    ⟨registersWithinWidth s _ w 0 hi, registersWithinWidth s _ w 0 hi, registersWithinWidth s _ w 0 hi,
      Nat.le_of_lt_succ (registersWithinWidth s _ w 0 hi)⟩
  have he : exec .strapCompare s = .next (strapTaken (strapTaken s w .h0) w .h1) := by
    show execStrapCompare s = _
    unfold execStrapCompare
    rw [hw]
    dsimp only
    rw [if_neg (by simp [hm, hr, hne])]
    simp [strapTaken, strapForce, strapOwn]
  refine ⟨_, he, fun k => ?_⟩
  cases k <;> simpa [strapTaken, strapForce, Fld.width, BootF.width] using hlt

/-! ### Signed boot (R103, R104) -/

/-- The registers that an image and the module configuration record fill. -/
def imageFields : List Fld :=
  [.boot .THERM_SETTLE1_SLOPE, .boot .THERM_SETTLE0_HOLD, .boot .THERM_SETTLE0_TIMEOUT, .boot .THERM_SETTLE2_FLOW_PERIOD,
    .sec .FW_VERSION, .sec .ARB_STATUS_SVN]

theorem within_startImage (s : State) (h : Half) (n : Nat) (i : FlashImage) :
    Within imageFields ((s.wr (.boot .BOOT_STATUS_IMAGE) h n).wr (.boot .FW_RUNNING) h 1) (startImage s h n i) := by
  unfold startImage loadConfig
  extract_lets u
  have hu : Within imageFields u ((u.wr (.sec .FW_VERSION) h i.version).wr (.sec .ARB_STATUS_SVN) h i.svn) := .wr (.wr (.refl u))
  split
  · exact hu
  · extract_lets p v
    have hv : Within imageFields u v := .wr (.wr (.wr (.wr hu)))
    exact .ite (.upd hv) hu

/-- BOOT_SEL 0 prefers slot A: read intact and with an image that passes, it is the one that starts (R103). -/
theorem bootImage_of_preferred {i : FlashImage} (hb : s.rd (.boot .STRAP_OWN_BOOT_SEL) h 0 = 0) (ha : s.imageA = some i)
    (hv : imageValid s h i = true) (b : Bool) : bootImage s h true b = some (1, i) := by
  simp [bootImage, hb, ha, hv]

theorem bootImage_of_unread : bootImage s h false false = none := by
  unfold bootImage
  cases s.imageA <;> cases s.imageB <;> simp

section
variable (hh : hubOk s h = true) (hst : stageIs s 3 = true) (hz : s.rd (.boot .BOOT_STATUS_IMAGE) h 0 = 0)
include hh hst hz

theorem romBoot_recovery (hb : s.rd (.boot .STRAP_OWN_BOOT_SEL) h 0 = 2) (a b : Bool) : Gives (.romBoot h a b) s fun t =>
    t.rd (.boot .BOOT_STATUS_IMAGE) h 0 = 3 ∧ t.rd (.boot .FW_RUNNING) h 0 = s.rd (.boot .FW_RUNNING) h 0 := by
  refine ⟨_, (if_pos ⟨hst, hh, hz⟩).trans (if_pos hb), ?_⟩
  simp (disch := decide) [(within_hubStages _).eq, Fld.width, BootF.width]

theorem romBoot_starts {i : FlashImage} (hb : s.rd (.boot .STRAP_OWN_BOOT_SEL) h 0 = 0) (ha : s.imageA = some i)
    (hv : imageValid s h i = true) (b : Bool) : Gives (.romBoot h true b) s fun t =>
      t.rd (.boot .BOOT_STATUS_IMAGE) h 0 = 1 ∧ t.rd (.boot .FW_RUNNING) h 0 = 1 := by
  have he : exec (.romBoot h true b) s = .next (hubStages (startImage s h 1 i)) := by
    show execRomBoot h true b s = _
    simp [execRomBoot, hst, hh, hz, hb, bootImage_of_preferred hb ha hv]
  refine ⟨_, he, ?_⟩
  simp (disch := decide) [(within_hubStages _).eq, (within_startImage _ _ _ _).eq, Fld.width, BootF.width]

theorem romBoot_fails (hb : s.rd (.boot .STRAP_OWN_BOOT_SEL) h 0 ≠ 2) (hs : s.rd (.boot .BOOT_STATUS_STATUS) h 0 = 0) :
    Gives (.romBoot h false false) s fun t =>
      t.rd (.boot .BOOT_STATUS_IMAGE) h 0 = 3 ∧ t.rd (.boot .BOOT_STATUS_STATUS) h 0 = ST_BOOT_AUTH := by
  have he : exec (.romBoot h false false) s = .next (hubStages (bootFail (s.wr (.boot .BOOT_STATUS_IMAGE) h 3) h ST_BOOT_AUTH)) := by
    show execRomBoot h false false s = _
    simp [execRomBoot, hst, hh, hz, hb, bootImage_of_unread]
  refine ⟨_, he, ?_⟩
  simp (disch := decide) [(within_hubStages _).eq, bootFail, hs, Fld.width, BootF.width, ST_BOOT_AUTH]

end

/-! ### What zeroization leaves of the registers of start-up (R508, R510) -/

/-- A register of start-up and Lowland mode. -/
def bootField : Fld → Bool
  | .boot _ => true
  | _ => false

/-- Every register of start-up and Lowland mode reads in `t` as in `s`, but those that shared work writes. -/
def BootLeft (s t : State) : Prop := ∀ f h i, bootField f = true → workField f = false → t.rd f h i = s.rd f h i

section
variable {s₀ t : State}

theorem BootLeft.leaves (hs : BootLeft s₀ s) (hl : Leaves false s t) : BootLeft s₀ t :=
  fun f h i hf hw => (hl.rd hw h i).trans (hs f h i hf hw)

theorem BootLeft.refl (s : State) : BootLeft s s := fun _ _ _ _ _ => rfl

theorem BootLeft.upd (hs : BootLeft s₀ s) (e : t.regs = s.regs := by rfl) : BootLeft s₀ t := hs.leaves (.setMem (.refl s) e)

theorem BootLeft.wr {f : Fld} {v i : Nat} (hs : BootLeft s₀ s) (hf : bootField f = false := by rfl) : BootLeft s₀ (s.wr f h v i) := by
  intro g k j hg hw
  rw [State.rd_wr, if_neg (by rintro ⟨rfl, -⟩; simp [hf] at hg)]
  exact hs g k j hg hw

theorem BootLeft.ite {a b : State} {c : Prop} [Decidable c] (ha : BootLeft s₀ a) (hb : BootLeft s₀ b) :
    BootLeft s₀ (if c then a else b) := by
  split <;> assumption

theorem BootLeft.foldl {α : Type} {f : State → α → State} {l : List α} (hs : BootLeft s₀ s)
    (hf : ∀ b a, BootLeft s₀ b → BootLeft s₀ (f b a)) : BootLeft s₀ (l.foldl f s) :=
  List.foldlRecOn l f hs fun b hb a _ => hf b a hb

section
variable (hs : BootLeft s₀ s)
include hs

theorem BootLeft.ringStop {ring : Nat} : BootLeft s₀ (ringStop s h ring) :=
  .ite (.wr (.leaves (.wr (.wr hs)) (.relist (.mapChains (.refl _))))) hs

theorem BootLeft.releaseAll : BootLeft s₀ (releaseAll s h) :=
  .foldl hs fun _ _ ht => .ite (.leaves (.foldl (.wr (.wr ht)) fun _ _ hu => .ringStop hu) (.closeRequests (.refl _))) ht

theorem BootLeft.refuseMirror {m : Mirror} {st : Nat} : BootLeft s₀ (refuseMirror s m st) :=
  .ite (.wr (.wr hs)) (.ite (.wr hs) (.ite (.wr hs) hs))

theorem BootLeft.zeroKeys {p : SecKey → Bool} : BootLeft s₀ (zeroKeys s h p) :=
  .foldl (.foldl (.upd hs) fun _ _ ht => .wr ht) fun _ _ ht => .leaves ht (.endStream (.refl _))

theorem BootLeft.dropSessions : BootLeft s₀ (dropSessions s h) :=
  .upd (hs.wr (f := .sec .SEC_STATUS_CO_AUTH) (h := h) (v := 0) (i := 0))

theorem BootLeft.ideStop {i : Nat} : BootLeft s₀ (ideStop s h i) := .wr (.wr (.wr (.wr (.wr (.wr hs)))))

theorem BootLeft.zeroBlock : BootLeft s₀ (zeroBlock s h) := by
  unfold Machine.zeroBlock
  extract_lets s1 s2 s3
  have hm : BootLeft s₀ (failMirrors s h) := .foldl (.upd hs) fun _ _ ht => .refuseMirror ht
  have h1 : BootLeft s₀ s1 := .ite (.wr (.wr (.wr (.wr hm)))) hm
  have h2 : BootLeft s₀ s2 := .upd h1
  exact .foldl (.wr (.wr (.dropSessions (.zeroKeys h2)))) fun _ _ ht => .ideStop ht

end

/-- A zeroization for a cause raises the Lowland cause SECURITY, and writes no other register of start-up but those of shared work. -/
theorem securityEvent_raises (s : State) (h : Half) (status : Nat) : ∃ u, BootLeft s u ∧
    securityEvent s h status = (lowlandCause u 8).wr (.boot .LOW_STATUS) .h0 status :=
  ⟨_, .leaves (.releaseAll (.releaseAll (.wr (.zeroBlock (.wr (.zeroBlock (.refl s))))))) (.ledger (.refl _)), rfl⟩

end

/-! ### Self-tests (R105, R508) -/

section
variable (hst : stageIs s 4 = true) (hf : s.rd (.boot .FW_RUNNING) h 0 = 1) (hd : s.rd (.boot .SELFTEST_DONE) h 0 = 0)
include hst hf hd

theorem selftestPreop_passes (hm : subsMatch s h = true) :
    Gives (.selftestPreop h true) s fun t => t.rd (.boot .SELFTEST_OK) h 0 = 1 := by
  refine ⟨_, (if_pos ⟨hst, hf, hd⟩).trans (if_pos (by simpa using hm)), ?_⟩
  simp (disch := decide) [(within_hubStages _).eq, Fld.width, BootF.width]

theorem selftestPreop_fails {ok : Bool} (hm : (ok && subsMatch s h) = false) : Gives (.selftestPreop h ok) s fun t =>
    (t.rd (.boot .LOW_PEND) .h0 0).testBit 3 = true ∧ t.rd (.boot .SELFTEST_DONE) h 0 = 1 := by
  let u := bootFail (s.wr (.boot .SELFTEST_DONE) h 1) h ST_SELFTEST_FAIL
  have hu : u.rd (.boot .SELFTEST_DONE) h 0 = 1 := by
    unfold u bootFail
    split <;> simp [Fld.width, BootF.width]
  obtain ⟨v, hv, he⟩ := securityEvent_raises u h ST_SELFTEST_FAIL
  refine ⟨_, (if_pos ⟨hst, hf, hd⟩).trans (if_neg (by simp [hm])), ?_, ?_⟩
  · have hpend : ((lowlandCause v 8).wr (.boot .LOW_STATUS) .h0 ST_SELFTEST_FAIL).rd (.boot .LOW_PEND) .h0 0 =
        setBits (v.rd (.boot .LOW_PEND) .h0 0) 8 % 2 ^ 4 := by
      simp [lowlandCause, Fld.width, BootF.width]
    rw [(within_hubStages _).rd, he, hpend]
    exact testBit_setBits_mod _ (by decide) rfl
  · rw [(within_hubStages _).rd, he]
    simpa [lowlandCause] using (hv _ h 0 rfl rfl).trans hu

end
end

/-- Settles O15: one lemma above for each command and case. -/
theorem startupStrapsAndBoot : Obligations.StartupStrapsAndBoot := by
  intro h s hh
  exact ⟨fun hst hd b p a m f => strapSample_samples hh hst hd b p a m f,
    fun w hw hm hr hne hi => strapCompare_takes hw hm hr hne hi,
    fun hst hz => ⟨fun hb a b => romBoot_recovery hh hst hz hb a b, fun i hb ha hv b => romBoot_starts hh hst hz hb ha hv b,
      fun hb hs => romBoot_fails hh hst hz hb hs⟩,
    fun hst hf hd => ⟨selftestPreop_passes hst hf hd, fun _ hm => selftestPreop_fails hst hf hd hm⟩⟩

end Sys2Proof
end

section
/-!
The roles, the settling test and training: O16.
-/

namespace Sys2Proof

open Machine

section
variable {fs : List Fld} {s t : State} {h k : Half}

/-! ### The roles settled (R106, R107) -/

theorem latch_of_holds (hr : s.holds h = true) : s.rd (.flt .MC_STATUS_LATCH) h 0 = 1 := by
  unfold State.holds State.holder at hr
  split_ifs at hr with h0 h1
  · obtain rfl : Half.h0 = h := by simpa using hr
    exact h0
  · obtain rfl : Half.h1 = h := by simpa using hr
    exact h1
  · simp at hr

theorem rd_gainRoles_latch (s : State) (h : Half) : (gainRoles s h).rd (.flt .MC_STATUS_LATCH) h 0 = 1 := by
  have hl : Leaves true (setLatch s h) (gainRoles s h) := .serviceUpdate (.foldl (.refl _) fun _ _ ht => .ldgTake (.upd ht))
  have hc (u : State) : Leaves true u (raiseCause u 13 h (2 ^ 4)) := .raiseCause (.refl u)
  rw [hl.rd]
  unfold setLatch
  dsimp only
  rw [(hc _).rd]
  simp [Fld.width, FltF.width]

theorem rd_settleOn (s : State) (h : Half) : (settleOn s h).rd (.flt .MC_STATUS_LATCH) h 0 = 1 ∧
    (settleOn s h).rd (.thm .THERM_STATUS_STATE) h 0 = 1 ∧ (settleOn s h).rd (.boot .BOOT_STAGE_MAX) .h0 0 = 5 := by
  unfold settleOn
  extract_lets s1 s2 s3
  have h1 : s1.rd (.flt .MC_STATUS_LATCH) h 0 = 1 := by
    unfold s1
    split
    · exact latch_of_holds ‹_›
    · exact rd_gainRoles_latch s h
  have h2 : Within [.boot .ROLES_SETTLED, .thm .AUX_DRIVING] s1 s2 :=
    .ite (.wr (.wr (.wr (.wr (.wr (.wr (.refl s1))))))) (.wr (.wr (.refl s1)))
  have h3 : Leaves false s2 s3 := .ite (.auxDriveAll (.refl s2)) (.refl s2)
  refine ⟨?_, ?_, rd_stageDone _ (by decide)⟩
  · rw [(within_stageDone _ 5).rd, rd_thermPrime rfl (by decide), State.rd_wr, if_neg (by simp), h3.rd, h2.rd, h1]
  · rw [(within_stageDone _ 5).rd, rd_thermPrime rfl (by decide)]
    simp [Fld.width, ThmF.width]

theorem roleSettle_settles (hst : stageIs s 5 = true) (hok : s.rd (.boot .SELFTEST_OK) .h0 0 = 1) : Gives .roleSettle s fun t =>
    t.rd (.flt .MC_STATUS_LATCH) .h0 0 = 1 ∧ t.rd (.thm .THERM_STATUS_STATE) .h0 0 = 1 ∧ t.rd (.boot .BOOT_STAGE_MAX) .h0 0 = 5 :=
  ⟨_, (if_pos hst).trans (if_pos hok), rd_settleOn s .h0⟩

/-! ### The settling test (R108, R109) -/

/-- The run of good samples with one more sample taken. -/
def settleRun (s : State) (h : Half) (t tj : Nat) : Nat :=
  if s.rd (.boot .SETTLE_REF_V) .h0 0 = 1 ∧ settleGood s h t tj = true then s.rd (.boot .SETTLE_RUN) .h0 0 + 1 else 0

/-- A readable sample recorded. -/
def sampled (s : State) (h : Half) (t tj : Nat) : State :=
  (((((s.wr (.boot .SETTLE_RUN) .h0 (settleRun s h t tj)).wr (.boot .SETTLE_REF) .h0 t).wr (.boot .SETTLE_REF_V) .h0 1).wr
    (.thm .THERM_MEAS0_T_OUT) h t).wr (.thm .THERM_MEAS1_TJ_MAX) h tj).wr (.thm .CT_OUT_OK) h 1

theorem rd_settlePass (s : State) (h : Half) : (settlePass s h).rd (.thm .THERM_STATUS_STATE) h 0 = 2 := by
  have hw : Within ([.boot .LOWLAND_STATUS_CAUSE, .boot .LOW_LEFT, .boot .EXIT_RUNNING] ++ stepEndFields) (thermRun s h) (settlePass s h) :=
    .ite (.wr (.wr (.wr (.refl _)))) (.ite (.trans (.refl _) (within_stageDone _ 6)) (.refl _))
  rw [hw.rd]
  simp [thermRun, Fld.width, ThmF.width]

/-- A test that has not passed in time: FAIL with its status, and the Lowland cause THERM. -/
theorem rd_settleTimeout (s : State) (h : Half) : (settleTimeout s h).rd (.thm .THERM_STATUS_STATE) h 0 = 4 ∧
    (settleTimeout s h).rd (.thm .THERM_STATUS_LAST_STATUS) h 0 = ST_SETTLE_TIMEOUT ∧
    ((settleTimeout s h).rd (.boot .LOW_PEND) .h0 0).testBit 0 = true := by
  unfold settleTimeout
  extract_lets s1 s2
  have hw : Within (.boot .BOOT_STATUS_STATUS :: stepEndFields) s2
      (if stageIs s 6 then stageDone (bootFail s2 h ST_SETTLE_TIMEOUT) 6 else s2) :=
    .ite (.trans (.ite (.wr (.refl s2)) (.refl s2)) (within_stageDone _ 6)) (.refl s2)
  have h2 : Within [.boot .LOW_STATUS, .boot .EXIT_RUNNING] (thermStatus (thermFail s h false) h ST_SETTLE_TIMEOUT) s2 :=
    .wr (.wr (.refl _))
  refine ⟨?_, ?_, ?_⟩
  · rw [hw.rd, h2.rd, thermStatus, State.rd_wr, if_neg (by simp), (leaves_thermFail s h false).rd]
    simp [Fld.width, ThmF.width]
  · rw [hw.rd, h2.rd, thermStatus, State.rd_wr_self]
    rfl
  · obtain ⟨u, he, -⟩ := within_thermFail_counted s h false
    have hpend : (lowlandCause u 1).rd (.boot .LOW_PEND) .h0 0 = setBits (u.rd (.boot .LOW_PEND) .h0 0) 1 % 2 ^ 4 := by
      simp [lowlandCause, Fld.width, BootF.width]
    rw [hw.rd, h2.rd, thermStatus, State.rd_wr, if_neg (by simp), he, hpend]
    exact testBit_setBits_mod _ (by decide) rfl

section
variable (hh : s.holder = some h) (hp : s.rd (.thm .THERM_STATUS_STATE) h 0 = 1)
include hh hp

theorem settleSample_unreadable (tj : Nat) : Sets (.settleSample none tj) s [cell (.boot .SETTLE_RUN) .h0 0 0] := by
  have he : exec (.settleSample none tj) s = .next (s.wr (.boot .SETTLE_RUN) .h0 0) := by
    show execSettleSample none tj s = _
    simp [execSettleSample, hh, hp]
  exact ⟨_, he, (Only.refl s).wr_lt (by decide)⟩

theorem execSettleSample_readable (t tj : Nat) : exec (.settleSample (some t) tj) s =
    .next (if s.rd (.boot .THERM_SETTLE0_HOLD) h 0 ≤ settleRun s h t tj then settlePass (sampled s h t tj) h else sampled s h t tj) := by
  show execSettleSample (some t) tj s = _
  unfold execSettleSample
  rw [hh]
  exact if_neg (by simp [hp])

theorem settleSample_passes {t tj : Nat} (hv : s.rd (.boot .SETTLE_REF_V) .h0 0 = 1) (hg : settleGood s h t tj = true)
    (hn : s.rd (.boot .THERM_SETTLE0_HOLD) h 0 ≤ s.rd (.boot .SETTLE_RUN) .h0 0 + 1) :
    Gives (.settleSample (some t) tj) s fun u => u.rd (.thm .THERM_STATUS_STATE) h 0 = 2 := by
  have hrun : settleRun s h t tj = s.rd (.boot .SETTLE_RUN) .h0 0 + 1 := if_pos ⟨hv, hg⟩
  rw [← hrun] at hn
  exact ⟨_, (execSettleSample_readable hh hp t tj).trans (congrArg _ (if_pos hn)), rd_settlePass _ h⟩

theorem settleSample_bad {t tj : Nat} (hg : settleGood s h t tj = false) (hn : 0 < s.rd (.boot .THERM_SETTLE0_HOLD) h 0) :
    Gives (.settleSample (some t) tj) s fun u => u.rd (.boot .SETTLE_RUN) .h0 0 = 0 ∧ u.rd (.boot .SETTLE_REF) .h0 0 = t % 2 ^ 16 ∧
      u.rd (.thm .THERM_STATUS_STATE) h 0 = 1 := by
  have hrun : settleRun s h t tj = 0 := if_neg (by simp [hg])
  refine ⟨_, (execSettleSample_readable hh hp t tj).trans (congrArg _ (if_neg (by omega))), ?_⟩
  simp [sampled, hrun, hp, Fld.width, BootF.width]

theorem settleTimeout_fails : Gives .settleTimeout s fun t => t.rd (.thm .THERM_STATUS_STATE) h 0 = 4 ∧
    t.rd (.thm .THERM_STATUS_LAST_STATUS) h 0 = ST_SETTLE_TIMEOUT ∧ (t.rd (.boot .LOW_PEND) .h0 0).testBit 0 = true := by
  have he : exec .settleTimeout s = .next (settleTimeout s h) := by
    show execSettleTimeout s = _
    simp [execSettleTimeout, hh, hp]
  exact ⟨_, he, rd_settleTimeout s h⟩

end

/-! ### Units by the fuses (R33) -/

/-- The fuses of the hubs, the stacks and the dies. -/
def unitFuses : List Fld :=
  [.pkg .PKG_MAP_HUB0_OK, .pkg .PKG_MAP_HUB1_OK, .pkg .PKG_MAP_M0_OK, .pkg .PKG_MAP_M1_OK, .pkg .PKG_MAP_TDIE_OK]

section
variable (hw : Within fs s t) (hf : ∀ f ∈ unitFuses, f ∉ fs := by decide)
include hw hf

theorem Within.hubOk_eq (k : Half) : hubOk t k = hubOk s k := by
  unfold hubOk
  cases k with
  | h0 => rw [hw.rd rfl (hf _ (by decide))]
  | h1 => rw [hw.rd rfl (hf _ (by decide))]

theorem Within.stackFuse_eq (k : Half) : stackFuse t k = stackFuse s k := by
  unfold stackFuse
  rw [hw.hubOk_eq hf]
  cases k with
  | h0 => rw [hw.rd rfl (hf _ (by decide))]
  | h1 => rw [hw.rd rfl (hf _ (by decide))]

theorem Within.dieFuse_eq (die : Nat) : dieFuse t die = dieFuse s die := by
  unfold dieFuse
  rw [hw.hubOk_eq hf, hw.rd rfl (hf _ (by decide))]

theorem Within.stackGood_eq (hb : Fld.boot .BOOT_STATUS_HBM_FAIL ∉ fs := by decide) (hl : Fld.flt .FLT_LOST_STACK ∉ fs := by decide)
    (k : Half) : stackGood t k = stackGood s k := by
  unfold stackGood
  rw [hw.stackFuse_eq hf, hw.rd rfl hb, hw.rd rfl hl]

end

/-! ### E1: the dies (R111) -/

/-- The registers of the supply of the dies. -/
def supplyFields : List Fld := [.boot .DIE_PWR_EN, .pwr .PWR_STATUS_ARR_PG]

/-- The registers that E1 of a die writes. -/
def trainFields : List Fld := supplyFields ++ [.boot .BOOT_FAIL_DIE, .boot .BOOT_STATUS_STATUS]

theorem within_dieOff (s : State) (die : Nat) : Within supplyFields s (dieOff s die) :=
  .ite (.wr (.emit (.wr (.upd (.refl s))))) (.refl s)

theorem within_bootFail (s : State) (h : Half) (st : Nat) : Within [.boot .BOOT_STATUS_STATUS] s (bootFail s h st) :=
  .ite (.wr (.refl s)) (.refl s)

theorem within_trainDie (s : State) (failed die : Nat) : Within trainFields s (trainDie s failed die) := by
  have hon : Within trainFields s ((s.wr (.boot .DIE_PWR_EN) .h0 1 die).emit (.diePower die true)) := .emit (.wr (.refl s))
  exact .ite (.refl s) (.ite (.trans (.wr (.trans hon (within_dieOff _ die))) (within_bootFail _ _ _)) (.wr hon))

theorem within_trainDies (s : State) (failed : Nat) (l : List Nat) :
    Within trainFields s (l.foldl (fun t n => trainDie t failed n) s) := .foldl (.refl s) fun b n hb => hb.trans (within_trainDie b failed n)

/-- A die that E1 powers: it and its stack are usable, and it does not fail. -/
def Trainable (failed die : Nat) (s : State) : Prop :=
  dieFuse s die = true ∧ stackGood s (dieHalf die) = true ∧ failed.testBit die = false ∧
    (s.rd (.flt .FLT_LOST_DIE) .h0 0).testBit die = false ∧ (s.rd (.boot .BOOT_FAIL_DIE) .h0 0).testBit die = false

/-- E1 of one die leaves the supply of every other. -/
theorem rd_trainDie_supply (s : State) (failed : Nat) {n die : Nat} (hn : die ≠ n) :
    (trainDie s failed n).rd (.boot .DIE_PWR_EN) .h0 die = s.rd (.boot .DIE_PWR_EN) .h0 die := by
  have hoff (u : State) : (dieOff u n).rd (.boot .DIE_PWR_EN) .h0 die = u.rd (.boot .DIE_PWR_EN) .h0 die := by
    unfold dieOff
    split <;> simp [hn]
  unfold trainDie
  split_ifs
  · rfl
  · rw [(within_bootFail _ _ _).rd, State.rd_wr, if_neg (by simp), hoff]
    simp [hn]
  · simp [hn]

/-- A die that does not fail is not among the failed ones after E1 of any die, if it was not before. -/
theorem rd_trainDie_failed (s : State) {failed die : Nat} (hf : failed.testBit die = false)
    (hb : (s.rd (.boot .BOOT_FAIL_DIE) .h0 0).testBit die = false) (n : Nat) :
    ((trainDie s failed n).rd (.boot .BOOT_FAIL_DIE) .h0 0).testBit die = false := by
  unfold trainDie
  split_ifs with hskip hn
  · exact hb
  · have hne : n ≠ die := by
      rintro rfl
      simp [hf] at hn
    rw [(within_bootFail _ _ _).rd, State.rd_wr_self, Nat.testBit_mod_two_pow]
    simp [setBits, hb, Nat.testBit_two_pow_of_ne hne]
  · simpa using hb

theorem Trainable.trainDie {failed die : Nat} (ht : Trainable failed die s) (n : Nat) : Trainable failed die (trainDie s failed n) := by
  obtain ⟨hfuse, hstack, hgood, hlost, hfail⟩ := ht
  have hw := within_trainDie s failed n
  refine ⟨?_, ?_, hgood, ?_, rd_trainDie_failed s hgood hfail n⟩
  · rwa [hw.dieFuse_eq]
  · rwa [hw.stackGood_eq]
  · rwa [hw.rd]

theorem trainDie_powers {failed die : Nat} (ht : Trainable failed die s) :
    (trainDie s failed die).rd (.boot .DIE_PWR_EN) .h0 die = 1 := by
  obtain ⟨hfuse, hstack, hgood, hlost, hfail⟩ := ht
  by_cases hp : powered s die = true
  · have he : Machine.trainDie s failed die = s := if_pos (by simp [hp])
    rw [he]
    simpa [powered] using hp
  · simp [Machine.trainDie, hp, hfuse, hstack, hgood, hlost, hfail, Fld.width, BootF.width]

/-- A powered die stays powered through E1 of every die, its own included. -/
theorem trainDie_keeps_power {failed die : Nat} (hp : s.rd (.boot .DIE_PWR_EN) .h0 die = 1) (n : Nat) :
    (trainDie s failed n).rd (.boot .DIE_PWR_EN) .h0 die = 1 := by
  by_cases hn : die = n
  · subst hn
    have he : trainDie s failed die = s := if_pos (by simp [powered, hp])
    rw [he, hp]
  · rw [rd_trainDie_supply s failed hn, hp]

theorem trainDies_power {failed die : Nat} {l : List Nat} (hl : die ∈ l) (ht : Trainable failed die s) :
    (l.foldl (fun u n => trainDie u failed n) s).rd (.boot .DIE_PWR_EN) .h0 die = 1 := by
  induction l generalizing s with
  | nil => simp at hl
  | cons n l ih =>
    by_cases hn : die = n
    · subst hn
      exact List.foldlRecOn (motive := fun u : State => u.rd (.boot .DIE_PWR_EN) .h0 die = 1) l _ (trainDie_powers ht)
        fun u hu m _ => trainDie_keeps_power hu m
    · exact ih (by simpa [hn] using hl) (ht.trainDie n)

theorem stageIs_other {m n : Nat} (hst : stageIs s n = true) (hm : m ≠ n) : stageIs s m = false := by
  simp only [stageIs, Bool.and_eq_true, beq_iff_eq] at hst
  simp [stageIs, hst, hm.symm]

theorem execStartupDieTrain_of_run (hst : stageIs s 7 = true) (hx : s.rd (.boot .EXIT_RUNNING) .h0 0 ≠ 2) (hr : loopInRun s = true)
    (hl : lowNow s = false) (failed : Nat) : exec (.startupDieTrain failed) s = .next (stageDone (trainDies s failed) 7) := by
  have hover : settleOver s = s := by
    unfold settleOver
    split
    · rfl
    · exact if_neg (by simp [stageIs_other hst (m := 6) (by decide)])
  show execStartupDieTrain failed s = _
  simp [execStartupDieTrain, hx, hover, hst, hr, hl]

theorem startupDieTrain_trains (hst : stageIs s 7 = true) (hx : s.rd (.boot .EXIT_RUNNING) .h0 0 ≠ 2) (hr : loopInRun s = true)
    (hl : lowNow s = false) (failed : Nat) : Gives (.startupDieTrain failed) s fun t => t.rd (.boot .BOOT_STAGE_MAX) .h0 0 = 7 ∧
      (∀ k, t.rd (.thm .ARR_LEVEL) k 0 = 2) ∧
      ∀ die < 8, dieFuse s die = true → stackGood s (dieHalf die) = true → failed.testBit die = false →
        (s.rd (.flt .FLT_LOST_DIE) .h0 0).testBit die = false → (s.rd (.boot .BOOT_FAIL_DIE) .h0 0).testBit die = false →
        t.rd (.boot .DIE_PWR_EN) .h0 die = 1 := by
  let u := (s.wr (.thm .ARR_LEVEL) .h0 2).wr (.thm .ARR_LEVEL) .h1 2
  have hu : Within [.thm .ARR_LEVEL] s u := .wr (.wr (.refl s))
  refine ⟨_, execStartupDieTrain_of_run hst hx hr hl failed, rd_stageDone _ (by decide), fun k => ?_,
    fun die hlt hfuse hstack hgood hlost hfail => ?_⟩
  · rw [(within_stageDone _ 7).rd, trainDies, (within_trainDies _ failed _).rd]
    cases k <;> simp [Fld.width, ThmF.width]
  · have ht : Trainable failed die u := by
      refine ⟨?_, ?_, hgood, ?_, ?_⟩
      · rwa [hu.dieFuse_eq]
      · rwa [hu.stackGood_eq]
      · rwa [hu.rd]
      · rwa [hu.rd]
    rw [(within_stageDone _ 7).rd]
    exact trainDies_power (List.mem_range.mpr hlt) ht

/-! ### E2: the stacks (R112) -/

theorem within_diesOff (s : State) (h : Half) : Within supplyFields s (diesOff s h) :=
  .foldl (.refl s) fun b _ hb => hb.trans (within_dieOff b _)

theorem within_stackFailed (s : State) (k : Half) :
    Within (.boot .BOOT_STATUS_STATUS :: supplyFields) s (diesOff (bootFail s k ST_HBM_TRAIN) k) :=
  .trans (.trans (.refl s) (within_bootFail s k _)) (within_diesOff _ k)

/-- The registers that E2 of a stack writes. -/
def stackFields : List Fld := [.boot .BOOT_STATUS_HBM_FAIL, .boot .HBM_OK, .boot .BOOT_STATUS_STATUS] ++ supplyFields

theorem within_trainStack (s : State) (k : Half) (fails : Bool) : Within stackFields s (trainStack s k fails) :=
  .ite (.refl s) (.ite (.trans (.wr (.wr (.refl s))) (within_stackFailed _ k)) (.wr (.refl s)))

theorem Within.lowNow_eq (hw : Within fs s t)
    (hf : ∀ f ∈ [Fld.flt .MC_STATUS_LATCH, .boot .LOWLAND_IN, .boot .LOW_PEND], f ∉ fs := by decide) : lowNow t = lowNow s := by
  unfold lowNow State.lowland State.chipHalf
  rw [hw.holder_eq (hf _ (by decide)), hw.rd rfl (hf _ (by decide)), hw.rd rfl (hf _ (by decide))]

/-- E2 of a stack that is usable by the fuses: usable, or failed outside Lowland mode. -/
theorem rd_trainStack (hk : stackFuse s k = true) (fails : Bool) :
    (fails = false → (trainStack s k fails).rd (.boot .HBM_OK) k 0 = 1) ∧
      (fails = true → lowNow s = false → (trainStack s k fails).rd (.boot .HBM_OK) k 0 = 0) := by
  refine ⟨fun hf => ?_, fun hf hl => ?_⟩
  · simp [trainStack, hk, hf, Fld.width, BootF.width]
  · simp (disch := decide) [trainStack, hk, hf, hl, (within_stackFailed _ k).eq, Fld.width, BootF.width]

theorem rd_trainStack_other (s : State) (hk : k ≠ h) (fails : Bool) :
    (trainStack s h fails).rd (.boot .HBM_OK) k 0 = s.rd (.boot .HBM_OK) k 0 := by
  unfold trainStack
  split_ifs
  · rfl
  · rw [(within_stackFailed _ h).rd]
    simp [hk]
  · simp [hk]

theorem startupHbmTrain_trains (hst : stageIs s 8 = true) (failed : Fin 4) : Gives (.startupHbmTrain failed) s fun t =>
    t.rd (.boot .BOOT_STAGE_MAX) .h0 0 = 8 ∧
      ∀ k, stackFuse s k = true → (failed.val.testBit k.num = false → t.rd (.boot .HBM_OK) k 0 = 1) ∧
        (failed.val.testBit k.num = true → lowNow s = false → t.rd (.boot .HBM_OK) k 0 = 0) := by
  have hw := within_trainStack s .h0 (failed.val.testBit 0)
  refine ⟨_, if_pos hst, rd_stageDone _ (by decide), fun k hk => ?_⟩
  rw [(within_stageDone _ 8).rd]
  cases k with
  | h0 =>
    rw [rd_trainStack_other _ (h := .h1) (by decide)]
    exact rd_trainStack hk _
  | h1 =>
    rw [← hw.lowNow_eq]
    exact rd_trainStack (by rwa [hw.stackFuse_eq]) _

/-! ### E3: the Pass (R112) -/

/-- The registers that a hub whose Pass fails E3 writes, but for shared work. -/
def passFields : List Fld :=
  [.pkg .PASS_STATUS_STATE, .pkg .PASS_STATUS_LOCK, .pkg .PASS_DOWN_TIME, .flt .PASS_DOWN_MT, .pkg .PASS_REALIGNING,
    .boot .BOOT_STATUS_PASS_FAIL, .boot .BOOT_STATUS_STATUS]

theorem rd_passFailed (hh : hubOk s h = true) : (passFailed s h).rd (.pkg .PASS_STATUS_STATE) h 0 = 3 := by
  rw [passFailed, if_pos hh]
  exact (rd_passDeclare _ h 1).1

/-- A hub whose Pass fails E3 leaves the registers of the other, and its own but those of the declaration and of shared work. -/
theorem rd_passFailed_keeps {f : Fld} (hf : workField f = false) (hk : k ≠ h ∨ f ∉ passFields) (i : Nat) :
    (passFailed s h).rd f k i = s.rd f k i := by
  unfold passFailed bootFail
  split
  · rw [(leaves_passDeclare _ h 1).rd hf]
    unfold passDeclared
    rcases hk with hk | hk
    · split <;> simp [hk]
    · simp only [passFields, List.mem_cons, List.not_mem_nil, or_false, not_or] at hk
      split <;> simp [hk]
  · rfl

theorem hubOk_passFailed (s : State) (h k : Half) : hubOk (passFailed s h) k = hubOk s k := by
  unfold hubOk
  cases k with
  | h0 => rw [rd_passFailed_keeps rfl (.inr (by decide))]
  | h1 => rw [rd_passFailed_keeps rfl (.inr (by decide))]

theorem startupPassTrain_up (hst : stageIs s 9 = true) (h0 : hubOk s .h0 = true) (h1 : hubOk s .h1 = true) {a b : Nat} (ha : a ≤ 8)
    (hb : b ≤ 8) : Gives (.startupPassTrain true a b) s fun t => ∀ k, t.rd (.pkg .PASS_STATUS_STATE) k 0 = 2 ∧
      t.rd (.pkg .PASS_STATUS_LOCK) k 0 = 1 := by
  have he : exec (.startupPassTrain true a b) s = .next (stageDone (passTrained s 2 a b) 9) := by
    show execStartupPassTrain true a b s = _
    simp [execStartupPassTrain, hst, h0, h1, ha, hb]
  refine ⟨_, he, fun k => ⟨?_, ?_⟩⟩
  · rw [(within_stageDone _ 9).rd]
    exact rd_passTrained_state s (by decide) a b k
  · rw [(within_stageDone _ 9).rd]
    cases k <;> simp [passTrained, Fld.width, PkgF.width]

theorem startupPassTrain_down (hst : stageIs s 9 = true) (h0 : hubOk s .h0 = true) (h1 : hubOk s .h1 = true) (a b : Nat) :
    Gives (.startupPassTrain false a b) s fun t => ∀ k, t.rd (.pkg .PASS_STATUS_STATE) k 0 = 3 := by
  refine ⟨_, if_pos hst, fun k => ?_⟩
  rw [(within_stageDone _ 9).rd]
  cases k with
  | h0 => exact (rd_passFailed_keeps rfl (.inl (by decide)) 0).trans (rd_passFailed h0)
  | h1 => exact rd_passFailed ((hubOk_passFailed s .h0 .h1).trans h1)

/-! ### E4: management-ready (R113) -/

theorem within_pcieReady (s : State) (h : Half) : Within [.boot .MGMT_READY] s (pcieReady s h) :=
  .ite (.ite (.emit (.wr (.wr (.refl s)))) (.wr (.wr (.refl s)))) (.refl s)

theorem rd_pcieReady (hh : hubOk s h = true) (hf : s.rd (.boot .FW_RUNNING) h 0 = 1) :
    (pcieReady s h).rd (.boot .MGMT_READY) h 0 = 1 := by
  unfold pcieReady
  rw [if_pos (by simp [hh, hf])]
  dsimp only
  split <;> simp [Fld.width, BootF.width]

theorem rd_pcieReady_other (s : State) (hk : k ≠ h) :
    (pcieReady s h).rd (.boot .MGMT_READY) k 0 = s.rd (.boot .MGMT_READY) k 0 := by
  unfold pcieReady
  dsimp only
  split_ifs <;> simp [hk]

theorem startupPcieReady_readies (hst : stageIs s 10 = true) : Gives .startupPcieReady s fun t =>
    t.rd (.boot .BOOT_STAGE_MAX) .h0 0 = 10 ∧ ∀ k, hubOk s k = true → s.rd (.boot .FW_RUNNING) k 0 = 1 →
      t.rd (.boot .MGMT_READY) k 0 = 1 := by
  have hrec (u : State) (w : Half) : Within [.sec .ARB_STATUS_ARB] u (lostDeltas (bootRecord (raiseArb u) w) w) :=
    have hu : Within [.sec .ARB_STATUS_ARB] u (bootRecord (raiseArb u) w) := .ledger (.ite (.wr (.wr (.refl u))) (.refl u))
    .ite (.ledger (.wr hu)) hu
  have hserve (u : State) : Leaves true u (serviceUpdate u) := .serviceUpdate (.refl u)
  have h0 := within_pcieReady s .h0
  refine ⟨_, if_pos hst, ?_, fun k hk hf => ?_⟩
  · rw [(hrec _ _).rd, (hserve _).rd]
    exact rd_stageDone _ (by decide)
  · rw [(hrec _ _).rd, (hserve _).rd, (within_stageDone _ 10).rd, State.rd_wr, if_neg (by simp)]
    cases k with
    | h0 => exact (rd_pcieReady_other _ (by decide)).trans (rd_pcieReady hk hf)
    | h1 => exact rd_pcieReady (by rwa [h0.hubOk_eq]) (by rwa [h0.rd])

end

/-- Settles O16: one lemma above for each command and case. -/
theorem startupRolesToTraining : Obligations.StartupRolesToTraining := by
  refine ⟨fun s => ⟨fun hst hok => roleSettle_settles hst hok, fun h hh hp => ⟨fun tj => settleSample_unreadable hh hp tj,
    fun t tj hv hg hn => settleSample_passes hh hp hv hg hn, fun t tj hg hn => settleSample_bad hh hp hg hn,
    settleTimeout_fails hh hp⟩⟩, fun s => ⟨fun hst hx hr hl failed => startupDieTrain_trains hst hx hr hl failed,
    fun hst failed => startupHbmTrain_trains hst failed, fun hst h0 h1 a b => ⟨fun ha hb => startupPassTrain_up hst h0 h1 ha hb,
    startupPassTrain_down hst h0 h1 a b⟩, fun hst => startupPcieReady_readies hst⟩⟩

end Sys2Proof
end

section
/-!
The core tests, plateau enable, the end of a start-up, and a stage beyond its bound: O17.
-/

namespace Sys2Proof

open Machine

section
variable {fs : List Fld} {s t : State} {h k : Half} {a : Nat}

/-! ### Stage F (R114) -/

/-- Every core tested and the scratchpads of the powered dies written to zero. -/
def coresTested (s : State) (failing : List Nat) : State :=
  (List.range 512).foldl testCore ((List.range 8).foldl (fun t n => t.wr (.boot .CORE_TEST) .h0 (testBits t failing n) n) s)

/-- The registers that a core's test writes. -/
def coreTestFields : List Fld := [.boot .CORE_TEST, .core .CORE_STATUS_USABLE, .tile .SP_SCRUB]

theorem within_testCore (s : State) (core : Nat) : Within coreTestFields s (testCore s core) := by
  unfold testCore
  extract_lets ok s1
  have h1 : Within coreTestFields s s1 := .wr (.refl s)
  exact .ite (.upd (h1.wr (f := .tile .SP_SCRUB) (h := coreHalf core) (v := 0) (i := core % 256))) h1

theorem within_coresTested (s : State) (failing : List Nat) : Within coreTestFields s (coresTested s failing) :=
  .foldl (.foldl (.refl s) fun _ _ hu => .wr hu (f := .boot .CORE_TEST)) fun u core hu => hu.trans (within_testCore u core)

theorem Within.dropLines (hw : Within fs s t) (l : List DieLine) : Within fs s { t with dieLines := l } := .upd hw

theorem within_zeroStack (s : State) (k : Half) : Within [] s (zeroStack s k) := .ite (.upd (.refl s)) (.refl s)

theorem dieLines_zeroStack (hl : s.dieLines = []) (k : Half) : (zeroStack s k).dieLines = [] := by
  unfold zeroStack State.wipe
  split <;> simp [hl]

theorem read_zeroStack_good (hk : stackGood s k = true) (ha : hbmBase k ≤ a ∧ a < hbmBase k + 0x600000000) :
    (zeroStack s k).mem.read a = 0 := by
  rw [zeroStack, if_pos hk]
  exact Memory.read_clearRange_in ha

/-- A byte that reads zero still does once a stack is written to zero. -/
theorem read_zeroStack_of_zero (ha : s.mem.read a = 0) (k : Half) : (zeroStack s k).mem.read a = 0 := by
  unfold zeroStack
  split_ifs
  · by_cases hin : hbmBase k ≤ a ∧ a < hbmBase k + 0x600000000
    · exact Memory.read_clearRange_in hin
    · exact (Memory.read_clearRange_out (by omega)).trans ha
  · exact ha

@[simp] theorem stageDone_mem (s : State) (n : Nat) : (stageDone s n).mem = s.mem := rfl

@[simp] theorem stageDone_dieLines (s : State) (n : Nat) : (stageDone s n).dieLines = s.dieLines := rfl

theorem execStartupCoreTest_of_run (hst : stageIs s 11 = true) (hx : s.rd (.boot .EXIT_RUNNING) .h0 0 ≠ 3) (hl : lowNow s = false)
    (failing : List Nat) : exec (.startupCoreTest failing) s =
      .next (stageDone (zeroStack (zeroStack { coresTested s failing with dieLines := [] } .h0) .h1) 11) := by
  show execStartupCoreTest failing s = _
  unfold execStartupCoreTest stageF coresTested
  rw [if_neg hx, if_pos hst, if_neg (by simp [hl])]
  dsimp only
  rw [if_pos rfl]

theorem startupCoreTest_tests (hst : stageIs s 11 = true) (hx : s.rd (.boot .EXIT_RUNNING) .h0 0 ≠ 3) (hl : lowNow s = false)
    (failing : List Nat) : Gives (.startupCoreTest failing) s fun t => t.rd (.boot .BOOT_STAGE_MAX) .h0 0 = 11 ∧ t.dieLines = [] ∧
      ∀ k, stackGood s k = true → ∀ a, hbmBase k ≤ a → a < hbmBase k + 0x600000000 → t.mem.read a = 0 := by
  have hu := (within_coresTested s failing).dropLines []
  refine ⟨_, execStartupCoreTest_of_run hst hx hl failing, rd_stageDone _ (by decide), ?_, fun k hk a hlo hhi => ?_⟩
  · rw [stageDone_dieLines]
    exact dieLines_zeroStack (dieLines_zeroStack rfl .h0) .h1
  · rw [← hu.stackGood_eq] at hk
    rw [stageDone_mem]
    cases k with
    | h0 => exact read_zeroStack_of_zero (read_zeroStack_good hk ⟨hlo, hhi⟩) .h1
    | h1 => exact read_zeroStack_good (by rwa [(within_zeroStack _ .h0).stackGood_eq]) ⟨hlo, hhi⟩

/-! ### Stage G (R115) -/

section
variable (hst : stageIs s 12 = true) (hr : loopInRun s = true) (hl : lowNow s = false)
include hst hr hl

theorem startupPlateauEnable_switches (hp : (List.range 8).any (powered s) = true) (hi : Inv s) :
    Gives .startupPlateauEnable s fun t =>
      ∀ k, t.rd (.thm .ARR_LEVEL) k 0 = s.rd (.boot .STRAP_STATUS_PLAT_INIT) s.chipHalf 0 := by
  have hlt : s.rd (.boot .STRAP_STATUS_PLAT_INIT) s.chipHalf 0 < 4 := registersWithinWidth s _ s.chipHalf 0 hi
  have he : exec .startupPlateauEnable s =
      .next (stageDone (arrLevel s (s.rd (.boot .STRAP_STATUS_PLAT_INIT) s.chipHalf 0)) 12) := by
    show execStartupPlateauEnable s = _
    unfold execStartupPlateauEnable
    dsimp only
    rw [if_pos hst, hr, hl, hp]
    rfl
  refine ⟨_, he, fun k => ?_⟩
  rw [(within_stageDone _ 12).rd]
  cases k <;> simpa [arrLevel, Fld.width, ThmF.width] using hlt

theorem plateauEnablePllTimeout_holds : Sets .plateauEnablePllTimeout s
    [cell (.thm .PLAT_STATUS_LAST_STATUS) s.chipHalf 0 ST_PLL_LOCK, cell (.boot .BOOT_STAGE_MAX) .h0 0 12,
      cell (.boot .BOOT_STATUS_STEP) .h0 0 12, cell (.boot .BOOT_STATUS_STEP) .h1 0 12] := by
  have he : exec .plateauEnablePllTimeout s = .next (stageDone (platStatus s s.chipHalf ST_PLL_LOCK) 12) := by
    show execPlateauEnablePllTimeout s = _
    simp [execPlateauEnablePllTimeout, pllTimeout, hst, hr, hl]
  have ho : Only s (stageDone (platStatus s s.chipHalf ST_PLL_LOCK) 12) _ :=
    ((((Only.refl s).wr_lt (by decide)).wr_lt (by decide)).wr_lt (by decide)).wr_lt (by decide)
  exact ⟨_, he, ho.perm (List.reverse_perm _).symm (by simp)⟩

end

/-! ### Step 13 (R117, R118) -/

/-- The registers that the judgement of a start-up writes. -/
def judgeFields : List Fld :=
  [.boot .LOWLAND_STATUS_START_FAIL_RUN, .boot .LOWLAND_STATUS_CAUSE, .boot .LOW_LEFT, .boot .LOW_PEND, .boot .LOW_STATUS]

theorem within_judge (s : State) (comp : Bool) : Within judgeFields s (judge s comp) := by
  have hleft : Within judgeFields s (leaveCauses (s.wr (.boot .LOWLAND_STATUS_START_FAIL_RUN) .h0 0) 2) := .wr (.wr (.wr (.refl s)))
  exact .ite (.ite hleft (.wr (.ledger hleft))) (.ite (.refl s) (.ite (.wr (.wr (.wr (.refl s)))) (.wr (.refl s))))

/-- Raising causes of GLB_EVT sets its bits on one half. -/
theorem rd_raiseGlb (s : State) (h : Half) (b : Nat) (k : Half) : (raiseCause s 0 h b).rd (.irq .GLB_EVT) k 0 =
    if k = h then setBits (s.rd (.irq .GLB_EVT) h 0) b % 2 ^ (Fld.irq .GLB_EVT).width else s.rd (.irq .GLB_EVT) k 0 := by
  have hr : Within [] (s.wr (.irq .GLB_EVT) h (setBits (s.rd (.irq .GLB_EVT) h 0) b)) (raiseCause s 0 h b) :=
    Within.ite (.sendMsix (.refl _)) (.refl _)
  rw [hr.rd]
  simp

theorem rd_computeReady (s : State) : (computeReady s).rd (.boot .BOOT_STAGE_MAX) .h0 0 = 13 ∧
    (computeReady s).rd (.boot .COMPUTE_READY_DONE) .h0 0 = 1 ∧
    ∀ k, ((computeReady s).rd (.irq .GLB_EVT) k 0).testBit 0 = true := by
  unfold computeReady
  extract_lets s1 comp w s2 s3 s4
  have h1 : Leaves true ((stageDone s 13).wr (.boot .COMPUTE_READY_DONE) .h0 1) s1 := .serviceUpdate (.refl _)
  have h2 : Within [.boot .BOOT_TIME_COMP] s1 s2 := .ite (.wr (.refl s1)) (.refl s1)
  have h3 : Within judgeFields s2 s3 := within_judge s2 comp
  have h4 : Within [.irq .GLB_EVT] s3 s4 := .raiseCause (.raiseCause (.refl s3))
  have hl {type : Nat} {data : List Byte} : Within [] s4 (ledger s4 w type data) := .ledger (.refl s4)
  refine ⟨?_, ?_, fun k => ?_⟩
  · rw [hl.rd, h4.rd, h3.rd, h2.rd, h1.rd, State.rd_wr, if_neg (by simp), rd_stageDone s (by decide)]
  · rw [hl.rd, h4.rd, h3.rd, h2.rd, h1.rd, State.rd_wr_self]
    rfl
  · have hset (x : Nat) : (setBits x 1 % 2 ^ (Fld.irq .GLB_EVT).width).testBit 0 = true := testBit_setBits_mod x (by decide) rfl
    rw [hl.rd]
    cases k with
    | h0 => rw [rd_raiseGlb, if_neg (by decide), rd_raiseGlb, if_pos rfl, hset]
    | h1 => rw [rd_raiseGlb, if_pos rfl, hset]

/-! ### A stage beyond its bound (§3.8) -/

theorem rd_settleTimeout_stage (hst : stageIs s 6 = true) (h : Half) : (settleTimeout s h).rd (.boot .BOOT_STAGE_MAX) .h0 0 = 6 := by
  unfold settleTimeout
  dsimp only
  rw [if_pos hst, rd_stageDone _ (by decide)]

/-- Step 6 beyond its bound ends: a loop still in PRIME fails, and nothing is left to end where it is not or nobody runs it. -/
theorem rd_endStage_settling (hst : stageIs s 6 = true) (hn : stageMax s + 1 = 6) :
    (endStage s).rd (.boot .BOOT_STAGE_MAX) .h0 0 = 6 := by
  unfold endStage
  rw [hn]
  cases hh : s.holder with
  | none =>
    simp only
    exact rd_stageDone s (by decide)
  | some h =>
    simp only
    split_ifs
    · exact rd_settleTimeout_stage hst h
    · exact rd_stageDone s (by decide)

/-- The stage that runs ends; roles that nobody takes end the settling test with them, for no loop runs (§3.5). -/
theorem rd_endStage (hp : s.rd (.boot .PWR_GOOD_PIN) .h0 0 = 1) {n : Nat} (hn : stageMax s + 1 = n) (h2 : 2 ≤ n) (h13 : n ≤ 13) :
    (endStage s).rd (.boot .BOOT_STAGE_MAX) .h0 0 = if n = 5 then 6 else n := by
  have hst : stageIs s n = true := by simp [stageIs, hn, hp]
  by_cases h6 : n = 6
  · subst h6
    exact rd_endStage_settling hst hn
  unfold endStage
  rw [hn]
  interval_cases n
  · exact rd_stageDone _ (by decide)
  · exact rd_stageDone _ (by decide)
  · exact rd_stageDone _ (by decide)
  · exact rd_stageDone _ (by decide)
  · exact absurd rfl h6
  · exact rd_stageDone _ (by decide)
  · exact rd_stageDone _ (by decide)
  · exact rd_stageDone _ (by decide)
  · exact rd_stageDone _ (by decide)
  · exact rd_stageDone _ (by decide)
  · exact rd_stageDone _ (by decide)
  · exact (rd_computeReady s).1

end

/-- Settles O17: one lemma above for each command and case. -/
theorem startupToComputeReady : Obligations.StartupToComputeReady := by
  intro s
  exact ⟨fun hst hx hl failing => startupCoreTest_tests hst hx hl failing,
    fun hst => ⟨fun hr hl hp hi => startupPlateauEnable_switches hst hr hl hp hi, fun hr hl => plateauEnablePllTimeout_holds hst hr hl⟩,
    fun hst => ⟨_, if_pos hst, rd_computeReady s⟩, fun hp n hn h2 h13 => ⟨_, if_pos hp, rd_endStage hp hn h2 h13⟩⟩

end Sys2Proof
end

section
/-!
What the operations of the host side that many commands share touch: staged low words, causes of FUNC_IRQ, errors of a ring and counted
accesses; then the doorbells of submission rings: O28.
-/

namespace Sys2Proof

open Machine

set_option Elab.async false

/-! ### Parts of the state that no register is in -/

section
variable {s t : State} {fs : List Fld}

/-- What looks at no register and no output reads the same in both states. -/
theorem Touches.part {α : Type} (ht : Touches s t fs) (g : State → α)
    (hg : ∀ (u : State) (r : RegFile) (o : List Output), g { u with regs := r, out := o } = g u := by intros; rfl) : g t = g s :=
  (hg t s.regs s.out).symm.trans (congrArg g ht.2)

theorem Touches.sameMem (ht : Touches s t fs) : SameMem s t := ⟨ht.part State.mem, ht.part State.slots, ht.part State.plans⟩

theorem Touches.sqSize_eq (ht : Touches s t fs)
    (hn : ∀ f ∈ [Fld.host .RING_CFG_PINNED, .host .PIN_COUNT, .host .RING_CFG_SIZE_LOG2], f ∉ fs := by decide) (h : Half) (ring : Nat) :
    sqSize t h ring = sqSize s h ring := by
  simp only [List.mem_cons, List.not_mem_nil, or_false, forall_eq_or_imp, forall_eq] at hn
  obtain ⟨h1, h2, h3⟩ := hn
  unfold sqSize
  rw [ht.rd h1, ht.rd h2, ht.rd h3]

end

section
variable (s : State) (h : Half)

/-! ### Causes of FUNC_IRQ (R166) -/

theorem touches_raiseFunc (fn b : Nat) : Touches s (raiseFunc s h fn b) irqFields :=
  (Touches.refl s _).raiseFunc (by decide) (by decide) h fn b

/-- A message changes no cause: the bits set stand. -/
theorem rd_raiseFunc_self (fn b : Nat) :
    (raiseFunc s h fn b).rd (.host .FUNC_IRQ) h fn = setBits (s.rd (.host .FUNC_IRQ) h fn) b % 2 ^ 5 := by
  have hm (u : State) : (sendMsix u h fn (s.rd (.host .FUNC_IRQ_VEC) h fn)).rd (.host .FUNC_IRQ) h fn = u.rd (.host .FUNC_IRQ) h fn :=
    ((Touches.refl u msgFields).sendMsix (fun _ x => x) h fn _).rd (by decide) h fn
  unfold raiseFunc
  dsimp only
  split
  · rw [hm, State.rd_wr_self]
    rfl
  · exact State.rd_wr_self ..

theorem testBit_raiseFunc (fn : Nat) {b m : Nat} (hb : b < 5) (hm : m.testBit b = true) :
    ((raiseFunc s h fn m).rd (.host .FUNC_IRQ) h fn).testBit b = true := by
  rw [rd_raiseFunc_self]
  exact testBit_setBits_mod _ hb hm

/-! ### Errors of a ring (Table 4.10) -/

theorem touches_ringErr (ring b : Nat) : Touches s (ringErr s h ring b) (.host .RING_ERR :: irqFields) :=
  (Touches.refl s _).ringErr (by decide) (by decide) (by decide) h ring b

theorem testBit_ringErr (ring : Nat) {b m : Nat} (hb : b < 6) (hm : m.testBit b = true) :
    ((ringErr s h ring m).rd (.host .RING_ERR) h ring).testBit b = true := by
  unfold ringErr
  rw [(touches_raiseFunc _ h (ringFn ring) 1).rd (by decide), State.rd_wr_self]
  exact testBit_setBits_mod _ hb hm

/-- An error of a ring sets its bit, and touches the ring's error register and the function's causes only. -/
theorem gives_ringErr {c : Instr} {u : State} (ring : Nat) {b m : Nat} (he : exec c s = .next (ringErr u h ring m)) (hb : b < 6)
    (hm : m.testBit b = true) :
    Gives c s fun t => (t.rd (.host .RING_ERR) h ring).testBit b = true ∧ Touches u t (.host .RING_ERR :: irqFields) :=
  ⟨_, he, testBit_ringErr u h ring hb hm, touches_ringErr u h ring m⟩

/-! ### Counted accesses (R134, R135) -/

theorem touches_countBadWidth (fn : Nat) : Touches s (countBadWidth s h fn) (.host .ACC_CNT_BAD_WIDTH :: irqFields) :=
  ((Touches.refl s _).inc (by decide) h 1 fn).raiseFunc (by decide) (by decide) h fn 0x10

theorem touches_countUnmapped (fn : Nat) : Touches s (countUnmapped s h fn) (.host .ACC_CNT_UNMAPPED :: irqFields) :=
  ((Touches.refl s _).inc (by decide) h 1 fn).raiseFunc (by decide) (by decide) h fn 0x10

theorem testBit_countBadWidth (fn : Nat) : ((countBadWidth s h fn).rd (.host .FUNC_IRQ) h fn).testBit 4 = true :=
  testBit_raiseFunc _ h fn (by decide) rfl

theorem testBit_countUnmapped (fn : Nat) : ((countUnmapped s h fn).rd (.host .FUNC_IRQ) h fn).testBit 4 = true :=
  testBit_raiseFunc _ h fn (by decide) rfl

theorem rd_countBadWidth_self (fn : Nat) : (countBadWidth s h fn).rd (.host .ACC_CNT_BAD_WIDTH) h fn =
    min (s.rd (.host .ACC_CNT_BAD_WIDTH) h fn + 1) (2 ^ 16 - 1) := by
  unfold countBadWidth
  rw [(touches_raiseFunc _ h fn 0x10).rd (by decide), State.rd_inc_self]
  rfl

theorem rd_countUnmapped_self (fn : Nat) : (countUnmapped s h fn).rd (.host .ACC_CNT_UNMAPPED) h fn =
    min (s.rd (.host .ACC_CNT_UNMAPPED) h fn + 1) (2 ^ 16 - 1) := by
  unfold countUnmapped
  rw [(touches_raiseFunc _ h fn 0x10).rd (by decide), State.rd_inc_self]
  rfl

/-! ### A staged low word dropped (R140) -/

theorem touches_dropStaged (fn : Nat) : Touches s (dropStaged s h fn) stageFields :=
  .ite (.refl s _) ((((Touches.refl s _).wr (by decide) h 0 fn).inc (by decide) h 1 fn).raiseFunc (by decide) (by decide) h fn 8)

/-- A register that dropping a staged low word does not write. -/
theorem rd_dropStaged (fn : Nat) (k : Half) (i : Nat) {f : Fld} (hf : f ∉ stageFields := by decide) :
    (dropStaged s h fn).rd f k i = s.rd f k i := (touches_dropStaged s h fn).rd hf k i

@[simp] theorem ringSt_dropStaged (fn ring : Nat) : ringSt (dropStaged s h fn) h ring = ringSt s h ring := rd_dropStaged s h fn h ring

@[simp] theorem sqSize_dropStaged (fn ring : Nat) : sqSize (dropStaged s h fn) h ring = sqSize s h ring :=
  (touches_dropStaged s h fn).sqSize_eq (by decide) h ring

end

/-! ### Doorbells (R150) -/

section
variable {s : State} {h : Half} {ring pi : Nat}

theorem execDoorbellWrite_of_unreached (hr : ringReach s h ring = false) : execDoorbellWrite h ring pi s = .next s := by
  simp [execDoorbellWrite, hr]

/-- A doorbell that reaches its ring, in the registers as they stood before the staged low word was dropped. -/
theorem execDoorbellWrite_of_reached (hi : Inv s) (hr : ringReach s h ring = true) :
    execDoorbellWrite h ring pi s =
      (let b := dropStaged s h (ringFn ring)
       let ci := s.rd (.host .RING_STATUS_CI) h ring
       let new := (pi % 65536 + 65536 - ci) % 65536
       let old := (s.rd (.host .RING_STATUS_PI) h ring + 65536 - ci) % 65536
       if ringSt s h ring = 0 ∨ ringSt s h ring = 2 then .next (ringErr b h ring 2)
       else if new = old ∧ new ≤ sqSize s h ring then .next b
       else if old ≤ new ∧ new ≤ sqSize s h ring then .next (noteDoorbell (b.wr (.host .RING_STATUS_PI) h pi ring) h ring pi)
       else .next (ringErr b h ring 1)) := by
  have hci : s.rd (.host .RING_STATUS_CI) h ring < 65536 := registersWithinWidth s (.host .RING_STATUS_CI) h ring hi
  have hnew : (pi % 65536 + 65536 - s.rd (.host .RING_STATUS_CI) h ring) % 65536 =
      (pi + 65536 - s.rd (.host .RING_STATUS_CI) h ring) % 65536 := by omega
  unfold execDoorbellWrite
  dsimp only
  rw [if_pos hr, ringSt_dropStaged, sqSize_dropStaged, rd_dropStaged s h (ringFn ring), rd_dropStaged s h (ringFn ring), hnew]

/-- An accepted doorbell: PI stored, with the time it came. -/
theorem gives_noteDoorbell (he : exec (.doorbellWrite h ring pi) s =
      .next (noteDoorbell ((dropStaged s h (ringFn ring)).wr (.host .RING_STATUS_PI) h pi ring) h ring pi)) :
    Gives (.doorbellWrite h ring pi) s fun t => t.doorbells = s.doorbells ++ [⟨h, ring, pi % 65536, s.mt h⟩] ∧
      Only { dropStaged s h (ringFn ring) with doorbells := t.doorbells } t [cell (.host .RING_STATUS_PI) h ring (pi % 65536)] := by
  have hb := touches_dropStaged s h (ringFn ring)
  have hmt : ((dropStaged s h (ringFn ring)).wr (.host .RING_STATUS_PI) h pi ring).mt h = s.mt h :=
    (State.rd_wr ..).trans (rd_dropStaged s h (ringFn ring) h 0)
  refine ⟨_, he, ?_, (Only.refl { dropStaged s h (ringFn ring) with doorbells := _ }).wr _ h pi ring⟩
  show (dropStaged s h (ringFn ring)).doorbells ++ [_] = _
  rw [hb.part State.doorbells, hmt]

end

/-- Settles O28: the branches of a doorbell that reaches its ring, one after the other. -/
theorem doorbellRange : Obligations.DoorbellRange := by
  intro h ring pi s hi
  refine ⟨fun hr => sets_of_next (execDoorbellWrite_of_unreached hr), fun hr => ?_⟩
  extract_lets b ci new old
  have he : exec (.doorbellWrite h ring pi) s = _ := execDoorbellWrite_of_reached hi hr
  refine ⟨fun ht => dropStaged_of_none ht, fun hst => ?_, fun hst => ?_⟩
  · replace he := he.trans (if_neg (by omega))
    refine ⟨fun hle hsz => ⟨fun hne => ?_, fun heq => ?_⟩, fun hbad => ?_⟩
    · exact gives_noteDoorbell (he.trans ((if_neg fun hc => hne hc.1).trans (if_pos ⟨hle, hsz⟩)))
    · exact ⟨b, he.trans (if_pos ⟨heq, hsz⟩), rfl⟩
    · refine gives_ringErr s h ring (he.trans ((if_neg ?_).trans (if_neg ?_))) (by decide) rfl
      · omega
      · omega
  · exact gives_ringErr s h ring (he.trans (if_pos hst)) (by decide) rfl

end Sys2Proof
end

section
/-!
Pinned slots: O30.
-/

namespace Sys2Proof

open Machine

set_option Elab.async false

/-! ### PIN_ALLOC (R157) -/

/-- The counts that PIN_ALLOC takes: 0 and the powers of two up to 64. -/
theorem pinCounts_contains_iff (count : Nat) :
    [0, 1, 2, 4, 8, 16, 32, 64].contains count = true ↔ count = 0 ∨ ∃ k < 7, count = 2 ^ k := by
  constructor
  · intro hc
    simp only [List.contains_eq_mem, List.mem_cons, List.not_mem_nil, or_false, decide_eq_true_eq] at hc
    rcases hc with rfl | rfl | rfl | rfl | rfl | rfl | rfl | rfl
    · exact .inl rfl
    · exact .inr ⟨0, by decide, rfl⟩
    · exact .inr ⟨1, by decide, rfl⟩
    · exact .inr ⟨2, by decide, rfl⟩
    · exact .inr ⟨3, by decide, rfl⟩
    · exact .inr ⟨4, by decide, rfl⟩
    · exact .inr ⟨5, by decide, rfl⟩
    · exact .inr ⟨6, by decide, rfl⟩
  · rintro (rfl | ⟨k, hk, rfl⟩)
    · rfl
    · interval_cases k <;> rfl

section
variable {s : State} {h : Half} {ring count : Nat}

/-- The branches of PIN_ALLOC on a ring of the half. -/
theorem execPinAllocWrite_eq (hr : ring < 520) :
    execPinAllocWrite h ring count s =
      (let free := s.rd (.host .PIN_POOL_FREE) h + s.rd (.host .PIN_COUNT) h ring
       let refuse (status : Nat) : Res := .next (s.wr (.host .PIN_POOL_LAST_STATUS) h status)
       if [0, 1, 2, 4, 8, 16, 32, 64].contains count = false then refuse ST_RING_CONFIG
       else if ringSt s h ring ≠ 0 then refuse ST_RING_BUSY
       else if free < count then refuse ST_PIN_EXHAUSTED
       else .next (zeroSlots ((((s.wr (.host .PIN_ALLOC) h count ring).wr (.host .PIN_COUNT) h count ring).wr
         (.host .PIN_POOL_FREE) h (free - count)).wr (.host .PIN_POOL_LAST_STATUS) h ST_OK) h ring)) := if_pos hr

theorem zeroSlots_read (x : Nat) : (zeroSlots s h ring).slots.read x =
    if slotByte h ring 0 0 ≤ x ∧ x < slotByte h ring 0 0 + 4096 then 0 else s.slots.read x := by
  unfold zeroSlots
  split_ifs with hx
  · exact Memory.read_clearRange_in hx
  · exact Memory.read_clearRange_out (by omega)

/-- What PIN_ALLOC stores, and the slots that it fills with zeros. -/
theorem gives_pinAlloc {free : Nat} (hc : count ≤ 64) (he : exec (.pinAllocWrite h ring count) s =
      .next (zeroSlots ((((s.wr (.host .PIN_ALLOC) h count ring).wr (.host .PIN_COUNT) h count ring).wr
        (.host .PIN_POOL_FREE) h (free - count)).wr (.host .PIN_POOL_LAST_STATUS) h ST_OK) h ring)) :
    Gives (.pinAllocWrite h ring count) s fun t =>
      RegsOnly s t [cell (.host .PIN_ALLOC) h ring count, cell (.host .PIN_COUNT) h ring count,
        cell (.host .PIN_POOL_FREE) h 0 ((free - count) % 2 ^ 13), cell (.host .PIN_POOL_LAST_STATUS) h 0 ST_OK] ∧
      { t with regs := s.regs, slots := s.slots } = s ∧
      ∀ x, t.slots.read x = if slotByte h ring 0 0 ≤ x ∧ x < slotByte h ring 0 0 + 4096 then 0 else s.slots.read x := by
  have hw : count < 2 ^ 7 := by omega
  have ho := ((((Only.refl s).wr_lt (f := .host .PIN_ALLOC) (h := h) (i := ring) hw).wr_lt (f := .host .PIN_COUNT) (h := h)
    (i := ring) hw).wr (.host .PIN_POOL_FREE) h (free - count) 0).wr_lt (f := .host .PIN_POOL_LAST_STATUS) (h := h) (i := 0)
    (show ST_OK < 2 ^ 16 by decide)
  exact ⟨_, he, (ho.perm (List.reverse_perm _).symm (by simp)).1, rfl, fun x => zeroSlots_read x⟩

end

/-! ### Slot writes (R159) -/

section
variable {s : State} {h : Half} {ring off : Nat} {data : List Byte}

@[simp] theorem slotBusy_dropStaged (fn slot : Nat) : slotBusy (dropStaged s h fn) h ring slot = slotBusy s h ring slot := by
  unfold slotBusy
  rw [rd_dropStaged s h fn h ring, rd_dropStaged s h fn h ring, sqSize_dropStaged]

theorem execPinnedSlotWrite_of_unreached (hr : ringReach s h ring = false) : execPinnedSlotWrite h ring off data s = .next s := by
  simp [execPinnedSlotWrite, hr]

/-- A slot write that reaches its ring, in the registers as they stood before the staged low word was dropped. -/
theorem execPinnedSlotWrite_of_reached (hr : ringReach s h ring = true) :
    execPinnedSlotWrite h ring off data s =
      (let b := dropStaged s h (ringFn ring)
       if data.length < 4 ∨ 64 < data.length ∨ data.length % 4 ≠ 0 ∨ off % 4 ≠ 0 then .next (countBadWidth b h (ringFn ring))
       else if s.rd (.host .RING_CFG_PINNED) h ring = 0 ∨ s.rd (.host .PIN_COUNT) h ring ≤ off / 64 then .next (ringErr b h ring 8)
       else if 64 < off % 64 + data.length then .next b
       else if slotBusy s h ring (off / 64) = true then .next (ringErr b h ring 4)
       else .next { b with slots := b.slots.writeN (slotByte h ring (off / 64) (off % 64)) data }) := by
  unfold execPinnedSlotWrite
  dsimp only
  rw [if_pos hr, slotBusy_dropStaged, rd_dropStaged s h (ringFn ring) h ring, rd_dropStaged s h (ringFn ring) h ring]

end

/-- A byte of a written run reads back. -/
theorem Machine.Memory.read_writeN_at {m : Memory} {a i : Nat} {bs : List Byte} {b : Byte} (hb : bs[i]? = some b) :
    (m.writeN a bs).read (a + i) = b := by
  obtain ⟨hlt, hb⟩ := List.getElem?_eq_some_iff.mp hb
  rw [Memory.read_writeN, dif_pos ⟨by omega, by omega⟩]
  simp only [Nat.add_sub_cancel_left, hb]

/-- Settles O30: the branches of PIN_ALLOC, then those of a slot write. -/
theorem pinnedSlots : Obligations.PinnedSlots := by
  intro h ring s hr
  refine ⟨fun count => ?_, fun off data hn => sets_of_next (execPinnedSlotWrite_of_unreached hn), fun off data hy => ?_⟩
  · extract_lets free refused good
    have he : exec (.pinAllocWrite h ring count) s = _ := execPinAllocWrite_eq hr
    have hgood : good ↔ [0, 1, 2, 4, 8, 16, 32, 64].contains count = true := (pinCounts_contains_iff count).symm
    have hin (hg : good) : ¬ [0, 1, 2, 4, 8, 16, 32, 64].contains count = false := by
      rw [hgood.mp hg]
      decide
    have hrefused {status : Nat} (hs : status < 2 ^ 16)
        (e : exec (.pinAllocWrite h ring count) s = .next (s.wr (.host .PIN_POOL_LAST_STATUS) h status)) : refused status :=
      ⟨_, e, (Only.refl s).wr_lt hs⟩
    refine ⟨fun hb => ?_, fun hg hst => ?_, fun hg hst hf => ?_, fun hg hst hf => ?_⟩
    · exact hrefused (by decide) (he.trans (if_pos (by simpa [hgood] using hb)))
    · exact hrefused (by decide) (he.trans ((if_neg (hin hg)).trans (if_pos hst)))
    · exact hrefused (by decide) (he.trans ((if_neg (hin hg)).trans ((if_neg (not_not.mpr hst)).trans (if_pos hf))))
    · have hc : count ≤ 64 := by
        rcases hg with rfl | ⟨k, hk, rfl⟩
        · omega
        · exact Nat.pow_le_pow_right (n := 2) (by decide) (show k ≤ 6 by omega)
      exact gives_pinAlloc hc (he.trans ((if_neg (hin hg)).trans ((if_neg (not_not.mpr hst)).trans
        (if_neg (by omega)))))
  · extract_lets b whole held
    have he : exec (.pinnedSlotWrite h ring off data) s = _ := execPinnedSlotWrite_of_reached hy
    have hslots : b.slots = s.slots := (touches_dropStaged s h (ringFn ring)).part State.slots
    refine ⟨fun hw => ?_, fun hw hh => ?_, fun hw hh hx => ?_, fun hw hh hx hb => ?_, fun hw hh hx hb => ?_⟩
    · exact ⟨_, he.trans (if_pos (by omega)), testBit_countBadWidth b h _, touches_countBadWidth b h _⟩
    · exact gives_ringErr s h ring (he.trans ((if_neg (by omega)).trans (if_pos (by omega)))) (by decide) rfl
    · exact ⟨b, he.trans ((if_neg (by omega)).trans ((if_neg (by omega)).trans (if_pos hx))), rfl⟩
    · refine ⟨_, he.trans ((if_neg (by omega)).trans ((if_neg (by omega)).trans ((if_neg (by omega)).trans (if_neg (by simp [hb]))))),
        rfl, fun i c hc => Memory.read_writeN_at hc, fun x hx => ?_⟩
      exact (Memory.read_writeN_out hx).trans (congrArg (Memory.read · x) hslots)
    · exact gives_ringErr s h ring (he.trans ((if_neg (by omega)).trans ((if_neg (by omega)).trans ((if_neg (by omega)).trans
        (if_pos hb))))) (by decide) rfl

end Sys2Proof
end

section
/-!
Completion rings, event rings and messages: O31.
-/

namespace Sys2Proof

open Machine

set_option Elab.async false

/-! ### Completion credits (R163) -/

/-- The registers that a ring's completion credits and the need of its next descriptor are read from. -/
def creditFields : List Fld :=
  [.host .RING_STATUS_CQ_PI, .host .RING_STATUS_CQ_CI, .host .CQ_RESERVED, .host .RING_CFG_CQ_LOG2, .host .EVT_RING_EN,
    .host .EVT_RING_RING, .host .RING_CFG_PINNED, .host .PIN_COUNT, .host .RING_CFG_SIZE_LOG2, .host .RING_STATUS_CI]

section
variable {s t : State} {fs : List Fld} (ht : Touches s t fs) (hn : ∀ f ∈ creditFields, f ∉ fs) (h : Half) (ring : Nat)
include ht

theorem Touches.landedBytes_eq : landedBytes t h ring = landedBytes s h ring := ht.part (landedBytes · h ring)

include hn

theorem Touches.rd_credit {f : Fld} (i : Nat) (hf : f ∈ creditFields := by decide) : t.rd f h i = s.rd f h i := ht.rd (hn f hf) h i

theorem Touches.cqSize_eq : cqSize t h ring = cqSize s h ring := by
  unfold cqSize
  rw [ht.rd_credit hn h ring]

theorem Touches.evtReserve_eq : evtReserve t h ring = evtReserve s h ring := by
  unfold evtReserve eventRing
  rw [ht.rd_credit hn h (ringFn ring), ht.rd_credit hn h (ringFn ring)]

theorem Touches.creditFor_eq (n : Nat) : creditFor t h ring n = creditFor s h ring n := by
  unfold creditFor cqUsed
  rw [ht.cqSize_eq hn, ht.evtReserve_eq hn, ht.rd_credit hn h ring, ht.rd_credit hn h ring, ht.rd_credit hn h ring]

theorem Touches.reserveOf_eq (head : List Byte) : reserveOf t h ring head = reserveOf s h ring head := by
  unfold reserveOf check8
  rw [ht.cqSize_eq hn, ht.evtReserve_eq hn]

theorem Touches.sqSize_credit : sqSize t h ring = sqSize s h ring :=
  ht.sqSize_eq (fun f hf => hn f (by revert f; decide)) h ring

theorem Touches.heldFor_eq : heldFor t h ring = heldFor s h ring := by
  unfold heldFor
  rw [ht.landedBytes_eq, ht.sqSize_credit hn, ht.part State.fetches]

theorem Touches.slotEntry_eq (n : Nat) : slotEntry t h ring n = slotEntry s h ring n := by
  unfold slotEntry
  rw [ht.part State.slots, ht.rd_credit hn h ring]

theorem Touches.nextNeed_eq : nextNeed t h ring = nextNeed s h ring := by
  unfold nextNeed
  dsimp only
  rw [ht.landedBytes_eq, ht.heldFor_eq hn, ht.reserveOf_eq hn, ht.rd_credit hn h ring, ht.rd_credit hn h ring, ht.slotEntry_eq hn,
    ht.reserveOf_eq hn]

end

section
variable {s : State} {h : Half} {ring : Nat}

theorem Touches.stallBit {t : State} {fs : List Fld} (ht : Touches s t fs) (hf : Fld.host .RING_STATE_CQ_STALL ∈ fs) (h : Half)
    (ring : Nat) (b : Bool) : Touches s (stallBit t h ring b) fs := ht.wr hf h _ ring

theorem touches_unstall : Touches s (unstall s h ring) [.host .RING_STATE_CQ_STALL] :=
  .ite ((Touches.refl s _).stallBit (by decide) h ring false) (.refl s _)

/-- The stall ends where the credit that the ring waits for is there, and only there. -/
theorem rd_unstall : (unstall s h ring).rd (.host .RING_STATE_CQ_STALL) h ring =
    if creditFor (unstall s h ring) h ring (nextNeed (unstall s h ring) h ring) = true then 0
    else s.rd (.host .RING_STATE_CQ_STALL) h ring := by
  have hn : ∀ f ∈ creditFields, f ∉ [Fld.host .RING_STATE_CQ_STALL] := by decide
  rw [touches_unstall.creditFor_eq hn, touches_unstall.nextNeed_eq hn]
  unfold unstall
  split
  · exact State.rd_wr_self ..
  · rfl

@[simp] theorem cqUsed_dropStaged (fn : Nat) : cqUsed (dropStaged s h fn) h ring = cqUsed s h ring := by
  unfold cqUsed
  rw [rd_dropStaged s h fn h ring, rd_dropStaged s h fn h ring]

theorem execCqDoorbellWrite_of_unreached {ci : Nat} (hr : ringReach s h ring = false) : execCqDoorbellWrite h ring ci s = .next s := by
  simp [execCqDoorbellWrite, hr]

/-- A CQ doorbell that reaches its ring, in the registers as they stood before the staged low word was dropped. -/
theorem execCqDoorbellWrite_of_reached {ci : Nat} (hr : ringReach s h ring = true) :
    execCqDoorbellWrite h ring ci s =
      (let b := dropStaged s h (ringFn ring)
       if (ci + 65536 - s.rd (.host .RING_STATUS_CQ_CI) h ring) % 65536 ≤ cqUsed s h ring then
         .next (unstall (b.wr (.host .RING_STATUS_CQ_CI) h ci ring) h ring)
       else .next (ringErr b h ring 16)) := by
  unfold execCqDoorbellWrite
  dsimp only
  rw [if_pos hr, cqUsed_dropStaged, rd_dropStaged s h (ringFn ring) h ring]

/-- Records returned (R164): CQ_CI stored, and the stall ended where the credit is back. -/
theorem gives_unstall {c : Instr} {b : State} {ci : Nat} (he : exec c s = .next (unstall (b.wr (.host .RING_STATUS_CQ_CI) h ci ring) h ring))
    (hb : b.rd (.host .RING_STATE_CQ_STALL) h ring = s.rd (.host .RING_STATE_CQ_STALL) h ring) :
    Gives c s fun t => t.rd (.host .RING_STATUS_CQ_CI) h ring = ci % 2 ^ 16 ∧
      (creditFor t h ring (nextNeed t h ring) = true → t.rd (.host .RING_STATE_CQ_STALL) h ring = 0) ∧
      (creditFor t h ring (nextNeed t h ring) = false →
        t.rd (.host .RING_STATE_CQ_STALL) h ring = s.rd (.host .RING_STATE_CQ_STALL) h ring) ∧
      Touches b t [.host .RING_STATUS_CQ_CI, .host .RING_STATE_CQ_STALL] := by
  refine ⟨_, he, ?_, fun hc => ?_, fun hc => ?_, ?_⟩
  · exact (touches_unstall.rd (by decide) h ring).trans (State.rd_wr_self ..)
  · rw [rd_unstall, if_pos hc]
  · rw [rd_unstall, if_neg (by simp [hc])]
    exact (State.rd_wr ..).trans hb
  · exact ((Touches.refl b _).wr (by decide) h ci ring).trans (touches_unstall.mono (by decide))

end

/-! ### Event rings (R165) -/

section
variable {s : State} {h : Half}

theorem execEvtRingWrite_eq {fn : Nat} {en : Bool} {ring : Fin 8} (hfn : fn ≤ pf) (hx : fnExists s h fn = true) :
    execEvtRingWrite h fn en ring s =
      if (∀ r, eventRing s h fn = some r → ringSt s h r = 0) ∧ (en = true → ringSt s h (fnRing fn ring.val) = 0) then
        .next ((s.wr (.host .EVT_RING_EN) h (bit en) fn).wr (.host .EVT_RING_RING) h ring.val fn)
      else .next (ringStatus s h (fnRing fn ring.val) ST_RING_BUSY) := by
  refine (if_pos ⟨hfn, hx⟩).trans ?_
  cases en <;> simp [Option.all_eq_true]

/-! ### Messages (R167, R168) -/

/-- A message that is neither masked nor held back leaves the device, and is counted. -/
theorem sendMsix_of_sent {fn vec : Nat} (hm : s.rd (.host .MSIX_MASK) h (fn * 64 + vec) ≠ 1) (ho : s.hostOk h fn = true) :
    sendMsix s h fn vec = (bump s h 3 4 1).emit (.msix h (routingId h fn) fn vec (s.rd (.host .MSIX_ADDR) h (fn * 64 + vec))
      (s.rd (.host .MSIX_DATA) h (fn * 64 + vec))) := (if_neg hm).trans (if_pos ho)

theorem touches_signalRing {ring : Nat} : Touches s (signalRing s h ring) [.host .COAL_SEEN, .host .MSIX_PBA, .tel .LIVE_SLOT] :=
  .ite (((Touches.refl s _).wr (by decide) h 0 ring).sendMsix (by decide) h _ _) ((Touches.refl s _).wr (by decide) h 0 ring)

theorem rd_signalRing_coalSeen {ring : Nat} : (signalRing s h ring).rd (.host .COAL_SEEN) h ring = 0 := by
  have hm (u : State) (fn vec : Nat) : (sendMsix u h fn vec).rd (.host .COAL_SEEN) h ring = u.rd (.host .COAL_SEEN) h ring :=
    ((Touches.refl u msgFields).sendMsix (fun _ x => x) h fn vec).rd (by decide) h ring
  unfold signalRing
  dsimp only
  split
  · rw [hm]
    exact State.rd_wr_self ..
  · exact State.rd_wr_self ..

theorem signalRing_out {ring : Nat} (hen : s.rd (.host .RING_CFG_CQ_IRQ_EN) h ring = 1)
    (hm : s.rd (.host .MSIX_MASK) h (ringFn ring * 64 + s.rd (.host .RING_CFG_CQ_VEC) h ring) ≠ 1)
    (ho : s.hostOk h (ringFn ring) = true) :
    (signalRing s h ring).out = s.out ++ [.msix h (routingId h (ringFn ring)) (ringFn ring) (s.rd (.host .RING_CFG_CQ_VEC) h ring)
      (s.rd (.host .MSIX_ADDR) h (ringFn ring * 64 + s.rd (.host .RING_CFG_CQ_VEC) h ring))
      (s.rd (.host .MSIX_DATA) h (ringFn ring * 64 + s.rd (.host .RING_CFG_CQ_VEC) h ring))] := by
  unfold signalRing
  dsimp only
  rw [if_pos hen, sendMsix_of_sent (by simpa using hm) (by simpa [State.hostOk] using ho)]
  simp [bump]

/-- Unmasking a vector with its PBA bit set (R168). -/
theorem msixUnmask_sends {fn vec : Nat} (hv : fn ≤ pf ∧ vec < vecCount fn) (hp : s.rd (.host .MSIX_PBA) h (fn * 64 + vec) = 1)
    (ho : s.hostOk h fn = true) : Gives (.msixUnmask h fn vec) s fun t =>
      t.out = s.out ++ [.msix h (routingId h fn) fn vec (s.rd (.host .MSIX_ADDR) h (fn * 64 + vec))
        (s.rd (.host .MSIX_DATA) h (fn * 64 + vec))] ∧
      t.rd (.host .MSIX_MASK) h (fn * 64 + vec) = 0 ∧ t.rd (.host .MSIX_PBA) h (fn * 64 + vec) = 0 ∧
      Touches s t [.host .MSIX_MASK, .host .MSIX_PBA, .tel .LIVE_SLOT] := by
  have hmask : ((s.wr (.host .MSIX_MASK) h 0 (fn * 64 + vec)).wr (.host .MSIX_PBA) h 0 (fn * 64 + vec)).rd (.host .MSIX_MASK) h
      (fn * 64 + vec) ≠ 1 := by simp
  have hok : ((s.wr (.host .MSIX_MASK) h 0 (fn * 64 + vec)).wr (.host .MSIX_PBA) h 0 (fn * 64 + vec)).hostOk h fn = true := by
    simpa [State.hostOk] using ho
  have he : exec (.msixUnmask h fn vec) s =
      .next (sendMsix ((s.wr (.host .MSIX_MASK) h 0 (fn * 64 + vec)).wr (.host .MSIX_PBA) h 0 (fn * 64 + vec)) h fn vec) :=
    (if_pos hv).trans (if_pos hp)
  refine ⟨_, he, ?_, ?_, ?_, ?_⟩
  · simp [sendMsix_of_sent hmask hok, bump]
  · simp [sendMsix_of_sent hmask hok, bump]
  · simp [sendMsix_of_sent hmask hok, bump]
  · exact (((Touches.refl s _).wr (by decide) h 0 _).wr (by decide) h 0 _).sendMsix (by decide) h fn vec

end

/-- Settles O31: one lemma above for each command. -/
theorem completionSignals : Obligations.CompletionSignals := by
  intro h s
  refine ⟨fun ring ci hr => sets_of_next (execCqDoorbellWrite_of_unreached hr), fun ring ci hr => ?_, fun fn en ring hfn hx => ?_,
    fun ring => ?_, fun fn vec hfn hv => ?_⟩
  · extract_lets b moved
    have he : exec (.cqDoorbellWrite h ring ci) s = _ := execCqDoorbellWrite_of_reached hr
    refine ⟨fun hc => gives_unstall (he.trans (if_pos hc)) (rd_dropStaged s h _ h ring), fun hc => ?_⟩
    exact gives_ringErr s h ring (he.trans (if_neg (Nat.not_le.mpr hc))) (by decide) rfl
  · extract_lets free
    have he : exec (.evtRingWrite h fn en ring) s = _ := execEvtRingWrite_eq hfn hx
    have hring : ring.val < 2 ^ 3 := ring.isLt
    have hen : bit en < 2 ^ 1 := by cases en <;> decide
    exact ⟨fun hf => ⟨_, he.trans (if_pos hf), (((Only.refl s).wr_lt hen).wr_lt hring).perm (.swap ..) (by simp)⟩,
      fun hf => ⟨_, he.trans (if_neg hf), (Only.refl s).wr_lt (by decide)⟩⟩
  · extract_lets due fn vec i
    exact ⟨fun hd => sets_of_next (if_neg hd), fun hd => ⟨_, if_pos hd, rd_signalRing_coalSeen,
      fun hen hm ho => signalRing_out hen hm ho, touches_signalRing⟩⟩
  · extract_lets i
    refine ⟨fun hp => ?_, fun hp ho => msixUnmask_sends ⟨hfn, hv⟩ hp ho⟩
    have he : exec (.msixUnmask h fn vec) s = .next (s.wr (.host .MSIX_MASK) h 0 i) := (if_pos ⟨hfn, hv⟩).trans (if_neg hp)
    exact ⟨_, he, (Only.refl s).wr_lt (by decide)⟩

end Sys2Proof
end

section
/-!
The end of contexts, as far as the host side sees it; then the set-up lock and the states of a ring: O27.
-/

namespace Sys2Proof

open Machine

set_option Elab.async false

/-! ### Contexts that leave their slots (R225, R226, R332) -/

/-- What says whose a context is and where it stands. -/
def Machine.Context.key (x : Context) : Half × Nat × Nat × Nat × Bool := (x.half, x.core, x.slot, x.ring, x.standing)

/-- A register of the host side or of the descriptors' tables. -/
def ringSide : Fld → Bool
  | .host _ | .desc _ => true
  | _ => false

/-- `t` is reached from `s` by moves of contexts: no register of `ringSide` differs, and of the other parts of the state contexts and
outputs only; with `same`, every context of `t` is one of `s` in the same slot. -/
def CtxMoves (same : Bool) (s t : State) : Prop :=
  (∀ f h i, ringSide f = true → t.rd f h i = s.rd f h i) ∧
    { t with regs := s.regs, contexts := s.contexts, out := s.out } = s ∧
    (same = true → ∀ x ∈ t.contexts, Context.key x ∈ s.contexts.map Context.key)

section
variable {same : Bool} {s₀ s t : State}

theorem CtxMoves.rd (hm : CtxMoves same s t) {f : Fld} (hf : ringSide f = true := by rfl) (h : Half) (i : Nat) :
    t.rd f h i = s.rd f h i := hm.1 f h i hf

/-- What looks at no register, context or output reads the same in both states. -/
theorem CtxMoves.part {α : Type} (hm : CtxMoves same s t) (g : State → α)
    (hg : ∀ (u : State) (r : RegFile) (c : List Context) (o : List Output), g { u with regs := r, contexts := c, out := o } = g u := by
      intros; rfl) : g t = g s :=
  (hg t s.regs s.contexts s.out).symm.trans (congrArg g hm.2.1)

theorem CtxMoves.sameMem (hm : CtxMoves same s t) : SameMem s t := ⟨hm.part State.mem, hm.part State.slots, hm.part State.plans⟩

theorem CtxMoves.refl (s : State) : CtxMoves same s s := ⟨fun _ _ _ _ => rfl, rfl, fun _ _ hx => List.mem_map_of_mem hx⟩

theorem CtxMoves.setContexts (hm : CtxMoves same s₀ s) {l : List Context}
    (hl : same = true → ∀ x ∈ l, Context.key x ∈ s.contexts.map Context.key) : CtxMoves same s₀ { s with contexts := l } := by
  refine ⟨hm.1, hm.2.1, fun hs x hx => ?_⟩
  obtain ⟨y, hy, he⟩ := List.mem_map.mp (hl hs x hx)
  exact he ▸ hm.2.2 hs y hy

theorem CtxMoves.wr (hm : CtxMoves same s₀ s) {f : Fld} {h : Half} {v i : Nat} (hf : ringSide f = false := by rfl) :
    CtxMoves same s₀ (s.wr f h v i) := by
  refine ⟨fun g k j hg => ?_, hm.2⟩
  rw [State.rd_wr, if_neg (by rintro ⟨rfl, -⟩; simp [hf] at hg)]
  exact hm.1 g k j hg

theorem CtxMoves.inc (hm : CtxMoves same s₀ s) {f : Fld} {h : Half} {n i : Nat} (hf : ringSide f = false := by rfl) :
    CtxMoves same s₀ (s.inc f h n i) := .wr hm hf

theorem CtxMoves.bump (hm : CtxMoves same s₀ s) {h : Half} {g k n : Nat} : CtxMoves same s₀ (bump s h g k n) := .inc hm

theorem CtxMoves.ite {a b : State} {c : Prop} [Decidable c] (ha : CtxMoves same s₀ a) (hb : CtxMoves same s₀ b) :
    CtxMoves same s₀ (if c then a else b) := by
  split <;> assumption

theorem CtxMoves.foldl {α : Type} {f : State → α → State} {l : List α} {b : State} (hb : CtxMoves same s₀ b)
    (hf : ∀ b a, CtxMoves same s₀ b → CtxMoves same s₀ (f b a)) : CtxMoves same s₀ (l.foldl f b) :=
  List.foldlRecOn l f hb fun b hb a _ => hf b a hb

theorem ringSide_slotFld (slot : Nat) : ringSide (slotFld slot) = false := by
  unfold slotFld
  split <;> rfl

section
variable {h : Half} {core slot : Nat} (hm : CtxMoves same s₀ s)
include hm

theorem CtxMoves.setCtx {f : Context → Context} (hf : same = true → ∀ c, (f c).key = c.key) :
    CtxMoves same s₀ (setCtx s h core slot f) := by
  refine hm.setContexts fun hs x hx => ?_
  obtain ⟨c, hc, rfl⟩ := List.mem_map.mp hx
  split
  · exact hf hs c ▸ List.mem_map_of_mem hc
  · exact List.mem_map_of_mem hc

theorem CtxMoves.untagSlot : CtxMoves same s₀ (untagSlot s h core slot) := .foldl hm fun _ _ ht => .wr ht

theorem CtxMoves.setSlot {code : Nat} : CtxMoves same s₀ (setSlot s h core slot code) :=
  have hw := hm.wr (ringSide_slotFld slot)
  .ite (.wr hw) hw

theorem CtxMoves.setSlotCtx {v part opr req : Nat} : CtxMoves same s₀ (setSlotCtx s h core slot v part opr req) :=
  .ite (.wr (.wr (.wr (.wr hm)))) (.wr (.wr (.wr (.wr hm))))

theorem CtxMoves.toArray : CtxMoves same s₀ (toArray s h core slot) := by
  unfold Machine.toArray
  extract_lets s1 s2
  have h1 : CtxMoves same s₀ s1 := .ite (.setSlot hm) hm
  have h2 : CtxMoves same s₀ s2 := (h1.setSlot).setCtx fun _ _ => rfl
  exact (h2.inc (f := .core .SWITCH_CNT)).bump

theorem CtxMoves.countPreempt : CtxMoves same s₀ (countPreempt s h) := .bump (.inc hm)

theorem CtxMoves.drain {x : Context} : CtxMoves same s₀ (drain s x) := by
  unfold Machine.drain
  extract_lets s1
  have h1 : CtxMoves same s₀ s1 := .bump (hm.inc (f := .core .PASS_CNT))
  exact h1.setCtx fun _ _ => rfl

theorem CtxMoves.resched : CtxMoves same s₀ (resched s h core) := by
  unfold Machine.resched
  extract_lets +onlyGivenNames held cand
  cases held.find? fun x => slotState s h core x.slot == 2 with
  | some x =>
    refine .ite hm ?_
    cases cand.find? fun y => y.slot != x.slot with
    | none => exact hm
    | some y => exact .ite (.toArray hm) (.ite (.countPreempt (.toArray hm)) hm)
  | none =>
    match cand with
    | [] => exact hm
    | [y] => exact .toArray hm
    | y :: z :: _ => exact .ite (.toArray hm) (.toArray hm)

theorem CtxMoves.startIdle : CtxMoves same s₀ (startIdle s h core) := .ite hm (.resched hm)

theorem CtxMoves.drainAt : CtxMoves same s₀ (drainAt s h core slot) := by
  unfold Machine.drainAt
  cases ctxAt s h core slot with
  | none => exact hm
  | some x => exact .ite (.drain hm) hm

theorem CtxMoves.dropCtx : CtxMoves same s₀ (dropCtx s h core slot) :=
  .startIdle (.setSlotCtx (.untagSlot (.setSlot ((hm.drainAt (h := h) (core := core) (slot := slot)).setContexts fun _ _ hx =>
    List.mem_map_of_mem (List.mem_of_mem_filter hx)))))

theorem CtxMoves.dropCtxs {p : Context → Bool} : CtxMoves same s₀ (dropCtxs s p) := .foldl hm fun _ _ ht => .dropCtx ht

end

theorem CtxMoves.standAgain {x : Context} (hm : CtxMoves false s₀ s) : CtxMoves false s₀ (standAgain s x) :=
  .startIdle (.setSlot (.setCtx (.drainAt hm) nofun))

theorem key_eq_iff {x y : Context} : y.key = x.key ↔
    y.half = x.half ∧ y.core = x.core ∧ y.slot = x.slot ∧ y.ring = x.ring ∧ y.standing = x.standing := by
  simp [Context.key]

/-- A slot that a context has left holds none. -/
theorem dropCtx_empty {h : Half} {core slot : Nat} {x : Context} (hx : x ∈ (dropCtx s h core slot).contexts) :
    ¬ (x.half = h ∧ x.core = core ∧ x.slot = slot) := by
  have hm : CtxMoves true
      { drainAt s h core slot with contexts := (drainAt s h core slot).contexts.filter fun c => !(c.half == h && c.core == core && c.slot == slot) }
      (dropCtx s h core slot) := .startIdle (.setSlotCtx (.untagSlot (.setSlot (.refl _))))
  obtain ⟨y, hy, he⟩ := List.mem_map.mp (hm.2.2 rfl x hx)
  obtain ⟨h1, h2, h3, -⟩ := key_eq_iff.mp he
  have hno := (List.mem_filter.mp hy).2
  rintro ⟨rfl, rfl, rfl⟩
  simp [h1, h2, h3] at hno

/-- No slot that contexts of a list have left holds one. -/
theorem dropCtx_foldl_empty {l : List Context} {x : Context}
    (hx : x ∈ (l.foldl (fun t c => dropCtx t c.half c.core c.slot) s).contexts) :
    ∀ c ∈ l, ¬ (x.half = c.half ∧ x.core = c.core ∧ x.slot = c.slot) := by
  induction l generalizing s with
  | nil => exact fun _ hc => absurd hc List.not_mem_nil
  | cons c r ih =>
    have hm : CtxMoves true (dropCtx s c.half c.core c.slot)
        (r.foldl (fun t c => dropCtx t c.half c.core c.slot) (dropCtx s c.half c.core c.slot)) :=
      .foldl (.refl _) fun _ _ ht => .dropCtx ht
    obtain ⟨y, hy, he⟩ := List.mem_map.mp (hm.2.2 rfl x hx)
    obtain ⟨h1, h2, h3, -⟩ := key_eq_iff.mp he
    refine List.forall_mem_cons.mpr ⟨?_, ih hx⟩
    rw [← h1, ← h2, ← h3]
    exact dropCtx_empty hy

/-- Once the contexts that meet a condition have left their slots, none that meets it is left. -/
theorem dropCtxs_none {p : Context → Bool} (hp : ∀ x y : Context, y.key = x.key → p y = p x) {x : Context}
    (hx : x ∈ (dropCtxs s p).contexts) : p x = false := by
  by_contra hpx
  obtain ⟨y, hy, he⟩ := List.mem_map.mp ((CtxMoves.dropCtxs (same := true) (.refl s)).2.2 rfl x hx)
  obtain ⟨h1, h2, h3, -⟩ := key_eq_iff.mp he
  have hin : y ∈ s.contexts.filter p := List.mem_filter.mpr ⟨hy, (hp x y he).trans (by simpa using hpx)⟩
  exact dropCtx_foldl_empty hx y hin ⟨h1.symm, h2.symm, h3.symm⟩

end

end Sys2Proof
end

section
/-!
The set-up lock and the states of a ring: O27.
-/

namespace Sys2Proof

open Machine

set_option Elab.async false

/-! ### The set-up lock (R143, R144) -/

section
variable {s : State} {h : Half}

theorem setupLockSet_holds :
    (s.rd (.host .SETUP_LOCK_LOCK) h 0 = 1 → Sets (.setupLockSet h) s []) ∧
    (s.rd (.host .SETUP_LOCK_LOCK) h 0 ≠ 1 →
      (s.peerReachable h = false → Sets (.setupLockSet h) s
        [cell (.host .SETUP_LOCK_LOCK) h 0 1, cell (.host .SETUP_LOCK_PEER_PENDING) h 0 1]) ∧
      (s.peerReachable h = true → Gives (.setupLockSet h) s fun t => t.out = s.out ++ [.interHalf h .setupLock] ∧
        Only { s with out := t.out } t [cell (.host .SETUP_LOCK_LOCK) h 0 1, cell (.host .SETUP_LOCK_PEER_PENDING) h 0 1,
          cell (.host .SETUP_LOCK_LOCK) h.other 0 1])) := by
  have hone : 1 < 2 ^ 1 := by decide
  have hne : h ≠ h.other := by cases h <;> decide
  have ho (u : State) : Only u ((u.wr (.host .SETUP_LOCK_LOCK) h 1).wr (.host .SETUP_LOCK_PEER_PENDING) h 1)
      [cell (.host .SETUP_LOCK_PEER_PENDING) h 0 1, cell (.host .SETUP_LOCK_LOCK) h 0 1] :=
    ((Only.refl u).wr_lt hone).wr_lt hone
  refine ⟨fun hl => sets_of_next (if_pos hl), fun hl => ⟨fun hp => ?_, fun hp => ?_⟩⟩
  · exact ⟨_, (if_neg hl).trans (if_neg (by simp [hp])), (ho s).perm (.swap ..) (by simp [cell])⟩
  · refine ⟨_, (if_neg hl).trans (if_pos hp), rfl, ?_⟩
    refine (((ho _).wr_lt (f := .host .SETUP_LOCK_LOCK) (h := h.other) (i := 0) hone).perm (List.reverse_perm _).symm ?_)
    simp [cell, Ne.symm hne]

theorem setupLockAck_holds :
    let acked : Prop := s.rd (.host .SETUP_LOCK_PEER_PENDING) h 0 = 1 ∧ s.rd (.host .SETUP_LOCK_LOCK) h.other 0 = 1 ∧
      s.peerReachable h = true
    (acked → Sets (.setupLockAck h) s [cell (.host .SETUP_LOCK_PEER_PENDING) h 0 0]) ∧ (¬ acked → Sets (.setupLockAck h) s []) :=
  ⟨fun ha => ⟨_, if_pos ha, (Only.refl s).wr_lt (by decide)⟩, fun ha => sets_of_next (if_neg ha)⟩

end

/-! ### Configuration (R147, R148) -/

section
variable {s : State} {h : Half} {ring : Nat}

theorem ringConfig_unreached (hr : ringReach s h ring = false) :
    (∀ reg v, Sets (.ringConfigWrite h ring reg v) s []) ∧ Sets (.ringEnable h ring) s [] :=
  have hn : ¬ ringReach s h ring = true := by simp [hr]
  ⟨fun _ _ => sets_of_next (if_neg hn), sets_of_next (if_neg hn)⟩

theorem ringConfigWrite_busy (hr : ringReach s h ring = true) (hst : ringSt s h ring ≠ 0) (reg : RingReg) (v : Nat) :
    Sets (.ringConfigWrite h ring reg v) s [cell (.host .RING_STATE_LAST_STATUS) h ring ST_RING_BUSY] :=
  ⟨_, (if_pos hr).trans (if_neg hst), (Only.refl s).wr_lt (by decide)⟩

/-- What a configuration write stores, register by register. -/
theorem ringConfigWrite_stores (hr : ringReach s h ring = true) (hst : ringSt s h ring = 0) (v : Nat) :
    Sets (.ringConfigWrite h ring .start v) s [cell (.host .RING_START) h ring (v % 2 ^ 16)] ∧
    Sets (.ringConfigWrite h ring .base v) s [cell (.host .RING_BASE) h ring (v / 4096 * 4096 % 2 ^ 64),
      cell (.host .RING_BASE_WRITTEN) h ring 1] ∧
    Sets (.ringConfigWrite h ring .cqBase v) s [cell (.host .CQ_BASE) h ring (v / 4096 * 4096 % 2 ^ 64),
      cell (.host .CQ_BASE_WRITTEN) h ring 1] ∧
    Sets (.ringConfigWrite h ring .coal v) s [cell (.host .RING_COAL_COAL_CNT) h ring (v / 2 ^ 16 % 2 ^ 8),
      cell (.host .RING_COAL_COAL_TIME) h ring (v % 2 ^ 16)] ∧
    Sets (.ringConfigWrite h ring .cfg v) s [cell (.host .RING_CFG_CQ_VEC) h ring (v / 2 ^ 24 % 2 ^ 6),
      cell (.host .RING_CFG_CQ_IRQ_EN) h ring (v / 2 ^ 20 % 2), cell (.host .RING_CFG_CQ_LOG2) h ring (v / 2 ^ 16 % 2 ^ 4),
      cell (.host .RING_CFG_SIZE_LOG2) h ring (v / 2 ^ 12 % 2 ^ 4), cell (.host .RING_CFG_PINNED) h ring (v / 2 ^ 8 % 2)] := by
  have he (reg : RingReg) : exec (.ringConfigWrite h ring reg v) s = .next (ringStore s h ring reg v) := (if_pos hr).trans (if_pos hst)
  have hlt (lo w : Nat) : bitsAt v lo w < 2 ^ w := Nat.mod_lt _ (by positivity)
  have hone : 1 < 2 ^ 1 := by decide
  refine ⟨⟨_, he .start, ?_⟩, ⟨_, he .base, ?_⟩, ⟨_, he .cqBase, ?_⟩, ⟨_, he .coal, ?_⟩, ⟨_, he .cfg, ?_⟩⟩
  · have ho : Only s (ringStore s h ring .start v) [cell (.host .RING_START) h ring (bitsAt v 0 16)] := (Only.refl s).wr_lt (hlt 0 16)
    rwa [bitsAt_zero] at ho
  · exact (((Only.refl s).wr (.host .RING_BASE) h (v / 4096 * 4096) ring).wr_lt hone).perm (.swap ..) (by simp)
  · exact (((Only.refl s).wr (.host .CQ_BASE) h (v / 4096 * 4096) ring).wr_lt hone).perm (.swap ..) (by simp)
  · have ho : Only s (ringStore s h ring .coal v) [cell (.host .RING_COAL_COAL_TIME) h ring (bitsAt v 0 16),
        cell (.host .RING_COAL_COAL_CNT) h ring (bitsAt v 16 8)] := ((Only.refl s).wr_lt (hlt 16 8)).wr_lt (hlt 0 16)
    rw [bitsAt_zero] at ho
    exact ho.perm (.swap ..) (by simp [cell])
  · exact (((((Only.refl s).wr_lt (f := .host .RING_CFG_CQ_VEC) (hlt 24 6)).wr_lt (f := .host .RING_CFG_CQ_IRQ_EN) (hlt 20 1)).wr_lt
      (f := .host .RING_CFG_CQ_LOG2) (hlt 16 4)).wr_lt (f := .host .RING_CFG_SIZE_LOG2) (hlt 12 4)).wr_lt
      (f := .host .RING_CFG_PINNED) (hlt 8 1) |>.perm (List.reverse_perm _).symm (by simp)

/-! ### Enable (R148) -/

theorem execRingEnable_idle (hr : ringReach s h ring = true) (hst : ringSt s h ring = 0 ∨ ringSt s h ring = 2) :
    execRingEnable h ring s = (match enableRefusal s h ring with
      | some status => .next (ringStatus s h ring status)
      | none => .next (ringStatus (ringActivate s h ring) h ring ST_OK)) :=
  (if_pos hr).trans (if_neg (by omega))

/-- The registers that an enable writes. -/
def enableFields : List Fld := [.host .RING_STATUS_PI, .host .RING_STATUS_CI, .host .RING_STATUS_CQ_PI,
  .host .RING_STATUS_CQ_CI, .host .RING_CTL_EN, .host .RING_STATE_STATE, .host .COAL_SEEN, .host .CQ_RESERVED,
  .host .RING_LOOK, .host .RING_QUIET, .sched .URG_WANT, .host .RING_STATE_CQ_STALL, .host .RING_STATE_LAST_STATUS]

/-- A ring made ACTIVE: its indices at START, and what else the enable brings back. -/
theorem ringActivate_holds (hi : Inv s) :
    let t := ringStatus (ringActivate s h ring) h ring ST_OK
    ringSt t h ring = 1 ∧
      t.rd (.host .RING_CTL_EN) h ring = 1 ∧ t.rd (.host .RING_STATUS_PI) h ring = s.rd (.host .RING_START) h ring ∧
      t.rd (.host .RING_STATUS_CI) h ring = s.rd (.host .RING_START) h ring ∧ t.rd (.host .RING_STATUS_CQ_PI) h ring = 0 ∧
      t.rd (.host .RING_STATUS_CQ_CI) h ring = 0 ∧ t.rd (.host .RING_STATE_LAST_STATUS) h ring = ST_OK ∧
      Touches { s with doorbells := t.doorbells } t enableFields := by
  have hst : s.rd (.host .RING_START) h ring < 2 ^ 16 := registersWithinWidth s (.host .RING_START) h ring hi
  have hpi : s.rd (.host .RING_START) h ring % 2 ^ (Fld.host .RING_STATUS_PI).width = s.rd (.host .RING_START) h ring :=
    Nat.mod_eq_of_lt hst
  have hci : s.rd (.host .RING_START) h ring % 2 ^ (Fld.host .RING_STATUS_CI).width = s.rd (.host .RING_START) h ring :=
    Nat.mod_eq_of_lt hst
  refine ⟨?_, ?_, ?_, ?_, ?_, ?_, ?_, ?_⟩
  · simp [ringSt, ringStatus, ringActivate, stallBit, dropDoorbells, Fld.width, HostF.width]
  · simp [ringStatus, ringActivate, stallBit, dropDoorbells, Fld.width, HostF.width]
  · simpa [ringStatus, ringActivate, stallBit, dropDoorbells] using hpi
  · simpa [ringStatus, ringActivate, stallBit, dropDoorbells] using hci
  · simp [ringStatus, ringActivate, stallBit, dropDoorbells]
  · simp [ringStatus, ringActivate, stallBit, dropDoorbells]
  · exact State.rd_wr_self ..
  · unfold ringStatus ringActivate
    extract_lets u st s1 s2 s3 s4 s5
    have h2 : Touches u s2 enableFields := ((((Touches.refl u _).wr (by decide) h st ring).wr (by decide) h st ring).wr (by decide)
      h 0 ring).wr (by decide) h 0 ring
    have h4 : Touches u s4 enableFields := (((((h2.wr (by decide) h 1 ring).wr (by decide) h 1 ring).wr (by decide) h 0 ring).wr
      (by decide) h 0 ring).wr (by decide) h 0 ring).wr (by decide) h 0 ring
    have h5 : Touches u s5 enableFields := h4.wr (by decide) h _ ring
    exact (h5.stallBit (by decide) h ring false).wr (by decide) h ST_OK ring

theorem ringEnable_idle (hr : ringReach s h ring = true) (hst : ringSt s h ring = 0 ∨ ringSt s h ring = 2) :
    (∀ status, enableRefusal s h ring = some status →
      Sets (.ringEnable h ring) s [cell (.host .RING_STATE_LAST_STATUS) h ring (status % 2 ^ 16)]) ∧
    (enableRefusal s h ring = none → exec (.ringEnable h ring) s = .next (ringStatus (ringActivate s h ring) h ring ST_OK)) := by
  have he : exec (.ringEnable h ring) s = _ := execRingEnable_idle hr hst
  refine ⟨fun status hs => ⟨ringStatus s h ring status, ?_, (Only.refl s).wr ..⟩, fun hs => ?_⟩
  · rw [he, hs]
  · rw [he, hs]

end

/-! ### Release lists (R475) -/

/-- The registers that bringing the release lists up to date may write. -/
def listFields : List Fld := [.tim .REL_COUNT_MT_N, .tim .REL_COUNT_FT_N, .tim .CMP_TARGET, .tim .CMP_STATUS_ARMED]

theorem touches_rearmList (s : State) (h : Half) (mt : Bool) : Touches s (rearmList s h mt) listFields := by
  have hcount (n : Nat) : Touches s (s.wr (if mt then .tim .REL_COUNT_MT_N else .tim .REL_COUNT_FT_N) h n) listFields :=
    (Touches.refl s _).wr (by cases mt <;> decide) h n 0
  unfold rearmList
  dsimp only
  refine .ite ?_ (hcount _)
  split
  · exact ((hcount _).wr (by decide) h _ _).wr (by decide) h 1 _
  · exact (hcount _).wr (by decide) h 0 _

theorem touches_relist (s : State) (h : Half) : Touches s (relist s h) listFields :=
  (touches_rearmList s h true).trans (touches_rearmList _ h false)

/-! ### STOPPING (R155) -/

section
variable {s : State} {h : Half} {ring : Nat}

/-- A chain that is cancelled is over, unless it has been admitted. -/
theorem cancel_done {c : Chain} (hu : c.unadmitted = true) (status : Nat) (silent : Bool) : (c.cancel status silent).done = true := by
  obtain ⟨hstage, hdone⟩ : c.stage ≠ .admitted ∧ c.done = false := by simpa [Chain.unadmitted] using hu
  simp [Chain.cancel, hstage, hdone]

theorem cancelUnadmitted_done (status : Nat) (silent : Bool) {d : Chain} (hd : d ∈ (cancelUnadmitted s h ring status silent).chains)
    (hh : d.half = h) (hr : d.ring = ring) (hs : d.stage ≠ .admitted) : d.done = true := by
  have hchains : (cancelUnadmitted s h ring status silent).chains =
      s.chains.map fun c => if c.half = h ∧ c.ring = ring ∧ c.unadmitted then c.cancel status silent else c :=
    (touches_relist _ h).part State.chains
  rw [hchains] at hd
  obtain ⟨c, -, rfl⟩ := List.mem_map.mp hd
  split_ifs at hh hr hs ⊢ with hc
  · exact cancel_done hc.2.2 status silent
  · by_contra hdone
    exact hc ⟨hh, hr, by simpa [Chain.unadmitted, hs] using hdone⟩

/-- What cancelling a ring's chains leaves: all registers but the release lists' and FETCHED, and memory. -/
theorem rd_cancelUnadmitted (status : Nat) (silent : Bool) {f : Fld} (hf : f ∉ .host .RING_STATE_FETCHED :: listFields := by decide)
    (k : Half) (i : Nat) : (cancelUnadmitted s h ring status silent).rd f k i = s.rd f k i := by
  obtain ⟨hne, hl⟩ := not_or.mp fun hm => hf (List.mem_cons.mpr hm)
  unfold cancelUnadmitted refreshFetched
  dsimp only
  rw [State.rd_wr, if_neg (by simp [hne])]
  exact (touches_relist _ h).rd hl k i

theorem sameMem_cancelUnadmitted (status : Nat) (silent : Bool) : SameMem s (cancelUnadmitted s h ring status silent) := by
  obtain ⟨m1, m2, m3⟩ := (touches_relist (mapChains s fun c =>
    if c.half = h ∧ c.ring = ring ∧ c.unadmitted then c.cancel status silent else c) h).sameMem
  exact ⟨m1, m2, m3⟩

theorem ringStop_of_running (hst : ringSt s h ring = 1 ∨ ringSt s h ring = 3) : ringStop s h ring =
    cancelUnadmitted ((s.wr (.host .RING_CTL_EN) h 0 ring).wr (.host .RING_STATE_STATE) h 2 ring) h ring ST_CANCELLED false := if_pos hst

theorem ringStop_holds (hst : ringSt s h ring = 1 ∨ ringSt s h ring = 3) :
    ringSt (ringStop s h ring) h ring = 2 ∧ (ringStop s h ring).rd (.host .RING_CTL_EN) h ring = 0 ∧
      (∀ d ∈ (ringStop s h ring).chains, d.half = h → d.ring = ring → d.stage ≠ .admitted → d.done = true) ∧
      SameMem s (ringStop s h ring) := by
  rw [ringStop_of_running hst]
  refine ⟨?_, ?_, fun d hd => cancelUnadmitted_done ST_CANCELLED false hd, ?_⟩
  · exact (rd_cancelUnadmitted ST_CANCELLED false (by decide) h ring).trans (State.rd_wr_self ..)
  · rw [rd_cancelUnadmitted ST_CANCELLED false]
    simp
  · obtain ⟨m1, m2, m3⟩ := sameMem_cancelUnadmitted (s := (s.wr (.host .RING_CTL_EN) h 0 ring).wr (.host .RING_STATE_STATE) h 2 ring)
      (h := h) (ring := ring) ST_CANCELLED false
    exact ⟨m1, m2, m3⟩

/-- EN = 0 and FSTOP, of a ring that each of them reaches. -/
theorem exec_ringStop {c : Instr} (hlt : ring < 520) (hc : c ∈ [Instr.ringDisable h ring, .ringFstop h ring])
    (hf : c = .ringFstop h ring → ring < 512) : exec c s = .next (ringStop s h ring) := by
  simp only [List.mem_cons, List.not_mem_nil, or_false] at hc
  rcases hc with rfl | rfl
  · exact if_pos hlt
  · exact if_pos (hf rfl)

theorem ringStop_idle {c : Instr} (hlt : ring < 520) (hc : c ∈ [Instr.ringDisable h ring, .ringFstop h ring])
    (hi : (c = .ringFstop h ring ∧ 512 ≤ ring) ∨ ringSt s h ring = 0 ∨ ringSt s h ring = 2) : Sets c s [] := by
  by_cases hf : c = .ringFstop h ring ∧ 512 ≤ ring
  · obtain ⟨rfl, hge⟩ := hf
    exact sets_of_next (if_neg (Nat.not_lt.mpr hge))
  · have hst : ¬ (ringSt s h ring = 1 ∨ ringSt s h ring = 3) := by
      rcases hi with hi | hi
      · exact absurd hi hf
      · omega
    refine sets_of_next ((exec_ringStop hlt hc fun e => Nat.not_le.mp fun hge => hf ⟨e, hge⟩).trans ?_)
    exact congrArg _ (if_neg hst)

/-! ### DISABLED (R155, R335) -/

/-- The registers that the end of a partition step may write. -/
def partStepFields : List Fld := [.flt .FLT_PART_STEP, .flt .FLT_STATUS_STEP, .flt .FLT_EVT, .host .MSIX_PBA, .tel .LIVE_SLOT]

theorem touches_endPartStep (s : State) (h : Half) (fn : Nat) : Touches s (endPartStep s h fn) partStepFields := by
  unfold endPartStep
  refine .ite ?_ (.refl s _)
  extract_lets s1 last s2
  have h1 : Touches s s1 partStepFields := (Touches.refl s _).wr (by decide) h 0 fn
  have h2 : Touches s s2 partStepFields := .ite (h1.wr (by decide) h 0 0) h1
  exact h2.raiseCause (by decide) (by decide) h _

/-- What a ring that enters DISABLED goes through: its state and a message, then its standing context, then a partition step. -/
theorem ringDisabled_steps (s : State) (h : Half) (ring : Nat) : ∃ u v w : State,
    u = forgetRing (s.wr (.host .RING_STATE_STATE) h 0 ring) h ring ∧
    Touches u v [.host .COAL_SEEN, .host .MSIX_PBA, .tel .LIVE_SLOT] ∧ w = standingLeave v h ring ∧
    ringDisabled s h ring = endPartStep w h (ringFn ring) :=
  ⟨_, _, _, rfl, .ite (.refl _ _) touches_signalRing, rfl, rfl⟩

theorem ctxMoves_standingLeave (s : State) (h : Half) (ring : Nat) : CtxMoves true s (standingLeave s h ring) :=
  .dropCtxs (.wr (.wr (.refl s)))

theorem ringDisabled_holds :
    ringSt (ringDisabled s h ring) h ring = 0 ∧
      (∀ x ∈ (ringDisabled s h ring).contexts, x.half = h → x.ring = ring → x.standing = false) ∧ SameMem s (ringDisabled s h ring) := by
  obtain ⟨u, v, w, hu, hv, hw, he⟩ := ringDisabled_steps s h ring
  have hend := touches_endPartStep w h (ringFn ring)
  have hleave : CtxMoves true v w := hw ▸ ctxMoves_standingLeave v h ring
  rw [he]
  refine ⟨?_, fun x hx hh hr => ?_, ?_⟩
  · calc (endPartStep w h (ringFn ring)).rd (.host .RING_STATE_STATE) h ring
      _ = w.rd (.host .RING_STATE_STATE) h ring := hend.rd (by decide) h ring
      _ = v.rd (.host .RING_STATE_STATE) h ring := hleave.rd rfl h ring
      _ = u.rd (.host .RING_STATE_STATE) h ring := hv.rd (by decide) h ring
      _ = (s.wr (.host .RING_STATE_STATE) h 0 ring).rd (.host .RING_STATE_STATE) h ring := by rw [hu]; rfl
      _ = 0 := State.rd_wr_self ..
  · rw [hend.part State.contexts, hw] at hx
    have hkey : ∀ a b : Context, b.key = a.key →
        (b.half == h && b.ring == ring && b.standing) = (a.half == h && a.ring == ring && a.standing) := by
      intro a b hab
      obtain ⟨h1, -, -, h2, h3⟩ := key_eq_iff.mp hab
      rw [h1, h2, h3]
    simpa [hh, hr] using dropCtxs_none hkey hx
  · obtain ⟨m1, m2, m3⟩ := hend.sameMem
    obtain ⟨l1, l2, l3⟩ := hleave.sameMem
    obtain ⟨v1, v2, v3⟩ := hv.sameMem
    subst hu
    exact ⟨m1.trans (l1.trans v1), m2.trans (l2.trans v2), m3.trans (l3.trans v3)⟩

end

/-- Settles O27: one lemma above for each command. -/
theorem ringStates : Obligations.RingStates := by
  intro h s
  refine ⟨setupLockSet_holds.1, setupLockSet_holds.2, setupLockAck_holds, fun ring hlt => ⟨ringConfig_unreached, fun hr => ?_,
    fun c hc => ⟨ringStop_idle hlt hc, fun hf hst => ⟨_, exec_ringStop hlt hc hf, ringStop_holds hst⟩⟩, fun hst => ?_, fun hst ho => ?_⟩⟩
  · refine ⟨fun v hst => ringConfigWrite_stores hr hst v, fun reg v hst => ringConfigWrite_busy hr hst reg v,
      fun hst => sets_of_next ((if_pos hr).trans (if_pos hst)), fun hst => ?_⟩
    obtain ⟨hrefused, hdone⟩ := ringEnable_idle hr hst
    exact ⟨fun h2 => if_pos (.inl h2), hrefused, fun hn hi => ⟨_, hdone hn, ringActivate_holds hi⟩⟩
  · exact sets_of_next (if_neg fun hc => hst.elim (· hc.1) fun ho => by simp [hc.2] at ho)
  · exact ⟨_, if_pos ⟨hst, ho⟩, ringDisabled_holds⟩

end Sys2Proof
end

section
/-!
Register reads, accesses to nothing, narrow accesses and snapshots: O33.
-/

namespace Sys2Proof.Machine

set_option Elab.async false

/-! ### Little-endian bytes -/

theorem leBytes_length (n x : Nat) : (leBytes n x).length = n := by
  induction n generalizing x with
  | zero => rfl
  | succ n ih => simp [leBytes, ih]

theorem leNat_leBytes (n x : Nat) : leNat (leBytes n x) = x % 256 ^ n := by
  induction n generalizing x with
  | zero => simp [leBytes, leNat, Nat.mod_one]
  | succ n ih =>
    have hcut : x % 256 ^ (n + 1) = x % 256 + 256 * (x / 256 % 256 ^ n) := by rw [Nat.pow_succ', Nat.mod_mul]
    rw [leBytes, leNat, ih, BitVec.toNat_ofNat, hcut]

theorem leBytes_drop (n k x : Nat) : (leBytes n x).drop k = leBytes (n - k) (x / 256 ^ k) := by
  induction k generalizing n x with
  | zero => simp
  | succ k ih =>
    cases n with
    | zero => simp [leBytes]
    | succ n =>
      rw [leBytes, List.drop_succ_cons, ih, Nat.div_div_eq_div_mul, Nat.pow_succ', Nat.add_sub_add_right]

theorem leBytes_take {n k : Nat} (hk : k ≤ n) (x : Nat) : (leBytes n x).take k = leBytes k x := by
  induction k generalizing n x with
  | zero => simp [leBytes]
  | succ k ih =>
    cases n with
    | zero => omega
    | succ n => rw [leBytes, List.take_succ_cons, ih (by omega), leBytes]

/-- The number that bytes `k` to `k + n - 1` of eight spell. -/
theorem leNat_cut {k n : Nat} (hk : k + n ≤ 8) (x : Nat) : leNat (((leBytes 8 x).drop k).take n) = x / 2 ^ (8 * k) % 2 ^ (8 * n) := by
  rw [leBytes_drop, leBytes_take (by omega), leNat_leBytes, Nat.pow_mul, Nat.pow_mul]

/-! ### Pieces of a request (R135) -/

theorem cutPieces_nothing (fuel off : Nat) : cutPieces fuel off 0 = [] := by
  cases fuel <;> rfl

/-- A request that crosses no 8-byte boundary is one piece. -/
theorem cutPieces_one {off len : Nat} (h1 : 1 ≤ len) (h8 : off % 8 + len ≤ 8) : cutPieces len off len = [(off, len)] := by
  obtain ⟨n, rfl⟩ : ∃ n, len = n + 1 := ⟨len - 1, by omega⟩
  have hk : min (n + 1) (8 - off % 8) = n + 1 := by omega
  rw [cutPieces, if_neg (by omega)]
  dsimp only
  rw [hk, Nat.sub_self, cutPieces_nothing]

/-! ### A run of register writes -/

/-- Registers of one field written in order, each with its own value. -/
theorem rd_foldl_wr {f : Fld} {h : Half} {val idx : Nat → Nat} (hidx : Function.Injective idx) (s : State) (n j : Nat) :
    ((List.range n).foldl (fun t i => t.wr f h (val i) (idx i)) s).rd f h (idx j) =
      if j < n then val j % 2 ^ f.width else s.rd f h (idx j) := by
  induction n with
  | zero => rfl
  | succ n ih =>
    rw [List.range_succ, List.foldl_append, List.foldl_cons, List.foldl_nil, State.rd_wr, ih]
    by_cases hj : j = n
    · subst hj
      simp
    · rw [if_neg fun hc => hj (hidx hc.2.2)]
      exact ite_congr (by simp; omega) (fun _ => rfl) fun _ => rfl

end Sys2Proof.Machine

namespace Sys2Proof

open Machine

set_option Elab.async false

/-! ### Reads of a word (R137, R138) -/

section
variable {s : State} {h : Half} {fn off : Nat}

theorem exec_rsRead {c : Instr} (hc : c ∈ [Instr.rsReadLow h fn off, .rsReadHigh h fn off]) (hb : barReach s h fn = true)
    (ho : off % 4 = 0) : exec c s = .next (answerWord s h fn off) := by
  simp only [List.mem_cons, List.not_mem_nil, or_false] at hc
  rcases hc with rfl | rfl
  · exact if_pos ⟨hb, ho⟩
  · exact if_pos ⟨hb, ho⟩

theorem answerWord_plain (h0 : isRs (placeOf s h fn off) 0 = false) (h4 : isRs (placeOf s h fn off) 4 = false)
    (hm : placeOf s h fn off ≠ .unmapped) : answerWord s h fn off = s.emit (.readData h fn (read4 s h fn off)) := by
  simp [answerWord, readWord, h0, h4, countHoles_of_mapped hm]

theorem answerWord_low (h0 : isRs (placeOf s h fn off) 0 = true) : answerWord s h fn off =
    ((s.wr (.host .SHADOW_TAG) h (off + 1) fn).wr (.host .SHADOW_HIGH) h (read4 s h fn (off + 4)) fn).emit
      (.readData h fn (read4 s h fn off)) := by
  simp [answerWord, readWord, h0]

theorem answerWord_high (h0 : isRs (placeOf s h fn off) 0 = false) (h4 : isRs (placeOf s h fn off) 4 = true)
    (ht : s.rd (.host .SHADOW_TAG) h fn = off - 4 + 1) : answerWord s h fn off =
      (s.wr (.host .SHADOW_TAG) h 0 fn).emit (.readData h fn (s.rd (.host .SHADOW_HIGH) h fn)) := by
  simp [answerWord, readWord, h0, h4, ht]

theorem answerWord_miss (h0 : isRs (placeOf s h fn off) 0 = false) (h4 : isRs (placeOf s h fn off) 4 = true)
    (ht : s.rd (.host .SHADOW_TAG) h fn ≠ off - 4 + 1) : answerWord s h fn off =
      (raiseFunc (s.inc (.host .SHD_CNT_SHADOW_MISS) h 1 fn) h fn 4).emit (.readData h fn (read4 s h fn off)) := by
  simp [answerWord, readWord, h0, h4, ht]

theorem rsRead_holds (hb : barReach s h fn = true) (ho : off % 4 = 0) :
    ∀ c ∈ [Instr.rsReadLow h fn off, .rsReadHigh h fn off],
      (isRs (placeOf s h fn off) 0 = false → isRs (placeOf s h fn off) 4 = false → placeOf s h fn off ≠ .unmapped → Gives c s fun t =>
        t = s.emit (.readData h fn (read4 s h fn off))) ∧
      (isRs (placeOf s h fn off) 0 = true → off + 1 < 2 ^ 32 → Gives c s fun t =>
        t.out = s.out ++ [.readData h fn (read4 s h fn off)] ∧ t.rd (.host .SHADOW_TAG) h fn = off + 1 ∧
        t.rd (.host .SHADOW_HIGH) h fn = read4 s h fn (off + 4) % 2 ^ 32 ∧ Touches s t [.host .SHADOW_TAG, .host .SHADOW_HIGH]) ∧
      (isRs (placeOf s h fn off) 0 = false → isRs (placeOf s h fn off) 4 = true →
        (s.rd (.host .SHADOW_TAG) h fn = off - 4 + 1 → Gives c s fun t =>
          t.out = s.out ++ [.readData h fn (s.rd (.host .SHADOW_HIGH) h fn)] ∧ t.rd (.host .SHADOW_TAG) h fn = 0 ∧
          Touches s t [.host .SHADOW_TAG]) ∧
        (s.rd (.host .SHADOW_TAG) h fn ≠ off - 4 + 1 → Gives c s fun t =>
          t.out.getLast? = some (.readData h fn (read4 s h fn off)) ∧ (t.rd (.host .FUNC_IRQ) h fn).testBit 2 = true ∧
          Touches s t (.host .SHD_CNT_SHADOW_MISS :: irqFields))) := by
  intro c hc
  have he := exec_rsRead hc hb ho
  refine ⟨fun h0 h4 hm => ⟨_, he, answerWord_plain h0 h4 hm⟩, fun h0 hlt => ⟨_, he, ?_⟩,
    fun h0 h4 => ⟨fun ht => ⟨_, he, ?_⟩, fun ht => ⟨_, he, ?_⟩⟩⟩
  · rw [answerWord_low h0]
    refine ⟨rfl, ?_, State.rd_wr_self .., ((((Touches.refl s _).wr (by decide) h _ fn).wr (by decide) h _ fn).emit _)⟩
    have hw : (off + 1) % 2 ^ (Fld.host .SHADOW_TAG).width = off + 1 := Nat.mod_eq_of_lt hlt
    simpa using hw
  · rw [answerWord_high h0 h4 ht]
    exact ⟨rfl, State.rd_wr_self s (.host .SHADOW_TAG) h 0 fn, ((Touches.refl s _).wr (by decide) h 0 fn).emit _⟩
  · rw [answerWord_miss h0 h4 ht]
    exact ⟨List.getLast?_concat .., testBit_raiseFunc _ h fn (by decide) rfl,
      (((Touches.refl s _).inc (by decide) h 1 fn).raiseFunc (by decide) (by decide) h fn 4).emit _⟩

/-! ### Accesses to nothing (R134) -/

theorem unmappedAccess_counts (hb : barReach s h fn = true) (hm : placeOf s h fn (off / 4 * 4) = .unmapped) (w : Bool) :
    Gives (.unmappedAccess h fn off w) s fun t =>
      t.rd (.host .ACC_CNT_UNMAPPED) h fn = min (s.rd (.host .ACC_CNT_UNMAPPED) h fn + 1) (2 ^ 16 - 1) ∧
      (t.rd (.host .FUNC_IRQ) h fn).testBit 4 = true ∧ (w = false → t.out.getLast? = some (.readData h fn 0)) ∧
      Touches s t (.host .ACC_CNT_UNMAPPED :: if w then stageFields else irqFields) := by
  have he : exec (.unmappedAccess h fn off w) s = _ := if_pos ⟨hb, hm⟩
  refine ⟨_, he, ?_⟩
  cases w with
  | true =>
    refine ⟨?_, testBit_countUnmapped _ h fn, nofun, ?_⟩
    · exact (rd_countUnmapped_self _ h fn).trans (by rw [rd_dropStaged s h fn h fn])
    · exact ((touches_dropStaged s h fn).mono (by decide)).trans ((touches_countUnmapped _ h fn).mono (by decide))
  | false =>
    exact ⟨rd_countUnmapped_self s h fn, testBit_countUnmapped s h fn, fun _ => List.getLast?_concat ..,
      (touches_countUnmapped s h fn).emit _⟩

/-! ### Narrow and wide accesses to BAR0 (R135, R137) -/

theorem touches_countHoles (words : Nat) : Touches s (countHoles s h fn off words) (.host .ACC_CNT_UNMAPPED :: irqFields) :=
  .ite (touches_countUnmapped s h fn) (.refl s _)

/-- A read of BAR0 within eight bytes is one piece, answered with what that piece gives. -/
theorem narrowRead_eq {len : Nat} (hb : barReach s h fn = true) (h1 : 1 ≤ len) (h8 : off % 8 + len ≤ 8)
    (hbar : off + len ≤ barSize fn .bar0) : exec (.narrowAccess h fn .bar0 off len none) s =
      .next ((readPiece s h fn off len).1.emit (.readData h fn (leNat (readPiece s h fn off len).2))) := by
  refine (if_pos ⟨hb, h1, hbar⟩).trans ?_
  rw [cutPieces_one h1 h8]
  rfl

theorem narrowRead_holds {len : Nat} (hb : barReach s h fn = true) (h1 : 1 ≤ len) (h4 : len < 4) (h8 : off % 8 + len ≤ 8)
    (hbar : off + len ≤ barSize fn .bar0) : Gives (.narrowAccess h fn .bar0 off len none) s fun t =>
      t.out.getLast? = some (.readData h fn (read8 s h fn (off / 8 * 8) / 2 ^ (8 * (off % 8)) % 2 ^ (8 * len))) ∧
      Touches s t (.host .ACC_CNT_UNMAPPED :: irqFields) := by
  have hp : readPiece s h fn off len = (countHoles s h fn (off / 4 * 4) ((off % 4 + len + 3) / 4),
      ((leBytes 8 (read8 s h fn (off / 8 * 8))).drop (off % 8)).take len) :=
    (if_neg (by omega)).trans (if_neg fun hc => by omega)
  refine ⟨_, narrowRead_eq hb h1 h8 hbar, ?_⟩
  rw [hp]
  refine ⟨?_, (touches_countHoles _).emit _⟩
  rw [leNat_cut h8]
  exact List.getLast?_concat ..

theorem wideRead_holds (hb : barReach s h fn = true) (h8 : off % 8 = 0) (hbar : off + 8 ≤ barSize fn .bar0)
    (hm : placeOf s h fn off ≠ .unmapped) (hm4 : placeOf s h fn (off + 4) ≠ .unmapped) :
    Gives (.narrowAccess h fn .bar0 off 8 none) s fun t => t = s.emit (.readData h fn (read8 s h fn off % 2 ^ 64)) := by
  have hc : countHoles s h fn off 2 = s := by simp [countHoles, List.range_succ, hm, hm4]
  have hp : readPiece s h fn off 8 = (s, leBytes 8 (read8 s h fn off)) := by simp [readPiece, hc]
  refine ⟨_, narrowRead_eq hb (by decide) (by omega) hbar, ?_⟩
  rw [hp]
  exact congrArg (fun v => s.emit (.readData h fn v)) (leNat_leBytes 8 _)

theorem narrowWrite_holds {len : Nat} {data : List Byte} (hb : barReach s h fn = true) (h1 : 1 ≤ len) (h4 : len < 4)
    (h8 : off % 8 + len ≤ 8) (hbar : off + len ≤ barSize fn .bar0) (hd : data.length = len) :
    Gives (.narrowAccess h fn .bar0 off len (some data)) s fun t =>
      t.rd (.host .ACC_CNT_BAD_WIDTH) h fn = min (s.rd (.host .ACC_CNT_BAD_WIDTH) h fn + 1) (2 ^ 16 - 1) ∧
      Touches s t (.host .ACC_CNT_BAD_WIDTH :: stageFields) := by
  have hlen : (((data ++ zeros len).drop (off - off)).take len).length = len := by simp [hd]
  have he : exec (.narrowAccess h fn .bar0 off len (some data)) s = .next (countBadWidth (dropStaged s h fn) h fn) := by
    refine (if_pos ⟨hb, h1, hbar⟩).trans ?_
    rw [cutPieces_one h1 h8]
    refine (if_neg ?_).trans (if_neg ?_)
    · rw [hlen]
      omega
    · rw [hlen]
      omega
  refine ⟨_, he, ?_, ?_⟩
  · exact (rd_countBadWidth_self _ h fn).trans (by rw [rd_dropStaged s h fn h fn])
  · exact ((touches_dropStaged s h fn).mono (by decide)).trans ((touches_countBadWidth _ h fn).mono (by decide))

/-! ### The doorbell pages (R150, §4.8) -/

theorem doorbellPage_read {len : Nat} (hb : barReach s h fn = true) (h1 : 1 ≤ len) (hbar : off + len ≤ barSize fn .bar2) :
    Gives (.narrowAccess h fn .bar2 off len none) s fun t => t = s.emit (.readData h fn 0) :=
  ⟨_, if_pos ⟨hb, h1, hbar⟩, rfl⟩

/-- Four bytes at the beginning of a doorbell page ring the ring. -/
theorem doorbellPage_rings {k : Nat} (hb : barReach s h fn = true) (hk : k < 8) {data : List Byte} (hd : data.length = 4) :
    exec (.narrowAccess h fn .bar2 (0x1000 * k) 4 (some data)) s = exec (.doorbellWrite h (fnRing fn k) (leNat (data.take 2))) s := by
  have hbar : 0x1000 * k + 4 ≤ barSize fn .bar2 := show 0x1000 * k + 4 ≤ 2 ^ 15 by omega
  have hring : 0x1000 * k / 0x1000 = k := by omega
  have hoff : 0x1000 * k % 0x1000 = 0 := by omega
  have hdata : (data ++ zeros 4).take 4 = data := by rw [List.take_append_of_le_length (by omega), List.take_of_length_le (by omega)]
  refine (if_pos ⟨hb, by decide, hbar⟩).trans ?_
  rw [hring, hoff, hdata]
  simp [doorbellPage, hd]
  rfl

/-! ### Snapshots (R141, R545 to R547) -/

/-- The registers of the snapshots. -/
def snapFields : List Fld :=
  [.tel .SNAP_SLOT, .tel .HIST_SNAP_BIN, .tel .HIST_SNAP_COUNT, .tel .HIST_SNAP_SUM, .tel .HIST_SNAP_MAX, .tel .SNAP_SEQ, .tel .SNAP_MT]

/-- The copy of a group's counters, or of a histogram's bins, sum and maximum. -/
def snapCopy (s : State) (h : Half) (g : Nat) : State :=
  if 16 ≤ g ∧ g < 32 then
    ((((List.range 32).foldl (fun t i => t.wr (.tel .HIST_SNAP_BIN) h (s.rd (.tel .HIST_BIN) h ((g - 16) * 32 + i)) ((g - 16) * 32 + i)) s).wr
      (.tel .HIST_SNAP_COUNT) h (s.rd (.tel .HIST_COUNT) h (g - 16)) (g - 16)).wr (.tel .HIST_SNAP_SUM) h
      (s.rd (.tel .HIST_SUM) h (g - 16)) (g - 16)).wr (.tel .HIST_SNAP_MAX) h (s.rd (.tel .HIST_MAX) h (g - 16)) (g - 16)
  else (List.range 16).foldl (fun t i => t.wr (.tel .SNAP_SLOT) h (liveSlot s h g i) (g * 32 + i)) s

theorem snapGroup_eq (g : Nat) : snapGroup s h g =
    if (isGroup g && !(snapped s h g)) = true then
      ((snapCopy s h g).wr (.tel .SNAP_SEQ) h (s.rd (.tel .SNAP_SEQ) h g + 1) g).wr (.tel .SNAP_MT) h (s.mt h) g
    else s := rfl

theorem touches_snapCopy (g : Nat) : Touches s (snapCopy s h g) snapFields := by
  unfold snapCopy
  split
  · have hbins : Touches s ((List.range 32).foldl
        (fun t i => t.wr (.tel .HIST_SNAP_BIN) h (s.rd (.tel .HIST_BIN) h ((g - 16) * 32 + i)) ((g - 16) * 32 + i)) s) snapFields :=
      .foldl (.refl s _) (fun _ _ hu => hu.wr (by decide) h _ _) _
    exact ((hbins.wr (by decide) h _ _).wr (by decide) h _ _).wr (by decide) h _ _
  · exact .foldl (.refl s _) (fun _ _ hu => hu.wr (by decide) h _ _) _

theorem index_injective (b : Nat) : Function.Injective fun i : Nat => b + i := fun _ _ he => Nat.add_left_cancel he

theorem rd_snapCopy_slot (hi : Inv s) {g i : Nat} (hg : g < 16 ∨ 32 ≤ g) (h16 : i < 16) :
    (snapCopy s h g).rd (.tel .SNAP_SLOT) h (g * 32 + i) = liveSlot s h g i := by
  have hlt : liveSlot s h g i < 2 ^ 64 := by
    unfold liveSlot
    split
    · decide
    · exact registersWithinWidth s (.tel .LIVE_SLOT) h _ hi
  unfold snapCopy
  rw [if_neg (by omega)]
  exact (rd_foldl_wr (index_injective (g * 32)) s 16 i).trans ((if_pos h16).trans (Nat.mod_eq_of_lt hlt))

theorem rd_snapCopy_bin (hi : Inv s) {g i : Nat} (hg : 16 ≤ g ∧ g < 32) (h32 : i < 32) :
    (snapCopy s h g).rd (.tel .HIST_SNAP_BIN) h ((g - 16) * 32 + i) = s.rd (.tel .HIST_BIN) h ((g - 16) * 32 + i) := by
  have hlt : s.rd (.tel .HIST_BIN) h ((g - 16) * 32 + i) < 2 ^ 32 := registersWithinWidth s (.tel .HIST_BIN) h _ hi
  unfold snapCopy
  rw [if_pos hg, State.rd_wr, if_neg (by simp), State.rd_wr, if_neg (by simp), State.rd_wr, if_neg (by simp)]
  exact (rd_foldl_wr (index_injective ((g - 16) * 32)) s 32 i).trans ((if_pos h32).trans (Nat.mod_eq_of_lt hlt))

theorem exec_counterSnap {g : Nat} (hb : barReach s h fn = true) (hfn : fn = pf ∨ g = 32 + fn) :
    exec (.counterSnap h fn g) s = .next (snapGroup s h g) := by
  obtain ⟨⟨hle, hx⟩, -⟩ : (fn ≤ pf ∧ fnExists s h fn = true) ∧ s.rd (.boot .MGMT_READY) h = 1 := by simpa [barReach] using hb
  refine if_pos ?_
  by_cases hpf : fn = pf
  · exact .inl hpf
  · exact .inr ⟨hx, by omega, .inl (hfn.resolve_left hpf)⟩

theorem counterSnap_holds {g : Nat} (hb : barReach s h fn = true) (hfn : fn = pf ∨ g = 32 + fn) (hg : isGroup g = true)
    (hs : snapped s h g = false) (hi : Inv s) : Gives (.counterSnap h fn g) s fun t =>
      (g < 16 ∨ 32 ≤ g → ∀ i < 16, t.rd (.tel .SNAP_SLOT) h (g * 32 + i) = liveSlot s h g i) ∧
      (16 ≤ g → g < 32 → ∀ i < 32, t.rd (.tel .HIST_SNAP_BIN) h ((g - 16) * 32 + i) = s.rd (.tel .HIST_BIN) h ((g - 16) * 32 + i)) ∧
      t.rd (.tel .SNAP_MT) h g = s.mt h ∧ t.rd (.tel .SNAP_SEQ) h g = (s.rd (.tel .SNAP_SEQ) h g + 1) % 2 ^ 32 ∧
      Touches s t snapFields := by
  have hmt : s.mt h % 2 ^ (Fld.tel .SNAP_MT).width = s.mt h := Nat.mod_eq_of_lt (registersWithinWidth s (.tim .MT) h 0 hi)
  refine ⟨_, exec_counterSnap hb hfn, ?_⟩
  rw [snapGroup_eq, if_pos (by simp [hg, hs])]
  refine ⟨fun hr i h16 => ?_, fun h1 h2 i h32 => ?_, (State.rd_wr_self ..).trans hmt, ?_, ?_⟩
  · rw [State.rd_wr, if_neg (by simp), State.rd_wr, if_neg (by simp), rd_snapCopy_slot hi hr h16]
  · rw [State.rd_wr, if_neg (by simp), State.rd_wr, if_neg (by simp), rd_snapCopy_bin hi ⟨h1, h2⟩ h32]
  · rw [State.rd_wr, if_neg (by simp), State.rd_wr_self]
    rfl
  · exact ((touches_snapCopy g).wr (by decide) h _ g).wr (by decide) h _ g

/-! ### A function whose window cannot be reached -/

theorem sets_nothing_of_unreached_read (hb : barReach s h fn = false) (w : Bool) (bar : Bar) (len : Nat) (data : Option (List Byte)) :
    ∀ c ∈ [Instr.rsReadLow h fn off, .rsReadHigh h fn off, .unmappedAccess h fn off w, .narrowAccess h fn bar off len data],
      Sets c s [] := by
  have hn : ¬ barReach s h fn = true := by simp [hb]
  simp only [List.mem_cons, List.not_mem_nil, or_false, forall_eq_or_imp, forall_eq]
  exact ⟨sets_of_next (if_neg fun hc => hn hc.1), sets_of_next (if_neg fun hc => hn hc.1), sets_of_next (if_neg fun hc => hn hc.1),
    sets_of_next (if_neg fun hc => hn hc.1)⟩

end

/-- Settles O33: one lemma above for each kind of access. -/
theorem registerReads : Obligations.RegisterReads := by
  intro h fn off s
  refine ⟨fun hb w bar len data => sets_nothing_of_unreached_read hb w bar len data, fun hb => ⟨fun ho => rsRead_holds hb ho,
    fun hm w => sets_of_next (if_neg fun hc => hm hc.2), fun hm w => unmappedAccess_counts hb hm w,
    fun len h1 h4 h8 hbar => ⟨fun data hd => narrowWrite_holds hb h1 h4 h8 hbar hd, narrowRead_holds hb h1 h4 h8 hbar⟩,
    fun h8 hbar hm hm4 => wideRead_holds hb h8 hbar hm hm4, fun len h1 hbar => doorbellPage_read hb h1 hbar,
    fun k hk data hd => doorbellPage_rings hb hk hd, fun g _ hfn hs => ?_, fun g _ hfn hg hs hi => counterSnap_holds hb hfn hg hs hi⟩⟩
  refine sets_of_next ((exec_counterSnap hb hfn).trans ?_)
  rw [snapGroup_eq, if_neg (by simp [hs])]

end Sys2Proof
end

section
/-!
Descriptor fetch, pinned reads and failing host accesses: O29.
-/

namespace Sys2Proof

open Machine

set_option Elab.async false

/-! ### What a fetch writes -/

section
variable {s t : State} {fs : List Fld}

theorem Touches.refreshFetched (ht : Touches s t fs) (hf : Fld.host .RING_STATE_FETCHED ∈ fs) (h : Half) (ring : Nat) :
    Touches s (refreshFetched t h ring) fs := ht.wr hf h _ ring

theorem Touches.histSample (ht : Touches s t fs) (hf : ∀ f ∈ histFields, f ∈ fs) (h : Half) (src party : Nat) (v : Int) :
    Touches s (histSample t h src party v) fs :=
  .foldl ht (fun _ k hu => .ite (hu.histAdd hf h k v) hu) _

end

theorem rd_refreshFetched (s : State) (h : Half) (ring : Nat) (k : Half) (i : Nat) {f : Fld}
    (hf : f ≠ .host .RING_STATE_FETCHED := by decide) : (refreshFetched s h ring).rd f k i = s.rd f k i :=
  (State.rd_wr ..).trans (if_neg fun hc => hf hc.1)

/-! ### A fetch that fails (R156, R170) -/

section
variable {s : State} {h : Half} {ring : Nat}

/-- The registers that a failed fetch may write. -/
def fetchFailFields : List Fld := .host .RING_STATE_STATE :: .host .RING_STATE_LAST_STATUS :: .host .RING_ERR :: .host .CQ_RESERVED ::
  .host .RING_STATE_FETCHED :: irqFields

/-- The states that a failed fetch goes through: the state and the status, then the error. -/
theorem fetchFailed_eq (s : State) (h : Half) (ring status : Nat) : fetchFailed s h ring status =
    refreshFetched (ringErr ((if ringSt s h ring = 1 then s.wr (.host .RING_STATE_STATE) h 3 ring else s).wr
      (.host .RING_STATE_LAST_STATUS) h status ring) h ring 32) h ring := rfl

theorem rd_fetchFailed (s : State) (h : Half) (ring status : Nat) {f : Fld} (k : Half) (i : Nat)
    (hf : f ∉ .host .RING_STATE_FETCHED :: .host .RING_ERR :: irqFields := by decide) : (fetchFailed s h ring status).rd f k i =
      ((if ringSt s h ring = 1 then s.wr (.host .RING_STATE_STATE) h 3 ring else s).wr
        (.host .RING_STATE_LAST_STATUS) h status ring).rd f k i := by
  obtain ⟨hne, hl⟩ := not_or.mp fun hm => hf (List.mem_cons.mpr hm)
  rw [fetchFailed_eq, rd_refreshFetched _ _ _ _ _ hne, (touches_ringErr _ h ring 32).rd hl]

theorem fetchFailed_holds {status : Nat} (hs : status < 2 ^ 16) :
    ringSt (fetchFailed s h ring status) h ring = (if ringSt s h ring = 1 then 3 else ringSt s h ring) ∧
      (fetchFailed s h ring status).rd (.host .RING_STATE_LAST_STATUS) h ring = status ∧
      ((fetchFailed s h ring status).rd (.host .RING_ERR) h ring).testBit 5 = true ∧ Touches s (fetchFailed s h ring status) fetchFailFields := by
  refine ⟨?_, ?_, ?_, ?_⟩
  · unfold ringSt
    rw [rd_fetchFailed s h ring status h ring, State.rd_wr, if_neg (by simp)]
    unfold ringSt
    split
    · exact State.rd_wr_self ..
    · rfl
  · rw [rd_fetchFailed s h ring status h ring, State.rd_wr_self]
    exact Nat.mod_eq_of_lt hs
  · rw [fetchFailed_eq, rd_refreshFetched]
    exact testBit_ringErr _ h ring (by decide) rfl
  · have h1 : Touches s (if ringSt s h ring = 1 then s.wr (.host .RING_STATE_STATE) h 3 ring else s) fetchFailFields :=
      .ite ((Touches.refl s _).wr (by decide) h 3 ring) (.refl s _)
    exact ((h1.wr (by decide) h status ring).ringErr (by decide) (by decide) (by decide) h ring 32).refreshFetched (by decide) h ring

/-! ### A fetch begins (R153, R163) -/

theorem execDescFetch_due (hd : ringSt s h ring = 1 ∧ s.rd (.host .RING_CFG_PINNED) h ring = 0 ∧ fetchCount s h ring ≠ 0) :
    execDescFetch h ring s =
      (let n := min (fetchCount s h ring) (fetchCredit s h ring)
       if s.hostOk h (ringFn ring) = false then
         if s.rd (.host .RING_QUIET) h ring = 1 then .next s else .next (fetchFailed s h ring ST_HOST_LINK_DOWN)
       else if n = 0 then .next (stallBit s h ring true)
       else
         let s0 : State := { s with
          fetches := s.fetches ++ [⟨h, ring, (s.rd (.host .RING_STATUS_CI) h ring + inFlight s h ring) % 65536, n, none, n, s.mt h⟩] }
         .next (refreshFetched (stallBit ((s0.wr (.host .CQ_RESERVED) h (s.rd (.host .CQ_RESERVED) h ring + n) ring).wr
           (.host .RING_LOOK) h 0 ring) h ring false) h ring)) := if_pos hd

theorem stall_holds {c : Instr} (he : exec c s = .next (stallBit s h ring true)) :
    Sets c s [cell (.host .RING_STATE_CQ_STALL) h ring 1] := ⟨_, he, (Only.refl s).wr_lt (by decide)⟩

theorem descFetch_holds :
    let ci := s.rd (.host .RING_STATUS_CI) h ring
    let due : Prop := ringSt s h ring = 1 ∧ s.rd (.host .RING_CFG_PINNED) h ring = 0 ∧ fetchCount s h ring ≠ 0
    (¬ due → Sets (.descFetch h ring) s []) ∧
    (due → s.hostOk h (ringFn ring) = false →
      (s.rd (.host .RING_QUIET) h ring = 1 → Sets (.descFetch h ring) s []) ∧
      (s.rd (.host .RING_QUIET) h ring ≠ 1 → Gives (.descFetch h ring) s fun t => t = fetchFailed s h ring ST_HOST_LINK_DOWN)) ∧
    (due → s.hostOk h (ringFn ring) = true →
      let n := min (fetchCount s h ring) (fetchCredit s h ring)
      (n ≠ 0 → Gives (.descFetch h ring) s fun t =>
        t.fetches = s.fetches ++ [⟨h, ring, (ci + inFlight s h ring) % 65536, n, none, n, s.mt h⟩] ∧
        t.rd (.host .CQ_RESERVED) h ring = (s.rd (.host .CQ_RESERVED) h ring + n) % 65536 ∧
        Touches { s with fetches := t.fetches } t
          [.host .CQ_RESERVED, .host .RING_LOOK, .host .RING_STATE_CQ_STALL, .host .RING_STATE_FETCHED]) ∧
      (n = 0 → Sets (.descFetch h ring) s [cell (.host .RING_STATE_CQ_STALL) h ring 1])) := by
  intro ci due
  refine ⟨fun hd => sets_of_next (if_neg hd), fun hd hok => ?_, fun hd hok => ?_⟩
  · have he : exec (.descFetch h ring) s = _ := (execDescFetch_due hd).trans (if_pos hok)
    exact ⟨fun hq => sets_of_next (he.trans (if_pos hq)), fun hq => ⟨_, he.trans (if_neg hq), rfl⟩⟩
  · extract_lets n
    have he : exec (.descFetch h ring) s = _ := (execDescFetch_due hd).trans (if_neg (by simp [hok]))
    refine ⟨fun hn => ⟨_, he.trans (if_neg hn), rfl, ?_, ?_⟩, fun hn => stall_holds (he.trans (if_pos hn))⟩
    · rw [rd_refreshFetched]
      simp [stallBit, Fld.width, HostF.width, n]
    · exact ((((Touches.refl _ _).wr (by decide) h _ ring).wr (by decide) h 0 ring).stallBit (by decide) h ring false).refreshFetched
        (by decide) h ring

/-! ### The read of a fetch returns (R154, R180) -/

theorem updateFetch_length (l : List Fetch) (g : Fetch → Fetch) :
    (updateFetch l h ring fun f => some (g f)).length = l.length := by
  induction l with
  | nil => rfl
  | cons a r ih =>
    unfold updateFetch
    split
    · rfl
    · simp [ih]

theorem mem_updateFetch {l : List Fetch} {f : Fetch} (hf : l.find? (fun g => g.open_ h ring) = some f) (g : Fetch → Fetch) :
    g f ∈ updateFetch l h ring fun f => some (g f) := by
  induction l with
  | nil => cases hf
  | cons a r ih =>
    unfold updateFetch
    by_cases ha : a.open_ h ring = true
    · rw [List.find?_cons_of_pos (p := fun g : Fetch => g.open_ h ring) ha] at hf
      obtain rfl := Option.some.inj hf
      rw [if_pos ha]
      exact List.mem_cons_self
    · rw [List.find?_cons_of_neg (p := fun g : Fetch => g.open_ h ring) ha] at hf
      rw [if_neg ha]
      exact List.mem_cons_of_mem _ (ih hf)

theorem Touches.ringBytes_eq {t : State} {fs : List Fld} (ht : Touches s t fs)
    (hn : ∀ f ∈ [Fld.host .RING_BASE, .host .RING_CFG_PINNED, .host .PIN_COUNT, .host .RING_CFG_SIZE_LOG2], f ∉ fs := by decide)
    (first n : Nat) : ringBytes t h ring first n = ringBytes s h ring first n := by
  obtain ⟨hbase, hsize⟩ := List.forall_mem_cons.mp hn
  unfold ringBytes
  rw [ht.part State.mem, ht.rd hbase, ht.sqSize_eq hsize]

theorem touches_landRead (f : Fetch) (data : List Byte) :
    Touches { s with fetches := (landRead s h ring f data).fetches, mem := (landRead s h ring f data).mem } (landRead s h ring f data)
      [.tel .LIVE_SLOT] := by
  unfold landRead
  exact (Touches.refl _ _).bump (by decide) h 3 0 _

theorem ringBytes_landRead (f : Fetch) (data : List Byte) (first n : Nat) :
    ringBytes (landRead s h ring f data) h ring first n = ringBytes (hostStores s h ring f.first f.count data) h ring first n :=
  (touches_landRead f data).ringBytes_eq (by decide) first n

theorem landRead_holds {f : Fetch} (hf : s.fetches.find? (fun g => g.open_ h ring) = some f) (data : List Byte) :
    let u := landRead s h ring f data
    u.fetches.length = s.fetches.length ∧ { f with data := some (ringBytes u h ring f.first f.count) } ∈ u.fetches ∧
      (data = [] → u.mem = s.mem) := by
  intro u
  refine ⟨updateFetch_length s.fetches _, ?_, ?_⟩
  · rw [ringBytes_landRead]
    exact mem_updateFetch hf fun g => { g with data := some (ringBytes (hostStores s h ring f.first f.count data) h ring g.first g.count) }
  · rintro rfl
    show s.mem.writeN _ (List.take _ []) = s.mem
    rw [List.take_nil]
    rfl

theorem touches_fetchSamples (f : Fetch) : Touches s (fetchSamples s f) histFields :=
  .histSample (.foldl (.refl s _) (fun _ _ hu => hu.histSample (fun _ x => x) f.half 6 _ _) _) (fun _ x => x) f.half 13 pf _

/-- What the device sees of landed entries is read from the ring's entries and indices. -/
theorem Touches.lookAt_eq {t : State} {fs : List Fld} (ht : Touches s t fs)
    (hn : ∀ f ∈ Fld.host .RING_STATUS_PI :: creditFields, f ∉ fs := by decide) : lookAt t h ring = lookAt s h ring := by
  obtain ⟨hpi, hc⟩ := List.forall_mem_cons.mp hn
  unfold lookAt
  rw [ht.landedBytes_eq, ht.sqSize_credit hc, ht.rd hpi, ht.rd_credit hc h ring]

theorem dropUncovered_holds {u : State} (h0 : (lookAt u h ring).2 ≠ 0) :
    (dropUncovered u h ring).fetches = keepEntries h ring (lookAt u h ring).1 u.fetches ∧ (dropUncovered u h ring).mem = u.mem ∧
      (dropUncovered u h ring).rd (.host .RING_LOOK) h ring = (lookAt u h ring).2 % 65536 := by
  have hd : dropUncovered u h ring =
      refreshFetched ((setFetches u h ring (keepEntries h ring (lookAt u h ring).1 u.fetches)).wr (.host .RING_LOOK) h (lookAt u h ring).2 ring)
        h ring := if_neg h0
  rw [hd]
  exact ⟨rfl, rfl, (rd_refreshFetched ..).trans (State.rd_wr_self ..)⟩

section
variable {f : Fetch} (hf : s.fetches.find? (fun g => g.open_ h ring) = some f) (data : List Byte)
include hf

theorem exec_descFetchComplete : exec (.descFetchComplete h ring data) s =
    .next (dropUncovered (fetchSamples (landRead s h ring f data) f) h ring) := by
  show execDescFetchComplete h ring data s = _
  unfold execDescFetchComplete
  rw [hf]

theorem descFetchComplete_covered (h0 : (lookAt (landRead s h ring f data) h ring).2 = 0) :
    Gives (.descFetchComplete h ring data) s fun t =>
      t.fetches = (landRead s h ring f data).fetches ∧ t.mem = (landRead s h ring f data).mem ∧
      Touches { s with fetches := t.fetches, mem := t.mem } t (.tel .LIVE_SLOT :: histFields) := by
  have hs := touches_fetchSamples (s := landRead s h ring f data) f
  have hd : dropUncovered (fetchSamples (landRead s h ring f data) f) h ring = fetchSamples (landRead s h ring f data) f :=
    if_pos (by rw [hs.lookAt_eq]; exact h0)
  have hl := hs.part State.fetches
  have hm := hs.part State.mem
  refine ⟨_, (exec_descFetchComplete hf data).trans (congrArg _ hd), hl, hm, ?_⟩
  rw [hl, hm]
  exact ((touches_landRead f data).mono (by decide)).trans (hs.mono (by decide))

theorem descFetchComplete_uncovered (h0 : (lookAt (landRead s h ring f data) h ring).2 ≠ 0) :
    Gives (.descFetchComplete h ring data) s fun t =>
      t.fetches = keepEntries h ring (lookAt (landRead s h ring f data) h ring).1 (landRead s h ring f data).fetches ∧
      t.mem = (landRead s h ring f data).mem ∧
      t.rd (.host .RING_LOOK) h ring = (lookAt (landRead s h ring f data) h ring).2 % 65536 := by
  have hs := touches_fetchSamples (s := landRead s h ring f data) f
  have hd := dropUncovered_holds (u := fetchSamples (landRead s h ring f data) f) (h := h) (ring := ring) (by rwa [hs.lookAt_eq])
  rw [hs.lookAt_eq, hs.part State.fetches, hs.part State.mem] at hd
  exact ⟨_, exec_descFetchComplete hf data, hd⟩

theorem descFetchFail_holds : Gives (.descFetchFail h ring) s fun t =>
    t.fetches = s.fetches.filter (fun g => !(g.open_ h ring)) ∧
      ringSt t h ring = (if ringSt s h ring = 1 then 3 else ringSt s h ring) ∧
      t.rd (.host .RING_STATE_LAST_STATUS) h ring = ST_HOST_ACCESS ∧ (t.rd (.host .RING_ERR) h ring).testBit 5 = true ∧
      Touches { s with fetches := t.fetches } t fetchFailFields := by
  have hany : s.fetches.any (fun g => g.open_ h ring) = true :=
    List.any_eq_true.mpr ⟨f, List.mem_of_find?_eq_some hf, List.find?_some (p := fun g : Fetch => g.open_ h ring) hf⟩
  have hset : Touches { s with fetches := s.fetches.filter fun g => !(g.open_ h ring) }
      (setFetches s h ring (s.fetches.filter fun g => !(g.open_ h ring))) fetchFailFields := (Touches.refl _ _).wr (by decide) h _ ring
  have hst : ringSt (setFetches s h ring (s.fetches.filter fun g => !(g.open_ h ring))) h ring = ringSt s h ring :=
    (State.rd_wr ..).trans (if_neg (by simp))
  obtain ⟨h1, h2, h3, h4⟩ := fetchFailed_holds (s := setFetches s h ring (s.fetches.filter fun g => !(g.open_ h ring))) (h := h) (ring := ring)
    (status := ST_HOST_ACCESS) (by decide)
  have hl : (fetchFailed (setFetches s h ring (s.fetches.filter fun g => !(g.open_ h ring))) h ring ST_HOST_ACCESS).fetches =
      s.fetches.filter fun g => !(g.open_ h ring) := h4.part State.fetches
  refine ⟨_, if_pos hany, hl, ?_, h2, h3, ?_⟩
  · rw [h1, hst]
  · rw [hl]
    exact hset.trans h4

end

theorem descFetch_none (hn : s.fetches.any (fun f => f.open_ h ring) = false) :
    (∀ data, Sets (.descFetchComplete h ring data) s []) ∧ Sets (.descFetchFail h ring) s [] := by
  have hnone : s.fetches.find? (fun f => f.open_ h ring) = none :=
    List.find?_eq_none.mpr fun f hf => by simpa using (List.any_eq_false.mp hn) f hf
  refine ⟨fun data => sets_of_next ?_, sets_of_next (if_neg (by simp [hn]))⟩
  show execDescFetchComplete h ring data s = _
  unfold execDescFetchComplete
  rw [hnone]

/-! ### Pinned reads (R160, R163) -/

theorem foldl_append_eq_flatten {α β : Type} (g : α → List β) (l : List α) (acc : List β) :
    l.foldl (fun a k => a ++ g k) acc = acc ++ (l.map g).flatten := by
  induction l generalizing acc with
  | nil => simp
  | cons k r ih => simp [ih]

theorem pinnedRead_holds :
    let ci := s.rd (.host .RING_STATUS_CI) h ring
    let posted := (s.rd (.host .RING_STATUS_PI) h ring + 65536 - ci) % 65536
    let len := chainLen (slotEntry s h ring ci) (sqSize s h ring)
    let need := reserveOf s h ring (slotEntry s h ring ci)
    let due : Prop := ringSt s h ring = 1 ∧ s.rd (.host .RING_CFG_PINNED) h ring = 1 ∧ fetchedOf s h ring = 0 ∧ posted ≠ 0 ∧
      len ≤ posted
    (¬ due → Sets (.pinnedRead h ring) s []) ∧
    (due → creditFor s h ring need = false → Sets (.pinnedRead h ring) s [cell (.host .RING_STATE_CQ_STALL) h ring 1]) ∧
    (due → creditFor s h ring need = true → Gives (.pinnedRead h ring) s fun t =>
      t.rd (.host .RING_STATUS_CI) h ring = (ci + len) % 65536 ∧
      t.rd (.host .CQ_RESERVED) h ring = (s.rd (.host .CQ_RESERVED) h ring + need) % 65536 ∧
      t.fetches = s.fetches ++ [⟨h, ring, ci, len, some ((List.range len).map fun k => slotEntry s h ring (ci + k)).flatten, need,
        s.mt h⟩] ∧
      Touches { s with fetches := t.fetches } t
        [.host .RING_STATUS_CI, .host .CQ_RESERVED, .host .RING_STATE_CQ_STALL, .host .RING_STATE_FETCHED]) := by
  intro ci posted len need due
  refine ⟨fun hd => sets_of_next (if_neg hd), fun hd hc => ?_, fun hd hc => ?_⟩
  · exact stall_holds ((if_pos hd).trans (if_neg (by simp [need, ci] at hc; simp [hc])))
  · refine ⟨_, (if_pos hd).trans (if_pos hc), ?_, ?_, ?_, ?_⟩
    · rw [rd_refreshFetched]
      simp [stallBit, Fld.width, HostF.width, ci, len]
    · rw [rd_refreshFetched]
      simp [stallBit, Fld.width, HostF.width, ci, need]
    · show s.fetches ++ [_] = _
      rw [foldl_append_eq_flatten, List.nil_append]
    · exact ((((Touches.refl _ _).wr (by decide) h _ ring).wr (by decide) h _ ring).stallBit (by decide) h ring false).refreshFetched
        (by decide) h ring

/-! ### Host accesses that fail (R131) -/

/-- One chain, changed: it is among the chains, and nothing else differs. -/
theorem setChain_holds {c : Chain} (hc : c ∈ s.chains) (g : Chain → Chain) :
    g c ∈ (setChain s c g).chains ∧ { setChain s c g with chains := s.chains } = s :=
  ⟨List.mem_map.mpr ⟨c, hc, if_pos rfl⟩, rfl⟩

theorem hostAccessFail_chain {seq : Nat} {c : Chain} (hc : s.chain h ring seq = some c) :
    (collOf s c.readNo = none → c.running = true → Gives (.hostAccessFail h (.chain ring seq)) s fun t =>
      c.finish ST_HOST_ACCESS ∈ t.chains ∧ { t with chains := s.chains } = s) ∧
    (∀ k, collOf s c.readNo = some k → Gives (.hostAccessFail h (.chain ring seq)) s fun t => t = originateAbort s k 3 ST_HOST_ACCESS) := by
  have he : exec (.hostAccessFail h (.chain ring seq)) s = .next (failEngine s c ST_HOST_ACCESS) := by
    show execHostAccessFail h (.chain ring seq) s = _
    unfold execHostAccessFail
    simp only [hc]
  refine ⟨fun hk hr => ⟨_, he, ?_⟩, fun k hk => ⟨_, he, ?_⟩⟩
  · unfold failEngine
    rw [hk]
    dsimp only
    rw [if_pos hr]
    exact setChain_holds (List.mem_of_find?_eq_some hc) fun d => d.finish ST_HOST_ACCESS
  · unfold failEngine
    rw [hk]

theorem hostAccessFail_entries {seq : Nat} {c : Chain} (hc : s.chain h ring seq = some c) (entry : Nat) (hr : c.running = true)
    (hk : c.checked = false) (hg : ∃ g, extOf c kGROUP = some g ∧ isHost (fieldAt g 8 8) = true) :
    Gives (.hostAccessFail h (.entries ring seq entry)) s fun t =>
      { c with listFail := some entry } ∈ t.chains ∧ { t with chains := s.chains } = s := by
  obtain ⟨g, hg1, hg2⟩ := hg
  have he : exec (.hostAccessFail h (.entries ring seq entry)) s = .next (setChain s c fun d => { d with listFail := some entry }) := by
    show execHostAccessFail h (.entries ring seq entry) s = _
    unfold execHostAccessFail
    simp only [hc]
    exact if_pos ⟨hr, hk, by simp [hg1, hg2]⟩
  exact ⟨_, he, setChain_holds (List.mem_of_find?_eq_some hc) fun d => { d with listFail := some entry }⟩

theorem hostAccessFail_context {core : Fin 256} {slot : Fin 2} {x : Context} (hx : ctxAt s h core slot = some x)
    (hr : runnable s x = true) : Gives (.hostAccessFail h (.context core slot)) s fun t => t = ctxAccessFail s x false ST_HOST_ACCESS hostBit 0 := by
  refine ⟨_, ?_, rfl⟩
  show execHostAccessFail h (.context core slot) s = _
  unfold execHostAccessFail
  simp only [hx]
  exact if_pos hr

theorem hostAccessFail_page {num layer head page : Nat} {x : Transfer} {r : Request}
    (hx : transferOf s h num layer head page false = some x) (hr : s.request num = some r) (hd : x.discard = false) :
    Gives (.hostAccessFail h (.page num layer head page)) s fun t => t = failFetch s r x ST_HOST_ACCESS enVALLEY x.gen := by
  refine ⟨_, rfl, ?_⟩
  unfold hostPage
  simp only [hx, hr]
  exact if_neg (by simp [hd])

end

/-- Settles O29: one lemma above for each command. -/
theorem descriptorFetch : Obligations.DescriptorFetch := by
  intro h ring s
  refine ⟨⟨descFetch_holds.1, fun hd hok => ?_, descFetch_holds.2.2⟩, descFetch_none, fun f hf => ⟨fun data => ?_, descFetchFail_holds hf⟩,
    pinnedRead_holds, fun seq c hc => ⟨(hostAccessFail_chain hc).1, (hostAccessFail_chain hc).2, hostAccessFail_entries hc⟩,
    fun core slot x hx hr => hostAccessFail_context hx hr, fun num layer head page x r hx hr hd => hostAccessFail_page hx hr hd⟩
  · obtain ⟨hquiet, hfail⟩ := descFetch_holds.2.1 hd hok
    refine ⟨hquiet, fun hq => ?_⟩
    obtain ⟨t, he, rfl⟩ := hfail hq
    obtain ⟨h1, h2, h3, h4⟩ := fetchFailed_holds (s := s) (h := h) (ring := ring) (status := ST_HOST_LINK_DOWN) (by decide)
    have hl : (fetchFailed s h ring ST_HOST_LINK_DOWN).fetches = s.fetches := h4.part State.fetches
    refine ⟨_, he, hl, h1, h2, h3, ?_⟩
    rw [hl]
    exact h4
  · exact ⟨landRead_holds hf data, descFetchComplete_covered hf data, descFetchComplete_uncovered hf data⟩

end Sys2Proof
end

section
/-!
Requests that close and rings that halt; then the events of the host link: O32.
-/

namespace Sys2Proof

open Machine

set_option Elab.async false

/-! ### Lists of steps -/

/-- A run of steps goes as each of them goes, and what a step brings about is still there at the end, when the later steps keep it. -/
theorem foldl_keeps {α β : Type} {R : β → β → Prop} {P : α → β → Prop} (hrefl : ∀ b, R b b)
    (htrans : ∀ a b c, R a b → R b c → R a c) (hkeep : ∀ a b c, R b c → P a b → P a c) {g : β → α → β} {l : List α}
    (hstep : ∀ b, ∀ a ∈ l, R b (g b a) ∧ P a (g b a)) (b : β) :
    R b (l.foldl g b) ∧ ∀ a ∈ l, P a (l.foldl g b) := by
  induction l generalizing b with
  | nil => exact ⟨hrefl b, nofun⟩
  | cons a r ih =>
    obtain ⟨hr, hp⟩ := ih (fun c x hx => hstep c x (List.mem_cons_of_mem a hx)) (g b a)
    obtain ⟨ha, hpa⟩ := hstep b a List.mem_cons_self
    exact ⟨htrans _ _ _ ha hr, List.forall_mem_cons.mpr ⟨hkeep _ _ _ hr hpa, hp⟩⟩

/-! ### Requests (R351, R352) -/

/-- Every request of `t` is one of `s`, and closing where it was closing. -/
def Closes (s t : State) : Prop :=
  ∀ r ∈ t.requests, ∃ q ∈ s.requests, q.num = r.num ∧ q.half = r.half ∧ q.ring = r.ring ∧ (q.closing = true → r.closing = true)

theorem Closes.of_eq {s t : State} (he : t.requests = s.requests) : Closes s t := fun r hr => ⟨r, he ▸ hr, rfl, rfl, rfl, id⟩

theorem Closes.refl (s : State) : Closes s s := .of_eq rfl

theorem Closes.trans {s t u : State} (h1 : Closes s t) (h2 : Closes t u) : Closes s u := by
  intro r hr
  obtain ⟨q, hq, hn, hh, hg, hc⟩ := h2 r hr
  obtain ⟨p, hp, hn', hh', hg', hc'⟩ := h1 q hq
  exact ⟨p, hp, hn'.trans hn, hh'.trans hh, hg'.trans hg, hc ∘ hc'⟩

/-- Where the requests of a kind are closing, they still are. -/
theorem Closes.closing {s t : State} (hc : Closes s t) {p : Nat → Half → Nat → Prop}
    (hs : ∀ r ∈ s.requests, p r.num r.half r.ring → r.closing = true) :
    ∀ r ∈ t.requests, p r.num r.half r.ring → r.closing = true := by
  intro r hr hp
  obtain ⟨q, hq, hn, hh, hg, hqc⟩ := hc r hr
  exact hqc (hs q hq (by rwa [hn, hh, hg]))

theorem requests_clearSlots (s : State) (h : Half) (i n : Nat) : (clearSlots s h i n).requests = s.requests := by
  refine List.foldlRecOn (motive := fun t : State => t.requests = s.requests) _ _ rfl fun t ht d _ => ?_
  unfold clearSlot
  dsimp only
  split
  · exact ht
  · exact ht

theorem requests_freeOrphans (s : State) (h : Half) : (freeOrphans s h).requests = s.requests :=
  List.foldlRecOn (motive := fun t : State => t.requests = s.requests) _ _ rfl fun t ht o _ =>
    (requests_clearSlots t h o.slot (2 ^ o.slotLog2)).trans ht

theorem requests_cancelStreams (s : State) (h : Half) (num status : Nat) : (cancelStreams s h num status).requests = s.requests :=
  List.foldlRecOn (motive := fun t : State => t.requests = s.requests) _ _ rfl fun _ ht _ _ => ht

theorem requests_relist (s : State) (h : Half) : (relist s h).requests = s.requests := (touches_relist s h).part State.requests

theorem requests_refreshDraining (s : State) (h : Half) (fn : Nat) : (refreshDraining s h fn).requests = s.requests := rfl

/-- A request as its close leaves it. -/
def closed (readNo num status : Nat) (silent : Bool) (r : Request) : Request :=
  if r.num = num then
    { r with closing := true, cancelled := true, closeNo := (if r.closing then r.closeNo else readNo),
             devStatus := (if r.cancelled then r.devStatus else some status), silent := r.silent || silent }
  else r

theorem requests_closeRequest {s : State} {num : Nat} {r : Request} (hr : s.request num = some r) (status : Nat) (silent : Bool) :
    (closeRequest s num status silent).requests = s.requests.map (closed s.readNo num status silent) := by
  unfold closeRequest
  simp only [hr]
  have hlists (u : State) : (relist (freeOrphans (cancelStreams u r.half num status) r.half) r.half).requests = u.requests := by
    rw [requests_relist, requests_freeOrphans, requests_cancelStreams]
  split
  · rw [requests_refreshDraining, hlists]
    rfl
  · rw [hlists]
    rfl

theorem closeRequest_closes (s : State) (num status : Nat) (silent : Bool) :
    Closes s (closeRequest s num status silent) ∧
      ∀ r ∈ (closeRequest s num status silent).requests, r.num = num → r.closing = true := by
  cases hr : s.request num with
  | none =>
    have he : closeRequest s num status silent = s := by
      unfold closeRequest
      rw [hr]
    rw [he]
    exact ⟨.refl s, fun r hm hn => absurd hn (by simpa using List.find?_eq_none.mp hr r hm)⟩
  | some q =>
    unfold Closes
    simp only [requests_closeRequest hr, List.forall_mem_map]
    unfold closed
    refine ⟨fun r hm => ⟨r, hm, ?_⟩, fun r _ => ?_⟩
    · split <;> simp
    · split
      · simp
      · exact fun hn => absurd hn ‹_›

theorem closeRequests_closes (s : State) (p : Request → Bool) (status : Nat) (silent : Bool) :
    Closes s (closeRequests s p status silent) ∧
      ∀ n ∈ (s.requests.filter p).map (·.num), ∀ r ∈ (closeRequests s p status silent).requests, r.num = n → r.closing = true :=
  foldl_keeps (R := Closes) (P := fun n (t : State) => ∀ r ∈ t.requests, r.num = n → r.closing = true)
    (g := fun t n => closeRequest t n status silent) Closes.refl (fun _ _ _ => Closes.trans)
    (fun n _ _ hc hs => hc.closing (p := fun m _ _ => m = n) hs) (fun t n _ => closeRequest_closes t n status silent) s

/-- The requests of a function close. -/
theorem closeFunction_closing (s : State) (h : Half) (fn status : Nat) (silent : Bool) :
    ∀ r ∈ (closeRequests s (fun r => r.half == h && ringFn r.ring == fn) status silent).requests,
      r.half = h → ringFn r.ring = fn → r.closing = true := by
  intro r hr hh hg
  obtain ⟨hc, hall⟩ := closeRequests_closes s (fun r => r.half == h && ringFn r.ring == fn) status silent
  obtain ⟨q, hq, hn, hqh, hqr, -⟩ := hc r hr
  exact hall r.num (List.mem_map.mpr ⟨q, List.mem_filter.mpr ⟨hq, by simp [hqh, hqr, hh, hg]⟩, hn⟩) r hr rfl

theorem leaves_closeRequests (s : State) (p : Request → Bool) (status : Nat) (silent : Bool) :
    Leaves false s (closeRequests s p status silent) := .closeRequests (.refl s)

/-! ### A function halted and reset (R169) -/

/-- The host side's registers that a halt of functions may write. -/
def haltFields : List HostF :=
  ringBlock ++ funcBlock ++ [.RING_STATE_STATE, .RING_STATE_FETCHED, .COAL_T0, .FUNC_STATUS_DRAINING, .MSIX_ADDR, .MSIX_DATA, .MSIX_MASK, .MSIX_PBA]

/-- A register that a halt may write with any value. -/
def haltFree : Fld → Bool
  | .host f => haltFields.contains f && f != .RING_STATE_STATE && f != .RING_CTL_EN
  | _ => true

/-- A ring is DISABLED or STOPPING. -/
def RingIdle (s : State) (h : Half) (ring : Nat) : Prop := ringSt s h ring = 0 ∨ ringSt s h ring = 2

/-- What every part of a halt keeps: the host side's registers but those of `haltFields`, closing requests, idle rings, and EN = 0. -/
structure Halts (h : Half) (s t : State) : Prop where
  rd : ∀ f ∉ haltFields, ∀ k i, t.rd (.host f) k i = s.rd (.host f) k i
  closes : Closes s t
  idle : ∀ ring, RingIdle s h ring → RingIdle t h ring
  off : ∀ ring, s.rd (.host .RING_CTL_EN) h ring = 0 → t.rd (.host .RING_CTL_EN) h ring = 0

section
variable {h : Half} {s t u : State}

theorem Halts.refl (s : State) : Halts h s s := ⟨fun _ _ _ _ => rfl, .refl s, fun _ => id, fun _ => id⟩

theorem Halts.trans (h1 : Halts h s t) (h2 : Halts h t u) : Halts h s u :=
  ⟨fun f hf k i => (h2.rd f hf k i).trans (h1.rd f hf k i), h1.closes.trans h2.closes, fun ring => h2.idle ring ∘ h1.idle ring,
    fun ring => h2.off ring ∘ h1.off ring⟩

/-- Work that writes no register but those that a halt may write. -/
theorem Halts.of_rd (hr : ∀ f, haltFree f = false → ∀ k i, t.rd f k i = s.rd f k i) (hc : Closes s t) : Halts h s t := by
  refine ⟨fun f hf => hr _ ?_, hc, fun ring => ?_, fun ring => ?_⟩
  · simp [haltFree, hf]
  · unfold RingIdle ringSt
    rw [hr _ rfl]
    exact id
  · rw [hr _ rfl]
    exact id

theorem Halts.of_touches {fs : List Fld} (ht : Touches s t fs) (hf : ∀ f ∈ fs, haltFree f = true) : Halts h s t :=
  .of_rd (fun f hff => ht.rd fun hm => by simp [hf f hm] at hff) (.of_eq (ht.part State.requests))

theorem workField_of_haltFree {f : Fld} (hf : haltFree f = false) : workField f = false := by
  cases f with
  | host f =>
    by_contra hw
    have hm : f ∈ [HostF.COAL_SEEN, .COAL_T0, .EVT_LOST_CNT, .FUNC_IRQ, .FUNC_STATUS_DRAINING, .MSIX_PBA, .RING_STATUS_CQ_PI] :=
      List.contains_iff_mem.mp (eq_true_of_ne_false hw)
    have hfree : ∀ g ∈ [HostF.COAL_SEEN, .COAL_T0, .EVT_LOST_CNT, .FUNC_IRQ, .FUNC_STATUS_DRAINING, .MSIX_PBA, .RING_STATUS_CQ_PI],
        haltFree (.host g) = true := by decide
    exact absurd (hfree f hm) (by simp [hf])
  | _ => cases hf

theorem Halts.of_leaves (hl : Leaves false s t) (hc : Closes s t) : Halts h s t :=
  .of_rd (fun f hf k i => hl.1 f k i (workField_of_haltFree hf)) hc

theorem ringSide_of_haltFree {f : Fld} (hf : haltFree f = false) : ringSide f = true := by
  cases f with
  | host f => rfl
  | _ => cases hf

theorem Halts.of_ctxMoves {same : Bool} (hm : CtxMoves same s t) : Halts h s t :=
  .of_rd (fun f hf k i => hm.1 f k i (ringSide_of_haltFree hf)) (.of_eq (hm.part State.requests))

theorem Halts.wr {f : Fld} (hf : haltFree f = true) (k : Half) (v i : Nat) : Halts h s (s.wr f k v i) :=
  .of_touches ((Touches.refl s [f]).wr List.mem_cons_self k v i) (by simpa using hf)

theorem Halts.upd (hr : t.regs = s.regs := by rfl) (hq : t.requests = s.requests := by rfl) : Halts h s t :=
  .of_rd (fun f _ k i => congrArg (·.get ⟨f, k, i⟩) hr) (.of_eq hq)

theorem Halts.wrEnable (ring : Nat) : Halts h s (s.wr (.host .RING_CTL_EN) h 0 ring) := by
  have hrd {f : HostF} (hf : f ≠ .RING_CTL_EN) (k : Half) (i : Nat) : (s.wr (.host .RING_CTL_EN) h 0 ring).rd (.host f) k i = s.rd (.host f) k i :=
    (State.rd_wr ..).trans (if_neg fun hc => hf (Fld.host.inj hc.1))
  refine ⟨fun f hf => hrd ?_, .refl s, fun i => ?_, fun i hi => ?_⟩
  · rintro rfl
    exact hf (by decide)
  · unfold RingIdle ringSt
    rw [hrd (by decide)]
    exact id
  · rw [State.rd_wr]
    split
    · rfl
    · exact hi

theorem ringSt_wr (s : State) (h : Half) (v ring : Nat) (hv : v < 4) (i : Nat) :
    ringSt (s.wr (.host .RING_STATE_STATE) h v ring) h i = if i = ring then v else ringSt s h i := by
  unfold ringSt
  rw [State.rd_wr]
  by_cases hi : i = ring
  · rw [if_pos hi, if_pos ⟨rfl, rfl, hi⟩]
    exact Nat.mod_eq_of_lt hv
  · rw [if_neg hi, if_neg fun hc => hi hc.2.2]

theorem Halts.wrState {v : Nat} (hv : v = 0 ∨ v = 2) (ring : Nat) : Halts h s (s.wr (.host .RING_STATE_STATE) h v ring) := by
  have hrd {f : HostF} (hf : f ≠ .RING_STATE_STATE) (k : Half) (i : Nat) :
      (s.wr (.host .RING_STATE_STATE) h v ring).rd (.host f) k i = s.rd (.host f) k i :=
    (State.rd_wr ..).trans (if_neg fun hc => hf (Fld.host.inj hc.1))
  refine ⟨fun f hf => hrd ?_, .refl s, fun i hi => ?_, fun i => ?_⟩
  · rintro rfl
    exact hf (by decide)
  · unfold RingIdle
    rw [ringSt_wr s h v ring (by omega)]
    split
    · exact hv
    · exact hi
  · rw [hrd (by decide)]
    exact id

theorem halts_relist : Halts h s (relist s h) := .of_touches (touches_relist s h) (by decide)

theorem halts_closeRequests (p : Request → Bool) (status : Nat) (silent : Bool) : Halts h s (closeRequests s p status silent) :=
  .of_leaves (leaves_closeRequests s p status silent) (closeRequests_closes s p status silent).1

/-! #### Rings -/

/-- What halting a ring does to the registers and the fetches, before its chains. -/
def haltRegs (s : State) (h : Half) (ring : Nat) : State :=
  if ringSt s h ring = 0 then dropFetches s h ring
  else ((dropFetches s h ring).wr (.host .RING_CTL_EN) h 0 ring).wr (.host .RING_STATE_STATE) h 2 ring

theorem halts_dropFetches (ring : Nat) : Halts h s (dropFetches s h ring) := .trans (t := { s with fetches := _ }) .upd (.wr (by decide) h _ ring)

theorem halts_haltRegs (ring : Nat) : Halts h s (haltRegs s h ring) := by
  unfold haltRegs
  split
  · exact halts_dropFetches ring
  · exact (halts_dropFetches ring).trans ((Halts.wrEnable ring).trans (.wrState (.inr rfl) ring))

theorem haltRegs_idle (ring : Nat) : RingIdle (haltRegs s h ring) h ring := by
  unfold haltRegs
  split
  · exact .inl ((State.rd_wr ..).trans ((if_neg (by simp)).trans ‹_›))
  · exact .inr (State.rd_wr_self ..)

theorem ringHalt_holds (ring status : Nat) : Halts h s (ringHalt s h ring status) ∧ RingIdle (ringHalt s h ring status) h ring := by
  have hlast : Halts h (haltRegs s h ring) (ringHalt s h ring status) := .trans (t := mapChains (haltRegs s h ring) _) .upd (.wr (by decide) h _ ring)
  exact ⟨(halts_haltRegs ring).trans hlast, hlast.idle ring (haltRegs_idle ring)⟩

theorem halts_ringDisabled (ring : Nat) : Halts h s (ringDisabled s h ring) := by
  obtain ⟨u, v, w, hu, hv, hw, he⟩ := ringDisabled_steps s h ring
  have h1 : Halts h s u := hu ▸ (Halts.wrState (.inl rfl) ring).trans .upd
  have h2 : Halts h v w := hw ▸ .of_ctxMoves (ctxMoves_standingLeave v h ring)
  rw [he]
  exact (h1.trans (.of_touches hv (by decide))).trans (h2.trans (.of_touches (touches_endPartStep w h (ringFn ring)) (by decide)))

theorem Halts.foldl {α : Type} {g : State → α → State} {l : List α} (hg : ∀ b, ∀ a ∈ l, Halts h b (g b a)) (b : State) :
    Halts h b (l.foldl g b) :=
  (foldl_keeps (P := fun _ _ => True) Halts.refl (fun _ _ _ => Halts.trans) (fun _ _ _ _ => id) (fun c a ha => ⟨hg c a ha, trivial⟩) b).1

theorem halts_settleRings (fn : Nat) : Halts h s (settleRings s h fn) := by
  refine Halts.foldl (fun b r _ => ?_) s
  split
  · exact halts_ringDisabled r
  · exact .refl b

/-! #### Registers -/

theorem ringBlock_haltFree {f : HostF} (hf : f ∈ ringBlock) : f = .RING_CTL_EN ∨ haltFree (.host f) = true :=
  (by decide : ∀ g ∈ ringBlock, g = HostF.RING_CTL_EN ∨ haltFree (.host g) = true) f hf

theorem resetRingBlock_holds (ring : Nat) : Halts h s (resetHost s h ringBlock ring) ∧
    (resetHost s h ringBlock ring).rd (.host .RING_CTL_EN) h ring = 0 := by
  have h0 : (Fld.host .RING_CTL_EN).reset h ring = 0 := rfl
  have hstep : ∀ b : State, ∀ f ∈ ringBlock, Halts h b (b.wr (.host f) h ((Fld.host f).reset h ring) ring) ∧
      (f = .RING_CTL_EN → (b.wr (.host f) h ((Fld.host f).reset h ring) ring).rd (.host .RING_CTL_EN) h ring = 0) := by
    intro b f hf
    rcases ringBlock_haltFree hf with rfl | hfree
    · rw [h0]
      exact ⟨.wrEnable ring, fun _ => State.rd_wr_self ..⟩
    · refine ⟨.wr hfree h _ ring, ?_⟩
      rintro rfl
      exact absurd hfree (by decide)
  obtain ⟨h1, h2⟩ := foldl_keeps (P := fun (f : HostF) (t : State) => f = .RING_CTL_EN → t.rd (.host .RING_CTL_EN) h ring = 0)
    Halts.refl (fun _ _ _ => Halts.trans) (fun _ _ _ hbc hb hf => hbc.off ring (hb hf)) hstep s
  exact ⟨h1, h2 .RING_CTL_EN (by decide) rfl⟩

theorem halts_zeroSlots (ring : Nat) : Halts h s (zeroSlots s h ring) := .upd

theorem rd_zeroSlots (ring : Nat) (f : Fld) (k : Half) (i : Nat) : (zeroSlots s h ring).rd f k i = s.rd f k i := rfl

theorem resetRing_holds (ring : Nat) : Halts h s (zeroSlots (resetHost s h ringBlock ring) h ring) ∧
    (zeroSlots (resetHost s h ringBlock ring) h ring).rd (.host .RING_CTL_EN) h ring = 0 := by
  obtain ⟨h1, h2⟩ := resetRingBlock_holds (s := s) (h := h) ring
  exact ⟨h1.trans (halts_zeroSlots ring), (rd_zeroSlots ..).trans h2⟩

theorem halts_resetHost {l : List HostF} (hl : ∀ f ∈ l, haltFree (.host f) = true) (i : Nat) : Halts h s (resetHost s h l i) :=
  .foldl (fun _ f hf => .wr (hl f hf) h _ i) s

theorem halts_resetMsix (fn : Nat) : Halts h s (resetMsix s h fn) := .foldl (fun _ _ _ => halts_resetHost (by decide) _) s

theorem resetFunction_holds (fn : Nat) : Halts h s (resetFunction s h fn) ∧
    ∀ ring ∈ ringsOf fn, (resetFunction s h fn).rd (.host .RING_CTL_EN) h ring = 0 := by
  obtain ⟨h1, h2⟩ := foldl_keeps (R := Halts h) (l := ringsOf fn) (P := fun ring (t : State) => t.rd (.host .RING_CTL_EN) h ring = 0)
    Halts.refl (fun _ _ _ => Halts.trans) (fun ring _ _ hbc => hbc.off ring)
    (g := fun t r => zeroSlots (resetHost t h ringBlock r) h r) (fun b ring _ => resetRing_holds ring) s
  have hlast (t : State) : Halts h t (resetMsix (resetHost t h funcBlock fn) h fn) :=
    (halts_resetHost (by decide) fn).trans (halts_resetMsix fn)
  exact ⟨h1.trans (hlast _), fun ring hr => (hlast _).off ring (h2 ring hr)⟩

/-! #### Functions -/

/-- A function is shut: its rings idle and not enabled, its requests closing. -/
def Shut (s : State) (h : Half) (fn : Nat) : Prop :=
  (∀ ring ∈ ringsOf fn, RingIdle s h ring ∧ s.rd (.host .RING_CTL_EN) h ring = 0) ∧
    ∀ r ∈ s.requests, r.half = h → ringFn r.ring = fn → r.closing = true

theorem Shut.keep {fn : Nat} (hs : Shut s h fn) (ht : Halts h s t) : Shut t h fn := by
  refine ⟨fun ring hr => ⟨ht.idle ring (hs.1 ring hr).1, ht.off ring (hs.1 ring hr).2⟩, fun r hr hh hg => ?_⟩
  exact ht.closes.closing (p := fun _ k ring => k = h ∧ ringFn ring = fn) (fun q hq hp => hs.2 q hq hp.1 hp.2) r hr ⟨hh, hg⟩

theorem haltFunction_holds (fn status : Nat) : Halts h s (haltFunction s h fn status) ∧
    (∀ ring ∈ ringsOf fn, RingIdle (haltFunction s h fn status) h ring) ∧
    ∀ r ∈ (haltFunction s h fn status).requests, r.half = h → ringFn r.ring = fn → r.closing = true := by
  unfold haltFunction
  extract_lets s1 s2
  obtain ⟨h1, hidle⟩ : Halts h s s1 ∧ ∀ ring ∈ ringsOf fn, RingIdle s1 h ring :=
    foldl_keeps (P := fun ring (t : State) => RingIdle t h ring) Halts.refl (fun _ _ _ => Halts.trans) (fun ring _ _ hbc => hbc.idle ring)
      (fun b ring _ => ringHalt_holds ring status) s
  have h2 : Halts h s1 s2 := halts_closeRequests _ status true
  have h3 : Halts h s2 (relist s2 h) := halts_relist
  refine ⟨h1.trans (h2.trans h3), fun ring hr => (h2.trans h3).idle ring (hidle ring hr), ?_⟩
  rw [requests_relist]
  exact closeFunction_closing s1 h fn status true

theorem killFunction_holds (fn status : Nat) : Halts h s (killFunction s h fn status) ∧ Shut (killFunction s h fn status) h fn := by
  obtain ⟨h1, hidle, hclosing⟩ := haltFunction_holds (s := s) (h := h) fn status
  have h2 : Halts h (haltFunction s h fn status) (settleRings (haltFunction s h fn status) h fn) := halts_settleRings fn
  obtain ⟨h3, hoff⟩ := resetFunction_holds (s := settleRings (haltFunction s h fn status) h fn) (h := h) fn
  have h4 : Halts h (resetFunction (settleRings (haltFunction s h fn status) h fn) h fn) (killFunction s h fn status) :=
    .wr (by decide) h _ fn
  have hlate := h2.trans (h3.trans h4)
  refine ⟨h1.trans hlate, fun ring hr => ⟨hlate.idle ring (hidle ring hr), h4.off ring (hoff ring hr)⟩, fun r hr hh hg => ?_⟩
  exact hlate.closes.closing (p := fun _ k ring => k = h ∧ ringFn ring = fn) (fun q hq hp => hclosing q hq hp.1 hp.2) r hr ⟨hh, hg⟩

theorem killHalf_holds (status : Nat) : Halts h s (killHalf s h status) ∧ ∀ fn < 65, Shut (killHalf s h status) h fn := by
  obtain ⟨h1, h2⟩ := foldl_keeps (P := fun fn t => Shut t h fn) (l := List.range 65) Halts.refl (fun _ _ _ => Halts.trans)
    (fun fn _ _ hbc hb => hb.keep hbc) (g := fun t fn => killFunction t h fn status) (fun b fn _ => killFunction_holds fn status) s
  exact ⟨h1, fun fn hfn => h2 fn (List.mem_range.mpr hfn)⟩

end

/-! ### Every function of a half (Table 4.7) -/

theorem ringFn_lt {ring : Nat} : ringFn ring < 65 := by
  unfold ringFn
  split
  · decide
  · omega

theorem mem_ringsOf {ring : Nat} (hr : ring < 520) : ring ∈ ringsOf (ringFn ring) := by
  unfold ringsOf ringFn
  refine List.mem_map.mpr ⟨ringNo ring, List.mem_range.mpr ?_, ?_⟩
  all_goals
    unfold ringNo
    split
  · omega
  · omega
  · unfold fnRing
    rw [if_pos rfl]
    omega
  · unfold fnRing
    rw [if_neg (by simp only [pf]; omega)]
    omega

theorem fnRing_mem_ringsOf {fn k : Nat} (hk : k < 8) : fnRing fn k ∈ ringsOf fn := List.mem_map.mpr ⟨k, List.mem_range.mpr hk, rfl⟩

section
variable {h : Half} {s t u : State}

/-- What a reset of the host side writes before it kills the half's functions. -/
def downFields : List Fld := [.host .LINK_STATUS_LINK_UP, .host .LINK_STATUS_IDE, .sec .IDE_ON, .sec .IDE_SET, .sec .IDE_KEY, .sec .IDE_KEY_V,
  .host .NUM_VFS, .host .VF_EXISTS, .host .BME, .host .D3HOT]

theorem touches_linkDown : Touches s (linkDown s h) downFields := by
  have hstop {b : State} (hb : Touches s b downFields) (i : Nat) : Touches s (ideStop b h i) downFields :=
    (((((hb.wr (by decide) h 0 i).wr (by decide) h 0 i).wr (by decide) h 0 _).wr (by decide) h 0 _).wr (by decide) h 0 _).wr (by decide) h 0 _
  exact .foldl (((Touches.refl s _).wr (by decide) h 0 0).wr (by decide) h 0 0) (fun _ i hb => hstop hb i) _

theorem rd_linkDown : (linkDown s h).rd (.host .LINK_STATUS_LINK_UP) h 0 = 0 := by
  refine List.foldlRecOn (motive := fun t : State => t.rd (.host .LINK_STATUS_LINK_UP) h 0 = 0) _ _ ?_ fun t ht i _ => ?_
  · simp
  · simpa [ideStop] using ht

theorem touches_limitVfs (n : Nat) : Touches s (limitVfs s h n) [.host .VF_EXISTS] :=
  .foldl (.refl s _) (fun _ p hb => hb.wr (by decide) h _ p) _

theorem rd_limitVfs (n : Nat) {p : Nat} (hp : p < 64) : (limitVfs s h n).rd (.host .VF_EXISTS) h p = bit (decide (p < n)) := by
  refine (rd_foldl_wr (idx := fun i => i) (fun _ _ he => he) s 64 p).trans ((if_pos hp).trans ?_)
  exact Nat.mod_eq_of_lt (by unfold bit; split <;> decide)

theorem touches_resetPcie : Touches s (resetPcie s h) downFields :=
  .foldl (((Touches.refl s downFields).wr (by decide) h 0 0).trans ((touches_limitVfs 0).mono (by decide)))
    (fun _ fn hb => (hb.wr (by decide) h 0 fn).wr (by decide) h 0 fn) _

theorem rd_resetPcie {p : Nat} (hp : p < 64) : (resetPcie s h).rd (.host .VF_EXISTS) h p = 0 := by
  have hfold : Touches (limitVfs (s.wr (.host .NUM_VFS) h 0) h 0) (resetPcie s h) [.host .BME, .host .D3HOT] :=
    .foldl (.refl _ _) (fun _ fn hb => (hb.wr (by decide) h 0 fn).wr (by decide) h 0 fn) _
  rw [hfold.rd (by decide), rd_limitVfs 0 hp]
  rfl

/-- What a kill of the half leaves, between the writes before it and the writes of the events after it. -/
theorem killed_holds {status : Nat} (hpre : Touches s u downFields) (hpost : Touches (killHalf u h status) t [.host .LINK_EVT, .host .PERST_N]) :
    (∀ r ∈ t.requests, r.half = h → r.closing = true) ∧
    (∀ ring < 520, (ringSt t h ring = 0 ∨ ringSt t h ring = 2) ∧ t.rd (.host .RING_CTL_EN) h ring = 0 ∧
      t.rd (.host .PIN_ALLOC) h ring = s.rd (.host .PIN_ALLOC) h ring) ∧
    t.rd (.host .SETUP_LOCK_LOCK) h 0 = s.rd (.host .SETUP_LOCK_LOCK) h 0 ∧
    (∀ p, t.rd (.host .VF_EXISTS) h p = u.rd (.host .VF_EXISTS) h p) ∧
    t.rd (.host .LINK_STATUS_LINK_UP) h 0 = u.rd (.host .LINK_STATUS_LINK_UP) h 0 := by
  obtain ⟨hk, hshut⟩ := killHalf_holds (s := u) (h := h) status
  have hrd {f : HostF} (hf : f ∉ haltFields) (hp : Fld.host f ∉ [Fld.host .LINK_EVT, .host .PERST_N]) (i : Nat) :
      t.rd (.host f) h i = u.rd (.host f) h i := (hpost.rd hp h i).trans (hk.rd f hf h i)
  refine ⟨fun r hr hh => ?_, fun ring hlt => ?_, ?_, fun p => hrd (by decide) (by decide) p, hrd (by decide) (by decide) 0⟩
  · rw [hpost.part State.requests] at hr
    exact (hshut _ ringFn_lt).2 r hr hh rfl
  · obtain ⟨hidle, hoff⟩ := (hshut _ ringFn_lt).1 ring (mem_ringsOf hlt)
    refine ⟨?_, (hpost.rd (by decide) h ring).trans hoff, (hrd (by decide) (by decide) ring).trans (hpre.rd (by decide) h ring)⟩
    have hst : ringSt t h ring = ringSt (killHalf u h status) h ring := hpost.rd (by decide) h ring
    rwa [hst]
  · exact (hrd (by decide) (by decide) 0).trans (hpre.rd (by decide) h 0)

theorem touches_linkEvent (bits : Nat) : Touches s (linkEvent s h bits) [.host .LINK_EVT, .host .PERST_N] := (Touches.refl s _).wr (by decide) h _ 0

theorem touches_hostReset : Touches (killHalf (resetPcie (linkDown s h) h) h ST_HOST_LINK_DOWN) (hostReset s h) [.host .LINK_EVT, .host .PERST_N] :=
  .ite (touches_linkEvent 2) (.refl _ _)

/-- PERST# and a Hot Reset: the host side reset, with what follows. -/
theorem conventional_holds (hpost : Touches (hostReset s h) t [.host .LINK_EVT, .host .PERST_N]) :
    (∀ r ∈ t.requests, r.half = h → r.closing = true) ∧
    (∀ ring < 520, (ringSt t h ring = 0 ∨ ringSt t h ring = 2) ∧ t.rd (.host .RING_CTL_EN) h ring = 0 ∧
      t.rd (.host .PIN_ALLOC) h ring = s.rd (.host .PIN_ALLOC) h ring) ∧
    t.rd (.host .SETUP_LOCK_LOCK) h 0 = s.rd (.host .SETUP_LOCK_LOCK) h 0 ∧
    (∀ p < 64, t.rd (.host .VF_EXISTS) h p = 0) ∧ t.rd (.host .LINK_STATUS_LINK_UP) h 0 = 0 := by
  obtain ⟨h1, h2, h3, h4, h5⟩ := killed_holds (touches_linkDown.trans touches_resetPcie) (touches_hostReset.trans hpost)
  refine ⟨h1, h2, h3, fun p hp => (h4 p).trans (rd_resetPcie hp), h5.trans ?_⟩
  have hfold : Touches (linkDown s h) (resetPcie (linkDown s h) h) [.host .NUM_VFS, .host .VF_EXISTS, .host .BME, .host .D3HOT] :=
    .foldl (((Touches.refl _ _).wr (by decide) h 0 0).trans ((touches_limitVfs 0).mono (by decide)))
      (fun _ fn hb => (hb.wr (by decide) h 0 fn).wr (by decide) h 0 fn) _
  exact (hfold.rd (by decide) h 0).trans rd_linkDown

theorem linkLost_holds : ∀ c ∈ [Instr.perstAssert h, .hotReset h, .dlDown h, .flrPf h], (c = .flrPf h → configOpen s h = true) →
    Gives c s fun t =>
      (∀ r ∈ t.requests, r.half = h → r.closing = true) ∧
      (∀ ring < 520, (ringSt t h ring = 0 ∨ ringSt t h ring = 2) ∧ t.rd (.host .RING_CTL_EN) h ring = 0 ∧
        t.rd (.host .PIN_ALLOC) h ring = s.rd (.host .PIN_ALLOC) h ring) ∧
      t.rd (.host .SETUP_LOCK_LOCK) h 0 = s.rd (.host .SETUP_LOCK_LOCK) h 0 ∧
      (∀ p < 64, t.rd (.host .VF_EXISTS) h p = 0 ∨ c = .dlDown h) ∧
      (c ≠ .flrPf h → t.rd (.host .LINK_STATUS_LINK_UP) h 0 = 0) := by
  refine List.forall_mem_cons.mpr ⟨fun _ => ⟨_, rfl, ?_⟩, List.forall_mem_cons.mpr ⟨fun _ => ⟨_, rfl, ?_⟩, List.forall_mem_cons.mpr
    ⟨fun _ => ⟨_, rfl, ?_⟩, List.forall_mem_singleton.mpr fun ho => ⟨_, if_pos (ho rfl), ?_⟩⟩⟩⟩
  · obtain ⟨h1, h2, h3, h4, h5⟩ := conventional_holds (s := s) (h := h) ((Touches.refl _ _).wr (f := .host .PERST_N) (by decide) h 0 0)
    exact ⟨h1, h2, h3, fun p hp => .inl (h4 p hp), fun _ => h5⟩
  · obtain ⟨h1, h2, h3, h4, h5⟩ := conventional_holds (s := s) (h := h) (.refl _ _)
    exact ⟨h1, h2, h3, fun p hp => .inl (h4 p hp), fun _ => h5⟩
  · obtain ⟨h1, h2, h3, -, h5⟩ := killed_holds (s := s) (status := ST_HOST_LINK_DOWN) touches_linkDown (touches_linkEvent 1)
    exact ⟨h1, h2, h3, fun _ _ => .inr rfl, fun _ => h5.trans rd_linkDown⟩
  · obtain ⟨h1, h2, h3, h4, -⟩ := killed_holds (s := s) (status := ST_FLR) touches_resetPcie (touches_linkEvent 4)
    exact ⟨h1, h2, h3, fun p hp => .inl ((h4 p).trans (rd_resetPcie hp)), fun hn => absurd rfl hn⟩

/-! ### One function (Table 4.7) -/

theorem rrs_holds (ho : configOpen s h = false) (fn : Nat) (en : Bool) :
    ∀ c ∈ [Instr.flrPf h, .flrVf h fn, .bmeClear h fn, .d3hotEnter h fn, .vfEnableChange h en fn], Sets c s [] := by
  have hn : ¬ configOpen s h = true := by simp [ho]
  simp only [List.forall_mem_cons, List.not_mem_nil, false_imp_iff, implies_true, and_true]
  exact ⟨sets_of_next (if_neg hn), sets_of_next (if_neg fun hc => hn hc.2.2), sets_of_next (if_neg fun hc => hn hc.2),
    sets_of_next (if_neg fun hc => hn hc.2), sets_of_next (if_neg hn)⟩

/-- The registers of a VF's FAULT view. -/
def faultViewFields : List Fld := [.flt .FLT_LOG_BASE, .flt .FLT_SMP_BASE, .flt .FLT_LOG_CFG_EN, .flt .FLT_LOG_CFG_SMP_LOG2,
  .flt .FLT_LOG_CFG_LOG2, .flt .FLT_LOG_PI, .flt .FLT_LOG_CI, .flt .FLT_LOG_LOST, .flt .RING_WDT_ACT, .flt .RING_WDT_MS]

theorem touches_resetFaultView (vf : Nat) : Touches s (resetFaultView s h vf) faultViewFields := by
  unfold resetFaultView
  extract_lets put s1
  have h1 : Touches s s1 faultViewFields :=
    ((((((((Touches.refl s _).wr (by decide) h _ vf).wr (by decide) h _ vf).wr (by decide) h _ vf).wr (by decide) h _ vf).wr
      (by decide) h _ vf).wr (by decide) h _ vf).wr (by decide) h _ vf).wr (by decide) h _ vf
  exact .foldl h1 (fun _ r hb => (hb.wr (by decide) h _ r).wr (by decide) h _ r) _

theorem flrVf_holds (ho : configOpen s h = true) (vf : Nat) (hv : vf < 64) (hx : s.rd (.host .VF_EXISTS) h vf = 1) :
    Gives (.flrVf h vf) s fun t => t.rd (.host .BME) h vf = 0 ∧
      (∀ r ∈ t.requests, r.half = h → ringFn r.ring = vf → r.closing = true) ∧
      ∀ k < 8, ringSt t h (8 * vf + k) = 0 ∨ ringSt t h (8 * vf + k) = 2 := by
  obtain ⟨hk, hrings, hclosing⟩ := killFunction_holds (s := (s.wr (.host .BME) h 0 vf).wr (.host .D3HOT) h 0 vf) (h := h) vf ST_FLR
  have hview := touches_resetFaultView (s := killFunction ((s.wr (.host .BME) h 0 vf).wr (.host .D3HOT) h 0 vf) h vf ST_FLR) (h := h) vf
  refine ⟨_, if_pos ⟨hv, hx, ho⟩, ?_, fun r hr => ?_, fun k h8 => ?_⟩
  · rw [hview.rd (by decide), hk.rd _ (by decide)]
    simp
  · rw [hview.part State.requests] at hr
    exact hclosing r hr
  · have hring : fnRing vf k = 8 * vf + k := if_neg (by simp only [pf]; omega)
    have hidle := (hrings _ (fnRing_mem_ringsOf h8)).1
    rw [hring] at hidle
    have hst : ringSt (resetFaultView _ h vf) h (8 * vf + k) = _ := hview.rd (by decide) h (8 * vf + k)
    rwa [hst]

theorem fnRing_injective (fn : Nat) : Function.Injective (fnRing fn) := by
  intro a b he
  unfold fnRing at he
  split at he <;> omega

/-- A function whose fetches stop: QUIET on its rings, its requests closing, and its rings' own registers as they were. -/
theorem stopFunction_holds (fn status : Nat) :
    (∀ r ∈ (stopFunction s h fn status).requests, r.half = h → ringFn r.ring = fn → r.closing = true) ∧
    (∀ k < 8, (stopFunction s h fn status).rd (.host .RING_QUIET) h (fnRing fn k) = 1) ∧
    ∀ f, haltFree (.host f) = false ∨ f ∈ [HostF.RING_BASE, .RING_STATUS_PI] → ∀ i,
      (stopFunction s h fn status).rd (.host f) h i = s.rd (.host f) h i := by
  unfold stopFunction
  extract_lets s1 s2
  have h1 : Touches s s1 [.host .RING_QUIET] := .foldl (.refl s _) (fun _ r hb => hb.wr (by decide) h 1 r) _
  have h2 : Leaves false s1 s2 := leaves_closeRequests ..
  have hl {f : HostF} (hw : workField (.host f) = false) (i : Nat) :
      (refreshDraining (relist s2 h) h fn).rd (.host f) h i = s1.rd (.host f) h i := by
    have hne : Fld.host f ≠ .host .FUNC_STATUS_DRAINING := by
      intro he
      rw [he] at hw
      cases hw
    have hlist : Fld.host f ∉ listFields := by simp [listFields]
    exact ((State.rd_wr ..).trans (if_neg fun hc => hne hc.1)).trans (((touches_relist s2 h).rd hlist h i).trans (h2.rd hw h i))
  refine ⟨?_, fun k hk => ?_, fun f hf i => ?_⟩
  · rw [requests_refreshDraining, requests_relist]
    exact closeFunction_closing s1 h fn status true
  · rw [hl rfl]
    show ((ringsOf fn).foldl (fun t r => t.wr (.host .RING_QUIET) h 1 r) s).rd _ h _ = 1
    unfold ringsOf
    rw [List.foldl_map]
    exact (rd_foldl_wr (val := fun _ => 1) (fnRing_injective fn) s 8 k).trans (if_pos hk)
  · have hw : workField (.host f) = false ∧ f ≠ .RING_QUIET := by
      rcases hf with hf | hf
      · exact ⟨workField_of_haltFree hf, by rintro rfl; cases hf⟩
      · exact (by decide : ∀ g ∈ [HostF.RING_BASE, .RING_STATUS_PI], workField (.host g) = false ∧ g ≠ .RING_QUIET) f hf
    exact (hl hw.1 i).trans (h1.rd (by simpa using hw.2) h i)

theorem stopped_holds (ho : configOpen s h = true) {fn : Nat} (hfn : fn ≤ pf) : ∀ c ∈ [Instr.bmeClear h fn, .d3hotEnter h fn],
    Gives c s fun t => t.hostOk h fn = false ∧ (∀ r ∈ t.requests, r.half = h → ringFn r.ring = fn → r.closing = true) ∧
      ∀ k < 8, t.rd (.host .RING_QUIET) h (fnRing fn k) = 1 ∧ ∀ f ∈ [HostF.RING_STATE_STATE, .RING_CTL_EN, .RING_BASE, .RING_STATUS_PI],
        t.rd (.host f) h (fnRing fn k) = s.rd (.host f) h (fnRing fn k) := by
  have hkept {f : HostF} (hf : f ∈ [HostF.RING_STATE_STATE, .RING_CTL_EN, .RING_BASE, .RING_STATUS_PI]) :
      (haltFree (.host f) = false ∨ f ∈ [HostF.RING_BASE, .RING_STATUS_PI]) ∧ f ≠ .BME ∧ f ≠ .D3HOT :=
    (by decide : ∀ g ∈ [HostF.RING_STATE_STATE, .RING_CTL_EN, .RING_BASE, .RING_STATUS_PI],
      (haltFree (.host g) = false ∨ g ∈ [HostF.RING_BASE, .RING_STATUS_PI]) ∧ g ≠ .BME ∧ g ≠ .D3HOT) f hf
  simp only [List.forall_mem_cons (a := Instr.bmeClear h fn), List.forall_mem_singleton]
  constructor
  · obtain ⟨hclosing, hquiet, hrd⟩ := stopFunction_holds (s := s.wr (.host .BME) h 0 fn) (h := h) fn ST_HOST_LINK_DOWN
    refine ⟨_, if_pos ⟨hfn, ho⟩, ?_, hclosing, fun k hk => ⟨hquiet k hk, fun f hf => ?_⟩⟩
    · have hbme : (stopFunction (s.wr (.host .BME) h 0 fn) h fn ST_HOST_LINK_DOWN).rd (.host .BME) h fn = 0 :=
        (hrd .BME (.inl rfl) fn).trans (State.rd_wr_self ..)
      simp [State.hostOk, hbme]
    · obtain ⟨hf', hb, -⟩ := hkept hf
      exact (hrd f hf' _).trans ((State.rd_wr ..).trans (if_neg fun hc => hb (Fld.host.inj hc.1)))
  · obtain ⟨hclosing, hquiet, hrd⟩ := stopFunction_holds (s := s.wr (.host .D3HOT) h 1 fn) (h := h) fn ST_HOST_LINK_DOWN
    refine ⟨_, if_pos ⟨hfn, ho⟩, ?_, hclosing, fun k hk => ⟨hquiet k hk, fun f hf => ?_⟩⟩
    · have hd3 : (stopFunction (s.wr (.host .D3HOT) h 1 fn) h fn ST_HOST_LINK_DOWN).rd (.host .D3HOT) h fn = 1 :=
        (hrd .D3HOT (.inl rfl) fn).trans (State.rd_wr_self ..)
      simp [State.hostOk, hd3]
    · obtain ⟨hf', -, hd⟩ := hkept hf
      exact (hrd f hf' _).trans ((State.rd_wr ..).trans (if_neg fun hc => hd (Fld.host.inj hc.1)))

theorem vfEnableChange_holds (ho : configOpen s h = true) (en : Bool) (n : Nat) : Gives (.vfEnableChange h en n) s fun t =>
    let m := if en then min n 64 else 0
    t.rd (.host .NUM_VFS) h 0 = m ∧ ∀ p < 64, t.rd (.host .VF_EXISTS) h p = bit (decide (p < m)) := by
  refine ⟨_, if_pos ho, ?_⟩
  extract_lets m
  have hm : m % 2 ^ (Fld.host .NUM_VFS).width = m := Nat.mod_eq_of_lt (lt_of_le_of_lt (b := 64) (by simp only [m]; split <;> omega) (by decide))
  exact ⟨((touches_limitVfs m).rd (by decide) h 0).trans ((State.rd_wr_self ..).trans hm), fun p hp => rd_limitVfs m hp⟩

/-! ### The link comes up (R129) -/

theorem pcieLinkUp_holds {width rate : Nat} {flit : Bool} (hp : s.rd (.host .PERST_N) h 0 = 1) (hopt : linkOptionOk width rate flit = true) :
    Gives (.pcieLinkUp h width rate flit) s fun t =>
      t.rd (.host .LINK_STATUS_LINK_UP) h 0 = 1 ∧ t.rd (.host .LINK_STATUS_WIDTH) h 0 = width ∧
      t.rd (.host .LINK_STATUS_RATE) h 0 = rate ∧ Touches s t [.host .BME, .host .D3HOT, .host .LINK_STATUS_LINK_UP,
        .host .LINK_STATUS_WIDTH, .host .LINK_STATUS_RATE, .host .LINK_STATUS_FLIT] := by
  obtain ⟨⟨-, hw, -, hr⟩, -⟩ : (2 ≤ width ∧ width ≤ 4 ∧ 1 ≤ rate ∧ rate ≤ 6) ∧ (rate ≠ 6 ∨ flit = true) := by
    simpa [linkOptionOk] using hopt
  have hw' : width % 2 ^ (Fld.host .LINK_STATUS_WIDTH).width = width := Nat.mod_eq_of_lt (lt_of_le_of_lt hw (by decide))
  have hr' : rate % 2 ^ (Fld.host .LINK_STATUS_RATE).width = rate := Nat.mod_eq_of_lt (lt_of_le_of_lt hr (by decide))
  refine ⟨_, if_pos ⟨hp, hopt⟩, ?_, ?_, ?_, ?_⟩
  · simp [Fld.width, HostF.width]
  · simpa using hw'
  · simpa using hr'
  · exact ((((Touches.foldl (.refl s _) (fun _ fn hb => (hb.wr (by decide) h 1 fn).wr (by decide) h 0 fn) _).wr (by decide) h 1 0).wr
      (by decide) h width 0).wr (by decide) h rate 0).wr (by decide) h _ 0

end

/-- Settles O32: one lemma above for each kind of event. -/
theorem hostLinkResets : Obligations.HostLinkResets := by
  intro h s
  refine ⟨linkLost_holds, fun ho fn en => rrs_holds ho fn en, fun ho => ⟨flrVf_holds ho, fun fn hfn => stopped_holds ho hfn,
    vfEnableChange_holds ho⟩, ⟨_, rfl, (Only.refl s).wr_lt (by decide)⟩, fun width rate flit => ⟨fun hg => ?_, fun hg => ?_⟩⟩
  · exact sets_of_next (if_neg hg)
  · exact pcieLinkUp_holds hg.1 hg.2

end Sys2Proof
end

section
/-!
Completion records, chains that join and chains that leave: O35.
-/

namespace Sys2Proof

open Machine

set_option Elab.async false

/-! ### A completion record (R162, R164) -/

/-- A written run reads back. -/
theorem Machine.Memory.readN_writeN (m : Memory) (a : Nat) (bs : List Byte) : (m.writeN a bs).readN a bs.length = bs := by
  induction bs generalizing m a with
  | nil => rfl
  | cons b r ih =>
    show ((m.write a b).writeN (a + 1) r).read a :: ((m.write a b).writeN (a + 1) r).readN (a + 1) r.length = b :: r
    rw [ih, Memory.read_writeN_out (.inl a.lt_succ_self), Memory.read_write_self]

section
variable {s s₀ t : State} {h : Half} {ring : Nat}

theorem recBytes_length (m : Nat) (r : CqRec) : (recBytes s h ring m r).length = 32 := by
  simp [recBytes, leBytes_length]

/-- The fields that a record writes besides CQ_PI. -/
def recordFields : List Fld := [.host .COAL_SEEN, .host .COAL_T0, .host .MSIX_PBA, .tel .LIVE_SLOT]

theorem touches_moderate (now : Bool) : Touches s (moderate s h ring now) recordFields :=
  .ite (touches_signalRing.mono (by decide)) (.ite (((Touches.refl s _).wr (by decide) h 1 ring).wr (by decide) h _ ring)
    ((Touches.refl s _).wr (by decide) h _ ring))

/-- Where a record of a completion ring goes: the slot that CQ_PI names. -/
def slotOf (s : State) (h : Half) (ring : Nat) : Nat :=
  hostBit + s.rd (.host .CQ_BASE) h ring + s.rd (.host .RING_STATUS_CQ_PI) h ring % cqSize s h ring * 32

/-- A record is 32 bytes of memory, CQ_PI, and what counts and signals it. -/
theorem writeRecord_steps (hok : s.hostOk h (ringFn ring) = true) (r : CqRec) (now : Bool) :
    Touches (State.wr { s with mem := s.mem.writeN (slotOf s h ring) (recBytes s h ring (s.rd (.host .RING_STATUS_CQ_PI) h ring) r) }
      (.host .RING_STATUS_CQ_PI) h (s.rd (.host .RING_STATUS_CQ_PI) h ring + 1) ring) (writeRecord s h ring r now) recordFields := by
  unfold writeRecord
  rw [if_pos hok]
  exact (((Touches.refl _ _).bump (by decide) h 3 3 1).bump (by decide) h 3 1 32).trans (touches_moderate now)

theorem writeRecord_down (hok : s.hostOk h (ringFn ring) = false) (r : CqRec) (now : Bool) : writeRecord s h ring r now = s :=
  if_neg (by simp [hok])

theorem writeRecord_holds (hok : s.hostOk h (ringFn ring) = true) (r : CqRec) (now : Bool) :
    (writeRecord s h ring r now).mem.readN (slotOf s h ring) 32 = recBytes s h ring (s.rd (.host .RING_STATUS_CQ_PI) h ring) r ∧
      ∀ x, x < slotOf s h ring ∨ slotOf s h ring + 32 ≤ x → (writeRecord s h ring r now).mem.read x = s.mem.read x := by
  have hmem : (writeRecord s h ring r now).mem =
      s.mem.writeN (slotOf s h ring) (recBytes s h ring (s.rd (.host .RING_STATUS_CQ_PI) h ring) r) :=
    (writeRecord_steps hok r now).part State.mem
  rw [hmem]
  refine ⟨?_, fun x hx => Memory.read_writeN_out (by rwa [recBytes_length])⟩
  have hread := Memory.readN_writeN s.mem (slotOf s h ring) (recBytes s h ring (s.rd (.host .RING_STATUS_CQ_PI) h ring) r)
  rwa [recBytes_length] at hread

/-! ### Chains released late (R477) -/

theorem touches_countLate : Touches s (countLate s h) (.tim .LATE_CNT :: .tim .TIME_EVT :: msgFields) :=
  ((Touches.refl s _).inc (by decide) h 1 0).raiseCause (by decide) (by decide) h _

theorem touches_countDrop : Touches s (countDrop s h) (.tim .DROP_CNT :: .tim .TIME_EVT :: msgFields) :=
  ((Touches.refl s _).inc (by decide) h 1 0).raiseCause (by decide) (by decide) h _

/-! ### Registers that the end of a chain leaves -/

/-- What the records and the signal of a chain are read from. -/
def endFields : List Fld :=
  [.desc .EVC_VAL, .host .RING_STATUS_CQ_PI, .host .LINK_STATUS_LINK_UP, .host .BME, .host .D3HOT]

/-- The registers of `endFields` read in `t` as they do in `s`. -/
def Calm (s t : State) : Prop := ∀ f ∈ endFields, ∀ k i, t.rd f k i = s.rd f k i

theorem Calm.refl (s : State) : Calm s s := fun _ _ _ _ => rfl

theorem Calm.trans {u : State} (h1 : Calm s t) (h2 : Calm t u) : Calm s u := fun f hf k i => (h2 f hf k i).trans (h1 f hf k i)

/-- Parts of the state that are no register do not matter. -/
theorem Calm.upd (hs : Calm s₀ s) (he : t.regs = s.regs := by rfl) : Calm s₀ t :=
  fun f hf k i => (congrArg (·.get ⟨f, k, i⟩) he).trans (hs f hf k i)

theorem Calm.wr (hs : Calm s₀ s) {f : Fld} {k : Half} {v i : Nat} (hf : f ∉ endFields := by decide) :
    Calm s₀ (s.wr f k v i) := by
  intro g hg k j
  rw [State.rd_wr, if_neg]
  · exact hs g hg k j
  · rintro ⟨rfl, -⟩
    exact hf hg

theorem Calm.inc (hs : Calm s₀ s) {f : Fld} {k : Half} {n i : Nat} (hf : f ∉ endFields := by decide) :
    Calm s₀ (s.inc f k n i) := .wr hs hf

theorem Calm.bump (hs : Calm s₀ s) {k : Half} {g slot n : Nat} : Calm s₀ (bump s k g slot n) := .inc hs

theorem Calm.ite {a b : State} {c : Prop} [Decidable c] (ha : Calm s₀ a) (hb : Calm s₀ b) : Calm s₀ (if c then a else b) := by
  split <;> assumption

theorem Calm.foldl {α : Type} {f : State → α → State} {l : List α} {b : State} (hb : Calm s₀ b) (hf : ∀ b a, Calm s₀ b → Calm s₀ (f b a)) :
    Calm s₀ (l.foldl f b) := List.foldlRecOn l f hb fun b hb a _ => hf b a hb

/-- A run of steps on a state and something beside it. -/
theorem Calm.foldlFst {α β : Type} {f : State × β → α → State × β} {l : List α} {b : State × β} (hb : Calm s₀ b.1)
    (hf : ∀ b a, Calm s₀ b.1 → Calm s₀ (f b a).1) : Calm s₀ (l.foldl f b).1 :=
  List.foldlRecOn (motive := fun b : State × β => Calm s₀ b.1) l f hb fun b hb a _ => hf b a hb

theorem Calm.of_touches {fs : List Fld} (hs : Calm s₀ s) (ht : Touches s t fs) (hf : ∀ f ∈ endFields, f ∉ fs := by decide) : Calm s₀ t :=
  hs.trans fun f hm => ht.rd (hf f hm)

theorem Calm.of_ctxMoves {same : Bool} (hs : Calm s₀ s) (hm : CtxMoves same s t) : Calm s₀ t :=
  hs.trans fun f hf k i => hm.1 f k i ((by decide : ∀ g ∈ endFields, ringSide g = true) f hf)

theorem Calm.hostOk (hs : Calm s t) (fn : Nat) : t.hostOk h fn = s.hostOk h fn := by
  unfold State.hostOk
  rw [hs _ (by decide), hs _ (by decide), hs _ (by decide)]

section
variable (hs : Calm s₀ s)
include hs

/-! #### Slots and pages -/

theorem Calm.addHeld {tag n : Nat} {up : Bool} : Calm s₀ (addHeld s h tag up n) := .wr hs (by split <;> decide)

theorem Calm.tagSlots {i n tag : Nat} : Calm s₀ (tagSlots s h i n tag) := hs

theorem Calm.setRequest {num : Nat} {f : Request → Request} : Calm s₀ (setRequest s num f) := hs

theorem Calm.clearSlot {i : Nat} : Calm s₀ (clearSlot s h i) := .ite hs (.inc (.addHeld (.tagSlots hs)))

theorem Calm.freeSlot {i k : Nat} : Calm s₀ (freeSlot s h i k) := .ite (.upd hs) (.foldl hs fun _ _ ht => .clearSlot ht)

theorem Calm.freeValleyPage {p v : Nat} : Calm s₀ (freeValleyPage s h p v) := .wr (.upd hs)

theorem Calm.freeHeldBy {r : Request} {l g j : Nat} : Calm s₀ (freeHeldBy s r l g j) :=
  .ite (.ite (.ite (.freeSlot hs) hs) (.ite (.freeValleyPage hs) (.ite (.upd hs) hs))) hs

theorem Calm.setEntry {r : Request} {l g j : Nat} {e : Entry} : Calm s₀ (setEntry s r l g j e) := hs

theorem Calm.freePage {r : Request} {l g j : Nat} : Calm s₀ (freePage s r l g j) := .setEntry (.freeHeldBy hs)

theorem Calm.dropGuests {num layer : Nat} {pages : List RingPage} : Calm s₀ (dropGuests s h num layer pages) := by
  refine .foldl hs fun t p ht => ?_
  split
  · exact ht
  · extract_lets e k
    exact .ite (.ite (.setRequest (.tagSlots (.setEntry ht))) (.setEntry ht)) ht

theorem Calm.allocClose {r : Request} {b : List Byte} {ok : Bool} {done part : Nat} {pages : List Nat} :
    Calm s₀ (allocClose s r b ok done part pages).1 := by
  refine .foldlFst hs fun a l ha => .foldlFst (.upd ha) fun t q ht => ?_
  extract_lets made
  split
  · exact ht
  · split
    · exact .setEntry ht
    · split
      · exact .freePage ht
      · exact ht

theorem Calm.closeAlloc {c : Chain} : Calm s₀ (closeAlloc s c).1 := by
  unfold Machine.closeAlloc
  split_ifs
  · split
    · exact .allocClose hs
    · exact hs
  · split
    · exact .foldl hs fun _ _ ht => .freeSlot ht
    · exact hs
  · dsimp only
    split
    · exact .upd hs
    · exact hs
  · exact hs

theorem Calm.updateScores {c : Chain} : Calm s₀ (updateScores s c) := by
  unfold Machine.updateScores
  split
  · exact hs
  · split
    · exact hs
    · exact .foldl hs fun _ _ ht => .ite (.upd ht) ht

/-! #### Chains that wait -/

theorem Calm.clearCur : Calm s₀ (clearCur s h) := .foldl hs fun _ _ ht => .foldl ht fun _ _ hu => .ite hu (.wr hu)

theorem Calm.rearmList {mt : Bool} : Calm s₀ (rearmList s h mt) := .of_touches hs (touches_rearmList s h mt)

theorem Calm.relist : Calm s₀ (relist s h) := .of_touches hs (touches_relist s h)

theorem Calm.countLate : Calm s₀ (countLate s h) := .of_touches hs touches_countLate

theorem Calm.countDrop : Calm s₀ (countDrop s h) := .of_touches hs touches_countDrop

theorem Calm.accept {c : Chain} : Calm s₀ (accept s c) := by
  unfold Machine.accept
  extract_lets u
  have hu : Calm s₀ u := .clearCur hs
  split
  · exact .upd hu
  · exact .ite (.upd hu) (.ite (.rearmList (.upd hu)) (.ite (.countDrop (.upd hu)) (.countLate (.upd hu))))

theorem Calm.wake : Calm s₀ (wake s h) := .foldl hs fun _ _ ht => .accept ht

/-! #### The rest of a chain's end -/

theorem Calm.noteBad {c : Chain} {status : Nat} : Calm s₀ (noteBad s c status) := by
  unfold Machine.noteBad
  split
  · exact .ite hs (.upd hs)
  · exact hs

theorem Calm.countDone {c : Chain} {status : Nat} : Calm s₀ (countDone s c status) := by
  unfold Machine.countDone
  extract_lets fn s1 s2
  have h1 : Calm s₀ s1 := .ite (.bump hs) hs
  have h2 : Calm s₀ s2 := .ite (.bump h1) h1
  exact .ite (.bump h2) h2

theorem Calm.endStreams {num : Nat} : Calm s₀ (endStreams s h num) :=
  .ite hs (.foldl (.upd hs) fun _ _ ht => .wr (.wr (.wr (.wr (.wr (.wr (.wr (.wr (.wr (.wr (.wr ht)))))))))))

theorem Calm.endsNow {c : Chain} : Calm s₀ (endsNow s c) := .ite (.endStreams hs) hs

theorem Calm.removeChain {c : Chain} : Calm s₀ (removeChain s c) := by
  unfold Machine.removeChain
  extract_lets s0 s1
  have h0 : Calm s₀ s0 := .of_ctxMoves hs (CtxMoves.dropCtxs (same := false) (.refl s))
  have h1 : Calm s₀ s1 := .dropGuests (.foldl h0 fun t _ ht => .of_ctxMoves ht (.standAgain (.refl t)))
  exact .ite (.wr (.upd h1)) (.upd h1)

theorem Calm.unstall {ring : Nat} : Calm s₀ (unstall s h ring) := .ite (.wr hs) hs

theorem Calm.closeShip {c : Chain} : Calm s₀ (closeShip s c).1 := by
  unfold Machine.closeShip
  split
  · exact hs
  · refine .bump ?_
    split
    · split
      · exact .upd hs
      · exact hs
    · exact hs

end

end

end Sys2Proof
end

section
/-!
Chains that join and chains that leave: O35.
-/

namespace Sys2Proof

open Machine

set_option Elab.async false

/-! ### What names a chain -/

/-- Where a chain was read, and what was read. -/
def Machine.Chain.ident (c : Chain) : Nat × Half × Nat × List Byte × List (List Byte) := (c.readNo, c.half, c.ring, c.head, c.exts)

/-- The chains of `t` are those of `s`, as they were read. -/
def SameChains (s t : State) : Prop := t.chains.map Chain.ident = s.chains.map Chain.ident

section
variable {s s₀ t : State} {h : Half} {ring : Nat}

theorem SameChains.refl (s : State) : SameChains s s := rfl

theorem SameChains.trans {u : State} (h1 : SameChains s t) (h2 : SameChains t u) : SameChains s u := Eq.trans h2 h1

theorem SameChains.of_eq (hs : SameChains s₀ s) (he : t.chains = s.chains) : SameChains s₀ t :=
  hs.trans (congrArg (List.map Chain.ident) he)

theorem SameChains.of_touches {fs : List Fld} (hs : SameChains s₀ s) (ht : Touches s t fs) : SameChains s₀ t :=
  hs.of_eq (ht.part State.chains)

/-- The chains after an end that leaves none with a number. -/
theorem SameChains.readNo_ne (hst : SameChains s t) {n : Nat} (hs : ∀ d ∈ s.chains, d.readNo ≠ n) : ∀ d ∈ t.chains, d.readNo ≠ n := by
  intro d hd
  have hm : d.ident ∈ s.chains.map Chain.ident := hst ▸ List.mem_map_of_mem hd
  obtain ⟨e, he, hid⟩ := List.mem_map.mp hm
  have hno : e.readNo = d.readNo := congrArg Prod.fst hid
  exact hno ▸ hs e he

theorem SameChains.setChain (hs : SameChains s₀ s) (c : Chain) {f : Chain → Chain} (hf : ∀ d, (f d).ident = d.ident) :
    SameChains s₀ (setChain s c f) := by
  refine hs.trans ?_
  show (s.chains.map _).map Chain.ident = _
  rw [List.map_map]
  refine List.map_congr_left fun d _ => ?_
  show Chain.ident (if d.readNo = c.readNo then f d else d) = d.ident
  split
  · exact hf d
  · rfl

theorem chains_clearCur (s : State) (h : Half) : (clearCur s h).chains = s.chains :=
  List.foldlRecOn (motive := fun t : State => t.chains = s.chains) _ _ rfl fun t ht cls _ =>
    List.foldlRecOn (motive := fun t : State => t.chains = s.chains) _ _ ht fun u hu q _ => by
      split
      · exact hu
      · exact hu

theorem SameChains.clearCur (hs : SameChains s₀ s) : SameChains s₀ (clearCur s h) := hs.of_eq (chains_clearCur s h)

theorem SameChains.rearmList {mt : Bool} (hs : SameChains s₀ s) : SameChains s₀ (rearmList s h mt) := hs.of_touches (touches_rearmList s h mt)

theorem SameChains.countLate (hs : SameChains s₀ s) : SameChains s₀ (countLate s h) := hs.of_touches touches_countLate

theorem SameChains.countDrop (hs : SameChains s₀ s) : SameChains s₀ (countDrop s h) := hs.of_touches touches_countDrop

theorem SameChains.ite {a b : State} {c : Prop} [Decidable c] (ha : SameChains s₀ a) (hb : SameChains s₀ b) :
    SameChains s₀ (if c then a else b) := by
  split <;> assumption

theorem ident_finish (c : Chain) (status : Nat) : (c.finish status).ident = c.ident := by
  unfold Chain.finish
  split
  · rfl
  · rfl

theorem sameChains_judgeLate (c : Chain) (r : ReleaseOf) (late : Nat) : SameChains s (judgeLate s c r late) :=
  .ite (.countDrop (.setChain (.refl s) c fun d => ident_finish d ST_LATE_DROPPED)) (.countLate (.setChain (.refl s) c fun _ => rfl))

theorem sameChains_accept (c : Chain) : SameChains s (accept s c) := by
  unfold accept
  extract_lets u
  have hu : SameChains s u := .clearCur (.refl s)
  split
  · exact .setChain hu c fun _ => rfl
  · exact .ite (.setChain hu c fun d => ident_finish d ST_TIME_NO_CMP)
      (.ite (.rearmList (.setChain hu c fun _ => rfl)) (hu.trans (sameChains_judgeLate c _ _)))

theorem sameChains_beginWait (n : Nat) : SameChains s (beginWait s n) := by
  unfold beginWait
  split
  · exact .refl s
  · exact .ite (.refl s) (sameChains_accept _)

theorem chains_endStreams (s : State) (h : Half) (num : Nat) : (endStreams s h num).chains = s.chains := by
  unfold endStreams
  split
  · rfl
  · exact List.foldlRecOn (motive := fun t : State => t.chains = s.chains) _ _ rfl fun _ ht _ _ => ht

theorem sameChains_endsNow (c : Chain) : SameChains s (endsNow s c) := by
  unfold endsNow
  exact .ite (.of_eq (.refl s) (chains_endStreams ..)) (.refl s)

/-! ### A chain is read (R180, R181) -/

/-- A chain that joins is among the chains, as it was read and as it stands. -/
theorem addChain_joins (s : State) (c : Chain) :
    ∃ d ∈ (addChain s c).chains, d.ident = c.ident ∧ d.done = c.done ∧ d.status = c.status ∧ d.detail = c.detail :=
  ⟨_, List.mem_append_right s.chains List.mem_cons_self, rfl, rfl, rfl, rfl⟩

theorem ident_mem_addChain (s : State) (c : Chain) : c.ident ∈ (addChain s c).chains.map Chain.ident := by
  obtain ⟨d, hd, hid, -⟩ := addChain_joins s c
  exact List.mem_map.mpr ⟨d, hd, hid⟩

theorem sameMem_addChain (s : State) (c : Chain) : SameMem s (addChain s c) := ⟨rfl, rfl, rfl⟩

theorem sameMem_joined (s : State) (c : Chain) (h : Half) (ring : Nat) : SameMem s (refreshFetched (addChain s c) h ring) := ⟨rfl, rfl, rfl⟩

theorem chains_refreshFetched (s : State) (h : Half) (ring : Nat) : (refreshFetched s h ring).chains = s.chains := rfl

theorem chains_logSched (s : State) (h : Half) (ring seq event cls status ctx : Nat) :
    (logSched s h ring seq event cls status ctx).chains = s.chains := rfl

theorem chains_bumpPart (s : State) (h : Half) (fn slot n : Nat) : (bumpPart s h fn slot n).chains = s.chains := rfl

theorem sameMem_logged (s : State) (h : Half) (fn slot n ring seq event cls status ctx : Nat) :
    SameMem s (logSched (bumpPart s h fn slot n) h ring seq event cls status ctx) := ⟨rfl, rfl, rfl⟩

/-- A refused chain is among the chains, as it was read, and over with its refusal. -/
theorem addRefused_holds (s : State) (c : Chain) (r : Refused) (reached : Bool) :
    (∃ d ∈ (addRefused s c r reached).chains, d.ident = c.ident ∧ d.done = true ∧ d.status = r.1 ∧ d.detail = r.2.1 * 256 + r.2.2) ∧
      SameMem s (addRefused s c r reached) := by
  unfold addRefused
  extract_lets c1 s1
  obtain ⟨d, hd, hid, hdone, hstatus, hdetail⟩ := addChain_joins s { c1 with sigOk := reached, ofReq := false }
  obtain ⟨ha1, ha2, ha3⟩ := sameMem_addChain s { c1 with sigOk := reached, ofReq := false }
  obtain ⟨hl1, hl2, hl3⟩ := sameMem_logged s1 c.half (ringFn c.ring) 4 1 c.ring c.seq 1 (hdClass c.head) r.1 0
  have hin : d ∈ (logSched (bumpPart s1 c.half (ringFn c.ring) 4 1) c.half c.ring c.seq 1 (hdClass c.head) r.1 0).chains := by
    rw [chains_logSched, chains_bumpPart]
    exact hd
  exact ⟨⟨d, hin, hid, hdone, hstatus, hdetail⟩, hl1.trans ha1, hl2.trans ha2, hl3.trans ha3⟩

theorem ident_mem_addRefused (s : State) (c : Chain) (r : Refused) (reached : Bool) :
    c.ident ∈ (addRefused s c r reached).chains.map Chain.ident := by
  obtain ⟨⟨d, hd, hid, -⟩, -⟩ := addRefused_holds s c r reached
  exact List.mem_map.mpr ⟨d, hd, hid⟩

theorem ident_mem_openRequest (s : State) (c : Chain) : c.ident ∈ (openRequest s c).chains.map Chain.ident := by
  unfold openRequest
  generalize openMap s c = r
  dsimp only
  split
  · exact ident_mem_addRefused r.2.1 c _ true
  · exact ident_mem_addChain r.2.1 c

theorem ident_mem_closeAtRead (s : State) (c : Chain) : c.ident ∈ (closeAtRead s c).chains.map Chain.ident := by
  unfold closeAtRead
  rw [chains_endStreams]
  exact ident_mem_addChain s c

/-- A chain taken in, before its wait begins. -/
def takeIn (s : State) (c : Chain) : State :=
  if hdOpcode c.head = opREQ_OPEN then openRequest s c
  else if hdOpcode c.head = opREQ_CLOSE then closeAtRead s c
  else addChain s { c with snap := barrierSnap s c }

theorem ident_mem_takeIn (s : State) (c : Chain) : c.ident ∈ (takeIn s c).chains.map Chain.ident := by
  unfold takeIn
  split
  · exact ident_mem_openRequest s c
  · split
    · exact ident_mem_closeAtRead s c
    · exact ident_mem_addChain s { c with snap := barrierSnap s c }

theorem readChain_of_passed {c : Chain} (hc : chainChecks s c.half c.ring c.head c.exts (mapBroken s c.head c.exts) = none) :
    readChain s c = if (takeIn s c).chains.any fun d => d.readNo == c.readNo && d.done then takeIn s c else beginWait (takeIn s c) c.readNo := by
  unfold readChain
  rw [hc]
  rfl

/-- A chain that passes its checks is among the chains, as it was read. -/
theorem ident_mem_readChain {c : Chain} (hc : chainChecks s c.half c.ring c.head c.exts (mapBroken s c.head c.exts) = none) :
    c.ident ∈ (readChain s c).chains.map Chain.ident := by
  have hsame : SameChains (takeIn s c) (readChain s c) := by
    rw [readChain_of_passed hc]
    exact .ite (.refl _) (sameChains_beginWait c.readNo)
  rw [hsame]
  exact ident_mem_takeIn s c

/-- A chain that fails its checks is done, with the status and the place of the first that fails. -/
theorem readChain_refused {c : Chain} {r : Refused} (hc : chainChecks s c.half c.ring c.head c.exts (mapBroken s c.head c.exts) = some r) :
    (∃ d ∈ (readChain s c).chains, d.ident = c.ident ∧ d.done = true ∧ d.status = r.1 ∧ d.detail = r.2.1 * 256 + r.2.2) ∧
      SameMem s (readChain s c) := by
  unfold readChain
  rw [hc]
  exact addRefused_holds s c r _

theorem sameMem_consume (n : Nat) : SameMem s (consume s h ring n) := by
  unfold consume
  extract_lets s1
  split
  · exact ⟨rfl, rfl, rfl⟩
  · exact ⟨rfl, rfl, rfl⟩

/-- The ring with a chain's entries consumed and its reserve given back for the chain to take. -/
def readFrom (s : State) (h : Half) (ring n : Nat) : State :=
  stallBit (consume (s.wr (.host .CQ_RESERVED) h (s.rd (.host .CQ_RESERVED) h ring - heldFor s h ring) ring) h ring n) h ring false

theorem sameMem_readFrom (n : Nat) : SameMem s (readFrom s h ring n) := by
  obtain ⟨h1, h2, h3⟩ := sameMem_consume (s := s.wr (.host .CQ_RESERVED) h (s.rd (.host .CQ_RESERVED) h ring - heldFor s h ring) ring)
    (h := h) (ring := ring) n
  exact ⟨h1, h2, h3⟩

/-- The head of the chain that is next on a ring. -/
def nextHead (s : State) (h : Half) (ring : Nat) : List Byte := (landedBytes s h ring).take 64

/-- How many entries the next chain of a ring has. -/
def nextLen (s : State) (h : Half) (ring : Nat) : Nat := chainLen (nextHead s h ring) (sqSize s h ring)

/-- The extension blocks of the next chain of a ring. -/
def nextExts (s : State) (h : Half) (ring : Nat) : List (List Byte) :=
  (List.range (nextLen s h ring - 1)).map fun i => ((landedBytes s h ring).drop (64 * (i + 1))).take 64

/-- The records that the next chain of a ring needs. -/
def nextReserve (s : State) (h : Half) (ring : Nat) : Nat :=
  if (unrunStatus s h ring).isSome then 1 else reserveOf s h ring (nextHead s h ring)

/-- A chain is the one read from the ring now. -/
def IsNext (s : State) (h : Half) (ring : Nat) (c : Chain) : Prop :=
  c.ident = (s.readNo, h, ring, nextHead s h ring, nextExts s h ring)

theorem IsNext.fields {c : Chain} (hc : IsNext s h ring c) :
    c.readNo = s.readNo ∧ c.half = h ∧ c.ring = ring ∧ c.head = nextHead s h ring ∧ c.exts = nextExts s h ring := by
  simpa [IsNext, Chain.ident] using hc

/-- The first landed entry's index. -/
def nextSeq (s : State) (h : Half) (ring : Nat) : Nat :=
  match landedOf s h ring with
  | f :: _ => f.first
  | [] => 0

/-- The next chain of a ring, as it is read. -/
def nextChain (s : State) (h : Half) (ring : Nat) : Chain :=
  newChain s h ring (nextSeq s h ring) (nextHead s h ring) (nextExts s h ring) (nextReserve s h ring)

theorem ident_unrunChain (st : Nat) : IsNext s h ring (unrunChain s (nextChain s h ring) st) := rfl

theorem execChainRead_eq (s : State) (h : Half) (ring : Nat) : exec (.chainRead h ring) s =
    if (landedBytes s h ring).length < 64 then .next s
    else if (landedBytes s h ring).length < 64 * nextLen s h ring then
      if ringSt s h ring = 2 then .next (refreshFetched (dropFetches s h ring) h ring) else .next s
    else if heldFor s h ring < nextReserve s h ring ∧ creditFor s h ring (nextReserve s h ring - heldFor s h ring) = false then
      .next (stallBit s h ring true)
    else match unrunStatus s h ring with
      | some st => .next (refreshFetched (addChain (readFrom s h ring (nextLen s h ring))
          (unrunChain s (nextChain s h ring) st)) h ring)
      | none => .next (refreshFetched (readChain (readFrom s h ring (nextLen s h ring)) (nextChain s h ring)) h ring) := rfl

theorem chainRead_waits (hw : (landedBytes s h ring).length < 64 ∨
    ((landedBytes s h ring).length < 64 * nextLen s h ring ∧ ringSt s h ring ≠ 2)) : Sets (.chainRead h ring) s [] := by
  refine sets_of_next ?_
  rw [execChainRead_eq]
  split
  · rfl
  · obtain ⟨hlt, hst⟩ := hw.resolve_left ‹_›
    rw [if_pos hlt, if_neg hst]

theorem chainRead_dropped (h64 : 64 ≤ (landedBytes s h ring).length) (hlt : (landedBytes s h ring).length < 64 * nextLen s h ring)
    (hst : ringSt s h ring = 2) : Gives (.chainRead h ring) s fun t =>
      t.fetches = (s.fetches.filter fun f => !(f.half == h && f.ring == ring)) ∧
      Touches { s with fetches := t.fetches } t [.host .CQ_RESERVED, .host .RING_STATE_FETCHED] := by
  refine ⟨_, ((execChainRead_eq s h ring).trans (if_neg (by omega))).trans ((if_pos hlt).trans (if_pos hst)), rfl, ?_⟩
  exact ((Touches.refl _ _).wr (by decide) h _ ring).refreshFetched (by decide) h ring

section
variable (h64 : 64 ≤ (landedBytes s h ring).length) (hn : 64 * nextLen s h ring ≤ (landedBytes s h ring).length)
include h64 hn

theorem chainRead_stalls (hh : heldFor s h ring < nextReserve s h ring)
    (hc : creditFor s h ring (nextReserve s h ring - heldFor s h ring) = false) :
    Sets (.chainRead h ring) s [cell (.host .RING_STATE_CQ_STALL) h ring 1] := by
  refine stall_holds ?_
  rw [execChainRead_eq, if_neg (by omega), if_neg (by omega), if_pos ⟨hh, hc⟩]

variable (hc : nextReserve s h ring ≤ heldFor s h ring ∨ creditFor s h ring (nextReserve s h ring - heldFor s h ring) = true)
include hc

theorem execChainRead_ready : exec (.chainRead h ring) s = match unrunStatus s h ring with
    | some st => .next (refreshFetched (addChain (readFrom s h ring (nextLen s h ring))
        (unrunChain s (nextChain s h ring) st)) h ring)
    | none => .next (refreshFetched (readChain (readFrom s h ring (nextLen s h ring)) (nextChain s h ring)) h ring) := by
  rw [execChainRead_eq, if_neg (by omega), if_neg (by omega), if_neg]
  rintro ⟨hlt, hno⟩
  rcases hc with hle | hyes
  · omega
  · rw [hno] at hyes
    cases hyes

theorem chainRead_unrun {st : Nat} (hu : unrunStatus s h ring = some st) : Gives (.chainRead h ring) s fun t =>
    (∃ c ∈ t.chains, IsNext s h ring c ∧ c.done = true ∧ c.status = st) ∧ SameMem s t := by
  have he : exec (.chainRead h ring) s = .next (refreshFetched (addChain (readFrom s h ring (nextLen s h ring))
      (unrunChain s (nextChain s h ring) st)) h ring) := by
    rw [execChainRead_ready h64 hn hc, hu]
  obtain ⟨d, hd, hid, hdone, hstatus, -⟩ := addChain_joins (readFrom s h ring (nextLen s h ring)) (unrunChain s (nextChain s h ring) st)
  obtain ⟨hm1, hm2, hm3⟩ := sameMem_joined (readFrom s h ring (nextLen s h ring)) (unrunChain s (nextChain s h ring) st) h ring
  obtain ⟨hf1, hf2, hf3⟩ := sameMem_readFrom (s := s) (h := h) (ring := ring) (nextLen s h ring)
  refine ⟨_, he, ⟨d, ?_, hid.trans (ident_unrunChain st), hdone, hstatus⟩, hm1.trans hf1, hm2.trans hf2, hm3.trans hf3⟩
  rw [chains_refreshFetched]
  exact hd

theorem exec_chainRead_run (hu : unrunStatus s h ring = none) : exec (.chainRead h ring) s =
    .next (refreshFetched (readChain (readFrom s h ring (nextLen s h ring)) (nextChain s h ring)) h ring) := by
  rw [execChainRead_ready h64 hn hc, hu]

theorem chainRead_refused (hu : unrunStatus s h ring = none) {r : Refused}
    (hr : chainChecks (readFrom s h ring (nextLen s h ring)) h ring (nextHead s h ring) (nextExts s h ring)
      (mapBroken (readFrom s h ring (nextLen s h ring)) (nextHead s h ring) (nextExts s h ring)) = some r) :
    Gives (.chainRead h ring) s fun t =>
      (∃ c ∈ t.chains, IsNext s h ring c ∧ c.done = true ∧ c.status = r.1 ∧ c.detail = r.2.1 * 256 + r.2.2) ∧ SameMem s t := by
  obtain ⟨hin, hm1, hm2, hm3⟩ := readChain_refused (c := nextChain s h ring) hr
  obtain ⟨hf1, hf2, hf3⟩ := sameMem_readFrom (s := s) (h := h) (ring := ring) (nextLen s h ring)
  exact ⟨_, exec_chainRead_run h64 hn hc hu, hin, hm1.trans hf1, hm2.trans hf2, hm3.trans hf3⟩

theorem chainRead_joins (hu : unrunStatus s h ring = none)
    (hr : chainChecks (readFrom s h ring (nextLen s h ring)) h ring (nextHead s h ring) (nextExts s h ring)
      (mapBroken (readFrom s h ring (nextLen s h ring)) (nextHead s h ring) (nextExts s h ring)) = none) :
    Gives (.chainRead h ring) s fun t => ∃ c ∈ t.chains, IsNext s h ring c := by
  obtain ⟨d, hd, hid⟩ := List.mem_map.mp (ident_mem_readChain (c := nextChain s h ring) hr)
  exact ⟨_, exec_chainRead_run h64 hn hc hu, d, hd, hid⟩

end

/-! ### A chain completes (R162, R196) -/

/-- A record moves CQ_PI on by one, and of the registers of `endFields` no other. -/
theorem writeRecord_moves (r : CqRec) (now : Bool) :
    (∀ f ∈ endFields, f ≠ .host .RING_STATUS_CQ_PI → ∀ k i, (writeRecord s h ring r now).rd f k i = s.rd f k i) ∧
      (s.hostOk h (ringFn ring) = true →
        (writeRecord s h ring r now).rd (.host .RING_STATUS_CQ_PI) h ring = (s.rd (.host .RING_STATUS_CQ_PI) h ring + 1) % 2 ^ 16) := by
  refine ⟨fun f hf hne k i => ?_, fun hok => ?_⟩
  · cases hok : s.hostOk h (ringFn ring) with
    | false => rw [writeRecord_down hok]
    | true =>
      have hout : f ∉ recordFields := (by decide : ∀ g ∈ endFields, g ∉ recordFields) f hf
      rw [(writeRecord_steps hok r now).rd hout, State.rd_wr, if_neg fun he => hne he.1]
      rfl
  · rw [(writeRecord_steps hok r now).rd (by decide)]
    exact State.rd_wr_self ..

/-- A record on behalf of a chain: its reserve is used, and it is written unless the chain is silent. -/
def recordFor (s : State) (c : Chain) (v : Nat) (r : CqRec) (now : Bool) : State :=
  if c.silent then s.wr (.host .CQ_RESERVED) c.half v c.ring
  else writeRecord (s.wr (.host .CQ_RESERVED) c.half v c.ring) c.half c.ring r now

theorem recordFor_holds (c : Chain) (v : Nat) (r : CqRec) (now : Bool) :
    (∀ f ∈ endFields, f ≠ .host .RING_STATUS_CQ_PI → ∀ k i, (recordFor s c v r now).rd f k i = s.rd f k i) ∧
      (c.silent = false → s.hostOk c.half (ringFn c.ring) = true →
        (recordFor s c v r now).rd (.host .RING_STATUS_CQ_PI) c.half c.ring = (s.rd (.host .RING_STATUS_CQ_PI) c.half c.ring + 1) % 2 ^ 16) := by
  have hcalm : Calm s (s.wr (.host .CQ_RESERVED) c.half v c.ring) := (Calm.refl s).wr
  obtain ⟨hkeep, hmove⟩ := writeRecord_moves (s := s.wr (.host .CQ_RESERVED) c.half v c.ring) (h := c.half) (ring := c.ring) r now
  unfold recordFor
  refine ⟨fun f hf hne k i => ?_, fun hs hok => ?_⟩
  · split
    · exact hcalm f hf k i
    · exact (hkeep f hf hne k i).trans (hcalm f hf k i)
  · rw [if_neg (by simp [hs]), hmove ((hcalm.hostOk _).trans hok), hcalm _ (by decide)]

theorem finalRecord_eq (s : State) (c : Chain) (status : Nat) : ∃ v, finalRecord s c status =
    recordFor s c v (chainRecord s c status) (hdIrqNow c.head) := ⟨_, rfl⟩

theorem genRecord_eq (s : State) (c : Chain) (status detail : Nat) : ∃ v r, genRecord s c status detail =
    recordFor (setChain s c fun d => { d with reserved := d.reserved - 1 }) c v r false := ⟨_, _, rfl⟩

/-! #### What a chain's end first closes -/

/-- A chain and the state once its ALLOC, its generation step and its SHIP are closed. -/
def closeWork (s : State) (c : Chain) : State × Chain :=
  closeShip (closeStep (closeAlloc s c).1 (closeAlloc s c).2).1 (closeStep (closeAlloc s c).1 (closeAlloc s c).2).2

/-- A chain with its results closed: nothing else of it differs. -/
def closedAs (c : Chain) (d : Chain) : Prop :=
  d = { c with detail := d.detail, reserved := d.reserved, gen := d.gen, progress := d.progress }

theorem closedAs.trans {a b c : Chain} (h1 : closedAs a b) (h2 : closedAs b c) : closedAs a c := by
  unfold closedAs at *
  rw [h2, h1]

theorem closedAs.fields {c d : Chain} (hd : closedAs c d) : d.half = c.half ∧ d.ring = c.ring ∧ d.head = c.head ∧ d.silent = c.silent ∧
    d.readNo = c.readNo ∧ signals d d.finalStatus = signals c c.finalStatus := by
  unfold closedAs at hd
  rw [hd]
  exact ⟨rfl, rfl, rfl, rfl, rfl, rfl⟩

theorem closeAlloc_chain (s : State) (c : Chain) : closedAs c (closeAlloc s c).2 ∧ (closeAlloc s c).2.gen = c.gen := by
  unfold closeAlloc
  split_ifs
  · split
    · exact ⟨rfl, rfl⟩
    · exact ⟨rfl, rfl⟩
  · split
    · exact ⟨rfl, rfl⟩
    · exact ⟨rfl, rfl⟩
  · exact ⟨rfl, rfl⟩
  · exact ⟨rfl, rfl⟩

theorem closeStep_chain (s : State) (c : Chain) : closedAs c (closeStep s c).2 := by
  unfold closeStep
  split
  · rfl
  · rfl

theorem closeShip_chain (s : State) (c : Chain) : closedAs c (closeShip s c).2 := by
  unfold closeShip
  split
  · rfl
  · rfl

theorem closeWork_chain (s : State) (c : Chain) : closedAs c (closeWork s c).2 :=
  ((closeAlloc_chain s c).1.trans (closeStep_chain ..)).trans (closeShip_chain ..)

theorem closeStep_holds (c : Chain) :
    (∀ f ∈ endFields, f ≠ .host .RING_STATUS_CQ_PI → ∀ k i, (closeStep s c).1.rd f k i = s.rd f k i) ∧
      (c.silent = false → s.hostOk c.half (ringFn c.ring) = true → (closeStep s c).1.rd (.host .RING_STATUS_CQ_PI) c.half c.ring =
        if c.gen.isSome then (s.rd (.host .RING_STATUS_CQ_PI) c.half c.ring + 1) % 2 ^ 16 else s.rd (.host .RING_STATUS_CQ_PI) c.half c.ring) := by
  unfold closeStep
  cases hg : c.gen with
  | none => exact ⟨fun _ _ _ _ _ => rfl, fun _ _ => rfl⟩
  | some g =>
    dsimp only
    obtain ⟨v, r, he⟩ := genRecord_eq s c c.finalStatus (c.progress * 2 ^ 24 + min 4095 g.stops)
    rw [he]
    exact recordFor_holds (s := setChain s c fun d => { d with reserved := d.reserved - 1 }) c v r false

theorem closeWork_holds (c : Chain) :
    (∀ f ∈ endFields, f ≠ .host .RING_STATUS_CQ_PI → ∀ k i, (closeWork s c).1.rd f k i = s.rd f k i) ∧
      (c.silent = false → s.hostOk c.half (ringFn c.ring) = true → (closeWork s c).1.rd (.host .RING_STATUS_CQ_PI) c.half c.ring =
        if c.gen.isSome then (s.rd (.host .RING_STATUS_CQ_PI) c.half c.ring + 1) % 2 ^ 16 else s.rd (.host .RING_STATUS_CQ_PI) c.half c.ring) := by
  have ha : Calm s (closeAlloc s c).1 := .closeAlloc (.refl s)
  obtain ⟨hkeep, hmove⟩ := closeStep_holds (s := (closeAlloc s c).1) (closeAlloc s c).2
  have hq : Calm (closeStep (closeAlloc s c).1 (closeAlloc s c).2).1 (closeWork s c).1 := .closeShip (.refl _)
  obtain ⟨hc, hgen⟩ := closeAlloc_chain s c
  obtain ⟨hh, hr, -, hs, -, -⟩ := hc.fields
  rw [hh, hr, hs, hgen] at hmove
  refine ⟨fun f hf hne k i => (hq f hf k i).trans ((hkeep f hf hne k i).trans (ha f hf k i)), fun hsil hok => ?_⟩
  rw [hq _ (by decide), hmove hsil ((ha.hostOk _).trans hok), ha _ (by decide)]

/-! #### What follows the record -/

/-- A chain that has its record leaves. -/
def leave (s : State) (c : Chain) : State :=
  let s4 := countDone (noteBad s c c.finalStatus) c c.finalStatus
  let s5 := logSched s4 c.half c.ring c.seq 4 (hdClass c.head) c.finalStatus (c.ctx.getD 0)
  let s6 := endsNow (relist (removeChain s5 c) c.half) c
  unstall (refreshDraining (refreshFetched s6 c.half c.ring) c.half (ringFn c.ring)) c.half c.ring

/-- The signal of a chain that has one to give. -/
def signalled (s : State) (c : Chain) : State :=
  if signals c c.finalStatus then evcAdd s c.half (hdSigEv c.head) (hdSigInc c.head) else s

theorem finishChain_eq (s : State) (c : Chain) : finishChain s c =
    leave (finalRecord (signalled (updateScores (closeWork s c).1 (closeWork s c).2) (closeWork s c).2) (closeWork s c).2
      (closeWork s c).2.finalStatus) (closeWork s c).2 := rfl

theorem calm_leave (c : Chain) : Calm s (leave s c) :=
  .unstall (.wr (.wr (.endsNow (.relist (.removeChain (.upd (.countDone (.noteBad (.refl s)))))))))

theorem removeChain_gone (c : Chain) : ∀ d ∈ (removeChain s c).chains, d.readNo ≠ c.readNo := by
  intro d hd
  unfold removeChain at hd
  extract_lets s0 s1 at hd
  have he : (emptyLoad { s1 with chains := s1.chains.filter fun d => d.readNo ≠ c.readNo } c).chains =
      s1.chains.filter fun d => d.readNo ≠ c.readNo := by
    unfold emptyLoad
    dsimp only
    split
    · rfl
    · rfl
  rw [he] at hd
  simpa using (List.mem_filter.mp hd).2

theorem sameChains_unstall : SameChains s (unstall s h ring) := by
  unfold unstall
  split
  · exact .of_eq (.refl s) rfl
  · exact .refl s

theorem leave_gone (c : Chain) : ∀ d ∈ (leave s c).chains, d.readNo ≠ c.readNo := by
  unfold leave
  extract_lets s4 s5 s6
  have h6 : SameChains (removeChain s5 c) s6 :=
    ((SameChains.refl _).of_touches (touches_relist (removeChain s5 c) c.half)).trans (sameChains_endsNow c)
  have h7 : SameChains s6 (unstall (refreshDraining (refreshFetched s6 c.half c.ring) c.half (ringFn c.ring)) c.half c.ring) :=
    sameChains_unstall (s := refreshDraining (refreshFetched s6 c.half c.ring) c.half (ringFn c.ring))
  exact (h6.trans h7).readNo_ne (removeChain_gone c)

/-! #### The signal -/

theorem calm_evcWake (h : Half) (s : State) : Calm s (wake (noteSteps s h) h) := .wake (.upd (.refl s))

theorem signalled_holds (c : Chain) :
    (∀ f ∈ endFields, f ≠ .desc .EVC_VAL → ∀ k i, (signalled s c).rd f k i = s.rd f k i) ∧
      (signals c c.finalStatus = true → (signalled s c).rd (.desc .EVC_VAL) c.half (hdSigEv c.head) =
        (s.rd (.desc .EVC_VAL) c.half (hdSigEv c.head) + hdSigInc c.head) % 2 ^ 32) := by
  have hw (v : Nat) := calm_evcWake c.half (s.wr (.desc .EVC_VAL) c.half v (hdSigEv c.head))
  unfold signalled
  refine ⟨fun f hf hne k i => ?_, fun hs => ?_⟩
  · split
    · exact (hw _ f hf k i).trans ((State.rd_wr ..).trans (if_neg fun he => hne he.1))
    · rfl
  · rw [if_pos hs]
    exact (hw _ _ (by decide) _ _).trans (State.rd_wr_self ..)

/-! #### The whole end -/

theorem finishChain_gone (s : State) (c : Chain) : ∀ d ∈ (finishChain s c).chains, d.readNo ≠ c.readNo := by
  obtain ⟨-, -, -, -, hno, -⟩ := (closeWork_chain s c).fields
  rw [finishChain_eq, ← hno]
  exact leave_gone _

theorem finishChain_holds (s : State) (c : Chain) :
    (signals c c.finalStatus = true → (finishChain s c).rd (.desc .EVC_VAL) c.half (hdSigEv c.head) =
      (s.rd (.desc .EVC_VAL) c.half (hdSigEv c.head) + hdSigInc c.head) % 2 ^ 32) ∧
    (c.silent = false → s.hostOk c.half (ringFn c.ring) = true → (finishChain s c).rd (.host .RING_STATUS_CQ_PI) c.half c.ring =
      (s.rd (.host .RING_STATUS_CQ_PI) c.half c.ring + (if c.gen.isSome then 2 else 1)) % 2 ^ 16) := by
  rw [finishChain_eq]
  obtain ⟨hkeep, hmove⟩ := closeWork_holds (s := s) c
  have hd := closeWork_chain s c
  revert hkeep hmove hd
  generalize closeWork s c = q
  obtain ⟨a, d⟩ := q
  intro hkeep hmove hd
  dsimp only at hkeep hmove hd ⊢
  have hscore : Calm a (updateScores a d) := .updateScores (.refl a)
  obtain ⟨hsig, hval⟩ := signalled_holds (s := updateScores a d) d
  obtain ⟨v, hv⟩ := finalRecord_eq (signalled (updateScores a d) d) d d.finalStatus
  obtain ⟨hrec, hpi⟩ := recordFor_holds (s := signalled (updateScores a d) d) d v
    (chainRecord (signalled (updateScores a d) d) d d.finalStatus) (hdIrqNow d.head)
  have hleave : Calm (finalRecord (signalled (updateScores a d) d) d d.finalStatus) _ := calm_leave d
  rw [← hv] at hrec hpi
  obtain ⟨hhalf, hring, hhead, hsilent, -, hsignals⟩ := hd.fields
  rw [hhalf, hhead, hsignals] at hval
  rw [hhalf, hring, hsilent] at hpi
  refine ⟨fun hs => ?_, fun hsil hok => ?_⟩
  · rw [hleave _ (by decide), hrec _ (by decide) (by decide), hval hs, hscore _ (by decide), hkeep _ (by decide) (by decide)]
  · have hok' : (signalled (updateScores a d) d).hostOk c.half (ringFn c.ring) = true := by
      unfold State.hostOk at hok ⊢
      rwa [hsig _ (by decide) (by decide), hsig _ (by decide) (by decide), hsig _ (by decide) (by decide), hscore _ (by decide),
        hscore _ (by decide), hscore _ (by decide), hkeep _ (by decide) (by decide), hkeep _ (by decide) (by decide),
        hkeep _ (by decide) (by decide)]
    rw [hleave _ (by decide), hpi hsil hok', hsig _ (by decide) (by decide), hscore _ (by decide), hmove hsil hok]
    split
    · rw [Nat.mod_add_mod]
    · rfl

theorem chain_place {seq : Nat} {c : Chain} (hc : s.chain h ring seq = some c) : c.half = h ∧ c.ring = ring := by
  have his : c.is h ring seq = true := List.find?_some (p := fun d : Chain => d.is h ring seq) hc
  unfold Chain.is at his
  simp at his
  exact his.1

/-- The chain that a completion ends: the one of its number, once its request has been closed where the link was lost. -/
def endedChain (s : State) (c : Chain) : Chain := ((closeLinkLost s c).chains.find? fun d => d.readNo == c.readNo).getD c

theorem completeChain_eq (s : State) (c : Chain) : completeChain s c = finishChain (closeLinkLost s c) (endedChain s c) := rfl

theorem endedChain_readNo (s : State) (c : Chain) : (endedChain s c).readNo = c.readNo := by
  unfold endedChain
  cases hf : (closeLinkLost s c).chains.find? fun d => d.readNo == c.readNo with
  | none => rfl
  | some d => simpa using List.find?_some (p := fun d : Chain => d.readNo == c.readNo) hf

theorem endedChain_of_unique {c : Chain} (hl : closeLinkLost s c = s) (hone : ∀ d ∈ s.chains, d.readNo = c.readNo → d = c) :
    endedChain s c = c := by
  unfold endedChain
  rw [hl]
  cases hf : s.chains.find? fun d => d.readNo == c.readNo with
  | none => rfl
  | some d =>
    have hno := List.find?_some (p := fun d : Chain => d.readNo == c.readNo) hf
    exact hone d (List.mem_of_find?_eq_some hf) (by simpa using hno)

theorem closeLinkLost_of_up {c : Chain} (hst : c.finalStatus ≠ ST_HOST_LINK_DOWN) (hf : ∀ f ∈ c.fails, f.2 ≠ ST_HOST_LINK_DOWN) :
    closeLinkLost s c = s := by
  refine if_neg ?_
  rintro (hc | hc)
  · exact hst hc
  · obtain ⟨f, hm, he⟩ := List.any_eq_true.mp hc
    exact hf f hm (by simpa using he)

theorem exec_chainComplete {seq : Nat} {c : Chain} (hc : s.chain h ring seq = some c) (hd : c.done = true) :
    exec (.chainComplete h ring seq) s = .next (completeChain s c) := by
  show execChainComplete h ring seq s = _
  unfold execChainComplete
  rw [hc]
  exact if_pos hd

theorem chainComplete_open {seq : Nat} {c : Chain} (hc : s.chain h ring seq = some c) (hd : c.done = false) :
    Sets (.chainComplete h ring seq) s [] := by
  refine sets_of_next ?_
  show execChainComplete h ring seq s = _
  unfold execChainComplete
  rw [hc]
  exact if_neg (by simp [hd])

theorem chainComplete_holds {seq : Nat} {c : Chain} (hc : s.chain h ring seq = some c) (hd : c.done = true)
    (hone : ∀ d ∈ s.chains, d.readNo = c.readNo → d = c) : Gives (.chainComplete h ring seq) s fun t =>
      (∀ d ∈ t.chains, d.readNo ≠ c.readNo) ∧
      (c.finalStatus ≠ ST_HOST_LINK_DOWN → (∀ f ∈ c.fails, f.2 ≠ ST_HOST_LINK_DOWN) →
        (signals c c.finalStatus = true → t.rd (.desc .EVC_VAL) h (hdSigEv c.head) =
          (s.rd (.desc .EVC_VAL) h (hdSigEv c.head) + hdSigInc c.head) % 2 ^ 32) ∧
        (c.silent = false → s.hostOk h (ringFn ring) = true → t.rd (.host .RING_STATUS_CQ_PI) h ring =
          (s.rd (.host .RING_STATUS_CQ_PI) h ring + (if c.gen.isSome then 2 else 1)) % 2 ^ 16)) := by
  obtain ⟨rfl, rfl⟩ := chain_place hc
  refine ⟨_, exec_chainComplete hc hd, ?_, fun hst hf => ?_⟩
  · rw [completeChain_eq, ← endedChain_readNo s c]
    exact finishChain_gone _ _
  · have hl := closeLinkLost_of_up (s := s) hst hf
    rw [completeChain_eq, endedChain_of_unique hl hone, hl]
    exact finishChain_holds s c

end

/-- Settles O35: a chain read, a chain completed, and the record of one. -/
theorem chainReadAndComplete : Obligations.ChainReadAndComplete := by
  intro h ring s
  refine ⟨⟨chainRead_waits, chainRead_dropped, fun h64 hn => ⟨chainRead_stalls h64 hn, fun hc => ⟨fun st hu => ?_, fun hu =>
    ⟨fun r hr => ?_, fun hr => ?_⟩⟩⟩⟩, fun seq c hc => ⟨chainComplete_open hc, chainComplete_holds hc⟩,
    fun r now hok => writeRecord_holds hok r now⟩
  · obtain ⟨t, he, ⟨c, hm, hn', hd⟩, hs⟩ := chainRead_unrun h64 hn hc hu
    exact ⟨t, he, ⟨c, hm, hn'.fields, hd⟩, hs⟩
  · obtain ⟨t, he, ⟨c, hm, hn', hd⟩, hs⟩ := chainRead_refused h64 hn hc hu hr
    exact ⟨t, he, ⟨c, hm, hn'.fields, hd⟩, hs⟩
  · obtain ⟨t, he, c, hm, hn'⟩ := chainRead_joins h64 hn hc hu hr
    exact ⟨t, he, c, hm, hn'.fields⟩

end Sys2Proof
end

section
/-!
Event counters and the synchronization opcodes: O36.
-/

namespace Sys2Proof

open Machine

set_option Elab.async false

/-! ### Memory that an operation leaves -/

section
variable {s₀ s t : State} {h : Half}

theorem SameMem.refl (s : State) : SameMem s s := ⟨rfl, rfl, rfl⟩

theorem SameMem.trans {u : State} (h1 : SameMem s t) (h2 : SameMem t u) : SameMem s u := by
  obtain ⟨m1, l1, p1⟩ := h1
  obtain ⟨m2, l2, p2⟩ := h2
  exact ⟨m2.trans m1, l2.trans l1, p2.trans p1⟩

theorem SameMem.of_chains {l : List Chain} (he : { t with chains := l } = s) : SameMem s t := by
  subst he
  exact .refl t

theorem SameMem.of_touches {fs : List Fld} (hs : SameMem s₀ s) (ht : Touches s t fs) : SameMem s₀ t := hs.trans ht.sameMem

theorem SameMem.ite {a b : State} {c : Prop} [Decidable c] (ha : SameMem s₀ a) (hb : SameMem s₀ b) : SameMem s₀ (if c then a else b) := by
  split <;> assumption

theorem SameMem.foldl {α : Type} {f : State → α → State} {l : List α} (hs : SameMem s₀ s)
    (hf : ∀ t a, SameMem s₀ t → SameMem s₀ (f t a)) : SameMem s₀ (l.foldl f s) := List.foldlRecOn l f hs fun t ht a _ => hf t a ht

theorem SameMem.setChain (hs : SameMem s₀ s) {c : Chain} {f : Chain → Chain} : SameMem s₀ (setChain s c f) := hs

theorem SameMem.clearCur (hs : SameMem s₀ s) : SameMem s₀ (clearCur s h) :=
  .foldl hs fun _ _ ht => .foldl ht fun _ _ hu => .ite hu hu

theorem SameMem.accept (hs : SameMem s₀ s) {c : Chain} : SameMem s₀ (accept s c) := by
  have hcur : SameMem s₀ (Machine.clearCur s c.half) := hs.clearCur
  unfold Machine.accept
  dsimp only
  split
  · exact hcur.setChain
  · exact .ite hcur.setChain (.ite (hcur.setChain.of_touches (touches_rearmList _ _ _))
      (.ite (hcur.setChain.of_touches touches_countDrop) (hcur.setChain.of_touches touches_countLate)))

end

/-! ### Event counters (R197) -/

section
variable (s : State) (h : Half) (k v : Nat)

theorem sameChains_noteSteps : SameChains s (noteSteps s h) := by
  show (s.chains.map _).map Chain.ident = _
  rw [List.map_map]
  refine List.map_congr_left fun d _ => ?_
  show Chain.ident (if _ then _ else d) = d.ident
  split
  · rfl
  · rfl

theorem sameChains_wake : SameChains s (wake s h) :=
  List.foldlRecOn (motive := SameChains s) _ _ (.refl s) fun _ ht c _ => ht.trans (sameChains_accept c)

theorem sameChains_evcSet : SameChains s (evcSet s h k v) :=
  (sameChains_noteSteps (s.wr (.desc .EVC_VAL) h v k) h).trans (sameChains_wake _ h)

theorem sameMem_evcSet : SameMem s (evcSet s h k v) :=
  .foldl (f := fun t c => accept t c) (s := noteSteps (s.wr (.desc .EVC_VAL) h v k) h) (.refl s) fun _ _ ht => ht.accept

theorem rd_evcSet_self : (evcSet s h k v).rd (.desc .EVC_VAL) h k = v % 2 ^ 32 :=
  (calm_evcWake h (s.wr (.desc .EVC_VAL) h v k) _ (by decide) h k).trans (State.rd_wr_self ..)

theorem rd_evcSet_ne {i : Nat} (hi : i ≠ k) : (evcSet s h k v).rd (.desc .EVC_VAL) h i = s.rd (.desc .EVC_VAL) h i :=
  (calm_evcWake h (s.wr (.desc .EVC_VAL) h v k) _ (by decide) h i).trans ((State.rd_wr ..).trans (if_neg fun he => hi he.2.2))

end

/-! ### A chain's opcode (R188) -/

section
variable {s : State} {h : Half} {ring seq op : Nat} {c : Chain} (hc : s.chain h ring seq = some c)
include hc

theorem runChain_idle (hn : c.running = false ∨ hdOpcode c.head ≠ op) (f : Chain → State) : runChain s h ring seq op f = .next s := by
  unfold runChain
  rw [hc]
  exact if_neg fun hr => hn.elim (by simp [hr.1]) (· hr.2)

theorem runChain_runs (hr : c.running = true) (ho : hdOpcode c.head = op) (f : Chain → State) :
    runChain s h ring seq op f = .next (f c) := by
  unfold runChain
  rw [hc]
  exact if_pos ⟨hr, ho⟩

theorem endChain_holds (status : Nat) :
    c.finish status ∈ (endChain s c status).chains ∧ { endChain s c status with chains := s.chains } = s :=
  setChain_holds (List.mem_of_find?_eq_some hc) fun d => d.finish status

/-- An opcode that waits while something is open, and ends its chain once nothing is. -/
theorem endsOnceFree {i : Instr} {busy : Bool} (he : exec i s = .next (if busy then s else endChain s c ST_OK)) :
    (busy = true → Sets i s []) ∧
      (busy = false → Gives i s fun t => c.finish ST_OK ∈ t.chains ∧ { t with chains := s.chains } = s) := by
  refine ⟨fun hb => sets_of_next ?_, fun hb => ⟨_, ?_, endChain_holds hc ST_OK⟩⟩
  · rw [he, if_pos hb]
  · rw [he, if_neg (by simp [hb])]

end

theorem finish_done (c : Chain) (status : Nat) : (c.finish status).done = true := by
  unfold Chain.finish
  split
  · assumption
  · rfl

/-! ### Stores by an engine (R42 to R45) -/

section
variable {s : State} {w : Who} {a : Nat} {data : List Byte}

/-- The registers that a refused access is recorded in. -/
def refusalFields : List Fld :=
  [.sec .SEC_FENCE_INFO_STATUS, .sec .SEC_FENCE_INFO_WRITE, .sec .SEC_FENCE_INFO_SRC, .sec .SEC_FENCE_INFO_PARTITION, .sec .SEC_FENCE_ADDR,
    .sec .SEC_FENCE_CNT, .tile .FENCE_INFO_STATUS, .tile .FENCE_INFO_WRITE, .tile .FENCE_INFO_SRC, .tile .FENCE_INFO_CONTEXT,
    .tile .FENCE_ADDR, .tile .FENCE_CNT, (causeReg 11).1] ++ msgFields

theorem touches_recordRefusal (s : State) (w : Who) (write : Bool) (a len status : Nat) :
    Touches s (recordRefusal s w write a len status) refusalFields := by
  have hs : Touches s s refusalFields := .refl s _
  unfold recordRefusal
  refine .ite ?_ ?_
  · exact ((((((hs.wr (by decide) _ _ _).wr (by decide) _ _ _).wr (by decide) _ _ _).wr (by decide) _ _ _).wr (by decide) _ _ _).inc
      (by decide) _ _ _).raiseCause (by decide) (by decide) _ _
  · split
    · exact .ite ((((((hs.wr (by decide) _ _ _).wr (by decide) _ _ _).wr (by decide) _ _ _).wr (by decide) _ _ _).wr (by decide) _ _ _).inc
        (by decide) _ _ _) hs
    · exact hs

theorem writeAt_of_ok (ha : accessStatus s w true a data.length = ST_OK) :
    writeAt s w a data = (ST_OK, (countBytes s w true a data.length).store a data (w.ctx.map fun c => (w.half, c.1 / 64))) := if_pos ha

/-- A store that is let through: its bytes, no other byte, and the chains as they were. -/
theorem writeAt_stores (ha : accessStatus s w true a data.length = ST_OK) :
    (writeAt s w a data).1 = ST_OK ∧ (writeAt s w a data).2.chains = s.chains ∧
      (writeAt s w a data).2.mem.readN a data.length = data ∧
      ∀ x, x < a ∨ a + data.length ≤ x → (writeAt s w a data).2.mem.read x = s.mem.read x := by
  have hb := touches_countBytes s w true a data.length
  rw [writeAt_of_ok ha]
  exact ⟨rfl, hb.part State.chains, Memory.readN_writeN _ a data,
    fun x hx => (Memory.read_writeN_out hx).trans (congrArg (Memory.read · x) hb.mem_eq)⟩

/-- A store that is refused: its status, no byte, and the chains as they were. -/
theorem writeAt_refuses (ha : accessStatus s w true a data.length ≠ ST_OK) :
    (writeAt s w a data).1 = accessStatus s w true a data.length ∧ (writeAt s w a data).2.chains = s.chains ∧
      SameMem s (writeAt s w a data).2 := by
  have hr := touches_recordRefusal s w true a data.length (accessStatus s w true a data.length)
  rw [writeAt_of_refused ha]
  exact ⟨rfl, hr.part State.chains, hr.sameMem⟩

end

/-! ### MARKER (R188, R189) -/

section
variable {s : State} {h : Half} {ring seq : Nat} {c : Chain} (hc : s.chain h ring seq = some c) (hr : c.running = true)
  (ho : hdOpcode c.head = opMARKER)

/-- The store of a MARKER. -/
def markerStore (s : State) (h : Half) (ring : Nat) (c : Chain) : Nat × State :=
  writeAt s (engine h (ringFn ring)) (fieldAt c.head 0x20 8) (leBytes 8 (fieldAt c.head 0x28 8))

/-- A chain ended with a status and a DETAIL is among the chains. -/
theorem mem_endDetail {u : State} (hm : c ∈ u.chains) (status detail : Nat) :
    { c.finish status with detail := detail } ∈ (endDetail u c status detail).chains :=
  (setChain_holds hm fun d => { d.finish status with detail := detail }).1

include hc hr ho

theorem exec_marker : exec (.marker h ring seq) s = .next
    (if fieldAt c.head 0x20 8 = 0 ∨ (c.cancelled ∧ isHost (fieldAt c.head 0x20 8) = true) then
      endDetail s c ST_OK (fieldAt c.head 0x18 4)
    else endDetail (markerStore s h ring c).2 c (markerStore s h ring c).1 (fieldAt c.head 0x18 4)) :=
  runChain_runs hc hr ho _

theorem marker_unwritten (hq : fieldAt c.head 0x20 8 = 0 ∨ (c.cancelled ∧ isHost (fieldAt c.head 0x20 8) = true)) :
    Gives (.marker h ring seq) s fun t =>
      { c.finish ST_OK with detail := fieldAt c.head 0x18 4 } ∈ t.chains ∧ { t with chains := s.chains } = s :=
  ⟨_, (exec_marker hc hr ho).trans (congrArg _ (if_pos hq)), mem_endDetail (List.mem_of_find?_eq_some hc) _ _, rfl⟩

theorem marker_written (hq : ¬ (fieldAt c.head 0x20 8 = 0 ∨ (c.cancelled ∧ isHost (fieldAt c.head 0x20 8) = true))) :
    (accessStatus s (engine h (ringFn ring)) true (fieldAt c.head 0x20 8) 8 = ST_OK → Gives (.marker h ring seq) s fun t =>
      { c.finish ST_OK with detail := fieldAt c.head 0x18 4 } ∈ t.chains ∧
        t.mem.readN (fieldAt c.head 0x20 8) 8 = leBytes 8 (fieldAt c.head 0x28 8) ∧
        ∀ x, x < fieldAt c.head 0x20 8 ∨ fieldAt c.head 0x20 8 + 8 ≤ x → t.mem.read x = s.mem.read x) ∧
    (accessStatus s (engine h (ringFn ring)) true (fieldAt c.head 0x20 8) 8 ≠ ST_OK → Gives (.marker h ring seq) s fun t =>
      { c.finish (accessStatus s (engine h (ringFn ring)) true (fieldAt c.head 0x20 8) 8) with
        detail := fieldAt c.head 0x18 4 } ∈ t.chains ∧ SameMem s t) := by
  have he := (exec_marker hc hr ho).trans (congrArg _ (if_neg hq))
  have hm := List.mem_of_find?_eq_some hc
  have hl : (leBytes 8 (fieldAt c.head 0x28 8)).length = 8 := leBytes_length 8 _
  refine ⟨fun ha => ?_, fun ha => ?_⟩
  · obtain ⟨hst, hch, hin, hout⟩ := writeAt_stores (data := leBytes 8 (fieldAt c.head 0x28 8)) ha
    refine ⟨_, he, ?_, hin, hout⟩
    rw [← hst]
    exact mem_endDetail (hch ▸ hm) _ _
  · obtain ⟨hst, hch, hmem⟩ := writeAt_refuses (data := leBytes 8 (fieldAt c.head 0x28 8)) ha
    refine ⟨_, he, ?_, hmem⟩
    rw [hl] at hst
    rw [← hst]
    exact mem_endDetail (hch ▸ hm) _ _

end

/-! ### EVENT_OP (R188, R197) -/

theorem leNat_lt (bs : List Byte) : leNat bs < 256 ^ bs.length := by
  induction bs with
  | nil => simp [leNat]
  | cons b r ih =>
    have hb := b.isLt
    rw [leNat, List.length_cons, Nat.pow_succ']
    omega

theorem fieldAt_lt (bs : List Byte) (off n : Nat) : fieldAt bs off n < 256 ^ n :=
  (leNat_lt _).trans_le (Nat.pow_le_pow_right (by decide) (List.length_take_le ..))

/-- A chain that ends after its counter has been set: it is over, and the counter keeps its value. -/
theorem evcSet_endChain {s : State} {c : Chain} (hm : c ∈ s.chains) (h : Half) (k v status : Nat) :
    (∃ d ∈ (endChain (evcSet s h k v) c status).chains, d.readNo = c.readNo ∧ d.done = true) ∧
      SameMem s (endChain (evcSet s h k v) c status) ∧ (endChain (evcSet s h k v) c status).rd (.desc .EVC_VAL) h k = v % 2 ^ 32 := by
  have hid : c.ident ∈ (evcSet s h k v).chains.map Chain.ident := sameChains_evcSet s h k v ▸ List.mem_map_of_mem hm
  obtain ⟨d, hd, hde⟩ := List.mem_map.mp hid
  have hno : d.readNo = c.readNo := congrArg Prod.fst hde
  have hfin : (d.finish status).readNo = d.readNo := congrArg Prod.fst (ident_finish d status)
  exact ⟨⟨d.finish status, List.mem_map.mpr ⟨d, hd, if_pos hno⟩, hfin.trans hno, finish_done d status⟩, sameMem_evcSet s h k v,
    rd_evcSet_self s h k v⟩

theorem eventOp_holds {s : State} {h : Half} {ring seq : Nat} {c : Chain} (hc : s.chain h ring seq = some c) (hr : c.running = true)
    (ho : hdOpcode c.head = opEVENT_OP) : Gives (.eventOp h ring seq) s fun t =>
      (∃ d ∈ t.chains, d.readNo = c.readNo ∧ d.done = true) ∧ SameMem s t ∧
        t.rd (.desc .EVC_VAL) h (fieldAt c.head 0x18 2 % 4096) = if fieldAt c.head 0x1A 1 = 1 then fieldAt c.head 0x1C 4
          else (s.rd (.desc .EVC_VAL) h (fieldAt c.head 0x18 2 % 4096) + fieldAt c.head 0x1C 4) % 2 ^ 32 := by
  have hv : fieldAt c.head 0x1C 4 < 2 ^ 32 := fieldAt_lt c.head 0x1C 4
  have hm := List.mem_of_find?_eq_some hc
  refine ⟨_, runChain_runs hc hr ho _, ?_⟩
  dsimp only
  split
  · obtain ⟨hd, hs, hval⟩ := evcSet_endChain hm h (fieldAt c.head 0x18 2 % 4096) (fieldAt c.head 0x1C 4) ST_OK
    exact ⟨hd, hs, hval.trans (Nat.mod_eq_of_lt hv)⟩
  · exact evcSet_endChain hm h _ _ ST_OK

/-- Settles O36: one lemma above for each opcode. -/
theorem syncOpcodes : Obligations.SyncOpcodes := by
  intro h ring seq c s hc
  refine ⟨?_, fun hr => ⟨fun ho => ⟨fun ha => ?_, fun _ hcan hhost => ?_, fun ha hq => ?_⟩, fun ho => ?_, fun ho => ?_, fun ho => ?_,
    eventOp_holds hc hr⟩⟩
  · simp only [List.mem_cons, List.not_mem_nil, or_false, forall_eq_or_imp, forall_eq]
    exact ⟨fun hn => sets_of_next (runChain_idle hc hn _), fun hn => sets_of_next (runChain_idle hc hn _),
      fun hn => sets_of_next (runChain_idle hc hn _), fun hn => sets_of_next (runChain_idle hc hn _),
      fun hn => sets_of_next (runChain_idle hc hn _)⟩
  · exact marker_unwritten hc hr ho (.inl ha)
  · obtain ⟨t, he, hm, hs⟩ := marker_unwritten hc hr ho (.inr ⟨hcan, hhost⟩)
    exact ⟨t, he, hm, .of_chains hs⟩
  · refine marker_written hc hr ho ?_
    rintro (hz | ⟨hcan, hhost⟩)
    · exact ha hz
    · simp [hcan, hhost] at hq
  · exact endsOnceFree hc (runChain_runs hc hr ho _)
  · exact endsOnceFree hc (runChain_runs hc hr ho _)
  · exact ⟨_, runChain_runs hc hr ho _, endChain_holds hc ST_OK⟩

end Sys2Proof
end

section
/-!
Event counters' writes, allotments, CANCEL and requests: O37.
-/

namespace Sys2Proof

open Machine

set_option Elab.async false

/-! ### Writes of event counters (R197) -/

section
variable {s : State} {h : Half} {fn j v : Nat}

theorem evcWrite_unnamed (hk : counterOf s h fn j = none) : Sets (.evcValWrite h fn j v) s [] ∧ Sets (.evcAddWrite h fn j v) s [] := by
  refine ⟨sets_of_next ?_, sets_of_next ?_⟩
  · show execEvcValWrite h fn j v s = _
    unfold execEvcValWrite
    rw [hk]
  · show execEvcAddWrite h fn j v s = _
    unfold execEvcAddWrite
    rw [hk]

/-- A command that sets one counter: its value, no byte of memory, and the other counters as they were. -/
theorem gives_evcSet {i : Instr} {k n : Nat} (he : exec i s = .next (evcSet s h k n)) : Gives i s fun t =>
    t.rd (.desc .EVC_VAL) h k = n % 2 ^ 32 ∧ SameMem s t ∧ ∀ i, i ≠ k → t.rd (.desc .EVC_VAL) h i = s.rd (.desc .EVC_VAL) h i :=
  ⟨_, he, rd_evcSet_self s h k n, sameMem_evcSet s h k n, fun _ hi => rd_evcSet_ne s h k n hi⟩

variable {k : Nat} (hk : counterOf s h fn j = some k)
include hk

theorem exec_evcValWrite : exec (.evcValWrite h fn j v) s = .next (evcSet s h k v) := by
  show execEvcValWrite h fn j v s = _
  unfold execEvcValWrite
  rw [hk]

theorem exec_evcAddWrite : exec (.evcAddWrite h fn j v) s = .next (evcSet s h k (s.rd (.desc .EVC_VAL) h k + v)) := by
  show execEvcAddWrite h fn j v s = _
  unfold execEvcAddWrite
  rw [hk]
  rfl

end

/-! ### Allotments (R205) -/

section
variable {s : State} {h : Half} {p base count : Nat}

/-- An allotment's write, with its outcome. -/
def allot (s : State) (h : Half) (p base count status : Nat) (bf cf : Fld) : State :=
  if status = ST_OK then
    ((s.wr (.desc .ALLOC_STATUS_LAST_STATUS) h status).wr bf h base p).wr cf h count p
  else s.wr (.desc .ALLOC_STATUS_LAST_STATUS) h status

theorem alloc_discarded (hd : 64 ≤ p ∨ locked s h = true) :
    Sets (.evcAllocWrite h p base count) s [] ∧ Sets (.reqAllocWrite h p base count) s [] :=
  ⟨sets_of_next (if_pos hd), sets_of_next (if_pos hd)⟩

theorem exec_evcAllocWrite (hp : p < 64) (hl : locked s h = false) : exec (.evcAllocWrite h p base count) s =
    .next (allot s h p base count (allotStatus s h p base count 4096 64 (.desc .EVC_ALLOC_BASE) (.desc .EVC_ALLOC_COUNT))
      (.desc .EVC_ALLOC_BASE) (.desc .EVC_ALLOC_COUNT)) := by
  refine (if_neg (by simp [hp, hl])).trans ?_
  unfold allot
  rw [apply_ite Host.Outcome.next]

theorem exec_reqAllocWrite (hp : p < 64) (hl : locked s h = false) : exec (.reqAllocWrite h p base count) s =
    .next (allot s h p base count (allotStatus s h p base count 4096 4096 (.desc .REQ_ALLOC_BASE) (.desc .REQ_ALLOC_COUNT))
      (.desc .REQ_ALLOC_BASE) (.desc .REQ_ALLOC_COUNT)) := by
  refine (if_neg (by simp [hp, hl])).trans ?_
  unfold allot
  rw [apply_ite Host.Outcome.next]

/-- An allotment is applied, within the cap, or refused for a ring that is not DISABLED or for its range. -/
theorem allotStatus_cases (total cap : Nat) (bf cf : Fld) :
    (allotStatus s h p base count total cap bf cf = ST_OK ∧ count ≤ cap) ∨ allotStatus s h p base count total cap bf cf = ST_RING_BUSY ∨
      allotStatus s h p base count total cap bf cf = ST_ALLOC_CONFIG := by
  unfold allotStatus
  split
  · exact .inr (.inl rfl)
  · split
    · exact .inr (.inr rfl)
    · exact .inl ⟨rfl, by omega⟩

theorem allotStatus_lt (total cap : Nat) (bf cf : Fld) : allotStatus s h p base count total cap bf cf < 2 ^ 16 := by
  obtain ⟨he, -⟩ | he | he := allotStatus_cases (s := s) (h := h) (p := p) (base := base) (count := count) total cap bf cf
  all_goals
    rw [he]
    decide

theorem count_le_of_allotStatus {total cap : Nat} {bf cf : Fld} (hok : allotStatus s h p base count total cap bf cf = ST_OK) :
    count ≤ cap := by
  obtain ⟨-, hle⟩ | he | he := allotStatus_cases (s := s) (h := h) (p := p) (base := base) (count := count) total cap bf cf
  · exact hle
  · exact absurd (he.symm.trans hok) (by decide)
  · exact absurd (he.symm.trans hok) (by decide)

variable {status : Nat} {bf cf : Fld}

theorem allot_refused (hlt : status < 2 ^ 16) (hne : status ≠ ST_OK) :
    Only s (allot s h p base count status bf cf) [cell (.desc .ALLOC_STATUS_LAST_STATUS) h 0 status] := by
  unfold allot
  rw [if_neg hne]
  exact (Only.refl s).wr_lt hlt

theorem allot_applied (hok : status = ST_OK) (hbase : bf.width = 12) (hcount : count < 2 ^ cf.width)
    (hn : [cf, bf, .desc .ALLOC_STATUS_LAST_STATUS].Nodup) : Only s (allot s h p base count status bf cf)
      [cell (.desc .ALLOC_STATUS_LAST_STATUS) h 0 ST_OK, cell bf h p (base % 2 ^ 12), cell cf h p count] := by
  subst hok
  unfold allot
  rw [if_pos rfl, ← hbase]
  have hw := (((Only.refl s).wr_lt (f := .desc .ALLOC_STATUS_LAST_STATUS) (h := h) (v := ST_OK) (i := 0) (by decide)).wr bf h base p).wr_lt
    (h := h) (i := p) hcount
  exact hw.perm (List.reverse_perm [cell (.desc .ALLOC_STATUS_LAST_STATUS) h 0 ST_OK, cell bf h p (base % 2 ^ bf.width), cell cf h p count])
    (.of_map Prod.fst hn)

/-- An allotment's write: what it changes where it is applied, and where it is refused. -/
theorem sets_of_allot {i : Instr} {total cap : Nat}
    (he : exec i s = .next (allot s h p base count (allotStatus s h p base count total cap bf cf) bf cf))
    (hbase : bf.width = 12) (hcap : cap < 2 ^ cf.width) (hn : [cf, bf, .desc .ALLOC_STATUS_LAST_STATUS].Nodup) :
    (allotStatus s h p base count total cap bf cf = ST_OK → Sets i s
      [cell (.desc .ALLOC_STATUS_LAST_STATUS) h 0 ST_OK, cell bf h p (base % 2 ^ 12), cell cf h p count]) ∧
    (allotStatus s h p base count total cap bf cf ≠ ST_OK → Sets i s
      [cell (.desc .ALLOC_STATUS_LAST_STATUS) h 0 (allotStatus s h p base count total cap bf cf)]) :=
  ⟨fun hok => ⟨_, he, allot_applied hok hbase ((count_le_of_allotStatus hok).trans_lt hcap) hn⟩,
    fun hne => ⟨_, he, allot_refused (allotStatus_lt ..) hne⟩⟩

end

/-! ### CANCEL (R350 to R353) -/

/-- The requests of a number are cancelled, and their chains are over unless they have been admitted. -/
def Cancelled (num : Nat) (t : State) : Prop :=
  (∀ q ∈ t.requests, q.num = num → q.closing = true ∧ q.cancelled = true) ∧
    ∀ d ∈ t.chains, d.ofRequest num = true → d.stage = .admitted ∨ d.done = true

/-- A CANCEL may take effect: it has been read, its wait and its release are over, and it has not ended. -/
def CancelDue (c : Chain) : Prop := hdOpcode c.head = opCANCEL ∧ c.done = false ∧ c.stage ≠ .waiting ∧ c.stage ≠ .timed

theorem cancel_over (c : Chain) (status : Nat) (silent : Bool) :
    (c.cancel status silent).stage = .admitted ∨ (c.cancel status silent).done = true := by
  unfold Chain.cancel
  split
  · exact .inr ‹_›
  · split
    · exact .inl ‹_›
    · exact .inr rfl

theorem cancel_ofRequest (c : Chain) (status : Nat) (silent : Bool) (num : Nat) :
    (c.cancel status silent).ofRequest num = c.ofRequest num := by
  unfold Chain.cancel
  split
  · rfl
  · split
    · rfl
    · rfl

theorem finish_ofRequest (c : Chain) (status num : Nat) : (c.finish status).ofRequest num = c.ofRequest num := by
  unfold Chain.finish
  split
  · rfl
  · rfl

theorem chains_clearSlots (s : State) (h : Half) (i n : Nat) : (clearSlots s h i n).chains = s.chains := by
  refine List.foldlRecOn (motive := fun t : State => t.chains = s.chains) _ _ rfl fun t ht d _ => ?_
  unfold clearSlot
  dsimp only
  split
  · exact ht
  · exact ht

theorem chains_freeOrphans (s : State) (h : Half) : (freeOrphans s h).chains = s.chains :=
  List.foldlRecOn (motive := fun t : State => t.chains = s.chains) _ _ rfl fun t ht o _ =>
    (chains_clearSlots t h o.slot (2 ^ o.slotLog2)).trans ht

theorem chains_cancelStreams (s : State) (h : Half) (num status : Nat) : (cancelStreams s h num status).chains = s.chains :=
  List.foldlRecOn (motive := fun t : State => t.chains = s.chains) _ _ rfl fun _ ht _ _ => ht

theorem chains_relist (s : State) (h : Half) : (relist s h).chains = s.chains := (touches_relist s h).part State.chains

theorem chains_refreshDraining (s : State) (h : Half) (fn : Nat) : (refreshDraining s h fn).chains = s.chains := rfl

section
variable {s : State} {num status : Nat} {silent : Bool}

theorem chains_closeRequest {r : Request} (hr : s.request num = some r) : (closeRequest s num status silent).chains =
    s.chains.map fun c => if c.ofRequest num then c.cancel status silent else c := by
  unfold closeRequest
  simp only [hr]
  have hlists (u : State) : (relist (freeOrphans (cancelStreams u r.half num status) r.half) r.half).chains = u.chains := by
    rw [chains_relist, chains_freeOrphans, chains_cancelStreams]
  split
  · rw [chains_refreshDraining, hlists]
    rfl
  · rw [hlists]
    rfl

theorem closed_num (readNo : Nat) (r : Request) : (closed readNo num status silent r).num = r.num := by
  unfold closed
  split
  · rfl
  · rfl

/-- A request that is closed is cancelled with its chains, and what was cancelled before stays so. -/
theorem closeRequest_cancels {r : Request} (hr : s.request num = some r) {n : Nat} (hn : n = num ∨ Cancelled n s) :
    Cancelled n (closeRequest s num status silent) := by
  unfold Cancelled
  simp only [requests_closeRequest hr, chains_closeRequest hr, List.forall_mem_map, closed_num]
  refine ⟨fun q hq hqn => ?_, fun d hd hof => ?_⟩
  · unfold closed
    by_cases he : q.num = num
    · rw [if_pos he]
      exact ⟨rfl, rfl⟩
    · rw [if_neg he]
      exact (hn.resolve_left fun e => he (hqn.trans e)).1 q hq hqn
  · split_ifs at hof ⊢ with he
    · exact cancel_over d status silent
    · exact (hn.resolve_left fun e => he (e ▸ hof)).2 d hd hof

/-- The requests keep their numbers, and what is cancelled stays so. -/
def KeepsCancelled (s t : State) : Prop := t.requests.map (·.num) = s.requests.map (·.num) ∧ ∀ n, Cancelled n s → Cancelled n t

theorem KeepsCancelled.refl (s : State) : KeepsCancelled s s := ⟨rfl, fun _ => id⟩

theorem KeepsCancelled.trans {t u : State} (h1 : KeepsCancelled s t) (h2 : KeepsCancelled t u) : KeepsCancelled s u :=
  ⟨h2.1.trans h1.1, fun n => h2.2 n ∘ h1.2 n⟩

/-- The requests of a number are cancelled, if there are any. -/
def CancelledIfOpen (num : Nat) (t : State) : Prop := num ∈ t.requests.map (·.num) → Cancelled num t

theorem CancelledIfOpen.keep {t : State} (hk : KeepsCancelled s t) (hc : CancelledIfOpen num s) : CancelledIfOpen num t :=
  fun hm => hk.2 num (hc (by rwa [hk.1] at hm))

theorem closeRequest_keepsCancelled (s : State) (num status : Nat) (silent : Bool) :
    KeepsCancelled s (closeRequest s num status silent) ∧ CancelledIfOpen num (closeRequest s num status silent) := by
  cases hr : s.request num with
  | none =>
    have he : closeRequest s num status silent = s := by
      unfold closeRequest
      rw [hr]
    rw [he]
    refine ⟨.refl s, fun hm => ?_⟩
    obtain ⟨r, hrm, hrn⟩ := List.mem_map.mp hm
    exact absurd hrn (by simpa using List.find?_eq_none.mp hr r hrm)
  | some r =>
    refine ⟨⟨?_, fun n hn => closeRequest_cancels hr (.inr hn)⟩, fun _ => closeRequest_cancels hr (.inl rfl)⟩
    rw [requests_closeRequest hr, List.map_map]
    exact List.map_congr_left fun q _ => closed_num s.readNo q

/-- Every request of a list is cancelled once each has been closed in turn. -/
theorem closeEach_cancels (s : State) {l : List Request} (hl : ∀ r ∈ l, r ∈ s.requests) :
    ∀ r ∈ l, Cancelled r.num (l.foldl (fun t r => closeRequest t r.num status silent) s) := by
  obtain ⟨⟨hnums, -⟩, hall⟩ := foldl_keeps (P := fun (r : Request) => CancelledIfOpen r.num) KeepsCancelled.refl
    (fun _ _ _ => KeepsCancelled.trans) (fun _ _ _ => CancelledIfOpen.keep)
    (fun t (r : Request) (_ : r ∈ l) => closeRequest_keepsCancelled t r.num status silent) s
  exact fun r hr => hall r hr (hnums ▸ List.mem_map_of_mem (hl r hr))

theorem Cancelled.setChain (hs : Cancelled num s) (c : Chain) {f : Chain → Chain} (hof : ∀ d, (f d).ofRequest num = d.ofRequest num)
    (hover : ∀ d, d.stage = .admitted ∨ d.done = true → (f d).stage = .admitted ∨ (f d).done = true) : Cancelled num (setChain s c f) := by
  refine ⟨hs.1, List.forall_mem_map.mpr fun d hd hd' => ?_⟩
  split_ifs at hd' ⊢
  · exact hover d (hs.2 d hd (hof d ▸ hd'))
  · exact hs.2 d hd hd'

theorem Cancelled.endCancel (hs : Cancelled num s) (c : Chain) : Cancelled num (endCancel s c) := by
  unfold Machine.endCancel
  split
  · exact hs
  · exact hs.setChain c (fun d => finish_ofRequest d ST_OK num) fun d _ => .inr (finish_done d ST_OK)

theorem startCancel_cancels (s : State) (c : Chain) : ∀ r ∈ cancelTargets s c, Cancelled r.num (startCancel s c) := by
  intro r hr
  exact (closeEach_cancels s (fun r hm => List.mem_of_mem_filter hm) r hr).setChain c (fun _ => rfl) fun _ => id

end

section
variable {s : State} {h : Half} {ring seq : Nat} {c : Chain} (hc : s.chain h ring seq = some c)
include hc

theorem cancel_idle (hd : ¬ CancelDue c) : Sets (.cancel h ring seq) s [] := by
  refine sets_of_next ?_
  show execCancel h ring seq s = _
  unfold execCancel
  rw [hc]
  refine if_pos ?_
  by_contra hn
  simp only [not_or, not_not, Bool.not_eq_true] at hn
  exact hd hn

theorem execCancel_due (hd : CancelDue c) : exec (.cancel h ring seq) s =
    if c.progress = 0 then
      ((startCancel s c).chain h ring seq).elim (.next (startCancel s c)) fun d => .next (endCancel (startCancel s c) d)
    else .next (endCancel s c) := by
  obtain ⟨hop, hdone, hw, ht⟩ := hd
  show execCancel h ring seq s = _
  unfold execCancel
  rw [hc]
  refine (if_neg (by simp [hop, hdone, hw, ht])).trans ?_
  dsimp only
  cases (startCancel s c).chain h ring seq with
  | none => rfl
  | some d => rfl

theorem cancel_begins (hd : CancelDue c) (hp : c.progress = 0) :
    Gives (.cancel h ring seq) s fun t => ∀ r ∈ cancelTargets s c, Cancelled r.num t := by
  have he := (execCancel_due hc hd).trans (if_pos hp)
  cases hch : (startCancel s c).chain h ring seq with
  | none => exact ⟨_, he.trans (by rw [hch]; rfl), startCancel_cancels s c⟩
  | some d => exact ⟨_, he.trans (by rw [hch]; rfl), fun r hr => (startCancel_cancels s c r hr).endCancel d⟩

theorem cancel_goes_on (hd : CancelDue c) (hp : c.progress ≠ 0) :
    ((s.chains.any fun d => c.snap.contains (d.readNo, 0)) = true → Sets (.cancel h ring seq) s []) ∧
      ((s.chains.any fun d => c.snap.contains (d.readNo, 0)) = false → Gives (.cancel h ring seq) s fun t =>
        c.finish ST_OK ∈ t.chains ∧ { t with chains := s.chains } = s) :=
  endsOnceFree hc ((execCancel_due hc hd).trans (if_neg hp))

/-! ### REQ_OPEN and REQ_CLOSE (R202, R445) -/

theorem reqOpen_holds (hr : c.running = true) (ho : hdOpcode c.head = opREQ_OPEN) : Gives (.reqOpen h ring seq) s fun t =>
    c.finish c.status ∈ t.chains ∧ (∀ q ∈ t.requests, q.num = hdRequest c.head → q.admitted = true) ∧
      { t with chains := s.chains, requests := s.requests } = s := by
  refine ⟨_, runChain_runs hc hr ho _, (setChain_holds (List.mem_of_find?_eq_some hc) fun d => d.finish c.status).1,
    List.forall_mem_map.mpr fun q _ hq => ?_, rfl⟩
  split_ifs at hq ⊢ with hn
  · rfl
  · exact absurd hq hn

end

/-- The registers of a stream (Table 13.8). -/
def streamFields : List Fld :=
  [EgrF.STREAM_ST0_ID, .STREAM_ST0_V, .STREAM_ST0_STATE, .STREAM_ST0_CLASS, .STREAM_ST0_PLAN, .STREAM_ST0_REQUEST,
    .STREAM_ST1_NEXT_SEQ, .STREAM_ST1_ACKED, .STREAM_ST2_STATUS, .STREAM_ST2_RATE, .STREAM_ST2_SRTT].map Fld.egr

theorem Touches.showStream {s t : State} (ht : Touches s t streamFields) (x : Stream) : Touches s (showStream t x) streamFields := by
  have h0 := ((ht.wr (f := .egr .STREAM_ST0_ID) (by decide) x.half x.id x.ctx).wr (f := .egr .STREAM_ST0_V) (by decide) x.half 1 x.ctx).wr
    (f := .egr .STREAM_ST0_STATE) (by decide) x.half x.state x.ctx
  have h1 := ((h0.wr (f := .egr .STREAM_ST0_CLASS) (by decide) x.half x.cls x.ctx).wr (f := .egr .STREAM_ST0_PLAN) (by decide) x.half x.plan
    x.ctx).wr (f := .egr .STREAM_ST0_REQUEST) (by decide) x.half x.request x.ctx
  have h2 := (h1.wr (f := .egr .STREAM_ST1_NEXT_SEQ) (by decide) x.half x.nextSeq x.ctx).wr (f := .egr .STREAM_ST1_ACKED) (by decide) x.half
    x.una x.ctx
  exact ((h2.wr (by decide) x.half 0 x.ctx).wr (by decide) x.half x.rate x.ctx).wr (by decide) x.half x.srtt x.ctx

theorem touches_showStreams (s : State) : Touches s (showStreams s) streamFields :=
  (Touches.refl s _).foldl (fun _ x hu => hu.showStream x) _

section
variable {s : State} {h : Half} {num : Nat}

theorem endStreams_waits (hw : (s.request num).any (shipsDue s) = true) : endStreams s h num = s := if_pos hw

/-- END on a request's OPEN streams: none of them is OPEN, and only the streams and their registers differ. -/
theorem endStreams_ends (hw : (s.request num).any (shipsDue s) = false) :
    (∀ x ∈ (endStreams s h num).streams, x.half = h → x.request = num → x.state ≠ 0) ∧
      Touches { s with streams := (endStreams s h num).streams } (endStreams s h num) streamFields := by
  have he : endStreams s h num = showStreams { s with streams := s.streams.map fun x =>
      if x.half = h ∧ x.request = num ∧ x.state = 0 then { x with state := 1, endQueued := true } else x } := if_neg (by simp [hw])
  have ht := touches_showStreams { s with streams := s.streams.map fun x =>
      if x.half = h ∧ x.request = num ∧ x.state = 0 then { x with state := 1, endQueued := true } else x }
  rw [he, ht.part State.streams]
  refine ⟨List.forall_mem_map.mpr fun x _ hxh hxr => ?_, ht⟩
  split_ifs at hxh hxr ⊢ with hx
  · exact Nat.one_ne_zero
  · exact fun hz => hx ⟨hxh, hxr, hz⟩

end

theorem reqClose_holds {s : State} {h : Half} {ring seq : Nat} {c : Chain} (hc : s.chain h ring seq = some c) (hr : c.running = true)
    (ho : hdOpcode c.head = opREQ_CLOSE) : Gives (.reqClose h ring seq) s fun t => c.finish ST_OK ∈ t.chains ∧
      ((s.request (hdRequest c.head)).any (shipsDue s) = true → { t with chains := s.chains } = s) ∧
      ((s.request (hdRequest c.head)).any (shipsDue s) = false →
        (∀ x ∈ t.streams, x.half = h → x.request = hdRequest c.head → x.state ≠ 0) ∧
        Touches { s with chains := t.chains, streams := t.streams } t streamFields) := by
  have hm : c ∈ (endStreams s h (hdRequest c.head)).chains := by
    rw [chains_endStreams]
    exact List.mem_of_find?_eq_some hc
  refine ⟨_, runChain_runs hc hr ho _, (setChain_holds hm fun d => d.finish ST_OK).1, fun hw => ?_, fun hw => ?_⟩
  · rw [endStreams_waits hw]
    rfl
  · obtain ⟨hs, ht⟩ := endStreams_ends (h := h) hw
    refine ⟨hs, ht.1, ?_⟩
    exact congrArg (fun u : State => { u with chains := (endChain (endStreams s h (hdRequest c.head)) c ST_OK).chains }) ht.2

/-! ### REQUEST_FREE (R203, R296) -/

section
variable {s s₀ : State} {h : Half}

theorem Calm.returnGuests (hs : Calm s₀ s) {r : Request} : Calm s₀ (returnGuests s r) := .ite hs (.wr (.addHeld hs))

theorem Calm.releasePages (hs : Calm s₀ s) {r : Request} : Calm s₀ (releasePages s r) := by
  unfold Machine.releasePages
  extract_lets s1 mine s2 s3 u
  have h1 : Calm s₀ s1 := .foldl hs fun _ _ ht => .ite (.ite (.freeSlot ht) ht) (.freeHeldBy ht)
  have h2 : Calm s₀ s2 := .foldl h1 fun _ _ ht => .freeSlot ht
  have h3 : Calm s₀ s3 := .returnGuests (.upd h2)
  exact .upd h3

theorem Calm.histSample (hs : Calm s₀ s) {src party : Nat} {v : Int} : Calm s₀ (histSample s h src party v) :=
  hs.of_touches ((Touches.refl s histFields).histSample (fun _ hf => hf) h src party v)

/-- A request's reserve used for its close record, which is written unless the request is silent. -/
def closeWritten (s : State) (r : Request) : State :=
  let s1 := s.wr (.host .CQ_RESERVED) r.half (s.rd (.host .CQ_RESERVED) r.half r.ring - 1) r.ring
  if r.silent then s1 else writeRecord s1 r.half r.ring (closeRecord s r) false

theorem calm_freeRequest (s : State) (r : Request) : Calm (closeWritten s r) (freeRequest s r) := by
  have hb : Calm (closeWritten s r) (closeWritten s r) := .refl _
  exact .wr (.wr (.upd (.releasePages (.ite (.histSample hb) hb))))

theorem closeWritten_moves {r : Request} (hs : r.silent = false) (hok : s.hostOk r.half (ringFn r.ring) = true) :
    (closeWritten s r).rd (.host .RING_STATUS_CQ_PI) r.half r.ring = (s.rd (.host .RING_STATUS_CQ_PI) r.half r.ring + 1) % 2 ^ 16 := by
  have hcalm : Calm s (s.wr (.host .CQ_RESERVED) r.half (s.rd (.host .CQ_RESERVED) r.half r.ring - 1) r.ring) := (Calm.refl s).wr
  unfold closeWritten
  rw [if_neg (by simp [hs]), (writeRecord_moves (closeRecord s r) false).2 ((hcalm.hostOk _).trans hok), hcalm _ (by decide)]

theorem freeRequest_gone (s : State) (r : Request) : ∀ q ∈ (freeRequest s r).requests, q.num ≠ r.num := by
  intro q hq
  simpa using (List.mem_filter.mp hq).2

variable {num : Nat} {r : Request} (hr : s.request num = some r)
include hr

theorem execRequestFree_eq : exec (.requestFree h num) s =
    if r.half = h ∧ requestOver s r = true then .next (freeRequest s r) else .next s := by
  show execRequestFree h num s = _
  unfold execRequestFree
  rw [hr]

theorem requestFree_idle (hn : r.half ≠ h ∨ requestOver s r = false) : Sets (.requestFree h num) s [] := by
  refine sets_of_next ((execRequestFree_eq hr).trans (if_neg ?_))
  rintro ⟨hh, ho⟩
  exact hn.elim (· hh) (by simp [ho])

theorem requestFree_holds (hh : r.half = h) (ho : requestOver s r = true) : Gives (.requestFree h num) s fun t =>
    (∀ q ∈ t.requests, q.num ≠ num) ∧ (r.silent = false → s.hostOk h (ringFn r.ring) = true →
      t.rd (.host .RING_STATUS_CQ_PI) h r.ring = (s.rd (.host .RING_STATUS_CQ_PI) h r.ring + 1) % 2 ^ 16) := by
  have hnum : r.num = num := by simpa using List.find?_some (p := fun q : Request => q.num == num) hr
  subst hh hnum
  exact ⟨_, (execRequestFree_eq hr).trans (if_pos ⟨rfl, ho⟩), freeRequest_gone s r,
    fun hs hok => (calm_freeRequest s r _ (by decide) r.half r.ring).trans (closeWritten_moves hs hok)⟩

end

/-- Settles O37: one lemma above for each command and case. -/
theorem eventCountersAndRequests : Obligations.EventCountersAndRequests := by
  intro h s
  refine ⟨fun fn j v => evcWrite_unnamed, fun fn j v k hk => ⟨gives_evcSet (exec_evcValWrite hk), gives_evcSet (exec_evcAddWrite hk)⟩,
    fun p base count hp => alloc_discarded (.inl hp), fun p base count hp => ⟨fun hl => ?_, fun hl => ?_⟩,
    fun ring seq c hc => ⟨⟨cancel_idle hc, cancel_begins hc, cancel_goes_on hc⟩, reqOpen_holds hc, reqClose_holds hc⟩,
    fun num r hr => ⟨requestFree_idle hr, requestFree_holds hr⟩⟩
  · simp only [List.mem_cons, List.not_mem_nil, or_false, forall_eq_or_imp, forall_eq]
    exact alloc_discarded (.inr hl)
  · obtain ⟨evcApplied, evcRefused⟩ := sets_of_allot (exec_evcAllocWrite (base := base) (count := count) hp hl) rfl (by decide) (by decide)
    obtain ⟨reqApplied, reqRefused⟩ := sets_of_allot (exec_reqAllocWrite (base := base) (count := count) hp hl) rfl (by decide) (by decide)
    exact ⟨evcApplied, evcRefused, reqApplied, reqRefused⟩

end Sys2Proof
end

section
/-!
A chain with a context in both slots of a core, which the loss of the Pass ends at a boundary of one of them: O40.
-/

namespace Sys2Proof

open Machine

set_option Elab.async false

/-! ### A context's commands -/

theorem onContext_works {s : State} {h : Half} {core n : Nat} {x : Context} {c : Chain} (hx : ctxAt s h core n = some x)
    (hc : chainOf s x = some c) (hd : c.done = false) (f : Chain → Context → State) : onContext s h core n f = .next (f c x) := by
  simp [onContext, hx, hc, hd]

/-! ### A boundary whose block cannot be written (R210, R527) -/

/-- The loop-nest table of one multiplication: one row, one column, one term, and tiles of one row. -/
def unitNest : List Byte := (List.range 128).map fun i => BitVec.ofNat 8 (if i = 4 ∨ i = 8 ∨ i = 12 then 1 else if i = 0x1C then 2 else 0)

/-- The descriptor of a MATMUL whose C lies in the HBM of the other half. -/
def farMatmulHead : List Byte := (List.range 64).map fun i => BitVec.ofNat 8 (if i = 8 then opMATMUL else if i = 0x2C then 8 else 0)

/-- The chain of that descriptor, which runs. -/
def farChain : Chain := { newChain State.reset .h0 512 0 farMatmulHead [] 1 with stage := .admitted }

/-- Its context on the array: its block is complete, and no pass of it is in the array. -/
def boundaryCtx : Context :=
  { newContext .h0 0 0 512 (some 0) false 0 0 with read := true, nest := unitNest, item := some 0, idle := false, vec := true, acc := [0] }

/-- Its context in the core's other slot, with one pass in the array. -/
def drainingCtx : Context := { newContext .h0 0 1 512 (some 0) false 1 0 with inArray := 1 }

/-- Both contexts in their slots, the memory of the other half there, and the Pass down. -/
def passDownState : State :=
  { ((State.reset.wr (.boot .HBM_OK) .h1 1).wr (.core .CORE_STATUS_SLOT0) .h0 2) with
    chains := [farChain], readNo := 1, contexts := [boundaryCtx, drainingCtx] }

set_option maxRecDepth 40000 in
/-- The write of the block is refused with ST_PASS_DOWN, which takes both contexts of the chain from their slots: the boundary counts the
pass that the other one had in the array. -/
theorem passDownState_counts : (resched (nestBoundary passDownState boundaryCtx) .h0 0).rd (.core .PASS_CNT) .h0 0 = 1 := by decide

theorem passDownState_ctxAt : ctxAt passDownState .h0 0 (0 : Fin 2).val = some boundaryCtx := by decide

theorem passDownState_chainOf : chainOf passDownState boundaryCtx = some farChain := by decide

theorem passDownState_onArray : onArray passDownState boundaryCtx = true := by decide

theorem passDownState_boundary :
    exec (.tileBoundary .h0 0 0) passDownState = .next (resched (nestBoundary passDownState boundaryCtx) .h0 0) := by
  have hn : isNest farChain = true := by decide
  show execTileBoundary .h0 0 0 passDownState = _
  unfold execTileBoundary
  rw [onContext_works passDownState_ctxAt passDownState_chainOf rfl]
  rw [if_neg (by simp [passDownState_onArray]), if_pos hn]

/-- Refutes O40: a boundary counts more passes than its context had in the array, where the write of the context's block meets the Pass
down and the chain's context in the core's other slot has a pass in the array. -/
theorem not_itemsAndFolds : ¬ Obligations.ItemsAndFolds := by
  intro hall
  obtain ⟨-, -, -, -, -, hcount, -⟩ := hall .h0 0 0 boundaryCtx farChain passDownState passDownState_ctxAt passDownState_chainOf rfl
  obtain ⟨t, ht, -, hpass⟩ := hcount passDownState_onArray
  obtain rfl := Host.Outcome.next.inj (passDownState_boundary.symm.trans ht)
  rw [passDownState_counts] at hpass
  revert hpass
  decide

end Sys2Proof
end

section
/-!
What the end of work leaves: contexts that come from those before, chains that keep their work counter and their end, and the counts of
the cores that it writes nothing to.
-/

namespace Sys2Proof

open Machine

set_option Elab.async false

/-! ### Contexts, chains and counts that follow one another -/

/-- The slot that a context stands in. -/
def Machine.Context.seat (x : Context) : Half × Nat × Nat := (x.half, x.core, x.slot)

/-- A context where another stood: for the same chain, or for none. -/
def Follows (z y : Context) : Prop := z.seat = y.seat ∧ (z.chainNo = none ∨ z.chainNo = y.chainNo ∧ z.standing = y.standing)

/-- A chain as another was: its number and its work counter, and over if that was. -/
def Outlasts (c d : Chain) : Prop := d.readNo = c.readNo ∧ d.work = c.work ∧ (c.done = true → d.done = true)

/-- Counts of the cores and of their dies that the end of work never writes. -/
def coreCounts : List Fld := [.core .SP_ECC_UNCORR, .tile .TD_COMBINE]

/-- `t` is reached from `s` by work that ends: no context comes that was not there, no chain goes, opens again or draws an index, and
the counts of `coreCounts` read as they did. -/
structure Wanes (s t : State) : Prop where
  contexts : ∀ z ∈ t.contexts, ∃ y ∈ s.contexts, Follows z y
  chains : ∀ c ∈ s.chains, ∃ d ∈ t.chains, Outlasts c d
  counts : ∀ f ∈ coreCounts, ∀ h i, t.rd f h i = s.rd f h i

theorem Follows.refl (x : Context) : Follows x x := ⟨rfl, .inr ⟨rfl, rfl⟩⟩

theorem Follows.trans {x y z : Context} (h1 : Follows x y) (h2 : Follows y z) : Follows x z := by
  obtain ⟨e1, hn | ⟨hn, hs⟩⟩ := h1
  · exact ⟨e1.trans h2.1, .inl hn⟩
  · exact ⟨e1.trans h2.1, h2.2.imp hn.trans fun h => ⟨hn.trans h.1, hs.trans h.2⟩⟩

theorem seat_eq_iff {x y : Context} : x.seat = y.seat ↔ x.half = y.half ∧ x.core = y.core ∧ x.slot = y.slot := by
  simp [Context.seat]

theorem Outlasts.refl (c : Chain) : Outlasts c c := ⟨rfl, rfl, id⟩

theorem Outlasts.trans {c d e : Chain} (h1 : Outlasts c d) (h2 : Outlasts d e) : Outlasts c e :=
  ⟨h2.1.trans h1.1, h2.2.1.trans h1.2.1, h2.2.2 ∘ h1.2.2⟩

theorem Outlasts.ite {c a b : Chain} {p : Prop} [Decidable p] (ha : Outlasts c a) (hb : Outlasts c b) :
    Outlasts c (if p then a else b) := by
  split <;> assumption

theorem outlasts_finish (c : Chain) (status : Nat) : Outlasts c (c.finish status) :=
  .ite (.refl c) ⟨rfl, rfl, fun _ => rfl⟩

theorem outlasts_fail (c : Chain) (status : Nat) : Outlasts c (c.fail status) := .ite (.refl c) ⟨rfl, rfl, id⟩

theorem outlasts_cancel (c : Chain) (status : Nat) (silent : Bool) : Outlasts c (c.cancel status silent) :=
  .ite ⟨rfl, rfl, id⟩ (.ite ⟨rfl, rfl, id⟩ ⟨rfl, rfl, fun _ => rfl⟩)

section
variable {s₀ s t : State}

theorem Wanes.refl (s : State) : Wanes s s :=
  ⟨fun z hz => ⟨z, hz, .refl z⟩, fun c hc => ⟨c, hc, .refl c⟩, fun _ _ _ _ => rfl⟩

theorem Wanes.trans {u : State} (h1 : Wanes s t) (h2 : Wanes t u) : Wanes s u := by
  refine ⟨fun z hz => ?_, fun c hc => ?_, fun f hf h i => (h2.counts f hf h i).trans (h1.counts f hf h i)⟩
  · obtain ⟨y, hy, hzy⟩ := h2.contexts z hz
    obtain ⟨x, hx, hyx⟩ := h1.contexts y hy
    exact ⟨x, hx, hzy.trans hyx⟩
  · obtain ⟨d, hd, hcd⟩ := h1.chains c hc
    obtain ⟨e, he, hde⟩ := h2.chains d hd
    exact ⟨e, he, hcd.trans hde⟩

/-- What is neither a context, a chain nor a register does not matter. -/
theorem Wanes.upd (hs : Wanes s₀ s) (e : t.contexts = s.contexts ∧ t.chains = s.chains ∧ t.regs = s.regs := by exact ⟨rfl, rfl, rfl⟩) :
    Wanes s₀ t := by
  obtain ⟨hx, hc, hr⟩ := e
  exact ⟨hx ▸ hs.contexts, hc ▸ hs.chains, fun f hf h i => (congrArg (·.get ⟨f, h, i⟩) hr).trans (hs.counts f hf h i)⟩

theorem Wanes.wr (hs : Wanes s₀ s) {f : Fld} {h : Half} {v i : Nat} (hf : f ∉ coreCounts := by decide) : Wanes s₀ (s.wr f h v i) := by
  refine ⟨hs.contexts, hs.chains, fun g hg k j => ?_⟩
  rw [State.rd_wr, if_neg]
  · exact hs.counts g hg k j
  · rintro ⟨rfl, -⟩
    exact hf hg

theorem Wanes.inc (hs : Wanes s₀ s) {f : Fld} {h : Half} {n i : Nat} (hf : f ∉ coreCounts := by decide) : Wanes s₀ (s.inc f h n i) :=
  .wr hs hf

theorem Wanes.bump (hs : Wanes s₀ s) {h : Half} {g k n : Nat} : Wanes s₀ (bump s h g k n) := .inc hs

theorem Wanes.ite {a b : State} {c : Prop} [Decidable c] (ha : Wanes s₀ a) (hb : Wanes s₀ b) : Wanes s₀ (if c then a else b) := by
  split <;> assumption

theorem Wanes.foldl {α : Type} {f : State → α → State} {l : List α} {b : State} (hb : Wanes s₀ b)
    (hf : ∀ b a, Wanes s₀ b → Wanes s₀ (f b a)) : Wanes s₀ (l.foldl f b) := List.foldlRecOn l f hb fun b hb a _ => hf b a hb

theorem Wanes.of_touches {fs : List Fld} (hs : Wanes s₀ s) (ht : Touches s t fs) (hf : ∀ f ∈ coreCounts, f ∉ fs := by decide) :
    Wanes s₀ t :=
  hs.trans ⟨fun z hz => ⟨z, ht.part State.contexts ▸ hz, .refl z⟩, fun c hc => ⟨c, ht.part State.chains ▸ hc, .refl c⟩,
    fun f hm => ht.rd (hf f hm)⟩

theorem Wanes.mapChains (hs : Wanes s₀ s) {f : Chain → Chain} (hf : ∀ d, Outlasts d (f d)) : Wanes s₀ (mapChains s f) :=
  hs.trans ⟨fun z hz => ⟨z, hz, .refl z⟩, fun c hc => ⟨f c, List.mem_map_of_mem hc, hf c⟩, fun _ _ _ _ => rfl⟩

theorem Wanes.setContexts (hs : Wanes s₀ s) {l : List Context} (hl : ∀ z ∈ l, ∃ y ∈ s.contexts, Follows z y) :
    Wanes s₀ { s with contexts := l } := hs.trans ⟨hl, fun c hc => ⟨c, hc, .refl c⟩, fun _ _ _ _ => rfl⟩

/-! ### Causes, records and the ledger -/

theorem not_mem_coreCounts_of_workField {f : Fld} (hf : workField f = true) : f ∉ coreCounts := by
  intro hm
  have hno : ∀ g ∈ coreCounts, workField g = false := by decide
  simp [hno f hm] at hf

section
variable {h : Half} (hs : Wanes s₀ s)
include hs

theorem Wanes.emit {o : Output} : Wanes s₀ (s.emit o) := .upd hs

theorem Wanes.sendMsix {fn vec : Nat} : Wanes s₀ (sendMsix s h fn vec) := .ite (.wr hs) (.ite (.emit (.bump hs)) hs)

theorem Wanes.raiseCause {k bits : Nat} : Wanes s₀ (raiseCause s k h bits) :=
  have hw := hs.wr (not_mem_coreCounts_of_workField (workField_causeReg k))
  .ite (.sendMsix hw) hw

theorem Wanes.writeRecord {ring : Nat} {r : CqRec} {now : Bool} : Wanes s₀ (writeRecord s h ring r now) := by
  cases hok : s.hostOk h (ringFn ring) with
  | false => rwa [writeRecord_down hok]
  | true => exact .of_touches (.wr (.upd hs)) (writeRecord_steps hok r now)

theorem Wanes.loseEvent {fn : Nat} : Wanes s₀ (loseEvent s h fn) := .of_touches (.inc hs) (touches_raiseFunc _ h fn _)

theorem Wanes.postEvent {fn status mt detail : Nat} : Wanes s₀ (postEvent s h fn status mt detail) := by
  unfold Machine.postEvent
  split
  · exact .loseEvent hs
  · exact .ite (.writeRecord hs) (.loseEvent hs)

theorem Wanes.ldgDrop {mt : Nat} : Wanes s₀ (ldgDrop s h mt) := .wr (.ite (.wr (.inc hs)) (.inc hs))

omit h
theorem Wanes.fuseEvent {k : Nat} : Wanes s₀ (fuseEvent s k) := .ite (.wr (.wr hs)) (.wr hs)

theorem Wanes.fuseHeld : Wanes s₀ (fuseHeld s) :=
  .foldl (.wr (.foldl (.wr hs) fun _ _ hu => .fuseEvent hu)) fun _ _ hu => .fuseEvent hu

theorem Wanes.fuseRecord {r : LdgRec} : Wanes s₀ (fuseRecord s r) := by
  unfold Machine.fuseRecord
  cases fuseRecordCount r with
  | none => exact .ite (.fuseHeld hs) hs
  | some k => exact .ite (.fuseHeld (.fuseEvent hs)) (.fuseEvent hs)

theorem Wanes.pldmEvent {w : Half} {r : LdgRec} : Wanes s₀ (pldmEvent s w r) := .ite (.ite (.upd hs) (.upd hs)) hs

theorem Wanes.ledger {h : Half} {type : Nat} {data : List Byte} : Wanes s₀ (ledger s h type data) :=
  .ite (.ldgDrop hs) (.ite (.pldmEvent (.fuseRecord (.wr (.upd hs)))) (.upd hs))

theorem Wanes.faultLog {h : Half} {fn : Nat} {r : FaultRec} {sample : Option (List Byte → List Byte)} :
    Wanes s₀ (faultLog s h fn r sample) :=
  have hk : Wanes s₀ (keepFaultRec s h r _) := .wr (.wr (.upd hs))
  .raiseCause (.postEvent (.ite (.wr (.upd hk)) (.raiseCause (.inc hk))))

theorem Wanes.faultRecord {h : Half} {fn : Nat} {r : FaultRec} {sample : Option (List Byte → List Byte)} :
    Wanes s₀ (faultRecord s h fn r sample) := .ite (.ledger (.faultLog hs)) (.faultLog hs)

end

/-! ### Contexts and their slots -/

section
variable {h : Half} {core slot : Nat} (hs : Wanes s₀ s)
include hs

theorem Wanes.setCtx {f : Context → Context} (hf : ∀ c, c.half = h → c.core = core → c.slot = slot → Follows (f c) c) :
    Wanes s₀ (setCtx s h core slot f) := by
  refine hs.setContexts fun z hz => ?_
  obtain ⟨y, hy, rfl⟩ := List.mem_map.mp hz
  refine ⟨y, hy, ?_⟩
  split
  next hp => exact hf y hp.1 hp.2.1 hp.2.2
  next => exact .refl y

/-- A change of what a context holds, not of whose it is. -/
theorem Wanes.editCtx {f : Context → Context}
    (hf : ∀ c, (f c).seat = c.seat ∧ (f c).chainNo = c.chainNo ∧ (f c).standing = c.standing := by exact fun _ => ⟨rfl, rfl, rfl⟩) :
    Wanes s₀ (Machine.setCtx s h core slot f) := .setCtx hs fun c _ _ _ => ⟨(hf c).1, .inr (hf c).2⟩

theorem Wanes.untagSlot : Wanes s₀ (untagSlot s h core slot) := .foldl hs fun _ _ ht => .wr ht

theorem Wanes.setSlot {code : Nat} : Wanes s₀ (setSlot s h core slot code) :=
  have hw := hs.wr (not_mem_coreCounts_of_workField (workField_slotFld slot))
  .ite (.wr hw) hw

theorem Wanes.setSlotCtx {v part opr req : Nat} : Wanes s₀ (setSlotCtx s h core slot v part opr req) :=
  .ite (.wr (.wr (.wr (.wr hs)))) (.wr (.wr (.wr (.wr hs))))

theorem Wanes.toArray : Wanes s₀ (toArray s h core slot) :=
  .bump (.inc (.editCtx (.setSlot (.ite (.setSlot hs) hs))))

theorem Wanes.countPreempt : Wanes s₀ (countPreempt s h) := .bump (.inc hs)

theorem Wanes.resched : Wanes s₀ (resched s h core) := by
  unfold Machine.resched
  extract_lets +onlyGivenNames held cand
  split
  · refine .ite hs ?_
    split
    · exact hs
    · exact .ite (.toArray hs) (.ite (.countPreempt (.toArray hs)) hs)
  · clear_value cand
    split
    · exact hs
    · exact .toArray hs
    · exact .ite (.toArray hs) (.toArray hs)

theorem Wanes.reschedIf {b : Bool} {x : Context} : Wanes s₀ (reschedIf b s x) := .ite (.resched hs) hs

theorem Wanes.startIdle : Wanes s₀ (startIdle s h core) := .ite hs (.resched hs)

theorem Wanes.drain {x : Context} : Wanes s₀ (drain s x) := .editCtx (.bump (.inc hs))

theorem Wanes.drainAt : Wanes s₀ (drainAt s h core slot) := by
  unfold Machine.drainAt
  split
  · exact .ite (.drain hs) hs
  · exact hs

theorem Wanes.dropCtx : Wanes s₀ (dropCtx s h core slot) :=
  .startIdle (.setSlotCtx (.untagSlot (.setSlot (.setContexts (hs.drainAt (h := h) (core := core) (slot := slot)) fun z hz =>
    ⟨z, List.mem_of_mem_filter hz, .refl z⟩))))

theorem Wanes.dropCtxs {p : Context → Bool} : Wanes s₀ (dropCtxs s p) := .foldl hs fun _ _ ht => .dropCtx ht

theorem Wanes.standAgain {x : Context} : Wanes s₀ (standAgain s x) := by
  refine .startIdle (.setSlot (.setCtx (.drainAt hs) fun y hh hc hl => ⟨?_, .inl rfl⟩))
  exact seat_eq_iff.mpr ⟨hh.symm, hc.symm, hl.symm⟩

end

/-! ### Granules (R49) -/

section
variable {h : Half} {c : Nat} (hs : Wanes s₀ s)
include hs

theorem Wanes.poolRefresh : Wanes s₀ (poolRefresh s h) := .wr (.wr hs)

theorem Wanes.poolHold {n : Nat} : Wanes s₀ (poolHold s h c n) := .wr hs

theorem Wanes.poolSetLent {n : Nat} : Wanes s₀ (poolSetLent s h c n) := .wr hs

theorem poolGrant_wanes : OnSome (Wanes s₀) (poolGrant s h c) := by
  unfold Machine.poolGrant
  refine .ite (.ite (.some (.poolHold hs)) (.ite (.some (.poolSetLent (.poolHold hs))) .none)) ?_
  refine .ite .none (.ite (.some (.poolHold hs)) ?_)
  split
  · exact .some (.poolSetLent (.poolHold hs))
  · exact .none

theorem grantFor_wanes {unit : Option UnitTag} : OnSome (Wanes s₀) (grantFor s h c unit) := by
  cases unit with
  | none => exact poolGrant_wanes hs
  | some tag =>
    refine .bind (poolGrant_wanes hs) fun _ ht => .ite (.some ht) ?_
    unfold joinUnit
    split
    · exact .some (.upd ht)
    · exact .ite (.some (.upd ht)) .none

theorem Wanes.poolServe {n : Nat} {unit : Option UnitTag} : Wanes s₀ (poolServe n s h c unit).1 := by
  induction n generalizing s with
  | zero => exact hs
  | succ n ih =>
    rw [Machine.poolServe]
    split
    next t ht => exact ih (grantFor_wanes hs t ht)
    · exact hs

theorem Wanes.reclaimCredit {r : PoolReq} : Wanes s₀ (reclaimCredit s h r) :=
  have hc := hs.poolHold.poolSetLent
  .ite (.wr (.bump (.inc (.upd hc)))) (.upd hc)

theorem Wanes.creditBorrowed : Wanes s₀ (creditBorrowed s h) := by
  unfold Machine.creditBorrowed
  split
  · exact .reclaimCredit hs
  · split
    · exact .poolSetLent hs
    · exact hs

theorem Wanes.poolReleaseN {n : Nat} : Wanes s₀ (poolReleaseN s h c n) :=
  .foldl hs fun _ _ ht => .ite ht (.ite (.creditBorrowed (.poolHold ht)) (.poolHold ht))

theorem Wanes.egressSettle : Wanes s₀ (egressSettle s h) := .upd hs

theorem Wanes.reclaimWalk {fuel n : Nat} : Wanes s₀ (reclaimWalk fuel s h n) := by
  induction fuel generalizing s n with
  | zero => exact hs
  | succ fuel ih =>
    rw [Machine.reclaimWalk]
    refine .ite hs ?_
    split
    · exact hs
    · exact ih (.egressSettle (.poolReleaseN (.upd hs)))

omit c in
theorem Wanes.serveReq {r : PoolReq} : Wanes s₀ (serveReq s r) :=
  have hp := hs.poolServe.upd
  .ite hp (.reclaimWalk hp.upd)

theorem Wanes.giveGranules {n : Nat} : Wanes s₀ (giveGranules s h c n) :=
  .poolRefresh (.foldl (.poolReleaseN hs) fun _ _ ht => .serveReq ht)

end

/-! ### Collective operations (R416, R417) -/

section
variable {h : Half} (hs : Wanes s₀ s)
include hs

theorem Wanes.injectPacket {p : Packet} : Wanes s₀ (injectPacket s h p).2 := by
  unfold Machine.injectPacket
  split
  · exact .inc hs
  · split
    · exact .inc hs
    · split
      · exact .upd hs
      · exact .upd hs
      · exact .inc hs

theorem Wanes.sendAborts {x : Grp} {gid epoch cause origin : Nat} {dests : List (Nat × Nat)} :
    Wanes s₀ (sendAborts s h x gid epoch cause origin dests) := by
  refine .foldl hs fun _ _ ht => ?_
  split
  · exact .injectPacket ht
  · exact ht

theorem Wanes.recordAbort {g gid epoch cause origin localSt : Nat} : Wanes s₀ (recordAbort s h g gid epoch cause origin localSt) :=
  .bump (.inc (.wr (.wr (.wr (.wr (.wr (.wr (.wr (.wr (.wr hs))))))))))

omit h in
theorem Wanes.endColl {c : Coll} : Wanes s₀ (endColl s c) := by
  unfold Machine.endColl
  extract_lets s1 loose
  have h1 : Wanes s₀ s1 := .upd hs
  exact .wr (.wr (.giveGranules h1))

theorem Wanes.keepPending {keep : Half × Packet → Bool} : Wanes s₀ (keepPending s h keep) := .ite (.upd hs) (.giveGranules (.upd hs))

omit h in
theorem Wanes.stopColl {c : Coll} : Wanes s₀ (stopColl s c) :=
  .mapChains (.keepPending (.endColl hs)) fun d => .ite (.ite (.refl d) (outlasts_finish d _)) (.refl d)

omit h in
theorem Wanes.originateAbort {c : Coll} {cause localSt : Nat} : Wanes s₀ (originateAbort s c cause localSt) := by
  unfold Machine.originateAbort
  extract_lets me s1 x
  have h1 : Wanes s₀ s1 := .recordAbort hs
  clear_value s1
  exact .ite (.stopColl h1) (.stopColl (.sendAborts (.upd h1)))

end

/-! ### Chains and contexts that end (R243, R244, R527) -/

section
variable (hs : Wanes s₀ s)
include hs

theorem Wanes.settleChain {n : Nat} : Wanes s₀ (settleChain s n) := by
  unfold Machine.settleChain
  refine .ite hs ?_
  split
  · exact .ite hs (.originateAbort hs)
  · refine .mapChains hs fun d => .ite ?_ (.refl d)
    split
    · exact outlasts_finish d _
    · exact outlasts_finish d _

theorem Wanes.endContext {x : Context} : Wanes s₀ (endContext s x) := by
  unfold Machine.endContext
  split
  · exact hs
  · exact .ite (.settleChain (.standAgain hs)) (.settleChain (.dropCtx hs))

theorem Wanes.endIfDone {c : Chain} {x : Context} : Wanes s₀ (endIfDone s c x) := by
  unfold Machine.endIfDone
  split
  · exact .ite (.endContext hs) hs
  · exact hs

theorem Wanes.afterItem {c : Chain} {x : Context} : Wanes s₀ (afterItem s c x) := .endIfDone (.editCtx hs)

theorem Wanes.phaseEnd {j : Job} : Wanes s₀ (phaseEnd s j) := by
  unfold Machine.phaseEnd
  split
  · exact .ite (.afterItem hs) hs
  · exact hs

theorem Wanes.endContexts {l : List Context} : Wanes s₀ (l.foldl Machine.endContext s) := .foldl hs fun _ _ ht => .endContext ht

theorem Wanes.passDownChain {n : Nat} : Wanes s₀ (passDownChain s n) := by
  refine .endContexts (.dropCtxs (.mapChains hs fun d => .ite ?_ (.refl d)))
  exact .trans (outlasts_finish d ST_PASS_DOWN) ⟨rfl, rfl, id⟩

end

/-! ### The partition step (R520) -/

section
variable {h : Half} (hs : Wanes s₀ s)
include hs

theorem Wanes.relist : Wanes s₀ (relist s h) := .of_touches hs (touches_relist s h)

theorem Wanes.cancelUnadmitted {ring status : Nat} {silent : Bool} : Wanes s₀ (cancelUnadmitted s h ring status silent) :=
  .wr (.relist (.mapChains hs fun d => .ite (outlasts_cancel d _ _) (.refl d)))

theorem Wanes.ringStop {ring : Nat} : Wanes s₀ (ringStop s h ring) := .ite (.cancelUnadmitted (.wr (.wr hs))) hs

theorem Wanes.clearSlots {i n : Nat} : Wanes s₀ (clearSlots s h i n) :=
  .foldl hs fun _ _ ht => .ite ht (.inc (.wr (.upd ht) (by split <;> decide)))

theorem Wanes.freeSlot {i k : Nat} : Wanes s₀ (freeSlot s h i k) := .ite (.upd hs) (.clearSlots hs)

theorem Wanes.freeOrphans : Wanes s₀ (freeOrphans s h) := .foldl (.upd hs) fun _ _ ht => .clearSlots ht

theorem Wanes.freeValleyPage {p v : Nat} : Wanes s₀ (freeValleyPage s h p v) := .wr (.upd hs)

omit h in
theorem Wanes.dropTransfer {t : Transfer} : Wanes s₀ (dropTransfer s t) := .giveGranules (.upd hs)

theorem Wanes.dropTransfers {p : Transfer → Bool} : Wanes s₀ (dropTransfers s h p) := by
  refine .foldl hs fun t x ht => ?_
  split
  · exact .dropTransfer (.freeValleyPage (.ite (.freeSlot ht) ht))
  · exact .dropTransfer (.ite (.freeValleyPage (.upd ht)) (.freeSlot (.upd ht)))

omit h in
theorem Wanes.closeRequest {num status : Nat} {silent : Bool} : Wanes s₀ (closeRequest s num status silent) := by
  unfold Machine.closeRequest
  split
  · exact hs
  next r _ =>
    extract_lets s1 s2 s3
    have h2 : Wanes s₀ s2 := .mapChains (.upd hs) fun d => .ite (outlasts_cancel d _ _) (.refl d)
    have h3 : Wanes s₀ s3 := .relist (.freeOrphans (.of_touches (.upd h2) (touches_showStreams _)))
    exact .ite (.wr h3) h3

theorem Wanes.abortParty {fn status : Nat} : Wanes s₀ (abortParty s h fn status) := .foldl hs fun _ _ ht => .originateAbort ht

theorem Wanes.partitionStep {p type detail : Nat} {esc : Bool} : Wanes s₀ (partitionStep s h p type detail esc) := by
  unfold Machine.partitionStep
  extract_lets s0 s1 s2 s3 s4 s5 rec_
  have h1 : Wanes s₀ s1 := .foldl (.wr (.wr hs)) fun _ _ ht => .cancelUnadmitted ht
  have h2 : Wanes s₀ s2 := .foldl h1 fun _ _ ht => .ite (.ringStop ht) ht
  have h3 : Wanes s₀ s3 := .mapChains h2 fun d => .ite (outlasts_finish d _) (.refl d)
  have h4 : Wanes s₀ s4 := .dropTransfers (.abortParty (.dropCtxs (.foldl h3 fun _ _ ht => .wr ht)))
  have h5 : Wanes s₀ s5 := .foldl h4 fun _ _ ht => .closeRequest ht
  exact .of_touches (.faultRecord h5) (touches_endPartStep _ h p)

theorem Wanes.countStorm {p : Nat} : Wanes s₀ (countStorm s h p) :=
  have h1 {a b : Nat} : Wanes s₀ ((s.wr (.flt .FLT_PART_T0) h a p).wr (.flt .FLT_PART_COUNT) h b p) := .wr (.wr hs)
  .ite (.partitionStep (.wr h1)) h1

/-! ### The context step (R518) -/

omit h in
theorem Wanes.noteAttn {x : Context} {status : Nat} : Wanes s₀ (noteAttn s x status) := by
  unfold Machine.noteAttn
  split
  · exact .ite (.wr (.wr hs)) hs
  · exact hs

omit h in
theorem Wanes.tellChain {x : Context} {status : Nat} : Wanes s₀ (tellChain s x status) := by
  unfold Machine.tellChain
  split
  · exact hs
  · exact .mapChains hs fun d => .ite (outlasts_fail d status) (.refl d)

end

end

end Sys2Proof
end

section
/-!
The contexts that a chain's end, a context step and the loss of the Pass take from their slots.
-/

namespace Sys2Proof

open Machine

set_option Elab.async false

section
variable {s t : State} {x y z : Context} {h : Half} {core slot n : Nat}

/-! ### The context in a slot -/

theorem ctxAt_holds (hx : ctxAt s h core slot = some x) : x ∈ s.contexts ∧ x.half = h ∧ x.core = core ∧ x.slot = slot := by
  have hp := List.find?_some (p := fun c : Context => c.half == h && c.core == core && c.slot == slot) hx
  simp only [Bool.and_eq_true, beq_iff_eq, and_assoc] at hp
  exact ⟨List.mem_of_find?_eq_some hx, hp⟩

theorem ctxAt_seat (hx : ctxAt s h core slot = some x) : x ∈ s.contexts ∧ x.seat = (h, core, slot) := by
  obtain ⟨hm, rfl, rfl, rfl⟩ := ctxAt_holds hx
  exact ⟨hm, rfl⟩

theorem ctxAt_eq_none (he : ∀ z ∈ s.contexts, z.seat ≠ (h, core, slot)) : ctxAt s h core slot = none := by
  cases hx : ctxAt s h core slot with
  | none => rfl
  | some z =>
    obtain ⟨hm, hs⟩ := ctxAt_seat hx
    exact absurd hs (he z hm)

/-- What a slot's contexts hold after a change of the one in it. -/
theorem ctxAt_setCtx (f : Context → Context) (hf : ∀ c, (f c).seat = c.seat) :
    ctxAt (setCtx s h core slot f) h core slot = (ctxAt s h core slot).map f := by
  unfold ctxAt setCtx
  induction s.contexts with
  | nil => rfl
  | cons c l ih =>
    obtain ⟨hh, hc, hl⟩ := seat_eq_iff.mp (hf c)
    by_cases hp : c.half = h ∧ c.core = core ∧ c.slot = slot
    · obtain ⟨rfl, rfl, rfl⟩ := hp
      simp [hh, hc, hl]
    · have hb : (c.half == h && c.core == core && c.slot == slot) = false := by simpa [and_assoc] using hp
      simpa only [List.map_cons, if_neg hp, List.find?_cons, hb] using ih

/-! ### What leaves a slot is not in it -/

theorem Wanes.seat_empty (hw : Wanes s t) {a : Half × Nat × Nat} (hs : ∀ z ∈ s.contexts, z.seat ≠ a) : ∀ z ∈ t.contexts, z.seat ≠ a := by
  intro z hz hza
  obtain ⟨y, hy, hf⟩ := hw.contexts z hz
  exact hs y hy (hf.1.symm.trans hza)

theorem Wanes.seat_idle (hw : Wanes s t) {a : Half × Nat × Nat} (hs : ∀ z ∈ s.contexts, z.seat = a → z.chainNo = none) :
    ∀ z ∈ t.contexts, z.seat = a → z.chainNo = none := by
  intro z hz hza
  obtain ⟨y, hy, he, hno⟩ := hw.contexts z hz
  exact hno.elim id fun hc => hc.1.trans (hs y hy (he.symm.trans hza))

theorem dropCtx_seat : ∀ z ∈ (dropCtx s h core slot).contexts, z.seat ≠ (h, core, slot) := by
  rintro z hz he
  obtain ⟨h1, h2⟩ := Prod.mk.inj he
  obtain ⟨h2, h3⟩ := Prod.mk.inj h2
  exact dropCtx_empty hz ⟨h1, h2, h3⟩

theorem standAgain_seat : ∀ z ∈ (standAgain s x).contexts, z.seat = x.seat → z.chainNo = none := by
  unfold standAgain
  extract_lets d s1
  have hw : Wanes s1 (startIdle (setSlot s1 x.half x.core x.slot 1) x.half x.core) := .startIdle (.setSlot (.refl _))
  refine hw.seat_idle fun z hz he => ?_
  obtain ⟨y, -, rfl⟩ := List.mem_map.mp hz
  by_cases hp : y.half = x.half ∧ y.core = x.core ∧ y.slot = x.slot
  · rw [if_pos hp]
    rfl
  · rw [if_neg hp] at he
    exact absurd (seat_eq_iff.mp he) hp

theorem endContext_seat (hx : x.chainNo = some n) : ∀ z ∈ (endContext s x).contexts, z.seat = x.seat → z.chainNo = none := by
  unfold endContext
  simp only [hx]
  split
  · exact (Wanes.settleChain (.refl _)).seat_idle standAgain_seat
  · exact fun z hz he => absurd he ((Wanes.settleChain (.refl _)).seat_empty dropCtx_seat z hz)

/-! ### The loss of the Pass (R527) -/

theorem dropCtxs_seat {p : Context → Bool} (hx : x ∈ s.contexts) (hp : p x = true) :
    ∀ z ∈ (dropCtxs s p).contexts, z.seat ≠ x.seat :=
  (foldl_keeps (R := Wanes) (P := fun (a : Context) (t : State) => ∀ z ∈ t.contexts, z.seat ≠ a.seat) Wanes.refl
    (fun _ _ _ h1 h2 => h1.trans h2) (fun _ _ _ hw hs => hw.seat_empty hs)
    (fun b _ _ => ⟨.dropCtx (.refl b), dropCtx_seat⟩) s).2 x (List.mem_filter.mpr ⟨hx, hp⟩)

theorem endContexts_seat {l : List Context} (hl : ∀ x ∈ l, x.chainNo = some n) (hx : x ∈ l) :
    ∀ z ∈ (l.foldl endContext s).contexts, z.seat = x.seat → z.chainNo = none :=
  (foldl_keeps (R := Wanes) (P := fun (a : Context) (t : State) => ∀ z ∈ t.contexts, z.seat = a.seat → z.chainNo = none) Wanes.refl
    (fun _ _ _ h1 h2 => h1.trans h2) (fun _ _ _ hw hs => hw.seat_idle hs)
    (fun b a ha => ⟨.endContext (.refl b), endContext_seat (hl a ha)⟩) s).2 x hx

/-- A chain that the loss of the Pass ends has no context any more. -/
theorem passDownChain_contexts : ∀ z ∈ (passDownChain s n).contexts, z.chainNo ≠ some n := by
  unfold passDownChain
  extract_lets s1 standing
  intro z hz hzn
  obtain ⟨y, hy, hzy, hzc⟩ := (Wanes.endContexts (.refl (dropCtxs s1 fun x => x.chainNo == some n && !x.standing))).contexts z hz
  obtain ⟨hyn, -⟩ := hzc.resolve_left (by simp [hzn])
  obtain ⟨w, hw, hyw, hyc⟩ := (Wanes.dropCtxs (.refl s1)).contexts y hy
  obtain ⟨hwn, -⟩ := hyc.resolve_left (by simp [← hyn, hzn])
  have hwz : w.chainNo = some n := (hwn.symm.trans hyn.symm).trans hzn
  cases hst : w.standing with
  | false => exact dropCtxs_seat (p := fun x => x.chainNo == some n && !x.standing) hw (by simp [hwz, hst]) y hy hyw
  | true =>
    have hall : ∀ x ∈ standing, x.chainNo = some n := fun x hx => by
      have hp := (List.mem_filter.mp hx).2
      simp only [Bool.and_eq_true, beq_iff_eq] at hp
      exact hp.1
    have hnone := endContexts_seat hall (List.mem_filter.mpr ⟨hw, by simp [hwz, hst]⟩) z hz (hzy.trans hyw)
    simp [hzn] at hnone

/-! ### The context step (R518) -/

/-- A context step ends what it has begun, takes the context from its slot, and ends what follows from that. -/
theorem contextStep_ends (s : State) (x : Context) (status type addr detail : Nat) :
    ∃ u, Wanes s u ∧ Wanes (dropCtx u x.half x.core x.slot) (contextStep s x status type addr detail) := by
  unfold contextStep
  extract_lets h fn rec_ s1 s2 s3 s4 s5
  have h1 : Wanes s s1 := .faultRecord (.setSlot (.refl s))
  have h2 : Wanes s s2 := .raiseCause (.inc h1)
  have h3 : Wanes s s3 := .ite (.wr h2) h2
  have h5 : Wanes s4 s5 := by
    dsimp only [s5]
    split
    · exact .settleChain (.refl s4)
    · exact .refl s4
  exact ⟨tellChain s3 x status, .tellChain h3, .ite h5 (.countStorm (.bump h5))⟩

theorem Wanes.contextStep {s₀ : State} (hs : Wanes s₀ s) {status type addr detail : Nat} :
    Wanes s₀ (contextStep s x status type addr detail) := by
  obtain ⟨u, hu, ht⟩ := contextStep_ends s x status type addr detail
  exact hs.trans ((hu.dropCtx).trans ht)

theorem contextStep_seat {status type addr detail : Nat} :
    ∀ z ∈ (contextStep s x status type addr detail).contexts, z.seat ≠ x.seat := by
  obtain ⟨u, -, ht⟩ := contextStep_ends s x status type addr detail
  exact ht.seat_empty dropCtx_seat

/-- A context whose access is refused works for its chain no more (R255, R527). -/
theorem ctxAccessFail_seat {write : Bool} {status a len : Nat} (hx : x.chainNo = some n) :
    ∀ z ∈ (ctxAccessFail s x write status a len).contexts, z.seat = x.seat → z.chainNo ≠ some n := by
  unfold ctxAccessFail
  extract_lets u
  split
  · simp only [hx]
    exact fun z hz _ => passDownChain_contexts z hz
  · exact fun z hz he => absurd he (contextStep_seat z hz)

end

end Sys2Proof
end

section
/-!
What the accesses of a context leave of it: everything but the place of its last access and its accumulators; and of the registers the
count of the combines.
-/

namespace Sys2Proof

open Machine

set_option Elab.async false

/-- A context but for the place of its last access and its accumulators. -/
def Machine.Context.bare (x : Context) : Context := { x with lastOff := 0, acc := [] }

/-- `t` is reached from `s` by accesses and sums of contexts: each stands as it did but for what `Context.bare` leaves out, and no combine
is counted. -/
def Worked (s t : State) : Prop :=
  t.contexts.map Context.bare = s.contexts.map Context.bare ∧ ∀ h i, t.rd (.tile .TD_COMBINE) h i = s.rd (.tile .TD_COMBINE) h i

section
variable {s₀ s t : State}

theorem Worked.refl (s : State) : Worked s s := ⟨rfl, fun _ _ => rfl⟩

theorem Worked.trans {u : State} (h1 : Worked s t) (h2 : Worked t u) : Worked s u :=
  ⟨h2.1.trans h1.1, fun h i => (h2.2 h i).trans (h1.2 h i)⟩

/-- What is neither a context nor a register does not matter. -/
theorem Worked.upd (hs : Worked s₀ s) (e : t.contexts = s.contexts ∧ t.regs = s.regs := by exact ⟨rfl, rfl⟩) : Worked s₀ t :=
  hs.trans ⟨congrArg _ e.1, fun h i => congrArg (·.get ⟨.tile .TD_COMBINE, h, i⟩) e.2⟩

theorem Worked.wr (hs : Worked s₀ s) {f : Fld} {h : Half} {v i : Nat} (hf : f ≠ .tile .TD_COMBINE := by decide) :
    Worked s₀ (s.wr f h v i) :=
  hs.trans ⟨rfl, fun _ _ => (State.rd_wr ..).trans (if_neg fun he => hf he.1.symm)⟩

theorem Worked.inc (hs : Worked s₀ s) {f : Fld} {h : Half} {n i : Nat} (hf : f ≠ .tile .TD_COMBINE := by decide) :
    Worked s₀ (s.inc f h n i) := .wr hs hf

theorem Worked.bump (hs : Worked s₀ s) {h : Half} {g k n : Nat} : Worked s₀ (bump s h g k n) := .inc hs

theorem Worked.of_touches {fs : List Fld} (hs : Worked s₀ s) (ht : Touches s t fs) (hf : Fld.tile .TD_COMBINE ∉ fs := by decide) :
    Worked s₀ t := hs.trans ⟨congrArg _ (ht.part State.contexts), ht.rd hf⟩

theorem Worked.iteOn {α : Type} (g : α → State) {a b : α} {c : Prop} [Decidable c] (ha : Worked s₀ (g a)) (hb : Worked s₀ (g b)) :
    Worked s₀ (g (if c then a else b)) := by
  split <;> assumption

theorem Worked.foldlOn {α β : Type} (g : β → State) {f : β → α → β} {l : List α} {b : β} (hb : Worked s₀ (g b))
    (hf : ∀ b a, Worked s₀ (g b) → Worked s₀ (g (f b a))) : Worked s₀ (g (l.foldl f b)) :=
  List.foldlRecOn l f hb fun b hb a _ => hf b a hb

theorem Worked.editCtx (hs : Worked s₀ s) {h : Half} {core slot : Nat} {f : Context → Context}
    (hf : ∀ c, (f c).bare = c.bare := by exact fun _ => rfl) : Worked s₀ (setCtx s h core slot f) := by
  refine hs.trans ⟨?_, fun _ _ => rfl⟩
  show (s.contexts.map _).map _ = _
  rw [List.map_map]
  refine List.map_congr_left fun c _ => ?_
  show Context.bare (if _ then _ else c) = c.bare
  split
  · exact hf c
  · rfl

/-- The context in a slot is still in it. -/
theorem Worked.ctxAt (hw : Worked s t) {h : Half} {core slot : Nat} {x : Context} (hx : ctxAt s h core slot = some x) :
    ∃ y, ctxAt t h core slot = some y ∧ y.bare = x.bare := by
  have hfind (u : State) : (Machine.ctxAt u h core slot).map Context.bare =
      (u.contexts.map Context.bare).find? fun c => c.half == h && c.core == core && c.slot == slot := by
    rw [List.find?_map]
    rfl
  have hb := (hfind t).trans ((congrArg _ hw.1).trans (hfind s).symm)
  rw [hx] at hb
  exact Option.map_eq_some_iff.mp hb

/-! ### Accesses by device address and to the window -/

section
variable (hs : Worked s₀ s)
include hs

theorem Worked.histSample {h : Half} {src party : Nat} {v : Int} : Worked s₀ (histSample s h src party v) :=
  .foldlOn id hs fun t k ht => .iteOn id (.of_touches ht ((Touches.refl t histFields).histAdd (fun _ x => x) h k v)) ht

theorem Worked.drawFree : Worked s₀ (drawFree s) := .upd hs

theorem Worked.hostLatency {h : Half} {a : Nat} : Worked s₀ (hostLatency s h a) := .iteOn id (.drawFree (.histSample hs)) hs

theorem Worked.readAt {w : Who} {a len : Nat} : Worked s₀ (readAt s w a len).2.1 :=
  .iteOn (fun q : Nat × State × List Byte => q.2.1) (.hostLatency (.of_touches hs (touches_countBytes ..)))
    (.of_touches hs (touches_recordRefusal ..))

theorem Worked.writeAt {w : Who} {a : Nat} {data : List Byte} : Worked s₀ (writeAt s w a data).2 :=
  .iteOn Prod.snd (.upd (hs.of_touches (touches_countBytes s w true a data.length))) (.of_touches hs (touches_recordRefusal ..))

theorem Worked.cacheRead {x : Context} {a len : Nat} : Worked s₀ (cacheRead s x a len) :=
  .of_touches (.upd hs) (CacheMoves.cacheRead s x a len).touches

theorem Worked.countNum {x : Context} {sat nan : Nat} : Worked s₀ (countNum s x sat nan) := .bump (.inc (.bump (.inc hs)))

end

section
variable {r : Run} {x : Context} (hr : Worked s₀ r.s)
include hr

theorem Worked.runRead {a len : Nat} : Worked s₀ (r.read x a len).1.s :=
  .iteOn (fun q : Run × List Byte => q.1.s) hr (.iteOn (fun q : Run × List Byte => q.1.s) (.cacheRead hr)
    (.iteOn (fun q : Run × List Byte => q.1.s) (.readAt hr) (.readAt hr)))

theorem Worked.runWrite {a : Nat} {b : List Byte} : Worked s₀ (r.write x a b).s :=
  .iteOn Run.s hr (.iteOn Run.s (.writeAt hr) (.writeAt hr))

theorem Worked.runMap {f : State → State} (hf : ∀ u, Worked s₀ u → Worked s₀ (f u)) : Worked s₀ (r.map f).s := .iteOn Run.s hr (hf _ hr)

theorem Worked.runWinRead {o len : Nat} : Worked s₀ (r.winRead x o len).1.s :=
  .foldlOn (fun q : Run × List Byte => q.1.s) hr fun _ _ hq => .runRead (.iteOn Run.s hq (.editCtx hq))

theorem Worked.runWinWrite {o : Nat} {b : List Byte} : Worked s₀ (r.winWrite x o b).s :=
  .foldlOn Run.s hr fun _ _ hq => .runWrite (.iteOn Run.s hq (.editCtx hq))

theorem Worked.runGet {p : Place} {a len : Nat} : Worked s₀ (r.get x p a len).1.s := by
  cases p with
  | memory => exact .runRead hr
  | window => exact .runWinRead hr

theorem Worked.runPut {p : Place} {a : Nat} {b : List Byte} : Worked s₀ (r.put x p a b).s := by
  cases p with
  | memory => exact .runWrite hr
  | window => exact .runWinWrite hr

/-! ### Rows of operands -/

theorem Worked.runRow {m : Mat} {i c n : Nat} : Worked s₀ (r.row x m i c n).1.s :=
  .iteOn (fun q : Run × List Byte => q.1.s) (.runGet (.runGet hr)) (.runGet hr)

theorem Worked.runRowF32 {m : Mat} {i c n : Nat} : Worked s₀ (r.rowF32 x m i c n).1.s := .runGet hr

theorem Worked.runPutRow {m : Mat} {i c : Nat} {v : Converted} : Worked s₀ (r.putRow x m i c v).s :=
  .iteOn Run.s (.runPut (.runPut hr)) (.runPut hr)

theorem Worked.runRows {m : Mat} {i c k n : Nat} : Worked s₀ (r.rows x m i c k n).1.s := by
  induction n generalizing r i with
  | zero => exact hr
  | succ n ih => exact ih (.runRow hr)

/-! ### Loads, passes and combines -/

theorem Worked.loadRow {src dst : Mat} {m c k row : Nat} : Worked s₀ (loadRow x src dst m c k row r).s := .runWinWrite (.runGet hr)

theorem Worked.loadScales {src dst : Mat} {m c k row : Nat} : Worked s₀ (loadScales x src dst m c k row r).s := .runWinWrite (.runGet hr)

omit x in
theorem Worked.jobLoad {j : Job} {isB : Bool} {n : Nat} : Worked s₀ (j.load isB n r).s := by
  unfold Machine.Job.load
  refine .iteOn Run.s (.runWinWrite (.runRead hr)) ?_
  extract_lets k d dst m c rows len src e
  have he : Worked s₀ e.s := .foldlOn Run.s hr fun _ _ hq => .loadRow hq
  exact .iteOn Run.s (.foldlOn Run.s he fun _ _ hq => .loadScales hq) he

omit x in
theorem Worked.tileRows {j : Job} {isB : Bool} {q : TileAt} : Worked s₀ (j.tileRows isB q r).1.s :=
  .iteOn (fun q : Run × List Groups => q.1.s) (.runRows hr) (.runRows hr)

omit x in
theorem Worked.passWindow {j : Job} {q : TileAt} {b : Blk} {as bs : List Groups} : Worked s₀ (passWindow j q b as bs r).s :=
  .foldlOn Run.s hr fun _ _ ht => .runWinWrite (.iteOn (fun q : Run × List Nat => q.1.s) ht (.runWinRead ht))

omit x in
theorem Worked.finishRow {j : Job} {b : Blk} {alpha i : Nat} {sums : List Nat} : Worked s₀ (finishRow j b alpha i sums r).s := by
  unfold Machine.finishRow
  extract_lets c v1 old v2 v q1 q2
  have h1 : Worked s₀ q1.s := .runMap (.iteOn (fun q : Run × List Nat => q.1.s) (.runRowF32 hr) hr) fun _ hs => .countNum hs
  exact .runPutRow (.iteOn Run.s (.runPutRow h1) h1)

omit x in
theorem Worked.combineRow {j : Job} {b : Blk} {i n : Nat} : Worked s₀ (combineRow j b i n r).1.s := by
  induction n with
  | zero => exact .runRowF32 hr
  | succ n ih => exact .runRowF32 ih

end

theorem Worked.urgentPass (hs : Worked s₀ s) {x : Context} : Worked s₀ (urgentPass s x) := by
  unfold Machine.urgentPass
  split
  · exact hs
  · exact .wr (.histSample (.upd hs))

/-! ### A run with no access refused -/

theorem Machine.Run.fail_of_map {r : Run} {f : State → State} (hf : (r.map f).fail = none) : r.fail = none := by
  unfold Run.map at hf
  split at hf
  next hs => simp [hf] at hs
  next => exact hf

theorem Machine.Run.map_of_ok {r : Run} (hr : r.fail = none) (f : State → State) : r.map f = { r with s := f r.s } := by
  simp [Run.map, hr]

theorem Machine.Run.done_of_ok {r : Run} (hr : r.fail = none) (x : Context) : r.done x = r.s := by
  simp [Run.done, hr]

theorem Machine.Run.ctx_done {r : Run} (hr : r.fail = none) (x : Context) (f : Context → Context) :
    (r.ctx x f).done x = setCtx r.s x.half x.core x.slot f := by
  unfold Run.ctx
  rw [Run.map_of_ok hr]
  exact Run.done_of_ok (r := { r with s := setCtx r.s x.half x.core x.slot f }) hr x

/-- What a run does to its context, once its accesses have gone through. -/
theorem Worked.ctxAt_edit (hw : Worked s t) {x : Context} (hx : Machine.ctxAt s x.half x.core x.slot = some x) {f : Context → Context}
    (hf : ∀ c, (f c).seat = c.seat := by exact fun _ => rfl) :
    ∃ y, y.bare = x.bare ∧ Machine.ctxAt (setCtx t x.half x.core x.slot f) x.half x.core x.slot = some (f y) := by
  obtain ⟨y, hy, hb⟩ := hw.ctxAt hx
  exact ⟨y, hb, (ctxAt_setCtx f hf).trans (congrArg _ hy)⟩

end

end Sys2Proof
end

section
/-!
Contexts at work: O38.
-/

namespace Sys2Proof

open Machine

set_option Elab.async false

/-! ### A context's commands -/

section
variable {s : State} {h : Half} {core n : Nat} {x : Context} {c : Chain}

theorem chainOf_holds (hc : chainOf s x = some c) : c ∈ s.chains ∧ x.chainNo = some c.readNo := by
  have hp := List.find?_some (p := fun d : Chain => x.chainNo == some d.readNo) hc
  exact ⟨List.mem_of_find?_eq_some hc, by simpa using hp⟩

/-- A context changed in its slot: it stands there changed, and nothing else of the state differs. -/
theorem setCtx_only (hx : ctxAt s h core n = some x) (f : Context → Context) (hf : ∀ c, (f c).seat = c.seat := by exact fun _ => rfl) :
    ctxAt (setCtx s x.half x.core x.slot f) h core n = some (f x) ∧
      { setCtx s x.half x.core x.slot f with contexts := s.contexts } = s := by
  obtain ⟨-, rfl, rfl, rfl⟩ := ctxAt_holds hx
  exact ⟨(ctxAt_setCtx f hf).trans (congrArg _ hx), rfl⟩

/-- What a context works on names the context and its chain. -/
theorem jobOf_holds {j : Job} (hj : jobOf s x = some j) (hc : chainOf s x = some c) : j.x = x ∧ j.c = c ∧ x.idle = false := by
  unfold jobOf at hj
  rw [hc] at hj
  split at hj
  next d i hd _ hidle =>
    obtain rfl := Option.some.inj hd
    obtain ⟨q, -, rfl⟩ := Option.map_eq_some_iff.mp hj
    refine ⟨?_, ?_, hidle⟩
    · dsimp only
      split <;> rfl
    · dsimp only
      split <;> rfl
  next => cases hj

/-! ### The work counter (R243, R244) -/

theorem workFetch_of_due (hl : ctxLive s x = true) (hy : dynamic c x = true) (hn : x.next = none) (hf : x.fetching = false) :
    workFetch s c x = setCtx s x.half x.core x.slot fun d => { d with fetching := true } := if_pos ⟨hl, hy, hn, hf⟩

theorem endIfDone_busy {y : Context} (hy : ctxAt s x.half x.core x.slot = some y) (hi : y.idle = false) : endIfDone s c x = s := by
  simp [endIfDone, hy, hi]

/-- The state in which the counter has answered: the index counted, and the context with it. -/
def indexTaken (s : State) (c : Chain) (x : Context) (i : Nat) : State :=
  setCtx (mapChains s fun d => if d.readNo = c.readNo ∧ d.stop = false then { d with work := d.work + 1 } else d) x.half x.core x.slot
    fun d => { d with fetching := false, next := some i }

theorem workReturn_eq (hf : x.fetching = true) (hp : x.half = c.half ∨ s.lanesUp = true) (hs : c.stop = false) :
    ∃ u, u.contexts = (indexTaken s c x c.work).contexts ∧ u.chains = (indexTaken s c x c.work).chains ∧
      workReturn s c x = endIfDone u c x := by
  unfold workReturn
  rw [if_neg (by simp [hf]), if_neg (by rintro ⟨hne, hl⟩; exact hp.elim hne (by simp [hl])), hs]
  refine ⟨_, ?_, ?_, rfl⟩
  · split <;> rfl
  · split <;> rfl

theorem workReturn_counts (hc : chainOf s x = some c) (hf : x.fetching = true) (hp : x.half = c.half ∨ s.lanesUp = true)
    (hs : c.stop = false) : ∃ d ∈ (workReturn s c x).chains, d.readNo = c.readNo ∧ d.work = c.work + 1 := by
  obtain ⟨u, -, hu, he⟩ := workReturn_eq (s := s) hf hp hs
  have hm : { c with work := c.work + 1 } ∈ u.chains :=
    hu ▸ List.mem_map.mpr ⟨c, (chainOf_holds hc).1, if_pos ⟨rfl, hs⟩⟩
  obtain ⟨d, hd, hno, hw, -⟩ := (Wanes.endIfDone (c := c) (x := x) (.refl u)).chains _ hm
  exact ⟨d, he ▸ hd, hno, hw⟩

theorem workReturn_busy (hx : ctxAt s h core n = some x) (hf : x.fetching = true) (hp : x.half = c.half ∨ s.lanesUp = true)
    (hs : c.stop = false) (hi : x.idle = false) :
    ctxAt (workReturn s c x) h core n = some { x with fetching := false, next := some c.work } := by
  obtain ⟨-, rfl, rfl, rfl⟩ := ctxAt_holds hx
  obtain ⟨u, hu, -, he⟩ := workReturn_eq (s := s) hf hp hs
  have hx' : ctxAt (mapChains s fun d => if d.readNo = c.readNo ∧ d.stop = false then { d with work := d.work + 1 } else d)
      x.half x.core x.slot = some x := hx
  have hat : ctxAt u x.half x.core x.slot = some { x with fetching := false, next := some c.work } := by
    unfold ctxAt
    rw [hu]
    exact (setCtx_only hx' fun d => { d with fetching := false, next := some c.work }).1
  rw [he, endIfDone_busy hat hi]
  exact hat

theorem workReturn_passDown (hc : chainOf s x = some c) (hf : x.fetching = true) (hp : x.half ≠ c.half) (hl : s.lanesUp = false) :
    ∃ d ∈ (workReturn s c x).chains, d.readNo = c.readNo ∧ d.done = true := by
  unfold workReturn
  rw [if_neg (by simp [hf]), if_pos ⟨hp, hl⟩]
  unfold passDownChain
  extract_lets s1 standing
  have hm : { c.finish ST_PASS_DOWN with stop := true } ∈ s1.chains := List.mem_map.mpr ⟨c, (chainOf_holds hc).1, if_pos rfl⟩
  have hw : Wanes s1 (standing.foldl endContext (dropCtxs s1 fun x => x.chainNo == some c.readNo && !x.standing)) :=
    .endContexts (.dropCtxs (.refl s1))
  obtain ⟨d, hd, hno, -, hdone⟩ := hw.chains _ hm
  exact ⟨d, hd, hno.trans (outlasts_finish c _).1, hdone (finish_done c _)⟩

/-- The sums of a pass, before the pass is counted. -/
def passSums (j : Job) (r : Run) : Run :=
  let q := j.tileAt j.x.pass
  let b := j.blockAt j.x.pass
  let ra := j.tileRows false q r
  let rb := j.tileRows true q ra.1
  if j.inStore then rb.1.ctx j.x fun c => { c with acc := passStore j q b ra.2 rb.2 c.acc } else passWindow j q b ra.2 rb.2 rb.1

theorem jobPass_eq (j : Job) (r : Run) : j.pass r = (passSums j r).ctx j.x fun c =>
    { c with pass := c.pass + 1, inArray := c.inArray + 1, vec := (c.pass + 1) % j.blockPasses == 0, vrow := 0 } := rfl

theorem Worked.passSums {s₀ : State} {j : Job} {r : Run} (hr : Worked s₀ r.s) : Worked s₀ (passSums j r).s :=
  have hrb {isA isB : Bool} {q : TileAt} : Worked s₀ (j.tileRows isB q (j.tileRows isA q r).1).1.s := .tileRows (.tileRows hr)
  .iteOn Run.s (.runMap hrb fun _ hs => .editCtx hs) (.passWindow hrb)

/-! ### Loads (R236) -/

section
variable {isB : Bool} {j : Job} (hx : ctxAt s h core n = some x) (hj : jobOf s x = some j)
include hx hj

theorem loadIssue_issues {k : Nat} (hk : j.nextLoad isB = some k) (hl : ctxLive s x = true) :
    ctxAt (loadIssue s x isB) h core n = some { x with loads := x.loads ++ [loadCode isB k] } ∧
      { loadIssue s x isB with contexts := s.contexts } = s := by
  have he : loadIssue s x isB = setCtx s x.half x.core x.slot fun d => { d with loads := d.loads ++ [loadCode isB k] } := by
    simp [loadIssue, hj, hk, hl]
  rw [he]
  exact setCtx_only hx _

theorem loadLand_lands {k : Nat} (hk : x.loads.find? (fun q => q % 2 == bit isB) = some k)
    (hok : (j.load isB (k / 2) ⟨s, none⟩).fail = none) :
    ∃ y, ctxAt (loadLand s x isB) h core n = some y ∧ k ∈ y.landed ∧ k ∉ y.loads := by
  obtain ⟨-, rfl, rfl, rfl⟩ := ctxAt_holds hx
  unfold loadLand
  simp only [hj, hk]
  rw [Run.ctx_done hok]
  have hw : Worked s (j.load isB (k / 2) ⟨s, none⟩).s := .jobLoad (.refl s)
  obtain ⟨y, -, hy⟩ := hw.ctxAt_edit hx (f := fun d => { d with
    loads := d.loads.filter fun q => q != k,
    landed := (d.landed.filter fun q => q == haloCode || q % 2 != bit isB || k ≤ q + 2) ++ [k] })
  exact ⟨_, hy, by simp, by simp⟩

/-! ### Passes (R208, R214) -/

theorem tilePass_enters (hc : chainOf s x = some c) (ha : onArray s x = true) (hv : x.vec = false) (hb : x.comb = false)
    (hp : x.pass < j.t.passes) (hr : j.ready = true) (hok : (j.pass ⟨urgentPass s x, none⟩).fail = none) :
    ∃ y, ctxAt (tilePass s x) h core n = some y ∧ y.pass = x.pass + 1 ∧ y.inArray = x.inArray + 1 := by
  obtain ⟨-, rfl, rfl, rfl⟩ := ctxAt_holds hx
  obtain ⟨hjx, -⟩ := jobOf_holds hj hc
  have he : tilePass s x = (j.pass ⟨urgentPass s x, none⟩).done x := by
    simp [tilePass, hj, ha, hv, hb, hp, hr]
  have hw : Worked s (passSums j ⟨urgentPass s x, none⟩).s := .passSums (.urgentPass (.refl s))
  have hsum : (passSums j ⟨urgentPass s x, none⟩).fail = none := Run.fail_of_map hok
  rw [he, jobPass_eq, hjx, Run.ctx_done hsum]
  obtain ⟨y, hy, hat⟩ := hw.ctxAt_edit hx (f := fun c => { c with
    pass := c.pass + 1, inArray := c.inArray + 1, vec := (c.pass + 1) % j.blockPasses == 0, vrow := 0 })
  have hpass : y.bare.pass = x.bare.pass := congrArg _ hy
  have hin : y.bare.inArray = x.bare.inArray := congrArg _ hy
  exact ⟨_, hat, congrArg (· + 1) hpass, congrArg (· + 1) hin⟩

/-! ### Combines (R247) -/

omit hx in
theorem combineStep_counts (hc : chainOf s x = some c) (hb : x.comb = true) (ha : onArray s x = true)
    (hok : (combineBlock j (j.blockAt (x.pass - 1)) ⟨s, none⟩).fail = none) :
    (combineStep s x).rd (.tile .TD_COMBINE) x.half (x.core / 64) =
      min (s.rd (.tile .TD_COMBINE) x.half (x.core / 64) + 1) (2 ^ 32 - 1) := by
  obtain ⟨hjx, -⟩ := jobOf_holds hj hc
  have hm := Run.fail_of_map hok
  have he : combineStep s x = phaseEnd (setCtx (combineBlock j (j.blockAt (x.pass - 1)) ⟨s, none⟩).s x.half x.core x.slot
      fun d => { d with comb := false, boundaryMt := s.mt x.half }) j := by
    simp [combineStep, hj, hb, ha, Run.ctx, Run.map_of_ok hok, hok]
  have hw : Wanes (combineBlock j (j.blockAt (x.pass - 1)) ⟨s, none⟩).s (combineStep s x) :=
    he ▸ .phaseEnd (.editCtx (.refl _))
  rw [hw.counts _ (by decide)]
  unfold combineBlock at hm ⊢
  dsimp only at hm ⊢
  rw [Run.map_of_ok hm, hjx]
  have hrows : Worked s _ := .foldlOn Run.s (b := ⟨s, none⟩) (l := List.range (j.blockAt (x.pass - 1)).rows)
    (f := fun t i => finishRow j (j.blockAt (x.pass - 1)) (alphaOf j.c) i
      (combineRow j (j.blockAt (x.pass - 1)) i (j.t.splitK - 1) t).2 (combineRow j (j.blockAt (x.pass - 1)) i (j.t.splitK - 1) t).1)
    (.refl s) fun _ _ ht => .finishRow (.combineRow ht)
  rw [State.rd_inc_self, hrows.2]
  rfl

end

end

end Sys2Proof
end

section
/-!
The choice of the array; halos and phase 2; then O38.
-/

namespace Sys2Proof

open Machine

set_option Elab.async false

/-! ### The array moves (R226, R332) -/

section
variable {s t : State} {h : Half} {core k j code : Nat} {x y : Context}

theorem slotFld_ne (hk : k < 2) : slotFld (1 - k) ≠ slotFld k := by
  interval_cases k <;> decide

theorem slotState_setSlot (hc : code < 16) : slotState (setSlot s h core k code) h core k = code := by
  have hw : code % 2 ^ (slotFld k).width = code := by
    rw [show (slotFld k).width = 4 by unfold slotFld; split <;> decide]
    exact Nat.mod_eq_of_lt hc
  have hne : slotFld k ≠ .core .CORE_STATUS_ACTIVE := by unfold slotFld; split <;> decide
  unfold slotState setSlot
  split <;> simp [hw, hne]

theorem slotState_setSlot_ne (hj : slotFld j ≠ slotFld k) : slotState (setSlot s h core k code) h core j = slotState s h core j := by
  have hne : slotFld j ≠ .core .CORE_STATUS_ACTIVE := by unfold slotFld; split <;> decide
  unfold slotState setSlot
  split <;> simp [hj, hne]

/-- The other slot's context suspended, if it runs. -/
def otherSuspended (s : State) (h : Half) (core k : Nat) : State :=
  if slotState s h core (1 - k) = 2 then setSlot s h core (1 - k) 3 else s

theorem slotState_toArray_eq : slotState (toArray s h core k) h core j = slotState (setSlot (otherSuspended s h core k) h core k 2) h core j := by
  have h1 : slotFld j ≠ .core .SWITCH_CNT := by unfold slotFld; split <;> decide
  have h2 : slotFld j ≠ .tel .LIVE_SLOT := by unfold slotFld; split <;> decide
  show ((_ : State).inc _ h 1 _).rd (slotFld j) h core = _
  rw [State.rd_inc, if_neg fun he => h2 he.1, State.rd_inc, if_neg fun he => h1 he.1]
  rfl

theorem slotState_toArray : slotState (toArray s h core k) h core k = 2 :=
  slotState_toArray_eq.trans (slotState_setSlot (by decide))

theorem slotState_toArray_other (hk : k < 2) (hr : slotState s h core (1 - k) = 2) :
    slotState (toArray s h core k) h core (1 - k) = 3 := by
  rw [slotState_toArray_eq, slotState_setSlot_ne (slotFld_ne hk), otherSuspended, if_pos hr]
  exact slotState_setSlot (by decide)

theorem setSlot_contexts : (setSlot s h core k code).contexts = s.contexts := by
  unfold setSlot
  split <;> rfl

theorem toArray_contexts : (toArray s h core k).contexts = (setCtx s h core k fun c => { c with boundaryMt := s.mt h }).contexts := by
  have hs : (setSlot (otherSuspended s h core k) h core k 2).contexts = s.contexts := by
    rw [setSlot_contexts, otherSuspended]
    split
    · exact setSlot_contexts
    · rfl
  exact congrArg (List.map _) hs

/-- Fields that the move of the array to a slot writes. -/
def arrayFields : List Fld :=
  [.core .CORE_STATUS_SLOT0, .core .CORE_STATUS_SLOT1, .core .CORE_STATUS_ACTIVE, .core .SWITCH_CNT, .tel .LIVE_SLOT]

theorem Touches.setSlot {fs : List Fld} (ht : Touches s t fs) (hf : ∀ f ∈ arrayFields, f ∈ fs) :
    Touches s (setSlot t h core k code) fs := by
  have hw := ht.wr (f := slotFld k) (hf _ (by unfold slotFld; split <;> decide)) h code core
  exact .ite (hw.wr (hf _ (by decide)) h k core) hw

theorem Touches.withContexts {fs : List Fld} (ht : Touches s t fs) (l : List Context) :
    Touches { s with contexts := l } { t with contexts := l } fs :=
  ⟨ht.1, congrArg (fun u : State => { u with contexts := l }) ht.2⟩

theorem touches_toArray {fs : List Fld} (hf : ∀ f ∈ arrayFields, f ∈ fs) :
    Touches { s with contexts := (toArray s h core k).contexts } (toArray s h core k) fs := by
  have h0 : Touches s (otherSuspended s h core k) fs := .ite ((Touches.refl s fs).setSlot hf) (.refl s fs)
  exact (((h0.setSlot (code := 2) (k := k) (core := core) (h := h) hf).inc (hf (.core .SWITCH_CNT) (by decide)) h 1 core).bump
    (hf _ (by decide)) h 0 5 1).withContexts _

theorem Touches.countPreempt {fs : List Fld} (ht : Touches s t fs) (hp : .sched .PREEMPT_CNT ∈ fs) (hl : .tel .LIVE_SLOT ∈ fs) :
    Touches s (countPreempt t h) fs := (ht.inc hp h 1 0).bump hl h 0 4 1

theorem slotState_countPreempt : slotState (countPreempt s h) h core k = slotState s h core k := by
  have h1 : slotFld k ≠ .sched .PREEMPT_CNT := by unfold slotFld; split <;> decide
  have h2 : slotFld k ≠ .tel .LIVE_SLOT := by unfold slotFld; split <;> decide
  show ((_ : State).inc _ h 1 _).rd (slotFld k) h core = _
  rw [State.rd_inc, if_neg fun he => h2 he.1, State.rd_inc, if_neg fun he => h1 he.1]
  rfl

/-! ### The choice between the two slots (R332) -/

/-- The choice leaves the state, or moves the array, with a preemption counted or not. -/
theorem resched_cases : resched s h core = s ∨
    ∃ j, resched s h core = toArray s h core j ∨ resched s h core = countPreempt (toArray s h core j) h := by
  unfold resched
  extract_lets +onlyGivenNames held cand
  split
  · split
    · exact .inl rfl
    · split
      · exact .inl rfl
      next y _ =>
        split
        · exact .inr ⟨y.slot, .inl rfl⟩
        · split
          · exact .inr ⟨y.slot, .inr rfl⟩
          · exact .inl rfl
  · clear_value cand
    split
    · exact .inl rfl
    next y => exact .inr ⟨y.slot, .inl rfl⟩
    next y z l =>
      extract_lets last
      split
      · exact .inr ⟨z.slot, .inl rfl⟩
      · exact .inr ⟨y.slot, .inl rfl⟩

/-- A core whose one context is LOADED or SUSPENDED and may run gives it the array. -/
theorem resched_alone {slot : Fin 2} (hx : ctxAt s h core slot.val = some x) (ho : ctxAt s h core (1 - slot.val) = none)
    (hk : slotState s h core slot.val ≠ 2) (hr : runnable s x = true) : resched s h core = toArray s h core slot.val := by
  obtain ⟨-, -, -, hs⟩ := ctxAt_holds hx
  unfold resched
  match slot with
  | 0 => simp_all
  | 1 => simp_all

/-- Two contexts that may run, of which one is on the array at a boundary: the other displaces it with a lower class code. -/
theorem resched_pair {slot : Fin 2} (hx : ctxAt s h core slot.val = some x) (hy : ctxAt s h core (1 - slot.val) = some y)
    (hk : slotState s h core slot.val ≠ 2) (hr : runnable s x = true) (hy2 : slotState s h core (1 - slot.val) = 2)
    (hb : y.inArray = 0) (hyr : runnable s y = true) :
    resched s h core = if ctxClass s x < ctxClass s y then countPreempt (toArray s h core slot.val) h else s := by
  obtain ⟨-, -, -, hs⟩ := ctxAt_holds hx
  obtain ⟨-, -, -, hs'⟩ := ctxAt_holds hy
  unfold resched
  match slot with
  | 0 => simp_all
  | 1 => simp_all

theorem countPreempt_contexts : (countPreempt s h).contexts = s.contexts := rfl

theorem resched_landed : ∀ z ∈ (resched s h core).contexts, ∃ y ∈ s.contexts, z.seat = y.seat ∧ z.landed = y.landed := by
  have hmove {j : Nat} : ∀ z ∈ (toArray s h core j).contexts, ∃ y ∈ s.contexts, z.seat = y.seat ∧ z.landed = y.landed := by
    rw [toArray_contexts]
    intro z hz
    obtain ⟨y, hy, rfl⟩ := List.mem_map.mp hz
    refine ⟨y, hy, ?_⟩
    split <;> exact ⟨rfl, rfl⟩
  obtain he | ⟨j, he | he⟩ := resched_cases (s := s) (h := h) (core := core)
  · exact fun z hz => ⟨z, he ▸ hz, rfl, rfl⟩
  · exact he ▸ hmove
  · rw [he, countPreempt_contexts]
    exact hmove

theorem startIdle_landed : ∀ z ∈ (startIdle s h core).contexts, ∃ y ∈ s.contexts, z.seat = y.seat ∧ z.landed = y.landed := by
  unfold startIdle
  split
  · exact fun z hz => ⟨z, hz, rfl, rfl⟩
  · exact resched_landed

theorem ctxWake_landed : ∀ z ∈ (ctxWake s x).contexts, ∃ y ∈ s.contexts, z.seat = y.seat ∧ z.landed = y.landed := by
  intro z hz
  obtain ⟨y, hy, he, hl⟩ := startIdle_landed z hz
  obtain ⟨w, hw, rfl⟩ := List.mem_map.mp hy
  refine ⟨w, hw, he.trans ?_, hl.trans ?_⟩ <;> split <;> rfl

/-! ### Halos (R249) -/

/-- A context whose access is refused stands in its slot for its chain no more. -/
theorem done_fails {r : Run} {n : Nat} (hw : Worked s r.s) (hx : ctxAt s x.half x.core x.slot = some x) (hn : x.chainNo = some n)
    (hf : r.fail ≠ none) : ∀ z ∈ (r.done x).contexts, z.seat = x.seat → z.chainNo ≠ some n := by
  obtain ⟨f, hf⟩ := Option.ne_none_iff_exists'.mp hf
  obtain ⟨y, hy, hb⟩ := hw.ctxAt hx
  have hseat : y.seat = x.seat := show y.bare.seat = x.bare.seat from congrArg _ hb
  have hno : y.chainNo = x.chainNo := show y.bare.chainNo = x.bare.chainNo from congrArg _ hb
  unfold Run.done
  simp only [hf, hy, Option.getD_some]
  exact fun z hz he => ctxAccessFail_seat (hno.trans hn) z hz (he.trans hseat.symm)

/-- The bytes of a halo read from its source. -/
def haloRead (s : State) (x : Context) (j : Job) (src : Option Context) : Run × List Byte :=
  match src with
  | some y => (winAll s y (j.buffer false 0).base j.haloBytes).foldl (fun q p =>
      let d := q.1.read x (scratchBase y.coreNo + p.1) p.2.2
      (d.1, q.2 ++ d.2)) ((⟨s, none⟩ : Run), [])
  | none =>
    let d := (⟨s, none⟩ : Run).read x j.haloAt.1 j.haloBytes
    (d.1.map fun t => t.inc (.tile .TD_HALO_MEM) x.half 1 (x.core / 64), d.2)

theorem Worked.haloRead {j : Job} {src : Option Context} : Worked s (haloRead s x j src).1.s := by
  cases src with
  | none => exact .runMap (.runRead (.refl s)) fun _ hu => .inc hu
  | some y => exact .foldlOn (fun q : Run × List Byte => q.1.s) (.refl s) fun _ _ hq => .runRead hq

theorem haloTake_eq (ht : haloTake s x = some t) : ∃ r : Run, Worked s r.s ∧
    let w := r.ctx x fun d => { d with landed := d.landed ++ [haloCode] }
    t = if x.waiting ∧ w.fail = none then ctxWake w.s x else w.done x := by
  unfold haloTake at ht
  split at ht
  · cases ht
  next j _ =>
    split at ht
    · cases ht
    · split at ht
      · cases ht
      next src _ =>
        refine ⟨(haloRead s x j src).1.winWrite x j.haloAt.2 (haloRead s x j src).2, .runWinWrite .haloRead, ?_⟩
        cases src with
        | none => exact (Option.some.inj ht).symm
        | some y => exact (Option.some.inj ht).symm

theorem haloTake_lands {n : Nat} (ht : haloTake s x = some t) (hx : ctxAt s x.half x.core x.slot = some x) (hn : x.chainNo = some n) :
    ∀ z ∈ t.contexts, z.seat = x.seat → z.chainNo = some n → haloCode ∈ z.landed := by
  obtain ⟨r, hw, he⟩ := haloTake_eq ht
  dsimp only at he
  cases hr : r.fail with
  | some f =>
    have hctx : r.ctx x (fun d => { d with landed := d.landed ++ [haloCode] }) = r := by simp [Run.ctx, Run.map, hr]
    rw [hctx, if_neg (by simp [hr])] at he
    subst he
    exact fun z hz hs hc => absurd hc (done_fails hw hx hn (by simp [hr]) z hz hs)
  | none =>
    have hset : ∀ z ∈ (setCtx r.s x.half x.core x.slot fun d => { d with landed := d.landed ++ [haloCode] }).contexts,
        z.seat = x.seat → haloCode ∈ z.landed := by
      intro z hz hs
      obtain ⟨y, -, rfl⟩ := List.mem_map.mp hz
      by_cases hp : y.half = x.half ∧ y.core = x.core ∧ y.slot = x.slot
      · simp [hp]
      · rw [if_neg hp] at hs
        exact absurd (seat_eq_iff.mp hs) hp
    have hctx : r.ctx x (fun d => { d with landed := d.landed ++ [haloCode] }) =
        ⟨setCtx r.s x.half x.core x.slot fun d => { d with landed := d.landed ++ [haloCode] }, none⟩ := by
      rw [Run.ctx, Run.map_of_ok hr, hr]
    rw [hctx] at he
    subst he
    intro z hz hs _
    split at hz
    · obtain ⟨y, hy, hyz, hl⟩ := ctxWake_landed z hz
      exact hl ▸ hset y hy (hyz.symm.trans hs)
    · exact hset z hz hs

/-! ### Phase 2 of an item (R252) -/

section
variable {n : Nat} {c : Chain} {i : Job}

theorem phase2Start_eq (hj : jobOf s x = some i) (hc : chainOf s x = some c) (hf : isFused c = true) (h2 : i.phase2 = false)
    (hp : i.t.passes ≤ x.pass) (hv : x.vec = false) (ha : x.inArray = 0) :
    phase2Start s x = setCtx s x.half x.core x.slot fun d => { d with phase2 := true, pass := 0, loads := [], landed := [], acc := [] } := by
  obtain ⟨-, hjc, -⟩ := jobOf_holds hj hc
  simp [phase2Start, hj, hjc, hf, h2, hp, hv, ha]

/-! ### Switches (R226, R332) -/

/-- A boundary of the other slot's context has nothing to drain. -/
theorem otherDrained_idle (ho : ∀ y, ctxAt s x.half x.core (1 - x.slot) = some y → y.inArray = 0) : otherDrained s x = s := by
  unfold otherDrained
  split
  next y hy => simp [ho y hy]
  · rfl

theorem switchTo_eq (ho : ∀ y, ctxAt s x.half x.core (1 - x.slot) = some y → y.inArray = 0) :
    switchTo s x = if slotState (resched s x.half x.core) x.half x.core x.slot = 2 then some (resched s x.half x.core) else none := by
  simp [switchTo, otherDrained_idle ho]

end

/-- A switch of a context's command, as its own function answers. -/
theorem exec_slotSwitch {slot : Fin 2} {c : Chain} (hx : ctxAt s h core slot.val = some x) (hc : chainOf s x = some c) (hd : c.done = false) :
    exec (.slotSwitch h core slot) s = .next (if s.dispatchOff h then s else (switchTo s x).getD s) :=
  onContext_works (f := fun _ x => if s.dispatchOff h then s else (switchTo s x).getD s) hx hc hd

section
variable {slot : Fin 2} {c : Chain} (hx : ctxAt s h core slot.val = some x) (hc : chainOf s x = some c) (hd : c.done = false)
  (hoff : s.dispatchOff h = false) (hk : slotState s h core slot.val = 1 ∨ slotState s h core slot.val = 3) (hr : runnable s x = true)
include hx hc hd hoff hk hr

theorem slotSwitch_alone (ho : ctxAt s h core (1 - slot.val) = none) : Gives (.slotSwitch h core slot) s fun t =>
    slotState t h core slot.val = 2 ∧ Touches { s with contexts := t.contexts } t arrayFields := by
  have hre : resched s h core = toArray s h core slot.val := resched_alone hx ho (by omega) hr
  have hsw : switchTo s x = some (toArray s h core slot.val) := by
    obtain ⟨-, rfl, rfl, hs⟩ := ctxAt_holds hx
    rw [switchTo_eq (by simp [hs, ho]), hre, hs, if_pos slotState_toArray]
  refine ⟨_, (exec_slotSwitch hx hc hd).trans ?_, slotState_toArray, touches_toArray fun _ hf => hf⟩
  rw [if_neg (by simp [hoff]), hsw, Option.getD_some]

variable (hy : ctxAt s h core (1 - slot.val) = some y) (ha : onArray s y = true) (hb : y.inArray = 0) (hyr : runnable s y = true)
include hy ha hb hyr

omit hc hd in
theorem switchTo_pair : slotState s h core (1 - slot.val) = 2 ∧ switchTo s x = if ctxClass s x < ctxClass s y
    then some (countPreempt (toArray s h core slot.val) h) else none := by
  obtain ⟨-, hyh, hyc, hys⟩ := ctxAt_holds hy
  have hy2 : slotState s h core (1 - slot.val) = 2 := by simpa [onArray, hyh, hyc, hys] using ha
  have hre := resched_pair hx hy (by omega) hr hy2 hb hyr
  obtain ⟨-, rfl, rfl, hs⟩ := ctxAt_holds hx
  refine ⟨hy2, ?_⟩
  rw [switchTo_eq (by simp [hs, hy, hb]), hre, hs]
  split
  · rw [if_pos (slotState_countPreempt.trans slotState_toArray)]
  · rw [if_neg (by omega)]

theorem slotSwitch_preempts (hlt : ctxClass s x < ctxClass s y) : Gives (.slotSwitch h core slot) s fun t =>
    slotState t h core (1 - slot.val) = 3 ∧ slotState t h core slot.val = 2 ∧
      Touches { s with contexts := t.contexts } t (arrayFields ++ [.sched .PREEMPT_CNT]) := by
  obtain ⟨hy2, hsw⟩ := switchTo_pair hx hoff hk hr hy ha hb hyr
  refine ⟨_, (exec_slotSwitch hx hc hd).trans ?_, slotState_countPreempt.trans (slotState_toArray_other slot.isLt hy2),
    slotState_countPreempt.trans slotState_toArray, ?_⟩
  · rw [if_neg (by simp [hoff]), hsw, if_pos hlt, Option.getD_some]
  · rw [countPreempt_contexts]
    exact (touches_toArray fun _ hf => List.mem_append_left _ hf).countPreempt (by decide) (by decide)

theorem slotSwitch_stays (hle : ctxClass s y ≤ ctxClass s x) : Sets (.slotSwitch h core slot) s [] := by
  obtain ⟨-, hsw⟩ := switchTo_pair hx hoff hk hr hy ha hb hyr
  refine sets_of_next ((exec_slotSwitch hx hc hd).trans ?_)
  rw [if_neg (by simp [hoff]), hsw, if_neg (Nat.not_lt.mpr hle), Option.getD_none]

end

end

/-- Settles O38: one lemma above for each command and case. -/
theorem contextWork : Obligations.ContextWork := by
  intro h core slot x c s hx hc hd only
  have works (f : Chain → Context → State) : onContext s h core slot.val f = .next (f c x) := onContext_works hx hc hd f
  obtain ⟨-, rfl, rfl, hs⟩ := ctxAt_holds hx
  refine ⟨fun hl hy hn hf => ⟨_, works _, ?_⟩, fun hf => sets_of_next ((works _).trans ?_), fun hf hp hst => ⟨_, works _, ?_⟩,
    fun hf hp hl => ⟨_, works _, workReturn_passDown hc hf hp hl⟩, fun isB j hn hj => ?_, fun hoff => ⟨?_, ?_⟩,
    fun hoff hk hr => ⟨fun ho => ?_, fun y hy ha hb hyr => ⟨fun hlt => ?_, fun hle => ?_⟩⟩⟩
  · rw [workFetch_of_due hl hy hn hf]
    exact setCtx_only hx _
  · simp [workReturn, hf]
  · exact ⟨workReturn_counts hc hf hp hst, workReturn_busy hx hf hp hst⟩
  · refine ⟨fun n hk hl => ⟨_, works _, ?_⟩, fun k hk hok => ⟨_, works _, ?_⟩, fun ha hv hb hp hr hoff hok => ⟨_, works _, ?_⟩,
      fun hb ha hok => ⟨_, works _, ?_⟩, fun hh => ⟨_, works _, ?_⟩, fun hf h2 hp hv ha => ⟨_, works _, ?_⟩⟩
    · rw [if_pos hn]
      exact loadIssue_issues hx hj hk hl
    · rw [if_pos hn]
      exact loadLand_lands hx hj hk hok
    · rw [if_pos (by simp [hn, hoff])]
      exact tilePass_enters hx hj hc ha hv hb hp hr hok
    · rw [if_pos hn]
      exact ((Wanes.refl _).reschedIf.counts _ (by decide) _ _).trans (combineStep_counts hj hc hb ha hok)
    · obtain ⟨t, ht⟩ := Option.isSome_iff_exists.mp hh
      rw [if_pos hn, ht]
      intro y hy hno
      obtain ⟨hm, hseat⟩ := ctxAt_seat hy
      obtain ⟨-, hcn⟩ := chainOf_holds hc
      exact haloTake_lands ht (hs ▸ hx) hcn y hm (hseat.trans (by rw [Context.seat, hs])) (hno.trans hcn)
    · rw [if_pos hn, phase2Start_eq hj hc hf h2 hp hv ha]
      exact setCtx_only hx _
  · exact sets_of_next ((works _).trans (by simp [hoff]))
  · exact sets_of_next ((works _).trans (by simp [hoff]))
  · exact slotSwitch_alone hx hc hd hoff hk hr ho
  · exact slotSwitch_preempts hx hc hd hoff hk hr hy ha hb hyr hlt
  · exact slotSwitch_stays hx hc hd hoff hk hr hy ha hb hyr hle

end Sys2Proof
end

section
/-!
The cores' registers, the errors of scratchpads and caches, and a chain of tables whose one context is at its end: O39.
-/

namespace Sys2Proof

open Machine

set_option Elab.async false

/-! ### The core's registers (R230, R231) -/

section
variable {s : State} {h : Half} {core : Nat}

/-- A core that the half does not have. -/
theorem core_discarded {site : EccAt} {off synd split mask : Nat} {u rmw : Bool} (hn : 256 ≤ core) :
    ∀ c ∈ [Instr.spEccError h core site off synd u rmw, .coreCfgWrite h core split, .coreCntClr h core mask], Sets c s [] := by
  simp only [List.mem_cons, List.not_mem_nil, or_false, forall_eq_or_imp, forall_eq]
  exact ⟨sets_of_next (if_pos hn), sets_of_next (if_pos hn), sets_of_next (if_pos hn)⟩

/-- One count, raised. -/
theorem only_inc (s : State) (f : Fld) (h : Half) (i : Nat) : Only s (s.inc f h 1 i) [cell f h i (min (s.rd f h i + 1) (2 ^ f.width - 1))] :=
  (Only.refl s).wr_lt (satAdd_lt _ _ _)

section
variable (hc : core < 256)
include hc

theorem coreCfgWrite_sets {split : Nat} (hb : ¬ (slotState s h core 0 ≠ 0 ∨ slotState s h core 1 ≠ 0)) (hs : split % 4 ≠ 3) :
    Sets (.coreCfgWrite h core split) s
      [cell (.core .CORE_STATUS_LAST_STATUS) h core ST_OK, cell (.core .CORE_CFG_BANK_SPLIT) h core (split % 4)] := by
  have he : exec (.coreCfgWrite h core split) s =
      .next ((s.wr (.core .CORE_STATUS_LAST_STATUS) h ST_OK core).wr (.core .CORE_CFG_BANK_SPLIT) h (split % 4) core) := by
    show execCoreCfgWrite h core split s = _
    simp only [execCoreCfgWrite, if_neg (Nat.not_le.mpr hc), if_neg hb, if_neg hs]
    rfl
  refine ⟨_, he, Only.perm (((Only.refl s).wr_lt (by decide)).wr_lt ?_) (List.Perm.swap ..) (by simp)⟩
  exact Nat.mod_lt split (by decide)

theorem coreCfgWrite_refused {split st : Nat} (hst : st = if slotState s h core 0 ≠ 0 ∨ slotState s h core 1 ≠ 0 then ST_CORE_BUSY
      else if split % 4 = 3 then ST_CORE_CONFIG else ST_OK) (hne : st ≠ ST_OK) (hl : st < 2 ^ 16) :
    Sets (.coreCfgWrite h core split) s [cell (.core .CORE_STATUS_LAST_STATUS) h core st] := by
  have he : exec (.coreCfgWrite h core split) s = .next (s.wr (.core .CORE_STATUS_LAST_STATUS) h st core) := by
    show execCoreCfgWrite h core split s = _
    simp only [execCoreCfgWrite, if_neg (Nat.not_le.mpr hc), ← hst, if_neg hne]
  exact ⟨_, he, (Only.refl s).wr_lt hl⟩

theorem coreCntClr_clears (mask : Nat) : Gives (.coreCntClr h core mask) s fun t =>
    Touches s t [.core .NUM_SAT, .core .NUM_NAN, .core .SP_ECC_CORR, .core .SP_ECC_UNCORR] ∧
    t.rd (.core .NUM_SAT) h core = (if mask.testBit 0 then 0 else s.rd (.core .NUM_SAT) h core) ∧
    t.rd (.core .NUM_NAN) h core = (if mask.testBit 1 then 0 else s.rd (.core .NUM_NAN) h core) ∧
    t.rd (.core .SP_ECC_CORR) h core = (if mask.testBit 2 then 0 else s.rd (.core .SP_ECC_CORR) h core) ∧
    t.rd (.core .SP_ECC_UNCORR) h core = (if mask.testBit 2 then 0 else s.rd (.core .SP_ECC_UNCORR) h core) := by
  refine ⟨_, if_neg (Nat.not_le.mpr hc), ?_, ?_⟩
  · have h1 : Touches s (if mask.testBit 0 then s.wr (.core .NUM_SAT) h 0 core else s)
        [.core .NUM_SAT, .core .NUM_NAN, .core .SP_ECC_CORR, .core .SP_ECC_UNCORR] :=
      .ite ((Touches.refl s _).wr (by decide) h 0 core) (.refl s _)
    have h2 := Touches.ite (c := mask.testBit 1) (h1.wr (f := .core .NUM_NAN) (by decide) h 0 core) h1
    exact .ite ((h2.wr (by decide) h 0 core).wr (by decide) h 0 core) h2
  · cases mask.testBit 0 <;> cases mask.testBit 1 <;> cases mask.testBit 2 <;> simp

/-! ### Errors of the scratchpads and of the die caches (R222) -/

theorem spEccError_corrected {site : EccAt} {off synd : Nat} {rmw : Bool} (hl : ∀ line, site ≠ .cacheLine line) :
    Sets (.spEccError h core site off synd false rmw) s
      [cell (.core .SP_ECC_CORR) h core (min (s.rd (.core .SP_ECC_CORR) h core + 1) (2 ^ 16 - 1))] := by
  have he : exec (.spEccError h core site off synd false rmw) s = .next (s.inc (.core .SP_ECC_CORR) h 1 core) := by
    refine (if_neg (Nat.not_le.mpr hc)).trans ?_
    cases site with
    | cacheLine line => exact absurd rfl (hl line)
    | slot n => dsimp only; split <;> rfl
    | context k c n => dsimp only; split <;> rfl
    | engine k ring seq => dsimp only; split <;> rfl
  exact ⟨_, he, only_inc s (.core .SP_ECC_CORR) h core⟩

theorem cacheLine_error {line off synd : Nat} {u rmw : Bool} :
    exec (.spEccError h core (.cacheLine line) off synd u rmw) s = .next (lineEcc s h (core / 64) line u) := if_neg (Nat.not_le.mpr hc)

end

theorem lineEcc_unheld {die line : Nat} {u : Bool} (hn : ⟨h, die, line⟩ ∉ s.dieLines) : lineEcc s h die line u = s := by
  simp [lineEcc, hn]

theorem lineEcc_corrected {die line : Nat} (hm : ⟨h, die, line⟩ ∈ s.dieLines) :
    lineEcc s h die line false = s.inc (.core .DC_ECC_CORR) h 1 die := by
  simp [lineEcc, hm]

theorem lineEcc_dropped {die line : Nat} (hm : ⟨h, die, line⟩ ∈ s.dieLines) :
    (lineEcc s h die line true).rd (.core .DC_ECC_UNCORR) h die = min (s.rd (.core .DC_ECC_UNCORR) h die + 1) (2 ^ 16 - 1) ∧
      Touches s (lineEcc s h die line true) [.core .DC_ECC_UNCORR, .tel .LIVE_SLOT] := by
  have he : lineEcc s h die line true = bump (s.inc (.core .DC_ECC_UNCORR) h 1 die) h 1 0 128 := by
    simp [lineEcc, hm]
  rw [he]
  refine ⟨?_, ((Touches.refl s _).inc (by decide) h 1 die).bump (by decide) h 1 0 128⟩
  exact (State.rd_inc ..).trans ((if_neg (by rintro ⟨he, -⟩; cases he)).trans (State.rd_inc_self ..))

/-- The state in which an error that the code cannot correct is counted. -/
def eccCounted (s : State) (h : Half) (core : Nat) : State := s.inc (.core .SP_ECC_UNCORR) h 1 core

theorem eccCounted_only : Only s (eccCounted s h core)
    [cell (.core .SP_ECC_UNCORR) h core (min (s.rd (.core .SP_ECC_UNCORR) h core + 1) (2 ^ 16 - 1))] :=
  only_inc s (.core .SP_ECC_UNCORR) h core

theorem eccCounted_rd : (eccCounted s h core).rd (.core .SP_ECC_UNCORR) h core =
    min (s.rd (.core .SP_ECC_UNCORR) h core + 1) (2 ^ 16 - 1) := State.rd_inc_self ..

section
variable {k : Half} {c n : Nat} {off synd : Nat} {rmw : Bool} {x : Context}

theorem spEccFault_idle (hw : atWork x = false) : spEccFault s h core off synd rmw x = s := if_pos hw

/-- A context at work that meets the error takes its context step. -/
theorem spEccFault_steps (hx : ctxAt s k c n = some x) (hw : atWork x = true) :
    ctxAt (spEccFault s h core off synd rmw x) k c n = none ∧ Wanes s (spEccFault s h core off synd rmw x) := by
  obtain ⟨-, rfl, rfl, rfl⟩ := ctxAt_holds hx
  rw [spEccFault, if_neg (by simp [hw])]
  exact ⟨ctxAt_eq_none (contextStep_seat (x := { x with lastOff := off })), .contextStep (.noteAttn (.refl s))⟩

end

/-- A context that meets an error of the scratchpad. -/
def eccMet (s : State) (h : Half) (core off synd : Nat) (rmw : Bool) (k : Half) (c n : Nat) : State :=
  match ctxAt s k c n with
  | some x => spEccFault s h core off synd rmw x
  | none => s

section
variable {k : Half} {c : Fin 256} {slot : Fin 2} {site : EccAt} {off synd : Nat} {rmw : Bool} (hc : core < 256)
  (hsite : site = .context k c slot ∨ site = .slot slot ∧ k = h ∧ c.val = core)
include hc hsite

theorem spEccError_met : exec (.spEccError h core site off synd true rmw) s =
    .next (eccMet (eccCounted s h core) h core off synd rmw k c.val slot.val) := by
  refine (if_neg (Nat.not_le.mpr hc)).trans ?_
  obtain rfl | ⟨rfl, rfl, rfl⟩ := hsite
  · rfl
  · rfl

theorem spEccError_idle (hi : ∀ x, ctxAt s k c.val slot.val = some x → atWork x = false) :
    Sets (.spEccError h core site off synd true rmw) s
      [cell (.core .SP_ECC_UNCORR) h core (min (s.rd (.core .SP_ECC_UNCORR) h core + 1) (2 ^ 16 - 1))] := by
  have hm : eccMet (eccCounted s h core) h core off synd rmw k c.val slot.val = eccCounted s h core := by
    unfold eccMet
    split
    next x hx => exact spEccFault_idle (hi x hx)
    · rfl
  exact ⟨_, (spEccError_met hc hsite).trans (congrArg _ hm), eccCounted_only⟩

theorem spEccError_steps {x : Context} (hx : ctxAt s k c.val slot.val = some x) (hw : atWork x = true) :
    Gives (.spEccError h core site off synd true rmw) s fun t => ctxAt t k c.val slot.val = none ∧
      t.rd (.core .SP_ECC_UNCORR) h core = min (s.rd (.core .SP_ECC_UNCORR) h core + 1) (2 ^ 16 - 1) := by
  have hx' : ctxAt (eccCounted s h core) k c.val slot.val = some x := hx
  have hm : eccMet (eccCounted s h core) h core off synd rmw k c.val slot.val = spEccFault (eccCounted s h core) h core off synd rmw x := by
    simp [eccMet, hx']
  obtain ⟨hnone, hwanes⟩ := spEccFault_steps (h := h) (core := core) (off := off) (synd := synd) (rmw := rmw) hx' hw
  refine ⟨_, (spEccError_met hc hsite).trans (congrArg _ hm), hnone, ?_⟩
  exact (hwanes.counts _ (by decide) h core).trans eccCounted_rd

end

/-! ### Engines that meet an error (R222, R416) -/

theorem collOf_chainNo {n : Nat} {k : Coll} (hk : collOf s n = some k) : k.chainNo = n := by
  simpa using List.find?_some (p := fun c : Coll => c.chainNo == n) hk

/-- The chain of an operation that is stopped is over. -/
theorem stopColl_done {k : Coll} {c : Chain} (hc : c ∈ s.chains) (hk : k.chainNo = c.readNo) :
    ∃ d ∈ (stopColl s k).chains, d.readNo = c.readNo ∧ d.done = true := by
  have hw : Wanes s (dropPending (endColl s k) k.half k.gid k.epoch) := .keepPending (.endColl (.refl s))
  obtain ⟨d, hd, hno, -⟩ := hw.chains c hc
  refine ⟨_, List.mem_map_of_mem hd, ?_⟩
  rw [if_pos (hno.trans hk.symm)]
  cases hdd : d.done with
  | true => exact ⟨hno, hdd⟩
  | false => exact ⟨(outlasts_finish d _).1.trans hno, finish_done d _⟩

theorem originateAbort_done {k : Coll} {c : Chain} {cause localSt : Nat} (hc : c ∈ s.chains) (hk : k.chainNo = c.readNo) :
    ∃ d ∈ (originateAbort s k cause localSt).chains, d.readNo = c.readNo ∧ d.done = true := by
  have ends {u : State} (hu : Wanes s u) : ∃ d ∈ (stopColl u k).chains, d.readNo = c.readNo ∧ d.done = true := by
    obtain ⟨e, he, hno, -⟩ := hu.chains c hc
    obtain ⟨d, hd, hdn, hdd⟩ := stopColl_done he (hk.trans hno.symm)
    exact ⟨d, hd, hdn.trans hno, hdd⟩
  unfold originateAbort
  extract_lets me s1 x
  have h1 : Wanes s s1 := .recordAbort (.refl s)
  split
  · exact ends h1
  · exact ends (.sendAborts (.upd h1))

section
variable {k : Half} {ring seq : Nat} {off synd : Nat} {rmw : Bool} (hc : core < 256)
include hc

theorem spEccError_engine_idle (hi : ∀ c, s.chain k ring seq = some c → c.running = false) :
    Sets (.spEccError h core (.engine k ring seq) off synd true rmw) s
      [cell (.core .SP_ECC_UNCORR) h core (min (s.rd (.core .SP_ECC_UNCORR) h core + 1) (2 ^ 16 - 1))] := by
  refine ⟨eccCounted s h core, (if_neg (Nat.not_le.mpr hc)).trans ?_, eccCounted_only⟩
  split
  next c hk => rw [hi c hk]; rfl
  · rfl

variable {c : Chain} (hk : s.chain k ring seq = some c) (hr : c.running = true)
include hk hr

theorem spEccError_engine : exec (.spEccError h core (.engine k ring seq) off synd true rmw) s =
    .next (failEngine (eccCounted s h core) c ST_ECC_UNCORR) := by
  refine (if_neg (Nat.not_le.mpr hc)).trans ?_
  have hk' : (s.inc (.core .SP_ECC_UNCORR) h 1 core).chain k ring seq = some c := hk
  simp [hk', hr, eccCounted]

theorem spEccError_ends (hn : collOf s c.readNo = none) : Gives (.spEccError h core (.engine k ring seq) off synd true rmw) s fun t =>
    c.finish ST_ECC_UNCORR ∈ t.chains ∧ Only { s with chains := t.chains } t
      [cell (.core .SP_ECC_UNCORR) h core (min (s.rd (.core .SP_ECC_UNCORR) h core + 1) (2 ^ 16 - 1))] := by
  have hn' : collOf (eccCounted s h core) c.readNo = none := hn
  refine ⟨setChain (eccCounted s h core) c fun d => d.finish ST_ECC_UNCORR, (spEccError_engine hc hk hr).trans (congrArg _ ?_), ?_, ?_⟩
  · simp [failEngine, hn', hr]
  · exact (setChain_holds (s := eccCounted s h core) (List.mem_of_find?_eq_some hk) fun d => d.finish ST_ECC_UNCORR).1
  · exact ⟨eccCounted_only.1, rfl⟩

theorem spEccError_aborts (hn : (collOf s c.readNo).isSome = true) :
    Gives (.spEccError h core (.engine k ring seq) off synd true rmw) s fun t => ∃ d ∈ t.chains, d.readNo = c.readNo ∧ d.done = true := by
  obtain ⟨q, hq⟩ := Option.isSome_iff_exists.mp hn
  have hq' : collOf (eccCounted s h core) c.readNo = some q := hq
  refine ⟨_, spEccError_engine hc hk hr, ?_⟩
  unfold failEngine
  rw [hq']
  exact originateAbort_done (s := eccCounted s h core) (List.mem_of_find?_eq_some hk) (collOf_chainNo hq)

end

/-! ### A chain whose last context ends (R243, R244) -/

section
variable {x : Context} {c : Chain} {n : Nat}

theorem mem_ctxsOf {z : Context} : z ∈ ctxsOf s n ↔ z ∈ s.contexts ∧ z.chainNo = some n := by
  simp [ctxsOf]

theorem Wanes.ctxsOf_nil {t : State} (hw : Wanes s t) (hn : ctxsOf s n = []) : ctxsOf t n = [] := by
  refine List.eq_nil_iff_forall_not_mem.mpr fun z hz => ?_
  obtain ⟨hm, hzn⟩ := mem_ctxsOf.mp hz
  obtain ⟨y, hy, -, hf⟩ := hw.contexts z hm
  obtain ⟨hzy, -⟩ := hf.resolve_left (by simp [hzn])
  exact List.eq_nil_iff_forall_not_mem.mp hn y (mem_ctxsOf.mpr ⟨hy, hzy.symm.trans hzn⟩)

/-- What takes the one context of a chain from its slot leaves the chain without contexts. -/
theorem Wanes.ctxsOf_of_seat {t : State} (hw : Wanes s t) (hx : ctxsOf s n = [x])
    (hs : ∀ z ∈ t.contexts, z.seat = x.seat → z.chainNo ≠ some n) : ctxsOf t n = [] := by
  refine List.eq_nil_iff_forall_not_mem.mpr fun z hz => ?_
  obtain ⟨hm, hzn⟩ := mem_ctxsOf.mp hz
  obtain ⟨y, hy, he, hf⟩ := hw.contexts z hm
  obtain ⟨hzy, -⟩ := hf.resolve_left (by simp [hzn])
  have hyx : y ∈ ctxsOf s n := mem_ctxsOf.mpr ⟨hy, hzy.symm.trans hzn⟩
  rw [hx, List.mem_singleton] at hyx
  exact hs z hm (hyx ▸ he) hzn

/-- A chain without contexts and without a collective operation is over. -/
theorem settleChain_done (hn : ctxsOf s c.readNo = []) (hk : collOf s c.readNo = none) (hc : c ∈ s.chains) :
    ∃ d ∈ (settleChain s c.readNo).chains, d.readNo = c.readNo ∧ d.done = true := by
  have hany : (s.contexts.any fun x => x.chainNo == some c.readNo) = false := by
    simpa [ctxsOf] using hn
  unfold settleChain
  simp only [hany, hk]
  refine ⟨_, List.mem_map_of_mem hc, ?_⟩
  cases hd : c.done with
  | true => simp [hd]
  | false =>
    simp only [true_and, if_true]
    split
    · exact ⟨(outlasts_finish c _).1, finish_done c _⟩
    · exact ⟨(outlasts_finish c _).1, finish_done c _⟩

/-- The one context of a chain that ends its work ends the chain. -/
theorem endContext_done (hx : ctxsOf s c.readNo = [x]) (hk : collOf s c.readNo = none) (hc : c ∈ s.chains) :
    (∃ d ∈ (endContext s x).chains, d.readNo = c.readNo ∧ d.done = true) ∧ ctxsOf (endContext s x) c.readNo = [] := by
  obtain ⟨-, hno⟩ := mem_ctxsOf.mp (hx ▸ List.mem_singleton_self x)
  have settles {u : State} (hu : Wanes s u) (hm : CtxMoves false s u) (hs : ∀ z ∈ u.contexts, z.seat = x.seat → z.chainNo ≠ some c.readNo) :
      (∃ d ∈ (settleChain u c.readNo).chains, d.readNo = c.readNo ∧ d.done = true) ∧ ctxsOf (settleChain u c.readNo) c.readNo = [] := by
    have hnil := hu.ctxsOf_of_seat hx hs
    exact ⟨settleChain_done hnil ((hm.part (collOf · c.readNo)).trans hk) ((hm.part State.chains).symm ▸ hc),
      (Wanes.settleChain (.refl u)).ctxsOf_nil hnil⟩
  unfold endContext
  simp only [hno]
  split
  · exact settles (.standAgain (.refl s)) (.standAgain (.refl s)) fun z hz he => by simp [standAgain_seat z hz he]
  · exact settles (.dropCtx (.refl s)) (.dropCtx (.refl s)) fun z hz he => absurd he (dropCtx_seat z hz)

/-- A context at rest whose chain has no item left for it ends. -/
theorem advance_ends (ho : s.dispatchOff x.half = false) (hi : x.idle = true) (hl : ctxLive s x = true) (hn : nextItem s c x = some none) :
    advance s c x = some (endContext s x) := by
  have hread : x.read = true ∧ x.waiting = false := by
    simp only [ctxLive, Bool.and_eq_true, Bool.not_eq_true'] at hl
    exact hl.1
  have hdyn : ¬ (dynamic c x = true ∧ x.next = none) := by
    rintro ⟨hd, hx⟩
    simp [nextItem, hd, hx] at hn
  have hstart : itemStart s c x = endContext s x := by
    simp [itemStart, hl, hi, hn]
  simp [advance, ho, hread, hi, hl, hdyn, hstart]

theorem driveNest_of_done {k : Nat} (hn : ctxsOf s n = []) : driveNest k n s = s := by
  cases k with
  | zero => rfl
  | succ k =>
    unfold driveNest
    split
    · rfl
    · simp [hn]

theorem driveNest_ends {k : Nat} (hx : ctxsOf s c.readNo = [x]) (hc : s.chains.find? (fun d => d.readNo == c.readNo) = some c)
    (ha : advance s c x = some (endContext s x)) (hk : collOf s c.readNo = none) :
    driveNest (k + 1) c.readNo s = endContext s x := by
  unfold driveNest
  simp only [hc, hx, List.findSome?_cons, ha]
  exact driveNest_of_done (endContext_done hx hk (List.mem_of_find?_eq_some hc)).2

theorem driveFuel_eq : driveFuel = (2 ^ 100 - 1) + 1 := rfl

end

end

/-- Settles O39: one lemma above for each command and case. -/
theorem coreRegistersAndMatrixChains : Obligations.CoreRegistersAndMatrixChains := by
  intro h s
  refine ⟨fun core hn site off synd split mask u rmw => core_discarded hn, fun core hc => ?_, fun die => ⟨_, rfl, rfl, rfl⟩,
    fun ring seq c hk p hp => ?_⟩
  · intro die one
    refine ⟨fun site off synd rmw => spEccError_corrected hc,
      fun k c slot site off synd rmw hs => ⟨spEccError_idle hc hs, fun x => spEccError_steps hc hs⟩,
      fun k ring seq off synd rmw => ⟨spEccError_engine_idle hc, fun c hk hr => ⟨spEccError_ends hc hk hr, spEccError_aborts hc hk hr⟩⟩,
      fun line off synd u rmw => ⟨fun hn => ?_, fun hm => ⟨?_, ?_⟩⟩, fun split => ?_, coreCntClr_clears hc⟩
    · exact sets_of_next ((cacheLine_error hc).trans (congrArg _ (lineEcc_unheld hn)))
    · rintro rfl
      exact ⟨_, (cacheLine_error hc).trans (congrArg _ (lineEcc_corrected hm)), only_inc s (.core .DC_ECC_CORR) h die⟩
    · rintro rfl
      exact ⟨_, cacheLine_error hc, lineEcc_dropped hm⟩
    · intro busy
      refine ⟨coreCfgWrite_sets hc, fun hb hs => ?_, fun hb => ?_⟩
      · exact coreCfgWrite_refused hc ((if_neg hb).trans (if_pos hs)).symm (by decide) (by decide)
      · exact coreCfgWrite_refused hc (if_pos hb).symm (by decide) (by decide)
  · have he : exec p.1 s = runChain s h ring seq p.2 fun c => driveNest driveFuel c.readNo s := by
      simp only [List.mem_cons, List.not_mem_nil, or_false] at hp
      obtain rfl | rfl := hp <;> rfl
    refine ⟨fun hn => sets_of_next (he.trans (runChain_idle hk hn _)), fun hr ho => ?_⟩
    have hrun := he.trans (runChain_runs hk hr ho fun c => driveNest driveFuel c.readNo s)
    refine ⟨⟨_, hrun, rfl⟩, fun x hx _ hc hcoll hoff hi hl hnext => ⟨_, hrun, ?_⟩⟩
    rw [driveFuel_eq, driveNest_ends hx hc (advance_ends hoff hi hl hnext) hcoll]
    exact endContext_done hx hcoll (List.mem_of_find?_eq_some hc)

end Sys2Proof
end

section
/-!
What the rings' transport leaves: the notes of landed blocks in every chain, and the count of steps. It serves O41.
-/

namespace Sys2Proof

open Machine

set_option Elab.async false

/-! ### Work that takes no step of a ring -/

/-- A chain's number and what has been noted as landed for it (R280). -/
def Machine.Chain.noted (c : Chain) : Nat × List Nat × List (Nat × Nat) := (c.readNo, c.ringWhole, c.ringKb)

/-- `t` is reached from `s` by work that takes no step of a ring and notes no block: every chain is there with the notes that it had, and
RING_STEPS reads as it did. -/
def Rests (s t : State) : Prop :=
  t.chains.map Chain.noted = s.chains.map Chain.noted ∧ ∀ h i, t.rd (.attn .RING_STEPS) h i = s.rd (.attn .RING_STEPS) h i

section
variable {s₀ s t : State} {h : Half}

theorem Rests.refl (s : State) : Rests s s := ⟨rfl, fun _ _ => rfl⟩

theorem Rests.trans {u : State} (h1 : Rests s t) (h2 : Rests t u) : Rests s u :=
  ⟨h2.1.trans h1.1, fun h i => (h2.2 h i).trans (h1.2 h i)⟩

/-- What is neither a chain nor a register does not matter. -/
theorem Rests.upd (hs : Rests s₀ s) (e : t.chains = s.chains ∧ t.regs = s.regs := by exact ⟨rfl, rfl⟩) : Rests s₀ t := by
  obtain ⟨hc, hr⟩ := e
  exact ⟨hc ▸ hs.1, fun h i => (congrArg (·.get ⟨.attn .RING_STEPS, h, i⟩) hr).trans (hs.2 h i)⟩

theorem Rests.wr (hs : Rests s₀ s) {f : Fld} {v i : Nat} (hf : f ≠ .attn .RING_STEPS := by decide) : Rests s₀ (s.wr f h v i) := by
  refine ⟨hs.1, fun k j => ?_⟩
  rw [State.rd_wr, if_neg fun he => hf he.1.symm]
  exact hs.2 k j

theorem Rests.inc (hs : Rests s₀ s) {f : Fld} {n i : Nat} (hf : f ≠ .attn .RING_STEPS := by decide) : Rests s₀ (s.inc f h n i) :=
  .wr hs hf

theorem Rests.bump (hs : Rests s₀ s) {g k n : Nat} : Rests s₀ (bump s h g k n) := .inc hs

theorem Rests.iteOn {α : Type} (g : α → State) {a b : α} {c : Prop} [Decidable c] (ha : Rests s₀ (g a)) (hb : Rests s₀ (g b)) :
    Rests s₀ (g (if c then a else b)) := by
  split <;> assumption

theorem Rests.ite {a b : State} {c : Prop} [Decidable c] (ha : Rests s₀ a) (hb : Rests s₀ b) : Rests s₀ (if c then a else b) :=
  .iteOn id ha hb

theorem Rests.foldlOn {α β : Type} (g : β → State) {f : β → α → β} {l : List α} {b : β} (hb : Rests s₀ (g b))
    (hf : ∀ b a, Rests s₀ (g b) → Rests s₀ (g (f b a))) : Rests s₀ (g (l.foldl f b)) :=
  List.foldlRecOn l f hb fun b hb a _ => hf b a hb

theorem Rests.foldl {α : Type} {f : State → α → State} {l : List α} {b : State} (hb : Rests s₀ b)
    (hf : ∀ b a, Rests s₀ b → Rests s₀ (f b a)) : Rests s₀ (l.foldl f b) := .foldlOn id hb hf

theorem Rests.of_touches {fs : List Fld} (hs : Rests s₀ s) (ht : Touches s t fs) (hf : Fld.attn .RING_STEPS ∉ fs := by decide) :
    Rests s₀ t :=
  hs.trans ⟨congrArg (List.map Chain.noted) (ht.part State.chains), ht.rd hf⟩

/-- Moves of contexts are shared work that leaves the chains. -/
theorem Rests.of_moves {same still : Bool} (hs : Rests s₀ s) (hm : CtxMoves same s t) (hl : Leaves still s t) : Rests s₀ t :=
  hs.trans ⟨congrArg (List.map Chain.noted) (hm.part State.chains), fun h i => hl.rd rfl h i⟩

theorem Rests.mapChains (hs : Rests s₀ s) {f : Chain → Chain} (hf : ∀ d, (f d).noted = d.noted) : Rests s₀ (mapChains s f) := by
  refine hs.trans ⟨?_, fun _ _ => rfl⟩
  rw [Machine.mapChains, List.map_map]
  exact List.map_congr_left fun d _ => hf d

theorem Rests.mem_chains (hs : Rests s t) {c : Chain} (hc : c ∈ s.chains) : ∃ d ∈ t.chains, d.noted = c.noted :=
  List.mem_map.mp (hs.1 ▸ List.mem_map_of_mem hc)

theorem noted_eq_iff {c d : Chain} : d.noted = c.noted ↔ d.readNo = c.readNo ∧ d.ringWhole = c.ringWhole ∧ d.ringKb = c.ringKb := by
  simp [Chain.noted]

theorem noted_ite {c a b : Chain} {p : Prop} [Decidable p] (ha : a.noted = c.noted) (hb : b.noted = c.noted) :
    (if p then a else b).noted = c.noted := by
  split <;> assumption

theorem noted_finish (c : Chain) (status : Nat) : (c.finish status).noted = c.noted := noted_ite rfl rfl

theorem noted_fail (c : Chain) (status : Nat) : (c.fail status).noted = c.noted := noted_ite rfl rfl

/-! ### Granules (R49) -/

section
variable {c : Nat} (hs : Rests s₀ s)
include hs

theorem Rests.poolRefresh : Rests s₀ (poolRefresh s h) := .wr (.wr hs)

theorem Rests.poolHold {n : Nat} : Rests s₀ (poolHold s h c n) := .wr hs

theorem Rests.poolSetLent {n : Nat} : Rests s₀ (poolSetLent s h c n) := .wr hs

theorem poolGrant_rests : OnSome (Rests s₀) (poolGrant s h c) := by
  unfold Machine.poolGrant
  refine .ite (.ite (.some hs.poolHold) (.ite (.some hs.poolHold.poolSetLent) .none)) (.ite .none (.ite (.some hs.poolHold) ?_))
  split
  · exact .some hs.poolHold.poolSetLent
  · exact .none

theorem joinUnit_rests {tag : UnitTag} : OnSome (Rests s₀) (joinUnit s h c tag) := by
  unfold joinUnit
  split
  · exact .some (.upd hs)
  · exact .ite (.some (.upd hs)) .none

theorem grantFor_rests {unit : Option UnitTag} : OnSome (Rests s₀) (grantFor s h c unit) := by
  cases unit with
  | none => exact poolGrant_rests hs
  | some tag => exact .bind (poolGrant_rests hs) fun _ ht => .ite (.some ht) (joinUnit_rests ht)

theorem Rests.poolServe {n : Nat} {unit : Option UnitTag} : Rests s₀ (poolServe n s h c unit).1 := by
  induction n generalizing s with
  | zero => exact hs
  | succ n ih =>
    rw [Machine.poolServe]
    split
    next t ht => exact ih (grantFor_rests hs t ht)
    · exact hs

omit c in
theorem Rests.reclaimCredit {r : PoolReq} : Rests s₀ (reclaimCredit s h r) :=
  have hc := hs.poolHold.poolSetLent
  .ite (.wr (.bump (.inc (.upd hc)))) (.upd hc)

omit c in
theorem Rests.creditBorrowed : Rests s₀ (creditBorrowed s h) := by
  unfold Machine.creditBorrowed
  split
  · exact .reclaimCredit hs
  · split
    · exact .poolSetLent hs
    · exact hs

theorem Rests.poolReleaseN {n : Nat} : Rests s₀ (poolReleaseN s h c n) :=
  .foldl hs fun _ _ ht => .ite ht (.ite (.creditBorrowed (.poolHold ht)) (.poolHold ht))

theorem Rests.egressSettle : Rests s₀ (egressSettle s h) := .upd hs

theorem Rests.reclaimWalk {fuel n : Nat} : Rests s₀ (reclaimWalk fuel s h n) := by
  induction fuel generalizing s n with
  | zero => exact hs
  | succ fuel ih =>
    rw [Machine.reclaimWalk]
    refine .ite hs ?_
    split
    · exact hs
    · exact ih (.egressSettle (.poolReleaseN (.upd hs)))

theorem Rests.reclaimStart {n : Nat} : Rests s₀ (reclaimStart s h c n) := .reclaimWalk (.upd hs)

omit c in
theorem Rests.serveReq {r : PoolReq} : Rests s₀ (serveReq s r) :=
  have hp := hs.poolServe.upd
  .ite hp (.reclaimStart hp)

theorem Rests.giveGranules {n : Nat} : Rests s₀ (giveGranules s h c n) :=
  .poolRefresh (.foldl (.poolReleaseN hs) fun _ _ ht => .serveReq ht)

theorem takeGranules_rests {n : Nat} {unit : Option UnitTag} : OnSome (Rests s₀) (takeGranules s h c n unit) :=
  .ite (.some (.poolRefresh (.poolServe hs))) .none

theorem Rests.waitGranules {n : Nat} {unit : Option UnitTag} : Rests s₀ (waitGranules s h c n unit) :=
  have ha := Rests.ite hs.poolServe hs.poolServe.reclaimStart
  .poolRefresh (.ite ha (.upd ha))

end

/-! ### Collective operations (R376, R416, R417) -/

section
variable (hs : Rests s₀ s)
include hs

theorem Rests.injectPacket {p : Packet} : Rests s₀ (injectPacket s h p).2 := by
  unfold Machine.injectPacket
  refine .iteOn Prod.snd (.inc hs) (.iteOn Prod.snd (.inc hs) ?_)
  split
  · exact .upd hs
  · exact .upd hs
  · exact .inc hs

theorem Rests.sendAborts {x : Grp} {gid epoch cause origin : Nat} {dests : List (Nat × Nat)} :
    Rests s₀ (sendAborts s h x gid epoch cause origin dests) := by
  refine .foldl hs fun _ _ ht => ?_
  split
  · exact .injectPacket ht
  · exact ht

theorem Rests.recordAbort {g gid epoch cause origin localSt : Nat} : Rests s₀ (recordAbort s h g gid epoch cause origin localSt) :=
  .bump (.inc (.wr (.wr (.wr (.wr (.wr (.wr (.wr (.wr (.wr hs))))))))))

theorem Rests.endColl {c : Coll} : Rests s₀ (endColl s c) := .wr (.wr (.giveGranules (.upd hs)))

theorem Rests.keepPending {keep : Half × Packet → Bool} : Rests s₀ (keepPending s h keep) := .ite (.upd hs) (.giveGranules (.upd hs))

theorem Rests.stopColl {c : Coll} : Rests s₀ (stopColl s c) :=
  .mapChains (.keepPending (.endColl hs)) fun d => noted_ite (noted_ite rfl (noted_finish d _)) rfl

theorem Rests.originateAbort {c : Coll} {cause localSt : Nat} : Rests s₀ (originateAbort s c cause localSt) := by
  unfold Machine.originateAbort
  extract_lets me s1 x
  have h1 : Rests s₀ s1 := .recordAbort hs
  clear_value s1
  exact .ite (.stopColl h1) (.stopColl (.sendAborts (.upd h1)))

theorem Rests.countColl {c : Coll} : Rests s₀ (countColl s c) :=
  have hh {src party : Nat} {v : Int} : Rests s₀ (histSample s c.half src party v) :=
    .of_touches hs ((Touches.refl s histFields).histSample (fun _ hf => hf) ..)
  .ite (.bump (.inc hh)) (.bump (.inc hh))

theorem Rests.settleChain {n : Nat} : Rests s₀ (settleChain s n) := by
  unfold Machine.settleChain
  refine .ite hs ?_
  split
  · exact .ite hs (.originateAbort hs)
  · refine .mapChains hs fun d => noted_ite ?_ rfl
    split
    · exact noted_finish d _
    · exact noted_finish d _

theorem Rests.wakeCtxs {p : Context → Bool} : Rests s₀ (wakeCtxs s p) :=
  .foldl hs fun t _ ht => .of_moves ht (CtxMoves.startIdle (same := false) (.setCtx (.refl t) nofun))
    (Leaves.startIdle (still := false) (.setCtx (.refl t)))

/-! ### Pages and their slots (R301, R305, R309) -/

theorem Rests.addHeld {tag n : Nat} {up : Bool} : Rests s₀ (addHeld s h tag up n) := .wr hs (by split <;> decide)

theorem Rests.freeSlot {i k : Nat} : Rests s₀ (freeSlot s h i k) :=
  .ite (.upd hs) (.foldl hs fun _ _ ht => .ite ht (.inc (.addHeld (.upd ht))))

theorem Rests.tagSlots {i n tag : Nat} : Rests s₀ (tagSlots s h i n tag) := hs

omit h in
theorem Rests.setEntry {r : Request} {l g j : Nat} {e : Entry} : Rests s₀ (setEntry s r l g j e) := hs

omit h in
theorem Rests.setRequest {num : Nat} {f : Request → Request} : Rests s₀ (setRequest s num f) := hs

theorem Rests.dropGuests {num layer : Nat} {pages : List RingPage} : Rests s₀ (dropGuests s h num layer pages) := by
  refine .foldl hs fun t p ht => ?_
  split
  · exact ht
  · exact .ite (.ite (.setRequest (.tagSlots (.setEntry ht))) (.setEntry ht)) ht

theorem Rests.dropNode {n : PfxNode} : Rests s₀ (dropNode s n) := by
  unfold Machine.dropNode
  have hf : Rests s₀ (n.slots.foldl (fun t i => Machine.freeSlot t n.half i n.slotLog2) s) := .foldl hs fun _ _ ht => .freeSlot ht
  refine .wr (.upd ?_)
  split
  · exact .freeSlot hf
  · exact hf

theorem Rests.addTransfer {x : Transfer} : Rests s₀ (addTransfer s x) := by
  unfold Machine.addTransfer
  split
  next u hu =>
    have ht : Rests s₀ u := OnSome.get (.ite .none (takeGranules_rests hs)) hu
    exact .upd ht
  · extract_lets u
    have hu : Rests s₀ u := .waitGranules hs
    clear_value u
    exact .upd hu

theorem Rests.enqueueWait {r : Request} : Rests s₀ (enqueueWait s r) := .ite hs (.upd hs)

theorem takeFree_rests {r : Request} : OnSome (fun q => Rests s₀ q.2) (takeFree s r) :=
  .ite (.mapAny fun _ => .wr (.addHeld (.upd hs))) .none

theorem takeReclaimed_rests {n : Nat} {r : Request} : OnSome (fun q => Rests s₀ q.2) (takeReclaimed n s r) := by
  induction n generalizing s with
  | zero => exact .none
  | succ n ih =>
    rw [takeReclaimed]
    refine .ite .none ?_
    split
    · exact .none
    next d _ =>
      dsimp only
      split
      next p hp => exact .some (takeFree_rests hs.dropNode p hp)
      · exact ih hs.dropNode

theorem Rests.takeValley {p v k : Nat} : Rests s₀ (takeValley s h p v k) :=
  .wr (s := { s with valley := s.valley ++ [⟨h, p, v, k⟩] }) hs

theorem autoSpill_rests {p : Nat} : OnSome (Rests s₀) (autoSpill s h p) := by
  unfold autoSpill
  refine .ite ?_ .none
  split
  · unfold startSpill
    dsimp only
    split
    · exact .none
    · exact .some (.addTransfer (.upd (.takeValley (s := drawFree s) hs)))
  · exact .none

theorem Rests.startFetch {r : Request} {l g j slot prio : Nat} {waiters : List Nat} : Rests s₀ (startFetch s r l g j slot prio waiters) :=
  .addTransfer (.upd hs)

end

/-- The state in which an allocation answers. -/
def Machine.SlotRes.state : SlotRes → State
  | .got _ s | .wait s | .none s => s

theorem takeVictim_rests (hs : Rests s₀ s) (r : Request) : Rests s₀ (takeVictim s r).state := by
  unfold takeVictim
  split
  · extract_lets e s1 s2
    have h2 : Rests s₀ s2 := .bump (.inc (f := .kv .KV_EVICTS) hs)
    exact .iteOn SlotRes.state (.enqueueWait (.upd h2)) (.upd h2)
  · exact .inc (f := .kv .KV_NOSLOT_CNT) hs

theorem allocSlot_rests (hs : Rests s₀ s) (r : Request) : Rests s₀ (allocSlot s r).state := by
  unfold allocSlot
  split
  · exact .iteOn SlotRes.state (.upd hs) hs
  · split
    next p hp => exact .upd (OnSome.get (P := fun q : Nat × State => Rests s₀ q.2) (.ite .none (takeFree_rests hs)) hp)
    · split
      next p hp => exact .upd (OnSome.get (P := fun q : Nat × State => Rests s₀ q.2) (.ite .none (takeReclaimed_rests hs)) hp)
      · refine .iteOn SlotRes.state (.enqueueWait hs) ?_
        split
        next t ht => exact .enqueueWait (autoSpill_rests hs t ht)
        · exact takeVictim_rests hs r

/-! ### What a ring sends (R407, R408) -/

section
variable {w : CollW} (hw : Rests s₀ w.s)
include hw

theorem Rests.collWBind {f : CollW → CollW} (hf : ∀ u, Rests s₀ u.s → Rests s₀ (f u).s) : Rests s₀ (w.bind f).s :=
  .iteOn CollW.s hw (hf w hw)

theorem Rests.collWAbort {cause localSt : Nat} : Rests s₀ (w.abort cause localSt).s := .iteOn CollW.s hw hw

theorem Rests.collWInject {dst ptype : Nat} {tr payload : List Byte} : Rests s₀ (w.inject dst ptype tr payload).s :=
  .collWBind hw fun _ hu => .iteOn CollW.s (.injectPacket hu) (.collWAbort (.injectPacket hu))

theorem Rests.collWInjectData {dst : Nat} {tr payload : List Byte} : Rests s₀ (w.injectData dst tr payload).s :=
  .collWBind (.collWInject hw) fun _ hu => .bump (.inc hu)

theorem Rests.collWSetChain {f : Chain → Chain} (hf : ∀ d, (f d).noted = d.noted) : Rests s₀ (w.setChain f).s :=
  .mapChains hw fun d => noted_ite (hf d) rfl

theorem Rests.collWFailRing {status : Nat} : Rests s₀ (w.failRing status).s :=
  .collWAbort (.collWSetChain hw fun d => noted_fail d status)

theorem Rests.collWCloseNotch : Rests s₀ w.closeNotch := by
  unfold CollW.closeNotch
  split
  · exact .originateAbort (.upd hw)
  · exact .upd hw

theorem Rests.collWSendPage {d : Chain} {r : Request} {unit seg : Nat} {q : Nat × Nat} : Rests s₀ (w.sendPage d r unit seg q).s :=
  .iteOn CollW.s (.collWFailRing (.of_touches hw (touches_recordRefusal ..))) (.foldlOn CollW.s hw fun _ _ hu => .collWInjectData hu)

theorem Rests.collWPrefetchUnit {d : Chain} {r : Request} {ps : List (Nat × Nat)} : Rests s₀ (w.prefetchUnit d r ps).s := by
  refine .foldlOn CollW.s hw fun _ _ hu => .collWBind hu fun v hv => ?_
  refine .iteOn CollW.s (.upd hv) (.iteOn CollW.s hv (.iteOn CollW.s (.collWFailRing hv) ?_))
  have ha := allocSlot_rests hv r
  split
  next slot t he =>
    rw [he] at ha
    exact .inc (.startFetch (s := t) ha)
  next t he =>
    rw [he] at ha
    exact ha
  next t he =>
    rw [he] at ha
    exact .collWFailRing (w := { v with s := t }) ha

theorem Rests.collWServeCts {t : CtsHeld} : Rests s₀ (w.serveCts t).s := by
  unfold CollW.serveCts
  split
  · exact .iteOn CollW.s (.collWFailRing hw) (.iteOn CollW.s hw (.iteOn CollW.s (.foldlOn CollW.s hw fun _ _ hu => .collWSendPage hu)
      (.collWPrefetchUnit hw)))
  · exact hw

theorem Rests.collWServeAll : Rests s₀ w.serveAll.s := .foldlOn CollW.s hw fun _ _ hu => .collWBind hu fun _ hv => .collWServeCts hv

theorem Rests.collWRingAck {short : Bool} : Rests s₀ (w.ringAck short).s := by
  unfold CollW.ringAck
  split
  · exact .iteOn CollW.s (.collWSetChain (.collWInject hw) fun _ => rfl) hw
  · exact hw

end

theorem Rests.ringGoOn (hs : Rests s₀ s) {c : Coll} : Rests s₀ (ringGoOn s c) := by
  unfold Machine.ringGoOn
  split
  next d _ => exact .collWCloseNotch (.collWServeAll (w := ringWork s c d) hs)
  · exact hs

end

end Sys2Proof
end

section
/-!
A chain of attention whose one context is at its end, the steps of a ring, and ATTN_RULE: O41.
-/

namespace Sys2Proof

open Machine

set_option Elab.async false

/-! ### A chain whose last context ends (R243, R274) -/

section
variable {s : State} {x : Context} {c : Chain} {n : Nat}

/-- A context at rest whose chain has no item left for it ends. -/
theorem attnAdvance_ends (ha : isAttn c = true) (ho : s.dispatchOff x.half = false) (hb : x.comb = false) (hi : x.idle = true)
    (hl : ctxLive s x = true) (hn : nextItem s c x = some none) : attnAdvance s c x = some (endContext s x) := by
  have hread : x.read = true ∧ x.waiting = false := by
    simp only [ctxLive, Bool.and_eq_true, Bool.not_eq_true'] at hl
    exact hl.1
  have hnext : x.next ≠ none := by
    intro hx
    simp [nextItem, dynamic, ha, hx] at hn
  have hstart : attnStart s c x = endContext s x := by
    simp [attnStart, hl, hi, hn]
  simp [attnAdvance, ho, hb, hread, hi, hl, hnext, hstart]

theorem driveAttn_of_done {k : Nat} (hn : ctxsOf s n = []) : driveAttn k n s = s := by
  cases k with
  | zero => rfl
  | succ k =>
    unfold driveAttn
    split
    · rfl
    · simp [hn]

theorem driveAttn_ends {k : Nat} (hx : ctxsOf s c.readNo = [x]) (hc : s.chains.find? (fun d => d.readNo == c.readNo) = some c)
    (hd : c.done = false) (ha : attnAdvance s c x = some (endContext s x)) (hk : collOf s c.readNo = none) :
    driveAttn (k + 1) c.readNo s = endContext s x := by
  unfold driveAttn
  simp only [hc, hx, hd, List.findSome?_cons, ha]
  exact driveAttn_of_done (endContext_done hx hk (List.mem_of_find?_eq_some hc)).2

theorem done_of_running (hr : c.running = true) : c.done = false := by
  simp only [Chain.running, Bool.and_eq_true, Bool.not_eq_true'] at hr
  exact hr.2

/-- The three opcodes run the steps of their contexts, and their chains are chains of attention. -/
theorem attnOpcode_runs {h : Half} {ring seq : Nat} {p : Instr × Nat}
    (hp : p ∈ [(Instr.attn h ring seq, opATTN), (.attnRing h ring seq, opATTN_RING), (.verify h ring seq, opVERIFY)]) :
    (exec p.1 s = runChain s h ring seq p.2 fun c => driveAttn driveFuel c.readNo s) ∧ (hdOpcode c.head = p.2 → isAttn c = true) := by
  simp only [List.mem_cons, List.not_mem_nil, or_false] at hp
  obtain rfl | rfl | rfl := hp
  · exact ⟨rfl, fun ho => by simp [isAttn, ho]⟩
  · exact ⟨rfl, fun ho => by simp [isAttn, ho]⟩
  · exact ⟨rfl, fun ho => by simp [isAttn, ho]⟩

end

/-! ### The steps of a ring (R278, R279) -/

section
variable {s : State} {h : Half} {ring seq : Nat}

theorem exec_attnRingStep {c : Coll} {d : Chain} {r : Request} (ho : ringOf s h ring seq = some (c, d, r)) :
    exec (.attnRingStep h ring seq) s = .next (ringStep s c d r) := by
  show execAttnRingStep h ring seq s = _
  rw [execAttnRingStep, ho]

theorem attnRing_none (ho : ringOf s h ring seq = none) :
    Sets (.attnRingStep h ring seq) s [] ∧ ∀ kb, Sets (.attnRingBlockLanded h ring seq kb) s [] := by
  refine ⟨sets_of_next ?_, fun kb => sets_of_next ?_⟩
  · show execAttnRingStep h ring seq s = _
    rw [execAttnRingStep, ho]
  · show execAttnRingBlockLanded h ring seq kb s = _
    rw [execAttnRingBlockLanded, ho]

variable {c : Coll} {d : Chain} {r : Request}

/-- A running ring's chain is a chain of the half. -/
theorem ringOf_holds (ho : ringOf s h ring seq = some (c, d, r)) : d ∈ s.chains ∧ d.half = h := by
  unfold ringOf at ho
  split at ho
  · cases ho
  next e he =>
    split at ho
    · obtain ⟨-, rfl, -⟩ : _ ∧ e = d ∧ _ := by simpa using ho
      have hp := List.find?_some he
      simp only [Bool.and_eq_true, beq_iff_eq] at hp
      obtain ⟨⟨⟨⟨hhalf, -⟩, -⟩, -⟩, -⟩ := hp
      exact ⟨List.mem_of_find?_eq_some he, hhalf⟩
    · cases ho

theorem ringStep_waits (hw : stepFolded s d = false ∨ d.ringTx < heldUnits s d r) : ringStep s c d r = s := if_pos hw

/-- A step that is over is counted once (R279). -/
theorem ringStep_counts (hf : stepFolded s d = true) (hu : heldUnits s d r ≤ d.ringTx)
    (ht : ringSteps d ≤ d.ringStep + 1 ∨ d.ringWhole.contains d.ringStep = true) :
    (ringStep s c d r).rd (.attn .RING_STEPS) d.half 0 = min (s.rd (.attn .RING_STEPS) d.half 0 + 1) (2 ^ 64 - 1) := by
  have counted {u t : State} (hu : Rests s u) (ht : Rests (u.inc (.attn .RING_STEPS) d.half 1) t) :
      t.rd (.attn .RING_STEPS) d.half 0 = min (s.rd (.attn .RING_STEPS) d.half 0 + 1) (2 ^ 64 - 1) :=
    (ht.2 d.half 0).trans ((State.rd_inc_self ..).trans (by rw [hu.2 d.half 0]; rfl))
  unfold ringStep
  extract_lets last s1 s2 s3 s4
  have h2 : Rests s s2 := .mapChains (.dropGuests (.refl s)) fun q => noted_ite rfl rfl
  rw [if_neg (by simp [hf, hu])]
  by_cases hlast : last = true
  · rw [if_pos hlast]
    exact counted (.endColl (.countColl h2)) (.settleChain (.refl _))
  · rw [if_neg hlast, if_pos (ht.resolve_left (by simpa [last] using hlast))]
    have h4 : Rests (s2.inc (.attn .RING_STEPS) d.half 1) s4 := .mapChains (.refl _) fun q => noted_ite rfl rfl
    exact counted h2 (.wakeCtxs (.ringGoOn h4))

/-! ### Blocks that have landed (R280, R408) -/

/-- What a notice puts down in a chain: the block of the running step, or a key block of it. -/
def Machine.Chain.noteLanded (c : Chain) (step : Nat) : Option Nat → Chain
  | none => { c with ringWhole := c.ringWhole.filter (· ≠ step) ++ [step] }
  | some kb => { c with ringKb := c.ringKb ++ [(step, kb)] }

/-- The notice in every chain with the ring's number. -/
def noteLanded (s : State) (d : Chain) (k : Option Nat) : State :=
  mapChains s fun c => if c.readNo = d.readNo then c.noteLanded d.ringStep k else c

/-- The state after a notice: the ring goes on, and contexts that waited for the block are woken. -/
def blockNoticed (s : State) (c : Coll) (d : Chain) (k : Option Nat) : State :=
  wakeCtxs (if k = none then ((ringWork (noteLanded s d k) c d).ringAck true).closeNotch else noteLanded s d k) fun x =>
    x.chainNo == some d.readNo

theorem rests_blockNoticed {k : Option Nat} : Rests (noteLanded s d k) (blockNoticed s c d k) :=
  .wakeCtxs (.ite (.collWCloseNotch (.collWRingAck (w := ringWork (noteLanded s d k) c d) (.refl _))) (.refl _))

theorem exec_blockLanded (ho : ringOf s h ring seq = some (c, d, r)) {k : Option Nat} (hl : landedNow d k = true)
    (hs : d.ringStep + 1 < ringSteps d) : exec (.attnRingBlockLanded h ring seq k) s = .next (blockNoticed s c d k) := by
  show execAttnRingBlockLanded h ring seq k s = _
  rw [execAttnRingBlockLanded, ho]
  refine (if_neg (by simp [hl, hs])).trans ?_
  cases k <;> rfl

theorem blockLanded_refused (ho : ringOf s h ring seq = some (c, d, r)) {k : Option Nat}
    (hn : landedNow d k = false ∨ ringSteps d ≤ d.ringStep + 1) : Sets (.attnRingBlockLanded h ring seq k) s [] := by
  refine sets_of_next ?_
  show execAttnRingBlockLanded h ring seq k s = _
  rw [execAttnRingBlockLanded, ho]
  exact if_pos hn

/-- A notice that is so is put down in the ring's chain, and what follows it leaves the note there. -/
theorem blockLanded_notes (ho : ringOf s h ring seq = some (c, d, r)) {k : Option Nat} (hl : landedNow d k = true)
    (hs : d.ringStep + 1 < ringSteps d) : Gives (.attnRingBlockLanded h ring seq k) s fun t =>
      ∃ e ∈ t.chains, e.noted = (d.noteLanded d.ringStep k).noted := by
  have hd : d.noteLanded d.ringStep k ∈ (noteLanded s d k).chains := List.mem_map.mpr ⟨d, (ringOf_holds ho).1, if_pos rfl⟩
  exact ⟨_, exec_blockLanded ho hl hs, rests_blockNoticed.mem_chains hd⟩

end

/-! ### ATTN_RULE (R284) -/

section
variable {s : State} {h : Half} {splitMin composedMax : Nat}

theorem attnRuleWrite_locked (hl : locked s h = true) : Sets (.attnRuleWrite h splitMin composedMax) s [] := sets_of_next (if_pos hl)

theorem attnRuleWrite_refused (hl : locked s h = false) (h0 : splitMin % 65536 = 0) :
    Sets (.attnRuleWrite h splitMin composedMax) s [cell (.attn .ATTN_ERR_STATUS) h 0 ST_ATTN_FIT] :=
  ⟨_, (if_neg (by simp [hl])).trans (if_pos h0), (Only.refl s).wr_lt (by decide)⟩

theorem attnRuleWrite_applies (hl : locked s h = false) (h0 : splitMin % 65536 ≠ 0) : Sets (.attnRuleWrite h splitMin composedMax) s
    [cell (.attn .ATTN_RULE_SPLIT_MIN) h 0 (splitMin % 2 ^ 16), cell (.attn .ATTN_RULE_COMPOSED_MAX) h 0 (composedMax % 2 ^ 16)] :=
  ⟨_, (if_neg (by simp [hl])).trans (if_neg h0), (((Only.refl s).wr ..).wr ..).perm (List.Perm.swap ..) (by simp)⟩

end

/-- Settles O41: one lemma above for each command and case. -/
theorem attentionChains : Obligations.AttentionChains := by
  intro h s
  refine ⟨fun ring seq c hk p hp => ?_, fun ring seq => attnRing_none, fun ring seq c d r ho => ⟨fun hw => ?_, fun hl kb => ?_,
    fun hf hu ht => ⟨_, exec_attnRingStep ho, ?_⟩, fun hs => ⟨fun hp => ?_, fun kb hl => ?_, fun k hn => ?_⟩⟩,
    fun splitMin composedMax => ⟨attnRuleWrite_locked, attnRuleWrite_refused, attnRuleWrite_applies⟩⟩
  · obtain ⟨he, hattn⟩ := attnOpcode_runs hp
    refine ⟨fun hn => sets_of_next (he.trans (runChain_idle hk hn _)), fun hr hop => ?_⟩
    have hrun := he.trans (runChain_runs hk hr hop fun c => driveAttn driveFuel c.readNo s)
    refine ⟨⟨_, hrun, rfl⟩, fun x hx _ hc hcoll hoff hb hi hl hnext => ⟨_, hrun, ?_⟩⟩
    rw [driveFuel_eq, driveAttn_ends hx hc (done_of_running hr) (attnAdvance_ends (hattn hop) hoff hb hi hl hnext) hcoll]
    exact endContext_done hx hcoll (List.mem_of_find?_eq_some hc)
  · exact sets_of_next ((exec_attnRingStep ho).trans (congrArg _ (ringStep_waits hw)))
  · exact blockLanded_refused ho (.inr hl)
  · obtain ⟨-, rfl⟩ := ringOf_holds ho
    exact ringStep_counts hf hu ht
  · obtain ⟨t, he, e, hm, hn⟩ := blockLanded_notes ho (k := none) (by simpa [landedNow, ← imp_iff_not_or] using hp) hs
    obtain ⟨hno, hw, -⟩ := noted_eq_iff.mp hn
    exact ⟨t, he, e, hm, hno, by simp [hw, Chain.noteLanded]⟩
  · obtain ⟨t, he, e, hm, hn⟩ := blockLanded_notes ho hl hs
    obtain ⟨hno, -, hb⟩ := noted_eq_iff.mp hn
    exact ⟨t, he, e, hm, hno, by simp [hb, Chain.noteLanded]⟩
  · exact blockLanded_refused ho (.inl hn)

end Sys2Proof
end

section
/-!
What the work below the chains leaves as it is: on what a page lies in, the granules it moves on, and the contexts it wakes (`Housework`).
It serves O46 and O47.
-/

namespace Sys2Proof

open Machine

set_option Elab.async false

/-! ### Housework -/

/-- What a state holds above the slots, the granules and the registers: chains, requests, transfers, hand-overs and directory nodes. -/
def Machine.State.affairs (s : State) : List Chain × List Request × List Transfer × List Handover × List PfxNode :=
  (s.chains, s.requests, s.transfers, s.handovers, s.nodes)

/-- `t` is reached from `s` by work below those: on registers, memory, granules, slots, Valley pages and contexts. -/
def Housework (s t : State) : Prop := t.affairs = s.affairs

section
variable {s₀ s t u : State} {h : Half}

theorem Housework.refl (s : State) : Housework s s := rfl

theorem Housework.trans (h1 : Housework s t) (h2 : Housework t u) : Housework s u := Eq.trans h2 h1

theorem Housework.chains (hw : Housework s t) : t.chains = s.chains := congrArg Prod.fst hw

theorem Housework.requests (hw : Housework s t) : t.requests = s.requests := congrArg (·.2.1) hw

theorem Housework.transfers (hw : Housework s t) : t.transfers = s.transfers := congrArg (·.2.2.1) hw

theorem Housework.handovers (hw : Housework s t) : t.handovers = s.handovers := congrArg (·.2.2.2.1) hw

theorem Housework.nodes (hw : Housework s t) : t.nodes = s.nodes := congrArg (·.2.2.2.2) hw

/-- What is none of those parts does not matter. -/
theorem Housework.upd (hs : Housework s₀ s) (e : t.affairs = s.affairs := by exact rfl) : Housework s₀ t := hs.trans e

theorem Housework.iteOn {α : Type} (g : α → State) {a b : α} {c : Prop} [Decidable c] (ha : Housework s₀ (g a))
    (hb : Housework s₀ (g b)) : Housework s₀ (g (if c then a else b)) := by
  split <;> assumption

theorem Housework.ite {a b : State} {c : Prop} [Decidable c] (ha : Housework s₀ a) (hb : Housework s₀ b) :
    Housework s₀ (if c then a else b) := .iteOn id ha hb

theorem Housework.foldlOn {α β : Type} (g : β → State) {f : β → α → β} {l : List α} {b : β} (hb : Housework s₀ (g b))
    (hf : ∀ b a, Housework s₀ (g b) → Housework s₀ (g (f b a))) : Housework s₀ (g (l.foldl f b)) :=
  List.foldlRecOn l f hb fun b hb a _ => hf b a hb

theorem Housework.foldl {α : Type} {f : State → α → State} {l : List α} {b : State} (hb : Housework s₀ b)
    (hf : ∀ b a, Housework s₀ b → Housework s₀ (f b a)) : Housework s₀ (l.foldl f b) := .foldlOn id hb hf

theorem Housework.of_touches {fs : List Fld} (hs : Housework s₀ s) (ht : Touches s t fs) : Housework s₀ t :=
  hs.trans (ht.part State.affairs)

theorem Housework.wr (hs : Housework s₀ s) {f : Fld} {v i : Nat} : Housework s₀ (s.wr f h v i) := .upd hs

theorem Housework.inc (hs : Housework s₀ s) {f : Fld} {n i : Nat} : Housework s₀ (s.inc f h n i) := .upd hs

theorem Housework.bump (hs : Housework s₀ s) {g k n : Nat} : Housework s₀ (bump s h g k n) := .upd hs

theorem Housework.store (hs : Housework s₀ s) {a : Nat} {b : List Byte} {die : Option (Half × Nat)} : Housework s₀ (s.store a b die) :=
  .upd hs

/-! ### Granules (R49) -/

section
variable {c : Nat} (hs : Housework s₀ s)
include hs

theorem Housework.poolRefresh : Housework s₀ (poolRefresh s h) := .wr (.wr hs)

theorem Housework.poolHold {n : Nat} : Housework s₀ (poolHold s h c n) := .wr hs

theorem Housework.poolSetLent {n : Nat} : Housework s₀ (poolSetLent s h c n) := .wr hs

theorem poolGrant_housework : OnSome (Housework s₀) (poolGrant s h c) := by
  unfold Machine.poolGrant
  refine .ite (.ite (.some hs.poolHold) (.ite (.some hs.poolHold.poolSetLent) .none)) (.ite .none (.ite (.some hs.poolHold) ?_))
  split
  · exact .some hs.poolHold.poolSetLent
  · exact .none

theorem grantFor_housework {unit : Option UnitTag} : OnSome (Housework s₀) (grantFor s h c unit) := by
  cases unit with
  | none => exact poolGrant_housework hs
  | some tag =>
    refine .bind (poolGrant_housework hs) fun _ ht => .ite (.some ht) ?_
    unfold joinUnit
    split
    · exact .some (.upd ht)
    · exact .ite (.some (.upd ht)) .none

theorem Housework.poolServe {n : Nat} {unit : Option UnitTag} : Housework s₀ (poolServe n s h c unit).1 := by
  induction n generalizing s with
  | zero => exact hs
  | succ n ih =>
    rw [Machine.poolServe]
    split
    next t ht => exact ih (grantFor_housework hs t ht)
    · exact hs

omit c in
theorem Housework.reclaimCredit {r : PoolReq} : Housework s₀ (reclaimCredit s h r) :=
  .ite (.wr (.bump (.inc (.upd hs)))) (.upd hs)

omit c in
theorem Housework.creditBorrowed : Housework s₀ (creditBorrowed s h) := by
  unfold Machine.creditBorrowed
  split
  · exact .reclaimCredit hs
  · split
    · exact .poolSetLent hs
    · exact hs

theorem Housework.poolReleaseN {n : Nat} : Housework s₀ (poolReleaseN s h c n) :=
  .foldl hs fun _ _ ht => .ite ht (.ite (.creditBorrowed (.poolHold ht)) (.poolHold ht))

omit c in
theorem Housework.egressSettle : Housework s₀ (egressSettle s h) := .upd hs

omit c in
theorem Housework.reclaimWalk {fuel n : Nat} : Housework s₀ (reclaimWalk fuel s h n) := by
  induction fuel generalizing s n with
  | zero => exact hs
  | succ fuel ih =>
    rw [Machine.reclaimWalk]
    refine .ite hs ?_
    split
    · exact hs
    · exact ih (.egressSettle (.poolReleaseN (.upd hs)))

theorem Housework.reclaimStart {n : Nat} : Housework s₀ (reclaimStart s h c n) := .reclaimWalk (.upd hs)

omit c in
theorem Housework.serveReq {r : PoolReq} : Housework s₀ (serveReq s r) :=
  have hp := hs.poolServe.upd
  .ite hp (.reclaimStart hp)

theorem Housework.giveGranules {n : Nat} : Housework s₀ (giveGranules s h c n) :=
  .poolRefresh (.foldl (.poolReleaseN hs) fun _ _ ht => .serveReq ht)

theorem takeGranules_housework {n : Nat} {unit : Option UnitTag} : OnSome (Housework s₀) (takeGranules s h c n unit) :=
  .ite (.some (.poolRefresh (.poolServe hs))) .none

theorem Housework.waitGranules {n : Nat} {unit : Option UnitTag} : Housework s₀ (waitGranules s h c n unit) :=
  have ha := Housework.ite hs.poolServe hs.poolServe.reclaimStart
  .poolRefresh (.ite ha (.upd ha))

end

/-! ### Accesses (R42 to R45, R227) -/

theorem ctxMoves_wakeCtxs {p : Context → Bool} : CtxMoves false s (wakeCtxs s p) :=
  .foldl (.refl s) fun _ _ ht => .startIdle (.setCtx ht nofun)

section
variable (hs : Housework s₀ s)
include hs

theorem Housework.recordRefusal {w : Who} {write : Bool} {a len status : Nat} : Housework s₀ (recordRefusal s w write a len status) :=
  .of_touches hs (touches_recordRefusal ..)

omit h in
theorem Housework.refusePage {r : Request} {write : Bool} {slot : Nat} : Housework s₀ (refusePage s r write slot) := .recordRefusal hs

omit h in
theorem Housework.drawFree : Housework s₀ (drawFree s) := .upd hs

theorem Housework.hostLatency {a : Nat} : Housework s₀ (hostLatency s h a) :=
  .ite (.drawFree (.of_touches hs ((Touches.refl s histFields).histSample (fun _ hf => hf) ..))) hs

theorem Housework.readAt {w : Who} {a len : Nat} : Housework s₀ (readAt s w a len).2.1 :=
  .iteOn (fun q : Nat × State × List Byte => q.2.1) (.hostLatency (.of_touches hs (touches_countBytes ..))) (.recordRefusal hs)

theorem Housework.writeAt {w : Who} {a : Nat} {data : List Byte} : Housework s₀ (writeAt s w a data).2 :=
  .iteOn Prod.snd (.store (.of_touches hs (touches_countBytes ..))) (.recordRefusal hs)

theorem Housework.cacheRead {x : Context} {a len : Nat} : Housework s₀ (cacheRead s x a len) :=
  .of_touches (.upd hs) (CacheMoves.cacheRead s x a len).touches

theorem Housework.wakeCtxs {p : Context → Bool} : Housework s₀ (wakeCtxs s p) := hs.trans (ctxMoves_wakeCtxs.part State.affairs)

theorem Housework.wakeSlots : Housework s₀ (wakeSlots s h) := .wakeCtxs hs

end

theorem Housework.runRead {r : Run} (hr : Housework s₀ r.s) {x : Context} {a len : Nat} : Housework s₀ (r.read x a len).1.s :=
  .iteOn (fun q : Run × List Byte => q.1.s) hr (.iteOn (fun q : Run × List Byte => q.1.s) (.cacheRead hr)
    (.iteOn (fun q : Run × List Byte => q.1.s) (.readAt hr) (.readAt hr)))

/-! ### Slots and Valley pages (R287, R306, R430) -/

section
variable (hs : Housework s₀ s)
include hs

theorem Housework.addHeld {tag n : Nat} {up : Bool} : Housework s₀ (addHeld s h tag up n) := .wr hs

theorem Housework.tagSlots {i n tag : Nat} : Housework s₀ (tagSlots s h i n tag) := .store hs

theorem Housework.freeSlot {i k : Nat} : Housework s₀ (freeSlot s h i k) :=
  .ite (.upd hs) (.foldl hs fun _ _ ht => .ite ht (.inc (.addHeld (.tagSlots ht))))

theorem Housework.freeValleyPage {p v : Nat} : Housework s₀ (freeValleyPage s h p v) := .upd hs

theorem Housework.takeGen {p : Nat} : Housework s₀ (takeGen s h p).2 := .wr hs

theorem Housework.writePage {slot : Nat} {data : List Byte} : Housework s₀ (writePage s h slot data) := .store hs

variable {r : Request}

omit h
theorem Housework.setEntry {l g j : Nat} {e : Entry} : Housework s₀ (setEntry s r l g j e) := .store hs

theorem Housework.setLen {l v : Nat} : Housework s₀ (setLen s r l v) := .store hs

theorem Housework.touchLayer {l : Nat} : Housework s₀ (touchLayer s r l) := .store hs

theorem Housework.copyHeld {q : Nat × Nat × Nat} {slot : Nat} : Housework s₀ (copyHeld s r q slot) :=
  .freeSlot (.setEntry (.writePage hs))

theorem Housework.freeSlots {l : List Nat} {h : Half} {k : Nat} : Housework s₀ (l.foldl (fun t i => Machine.freeSlot t h i k) s) :=
  .foldl hs fun _ _ ht => .freeSlot ht

theorem Housework.setPins {b : List Byte} {pin : Bool} : Housework s₀ (setPins s r b pin).1 :=
  .foldlOn Prod.fst hs fun _ _ ha => .iteOn Prod.fst (.setEntry ha) ha

end

/-! ### Rows that an ALLOC writes (R299) and that a ROLLBACK moves (R326) -/

section
variable {r : Request} {x : Context} {b : List Byte} {slot g : Nat}

theorem Housework.allocRow {p : Nat} {v : Run} (hv : Housework s₀ v.s) : Housework s₀ (allocRow x r b slot g p v).s := by
  unfold Machine.allocRow
  extract_lets +onlyGivenNames m d e aux fmt z heads row pre k rk rv
  have hrv : Housework s₀ rv.1.s := .runRead (.runRead hv)
  refine .iteOn Run.s ?_ (.bump (.inc (.bump (.inc (.foldl (.store ?_) fun _ _ ht => .store ht)))))
  · exact .iteOn (fun q : Run × List Byte => q.1.s) (.runRead hrv) hrv
  · exact .iteOn (fun q : Run × List Byte => q.1.s) (.runRead hrv) hrv

theorem Housework.allocRows {l : List Nat} {v : Run} (hv : Housework s₀ v.s) : Housework s₀ (allocRows x r b slot g l v).2.s := by
  induction l generalizing v with
  | nil => exact hv
  | cons p rest ih =>
    have hrow : Housework s₀ (if v.fail.isSome then v else Machine.allocRow x r b slot g p v).s := .iteOn Run.s hv (.allocRow hv)
    rw [Machine.allocRows]
    exact .iteOn (fun q : Nat × Run => q.2.s) hrow (ih hrow)

theorem Housework.appendReach {v : Run} (hv : Housework s₀ v.s) : Housework s₀ (appendReach r slot v).s :=
  .iteOn Run.s hv (.refusePage hv)

theorem Housework.moveRow (hs : Housework s₀ s) {l : Nat} {q : Nat × Nat} : Housework s₀ (moveRow r l g s q) :=
  .ite (.foldl (.store hs) fun _ _ ht => .store ht) hs

end

/-! ### Pause records (R323, R325) -/

section
variable {r : Request} {pack : Bool}

theorem Housework.recordPage {key : Option Nat} {o : RecOut} (ho : Housework s₀ o.s) {q : Nat × Nat × Nat} :
    Housework s₀ (recordPage r pack key o q).s := by
  refine .iteOn RecOut.s ho ?_
  cases key with
  | none => exact ho
  | some k => exact .takeGen ho

theorem Housework.pauseRecord (hs : Housework s₀ s) {key : Option Nat} {l : List (Nat × Nat × Nat)} :
    Housework s₀ (pauseRecord s r pack key l).1.s := by
  have ho : Housework s₀ (l.foldl (Machine.recordPage r pack key) ⟨s, [], [], 0, 0⟩).s := .foldlOn RecOut.s hs fun _ _ ht => .recordPage ht
  cases key with
  | none => exact ho
  | some k => exact .takeGen ho

theorem Housework.readRecord (hs : Housework s₀ s) {c : Chain} : Housework s₀ (readRecord s c r).s :=
  .iteOn RecIn.s (.readAt hs) (.iteOn id (.readAt hs) (.readAt (.readAt hs)))

theorem Housework.recordData {c : Chain} {k : Nat} {l : List RecDesc} {a : State × Nat × List (Option (List Byte))}
    (ha : Housework s₀ a.1) : Housework s₀ (recordData c r pack k l a).1 := by
  induction l generalizing k a with
  | nil => exact ha
  | cons d rest ih =>
    rw [Machine.recordData]
    exact .iteOn Prod.fst (ih ha) (ih (.readAt ha))

theorem Housework.restorePage {a : State × List Nat} (ha : Housework s₀ a.1) {p : RecDesc × Option (List Byte)} :
    Housework s₀ (restorePage r a p).1 := by
  unfold Machine.restorePage
  dsimp only
  split
  · exact .setEntry ha
  · exact .setEntry (.writePage (.inc (.inc ha)))
  · exact ha

theorem Housework.evictLost (hs : Housework s₀ s) {kept : List (Nat × Nat × Nat)} : Housework s₀ (evictLost s r kept) :=
  .foldl hs fun _ _ ht => .ite (.setEntry ht) ht

end

theorem Housework.pfxTokens (hs : Housework s₀ s) {c : Chain} : Housework s₀ (pfxTokens s c).2.1 :=
  .iteOn (fun q : Nat × State × List Nat => q.2.1) hs (.readAt hs)

theorem Housework.rollbackList (hs : Housework s₀ s) {c : Chain} : Housework s₀ (rollbackList s c).2.1 :=
  .iteOn (fun q : Nat × State × List Nat => q.2.1) hs (.readAt hs)

end

end Sys2Proof
end

section
/-!
The work of KV_PAGE on pages (§9), which leaves every chain and every request's number (`Paging`): allocation, spills and prefetches,
copies, and the directory of prefixes. It serves O46 and O47.
-/

namespace Sys2Proof

open Machine

set_option Elab.async false

/-- `t` is reached from `s` by work on the pages of requests: the chains are as they were, and no request comes or goes. -/
structure Paging (s t : State) : Prop where
  chains : t.chains = s.chains
  nums : t.requests.map Request.num = s.requests.map Request.num

section
variable {s₀ s t : State} {h : Half} {r : Request}

theorem Paging.refl (s : State) : Paging s s := ⟨rfl, rfl⟩

theorem Paging.trans {u : State} (h1 : Paging s t) (h2 : Paging t u) : Paging s u :=
  ⟨h2.chains.trans h1.chains, h2.nums.trans h1.nums⟩

theorem Paging.upd (hs : Paging s₀ s) (e : t.chains = s.chains ∧ t.requests = s.requests := by exact ⟨rfl, rfl⟩) : Paging s₀ t :=
  hs.trans ⟨e.1, congrArg _ e.2⟩

theorem Paging.work (hs : Paging s₀ s) (hw : Housework s t) : Paging s₀ t := hs.upd ⟨hw.chains, hw.requests⟩

theorem Housework.paging (hw : Housework s t) : Paging s t := .work (.refl s) hw

theorem Paging.iteOn {α : Type} (g : α → State) {a b : α} {c : Prop} [Decidable c] (ha : Paging s₀ (g a)) (hb : Paging s₀ (g b)) :
    Paging s₀ (g (if c then a else b)) := by
  split <;> assumption

theorem Paging.ite {a b : State} {c : Prop} [Decidable c] (ha : Paging s₀ a) (hb : Paging s₀ b) : Paging s₀ (if c then a else b) :=
  .iteOn id ha hb

theorem Paging.foldlOn {α β : Type} (g : β → State) {f : β → α → β} {l : List α} {b : β} (hb : Paging s₀ (g b))
    (hf : ∀ b a, Paging s₀ (g b) → Paging s₀ (g (f b a))) : Paging s₀ (g (l.foldl f b)) :=
  List.foldlRecOn l f hb fun b hb a _ => hf b a hb

theorem Paging.foldl {α : Type} {f : State → α → State} {l : List α} {b : State} (hb : Paging s₀ b)
    (hf : ∀ b a, Paging s₀ b → Paging s₀ (f b a)) : Paging s₀ (l.foldl f b) := .foldlOn id hb hf

theorem Paging.setRequest (hs : Paging s₀ s) {num : Nat} {f : Request → Request}
    (hf : ∀ q, (f q).num = q.num := by exact fun _ => rfl) : Paging s₀ (setRequest s num f) := by
  refine hs.trans ⟨rfl, ?_⟩
  show (s.requests.map _).map _ = _
  rw [List.map_map]
  refine List.map_congr_left fun q _ => ?_
  show Request.num (if _ then _ else q) = q.num
  split
  · exact hf q
  · rfl

/-- A request of a number is still there. -/
theorem Paging.mem_requests (hw : Paging s t) {num : Nat} (hr : s.request num = some r) : ∃ q ∈ t.requests, q.num = r.num :=
  List.mem_map.mp (hw.nums ▸ List.mem_map_of_mem (List.mem_of_find?_eq_some hr))

/-- A change of the requests of a number reaches one. -/
theorem Paging.mem_setRequest (hw : Paging s t) {num : Nat} (hr : s.request num = some r) {f : Request → Request}
    (hf : ∀ q, (f q).num = q.num := by exact fun _ => rfl) :
    ∃ q, q.num = r.num ∧ f q ∈ (Machine.setRequest t r.num f).requests ∧ (f q).num = r.num := by
  obtain ⟨q, hq, hn⟩ := hw.mem_requests hr
  exact ⟨q, hn, List.mem_map.mpr ⟨q, hq, if_pos hn⟩, (hf q).trans hn⟩

/-! ### Slots, spills and prefetches (R301, R307 to R309, R321) -/

section
variable (hs : Paging s₀ s)
include hs

theorem Paging.dropNode {n : PfxNode} : Paging s₀ (dropNode s n) := by
  have hf : Housework s (n.slots.foldl (fun t i => freeSlot t n.half i n.slotLog2) s) := .freeSlots (.refl s)
  unfold Machine.dropNode
  dsimp only
  split
  · exact .upd (hs.work (.freeSlot hf))
  · exact .upd (hs.work hf)

theorem Paging.addTransfer {x : Transfer} : Paging s₀ (addTransfer s x) := by
  unfold Machine.addTransfer
  split
  next u hu =>
    have ht : Housework s u := OnSome.get (.ite .none (takeGranules_housework (.refl s))) hu
    exact .upd (hs.work ht)
  · extract_lets u
    have hu : Housework s u := .waitGranules (.refl s)
    clear_value u
    exact .upd (hs.work hu)

theorem startSpill_paging {l g j : Nat} {waiters : List Nat} : OnSome (Paging s₀) (startSpill s r l g j waiters) := by
  unfold startSpill
  dsimp only
  split
  · exact .none
  · exact .some (.addTransfer (.upd hs))

theorem autoSpill_paging {p : Nat} : OnSome (Paging s₀) (autoSpill s h p) := by
  unfold autoSpill
  refine .ite ?_ .none
  split
  · exact startSpill_paging hs
  · exact .none

theorem takeFree_paging : OnSome (fun q => Paging s₀ q.2) (takeFree s r) := .ite (.mapAny fun _ => .upd hs) .none

theorem takeReclaimed_paging {n : Nat} : OnSome (fun q => Paging s₀ q.2) (takeReclaimed n s r) := by
  induction n generalizing s with
  | zero => exact .none
  | succ n ih =>
    rw [takeReclaimed]
    refine .ite .none ?_
    split
    · exact .none
    next d _ =>
      dsimp only
      split
      next p hp => exact .some (takeFree_paging hs.dropNode p hp)
      · exact ih hs.dropNode

theorem Paging.enqueueWait : Paging s₀ (enqueueWait s r) := .ite hs (.upd hs)

theorem takeVictim_paging : Paging s₀ (takeVictim s r).state := by
  unfold takeVictim
  split
  · exact .iteOn SlotRes.state (.enqueueWait (.upd hs)) (.upd hs)
  · exact .upd hs

theorem allocSlot_paging : Paging s₀ (allocSlot s r).state := by
  unfold allocSlot
  split
  · exact .iteOn SlotRes.state (.upd hs) hs
  · split
    next p hp => exact .upd (OnSome.get (P := fun q : Nat × State => Paging s₀ q.2) (.ite .none (takeFree_paging hs)) hp)
    · split
      next p hp => exact .upd (OnSome.get (P := fun q : Nat × State => Paging s₀ q.2) (.ite .none (takeReclaimed_paging hs)) hp)
      · refine .iteOn SlotRes.state (.enqueueWait hs) ?_
        split
        next t ht => exact .enqueueWait (autoSpill_paging hs t ht)
        · exact takeVictim_paging hs

/-- Whatever an allocation answers, its state is reached by work on pages. -/
theorem Paging.allocated {a : SlotRes} (ha : allocSlot s r = a) : Paging s₀ a.state := ha ▸ allocSlot_paging hs

theorem Paging.startFetch {l g j slot prio : Nat} {waiters : List Nat} : Paging s₀ (startFetch s r l g j slot prio waiters) :=
  .addTransfer (.upd hs)

theorem Paging.freePage {l g j : Nat} : Paging s₀ (freePage s r l g j) := by
  have hf : Paging s₀ (freeHeldBy s r l g j) :=
    .ite (.ite (.ite (hs.work (.freeSlot (.refl s))) hs) (.ite (.upd hs) (.ite (.upd hs) hs))) hs
  exact hf.work (.setEntry (.refl _))

theorem Paging.freePages {l : List (Nat × Nat × Nat)} : Paging s₀ (l.foldl (fun t q => Machine.freePage t r q.1 q.2.1 q.2.2) s) :=
  .foldl hs fun _ _ ht => .freePage ht

end

/-- The transfer of a page started in whatever slot an allocation gives, or the list left where none is to be had. -/
theorem Paging.startFetches {c : Chain} {wait : Bool} {n : Nat} {l : List (Nat × Nat × Nat)} {a : State × List (Nat × Nat)}
    (ha : Paging s₀ a.1) : Paging s₀ (startFetches c r wait n l a).1 := by
  induction l generalizing n a with
  | nil => exact ha
  | cons q rest ih =>
    rw [Machine.startFetches]
    refine .iteOn Prod.fst (ih (.upd ha)) (.iteOn Prod.fst (ih ha) (.iteOn Prod.fst (ih ha) (.iteOn Prod.fst (ih ha) ?_)))
    split
    next slot t ht => exact ih (.startFetch (ha.allocated ht))
    next t ht => exact ha.allocated ht
    next t ht => exact ih (ha.allocated ht)

theorem Paging.startSpills {c : Chain} {l : List (Nat × Nat × Nat)} {a : State × Nat} (ha : Paging s₀ a.1) :
    Paging s₀ (startSpills c r l a).1 := by
  induction l generalizing a with
  | nil => exact ha
  | cons q rest ih =>
    rw [Machine.startSpills]
    refine .iteOn Prod.fst (ih ha) (.iteOn Prod.fst ha (.iteOn Prod.fst ha (.iteOn Prod.fst ha
      (.iteOn Prod.fst (ha.work (.refusePage (.refl _))) ?_))))
    split
    next t ht => exact ih (startSpill_paging ha t ht)
    · exact ha

theorem Paging.lookAhead {l : List (Nat × Nat × Nat)} (hs : Paging s₀ s) : Paging s₀ (lookAhead r l s).1 := by
  induction l generalizing s with
  | nil => exact hs
  | cons q rest ih =>
    rw [Machine.lookAhead]
    refine .iteOn Prod.fst (ih hs) (.iteOn Prod.fst hs ?_)
    split
    next slot t ht => exact ih (.startFetch (hs.allocated ht))
    next t ht => exact hs.allocated ht
    next t ht => exact hs.allocated ht

theorem Paging.needPages {c : Chain} {l : List (Nat × Nat × Nat)} (hs : Paging s₀ s) : Paging s₀ (needPages c r l s).1 := by
  unfold Machine.needPages
  extract_lets away q
  have hq : Paging s₀ q.1 := .startFetches hs
  exact .iteOn Prod.fst hs (.iteOn Prod.fst hq hq)

/-! ### ALLOC (R298, R303) -/

section
variable {b : List Byte}

theorem Paging.allocSlotFor {o : AllocOut} (ho : Paging s₀ o.s) {n : Nat} {q : Nat × Nat × Nat} :
    Paging s₀ (allocSlotFor o r b n q).1.s := by
  unfold Machine.allocSlotFor
  dsimp only
  refine .iteOn (fun q : AllocOut × Option (Option Nat) => q.1.s) ?_ (.iteOn (fun q : AllocOut × Option (Option Nat) => q.1.s) ?_ ho)
  · split
    next slot t ht => exact .upd (ho.allocated ht)
    next t ht => exact ho.allocated ht
    next t ht => exact ho.allocated ht
  · split
    next slot t ht => exact (ho.allocated ht).work (.copyHeld (.refl _))
    next t ht => exact ho.allocated ht
    next t ht => exact ho.allocated ht

theorem Paging.allocPages {x : Option Context} {n : Nat} {l : List (Nat × Nat × Nat)} {o : AllocOut} (ho : Paging s₀ o.s) :
    Paging s₀ (allocPages x r b n l o).s := by
  induction l generalizing n o with
  | nil => exact ho
  | cons q rest ih =>
    have h1 : Paging s₀ (Machine.allocSlotFor o r b n q).1.s := .allocSlotFor ho
    rw [Machine.allocPages]
    split
    · exact h1
    · extract_lets o1 u s1 e fill
      have hu : Housework o1.s u.2.s := by
        unfold u
        split
        · exact .allocRows (.appendReach (.touchLayer (.refl _)))
        · exact .touchLayer (.refl _)
      have hs1 : Paging s₀ s1 := .setRequest (h1.work hu)
      split
      · exact hs1
      · exact ih (.upd hs1)

/-- Without a context no row is written, so no access of an ALLOC fails. -/
theorem allocPages_fail_none {n : Nat} {l : List (Nat × Nat × Nat)} {o : AllocOut} (ho : o.fail = none) :
    (allocPages none r b n l o).fail = none := by
  have hslot {o : AllocOut} {n : Nat} {q : Nat × Nat × Nat} : (Machine.allocSlotFor o r b n q).1.fail = o.fail := by
    unfold Machine.allocSlotFor
    dsimp only
    split_ifs
    · split <;> rfl
    · split <;> rfl
    · rfl
    · rfl
  induction l generalizing n o with
  | nil => exact ho
  | cons q rest ih =>
    rw [Machine.allocPages]
    split
    · exact hslot.trans ho
    · exact ih (hslot.trans ho)

theorem Paging.allocClose {ok : Bool} {done part : Nat} {pages : List Nat} (hs : Paging s₀ s) :
    Paging s₀ (allocClose s r b ok done part pages).1 :=
  .foldlOn Prod.fst hs fun _ _ ht => .foldlOn Prod.fst (.upd ht) fun _ _ hu =>
    .iteOn Prod.fst hu (.iteOn Prod.fst (.upd hu) (.iteOn Prod.fst (.freePage hu) hu))

end

/-! ### ROLLBACK (R326) and RESUME (R325) -/

theorem Paging.ownCopies {rewritten : Nat → Bool} {l : List (Nat × Nat × Nat)} (hs : Paging s₀ s) :
    Paging s₀ (ownCopies r rewritten l s).1 := by
  induction l generalizing s with
  | nil => exact hs
  | cons q rest ih =>
    rw [Machine.ownCopies]
    refine .iteOn Prod.fst (ih hs) ?_
    split
    next slot t ht => exact .iteOn Prod.fst (ih (.upd (hs.allocated ht))) (ih ((hs.allocated ht).work (.copyHeld (.refl _))))
    next t ht => exact hs.allocated ht
    next t ht => exact hs.allocated ht

theorem Paging.rollbackLayer {pos0 l : Nat} {offs : List Nat} {a : State × Nat} (ha : Paging s₀ a.1) :
    Paging s₀ (rollbackLayer r pos0 offs a l).1 := by
  have hmove : Housework a.1 ((List.range (mapNKV r.header)).foldl (fun t g => (rowMoves pos0 offs).foldl (moveRow r l g) t) a.1) :=
    .foldl (.refl _) fun _ _ ht => .foldl ht fun _ _ hu => .moveRow hu
  exact .work (.foldl (.freePages (ha.work hmove)) fun _ _ ht => .ite (.upd ht) ht) (.setLen (.refl _))

theorem Paging.resumeSlots {n : Nat} {a : State × List Nat} (ha : Paging s₀ a.1) : Paging s₀ (resumeSlots r n a).1 := by
  induction n generalizing a with
  | zero => exact ha
  | succ n ih =>
    rw [Machine.resumeSlots]
    split
    next slot t ht => exact ih (ha.allocated ht)
    next t ht => exact ha.allocated ht
    next t ht => exact ha.allocated ht

/-- The pages of a record restored, before its request is OPEN again. -/
theorem restored_paging {i : RecIn} {l : List (RecDesc × Option (List Byte))} {slots : List Nat} (hs : Paging s₀ s) {a : Nat}
    {b : List Byte} : Paging s₀ (evictLost (l.foldl (restorePage r) (s.store a b, slots)).1 r (i.descs.map (·.q))) :=
  hs.work (.evictLost (.foldlOn Prod.fst (.store (.refl s)) fun _ _ ht => .restorePage ht))

/-! ### Prefixes (R318 to R321) -/

section
variable (hs : Paging s₀ s)
include hs

theorem Paging.takeRef {idx : Nat} : Paging s₀ (takeRef s r idx) := .setRequest (.upd hs)

theorem Paging.countChunk {hit collide : Bool} : Paging s₀ (countChunk s h hit collide) := .ite (.upd hs) (.ite (.upd hs) (.upd hs))

theorem Paging.mapNode {n : PfxNode} {chunk : Nat} : Paging s₀ (mapNode s r n chunk) := .foldl hs fun _ _ ht => .upd ht

theorem Paging.pfxWalk {ns key fuel c prev : Nat} {parent : Option Nat} {l : List Nat} :
    Paging s₀ (pfxWalk r ns key fuel c prev parent l s).1 := by
  induction fuel generalizing s c prev parent l with
  | zero => exact hs
  | succ fuel ih =>
    rw [Machine.pfxWalk]
    refine .iteOn Prod.fst hs ?_
    dsimp only
    split
    · exact .countChunk hs
    · exact ih (.takeRef (.mapNode (.countChunk hs)))

theorem Paging.copyLeaf {leaf : PfxNode} {chunk i : Nat} {l : List (Nat × Nat)} : Paging s₀ (copyLeaf r leaf chunk i l s).1 := by
  induction l generalizing s i with
  | nil => exact hs
  | cons p rest ih =>
    rw [Machine.copyLeaf]
    split
    next slot t ht => exact ih (.upd (hs.allocated ht))
    next t ht => exact hs.allocated ht
    next t ht => exact hs.allocated ht

omit hs
theorem takeNs_paging {ns k n : Nat} {a : State × List Nat} (ha : Paging s₀ a.1) : OnSome (fun q => Paging s₀ q.1) (takeNs h ns k n a) := by
  induction n generalizing a with
  | zero => exact .some ha
  | succ n ih =>
    rw [takeNs]
    refine .ite .none ?_
    split
    · exact .none
    · exact ih (.upd ha)

theorem withReclaim_paging {ns n : Nat} {stay : Option Nat} {f : State → Option State} {q : State × Bool}
    (he : withReclaim h ns stay f n s = q) (hf : ∀ u, Paging s₀ u → OnSome (Paging s₀) (f u)) (hs : Paging s₀ s) : Paging s₀ q.1 := by
  subst he
  induction n generalizing s with
  | zero =>
    rw [withReclaim]
    split
    next t ht => exact hf s hs t ht
    · exact hs
  | succ n ih =>
    rw [withReclaim]
    split
    next t ht => exact hf s hs t ht
    · split
      · exact ih hs.dropNode
      · exact hs

include hs
theorem Paging.retag {ns p k : Nat} {l : List Nat} : Paging s₀ (retag s h ns p k l) := .ite hs (.foldl hs fun _ _ ht => .upd ht)

theorem Paging.shareChunk {ns chunk : Nat} : Paging s₀ (shareChunk s r ns chunk) := .foldl hs fun _ _ ht => .upd ht

/-- A node joins the directory, its page list in a slot. -/
theorem Paging.listNode {i : Nat} {l : List Nat} {n : PfxNode} {k : Half} :
    Paging s₀ (refreshNodes { writeList s h i l with nodes := (writeList s h i l).nodes ++ [n] } k) := .upd hs

theorem insertNode_paging {ns hash check chunk : Nat} {parent : Option Nat} {l : List Nat} :
    OnSome (Paging s₀) (insertNode r ns hash check chunk parent l s) := by
  unfold insertNode
  dsimp only
  split
  · exact .none
  · refine .ite .none (.map (Q := fun q => Paging s₀ q.1) (takeNs_paging hs) fun q hq => ?_)
    exact .takeRef (.shareChunk (.listNode (.retag hq)))

theorem insertLeaf_paging {ns check chunk : Nat} {parent : Option Nat} {l : List Nat} :
    OnSome (Paging s₀) (insertLeaf r ns check chunk parent l s) := by
  unfold insertLeaf
  dsimp only
  refine .ite .none ?_
  split
  · exact .none
  · refine .bind (Q := fun q => Paging s₀ q.1) (takeNs_paging hs) fun q hq => ?_
    refine .map (Q := fun q => Paging s₀ q.1) (takeNs_paging (a := (q.1, [])) hq) fun u hu => ?_
    exact .listNode (.foldl hu fun _ _ hv => .upd hv)

theorem Paging.leafRoom {ns : Nat} {parent : Option Nat} : Paging s₀ (leafRoom s h ns parent) := by
  refine .ite hs ?_
  split
  · exact .dropNode hs
  · exact hs

omit hs
theorem Paging.insertWalk {ns key fuel c prev : Nat} {parent : Option Nat} {l : List Nat} {a : State × Nat} (ha : Paging s₀ a.1) :
    Paging s₀ (insertWalk r ns key fuel c prev parent l a).1 := by
  induction fuel generalizing c prev parent l a with
  | zero => exact ha
  | succ fuel ih =>
    rw [Machine.insertWalk]
    dsimp only
    refine .iteOn Prod.fst ha (.iteOn Prod.fst ?_ ?_)
    · split
      next u he => exact withReclaim_paging he (fun _ hu => insertLeaf_paging hu) (.leafRoom ha)
      next u he => exact withReclaim_paging he (fun _ hu => insertLeaf_paging hu) (.leafRoom ha)
    · split
      · exact ih (.upd ha)
      · exact ih (.upd ha)
      · split
        next u he => exact withReclaim_paging he (fun _ hu => insertNode_paging hu) (.ite (.upd ha) ha)
        next u he => exact ih (withReclaim_paging he (fun _ hu => insertNode_paging hu) (.ite (.upd ha) ha))

end

end

end Sys2Proof
end

section
/-!
The subops of KV_PAGE (R298 to R326): O46.
-/

namespace Sys2Proof

open Machine

set_option Elab.async false

/-! ### A KV_PAGE in a ring's place -/

/-- A KV_PAGE stands in the ring's place, admitted and running, with its request. -/
structure KvAt (s : State) (h : Half) (ring seq : Nat) (c : Chain) (r : Request) : Prop where
  found : s.chain h ring seq = some c
  running : c.running = true
  opcode : hdOpcode c.head = opKV_PAGE
  request : c.requestNum.bind s.request = some r

/-- The commands of KV_PAGE, each with its subop. -/
def kvKinds (h : Half) (ring seq : Nat) : List (Nat × Instr) :=
  [(0, .kvAlloc h ring seq), (1, .kvFree h ring seq), (2, .kvPin h ring seq), (3, .kvUnpin h ring seq), (4, .kvSpill h ring seq),
    (5, .kvPrefetch h ring seq), (6, .kvRollback h ring seq), (7, .kvPause h ring seq), (8, .kvResume h ring seq),
    (9, .kvPrefixLookup h ring seq), (10, .kvPrefixInsert h ring seq)]

section
variable {s : State} {h : Half} {ring seq : Nat}

/-- Each command of KV_PAGE runs its subop. -/
theorem exec_kvKind {k : Nat × Instr} (hk : k ∈ kvKinds h ring seq) : ∃ f, exec k.2 s = kvRun s h ring seq k.1 f := by
  simp only [kvKinds, List.mem_cons, List.not_mem_nil, or_false] at hk
  obtain rfl | rfl | rfl | rfl | rfl | rfl | rfl | rfl | rfl | rfl | rfl := hk
  · exact ⟨_, rfl⟩
  · exact ⟨_, rfl⟩
  · exact ⟨_, rfl⟩
  · exact ⟨_, rfl⟩
  · exact ⟨_, rfl⟩
  · exact ⟨_, rfl⟩
  · exact ⟨_, rfl⟩
  · exact ⟨_, rfl⟩
  · exact ⟨_, rfl⟩
  · exact ⟨_, rfl⟩
  · exact ⟨_, rfl⟩

theorem kvRun_idle (hn : ∀ c, s.chain h ring seq = some c → c.running = true → hdOpcode c.head ≠ opKV_PAGE) (sub : Nat)
    (f : Chain → Request → State) : kvRun s h ring seq sub f = .next s := by
  unfold kvRun
  cases hc : s.chain h ring seq with
  | none =>
    show runChain s h ring seq opKV_PAGE _ = _
    unfold runChain
    rw [hc]
  | some c =>
    refine runChain_idle hc ?_ _
    cases hr : c.running with
    | false => exact .inl rfl
    | true => exact .inr (hn c hc hr)

end

section
variable {s u : State} {h : Half} {ring seq sub : Nat} {c : Chain} {r : Request} {f : Chain → Request → State}

theorem KvAt.mem (hk : KvAt s h ring seq c r) : c ∈ s.chains := List.mem_of_find?_eq_some hk.found

theorem KvAt.undone (hk : KvAt s h ring seq c r) : c.done = false := done_of_running hk.running

theorem KvAt.asked (hk : KvAt s h ring seq c r) : ∃ num, s.request num = some r :=
  have ⟨num, _, hr⟩ := Option.bind_eq_some_iff.mp hk.request
  ⟨num, hr⟩

theorem KvAt.other (hk : KvAt s h ring seq c r) (hs : kvSub c.head ≠ sub) : kvRun s h ring seq sub f = .next s :=
  (runChain_runs hk.found hk.running hk.opcode _).trans (congrArg _ (if_pos hs))

theorem KvAt.paused (hk : KvAt s h ring seq c r) (hs : kvSub c.head = sub) (hp : r.paused = true) (h8 : sub ≠ 8) :
    kvRun s h ring seq sub f = .next (endChain s c ST_KV_PAUSED) := by
  refine (runChain_runs hk.found hk.running hk.opcode _).trans (congrArg _ ((if_neg (not_not.mpr hs)).trans ?_))
  simp only [hk.request]
  exact if_pos ⟨hp, h8⟩

theorem KvAt.runs (hk : KvAt s h ring seq c r) (hs : kvSub c.head = sub) (hp : r.paused = false ∨ sub = 8) :
    kvRun s h ring seq sub f = .next (f c r) := by
  refine (runChain_runs hk.found hk.running hk.opcode _).trans (congrArg _ ((if_neg (not_not.mpr hs)).trans ?_))
  simp only [hk.request]
  exact if_neg fun hn => hp.elim (by simp [hn.1]) hn.2

/-! ### How a command leaves its chain -/

/-- A command completes with its chain in a state of which `p` holds. -/
def Leads (k : Instr) (s : State) (c : Chain) (p : State → Chain → Prop) : Prop :=
  Gives k s fun t => ∃ d ∈ t.chains, d.readNo = c.readNo ∧ p t d

/-- A command ends its chain with a status, unless an earlier one stands, and a DETAIL. -/
def EndsAs (k : Instr) (s : State) (c : Chain) (status detail : Nat) : Prop :=
  Leads k s c fun _ d => d.done = true ∧ d.status = (c.finish status).status ∧ d.detail = detail

/-- A command ends its chain with a status, unless an earlier one stands, and no byte of memory changes. -/
def Ended (k : Instr) (s : State) (c : Chain) (status : Nat) : Prop :=
  Leads k s c fun t d => SameMem s t ∧ d.done = true ∧ d.status = (c.finish status).status

variable {k : Instr} {status detail : Nat}

theorem finish_readNo (c : Chain) (status : Nat) : (c.finish status).readNo = c.readNo := congrArg Prod.fst (ident_finish c status)

theorem Leads.of_onChain {p : State → Chain → Prop} {g : Chain → Chain} (hw : Paging s u) (hm : c ∈ s.chains)
    (he : exec k s = .next (onChain u c g)) (hp : p (onChain u c g) (g c)) (hn : (g c).readNo = c.readNo := by rfl) : Leads k s c p :=
  ⟨_, he, g c, (setChain_holds (hw.chains ▸ hm) g).1, hn, hp⟩

theorem EndsAs.of_endDetail (hw : Paging s u) (hm : c ∈ s.chains) (he : exec k s = .next (endDetail u c status detail)) :
    EndsAs k s c status detail :=
  ⟨_, he, _, mem_endDetail (hw.chains ▸ hm) status detail, finish_readNo c status, finish_done c status, rfl, rfl⟩

theorem Ended.of_endDetail (hm : c ∈ s.chains) (he : exec k s = .next (endDetail s c status detail)) : Ended k s c status :=
  ⟨_, he, _, mem_endDetail hm status detail, finish_readNo c status, .refl s, finish_done c status, rfl⟩

theorem Ended.of_endChain (hm : c ∈ s.chains) (he : exec k s = .next (endChain s c status)) : Ended k s c status :=
  ⟨_, he, _, (setChain_holds hm _).1, finish_readNo c status, .refl s, finish_done c status, rfl⟩

theorem onChain_onChain {f g : Chain → Chain} (hf : ∀ d, (f d).readNo = d.readNo := by exact fun _ => rfl) :
    onChain (onChain u c f) c g = onChain u c fun d => g (f d) := by
  show ({ u with chains := (u.chains.map _).map _ } : State) = { u with chains := u.chains.map _ }
  rw [List.map_map]
  refine congrArg (fun l => ({ u with chains := l } : State)) (List.map_congr_left fun d _ => ?_)
  by_cases hd : d.readNo = c.readNo
  · simp [hd, hf]
  · simp [hd]

/-- What ends a chain writes only its end and its status. -/
theorem finish_eq (c : Chain) (status : Nat) : c.finish status = { c with done := true, status := (c.finish status).status } := by
  unfold Chain.finish
  split
  next hd => rw [← hd]
  · rfl

theorem finish_detail (c : Chain) (status : Nat) : (c.finish status).detail = c.detail := by rw [finish_eq]

theorem finish_status_congr {d : Chain} (hd : d.done = c.done) (hst : d.status = c.status) :
    (d.finish status).status = (c.finish status).status := by
  unfold Chain.finish
  rw [hd, hst]
  split
  · exact hst
  · rfl

/-- A chain ended whose DETAIL, mark and notes of pages have been written before. -/
theorem EndsAs.of_closed (hw : Paging s u) (hm : c ∈ s.chains) (he : exec k s = .next (onChain u c fun d =>
    { d with detail := detail, checked := false, run := [] }.finish status)) : EndsAs k s c status detail := by
  refine Leads.of_onChain hw hm he ?_ (finish_readNo _ _)
  exact ⟨finish_done _ _, finish_status_congr rfl rfl, finish_detail _ _⟩

theorem fail_readNo (c : Chain) (status : Nat) : (c.fail status).readNo = c.readNo := by
  unfold Chain.fail
  split <;> rfl

theorem fail_done (c : Chain) (status : Nat) : (c.fail status).done = c.done := by
  unfold Chain.fail
  split <;> rfl

/-! ### ALLOC (R298, R299, R303) -/

/-- A chain without contexts and without a collective operation, that has failed, is over with its status. -/
theorem settleChain_failed (hn : ctxsOf u c.readNo = []) (hk : collOf u c.readNo = none) (hm : c ∈ u.chains) (hd : c.done = false)
    (hst : c.status ≠ ST_OK) : SameMem u (settleChain u c.readNo) ∧
      ∃ d ∈ (settleChain u c.readNo).chains, d.readNo = c.readNo ∧ d.done = true ∧ d.status = c.status := by
  have hstands : (c.finish c.status).status = c.status := by
    unfold Chain.finish
    split
    · rfl
    · exact ite_self _
  unfold settleChain
  rw [if_neg (by simpa [ctxsOf] using hn), hk]
  refine ⟨.refl u, _, List.mem_map_of_mem hm, ?_⟩
  rw [if_pos ⟨rfl, hd⟩]
  split
  · simp only [if_neg hst]
    exact ⟨finish_readNo c _, finish_done c _, hstands⟩
  · exact ⟨finish_readNo c _, finish_done c _, hstands⟩

section
variable (hk : KvAt s h ring seq c r) (hs : kvSub c.head = 0) (hp : r.paused = false)
include hk hs hp

/-- Pages that an ALLOC may not use fail a chain that has no context, and that no operation runs for, with ST_KV_STATE. -/
theorem kvAlloc_refused (hc : c.checked = false) (hq : ∃ q ∈ allocCover r.header c.head, allocPageOk s r c.head q = false)
    (hst : c.status = ST_OK) (hx : ∀ x ∈ s.contexts, x.chainNo ≠ some c.readNo) (hcoll : collOf s c.readNo = none) :
    Ended (.kvAlloc h ring seq) s c ST_KV_STATE := by
  have hnone : ctxsOf s c.readNo = [] := List.filter_eq_nil_iff.mpr fun x hm => by simpa using hx x hm
  have hfail : c.fail ST_KV_STATE = { c with status := ST_KV_STATE } := if_neg (by simp [hst]; decide)
  have hfinish : (c.finish ST_KV_STATE).status = ST_KV_STATE := by
    unfold Chain.finish
    rw [if_neg (by simp [hk.undone]), if_neg (by simp [hst]; decide)]
  have hall : ((allocCover r.header c.head).all fun q => allocPageOk s r c.head q) = false := by simpa using hq
  have hm : c.fail ST_KV_STATE ∈ (onChain s c fun d => d.fail ST_KV_STATE).chains := (setChain_holds hk.mem fun d => d.fail ST_KV_STATE).1
  rw [hfail] at hm
  obtain ⟨hmem, d, hd, hno, hdone, hds⟩ := 
    settleChain_failed (u := onChain s c fun d => d.fail ST_KV_STATE) (c := { c with status := ST_KV_STATE }) hnone hcoll hm hk.undone
      (show ST_KV_STATE ≠ ST_OK by decide)
  have hrun : endContexts (onChain s c fun d => d.fail ST_KV_STATE) c =
      settleChain (onChain s c fun d => d.fail ST_KV_STATE) c.readNo := by
    show settleChain ((ctxsOf s c.readNo).foldl _ _) _ = _
    rw [hnone]
    rfl
  exact ⟨_, (hk.runs hs (.inl hp)).trans (congrArg _ ((if_pos ⟨hc, hall⟩).trans hrun)), d, hd, hno, hmem, hdone,
    hds.trans hfinish.symm⟩

/-- What an ALLOC has done before it waits or ends. -/
def allocOut (s : State) (c : Chain) (r : Request) (x : Option Context) : AllocOut :=
  allocPages x r c.head c.work ((allocCover r.header c.head).drop c.work) ⟨s, c.work, 0, c.run, false, ST_OK, none⟩

omit hs hp hk in
theorem allocOut_paging (x : Option Context) : Paging s (allocOut s c r x).s := .allocPages (.refl s)

/-- The context whose ALLOC goes on. -/
def allocCtx (s : State) (c : Chain) : Option Context :=
  if kpAddr c.head = 0 then none else (ctxsOf s c.readNo).find? fun y => y.read

variable (hq : c.checked = true ∨ ∀ q ∈ allocCover r.header c.head, allocPageOk s r c.head q = true)
include hq

/-- The pages of an ALLOC may be used: it goes on from the page that it has reached, once its rows have a context where it has rows. -/
theorem exec_kvAlloc : exec (.kvAlloc h ring seq) s =
    .next (if kpAddr c.head = 0 ∨ allocCtx s c ≠ none then allocGo s c r (allocCtx s c) else s) := by
  refine (hk.runs hs (.inl hp)).trans (congrArg _ ((if_neg ?_).trans ?_))
  · rintro ⟨hc, ha⟩
    rcases hq with hq | hq
    · simp [hq] at hc
    · exact absurd (List.all_eq_true.mpr hq) (by simp [ha])
  · unfold allocCtx
    by_cases ha : kpAddr c.head = 0
    · simp [ha]
    · simp only [if_neg ha]
      cases (ctxsOf s c.readNo).find? fun x => x.read <;> simp [ha]

theorem kvAlloc_idle (ha : kpAddr c.head ≠ 0) (hx : allocCtx s c = none) : Sets (.kvAlloc h ring seq) s [] :=
  sets_of_next ((exec_kvAlloc hk hs hp hq).trans (congrArg _ (if_neg (by simp [ha, hx]))))

theorem kvAlloc_waits (hx : kpAddr c.head = 0 ∨ allocCtx s c ≠ none) (hw : (allocOut s c r (allocCtx s c)).waits = true) :
    Leads (.kvAlloc h ring seq) s c fun _ d =>
      d.checked = true ∧ d.work = (allocOut s c r (allocCtx s c)).done ∧ d.run = (allocOut s c r (allocCtx s c)).made :=
  .of_onChain (allocOut_paging _) hk.mem ((exec_kvAlloc hk hs hp hq).trans (congrArg _ ((if_pos hx).trans (if_pos hw)))) ⟨rfl, rfl, rfl⟩

omit hk hs hp hq in
/-- An ALLOC without rows that does not wait closes: what it made and did not finish goes, and it ends. -/
theorem allocGo_none (hw : (allocOut s c r none).waits = false) :
    let o := allocOut s c r none
    let q := allocClose o.s r c.head (o.status == ST_OK)
      (if o.status = ST_OK then (allocCover r.header c.head).length else o.done) o.part o.made
    allocGo s c r none = onChain q.1 c fun d => { d with detail := q.2, checked := false, run := [] }.finish o.status := by
  intro o q
  have hf : (allocPages none r c.head c.work ((allocCover r.header c.head).drop c.work)
      ⟨s, c.work, 0, c.run, false, ST_OK, none⟩).fail = none := allocPages_fail_none rfl
  refine (if_neg (by simpa [allocOut] using hw)).trans (Eq.trans ?_ (onChain_onChain
    (f := fun d => { d with detail := q.2, checked := false, run := [] }) (g := fun d => d.finish o.status)))
  simp only [hf]
  rfl

theorem kvAlloc_ends (ha : kpAddr c.head = 0) (hw : (allocOut s c r (allocCtx s c)).waits = false) :
    let o := allocOut s c r (allocCtx s c)
    EndsAs (.kvAlloc h ring seq) s c o.status (allocClose o.s r c.head (o.status == ST_OK)
      (if o.status = ST_OK then (allocCover r.header c.head).length else o.done) o.part o.made).2 := by
  have hx : allocCtx s c = none := if_pos ha
  have he := (exec_kvAlloc hk hs hp hq).trans (congrArg _ (if_pos (.inl ha)))
  rw [hx] at hw he ⊢
  rw [allocGo_none hw] at he
  exact .of_closed (.allocClose (allocOut_paging none)) hk.mem he

end

/-! ### FREE, PIN and UNPIN (R300) -/

theorem kvFree_ends (hk : KvAt s h ring seq c r) (hs : kvSub c.head = 1) (hp : r.paused = false) :
    EndsAs (.kvFree h ring seq) s c ST_OK ((kpCover r.header c.head).filter fun q => (entryOf s r q.1 q.2.1 q.2.2).own).length :=
  .of_endDetail (.work (.freePages (.refl s)) (.wakeSlots (.refl _))) hk.mem (hk.runs hs (.inl hp))

theorem kvUnpin_ends (hk : KvAt s h ring seq c r) (hs : kvSub c.head = 3) (hp : r.paused = false) :
    EndsAs (.kvUnpin h ring seq) s c ST_OK (setPins s r c.head false).2 :=
  .of_endDetail (Housework.setPins (.refl s)).paging hk.mem (hk.runs hs (.inl hp))

/-- The pins of a PIN set, once. -/
def pinned (s : State) (c : Chain) (r : Request) : State × Nat := if c.checked then (s, c.progress) else setPins s r c.head true

/-- The prefetches of a PIN, from the page that it has reached. -/
def pinFetches (s : State) (c : Chain) (r : Request) : State × Nat × Bool × List (Nat × Nat) :=
  startFetches c r false c.work ((kpCover r.header c.head).drop c.work) ((pinned s c r).1, c.fails)

theorem pinFetches_paging : Paging s (pinFetches s c r).1 :=
  .startFetches (.iteOn Prod.fst (.refl s) (Housework.setPins (.refl s)).paging)

section
variable (hk : KvAt s h ring seq c r) (hs : kvSub c.head = 2) (hp : r.paused = false)
include hk hs hp

theorem exec_kvPin : exec (.kvPin h ring seq) s =
    .next (let s1 := onChain (pinFetches s c r).1 c fun d =>
        { d with checked := true, progress := (pinned s c r).2, work := (pinFetches s c r).2.1, fails := (pinFetches s c r).2.2.2 }
      if (pinFetches s c r).2.2.1 then s1
      else onChain s1 c fun d => { d.finish (lowestFail (pinFetches s c r).2.2.2) with detail := (pinned s c r).2 }) := by
  refine (hk.runs hs (.inl hp)).trans ?_
  simp only [List.map_id']
  rfl

theorem kvPin_waits (hw : (pinFetches s c r).2.2.1 = true) : Leads (.kvPin h ring seq) s c fun _ d =>
    d.checked = true ∧ d.progress = (pinned s c r).2 ∧ d.work = (pinFetches s c r).2.1 ∧ d.fails = (pinFetches s c r).2.2.2 :=
  .of_onChain pinFetches_paging hk.mem ((exec_kvPin hk hs hp).trans (congrArg _ (if_pos hw))) ⟨rfl, rfl, rfl, rfl⟩

theorem kvPin_ends (hw : (pinFetches s c r).2.2.1 = false) :
    EndsAs (.kvPin h ring seq) s c (lowestFail (pinFetches s c r).2.2.2) (pinned s c r).2 :=
  Leads.of_onChain pinFetches_paging hk.mem
    ((exec_kvPin hk hs hp).trans (congrArg _ ((if_neg (by simp [hw])).trans onChain_onChain)))
    ⟨finish_done _ _, finish_status_congr rfl rfl, rfl⟩ (finish_readNo _ _)

end

/-! ### SPILL and PREFETCH (R310) -/

theorem chainWaits_iff : chainWaits s c = true ↔ ∃ x ∈ s.transfers, c.readNo ∈ x.waiters := by simp [chainWaits]

/-- A transfer command of a chain that its hub engine does not serve next waits. -/
theorem kvSpill_unserved (hk : KvAt s h ring seq c r) (hp : r.paused = false) (hn : servedNext s c = false) :
    Sets (.kvSpill h ring seq) s [] := by
  by_cases hs : kvSub c.head = 4
  · exact sets_of_next ((hk.runs hs (.inl hp)).trans (congrArg _ (if_pos hn)))
  · exact sets_of_next (hk.other hs)

theorem kvPrefetch_unserved (hk : KvAt s h ring seq c r) (hp : r.paused = false) (hn : servedNext s c = false) :
    Sets (.kvPrefetch h ring seq) s [] := by
  by_cases hs : kvSub c.head = 5
  · exact sets_of_next ((hk.runs hs (.inl hp)).trans (congrArg _ (if_pos hn)))
  · exact sets_of_next (hk.other hs)

/-- A chain in a state that waits while some transfer waits on its behalf, and is ended once none does. -/
theorem Leads.of_waits {g f : Chain → Chain} {p : Chain → Prop} (hw : Paging s u) (hm : c ∈ s.chains) (he : exec k s = .next
      (if chainWaits (onChain u c g) c then onChain u c g else onChain (onChain u c g) c f)) (hd : (g c).done = false)
    (hg : ∀ d, (g d).readNo = d.readNo) (hf : (f (g c)).done = true ∧ (f (g c)).readNo = c.readNo) (hp : p (g c)) (hpf : p (f (g c))) :
    Leads k s c fun t d => p d ∧ (d.done = false ↔ ∃ x ∈ t.transfers, c.readNo ∈ x.waiters) := by
  cases hx : chainWaits (onChain u c g) c with
  | true =>
    refine .of_onChain hw hm (he.trans (congrArg _ (if_pos hx))) ⟨hp, ?_⟩ (hg c)
    exact iff_of_true hd (chainWaits_iff.mp hx)
  | false =>
    refine Leads.of_onChain hw hm (he.trans (congrArg _ ((if_neg (Bool.eq_false_iff.mp hx)).trans (onChain_onChain hg)))) ⟨hpf, ?_⟩ hf.2
    exact iff_of_false (fun hn => absurd (hf.1.symm.trans hn) (by decide)) (mt chainWaits_iff.mpr (Bool.eq_false_iff.mp hx))

/-- The state in which a SPILL has started what it starts. -/
def spillBegun (s : State) (c : Chain) (r : Request) : State :=
  if c.checked = true ∨ c.cancelled = true then s
  else onChain (startSpills c r (kpCover r.header c.head) (s, 0)).1 c fun d =>
    { d.fail (startSpills c r (kpCover r.header c.head) (s, 0)).2.2 with
        checked := true, detail := (startSpills c r (kpCover r.header c.head) (s, 0)).2.1 }

section
variable (hk : KvAt s h ring seq c r) (hs : kvSub c.head = 4) (hp : r.paused = false) (hn : servedNext s c = true)
include hk hs hp hn

theorem exec_kvSpill : exec (.kvSpill h ring seq) s = .next (if chainWaits (spillBegun s c r) c then spillBegun s c r
    else onChain (spillBegun s c r) c fun d => d.finish d.status) :=
  (hk.runs hs (.inl hp)).trans (congrArg _ (if_neg (show ¬ servedNext s c = false by simp [hn])))

theorem kvSpill_over (hc : c.checked = true ∨ c.cancelled = true) (hw : chainWaits s c = false) :
    Ended (.kvSpill h ring seq) s c c.status := by
  have he := exec_kvSpill hk hs hp hn
  rw [show spillBegun s c r = s from if_pos hc, if_neg (by simp [hw])] at he
  exact Leads.of_onChain (.refl s) hk.mem he ⟨.refl s, finish_done c _, rfl⟩ (finish_readNo c _)

theorem kvSpill_waits (hc : c.checked = true) (hw : chainWaits s c = true) : Sets (.kvSpill h ring seq) s [] := by
  have he := exec_kvSpill hk hs hp hn
  rw [show spillBegun s c r = s from if_pos (.inl hc), if_pos hw] at he
  exact sets_of_next he

theorem kvSpill_starts (hc : c.checked = false) (hx : c.cancelled = false) : Leads (.kvSpill h ring seq) s c fun t d =>
    d.checked = true ∧ d.detail = (startSpills c r (kpCover r.header c.head) (s, 0)).2.1 ∧
      (d.done = false ↔ ∃ x ∈ t.transfers, c.readNo ∈ x.waiters) := by
  have he := exec_kvSpill hk hs hp hn
  rw [show spillBegun s c r = _ from if_neg (by simp [hc, hx])] at he
  obtain ⟨t, ht, d, hd, hno, ⟨hch, hde⟩, hdone⟩ := Leads.of_waits (p := fun d => d.checked = true ∧
    d.detail = (startSpills c r (kpCover r.header c.head) (s, 0)).2.1) (.startSpills (.refl s)) hk.mem he
    ((fail_done c _).trans hk.undone) (fail_readNo · _) ⟨finish_done _ _, (finish_readNo _ _).trans (fail_readNo c _)⟩ ⟨rfl, rfl⟩
    (by rw [finish_eq]; exact ⟨rfl, rfl⟩)
  exact ⟨t, ht, d, hd, hno, hch, hde, hdone⟩

end

/-- The prefetches of a PREFETCH, from the page that it has reached. -/
def fetches (s : State) (c : Chain) (r : Request) : State × Nat × Bool × List (Nat × Nat) :=
  startFetches c r true c.work ((kpCover r.header c.head).drop c.work) (s, c.fails)

/-- PREFETCH ends once it waits for no slot and no transfer waits on its behalf. -/
theorem kvPrefetch_starts (hk : KvAt s h ring seq c r) (hs : kvSub c.head = 5) (hp : r.paused = false) (hn : servedNext s c = true) :
    Leads (.kvPrefetch h ring seq) s c fun t d =>
      d.checked = true ∧ d.work = (fetches s c r).2.1 ∧ d.fails = (fetches s c r).2.2.2 ∧
        (d.done = false ↔ (fetches s c r).2.2.1 = true ∨ ∃ x ∈ t.transfers, c.readNo ∈ x.waiters) ∧
        (d.done = true → d.status = (c.finish (lowestFail (fetches s c r).2.2.2)).status ∧ d.detail = c.progress) := by
  have he : exec (.kvPrefetch h ring seq) s = _ :=
    (hk.runs hs (.inl hp)).trans (congrArg _ (if_neg (show ¬ servedNext s c = false by simp [hn])))
  have hw : Paging s (fetches s c r).1 := .startFetches (.refl s)
  by_cases hb : (fetches s c r).2.2.1 = true ∨ ∃ x ∈ (fetches s c r).1.transfers, c.readNo ∈ x.waiters
  · refine Leads.of_onChain hw hk.mem (he.trans (congrArg _ (if_pos (hb.imp_right chainWaits_iff.mpr))))
      ⟨rfl, rfl, rfl, iff_of_true hk.undone hb, fun hd => ?_⟩
    exact absurd (hk.undone.symm.trans hd) (by decide)
  · refine Leads.of_onChain hw hk.mem
      (he.trans (congrArg _ ((if_neg (mt (Or.imp_right chainWaits_iff.mp) hb)).trans onChain_onChain))) ?_ (finish_readNo _ _)
    rw [finish_eq]
    exact ⟨rfl, rfl, rfl, iff_of_false (by simp) hb, fun _ => ⟨finish_status_congr rfl rfl, rfl⟩⟩

/-! ### ROLLBACK (R326) -/

theorem needPages_ready {l : List (Nat × Nat × Nat)} (hl : ∀ q ∈ l, (entryOf s r q.1 q.2.1 q.2.2).state ≠ enVALLEY ∧
    (entryOf s r q.1 q.2.1 q.2.2).state ≠ enFETCHING) : needPages c r l s = (s, .ready) := by
  refine if_pos (List.isEmpty_iff.mpr (List.filter_eq_nil_iff.mpr fun q hq => ?_))
  simpa using hl q hq

/-- The pages that a ROLLBACK writes and reads, layer by layer. -/
def rolledPages (s : State) (c : Chain) (r : Request) : List (List (Nat × Nat × Nat) × List (Nat × Nat × Nat)) :=
  (kpLayers r.header c.head).map fun l => rollbackPages (rollbackList s c).2.1 r l (kpPos0 c.head + (rollbackList s c).2.2.length)
    (rowMoves (kpPos0 c.head) (rollbackList s c).2.2)

/-- The pages that a ROLLBACK reads, brought into HBM. -/
def rolledNeeds (s : State) (c : Chain) (r : Request) : State × Need :=
  needPages c r ((rolledPages s c r).flatMap (·.2)) (rollbackList s c).2.1

/-- The pages that a ROLLBACK writes, each in a slot of its own. -/
def rolledCopies (s : State) (c : Chain) (r : Request) : State × Need :=
  ownCopies r (fun j => (rowMoves (kpPos0 c.head) (rollbackList s c).2.2).any fun p => p.2 / 64 == j) ((rolledPages s c r).flatMap (·.1))
    (rolledNeeds s c r).1

/-- The layers rolled back, and how many pages they changed. -/
def rolledLayers (s : State) (c : Chain) (r : Request) : State × Nat :=
  (kpLayers r.header c.head).foldl (rollbackLayer r (kpPos0 c.head) (rollbackList s c).2.2) ((rolledCopies s c r).1, 0)

theorem rollbackList_paging : Paging s (rollbackList s c).2.1 := (Housework.rollbackList (.refl s)).paging

theorem rolledNeeds_paging : Paging s (rolledNeeds s c r).1 := .needPages rollbackList_paging

theorem rolledLayers_paging : Paging s (rolledLayers s c r).1 :=
  .foldlOn Prod.fst (.ownCopies rolledNeeds_paging) fun _ _ ht => .rollbackLayer ht

section
variable (hk : KvAt s h ring seq c r) (hs : kvSub c.head = 6) (hp : r.paused = false)
include hk hs hp

theorem kvRollback_short (hl : ∃ l ∈ kpLayers r.header c.head, layerLen s r l < kpPos0 c.head) :
    Ended (.kvRollback h ring seq) s c ST_KV_STATE := by
  obtain ⟨l, hm, hl⟩ := hl
  exact .of_endDetail hk.mem ((hk.runs hs (.inl hp)).trans (congrArg _ (if_pos (List.any_eq_true.mpr ⟨l, hm, decide_eq_true hl⟩))))

variable (hlen : ∀ l ∈ kpLayers r.header c.head, kpPos0 c.head ≤ layerLen s r l)
include hlen

omit hk hs hp in
theorem not_short : ¬ ((kpLayers r.header c.head).any fun l => decide (layerLen s r l < kpPos0 c.head)) = true := by
  rw [List.any_eq_true]
  rintro ⟨l, hm, hl⟩
  exact absurd (hlen l hm) (not_le.mpr (of_decide_eq_true hl))

theorem kvRollback_unread (hq : (rollbackList s c).1 ≠ ST_OK) : EndsAs (.kvRollback h ring seq) s c (rollbackList s c).1 0 :=
  .of_endDetail rollbackList_paging hk.mem
    ((hk.runs hs (.inl hp)).trans (congrArg _ ((if_neg (not_short hlen)).trans (if_pos hq))))

variable (hq : (rollbackList s c).1 = ST_OK)
include hq

theorem kvRollback_unordered
    (ha : ∃ l ∈ kpLayers r.header c.head, ascending (layerLen s r l - kpPos0 c.head) (rollbackList s c).2.2 = false) :
    EndsAs (.kvRollback h ring seq) s c ST_KV_STATE 0 := by
  obtain ⟨l, hm, ha⟩ := ha
  exact .of_endDetail rollbackList_paging hk.mem ((hk.runs hs (.inl hp)).trans (congrArg _ ((if_neg (not_short hlen)).trans
    ((if_neg (not_not.mpr hq)).trans (if_pos (List.all_eq_false.mpr ⟨l, hm, by simp [ha]⟩))))))

variable (ha : ∀ l ∈ kpLayers r.header c.head, ascending (layerLen s r l - kpPos0 c.head) (rollbackList s c).2.2 = true)
include ha

/-- A ROLLBACK with its list goes on as its pages, their reach and their copies let it. -/
theorem exec_kvRollback : ∃ t, exec (.kvRollback h ring seq) s = .next t ∧
    ((rolledNeeds s c r).2 = .wait → t = (rolledNeeds s c r).1) ∧
    (∀ st, (rolledNeeds s c r).2 = .fail st → t = endDetail (rolledNeeds s c r).1 c st 0) ∧
    ((rolledNeeds s c r).2 = .ready →
      (∀ i, outOfReach (rolledNeeds s c r).1 r ((rolledPages s c r).flatMap (·.2)) = some i →
        t = endDetail (refusePage (rolledNeeds s c r).1 r false i) c ST_HBM_FENCE 0) ∧
      (outOfReach (rolledNeeds s c r).1 r ((rolledPages s c r).flatMap (·.2)) = none → (rolledCopies s c r).2 = .ready →
        t = endDetail (wakeSlots (rolledLayers s c r).1 h) c ST_OK (rolledLayers s c r).2)) := by
  refine ⟨_, (hk.runs hs (.inl hp)).trans (congrArg _ ((if_neg (not_short hlen)).trans
    ((if_neg (not_not.mpr hq)).trans (if_neg ?_)))), fun hn => ?_, fun st hn => ?_, fun hn => ⟨fun i hi => ?_, fun hi hc => ?_⟩⟩
  · rw [List.all_eq_true.mpr ha]
    decide
  all_goals extract_lets pages n1 moved n2 o
  · rw [show n1.2 = _ from hn]
    rfl
  · rw [show n1.2 = _ from hn]
    rfl
  · rw [show n1.2 = _ from hn]
    simp only
    rw [show outOfReach n1.1 r (pages.flatMap (·.2)) = _ from hi]
    rfl
  · rw [show n1.2 = _ from hn]
    simp only
    rw [show outOfReach n1.1 r (pages.flatMap (·.2)) = _ from hi]
    simp only
    rw [show n2.2 = _ from hc]
    rfl

end

/-! ### PAUSE (R322, R323) -/

/-- The pages that a PAUSE retains, and whether it packs them. -/
def pauseKept (s : State) (c : Chain) (r : Request) : List (Nat × Nat × Nat) := retainedAll s r (bitsAt (kpAux c.head) 48 8)

def pausePacks (c : Chain) (r : Request) : Bool := packs r.header ((kpAux c.head).testBit 32)

/-- The size of a PAUSE's record. -/
def pauseSize (s : State) (c : Chain) (r : Request) : Nat := recSize r.header (pausePacks c r) (pauseKept s c r).length

/-- The key that a PAUSE seals a record in host memory with. -/
def pauseKey (s : State) (h : Half) (c : Chain) (r : Request) : Option Nat :=
  if isHost (kpAddr c.head) then keyOf s h r.fn .valley else none

/-- The record of a PAUSE, and the state after its generations. -/
def pauseOut (s : State) (h : Half) (c : Chain) (r : Request) : RecOut × List Byte :=
  pauseRecord s r (pausePacks c r) (pauseKey s h c r) (pauseKept s c r)

/-- The state in which a PAUSE has written its record. -/
def pauseWritten (s : State) (h : Half) (c : Chain) (r : Request) : State :=
  (writeAt (pauseOut s h c r).1.s (engine h (ringFn c.ring)) (kpAddr c.head) (pauseOut s h c r).2).2

/-- The state in which a PAUSE has freed the pages of its request. -/
def pauseFreed (s : State) (h : Half) (c : Chain) (r : Request) : State :=
  let s1 := (ownedPages (pauseWritten s h c r) r).foldl (fun t q => freePage t r q.1 q.2.1 q.2.2.1) (pauseWritten s h c r)
  (s1.inc (.core .NUM_SAT) h (pauseOut s h c r).1.sat 0).inc (.core .NUM_NAN) h (pauseOut s h c r).1.nan 0

theorem pauseFreed_paging : Paging s (pauseFreed s h c r) := by
  have hw : Paging s (pauseWritten s h c r) := (Housework.writeAt (.pauseRecord (.refl s))).paging
  exact .work (.foldl hw fun _ _ ht => .freePage ht) (.inc (.inc (.refl _)))

section
variable (hk : KvAt s h ring seq c r) (hs : kvSub c.head = 7) (hp : r.paused = false)
include hk hs hp

theorem kvPause_space (hl : bitsAt (kpAux c.head) 0 32 < pauseSize s c r) : Ended (.kvPause h ring seq) s c ST_PAUSE_SPACE :=
  .of_endDetail hk.mem ((hk.runs hs (.inl hp)).trans (congrArg _ (if_pos hl)))

variable (hl : pauseSize s c r ≤ bitsAt (kpAux c.head) 0 32)
include hl

theorem kvPause_unkeyed (hh : isHost (kpAddr c.head) = true) (hn : pauseKey s h c r = none) :
    Ended (.kvPause h ring seq) s c ST_KEY_MISSING :=
  .of_endDetail hk.mem ((hk.runs hs (.inl hp)).trans (congrArg _ ((if_neg (not_lt.mpr hl)).trans
    (if_pos ⟨hh, (if_pos hh).symm.trans hn⟩))))

variable (hkey : isHost (kpAddr c.head) = true → (pauseKey s h c r).isSome = true)
include hkey

omit hk hs hp hl in
theorem not_unkeyed : ¬ (isHost (kpAddr c.head) = true ∧ keyOf s h r.fn .valley = none) := by
  rintro ⟨hh, hn⟩
  have := hkey hh
  rw [pauseKey, if_pos hh, hn] at this
  cases this

variable (hin : ∀ q ∈ pauseKept s c r, (entryOf s r q.1 q.2.1 q.2.2).shared = true ∨
    ((entryOf s r q.1 q.2.1 q.2.2).state ≠ enVALLEY ∧ (entryOf s r q.1 q.2.1 q.2.2).state ≠ enFETCHING))
include hin

omit hk hs hp hl hkey in
/-- The pages that a PAUSE retains are in HBM. -/
theorem pauseNeeds : needPages c r ((pauseKept s c r).filter fun q => !(entryOf s r q.1 q.2.1 q.2.2).shared) s = (s, .ready) := by
  refine needPages_ready fun q hq => ?_
  obtain ⟨hm, hsh⟩ := List.mem_filter.mp hq
  exact (hin q hm).resolve_left (by simpa using hsh)

theorem kvPause_fenced {i : Nat} (hi : outOfReach s r (pauseKept s c r) = some i) : EndsAs (.kvPause h ring seq) s c ST_HBM_FENCE 0 := by
  refine .of_endDetail (Housework.refusePage (r := r) (write := false) (slot := i) (.refl s)).paging hk.mem
    ((hk.runs hs (.inl hp)).trans (congrArg _ ((if_neg (not_lt.mpr hl)).trans ((if_neg (not_unkeyed hkey)).trans ?_))))
  extract_lets n o w own s1 s2
  have hn : n = (s, .ready) := pauseNeeds hin
  clear_value n
  subst hn
  simp only
  rw [pauseKept] at hi
  rw [hi]

/-- A PAUSE whose record is written frees the request's pages, pauses it, and ends with the pages that it retained. -/
theorem kvPause_pauses (hi : outOfReach s r (pauseKept s c r) = none) (hx : c.cancelled = false)
    (ha : accessStatus (pauseOut s h c r).1.s (engine h (ringFn c.ring)) true (kpAddr c.head) (pauseOut s h c r).2.length = ST_OK) :
    Gives (.kvPause h ring seq) s fun t => (∃ q ∈ t.requests, q.num = r.num ∧ q.paused = true) ∧
      ∃ d ∈ t.chains, d.readNo = c.readNo ∧ d.done = true ∧ d.status = (c.finish ST_OK).status ∧ d.detail = (pauseKept s c r).length := by
  obtain ⟨num, hr⟩ := hk.asked
  obtain ⟨q, -, hq, hnum⟩ := (pauseFreed_paging (s := s) (h := h) (c := c) (r := r)).mem_setRequest hr
    (f := fun q => { q with paused := true, pausedPages := ownedPages (pauseWritten s h c r) r })
  have hwake := Housework.wakeSlots (h := h) (.refl (setRequest (pauseFreed s h c r) r.num fun q =>
    { q with paused := true, pausedPages := ownedPages (pauseWritten s h c r) r }))
  have hw : Paging s _ := .work (.setRequest pauseFreed_paging) hwake
  refine ⟨_, ?_, ⟨_, hwake.requests ▸ hq, hnum, rfl⟩, _, mem_endDetail (hw.chains ▸ hk.mem) ST_OK (pauseKept s c r).length,
    finish_readNo c ST_OK, finish_done c ST_OK, rfl, rfl⟩
  refine (hk.runs hs (.inl hp)).trans (congrArg _ ((if_neg (not_lt.mpr hl)).trans ((if_neg (not_unkeyed hkey)).trans ?_)))
  extract_lets n o w own s1 s2
  have hn : n = (s, .ready) := pauseNeeds hin
  clear_value n
  subst hn
  have hw : w = writeAt (pauseOut s h c r).1.s (engine h (ringFn c.ring)) (kpAddr c.head) (pauseOut s h c r).2 := if_neg (by simp [hx])
  have hst : w.1 = ST_OK := by rw [hw, writeAt_of_ok ha]
  clear_value w
  subst hw
  simp only
  rw [pauseKept] at hi
  rw [hi]
  exact if_neg (not_not.mpr hst)

end

/-! ### RESUME (R325) -/

/-- RESUME of a request that is not paused. -/
theorem kvResume_open (hk : KvAt s h ring seq c r) (hs : kvSub c.head = 8) (hp : r.paused = false) :
    Ended (.kvResume h ring seq) s c ST_KV_STATE :=
  .of_endDetail hk.mem ((hk.runs hs (.inr rfl)).trans (congrArg _ (if_pos hp)))

/-- A RESUME that fails ends with the status of its failure. -/
theorem EndsAs.of_failResume {slots : List Nat} (hw : Paging s u) (hm : c ∈ s.chains)
    (he : exec k s = .next (failResume u c r slots status)) : EndsAs k s c status 0 :=
  Leads.of_onChain (hw.work (.wakeSlots (.freeSlots (.refl _)))) hm he ⟨finish_done c _, rfl, rfl⟩ (finish_readNo c _)

/-- The stored pages of a RESUME's record, each page's bytes. -/
def resumeData (s : State) (c : Chain) (r : Request) : State × Nat × List (Option (List Byte)) :=
  let i := readRecord s c r
  recordData c r ((fieldAt i.front 0x11 1).testBit 1) (kpAddr c.head + recData r.header i.descs.length) i.descs (i.s, ST_OK, [])

/-- Those pages opened, where the record is sealed. -/
def resumeOpened (s : State) (c : Chain) (r : Request) : Option (List (Option (List Byte))) :=
  let i := readRecord s c r
  if i.sealed then openRecord (resumeData s c r).1 r i (resumeData s c r).2.2 else some (resumeData s c r).2.2

/-- The slots of a RESUME. -/
def resumeTaken (s : State) (c : Chain) (r : Request) : State × List Nat × Need :=
  resumeSlots r (((readRecord s c r).descs.filter fun x => x.form != 2).length - c.run.length) ((resumeData s c r).1, c.run)

theorem readRecord_paging : Paging s (readRecord s c r).s := (Housework.readRecord (.refl s)).paging

theorem resumeData_paging : Paging s (resumeData s c r).1 := readRecord_paging.work (.recordData (.refl _))

theorem resumeTaken_paging : Paging s (resumeTaken s c r).1 := .resumeSlots resumeData_paging

/-- A page of a RESUME's record that the request can hold. -/
def resumeFits (s : State) (c : Chain) (r : Request) (x : RecDesc) : Bool :=
  descOk (resumeData s c r).1 r ((fieldAt (readRecord s c r).front 0x11 1).testBit 1) x

section
variable (hk : KvAt s h ring seq c r) (hs : kvSub c.head = 8) (hp : r.paused = true)
include hk hs hp

theorem kvResume_unread (hi : (readRecord s c r).status ≠ ST_OK) : EndsAs (.kvResume h ring seq) s c (readRecord s c r).status 0 :=
  .of_failResume readRecord_paging hk.mem ((hk.runs hs (.inr rfl)).trans (congrArg _ ((if_neg (by simp [hp])).trans (if_pos hi))))

variable (hi : (readRecord s c r).status = ST_OK)
include hi

/-- A RESUME with its record goes on as its pages, their seals and its slots let it. -/
theorem exec_kvResume : ∃ t, exec (.kvResume h ring seq) s = .next t ∧
    ((resumeData s c r).2.1 ≠ ST_OK → t = failResume (resumeData s c r).1 c r c.run (resumeData s c r).2.1) ∧
    ((resumeData s c r).2.1 = ST_OK → (resumeOpened s c r = none → t = failResume (resumeData s c r).1 c r c.run ST_VALLEY_AUTH) ∧
      ∀ data, resumeOpened s c r = some data →
        ((∃ x ∈ (readRecord s c r).descs, resumeFits s c r x = false) → t = failResume (resumeData s c r).1 c r c.run ST_KV_STATE) ∧
        ((∀ x ∈ (readRecord s c r).descs, resumeFits s c r x = true) →
          ((resumeTaken s c r).2.2 = .wait →
            t = onChain (resumeTaken s c r).1 c fun x => { x with run := (resumeTaken s c r).2.1 }) ∧
          (∀ st, (resumeTaken s c r).2.2 = .fail st → t = failResume (resumeTaken s c r).1 c r (resumeTaken s c r).2.1 st) ∧
          ((resumeTaken s c r).2.2 = .ready → t = onChain (restoreRecord (resumeTaken s c r).1 r (readRecord s c r) data
            (resumeTaken s c r).2.1) c fun x => { x.finish ST_OK with run := [], detail := (readRecord s c r).descs.length }))) := by
  refine ⟨_, (hk.runs hs (.inr rfl)).trans (congrArg _ ((if_neg (by simp [hp])).trans (if_neg (not_not.mpr hi)))), ?_, ?_⟩
  all_goals
    extract_lets d o n q
  · intro hd
    cases hx : o with
    | none => exact congrArg (failResume d.1 c r c.run) (if_neg hd)
    | some data => exact if_pos hd
  · intro hd
    refine ⟨fun hx => ?_, fun data hx => ⟨fun ⟨x, hm, hf⟩ => ?_, fun hf => ?_⟩⟩
    · rw [show o = none from hx]
      exact congrArg (failResume d.1 c r c.run) (if_pos hd)
    · rw [show o = some data from hx]
      exact (if_neg (not_not.mpr hd)).trans (if_pos (List.all_eq_false.mpr ⟨x, hm, Bool.eq_false_iff.mp hf⟩))
    · have hall : ¬ ((readRecord s c r).descs.all fun x => resumeFits s c r x) = false := by
        rw [List.all_eq_true.mpr hf]
        decide
      rw [show o = some data from hx]
      refine ⟨fun hn => ?_, fun st hn => ?_, fun hn => ?_⟩
      all_goals
        refine (if_neg (not_not.mpr hd)).trans ((if_neg hall).trans ?_)
        rw [show q.2.2 = _ from hn]
        rfl

theorem kvResume_unreadData (hd : (resumeData s c r).2.1 ≠ ST_OK) : EndsAs (.kvResume h ring seq) s c (resumeData s c r).2.1 0 := by
  obtain ⟨t, he, hbad, -⟩ := exec_kvResume hk hs hp hi
  exact .of_failResume resumeData_paging hk.mem (he.trans (congrArg _ (hbad hd)))

variable (hd : (resumeData s c r).2.1 = ST_OK)
include hd

theorem kvResume_unopened (ho : resumeOpened s c r = none) : EndsAs (.kvResume h ring seq) s c ST_VALLEY_AUTH 0 := by
  obtain ⟨t, he, -, hgo⟩ := exec_kvResume hk hs hp hi
  exact .of_failResume resumeData_paging hk.mem (he.trans (congrArg _ ((hgo hd).1 ho)))

variable {data : List (Option (List Byte))} (ho : resumeOpened s c r = some data)
include ho

theorem kvResume_unfit (hx : ∃ x ∈ (readRecord s c r).descs, resumeFits s c r x = false) :
    EndsAs (.kvResume h ring seq) s c ST_KV_STATE 0 := by
  obtain ⟨t, he, -, hgo⟩ := exec_kvResume hk hs hp hi
  exact .of_failResume resumeData_paging hk.mem (he.trans (congrArg _ (((hgo hd).2 data ho).1 hx)))

variable (hx : ∀ x ∈ (readRecord s c r).descs, resumeFits s c r x = true)
include hx

theorem kvResume_waits (hn : (resumeTaken s c r).2.2 = .wait) :
    Leads (.kvResume h ring seq) s c fun _ e => e.done = false ∧ e.run = (resumeTaken s c r).2.1 := by
  obtain ⟨t, he, -, hgo⟩ := exec_kvResume hk hs hp hi
  obtain ⟨hw, -, -⟩ := ((hgo hd).2 data ho).2 hx
  exact .of_onChain resumeTaken_paging hk.mem (he.trans (congrArg _ (hw hn))) ⟨hk.undone, rfl⟩

theorem kvResume_slotless {st : Nat} (hn : (resumeTaken s c r).2.2 = .fail st) : EndsAs (.kvResume h ring seq) s c st 0 := by
  obtain ⟨t, he, -, hgo⟩ := exec_kvResume hk hs hp hi
  obtain ⟨-, hf, -⟩ := ((hgo hd).2 data ho).2 hx
  exact .of_failResume resumeTaken_paging hk.mem (he.trans (congrArg _ (hf st hn)))

/-- A RESUME that has its slots opens the request, and ends with the pages of its record. -/
theorem kvResume_resumes (hn : (resumeTaken s c r).2.2 = .ready) : Gives (.kvResume h ring seq) s fun t =>
    (∃ x ∈ t.requests, x.num = r.num ∧ x.paused = false) ∧
      ∃ x ∈ t.chains, x.readNo = c.readNo ∧ x.done = true ∧ x.status = (c.finish ST_OK).status ∧
        x.detail = (readRecord s c r).descs.length := by
  obtain ⟨num, hr⟩ := hk.asked
  obtain ⟨t, he, -, hgo⟩ := exec_kvResume hk hs hp hi
  obtain ⟨-, -, hready⟩ := ((hgo hd).2 data ho).2 hx
  obtain rfl := hready hn
  have hw : Paging s (evictLost (((readRecord s c r).descs.zip data).foldl (restorePage r) ((resumeTaken s c r).1.store (r.pageMap + 0x80)
      (((readRecord s c r).front.drop 0xC0).take (8 * mapNL r.header)), (resumeTaken s c r).2.1)).1 r
        ((readRecord s c r).descs.map (·.q))) := restored_paging resumeTaken_paging
  obtain ⟨q, -, hq, hnum⟩ := hw.mem_setRequest hr (f := fun q => { q with paused := false, pausedPages := [] })
  refine ⟨_, he, ⟨_, hq, hnum, rfl⟩, { c.finish ST_OK with run := [], detail := (readRecord s c r).descs.length }, ?_,
    finish_readNo c ST_OK, finish_done c ST_OK, rfl, rfl⟩
  exact (setChain_holds (hw.chains ▸ hk.mem) fun x => { x.finish ST_OK with run := [], detail := (readRecord s c r).descs.length }).1

end

/-! ### PREFIX_LOOKUP (R318, R319) -/

/-- The namespace that a request's chunks lie in. -/
def pfxSpace (s : State) (h : Half) (r : Request) : Nat := namespaceOf s h r.fn

theorem pfxTokens_paging : Paging s (pfxTokens s c).2.1 := (Housework.pfxTokens (.refl s)).paging

/-- The full chunks that a PREFIX_LOOKUP matches: the state, how many, and the last node. -/
def matched (s : State) (h : Half) (c : Chain) (r : Request) (key : Nat) : State × Nat × Option Nat :=
  pfxWalk r (pfxSpace s h r) key ((pfxTokens s c).2.2.length / 64 + 1) 0 (mapPfxNs r.header) none (pfxTokens s c).2.2 (pfxTokens s c).2.1

theorem matched_paging {key : Nat} : Paging s (matched s h c r key).1 := .pfxWalk pfxTokens_paging

/-- A lookup that is over ends its chain with its pages. -/
theorem Leads.of_endLookup {full part pages : Nat} (hw : Paging s u) (hm : c ∈ s.chains)
    (he : exec k s = .next (endLookup u c r full part pages status)) : Leads k s c fun _ d => d.done = true ∧ d.detail = pages := by
  have hlen : Housework u ((List.range (mapNL r.header)).foldl (fun t l => setLen t r l (64 * full + part)) u) :=
    .foldl (.refl u) fun _ _ ht => .setLen ht
  refine Leads.of_onChain (hw.work (.iteOn Prod.snd hlen (.writeAt hlen))) hm he ?_ ?_
  · exact ⟨finish_done c _, rfl⟩
  · exact finish_readNo c _

/-- The copies of a lookup's leaf. -/
def leafCopies (s : State) (c : Chain) (r : Request) (n : PfxNode) : State × Nat × Need :=
  copyLeaf r n (c.run.getD 0 0) c.work ((pfxPairs r.header).drop c.work) s

section
variable (hk : KvAt s h ring seq c r) (hs : kvSub c.head = 9) (hp : r.paused = false)
include hk hs hp

section
variable (hc : c.checked = false)
include hc

theorem kvPrefixLookup_unready (hn : mapPfxEn r.header = false ∨ ∃ l < mapNL r.header, layerLen s r l ≠ 0) :
    Ended (.kvPrefixLookup h ring seq) s c ST_KV_STATE :=
  .of_endDetail hk.mem ((hk.runs hs (.inl hp)).trans (congrArg _ ((if_neg (by simp [hc])).trans (if_pos (by simpa using hn)))))

variable (hen : mapPfxEn r.header = true) (hlen : ∀ l < mapNL r.header, layerLen s r l = 0)
include hen hlen

/-- A PREFIX_LOOKUP that may begin goes on as its key and its tokens let it. -/
theorem exec_kvPrefixLookup : ∃ t, exec (.kvPrefixLookup h ring seq) s = .next t ∧
    (keyOf s h (pfxSpace s h r) .pfx = none → t = endDetail s c ST_KEY_MISSING 0) ∧
    ∀ key, keyOf s h (pfxSpace s h r) .pfx = some key →
      ((pfxTokens s c).1 ≠ ST_OK → t = endDetail (pfxTokens s c).2.1 c (pfxTokens s c).1 0) ∧
      ((pfxTokens s c).1 = ST_OK →
        ((matched s h c r key).2.1 < mapNP r.header → findLeaf (matched s h c r key).1 r (pfxSpace s h r) (matched s h c r key).2.2
          ((pfxTokens s c).2.2.drop (64 * (matched s h c r key).2.1)) = none) →
        t = endLookup (matched s h c r key).1 c r (matched s h c r key).2.1 0
          ((matched s h c r key).2.1 * (pfxPairs r.header).length) ST_OK) := by
  have hn : ¬ (mapPfxEn r.header = false ∨ ((List.range (mapNL r.header)).any fun l => layerLen s r l != 0) = true) := by
    simpa [hen] using hlen
  refine ⟨_, (hk.runs hs (.inl hp)).trans (congrArg _ ((if_neg (by simp [hc])).trans (if_neg hn))), fun hkey => ?_,
    fun key hkey => ⟨fun ht => ?_, fun ht hl => ?_⟩⟩
  all_goals
    extract_lets ns
    rw [show keyOf s h ns .pfx = _ from hkey]
  · exact if_pos ht
  · refine (if_neg (not_not.mpr ht)).trans ?_
    extract_lets w
    have hleaf : (if w.2.1 < mapNP r.header then findLeaf w.1 r ns w.2.2 ((pfxTokens s c).2.2.drop (64 * w.2.1)) else none) = none := by
      split
      next hlt => exact hl hlt
      · rfl
    rw [hleaf]
    rfl

end

section
variable (hc : c.checked = true) {n : PfxNode}
  (hf : (s.nodes.find? fun x => x.half == r.half && x.idx == c.run.getD 1 0) = some n)
include hc hf

theorem exec_kvPrefixLookup_leaf : ∃ t, exec (.kvPrefixLookup h ring seq) s = .next t ∧
    ((leafCopies s c r n).2.2 = .wait → t = onChain (leafCopies s c r n).1 c fun d => { d with work := (leafCopies s c r n).2.1 }) ∧
    (∀ st, (leafCopies s c r n).2.2 = .fail st → t = endLookup (refNode (leafCopies s c r n).1 r.half (c.run.getD 1 0) false) c r
      (c.run.getD 0 0) 0 (c.run.getD 0 0 * (pfxPairs r.header).length + (leafCopies s c r n).2.1) st) ∧
    ((leafCopies s c r n).2.2 = .ready → t = endLookup
      (refNode (useNode (leafCopies s c r n).1 r.half (c.run.getD 1 0)) r.half (c.run.getD 1 0) false) c r (c.run.getD 0 0) n.tokens.length
      ((c.run.getD 0 0 + 1) * (pfxPairs r.header).length) ST_OK) := by
  refine ⟨_, (hk.runs hs (.inl hp)).trans (congrArg _ (if_pos hc)), ?_⟩
  unfold lookupLeaf
  rw [hf]
  refine ⟨fun hn => ?_, fun st hn => ?_, fun hn => ?_⟩
  all_goals
    extract_lets pairs
    simp only
    rw [show (copyLeaf r n (c.run.getD 0 0) c.work (pairs.drop c.work) s).2.2 = _ from hn]
    rfl

omit hk hs hp hc hf in
theorem leafCopies_paging : Paging s (leafCopies s c r n).1 := .copyLeaf (.refl s)

theorem kvPrefixLookup_waits (hn : (leafCopies s c r n).2.2 = .wait) :
    Leads (.kvPrefixLookup h ring seq) s c fun _ d => d.done = false ∧ d.work = (leafCopies s c r n).2.1 := by
  obtain ⟨t, he, hw, -, -⟩ := exec_kvPrefixLookup_leaf hk hs hp hc hf
  exact .of_onChain leafCopies_paging hk.mem (he.trans (congrArg _ (hw hn))) ⟨hk.undone, rfl⟩

theorem kvPrefixLookup_slotless {st : Nat} (hn : (leafCopies s c r n).2.2 = .fail st) :
    Leads (.kvPrefixLookup h ring seq) s c fun _ d =>
      d.done = true ∧ d.detail = c.run.getD 0 0 * (pfxPairs r.header).length + (leafCopies s c r n).2.1 := by
  obtain ⟨t, he, -, hst, -⟩ := exec_kvPrefixLookup_leaf hk hs hp hc hf
  exact .of_endLookup (.upd leafCopies_paging) hk.mem (he.trans (congrArg _ (hst st hn)))

theorem kvPrefixLookup_copied (hn : (leafCopies s c r n).2.2 = .ready) : Leads (.kvPrefixLookup h ring seq) s c fun _ d =>
    d.done = true ∧ d.detail = (c.run.getD 0 0 + 1) * (pfxPairs r.header).length := by
  obtain ⟨t, he, -, -, hready⟩ := exec_kvPrefixLookup_leaf hk hs hp hc hf
  exact .of_endLookup (.upd leafCopies_paging) hk.mem (he.trans (congrArg _ (hready hn)))

end

end

/-! ### PREFIX_INSERT (R320) -/

/-- The chunks that a PREFIX_INSERT inserts: the state, the pages, and the status. -/
def inserted (s : State) (h : Half) (c : Chain) (r : Request) (key : Nat) : State × Nat × Nat :=
  insertWalk r (pfxSpace s h r) key ((pfxTokens s c).2.2.length / 64 + 2) 0 (mapPfxNs r.header) none (pfxTokens s c).2.2
    ((pfxTokens s c).2.1, 0)

section
variable (hk : KvAt s h ring seq c r) (hs : kvSub c.head = 10) (hp : r.paused = false)
include hk hs hp

theorem kvPrefixInsert_unready (hn : insertOk s c r = false) : Ended (.kvPrefixInsert h ring seq) s c ST_KV_STATE :=
  .of_endDetail hk.mem ((hk.runs hs (.inl hp)).trans (congrArg _ (if_pos hn)))

variable (hn : insertOk s c r = true)
include hn

/-- A PREFIX_INSERT of pages that it may insert goes on as their reach, its key and its tokens let it. -/
theorem exec_kvPrefixInsert : ∃ t, exec (.kvPrefixInsert h ring seq) s = .next t ∧
    (∀ i, outOfReach s r (insertPages c r) = some i → t = endDetail (refusePage s r true i) c ST_HBM_FENCE 0) ∧
    (outOfReach s r (insertPages c r) = none →
      (keyOf s h (pfxSpace s h r) .pfx = none → t = endDetail s c ST_KEY_MISSING 0) ∧
      ∀ key, keyOf s h (pfxSpace s h r) .pfx = some key →
        ((pfxTokens s c).1 ≠ ST_OK → t = endDetail (pfxTokens s c).2.1 c (pfxTokens s c).1 0) ∧
        ((pfxTokens s c).1 = ST_OK →
          t = endDetail (inserted s h c r key).1 c (inserted s h c r key).2.2 (inserted s h c r key).2.1)) := by
  refine ⟨_, (hk.runs hs (.inl hp)).trans (congrArg _ (if_neg (by simp [hn]))), fun i hi => ?_,
    fun hi => ⟨fun hkey => ?_, fun key hkey => ⟨fun ht => ?_, fun ht => ?_⟩⟩⟩
  all_goals rw [hi]
  all_goals
    extract_lets ns
    rw [show keyOf s h ns .pfx = _ from hkey]
  · exact if_pos ht
  · exact if_neg (not_not.mpr ht)

end

end

/-- Settles O46: a command of another subop, or without an admitted KV_PAGE in its place, does nothing; each subop's clause is the lemma
about its command. -/
theorem kvPageSubops : Obligations.KvPageSubops := by
  unfold Obligations.KvPageSubops
  intro h ring seq s
  refine ⟨fun hn k hk => ?_, fun c r hfound hrun hop hreq => ?_⟩
  · obtain ⟨f, he⟩ := exec_kvKind hk
    exact sets_of_next (he.trans (kvRun_idle hn k.1 f))
  have hk : KvAt s h ring seq c r := ⟨hfound, hrun, hop, hreq⟩
  refine ⟨fun k hm hne => ?_, fun hp k hm h8 hs => ?_, fun hp => ⟨fun hs hc hq => kvAlloc_refused hk hs hp hc hq,
    fun hs hq => ⟨kvAlloc_idle hk hs hp hq, kvAlloc_waits hk hs hp hq, kvAlloc_ends hk hs hp hq⟩, fun hs => kvFree_ends hk hs hp,
    fun hs => ⟨kvPin_waits hk hs hp, kvPin_ends hk hs hp⟩, fun hs => kvUnpin_ends hk hs hp,
    fun _ hn => ⟨kvSpill_unserved hk hp hn, kvPrefetch_unserved hk hp hn⟩, fun hs hn => ?spill,
    fun hs hn => kvPrefetch_starts hk hs hp hn, fun hs => ?rollback, fun hs => ?pause, fun hs => kvResume_open hk hs hp⟩,
    fun hp hs => ?resume, fun hp hs => ?lookup, fun hp hs => ?insert⟩
  · obtain ⟨f, he⟩ := exec_kvKind hm
    exact sets_of_next (he.trans (hk.other hne))
  · obtain ⟨f, he⟩ := exec_kvKind hm
    exact Ended.of_endChain hk.mem (he.trans (hk.paused hs hp h8))
  case spill =>
    exact ⟨fun _ hx hw => kvSpill_over hk hs hp hn (.inr hx) hw, kvSpill_starts hk hs hp hn, kvSpill_waits hk hs hp hn,
      fun hc hw => kvSpill_over hk hs hp hn (.inl hc) hw⟩
  case rollback =>
    refine ⟨kvRollback_short hk hs hp, kvRollback_unread hk hs hp, fun hlen hq => ⟨kvRollback_unordered hk hs hp hlen hq, fun ha => ?_⟩⟩
    obtain ⟨t, he, hwait, hfail, hready⟩ := exec_kvRollback hk hs hp hlen hq ha
    exact ⟨fun hn => ⟨t, he, hwait hn⟩, fun st hn => EndsAs.of_endDetail rolledNeeds_paging hk.mem (he.trans (congrArg _ (hfail st hn))),
      fun i hn hi => EndsAs.of_endDetail (.work rolledNeeds_paging (.refusePage (.refl _))) hk.mem
        (he.trans (congrArg _ ((hready hn).1 i hi))),
      fun hn hi hc => EndsAs.of_endDetail (.work rolledLayers_paging (.wakeSlots (.refl _))) hk.mem
        (he.trans (congrArg _ ((hready hn).2 hi hc)))⟩
  case pause =>
    exact ⟨kvPause_space hk hs hp, fun hl hh hn => kvPause_unkeyed hk hs hp hl hh hn,
      fun hl hkey hin => ⟨fun i hi => kvPause_fenced hk hs hp hl hkey hin hi, kvPause_pauses hk hs hp hl hkey hin⟩⟩
  case resume =>
    exact ⟨kvResume_unread hk hs hp, kvResume_unreadData hk hs hp, kvResume_unopened hk hs hp,
      fun data hi hd ho => ⟨kvResume_unfit hk hs hp hi hd ho, fun hx => ⟨kvResume_waits hk hs hp hi hd ho hx,
        fun st => kvResume_slotless hk hs hp hi hd ho hx, kvResume_resumes hk hs hp hi hd ho hx⟩⟩⟩
  case lookup =>
    refine ⟨kvPrefixLookup_unready hk hs hp, fun hc hen hlen => ?_, fun n hc hf => ⟨kvPrefixLookup_waits hk hs hp hc hf,
      fun st => kvPrefixLookup_slotless hk hs hp hc hf, kvPrefixLookup_copied hk hs hp hc hf⟩⟩
    obtain ⟨t, he, hnone, hgo⟩ := exec_kvPrefixLookup hk hs hp hc hen hlen
    exact ⟨fun hn => Ended.of_endDetail hk.mem (he.trans (congrArg _ (hnone hn))),
      fun key hkey ht => EndsAs.of_endDetail pfxTokens_paging hk.mem (he.trans (congrArg _ ((hgo key hkey).1 ht))),
      fun key hkey ht hl => Leads.of_endLookup matched_paging hk.mem (he.trans (congrArg _ ((hgo key hkey).2 ht hl)))⟩
  case insert =>
    refine ⟨kvPrefixInsert_unready hk hs hp, fun i hn hi => ?_, fun hn hi => ?_⟩
    all_goals obtain ⟨t, he, hfence, hgo⟩ := exec_kvPrefixInsert hk hs hp hn
    · exact EndsAs.of_endDetail (Housework.refusePage (.refl s)).paging hk.mem (he.trans (congrArg _ (hfence i hi)))
    · obtain ⟨hnone, hgo⟩ := hgo hi
      exact ⟨fun hkey => Ended.of_endDetail hk.mem (he.trans (congrArg _ (hnone hkey))),
        fun key hkey ht => EndsAs.of_endDetail pfxTokens_paging hk.mem (he.trans (congrArg _ ((hgo key hkey).1 ht))),
        fun key hkey ht => EndsAs.of_endDetail (.insertWalk pfxTokens_paging) hk.mem
          (he.trans (congrArg _ ((hgo key hkey).2 ht)))⟩

end Sys2Proof
end

section
/-!
Transfers and the registers of the slot space (§9): O47.
-/

namespace Sys2Proof

open Machine

set_option Elab.async false

section
variable {s : State} {h : Half}

/-! ### Spills that bring a partition down to LOW (R307) -/

/-- A transfer that is added is listed. -/
theorem addTransfer_adds {x : Transfer} : (addTransfer s x).transfers.length = s.transfers.length + 1 := by
  unfold addTransfer
  split
  next u hu =>
    have ht : Housework s u := OnSome.get (.ite .none (takeGranules_housework (.refl s))) hu
    simp [ht.transfers]
  · extract_lets u
    have ht : Housework s u := .waitGranules (.refl s)
    clear_value u
    simp [ht.transfers]

theorem startSpill_adds {r : Request} {l g j : Nat} {waiters : List Nat} :
    OnSome (fun t => t.transfers.length = s.transfers.length + 1) (startSpill s r l g j waiters) := by
  unfold startSpill
  dsimp only
  split
  · exact .none
  · exact .some addTransfer_adds

theorem autoSpill_adds {p : Nat} : OnSome (fun t => t.transfers.length = s.transfers.length + 1) (autoSpill s h p) := by
  unfold autoSpill
  refine .ite ?_ .none
  split
  · exact startSpill_adds
  · exact .none

theorem spillDown_none {p low n : Nat} (ha : autoSpill s h p = none) : spillDown h p low n s = s := by
  cases n with
  | zero => rfl
  | succ n =>
    rw [spillDown, ha]
    exact ite_self _

theorem spillDown_keeps {p low n : Nat} : s.transfers.length ≤ (spillDown h p low n s).transfers.length := by
  induction n generalizing s with
  | zero => exact le_rfl
  | succ n ih =>
    rw [spillDown]
    split
    · exact le_rfl
    · split
      next t ht => exact le_trans (by rw [autoSpill_adds t ht]; omega) ih
      · exact le_rfl

/-- A partition that holds more than LOW, and has no spill in progress, starts one where there is a candidate. -/
theorem spillDown_starts {p low n : Nat} (hl : low < s.rd (.kv .KV_PSTAT_HELD) h p) (hg : ∀ x ∈ s.transfers, x.half = h → x.spill = false)
    (ha : (autoSpill s h p).isSome = true) : s.transfers.length < (spillDown h p low (n + 1) s).transfers.length := by
  obtain ⟨t, ht⟩ := Option.isSome_iff_exists.mp ha
  have hgoing : (s.transfers.filter fun t => t.half == h && t.spill && t.fn == p) = [] :=
    List.filter_eq_nil_iff.mpr fun x hx => by
      by_cases hh : x.half = h
      · simp [hg x hx hh]
      · simp [hh]
  rw [spillDown, hgoing, ht]
  simp only [List.map_nil, List.sum_nil, Nat.sub_zero, if_neg (not_le.mpr hl)]
  have hadd : t.transfers.length = s.transfers.length + 1 := autoSpill_adds t ht
  exact lt_of_lt_of_le (by omega) spillDown_keeps

theorem valleySpillStart_idle {p : Nat}
    (hp : 64 ≤ p ∨ s.rd (.kv .KV_PSTAT_HELD) h p ≤ s.rd (.kv .KV_QUOTA_HIGH) h p ∨ autoSpill s h p = none) :
    Sets (.valleySpillStart h p) s [] := by
  refine sets_of_next (show execValleySpillStart h p s = _ from ?_)
  unfold execValleySpillStart
  split
  · rfl
  next hn => exact congrArg _ (spillDown_none ((hp.resolve_left (not_or.mp hn).1).resolve_left (not_or.mp hn).2))

theorem valleySpillStart_starts {p : Nat} (hp : p < 64) (hh : s.rd (.kv .KV_QUOTA_HIGH) h p < s.rd (.kv .KV_PSTAT_HELD) h p)
    (hl : s.rd (.kv .KV_QUOTA_LOW) h p < s.rd (.kv .KV_PSTAT_HELD) h p) (hg : ∀ x ∈ s.transfers, x.half = h → x.spill = false)
    (ha : (autoSpill s h p).isSome = true) :
    Gives (.valleySpillStart h p) s fun t => s.transfers.length < t.transfers.length := by
  refine ⟨_, if_neg (not_or.mpr ⟨not_le.mpr hp, not_le.mpr hh⟩), ?_⟩
  obtain ⟨n, hn⟩ : ∃ n, 2 ^ 21 = n + 1 := ⟨_, (Nat.succ_pred (by decide)).symm⟩
  rw [hn]
  exact spillDown_starts hl hg ha

/-! ### Transfers that are over (R308, R309, R311) -/

/-- `u` holds the transfers of `s` but for one. -/
def Rid (t : Transfer) (s u : State) : Prop := u.transfers = s.transfers.filter fun x => !(x == t)

section
variable {r : Request} {t : Transfer} {u : State} (hw : Housework s u)

theorem Rid.not_mem (hr : Rid t s u) : t ∉ u.transfers := by
  rw [hr]
  simp

/-- A transfer that the state does not hold is not held when another has gone. -/
theorem Rid.not_mem_of {x : Transfer} (hr : Rid t s u) (hx : x ∉ s.transfers) : x ∉ u.transfers := by
  rw [hr]
  exact fun hm => hx (List.mem_filter.mp hm).1

theorem Rid.mapChains {f : Chain → Chain} (hr : Rid t s u) : Rid t s (mapChains u f) := hr

theorem Rid.work {v : State} (hr : Rid t s u) (hw : Housework u v) : Rid t s v := hw.transfers.trans hr

include hw

theorem Rid.dropTransfer : Rid t s (dropTransfer u t) := by
  unfold Machine.dropTransfer
  extract_lets s1 c
  exact (Housework.giveGranules (.refl s1)).transfers.trans (congrArg (List.filter _) hw.transfers)

theorem Rid.endDiscarded : Rid t s (endDiscarded u t) := .dropTransfer (.freeValleyPage (.ite (.freeSlot hw) hw))

theorem Rid.undoSpill {status : Nat} : Rid t s (undoSpill u r t status) := by
  unfold Machine.undoSpill
  extract_lets e s1
  have hs1 : Housework s s1 := .freeValleyPage (.setEntry hw)
  exact .mapChains (.dropTransfer hs1)

/-- A spill that is issued is over, whether its writes were made, were muted or failed. -/
theorem Rid.issueSpill : Rid t s (issueSpill u r t) := by
  unfold Machine.issueSpill
  extract_lets e g w
  split
  · exact (Rid.undoSpill hw).work (.wakeSlots (.refl _))
  · split
    · exact .undoSpill hw
    · split
      · exact .undoSpill (.refusePage hw)
      · extract_lets c a b s1 s2
        have ha : Housework s a.2 := .writeAt (.takeGen hw)
        have hb : Housework s b.2 := .iteOn Prod.snd (.writeAt ha) ha
        split
        · exact .undoSpill hb
        · have hs2 : Housework s s2 := .bump (.inc (.freeSlot (.setEntry hb)))
          exact (Rid.dropTransfer hs2).work (.wakeSlots (.refl _))

omit hw in
/-- A transfer that has its granule, or gets one, is gone where its work is over. -/
theorem goTransfer_gone {f : State → Transfer → State} (hf : ∀ u x, Rid x u (f u x)) (hg : t.granules ≠ 0 ∨ (waitsBefore s t = false ∧
    (takeGranules s t.half (xferClass t.spill) 1 (some t.tag)).isSome = true)) : t ∉ (goTransfer s t f).transfers := by
  unfold goTransfer
  extract_lets held
  by_cases h0 : t.granules ≠ 0
  · rw [if_pos h0]
    exact (hf s t).not_mem
  · obtain ⟨hb, hone⟩ := hg.resolve_left h0
    obtain ⟨v, hv⟩ := Option.isSome_iff_exists.mp hone
    rw [if_neg h0, if_neg (by simp [hb]), hv]
    refine (hf _ _).not_mem_of fun hm => ?_
    obtain ⟨x, -, hx⟩ := List.mem_map.mp hm
    split at hx
    · exact h0 (hx ▸ Nat.one_ne_zero)
    next hne => exact hne hx

end

/-! ### The commands of a transfer -/

section
variable {num layer head page : Nat} {x : Transfer}

theorem valleySpillIssued_idle (hx : transferOf s h num layer head page true = none) :
    Sets (.valleySpillIssued h num layer head page) s [] :=
  sets_of_next (show execValleySpillIssued h num layer head page s = _ by rw [execValleySpillIssued, hx])

theorem valleyPrefetchLand_idle (hx : transferOf s h num layer head page false = none) :
    Sets (.valleyPrefetchLand h num layer head page) s [] :=
  sets_of_next (show execValleyPrefetchLand h num layer head page s = _ by rw [execValleyPrefetchLand, hx])

/-- The command with which a transfer goes on. -/
def transferStep (h : Half) (num layer head page : Nat) (spill : Bool) : Instr :=
  if spill then .valleySpillIssued h num layer head page else .valleyPrefetchLand h num layer head page

theorem transferStep_discards {spill : Bool} (hx : transferOf s h num layer head page spill = some x) (hd : x.discard = true) :
    Gives (transferStep h num layer head page spill) s fun t => x ∉ t.transfers := by
  have hrid : Rid x s (wakeSlots (endDiscarded s x) h) := (Rid.endDiscarded (.refl s)).work (.wakeSlots (.refl _))
  refine ⟨_, ?_, hrid.not_mem⟩
  cases spill with
  | true =>
    show execValleySpillIssued h num layer head page s = _
    rw [execValleySpillIssued, hx]
    exact if_pos hd
  | false =>
    show execValleyPrefetchLand h num layer head page s = _
    rw [execValleyPrefetchLand, hx]
    exact if_pos hd

theorem transferStep_unasked {spill : Bool} (hx : transferOf s h num layer head page spill = some x) (hd : x.discard = false)
    (hr : s.request num = none) : Sets (transferStep h num layer head page spill) s [] := by
  refine sets_of_next ?_
  cases spill with
  | true =>
    show execValleySpillIssued h num layer head page s = _
    rw [execValleySpillIssued, hx]
    simp [hd, hr]
  | false =>
    show execValleyPrefetchLand h num layer head page s = _
    rw [execValleyPrefetchLand, hx]
    simp [hd, hr]

section
variable {r : Request} (hx : transferOf s h num layer head page true = some x) (hd : x.discard = false) (hr : s.request num = some r)
include hx hd hr

theorem valleySpillIssued_linkDown (hh : s.hostOk h r.fn = false) :
    Gives (.valleySpillIssued h num layer head page) s fun t => x ∉ t.transfers := by
  refine ⟨_, ?_, (Rid.undoSpill (r := r) (status := ST_HOST_LINK_DOWN) (.refl s)).not_mem⟩
  show execValleySpillIssued h num layer head page s = _
  rw [execValleySpillIssued, hx]
  simp [hd, hr, hh]

theorem exec_valleySpillIssued (hh : s.hostOk h r.fn = true) :
    exec (.valleySpillIssued h num layer head page) s = .next (goTransfer s x fun u y => issueSpill u r y) := by
  show execValleySpillIssued h num layer head page s = _
  rw [execValleySpillIssued, hx]
  simp [hd, hr, hh]

variable (hh : s.hostOk h r.fn = true)
include hh

theorem valleySpillIssued_waits (h0 : x.granules = 0) (hb : waitsBefore s x = true) :
    Sets (.valleySpillIssued h num layer head page) s [] :=
  sets_of_next ((exec_valleySpillIssued hx hd hr hh).trans (congrArg _ ((if_neg (not_not.mpr h0)).trans (if_pos hb))))

/-- A spill without its granule, behind no other, waits for it. -/
theorem valleySpillIssued_queues (h0 : x.granules = 0) (hb : waitsBefore s x = false)
    (hn : takeGranules s x.half (xferClass x.spill) 1 (some x.tag) = none) :
    Gives (.valleySpillIssued h num layer head page) s fun t => t = waitGranules s x.half (xferClass x.spill) 1 (some x.tag) := by
  refine ⟨_, exec_valleySpillIssued hx hd hr hh, ?_⟩
  rw [goTransfer, if_neg (not_not.mpr h0), if_neg (by simp [hb]), hn]

theorem valleySpillIssued_gone (hg : x.granules ≠ 0 ∨ (waitsBefore s x = false ∧
    (takeGranules s x.half (xferClass x.spill) 1 (some x.tag)).isSome = true)) :
    Gives (.valleySpillIssued h num layer head page) s fun t => x ∉ t.transfers :=
  ⟨_, exec_valleySpillIssued hx hd hr hh, goTransfer_gone (fun _ _ => .issueSpill (.refl _)) hg⟩

end

end

/-! ### Look-ahead and hand-over (R309, R315) -/

section
variable {num layer : Nat} {r : Request}

theorem lookaheadPrefetch_unasked (hr : s.request num = none) : Sets (.lookaheadPrefetch h num layer) s [] :=
  sets_of_next (show execLookaheadPrefetch h num layer s = _ by rw [execLookaheadPrefetch, hr])

theorem evictSlotHandover_unasked (hr : s.request num = none) : Sets (.evictSlotHandover h num) s [] :=
  sets_of_next (show execEvictSlotHandover h num s = _ by rw [execEvictSlotHandover, hr])

/-- A look-ahead of a layer is due: the layer has been touched, and its look-ahead is not yet over. -/
def LookDue (s : State) (h : Half) (layer : Nat) (r : Request) : Prop :=
  r.half = h ∧ r.paused = false ∧ layer ∈ r.touched ∧ layer + 4096 ∉ r.touched ∧ layer < 4096 ∧ s.hostOk h r.fn = true ∧
    (keyOf s h r.fn .valley).isSome = true

/-- The look-ahead of a layer: the pages of the layers after it. -/
def looked (s : State) (layer : Nat) (r : Request) : State × Bool :=
  lookAhead r (pagesOf (((List.range (mapLookahead r.header)).map (layer + 1 + ·)).filter fun l => decide (l < mapNL r.header))
    (List.range (mapNKV r.header)) 0 (mapNP r.header)) s

theorem not_lookDue_iff : ¬ LookDue s h layer r ↔ r.half ≠ h ∨ r.paused = true ∨ r.touched.contains layer = false ∨
    r.touched.contains (layer + 4096) = true ∨ 4096 ≤ layer ∨ s.hostOk h r.fn = false ∨ (keyOf s h r.fn .valley).isNone = true := by
  simp only [LookDue, not_and_or, not_not, Bool.not_eq_false, Bool.not_eq_true, not_lt, List.contains_eq_mem, decide_eq_true_eq,
    decide_eq_false_iff_not, Option.isNone_iff_eq_none, Option.isSome_eq_false_iff, ne_eq]

section
variable (hr : s.request num = some r)
include hr

theorem request_num : r.num = num := by simpa using List.find?_some hr

theorem lookaheadPrefetch_idle (hd : ¬ LookDue s h layer r) : Sets (.lookaheadPrefetch h num layer) s [] := by
  refine sets_of_next (show execLookaheadPrefetch h num layer s = _ from ?_)
  rw [execLookaheadPrefetch, hr]
  exact if_pos (not_lookDue_iff.mp hd)

theorem exec_lookaheadPrefetch (hd : LookDue s h layer r) : exec (.lookaheadPrefetch h num layer) s =
    .next (if (looked s layer r).2 then
      setRequest (looked s layer r).1 r.num fun q => { q with touched := q.touched ++ [layer + 4096] } else (looked s layer r).1) := by
  show execLookaheadPrefetch h num layer s = _
  rw [execLookaheadPrefetch, hr]
  exact if_neg (mt not_lookDue_iff.mpr (not_not.mpr hd))

theorem lookaheadPrefetch_waits (hd : LookDue s h layer r) (hq : (looked s layer r).2 = false) :
    Gives (.lookaheadPrefetch h num layer) s fun t => t = (looked s layer r).1 :=
  ⟨_, exec_lookaheadPrefetch hr hd, if_neg (by simp [hq])⟩

/-- A look-ahead that is over is noted in its request. -/
theorem lookaheadPrefetch_notes (hd : LookDue s h layer r) (hq : (looked s layer r).2 = true) :
    Gives (.lookaheadPrefetch h num layer) s fun t => ∃ y ∈ t.requests, y.num = num ∧ layer + 4096 ∈ y.touched := by
  have hw : Paging s (looked s layer r).1 := .lookAhead (.refl s)
  obtain ⟨q, -, hm, hn⟩ := hw.mem_setRequest hr (f := fun q => { q with touched := q.touched ++ [layer + 4096] })
  exact ⟨_, (exec_lookaheadPrefetch hr hd).trans (congrArg _ (if_pos hq)), _, hm, hn.trans (request_num hr),
    List.mem_append_right _ (List.mem_singleton_self _)⟩

theorem evictSlotHandover_idle (hf : folding s r = true ∨ ¬ ∃ x ∈ s.handovers, x.half = h ∧ x.request = num ∧ x.granted = false) :
    Sets (.evictSlotHandover h num) s [] := by
  refine sets_of_next (show execEvictSlotHandover h num s = _ from ?_)
  rw [execEvictSlotHandover, hr]
  refine if_pos (hf.imp_right fun hn => ?_)
  refine List.any_eq_false.mpr fun x hx hc => hn ⟨x, hx, ?_⟩
  simpa [and_assoc] using hc

/-- Once no fold reads the victim, each of its hand-overs is granted. -/
theorem evictSlotHandover_grants (hf : folding s r = false)
    (ha : ∃ x ∈ s.handovers, x.half = h ∧ x.request = num ∧ x.granted = false) :
    Gives (.evictSlotHandover h num) s fun t => SameMem s t ∧
      (∀ x ∈ s.handovers, x.half = h → x.request = num → { x with granted := true } ∈ t.handovers) ∧
      ∀ y ∈ t.handovers, y.half = h → y.request = num → y.granted = true := by
  obtain ⟨x, hx, hh, hn, hg⟩ := ha
  have hany : (s.handovers.any fun x => x.half == h && x.request == num && !x.granted) = true :=
    List.any_eq_true.mpr ⟨x, hx, by simp [hh, hn, hg]⟩
  have he : exec (.evictSlotHandover h num) s = .next (wakeCtxs { s with handovers := s.handovers.map fun x =>
      if x.half = h ∧ x.request = num then { x with granted := true } else x } (ofRequestCtx { s with handovers := s.handovers.map fun x =>
        if x.half = h ∧ x.request = num then { x with granted := true } else x } num)) := by
    show execEvictSlotHandover h num s = _
    rw [execEvictSlotHandover, hr]
    exact if_neg (by simp [hf, hany])
  refine ⟨_, he, ?_, fun x hx hh hn => ?_, fun y hy hh hn => ?_⟩
  · exact ctxMoves_wakeCtxs.sameMem
  · rw [(Housework.wakeCtxs (.refl _)).handovers]
    exact List.mem_map.mpr ⟨x, hx, if_pos ⟨hh, hn⟩⟩
  · rw [(Housework.wakeCtxs (.refl _)).handovers] at hy
    obtain ⟨x, -, rfl⟩ := List.mem_map.mp hy
    split
    · rfl
    next hc =>
      rw [if_neg hc] at hh hn
      exact absurd ⟨hh, hn⟩ hc

end

end

/-! ### FLUSH (R321) -/

/-- The node that goes first is one of those that may go. -/
theorem lruNode_mem {l : List PfxNode} {d : PfxNode} (hd : lruNode l = some d) : d ∈ l := by
  refine List.foldlRecOn (motive := fun m => ∀ d, m = some d → d ∈ l) l _ (fun _ hn => by cases hn) (fun m ih n hn d hd => ?_) d hd
  cases m with
  | none => exact Option.some.inj hd ▸ hn
  | some b =>
    dsimp only at hd
    split at hd
    · exact Option.some.inj hd ▸ hn
    · exact ih d hd

theorem lruNode_eq_none {l : List PfxNode} (hn : lruNode l = none) : l = [] := by
  cases l with
  | nil => rfl
  | cons a l =>
    have hsome : (lruNode (a :: l)).isSome = true := by
      refine List.foldlRecOn (motive := fun m : Option PfxNode => m.isSome = true) l _ rfl fun m hm n _ => ?_
      obtain ⟨b, rfl⟩ := Option.isSome_iff_exists.mp hm
      dsimp only
      split <;> rfl
    rw [hn] at hsome
    cases hsome

theorem nodes_dropNode {n : PfxNode} : (dropNode s n).nodes = s.nodes.filter fun c => !(c.half == n.half && c.idx == n.idx) := by
  have hf : Housework s (n.slots.foldl (fun t i => freeSlot t n.half i n.slotLog2) s) := .freeSlots (.refl s)
  unfold dropNode
  dsimp only
  split
  · exact congrArg (List.filter _) (Housework.freeSlot hf).nodes
  · exact congrArg (List.filter _) hf.nodes

theorem flushNodes_flushes {n : Nat} (hn : s.nodes.length ≤ n) :
    ∀ d ∈ (flushNodes h n s).nodes, d.half = h → reclaimable (flushNodes h n s) d = false := by
  induction n generalizing s with
  | zero =>
    intro d hd
    have hnil : s.nodes = [] := List.length_eq_zero_iff.mp (Nat.le_zero.mp hn)
    exact absurd hd (by rw [flushNodes, hnil]; exact List.not_mem_nil)
  | succ n ih =>
    rw [flushNodes]
    split
    next d hd =>
      obtain ⟨hm, -⟩ := List.mem_filter.mp (lruNode_mem hd)
      refine ih (Nat.le_of_lt_succ (lt_of_lt_of_le ?_ hn))
      rw [nodes_dropNode]
      exact List.length_filter_lt_length_iff_exists.mpr ⟨d, hm, by simp⟩
    next hd =>
      intro d hm hh
      by_contra hc
      have : d ∈ s.nodes.filter fun d => d.half == h && reclaimable s d := List.mem_filter.mpr ⟨hm, by simpa [hh] using hc⟩
      rw [lruNode_eq_none hd] at this
      cases this

/-! ### The registers of the slot space and of the Valley tier (R287, R289, R328) -/

theorem bitsAt_lt (x lo w : Nat) : bitsAt x lo w < 2 ^ w := Nat.mod_lt _ (Nat.two_pow_pos w)

section
variable {reg : Fin 5} {i v : Nat}

/-- A write while the setup is locked, or past the last partition or group, is discarded. -/
theorem kvQuotaWrite_discarded (hd : locked s h = true ∨ (if reg.val = 4 then 16 ≤ i else 64 ≤ i)) : Sets (.kvQuotaWrite h reg i v) s [] :=
  sets_of_next (show execKvQuotaWrite h reg i v s = _ from if_pos hd)

section
variable (hl : locked s h = false) (ho : ¬ (if reg.val = 4 then 16 ≤ i else 64 ≤ i))
include hl ho

theorem kvQuotaWrite_refused (hr : kvConfigOk (kvStore s h reg.val i v) h = false ∨
    ((reg.val = 0 ∨ reg.val = 1 ∨ reg.val = 3) ∧ anyOpen s h = true)) :
    Sets (.kvQuotaWrite h reg i v) s [cell (.kv .KV_LAST_STATUS) h 0 ST_KV_CONFIG] :=
  ⟨_, (if_neg (not_or.mpr ⟨by simp [hl], ho⟩)).trans (if_pos (by rwa [or_assoc])), (Only.refl s).wr_lt (by decide)⟩

theorem exec_kvQuotaWrite (hok : kvConfigOk (kvStore s h reg.val i v) h = true)
    (hopen : (reg.val = 0 ∨ reg.val = 1 ∨ reg.val = 3) → anyOpen s h = false) : exec (.kvQuotaWrite h reg i v) s =
      .next (kvLast (if reg.val = 0 ∨ reg.val = 1 then freshSlots (kvStore s h reg.val i v) h else kvStore s h reg.val i v) h ST_OK) := by
  refine (if_neg (not_or.mpr ⟨by simp [hl], ho⟩)).trans (if_neg ?_)
  rintro (hn | ⟨hreg, ha⟩)
  · simp [hok] at hn
  · rw [or_assoc] at hreg
    simp [hopen hreg] at ha

end

/-- The registers that a slot space laid out anew sets. -/
def freshFields : List Fld := [.kv .KV_PSTAT_HELD, .kv .KV_GRP_HELD, .kv .KV_SLOT_FREE, .kv .PFX_STATUS_USED]

/-- The holdings of a half's partitions and groups set to 0. -/
def heldCleared (s : State) (h : Half) : State :=
  (List.range 16).foldl (fun t g => t.wr (.kv .KV_GRP_HELD) h 0 g) ((List.range 64).foldl (fun t p => t.wr (.kv .KV_PSTAT_HELD) h 0 p) s)

theorem touches_heldCleared : Touches s (heldCleared s h) freshFields :=
  ((Touches.refl s _).foldl (fun _ _ ht => ht.wr (by decide) _ _ _) _).foldl (fun _ _ ht => ht.wr (by decide) _ _ _) _

theorem held_heldCleared {k : Nat} (hk : k < 64) : (heldCleared s h).rd (.kv .KV_PSTAT_HELD) h k = 0 := by
  have hg (u : State) : Touches u ((List.range 16).foldl (fun t g => t.wr (.kv .KV_GRP_HELD) h 0 g) u) [.kv .KV_GRP_HELD] :=
    (Touches.refl u _).foldl (fun _ _ ht => ht.wr (List.mem_singleton_self _) _ _ _) _
  have hp := rd_foldl_wr (f := .kv .KV_PSTAT_HELD) (h := h) (val := fun _ => 0) Function.injective_id s 64 k
  exact ((hg _).rd (by decide) h k).trans (hp.trans (if_pos hk))

/-- The slot space wiped, and the directory of the half empty. -/
def emptied (s : State) (h : Half) : State :=
  { s.wipe (s.rd (.kv .KV_SLOT_BASE) h) (s.rd (.kv .KV_SLOT_CFG_COUNT) h) with nodes := s.nodes.filter fun n => n.half != h }

theorem touches_freshSlots : Touches (emptied s h) (freshSlots s h) freshFields :=
  (touches_heldCleared.wr (by decide) ..).wr (by decide) ..

theorem rd_freshSlots {f : Fld} (hf : f ∉ freshFields) (k : Nat) : (freshSlots s h).rd f h k = s.rd f h k := touches_freshSlots.rd hf h k

theorem held_freshSlots {k : Nat} (hk : k < 64) : (freshSlots s h).rd (.kv .KV_PSTAT_HELD) h k = 0 := by
  have hc := held_heldCleared (s := emptied s h) (h := h) hk
  show ((((heldCleared (emptied s h) h).wr _ h _ 0).wr _ h _ 0).rd _ h k) = 0
  simpa using hc

theorem free_freshSlots : (freshSlots s h).rd (.kv .KV_SLOT_FREE) h 0 =
    (s.rd (.kv .KV_SLOT_CFG_COUNT) h - reservedSlots (s.rd (.kv .KV_SLOT_CFG_COUNT) h)) % 2 ^ 21 := by
  show ((((heldCleared (emptied s h) h).wr _ h _ 0).wr _ h _ 0).rd _ h 0) = _
  rw [State.rd_wr, if_neg (by simp), State.rd_wr_self]
  rfl

theorem nodes_freshSlots {n : PfxNode} (hn : n ∈ (freshSlots s h).nodes) : n.half ≠ h := by
  rw [touches_freshSlots.part State.nodes] at hn
  simpa using (List.mem_filter.mp hn).2

theorem rd_kvLast (u : State) {f : Fld} (hf : f ≠ .kv .KV_LAST_STATUS) (st k : Nat) : (kvLast u h st).rd f h k = u.rd f h k :=
  (State.rd_wr ..).trans (if_neg fun hc => hf hc.1)

theorem status_kvLast (u : State) : (kvLast u h ST_OK).rd (.kv .KV_LAST_STATUS) h 0 = ST_OK := State.rd_wr_self ..

theorem nodes_kvLast (u : State) (st : Nat) : (kvLast u h st).nodes = u.nodes := rfl

section
variable (hl : locked s h = false) (hi : i < 64)
include hl hi

/-- A write of KV_SLOT_BASE or KV_SLOT_CFG that is accepted lays the slot space out anew. -/
theorem exec_kvQuotaWrite_shape (hr : reg.val = 0 ∨ reg.val = 1) (hok : kvConfigOk (kvStore s h reg.val i v) h = true)
    (ha : anyOpen s h = false) :
    exec (.kvQuotaWrite h reg i v) s = .next (kvLast (freshSlots (kvStore s h reg.val i v) h) h ST_OK) := by
  have h4 : reg.val ≠ 4 := by omega
  rw [exec_kvQuotaWrite hl (by rw [if_neg h4]; omega) hok fun _ => ha, if_pos hr]

theorem kvQuotaWrite_base (hok : kvConfigOk (kvStore s h 0 i v) h = true) (ha : anyOpen s h = false) :
    Gives (.kvQuotaWrite h 0 i v) s fun t => t.rd (.kv .KV_SLOT_BASE) h 0 = v % 2 ^ 64 ∧ t.rd (.kv .KV_LAST_STATUS) h 0 = ST_OK ∧
      (∀ k < 64, t.rd (.kv .KV_PSTAT_HELD) h k = 0) ∧ ∀ n ∈ t.nodes, n.half ≠ h := by
  have hv : (kvStore s h 0 i v).rd (.kv .KV_SLOT_BASE) h 0 = v % 2 ^ 64 :=
    (State.rd_wr ..).trans ((if_neg (by simp)).trans (State.rd_wr_self ..))
  refine ⟨_, exec_kvQuotaWrite_shape (reg := 0) hl hi (.inl rfl) hok ha, ?_, status_kvLast _, fun k hk => ?_, fun n hn => ?_⟩
  · rw [rd_kvLast _ (by decide), rd_freshSlots (by decide)]
    exact hv
  · rw [rd_kvLast _ (by decide), held_freshSlots hk]
  · rw [nodes_kvLast] at hn
    exact nodes_freshSlots hn

theorem kvQuotaWrite_count (hok : kvConfigOk (kvStore s h 1 i v) h = true) (ha : anyOpen s h = false) :
    Gives (.kvQuotaWrite h 1 i v) s fun t => t.rd (.kv .KV_SLOT_CFG_COUNT) h 0 = bitsAt v 0 21 ∧
      t.rd (.kv .KV_LAST_STATUS) h 0 = ST_OK ∧ t.rd (.kv .KV_SLOT_FREE) h 0 = bitsAt v 0 21 - reservedSlots (bitsAt v 0 21) ∧
      ∀ n ∈ t.nodes, n.half ≠ h := by
  have hv : (kvStore s h 1 i v).rd (.kv .KV_SLOT_CFG_COUNT) h 0 = bitsAt v 0 21 :=
    (State.rd_wr_self ..).trans (Nat.mod_eq_of_lt (bitsAt_lt v 0 21))
  refine ⟨_, exec_kvQuotaWrite_shape (reg := 1) hl hi (.inr rfl) hok ha, ?_, status_kvLast _, ?_, fun n hn => ?_⟩
  · rw [rd_kvLast _ (by decide), rd_freshSlots (by decide)]
    exact hv
  · rw [rd_kvLast _ (by decide), free_freshSlots, show (kvStore s h (1 : Fin 5).val i v).rd (.kv .KV_SLOT_CFG_COUNT) h 0 = _ from hv]
    exact Nat.mod_eq_of_lt (lt_of_le_of_lt (Nat.sub_le ..) (bitsAt_lt v 0 21))
  · rw [nodes_kvLast] at hn
    exact nodes_freshSlots hn

theorem kvQuotaWrite_quota (hok : kvConfigOk (kvStore s h 2 i v) h = true) : Sets (.kvQuotaWrite h 2 i v) s
    [cell (.kv .KV_LAST_STATUS) h 0 ST_OK, cell (.kv .KV_QUOTA_QUOTA) h i (bitsAt v 0 21), cell (.kv .KV_QUOTA_HIGH) h i (bitsAt v 21 21),
      cell (.kv .KV_QUOTA_LOW) h i (bitsAt v 42 21)] := by
  refine ⟨_, exec_kvQuotaWrite (reg := 2) hl (by simpa using hi) hok (fun hr => absurd hr (by decide)), ?_⟩
  refine Only.perm (((((Only.refl s).wr_lt (bitsAt_lt v 0 21)).wr_lt (bitsAt_lt v 21 21)).wr_lt (bitsAt_lt v 42 21)).wr_lt
    (show ST_OK < 2 ^ 16 by decide)) (.cons _ ?_) (by simp)
  exact (List.reverse_perm _).symm

theorem kvQuotaWrite_group (hok : kvConfigOk (kvStore s h 3 i v) h = true) (ha : anyOpen s h = false) : Sets (.kvQuotaWrite h 3 i v) s
    [cell (.kv .KV_LAST_STATUS) h 0 ST_OK, cell (.kv .KV_PGRP_SGRP) h i (bitsAt v 0 4), cell (.kv .KV_PGRP_SG_EN) h i (bitsAt v 4 1)] :=
  ⟨_, exec_kvQuotaWrite (reg := 3) hl (by simpa using hi) hok fun _ => ha,
    (((Only.refl s).wr_lt (bitsAt_lt v 4 1)).wr_lt (bitsAt_lt v 0 4)).wr_lt (show ST_OK < 2 ^ 16 by decide)⟩

end

theorem kvQuotaWrite_groupQuota (hl : locked s h = false) (hi : i < 16) (hok : kvConfigOk (kvStore s h 4 i v) h = true) :
    Sets (.kvQuotaWrite h 4 i v) s [cell (.kv .KV_LAST_STATUS) h 0 ST_OK, cell (.kv .KV_GRP_QUOTA) h i (bitsAt v 0 21)] :=
  ⟨_, exec_kvQuotaWrite (reg := 4) hl (by simpa using hi) hok (fun hr => absurd hr (by decide)),
    ((Only.refl s).wr_lt (bitsAt_lt v 0 21)).wr_lt (show ST_OK < 2 ^ 16 by decide)⟩

end

section
variable {p : Fin 64} {v : Nat}

theorem valleyConfigWrite_discarded {reg : Fin 3} (hl : locked s h = true) : Sets (.valleyConfigWrite h p reg v) s [] :=
  sets_of_next (show execValleyConfigWrite h p reg v s = _ from if_pos hl)

section
variable (hl : locked s h = false)
include hl

theorem valleyConfigWrite_refused {reg : Fin 3} (hr : (s.requests.any fun r => r.half == h && r.fn == p.val) = true ∨
    (reg.val < 2 ∧ (v % 4096 ≠ 0 ∨ 2 ^ 63 ≤ v % 2 ^ 64))) :
    Sets (.valleyConfigWrite h p reg v) s [cell (.kv .KV_LAST_STATUS) h 0 ST_KV_CONFIG] :=
  ⟨_, (if_neg (by simp [hl])).trans (if_pos hr), (Only.refl s).wr_lt (by decide)⟩

variable (ha : ∀ r ∈ s.requests, r.half = h → r.fn ≠ p.val)
include ha

omit hl in
theorem no_request : ¬ (s.requests.any fun r => r.half == h && r.fn == p.val) = true := by
  simpa using ha

theorem valleyConfigWrite_base (hv : v % 4096 = 0) (hv64 : v % 2 ^ 64 < 2 ^ 63) :
    Sets (.valleyConfigWrite h p 0 v) s [cell (.kv .KV_LAST_STATUS) h 0 ST_OK, cell (.kv .VALLEY_BASE) h p.val (v % 2 ^ 64)] :=
  ⟨_, (if_neg (by simp [hl])).trans (if_neg (not_or.mpr ⟨no_request ha, fun hc => hc.2.elim (· hv) (not_le.mpr hv64)⟩)),
    ((Only.refl s).wr ..).wr_lt (show ST_OK < 2 ^ 16 by decide)⟩

theorem valleyConfigWrite_tag (hv : v % 4096 = 0) (hv64 : v % 2 ^ 64 < 2 ^ 63) :
    Sets (.valleyConfigWrite h p 1 v) s [cell (.kv .KV_LAST_STATUS) h 0 ST_OK, cell (.kv .VALLEY_TAG) h p.val (v % 2 ^ 64)] :=
  ⟨_, (if_neg (by simp [hl])).trans (if_neg (not_or.mpr ⟨no_request ha, fun hc => hc.2.elim (· hv) (not_le.mpr hv64)⟩)),
    ((Only.refl s).wr ..).wr_lt (show ST_OK < 2 ^ 16 by decide)⟩

theorem valleyConfigWrite_units : Sets (.valleyConfigWrite h p 2 v) s [cell (.kv .KV_LAST_STATUS) h 0 ST_OK,
    cell (.kv .VALLEY_CFG_UNITS) h p.val (bitsAt v 0 24), cell (.kv .VALLEY_CFG_EN) h p.val (bitsAt v 31 1)] :=
  ⟨_, (if_neg (by simp [hl])).trans (if_neg (not_or.mpr ⟨no_request ha, fun hc => absurd hc.1 (by decide)⟩)),
    (((Only.refl s).wr_lt (bitsAt_lt v 31 1)).wr_lt (bitsAt_lt v 0 24)).wr_lt (show ST_OK < 2 ^ 16 by decide)⟩

end

end

end

/-- Settles O47: spills, transfers, look-aheads, hand-overs, the flush and each register have their lemmas above. -/
theorem kvTransfersAndSlots : Obligations.KvTransfersAndSlots := by
  unfold Obligations.KvTransfersAndSlots
  intro h num layer head page i v p s
  refine ⟨fun q hq => valleySpillStart_idle (.inl hq), fun hp => valleySpillStart_idle (.inr hp), valleySpillStart_starts p.isLt,
    valleySpillIssued_idle, valleyPrefetchLand_idle, fun x spill hx => ?transfers,
    fun hr => ⟨lookaheadPrefetch_unasked hr, evictSlotHandover_unasked hr⟩,
    fun r hr => ⟨lookaheadPrefetch_idle hr, lookaheadPrefetch_waits hr, lookaheadPrefetch_notes hr⟩,
    fun r hr => ⟨evictSlotHandover_idle hr, evictSlotHandover_grants hr⟩, ⟨_, rfl, flushNodes_flushes le_rfl⟩,
    fun hl => ⟨fun reg => kvQuotaWrite_discarded (.inl hl), fun reg => valleyConfigWrite_discarded hl⟩, fun hl => ?registers⟩
  case transfers =>
    refine ⟨transferStep_discards hx, transferStep_unasked hx, fun r hd hr => ?_⟩
    cases spill with
    | false => exact ⟨nofun, nofun⟩
    | true =>
      refine ⟨fun _ => valleySpillIssued_linkDown hx hd hr, fun _ hh => ?_⟩
      have hh : s.hostOk h r.fn = true := hh.resolve_right (by decide)
      exact ⟨valleySpillIssued_waits hx hd hr hh, valleySpillIssued_queues hx hd hr hh, fun hg _ => valleySpillIssued_gone hx hd hr hh hg⟩
  case registers =>
    refine ⟨fun reg => ⟨fun ho => kvQuotaWrite_discarded (.inr ho), kvQuotaWrite_refused hl⟩,
      fun hok ha hi => kvQuotaWrite_base hl hi hok ha,
      fun hok ha hi => kvQuotaWrite_count hl hi hok ha, fun hok hi => kvQuotaWrite_quota hl hi hok,
      fun hok ha hi => kvQuotaWrite_group hl hi hok ha, fun hok hi => kvQuotaWrite_groupQuota hl hi hok,
      fun ⟨r, hm, hh, hf⟩ reg => valleyConfigWrite_refused hl (.inl (List.any_eq_true.mpr ⟨r, hm, by simp [hh, hf]⟩)),
      fun ha => ⟨fun hv => ⟨valleyConfigWrite_refused hl (.inr ⟨by decide, hv⟩), valleyConfigWrite_refused hl (.inr ⟨by decide, hv⟩)⟩,
        fun hv hv64 => ⟨valleyConfigWrite_base hl ha hv hv64, valleyConfigWrite_tag hl ha hv hv64⟩, valleyConfigWrite_units hl ha⟩⟩

end Sys2Proof
end
